-- ==== Sys2Proof/Word.lean ====
section
/-!
DEFINITION. The word and byte types of the model and their plainest arithmetic (R8: bit 0 is the least significant bit and
multi-byte fields are little-endian).
-/
namespace Sys2Proof

/-- A 32-bit register word. -/
abbrev Word := BitVec 32

/-- A byte. -/
abbrev Byte := BitVec 8

end Sys2Proof
end

