-- ==== Sys2Proof/Machine/Types.lean ====
section
/-!
DEFINITION. The names the commands and the state are written in: lanes, engines, sequencers, initiators, parties.
-/
namespace Sys2Proof.Machine

/-- One of the two lanes (R15, R17). -/
inductive Lane where
  | ln0
  | ln1
  deriving DecidableEq, Repr

/-- One of the three balance engines (R16). -/
inductive BEng where
  | lane (l : Lane)
  | spindle
  deriving DecidableEq, Repr

/-- One of the four escapement sequencers: sequencer 0 or 1 of a lane (R16, R26). -/
structure SeqId where
  lane : Lane
  second : Bool
  deriving DecidableEq, Repr

/-- The lane's number. -/
def Lane.idx : Lane → Nat
  | .ln0 => 0
  | .ln1 => 1

/-- The other lane. -/
def Lane.other : Lane → Lane
  | .ln0 => .ln1
  | .ln1 => .ln0

/-- The lane's register base (R15, R24). -/
def Lane.base (l : Lane) : Nat := 0xF0100000 + 0x100000 * l.idx

/-- The base of the registers of the lane's media L2 in the memory section (R354). -/
def Lane.ml2base (l : Lane) : Nat := 0xF0300400 + 0x100 * l.idx

/-- The register base of the section that holds the balance engine (R26). -/
def BEng.base : BEng → Nat
  | .lane l => l.base
  | .spindle => 0xF0400000

/-- The balance engine's number: 0 and 1 for the lanes, 2 for the spindle. -/
def BEng.idx : BEng → Nat
  | .lane l => l.idx
  | .spindle => 2

/-- The sequencer's number, 0 to 3. -/
def SeqId.idx (q : SeqId) : Nat := 2 * q.lane.idx + (if q.second then 1 else 0)

/-- The sequencer's register base (R26). -/
def SeqId.base (q : SeqId) : Nat := q.lane.base + (if q.second then 0x48000 else 0x40000)

/-! ### The fabric (R24 to R33) -/

/-- The seven sections (R15). -/
inductive Section where
  | host
  | lane (l : Lane)
  | memory
  | spindle
  | security
  | regulator
  deriving DecidableEq, Repr

/-- Who makes a register access: the boot ROM, an engine of R16 or a unit acting for it, or the JTAG port (R28). -/
inductive Initiator where
  | bootRom
  | oprok
  | host (core : Nat)
  | media (l : Lane) (core : Nat)
  | servo (l : Lane) (core : Nat)
  | seq (q : SeqId)
  | regulator
  | jtag
  deriving DecidableEq, Repr

/-- The four parties of a contended point (R32). -/
inductive Party where
  | ln0
  | ln1
  | host
  | cipher
  deriving DecidableEq, Repr

/-- The party's number, in the rotating order of R32. -/
def Party.idx : Party → Nat
  | .ln0 => 0
  | .ln1 => 1
  | .host => 2
  | .cipher => 3

/-- The party of a number. -/
def Party.ofIdx : Nat → Party
  | 0 => .ln0
  | 1 => .ln1
  | 2 => .host
  | _ => .cipher

/-- The next party in the rotating order (R32). -/
def Party.next : Party → Party
  | .ln0 => .ln1
  | .ln1 => .host
  | .host => .cipher
  | .cipher => .ln0

/-- The party a lane is (R32). -/
def Lane.party : Lane → Party
  | .ln0 => .ln0
  | .ln1 => .ln1

/-- The users of the service port (R33). -/
inductive ServiceUser where
  | regulator
  | security
  | spindle
  | jtag
  | scrubber
  deriving DecidableEq, Repr

/-- Who presents a request at a contended point: a party, or a user of the service port (R32, R33). -/
inductive Requester where
  | party (p : Party)
  | service (u : ServiceUser)
  deriving DecidableEq, Repr

/-- A fabric target port (R32): one SRAM bank, the DRAM controller, the cipher engine, or a section's register blocks. -/
inductive Target where
  | sram (bank : Nat)
  | dram
  | cipherEngine
  | registers (s : Section)
  | bootRom
  deriving DecidableEq, Repr

/-- A contended point (R32). -/
inductive ContPoint where
  | poolAllocator
  | cipherQueues
  | target (t : Target)
  deriving DecidableEq, Repr

/-- What a fabric request asks for. -/
inductive Access where
  | read
  | write (data : Nat)
  deriving DecidableEq, Repr

/-- The field in which a byte parity error is found (R30). -/
inductive ParityField where
  | addressOrCommand
  | writeData
  | readData
  deriving DecidableEq, Repr

/-- How an access is answered (R30, R31, R337). -/
inductive Reply where
  | data (v : Nat)
  | done
  | busError
  | uncorrectable
  | writeToPoisoned
  deriving DecidableEq, Repr

/-! ### Memory and caches (R332 to R356) -/

/-- Where a memory access comes from, as MS_ERRINFO.SRC numbers it (R353). -/
inductive MemSrc where
  | ln0
  | ln1
  | host
  | cipher
  | service
  | scrubber
  deriving DecidableEq, Repr

/-- MS_ERRINFO.SRC (R353). -/
def MemSrc.code : MemSrc → Nat
  | .ln0 => 0
  | .ln1 => 1
  | .host => 2
  | .cipher => 3
  | .service => 4
  | .scrubber => 5

/-- What befell a word since it was last accessed, or befalls this access: data and check bits flipped in the array, and a
faulty row decoder that reads another word (R334). All zero and `none` where nothing did. -/
structure Upset where
  data : Nat := 0
  check : Nat := 0
  row : Option Nat := none
  deriving DecidableEq, Repr

/-- The state of a cache tag's own SECDED code at an access (R349). -/
inductive TagErr where
  | good
  | corrected
  | uncorrectable
  deriving DecidableEq, Repr

/-- One of the three L2 caches (R348). -/
inductive CacheId where
  | host
  | media (l : Lane)
  deriving DecidableEq, Repr

/-- The outcome of DRAM training (R339, R340): the fitted size as MS_STATUS.SIZE codes it, or the failing channel and step. -/
inductive DramTraining where
  | passed (size : Nat)
  | failed (channel step : Nat)
  deriving DecidableEq, Repr

/-! ### Boot, calibre, crown port (R34 to R51, R434 to R464) -/

/-- The straps latched at reset release (R424, R475). -/
structure Straps where
  factory : Bool := false
  aonXclk : Bool := false
  scan : Bool := false
  deriving DecidableEq, Repr

/-- What the Oprok core's signature arithmetic finds of one firmware image: the ECDSA verdict and the GCM tag verdict
(R440 codes 4 and 6). -/
structure ImageObs where
  signature : Bool := false
  gcm : Bool := false
  deriving DecidableEq, Repr

/-- What the Oprok core finds of the patch image (R325, R326): none; the plaintext of one whose header, signature and tag are good, with its
sequence; or the step that fails. -/
inductive PatchObs where
  | noPatch
  | image (pvec : Bool) (sequence : Nat) (traps words : List Nat)
  | rejected (step : Nat)
  deriving DecidableEq, Repr

/-- What a sequencer's fetch meets: nothing amiss, a parity error on the microword, or one on a trap register (R322). -/
inductive FetchErr where
  | good
  | word
  | trap
  deriving DecidableEq, Repr

/-- What the boot ROM meets on one boot and no rule computes: NOR reads that do not complete (R41), the verdicts on the two
firmware slots (R440), a failing self-test (R373), the patch (R326). -/
structure BootObs where
  readErrA : Bool := false
  readErrB : Bool := false
  slotA : ImageObs := {}
  slotB : ImageObs := {}
  selfTestFail : Option Nat := none
  patch : PatchObs := .noPatch
  /-- the ladders of the regulator ADC and of the motor ADC nearer the bandgap: false A, true B (R418) -/
  ladderReg : Bool := false
  ladderMotor : Bool := false
  deriving DecidableEq, Repr

/-- The Oprok core's verdict on a calibre copy (R41 step 3, R50). -/
inductive Verdict where
  | valid
  | signatureFailed
  | keyRefused
  deriving DecidableEq, Repr

/-! ### Host link, queues and commands (R52 to R122) -/

/-- A fetched command: its controller (0 or 1), its submission queue (0: admin) and its command identifier. -/
structure CmdId where
  ctrl : Nat
  sq : Nat
  cid : Nat
  deriving DecidableEq, Repr

/-- Zone Management Send actions (R66). -/
inductive ZoneAct where
  | close
  | finish
  | openZone
  | reset
  | offline
  deriving DecidableEq, Repr

/-- The protection-information control of a command: PRACT, the three checks, the expected tags (R63, R103). -/
structure PiCtl where
  pract : Bool := false
  guard : Bool := false
  app : Bool := false
  ref : Bool := false
  refTag : Nat := 0
  appTag : Nat := 0
  appMask : Nat := 0
  deriving DecidableEq, Repr

/-- A reservation command's action, as NVMe numbers it: register 0, unregister 1, replace 2; acquire 0, preempt 1, preempt and
abort 2; release 0, clear 1. -/
structure ResArgs where
  action : Nat
  rtype : Nat := 0
  curKey : Nat := 0
  newKey : Nat := 0
  ignoreKey : Bool := false
  /-- change of persistence through power loss: 0 none, 2 off, 3 on -/
  cptpl : Nat := 0
  deriving DecidableEq, Repr

/-- An I/O command as its submission entry spells it (R60, R87). `n` counts blocks. -/
inductive IoOp where
  | read (slba n : Nat) (pi : PiCtl)
  | verify (slba n : Nat) (pi : PiCtl)
  | write (slba n : Nat) (pi : PiCtl)
  | writeZeroes (slba n : Nat)
  | deallocate (ranges : List (Nat × Nat))
  | flush
  | zoneAppend (zslba n : Nat) (pi : PiCtl)
  | zoneReceive (slba : Nat) (extended : Bool)
  | zoneSend (act : ZoneAct) (slba : Nat) (all : Bool)
  | resRegister (a : ResArgs)
  | resReport
  | resAcquire (a : ResArgs)
  | resRelease (a : ResArgs)
  | other (opcode : Nat)
  deriving DecidableEq, Repr

/-- What a submission entry holds: an I/O command with its NSID, or an admin command's opcode. -/
inductive SqOp where
  | io (nsid : Nat) (op : IoOp)
  | admin (opcode : Nat)
  deriving DecidableEq, Repr

/-- A submission entry. -/
structure Sqe where
  cid : Nat
  op : SqOp
  deriving DecidableEq, Repr

/-- A read of host memory that fails (R55). -/
inductive HostRead where
  | latePull (id : CmdId) (unit : Nat)
  | queueFetch (ctrl : Nat)
  deriving DecidableEq, Repr

/-- A block as the host supplies it: 4,096 data bytes and up to 16 bytes of metadata, each one little-endian number. -/
structure Blk where
  data : Nat := 0
  md : Nat := 0
  deriving DecidableEq, Repr

/-- Where the media core places a write when it needs a band: a free band, its lane, head and good slots after slipping (R124,
R147). -/
structure Place where
  lane : Lane
  band : Nat
  head : Nat
  slots : Nat
  deriving DecidableEq, Repr

/-- The sector of a unit a write slot serves: data sector `j`, or trailer copy `j - n` (R135). -/
structure SectorRef where
  id : CmdId
  unit : Nat
  j : Nat
  deriving DecidableEq, Repr

/-- NVMe statuses the device returns (R81, R88 and the rules that name them). -/
inductive Status where
  | success
  | invalidOpcode
  | invalidField
  | invalidNs
  | lbaRange
  | zoneBoundary
  | zoneInvalidWrite
  | zoneFull
  | zoneReadOnly
  | zoneOffline
  | zoneTransition
  | tooManyActive
  | resConflict
  | nsNotReady
  | formatInProgress
  | sanitizeInProgress
  | sequenceError
  | abortedSq
  | abortRequested
  | dataTransfer
  | internal
  | writeFault
  | unrecoveredRead
  | guardCheck
  | appTagCheck
  | refTagCheck
  | invalidVector
  | invalidQueueId
  | invalidQueueSize
  | cqInvalid
  | queueDeletion
  | aerLimit
  | nsIdUnavailable
  | nsCapacity
  | nsAttached
  | nsNotAttached
  | ctrlListInvalid
  | deferredWrite
  | retainedLoss
  | keyRetiring
  deriving DecidableEq, Repr

/-- What a reading of one slot during band-close verification finds, beside those that decode well (R151): the slots that
decode only late, those that fail for good, failing trailer slots being left out; and whether a parity slot failed. -/
structure VerifyObs where
  weak : List Nat := []
  failed : List Nat := []
  parity : Bool := false
  spareFull : Bool := false
  deriving DecidableEq, Repr

/-- What a map rebuild meets on the medium and no state tells: checkpoint headers that do not read, journal sectors lost in both copies,
trailer copies (unit's sequence; copy 1 or 0) that do not decode (R142 to R146). -/
structure RebuildObs where
  noHeadA : Bool := false
  noHeadB : Bool := false
  lost : List Nat := []
  badCopies : List (Nat × Bool) := []
  deriving DecidableEq, Repr

/-- How a trailer copy stands on the medium (R144). -/
inductive CopySt where
  | blank
  | part
  | good
  | failed
  deriving DecidableEq, Repr

/-! ### Cipher (R357 to R375) -/

/-- The four sources of cipher entries (R359). -/
inductive CipherSource where
  | lane (l : Lane)
  | host
  | security
  deriving DecidableEq, Repr

/-- The source's number, as CX_QSTAT and SUSPSRC number it (R374). -/
def CipherSource.idx : CipherSource → Nat
  | .lane l => l.idx
  | .host => 2
  | .security => 3

/-- What drive firmware asks of the Oprok core through the key mailbox (R368). -/
inductive KeyRequest where
  | load (nsid slot blobAddr : Nat)
  | generate (nsid slot epoch tenant : Nat)
  | erase (nsid slot : Nat)
  | map (nsid slot : Nat)
  | unmap (nsid slot : Nat)
  deriving DecidableEq, Repr

/-! ### Lanes and spindle (R162 to R331) -/

/-- What the channel's analogue path gives for a captured sector, beside the samples themselves (R164 to R180): the positions that
look like the sync mark, as Hamming distance and position from nominal; no preamble found; the loop lost lock; more than 1 % of the
samples overrange; GAIN at a limit for the whole sector; and what the loops have adapted to: gain, integral term, the equaliser's taps of reader A and of reader B. -/
structure CaptureObs where
  cands : List (Nat × Int) := []
  noPreamble : Bool := false
  unlocked : Bool := false
  overrange : Bool := false
  gainLimit : Bool := false
  gain : Nat := 0
  ferr : Nat := 0
  taps : List Nat := []
  tapsB : List Nat := []
  deriving DecidableEq, Repr

/-- How a decode attempt ends (R177, R178): converged; iterations run; unsatisfied checks; the seal's CRC agrees; the band and slot
its seal names; a parity error in the replay slot (R187). -/
structure DecodeObs where
  conv : Bool := false
  iter : Nat := 0
  usc : Nat := 0
  crc : Bool := false
  band : Nat := 0
  slot : Nat := 0
  parity : Bool := false
  deriving DecidableEq, Repr

/-- What one reader's demodulation of a wedge finds (R243, R244): the SAM, the wedge index with its parity, the track, and the burst
amplitudes in units of 1/65,536 of the ADC's full scale. -/
structure WedgeRd where
  sam : Bool := true
  idx : Nat := 0
  idxPar : Bool := true
  track : Nat := 0
  a : Nat := 0
  b : Nat := 0
  c : Nat := 0
  d : Nat := 0
  deriving DecidableEq, Repr

/-- The conditions of R310 that no state of the model tells at the cycle of a microword: the events of group 0, the position's and the
slot's place against the wedges, and whether the write path has pulled the current slot's page. -/
structure CondObs where
  sectStart : Bool := false
  wedge : Bool := false
  index : Bool := false
  inArea : Bool := false
  wrReady : Bool := false
  split : Bool := false
  deriving DecidableEq, Repr

/-- The class of a listen (R283), from the back-EMF vector: its speed, if valid, in rpm / 1000, its angle less 90° as a 32-bit count. -/
structure ListenObs where
  mrpm : Option Int := none
  theta : Nat := 0
  deriving DecidableEq, Repr

end Sys2Proof.Machine
end

