-- ==== Sys2Proof/Syntax.lean ====
section
/-!
DEFINITION. The commands of the block: one constructor for each row of spec/opcode_table.json, in the table's order, with the row's
operands. The table gives the rows no bits; the operands are the ones the row's rule speaks of. What the environment, firmware or
a sensor contributes to an event is an operand of the event's command.
-/
namespace Sys2Proof
open Sys2Proof.Machine

/-- A command (R-numbers name the governing rule of each row). -/
inductive Instr where
  /-- PLL_LOCK_LOSS: Loss of root PLL lock forces write gates and spindle gates off, asserts emergency retract and holds domains 1 to 22 in reset. (R23) -/
  | pllLockLoss
  /-- FABRIC_REQUEST: An initiator presents a request at a contended fabric point. (R32) -/
  | fabricRequest (id : Nat) (who : Requester) (urgent : Bool) (point : ContPoint) (addr : Nat) (acc : Access) (par : Option ParityField)
  /-- ARBITRATION_GRANT: A contended point grants a waiting request in rotating order, urgent first, and advances its pointer. (R32) -/
  | arbitrationGrant (point : ContPoint)
  /-- SERVICE_PORT_FORCED_GRANT: A service-port request that has waited 16 cycles is granted ahead of all others without moving the pointer. (R33) -/
  | servicePortForcedGrant (point : ContPoint)
  /-- FABRIC_RESPONSE_TIMEOUT: A request without response after 4,096 fabric cycles is completed with a bus error by the requester's port. (R31) -/
  | fabricResponseTimeout (id : Nat)
  /-- LATE_RESPONSE_DISCARD: A response arriving after its request timed out is discarded. (R31) -/
  | lateResponseDiscard (id : Nat)
  /-- REGISTER_WRITE: A write to a register that has no row of its own acts under its access code, with alignment, range and permission checks. (R11) -/
  | registerWrite (who : Initiator) (addr : Nat) (size : Nat) (value : Word)
  /-- RC_REGISTER_READ: A read of a read-and-clear counter returns its value and then clears it. (R11) -/
  | rcRegisterRead (who : Initiator) (addr : Nat) (size : Nat)
  /-- POWER_ON_RESET: Power-on reset starts a device reset from which the boot ROM runs from its start. (R43) -/
  | powerOnReset (straps : Straps)
  /-- RESET_N_ASSERT: RESET_N low for at least 1 µs causes a device reset. (R424) -/
  | resetNAssert (straps : Straps)
  /-- ROOT_PLL_LOCK: The root PLL locks after reset release and domains 1 to 22 leave reset. (R441) -/
  | rootPllLock (obs : BootObs)
  /-- OPROK_CALIBRE_VERDICT: The Oprok core returns its signature verdict on a calibre copy. (R41) -/
  | oprokCalibreVerdict (v : Verdict)
  /-- OPROK_VERDICT_TIMEOUT: A calibre copy without an Oprok verdict within 20 ms is rejected with code 0x09. (R41) -/
  | oprokVerdictTimeout
  /-- CB_CTRL_LOCK_WRITE: Setting CB_CTRL.LOCK locks every CB_ field until the next device reset. (R43) -/
  | cbCtrlLockWrite (who : Initiator) (value : Word)
  /-- DRAM_SECTIONS_LOADED: DRAM-bound sections are copied as regions are released and RG_BOOTSTAT.LOADED is set. (R441) -/
  | dramSectionsLoaded
  /-- SRAM_FILL_COMPLETE: All SRAM banks are zero-filled with valid check bits and SRAMRDY is set. (R339) -/
  | sramFillComplete
  /-- DRAM_TRAINING_COMPLETE: DRAM training ends and the DRAM fill starts at region 0. (R339) -/
  | dramTrainingComplete (res : DramTraining)
  /-- DRAM_REGION_FILLED: A DRAM region finishes its fill and is released; after region 63 DRAMRDY is set. (R339) -/
  | dramRegionFilled (us : Nat)
  /-- PERST_ASSERT: PERST# assertion resets the port's controller as a controller reset without completions. (R55) -/
  | perstAssert (port : Nat)
  /-- PERST_DEASSERT: PERST# deassertion starts link training, with configuration requests retried until cores are released. (R53) -/
  | perstDeassert (port : Nat)
  /-- LINK_TRAINED: A port trains at the highest permitted generation and the link comes up. (R53) -/
  | linkTrained (port : Nat) (gen : Nat) (width : Nat)
  /-- LINK_DOWN: Link loss with PERST# deasserted acts as PERST# and the link retrains itself. (R55) -/
  | linkDown (port : Nat)
  /-- CONFIG_REQUEST: A configuration request is answered, with retry status until the host cores are released. (R53) -/
  | configRequest (port : Nat)
  /-- HOST_READ_COMPLETION_TIMEOUT: A host-memory read without completion in 50 ms fails the late pull or the queue fetch. (R55) -/
  | hostReadCompletionTimeout (rd : HostRead)
  /-- POISONED_TLP: A poisoned or unsupported-request completion on a host-memory read is handled as a completion timeout. (R55) -/
  | poisonedTlp (rd : HostRead)
  /-- CORRECTABLE_ERROR: A correctable link error increments CORR_CNT. (R54) -/
  | correctableError (port : Nat)
  /-- L1_2_ENTRY: A port enters ASPM L1.2 through CLKREQ#. (R54) -/
  | l12Entry (port : Nat)
  /-- L1_2_EXIT: A port leaves L1.2 on CLKREQ#. (R54) -/
  | l12Exit (port : Nat)
  /-- CC_EN_SET: Setting CC.EN enables a controller, with readiness depending on CRIME. (R59) -/
  | ccEnSet (ctrl : Nat) (crime : Bool) (asq : Nat) (acq : Nat)
  /-- CONTROLLER_READY: CSTS.RDY is set once the spindle is at speed and the rebuild done, or within 2 s with CRIME. (R59) -/
  | controllerReady (ctrl : Nat)
  /-- CC_EN_CLEAR: Clearing CC.EN aborts the controller's fetched commands without completions, continuing started units. (R116) -/
  | ccEnClear (ctrl : Nat)
  /-- CONTROLLER_RESET_DRAINED: All continuing units and zone sends of the reset controller have ended and CSTS.RDY reads 0. (R116) -/
  | controllerResetDrained (ctrl : Nat)
  /-- RDY_CLEAR_TIMEOUT: 100 ms after CC.EN was cleared CSTS.RDY reads 0 while units still run on. (R116) -/
  | rdyClearTimeout (ctrl : Nat)
  /-- SQ_TAIL_DOORBELL: Host software writes a submission queue tail doorbell. (R90) -/
  | sqTailDoorbell (ctrl : Nat) (sq : Nat) (tail : Nat)
  /-- COMMAND_FETCH: The fetch arbiter fetches a submission entry, stamps it and enters its overlap entries. (R90) -/
  | commandFetch (ctrl : Nat) (sq : Nat) (entry : Sqe)
  /-- FETCH_RESUME: Fetching resumes in the first cycle in which neither pause condition holds. (R93) -/
  | fetchResume
  /-- COALESCING_TIMEOUT: The aggregation time expires and the held MSI-X message is sent. (R61) -/
  | coalescingTimeout (ctrl : Nat) (cq : Nat)
  /-- CREATE_IO_SQ: Admin command creating an I/O submission queue. (R60) -/
  | createIoSq (id : CmdId) (qid : Nat) (size : Nat) (cqid : Nat) (pc : Bool)
  /-- CREATE_IO_CQ: Admin command creating an I/O completion queue, refused for an out-of-range vector. (R61) -/
  | createIoCq (id : CmdId) (qid : Nat) (size : Nat) (vector : Nat) (pc : Bool) (ien : Bool)
  /-- DELETE_IO_SQ: Admin command deleting a submission queue, aborting its uncompleted commands. (R117) -/
  | deleteIoSq (id : CmdId) (qid : Nat)
  /-- DELETE_SQ_COMPLETE: Delete I/O SQ completes after every command fetched from the queue has completed. (R117) -/
  | deleteSqComplete (id : CmdId)
  /-- DELETE_IO_CQ: Admin command deleting an I/O completion queue. (R60) -/
  | deleteIoCq (id : CmdId) (qid : Nat)
  /-- GET_LOG_PAGE: Admin command returning a log page, with optional clearing of log 0xC0. (R75) -/
  | getLogPage (id : CmdId) (lid : Nat) (nsid : Nat) (lsp : Nat) (off : Nat) (len : Nat)
  /-- IDENTIFY: Admin command returning controller or namespace data. (R58) -/
  | identify (id : CmdId) (cns : Nat) (nsid : Nat)
  /-- ABORT: Admin command aborting a read or an unstarted write if possible. (R118) -/
  | abort (id : CmdId) (sq : Nat) (cid : Nat)
  /-- SET_FEATURES: Admin command setting a supported feature, including Timestamp anchoring. (R60) -/
  | setFeatures (id : CmdId) (fid : Nat) (nsid : Nat) (dw11 : Nat) (data : Nat) (table : List (Nat × (Nat × Nat)))
  /-- GET_FEATURES: Admin command returning a feature value. (R60) -/
  | getFeatures (id : CmdId) (fid : Nat) (nsid : Nat) (dw11 : Nat)
  /-- ASYNC_EVENT_REQUEST: Admin command that stands until an enabled asynchronous event is posted. (R73) -/
  | asyncEventRequest (id : CmdId)
  /-- NAMESPACE_CREATE: Namespace Management create allocates rounded capacity and a new key epoch. (R65) -/
  | namespaceCreate (id : CmdId) (zoned : Bool) (fmt : Nat) (pit : Nat) (piFirst : Bool) (blocks : Nat)
  /-- NAMESPACE_DELETE: Namespace Management delete waits for fetched commands and erases the key slot. (R120) -/
  | namespaceDelete (id : CmdId) (nsid : Nat)
  /-- NAMESPACE_ATTACH: Namespace Attachment attaches a namespace to controllers. (R52) -/
  | namespaceAttach (id : CmdId) (nsid : Nat) (ctrls : List Nat)
  /-- NAMESPACE_DETACH: Namespace Attachment detaches a namespace after its commands complete. (R120) -/
  | namespaceDetach (id : CmdId) (nsid : Nat) (ctrls : List Nat)
  /-- FORMAT_NVM: Admin command formatting one or all namespaces with a Secure Erase Setting. (R67) -/
  | formatNvm (id : CmdId) (nsid : Nat) (fmt : Nat) (ses : Nat) (pit : Nat) (piFirst : Bool)
  /-- SANITIZE_CRYPTO_ERASE: Sanitize action advancing key epochs and freeing bands. (R156) -/
  | sanitizeCryptoErase (id : CmdId)
  /-- SANITIZE_BLOCK_ERASE: Sanitize action DC-erasing every band and the spare region. (R156) -/
  | sanitizeBlockErase (id : CmdId)
  /-- SANITIZE_OVERWRITE: Sanitize action writing the pattern over every slot for 1 to 16 passes. (R156) -/
  | sanitizeOverwrite (id : CmdId) (passes : Nat) (pattern : Nat) (invert : Bool) (ndas : Bool)
  /-- FORMAT_SANITIZE_START: Format NVM or Sanitize begins once every fetched command to affected namespaces has completed. (R120) -/
  | formatSanitizeStart
  /-- PROGRESS_RECORD: A progress record is written after each 1 GiB or 10 s of Format or Sanitize. (R69) -/
  | progressRecord (done : Nat)
  /-- ERASE_OPERATION_COMPLETE: A Format NVM or Sanitize finishes and its progress record shows complete. (R69) -/
  | eraseOperationComplete (ok : Bool)
  /-- READ: I/O Read choosing each block's source from forwarding, map or zeros. (R99) -/
  | read (id : CmdId) (ok : Bool)
  /-- VERIFY: I/O Verify reading blocks without transfer. (R87) -/
  | verify (id : CmdId) (ok : Bool)
  /-- WRITE: I/O Write divided into 64-block atomic units written with trailers. (R105) -/
  | write (id : CmdId) (place : Place)
  /-- WRITE_ZEROES: I/O Write Zeroes, a map operation in conventional and a write in zoned namespaces. (R106) -/
  | writeZeroes (id : CmdId) (place : Place)
  /-- DATASET_MANAGEMENT: I/O Dataset Management Deallocate applying each range by a journal record. (R87) -/
  | datasetManagement (id : CmdId)
  /-- FLUSH: I/O Flush recording the stamps it must wait for. (R115) -/
  | flush (id : CmdId)
  /-- FLUSH_COMPLETE: A Flush completes once earlier-stamped writes and their journal records are on the medium. (R115) -/
  | flushComplete (id : CmdId)
  /-- ZONE_APPEND: I/O Zone Append assigned at the fetch write pointer. (R96) -/
  | zoneAppend (id : CmdId) (place : Place)
  /-- ZONE_MGMT_RECEIVE: I/O Report Zones waiting for earlier-stamped zone commands. (R87) -/
  | zoneMgmtReceive (id : CmdId)
  /-- ZONE_REPORT_READY: Report Zones completes once earlier-stamped writes, appends and sends to the zones have completed. (R87) -/
  | zoneReportReady (id : CmdId)
  /-- ZONE_CLOSE: Zone Management Send Close. (R66) -/
  | zoneClose (id : CmdId)
  /-- ZONE_FINISH: Zone Management Send Finish closing the zone's band. (R148) -/
  | zoneFinish (id : CmdId)
  /-- ZONE_OPEN: Zone Management Send Open, refused beyond the active-zone limit. (R66) -/
  | zoneOpen (id : CmdId)
  /-- ZONE_RESET: Zone Management Send Reset committing a zone-state record and freeing the band. (R148) -/
  | zoneReset (id : CmdId)
  /-- ZONE_OFFLINE: Zone Management Send Offline freeing the band and leaving the zone Offline. (R148) -/
  | zoneOffline (id : CmdId)
  /-- RESERVATION_REGISTER: I/O Reservation Register changing reservation state. (R87) -/
  | reservationRegister (id : CmdId)
  /-- RESERVATION_REPORT: I/O Reservation Report returning state left by earlier-stamped commands. (R87) -/
  | reservationReport (id : CmdId)
  /-- RESERVATION_ACQUIRE: I/O Reservation Acquire. (R87) -/
  | reservationAcquire (id : CmdId)
  /-- RESERVATION_RELEASE: I/O Reservation Release. (R87) -/
  | reservationRelease (id : CmdId)
  /-- MI_READ_DATA_STRUCTURE: NVMe-MI Read NVMe-MI Data Structure request. (R82) -/
  | miReadDataStructure (typ : Nat)
  /-- MI_SUBSYSTEM_HEALTH_POLL: NVMe-MI NVM Subsystem Health Status Poll. (R82) -/
  | miSubsystemHealthPoll
  /-- MI_CONTROLLER_HEALTH_POLL: NVMe-MI Controller Health Status Poll. (R82) -/
  | miControllerHealthPoll
  /-- MI_CONFIG_GET: NVMe-MI Configuration Get of the SMBus frequency. (R82) -/
  | miConfigGet
  /-- MI_CONFIG_SET: NVMe-MI Configuration Set of the SMBus frequency. (R82) -/
  | miConfigSet (khz : Nat)
  /-- MI_TUNNEL_IDENTIFY: Tunnelled Identify over NVMe-MI. (R82) -/
  | miTunnelIdentify (ctrl : Nat) (cns : Nat) (nsid : Nat)
  /-- MI_TUNNEL_GET_LOG_PAGE: Tunnelled Get Log Page over NVMe-MI. (R82) -/
  | miTunnelGetLogPage (ctrl : Nat) (lid : Nat) (nsid : Nat) (lsp : Nat) (off : Nat) (len : Nat)
  /-- MI_TUNNEL_GET_FEATURES: Tunnelled Get Features over NVMe-MI. (R82) -/
  | miTunnelGetFeatures (ctrl : Nat) (fid : Nat) (nsid : Nat) (dw11 : Nat)
  /-- MI_BASIC_MANAGEMENT: NVMe Basic Management Command at address 0x6A. (R82) -/
  | miBasicManagement
  /-- MI_UNSUPPORTED_REQUEST: Any other NVMe-MI request returns Invalid Command Opcode. (R82) -/
  | miUnsupportedRequest (opcode : Nat)
  /-- MI_FORCE_POWER_STATE: Vendor command 0xC0 stops fetching, drains and forces a power state. (R83) -/
  | miForcePowerState (target : Nat) (reserved : Nat) (limit : Nat)
  /-- FORCE_DRAIN_EXPIRE: The drain limit expires and outstanding commands complete with Command Abort Requested before the forced transition. (R83) -/
  | forceDrainExpire
  /-- APST_IDLE_TIMEOUT: An APST idle timer expires and an autonomous step down is requested. (R71) -/
  | apstIdleTimeout (ctrl : Nat)
  /-- APST_TICK_BOUNDARY_STEP: At level 41 a deferred autonomous step starts on a 100 ms chronometer boundary after the 1 s hold. (R48) -/
  | apstTickBoundaryStep
  /-- TEMP_THRESHOLD_EVAL: Once a second the Temperature Threshold feature is evaluated and an event posted on a crossing. (R412) -/
  | tempThresholdEval
  /-- PULL_POINT: A unit's first sector is LEAD µs ahead of the writer; pages are allocated and host reads issued. (R102) -/
  | pullPoint (id : CmdId) (unit : Nat) (resv : Nat)
  /-- PULL_COMPLETE: The last host read completion of a unit arrives and protection information is checked. (R103) -/
  | pullComplete (id : CmdId) (unit : Nat) (data : List Blk)
  /-- PULL_MISSED: A unit's first sector reaches the writer before its pull completes and the write is rescheduled. (R104) -/
  | pullMissed (id : CmdId) (unit : Nat)
  /-- FORWARD_COPY: A read takes blocks from a pulled writer's page by DMA, pinning the page. (R99) -/
  | forwardCopy (id : CmdId) (wid : CmdId) (unit : Nat)
  /-- PAGE_UNPIN: The last reader's copy from a pinned page ends and the page is released if its writer completed. (R99) -/
  | pageUnpin (id : CmdId) (page : Nat)
  /-- FORWARD_REREAD: A forwarded unit ended all-old and the read resends the blocks from the next source. (R100) -/
  | forwardReread (id : CmdId)
  /-- UNIT_DURABLE: Both trailer copies of a unit are written and the unit becomes new. (R105) -/
  | unitDurable (id : CmdId) (unit : Nat)
  /-- JOURNAL_FLUSH_TIMER: 250 ms pass with bands receiving units and a journal sector is written. (R140) -/
  | journalFlushTimer
  /-- JOURNAL_SECTOR_COMMITTED: A journal sector is on the medium in both copies and the completions and reuses waiting on it proceed. (R140) -/
  | journalSectorCommitted
  /-- CHECKPOINT_START: At 48 MiB of journal use or hourly a checkpoint starts over the older area. (R141) -/
  | checkpointStart
  /-- CHECKPOINT_COMPLETE: The checkpoint header is written and journal space behind its start may be reused. (R141) -/
  | checkpointComplete
  /-- MAP_REBUILD: After spin-up, unless back from Retain, the map is rebuilt from checkpoint, journal and band scans. (R142) -/
  | mapRebuild (obs : RebuildObs)
  /-- REBUILD_COMPLETE: The delta list is applied and a rebuild-complete record committed. (R143) -/
  | rebuildComplete
  /-- CHUNK_PAGE_LOAD: A chunk-table page loads from the checkpoint with its deltas applied. (R143) -/
  | chunkPageLoad (nsid : Nat) (page : Nat)
  /-- BAND_VERIFY: A closed band is read back in full and its sectors relocated, recovered or lost. (R150) -/
  | bandVerify (band : Nat) (obs : VerifyObs)
  /-- GC_MOVE: Garbage collection copies current runs of a verified pool band into move units. (R157) -/
  | gcMove (l : Lane) (place : Place)
  /-- MOVE_DURABLE: A move unit becomes durable and updates only entries still naming the source. (R158) -/
  | moveDurable (band : Nat)
  /-- HS_STORE_SEQL_READ: A read of HS_STORE_SEQL latches HS_STORE_SEQH for the same initiator. (R160) -/
  | hsStoreSeqlRead (who : Initiator)
  /-- READ_GATE_OPEN: An armed read slot arrives and capture into a replay slot begins. (R183) -/
  | readGateOpen (l : Lane) (k : Nat) (deskew : Int)
  /-- SECTOR_CAPTURE_COMPLETE: Capture ends, sync candidates are ranked and step 1 is queued. (R180) -/
  | sectorCaptureComplete (l : Lane) (o : CaptureObs)
  /-- LDPC_ATTEMPT_COMPLETE: A decode attempt ends and the sector succeeds or proceeds to the next step of the recovery order. (R181) -/
  | ldpcAttemptComplete (l : Lane) (o : DecodeObs)
  /-- STRIPE_SOLVE_COMPLETE: The stripe unit solves up to P erasures and checks each solved sector's seal. (R189) -/
  | stripeSolveComplete (l : Lane) (band : Nat) (group : Nat) (bad : List Nat) (parity : Bool)
  /-- STRIPE_START: A write of Ln_STRIPE_CTRL.START clears the accumulators and begins a group. (R189) -/
  | stripeStart (l : Lane) (mode : Bool) (data : Nat)
  /-- CH_STOP: A write of Ln_CH_CTRL.STOP ends the recovery orders of captured sectors after one attempt. (R186) -/
  | chStop (l : Lane)
  /-- HZSEL_LOAD: A write of Ln_HZSEL.LOAD fetches the adaptation entry for head and zone. (R191) -/
  | hzselLoad (l : Lane) (head : Nat) (zone : Nat)
  /-- ADAPTATION_ENTRY_FETCHED: The fetched entry is checked and applied at once, or rejected with reads refused. (R191) -/
  | adaptationEntryFetched (l : Lane)
  /-- SECTOR_BOUNDARY: Settings written during the read gate, pending loads and mode changes take effect at the sector boundary. (R187) -/
  | sectorBoundary (l : Lane)
  /-- OFFSET_ASYM_STEP: Every 10 ms offset and asymmetry current values move 1 LSB towards their targets. (R165) -/
  | offsetAsymStep (l : Lane)
  /-- AFE_TEMP_CORRECTION: Each second the bias references and CTLE are corrected for temperature by at most one LSB. (R163) -/
  | afeTempCorrection (l : Lane) (bias : Int) (boost : Int) (pole : Int)
  /-- COUNTER_FLUSH: Channel and duplex counts are added to the head and zone counter entries at load or every 100 ms. (R193) -/
  | counterFlush (l : Lane) (fail : Bool)
  /-- ELTIK_WORD_RECEIVE: An Eltik word arrives and is parity-checked. (R199) -/
  | eltikWordReceive (l : Lane) (parity : Bool)
  /-- ELTIK_HEARTBEAT: Each side sends a heartbeat word at least every 32 cycles. (R199) -/
  | eltikHeartbeat (l : Lane)
  /-- ELTIK_LINK_DOWN: No valid word for 128 cycles or four parity errors take the link down and start retraining. (R199) -/
  | eltikLinkDown (parity : Bool)
  /-- ELK_RETRAIN: A write of Ln_ELK_CTRL.RETRAIN retrains the link with three attempts. (R199) -/
  | elkRetrain (l : Lane)
  /-- ELTIK_TRAIN_COMPLETE: Link training succeeds and the link is up. (R199) -/
  | eltikTrainComplete
  /-- ELTIK_RETRAIN_TIMEOUT: A retraining attempt exceeds 10 µs; after three the link stays down. (R199) -/
  | eltikRetrainTimeout
  /-- DX_FORCE_WRITE: A write of L0_DX_CTRL.FORCE overrides the mode from the next sector boundary and clears FB. (R213) -/
  | dxForceWrite (value : Nat)
  /-- VERIFY_VERDICT: LN1's same-pass verify verdict for a written sector reaches LN0's escapement. (R210) -/
  | verifyVerdict (q : SeqId) (k : Nat) (conv : Bool) (iter : Nat) (sealOk : Bool) (spareFails : Bool)
  /-- VERDICT_OVERDUE: A verdict 17 µs overdue makes verification unavailable and sets VFY_LOST. (R212) -/
  | verdictOverdue (q : SeqId) (k : Nat)
  /-- WRITE_SLOT_START: An armed write slot arrives and the gate opens if every condition holds. (R225) -/
  | writeSlotStart (l : Lane) (k : Nat) (ref : Option SectorRef) (sens : Nat) (accParity : Bool)
  /-- WRITE_REQUEST_URGENT: A write-path pool or cipher request becomes urgent when its sector is due within 2 sector times. (R221) -/
  | writeRequestUrgent (l : Lane) (resv : Option Nat) (tag : Option Nat)
  /-- SECTOR_WRITE_COMPLETE: A sector's last pad bit is written with the gate open and the sector counts complete. (R234) -/
  | sectorWriteComplete (l : Lane)
  /-- SHOCK_INPUT: A shock input passes its filter and inhibits writing on both lanes. (R234) -/
  | shockInput (second : Bool) (active : Bool)
  /-- SHOCK_INHIBIT_RELEASE: 1 ms after both shock inputs were last active the shock inhibit releases. (R234) -/
  | shockInhibitRelease
  /-- PES_INHIBIT_RELEASE: Eight consecutive samples within the threshold release the PES inhibit. (R234) -/
  | pesInhibitRelease (l : Lane)
  /-- WG_INH_WRITE: A write of Ln_WG_INH.SWINH sets or releases the firmware inhibit. (R234) -/
  | wgInhWrite (l : Lane) (value : Word)
  /-- PREAMP_WRITE_FRAME: The bridge sends a write frame to the preamp, reading it back for key registers. (R226) -/
  | preampWriteFrame (l : Lane) (back : Nat)
  /-- PREAMP_READ_FRAME: The bridge completes a read frame from the preamp and checks its data. (R226) -/
  | preampReadFrame (l : Lane) (data : Nat)
  /-- PREAMP_FAULT_POLL: FAULT is read every 2 µs in writes and 100 µs otherwise and faults are acted on. (R230) -/
  | preampFaultPoll (l : Lane) (data : Nat)
  /-- PREAMP_LINK_RETRY: Every 100 µs a down preamp link is retried by reading FAULT. (R229) -/
  | preampLinkRetry (l : Lane) (data : Nat)
  /-- PA_CTRL_EN_WRITE: A write of Ln_PA_CTRL.EN enables the bridge or is refused. (R227) -/
  | paCtrlEnWrite (l : Lane) (en : Bool)
  /-- PA_CMD_GO: A write of Ln_PA_CMD.GO sends a direct frame, refused during a write operation. (R241) -/
  | paCmdGo (l : Lane) (read : Bool) (addr : Nat) (data : Nat)
  /-- WSEL_LOAD: A write of Ln_WSEL.LOAD fetches the write and drift entries, deferred while the gate is open. (R232) -/
  | wselLoad (l : Lane) (head : Nat) (zone : Nat)
  /-- WRITE_ENTRY_FETCHED: Fetched write and drift entries are checked, OPLV computed and levels written to the preamp. (R232) -/
  | writeEntryFetched (l : Lane)
  /-- BRIDGE_READY: Heater and write mode writes complete before their leads and BR_READY is raised. (R233) -/
  | bridgeReady (l : Lane)
  /-- NEIGHBOUR_CHECK: After a PES or shock inhibit the previous track is read back and failures recovered or lost. (R236) -/
  | neighbourCheck (l : Lane) (band : Nat) (weak : List Nat) (lost : List Nat) (spareFull : Bool)
  /-- WRITE_CALIBRATION: Assist or write-current calibration writes and reads five segments and updates the drift entry. (R240) -/
  | writeCalibration (l : Lane) (means : List Nat)
  /-- SERVO_WEDGE: A servo wedge is demodulated into PES and measured position, and the sample starts. (R244) -/
  | servoWedge (l : Lane) (w : WedgeRd) (b : Option WedgeRd) (interval : Nat)
  /-- BE_SAMPLE_LATE_START: A held demodulation result starts the next sample at END and sets LATE. (R246) -/
  | beSampleLateStart (l : Lane)
  /-- BE_NOP: Balance-engine NOP instruction. (R250) -/
  | beNop (e : BEng) (bad : Bool)
  /-- BE_LDA: Balance-engine LDA loads an accumulator with a product. (R250) -/
  | beLda (e : BEng) (bad : Bool)
  /-- BE_MAC: Balance-engine MAC accumulates a product. (R250) -/
  | beMac (e : BEng) (bad : Bool)
  /-- BE_MSU: Balance-engine MSU subtracts a product. (R250) -/
  | beMsu (e : BEng) (bad : Bool)
  /-- BE_RND: Balance-engine RND rounds and shifts an accumulator into a register. (R250) -/
  | beRnd (e : BEng) (bad : Bool)
  /-- BE_ADD: Balance-engine saturating ADD. (R250) -/
  | beAdd (e : BEng) (bad : Bool)
  /-- BE_SUB: Balance-engine saturating SUB. (R250) -/
  | beSub (e : BEng) (bad : Bool)
  /-- BE_MOV: Balance-engine MOV. (R250) -/
  | beMov (e : BEng) (bad : Bool)
  /-- BE_MUL: Balance-engine MUL by a coefficient with rounding. (R250) -/
  | beMul (e : BEng) (bad : Bool)
  /-- BE_LIM: Balance-engine LIM clamps and stores the excess in a windup register. (R250) -/
  | beLim (e : BEng) (bad : Bool)
  /-- BE_SEL: Balance-engine SEL chooses by sign. (R250) -/
  | beSel (e : BEng) (bad : Bool)
  /-- BE_IN: Balance-engine IN reads an input port. (R252) -/
  | beIn (e : BEng) (bad : Bool)
  /-- BE_OUT: Balance-engine OUT writes an output port; first UV and UM are sent. (R252) -/
  | beOut (e : BEng) (bad : Bool)
  /-- BE_XFF: Balance-engine XFF subtracts the cross-lane feed-forward term. (R250) -/
  | beXff (e : BEng) (bad : Bool)
  /-- BE_INT: Balance-engine INT integrates with back-calculation. (R250) -/
  | beInt (e : BEng) (bad : Bool)
  /-- BE_BIQ: Balance-engine BIQ computes a biquad section. (R251) -/
  | beBiq (e : BEng) (bad : Bool)
  /-- BE_END: Balance-engine END ends the sample's program. (R248) -/
  | beEnd (e : BEng) (bad : Bool)
  /-- BE_SWAP: A write of BE_CTRL.SWAP starts the check of the inactive bank. (R253) -/
  | beSwap (e : BEng)
  /-- SWAP_CHECK_DONE: The bank check ends; passing schedules the exchange, failing sets SWAPERR. (R253) -/
  | swapCheckDone (e : BEng) (badParity : Bool)
  /-- BE_RUN_WRITE: A write of BE_CTRL.RUN starts samples, ignored until PASSED. (R253) -/
  | beRunWrite (e : BEng) (run : Bool)
  /-- XOUT_RECEIVE: A lane receives the other lane's XOUT over the Eltik link. (R255) -/
  | xoutReceive (l : Lane)
  /-- XIN_STALE: No XOUT within 1.5 sample periods makes XIN read 0 and sets XSTALE. (R255) -/
  | xinStale (l : Lane)
  /-- SV_CMD_LOAD: Servo command Load from PARKED with the spindle at speed. (R260) -/
  | svCmdLoad (l : Lane)
  /-- SV_CMD_SEEK: Servo command Seek restarting the profile from measured position and velocity. (R257) -/
  | svCmdSeek (l : Lane)
  /-- SV_CMD_UNLOAD: Servo command Unload onto the ramp. (R259) -/
  | svCmdUnload (l : Lane)
  /-- SV_CMD_RETRACT: Servo command Retract asserting EMRET_N with cause 4. (R264) -/
  | svCmdRetract (l : Lane)
  /-- SV_EN_WRITE: A write of Ln_SV_CTRL.EN, refused outside OFF, PARKED and FAULT. (R260) -/
  | svEnWrite (l : Lane) (en : Bool)
  /-- SV_CAL_WRITE: A write of Ln_SV_CTRL.CAL, refused while SLOT3 reads 0. (R260) -/
  | svCalWrite (l : Lane) (cal : Bool)
  /-- LOAD_ACQUIRED: Eight consecutive consistent wedges in LOAD start the seek to target. (R259) -/
  | loadAcquired (l : Lane)
  /-- LOAD_TIMEOUT: 200 ms in LOAD fails the attempt and starts an unload. (R259) -/
  | loadTimeout (l : Lane)
  /-- SERVO_LOST: MISSMAX consecutive failed wedges move the lane to RECOVER. (R259) -/
  | servoLost (l : Lane)
  /-- SEEK_END: The last profile segment ends, PREF is set to target and SETTLE begins. (R257) -/
  | seekEnd (l : Lane)
  /-- SETTLE_COMPLETE: After the ramp WPE stays within SETWIN for NSET samples and the lane is on track. (R258) -/
  | settleComplete (l : Lane)
  /-- SETTLE_TIMEOUT: 2,000 samples in SETTLE move the lane to RECOVER. (R259) -/
  | settleTimeout (l : Lane)
  /-- RECOVER_REACQUIRED: Eight consistent wedges in RECOVER return the lane to SETTLE. (R259) -/
  | recoverReacquired (l : Lane)
  /-- RECOVER_TIMEOUT: A fourth entry or 2,000 samples in RECOVER start an unload. (R259) -/
  | recoverTimeout (l : Lane)
  /-- UNLOAD_TIMEOUT: 300 ms in UNLOAD assert EMRET_N. (R259) -/
  | unloadTimeout (l : Lane)
  /-- UNLOAD_STOPPED: BEMF at or below STOP for 2 ms ends the unload to PARKED, LOAD or FAULT. (R259) -/
  | unloadStopped (l : Lane)
  /-- PS_RETURN_FRAME: A power-stage return frame arrives and its readings and flags are taken or counted as a link error. (R266) -/
  | psReturnFrame (l : Lane) (word : Nat)
  /-- PS_KEEPALIVE: In OFF, PARKED and FAULT a zero command frame is sent every 10 µs. (R265) -/
  | psKeepalive (l : Lane)
  /-- PS_CFG_GO: A write of Ln_PS_CFG.GO sends a configuration frame or is refused. (R266) -/
  | psCfgGo (l : Lane) (addr : Nat) (data : Nat)
  /-- PS_CTRL_EN_WRITE: A write of Ln_PS_CTRL.EN enables the link and restarts sequence numbering. (R266) -/
  | psCtrlEnWrite (l : Lane) (en : Bool)
  /-- PWM_VALLEY: At the PWM valley phase currents are sampled and the spindle program and current loops run. (R274) -/
  | pwmValley (u : Nat) (v : Nat) (w : Nat) (mrpm : Int)
  /-- PWM_PEAK: At the PWM peak shadow duties apply and θ advances. (R277) -/
  | pwmPeak
  /-- BUS_CONVERSION: A bus voltage and current conversion completes every 1 µs and feeds the supply watch. (R291) -/
  | busConversion (volt : Nat) (curr : Nat)
  /-- OVERVOLTAGE_FAULT: Three conversions at 14.4 V turn all gates off, latch OVFLT and assert EMRET_N. (R294) -/
  | overvoltageFault
  /-- REGEN_STOP: At 13.8 V braking IQREF is forced to 0 and REGSTOP sets. (R291) -/
  | regenStop
  /-- REGEN_RESUME: At or below 13.5 V regeneration stop releases. (R291) -/
  | regenResume
  /-- CHOPPER_ON: At 13.2 V BRK_G turns on unless CHOPF. (R291) -/
  | chopperOn
  /-- CHOPPER_OFF: At or below 12.9 V BRK_G turns off. (R291) -/
  | chopperOff
  /-- CHOPPER_CURRENT_CHECK: 5 µs after BRK_G on, insufficient bus current marks the chopper faulty. (R292) -/
  | chopperCurrentCheck
  /-- CHOPPER_VOLTAGE_CHECK: 50 µs after BRK_G on, insufficient bus fall marks the chopper faulty. (R292) -/
  | chopperVoltageCheck
  /-- POWER_FAILURE_DETECT: Bus at or below 10.8 V enters HOLDUP or COAST and signals the regulator. (R295) -/
  | powerFailureDetect
  /-- HOLDUP_END: Below 600 rpm or at 9.0 V hold-up ends in COAST. (R281) -/
  | holdupEnd
  /-- PHASE_CURRENT_FAULT: A current channel pinned for 3 periods turns the gates off. (R273) -/
  | phaseCurrentFault
  /-- BUS_CURRENT_FAULT: The bus current channel pinned for 3 conversions sets CHOPF. (R273) -/
  | busCurrentFault
  /-- ANALOGUE_LIMIT_FAULT: A channel outside its calibre limits for 48 conversions sets SP_INT.RANGE. (R273) -/
  | analogueLimitFault (ch : Nat)
  /-- CONVERSION_TIMEOUT: A motor conversion incomplete after 2 µs turns the gates off. (R273) -/
  | conversionTimeout (ch : Nat)
  /-- SP_CMD_START: Spindle command Start entering LISTEN or RUN. (R282) -/
  | spCmdStart
  /-- SP_CMD_STOP: Spindle command Stop entering BRAKE. (R282) -/
  | spCmdStop
  /-- SP_CMD_COAST: Spindle command Coast turning the gates off. (R282) -/
  | spCmdCoast
  /-- SP_CMD_CLEAR: Spindle command Clear leaving FAULT when the bus is low and the rotor stopped. (R281) -/
  | spCmdClear
  /-- SP_EN_WRITE: A write of SP_CTRL.EN = 0 sends the spindle to COAST. (R281) -/
  | spEnWrite (en : Bool)
  /-- SP_CHOP_TEST: A write of SP_CHOP.TEST in OFF runs the chopper self-test pulse. (R283) -/
  | spChopTest (rise : Nat)
  /-- CHOPPER_SELF_TEST: 10 ms into a commanded LISTEN a 10 µs BRK_G pulse tests the chopper. (R283) -/
  | chopperSelfTest (rise : Nat)
  /-- LISTEN_END: After 20 ms the rotor is classed and CATCH, REVERSE or START begins. (R283) -/
  | listenEnd (o : ListenObs)
  /-- START_ALIGNMENT_END: 50 ms of injection alignment end and the polarity test begins. (R284) -/
  | startAlignmentEnd
  /-- START_POLARITY_END: The 4 ms polarity test ends, possibly advancing θ by half a turn, and acceleration begins. (R284) -/
  | startPolarityEnd (pos : Int) (neg : Int)
  /-- START_BACKWARD_CHECK: 100 ms into acceleration, backward motion beyond 30° fails the attempt. (R284) -/
  | startBackwardCheck
  /-- START_SPEED_CHECK: 2 s into acceleration, speed below 60 rpm fails the attempt. (R284) -/
  | startSpeedCheck
  /-- START_RETRY_RESUME: After 100 ms with gates off the next start attempt begins. (R281) -/
  | startRetryResume
  /-- SPINUP_TIMEOUT: 25 s after CMD start without ATSPEED the spindle coasts or brakes and SUTO sets. (R281) -/
  | spinupTimeout
  /-- CATCH_END: After 2 ms of CATCH the spindle enters RUN from the measured speed. (R285) -/
  | catchEnd
  /-- ATSPEED_SET: Speed within ±0.1 % for 1 s sets ATSPEED. (R286) -/
  | atspeedSet
  /-- SYNC_LOSS: A failed plausibility check turns the gates off and may set AUTO for re-catch. (R290) -/
  | syncLoss
  /-- KE_ABNORMAL: At level 41 an abnormal back-EMF constant for 48 samples turns the gates off. (R289) -/
  | keAbnormal
  /-- ROTOR_STOPPED: Back-EMF below EMFMIN for 100 ms counts the rotor stopped. (R280) -/
  | rotorStopped
  /-- EC_POST_GO: A write of EC_POST.GO queues the staged descriptor or refuses it. (R306) -/
  | ecPostGo (q : SeqId)
  /-- EC_EN_WRITE: A write of EC_CTRL.EN permits dispatch, ignored for held sequencers or failed patches. (R304) -/
  | ecEnWrite (q : SeqId) (en : Bool)
  /-- EC_DISPATCH: The next queued operation is dispatched and its frame entry fetched. (R314) -/
  | ecDispatch (q : SeqId) (bad : Bool)
  /-- FRAME_ENTRY_FETCHED: The frame entry is checked; a bad one ends the operation with STATUS 0x03. (R314) -/
  | frameEntryFetched (q : SeqId)
  /-- EC_ABORT: A write of EC_CTRL.ABORT latches the ABORT stop cause. (R319) -/
  | ecAbort (q : SeqId)
  /-- EC_RESTART: A write of EC_CTRL.RESTART leaves HALT, refused while PATCHBAD. (R322) -/
  | ecRestart (q : SeqId)
  /-- EC_FLUSH: A write of EC_CTRL.FLUSH completes queued operations with STATUS 0x04. (R329) -/
  | ecFlush (q : SeqId)
  /-- EC_CPL_POP: A read of EC_CPL3 pops the oldest completion. (R308) -/
  | ecCplPop (q : SeqId)
  /-- EC_NOP: Microword NOP. (R309) -/
  | ecNop (q : SeqId) (w : Word) (err : FetchErr)
  /-- EC_LDI: Microword LDI loads an immediate. (R309) -/
  | ecLdi (q : SeqId) (w : Word) (err : FetchErr)
  /-- EC_ALU: Microword ALU operation setting flags. (R309) -/
  | ecAlu (q : SeqId) (w : Word) (err : FetchErr)
  /-- EC_ADDI: Microword ADDI. (R309) -/
  | ecAddi (q : SeqId) (w : Word) (err : FetchErr)
  /-- EC_RDP: Microword RDP reads a port. (R313) -/
  | ecRdp (q : SeqId) (w : Word) (err : FetchErr)
  /-- EC_WRP: Microword WRP writes a port from a register. (R313) -/
  | ecWrp (q : SeqId) (w : Word) (err : FetchErr)
  /-- EC_WRPI: Microword WRPI writes a port with an immediate. (R313) -/
  | ecWrpi (q : SeqId) (w : Word) (err : FetchErr)
  /-- EC_JMP: Microword JMP. (R309) -/
  | ecJmp (q : SeqId) (w : Word) (err : FetchErr)
  /-- EC_BR: Microword BR on a condition. (R309) -/
  | ecBr (q : SeqId) (w : Word) (err : FetchErr) (x : CondObs)
  /-- EC_MWB: Microword MWB multi-way branch. (R311) -/
  | ecMwb (q : SeqId) (w : Word) (err : FetchErr) (x : CondObs)
  /-- EC_CALL: Microword CALL pushes the return address. (R309) -/
  | ecCall (q : SeqId) (w : Word) (err : FetchErr)
  /-- EC_RET: Microword RET pops the next address. (R309) -/
  | ecRet (q : SeqId) (w : Word) (err : FetchErr)
  /-- EC_WAIT: Microword WAIT begins waiting on a condition or time, a safe point. (R312) -/
  | ecWait (q : SeqId) (w : Word) (err : FetchErr)
  /-- WAIT_END: A WAIT ends on its condition or timeout, setting TMO. (R312) -/
  | waitEnd (q : SeqId) (timeout : Bool) (x : CondObs)
  /-- EC_SAFE: Microword SAFE sets PHASE at a safe point. (R309) -/
  | ecSafe (q : SeqId) (w : Word) (err : FetchErr)
  /-- EC_END: Microword END ends the operation and pushes a completion. (R308) -/
  | ecEnd (q : SeqId) (w : Word) (err : FetchErr)
  /-- STOP_COMPLETE: With gates closed and outcomes in, a stopped operation posts STATUS 0x01. (R320) -/
  | stopComplete (q : SeqId)
  /-- SAFE_POINT_DEADLINE: 256 microwords or 2 µs without a safe point raise a machine check. (R318) -/
  | safePointDeadline (q : SeqId)
  /-- REV_LIMIT: REV reaching the revolution limit latches the REVLIMIT stop cause. (R319) -/
  | revLimit (q : SeqId)
  /-- MEMORY_READ: An SRAM or DRAM word is read and its syndrome decoded. (R335) -/
  | memoryRead (req : Option Nat) (src : MemSrc) (via : Option CacheId) (addr : Nat) (upset : Upset) (tag : TagErr)
  /-- MEMORY_FULL_WRITE: An aligned full-word write stores data with fresh check bits. (R337) -/
  | memoryFullWrite (req : Option Nat) (src : MemSrc) (via : Option CacheId) (addr : Nat) (data : Nat) (parity : Bool)
  /-- MEMORY_NARROW_WRITE: A narrow write merges by read-modify-write, poisoning if the old word is bad. (R337) -/
  | memoryNarrowWrite (req : Option Nat) (src : MemSrc) (via : Option CacheId) (addr : Nat) (len : Nat) (data : Nat) (parity : Bool) (upset : Upset)
  /-- CORRECTED_WRITEBACK: A corrected word is written back in the bank's next free cycle. (R336) -/
  | correctedWriteback (addr : Nat)
  /-- SCRUB_STEP: The scrubber reads the next word, correcting or poisoning it. (R341) -/
  | scrubStep (dram : Bool) (upset : Upset)
  /-- POOL_RESERVE_REQUEST: A party asks to reserve 1 to 64 buffer pages. (R346) -/
  | poolReserveRequest (id : Nat) (p : Party) (n : Nat) (urgent : Bool)
  /-- POOL_RESERVE_GRANT: A waiting reservation is granted whole when pages suffice. (R346) -/
  | poolReserveGrant
  /-- POOL_WAIT_TIMEOUT: A reservation waiting 100 ms sets POOLWAIT and logs 0x400A. (R346) -/
  | poolWaitTimeout (id : Nat)
  /-- POOL_RES_WRITE: A write of MS_POOL_RESx changes a party's reserve, ignored if invalid. (R346) -/
  | poolResWrite (p : Party) (value : Word)
  /-- READ_STANDBY_REFILL: A lane refills its read standby of 8 allocated pages. (R347) -/
  | readStandbyRefill (l : Lane)
  /-- L2_CLEAN: Cache operation CLEAN by address. (R350) -/
  | l2Clean (c : CacheId) (core : Nat)
  /-- L2_INVAL: Cache operation INVAL by address. (R350) -/
  | l2Inval (c : CacheId) (core : Nat)
  /-- L2_CLEAN_INVAL: Cache operation CLEAN_INVAL by address. (R350) -/
  | l2CleanInval (c : CacheId) (core : Nat)
  /-- L2_ZLINE: Cache operation ZLINE allocating a zero dirty line. (R350) -/
  | l2Zline (c : CacheId) (core : Nat)
  /-- L2_CLEAN_SETWAY: Cache operation CLEAN by set and way. (R350) -/
  | l2CleanSetway (c : CacheId) (core : Nat) (set : Nat) (way : Nat)
  /-- L2_INVAL_SETWAY: Cache operation INVAL by set and way. (R350) -/
  | l2InvalSetway (c : CacheId) (core : Nat) (set : Nat) (way : Nat)
  /-- L2_CLEAN_INVAL_SETWAY: Cache operation CLEAN_INVAL by set and way. (R350) -/
  | l2CleanInvalSetway (c : CacheId) (core : Nat) (set : Nat) (way : Nat)
  /-- L2_CLEAN_INVAL_ALL: Cache operation CLEAN_INVAL_ALL, clearing VALIDCTX and STALE. (R350) -/
  | l2CleanInvalAll (c : CacheId) (core : Nat)
  /-- L2_INVAL_ALL: Cache operation INVAL_ALL, clearing VALIDCTX and STALE. (R350) -/
  | l2InvalAll (c : CacheId) (core : Nat)
  /-- L2_EN_WRITE: A write of L2_CTRL.EN disables or enables the cache, flagging stale contents. (R352) -/
  | l2EnWrite (c : CacheId) (value : Word)
  /-- L2_FILL_COMPLETE: A line fill completes and waiting operations act on it. (R351) -/
  | l2FillComplete (c : CacheId) (addr : Nat) (way : Nat)
  /-- L2_WAY_DISABLE: Eight corrected errors in a window or a tag UE start disabling a way. (R349) -/
  | l2WayDisable (c : CacheId) (way : Nat)
  /-- L2_WAY_DISABLE_DONE: A way's dirty lines are written back, lines invalidated and its WAYDIS bit set. (R349) -/
  | l2WayDisableDone (c : CacheId) (way : Nat)
  /-- L2_CE_WINDOW_END: A 2^24-cycle window ends and the per-way corrected counts restart. (R349) -/
  | l2CeWindowEnd (c : CacheId)
  /-- CIPHER_ENTRY_POST: A source posts a cipher entry, checked and bound to a slot and generation on entry. (R359) -/
  | cipherEntryPost (source : CipherSource) (words : List Nat)
  /-- CIPHER_URGENT_PROMOTE: A lane promotes a queued entry to urgent. (R363) -/
  | cipherUrgentPromote (l : Lane) (tag : Nat)
  /-- CIPHER_MESSAGE_START: A new message is chosen and enters the pipeline, suspending a normal one for an urgent. (R363) -/
  | cipherMessageStart
  /-- CIPHER_RESUME: A suspended message resumes with its saved tweak and generation. (R364) -/
  | cipherResume
  /-- CIPHER_MESSAGE_COMPLETE: A message's last block leaves the pipeline and its completion is returned. (R362) -/
  | cipherMessageComplete (stream : List Nat) (failAt : Option (Nat × Bool))
  /-- CX_CPL_POP: A read of CX_HCPL1 or CX_SCPL1 pops the oldest completion. (R360) -/
  | cxCplPop (who : Initiator) (security : Bool)
  /-- KEY_LOAD: Slot command LOAD unwraps a blob into the inactive set and rewrites. (R366) -/
  | keyLoad (who : Initiator) (slot : Nat)
  /-- KEY_GENERATE: Slot command GENERATE fills the inactive set with fresh keys and rewrites. (R366) -/
  | keyGenerate (who : Initiator) (slot : Nat) (nsid : Nat) (epoch : Nat) (tenant : Nat)
  /-- KEY_ERASE: Slot command ERASE sets ERASING until in-flight counts drain. (R366) -/
  | keyErase (who : Initiator) (slot : Nat)
  /-- KEY_MAP: Slot command MAP writes or clears a CX_NSMAP entry. (R366) -/
  | keyMap (who : Initiator) (slot : Nat) (clear : Bool)
  /-- KEY_GENERATION_DRAINED: The previous generation's count reaches 0, the old set is zeroised and the slot VALID. (R366) -/
  | keyGenerationDrained (slot : Nat)
  /-- KEY_ERASE_DRAINED: Both in-flight counts reach 0 and the erasing slot is zeroised and EMPTY. (R366) -/
  | keyEraseDrained (slot : Nat)
  /-- KEY_DRAIN_TIMEOUT: The previous generation undrained after 100 ms logs 0x5004 once. (R367) -/
  | keyDrainTimeout (slot : Nat)
  /-- KEY_MAILBOX_REQUEST: Drive firmware asks the Oprok core for a slot command through CX_KMBREQ. (R368) -/
  | keyMailboxRequest (who : Initiator) (req : KeyRequest)
  /-- CX_CTRL_EN_WRITE: A write of CX_CTRL.EN accepts entries, ignored on self-test failure or pending reload. (R372) -/
  | cxCtrlEnWrite (who : Initiator) (value : Word)
  /-- JTAG_SECURITY_ACCESS: The first permitted JTAG access to CX_ after reset zeroises every slot before taking effect. (R28) -/
  | jtagSecurityAccess (addr : Nat)
  /-- PMODE_TARGET_WRITE: A write of RG_PMODE.TARGET requests a device state. (R379) -/
  | pmodeTargetWrite (value : Word)
  /-- PM_TRANSITION_BEGIN: With every core in WAIT and the security core quiescent, the transition's stages begin. (R379) -/
  | pmTransitionBegin
  /-- PM_REQUEST_TIMEOUT: A transition not begun 50 ms after TARGET is abandoned with ERR. (R380) -/
  | pmRequestTimeout (secAck : Bool)
  /-- PM_STAGE_END: A transition stage reaches its end condition and the next stage or PMDONE follows. (R381) -/
  | pmStageEnd
  /-- FORCED_QUIESCE_TIMEOUT: 10 ms after the quiesce interrupt, cores not in WAIT are stopped and gated. (R383) -/
  | forcedQuiesceTimeout (stopped : Nat)
  /-- RETAIN_IDLE_EXPIRE: RG_RETIDLE.TIME in Halt elapses and Retain entry is attempted. (R384) -/
  | retainIdleExpire
  /-- RETAIN_ENTRY: Retain entry pauses the scrubber, puts DRAM in self-refresh and starts the seals. (R385) -/
  | retainEntry
  /-- RETAIN_SEAL_DONE: Seals and group parities are stored, flip-flops saved and domains gated. (R385) -/
  | retainSealDone (parities : Nat)
  /-- RETAIN_TICK_SWITCH: At the next 32.768 kHz tick the chronometer switches to Retain counting. (R393) -/
  | retainTickSwitch
  /-- WAKE_PCIE: A port leaving L1.2 or a PERST# change wakes the device from Retain. (R391) -/
  | wakePcie (port : Nat)
  /-- WAKE_CROWN_BREAK: A 1 ms crown break starts the wake oscillator. (R391) -/
  | wakeCrownBreak
  /-- WAKE_CROWN_PATTERN: The bytes 0x55 0x55 0xA7 after the break wake the device. (R391) -/
  | wakeCrownPattern
  /-- WAKE_CROWN_TIMEOUT: No wake pattern within 10 ms stops the oscillator. (R391) -/
  | wakeCrownTimeout
  /-- WAKE_SMBUS: An SMBus address byte 0x1D or 0x6A wakes the device without acknowledge. (R391) -/
  | wakeSmbus (addr : Nat)
  /-- WAKE_AON_TIMER: RG_AONTMR.SEC seconds in Retain wake the device. (R391) -/
  | wakeAonTimer
  /-- RETAIN_EXIT: On wake the PLL restarts, flip-flops are restored, parities and seals checked and cores released. (R387) -/
  | retainExit (groups : Nat) (banks : Nat) (regSram : Bool) (digestOk : Bool) (obs : BootObs)
  /-- CHRONOMETER_TICK: Every 100 domain-22 cycles the chronometer advances by 1 µs. (R392) -/
  | chronometerTick
  /-- RETAIN_CHRONOMETER_TICK: Each 32.768 kHz tick in Retain advances the chronometer with the fractional accumulator. (R392) -/
  | retainChronometerTick
  /-- CHRONOMETER_NOR_SAVE: Every 10 minutes the chronometer is written to the NOR settings region. (R395) -/
  | chronometerNorSave
  /-- USAGE_MINUTE_SNAPSHOT: At each chronometer minute boundary every usage meter is copied into the snapshot. (R400) -/
  | usageMinuteSnapshot
  /-- USAGE_SNAPSHOT_NOR_SAVE: Every 10 minutes and at Halt entry the snapshot is written to NOR. (R400) -/
  | usageSnapshotNorSave
  /-- DIODE_CONVERSION: Every 1 ms die diodes are read and the composite temperature formed. (R406) -/
  | diodeConversion (codes : List Nat)
  /-- DIODE_FAIL: Three out-of-range readings fail a diode until reset. (R406) -/
  | diodeFail (diode : Nat)
  /-- THERMISTOR_CONVERSION: Every 100 ms a thermistor mean of 4 is converted to a temperature. (R407) -/
  | thermistorConversion (t : Nat) (code : Nat)
  /-- THERMISTOR_OUT_OF_RANGE: Two out-of-range means report the thermistor as 0. (R408) -/
  | thermistorOutOfRange (t : Nat)
  /-- THERMISTOR_BACK_IN_RANGE: Two in-range means restore the thermistor reading. (R408) -/
  | thermistorBackInRange (t : Nat)
  /-- SUPPLY_CONVERSION: Every 10 µs a supply rail is converted and range-checked. (R408) -/
  | supplyConversion (ch : Nat) (code : Nat)
  /-- SUPPLY_FAILURE: Two low conversions assert retract, turn off the spindle and hold domains in reset. (R409) -/
  | supplyFailure (ch : Nat)
  /-- SUPPLY_HIGH: Two high conversions set SMART warning bit 2 and SUPHIGH. (R408) -/
  | supplyHigh (ch : Nat)
  /-- SUPPLY_RECOVERY_RESET: Rails within limits for 100 ms after a supply failure cause a device reset. (R409) -/
  | supplyRecoveryReset (straps : Straps)
  /-- SHOCK_STUCK: A shock input active for 100 ms is masked and STUCK set. (R410) -/
  | shockStuck (input : Nat)
  /-- SHOCK_UNMASK: A stuck input inactive for 10 ms is unmasked. (R410) -/
  | shockUnmask (input : Nat)
  /-- WARNING_SET: Four readings at or above warning set WARN and SMART bit 1. (R411) -/
  | warningSet
  /-- WARNING_CLEAR: Four readings 5 °C below warning clear it. (R411) -/
  | warningClear
  /-- THROTTLE_SET: Four readings at or above TSET start throttling at their lowest computed step. (R413) -/
  | throttleSet
  /-- THROTTLE_STEP_RISE: Four readings all computing above s raise the step. (R413) -/
  | throttleStepRise
  /-- THROTTLE_STEP_FALL: 1,000 readings computing below s lower the step by 1. (R413) -/
  | throttleStepFall
  /-- THROTTLE_CLEAR: Four readings 5 °C below TSET end throttling. (R413) -/
  | throttleClear
  /-- THCTRL_FORCE_WRITE: A write of RG_THCTRL.FORCE changes the step in force. (R413) -/
  | thctrlForceWrite (value : Word)
  /-- THERMAL_SHUTDOWN: Two readings at shutdown assert retract, stop the spindle and hold domains in reset. (R415) -/
  | thermalShutdown
  /-- THERMAL_AUTO_RESTART: With auto-restart, 60 s below 100 °C cause a device reset. (R416) -/
  | thermalAutoRestart (straps : Straps)
  /-- MEDIA_DUTY_WINDOW: A 10 ms duty window begins and dispatch caps reset. (R414) -/
  | mediaDutyWindow
  /-- DUTY_CAP_REACHED: A lane's duty reaching its cap stops new dispatch in that window. (R414) -/
  | dutyCapReached (l : Lane)
  /-- REFERENCE_LADDER_CHECK: At boot and every 24 h the reference ladder nearer the bandgap is selected. (R418) -/
  | referenceLadderCheck (regB : Bool) (motorB : Bool)
  /-- BANDGAP_TRIM: Each second the bandgap trim is corrected by at most 1 LSB. (R418) -/
  | bandgapTrim (error : Int)
  /-- CALREQ_GO: A write of RG_CALREQn.GO requests a calibration window or is refused. (R420) -/
  | calreqGo (l : Lane) (kind : Nat) (head : Nat) (duration : Nat)
  /-- CAL_GRANT: A pending calibration request meeting the mode's rules is granted. (R420) -/
  | calGrant
  /-- CAL_DONE_WRITE: A write of RG_CALGNTn.DONE ends the grant. (R421) -/
  | calDoneWrite (l : Lane)
  /-- CAL_GRANT_EXPIRE: A grant past its duration aborts both sequencers and sets CALEXP. (R421) -/
  | calGrantExpire (l : Lane)
  /-- CAL_WAIT_OVERDUE: A request waiting beyond twice its interval logs 0x6011. (R420) -/
  | calWaitOverdue (l : Lane)
  /-- LOG_POST: A unit posts a logbook entry into the FIFO with sequence and chronometer. (R427) -/
  | logPost (source : Nat) (code : Nat) (params : List Nat)
  /-- LOGBOOK_PROGRAM: Pending entries are programmed into the NOR ring. (R429) -/
  | logbookProgram (fail1 : Bool) (fail2 : Bool)
  /-- LOGBOOK_FLUSH_TIMER: 1 s after the oldest pending entry a program is triggered. (R429) -/
  | logbookFlushTimer
  /-- LOGBOOK_MIRROR_COPY: A filled NOR block is copied to the medium mirror. (R429) -/
  | logbookMirrorCopy
  /-- SMBUS_CLOCK_LOW_TIMEOUT: SCL low for 25 ms resets the SMBus interface. (R424) -/
  | smbusClockLowTimeout
  /-- AON_CLOCK_MISSING: Four missing 32.768 kHz ticks set AONFAIL. (R424) -/
  | aonClockMissing
  /-- CROWN_FRAME_RECEIVE: A Solind frame is received, checked and acknowledged or NAKed. (R446) -/
  | crownFrameReceive (bytes : List Nat) (stopOk : Bool)
  /-- CROWN_INTERBYTE_TIMEOUT: More than 1 ms between bytes discards the frame. (R446) -/
  | crownInterbyteTimeout
  /-- CROWN_ACK_RECEIVE: An ACK from the station acknowledges the device's frames. (R447) -/
  | crownAckReceive (seq : Nat) (straps : Straps)
  /-- CROWN_NAK_RECEIVE: A NAK makes the device retransmit from the named frame. (R447) -/
  | crownNakReceive (seq : Nat)
  /-- CROWN_RETRANSMIT_TIMEOUT: 50 ms without ACK retransmit from the oldest unacknowledged frame. (R447) -/
  | crownRetransmitTimeout
  /-- BAUD_REVERT_TIMEOUT: No valid frame within 1 s at the new rate returns to 115,200 bit/s. (R448) -/
  | baudRevertTimeout
  /-- CROWN_WAKE_TIMEOUT: An event frame waiting with no station frame for 10 s asserts CROWN_WAKE. (R445) -/
  | crownWakeTimeout
  /-- SOLIND_HELLO: HELLO restarts sequence numbering and reports identity and mode. (R449) -/
  | solindHello
  /-- SOLIND_SET_BAUD: SET_BAUD requests a new crown rate. (R448) -/
  | solindSetBaud (rate : Nat)
  /-- SOLIND_SET_TIME: SET_TIME anchors host time to the chronometer. (R396) -/
  | solindSetTime (ms : Nat)
  /-- SOLIND_STATUS: STATUS returns boot, reset, update and calibre status. (R449) -/
  | solindStatus
  /-- SOLIND_LOG_READ: LOG_READ returns logbook entries from NOR. (R449) -/
  | solindLogRead (first : Nat) (count : Nat)
  /-- SOLIND_UPD_BEGIN: UPD_BEGIN starts or resumes a firmware download. (R451) -/
  | solindUpdBegin (length : Nat) (ident : Nat)
  /-- SOLIND_UPD_CHUNK: UPD_CHUNK programs the next 4 KiB chunk and its journal entry. (R451) -/
  | solindUpdChunk (index : Nat) (data : Nat) (norFail : Bool)
  /-- SOLIND_UPD_VERIFY: UPD_VERIFY starts verification of the staged image. (R452) -/
  | solindUpdVerify
  /-- UPD_VERIFY_DONE: Verification ends, moving to stage 3 or back to 0 with VCODE. (R450) -/
  | updVerifyDone (obs : ImageObs)
  /-- SOLIND_UPD_COMMIT: UPD_COMMIT starts copying the staged image into the inactive slot. (R453) -/
  | solindUpdCommit
  /-- UPD_COPY_DONE: The slot copy reads back equal and the pending slot is set, or fails on NOR. (R450) -/
  | updCopyDone (norFail : Bool)
  /-- SOLIND_UPD_SCHEDULE: UPD_SCHEDULE stores activation epoch and window. (R450) -/
  | solindUpdSchedule (epoch : Nat) (window : Nat)
  /-- SOLIND_UPD_CANCEL: UPD_CANCEL clears the pending image or download. (R450) -/
  | solindUpdCancel
  /-- SOLIND_UPD_STATUS: UPD_STATUS reports stage, chunks, code and window time. (R449) -/
  | solindUpdStatus
  /-- SOLIND_CAL_CHUNK: CAL_CHUNK writes up to 4 KiB into the calibre buffer. (R449) -/
  | solindCalChunk (offset : Nat) (length : Nat) (data : Nat)
  /-- SOLIND_CAL_COMMIT: CAL_COMMIT checks the calibre buffer and programs the other copy. (R454) -/
  | solindCalCommit (copy : Nat) (verdict : Option Verdict) (norFail : Bool)
  /-- SOLIND_CAL_READ: CAL_READ returns bytes of a calibre copy. (R449) -/
  | solindCalRead (copy : Nat) (offset : Nat) (length : Nat)
  /-- SOLIND_KEY_REVOKE: KEY_REVOKE fuses a signing key's revocation bit unless refused. (R437) -/
  | solindKeyRevoke (message : List Nat) (signer : Nat) (signature : Bool)
  /-- SOLIND_STORE_RECOVER: STORE_RECOVER rebuilds the map by full scan or recreates namespace 1. (R457) -/
  | solindStoreRecover (option : Nat)
  /-- STORE_RECOVER_DONE: Store recovery ends, CFS clears and the controller may become ready. (R457) -/
  | storeRecoverDone (obs : RebuildObs)
  /-- SOLIND_RESET: RESET causes a device reset after the response's ACK. (R449) -/
  | solindReset
  /-- ACT_SYNC_EDGE: A qualified ACT_SYNC edge in the window sets CSTS.PP and starts the activation drain. (R455) -/
  | actSyncEdge
  /-- ACTIVATION_DRAIN_DONE: With no commands in flight the cores stop and the Oprok core switches code. (R455) -/
  | activationDrainDone (obs : ImageObs) (patch : PatchObs)
  /-- ACTIVATION_DRAIN_TIMEOUT: Commands still in flight 2 s after PP postpone the activation. (R119) -/
  | activationDrainTimeout
  /-- ACTIVATION_SWITCH_DONE: New cores are released in probation and fetching resumes. (R455) -/
  | activationSwitchDone
  /-- ACTIVATION_WINDOW_EXPIRE: The window passes with no edge taken and the stage returns to Pending. (R450) -/
  | activationWindowExpire
  /-- PROBATION_SAVE_TIMER: Every 60 s the probation Run time is stored in the boot record. (R456) -/
  | probationSaveTimer
  /-- PROBATION_TIMEOUT: 1,800 s of Run without confirmation reset the device with cause 5. (R456) -/
  | probationTimeout (straps : Straps)
  /-- BOOTCONF_CONFIRM: A write of RG_BOOTCONF.CONFIRM makes the pending image active and may fuse its version. (R456) -/
  | bootconfConfirm (fuseOk : Bool)
  /-- SUPPLIES_REMOVED: The board removes every supply except VDD_AON and VDD_IO33, and the device passes from Retain or any other state into Off. (R377) -/
  | suppliesRemoved
  /-- L2_OPERATION_COMPLETE: A cache maintenance operation finishes, BUSY clears, the next pending core's operation is served, and an ALL operation clears VALIDCTX and STALE. (R350) -/
  | l2OperationComplete (c : CacheId)
  /-- SV_TARGET_WRITE: A write of Ln_SV_TARGET in FOLLOW changes the target and moves the lane to SETTLE with a soft start. (R259) -/
  | svTargetWrite (l : Lane) (head : Nat) (track : Nat)
  deriving DecidableEq, Repr

end Sys2Proof
end

