-- ==== Sys2Proof/Decode.lean ====
section
/-!
DEFINITION. The decoder over the rows of spec/opcode_table.json that give bits. The table gives bits to no row: every row's list of fields is
empty, since a command of this block is a register access, a protocol message or an event, not a word. So no word spells a command.
-/
namespace Sys2Proof

/-- The command a word of the table spells: none, for every width and word. -/
def decodeTableWord (_nbits _w : Nat) : Option Instr := none

end Sys2Proof
end

