-- ==== Sys2Proof/Machine/Regs.lean ====
section
/-!
DEFINITION. The register map: the address of every register the spec gives an offset, every field's place, and one row per
register (or run of registers) with the reset word and the access of each bit (R11, R15, R24, R26, and the register table of
each chapter as cited at each definition). A register is known by its physical address in the map of R24.
-/
namespace Sys2Proof.Machine

/-- A field of a register: the register's address, the field's least significant bit and its width. -/
structure RF where
  reg : Nat
  lo : Nat
  n : Nat
  deriving DecidableEq, Repr

/-- One row of a block's register table: `count` registers from offset `off`, `stride` bytes apart, with the word each
holds after reset and the bits each access code of R11 covers (bits in none of the masks are read-only or reserved). -/
structure Row where
  off : Nat
  count : Nat := 1
  stride : Nat := 4
  reset : Nat := 0
  rw : Nat := 0
  w1c : Nat := 0
  w1s : Nat := 0
  rwl : Nat := 0
  wo : Nat := 0
  rc : Nat := 0
  /-- bits only the Oprok core writes (R330) -/
  op : Nat := 0
  deriving DecidableEq, Repr

/-! ### the host section (HS_) -/

/-- HS_LINK_STS (R57). -/
def HS_LINK_STS (i : Nat) : Nat := 0xF0000000 + 0x100 + 4 * i
/-- HS_LINK_STS.UP, bits 31:31, RO (R57). -/
def HS_LINK_STS_UP (i : Nat) : RF := ⟨HS_LINK_STS i, 31, 1⟩
/-- HS_LINK_STS.L12, bits 30:30, RO (R57). -/
def HS_LINK_STS_L12 (i : Nat) : RF := ⟨HS_LINK_STS i, 30, 1⟩
/-- HS_LINK_STS.PERST, bits 29:29, RO (R57). -/
def HS_LINK_STS_PERST (i : Nat) : RF := ⟨HS_LINK_STS i, 29, 1⟩
/-- HS_LINK_STS.CORR_CNT, bits 23:16, RC (R57). -/
def HS_LINK_STS_CORR_CNT (i : Nat) : RF := ⟨HS_LINK_STS i, 16, 8⟩
/-- HS_LINK_STS.WIDTH, bits 11:8, RO (R57). -/
def HS_LINK_STS_WIDTH (i : Nat) : RF := ⟨HS_LINK_STS i, 8, 4⟩
/-- HS_LINK_STS.SPEED, bits 3:0, RO (R57). -/
def HS_LINK_STS_SPEED (i : Nat) : RF := ⟨HS_LINK_STS i, 0, 4⟩
/-- HS_INFLIGHT (R57). -/
def HS_INFLIGHT : Nat := 0xF0000000 + 0x110
/-- HS_INFLIGHT.PAUSE_OT, bits 31:31, RO (R57). -/
def HS_INFLIGHT_PAUSE_OT : RF := ⟨HS_INFLIGHT, 31, 1⟩
/-- HS_INFLIGHT.PAUSE_LIM, bits 30:30, RO (R57). -/
def HS_INFLIGHT_PAUSE_LIM : RF := ⟨HS_INFLIGHT, 30, 1⟩
/-- HS_INFLIGHT.COUNT, bits 10:0, RO (R57). -/
def HS_INFLIGHT_COUNT : RF := ⟨HS_INFLIGHT, 0, 11⟩
/-- HS_OT_STATUS (R94). -/
def HS_OT_STATUS : Nat := 0xF0000000 + 0x114
/-- HS_OT_STATUS.PINNED, bits 28:16, RO (R94). -/
def HS_OT_STATUS_PINNED : RF := ⟨HS_OT_STATUS, 16, 13⟩
/-- HS_OT_STATUS.USED, bits 11:0, RO (R94). -/
def HS_OT_STATUS_USED : RF := ⟨HS_OT_STATUS, 0, 12⟩
/-- HS_PULL (R94). -/
def HS_PULL : Nat := 0xF0000000 + 0x118
/-- HS_PULL.LEAD, bits 11:0, RW (R94). -/
def HS_PULL_LEAD : RF := ⟨HS_PULL, 0, 12⟩
/-- HS_STORE_STS (R160). -/
def HS_STORE_STS : Nat := 0xF0000000 + 0x120
/-- HS_STORE_STS.REBUILD, bits 31:30, RO (R160). -/
def HS_STORE_STS_REBUILD : RF := ⟨HS_STORE_STS, 30, 2⟩
/-- HS_STORE_STS.UNVERIFIED, bits 23:16, RO (R160). -/
def HS_STORE_STS_UNVERIFIED : RF := ⟨HS_STORE_STS, 16, 8⟩
/-- HS_STORE_STS.FREE, bits 15:0, RO (R160). -/
def HS_STORE_STS_FREE : RF := ⟨HS_STORE_STS, 0, 16⟩
/-- HS_STORE_SEQL (R160). -/
def HS_STORE_SEQL : Nat := 0xF0000000 + 0x124
/-- HS_STORE_SEQL.SEQ, bits 31:0, RO (R160). -/
def HS_STORE_SEQL_SEQ : RF := ⟨HS_STORE_SEQL, 0, 32⟩
/-- HS_STORE_SEQH (R160). -/
def HS_STORE_SEQH : Nat := 0xF0000000 + 0x128
/-- HS_STORE_SEQH.SEQ, bits 31:0, RO (R160). -/
def HS_STORE_SEQH_SEQ : RF := ⟨HS_STORE_SEQH, 0, 32⟩
/-- HS_L2_CTRL (R354). -/
def HS_L2_CTRL : Nat := 0xF0000000 + 0x200
/-- HS_L2_CTRL.EN, bits 0:0, RW (R354). -/
def HS_L2_CTRL_EN : RF := ⟨HS_L2_CTRL, 0, 1⟩
/-- HS_L2_STATUS (R354). -/
def HS_L2_STATUS : Nat := 0xF0000000 + 0x204
/-- HS_L2_STATUS.STALE, bits 31:31, RO (R354). -/
def HS_L2_STATUS_STALE : RF := ⟨HS_L2_STATUS, 31, 1⟩
/-- HS_L2_STATUS.VALIDCTX, bits 30:30, RO (R354). -/
def HS_L2_STATUS_VALIDCTX : RF := ⟨HS_L2_STATUS, 30, 1⟩
/-- HS_L2_STATUS.PASS, bits 29:29, RO (R354). -/
def HS_L2_STATUS_PASS : RF := ⟨HS_L2_STATUS, 29, 1⟩
/-- HS_L2_STATUS.CE_CNT, bits 23:16, RC (R354). -/
def HS_L2_STATUS_CE_CNT : RF := ⟨HS_L2_STATUS, 16, 8⟩
/-- HS_L2_WAYDIS (R354). -/
def HS_L2_WAYDIS : Nat := 0xF0000000 + 0x208
/-- HS_L2_WAYDIS.WAYS, bits 15:0, RO (R354). -/
def HS_L2_WAYDIS_WAYS : RF := ⟨HS_L2_WAYDIS, 0, 16⟩
/-- HS_L2_INT (R354). -/
def HS_L2_INT : Nat := 0xF0000000 + 0x20C
/-- HS_L2_INT.STALE, bits 3:3, W1C (R354). -/
def HS_L2_INT_STALE : RF := ⟨HS_L2_INT, 3, 1⟩
/-- HS_L2_INT.WAYOFF, bits 2:2, W1C (R354). -/
def HS_L2_INT_WAYOFF : RF := ⟨HS_L2_INT, 2, 1⟩
/-- HS_L2_INT.TAGUE, bits 1:1, W1C (R354). -/
def HS_L2_INT_TAGUE : RF := ⟨HS_L2_INT, 1, 1⟩
/-- HS_L2_INT.DATAUE, bits 0:0, W1C (R354). -/
def HS_L2_INT_DATAUE : RF := ⟨HS_L2_INT, 0, 1⟩
/-- HS_L2_INTEN (R354). -/
def HS_L2_INTEN : Nat := 0xF0000000 + 0x210
/-- HS_L2_MADDR (R354). -/
def HS_L2_MADDR (i : Nat) : Nat := 0xF0000000 + 0x220 + 8 * i
/-- HS_L2_MADDR.ADDR, bits 31:0, RW (R354). -/
def HS_L2_MADDR_ADDR (i : Nat) : RF := ⟨HS_L2_MADDR i, 0, 32⟩
/-- HS_L2_MOP (R354). -/
def HS_L2_MOP (i : Nat) : Nat := 0xF0000000 + 0x224 + 8 * i
/-- HS_L2_MOP.BUSY, bits 31:31, RO (R354). -/
def HS_L2_MOP_BUSY (i : Nat) : RF := ⟨HS_L2_MOP i, 31, 1⟩
/-- HS_L2_MOP.ERR, bits 30:30, RO (R354). -/
def HS_L2_MOP_ERR (i : Nat) : RF := ⟨HS_L2_MOP i, 30, 1⟩
/-- HS_L2_MOP.WAY, bits 19:16, RW (R354). -/
def HS_L2_MOP_WAY (i : Nat) : RF := ⟨HS_L2_MOP i, 16, 4⟩
/-- HS_L2_MOP.SET, bits 15:5, RW (R354). -/
def HS_L2_MOP_SET (i : Nat) : RF := ⟨HS_L2_MOP i, 5, 11⟩
/-- HS_L2_MOP.OP, bits 3:0, RW (R354). -/
def HS_L2_MOP_OP (i : Nat) : RF := ⟨HS_L2_MOP i, 0, 4⟩

/-- Rows of the host section (HS_), part 0. -/
def hsRows0 : List Row :=
  [ { off := 0x100, count := 2, reset := 0x20000000, rc := 0xFF0000 },
    { off := 0x110 },
    { off := 0x114 },
    { off := 0x118, reset := 0x78, rw := 0xFFF },
    { off := 0x120 },
    { off := 0x124 },
    { off := 0x128 },
    { off := 0x200, rw := 0x1 },
    { off := 0x204, rc := 0xFF0000 },
    { off := 0x208 },
    { off := 0x20C, w1c := 0xF },
    { off := 0x210, rw := 0xF },
    { off := 0x220, count := 4, stride := 8, rw := 0xFFFFFFFF },
    { off := 0x224, count := 4, stride := 8, rw := 0xFFFEF } ]
/-- All rows of the host section (HS_). -/
def hsRows : List Row := hsRows0

/-! ### the read channel of a lane (Ln_) -/

/-- CH_CTRL (R194). -/
def CH_CTRL (l : Lane) : Nat := l.base + 0x0
/-- CH_CTRL.STOP, bits 31:31, WO (R194). -/
def CH_CTRL_STOP (l : Lane) : RF := ⟨CH_CTRL l, 31, 1⟩
/-- CH_CTRL.RPL_OFF, bits 3:3, RW (R194). -/
def CH_CTRL_RPL_OFF (l : Lane) : RF := ⟨CH_CTRL l, 3, 1⟩
/-- CH_CTRL.SCAN, bits 2:2, RW (R194). -/
def CH_CTRL_SCAN (l : Lane) : RF := ⟨CH_CTRL l, 2, 1⟩
/-- CH_CTRL.EN, bits 0:0, RW (R194). -/
def CH_CTRL_EN (l : Lane) : RF := ⟨CH_CTRL l, 0, 1⟩
/-- CH_STATUS (R194). -/
def CH_STATUS (l : Lane) : Nat := l.base + 0x4
/-- CH_STATUS.BUSY, bits 31:31, RO (R194). -/
def CH_STATUS_BUSY (l : Lane) : RF := ⟨CH_STATUS l, 31, 1⟩
/-- CH_STATUS.RPL, bits 30:30, RO (R194). -/
def CH_STATUS_RPL (l : Lane) : RF := ⟨CH_STATUS l, 30, 1⟩
/-- CH_STATUS.HOLD, bits 29:29, RO (R194). -/
def CH_STATUS_HOLD (l : Lane) : RF := ⟨CH_STATUS l, 29, 1⟩
/-- CH_STATUS.LOADING, bits 28:28, RO (R194). -/
def CH_STATUS_LOADING (l : Lane) : RF := ⟨CH_STATUS l, 28, 1⟩
/-- CH_STATUS.BADTBL, bits 27:27, RO (R194). -/
def CH_STATUS_BADTBL (l : Lane) : RF := ⟨CH_STATUS l, 27, 1⟩
/-- CH_STATUS.DUPLEX, bits 0:0, RO (R194). -/
def CH_STATUS_DUPLEX (l : Lane) : RF := ⟨CH_STATUS l, 0, 1⟩
/-- CH_INT (R195). -/
def CH_INT (l : Lane) : Nat := l.base + 0x8
/-- CH_INT.PARITY, bits 11:11, W1C (R195). -/
def CH_INT_PARITY (l : Lane) : RF := ⟨CH_INT l, 11, 1⟩
/-- CH_INT.CNT_ERR, bits 10:10, W1C (R195). -/
def CH_INT_CNT_ERR (l : Lane) : RF := ⟨CH_INT l, 10, 1⟩
/-- CH_INT.STRIPE_FAIL, bits 9:9, W1C (R195). -/
def CH_INT_STRIPE_FAIL (l : Lane) : RF := ⟨CH_INT l, 9, 1⟩
/-- CH_INT.STRIPE_DONE, bits 8:8, W1C (R195). -/
def CH_INT_STRIPE_DONE (l : Lane) : RF := ⟨CH_INT l, 8, 1⟩
/-- CH_INT.HOLD, bits 7:7, W1C (R195). -/
def CH_INT_HOLD (l : Lane) : RF := ⟨CH_INT l, 7, 1⟩
/-- CH_INT.GAIN_LIM, bits 6:6, W1C (R195). -/
def CH_INT_GAIN_LIM (l : Lane) : RF := ⟨CH_INT l, 6, 1⟩
/-- CH_INT.TR_UNLOCK, bits 5:5, W1C (R195). -/
def CH_INT_TR_UNLOCK (l : Lane) : RF := ⟨CH_INT l, 5, 1⟩
/-- CH_INT.ADC_OVR, bits 4:4, W1C (R195). -/
def CH_INT_ADC_OVR (l : Lane) : RF := ⟨CH_INT l, 4, 1⟩
/-- CH_INT.TBL_BAD, bits 3:3, W1C (R195). -/
def CH_INT_TBL_BAD (l : Lane) : RF := ⟨CH_INT l, 3, 1⟩
/-- CH_INT.SEAL, bits 2:2, W1C (R195). -/
def CH_INT_SEAL (l : Lane) : RF := ⟨CH_INT l, 2, 1⟩
/-- CH_INT.NO_MARK, bits 1:1, W1C (R195). -/
def CH_INT_NO_MARK (l : Lane) : RF := ⟨CH_INT l, 1, 1⟩
/-- CH_INT.SECT_FAIL, bits 0:0, W1C (R195). -/
def CH_INT_SECT_FAIL (l : Lane) : RF := ⟨CH_INT l, 0, 1⟩
/-- CH_INTEN (R195). -/
def CH_INTEN (l : Lane) : Nat := l.base + 0xC
/-- HZSEL (R192). -/
def HZSEL (l : Lane) : Nat := l.base + 0x10
/-- HZSEL.LOAD, bits 31:31, WO (R192). -/
def HZSEL_LOAD (l : Lane) : RF := ⟨HZSEL l, 31, 1⟩
/-- HZSEL.LOADED, bits 30:30, RO (R192). -/
def HZSEL_LOADED (l : Lane) : RF := ⟨HZSEL l, 30, 1⟩
/-- HZSEL.BAD, bits 29:29, RO (R192). -/
def HZSEL_BAD (l : Lane) : RF := ⟨HZSEL l, 29, 1⟩
/-- HZSEL.HEAD, bits 19:16, RW (R192). -/
def HZSEL_HEAD (l : Lane) : RF := ⟨HZSEL l, 16, 4⟩
/-- HZSEL.ZONE, bits 5:0, RW (R192). -/
def HZSEL_ZONE (l : Lane) : RF := ⟨HZSEL l, 0, 6⟩
/-- ADT_BASE (R192). -/
def ADT_BASE (l : Lane) : Nat := l.base + 0x14
/-- ADT_BASE.ADDR, bits 31:0, RW (R192). -/
def ADT_BASE_ADDR (l : Lane) : RF := ⟨ADT_BASE l, 0, 32⟩
/-- CNT_BASE (R192). -/
def CNT_BASE (l : Lane) : Nat := l.base + 0x18
/-- CNT_BASE.ADDR, bits 31:0, RW (R192). -/
def CNT_BASE_ADDR (l : Lane) : RF := ⟨CNT_BASE l, 0, 32⟩
/-- PRED_BASE (R192). -/
def PRED_BASE (l : Lane) : Nat := l.base + 0x1C
/-- PRED_BASE.ADDR, bits 31:0, RW (R192). -/
def PRED_BASE_ADDR (l : Lane) : RF := ⟨PRED_BASE l, 0, 32⟩
/-- AFE_GAIN (R165). -/
def AFE_GAIN (l : Lane) : Nat := l.base + 0x20
/-- AFE_GAIN.FREEZE, bits 15:15, RW (R165). -/
def AFE_GAIN_FREEZE (l : Lane) : RF := ⟨AFE_GAIN l, 15, 1⟩
/-- AFE_GAIN.GAIN, bits 9:0, RW (R165). -/
def AFE_GAIN_GAIN (l : Lane) : RF := ⟨AFE_GAIN l, 0, 10⟩
/-- AFE_OFS (R165). -/
def AFE_OFS (l : Lane) : Nat := l.base + 0x24
/-- AFE_OFS.CUR, bits 25:16, RO (R165). -/
def AFE_OFS_CUR (l : Lane) : RF := ⟨AFE_OFS l, 16, 10⟩
/-- AFE_OFS.TGT, bits 9:0, RW (R165). -/
def AFE_OFS_TGT (l : Lane) : RF := ⟨AFE_OFS l, 0, 10⟩
/-- AFE_ASYM (R165). -/
def AFE_ASYM (l : Lane) : Nat := l.base + 0x28
/-- AFE_ASYM.CUR, bits 25:16, RO (R165). -/
def AFE_ASYM_CUR (l : Lane) : RF := ⟨AFE_ASYM l, 16, 10⟩
/-- AFE_ASYM.TGT, bits 9:0, RW (R165). -/
def AFE_ASYM_TGT (l : Lane) : RF := ⟨AFE_ASYM l, 0, 10⟩
/-- AFE_CTLE (R165). -/
def AFE_CTLE (l : Lane) : Nat := l.base + 0x2C
/-- AFE_CTLE.POLE, bits 15:8, RW (R165). -/
def AFE_CTLE_POLE (l : Lane) : RF := ⟨AFE_CTLE l, 8, 8⟩
/-- AFE_CTLE.BOOST, bits 6:0, RW (R165). -/
def AFE_CTLE_BOOST (l : Lane) : RF := ⟨AFE_CTLE l, 0, 7⟩
/-- ADC_STATUS (R167). -/
def ADC_STATUS (l : Lane) : Nat := l.base + 0x30
/-- ADC_STATUS.CAL, bits 31:31, RO (R167). -/
def ADC_STATUS_CAL (l : Lane) : RF := ⟨ADC_STATUS l, 31, 1⟩
/-- ADC_STATUS.OVR_CNT, bits 23:16, RC (R167). -/
def ADC_STATUS_OVR_CNT (l : Lane) : RF := ⟨ADC_STATUS l, 16, 8⟩
/-- TR_STEP (R169). -/
def TR_STEP (l : Lane) : Nat := l.base + 0x34
/-- TR_STEP.STEP, bits 31:0, RW (R169). -/
def TR_STEP_STEP (l : Lane) : RF := ⟨TR_STEP l, 0, 32⟩
/-- TR_LOOP (R169). -/
def TR_LOOP (l : Lane) : Nat := l.base + 0x38
/-- TR_LOOP.KP, bits 23:20, RW (R169). -/
def TR_LOOP_KP (l : Lane) : RF := ⟨TR_LOOP l, 20, 4⟩
/-- TR_LOOP.KI, bits 19:16, RW (R169). -/
def TR_LOOP_KI (l : Lane) : RF := ⟨TR_LOOP l, 16, 4⟩
/-- TR_LOOP.ACQ, bits 7:0, RW (R169). -/
def TR_LOOP_ACQ (l : Lane) : RF := ⟨TR_LOOP l, 0, 8⟩
/-- TR_STATUS (R169). -/
def TR_STATUS (l : Lane) : Nat := l.base + 0x3C
/-- TR_STATUS.LOCK, bits 31:31, RO (R169). -/
def TR_STATUS_LOCK (l : Lane) : RF := ⟨TR_STATUS l, 31, 1⟩
/-- TR_STATUS.FERR, bits 23:0, RO (R169). -/
def TR_STATUS_FERR (l : Lane) : RF := ⟨TR_STATUS l, 0, 24⟩
/-- EQ_CTRL (R171). -/
def EQ_CTRL (l : Lane) : Nat := l.base + 0x40
/-- EQ_CTRL.ADAPT, bits 31:31, RW (R171). -/
def EQ_CTRL_ADAPT (l : Lane) : RF := ⟨EQ_CTRL l, 31, 1⟩
/-- EQ_CTRL.MU, bits 23:16, RW (R171). -/
def EQ_CTRL_MU (l : Lane) : RF := ⟨EQ_CTRL l, 16, 8⟩
/-- EQ_CTRL.MAIN, bits 4:0, RW (R171). -/
def EQ_CTRL_MAIN (l : Lane) : RF := ⟨EQ_CTRL l, 0, 5⟩
/-- EQ_TGT0 (R171). -/
def EQ_TGT0 (l : Lane) : Nat := l.base + 0x44
/-- EQ_TGT0.TAPS, bits 31:0, RW (R171). -/
def EQ_TGT0_TAPS (l : Lane) : RF := ⟨EQ_TGT0 l, 0, 32⟩
/-- EQ_TGT1 (R171). -/
def EQ_TGT1 (l : Lane) : Nat := l.base + 0x48
/-- EQ_TGT1.TAP4, bits 7:0, RW (R171). -/
def EQ_TGT1_TAP4 (l : Lane) : RF := ⟨EQ_TGT1 l, 0, 8⟩
/-- DET_CTRL (R171). -/
def DET_CTRL (l : Lane) : Nat := l.base + 0x4C
/-- DET_CTRL.ALTSET, bits 14:12, RW (R171). -/
def DET_CTRL_ALTSET (l : Lane) : RF := ⟨DET_CTRL l, 12, 3⟩
/-- DET_CTRL.SET, bits 10:8, RW (R171). -/
def DET_CTRL_SET (l : Lane) : RF := ⟨DET_CTRL l, 8, 3⟩
/-- DET_CTRL.LLRSCALE, bits 7:0, RW (R171). -/
def DET_CTRL_LLRSCALE (l : Lane) : RF := ⟨DET_CTRL l, 0, 8⟩
/-- SYNC_CTRL (R180). -/
def SYNC_CTRL (l : Lane) : Nat := l.base + 0x50
/-- SYNC_CTRL.WIN, bits 13:8, RW (R180). -/
def SYNC_CTRL_WIN (l : Lane) : RF := ⟨SYNC_CTRL l, 8, 6⟩
/-- SYNC_CTRL.THRESH, bits 2:0, RW (R180). -/
def SYNC_CTRL_THRESH (l : Lane) : RF := ⟨SYNC_CTRL l, 0, 3⟩
/-- SYNC_CAND (R180). -/
def SYNC_CAND (l : Lane) (i : Nat) : Nat := l.base + 0x54 + 4 * i
/-- SYNC_CAND.VALID, bits 31:31, RO (R180). -/
def SYNC_CAND_VALID (l : Lane) (i : Nat) : RF := ⟨SYNC_CAND l i, 31, 1⟩
/-- SYNC_CAND.DIST, bits 26:24, RO (R180). -/
def SYNC_CAND_DIST (l : Lane) (i : Nat) : RF := ⟨SYNC_CAND l i, 24, 3⟩
/-- SYNC_CAND.POS, bits 7:0, RO (R180). -/
def SYNC_CAND_POS (l : Lane) (i : Nat) : RF := ⟨SYNC_CAND l i, 0, 8⟩
/-- LDPC_CTRL (R179). -/
def LDPC_CTRL (l : Lane) : Nat := l.base + 0x60
/-- LDPC_CTRL.WEAK, bits 29:24, RW (R179). -/
def LDPC_CTRL_WEAK (l : Lane) : RF := ⟨LDPC_CTRL l, 24, 6⟩
/-- LDPC_CTRL.RPL, bits 21:16, RW (R179). -/
def LDPC_CTRL_RPL (l : Lane) : RF := ⟨LDPC_CTRL l, 16, 6⟩
/-- LDPC_CTRL.LIVE, bits 13:8, RW (R179). -/
def LDPC_CTRL_LIVE (l : Lane) : RF := ⟨LDPC_CTRL l, 8, 6⟩
/-- LDPC_CTRL.RATE, bits 1:0, RO (R179). -/
def LDPC_CTRL_RATE (l : Lane) : RF := ⟨LDPC_CTRL l, 0, 2⟩
/-- LDPC_STATUS (R179). -/
def LDPC_STATUS (l : Lane) : Nat := l.base + 0x64
/-- LDPC_STATUS.CONV, bits 31:31, RO (R179). -/
def LDPC_STATUS_CONV (l : Lane) : RF := ⟨LDPC_STATUS l, 31, 1⟩
/-- LDPC_STATUS.SEAL, bits 30:30, RO (R179). -/
def LDPC_STATUS_SEAL (l : Lane) : RF := ⟨LDPC_STATUS l, 30, 1⟩
/-- LDPC_STATUS.ITER, bits 29:24, RO (R179). -/
def LDPC_STATUS_ITER (l : Lane) : RF := ⟨LDPC_STATUS l, 24, 6⟩
/-- LDPC_STATUS.USC, bits 12:0, RO (R179). -/
def LDPC_STATUS_USC (l : Lane) : RF := ⟨LDPC_STATUS l, 0, 13⟩
/-- RPL_CTRL (R186). -/
def RPL_CTRL (l : Lane) : Nat := l.base + 0x68
/-- RPL_CTRL.MAXATT, bits 5:0, RW (R186). -/
def RPL_CTRL_MAXATT (l : Lane) : RF := ⟨RPL_CTRL l, 0, 6⟩
/-- RPL_STATUS (R186). -/
def RPL_STATUS (l : Lane) : Nat := l.base + 0x6C
/-- RPL_STATUS.ATT, bits 31:24, RO (R186). -/
def RPL_STATUS_ATT (l : Lane) : RF := ⟨RPL_STATUS l, 24, 8⟩
/-- RPL_STATUS.STEP, bits 23:20, RO (R186). -/
def RPL_STATUS_STEP (l : Lane) : RF := ⟨RPL_STATUS l, 20, 4⟩
/-- RPL_STATUS.ALIGN, bits 15:8, RO (R186). -/
def RPL_STATUS_ALIGN (l : Lane) : RF := ⟨RPL_STATUS l, 8, 8⟩
/-- RPL_STATUS.HOLDS, bits 7:0, RC (R186). -/
def RPL_STATUS_HOLDS (l : Lane) : RF := ⟨RPL_STATUS l, 0, 8⟩
/-- STRIPE_CTRL (R189). -/
def STRIPE_CTRL (l : Lane) : Nat := l.base + 0x70
/-- STRIPE_CTRL.START, bits 31:31, WO (R189). -/
def STRIPE_CTRL_START (l : Lane) : RF := ⟨STRIPE_CTRL l, 31, 1⟩
/-- STRIPE_CTRL.MODE, bits 30:30, RW (R189). -/
def STRIPE_CTRL_MODE (l : Lane) : RF := ⟨STRIPE_CTRL l, 30, 1⟩
/-- STRIPE_CTRL.DATA, bits 8:0, RW (R189). -/
def STRIPE_CTRL_DATA (l : Lane) : RF := ⟨STRIPE_CTRL l, 0, 9⟩
/-- STRIPE_STATUS (R189). -/
def STRIPE_STATUS (l : Lane) : Nat := l.base + 0x74
/-- STRIPE_STATUS.BUSY, bits 31:31, RO (R189). -/
def STRIPE_STATUS_BUSY (l : Lane) : RF := ⟨STRIPE_STATUS l, 31, 1⟩
/-- STRIPE_STATUS.DONE, bits 30:30, RO (R189). -/
def STRIPE_STATUS_DONE (l : Lane) : RF := ⟨STRIPE_STATUS l, 30, 1⟩
/-- STRIPE_STATUS.FAIL, bits 29:29, RO (R189). -/
def STRIPE_STATUS_FAIL (l : Lane) : RF := ⟨STRIPE_STATUS l, 29, 1⟩
/-- STRIPE_STATUS.ERASED, bits 8:0, RO (R189). -/
def STRIPE_STATUS_ERASED (l : Lane) : RF := ⟨STRIPE_STATUS l, 0, 9⟩
/-- RETRY (R186). -/
def RETRY (l : Lane) (i : Nat) : Nat := l.base + 0x80 + 4 * i
/-- RETRY.OFFTRK, bits 31:24, RW (R186). -/
def RETRY_OFFTRK (l : Lane) (i : Nat) : RF := ⟨RETRY l i, 24, 8⟩
/-- RETRY.HEAT, bits 23:16, RW (R186). -/
def RETRY_HEAT (l : Lane) (i : Nat) : RF := ⟨RETRY l i, 16, 8⟩
/-- RETRY.WIN, bits 13:8, RW (R186). -/
def RETRY_WIN (l : Lane) (i : Nat) : RF := ⟨RETRY l i, 8, 6⟩
/-- RETRY.ALT, bits 7:7, RW (R186). -/
def RETRY_ALT (l : Lane) (i : Nat) : RF := ⟨RETRY l i, 7, 1⟩
/-- EQ_TAP (R171). -/
def EQ_TAP (l : Lane) (i : Nat) : Nat := l.base + 0x100 + 4 * i
/-- EQ_TAP.TAP, bits 15:0, RW (R171). -/
def EQ_TAP_TAP (l : Lane) (i : Nat) : RF := ⟨EQ_TAP l i, 0, 16⟩
/-- ADC_SEL (R166). -/
def ADC_SEL (l : Lane) (i : Nat) : Nat := l.base + 0x200 + 4 * i
/-- ADC_SEL.SEL, bits 31:0, RW (R166). -/
def ADC_SEL_SEL (l : Lane) (i : Nat) : RF := ⟨ADC_SEL l i, 0, 32⟩

/-- Rows of the read channel of a lane (Ln_), part 0. -/
def chRows0 : List Row :=
  [ { off := 0x0, rw := 0xD, wo := 0x80000000 },
    { off := 0x4 },
    { off := 0x8, w1c := 0xFFF },
    { off := 0xC, rw := 0xFFF },
    { off := 0x10, rw := 0xF003F, wo := 0x80000000 },
    { off := 0x14, rw := 0xFFFFFFFF },
    { off := 0x18, rw := 0xFFFFFFFF },
    { off := 0x1C, rw := 0xFFFFFFFF },
    { off := 0x20, reset := 0x1E0, rw := 0x83FF },
    { off := 0x24, rw := 0x3FF },
    { off := 0x28, rw := 0x3FF },
    { off := 0x2C, reset := 0x4000, rw := 0xFF7F },
    { off := 0x30, rc := 0xFF0000 },
    { off := 0x34, reset := 0xE3333333, rw := 0xFFFFFFFF },
    { off := 0x38, reset := 0x4A0040, rw := 0xFF00FF },
    { off := 0x3C },
    { off := 0x40, reset := 0x800C0008, rw := 0x80FF001F },
    { off := 0x44, rw := 0xFFFFFFFF },
    { off := 0x48, rw := 0xFF },
    { off := 0x4C, reset := 0x1020, rw := 0x77FF },
    { off := 0x50, reset := 0x1003, rw := 0x3F07 },
    { off := 0x54, count := 3 },
    { off := 0x60, reset := 0xC281200, rw := 0x3F3F3F00 },
    { off := 0x64 },
    { off := 0x68, reset := 0x28, rw := 0x3F } ]
/-- Rows of the read channel of a lane (Ln_), part 1. -/
def chRows1 : List Row :=
  [ { off := 0x6C, rc := 0xFF },
    { off := 0x70, reset := 0x100, rw := 0x400001FF, wo := 0x80000000 },
    { off := 0x74 },
    { off := 0x80, count := 16, rw := 0xFFFF3F80 },
    { off := 0x100, count := 24, rw := 0xFFFF },
    { off := 0x200, count := 64, rw := 0xFFFFFFFF } ]
/-- All rows of the read channel of a lane (Ln_). -/
def chRows : List Row := chRows0 ++ chRows1

/-! ### the Eltik link of a lane -/

/-- ELK_CTRL (R199). -/
def ELK_CTRL (l : Lane) : Nat := l.base + 0x10000
/-- ELK_CTRL.RETRAIN, bits 31:31, WO (R199). -/
def ELK_CTRL_RETRAIN (l : Lane) : RF := ⟨ELK_CTRL l, 31, 1⟩
/-- ELK_STATUS (R199). -/
def ELK_STATUS (l : Lane) : Nat := l.base + 0x10004
/-- ELK_STATUS.UP, bits 31:31, RO (R199). -/
def ELK_STATUS_UP (l : Lane) : RF := ⟨ELK_STATUS l, 31, 1⟩
/-- ELK_STATUS.PAR_CNT, bits 23:16, RC (R199). -/
def ELK_STATUS_PAR_CNT (l : Lane) : RF := ⟨ELK_STATUS l, 16, 8⟩
/-- ELK_STATUS.DOWN_CNT, bits 15:8, RC (R199). -/
def ELK_STATUS_DOWN_CNT (l : Lane) : RF := ⟨ELK_STATUS l, 8, 8⟩

/-- Rows of the Eltik link of a lane, part 0. -/
def elkRows0 : List Row :=
  [ { off := 0x10000, wo := 0x80000000 },
    { off := 0x10004, rc := 0xFFFF00 } ]
/-- All rows of the Eltik link of a lane. -/
def elkRows : List Row := elkRows0

/-! ### the duplex block (LN0 only) -/

/-- DX_CTRL (R216). -/
def DX_CTRL : Nat := 0xF0100000 + 0x10010
/-- DX_CTRL.FORCE, bits 9:8, RW (R216). -/
def DX_CTRL_FORCE : RF := ⟨DX_CTRL, 8, 2⟩
/-- DX_CTRL.AUTOFB, bits 2:2, RW (R216). -/
def DX_CTRL_AUTOFB : RF := ⟨DX_CTRL, 2, 1⟩
/-- DX_CTRL.TRACK, bits 1:1, RW (R216). -/
def DX_CTRL_TRACK : RF := ⟨DX_CTRL, 1, 1⟩
/-- DX_STATUS (R216). -/
def DX_STATUS : Nat := 0xF0100000 + 0x10014
/-- DX_STATUS.LINK, bits 31:31, RO (R216). -/
def DX_STATUS_LINK : RF := ⟨DX_STATUS, 31, 1⟩
/-- DX_STATUS.MODE, bits 30:29, RO (R216). -/
def DX_STATUS_MODE : RF := ⟨DX_STATUS, 29, 2⟩
/-- DX_STATUS.SRV, bits 28:28, RO (R216). -/
def DX_STATUS_SRV : RF := ⟨DX_STATUS, 28, 1⟩
/-- DX_STATUS.FB, bits 27:27, RO (R216). -/
def DX_STATUS_FB : RF := ⟨DX_STATUS, 27, 1⟩
/-- DX_STATUS.BOTH, bits 26:26, RO (R216). -/
def DX_STATUS_BOTH : RF := ⟨DX_STATUS, 26, 1⟩
/-- DX_STATUS.SLOTS, bits 18:16, RO (R216). -/
def DX_STATUS_SLOTS : RF := ⟨DX_STATUS, 16, 3⟩
/-- DX_DESKEW (R201). -/
def DX_DESKEW : Nat := 0xF0100000 + 0x10018
/-- DX_DESKEW.DIR, bits 31:31, RW (R201). -/
def DX_DESKEW_DIR : RF := ⟨DX_DESKEW, 31, 1⟩
/-- DX_DESKEW.COARSE, bits 24:16, RW (R201). -/
def DX_DESKEW_COARSE : RF := ⟨DX_DESKEW, 16, 9⟩
/-- DX_DESKEW.FINECUR, bits 13:8, RO (R201). -/
def DX_DESKEW_FINECUR : RF := ⟨DX_DESKEW, 8, 6⟩
/-- DX_DESKEW.FINE, bits 5:0, RW (R201). -/
def DX_DESKEW_FINE : RF := ⟨DX_DESKEW, 0, 6⟩
/-- DX_ADT_BASE (R216). -/
def DX_ADT_BASE : Nat := 0xF0100000 + 0x1001C
/-- DX_ADT_BASE.ADDR, bits 31:0, RW (R216). -/
def DX_ADT_BASE_ADDR : RF := ⟨DX_ADT_BASE, 0, 32⟩
/-- DX_CNT_BASE (R216). -/
def DX_CNT_BASE : Nat := 0xF0100000 + 0x10020
/-- DX_CNT_BASE.ADDR, bits 31:0, RW (R216). -/
def DX_CNT_BASE_ADDR : RF := ⟨DX_CNT_BASE, 0, 32⟩
/-- DX_INT (R217). -/
def DX_INT : Nat := 0xF0100000 + 0x10024
/-- DX_INT.VFY_MISS, bits 6:6, W1C (R217). -/
def DX_INT_VFY_MISS : RF := ⟨DX_INT, 6, 1⟩
/-- DX_INT.VFY_LOST, bits 5:5, W1C (R217). -/
def DX_INT_VFY_LOST : RF := ⟨DX_INT, 5, 1⟩
/-- DX_INT.SRV_SUB, bits 4:4, W1C (R217). -/
def DX_INT_SRV_SUB : RF := ⟨DX_INT, 4, 1⟩
/-- DX_INT.TRACK_LIM, bits 3:3, W1C (R217). -/
def DX_INT_TRACK_LIM : RF := ⟨DX_INT, 3, 1⟩
/-- DX_INT.FALLBACK, bits 2:2, W1C (R217). -/
def DX_INT_FALLBACK : RF := ⟨DX_INT, 2, 1⟩
/-- DX_INT.LINK_PAR, bits 1:1, W1C (R217). -/
def DX_INT_LINK_PAR : RF := ⟨DX_INT, 1, 1⟩
/-- DX_INT.LINK_DOWN, bits 0:0, W1C (R217). -/
def DX_INT_LINK_DOWN : RF := ⟨DX_INT, 0, 1⟩
/-- DX_INTEN (R217). -/
def DX_INTEN : Nat := 0xF0100000 + 0x10028
/-- DX_TAPB (R203). -/
def DX_TAPB (i : Nat) : Nat := 0xF0100000 + 0x10100 + 4 * i
/-- DX_TAPB.TAP, bits 15:0, RW (R203). -/
def DX_TAPB_TAP (i : Nat) : RF := ⟨DX_TAPB i, 0, 16⟩

/-- Rows of the duplex block (LN0 only), part 0. -/
def dxRows0 : List Row :=
  [ { off := 0x10010, reset := 0x6, rw := 0x306 },
    { off := 0x10014 },
    { off := 0x10018, rw := 0x81FF003F },
    { off := 0x1001C, rw := 0xFFFFFFFF },
    { off := 0x10020, rw := 0xFFFFFFFF },
    { off := 0x10024, w1c := 0x7F },
    { off := 0x10028, rw := 0x7F },
    { off := 0x10100, count := 24, rw := 0xFFFF } ]
/-- All rows of the duplex block (LN0 only). -/
def dxRows : List Row := dxRows0

/-! ### the verify block (LN1 only) -/

/-- VFY_STATUS (R212). -/
def VFY_STATUS : Nat := 0xF0200000 + 0x10030
/-- VFY_STATUS.ACTIVE, bits 31:31, RO (R212). -/
def VFY_STATUS_ACTIVE : RF := ⟨VFY_STATUS, 31, 1⟩
/-- VFY_STATUS.PASS, bits 30:30, RO (R212). -/
def VFY_STATUS_PASS : RF := ⟨VFY_STATUS, 30, 1⟩
/-- VFY_STATUS.ITER, bits 29:24, RO (R212). -/
def VFY_STATUS_ITER : RF := ⟨VFY_STATUS, 24, 6⟩
/-- VFY_STATUS.MISSES, bits 15:0, RC (R212). -/
def VFY_STATUS_MISSES : RF := ⟨VFY_STATUS, 0, 16⟩

/-- Rows of the verify block (LN1 only), part 0. -/
def vfyRows0 : List Row :=
  [ { off := 0x10030, rc := 0xFFFF } ]
/-- All rows of the verify block (LN1 only). -/
def vfyRows : List Row := vfyRows0

/-! ### the write path of a lane -/

/-- WR_CTRL (R241). -/
def WR_CTRL (l : Lane) : Nat := l.base + 0x20000
/-- WR_CTRL.EN, bits 0:0, RW (R241). -/
def WR_CTRL_EN (l : Lane) : RF := ⟨WR_CTRL l, 0, 1⟩
/-- WR_STATUS (R241). -/
def WR_STATUS (l : Lane) : Nat := l.base + 0x20004
/-- WR_STATUS.GATE, bits 31:31, RO (R241). -/
def WR_STATUS_GATE (l : Lane) : RF := ⟨WR_STATUS l, 31, 1⟩
/-- WR_STATUS.INH, bits 30:30, RO (R241). -/
def WR_STATUS_INH (l : Lane) : RF := ⟨WR_STATUS l, 30, 1⟩
/-- WR_STATUS.ASTATE, bits 29:28, RO (R241). -/
def WR_STATUS_ASTATE (l : Lane) : RF := ⟨WR_STATUS l, 28, 2⟩
/-- WSEL (R241). -/
def WSEL (l : Lane) : Nat := l.base + 0x20008
/-- WSEL.LOAD, bits 31:31, WO (R241). -/
def WSEL_LOAD (l : Lane) : RF := ⟨WSEL l, 31, 1⟩
/-- WSEL.LOADED, bits 30:30, RO (R241). -/
def WSEL_LOADED (l : Lane) : RF := ⟨WSEL l, 30, 1⟩
/-- WSEL.BAD, bits 29:29, RO (R241). -/
def WSEL_BAD (l : Lane) : RF := ⟨WSEL l, 29, 1⟩
/-- WSEL.HEAD, bits 19:16, RW (R241). -/
def WSEL_HEAD (l : Lane) : RF := ⟨WSEL l, 16, 4⟩
/-- WSEL.ZONE, bits 5:0, RW (R241). -/
def WSEL_ZONE (l : Lane) : RF := ⟨WSEL l, 0, 6⟩
/-- WADT_BASE (R241). -/
def WADT_BASE (l : Lane) : Nat := l.base + 0x2000C
/-- WADT_BASE.ADDR, bits 31:0, RW (R241). -/
def WADT_BASE_ADDR (l : Lane) : RF := ⟨WADT_BASE l, 0, 32⟩
/-- WDRIFT_BASE (R241). -/
def WDRIFT_BASE (l : Lane) : Nat := l.base + 0x20010
/-- WDRIFT_BASE.ADDR, bits 31:0, RW (R241). -/
def WDRIFT_BASE_ADDR (l : Lane) : RF := ⟨WDRIFT_BASE l, 0, 32⟩
/-- AST_LEVEL (R241). -/
def AST_LEVEL (l : Lane) : Nat := l.base + 0x20014
/-- AST_LEVEL.CLIP, bits 31:31, RO (R241). -/
def AST_LEVEL_CLIP (l : Lane) : RF := ⟨AST_LEVEL l, 31, 1⟩
/-- AST_LEVEL.PB, bits 25:16, RO (R241). -/
def AST_LEVEL_PB (l : Lane) : RF := ⟨AST_LEVEL l, 16, 10⟩
/-- AST_LEVEL.OPLV, bits 9:0, RO (R241). -/
def AST_LEVEL_OPLV (l : Lane) : RF := ⟨AST_LEVEL l, 0, 10⟩
/-- AST_MAX (R241). -/
def AST_MAX (l : Lane) : Nat := l.base + 0x20018
/-- AST_MAX.MAX, bits 9:0, RW (R241). -/
def AST_MAX_MAX (l : Lane) : RF := ⟨AST_MAX l, 0, 10⟩
/-- WG_INH (R241). -/
def WG_INH (l : Lane) : Nat := l.base + 0x2001C
/-- WG_INH.SWINH, bits 31:31, RW (R241). -/
def WG_INH_SWINH (l : Lane) : RF := ⟨WG_INH l, 31, 1⟩
/-- WG_INH.RETRACT, bits 4:4, W1C (R241). -/
def WG_INH_RETRACT (l : Lane) : RF := ⟨WG_INH l, 4, 1⟩
/-- WG_INH.PREAMP, bits 3:3, W1C (R241). -/
def WG_INH_PREAMP (l : Lane) : RF := ⟨WG_INH l, 3, 1⟩
/-- WG_INH.SHOCK, bits 2:2, W1C (R241). -/
def WG_INH_SHOCK (l : Lane) : RF := ⟨WG_INH l, 2, 1⟩
/-- WG_INH.PES, bits 1:1, W1C (R241). -/
def WG_INH_PES (l : Lane) : RF := ⟨WG_INH l, 1, 1⟩
/-- WG_INH.ACTIVE, bits 0:0, RO (R241). -/
def WG_INH_ACTIVE (l : Lane) : RF := ⟨WG_INH l, 0, 1⟩
/-- WR_HDIS (R241). -/
def WR_HDIS (l : Lane) : Nat := l.base + 0x20020
/-- WR_HDIS.HEADS, bits 15:0, RW (R241). -/
def WR_HDIS_HEADS (l : Lane) : RF := ⟨WR_HDIS l, 0, 16⟩
/-- WR_INT (R241). -/
def WR_INT (l : Lane) : Nat := l.base + 0x20024
/-- WR_INT.SHOCK_INH, bits 5:5, W1C (R241). -/
def WR_INT_SHOCK_INH (l : Lane) : RF := ⟨WR_INT l, 5, 1⟩
/-- WR_INT.PES_INH, bits 4:4, W1C (R241). -/
def WR_INT_PES_INH (l : Lane) : RF := ⟨WR_INT l, 4, 1⟩
/-- WR_INT.ASSIST_FAULT, bits 3:3, W1C (R241). -/
def WR_INT_ASSIST_FAULT (l : Lane) : RF := ⟨WR_INT l, 3, 1⟩
/-- WR_INT.WRITER_FAULT, bits 2:2, W1C (R241). -/
def WR_INT_WRITER_FAULT (l : Lane) : RF := ⟨WR_INT l, 2, 1⟩
/-- WR_INT.TBL_BAD, bits 1:1, W1C (R241). -/
def WR_INT_TBL_BAD (l : Lane) : RF := ⟨WR_INT l, 1, 1⟩
/-- WR_INT.PAGE_FAULT, bits 0:0, W1C (R241). -/
def WR_INT_PAGE_FAULT (l : Lane) : RF := ⟨WR_INT l, 0, 1⟩
/-- WR_INTEN (R241). -/
def WR_INTEN (l : Lane) : Nat := l.base + 0x20028

/-- Rows of the write path of a lane, part 0. -/
def wrpRows0 : List Row :=
  [ { off := 0x20000, rw := 0x1 },
    { off := 0x20004 },
    { off := 0x20008, rw := 0xF003F, wo := 0x80000000 },
    { off := 0x2000C, rw := 0xFFFFFFFF },
    { off := 0x20010, rw := 0xFFFFFFFF },
    { off := 0x20014 },
    { off := 0x20018, reset := 0x200, rw := 0x3FF },
    { off := 0x2001C, rw := 0x80000000, w1c := 0x1E },
    { off := 0x20020, rw := 0xFFFF },
    { off := 0x20024, w1c := 0x3F },
    { off := 0x20028, rw := 0x3F } ]
/-- All rows of the write path of a lane. -/
def wrpRows : List Row := wrpRows0

/-! ### the preamp bridge of a lane -/

/-- PA_CTRL (R241). -/
def PA_CTRL (l : Lane) : Nat := l.base + 0x50000
/-- PA_CTRL.PROFILE, bits 11:8, RO (R241). -/
def PA_CTRL_PROFILE (l : Lane) : RF := ⟨PA_CTRL l, 8, 4⟩
/-- PA_CTRL.EN, bits 0:0, RW (R241). -/
def PA_CTRL_EN (l : Lane) : RF := ⟨PA_CTRL l, 0, 1⟩
/-- PA_STATUS (R241). -/
def PA_STATUS (l : Lane) : Nat := l.base + 0x50004
/-- PA_STATUS.LINK, bits 31:31, RO (R241). -/
def PA_STATUS_LINK (l : Lane) : RF := ⟨PA_STATUS l, 31, 1⟩
/-- PA_STATUS.REFUSED, bits 30:30, RO (R241). -/
def PA_STATUS_REFUSED (l : Lane) : RF := ⟨PA_STATUS l, 30, 1⟩
/-- PA_STATUS.HCLIP, bits 29:29, W1C (R241). -/
def PA_STATUS_HCLIP (l : Lane) : RF := ⟨PA_STATUS l, 29, 1⟩
/-- PA_STATUS.LINKERR, bits 23:16, RC (R241). -/
def PA_STATUS_LINKERR (l : Lane) : RF := ⟨PA_STATUS l, 16, 8⟩
/-- PA_STATUS.FAULT, bits 7:0, RO (R241). -/
def PA_STATUS_FAULT (l : Lane) : RF := ⟨PA_STATUS l, 0, 8⟩
/-- PA_CMD (R241). -/
def PA_CMD (l : Lane) : Nat := l.base + 0x50008
/-- PA_CMD.GO, bits 31:31, W1S (R241). -/
def PA_CMD_GO (l : Lane) : RF := ⟨PA_CMD l, 31, 1⟩
/-- PA_CMD.RD, bits 30:30, RW (R241). -/
def PA_CMD_RD (l : Lane) : RF := ⟨PA_CMD l, 30, 1⟩
/-- PA_CMD.REFUSED, bits 29:29, RO (R241). -/
def PA_CMD_REFUSED (l : Lane) : RF := ⟨PA_CMD l, 29, 1⟩
/-- PA_CMD.ADDR, bits 22:16, RW (R241). -/
def PA_CMD_ADDR (l : Lane) : RF := ⟨PA_CMD l, 16, 7⟩
/-- PA_CMD.DATA, bits 15:0, RW (R241). -/
def PA_CMD_DATA (l : Lane) : RF := ⟨PA_CMD l, 0, 16⟩
/-- PA_SENSLIM (R241). -/
def PA_SENSLIM (l : Lane) : Nat := l.base + 0x5000C
/-- PA_SENSLIM.MAX, bits 27:16, RW (R241). -/
def PA_SENSLIM_MAX (l : Lane) : RF := ⟨PA_SENSLIM l, 16, 12⟩
/-- PA_SENSLIM.MIN, bits 11:0, RW (R241). -/
def PA_SENSLIM_MIN (l : Lane) : RF := ⟨PA_SENSLIM l, 0, 12⟩
/-- PA_HTRMAX (R241). -/
def PA_HTRMAX (l : Lane) : Nat := l.base + 0x50010
/-- PA_HTRMAX.MAX, bits 10:0, RW (R241). -/
def PA_HTRMAX_MAX (l : Lane) : RF := ⟨PA_HTRMAX l, 0, 11⟩
/-- PA_MAP (R241). -/
def PA_MAP (l : Lane) (i : Nat) : Nat := l.base + 0x50040 + 4 * i
/-- PA_MAP.VALID, bits 31:31, RW (R241). -/
def PA_MAP_VALID (l : Lane) (i : Nat) : RF := ⟨PA_MAP l i, 31, 1⟩
/-- PA_MAP.ADDR, bits 6:0, RW (R241). -/
def PA_MAP_ADDR (l : Lane) (i : Nat) : RF := ⟨PA_MAP l i, 0, 7⟩

/-- Rows of the preamp bridge of a lane, part 0. -/
def paRows0 : List Row :=
  [ { off := 0x50000, rw := 0x1 },
    { off := 0x50004, w1c := 0x20000000, rc := 0xFF0000 },
    { off := 0x50008, rw := 0x407FFFFF, w1s := 0x80000000 },
    { off := 0x5000C, reset := 0xFFF0000, rw := 0xFFF0FFF },
    { off := 0x50010, reset := 0x3E8, rw := 0x7FF },
    { off := 0x50040, count := 9, rw := 0x8000007F } ]
/-- All rows of the preamp bridge of a lane. -/
def paRows : List Row := paRows0

/-! ### a balance engine (BE_) -/

/-- BE_CTRL (R269). -/
def BE_CTRL (e : BEng) : Nat := e.base + 0x30000
/-- BE_CTRL.SWAP, bits 31:31, W1S (R269). -/
def BE_CTRL_SWAP (e : BEng) : RF := ⟨BE_CTRL e, 31, 1⟩
/-- BE_CTRL.RUN, bits 0:0, RW (R269). -/
def BE_CTRL_RUN (e : BEng) : RF := ⟨BE_CTRL e, 0, 1⟩
/-- BE_STATUS (R269). -/
def BE_STATUS (e : BEng) : Nat := e.base + 0x30004
/-- BE_STATUS.BANK, bits 31:31, RO (R269). -/
def BE_STATUS_BANK (e : BEng) : RF := ⟨BE_STATUS e, 31, 1⟩
/-- BE_STATUS.XSTALE, bits 30:30, RO (R269). -/
def BE_STATUS_XSTALE (e : BEng) : RF := ⟨BE_STATUS e, 30, 1⟩
/-- BE_STATUS.LATE, bits 29:29, W1C (R269). -/
def BE_STATUS_LATE (e : BEng) : RF := ⟨BE_STATUS e, 29, 1⟩
/-- BE_STATUS.SLOT3, bits 28:28, RO (R269). -/
def BE_STATUS_SLOT3 (e : BEng) : RF := ⟨BE_STATUS e, 28, 1⟩
/-- BE_STATUS.OVFSLOT, bits 27:24, W1C (R269). -/
def BE_STATUS_OVFSLOT (e : BEng) : RF := ⟨BE_STATUS e, 24, 4⟩
/-- BE_STATUS.CHECK, bits 23:16, RO (R269). -/
def BE_STATUS_CHECK (e : BEng) : RF := ⟨BE_STATUS e, 16, 8⟩
/-- BE_STATUS.PASSED, bits 15:15, RO (R269). -/
def BE_STATUS_PASSED (e : BEng) : RF := ⟨BE_STATUS e, 15, 1⟩
/-- BE_STATUS.CYCLES, bits 10:0, RO (R269). -/
def BE_STATUS_CYCLES (e : BEng) : RF := ⟨BE_STATUS e, 0, 11⟩
/-- BE_INT (R269). -/
def BE_INT (e : BEng) : Nat := e.base + 0x30008
/-- BE_INT.PARITY, bits 4:4, W1C (R269). -/
def BE_INT_PARITY (e : BEng) : RF := ⟨BE_INT e, 4, 1⟩
/-- BE_INT.SWAPERR, bits 3:3, W1C (R269). -/
def BE_INT_SWAPERR (e : BEng) : RF := ⟨BE_INT e, 3, 1⟩
/-- BE_INT.SWAPDONE, bits 2:2, W1C (R269). -/
def BE_INT_SWAPDONE (e : BEng) : RF := ⟨BE_INT e, 2, 1⟩
/-- BE_INT.XSTALE, bits 1:1, W1C (R269). -/
def BE_INT_XSTALE (e : BEng) : RF := ⟨BE_INT e, 1, 1⟩
/-- BE_INT.OVF, bits 0:0, W1C (R269). -/
def BE_INT_OVF (e : BEng) : RF := ⟨BE_INT e, 0, 1⟩
/-- BE_INTEN (R269). -/
def BE_INTEN (e : BEng) : Nat := e.base + 0x3000C
/-- BE_XK (R269). -/
def BE_XK (e : BEng) : Nat := e.base + 0x30010
/-- BE_XK.XK, bits 31:0, RW (R269). -/
def BE_XK_XK (e : BEng) : RF := ⟨BE_XK e, 0, 32⟩
/-- BE_XIN (R269). -/
def BE_XIN (e : BEng) : Nat := e.base + 0x30014
/-- BE_XIN.XIN, bits 31:0, RO (R269). -/
def BE_XIN_XIN (e : BEng) : RF := ⟨BE_XIN e, 0, 32⟩
/-- BE_SLOTV (R269). -/
def BE_SLOTV (e : BEng) : Nat := e.base + 0x30020
/-- BE_SLOTV.SLOTS, bits 3:0, RW (R269). -/
def BE_SLOTV_SLOTS (e : BEng) : RF := ⟨BE_SLOTV e, 0, 4⟩
/-- BE_OVF (R269). -/
def BE_OVF (e : BEng) (i : Nat) : Nat := e.base + 0x30080 + 4 * i
/-- BE_OVF.FLAGS, bits 31:0, W1C (R269). -/
def BE_OVF_FLAGS (e : BEng) (i : Nat) : RF := ⟨BE_OVF e i, 0, 32⟩
/-- BE_S (R269). -/
def BE_S (e : BEng) (i : Nat) : Nat := e.base + 0x30100 + 4 * i
/-- BE_S.S, bits 31:0, RW (R269). -/
def BE_S_S (e : BEng) (i : Nat) : RF := ⟨BE_S e i, 0, 32⟩
/-- BE_W (R269). -/
def BE_W (e : BEng) (i : Nat) : Nat := e.base + 0x30180 + 4 * i
/-- BE_W.W, bits 31:0, RO (R269). -/
def BE_W_W (e : BEng) (i : Nat) : RF := ⟨BE_W e i, 0, 32⟩
/-- BE_COEFA (R269). -/
def BE_COEFA (e : BEng) (i : Nat) : Nat := e.base + 0x31000 + 4 * i
/-- BE_COEFA.C, bits 31:0, RW (R269). -/
def BE_COEFA_C (e : BEng) (i : Nat) : RF := ⟨BE_COEFA e i, 0, 32⟩
/-- BE_COEFB (R269). -/
def BE_COEFB (e : BEng) (i : Nat) : Nat := e.base + 0x31800 + 4 * i
/-- BE_COEFB.C, bits 31:0, RW (R269). -/
def BE_COEFB_C (e : BEng) (i : Nat) : RF := ⟨BE_COEFB e i, 0, 32⟩
/-- BE_PROGA (R269). -/
def BE_PROGA (e : BEng) (i : Nat) : Nat := e.base + 0x34000 + 4 * i
/-- BE_PROGA.P, bits 31:0, RW (R269). -/
def BE_PROGA_P (e : BEng) (i : Nat) : RF := ⟨BE_PROGA e i, 0, 32⟩
/-- BE_PROGB (R269). -/
def BE_PROGB (e : BEng) (i : Nat) : Nat := e.base + 0x38000 + 4 * i
/-- BE_PROGB.P, bits 31:0, RW (R269). -/
def BE_PROGB_P (e : BEng) (i : Nat) : RF := ⟨BE_PROGB e i, 0, 32⟩

/-- Rows of a balance engine (BE_), part 0. -/
def beRows0 : List Row :=
  [ { off := 0x30000, rw := 0x1, w1s := 0x80000000 },
    { off := 0x30004, w1c := 0x2F000000 },
    { off := 0x30008, w1c := 0x1F },
    { off := 0x3000C, rw := 0x1F },
    { off := 0x30010, rw := 0xFFFFFFFF },
    { off := 0x30014 },
    { off := 0x30020, rw := 0xF },
    { off := 0x30080, count := 32, w1c := 0xFFFFFFFF },
    { off := 0x30100, count := 32, rw := 0xFFFFFFFF },
    { off := 0x30180, count := 8 },
    { off := 0x31000, count := 512, rw := 0xFFFFFFFF },
    { off := 0x31800, count := 512, rw := 0xFFFFFFFF },
    { off := 0x34000, count := 4096, rw := 0xFFFFFFFF },
    { off := 0x38000, count := 4096, rw := 0xFFFFFFFF } ]
/-- All rows of a balance engine (BE_). -/
def beRows : List Row := beRows0

/-! ### the servo of a lane (SV_, PS_) -/

/-- SV_CTRL (R269). -/
def SV_CTRL (l : Lane) : Nat := l.base + 0x3C000
/-- SV_CTRL.CMD, bits 30:28, WO (R269). -/
def SV_CTRL_CMD (l : Lane) : RF := ⟨SV_CTRL l, 28, 3⟩
/-- SV_CTRL.CAL, bits 1:1, RW (R269). -/
def SV_CTRL_CAL (l : Lane) : RF := ⟨SV_CTRL l, 1, 1⟩
/-- SV_CTRL.EN, bits 0:0, RW (R269). -/
def SV_CTRL_EN (l : Lane) : RF := ⟨SV_CTRL l, 0, 1⟩
/-- SV_STATUS (R269). -/
def SV_STATUS (l : Lane) : Nat := l.base + 0x3C004
/-- SV_STATUS.STATE, bits 31:28, RO (R269). -/
def SV_STATUS_STATE (l : Lane) : RF := ⟨SV_STATUS l, 28, 4⟩
/-- SV_STATUS.REFUSED, bits 27:27, W1C (R269). -/
def SV_STATUS_REFUSED (l : Lane) : RF := ⟨SV_STATUS l, 27, 1⟩
/-- SV_STATUS.ONTRK, bits 26:26, RO (R269). -/
def SV_STATUS_ONTRK (l : Lane) : RF := ⟨SV_STATUS l, 26, 1⟩
/-- SV_STATUS.INH, bits 25:25, RO (R269). -/
def SV_STATUS_INH (l : Lane) : RF := ⟨SV_STATUS l, 25, 1⟩
/-- SV_STATUS.HEAD, bits 23:20, RO (R269). -/
def SV_STATUS_HEAD (l : Lane) : RF := ⟨SV_STATUS l, 20, 4⟩
/-- SV_STATUS.MISS, bits 19:16, RO (R269). -/
def SV_STATUS_MISS (l : Lane) : RF := ⟨SV_STATUS l, 16, 4⟩
/-- SV_TARGET (R269). -/
def SV_TARGET (l : Lane) : Nat := l.base + 0x3C008
/-- SV_TARGET.HEAD, bits 31:28, RW (R269). -/
def SV_TARGET_HEAD (l : Lane) : RF := ⟨SV_TARGET l, 28, 4⟩
/-- SV_TARGET.TRACK, bits 23:0, RW (R269). -/
def SV_TARGET_TRACK (l : Lane) : RF := ⟨SV_TARGET l, 0, 24⟩
/-- SV_POS (R269). -/
def SV_POS (l : Lane) : Nat := l.base + 0x3C00C
/-- SV_POS.TRACK, bits 23:0, RO (R269). -/
def SV_POS_TRACK (l : Lane) : RF := ⟨SV_POS l, 0, 24⟩
/-- SV_PES (R269). -/
def SV_PES (l : Lane) : Nat := l.base + 0x3C010
/-- SV_PES.PES, bits 31:0, RO (R269). -/
def SV_PES_PES (l : Lane) : RF := ⟨SV_PES l, 0, 32⟩
/-- SV_PERIOD (R269). -/
def SV_PERIOD (l : Lane) : Nat := l.base + 0x3C014
/-- SV_PERIOD.PERIOD, bits 19:0, RO (R269). -/
def SV_PERIOD_PERIOD (l : Lane) : RF := ⟨SV_PERIOD l, 0, 20⟩
/-- SV_DEMOD (R269). -/
def SV_DEMOD (l : Lane) : Nat := l.base + 0x3C018
/-- SV_DEMOD.BMIN, bits 31:24, RW (R269). -/
def SV_DEMOD_BMIN (l : Lane) : RF := ⟨SV_DEMOD l, 24, 8⟩
/-- SV_DEMOD.TIDWIN, bits 23:16, RW (R269). -/
def SV_DEMOD_TIDWIN (l : Lane) : RF := ⟨SV_DEMOD l, 16, 8⟩
/-- SV_DEMOD.MISSMAX, bits 15:12, RW (R269). -/
def SV_DEMOD_MISSMAX (l : Lane) : RF := ⟨SV_DEMOD l, 12, 4⟩
/-- SV_DEMOD.SAMWIN, bits 7:0, RW (R269). -/
def SV_DEMOD_SAMWIN (l : Lane) : RF := ⟨SV_DEMOD l, 0, 8⟩
/-- SV_SVSTEP (R269). -/
def SV_SVSTEP (l : Lane) : Nat := l.base + 0x3C01C
/-- SV_SVSTEP.STEP, bits 31:0, RW (R269). -/
def SV_SVSTEP_STEP (l : Lane) : RF := ⟨SV_SVSTEP l, 0, 32⟩
/-- SV_ESC (R269). -/
def SV_ESC (l : Lane) : Nat := l.base + 0x3C020
/-- SV_ESC.ESEEK, bits 12:8, RW (R269). -/
def SV_ESC_ESEEK (l : Lane) : RF := ⟨SV_ESC l, 8, 5⟩
/-- SV_ESC.EFOLLOW, bits 4:0, RW (R269). -/
def SV_ESC_EFOLLOW (l : Lane) : RF := ⟨SV_ESC l, 0, 5⟩
/-- SV_SOFT (R269). -/
def SV_SOFT (l : Lane) : Nat := l.base + 0x3C024
/-- SV_SOFT.NSET, bits 31:24, RW (R269). -/
def SV_SOFT_NSET (l : Lane) : RF := ⟨SV_SOFT l, 24, 8⟩
/-- SV_SOFT.SETWIN, bits 23:12, RW (R269). -/
def SV_SOFT_SETWIN (l : Lane) : RF := ⟨SV_SOFT l, 12, 12⟩
/-- SV_SOFT.NSOFT, bits 8:0, RW (R269). -/
def SV_SOFT_NSOFT (l : Lane) : RF := ⟨SV_SOFT l, 0, 9⟩
/-- SV_SUP (R269). -/
def SV_SUP (l : Lane) : Nat := l.base + 0x3C028
/-- SV_SUP.KSUP, bits 31:16, RW (R269). -/
def SV_SUP_KSUP (l : Lane) : RF := ⟨SV_SUP l, 16, 16⟩
/-- SV_SUP.VMARG, bits 15:8, RW (R269). -/
def SV_SUP_VMARG (l : Lane) : RF := ⟨SV_SUP l, 8, 8⟩
/-- SV_ULIM (R269). -/
def SV_ULIM (l : Lane) : Nat := l.base + 0x3C02C
/-- SV_ULIM.ULIM, bits 31:16, RO (R269). -/
def SV_ULIM_ULIM (l : Lane) : RF := ⟨SV_ULIM l, 16, 16⟩
/-- SV_ULIM.ULMAX, bits 15:0, RW (R269). -/
def SV_ULIM_ULMAX (l : Lane) : RF := ⟨SV_ULIM l, 0, 16⟩
/-- SV_KAFF (R269). -/
def SV_KAFF (l : Lane) : Nat := l.base + 0x3C030
/-- SV_KAFF.KAFF, bits 31:0, RW (R269). -/
def SV_KAFF_KAFF (l : Lane) : RF := ⟨SV_KAFF l, 0, 32⟩
/-- SV_LOADV (R269). -/
def SV_LOADV (l : Lane) : Nat := l.base + 0x3C034
/-- SV_LOADV.LOADV, bits 31:16, RW (R269). -/
def SV_LOADV_LOADV (l : Lane) : RF := ⟨SV_LOADV l, 16, 16⟩
/-- SV_LOADV.UNLV, bits 15:0, RW (R269). -/
def SV_LOADV_UNLV (l : Lane) : RF := ⟨SV_LOADV l, 0, 16⟩
/-- SV_RVCM (R269). -/
def SV_RVCM (l : Lane) : Nat := l.base + 0x3C038
/-- SV_RVCM.RVCM, bits 31:0, RW (R269). -/
def SV_RVCM_RVCM (l : Lane) : RF := ⟨SV_RVCM l, 0, 32⟩
/-- SV_STOP (R269). -/
def SV_STOP (l : Lane) : Nat := l.base + 0x3C03C
/-- SV_STOP.STOP, bits 15:0, RW (R269). -/
def SV_STOP_STOP (l : Lane) : RF := ⟨SV_STOP l, 0, 16⟩
/-- SV_JERK (R269). -/
def SV_JERK (l : Lane) (i : Nat) : Nat := l.base + 0x3C040 + 8 * i
/-- SV_JERK.JERK, bits 31:0, RW (R269). -/
def SV_JERK_JERK (l : Lane) (i : Nat) : RF := ⟨SV_JERK l i, 0, 32⟩
/-- SV_COUNT (R269). -/
def SV_COUNT (l : Lane) (i : Nat) : Nat := l.base + 0x3C044 + 8 * i
/-- SV_COUNT.COUNT, bits 15:0, RW (R269). -/
def SV_COUNT_COUNT (l : Lane) (i : Nat) : RF := ⟨SV_COUNT l i, 0, 16⟩
/-- SV_INT (R269). -/
def SV_INT (l : Lane) : Nat := l.base + 0x3C080
/-- SV_INT.EMRET, bits 7:7, W1C (R269). -/
def SV_INT_EMRET (l : Lane) : RF := ⟨SV_INT l, 7, 1⟩
/-- SV_INT.PSFLAG, bits 6:6, W1C (R269). -/
def SV_INT_PSFLAG (l : Lane) : RF := ⟨SV_INT l, 6, 1⟩
/-- SV_INT.PSERR, bits 5:5, W1C (R269). -/
def SV_INT_PSERR (l : Lane) : RF := ⟨SV_INT l, 5, 1⟩
/-- SV_INT.LOST, bits 4:4, W1C (R269). -/
def SV_INT_LOST (l : Lane) : RF := ⟨SV_INT l, 4, 1⟩
/-- SV_INT.RECOVERED, bits 3:3, W1C (R269). -/
def SV_INT_RECOVERED (l : Lane) : RF := ⟨SV_INT l, 3, 1⟩
/-- SV_INT.ONTRACK, bits 2:2, W1C (R269). -/
def SV_INT_ONTRACK (l : Lane) : RF := ⟨SV_INT l, 2, 1⟩
/-- SV_INT.SEEKEND, bits 1:1, W1C (R269). -/
def SV_INT_SEEKEND (l : Lane) : RF := ⟨SV_INT l, 1, 1⟩
/-- SV_INT.STATE, bits 0:0, W1C (R269). -/
def SV_INT_STATE (l : Lane) : RF := ⟨SV_INT l, 0, 1⟩
/-- SV_INTEN (R269). -/
def SV_INTEN (l : Lane) : Nat := l.base + 0x3C084
/-- SV_TRACE0 (R269). -/
def SV_TRACE0 (l : Lane) : Nat := l.base + 0x3C088
/-- SV_TRACE0.T, bits 31:0, RO (R269). -/
def SV_TRACE0_T (l : Lane) : RF := ⟨SV_TRACE0 l, 0, 32⟩
/-- SV_TRACE1 (R269). -/
def SV_TRACE1 (l : Lane) : Nat := l.base + 0x3C08C
/-- SV_TRACE1.T, bits 31:0, RO (R269). -/
def SV_TRACE1_T (l : Lane) : RF := ⟨SV_TRACE1 l, 0, 32⟩
/-- PS_CTRL (R269). -/
def PS_CTRL (l : Lane) : Nat := l.base + 0x3C090
/-- PS_CTRL.EN, bits 0:0, RW (R269). -/
def PS_CTRL_EN (l : Lane) : RF := ⟨PS_CTRL l, 0, 1⟩
/-- PS_STATUS (R269). -/
def PS_STATUS (l : Lane) : Nat := l.base + 0x3C094
/-- PS_STATUS.UP, bits 31:31, RO (R269). -/
def PS_STATUS_UP (l : Lane) : RF := ⟨PS_STATUS l, 31, 1⟩
/-- PS_STATUS.FLAGS, bits 30:27, RO (R269). -/
def PS_STATUS_FLAGS (l : Lane) : RF := ⟨PS_STATUS l, 27, 4⟩
/-- PS_STATUS.ERRCNT, bits 23:16, RC (R269). -/
def PS_STATUS_ERRCNT (l : Lane) : RF := ⟨PS_STATUS l, 16, 8⟩
/-- PS_STATUS.ECAUSE, bits 3:0, RO (R269). -/
def PS_STATUS_ECAUSE (l : Lane) : RF := ⟨PS_STATUS l, 0, 4⟩
/-- PS_CFG (R269). -/
def PS_CFG (l : Lane) : Nat := l.base + 0x3C098
/-- PS_CFG.GO, bits 31:31, W1S (R269). -/
def PS_CFG_GO (l : Lane) : RF := ⟨PS_CFG l, 31, 1⟩
/-- PS_CFG.REFUSED, bits 30:30, RO (R269). -/
def PS_CFG_REFUSED (l : Lane) : RF := ⟨PS_CFG l, 30, 1⟩
/-- PS_CFG.ADDR, bits 23:16, RW (R269). -/
def PS_CFG_ADDR (l : Lane) : RF := ⟨PS_CFG l, 16, 8⟩
/-- PS_CFG.DATA, bits 15:0, RW (R269). -/
def PS_CFG_DATA (l : Lane) : RF := ⟨PS_CFG l, 0, 16⟩
/-- SV_WFT (R269). -/
def SV_WFT (l : Lane) (i : Nat) : Nat := l.base + 0x3C100 + 4 * i
/-- SV_WFT.WFT, bits 11:0, RW (R269). -/
def SV_WFT_WFT (l : Lane) (i : Nat) : RF := ⟨SV_WFT l i, 0, 12⟩
/-- SV_ROFF (R269). -/
def SV_ROFF (l : Lane) (i : Nat) : Nat := l.base + 0x3C200 + 4 * i
/-- SV_ROFF.ROFF, bits 15:0, RW (R269). -/
def SV_ROFF_ROFF (l : Lane) (i : Nat) : RF := ⟨SV_ROFF l i, 0, 16⟩
/-- SV_PGAIN (R269). -/
def SV_PGAIN (l : Lane) (i : Nat) : Nat := l.base + 0x3C240 + 4 * i
/-- SV_PGAIN.PGAIN, bits 31:0, RW (R269). -/
def SV_PGAIN_PGAIN (l : Lane) (i : Nat) : RF := ⟨SV_PGAIN l i, 0, 32⟩

/-- Rows of the servo of a lane (SV_, PS_), part 0. -/
def svRows0 : List Row :=
  [ { off := 0x3C000, rw := 0x3, wo := 0x70000000 },
    { off := 0x3C004, w1c := 0x8000000 },
    { off := 0x3C008, rw := 0xF0FFFFFF },
    { off := 0x3C00C },
    { off := 0x3C010 },
    { off := 0x3C014 },
    { off := 0x3C018, reset := 0x10084008, rw := 0xFFFFF0FF },
    { off := 0x3C01C, reset := 0x10000000, rw := 0xFFFFFFFF },
    { off := 0x3C020, reset := 0x1000, rw := 0x1F1F },
    { off := 0x3C024, reset := 0x8066020, rw := 0xFFFFF1FF },
    { off := 0x3C028, reset := 0x1002000, rw := 0xFFFFFF00 },
    { off := 0x3C02C, reset := 0x7000, rw := 0xFFFF },
    { off := 0x3C030, rw := 0xFFFFFFFF },
    { off := 0x3C034, rw := 0xFFFFFFFF },
    { off := 0x3C038, rw := 0xFFFFFFFF },
    { off := 0x3C03C, reset := 0x100, rw := 0xFFFF },
    { off := 0x3C040, count := 8, stride := 8, rw := 0xFFFFFFFF },
    { off := 0x3C044, count := 8, stride := 8, rw := 0xFFFF },
    { off := 0x3C080, w1c := 0xFF },
    { off := 0x3C084, rw := 0xFF },
    { off := 0x3C088 },
    { off := 0x3C08C },
    { off := 0x3C090, rw := 0x1 },
    { off := 0x3C094, rc := 0xFF0000 },
    { off := 0x3C098, rw := 0xFFFFFF, w1s := 0x80000000 } ]
/-- Rows of the servo of a lane (SV_, PS_), part 1. -/
def svRows1 : List Row :=
  [ { off := 0x3C100, count := 64, reset := 0xCD, rw := 0xFFF },
    { off := 0x3C200, count := 16, rw := 0xFFFF },
    { off := 0x3C240, count := 16, reset := 0x40000000, rw := 0xFFFFFFFF } ]
/-- All rows of the servo of a lane (SV_, PS_). -/
def svRows : List Row := svRows0 ++ svRows1

/-! ### an escapement sequencer (EC_) -/

/-- EC_CTRL (R330). -/
def EC_CTRL (q : SeqId) : Nat := q.base + 0x0
/-- EC_CTRL.ABORT, bits 31:31, W1S (R330). -/
def EC_CTRL_ABORT (q : SeqId) : RF := ⟨EC_CTRL q, 31, 1⟩
/-- EC_CTRL.RESTART, bits 30:30, WO (R330). -/
def EC_CTRL_RESTART (q : SeqId) : RF := ⟨EC_CTRL q, 30, 1⟩
/-- EC_CTRL.FLUSH, bits 29:29, WO (R330). -/
def EC_CTRL_FLUSH (q : SeqId) : RF := ⟨EC_CTRL q, 29, 1⟩
/-- EC_CTRL.EN, bits 0:0, RW (R330). -/
def EC_CTRL_EN (q : SeqId) : RF := ⟨EC_CTRL q, 0, 1⟩
/-- EC_STATUS (R330). -/
def EC_STATUS (q : SeqId) : Nat := q.base + 0x4
/-- EC_STATUS.RUN, bits 31:31, RO (R330). -/
def EC_STATUS_RUN (q : SeqId) : RF := ⟨EC_STATUS q, 31, 1⟩
/-- EC_STATUS.HALT, bits 30:30, RO (R330). -/
def EC_STATUS_HALT (q : SeqId) : RF := ⟨EC_STATUS q, 30, 1⟩
/-- EC_STATUS.PATCHED, bits 29:29, RO (R330). -/
def EC_STATUS_PATCHED (q : SeqId) : RF := ⟨EC_STATUS q, 29, 1⟩
/-- EC_STATUS.PATCHBAD, bits 28:28, RO (R330). -/
def EC_STATUS_PATCHBAD (q : SeqId) : RF := ⟨EC_STATUS q, 28, 1⟩
/-- EC_STATUS.PVEC, bits 27:27, RO (R330). -/
def EC_STATUS_PVEC (q : SeqId) : RF := ⟨EC_STATUS q, 27, 1⟩
/-- EC_STATUS.PATCHERR, bits 26:24, RO (R330). -/
def EC_STATUS_PATCHERR (q : SeqId) : RF := ⟨EC_STATUS q, 24, 3⟩
/-- EC_STATUS.TOKEN, bits 23:23, RO (R330). -/
def EC_STATUS_TOKEN (q : SeqId) : RF := ⟨EC_STATUS q, 23, 1⟩
/-- EC_STATUS.QUEUED, bits 22:20, RO (R330). -/
def EC_STATUS_QUEUED (q : SeqId) : RF := ⟨EC_STATUS q, 20, 3⟩
/-- EC_STATUS.CPLS, bits 19:16, RO (R330). -/
def EC_STATUS_CPLS (q : SeqId) : RF := ⟨EC_STATUS q, 16, 4⟩
/-- EC_STATUS.PC, bits 14:0, RO (R330). -/
def EC_STATUS_PC (q : SeqId) : RF := ⟨EC_STATUS q, 0, 15⟩
/-- EC_PROG (R330). -/
def EC_PROG (q : SeqId) : Nat := q.base + 0x8
/-- EC_PROG.PHASE, bits 31:28, RO (R330). -/
def EC_PROG_PHASE (q : SeqId) : RF := ⟨EC_PROG q, 28, 4⟩
/-- EC_PROG.DONE, bits 27:16, RO (R330). -/
def EC_PROG_DONE (q : SeqId) : RF := ⟨EC_PROG q, 16, 12⟩
/-- EC_PROG.REV, bits 15:8, RO (R330). -/
def EC_PROG_REV (q : SeqId) : RF := ⟨EC_PROG q, 8, 8⟩
/-- EC_STOP (R319). -/
def EC_STOP (q : SeqId) : Nat := q.base + 0xC
/-- EC_STOP.CAUSES, bits 5:0, RO (R319). -/
def EC_STOP_CAUSES (q : SeqId) : RF := ⟨EC_STOP q, 0, 6⟩
/-- EC_STOP.SRVLOST, bits 4:4, RO (R319). -/
def EC_STOP_SRVLOST (q : SeqId) : RF := ⟨EC_STOP q, 4, 1⟩
/-- EC_STOP.REVLIMIT, bits 5:5, RO (R319). -/
def EC_STOP_REVLIMIT (q : SeqId) : RF := ⟨EC_STOP q, 5, 1⟩
/-- EC_STOP.ASSIST, bits 3:3, RO (R319). -/
def EC_STOP_ASSIST (q : SeqId) : RF := ⟨EC_STOP q, 3, 1⟩
/-- EC_STOP.PAGE_FAULT, bits 2:2, RO (R319). -/
def EC_STOP_PAGE_FAULT (q : SeqId) : RF := ⟨EC_STOP q, 2, 1⟩
/-- EC_STOP.INHIBIT, bits 1:1, RO (R319). -/
def EC_STOP_INHIBIT (q : SeqId) : RF := ⟨EC_STOP q, 1, 1⟩
/-- EC_STOP.ABORT, bits 0:0, RO (R319). -/
def EC_STOP_ABORT (q : SeqId) : RF := ⟨EC_STOP q, 0, 1⟩
/-- EC_MCHK (R330). -/
def EC_MCHK (q : SeqId) : Nat := q.base + 0x10
/-- EC_MCHK.CAUSE, bits 31:28, RO (R330). -/
def EC_MCHK_CAUSE (q : SeqId) : RF := ⟨EC_MCHK q, 28, 4⟩
/-- EC_MCHK.ADDR, bits 14:0, RO (R330). -/
def EC_MCHK_ADDR (q : SeqId) : RF := ⟨EC_MCHK q, 0, 15⟩
/-- EC_ROMREV (R330). -/
def EC_ROMREV (q : SeqId) : Nat := q.base + 0x14
/-- EC_ROMREV.REV, bits 15:0, RO (R330). -/
def EC_ROMREV_REV (q : SeqId) : RF := ⟨EC_ROMREV q, 0, 16⟩
/-- EC_FRAME_BASE (R330). -/
def EC_FRAME_BASE (q : SeqId) : Nat := q.base + 0x18
/-- EC_FRAME_BASE.ADDR, bits 31:0, RW (R330). -/
def EC_FRAME_BASE_ADDR (q : SeqId) : RF := ⟨EC_FRAME_BASE q, 0, 32⟩
/-- EC_INT (R330). -/
def EC_INT (q : SeqId) : Nat := q.base + 0x20
/-- EC_INT.MCHK, bits 3:3, W1C (R330). -/
def EC_INT_MCHK (q : SeqId) : RF := ⟨EC_INT q, 3, 1⟩
/-- EC_INT.REFUSED, bits 2:2, W1C (R330). -/
def EC_INT_REFUSED (q : SeqId) : RF := ⟨EC_INT q, 2, 1⟩
/-- EC_INT.STOPPED, bits 1:1, W1C (R330). -/
def EC_INT_STOPPED (q : SeqId) : RF := ⟨EC_INT q, 1, 1⟩
/-- EC_INT.CPL, bits 0:0, W1C (R330). -/
def EC_INT_CPL (q : SeqId) : RF := ⟨EC_INT q, 0, 1⟩
/-- EC_INTEN (R330). -/
def EC_INTEN (q : SeqId) : Nat := q.base + 0x24
/-- EC_DESC (R330). -/
def EC_DESC (q : SeqId) (i : Nat) : Nat := q.base + 0x40 + 4 * i
/-- EC_DESC.D, bits 31:0, RW (R330). -/
def EC_DESC_D (q : SeqId) (i : Nat) : RF := ⟨EC_DESC q i, 0, 32⟩
/-- EC_POST (R330). -/
def EC_POST (q : SeqId) : Nat := q.base + 0x80
/-- EC_POST.GO, bits 31:31, W1S (R330). -/
def EC_POST_GO (q : SeqId) : RF := ⟨EC_POST q, 31, 1⟩
/-- EC_POST.REFUSED, bits 30:30, RO (R330). -/
def EC_POST_REFUSED (q : SeqId) : RF := ⟨EC_POST q, 30, 1⟩
/-- EC_POST.REASON, bits 27:24, RO (R330). -/
def EC_POST_REASON (q : SeqId) : RF := ⟨EC_POST q, 24, 4⟩
/-- EC_CPL (R330). -/
def EC_CPL (q : SeqId) (i : Nat) : Nat := q.base + 0x90 + 4 * i
/-- EC_CPL.W, bits 31:0, RO (R330). -/
def EC_CPL_W (q : SeqId) (i : Nat) : RF := ⟨EC_CPL q i, 0, 32⟩
/-- EC_TRAP (R330). -/
def EC_TRAP (q : SeqId) (i : Nat) : Nat := q.base + 0xC0 + 4 * i
/-- EC_TRAP.EN, bits 31:31, OP (R330). -/
def EC_TRAP_EN (q : SeqId) (i : Nat) : RF := ⟨EC_TRAP q i, 31, 1⟩
/-- EC_TRAP.ROM, bits 29:16, OP (R330). -/
def EC_TRAP_ROM (q : SeqId) (i : Nat) : RF := ⟨EC_TRAP q i, 16, 14⟩
/-- EC_TRAP.TARGET, bits 14:0, OP (R330). -/
def EC_TRAP_TARGET (q : SeqId) (i : Nat) : RF := ⟨EC_TRAP q i, 0, 15⟩
/-- EC_PATCH (R330). -/
def EC_PATCH (q : SeqId) (i : Nat) : Nat := q.base + 0x4000 + 4 * i
/-- EC_PATCH.W, bits 31:0, OP (R330). -/
def EC_PATCH_W (q : SeqId) (i : Nat) : RF := ⟨EC_PATCH q i, 0, 32⟩

/-- Rows of an escapement sequencer (EC_), part 0. -/
def ecRows0 : List Row :=
  [ { off := 0x0, rw := 0x1, w1s := 0x80000000, wo := 0x60000000 },
    { off := 0x4 },
    { off := 0x8 },
    { off := 0xC },
    { off := 0x10 },
    { off := 0x14, reset := 0x1 },
    { off := 0x18, rw := 0xFFFFFFFF },
    { off := 0x20, w1c := 0xF },
    { off := 0x24, rw := 0xF },
    { off := 0x40, count := 16, rw := 0xFFFFFFFF },
    { off := 0x80, w1s := 0x80000000 },
    { off := 0x90, count := 4 },
    { off := 0xC0, count := 8, op := 0xBFFF7FFF },
    { off := 0x4000, count := 4096, op := 0xFFFFFFFF } ]
/-- All rows of an escapement sequencer (EC_). -/
def ecRows : List Row := ecRows0

/-! ### the shared memory section (MS_) -/

/-- MS_STATUS (R353). -/
def MS_STATUS : Nat := 0xF0300000 + 0x0
/-- MS_STATUS.SRAMRDY, bits 31:31, RO (R353). -/
def MS_STATUS_SRAMRDY : RF := ⟨MS_STATUS, 31, 1⟩
/-- MS_STATUS.DRAMRDY, bits 30:30, RO (R353). -/
def MS_STATUS_DRAMRDY : RF := ⟨MS_STATUS, 30, 1⟩
/-- MS_STATUS.DRAMFAIL, bits 29:29, RO (R353). -/
def MS_STATUS_DRAMFAIL : RF := ⟨MS_STATUS, 29, 1⟩
/-- MS_STATUS.SIZE, bits 13:12, RO (R353). -/
def MS_STATUS_SIZE : RF := ⟨MS_STATUS, 12, 2⟩
/-- MS_STATUS.REGIONS, bits 6:0, RO (R353). -/
def MS_STATUS_REGIONS : RF := ⟨MS_STATUS, 0, 7⟩
/-- MS_INT (R353). -/
def MS_INT : Nat := 0xF0300000 + 0x8
/-- MS_INT.POOLWAIT, bits 5:5, W1C (R353). -/
def MS_INT_POOLWAIT : RF := ⟨MS_INT, 5, 1⟩
/-- MS_INT.PAGECHK, bits 4:4, W1C (R353). -/
def MS_INT_PAGECHK : RF := ⟨MS_INT, 4, 1⟩
/-- MS_INT.POISONWR, bits 3:3, W1C (R353). -/
def MS_INT_POISONWR : RF := ⟨MS_INT, 3, 1⟩
/-- MS_INT.DUE, bits 2:2, W1C (R353). -/
def MS_INT_DUE : RF := ⟨MS_INT, 2, 1⟩
/-- MS_INT.SUE, bits 1:1, W1C (R353). -/
def MS_INT_SUE : RF := ⟨MS_INT, 1, 1⟩
/-- MS_INT.CE, bits 0:0, W1C (R353). -/
def MS_INT_CE : RF := ⟨MS_INT, 0, 1⟩
/-- MS_INTEN (R353). -/
def MS_INTEN : Nat := 0xF0300000 + 0xC
/-- MS_ERRADDRL (R353). -/
def MS_ERRADDRL : Nat := 0xF0300000 + 0x10
/-- MS_ERRADDRL.ADDR, bits 31:0, RO (R353). -/
def MS_ERRADDRL_ADDR : RF := ⟨MS_ERRADDRL, 0, 32⟩
/-- MS_ERRADDRH (R353). -/
def MS_ERRADDRH : Nat := 0xF0300000 + 0x14
/-- MS_ERRADDRH.ADDR, bits 7:0, RO (R353). -/
def MS_ERRADDRH_ADDR : RF := ⟨MS_ERRADDRH, 0, 8⟩
/-- MS_ERRINFO (R353). -/
def MS_ERRINFO : Nat := 0xF0300000 + 0x18
/-- MS_ERRINFO.VALID, bits 31:31, W1C (R353). -/
def MS_ERRINFO_VALID : RF := ⟨MS_ERRINFO, 31, 1⟩
/-- MS_ERRINFO.KIND, bits 26:24, RO (R353). -/
def MS_ERRINFO_KIND : RF := ⟨MS_ERRINFO, 24, 3⟩
/-- MS_ERRINFO.SYND, bits 23:16, RO (R353). -/
def MS_ERRINFO_SYND : RF := ⟨MS_ERRINFO, 16, 8⟩
/-- MS_ERRINFO.SRC, bits 2:0, RO (R353). -/
def MS_ERRINFO_SRC : RF := ⟨MS_ERRINFO, 0, 3⟩
/-- MS_CECNT (R353). -/
def MS_CECNT : Nat := 0xF0300000 + 0x1C
/-- MS_CECNT.DRAM, bits 31:16, RC (R353). -/
def MS_CECNT_DRAM : RF := ⟨MS_CECNT, 16, 16⟩
/-- MS_CECNT.SRAM, bits 15:0, RC (R353). -/
def MS_CECNT_SRAM : RF := ⟨MS_CECNT, 0, 16⟩
/-- MS_SCRUB (R353). -/
def MS_SCRUB : Nat := 0xF0300000 + 0x20
/-- MS_SCRUB.EN, bits 31:31, RW (R353). -/
def MS_SCRUB_EN : RF := ⟨MS_SCRUB, 31, 1⟩
/-- MS_SCRUB.DPER, bits 15:8, RW (R353). -/
def MS_SCRUB_DPER : RF := ⟨MS_SCRUB, 8, 8⟩
/-- MS_SCRUB.SPER, bits 7:0, RW (R353). -/
def MS_SCRUB_SPER : RF := ⟨MS_SCRUB, 0, 8⟩
/-- MS_POOL_RES (R353). -/
def MS_POOL_RES (i : Nat) : Nat := 0xF0300000 + 0x30 + 4 * i
/-- MS_POOL_RES.RES, bits 12:0, RW (R353). -/
def MS_POOL_RES_RES (i : Nat) : RF := ⟨MS_POOL_RES i, 0, 13⟩
/-- MS_POOL_USE (R353). -/
def MS_POOL_USE (i : Nat) : Nat := 0xF0300000 + 0x40 + 4 * i
/-- MS_POOL_USE.WAIT, bits 22:16, RO (R353). -/
def MS_POOL_USE_WAIT (i : Nat) : RF := ⟨MS_POOL_USE i, 16, 7⟩
/-- MS_POOL_USE.USED, bits 12:0, RO (R353). -/
def MS_POOL_USE_USED (i : Nat) : RF := ⟨MS_POOL_USE i, 0, 13⟩
/-- MS_POOL_FREE (R353). -/
def MS_POOL_FREE : Nat := 0xF0300000 + 0x50
/-- MS_POOL_FREE.SHARED, bits 28:16, RO (R353). -/
def MS_POOL_FREE_SHARED : RF := ⟨MS_POOL_FREE, 16, 13⟩
/-- MS_POOL_FREE.FREE, bits 12:0, RO (R353). -/
def MS_POOL_FREE_FREE : RF := ⟨MS_POOL_FREE, 0, 13⟩

/-- Rows of the shared memory section (MS_), part 0. -/
def msRows0 : List Row :=
  [ { off := 0x0 },
    { off := 0x8, w1c := 0x3F },
    { off := 0xC, rw := 0x3F },
    { off := 0x10 },
    { off := 0x14 },
    { off := 0x18, w1c := 0x80000000 },
    { off := 0x1C, rc := 0xFFFFFFFF },
    { off := 0x20, reset := 0x80001801, rw := 0x8000FFFF },
    { off := 0x30, count := 4, rw := 0x1FFF },
    { off := 0x40, count := 4 },
    { off := 0x50 } ]
/-- All rows of the shared memory section (MS_). -/
def msRows : List Row := msRows0

/-! ### the media L2 of a lane (R354) -/

/-- MS_ML2_CTRL (R354). -/
def MS_ML2_CTRL (l : Lane) : Nat := l.ml2base + 0x0
/-- MS_ML2_CTRL.EN, bits 0:0, RW (R354). -/
def MS_ML2_CTRL_EN (l : Lane) : RF := ⟨MS_ML2_CTRL l, 0, 1⟩
/-- MS_ML2_STATUS (R354). -/
def MS_ML2_STATUS (l : Lane) : Nat := l.ml2base + 0x4
/-- MS_ML2_STATUS.STALE, bits 31:31, RO (R354). -/
def MS_ML2_STATUS_STALE (l : Lane) : RF := ⟨MS_ML2_STATUS l, 31, 1⟩
/-- MS_ML2_STATUS.VALIDCTX, bits 30:30, RO (R354). -/
def MS_ML2_STATUS_VALIDCTX (l : Lane) : RF := ⟨MS_ML2_STATUS l, 30, 1⟩
/-- MS_ML2_STATUS.PASS, bits 29:29, RO (R354). -/
def MS_ML2_STATUS_PASS (l : Lane) : RF := ⟨MS_ML2_STATUS l, 29, 1⟩
/-- MS_ML2_STATUS.CE_CNT, bits 23:16, RC (R354). -/
def MS_ML2_STATUS_CE_CNT (l : Lane) : RF := ⟨MS_ML2_STATUS l, 16, 8⟩
/-- MS_ML2_WAYDIS (R354). -/
def MS_ML2_WAYDIS (l : Lane) : Nat := l.ml2base + 0x8
/-- MS_ML2_WAYDIS.WAYS, bits 7:0, RO (R354). -/
def MS_ML2_WAYDIS_WAYS (l : Lane) : RF := ⟨MS_ML2_WAYDIS l, 0, 8⟩
/-- MS_ML2_INT (R354). -/
def MS_ML2_INT (l : Lane) : Nat := l.ml2base + 0xC
/-- MS_ML2_INT.STALE, bits 3:3, W1C (R354). -/
def MS_ML2_INT_STALE (l : Lane) : RF := ⟨MS_ML2_INT l, 3, 1⟩
/-- MS_ML2_INT.WAYOFF, bits 2:2, W1C (R354). -/
def MS_ML2_INT_WAYOFF (l : Lane) : RF := ⟨MS_ML2_INT l, 2, 1⟩
/-- MS_ML2_INT.TAGUE, bits 1:1, W1C (R354). -/
def MS_ML2_INT_TAGUE (l : Lane) : RF := ⟨MS_ML2_INT l, 1, 1⟩
/-- MS_ML2_INT.DATAUE, bits 0:0, W1C (R354). -/
def MS_ML2_INT_DATAUE (l : Lane) : RF := ⟨MS_ML2_INT l, 0, 1⟩
/-- MS_ML2_INTEN (R354). -/
def MS_ML2_INTEN (l : Lane) : Nat := l.ml2base + 0x10
/-- MS_ML2_MADDR (R354). -/
def MS_ML2_MADDR (l : Lane) (i : Nat) : Nat := l.ml2base + 0x20 + 8 * i
/-- MS_ML2_MADDR.ADDR, bits 31:0, RW (R354). -/
def MS_ML2_MADDR_ADDR (l : Lane) (i : Nat) : RF := ⟨MS_ML2_MADDR l i, 0, 32⟩
/-- MS_ML2_MOP (R354). -/
def MS_ML2_MOP (l : Lane) (i : Nat) : Nat := l.ml2base + 0x24 + 8 * i
/-- MS_ML2_MOP.BUSY, bits 31:31, RO (R354). -/
def MS_ML2_MOP_BUSY (l : Lane) (i : Nat) : RF := ⟨MS_ML2_MOP l i, 31, 1⟩
/-- MS_ML2_MOP.ERR, bits 30:30, RO (R354). -/
def MS_ML2_MOP_ERR (l : Lane) (i : Nat) : RF := ⟨MS_ML2_MOP l i, 30, 1⟩
/-- MS_ML2_MOP.WAY, bits 19:16, RW (R354). -/
def MS_ML2_MOP_WAY (l : Lane) (i : Nat) : RF := ⟨MS_ML2_MOP l i, 16, 4⟩
/-- MS_ML2_MOP.SET, bits 15:5, RW (R354). -/
def MS_ML2_MOP_SET (l : Lane) (i : Nat) : RF := ⟨MS_ML2_MOP l i, 5, 11⟩
/-- MS_ML2_MOP.OP, bits 3:0, RW (R354). -/
def MS_ML2_MOP_OP (l : Lane) (i : Nat) : RF := ⟨MS_ML2_MOP l i, 0, 4⟩

/-- Rows of the media L2 of a lane (R354), part 0. -/
def ml2Rows0 : List Row :=
  [ { off := 0x0, rw := 0x1 },
    { off := 0x4, rc := 0xFF0000 },
    { off := 0x8 },
    { off := 0xC, w1c := 0xF },
    { off := 0x10, rw := 0xF },
    { off := 0x20, count := 2, stride := 8, rw := 0xFFFFFFFF },
    { off := 0x24, count := 2, stride := 8, rw := 0xFFFEF } ]
/-- All rows of the media L2 of a lane (R354). -/
def ml2Rows : List Row := ml2Rows0

/-! ### the spindle section (SP_) -/

/-- SP_CTRL (R300). -/
def SP_CTRL : Nat := 0xF0400000 + 0x0
/-- SP_CTRL.CMD, bits 31:29, WO (R300). -/
def SP_CTRL_CMD : RF := ⟨SP_CTRL, 29, 3⟩
/-- SP_CTRL.AUTOCATCH, bits 1:1, RW (R300). -/
def SP_CTRL_AUTOCATCH : RF := ⟨SP_CTRL, 1, 1⟩
/-- SP_CTRL.EN, bits 0:0, RW (R300). -/
def SP_CTRL_EN : RF := ⟨SP_CTRL, 0, 1⟩
/-- SP_STATUS (R301). -/
def SP_STATUS : Nat := 0xF0400000 + 0x4
/-- SP_STATUS.STATE, bits 31:28, RO (R301). -/
def SP_STATUS_STATE : RF := ⟨SP_STATUS, 28, 4⟩
/-- SP_STATUS.CHOPF, bits 27:27, RO (R301). -/
def SP_STATUS_CHOPF : RF := ⟨SP_STATUS, 27, 1⟩
/-- SP_STATUS.CHOPON, bits 26:26, RO (R301). -/
def SP_STATUS_CHOPON : RF := ⟨SP_STATUS, 26, 1⟩
/-- SP_STATUS.REGSTOP, bits 25:25, RO (R301). -/
def SP_STATUS_REGSTOP : RF := ⟨SP_STATUS, 25, 1⟩
/-- SP_STATUS.OVFLT, bits 24:24, RO (R301). -/
def SP_STATUS_OVFLT : RF := ⟨SP_STATUS, 24, 1⟩
/-- SP_STATUS.ATSPEED, bits 23:23, RO (R301). -/
def SP_STATUS_ATSPEED : RF := ⟨SP_STATUS, 23, 1⟩
/-- SP_STATUS.BRKLIM, bits 22:22, RO (R301). -/
def SP_STATUS_BRKLIM : RF := ⟨SP_STATUS, 22, 1⟩
/-- SP_STATUS.VSAT, bits 21:21, RO (R301). -/
def SP_STATUS_VSAT : RF := ⟨SP_STATUS, 21, 1⟩
/-- SP_STATUS.SUTO, bits 20:20, W1C (R301). -/
def SP_STATUS_SUTO : RF := ⟨SP_STATUS, 20, 1⟩
/-- SP_STATUS.ATTEMPT, bits 19:17, RO (R301). -/
def SP_STATUS_ATTEMPT : RF := ⟨SP_STATUS, 17, 3⟩
/-- SP_STATUS.LCLASS, bits 16:15, RO (R301). -/
def SP_STATUS_LCLASS : RF := ⟨SP_STATUS, 15, 2⟩
/-- SP_STATUS.RECATCH, bits 14:13, RO (R301). -/
def SP_STATUS_RECATCH : RF := ⟨SP_STATUS, 13, 2⟩
/-- SP_STATUS.AUTO, bits 12:12, RO (R301). -/
def SP_STATUS_AUTO : RF := ⟨SP_STATUS, 12, 1⟩
/-- SP_STATUS.REFUSED, bits 11:11, W1C (R301). -/
def SP_STATUS_REFUSED : RF := ⟨SP_STATUS, 11, 1⟩
/-- SP_SPEED (R299). -/
def SP_SPEED : Nat := 0xF0400000 + 0x8
/-- SP_SPEED.TARGET, bits 31:16, RW (R299). -/
def SP_SPEED_TARGET : RF := ⟨SP_SPEED, 16, 16⟩
/-- SP_SPEED.ACCEL, bits 15:0, RW (R299). -/
def SP_SPEED_ACCEL : RF := ⟨SP_SPEED, 0, 16⟩
/-- SP_MEAS (R299). -/
def SP_MEAS : Nat := 0xF0400000 + 0xC
/-- SP_MEAS.SPEED, bits 31:16, RO (R299). -/
def SP_MEAS_SPEED : RF := ⟨SP_MEAS, 16, 16⟩
/-- SP_PWM (R299). -/
def SP_PWM : Nat := 0xF0400000 + 0x10
/-- SP_PWM.DT, bits 7:0, RW (R299). -/
def SP_PWM_DT : RF := ⟨SP_PWM, 0, 8⟩
/-- SP_CURLOOP (R299). -/
def SP_CURLOOP : Nat := 0xF0400000 + 0x14
/-- SP_CURLOOP.KP, bits 31:16, RW (R299). -/
def SP_CURLOOP_KP : RF := ⟨SP_CURLOOP, 16, 16⟩
/-- SP_CURLOOP.KI, bits 15:0, RW (R299). -/
def SP_CURLOOP_KI : RF := ⟨SP_CURLOOP, 0, 16⟩
/-- SP_LIM (R299). -/
def SP_LIM : Nat := 0xF0400000 + 0x18
/-- SP_LIM.IQMAX, bits 31:16, RW (R299). -/
def SP_LIM_IQMAX : RF := ⟨SP_LIM, 16, 16⟩
/-- SP_LIM.IDINJ, bits 15:0, RW (R299). -/
def SP_LIM_IDINJ : RF := ⟨SP_LIM, 0, 16⟩
/-- SP_START (R299). -/
def SP_START : Nat := 0xF0400000 + 0x1C
/-- SP_START.ISTART, bits 31:16, RW (R299). -/
def SP_START_ISTART : RF := ⟨SP_START, 16, 16⟩
/-- SP_START.IPOL, bits 15:8, RW (R299). -/
def SP_START_IPOL : RF := ⟨SP_START, 8, 8⟩
/-- SP_START.VHF, bits 7:0, RW (R299). -/
def SP_START_VHF : RF := ⟨SP_START, 0, 8⟩
/-- SP_MOTOR (R299). -/
def SP_MOTOR : Nat := 0xF0400000 + 0x20
/-- SP_MOTOR.RSN, bits 31:16, RW (R299). -/
def SP_MOTOR_RSN : RF := ⟨SP_MOTOR, 16, 16⟩
/-- SP_MOTOR.KETOL, bits 15:8, RW (R299). -/
def SP_MOTOR_KETOL : RF := ⟨SP_MOTOR, 8, 8⟩
/-- SP_KE0 (R299). -/
def SP_KE0 : Nat := 0xF0400000 + 0x24
/-- SP_KE0.KE0, bits 31:0, RW (R299). -/
def SP_KE0_KE0 : RF := ⟨SP_KE0, 0, 32⟩
/-- SP_LISTEN (R299). -/
def SP_LISTEN : Nat := 0xF0400000 + 0x28
/-- SP_LISTEN.LSPEED, bits 31:16, RO (R299). -/
def SP_LISTEN_LSPEED : RF := ⟨SP_LISTEN, 16, 16⟩
/-- SP_LISTEN.EMFMIN, bits 11:0, RW (R299). -/
def SP_LISTEN_EMFMIN : RF := ⟨SP_LISTEN, 0, 12⟩
/-- SP_BUS (R299). -/
def SP_BUS : Nat := 0xF0400000 + 0x2C
/-- SP_BUS.VOLT, bits 27:16, RO (R299). -/
def SP_BUS_VOLT : RF := ⟨SP_BUS, 16, 12⟩
/-- SP_BUS.CURR, bits 11:0, RO (R299). -/
def SP_BUS_CURR : RF := ⟨SP_BUS, 0, 12⟩
/-- SP_ADC (R299). -/
def SP_ADC (i : Nat) : Nat := 0xF0400000 + 0x30 + 4 * i
/-- SP_ADC.CODE, bits 11:0, RO (R299). -/
def SP_ADC_CODE (i : Nat) : RF := ⟨SP_ADC i, 0, 12⟩
/-- SP_CHOP (R299). -/
def SP_CHOP : Nat := 0xF0400000 + 0x44
/-- SP_CHOP.TEST, bits 31:31, WO (R299). -/
def SP_CHOP_TEST : RF := ⟨SP_CHOP, 31, 1⟩
/-- SP_CHOP.CHOPIMIN, bits 11:0, RW (R299). -/
def SP_CHOP_CHOPIMIN : RF := ⟨SP_CHOP, 0, 12⟩
/-- SP_DECEL (R299). -/
def SP_DECEL : Nat := 0xF0400000 + 0x48
/-- SP_DECEL.MS, bits 31:0, RO (R299). -/
def SP_DECEL_MS : RF := ⟨SP_DECEL, 0, 32⟩
/-- SP_INT (R302). -/
def SP_INT : Nat := 0xF0400000 + 0x50
/-- SP_INT.RANGE, bits 9:9, W1C (R302). -/
def SP_INT_RANGE : RF := ⟨SP_INT, 9, 1⟩
/-- SP_INT.HOLDUP, bits 8:8, W1C (R302). -/
def SP_INT_HOLDUP : RF := ⟨SP_INT, 8, 1⟩
/-- SP_INT.OVFLT, bits 7:7, W1C (R302). -/
def SP_INT_OVFLT : RF := ⟨SP_INT, 7, 1⟩
/-- SP_INT.REGSTOP, bits 6:6, W1C (R302). -/
def SP_INT_REGSTOP : RF := ⟨SP_INT, 6, 1⟩
/-- SP_INT.CHOPF, bits 5:5, W1C (R302). -/
def SP_INT_CHOPF : RF := ⟨SP_INT, 5, 1⟩
/-- SP_INT.SYNC, bits 4:4, W1C (R302). -/
def SP_INT_SYNC : RF := ⟨SP_INT, 4, 1⟩
/-- SP_INT.STARTFAIL, bits 3:3, W1C (R302). -/
def SP_INT_STARTFAIL : RF := ⟨SP_INT, 3, 1⟩
/-- SP_INT.DECEL_DONE, bits 2:2, W1C (R302). -/
def SP_INT_DECEL_DONE : RF := ⟨SP_INT, 2, 1⟩
/-- SP_INT.ATSPEED, bits 1:1, W1C (R302). -/
def SP_INT_ATSPEED : RF := ⟨SP_INT, 1, 1⟩
/-- SP_INT.STATE, bits 0:0, W1C (R302). -/
def SP_INT_STATE : RF := ⟨SP_INT, 0, 1⟩
/-- SP_INTEN (R302). -/
def SP_INTEN : Nat := 0xF0400000 + 0x54

/-- Rows of the spindle section (SP_), part 0. -/
def spRows0 : List Row :=
  [ { off := 0x0, reset := 0x2, rw := 0x3, wo := 0xE0000000 },
    { off := 0x4, w1c := 0x100800 },
    { off := 0x8, reset := 0x258, rw := 0xFFFFFFFF },
    { off := 0xC },
    { off := 0x10, reset := 0x28, rw := 0xFF },
    { off := 0x14, reset := 0x10000400, rw := 0xFFFFFFFF },
    { off := 0x18, reset := 0x20002000, rw := 0xFFFFFFFF },
    { off := 0x1C, reset := 0x10004010, rw := 0xFFFFFFFF },
    { off := 0x20, reset := 0x2600, rw := 0xFFFFFF00 },
    { off := 0x24, rw := 0xFFFFFFFF },
    { off := 0x28, reset := 0x20, rw := 0xFFF },
    { off := 0x2C },
    { off := 0x30, count := 5 },
    { off := 0x44, reset := 0x40, rw := 0xFFF, wo := 0x80000000 },
    { off := 0x48 },
    { off := 0x50, w1c := 0x3FF },
    { off := 0x54, rw := 0x3FF } ]
/-- All rows of the spindle section (SP_). -/
def spRows : List Row := spRows0

/-! ### the cipher engine (CX_) -/

/-- CX_CTRL (R374). -/
def CX_CTRL : Nat := 0xF0500000 + 0x0
/-- CX_CTRL.EN, bits 0:0, RW (R374). -/
def CX_CTRL_EN : RF := ⟨CX_CTRL, 0, 1⟩
/-- CX_STATUS (R374). -/
def CX_STATUS : Nat := 0xF0500000 + 0x4
/-- CX_STATUS.SELFPASS, bits 31:31, RO (R374). -/
def CX_STATUS_SELFPASS : RF := ⟨CX_STATUS, 31, 1⟩
/-- CX_STATUS.SELFFAIL, bits 30:30, RO (R374). -/
def CX_STATUS_SELFFAIL : RF := ⟨CX_STATUS, 30, 1⟩
/-- CX_STATUS.BUSY, bits 29:29, RO (R374). -/
def CX_STATUS_BUSY : RF := ⟨CX_STATUS, 29, 1⟩
/-- CX_STATUS.SUSP, bits 28:28, RO (R374). -/
def CX_STATUS_SUSP : RF := ⟨CX_STATUS, 28, 1⟩
/-- CX_STATUS.SUSPSRC, bits 27:26, RO (R374). -/
def CX_STATUS_SUSPSRC : RF := ⟨CX_STATUS, 26, 2⟩
/-- CX_INT (R374). -/
def CX_INT : Nat := 0xF0500000 + 0x8
/-- CX_INT.KMB, bits 3:3, W1C (R374). -/
def CX_INT_KMB : RF := ⟨CX_INT, 3, 1⟩
/-- CX_INT.DRAIN, bits 2:2, W1C (R374). -/
def CX_INT_DRAIN : RF := ⟨CX_INT, 2, 1⟩
/-- CX_INT.BIND, bits 1:1, W1C (R374). -/
def CX_INT_BIND : RF := ⟨CX_INT, 1, 1⟩
/-- CX_INT.CPL, bits 0:0, W1C (R374). -/
def CX_INT_CPL : RF := ⟨CX_INT, 0, 1⟩
/-- CX_INTEN (R374). -/
def CX_INTEN : Nat := 0xF0500000 + 0xC
/-- CX_QSTAT (R374). -/
def CX_QSTAT (i : Nat) : Nat := 0xF0500000 + 0x10 + 4 * i
/-- CX_QSTAT.URGENT, bits 22:16, RO (R374). -/
def CX_QSTAT_URGENT (i : Nat) : RF := ⟨CX_QSTAT i, 16, 7⟩
/-- CX_QSTAT.COUNT, bits 6:0, RO (R374). -/
def CX_QSTAT_COUNT (i : Nat) : RF := ⟨CX_QSTAT i, 0, 7⟩
/-- CX_HREQ (R374). -/
def CX_HREQ (i : Nat) : Nat := 0xF0500000 + 0x40 + 4 * i
/-- CX_HREQ.W, bits 31:0, RW (R374). -/
def CX_HREQ_W (i : Nat) : RF := ⟨CX_HREQ i, 0, 32⟩
/-- CX_HPOST (R374). -/
def CX_HPOST : Nat := 0xF0500000 + 0x70
/-- CX_HPOST.GO, bits 31:31, W1S (R374). -/
def CX_HPOST_GO : RF := ⟨CX_HPOST, 31, 1⟩
/-- CX_HCPL (R374). -/
def CX_HCPL (i : Nat) : Nat := 0xF0500000 + 0x80 + 4 * i
/-- CX_HCPL.W, bits 31:0, RO (R374). -/
def CX_HCPL_W (i : Nat) : RF := ⟨CX_HCPL i, 0, 32⟩
/-- CX_SREQ (R374). -/
def CX_SREQ (i : Nat) : Nat := 0xF0500000 + 0x100 + 4 * i
/-- CX_SREQ.W, bits 31:0, RW (R374). -/
def CX_SREQ_W (i : Nat) : RF := ⟨CX_SREQ i, 0, 32⟩
/-- CX_SPOST (R374). -/
def CX_SPOST : Nat := 0xF0500000 + 0x130
/-- CX_SPOST.GO, bits 31:31, W1S (R374). -/
def CX_SPOST_GO : RF := ⟨CX_SPOST, 31, 1⟩
/-- CX_SCPL (R374). -/
def CX_SCPL (i : Nat) : Nat := 0xF0500000 + 0x140 + 4 * i
/-- CX_SCPL.W, bits 31:0, RO (R374). -/
def CX_SCPL_W (i : Nat) : RF := ⟨CX_SCPL i, 0, 32⟩
/-- CX_KMBREQ (R374). -/
def CX_KMBREQ (i : Nat) : Nat := 0xF0500000 + 0x200 + 4 * i
/-- CX_KMBREQ.W, bits 31:0, RW (R374). -/
def CX_KMBREQ_W (i : Nat) : RF := ⟨CX_KMBREQ i, 0, 32⟩
/-- CX_KMBRSP (R374). -/
def CX_KMBRSP : Nat := 0xF0500000 + 0x210
/-- CX_KMBRSP.READY, bits 31:31, RO (R374). -/
def CX_KMBRSP_READY : RF := ⟨CX_KMBRSP, 31, 1⟩
/-- CX_KMBRSP.CODE, bits 7:0, RO (R374). -/
def CX_KMBRSP_CODE : RF := ⟨CX_KMBRSP, 0, 8⟩
/-- CX_KCMD (R374). -/
def CX_KCMD : Nat := 0xF0500000 + 0x10000
/-- CX_KCMD.GO, bits 31:31, W1S (R374). -/
def CX_KCMD_GO : RF := ⟨CX_KCMD, 31, 1⟩
/-- CX_KCMD.OP, bits 18:16, RW (R374). -/
def CX_KCMD_OP : RF := ⟨CX_KCMD, 16, 3⟩
/-- CX_KCMD.SLOT, bits 9:0, RW (R374). -/
def CX_KCMD_SLOT : RF := ⟨CX_KCMD, 0, 10⟩
/-- CX_KRSP (R374). -/
def CX_KRSP : Nat := 0xF0500000 + 0x10004
/-- CX_KRSP.DONE, bits 31:31, RO (R374). -/
def CX_KRSP_DONE : RF := ⟨CX_KRSP, 31, 1⟩
/-- CX_KRSP.ARG, bits 23:16, RW (R374). -/
def CX_KRSP_ARG : RF := ⟨CX_KRSP, 16, 8⟩
/-- CX_KRSP.CODE, bits 7:0, RO (R374). -/
def CX_KRSP_CODE : RF := ⟨CX_KRSP, 0, 8⟩
/-- CX_KADDRL (R374). -/
def CX_KADDRL : Nat := 0xF0500000 + 0x10008
/-- CX_KADDRL.ADDR, bits 31:0, RW (R374). -/
def CX_KADDRL_ADDR : RF := ⟨CX_KADDRL, 0, 32⟩
/-- CX_KADDRH (R374). -/
def CX_KADDRH : Nat := 0xF0500000 + 0x1000C
/-- CX_KADDRH.ADDR, bits 7:0, RW (R374). -/
def CX_KADDRH_ADDR : RF := ⟨CX_KADDRH, 0, 8⟩
/-- CX_NSMAP (R374). -/
def CX_NSMAP (i : Nat) : Nat := 0xF0500000 + 0x10100 + 4 * i
/-- CX_NSMAP.VALID, bits 31:31, RO (R374). -/
def CX_NSMAP_VALID (i : Nat) : RF := ⟨CX_NSMAP i, 31, 1⟩
/-- CX_NSMAP.SLOT, bits 9:0, RO (R374). -/
def CX_NSMAP_SLOT (i : Nat) : RF := ⟨CX_NSMAP i, 0, 10⟩
/-- CX_KSTAT (R374). -/
def CX_KSTAT (i : Nat) : Nat := 0xF0500000 + 0x20000 + 4 * i
/-- CX_KSTAT.W, bits 31:0, RO (R374). -/
def CX_KSTAT_W (i : Nat) : RF := ⟨CX_KSTAT i, 0, 32⟩

/-- Rows of the cipher engine (CX_), part 0. -/
def cxRows0 : List Row :=
  [ { off := 0x0, rw := 0x1 },
    { off := 0x4 },
    { off := 0x8, w1c := 0xF },
    { off := 0xC, rw := 0xF },
    { off := 0x10, count := 4 },
    { off := 0x40, count := 12, rw := 0xFFFFFFFF },
    { off := 0x70, w1s := 0x80000000 },
    { off := 0x80, count := 2 },
    { off := 0x100, count := 12, rw := 0xFFFFFFFF },
    { off := 0x130, w1s := 0x80000000 },
    { off := 0x140, count := 2 },
    { off := 0x200, count := 4, rw := 0xFFFFFFFF },
    { off := 0x210 },
    { off := 0x10000, rw := 0x703FF, w1s := 0x80000000 },
    { off := 0x10004, rw := 0xFF0000 },
    { off := 0x10008, rw := 0xFFFFFFFF },
    { off := 0x1000C, rw := 0xFF },
    { off := 0x10100, count := 64 },
    { off := 0x20000, count := 4096 } ]
/-- All rows of the cipher engine (CX_). -/
def cxRows : List Row := cxRows0

/-! ### the regulator (RG_) -/

/-- RG_TEMP (R431). -/
def RG_TEMP (i : Nat) : Nat := 0xF0700000 + 0x0 + 4 * i
/-- RG_TEMP.VALID, bits 31:31, RO (R431). -/
def RG_TEMP_VALID (i : Nat) : RF := ⟨RG_TEMP i, 31, 1⟩
/-- RG_TEMP.FAIL, bits 30:30, RO (R431). -/
def RG_TEMP_FAIL (i : Nat) : RF := ⟨RG_TEMP i, 30, 1⟩
/-- RG_TEMP.CODE, bits 11:0, RO (R431). -/
def RG_TEMP_CODE (i : Nat) : RF := ⟨RG_TEMP i, 0, 12⟩
/-- RG_THERM (R431). -/
def RG_THERM (i : Nat) : Nat := 0xF0700000 + 0x20 + 4 * i
/-- RG_THERM.VALID, bits 31:31, RO (R431). -/
def RG_THERM_VALID (i : Nat) : RF := ⟨RG_THERM i, 31, 1⟩
/-- RG_THERM.FAIL, bits 30:30, RO (R431). -/
def RG_THERM_FAIL (i : Nat) : RF := ⟨RG_THERM i, 30, 1⟩
/-- RG_THERM.DEGC, bits 23:16, RO (R431). -/
def RG_THERM_DEGC (i : Nat) : RF := ⟨RG_THERM i, 16, 8⟩
/-- RG_THERM.CODE, bits 11:0, RO (R431). -/
def RG_THERM_CODE (i : Nat) : RF := ⟨RG_THERM i, 0, 12⟩
/-- RG_THERMCFG (R431). -/
def RG_THERMCFG : Nat := 0xF0700000 + 0x28
/-- RG_THERMCFG.B, bits 15:0, RW (R431). -/
def RG_THERMCFG_B : RF := ⟨RG_THERMCFG, 0, 16⟩
/-- RG_THSTAT (R431). -/
def RG_THSTAT : Nat := 0xF0700000 + 0x30
/-- RG_THSTAT.WARN, bits 31:31, RO (R431). -/
def RG_THSTAT_WARN : RF := ⟨RG_THSTAT, 31, 1⟩
/-- RG_THSTAT.THR, bits 30:30, RO (R431). -/
def RG_THSTAT_THR : RF := ⟨RG_THSTAT, 30, 1⟩
/-- RG_THSTAT.STEP, bits 29:27, RO (R431). -/
def RG_THSTAT_STEP : RF := ⟨RG_THSTAT, 27, 3⟩
/-- RG_THSTAT.SRC, bits 18:16, RO (R431). -/
def RG_THSTAT_SRC : RF := ⟨RG_THSTAT, 16, 3⟩
/-- RG_THSTAT.TMAX, bits 11:0, RO (R431). -/
def RG_THSTAT_TMAX : RF := ⟨RG_THSTAT, 0, 12⟩
/-- RG_THCTRL (R431). -/
def RG_THCTRL : Nat := 0xF0700000 + 0x34
/-- RG_THCTRL.FORCE, bits 2:0, RW (R431). -/
def RG_THCTRL_FORCE : RF := ⟨RG_THCTRL, 0, 3⟩
/-- RG_STATUS (R431). -/
def RG_STATUS : Nat := 0xF0700000 + 0x38
/-- RG_STATUS.AONFAIL, bits 0:0, RO (R431). -/
def RG_STATUS_AONFAIL : RF := ⟨RG_STATUS, 0, 1⟩
/-- RG_SUP (R431). -/
def RG_SUP (i : Nat) : Nat := 0xF0700000 + 0x40 + 4 * i
/-- RG_SUP.LOW, bits 31:31, RO (R431). -/
def RG_SUP_LOW (i : Nat) : RF := ⟨RG_SUP i, 31, 1⟩
/-- RG_SUP.HIGH, bits 30:30, RO (R431). -/
def RG_SUP_HIGH (i : Nat) : RF := ⟨RG_SUP i, 30, 1⟩
/-- RG_SUP.CODE, bits 11:0, RO (R431). -/
def RG_SUP_CODE (i : Nat) : RF := ⟨RG_SUP i, 0, 12⟩
/-- RG_SHOCK (R431). -/
def RG_SHOCK : Nat := 0xF0700000 + 0x80
/-- RG_SHOCK.STUCK, bits 5:4, RO (R431). -/
def RG_SHOCK_STUCK : RF := ⟨RG_SHOCK, 4, 2⟩
/-- RG_SHOCK.IN, bits 1:0, RO (R431). -/
def RG_SHOCK_IN : RF := ⟨RG_SHOCK, 0, 2⟩
/-- RG_XTAL (R431). -/
def RG_XTAL : Nat := 0xF0700000 + 0x90
/-- RG_XTAL.T0, bits 23:16, RW (R431). -/
def RG_XTAL_T0 : RF := ⟨RG_XTAL, 16, 8⟩
/-- RG_XTAL.K, bits 15:0, RW (R431). -/
def RG_XTAL_K : RF := ⟨RG_XTAL, 0, 16⟩
/-- RG_REFSEL (R431). -/
def RG_REFSEL : Nat := 0xF0700000 + 0x94
/-- RG_REFSEL.MOTOR, bits 1:1, RO (R431). -/
def RG_REFSEL_MOTOR : RF := ⟨RG_REFSEL, 1, 1⟩
/-- RG_REFSEL.REG, bits 0:0, RO (R431). -/
def RG_REFSEL_REG : RF := ⟨RG_REFSEL, 0, 1⟩
/-- RG_CALMODE (R431). -/
def RG_CALMODE : Nat := 0xF0700000 + 0x100
/-- RG_CALMODE.MODE, bits 0:0, RW (R431). -/
def RG_CALMODE_MODE : RF := ⟨RG_CALMODE, 0, 1⟩
/-- RG_CALREQ (R431). -/
def RG_CALREQ (i : Nat) : Nat := 0xF0700000 + 0x104 + 4 * i
/-- RG_CALREQ.GO, bits 31:31, W1S (R431). -/
def RG_CALREQ_GO (i : Nat) : RF := ⟨RG_CALREQ i, 31, 1⟩
/-- RG_CALREQ.PEND, bits 30:30, RO (R431). -/
def RG_CALREQ_PEND (i : Nat) : RF := ⟨RG_CALREQ i, 30, 1⟩
/-- RG_CALREQ.ERR, bits 29:29, RO (R431). -/
def RG_CALREQ_ERR (i : Nat) : RF := ⟨RG_CALREQ i, 29, 1⟩
/-- RG_CALREQ.KIND, bits 19:16, RW (R431). -/
def RG_CALREQ_KIND (i : Nat) : RF := ⟨RG_CALREQ i, 16, 4⟩
/-- RG_CALREQ.HEAD, bits 11:8, RW (R431). -/
def RG_CALREQ_HEAD (i : Nat) : RF := ⟨RG_CALREQ i, 8, 4⟩
/-- RG_CALREQ.DURATION, bits 5:0, RW (R431). -/
def RG_CALREQ_DURATION (i : Nat) : RF := ⟨RG_CALREQ i, 0, 6⟩
/-- RG_CALGNT (R431). -/
def RG_CALGNT (i : Nat) : Nat := 0xF0700000 + 0x10C + 4 * i
/-- RG_CALGNT.ACTIVE, bits 31:31, RO (R431). -/
def RG_CALGNT_ACTIVE (i : Nat) : RF := ⟨RG_CALGNT i, 31, 1⟩
/-- RG_CALGNT.DONE, bits 30:30, WO (R431). -/
def RG_CALGNT_DONE (i : Nat) : RF := ⟨RG_CALGNT i, 30, 1⟩
/-- RG_CALGNT.MS, bits 5:0, RO (R431). -/
def RG_CALGNT_MS (i : Nat) : RF := ⟨RG_CALGNT i, 0, 6⟩
/-- RG_LOGSTAT (R431). -/
def RG_LOGSTAT : Nat := 0xF0700000 + 0x200
/-- RG_LOGSTAT.DROP, bits 31:16, RC (R431). -/
def RG_LOGSTAT_DROP : RF := ⟨RG_LOGSTAT, 16, 16⟩
/-- RG_LOGSTAT.FIFO, bits 8:0, RO (R431). -/
def RG_LOGSTAT_FIFO : RF := ⟨RG_LOGSTAT, 0, 9⟩
/-- RG_LOGP (R431). -/
def RG_LOGP (i : Nat) : Nat := 0xF0700000 + 0x240 + 4 * i
/-- RG_LOGP.W, bits 31:0, BANK (R431). -/
def RG_LOGP_W (i : Nat) : RF := ⟨RG_LOGP i, 0, 32⟩
/-- RG_INT (R431). -/
def RG_INT : Nat := 0xF0700000 + 0x300
/-- RG_INT.SUPHIGH, bits 7:7, W1C (R431). -/
def RG_INT_SUPHIGH : RF := ⟨RG_INT, 7, 1⟩
/-- RG_INT.RANGE, bits 6:6, W1C (R431). -/
def RG_INT_RANGE : RF := ⟨RG_INT, 6, 1⟩
/-- RG_INT.SHOCKSTUCK, bits 5:5, W1C (R431). -/
def RG_INT_SHOCKSTUCK : RF := ⟨RG_INT, 5, 1⟩
/-- RG_INT.CALEXP, bits 4:4, W1C (R431). -/
def RG_INT_CALEXP : RF := ⟨RG_INT, 4, 1⟩
/-- RG_INT.CALGNT, bits 3:3, W1C (R431). -/
def RG_INT_CALGNT : RF := ⟨RG_INT, 3, 1⟩
/-- RG_INT.STEP, bits 2:2, W1C (R431). -/
def RG_INT_STEP : RF := ⟨RG_INT, 2, 1⟩
/-- RG_INT.THROTTLE, bits 1:1, W1C (R431). -/
def RG_INT_THROTTLE : RF := ⟨RG_INT, 1, 1⟩
/-- RG_INT.WARN, bits 0:0, W1C (R431). -/
def RG_INT_WARN : RF := ⟨RG_INT, 0, 1⟩
/-- RG_INTEN (R431). -/
def RG_INTEN : Nat := 0xF0700000 + 0x304
/-- RG_PMODE (R402). -/
def RG_PMODE : Nat := 0xF0700000 + 0x400
/-- RG_PMODE.TARGET, bits 2:0, RW (R402). -/
def RG_PMODE_TARGET : RF := ⟨RG_PMODE, 0, 3⟩
/-- RG_PSTATUS (R402). -/
def RG_PSTATUS : Nat := 0xF0700000 + 0x404
/-- RG_PSTATUS.BUSY, bits 31:31, RO (R402). -/
def RG_PSTATUS_BUSY : RF := ⟨RG_PSTATUS, 31, 1⟩
/-- RG_PSTATUS.STATE, bits 30:28, RO (R402). -/
def RG_PSTATUS_STATE : RF := ⟨RG_PSTATUS, 28, 3⟩
/-- RG_PSTATUS.FORCED, bits 27:27, RO (R402). -/
def RG_PSTATUS_FORCED : RF := ⟨RG_PSTATUS, 27, 1⟩
/-- RG_PSTATUS.ERR, bits 26:24, RO (R402). -/
def RG_PSTATUS_ERR : RF := ⟨RG_PSTATUS, 24, 3⟩
/-- RG_PSTATUS.STOPPED, bits 23:12, RO (R402). -/
def RG_PSTATUS_STOPPED : RF := ⟨RG_PSTATUS, 12, 12⟩
/-- RG_WAKEEN (R402). -/
def RG_WAKEEN : Nat := 0xF0700000 + 0x408
/-- RG_WAKEEN.EN, bits 4:0, RW (R402). -/
def RG_WAKEEN_EN : RF := ⟨RG_WAKEEN, 0, 5⟩
/-- RG_WAKECAUSE (R402). -/
def RG_WAKECAUSE : Nat := 0xF0700000 + 0x40C
/-- RG_WAKECAUSE.CAUSE, bits 4:0, W1C (R402). -/
def RG_WAKECAUSE_CAUSE : RF := ⟨RG_WAKECAUSE, 0, 5⟩
/-- RG_RETIDLE (R402). -/
def RG_RETIDLE : Nat := 0xF0700000 + 0x410
/-- RG_RETIDLE.TIME, bits 21:0, RW (R402). -/
def RG_RETIDLE_TIME : RF := ⟨RG_RETIDLE, 0, 22⟩
/-- RG_PSLOW (R402). -/
def RG_PSLOW : Nat := 0xF0700000 + 0x414
/-- RG_PSLOW.SPEED, bits 15:0, RW (R402). -/
def RG_PSLOW_SPEED : RF := ⟨RG_PSLOW, 0, 16⟩
/-- RG_AONTMR (R402). -/
def RG_AONTMR : Nat := 0xF0700000 + 0x418
/-- RG_AONTMR.SEC, bits 23:0, RW (R402). -/
def RG_AONTMR_SEC : RF := ⟨RG_AONTMR, 0, 24⟩
/-- RG_CHRL (R402). -/
def RG_CHRL : Nat := 0xF0700000 + 0x420
/-- RG_CHRL.CHR, bits 31:0, RO (R402). -/
def RG_CHRL_CHR : RF := ⟨RG_CHRL, 0, 32⟩
/-- RG_CHRH (R402). -/
def RG_CHRH : Nat := 0xF0700000 + 0x424
/-- RG_CHRH.CHR, bits 31:0, RO (R402). -/
def RG_CHRH_CHR : RF := ⟨RG_CHRH, 0, 32⟩
/-- RG_CHRTRIM (R402). -/
def RG_CHRTRIM : Nat := 0xF0700000 + 0x428
/-- RG_CHRTRIM.TRIM, bits 31:0, RW (R402). -/
def RG_CHRTRIM_TRIM : RF := ⟨RG_CHRTRIM, 0, 32⟩
/-- RG_SEALSTAT (R402). -/
def RG_SEALSTAT : Nat := 0xF0700000 + 0x430
/-- RG_SEALSTAT.GROUPS, bits 28:20, W1C (R402). -/
def RG_SEALSTAT_GROUPS : RF := ⟨RG_SEALSTAT, 20, 9⟩
/-- RG_SEALSTAT.REG, bits 16:16, W1C (R402). -/
def RG_SEALSTAT_REG : RF := ⟨RG_SEALSTAT, 16, 1⟩
/-- RG_SEALSTAT.BANKS, bits 15:0, W1C (R402). -/
def RG_SEALSTAT_BANKS : RF := ⟨RG_SEALSTAT, 0, 16⟩
/-- RG_SEAL (R402). -/
def RG_SEAL (i : Nat) : Nat := 0xF0700000 + 0x440 + 4 * i
/-- RG_SEAL.SEAL, bits 31:0, RO (R402). -/
def RG_SEAL_SEAL (i : Nat) : RF := ⟨RG_SEAL i, 0, 32⟩
/-- RG_SEALREG (R402). -/
def RG_SEALREG : Nat := 0xF0700000 + 0x480
/-- RG_SEALREG.SEAL, bits 31:0, RO (R402). -/
def RG_SEALREG_SEAL : RF := ⟨RG_SEALREG, 0, 32⟩
/-- RG_BOOTSTAT (R461). -/
def RG_BOOTSTAT : Nat := 0xF0700000 + 0x500
/-- RG_BOOTSTAT.RECOVERY, bits 31:31, RO (R461). -/
def RG_BOOTSTAT_RECOVERY : RF := ⟨RG_BOOTSTAT, 31, 1⟩
/-- RG_BOOTSTAT.PROBATION, bits 30:30, RO (R461). -/
def RG_BOOTSTAT_PROBATION : RF := ⟨RG_BOOTSTAT, 30, 1⟩
/-- RG_BOOTSTAT.LOADED, bits 29:29, RO (R461). -/
def RG_BOOTSTAT_LOADED : RF := ⟨RG_BOOTSTAT, 29, 1⟩
/-- RG_BOOTSTAT.SLOT, bits 28:28, RO (R461). -/
def RG_BOOTSTAT_SLOT : RF := ⟨RG_BOOTSTAT, 28, 1⟩
/-- RG_BOOTSTAT.PBOOTS, bits 27:24, RO (R461). -/
def RG_BOOTSTAT_PBOOTS : RF := ⟨RG_BOOTSTAT, 24, 4⟩
/-- RG_BOOTSTAT.SVN, bits 22:16, RO (R461). -/
def RG_BOOTSTAT_SVN : RF := ⟨RG_BOOTSTAT, 16, 7⟩
/-- RG_BOOTSTAT.SCHEMA, bits 15:0, RO (R461). -/
def RG_BOOTSTAT_SCHEMA : RF := ⟨RG_BOOTSTAT, 0, 16⟩
/-- RG_RSTCAUSE (R461). -/
def RG_RSTCAUSE : Nat := 0xF0700000 + 0x504
/-- RG_RSTCAUSE.BOOTS, bits 15:8, RO (R461). -/
def RG_RSTCAUSE_BOOTS : RF := ⟨RG_RSTCAUSE, 8, 8⟩
/-- RG_RSTCAUSE.CAUSE, bits 3:0, RO (R461). -/
def RG_RSTCAUSE_CAUSE : RF := ⟨RG_RSTCAUSE, 0, 4⟩
/-- RG_UPDSTAT (R461). -/
def RG_UPDSTAT : Nat := 0xF0700000 + 0x508
/-- RG_UPDSTAT.STAGE, bits 31:28, RO (R461). -/
def RG_UPDSTAT_STAGE : RF := ⟨RG_UPDSTAT, 28, 4⟩
/-- RG_UPDSTAT.VCODE, bits 27:24, RO (R461). -/
def RG_UPDSTAT_VCODE : RF := ⟨RG_UPDSTAT, 24, 4⟩
/-- RG_UPDSTAT.CHUNKS, bits 11:0, RO (R461). -/
def RG_UPDSTAT_CHUNKS : RF := ⟨RG_UPDSTAT, 0, 12⟩
/-- RG_BOOTCONF (R461). -/
def RG_BOOTCONF : Nat := 0xF0700000 + 0x50C
/-- RG_BOOTCONF.CONFIRM, bits 31:31, W1S (R461). -/
def RG_BOOTCONF_CONFIRM : RF := ⟨RG_BOOTCONF, 31, 1⟩
/-- RG_BOOTCONF.LEFT, bits 10:0, RO (R461). -/
def RG_BOOTCONF_LEFT : RF := ⟨RG_BOOTCONF, 0, 11⟩
/-- RG_CROWN (R461). -/
def RG_CROWN : Nat := 0xF0700000 + 0x510
/-- RG_CROWN.WAKE, bits 9:9, RO (R461). -/
def RG_CROWN_WAKE : RF := ⟨RG_CROWN, 9, 1⟩
/-- RG_CROWN.SESSION, bits 8:8, RO (R461). -/
def RG_CROWN_SESSION : RF := ⟨RG_CROWN, 8, 1⟩
/-- RG_CROWN.RATE, bits 2:0, RO (R461). -/
def RG_CROWN_RATE : RF := ⟨RG_CROWN, 0, 3⟩

/-- Rows of the regulator (RG_), part 0. -/
def rgRows0 : List Row :=
  [ { off := 0x0, count := 8 },
    { off := 0x20, count := 2 },
    { off := 0x28, reset := 0xD6B, rw := 0xFFFF },
    { off := 0x30 },
    { off := 0x34, rw := 0x7 },
    { off := 0x38 },
    { off := 0x40, count := 10 },
    { off := 0x80 },
    { off := 0x90, reset := 0x190022, rw := 0xFFFFFF },
    { off := 0x94 },
    { off := 0x100, reset := 0x1, rw := 0x1 },
    { off := 0x104, count := 2, rw := 0xF0F3F, w1s := 0x80000000 },
    { off := 0x10C, count := 2, wo := 0x40000000 },
    { off := 0x200, rc := 0xFFFF0000 },
    { off := 0x240, count := 11, rw := 0xFFFFFFFF },
    { off := 0x300, w1c := 0xFF },
    { off := 0x304, rw := 0xFF },
    { off := 0x400, rw := 0x7 },
    { off := 0x404 },
    { off := 0x408, reset := 0xF, rw := 0x1F },
    { off := 0x40C, w1c := 0x1F },
    { off := 0x410, reset := 0x2710, rw := 0x3FFFFF },
    { off := 0x414, reset := 0x1518, rw := 0xFFFF },
    { off := 0x418, rw := 0xFFFFFF },
    { off := 0x420 } ]
/-- Rows of the regulator (RG_), part 1. -/
def rgRows1 : List Row :=
  [ { off := 0x424 },
    { off := 0x428, rw := 0xFFFFFFFF },
    { off := 0x430, w1c := 0x1FF1FFFF },
    { off := 0x440, count := 16 },
    { off := 0x480 },
    { off := 0x500 },
    { off := 0x504 },
    { off := 0x508 },
    { off := 0x50C, w1s := 0x80000000 },
    { off := 0x510 } ]
/-- All rows of the regulator (RG_). -/
def rgRows : List Row := rgRows0 ++ rgRows1

/-! ### the calibre registers (CB_) -/

/-- CB_STATUS (R50). -/
def CB_STATUS : Nat := 0xF0800000 + 0x0
/-- CB_STATUS.LOCK, bits 31:31, RO (R50). -/
def CB_STATUS_LOCK : RF := ⟨CB_STATUS, 31, 1⟩
/-- CB_STATUS.SOURCE, bits 27:24, RO (R50). -/
def CB_STATUS_SOURCE : RF := ⟨CB_STATUS, 24, 4⟩
/-- CB_STATUS.A_RESULT, bits 23:16, RO (R50). -/
def CB_STATUS_A_RESULT : RF := ⟨CB_STATUS, 16, 8⟩
/-- CB_STATUS.B_RESULT, bits 15:8, RO (R50). -/
def CB_STATUS_B_RESULT : RF := ⟨CB_STATUS, 8, 8⟩
/-- CB_STATUS.LEVEL, bits 7:0, RO (R50). -/
def CB_STATUS_LEVEL : RF := ⟨CB_STATUS, 0, 8⟩
/-- CB_CTRL (R50). -/
def CB_CTRL : Nat := 0xF0800000 + 0x4
/-- CB_CTRL.LOCK, bits 0:0, W1S (R50). -/
def CB_CTRL_LOCK : RF := ⟨CB_CTRL, 0, 1⟩
/-- CB_SEQ (R49). -/
def CB_SEQ : Nat := 0xF0800000 + 0x8
/-- CB_SEQ.SEQ, bits 31:0, RWL (R49). -/
def CB_SEQ_SEQ : RF := ⟨CB_SEQ, 0, 32⟩
/-- CB_LEVEL (R49). -/
def CB_LEVEL : Nat := 0xF0800000 + 0xC
/-- CB_LEVEL.LEVEL, bits 7:0, RWL (R49). -/
def CB_LEVEL_LEVEL : RF := ⟨CB_LEVEL, 0, 8⟩
/-- CB_STRUCT (R51). -/
def CB_STRUCT : Nat := 0xF0800000 + 0x10
/-- CB_STRUCT.HEADS1, bits 20:16, RWL (R51). -/
def CB_STRUCT_HEADS1 : RF := ⟨CB_STRUCT, 16, 5⟩
/-- CB_STRUCT.HEADS0, bits 12:8, RWL (R51). -/
def CB_STRUCT_HEADS0 : RF := ⟨CB_STRUCT, 8, 5⟩
/-- CB_STRUCT.READERS, bits 5:4, RWL (R51). -/
def CB_STRUCT_READERS : RF := ⟨CB_STRUCT, 4, 2⟩
/-- CB_STRUCT.DUPLEX, bits 3:3, RWL (R51). -/
def CB_STRUCT_DUPLEX : RF := ⟨CB_STRUCT, 3, 1⟩
/-- CB_STRUCT.LANES, bits 1:0, RWL (R51). -/
def CB_STRUCT_LANES : RF := ⟨CB_STRUCT, 0, 2⟩
/-- CB_PREAMP (R49). -/
def CB_PREAMP : Nat := 0xF0800000 + 0x14
/-- CB_PREAMP.P0, bits 7:0, RWL (R49). -/
def CB_PREAMP_P0 : RF := ⟨CB_PREAMP, 0, 8⟩
/-- CB_PREAMP.P1, bits 15:8, RWL (R49). -/
def CB_PREAMP_P1 : RF := ⟨CB_PREAMP, 8, 8⟩
/-- CB_PREAMP.OUTPUTS, bits 23:16, RWL (R49). -/
def CB_PREAMP_OUTPUTS : RF := ⟨CB_PREAMP, 16, 8⟩
/-- CB_ASSIST (R49). -/
def CB_ASSIST : Nat := 0xF0800000 + 0x18
/-- CB_ASSIST.KIND, bits 7:0, RWL (R49). -/
def CB_ASSIST_KIND : RF := ⟨CB_ASSIST, 0, 8⟩
/-- CB_ASSIST.LEAD, bits 15:8, RWL (R49). -/
def CB_ASSIST_LEAD : RF := ⟨CB_ASSIST, 8, 8⟩
/-- CB_PSTAGE (R49). -/
def CB_PSTAGE : Nat := 0xF0800000 + 0x1C
/-- CB_PSTAGE.TYPE, bits 7:0, RWL (R49). -/
def CB_PSTAGE_TYPE : RF := ⟨CB_PSTAGE, 0, 8⟩
/-- CB_HOST (R49). -/
def CB_HOST : Nat := 0xF0800000 + 0x20
/-- CB_HOST.MODE, bits 7:0, RWL (R49). -/
def CB_HOST_MODE : RF := ⟨CB_HOST, 0, 8⟩
/-- CB_HOST.GEN, bits 15:8, RWL (R49). -/
def CB_HOST_GEN : RF := ⟨CB_HOST, 8, 8⟩
/-- CB_CLKDIV (R49). -/
def CB_CLKDIV : Nat := 0xF0800000 + 0x24
/-- CB_CLKDIV.DIV, bits 31:0, RWL (R49). -/
def CB_CLKDIV_DIV : RF := ⟨CB_CLKDIV, 0, 32⟩
/-- CB_SRAMPART (R49). -/
def CB_SRAMPART : Nat := 0xF0800000 + 0x28
/-- CB_SRAMPART.BANKS, bits 7:0, RWL (R49). -/
def CB_SRAMPART_BANKS : RF := ⟨CB_SRAMPART, 0, 8⟩
/-- CB_NSLIM (R49). -/
def CB_NSLIM : Nat := 0xF0800000 + 0x2C
/-- CB_NSLIM.COUNT, bits 7:0, RWL (R49). -/
def CB_NSLIM_COUNT : RF := ⟨CB_NSLIM, 0, 8⟩
/-- CB_NSLIM.ZONED, bits 15:8, RWL (R49). -/
def CB_NSLIM_ZONED : RF := ⟨CB_NSLIM, 8, 8⟩
/-- CB_CODE (R49). -/
def CB_CODE : Nat := 0xF0800000 + 0x30
/-- CB_CODE.RATE, bits 7:0, RWL (R49). -/
def CB_CODE_RATE : RF := ⟨CB_CODE, 0, 8⟩
/-- CB_STRIPE (R49). -/
def CB_STRIPE : Nat := 0xF0800000 + 0x34
/-- CB_STRIPE.P, bits 7:0, RWL (R49). -/
def CB_STRIPE_P : RF := ⟨CB_STRIPE, 0, 8⟩
/-- CB_STRIPE.G, bits 31:16, RWL (R49). -/
def CB_STRIPE_G : RF := ⟨CB_STRIPE, 16, 16⟩
/-- CB_WGUARD (R49). -/
def CB_WGUARD : Nat := 0xF0800000 + 0x38
/-- CB_WGUARD.MODE, bits 7:0, RWL (R49). -/
def CB_WGUARD_MODE : RF := ⟨CB_WGUARD, 0, 8⟩
/-- CB_THERM (R49). -/
def CB_THERM : Nat := 0xF0800000 + 0x3C
/-- CB_THERM.WARN, bits 7:0, RWL (R49). -/
def CB_THERM_WARN : RF := ⟨CB_THERM, 0, 8⟩
/-- CB_THERM.THROTTLE, bits 15:8, RWL (R49). -/
def CB_THERM_THROTTLE : RF := ⟨CB_THERM, 8, 8⟩
/-- CB_THERM.SHUTDOWN, bits 23:16, RWL (R49). -/
def CB_THERM_SHUTDOWN : RF := ⟨CB_THERM, 16, 8⟩
/-- CB_THERM.RESTART, bits 24:24, RWL (R49). -/
def CB_THERM_RESTART : RF := ⟨CB_THERM, 24, 1⟩
/-- CB_SPIN (R49). -/
def CB_SPIN : Nat := 0xF0800000 + 0x40
/-- CB_SPIN.RPM, bits 15:0, RWL (R49). -/
def CB_SPIN_RPM : RF := ⟨CB_SPIN, 0, 16⟩
/-- CB_SPIN.WEDGES, bits 31:16, RWL (R49). -/
def CB_SPIN_WEDGES : RF := ⟨CB_SPIN, 16, 16⟩
/-- CB_SPIN1 (R49). -/
def CB_SPIN1 : Nat := 0xF0800000 + 0x44
/-- CB_SPIN1.POLES, bits 7:0, RWL (R49). -/
def CB_SPIN1_POLES : RF := ⟨CB_SPIN1, 0, 8⟩
/-- CB_PSTATE (R49). -/
def CB_PSTATE (i : Nat) : Nat := 0xF0800000 + 0x100 + 4 * i
/-- CB_PSTATE.W, bits 31:0, RWL (R49). -/
def CB_PSTATE_W (i : Nat) : RF := ⟨CB_PSTATE i, 0, 32⟩
/-- CB_ALIM (R49). -/
def CB_ALIM (i : Nat) : Nat := 0xF0800000 + 0x200 + 4 * i
/-- CB_ALIM.MIN, bits 15:0, RWL (R49). -/
def CB_ALIM_MIN (i : Nat) : RF := ⟨CB_ALIM i, 0, 16⟩
/-- CB_ALIM.MAX, bits 31:16, RWL (R49). -/
def CB_ALIM_MAX (i : Nat) : RF := ⟨CB_ALIM i, 16, 16⟩

/-- Rows of the calibre registers (CB_), part 0. -/
def cbRows0 : List Row :=
  [ { off := 0x0, reset := 0x10100 },
    { off := 0x4, w1s := 0x1 },
    { off := 0x8, rwl := 0xFFFFFFFF },
    { off := 0xC, rwl := 0xFF },
    { off := 0x10, rwl := 0x1F1F3B },
    { off := 0x14, rwl := 0xFFFFFF },
    { off := 0x18, rwl := 0xFFFF },
    { off := 0x1C, rwl := 0xFF },
    { off := 0x20, rwl := 0xFFFF },
    { off := 0x24, rwl := 0xFFFFFFFF },
    { off := 0x28, rwl := 0xFF },
    { off := 0x2C, rwl := 0xFFFF },
    { off := 0x30, rwl := 0xFF },
    { off := 0x34, rwl := 0xFFFF00FF },
    { off := 0x38, rwl := 0xFF },
    { off := 0x3C, rwl := 0x1FFFFFF },
    { off := 0x40, rwl := 0xFFFFFFFF },
    { off := 0x44, rwl := 0xFF },
    { off := 0x100, count := 15, rwl := 0xFFFFFFFF },
    { off := 0x200, count := 64, rwl := 0xFFFFFFFF } ]
/-- All rows of the calibre registers (CB_). -/
def cbRows : List Row := cbRows0

end Sys2Proof.Machine
end

