-- ==== Sys2Proof/Machine/Operands.lean ====
section
/-!
DEFINITION. From an address to the register there: the block of R26 and R15 it lies in, its row, its word after reset; and
the bit-field arithmetic of a register word.
-/
namespace Sys2Proof.Machine

/-- The rows of a lane's register space, without the sequencers' blocks (R26). -/
def laneRows (l : Lane) : List Row :=
  chRows ++ elkRows ++ (match l with | .ln0 => dxRows | .ln1 => vfyRows) ++ wrpRows ++ paRows ++ beRows ++ svRows

/-- Whether the row holds a register at offset `o`. -/
def Row.has (r : Row) (o : Nat) : Bool :=
  decide (r.off ≤ o) && decide (o < r.off + r.count * r.stride) && decide ((o - r.off) % r.stride = 0)

/-- The rows of the block at an address and the offset within it (R15, R24, R26, R353). -/
def blockAt (a : Nat) : Option (List Row × Nat) :=
  if a < 0xF0000000 then none
  else
    let o := (a - 0xF0000000) % 0x100000
    match (a - 0xF0000000) / 0x100000 with
    | 0 => some (hsRows, o)
    | 1 => some (if o < 0x40000 then (laneRows .ln0, o) else if o < 0x48000 then (ecRows, o - 0x40000)
                 else if o < 0x50000 then (ecRows, o - 0x48000) else (laneRows .ln0, o))
    | 2 => some (if o < 0x40000 then (laneRows .ln1, o) else if o < 0x48000 then (ecRows, o - 0x40000)
                 else if o < 0x50000 then (ecRows, o - 0x48000) else (laneRows .ln1, o))
    | 3 => some (if o < 0x400 then (msRows, o) else if o < 0x500 then (ml2Rows, o - 0x400)
                 else if o < 0x600 then (ml2Rows, o - 0x500) else (msRows, o))
    | 4 => some (if o < 0x30000 then (spRows, o) else (beRows, o))
    | 5 => some (cxRows, o)
    | 6 => some ([], o)
    | 7 => some (rgRows, o)
    | 8 => some (cbRows, o)
    | _ => none

/-- The row of the register at an address; none at an unassigned offset (R27). -/
def rowAt (a : Nat) : Option Row :=
  match blockAt a with
  | none => none
  | some (rows, o) => rows.find? (·.has o)

/-- The word a register holds after a device reset; 0 where no register stands. -/
def resetWord (a : Nat) : BitVec 32 :=
  match rowAt a with
  | none => 0
  | some r => BitVec.ofNat 32 r.reset

/-- Field `lo`, `n` bits wide, of a word. -/
def getField (w : BitVec 32) (lo n : Nat) : Nat := (w.toNat >>> lo) % 2 ^ n

/-- The word with the field `lo`, `n` bits wide, set to `v` modulo its width. -/
def setField (w : BitVec 32) (lo n v : Nat) : BitVec 32 :=
  (w &&& ~~~(BitVec.ofNat 32 (2 ^ n - 1) <<< lo)) ||| ((BitVec.ofNat 32 (v % 2 ^ n)) <<< lo)

/-- A number of `n` bits read as two's complement. -/
def toSigned (n v : Nat) : Int := if v < 2 ^ (n - 1) then (v : Int) else (v : Int) - 2 ^ n

/-- Two's complement of `n` bits. -/
def ofSigned (n : Nat) (v : Int) : Nat := (v % (2 ^ n : Int)).toNat

/-- `v` held between `lo` and `hi`. -/
def clampI (lo hi v : Int) : Int := if v < lo then lo else if hi < v then hi else v

/-- Byte `i` of a little-endian number (R8). -/
def byteOf (v i : Nat) : Nat := (v >>> (8 * i)) % 256

/-- The `n` bytes of a little-endian number, lowest first. -/
def bytesOf (n v : Nat) : List Nat := (List.range n).map (byteOf v)

/-- The little-endian number of a byte list. -/
def ofBytes : List Nat → Nat
  | [] => 0
  | b :: bs => b % 256 + 256 * ofBytes bs

/-- A field of a wide number: `n` bits from bit `lo`. -/
def bitsOf (v lo n : Nat) : Nat := (v >>> lo) % 2 ^ n

/-- A wide number with the field at `lo`, `n` bits, replaced. -/
def putBits (v lo n x : Nat) : Nat := v - (bitsOf v lo n) * 2 ^ lo + (x % 2 ^ n) * 2 ^ lo

end Sys2Proof.Machine
end

