-- ==== Sys2Proof/Machine/Aes.lean ====
section
/-!
DEFINITION. AES-256 on byte lists (FIPS 197), XTS-AES-256 in data units of 4,096 bytes (R358), the AES key wrap of RFC 3394
(R370). A block is a list of 16 bytes in FIPS 197 order.
-/
namespace Sys2Proof.Machine

/-- Multiplication by x in the AES field. -/
def xtime (b : Nat) : Nat := if 128 ≤ b then (2 * b) ^^^ 0x11B else 2 * b

/-- Multiplication in the AES field, over the low `n` bits of the second factor. -/
def gmul : Nat → Nat → Nat → Nat
  | 0, _, _ => 0
  | n + 1, a, b => (if b % 2 = 1 then a else 0) ^^^ gmul n (xtime a) (b / 2)

/-- The AES S-box. -/
def sboxRows0 : List Nat :=
  [0x63,0x7c,0x77,0x7b,0xf2,0x6b,0x6f,0xc5,0x30,0x01,0x67,0x2b,0xfe,0xd7,0xab,0x76,
   0xca,0x82,0xc9,0x7d,0xfa,0x59,0x47,0xf0,0xad,0xd4,0xa2,0xaf,0x9c,0xa4,0x72,0xc0,
   0xb7,0xfd,0x93,0x26,0x36,0x3f,0xf7,0xcc,0x34,0xa5,0xe5,0xf1,0x71,0xd8,0x31,0x15,
   0x04,0xc7,0x23,0xc3,0x18,0x96,0x05,0x9a,0x07,0x12,0x80,0xe2,0xeb,0x27,0xb2,0x75]
def sboxRows1 : List Nat :=
  [0x09,0x83,0x2c,0x1a,0x1b,0x6e,0x5a,0xa0,0x52,0x3b,0xd6,0xb3,0x29,0xe3,0x2f,0x84,
   0x53,0xd1,0x00,0xed,0x20,0xfc,0xb1,0x5b,0x6a,0xcb,0xbe,0x39,0x4a,0x4c,0x58,0xcf,
   0xd0,0xef,0xaa,0xfb,0x43,0x4d,0x33,0x85,0x45,0xf9,0x02,0x7f,0x50,0x3c,0x9f,0xa8,
   0x51,0xa3,0x40,0x8f,0x92,0x9d,0x38,0xf5,0xbc,0xb6,0xda,0x21,0x10,0xff,0xf3,0xd2]
def sboxRows2 : List Nat :=
  [0xcd,0x0c,0x13,0xec,0x5f,0x97,0x44,0x17,0xc4,0xa7,0x7e,0x3d,0x64,0x5d,0x19,0x73,
   0x60,0x81,0x4f,0xdc,0x22,0x2a,0x90,0x88,0x46,0xee,0xb8,0x14,0xde,0x5e,0x0b,0xdb,
   0xe0,0x32,0x3a,0x0a,0x49,0x06,0x24,0x5c,0xc2,0xd3,0xac,0x62,0x91,0x95,0xe4,0x79,
   0xe7,0xc8,0x37,0x6d,0x8d,0xd5,0x4e,0xa9,0x6c,0x56,0xf4,0xea,0x65,0x7a,0xae,0x08]
def sboxRows3 : List Nat :=
  [0xba,0x78,0x25,0x2e,0x1c,0xa6,0xb4,0xc6,0xe8,0xdd,0x74,0x1f,0x4b,0xbd,0x8b,0x8a,
   0x70,0x3e,0xb5,0x66,0x48,0x03,0xf6,0x0e,0x61,0x35,0x57,0xb9,0x86,0xc1,0x1d,0x9e,
   0xe1,0xf8,0x98,0x11,0x69,0xd9,0x8e,0x94,0x9b,0x1e,0x87,0xe9,0xce,0x55,0x28,0xdf,
   0x8c,0xa1,0x89,0x0d,0xbf,0xe6,0x42,0x68,0x41,0x99,0x2d,0x0f,0xb0,0x54,0xbb,0x16]
def sboxTable : List Nat := sboxRows0 ++ sboxRows1 ++ sboxRows2 ++ sboxRows3

/-- The S-box and its inverse. -/
def subByte (b : Nat) : Nat := sboxTable.getD b 0
def invSubByte (b : Nat) : Nat := (sboxTable.findIdx? (· == b)).getD 0

/-- XOR of two byte lists. -/
def xorBytes (a b : List Nat) : List Nat := List.zipWith (· ^^^ ·) a b

/-- The key schedule's words from 8 on: `n` more words, the newest eight kept in `prev` (newest first). -/
def expandKey : Nat → Nat → Nat → List (List Nat) → List (List Nat) → List (List Nat)
  | 0, _, _, _, acc => acc
  | n + 1, i, rcon, prev, acc =>
    let last := prev.headD []
    let first := prev.getD 7 []
    let t := if i % 8 = 0 then
        xorBytes ((last.drop 1 ++ last.take 1).map subByte) [rcon, 0, 0, 0]
      else if i % 8 = 4 then last.map subByte
      else last
    let w := xorBytes first t
    expandKey n (i + 1) (if i % 8 = 0 then xtime rcon else rcon) (w :: prev.take 7) (acc ++ [w])

/-- Byte list to words of four. -/
def fours : Nat → List Nat → List (List Nat)
  | 0, _ => []
  | n + 1, bs => bs.take 4 :: fours n (bs.drop 4)

/-- The 15 round keys of a 32-byte key. -/
def roundKeys (key : List Nat) : List (List Nat) :=
  let w0 := fours 8 key
  let ws := expandKey 52 8 1 w0.reverse w0
  (List.range 15).map fun r => ((ws.drop (4 * r)).take 4).flatten

/-- ShiftRows and its inverse, on bytes in column order. -/
def shiftRows (s : List Nat) : List Nat := (List.range 16).map fun i => s.getD ((i + 4 * (i % 4)) % 16) 0
def invShiftRows (s : List Nat) : List Nat := (List.range 16).map fun i => s.getD ((i + 16 - 4 * (i % 4)) % 16) 0

/-- One column mixed with the coefficients of a circulant row. -/
def mixCol (c : List Nat) (m : List Nat) : List Nat :=
  (List.range 4).map fun r =>
    ((List.range 4).map fun k => gmul 8 (c.getD k 0) (m.getD ((k + 4 - r) % 4) 0)).foldl (· ^^^ ·) 0

/-- MixColumns with the coefficients of a circulant row. -/
def mixColumns (m : List Nat) (s : List Nat) : List Nat := ((fours 4 s).map fun c => mixCol c m).flatten

/-- AES-256 encryption of one block. -/
def aesEncrypt (key block : List Nat) : List Nat :=
  let rks := roundKeys key
  let s := xorBytes block (rks.headD [])
  let s := ((rks.drop 1).take 13).foldl (fun s rk => xorBytes (mixColumns [2, 3, 1, 1] (shiftRows (s.map subByte))) rk) s
  xorBytes (shiftRows (s.map subByte)) (rks.getD 14 [])

/-- AES-256 decryption of one block. -/
def aesDecrypt (key block : List Nat) : List Nat :=
  let rks := roundKeys key
  let s := xorBytes block (rks.getD 14 [])
  let s := (((rks.drop 1).take 13).reverse).foldl
    (fun s rk => mixColumns [14, 11, 13, 9] (xorBytes ((invShiftRows s).map invSubByte) rk)) s
  xorBytes ((invShiftRows s).map invSubByte) (rks.headD [])

/-- The tweak of the next block: multiplication by alpha, on the little-endian number (IEEE 1619). -/
def nextTweak (t : Nat) : Nat := if 2 ^ 127 ≤ t then ((2 * t) % 2 ^ 128) ^^^ 0x87 else 2 * t

/-- `n` blocks of a data unit, from a tweak, lowest first (IEEE 1619). -/
def xtsRun (enc : Bool) (k1 : List Nat) : Nat → Nat → Nat → Nat
  | 0, _, _ => 0
  | n + 1, t, data =>
    let b := bytesOf 16 ((data % 2 ^ 128) ^^^ t)
    let c := (ofBytes (if enc then aesEncrypt k1 b else aesDecrypt k1 b)) ^^^ t
    c + 2 ^ 128 * xtsRun enc k1 n (nextTweak t) (data / 2 ^ 128)

/-- The tweak value of a data unit: LBA in bytes 0 to 7, NSID in bytes 8 to 11 (R358). -/
def xtsTweak (nsid lba : Nat) : Nat := lba % 2 ^ 64 + (nsid % 2 ^ 32) * 2 ^ 64

/-- One data unit of 4,096 bytes under a key set: bytes 0 to 31 K1, bytes 32 to 63 K2 (R358). -/
def xtsUnit (enc : Bool) (keySet nsid lba data : Nat) : Nat :=
  let k1 := bytesOf 32 keySet
  let k2 := bytesOf 32 (keySet / 2 ^ 256)
  xtsRun enc k1 256 (ofBytes (aesEncrypt k2 (bytesOf 16 (xtsTweak nsid lba)))) data

/-- One 16-byte block under K1 (R360 operations 3 and 4). -/
def aesBlock (enc : Bool) (keySet block : Nat) : Nat :=
  let k1 := bytesOf 32 keySet
  ofBytes (if enc then aesEncrypt k1 (bytesOf 16 block) else aesDecrypt k1 (bytesOf 16 block))

/-- Byte list to eights. -/
def eights : Nat → List Nat → List (List Nat)
  | 0, _ => []
  | n + 1, bs => bs.take 8 :: eights n (bs.drop 8)

/-- An 8-byte big-endian number. -/
def be8 (v : Nat) : List Nat := (bytesOf 8 v).reverse

/-- One pass of RFC 3394 wrapping over the blocks, from step `t`. -/
def wrapPass (kek : List Nat) : Nat → List Nat → List (List Nat) → List Nat × List (List Nat)
  | _, a, [] => (a, [])
  | t, a, r :: rs =>
    let b := aesEncrypt kek (a ++ r)
    let x := wrapPass kek (t + 1) (xorBytes (b.take 8) (be8 t)) rs
    (x.1, b.drop 8 :: x.2)

/-- One pass of RFC 3394 unwrapping over the blocks last first, from step `t` downwards. -/
def unwrapPass (kek : List Nat) : Nat → List Nat → List (List Nat) → List Nat × List (List Nat)
  | _, a, [] => (a, [])
  | t, a, r :: rs =>
    let b := aesDecrypt kek (xorBytes a (be8 t) ++ r)
    let x := unwrapPass kek (t - 1) (b.take 8) rs
    (x.1, b.drop 8 :: x.2)

/-- RFC 3394 wrap of `8 n` bytes with the default initial value. -/
def keyWrap (kek : List Nat) (n : Nat) (plain : List Nat) : List Nat :=
  let start := (List.replicate 8 0xA6, eights n plain)
  let r := (List.range 6).foldl (fun (x : List Nat × List (List Nat)) j => wrapPass kek (n * j + 1) x.1 x.2) start
  r.1 ++ r.2.flatten

/-- RFC 3394 unwrap; none where the integrity check fails. -/
def keyUnwrap (kek : List Nat) (n : Nat) (wrapped : List Nat) : Option (List Nat) :=
  let start := (wrapped.take 8, (eights n (wrapped.drop 8)).reverse)
  let r := (List.range 6).foldl (fun (x : List Nat × List (List Nat)) j => unwrapPass kek (n * (6 - j)) x.1 x.2) start
  if r.1 = List.replicate 8 0xA6 then some r.2.reverse.flatten else none

end Sys2Proof.Machine
end

