-- ==== Sys2Proof/Machine/Codes.lean ====
section
/-!
DEFINITION. The codes of the spec: CRC-32C (R344), the check code of SRAM and DRAM (R333 to R335).
-/
namespace Sys2Proof.Machine

/-! ### CRC-32C (Castagnoli, as RFC 3720 defines it; R344) -/

/-- One bit of the reflected CRC-32C. -/
def crc32cBit (c : Nat) : Nat := if c % 2 = 1 then (c / 2) ^^^ 0x82F63B78 else c / 2

/-- One byte of the reflected CRC-32C. -/
def crc32cByte (c b : Nat) : Nat :=
  crc32cBit (crc32cBit (crc32cBit (crc32cBit (crc32cBit (crc32cBit (crc32cBit (crc32cBit (c ^^^ (b % 256)))))))))

/-- CRC-32C of a byte list. -/
def crc32c (bs : List Nat) : Nat := (bs.foldl crc32cByte 0xFFFFFFFF) ^^^ 0xFFFFFFFF

/-- The register after `n` bytes of the little-endian number `v`. -/
def crc32cRun : Nat → Nat → Nat → Nat
  | 0, _, c => c
  | n + 1, v, c => crc32cRun n (v / 256) (crc32cByte c v)

/-- CRC-32C of the `n` bytes of a little-endian number. -/
def crc32cNum (n v : Nat) : Nat := crc32cRun n v 0xFFFFFFFF ^^^ 0xFFFFFFFF

/-! ### The check code (R333 to R335) -/

/-- The number of 1 bits among the low `n`. -/
def popBits : Nat → Nat → Nat
  | 0, _ => 0
  | n + 1, v => v % 2 + popBits n (v / 2)

/-- The data columns H(0) to H(63) (R334). -/
def eccCols : List Nat :=
  ((List.range 256).filter fun v => popBits 8 v == 3) ++ (((List.range 256).filter fun v => popBits 8 v == 5).take 8)

/-- XOR of the columns over the set bits of `v`, lowest first. -/
def xorCols : List Nat → Nat → Nat
  | [], _ => 0
  | c :: cs, v => (if v % 2 = 1 then c else 0) ^^^ xorCols cs (v / 2)

/-- The address hash h: XOR of j + 1 over every set bit j of the word address (R334). -/
def eccHash (a : Nat) : Nat := xorCols ((List.range 30).map (· + 1)) a

/-- The hash term E (R334). -/
def eccE (a : Nat) : Nat := (popBits 7 (eccHash a) % 2) * 128 + eccHash a

/-- The check bits of a data word at a word address (R334). -/
def eccCheck (a data : Nat) : Nat := xorCols eccCols data ^^^ eccE a

/-- What a syndrome says (R335). -/
inductive Syndrome where
  | good
  | dataBit (i : Nat)
  | checkBit
  | poisoned
  | uncorrectable
  deriving DecidableEq, Repr

/-- The syndrome decoded (R335). -/
def decodeSyndrome (s : Nat) : Syndrome :=
  if s = 0 then .good
  else if s = 0xFF then .poisoned
  else match eccCols.findIdx? (· == s) with
    | some i => .dataBit i
    | none => if popBits 8 s = 1 then .checkBit else .uncorrectable

end Sys2Proof.Machine
end

