-- ==== Sys2Proof/Config.lean ====
section
/-!
DEFINITION. What the spec leaves open: free values, as constants without a body. No proof can see what they are.
-/
namespace Sys2Proof

/-- The free values of the model, applied to the counter the state holds. Nothing constrains them. -/
opaque Config.freeValue : Nat → Nat

/-- The key-encryption key: 256 bits derived at each boot from the device secret in the fuses (R370). No engine but the
security core's key-wrap register holds it, and the spec gives no value. -/
opaque Config.kek : Nat

/-- The whole degrees RG_THERM.DEGC shows for a divider code and a B (R407): the spec gives the real-valued temperature and
states no rounding of it. -/
opaque Config.thermistorDegC : Nat → Nat → Nat

/-- The bands of a lane: the drive's geometry, which the spec leaves to the drive maker (R123, R124). -/
opaque Config.bandCount : Nat → Nat

/-- The drive's capacity in allocation units of 65,536 blocks (R65): left to the drive maker. -/
opaque Config.capacityUnits : Nat

/-- ID and IQ as fractions of the current full scale, from the codes of channels 0 to 2 at an electrical angle (R272, R274): the spec states no
precision of the transform. -/
opaque Config.park : Nat → Nat → Nat → Nat → Int × Int

/-- The voltages of phases U, V and W of a vector at an electrical angle (R274, R275): the spec states no precision of the inverse transform. -/
opaque Config.phaseVoltages : Int → Int → Nat → Int × (Int × Int)

/-- Where the ROM's dispatch word of an operation code points (R323, R324): the spec gives it for code 0x02 only, in the example of R328. -/
opaque Config.romEntry : Nat → Nat

end Sys2Proof
end

