-- ==== Sys2Proof/Machine/Sparse.lean ====
section
/-!
DEFINITION. Sparse tables: a list of (key, value) pairs with keys strictly rising and no value equal to what an unlisted key
reads as, so that equal tables are equal data. What an unlisted key reads as is the function `dflt`.
-/
namespace Sys2Proof.Machine

/-- The value at key `k`. -/
def Sparse.get {α : Type} (dflt : Nat → α) : List (Nat × α) → Nat → α
  | [], k => dflt k
  | (k', v) :: t, k => if k = k' then v else Sparse.get dflt t k

/-- The table with `(k, v)` listed, in key order. -/
def Sparse.ins {α : Type} : List (Nat × α) → Nat → α → List (Nat × α)
  | [], k, v => [(k, v)]
  | (k', v') :: t, k, v =>
    if k < k' then (k, v) :: (k', v') :: t
    else if k = k' then (k, v) :: t
    else (k', v') :: Sparse.ins t k v

/-- The table with key `k` unlisted. -/
def Sparse.del {α : Type} : List (Nat × α) → Nat → List (Nat × α)
  | [], _ => []
  | (k', v') :: t, k => if k = k' then Sparse.del t k else (k', v') :: Sparse.del t k

/-- The table with key `k` reading `v`, in canonical form. -/
def Sparse.put {α : Type} [DecidableEq α] (dflt : Nat → α) (t : List (Nat × α)) (k : Nat) (v : α) : List (Nat × α) :=
  if v = dflt k then Sparse.del t k else Sparse.ins t k v

/-- Every listed key is above `n`, keys rise strictly, and no value is the unlisted one. -/
def Sparse.okFrom {α : Type} [DecidableEq α] (dflt : Nat → α) : Option Nat → List (Nat × α) → Bool
  | _, [] => true
  | lo, (k, v) :: t =>
    (match lo with | none => true | some n => decide (n < k)) && decide (v ≠ dflt k) && Sparse.okFrom dflt (some k) t

/-- The canonical form. -/
def Sparse.ok {α : Type} [DecidableEq α] (dflt : Nat → α) (t : List (Nat × α)) : Bool := Sparse.okFrom dflt none t

/-- A count at key `k`, 0 where unlisted. -/
def Sparse.cnt (t : List (Nat × Nat)) (k : Nat) : Nat := Sparse.get (fun _ => 0) t k

/-- The table with the count at `k` set to `n`. -/
def Sparse.setCnt (t : List (Nat × Nat)) (k n : Nat) : List (Nat × Nat) := Sparse.put (fun _ => 0) t k n

/-- The first value listed under `k`. -/
def Sparse.find {α : Type} (t : List (Nat × α)) (k : Nat) : Option α := (t.find? fun p => p.1 == k).map (·.2)

end Sys2Proof.Machine
end

