-- ==== Sys2Proof/Machine/StateShared.lean ====
section
/-!
DEFINITION. The parts of the state that belong to no lane and not to the NVMe logic: fabric, memory, buffer pool, caches,
cipher engine, power and time, regulator, logbook, boot, crown port, NOR and fuses. Addressable registers are not repeated
here: their one home is the register file of the device (Machine/State.lean).
-/
namespace Sys2Proof.Machine

/-! ### Fabric (R30 to R33) -/

/-- A request presented at a contended point and not yet granted. `waited` counts the grants the point has made since. -/
structure FabReq where
  id : Nat
  who : Requester
  urgent : Bool
  point : ContPoint
  addr : Nat
  acc : Access
  waited : Nat
  deriving DecidableEq, Repr

/-- The fabric. -/
structure Fabric where
  /-- requests waiting at a contended point, oldest first -/
  waiting : List FabReq := []
  /-- requests granted and not yet answered, by request number (R31) -/
  granted : List Nat := []
  /-- requests that timed out, whose late response is to be discarded (R31) -/
  timedOut : List Nat := []
  /-- the rotation pointer of each contended point that has left LN0 (R32) -/
  pointers : List (ContPoint × Party) := []
  deriving DecidableEq, Repr

/-! ### Memory (R332 to R347) -/

/-- A buffer page as it lies in SRAM: 4,096 data bytes and the 64-byte side area of R344, each one little-endian number. -/
structure Page where
  data : Nat := 0
  side : Nat := 0
  deriving DecidableEq, Repr

/-- SRAM and DRAM contents (R333, R339). The pool's pages are kept as pages, every other byte as a byte. -/
structure Mem where
  /-- bytes outside the pool's pages and side areas; an unlisted byte is the 0 of the fill (R339) -/
  bytes : List Host.Cell := []
  /-- pages of the pool whose bytes are not all 0, by page number -/
  pages : List (Nat × Page) := []
  /-- for each word whose stored check bits are not the fresh ones: word byte address and the difference (R335) -/
  bad : List (Nat × Nat) := []
  /-- words read with a corrected syndrome and not yet written back (R336) -/
  writeback : List Nat := []
  /-- the scrubber's next SRAM and DRAM byte address (R341) -/
  scrubSram : Nat := 0x10000000
  scrubDram : Nat := 0x800000000
  deriving DecidableEq, Repr

/-- A reservation granted, with the pages of it not yet allocated (R346). -/
structure PoolResv where
  id : Nat
  party : Party
  left : Nat
  deriving DecidableEq, Repr

/-- A reservation waiting (R346). `logged` once event 0x400A has been logged for it. -/
structure PoolWait where
  id : Nat
  party : Party
  n : Nat
  urgent : Bool
  logged : Bool
  deriving DecidableEq, Repr

/-- The buffer-pool allocator (R346, R347). -/
structure Pool where
  /-- the free list from its head, as runs (first page, length) -/
  free : List (Nat × Nat) := []
  /-- pages allocated, with the party that holds each -/
  alloc : List (Nat × Party) := []
  resv : List PoolResv := []
  waiting : List PoolWait := []
  /-- the read standby of each lane: allocated pages (R347) -/
  standby0 : List Nat := []
  standby1 : List Nat := []
  deriving DecidableEq, Repr

/-! ### L2 caches (R348 to R352) -/

/-- A valid line: its place, the address of its first byte, its eight words and the difference of each word's check bits
from the fresh ones (R348). -/
structure CacheLine where
  way : Nat
  set : Nat
  addr : Nat
  dirty : Bool
  tagBad : Bool
  words : List Nat
  bad : List Nat
  deriving DecidableEq, Repr

/-- A core access that waits for a line fill (R351). -/
structure FillWait where
  req : Option Nat
  addr : Nat
  /-- for a store: length in bytes and data -/
  store : Option (Nat × Nat)
  deriving DecidableEq, Repr

/-- A line fill in progress: the line's address and the accesses that wait, oldest first. -/
structure Fill where
  addr : Nat
  waiters : List FillWait
  deriving DecidableEq, Repr

/-- A cache maintenance operation asked for by a core: OP, the address, set and way it took (R350). -/
structure CacheOp where
  core : Nat
  op : Nat
  addr : Nat
  set : Nat
  way : Nat
  deriving DecidableEq, Repr

/-- One L2 cache. -/
structure Cache where
  lines : List CacheLine := []
  fills : List Fill := []
  /-- operations pending or running, at most one a core -/
  ops : List CacheOp := []
  /-- the core after which the rotating order of R350 goes on -/
  lastCore : Nat := 0
  /-- corrected errors counted against each way in the present window (R349) -/
  wayErrs : List (Nat × Nat) := []
  /-- ways whose disable has started and not completed, with whether a tag error started it -/
  disabling : List (Nat × Bool) := []
  deriving DecidableEq, Repr

/-! ### Cipher (R357 to R375) -/

/-- A queued cipher entry, with the slot and generation it took (R360, R361). -/
structure CipherEntry where
  op : Nat
  urgent : Bool
  byslot : Bool
  srcStream : Bool
  dstStream : Bool
  len : Nat
  nsid : Nat
  epoch : Nat
  slot : Nat
  gen : Nat
  src : Nat
  dst : Nat
  lba : Nat
  tag : Nat
  deriving DecidableEq, Repr

/-- A message in service or suspended: its source and its entry (R363, R364). -/
structure CipherMsg where
  source : Nat
  entry : CipherEntry
  deriving DecidableEq, Repr

/-- A completion: tag, status, units (R360). -/
structure CipherCpl where
  tag : Nat
  status : Nat
  units : Nat
  deriving DecidableEq, Repr

/-- The states of a key slot (R365). -/
inductive SlotState where
  | empty
  | valid
  | retiring
  | erasing
  deriving DecidableEq, Repr

/-- A key slot (R365). -/
structure KeySlot where
  st : SlotState := .empty
  gen : Nat := 0
  setA : Nat := 0
  setB : Nat := 0
  nsid : Nat := 0
  epoch : Nat := 0
  tenant : Nat := 0
  inCur : Nat := 0
  inPrev : Nat := 0
  /-- event 0x5004 already logged for this rewrite (R367) -/
  drainLogged : Bool := false
  deriving DecidableEq, Repr

/-- The cipher engine. -/
structure Cipher where
  q0 : List CipherEntry := []
  q1 : List CipherEntry := []
  q2 : List CipherEntry := []
  q3 : List CipherEntry := []
  service : Option CipherMsg := none
  suspended : Option CipherMsg := none
  hcpl : List CipherCpl := []
  scpl : List CipherCpl := []
  /-- completions for the lanes' paths: source (0 LN0, 1 LN1) and completion -/
  lcpl : List (Nat × CipherCpl) := []
  slots : List (Nat × KeySlot) := []
  /-- the first permitted JTAG access has been made since the device reset (R28) -/
  jtagSeen : Bool := false
  deriving DecidableEq, Repr

/-- What the Oprok core keeps for the namespaces outside the device's volatile memory: the stored blob of each namespace and
its lowest loadable epoch (R369). -/
structure KeyStore where
  blobs : List (Nat × Nat) := []
  lowest : List (Nat × Nat) := []
  deriving DecidableEq, Repr

/-! ### Power and time (R376 to R403) -/

/-- The direction and place of a running transition: the stage of R381 now running, and the state aimed at. -/
structure PmRun where
  stage : Nat
  up : Bool
  target : Nat
  forced : Bool
  deriving DecidableEq, Repr

/-- Where the device is about Retain (R385, R387). -/
inductive RetainPhase where
  | out
  /-- between R384 holding and the first gating -/
  | entering
  /-- gated, the chronometer not yet switched -/
  | gated
  | inside
  /-- woken, not yet restored -/
  | waking
  deriving DecidableEq, Repr

/-- Wake detection on the crown line in Retain (R391). -/
inductive WakeOsc where
  | off
  | running
  deriving DecidableEq, Repr

/-- Power-state management. -/
structure Power where
  /-- a request made by TARGET and not yet begun -/
  request : Option Nat := none
  run : Option PmRun := none
  /-- EN bits cleared by stage 1 and by stage 4, to be restored: channel and write path of LN0 and LN1; servo and power stage of each -/
  savedEn : List Bool := []
  savedServo : List Bool := []
  /-- the track each unloaded lane held before its unload (R381) -/
  heldTrack0 : Option Nat := none
  heldTrack1 : Option Nat := none
  retain : RetainPhase := .out
  osc : WakeOsc := .off
  /-- RG_RETIDLE.TIME has elapsed in Halt (R384) -/
  idleExpired : Bool := false
  /-- a Force Power State aims at Retain (R383) -/
  forcedRetain : Bool := false
  /-- chronometer at the end of the last transition (R48) -/
  lastEnd : Nat := 0
  /-- an autonomous step down waits, with its target (R71, R48) -/
  autoTarget : Option Nat := none
  /-- a forced drain runs, with the target state (R83) -/
  drain : Option Nat := none
  /-- chronometer at which its drain limit expires (R83) -/
  drainAt : Nat := 0
  /-- a wake source has fired since the first gating (R385) -/
  woken : Bool := false
  /-- the parities of the retention groups stored at Retain entry, bit k in the row order of R389 (R385) -/
  groupParity : Nat := 0
  /-- the request is a forced one (R383) -/
  forcedReq : Bool := false
  /-- chronometer at Retain entry -/
  retainAt : Nat := 0
  deriving DecidableEq, Repr

/-- The usage meters of one namespace (R77, R398). -/
structure Meter where
  bytesRead : Nat := 0
  bytesWritten : Nat := 0
  busyUs : Nat := 0
  reads : Nat := 0
  writes : Nat := 0
  others : Nat := 0
  deriving DecidableEq, Repr

/-- A snapshot of every meter, with its sequence (R400). -/
structure UsageSnap where
  seq : Nat := 0
  meters : List (Nat × Meter) := []
  deriving DecidableEq, Repr

/-- The chronometer and the time anchor, held in the always-on domain (R392, R395, R396). -/
structure Chron where
  chr : Nat := 0
  frac : Nat := 0
  /-- (host milliseconds, chronometer) of the last Set Features Timestamp or SET_TIME -/
  anchor : Option (Nat × Nat) := none
  /-- chronometer at this boot's start -/
  bootStart : Nat := 0
  /-- the chronometer was lost: the next boot restarts it from NOR (R395) -/
  lost : Bool := true
  /-- first and last sequence of the usage snapshots taken and not yet durable (R400) -/
  unsaved : Option (Nat × Nat) := none
  /-- RG_CHRH latched by each initiator's last read of RG_CHRL (R392) -/
  latchH : List (Initiator × Nat) := []
  deriving DecidableEq, Repr

/-! ### Regulator (R404 to R424) -/

/-- Thermal control and sensor counting (R405 to R417). -/
structure Thermal where
  /-- consecutive out-of-range readings of each die diode -/
  diodeOut : List (Nat × Nat) := []
  /-- consecutive out-of-range and in-range means of each thermistor -/
  thermOut : List (Nat × Nat) := []
  thermIn : List (Nat × Nat) := []
  /-- consecutive low and high conversions of each supply channel, 16 to 25 -/
  supLow : List (Nat × Nat) := []
  supHigh : List (Nat × Nat) := []
  /-- consecutive readings at or above warning, and at or below warning − 5 °C -/
  warnUp : Nat := 0
  warnDown : Nat := 0
  /-- computed steps of the latest consecutive readings at or above TSET, newest first, at most 4 -/
  hot : List Nat := []
  thrDown : Nat := 0
  /-- computed steps of the latest readings while throttling, newest first, at most 4 -/
  recent : List Nat := []
  /-- consecutive readings computing below the step -/
  below : Nat := 0
  shutUp : Nat := 0
  /-- the throttle step s of R413, before FORCE -/
  step : Nat := 0
  /-- shutdown entered (R415) or a supply failure stands (R409) -/
  shutdown : Bool := false
  supplyFail : Bool := false
  /-- the failing channel and code kept in the always-on domain (R409) -/
  supplyKept : Option (Nat × Nat) := none
  /-- chronometer since which the composite has stayed below 100 °C in shutdown (R416) -/
  coolSince : Option Nat := none
  /-- the throttle event open since step 1: start, peak code, deepest step (R417) -/
  event : Option (Nat × Nat × Nat) := none
  /-- which side of each threshold the Temperature Threshold feature last saw (R412): sensor ↦ 0 between, 1 over, 2 under -/
  side : List (Nat × Nat) := []
  /-- the bandgap trim (R418) -/
  bandgapTrim : Int := 0
  deriving DecidableEq, Repr

/-- The log 0xC3 record (R79, R415, R417), kept in NOR when written. -/
structure ThermRec where
  bins52 : List (Nat × Nat) := []
  bins41 : List (Nat × Nat) := []
  highest : Option Nat := none
  lowest : Option Nat := none
  events : List (Nat × Nat × Nat × Nat) := []
  eventCount : Nat := 0
  shutdowns : Nat := 0
  /-- highest composite of the present minute -/
  minuteMax : Option Nat := none
  deriving DecidableEq, Repr

/-- A waiting calibration request (R420). -/
structure CalReq where
  lane : Lane
  kind : Nat
  head : Nat
  duration : Nat
  since : Nat
  logged : Bool
  deriving DecidableEq, Repr

/-- The calibration scheduler. -/
structure CalSched where
  waiting : List CalReq := []
  /-- the grant of each lane: kind, head, start -/
  grant0 : Option (Nat × Nat × Nat) := none
  grant1 : Option (Nat × Nat × Nat) := none
  /-- chronometer start of each head's previous grant, key 16·lane + head -/
  lastGrant : List (Nat × Nat) := []
  /-- no grant for the lane before this chronometer value, after an expiry in service mode -/
  bar0 : Nat := 0
  bar1 : Nat := 0
  deriving DecidableEq, Repr

/-- Media duty of each lane in the present 10 ms window, in µs, and whether dispatch is barred (R414). -/
structure Duty where
  busy0 : Nat := 0
  busy1 : Nat := 0
  barred0 : Bool := false
  barred1 : Bool := false
  deriving DecidableEq, Repr

/-! ### Logbook (R425 to R429, R481) -/

/-- A logbook entry (R425). `native` is the native code in parameter bytes 34 and 35 at level 41 (R428). -/
structure LogEntry where
  seq : Nat
  code : Nat
  severity : Nat
  source : Nat
  chr : Nat
  seconds : Nat
  suppressed : Nat
  flags : Nat
  boot : Nat
  params : List Nat
  native : Option Nat
  deriving DecidableEq, Repr

/-- The logbook's volatile part. -/
structure Logbook where
  fifo : List LogEntry := []
  /-- chronometer + 1 of the last stored entry of a rate-limited code and scope (R481) -/
  last : List (Nat × Nat) := []
  suppressed : List (Nat × Nat) := []
  /-- entries lost to a full FIFO since the last stored entry (R427) -/
  lost : Nat := 0
  /-- an unaccounted gap stands before the next entry (R395) -/
  gap : Bool := false
  /-- a program of the pending entries is due (R429) -/
  due : Bool := false
  /-- filled NOR blocks awaiting their copy to the mirror -/
  toMirror : List Nat := []
  /-- each engine's copy of RG_LOGP: engine and word (R427, R431) -/
  staged : List ((Initiator × Nat) × Nat) := []
  /-- codes held for the next boot that runs regulator firmware: code, parameters (R459) -/
  held : List (Nat × List Nat) := []
  deriving DecidableEq, Repr

/-! ### Boot, update, crown port (R434 to R464) -/

/-- How far the boot has come (R41, R441). -/
inductive BootPhase where
  /-- in reset or awaiting the root PLL -/
  | awaitLock
  /-- waiting for the Oprok verdict on copy A or B -/
  | verdictA
  | verdictB
  | recovery
  /-- cores released -/
  | released
  /-- held by R23, R409 or R415 until the reset each names -/
  | held
  deriving DecidableEq, Repr

/-- Why the activation work of stage 6, or another long operation, runs. -/
inductive LongOp where
  | none
  | verify
  | copy
  | storeRecover (option : Nat)
  deriving DecidableEq, Repr

/-- Activation (R455, R119). -/
inductive Activation where
  | none
  | draining
  | switching
  deriving DecidableEq, Repr

/-- Boot and update. -/
structure Boot where
  phase : BootPhase := .awaitLock
  obs : BootObs := {}
  straps : Straps := {}
  /-- the CB lock of R43 -/
  locked : Bool := false
  /-- a retention failure of the calibre group reruns R41 to R43 (R44) -/
  reload : Bool := false
  /-- channels the analogue-limits record of the calibre lists (R405) -/
  alim : List Nat := []
  /-- result codes of the two copies while a boot examines them -/
  resultA : Nat := 1
  resultB : Nat := 1
  long : LongOp := .none
  act : Activation := .none
  /-- chronometer at the start of the activation drain -/
  actAt : Nat := 0
  /-- the calibre buffer of CAL_CHUNK, as 4 KiB chunks -/
  calBuf : List (Nat × Nat) := []
  /-- Run microseconds counted in probation since the last save (R456) -/
  probationUs : Nat := 0
  /-- power failed in one of the update stages 1 to 5, and the stage has not moved since (R450) -/
  resumed : Bool := false
  /-- the revision running, first 8 bytes (R438) -/
  revision : Nat := 0
  deriving DecidableEq, Repr

/-- A Solind frame (R446). -/
structure Frame where
  kind : Nat
  seq : Nat
  code : Nat
  payload : List Nat
  deriving DecidableEq, Repr

/-- The crown port (R445 to R449). -/
structure Crown where
  rateIdx : Nat := 0
  /-- a rate agreed by SET_BAUD: the response's sequence number and the rate index (R448) -/
  newRate : Option (Nat × Nat) := none
  /-- no valid frame yet at a new rate -/
  unproven : Bool := false
  /-- the sequence number expected from the station, and the device's next -/
  rxNext : Nat := 0
  txNext : Nat := 0
  /-- device frames sent and not acknowledged, oldest first, with retransmissions made -/
  unacked : List (Frame × Nat) := []
  /-- frames waiting for one of the four places (R447) -/
  queued : List Frame := []
  session : Bool := false
  awaitHello : Bool := true
  wake : Bool := false
  /-- the sequence of the RESET response whose ACK resets the device (R449) -/
  resetOn : Option Nat := none
  /-- chronometer at the last valid frame -/
  lastFrame : Nat := 0
  /-- a partly received frame stands (R446) -/
  partFrame : Bool := false
  deriving DecidableEq, Repr

/-- A boot record (R442). -/
structure BootRec where
  seq : Nat
  active : Nat
  pending : Option Nat
  pboots : Nat
  stage : Nat
  prun : Nat
  stagedLen : Nat
  stagedId : Nat
  epoch : Nat
  window : Nat
  /-- flags: bit 0 staged verified, bit 1 slot A rejected, bit 2 slot B rejected -/
  flags : Nat
  deriving DecidableEq, Repr

/-- Settings: one half of the NOR settings region. -/
structure Settings where
  schema : Nat
  body : Nat
  deriving DecidableEq, Repr

/-- The NOR flash (R434). Byte regions are kept as 4 KiB chunks, unlisted chunks erased (every byte 0xFF). -/
structure Nor where
  calA : List (Nat × Nat) := []
  calB : List (Nat × Nat) := []
  slotA : List (Nat × Nat) := []
  slotB : List (Nat × Nat) := []
  staging : List (Nat × Nat) := []
  /-- the boot record in force, and the older copy (R442) -/
  bootRec : Option BootRec := none
  bootRecOld : Option BootRec := none
  curSettings : Option Settings := none
  savedSettings : Option Settings := none
  /-- the chronometer record of R395 -/
  chronRec : Nat := 0
  /-- the last usage snapshot written (R400) -/
  usage : UsageSnap := {}
  therm : ThermRec := {}
  /-- the logbook ring: slot ↦ entry, and the next slot (R429) -/
  log : List (Nat × LogEntry) := []
  logNext : Nat := 0
  /-- the next sequence number to give (R425) -/
  logSeq : Nat := 1
  /-- last chunk of the download journal, with the chunk's CRC (R451) -/
  journal : List (Nat × Nat) := []
  deriving DecidableEq, Repr

/-- The fuse bank and what the boot header's keys give against it (R435, R436). -/
structure Otp where
  /-- bit k: key k of the boot header is present and its SHA-384 equals fused hash k -/
  keyMatch : Nat := 0
  revoked : Nat := 0
  svn : Nat := 0
  jtagLock : Bool := false
  /-- an uncorrectable word in the hashes, the revocation bits or the security version -/
  bad : Bool := false
  deriving DecidableEq, Repr

/-- EMRET_N at the ball (R471, R264). -/
inductive Emret where
  | highZ
  | high
  | low
  deriving DecidableEq, Repr

/-- What the always-on domain keeps (R23, R377, R391, R444). -/
structure Aon where
  /-- the cause of a held state of R23, reported by the reset that ends it -/
  heldCause : Option Nat := none
  boots : Nat := 0
  /-- supplies of groups B to D are removed (R377) -/
  off : Bool := false
  /-- a start command of the spindle has been accepted since power-on (R271) -/
  spun : Bool := false
  deriving DecidableEq, Repr

end Sys2Proof.Machine
end

