-- ==== Sys2Proof/Machine/StateHost.lean ====
section
/-!
DEFINITION. The state of the host section: controllers, queues, fetched commands, the overlap table, the store's map in DRAM and
the journal's pending records; and the medium: bands, journal, checkpoints.
-/
namespace Sys2Proof.Machine

/-! ### Namespaces (R52, R63 to R66) -/

/-- A reservation of a namespace (R87): the type and holder, registrants with their keys, persistence. -/
structure Resv where
  rtype : Nat := 0
  holder : Option Nat := none
  regs : List (Nat × Nat) := []
  gen : Nat := 0
  ptpl : Bool := false
  deriving DecidableEq, Repr

/-- An existing namespace, as NOR keeps it. -/
structure Ns where
  zoned : Bool := false
  /-- LBA format 0 to 2, protection type 0 to 3, and protection information in the first 8 metadata bytes (R63) -/
  fmt : Nat := 0
  pit : Nat := 0
  piFirst : Bool := false
  blocks : Nat := 0
  /-- controllers the namespace is attached to: bit 0 controller 0, bit 1 controller 1 (R52) -/
  attached : Nat := 0
  epoch : Nat := 0
  /-- a deferred error is pending (R112) -/
  deferred : Bool := false
  res : Resv := {}
  deriving DecidableEq, Repr

/-- An entry of log 0xC0 (R76). -/
structure DefErr where
  nsid : Nat
  delivered : Bool
  lane : Nat
  head : Nat
  lba : Nat
  n : Nat
  stamp : Nat
  chr : Nat
  deriving DecidableEq, Repr

/-- The Format NVM or Sanitize that runs or ran last (R67 to R69, R80). -/
structure EraseRec where
  /-- 0 none, 1 running, 2 complete, 3 failed, 4 resuming after power loss -/
  state : Nat := 0
  action : Nat := 0
  nsid : Nat := 0
  done : Nat := 0
  total : Nat := 0
  records : Nat := 0
  cycles : Nat := 0
  chr : Nat := 0
  /-- Format NVM: LBA format, protection type and place; Sanitize: passes, pattern, invert, no-deallocate -/
  fmt : Nat := 0
  pit : Nat := 0
  piFirst : Bool := false
  passes : Nat := 0
  pattern : Nat := 0
  invert : Bool := false
  ndas : Bool := false
  deriving DecidableEq, Repr

/-- What NOR keeps for the host section (R65, R69, R76, R112) and the life counts of R74. -/
structure HostNor where
  nss : List (Nat × Ns) := []
  /-- namespace 1 has been made at first power-up (R65) -/
  made : Bool := false
  /-- the highest key epoch each NSID has had -/
  epochs : List (Nat × Nat) := []
  deferred : List DefErr := []
  deferredTotal : Nat := 0
  sanitize : EraseRec := {}
  format : EraseRec := {}
  spindleStarts : Nat := 0
  headLoads : Nat := 0
  recovered : Nat := 0
  losses : Nat := 0
  relocated : Nat := 0
  deriving DecidableEq, Repr

/-! ### The store (R123 to R161) -/

/-- Where a block's newest copy is (R131, R132, R155). -/
inductive Loc where
  | unwritten
  | lost
  /-- written with an overwrite pattern by a Sanitize with No-Deallocate After Sanitize (R156) -/
  | fill (pattern : Nat)
  | at_ (band index : Nat)
  deriving DecidableEq, Repr

/-- A run of a split chunk (R132). -/
structure Run where
  off : Nat
  len : Nat
  loc : Loc
  deriving DecidableEq, Repr

/-- A chunk-table entry (R131). -/
inductive Chunk where
  | unwritten
  | whole (band index : Nat)
  | split (runs : List Run)
  deriving DecidableEq, Repr

/-- Zone states, as Report Zones codes them. -/
inductive ZState where
  | empty
  | implicitOpen
  | explicitOpen
  | closed
  | full
  | readOnly
  | offline
  deriving DecidableEq, Repr

/-- An NVMe zone: its state as carried out, and as the fetched commands will leave it (R96, R147). -/
structure Zone where
  st : ZState := .empty
  /-- write pointer, from the zone's start -/
  wp : Nat := 0
  cap : Nat := 65536
  band : Option Nat := none
  finished : Bool := false
  fst : ZState := .empty
  fwp : Nat := 0
  fcap : Nat := 65536
  deriving DecidableEq, Repr

/-- A band that is not free (R124, R125). -/
inductive BandSt where
  | opened
  | closed
  | verified
  /-- freed, its band-free record not committed or its blocks still needed (R140, R101) -/
  | freeing
  deriving DecidableEq, Repr

/-- A band's row in the band table. -/
structure Band where
  lane : Lane
  head : Nat
  st : BandSt
  /-- NSID of the owning zone, or 0 for the pool (R127) -/
  nsid : Nat
  zslba : Nat
  slots : Nat
  dmax : Nat
  /-- next data-class index -/
  next : Nat
  /-- units in the band, by now -/
  units : Nat
  /-- first in line for garbage collection (R151) -/
  first : Bool := false
  /-- a unit has been turned away: it closes when its scheduled units have ended (R128, R150) -/
  closing : Bool := false
  /-- positions relocated to the spare region (R152) -/
  reloc : List Nat := []
  deriving DecidableEq, Repr

/-- A journal record (R139). -/
inductive JRec where
  | unit (seq nsid lba n band index : Nat) (src : Option (Nat × Nat))
  | zeroRange (seq nsid lba n : Nat)
  | zoneState (seq nsid zslba : Nat) (st : ZState) (wp : Nat)
  | bandOpen (seq nsid zslba band : Nat) (lane : Lane) (head slots : Nat)
  | bandClose (seq band written : Nat)
  | frontier (band index : Nat)
  | bandVerified (seq band : Nat)
  | relocation (seq head band index : Nat)
  | lostRange (seq nsid lba n band : Nat)
  | bandFree (seq band : Nat)
  | nsEvent (seq nsid what epoch : Nat)
  | moveSource (seq band index : Nat)
  | rebuildDone (seq bands units : Nat)
  deriving DecidableEq, Repr

/-- A record waiting for its journal sector, with its number in the order of queuing. -/
structure JPend where
  no : Nat
  rec_ : JRec
  /-- the command it serves, by order number -/
  cmd : Option Nat := none
  deriving DecidableEq, Repr

/-- The tables a checkpoint holds (R141). -/
structure Tables where
  /-- chunk table and fragment pool: key 2^32 · NSID + chunk -/
  chunks : List (Nat × Chunk) := []
  /-- zone table: key 2^32 · NSID + zone -/
  zones : List (Nat × Zone) := []
  bands : List (Nat × Band) := []
  deriving DecidableEq, Repr

/-- A journal sector on the medium, in both copies. -/
structure JSector where
  no : Nat
  recs : List JRec
  deriving DecidableEq, Repr

/-- A checkpoint area (R141). -/
structure Checkpoint where
  complete : Bool
  start : Nat
  seq : Nat
  tables : Tables
  deriving DecidableEq, Repr

/-- A unit on the medium: its trailer's fields, how many of its sectors are written, its two trailer copies (R135, R136). -/
structure MUnit where
  seq : Nat
  kind : Nat
  nsid : Nat
  epoch : Nat
  lba : Nat
  n : Nat
  k : Nat
  units : Nat
  stamp : Nat
  index : Nat
  chr : Nat
  /-- move: source band and index -/
  src : Option (Nat × Nat) := none
  written : Nat := 0
  c0 : CopySt := .blank
  c1 : CopySt := .blank
  data : List Blk
  deriving DecidableEq, Repr

/-- The medium. -/
structure Medium where
  /-- the units written in each band since it opened, oldest first -/
  bands : List (Nat × List MUnit) := []
  journal : List JSector := []
  checkA : Option Checkpoint := none
  checkB : Option Checkpoint := none
  /-- a checkpoint header has been written since manufacture (R146) -/
  everCheck : Bool := false
  /-- the G-list: lane, head, kind, band and data-class index of each grown defect (R129) -/
  glist : List (Nat × (Nat × (Nat × (Nat × Nat)))) := []
  /-- bands of each lane, and the capacity in allocation units (R65, R159) -/
  bands0 : Nat := Config.bandCount 0
  bands1 : Nat := Config.bandCount 1
  capacity : Nat := Config.capacityUnits
  /-- each band's lane, head and good slots, as the drive's geometry gives them to whoever opens it (R123 to R125) -/
  geom : List (Nat × (Lane × (Nat × Nat))) := []
  /-- the usage snapshot in the system region (R400) -/
  usage : UsageSnap := {}
  deriving DecidableEq, Repr

/-! ### Commands in flight (R90 to R108) -/

/-- How a unit of a write stands (R102 to R105). -/
inductive UnitSt where
  | waiting
  | pulling
  | pulled
  | writing
  | new
  | old
  deriving DecidableEq, Repr

/-- A unit of a write in flight. -/
structure WUnit where
  lba : Nat
  n : Nat
  st : UnitSt := .waiting
  /-- the band it is scheduled in -/
  band : Option Nat := none
  index : Nat := 0
  seq : Nat := 0
  pages : List Nat := []
  deriving DecidableEq, Repr

/-- A source of a block for a read (R99). -/
inductive Src where
  | zeros
  | lost
  | fill (pattern : Nat)
  | medium (band index : Nat)
  /-- the page of a unit of an earlier write: its order number, its unit -/
  | fwd (writer unit : Nat)
  /-- a unit forwarded from that has ended all-old (R100) -/
  | gone
  deriving DecidableEq, Repr

/-- A block of a read: the sources that remain, best first, and what has been sent. -/
structure RBlk where
  chain : List Src
  sent : Bool := false
  /-- the page a copy runs from (R99) -/
  copying : Option Nat := none
  deriving DecidableEq, Repr

/-- An extent of the overlap table (R95). -/
structure OtEntry where
  /-- order number of the command -/
  cmd : Nat
  nsid : Nat
  lba : Nat
  n : Nat
  stamp : Nat
  write : Bool
  /-- a Zone Reset with Select All: the zones it acts on (R99) -/
  zones : Option (List Nat) := none
  deriving DecidableEq, Repr

/-- A fetched command. `no` numbers commands in fetch order. -/
structure Cmd where
  no : Nat
  id : CmdId
  nsid : Nat
  op : IoOp
  stamp : Option Nat
  /-- the LBA assigned (Zone Append) -/
  lba : Nat := 0
  /-- the capacity its zone showed at its stamp (R96, R148) -/
  cap : Nat := 0
  /-- its entries are not all made yet (R93, R95) -/
  held : Bool := false
  /-- its row has begun it -/
  started : Bool := false
  /-- its effect has ended; only the completion is left -/
  ended : Bool := false
  /-- no completion is to be posted (R116) -/
  silent : Bool := false
  /-- the status it will complete with, once set by a failure or an abort -/
  fail : Option Status := none
  units : List WUnit := []
  blocks : List RBlk := []
  /-- zones a Zone Management Send acts on -/
  zones : List Nat := []
  /-- the number of the last journal record it waits for -/
  waitJ : Option Nat := none
  /-- Flush of every namespace: stamps recorded at fetch (R92) -/
  stamps : List (Nat × Nat) := []
  /-- Zone Management Receive: the zones as its stamp finds them; those in `zones` are still to be taken (R87) -/
  snap : List (Nat × Zone) := []
  /-- Reservation Report: the reservation as its stamp finds it -/
  resv : Resv := {}
  deriving DecidableEq, Repr

/-- A fetched admin command that stands. -/
structure AdminCmd where
  id : CmdId
  opcode : Nat
  /-- Delete I/O SQ: the queue, Namespace Management and Attachment: what waits (R117, R120) -/
  wait : Option Nat := none
  deriving DecidableEq, Repr

/-- A submission queue. -/
structure SubQ where
  ctrl : Nat
  qid : Nat
  size : Nat
  head : Nat := 0
  tail : Nat := 0
  cq : Nat
  /-- a Delete I/O SQ runs: nothing more is fetched -/
  deleting : Bool := false
  deriving DecidableEq, Repr

/-- A completion queue. -/
structure CplQ where
  ctrl : Nat
  qid : Nat
  size : Nat
  tail : Nat := 0
  phase : Bool := true
  vector : Nat
  irq : Bool := true
  /-- entries posted and not yet signalled (R61) -/
  held : Nat := 0
  deriving DecidableEq, Repr

/-- An asynchronous event: type, information, log page (R73). -/
structure Aen where
  typ : Nat
  info : Nat
  page : Nat
  deriving DecidableEq, Repr

/-- A controller. -/
structure Ctrl where
  en : Bool := false
  crime : Bool := false
  rdy : Bool := false
  pp : Bool := false
  /-- CC.EN has been cleared and CSTS.RDY not yet -/
  resetting : Bool := false
  /-- causes of CSTS.CFS that a controller reset clears, and that of R146 -/
  cfs : Bool := false
  cfsRebuild : Bool := false
  /-- fetching stopped by a forced power state until the next doorbell (R83), or by a failed queue fetch -/
  stopped : Bool := false
  admin : List AdminCmd := []
  aers : List CmdId := []
  /-- features by number and selector, the defaults of a controller reset where unlisted -/
  feats : List (Nat × Nat) := []
  apste : Bool := true
  /-- the APST table host software set: state ↦ (idle ms, target); none: the default table of R71 -/
  apst : Option (List (Nat × (Nat × Nat))) := none
  /-- events that await an Asynchronous Event Request -/
  aens : List Aen := []
  /-- namespaces changed since the Changed Namespace List was read -/
  changed : List Nat := []
  deriving DecidableEq, Repr

/-- The phase of a Format NVM or Sanitize (R120). -/
inductive ErasePhase where
  | idle
  | waiting
  | running
  deriving DecidableEq, Repr

/-- The host section's volatile state. -/
structure HostSt where
  ctrls : Ctrl × Ctrl := ({}, {})
  sqs : List SubQ := []
  cqs : List CplQ := []
  /-- the arbiter's place: queue served last and entries left of its burst (R90) -/
  arbAt : Nat × Nat := (0, 0)
  arbLeft : Nat := 0
  cmds : List Cmd := []
  nextNo : Nat := 0
  table : List OtEntry := []
  /-- order stamps: next value of each namespace (R89) -/
  stamps : List (Nat × Nat) := []
  /-- namespaces whose next command gets status 0x81 (R390) -/
  loss : List Nat := []
  /-- pages pinned for forwarding (R99): page ↦ copies in progress -/
  pins : List (Nat × Nat) := []
  /-- pages still pinned when their unit ended, with the writer's order number (R97) -/
  owed : List (Nat × Nat) := []
  tables : Tables := {}
  /-- the next store sequence (R138) -/
  seq : Nat := 0
  seqLatch : List (Initiator × Nat) := []
  jpend : List JPend := []
  jnext : Nat := 0
  /-- sectors written and not yet in both copies -/
  jflight : List (List JPend) := []
  /-- records below this number are committed -/
  jdone : Nat := 0
  jsector : Nat := 0
  /-- a checkpoint runs: its area (false A) -/
  check : Option Bool := none
  checkAt : Nat := 0
  rebuildAt : Nat := 0
  scanned : Nat := 0
  applied : Nat := 0
  /-- chunk-table pages loaded since the rebuild: none when all are (R143) -/
  loaded : Option (List Nat) := none
  /-- bands awaiting verification, oldest first (R150) -/
  verify : List Nat := []
  /-- move units in flight, by the band they are written to (R157) -/
  moves : List (Nat × MUnit) := []
  /-- fragment pool: rewriting split chunks (R133) -/
  fragHold : Bool := false
  erase : ErasePhase := .idle
  eraseFormat : Bool := false
  eraseId : Option CmdId := none
  /-- a deferred-error event was posted within the second past: chronometer (R112) -/
  deferAen : Option Nat := none
  /-- the last operational and the present NVMe power state (R70) -/
  psOper : Nat := 0
  ps : Nat := 0
  /-- an answer to a Force Power State is owed (R83) -/
  miForce : Bool := false
  /-- correctable errors counted in the present minute and the chronometer of 0x1004 -/
  corrAt : List (Nat × Nat) := []
  /-- the SMBus frequency in kHz (R82) -/
  smbusKhz : Nat := 100
  deriving DecidableEq, Repr

end Sys2Proof.Machine
end

