-- ==== Sys2Proof/Machine/StateLane.lean ====
section
/-!
DEFINITION. The state of a lane and of the spindle section, beside their registers: read channel, Eltik link and duplex, write path
and preamp bridge, servo, balance engine, power-stage link, escapement sequencers, spindle.
-/
namespace Sys2Proof.Machine

/-! ### Read channel (R162 to R196) -/

/-- An attempt of a recovery order made (R181): its alignment, whether it used the exchanged predictor set, how it ended. -/
structure Attempt where
  p : Int
  alt : Bool
  usc : Nat
  conv : Bool
  deriving DecidableEq, Repr

/-- A replay slot occupied by a sector (R183). -/
structure RSlot where
  /-- whose slot it is, and which of the two -/
  home : Lane
  place : Bool
  /-- the operation's sequencer and slot offset -/
  seq : SeqId
  k : Nat
  band : Nat
  slot : Nat
  head : Nat
  zone : Nat
  /-- retries made before this pass: none in a first pass -/
  retry : Option Nat
  /-- the sector is captured in full -/
  captured : Bool := false
  /-- sync candidates in rank order, and whether there was a mark -/
  cands : List Int := []
  mark : Bool := false
  /-- attempts made, oldest first, and how many of them in steps 2 to 4 -/
  tried : List Attempt := []
  replays : Nat := 0
  /-- the step and alignment of the attempt due or running (R181) -/
  step : Nat := 1
  align : Int := 0
  /-- the register words the order reuses, by address (R183) -/
  snap : List (Nat × Word) := []
  /-- STOP ends the order after this attempt (R186) -/
  stopped : Bool := false
  /-- the lane of the decoder its first attempt goes to in turn (R204); a parity error on the link's samples (R214) -/
  turn : Lane := .ln0
  linkErr : Bool := false
  deriving DecidableEq, Repr

/-- A sector at step 6 that waits for the stripe code or a rotational retry (R185). -/
structure PendSect where
  band : Nat
  slot : Nat
  head : Nat
  zone : Nat
  attempts : Nat
  align : Int
  /-- rotational retries made, and the count allowed -/
  retries : Nat
  limit : Nat
  /-- stripe recovery has not been tried since the last pass -/
  stripe : Bool
  deriving DecidableEq, Repr

/-- The read channel of a lane. -/
structure ChSt where
  slots : List RSlot := []
  pend : List PendSect := []
  /-- the slot whose attempt the lane's decoder runs: home and place (R178, R204) -/
  dec : Option (Lane × Bool) := none
  /-- the decoder the next live attempt alternates to is LN1's (R204) -/
  alternate : Bool := false
  /-- pages that hold decoded sectors, with band and slot (R347) -/
  pages : List (Nat × (Nat × Nat)) := []
  /-- a table load running, and one waiting for the capture to end: head and zone (R187, R191) -/
  load : Option (Nat × Nat) := none
  loadHeld : Option (Nat × Nat) := none
  /-- what the entry in force gives and no register holds: PRE, sectors per track, retry count (R190) -/
  pre : Nat := 0
  spt : Nat := 0
  retries : Nat := 0
  /-- the predictor sets fetched at the last load: set number, 256 bytes (R171, R191) -/
  preds : List (Nat × Nat) := []
  /-- register writes that wait for the sector boundary: address and word (R187) -/
  deferred : List (Nat × Word) := []
  /-- head and zone of the entry in force -/
  hz : Nat × Nat := (0, 0)
  /-- STOP has been written and event 0x200B not yet logged for it (R186) -/
  stopLog : Bool := false
  /-- counts of the loaded head and zone not yet added, by word of the entry (R193) -/
  cnt : List (Nat × Nat) := []
  /-- corrections made to the CTLE's boost and pole for temperature (R163) -/
  boostAdj : Int := 0
  poleAdj : Int := 0
  biasAdj : Int := 0
  deriving DecidableEq, Repr

/-! ### Eltik link and duplex (R197 to R219) -/

/-- The Eltik link and what duplex and same-pass verification hold beside registers. -/
structure ElkSt where
  training : Bool := true
  tries : Nat := 3
  /-- consecutive words with a parity error, at LN0's and at LN1's side (R199) -/
  bad0 : Nat := 0
  bad1 : Nat := 0
  /-- the mode and servo reader of the table entry in force (R206) -/
  mode : Nat := 0
  srv : Nat := 0
  /-- a fallback by the link stands until the next table load (R214) -/
  linkFb : Bool := false
  /-- duplex counts not yet added, by word of the entry (R218) -/
  cnt : List (Nat × Nat) := []
  /-- verify settings of the entry: VWEAK, predictor set, VDELAY, target taps, equaliser taps (R206) -/
  vweak : Nat := 0
  vset : Nat := 0
  vdelay : Nat := 0
  vtgt : Nat := 0
  vtaps : Nat := 0
  /-- verification became unavailable by an overdue verdict, or its loss by another cause has been logged (R212) -/
  overdue : Bool := false
  lostLogged : Bool := false
  /-- the link has been down since reset (R219) -/
  wasDown : Bool := false
  /-- a word with a parity error arrived during the sector being verified (R211, R218) -/
  parSect : Bool := false
  deriving DecidableEq, Repr

/-! ### Write path and preamp bridge (R220 to R242) -/

/-- A frame the bridge has to send: read, address, data, the logical register written (R226, R228). -/
structure PaFrame where
  read : Bool
  addr : Nat
  data : Nat
  reg : Option Nat
  /-- a write repeated after a read-back that differed (R229) -/
  again : Bool := false
  /-- sent for PA_CMD (R241) -/
  direct : Bool := false
  deriving DecidableEq, Repr

/-- The entry a write load applied (R231). -/
structure WEntry where
  iw : Nat := 0
  osa : Nat := 0
  osd : Nat := 0
  pc1 : Nat := 0
  pc2 : Nat := 0
  pc3 : Nat := 0
  astOp : Nat := 0
  astPb : Nat := 0
  htrRd : Nat := 0
  htrWr : Nat := 0
  phl : Nat := 0
  drift : Int := 0
  rate : Int := 0
  pohc : Nat := 0
  deriving DecidableEq, Repr

/-- The write path and preamp bridge of a lane. -/
structure WrSt where
  /-- the sequencer and slot under the write gate, with the host sector it serves -/
  gate : Option (SeqId × (Nat × Option SectorRef)) := none
  /-- the STEP latched when the gate opened (R220) -/
  rate : Nat := 0
  /-- a load running, and one waiting for the gate to close: head and zone (R232) -/
  load : Option (Nat × Nat) := none
  loadHeld : Option (Nat × Nat) := none
  entry : WEntry := {}
  /-- the preamp's immediate rows of R230 hold the inhibit -/
  paFault : Bool := false
  /-- R230 stopped a write at a boundary (condition ASSIST_STOP) -/
  assistStop : Bool := false
  /-- the sector under the writer is the last before an assist stop -/
  stopAfter : Bool := false
  /-- heater open: read retries change no heater value (R230) -/
  heaterOpen : Bool := false
  /-- consecutive link errors and good FAULT reads while the link is down (R229) -/
  linkErrs : Nat := 0
  goodReads : Nat := 0
  /-- frames waiting to be sent, oldest first -/
  frames : List PaFrame := []
  /-- what each logical register was last written with (R228) -/
  logical : List (Nat × Nat) := []
  /-- steps 1 and 2 of R233 asked for, and done -/
  stepsAsked : Bool := false
  brReady : Bool := false
  /-- the last SENS reading -/
  sens : Nat := 0
  /-- a neighbour check is due after a PES or shock inhibit in a write (R236) -/
  neighbour : Bool := false
  /-- failed retries of the unit stopped under R230 (R238) -/
  retries : Nat := 0
  /-- the last neighbour check's counts: failed, relocated -/
  checked : Nat × Nat := (0, 0)
  /-- rewrites of a unit with a verify miss: command number and unit, count (R237) -/
  rewrites : List ((CmdId × Nat) × Nat) := []
  /-- a verify miss in the unit's present pass -/
  missed : List SectorRef := []
  /-- requests of the write path that are urgent (R221) -/
  urgent : Bool := false
  deriving DecidableEq, Repr

/-! ### Balance engine (R247 to R256) -/

/-- A sample's program running: its slot, the next instruction, cycles spent, temporaries, accumulators. -/
structure BeRun where
  slot : Nat
  pc : Nat := 0
  cycle : Nat := 0
  t : List Int := List.replicate 16 0
  a : List Int := List.replicate 4 0
  /-- the value each output port last took in this sample, and the first it took (R252) -/
  outs : List (Nat × Int) := []
  first : List (Nat × Int) := []
  deriving DecidableEq, Repr

/-- A balance engine beside its registers. -/
structure BeSt where
  run : Option BeRun := none
  /-- the input ports of the sample, Q1.31 (R252, R278) -/
  inp : List Int := List.replicate 32 0
  /-- PRED output in the previous sample (R245) -/
  pred : Int := 0
  /-- a demodulation result is held until END (R246) -/
  held : Bool := false
  /-- a bank check runs; a passed exchange waits for the next sample (R253) -/
  checking : Bool := false
  due : Bool := false
  /-- slot 3 of the inactive bank passed its check -/
  slot3 : Bool := false
  /-- the newest XOUT received, and the one on its way to the other lane (R255) -/
  xnew : Option Int := none
  xsent : Option Int := none
  deriving DecidableEq, Repr

/-! ### Servo and power-stage link (R243 to R270) -/

/-- Servo states (R259). -/
inductive SvState where
  | off
  | parked
  | load
  | seek
  | settle
  | follow
  | recover
  | unload
  | retract
  | fault
  deriving DecidableEq, Repr

/-- The servo of a lane. Positions count 2^-24 track. -/
structure SvSt where
  st : SvState := .off
  pref : Int := 0
  vel : Int := 0
  acc : Int := 0
  pmeas : Int := 0
  /-- the position and sample number of the last two good wedges, newest first -/
  good : List (Int × Nat) := []
  /-- samples counted since reset, and since the state's entry -/
  n : Nat := 0
  since : Nat := 0
  /-- the last wedge's index and track, and whether there was one -/
  idx : Option Nat := none
  track : Nat := 0
  /-- segment running and samples left in it (R257) -/
  seg : Nat := 0
  segLeft : Nat := 0
  profEnd : Bool := false
  /-- the soft start: from, to, sample (R258) -/
  p0 : Int := 0
  tgt : Int := 0
  k : Nat := 0
  /-- consecutive samples within SETWIN, and consecutive consistent wedges -/
  within_ : Nat := 0
  consistent : Nat := 0
  /-- consecutive samples within the write-fault threshold (R234) -/
  pesOk : Nat := 0
  /-- load attempts; an unload after a failed load; entries to RECOVER since the last FOLLOW -/
  attempt : Nat := 0
  loadFailed : Bool := false
  recovers : Nat := 0
  /-- read offset in force, in 1/256 track (R262) -/
  offset : Int := 0
  /-- the last wedge failed; the last sample's write position error -/
  bad : Bool := false
  wpe : Int := 0
  deriving DecidableEq, Repr

/-- The power-stage link of a lane. -/
structure PsSt where
  seq : Nat := 0
  /-- readings of the last valid return frame, Q1.15 scaled to Q1.31 -/
  ivcm : Int := 0
  vvcm : Int := 0
  /-- link errors in a row; a latched link fault; the MA field forced to 0 -/
  errs : Nat := 0
  fault : Bool := false
  maFault : Bool := false
  /-- EN written after a fault: a valid return frame brings the link up -/
  rearmed : Bool := false
  /-- the VCM and MA fields last sent -/
  vcm : Nat := 0
  ma : Nat := 0
  deriving DecidableEq, Repr

/-! ### Escapement sequencers (R304 to R331) -/

/-- A frame entry (R314). -/
structure FrameEntry where
  area : Nat
  gapa : Nat
  rgl : Nat
  slen : Nat
  ofs0 : Nat
  minfrag : Nat
  spt : Nat
  deriving DecidableEq, Repr

/-- A WAIT begun: the condition and the value that ends it (R312). -/
structure EcWait where
  c : Nat
  s : Bool
  deriving DecidableEq, Repr

/-- An operation dispatched. -/
structure EcOp where
  /-- the descriptor's sixteen words -/
  desc : List Nat
  frame : Option FrameEntry := none
  pc : Nat := 0
  g : List Nat := List.replicate 16 0
  z : Bool := false
  n : Bool := false
  c : Bool := false
  tmo : Bool := false
  stack : List Nat := []
  wait : Option EcWait := none
  /-- microwords since the last safe point (R318) -/
  words : Nat := 0
  /-- current slot; read arms not started; write arms held, the one under the gate first -/
  k : Nat := 0
  rArms : List Nat := []
  wArms : List Nat := []
  /-- outcomes waiting: code and slot offset; every slot's result: outcome code, or 16 for a slot written in full -/
  outs : List (Nat × Nat) := []
  res : List (Nat × Nat) := []
  /-- wedges since the start -/
  wedges : Nat := 0
  /-- slots written whose verdict is outstanding, and slots with a verify miss -/
  vpend : List (Nat × Option SectorRef) := []
  vmiss : List Nat := []
  hold : Bool := false
  pageFault : Bool := false
  /-- the stop taken: its causes -/
  stopping : Option Nat := none
  /-- END has been executed with this code, and verdicts are outstanding (R308) -/
  ending : Option Nat := none
  deriving DecidableEq, Repr

/-- A sequencer beside its registers. -/
structure EcSt where
  queue : List (List Nat) := []
  op : Option EcOp := none
  /-- completions, oldest first, each of four words (R308) -/
  cpls : List (List Nat) := []
  /-- patch RAM: the words loaded, by place, and what the rest reads as (R323, R326) -/
  patch : List (Nat × Nat) := []
  patchFill : Nat := 0
  deriving DecidableEq, Repr

/-- One lane. -/
structure LaneSt where
  ch : ChSt := {}
  wr : WrSt := {}
  be : BeSt := {}
  sv : SvSt := {}
  ps : PsSt := {}
  ec0 : EcSt := {}
  ec1 : EcSt := {}
  /-- the sequencer that owns the gates (R307) -/
  owner : Option Bool := none
  deriving DecidableEq, Repr

/-! ### Spindle (R271 to R303) -/

/-- Spindle states (R280). -/
inductive SpState where
  | off
  | listen
  | start
  | catch_
  | run
  | brake
  | reverse
  | holdup
  | coast
  | fault
  deriving DecidableEq, Repr

/-- The step of a START attempt (R284); `pause` while the gates are off between attempts (R281). -/
inductive StartStep where
  | align
  | polarity
  | accel
  | pause
  deriving DecidableEq, Repr

/-- The spindle. -/
structure SpinSt where
  be : BeSt := {}
  st : SpState := .off
  step : StartStep := .align
  /-- the program's last outputs (R278) -/
  omega : Int := 0
  dtheta : Int := 0
  idref : Int := 0
  iqref : Int := 0
  eq : Int := 0
  /-- the electrical angle, 2^32 a turn (R277) -/
  theta : Nat := 0
  /-- θ's advance backward or forward since the end of step 1, polarity advance removed, 2^32 a turn (R284) -/
  moved : Int := 0
  movedMin : Int := 0
  /-- valleys since the step of START began -/
  stepN : Nat := 0
  /-- the speed from the phase voltages while gates are off, in rpm / 1000 (R280) -/
  mrpm : Int := 0
  /-- bus voltage and bus current codes latched at the valley (R274) -/
  vbus : Nat := 0
  ibus : Nat := 2048
  /-- OMEGA of the sample before, where samples are consecutive (R288) -/
  prevOmega : Option Int := none
  /-- a check of R288 has failed: 0 a, 1 b, 2 c -/
  syncFail : Option Nat := none
  /-- duties in force and the shadow duties, Q1.31 for U, V, W (R274) -/
  duty : List Int := []
  shadow : Option (List Int) := none
  /-- the vector applied and the one of the shadow duties, fractions of 16 V, Q1.31 -/
  vd : Int := 0
  vq : Int := 0
  vdNext : Int := 0
  vqNext : Int := 0
  /-- the integrators of the two current loops -/
  intD : Int := 0
  intQ : Int := 0
  /-- the references in force after R276 -/
  idSet : Int := 0
  iqSet : Int := 0
  /-- the injection's sign (R284) -/
  hf : Bool := false
  first : Bool := false
  lomega : Int := 0
  /-- the speed ramp, in 10^-9 rpm (R286) -/
  ramp : Int := 0
  /-- channels 0 to 2 sample the coarse range (R283) -/
  coarse : Bool := false
  /-- a LISTEN entered by CMD start (R283) -/
  byCmd : Bool := false
  /-- chronometer at CMD start; ATSPEED set since; chronometer at the start of the deceleration; at HOLDUP's entry -/
  startAt : Nat := 0
  wasAt : Bool := false
  decelAt : Option Nat := none
  holdAt : Nat := 0
  /-- consecutive samples out of check b, check c, and the check of R289 (R288, R289) -/
  badB : Nat := 0
  badC : Nat := 0
  badK : Nat := 0
  /-- supply watch: the last three bus codes, newest first, and how many have been seen (R273, R291) -/
  bus : List Nat := []
  /-- consecutive pinned current periods and bus-current conversions, and conversions outside the limits by channel (R273) -/
  pinned : Nat := 0
  busPinned : Nat := 0
  outside : List (Nat × Nat) := []
  /-- BRK_G held off until device reset by a bus sensor fault (R273) -/
  brkDead : Bool := false
  /-- bus current and bus codes at the moment BRK_G turned on, and the lowest bus code since (R292) -/
  brkRef : Option (Nat × (Nat × Nat)) := none
  /-- the rotor counts as stopped (R280) -/
  stopped : Bool := true
  deriving DecidableEq, Repr

end Sys2Proof.Machine
end

