-- ==== Sys2Proof/Machine/State.lean ====
section
/-!
DEFINITION. The state of the machine: the device, and the queue of the commands that wait. Plain data throughout.
-/
namespace Sys2Proof.Machine

/-- Why the machine stops. -/
inductive Fault where
  /-- Raised by POWER_ON_RESET and RESET_N_ASSERT when the SCAN_EN strap is high: R475 says that no other behaviour of the
  manual holds in the manufacturing scan test. Safe: the machine stops where the spec gives nothing. -/
  | scanTest
  deriving DecidableEq, Repr

/-- Why a command is refused. -/
inductive Refusal where
  /-- Raised by the dispatch for a command that has no meaning in the model. Safe. -/
  | notModelled (mnemonic : String)
  deriving DecidableEq, Repr

/-- What the device has put out, oldest first (R4): replies to initiators, frames, messages, completions. -/
inductive Output where
  /-- the answer to a fabric request or a core access (R27, R30, R31) -/
  | reply (req : Option Nat) (r : Reply)
  /-- a Solind frame (R446) -/
  | frame (f : Frame)
  /-- data units sent to a lane's write stream by the cipher (R360) -/
  | stream (l : Lane) (units : List Nat)
  /-- a completion entry: command, queue, phase, status, DW0 and DW1 (R61, R62) -/
  | completion (id : CmdId) (cq : Nat) (phase : Bool) (st : Status) (dw0 dw1 : Nat)
  /-- an MSI-X message (R61) -/
  | msix (ctrl vector : Nat)
  /-- a configuration request answered, or retried (R53) -/
  | config (port : Nat) (retry : Bool)
  /-- a block of a read sent to host memory: command, its place in the command, the block (R99, R100) -/
  | toHost (id : CmdId) (i : Nat) (b : Blk)
  /-- the bytes an admin or NVMe-MI command returns (R75 to R80) -/
  | bytes (id : Option CmdId) (bs : List Nat)
  /-- the values an admin, reservation or NVMe-MI command reports, by name (R58, R74, R82) -/
  | fields (id : Option CmdId) (fs : List (String × Nat))
  /-- an NVMe-MI response's status (R82, R83) -/
  | mi (status : Nat)
  /-- a frame on a lane's power-stage link, 48 bits (R265) -/
  | psFrame (l : Lane) (word : Nat)
  /-- a value sent over the Eltik link as XOUT (R255) -/
  | xout (l : Lane) (v : Int)
  /-- a frame on a lane's preamp interface: read, address, data (R226) -/
  | preamp (l : Lane) (read : Bool) (addr data : Nat)
  /-- new duties take effect, Q1.31 for U, V, W (R274) -/
  | duties (ds : List Int)
  /-- the power failure or the overvoltage signalled to the regulator (R294, R295) -/
  | toRegulator (overvoltage : Bool)
  /-- the PMDONE interrupt, which releases the waiting cores (R379, R380) -/
  | pmdone
  /-- a heartbeat word on the Eltik link (R199) -/
  | heartbeat (l : Lane)
  /-- a zone report: start, state, write pointer, capacity, finished by the controller (R87, R147) -/
  | zones (id : CmdId) (zs : List (Nat × (ZState × (Nat × (Nat × Bool)))))
  deriving DecidableEq, Repr

/-- The device with its NOR, its fuses and its medium. -/
structure Device where
  /-- the register file: the registers that do not hold their reset word, by address (R15, R24) -/
  regs : List (Nat × BitVec 32) := []
  mem : Mem := {}
  fabric : Fabric := {}
  pool : Pool := {}
  hostL2 : Cache := {}
  mediaL2a : Cache := {}
  mediaL2b : Cache := {}
  cipher : Cipher := {}
  keys : KeyStore := {}
  power : Power := {}
  chron : Chron := {}
  /-- meters since the last device reset or resumption (R398) and the snapshot that log 0xC1 returns (R400) -/
  meters : List (Nat × Meter) := []
  usage : UsageSnap := {}
  thermal : Thermal := {}
  thermRec : ThermRec := {}
  cal : CalSched := {}
  duty : Duty := {}
  logbook : Logbook := {}
  /-- the logbook mirror on the medium (R429) -/
  mirror : List LogEntry := []
  boot : Boot := {}
  crown : Crown := {}
  nor : Nor := {}
  otp : Otp := {}
  aon : Aon := {}
  emret : Emret := .highZ
  /-- the cause of R264 latched -/
  emretCause : Option Nat := none
  /-- SMART critical warning bits 1 and 2 held by the regulator (R408, R412) -/
  critical : Nat := 0
  /-- what NOR keeps for the host section -/
  hnor : HostNor := {}
  host : HostSt := {}
  medium : Medium := {}
  elk : ElkSt := {}
  /-- the two shock inputs active after their filter (R234) -/
  shock1 : Bool := false
  shock2 : Bool := false
  /-- the shock source's inhibit stands -/
  shockInh : Bool := false
  lane0 : LaneSt := {}
  lane1 : LaneSt := {}
  spin : SpinSt := {}
  out : List Output := []
  /-- counts the free values taken (the model's own field) -/
  fresh : Nat := 0
  deriving DecidableEq, Repr

/-- The machine: the device, and the commands waiting, first in, first out. -/
structure State where
  dev : Device
  pending : List Instr
  deriving DecidableEq, Repr

/-- The machine right after reset. -/
def State.reset : State := { dev := {}, pending := [] }

end Sys2Proof.Machine
end

