-- ==== Sys2Proof/Machine/Ops.lean ====
section
/-!
DEFINITION. The named operations over the device that every family of commands shares: registers and their fields, replies,
outputs, free values, and the logbook (R425 to R429, R481).
-/
namespace Sys2Proof.Machine

/-- Every meaning has this shape: it changes the device and leaves the queue as it is. -/
def State.upd (s : State) (f : Device → Device) : Host.Outcome State Fault Refusal :=
  .next { s with dev := f s.dev }

/-! ### Registers -/

/-- The stored word of the register at an address. -/
def Device.word (d : Device) (a : Nat) : BitVec 32 := Sparse.get resetWord d.regs a

/-- The device with the register at `a` holding `w`. -/
def Device.setWord (d : Device) (a : Nat) (w : BitVec 32) : Device :=
  { d with regs := Sparse.put resetWord d.regs a w }

/-- A field's value. -/
def Device.rd (d : Device) (f : RF) : Nat := getField (d.word f.reg) f.lo f.n

/-- Whether a one-bit field is 1. -/
def Device.bit (d : Device) (f : RF) : Bool := d.rd f == 1

/-- The device with a field set. -/
def Device.wr (d : Device) (f : RF) (v : Nat) : Device := d.setWord f.reg (setField (d.word f.reg) f.lo f.n v)

/-- A field read as two's complement. -/
def Device.rdI (d : Device) (f : RF) : Int := toSigned f.n (d.rd f)

/-- A field written as two's complement. -/
def Device.wrI (d : Device) (f : RF) (v : Int) : Device := d.wr f (ofSigned f.n v)

/-- A one-bit field set to a truth value. -/
def Device.wrB (d : Device) (f : RF) (b : Bool) : Device := d.wr f (if b then 1 else 0)

/-- A counter field incremented, saturating at its width. -/
def Device.incSat (d : Device) (f : RF) (k : Nat := 1) : Device := d.wr f (min (d.rd f + k) (2 ^ f.n - 1))

/-- Every register of the addresses from `lo` up to below `hi` back at its reset word. -/
def Device.resetRegs (d : Device) (lo hi : Nat) : Device :=
  { d with regs := d.regs.filter fun p => !(decide (lo ≤ p.1) && decide (p.1 < hi)) }

/-! ### Per-lane parts -/

/-- A lane's state. -/
def Device.lane (d : Device) : Lane → LaneSt
  | .ln0 => d.lane0
  | .ln1 => d.lane1

/-- The device with a lane's state changed. -/
def Device.updLane (d : Device) (l : Lane) (f : LaneSt → LaneSt) : Device :=
  match l with
  | .ln0 => { d with lane0 := f d.lane0 }
  | .ln1 => { d with lane1 := f d.lane1 }

/-! ### Outputs and free values -/

/-- The device after putting `o` out. -/
def Device.emit (d : Device) (o : Output) : Device := { d with out := d.out ++ [o] }

/-- An access answered. A fabric request is answered once: one already timed out discards the answer (R31). -/
def Device.answer (d : Device) (req : Option Nat) (r : Reply) : Device :=
  match req with
  | none => d.emit (.reply none r)
  | some id =>
    if d.fabric.granted.contains id then
      { d with fabric := { d.fabric with granted := d.fabric.granted.filter (· != id) } }.emit (.reply (some id) r)
    else if d.fabric.timedOut.contains id then
      { d with fabric := { d.fabric with timedOut := d.fabric.timedOut.filter (· != id) } }
    else d

/-- A fresh free value of at most `n` bits: nothing constrains it. -/
def Device.takeFree (d : Device) (n : Nat) : Nat × Device :=
  (Config.freeValue d.fresh % 2 ^ n, { d with fresh := d.fresh + 1 })

/-! ### The logbook (R425 to R429, R464, R481) -/

/-- Codes with a stated rate limit (R426, R481). -/
def rateLimitedCodes : List Nat :=
  [0x1004, 0x100A, 0x1016, 0x2003, 0x2004, 0x2007, 0x2012, 0x2017, 0x2018, 0x2023, 0x3006, 0x3009, 0x300E, 0x4001, 0x4003,
   0x5003, 0x7013]

/-- Codes of severity 3 (R426, R464). -/
def criticalCodes : List Nat :=
  [0x1011, 0x3005, 0x300C, 0x3103, 0x3110, 0x4008, 0x5001, 0x600B, 0x6806, 0x680A, 0x7003, 0x7806]

/-- Codes of severity 0 (R426, R464). -/
def recordCodes : List Nat :=
  [0x1001, 0x1010, 0x1013, 0x2022, 0x3002, 0x3101, 0x3111, 0x3112, 0x4009, 0x6001, 0x6005, 0x6006, 0x6009, 0x6802, 0x6805,
   0x6807, 0x7001, 0x7004, 0x7005, 0x7007, 0x7009, 0x700A, 0x700C, 0x700D, 0x7012, 0x7802, 0x7803]

/-- The severity of a code (R426, R464). -/
def severityOf (code : Nat) : Nat :=
  if criticalCodes.contains code then 3
  else if recordCodes.contains code then 0
  else if rateLimitedCodes.contains code || [0x6801, 0x6803, 0x6804].contains code then 1
  else 2

/-- The GS4100 code of a native code (R428). -/
def gs4100Code : Nat → Option Nat
  | 0x1001 => some 0x0101
  | 0x1002 => some 0x0102
  | 0x1003 => some 0x0102
  | 0x2001 => some 0x0201
  | 0x3001 => some 0x0301
  | 0x300C => some 0x030C
  | 0x3105 => some 0x0401
  | 0x3107 => some 0x0401
  | 0x3110 => some 0x0410
  | 0x6001 => some 0x0601
  | 0x6004 => some 0x0604
  | 0x6801 => some 0x0801
  | 0x6803 => some 0x0802
  | 0x6806 => some 0x0803
  | _ => none

/-- The device runs at level 41 (R3, R48). -/
def Device.level41 (d : Device) : Bool := d.rd CB_STATUS_LEVEL == 41

/-- Whether the FIFO takes an entry: its 256 places (R427). -/
def Device.logFull (d : Device) : Bool := decide (256 ≤ d.logbook.fifo.length)

/-- An entry as it enters the FIFO (R425, R427, R428). -/
def Device.logEntry (d : Device) (source code severity suppressed : Nat) (params : List Nat) : LogEntry :=
  let gs := if d.level41 then gs4100Code code else none
  { seq := d.nor.logSeq
    code := gs.getD code
    severity := severity
    source := source
    chr := d.chron.chr
    seconds := d.chron.chr / 1000000
    suppressed := min suppressed 65535
    flags := (if d.logbook.gap then 1 else 0) + (if d.thermal.supplyFail then 2 else 0)
      + (if gs.isSome then 4 else 0) + (if d.logbook.lost ≠ 0 then 8 else 0)
    boot := d.aon.boots % 256
    params := params
    native := if gs.isSome then some code else none }

/-- Post an entry with its severity and suppressed count (R427). In recovery mode the logbook is not written (R459). -/
def Device.logRaw (d : Device) (source code severity suppressed : Nat) (params : List Nat) : Device :=
  if d.boot.phase = .recovery then d
  else if d.logFull then
    { d with logbook := { d.logbook with lost := d.logbook.lost + 1 } }.incSat RG_LOGSTAT_DROP
  else
    { d with
      nor := { d.nor with logSeq := d.nor.logSeq + 1 }
      logbook := { d.logbook with
        fifo := d.logbook.fifo ++ [d.logEntry source code severity suppressed params]
        lost := 0
        gap := false } }

/-- Log an event that has no rate limit. -/
def Device.log (d : Device) (source code : Nat) (params : List Nat := []) : Device :=
  d.logRaw source code (severityOf code) 0 params

/-- The key of a rate-limited code and scope (R481). -/
def rateKey (code scope : Nat) : Nat := code * 65536 + scope

/-- Log an event at most once in the 60,000,000 µs after the last stored entry of its code and scope (R481). -/
def Device.logRate (d : Device) (source code scope : Nat) (params : List Nat := []) : Device :=
  let k := rateKey code scope
  let last := Sparse.cnt d.logbook.last k
  if last ≠ 0 ∧ d.chron.chr + 1 < last + 60000000 then
    { d with logbook := { d.logbook with
        suppressed := Sparse.setCnt d.logbook.suppressed k (Sparse.cnt d.logbook.suppressed k + 1) } }
  else if d.boot.phase = .recovery ∨ d.logFull = true then
    d.logRaw source code (severityOf code) 0 params
  else
    let d' := d.logRaw source code (severityOf code) (Sparse.cnt d.logbook.suppressed k) params
    { d' with logbook := { d'.logbook with
        last := Sparse.setCnt d'.logbook.last k (d.chron.chr + 1)
        suppressed := Sparse.setCnt d'.logbook.suppressed k 0 } }

/-- The logbook source of a lane (R425). -/
def Lane.src (l : Lane) : Nat := 4 + l.idx

/-! ### Whether the device runs -/

/-- Domains 1 to 22 are power-gated: from the first gating of Retain entry to the exit (R385, R387). -/
def Device.gatedOff (d : Device) : Bool := d.power.retain != .out && d.power.retain != .entering

/-- Domains 1 to 22 run: the boot ROM has at least started, no held state stands, and they are not power-gated (R23, R376, R441). -/
def Device.up (d : Device) : Bool :=
  match d.boot.phase with
  | .awaitLock => false
  | .held => false
  | _ => !d.gatedOff

/-- Drive firmware's engines are released (R441). -/
def Device.released (d : Device) : Bool := d.boot.phase == .released

/-- The structure is duplex (R19, R51). -/
def Device.duplex (d : Device) : Bool := d.bit CB_STRUCT_DUPLEX

/-- The device runs with both lanes as independent streams (R19). -/
def Device.twoLane (d : Device) : Bool := d.rd CB_STRUCT_LANES == 2

/-- The number of buffer pages, 512P (R40, R332). -/
def Device.poolPages (d : Device) : Nat := 512 * d.rd CB_SRAMPART_BANKS

end Sys2Proof.Machine
end

