-- ==== Sys2Proof/Machine/MemOps.lean ====
section
/-!
DEFINITION. The named operations over SRAM and DRAM: the map of R24, single bytes and words, check bits and poison, the pages
of the buffer pool and their side areas (R332 to R345).
-/
namespace Sys2Proof.Machine

/-! ### The map (R24, R25, R332, R333) -/

/-- The bytes of visible DRAM: seven eighths of the fitted capacity (R25, R342). -/
def Device.dramVisible (d : Device) : Nat :=
  match d.rd MS_STATUS_SIZE with
  | 1 => 0x70000000
  | 2 => 0xE0000000
  | 3 => 0x1C0000000
  | _ => 0

/-- An address in SRAM (R24). -/
def inSram (a : Nat) : Bool := decide (0x10000000 ≤ a) && decide (a < 0x12000000)

/-- An address in visible DRAM (R24, R25). -/
def Device.inDram (d : Device) (a : Nat) : Bool :=
  decide (0x800000000 ≤ a) && decide (a < 0x800000000 + d.dramVisible)

/-- An address in a register range (R24). -/
def inRegs (a : Nat) : Bool := decide (0xF0000000 ≤ a) && decide (a < 0xF0900000)

/-- An address in the boot ROM (R24). -/
def inRom (a : Nat) : Bool := decide (a < 0x40000)

/-- An address inside the map (R24, R27). -/
def Device.inMap (d : Device) (a : Nat) : Bool := inRom a || inSram a || d.inDram a || inRegs a

/-- The DRAM region of an address: the visible DRAM in 64 equal parts (R339). -/
def Device.dramRegion (d : Device) (a : Nat) : Nat := (a - 0x800000000) / (d.dramVisible / 64)

/-- The region has been released and DRAM works (R340). -/
def Device.dramOpen (d : Device) (a : Nat) : Bool :=
  d.inDram a && decide (d.dramRegion a < d.rd MS_STATUS_REGIONS) && !d.bit MS_STATUS_DRAMFAIL

/-- Whether memory answers at an address: filled SRAM, or a released DRAM region (R339, R340). -/
def Device.memOpen (d : Device) (a : Nat) : Bool := (inSram a && d.bit MS_STATUS_SRAMRDY) || d.dramOpen a

/-- The word address A of R333. -/
def wordAddr (a : Nat) : Nat := if a < 0x800000000 then (a - 0x10000000) / 8 else (a - 0x800000000) / 8

/-- The aligned word that holds a byte. -/
def alignWord (a : Nat) : Nat := a - a % 8

/-! ### Bytes and words -/

/-- Which page of the pool holds an address, if any (R332). -/
def Device.pageAt (d : Device) (a : Nat) : Option Nat :=
  if 0x10000000 ≤ a ∧ a < 0x10000000 + 0x1000 * d.poolPages then some ((a - 0x10000000) / 0x1000) else none

/-- Which page's side area holds an address, if any (R332). -/
def Device.sideAt (d : Device) (a : Nat) : Option Nat :=
  if 0x11FA0000 ≤ a ∧ a < 0x11FA0000 + 64 * d.poolPages then some ((a - 0x11FA0000) / 64) else none

/-- A page of the pool. -/
def Device.page (d : Device) (i : Nat) : Page := Sparse.get (fun _ => {}) d.mem.pages i

/-- The device with a page replaced. -/
def Device.setPage (d : Device) (i : Nat) (p : Page) : Device :=
  { d with mem := { d.mem with pages := Sparse.put (fun _ => {}) d.mem.pages i p } }

/-- One byte of SRAM or DRAM as stored. -/
def Device.memByte (d : Device) (a : Nat) : BitVec 8 :=
  match d.pageAt a with
  | some i => BitVec.ofNat 8 (byteOf (d.page i).data (a % 0x1000))
  | none => match d.sideAt a with
    | some i => BitVec.ofNat 8 (byteOf (d.page i).side (a % 64))
    | none => Sparse.get (fun _ => 0) d.mem.bytes a

/-- The device with one byte of SRAM or DRAM stored. -/
def Device.setByte (d : Device) (a : Nat) (b : BitVec 8) : Device :=
  match d.pageAt a with
  | some i => d.setPage i { d.page i with data := putBits (d.page i).data (8 * (a % 0x1000)) 8 b.toNat }
  | none => match d.sideAt a with
    | some i => d.setPage i { d.page i with side := putBits (d.page i).side (8 * (a % 64)) 8 b.toNat }
    | none => { d with mem := { d.mem with bytes := Sparse.put (fun _ => 0) d.mem.bytes a b } }

/-- `n` bytes from an address, as a little-endian number. -/
def Device.memNum (d : Device) : Nat → Nat → Nat
  | 0, _ => 0
  | n + 1, a => (d.memByte a).toNat + 256 * d.memNum n (a + 1)

/-- The device with `n` bytes of a little-endian number stored from an address. -/
def Device.setNum : Nat → Nat → Nat → Device → Device
  | 0, _, _, d => d
  | n + 1, a, v, d => Device.setNum n (a + 1) (v / 256) (d.setByte a (BitVec.ofNat 8 v))

/-- The word at an aligned address. -/
def Device.memWord (d : Device) (a : Nat) : Nat := d.memNum 8 a

/-- The difference of a word's stored check bits from the fresh ones. -/
def Device.badBits (d : Device) (a : Nat) : Nat := Sparse.cnt d.mem.bad a

/-- The device with a word's check bits differing by `s` from the fresh ones. -/
def Device.setBad (d : Device) (a s : Nat) : Device :=
  { d with mem := { d.mem with bad := Sparse.setCnt d.mem.bad a s } }

/-- A word written with fresh check bits; a pending write-back to it is dropped (R336, R337). -/
def Device.setMemWord (d : Device) (a v : Nat) : Device :=
  let d := (Device.setNum 8 a v d).setBad a 0
  { d with mem := { d.mem with writeback := d.mem.writeback.filter (· != a) } }

/-- What befell the array is in the array: flipped data bits change the stored word and leave its check bits, so that the
check bits differ from the fresh ones of the changed word; flipped check bits differ directly. -/
def Device.applyUpset (d : Device) (a : Nat) (u : Upset) : Device :=
  if u.data = 0 ∧ u.check = 0 then d
  else
    let w := d.memWord a
    let w' := w ^^^ (u.data % 2 ^ 64)
    let s := d.badBits a ^^^ (u.check % 256) ^^^ xorCols eccCols (w ^^^ w')
    (Device.setNum 8 a w' d).setBad a s

/-- The word an access finds, and its syndrome; a faulty row decoder finds another row's word and check bits (R334). -/
def Device.senseWord (d : Device) (a : Nat) (u : Upset) : Nat × Nat :=
  match u.row with
  | none => (d.memWord a, d.badBits a)
  | some b => (d.memWord b, d.badBits b ^^^ eccE (wordAddr b) ^^^ eccE (wordAddr a))

/-- The word with the bit the syndrome names corrected (R335). -/
def correctWord (w : Nat) : Syndrome → Nat
  | .dataBit i => w ^^^ 2 ^ i
  | _ => w

/-! ### Error records (R336, R353) -/

/-- MS_ERRINFO and MS_ERRADDR latch the first error since VALID was cleared (R353). -/
def Device.latchErr (d : Device) (kind synd : Nat) (src : MemSrc) (a : Nat) : Device :=
  if d.bit MS_ERRINFO_VALID then d
  else
    (((((d.wr MS_ERRINFO_VALID 1).wr MS_ERRINFO_KIND kind).wr MS_ERRINFO_SYND synd).wr MS_ERRINFO_SRC src.code).wr
      MS_ERRADDRL_ADDR a).wr MS_ERRADDRH_ADDR (a / 2 ^ 32)

/-- A corrected error is counted and logged (R336). -/
def Device.noteCorrected (d : Device) (a : Nat) : Device :=
  if inSram a then ((d.incSat MS_CECNT_SRAM).wr MS_INT_CE 1).logRate 6 0x4001 0 [a]
  else ((d.incSat MS_CECNT_DRAM).wr MS_INT_CE 1).logRate 6 0x4003 0 [a]

/-- An uncorrectable or poisoned word met by a read is latched and logged (R336). -/
def Device.noteUncorrected (d : Device) (a synd : Nat) (src : MemSrc) : Device :=
  if synd = 0xFF then (d.latchErr 3 synd src a).log 6 0x4007 [a, src.code]
  else if inSram a then ((d.latchErr 1 synd src a).wr MS_INT_SUE 1).log 6 0x4002 [a, synd]
  else ((d.latchErr 2 synd src a).wr MS_INT_DUE 1).log 6 0x4004 [a, synd]

/-- A page check that failed: latched, the syndrome the word of R353 would show being stated for no such error (R345, R353). -/
def Device.notePageCheck (d : Device) (page : Nat) (src : MemSrc) : Device :=
  let (synd, d) := d.takeFree 8
  (d.latchErr 5 synd src (0x10000000 + 0x1000 * page)).wr MS_INT_PAGECHK 1

/-- A write to a poisoned or uncorrectable word, or one carrying a parity error: stored poisoned, latched, logged (R30,
R337). `v` is the merged word. -/
def Device.writePoisoned (d : Device) (a v : Nat) (src : MemSrc) : Device :=
  ((((d.setMemWord a v).setBad a 0xFF).latchErr 4 0xFF src a).wr MS_INT_POISONWR 1).log 6 0x4005 [a, src.code]

/-- New bytes over a word: `len` bytes at byte `o` of the word. -/
def mergeBytes (w o len data : Nat) : Nat := putBits w (8 * o) (8 * len) data

/-! ### Pages (R344, R345) -/

/-- The side area's fields (R344). -/
def Page.crc (p : Page) : Nat := bitsOf p.side 0 32
def Page.form (p : Page) : Nat := bitsOf p.side 32 8
def Page.party (p : Page) : Nat := bitsOf p.side 40 8
def Page.pins (p : Page) : Nat := bitsOf p.side 48 16
def Page.nsid (p : Page) : Nat := bitsOf p.side 64 32
def Page.stamp (p : Page) : Nat := bitsOf p.side 96 32
def Page.lba (p : Page) : Nat := bitsOf p.side 128 64
def Page.meta (p : Page) : Nat := bitsOf p.side 192 128
def Page.sideCrc (p : Page) : Nat := bitsOf p.side 480 32

/-- A side area from its fields, with its own CRC over 0x00 to 0x3B (R344). -/
def sideArea (crc form party pins nsid stamp lba md : Nat) : Nat :=
  let body := crc % 2 ^ 32 + (form % 256) * 2 ^ 32 + (party % 256) * 2 ^ 40 + (pins % 65536) * 2 ^ 48
    + (nsid % 2 ^ 32) * 2 ^ 64 + (stamp % 2 ^ 32) * 2 ^ 96 + (lba % 2 ^ 64) * 2 ^ 128 + (md % 2 ^ 128) * 2 ^ 192
  body + crc32cNum 60 body * 2 ^ 480

/-- The page with another pin count (R99). -/
def Page.withPins (p : Page) (n : Nat) : Page :=
  { p with side := sideArea p.crc p.form p.party n p.nsid p.stamp p.lba p.meta }

/-- A page as its writer leaves it: data, CRC and side area (R344, R345). -/
def Page.make (data form party nsid stamp lba md : Nat) : Page :=
  { data := data % 2 ^ 32768
    side := sideArea (crc32cNum 4096 (data % 2 ^ 32768)) form party 0 nsid stamp lba md }

/-- The first byte address of a page and of its side area (R332). -/
def pageAddr (i : Nat) : Nat := 0x10000000 + 0x1000 * i
def sideAddr (i : Nat) : Nat := 0x11FA0000 + 64 * i

/-- Whether a word in `[lo, hi)` is uncorrectable or poisoned. -/
def Device.anyDead (d : Device) (lo hi : Nat) : Bool :=
  d.mem.bad.any fun p => decide (lo ≤ p.1) && decide (p.1 < hi) &&
    (match decodeSyndrome p.2 with | .uncorrectable => true | .poisoned => true | _ => false)

/-- The check of R345: page CRC, side-area CRC, and no word uncorrectable or poisoned. -/
def Device.pageGood (d : Device) (i : Nat) : Bool :=
  let p := d.page i
  crc32cNum 4096 p.data == p.crc && crc32cNum 60 p.side == p.sideCrc
    && !d.anyDead (pageAddr i) (pageAddr i + 0x1000) && !d.anyDead (sideAddr i) (sideAddr i + 64)

/-- A page written by its writer: its words get fresh check bits. -/
def Device.writePage (d : Device) (i : Nat) (p : Page) : Device :=
  let d := d.setPage i p
  { d with mem := { d.mem with
      bad := d.mem.bad.filter fun q =>
        !((decide (pageAddr i ≤ q.1) && decide (q.1 < pageAddr i + 0x1000))
          || (decide (sideAddr i ≤ q.1) && decide (q.1 < sideAddr i + 64))) } }

/-! ### The pool allocator (R346) -/

/-- RES_x (R346, R353). -/
def Device.poolRes (d : Device) (p : Party) : Nat := d.rd (MS_POOL_RES_RES p.idx)

/-- USED_x: the pages a party has reserved or allocated (R346). -/
def Device.poolUsed (d : Device) (p : Party) : Nat :=
  ((d.pool.resv.filter (·.party == p)).map (·.left)).foldl (· + ·) 0 + (d.pool.alloc.filter (·.2 == p)).length

/-- The four parties. -/
def allParties : List Party := [.ln0, .ln1, .host, .cipher]

/-- The shared pages: 512P − ΣRES (R346). -/
def Device.poolShared (d : Device) : Nat := d.poolPages - (allParties.map d.poolRes).foldl (· + ·) 0

/-- The shared pages not in use (R346). -/
def Device.poolSharedFree (d : Device) : Nat :=
  d.poolShared - (allParties.map fun p => d.poolUsed p - d.poolRes p).foldl (· + ·) 0

/-- Whether a reservation of `n` pages can be granted (R346). -/
def Device.poolFits (d : Device) (p : Party) (n : Nat) : Bool :=
  decide (n ≤ (d.poolRes p - d.poolUsed p) + d.poolSharedFree)

/-- The first page of the free list, and the list after it (R346). -/
def poolHead : List (Nat × Nat) → Option (Nat × List (Nat × Nat))
  | [] => none
  | (a, n) :: t => if n = 0 then poolHead t else some (a, if n = 1 then t else (a + 1, n - 1) :: t)

/-- One page taken from a reservation, from the head of the free list (R346). -/
def takeResv (id : Nat) : List PoolResv → List PoolResv
  | [] => []
  | r :: t => if r.id = id then (if r.left ≤ 1 then t else { r with left := r.left - 1 } :: t) else r :: takeResv id t

/-- Allocate one page from reservation `id`: the page, and the device after (R346). -/
def Device.allocPage (d : Device) (id : Nat) : Option (Nat × Device) :=
  match d.pool.resv.find? (·.id == id), poolHead d.pool.free with
  | some r, some (i, rest) =>
    if r.left = 0 then none
    else some (i, { d with pool := { d.pool with
      free := rest, resv := takeResv id d.pool.resv, alloc := d.pool.alloc ++ [(i, r.party)] } })
  | _, _ => none

/-- Allocate `n` pages from a reservation, in order. -/
def Device.allocPages (d : Device) (id : Nat) : Nat → List Nat × Device
  | 0 => ([], d)
  | n + 1 =>
    match d.allocPage id with
    | none => ([], d)
    | some (i, d') => let r := d'.allocPages id n; (i :: r.1, r.2)

/-- A page goes back to the tail of the free list (R346). -/
def Device.releasePage (d : Device) (i : Nat) : Device :=
  if d.pool.alloc.any (·.1 == i) then
    { d with pool := { d.pool with free := d.pool.free ++ [(i, 1)], alloc := d.pool.alloc.filter (·.1 != i) } }
  else d

/-- Several pages released, in order. -/
def Device.releasePages (d : Device) (is : List Nat) : Device := is.foldl Device.releasePage d

/-- What is left of a reservation is given up. -/
def Device.dropResv (d : Device) (id : Nat) : Device :=
  { d with pool := { d.pool with
      resv := d.pool.resv.filter (·.id != id), waiting := d.pool.waiting.filter (·.id != id) } }

/-- Whether a party's earlier request waits (R346). -/
def Device.partyWaits (d : Device) (p : Party) : Bool := d.pool.waiting.any (·.party == p)

/-- Reserve `n` pages under number `id` for a party: granted at once when it fits and nothing of the party waits, else it
waits (R346). -/
def Device.reserve (d : Device) (id : Nat) (p : Party) (n : Nat) (urgent : Bool) : Device :=
  if d.poolFits p n && !d.partyWaits p then
    { d with pool := { d.pool with resv := d.pool.resv ++ [{ id := id, party := p, left := n }] } }
  else
    { d with pool := { d.pool with
        waiting := d.pool.waiting ++ [{ id := id, party := p, n := n, urgent := urgent, logged := false }] } }

/-- A lane's read standby (R347). -/
def Device.standby (d : Device) : Lane → List Nat
  | .ln0 => d.pool.standby0
  | .ln1 => d.pool.standby1

/-- The device with a lane's standby replaced. -/
def Device.setStandby (d : Device) (l : Lane) (ps : List Nat) : Device :=
  match l with
  | .ln0 => { d with pool := { d.pool with standby0 := ps } }
  | .ln1 => { d with pool := { d.pool with standby1 := ps } }

end Sys2Proof.Machine
end

