-- ==== Sys2Proof/Machine/CacheOps.lean ====
section
/-!
DEFINITION. The named operations over the L2 caches: geometry, registers, lookup, write-back, fills, errors (R348 to R354).
-/
namespace Sys2Proof.Machine

/-- Ways and sets (R348). -/
def CacheId.ways : CacheId → Nat
  | .host => 16
  | .media _ => 8
def CacheId.sets : CacheId → Nat
  | .host => 2048
  | .media _ => 1024

/-- The cores a cache serves (R348). -/
def CacheId.cores : CacheId → Nat
  | .host => 4
  | .media _ => 2

/-- The first register of a cache (R354). -/
def CacheId.base : CacheId → Nat
  | .host => 0xF0000200
  | .media l => l.ml2base

/-- The number a cache's events carry. -/
def CacheId.num : CacheId → Nat
  | .host => 0
  | .media l => 1 + l.idx

/-- The fields of a cache's registers (R354). -/
def CacheId.en (c : CacheId) : RF := ⟨c.base, 0, 1⟩
def CacheId.stale (c : CacheId) : RF := ⟨c.base + 4, 31, 1⟩
def CacheId.validctx (c : CacheId) : RF := ⟨c.base + 4, 30, 1⟩
def CacheId.pass (c : CacheId) : RF := ⟨c.base + 4, 29, 1⟩
def CacheId.ceCnt (c : CacheId) : RF := ⟨c.base + 4, 16, 8⟩
def CacheId.waydis (c : CacheId) : RF := ⟨c.base + 8, 0, c.ways⟩
def CacheId.intStale (c : CacheId) : RF := ⟨c.base + 12, 3, 1⟩
def CacheId.intWayoff (c : CacheId) : RF := ⟨c.base + 12, 2, 1⟩
def CacheId.intTague (c : CacheId) : RF := ⟨c.base + 12, 1, 1⟩
def CacheId.intDataue (c : CacheId) : RF := ⟨c.base + 12, 0, 1⟩
def CacheId.maddr (c : CacheId) (core : Nat) : RF := ⟨c.base + 0x20 + 8 * core, 0, 32⟩
def CacheId.mopReg (c : CacheId) (core : Nat) : Nat := c.base + 0x24 + 8 * core
def CacheId.busy (c : CacheId) (core : Nat) : RF := ⟨c.mopReg core, 31, 1⟩
def CacheId.err (c : CacheId) (core : Nat) : RF := ⟨c.mopReg core, 30, 1⟩
def CacheId.mopWay (c : CacheId) (core : Nat) : RF := ⟨c.mopReg core, 16, 4⟩
def CacheId.mopSet (c : CacheId) (core : Nat) : RF := ⟨c.mopReg core, 5, 11⟩
def CacheId.mopOp (c : CacheId) (core : Nat) : RF := ⟨c.mopReg core, 0, 4⟩

/-- A cache's contents. -/
def Device.cache (d : Device) : CacheId → Cache
  | .host => d.hostL2
  | .media .ln0 => d.mediaL2a
  | .media .ln1 => d.mediaL2b

/-- The device with a cache's contents changed. -/
def Device.updCache (d : Device) (c : CacheId) (f : Cache → Cache) : Device :=
  match c with
  | .host => { d with hostL2 := f d.hostL2 }
  | .media .ln0 => { d with mediaL2a := f d.mediaL2a }
  | .media .ln1 => { d with mediaL2b := f d.mediaL2b }

/-- The line that holds an address. -/
def lineOf (a : Nat) : Nat := a - a % 64

/-- The set of an address: the line number modulo the sets. PRESUMED: the spec gives no other index. -/
def CacheId.setOf (c : CacheId) (a : Nat) : Nat := (a / 64) % c.sets

/-- A way is disabled (R349). -/
def Device.wayOff (d : Device) (c : CacheId) (w : Nat) : Bool := (d.rd c.waydis).testBit w

/-- Lookup is on: EN is 1 and not every way is disabled (R349, R352). -/
def Device.cacheOn (d : Device) (c : CacheId) : Bool := d.bit c.en && !d.bit c.pass

/-- The valid line at a line address. -/
def Cache.lookup (k : Cache) (a : Nat) : Option CacheLine := k.lines.find? (·.addr == a)

/-- The line at a set and way. -/
def Cache.at (k : Cache) (set way : Nat) : Option CacheLine := k.lines.find? fun x => x.set == set && x.way == way

/-- The cache without the line at a line address. -/
def Cache.drop (k : Cache) (a : Nat) : Cache := { k with lines := k.lines.filter (·.addr != a) }

/-- The cache with a line put in its place; what stood at its set and way, and at its address, is gone. -/
def Cache.put (k : Cache) (x : CacheLine) : Cache :=
  { k with lines := (k.lines.filter fun y => y.addr != x.addr && !(y.set == x.set && y.way == x.way)) ++ [x] }

/-- How a word of a line goes to memory: unchanged but that an uncorrectable word goes poisoned; when `fix` is set a
correctable word goes corrected (R348, R349, R351). -/
def outWord (fix : Bool) (w s : Nat) : Nat × Nat :=
  match decodeSyndrome s with
  | .good => (w, 0)
  | .poisoned => (w, 0xFF)
  | .uncorrectable => (w, 0xFF)
  | sy => if fix then (correctWord w sy, 0) else (w, s)

/-- The words of a line written to memory from an address. -/
def Device.putLine (fix : Bool) : List Nat → List Nat → Nat → Device → Device
  | w :: ws, s :: ss, a, d =>
    let o := outWord fix w s
    Device.putLine fix ws ss (a + 8) ((d.setMemWord a o.1).setBad a o.2)
  | _, _, _, d => d

/-- A dirty line written back; a clean one leaves memory as it is. -/
def Device.writeBack (d : Device) (fix : Bool) (x : CacheLine) : Device :=
  if x.dirty && !x.tagBad then Device.putLine fix x.words x.bad x.addr d else d

/-- The line of zeros of ZLINE (R350). -/
def zeroWords : List Nat := List.replicate 8 0

/-- Count a corrected error against a way (R349). -/
def Device.wayErr (d : Device) (c : CacheId) (w : Nat) : Device :=
  (d.updCache c fun k => { k with wayErrs := Sparse.setCnt k.wayErrs w (Sparse.cnt k.wayErrs w + 1) }).incSat c.ceCnt

/-- An access waits for the fill of its line, which starts if none is in progress (R351). -/
def Device.startFill (d : Device) (c : CacheId) (w : FillWait) : Device :=
  d.updCache c fun k =>
    let a := lineOf w.addr
    if k.fills.any (·.addr == a) then
      { k with fills := k.fills.map fun f => if f.addr = a then { f with waiters := f.waiters ++ [w] } else f }
    else { k with fills := k.fills ++ [{ addr := a, waiters := [w] }] }

/-- A load of the word that holds `a`, from a line present. The word's errors are corrected in place, refetched, or reported
(R349). -/
def Device.loadLine (d : Device) (c : CacheId) (x : CacheLine) (req : Option Nat) (a : Nat) : Device :=
  let i := (a % 64) / 8
  let w := x.words.getD i 0
  let s := x.bad.getD i 0
  match decodeSyndrome s with
  | .good => d.answer req (.data w)
  | .dataBit b =>
    let x' := { x with words := x.words.set i (w ^^^ 2 ^ b), bad := x.bad.set i 0 }
    ((d.updCache c (·.put x')).wayErr c x.way).answer req (.data (w ^^^ 2 ^ b))
  | .checkBit =>
    let x' := { x with bad := x.bad.set i 0 }
    ((d.updCache c (·.put x')).wayErr c x.way).answer req (.data w)
  | _ =>
    if x.dirty then
      (((d.wr c.intDataue 1).log 6 0x4805 [c.num, a])).answer req .uncorrectable
    else if s = 0xFF then (d.noteUncorrected (alignWord a) s .service).answer req .uncorrectable
    else ((d.updCache c (·.drop x.addr)).wayErr c x.way).startFill c { req := req, addr := a, store := none }

/-- A store of `len` bytes into a line present: R337 within the line (R348). -/
def Device.storeLine (d : Device) (c : CacheId) (x : CacheLine) (req : Option Nat) (a len v : Nat) : Device :=
  let i := (a % 64) / 8
  let w := x.words.getD i 0
  let s := x.bad.getD i 0
  let put (w' s' : Nat) : Device := d.updCache c (·.put { x with dirty := true, words := x.words.set i w', bad := x.bad.set i s' })
  if len = 8 then (put (v % 2 ^ 64) 0).answer req .done
  else match decodeSyndrome s with
    | .good => (put (mergeBytes w (a % 8) len v) 0).answer req .done
    | .dataBit b => ((put (mergeBytes (w ^^^ 2 ^ b) (a % 8) len v) 0).wayErr c x.way).answer req .done
    | .checkBit => ((put (mergeBytes w (a % 8) len v) 0).wayErr c x.way).answer req .done
    | _ => ((put (mergeBytes w (a % 8) len v) 0xFF).log 6 0x4005 [alignWord a, c.num]).answer req .writeToPoisoned

/-- The accesses that waited for a fill, in order, on the filled line. -/
def Device.serveWaiters (c : CacheId) (line : Nat) : List FillWait → Device → Device
  | [], d => d
  | w :: ws, d =>
    let d' := match (d.cache c).lookup line with
      | none => d.startFill c w
      | some x => match w.store with
        | none => d.loadLine c x w.req w.addr
        | some (len, v) => d.storeLine c x w.req w.addr len v
    Device.serveWaiters c line ws d'

/-- What befell the line's word in the array (R349). -/
def CacheLine.upset (x : CacheLine) (a : Nat) (u : Upset) : CacheLine :=
  let i := (a % 64) / 8
  let w := x.words.getD i 0
  let f := u.data % 2 ^ 64
  { x with words := x.words.set i (w ^^^ f),
           bad := x.bad.set i (x.bad.getD i 0 ^^^ (u.check % 256) ^^^ xorCols eccCols f) }

/-! ### Maintenance operations (R350, R351) -/

/-- The pending operation that is served next: rotating core order after the core served last. -/
def Cache.nextOp (c : CacheId) (k : Cache) : Option CacheOp :=
  ((List.range c.cores).map fun i => (k.lastCore + 1 + i) % c.cores).findSome? fun core => k.ops.find? (·.core == core)

/-- The line an operation names. -/
def Cache.opLine (k : Cache) (o : CacheOp) : Option CacheLine :=
  if o.op ≤ 4 then k.lookup (lineOf o.addr) else k.at o.set o.way

/-- The operation must wait: a fill of its line, or the disable of its line's way, is in progress (R351). -/
def Cache.opWaits (k : Cache) (o : CacheOp) : Bool :=
  (decide (o.op ≤ 4) && k.fills.any (·.addr == lineOf o.addr))
    || (match k.opLine o with
        | some x => k.disabling.any (·.1 == x.way)
        | none => decide (8 ≤ o.op) && !k.disabling.isEmpty)

/-- A line cleaned: written back and clean, correctable words corrected (R350, R351). -/
def Device.cleanLine (d : Device) (c : CacheId) (x : CacheLine) : Device :=
  if x.dirty then (d.writeBack true x).updCache c (·.put { x with dirty := false }) else d

/-- A line cleaned and dropped. -/
def Device.cleanInvalLine (d : Device) (c : CacheId) (x : CacheLine) : Device :=
  (d.writeBack true x).updCache c (·.drop x.addr)

/-- The way a new line goes to: the lowest way that is neither off nor being disabled and holds no line of the set, else the
lowest enabled way. PRESUMED: the spec states no replacement rule. -/
def Device.pickWay (d : Device) (c : CacheId) (a : Nat) : Option Nat :=
  let k := d.cache c
  let ok := (List.range c.ways).filter fun w => !d.wayOff c w && !k.disabling.any (·.1 == w)
  match ok.find? fun w => (k.at (c.setOf a) w).isNone with
  | some w => some w
  | none => ok.head?

/-- The line at `a` allocated at a way: what stood there is written back first if dirty. -/
def Device.placeLine (d : Device) (c : CacheId) (a way : Nat) (dirty : Bool) (ws ss : List Nat) : Device :=
  let d := match (d.cache c).at (c.setOf a) way with
    | some v => if v.addr = a then d else d.writeBack false v
    | none => d
  d.updCache c (·.put { way := way, set := c.setOf a, addr := a, dirty := dirty, tagBad := false, words := ws, bad := ss })

/-- ZLINE (R350). -/
def Device.zline (d : Device) (c : CacheId) (a : Nat) : Device :=
  if d.cacheOn c then
    match (d.cache c).lookup a with
    | some x => d.updCache c (·.put { x with dirty := true, words := zeroWords, bad := zeroWords })
    | none => match d.pickWay c a with
      | some w => d.placeLine c a w true zeroWords zeroWords
      | none => Device.putLine true zeroWords zeroWords a d
  else Device.putLine true zeroWords zeroWords a d

/-- The effect of a maintenance operation (R350). -/
def Device.runOp (d : Device) (c : CacheId) (o : CacheOp) : Device :=
  let k := d.cache c
  match o.op with
  | 1 => (match k.opLine o with | some x => d.cleanLine c x | none => d)
  | 2 => (match k.opLine o with | some x => d.updCache c (·.drop x.addr) | none => d)
  | 3 => (match k.opLine o with | some x => d.cleanInvalLine c x | none => d)
  | 4 => d.zline c (lineOf o.addr)
  | 5 => (match k.opLine o with | some x => d.cleanLine c x | none => d)
  | 6 => (match k.opLine o with | some x => d.updCache c (·.drop x.addr) | none => d)
  | 7 => (match k.opLine o with | some x => d.cleanInvalLine c x | none => d)
  | 8 => ((k.lines.foldl (fun d x => d.cleanInvalLine c x) d).wr c.validctx 0).wr c.stale 0
  | 9 => ((d.updCache c fun k => { k with lines := [] }).wr c.validctx 0).wr c.stale 0
  | _ => d

/-- A write of a non-zero OP by a core: refused with ERR, or pending with BUSY (R350). -/
def Device.postOp (d : Device) (c : CacheId) (core op set way : Nat) : Device :=
  if c.cores ≤ core then d
  else
    let a := (d.rd (c.maddr core)) * 64
    let badAddr := decide (op ≤ 4) && !(inSram a || d.inDram a)
    let badPlace := decide (5 ≤ op) && decide (op ≤ 7) && (decide (c.sets ≤ set) || decide (c.ways ≤ way))
    if d.bit (c.busy core) || badAddr || badPlace || op == 0 || decide (10 ≤ op) then d.wr (c.err core) 1
    else
      let d := if 5 ≤ op ∧ op ≤ 7 then (d.wr (c.mopWay core) way).wr (c.mopSet core) set else d
      ((((d.wr (c.mopOp core) op).wr (c.err core) 0).wr (c.busy core) 1)).updCache c fun k =>
        { k with ops := k.ops ++ [{ core := core, op := op, addr := a, set := set, way := way }] }

end Sys2Proof.Machine
end

