-- ==== Sys2Proof/Machine/Memory.lean ====
section
/-!
DEFINITION. The commands of the shared memory section: reads and writes of SRAM and DRAM with their check code, write-backs,
the scrubber, the fills after reset, the buffer-pool allocator (R333 to R347).
-/
namespace Sys2Proof.Machine

/-- A read straight at memory (R335, R336). -/
def Device.readMem (d : Device) (req : Option Nat) (src : MemSrc) (a : Nat) (u : Upset) : Device :=
  if !d.memOpen a then d.answer req .busError
  else
    let w := alignWord a
    let d := d.applyUpset w u
    let x := d.senseWord w u
    match decodeSyndrome x.2 with
    | .good => d.answer req (.data x.1)
    | .dataBit i =>
      ({ d with mem := { d.mem with writeback := d.mem.writeback ++ [w] } }.noteCorrected w).answer req
        (.data (x.1 ^^^ 2 ^ i))
    | .checkBit =>
      ({ d with mem := { d.mem with writeback := d.mem.writeback ++ [w] } }.noteCorrected w).answer req (.data x.1)
    | _ => (d.noteUncorrected w x.2 src).answer req .uncorrectable

/-- MEMORY_READ (R335, R336, R349). -/
def memoryReadEff (req : Option Nat) (src : MemSrc) (via : Option CacheId) (a : Nat) (u : Upset) (tag : TagErr)
    (d : Device) : Device :=
  match via with
  | none => d.readMem req src a u
  | some c =>
    if !d.cacheOn c then d.readMem req src a u
    else if !d.memOpen a then d.answer req .busError
    else match (d.cache c).lookup (lineOf a) with
      | none => d.startFill c { req := req, addr := a, store := none }
      | some x =>
        match tag with
        | .uncorrectable =>
          (d.updCache c (·.put { x with tagBad := true })).startFill c { req := req, addr := a, store := none }
        | .corrected => (d.wayErr c x.way).loadLine c (x.upset a u) req a
        | .good => d.loadLine c (x.upset a u) req a

def execMemoryRead (req : Option Nat) (src : MemSrc) (via : Option CacheId) (addr : Nat) (upset : Upset) (tag : TagErr)
    (s : State) : Host.Outcome State Fault Refusal :=
  s.upd (memoryReadEff req src via addr upset tag)

/-- A store of `len` bytes through a cache that is on (R337, R348). -/
def Device.storeCached (d : Device) (c : CacheId) (req : Option Nat) (a len v : Nat) : Device :=
  if !d.memOpen a then d.answer req .busError
  else match (d.cache c).lookup (lineOf a) with
    | none => d.startFill c { req := req, addr := a, store := some (len, v) }
    | some x => d.storeLine c x req a len v

/-- MEMORY_FULL_WRITE: an aligned 8-byte word, without a read (R337); with a parity error, R30. -/
def memoryFullWriteEff (req : Option Nat) (src : MemSrc) (via : Option CacheId) (a v : Nat) (parity : Bool) (d : Device) :
    Device :=
  match via.filter d.cacheOn with
  | some c => d.storeCached c req (alignWord a) 8 v
  | none =>
    if !d.memOpen a then d.answer req .busError
    else if parity then (d.writePoisoned (alignWord a) (v % 2 ^ 64) src).answer req .writeToPoisoned
    else (d.setMemWord (alignWord a) (v % 2 ^ 64)).answer req .done

def execMemoryFullWrite (req : Option Nat) (src : MemSrc) (via : Option CacheId) (addr data : Nat) (parity : Bool)
    (s : State) : Host.Outcome State Fault Refusal :=
  s.upd (memoryFullWriteEff req src via addr data parity)

/-- MEMORY_NARROW_WRITE: fewer than 8 bytes within one word, merged by the memory (R337). -/
def memoryNarrowWriteEff (req : Option Nat) (src : MemSrc) (via : Option CacheId) (a len v : Nat) (parity : Bool)
    (u : Upset) (d : Device) : Device :=
  match via.filter d.cacheOn with
  | some c => d.storeCached c req a len v
  | none =>
    if !d.memOpen a then d.answer req .busError
    else
      let w := alignWord a
      let d := d.applyUpset w u
      let x := d.senseWord w u
      let merged (old : Nat) : Nat := mergeBytes old (a - w) len v
      if parity then (d.writePoisoned w (merged x.1) src).answer req .writeToPoisoned
      else match decodeSyndrome x.2 with
        | .good => (d.setMemWord w (merged x.1)).answer req .done
        | .dataBit i => ((d.noteCorrected w).setMemWord w (merged (x.1 ^^^ 2 ^ i))).answer req .done
        | .checkBit => ((d.noteCorrected w).setMemWord w (merged x.1)).answer req .done
        | _ => (d.writePoisoned w (merged x.1) src).answer req .writeToPoisoned

def execMemoryNarrowWrite (req : Option Nat) (src : MemSrc) (via : Option CacheId) (addr len data : Nat) (parity : Bool)
    (upset : Upset) (s : State) : Host.Outcome State Fault Refusal :=
  s.upd (memoryNarrowWriteEff req src via addr len data parity upset)

/-- CORRECTED_WRITEBACK: the corrected word goes back with fresh check bits, unless a write was served first (R336). -/
def correctedWritebackEff (a : Nat) (d : Device) : Device :=
  let w := alignWord a
  if d.mem.writeback.contains w then
    d.setMemWord w (correctWord (d.memWord w) (decodeSyndrome (d.badBits w)))
  else d

def execCorrectedWriteback (addr : Nat) (s : State) : Host.Outcome State Fault Refusal := s.upd (correctedWritebackEff addr)

/-- The scrubber runs: enabled, out of Retain, and not paused by a throttle step (R341, R385, R414). -/
def Device.scrubOn (d : Device) : Bool :=
  d.bit MS_SCRUB_EN && (d.power.retain == .out) && decide (d.rd RG_THSTAT_STEP = 0)

/-- SCRUB_STEP: one word of SRAM or DRAM, in ascending order, regions not released skipped (R341). -/
def scrubStepEff (dram : Bool) (u : Upset) (d : Device) : Device :=
  if !d.scrubOn then d
  else
    let a := if dram then d.mem.scrubDram else d.mem.scrubSram
    let top := if dram then 0x800000000 + d.dramVisible else 0x12000000
    let base := if dram then 0x800000000 else 0x10000000
    let next := if a + 8 < top then a + 8 else base
    let d := if dram then { d with mem := { d.mem with scrubDram := next } }
             else { d with mem := { d.mem with scrubSram := next } }
    if !d.memOpen a then d
    else
      let d := d.applyUpset a u
      let x := d.senseWord a u
      match decodeSyndrome x.2 with
      | .good => d
      | .poisoned => d
      | .uncorrectable =>
        (((d.latchErr (if dram then 2 else 1) x.2 .scrubber a).wr (if dram then MS_INT_DUE else MS_INT_SUE) 1).log 6
          (if dram then 0x4004 else 0x4002) [a, x.2]).setBad a 0xFF
      | sy => (d.noteCorrected a).setMemWord a (correctWord (d.memWord a) sy)

def execScrubStep (dram : Bool) (upset : Upset) (s : State) : Host.Outcome State Fault Refusal :=
  s.upd (scrubStepEff dram upset)

/-! ### The fills (R339, R340) -/

/-- SRAM_FILL_COMPLETE: every SRAM byte reads 0 with valid check bits (R339). -/
def sramFillEff (d : Device) : Device :=
  if d.up && !d.bit MS_STATUS_SRAMRDY then
    { d with mem := { d.mem with
        bytes := d.mem.bytes.filter fun c => !inSram c.1
        pages := []
        bad := d.mem.bad.filter fun c => !inSram c.1 } }.wr MS_STATUS_SRAMRDY 1
  else d

def execSramFillComplete (s : State) : Host.Outcome State Fault Refusal := s.upd sramFillEff

/-- DRAM_TRAINING_COMPLETE: the fitted size is read and the fill starts at region 0, or training fails (R339, R340). -/
def dramTrainingEff (res : DramTraining) (d : Device) : Device :=
  if !d.up || d.rd MS_STATUS_SIZE != 0 || d.bit MS_STATUS_DRAMFAIL then d
  else match res with
    | .passed size => if size = 0 ∨ 3 < size then d else d.wr MS_STATUS_SIZE size
    | .failed ch st => (d.wr MS_STATUS_DRAMFAIL 1).log 6 0x4008 [ch, st]

def execDramTrainingComplete (res : DramTraining) (s : State) : Host.Outcome State Fault Refusal :=
  s.upd (dramTrainingEff res)

/-- DRAM_REGION_FILLED: the next region reads zeros and is released; after region 63 DRAMRDY is set (R339). -/
def dramRegionEff (us : Nat) (d : Device) : Device :=
  let k := d.rd MS_STATUS_REGIONS
  if d.dramVisible = 0 ∨ 64 ≤ k ∨ d.bit MS_STATUS_DRAMFAIL = true then d
  else
    let size := d.dramVisible / 64
    let lo := 0x800000000 + k * size
    let d := { d with mem := { d.mem with
      bytes := d.mem.bytes.filter fun c => !(decide (lo ≤ c.1) && decide (c.1 < lo + size))
      bad := d.mem.bad.filter fun c => !(decide (lo ≤ c.1) && decide (c.1 < lo + size)) } }
    let d := d.wr MS_STATUS_REGIONS (k + 1)
    if k = 63 then (d.wr MS_STATUS_DRAMRDY 1).log 6 0x4009 [us, d.rd MS_STATUS_SIZE] else d

def execDramRegionFilled (us : Nat) (s : State) : Host.Outcome State Fault Refusal := s.upd (dramRegionEff us)

/-! ### The pool (R346, R347) -/

/-- POOL_RESERVE_REQUEST: 1 to 64 pages; a larger request is refused with a bus error (R346). -/
def poolRequestEff (id : Nat) (p : Party) (n : Nat) (urgent : Bool) (d : Device) : Device :=
  if n = 0 ∨ 64 < n then d.emit (.reply (some id) .busError)
  else d.reserve id p n urgent

def execPoolReserveRequest (id : Nat) (p : Party) (n : Nat) (urgent : Bool) (s : State) :
    Host.Outcome State Fault Refusal :=
  s.upd (poolRequestEff id p n urgent)

/-- The first waiting request of a party. -/
def Device.firstWait (d : Device) (p : Party) : Option PoolWait := d.pool.waiting.find? (·.party == p)

/-- The rotation pointer of a contended point (R32). -/
def Device.pointer (d : Device) (c : ContPoint) : Party :=
  match d.fabric.pointers.find? (·.1 == c) with
  | some p => p.2
  | none => .ln0

/-- The device with a point's pointer set; LN0 is the unlisted value. -/
def Device.setPointer (d : Device) (c : ContPoint) (p : Party) : Device :=
  let rest := d.fabric.pointers.filter (·.1 != c)
  { d with fabric := { d.fabric with pointers := if p = .ln0 then rest else rest ++ [(c, p)] } }

/-- The four parties from a pointer in rotating order (R32). -/
def rotation (p : Party) : List Party := [p, p.next, p.next.next, p.next.next.next]

/-- POOL_RESERVE_GRANT: among the parties whose first waiting request fits, an urgent one first, then in rotating order; the
request is granted whole (R32, R346). -/
def poolGrantEff (d : Device) : Device :=
  let ready (p : Party) (urgentOnly : Bool) : Bool :=
    match d.firstWait p with
    | some w => d.poolFits p w.n && (w.urgent || !urgentOnly)
    | none => false
  let order := rotation (d.pointer .poolAllocator)
  match (order.find? (ready · true)).orElse fun _ => order.find? (ready · false) with
  | none => d
  | some p => match d.firstWait p with
    | none => d
    | some w =>
      let d' : Device := { d with pool := { d.pool with
          waiting := d.pool.waiting.filter (·.id != w.id)
          resv := d.pool.resv ++ [{ id := w.id, party := p, left := w.n }] } }
      d'.setPointer .poolAllocator (d.pointer .poolAllocator).next

def execPoolReserveGrant (s : State) : Host.Outcome State Fault Refusal := s.upd poolGrantEff

/-- POOL_WAIT_TIMEOUT: a request has waited 100 ms; it goes on waiting (R346). -/
def poolWaitTimeoutEff (id : Nat) (d : Device) : Device :=
  match d.pool.waiting.find? (·.id == id) with
  | none => d
  | some w =>
    if w.logged then d
    else
      let d' : Device := { d with pool := { d.pool with
          waiting := d.pool.waiting.map fun x => if x.id = id then { x with logged := true } else x } }
      (d'.wr MS_INT_POOLWAIT 1).log 6 0x400A [w.party.idx, w.n]

def execPoolWaitTimeout (id : Nat) (s : State) : Host.Outcome State Fault Refusal := s.upd (poolWaitTimeoutEff id)

/-- POOL_RES_WRITE: ignored if a lane or the host would fall below 64, or ΣRES exceed 512P (R346). -/
def poolResWriteEff (p : Party) (v : Word) (d : Device) : Device :=
  let n := getField v 0 13
  let others := ((allParties.filter (· != p)).map d.poolRes).foldl (· + ·) 0
  if (p ≠ .cipher ∧ n < 64) ∨ d.poolPages < others + n then d else d.wr (MS_POOL_RES_RES p.idx) n

def execPoolResWrite (p : Party) (value : Word) (s : State) : Host.Outcome State Fault Refusal :=
  s.upd (poolResWriteEff p value)

/-- The reservation number a lane's standby refills use. -/
def standbyId (l : Lane) : Nat := 0xFFFFFFF0 + l.idx

/-- READ_STANDBY_REFILL: the standby goes back to 8 allocated pages; below 3 pages the request is urgent (R346, R347). -/
def standbyRefillEff (l : Lane) (d : Device) : Device :=
  let have_ := (d.standby l).length
  let d :=
    if have_ < 8 ∧ !d.pool.resv.any (·.id == standbyId l) ∧ !d.pool.waiting.any (·.id == standbyId l) then
      d.reserve (standbyId l) l.party (8 - have_) (decide (have_ < 3))
    else d
  match d.pool.resv.find? (·.id == standbyId l) with
  | none => d
  | some r => let x := d.allocPages (standbyId l) r.left; x.2.setStandby l (d.standby l ++ x.1)

def execReadStandbyRefill (l : Lane) (s : State) : Host.Outcome State Fault Refusal := s.upd (standbyRefillEff l)

end Sys2Proof.Machine
end

