-- ==== Sys2Proof/Machine/CipherOps.lean ====
section
/-!
DEFINITION. The named operations of the cipher engine: slots, the name map, the binding check, blobs, zeroisation, and what its
registers read as (R357 to R374).
-/
namespace Sys2Proof.Machine

/-! ### Slots (R365) -/

/-- A key slot. -/
def Device.slot (d : Device) (n : Nat) : KeySlot := Sparse.get (fun _ => {}) d.cipher.slots n

/-- The device with a slot replaced. -/
def Device.setSlot (d : Device) (n : Nat) (k : KeySlot) : Device :=
  { d with cipher := { d.cipher with slots := Sparse.put (fun _ => {}) d.cipher.slots n k } }

/-- The key set of a generation: bit 0 selects A or B (R365). -/
def KeySlot.setFor (k : KeySlot) (gen : Nat) : Nat := if gen % 2 = 0 then k.setA else k.setB

/-- The slot with the set that is not the active one holding `v`. -/
def KeySlot.putInactive (k : KeySlot) (v : Nat) : KeySlot :=
  if k.gen % 2 = 0 then { k with setB := v } else { k with setA := v }

/-- The slot with its active set replaced by the inactive one: the generation steps, and a VALID slot retires its previous
generation (R366). An EMPTY slot is VALID at once. -/
def KeySlot.rewrite (k : KeySlot) (nsid epoch tenant : Nat) : KeySlot :=
  let k' : KeySlot := { k with gen := (k.gen + 1) % 65536, nsid := nsid, epoch := epoch, tenant := tenant }
  if k.st = .valid then { k' with st := .retiring, inPrev := k.inCur, inCur := 0, drainLogged := false }
  else { k' with st := .valid }

/-- The slot a namespace is mapped to, where its map entry is valid (R361). -/
def Device.mapped (d : Device) (nsid : Nat) : Option Nat :=
  if 1 ≤ nsid ∧ nsid ≤ 64 ∧ d.bit (CX_NSMAP_VALID (nsid - 1)) = true then some (d.rd (CX_NSMAP_SLOT (nsid - 1))) else none

/-- Every namespace's blob is loaded again: no reload under R372 is pending. -/
def Device.reloaded (d : Device) : Bool := d.keys.blobs.all fun p => (d.mapped p.1).isSome

/-- All slots zeroised and the map cleared (R372). `cause` goes into the event. -/
def Device.zeroiseAll (d : Device) (cause : Nat) : Device :=
  ({ d with cipher := { d.cipher with slots := [] } }.resetRegs 0xF0510100 0xF0510200).log 8 0x5008 [cause]

/-! ### Queues and completions (R359, R362) -/

/-- A source's queue. -/
def Cipher.queue (c : Cipher) : Nat → List CipherEntry
  | 0 => c.q0
  | 1 => c.q1
  | 2 => c.q2
  | _ => c.q3

/-- The engine with a source's queue replaced. -/
def Cipher.setQueue (c : Cipher) (i : Nat) (q : List CipherEntry) : Cipher :=
  match i with
  | 0 => { c with q0 := q }
  | 1 => { c with q1 := q }
  | 2 => { c with q2 := q }
  | _ => { c with q3 := q }

/-- A completion goes to the source's path; statuses 0x01 and 0x02 raise BIND and are logged (R360, R362, R374). -/
def Device.cipherCpl (d : Device) (source : Nat) (c : CipherCpl) (nsid epoch : Nat) : Device :=
  let d : Device := match source with
    | 2 => { d with cipher := { d.cipher with hcpl := d.cipher.hcpl ++ [c] } }
    | 3 => { d with cipher := { d.cipher with scpl := d.cipher.scpl ++ [c] } }
    | _ => { d with cipher := { d.cipher with lcpl := d.cipher.lcpl ++ [(source, c)] } }
  let d := d.wr CX_INT_CPL 1
  if c.status = 1 ∨ c.status = 2 then (d.wr CX_INT_BIND 1).logRate 8 0x5003 source [source, nsid, epoch]
  else if c.status = 3 ∨ c.status = 4 then d.log 8 0x5006 [source, c.tag]
  else d

/-- An entry's fields from its 48 bytes (R360). -/
def CipherEntry.ofNum (v : Nat) : CipherEntry :=
  { op := bitsOf v 0 8
    urgent := (bitsOf v 8 8).testBit 0
    byslot := (bitsOf v 8 8).testBit 1
    srcStream := (bitsOf v 8 8).testBit 2
    dstStream := (bitsOf v 8 8).testBit 3
    len := bitsOf v 16 16
    nsid := bitsOf v 32 32
    epoch := bitsOf v 64 32
    slot := bitsOf v 96 16
    gen := 0
    src := bitsOf v 128 64
    dst := bitsOf v 192 64
    lba := bitsOf v 256 64
    tag := bitsOf v 320 32 }

/-- The little-endian number of 32-bit words. -/
def ofWords : List Nat → Nat
  | [] => 0
  | w :: ws => w % 2 ^ 32 + 2 ^ 32 * ofWords ws

/-- Whether an entry is well formed for its source (R360); `v` is the whole entry. -/
def Device.entryOk (d : Device) (source : CipherSource) (e : CipherEntry) (v : Nat) : Bool :=
  let sec := decide (source = .security)
  let isLane := match source with | .lane _ => true | _ => false
  let xts := decide (e.op = 1 ∨ e.op = 2)
  let blk := decide (e.op = 3 ∨ e.op = 4)
  (xts || (blk && sec))
    && decide (bitsOf v 8 8 < 16)
    && (!e.byslot || sec)
    && (!(e.srcStream || e.dstStream) || isLane)
    && decide (1 ≤ e.len) && decide (e.len ≤ (if blk then 4096 else 512))
    && (e.byslot || (decide (1 ≤ e.nsid) && decide (e.nsid ≤ 64)))
    && (!e.byslot || decide (e.slot < 1024))
    && (e.srcStream || inSram e.src || d.inDram e.src)
    && (e.dstStream || inSram e.dst || d.inDram e.dst)
    && decide (bitsOf v 112 16 = 0) && decide (bitsOf v 352 32 = 0)

/-- The binding check (R361): the slot taken, or the status of the failure. -/
def Device.bindCheck (d : Device) (e : CipherEntry) : Except Nat Nat :=
  match (if e.byslot then some e.slot else d.mapped e.nsid) with
  | none => .error 1
  | some n =>
    let k := d.slot n
    if k.st = .empty ∨ k.st = .erasing then .error 1
    else if !e.byslot && (k.nsid != e.nsid || k.epoch != e.epoch) then .error 2
    else .ok n

/-- One more entry in flight on a slot's current generation (R365). -/
def Device.slotEnter (d : Device) (n : Nat) : Device :=
  let k := d.slot n
  d.setSlot n { k with inCur := k.inCur + 1 }

/-- One entry of a generation fewer in flight. -/
def Device.slotLeave (d : Device) (n gen : Nat) : Device :=
  let k := d.slot n
  if gen = k.gen then d.setSlot n { k with inCur := k.inCur - 1 } else d.setSlot n { k with inPrev := k.inPrev - 1 }

/-! ### Blobs (R370, R371) -/

/-- A blob from its parts, as one 128-byte number. -/
def makeBlob (keySet nsid epoch tenant : Nat) : Nat :=
  let head := bytesOf 4 0x4C424B47 ++ [1, 0, 128, 0] ++ bytesOf 4 nsid ++ bytesOf 4 epoch ++ bytesOf 4 tenant ++ bytesOf 4 0
  let plain := bytesOf 64 keySet ++ (head.drop 8)
  ofBytes (head ++ keyWrap (bytesOf 32 Config.kek) 10 plain)

/-- The key set of a blob, where its checks pass (R371, all but the epoch). -/
def openBlob (v : Nat) : Option Nat :=
  let bs := bytesOf 128 v
  if bs.take 8 ≠ bytesOf 4 0x4C424B47 ++ [1, 0, 128, 0] then none
  else match keyUnwrap (bytesOf 32 Config.kek) 10 ((bs.drop 24).take 88) with
    | none => none
    | some p =>
      if p.drop 64 ≠ (bs.drop 8).take 16 then none
      else if p.take 32 = (p.drop 32).take 32 then none
      else some (ofBytes (p.take 64))

/-- The blob address in CX_KADDRH and CX_KADDRL. -/
def Device.kaddr (d : Device) : Nat := d.rd CX_KADDRL_ADDR + 2 ^ 32 * d.rd CX_KADDRH_ADDR

/-- The lowest loadable epoch of a namespace (R369). -/
def Device.lowestEpoch (d : Device) (nsid : Nat) : Nat := Sparse.cnt d.keys.lowest nsid

/-! ### Slot commands (R366): the code for CX_KRSP, and the device after -/

/-- LOAD of the blob at CX_KADDR. -/
def Device.keyLoad (d : Device) (n : Nat) : Nat × Device :=
  let k := d.slot n
  match k.st with
  | .retiring => (2, d)
  | .erasing => (3, d)
  | _ =>
    let v := d.memNum 128 d.kaddr
    let nsid := bitsOf v 64 32
    let epoch := bitsOf v 96 32
    match openBlob v with
    | none => (1, (d.setSlot n (k.putInactive 0)).log 8 0x5002 [n, 1])
    | some ks =>
      if epoch < d.lowestEpoch nsid then
        (4, ((d.setSlot n (k.putInactive 0)).log 8 0x5002 [n, 4]).log 8 0x5009 [nsid])
      else (0, d.setSlot n ((k.putInactive ks).rewrite nsid epoch (bitsOf v 128 32)))

/-- A fresh key set whose halves differ: a free value (R366). -/
def Device.freshKeys (d : Device) : Nat × Device :=
  let x := d.takeFree 256
  let y := x.2.takeFree 256
  let k2 := if y.1 = x.1 then (y.1 + 1) % 2 ^ 256 else y.1
  (x.1 + 2 ^ 256 * k2, y.2)

/-- A number written to memory word by word with fresh check bits: `n` words from an address. -/
def Device.setWords : Nat → Nat → Nat → Device → Device
  | 0, _, _, d => d
  | n + 1, a, v, d => Device.setWords n (a + 8) (v / 2 ^ 64) (d.setMemWord a (v % 2 ^ 64))

/-- GENERATE: fresh keys into the inactive set, a rewrite, the wrapped blob to CX_KADDR and into the stored copies. -/
def Device.keyGenerate (d : Device) (n nsid epoch tenant : Nat) : Nat × Device :=
  let k := d.slot n
  match k.st with
  | .retiring => (2, d)
  | .erasing => (3, d)
  | _ =>
    let x := d.freshKeys
    let blob := makeBlob x.1 nsid epoch tenant
    let d := x.2.setSlot n ((k.putInactive x.1).rewrite nsid epoch tenant)
    (0, if d.memOpen d.kaddr then Device.setWords 16 d.kaddr blob d else d)

/-- ERASE: sets ERASING; refused on a retiring slot (R366, R367). -/
def Device.keyErase (d : Device) (n : Nat) : Nat × Device :=
  let k := d.slot n
  match k.st with
  | .valid => (0, d.setSlot n { k with st := .erasing })
  | .erasing => (0, d)
  | .retiring => (2, d.log 8 0x5007 [n])
  | .empty => (3, d)

/-- MAP: writes or clears the map entry of a namespace. -/
def Device.keyMap (d : Device) (nsid n : Nat) (clear : Bool) : Nat × Device :=
  if nsid = 0 ∨ 64 < nsid then (3, d)
  else if clear then (0, (d.wr (CX_NSMAP_VALID (nsid - 1)) 0).wr (CX_NSMAP_SLOT (nsid - 1)) 0)
  else (0, (d.wr (CX_NSMAP_VALID (nsid - 1)) 1).wr (CX_NSMAP_SLOT (nsid - 1)) n)

/-- The result of a slot command in CX_KCMD and CX_KRSP (R374). -/
def Device.keyDone (op n : Nat) (r : Nat × Device) : Device :=
  (((r.2.wr CX_KCMD_OP op).wr CX_KCMD_SLOT n).wr CX_KRSP_CODE r.1).wr CX_KRSP_DONE 1

/-! ### What the CX_ registers read as -/

/-- The state number of CX_KSTAT (R365). -/
def SlotState.num : SlotState → Nat
  | .empty => 0
  | .valid => 1
  | .retiring => 2
  | .erasing => 3

/-- A completion as two words (R360). -/
def CipherCpl.word (c : CipherCpl) : Nat → Nat
  | 0 => c.tag
  | _ => c.status + c.units * 65536

/-- CX_STATUS: the self-test bits are stored, the rest follows the engine (R374). -/
def Device.cxStatus (d : Device) : Nat :=
  d.rd CX_STATUS_SELFPASS * 2 ^ 31 + d.rd CX_STATUS_SELFFAIL * 2 ^ 30 + (if d.cipher.service.isSome then 2 ^ 29 else 0)
    + (match d.cipher.suspended with | some m => 2 ^ 28 + m.source * 2 ^ 26 | none => 0)

/-- A CX_ register's value at an offset (R374). -/
def Device.cxView (d : Device) (o : Nat) : Nat :=
  if o = 4 then d.cxStatus
  else if 0x10 ≤ o ∧ o < 0x20 ∧ o % 4 = 0 then
    let q := d.cipher.queue ((o - 0x10) / 4)
    (q.filter (·.urgent)).length * 65536 + q.length
  else if o = 0x80 ∨ o = 0x84 then (d.cipher.hcpl.head?.map (·.word ((o - 0x80) / 4))).getD 0
  else if o = 0x140 ∨ o = 0x144 then (d.cipher.scpl.head?.map (·.word ((o - 0x140) / 4))).getD 0
  else if 0x20000 ≤ o ∧ o < 0x24000 ∧ o % 4 = 0 then
    let k := d.slot ((o - 0x20000) / 16)
    match ((o - 0x20000) / 4) % 4 with
    | 0 => k.st.num * 2 ^ 30 + (k.inPrev % 2 ^ 14) * 65536 + k.gen
    | 1 => k.nsid
    | 2 => k.epoch
    | _ => k.tenant
  else (d.word (0xF0500000 + o)).toNat

/-! ### The initiator table (R28) -/

/-- Who may read a security-section register: `o` is the offset from 0xF050_0000. -/
def Device.secMayRead (d : Device) (who : Initiator) (o : Nat) : Bool :=
  if o < 0x10000 then (match who with | .jtag => !d.otp.jtagLock | _ => true)
  else if o < 0x200000 then decide (who = .oprok) || decide (who = .bootRom)
  else true

/-- Who may write a security-section register. The boot ROM runs on the Oprok core. -/
def Device.secMayWrite (d : Device) (who : Initiator) (o : Nat) : Bool :=
  if o < 0x10000 then (match who with | .oprok => true | .bootRom => true | .host _ => true | _ => false)
  else if o < 0x200000 then decide (who = .oprok) || decide (who = .bootRom)
  else decide (who = .bootRom) && !d.boot.locked

end Sys2Proof.Machine
end

