-- ==== Sys2Proof/Machine/HostOps.lean ====
section
/-!
DEFINITION. Operations of the NVMe logic: controllers and queues, posting completions and asynchronous events, the overlap table
(R52 to R122).
-/
namespace Sys2Proof.Machine

/-! ### Controllers, namespaces, features -/

/-- A controller's state. -/
def Device.ctrl (d : Device) (c : Nat) : Ctrl := if c = 0 then d.host.ctrls.1 else d.host.ctrls.2

/-- The device with the host section's state changed. -/
def Device.updHost (d : Device) (f : HostSt → HostSt) : Device := { d with host := f d.host }

/-- The device with a controller changed. -/
def Device.updCtrl (d : Device) (c : Nat) (f : Ctrl → Ctrl) : Device :=
  d.updHost fun h => { h with ctrls := if c = 0 then (f h.ctrls.1, h.ctrls.2) else (h.ctrls.1, f h.ctrls.2) }

/-- Port mode 1: two ports, each with its controller (R52). -/
def Device.twoPorts (d : Device) : Bool := d.rd CB_HOST_MODE == 1

/-- The controllers of the port mode. -/
def Device.ctrls (d : Device) : List Nat := if d.twoPorts then [0, 1] else [0]

/-- The MSI-X vectors of a controller (R52, R61). -/
def Device.vectors (d : Device) : Nat := if d.twoPorts then 33 else 65

/-- The I/O queue pairs of a controller (R52). -/
def Device.queuePairs (d : Device) : Nat := if d.twoPorts then 32 else 64

/-- A namespace that exists. -/
def Device.ns (d : Device) (n : Nat) : Option Ns := Sparse.find d.hnor.nss n

/-- The device with a namespace's row replaced. -/
def Device.setNs (d : Device) (n : Nat) (x : Ns) : Device :=
  { d with hnor := { d.hnor with nss := Sparse.ins d.hnor.nss n x } }

/-- The device with a namespace's row changed, where it exists. -/
def Device.updNs (d : Device) (n : Nat) (f : Ns → Ns) : Device :=
  match d.ns n with
  | none => d
  | some x => d.setNs n (f x)

/-- A namespace attached to a controller. -/
def Device.attachedNs (d : Device) (c n : Nat) : Option Ns := (d.ns n).filter fun x => x.attached.testBit c

/-- Every existing namespace's number, ascending. -/
def Device.nsids (d : Device) : List Nat := d.hnor.nss.map (·.1)

/-- A feature's key: identifier and selector. -/
def featKey (fid sel : Nat) : Nat := fid * 65536 + sel

/-- A feature's value on a controller, 0 until set (R73, R60). -/
def Device.feat (d : Device) (c fid sel : Nat) : Nat := Sparse.cnt (d.ctrl c).feats (featKey fid sel)

/-- The device with a feature's value set. -/
def Device.setFeat (d : Device) (c fid sel v : Nat) : Device :=
  d.updCtrl c fun k => { k with feats := Sparse.setCnt k.feats (featKey fid sel) v }

/-! ### Posting completions (R61, R62) -/

/-- Whether a vector's messages are coalesced: an aggregation time is set and the vector does not disable it (R61). -/
def Device.coalesces (d : Device) (c v : Nat) : Bool :=
  d.feat c 8 0 / 256 != 0 && !(d.feat c 9 v).testBit 16

/-- An entry on a completion queue, and its message, at once or held for coalescing (R61). -/
def Device.postCq (d : Device) (c q : Nat) (out : Bool → Output) : Device :=
  match d.host.cqs.find? (fun x => x.ctrl == c && x.qid == q) with
  | none => d.emit (out false)
  | some x =>
    let d := d.emit (out x.phase)
    let t := (x.tail + 1) % max x.size 1
    let held := x.held + 1
    let send := q == 0 || !d.coalesces c x.vector || decide (d.feat c 8 0 % 256 < held)
    let y : CplQ := { x with tail := t, phase := if t = 0 then !x.phase else x.phase, held := if send then 0 else held }
    let d := d.updHost fun h =>
      { h with cqs := h.cqs.map fun z => if z.ctrl == c && z.qid == q then y else z }
    if send && x.irq then d.emit (.msix c x.vector) else d

/-- The completion queue a submission queue's commands complete on. -/
def Device.cqOf (d : Device) (c q : Nat) : Nat :=
  match d.host.sqs.find? (fun x => x.ctrl == c && x.qid == q) with
  | none => 0
  | some x => x.cq

/-- A completion posted. -/
def Device.post (d : Device) (id : CmdId) (st : Status) (dw0 dw1 : Nat) : Device :=
  let q := d.cqOf id.ctrl id.sq
  d.postCq id.ctrl q fun p => .completion id q p st dw0 dw1

/-! ### Admin commands -/

/-- The admin command standing under an identifier with an opcode. -/
def Device.adminCmd (d : Device) (id : CmdId) (opcode : Nat) : Option AdminCmd :=
  if id.sq ≠ 0 then none else (d.ctrl id.ctrl).admin.find? fun a => a.id == id && a.opcode == opcode

/-- The device with an admin command taken off. -/
def Device.dropAdmin (d : Device) (id : CmdId) : Device :=
  d.updCtrl id.ctrl fun k => { k with admin := k.admin.filter (·.id != id) }

/-- An admin command completed with its DW0 (R91). -/
def Device.adminDone (d : Device) (id : CmdId) (st : Status) (dw0 : Nat := 0) : Device := (d.dropAdmin id).post id st dw0 0

/-- An admin command's effect, while it stands. -/
def Device.onAdmin (d : Device) (id : CmdId) (opcode : Nat) (f : Device → Device) : Device :=
  if (d.adminCmd id opcode).isSome then f d else d

/-! ### Asynchronous events (R73) -/

/-- An asynchronous event on one controller, if its enable bits allow it: it completes a standing request, or waits for one. -/
def Device.aenOn (d : Device) (c : Nat) (mask : Nat) (a : Aen) : Device :=
  if !(d.ctrl c).en || d.feat c 0xB 0 &&& mask = 0 then d
  else
    match (d.ctrl c).aers with
    | [] => d.updCtrl c fun k => { k with aens := k.aens ++ [a] }
    | id :: rest => (d.updCtrl c fun k => { k with aers := rest }).post id .success (a.typ + 256 * a.info + 65536 * a.page) 0

/-- An asynchronous event posted on every controller that has enabled it by a bit of `mask`. -/
def Device.postAen (d : Device) (mask : Nat) (a : Aen) : Device := d.ctrls.foldl (fun d c => d.aenOn c mask a) d

/-- The enable bit of the vendor events (R73). -/
def vendorMask : Nat := 2 ^ 31

/-! ### Commands in flight and the overlap table (R90 to R101) -/

/-- The fetched I/O command under an identifier. -/
def Device.cmd (d : Device) (id : CmdId) : Option Cmd := d.host.cmds.find? (·.id == id)

/-- The fetched command of an order number. -/
def Device.cmdNo (d : Device) (n : Nat) : Option Cmd := d.host.cmds.find? (·.no == n)

/-- The device with a command changed. -/
def Device.updCmd (d : Device) (n : Nat) (f : Cmd → Cmd) : Device :=
  d.updHost fun h => { h with cmds := h.cmds.map fun c => if c.no == n then f c else c }

/-- The device with a unit of a command changed. -/
def Device.updUnit (d : Device) (n k : Nat) (f : WUnit → WUnit) : Device :=
  d.updCmd n fun c => { c with units := c.units.modify k f }

/-- HS_INFLIGHT.COUNT (R57). A command whose completion is suppressed is in flight no more. -/
def Device.inFlight (d : Device) : Nat := (d.host.cmds.filter (!·.silent)).length

/-- HS_OT_STATUS.USED (R94). -/
def Device.otUsed (d : Device) : Nat := d.host.table.length

/-- HS_OT_STATUS.PINNED (R94). -/
def Device.otPinned (d : Device) : Nat := d.host.pins.length

/-- Fetching from the I/O queues is paused (R93). -/
def Device.paused (d : Device) : Bool := d.bit HS_INFLIGHT_PAUSE_OT || d.bit HS_INFLIGHT_PAUSE_LIM

/-- Stamp `a` is below `b` in the order of one namespace's fetches, which at most 1,024 apart is serial-number order (R62). -/
def stampLt (a b : Nat) : Bool := decide (a ≠ b) && decide ((b + 2 ^ 32 - a) % 2 ^ 32 < 2 ^ 31)

/-- Whether two extents overlap. -/
def overlaps (a n b m : Nat) : Bool := decide (a < b + m) && decide (b < a + n)

/-- A unit has ended, new or old (R105). -/
def WUnit.ended (u : WUnit) : Bool := u.st == .new || u.st == .old

/-- Whether an earlier write `c` still stands in the way of a medium write of the extent (R98): it has units over the extent that
have not ended, or its own record is not committed. -/
def Cmd.blocks_ (c : Cmd) (lba n : Nat) : Bool :=
  if c.ended then false
  else if c.units.isEmpty then true
  else c.units.any fun u => overlaps u.lba u.n lba n && !u.ended

/-- The extent of namespace `nsid` may be written by command `no`: every overlapping earlier write has ended there (R98). -/
def Device.mayWrite (d : Device) (no nsid lba n : Nat) : Bool :=
  !d.host.table.any fun e =>
    e.write && e.nsid == nsid && decide (e.cmd < no) && overlaps e.lba e.n lba n &&
      (match d.cmdNo e.cmd with
       | none => false
       | some c => c.blocks_ lba n)

/-- An entry covers a block (R99): a Select All Reset covers only the zones it acts on. -/
def OtEntry.covers (e : OtEntry) (b : Nat) : Bool :=
  decide (e.lba ≤ b) && decide (b < e.lba + e.n) &&
    (match e.zones with | none => true | some zs => zs.contains (b / 65536))

/-- What an entry's writer offers for a block: zeros, its page or its place on the medium, or nothing where its unit ended
all-old (R99, R100). -/
def Device.offer (d : Device) (e : OtEntry) (b : Nat) : Option Src :=
  match d.cmdNo e.cmd with
  | none => none
  | some c =>
    match c.op with
    | .write .. | .zoneAppend .. =>
      match c.units.findIdx? (fun u => decide (u.lba ≤ b) && decide (b < u.lba + u.n)) with
      | none => none
      | some k =>
        match c.units[k]? with
        | none => none
        | some u =>
          if u.st == .old then none
          else if u.st == .new then some (.medium (u.band.getD 0) (u.index + (b - u.lba)))
          else some (.fwd c.no k)
    | _ => if c.fail.isSome && c.units.isEmpty then none else some .zeros

/-- The chain of sources of a block from the write entries, best first, ending with the map's (R99): entries in the table are in
fetch order, so the last is the highest stamp. -/
def sourceChain (offers : List Src) (last : Src) : List Src :=
  match offers with
  | [] => [last]
  | .fwd w k :: rest => .fwd w k :: sourceChain rest last
  | s :: _ => [s]

/-- The sources of block `b` of namespace `nsid` for a command fetched now (R99). -/
def Device.sources (d : Device) (no nsid b : Nat) (last : Src) : List Src :=
  let es := (d.host.table.filter fun e => e.write && e.nsid == nsid && decide (e.cmd < no) && e.covers b).reverse
  sourceChain (es.filterMap fun e => d.offer e b) last

end Sys2Proof.Machine
end

