-- ==== Sys2Proof/Machine/StoreOps.lean ====
section
/-!
DEFINITION. Operations of the shingled store: the indirection map, zones, bands, store sequence, the map journal (R123 to R161).
-/
namespace Sys2Proof.Machine

/-! ### Chunks (R131, R132) -/

/-- What a run list says of block `j` of the chunk; a block no run covers is unwritten (R132, R155). -/
def runsLoc (rs : List Run) (j : Nat) : Loc :=
  match rs.find? (fun r => decide (r.off ≤ j) && decide (j < r.off + r.len)) with
  | none => .unwritten
  | some r => match r.loc with | .at_ b i => .at_ b (i + (j - r.off)) | l => l

/-- Where block `j` of a chunk is. -/
def Chunk.loc : Chunk → Nat → Loc
  | .unwritten, _ => .unwritten
  | .whole b i, j => .at_ b (i + j)
  | .split rs, j => runsLoc rs j

/-- The location one block on. -/
def Loc.succ (l : Loc) (n : Nat) : Loc := match l with | .at_ b i => .at_ b (i + n) | l => l

/-- The runs of a list of block locations, the first being block `j`. -/
def runsOf : Nat → List Loc → List Run
  | _, [] => []
  | j, .unwritten :: ls => runsOf (j + 1) ls
  | j, l :: ls =>
    match runsOf (j + 1) ls with
    | r :: rs => if r.off = j + 1 ∧ r.loc = l.succ 1 then ⟨j, r.len + 1, l⟩ :: rs else ⟨j, 1, l⟩ :: r :: rs
    | [] => [⟨j, 1, l⟩]

/-- The chunk of 64 block locations: unwritten, whole or split. -/
def Chunk.ofLocs (ls : List Loc) : Chunk :=
  match runsOf 0 ls with
  | [] => .unwritten
  | [⟨0, 64, .at_ b i⟩] => .whole b i
  | rs => .split rs

/-- The fragment records of a chunk: eight runs a record, the last place of all but the last naming the next (R132). -/
def Chunk.records : Chunk → Nat
  | .split rs => if rs.length ≤ 8 then 1 else 1 + (rs.length - 8 + 6) / 7
  | _ => 0

/-- The key of a namespace's chunk or zone. -/
def nsKey (nsid i : Nat) : Nat := nsid * 2 ^ 32 + i

/-- A chunk-table entry. -/
def Tables.chunk (t : Tables) (nsid c : Nat) : Chunk := Sparse.get (fun _ => .unwritten) t.chunks (nsKey nsid c)

/-- Where a block is by the map. -/
def Tables.loc (t : Tables) (nsid lba : Nat) : Loc := (t.chunk nsid (lba / 64)).loc (lba % 64)

/-- The tables with the blocks `lba`, …, `lba + n - 1` of one chunk given by `f` of block and old location. -/
def Tables.setChunk (t : Tables) (nsid c : Nat) (f : Nat → Loc → Loc) : Tables :=
  let old := t.chunk nsid c
  let new := Chunk.ofLocs ((List.range 64).map fun j => f (64 * c + j) (old.loc j))
  { t with chunks := Sparse.put (fun _ => Chunk.unwritten) t.chunks (nsKey nsid c) new }

/-- The tables with every block of a range mapped through `f` of its number and its old location. -/
def Tables.mapRange (t : Tables) (nsid lba n : Nat) (f : Nat → Loc → Loc) : Tables :=
  let g := fun b l => if lba ≤ b ∧ b < lba + n then f b l else l
  if n = 0 then t
  else (List.range ((lba + n - 1) / 64 - lba / 64 + 1)).foldl (fun t i => t.setChunk nsid (lba / 64 + i) g) t

/-- Fragment records in use (R133). -/
def Tables.fragUse (t : Tables) : Nat := (t.chunks.map fun p => p.2.records).foldl (· + ·) 0

/-- The fragment pool's records: 1 GiB of 64 bytes (R133). -/
def fragRecords : Nat := 16777216

/-! ### Zones (R96, R147, R148) -/

/-- A zone's row. -/
def Tables.zone (t : Tables) (nsid z : Nat) : Zone := Sparse.get (fun _ => {}) t.zones (nsKey nsid z)

/-- The tables with a zone's row replaced. -/
def Tables.setZone (t : Tables) (nsid z : Nat) (x : Zone) : Tables :=
  { t with zones := Sparse.put (fun _ => {}) t.zones (nsKey nsid z) x }

/-- A zone state counts as active (R66). -/
def ZState.active : ZState → Bool
  | .implicitOpen => true
  | .explicitOpen => true
  | .closed => true
  | _ => false

/-- A zone state is open. -/
def ZState.isOpen : ZState → Bool
  | .implicitOpen => true
  | .explicitOpen => true
  | _ => false

/-- The state as Report Zones and the journal code it. -/
def ZState.code : ZState → Nat
  | .empty => 1
  | .implicitOpen => 2
  | .explicitOpen => 3
  | .closed => 4
  | .readOnly => 13
  | .full => 14
  | .offline => 15

/-! ### Bands (R124 to R128) -/

/-- Slots that `dd` data-class slots take in a band: header, footer and the parity of each group (R128). -/
def slotsFor (g p dd : Nat) : Nat := 4 + dd + p * ((dd + g - 1) / g)

/-- DMAX: the largest number of data-class slots that fits into `s` good slots (R128). -/
def dmaxOf (g p s : Nat) : Nat :=
  if g = 0 ∨ s < 4 then 0
  else
    let full := (s - 4) / (g + p)
    let rest := (s - 4) % (g + p)
    full * g + (if rest ≤ p then 0 else rest - p)

/-- ZCAP of a band (R128). -/
def zcapOf (dmax : Nat) : Nat := min 65536 (64 * (dmax / 66))

/-- The slot of a data-class index (R125). -/
def slotOf (g p i : Nat) : Nat := 2 + i + p * (i / g)

/-- A band's row. -/
def Tables.band (t : Tables) (b : Nat) : Option Band := Sparse.find t.bands b

/-- The tables with a band's row replaced. -/
def Tables.setBand (t : Tables) (b : Nat) (x : Band) : Tables := { t with bands := Sparse.ins t.bands b x }

/-- The tables with a band's row changed, where it has one. -/
def Tables.updBand (t : Tables) (b : Nat) (f : Band → Band) : Tables :=
  match t.band b with
  | none => t
  | some x => t.setBand b (f x)

/-- Bands closed and not yet verified (R160). -/
def Tables.unverified (t : Tables) : Nat := (t.bands.filter fun p => p.2.st == .closed).length

/-! ### Applying what happened to the tables (R97, R143, R147, R148, R156) -/

/-- A zone's write pointer moved to `wp`: at its capacity it is Full. -/
def Zone.advance (z : Zone) (wp : Nat) : Zone :=
  let st := if z.cap ≤ wp ∨ z.st = .full then ZState.full else if z.st.isOpen then z.st else .implicitOpen
  { z with wp := wp, st := st }

/-- A unit that is durable: its blocks are mapped; in a zone the write pointer passes it (R97, R143). A move maps only blocks whose
entry still names the source (R158). -/
def Tables.applyUnit (t : Tables) (zoned : Bool) (nsid lba n band index : Nat) (src : Option (Nat × Nat)) : Tables :=
  let t := t.mapRange nsid lba n fun b l =>
    match src with
    | none => .at_ band (index + (b - lba))
    | some (sb, si) => if l = .at_ sb (si + (b - lba)) then .at_ band (index + (b - lba)) else l
  let t := t.updBand band fun x => { x with next := max x.next (index + n + 2), units := x.units + 1 }
  if !zoned ∨ src.isSome = true then t
  else t.setZone nsid (lba / 65536) ((t.zone nsid (lba / 65536)).advance ((lba + n) % 65536 + (if (lba + n) % 65536 = 0 then 65536 else 0)))

/-- Every chunk of a namespace unwritten and every zone of it Empty (R143, R156). -/
def Tables.emptyNs (t : Tables) (nsid : Nat) : Tables :=
  { t with
    chunks := t.chunks.filter fun p => p.1 / 2 ^ 32 != nsid
    zones := t.zones.filter fun p => p.1 / 2 ^ 32 != nsid }

/-- A zone as a Finish, Reset or Offline leaves it. A Reset shows the capacity of the band last held (R147). -/
def Zone.after (z : Zone) (st : ZState) (wp : Nat) : Zone :=
  match st with
  | .empty => { z with st := .empty, wp := 0, band := none, finished := false }
  | .offline => { z with st := .offline, wp := wp, band := none }
  | st => { z with st := st, wp := wp }

/-- The effect of a committed record on the tables, as a rebuild applies it (R143). -/
def Tables.applyRec (t : Tables) (zonedOf : Nat → Bool) (g p : Nat) : JRec → Tables
  | .unit _ nsid lba n band index src => t.applyUnit (zonedOf nsid) nsid lba n band index src
  | .zeroRange _ nsid lba n => t.mapRange nsid lba n fun _ _ => .unwritten
  | .zoneState _ nsid zslba st wp =>
    let t := if st = .empty then t.mapRange nsid zslba 65536 fun _ _ => .unwritten else t
    t.setZone nsid (zslba / 65536) ((t.zone nsid (zslba / 65536)).after st wp)
  | .bandOpen _ nsid zslba band lane head slots =>
    let dmax := dmaxOf g p slots
    let t := t.setBand band
      { lane := lane, head := head, st := .opened, nsid := nsid, zslba := zslba, slots := slots, dmax := dmax, next := 0, units := 0 }
    if nsid = 0 then t
    else t.setZone nsid (zslba / 65536) { t.zone nsid (zslba / 65536) with band := some band, cap := zcapOf dmax }
  | .bandClose _ band _ => t.updBand band fun x => { x with st := .closed }
  | .frontier .. => t
  | .bandVerified _ band => t.updBand band fun x => { x with st := .verified }
  | .relocation _ _ band index => t.updBand band fun x => { x with reloc := x.reloc ++ [index] }
  | .lostRange _ nsid lba n band => t.mapRange nsid lba n fun _ l =>
      match l with | .at_ b _ => if b = band then .lost else l | l => l
  | .bandFree _ band => { t with bands := Sparse.del t.bands band }
  | .nsEvent _ nsid what _ => if what = 1 then t else t.emptyNs nsid
  | .moveSource .. => t
  | .rebuildDone .. => t

/-- A record's store sequence; a frontier record has none (R138). -/
def JRec.seq : JRec → Nat
  | .unit s .. => s
  | .zeroRange s .. => s
  | .zoneState s .. => s
  | .bandOpen s .. => s
  | .bandClose s .. => s
  | .frontier .. => 0
  | .bandVerified s _ => s
  | .relocation s .. => s
  | .lostRange s .. => s
  | .bandFree s _ => s
  | .nsEvent s .. => s
  | .moveSource s .. => s
  | .rebuildDone s .. => s

/-! ### On the device -/

/-- The device with the store's tables changed. -/
def Device.updTables (d : Device) (f : Tables → Tables) : Device := d.updHost fun h => { h with tables := f h.tables }

/-- Whether a namespace is zoned. -/
def Device.zonedNs (d : Device) (n : Nat) : Bool := match d.ns n with | none => false | some x => x.zoned

/-- A zone's row. -/
def Device.zone (d : Device) (nsid z : Nat) : Zone := d.host.tables.zone nsid z

/-- The device with a zone's row changed. -/
def Device.updZone (d : Device) (nsid z : Nat) (f : Zone → Zone) : Device :=
  d.updTables fun t => t.setZone nsid z (f (t.zone nsid z))

/-- G and P (R125). -/
def Device.stripeG (d : Device) : Nat := d.rd CB_STRIPE_G
def Device.stripeP (d : Device) : Nat := d.rd CB_STRIPE_P

/-- A value taken from the store sequence (R138). -/
def Device.takeSeq (d : Device) : Nat × Device := (d.host.seq, d.updHost fun h => { h with seq := h.seq + 1 })

/-- A record queued for the journal. Its sector is written at once where R140 asks for it. -/
def Device.queueRec (d : Device) (r : JRec) (cmd : Option Nat := none) : Device :=
  d.updHost fun h => { h with jpend := h.jpend ++ [⟨h.jnext, r, cmd⟩], jnext := h.jnext + 1 }

/-- A record that takes a sequence of its own, queued. -/
def Device.queueSeq (d : Device) (f : Nat → JRec) : Device :=
  let (s, d) := d.takeSeq
  d.queueRec (f s)

/-- The open bands, with their next index: the frontier records of a sector (R140). -/
def Device.openBands (d : Device) : List (Nat × Nat) :=
  (d.host.tables.bands.filter fun p => p.2.st == .opened).map fun p => (p.1, p.2.next)

/-- The frontier of an open band while `rest` still waits: every unit below it has its record in a sector (R139). -/
def frontierOf (rest : List JPend) (b next : Nat) : Nat :=
  (rest.filterMap fun p => match p.rec_ with | .unit _ _ _ _ b' i _ => if b' = b then some i else none | _ => none).foldl min next

/-- JOURNAL_SECTOR_WRITE: pending records go to both copies, with a frontier record for every open band, 126 in all (R139, R140). -/
def Device.writeSector (d : Device) : Device :=
  if d.host.jpend.isEmpty && d.openBands.isEmpty then d
  else
    let room := 126 - d.openBands.length
    let rest := d.host.jpend.drop room
    let fr := d.openBands.map fun p => ({ no := d.host.jnext, rec_ := .frontier p.1 (frontierOf rest p.1 p.2) } : JPend)
    d.updHost fun h => { h with jpend := rest, jflight := h.jflight ++ [h.jpend.take room ++ fr] }

/-- Sectors are written until no record is pending. -/
def Device.flushJournal (d : Device) : Device :=
  if d.host.jpend.isEmpty then d
  else (List.range ((d.host.jpend.length + 125) / max 1 (126 - d.openBands.length) + 1)).foldl
    (fun d _ => if d.host.jpend.isEmpty then d else d.writeSector) d

/-- A journal sector is due once a full sector's records are pending (R140). -/
def Device.journalFull (d : Device) : Device := if 126 ≤ d.host.jpend.length + d.openBands.length then d.writeSector else d

/-- Free bands of a lane: those the band table does not list (R159, R160). -/
def Device.freeBands (d : Device) (l : Lane) : Nat :=
  (match l with | .ln0 => d.medium.bands0 | .ln1 => d.medium.bands1) - (d.host.tables.bands.filter fun p => p.2.lane == l).length

/-- BAND_OPEN: a free band is taken, its header written, a band-open record queued (R127, R147). -/
def Device.openBand (d : Device) (pl : Place) (nsid zslba : Nat) : Device :=
  let (s, d) := d.takeSeq
  let r := JRec.bandOpen s nsid zslba pl.band pl.lane pl.head pl.slots
  let d := (d.queueRec r).updTables fun t => t.applyRec d.zonedNs d.stripeG d.stripeP r
  { d with medium := { d.medium with
      bands := Sparse.ins d.medium.bands pl.band []
      geom := Sparse.ins d.medium.geom pl.band (pl.lane, (pl.head, pl.slots)) } }

/-- A band may be taken: it is free, and its lane has a free one. -/
def Device.bandFree (d : Device) (pl : Place) : Bool :=
  (d.host.tables.band pl.band).isNone && decide (0 < d.freeBands pl.lane)

/-- Whether a unit in flight is scheduled in a band and has not ended. -/
def Device.bandBusy (d : Device) (b : Nat) : Bool :=
  d.host.cmds.any (fun c => c.units.any fun u => u.band == some b && !u.ended) ||
    d.host.moves.any (fun p => p.2.c1 != .good && p.2.src.isSome && p.1 == b)

/-- BAND_CLOSE: the footer is written, a band-close record queued, and the band joins the verification queue (R127, R150). -/
def Device.closeBand (d : Device) (b : Nat) : Device :=
  match d.host.tables.band b with
  | none => d
  | some x =>
    if x.st ≠ .opened then d
    else
      let (s, d) := d.takeSeq
      let r := JRec.bandClose s b x.next
      let d := (d.queueRec r).updTables fun t => t.applyRec d.zonedNs d.stripeG d.stripeP r
      d.updHost fun h => { h with verify := h.verify ++ [b] }

/-- A read in flight still needs a block of the band (R101). -/
def Device.bandNeeded (d : Device) (b : Nat) : Bool :=
  d.host.cmds.any fun c => c.blocks.any fun r =>
    !r.sent && r.chain.any fun s => match s with | .medium b' _ => b' == b | _ => false

/-- A band given up: a band-free record is queued; the band is reused only once it is committed and R101 holds (R140, R157). -/
def Device.giveUpBand (d : Device) (b : Nat) : Device :=
  match d.host.tables.band b with
  | none => d
  | some x =>
    let (s, d) := d.takeSeq
    let d := d.queueRec (.bandFree s b)
    (d.updTables fun t => t.setBand b { x with st := .freeing }).updHost fun h => { h with verify := h.verify.filter (· != b) }

/-- Every band of a freed state whose record is committed and that no read needs goes back to its lane's free bands. -/
def Device.reclaim (d : Device) (b : Nat) : Device :=
  match d.host.tables.band b with
  | none => d
  | some x =>
    let pendingRec := d.host.jpend.any (fun p => match p.rec_ with | .bandFree _ b' => b' == b | _ => false) ||
      d.host.jflight.any (fun s => s.any fun p => match p.rec_ with | .bandFree _ b' => b' == b | _ => false)
    if x.st ≠ .freeing ∨ pendingRec = true ∨ d.bandNeeded b = true then d
    else
      let d := d.updTables fun t => { t with bands := Sparse.del t.bands b }
      { d with medium := { d.medium with bands := Sparse.del d.medium.bands b } }

/-- `reclaim` for every band. -/
def Device.reclaimAll (d : Device) : Device := (d.host.tables.bands.map (·.1)).foldl Device.reclaim d

/-- The units written in a band. -/
def Device.bandUnits (d : Device) (b : Nat) : List MUnit := (Sparse.find d.medium.bands b).getD []

/-- The block stored at a data-class index of a band, if a unit holds it there. -/
def Device.stored (d : Device) (b i : Nat) : Option Blk :=
  match (d.bandUnits b).find? (fun u => decide (u.index ≤ i) && decide (i < u.index + u.n)) with
  | none => none
  | some u => u.data[i - u.index]?

/-- The device with the units of a band changed. -/
def Device.updBandUnits (d : Device) (b : Nat) (f : List MUnit → List MUnit) : Device :=
  { d with medium := { d.medium with bands := Sparse.ins d.medium.bands b (f (d.bandUnits b)) } }

/-- The protection information and data of a block that was never written or is deallocated (R64, R155): guard the CRC-16 of 4,096
zero bytes, which is 0, application tag 0xFFFF, reference tag 0xFFFF_FFFF, where the namespace carries protection information. -/
def zeroBlk (x : Ns) : Blk :=
  if x.pit = 0 then {}
  else { data := 0, md := 0xFFFFFFFFFFFF0000 * 2 ^ (if x.fmt = 2 ∧ x.piFirst = false then 64 else 0) }

/-- A block holding a 32-bit overwrite pattern 1,024 times, its protection information as a never-written block's (R156). -/
def fillBlk (x : Ns) (p : Nat) : Blk :=
  { zeroBlk x with data := ofBytes ((List.replicate 1024 (bytesOf 4 p)).flatten) }

end Sys2Proof.Machine
end

