-- ==== Sys2Proof/Machine/IoOps.lean ====
section
/-!
DEFINITION. How fetched I/O commands end: completion with stamp and NEWMAP, meters, pages, and what the end of a unit does to readers,
zones and later commands (R97 to R111, R398).
-/
namespace Sys2Proof.Machine

/-! ### Completion (R62, R88, R97, R108, R398) -/

/-- The status is one the device gives an aborted command. -/
def Status.isAbort : Status → Bool
  | .abortedSq => true
  | .abortRequested => true
  | _ => false

/-- NEWMAP's bit of unit `k` (R108). -/
def newBits (us : List WUnit) : Nat :=
  (us.zipIdx.map fun p => if p.1.st = .new then 2 ^ p.2 else 0).foldl (· + ·) 0

/-- DW1 of a Write, Write Zeroes or Deallocate (R108). -/
def Cmd.dw1 (c : Cmd) (st : Status) : Nat :=
  if st = .success ∨ (c.started = false ∧ st.isAbort = false) then 0
  else
    match c.op with
    | .write .. => 2 ^ 31 + 256 * c.units.length + newBits c.units
    | .writeZeroes .. =>
      if c.units.isEmpty then 2 ^ 31 + 256 + (if c.waitJ.isSome then 1 else 0)
      else 2 ^ 31 + 256 * c.units.length + newBits c.units
    | .deallocate rs => 2 ^ 31 + 256 * min 8 rs.length + (if c.waitJ.isSome then 2 ^ min 8 rs.length - 1 else 0)
    | _ => 0

/-- DW0 and DW1 of an I/O completion (R62, R91, R108). -/
def Cmd.dws (c : Cmd) (st : Status) : Nat × Nat :=
  match c.op with
  | .zoneAppend .. => if st = .success ∨ c.started = true then (c.lba % 2 ^ 32, c.lba / 2 ^ 32) else (0, 0)
  | _ => (c.stamp.getD 0, c.dw1 st)

/-- Blocks of the units that are new. -/
def Cmd.newBlocks (c : Cmd) : Nat := ((c.units.filter (·.st == .new)).map (·.n)).foldl (· + ·) 0

/-- A completion counted in the meters of its namespace (R398). -/
def Meter.count (m : Meter) (c : Cmd) (st : Status) : Meter :=
  match c.op with
  | .read _ n _ => { m with reads := m.reads + 1, bytesRead := m.bytesRead + (if st = .success then 4096 * n else 0) }
  | .write .. => { m with writes := m.writes + 1, bytesWritten := m.bytesWritten + 4096 * c.newBlocks }
  | .zoneAppend .. => { m with writes := m.writes + 1, bytesWritten := m.bytesWritten + 4096 * c.newBlocks }
  | _ => { m with others := m.others + 1 }

/-- The device with a namespace's meter changed. -/
def Device.updMeter (d : Device) (n : Nat) (f : Meter → Meter) : Device :=
  { d with meters := Sparse.put (fun _ => {}) d.meters n (f (Sparse.get (fun _ => {}) d.meters n)) }

/-- COMPLETION_POST for an I/O command, counted (R61, R398). A failed write is logged (R122). -/
def Device.finish (d : Device) (c : Cmd) (st : Status) : Device :=
  let (a, b) := c.dws st
  let d := d.post c.id st a b
  let d := if c.stamp.isSome then d.updMeter c.nsid fun m => m.count c st else d
  if st = .writeFault then d.log 0 0x100D [c.nsid, c.stamp.getD 0, b] else d

/-- The entries of a command leave the table, unless a page of its units is still pinned (R97). -/
def Device.dropEntries (d : Device) (no : Nat) : Device :=
  if d.host.owed.any (·.2 == no) then d
  else d.updHost fun h => { h with table := h.table.filter (·.cmd != no) }

/-- A page's pin count set, in the table of pins and in its side area (R99, R344). -/
def Device.setPins (d : Device) (p n : Nat) : Device :=
  (d.updHost fun h => { h with pins := Sparse.setCnt h.pins p n }).writePage p ((d.page p).withPins n)

/-- A copy from a page ends: the page is unpinned, and goes back to the pool if its unit has ended (R97, R99). -/
def Device.unpin (d : Device) (p : Nat) : Device :=
  let n := Sparse.cnt d.host.pins p - 1
  let d := d.setPins p n
  if n ≠ 0 then d
  else
    match d.host.owed.find? (·.1 == p) with
    | none => d
    | some (_, no) =>
      let d := (d.updHost fun h => { h with owed := h.owed.filter (·.1 != p) }).releasePage p
      if (d.host.cmds.any (·.no == no)) then d else d.dropEntries no

/-- A command leaves: completed, or in silence after a controller reset (R116). -/
def Device.endCmd (d : Device) (c : Cmd) (st : Status) : Device :=
  let d := d.updHost fun h => { h with cmds := h.cmds.filter (·.no != c.no) }
  let d := if c.silent then d else d.finish c st
  ((c.blocks.filterMap (·.copying)).foldl Device.unpin d).dropEntries c.no

/-! ### Units that end (R97, R99, R100, R102) -/

/-- Pages of an ended unit: unpinned ones go back to the pool, pinned ones when their last copy ends. -/
def Device.letGo (d : Device) (no : Nat) (pages : List Nat) : Device :=
  let pinned := pages.filter fun p => decide (0 < Sparse.cnt d.host.pins p)
  let d := d.releasePages (pages.filter fun p => decide (Sparse.cnt d.host.pins p = 0))
  d.updHost fun h => { h with owed := h.owed ++ pinned.map fun p => (p, no) }

/-- The device with every block of every read in flight changed. -/
def Device.mapReads (d : Device) (f : Cmd → Nat → RBlk → RBlk) : Device :=
  d.updHost fun h => { h with cmds := h.cmds.map fun c =>
    { c with blocks := c.blocks.zipIdx.map fun p => f c p.2 p.1 } }

/-- A block's chain once unit `k` of command `no` is durable with the block at `(b, i)`. -/
def chainNew (no k : Nat) (loc : Src) : List Src → List Src
  | [] => []
  | s :: rest => if s = .fwd no k then [loc] else s :: chainNew no k loc rest

/-- A block's chain once unit `k` of command `no` has ended all-old: a source sent from is marked, one not yet used is left out. -/
def chainOld (no k : Nat) (used : Bool) : List Src → List Src
  | [] => []
  | s :: rest => if s = .fwd no k then (if used then .gone :: rest else rest) else s :: rest.filter (· != .fwd no k)

/-- The first block of a read. -/
def IoOp.slba : IoOp → Nat
  | .read s _ _ => s
  | .verify s _ _ => s
  | .write s _ _ => s
  | .writeZeroes s _ => s
  | .zoneAppend s _ _ => s
  | .zoneReceive s _ => s
  | .zoneSend _ s _ => s
  | _ => 0

/-- A unit ends all-old: its pages go back, and reads that forwarded from it must take the blocks again (R100, R102). -/
def Device.unitOld (d : Device) (no k : Nat) : Device :=
  match d.cmdNo no with
  | none => d
  | some c =>
    match c.units[k]? with
    | none => d
    | some u =>
      if u.ended then d
      else
        let d := d.updUnit no k fun u => { u with st := .old, pages := [] }
        (d.letGo no u.pages).mapReads fun _ _ r =>
          { r with chain := chainOld no k (r.sent || r.copying.isSome) r.chain }

/-- Every unit of a command from `k` on that has not ended ends all-old. -/
def Device.unitsOldFrom (d : Device) (no k : Nat) : Device :=
  match d.cmdNo no with
  | none => d
  | some c => ((List.range c.units.length).filter (k ≤ ·)).foldl (fun d j => d.unitOld no j) d

/-- A command fails from unit `k` on: that unit and every later one ends all-old (R103). The first failure stands. -/
def Device.failFrom (d : Device) (no k : Nat) (st : Status) : Device :=
  (d.updCmd no fun c => { c with fail := c.fail <|> some st }).unitsOldFrom no k

/-- A command is not executed: it completes with the status, having changed nothing (R88, R111). -/
def Device.notExecuted (d : Device) (no : Nat) (st : Status) : Device :=
  (d.updCmd no fun c => { c with fail := some st, started := false, ended := true }).unitsOldFrom no 0

/-- The zone a command writes or sends to, in a zoned namespace (R96). -/
def Cmd.zone? (d : Device) (c : Cmd) : Option Nat :=
  if !d.zonedNs c.nsid then none
  else
    match c.op with
    | .write .. => some (c.lba / 65536)
    | .writeZeroes .. => some (c.lba / 65536)
    | .zoneAppend .. => some (c.lba / 65536)
    | _ => none

/-- Fetched commands after `no` that write to a zone. -/
def Device.laterWrites (d : Device) (no nsid z : Nat) : List Nat :=
  (d.host.cmds.filter fun c => decide (no < c.no) && c.nsid == nsid && c.zone? d == some z && !c.silent).map (·.no)

/-- Fetched zone-state changes after `no` to a zone. -/
def Device.laterSends (d : Device) (no nsid z : Nat) : List Nat :=
  (d.host.cmds.filter fun c => decide (no < c.no) && c.nsid == nsid && c.zones.contains z &&
    (match c.op with | .zoneSend .. => true | _ => false)).map (·.no)

/-- A zoned write ended with units all-old (R111): by Write Fault the zone is Read Only; otherwise its write pointers go back to the end
of the last new unit. Later commands to the zone are not executed. -/
def Device.zoneAfterFailure (d : Device) (c : Cmd) (z : Nat) (st : Status) : Device :=
  let wp := (c.lba + c.newBlocks) - 65536 * z
  if st = .writeFault then
    let d := d.updZone c.nsid z fun x => { x with st := .readOnly, fst := .readOnly, wp := wp, fwp := wp }
    (d.laterWrites c.no c.nsid z ++ d.laterSends c.no c.nsid z).foldl (fun d n => d.notExecuted n .zoneReadOnly) d
  else
    let d := d.updZone c.nsid z fun x =>
      { x with wp := wp, fwp := wp, fst := if x.fst = .full ∧ (d.laterSends c.no c.nsid z).isEmpty = true then x.st else x.fst }
    (d.laterWrites c.no c.nsid z).foldl (fun d n => d.notExecuted n .zoneInvalidWrite) d

/-- How a fetched command stands: its final status once it has one and nothing more is to happen (R100, R106). -/
def Cmd.verdict (c : Cmd) : Option Status :=
  match c.op with
  | .read .. | .verify .. =>
    match c.fail with
    | some st => some st
    | none =>
      if c.started && c.blocks.all (fun r => r.sent && (match r.chain with | .fwd .. :: _ => false | .gone :: _ => false | _ => true)) then
        some .success
      else none
  | .write .. | .zoneAppend .. =>
    if c.units.all WUnit.ended then some (c.fail.getD .success) else none
  | .writeZeroes .. =>
    if c.units.isEmpty then (if c.ended then some (c.fail.getD .success) else none)
    else if c.units.all WUnit.ended then some (c.fail.getD .success) else none
  | _ => if c.ended then some (c.fail.getD .success) else none

/-- One command looked at: if it has come to its end it completes, with what its failure does to its zone (R106, R111). -/
def Device.settleOne (d : Device) (no : Nat) : Device :=
  match d.cmdNo no with
  | none => d
  | some c =>
    match c.verdict with
    | none => d
    | some st =>
      let d :=
        match c.zone? d with
        | none => d
        | some z => if c.started && st != Status.zoneFull && c.units.any (·.st == UnitSt.old) then d.zoneAfterFailure c z st else d
      d.endCmd c st

/-- Commands before `no` that still act on a zone. -/
def Device.zoneBusy (d : Device) (no nsid z : Nat) : Bool :=
  d.host.cmds.any fun c => decide (c.no < no) && c.nsid == nsid &&
    (c.zone? d == some z ||
      (match c.op with | .zoneSend .. => c.zones.contains z && !c.ended | _ => false))

/-- A waiting Zone Management Receive takes the zones no earlier command still acts on, as they now stand (R87). -/
def Device.takeZones (d : Device) (c : Cmd) : Cmd :=
  match c.op with
  | .zoneReceive .. =>
    let ready := c.zones.filter fun z => !d.zoneBusy c.no c.nsid z
    { c with
      zones := c.zones.filter fun z => !ready.contains z
      snap := ready.foldl (fun t z => Sparse.ins t z (d.zone c.nsid z)) c.snap }
  | _ => c

/-- Every fetched command looked at in fetch order; zone reports take what they now may; bands no longer needed go free (R101). -/
def Device.settle (d : Device) : Device :=
  let d := (d.host.cmds.map (·.no)).foldl Device.settleOne d
  (d.updHost fun h => { h with cmds := h.cmds.map d.takeZones }).reclaimAll

/-- A command aborted with a status (R116 to R118): a unit whose first sector is written goes on, every other unit ends all-old; a map
operation whose record is in the journal runs to its end; a Zone Management Send is not aborted. -/
def Device.abortCmd (d : Device) (no : Nat) (st : Status) : Device :=
  match d.cmdNo no with
  | none => d
  | some c =>
    match c.op with
    | .zoneSend .. => d
    | .write .. | .zoneAppend .. | .writeZeroes .. | .deallocate _ =>
      let d := d.updCmd no fun k => { k with fail := k.fail <|> some st, ended := k.ended || (k.units.isEmpty && k.waitJ.isNone) }
      ((c.units.zipIdx.filter fun p => p.1.st != UnitSt.writing).map (·.2)).foldl (fun d k => d.unitOld no k) d
    | _ => d.updCmd no fun k => { k with fail := k.fail <|> some st, ended := true }

/-- A unit is durable (R97, R105): the map takes it, its unit record is queued, its pages go back, its readers are served from the
medium. -/
def Device.unitNew (d : Device) (no k : Nat) : Device :=
  match d.cmdNo no with
  | none => d
  | some c =>
    match c.units[k]? with
    | none => d
    | some u =>
      let b := u.band.getD 0
      let d := d.updTables fun t => t.applyUnit (d.zonedNs c.nsid) c.nsid u.lba u.n b u.index none
      let d := d.queueRec (.unit u.seq c.nsid u.lba u.n b u.index none) (some no)
      let d := d.updUnit no k fun u => { u with st := .new, pages := [] }
      let d := d.mapReads fun r i x =>
        { x with chain := chainNew no k (.medium b (u.index + (r.op.slba + i - u.lba))) x.chain }
      d.letGo no u.pages

end Sys2Proof.Machine
end

