-- ==== Sys2Proof/Machine/LaneOps.lean ====
section
/-!
DEFINITION. What the families of the lanes and of the spindle share: the parts of a lane, the running operation of a sequencer, outcomes
and stop causes, the write gate and its inhibit, the servo's and the spindle's change of state, emergency retract (R234, R259, R264, R281,
R319, R320, R321).
-/
namespace Sys2Proof.Machine

/-- Both lanes. -/
def bothLanes : List Lane := [.ln0, .ln1]

/-- A field list set: each register field takes its value. -/
def Device.wrAll (d : Device) (fs : List (RF × Nat)) : Device := fs.foldl (fun d p => d.wr p.1 p.2) d

/-! ### The parts of a lane -/

def Device.ch (d : Device) (l : Lane) : ChSt := (d.lane l).ch
def Device.wrp (d : Device) (l : Lane) : WrSt := (d.lane l).wr
def Device.sv (d : Device) (l : Lane) : SvSt := (d.lane l).sv
def Device.ps (d : Device) (l : Lane) : PsSt := (d.lane l).ps

/-- The device with a lane's channel changed. -/
def Device.updCh (d : Device) (l : Lane) (f : ChSt → ChSt) : Device := d.updLane l fun x => { x with ch := f x.ch }

/-- The device with a lane's write path changed. -/
def Device.updWr (d : Device) (l : Lane) (f : WrSt → WrSt) : Device := d.updLane l fun x => { x with wr := f x.wr }

/-- The device with a lane's servo changed. -/
def Device.updSv (d : Device) (l : Lane) (f : SvSt → SvSt) : Device := d.updLane l fun x => { x with sv := f x.sv }

/-- The device with a lane's power-stage link changed. -/
def Device.updPs (d : Device) (l : Lane) (f : PsSt → PsSt) : Device := d.updLane l fun x => { x with ps := f x.ps }

/-- The device with the Eltik link's and duplex's state changed. -/
def Device.updElk (d : Device) (f : ElkSt → ElkSt) : Device := { d with elk := f d.elk }

/-- The device with the spindle changed. -/
def Device.updSpin (d : Device) (f : SpinSt → SpinSt) : Device := { d with spin := f d.spin }

/-- A balance engine (R247). -/
def Device.be (d : Device) : BEng → BeSt
  | .lane l => (d.lane l).be
  | .spindle => d.spin.be

/-- The device with a balance engine changed. -/
def Device.updBe (d : Device) (e : BEng) (f : BeSt → BeSt) : Device :=
  match e with
  | .lane l => d.updLane l fun x => { x with be := f x.be }
  | .spindle => d.updSpin fun x => { x with be := f x.be }

/-- LN1's units that R198 and R211 hold in every structure but the two-lane one. -/
def Device.held1 (d : Device) (l : Lane) : Bool := l == .ln1 && !d.twoLane

/-- Same-pass verification is fitted (R210, R211). -/
def Device.wguard1 (d : Device) : Bool := d.rd CB_WGUARD_MODE == 1

/-- The unit logs as its section (R425). -/
def BEng.src : BEng → Nat
  | .lane l => l.src
  | .spindle => 7

/-! ### Sequencers and their operations (R304 to R331) -/

/-- A sequencer. -/
def Device.ec (d : Device) (q : SeqId) : EcSt := if q.second then (d.lane q.lane).ec1 else (d.lane q.lane).ec0

/-- The device with a sequencer changed. -/
def Device.updEc (d : Device) (q : SeqId) (f : EcSt → EcSt) : Device :=
  d.updLane q.lane fun x => if q.second then { x with ec1 := f x.ec1 } else { x with ec0 := f x.ec0 }

/-- The device with a sequencer's operation changed. -/
def Device.updOp (d : Device) (q : SeqId) (f : EcOp → EcOp) : Device := d.updEc q fun x => { x with op := x.op.map f }

/-- The two sequencers of a lane. -/
def laneSeqs (l : Lane) : List SeqId := [⟨l, false⟩, ⟨l, true⟩]

/-- Word `i` of an operation's descriptor (R305). -/
def EcOp.w (o : EcOp) (i : Nat) : Nat := o.desc.getD i 0

def EcOp.code (o : EcOp) : Nat := bitsOf (o.w 0) 0 8
def EcOp.flags (o : EcOp) : Nat := bitsOf (o.w 0) 8 8
def EcOp.retryFlag (o : EcOp) : Bool := o.flags.testBit 0
def EcOp.stripe (o : EcOp) : Bool := o.flags.testBit 1
def EcOp.verify (o : EcOp) : Bool := o.flags.testBit 2
def EcOp.r (o : EcOp) : Nat := bitsOf (o.w 0) 16 8
def EcOp.head (o : EcOp) : Nat := bitsOf (o.w 0) 24 8
def EcOp.zone (o : EcOp) : Nat := bitsOf (o.w 1) 0 8
def EcOp.kind (o : EcOp) : Nat := bitsOf (o.w 1) 8 8
def EcOp.count (o : EcOp) : Nat := bitsOf (o.w 1) 16 16
def EcOp.band (o : EcOp) : Nat := o.w 2
def EcOp.first (o : EcOp) : Nat := o.w 3
def EcOp.track (o : EcOp) : Nat := o.w 4
def EcOp.sector (o : EcOp) : Nat := bitsOf (o.w 5) 0 16
def EcOp.revLimit (o : EcOp) : Nat := bitsOf (o.w 5) 16 8
def EcOp.skipAddr (o : EcOp) : Nat := o.w 6 + 2 ^ 32 * bitsOf (o.w 7) 0 8
def EcOp.skipCount (o : EcOp) : Nat := bitsOf (o.w 8) 0 16
def EcOp.tag (o : EcOp) : Nat := o.w 9
def EcOp.pageAddr (o : EcOp) : Nat := o.w 10 + 2 ^ 32 * bitsOf (o.w 11) 0 8

/-- Codes 0x02, 0x05 and 0x06 write (R306). -/
def EcOp.writes (o : EcOp) : Bool := o.code == 2 || o.code == 5 || o.code == 6

/-- The leading slots that are complete: read with an outcome other than 15, or written in full (R321). -/
def EcOp.doneFrom (o : EcOp) : Nat → Nat → Nat
  | 0, k => k
  | fuel + 1, k =>
    match Sparse.find o.res k with
    | some c => if c = 15 then k else o.doneFrom fuel (k + 1)
    | none => k

/-- DONE of EC_PROG. -/
def EcOp.done (o : EcOp) : Nat := o.doneFrom o.count 0

/-- A slot is armed or under a gate of this operation. -/
def EcOp.armed (o : EcOp) : Bool := !o.rArms.isEmpty || !o.wArms.isEmpty

/-- A slot of the sequencer is under capture or in recovery. -/
def Device.seqSlots (d : Device) (q : SeqId) : Bool :=
  d.lane0.ch.slots.any (fun s => s.seq == q) || d.lane1.ch.slots.any (fun s => s.seq == q)

/-- EC_PROG.DONE follows the operation (R321). -/
def Device.showDone (d : Device) (q : SeqId) : Device :=
  match (d.ec q).op with
  | none => d
  | some o => d.wr (EC_PROG_DONE q) o.done

/-- The channel or the hardware reports a slot's result to the escapement (R184, R321). -/
def Device.slotResult (d : Device) (q : SeqId) (k code : Nat) : Device :=
  (d.updOp q fun o => { o with res := Sparse.ins o.res k code }).showDone q

/-- The channel reports a sector's outcome: it waits in the outcome FIFO (R184, R313). -/
def Device.report (d : Device) (q : SeqId) (k code : Nat) : Device :=
  (d.updOp q fun o => { o with outs := o.outs ++ [(code, k)] }).slotResult q k code

/-- Word 3 of a completion: the first slot with outcome 7 or a verify miss, and how many there are (R308). -/
def EcOp.failed (o : EcOp) : Nat :=
  let bad := (List.range o.count).filter fun k => Sparse.find o.res k == some 7 || o.vmiss.contains k
  (bad.head?.getD 0xFFFF) * 2 ^ 16 + bad.length

/-- An operation ends with a completion (R308). -/
def Device.completeOp (d : Device) (q : SeqId) (status code causes : Nat) : Device :=
  match (d.ec q).op with
  | none => d
  | some o =>
    let cpl := [status * 2 ^ 24 + code % 256 * 2 ^ 16 + causes * 2 ^ 8, o.tag, (d.word (EC_PROG q)).toNat, o.failed]
    ((d.updEc q fun x => { x with op := none, cpls := x.cpls ++ [cpl] }).wr (EC_INT_CPL q) 1).wr (EC_STATUS_RUN q) 0

/-- A routine that has ended completes once no verdict is outstanding (R308). -/
def Device.endDue (d : Device) (q : SeqId) : Device :=
  match (d.ec q).op with
  | none => d
  | some o =>
    match o.ending with
    | none => d
    | some code => if o.vpend.isEmpty then d.completeOp q 0 code 0 else d

/-- A pending stop is taken at a safe point: every arm not started is discarded and the sequencer stops fetching (R320). -/
def Device.takeStop (d : Device) (q : SeqId) : Device :=
  let causes := d.rd (EC_STOP_CAUSES q)
  match (d.ec q).op with
  | none => d
  | some o =>
    if causes = 0 ∨ o.stopping.isSome = true then d
    else
      let gated := match (d.wrp q.lane).gate with | some (g, k, _) => if g = q then [k] else [] | none => []
      let d := (d.updOp q fun o => { o with stopping := some causes, rArms := [], wArms := gated, wait := none, ending := none }).wr (EC_CTRL_ABORT q) 0
      if causes.testBit 4 then d.log q.lane.src 0x2025 [o.head, o.track] else d

/-- A stop cause is latched where it applies to the running operation; a WAIT takes it at once (R317, R319). -/
def Device.stopCause (d : Device) (q : SeqId) (bit : Nat) : Device :=
  match (d.ec q).op with
  | none => d
  | some o =>
    let applies := if bit = 1 ∨ bit = 3 then o.writes else if bit = 2 then o.code == 2 || o.code == 5 else true
    if !applies then d
    else
      let d := d.wr ⟨EC_STOP q, bit, 1⟩ 1
      if o.wait.isSome || o.ending.isSome then d.takeStop q else d

/-- A stop cause for both sequencers of a lane. -/
def Device.stopLane (d : Device) (l : Lane) (bit : Nat) : Device := (laneSeqs l).foldl (fun d q => d.stopCause q bit) d

/-- Both sequencers of a lane aborted (R421). -/
def Device.seqAbort (d : Device) (l : Lane) : Device :=
  (laneSeqs l).foldl (fun d q => if (d.ec q).op.isSome then (d.wr (EC_CTRL_ABORT q) 1).stopCause q 0 else d) d

/-! ### Write gate and inhibit (R225, R234) -/

/-- The write gate of a lane is open. -/
def Device.gateOpen (d : Device) (l : Lane) : Bool := (d.wrp l).gate.isSome

/-- The gate closes for another reason than the escapement's request: the sector under it is incomplete (R225, R234). -/
def Device.cutGate (d : Device) (l : Lane) : Device :=
  match (d.wrp l).gate with
  | none => d
  | some (q, k, _) =>
    (d.updWr l fun w => { w with gate := none }).updOp q fun o => { o with wArms := o.wArms.filter (· != k) }

/-- The preamp source is active: an immediate row of R230, or the link down (R229, R234). -/
def Device.paInhibit (d : Device) (l : Lane) : Bool :=
  (d.wrp l).paFault || (d.bit (PA_CTRL_EN l) && !d.bit (PA_STATUS_LINK l))

/-- EMRET_N is asserted (R264). -/
def Device.retracting (d : Device) : Bool := d.emretCause.isSome

/-- Some write-inhibit source of the lane is active (R234, R262). -/
def Device.inhibited (d : Device) (l : Lane) : Bool :=
  d.bit (SV_STATUS_INH l) || (d.sv l).st != .follow || d.shockInh || d.paInhibit l || d.retracting || d.bit (WG_INH_SWINH l)

/-- Every condition of R225 beside the escapement's request. -/
def Device.gateAllowed (d : Device) (l : Lane) : Bool :=
  d.bit (WR_CTRL_EN l) && d.bit (PA_CTRL_EN l) && d.bit (PA_STATUS_LINK l) && d.bit (WSEL_LOADED l) &&
    d.rd (WSEL_HEAD l) == d.rd (HZSEL_HEAD l) && d.rd (WSEL_ZONE l) == d.rd (HZSEL_ZONE l) &&
    !(d.rd (WR_HDIS_HEADS l)).testBit (d.rd (WSEL_HEAD l)) && !d.inhibited l

/-- The gate closes as soon as a condition of R225 fails. A load that waits for the gate to close has already changed Ln_WSEL's fields, and
counts from then on (R232). -/
def Device.recheckGate (d : Device) (l : Lane) : Device :=
  let same := d.rd (WSEL_HEAD l) == d.rd (HZSEL_HEAD l) && d.rd (WSEL_ZONE l) == d.rd (HZSEL_ZONE l)
  let stands := d.bit (WR_CTRL_EN l) && d.bit (PA_CTRL_EN l) && d.bit (PA_STATUS_LINK l)
    && !(d.rd (WR_HDIS_HEADS l)).testBit (d.rd (WSEL_HEAD l)) && !d.inhibited l && (same || (d.wrp l).loadHeld.isSome)
  if stands then d else d.cutGate l

/-- A source of the lane's write inhibit becomes active: the gate closes at once, and a running write takes the stop cause (R234, R319). -/
def Device.inhibit (d : Device) (l : Lane) : Device := (d.cutGate l).stopLane l 1

/-- The PES source becomes active (R234, R262). -/
def Device.pesInhibit (d : Device) (l : Lane) : Device :=
  if d.bit (SV_STATUS_INH l) then d
  else
    let d := if d.gateOpen l then d.updWr l fun w => { w with neighbour := true } else d
    let d := ((d.wr (SV_STATUS_INH l) 1).wr (WG_INH_PES l) 1).wr (WR_INT_PES_INH l) 1
    (d.inhibit l).log l.src 0x2801 [d.rd (SV_STATUS_HEAD l), d.rd (WSEL_ZONE l), (d.sv l).idx.getD 0, d.rd (SV_PES_PES l)]

/-! ### Servo states and emergency retract (R259, R264) -/

/-- The code of a servo state (R259). -/
def SvState.code : SvState → Nat
  | .off => 0
  | .parked => 1
  | .load => 2
  | .seek => 3
  | .settle => 4
  | .follow => 5
  | .recover => 6
  | .unload => 7
  | .retract => 8
  | .fault => 9

/-- "Loaded" of R259: states 2 to 7. -/
def SvState.loaded (s : SvState) : Bool := decide (2 ≤ s.code) && decide (s.code ≤ 7)

/-- The servo left FOLLOW: a running operation with a slot armed takes SRVLOST (R319), and the PES source is active (R262). -/
def Device.leftFollow (d : Device) (l : Lane) : Device :=
  let armed (q : SeqId) : Bool := (match (d.ec q).op with | none => false | some o => o.armed) || d.seqSlots q
  ((laneSeqs l).foldl (fun e q => if armed q then e.stopCause q 4 else e) d).pesInhibit l

/-- A servo changes its state (R259): the status, the interrupt of any change, and ONTRK, which reads 1 in FOLLOW. -/
def Device.svEnter (d : Device) (l : Lane) (st : SvState) : Device :=
  let was := (d.sv l).st
  let d := d.updSv l fun s => { s with st := st, since := 0, within_ := 0, consistent := 0, recovers := if st = .follow then 0 else s.recovers }
  let d := ((d.wr (SV_STATUS_STATE l) st.code).wr (SV_INT_STATE l) 1).wrB (SV_STATUS_ONTRK l) (st == .follow)
  if was = .follow ∧ st ≠ .follow then d.leftFollow l else d

/-- EMRET_N asserted: both lanes enter RETRACT, and their writing is inhibited; a cause already recorded is kept (R234, R259, R264). -/
def Device.emergencyRetract (d : Device) (cause : Nat) : Device :=
  if d.retracting then d
  else
    let d : Device := { d with emretCause := some cause, emret := .low }
    bothLanes.foldl (fun d l =>
      let d := ((d.wr (PS_STATUS_ECAUSE l) cause).wr (SV_INT_EMRET l) 1).wr (WG_INH_RETRACT l) 1
      ((d.svEnter l .retract).inhibit l).log l.src 0x300C [cause]) d

/-- The cause code of a lane's servo (R264). -/
def Lane.retractCause : Lane → Nat
  | .ln0 => 5
  | .ln1 => 6

/-! ### Spindle states (R280, R281) -/

/-- The code of a spindle state (R280). -/
def SpState.code : SpState → Nat
  | .off => 0
  | .listen => 1
  | .start => 2
  | .catch_ => 3
  | .run => 4
  | .brake => 5
  | .reverse => 6
  | .holdup => 7
  | .coast => 8
  | .fault => 9

/-- "Gates-active" of R281: states 2 to 7. -/
def SpState.active (s : SpState) : Bool := decide (2 ≤ s.code) && decide (s.code ≤ 7)

/-- The spindle changes its state (R280, R302). -/
def Device.spEnter (d : Device) (st : SpState) : Device :=
  let d := d.updSpin fun s =>
    { s with
      st := st
      first := true
      lomega := 0
      duty := if st.active then s.duty else []
      shadow := if st.active then s.shadow else none
      prevOmega := if st.active then s.prevOmega else none
      stopped := if st.active then false else s.stopped }
  (d.wr SP_STATUS_STATE st.code).wr SP_INT_STATE 1

/-- BRK_G turned off (R271, R291). -/
def Device.brkOff (d : Device) : Device :=
  (d.wr SP_STATUS_CHOPON 0).updSpin fun s => { s with brkRef := none }

/-- Gates and BRK_G off; the rotor coasts (R297). -/
def Device.spinOff (d : Device) : Device :=
  let d := d.brkOff
  if d.spin.st.active then d.spEnter .coast else d

/-- The spindle is at speed (R286). -/
def Device.atSpeed (d : Device) : Bool := d.bit SP_STATUS_ATSPEED

/-- The spindle turns (R280). -/
def Device.spinTurning (d : Device) : Bool := !d.spin.stopped

end Sys2Proof.Machine
end

