-- ==== Sys2Proof/Machine/Effects.lean ====
section
/-!
DEFINITION. Effects that several families have on the whole device: a device reset, the sequencers' patch, events to the host, the usage meters
after a reset, activation's pause (R43, R72, R73, R326, R400, R444).
-/
namespace Sys2Proof.Machine

/-- A SMART critical-warning bit sets: the event of type 1h on the controllers that enabled the bit (R73, R408, R412). -/
def Device.postSmartAen (d : Device) (bit : Nat) : Device := d.postAen (2 ^ bit) ⟨1, if bit = 1 then 1 else 0, 2⟩

/-- What a device reset does to the host section's NOR: a reservation without persistence ends (R87). -/
def HostNor.afterReset (n : HostNor) : HostNor :=
  { n with nss := n.nss.map fun p => (p.1, if p.2.res.ptpl then p.2 else { p.2 with res := {} }) }

/-- A device reset (R43, R444): the device as it is after reset, but for what reset leaves alone: NOR, fuses, stored blobs, the
medium and its logbook mirror, and the always-on domain with the chronometer (R395, R409). -/
def Device.deviceReset (d : Device) (cause : Nat) (st : Straps) : Device :=
  let d' : Device :=
    { keys := d.keys
      chron := { d.chron with latchH := [] }
      thermal := { supplyKept := d.thermal.supplyKept }
      thermRec := d.nor.therm
      logbook := { held := d.logbook.held }
      mirror := d.mirror
      boot := { straps := st }
      nor := d.nor
      otp := d.otp
      aon := { boots := d.aon.boots + 1, spun := d.aon.spun }
      medium := d.medium
      spin := { stopped := d.spin.stopped }
      hnor := d.hnor.afterReset
      out := d.out
      fresh := d.fresh }
  ((d'.wr RG_RSTCAUSE_CAUSE (d.aon.heldCause.getD cause)).wr RG_RSTCAUSE_BOOTS (d.aon.boots + 1)).log 8 0x5008 [0]

/-- The four sequencers. -/
def allSeqs : List SeqId := bothLanes.flatMap laneSeqs

/-- A patch image rejected at a step (R326). -/
def Device.patchRejected (d : Device) (step : Nat) : Device := (allSeqs.foldl (fun d q => d.wr (EC_STATUS_PATCHERR q) step) d).log 8 0x2021 [step]

/-- A trap's target lies within the loaded words (R326). -/
def trapOk (n t : Nat) : Bool := decide (0x4000 ≤ bitsOf t 0 15) && decide (bitsOf t 0 15 < 0x4000 + n)

/-- A sequencer given a patch: the traps and words, the rest of patch RAM filled with illegal words (R326). -/
def Device.patchSeq (d : Device) (pvec : Bool) (traps words : List Nat) (q : SeqId) : Device :=
  let d := d.updEc q fun x => { x with patch := words.zipIdx.map fun p => (p.2, p.1 % 2 ^ 32), patchFill := 2 ^ 32 - 1 }
  let d := (List.range 8).foldl (fun d k => d.setWord (EC_TRAP q k) (BitVec.ofNat 32 (traps.getD k 0) &&& 0xBFFF7FFF)) d
  (d.wrB (EC_STATUS_PVEC q) pvec).wrAll [(EC_STATUS_PATCHED q, 1), (EC_STATUS_PATCHBAD q, 0), (EC_STATUS_PATCHERR q, 0)]

/-- A sequencer without a patch: no traps, dispatch from ROM (R326). -/
def Device.noPatchSeq (d : Device) (q : SeqId) : Device :=
  let d := d.updEc q fun x => { x with patch := [], patchFill := 0 }
  let d := (List.range 8).foldl (fun d k => d.setWord (EC_TRAP q k) 0) d
  d.wrAll [(EC_STATUS_PVEC q, 0), (EC_STATUS_PATCHED q, 0), (EC_STATUS_PATCHBAD q, 0), (EC_STATUS_PATCHERR q, 0)]

/-- The Oprok core loads the patch image into all four sequencers (R326). -/
def Device.loadPatch (d : Device) (p : PatchObs) : Device :=
  match p with
  | .noPatch => allSeqs.foldl (fun d q => d.noPatchSeq q) d
  | .rejected step => d.patchRejected step
  | .image pvec sequence traps words =>
    if words.length < 32 ∨ 4096 < words.length ∨ 8 < traps.length then d.patchRejected 1
    else if !traps.all (trapOk words.length) then d.patchRejected 4
    else (allSeqs.foldl (fun d q => d.patchSeq pvec traps words q) d).log 8 0x2022 [sequence, traps.length]

/-- The newest durable usage snapshot (R400). -/
def Device.durableUsage (d : Device) : UsageSnap := if d.nor.usage.seq < d.medium.usage.seq then d.medium.usage else d.nor.usage

/-- The meters resume from the newest durable snapshot; those lost are logged with the first and the last (R400). -/
def Device.resumeMeters (d : Device) : Device :=
  let u := d.durableUsage
  let gone := d.chron.unsaved
  let d : Device := { d with meters := u.meters, usage := u, chron := { d.chron with unsaved := none } }
  match gone with
  | none => d
  | some (first, last) => d.log 9 0x600A [first, last]

/-- The log 0xC3 record written to NOR; the minute that still runs is no part of it (R417). -/
def Device.saveTherm (d : Device) : Device :=
  { d with nor := { d.nor with therm := { d.thermRec with minuteMax := none } } }

/-- The minute counters of log 0xC3 that a composite reading counts in: 5 °C bins from −40 °C at level 52, 10 °C bins from 0 °C at level 41, the
end bins taking what lies past them (R79). Codes are 1/16 °C above −64 °C (R405). -/
def bin52 (code : Nat) : Nat := min 37 ((code - 384) / 80)
def bin41 (code : Nat) : Nat := min 14 ((code - 1024) / 160)

/-- A minute that the chronometer has left since `before` is counted once in each table, by its highest reading (R417). -/
def Device.closeMinute (d : Device) (before : Nat) : Device :=
  if d.chron.chr / 60000000 = before / 60000000 then d
  else match d.thermRec.minuteMax with
    | none => d
    | some c =>
      let r := d.thermRec
      { d with thermRec := { r with
          bins52 := Sparse.setCnt r.bins52 (bin52 c) (Sparse.cnt r.bins52 (bin52 c) + 1)
          bins41 := Sparse.setCnt r.bins41 (bin41 c) (Sparse.cnt r.bins41 (bin41 c) + 1)
          minuteMax := none } }

/-- No I/O command is fetched and uncompleted (R57). -/
def Device.noInFlight (d : Device) : Bool := d.inFlight == 0

/-- CSTS.PP on every enabled controller; an activation's start also posts its notice (R72, R73, R455). -/
def Device.setPP (d : Device) (b : Bool) : Device :=
  let d := d.ctrls.foldl (fun d c => d.updCtrl c fun k => { k with pp := b && k.en }) d
  if b then d.postAen 512 ⟨2, 1, 0⟩ else d

end Sys2Proof.Machine
end

