-- ==== Sys2Proof/Machine/Calibre.lean ====
section
/-!
DEFINITION. The calibre image: its parts, the checks in the order of R41 and R47, the CB_ registers filled from it (R34 to R51).
-/
namespace Sys2Proof.Machine

/-! ### Bytes of a chunked NOR region -/

/-- A byte of a region kept as 4 KiB chunks; an unlisted chunk is erased (R434). -/
def chunkByte (t : List (Nat × Nat)) (o : Nat) : Nat :=
  match Sparse.find t (o / 4096) with
  | some c => byteOf c (o % 4096)
  | none => 0xFF

/-- `n` bytes of a region from an offset, as a little-endian number. -/
def chunkNum (t : List (Nat × Nat)) : Nat → Nat → Nat
  | 0, _ => 0
  | n + 1, o => chunkByte t o + 256 * chunkNum t n (o + 1)

/-- `n` bytes of a region as a list. -/
def chunkBytes (t : List (Nat × Nat)) (o n : Nat) : List Nat := (List.range n).map fun i => chunkByte t (o + i)

/-- Every byte of a range is 0. -/
def chunkZero (t : List (Nat × Nat)) (o n : Nat) : Bool := (List.range n).all fun i => chunkByte t (o + i) == 0

/-! ### The header (R35, R41 step 1) -/

/-- The device's own stepping code (R2, R35). -/
def steppingCode : Nat := 0xB2

/-- Image length and record-area length. -/
def calLength (t : List (Nat × Nat)) : Nat := chunkNum t 4 8
def calArea (t : List (Nat × Nat)) : Nat := chunkNum t 4 0x14
def calSeq (t : List (Nat × Nat)) : Nat := chunkNum t 4 0xC

/-- Step 1 of R41: 0, or the code of the first check that fails. -/
def calHeader (t : List (Nat × Nat)) : Nat :=
  let len := calLength t
  let area := calArea t
  if chunkNum t 4 0 ≠ 0x4C414347 ∨ chunkNum t 2 4 ≠ 1 ∨ chunkNum t 2 6 ≠ 32 then 2
  else if chunkNum t 4 0x18 ≠ crc32c (chunkBytes t 0 0x18) then 3
  else if chunkNum t 2 0x10 ≠ 0x5200 ∨ steppingCode < chunkByte t 0x12 then 4
  else if len < 256 ∨ 65536 < len ∨ len % 4 ≠ 0 ∨ area < 4 ∨ len - 144 < area then 5
  else if chunkByte t 0x13 ≠ 0 ∨ chunkNum t 4 0x1C ≠ 0 then 0xD
  else 0

/-! ### The signature block (R37, R41 step 3) -/

/-- A key is usable: present with a matching hash, and not revoked (R436). -/
def Otp.usable (o : Otp) (k : Nat) : Bool := decide (k < 4) && o.keyMatch.testBit k && !o.revoked.testBit k

/-- The key index of the signature block at an offset. -/
def sigKey (t : List (Nat × Nat)) (o : Nat) : Nat := chunkByte t (o + 4)

/-- The block's fixed fields are as R37 requires. -/
def sigBlockOk (t : List (Nat × Nat)) (o : Nat) : Bool :=
  chunkNum t 4 o == 0x47495347 && chunkByte t (o + 5) == 1 && chunkZero t (o + 6) 10

/-- Step 3 of R41: 0, or its code. `v` is what the Oprok core's arithmetic finds; an uncorrectable fuse word fails every check
(R435). -/
def calSignature (t : List (Nat × Nat)) (o : Otp) (v : Verdict) : Nat :=
  let b := calLength t - 112
  if !sigBlockOk t b || o.bad then 7
  else if !o.usable (sigKey t b) then 8
  else match v with
    | .valid => 0
    | .signatureFailed => 7
    | .keyRefused => 8

/-! ### Records (R36 to R39, R47) -/

/-- The length R38 gives a known tag; the analogue-limits record has 1 to 64 entries of 6 bytes. -/
def tagLengthOk (tag len : Nat) : Bool :=
  match tag with
  | 0x0002 => len == 8
  | 0x000E => len == 60
  | 0x000F => len == 8
  | 0x0010 => len % 6 == 0 && decide (6 ≤ len) && decide (len ≤ 384)
  | 0xFFFF => len == 0
  | _ => len == 4

/-- The tags the device knows (R38). -/
def tagKnown (tag : Nat) : Bool := (decide (1 ≤ tag) && decide (tag ≤ 0x10)) || tag == 0xFFFF

/-- Whether `v` lies in a range. -/
def inRange (lo hi v : Nat) : Bool := decide (lo ≤ v) && decide (v ≤ hi)

/-- The entries of the analogue-limits record are in range and no channel is listed twice (R38). -/
def alimOk (t : List (Nat × Nat)) (o : Nat) : Nat → List Nat → Bool
  | 0, _ => true
  | n + 1, seen =>
    let ch := chunkByte t o
    decide (ch ≤ 63) && !seen.contains ch && chunkByte t (o + 1) == 0
      && decide (chunkNum t 2 (o + 2) ≤ chunkNum t 2 (o + 4)) && alimOk t (o + 6) n (ch :: seen)

/-- A known record's value at `o` is in range and its reserved bytes and bits are 0 (R38, R47). -/
def valueOk (t : List (Nat × Nat)) (o tag len : Nat) : Bool :=
  let b (i : Nat) : Nat := chunkByte t (o + i)
  match tag with
  | 0x0001 => (b 0 == 41 || b 0 == 52) && chunkZero t (o + 1) 3
  | 0x0002 => inRange 1 2 (b 0) && inRange 0 1 (b 1) && inRange 1 16 (b 2) && inRange 0 16 (b 3) && inRange 1 2 (b 4)
      && chunkZero t (o + 5) 3
  | 0x0003 => inRange 0 15 (b 0) && inRange 0 15 (b 1) && inRange 1 2 (b 2) && b 3 == 0
  | 0x0004 => inRange 1 2 (b 0) && inRange 1 50 (b 1) && chunkZero t (o + 2) 2
  | 0x0005 => inRange 1 2 (b 0) && chunkZero t (o + 1) 3
  | 0x0006 => inRange 0 1 (b 0) && inRange 1 5 (b 1) && chunkZero t (o + 2) 2
  | 0x0007 => [4, 5, 8].contains (b 0) && [5, 8, 10].contains (b 1) && [16, 20, 32].contains (b 2) && [20, 40].contains (b 3)
  | 0x0008 => inRange 10 12 (b 0) && chunkZero t (o + 1) 3
  | 0x0009 => inRange 1 64 (b 0) && decide (b 1 ≤ b 0) && chunkZero t (o + 2) 2
  | 0x000A => inRange 0 2 (b 0) && chunkZero t (o + 1) 3
  | 0x000B => [0, 2, 4, 8].contains (b 0) && b 1 == 0 && inRange 16 256 (chunkNum t 2 (o + 2))
  | 0x000C => inRange 0 1 (b 0) && chunkZero t (o + 1) 3
  | 0x000D => inRange 90 115 (b 0) && inRange 100 125 (b 1) && inRange 120 145 (b 2) && inRange 0 1 (b 3)
  | 0x000E => (List.range 5).all fun k => inRange 1 2500 (chunkNum t 2 (o + 12 * k)) && chunkNum t 2 (o + 12 * k + 2) == 0
  | 0x000F => inRange 5400 10000 (chunkNum t 2 o) && inRange 60 840 (chunkNum t 2 (o + 2)) && inRange 2 8 (b 4)
      && chunkZero t (o + 5) 3
  | 0x0010 => alimOk t o (len / 6) []
  | _ => true

/-- Padding after a value: up to the next multiple of 4 (R36). -/
def padOf (len : Nat) : Nat := (4 - len % 4) % 4

/-- The walk over the record area from offset `o` to `stop`: the records found, or the code of the first defect (R47). The
first argument bounds the number of records. -/
def calWalk (t : List (Nat × Nat)) (stop : Nat) : Nat → Nat → List (Nat × Nat × Nat) → Except Nat (List (Nat × Nat × Nat))
  | 0, _, _ => .error 0xA
  | n + 1, o, acc =>
    if stop < o + 4 then .error 0xA
    else
      let tag := chunkNum t 2 o
      let len := chunkNum t 2 (o + 2)
      let next := o + 4 + len + padOf len
      if stop < o + 4 + len then .error 0xA
      else if !tagKnown tag && decide (tag < 0x8000) then .error 0xB
      else if tagKnown tag && !tagLengthOk tag len then .error 0xA
      else if tagKnown tag && acc.any (·.1 == tag) then .error 0xC
      else if tagKnown tag && !valueOk t (o + 4) tag len then .error 0xD
      else if stop < next || !chunkZero t (o + 4 + len) (padOf len) then .error 0xA
      else if tag = 0xFFFF then (if next = stop then .ok acc else .error 0xA)
      else calWalk t stop n next (acc ++ [(tag, o + 4, len)])

/-- The offset of a record's value. -/
def recOff (rs : List (Nat × Nat × Nat)) (tag : Nat) : Nat := ((rs.find? (·.1 == tag)).map (·.2.1)).getD 0

/-- The conditions across records (R39). -/
def crossOk (t : List (Nat × Nat)) (rs : List (Nat × Nat × Nat)) : Bool :=
  let b (tag i : Nat) : Nat := chunkByte t (recOff rs tag + i)
  let lanes := b 2 0
  let mode := b 2 1
  let h0 := b 2 2
  let h1 := b 2 3
  let readers := b 2 4
  let p0 := b 3 0
  let p1 := b 3 1
  let outs := b 3 2
  let ps (k o : Nat) : Nat := chunkNum t 4 (recOff rs 0xE + 12 * k + o)
  (lanes != 1 || (mode == 0 && h1 == 0 && p1 == 0))
    && (!(lanes == 2 && mode == 0) || (inRange 1 16 h0 && inRange 1 16 h1 && p0 != 0 && p1 != 0))
    && (mode != 1 || (lanes == 2 && h1 == 0 && readers == 2 && p0 != 0 && p1 == 0 && outs == 2))
    && (b 0xC 0 != 1 || (readers == 2 && outs == 2 && decide (h0 + h1 ≤ 8)))
    && decide (b 0xD 0 + 5 ≤ b 0xD 1) && decide (b 0xD 1 + 10 ≤ b 0xD 2)
    && decide (ps 1 8 ≤ ps 2 8) && decide (ps 2 8 ≤ ps 3 8) && decide (ps 3 8 ≤ ps 4 8) && ps 0 4 == 0 && ps 0 8 == 0
    && decide (chunkNum t 2 (recOff rs 0xF) * chunkNum t 2 (recOff rs 0xF + 2) ≤ 6048000)

/-- Step 4 of R41 in the order of R47: the records, or the code. -/
def calRecords (t : List (Nat × Nat)) : Except Nat (List (Nat × Nat × Nat)) :=
  let stop := 0x20 + calArea t
  match calWalk t stop 16384 0x20 [] with
  | .error c => .error c
  | .ok rs =>
    if !chunkZero t stop (calLength t - 112 - stop) then .error 0xA
    else if !((List.range 15).all fun k => rs.any (·.1 == k + 1)) then .error 0xC
    else if !crossOk t rs then .error 0xE
    else .ok rs

/-- The code of step 4. -/
def calRecordsCode (t : List (Nat × Nat)) : Nat :=
  match calRecords t with
  | .error c => c
  | .ok _ => 0

/-! ### The CB_ registers (R43, R49 to R51) -/

/-- The word registers that mirror a record's first four value bytes (R49). -/
def cbWords : List (Nat × Nat) :=
  [(1, CB_LEVEL), (3, CB_PREAMP), (4, CB_ASSIST), (5, CB_PSTAGE), (6, CB_HOST), (7, CB_CLKDIV), (8, CB_SRAMPART),
   (9, CB_NSLIM), (0xA, CB_CODE), (0xB, CB_STRIPE), (0xC, CB_WGUARD), (0xD, CB_THERM), (0xF, CB_SPIN)]

/-- CB_STRUCT from the structure record (R51). -/
def structWord (t : List (Nat × Nat)) (o : Nat) : Nat :=
  chunkByte t o + chunkByte t (o + 1) * 8 + chunkByte t (o + 4) * 16 + chunkByte t (o + 2) * 256 + chunkByte t (o + 3) * 65536

/-- The analogue limits of the record written to CB_ALIM. -/
def Device.loadAlim (t : List (Nat × Nat)) : Nat → Nat → Device → Device
  | 0, _, d => d
  | n + 1, o, d =>
    let ch := chunkByte t o
    let d := (d.wr (CB_ALIM_MIN ch) (chunkNum t 2 (o + 2))).wr (CB_ALIM_MAX ch) (chunkNum t 2 (o + 4))
    Device.loadAlim t n (o + 6) { d with boot := { d.boot with alim := d.boot.alim ++ [ch] } }

/-- The selected copy's values written to CB_, and what resets to a calibre value set from it: the nominal speed of SP_SPEED
and the pool's free list (R43, R299, R346). -/
def Device.loadCalibre (d : Device) (t : List (Nat × Nat)) (rs : List (Nat × Nat × Nat)) (source : Nat) : Device :=
  let w (d : Device) (a v : Nat) : Device := d.setWord a (BitVec.ofNat 32 v)
  let d := cbWords.foldl (fun d p => w d p.2 (chunkNum t 4 (recOff rs p.1))) d
  let d := w d CB_STRUCT (structWord t (recOff rs 2))
  let d := w d CB_SPIN1 (chunkNum t 4 (recOff rs 0xF + 4))
  let d := (List.range 15).foldl (fun d k => w d (CB_PSTATE k) (chunkNum t 4 (recOff rs 0xE + 4 * k))) d
  let d := w d CB_SEQ (calSeq t)
  let d := match rs.find? (·.1 == 0x10) with
    | some r => Device.loadAlim t (r.2.2 / 6) r.2.1 d
    | none => d
  let d := (d.wr CB_STATUS_SOURCE source).wr CB_STATUS_LEVEL (chunkByte t (recOff rs 1))
  let d := d.wr SP_SPEED_TARGET (d.rd CB_SPIN_RPM)
  { d with pool := { d.pool with free := [(0, d.poolPages)] } }

/-- The lock of R43: CB_CTRL.LOCK and CB_STATUS.LOCK. -/
def Device.lockCalibre (d : Device) : Device :=
  let d := (d.wr CB_CTRL_LOCK 1).wr CB_STATUS_LOCK 1
  { d with boot := { d.boot with locked := true } }

/-- The first fixed record of R46 in which an image differs from the running CB_ values. -/
def Device.fixedDiff (d : Device) (t : List (Nat × Nat)) (rs : List (Nat × Nat × Nat)) : Option Nat :=
  let v (tag : Nat) : Nat := chunkNum t 4 (recOff rs tag)
  let r (a : Nat) : Nat := (d.word a).toNat
  if v 1 ≠ r CB_LEVEL then some 1
  else if structWord t (recOff rs 2) ≠ r CB_STRUCT then some 2
  else if v 3 ≠ r CB_PREAMP then some 3
  else if v 4 % 256 ≠ d.rd CB_ASSIST_KIND then some 4
  else if v 5 ≠ r CB_PSTAGE then some 5
  else if v 6 % 256 ≠ d.rd CB_HOST_MODE then some 6
  else if v 8 ≠ r CB_SRAMPART then some 8
  else if v 9 ≠ r CB_NSLIM then some 9
  else if v 0xA ≠ r CB_CODE then some 0xA
  else if v 0xB ≠ r CB_STRIPE then some 0xB
  else if v 0xF ≠ r CB_SPIN ∨ chunkNum t 4 (recOff rs 0xF + 4) ≠ r CB_SPIN1 then some 0xF
  else none

/-! ### Firmware images (R438 to R440) -/

/-- A section entry: kind, offset, length, load address (R439). -/
def imgSection (t : List (Nat × Nat)) (k : Nat) : Nat × Nat × Nat × Nat :=
  let o := 0x40 + 16 * k
  (chunkByte t o, chunkNum t 4 (o + 4), chunkNum t 4 (o + 8), chunkNum t 4 (o + 12) * 256)

/-- A load range lies in `[lo, hi)`. -/
def within (lo hi a n : Nat) : Bool := decide (lo ≤ a) && decide (a + n ≤ hi)

/-- The visible DRAM a load address may name: the fitted size where training has given it, else the largest (R25, R342). -/
def Device.loadDram (d : Device) (a n : Nat) : Bool :=
  within 0x800000000 (0x800000000 + (if d.dramVisible = 0 then 0x1C0000000 else d.dramVisible)) a n

/-- The permitted load target of a section (R439). The regulator's and the security core's memories lie outside the map of R24
and are not checked. -/
def Device.loadOk (d : Device) (s : Nat × Nat × Nat × Nat) : Bool :=
  match s.1 with
  | 1 => within 0x11800000 0x11A00000 s.2.2.2 s.2.2.1 || d.loadDram s.2.2.2 s.2.2.1
  | 2 => within 0x11A00000 0x11C00000 s.2.2.2 s.2.2.1 || d.loadDram s.2.2.2 s.2.2.1
  | 3 => within 0x11A00000 0x11C00000 s.2.2.2 s.2.2.1 || d.loadDram s.2.2.2 s.2.2.1
  | _ => true

/-- Two sections overlap. -/
def sectOverlaps (a b : Nat × Nat × Nat × Nat) : Bool :=
  decide (a.2.1 < b.2.1 + b.2.2.1) && decide (b.2.1 < a.2.1 + a.2.2.1)

/-- The section table's checks (R439, R440 code 2). -/
def Device.sectionsOk (d : Device) (t : List (Nat × Nat)) : Bool :=
  let n := chunkByte t 0xD
  let len := chunkNum t 4 8
  let ss := (List.range (min n 8)).map (imgSection t)
  inRange 1 8 n
    && (List.range (8 - n)).all (fun k => chunkZero t (0x40 + 16 * (n + k)) 16)
    && (List.range (min n 8)).all (fun k => chunkZero t (0x41 + 16 * k) 3)
    && ss.all (fun s => inRange 1 7 s.1 && s.2.1 % 16 == 0 && decide (0x100 ≤ s.2.1) && decide (s.2.1 + s.2.2.1 + 112 ≤ len)
        && d.loadOk s)
    && decide ((ss.map (·.1)).Nodup)
    && [4, 5, 7].all (fun k => ss.any (·.1 == k))
    && (List.range ss.length).all fun i => (List.range i).all fun j =>
        !sectOverlaps (ss.getD i (0, 0, 0, 0)) (ss.getD j (0, 0, 0, 0))

/-- R440: 0 for a valid image, else the code of the first check that fails. -/
def Device.imageCode (d : Device) (t : List (Nat × Nat)) (o : ImageObs) : Nat :=
  let len := chunkNum t 4 8
  if chunkNum t 4 0 ≠ 0x49574647 ∨ chunkNum t 2 4 ≠ 1 ∨ chunkNum t 2 6 ≠ 256 ∨ len < 4096 ∨ 8388608 < len ∨ len % 16 ≠ 0
      ∨ chunkNum t 2 0x18 ≠ 0x5200 ∨ steppingCode < chunkByte t 0x1A then 1
  else if !d.sectionsOk t then 2
  else if !d.otp.usable (sigKey t (len - 112)) || d.otp.bad then 3
  else if !sigBlockOk t (len - 112) || !o.signature then 4
  else if chunkByte t 0xC < d.otp.svn then 5
  else if !o.gcm then 6
  else 0

/-- An image's fields (R438). -/
def imgKey (t : List (Nat × Nat)) : Nat := sigKey t (chunkNum t 4 8 - 112)
def imgSvn (t : List (Nat × Nat)) : Nat := chunkByte t 0xC
def imgSchema (t : List (Nat × Nat)) : Nat := chunkNum t 2 0xE
def imgRevision (t : List (Nat × Nat)) : Nat := chunkNum t 8 0x10

end Sys2Proof.Machine
end

