-- ==== Sys2Proof/Machine/Logbook.lean ====
section
/-!
DEFINITION. The logbook: posting by an engine, programming into the NOR ring, the mirror (R425 to R429).
-/
namespace Sys2Proof.Machine

/-- LOG_POST: an engine posts an entry through its copy of RG_LOGP (R427, R431). A code with a stated rate limit is held to it,
its first parameter being its scope (R481). -/
def logPostEff (source code : Nat) (params : List Nat) (d : Device) : Device :=
  if rateLimitedCodes.contains code then d.logRate source code (params.headD 0) params else d.log source code params

def execLogPost (source code : Nat) (params : List Nat) (s : State) : Host.Outcome State Fault Refusal :=
  s.upd (logPostEff source code params)

/-- One entry into the NOR ring's next slot. Entering a block erases the block after it; a full block is due for the mirror
(R429). -/
def Device.programEntry (d : Device) (e : LogEntry) : Device :=
  let k := d.nor.logNext
  let b := k / 1024
  let erased := if k % 1024 = 0 then d.nor.log.filter (fun p => p.1 / 1024 != (b + 1) % 64) else d.nor.log
  { d with
    nor := { d.nor with log := Sparse.ins erased k e, logNext := (k + 1) % 65536 }
    logbook := { d.logbook with
      toMirror := if k % 1024 = 1023 then d.logbook.toMirror ++ [b] else d.logbook.toMirror } }

/-- A slot passed over after a failed program. -/
def Device.skipSlot (d : Device) : Device := { d with nor := { d.nor with logNext := (d.nor.logNext + 1) % 65536 } }

/-- Every pending entry programmed; entries lost before are then reported (R427, R429). -/
def Device.programAll (d : Device) : Device :=
  let d := d.logbook.fifo.foldl Device.programEntry d
  let d : Device := { d with logbook := { d.logbook with fifo := [], due := false } }
  if d.logbook.lost = 0 then d else d.log 9 0x6013 [d.logbook.lost]

/-- One of the triggers of R429 holds. -/
def Device.programDue (d : Device) : Bool :=
  d.logbook.due || decide (64 ≤ d.logbook.fifo.length) || d.logbook.fifo.any (fun e => decide (2 ≤ e.severity))

/-- LOGBOOK_PROGRAM: pending entries go to NOR. `fail1` and `fail2` say whether the first program and its retry in the next
slot fail (R429). -/
def logbookProgramEff (fail1 fail2 : Bool) (d : Device) : Device :=
  if !d.programDue || d.logbook.fifo.isEmpty then d
  else if !fail1 then d.programAll
  else if !fail2 then d.skipSlot.programAll
  else
    let d := d.skipSlot
    let at_ := 0x1930000 + 64 * d.nor.logNext
    let d := d.skipSlot
    Device.log { d with logbook := { d.logbook with due := false } } 9 0x6012 [at_]

def execLogbookProgram (fail1 fail2 : Bool) (s : State) : Host.Outcome State Fault Refusal :=
  s.upd (logbookProgramEff fail1 fail2)

/-- LOGBOOK_FLUSH_TIMER: 1 s after the oldest pending entry a program is due (R429). -/
def logbookFlushEff (d : Device) : Device :=
  if d.logbook.fifo.isEmpty then d else { d with logbook := { d.logbook with due := true } }

def execLogbookFlushTimer (s : State) : Host.Outcome State Fault Refusal := s.upd logbookFlushEff

/-- LOGBOOK_MIRROR_COPY: the oldest filled block goes to the mirror ring of 1,048,576 entries, while the spindle turns
(R429). -/
def logbookMirrorEff (d : Device) : Device :=
  match d.logbook.toMirror with
  | [] => d
  | b :: rest =>
    if !d.spinTurning then d
    else
      let es := (d.nor.log.filter fun p => p.1 / 1024 == b).map (·.2)
      let all := d.mirror ++ es
      { d with mirror := all.drop (all.length - 1048576), logbook := { d.logbook with toMirror := rest } }

def execLogbookMirrorCopy (s : State) : Host.Outcome State Fault Refusal := s.upd logbookMirrorEff

end Sys2Proof.Machine
end

