-- ==== Sys2Proof/Machine/Regulator.lean ====
section
/-!
DEFINITION. The commands of the regulator: sensors, thermal control, supplies, references, the calibration scheduler (R404 to
R424).
-/
namespace Sys2Proof.Machine

/-- The regulator's hardware runs: out of reset, or in the held state of R409 or R415 in which domain 21 keeps running. -/
def Device.regOn (d : Device) : Bool :=
  match d.boot.phase with
  | .awaitLock => false
  | .held => d.thermal.shutdown || d.thermal.supplyFail
  | _ => !d.gatedOff

/-! ### Limits (R405) -/

/-- The default limits of an analogue channel. -/
def defaultLimits (ch : Nat) : Nat × Nat :=
  if ch ≤ 7 then (320, 3584)
  else if ch ≤ 9 then (41, 4054)
  else match ch with
    | 16 => (1380, 1620)
    | 17 => (1472, 1728)
    | 18 => (1472, 1728)
    | 19 => (2208, 2592)
    | 20 => (1564, 1836)
    | 21 => (2208, 2592)
    | 22 => (920, 1080)
    | 23 => (1932, 2268)
    | 24 => (1656, 1944)
    | 25 => (3036, 3564)
    | 35 => (1707, 3200)
    | _ => (0, 4095)

/-- The limits in force: those of the calibre record for the channels it lists (R405). -/
def Device.limits (d : Device) (ch : Nat) : Nat × Nat :=
  if d.boot.alim.contains ch then (d.rd (CB_ALIM_MIN ch), d.rd (CB_ALIM_MAX ch)) else defaultLimits ch

/-- A code lies outside its channel's limits. -/
def Device.outOfRange (d : Device) (ch code : Nat) : Bool :=
  decide (code < (d.limits ch).1) || decide ((d.limits ch).2 < code)

/-- The diode code of a whole temperature: 16 × (T + 64) (R405). -/
def diodeCode (t : Nat) : Nat := 16 * (t + 64)

/-- The whole degrees of a diode code. -/
def diodeDegC (code : Nat) : Int := (code / 16 : Nat) - 64

/-! ### The throttle step (R413, R414, R421) -/

/-- The computed step of a reading (R413). -/
def Device.computedStep (d : Device) (code : Nat) : Nat :=
  let t := diodeCode (d.rd CB_THERM_THROTTLE)
  if t ≤ code then min 6 (1 + (code - t) / 48) else 1

/-- A grant ends without an event: both sequencers aborted, ACTIVE cleared (R421). -/
def Device.calCut (d : Device) (l : Lane) : Device :=
  let g := match l with | .ln0 => d.cal.grant0 | .ln1 => d.cal.grant1
  match g with
  | none => d
  | some _ =>
    let d := (d.seqAbort l).wr (RG_CALGNT_ACTIVE l.idx) 0
    match l with
    | .ln0 => { d with cal := { d.cal with grant0 := none } }
    | .ln1 => { d with cal := { d.cal with grant1 := none } }

/-- The step in force after `s` or FORCE changed: its register, RG_INT.STEP, event 0x6804, and the end of calibration grants
when it rises above 0 (R413, R421). -/
def Device.applyStep (d : Device) : Device :=
  let new := max d.thermal.step (d.rd RG_THCTRL_FORCE)
  let old := d.rd RG_THSTAT_STEP
  if new = old then d
  else
    let d := ((d.wr RG_THSTAT_STEP new).wr RG_INT_STEP 1).log 9 0x6804 [old, new]
    let d : Device := { d with thermal := { d.thermal with
      event := d.thermal.event.map fun e => (e.1, e.2.1, max e.2.2 new) } }
    if old = 0 then (d.calCut .ln0).calCut .ln1 else d

/-- The share of a 10 ms window a lane may use at a step, in µs; none below step 2 (R414). -/
def dutyCap : Nat → Option Nat
  | 0 => none
  | 1 => none
  | 2 => some 7500
  | 3 => some 5000
  | 4 => some 2500
  | 5 => some 1000
  | _ => some 0

/-! ### Held states (R409, R415) -/

/-- What a thermal shutdown and a supply failure do alike: retract with cause 3, the spindle's gates and the chopper off, the
domains held (R409, R415). -/
def Device.holdDomains (d : Device) : Device :=
  let d := ((d.emergencyRetract 3).spinOff).wr RG_PSTATUS_BUSY 0
  { d with boot := { d.boot with phase := .held }, power := { d.power with request := none, run := none } }

/-- A thermal shutdown (R415). -/
def Device.shutdownNow (d : Device) (code : Nat) (params : List Nat) : Device :=
  if d.thermal.shutdown then d
  else
    let d : Device := { d with
      thermal := { d.thermal with shutdown := true, coolSince := none }
      thermRec := { d.thermRec with shutdowns := d.thermRec.shutdowns + 1 } }
    ((d.holdDomains.log 9 code params).programAll).saveTherm

/-! ### Die diodes (R405, R406, R408, R417) -/

/-- One diode's reading into its register and its count of readings out of range. -/
def Device.takeDiode (d : Device) (i code : Nat) : Device :=
  let n := if d.outOfRange i code then Sparse.cnt d.thermal.diodeOut i + 1 else 0
  let d := (d.wr (RG_TEMP_CODE i) code).wr (RG_TEMP_VALID i) 1
  { d with thermal := { d.thermal with diodeOut := Sparse.setCnt d.thermal.diodeOut i n } }

/-- The hottest diode that has not failed: its number and code. -/
def Device.hottest (d : Device) : Option (Nat × Nat) :=
  (List.range 8).foldl (fun best i =>
    if d.bit (RG_TEMP_FAIL i) then best
    else match best with
      | none => some (i, d.rd (RG_TEMP_CODE i))
      | some b => if b.2 < d.rd (RG_TEMP_CODE i) then some (i, d.rd (RG_TEMP_CODE i)) else best) none

/-- The readings counted against the thresholds (R411, R413, R415). -/
def Device.countReading (d : Device) (c : Nat) : Thermal :=
  let t := d.thermal
  let w := diodeCode (d.rd CB_THERM_WARN)
  let th := diodeCode (d.rd CB_THERM_THROTTLE)
  let k := d.computedStep c
  { t with
    warnUp := if w ≤ c then t.warnUp + 1 else 0
    warnDown := if c + 80 ≤ w then t.warnDown + 1 else 0
    hot := if th ≤ c then (k :: t.hot).take 4 else []
    thrDown := if c + 80 ≤ th then t.thrDown + 1 else 0
    recent := if d.bit RG_THSTAT_THR then (k :: t.recent).take 4 else []
    below := if d.bit RG_THSTAT_THR ∧ k < t.step then t.below + 1 else 0
    shutUp := if diodeCode (d.rd CB_THERM_SHUTDOWN) ≤ c then t.shutUp + 1 else 0
    coolSince := if c < diodeCode 100 then some (t.coolSince.getD d.chron.chr) else none
    event := t.event.map fun e => (e.1, max e.2.1 c, e.2.2) }

/-- DIODE_CONVERSION: the eight die diodes are read and the composite is formed (R405, R406). -/
def diodeConversionEff (codes : List Nat) (d : Device) : Device :=
  if !d.regOn then d
  else
    let d := (List.range 8).foldl (fun d i => d.takeDiode i (codes.getD i 0 % 4096)) d
    match d.hottest with
    | none => d
    | some (i, c) =>
      let d := (d.wr RG_THSTAT_TMAX c).wr RG_THSTAT_SRC i
      let r := d.thermRec
      { d with
        thermal := d.countReading c
        thermRec := { r with
          highest := some (max c (r.highest.getD c))
          lowest := some (min c (r.lowest.getD c))
          minuteMax := some (max c (r.minuteMax.getD c)) } }

def execDiodeConversion (codes : List Nat) (s : State) : Host.Outcome State Fault Refusal := s.upd (diodeConversionEff codes)

/-- DIODE_FAIL: three readings out of range in a row; with every diode failed, a thermal shutdown (R406, R408). -/
def diodeFailEff (i : Nat) (d : Device) : Device :=
  if i < 8 ∧ 3 ≤ Sparse.cnt d.thermal.diodeOut i ∧ d.bit (RG_TEMP_FAIL i) = false then
    let d := ((d.wr (RG_TEMP_FAIL i) 1).wr RG_INT_RANGE 1).log 9 0x6808 [i, d.rd (RG_TEMP_CODE i)]
    if (List.range 8).all fun j => d.bit (RG_TEMP_FAIL j) then
      (d.log 9 0x680A).shutdownNow 0x6806 [d.rd RG_THSTAT_SRC, d.rd RG_THSTAT_TMAX]
    else d
  else d

def execDiodeFail (diode : Nat) (s : State) : Host.Outcome State Fault Refusal := s.upd (diodeFailEff diode)

/-! ### Thermistors (R407, R408) -/

/-- THERMISTOR_CONVERSION: the mean of four conversions (R405, R407). -/
def thermistorConversionEff (t code : Nat) (d : Device) : Device :=
  if !d.regOn || decide (2 ≤ t) then d
  else
    let out := d.outOfRange (8 + t) code
    let d := (d.wr (RG_THERM_CODE t) code).wr (RG_THERM_VALID t) 1
    let d := d.wr (RG_THERM_DEGC t)
      (if d.bit (RG_THERM_FAIL t) || out then 0 else Config.thermistorDegC (d.rd (RG_THERM_CODE t)) (d.rd RG_THERMCFG_B))
    { d with thermal := { d.thermal with
        thermOut := Sparse.setCnt d.thermal.thermOut t (if out then Sparse.cnt d.thermal.thermOut t + 1 else 0)
        thermIn := Sparse.setCnt d.thermal.thermIn t (if out then 0 else Sparse.cnt d.thermal.thermIn t + 1) } }

def execThermistorConversion (t code : Nat) (s : State) : Host.Outcome State Fault Refusal :=
  s.upd (thermistorConversionEff t code)

/-- THERMISTOR_OUT_OF_RANGE: two means out of range; the sensor is reported as 0 (R408). -/
def thermistorOutEff (t : Nat) (d : Device) : Device :=
  if t < 2 ∧ 2 ≤ Sparse.cnt d.thermal.thermOut t ∧ d.bit (RG_THERM_FAIL t) = false then
    (((d.wr (RG_THERM_FAIL t) 1).wr (RG_THERM_DEGC t) 0).wr RG_INT_RANGE 1).log 9 0x6809 [t, d.rd (RG_THERM_CODE t)]
  else d

def execThermistorOutOfRange (t : Nat) (s : State) : Host.Outcome State Fault Refusal := s.upd (thermistorOutEff t)

/-- THERMISTOR_BACK_IN_RANGE: two means in range restore the reading (R408). -/
def thermistorBackEff (t : Nat) (d : Device) : Device :=
  if t < 2 ∧ 2 ≤ Sparse.cnt d.thermal.thermIn t ∧ d.bit (RG_THERM_FAIL t) = true then
    (d.wr (RG_THERM_FAIL t) 0).wr (RG_THERM_DEGC t) (Config.thermistorDegC (d.rd (RG_THERM_CODE t)) (d.rd RG_THERMCFG_B))
  else d

def execThermistorBackInRange (t : Nat) (s : State) : Host.Outcome State Fault Refusal := s.upd (thermistorBackEff t)

/-! ### Supplies (R408, R409) -/

/-- SUPPLY_CONVERSION: a rail is converted and range-checked (R405, R408). -/
def supplyConversionEff (ch code : Nat) (d : Device) : Device :=
  if !d.regOn || decide (ch < 16) || decide (25 < ch) then d
  else
    let low := decide (code < (d.limits ch).1)
    let high := decide ((d.limits ch).2 < code)
    let i := ch - 16
    let d := ((d.wr (RG_SUP_CODE i) code).wrB (RG_SUP_LOW i) low).wrB (RG_SUP_HIGH i) high
    { d with thermal := { d.thermal with
        supLow := Sparse.setCnt d.thermal.supLow ch (if low then Sparse.cnt d.thermal.supLow ch + 1 else 0)
        supHigh := Sparse.setCnt d.thermal.supHigh ch (if high then Sparse.cnt d.thermal.supHigh ch + 1 else 0) } }

def execSupplyConversion (ch code : Nat) (s : State) : Host.Outcome State Fault Refusal := s.upd (supplyConversionEff ch code)

/-- SUPPLY_FAILURE: two low conversions. The entry goes to NOR at once unless the rail is one the NOR write needs, in which case
the always-on domain keeps channel and code for the next boot (R408, R409). -/
def supplyFailureEff (ch : Nat) (d : Device) : Device :=
  if 2 ≤ Sparse.cnt d.thermal.supLow ch ∧ d.thermal.supplyFail = false then
    let code := d.rd (RG_SUP_CODE (ch - 16))
    let d : Device := { d with thermal := { d.thermal with supplyFail := true } }
    let d := d.holdDomains
    if [16, 17, 24, 25].contains ch then { d with thermal := { d.thermal with supplyKept := some (ch, code) } }
    else (d.log 9 0x600B [ch, code]).programAll
  else d

def execSupplyFailure (ch : Nat) (s : State) : Host.Outcome State Fault Refusal := s.upd (supplyFailureEff ch)

/-- SUPPLY_HIGH: two high conversions (R408). -/
def supplyHighEff (ch : Nat) (d : Device) : Device :=
  if 2 ≤ Sparse.cnt d.thermal.supHigh ch ∧ d.critical.testBit 2 = false then
    ((Device.log { d with critical := d.critical ||| 4 } 9 0x600C [ch, d.rd (RG_SUP_CODE (ch - 16))]).wr RG_INT_SUPHIGH
      1).postSmartAen 2
  else d

def execSupplyHigh (ch : Nat) (s : State) : Host.Outcome State Fault Refusal := s.upd (supplyHighEff ch)

/-- SUPPLY_RECOVERY_RESET: every rail within its limits for 100 ms after a supply failure (R409). -/
def supplyRecoveryEff (st : Straps) (d : Device) : Device :=
  if d.thermal.supplyFail && (List.range 10).all (fun i => !d.bit (RG_SUP_LOW i)) then d.deviceReset 3 st else d

def execSupplyRecoveryReset (straps : Straps) (s : State) : Host.Outcome State Fault Refusal :=
  s.upd (supplyRecoveryEff straps)

/-! ### Shock inputs stuck (R410) -/

/-- SHOCK_STUCK: active for 100 ms; masked from R234 and from port SHK (R410). -/
def shockStuckEff (i : Nat) (d : Device) : Device :=
  if i < 2 ∧ (d.rd RG_SHOCK_IN).testBit i = true ∧ (d.rd RG_SHOCK_STUCK).testBit i = false then
    let d : Device := if i = 0 then { d with shock1 := false } else { d with shock2 := false }
    ((d.wr RG_SHOCK_STUCK (d.rd RG_SHOCK_STUCK ||| 2 ^ i)).wr RG_INT_SHOCKSTUCK 1).log 9 0x600E [i]
  else d

def execShockStuck (input : Nat) (s : State) : Host.Outcome State Fault Refusal := s.upd (shockStuckEff input)

/-- SHOCK_UNMASK: a stuck input inactive for 10 ms (R410). -/
def shockUnmaskEff (i : Nat) (d : Device) : Device :=
  if i < 2 ∧ (d.rd RG_SHOCK_STUCK).testBit i = true ∧ (d.rd RG_SHOCK_IN).testBit i = false then
    d.wr RG_SHOCK_STUCK (d.rd RG_SHOCK_STUCK ^^^ 2 ^ i)
  else d

def execShockUnmask (input : Nat) (s : State) : Host.Outcome State Fault Refusal := s.upd (shockUnmaskEff input)

/-! ### Warning, throttling, shutdown (R411 to R417) -/

/-- WARNING_SET (R411, R412). -/
def warningSetEff (d : Device) : Device :=
  if 4 ≤ d.thermal.warnUp ∧ d.bit RG_THSTAT_WARN = false then
    ((Device.log { d with critical := d.critical ||| 2 } 9 0x6801 [d.rd RG_THSTAT_SRC, d.rd RG_THSTAT_TMAX]).wr RG_THSTAT_WARN
      1 |>.wr RG_INT_WARN 1).postSmartAen 1
  else d

def execWarningSet (s : State) : Host.Outcome State Fault Refusal := s.upd warningSetEff

/-- WARNING_CLEAR (R411, R412). -/
def warningClearEff (d : Device) : Device :=
  if 4 ≤ d.thermal.warnDown ∧ d.bit RG_THSTAT_WARN = true then
    (Device.log { d with critical := d.critical &&& 0xFD } 9 0x6802).wr RG_THSTAT_WARN 0
  else d

def execWarningClear (s : State) : Host.Outcome State Fault Refusal := s.upd warningClearEff

/-- The smallest of a list of steps. -/
def leastOf : List Nat → Nat
  | [] => 0
  | a :: as => as.foldl min a

/-- THROTTLE_SET: the step starts at the lowest computed step of the four readings that set it (R413, R417). -/
def throttleSetEff (d : Device) : Device :=
  if d.thermal.hot.length = 4 ∧ d.bit RG_THSTAT_THR = false then
    let s0 := leastOf d.thermal.hot
    let tmax := d.rd RG_THSTAT_TMAX
    let d : Device := { d with thermal := { d.thermal with
      step := s0, recent := d.thermal.hot, below := 0, event := some (d.chron.chr, tmax, s0) } }
    (((d.wr RG_THSTAT_THR 1).wr RG_INT_THROTTLE 1).log 9 0x6803 [tmax]).applyStep
  else d

def execThrottleSet (s : State) : Host.Outcome State Fault Refusal := s.upd throttleSetEff

/-- THROTTLE_STEP_RISE: four readings all computing above s (R413). -/
def throttleRiseEff (d : Device) : Device :=
  if d.bit RG_THSTAT_THR = true ∧ d.thermal.recent.length = 4 ∧ d.thermal.step < leastOf d.thermal.recent then
    Device.applyStep { d with thermal := { d.thermal with step := leastOf d.thermal.recent, below := 0 } }
  else d

def execThrottleStepRise (s : State) : Host.Outcome State Fault Refusal := s.upd throttleRiseEff

/-- THROTTLE_STEP_FALL: 1,000 readings computing below s; the count restarts (R413). -/
def throttleFallEff (d : Device) : Device :=
  if d.bit RG_THSTAT_THR = true ∧ 1000 ≤ d.thermal.below then
    Device.applyStep { d with thermal := { d.thermal with step := d.thermal.step - 1, below := 0 } }
  else d

def execThrottleStepFall (s : State) : Host.Outcome State Fault Refusal := s.upd throttleFallEff

/-- THROTTLE_CLEAR: throttling ends with s = 0, and its event closes (R413, R417). -/
def throttleClearEff (d : Device) : Device :=
  if d.bit RG_THSTAT_THR = true ∧ 4 ≤ d.thermal.thrDown then
    let e := d.thermal.event.getD (d.chron.chr, 0, 0)
    let dur := (d.chron.chr - e.1) / 1000
    let d : Device := { d with
      thermal := { d.thermal with step := 0, recent := [], below := 0, event := none }
      thermRec := { d.thermRec with
        events := (d.thermRec.events ++ [(e.1, dur, e.2.1, e.2.2)]).drop (d.thermRec.events.length - 15), eventCount := d.thermRec.eventCount + 1 } }
    (((d.wr RG_THSTAT_THR 0).log 9 0x6805 [dur, e.2.1, e.2.2]).applyStep).saveTherm
  else d

def execThrottleClear (s : State) : Host.Outcome State Fault Refusal := s.upd throttleClearEff

/-- THCTRL_FORCE_WRITE: 7 is ignored (R413, R431). -/
def thctrlForceEff (v : Word) (d : Device) : Device :=
  if getField v 0 3 = 7 then d else (d.wr RG_THCTRL_FORCE (getField v 0 3)).applyStep

def execThctrlForceWrite (value : Word) (s : State) : Host.Outcome State Fault Refusal := s.upd (thctrlForceEff value)

/-- THERMAL_SHUTDOWN: two readings at or above the shutdown value (R411, R415). -/
def thermalShutdownEff (d : Device) : Device :=
  if 2 ≤ d.thermal.shutUp then d.shutdownNow 0x6806 [d.rd RG_THSTAT_SRC, d.rd RG_THSTAT_TMAX] else d

def execThermalShutdown (s : State) : Host.Outcome State Fault Refusal := s.upd thermalShutdownEff

/-- THERMAL_AUTO_RESTART: permitted by the calibre, after 60 s below 100 °C (R416). -/
def thermalRestartEff (st : Straps) (d : Device) : Device :=
  match d.thermal.coolSince with
  | some t =>
    if d.thermal.shutdown && d.bit CB_THERM_RESTART && decide (t + 60000000 ≤ d.chron.chr) then
      let d := d.deviceReset 4 st
      { d with logbook := { d.logbook with held := d.logbook.held ++ [(0x6807, [60])] } }
    else d
  | none => d

def execThermalAutoRestart (straps : Straps) (s : State) : Host.Outcome State Fault Refusal :=
  s.upd (thermalRestartEff straps)

/-- MEDIA_DUTY_WINDOW: a 10 ms window begins (R414). -/
def execMediaDutyWindow (s : State) : Host.Outcome State Fault Refusal := s.upd fun d => { d with duty := {} }

/-- DUTY_CAP_REACHED: no new dispatch of the lane in this window (R414). -/
def dutyCapEff (l : Lane) (d : Device) : Device :=
  let busy := match l with | .ln0 => d.duty.busy0 | .ln1 => d.duty.busy1
  match dutyCap (d.rd RG_THSTAT_STEP) with
  | none => d
  | some cap =>
    if busy < cap then d
    else match l with
      | .ln0 => { d with duty := { d.duty with barred0 := true } }
      | .ln1 => { d with duty := { d.duty with barred1 := true } }

def execDutyCapReached (l : Lane) (s : State) : Host.Outcome State Fault Refusal := s.upd (dutyCapEff l)

/-! ### References (R418) -/

/-- The ladder of one ADC selected; a change is logged. -/
def Device.selectLadder (d : Device) (adc : Nat) (f : RF) (b : Bool) : Device :=
  if d.bit f == b then d else (d.wrB f b).log 9 0x6014 [adc, if b then 1 else 0]

/-- REFERENCE_LADDER_CHECK: for each ADC, whether ladder B lies nearer the bandgap's fused value (R418). -/
def execReferenceLadderCheck (regB motorB : Bool) (s : State) : Host.Outcome State Fault Refusal :=
  s.upd fun d => (d.selectLadder 0 RG_REFSEL_REG regB).selectLadder 1 RG_REFSEL_MOTOR motorB

/-- BANDGAP_TRIM: by at most 1 LSB towards the correction the regulator diode asks for (R418, R423). -/
def execBandgapTrim (error : Int) (s : State) : Host.Outcome State Fault Refusal :=
  s.upd fun d => { d with thermal := { d.thermal with bandgapTrim := d.thermal.bandgapTrim + clampI (-1) 1 error } }

/-! ### The calibration scheduler (R420 to R422) -/

/-- The grant of a lane. -/
def Device.calGrantOf (d : Device) : Lane → Option (Nat × Nat × Nat)
  | .ln0 => d.cal.grant0
  | .ln1 => d.cal.grant1

/-- The device with a lane's grant replaced. -/
def Device.setGrant (d : Device) (l : Lane) (g : Option (Nat × Nat × Nat)) : Device :=
  match l with
  | .ln0 => { d with cal := { d.cal with grant0 := g } }
  | .ln1 => { d with cal := { d.cal with grant1 := g } }

/-- CALREQ_GO: refused for a kind that is none and, in service mode, for more than 30 ms; else it waits (R420, R422). -/
def calreqGoEff (l : Lane) (kind head duration : Nat) (d : Device) : Device :=
  let i := l.idx
  if d.bit (RG_CALREQ_PEND i) then d
  else
    let d := ((d.wr (RG_CALREQ_KIND i) kind).wr (RG_CALREQ_HEAD i) head).wr (RG_CALREQ_DURATION i) duration
    let kind := kind % 16
    let duration := duration % 64
    if kind = 0 ∨ 8 ≤ kind ∨ duration = 0 ∨ (d.rd RG_CALMODE_MODE = 0 ∧ 30 < duration) then
      (d.wr (RG_CALREQ_GO i) 0).wr (RG_CALREQ_ERR i) 1
    else
      let d := ((d.wr (RG_CALREQ_GO i) 1).wr (RG_CALREQ_ERR i) 0).wr (RG_CALREQ_PEND i) 1
      { d with cal := { d.cal with waiting := d.cal.waiting ++
        [{ lane := l, kind := kind, head := head % 16, duration := duration, since := d.chron.chr, logged := false }] } }

def execCalreqGo (l : Lane) (kind head duration : Nat) (s : State) : Host.Outcome State Fault Refusal :=
  s.upd (calreqGoEff l kind head duration)

/-- Whether the mode's rules let a request be granted, once every recovery order of the lane has ended (R187, R420, R421). -/
def Device.calOk (d : Device) (r : CalReq) : Bool :=
  decide (d.rd RG_THSTAT_STEP = 0) && (d.calGrantOf r.lane).isNone && (d.lane r.lane).ch.slots.isEmpty
    && (d.rd RG_CALMODE_MODE == 1
      || (decide (d.rd RG_PSTATUS_STATE ≤ 1) && (d.calGrantOf r.lane.other).isNone
        && decide ((match r.lane with | .ln0 => d.cal.bar0 | .ln1 => d.cal.bar1) ≤ d.chron.chr)
        && (let last := Sparse.cnt d.cal.lastGrant (16 * r.lane.idx + r.head)
            decide (last = 0) || decide (last + 600000000 ≤ d.chron.chr + 1))))

/-- CAL_GRANT: the first waiting request that meets the rules (R420, R421). -/
def calGrantEff (d : Device) : Device :=
  match d.cal.waiting.find? d.calOk with
  | none => d
  | some r =>
    let i := r.lane.idx
    let d : Device := { d with cal := { d.cal with
      waiting := d.cal.waiting.filter (·.lane != r.lane)
      lastGrant := Sparse.setCnt d.cal.lastGrant (16 * i + r.head) (d.chron.chr + 1) } }
    let d := d.setGrant r.lane (some (r.kind, r.head, d.chron.chr))
    ((((d.wr (RG_CALREQ_GO i) 0).wr (RG_CALREQ_PEND i) 0).wr (RG_CALGNT_ACTIVE i) 1).wr (RG_CALGNT_MS i) r.duration).wr
      RG_INT_CALGNT 1

def execCalGrant (s : State) : Host.Outcome State Fault Refusal := s.upd calGrantEff

/-- CAL_DONE_WRITE: drive firmware ends the grant (R421). -/
def calDoneEff (l : Lane) (d : Device) : Device :=
  if (d.calGrantOf l).isSome then
    ((d.setGrant l none).wr (RG_CALGNT_ACTIVE l.idx) 0).wr (RG_CALGNT_MS l.idx) 0
  else d

def execCalDoneWrite (l : Lane) (s : State) : Host.Outcome State Fault Refusal := s.upd (calDoneEff l)

/-- CAL_GRANT_EXPIRE: the duration has passed without DONE (R421). -/
def calExpireEff (l : Lane) (d : Device) : Device :=
  match d.calGrantOf l with
  | none => d
  | some (kind, head, start) =>
    if d.chron.chr < start + 1000 * d.rd (RG_CALGNT_MS l.idx) then d
    else
      let service := d.rd RG_CALMODE_MODE == 0
      let d := (((d.calCut l).wr RG_INT_CALEXP 1).log 9 0x6010 [l.idx, kind, head]).wr (RG_CALGNT_MS l.idx) 0
      if service then
        match l with
        | .ln0 => { d with cal := { d.cal with bar0 := d.chron.chr + 600000000 } }
        | .ln1 => { d with cal := { d.cal with bar1 := d.chron.chr + 600000000 } }
      else d

def execCalGrantExpire (l : Lane) (s : State) : Host.Outcome State Fault Refusal := s.upd (calExpireEff l)

/-- Twice the interval of a kind, in µs; none for kinds without one (R420, R422). -/
def calTwice : Nat → Option Nat
  | 2 => some (2 * 100 * 3600000000)
  | 3 => some (2 * 250 * 3600000000)
  | 4 => some (2 * 2000 * 3600000000)
  | 5 => some (2 * 500 * 3600000000)
  | 6 => some (2 * 100 * 3600000000)
  | _ => none

/-- CAL_WAIT_OVERDUE: logged once for a waiting request (R420). -/
def calOverdueEff (l : Lane) (d : Device) : Device :=
  match d.cal.waiting.find? fun r => decide (r.lane = l) && !r.logged with
  | none => d
  | some r => match calTwice r.kind with
    | none => d
    | some t =>
      if d.chron.chr < r.since + t then d
      else
        Device.log { d with cal := { d.cal with
          waiting := d.cal.waiting.map fun x => if x = r then { x with logged := true } else x } } 9 0x6011
          [l.idx, r.kind, r.head]

def execCalWaitOverdue (l : Lane) (s : State) : Host.Outcome State Fault Refusal := s.upd (calOverdueEff l)

/-! ### Clock and bus supervision (R424) -/

/-- SMBUS_CLOCK_LOW_TIMEOUT: the interface is reset; it holds no state of its own between messages (R424). -/
def execSmbusClockLowTimeout (s : State) : Host.Outcome State Fault Refusal := s.upd fun d => d.log 9 0x6015

/-- AON_CLOCK_MISSING: four missing ticks of the 32.768 kHz clock (R424). -/
def execAonClockMissing (s : State) : Host.Outcome State Fault Refusal :=
  s.upd fun d => (d.wr RG_STATUS_AONFAIL 1).log 9 0x600F

end Sys2Proof.Machine
end

