-- ==== Sys2Proof/Machine/Boot.lean ====
section
/-!
DEFINITION. Resets and the boot sequence: calibre examination and selection, slot choice, release of the cores, recovery mode,
the calibre lock (R23, R41 to R44, R339, R441 to R444, R458, R459).
-/
namespace Sys2Proof.Machine

/-! ### Boot records (R442) -/

/-- What the boot ROM takes when neither copy of the boot record is valid (R442). -/
def BootRec.fresh : BootRec :=
  { seq := 0, active := 0, pending := none, pboots := 0, stage := 0, prun := 0, stagedLen := 0, stagedId := 0, epoch := 0,
    window := 0, flags := 0 }

/-- The boot record in force. -/
def Device.brec (d : Device) : BootRec := d.nor.bootRec.getD BootRec.fresh

/-- A boot record written: to the other copy, with the sequence stepped; RG_UPDSTAT.STAGE follows it (R442, R450). -/
def Device.writeRec (d : Device) (r : BootRec) : Device :=
  let d : Device := { d with nor := { d.nor with
    bootRec := some { r with seq := (d.brec.seq + 1) % 2 ^ 32 }, bootRecOld := d.nor.bootRec } }
  let d : Device := { d with boot := { d.boot with resumed := false } }
  d.wr RG_UPDSTAT_STAGE r.stage

/-- A firmware slot: 0 A, 1 B. -/
def Device.fwSlot (d : Device) (s : Nat) : List (Nat × Nat) := if s = 0 then d.nor.slotA else d.nor.slotB

/-- The verification code of a slot (R440). -/
def Device.slotCode (d : Device) (obs : BootObs) (s : Nat) : Nat :=
  d.imageCode (d.fwSlot s) (if s = 0 then obs.slotA else obs.slotB)

/-- A pending slot reverted: cleared, its rejected flag set, stage 9 (R443, R450). `cause`: 0 boots, 1 Run time, 2 failed
check. -/
def Device.revertPending (d : Device) (cause : Nat) : Device :=
  let r := d.brec
  match r.pending with
  | none => d
  | some s =>
    (d.writeRec { r with pending := none, stage := 9, flags := r.flags ||| (if s = 0 then 2 else 4) }).log 9 0x700E [cause]

/-! ### Settings (R458) -/

/-- The first run of an image compares its schema with the current half's. The defaults of section 7 stand for the written
contents by the image's own bytes, which the model keeps in the slot. -/
def Device.checkSettings (d : Device) (schema : Nat) : Device :=
  match d.nor.curSettings with
  | none => { d with nor := { d.nor with curSettings := some { schema := schema, body := 0 } } }
  | some c =>
    if schema = c.schema then d
    else if c.schema < schema then
      Device.log { d with nor := { d.nor with
        savedSettings := some c, curSettings := some { schema := schema, body := 0 } } } 9 0x700F [c.schema, schema]
    else
      let new : Settings := match d.nor.savedSettings with
        | some v => if v.schema = schema then v else { schema := schema, body := 0 }
        | none => { schema := schema, body := 0 }
      Device.log { d with nor := { d.nor with curSettings := some new } } 9 0x700F [c.schema, schema]

/-! ### Recovery mode (R459) -/

/-- An entry held for the next boot that can write the logbook (R47, R459). -/
def Device.holdLog (d : Device) (code : Nat) (params : List Nat) : Device :=
  { d with logbook := { d.logbook with held := d.logbook.held ++ [(code, params)] } }

/-- Recovery mode: the boot ROM serves the crown port alone and CROWN_WAKE is asserted; the event is held for the next boot
that runs regulator firmware. -/
def Device.enterRecovery (d : Device) (code : Nat) (params : List Nat) : Device :=
  let d := d.wr RG_BOOTSTAT_RECOVERY 1
  Device.holdLog { d with
    boot := { d.boot with phase := .recovery }
    crown := { d.crown with wake := true } } code params

/-! ### The rest of the boot after the calibre lock (R441, R443) -/

/-- Entries held over from before this boot: the supply failure's, and those recovery mode could not write (R409, R459). -/
def Device.logHeld (d : Device) : Device :=
  let d := match d.thermal.supplyKept with
    | some (ch, code) =>
      let d : Device := { d with thermal := { d.thermal with supplyFail := true } }
      let d := d.log 9 0x600B [ch, code]
      { d with thermal := { d.thermal with supplyFail := false, supplyKept := none } }
    | none => d
  let hs := d.logbook.held
  hs.foldl (fun d h => d.log 9 h.1 h.2) { d with logbook := { d.logbook with held := [] } }

/-- The newest chronometer value among the logbook entries in NOR (R395). -/
def Device.newestLogChr (d : Device) : Nat := (d.nor.log.map (·.2.chr)).foldl max 0

/-- The chronometer restarts after Off or a loss of the always-on supply (R395, R396). -/
def Device.restartChron (d : Device) : Device :=
  if d.chron.lost then
    let v := max d.nor.chronRec d.newestLogChr + 1
    let d : Device := { d with
      chron := { d.chron with chr := v, frac := 0, anchor := none, bootStart := v, lost := false }
      logbook := { d.logbook with gap := true } }
    d.log 9 0x6008 [v]
  else { d with chron := { d.chron with bootStart := d.chron.chr } }

/-- Namespace 1 as it exists at first power-up: conventional, format 0, the whole capacity, attached to every controller (R52, R65). -/
def Device.makeFirstNs (d : Device) : Device :=
  if d.hnor.made then d
  else
    { d with hnor := { d.hnor with
      made := true
      nss := [(1, { blocks := 65536 * d.medium.capacity, attached := if d.twoPorts then 3 else 1 })] } }

/-- The cores are released with an image: RG_BOOTSTAT, EMRET_N, the self-test, the patch, the held entries, event 0x7001
(R373, R326, R395, R400, R418, R441, R471). -/
def Device.releaseCores (d : Device) (slot : Nat) (probation : Bool) : Device :=
  let obs := d.boot.obs
  let t := d.fwSlot slot
  let d := if probation then d.checkSettings (imgSchema t) else d
  let d := match obs.selfTestFail with
    | none => d.wr CX_STATUS_SELFPASS 1
    | some k => (d.wr CX_STATUS_SELFFAIL 1).log 8 0x5001 [k]
  let d := d.loadPatch obs.patch
  let d := ((d.restartChron).resumeMeters).makeFirstNs
  let d : Device := { d with
    boot := { d.boot with phase := .released, revision := imgRevision t }
    emret := if d.emretCause.isSome then d.emret else .high }
  let d := ((((d.wr RG_BOOTSTAT_SLOT slot).wrB RG_BOOTSTAT_PROBATION probation).wr RG_BOOTSTAT_PBOOTS d.brec.pboots).wr
    RG_BOOTSTAT_SVN d.otp.svn).wr RG_BOOTSTAT_SCHEMA ((d.nor.curSettings.map (·.schema)).getD 0)
  let d := (d.selectLadder 0 RG_REFSEL_REG obs.ladderReg).selectLadder 1 RG_REFSEL_MOTOR obs.ladderMotor
  let d := d.logHeld
  let d := if probation then d.log 9 0x700C [d.brec.pboots] else d
  d.log 9 0x7001 [slot, d.chron.chr - d.chron.bootStart, d.rd RG_RSTCAUSE_CAUSE]

/-- The active slot, else the other, else recovery (R443). -/
def Device.bootActive (d : Device) : Device :=
  let r := d.brec
  let other := 1 - r.active
  let c := d.slotCode d.boot.obs r.active
  if c = 0 then d.releaseCores r.active false
  else if d.slotCode d.boot.obs other = 0 then
    ((d.writeRec { r with active := other }).log 9 0x7002 [r.active, c]).releaseCores other false
  else d.enterRecovery 0x7003 [c]

/-- The slot choice of R443, with the record's own entries of R442 and R450: a copy cut off by a reset falls back to stage 3. -/
def Device.bootSlot (d : Device) : Device :=
  let d := if d.nor.bootRec.isNone then d.writeRec BootRec.fresh else d
  let d := if d.brec.stage = 4 then d.writeRec { d.brec with stage := 3 } else d
  let d := d.wr RG_UPDSTAT_STAGE d.brec.stage
  let d := d.wr RG_UPDSTAT_CHUNKS d.nor.journal.length
  let r := d.brec
  match r.pending with
  | none => d.bootActive
  | some s =>
    if 3 ≤ r.pboots then (d.revertPending 0).bootActive
    else if 1800 ≤ r.prun then (d.revertPending 1).bootActive
    else if d.slotCode d.boot.obs s ≠ 0 then (d.revertPending 2).bootActive
    else (d.writeRec { r with pboots := r.pboots + 1, stage := 7 }).releaseCores s true

/-- R42 and R43: the copy with the higher sequence is loaded and locked, or recovery mode. A wake that reran the load for a
failed retention group goes on where it was (R44). -/
def Device.selectCalibre (d : Device) : Device :=
  let d := (d.wr CB_STATUS_A_RESULT d.boot.resultA).wr CB_STATUS_B_RESULT d.boot.resultB
  let d := if d.boot.resultA = 0 then d else d.holdLog 0x7801 [0, d.boot.resultA]
  let d := if d.boot.resultB = 0 then d else d.holdLog 0x7801 [1, d.boot.resultB]
  let pick : Option Nat :=
    if d.boot.resultA = 0 then
      if d.boot.resultB = 0 ∧ calSeq d.nor.calA < calSeq d.nor.calB then some 2 else some 1
    else if d.boot.resultB = 0 then some 2
    else none
  match pick with
  | none => (d.wr CB_STATUS_LOCK 1 |>.wr CB_CTRL_LOCK 1).enterRecovery 0x7806 [d.boot.resultA, d.boot.resultB]
  | some n =>
    let t := if n = 1 then d.nor.calA else d.nor.calB
    match calRecords t with
    | .error _ => d.enterRecovery 0x7806 [d.boot.resultA, d.boot.resultB]
    | .ok rs =>
      let d := ((d.loadCalibre t rs n).lockCalibre).log 8 0x7802 [n - 1, calSeq t]
      if d.boot.reload then
        Device.log { d with boot := { d.boot with reload := false, phase := .released } } 8 0x7805
      else d.bootSlot

/-- Copy B examined up to its verdict (R41). -/
def Device.examineB (d : Device) : Device :=
  if d.boot.obs.readErrB then
    Device.selectCalibre { d with boot := { d.boot with resultB := 6 } }
  else
    let c := calHeader d.nor.calB
    if c ≠ 0 then Device.selectCalibre { d with boot := { d.boot with resultB := c } }
    else { d with boot := { d.boot with phase := .verdictB } }

/-- Copy A examined up to its verdict (R41). -/
def Device.examineA (d : Device) : Device :=
  if d.boot.obs.readErrA then Device.examineB { d with boot := { d.boot with resultA := 6 } }
  else
    let c := calHeader d.nor.calA
    if c ≠ 0 then Device.examineB { d with boot := { d.boot with resultA := c } }
    else { d with boot := { d.boot with phase := .verdictA } }

/-- The result of steps 3 and 4 for the copy awaiting its verdict goes to its place and the examination goes on (R41). -/
def Device.takeResult (d : Device) (f : List (Nat × Nat) → Nat) : Device :=
  match d.boot.phase with
  | .verdictA => Device.examineB { d with boot := { d.boot with resultA := f d.nor.calA } }
  | .verdictB => Device.selectCalibre { d with boot := { d.boot with resultB := f d.nor.calB } }
  | _ => d

/-! ### The commands -/

/-- POWER_ON_RESET: a device reset after which nothing kept in the always-on domain holds: the chronometer restarts from NOR
(R43, R377, R395, R444). -/
def execPowerOnReset (straps : Straps) (s : State) : Host.Outcome State Fault Refusal :=
  if straps.scan then .fault .scanTest
  else s.upd fun d =>
    let d := Device.deviceReset { d with aon := { d.aon with off := false } } 0 straps
    let stage := d.brec.stage
    { d with
      chron := { d.chron with lost := true }
      boot := { d.boot with resumed := decide (1 ≤ stage) && decide (stage ≤ 5) } }

/-- RESET_N_ASSERT: RESET_N low for 1 µs (R424). Where the supplies were away it ends Off (R377, R469). -/
def execResetNAssert (straps : Straps) (s : State) : Host.Outcome State Fault Refusal :=
  if straps.scan then .fault .scanTest
  else s.upd fun d =>
    let off := d.aon.off
    let d := d.deviceReset 1 straps
    { d with chron := { d.chron with lost := d.chron.lost || off } }

/-- ROOT_PLL_LOCK: domains 1 to 22 leave reset and the boot ROM starts (R441). -/
def rootPllLockEff (obs : BootObs) (d : Device) : Device :=
  if d.boot.phase = .awaitLock ∧ d.aon.off = false then
    Device.examineA { d with boot := { d.boot with obs := obs, resultA := 1, resultB := 1 } }
  else d

def execRootPllLock (obs : BootObs) (s : State) : Host.Outcome State Fault Refusal := s.upd (rootPllLockEff obs)

/-- OPROK_CALIBRE_VERDICT: steps 3 and 4 of R41 for the copy that waits. -/
def calibreVerdictEff (v : Verdict) (d : Device) : Device :=
  d.takeResult fun t =>
    let c := calSignature t d.otp v
    if c ≠ 0 then c else calRecordsCode t

def execOprokCalibreVerdict (v : Verdict) (s : State) : Host.Outcome State Fault Refusal := s.upd (calibreVerdictEff v)

/-- OPROK_VERDICT_TIMEOUT: no verdict within 20 ms (R41, R50 code 0x09). -/
def execOprokVerdictTimeout (s : State) : Host.Outcome State Fault Refusal := s.upd fun d => d.takeResult fun _ => 9

/-- CB_CTRL_LOCK_WRITE: the boot ROM sets the lock; CB_ is writable by no other initiator and no more after it (R28, R43). -/
def cbLockEff (who : Initiator) (v : Word) (d : Device) : Device :=
  if who ≠ .bootRom ∨ d.boot.locked = true then d.emit (.reply none .busError)
  else if getField v 0 1 = 1 then d.lockCalibre else d

def execCbCtrlLockWrite (who : Initiator) (value : Word) (s : State) : Host.Outcome State Fault Refusal :=
  s.upd (cbLockEff who value)

/-- DRAM_SECTIONS_LOADED: every region is released and the sections that load into DRAM are placed (R441). -/
def dramSectionsEff (d : Device) : Device :=
  if d.released && d.bit MS_STATUS_DRAMRDY then d.wr RG_BOOTSTAT_LOADED 1 else d

def execDramSectionsLoaded (s : State) : Host.Outcome State Fault Refusal := s.upd dramSectionsEff

/-- PLL_LOCK_LOSS: while domains 1 to 22 run, both lanes' write gates and the spindle gates go off, the retract pin is asserted
and the domains are held in reset; the next reset reports the cause (R23, R444). -/
def pllLockLossEff (d : Device) : Device :=
  if d.up then
    let d := (d.emergencyRetract 1).spinOff
    { d with
      boot := { d.boot with phase := .held }
      power := { d.power with request := none, run := none }
      aon := { d.aon with heldCause := some 2 } }
  else d

def execPllLockLoss (s : State) : Host.Outcome State Fault Refusal := s.upd pllLockLossEff

/-- SUPPLIES_REMOVED: Off; every register and memory outside the always-on domain is gone (R377). -/
def suppliesRemovedEff (d : Device) : Device :=
  let d' := d.deviceReset 0 d.boot.straps
  { d' with aon := { boots := d.aon.boots, off := true }, chron := { d'.chron with lost := true }, logbook := { held := d.logbook.held } }

def execSuppliesRemoved (s : State) : Host.Outcome State Fault Refusal := s.upd suppliesRemovedEff

end Sys2Proof.Machine
end

