-- ==== Sys2Proof/Machine/Crown.lean ====
section
/-!
DEFINITION. The crown port: Solind frames, their exchange, the rate, the wake line, and the commands that touch neither firmware
nor calibre (R396, R445 to R449).
-/
namespace Sys2Proof.Machine

/-! ### Frames out (R446, R447) -/

/-- A frame sent as it is, outside the numbering: ACK and NAK. -/
def Device.sendBare (d : Device) (kind seq : Nat) : Device :=
  d.emit (.frame { kind := kind, seq := seq, code := 0, payload := [] })

/-- Queued frames sent while fewer than four are unacknowledged (R447). The first argument bounds the number sent. -/
def Device.pumpCrown : Nat → Device → Device
  | 0, d => d
  | n + 1, d =>
    match d.crown.queued with
    | [] => d
    | f :: rest =>
      if 4 ≤ d.crown.unacked.length then d
      else
        let f' : Frame := { f with seq := d.crown.txNext }
        Device.pumpCrown n (Device.emit { d with crown := { d.crown with
          queued := rest, unacked := d.crown.unacked ++ [(f', 0)], txNext := (d.crown.txNext + 1) % 256 } } (.frame f'))

/-- A command, response or event frame put in line. -/
def Device.sendFrame (d : Device) (kind code : Nat) (payload : List Nat) : Device :=
  Device.pumpCrown 4 { d with crown := { d.crown with
    queued := d.crown.queued ++ [{ kind := kind, seq := 0, code := code, payload := payload }] } }

/-- A response; its payload's byte 0 is the status (R446, R449). -/
def Device.respond (d : Device) (code status : Nat) (payload : List Nat := []) : Device :=
  d.sendFrame 2 code (status :: payload)

/-- The sequence number the next response will carry. -/
def Device.nextSeq (d : Device) : Nat := (d.crown.txNext + d.crown.queued.length) % 256

/-- The session ends: unacknowledged frames are discarded and HELLO is awaited (R447). -/
def Device.dropSession (d : Device) : Device :=
  Device.logRate { d with crown := { d.crown with
    unacked := [], queued := [], session := false, awaitHello := true, newRate := none, resetOn := none } } 9 0x7013 0

/-- The permitted rates (R445). -/
def crownRates : List Nat := [115200, 921600, 3000000, 6000000]

/-! ### Frames in (R446, R447) -/

/-- The commands of R449. -/
def solindCodes : List Nat :=
  [0x0001, 0x0002, 0x0003, 0x0010, 0x0011, 0x0020, 0x0021, 0x0022, 0x0023, 0x0024, 0x0025, 0x0026, 0x0030, 0x0031, 0x0032,
   0x0040, 0x0050, 0x00F0]

/-- The crown port is served: by the boot ROM in recovery mode, else once the cores run (R449, R459). -/
def Device.crownOn (d : Device) : Bool :=
  match d.boot.phase with
  | .recovery => true
  | .released => d.power.retain == .out
  | _ => false

/-- A valid frame from the station: it releases CROWN_WAKE outside recovery mode and proves a new rate (R445, R448). -/
def Device.validFrame (d : Device) : Device :=
  { d with crown := { d.crown with
      wake := d.crown.wake && d.boot.phase == .recovery
      unproven := false, lastFrame := d.chron.chr, partFrame := false } }

/-- Frames of the device acknowledged up to `seq`: they leave the list, a rate or a reset that waited for one of them comes to
pass, and queued frames go (R447 to R449). -/
def Device.takeAck (d : Device) (seq : Nat) (st : Straps) : Device :=
  if !d.crown.unacked.any (·.1.seq == seq) then d
  else
    let kept := (d.crown.unacked.dropWhile (·.1.seq != seq)).drop 1
    let gone (s : Nat) : Bool := d.crown.unacked.any (·.1.seq == s) && !kept.any (·.1.seq == s)
    let rate := d.crown.newRate.filter fun r => gone r.1
    let reset := d.crown.resetOn.any gone
    let d : Device := { d with crown := { d.crown with unacked := kept } }
    let d : Device := match rate with
      | none => d
      | some (_, i) =>
        Device.log { d with crown := { d.crown with rateIdx := i, newRate := none, unproven := true } } 9 0x7012
          [crownRates.getD i 0]
    if reset then d.deviceReset 6 st else Device.pumpCrown 4 d

/-- Frames sent again from the first whose sequence is `seq`; a frame already retransmitted 8 times ends the session (R447). -/
def Device.retransmit (d : Device) (seq : Nat) : Device :=
  let again := d.crown.unacked.dropWhile (·.1.seq != seq)
  if again.isEmpty then d
  else if again.any fun f => decide (8 ≤ f.2) then d.dropSession
  else
    let keep := d.crown.unacked.takeWhile (·.1.seq != seq)
    let d : Device := { d with crown := { d.crown with unacked := keep ++ again.map fun f => (f.1, f.2 + 1) } }
    again.foldl (fun d f => d.emit (.frame f.1)) d

/-- A frame from its bytes after the sync, where its length and its CRC are right (R446). -/
def parseFrame (bs : List Nat) : Option Frame :=
  let n := bs.getD 4 0 + 256 * bs.getD 5 0
  if n ≤ 4112 ∧ bs.length = n + 10 ∧ ofBytes (bs.drop (n + 6)) = crc32c (bs.take (n + 6)) then
    some { kind := bs.getD 0 0, seq := bs.getD 1 0, code := bs.getD 2 0 + 256 * bs.getD 3 0, payload := (bs.drop 6).take n }
  else none

/-- CROWN_FRAME_RECEIVE: `bytes` are those after the two sync bytes, `stopOk` that every stop bit read 1. A discarded frame
draws a NAK that names the expected sequence; HELLO restarts the numbering; a frame in order is acknowledged; one of the last
four is acknowledged again; any other draws a NAK. An unknown command code is answered with status 2 (R446, R447, R449). -/
def crownFrameEff (bytes : List Nat) (stopOk : Bool) (d : Device) : Device :=
  if !d.crownOn then d
  else match (if stopOk then parseFrame bytes else none) with
    | none => if d.crown.awaitHello then d else d.sendBare 4 d.crown.rxNext
    | some f =>
      let d := d.validFrame
      if f.kind = 3 then d.takeAck f.seq d.boot.straps
      else if f.kind = 4 then d.retransmit f.seq
      else if f.kind = 1 ∧ f.code = 1 then
        Device.sendBare { d with crown := { d.crown with
          rxNext := (f.seq + 1) % 256, txNext := 0, unacked := [], queued := [], session := true, awaitHello := false } } 3 f.seq
      else if d.crown.awaitHello then d
      else if f.seq = d.crown.rxNext then
        let d := Device.sendBare { d with crown := { d.crown with rxNext := (f.seq + 1) % 256 } } 3 f.seq
        if f.kind = 1 ∧ !solindCodes.contains f.code then d.respond f.code 2 else d
      else if (d.crown.rxNext + 256 - f.seq) % 256 ≤ 4 then d.sendBare 3 ((d.crown.rxNext + 255) % 256)
      else d.sendBare 4 d.crown.rxNext

def execCrownFrameReceive (bytes : List Nat) (stopOk : Bool) (s : State) : Host.Outcome State Fault Refusal :=
  s.upd (crownFrameEff bytes stopOk)

/-- CROWN_INTERBYTE_TIMEOUT: the frame is discarded, and if one was expected a NAK names it (R446, R447). -/
def crownInterbyteEff (d : Device) : Device :=
  if !d.crownOn || d.crown.awaitHello then { d with crown := { d.crown with partFrame := false } }
  else Device.sendBare { d with crown := { d.crown with partFrame := false } } 4 d.crown.rxNext

def execCrownInterbyteTimeout (s : State) : Host.Outcome State Fault Refusal := s.upd crownInterbyteEff

/-- CROWN_ACK_RECEIVE (R447 to R449). -/
def execCrownAckReceive (seq : Nat) (straps : Straps) (s : State) : Host.Outcome State Fault Refusal :=
  s.upd fun d => if d.crownOn then d.validFrame.takeAck seq straps else d

/-- CROWN_NAK_RECEIVE (R447). -/
def execCrownNakReceive (seq : Nat) (s : State) : Host.Outcome State Fault Refusal :=
  s.upd fun d => if d.crownOn then d.validFrame.retransmit seq else d

/-- CROWN_RETRANSMIT_TIMEOUT: 50 ms without an ACK (R447). -/
def crownRetransmitEff (d : Device) : Device :=
  match d.crown.unacked with
  | [] => d
  | f :: _ => d.retransmit f.1.seq

def execCrownRetransmitTimeout (s : State) : Host.Outcome State Fault Refusal := s.upd crownRetransmitEff

/-- BAUD_REVERT_TIMEOUT: no valid frame within 1 s at the new rate (R448). -/
def baudRevertEff (d : Device) : Device :=
  if d.crown.unproven then
    Device.log { d with crown := { d.crown with rateIdx := 0, unproven := false } } 9 0x7012 [115200]
  else d

def execBaudRevertTimeout (s : State) : Host.Outcome State Fault Refusal := s.upd baudRevertEff

/-- An event frame is waiting. -/
def Device.eventWaits (d : Device) : Bool :=
  d.crown.queued.any (·.kind == 5) || d.crown.unacked.any (·.1.kind == 5)

/-- CROWN_WAKE_TIMEOUT: an event frame waits and no frame has come for 10 s (R445). -/
def crownWakeEff (d : Device) : Device :=
  if d.eventWaits && decide (d.crown.lastFrame + 10000000 ≤ d.chron.chr) then
    { d with crown := { d.crown with wake := true } }
  else d

def execCrownWakeTimeout (s : State) : Host.Outcome State Fault Refusal := s.upd crownWakeEff

/-! ### Commands (R449) -/

/-- A command served in normal operation and in recovery mode. -/
def Device.servedNR (d : Device) (f : Device) : Device := if d.crownOn then f else d

/-- A command served in normal operation only; in recovery mode it draws status 3. -/
def Device.servedN (d : Device) (code : Nat) (f : Device) : Device :=
  if !d.crownOn then d else if d.released then f else d.respond code 3

/-- RG_BOOTSTAT, RG_RSTCAUSE, RG_UPDSTAT and CB_STATUS as the crown port reports them. -/
def Device.bootWords (d : Device) : List Nat :=
  [RG_BOOTSTAT, RG_RSTCAUSE, RG_UPDSTAT, CB_STATUS].flatMap fun a => bytesOf 4 (d.word a).toNat

/-- SOLIND_HELLO: numbering restarts; part code, stepping, EC_ROMREV, firmware revision, mode, CB_STATUS, update stage. -/
def solindHelloEff (d : Device) : Device :=
  d.servedNR (Device.respond { d with crown := { d.crown with
      txNext := 0, unacked := [], queued := [], session := true, awaitHello := false } } 0x0001 0
    (bytesOf 2 0x5200 ++ [steppingCode] ++ bytesOf 2 (d.rd (EC_ROMREV_REV ⟨.ln0, false⟩)) ++ bytesOf 8 d.boot.revision
      ++ [if d.released then 0 else 1] ++ bytesOf 4 (d.word CB_STATUS).toNat ++ [d.rd RG_UPDSTAT_STAGE]))

def execSolindHello (s : State) : Host.Outcome State Fault Refusal := s.upd solindHelloEff

/-- SOLIND_SET_BAUD: a rate of R445 is taken when the station acknowledges the response (R448). -/
def solindSetBaudEff (rate : Nat) (d : Device) : Device :=
  d.servedNR (match crownRates.findIdx? (· == rate) with
    | none => d.respond 0x0002 4
    | some i => Device.respond { d with crown := { d.crown with newRate := some (d.nextSeq, i) } } 0x0002 0)

def execSolindSetBaud (rate : Nat) (s : State) : Host.Outcome State Fault Refusal := s.upd (solindSetBaudEff rate)

/-- The host time anchored to the chronometer (R396). -/
def Device.setAnchor (d : Device) (ms : Nat) : Device :=
  Device.log { d with chron := { d.chron with anchor := some (ms, d.chron.chr) } } 9 0x6009 [ms]

/-- Host milliseconds now: the anchor's and what has passed since, else what has passed since the boot's chronometer start
(R396). -/
def Device.hostMs (d : Device) : Nat :=
  match d.chron.anchor with
  | some (ms, c) => ms + (d.chron.chr - c) / 1000
  | none => (d.chron.chr - d.chron.bootStart) / 1000

/-- SOLIND_SET_TIME (R396, R449). -/
def execSolindSetTime (ms : Nat) (s : State) : Host.Outcome State Fault Refusal :=
  s.upd fun d => d.servedN 0x0003 ((d.setAnchor (ms % 2 ^ 64)).respond 0x0003 0)

/-- SOLIND_STATUS (R449). -/
def execSolindStatus (s : State) : Host.Outcome State Fault Refusal :=
  s.upd fun d => d.servedNR (d.respond 0x0010 0 d.bootWords)

/-- A logbook entry as its 64 bytes (R425). Each parameter takes four bytes; at level 41 the native code stands in parameter
bytes 34 and 35 (R428). -/
def LogEntry.bytes (e : LogEntry) : List Nat :=
  let ps := (e.params.flatMap (bytesOf 4)).take 36
  let ps := ps ++ List.replicate (36 - ps.length) 0
  let ps := match e.native with
    | some c => ps.take 34 ++ bytesOf 2 c
    | none => ps
  let b := bytesOf 4 e.seq ++ bytesOf 2 e.code ++ [e.severity, e.source] ++ bytesOf 8 e.chr ++ bytesOf 4 e.seconds
    ++ bytesOf 2 e.suppressed ++ [e.flags, e.boot] ++ ps
  b ++ bytesOf 4 (crc32c b)

/-- SOLIND_LOG_READ: 1 to 64 entries from NOR, from a sequence number on (R449). -/
def solindLogReadEff (first count : Nat) (d : Device) : Device :=
  d.servedNR (if count = 0 ∨ 64 < count then d.respond 0x0011 4
    else
      let es := (d.nor.log.map (·.2)).filter fun e => decide (first ≤ e.seq) && decide (e.seq < first + count)
      d.respond 0x0011 0 (es.flatMap LogEntry.bytes))

def execSolindLogRead (first count : Nat) (s : State) : Host.Outcome State Fault Refusal :=
  s.upd (solindLogReadEff first count)

/-- SOLIND_RESET: the device resets when the response has been acknowledged (R449). -/
def execSolindReset (s : State) : Host.Outcome State Fault Refusal :=
  s.upd fun d => d.servedNR (Device.respond { d with crown := { d.crown with resetOn := some d.nextSeq } } 0x00F0 0)

end Sys2Proof.Machine
end

