-- ==== Sys2Proof/Machine/ChannelOps.lean ====
section
/-!
DEFINITION. The read channel's operations: sync ranking, the recovery order, outcomes, step 6, decoders, adaptation entries, counters
(R162 to R196, R204, R205).
-/
namespace Sys2Proof.Machine

/-! ### Sync candidates and the recovery order (R180 to R182) -/

/-- The order of candidates: Hamming distance, |p|, p (R180). -/
def candLe (a b : Nat × Int) : Bool :=
  decide (a.1 < b.1) || (a.1 == b.1 && (decide (a.2.natAbs < b.2.natAbs) || (a.2.natAbs == b.2.natAbs && decide (a.2 ≤ b.2))))

/-- A candidate put in its place. -/
def insertCand (c : Nat × Int) : List (Nat × Int) → List (Nat × Int)
  | [] => [c]
  | x :: xs => if candLe c x then c :: x :: xs else x :: insertCand c xs

/-- At most three qualifying positions within the window and threshold, in rank order (R180). -/
def rankCands (win thresh : Nat) (cs : List (Nat × Int)) : List (Nat × Int) :=
  ((cs.filter fun c => decide (c.1 ≤ thresh) && decide (c.2.natAbs ≤ win)).foldr insertCand []).take 3

/-- The eight slips of an alignment, in the order of R181. -/
def slips (p : Int) : List Int := [p + 1, p - 1, p + 2, p - 2, p + 3, p - 3, p + 4, p - 4]

/-- The candidates an order works from: the nominal position stands in where there is no mark (R180). -/
def RSlot.bases (s : RSlot) : List Int := if s.mark then s.cands else [0]

/-- Steps 2 to 4: step and alignment, in order (R181). -/
def RSlot.plan (s : RSlot) : List (Nat × Int) :=
  (if s.mark then s.cands.tail.map fun p => (2, p) else []) ++ (s.bases.flatMap slips).map (fun p => (3, p)) ++
    (if s.mark then ((0 : Int) :: slips 0).map fun p => (4, p) else [])

/-- The alignment of step 5: the earliest failed attempt with the fewest unsatisfied checks that did not converge (R181). -/
def bestFailed : List Attempt → Option Attempt
  | [] => none
  | a :: as =>
    match bestFailed as with
    | none => if a.conv then none else some a
    | some b => if !a.conv && decide (a.usc ≤ b.usc) then some a else some b

/-- A register word of a slot's snapshot. -/
def RSlot.word (s : RSlot) (a : Nat) : Word := (Sparse.find s.snap a).getD 0

/-- The attempt after those made, with its step; none at step 6 (R181, R182). -/
def RSlot.nextAttempt (s : RSlot) (rplOff : Bool) (maxatt : Nat) : Option (Nat × Int) :=
  if rplOff ∨ 5 ≤ s.step then none
  else
    let fresh := s.plan.find? fun x => !(s.tried.any fun a => a.p == x.2 && !a.alt)
    match (if s.replays < maxatt then fresh else none) with
    | some x => some x
    | none => (bestFailed s.tried).map fun a => (5, a.p)

/-! ### Lanes, slots and settings -/

/-- The lane whose stream a lane's channel works on: LN0 in duplex (R202, R205). -/
def Device.stream (d : Device) (l : Lane) : Lane := if d.duplex then .ln0 else l

/-- A sector is being captured: the read gate is on. -/
def Device.capturing (d : Device) (l : Lane) : Bool := (d.ch (d.stream l)).slots.any fun s => !s.captured

/-- A slot's key. -/
def RSlot.key (s : RSlot) : Lane × Bool := (s.home, s.place)

/-- The device with the slot of a key changed. -/
def Device.updSlot (d : Device) (l : Lane) (key : Lane × Bool) (f : RSlot → RSlot) : Device :=
  d.updCh l fun c => { c with slots := c.slots.map fun s => if s.key == key then f s else s }

/-- The device without the slot of a key. -/
def Device.dropSlot (d : Device) (l : Lane) (key : Lane × Bool) : Device :=
  d.updCh l fun c => { c with slots := c.slots.filter fun s => !(s.key == key) }

/-- A counter of the loaded head and zone stepped by `n` (R193). -/
def Device.chCount (d : Device) (l : Lane) (off : Nat) (n : Nat := 1) : Device :=
  d.updCh l fun c => { c with cnt := Sparse.setCnt c.cnt (off / 4) (Sparse.cnt c.cnt (off / 4) + n) }

/-- A duplex counter stepped (R218). -/
def Device.dxCount (d : Device) (off : Nat) : Device :=
  d.updElk fun e => { e with cnt := Sparse.setCnt e.cnt (off / 4) (Sparse.cnt e.cnt (off / 4) + 1) }

/-- The registers a slot's snapshot keeps (R183). -/
def snapRegs (l : Lane) : List Nat :=
  [TR_LOOP l, EQ_CTRL l, EQ_TGT0 l, EQ_TGT1 l, DET_CTRL l, SYNC_CTRL l, LDPC_CTRL l, RPL_CTRL l] ++ (List.range 24).map (EQ_TAP l)

/-- The settings in force, as a sector's recovery order keeps them; a retry's search window and exchanged predictor sets are applied
(R183, R185, R186). -/
def Device.snapshot (d : Device) (l : Lane) (retry : Option Nat) : List (Nat × Word) :=
  let base := (snapRegs l).map fun a => (a, d.word a)
  match retry with
  | none => base
  | some r =>
    base.map fun p =>
      if p.1 = SYNC_CTRL l ∧ d.rd (RETRY_WIN l r) ≠ 0 then (p.1, setField p.2 8 6 (d.rd (RETRY_WIN l r)))
      else if p.1 = DET_CTRL l ∧ d.bit (RETRY_ALT l r) = true then
        (p.1, setField (setField p.2 8 3 (getField p.2 12 3)) 12 3 (getField p.2 8 3))
      else p

/-! ### Decoders (R178, R204) -/

/-- The decoder of a lane can serve a stream: its own, and in duplex LN1's too while the link is up (R204, R214). -/
def Device.decoderFor (d : Device) (l dl : Lane) : Bool :=
  l == dl || (d.duplex && l == .ln0 && d.bit (ELK_STATUS_UP .ln0))

/-- A decoder is free and may serve the stream. -/
def Device.decFree (d : Device) (l dl : Lane) : Bool := d.decoderFor l dl && (d.ch dl).dec.isNone

/-- The slot of a key is being decoded. -/
def Device.decoding (d : Device) (key : Lane × Bool) : Bool := d.lane0.ch.dec == some key || d.lane1.ch.dec == some key

/-- One attempt put on a decoder, if one is due and a decoder is free: a live attempt first, else the oldest replay (R178, R204). -/
def Device.startDecode (d : Device) (l : Lane) : Device :=
  let due := (d.ch l).slots.filter fun s => s.captured && !d.decoding s.key
  match due.find? (·.step == 1) with
  | some s =>
    if d.decFree l s.turn then d.updCh s.turn fun c => { c with dec := some s.key }
    else if d.decFree l s.turn.other then d.updCh s.turn.other fun c => { c with dec := some s.key }
    else d
  | none =>
    match due.head? with
    | none => d
    | some s =>
      let first := if d.duplex then .ln0 else l
      if d.decFree l first then d.updCh first fun c => { c with dec := some s.key }
      else if d.decFree l first.other then d.updCh first.other fun c => { c with dec := some s.key }
      else d

/-- Free decoders take the attempts that are due. -/
def Device.startDecoders (d : Device) (l : Lane) : Device := (d.startDecode l).startDecode l

/-! ### Outcomes (R184 to R186) -/

/-- Ln_RPL_STATUS describes the last sector that reached an outcome (R186). -/
def Device.rplStatus (d : Device) (l : Lane) (att code : Nat) (p : Int) : Device :=
  ((d.wr (RPL_STATUS_ATT l) (min att 255)).wr (RPL_STATUS_STEP l) code).wrI ⟨RPL_STATUS l, 8, 8⟩ p

/-- Outcome 7 (R185 item 3). -/
def Device.sectorFailed (d : Device) (l : Lane) (s : PendSect) : Device :=
  let d := ((d.rplStatus l s.attempts 7 s.align).chCount l 0x20).wr (CH_INT_SECT_FAIL l) 1
  d.log l.src 0x2001 [s.head, s.zone, s.band, s.slot, s.attempts]

/-- STOP ended a sector with outcome 7: event 0x200B once for the write (R186). -/
def Device.stopEvent (d : Device) (l : Lane) : Device :=
  if (d.ch l).stopLog then (d.updCh l fun c => { c with stopLog := false }).log l.src 0x200B else d

/-- A slot's group of a band, and whether the group's parity is on the medium: every data-class position of the group is written, or the
band is closed (R125, R126). -/
def Device.parityOnMedium (d : Device) (band slot : Nat) : Bool :=
  match Sparse.find d.host.tables.bands band with
  | none => false
  | some b =>
    let g := d.rd CB_STRIPE_G
    let p := d.rd CB_STRIPE_P
    decide (0 < p) && decide (2 ≤ slot) &&
      (match b.st with | .opened => decide (((slot - 2) / (g + p) + 1) * g ≤ b.next) | _ => true)

/-- The stripe group of a slot (R125). -/
def Device.groupOf (d : Device) (slot : Nat) : Nat := (slot - 2) / (d.rd CB_STRIPE_G + d.rd CB_STRIPE_P)

/-- The pass of a sector has come to step 6: the sector waits for the stripe code and for rotational retries, or has failed; the escapement
is told 7 for this pass (R181, R184, R185, R328). -/
def Device.toStep6 (d : Device) (l : Lane) (s : RSlot) : Device :=
  let prev := (d.ch l).pend.find? fun p => p.band == s.band && p.slot == s.slot
  let made := match s.retry with | none => 0 | some _ => (prev.map (·.retries)).getD 0 + 1
  let verifying := match (d.ec s.seq).op with | none => false | some o => o.code == 3
  let stripe := d.parityOnMedium s.band s.slot
  let p : PendSect :=
    { band := s.band, slot := s.slot, head := s.head, zone := s.zone, attempts := s.tried.length, align := s.align, retries := made
      limit := if verifying then 16 else (d.ch l).retries, stripe := stripe }
  let d := (d.dropSlot l s.key).updCh l fun c => { c with pend := c.pend.filter fun x => !(x.band == s.band && x.slot == s.slot) }
  let d := if s.retry.isSome then d.chCount l 0x1C else d
  let d := if d.bit (STRIPE_STATUS_BUSY l) then d.incSat (STRIPE_STATUS_ERASED l) else d
  let d :=
    if s.stopped then (d.sectorFailed l p).stopEvent l
    else if !stripe && decide (p.limit ≤ made) then d.sectorFailed l p
    else d.updCh l fun c => { c with pend := c.pend ++ [p] }
  d.report s.seq s.k 7

/-- A decoded sector takes a standby page at once, unless its operation transfers nothing (R305, R347). -/
def Device.takeStandby (d : Device) (l : Lane) (s : RSlot) : Device :=
  let moves := match (d.ec s.seq).op with | none => true | some o => o.code != 3 && o.code != 4
  if !moves then d
  else
    match d.standby l with
    | [] => d
    | p :: ps => (d.setStandby l ps).updCh l fun c => { c with pages := c.pages ++ [(p, (s.band, s.slot))] }

/-- A decoded sector's page has been read out and goes back to the pool. -/
def Device.takeDecoded (d : Device) (band slot : Nat) : Device :=
  bothLanes.foldl (fun d l =>
    let ps := ((d.ch l).pages.filter fun p => p.2 == (band, slot)).map (·.1)
    (d.updCh l fun c => { c with pages := c.pages.filter fun p => !(p.2 == (band, slot)) }).releasePages ps) d

/-- A sector succeeded (R184): at its step, or on a rotational retry. -/
def Device.sectorGood (d : Device) (l : Lane) (s : RSlot) (iter : Nat) : Device :=
  let code := if s.retry.isSome then 6 else s.step - 1
  let weak := getField (s.word (LDPC_CTRL l)) 24 6
  let d := d.rplStatus l (s.tried.length + 1) code s.align
  let d :=
    if s.retry.isSome then
      (d.chCount l 0x1C).updCh l fun c => { c with pend := c.pend.filter fun x => !(x.band == s.band && x.slot == s.slot) }
    else d.chCount l (4 * code)
  let d := if code = 0 then d.chCount l 0x30 iter else d
  let d := if code = 0 ∧ weak < iter then d.chCount l 0x2C else d
  ((d.dropSlot l s.key).takeStandby l s).report s.seq s.k code

/-! ### Adaptation entries (R171, R190, R191, R206, R207) -/

/-- A field of `n` bytes of an entry held as a little-endian number. -/
def entryField (v off n : Nat) : Nat := bitsOf v (8 * off) (8 * n)

/-- A value of a signed field lies in −512 to 511. -/
def in512 (x : Nat) : Bool := decide (-512 ≤ toSigned 16 x) && decide (toSigned 16 x ≤ 511)

/-- Whether `v` lies in the range. -/
def inRng (lo hi v : Nat) : Bool := decide (lo ≤ v) && decide (v ≤ hi)

/-- The check of a channel entry: 0 good, 1 CRC, 2 range, 3 head or zone (R190, R191). -/
def chEntryCheck (v h z : Nat) : Nat :=
  let f := entryField v
  if crc32cNum 0x7C (v % 2 ^ (8 * 0x7C)) ≠ f 0x7C 4 then 1
  else if f 2 1 ≠ h ∨ f 3 1 ≠ z then 3
  else if f 0 2 == 1 && inRng 0x60000000 0xE6666666 (f 4 4) && inRng 64 512 (f 8 2) && f 8 2 % 4 == 0 && inRng 4 32 (f 0xA 1) &&
      inRng 0 5 (f 0xB 1) && inRng 1 4095 (f 0xC 2) && inRng 0 16 (f 0xE 1) && inRng 1 40 (f 0xF 1) && inRng 0 1023 (f 0x10 2) &&
      in512 (f 0x12 2) && in512 (f 0x14 2) && inRng 0 127 (f 0x16 1) && inRng 0 15 (f 0x18 1) && inRng 0 15 (f 0x19 1) &&
      inRng 1 63 (f 0x1A 1) && inRng 1 63 (f 0x1B 1) && inRng 1 63 (f 0x1C 1) && inRng 1 255 (f 0x1E 1) && inRng 0 23 (f 0x1F 1) &&
      f 0x25 11 == 0 && f 0x60 28 == 0 then 0
  else 2

/-- A predictor set's 256 bytes (R171). -/
def Device.predSet (d : Device) (l : Lane) (k : Nat) : Nat × Nat := (k, d.memNum 256 (256 * d.rd (PRED_BASE_ADDR l) + 256 * k))

/-- A channel entry applied: every register it names is set at once (R165, R191). -/
def Device.applyChEntry (d : Device) (l : Lane) (v h z : Nat) : Device :=
  let f := entryField v
  let d := d.wrAll
    [(TR_STEP_STEP l, f 4 4), (SYNC_CTRL_WIN l, f 0xA 1), (SYNC_CTRL_THRESH l, f 0xB 1), (RPL_CTRL_MAXATT l, f 0xF 1),
     (AFE_GAIN_GAIN l, f 0x10 2), (AFE_OFS_TGT l, f 0x12 2), (AFE_OFS_CUR l, f 0x12 2), (AFE_ASYM_TGT l, f 0x14 2),
     (AFE_ASYM_CUR l, f 0x14 2), (AFE_CTLE_BOOST l, f 0x16 1), (AFE_CTLE_POLE l, f 0x17 1), (TR_LOOP_KP l, f 0x18 1),
     (TR_LOOP_KI l, f 0x19 1)]
  let d := d.wrAll
    [(LDPC_CTRL_LIVE l, f 0x1A 1), (LDPC_CTRL_RPL l, f 0x1B 1), (LDPC_CTRL_WEAK l, f 0x1C 1), (DET_CTRL_SET l, f 0x1D 1 % 8),
     (DET_CTRL_ALTSET l, f 0x1D 1 / 16 % 8), (DET_CTRL_LLRSCALE l, f 0x1E 1), (EQ_CTRL_MAIN l, f 0x1F 1), (EQ_TGT0_TAPS l, f 0x20 4),
     (EQ_TGT1_TAP4 l, f 0x24 1), (HZSEL_LOADED l, 1), (HZSEL_BAD l, 0), (CH_STATUS_BADTBL l, 0)]
  let d := (List.range 24).foldl (fun d i => d.wr (EQ_TAP_TAP l i) (f (0x30 + 2 * i) 2)) d
  let preds := [d.predSet l (f 0x1D 1 % 8), d.predSet l (f 0x1D 1 / 16 % 8)]
  d.updCh l fun c =>
    { c with pre := f 8 2, spt := f 0xC 2, retries := f 0xE 1, preds := preds, hz := (h, z), boostAdj := 0, poleAdj := 0, biasAdj := 0 }

/-- A load rejected (R191). -/
def Device.rejectLoad (d : Device) (l : Lane) (h z reason : Nat) : Device :=
  (d.wrAll [(HZSEL_LOADED l, 0), (HZSEL_BAD l, 1), (CH_STATUS_BADTBL l, 1), (CH_INT_TBL_BAD l, 1)]).log l.src 0x2002 [h, z, reason]

/-- The check of a duplex entry: 0 good, 1 CRC, 2 range, 3 head or zone (R206, R207). -/
def dxEntryCheck (v h z : Nat) : Nat :=
  let f := entryField v
  if crc32cNum 0xFC (v % 2 ^ (8 * 0xFC)) ≠ f 0xFC 4 then 1
  else if f 2 1 ≠ h ∨ f 3 1 ≠ z then 3
  else if f 0 2 == 1 && inRng 0 2 (f 4 1) && inRng 0 1 (f 5 1) && inRng 0 1 (f 6 1) && inRng 0 63 (f 7 1) && inRng 0 511 (f 8 2) &&
      inRng 0 1023 (f 0xA 2) && in512 (f 0xC 2) && in512 (f 0xE 2) && inRng 0 127 (f 0x10 1) && inRng 1 63 (f 0x12 1) &&
      inRng 0 7 (f 0x13 1 % 8) then 0
  else 2

/-- The address of an entry of `size` bytes for head and zone in a table whose base register field is `base` (R190, R193, R206). -/
def Device.tableAddr (d : Device) (base : RF) (h z size : Nat) : Nat := 256 * d.rd base + (64 * h + z) * size

/-- Memory at an entry's address answers with good words (R191). -/
def Device.entryReadable (d : Device) (a n : Nat) : Bool := d.memOpen a && d.memOpen (a + n - 1) && !d.anyDead a (a + n)

/-! ### Counters (R193, R218) -/

/-- Counts added to a counter entry, each a u32 that saturates; an entry that cannot be written loses them (R193). -/
def Device.addCounts (d : Device) (l : Lane) (addr : Nat) (cnt : List (Nat × Nat)) (fail : Bool) : Device :=
  if cnt.isEmpty then d
  else if fail ∨ d.memOpen addr = false then (d.wr (CH_INT_CNT_ERR l) 1).log l.src 0x2008
  else cnt.foldl (fun d p => d.setNum 4 (addr + 4 * p.1) (min (d.memNum 4 (addr + 4 * p.1) + p.2) 0xFFFFFFFF)) d

/-- The duplex registers operate: in duplex, and where R211 says so in single-lane structure (R216). -/
def Device.dxOn (d : Device) : Bool := d.duplex || (!d.twoLane && d.wguard1)

/-- Channel and duplex counts go to memory (R193, R218). -/
def Device.flushCounts (d : Device) (l : Lane) (fail : Bool) : Device :=
  let c := d.ch l
  let d := (d.addCounts l (d.tableAddr (CNT_BASE_ADDR l) c.hz.1 c.hz.2 64) c.cnt fail).updCh l fun c => { c with cnt := [] }
  if l = .ln0 ∧ d.dxOn = true then
    (d.addCounts l (d.tableAddr DX_CNT_BASE_ADDR c.hz.1 c.hz.2 32) d.elk.cnt fail).updElk fun e => { e with cnt := [] }
  else d

/-- A channel register written at a sector boundary or with the read gate off; a changed comparator selection is logged (R166, R187). -/
def Device.setChReg (d : Device) (l : Lane) (a : Nat) (w : Word) : Device :=
  let old := d.word a
  let d := d.setWord a w
  if ADC_SEL l 0 ≤ a ∧ a ≤ ADC_SEL l 63 ∧ old ≠ w then d.log l.src 0x2006 [(a - ADC_SEL l 0) / 16, (old ^^^ w).toNat] else d

end Sys2Proof.Machine
end

