-- ==== Sys2Proof/Machine/Fetch.lean ====
section
/-!
DEFINITION. Fetching: the doorbell, the round-robin arbiter, order stamps, the checks made at the stamp, overlap entries
(R90 to R99, R113, R148).
-/
namespace Sys2Proof.Machine

/-! ### The arbiter (R90, R93) -/

/-- A queue has an entry the device may fetch now (R90, R93, R117, R119). -/
def Device.fetchable (d : Device) (q : SubQ) : Bool :=
  let k := d.ctrl q.ctrl
  k.en && k.rdy && !k.resetting && !k.pp && !k.stopped && !q.deleting && q.head != q.tail && (q.qid == 0 || !d.paused)

/-- The burst of a controller's Arbitration feature: 2 to its power, no limit at 7 (R90). -/
def Device.burst (d : Device) (c : Nat) : Nat := if d.feat c 1 0 % 8 = 7 then 4096 else 2 ^ (d.feat c 1 0 % 8)

/-- A queue comes after the place `p` in the rotation's order. -/
def SubQ.after (q : SubQ) (p : Nat × Nat) : Bool := decide (p.1 < q.ctrl) || (q.ctrl == p.1 && decide (p.2 < q.qid))

/-- The queue the arbiter fetches from next, and the entries left of its burst (R90). -/
def Device.arbNext (d : Device) : Option (SubQ × Nat) :=
  let ok := d.host.sqs.filter d.fetchable
  match ok.find? (fun q => (q.ctrl, q.qid) == d.host.arbAt && d.host.arbLeft != 0) with
  | some q => some (q, d.host.arbLeft)
  | none =>
    match ok.find? (·.after d.host.arbAt) <|> ok.head? with
    | none => none
    | some q => some (q, d.burst q.ctrl)

/-- An entry taken from a queue: its head and the arbiter move on. -/
def Device.tookEntry (d : Device) (q : SubQ) (left : Nat) : Device :=
  d.updHost fun h =>
    { h with
      arbAt := (q.ctrl, q.qid)
      arbLeft := left - 1
      sqs := h.sqs.map fun x => if x.ctrl == q.ctrl && x.qid == q.qid then { x with head := (x.head + 1) % max x.size 1 } else x }

/-! ### Zone checks at the stamp (R66, R96) -/

/-- Lanes that carry a media stream (R17, R19). -/
def Device.streams (d : Device) : Nat := if d.twoLane then 2 else 1

/-- A: the most active zones (R66). -/
def Device.activeLimit (d : Device) : Nat :=
  d.streams * (if d.hnor.nss.any (fun p => !p.2.zoned) then 3 else 4)

/-- Zones active once every fetched command has acted. -/
def Device.activeZones (d : Device) : Nat := (d.host.tables.zones.filter fun p => p.2.fst.active).length

/-- A Write or Zone Append of `n` blocks at `lba` of a zone at its stamp: the status that refuses it, or the zone's fetch view after
it and the LBA given (R66, R96). -/
def Device.stampWrite (d : Device) (nsid lba n : Nat) (append : Bool) : Except Status (Zone × Nat) :=
  let zi := lba / 65536
  let z := d.zone nsid zi
  let start := 65536 * zi
  if z.fst = .full then .error .zoneFull
  else if z.fst = .readOnly then .error .zoneReadOnly
  else if z.fst = .offline then .error .zoneOffline
  else if append = true ∧ lba ≠ start then .error .invalidField
  else if append = false ∧ lba ≠ start + z.fwp then .error .zoneInvalidWrite
  else if z.fcap < z.fwp + n then .error .zoneBoundary
  else if z.fst = .empty ∧ d.activeLimit ≤ d.activeZones then .error .tooManyActive
  else
    let w := z.fwp + n
    let st := if z.fcap ≤ w then ZState.full else if z.fst.isOpen then z.fst else .implicitOpen
    .ok ({ z with fst := st, fwp := w }, start + z.fwp)

/-- The state a Zone Management Send leaves a zone in, from the state it finds (R66, the Zoned Namespace command set). -/
def ZoneAct.next : ZoneAct → ZState → Option ZState
  | .close, s => if s.isOpen || s == .closed then some .closed else none
  | .finish, s => if s == .readOnly || s == .offline then none else some .full
  | .openZone, s => if s == .empty || s.active then some .explicitOpen else none
  | .reset, s => if s == .readOnly || s == .offline then none else some .empty
  | .offline, s => if s == .readOnly || s == .offline then some .offline else none

/-- Whether Select All acts on a zone in a state (R95, the Zoned Namespace command set). -/
def ZoneAct.selects : ZoneAct → ZState → Bool
  | .close, s => s.isOpen
  | .finish, s => s.isOpen || s == .closed
  | .openZone, s => s == .closed
  | .reset, s => s.active || s == .full
  | .offline, s => s == .readOnly

/-- Zones of a namespace that have a row, by number. -/
def Device.listedZones (d : Device) (nsid : Nat) : List Nat :=
  (d.host.tables.zones.filter fun p => p.1 / 2 ^ 32 == nsid).map fun p => p.1 % 2 ^ 32

/-- The fetch view of a zone after a Zone Management Send (R96). -/
def Zone.fetchSend (z : Zone) (s : ZState) : Zone :=
  { z with fst := s, fwp := if s = .empty then 0 else z.fwp }

/-- The zones a Zone Management Send acts on, or the status that refuses it (R66, R95, R96). -/
def Device.stampSend (d : Device) (nsid : Nat) (act : ZoneAct) (slba : Nat) (all : Bool) : Except Status (List Nat) :=
  if all then .ok ((d.listedZones nsid).filter fun z => act.selects (d.zone nsid z).fst)
  else if slba % 65536 ≠ 0 then .error .invalidField
  else
    let z := d.zone nsid (slba / 65536)
    match act.next z.fst with
    | none => .error .zoneTransition
    | some s =>
      if s.active = true ∧ z.fst.active = false ∧ d.activeLimit ≤ d.activeZones then .error .tooManyActive
      else .ok [slba / 65536]

/-! ### Reservations (R87) -/

/-- A controller's host is a registrant of a namespace. -/
def Resv.has (r : Resv) (c : Nat) : Bool := r.regs.any (·.1 == c)

/-- A controller's host holds the reservation: all registrants do in types 5 and 6. -/
def Resv.holds (r : Resv) (c : Nat) : Bool := if 5 ≤ r.rtype then r.has c else r.holder == some c

/-- A command conflicts with the reservation in force (R87, NVMe): types 1, 3, 5 bar writes, 2, 4, 6 reads too, to hosts that neither
hold it nor, from type 3 on, are registrants. -/
def Resv.conflicts (r : Resv) (c : Nat) (op : IoOp) : Bool :=
  if r.rtype = 0 then false
  else
    let free := r.holds c || (decide (3 ≤ r.rtype) && r.has c)
    match op with
    | .read .. | .verify .. | .zoneReceive .. => !free && r.rtype % 2 == 0
    | .resRegister _ | .resReport | .other _ => false
    | .resAcquire _ | .resRelease _ => !r.has c
    | _ => !free

/-- A reservation command's status and the reservation it leaves (R87, NVMe). -/
def Resv.act (r : Resv) (c : Nat) : IoOp → Status × Resv
  | .resRegister a =>
    let own := r.regs.find? (·.1 == c)
    let keyOk := a.ignoreKey || own.map (·.2) == some a.curKey
    let r' : Resv := { r with gen := (r.gen + 1) % 2 ^ 32, ptpl := if a.cptpl = 2 then false else if a.cptpl = 3 then true else r.ptpl }
    match a.action with
    | 0 =>
      match own with
      | some (_, k) => if k = a.newKey then (.success, r) else (.resConflict, r)
      | none => (.success, { r' with regs := r.regs ++ [(c, a.newKey)] })
    | 1 =>
      if own.isNone ∨ keyOk = false then (.resConflict, r)
      else
        let regs := r.regs.filter (·.1 != c)
        let gone := r.holder == some c || regs.isEmpty
        (.success, { r' with regs := regs, rtype := if gone then 0 else r.rtype, holder := if gone then none else r.holder })
    | 2 =>
      if keyOk = false then (.resConflict, r)
      else (.success, { r' with regs := r.regs.filter (·.1 != c) ++ [(c, a.newKey)] })
    | _ => (.invalidField, r)
  | .resAcquire a =>
    if !(r.regs.any fun p => p.1 == c && p.2 == a.curKey) then (.resConflict, r)
    else if a.rtype = 0 ∨ 6 < a.rtype then (.invalidField, r)
    else
      match a.action with
      | 0 =>
        if r.rtype = 0 then (.success, { r with rtype := a.rtype, holder := some c })
        else if r.holds c = true ∧ r.rtype = a.rtype then (.success, r)
        else (.resConflict, r)
      | 1 | 2 =>
        let hit := r.rtype ≠ 0 ∧ (r.regs.any fun p => r.holder == some p.1 && p.2 == a.newKey) = true
        let regs := r.regs.filter fun p => p.1 == c || p.2 != a.newKey
        let r' : Resv := { r with regs := regs, gen := (r.gen + 1) % 2 ^ 32 }
        (.success, if hit then { r' with rtype := a.rtype, holder := some c } else r')
      | _ => (.invalidField, r)
  | .resRelease a =>
    if !(r.regs.any fun p => p.1 == c && p.2 == a.curKey) then (.resConflict, r)
    else
      match a.action with
      | 0 =>
        if r.holds c = false ∨ r.rtype = 0 then (.success, r)
        else if r.rtype ≠ a.rtype then (.invalidField, r)
        else (.success, { r with rtype := 0, holder := none })
      | 1 => (.success, { r with rtype := 0, holder := none, regs := [], gen := (r.gen + 1) % 2 ^ 32 })
      | _ => (.invalidField, r)
  | _ => (.success, r)

/-- The op is a reservation command. -/
def IoOp.isReservation : IoOp → Bool
  | .resRegister _ => true
  | .resReport => true
  | .resAcquire _ => true
  | .resRelease _ => true
  | _ => false

/-! ### Validity (R58, R60, R66, R88, R106) -/

/-- A command's fields are refused before any zone is looked at. -/
def badFields (x : Ns) (op : IoOp) : Option Status :=
  let range := fun (a n : Nat) => if x.blocks < a + n then some Status.lbaRange else none
  let sized := fun (a n : Nat) => if n = 0 ∨ 512 < n then some .invalidField else range a n
  match op with
  | .read a n _ => sized a n
  | .verify a n _ => if n = 0 then some .invalidField else range a n
  | .write a n _ => sized a n
  | .writeZeroes a n => if x.zoned then sized a n else if n = 0 then some .invalidField else range a n
  | .deallocate rs =>
    if rs.isEmpty = true ∨ 256 < rs.length then some .invalidField
    else if rs.any (fun r => decide (x.blocks < r.1 + r.2)) then some .lbaRange else none
  | .zoneAppend a n _ => if !x.zoned then some .invalidOpcode else sized a n
  | .zoneReceive a ext =>
    if !x.zoned then some .invalidOpcode else if ext then some .invalidField
    else if x.blocks ≤ a then some .lbaRange else none
  | .zoneSend _ a all =>
    if !x.zoned then some .invalidOpcode else if all = false ∧ x.blocks ≤ a then some .lbaRange else none
  | .other _ => some .invalidOpcode
  | _ => none

/-- The command needs the medium, which must be ready (R59). -/
def IoOp.needsMedium : IoOp → Bool
  | .flush => false
  | .resRegister _ => false
  | .resReport => false
  | .resAcquire _ => false
  | .resRelease _ => false
  | _ => true

/-- The medium is ready: the spindle at speed, or brought there again by the power states, and the map rebuilt (R59). -/
def Device.mediumReady (d : Device) : Bool := d.rd HS_STORE_STS_REBUILD == 2

/-- A Format NVM or Sanitize in progress refuses the command (R68). -/
def Device.eraseRefuses (d : Device) (nsid : Nat) : Option Status :=
  if d.host.erase ≠ .running then none
  else if !d.host.eraseFormat then some .sanitizeInProgress
  else if d.hnor.format.nsid = 0xFFFFFFFF ∨ d.hnor.format.nsid = nsid then some .formatInProgress
  else none

/-! ### Entries (R95, R98, R99) -/

/-- The overlap entries of a command (R95). -/
def Cmd.entries (c : Cmd) (x : Ns) : List OtEntry :=
  let one := fun (a n : Nat) (w : Bool) => ({ cmd := c.no, nsid := c.nsid, lba := a, n := n, stamp := c.stamp.getD 0, write := w } : OtEntry)
  match c.op with
  | .read a n _ => [one a n false]
  | .verify a n _ => [one a n false]
  | .write a n _ => [one a n true]
  | .writeZeroes a n => [one a n true]
  | .zoneAppend _ n _ => [one c.lba n true]
  | .deallocate rs => rs.map fun r => one r.1 r.2 true
  | .zoneSend .reset a all =>
    if all then [{ one 0 x.blocks true with zones := some c.zones }] else [one a 65536 true]
  | _ => []

/-- The source the map gives a block (R99, R155). -/
def Device.mapSource (d : Device) (nsid lba : Nat) : Src :=
  match d.host.tables.loc nsid lba with
  | .unwritten => .zeros
  | .lost => .lost
  | .fill p => .fill p
  | .at_ b i => .medium b i

/-- A command's entries made: a read's sources are fixed (R98, R99). -/
def Device.makeEntries (d : Device) (c : Cmd) : Device :=
  match d.ns c.nsid with
  | none => d
  | some x =>
    let blocks : List RBlk :=
      match c.op with
      | .read a n _ => (List.range n).map fun i => { chain := d.sources c.no c.nsid (a + i) (d.mapSource c.nsid (a + i)) }
      | .verify a n _ => (List.range n).map fun i => { chain := d.sources c.no c.nsid (a + i) (d.mapSource c.nsid (a + i)) }
      | _ => []
    (d.updCmd c.no fun k => d.takeZones { k with held := false, blocks := blocks }).updHost fun h =>
      { h with table := h.table ++ c.entries x }

/-- Units of 64 blocks of a write, counted from its first (R105). -/
def splitUnits (lba n : Nat) : List WUnit :=
  (List.range ((n + 63) / 64)).map fun k => { lba := lba + 64 * k, n := min 64 (n - 64 * k) }

/-- FETCH_PAUSE: the limit of 1,024 commands in flight (R93). -/
def Device.checkLimit (d : Device) : Device :=
  if 1024 ≤ d.inFlight then d.wr HS_INFLIGHT_PAUSE_LIM 1 else d

/-- A stamped command taken in: its entries are made, or it is held and fetching pauses (R93, R95). -/
def Device.takeIn (d : Device) (c : Cmd) (x : Ns) : Device :=
  let d := d.updHost fun h => { h with cmds := h.cmds ++ [{ c with held := true }], nextNo := h.nextNo + 1 }
  let d :=
    if 2048 < d.otUsed + (c.entries x).length then (d.wr HS_INFLIGHT_PAUSE_OT 1).logRate 0 0x100A 0
    else d.makeEntries c
  d.checkLimit

/-- DEFERRED_ERROR_DELIVER: every pending entry of the namespace is delivered with the command's stamp (R113). -/
def Device.deliver (d : Device) (nsid stamp : Nat) : Device :=
  let d : Device := { d with hnor := { d.hnor with
    deferred := d.hnor.deferred.map fun e => if e.nsid = nsid ∧ e.delivered = false then { e with delivered := true, stamp := stamp } else e } }
  (d.updNs nsid fun x => { x with deferred := false }).log 0 0x100B [nsid, stamp]

/-- A stamped command looked at: refused with a status, or taken in with the zone views it moves (R68, R87, R88, R96, R113, R390). -/
def Device.enterCmd (d : Device) (c : Cmd) (x : Ns) : Device :=
  let stamp := c.stamp.getD 0
  match d.eraseRefuses c.nsid with
  | some st => d.finish c st
  | none =>
    if d.host.loss.contains c.nsid then
      (d.updHost fun h => { h with loss := h.loss.filter (· != c.nsid) }).finish c .retainedLoss
    else if x.deferred then (d.deliver c.nsid stamp).finish c .deferredWrite
    else
      match badFields x c.op with
      | some st => d.finish c st
      | none =>
        if x.res.conflicts c.id.ctrl c.op then d.finish c .resConflict
        else if c.op.needsMedium && !d.mediumReady then d.finish c .nsNotReady
        else
          match c.op with
          | .write a n _ =>
            if !x.zoned then d.takeIn { c with lba := a, units := splitUnits a n } x
            else
              match d.stampWrite c.nsid a n false with
              | .error st => d.finish c st
              | .ok (z, lba) =>
                (d.updZone c.nsid (a / 65536) fun _ => z).takeIn { c with lba := lba, cap := z.fcap, units := splitUnits lba n } x
          | .writeZeroes a n =>
            if !x.zoned then d.takeIn { c with lba := a } x
            else
              match d.stampWrite c.nsid a n false with
              | .error st => d.finish c st
              | .ok (z, lba) =>
                (d.updZone c.nsid (a / 65536) fun _ => z).takeIn { c with lba := lba, cap := z.fcap, units := splitUnits lba n } x
          | .zoneAppend a n _ =>
            match d.stampWrite c.nsid a n true with
            | .error st => d.finish c st
            | .ok (z, lba) =>
              (d.updZone c.nsid (a / 65536) fun _ => z).takeIn { c with lba := lba, cap := z.fcap, units := splitUnits lba n } x
          | .zoneSend act a all =>
            match d.stampSend c.nsid act a all with
            | .error st => d.finish c st
            | .ok zs =>
              let d := zs.foldl (fun d z => d.updZone c.nsid z fun y => y.fetchSend ((act.next y.fst).getD y.fst)) d
              d.takeIn { c with zones := zs } x
          | .zoneReceive a _ =>
            let zs := (d.listedZones c.nsid).filter fun z => decide (a / 65536 ≤ z)
            d.takeIn { c with zones := zs } x
          | op =>
            if op.isReservation then
              let (st, r) := x.res.act c.id.ctrl op
              (d.updNs c.nsid fun y => { y with res := r }).takeIn
                { c with fail := if st = .success then none else some st, resv := r } x
            else d.takeIn c x

/-- An I/O command fetched: stamped (R90), or of those that take no stamp (R91, R92). -/
def Device.fetchIo (d : Device) (id : CmdId) (nsid : Nat) (op : IoOp) : Device :=
  let c : Cmd := { no := d.host.nextNo, id := id, nsid := nsid, op := op, stamp := none }
  if op = .flush ∧ nsid = 0xFFFFFFFF then
    (d.updHost fun h => { h with
      cmds := h.cmds ++ [{ c with stamps := d.nsids.map fun n => (n, Sparse.cnt h.stamps n) }]
      nextNo := h.nextNo + 1 }).checkLimit
  else
    match d.attachedNs id.ctrl nsid with
    | none => d.finish c .invalidNs
    | some x =>
      let st := Sparse.cnt d.host.stamps nsid
      let d := d.updHost fun h => { h with stamps := Sparse.setCnt h.stamps nsid ((st + 1) % 2 ^ 32) }
      d.enterCmd { c with stamp := some st } x

/-! ### Admin commands (R60, R68) -/

/-- The opcodes of R60's admin commands, as NVMe numbers them. -/
def adminOpcodes : List Nat := [0x00, 0x01, 0x02, 0x04, 0x05, 0x06, 0x08, 0x09, 0x0A, 0x0C, 0x0D, 0x15, 0x80, 0x84]

/-- Admin commands NVMe does not permit during a Sanitize: Namespace Management and Attachment, Format NVM, Sanitize (R68). -/
def sanitizeBars (opcode : Nat) : Bool := [0x0D, 0x15, 0x80, 0x84].contains opcode

/-- An admin command fetched: it stands until its own command carries it out, or is refused (R60, R68). -/
def Device.fetchAdmin (d : Device) (id : CmdId) (opcode : Nat) : Device :=
  if !adminOpcodes.contains opcode then d.post id .invalidOpcode 0 0
  else if d.host.erase = .running ∧ d.host.eraseFormat = false ∧ sanitizeBars opcode = true then d.post id .sanitizeInProgress 0 0
  else if d.host.erase ≠ .idle ∧ d.host.eraseFormat = true ∧ (opcode = 0x80 ∨ opcode = 0x84) then d.post id .sequenceError 0 0
  else if d.host.erase ≠ .idle ∧ d.host.eraseFormat = false ∧ (opcode = 0x80 ∨ opcode = 0x84) then d.post id .sanitizeInProgress 0 0
  else d.updCtrl id.ctrl fun k => { k with admin := k.admin ++ [{ id := id, opcode := opcode }] }

/-! ### The commands -/

/-- A forced power state is on its way: its drain, its quiescence or its step down (R83). -/
def Device.forcing (d : Device) : Bool := d.power.drain.isSome || d.power.forcedReq || d.power.run.any fun r => r.forced && !r.up

/-- SQ_TAIL_DOORBELL: a queue's tail moves; fetching stopped by a forced power state resumes (R83, R90). -/
def doorbellEff (c q tail : Nat) (d : Device) : Device :=
  if !(d.ctrl c).en then d
  else
    match d.host.sqs.find? (fun x => x.ctrl == c && x.qid == q) with
    | none => d
    | some x =>
      if x.size ≤ tail then d
      else
        let d := d.updHost fun h => { h with sqs := h.sqs.map fun y => if y.ctrl == c && y.qid == q then { y with tail := tail } else y }
        if (d.ctrl c).cfs || d.forcing then d else d.updCtrl c fun k => { k with stopped := false }

def execSqTailDoorbell (ctrl sq tail : Nat) (s : State) : Host.Outcome State Fault Refusal := s.upd (doorbellEff ctrl sq tail)

/-- FETCH_RESUME: a held command's entries are made once they fit, and fetching goes on when neither condition holds (R93). -/
def fetchResumeEff (d : Device) : Device :=
  let d :=
    match d.host.cmds.find? (·.held) with
    | none => d.wr HS_INFLIGHT_PAUSE_OT 0
    | some c =>
      match d.ns c.nsid with
      | none => d
      | some x =>
        if 2048 < d.otUsed + (c.entries x).length then d else (d.makeEntries c).wr HS_INFLIGHT_PAUSE_OT 0
  if d.inFlight < 1024 then d.wr HS_INFLIGHT_PAUSE_LIM 0 else d

def execFetchResume (s : State) : Host.Outcome State Fault Refusal := s.upd fetchResumeEff

end Sys2Proof.Machine
end

