-- ==== Sys2Proof/Machine/Io.lean ====
section
/-!
DEFINITION. The I/O commands once fetched: Read, Verify, Write, Write Zeroes, Deallocate, Flush, Zone Append, zone management,
reservations (R60, R87, R96 to R106, R115, R147 to R149, R155, R159).
-/
namespace Sys2Proof.Machine

/-! ### Protection information (R63, R103) -/

/-- One byte into the 16-bit guard's CRC. -/
def crc16Byte (c b : Nat) : Nat :=
  (List.range 8).foldl (fun c _ => if 0x8000 ≤ c then (2 * c % 65536) ^^^ 0x8BB7 else 2 * c % 65536) (c ^^^ (b * 256))

/-- The guard of a byte list. -/
def crc16 (bs : List Nat) : Nat := bs.foldl crc16Byte 0

/-- Where the protection information lies in the metadata, in bits (R63). -/
def piShift (x : Ns) : Nat := if x.fmt = 2 ∧ x.piFirst = false then 64 else 0

/-- The guard a block should carry: over its data and the metadata before the protection information. -/
def blkGuard (x : Ns) (b : Blk) : Nat :=
  crc16 (bytesOf 4096 b.data ++ (if piShift x = 64 then bytesOf 8 b.md else []))

/-- A big-endian field of the protection information: `n` bytes from byte `i`. -/
def piField (x : Ns) (b : Blk) (i n : Nat) : Nat :=
  ((List.range n).map fun j => byteOf (b.md >>> piShift x) (i + j)).foldl (fun a v => a * 256 + v) 0

/-- The status of checking block `i` of a command (R103); none where it passes. -/
def piCheck (x : Ns) (pi : PiCtl) (i : Nat) (b : Blk) : Option Status :=
  if x.pit = 0 ∨ pi.pract = true then none
  else
    let app := piField x b 2 2
    let ref := piField x b 4 4
    if app = 0xFFFF ∧ (x.pit ≠ 3 ∨ ref = 0xFFFFFFFF) then none
    else if pi.guard = true ∧ piField x b 0 2 ≠ blkGuard x b then some .guardCheck
    else if pi.app = true ∧ app &&& pi.appMask ≠ pi.appTag &&& pi.appMask then some .appTagCheck
    else if pi.ref = true ∧ x.pit ≠ 3 ∧ ref ≠ (pi.refTag + i) % 2 ^ 32 then some .refTagCheck
    else none

/-- The bytes of a big-endian number, as a little-endian number. -/
def swapBytes (n v : Nat) : Nat := ofBytes (bytesOf n v).reverse

/-- Block `i` of a write with the protection information the controller makes (PRACT). -/
def piMake (x : Ns) (pi : PiCtl) (i : Nat) (b : Blk) : Blk :=
  if x.pit = 0 ∨ pi.pract = false then b
  else
    let p := swapBytes 2 (blkGuard x b) + 2 ^ 16 * swapBytes 2 pi.appTag + 2 ^ 32 * swapBytes 4 ((pi.refTag + i) % 2 ^ 32)
    { b with md := putBits b.md (piShift x) 64 p }

/-- Block `i` of a read as the host gets it: with PRACT and 8-byte metadata the metadata is stripped. -/
def piStrip (x : Ns) (pi : PiCtl) (b : Blk) : Blk := if pi.pract = true ∧ x.pit ≠ 0 ∧ x.fmt = 1 then { b with md := 0 } else b

/-- The protection control of a command. -/
def IoOp.pi : IoOp → PiCtl
  | .read _ _ p => p
  | .verify _ _ p => p
  | .write _ _ p => p
  | .zoneAppend _ _ p => p
  | _ => {}

/-! ### Read and Verify (R87, R99, R110, R114) -/

/-- Block `i` of a read delivered: checked, and sent to host memory by a Read. -/
def Device.sendBlk (d : Device) (c : Cmd) (x : Ns) (i : Nat) (b : Blk) : Device :=
  match piCheck x c.op.pi i b with
  | some st => d.updCmd c.no fun k => { k with fail := k.fail <|> some st }
  | none =>
    let d := d.updCmd c.no fun k => { k with blocks := k.blocks.modify i fun r => { r with sent := true, copying := none } }
    match c.op with
    | .read .. => d.emit (.toHost c.id i (piStrip x c.op.pi b))
    | _ => d

/-- Block `i` taken from its best source, where that is the map's (R99, R114, R155). A location no unit holds any more cannot be read. -/
def Device.takeBlk (d : Device) (c : Cmd) (x : Ns) (i : Nat) : Device :=
  match c.blocks[i]? with
  | none => d
  | some r =>
    if r.sent then d
    else
      match r.chain with
      | .zeros :: _ => d.sendBlk c x i (zeroBlk x)
      | .medium b j :: _ =>
        match d.stored b j with
        | some v => (d.sendBlk c x i v).takeDecoded b (slotOf d.stripeG d.stripeP j)
        | none => d.updCmd c.no fun k => { k with fail := k.fail <|> some .unrecoveredRead }
      | .fill p :: _ => d.sendBlk c x i (fillBlk x p)
      | .lost :: _ => d.updCmd c.no fun k => { k with fail := k.fail <|> some .unrecoveredRead }
      | _ => d

/-- The command still needs the medium. -/
def Cmd.readsMedium (c : Cmd) : Bool :=
  c.blocks.any fun r => !r.sent && (match r.chain with | .medium .. :: _ => true | _ => false)

/-- The chunk-table pages a command looks up are loaded (R143). -/
def Device.pagesLoaded (d : Device) (c : Cmd) : Bool :=
  match d.host.loaded with
  | none => true
  | some ps => (List.range c.blocks.length).all fun i => ps.contains (nsKey c.nsid ((c.op.slba + i) / 32768))

/-- A Read or Verify carried out as far as the map goes. `ok` false: the medium did not give a block up within the device's recovery or
the Time Limited Error Recovery bound (R110). -/
def readEff (isRead : Bool) (id : CmdId) (ok : Bool) (d : Device) : Device :=
  match d.cmd id with
  | none => d
  | some c =>
    let right := match c.op with | .read .. => isRead | .verify .. => !isRead | _ => false
    if !right || c.held || c.silent || !d.pagesLoaded c then d
    else
      match d.ns c.nsid with
      | none => d
      | some x =>
        let d := d.updCmd c.no fun k => { k with started := true }
        if !ok && c.readsMedium then (d.updCmd c.no fun k => { k with fail := k.fail <|> some .unrecoveredRead }).settle
        else ((List.range c.blocks.length).foldl (fun d i => d.takeBlk c x i) d).settle

/-- READ (R99, R110, R114). -/
def execRead (id : CmdId) (ok : Bool) (s : State) : Host.Outcome State Fault Refusal := s.upd (readEff true id ok)

/-- VERIFY: as a Read, without transfer (R87). -/
def execVerify (id : CmdId) (ok : Bool) (s : State) : Host.Outcome State Fault Refusal := s.upd (readEff false id ok)

/-! ### Scheduling a write's units into bands (R128, R147, R148, R159) -/

/-- Data-class slots of a band taken, or promised to units scheduled in it. -/
def Device.planned (d : Device) (b : Nat) : Nat :=
  let next := match d.host.tables.band b with | none => 0 | some x => x.next
  (d.host.cmds.map fun c => ((c.units.filter fun u => u.band == some b && !u.ended).map fun u => u.n + 2).foldl (· + ·) 0).foldl
    (· + ·) next

/-- A unit of `n` blocks still fits into a band (R128). -/
def Device.fits (d : Device) (b n : Nat) : Bool :=
  match d.host.tables.band b with
  | none => false
  | some x => x.st == .opened && !x.closing && decide (d.planned b + n + 2 ≤ x.dmax)

/-- The unscheduled units of a command put into a band, as many as fit, in order. -/
def Device.scheduleIn (d : Device) (no b : Nat) : Device :=
  match d.cmdNo no with
  | none => d
  | some c =>
    ((List.range c.units.length).foldl (fun (p : Device × Bool) k =>
      match c.units[k]? with
      | none => p
      | some u =>
        if u.band.isSome || u.ended || !p.2 then p
        else if p.1.fits b u.n then (p.1.updUnit no k fun u => { u with band := some b }, true)
        else (p.1, false)) (d, true)).1

/-- A command has units that are not in a band yet. -/
def Device.unscheduled (d : Device) (no : Nat) : Bool :=
  match d.cmdNo no with
  | none => false
  | some c => c.units.any fun u => u.band.isNone && !u.ended

/-- A band that takes no more closes when its scheduled units have ended (R150). -/
def Device.closeWhenDone (d : Device) (b : Nat) : Device :=
  let d := d.updTables fun t => t.updBand b fun x => { x with closing := true }
  if d.bandBusy b then d else d.closeBand b

/-- A lane's open pool band. -/
def Device.poolBand (d : Device) (l : Lane) : Option Nat :=
  (d.host.tables.bands.find? fun p => p.2.lane == l && p.2.st == .opened && p.2.nsid == 0 && !p.2.closing).map (·.1)

/-- A conventional write scheduled on a lane: its open pool band, then the band of `pl` (R128, R147). -/
def Device.schedulePool (d : Device) (no : Nat) (pl : Place) : Device :=
  let d :=
    match d.poolBand pl.lane with
    | none => d
    | some b =>
      let d := d.scheduleIn no b
      if d.unscheduled no then d.closeWhenDone b else d
  if !d.unscheduled no || !d.bandFree pl then d
  else (d.openBand pl 0 0).scheduleIn no pl.band

/-- ZONE_AUTO_FINISH: the zone ends before unit `k` of the command (R148). -/
def Device.autoFinish (d : Device) (c : Cmd) (z k : Nat) : Device :=
  let e := match c.units[k]? with | none => 0 | some u => u.lba - 65536 * z
  let d := d.updZone c.nsid z fun x => { x with st := .full, cap := e, finished := true, fst := .full, fwp := e, fcap := e }
  let d := d.log 0 0x1015 [c.nsid, 65536 * z]
  let d := d.failFrom c.no k .zoneFull
  let d := (d.laterWrites c.no c.nsid z).foldl (fun d n => d.notExecuted n .zoneFull) d
  match (d.zone c.nsid z).band with
  | none => d
  | some b => d.closeWhenDone b

/-- A zoned write scheduled: the zone's band, taken if it has none, until a unit does not fit (R147, R148). -/
def Device.scheduleZone (d : Device) (c : Cmd) (z : Nat) (pl : Place) : Device :=
  let d := if (d.zone c.nsid z).band.isNone ∧ d.bandFree pl = true then d.openBand pl c.nsid (65536 * z) else d
  match (d.zone c.nsid z).band with
  | none => d
  | some b =>
    let cap := (d.zone c.nsid z).cap
    let d := d.updZone c.nsid z fun x =>
      { x with st := if x.st.isOpen then x.st else .implicitOpen, fcap := if x.fst = .full then x.fcap else cap }
    let past := c.units.findIdx? fun u => decide (cap < u.lba + u.n - 65536 * z)
    let d :=
      match past with
      | some k => d.autoFinish c z k
      | none => d
    let d := d.scheduleIn c.no b
    match (match d.cmdNo c.no with | none => none | some c => c.units.findIdx? fun u => u.band.isNone && !u.ended) with
    | none => d
    | some k => d.autoFinish c z k

/-- Conventional writes on the lane wait for garbage collection (R159). -/
def Device.writeHeld (d : Device) (l : Lane) : Bool := decide (d.freeBands l < 2)

/-- Use of the fragment pool at 90 % or above holds a write that needs a new record (R133). -/
def Device.fragWait (d : Device) (c : Cmd) : Bool :=
  decide (9 * fragRecords ≤ 10 * d.host.tables.fragUse) && c.units.any fun u => decide (u.n ≠ 64) || decide (u.lba % 64 ≠ 0)

/-- A write's units scheduled (R105, R147, R159). -/
def Device.scheduleWrite (d : Device) (c : Cmd) (pl : Place) : Device :=
  if c.held || c.silent || c.fail.isSome then d
  else
    match c.zone? d with
    | none =>
      if d.writeHeld pl.lane then d.logRate 0 0x1016 pl.lane.idx
      else if d.fragWait c then d
      else (d.updCmd c.no fun k => { k with started := true }).schedulePool c.no pl |>.settle
    | some z =>
      if (d.laterWrites 0 c.nsid z).any (fun n => decide (n < c.no) && (match d.cmdNo n with | none => false | some e => !e.started))
        || d.host.cmds.any (fun e => decide (e.no < c.no) && e.nsid == c.nsid && e.zones.contains z && !e.ended &&
          (match e.op with | .zoneSend .. => true | _ => false)) then d
      else ((d.updCmd c.no fun k => { k with started := true }).scheduleZone c z pl).settle

/-- WRITE (R105). -/
def writeEff (id : CmdId) (pl : Place) (d : Device) : Device :=
  match d.cmd id with
  | none => d
  | some c => match c.op with | .write .. => d.scheduleWrite c pl | _ => d

def execWrite (id : CmdId) (place : Place) (s : State) : Host.Outcome State Fault Refusal := s.upd (writeEff id place)

/-- ZONE_APPEND: the blocks given at its stamp are written (R96). -/
def zoneAppendEff (id : CmdId) (pl : Place) (d : Device) : Device :=
  match d.cmd id with
  | none => d
  | some c => match c.op with | .zoneAppend .. => d.scheduleWrite c pl | _ => d

def execZoneAppend (id : CmdId) (place : Place) (s : State) : Host.Outcome State Fault Refusal := s.upd (zoneAppendEff id place)

/-! ### Map operations (R87, R106) -/

/-- Ranges put into the journal, one record each, all of them before the completion (R106, R140). -/
def Device.zeroRanges (d : Device) (c : Cmd) (rs : List (Nat × Nat)) : Device :=
  if rs.any fun r => !d.mayWrite c.no c.nsid r.1 r.2 then d
  else
    let d := rs.foldl (fun d r => let (s, d) := d.takeSeq; d.queueRec (.zeroRange s c.nsid r.1 r.2) (some c.no)) d
    (d.updCmd c.no fun k => { k with started := true, waitJ := some (d.host.jnext - 1) }).flushJournal

/-- A map operation may be begun. -/
def Cmd.fresh (c : Cmd) : Bool := !c.held && !c.silent && !c.started && !c.ended && c.fail.isNone

/-- WRITE_ZEROES: a map operation in a conventional namespace, a write of zeros in a zoned one (R87, R106). -/
def writeZeroesEff (id : CmdId) (pl : Place) (d : Device) : Device :=
  match d.cmd id with
  | none => d
  | some c =>
    match c.op with
    | .writeZeroes a n =>
      if d.zonedNs c.nsid then d.scheduleWrite c pl
      else if c.fresh then d.zeroRanges c [(a, n)] else d
    | _ => d

def execWriteZeroes (id : CmdId) (place : Place) (s : State) : Host.Outcome State Fault Refusal :=
  s.upd (writeZeroesEff id place)

/-- DATASET_MANAGEMENT: each range deallocated by one journal record (R87, R106). -/
def datasetEff (id : CmdId) (d : Device) : Device :=
  match d.cmd id with
  | none => d
  | some c => match c.op with | .deallocate rs => if c.fresh then d.zeroRanges c rs else d | _ => d

def execDatasetManagement (id : CmdId) (s : State) : Host.Outcome State Fault Refusal := s.upd (datasetEff id)

/-! ### Flush (R92, R115) -/

/-- A command whose completion a Flush waits for. -/
def IoOp.writes : IoOp → Bool
  | .write .. => true
  | .writeZeroes .. => true
  | .deallocate _ => true
  | .zoneAppend .. => true
  | _ => false

/-- FLUSH: the pending journal records are written (R115, R140). -/
def flushEff (id : CmdId) (d : Device) : Device :=
  match d.cmd id with
  | none => d
  | some c =>
    match c.op with
    | .flush => if c.fresh then (d.updCmd c.no fun k => { k with started := true }).flushJournal else d
    | _ => d

def execFlush (id : CmdId) (s : State) : Host.Outcome State Fault Refusal := s.upd (flushEff id)

/-- Everything stamped before a Flush is complete and its records are committed (R115). -/
def Device.flushDone (d : Device) (c : Cmd) : Bool :=
  let mine := fun (n : Nat) => c.nsid == 0xFFFFFFFF || n == c.nsid
  !(d.host.cmds.any fun e => decide (e.no < c.no) && e.op.writes && mine e.nsid) &&
    !((d.host.jpend ++ d.host.jflight.flatten).any fun p =>
      (match p.cmd with | none => false | some n => decide (n < c.no)) &&
        (match p.rec_ with
         | .unit _ n .. => mine n
         | .zeroRange _ n .. => mine n
         | _ => false))

/-- FLUSH_COMPLETE (R115). -/
def flushCompleteEff (id : CmdId) (d : Device) : Device :=
  match d.cmd id with
  | none => d
  | some c =>
    match c.op with
    | .flush => if c.started && d.flushDone c then d.endCmd c .success else d
    | _ => d

def execFlushComplete (id : CmdId) (s : State) : Host.Outcome State Fault Refusal := s.upd (flushCompleteEff id)

/-! ### Zone management (R66, R87, R96, R148) -/

/-- ZONE_MGMT_RECEIVE: the report is begun; it waits for the earlier commands to its zones (R87). -/
def zoneReceiveEff (id : CmdId) (d : Device) : Device :=
  match d.cmd id with
  | none => d
  | some c =>
    match c.op with
    | .zoneReceive .. => if c.fresh then d.updCmd c.no fun k => { k with started := true } else d
    | _ => d

def execZoneMgmtReceive (id : CmdId) (s : State) : Host.Outcome State Fault Refusal := s.upd (zoneReceiveEff id)

/-- ZONE_REPORT_READY: every zone taken, the report is sent (R87, R147). -/
def zoneReportEff (id : CmdId) (d : Device) : Device :=
  match d.cmd id with
  | none => d
  | some c =>
    match c.op, d.ns c.nsid with
    | .zoneReceive a _, some x =>
      if !c.started || !c.zones.isEmpty then d
      else
        let first := a / 65536
        let zs := (List.range (x.blocks / 65536 - first)).map fun i =>
          let z : Zone := Sparse.get (fun _ => {}) c.snap (first + i)
          (65536 * (first + i), (z.st, (z.wp, (z.cap, z.finished))))
        (d.emit (.zones id zs)).endCmd c .success
    | _, _ => d

def execZoneReportReady (id : CmdId) (s : State) : Host.Outcome State Fault Refusal := s.upd (zoneReportEff id)

/-- One zone of a Close or Open. -/
def Device.sendPlain (d : Device) (c : Cmd) (st : ZState) : Device :=
  (c.zones.foldl (fun d z => d.updZone c.nsid z fun x => if x.st = .full then x else { x with st := st }) d).endCmd c .success

/-- One zone of a Finish, Reset or Offline: a Finish closes the band, and the zone-state record is queued (R139, R148). -/
def Device.sendRecord (d : Device) (c : Cmd) (act : ZoneAct) (z : Nat) : Device :=
  let x := d.zone c.nsid z
  let d := match act, x.band with | .finish, some b => d.closeBand b | _, _ => d
  let st : ZState := match act with | .finish => .full | .offline => .offline | _ => .empty
  let (s, d) := d.takeSeq
  d.queueRec (.zoneState s c.nsid (65536 * z) st (if st = .empty then 0 else x.wp)) (some c.no)

/-- A Zone Management Send carried out, once every earlier command to its zones has ended (R96). -/
def zoneSendEff (act : ZoneAct) (id : CmdId) (d : Device) : Device :=
  match d.cmd id with
  | none => d
  | some c =>
    match c.op with
    | .zoneSend a _ _ =>
      if a ≠ act ∨ c.held = true ∨ c.started = true ∨ c.ended = true then d
      else if c.zones.any (fun z => d.zoneBusy c.no c.nsid z) then d
      else
        match act with
        | .close => (d.sendPlain c .closed).settle
        | .openZone => (d.sendPlain c .explicitOpen).settle
        | act =>
          if c.zones.isEmpty then (d.endCmd c .success).settle
          else
            let d := c.zones.foldl (fun d z => d.sendRecord c act z) d
            (d.updCmd c.no fun k => { k with started := true, waitJ := some (d.host.jnext - 1) }).flushJournal
    | _ => d

def execZoneClose (id : CmdId) (s : State) : Host.Outcome State Fault Refusal := s.upd (zoneSendEff .close id)
def execZoneFinish (id : CmdId) (s : State) : Host.Outcome State Fault Refusal := s.upd (zoneSendEff .finish id)
def execZoneOpen (id : CmdId) (s : State) : Host.Outcome State Fault Refusal := s.upd (zoneSendEff .openZone id)
def execZoneReset (id : CmdId) (s : State) : Host.Outcome State Fault Refusal := s.upd (zoneSendEff .reset id)
def execZoneOffline (id : CmdId) (s : State) : Host.Outcome State Fault Refusal := s.upd (zoneSendEff .offline id)

/-! ### Reservations (R87) -/

/-- A reservation command completed: its state change was made at its stamp, so that later-stamped commands meet it (R87). -/
def reservationEff (right : IoOp → Bool) (id : CmdId) (d : Device) : Device :=
  match d.cmd id with
  | none => d
  | some c =>
    if !right c.op || c.held || c.silent then d
    else
      let d :=
        match c.op with
        | .resReport => d.emit (.fields (some id)
            ([("GEN", c.resv.gen), ("RTYPE", c.resv.rtype), ("REGCTL", c.resv.regs.length), ("PTPLS", if c.resv.ptpl then 1 else 0)]
              ++ c.resv.regs.flatMap fun (p : Nat × Nat) => [("CNTLID", p.1 + 1), ("RCSTS", if c.resv.holds p.1 then 1 else 0), ("RKEY", p.2)]))
        | _ => d
      d.endCmd c (c.fail.getD .success)

def execReservationRegister (id : CmdId) (s : State) : Host.Outcome State Fault Refusal :=
  s.upd (reservationEff (fun o => match o with | .resRegister _ => true | _ => false) id)
def execReservationReport (id : CmdId) (s : State) : Host.Outcome State Fault Refusal :=
  s.upd (reservationEff (fun o => match o with | .resReport => true | _ => false) id)
def execReservationAcquire (id : CmdId) (s : State) : Host.Outcome State Fault Refusal :=
  s.upd (reservationEff (fun o => match o with | .resAcquire _ => true | _ => false) id)
def execReservationRelease (id : CmdId) (s : State) : Host.Outcome State Fault Refusal :=
  s.upd (reservationEff (fun o => match o with | .resRelease _ => true | _ => false) id)

end Sys2Proof.Machine
end

