-- ==== Sys2Proof/Machine/DataPath.lean ====
section
/-!
DEFINITION. A write's data on its way: late pull, forwarding to readers, the unit's medium write, durability (R98 to R105, R135 to R138,
R221).
-/
namespace Sys2Proof.Machine

/-! ### Late pull (R102 to R104) -/

/-- The party of the lane a unit's band lies on. -/
def Device.unitLane (d : Device) (u : WUnit) : Option Lane :=
  match u.band with
  | none => none
  | some b => (d.host.tables.band b).map (·.lane)

/-- PULL_POINT: LEAD µs ahead of the writer the unit's pages are allocated from its reservation and host memory is read. Without pages
the unit waits. A zoned Write Zeroes has no host data to pull (R102). -/
def pullPointEff (id : CmdId) (k resv : Nat) (d : Device) : Device :=
  match d.cmd id with
  | none => d
  | some c =>
    match c.units[k]? with
    | none => d
    | some u =>
      if u.st ≠ .waiting ∨ u.band.isNone = true then d
      else
        let (ps, d') := d.allocPages resv u.n
        if ps.length ≠ u.n then d
        else
          let zero := match c.op with | .writeZeroes .. => true | _ => false
          let d := d'.updUnit c.no k fun u => { u with pages := ps, st := if zero then .pulled else .pulling }
          if !zero then d
          else
            let x := (d.ns c.nsid).getD {}
            ps.zipIdx.foldl (fun d q =>
              d.writePage q.1 (Page.make 0 1 0 c.nsid (c.stamp.getD 0) (u.lba + q.2) (zeroBlk x).md)) d

def execPullPoint (id : CmdId) (unit resv : Nat) (s : State) : Host.Outcome State Fault Refusal := s.upd (pullPointEff id unit resv)

/-- PULL_COMPLETE: the unit's blocks have arrived. Protection information is checked; a mismatch ends this and every later unit all-old
(R103). -/
def pullCompleteEff (id : CmdId) (k : Nat) (data : List Blk) (d : Device) : Device :=
  match d.cmd id with
  | none => d
  | some c =>
    match c.units[k]?, d.ns c.nsid with
    | some u, some x =>
      if u.st ≠ .pulling ∨ data.length ≠ u.n then d
      else
        match data.zipIdx.findSome? fun q => piCheck x c.op.pi (64 * k + q.2) q.1 with
        | some st => (d.failFrom c.no k st).settle
        | none =>
          let party := match d.unitLane u with | some l => l.idx | none => 0
          let d := (u.pages.zip data).zipIdx.foldl (fun d q =>
            let b := piMake x c.op.pi (64 * k + q.2) q.1.2
            d.writePage q.1.1 (Page.make b.data 1 party c.nsid (c.stamp.getD 0) (u.lba + q.2) b.md)) d
          d.updUnit c.no k fun u => { u with st := .pulled }
    | _, _ => d

def execPullComplete (id : CmdId) (unit : Nat) (data : List Blk) (s : State) : Host.Outcome State Fault Refusal :=
  s.upd (pullCompleteEff id unit data)

/-- A late pull that fails completes the write with Data Transfer Error (R55, R103). -/
def Device.pullFailed (d : Device) (id : CmdId) (k : Nat) : Device :=
  match d.cmd id with
  | none => d
  | some c =>
    match c.units[k]? with
    | none => d
    | some u => if u.st = .pulling then (d.failFrom c.no k .dataTransfer).settle else d

/-- PULL_MISSED: a unit's pull is not complete when its first sector reaches the writer: its pages stay, its slot's arm stays and takes
effect a revolution later; the delay is the only cost, so nothing of the device changes (R104, R316). -/
def pullMissedEff (_id : CmdId) (_k : Nat) (d : Device) : Device := d

def execPullMissed (id : CmdId) (unit : Nat) (s : State) : Host.Outcome State Fault Refusal := s.upd (pullMissedEff id unit)

/-! ### Forwarding (R99, R100, R345) -/

/-- FORWARD_COPY: blocks of a read whose source is a pulled unit's page begin their copy; the pages are pinned (R99). -/
def forwardCopyEff (id wid : CmdId) (k : Nat) (d : Device) : Device :=
  match d.cmd id, d.cmd wid with
  | some r, some w =>
    match w.units[k]? with
    | none => d
    | some u =>
      if u.st ≠ .pulled ∧ u.st ≠ .writing then d
      else
        (List.range r.blocks.length).foldl (fun d i =>
          match r.blocks[i]? with
          | none => d
          | some b =>
            if b.sent ∨ b.copying.isSome = true ∨ b.chain.head? ≠ some (.fwd w.no k) then d
            else
              match u.pages[r.op.slba + i - u.lba]? with
              | none => d
              | some p =>
                (d.updCmd r.no fun c => { c with started := true, blocks := c.blocks.modify i fun x => { x with copying := some p } }).setPins p
                  (Sparse.cnt d.host.pins p + 1)) d
  | _, _ => d

def execForwardCopy (id wid : CmdId) (unit : Nat) (s : State) : Host.Outcome State Fault Refusal :=
  s.upd (forwardCopyEff id wid unit)

/-- The block a page holds. -/
def Device.pageBlk (d : Device) (p : Nat) : Blk := { data := (d.page p).data, md := (d.page p).meta }

/-- PAGE_UNPIN: a read's copies from a page end: its blocks are in host memory and the page is unpinned. A page that fails its check ends
the read with Internal Error (R99, R345). -/
def pageUnpinEff (id : CmdId) (page : Nat) (d : Device) : Device :=
  match d.cmd id with
  | none => d
  | some c =>
    match d.ns c.nsid with
    | none => d
    | some x =>
      let is := (c.blocks.zipIdx.filter fun q => q.1.copying == some page).map (·.2)
      if is.isEmpty then d
      else
        let good := d.pageGood page
        let b := d.pageBlk page
        let d := is.foldl (fun d i =>
          let d := d.updCmd c.no fun k => { k with blocks := k.blocks.modify i fun r => { r with copying := none } }
          let d := if good then d.sendBlk c x i b else d
          d.unpin page) d
        let d := if good then d
          else ((d.notePageCheck page .host).log 6 0x4006 [page]).updCmd c.no fun k => { k with fail := k.fail <|> some .internal }
        d.settle

def execPageUnpin (id : CmdId) (page : Nat) (s : State) : Host.Outcome State Fault Refusal := s.upd (pageUnpinEff id page)

/-- FORWARD_REREAD: blocks forwarded from a unit that ended all-old are taken again from the next source (R100). -/
def forwardRereadEff (id : CmdId) (d : Device) : Device :=
  match d.cmd id with
  | none => d
  | some c =>
    match d.ns c.nsid with
    | none => d
    | some x =>
      let is := (c.blocks.zipIdx.filter fun q => q.1.chain.head? == some .gone && q.1.copying.isNone).map (·.2)
      let d := is.foldl (fun d i => d.updCmd c.no fun k =>
        { k with blocks := k.blocks.modify i fun r => { r with chain := r.chain.tail, sent := false } }) d
      (is.foldl (fun d i => match d.cmdNo c.no with | none => d | some c => d.takeBlk c x i) d).settle

def execForwardReread (id : CmdId) (s : State) : Host.Outcome State Fault Refusal := s.upd (forwardRereadEff id)

/-! ### The medium write of a unit (R96, R98, R135 to R138) -/

/-- The unit a sector reference names, with its command. -/
def Device.unitOf (d : Device) (r : SectorRef) : Option (Cmd × WUnit) :=
  match d.cmd r.id with
  | none => none
  | some c => (c.units[r.unit]?).map fun u => (c, u)

/-- Units of earlier commands, and earlier units of this one, in a zone have all ended (R96). -/
def Device.zoneTurn (d : Device) (c : Cmd) (k : Nat) : Bool :=
  match c.zone? d with
  | none => true
  | some z =>
    (c.units.take k).all WUnit.ended &&
      !(d.host.cmds.any fun e => decide (e.no < c.no) && e.nsid == c.nsid && e.zone? d == some z && e.units.any (!·.ended))

/-- No other unit of a band is being written (R135). -/
def Device.bandQuiet (d : Device) (b : Nat) : Bool :=
  !(d.host.cmds.any fun c => c.units.any fun u => u.band == some b && u.st == .writing) && (Sparse.find d.host.moves b).isNone

/-- The sector of a reference may be written now: the first sector of a pulled unit whose turn it is (R96, R98), or the next sector of a
unit being written (R135). -/
def Device.sectorReady (d : Device) (r : SectorRef) : Bool :=
  match d.unitOf r with
  | none => false
  | some (c, u) =>
    match u.band with
    | none => false
    | some b =>
      if r.j = 0 then u.st == .pulled && d.mayWrite c.no c.nsid u.lba u.n && d.zoneTurn c r.unit && d.bandQuiet b
      else u.st == .writing && (d.bandUnits b).any fun m => m.seq == u.seq && m.written == r.j

/-- The trailer kind of a write (R136). -/
def IoOp.kind : IoOp → Nat
  | .zoneAppend .. => 2
  | _ => 1

/-- The medium write of a unit begins: it takes a store sequence and the band's next indices (R135, R138). -/
def Device.beginUnit (d : Device) (r : SectorRef) : Device :=
  match d.unitOf r with
  | none => d
  | some (c, u) =>
    let b := u.band.getD 0
    let index := match d.host.tables.band b with | none => 0 | some x => x.next
    let (s, d) := d.takeSeq
    let m : MUnit :=
      { seq := s, kind := c.op.kind, nsid := c.nsid, epoch := ((d.ns c.nsid).getD {}).epoch, lba := u.lba, n := u.n, k := r.unit
        units := c.units.length, stamp := c.stamp.getD 0, index := index, chr := d.chron.chr, data := [] }
    (d.updUnit c.no r.unit fun u => { u with st := .writing, seq := s, index := index }).updBandUnits b fun ms =>
      ms.filter (fun x => decide (x.index < index)) ++ [m]

/-- The page of a data sector passes the write path's check (R221, R345). -/
def Device.sectorPageGood (d : Device) (r : SectorRef) : Bool :=
  match d.unitOf r with
  | none => true
  | some (_, u) => match u.pages[r.j]? with | none => true | some p => d.pageGood p

/-- A sector of a unit written in full: the next data sector, or a trailer copy (R105, R135). -/
def Device.sectorWritten (d : Device) (r : SectorRef) : Device :=
  match d.unitOf r with
  | none => d
  | some (_, u) =>
    if u.st ≠ .writing then d
    else
      let blk := match u.pages[r.j]? with | none => [] | some p => [d.pageBlk p]
      d.updBandUnits (u.band.getD 0) fun ms => ms.map fun m =>
        if m.seq == u.seq && m.written == r.j then
          { m with
            written := m.written + 1
            data := m.data ++ blk
            c0 := if r.j = u.n then .good else m.c0
            c1 := if r.j = u.n + 1 then .good else m.c1 }
        else m

/-- A unit's medium write has failed after the relocation attempts: it and every later unit end all-old, with Write Fault (R111). -/
def Device.unitFault (d : Device) (r : SectorRef) (st : Status) : Device :=
  match d.unitOf r with
  | none => d
  | some (c, _) => (d.failFrom c.no r.unit st).settle

/-! ### Durable (R97, R105, R133, R148, R150) -/

/-- A band that can take no more closes (R150): a zone's when the zone is Full, the pool's once a unit was turned away. -/
def Device.closeIfFull (d : Device) (nsid z b : Nat) : Device :=
  match d.host.tables.band b with
  | none => d
  | some x =>
    if x.st ≠ .opened then d
    else if x.nsid ≠ 0 ∧ (d.zone nsid z).st = .full then d.closeWhenDone b
    else if x.closing = true ∧ d.bandBusy b = false then d.closeBand b
    else d

/-- FRAGMENT_POOL_THRESHOLD: at 90 % rewriting of split chunks begins, below 80 % it ends (R133). -/
def Device.fragCheck (d : Device) : Device :=
  if !d.host.fragHold && decide (9 * fragRecords ≤ 10 * d.host.tables.fragUse) then
    (d.updHost fun h => { h with fragHold := true }).log 0 0x1017
  else if d.host.fragHold && decide (10 * d.host.tables.fragUse < 8 * fragRecords) then d.updHost fun h => { h with fragHold := false }
  else d

/-- A sector of the unit still waits for its verdict, or has missed it and the unit is to be rewritten (R212, R237). -/
def Device.verdictsDue (d : Device) (id : CmdId) (k : Nat) : Bool :=
  let mine (r : SectorRef) : Bool := r.id == id && r.unit == k
  d.lane0.wr.missed.any mine || (laneSeqs .ln0).any fun q =>
    match (d.ec q).op with
    | none => false
    | some o => o.vpend.any fun p => match p.2 with | none => false | some r => mine r

/-- UNIT_DURABLE: both trailer copies are on the medium, and every verdict is in (R105, R135, R212). -/
def unitDurableEff (id : CmdId) (k : Nat) (d : Device) : Device :=
  match d.unitOf ⟨id, k, 0⟩ with
  | none => d
  | some (c, u) =>
    let b := u.band.getD 0
    let both := (d.bandUnits b).any fun m => m.seq == u.seq && m.c0 == .good && m.c1 == .good
    if u.st ≠ .writing ∨ both = false ∨ d.verdictsDue id k = true then d
    else ((((d.unitNew c.no k).closeIfFull c.nsid (u.lba / 65536) b).fragCheck).settle).journalFull

def execUnitDurable (id : CmdId) (unit : Nat) (s : State) : Host.Outcome State Fault Refusal := s.upd (unitDurableEff id unit)

end Sys2Proof.Machine
end

