-- ==== Sys2Proof/Machine/Store.lean ====
section
/-!
DEFINITION. The store at work: journal, checkpoints, map rebuild, band-close verification, garbage collection (R138 to R160).
-/
namespace Sys2Proof.Machine

/-! ### Deferred errors (R76, R112) -/

/-- DEFERRED_ERROR_RECORD: an entry of log 0xC0, the namespace's mark, and one event for each group within 1 s (R112). -/
def Device.recordDeferred (d : Device) (nsid lba n : Nat) (l : Lane) (head : Nat) : Device :=
  let e : DefErr := { nsid := nsid, delivered := false, lane := l.idx, head := head, lba := lba, n := n, stamp := 0, chr := d.chron.chr }
  let all := d.hnor.deferred ++ [e]
  let d : Device := { d with hnor := { d.hnor with
    deferred := all.drop (all.length - 255)
    deferredTotal := min (d.hnor.deferredTotal + 1) (2 ^ 32 - 1) } }
  let d := d.updNs nsid fun x => { x with deferred := true }
  let soon := match d.host.deferAen with | none => false | some t => decide (d.chron.chr < t + 1000000)
  if soon then d
  else (d.updHost fun h => { h with deferAen := some d.chron.chr }).postAen vendorMask ⟨7, 0, 0xC0⟩

/-! ### The journal (R139, R140) -/

/-- JOURNAL_FLUSH_TIMER: at least every 250 ms a sector is written while bands receive units (R140). -/
def journalTimerEff (d : Device) : Device := if d.openBands.isEmpty then d else d.writeSector

def execJournalFlushTimer (s : State) : Host.Outcome State Fault Refusal := s.upd journalTimerEff

/-- What a record's commit lets happen: map operations, zone states, relocations and lost ranges take effect (R106, R140, R148, R152,
R153). The others took effect when queued. -/
def Device.commitRec (d : Device) (r : JRec) : Device :=
  let apply := d.updTables fun t => t.applyRec d.zonedNs d.stripeG d.stripeP r
  match r with
  | .zeroRange .. => apply
  | .relocation .. => apply
  | .zoneState _ nsid zslba st _ =>
    let band := (d.zone nsid (zslba / 65536)).band
    match st, band with
    | .empty, some b => apply.giveUpBand b
    | .offline, some b => apply.giveUpBand b
    | _, _ => apply
  | .lostRange _ nsid lba n b =>
    match d.host.tables.band b with
    | none => apply
    | some x => apply.recordDeferred nsid lba n x.lane x.head
  | _ => d

/-- JOURNAL_SECTOR_COMMITTED: the oldest written sector is on the medium in both copies; what waited on its records goes on (R140). -/
def journalCommittedEff (d : Device) : Device :=
  match d.host.jflight with
  | [] => d
  | s :: rest =>
    let d : Device := { d with medium := { d.medium with journal := d.medium.journal ++ [⟨d.host.jsector, s.map (·.rec_)⟩] } }
    let done := (s.map (·.no)).foldl max 0
    let d := d.updHost fun h => { h with jflight := rest, jsector := h.jsector + 1 }
    let d := (s.map (·.rec_)).foldl Device.commitRec d
    let still := fun (n : Nat) => (d.host.jpend ++ d.host.jflight.flatten).any fun p => p.no == n
    let d := d.updHost fun h => { h with
      jdone := max h.jdone done
      cmds := h.cmds.map fun c =>
        match c.waitJ with
        | none => c
        | some n => if still n then c else { c with ended := true } }
    d.settle

def execJournalSectorCommitted (s : State) : Host.Outcome State Fault Refusal := s.upd journalCommittedEff

/-! ### Checkpoints (R141) -/

/-- The newer complete checkpoint of two areas. -/
def newerOf (a b : Option Checkpoint) : Option Checkpoint :=
  match a.filter (·.complete), b.filter (·.complete) with
  | some x, some y => if x.start < y.start ∨ (x.start = y.start ∧ x.seq < y.seq) then some y else some x
  | some x, none => some x
  | none, y => y

/-- Whether area B is the older, to be overwritten next. -/
def Medium.olderIsB (m : Medium) : Bool :=
  match m.checkA.filter (·.complete), m.checkB.filter (·.complete) with
  | some x, some y => decide (y.start < x.start) || (x.start == y.start && decide (y.seq ≤ x.seq))
  | some _, none => true
  | none, _ => false

/-- CHECKPOINT_START: at 48 MiB of journal in use, or hourly; the tables are snapshot into the older area (R141). -/
def checkpointStartEff (d : Device) : Device :=
  if d.host.check.isSome ∨ d.rd HS_STORE_STS_REBUILD ≠ 2 then d
  else if d.medium.journal.length < 12288 ∧ d.chron.chr < d.host.checkAt + 3600000000 then d
  else
    let b := d.medium.olderIsB
    let c : Checkpoint := { complete := false, start := d.host.jsector, seq := d.host.seq - 1, tables := d.host.tables }
    let d : Device := { d with medium := if b then { d.medium with checkB := some c } else { d.medium with checkA := some c } }
    d.updHost fun h => { h with check := some b, checkAt := d.chron.chr }

def execCheckpointStart (s : State) : Host.Outcome State Fault Refusal := s.upd checkpointStartEff

/-- CHECKPOINT_COMPLETE: the header is written last; the journal behind the start position may be reused (R141). -/
def checkpointCompleteEff (d : Device) : Device :=
  match d.host.check with
  | none => d
  | some b =>
    let done := fun (c : Checkpoint) => { c with complete := true }
    let m : Medium := if b then { d.medium with checkB := d.medium.checkB.map done } else { d.medium with checkA := d.medium.checkA.map done }
    let start := match newerOf m.checkA m.checkB with | none => 0 | some c => c.start
    let m : Medium := { m with everCheck := true, journal := m.journal.filter fun s => decide (start ≤ s.no) }
    Device.updHost { d with medium := m } fun h => { h with check := none }

def execCheckpointComplete (s : State) : Host.Outcome State Fault Refusal := s.upd checkpointCompleteEff

/-! ### Rebuild (R142 to R146) -/

/-- A record put in its place by sequence, after those of equal sequence. -/
def insertBySeq (r : JRec) : List JRec → List JRec
  | [] => [r]
  | x :: t => if r.seq < x.seq then r :: x :: t else x :: insertBySeq r t

/-- Records in ascending sequence. -/
def sortBySeq (rs : List JRec) : List JRec := rs.foldl (fun acc r => insertBySeq r acc) []

/-- The unit's NSID and key epoch name the namespace as it stands (R137, R144). -/
def Device.epochOk (d : Device) (u : MUnit) : Bool :=
  match d.ns u.nsid with
  | none => false
  | some x => x.epoch == u.epoch

/-- A trailer copy of the unit is valid (R137). -/
def MUnit.hasCopy (u : MUnit) (bad : List (Nat × Bool)) : Bool :=
  (u.c0 == .good && !bad.contains (u.seq, false)) || (u.c1 == .good && !bad.contains (u.seq, true))

/-- OPEN_BAND_SCAN: the units of a band decided in order: by a copy, or by the back-reference of a later unit (R137, R144). Gives the
units that are new and the indices of those that did not happen though their trailer was written. -/
def scanBand (bad : List (Nat × Bool)) : List MUnit → List MUnit × List Nat
  | [] => ([], [])
  | u :: rest =>
    let (new, gone) := scanBand bad rest
    if u.hasCopy bad then (u :: new, gone)
    else if u.c0 == .blank then (new, gone)
    else if rest.any (·.hasCopy bad) then (u :: new, gone)
    else (new, u.index :: gone)

/-- The unit record a scanned unit stands for. -/
def MUnit.toRec (u : MUnit) (band : Nat) : JRec := .unit u.seq u.nsid u.lba u.n band u.index u.src

/-- After the rebuild a zone whose band was open is Closed, one that took no band is Empty; the fetch view is the zone's own (R145). -/
def Zone.afterRebuild (z : Zone) : Zone :=
  let st := if z.st.active then (if z.band.isSome then ZState.closed else .empty) else z.st
  { z with st := st, fst := st, fwp := z.wp, fcap := z.cap }

/-- The last frontier of a band in records (R139). -/
def lastFrontier (rs : List JRec) (b start : Nat) : Nat :=
  (rs.filterMap fun r => match r with | .frontier b' i => if b' = b then some i else none | _ => none).foldl max start

/-- The tables, delta count and scanned bands of a rebuild from `base` over the journal records `rs` (R142 to R145). -/
def Device.rebuildFrom (d : Device) (base : Tables) (rs : List JRec) (bad : List (Nat × Bool)) :
    Tables × (List JRec × (List Nat × List (Nat × Nat))) :=
  let bandsOnly := rs.foldl (fun t r =>
    match r with
    | .bandOpen .. | .bandClose .. | .bandFree .. => Tables.applyRec t d.zonedNs d.stripeG d.stripeP r
    | _ => t) base
  let openB := (bandsOnly.bands.filter fun p => p.2.st == .opened).map (·.1)
  let unitRecs := rs.filter fun r => match r with | .unit .. => true | _ => false
  let scans := openB.map fun b =>
    let from_ := lastFrontier rs b (match base.band b with | none => 0 | some x => x.next)
    (b, scanBand bad ((d.bandUnits b).filter fun u => decide (from_ ≤ u.index)))
  let found := scans.flatMap fun p => (p.2.1.filter d.epochOk).map fun u => u.toRec p.1
  let fresh := found.filter fun r => !unitRecs.any fun q => q.seq == r.seq
  let delta := sortBySeq ((rs.filter fun r => match r with | .frontier .. => false | _ => true) ++ fresh)
  let t := delta.foldl (fun t r => Tables.applyRec t d.zonedNs d.stripeG d.stripeP r) base
  let t : Tables := { t with
    zones := (t.zones.map fun p => (p.1, p.2.afterRebuild)).filter fun p => p.2 != {}
    bands := t.bands.map fun p => (p.1, { p.2 with closing := false }) }
  (t, (delta, (openB, scans.flatMap fun p => p.2.2.map fun i => (p.1, i))))

/-- REBUILD_FAIL (R146). -/
def Device.rebuildFail (d : Device) : Device :=
  let d := (d.wr HS_STORE_STS_REBUILD 3).log 0 0x1011
  d.ctrls.foldl (fun d c => d.updCtrl c fun k => { k with cfsRebuild := true }) d

/-- The journal has every sector from `start` to its last (R146). -/
def journalWhole (m : Medium) (lost : List Nat) (start : Nat) : Bool :=
  let last := (m.journal.map (·.no + 1)).foldl max start
  (List.range (last - start)).all fun i =>
    !lost.contains (start + i) && m.journal.any fun s => s.no == start + i

/-- The highest sequence on the medium (R138). -/
def Medium.highest (m : Medium) : Nat :=
  let cs := (m.checkA.toList ++ m.checkB.toList).map (·.seq)
  let js := m.journal.flatMap fun s => s.recs.map (·.seq)
  let us := m.bands.flatMap fun p => p.2.map (·.seq)
  (cs ++ js ++ us).foldl max 0

/-- MAP_REBUILD: after spin-up, from the newer complete checkpoint, or from the empty map of a new drive (R142 to R146). -/
def mapRebuildEff (o : RebuildObs) (d : Device) : Device :=
  if !d.released || !d.atSpeed || d.rd HS_STORE_STS_REBUILD != 0 || d.power.retain != .out then d
  else
    let m := d.medium
    let a := if o.noHeadA then none else m.checkA
    let b := if o.noHeadB then none else m.checkB
    let d := d.updHost fun h => { h with rebuildAt := d.chron.chr }
    match newerOf a b, m.everCheck with
    | none, true => d.rebuildFail
    | c, _ =>
      let start := match c with | none => 0 | some c => c.start
      if !journalWhole m o.lost start then d.rebuildFail
      else
        let rs := (m.journal.filter fun s => decide (start ≤ s.no)).flatMap (·.recs)
        let base : Tables := match c with | none => {} | some c => c.tables
        let (t, (delta, (openB, gone))) := d.rebuildFrom base rs o.badCopies
        let d := d.updHost fun h => { h with
          tables := t
          seq := m.highest + 1
          jsector := (m.journal.map (·.no + 1)).foldl max start
          scanned := openB.length
          applied := (delta.filter fun r => match r with | .unit .. => true | _ => false).length
          loaded := if c.isSome then some [] else none
          checkAt := d.chron.chr
          verify := (t.bands.filter fun p => p.2.st == .closed).map (·.1) }
        let d := openB.foldl (fun d b =>
          let next := match t.band b with | none => 0 | some x => x.next
          d.updBandUnits b fun us => us.filter fun u => decide (u.index < next)) d
        gone.foldl (fun d p => d.log 0 0x1012 [p.1, p.2]) (d.wr HS_STORE_STS_REBUILD 1)

def execMapRebuild (obs : RebuildObs) (s : State) : Host.Outcome State Fault Refusal := s.upd (mapRebuildEff obs)

/-- REBUILD_COMPLETE: a rebuild-complete record is committed and the drive may become ready (R142, R143). -/
def rebuildCompleteEff (d : Device) : Device :=
  if d.rd HS_STORE_STS_REBUILD ≠ 1 then d
  else
    let d := d.queueSeq fun s => .rebuildDone s d.host.scanned d.host.applied
    ((d.flushJournal).wr HS_STORE_STS_REBUILD 2).log 0 0x1010 [d.chron.chr - d.host.rebuildAt, d.host.scanned, d.host.applied]

def execRebuildComplete (s : State) : Host.Outcome State Fault Refusal := s.upd rebuildCompleteEff

/-- Chunk-table pages of every namespace: 32,768 blocks each. -/
def Device.allPages (d : Device) : List Nat :=
  d.hnor.nss.flatMap fun p => (List.range ((p.2.blocks + 32767) / 32768)).map fun i => nsKey p.1 i

/-- CHUNK_PAGE_LOAD: a chunk-table page is loaded, its deltas applied (R143). -/
def chunkPageEff (nsid page : Nat) (d : Device) : Device :=
  match d.host.loaded with
  | none => d
  | some ps =>
    if ps.contains (nsKey nsid page) then d
    else
      let ps := ps ++ [nsKey nsid page]
      d.updHost fun h => { h with loaded := if d.allPages.length ≤ ps.length then none else some ps }

def execChunkPageLoad (nsid page : Nat) (s : State) : Host.Outcome State Fault Refusal := s.upd (chunkPageEff nsid page)

/-! ### Band-close verification (R150 to R154) -/

/-- The block at a data-class index of a band that the map still names: its namespace and LBA (R151). -/
def Device.current (d : Device) (b i : Nat) : Option (Nat × Nat) :=
  match (d.bandUnits b).find? (fun u => decide (u.index ≤ i) && decide (i < u.index + u.n)) with
  | none => none
  | some u =>
    let lba := u.lba + (i - u.index)
    if d.host.tables.loc u.nsid lba = .at_ b i then some (u.nsid, lba) else none

/-- Maximal runs of one namespace among blocks in index order: (NSID, first LBA, count) (R153). -/
def lostRuns : List (Nat × Nat) → List (Nat × (Nat × Nat))
  | [] => []
  | (n, l) :: rest =>
    match lostRuns rest with
    | (n', (l', k)) :: t => if n = n' ∧ l + 1 = l' then (n, (l, k + 1)) :: t else (n, (l, 1)) :: (n', (l', k)) :: t
    | [] => [(n, (l, 1))]

/-- SECTOR_RELOCATE, or SPARE_REGION_FULL: a weak current sector goes to the spare region with a relocation record, its position to the
G-list; where the region is full the pool band is moved instead (R151, R152). -/
def Device.relocate (d : Device) (b : Nat) (x : Band) (full : Bool) (i : Nat) : Device :=
  if full then (if x.nsid = 0 then d.updTables fun t => t.updBand b fun y => { y with first := true } else d)
  else
    let d := d.queueSeq fun s => .relocation s x.head b i
    { d with
      hnor := { d.hnor with relocated := d.hnor.relocated + 1 }
      medium := { d.medium with glist := d.medium.glist ++ [(x.lane.idx, (x.head, (2, (b, i))))] } }

/-- BAND_VERIFY: the oldest closed band of its lane is read back in full (R150 to R153). -/
def bandVerifyEff (b : Nat) (o : VerifyObs) (d : Device) : Device :=
  match d.host.tables.band b with
  | none => d
  | some x =>
    let firstOf := d.host.verify.find? fun n => (match d.host.tables.band n with | none => false | some y => y.lane == x.lane)
    if x.st ≠ .closed ∨ firstOf ≠ some b then d
    else
      let g := max 1 d.stripeG
      let isLost := fun i => decide (d.stripeP < (o.failed.filter fun j => j / g == i / g).length)
      let recovered := o.failed.filter fun i => !isLost i
      let move := (o.weak ++ recovered).filter fun i => (d.current b i).isSome
      let lost := (o.failed.filter isLost).filterMap (d.current b)
      let runs := lostRuns lost
      let d : Device := { d with hnor := { d.hnor with recovered := d.hnor.recovered + recovered.length } }
      let d := if o.spareFull && !move.isEmpty then d.log 0 0x1014 [x.lane.idx, x.head] else d
      let d := move.foldl (fun d i => d.relocate b x o.spareFull i) d
      let d := runs.foldl (fun d r => d.queueSeq fun s => .lostRange s r.1 r.2.1 r.2.2 b) d
      let d := d.queueSeq fun s => .bandVerified s b
      let d := d.updTables fun t => t.updBand b fun y => { y with st := .verified, first := y.first || o.parity }
      let d := d.updHost fun h => { h with verify := h.verify.filter (· != b) }
      (d.log 0 0x1013 [b, if o.spareFull then 0 else move.length, lost.length]).journalFull

def execBandVerify (band : Nat) (obs : VerifyObs) (s : State) : Host.Outcome State Fault Refusal := s.upd (bandVerifyEff band obs)

/-! ### Garbage collection (R157 to R159) -/

/-- The current blocks of a band: data-class index, namespace, LBA. -/
def Device.currentBlocks (d : Device) (b : Nat) : List (Nat × (Nat × Nat)) :=
  (d.bandUnits b).flatMap fun u => (List.range u.n).filterMap fun j =>
    (d.current b (u.index + j)).map fun p => (u.index + j, p)

/-- The band garbage collection takes next on a lane: first in line, else the fewest current blocks, then the lowest number (R151,
R157). -/
def Device.gcSource (d : Device) (l : Lane) : Option Nat :=
  let cs := (d.host.tables.bands.filter fun p => p.2.lane == l && p.2.st == .verified && p.2.nsid == 0).map fun p =>
    (p.1, if p.2.first then 0 else 1 + (d.currentBlocks p.1).length)
  cs.foldl (fun best p =>
    match best with
    | none => some p.1
    | some b =>
      match Sparse.find cs b with
      | none => some p.1
      | some n => if p.2 < n then some p.1 else best) none

/-- The first run of current blocks of one namespace, at consecutive indices and LBAs, at most 64 (R157). -/
def firstRun : List (Nat × (Nat × Nat)) → Option (Nat × (Nat × (Nat × Nat)))
  | [] => none
  | (i, (n, l)) :: rest =>
    let more := (rest.zipIdx.takeWhile fun p => decide (p.2 < 63) && p.1 == (i + p.2 + 1, (n, l + p.2 + 1))).length
    some (i, (n, (l, more + 1)))

/-- GC_BAND_FREE: a source band with no current block left and no move in flight is given up (R157). -/
def Device.gcFree (d : Device) (b : Nat) : Device :=
  if (d.currentBlocks b).isEmpty && !(d.host.moves.any fun p => match p.2.src with | some (s, _) => s == b | none => false) then
    ((d.giveUpBand b).flushJournal).reclaimAll
  else d

/-- GC_MOVE: the next run of current blocks of the lane's source band is copied, as stored, into its open pool band (R157). -/
def gcMoveEff (l : Lane) (pl : Place) (d : Device) : Device :=
  match d.gcSource l with
  | none => d
  | some b =>
    match firstRun (d.currentBlocks b) with
    | none => d.gcFree b
    | some (i, (nsid, (lba, n))) =>
      if d.host.moves.any (fun p => match p.2.src with | some (s, _) => s == b | none => false) then d
      else
        let d :=
          match d.poolBand l with
          | none => if pl.lane = l ∧ d.bandFree pl = true then d.openBand pl 0 0 else d
          | some p =>
            if d.fits p n then d
            else
              let d := d.closeWhenDone p
              if pl.lane = l ∧ d.bandFree pl = true then d.openBand pl 0 0 else d
        match d.poolBand l with
        | none => d
        | some p =>
          if !d.fits p n || !d.bandQuiet p then d
          else
            let (s, d) := d.takeSeq
            let index := match d.host.tables.band p with | none => 0 | some x => x.next
            let m : MUnit :=
              { seq := s, kind := 3, nsid := nsid, epoch := ((d.ns nsid).getD {}).epoch, lba := lba, n := n, k := 0, units := 1
                stamp := 0, index := index, chr := d.chron.chr, src := some (b, i)
                data := (List.range n).filterMap fun j => d.stored b (i + j) }
            (d.updBandUnits p fun ms => ms.filter (fun x => decide (x.index < index)) ++ [m]).updHost fun h =>
              { h with moves := Sparse.ins h.moves p m }

def execGcMove (l : Lane) (place : Place) (s : State) : Host.Outcome State Fault Refusal := s.upd (gcMoveEff l place)

/-- MOVE_DURABLE: the move unit in a band is durable; only entries that still name its source change (R158). -/
def moveDurableEff (p : Nat) (d : Device) : Device :=
  match Sparse.find d.host.moves p with
  | none => d
  | some m =>
    let d := d.updBandUnits p fun ms => ms.map fun x => if x.seq = m.seq then { x with written := m.n + 2, c0 := .good, c1 := .good } else x
    let d := d.updHost fun h => { h with moves := Sparse.del h.moves p }
    let d := d.updTables fun t => t.applyUnit false m.nsid m.lba m.n p m.index m.src
    let d := d.queueRec (.unit m.seq m.nsid m.lba m.n p m.index m.src)
    let (sb, si) := m.src.getD (0, 0)
    let d := d.queueRec (.moveSource m.seq sb si)
    ((d.gcFree sb).fragCheck).settle

def execMoveDurable (band : Nat) (s : State) : Host.Outcome State Fault Refusal := s.upd (moveDurableEff band)

/-! ### Registers (R160) -/

/-- HS_STORE_SEQL_READ: the low word of the next sequence; the high word is latched for the same initiator (R160). -/
def storeSeqlEff (who : Initiator) (d : Device) : Device :=
  let h := d.host.seq / 2 ^ 32 % 2 ^ 32
  let d := d.updHost fun x => { x with seqLatch := x.seqLatch.filter (fun p => p.1 != who) ++ [(who, h)] }
  d.emit (.reply none (.data (d.host.seq % 2 ^ 32)))

def execHsStoreSeqlRead (who : Initiator) (s : State) : Host.Outcome State Fault Refusal := s.upd (storeSeqlEff who)

end Sys2Proof.Machine
end

