-- ==== Sys2Proof/Machine/Link.lean ====
section
/-!
DEFINITION. The PCIe ports, controller enable, ready and reset, and the I/O queues' completion side (R52 to R61, R116, R480).
-/
namespace Sys2Proof.Machine

/-! ### Controller reset (R55, R71, R73, R116, R480) -/

/-- A controller is reset: nothing more is fetched, its commands are aborted without completions, its features return to their defaults
(R71, R73), the causes of CFS a reset clears are cleared (R480). CSTS.RDY follows when its continuing units have ended. -/
def Device.controllerReset (d : Device) (c : Nat) : Device :=
  let mine := (d.host.cmds.filter fun x => x.id.ctrl == c).map (·.no)
  let d := d.updHost fun h => { h with
    cmds := h.cmds.map fun x => if x.id.ctrl == c then { x with silent := true } else x
    sqs := h.sqs.filter (·.ctrl != c)
    cqs := h.cqs.filter (·.ctrl != c) }
  let d := mine.foldl (fun d n => d.abortCmd n .abortRequested) d
  let d := d.updCtrl c fun k =>
    { rdy := k.rdy, resetting := k.rdy || !mine.isEmpty, cfsRebuild := k.cfsRebuild, changed := k.changed }
  d.settle

/-- A port's number names a port of the port mode. -/
def Device.hasPort (d : Device) (p : Nat) : Bool := decide (p < if d.twoPorts then 2 else 1)

/-- PERST_ASSERT: the controller is reset without completions; the port's registers return to their reset values (R55). -/
def perstAssertEff (p : Nat) (d : Device) : Device :=
  if !d.hasPort p || !d.up then d
  else ((d.controllerReset p).setWord (HS_LINK_STS p) (resetWord (HS_LINK_STS p))).log 0 0x1003 [p]

def execPerstAssert (port : Nat) (s : State) : Host.Outcome State Fault Refusal := s.upd (perstAssertEff port)

/-- PERST_DEASSERT: link training starts (R53). -/
def perstDeassertEff (p : Nat) (d : Device) : Device := if d.hasPort p && d.up then d.wr (HS_LINK_STS_PERST p) 0 else d

def execPerstDeassert (port : Nat) (s : State) : Host.Outcome State Fault Refusal := s.upd (perstDeassertEff port)

/-- LINK_TRAINED: the highest generation both ends support, no higher than the calibre's; width 2 or 1 by the port mode. In recovery the
link is not trained (R42, R52, R53). -/
def linkTrainedEff (p gen width : Nat) (d : Device) : Device :=
  if !d.hasPort p || !d.up || d.boot.phase == .recovery || d.bit (HS_LINK_STS_PERST p) || d.bit (HS_LINK_STS_UP p) then d
  else
    let g := min gen (min 5 (d.rd CB_HOST_GEN))
    let w := min width (if d.twoPorts then 1 else 2)
    if g = 0 ∨ w = 0 then d
    else (((d.wr (HS_LINK_STS_UP p) 1).wr (HS_LINK_STS_WIDTH p) w).wr (HS_LINK_STS_SPEED p) g).log 0 0x1001 [p, w, g]

def execLinkTrained (port gen width : Nat) (s : State) : Host.Outcome State Fault Refusal := s.upd (linkTrainedEff port gen width)

/-- LINK_DOWN with PERST# deasserted: as PERST#; the link retrains on its own (R55). -/
def linkDownEff (p : Nat) (d : Device) : Device :=
  if !d.hasPort p || d.bit (HS_LINK_STS_PERST p) || !d.bit (HS_LINK_STS_UP p) then d
  else (((d.controllerReset p).setWord (HS_LINK_STS p) (resetWord (HS_LINK_STS p))).wr (HS_LINK_STS_PERST p) 0).log 0 0x1002 [p]

def execLinkDown (port : Nat) (s : State) : Host.Outcome State Fault Refusal := s.upd (linkDownEff port)

/-- CONFIG_REQUEST: retry until the boot ROM has released the host cores (R53). -/
def execConfigRequest (port : Nat) (s : State) : Host.Outcome State Fault Refusal :=
  s.upd fun d => if d.hasPort port && d.bit (HS_LINK_STS_UP port) then d.emit (.config port (!d.released)) else d

/-! ### Reads of host memory that fail (R55, R480) -/

/-- A failed host-memory read, its event logged: a late pull fails its write, a queue fetch sets CSTS.CFS. -/
def Device.hostReadFailed (d : Device) (rd : HostRead) (code : Nat) : Device :=
  match rd with
  | .latePull id k =>
    match d.unitOf ⟨id, k, 0⟩ with
    | none => d
    | some (_, u) => if u.st = .pulling then (d.log 0 code [id.ctrl]).pullFailed id k else d
  | .queueFetch c =>
    if (d.ctrl c).en then (d.log 0 code [c]).updCtrl c fun k => { k with cfs := true, stopped := true } else d

def execHostReadCompletionTimeout (rd : HostRead) (s : State) : Host.Outcome State Fault Refusal :=
  s.upd fun d => d.hostReadFailed rd 0x1006
def execPoisonedTlp (rd : HostRead) (s : State) : Host.Outcome State Fault Refusal := s.upd fun d => d.hostReadFailed rd 0x1005

/-- CORRECTABLE_ERROR: CORR_CNT counts, saturating; 255 in a minute log event 0x1004 (R54, R55). The minute is one beginning at the first
error after the last. -/
def correctableEff (p : Nat) (d : Device) : Device :=
  if !d.hasPort p then d
  else
    let d := d.incSat (HS_LINK_STS_CORR_CNT p)
    let t := Sparse.cnt d.host.corrAt (2 * p)
    let fresh := t = 0 ∨ t + 60000000 ≤ d.chron.chr + 1
    let n := if fresh then 1 else Sparse.cnt d.host.corrAt (2 * p + 1) + 1
    let start := if fresh then Sparse.setCnt d.host.corrAt (2 * p) (d.chron.chr + 1) else d.host.corrAt
    let d := d.updHost fun h => { h with corrAt := Sparse.setCnt start (2 * p + 1) n }
    if 255 ≤ n then d.logRate 0 0x1004 p [p] else d

def execCorrectableError (port : Nat) (s : State) : Host.Outcome State Fault Refusal := s.upd (correctableEff port)

/-- L1_2_ENTRY and L1_2_EXIT (R54). -/
def execL12Entry (port : Nat) (s : State) : Host.Outcome State Fault Refusal :=
  s.upd fun d => if d.bit (HS_LINK_STS_UP port) then d.wr (HS_LINK_STS_L12 port) 1 else d
def execL12Exit (port : Nat) (s : State) : Host.Outcome State Fault Refusal :=
  s.upd fun d => d.wr (HS_LINK_STS_L12 port) 0

/-! ### Enable, ready, reset -/

/-- CC_EN_SET: the controller is enabled with its admin queues; CRIME chooses how readiness is met (R59). -/
def ccEnSetEff (c : Nat) (crime : Bool) (asq acq : Nat) (d : Device) : Device :=
  let k := d.ctrl c
  if !d.ctrls.contains c || !d.released || !d.bit (HS_LINK_STS_UP c) || k.en || k.rdy || k.resetting then d
  else
    (d.updCtrl c fun k => { k with en := true, crime := crime }).updHost fun h =>
      { h with
        sqs := (h.sqs.filter fun q => decide (q.ctrl < c)) ++ [{ ctrl := c, qid := 0, size := asq, cq := 0 }] ++
          (h.sqs.filter fun q => decide (c < q.ctrl))
        cqs := h.cqs ++ [{ ctrl := c, qid := 0, size := acq, vector := 0 }] }

def execCcEnSet (ctrl : Nat) (crime : Bool) (asq acq : Nat) (s : State) : Host.Outcome State Fault Refusal :=
  s.upd (ccEnSetEff ctrl crime asq acq)

/-- An erase that power failure cut short resumes from its last record (R69). -/
def Device.resumeErase (d : Device) : Device :=
  if d.host.erase ≠ .idle then d
  else
    let open_ := fun (r : EraseRec) => decide (r.state = 1 ∨ r.state = 4)
    if open_ d.hnor.sanitize then
      Device.updHost { d with hnor := { d.hnor with sanitize := { d.hnor.sanitize with state := 4, cycles := d.hnor.sanitize.cycles + 1 } } }
        fun h => { h with erase := .running, eraseFormat := false }
    else if open_ d.hnor.format then
      Device.updHost { d with hnor := { d.hnor with format := { d.hnor.format with state := 4, cycles := d.hnor.format.cycles + 1 } } }
        fun h => { h with erase := .running, eraseFormat := true }
    else d

/-- CONTROLLER_READY: CSTS.RDY once the spindle is at speed and the map rebuilt, or sooner with CRIME (R59). -/
def controllerReadyEff (c : Nat) (d : Device) : Device :=
  let k := d.ctrl c
  if k.en && !k.rdy && (k.crime || (d.atSpeed && d.mediumReady)) then (d.updCtrl c fun k => { k with rdy := true }).resumeErase else d

def execControllerReady (ctrl : Nat) (s : State) : Host.Outcome State Fault Refusal := s.upd (controllerReadyEff ctrl)

/-- CC_EN_CLEAR (R116). -/
def ccEnClearEff (c : Nat) (d : Device) : Device :=
  if (d.ctrl c).en then (d.controllerReset c).log 0 0x1007 [c] else d

def execCcEnClear (ctrl : Nat) (s : State) : Host.Outcome State Fault Refusal := s.upd (ccEnClearEff ctrl)

/-- CONTROLLER_RESET_DRAINED: every continuing unit and zone send of the controller has ended; CSTS.RDY reads 0 (R116). -/
def resetDrainedEff (c : Nat) (d : Device) : Device :=
  if (d.ctrl c).resetting && !(d.host.cmds.any fun x => x.id.ctrl == c && x.silent) then
    d.updCtrl c fun k => { k with rdy := false, resetting := false }
  else d

def execControllerResetDrained (ctrl : Nat) (s : State) : Host.Outcome State Fault Refusal := s.upd (resetDrainedEff ctrl)

/-- RDY_CLEAR_TIMEOUT: 100 ms after CC.EN was cleared CSTS.RDY reads 0; units still continuing run on (R116). -/
def rdyTimeoutEff (c : Nat) (d : Device) : Device :=
  if (d.ctrl c).resetting then d.updCtrl c fun k => { k with rdy := false, resetting := false } else d

def execRdyClearTimeout (ctrl : Nat) (s : State) : Host.Outcome State Fault Refusal := s.upd (rdyTimeoutEff ctrl)

/-- COALESCING_TIMEOUT: the aggregation time is reached and the held message is sent (R61). -/
def coalescingEff (c q : Nat) (d : Device) : Device :=
  match d.host.cqs.find? (fun x => x.ctrl == c && x.qid == q) with
  | none => d
  | some x =>
    if x.held = 0 then d
    else
      let d := d.updHost fun h => { h with cqs := h.cqs.map fun z => if z.ctrl == c && z.qid == q then { z with held := 0 } else z }
      if x.irq then d.emit (.msix c x.vector) else d

def execCoalescingTimeout (ctrl cq : Nat) (s : State) : Host.Outcome State Fault Refusal := s.upd (coalescingEff ctrl cq)

end Sys2Proof.Machine
end

