-- ==== Sys2Proof/Machine/LogPages.lean ====
section
/-!
DEFINITION. The log pages the device returns as bytes, at both levels, and Identify's values (R58, R63 to R66, R70, R72, R74 to R80).
-/
namespace Sys2Proof.Machine

/-- `n` zero bytes. -/
def zeros (n : Nat) : List Nat := List.replicate n 0

/-- A byte string cut or filled with zeros to `n` bytes. -/
def padTo (n : Nat) (bs : List Nat) : List Nat := (bs ++ zeros (n - bs.length)).take n

/-- A temperature in whole degrees in one byte, saturating (R79). -/
def tempByte (t : Int) : List Nat := bytesOf 1 (ofSigned 8 (clampI (-128) 127 t))

/-- A temperature in whole degrees in two bytes (R79). -/
def tempWord (t : Int) : List Nat := bytesOf 2 (ofSigned 16 t)

/-- A counter saturating at 32 bits. -/
def sat32 (n : Nat) : List Nat := bytesOf 4 (min n (2 ^ 32 - 1))

/-! ### 0xC0, the deferred-error log (R76) -/

def DefErr.bytes52 (e : DefErr) : List Nat :=
  bytesOf 4 e.nsid ++ bytesOf 1 (if e.delivered then 1 else 0) ++ bytesOf 1 e.lane ++ bytesOf 1 e.head ++ zeros 1 ++ bytesOf 8 e.lba ++
    bytesOf 4 e.n ++ bytesOf 4 e.stamp ++ bytesOf 8 e.chr

def DefErr.bytes41 (e : DefErr) : List Nat := bytesOf 4 e.nsid ++ bytesOf 2 (min e.n 65535) ++ zeros 2 ++ bytesOf 8 e.lba

def Device.logC0 (d : Device) : List Nat :=
  let es := d.hnor.deferred
  if d.level41 then bytesOf 4 es.length ++ zeros 12 ++ es.flatMap DefErr.bytes41
  else
    bytesOf 2 0x0052 ++ bytesOf 2 es.length ++ sat32 d.hnor.deferredTotal ++ bytesOf 8 ((es.getLast?.map (·.chr)).getD 0) ++ zeros 48 ++
      es.flatMap DefErr.bytes52

/-! ### 0xC1, usage meters (R77) -/

def meterBytes (nsid : Nat) (m : Meter) : List Nat :=
  bytesOf 4 nsid ++ zeros 4 ++ bytesOf 8 m.bytesRead ++ bytesOf 8 m.bytesWritten ++ bytesOf 8 m.busyUs ++ bytesOf 8 m.reads ++
    bytesOf 8 m.writes ++ bytesOf 8 m.others ++ zeros 8

def Device.logC1 (d : Device) : List Nat :=
  bytesOf 2 d.nsids.length ++ zeros 2 ++ bytesOf 4 d.usage.seq ++ bytesOf 8 (d.usage.seq * 60000000) ++ zeros 48 ++
    d.nsids.flatMap fun n => meterBytes n (Sparse.get (fun _ => {}) d.usage.meters n)

/-! ### 0xC2, the logbook extract (R78) -/

/-- The logbook's entries, newest first: those still pending, then those in NOR. -/
def Device.logNewest (d : Device) : List LogEntry :=
  let nor := d.nor.log.map (·.2)
  (sortEntries (nor ++ d.logbook.fifo)).reverse
where
  /-- Entries in ascending sequence. -/
  sortEntries (es : List LogEntry) : List LogEntry := es.foldl (fun acc e => put e acc) []
  /-- An entry put in its place. -/
  put (e : LogEntry) : List LogEntry → List LogEntry
    | [] => [e]
    | x :: t => if e.seq < x.seq then e :: x :: t else x :: put e t

def LogEntry.bytes41 (e : LogEntry) : List Nat :=
  bytesOf 2 e.code ++ bytesOf 1 e.severity ++ zeros 1 ++ bytesOf 4 e.seconds ++ padTo 24 (e.params.flatMap (bytesOf 4))

def Device.logC2 (d : Device) : List Nat :=
  let es := d.logNewest.take 1024
  bytesOf 4 es.length ++ bytesOf 4 ((es.head?.map (·.seq)).getD 0) ++ zeros 8 ++
    es.flatMap fun e => if d.level41 then e.bytes41 else e.bytes

/-! ### 0xC3, the thermal history (R79) -/

/-- The whole degrees of a diode code. -/
def wholeDeg (code : Nat) : Int := ((code / 16 : Nat) : Int) - 64

def throttleBytes (e : Nat × Nat × Nat × Nat) : List Nat :=
  let (start, ms, peak, step) := e
  bytesOf 8 start ++ sat32 ms ++ tempByte (wholeDeg peak) ++ bytesOf 1 step ++ tempWord (wholeDeg peak)

def Device.logC3 (d : Device) : List Nat :=
  let t := d.thermRec
  let hi := wholeDeg (t.highest.getD 0)
  let lo := wholeDeg (t.lowest.getD 0)
  if d.level41 then
    bytesOf 2 0x0041 ++ tempByte hi ++ zeros 1 ++ sat32 t.eventCount ++
      (List.range 15).flatMap fun b => sat32 (Sparse.cnt t.bins41 b / 60)
  else
    bytesOf 2 0x0052 ++ tempByte hi ++ tempByte lo ++ sat32 t.eventCount ++ sat32 t.shutdowns ++ tempWord hi ++ tempWord lo ++
      ((List.range 38).flatMap fun b => sat32 (Sparse.cnt t.bins52 b)) ++ padTo 256 (t.events.flatMap throttleBytes)

/-! ### 0xC4, progress records (R80) -/

def EraseRec.bytes (r : EraseRec) : List Nat :=
  bytesOf 1 r.state ++ bytesOf 1 r.action ++ zeros 2 ++ bytesOf 4 r.nsid ++ bytesOf 8 r.done ++ bytesOf 8 r.total ++ bytesOf 4 r.records ++
    bytesOf 2 r.cycles ++ zeros 2 ++ bytesOf 8 r.chr ++ zeros 24

/-- The firmware update's record: its stage, 4 KiB chunks staged (R80, R449). -/
def Device.updRecord (d : Device) : List Nat :=
  let r := d.brec
  let st := if r.stage = 0 then 0 else if r.stage = 8 then 2 else if r.stage = 9 then 3 else if d.boot.resumed ∧ r.stage ≤ 5 then 4 else 1
  padTo 64 (bytesOf 1 st ++ bytesOf 1 r.stage ++ zeros 2 ++ bytesOf 4 0xFFFFFFFF ++ bytesOf 8 d.nor.journal.length ++
    bytesOf 8 ((r.stagedLen + 4095) / 4096))

def Device.logC4 (d : Device) : List Nat := d.hnor.sanitize.bytes ++ d.hnor.format.bytes ++ d.updRecord

/-! ### 0x02, SMART / Health (R74) -/

/-- Vendor bytes 192 to 511 of the SMART log (R74). -/
def Device.smartVendor (d : Device) : List Nat :=
  let n := d.hnor
  padTo 320 (
    if d.level41 then bytesOf 2 0x0041 ++ sat32 n.spindleStarts ++ sat32 n.headLoads ++ sat32 n.relocated
    else bytesOf 2 0x0052 ++ zeros 6 ++ bytesOf 8 n.spindleStarts ++ bytesOf 8 n.headLoads ++ bytesOf 8 n.deferredTotal ++
      bytesOf 8 n.recovered ++ sat32 n.losses)

/-- Power-on hours (R397). -/
def Device.powerOnHours (d : Device) : Nat := d.chron.chr / 3600000000

/-- The composite temperature in kelvin: the highest junction reading (R74). -/
def Device.compositeK (d : Device) : Nat := (wholeDeg (d.rd RG_THSTAT_TMAX) + 273).toNat

/-- A thermistor's temperature in kelvin. -/
def Device.thermK (d : Device) (i : Nat) : Nat := (d.rdI (RG_THERM_DEGC i) + 273).toNat

/-- The values of the SMART log that R74 gives. -/
def Device.smartFields (d : Device) : List (String × Nat) :=
  [("CRITICAL", d.critical), ("TEMP", d.compositeK), ("TS1", d.thermK 0), ("TS2", d.thermK 1),
   ("USED", min 255 (d.powerOnHours * 100 / 87600)), ("POH", d.powerOnHours)]

/-! ### Pages by number (R60, R72, R75) -/

/-- A page's bytes, for the pages whose layout the spec gives. -/
def Device.pageBytes (d : Device) (lid : Nat) : Option (List Nat) :=
  match lid with
  | 0x02 => some d.smartVendor
  | 0xC0 => some d.logC0
  | 0xC1 => some d.logC1
  | 0xC2 => some d.logC2
  | 0xC3 => some d.logC3
  | 0xC4 => some d.logC4
  | _ => none

/-- What a page reports by name, for the pages NVMe lays out. -/
def Device.pageFields (d : Device) (c lid : Nat) : Option (List (String × Nat)) :=
  match lid with
  | 0x01 => some []
  | 0x02 => some d.smartFields
  | 0x03 => some [("AFI", 1), ("FRS1", d.boot.revision)]
  | 0x04 => some ((d.ctrl c).changed.map fun n => ("NSID", n))
  | 0x05 => some (adminOpcodes.map (fun o => ("ACS", o)) ++ [0x00, 0x01, 0x02, 0x08, 0x09, 0x0C, 0x0D, 0x0E, 0x11, 0x15, 0x79, 0x7A, 0x7D].map
      fun o => ("IOCS", o))
  | 0x80 => some []
  | 0x81 =>
    let r := d.hnor.sanitize
    some [("SPROG", if r.state = 2 ∨ r.total = 0 then 65535 else r.done * 65536 / r.total), ("SSTAT", r.state), ("SCDW10", r.action),
      ("ETO", 44000), ("ETBE", 44000), ("ETCE", 2)]
  | _ => none

/-- The page's NSID is one the page takes (R75). -/
def vendorNsidOk (lid nsid : Nat) : Bool := !(decide (0xC0 ≤ lid) && decide (lid ≤ 0xC4)) || nsid == 0 || nsid == 0xFFFFFFFF

/-- GET_LOG_PAGE's result on a controller: refused, or the device after the page has been sent (R60, R75). -/
def Device.getLog (d : Device) (id : Option CmdId) (c lid nsid lsp off len : Nat) : Option Device :=
  if !vendorNsidOk lid nsid ∨ off % 4 ≠ 0 then none
  else
    match d.pageFields c lid, d.pageBytes lid with
    | none, none => none
    | fs, bs =>
      let d := match fs with | none => d | some f => d.emit (.fields id f)
      let d := match bs with | none => d | some b => d.emit (.bytes id (padTo len (b.drop off)))
      let d := if lid = 4 then d.updCtrl c fun k => { k with changed := [] } else d
      some (if lid = 0xC0 ∧ lsp % 2 = 1 then { d with hnor := { d.hnor with deferred := [] } } else d)

/-! ### Identify (R58, R63 to R66, R70) -/

/-- A power-state descriptor's values (R70). -/
def Device.psFields (d : Device) (i : Nat) : List (String × Nat) :=
  let w := fun k => (d.word (CB_PSTATE k)).toNat
  [("MP", w (3 * i) % 65536), ("ENLAT", if i = 0 then 0 else w (3 * i + 1)), ("EXLAT", if i = 0 then 0 else w (3 * i + 2) + (if i = 4 then 2000 else 0)),
   ("NOPS", if i < 2 then 0 else 1)]

/-- Identify Controller's values (R52, R58, R70, R72). -/
def Device.identifyCtrl (d : Device) (c : Nat) : List (String × Nat) :=
  [("CNTLID", c + 1), ("CMIC", if d.twoPorts then 3 else 0), ("MDTS", 9), ("SQES", 0x66), ("CQES", 0x44), ("NN", d.rd CB_NSLIM_COUNT),
   ("SGLS", 0), ("VWC", 0), ("AWUN", 63), ("AWUPF", 63), ("ACWU", 0), ("FRMW", 3), ("NPSS", 4), ("APSTA", 1),
   ("WCTEMP", d.rd CB_THERM_WARN + 273), ("CCTEMP", d.rd CB_THERM_SHUTDOWN + 273), ("OAES", 0x300), ("ELPE", 63), ("KAS", 0), ("CRDT1", 100),
   ("ZASL", 0), ("FR", d.boot.revision)] ++ (List.range 5).flatMap d.psFields

/-- Controller properties (R58). -/
def ctrlProperties : List (String × Nat) :=
  [("CAP.MQES", 4095), ("CAP.CQR", 1), ("CAP.AMS", 0), ("CAP.TO", 60), ("CAP.MPSMIN", 0), ("CAP.MPSMAX", 0), ("CAP.NSSRS", 0),
   ("CAP.CRMS", 3), ("CRTO.CRWMT", 60), ("CRTO.CRIMT", 4)]

/-- Identify Namespace's values (R52, R63 to R66, R149). -/
def Device.identifyNs (d : Device) (x : Ns) : List (String × Nat) :=
  [("NSZE", x.blocks), ("NCAP", x.blocks), ("NSFEAT", 2), ("NLBAF", 2), ("FLBAS", x.fmt), ("DPS", x.pit + (if x.piFirst then 8 else 0)),
   ("NMIC", if d.twoPorts then 1 else 0), ("NAWUN", 63), ("NAWUPF", 63), ("DLFEAT", 9)] ++
    (if x.zoned then [("ZSZE", 65536), ("MAR", d.activeLimit - 1), ("MOR", d.activeLimit - 1), ("ZDES", 0), ("VZCAP", 1), ("RAZB", 1)] else [])

/-- Identify's answer by CNS; none where the field is refused. -/
def Device.identify (d : Device) (c cns nsid : Nat) : Except Status (List (String × Nat)) :=
  match cns with
  | 0x00 | 0x05 =>
    match d.attachedNs c nsid with
    | some x => .ok (d.identifyNs x)
    | none => if nsid = 0 ∨ d.rd CB_NSLIM_COUNT < nsid then .error .invalidNs else .ok []
  | 0x11 =>
    match d.ns nsid with
    | some x => .ok (d.identifyNs x)
    | none => if nsid = 0 ∨ d.rd CB_NSLIM_COUNT < nsid then .error .invalidNs else .ok []
  | 0x01 | 0x06 => .ok (d.identifyCtrl c ++ ctrlProperties)
  | 0x02 => .ok ((d.nsids.filter fun n => nsid < n ∧ (d.attachedNs c n).isSome = true).map fun n => ("NSID", n))
  | 0x10 => .ok ((d.nsids.filter fun n => nsid < n).map fun n => ("NSID", n))
  | _ => .error .invalidField

end Sys2Proof.Machine
end

