-- ==== Sys2Proof/Machine/Admin.lean ====
section
/-!
DEFINITION. The admin commands, Format NVM and Sanitize, namespace management (R52, R58, R60, R61, R63, R65, R67 to R75, R117, R118, R120,
R156, R369, R396).
-/
namespace Sys2Proof.Machine

/-! ### Queues (R58, R60, R61, R117) -/

/-- The queue with `q` put in its place by controller and number. -/
def insertSq (q : SubQ) : List SubQ → List SubQ
  | [] => [q]
  | x :: t => if q.ctrl < x.ctrl ∨ (q.ctrl = x.ctrl ∧ q.qid < x.qid) then q :: x :: t else x :: insertSq q t

/-- A queue's number and size are refused. -/
def Device.badQueue (d : Device) (qid size : Nat) (pc taken : Bool) : Option Status :=
  if qid = 0 ∨ d.queuePairs < qid ∨ taken = true then some .invalidQueueId
  else if size < 2 ∨ 4096 < size then some .invalidQueueSize
  else if pc = false then some .invalidField
  else none

/-- CREATE_IO_SQ: queues must be physically contiguous (R58). -/
def createSqEff (id : CmdId) (qid size cqid : Nat) (pc : Bool) (d : Device) : Device :=
  d.onAdmin id 0x01 fun d =>
    match d.badQueue qid size pc (d.host.sqs.any fun q => q.ctrl == id.ctrl && q.qid == qid) with
    | some st => d.adminDone id st
    | none =>
      if cqid = 0 ∨ (d.host.cqs.any fun q => q.ctrl == id.ctrl && q.qid == cqid) = false then d.adminDone id .cqInvalid
      else
        (d.updHost fun h => { h with sqs := insertSq { ctrl := id.ctrl, qid := qid, size := size, cq := cqid } h.sqs }).adminDone id .success

def execCreateIoSq (id : CmdId) (qid size cqid : Nat) (pc : Bool) (s : State) : Host.Outcome State Fault Refusal :=
  s.upd (createSqEff id qid size cqid pc)

/-- CREATE_IO_CQ: a vector beyond the controller's count is refused (R61). -/
def createCqEff (id : CmdId) (qid size vector : Nat) (pc ien : Bool) (d : Device) : Device :=
  d.onAdmin id 0x05 fun d =>
    match d.badQueue qid size pc (d.host.cqs.any fun q => q.ctrl == id.ctrl && q.qid == qid) with
    | some st => d.adminDone id st
    | none =>
      if d.vectors ≤ vector then d.adminDone id .invalidVector
      else
        (d.updHost fun h => { h with cqs := h.cqs ++ [{ ctrl := id.ctrl, qid := qid, size := size, vector := vector, irq := ien }] }).adminDone
          id .success

def execCreateIoCq (id : CmdId) (qid size vector : Nat) (pc ien : Bool) (s : State) : Host.Outcome State Fault Refusal :=
  s.upd (createCqEff id qid size vector pc ien)

/-- Commands fetched from a queue and not yet ended. -/
def Device.fromQueue (d : Device) (c q : Nat) : List Nat := (d.host.cmds.filter fun x => x.id.ctrl == c && x.id.sq == q).map (·.no)

/-- DELETE_IO_SQ: the queue's commands are aborted (R117). -/
def deleteSqEff (id : CmdId) (qid : Nat) (d : Device) : Device :=
  d.onAdmin id 0x00 fun d =>
    if qid = 0 ∨ (d.host.sqs.any fun q => q.ctrl == id.ctrl && q.qid == qid) = false then d.adminDone id .invalidQueueId
    else
      let d := d.updHost fun h => { h with sqs := h.sqs.map fun q => if q.ctrl == id.ctrl && q.qid == qid then { q with deleting := true } else q }
      let d := d.updCtrl id.ctrl fun k => { k with admin := k.admin.map fun a => if a.id == id then { a with wait := some qid } else a }
      ((d.fromQueue id.ctrl qid).foldl (fun d n => d.abortCmd n .abortedSq) d).settle

def execDeleteIoSq (id : CmdId) (qid : Nat) (s : State) : Host.Outcome State Fault Refusal := s.upd (deleteSqEff id qid)

/-- DELETE_SQ_COMPLETE: after every command fetched from the queue has completed (R117). -/
def deleteSqDoneEff (id : CmdId) (d : Device) : Device :=
  match (d.adminCmd id 0x00).bind (·.wait) with
  | none => d
  | some q =>
    if !(d.fromQueue id.ctrl q).isEmpty then d
    else (d.updHost fun h => { h with sqs := h.sqs.filter fun x => !(x.ctrl == id.ctrl && x.qid == q) }).adminDone id .success

def execDeleteSqComplete (id : CmdId) (s : State) : Host.Outcome State Fault Refusal := s.upd (deleteSqDoneEff id)

/-- DELETE_IO_CQ: not while a submission queue names it (R60, NVMe). -/
def deleteCqEff (id : CmdId) (qid : Nat) (d : Device) : Device :=
  d.onAdmin id 0x04 fun d =>
    if qid = 0 ∨ (d.host.cqs.any fun q => q.ctrl == id.ctrl && q.qid == qid) = false then d.adminDone id .invalidQueueId
    else if d.host.sqs.any fun q => q.ctrl == id.ctrl && q.cq == qid then d.adminDone id .queueDeletion
    else (d.updHost fun h => { h with cqs := h.cqs.filter fun x => !(x.ctrl == id.ctrl && x.qid == qid) }).adminDone id .success

def execDeleteIoCq (id : CmdId) (qid : Nat) (s : State) : Host.Outcome State Fault Refusal := s.upd (deleteCqEff id qid)

/-! ### Get Log Page, Identify, Abort -/

/-- GET_LOG_PAGE (R60, R75). -/
def getLogEff (id : CmdId) (lid nsid lsp off len : Nat) (d : Device) : Device :=
  d.onAdmin id 0x02 fun d =>
    match d.getLog (some id) id.ctrl lid nsid lsp off len with
    | none => d.adminDone id .invalidField
    | some d => d.adminDone id .success

def execGetLogPage (id : CmdId) (lid nsid lsp off len : Nat) (s : State) : Host.Outcome State Fault Refusal :=
  s.upd (getLogEff id lid nsid lsp off len)

/-- IDENTIFY (R58). -/
def identifyEff (id : CmdId) (cns nsid : Nat) (d : Device) : Device :=
  d.onAdmin id 0x06 fun d =>
    match d.identify id.ctrl cns nsid with
    | .error st => d.adminDone id st
    | .ok fs => (d.emit (.fields (some id) fs)).adminDone id .success

def execIdentify (id : CmdId) (cns nsid : Nat) (s : State) : Host.Outcome State Fault Refusal := s.upd (identifyEff id cns nsid)

/-- A command an Abort can stop: a read not completed, or a write none of whose units has begun its medium write (R118). -/
def Cmd.abortable (c : Cmd) : Bool :=
  match c.op with
  | .read .. => true
  | .verify .. => true
  | .write .. | .zoneAppend .. => c.units.all fun u => u.st == .waiting || u.st == .pulling || u.st == .pulled || u.st == .old
  | .writeZeroes .. => !c.units.isEmpty && c.units.all fun u => u.st == .waiting || u.st == .pulling || u.st == .pulled || u.st == .old
  | _ => false

/-- ABORT: DW0 bit 0 says whether the target went on (R118). -/
def abortEff (id : CmdId) (sq cid : Nat) (d : Device) : Device :=
  d.onAdmin id 0x08 fun d =>
    match (d.cmd ⟨id.ctrl, sq, cid⟩).filter (·.abortable) with
    | none => d.adminDone id .success 1
    | some c => ((d.abortCmd c.no .abortRequested).settle).adminDone id .success 0

def execAbort (id : CmdId) (sq cid : Nat) (s : State) : Host.Outcome State Fault Refusal := s.upd (abortEff id sq cid)

/-! ### Features (R60, R70, R71, R73, R396, R412) -/

/-- The features of R60. -/
def featureIds : List Nat := [0x01, 0x02, 0x04, 0x05, 0x07, 0x08, 0x09, 0x0A, 0x0B, 0x0C, 0x0E, 0x81, 0x82]

/-- DW0 of Number of Queues. -/
def Device.queueCounts (d : Device) : Nat := (d.queuePairs - 1) * 65537

/-- The Temperature Threshold of a sensor and kind, in kelvin: as set, or R412's after a controller reset. -/
def Device.tempThreshold (d : Device) (c sensor kind : Nat) : Nat :=
  match d.feat c 4 (sensor + 16 * kind) with
  | 0 => if kind = 1 then 0 else if sensor = 0 then d.rd CB_THERM_WARN + 273 else 0xFFFF
  | v + 1 => v

/-- SET_FEATURES (R60, R70, R71, R396). -/
def setFeaturesEff (id : CmdId) (fid nsid dw11 data : Nat) (table : List (Nat × (Nat × Nat))) (d : Device) : Device :=
  d.onAdmin id 0x09 fun d =>
    let c := id.ctrl
    let store := fun (sel v : Nat) => (d.setFeat c fid sel v).adminDone id .success
    if !featureIds.contains fid then d.adminDone id .invalidField
    else
      match fid with
      | 0x02 =>
        let p := dw11 % 32
        if 4 < p then d.adminDone id .invalidField
        else (d.updHost fun h => { h with ps := p, psOper := if p ≤ 1 then p else h.psOper }).adminDone id .success
      | 0x04 =>
        let sensor := dw11 / 65536 % 16
        let kind := dw11 / 1048576 % 4
        if 2 < sensor ∨ 1 < kind then d.adminDone id .invalidField
        else store (sensor + 16 * kind) (dw11 % 65536 + 1)
      | 0x05 => if dw11.testBit 16 then d.adminDone id .invalidField else store nsid (dw11 % 65536)
      | 0x07 =>
        if d.host.sqs.any fun q => q.ctrl == c && q.qid != 0 then d.adminDone id .sequenceError
        else d.adminDone id .success d.queueCounts
      | 0x09 => if d.vectors ≤ dw11 % 65536 then d.adminDone id .invalidField else store (dw11 % 65536) dw11
      | 0x0C => (d.updCtrl c fun k => { k with apste := dw11.testBit 0, apst := some table }).adminDone id .success
      | 0x0E => (d.setAnchor (data % 2 ^ 48)).adminDone id .success
      | 0x81 => store nsid dw11
      | 0x82 => ((d.setFeat c fid nsid dw11).updNs nsid fun x => { x with res := { x.res with ptpl := dw11.testBit 0 } }).adminDone id .success
      | _ => store 0 dw11

def execSetFeatures (id : CmdId) (fid nsid dw11 data : Nat) (table : List (Nat × (Nat × Nat))) (s : State) :
    Host.Outcome State Fault Refusal :=
  s.upd (setFeaturesEff id fid nsid dw11 data table)

/-- The default APST table (R71): state, idle milliseconds, next state. -/
def defaultApst : List (Nat × (Nat × Nat)) := [(0, (100, 1)), (1, (300000, 2))]

/-- The APST table in force on a controller. -/
def Device.apstTable (d : Device) (c : Nat) : List (Nat × (Nat × Nat)) := (d.ctrl c).apst.getD defaultApst

/-- A feature's value on a controller, and what it reports beside (R60, R70, R396). -/
def Device.getFeature (d : Device) (c fid nsid dw11 : Nat) : Nat × List (String × Nat) :=
  match fid with
  | 0x02 => (d.host.ps, [])
  | 0x04 => (d.tempThreshold c (dw11 / 65536 % 16) (dw11 / 1048576 % 4), [])
  | 0x05 => (d.feat c fid nsid, [])
  | 0x07 => (d.queueCounts, [])
  | 0x09 => (d.feat c fid (dw11 % 65536), [])
  | 0x0C => ((if (d.ctrl c).apste then 1 else 0), (d.apstTable c).flatMap fun e => [("ITPS_FROM", e.1), ("ITPT", e.2.1), ("ITPS", e.2.2)])
  | 0x0E => (0, [("MS", d.hostMs), ("ORIGIN", if d.chron.anchor.isSome then 1 else 0), ("SYNCH", 0)])
  | 0x81 => (d.feat c fid nsid, [])
  | 0x82 => ((match d.ns nsid with | some x => if x.res.ptpl then 1 else 0 | none => 0), [])
  | _ => (d.feat c fid 0, [])

/-- GET_FEATURES. -/
def getFeaturesEff (id : CmdId) (fid nsid dw11 : Nat) (d : Device) : Device :=
  d.onAdmin id 0x0A fun d =>
    if !featureIds.contains fid then d.adminDone id .invalidField
    else
      let (v, fs) := d.getFeature id.ctrl fid nsid dw11
      (if fs.isEmpty then d else d.emit (.fields (some id) fs)).adminDone id .success v

def execGetFeatures (id : CmdId) (fid nsid dw11 : Nat) (s : State) : Host.Outcome State Fault Refusal :=
  s.upd (getFeaturesEff id fid nsid dw11)

/-- ASYNC_EVENT_REQUEST: stands until an enabled event is posted; one that already waits is posted at once (R73). -/
def aerEff (id : CmdId) (d : Device) : Device :=
  d.onAdmin id 0x0C fun d =>
    match (d.ctrl id.ctrl).aens with
    | [] => (d.dropAdmin id).updCtrl id.ctrl fun k => { k with aers := k.aers ++ [id] }
    | a :: rest => (d.updCtrl id.ctrl fun k => { k with aens := rest }).adminDone id .success (a.typ + 256 * a.info + 65536 * a.page)

def execAsyncEventRequest (id : CmdId) (s : State) : Host.Outcome State Fault Refusal := s.upd (aerEff id)

/-! ### Namespaces (R52, R65, R120, R369) -/

/-- A namespace changed: noted for log 0x04 and announced where enabled (R73). -/
def Device.nsChanged (d : Device) (n : Nat) : Device :=
  (d.ctrls.foldl (fun d c => d.updCtrl c fun k => { k with changed := if k.changed.contains n then k.changed else k.changed ++ [n] }) d).postAen
    0x100 ⟨2, 0, 4⟩

/-- Allocation units not allocated (R65). -/
def Device.freeUnits (d : Device) : Nat :=
  d.medium.capacity - (d.hnor.nss.map fun p => p.2.blocks / 65536).foldl (· + ·) 0

/-- The lowest NSID not in use. -/
def Device.nextNsid (d : Device) : Nat :=
  (((List.range (d.nsids.length + 1)).map (· + 1)).find? fun n => (d.ns n).isNone).getD 1

/-- The highest key epoch of an NSID recorded, in NOR and with the Oprok core (R65, R369). -/
def Device.recordEpoch (d : Device) (n e : Nat) : Device :=
  { d with
    hnor := { d.hnor with epochs := Sparse.ins d.hnor.epochs n e }
    keys := { d.keys with lowest := Sparse.setCnt d.keys.lowest n e } }

/-- NAMESPACE_CREATE (R63, R65). -/
def nsCreateEff (id : CmdId) (zoned : Bool) (fmt pit : Nat) (piFirst : Bool) (blocks : Nat) (d : Device) : Device :=
  d.onAdmin id 0x0D fun d =>
    let units := (blocks + 65535) / 65536
    let zonedCount := (d.hnor.nss.filter fun p => p.2.zoned).length
    if 2 < fmt ∨ 3 < pit ∨ (fmt = 0 ∧ pit ≠ 0) ∨ blocks = 0 then d.adminDone id .invalidField
    else if d.rd CB_NSLIM_COUNT < d.nsids.length + 1 ∨ (zoned = true ∧ d.rd CB_NSLIM_ZONED < zonedCount + 1) then d.adminDone id .nsIdUnavailable
    else if d.freeUnits < units then d.adminDone id .nsCapacity
    else
      let n := d.nextNsid
      let epoch := match Sparse.find d.hnor.epochs n with | some e => e + 1 | none => 0
      let d := d.setNs n { zoned := zoned, fmt := fmt, pit := pit, piFirst := piFirst, blocks := 65536 * units, epoch := epoch }
      let d := d.recordEpoch n epoch
      let d := (d.queueSeq fun s => .nsEvent s n 1 epoch).flushJournal
      let d := d.updHost fun h => { h with stamps := Sparse.setCnt h.stamps n 0 }
      (d.nsChanged n).adminDone id .success n

def execNamespaceCreate (id : CmdId) (zoned : Bool) (fmt pit : Nat) (piFirst : Bool) (blocks : Nat) (s : State) :
    Host.Outcome State Fault Refusal :=
  s.upd (nsCreateEff id zoned fmt pit piFirst blocks)

/-- Commands of a namespace, or of any with 0xFFFFFFFF, fetched and not completed (R120). -/
def Device.nsBusy (d : Device) (n : Nat) : Bool := d.host.cmds.any fun c => n == 0xFFFFFFFF || c.nsid == n || c.nsid == 0xFFFFFFFF

/-- The bands that an emptied namespace's zones held are given up; what verification waited for stops (R148, R154). -/
def Device.dropZoneBands (d : Device) (n : Nat) : Device :=
  ((d.host.tables.bands.filter fun p => p.2.nsid == n && p.2.st != .freeing).map (·.1)).foldl Device.giveUpBand d

/-- NAMESPACE_DELETE: once every fetched command to it has completed, its key slot is erased, its blocks and bands go, its meters and its
deferred-error mark are dropped (R65, R77, R113, R120, R369). A retiring slot is tried again. -/
def nsDeleteEff (id : CmdId) (n : Nat) (d : Device) : Device :=
  d.onAdmin id 0x0D fun d =>
    match d.ns n with
    | none => d.adminDone id .invalidNs
    | some x =>
      if d.nsBusy n then d
      else
        let (code, d) := match d.mapped n with | none => (0, d) | some s => d.keyErase s
        if code = 2 then d
        else
          let d := (d.queueSeq fun s => .nsEvent s n 2 x.epoch)
          let d := ((d.dropZoneBands n).flushJournal).updTables fun t => t.emptyNs n
          let d := d.recordEpoch n (max x.epoch ((Sparse.find d.hnor.epochs n).getD 0))
          let d : Device := { d with
            hnor := { d.hnor with nss := Sparse.del d.hnor.nss n }
            keys := { d.keys with blobs := Sparse.del d.keys.blobs n }
            meters := Sparse.del d.meters n }
          ((d.nsChanged n).adminDone id .success).reclaimAll

def execNamespaceDelete (id : CmdId) (nsid : Nat) (s : State) : Host.Outcome State Fault Refusal := s.upd (nsDeleteEff id nsid)

/-- The attachment mask of a controller list; none where a controller does not exist. -/
def Device.ctrlMask (d : Device) (cs : List Nat) : Option Nat :=
  if cs.isEmpty ∨ cs.any (fun c => c = 0 ∨ d.ctrls.length < c) = true then none
  else some (cs.foldl (fun m c => m ||| 2 ^ (c - 1)) 0)

/-- NAMESPACE_ATTACH, by CNTLIDs (R52). -/
def nsAttachEff (id : CmdId) (n : Nat) (cs : List Nat) (d : Device) : Device :=
  d.onAdmin id 0x15 fun d =>
    match d.ns n, d.ctrlMask cs with
    | none, _ => d.adminDone id .invalidNs
    | _, none => d.adminDone id .ctrlListInvalid
    | some x, some m =>
      if x.attached &&& m ≠ 0 then d.adminDone id .nsAttached
      else ((d.setNs n { x with attached := x.attached ||| m }).nsChanged n).adminDone id .success

def execNamespaceAttach (id : CmdId) (nsid : Nat) (ctrls : List Nat) (s : State) : Host.Outcome State Fault Refusal :=
  s.upd (nsAttachEff id nsid ctrls)

/-- NAMESPACE_DETACH, once its commands have completed (R52, R120). -/
def nsDetachEff (id : CmdId) (n : Nat) (cs : List Nat) (d : Device) : Device :=
  d.onAdmin id 0x15 fun d =>
    match d.ns n, d.ctrlMask cs with
    | none, _ => d.adminDone id .invalidNs
    | _, none => d.adminDone id .ctrlListInvalid
    | some x, some m =>
      if x.attached &&& m ≠ m then d.adminDone id .nsNotAttached
      else if d.nsBusy n then d
      else ((d.setNs n { x with attached := x.attached - m }).nsChanged n).adminDone id .success

def execNamespaceDetach (id : CmdId) (nsid : Nat) (ctrls : List Nat) (s : State) : Host.Outcome State Fault Refusal :=
  s.upd (nsDetachEff id nsid ctrls)

/-! ### Format NVM and Sanitize (R67 to R69, R120, R156, R369) -/

/-- An erase accepted: it waits for the fetched commands of the namespaces it affects (R68, R120). -/
def Device.beginErase (d : Device) (id : CmdId) (format : Bool) (r : EraseRec) : Device :=
  if d.host.erase ≠ .idle then d.adminDone id (if d.host.eraseFormat then .sequenceError else .sanitizeInProgress)
  else
    let d := d.updHost fun h => { h with erase := .waiting, eraseFormat := format, eraseId := some id }
    if format then { d with hnor := { d.hnor with format := r } } else { d with hnor := { d.hnor with sanitize := r } }

/-- Bytes of a namespace, or of all. -/
def Device.nsBytes (d : Device) (n : Nat) : Nat :=
  ((d.hnor.nss.filter fun p => n == 0xFFFFFFFF || p.1 == n).map fun p => 4096 * p.2.blocks).foldl (· + ·) 0

/-- FORMAT_NVM (R63, R67). -/
def formatEff (id : CmdId) (n fmt ses pit : Nat) (piFirst : Bool) (d : Device) : Device :=
  d.onAdmin id 0x80 fun d =>
    if 2 < fmt ∨ 2 < ses ∨ 3 < pit ∨ (fmt = 0 ∧ pit ≠ 0) then d.adminDone id .invalidField
    else if n ≠ 0xFFFFFFFF ∧ (d.ns n).isNone = true then d.adminDone id .invalidNs
    else d.beginErase id true { action := ses, nsid := n, total := d.nsBytes n, fmt := fmt, pit := pit, piFirst := piFirst }

def execFormatNvm (id : CmdId) (nsid fmt ses pit : Nat) (piFirst : Bool) (s : State) : Host.Outcome State Fault Refusal :=
  s.upd (formatEff id nsid fmt ses pit piFirst)

/-- The Sanitize actions as NVMe numbers them: 2 Block Erase, 3 Overwrite, 4 Crypto Erase. -/
def sanitizeEff (id : CmdId) (r : EraseRec) (d : Device) : Device :=
  d.onAdmin id 0x84 fun d => d.beginErase id false { r with nsid := 0xFFFFFFFF, total := d.nsBytes 0xFFFFFFFF * max 1 r.passes }

def execSanitizeCryptoErase (id : CmdId) (s : State) : Host.Outcome State Fault Refusal := s.upd (sanitizeEff id { action := 4 })
def execSanitizeBlockErase (id : CmdId) (s : State) : Host.Outcome State Fault Refusal := s.upd (sanitizeEff id { action := 2 })

/-- SANITIZE_OVERWRITE: 1 to 16 passes, a count of 0 meaning 16 (R67, NVMe). -/
def execSanitizeOverwrite (id : CmdId) (passes pattern : Nat) (invert ndas : Bool) (s : State) : Host.Outcome State Fault Refusal :=
  s.upd fun d =>
    if 15 < passes then d.onAdmin id 0x84 fun d => d.adminDone id .invalidField
    else sanitizeEff id { action := 3, passes := if passes = 0 then 16 else passes, pattern := pattern % 2 ^ 32, invert := invert, ndas := ndas } d

/-- The erase in hand. -/
def Device.eraseRec (d : Device) : EraseRec := if d.host.eraseFormat then d.hnor.format else d.hnor.sanitize

/-- The device with the erase's record changed. -/
def Device.updErase (d : Device) (f : EraseRec → EraseRec) : Device :=
  if d.host.eraseFormat then { d with hnor := { d.hnor with format := f d.hnor.format } }
  else { d with hnor := { d.hnor with sanitize := f d.hnor.sanitize } }

/-- Namespaces the erase affects. -/
def Device.erased (d : Device) : List Nat := d.nsids.filter fun n => d.eraseRec.nsid == 0xFFFFFFFF || d.eraseRec.nsid == n

/-- The erase advances key epochs (R156). -/
def Device.eraseCrypto (d : Device) : Bool := d.eraseRec.action == (if d.host.eraseFormat then 2 else 4)

/-- A namespace's key replaced with the next epoch (R369): the code of GENERATE, and the device. -/
def Device.advanceKey (d : Device) (n : Nat) : Nat × Device :=
  match d.ns n with
  | none => (0, d)
  | some x =>
    let e := x.epoch + 1
    let (code, d) := match d.mapped n with | none => (0, d) | some s => d.keyGenerate s n e (d.slot s).tenant
    if code = 2 then (2, d)
    else (code, ((d.setNs n { x with epoch := e }).recordEpoch n e).queueSeq fun s => .nsEvent s n 3 e)

/-- FORMAT_SANITIZE_START: every fetched command to the affected namespaces has completed. The namespace-event records go to the journal
before any band is touched; a crypto erase replaces the keys, and with a retiring slot completes with status 0x82 (R120, R156, R369).
Deferred-error marks clear (R113). A Sanitize command completes here, a Format NVM when it is done. -/
def eraseStartEff (d : Device) : Device :=
  if d.host.erase ≠ .waiting ∨ d.nsBusy d.eraseRec.nsid = true then d
  else
    let ns := d.erased
    let retiring := d.eraseCrypto && ns.any fun n => match d.mapped n with | some s => (d.slot s).st == .retiring | none => false
    if retiring then
      let id := d.host.eraseId
      let d := d.updHost fun h => { h with erase := .idle, eraseId := none }
      match id with | some id => d.adminDone id .keyRetiring | none => d
    else
      let crypto := d.eraseCrypto
      let d := ns.foldl (fun d n =>
        let d := d.updNs n fun x => { x with deferred := false }
        if crypto then (d.advanceKey n).2
        else d.queueSeq fun s => .nsEvent s n 4 ((d.ns n).getD {}).epoch) d
      let d := d.flushJournal
      let d := (d.updErase fun r => { r with state := 1 }).updHost fun h => { h with erase := .running }
      if d.host.eraseFormat then d
      else match d.host.eraseId with | some id => d.adminDone id .success | none => d

def execFormatSanitizeStart (s : State) : Host.Outcome State Fault Refusal := s.upd eraseStartEff

/-- PROGRESS_RECORD: after each 1 GiB or 10 s (R69, R80). -/
def progressEff (done : Nat) (d : Device) : Device :=
  if d.host.erase ≠ .running then d
  else d.updErase fun r => { r with done := min done r.total, records := r.records + 1, chr := d.chron.chr }

def execProgressRecord (done : Nat) (s : State) : Host.Outcome State Fault Refusal := s.upd (progressEff done)

/-- The pattern of the last pass: inverted in every other pass where asked for (R67, NVMe). -/
def EraseRec.lastPattern (r : EraseRec) : Nat := if r.invert ∧ r.passes % 2 = 0 then 2 ^ 32 - 1 - r.pattern % 2 ^ 32 else r.pattern % 2 ^ 32

/-- What a finished erase leaves of a namespace (R156). -/
def Device.eraseNs (d : Device) (n : Nat) : Device :=
  let r := d.eraseRec
  let d := (d.dropZoneBands n).updTables fun t => t.emptyNs n
  let d := if d.host.eraseFormat then d.updNs n fun x => { x with fmt := r.fmt, pit := r.pit, piFirst := r.piFirst } else d
  if r.action = 3 ∧ d.host.eraseFormat = false ∧ r.ndas = true then
    d.updTables fun t => t.mapRange n 0 ((d.ns n).getD {}).blocks fun _ _ => .fill r.lastPattern
  else d

/-- ERASE_OPERATION_COMPLETE: with the namespace-event records committed the map and bands are emptied, and the record shows complete; or it
shows failed (R69, R80, R156). A Format NVM completes. -/
def eraseDoneEff (ok : Bool) (d : Device) : Device :=
  let waiting := (d.host.jpend ++ d.host.jflight.flatten).any fun p => match p.rec_ with | .nsEvent .. => true | _ => false
  if d.host.erase ≠ .running ∨ (ok = true ∧ waiting = true) then d
  else
    let d := if ok then d.erased.foldl Device.eraseNs d else d
    let d := d.updErase fun r => { r with state := if ok then 2 else 3, done := if ok then r.total else r.done, chr := d.chron.chr }
    let fmt := d.host.eraseFormat
    let id := d.host.eraseId
    let d := d.updHost fun h => { h with erase := .idle, eraseId := none }
    let d := match fmt, id with | true, some i => d.onAdmin i 0x80 fun d => d.adminDone i (if ok then .success else .internal) | _, _ => d
    (d.flushJournal).reclaimAll

def execEraseOperationComplete (ok : Bool) (s : State) : Host.Outcome State Fault Refusal := s.upd (eraseDoneEff ok)

end Sys2Proof.Machine
end

