-- ==== Sys2Proof/Machine/BalanceOps.lean ====
section
/-!
DEFINITION. The balance engine: arithmetic, registers, fetch, the bank check and exchange, the power-stage frame and XOUT that a lane's
outputs start (R247 to R256, R265).
-/
namespace Sys2Proof.Machine

/-! ### Arithmetic (R249) -/

def qMax : Int := 2 ^ 31 - 1
def qMin : Int := -2 ^ 31
def accMax : Int := 2 ^ 63 - 1
def accMin : Int := -2 ^ 63

/-- A value held to Q1.31, with whether it saturated (R249). -/
def satQ (x : Int) : Int × Bool := (clampI qMin qMax x, decide (x < qMin) || decide (qMax < x))

/-- A value held to an accumulator's range (R249). -/
def satA (x : Int) : Int × Bool := (clampI accMin accMax x, decide (x < accMin) || decide (accMax < x))

/-- A value in units of 2^-n of the result's LSB, rounded: half an LSB added, then the floor (R249). -/
def roundTo (n : Nat) (x : Int) : Int := if n = 0 then x else (x + 2 ^ (n - 1)) / 2 ^ n

/-! ### Registers and coefficients (R247, R250) -/

/-- An operand read: S0 to S31, T0 to T15, Z (R250). -/
def Device.beReg (d : Device) (e : BEng) (r : BeRun) (i : Nat) : Int :=
  if i < 32 then d.rdI (BE_S_S e i) else if i < 48 then r.t.getD (i - 32) 0 else 0

/-- A destination written; Z is no destination (R250, R253). -/
def Device.beSet (d : Device) (e : BEng) (i : Nat) (v : Int) : Device :=
  if i < 32 then d.wrI (BE_S_S e i) v
  else if i < 48 then d.updBe e fun b => { b with run := b.run.map fun r => { r with t := r.t.set (i - 32) v } }
  else d

/-- The active bank: 0 A, 1 B. -/
def Device.beBank (d : Device) (e : BEng) : Bool := d.bit (BE_STATUS_BANK e)

/-- A coefficient of a bank (R247, R269). -/
def Device.beCoef (d : Device) (e : BEng) (bank : Bool) (c : Nat) : Int :=
  if bank then d.rdI (BE_COEFB_C e c) else d.rdI (BE_COEFA_C e c)

/-- A program word of a bank's slot (R247, R269). -/
def Device.beWord (d : Device) (e : BEng) (bank : Bool) (slot pc : Nat) : Nat :=
  if bank then d.rd (BE_PROGB_P e (1024 * slot + pc)) else d.rd (BE_PROGA_P e (1024 * slot + pc))

/-- An opcode. -/
def beOp (w : Nat) : Nat := bitsOf w 26 6

/-- The cycles of an instruction (R250). -/
def beCost (w : Nat) : Nat :=
  match beOp w with
  | 0x0D => 2
  | 0x0E => 3
  | 0x0F => 5
  | _ => 1

/-! ### The bank check (R253) -/

/-- A slot's words up to and including its first END, at most 1,024; whether there is an END. -/
def Device.slotWords (d : Device) (e : BEng) (bank : Bool) (slot : Nat) : Nat → Nat → List Nat
  | 0, _ => []
  | fuel + 1, pc =>
    let w := d.beWord e bank slot pc
    if beOp w = 0x3F then [w] else w :: d.slotWords e bank slot fuel (pc + 1)

/-- A source index names a register; a destination index one that is not Z. -/
def okSrc (i : Nat) : Bool := decide (i ≤ 0x30)
def okDst (i : Nat) : Bool := decide (i < 0x30)

/-- Check 0x01 for one word. -/
def wordDefined (w : Nat) : Bool :=
  let f := bitsOf w
  match beOp w with
  | 0x00 => true
  | 0x01 => okSrc (f 18 6)
  | 0x02 => okSrc (f 18 6)
  | 0x03 => okSrc (f 18 6)
  | 0x04 => okDst (f 18 6)
  | 0x05 => okDst (f 18 6) && okSrc (f 12 6) && okSrc (f 6 6)
  | 0x06 => okDst (f 18 6) && okSrc (f 12 6) && okSrc (f 6 6)
  | 0x07 => okDst (f 18 6) && okSrc (f 12 6)
  | 0x08 => okDst (f 18 6) && okSrc (f 12 6)
  | 0x09 => okDst (f 18 6) && okSrc (f 12 6) && okSrc (f 6 6)
  | 0x0A => okDst (f 18 6) && okSrc (f 12 6) && okSrc (f 6 6) && okSrc (f 0 6)
  | 0x0B => okDst (f 18 6)
  | 0x0C => okSrc (f 12 6) && decide (f 0 5 ≤ 4)
  | 0x0D => okDst (f 18 6) && okSrc (f 12 6)
  | 0x0E => decide (f 18 6 < 32) && okSrc (f 12 6) && decide (f 3 9 + 1 ≤ 511)
  | 0x0F => decide (f 21 5 + 1 ≤ 31) && okDst (f 15 6) && okSrc (f 9 6) && decide (f 0 9 + 4 ≤ 511)
  | 0x3F => true
  | _ => false

/-- The start cycles of the OUT instructions to a port. -/
def outStarts (p : Nat) : Nat → List Nat → List Nat
  | _, [] => []
  | c, w :: ws =>
    if beOp w = 0x0C ∧ bitsOf w 0 5 = p then c :: outStarts p (c + beCost w) ws else outStarts p (c + beCost w) ws

/-- Check 0x03 of a slot (R253, R279). -/
def outsOk (spindle : Bool) (slot : Nat) (ws : List Nat) : Bool :=
  if spindle then
    decide (2 ≤ slot) || (List.range 5).all fun p => match outStarts p 0 ws with | [c] => decide (c ≤ 600) | _ => false
  else [0, 1].all fun p => match outStarts p 0 ws with | c :: _ => decide (c ≤ 600) | [] => false

/-- Check 0x04 of a slot: exactly one XFF, before the first OUT UV (R253). -/
def xffOk (ws : List Nat) : Bool :=
  (ws.filter fun w => beOp w == 0x0D).length == 1 &&
    (ws.takeWhile fun w => !(beOp w == 0x0C && bitsOf w 0 5 == 0)).any fun w => beOp w == 0x0D

/-- Check 0x05 of a slot. -/
def Device.intsOk (d : Device) (e : BEng) (bank : Bool) (ws : List Nat) : Bool :=
  ws.all fun w => beOp w != 0x0E ||
    (ws.any (fun x => beOp x == 0x09 && bitsOf x 3 3 == bitsOf w 0 3) && decide (0 < d.beCoef e bank (bitsOf w 3 9 + 1)))

/-- The cost of a slot's words. -/
def slotCost (ws : List Nat) : Nat := (ws.map beCost).foldl (· + ·) 0

/-- The first row of R253 that fails for a checked slot of a bank; 0 if all pass. `badParity` says that a word the check reads has bad
parity. -/
def Device.bankCheck (d : Device) (e : BEng) (bank badParity : Bool) : Nat :=
  let marked := d.rd (BE_SLOTV_SLOTS e)
  let slots := (List.range 4).filter fun s => marked.testBit s
  let words (s : Nat) : List Nat := d.slotWords e bank s 1024 0
  let spindle := e == .spindle
  if !(slots.all fun s => (words s).all wordDefined) then 1
  else if !(slots.all fun s => decide (slotCost (words s) ≤ 1024)) then 2
  else if !(slots.all fun s => outsOk spindle s (words s)) then 3
  else if !spindle && d.twoLane && !(slots.all fun s => xffOk (words s)) then 4
  else if !(slots.all fun s => d.intsOk e bank (words s)) then 5
  else if badParity then 6
  else if !(slots.all fun s => (words s).any fun w => beOp w == 0x3F) then 7
  else if !((if spindle then [0, 1] else [0, 1, 2]).all fun s => marked.testBit s) then 8
  else 0

/-- The banks exchange (R253). -/
def Device.bankExchange (d : Device) (e : BEng) : Device :=
  let s3 := (d.be e).slot3
  let d := (d.wrB (BE_STATUS_BANK e) (!d.beBank e)).wrB (BE_STATUS_SLOT3 e) s3
  (d.wrAll [(BE_STATUS_PASSED e, 1), (BE_INT_SWAPDONE e, 1), (BE_CTRL_SWAP e, 0)]).updBe e fun b => { b with due := false }

/-- An exchange that is due happens at the start of a sample (R253). -/
def Device.exchangeDue (d : Device) (e : BEng) : Device := if (d.be e).due then d.bankExchange e else d

/-- A sample starts: the slot's program runs from its first word on the given input ports (R246, R247). -/
def Device.beStart (d : Device) (e : BEng) (slot : Nat) (inp : List Int) : Device :=
  d.updBe e fun b => { b with run := some { slot := slot }, inp := inp, held := false }

/-! ### Frames a lane's outputs start (R254, R255, R265) -/

/-- One bit of the CRC-8 x^8 + x^2 + x + 1. -/
def crc8Bit (c b : Nat) : Nat :=
  let c := c ^^^ (b * 128)
  if c.testBit 7 then (c * 2 % 256) ^^^ 7 else c * 2 % 256

/-- The CRC-8 of bits 47 to 8 of a frame (R265). -/
def crc8 (v : Nat) : Nat := ((List.range 40).map fun i => bitsOf v (47 - i) 1).foldl crc8Bit 0xFF

/-- A frame of the power-stage link (R265). -/
def psWord (type seq hi lo : Nat) : Nat :=
  let v := type * 2 ^ 44 + seq % 16 * 2 ^ 40 + hi % 65536 * 2 ^ 24 + lo % 65536 * 2 ^ 8
  v + crc8 v

/-- The upper 16 bits of a Q1.31 value with the rounding of R249 (R254). -/
def toQ15 (x : Int) : Nat := ofSigned 16 (clampI (-32768) 32767 (roundTo 16 x))

/-- A frame sent on a lane's power-stage link (R265). -/
def Device.psSend (d : Device) (l : Lane) (type hi lo : Nat) : Device :=
  let q := ((d.ps l).seq + 1) % 16
  (d.updPs l fun p => { p with seq := q }).emit (.psFrame l (psWord type q hi lo))

/-- The MA field as sent: 0 for a stage without a microactuator, and after an MA fault (R254, R266). -/
def Device.maField (d : Device) (l : Lane) (x : Int) : Nat :=
  if d.rd CB_PSTAGE_TYPE = 2 ∨ (d.ps l).maFault = true then 0 else toQ15 x

/-- XOUT goes to the other lane over the link (R255). -/
def Device.sendXout (d : Device) (l : Lane) (v : Int) : Device :=
  if !d.twoLane then d else (d.updBe (.lane l) fun b => { b with xsent := some v }).emit (.xout l v)

/-- PS_COMMAND_FRAME and XOUT_SEND: UV clamped to ±ULIM and UM to ±0x7FFF_0000 go out (R254, R255, R265). No frame leaves in RETRACT or with
the link disabled (R259, R269). -/
def Device.commandFrame (d : Device) (l : Lane) (uv um : Int) : Device :=
  if !d.bit (PS_CTRL_EN l) || (d.sv l).st == .retract then d
  else
    let ulim := (d.be (.lane l)).inp.getD 7 0
    let uv := clampI (-ulim) ulim uv
    let um := clampI (-0x7FFF0000) 0x7FFF0000 um
    let vcm := toQ15 uv
    let ma := d.maField l um
    ((d.psSend l 5 vcm ma).updPs l fun p => { p with vcm := vcm, ma := ma }).sendXout l uv

/-! ### Executing an instruction (R247 to R250, R253) -/

/-- The sticky overflow flag of the running instruction (R249, R269, R270). -/
def Device.beFlag (d : Device) (e : BEng) (r : BeRun) (sat : Bool) : Device :=
  if !sat then d
  else
    let f : RF := ⟨BE_OVF e (r.pc / 32), r.pc % 32, 1⟩
    let new := !d.bit f
    let d := (d.wr f 1).wr ⟨BE_STATUS e, 24 + r.slot, 1⟩ 1
    if new then (d.wr (BE_INT_OVF e) 1).logRate e.src 0x300E e.idx [r.slot, r.pc] else d

/-- A result reduced from `n` fraction bits beyond Q1.31: rounded, saturated, its flag raised, and written (R249). -/
def Device.bePut (d : Device) (e : BEng) (r : BeRun) (i n : Nat) (x : Int) : Device :=
  let y := satQ (roundTo n x)
  (d.beFlag e r y.2).beSet e i y.1

/-- An accumulator written (R249). -/
def Device.beAcc (d : Device) (e : BEng) (r : BeRun) (a : Nat) (x : Int) : Device :=
  let y := satA x
  (d.beFlag e r y.2).updBe e fun b => { b with run := b.run.map fun r => { r with a := r.a.set a y.1 } }

/-- A parity error on a word fetched in a sample: no frame or duties follow, the engine stops with RUN cleared (R253, R259, R279). -/
def Device.beParity (d : Device) (e : BEng) (addr : Nat) : Device :=
  let d := ((d.wr (BE_CTRL_RUN e) 0).wr (BE_INT_PARITY e) 1).updBe e fun b => { b with run := none, held := false }
  match e with
  | .lane l =>
    let d := d.log l.src 0x3008 [addr]
    if (d.sv l).st.loaded then d.emergencyRetract l.retractCause else d
  | .spindle => (if d.spin.st.active then d.spEnter .coast else d).log 7 0x3119 [addr]

/-- The engine moves to the next word. -/
def Device.beNext (d : Device) (e : BEng) (w : Nat) : Device :=
  d.updBe e fun b => { b with run := b.run.map fun r => { r with pc := r.pc + 1, cycle := r.cycle + beCost w } }

/-- The running sample's next instruction, where it is one of opcode `op`: `f` is its operation on the word, the run and the device. `bad` says
that a word it fetches has bad parity. With another opcode next, or no sample running, nothing happens. -/
def Device.beStep (d : Device) (e : BEng) (bad : Bool) (op : Nat) (f : Nat → BeRun → Device → Device) : Device :=
  match (d.be e).run with
  | none => d
  | some r =>
    let w := d.beWord e (d.beBank e) r.slot r.pc
    if bad then d.beParity e (1024 * r.slot + r.pc)
    else if beOp w ≠ op then d
    else (f w r d).beNext e w

end Sys2Proof.Machine
end

