-- ==== Sys2Proof/Machine/DuplexOps.lean ====
section
/-!
DEFINITION. Duplex and same-pass verification: read mode in force, reader fallback, deskew, the loss of verification, the rewriting of a
unit with a verify miss, the link's state (R197 to R219, R237).
-/
namespace Sys2Proof.Machine

/-! ### Mode in force (R203, R212 to R214) -/

/-- Reader A or B of the selected head reported open or short by the last FAULT read of LN0's preamp (R228, R230). -/
def Device.readerFault (d : Device) (b : Bool) : Bool := (d.rd (PA_STATUS_FAULT .ln0)).testBit (if b then 3 else 2)

/-- The mode and servo reader set; a mode is 0 JOINT, 1 A_ONLY, 2 B_ONLY (R203, R216). -/
def Device.setMode (d : Device) (mode srv : Nat) : Device :=
  if ¬ d.duplex = true then d else (d.wr DX_STATUS_MODE mode).wr DX_STATUS_SRV srv

/-- A fallback to the other reader (R213): `good` is the reader that remains. -/
def Device.fallbackTo (d : Device) (good : Nat) : Device :=
  let mode := if good = 0 then 1 else 2
  if d.bit DX_STATUS_FB ∧ d.rd DX_STATUS_MODE = mode ∧ d.rd DX_STATUS_SRV = good then d
  else (((d.setMode mode good).wr DX_STATUS_FB 1).wr DX_INT_FALLBACK 1).log 4 0x2013 [d.rd (HZSEL_HEAD .ln0), 2 - good]

/-- The mode at a sector boundary: a fallback by the link stands, reader faults act while AUTOFB is 1, otherwise FORCE or the table's
mode holds (R203, R213, R214). -/
def Device.dxBoundary (d : Device) : Device :=
  if !d.duplex then d
  else if d.elk.linkFb then d.setMode 1 0
  else
    let fa := d.readerFault false && d.bit DX_CTRL_AUTOFB
    let fb := d.readerFault true && d.bit DX_CTRL_AUTOFB
    let d := if fa && fb then d else d.wr DX_STATUS_BOTH 0
    if fa && fb then
      if d.bit DX_STATUS_BOTH then d
      else ((d.wr DX_STATUS_BOTH 1).wr DX_INT_FALLBACK 1).log 4 0x2013 [d.rd (HZSEL_HEAD .ln0), 3]
    else if fa then d.fallbackTo 1
    else if fb then d.fallbackTo 0
    else if d.bit DX_STATUS_FB then d
    else d.setMode (if d.rd DX_CTRL_FORCE = 0 then d.elk.mode else d.rd DX_CTRL_FORCE) d.elk.srv

/-- A duplex entry applied (R206, R207, R211): reader B's front end, taps, deskew, mode and servo reader; the verify settings. In
single-lane structure only the front end and the verify settings. -/
def Device.applyDxEntry (d : Device) (v : Nat) : Device :=
  let f := entryField v
  let d := d.wrAll
    [(AFE_GAIN_GAIN .ln1, f 0xA 2), (AFE_OFS_TGT .ln1, f 0xC 2), (AFE_OFS_CUR .ln1, f 0xC 2), (AFE_ASYM_TGT .ln1, f 0xE 2),
     (AFE_ASYM_CUR .ln1, f 0xE 2), (AFE_CTLE_BOOST .ln1, f 0x10 1), (AFE_CTLE_POLE .ln1, f 0x11 1), (DET_CTRL_SET .ln1, f 0x13 1 % 8),
     (EQ_TGT0_TAPS .ln1, f 0x18 4), (EQ_TGT1_TAP4 .ln1, f 0x1C 1)]
  let d := (List.range 24).foldl (fun d i => d.wr (EQ_TAP_TAP .ln1 i) (f (0x50 + 2 * i) 2)) d
  let d := d.updElk fun e =>
    { e with vweak := f 0x12 1, vset := f 0x13 1 % 8, vdelay := f 0x14 2, vtgt := f 0x18 5, vtaps := f 0x50 48, overdue := false
             lostLogged := false }
  if !d.duplex then d
  else
    let d := (List.range 24).foldl (fun d i => d.wr (DX_TAPB_TAP i) (f (0x20 + 2 * i) 2)) d
    let d := d.wrAll
      [(DX_DESKEW_DIR, f 6 1), (DX_DESKEW_COARSE, f 8 2), (DX_DESKEW_FINE, f 7 1), (DX_DESKEW_FINECUR, f 7 1), (DX_STATUS_FB, 0)]
    (d.updElk fun e => { e with mode := f 4 1, srv := f 5 1, linkFb := !d.bit (ELK_STATUS_UP .ln0) }).dxBoundary

/-- The bounds of the fine delay: within 4/64 of FINE, clipped at 0 and 63 (R201). -/
def fineBounds (fine : Nat) : Nat × Nat := (fine - 4, min 63 (fine + 4))

/-- DESKEW_TRACK: in a preamble FINECUR moves by at most 1/64 sample; resting at a bound is counted and logged (R201, R218, R219). -/
def Device.deskewTrack (d : Device) (step : Int) : Device :=
  if !d.duplex || !d.bit DX_CTRL_TRACK then d
  else
    let b := fineBounds (d.rd DX_DESKEW_FINE)
    let old := d.rd DX_DESKEW_FINECUR
    let new := (clampI b.1 b.2 ((old : Int) + clampI (-1) 1 step)).toNat
    let d := d.wr DX_DESKEW_FINECUR new
    if new = old ∧ (new = b.1 ∨ new = b.2) then
      ((d.wr DX_INT_TRACK_LIM 1).dxCount 0x1C).logRate 4 0x2018 (d.rd (HZSEL_HEAD .ln0)) [d.rd (HZSEL_HEAD .ln0)]
    else d

/-! ### Same-pass verification (R210 to R212) -/

/-- Same-pass verification is in force: write-guard mode 1 in a one-actuator structure, the link up, no reader B fault on the head, no
verdict overdue (R211, R212). -/
def Device.verifyOn (d : Device) : Bool :=
  d.wguard1 && !d.twoLane && d.bit (ELK_STATUS_UP .ln0) && !d.readerFault true && !d.elk.overdue

/-- Verification becomes unavailable: sectors without a verdict count as unverified, and the loss is logged once (R212). -/
def Device.loseVerify (d : Device) (cause : Nat) : Device :=
  if !d.wguard1 || d.twoLane then d
  else
    let d := (laneSeqs .ln0).foldl (fun d q => (d.updOp q fun o => { o with vpend := [] }).endDue q) d
    if d.elk.lostLogged then d
    else ((d.updElk fun e => { e with lostLogged := true }).wr DX_INT_VFY_LOST 1).log 4 0x2016 [cause]

/-- Positions of a band relocated to the spare region with relocation records (R152, R237). -/
def Device.relocateAll (d : Device) (b : Nat) (is : List Nat) : Device :=
  match d.host.tables.band b with
  | none => d
  | some x => is.foldl (fun d i =>
      let d : Device := { d with medium := { d.medium with glist := d.medium.glist ++ [(x.lane.idx, (x.head, (2, (b, i))))] } }
      let d : Device := { d with hnor := { d.hnor with relocated := d.hnor.relocated + 1 } }
      (d.queueSeq fun s => .relocation s x.head b i).updTables fun t => t.updBand b fun y => { y with reloc := y.reloc ++ [i] }) d

/-- UNIT_REWRITE: a unit with a verify miss, its copy 1 written, is written again in full with a new store sequence, twice at most; after the
third write its missed sectors go to the spare region and it is durable (R237). A relocation write that fails completes the command with
Write Fault, and the unit is reported new (R111, R237). -/
def Device.rewriteUnit (d : Device) (id : CmdId) (k : Nat) (spareFails : Bool) : Device :=
  let missed := (d.wrp .ln0).missed.filter fun r => r.id == id && r.unit == k
  match d.cmd id with
  | none => d
  | some c =>
    match c.units[k]? with
    | none => d
    | some u =>
      if missed.isEmpty ∨ u.st ≠ .writing then d
      else
        let b := u.band.getD 0
        let made := (Sparse.find ((d.wrp .ln0).rewrites.map fun p => (if p.1 == (id, k) then 1 else 0, p.2)) 1).getD 0
        let d := (d.updWr .ln0 fun w => { w with missed := w.missed.filter fun r => !(r.id == id && r.unit == k) }).log 4 0x280A
          [b, u.index + (missed.head?.map (·.j)).getD 0]
        if made < 2 then
          let d := d.updWr .ln0 fun w =>
            { w with rewrites := (w.rewrites.filter fun p => !(p.1 == (id, k))) ++ [((id, k), made + 1)] }
          (d.updTables fun t => t.updBand b fun x => { x with next := u.index + u.n + 2 }).updHost fun h =>
            { h with cmds := h.cmds.map fun e =>
                if e.no == c.no then { e with units := e.units.modify k fun u => { u with st := .pulled } } else e }
        else
          let d := d.updWr .ln0 fun w => { w with rewrites := w.rewrites.filter fun p => !(p.1 == (id, k)) }
          if spareFails then
            d.updHost fun h => { h with cmds := h.cmds.map fun e =>
              if e.no == c.no then { e with fail := e.fail <|> some .writeFault } else e }
          else d.relocateAll b (missed.map fun r => u.index + r.j)

/-! ### The link (R199, R214) -/

/-- The sectors in LN1's slots or on LN1's decoder end their orders when the link goes down (R214). -/
def Device.dropLn1Slots (d : Device) : Device :=
  if !d.duplex then d
  else
    let key := d.lane1.ch.dec
    let ss := d.lane0.ch.slots.filter fun s => s.captured && (s.home == .ln1 || key == some s.key)
    let d := d.updCh .ln1 fun c => { c with dec := none }
    let d := if ss.any (fun s => d.lane0.ch.dec == some s.key) then d.updCh .ln0 fun c => { c with dec := none } else d
    ss.foldl (fun d s => d.toStep6 .ln0 s) d

/-- The read gate ends: the sector under capture has outcome 15 (R184, R214). -/
def Device.endCapture (d : Device) (l : Lane) : Device :=
  match (d.ch l).slots.find? (!·.captured) with
  | none => d
  | some s => (d.dropSlot l s.key).report s.seq s.k 15

/-- The link leaves UP (R199, R214): in duplex the read gate ends, LN1's sectors go to step 6 and reader A serves alone; verification is
unavailable. -/
def Device.linkLost (d : Device) : Device :=
  let d := (d.wr (ELK_STATUS_UP .ln0) 0).wr (ELK_STATUS_UP .ln1) 0
  let d := d.updElk fun e => { e with training := true, tries := 3, bad0 := 0, bad1 := 0, wasDown := true }
  let d := if d.dxOn then (d.wr DX_STATUS_LINK 0).wr DX_INT_LINK_DOWN 1 else d
  let d :=
    if d.duplex then
      let d := (d.endCapture .ln0).dropLn1Slots
      ((d.updElk fun e => { e with linkFb := true }).setMode 1 0).wr DX_STATUS_FB 1
    else d
  (d.loseVerify 1).startDecoders .ln0

end Sys2Proof.Machine
end

