-- ==== Sys2Proof/Machine/WriteOps.lean ====
section
/-!
DEFINITION. The operations of the write path and of the preamp bridge: the profile and its registers, frames, link errors, faults, levels,
write and drift entries (R220 to R242).
-/
namespace Sys2Proof.Machine

/-! ### The profile (R227, R228) -/

/-- The lane's preamp profile (R227, R241). -/
def Device.paProfile (d : Device) (l : Lane) : Nat := (match l with | .ln0 => d.rd CB_PREAMP_P0 | .ln1 => d.rd CB_PREAMP_P1) % 16

/-- The assist kind of a profile: 1 laser, 2 microwave; profile 0x0F takes the calibre's (R227). -/
def Device.profileAssist (d : Device) (p : Nat) : Nat :=
  if p = 1 ∨ p = 3 then 1 else if p = 2 ∨ p = 4 then 2 else if p = 15 then d.rd CB_ASSIST_KIND else 0

/-- Whether a profile gives a SENS reading (R227). -/
def Device.hasSens (d : Device) (l : Lane) : Bool :=
  let p := d.paProfile l
  p == 3 || p == 4 || (p == 15 && d.bit (PA_MAP_VALID l 8))

/-- EN = 1 is refused (R227). -/
def Device.paRefuses (d : Device) (l : Lane) : Bool :=
  let p := d.paProfile l
  d.profileAssist p == 0 || d.profileAssist p != d.rd CB_ASSIST_KIND ||
    (d.rd CB_PREAMP_OUTPUTS == 2 && (p == 1 || p == 2)) ||
    (p == 15 && (List.range 8).any fun k => !d.bit (PA_MAP_VALID l k))

/-- The address of a logical register (R228). -/
def Device.paAddr (d : Device) (l : Lane) (k : Nat) : Nat :=
  if d.paProfile l = 15 then d.rd (PA_MAP_ADDR l k) else if 7 ≤ k then k + 1 else k

/-- A write frame of a logical register joins the bridge's frames (R226, R228). -/
def Device.paWrite (d : Device) (l : Lane) (k data : Nat) : Device :=
  if !d.bit (PA_CTRL_EN l) then d
  else d.updWr l fun w => { w with frames := w.frames ++ [{ read := false, addr := d.paAddr l k, data := data % 65536, reg := some k }] }

/-- What a logical register was last written with. -/
def Device.paLogical (d : Device) (l : Lane) (k : Nat) : Nat := (Sparse.find (d.wrp l).logical k).getD 0

/-- MODE's data: output 1 is enabled where the calibre gives two outputs (R228, R197). -/
def Device.modeData (d : Device) (m : Nat) : Nat := m + (if d.rd CB_PREAMP_OUTPUTS = 2 then 16 else 0)

/-- HEAD_SEL's data: the head, reader A on output 0 and, with two outputs, reader B on output 1 (R197, R210, R211, R228). -/
def Device.headData (d : Device) (h : Nat) : Nat := h % 16 + (if d.rd CB_PREAMP_OUTPUTS = 2 then 512 else 0)

/-- The bridge is asked to select a head (R260). -/
def Device.selectHead (d : Device) (l : Lane) (h : Nat) : Device := d.paWrite l 1 (d.headData h)

/-- A heater value clipped to Ln_PA_HTRMAX (R232). -/
def Device.htrClip (d : Device) (l : Lane) (v : Nat) : Nat := min v (d.rd (PA_HTRMAX_MAX l))

/-- The bridge rewrites every logical register from the loaded entries (R229, R238). -/
def Device.paRewrite (d : Device) (l : Lane) : Device :=
  let e := (d.wrp l).entry
  let d := (d.paWrite l 0 (d.modeData 2)).selectHead l (d.rd (SV_STATUS_HEAD l))
  let d := (d.paWrite l 2 e.iw).paWrite l 3 (e.osa * 256 + e.osd)
  ((d.paWrite l 4 (d.htrClip l e.htrRd)).paWrite l 5 (d.rd (AST_LEVEL_OPLV l))).paWrite l 6 (d.rd (AST_LEVEL_PB l))

/-! ### Link errors and faults (R229, R230, R234) -/

/-- A write operation runs on the lane. -/
def Device.writeOp (d : Device) (l : Lane) : Bool :=
  (laneSeqs l).any fun q => match (d.ec q).op with | none => false | some o => o.writes

/-- The head of the lane in use by its write path. -/
def Device.wrHead (d : Device) (l : Lane) : Nat := d.rd (WSEL_HEAD l)

/-- The preamp source of the write inhibit becomes active (R234). -/
def Device.paSource (d : Device) (l : Lane) : Device := (d.wr (WG_INH_PREAMP l) 1).inhibit l

/-- A good frame ends a run of link errors. -/
def Device.paGood (d : Device) (l : Lane) : Device := d.updWr l fun w => { w with linkErrs := 0 }

/-- A link error; two in a row take the link down: PREAMP_LINK_DOWN (R229). -/
def Device.paLinkError (d : Device) (l : Lane) : Device :=
  let n := (d.wrp l).linkErrs + 1
  let d := (d.incSat (PA_STATUS_LINKERR l)).updWr l fun w => { w with linkErrs := n }
  if 2 ≤ n ∧ d.bit (PA_STATUS_LINK l) = true then
    ((((d.updWr l fun w => { w with goodReads := 0, frames := [], brReady := false, stepsAsked := false }).wr (PA_STATUS_LINK l) 0).wr
      (PA_CMD_GO l) 0).paSource l).log l.src 0x2806
  else d

/-- A write stops at the end of the sector under the writer: ASSIST_STOP (R230); with no sector under it, at once. -/
def Device.assistStop (d : Device) (l : Lane) : Device :=
  if d.gateOpen l then d.updWr l fun w => { w with stopAfter := true }
  else if d.writeOp l then (d.updWr l fun w => { w with assistStop := true }).stopLane l 3
  else d

/-- WRITE_RETRY_EXHAUSTED (R238): writes on the head are disabled. A pool band's unit goes to a band of another head, its slots staying
written without a trailer; a zone band's command, or one with no head left, completes with Write Fault. -/
def Device.retriesOver (d : Device) (l : Lane) (ref : Option SectorRef) : Device :=
  let h := d.wrHead l
  let heads := d.rd (match l with | .ln0 => CB_STRUCT_HEADS0 | .ln1 => CB_STRUCT_HEADS1)
  let d := (d.wr ⟨WR_HDIS l, h, 1⟩ 1).log l.src 0x280B [h]
  match ref with
  | none => d
  | some r =>
    match d.unitOf r with
    | none => d
    | some (c, u) =>
      let b := u.band.getD 0
      let pool := match d.host.tables.band b with | none => false | some x => x.nsid == 0
      if !pool || (List.range heads).all (fun i => (d.rd (WR_HDIS_HEADS l)).testBit i) then d.unitFault r .writeFault
      else
        let wrote := match (d.bandUnits b).find? (fun m => m.seq == u.seq) with | none => 0 | some m => m.written
        let d := d.updTables fun t => t.updBand b fun x => { x with next := max x.next (u.index + wrote) }
        (d.updUnit c.no r.unit fun u => { u with st := .pulled, band := none }).closeWhenDone b

/-- A write has stopped under R230: the fourth stop of a unit is the third failed retry (R238). The preamp is initialised again. -/
def Device.stoppedWrite (d : Device) (l : Lane) (ref : Option SectorRef) : Device :=
  let n := (d.wrp l).retries + 1
  let d := (d.updWr l fun w => { w with assistStop := true, stopAfter := false, retries := n }).stopLane l 3
  if 4 ≤ n then (d.updWr l fun w => { w with retries := 0 }).retriesOver l ref else d.paRewrite l

/-- The bits of FAULT newly set, acted on (R230, R213, R212): `bits` is the new reading, `old` the one before. -/
def Device.paFaults (d : Device) (l : Lane) (old bits : Nat) : Device :=
  let rises (m : Nat) : Bool := decide (bits &&& m ≠ 0) && decide (bits &&& m &&& old ≠ bits &&& m)
  let d := d.updWr l fun w => { w with paFault := decide (bits &&& 0xC3 ≠ 0), heaterOpen := bits.testBit 4 }
  let d := if rises 0x03 then
      (((d.paSource l).wr ⟨WR_HDIS l, d.wrHead l, 1⟩ 1).wr (WR_INT_WRITER_FAULT l) 1).log l.src 0x2804 [bits]
    else d
  let d := if rises 0xC0 then (d.paSource l).log l.src 0x2804 [bits] else d
  let d := if rises 0x20 then
      ((d.wr (WR_INT_ASSIST_FAULT l) 1).assistStop l).log l.src 0x2803 [d.wrHead l, bits, (d.wrp l).sens]
    else d
  let d := if rises 0x10 then (d.assistStop l).log l.src 0x2809 else d
  if l = .ln0 ∧ rises 0x08 = true then d.loseVerify 3
  else if l = .ln0 ∧ bits.testBit 3 = false then d.updElk fun e => { e with lostLogged := e.lostLogged && !d.verifyOn } else d

/-- A FAULT reading: a wrong signature is a link error (R228, R229, R230). -/
def Device.paFaultRead (d : Device) (l : Lane) (data : Nat) : Device :=
  if bitsOf data 12 4 ≠ 0b1010 then d.paLinkError l
  else
    let old := d.rd (PA_STATUS_FAULT l)
    ((d.paGood l).wr (PA_STATUS_FAULT l) (data % 256)).paFaults l old (data % 256)

/-- A SENS reading during a write (R230). -/
def Device.sensRead (d : Device) (l : Lane) (v : Nat) : Device :=
  let v := v % 4096
  let d := d.updWr l fun w => { w with sens := v }
  if d.rd (PA_SENSLIM_MIN l) ≤ v ∧ v ≤ d.rd (PA_SENSLIM_MAX l) then d
  else ((d.wr (WR_INT_ASSIST_FAULT l) 1).assistStop l).log l.src 0x2803 [d.wrHead l, d.rd (PA_STATUS_FAULT l), v]

/-! ### Write and drift entries (R231, R232) -/

/-- The check of a write entry: 0 good, 1 CRC, 2 range, 3 head or zone (R231, R232). -/
def wEntryCheck (v h z : Nat) : Nat :=
  let f := entryField v
  if crc32cNum 0x3C (v % 2 ^ (8 * 0x3C)) ≠ f 0x3C 4 then 1
  else if f 2 1 ≠ h ∨ f 3 1 ≠ z then 3
  else if f 0 2 == 1 && inRng 0 1023 (f 4 2) && inRng 0 31 (f 8 1) && inRng 0 31 (f 9 1) && inRng 0 31 (f 0xA 1) && inRng 0 1023 (f 0xC 2) &&
      inRng 0 (f 0xC 2) (f 0xE 2) && inRng 0 1500 (f 0x10 2) && inRng 0 1500 (f 0x12 2) && inRng 10 500 (f 0x14 2) then 0
  else 2

/-- The check of a drift entry. -/
def driftCheck (v h : Nat) : Nat :=
  let f := entryField v
  if crc32cNum 0xC (v % 2 ^ 96) ≠ f 0xC 4 then 1
  else if f 0 1 ≠ h then 3
  else if in512 (f 2 2) then 0 else 2

/-- The fields of the two entries. -/
def wEntryOf (v w : Nat) : WEntry :=
  let f := entryField v
  let g := entryField w
  { iw := f 4 2, osa := f 6 1, osd := f 7 1, pc1 := f 8 1, pc2 := f 9 1, pc3 := f 0xA 1, astOp := f 0xC 2, astPb := f 0xE 2
    htrRd := f 0x10 2, htrWr := f 0x12 2, phl := f 0x14 2, drift := toSigned 16 (g 2 2), rate := toSigned 16 (g 4 2), pohc := g 8 4 }

/-- The operate level before it is clipped (R232). -/
def WEntry.level (e : WEntry) (poh : Nat) : Int :=
  let dh : Nat := min (poh - e.pohc) 20000
  e.astOp + e.drift + e.rate * dh / 16000

/-- OPLV (R232). -/
def WEntry.oplv (e : WEntry) (poh max : Nat) : Int :=
  let a := if e.level poh < e.astPb then (e.astPb : Int) else e.level poh
  if (max : Int) < a then max else a

/-- The address of the write entry for head and zone, and of the head's drift entry (R231). -/
def Device.wEntryAddr (d : Device) (l : Lane) (h z : Nat) : Nat := d.tableAddr (WADT_BASE_ADDR l) h z 64
def Device.driftAddr (d : Device) (l : Lane) (h : Nat) : Nat := 256 * d.rd (WDRIFT_BASE_ADDR l) + 16 * h

/-- The drift entry as its 16 bytes (R231). -/
def driftBytes (h : Nat) (drift rate : Int) (pohc : Nat) : Nat :=
  let v := h + ofSigned 16 drift * 2 ^ 16 + ofSigned 16 rate * 2 ^ 32 + (pohc % 2 ^ 32) * 2 ^ 64
  v + crc32cNum 0xC v * 2 ^ 96

end Sys2Proof.Machine
end

