-- ==== Sys2Proof/Machine/ServoOps.lean ====
section
/-!
DEFINITION. The servo's operations: demodulation, the reference, the input ports of a lane's sample, changes of state with their actions (R243
to R263).
-/
namespace Sys2Proof.Machine

/-! ### Demodulation (R209, R244, R245) -/

/-- A quotient rounded as R249 rounds. -/
def divRound (n d : Int) : Int := (2 * n + d) / (2 * d)

/-- PES of R244 from the burst amplitudes and PGAIN; none where a sum it divides by is 0. -/
def pesOf (w : WedgeRd) (gain : Int) : Option Int :=
  let sab : Int := w.a + w.b
  let scd : Int := w.c + w.d
  let dab : Int := w.a - w.b
  let dcd : Int := w.c - w.d
  if sab = 0 then none
  else if 2 * dab.natAbs ≤ sab then some (satQ (divRound (dab * gain) sab)).1
  else if scd = 0 then none
  else
    let s : Int := if dab < 0 then -1 else 1
    some (satQ (divRound (s * (scd - dcd.natAbs) * gain) scd)).1

/-- The wedges of a revolution (R243). -/
def Device.wedges (d : Device) : Nat := max 1 (d.rd CB_SPIN_WEDGES)

/-- The index the next wedge should carry. -/
def Device.nextIdx (d : Device) (l : Lane) (i : Nat) : Nat :=
  match (d.sv l).idx with
  | none => i
  | some j => (j + 1) % d.wedges

/-- The track predicted from the reference position. -/
def Device.predTrack (d : Device) (l : Lane) : Int := ((d.sv l).pref + 2 ^ 23) / 2 ^ 24

/-- In LOAD and RECOVER a wedge is judged by consistency with the one before (R245). -/
def Device.searching (d : Device) (l : Lane) : Bool := (d.sv l).st == .load || (d.sv l).st == .recover

/-- SAM, index parity and burst sum are good (R245). -/
def Device.wedgeSound (d : Device) (l : Lane) (w : WedgeRd) : Bool :=
  w.sam && w.idxPar && decide (256 * d.rd (SV_DEMOD_BMIN l) ≤ w.a + w.b + w.c + w.d)

/-- A wedge is consistent with the one before (R245). -/
def Device.wedgeConsistent (d : Device) (l : Lane) (w : WedgeRd) : Bool :=
  match (d.sv l).idx with
  | none => false
  | some j => w.idx == (j + 1) % d.wedges && decide (((w.track : Int) - (d.sv l).track).natAbs ≤ d.rd (SV_DEMOD_TIDWIN l))

/-- A reader's wedge has not failed (R245). -/
def Device.wedgeGood (d : Device) (l : Lane) (w : WedgeRd) : Bool :=
  d.wedgeSound l w &&
    (d.searching l || (w.idx == d.nextIdx l w.idx && decide (((w.track : Int) - d.predTrack l).natAbs ≤ d.rd (SV_DEMOD_TIDWIN l))))

/-- A signed field of `n` bits at an indexed register. -/
def Device.roff (d : Device) (l : Lane) : Int := d.rdI (SV_ROFF_ROFF l (d.rd (SV_STATUS_HEAD l)))

/-- The wedge the balance engine works from: the reading, PMEAS's correction in 2^-24 track, and whether the wedge failed and whether the
other reader stood in for the servo reader (R209, R245). -/
def Device.pickWedge (d : Device) (l : Lane) (w : WedgeRd) (b : Option WedgeRd) : WedgeRd × (Int × (Bool × Bool)) :=
  let b := if d.duplex && l == .ln0 && d.bit (ELK_STATUS_UP .ln0) then b else none
  let srvB := d.duplex && l == .ln0 && d.bit DX_STATUS_SRV
  match b with
  | none => (w, 0, !d.wedgeGood l w, false)
  | some x =>
    let (main, oth) := if srvB then (x, w) else (w, x)
    if d.wedgeGood l main then (main, 0, false, false)
    else if d.wedgeGood l oth then (oth, (if srvB then d.roff l else - d.roff l) * 2 ^ 12, false, true)
    else (main, 0, true, false)

/-- The PES of a good reading; the spec states no result where an amplitude sum is 0, and the value is free (R244). -/
def Device.pesValue (d : Device) (l : Lane) (w : WedgeRd) : Int × Device :=
  match pesOf w (d.rdI (SV_PGAIN_PGAIN l (d.rd (SV_STATUS_HEAD l)))) with
  | some p => (p, d)
  | none => let (v, d) := d.takeFree 32; (toSigned 32 v, d)

/-! ### The reference (R257, R258, R262) -/

/-- The target position, without a read offset. -/
def Device.svTarget (d : Device) (l : Lane) : Int := (d.rd (SV_TARGET_TRACK l) : Int) * 2 ^ 24

/-- The velocity measured across the last two good wedges (R257). -/
def SvSt.velocity (s : SvSt) : Int :=
  match s.good with
  | (p1, n1) :: (p0, n0) :: _ => if n0 < n1 then (p1 - p0) / ((n1 - n0 : Nat) : Int) else 0
  | _ => 0

/-- SEEK begins, or begins again, from the measured position and velocity (R257, R267). -/
def Device.enterSeek (d : Device) (l : Lane) : Device :=
  (d.svEnter l .seek).updSv l fun s =>
    { s with pref := s.pmeas, vel := s.velocity, acc := 0, seg := 0, segLeft := 0, profEnd := false, tgt := d.svTarget l }

/-- SETTLE begins: the soft start runs from the measured position to the target with the read offset in force (R258, R262). -/
def Device.enterSettle (d : Device) (l : Lane) : Device :=
  (d.svEnter l .settle).updSv l fun s =>
    { s with p0 := s.pmeas, tgt := d.svTarget l + s.offset * 2 ^ 16, k := 0 }

/-- RECOVER begins (R259). -/
def Device.enterRecover (d : Device) (l : Lane) : Device :=
  (d.svEnter l .recover).updSv l fun s => { s with recovers := s.recovers + 1 }

/-- UNLOAD begins (R259). -/
def Device.enterUnload (d : Device) (l : Lane) (failed : Bool) : Device :=
  (d.svEnter l .unload).updSv l fun s => { s with loadFailed := failed }

/-- The profile's segment with samples left: after the last one the reference is at the target (R257). -/
def Device.nextSeg (d : Device) (l : Lane) (i : Nat) : Option (Nat × Nat) :=
  if 8 ≤ i ∨ d.rd (SV_COUNT_COUNT l i) = 0 then none else some (i, d.rd (SV_COUNT_COUNT l i))

/-- One sample of the profile (R257). -/
def Device.profileStep (d : Device) (l : Lane) : Device :=
  let s := d.sv l
  if s.profEnd then d
  else
    let cur := if s.segLeft = 0 then d.nextSeg l s.seg else some (s.seg, s.segLeft)
    match cur with
    | none => d.updSv l fun s => { s with profEnd := true, pref := s.tgt }
    | some (i, left) =>
      let a := s.acc + d.rdI (SV_JERK_JERK l i)
      let v := s.vel + a
      let ends := left = 1 && (d.nextSeg l (i + 1)).isNone
      d.updSv l fun s =>
        { s with acc := a, vel := v, pref := if ends then s.tgt else s.pref + v, seg := if left = 1 then i + 1 else i, segLeft := left - 1
                 profEnd := ends }

/-- One sample of the soft start (R258). -/
def Device.rampStep (d : Device) (l : Lane) : Device :=
  let n := max 1 (d.rd (SV_SOFT_NSOFT l))
  d.updSv l fun s =>
    let k := min (s.k + 1) n
    let num : Int := (s.tgt - s.p0) * (3 * k * k * n - 2 * k * k * k)
    { s with k := s.k + 1, pref := s.p0 + divRound num ((n * n * n : Nat) : Int) }

/-! ### The sample's ports (R246, R252, R254) -/

/-- A position in 2^-24 track as a port of full scale 2^E tracks (R252). -/
def posPort (x : Int) (e : Nat) : Int := (satQ (if e ≤ 7 then x * 2 ^ (7 - e) else roundTo (e - 7) x)).1

/-- VSUP: the bus voltage / 16 V, 4.6875 mV a code (R252, R272). -/
def busPort (code : Nat) : Int := (satQ (divRound ((code : Int) * 3 * 2 ^ 31) 10240)).1

/-- ULIM (R254). -/
def Device.ulim (d : Device) (l : Lane) : Int :=
  let v := busPort (d.rd SP_BUS_VOLT) - (d.rd (SV_SUP_VMARG l) : Int) * 2 ^ 23
  let x := roundTo 8 ((d.rd (SV_SUP_KSUP l) : Int) * v)
  clampI 0 ((d.rd (SV_ULIM_ULMAX l) : Int) * 2 ^ 16) x

/-- BEMF (R252). -/
def Device.bemf (d : Device) (l : Lane) : Int :=
  (satQ (roundTo 31 ((d.ps l).vvcm * 2 ^ 31 - d.rdI (SV_RVCM_RVCM l) * (d.ps l).ivcm))).1

/-- The slot a state runs (R253, R259). -/
def Device.svSlot (d : Device) (l : Lane) : Nat :=
  match (d.sv l).st with
  | .load => 2
  | .unload => 2
  | .seek => 1
  | .follow => if d.bit (SV_CTRL_CAL l) && d.bit (BE_STATUS_SLOT3 (.lane l)) then 3 else 0
  | _ => 0

/-- −1.0 or 0 (R252). -/
def flagPort (b : Bool) : Int := if b then qMin else 0

/-- The input ports of a lane's sample (R252). `pes` is PES or PRED, `pesb` reader B's PES. -/
def Device.lanePorts (d : Device) (l : Lane) (pes pesb : Int) : List Int :=
  let s := d.sv l
  let e := if s.st = .load ∨ s.st = .seek then d.rd (SV_ESC_ESEEK l) else d.rd (SV_ESC_EFOLLOW l)
  let q15 (f : RF) : Int := d.rdI f * 2 ^ 16
  let vref := match s.st with
    | .seek => posPort s.vel e
    | .load => q15 (SV_LOADV_LOADV l)
    | .unload => q15 (SV_LOADV_UNLV l)
    | _ => 0
  let aff := if s.st = .seek then (satQ (roundTo 24 (s.acc * d.rdI (SV_KAFF_KAFF l)))).1 else 0
  [posPort (s.pref - s.pmeas) e, pes, pesb, flagPort s.bad, vref, aff, d.rdI (BE_XIN_XIN (.lane l)), d.ulim l, (d.ps l).ivcm, (d.ps l).vvcm,
   busPort (d.rd SP_BUS_VOLT), d.bemf l, flagPort (d.shock1 || d.shock2)] ++ List.replicate 19 0

/-- XIN latched: the newest value received, 0 while stale and outside two-lane structure (R255). -/
def Device.latchXin (d : Device) (l : Lane) : Device :=
  let v := if d.twoLane && !d.bit (BE_STATUS_XSTALE (.lane l)) then ((d.be (.lane l)).xnew).getD 0 else 0
  d.wrI (BE_XIN_XIN (.lane l)) v

/-- BE_SAMPLE_START: a due exchange, the reference's advance, ULIM, XIN, and the state's slot (R246, R253, R254, R267). -/
def Device.sampleStart (d : Device) (l : Lane) (pesb : Int) : Device :=
  let d := d.exchangeDue (.lane l)
  let d := match (d.sv l).st with | .seek => d.profileStep l | .settle => d.rampStep l | _ => d
  let d := (d.latchXin l).wr (SV_ULIM_ULIM l) (d.ulim l / 2 ^ 16).toNat
  let pes := if (d.sv l).bad then (d.be (.lane l)).pred else d.rdI (SV_PES_PES l)
  d.beStart (.lane l) (d.svSlot l) (d.lanePorts l pes pesb)

/-- The write-fault threshold of the zone the write path has loaded, in 2^-24 track (R262). -/
def Device.wft (d : Device) (l : Lane) : Nat := d.rd (SV_WFT_WFT l (d.rd (WSEL_ZONE l))) * 2 ^ 12

/-- PES_INHIBIT: in FOLLOW a sample beyond the threshold or a failed wedge activates the source; in every other state it is active (R262). -/
def Device.pesCheck (d : Device) (l : Lane) : Device :=
  let s := d.sv l
  if s.st ≠ .follow then (d.updSv l fun s => { s with pesOk := 0 }).pesInhibit l
  else if s.bad ∨ d.wft l < s.wpe.natAbs then (d.updSv l fun s => { s with pesOk := 0 }).pesInhibit l
  else d.updSv l fun s => { s with pesOk := s.pesOk + 1 }

/-- A wedge passes under the operations of the lane: their revolutions are counted (R308, R313, R321). -/
def Device.countWedge (d : Device) (l : Lane) : Device :=
  (laneSeqs l).foldl (fun d q =>
    match (d.ec q).op with
    | none => d
    | some o => (d.updOp q fun o => { o with wedges := o.wedges + 1 }).wr (EC_PROG_REV q) (min 255 ((o.wedges + 1) / d.wedges))) d

/-- READ_OFFSET_CHANGE: the target moves by the retry's offset through a soft start (R262). -/
def Device.setOffset (d : Device) (l : Lane) (off : Int) : Device :=
  if (d.sv l).offset = off then d
  else
    let d := d.updSv l fun s => { s with offset := off }
    if (d.sv l).st = .follow then d.enterSettle l else d

/-- OFF becomes PARKED once the servo, its engine and its link are enabled (R259). -/
def Device.svWake (d : Device) (l : Lane) : Device :=
  if (d.sv l).st = .off ∧ d.bit (SV_CTRL_EN l) = true ∧ d.bit (BE_CTRL_RUN (.lane l)) = true ∧ d.bit (PS_CTRL_EN l) = true then
    d.svEnter l .parked
  else d

/-- A command or write refused (R260). -/
def Device.svRefuse (d : Device) (l : Lane) : Device := d.wr (SV_STATUS_REFUSED l) 1

/-- The power-stage link is up (R266, R269). -/
def Device.psUp (d : Device) (l : Lane) : Device := d.wrB (PS_STATUS_UP l) (d.bit (PS_CTRL_EN l) && !(d.ps l).fault)

end Sys2Proof.Machine
end

