-- ==== Sys2Proof/Machine/SpindleOps.lean ====
section
/-!
DEFINITION. The spindle's operations: speeds, references and their overrides, current loops, cap and modulator, plausibility counts, the
chopper, a state's entry, the record of a deceleration (R271 to R297).
-/
namespace Sys2Proof.Machine

/-! ### Numbers -/

/-- A quotient the spec gives no rounding of: exact where it is whole, else one of its two neighbours, free. -/
def Device.divFree (d : Device) (n m : Int) : Int × Device :=
  if m = 0 then let (x, d) := d.takeFree 32; (toSigned 32 x, d)
  else if n % m = 0 then (n / m, d)
  else let (b, d) := d.takeFree 1; (n / m + b, d)

/-- Bit by bit, the largest number whose square is at most `n`: `r` is the root found so far. -/
def isqrtFrom (n : Nat) : Nat → Nat → Nat
  | 0, r => r
  | k + 1, r => if (r + 2 ^ k) * (r + 2 ^ k) ≤ n then isqrtFrom n k (r + 2 ^ k) else isqrtFrom n k r

/-- The whole square root of a number below 2^80. -/
def isqrt (n : Nat) : Nat := isqrtFrom n 40 0

/-! ### Speeds (R277, R280) -/

/-- The pole pairs of CB_SPIN. -/
def Device.polePairs (d : Device) : Nat := max 1 (d.rd CB_SPIN1_POLES)

/-- An electrical speed, Q1.31 of 2,048 Hz, compared with a mechanical one: both sides in units of rpm / (2^20 × pole pairs). -/
def Device.rpmAtLeast (d : Device) (omega : Int) (rpm : Nat) : Bool := decide ((rpm * 2 ^ 20 * d.polePairs : Nat) ≤ 60 * omega)

/-- The speed in rpm / 1000 is measured: from OMEGA while gates are active, else from the phase voltages (R280). The numerator over
2^20 × pole pairs. -/
def Device.speedNum (d : Device) : Int :=
  if d.spin.st.active then 60000 * d.spin.omega else d.spin.mrpm * (2 ^ 20 * d.polePairs : Nat)

/-- The measured speed lies within `k` thousandths of TARGET (R286). -/
def Device.speedWithin (d : Device) (k : Nat) : Bool :=
  let u : Int := ((2 ^ 20 * d.polePairs : Nat) : Int)
  let t : Int := (d.rd SP_SPEED_TARGET : Int)
  decide ((d.speedNum - 1000 * t * u).natAbs ≤ (t * k * u).natAbs)

/-- Whole rpm of the measured speed, for SP_MEAS and the logbook: the spec states no rounding. -/
def Device.measRpm (d : Device) : Int × Device := d.divFree d.speedNum (1000 * (2 ^ 20 * d.polePairs : Nat))

/-- A speed in rpm / 10^`e` as electrical speed, Q1.31 of 2,048 Hz. -/
def Device.electrical (d : Device) (x : Int) (unit : Nat) : Int × Device :=
  let (v, d) := d.divFree (x * d.polePairs * 2 ^ 31) (60 * 2048 * unit)
  ((satQ v).1, d)

/-! ### States (R280 to R282, R294) -/

/-- The chopper counted faulty: BRK_G stays off (R283, R292). -/
def Device.chopFault (d : Device) : Device := (d.brkOff.wr SP_STATUS_CHOPF 1).wr SP_INT_CHOPF 1

/-- The decel timer starts (R281). -/
def Device.decelStart (d : Device) : Device := d.updSpin fun s => { s with decelAt := some d.chron.chr }

/-- The decel timer starts if it is not already running (R281, R294). -/
def Device.decelKeep (d : Device) : Device := if d.spin.decelAt.isSome then d else d.decelStart

/-- DECEL_RECORD: with the decel timer running, the time is stored and logged (R294). -/
def Device.decelRecord (d : Device) : Device :=
  match d.spin.decelAt with
  | none => d
  | some t =>
    let ms := min ((d.chron.chr - t) / 1000) (2 ^ 32 - 1)
    let d := (d.updSpin fun s => { s with decelAt := none }).wrAll [(SP_DECEL_MS, ms), (SP_INT_DECEL_DONE, 1)]
    d.log 7 0x3111 [ms, d.rd SP_STATUS_CHOPF, d.rd SP_STATUS_BRKLIM, d.rd SP_STATUS_OVFLT]

/-- COAST with the gates off; no change where the spindle coasts already. -/
def Device.spCoast (d : Device) : Device := if d.spin.st = .coast then d else d.spEnter .coast

/-- A failure of R273 while gates are active: gates off, COAST (R281). -/
def Device.spInputFault (d : Device) (ch check : Nat) : Device :=
  (if d.spin.st.active then d.spEnter .coast else d).log 7 0x3116 [ch, check]

/-- LISTEN begins (R281, R283). -/
def Device.listenStart (d : Device) (byCmd : Bool) : Device :=
  (d.spEnter .listen).updSpin fun s => { s with byCmd := byCmd, coarse := false }

/-- START's step 1 begins (R281, R284). -/
def Device.startAttempt (d : Device) : Device :=
  (d.spEnter .start).updSpin fun s =>
    { s with step := .align, stepN := 0, first := true, omega := 0, dtheta := 0, moved := 0, movedMin := 0 }

/-- RUN begins, the ramp at a speed in 10^-9 rpm (R286). -/
def Device.runFrom (d : Device) (ramp : Int) : Device := (d.spEnter .run).updSpin fun s => { s with ramp := ramp }

/-- The measured speed in 10^-9 rpm. -/
def Device.rampHere (d : Device) : Int × Device := d.divFree (d.speedNum * 10 ^ 6) (2 ^ 20 * d.polePairs : Nat)

/-- RUN begins from the measured speed (R281, R286). -/
def Device.runFromSpeed (d : Device) : Device :=
  let (r, d) := d.rampHere
  d.runFrom r

/-- REVERSE begins: the ramp is held at 0 (R285). -/
def Device.enterReverse (d : Device) : Device := (d.spEnter .reverse).updSpin fun s => { s with ramp := 0 }

/-- START's current in force in step 3: ISTART × (1 + 0.25 × (a − 1)), clipped to IQMAX, Q1.31 (R284). -/
def Device.startCurrent (d : Device) : Int :=
  let iqmax := (d.rd SP_LIM_IQMAX : Int) * 2 ^ 16
  clampI (-iqmax) iqmax (d.rdI SP_START_ISTART * 2 ^ 14 * (3 + d.rd SP_STATUS_ATTEMPT))

/-- An attempt fails (R281, R284): gates off for 100 ms, or FAULT after the fourth. -/
def Device.attemptFails (d : Device) (code : Nat) : Device :=
  let a := d.rd SP_STATUS_ATTEMPT
  let d := d.log 7 code [a, (d.startCurrent / 2 ^ 16).toNat]
  if a < 4 then
    (d.wr SP_STATUS_ATTEMPT (a + 1)).updSpin fun s => { s with step := .pause, duty := [], shadow := none, prevOmega := none }
  else (((d.wr SP_INT_STARTFAIL 1).log 7 0x3103)).spEnter .fault

/-- Gates are driven: active states, but for the pause between attempts (R280, R281). -/
def Device.driving (d : Device) : Bool := d.spin.st.active && !(d.spin.st == .start && d.spin.step == .pause)

/-! ### The supply watch and the chopper (R291, R292) -/

/-- Three consecutive conversions at or above a code. -/
def Device.busAtLeast (d : Device) (c : Nat) : Bool := d.spin.bus.length == 3 && d.spin.bus.all fun v => decide (c ≤ v)

/-- Three consecutive conversions at or below a code. -/
def Device.busAtMost (d : Device) (c : Nat) : Bool := d.spin.bus.length == 3 && d.spin.bus.all fun v => decide (v ≤ c)

/-- BRK_G may be on: after the first start command since power-on, with no fault that holds it off (R271, R273, R291, R294). -/
def Device.brkAllowed (d : Device) : Bool :=
  d.aon.spun && !d.spin.brkDead && !d.bit SP_STATUS_CHOPF && !d.bit SP_STATUS_OVFLT

/-- BRK_G turns on; its check begins (R291, R292). -/
def Device.brkOn (d : Device) : Device :=
  (d.wr SP_STATUS_CHOPON 1).updSpin fun s =>
    { s with brkRef := some (d.rd SP_BUS_CURR, d.rd SP_BUS_VOLT, d.rd SP_BUS_VOLT) }

/-- The self-test pulse of R283, in which channel 4 rises by `rise` codes. With BRK_G on, or held off, there is no pulse (R273, R297). -/
def Device.selfTest (d : Device) (rise : Nat) : Device :=
  if d.bit SP_STATUS_CHOPON || d.spin.brkDead || !d.aon.spun then d
  else if d.rd SP_CHOP_CHOPIMIN ≤ rise then d.wr SP_STATUS_CHOPF 0
  else d.chopFault.log 7 0x3106

/-! ### References (R276, R284, R285, R291, R293, R295) -/

/-- References after steps 1 and 2 of R276: the program's, clamped. -/
def Device.refsClamped (d : Device) : Int × Int :=
  let m := (d.rd SP_LIM_IQMAX : Int) * 2 ^ 16
  (clampI (-m) 0 d.spin.idref, clampI (-m) m d.spin.iqref)

/-- The IDREF of the polarity step: +IPOL, 0, −IPOL and 0 for 1 ms each, by the periods begun in it (R284). -/
def Device.polarityRef (d : Device) : Int :=
  let p : Int := d.rd SP_START_IPOL * 2 ^ 23
  match d.spin.stepN * 20830 / 1000000 with
  | 0 => p
  | 2 => -p
  | _ => 0

/-- References after step 3: the state's overrides (R276). -/
def Device.refsState (d : Device) : Int × Int :=
  let (id, iq) := d.refsClamped
  match d.spin.st with
  | .catch_ => (0, 0)
  | .start =>
    match d.spin.step with
    | .align => (0, 0)
    | .polarity => (d.polarityRef, iq)
    | .accel => (0, d.startCurrent)
    | .pause => (id, iq)
  | .holdup => (0, - d.spin.omega.sign * (d.rd SP_LIM_IQMAX : Int) * 2 ^ 11 * min 32 (max 0 (2432 - (d.spin.vbus : Int))))
  | _ => (id, iq)

/-- IQREF brakes (R291). -/
def brakes (omega iq : Int) : Bool := decide (omega * iq < 0)

/-- The largest braking current of R293, Q1.31. -/
def Device.brakeLimit (d : Device) : Int :=
  let j : Int := d.rd SP_LIM_IDINJ
  (d.rd SP_MOTOR_RSN : Int) * j * j * 2 ^ 44 / max ((d.rd SP_KE0_KE0 : Int) * d.spin.omega.natAbs) (2 ^ 51)

/-- References after step 4: R293 while the chopper is faulty, R291's stop on top; whether the limit cuts IQREF. -/
def Device.refs (d : Device) : (Int × Int) × Bool :=
  let (id, iq) := d.refsState
  let br := brakes d.spin.omega iq
  let inj := d.bit SP_STATUS_CHOPF && br && d.spin.st != .holdup
  let lim := d.brakeLimit
  let cut := inj && decide (lim < iq.natAbs)
  let id := if inj then min id (-((d.rd SP_LIM_IDINJ : Int) * 2 ^ 16)) else id
  let iq := if cut then clampI (-lim) lim iq else iq
  ((id, if br && d.bit SP_STATUS_REGSTOP then 0 else iq), cut)

/-! ### Current loops, cap, modulator (R275, R276) -/

/-- A requested vector capped at m = 0.93: vd up to the cap, vq cut to the remainder; whether it exceeded the cap (R275). -/
def capVector (vbus vd vq : Int) : (Int × Int) × Bool :=
  if 40000 * (vd * vd + vq * vq) ≤ 93 * vbus * (93 * vbus) then ((vd, vq), false)
  else
    let m := 93 * vbus / 200
    let vd := clampI (-m) m vd
    let rest : Int := isqrt ((93 * vbus * (93 * vbus) - 40000 * (vd * vd)) / 40000).toNat
    ((vd, clampI (-rest) rest vq), true)

/-- A duty from a phase voltage, the sum of the extreme ones and the bus voltage, Q1.31 (R275). -/
def Device.dutyOf (d : Device) (v ends vbus : Int) : Int × Device :=
  let (x, d) := d.divFree ((2 * v - ends) * 2 ^ 30) vbus
  (2 ^ 30 + x, d)

/-- The two current loops, the cap and the modulator: the duties go to the shadow registers (R274 to R276). -/
def Device.currentLoops (d : Device) (inp : List Int) : Device :=
  let ((idr, iqr), cut) := d.refs
  let d := d.wrB SP_STATUS_BRKLIM cut
  let kp : Int := d.rd SP_CURLOOP_KP
  let ki : Int := d.rd SP_CURLOOP_KI
  let eD := idr - inp.getD 0 0
  let eQ := iqr - inp.getD 1 0
  let (iD, d) := d.divFree (ki * eD) (2 ^ 16)
  let (iQ, d) := d.divFree (ki * eQ) (2 ^ 16)
  let iD := d.spin.intD + iD
  let iQ := d.spin.intQ + iQ
  let (pD, d) := d.divFree (kp * eD) (2 ^ 12)
  let (pQ, d) := d.divFree (kp * eQ) (2 ^ 12)
  let inject := d.spin.st == .start
  let vhf : Int := if inject then (if d.spin.hf then -1 else 1) * (d.rd SP_START_VHF * 2 ^ 23 : Nat) else 0
  let vd := pD + iD + vhf
  let vq := pQ + iQ
  let vbus := inp.getD 4 0
  let ((cd, cq), capped) := capVector vbus vd vq
  let (bD, d) := d.divFree (ki * (vd - cd)) (2 ^ 16)
  let (bQ, d) := d.divFree (ki * (vq - cq)) (2 ^ 16)
  let (adv, d) := d.divFree (d.spin.omega * 8531968) (10 ^ 8)
  let (u, v, w) := Config.phaseVoltages cd cq (((d.spin.theta : Int) + adv) % 2 ^ 32).toNat
  let ends := max u (max v w) + min u (min v w)
  let (du, d) := d.dutyOf u ends vbus
  let (dv, d) := d.dutyOf v ends vbus
  let (dw, d) := d.dutyOf w ends vbus
  (d.wrB SP_STATUS_VSAT capped).updSpin fun s =>
    { s with
      intD := iD - bD
      intQ := iQ - bQ
      idSet := idr
      iqSet := iqr
      vdNext := cd
      vqNext := cq
      hf := !s.hf
      shadow := some [du, dv, dw] }

/-! ### Plausibility (R288, R289) -/

/-- The states in which the checks act (R281). -/
def SpState.checked (s : SpState) : Bool := s == .run || s == .brake || s == .reverse || s == .holdup

/-- |EQ| lies outside KE0 × |OMEGA| × `lo` / `den` to × `hi` / `den`. KE0 × |OMEGA| has 59 fraction bits. -/
def Device.eqOutside (d : Device) (lo hi den : Int) : Bool :=
  let k : Int := (d.rd SP_KE0_KE0 : Int) * d.spin.omega.natAbs
  let e : Int := (d.spin.eq.natAbs : Int) * 2 ^ 28 * den
  decide (e < lo * k) || decide (hi * k < e)

/-- The checks of R288 and R289 on a sample's outputs: consecutive samples are counted, and a failure of R288 is kept with its letter. -/
def Device.plausible (d : Device) : Device :=
  let s := d.spin
  let ab : Int := s.omega.natAbs
  let a := match s.prevOmega with | some p => decide (2 ^ 23 < (s.omega - p).natAbs) | none => false
  let b := if d.rpmAtLeast ab 600 && d.eqOutside 1 3 2 then s.badB + 1 else 0
  let c := if 0x071C71C7 < s.dtheta.natAbs then s.badC + 1 else 0
  let k := if d.level41 && d.rpmAtLeast ab 1000 && d.eqOutside (256 - d.rd SP_MOTOR_KETOL) (256 + d.rd SP_MOTOR_KETOL) 256 then s.badK + 1 else 0
  let fail : Option Nat := if a then some 0 else if 48 ≤ b then some 1 else if 48 ≤ c then some 2 else none
  d.updSpin fun s =>
    if s.st.checked then { s with badB := b, badC := c, badK := k, syncFail := fail, prevOmega := some s.omega }
    else { s with badB := 0, badC := 0, badK := 0, syncFail := none, prevOmega := some s.omega }

/-- The five outputs of a sample are out: the checks, then references, loops, cap and modulator (R274, R276, R278, R288). -/
def Device.spinOut (d : Device) (outs : List (Nat × Int)) (inp : List Int) : Device :=
  let get (p : Nat) : Int := (Sparse.find outs p).getD 0
  let d := d.updSpin fun s => { s with omega := get 0, dtheta := get 1, idref := get 2, iqref := get 3, eq := get 4 }
  if d.driving then d.plausible.currentLoops inp else d

end Sys2Proof.Machine
end

