-- ==== Sys2Proof/Machine/Balance.lean ====
section
/-!
DEFINITION. The balance engines' commands: one for each instruction of R250, and the bank swap and RUN of R253. Each instruction's meaning acts
where it is the running sample's next one.
-/
namespace Sys2Proof.Machine

/-! ### Instructions (R250, R251) -/

/-- BE_NOP (R250). -/
def beNopEff (e : BEng) (bad : Bool) (d : Device) : Device := d.beStep e bad 0x00 fun _ _ d => d

def execBeNop (e : BEng) (bad : Bool) (s : State) : Host.Outcome State Fault Refusal := s.upd (beNopEff e bad)

/-- The product an LDA, MAC or MSU names: its accumulator, and x × C[c] in units of 2^-62 (R249, R250). -/
def Device.accTerm (d : Device) (e : BEng) (r : BeRun) (w : Nat) : Nat × Int :=
  (bitsOf w 24 2, d.beReg e r (bitsOf w 18 6) * d.beCoef e (d.beBank e) (bitsOf w 9 9))

/-- BE_LDA: A[a] = x × C[c] (R250). -/
def beLdaEff (e : BEng) (bad : Bool) (d : Device) : Device :=
  d.beStep e bad 0x01 fun w r d => let t := d.accTerm e r w; d.beAcc e r t.1 t.2

def execBeLda (e : BEng) (bad : Bool) (s : State) : Host.Outcome State Fault Refusal := s.upd (beLdaEff e bad)

/-- BE_MAC: A[a] += x × C[c] (R250). -/
def beMacEff (e : BEng) (bad : Bool) (d : Device) : Device :=
  d.beStep e bad 0x02 fun w r d => let t := d.accTerm e r w; d.beAcc e r t.1 (r.a.getD t.1 0 + t.2)

def execBeMac (e : BEng) (bad : Bool) (s : State) : Host.Outcome State Fault Refusal := s.upd (beMacEff e bad)

/-- BE_MSU: A[a] −= x × C[c] (R250). -/
def beMsuEff (e : BEng) (bad : Bool) (d : Device) : Device :=
  d.beStep e bad 0x03 fun w r d => let t := d.accTerm e r w; d.beAcc e r t.1 (r.a.getD t.1 0 - t.2)

def execBeMsu (e : BEng) (bad : Bool) (s : State) : Host.Outcome State Fault Refusal := s.upd (beMsuEff e bad)

/-- BE_RND: d = round(A[a] × 2^sh) (R250). -/
def beRndEff (e : BEng) (bad : Bool) (d : Device) : Device :=
  d.beStep e bad 0x04 fun w r d => d.bePut e r (bitsOf w 18 6) 31 (r.a.getD (bitsOf w 24 2) 0 * 2 ^ bitsOf w 14 4)

def execBeRnd (e : BEng) (bad : Bool) (s : State) : Host.Outcome State Fault Refusal := s.upd (beRndEff e bad)

/-- BE_ADD: d = x + y (R250). -/
def beAddEff (e : BEng) (bad : Bool) (d : Device) : Device :=
  d.beStep e bad 0x05 fun w r d => d.bePut e r (bitsOf w 18 6) 0 (d.beReg e r (bitsOf w 12 6) + d.beReg e r (bitsOf w 6 6))

def execBeAdd (e : BEng) (bad : Bool) (s : State) : Host.Outcome State Fault Refusal := s.upd (beAddEff e bad)

/-- BE_SUB: d = x − y (R250). -/
def beSubEff (e : BEng) (bad : Bool) (d : Device) : Device :=
  d.beStep e bad 0x06 fun w r d => d.bePut e r (bitsOf w 18 6) 0 (d.beReg e r (bitsOf w 12 6) - d.beReg e r (bitsOf w 6 6))

def execBeSub (e : BEng) (bad : Bool) (s : State) : Host.Outcome State Fault Refusal := s.upd (beSubEff e bad)

/-- BE_MOV: d = x (R250). -/
def beMovEff (e : BEng) (bad : Bool) (d : Device) : Device :=
  d.beStep e bad 0x07 fun w r d => d.beSet e (bitsOf w 18 6) (d.beReg e r (bitsOf w 12 6))

def execBeMov (e : BEng) (bad : Bool) (s : State) : Host.Outcome State Fault Refusal := s.upd (beMovEff e bad)

/-- BE_MUL: d = round(x × C[c]) (R250). -/
def beMulEff (e : BEng) (bad : Bool) (d : Device) : Device :=
  d.beStep e bad 0x08 fun w r d =>
    d.bePut e r (bitsOf w 18 6) 31 (d.beReg e r (bitsOf w 12 6) * d.beCoef e (d.beBank e) (bitsOf w 3 9))

def execBeMul (e : BEng) (bad : Bool) (s : State) : Host.Outcome State Fault Refusal := s.upd (beMulEff e bad)

/-- BE_LIM: L = |l| saturated; d = x clamped to ±L; W[w] = x − d, and no flag (R249, R250). -/
def beLimEff (e : BEng) (bad : Bool) (d : Device) : Device :=
  d.beStep e bad 0x09 fun w r d =>
    let x := d.beReg e r (bitsOf w 12 6)
    let lim := (satQ (d.beReg e r (bitsOf w 6 6)).natAbs).1
    let y := clampI (-lim) lim x
    (d.beSet e (bitsOf w 18 6) y).wrI (BE_W_W e (bitsOf w 3 3)) (x - y)

def execBeLim (e : BEng) (bad : Bool) (s : State) : Host.Outcome State Fault Refusal := s.upd (beLimEff e bad)

/-- BE_SEL: d = x if q < 0, otherwise y (R250). -/
def beSelEff (e : BEng) (bad : Bool) (d : Device) : Device :=
  d.beStep e bad 0x0A fun w r d =>
    d.beSet e (bitsOf w 18 6) (d.beReg e r (if d.beReg e r (bitsOf w 0 6) < 0 then bitsOf w 12 6 else bitsOf w 6 6))

def execBeSel (e : BEng) (bad : Bool) (s : State) : Host.Outcome State Fault Refusal := s.upd (beSelEff e bad)

/-- BE_IN: d = input port p (R250, R252, R278). -/
def beInEff (e : BEng) (bad : Bool) (d : Device) : Device :=
  d.beStep e bad 0x0B fun w _ d => d.beSet e (bitsOf w 18 6) ((d.be e).inp.getD (bitsOf w 0 5) 0)

def execBeIn (e : BEng) (bad : Bool) (s : State) : Host.Outcome State Fault Refusal := s.upd (beInEff e bad)

/-- The value an output port takes, as the sample's record of it. -/
def BeRun.put (r : BeRun) (p : Nat) (x : Int) : BeRun :=
  { r with outs := Sparse.ins r.outs p x, first := if (Sparse.find r.first p).isSome then r.first else r.first ++ [(p, x)] }

/-- What an output of a lane's engine starts: the frame with the first UV and the first UM, and the traces (R252, R254, R255). -/
def Device.laneOut (d : Device) (l : Lane) (r : BeRun) (p : Nat) (x : Int) : Device :=
  if p = 3 then d.wrI (SV_TRACE0_T l) x
  else if p = 4 then d.wrI (SV_TRACE1_T l) x
  else if 1 < p ∨ (Sparse.find r.first p).isSome = true then d
  else
    match Sparse.find (r.put p x).first 0, Sparse.find (r.put p x).first 1 with
    | some uv, some um => d.commandFrame l uv um
    | _, _ => d

/-- BE_OUT: output port p = x; a lane's first UV and UM are sent, and the spindle's five outputs go to the current loops (R252 to R255, R274,
R278). -/
def beOutEff (e : BEng) (bad : Bool) (d : Device) : Device :=
  d.beStep e bad 0x0C fun w r d =>
    let p := bitsOf w 0 5
    let x := d.beReg e r (bitsOf w 12 6)
    let d := d.updBe e fun b => { b with run := b.run.map fun r => r.put p x }
    match e with
    | .lane l => d.laneOut l r p x
    | .spindle =>
      let outs := (r.put p x).outs
      if (List.range 5).all fun i => (Sparse.find outs i).isSome then d.spinOut outs d.spin.be.inp else d

def execBeOut (e : BEng) (bad : Bool) (s : State) : Host.Outcome State Fault Refusal := s.upd (beOutEff e bad)

/-- BE_XFF: d = round(x − BE_XK × XIN); the spindle's engine ignores BE_XK and reads XIN as 0 (R250, R279). -/
def beXffEff (e : BEng) (bad : Bool) (d : Device) : Device :=
  d.beStep e bad 0x0D fun w r d =>
    let xf := if e = .spindle then 0 else d.rdI (BE_XK_XK e) * d.rdI (BE_XIN_XIN e)
    d.bePut e r (bitsOf w 18 6) 31 (d.beReg e r (bitsOf w 12 6) * 2 ^ 31 - xf)

def execBeXff (e : BEng) (bad : Bool) (s : State) : Host.Outcome State Fault Refusal := s.upd (beXffEff e bad)

/-- BE_INT: s = round(s + C[c] × e − C[c+1] × W[w]) (R250). -/
def beIntEff (e : BEng) (bad : Bool) (d : Device) : Device :=
  d.beStep e bad 0x0E fun w r d =>
    let b := d.beBank e
    let c := bitsOf w 3 9
    let i := bitsOf w 18 6
    d.bePut e r i 31 (d.beReg e r i * 2 ^ 31 + d.beCoef e b c * d.beReg e r (bitsOf w 12 6) - d.beCoef e b (c + 1) * d.rdI (BE_W_W e (bitsOf w 0 3)))

def execBeInt (e : BEng) (bad : Bool) (s : State) : Host.Outcome State Fault Refusal := s.upd (beIntEff e bad)

/-- BE_BIQ: a transposed direct-form II section; C[c] to C[c+4] hold half the coefficients, so each product is doubled (R251). -/
def beBiqEff (e : BEng) (bad : Bool) (d : Device) : Device :=
  d.beStep e bad 0x0F fun w r d =>
    let bank := d.beBank e
    let k := bitsOf w 21 5
    let x := d.beReg e r (bitsOf w 9 6)
    let c (i : Nat) : Int := 2 * d.beCoef e bank (bitsOf w 0 9 + i)
    let s0 := d.beReg e r k
    let s1 := d.beReg e r (k + 1)
    let y := (satQ (roundTo 31 (c 0 * x + s0 * 2 ^ 31))).1
    let d := d.beFlag e r (satQ (roundTo 31 (c 0 * x + s0 * 2 ^ 31))).2
    let d := d.bePut e r k 31 (c 1 * x - c 3 * y + s1 * 2 ^ 31)
    let d := d.bePut e r (k + 1) 31 (c 2 * x - c 4 * y)
    d.beSet e (bitsOf w 15 6) y

def execBeBiq (e : BEng) (bad : Bool) (s : State) : Host.Outcome State Fault Refusal := s.upd (beBiqEff e bad)

/-- BE_END: the sample ends; its cost is reported, and PRED is kept for the next one (R248, R252, R269). -/
def beEndEff (e : BEng) (bad : Bool) (d : Device) : Device :=
  d.beStep e bad 0x3F fun _ r d =>
    (d.wr (BE_STATUS_CYCLES e) (r.cycle + 1)).updBe e fun b => { b with run := none, pred := (Sparse.find r.outs 2).getD b.pred }

def execBeEnd (e : BEng) (bad : Bool) (s : State) : Host.Outcome State Fault Refusal := s.upd (beEndEff e bad)

/-! ### Banks and RUN (R253) -/

/-- BE_SWAP: the inactive bank's check starts; SWAP reads 1 until it is done or refused (R253, R269). -/
def beSwapEff (e : BEng) (d : Device) : Device :=
  if (d.be e).checking then d
  else (d.wr (BE_CTRL_SWAP e) 1).updBe e fun b => { b with checking := true, due := false }

def execBeSwap (e : BEng) (s : State) : Host.Outcome State Fault Refusal := s.upd (beSwapEff e)

/-- SWAP_CHECK_DONE: a bank that passed is exchanged at the next sample's start, or at once with RUN = 0; a failed check changes nothing else
(R253). -/
def swapDoneEff (e : BEng) (badParity : Bool) (d : Device) : Device :=
  if !(d.be e).checking then d
  else
    let code := d.bankCheck e (!d.beBank e) badParity
    let d := (d.updBe e fun b => { b with checking := false }).wr (BE_STATUS_CHECK e) code
    if code ≠ 0 then (d.wrAll [(BE_CTRL_SWAP e, 0), (BE_INT_SWAPERR e, 1)]).log e.src 0x3007 [code]
    else
      let s3 := (d.rd (BE_SLOTV_SLOTS e)).testBit 3
      let d := d.updBe e fun b => { b with due := true, slot3 := s3 }
      if d.bit (BE_CTRL_RUN e) then d else d.bankExchange e

def execSwapCheckDone (e : BEng) (badParity : Bool) (s : State) : Host.Outcome State Fault Refusal := s.upd (swapDoneEff e badParity)

/-- BE_RUN_WRITE: a write of 1 is ignored while PASSED is 0 (R253, R259). -/
def beRunEff (e : BEng) (run : Bool) (d : Device) : Device :=
  if !run then d.wr (BE_CTRL_RUN e) 0
  else if !d.bit (BE_STATUS_PASSED e) then d
  else
    let d := d.wr (BE_CTRL_RUN e) 1
    match e with
    | .lane l => d.svWake l
    | .spindle => d

def execBeRunWrite (e : BEng) (run : Bool) (s : State) : Host.Outcome State Fault Refusal := s.upd (beRunEff e run)

end Sys2Proof.Machine
end

