-- ==== Sys2Proof/Machine/Caches.lean ====
section
/-!
DEFINITION. The commands of the L2 caches: maintenance operations, enabling, fills, the disabling of a way (R349 to R352).
-/
namespace Sys2Proof.Machine

/-- L2_CLEAN: operation 1, CLEAN by address (R350). -/
def execL2Clean (c : CacheId) (core : Nat) (s : State) : Host.Outcome State Fault Refusal :=
  s.upd fun d => d.postOp c core 1 0 0

/-- L2_INVAL: operation 2 (R350). -/
def execL2Inval (c : CacheId) (core : Nat) (s : State) : Host.Outcome State Fault Refusal :=
  s.upd fun d => d.postOp c core 2 0 0

/-- L2_CLEAN_INVAL: operation 3 (R350). -/
def execL2CleanInval (c : CacheId) (core : Nat) (s : State) : Host.Outcome State Fault Refusal :=
  s.upd fun d => d.postOp c core 3 0 0

/-- L2_ZLINE: operation 4 (R350). -/
def execL2Zline (c : CacheId) (core : Nat) (s : State) : Host.Outcome State Fault Refusal :=
  s.upd fun d => d.postOp c core 4 0 0

/-- L2_CLEAN_SETWAY: operation 5 (R350). -/
def execL2CleanSetway (c : CacheId) (core set way : Nat) (s : State) : Host.Outcome State Fault Refusal :=
  s.upd fun d => d.postOp c core 5 set way

/-- L2_INVAL_SETWAY: operation 6 (R350). -/
def execL2InvalSetway (c : CacheId) (core set way : Nat) (s : State) : Host.Outcome State Fault Refusal :=
  s.upd fun d => d.postOp c core 6 set way

/-- L2_CLEAN_INVAL_SETWAY: operation 7 (R350). -/
def execL2CleanInvalSetway (c : CacheId) (core set way : Nat) (s : State) : Host.Outcome State Fault Refusal :=
  s.upd fun d => d.postOp c core 7 set way

/-- L2_CLEAN_INVAL_ALL: operation 8 (R350). -/
def execL2CleanInvalAll (c : CacheId) (core : Nat) (s : State) : Host.Outcome State Fault Refusal :=
  s.upd fun d => d.postOp c core 8 0 0

/-- L2_INVAL_ALL: operation 9 (R350). -/
def execL2InvalAll (c : CacheId) (core : Nat) (s : State) : Host.Outcome State Fault Refusal :=
  s.upd fun d => d.postOp c core 9 0 0

/-- L2_OPERATION_COMPLETE: the operation in service acts, its BUSY clears, the next core's is served (R350, R351). -/
def l2OpCompleteEff (c : CacheId) (d : Device) : Device :=
  match (d.cache c).nextOp c with
  | none => d
  | some o =>
    if (d.cache c).opWaits o then d
    else ((d.runOp c o).wr (c.busy o.core) 0).updCache c fun k =>
      { k with ops := k.ops.filter (·.core != o.core), lastCore := o.core }

def execL2OperationComplete (c : CacheId) (s : State) : Host.Outcome State Fault Refusal := s.upd (l2OpCompleteEff c)

/-- L2_EN_WRITE: 0 stops lookup and leaves every line in place; 1 with old contents flags them stale (R352). -/
def l2EnWriteEff (c : CacheId) (v : Word) (d : Device) : Device :=
  if getField v 0 1 = 0 then
    let d := if (d.cache c).lines.isEmpty then d else d.wr c.validctx 1
    d.wr c.en 0
  else
    let d := if !d.bit c.en && d.bit c.validctx then
        ((d.wr c.stale 1).wr c.intStale 1).log 6 0x4801 [c.num] else d
    d.wr c.en 1

def execL2EnWrite (c : CacheId) (value : Word) (s : State) : Host.Outcome State Fault Refusal := s.upd (l2EnWriteEff c value)

/-- L2_FILL_COMPLETE: the line comes in at a way with its check bits, a dirty line there is written back first, and the
accesses that waited act on it in order (R348, R351). -/
def l2FillEff (c : CacheId) (a way : Nat) (d : Device) : Device :=
  let line := lineOf a
  let k := d.cache c
  match k.fills.find? (·.addr == line) with
  | none => d
  | some f =>
    if c.ways ≤ way ∨ d.wayOff c way = true ∨ k.disabling.any (·.1 == way) = true
        ∨ (k.lookup line).any (·.tagBad) = true then d
    else
      let ws := (List.range 8).map fun i => d.memWord (line + 8 * i)
      let ss := (List.range 8).map fun i => d.badBits (line + 8 * i)
      let d := d.updCache c fun k => { k with fills := k.fills.filter (·.addr != line) }
      let d := d.placeLine c line way false ws ss
      Device.serveWaiters c line f.waiters d

def execL2FillComplete (c : CacheId) (addr way : Nat) (s : State) : Host.Outcome State Fault Refusal :=
  s.upd (l2FillEff c addr way)

/-- L2_WAY_DISABLE: 8 corrected errors in the window, or an uncorrectable tag in the way, start its disable (R349). -/
def l2WayDisableEff (c : CacheId) (way : Nat) (d : Device) : Device :=
  let k := d.cache c
  let byTag := k.lines.any fun x => x.way == way && x.tagBad
  if d.wayOff c way = true ∨ k.disabling.any (·.1 == way) = true then d
  else if byTag = true ∨ 8 ≤ Sparse.cnt k.wayErrs way then
    d.updCache c fun k => { k with disabling := k.disabling ++ [(way, byTag)] }
  else d

def execL2WayDisable (c : CacheId) (way : Nat) (s : State) : Host.Outcome State Fault Refusal :=
  s.upd (l2WayDisableEff c way)

/-- A line of a way that goes off: written back with its errors settled, or lost with its tag (R349). -/
def Device.retireLine (c : CacheId) (d : Device) (x : CacheLine) : Device :=
  if x.tagBad then
    if x.dirty then (d.wr c.intTague 1).log 6 0x4804 [c.num, x.set, x.way] else d.wr c.intTague 1
  else d.writeBack true x

/-- L2_WAY_DISABLE_DONE: dirty lines written back, every line of the way dropped, its WAYDIS bit set (R349). -/
def l2WayDisableDoneEff (c : CacheId) (way : Nat) (d : Device) : Device :=
  match (d.cache c).disabling.find? (·.1 == way) with
  | none => d
  | some (_, byTag) =>
    let d := ((d.cache c).lines.filter (·.way == way)).foldl (Device.retireLine c) d
    let d := d.updCache c fun k => { k with
      lines := k.lines.filter (·.way != way), disabling := k.disabling.filter (·.1 != way) }
    let mask := d.rd c.waydis ||| 2 ^ way
    let d := ((d.wr c.waydis mask).wr c.intWayoff 1).log 6 (if byTag then 0x4803 else 0x4802) [c.num, way]
    if mask = 2 ^ c.ways - 1 then (d.wr c.pass 1).log 6 0x4806 [c.num] else d

def execL2WayDisableDone (c : CacheId) (way : Nat) (s : State) : Host.Outcome State Fault Refusal :=
  s.upd (l2WayDisableDoneEff c way)

/-- L2_CE_WINDOW_END: the counts of corrected errors restart (R349). -/
def execL2CeWindowEnd (c : CacheId) (s : State) : Host.Outcome State Fault Refusal :=
  s.upd fun d => d.updCache c fun k => { k with wayErrs := [] }

end Sys2Proof.Machine
end

