-- ==== Sys2Proof/Machine/Channel.lean ====
section
/-!
DEFINITION. The read channel's commands (R162 to R196): read gate, capture, decode attempts, stripe code, STOP, adaptation tables, sector
boundaries, slow corrections, counters.
-/
namespace Sys2Proof.Machine

/-! ### Read gate and capture (R180, R183, R307, R347) -/

/-- The gates pass to the other sequencer once their owner has nothing armed or under a gate and the other has (R307). -/
def Device.passOwner (d : Device) (l : Lane) : Device :=
  let busy (q : SeqId) : Bool :=
    (match (d.ec q).op with | none => false | some o => o.armed) || ((d.ch (d.stream l)).slots.any fun s => s.seq == q && !s.captured)
  let arms (q : SeqId) : Bool := match (d.ec q).op with | none => false | some o => o.armed
  let q0 : SeqId := ⟨l, false⟩
  let q1 : SeqId := ⟨l, true⟩
  let set (b : Option Bool) : Device := d.updLane l fun x => { x with owner := b }
  match (d.lane l).owner with
  | some b =>
    let own := if b then q1 else q0
    let oth := if b then q0 else q1
    if busy own then d else if arms oth then set (some (!b)) else set none
  | none => if arms q0 then set (some false) else if arms q1 then set (some true) else d

/-- The sequencer that owns a lane's gates. -/
def Device.owner (d : Device) (l : Lane) : Option SeqId := (d.lane l).owner.map fun b => ⟨l, b⟩

/-- A free place of the replay buffer: in duplex, one of the turn's lane first, and LN1's only while the link is up (R183, R205). -/
def Device.freePlace (d : Device) (l turn : Lane) : Option (Lane × Bool) :=
  let free (k : Lane × Bool) : Bool := !((d.ch l).slots.any fun s => s.key == k)
  let places (x : Lane) : List (Lane × Bool) := [(x, false), (x, true)]
  let homes := if d.duplex then (if d.bit (ELK_STATUS_UP .ln0) then [turn, turn.other] else [.ln0]) else [l]
  (homes.flatMap places).find? free

/-- REPLAY_HOLD: the read ends at this sector boundary (R183, R347). -/
def Device.replayHold (d : Device) (l : Lane) (q : SeqId) (k : Nat) : Device :=
  let d := ((d.wr (CH_STATUS_HOLD l) 1).wr (CH_INT_HOLD l) 1).incSat (RPL_STATUS_HOLDS l)
  let d := (d.chCount l 0x28).logRate l.src 0x2004 0
  (d.updOp q fun o => { o with hold := true, rArms := [] }).report q k 15

/-- READ_GATE_OPEN: the armed slot `k` of the sequencer that owns the gates arrives. With the channel disabled or its table rejected the
request is refused and the slot is not read; with no replay slot or no standby page the read is held; otherwise capture begins (R183, R191,
R194, R204, R205, R347). -/
def readGateEff (l : Lane) (k : Nat) (deskew : Int) (d : Device) : Device :=
  let d := d.passOwner l
  match d.owner l with
  | none => d
  | some q =>
    match (d.ec q).op with
    | none => d
    | some o =>
      if o.rArms.contains k = false ∨ d.capturing l = true ∨ d.stream l ≠ l then d
      else
        let d := d.updOp q fun o => { o with rArms := o.rArms.filter (· != k) }
        if !d.bit (CH_CTRL_EN l) || d.bit (CH_STATUS_BADTBL l) then d.report q k 15
        else
          let first := o.res.isEmpty && !d.seqSlots q
          let turn := if d.duplex && !first && (d.ch l).alternate then Lane.ln1 else if d.duplex then .ln0 else l
          match d.freePlace l turn, d.standby l with
          | some (home, place), _ :: _ =>
            let retry := if o.retryFlag then some o.r else none
            let s : RSlot :=
              { home := home, place := place, seq := q, k := k, band := o.band, slot := (o.first + k) % 2 ^ 32, head := o.head
                zone := o.zone, retry := retry, snap := d.snapshot l retry, turn := turn }
            let d := d.updCh l fun c => { c with slots := c.slots ++ [s], alternate := turn == .ln0 }
            (((d.updOp q fun o => { o with hold := false }).wr (CH_STATUS_HOLD l) 0).wr (TR_STATUS_LOCK l) 1).deskewTrack deskew
          | _, _ => d.replayHold l q k

def execReadGateOpen (l : Lane) (k : Nat) (deskew : Int) (s : State) : Host.Outcome State Fault Refusal := s.upd (readGateEff l k deskew)

/-- The candidates of the lane's last live sector, reported (R180). -/
def Device.showCands (d : Device) (l : Lane) (cs : List (Nat × Int)) : Device :=
  (List.range 3).foldl (fun d i =>
    match cs[i]? with
    | none => d.setWord (SYNC_CAND l i) 0
    | some c => ((d.wr (SYNC_CAND_VALID l i) 1).wr (SYNC_CAND_DIST l i) c.1).wrI (SYNC_CAND_POS l i) c.2) d

/-- What the loops have adapted to during a sector (R164, R168, R170, R202). -/
def Device.adapt (d : Device) (l : Lane) (o : CaptureObs) : Device :=
  let d := if d.bit (AFE_GAIN_FREEZE l) then d else d.wr (AFE_GAIN_GAIN l) o.gain
  let d := d.wr (TR_STATUS_FERR l) o.ferr
  if !d.bit (EQ_CTRL_ADAPT l) then d
  else
    let mode := if d.duplex then d.rd DX_STATUS_MODE else 1
    let d := if mode = 2 then d else o.taps.take 24 |>.zipIdx.foldl (fun d p => d.wr (EQ_TAP_TAP l p.2) p.1) d
    if mode = 1 then d else o.tapsB.take 24 |>.zipIdx.foldl (fun d p => d.wr (DX_TAPB_TAP p.2) p.1) d

/-- GAIN_LIMIT, ADC_OVERRANGE and TIMING_UNLOCK of a captured sector (R164, R167, R169). -/
def Device.captureFlags (d : Device) (l : Lane) (s : RSlot) (o : CaptureObs) : Device :=
  let d := if o.gainLimit then (d.wr (CH_INT_GAIN_LIM l) 1).chCount l 0x3C else d
  let d := if o.overrange then
      (((d.wr (CH_INT_ADC_OVR l) 1).incSat (ADC_STATUS_OVR_CNT l)).chCount l 0x38).logRate l.src 0x2007 0
    else d
  if o.unlocked then
    (((d.wr (TR_STATUS_LOCK l) 0).wr (CH_INT_TR_UNLOCK l) 1).chCount l 0x34).logRate l.src 0x2003 s.head [s.head]
  else d

/-- A parity error on the link's samples that the sector uses (R214): the sector passes to step 6. -/
def Device.linkParitySector (d : Device) (l : Lane) (s : RSlot) : Device :=
  ((d.dxCount 0xC).logRate 4 0x2012 0).toStep6 l s

/-- SECTOR_CAPTURE_COMPLETE: the loops' and the converter's flags, the blank test, the sync search, and step 1 queued (R164 to R170, R180,
R184, R214, R218). -/
def captureEff (l : Lane) (o : CaptureObs) (d : Device) : Device :=
  match (d.ch l).slots.find? (!·.captured) with
  | none => d
  | some s =>
    let d := (d.adapt l o).captureFlags l s o
    if d.bit (CH_CTRL_SCAN l) && o.noPreamble then ((d.rplStatus l 0 8 0).dropSlot l s.key).report s.seq s.k 8
    else
      let d := if d.duplex then d.dxCount (4 * d.rd DX_STATUS_MODE) else d
      let sync := s.word (SYNC_CTRL l)
      let cs := rankCands (getField sync 8 6) (getField sync 0 3) o.cands
      let d := d.showCands l cs
      let d := if cs.isEmpty then (d.wr (CH_INT_NO_MARK l) 1).chCount l 0x14 else d
      let ps := cs.map (·.2)
      let s' := { s with captured := true, cands := ps, mark := !ps.isEmpty, align := ps.head?.getD 0 }
      let d := d.updSlot l s.key fun _ => s'
      if s.linkErr then d.linkParitySector l s' else d.startDecoders l

def execSectorCaptureComplete (l : Lane) (o : CaptureObs) (s : State) : Host.Outcome State Fault Refusal := s.upd (captureEff l o)

/-! ### Decode attempts (R177 to R182, R187) -/

/-- Ln_LDPC_STATUS describes the lane's most recent decode (R179). -/
def Device.ldpcStatus (d : Device) (l : Lane) (conv sOk : Bool) (iter usc : Nat) : Device :=
  (((d.wrB (LDPC_STATUS_CONV l) conv).wrB (LDPC_STATUS_SEAL l) sOk).wr (LDPC_STATUS_ITER l) iter).wr (LDPC_STATUS_USC l) usc

/-- SEAL_MISMATCH: a converged attempt whose seal does not match is counted and logged (R177, R193, R196). -/
def Device.sealMismatch (d : Device) (l : Lane) (s : RSlot) (o : DecodeObs) : Device :=
  ((d.wr (CH_INT_SEAL l) 1).chCount l 0x24).log l.src 0x2005 [s.band, s.slot, o.band, o.slot]

/-- The attempt that just failed recorded, and the next one of the order or step 6 (R181, R182, R186). -/
def Device.attemptFailed (d : Device) (l : Lane) (s : RSlot) (o : DecodeObs) : Device :=
  let s' := { s with
    tried := s.tried ++ [{ p := s.align, alt := s.step == 5, usc := o.usc, conv := o.conv }]
    replays := if 2 ≤ s.step ∧ s.step ≤ 4 then s.replays + 1 else s.replays }
  if s.stopped then d.toStep6 l s'
  else
    match s'.nextAttempt (d.bit (CH_CTRL_RPL_OFF l)) (getField (s.word (RPL_CTRL l)) 0 6) with
    | none => d.toStep6 l s'
    | some (step, p) => d.updSlot l s.key fun _ => { s' with step := step, align := p }

/-- LDPC_ATTEMPT_COMPLETE: the attempt a lane's decoder runs ends. The sector succeeds, or goes on in the order of R181; a parity error in
the replay slot takes it to step 6 (R177, R178, R181, R187). -/
def attemptEff (dl : Lane) (o : DecodeObs) (d : Device) : Device :=
  let l := d.stream dl
  match (d.ch dl).dec with
  | none => d
  | some key =>
    let d := d.updCh dl fun c => { c with dec := none }
    match (d.ch l).slots.find? (fun s => s.key == key) with
    | none => d.startDecoders l
    | some s =>
      let d :=
        if o.parity && decide (2 ≤ s.step) then
          ((d.wr (CH_INT_PARITY l) 1).log l.src 0x200A).toStep6 l { s with tried := s.tried ++ [⟨s.align, s.step == 5, o.usc, false⟩] }
        else
          let limit := getField (s.word (LDPC_CTRL l)) (if s.step = 1 then 8 else 16) 6
          let iter := min o.iter limit
          let sOk := o.conv && o.crc && o.band == s.band && o.slot == s.slot
          let d := d.ldpcStatus dl o.conv sOk iter o.usc
          if sOk then d.sectorGood l s iter
          else (if o.conv then d.sealMismatch l s o else d).attemptFailed l s o
      d.startDecoders l

def execLdpcAttemptComplete (l : Lane) (o : DecodeObs) (s : State) : Host.Outcome State Fault Refusal := s.upd (attemptEff l o)

/-! ### Stripe code (R185, R188, R189, R195, R239) -/

/-- STRIPE_START: the accumulators are cleared and a group begins; ignored while a write operation runs (R189, R239). -/
def stripeStartEff (l : Lane) (mode : Bool) (data : Nat) (d : Device) : Device :=
  let writing := (laneSeqs l).any fun q => match (d.ec q).op with | none => false | some o => o.writes
  if writing ∨ data = 0 ∨ d.rd CB_STRIPE_G < data then d
  else d.wrAll [(STRIPE_CTRL_MODE l, if mode then 1 else 0), (STRIPE_CTRL_DATA l, data), (STRIPE_STATUS_BUSY l, 1), (STRIPE_STATUS_DONE l, 0),
    (STRIPE_STATUS_FAIL l, 0), (STRIPE_STATUS_ERASED l, 0)]

def execStripeStart (l : Lane) (mode : Bool) (data : Nat) (s : State) : Host.Outcome State Fault Refusal := s.upd (stripeStartEff l mode data)

/-- Waiting sectors with no recovery left fail (R185). -/
def Device.failPend (d : Device) (l : Lane) : Device :=
  let gone := (d.ch l).pend.filter fun p => !p.stripe && decide (p.limit ≤ p.retries)
  let d := d.updCh l fun c => { c with pend := c.pend.filter fun p => p.stripe || decide (p.retries < p.limit) }
  gone.foldl (fun d p => d.sectorFailed l p) d

/-- STRIPE_SOLVE_COMPLETE: the group of a band is solved if it has no more than P erasures; each solved sector is checked against its seal,
`bad` naming the slots that fail it. A group with more, or with a parity error in the accumulators, fails; its sectors go on to rotational
retries (R185, R189, R195). -/
def stripeSolveEff (l : Lane) (band group : Nat) (bad : List Nat) (parity : Bool) (d : Device) : Device :=
  if !d.bit (STRIPE_STATUS_BUSY l) then d
  else
    let erased := d.rd (STRIPE_STATUS_ERASED l)
    let mine (p : PendSect) : Bool := p.stripe && p.band == band && d.groupOf p.slot == group
    let d := (d.wr (STRIPE_STATUS_BUSY l) 0).wr (STRIPE_STATUS_DONE l) 1
    let leave (d : Device) : Device := (d.updCh l fun c => { c with pend := c.pend.map fun p => if mine p then { p with stripe := false } else p }).failPend l
    if parity then leave ((d.wr (CH_INT_PARITY l) 1).wr (CH_INT_STRIPE_FAIL l) 1)
    else if d.stripeP < erased then
      leave (((d.wr (STRIPE_STATUS_FAIL l) 1).wr (CH_INT_STRIPE_FAIL l) 1).log l.src 0x2009 [band, group, erased])
    else
      let good := (d.ch l).pend.filter fun p => mine p && !bad.contains p.slot
      let d := d.wr (CH_INT_STRIPE_DONE l) 1
      let d := if bad.isEmpty then d else d.wr (CH_INT_SEAL l) 1
      let d := d.updCh l fun c => { c with pend := c.pend.filter fun p => !(mine p && !bad.contains p.slot) }
      leave (good.foldl (fun d p => (d.rplStatus l p.attempts 5 p.align).chCount l 0x18) d)

def execStripeSolveComplete (l : Lane) (band group : Nat) (bad : List Nat) (parity : Bool) (s : State) : Host.Outcome State Fault Refusal :=
  s.upd (stripeSolveEff l band group bad parity)

/-- CH_STOP: every sector captured or under capture and without an outcome ends after one attempt at most; those that wait for one, and those
at step 6, end with outcome 7 now (R186). -/
def chStopEff (l : Lane) (d : Device) : Device :=
  let c := d.ch l
  if c.slots.isEmpty && c.pend.isEmpty then d
  else
    let d := d.updCh l fun c => { c with stopLog := true, slots := c.slots.map fun s => { s with stopped := true } }
    let now := (d.ch l).slots.filter fun s => s.captured && decide (2 ≤ s.step) && !d.decoding s.key
    let d := now.foldl (fun d s => d.toStep6 l s) d
    let ps := c.pend
    let d := d.updCh l fun c => { c with pend := [] }
    ps.foldl (fun d p => (d.sectorFailed l p).stopEvent l) d

def execChStop (l : Lane) (s : State) : Host.Outcome State Fault Refusal := s.upd (chStopEff l)

/-! ### Adaptation tables (R187, R190 to R192, R206, R207, R211) -/

/-- LN1's table is not loaded on its own in a one-actuator structure that uses the duplex entry (R207, R211). -/
def Device.loadIgnored (d : Device) (l : Lane) : Bool := l == .ln1 && d.dxOn

/-- HZSEL_LOAD: the entry for head and zone is fetched; a load written during a capture waits for its end (R187, R191). -/
def hzselLoadEff (l : Lane) (head zone : Nat) (d : Device) : Device :=
  if d.loadIgnored l then d
  else
    let h := head % 16
    let z := zone % 64
    let d := ((d.wr (HZSEL_HEAD l) h).wr (HZSEL_ZONE l) z).recheckGate l
    if d.capturing l then d.updCh l fun c => { c with loadHeld := some (h, z) } else d.updCh l fun c => { c with load := some (h, z) }

def execHzselLoad (l : Lane) (head zone : Nat) (s : State) : Host.Outcome State Fault Refusal := s.upd (hzselLoadEff l head zone)

/-- ADAPTATION_ENTRY_FETCHED: the entry, and LN0's duplex entry where it takes part, are checked; all good, the counts so far go to memory
and every register is set; otherwise nothing is applied and reads are refused (R191, R193, R207, R211). -/
def entryFetchedEff (l : Lane) (d : Device) : Device :=
  match (d.ch l).load with
  | none => d
  | some (h, z) =>
    let d := d.updCh l fun c => { c with load := none }
    let a := d.tableAddr (ADT_BASE_ADDR l) h z 128
    let v := d.memNum 128 a
    let r := if d.entryReadable a 128 then chEntryCheck v h z else 1
    if l = .ln0 ∧ d.dxOn = true then
      let b := d.tableAddr DX_ADT_BASE_ADDR h z 256
      let w := d.memNum 256 b
      let q := if d.entryReadable b 256 then dxEntryCheck w h z else 1
      if r = 0 ∧ q = 0 then ((d.flushCounts l false).applyChEntry l v h z).applyDxEntry w
      else (d.rejectLoad l h z (if r ≠ 0 then r else q)).log 4 0x2014 [h, z, if q ≠ 0 then q else r]
    else if r = 0 then (d.flushCounts l false).applyChEntry l v h z
    else d.rejectLoad l h z r

def execAdaptationEntryFetched (l : Lane) (s : State) : Host.Outcome State Fault Refusal := s.upd (entryFetchedEff l)

/-- SECTOR_BOUNDARY: what was written during the read gate takes effect, a held load begins, and the read mode is brought up to date
(R166, R187, R203, R213). -/
def boundaryEff (l : Lane) (d : Device) : Device :=
  if d.capturing l then d
  else
    let c := d.ch l
    let d := d.updCh l fun c => { c with deferred := [], load := c.load <|> c.loadHeld, loadHeld := none }
    let d := (c.deferred.foldl (fun d p => d.setChReg l p.1 p.2) d).wr (ADC_STATUS_CAL l) 0
    if l = .ln0 then d.dxBoundary else d

def execSectorBoundary (l : Lane) (s : State) : Host.Outcome State Fault Refusal := s.upd (boundaryEff l)

/-! ### Slow corrections and counters (R163, R165, R193) -/

/-- A current value one LSB nearer its target. -/
def Device.stepToward (d : Device) (cur tgt : RF) : Device :=
  let c := d.rdI cur
  let t := d.rdI tgt
  if c < t then d.wrI cur (c + 1) else if t < c then d.wrI cur (c - 1) else d

/-- OFFSET_ASYM_STEP (R165). -/
def offsetAsymEff (l : Lane) (d : Device) : Device :=
  (d.stepToward (AFE_OFS_CUR l) (AFE_OFS_TGT l)).stepToward (AFE_ASYM_CUR l) (AFE_ASYM_TGT l)

def execOffsetAsymStep (l : Lane) (s : State) : Host.Outcome State Fault Refusal := s.upd (offsetAsymEff l)

/-- AFE_TEMP_CORRECTION: bias and CTLE each move by at most one LSB (R163). -/
def afeTempEff (l : Lane) (bias boost pole : Int) (d : Device) : Device :=
  d.updCh l fun c =>
    { c with biasAdj := c.biasAdj + clampI (-1) 1 bias, boostAdj := c.boostAdj + clampI (-1) 1 boost, poleAdj := c.poleAdj + clampI (-1) 1 pole }

def execAfeTempCorrection (l : Lane) (bias boost pole : Int) (s : State) : Host.Outcome State Fault Refusal :=
  s.upd (afeTempEff l bias boost pole)

/-- COUNTER_FLUSH: the counts of the loaded head and zone are added to their entries; `fail` says that the entry's write failed (R193,
R218). -/
def execCounterFlush (l : Lane) (fail : Bool) (s : State) : Host.Outcome State Fault Refusal := s.upd fun d => d.flushCounts l fail

end Sys2Proof.Machine
end

