-- ==== Sys2Proof/Machine/CipherEngine.lean ====
section
/-!
DEFINITION. The commands of the cipher engine and of its key slots (R28, R357 to R375).
-/
namespace Sys2Proof.Machine

/-- The staged entry of a source: CX_HREQ, CX_SREQ, or what a lane posts (R359). -/
def Device.stagedEntry (d : Device) (source : CipherSource) (words : List Nat) : Nat :=
  match source with
  | .lane _ => ofWords words % 2 ^ 384
  | .host => ofWords ((List.range 12).map fun i => d.rd (CX_HREQ_W i))
  | .security => ofWords ((List.range 12).map fun i => d.rd (CX_SREQ_W i))

/-- CX_HPOST.GO or CX_SPOST.GO shows whether the entry is still waiting for a place (R374). -/
def Device.postGo (d : Device) (source : CipherSource) (b : Bool) : Device :=
  match source with
  | .lane _ => d
  | .host => d.wrB CX_HPOST_GO b
  | .security => d.wrB CX_SPOST_GO b

/-- CIPHER_ENTRY_POST: a full queue holds the entry; else it is checked and queued with its slot and generation, or completed
at once with its status (R359 to R362). -/
def cipherPostEff (source : CipherSource) (words : List Nat) (d : Device) : Device :=
  let v := d.stagedEntry source words
  let e := CipherEntry.ofNum v
  let q := d.cipher.queue source.idx
  if 64 ≤ q.length then d.postGo source true
  else
    let d := d.postGo source false
    let fail (st : Nat) : Device := d.cipherCpl source.idx { tag := e.tag, status := st, units := 0 } e.nsid e.epoch
    if !d.bit CX_CTRL_EN || !d.bit CX_STATUS_SELFPASS then fail 5
    else if !d.entryOk source e v then fail 6
    else match d.bindCheck e with
      | .error st => fail st
      | .ok n =>
        let e' : CipherEntry := { e with slot := n, gen := (d.slot n).gen }
        Device.slotEnter { d with cipher := d.cipher.setQueue source.idx (q ++ [e']) } n

def execCipherEntryPost (source : CipherSource) (words : List Nat) (s : State) : Host.Outcome State Fault Refusal :=
  s.upd (cipherPostEff source words)

/-- The first entry with the tag made urgent. -/
def promote (tag : Nat) : List CipherEntry → List CipherEntry
  | [] => []
  | e :: es => if e.tag = tag ∧ e.urgent = false then { e with urgent := true } :: es else e :: promote tag es

/-- CIPHER_URGENT_PROMOTE: a lane promotes one of its queued entries (R363). -/
def cipherPromoteEff (l : Lane) (tag : Nat) (d : Device) : Device :=
  { d with cipher := d.cipher.setQueue l.idx (promote tag (d.cipher.queue l.idx)) }

def execCipherUrgentPromote (l : Lane) (tag : Nat) (s : State) : Host.Outcome State Fault Refusal :=
  s.upd (cipherPromoteEff l tag)

/-- The source a new message is taken from, among those with an urgent entry or among those with any (R32, R363). -/
def Device.cipherPick (d : Device) (urgent : Bool) : Option (Nat × CipherEntry) :=
  (rotation (d.pointer .cipherQueues)).findSome? fun p =>
    ((d.cipher.queue p.idx).find? fun e => e.urgent == urgent).map fun e => (p.idx, e)

/-- The first entry equal to `e` taken out of a queue. -/
def takeOut (e : CipherEntry) : List CipherEntry → List CipherEntry
  | [] => []
  | x :: xs => if x = e then xs else x :: takeOut e xs

/-- A chosen entry enters the pipeline; the point's pointer moves one step (R32). -/
def Device.cipherEnter (d : Device) (i : Nat) (e : CipherEntry) : Device :=
  let d' : Device := { d with cipher :=
    { d.cipher.setQueue i (takeOut e (d.cipher.queue i)) with service := some { source := i, entry := e } } }
  d'.setPointer .cipherQueues (d.pointer .cipherQueues).next

/-- CIPHER_MESSAGE_START: an idle engine takes an urgent entry, or, with nothing suspended, a normal one; a normal message in
service is suspended for an urgent one when none is suspended already (R363, R364). -/
def cipherStartEff (d : Device) : Device :=
  match d.cipher.service with
  | none =>
    match d.cipherPick true with
    | some (i, e) => d.cipherEnter i e
    | none => if d.cipher.suspended.isSome then d else match d.cipherPick false with
      | some (i, e) => d.cipherEnter i e
      | none => d
  | some m =>
    if m.entry.urgent || d.cipher.suspended.isSome then d
    else match d.cipherPick true with
      | some (i, e) => Device.cipherEnter { d with cipher := { d.cipher with suspended := some m } } i e
      | none => d

def execCipherMessageStart (s : State) : Host.Outcome State Fault Refusal := s.upd cipherStartEff

/-- CIPHER_RESUME: no urgent entry is eligible and the pipeline is free; the suspended message goes on with its generation
and tweak (R364). -/
def cipherResumeEff (d : Device) : Device :=
  match d.cipher.service, d.cipher.suspended with
  | none, some m =>
    if (d.cipherPick true).isSome then d
    else { d with cipher := { d.cipher with service := some m, suspended := none } }
  | _, _ => d

def execCipherResume (s : State) : Host.Outcome State Fault Refusal := s.upd cipherResumeEff

/-- The bytes of one unit of an entry: 4,096 for XTS, 16 for a single block. -/
def CipherEntry.unitBytes (e : CipherEntry) : Nat := if e.op ≤ 2 then 4096 else 16

/-- One unit transformed (R358, R360). -/
def CipherEntry.unit (e : CipherEntry) (keySet j data : Nat) : Nat :=
  match e.op with
  | 1 => xtsUnit true keySet e.nsid (e.lba + j) data
  | 2 => xtsUnit false keySet e.nsid (e.lba + j) data
  | 3 => aesBlock true keySet data
  | _ => aesBlock false keySet data

/-- Units `j` up to `j + n` done one after another until one fails: the status, the units done, what went to the lane's write
stream, and the device (R362). `failAt` names a unit that fails for a reason outside the memory's check code (a parity error
on the way, R30) and whether it fails at its destination. -/
def Device.cipherUnits (e : CipherEntry) (keySet : Nat) (stream : List Nat) (failAt : Option (Nat × Bool)) :
    Nat → Nat → List Nat → Device → Nat × Nat × List Nat × Device
  | 0, j, out, d => (0, j, out, d)
  | n + 1, j, out, d =>
    let u := e.unitBytes
    let src := e.src + u * j
    let dst := e.dst + u * j
    let data := if e.srcStream then stream.getD j 0 else d.memNum u src
    if failAt = some (j, false) ∨ (e.srcStream = false ∧ (d.memOpen src = false ∨ d.anyDead src (src + u) = true)) then
      (3, j, out, d)
    else if failAt = some (j, true) ∨ (e.dstStream = false ∧ d.memOpen dst = false) then (4, j, out, d)
    else
      let x := e.unit keySet j data
      if e.dstStream then Device.cipherUnits e keySet stream failAt n (j + 1) (out ++ [x]) d
      else Device.cipherUnits e keySet stream failAt n (j + 1) out (Device.setWords (u / 8) dst x d)

/-- CIPHER_MESSAGE_COMPLETE: the message in service leaves; its units are written up to the first that fails; the completion
is returned and the entry no longer counts against its generation (R358, R362, R365). -/
def cipherCompleteEff (stream : List Nat) (failAt : Option (Nat × Bool)) (d : Device) : Device :=
  match d.cipher.service with
  | none => d
  | some m =>
    let e := m.entry
    let keySet := (d.slot e.slot).setFor e.gen
    let r := Device.cipherUnits e keySet stream failAt e.len 0 [] d
    let d := r.2.2.2
    let d := if r.2.2.1.isEmpty then d else d.emit (.stream (if m.source = 0 then .ln0 else .ln1) r.2.2.1)
    let d : Device := { d with cipher := { d.cipher with service := none } }
    (d.slotLeave e.slot e.gen).cipherCpl m.source { tag := e.tag, status := r.1, units := r.2.1 } e.nsid e.epoch

def execCipherMessageComplete (stream : List Nat) (failAt : Option (Nat × Bool)) (s : State) :
    Host.Outcome State Fault Refusal :=
  s.upd (cipherCompleteEff stream failAt)

/-- CX_CPL_POP: a read of CX_HCPL1 or CX_SCPL1 answers its word and pops the oldest completion (R374). -/
def cxCplPopEff (who : Initiator) (security : Bool) (d : Device) : Device :=
  let o := if security then 0x144 else 0x84
  if !d.secMayRead who o then d.emit (.reply none .busError)
  else
    let d := d.emit (.reply none (.data (d.cxView o)))
    if security then { d with cipher := { d.cipher with scpl := d.cipher.scpl.drop 1 } }
    else { d with cipher := { d.cipher with hcpl := d.cipher.hcpl.drop 1 } }

def execCxCplPop (who : Initiator) (security : Bool) (s : State) : Host.Outcome State Fault Refusal :=
  s.upd (cxCplPopEff who security)

/-! ### Slot commands (R366 to R368) -/

/-- A write of CX_KCMD by an initiator the table refuses is a bus error (R28). -/
def Device.kcmd (d : Device) (who : Initiator) (op n : Nat) (r : Nat × Device) : Device :=
  if d.secMayWrite who 0x10000 then Device.keyDone op n r else d.emit (.reply none .busError)

/-- KEY_LOAD (R366, R371). -/
def execKeyLoad (who : Initiator) (slot : Nat) (s : State) : Host.Outcome State Fault Refusal :=
  s.upd fun d => d.kcmd who 1 (slot % 1024) (d.keyLoad (slot % 1024))

/-- KEY_GENERATE (R366, R369). -/
def execKeyGenerate (who : Initiator) (slot nsid epoch tenant : Nat) (s : State) : Host.Outcome State Fault Refusal :=
  s.upd fun d => d.kcmd who 2 (slot % 1024) (d.keyGenerate (slot % 1024) nsid epoch tenant)

/-- KEY_ERASE (R366, R367). -/
def execKeyErase (who : Initiator) (slot : Nat) (s : State) : Host.Outcome State Fault Refusal :=
  s.upd fun d => d.kcmd who 3 (slot % 1024) (d.keyErase (slot % 1024))

/-- KEY_MAP: the namespace stands in CX_KRSP.ARG (R366, R374). -/
def execKeyMap (who : Initiator) (slot : Nat) (clear : Bool) (s : State) : Host.Outcome State Fault Refusal :=
  s.upd fun d => d.kcmd who 4 (slot % 1024) (d.keyMap (d.rd CX_KRSP_ARG) (slot % 1024) clear)

/-- KEY_GENERATION_DRAINED: the old set is zeroised and the slot is VALID (R366). -/
def keyDrainedEff (n : Nat) (d : Device) : Device :=
  let k := d.slot n
  if k.st = .retiring ∧ k.inPrev = 0 then d.setSlot n { k.putInactive 0 with st := .valid } else d

def execKeyGenerationDrained (slot : Nat) (s : State) : Host.Outcome State Fault Refusal := s.upd (keyDrainedEff slot)

/-- Every map entry that names a slot cleared (R366). -/
def Device.unmapSlot (d : Device) (n : Nat) : Device :=
  (List.range 64).foldl (fun d i =>
    if d.bit (CX_NSMAP_VALID i) && decide (d.rd (CX_NSMAP_SLOT i) = n) then
      (d.wr (CX_NSMAP_VALID i) 0).wr (CX_NSMAP_SLOT i) 0 else d) d

/-- KEY_ERASE_DRAINED: both sets zeroised, the map entries cleared, the slot EMPTY (R366). -/
def keyErasedEff (n : Nat) (d : Device) : Device :=
  let k := d.slot n
  if k.st = .erasing ∧ k.inCur = 0 ∧ k.inPrev = 0 then
    ((d.unmapSlot n).setSlot n { k with st := .empty, setA := 0, setB := 0 }).log 8 0x5005 [n, k.nsid]
  else d

def execKeyEraseDrained (slot : Nat) (s : State) : Host.Outcome State Fault Refusal := s.upd (keyErasedEff slot)

/-- KEY_DRAIN_TIMEOUT: 100 ms after a rewrite the previous generation is not drained; logged once (R367). -/
def keyDrainTimeoutEff (n : Nat) (d : Device) : Device :=
  let k := d.slot n
  if k.st = .retiring ∧ k.drainLogged = false then
    ((d.setSlot n { k with drainLogged := true }).wr CX_INT_DRAIN 1).log 8 0x5004 [n]
  else d

def execKeyDrainTimeout (slot : Nat) (s : State) : Host.Outcome State Fault Refusal := s.upd (keyDrainTimeoutEff slot)

/-- The Oprok firmware's answer to a mailbox request: refused where the slot is bound to another namespace (R368). -/
def Device.mailbox (d : Device) (r : KeyRequest) : Nat × Device :=
  let bound (nsid n : Nat) : Bool := (d.slot n).st != .empty && (d.slot n).nsid != nsid
  match r with
  | .load nsid n a =>
    if bound nsid n then (3, d)
    else Device.keyLoad ((d.wr CX_KADDRL_ADDR a).wr CX_KADDRH_ADDR (a / 2 ^ 32)) n
  | .generate nsid n epoch tenant => if bound nsid n then (3, d) else d.keyGenerate n nsid epoch tenant
  | .erase nsid n => if bound nsid n then (3, d) else d.keyErase n
  | .map nsid n => if bound nsid n then (3, d) else d.keyMap nsid n false
  | .unmap nsid n => if bound nsid n then (3, d) else d.keyMap nsid n true

/-- KEY_MAILBOX_REQUEST (R368, R374). -/
def keyMailboxEff (who : Initiator) (r : KeyRequest) (d : Device) : Device :=
  if !d.secMayWrite who 0x200 then d.emit (.reply none .busError)
  else
    let x := d.mailbox r
    ((x.2.wr CX_KMBRSP_CODE x.1).wr CX_KMBRSP_READY 1).wr CX_INT_KMB 1

def execKeyMailboxRequest (who : Initiator) (req : KeyRequest) (s : State) : Host.Outcome State Fault Refusal :=
  s.upd (keyMailboxEff who req)

/-- CX_CTRL_EN_WRITE: ignored on a failed self-test or while a reload is pending (R372, R374). -/
def cxEnWriteEff (who : Initiator) (v : Word) (d : Device) : Device :=
  if !d.secMayWrite who 0 then d.emit (.reply none .busError)
  else if getField v 0 1 = 1 ∧ (d.bit CX_STATUS_SELFFAIL = true ∨ d.reloaded = false) then d
  else d.wr CX_CTRL_EN (getField v 0 1)

def execCxCtrlEnWrite (who : Initiator) (value : Word) (s : State) : Host.Outcome State Fault Refusal :=
  s.upd (cxEnWriteEff who value)

/-- JTAG_SECURITY_ACCESS: a read by the JTAG port of the security section. The first the lock fuse permits in CX_ zeroises
every slot before it takes effect (R28, R372, R435). -/
def jtagAccessEff (a : Nat) (d : Device) : Device :=
  let o := a - 0xF0500000
  if a < 0xF0500000 ∨ 0xF0600000 ≤ a ∨ a % 4 ≠ 0 ∨ d.secMayRead .jtag o = false then d.emit (.reply none .busError)
  else
    let d := if d.cipher.jtagSeen then d
      else Device.zeroiseAll { d with cipher := { d.cipher with jtagSeen := true } } 2
    d.emit (.reply none (.data (d.cxView o)))

def execJtagSecurityAccess (addr : Nat) (s : State) : Host.Outcome State Fault Refusal := s.upd (jtagAccessEff addr)

end Sys2Proof.Machine
end

