-- ==== Sys2Proof/Machine/Duplex.lean ====
section
/-!
DEFINITION. The Eltik link's and duplex's commands (R197 to R219): words, heartbeats, link down and training, FORCE, verdicts.
-/
namespace Sys2Proof.Machine

/-! ### The link (R199, R214, R219) -/

/-- ELTIK_WORD_RECEIVE: a word arrives at a lane's side. A parity error is counted; in duplex it spoils the sector under capture when reader
B's samples are used (R199, R214, R217). -/
def wordReceiveEff (l : Lane) (parity : Bool) (d : Device) : Device :=
  if !d.bit (ELK_STATUS_UP l) then d
  else
    let bad (n : Nat) : Nat := if parity then n + 1 else 0
    let d := d.updElk fun e => match l with | .ln0 => { e with bad0 := bad e.bad0 } | .ln1 => { e with bad1 := bad e.bad1 }
    if !parity then d
    else
      let d := d.incSat (ELK_STATUS_PAR_CNT l)
      let d := if d.dxOn then d.wr DX_INT_LINK_PAR 1 else d
      if d.duplex && l == .ln0 then
        if d.rd DX_STATUS_MODE = 1 then d
        else d.updCh .ln0 fun c => { c with slots := c.slots.map fun s => if s.captured then s else { s with linkErr := true } }
      else if d.verifyOn && d.gateOpen .ln0 then d.updElk fun e => { e with parSect := true }
      else d

def execEltikWordReceive (l : Lane) (parity : Bool) (s : State) : Host.Outcome State Fault Refusal := s.upd (wordReceiveEff l parity)

/-- ELTIK_HEARTBEAT: a side sends its heartbeat word (R199). -/
def heartbeatEff (l : Lane) (d : Device) : Device := if d.bit (ELK_STATUS_UP l) then d.emit (.heartbeat l) else d

def execEltikHeartbeat (l : Lane) (s : State) : Host.Outcome State Fault Refusal := s.upd (heartbeatEff l)

/-- ELTIK_LINK_DOWN: no valid word for 128 cycles, or four words in a row with a parity error; the link retrains on its own (R199, R214). -/
def eltikDownEff (parity : Bool) (d : Device) : Device :=
  if !d.bit (ELK_STATUS_UP .ln0) || (parity && decide (d.elk.bad0 < 4) && decide (d.elk.bad1 < 4)) then d
  else ((d.linkLost.incSat (ELK_STATUS_DOWN_CNT .ln0)).incSat (ELK_STATUS_DOWN_CNT .ln1)).log 4 0x2010 [if parity then 1 else 0]

def execEltikLinkDown (parity : Bool) (s : State) : Host.Outcome State Fault Refusal := s.upd (eltikDownEff parity)

/-- ELK_RETRAIN: a write of RETRAIN on either side retrains the link with three attempts (R199). -/
def retrainEff (d : Device) : Device :=
  let d := if d.bit (ELK_STATUS_UP .ln0) then d.linkLost else d
  d.updElk fun e => { e with training := true, tries := 3 }

def execElkRetrain (_l : Lane) (s : State) : Host.Outcome State Fault Refusal := s.upd retrainEff

/-- ELTIK_TRAIN_COMPLETE: the link is up (R199, R214, R219). -/
def trainCompleteEff (d : Device) : Device :=
  if !d.elk.training then d
  else
    let was := d.elk.wasDown
    let d := (d.wr (ELK_STATUS_UP .ln0) 1).wr (ELK_STATUS_UP .ln1) 1
    let d := d.updElk fun e => { e with training := false, bad0 := 0, bad1 := 0, lostLogged := false }
    let d := if d.dxOn then d.wr DX_STATUS_LINK 1 else d
    if was then d.log 4 0x2011 else d

def execEltikTrainComplete (s : State) : Host.Outcome State Fault Refusal := s.upd trainCompleteEff

/-- ELTIK_RETRAIN_TIMEOUT: an attempt exceeds 10 µs; after three the link stays down (R199). -/
def retrainTimeoutEff (d : Device) : Device :=
  if !d.elk.training then d else d.updElk fun e => { e with tries := e.tries - 1, training := decide (1 < e.tries) }

def execEltikRetrainTimeout (s : State) : Host.Outcome State Fault Refusal := s.upd retrainTimeoutEff

/-! ### FORCE and verdicts (R210 to R213, R216) -/

/-- DX_FORCE_WRITE: FORCE overrides the table's mode from the next sector boundary and clears FB; a write of 3 is ignored; outside duplex the
register is inert (R212, R213, R214, R216). -/
def forceWriteEff (v : Nat) (d : Device) : Device :=
  if !d.duplex || v % 4 == 3 then d
  else
    let d := (d.wr DX_CTRL_FORCE (v % 4)).wr DX_STATUS_FB 0
    if d.capturing .ln0 then d else d.dxBoundary

def execDxForceWrite (value : Nat) (s : State) : Host.Outcome State Fault Refusal := s.upd (forceWriteEff value)

/-- The verdict of the slot `k` of an operation no longer outstanding. -/
def Device.takeVerdict (d : Device) (q : SeqId) (k : Nat) : Device :=
  d.updOp q fun o => { o with vpend := o.vpend.filter fun p => p.1 != k }

/-- VERIFY_VERDICT: LN1's verdict for a written slot: it passes if the attempt converged within VWEAK and its seal matched. A miss is
counted, logged and held against its unit; once copy 1 has its verdict the unit is rewritten (R210, R212, R237). `spareFails` says that a
relocation write fails. -/
def verdictEff (q : SeqId) (k : Nat) (conv : Bool) (iter : Nat) (sealOk spareFails : Bool) (d : Device) : Device :=
  match (d.ec q).op with
  | none => d
  | some o =>
    match o.vpend.find? (fun p => p.1 == k) with
    | none => d
    | some (_, ref) =>
      if !d.verifyOn || q.lane != .ln0 then d
      else
        let pass := conv && sealOk && decide (iter ≤ d.elk.vweak)
        let d := (d.takeVerdict q k).wrAll [(VFY_STATUS_PASS, if pass then 1 else 0), (VFY_STATUS_ITER, min iter d.elk.vweak)]
        let d := if d.elk.parSect then (d.updElk fun e => { e with parSect := false }).dxCount 0xC else d
        let d :=
          if pass then d.dxCount 0x10
          else
            let d := (((d.wr DX_INT_VFY_MISS 1).dxCount 0x14).incSat VFY_STATUS_MISSES).log 4 0x2015 [o.head, o.band, (o.first + k) % 2 ^ 32]
            let d := d.updOp q fun o => { o with vmiss := o.vmiss ++ [k] }
            match ref with | none => d | some r => d.updWr .ln0 fun w => { w with missed := w.missed ++ [r] }
        let d := match ref with
          | none => d
          | some r =>
            match (d.cmd r.id).bind fun c => c.units[r.unit]? with
            | none => d
            | some u => if r.j = u.n + 1 then d.rewriteUnit r.id r.unit spareFails else d
        d.endDue q

def execVerifyVerdict (q : SeqId) (k : Nat) (conv : Bool) (iter : Nat) (sealOk spareFails : Bool) (s : State) :
    Host.Outcome State Fault Refusal := s.upd (verdictEff q k conv iter sealOk spareFails)

/-- VERDICT_OVERDUE: a verdict is 17 µs overdue: verification is unavailable (R212). -/
def overdueEff (q : SeqId) (k : Nat) (d : Device) : Device :=
  match (d.ec q).op with
  | none => d
  | some o =>
    if o.vpend.any (fun p => p.1 == k) = false ∨ d.verifyOn = false then d
    else (d.updElk fun e => { e with overdue := true }).loseVerify 2

def execVerdictOverdue (q : SeqId) (k : Nat) (s : State) : Host.Outcome State Fault Refusal := s.upd (overdueEff q k)

end Sys2Proof.Machine
end

