-- ==== Sys2Proof/Machine/WritePath.lean ====
section
/-!
DEFINITION. The commands of the write path, its guards and the preamp bridge (R220 to R242).
-/
namespace Sys2Proof.Machine

/-! ### Write slots (R220 to R225, R230, R239) -/

/-- The page index of slot `k` of an operation: 0xFFFF where it has none (R305). -/
def Device.slotPage (d : Device) (o : EcOp) (k : Nat) : Nat := d.memNum 2 (o.pageAddr + 2 * k)

/-- The slot takes a parity sector from the stripe accumulators (R305). -/
def Device.slotParity (d : Device) (o : EcOp) (k : Nat) : Bool := o.stripe && d.slotPage o k == 0xFFFF

/-- PAGE_FAULT: the gate is not raised for the slot; the operation stops, and the unit and every later one end all-old with Internal Error
(R221, R329). -/
def Device.pageFault (d : Device) (l : Lane) (q : SeqId) (k page : Nat) (ref : Option SectorRef) : Device :=
  let d := d.updOp q fun o => { o with pageFault := true, wArms := o.wArms.filter (· != k) }
  let d := d.notePageCheck page (match l with | .ln0 => .ln0 | .ln1 => .ln1)
  let d := ((d.stopCause q 2).wr (WR_INT_PAGE_FAULT l) 1).log l.src 0x280D [page]
  match ref with
  | none => d
  | some r => d.unitFault r .internal

/-- WRITE_SLOT_START: the armed slot `k` arrives. A page that fails its check is a page fault; a parity sector whose accumulators fail
theirs is left for a later revolution; otherwise the gate opens if every condition of R225 holds. `ref` is the sector of a host's unit that the
slot carries, `sens` the reading taken once for the sector (R220, R221, R225, R230, R239). -/
def writeSlotEff (l : Lane) (k : Nat) (ref : Option SectorRef) (sens : Nat) (accParity : Bool) (d : Device) : Device :=
  let d := d.passOwner l
  match d.owner l with
  | none => d
  | some q =>
    match (d.ec q).op with
    | none => d
    | some o =>
      if o.wArms.head? ≠ some k ∨ d.gateOpen l = true then d
      else
        let page := d.slotPage o k
        let parity := d.slotParity o k
        if parity && accParity then d.wr (CH_INT_PARITY l) 1
        else if (!parity && page != 0xFFFF && !d.pageGood page) || (match ref with | none => false | some r => !d.sectorPageGood r) then
          d.pageFault l q k page ref
        else
          let ready := match ref with | none => true | some r => d.sectorReady r
          if !d.gateAllowed l || !ready then d
          else
            let d := match ref with | some r => if r.j = 0 then d.beginUnit r else d | none => d
            let d := d.updWr l fun w => { w with gate := some (q, k, ref), rate := d.rd (TR_STEP_STEP l) }
            if d.hasSens l then d.sensRead l sens else d

def execWriteSlotStart (l : Lane) (k : Nat) (ref : Option SectorRef) (sens : Nat) (accParity : Bool) (s : State) :
    Host.Outcome State Fault Refusal := s.upd (writeSlotEff l k ref sens accParity)

/-- WRITE_REQUEST_URGENT: the sector a waiting pool reservation or cipher entry serves is due within 2 sector times (R221, R32). -/
def writeUrgentEff (l : Lane) (resv : Option Nat) (tag : Option Nat) (d : Device) : Device :=
  let pool := { d.pool with waiting := d.pool.waiting.map fun w => if w.party == l.party && resv == some w.id then { w with urgent := true } else w }
  let up (es : List CipherEntry) : List CipherEntry := es.map fun e => if tag == some e.tag then { e with urgent := true } else e
  let cipher := match l with | .ln0 => { d.cipher with q0 := up d.cipher.q0 } | .ln1 => { d.cipher with q1 := up d.cipher.q1 }
  Device.updWr { d with pool := pool, cipher := cipher } l fun w => { w with urgent := true }

def execWriteRequestUrgent (l : Lane) (resv tag : Option Nat) (s : State) : Host.Outcome State Fault Refusal :=
  s.upd (writeUrgentEff l resv tag)

/-- SECTOR_WRITE_COMPLETE: the last pad bit is written with the gate open: the slot is complete, its verdict is awaited under same-pass
verification, and a stop of R230 takes effect (R210, R212, R230, R234, R321). -/
def sectorWriteEff (l : Lane) (d : Device) : Device :=
  match (d.wrp l).gate with
  | none => d
  | some (q, k, ref) =>
    let d := d.updWr l fun w => { w with gate := none, urgent := false, load := w.load <|> w.loadHeld, loadHeld := none }
    let d := d.updOp q fun o => { o with wArms := o.wArms.filter (· != k) }
    let d := d.slotResult q k 16
    let d := match ref with | none => d | some r => d.sectorWritten r
    let verify := match (d.ec q).op with | none => false | some o => o.verify
    let d := if verify && d.verifyOn && l == .ln0 then d.updOp q fun o => { o with vpend := o.vpend ++ [(k, ref)] } else d
    let last := match ref with | none => false | some r => match d.unitOf r with | none => false | some (_, u) => r.j == u.n + 1
    if (d.wrp l).stopAfter then d.stoppedWrite l ref else if last then d.updWr l fun w => { w with retries := 0 } else d

def execSectorWriteComplete (l : Lane) (s : State) : Host.Outcome State Fault Refusal := s.upd (sectorWriteEff l)

/-! ### Write inhibit (R234, R236, R263) -/

/-- The lanes whose write paths are in use (R198, R211). -/
def Device.lanesUsed (d : Device) : List Lane := if d.twoLane then bothLanes else [.ln0]

/-- The shock source becomes active on both lanes (R234). -/
def Device.shockInhibit (d : Device) (input : Nat) : Device :=
  if d.shockInh then d
  else
    d.lanesUsed.foldl (fun d l =>
      let d := if d.gateOpen l then d.updWr l fun w => { w with neighbour := true } else d
      (((d.wr (WG_INH_SHOCK l) 1).wr (WR_INT_SHOCK_INH l) 1).inhibit l).log l.src 0x2802 [input]) { d with shockInh := true }

/-- SHOCK_INPUT: a shock input, after its 200 ns filter, has become active or inactive; a stuck one is masked (R234, R410). -/
def shockEff (second active : Bool) (d : Device) : Device :=
  let i := if second then 1 else 0
  let bits := d.rd RG_SHOCK_IN
  let d := d.wr RG_SHOCK_IN (if active then bits ||| 2 ^ i else bits &&& (3 ^^^ 2 ^ i))
  let acts := active && !(d.rd RG_SHOCK_STUCK).testBit i
  let d : Device := if second then { d with shock2 := acts } else { d with shock1 := acts }
  if acts then d.shockInhibit (i + 1) else d

def execShockInput (second active : Bool) (s : State) : Host.Outcome State Fault Refusal := s.upd (shockEff second active)

/-- SHOCK_INHIBIT_RELEASE: 1 ms after both inputs were last active (R234). -/
def shockReleaseEff (d : Device) : Device := if d.shock1 || d.shock2 then d else { d with shockInh := false }

def execShockInhibitRelease (s : State) : Host.Outcome State Fault Refusal := s.upd shockReleaseEff

/-- PES_INHIBIT_RELEASE: 8 consecutive samples in FOLLOW at or below the threshold (R234, R262). -/
def pesReleaseEff (l : Lane) (d : Device) : Device :=
  if (d.sv l).st = .follow ∧ 8 ≤ (d.sv l).pesOk then d.wr (SV_STATUS_INH l) 0 else d

def execPesInhibitRelease (l : Lane) (s : State) : Host.Outcome State Fault Refusal := s.upd (pesReleaseEff l)

/-- WG_INH_WRITE: a write of Ln_WG_INH: SWINH taken, sticky bits written 1 cleared (R234, R241). -/
def wgInhEff (l : Lane) (v : Word) (d : Device) : Device :=
  let old := d.word (WG_INH l)
  let d := d.setWord (WG_INH l) ((old &&& ~~~(v &&& 0x1E)) &&& 0x7FFFFFFF ||| (v &&& 0x80000000))
  if d.bit (WG_INH_SWINH l) && getField old 31 1 == 0 then d.inhibit l else d

def execWgInhWrite (l : Lane) (value : Word) (s : State) : Host.Outcome State Fault Refusal := s.upd (wgInhEff l value)

/-! ### Frames (R226, R229, R230, R241) -/

/-- Registers that are read back after a write (R229). -/
def keyReg (k : Nat) : Bool := k == 1 || k == 2 || k == 5 || k == 6

/-- PREAMP_WRITE_FRAME: the bridge sends its oldest frame, a write; a key register is read back as `back`, written once more on a
difference, and counted a link error on a second one (R226, R229, R241). -/
def paWriteFrameEff (l : Lane) (back : Nat) (d : Device) : Device :=
  match (d.wrp l).frames with
  | [] => d
  | f :: fs =>
    if f.read || !d.bit (PA_CTRL_EN l) || !d.bit (PA_STATUS_LINK l) then d
    else
      let d := (d.updWr l fun w => { w with frames := fs }).emit (.preamp l false f.addr f.data)
      let d := if f.direct then d.wr (PA_CMD_GO l) 0 else d
      match f.reg with
      | none => d
      | some k =>
        let d := d.updWr l fun w => { w with logical := Sparse.ins w.logical k f.data }
        if !keyReg k || back == f.data then d.paGood l
        else if f.again then d.paLinkError l
        else d.updWr l fun w => { w with frames := { f with again := true } :: w.frames }

def execPreampWriteFrame (l : Lane) (back : Nat) (s : State) : Host.Outcome State Fault Refusal := s.upd (paWriteFrameEff l back)

/-- PREAMP_READ_FRAME: the bridge's oldest frame, a read, completes with `data`; a read of FAULT is checked as R228 and R230 say, and
PA_CMD takes the data (R226, R241). -/
def paReadFrameEff (l : Lane) (data : Nat) (d : Device) : Device :=
  match (d.wrp l).frames with
  | [] => d
  | f :: fs =>
    if !f.read || !d.bit (PA_CTRL_EN l) || !d.bit (PA_STATUS_LINK l) then d
    else
      let d := (d.updWr l fun w => { w with frames := fs }).emit (.preamp l true f.addr 0)
      let d := if f.direct then (d.wr (PA_CMD_GO l) 0).wr (PA_CMD_DATA l) data else d
      if f.addr = d.paAddr l 7 then d.paFaultRead l data else d

def execPreampReadFrame (l : Lane) (data : Nat) (s : State) : Host.Outcome State Fault Refusal := s.upd (paReadFrameEff l data)

/-- PREAMP_FAULT_POLL: FAULT is read every 2 µs in a write and every 100 µs otherwise, and acted on (R230). -/
def paFaultPollEff (l : Lane) (data : Nat) (d : Device) : Device :=
  if !d.bit (PA_CTRL_EN l) || !d.bit (PA_STATUS_LINK l) then d
  else (d.emit (.preamp l true (d.paAddr l 7) 0)).paFaultRead l data

def execPreampFaultPoll (l : Lane) (data : Nat) (s : State) : Host.Outcome State Fault Refusal := s.upd (paFaultPollEff l data)

/-- PREAMP_LINK_RETRY: FAULT is read on a link that is down; after two good reads in a row it comes up and every logical register is
rewritten (R229). -/
def paLinkRetryEff (l : Lane) (data : Nat) (d : Device) : Device :=
  if !d.bit (PA_CTRL_EN l) || d.bit (PA_STATUS_LINK l) then d
  else
    let d := d.emit (.preamp l true (d.paAddr l 7) 0)
    if bitsOf data 12 4 ≠ 0b1010 then
      (d.incSat (PA_STATUS_LINKERR l)).updWr l fun w => { w with goodReads := 0 }
    else
      let n := (d.wrp l).goodReads + 1
      if n < 2 then d.updWr l fun w => { w with goodReads := n }
      else
        let d := (d.updWr l fun w => { w with goodReads := 0, linkErrs := 0 }).wr (PA_STATUS_LINK l) 1
        (d.paFaultRead l data).paRewrite l

def execPreampLinkRetry (l : Lane) (data : Nat) (s : State) : Host.Outcome State Fault Refusal := s.upd (paLinkRetryEff l data)

/-- PA_CTRL_EN_WRITE: the bridge is enabled, or refused with event 0x2805, or disabled (R227). In a one-actuator structure LN1's bridge is
idle (R198, R211). -/
def paEnEff (l : Lane) (en : Bool) (d : Device) : Device :=
  if !en then
    let d := (d.wrAll [(PA_CTRL_EN l, 0), (PA_STATUS_LINK l, 0), (PA_STATUS_REFUSED l, 0), (PA_CMD_GO l, 0)]).updWr l fun w =>
      { w with frames := [], logical := [], brReady := false, stepsAsked := false, paFault := false }
    d.recheckGate l
  else if d.paRefuses l || d.held1 l then (d.wr (PA_STATUS_REFUSED l) 1).log l.src 0x2805 [d.paProfile l]
  else
    (d.wrAll [(PA_CTRL_EN l, 1), (PA_STATUS_LINK l, 1), (PA_STATUS_REFUSED l, 0)]).updWr l fun w => { w with linkErrs := 0, goodReads := 0 }

def execPaCtrlEnWrite (l : Lane) (en : Bool) (s : State) : Host.Outcome State Fault Refusal := s.upd (paEnEff l en)

/-- PA_CMD_GO: a direct frame is sent; refused while EN is 0 or a write operation runs (R227, R241). -/
def paCmdEff (l : Lane) (read : Bool) (addr data : Nat) (d : Device) : Device :=
  let d := d.wrAll [(PA_CMD_RD l, if read then 1 else 0), (PA_CMD_ADDR l, addr), (PA_CMD_DATA l, data)]
  if !d.bit (PA_CTRL_EN l) || d.writeOp l then d.wr (PA_CMD_REFUSED l) 1
  else
    (d.wrAll [(PA_CMD_REFUSED l, 0), (PA_CMD_GO l, 1)]).updWr l fun w =>
      { w with frames := w.frames ++ [{ read := read, addr := addr % 128, data := data % 65536, reg := none, direct := true }] }

def execPaCmdGo (l : Lane) (read : Bool) (addr data : Nat) (s : State) : Host.Outcome State Fault Refusal := s.upd (paCmdEff l read addr data)

/-! ### Write entries and the bridge's steps (R231 to R233) -/

/-- WSEL_LOAD: the write and drift entries are fetched; with the gate open the load waits for it to close (R232). -/
def wselLoadEff (l : Lane) (head zone : Nat) (d : Device) : Device :=
  let h := head % 16
  let z := zone % 64
  let d := (d.wr (WSEL_HEAD l) h).wr (WSEL_ZONE l) z
  if d.gateOpen l then d.updWr l fun w => { w with loadHeld := some (h, z) } else d.updWr l fun w => { w with load := some (h, z) }

def execWselLoad (l : Lane) (head zone : Nat) (s : State) : Host.Outcome State Fault Refusal := s.upd (wselLoadEff l head zone)

/-- Good entries applied: OPLV is computed and the levels go to the preamp (R232). -/
def Device.applyWEntry (d : Device) (l : Lane) (e : WEntry) : Device :=
  let op := e.oplv d.powerOnHours (d.rd (AST_MAX_MAX l))
  let d := d.wrAll
    [(WSEL_LOADED l, 1), (WSEL_BAD l, 0), (AST_LEVEL_OPLV l, op.toNat), (AST_LEVEL_PB l, e.astPb),
     (AST_LEVEL_CLIP l, if op = e.level d.powerOnHours then 0 else 1)]
  let d := d.updWr l fun w => { w with entry := e }
  let d := if d.rd (PA_HTRMAX_MAX l) < e.htrRd ∨ d.rd (PA_HTRMAX_MAX l) < e.htrWr then
      (d.wr (PA_STATUS_HCLIP l) 1).log l.src 0x280F
    else d
  (((((d.paWrite l 2 e.iw).paWrite l 3 (e.osa * 256 + e.osd)).paWrite l 5 op.toNat).paWrite l 6 e.astPb)).paWrite l 4 (d.htrClip l e.htrRd)

/-- WRITE_ENTRY_FETCHED: both entries good are applied; otherwise neither is, and the gate stays shut (R225, R232). -/
def wEntryEff (l : Lane) (d : Device) : Device :=
  match (d.wrp l).load with
  | none => d
  | some (h, z) =>
    let d := d.updWr l fun w => { w with load := none }
    let a := d.wEntryAddr l h z
    let b := d.driftAddr l h
    let v := d.memNum 64 a
    let x := d.memNum 16 b
    let r := if d.entryReadable a 64 then wEntryCheck v h z else 1
    let q := if d.entryReadable b 16 then driftCheck x h else 1
    if r = 0 ∧ q = 0 then d.applyWEntry l (wEntryOf v x)
    else (d.wrAll [(WSEL_LOADED l, 0), (WSEL_BAD l, 1), (WR_INT_TBL_BAD l, 1)]).log l.src 0x2807 [h, z, if r ≠ 0 then r else q]

def execWriteEntryFetched (l : Lane) (s : State) : Host.Outcome State Fault Refusal := s.upd (wEntryEff l)

/-- Port BRIDGE, 1: steps 1 and 2 of R233 asked for: the write heater, then MODE write. -/
def Device.bridgeStart (d : Device) (l : Lane) : Device :=
  let d := d.updWr l fun w => { w with stepsAsked := true, brReady := false, assistStop := false }
  (d.paWrite l 4 (d.htrClip l (d.wrp l).entry.htrWr)).paWrite l 0 (d.modeData 3)

/-- BRIDGE_WRITE_END: step 4 of R233: MODE read, then the read heater. -/
def Device.bridgeEnd (d : Device) (l : Lane) : Device :=
  let d := d.updWr l fun w => { w with stepsAsked := false, brReady := false }
  (d.paWrite l 0 (d.modeData 2)).paWrite l 4 (d.htrClip l (d.wrp l).entry.htrRd)

/-- BRIDGE_READY: the heater and MODE writes have completed before their leads (R233). -/
def bridgeReadyEff (l : Lane) (d : Device) : Device :=
  if (d.wrp l).stepsAsked && d.paLogical l 0 % 4 == 3 && !((d.wrp l).frames.any fun f => f.reg == some 0 || f.reg == some 4) then
    d.updWr l fun w => { w with brReady := true }
  else d

def execBridgeReady (l : Lane) (s : State) : Host.Outcome State Fault Refusal := s.upd (bridgeReadyEff l)

/-! ### Neighbour check and calibration (R236, R240) -/

/-- NEIGHBOUR_CHECK: after a PES or shock inhibit in a write, the previous track's sectors are read back: `weak` are the band's data-class
indices that failed or decoded only late and were recovered, `lost` those that neither stripe code nor retries recover. Current ones are
relocated, or their blocks lost (R236). -/
def neighbourEff (l : Lane) (band : Nat) (weak lost : List Nat) (spareFull : Bool) (d : Device) : Device :=
  if !(d.wrp l).neighbour then d
  else
    match d.host.tables.band band with
    | none => d.updWr l fun w => { w with neighbour := false }
    | some x =>
      let move := weak.filter fun i => (d.current band i).isSome
      let gone := lost.filterMap (d.current band)
      let d := move.foldl (fun d i => d.relocate band x spareFull i) d
      let d := (lostRuns gone).foldl (fun d r => d.queueSeq fun s => .lostRange s r.1 r.2.1 r.2.2 band) d
      let n := if spareFull then 0 else move.length
      (d.updWr l fun w => { w with neighbour := false, checked := (gone.length, n) }).log l.src 0x280E [gone.length, n]

def execNeighbourCheck (l : Lane) (band : Nat) (weak lost : List Nat) (spareFull : Bool) (s : State) : Host.Outcome State Fault Refusal :=
  s.upd (neighbourEff l band weak lost spareFull)

/-- The five segments' steps from the level in force (R240). -/
def calSteps : List Int := [-16, -8, 0, 8, 16]

/-- The lowest step whose mean lies within 1 iteration of the best; means are in 1/256 iterations (R240). -/
def calPick (means : List Nat) : Int :=
  let best := means.foldl min (means.headD 0)
  (((calSteps.zip means).find? fun p => decide (p.2 ≤ best + 256)).map (·.1)).getD 0

/-- WRITE_CALIBRATION: under the lane's grant, five segments are written and read. The operate level's change goes into the head's drift
entry, with RATE and POHC; write-current calibration changes IW in every zone entry of the head (R240). -/
def writeCalEff (l : Lane) (means : List Nat) (d : Device) : Device :=
  match d.calGrantOf l with
  | none => d
  | some (kind, h, _) =>
    if means.length ≠ 5 then d
    else
      let step := calPick means
      let b := d.driftAddr l h
      let x := d.memNum 16 b
      let drift := toSigned 16 (entryField x 2 2)
      let rate := toSigned 16 (entryField x 4 2)
      let pohc := entryField x 8 4
      let poh := d.powerOnHours
      if kind = 3 then
        let new := drift + step
        let rate' := if poh - pohc < 100 then rate else clampI (-32768) 32767 (16000 * (new - drift) / ((poh - pohc : Nat) : Int))
        (d.setNum 16 b (driftBytes h new rate' poh)).log l.src 0x280C [h, ofSigned 16 drift, ofSigned 16 new, ofSigned 16 rate, ofSigned 16 rate']
      else if kind = 4 then
        ((List.range 64).foldl (fun d z =>
          let a := d.wEntryAddr l h z
          let v := d.memNum 64 a
          if wEntryCheck v h z ≠ 0 then d
          else
            let iw := (clampI 0 1023 ((entryField v 4 2 : Int) + step)).toNat
            let v := putBits v 32 16 iw
            d.setNum 64 a (putBits v (8 * 0x3C) 32 (crc32cNum 0x3C (v % 2 ^ (8 * 0x3C))))) d).log l.src 0x280C
          [h, ofSigned 16 drift, ofSigned 16 drift, ofSigned 16 rate, ofSigned 16 rate]
      else d

def execWriteCalibration (l : Lane) (means : List Nat) (s : State) : Host.Outcome State Fault Refusal := s.upd (writeCalEff l means)

end Sys2Proof.Machine
end

