-- ==== Sys2Proof/Machine/EscOps.lean ====
section
/-!
DEFINITION. The escapement's operations: descriptors and their refusals, frame entries, legal microwords, next addresses and traps, conditions,
ports, machine check, the end of an operation (R304 to R324).
-/
namespace Sys2Proof.Machine

/-! ### The end of an operation (R233, R308, R322, R328) -/

/-- What an operation's end undoes beside its completion: step 4 of R233 for a write whose steps 1 and 2 were asked for, and the settings of a
retry (R233, R262, R328). -/
def Device.afterOp (d : Device) (q : SeqId) (o : EcOp) : Device :=
  let l := q.lane
  let d := if o.writes && (d.wrp l).stepsAsked then d.bridgeEnd l else d
  if !o.retryFlag then d
  else
    let d := if d.rd (RETRY_HEAT l o.r) = 0 ∨ (d.wrp l).heaterOpen = true then d else d.paWrite l 4 (d.htrClip l (d.wrp l).entry.htrRd)
    d.setOffset l 0

/-- A machine check: every arm and gate request dropped, a completion with STATUS 0x02 and the stop bits, the cause and the address recorded,
the sequencer halted; `trap` says that the word with bad parity is a trap register (R322, R329): MACHINE_CHECK. -/
def Device.machineCheck (d : Device) (q : SeqId) (cause addr : Nat) (trap : Bool := false) : Device :=
  match (d.ec q).op with
  | none => d
  | some o =>
    let d := match (d.wrp q.lane).gate with | some (g, _) => if g = q then d.cutGate q.lane else d | none => d
    let d := d.updCh q.lane fun c => { c with slots := c.slots.filter fun s => !(s.seq == q && !s.captured) }
    let d := d.completeOp q 2 0 (d.rd (EC_STOP_CAUSES q))
    let d := d.wrAll [(EC_STOP_CAUSES q, 0), (EC_CTRL_ABORT q, 0), (EC_MCHK_CAUSE q, cause), (EC_MCHK_ADDR q, addr), (EC_STATUS_HALT q, 1),
      (EC_INT_MCHK q, 1)]
    let inPatch := decide (0x4000 ≤ addr) && decide (addr < 0x5000)
    let d := if (cause == 1 && inPatch) || (cause == 7 && (inPatch || trap)) then d.wr (EC_STATUS_PATCHBAD q) 1 else d
    (d.log q.lane.src 0x2020 [q.lane.idx, if q.second then 1 else 0, cause, addr, o.code]).afterOp q o

/-! ### Descriptors (R305, R306) -/

/-- The staged descriptor. -/
def Device.staged (d : Device) (q : SeqId) : EcOp := { desc := (List.range 16).map fun i => d.rd (EC_DESC_D q i) }

/-- A patch RAM word (R323). -/
def Device.patchWord (d : Device) (q : SeqId) (i : Nat) : Nat := (Sparse.find (d.ec q).patch i).getD (d.ec q).patchFill

/-- An operation code's dispatch word is valid, and where it points (R323, R324). -/
def Device.dispatchWord (d : Device) (q : SeqId) (c : Nat) : Option Nat :=
  if d.bit (EC_STATUS_PVEC q) then
    (if (d.patchWord q c).testBit 31 then some (bitsOf (d.patchWord q c) 0 15) else none)
  else if 1 ≤ c ∧ c ≤ 6 then some (if c = 2 then 0x0400 else Config.romEntry c % 2 ^ 14)
  else none

/-- The address of the frame entry for head and zone (R314). -/
def Device.frameAddr (d : Device) (q : SeqId) (h z : Nat) : Nat := d.tableAddr (EC_FRAME_BASE_ADDR q) h z 32

/-- Sectors per track of the frame entry a descriptor names. -/
def Device.descSpt (d : Device) (q : SeqId) (o : EcOp) : Nat := entryField (d.memNum 32 (d.frameAddr q o.head o.zone)) 0x16 2

/-- The slipped positions from the first slot's to the track's end. -/
def Device.skipped (d : Device) (o : EcOp) (spt : Nat) : Nat :=
  ((List.range o.skipCount).filter fun i =>
    let s := d.memNum 2 (o.skipAddr + 2 * i)
    decide (o.sector ≤ s) && decide (s < spt)).length

/-- The head count of a lane in CB_STRUCT. -/
def Device.laneHeads (d : Device) (l : Lane) : Nat := d.rd (match l with | .ln0 => CB_STRUCT_HEADS0 | .ln1 => CB_STRUCT_HEADS1)

/-- Why a GO is refused (R306); 0 where it is accepted. -/
def Device.postReason (d : Device) (q : SeqId) (o : EcOp) : Nat :=
  let spt := d.descSpt q o
  if 4 ≤ (d.ec q).queue.length then 1
  else if (d.dispatchWord q o.code).isNone then 2
  else if 15 < o.r ∨ d.laneHeads q.lane ≤ o.head ∨ 63 < o.zone ∨ o.kind = 0 ∨ 5 < o.kind ∨ o.count = 0 ∨ 4095 < o.count ∨ spt ≤ o.sector ∨
      o.revLimit = 0 ∨ 1024 < o.skipCount then 3
  else if spt - o.sector - d.skipped o spt < o.count then 4
  else if !d.bit (EC_CTRL_EN q) then 5
  else if o.writes && !o.stripe && (List.range o.count).any (fun k => d.slotPage o k == 0xFFFF) then 6
  else 0

/-- The fields of a frame entry, where it is good for head and zone (R314). -/
def frameEntryOf (v h z sector : Nat) : Option FrameEntry :=
  let f := entryField v
  let e : FrameEntry := { area := f 4 4, gapa := f 8 2, rgl := f 0xA 2, slen := f 0xC 4, ofs0 := f 0x10 4, minfrag := f 0x14 2, spt := f 0x16 2 }
  if crc32cNum 0x1C (v % 2 ^ (8 * 0x1C)) = f 0x1C 4 ∧ f 0 2 = 1 ∧ f 2 1 = h ∧ f 3 1 = z ∧ e.slen + 84 ≤ e.area ∧ e.area ≤ 2 ^ 20 ∧
      1 ≤ e.gapa ∧ e.gapa ≤ 4095 ∧ e.rgl ≤ 255 ∧ 33000 ≤ e.slen ∧ e.slen ≤ 40000 ∧ e.ofs0 < e.area ∧ 256 ≤ e.minfrag ∧ e.minfrag ≤ 4095 ∧
      1 ≤ e.spt ∧ e.spt ≤ 4095 ∧ sector < e.spt then some e
  else none

/-! ### Microwords (R309, R311, R312, R322, R323) -/

/-- The opcode of a microword. -/
def ecOpcode (w : Nat) : Nat := bitsOf w 27 5

/-- The reserved bits of a form; none for an opcode absent from the table (R309). -/
def reservedMask : Nat → Option Nat
  | 0x00 => some 0x07FFFFFF
  | 0x01 => some 0x007F0000
  | 0x02 => some 0x00000FFF
  | 0x03 => some 0x0007F000
  | 0x04 => some 0x007FFF00
  | 0x05 => some 0x007FFF00
  | 0x06 => some 0x07000000
  | 0x07 => some 0x07FF8000
  | 0x08 => some 0x001F8000
  | 0x09 => some 0x000F8000
  | 0x0A => some 0x07FF8000
  | 0x0B => some 0x07FFFFFF
  | 0x0C => some 0x0007F000
  | 0x0D => some 0x07FFFFF0
  | 0x0E => some 0x07FFFF00
  | _ => none

/-- A microword is legal (R309, R312). -/
def legalWord (w : Nat) : Bool :=
  match reservedMask (ecOpcode w) with
  | none => false
  | some m => (w &&& m) == 0 && !(ecOpcode w == 0x0C && bitsOf w 0 12 == 0)

/-- EC_TRAP_REDIRECT: a next address that an enabled trap names becomes its target; the lower trap wins (R323). -/
def Device.trapTo (d : Device) (q : SeqId) (t : Nat) : Nat :=
  match (List.range 8).find? fun k => d.bit (EC_TRAP_EN q k) && d.rd (EC_TRAP_ROM q k) == t with
  | none => t
  | some k => d.rd (EC_TRAP_TARGET q k)

/-- The sequencer goes to a next address. -/
def Device.ecGo (d : Device) (q : SeqId) (t : Nat) : Device :=
  let a := d.trapTo q (t % 2 ^ 15)
  (d.updOp q fun o => { o with pc := a }).wr (EC_STATUS_PC q) a

/-- A safe point: the count of R318 starts again, and a pending stop is taken (R317, R318). -/
def Device.safePoint (d : Device) (q : SeqId) : Device := (d.updOp q fun o => { o with words := 0 }).takeStop q

/-- The sequencer fetches: an operation with its frame entry runs, no stop is taken, no WAIT or END holds it (R312, R314, R320). -/
def EcOp.fetching (o : EcOp) : Bool := o.frame.isSome && o.stopping.isNone && o.wait.isNone && o.ending.isNone

/-- One microword of opcode `op`: `w` is the word at a ROM address, `err` what the fetch meets. `f` is the form's operation on the word and the
operation. A fetch that fails, and an illegal word, are machine checks; a legal word of another form has no effect here. A word that is no safe
point counts towards R318's 256. -/
def Device.ecStep (d : Device) (q : SeqId) (w : Word) (err : FetchErr) (op : Nat) (safe : Bool) (f : Nat → EcOp → Device → Device) : Device :=
  match (d.ec q).op with
  | none => d
  | some o =>
    if !o.fetching then d
    else
      let w := if 0x4000 ≤ o.pc ∧ o.pc < 0x5000 then d.patchWord q (o.pc - 0x4000) else w.toNat
      if err = .trap then d.machineCheck q 7 o.pc true
      else if 0x5000 ≤ o.pc then d.machineCheck q 3 o.pc
      else if err = .word then d.machineCheck q 1 o.pc
      else if !legalWord w then d.machineCheck q 2 o.pc
      else if ecOpcode w ≠ op then d
      else if safe then f w o d
      else
        let d := f w o (d.updOp q fun o => { o with words := o.words + 1 })
        if 255 ≤ o.words then d.machineCheck q 5 o.pc else d

/-! ### Registers, flags (R309) -/

/-- A general register. -/
def EcOp.reg (o : EcOp) (i : Nat) : Nat := o.g.getD i 0

/-- A general register written, and the next address. -/
def Device.ecSet (d : Device) (q : SeqId) (i v : Nat) : Device := d.updOp q fun o => { o with g := o.g.set i (v % 2 ^ 32) }

/-- A result written with its flags: Z of 0, N of bit 31, C as given (R309). -/
def Device.ecResult (d : Device) (q : SeqId) (i v : Nat) (c : Bool) : Device :=
  let v := v % 2 ^ 32
  (d.ecSet q i v).updOp q fun o => { o with z := v == 0, n := v.testBit 31, c := c }

/-- The C of an operation that the spec gives no rule for it: free. -/
def Device.freeFlag (d : Device) : Bool × Device := let (b, d) := d.takeFree 1; (b == 1, d)

/-! ### Conditions (R310) -/

/-- The servo is in FOLLOW on the descriptor's head and track (R310). -/
def Device.onTrack (d : Device) (l : Lane) (o : EcOp) : Bool :=
  (d.sv l).st == .follow && d.rd (SV_STATUS_HEAD l) == o.head && d.rd (SV_TARGET_TRACK l) == o.track

/-- The sequencer owns its lane's gates (R307). -/
def Device.token (d : Device) (q : SeqId) : Bool := (d.lane q.lane).owner == some q.second

/-- Condition `c` for an operation (R310). -/
def Device.cond (d : Device) (q : SeqId) (o : EcOp) (x : CondObs) (c : Nat) : Bool :=
  match c with
  | 0 => x.sectStart
  | 1 => x.wedge
  | 2 => x.index
  | 3 => x.inArea
  | 4 => !o.outs.isEmpty
  | 5 => match o.outs with | p :: _ => decide (p.1 ≤ 6) | [] => false
  | 6 => o.hold
  | 7 => match o.outs with | p :: _ => p.1 == 8 | [] => false
  | 8 => decide (o.wArms.length < 2)
  | 9 => x.wrReady || d.slotParity o o.k
  | 10 => o.wArms.isEmpty
  | 11 => o.pageFault
  | 12 => d.inhibited q.lane
  | 13 => d.onTrack q.lane o
  | 14 => (d.wrp q.lane).brReady
  | 15 => (d.wrp q.lane).assistStop
  | 16 => !o.vpend.isEmpty
  | 17 => !o.vmiss.isEmpty
  | 18 => d.token q
  | 19 => o.k + 1 == o.count
  | 20 => x.split
  | 21 => o.done == o.count
  | 22 => o.tmo
  | 23 => d.rd (EC_STOP_CAUSES q) != 0
  | 24 => o.z
  | 25 => o.n
  | 26 => o.c
  | 27 => d.duplex
  | 28 => d.wguard1
  | 29 => true
  | _ => false

/-- The four bits of a group, bit i in place i (R311). -/
def Device.condGroup (d : Device) (q : SeqId) (o : EcOp) (x : CondObs) (g : Nat) : Nat :=
  ((List.range 4).map fun i => if d.cond q o x (4 * g + i) then 2 ^ i else 0).foldl (· + ·) 0

/-! ### Ports (R313, R316) -/

/-- A read port's value; none is a port error. OUTCOME pops the oldest outcome; with none waiting the spec states no value (R313). -/
def Device.readPort (d : Device) (q : SeqId) (o : EcOp) (p : Nat) : Option (Nat × Device) :=
  if p < 16 then some (o.w p, d)
  else
    match p with
    | 0x10 => some (o.k, d)
    | 0x11 => some (o.count - o.k, d)
    | 0x12 => some (o.done, d)
    | 0x13 =>
      match o.outs with
      | [] => some (d.takeFree 32)
      | (code, k) :: _ => some (code + k * 2 ^ 16, d.updOp q fun o => { o with outs := o.outs.drop 1 })
    | 0x14 => some (d.rd (EC_PROG_REV q), d)
    | 0x15 => some ((d.sv q.lane).idx.getD 0, d)
    | _ => none

/-- ESC_PORT_RG: 1 arms the current slot for reading, 0 withdraws unstarted arms (R313, R316). -/
def Device.portRg (d : Device) (q : SeqId) (v : Nat) : Device :=
  match v with
  | 0 => d.updOp q fun o => { o with rArms := [] }
  | 1 => (d.updOp q fun o => { o with rArms := if o.rArms.contains o.k then o.rArms else o.rArms ++ [o.k] }).passOwner q.lane
  | _ => d

/-- A write port written; none is a port error (R313, R316): ESC_PORT_WG, ESC_PORT_BRIDGE, ESC_PORT_NEXT, ESC_PORT_SLOTSET. -/
def Device.writePort (d : Device) (q : SeqId) (o : EcOp) (p v : Nat) : Option Device :=
  match p with
  | 0x20 => some (d.portRg q v)
  | 0x21 =>
    if v ≠ 1 then some d
    else if 2 ≤ o.wArms.length then none
    else some ((d.updOp q fun o => { o with wArms := o.wArms ++ [o.k] }).passOwner q.lane)
  | 0x22 => some (if v = 1 then d.bridgeStart q.lane else if v = 2 then d.bridgeEnd q.lane else d)
  | 0x23 => if o.count ≤ o.k + 1 then none else some (d.updOp q fun o => { o with k := o.k + 1 })
  | 0x24 => some (d.updOp q fun o => { o with k := v })
  | _ => none

end Sys2Proof.Machine
end

