-- ==== Sys2Proof/Machine/Escapement.lean ====
section
/-!
DEFINITION. The escapement sequencers' commands (R304 to R331): posting, dispatch, the microwords, waits, stops, completions.
-/
namespace Sys2Proof.Machine

/-! ### Posting and control (R304, R306, R308, R319, R322, R329) -/

/-- EC_POST_GO: the staged descriptor is queued, or refused with its reason (R304, R306). -/
def postGoEff (q : SeqId) (d : Device) : Device :=
  let o := d.staged q
  let r := d.postReason q o
  if r = 0 then (d.wrAll [(EC_POST_REFUSED q, 0), (EC_POST_REASON q, 0)]).updEc q fun x => { x with queue := x.queue ++ [o.desc] }
  else (d.wrAll [(EC_POST_REFUSED q, 1), (EC_POST_REASON q, r), (EC_INT_REFUSED q, 1)]).logRate q.lane.src 0x2023 q.idx [r]

def execEcPostGo (q : SeqId) (s : State) : Host.Outcome State Fault Refusal := s.upd (postGoEff q)

/-- EC_EN_WRITE: EN = 1 is ignored for a sequencer held in reset and after a failed patch load (R304, R326). -/
def ecEnEff (q : SeqId) (en : Bool) (d : Device) : Device :=
  if d.held1 q.lane || d.rd (EC_STATUS_PATCHERR q) != 0 then (if en then d else d.wr (EC_CTRL_EN q) 0) else d.wrB (EC_CTRL_EN q) en

def execEcEnWrite (q : SeqId) (en : Bool) (s : State) : Host.Outcome State Fault Refusal := s.upd (ecEnEff q en)

/-- EC_ABORT: the stop cause ABORT; ignored with no operation running (R319, R329). -/
def ecAbortEff (q : SeqId) (d : Device) : Device :=
  if (d.ec q).op.isNone then d else (d.wr (EC_CTRL_ABORT q) 1).stopCause q 0

def execEcAbort (q : SeqId) (s : State) : Host.Outcome State Fault Refusal := s.upd (ecAbortEff q)

/-- EC_RESTART: HALT clears and dispatch resumes, unless a patch needs reloading (R322, R330). -/
def ecRestartEff (q : SeqId) (d : Device) : Device :=
  if d.bit (EC_STATUS_PATCHBAD q) then d else (d.wr (EC_STATUS_HALT q) 0).setWord (EC_MCHK q) 0

def execEcRestart (q : SeqId) (s : State) : Host.Outcome State Fault Refusal := s.upd (ecRestartEff q)

/-- EC_FLUSH: the queued operations complete with STATUS 0x04; the running one goes on (R308, R329). -/
def ecFlushEff (q : SeqId) (d : Device) : Device :=
  let queued := (d.ec q).queue
  if queued.isEmpty then d
  else
    let cpl (desc : List Nat) : List Nat := [4 * 2 ^ 24, desc.getD 9 0, 0, 0xFFFF0000]
    (d.updEc q fun x => { x with queue := [], cpls := x.cpls ++ queued.map cpl }).wr (EC_INT_CPL q) 1

def execEcFlush (q : SeqId) (s : State) : Host.Outcome State Fault Refusal := s.upd (ecFlushEff q)

/-- EC_CPL_POP: a read of EC_CPL3 answers the oldest completion's last word and pops it (R308, R330). -/
def ecCplPopEff (q : SeqId) (d : Device) : Device :=
  match (d.ec q).cpls with
  | [] => d.answer none (.data 0)
  | c :: cs => (d.updEc q fun x => { x with cpls := cs }).answer none (.data (c.getD 3 0))

def execEcCplPop (q : SeqId) (s : State) : Host.Outcome State Fault Refusal := s.upd (ecCplPopEff q)

/-- The settings of a retry applied at dispatch: the target's offset, and the read heater's change (R233, R262, R328). READ_OFFSET_CHANGE. -/
def Device.applyRetry (d : Device) (l : Lane) (o : EcOp) : Device :=
  if !o.retryFlag then d.setOffset l 0
  else
    let h := d.rdI (RETRY_HEAT l o.r)
    let d := if h = 0 ∨ (d.wrp l).heaterOpen = true then d
      else d.paWrite l 4 (d.htrClip l (max 0 (((d.wrp l).entry.htrRd : Int) + h)).toNat)
    d.setOffset l (d.rdI (RETRY_OFFTRK l o.r))

/-- A lane's dispatch is barred: its duty in this window has reached the cap, or the throttle step is 6 (R414). -/
def Device.dispatchBarred (d : Device) (l : Lane) : Bool :=
  (match l with | .ln0 => d.duty.barred0 | .ln1 => d.duty.barred1) || decide (6 ≤ d.rd RG_THSTAT_STEP)

/-- EC_DISPATCH: the oldest queued operation starts, and its frame entry's fetch begins. `bad` says that its dispatch word has bad parity (R304,
R308, R309, R314, R322, R323). -/
def dispatchEff (q : SeqId) (bad : Bool) (d : Device) : Device :=
  match (d.ec q).queue with
  | [] => d
  | desc :: rest =>
    if (d.ec q).op.isSome || !d.bit (EC_CTRL_EN q) || d.bit (EC_STATUS_HALT q) || decide (8 ≤ (d.ec q).cpls.length) || d.dispatchBarred q.lane then d
    else
      let o : EcOp := { desc := desc }
      let d := (d.updEc q fun x => { x with queue := rest, op := some o }).setWord (EC_PROG q) 0
      let d := (d.wrAll [(EC_STATUS_RUN q, 1), (EC_STOP_CAUSES q, 0)]).applyRetry q.lane o
      if bad then d.machineCheck q 7 (if d.bit (EC_STATUS_PVEC q) then 0x4000 + o.code else o.code)
      else
        match d.dispatchWord q o.code with
        | none => d.machineCheck q 2 (if d.bit (EC_STATUS_PVEC q) then 0x4000 + o.code else o.code)
        | some t => d.ecGo q t

def execEcDispatch (q : SeqId) (bad : Bool) (s : State) : Host.Outcome State Fault Refusal := s.upd (dispatchEff q bad)

/-- FRAME_ENTRY_FETCHED: a good entry lets the routine start; a bad one ends the operation with STATUS 0x03 and no gate opened (R314). -/
def frameEff (q : SeqId) (d : Device) : Device :=
  match (d.ec q).op with
  | none => d
  | some o =>
    if o.frame.isSome then d
    else
      let a := d.frameAddr q o.head o.zone
      let e := if d.entryReadable a 32 then frameEntryOf (d.memNum 32 a) o.head o.zone o.sector else none
      match e with
      | some e => (d.updOp q fun o => { o with frame := some e }).safePoint q
      | none => (d.completeOp q 3 0 0).afterOp q o

def execFrameEntryFetched (q : SeqId) (s : State) : Host.Outcome State Fault Refusal := s.upd (frameEff q)

/-! ### Microwords (R309 to R313) -/

/-- EC_NOP (R309). -/
def ecNopEff (q : SeqId) (w : Word) (err : FetchErr) (d : Device) : Device :=
  d.ecStep q w err 0x00 false fun _ o d => d.ecGo q (o.pc + 1)

def execEcNop (q : SeqId) (w : Word) (err : FetchErr) (s : State) : Host.Outcome State Fault Refusal := s.upd (ecNopEff q w err)

/-- EC_LDI: G[g] = imm, zero-extended (R309). -/
def ecLdiEff (q : SeqId) (w : Word) (err : FetchErr) (d : Device) : Device :=
  d.ecStep q w err 0x01 false fun w o d => (d.ecSet q (bitsOf w 23 4) (bitsOf w 0 16)).ecGo q (o.pc + 1)

def execEcLdi (q : SeqId) (w : Word) (err : FetchErr) (s : State) : Host.Outcome State Fault Refusal := s.upd (ecLdiEff q w err)

/-- The result of an ALU function, and its C where the spec gives one: the carry of an addition (R309). -/
def aluResult (fn a b : Nat) : Nat × Option Bool :=
  match fn with
  | 0 => (a + b, some (decide (2 ^ 32 ≤ a + b)))
  | 1 => (a + (2 ^ 32 - b), none)
  | 2 => (a &&& b, none)
  | 3 => (a ||| b, none)
  | 4 => (a ^^^ b, none)
  | 5 => (a, none)
  | 6 => (2 * a, none)
  | _ => (a / 2, none)

/-- EC_ALU: eight functions, setting Z, N and C (R309). -/
def ecAluEff (q : SeqId) (w : Word) (err : FetchErr) (d : Device) : Device :=
  d.ecStep q w err 0x02 false fun w o d =>
    let r := aluResult (bitsOf w 12 3) (o.reg (bitsOf w 19 4)) (o.reg (bitsOf w 15 4))
    let (c, d) := match r.2 with | some c => (c, d) | none => d.freeFlag
    (d.ecResult q (bitsOf w 23 4) r.1 c).ecGo q (o.pc + 1)

def execEcAlu (q : SeqId) (w : Word) (err : FetchErr) (s : State) : Host.Outcome State Fault Refusal := s.upd (ecAluEff q w err)

/-- EC_ADDI: d = a + imm, signed, setting Z, N and C (R309). -/
def ecAddiEff (q : SeqId) (w : Word) (err : FetchErr) (d : Device) : Device :=
  d.ecStep q w err 0x03 false fun w o d =>
    let r := aluResult 0 (o.reg (bitsOf w 19 4)) (ofSigned 32 (toSigned 12 (bitsOf w 0 12)))
    (d.ecResult q (bitsOf w 23 4) r.1 (r.2.getD false)).ecGo q (o.pc + 1)

def execEcAddi (q : SeqId) (w : Word) (err : FetchErr) (s : State) : Host.Outcome State Fault Refusal := s.upd (ecAddiEff q w err)

/-- EC_RDP: G[g] = read port p (R309, R313). -/
def ecRdpEff (q : SeqId) (w : Word) (err : FetchErr) (d : Device) : Device :=
  d.ecStep q w err 0x04 false fun w o d =>
    match d.readPort q o (bitsOf w 0 8) with
    | none => d.machineCheck q 6 o.pc
    | some (v, d) => (d.ecSet q (bitsOf w 23 4) v).ecGo q (o.pc + 1)

def execEcRdp (q : SeqId) (w : Word) (err : FetchErr) (s : State) : Host.Outcome State Fault Refusal := s.upd (ecRdpEff q w err)

/-- A write port given a value, and the next address; a port error is a machine check (R313, R322). -/
def Device.ecWritePort (d : Device) (q : SeqId) (o : EcOp) (p v : Nat) : Device :=
  match d.writePort q o p v with
  | none => d.machineCheck q 6 o.pc
  | some d => d.ecGo q (o.pc + 1)

/-- EC_WRP: write port p with G[g] (R309, R313). -/
def ecWrpEff (q : SeqId) (w : Word) (err : FetchErr) (d : Device) : Device :=
  d.ecStep q w err 0x05 false fun w o d => d.ecWritePort q o (bitsOf w 0 8) (o.reg (bitsOf w 23 4))

def execEcWrp (q : SeqId) (w : Word) (err : FetchErr) (s : State) : Host.Outcome State Fault Refusal := s.upd (ecWrpEff q w err)

/-- EC_WRPI: write port p with imm (R309, R313). -/
def ecWrpiEff (q : SeqId) (w : Word) (err : FetchErr) (d : Device) : Device :=
  d.ecStep q w err 0x06 false fun w o d => d.ecWritePort q o (bitsOf w 0 8) (bitsOf w 8 16)

def execEcWrpi (q : SeqId) (w : Word) (err : FetchErr) (s : State) : Host.Outcome State Fault Refusal := s.upd (ecWrpiEff q w err)

/-- EC_JMP: next address t (R309). -/
def ecJmpEff (q : SeqId) (w : Word) (err : FetchErr) (d : Device) : Device :=
  d.ecStep q w err 0x07 false fun w _ d => d.ecGo q (bitsOf w 0 15)

def execEcJmp (q : SeqId) (w : Word) (err : FetchErr) (s : State) : Host.Outcome State Fault Refusal := s.upd (ecJmpEff q w err)

/-- EC_BR: next address t if condition c equals s (R309, R310). -/
def ecBrEff (q : SeqId) (w : Word) (err : FetchErr) (x : CondObs) (d : Device) : Device :=
  d.ecStep q w err 0x08 false fun w o d =>
    d.ecGo q (if d.cond q o x (bitsOf w 22 5) == (bitsOf w 21 1 == 1) then bitsOf w 0 15 else o.pc + 1)

def execEcBr (q : SeqId) (w : Word) (err : FetchErr) (x : CondObs) (s : State) : Host.Outcome State Fault Refusal := s.upd (ecBrEff q w err x)

/-- EC_MWB: next address t OR (G AND m) (R311). -/
def ecMwbEff (q : SeqId) (w : Word) (err : FetchErr) (x : CondObs) (d : Device) : Device :=
  d.ecStep q w err 0x09 false fun w o d => d.ecGo q (bitsOf w 0 15 ||| (d.condGroup q o x (bitsOf w 24 3) &&& bitsOf w 20 4))

def execEcMwb (q : SeqId) (w : Word) (err : FetchErr) (x : CondObs) (s : State) : Host.Outcome State Fault Refusal := s.upd (ecMwbEff q w err x)

/-- EC_CALL: push address + 1; next address t; a fifth entry overflows (R309, R322). -/
def ecCallEff (q : SeqId) (w : Word) (err : FetchErr) (d : Device) : Device :=
  d.ecStep q w err 0x0A false fun w o d =>
    if 4 ≤ o.stack.length then d.machineCheck q 4 o.pc
    else (d.updOp q fun o => { o with stack := (o.pc + 1) % 2 ^ 15 :: o.stack }).ecGo q (bitsOf w 0 15)

def execEcCall (q : SeqId) (w : Word) (err : FetchErr) (s : State) : Host.Outcome State Fault Refusal := s.upd (ecCallEff q w err)

/-- EC_RET: pop the next address; an empty stack underflows (R309, R322). -/
def ecRetEff (q : SeqId) (w : Word) (err : FetchErr) (d : Device) : Device :=
  d.ecStep q w err 0x0B false fun _ o d =>
    match o.stack with
    | [] => d.machineCheck q 4 o.pc
    | t :: ts => (d.updOp q fun o => { o with stack := ts }).ecGo q t

def execEcRet (q : SeqId) (w : Word) (err : FetchErr) (s : State) : Host.Outcome State Fault Refusal := s.upd (ecRetEff q w err)

/-- EC_WAIT: a wait begins, a safe point throughout (R312, R317). -/
def ecWaitEff (q : SeqId) (w : Word) (err : FetchErr) (d : Device) : Device :=
  d.ecStep q w err 0x0C true fun w _ d => (d.updOp q fun o => { o with wait := some ⟨bitsOf w 22 5, bitsOf w 21 1 == 1⟩ }).safePoint q

def execEcWait (q : SeqId) (w : Word) (err : FetchErr) (s : State) : Host.Outcome State Fault Refusal := s.upd (ecWaitEff q w err)

/-- WAIT_END: the wait's condition has come, or its time has ended; TMO says which, and the next address is address + 1 (R312). -/
def waitEndEff (q : SeqId) (timeout : Bool) (x : CondObs) (d : Device) : Device :=
  match (d.ec q).op with
  | none => d
  | some o =>
    match o.wait with
    | none => d
    | some wt =>
      if !timeout && d.cond q o x wt.c != wt.s then d
      else (d.updOp q fun o => { o with wait := none, tmo := timeout, words := 0 }).ecGo q (o.pc + 1)

def execWaitEnd (q : SeqId) (timeout : Bool) (x : CondObs) (s : State) : Host.Outcome State Fault Refusal := s.upd (waitEndEff q timeout x)

/-- EC_SAFE: PHASE = ph, at a safe point (R309, R317, R321). -/
def ecSafeEff (q : SeqId) (w : Word) (err : FetchErr) (d : Device) : Device :=
  d.ecStep q w err 0x0D true fun w o d => ((d.wr (EC_PROG_PHASE q) (bitsOf w 0 4)).ecGo q (o.pc + 1)).safePoint q

def execEcSafe (q : SeqId) (w : Word) (err : FetchErr) (s : State) : Host.Outcome State Fault Refusal := s.upd (ecSafeEff q w err)

/-- EC_END: a safe point; with a stop pending the stop is taken, else the operation ends with the code, a write under verification once its
verdicts are in (R308, R309, R329). -/
def ecEndEff (q : SeqId) (w : Word) (err : FetchErr) (d : Device) : Device :=
  d.ecStep q w err 0x0E true fun w o d =>
    let d := d.safePoint q
    match (d.ec q).op with
    | none => d
    | some p =>
      if p.stopping.isSome then d
      else if p.verify && d.verifyOn && !p.vpend.isEmpty then
        Device.afterOp (d.updOp q fun o => { o with ending := some (bitsOf w 0 8), rArms := [] }) q o
      else (d.completeOp q 0 (bitsOf w 0 8) 0).afterOp q o

def execEcEnd (q : SeqId) (w : Word) (err : FetchErr) (s : State) : Host.Outcome State Fault Refusal := s.upd (ecEndEff q w err)

/-! ### Stops and deadlines (R318 to R320) -/

/-- STOP_COMPLETE: with the gates closed, every captured slot's outcome in and no verdict outstanding, a stopped operation completes with STATUS
0x01 (R308, R320). -/
def stopCompleteEff (q : SeqId) (d : Device) : Device :=
  match (d.ec q).op with
  | none => d
  | some o =>
    match o.stopping with
    | none => d
    | some causes =>
      let gated := match (d.wrp q.lane).gate with | some (g, _) => g == q | none => false
      if gated || d.seqSlots q || (d.verifyOn && !o.vpend.isEmpty) then d
      else ((d.completeOp q 1 0 causes).wrAll [(EC_INT_STOPPED q, 1), (EC_STOP_CAUSES q, 0)]).afterOp q o

def execStopComplete (q : SeqId) (s : State) : Host.Outcome State Fault Refusal := s.upd (stopCompleteEff q)

/-- SAFE_POINT_DEADLINE: 2.000 µs have passed since the last safe point's end without another (R318); its arrival is the time's end. -/
def deadlineEff (q : SeqId) (d : Device) : Device :=
  match (d.ec q).op with
  | none => d
  | some o => if o.fetching then d.machineCheck q 5 o.pc else d

def execSafePointDeadline (q : SeqId) (s : State) : Host.Outcome State Fault Refusal := s.upd (deadlineEff q)

/-- REV_LIMIT: REV has reached the revolution limit (R319, R331). -/
def revLimitEff (q : SeqId) (d : Device) : Device :=
  match (d.ec q).op with
  | none => d
  | some o =>
    if d.rd (EC_PROG_REV q) < o.revLimit ∨ d.bit (EC_STOP_REVLIMIT q) = true ∨ o.stopping.isSome = true then d
    else (d.log q.lane.src 0x2024 [o.tag]).stopCause q 5

def execRevLimit (q : SeqId) (s : State) : Host.Outcome State Fault Refusal := s.upd (revLimitEff q)

end Sys2Proof.Machine
end

