-- ==== Sys2Proof/Machine/Fabric.lean ====
section
/-!
DEFINITION. The commands of the fabric: requests at a contended point, the rotating arbitration, the service port, the
response timeout (R30 to R33).
-/
namespace Sys2Proof.Machine

/-- FABRIC_REQUEST: an address outside the map, and a parity error in the address or command, are answered with a bus error
(R27, R30); a parity error in write data stores the word poisoned (R30); else the request waits at its point (R32). -/
def fabricRequestEff (id : Nat) (who : Requester) (urgent : Bool) (point : ContPoint) (a : Nat) (acc : Access)
    (par : Option ParityField) (d : Device) : Device :=
  let enqueue : Device := { d with fabric := { d.fabric with waiting := d.fabric.waiting ++
    [{ id := id, who := who, urgent := urgent, point := point, addr := a, acc := acc, waited := 0 }] } }
  match point with
  | .target _ =>
    if !d.inMap a then d.emit (.reply (some id) .busError)
    else match par with
      | none => enqueue
      | some .addressOrCommand => d.emit (.reply (some id) .busError)
      | some .readData => d.emit (.reply (some id) .uncorrectable)
      | some .writeData =>
        match acc with
        | .write v =>
          if d.memOpen a then
            (d.writePoisoned (alignWord a) (v % 2 ^ 64) .service).emit (.reply (some id) .writeToPoisoned)
          else d.emit (.reply (some id) .busError)
        | .read => d.emit (.reply (some id) .busError)
  | _ => match par with
    | none => enqueue
    | some _ => d.emit (.reply (some id) .busError)

def execFabricRequest (id : Nat) (who : Requester) (urgent : Bool) (point : ContPoint) (addr : Nat) (acc : Access)
    (par : Option ParityField) (s : State) : Host.Outcome State Fault Refusal :=
  s.upd (fabricRequestEff id who urgent point addr acc par)

/-- The oldest waiting request of a party at a point. -/
def Fabric.first (f : Fabric) (point : ContPoint) (p : Party) (urgentOnly : Bool) : Option FabReq :=
  f.waiting.find? fun r => decide (r.point = point) && decide (r.who = .party p) && (r.urgent || !urgentOnly)

/-- The oldest waiting service-port request at a point. -/
def Fabric.firstService (f : Fabric) (point : ContPoint) : Option FabReq :=
  f.waiting.find? fun r => decide (r.point = point) && (match r.who with | .service _ => true | .party _ => false)

/-- Which party's request a point grants: an urgent one first, else any, searching from the pointer (R32). -/
def Device.winner (d : Device) (point : ContPoint) : Option FabReq :=
  let order := rotation (d.pointer point)
  match order.findSome? fun p => d.fabric.first point p true with
  | some r => some r
  | none => order.findSome? fun p => d.fabric.first point p false

/-- A request leaves the waiting list for the outstanding ones. One grant has passed for every other request of the point. -/
def Device.grantReq (d : Device) (r : FabReq) : Device :=
  { d with fabric := { d.fabric with
      waiting := (d.fabric.waiting.filter (·.id != r.id)).map fun x =>
        if x.point = r.point then { x with waited := x.waited + 1 } else x
      granted := d.fabric.granted ++ [r.id] } }

/-- ARBITRATION_GRANT: one cycle of a contended point. The four parties go first and the pointer moves one step; the service
port is granted when none of them requests, without moving it. A service request that has waited 16 cycles has the cycle to
itself: SERVICE_PORT_FORCED_GRANT (R32, R33). -/
def arbitrationGrantEff (point : ContPoint) (d : Device) : Device :=
  match d.fabric.firstService point with
  | some sv =>
    if 16 ≤ sv.waited then d
    else match d.winner point with
      | some r => (d.grantReq r).setPointer point (d.pointer point).next
      | none => d.grantReq sv
  | none => match d.winner point with
    | some r => (d.grantReq r).setPointer point (d.pointer point).next
    | none => d

def execArbitrationGrant (point : ContPoint) (s : State) : Host.Outcome State Fault Refusal :=
  s.upd (arbitrationGrantEff point)

/-- SERVICE_PORT_FORCED_GRANT: after 16 cycles of waiting, ahead of every other request, the pointer unmoved (R33). -/
def servicePortForcedEff (point : ContPoint) (d : Device) : Device :=
  match d.fabric.firstService point with
  | some sv => if 16 ≤ sv.waited then d.grantReq sv else d
  | none => d

def execServicePortForcedGrant (point : ContPoint) (s : State) : Host.Outcome State Fault Refusal :=
  s.upd (servicePortForcedEff point)

/-- FABRIC_RESPONSE_TIMEOUT: the requester's port answers the request itself with a bus error (R31). -/
def fabricTimeoutEff (id : Nat) (d : Device) : Device :=
  if d.fabric.granted.contains id || d.fabric.waiting.any (·.id == id) then
    Device.emit { d with fabric := { d.fabric with
        waiting := d.fabric.waiting.filter (·.id != id)
        granted := d.fabric.granted.filter (· != id)
        timedOut := d.fabric.timedOut ++ [id] } } (.reply (some id) .busError)
  else d

def execFabricResponseTimeout (id : Nat) (s : State) : Host.Outcome State Fault Refusal := s.upd (fabricTimeoutEff id)

/-- LATE_RESPONSE_DISCARD: a response after the timeout is discarded (R31). -/
def lateDiscardEff (id : Nat) (d : Device) : Device :=
  { d with fabric := { d.fabric with timedOut := d.fabric.timedOut.filter (· != id) } }

def execLateResponseDiscard (id : Nat) (s : State) : Host.Outcome State Fault Refusal := s.upd (lateDiscardEff id)

end Sys2Proof.Machine
end

