-- ==== Sys2Proof/Machine/Management.lean ====
section
/-!
DEFINITION. NVMe-MI over SMBus, Force Power State, autonomous power-state steps, the Temperature Threshold feature (R48, R70, R71, R82,
R83, R412).
-/
namespace Sys2Proof.Machine

/-! ### NVMe-MI (R82) -/

/-- An NVMe-MI request answered while the regulator runs. -/
def Device.onMi (d : Device) (f : Device → Device) : Device := if d.regOn then f d else d

/-- A request refused: event 0x1009 (R84). -/
def Device.miRefuse (d : Device) (code : Nat) : Device := (d.emit (.mi code)).log 9 0x1009 [code]

/-- MI_READ_DATA_STRUCTURE: the subsystem's structure by type (R82). -/
def execMiReadDataStructure (typ : Nat) (s : State) : Host.Outcome State Fault Refusal :=
  s.upd fun d => d.onMi fun d =>
    (d.emit (.fields none [("TYPE", typ), ("NUMP", d.ctrls.length - 1), ("MJR", 1), ("MNR", 2), ("CTRLS", d.ctrls.length)])).emit (.mi 0)

/-- The health a poll reports. -/
def Device.healthFields (d : Device) : List (String × Nat) :=
  [("RDY", if d.ctrls.any fun c => (d.ctrl c).rdy then 1 else 0), ("SW", d.critical), ("CTEMP", d.compositeK), ("PDLU", min 255 (d.powerOnHours * 100 / 87600))]

/-- MI_SUBSYSTEM_HEALTH_POLL (R82). -/
def execMiSubsystemHealthPoll (s : State) : Host.Outcome State Fault Refusal :=
  s.upd fun d => d.onMi fun d => (d.emit (.fields none d.healthFields)).emit (.mi 0)

/-- MI_CONTROLLER_HEALTH_POLL (R82). -/
def execMiControllerHealthPoll (s : State) : Host.Outcome State Fault Refusal :=
  s.upd fun d => d.onMi fun d =>
    (d.emit (.fields none (d.ctrls.flatMap fun c =>
      let k := d.ctrl c
      [("CTLID", c + 1), ("RDY", if k.rdy then 1 else 0), ("CFS", if k.cfs ∨ k.cfsRebuild then 1 else 0), ("CTEMP", d.compositeK), ("CWARN", d.critical)]))).emit
      (.mi 0)

/-- MI_CONFIG_GET: the SMBus frequency in kHz (R82). -/
def execMiConfigGet (s : State) : Host.Outcome State Fault Refusal :=
  s.upd fun d => d.onMi fun d => (d.emit (.fields none [("KHZ", d.host.smbusKhz)])).emit (.mi 0)

/-- MI_CONFIG_SET: 100 or 400 kHz (R82). -/
def miConfigSetEff (khz : Nat) (d : Device) : Device :=
  d.onMi fun d =>
    if khz = 100 ∨ khz = 400 then (d.updHost fun h => { h with smbusKhz := khz }).emit (.mi 0) else d.miRefuse 4

def execMiConfigSet (khz : Nat) (s : State) : Host.Outcome State Fault Refusal := s.upd (miConfigSetEff khz)

/-- MI_TUNNEL_IDENTIFY (R82). -/
def miIdentifyEff (c cns nsid : Nat) (d : Device) : Device :=
  d.onMi fun d =>
    match d.identify c cns nsid with
    | .error _ => d.miRefuse 4
    | .ok fs => (d.emit (.fields none fs)).emit (.mi 0)

def execMiTunnelIdentify (ctrl cns nsid : Nat) (s : State) : Host.Outcome State Fault Refusal := s.upd (miIdentifyEff ctrl cns nsid)

/-- MI_TUNNEL_GET_LOG_PAGE (R75, R82). -/
def miLogEff (c lid nsid lsp off len : Nat) (d : Device) : Device :=
  d.onMi fun d =>
    match d.getLog none c lid nsid lsp off len with
    | none => d.miRefuse 4
    | some d => d.emit (.mi 0)

def execMiTunnelGetLogPage (ctrl lid nsid lsp off len : Nat) (s : State) : Host.Outcome State Fault Refusal :=
  s.upd (miLogEff ctrl lid nsid lsp off len)

/-- MI_TUNNEL_GET_FEATURES (R82). -/
def miFeaturesEff (c fid nsid dw11 : Nat) (d : Device) : Device :=
  d.onMi fun d =>
    if !featureIds.contains fid then d.miRefuse 4
    else
      let (v, fs) := d.getFeature c fid nsid dw11
      (d.emit (.fields none (("DW0", v) :: fs))).emit (.mi 0)

def execMiTunnelGetFeatures (ctrl fid nsid dw11 : Nat) (s : State) : Host.Outcome State Fault Refusal :=
  s.upd (miFeaturesEff ctrl fid nsid dw11)

/-- MI_BASIC_MANAGEMENT: the basic command at address 0x6A (R82). -/
def execMiBasicManagement (s : State) : Host.Outcome State Fault Refusal :=
  s.upd fun d => d.onMi fun d => d.emit (.fields none d.healthFields)

/-- MI_UNSUPPORTED_REQUEST: Invalid Command Opcode, 3 (R82). -/
def execMiUnsupportedRequest (opcode : Nat) (s : State) : Host.Outcome State Fault Refusal :=
  s.upd fun d => if [0xC0, 0x00, 0x01, 0x02, 0x03, 0x04].contains opcode then d else d.onMi fun d => d.miRefuse 3

/-! ### Force Power State (R83) -/

/-- A Sanitize, Format NVM or activation runs (R83). -/
def Device.longWork (d : Device) : Bool := d.host.erase == .running || d.boot.act != .none

/-- MI_FORCE_POWER_STATE: the target is checked first; fetching stops and fetched commands get until the drain limit. A second request
replaces one whose transition has not begun, which returns 0 (R83). -/
def miForceEff (target reserved limit : Nat) (d : Device) : Device :=
  d.onMi fun d =>
    if target < 2 ∨ 5 < target then d.miRefuse 1
    else if reserved ≠ 0 ∨ 10000 < limit then d.miRefuse 3
    else if d.longWork = true ∨ d.power.forcedReq = true ∨ (d.power.run.any (·.forced)) = true then d.miRefuse 2
    else
      let d := if d.power.drain.isSome then d.emit (.mi 0) else d
      let d := d.ctrls.foldl (fun d c => d.updCtrl c fun k => { k with stopped := true }) d
      Device.updHost { d with power := { d.power with
          drain := some target
          drainAt := d.chron.chr + 1000 * (if limit = 0 then 2000 else limit) } }
        fun h => { h with miForce := true }

def execMiForcePowerState (target reserved limit : Nat) (s : State) : Host.Outcome State Fault Refusal :=
  s.upd (miForceEff target reserved limit)

/-- FORCE_DRAIN_EXPIRE: the limit has passed, or nothing is left in flight: what is outstanding completes with Command Abort Requested
under R116's unit rule, and the forced transition is asked for (R83, R121). -/
def forceDrainEff (d : Device) : Device :=
  match d.power.drain with
  | none => d
  | some t =>
    if d.chron.chr < d.power.drainAt ∧ d.inFlight ≠ 0 then d
    else
      let d := ((d.host.cmds.map (·.no)).foldl (fun d n => d.abortCmd n .abortRequested) d).settle
      Device.log { d with power := { d.power with drain := none, request := some (min t 4), forcedReq := true, forcedRetain := t == 5 } } 9 0x1008 [t]

def execForceDrainExpire (s : State) : Host.Outcome State Fault Refusal := s.upd forceDrainEff

/-! ### Autonomous steps (R48, R70, R71) -/

/-- An autonomous step begins: the NVMe state and, where it lies lower than the present one, the device state asked for (R70, R71). -/
def Device.autoStep (d : Device) (t : Nat) : Device :=
  let req := if d.rd RG_PSTATUS_STATE < t then some t else d.power.request
  Device.updHost { d with power := { d.power with request := req, autoTarget := none } } fun h =>
    { h with ps := t, psOper := if t ≤ 1 then t else h.psOper }

/-- APST_IDLE_TIMEOUT: the idle time of the present state has passed on a controller; at level 41 the step waits for its boundary (R48,
R71). -/
def apstIdleEff (c : Nat) (d : Device) : Device :=
  let k := d.ctrl c
  if !k.en || !k.apste || d.inFlight != 0 then d
  else
    match Sparse.find (d.apstTable c) d.host.ps with
    | none => d
    | some (_, t) =>
      if t ≤ d.host.ps ∨ 4 < t then d
      else if d.level41 then { d with power := { d.power with autoTarget := some t } }
      else d.autoStep t

def execApstIdleTimeout (ctrl : Nat) (s : State) : Host.Outcome State Fault Refusal := s.upd (apstIdleEff ctrl)

/-- APST_TICK_BOUNDARY_STEP: at level 41, on a 100 ms boundary and at least 1 s after the last transition (R48). -/
def apstTickEff (d : Device) : Device :=
  match d.power.autoTarget with
  | none => d
  | some t =>
    if d.inFlight ≠ 0 then { d with power := { d.power with autoTarget := none } }
    else if d.chron.chr % 100000 ≠ 0 ∨ d.chron.chr < d.power.lastEnd + 1000000 then d
    else d.autoStep t

def execApstTickBoundaryStep (s : State) : Host.Outcome State Fault Refusal := s.upd apstTickEff

/-! ### The Temperature Threshold feature (R73, R412) -/

/-- A sensor's temperature in kelvin, where it has one: the composite, the two thermistors. -/
def Device.sensorK (d : Device) (i : Nat) : Option Nat :=
  if i = 0 then some d.compositeK else if d.bit (RG_THERM_VALID (i - 1)) then some (d.thermK (i - 1)) else none

/-- One sensor on one controller: an event for a crossing. -/
def Device.threshold (d : Device) (c i : Nat) : Device :=
  match d.sensorK i with
  | none => d
  | some k =>
    let key := i + 16 * c
    let side := if d.tempThreshold c i 0 ≤ k then 1 else if k ≤ d.tempThreshold c i 1 then 2 else 0
    if side = Sparse.cnt d.thermal.side key then d
    else
      let d : Device := { d with thermal := { d.thermal with side := Sparse.setCnt d.thermal.side key side } }
      if side = 0 then d else d.aenOn c 2 ⟨1, 1, 2⟩

/-- TEMP_THRESHOLD_EVAL: once per second (R412). -/
def tempThresholdEff (d : Device) : Device :=
  d.onMi fun d => d.ctrls.foldl (fun d c => (List.range 3).foldl (fun d i => d.threshold c i) d) d

def execTempThresholdEval (s : State) : Host.Outcome State Fault Refusal := s.upd tempThresholdEff

end Sys2Proof.Machine
end

