-- ==== Sys2Proof/Machine/Servo.lean ====
section
/-!
DEFINITION. The servo's commands (R243 to R270): wedges, commands and writes, changes of state, the power-stage link, XOUT.
-/
namespace Sys2Proof.Machine

/-! ### Wedges and samples (R209, R244 to R246) -/

/-- The wedge taken into the servo's position: PES and PMEAS of a good one, PRED's of a failed one (R244, R245). -/
def Device.takeWedge (d : Device) (l : Lane) (w : WedgeRd) (shift : Int) (bad : Bool) : Device :=
  let idx := d.nextIdx l w.idx
  let cons := d.wedgeSound l w && d.wedgeConsistent l w
  let (pes, d) := if bad then ((d.be (.lane l)).pred, d) else d.pesValue l w
  let track : Int := if bad then d.predTrack l else w.track
  let pm := 2 ^ 24 * track + pes / 2 ^ 7 + shift
  let search := d.searching l
  let d := if bad then (d.incSat (SV_STATUS_MISS l)) else (d.wrI (SV_PES_PES l) pes).wrAll [(SV_POS_TRACK l, w.track), (SV_STATUS_MISS l, 0)]
  d.updSv l fun s =>
    { s with
      pmeas := pm
      n := s.n + 1
      since := s.since + 1
      idx := some (if bad && !search then idx else w.idx)
      track := if bad && !search then track.toNat else w.track
      good := if bad then s.good else (pm, s.n + 1) :: s.good.take 1
      bad := bad
      consistent := if cons then s.consistent + 1 else 0
      wpe := pm - d.svTarget l }

/-- Samples within SETWIN after the ramp are counted for R258. -/
def Device.countSettle (d : Device) (l : Lane) : Device :=
  let s := d.sv l
  if s.st ≠ .settle then d
  else
    let ok := decide (d.rd (SV_SOFT_NSOFT l) ≤ s.k) && decide ((s.pmeas - s.tgt).natAbs ≤ d.rd (SV_SOFT_SETWIN l) * 2 ^ 12)
    d.updSv l fun s => { s with within_ := if ok then s.within_ + 1 else 0 }

/-- SERVO_READER_SUBSTITUTE: the other reader's PES stood in (R209, R219). -/
def Device.substituted (d : Device) (l : Lane) (sub : Bool) : Device :=
  if !sub then d
  else ((d.wr DX_INT_SRV_SUB 1).dxCount 0x18).logRate 4 0x2017 (d.rd (SV_STATUS_HEAD l)) [d.rd (SV_STATUS_HEAD l)]

/-- Reader B's PES for the PESB port: in duplex only (R252). -/
def Device.pesB (d : Device) (l : Lane) (b : Option WedgeRd) : Int :=
  match (if d.duplex && l == .ln0 then b else none) with
  | none => 0
  | some x => if d.wedgeGood l x then (pesOf x (d.rdI (SV_PGAIN_PGAIN l (d.rd (SV_STATUS_HEAD l))))).getD 0 else 0

/-- The sample of the newest wedge begins, or is held while a program runs (R246). -/
def Device.startOrHold (d : Device) (l : Lane) (pesb : Int) : Device :=
  if !d.bit (BE_CTRL_RUN (.lane l)) || !(d.sv l).st.loaded then d
  else if (d.be (.lane l)).run.isSome then d.updBe (.lane l) fun b => { b with held := true }
  else d.sampleStart l pesb

/-- SERVO_WEDGE: a wedge is demodulated into PES and position; a failed one is counted; the write-fault threshold is applied; the sample starts
(R209, R244 to R246, R262). In a one-actuator structure LN1 has no loop (R198, R211). -/
def wedgeEff (l : Lane) (w : WedgeRd) (b : Option WedgeRd) (interval : Nat) (d : Device) : Device :=
  if d.held1 l then d
  else
    let d := d.wr (SV_PERIOD_PERIOD l) interval
    let pesb := d.pesB l b
    let (r, shift, bad, sub) := d.pickWedge l w b
    let d := (((d.takeWedge l r shift bad).substituted l sub).countSettle l).countWedge l
    (d.pesCheck l).startOrHold l pesb

def execServoWedge (l : Lane) (w : WedgeRd) (b : Option WedgeRd) (interval : Nat) (s : State) : Host.Outcome State Fault Refusal :=
  s.upd (wedgeEff l w b interval)

/-- BE_SAMPLE_LATE_START: a demodulation result held until END starts its sample (R246). -/
def lateEff (l : Lane) (d : Device) : Device :=
  let b := d.be (.lane l)
  if !b.held || b.run.isSome || !d.bit (BE_CTRL_RUN (.lane l)) then d
  else (d.wr (BE_STATUS_LATE (.lane l)) 1).sampleStart l 0

def execBeSampleLateStart (l : Lane) (s : State) : Host.Outcome State Fault Refusal := s.upd (lateEff l)

/-! ### Commands and writes (R259, R260) -/

/-- SV_CMD_LOAD: from PARKED with the spindle at speed and the link up (R259, R260). -/
def svLoadEff (l : Lane) (d : Device) : Device :=
  if (d.sv l).st = .parked ∧ d.atSpeed = true ∧ d.bit (PS_STATUS_UP l) = true then
    let d : Device := { d with hnor := { d.hnor with headLoads := d.hnor.headLoads + 1 } }
    (d.svEnter l .load).updSv l fun s => { s with attempt := 1, loadFailed := false, idx := none }
  else d.svRefuse l

def execSvCmdLoad (l : Lane) (s : State) : Host.Outcome State Fault Refusal := s.upd (svLoadEff l)

/-- The head of the target selected before the first wedge of the new head (R260). -/
def Device.takeHead (d : Device) (l : Lane) : Device :=
  let h := d.rd (SV_TARGET_HEAD l)
  if d.rd (SV_STATUS_HEAD l) = h then d else (d.wr (SV_STATUS_HEAD l) h).selectHead l h

/-- SV_CMD_SEEK: SEEK, SETTLE and FOLLOW seek from the measured position and velocity; RECOVER only replaces the target (R257, R259, R260). -/
def svSeekEff (l : Lane) (d : Device) : Device :=
  match (d.sv l).st with
  | .seek => (d.takeHead l).enterSeek l
  | .settle => (d.takeHead l).enterSeek l
  | .follow => (d.takeHead l).enterSeek l
  | .recover => (d.takeHead l).updSv l fun s => { s with tgt := d.svTarget l }
  | _ => d.svRefuse l

def execSvCmdSeek (l : Lane) (s : State) : Host.Outcome State Fault Refusal := s.upd (svSeekEff l)

/-- SV_CMD_UNLOAD: accepted in SEEK, SETTLE, FOLLOW and RECOVER (R259, R260). -/
def svUnloadEff (l : Lane) (d : Device) : Device :=
  let st := (d.sv l).st
  if st = .seek ∨ st = .settle ∨ st = .follow ∨ st = .recover then d.enterUnload l false else d.svRefuse l

def execSvCmdUnload (l : Lane) (s : State) : Host.Outcome State Fault Refusal := s.upd (svUnloadEff l)

/-- SV_CMD_RETRACT: accepted in every state (R260, R264). -/
def execSvCmdRetract (_l : Lane) (s : State) : Host.Outcome State Fault Refusal := s.upd fun d => d.emergencyRetract 4

/-- SV_EN_WRITE: EN = 0 is refused outside OFF, PARKED and FAULT (R259, R260). -/
def svEnEff (l : Lane) (en : Bool) (d : Device) : Device :=
  if en then (d.wr (SV_CTRL_EN l) 1).svWake l
  else
    match (d.sv l).st with
    | .off => d.wr (SV_CTRL_EN l) 0
    | .parked => (d.wr (SV_CTRL_EN l) 0).svEnter l .off
    | .fault => (d.wr (SV_CTRL_EN l) 0).svEnter l .off
    | _ => d.svRefuse l

def execSvEnWrite (l : Lane) (en : Bool) (s : State) : Host.Outcome State Fault Refusal := s.upd (svEnEff l en)

/-- SV_CAL_WRITE: CAL = 1 is refused while SLOT3 reads 0 (R260). -/
def svCalEff (l : Lane) (cal : Bool) (d : Device) : Device :=
  if cal && !d.bit (BE_STATUS_SLOT3 (.lane l)) then d.svRefuse l else d.wrB (SV_CTRL_CAL l) cal

def execSvCalWrite (l : Lane) (cal : Bool) (s : State) : Host.Outcome State Fault Refusal := s.upd (svCalEff l cal)

/-- SV_TARGET_WRITE: in FOLLOW a changed target moves the lane to SETTLE with a soft start (R259). -/
def svTargetEff (l : Lane) (head track : Nat) (d : Device) : Device :=
  let old := d.rd (SV_TARGET_TRACK l)
  let d := (d.wr (SV_TARGET_HEAD l) head).wr (SV_TARGET_TRACK l) track
  if (d.sv l).st = .follow ∧ d.rd (SV_TARGET_TRACK l) ≠ old then d.enterSettle l else d

def execSvTargetWrite (l : Lane) (head track : Nat) (s : State) : Host.Outcome State Fault Refusal := s.upd (svTargetEff l head track)

/-! ### Changes of state (R258, R259) -/

/-- LOAD_ACQUIRED: eight consecutive consistent wedges in LOAD. -/
def loadAcquiredEff (l : Lane) (d : Device) : Device :=
  if (d.sv l).st = .load ∧ 8 ≤ (d.sv l).consistent then (d.takeHead l).enterSeek l else d

def execLoadAcquired (l : Lane) (s : State) : Host.Outcome State Fault Refusal := s.upd (loadAcquiredEff l)

/-- LOAD_TIMEOUT: 200 ms in LOAD. -/
def loadTimeoutEff (l : Lane) (d : Device) : Device :=
  if (d.sv l).st = .load then (d.enterUnload l true).log l.src 0x3004 [(d.sv l).attempt] else d

def execLoadTimeout (l : Lane) (s : State) : Host.Outcome State Fault Refusal := s.upd (loadTimeoutEff l)

/-- SERVO_LOST: MISSMAX consecutive failed wedges in SEEK, SETTLE or FOLLOW. -/
def servoLostEff (l : Lane) (d : Device) : Device :=
  let st := (d.sv l).st
  if (st = .seek ∨ st = .settle ∨ st = .follow) ∧ d.rd (SV_DEMOD_MISSMAX l) ≤ d.rd (SV_STATUS_MISS l) then
    ((d.enterRecover l).wr (SV_INT_LOST l) 1).log l.src 0x3001 [d.rd (SV_STATUS_HEAD l), d.rd (SV_POS_TRACK l), d.rd (SV_STATUS_MISS l)]
  else d

def execServoLost (l : Lane) (s : State) : Host.Outcome State Fault Refusal := s.upd (servoLostEff l)

/-- SEEK_END: the last segment has ended. -/
def seekEndEff (l : Lane) (d : Device) : Device :=
  if (d.sv l).st = .seek ∧ (d.sv l).profEnd = true then (d.enterSettle l).wr (SV_INT_SEEKEND l) 1 else d

def execSeekEnd (l : Lane) (s : State) : Host.Outcome State Fault Refusal := s.upd (seekEndEff l)

/-- SETTLE_COMPLETE: the ramp has ended and WPE has stayed within SETWIN for NSET samples (R258). -/
def settleEff (l : Lane) (d : Device) : Device :=
  let s := d.sv l
  if s.st = .settle ∧ d.rd (SV_SOFT_NSOFT l) ≤ s.k ∧ d.rd (SV_SOFT_NSET l) ≤ s.within_ then
    (d.svEnter l .follow).wr (SV_INT_ONTRACK l) 1
  else d

def execSettleComplete (l : Lane) (s : State) : Host.Outcome State Fault Refusal := s.upd (settleEff l)

/-- SETTLE_TIMEOUT: 2,000 samples in SETTLE. -/
def settleTimeoutEff (l : Lane) (d : Device) : Device :=
  if (d.sv l).st = .settle ∧ 2000 ≤ (d.sv l).since then (d.enterRecover l).log l.src 0x300F [ofSigned 32 (d.sv l).wpe] else d

def execSettleTimeout (l : Lane) (s : State) : Host.Outcome State Fault Refusal := s.upd (settleTimeoutEff l)

/-- RECOVER_REACQUIRED: eight consecutive consistent wedges in RECOVER. -/
def recoverEff (l : Lane) (d : Device) : Device :=
  if (d.sv l).st = .recover ∧ 8 ≤ (d.sv l).consistent ∧ (d.sv l).recovers < 4 then
    ((d.enterSettle l).wr (SV_INT_RECOVERED l) 1).log l.src 0x3002 [(d.sv l).since]
  else d

def execRecoverReacquired (l : Lane) (s : State) : Host.Outcome State Fault Refusal := s.upd (recoverEff l)

/-- RECOVER_TIMEOUT: a fourth entry since the last FOLLOW, or 2,000 samples in RECOVER. -/
def recoverTimeoutEff (l : Lane) (d : Device) : Device :=
  if (d.sv l).st = .recover ∧ (4 ≤ (d.sv l).recovers ∨ 2000 ≤ (d.sv l).since) then (d.enterUnload l false).log l.src 0x3003 else d

def execRecoverTimeout (l : Lane) (s : State) : Host.Outcome State Fault Refusal := s.upd (recoverTimeoutEff l)

/-- UNLOAD_TIMEOUT: 300 ms in UNLOAD assert EMRET_N (R259, R264). -/
def unloadTimeoutEff (l : Lane) (d : Device) : Device :=
  if (d.sv l).st = .unload then (d.log l.src 0x300D).emergencyRetract l.retractCause else d

def execUnloadTimeout (l : Lane) (s : State) : Host.Outcome State Fault Refusal := s.upd (unloadTimeoutEff l)

/-- UNLOAD_STOPPED: |BEMF| at or below STOP for 2 ms ends the unload (R259). -/
def unloadStoppedEff (l : Lane) (d : Device) : Device :=
  let s := d.sv l
  if s.st ≠ .unload ∨ d.rd (SV_STOP_STOP l) * 2 ^ 16 < (d.bemf l).natAbs then d
  else if !s.loadFailed then d.svEnter l .parked
  else if s.attempt < 3 then (d.svEnter l .load).updSv l fun s => { s with attempt := s.attempt + 1, idx := none }
  else (d.svEnter l .fault).log l.src 0x3005

def execUnloadStopped (l : Lane) (s : State) : Host.Outcome State Fault Refusal := s.upd (unloadStoppedEff l)

/-! ### Power-stage link (R265, R266) -/

/-- A link error; three in a row make a link fault, on which a loaded lane retracts: PS_LINK_FAULT (R259, R266). -/
def Device.psError (d : Device) (l : Lane) : Device :=
  let n := (d.ps l).errs + 1
  let d := (((d.incSat (PS_STATUS_ERRCNT l)).wr (SV_INT_PSERR l) 1).logRate l.src 0x3009 0).updPs l fun p => { p with errs := n }
  if n < 3 ∨ (d.ps l).fault = true then d
  else
    let d := ((d.updPs l fun p => { p with fault := true, rearmed := false }).psUp l).log l.src 0x300A
    if (d.sv l).st.loaded then d.emergencyRetract l.retractCause else d

/-- The flags of a valid return frame acted on (R259, R266). -/
def Device.psFlags (d : Device) (l : Lane) (flags : Nat) : Device :=
  let d := d.wr (PS_STATUS_FLAGS l) flags
  let d := if flags = 0 then d else d.wr (SV_INT_PSFLAG l) 1
  let d := if flags.testBit 0 then d.updPs l fun p => { p with maFault := true } else d
  if flags.testBit 3 && (d.sv l).st.loaded then d.emergencyRetract l.retractCause
  else if (flags.testBit 1 || flags.testBit 2) && (d.sv l).st.loaded && (d.sv l).st != .unload then
    (d.enterUnload l false).log l.src 0x300B [flags]
  else d

/-- PS_RETURN_FRAME: a frame with a bad CRC or a wrong echoed sequence is a link error; a valid one gives the readings and the flags, and
brings back a link whose EN was written after a fault (R265, R266). In RETRACT no frame is on the link. -/
def psReturnEff (l : Lane) (word : Nat) (d : Device) : Device :=
  if !d.bit (PS_CTRL_EN l) || (d.sv l).st == .retract then d
  else if crc8 (word - bitsOf word 0 8) ≠ bitsOf word 0 8 ∨ bitsOf word 40 4 ≠ (d.ps l).seq then d.psError l
  else
    let d := d.updPs l fun p =>
      { p with errs := 0, ivcm := toSigned 16 (bitsOf word 24 16) * 2 ^ 16, vvcm := toSigned 16 (bitsOf word 8 16) * 2 ^ 16
               fault := p.fault && !p.rearmed, rearmed := false }
    (d.psUp l).psFlags l (bitsOf word 44 4)

def execPsReturnFrame (l : Lane) (word : Nat) (s : State) : Host.Outcome State Fault Refusal := s.upd (psReturnEff l word)

/-- PS_KEEPALIVE: in OFF with the link enabled, PARKED and FAULT a command frame of zeros, with XOUT = 0 (R255, R265). -/
def psKeepEff (l : Lane) (d : Device) : Device :=
  let st := (d.sv l).st
  if !d.bit (PS_CTRL_EN l) || !(st == .off || st == .parked || st == .fault) then d
  else ((d.psSend l 5 0 0).updPs l fun p => { p with vcm := 0, ma := 0 }).sendXout l 0

def execPsKeepalive (l : Lane) (s : State) : Host.Outcome State Fault Refusal := s.upd (psKeepEff l)

/-- PS_CFG_GO: a configuration frame is sent in OFF, PARKED or FAULT, refused elsewhere (R266). -/
def psCfgEff (l : Lane) (addr data : Nat) (d : Device) : Device :=
  let st := (d.sv l).st
  let d := (d.wr (PS_CFG_ADDR l) addr).wr (PS_CFG_DATA l) data
  if !d.bit (PS_CTRL_EN l) || !(st == .off || st == .parked || st == .fault) then d.wr (PS_CFG_REFUSED l) 1
  else (d.wr (PS_CFG_REFUSED l) 0).psSend l 9 (addr % 256 * 256) data

def execPsCfgGo (l : Lane) (addr data : Nat) (s : State) : Host.Outcome State Fault Refusal := s.upd (psCfgEff l addr data)

/-- PS_CTRL_EN_WRITE: enabling the link restarts the sequence numbering, ends an MA fault's hold on the MA field and arms the return from a link
fault (R259, R266). -/
def psEnEff (l : Lane) (en : Bool) (d : Device) : Device :=
  let d := d.wrB (PS_CTRL_EN l) en
  let d := if en then d.updPs l fun p => { p with seq := 15, errs := 0, maFault := false, rearmed := true } else d
  (d.psUp l).svWake l

def execPsCtrlEnWrite (l : Lane) (en : Bool) (s : State) : Host.Outcome State Fault Refusal := s.upd (psEnEff l en)

/-! ### Cross-lane feed-forward (R255) -/

/-- XOUT_RECEIVE: the value the other lane sent arrives, if the link carries it (R199, R255). -/
def xoutEff (l : Lane) (d : Device) : Device :=
  match (d.be (.lane l.other)).xsent with
  | none => d
  | some v =>
    let d := d.updBe (.lane l.other) fun b => { b with xsent := none }
    if !d.twoLane || !d.bit (ELK_STATUS_UP l) then d
    else (d.updBe (.lane l) fun b => { b with xnew := some v }).wr (BE_STATUS_XSTALE (.lane l)) 0

def execXoutReceive (l : Lane) (s : State) : Host.Outcome State Fault Refusal := s.upd (xoutEff l)

/-- XIN_STALE: no value within 1.5 sample periods (R255). -/
def xinStaleEff (l : Lane) (d : Device) : Device :=
  if !d.twoLane || d.bit (BE_STATUS_XSTALE (.lane l)) then d
  else
    let d := d.updBe (.lane l) fun b => { b with xnew := none }
    ((d.wrAll [(BE_STATUS_XSTALE (.lane l), 1), (BE_INT_XSTALE (.lane l), 1), (BE_XIN_XIN (.lane l), 0)])).logRate l.src 0x3006 0

def execXinStale (l : Lane) (s : State) : Host.Outcome State Fault Refusal := s.upd (xinStaleEff l)

end Sys2Proof.Machine
end

