-- ==== Sys2Proof/Machine/Spindle.lean ====
section
/-!
DEFINITION. The spindle's commands (R271 to R303): the PWM period, the supply watch, the chopper, input faults, commands, starting, running,
plausibility, the rotor at rest. Each watch's command acts where its condition holds; one whose time is its arrival says so.
-/
namespace Sys2Proof.Machine

/-! ### The PWM period (R274 to R279) -/

/-- A motor ADC channel's conversions outside the calibre's limits, counted (R273). -/
def Device.spLimit (d : Device) (ch code : Nat) : Device :=
  let lim := d.limits (32 + ch)
  let n := if code < lim.1 ∨ lim.2 < code then Sparse.cnt d.spin.outside ch + 1 else 0
  d.updSpin fun s => { s with outside := Sparse.setCnt s.outside ch n }

/-- A code at an end of the range. -/
def pinnedCode (c : Nat) : Bool := c == 0 || c == 4095

/-- The conversions of a valley: codes, limits, pinned currents, the listen's range, the latched bus values (R272 to R274, R283). -/
def Device.valleySample (d : Device) (u v w : Nat) (mrpm : Int) : Device :=
  let d := d.wrAll [(SP_ADC_CODE 0, u), (SP_ADC_CODE 1, v), (SP_ADC_CODE 2, w)]
  let d := ((d.spLimit 0 u).spLimit 1 v).spLimit 2 w
  let pin := pinnedCode u || pinnedCode v || pinnedCode w
  d.updSpin fun s =>
    { s with
      pinned := if pin && s.st.active then s.pinned + 1 else 0
      coarse := s.coarse || (pin && s.st == .listen)
      mrpm := mrpm
      vbus := d.rd SP_BUS_VOLT
      ibus := d.rd SP_BUS_CURR }

/-- The rows of R281 that a period's speed decides. -/
def Device.speedRows (d : Device) : Device :=
  let s := d.spin
  match s.st with
  | .coast => if d.bit SP_STATUS_AUTO && d.bit SP_CTRL_EN then
      ((d.wr SP_STATUS_AUTO 0).incSat SP_STATUS_RECATCH).listenStart false else d
  | .start => if !s.first && d.rpmAtLeast s.omega 600 then d.runFrom (600 * 10 ^ 9) else d
  | .reverse => if !s.first && !d.rpmAtLeast (-s.omega) 60 then d.startAttempt else d
  | .brake => if !s.first && !d.rpmAtLeast s.omega.natAbs 60 then (d.spEnter .off).decelRecord else d
  | _ => d

/-- ATSPEED_CLEAR: the speed has left ±0.5 % of TARGET (R286). -/
def Device.atSpeedClear (d : Device) : Device :=
  if d.bit SP_STATUS_ATSPEED && !d.speedWithin 5 then d.wr SP_STATUS_ATSPEED 0 else d

/-- One period of the speed ramp, in 10^-9 rpm: towards TARGET in RUN, towards 0 in BRAKE, held at 0 in REVERSE (R285, R286). -/
def Device.rampPeriod (d : Device) : Device :=
  let a : Int := d.rd SP_SPEED_ACCEL * 20830
  let toward (t r : Int) : Int := if r < t then min t (r + a) else max t (r - a)
  match d.spin.st with
  | .run => d.updSpin fun s => { s with ramp := toward ((d.rd SP_SPEED_TARGET : Int) * 10 ^ 9) s.ramp }
  | .brake => d.updSpin fun s => { s with ramp := toward 0 s.ramp }
  | _ => d

/-- The spindle engine's input ports (R278). HFERR's formula is not stated: in START its value is free. -/
def Device.spinPorts (d : Device) : List Int × Device :=
  let s := d.spin
  let (id, iq) := Config.park (d.rd (SP_ADC_CODE 0)) (d.rd (SP_ADC_CODE 1)) (d.rd (SP_ADC_CODE 2)) s.theta
  let (ref, d) := d.electrical s.ramp (10 ^ 9)
  let (hf, d) := if s.st = .start then (let (x, d) := d.takeFree 32; (toSigned 32 x, d)) else (0, d)
  ([id, iq, s.vd, s.vq, busPort s.vbus, (satQ (((s.ibus : Int) - 2048) * 2 ^ 20)).1, ref, hf, flagPort (d.bit SP_STATUS_VSAT), s.lomega,
    flagPort s.first, flagPort (d.bit SP_STATUS_BRKLIM)] ++ List.replicate 20 0, d)

/-- The sample of a period with gates driven: a due exchange, the ramp, the ports, slot 1 in START and slot 0 otherwise (R253, R274, R279). -/
def Device.spinSample (d : Device) : Device :=
  let d := (d.exchangeDue .spindle).rampPeriod
  if !d.bit (BE_CTRL_RUN .spindle) || d.spin.be.run.isSome then d
  else
    let (ports, d) := d.spinPorts
    let slot := if d.spin.st = .start then 1 else 0
    (d.beStart .spindle slot ports).updSpin fun s => { s with first := false, lomega := 0, stepN := s.stepN + 1 }

/-- SP_MEAS shows the measured speed (R299). -/
def Device.showSpeed (d : Device) : Device :=
  let (r, d) := d.measRpm
  d.wrI SP_MEAS_SPEED r

/-- PWM_VALLEY: the phase conversions, the state's rows on speed, ATSPEED, and in driven states the sample (R274 to R286). -/
def valleyEff (u v w : Nat) (mrpm : Int) (d : Device) : Device :=
  if !d.up then d
  else
    let d := (((d.valleySample u v w mrpm).speedRows).atSpeedClear).showSpeed
    if d.driving then d.spinSample else d

def execPwmValley (u v w : Nat) (mrpm : Int) (s : State) : Host.Outcome State Fault Refusal := s.upd (valleyEff u v w mrpm)

/-- PWM_PEAK: the shadow duties take effect, and θ advances by OMEGA × 2,048 Hz × 20.830 µs of a turn and DTHETA × half a turn (R274, R277). -/
def peakEff (d : Device) : Device :=
  if !d.up || !d.driving then d
  else
    let d := match d.spin.shadow with
      | none => d
      | some ds => (d.updSpin fun s => { s with duty := ds, shadow := none, vd := s.vdNext, vq := s.vqNext }).emit (.duties ds)
    let (a, d) := d.divFree (d.spin.omega * 8531968) (10 ^ 8)
    let a := a + d.spin.dtheta
    d.updSpin fun s => { s with theta := ((s.theta : Int) + a) % 2 ^ 32 |>.toNat, moved := s.moved + a, movedMin := min s.movedMin (s.moved + a) }

def execPwmPeak (s : State) : Host.Outcome State Fault Refusal := s.upd peakEff

/-! ### The supply watch (R273, R291, R294, R295) -/

/-- BUS_CONVERSION: the bus codes enter SP_BUS and the supply watch; a fall of more than 213 codes turns the gates and BRK_G off until device
reset: BUS_FALL_FAULT (R273, R291). -/
def busEff (volt curr : Nat) (d : Device) : Device :=
  if !d.up then d
  else
    let prev := d.spin.bus.head?
    let d := d.wrAll [(SP_BUS_VOLT, volt), (SP_BUS_CURR, curr), (SP_ADC_CODE 3, volt), (SP_ADC_CODE 4, curr)]
    let v := d.rd SP_BUS_VOLT
    let d := (d.spLimit 3 v).spLimit 4 (d.rd SP_BUS_CURR)
    let d := d.updSpin fun s =>
      { s with
        bus := v :: s.bus.take 2
        busPinned := if pinnedCode (d.rd SP_BUS_CURR) then s.busPinned + 1 else 0
        brkRef := s.brkRef.map fun r => (r.1, r.2.1, min r.2.2 v) }
    match prev with
    | none => d
    | some p =>
      if v + 213 < p then
        ((d.brkOff.updSpin fun s => { s with brkDead := true })).spInputFault 3 2
      else d

def execBusConversion (volt curr : Nat) (s : State) : Host.Outcome State Fault Refusal := s.upd (busEff volt curr)

/-- OVERVOLTAGE_FAULT: at 14.4 V gates and BRK_G go off, the fault latches, the heads retract, the regulator is told, the decel timer starts
(R281, R294). -/
def overvoltageEff (d : Device) : Device :=
  if !d.busAtLeast 3072 || d.spin.st == .fault then d
  else
    let d := (((d.brkOff).spEnter .fault).decelKeep).wrAll [(SP_STATUS_OVFLT, 1), (SP_INT_OVFLT, 1)]
    ((d.log 7 0x3110 [d.rd SP_BUS_VOLT]).emergencyRetract 2).emit (.toRegulator true)

def execOvervoltageFault (s : State) : Host.Outcome State Fault Refusal := s.upd overvoltageEff

/-- REGEN_STOP: at 13.8 V (R291). -/
def regenStopEff (d : Device) : Device :=
  if !d.busAtLeast 2944 || d.bit SP_STATUS_REGSTOP then d
  else (d.wrAll [(SP_STATUS_REGSTOP, 1), (SP_INT_REGSTOP, 1)]).log 7 0x3108

def execRegenStop (s : State) : Host.Outcome State Fault Refusal := s.upd regenStopEff

/-- REGEN_RESUME: at or below 13.5 V (R291). -/
def regenResumeEff (d : Device) : Device := if d.busAtMost 2880 then d.wr SP_STATUS_REGSTOP 0 else d

def execRegenResume (s : State) : Host.Outcome State Fault Refusal := s.upd regenResumeEff

/-- CHOPPER_ON: at 13.2 V BRK_G turns on, unless it is held off (R291). -/
def chopperOnEff (d : Device) : Device :=
  if d.busAtLeast 2816 && d.brkAllowed && !d.bit SP_STATUS_CHOPON then d.brkOn else d

def execChopperOn (s : State) : Host.Outcome State Fault Refusal := s.upd chopperOnEff

/-- CHOPPER_OFF: at or below 12.9 V (R291). -/
def chopperOffEff (d : Device) : Device := if d.busAtMost 2752 && d.bit SP_STATUS_CHOPON then d.brkOff else d

def execChopperOff (s : State) : Host.Outcome State Fault Refusal := s.upd chopperOffEff

/-- CHOPPER_CURRENT_CHECK: 5 µs after BRK_G turned on, channel 4 is not CHOPIMIN codes above its value then (R292). -/
def chopCurrentEff (d : Device) : Device :=
  match d.spin.brkRef with
  | none => d
  | some (i, _, _) => if d.rd SP_BUS_CURR < i + d.rd SP_CHOP_CHOPIMIN then d.chopFault.log 7 0x3104 [1] else d

def execChopperCurrentCheck (s : State) : Host.Outcome State Fault Refusal := s.upd chopCurrentEff

/-- CHOPPER_VOLTAGE_CHECK: 50 µs after BRK_G turned on, the bus has not fallen by 43 codes (R292). -/
def chopVoltageEff (d : Device) : Device :=
  match d.spin.brkRef with
  | none => d
  | some (_, v, low) => if v < low + 43 then d.chopFault.log 7 0x3104 [2] else d

def execChopperVoltageCheck (s : State) : Host.Outcome State Fault Refusal := s.upd chopVoltageEff

/-- POWER_FAILURE_DETECT: at or below 10.8 V a turning drive enters HOLDUP at 600 rpm or more, or coasts; the regulator is told and asserts
EMRET_N (R281, R295). -/
def powerFailEff (d : Device) : Device :=
  let s := d.spin
  if !d.busAtMost 2304 || !s.st.active || s.st == .holdup then d
  else
    let hold := (s.st == .run || s.st == .brake || s.st == .reverse) && d.rpmAtLeast s.omega.natAbs 600
    let d := if hold then ((d.spEnter .holdup).updSpin fun s => { s with holdAt := d.chron.chr }).wr SP_INT_HOLDUP 1 else d.spEnter .coast
    ((d.log 7 0x3114 [if hold then 1 else 0]).emit (.toRegulator false)).emergencyRetract 3

def execPowerFailureDetect (s : State) : Host.Outcome State Fault Refusal := s.upd powerFailEff

/-- HOLDUP_END: below 600 rpm, or at or below 9.0 V (R281). -/
def holdupEndEff (d : Device) : Device :=
  if d.spin.st ≠ .holdup ∨ (d.rpmAtLeast d.spin.omega.natAbs 600 = true ∧ d.busAtMost 1920 = false) then d
  else
    let (r, d) := d.measRpm
    (d.spEnter .coast).log 7 0x3115 [(d.chron.chr - d.spin.holdAt) / 1000, ofSigned 16 r]

def execHoldupEnd (s : State) : Host.Outcome State Fault Refusal := s.upd holdupEndEff

/-! ### Input faults (R273) -/

/-- PHASE_CURRENT_FAULT: a current channel pinned for three periods. -/
def phaseFaultEff (d : Device) : Device :=
  if d.spin.pinned < 3 then d
  else
    let ch := if pinnedCode (d.rd (SP_ADC_CODE 0)) then 0 else if pinnedCode (d.rd (SP_ADC_CODE 1)) then 1 else 2
    (d.updSpin fun s => { s with pinned := 0 }).spInputFault ch 1

def execPhaseCurrentFault (s : State) : Host.Outcome State Fault Refusal := s.upd phaseFaultEff

/-- BUS_CURRENT_FAULT: channel 4 pinned for three conversions sets CHOPF. -/
def busCurrentEff (d : Device) : Device :=
  if d.spin.busPinned < 3 then d
  else ((d.updSpin fun s => { s with busPinned := 0 }).chopFault).log 7 0x3116 [4, 1]

def execBusCurrentFault (s : State) : Host.Outcome State Fault Refusal := s.upd busCurrentEff

/-- ANALOGUE_LIMIT_FAULT: a channel outside its limits for 48 conversions. -/
def analogueEff (ch : Nat) (d : Device) : Device :=
  if Sparse.cnt d.spin.outside ch < 48 then d
  else ((d.updSpin fun s => { s with outside := Sparse.setCnt s.outside ch 0 }).wr SP_INT_RANGE 1).log 7 0x3116 [ch, 4]

def execAnalogueLimitFault (ch : Nat) (s : State) : Host.Outcome State Fault Refusal := s.upd (analogueEff ch)

/-- CONVERSION_TIMEOUT: a conversion is not complete 2 µs after its start; its arrival is the time's end. -/
def execConversionTimeout (ch : Nat) (s : State) : Host.Outcome State Fault Refusal := s.upd fun d => d.spInputFault ch 5

/-! ### Commands (R281, R282, R299, R300) -/

/-- A command refused (R282). -/
def Device.spRefuse (d : Device) : Device := d.wr SP_STATUS_REFUSED 1

/-- SP_CMD_START: accepted in OFF, COAST and BRAKE with EN, the engine's RUN, SP_KE0 and RSN set (R281, R282). -/
def spStartEff (d : Device) : Device :=
  let st := d.spin.st
  let ok := (st == .off || st == .coast || st == .brake) && d.bit SP_CTRL_EN && d.bit (BE_CTRL_RUN .spindle) && d.rd SP_KE0_KE0 != 0
    && d.rd SP_MOTOR_RSN != 0
  if !ok then d.spRefuse
  else
    let d := (d.wr SP_STATUS_RECATCH 0).updSpin fun s => { s with startAt := d.chron.chr, wasAt := false, decelAt := none }
    let d : Device := { d with aon := { d.aon with spun := true } }
    if st = .brake then (if d.spin.omega < 0 then d.enterReverse else d.runFromSpeed)
    else
      let d : Device := { d with hnor := { d.hnor with spindleStarts := d.hnor.spindleStarts + 1 } }
      (d.wrAll [(SP_STATUS_ATTEMPT, 1), (SP_STATUS_AUTO, 0)]).listenStart true

def execSpCmdStart (s : State) : Host.Outcome State Fault Refusal := s.upd spStartEff

/-- SP_CMD_STOP: accepted in START, RUN and REVERSE (R281, R282). -/
def spStopEff (d : Device) : Device :=
  match d.spin.st with
  | .start => d.spEnter .coast
  | .run => (d.spEnter .brake).decelStart
  | .reverse => (d.spEnter .brake).decelStart
  | _ => d.spRefuse

def execSpCmdStop (s : State) : Host.Outcome State Fault Refusal := s.upd spStopEff

/-- SP_CMD_COAST: accepted in START, RUN, BRAKE and REVERSE (R281, R282). -/
def spCoastEff (d : Device) : Device :=
  match d.spin.st with
  | .start => d.spEnter .coast
  | .run => (d.spEnter .coast).decelKeep
  | .brake => (d.spEnter .coast).decelKeep
  | .reverse => (d.spEnter .coast).decelKeep
  | _ => d.spRefuse

def execSpCmdCoast (s : State) : Host.Outcome State Fault Refusal := s.upd spCoastEff

/-- SP_CMD_CLEAR: accepted in FAULT; it leaves FAULT with the bus below 12.9 V and the rotor stopped (R281, R282). -/
def spClearEff (d : Device) : Device :=
  if d.spin.st ≠ .fault then d.spRefuse
  else if d.rd SP_BUS_VOLT < 2752 ∧ d.spin.stopped = true then (d.wr SP_STATUS_OVFLT 0).spEnter .off
  else d

def execSpCmdClear (s : State) : Host.Outcome State Fault Refusal := s.upd spClearEff

/-- SP_EN_WRITE: EN = 0 turns the gates off in every state but OFF and FAULT (R281, R300). -/
def spEnEff (en : Bool) (d : Device) : Device :=
  let d := d.wrB SP_CTRL_EN en
  if en || d.spin.st == .off || d.spin.st == .fault then d else d.spCoast

def execSpEnWrite (en : Bool) (s : State) : Host.Outcome State Fault Refusal := s.upd (spEnEff en)

/-- SP_CHOP_TEST: TEST written in OFF runs the self-test pulse, in which channel 4 rises by `rise` codes (R283, R299). -/
def chopTestEff (rise : Nat) (d : Device) : Device := if d.spin.st = .off then d.selfTest rise else d

def execSpChopTest (rise : Nat) (s : State) : Host.Outcome State Fault Refusal := s.upd (chopTestEff rise)

/-! ### Starting (R283 to R285) -/

/-- CHOPPER_SELF_TEST: 10 ms into a LISTEN entered by CMD start (R283); its arrival is the time's end. -/
def selfTestEff (rise : Nat) (d : Device) : Device :=
  if d.spin.st = .listen ∧ d.spin.byCmd = true then d.selfTest rise else d

def execChopperSelfTest (rise : Nat) (s : State) : Host.Outcome State Fault Refusal := s.upd (selfTestEff rise)

/-- The class of a listen: 1 forward, 2 backward, 0 still (R283, R301). -/
def ListenObs.cls (o : ListenObs) : Nat :=
  match o.mrpm with
  | none => 0
  | some v => if 300000 < v then 1 else if v < -60000 then 2 else 0

/-- θ and LOMEGA from the listen, and the observer's OMEGA until the first sample's (R277, R278, R281). -/
def Device.fromListen (d : Device) (o : ListenObs) : Device :=
  let (w, d) := d.electrical (o.mrpm.getD 0) 1000
  d.updSpin fun s => { s with theta := o.theta % 2 ^ 32, lomega := w, omega := w, dtheta := 0 }

/-- LISTEN_END: after 20 ms the rotor is classed (R281, R283); its arrival is the time's end. -/
def listenEndEff (o : ListenObs) (d : Device) : Device :=
  if d.spin.st ≠ .listen then d
  else
    let (v, d) := match o.mrpm with
      | some m => d.divFree m 1000
      | none => (let (x, d) := d.takeFree 16; (toSigned 16 x, d))
    let d := (d.wrI SP_LISTEN_LSPEED v).wr SP_STATUS_LCLASS o.cls
    match o.cls with
    | 1 => (d.spEnter .catch_).fromListen o
    | 2 => (d.enterReverse.fromListen o).log 7 0x3113 [ofSigned 16 v]
    | _ => d.startAttempt

def execListenEnd (o : ListenObs) (s : State) : Host.Outcome State Fault Refusal := s.upd (listenEndEff o)

/-- The running attempt of START is at a step (R284). -/
def Device.atStep (d : Device) (p : StartStep) : Bool := d.spin.st == .start && d.spin.step == p

/-- A step of START begins. -/
def Device.stepTo (d : Device) (p : StartStep) : Device := d.updSpin fun s => { s with step := p, stepN := 0 }

/-- START_ALIGNMENT_END: 50 ms of alignment end (R284); its arrival is the time's end. -/
def alignEndEff (d : Device) : Device :=
  if d.atStep .align then (d.stepTo .polarity).updSpin fun s => { s with moved := 0, movedMin := 0 } else d

def execStartAlignmentEnd (s : State) : Host.Outcome State Fault Refusal := s.upd alignEndEff

/-- START_POLARITY_END: `pos` and `neg` are ID's rises in the first 0.5 ms of the two pulses; θ advances by half a turn if the negative one is
larger by 1/16 of the larger (R284). -/
def polarityEndEff (pos neg : Int) (d : Device) : Device :=
  if !d.atStep .polarity then d
  else
    let d := d.stepTo .accel
    if pos < neg ∧ max pos neg ≤ 16 * (neg - pos) then d.updSpin fun s => { s with theta := (s.theta + 2 ^ 31) % 2 ^ 32 } else d

def execStartPolarityEnd (pos neg : Int) (s : State) : Host.Outcome State Fault Refusal := s.upd (polarityEndEff pos neg)

/-- START_BACKWARD_CHECK: 100 ms into step 3, θ has moved backward by more than 30° since the end of step 1 (R284). -/
def backwardEff (d : Device) : Device :=
  if d.atStep .accel && decide (2 ^ 32 < 12 * (- d.spin.movedMin)) then d.attemptFails 0x3117 else d

def execStartBackwardCheck (s : State) : Host.Outcome State Fault Refusal := s.upd backwardEff

/-- START_SPEED_CHECK: 2 s into step 3, the speed is below 60 rpm (R284). -/
def speedCheckEff (d : Device) : Device :=
  if d.atStep .accel && !d.rpmAtLeast d.spin.omega 60 then d.attemptFails 0x3102 else d

def execStartSpeedCheck (s : State) : Host.Outcome State Fault Refusal := s.upd speedCheckEff

/-- START_RETRY_RESUME: after 100 ms with the gates off the next attempt begins (R281). -/
def retryResumeEff (d : Device) : Device := if d.atStep .pause then d.startAttempt else d

def execStartRetryResume (s : State) : Host.Outcome State Fault Refusal := s.upd retryResumeEff

/-- SPINUP_TIMEOUT: 25 s since CMD start, in START, or in RUN with ATSPEED never set (R281). -/
def spinupEff (d : Device) : Device :=
  let out (d : Device) (st : SpState) : Device := ((d.spEnter st).wr SP_STATUS_SUTO 1).log 7 0x3109
  match d.spin.st with
  | .start => out d .coast
  | .run => if d.spin.wasAt then d else out d .brake
  | _ => d

def execSpinupTimeout (s : State) : Host.Outcome State Fault Refusal := s.upd spinupEff

/-- CATCH_END: after 2 ms of CATCH the ramp starts at the measured speed (R281, R285). -/
def catchEndEff (d : Device) : Device :=
  if d.spin.st ≠ .catch_ then d
  else
    let (r, d) := d.measRpm
    d.runFromSpeed.log 7 0x3112 [ofSigned 16 r]

def execCatchEnd (s : State) : Host.Outcome State Fault Refusal := s.upd catchEndEff

/-! ### Running, plausibility, rest (R280, R286, R288 to R290, R294) -/

/-- ATSPEED_SET: the speed has stayed within ±0.1 % of TARGET for 1 s (R286); its arrival is the time's end. The first time after a start the
spin-up time is logged (R303). -/
def atSpeedSetEff (d : Device) : Device :=
  if !d.spin.st.active || !d.speedWithin 1 || d.bit SP_STATUS_ATSPEED then d
  else
    let first := !d.spin.wasAt
    let d := (d.wrAll [(SP_STATUS_ATSPEED, 1), (SP_INT_ATSPEED, 1)]).updSpin fun s => { s with wasAt := true }
    if first then d.log 7 0x3101 [(d.chron.chr - d.spin.startAt) / 1000] else d

def execAtspeedSet (s : State) : Host.Outcome State Fault Refusal := s.upd atSpeedSetEff

/-- What a failed check does: gates off, and AUTO where R290 gives it. -/
def Device.lossAction (d : Device) : Device :=
  if !d.spin.st.checked then d
  else
    let rc := d.rd SP_STATUS_RECATCH
    let auto := d.spin.st == .run && d.bit SP_CTRL_AUTOCATCH && decide (rc < 2)
    let d := ((d.spEnter .coast).wr SP_INT_SYNC 1).wrB SP_STATUS_AUTO auto
    if 2 ≤ rc then d.log 7 0x3118 else d

/-- SYNC_LOSS: a check of R288 has failed; the event carries its letter and the speed (R288, R290). -/
def syncLossEff (d : Device) : Device :=
  match d.spin.syncFail with
  | none => d
  | some c =>
    let (r, d) := d.measRpm
    ((d.log 7 0x3105 [c, ofSigned 16 r]).updSpin fun s => { s with syncFail := none, badB := 0, badC := 0 }).lossAction

def execSyncLoss (s : State) : Host.Outcome State Fault Refusal := s.upd syncLossEff

/-- KE_ABNORMAL: at level 41 the back-EMF constant has been abnormal in 48 consecutive samples; the event carries the ratio of |EQ| to
KE0 × |OMEGA| in 1/256, floored (R289, R290). -/
def keEff (d : Device) : Device :=
  if d.spin.badK < 48 then d
  else
    let k : Nat := d.rd SP_KE0_KE0 * d.spin.omega.natAbs
    let ratio := if k = 0 then 0 else d.spin.eq.natAbs * 2 ^ 28 * 256 / k
    ((d.log 7 0x3107 [ratio]).updSpin fun s => { s with badK := 0 }).lossAction

def execKeAbnormal (s : State) : Host.Outcome State Fault Refusal := s.upd keEff

/-- ROTOR_STOPPED: back-EMF below EMFMIN for 100 ms, with gates off (R280); in COAST the state becomes OFF; with the decel timer running the
record is made: DECEL_RECORD (R281, R294). -/
def stoppedEff (d : Device) : Device :=
  if d.spin.st.active then d
  else
    let d := (d.updSpin fun s => { s with stopped := true }).decelRecord
    if d.spin.st = .coast then d.spEnter .off else d

def execRotorStopped (s : State) : Host.Outcome State Fault Refusal := s.upd stoppedEff

end Sys2Proof.Machine
end

