-- ==== Sys2Proof/Machine/PowerOps.lean ====
section
/-!
DEFINITION. The stages of a power-state transition, shared by requests, forced states and wakes: which stage comes next, what it does at
its start, when it ends, what the end of the transition does (R376 to R383).
-/
namespace Sys2Proof.Machine

/-- The device with its power management changed. -/
def Device.updPower (d : Device) (f : Power → Power) : Device := { d with power := f d.power }

/-- A list element as a truth value; false beyond the end. -/
def flagAt (l : List Bool) (i : Nat) : Bool := l.getD i false

/-! ### The reverse pairs of R381 -/

/-- Stage 1 down: the channels and write paths of both lanes off, their EN bits kept for the step up. -/
def Device.idleDown (d : Device) : Device :=
  let keep := bothLanes.flatMap fun l => [d.bit (CH_CTRL_EN l), d.bit (WR_CTRL_EN l)]
  let d := bothLanes.foldl (fun d l => ((d.wr (CH_CTRL_EN l) 0).wr (WR_CTRL_EN l) 0).cutGate l) d
  d.updPower fun p => { p with savedEn := keep }

/-- Stage 1 up: the EN bits restored. -/
def Device.idleUp (d : Device) : Device :=
  let keep := d.power.savedEn
  let d := bothLanes.foldl (fun d l =>
    if keep.isEmpty then d
    else (d.wrB (CH_CTRL_EN l) (flagAt keep (2 * l.idx))).wrB (WR_CTRL_EN l) (flagAt keep (2 * l.idx + 1))) d
  d.updPower fun p => { p with savedEn := [] }

/-- The track a lane held before its unload. -/
def Power.held (p : Power) : Lane → Option Nat
  | .ln0 => p.heldTrack0
  | .ln1 => p.heldTrack1

/-- The power management with a lane's held track set. -/
def Power.setHeld (p : Power) (l : Lane) (t : Option Nat) : Power :=
  match l with
  | .ln0 => { p with heldTrack0 := t }
  | .ln1 => { p with heldTrack1 := t }

/-- Stage 2 down: CMD unload on each loaded lane. -/
def Device.parkDown (d : Device) : Device :=
  bothLanes.foldl (fun d l =>
    if (d.sv l).st.loaded then svUnloadEff l (d.updPower fun p => p.setHeld l (some (d.rd (SV_TARGET_TRACK l)))) else d) d

/-- Stage 2 up: CMD load on each lane that was unloaded; the load goes on to a seek to the track it held (R259). -/
def Device.parkUp (d : Device) : Device :=
  bothLanes.foldl (fun d l =>
    match d.power.held l with
    | none => d
    | some t => svLoadEff l (d.wr (SV_TARGET_TRACK l) t)) d

/-- Stage 4 down: spindle CMD stop where the spindle drives, then servos and power-stage links disabled. -/
def Device.haltDown (d : Device) : Device :=
  let keep := bothLanes.flatMap fun l => [d.bit (SV_CTRL_EN l), d.bit (PS_CTRL_EN l)]
  let st := d.spin.st
  let d := if st = .start ∨ st = .run ∨ st = .reverse then spStopEff d else d
  let d := bothLanes.foldl (fun d l => psEnEff l false (svEnEff l false d)) d
  d.updPower fun p => { p with savedServo := keep }

/-- Stage 4 up: servos and links enabled as they were, and spindle CMD start; a step up that ends in Slow starts to its speed. -/
def Device.haltUp (d : Device) (target : Nat) : Device :=
  let keep := d.power.savedServo
  let d := bothLanes.foldl (fun d l =>
    let d := if flagAt keep (2 * l.idx + 1) then psEnEff l true d else d
    if flagAt keep (2 * l.idx) then svEnEff l true d else d) d
  let d := if target = 3 then d.wr SP_SPEED_TARGET (d.rd RG_PSLOW_SPEED) else d
  spStartEff (d.updPower fun p => { p with savedServo := [] })

/-! ### Running a transition -/

/-- The stage after a position: down to a lower state, or up to a higher one; stage 3 is skipped on the way to Halt (R381). -/
def nextStage (pos target : Nat) : Option (Nat × Bool) :=
  if pos < target then some (if pos = 2 ∧ 4 ≤ target then 4 else pos + 1, false)
  else if target < pos then some (pos, true)
  else none

/-- The state a transition stands in once its stage has ended. -/
def PmRun.pos (r : PmRun) : Nat := if r.up then r.stage - 1 else r.stage

/-- A stage starts (R381). Stopped cores resume at a step up (R383). -/
def Device.startStage (d : Device) (r : PmRun) : Device :=
  let d := (d.updPower fun p => { p with run := some r }).wr RG_PSTATUS_BUSY 1
  if r.up then
    let d := (d.wr RG_PSTATUS_STOPPED 0).updPower fun p => { p with idleExpired := false, forcedRetain := false }
    match r.stage with
    | 1 => d.idleUp
    | 2 => d.parkUp
    | 3 => d.wr SP_SPEED_TARGET (d.rd CB_SPIN_RPM)
    | _ => d.haltUp r.target
  else
    match r.stage with
    | 1 => d.idleDown
    | 2 => d.parkDown
    | 3 => d.wr SP_SPEED_TARGET (d.rd RG_PSLOW_SPEED)
    | _ => d.haltDown

/-- A lane is parked, or its servo is off. -/
def Device.lanePark (d : Device) (l : Lane) : Bool := (d.sv l).st == .parked || (d.sv l).st == .off

/-- A lane that was unloaded follows its track again, or has ended elsewhere than in a load. -/
def Device.laneBack (d : Device) (l : Lane) : Bool :=
  (d.power.held l).isNone || (let st := (d.sv l).st; st == .follow || st == .fault || st == .retract || st == .off || st == .parked)

/-- At speed at the present TARGET. -/
def Device.speedReached (d : Device) : Bool := d.atSpeed && d.speedWithin 5

/-- A stage's end condition (R381). -/
def Device.stageDone (d : Device) (r : PmRun) : Bool :=
  match r.stage, r.up with
  | 1, _ => true
  | 2, false => d.lanePark .ln0 && d.lanePark .ln1
  | 2, true => d.laneBack .ln0 && d.laneBack .ln1
  | 3, _ => d.speedReached
  | _, false => d.spin.st == .off
  | _, true => d.speedReached

/-- The usage snapshot written to NOR (R400). -/
def Device.saveUsage (d : Device) : Device :=
  { d with nor := { d.nor with usage := d.usage }, chron := { d.chron with unsaved := none } }

/-- The target state is reached: PMDONE, STATE, event 0x6001, the answer to a Force Power State, the snapshot of Halt (R83, R379, R400).
The cause in the event: 0 a request or a wake, 1 forced. -/
def Device.finishRun (d : Device) (target : Nat) (forced : Bool) : Device :=
  let old := d.rd RG_PSTATUS_STATE
  let d := d.updPower fun p => { p with run := none, lastEnd := d.chron.chr, idleExpired := false }
  let d := d.emit .pmdone
  let d := d.wrAll [(RG_PSTATUS_BUSY, 0), (RG_PSTATUS_STATE, target), (RG_PSTATUS_FORCED, if forced then 1 else 0)]
  let d := d.log 9 0x6001 [old, target, if forced then 1 else 0]
  let d := if forced && d.host.miForce then (d.updHost fun h => { h with miForce := false }).emit (.mi 0) else d
  if target = 4 ∧ old ≠ 4 then d.saveUsage else d

/-- From a position, the next stage of a transition, or its end. -/
def Device.goOn (d : Device) (pos target : Nat) (forced : Bool) : Device :=
  match nextStage pos target with
  | none => d.finishRun target forced
  | some (k, up) => d.startStage { stage := k, up := up, target := target, forced := forced }

/-! ### The wake by a fetched command (R70, R382) -/

/-- A step up to Run by way of the running transition, or a new one from the present state (R382, R401): a step down first ends the stage
it runs; an autonomous request that has not begun is dropped. -/
def Device.fetchWake (d : Device) : Device :=
  let dropped := if d.power.forcedReq || decide (d.host.ps < 2) then d.power.request else none
  let d := d.updHost fun h => { h with ps := if h.ps < 2 then h.ps else h.psOper }
  let d := d.updPower fun p => { p with request := dropped, autoTarget := none }
  match d.power.run with
  | some r => if r.up then d else d.updPower fun p => { p with run := some { r with target := 0 } }
  | none => if d.rd RG_PSTATUS_STATE = 0 then d else d.goOn (d.rd RG_PSTATUS_STATE) 0 false

end Sys2Proof.Machine
end

