-- ==== Sys2Proof/Machine/Power.lean ====
section
/-!
DEFINITION. Power states, Retain, the chronometer and the usage meters' snapshots, and the fetch that wakes the device (R70, R90, R376 to
R403).
-/
namespace Sys2Proof.Machine

/-! ### Fetching and the wake (R90, R382) -/

/-- COMMAND_FETCH: the arbiter's next entry, from the queue whose turn it is (R90). -/
def commandFetchEff (c q : Nat) (e : Sqe) (d : Device) : Device :=
  match d.arbNext with
  | none => d
  | some (x, left) =>
    if x.ctrl ≠ c ∨ x.qid ≠ q then d
    else
      match e.op with
      | .admin opcode => if q ≠ 0 then d else (d.tookEntry x left).fetchAdmin ⟨c, q, e.cid⟩ opcode
      | .io nsid op => if q = 0 then d else ((d.tookEntry x left).fetchIo ⟨c, q, e.cid⟩ nsid op).fetchWake

def execCommandFetch (ctrl sq : Nat) (entry : Sqe) (s : State) : Host.Outcome State Fault Refusal :=
  s.upd (commandFetchEff ctrl sq entry)

/-! ### Requests and transitions (R379 to R383) -/

/-- PMODE_TARGET_WRITE: 6 and 7 are ignored; while a transition runs, or a forced one is on its way, only ERR is set (R379, R380, R401). -/
def targetWriteEff (v : Word) (d : Device) : Device :=
  let t := getField v 0 3
  if 6 ≤ t then d
  else if d.bit RG_PSTATUS_BUSY || d.power.forcedReq then d.wr RG_PSTATUS_ERR 3
  else (d.wrAll [(RG_PMODE_TARGET, t), (RG_PSTATUS_ERR, 0)]).updPower fun p => { p with request := some t }

def execPmodeTargetWrite (value : Word) (s : State) : Host.Outcome State Fault Refusal := s.upd (targetWriteEff value)

/-- PM_TRANSITION_BEGIN: every core waits and the security core has acknowledged, so the request's stages begin (R379). A request for Retain
goes to Halt first (R384). -/
def transitionBeginEff (d : Device) : Device :=
  match d.power.request with
  | none => d
  | some t =>
    if !d.released || d.power.forcedReq || d.power.run.isSome || d.power.retain != .out then d
    else (d.updPower fun p => { p with request := none }).goOn (d.rd RG_PSTATUS_STATE) (min t 4) false

def execPmTransitionBegin (s : State) : Host.Outcome State Fault Refusal := s.upd transitionBeginEff

/-- PM_REQUEST_TIMEOUT: not begun 50 ms after TARGET; `secAck` says whether the security core has acknowledged (R380). -/
def requestTimeoutEff (secAck : Bool) (d : Device) : Device :=
  if d.power.request.isNone || d.power.forcedReq || d.power.run.isSome then d
  else
    let e := if secAck then 1 else 2
    (((d.updPower fun p => { p with request := none }).wr RG_PSTATUS_ERR e).log 9 0x6002 [e]).emit .pmdone

def execPmRequestTimeout (secAck : Bool) (s : State) : Host.Outcome State Fault Refusal := s.upd (requestTimeoutEff secAck)

/-- PM_STAGE_END: the running stage's end condition holds. With a forced state on its way the transition waits for it here (R381, R401). -/
def stageEndEff (d : Device) : Device :=
  match d.power.run with
  | none => d
  | some r =>
    if d.power.forcedReq || !d.stageDone r then d
    else
      let d := if r.stage = 2 ∧ r.up = true then d.updPower fun p => { p with heldTrack0 := none, heldTrack1 := none } else d
      d.goOn r.pos r.target r.forced

def execPmStageEnd (s : State) : Host.Outcome State Fault Refusal := s.upd stageEndEff

/-- FORCED_QUIESCE_TIMEOUT: 10 ms after the quiesce interrupt the cores not in WAIT, given as bits of STOPPED, are stopped, and the forced
transition begins, from where a running stage ends (R383, R401). -/
def quiesceEff (stopped : Nat) (d : Device) : Device :=
  match d.power.request with
  | none => d
  | some t =>
    if !d.power.forcedReq then d
    else
      let d := d.updPower fun p => { p with request := none, forcedReq := false }
      let d := (d.wrAll [(RG_PSTATUS_STOPPED, stopped), (RG_PSTATUS_FORCED, 1), (RG_PSTATUS_BUSY, 1)]).log 9 0x6003 [stopped % 4096]
      match d.power.run with
      | none => d.goOn (d.rd RG_PSTATUS_STATE) t true
      | some r =>
        if d.stageDone r then d.goOn r.pos t true
        else d.updPower fun p => { p with run := some { r with target := t, forced := true } }

def execForcedQuiesceTimeout (stopped : Nat) (s : State) : Host.Outcome State Fault Refusal := s.upd (quiesceEff stopped)

/-! ### Entry to Retain (R384 to R386, R394, R419, R424) -/

/-- Every trained port is in L1.2 or held by PERST#, and may wake the device (R56, R384). -/
def Device.portsQuiet (d : Device) : Bool :=
  d.ctrls.all fun p =>
    let held := d.bit (HS_LINK_STS_PERST p)
    if d.bit (HS_LINK_STS_UP p) || held then (held || d.bit (HS_LINK_STS_L12 p)) && (d.rd RG_WAKEEN_EN).testBit p else true

/-- No slot is RETIRING or ERASING, and the engine holds nothing (R384). -/
def Device.cipherQuiet (d : Device) : Bool :=
  let c := d.cipher
  c.service.isNone && c.suspended.isNone && c.q0.isEmpty && c.q1.isEmpty && c.q2.isEmpty && c.q3.isEmpty
    && c.slots.all fun p => p.2.st != .retiring && p.2.st != .erasing

/-- No Format NVM, Sanitize, map rebuild, update copy or activation runs (R384). -/
def Device.nothingLong (d : Device) : Bool :=
  d.host.erase == .idle && d.rd HS_STORE_STS_REBUILD != 1 && d.boot.long != .copy && d.boot.act == .none

/-- R384 holds; nor does the 32.768 kHz clock fail (R424). -/
def Device.retainReady (d : Device) : Bool :=
  d.released && (d.power.retain == .out) && decide (d.rd RG_PSTATUS_STATE = 4) && d.power.run.isNone && d.power.request.isNone
    && decide (d.inFlight = 0) && d.portsQuiet && d.nothingLong && d.cipherQuiet && !d.bit RG_STATUS_AONFAIL
    && (decide (d.rd RG_PMODE_TARGET = 5) || d.power.forcedRetain || d.power.idleExpired)

/-- The trim of R419 from the regulator diode's code and RG_XTAL: round (K / 1000 × (T − T0)² × 131,072), saturated. -/
def chrTrim (code k : Nat) (t0 : Int) : Nat :=
  let dt : Int := (code : Int) - 16 * (t0 + 64)
  min ((k * 128 * (dt * dt).natAbs + 125) / 250) (2 ^ 31 - 1)

/-- The chronometer's record written to NOR (R395). -/
def Device.saveChron (d : Device) : Device := { d with nor := { d.nor with chronRec := d.chron.chr } }

/-- Retain entry begins where R384 holds: the scrubber pauses, DRAM goes into self-refresh, the trim is set, the chronometer saved (R385,
R394, R395). -/
def retainEntryEff (d : Device) : Device :=
  if !d.retainReady then d
  else
    let d := d.updPower fun p => { p with retain := .entering, woken := false, osc := .off }
    (d.wr RG_CHRTRIM_TRIM (chrTrim (d.rd (RG_TEMP_CODE 6)) (d.rd RG_XTAL_K) (d.rdI RG_XTAL_T0))).saveChron

def execRetainEntry (s : State) : Host.Outcome State Fault Refusal := s.upd retainEntryEff

/-- RETAIN_IDLE_EXPIRE: RG_RETIDLE.TIME, not 0, has passed in Halt; entry follows where R384 holds (R384). -/
def retainIdleEff (d : Device) : Device :=
  if d.rd RG_RETIDLE_TIME = 0 ∨ d.rd RG_PSTATUS_STATE ≠ 4 ∨ d.power.run.isSome = true ∨ d.power.retain ≠ .out then d
  else retainEntryEff (d.updPower fun p => { p with idleExpired := true })

def execRetainIdleExpire (s : State) : Host.Outcome State Fault Refusal := s.upd retainIdleEff

/-- The stored check bits of a word (R333, R386). -/
def Device.storedCheck (d : Device) (a : Nat) : Nat := eccCheck (wordAddr a) (d.memWord a) ^^^ d.badBits a

/-- CRC-32C's register after `n` words from an address, each followed by its check byte (R386). -/
def Device.sealRun (d : Device) : Nat → Nat → Nat → Nat
  | 0, _, c => c
  | n + 1, a, c => d.sealRun n (a + 8) (crc32cByte (crc32cRun 8 (d.memWord a) c) (d.storedCheck a))

/-- A bank's first address (R332). -/
def bankAddr (b : Nat) : Nat := 0x10000000 + b * 0x200000

/-- The seal of a bank (R386). -/
def Device.bankSeal (d : Device) (b : Nat) : Nat := d.sealRun 262144 (bankAddr b) 0xFFFFFFFF ^^^ 0xFFFFFFFF

/-- RETAIN_SEAL_DONE: seals and group parities stored, domains 1 to 22 gated. The regulator's SRAM is its firmware's, whose contents no rule
gives: its seal is free (R385, R386). -/
def sealDoneEff (parities : Nat) (d : Device) : Device :=
  if d.power.retain ≠ .entering then d
  else
    let d := (List.range 16).foldl (fun d b => d.wr (RG_SEAL_SEAL b) (d.bankSeal b)) d
    let (reg, d) := d.takeFree 32
    let d := d.wr RG_SEALREG_SEAL reg
    let d := d.log 9 0x6005 ((List.range 16).map fun b => d.rd (RG_SEAL_SEAL b))
    d.updPower fun p => { p with retain := .gated, groupParity := parities % 512, retainAt := d.chron.chr, forcedRetain := false }

def execRetainSealDone (parities : Nat) (s : State) : Host.Outcome State Fault Refusal := s.upd (sealDoneEff parities)

/-- RETAIN_TICK_SWITCH: at a tick edge the chronometer counts ticks, its count kept; with a wake since the gating, exit begins at once (R385,
R393). -/
def tickSwitchEff (d : Device) : Device :=
  if d.power.retain ≠ .gated then d
  else
    let d : Device := { d with chron := { d.chron with frac := 0 } }
    d.updPower fun p => { p with retain := if p.woken then .waking else .inside }

def execRetainTickSwitch (s : State) : Host.Outcome State Fault Refusal := s.upd tickSwitchEff

/-! ### Wake sources (R391) -/

/-- A source fires: before the first gating, entry is abandoned; later it is recorded, and in Retain the exit begins (R385, R391, R401). -/
def Device.wakeBy (d : Device) (bit : Nat) : Device :=
  if !(d.rd RG_WAKEEN_EN).testBit bit then d
  else
    let rec_ (d : Device) : Device := d.wr RG_WAKECAUSE_CAUSE (d.rd RG_WAKECAUSE_CAUSE ||| 2 ^ bit)
    match d.power.retain with
    | .out => d
    | .entering => (d.updPower fun p => { p with retain := .out, idleExpired := false }).log 9 0x6007
    | .gated => (rec_ d).updPower fun p => { p with woken := true }
    | .inside => (rec_ d).updPower fun p => { p with retain := .waking }
    | .waking => rec_ d

/-- WAKE_PCIE: a port leaves L1.2, or its PERST# changes level. -/
def execWakePcie (port : Nat) (s : State) : Host.Outcome State Fault Refusal :=
  s.upd fun d => if d.hasPort port then d.wakeBy port else d

/-- WAKE_CROWN_BREAK: the wake oscillator starts. -/
def crownBreakEff (d : Device) : Device :=
  if d.power.retain = .out ∨ (d.rd RG_WAKEEN_EN).testBit 2 = false then d else d.updPower fun p => { p with osc := .running }

def execWakeCrownBreak (s : State) : Host.Outcome State Fault Refusal := s.upd crownBreakEff

/-- WAKE_CROWN_PATTERN: 0x55 0x55 0xA7 within 10 ms of the break's end. -/
def crownPatternEff (d : Device) : Device :=
  if d.power.osc = .off then d else (d.updPower fun p => { p with osc := .off }).wakeBy 2

def execWakeCrownPattern (s : State) : Host.Outcome State Fault Refusal := s.upd crownPatternEff

/-- WAKE_CROWN_TIMEOUT: the oscillator stops and nothing happens. -/
def execWakeCrownTimeout (s : State) : Host.Outcome State Fault Refusal := s.upd fun d => d.updPower fun p => { p with osc := .off }

/-- WAKE_SMBUS: address byte 0x1D or 0x6A, not acknowledged. -/
def execWakeSmbus (addr : Nat) (s : State) : Host.Outcome State Fault Refusal :=
  s.upd fun d => if addr = 0x1D ∨ addr = 0x6A then d.wakeBy 3 else d

/-- WAKE_AON_TIMER: RG_AONTMR.SEC seconds since Retain entry, SEC not 0. -/
def execWakeAonTimer (s : State) : Host.Outcome State Fault Refusal :=
  s.upd fun d => if d.rd RG_AONTMR_SEC = 0 then d else d.wakeBy 4

/-! ### Exit from Retain (R387 to R390, R44, R327, R372, R445) -/

/-- Banks zero-filled with valid check bits (R387). -/
def Device.zeroBank (d : Device) (b : Nat) : Device :=
  let lo := bankAddr b
  let inside (a : Nat) : Bool := decide (lo ≤ a) && decide (a < lo + 0x200000)
  let pages := (d.mem.pages.filter fun p => !inside (pageAddr p.1)).map fun p => if b = 15 then (p.1, { p.2 with side := 0 }) else p
  { d with mem := { d.mem with
      bytes := d.mem.bytes.filter fun c => !inside c.1
      pages := pages.filter fun p => p.2 != {}
      bad := d.mem.bad.filter fun c => !inside c.1
      writeback := d.mem.writeback.filter fun a => !inside a } }

/-- Every page freed, cached read data discarded (R388). -/
def Device.freePool (d : Device) : Device :=
  let d : Device := { d with pool := { free := [(0, d.poolPages)] } }
  let d := bothLanes.foldl (fun d l => d.updCh l fun c => { c with pages := [] }) d
  d.updHost fun h => { h with pins := [], owed := [] }

/-- Host state lost: every controller sets CFS, the stamp counters restart, each namespace's first command gets 0x81 (R388 to R390, R480). -/
def Device.hostLoss (d : Device) : Device :=
  let d := d.ctrls.foldl (fun d c => d.updCtrl c fun k => { k with cfs := true }) d
  d.updHost fun h => { h with stamps := [], loss := d.nsids }

/-- The host group failed: the section's registers, queues and controllers are reset, beside the loss (R389). The store's tables and journal,
which lie in memory, stay. -/
def Device.hostGroup (d : Device) : Device :=
  let d := d.resetRegs 0xF0000000 0xF0100000
  let d := d.updHost fun h => { h with ctrls := ({}, {}), sqs := [], cqs := [], arbAt := (0, 0), arbLeft := 0, cmds := [], table := [] }
  d.hostLoss

/-- A lane's group failed: the lane is reset (R389). -/
def Device.laneGroup (d : Device) (l : Lane) : Device :=
  let d := (d.updLane l fun _ => {}).resetRegs l.base (l.base + 0x100000)
  { d with elk := {} }

/-- The memory group failed: registers reset, DRAM retrained with its contents, pool freed, caches invalidated (R389). -/
def Device.memGroup (d : Device) : Device :=
  let st := d.word MS_STATUS
  let d := (d.resetRegs 0xF0300000 0xF0400000).setWord MS_STATUS st
  Device.freePool { d with hostL2 := {}, mediaL2a := {}, mediaL2b := {} }

/-- The spindle group failed: the section is reset (R389). -/
def Device.spinGroup (d : Device) : Device :=
  let d := d.resetRegs 0xF0400000 0xF0500000
  { d with spin := { stopped := d.spin.stopped } }

/-- The cipher group failed: CX_ is reset, its self-test's result standing, and the slots zeroised (R372, R389). -/
def Device.cipherGroup (d : Device) : Device :=
  let pass := d.bit CX_STATUS_SELFPASS
  let bad := d.bit CX_STATUS_SELFFAIL
  let d : Device := { d.resetRegs 0xF0500000 0xF0600000 with cipher := {} }
  ((d.wrB CX_STATUS_SELFPASS pass).wrB CX_STATUS_SELFFAIL bad).zeroiseAll 1

/-- The calibre group failed: CB_ is reset, and R41 to R43 run again (R44, R389). -/
def Device.calGroup (d : Device) (obs : BootObs) : Device :=
  let d := d.resetRegs 0xF0800000 0xF0900000
  Device.examineA { d with boot := { d.boot with locked := false, reload := true, obs := obs, resultA := 1, resultB := 1 } }

/-- The registers of RG_ in the always-on part: wake logic, trim, seals, reset cause (R377, R389). -/
def aonRegs : List Nat := [RG_WAKEEN, RG_WAKECAUSE, RG_AONTMR, RG_CHRTRIM, RG_SEALREG, RG_RSTCAUSE] ++ (List.range 16).map RG_SEAL

/-- The regulator's registers but the always-on part are reset (R389). -/
def Device.regGroup (d : Device) : Device :=
  let keep := aonRegs.map fun a => (a, d.word a)
  let d := d.resetRegs 0xF0700000 0xF0800000
  let d := keep.foldl (fun d p => d.setWord p.1 p.2) d
  { d with thermal := { supplyKept := d.thermal.supplyKept }, cal := {}, duty := {} }

/-- The regulator's warm restart: the chronometer as after Off (R388, R395). -/
def Device.regRestart (d : Device) : Device := Device.restartChron { d with chron := { d.chron with lost := true } }

/-- RETAIN_EXIT: the device returns to Halt. `groups` is the retention groups' parity as restored, `banks` the banks and `regSram` whether the
regulator's SRAM differ from their seals, `digestOk` the check of the patch, `obs` what a rerun of the boot's examinations meets (R327, R387 to
R390). -/
def retainExitEff (groups banks : Nat) (regSram digestOk : Bool) (obs : BootObs) (d : Device) : Device :=
  if d.power.retain ≠ .waking then d
  else
    let g := (d.power.groupParity ^^^ groups) % 512
    let b := banks % 65536
    let p := d.rd CB_SRAMPART_BANKS
    let d := (List.range 16).foldl (fun d i => if b.testBit i then d.zeroBank i else d) d
    let poolLost := b.testBit 15 || (List.range 16).any fun i => decide (i < p) && b.testBit i
    let d := if poolLost then d.freePool else d
    let d := if b.testBit 12 then d.hostLoss else d
    let d := if g.testBit 0 then d.hostGroup else d
    let d := if g.testBit 1 then d.laneGroup .ln0 else d
    let d := if g.testBit 2 then d.laneGroup .ln1 else d
    let d := if g.testBit 3 then d.memGroup else d
    let d := if g.testBit 4 then d.spinGroup else d
    let d := if g.testBit 5 then d.cipherGroup else d
    let d := if g.testBit 8 then d.regGroup else d
    let away := d.chron.chr - d.power.retainAt
    let d := if g.testBit 8 || regSram then d.regRestart else d
    let d := d.updPower fun p => { p with retain := .out, woken := false, osc := .off, idleExpired := false }
    let d := d.wrAll [(RG_PSTATUS_STATE, 4), (RG_SEALSTAT_BANKS, d.rd RG_SEALSTAT_BANKS ||| b),
      (RG_SEALSTAT_GROUPS, d.rd RG_SEALSTAT_GROUPS ||| g), (RG_SEALSTAT_REG, if regSram then 1 else d.rd RG_SEALSTAT_REG)]
    let d : Device := { d with crown := { d.crown with rateIdx := 0, newRate := none, unproven := false } }
    let d :=
      if g = 0 ∧ b = 0 ∧ regSram = false then d
      else
        let d : Device := { d with hnor := { d.hnor with losses := d.hnor.losses + 1 } }
        (d.log 9 0x6004 [(d.word RG_SEALSTAT).toNat]).postAen vendorMask ⟨7, 1, 0xC2⟩
    let d := if digestOk then d else (d.loadPatch obs.patch).log 8 0x2026
    let d := d.log 9 0x6006 [d.rd RG_WAKECAUSE_CAUSE, away]
    if g.testBit 7 then d.calGroup obs else d

def execRetainExit (groups banks : Nat) (regSram digestOk : Bool) (obs : BootObs) (s : State) : Host.Outcome State Fault Refusal :=
  s.upd (retainExitEff groups banks regSram digestOk obs)

/-! ### The chronometer (R392 to R395) -/

/-- The root clock counts: the regulator runs, and the switch to ticks has not come (R392, R393, R395). -/
def Device.rootCounts (d : Device) : Bool :=
  let running := match d.boot.phase with
    | .released => true
    | .held => d.thermal.shutdown || d.thermal.supplyFail
    | _ => d.boot.reload
  running && (match d.power.retain with | .inside => false | .waking => false | _ => true)

/-- The namespaces with a command fetched and not completed (R399). -/
def Device.busyNs (d : Device) : List Nat :=
  d.nsids.filter fun n => d.host.cmds.any fun c => c.nsid == n && !c.silent

/-- Busy time of the namespaces counted (R399). -/
def Device.countBusy (d : Device) : Device :=
  { d with meters := d.busyNs.foldl (fun t n =>
      let m := Sparse.get (fun _ => ({} : Meter)) t n
      Sparse.put (fun _ => {}) t n { m with busyUs := m.busyUs + 1 }) d.meters }

/-- A sequencer of the lane has an operation running (R414). -/
def Device.laneBusy (d : Device) (l : Lane) : Bool := (laneSeqs l).any fun q => (d.ec q).op.isSome

/-- Media duty counted (R414). -/
def Device.countDuty (d : Device) : Device :=
  { d with duty := { d.duty with
      busy0 := d.duty.busy0 + (if d.laneBusy .ln0 then 1 else 0)
      busy1 := d.duty.busy1 + (if d.laneBusy .ln1 then 1 else 0) } }

/-- Run time in probation counted (R456). -/
def Device.countProbation (d : Device) : Device :=
  if d.bit RG_BOOTSTAT_PROBATION && decide (d.rd RG_PSTATUS_STATE = 0) && d.power.run.isNone then
    { d with boot := { d.boot with probationUs := d.boot.probationUs + 1 } }
  else d

/-- With PS1 in force, a device in Run with no command fetched and uncompleted asks for Idle (R70). -/
def Device.idleInPs1 (d : Device) : Device :=
  if d.host.ps = 1 ∧ d.rd RG_PSTATUS_STATE = 0 ∧ d.inFlight = 0 ∧ d.power.run.isNone = true ∧ d.power.request.isNone = true ∧ d.released = true then
    d.updPower fun p => { p with request := some 1 }
  else d

/-- CHRONOMETER_TICK: 1 µs (R392); what is counted in microseconds of the clocked states is counted with it (R399, R414, R456), and at a minute's
end the thermal history counts the minute, at a tenth minute's end it goes to NOR (R417). -/
def chronTickEff (d : Device) : Device :=
  if !d.rootCounts then d
  else
    let before := d.chron.chr
    let d : Device := { d with chron := { d.chron with chr := (d.chron.chr + 1) % 2 ^ 64 } }
    let d := d.closeMinute before
    let d := if d.chron.chr / 600000000 = before / 600000000 then d else d.saveTherm
    (((d.countBusy).countDuty).countProbation).idleInPs1

def execChronometerTick (s : State) : Host.Outcome State Fault Refusal := s.upd chronTickEff

/-- Ticks of the 32.768 kHz clock count: in Retain, and from a device reset until the regulator is released (R392, R395). -/
def Device.ticksCount (d : Device) : Bool := !d.rootCounts && !d.aon.off

/-- RETAIN_CHRONOMETER_TICK: one tick of the 32.768 kHz clock (R392, R395). A minute begun before is counted when it ends (R417). -/
def retainTickEff (d : Device) : Device :=
  if !d.ticksCount then d
  else
    let sum : Int := ((d.chron.frac : Int) + 0x84800000 + d.rdI RG_CHRTRIM_TRIM) % 2 ^ 64
    let before := d.chron.chr
    Device.closeMinute
      { d with chron := { d.chron with chr := (d.chron.chr + 30 + (sum / 2 ^ 32).toNat) % 2 ^ 64, frac := (sum % 2 ^ 32).toNat } } before

def execRetainChronometerTick (s : State) : Host.Outcome State Fault Refusal := s.upd retainTickEff

/-- CHRONOMETER_NOR_SAVE: every 10 minutes (R395). -/
def execChronometerNorSave (s : State) : Host.Outcome State Fault Refusal := s.upd fun d => if d.rootCounts then d.saveChron else d

/-! ### Usage snapshots (R400, R401) -/

/-- USAGE_MINUTE_SNAPSHOT: at a minute boundary every meter is copied; a boundary during forced quiescence waits until the cores are released.
While the spindle turns the snapshot goes to the medium too (R400, R401). -/
def minuteEff (d : Device) : Device :=
  let seq := d.chron.chr / 60000000
  if !d.rootCounts || decide (seq ≤ d.usage.seq) || d.power.forcedReq || d.power.run.any (·.forced) then d
  else
    let u : UsageSnap := { seq := seq, meters := d.meters }
    let d : Device := { d with usage := u }
    if d.spinTurning then
      { d with medium := { d.medium with usage := u }, chron := { d.chron with unsaved := none } }
    else
      let first := match d.chron.unsaved with | some (f, _) => f | none => seq
      { d with chron := { d.chron with unsaved := some (first, seq) } }

def execUsageMinuteSnapshot (s : State) : Host.Outcome State Fault Refusal := s.upd minuteEff

/-- USAGE_SNAPSHOT_NOR_SAVE: every 10 minutes, and at each entry to Halt (R400). -/
def execUsageSnapshotNorSave (s : State) : Host.Outcome State Fault Refusal := s.upd fun d => if d.rootCounts then d.saveUsage else d

end Sys2Proof.Machine
end

