-- ==== Sys2Proof/Machine/Update.lean ====
section
/-!
DEFINITION. Firmware update, calibre update, key revocation, activation, probation (R45, R46, R437, R450 to R456).
-/
namespace Sys2Proof.Machine

/-- A long Solind command is running (R449 status 8). -/
def Device.longRuns (d : Device) : Bool := d.boot.long != .none

/-- The device with a long operation. -/
def Device.setLong (d : Device) (o : LongOp) : Device := { d with boot := { d.boot with long := o } }

/-- The number of chunks of an image. -/
def chunkCount (len : Nat) : Nat := (len + 4095) / 4096

/-- The erased chunk: every byte 0xFF. -/
def erasedChunk : Nat := 2 ^ 32768 - 1

/-! ### Download (R451) -/

/-- The download of the boot record can go on: stage 1, the same length and identifier, and the last chunk reads back with the
CRC of its journal entry (R451). -/
def Device.resumable (d : Device) (len ident : Nat) : Bool :=
  let r := d.brec
  r.stage == 1 && r.stagedLen == len && r.stagedId == ident
    && (match d.nor.journal.getLast? with
        | none => false
        | some (k, c) => (Sparse.find d.nor.staging k).any fun v => crc32cNum 4096 v == c)

/-- The next chunk of the download. -/
def Device.nextChunk (d : Device) : Nat := d.nor.journal.length

/-- SOLIND_UPD_BEGIN (R449 to R451). -/
def updBeginEff (len ident : Nat) (d : Device) : Device :=
  d.servedNR (if d.longRuns then d.respond 0x0020 8
    else if d.resumable len ident then
      (d.log 9 0x7004 [len, d.nextChunk]).respond 0x0020 0 (bytesOf 4 d.nextChunk)
    else if !(([0, 2, 3, 8, 9] : List Nat).contains d.brec.stage) then d.respond 0x0020 3
    else if len < 4096 ∨ 8388608 < len ∨ len % 16 ≠ 0 then d.respond 0x0020 4
    else
      let d : Device := { d with nor := { d.nor with journal := [], staging := [] } }
      let d := d.writeRec { d.brec with stage := 1, stagedLen := len, stagedId := ident, flags := d.brec.flags &&& 0xFFFE }
      ((d.wr RG_UPDSTAT_CHUNKS 0).log 9 0x7004 [len, 0]).respond 0x0020 0 (bytesOf 4 0))

def execSolindUpdBegin (length ident : Nat) (s : State) : Host.Outcome State Fault Refusal := s.upd (updBeginEff length ident)

/-- SOLIND_UPD_CHUNK: programs the chunk and its journal entry, then answers (R450, R451). -/
def updChunkEff (index data : Nat) (norFail : Bool) (d : Device) : Device :=
  d.servedNR (if d.brec.stage ≠ 1 then d.respond 0x0021 3
    else if index ≠ d.nextChunk then d.respond 0x0021 9 ([0, 0, 0] ++ bytesOf 4 d.nextChunk)
    else if norFail then d.respond 0x0021 7
    else
      let v := data % 2 ^ 32768
      let d : Device := { d with nor := { d.nor with
        staging := Sparse.ins d.nor.staging index v, journal := d.nor.journal ++ [(index, crc32cNum 4096 v)] } }
      let d := d.wr RG_UPDSTAT_CHUNKS d.nor.journal.length
      let d := if chunkCount d.brec.stagedLen ≤ d.nextChunk then d.writeRec { d.brec with stage := 2 } else d
      d.respond 0x0021 0)

def execSolindUpdChunk (index data : Nat) (norFail : Bool) (s : State) : Host.Outcome State Fault Refusal :=
  s.upd (updChunkEff index data norFail)

/-! ### Verification and copy (R452, R453) -/

/-- SOLIND_UPD_VERIFY (R450, R452). -/
def updVerifyEff (d : Device) : Device :=
  d.servedNR (if d.longRuns then d.respond 0x0022 8
    else if d.brec.stage ≠ 2 then d.respond 0x0022 3
    else (d.setLong .verify).respond 0x0022 1)

def execSolindUpdVerify (s : State) : Host.Outcome State Fault Refusal := s.upd updVerifyEff

/-- UPD_VERIFY_DONE: R440 on the staged image (R450, R452). -/
def updVerifyDoneEff (obs : ImageObs) (d : Device) : Device :=
  if d.boot.long ≠ .verify then d
  else
    let d := d.setLong .none
    if d.brec.stage ≠ 2 then d
    else
      let c := d.imageCode d.nor.staging obs
      let d := d.wr RG_UPDSTAT_VCODE c
      if c = 0 then
        (d.writeRec { d.brec with stage := 3, flags := d.brec.flags ||| 1 }).log 9 0x7005
          [imgRevision d.nor.staging, imgSvn d.nor.staging]
      else (d.writeRec { d.brec with stage := 0 }).log 9 0x7006 [c]

def execUpdVerifyDone (obs : ImageObs) (s : State) : Host.Outcome State Fault Refusal := s.upd (updVerifyDoneEff obs)

/-- The slot a commit copies into: the inactive one; in recovery mode the lower-lettered slot that fails R440 (R453). -/
def Device.commitSlot (d : Device) : Nat :=
  if d.boot.phase = .recovery then (if d.slotCode d.boot.obs 0 ≠ 0 then 0 else 1)
  else 1 - d.brec.active

/-- The device with a slot's contents replaced. -/
def Device.setSlotImage (d : Device) (s : Nat) (t : List (Nat × Nat)) : Device :=
  if s = 0 then { d with nor := { d.nor with slotA := t } } else { d with nor := { d.nor with slotB := t } }

/-- SOLIND_UPD_COMMIT: the inactive slot is erased and the copy starts (R450, R453). -/
def updCommitEff (d : Device) : Device :=
  d.servedNR (if d.longRuns then d.respond 0x0023 8
    else if d.brec.stage ≠ 3 then d.respond 0x0023 3
    else
      (((d.writeRec { d.brec with stage := 4 }).setSlotImage d.commitSlot []).setLong .copy).respond 0x0023 1)

def execSolindUpdCommit (s : State) : Host.Outcome State Fault Refusal := s.upd updCommitEff

/-- UPD_COPY_DONE: the slot reads back equal and is pending, or NOR failed (R450). -/
def updCopyDoneEff (norFail : Bool) (d : Device) : Device :=
  if d.boot.long ≠ .copy then d
  else
    let d := d.setLong .none
    if norFail then (d.writeRec { d.brec with stage := 3 }).log 9 0x7008
    else
      let n := d.commitSlot
      let d := d.setSlotImage n d.nor.staging
      (d.writeRec { d.brec with
          stage := 5
          pending := some n
          pboots := 0
          prun := 0
          flags := d.brec.flags &&& (if n = 0 then 0xFFFD else 0xFFFB) }).log 9 0x7007

def execUpdCopyDone (norFail : Bool) (s : State) : Host.Outcome State Fault Refusal := s.upd (updCopyDoneEff norFail)

/-! ### Scheduling (R450) -/

/-- SOLIND_UPD_SCHEDULE: an epoch and a window of 1 to 600 s (R449, R450). -/
def updScheduleEff (epoch window : Nat) (d : Device) : Device :=
  d.servedN 0x0024 (if d.brec.stage ≠ 5 then d.respond 0x0024 3
    else if window = 0 ∨ 600 < window then d.respond 0x0024 4
    else
      ((d.writeRec { d.brec with stage := 6, epoch := epoch % 2 ^ 64, window := window }).log 9 0x7009 [epoch, window]).respond
        0x0024 0)

def execSolindUpdSchedule (epoch window : Nat) (s : State) : Host.Outcome State Fault Refusal :=
  s.upd (updScheduleEff epoch window)

/-- SOLIND_UPD_CANCEL (R450). -/
def updCancelEff (d : Device) : Device :=
  d.servedNR (
    let r := d.brec
    if r.stage = 5 ∨ r.stage = 6 then
      if d.boot.act ≠ .none then d.respond 0x0025 3
      else ((d.writeRec { r with stage := 3, pending := none }).log 9 0x7015 [r.stage]).respond 0x0025 0
    else if r.stage = 1 ∨ r.stage = 2 then
      let d : Device := { d with nor := { d.nor with journal := [] } }
      let d := (d.setLong (if d.boot.long = .verify then .none else d.boot.long)).wr RG_UPDSTAT_CHUNKS 0
      (d.writeRec { r with stage := 0 }).respond 0x0025 0
    else d.respond 0x0025 3)

def execSolindUpdCancel (s : State) : Host.Outcome State Fault Refusal := s.upd updCancelEff

/-- The end of the activation window in host milliseconds. -/
def BootRec.windowEnd (r : BootRec) : Nat := r.epoch + 1000 * r.window

/-- SOLIND_UPD_STATUS: stage, chunks received, verification code, milliseconds left in the window (R449). -/
def updStatusEff (d : Device) : Device :=
  d.servedNR (d.respond 0x0026 0 ([d.brec.stage] ++ bytesOf 2 d.nor.journal.length ++ [d.rd RG_UPDSTAT_VCODE]
    ++ bytesOf 4 (if d.brec.stage = 6 then d.brec.windowEnd - d.hostMs else 0)))

def execSolindUpdStatus (s : State) : Host.Outcome State Fault Refusal := s.upd updStatusEff

/-! ### Calibre over the crown port (R45, R46, R454) -/

/-- SOLIND_CAL_CHUNK: up to 4,096 bytes into the calibre buffer at a multiple of 4,096 (R449). -/
def calChunkEff (offset length data : Nat) (d : Device) : Device :=
  d.servedNR (if offset % 4096 ≠ 0 ∨ 65536 ≤ offset ∨ length = 0 ∨ 4096 < length then d.respond 0x0030 4
    else
      let k := offset / 4096
      let old := (Sparse.find d.boot.calBuf k).getD erasedChunk
      Device.respond { d with boot := { d.boot with calBuf := Sparse.ins d.boot.calBuf k (putBits old 0 (8 * length) data) } }
        0x0030 0)

def execSolindCalChunk (offset length data : Nat) (s : State) : Host.Outcome State Fault Refusal :=
  s.upd (calChunkEff offset length data)

/-- The calibre buffer's code under steps 1, 3 and 4 of R41; `verdict` is none where the Oprok core gave none in time. -/
def Device.calBufCode (d : Device) (verdict : Option Verdict) : Nat :=
  let t := d.boot.calBuf
  if calHeader t ≠ 0 then calHeader t
  else match verdict with
    | none => 9
    | some v => if calSignature t d.otp v ≠ 0 then calSignature t d.otp v else calRecordsCode t

/-- SOLIND_CAL_COMMIT: the buffer is checked, held against the fixed records of R46 unless the factory strap is set, and
programmed as the copy R45 names (R454). -/
def calCommitEff (copy : Nat) (verdict : Option Verdict) (norFail : Bool) (d : Device) : Device :=
  d.servedNR (
    let t := d.boot.calBuf
    let c := d.calBufCode verdict
    let source := d.rd CB_STATUS_SOURCE
    if d.longRuns then d.respond 0x0031 8
    else if c ≠ 0 then d.respond 0x0031 5 [c]
    else match calRecords t with
      | .error e => d.respond 0x0031 5 [e]
      | .ok rs =>
        match (if source = 0 ∨ d.boot.straps.factory = true then none else d.fixedDiff t rs) with
        | some tag => (d.log 9 0x7804 [tag]).respond 0x0031 6 ([0] ++ bytesOf 2 tag)
        | none =>
          if source = 0 ∧ 1 < copy then d.respond 0x0031 4
          else if norFail then d.respond 0x0031 7
          else
            let toB := if source = 0 then copy == 1 else source == 1
            let d : Device := if toB then { d with nor := { d.nor with calB := t } } else { d with nor := { d.nor with calA := t } }
            (d.log 9 0x7803 [if toB then 1 else 0, calSeq t]).respond 0x0031 0)

def execSolindCalCommit (copy : Nat) (verdict : Option Verdict) (norFail : Bool) (s : State) :
    Host.Outcome State Fault Refusal :=
  s.upd (calCommitEff copy verdict norFail)

/-- SOLIND_CAL_READ: up to 4,096 bytes of a calibre copy (R449). -/
def calReadEff (copy offset length : Nat) (d : Device) : Device :=
  d.servedNR (if 1 < copy ∨ 4096 < length ∨ 65536 < offset + length then d.respond 0x0032 4
    else d.respond 0x0032 0 (chunkBytes (if copy = 0 then d.nor.calA else d.nor.calB) offset length))

def execSolindCalRead (copy offset length : Nat) (s : State) : Host.Outcome State Fault Refusal :=
  s.upd (calReadEff copy offset length)

/-! ### Key revocation (R437) -/

/-- Why the Oprok core refuses a revocation (R437). -/
def Device.revokeRefused (d : Device) (target : Nat) : Bool :=
  let o := d.otp
  let others := (List.range 4).any fun k => k != target && o.usable k
  let running := if d.rd CB_STATUS_SOURCE = 1 then d.nor.calA else d.nor.calB
  let r := d.brec
  !others
    || (d.rd CB_STATUS_SOURCE != 0 && sigKey running (calLength running - 112) == target)
    || imgKey (d.fwSlot r.active) == target
    || (r.pending.any fun s => imgKey (d.fwSlot s) == target)
    || (r.flags.testBit 0 && imgKey d.nor.staging == target)

/-- SOLIND_KEY_REVOKE: the message "GREV", the target and zeros, signed with a usable key other than the target (R437). -/
def keyRevokeEff (message : List Nat) (signer : Nat) (signature : Bool) (d : Device) : Device :=
  d.servedN 0x0040 (
    let target := message.getD 4 0
    if message.length ≠ 16 ∨ message.take 4 ≠ [0x47, 0x52, 0x45, 0x56] ∨ (message.drop 5).any (· != 0) = true ∨ 3 < target then
      d.respond 0x0040 4
    else if signer = target ∨ d.otp.usable signer = false then d.respond 0x0040 5 [3]
    else if !signature || d.otp.bad then d.respond 0x0040 5 [4]
    else if d.revokeRefused target then d.respond 0x0040 6 ([0] ++ bytesOf 2 target)
    else
      (Device.log { d with otp := { d.otp with revoked := d.otp.revoked ||| 2 ^ target } } 8 0x7010 [target]).respond 0x0040 0)

def execSolindKeyRevoke (message : List Nat) (signer : Nat) (signature : Bool) (s : State) :
    Host.Outcome State Fault Refusal :=
  s.upd (keyRevokeEff message signer signature)

/-! ### Activation (R119, R455) -/

/-- Now lies in the activation window. -/
def Device.inWindow (d : Device) : Bool :=
  decide (d.brec.epoch ≤ d.hostMs) && decide (d.hostMs ≤ d.brec.windowEnd)

/-- ACT_SYNC_EDGE: a qualified edge in the window sets CSTS.PP and starts the drain; edges while it drains, outside the window
or in Retain are not taken (R119, R450, R455, R460). -/
def actSyncEff (d : Device) : Device :=
  if d.released && (d.power.retain == .out) && d.brec.stage == 6 && d.boot.act == .none && d.inWindow then
    Device.setPP { d with boot := { d.boot with act := .draining, actAt := d.chron.chr } } true
  else d

def execActSyncEdge (s : State) : Host.Outcome State Fault Refusal := s.upd actSyncEff

/-- ACTIVATION_DRAIN_DONE: no command is in flight. The pending slot is checked; if it fails it is reverted and the old code
goes on, else the cores stop and the switch begins, with the patch reloaded and the boot record written (R455). -/
def actDrainDoneEff (obs : ImageObs) (patch : PatchObs) (d : Device) : Device :=
  if d.boot.act ≠ .draining ∨ d.noInFlight = false then d
  else match d.brec.pending with
    | none => Device.setPP { d with boot := { d.boot with act := .none } } false
    | some n =>
      if d.imageCode (d.fwSlot n) obs ≠ 0 then
        (Device.setPP { d with boot := { d.boot with act := .none } } false).revertPending 2
      else
        (Device.loadPatch { d with boot := { d.boot with act := .switching } } patch).writeRec { d.brec with pboots := 1 }

def execActivationDrainDone (obs : ImageObs) (patch : PatchObs) (s : State) : Host.Outcome State Fault Refusal :=
  s.upd (actDrainDoneEff obs patch)

/-- ACTIVATION_DRAIN_TIMEOUT: commands are still in flight 2 s after PP; the activation is postponed (R119). -/
def actDrainTimeoutEff (d : Device) : Device :=
  if d.boot.act = .draining ∧ d.boot.actAt + 2000000 ≤ d.chron.chr ∧ d.noInFlight = false then
    (Device.setPP { d with boot := { d.boot with act := .none } } false).log 0 0x100C
  else d

def execActivationDrainTimeout (s : State) : Host.Outcome State Fault Refusal := s.upd actDrainTimeoutEff

/-- ACTIVATION_SWITCH_DONE: the new cores run in probation and fetching resumes (R450, R455, R458). -/
def actSwitchDoneEff (d : Device) : Device :=
  match d.boot.act, d.brec.pending with
  | .switching, some n =>
    let old := d.boot.revision
    let t := d.fwSlot n
    let d : Device := { d with boot := { d.boot with act := .none, revision := imgRevision t, probationUs := 0 } }
    let d := (d.writeRec { d.brec with stage := 7, pboots := 1, prun := 0 }).checkSettings (imgSchema t)
    let d := (((d.wr RG_BOOTSTAT_PROBATION 1).wr RG_BOOTSTAT_SLOT n).wr RG_BOOTSTAT_PBOOTS 1).wr RG_BOOTSTAT_SCHEMA
      ((d.nor.curSettings.map (·.schema)).getD 0)
    (d.setPP false).log 9 0x700A [old, imgRevision t, d.chron.chr - d.boot.actAt]
  | _, _ => d

def execActivationSwitchDone (s : State) : Host.Outcome State Fault Refusal := s.upd actSwitchDoneEff

/-- ACTIVATION_WINDOW_EXPIRE: the window passes with no edge taken (R450). -/
def actWindowExpireEff (d : Device) : Device :=
  if d.brec.stage = 6 ∧ d.boot.act = .none ∧ d.brec.windowEnd < d.hostMs then
    (d.writeRec { d.brec with stage := 5 }).log 9 0x700B
  else d

def execActivationWindowExpire (s : State) : Host.Outcome State Fault Refusal := s.upd actWindowExpireEff

/-! ### Probation (R456) -/

/-- The Run time counted so far is stored in the boot record. -/
def Device.saveProbation (d : Device) : Device :=
  let secs := d.boot.probationUs / 1000000
  Device.writeRec { d with boot := { d.boot with probationUs := d.boot.probationUs % 1000000 } }
    { d.brec with prun := d.brec.prun + secs }

/-- PROBATION_SAVE_TIMER: every 60 s (R456). -/
def execProbationSaveTimer (s : State) : Host.Outcome State Fault Refusal :=
  s.upd fun d => if d.bit RG_BOOTSTAT_PROBATION then d.saveProbation else d

/-- PROBATION_TIMEOUT: 1,800 s of Run without confirmation; the reset has cause 5 (R456). -/
def probationTimeoutEff (st : Straps) (d : Device) : Device :=
  if d.bit RG_BOOTSTAT_PROBATION && decide (1800 ≤ d.brec.prun + d.boot.probationUs / 1000000) then
    d.saveProbation.deviceReset 5 st
  else d

def execProbationTimeout (straps : Straps) (s : State) : Host.Outcome State Fault Refusal :=
  s.upd (probationTimeoutEff straps)

/-- BOOTCONF_CONFIRM: outside probation it is ignored; else the pending image becomes active, and a security version above the
fused one is fused; `fuseOk` says whether the fuses took it (R456, R460). -/
def bootConfirmEff (fuseOk : Bool) (d : Device) : Device :=
  match d.bit RG_BOOTSTAT_PROBATION, d.brec.pending with
  | true, some n =>
    let v := imgSvn (d.fwSlot n)
    let d := d.writeRec { d.brec with active := n, pending := none, stage := 8, pboots := 0, prun := 0 }
    let d := (d.wr RG_BOOTSTAT_PROBATION 0).wr RG_BOOTSTAT_PBOOTS 0
    if d.otp.svn < v then
      if fuseOk then
        let d : Device := { d with otp := { d.otp with svn := v } }
        (d.wr RG_BOOTSTAT_SVN v).log 8 0x700D
      else d.log 8 0x7011
    else d
  | _, _ => d

def execBootconfConfirm (fuseOk : Bool) (s : State) : Host.Outcome State Fault Refusal := s.upd (bootConfirmEff fuseOk)

end Sys2Proof.Machine
end

