-- ==== Sys2Proof/Machine/Recover.lean ====
section
/-!
DEFINITION. Store recovery over the crown port (R457).
-/
namespace Sys2Proof.Machine

/-- SOLIND_STORE_RECOVER: only while the map rebuild has failed; a long operation (R449, R457). -/
def storeRecoverEff (option : Nat) (d : Device) : Device :=
  d.servedN 0x0050 (
    if d.longRuns then d.respond 0x0050 8
    else if 2 ≤ option then d.respond 0x0050 4
    else if d.rd HS_STORE_STS_REBUILD ≠ 3 then d.respond 0x0050 3
    else ((d.setLong (.storeRecover option)).log 9 0x7014 [option]).respond 0x0050 1)

def execSolindStoreRecover (option : Nat) (s : State) : Host.Outcome State Fault Refusal := s.upd (storeRecoverEff option)

/-- The row of a band of which only its trailers are known: closed, its place from the drive's geometry, its zone from its units (R127,
R144). -/
def Device.bandFromUnits (d : Device) (b : Nat) (us : List MUnit) : Option Band :=
  match Sparse.find d.medium.geom b, us.head? with
  | some (lane, head, slots), some u =>
    let zoned := d.zonedNs u.nsid
    some { lane := lane, head := head, st := .closed, nsid := if zoned then u.nsid else 0, zslba := if zoned then u.lba - u.lba % 65536 else 0
           slots := slots, dmax := dmaxOf d.stripeG d.stripeP slots, next := 0, units := 0 }
  | _, _ => none

/-- The map from the valid trailers of every band and the journal records that can be read, in ascending sequence (R143, R144, R457). -/
def Device.fullScan (d : Device) (o : RebuildObs) : Tables :=
  let rs := (d.medium.journal.filter fun s => !o.lost.contains s.no).flatMap (·.recs)
  let scans := d.medium.bands.map fun p => (p.1, (scanBand o.badCopies p.2).1.filter d.epochOk)
  let opened := rs.filterMap fun r => match r with | .bandOpen _ _ _ b _ _ _ => some b | _ => none
  let base : Tables := scans.foldl (fun t p =>
    if opened.contains p.1 then t else match d.bandFromUnits p.1 p.2 with | none => t | some x => t.setBand p.1 x) {}
  let unitRecs := rs.filter fun r => match r with | .unit .. => true | _ => false
  let found := scans.flatMap fun p => p.2.map fun u => u.toRec p.1
  let fresh := found.filter fun r => !unitRecs.any fun q => q.seq == r.seq
  let delta := sortBySeq ((rs.filter fun r => match r with | .frontier .. => false | _ => true) ++ fresh)
  let t := delta.foldl (fun t r => Tables.applyRec t d.zonedNs d.stripeG d.stripeP r) base
  { t with
    zones := (t.zones.map fun p => (p.1, p.2.afterRebuild)).filter fun p => p.2 != {}
    bands := t.bands.map fun p => (p.1, { p.2 with closing := false }) }

/-- The store stands on given tables: sequence above every one on the medium, a checkpoint of the tables, an empty journal behind it. -/
def Device.standOn (d : Device) (t : Tables) : Device :=
  let m := d.medium
  let seq := m.highest + 1
  let at_ := (m.journal.map (·.no + 1)).foldl max d.host.jsector
  let c : Checkpoint := { complete := true, start := at_, seq := seq - 1, tables := t }
  Device.updHost { d with medium := { m with checkA := some c, checkB := none, journal := [], everCheck := true } } fun h => { h with
    tables := t, seq := seq, jsector := at_, jpend := [], jflight := [], loaded := none, check := none, checkAt := d.chron.chr
    verify := (t.bands.filter fun p => p.2.st == .closed).map (·.1) }

/-- Every namespace deleted and its key slot erased, every band freed, namespace 1 made anew (R65, R457). -/
def Device.startOver (d : Device) : Device :=
  let d := d.nsids.foldl (fun d n =>
    let d := match d.mapped n with | none => d | some s => (d.keyErase s).2
    let epoch := ((d.ns n).map (·.epoch)).getD 0
    d.recordEpoch n (max epoch ((Sparse.find d.hnor.epochs n).getD 0))) d
  let e := match Sparse.find d.hnor.epochs 1 with | some e => e + 1 | none => 0
  let d := d.standOn {}
  let d : Device := { d with
    hnor := { d.hnor with nss := [(1, { blocks := 65536 * d.medium.capacity, attached := if d.twoPorts then 3 else 1, epoch := e })] }
    keys := { d.keys with blobs := [] }
    meters := []
    medium := { d.medium with bands := [] } }
  (d.recordEpoch 1 e).updHost fun h => { h with stamps := [] }

/-- STORE_RECOVER_DONE: the map stands, CSTS.CFS clears for R146's cause, and the controller may become ready (R59, R457, R480). `obs` says
which journal sectors and trailer copies did not read. -/
def storeRecoverDoneEff (o : RebuildObs) (d : Device) : Device :=
  match d.boot.long with
  | .storeRecover option =>
    let d := d.setLong .none
    let d := if option = 0 then d.standOn (d.fullScan o) else d.startOver
    let d := d.ctrls.foldl (fun d c => d.updCtrl c fun k => { k with cfsRebuild := false }) d
    (d.wr HS_STORE_STS_REBUILD 2).log 9 0x7014 [option]
  | _ => d

def execStoreRecoverDone (obs : RebuildObs) (s : State) : Host.Outcome State Fault Refusal := s.upd (storeRecoverDoneEff obs)

end Sys2Proof.Machine
end

