-- ==== Sys2Proof/Machine/RegView.lean ====
section
/-!
DEFINITION. What a read of a register answers: the stored word, with the fields that follow other state laid over it (R11, R27, and the
register tables of every chapter).
-/
namespace Sys2Proof.Machine

/-- Fields of a word replaced. -/
def overlay (w : Word) (fs : List (RF × Nat)) : Word := fs.foldl (fun w p => setField w p.1.lo p.1.n p.2) w

/-- A truth value as a bit. -/
def bitOf (b : Bool) : Nat := if b then 1 else 0

/-- A register address within a lane: the lane and the offset (R24, R26). -/
def laneAt (a : Nat) : Option (Lane × Nat) :=
  if a < 0xF0100000 then none
  else if a < 0xF0200000 then some (.ln0, a - 0xF0100000)
  else if a < 0xF0300000 then some (.ln1, a - 0xF0200000)
  else none

/-- An offset within a lane as a register of one of its sequencers (R26). -/
def seqAt (l : Lane) (o : Nat) : Option (SeqId × Nat) :=
  if o < 0x40000 then none
  else if o < 0x48000 then some (⟨l, false⟩, o - 0x40000)
  else if o < 0x50000 then some (⟨l, true⟩, o - 0x48000)
  else none

/-- A register that reads its reset word and ignores writes: the duplex registers a structure does not use (R211, R216), and the balance
engine and sequencers that LN1 holds in reset (R198, R211). -/
def Device.inert (d : Device) (a : Nat) : Bool :=
  match laneAt a with
  | none => false
  | some (.ln0, o) =>
    decide (0x10010 ≤ o) && decide (o < 0x10160) && !d.duplex &&
      (d.twoLane || !d.wguard1 || o == 0x10010 || o == 0x10018 || decide (0x10100 ≤ o))
  | some (.ln1, o) =>
    d.held1 .ln1 && ((decide (0x30000 ≤ o) && decide (o < 0x3C000)) || (decide (0x40000 ≤ o) && decide (o < 0x50000)))

/-- Seconds or milliseconds that remain of `us` microseconds, in units of `unit`: where they are not whole the spec states no rounding, and
one of the two neighbours stands, free. -/
def Device.remaining (d : Device) (us unit : Nat) : Nat :=
  us / unit + (if us % unit = 0 then 0 else Config.freeValue d.fresh % 2)

/-! ### The sections' derived fields -/

/-- Host section (R57, R94, R160). -/
def Device.hostView (d : Device) (who : Initiator) (a : Nat) (w : Word) : Word :=
  if a = HS_LINK_STS 1 then (if d.twoPorts then w else 0)
  else if a = HS_INFLIGHT then overlay w [(HS_INFLIGHT_COUNT, d.inFlight)]
  else if a = HS_OT_STATUS then overlay w [(HS_OT_STATUS_PINNED, d.otPinned), (HS_OT_STATUS_USED, d.otUsed)]
  else if a = HS_STORE_STS then
    overlay w [(HS_STORE_STS_UNVERIFIED, min 255 d.host.tables.unverified),
      (HS_STORE_STS_FREE, min 65535 (d.freeBands .ln0 + d.freeBands .ln1))]
  else if a = HS_STORE_SEQL then BitVec.ofNat 32 d.host.seq
  else if a = HS_STORE_SEQH then
    BitVec.ofNat 32 (((d.host.seqLatch.find? (·.1 == who)).map (·.2)).getD (d.host.seq / 2 ^ 32))
  else w

/-- The preamp's assist: 0 off, 1 pre-bias, 2 operate (R233, R241). -/
def Device.assistState (d : Device) (l : Lane) : Nat := if d.gateOpen l then 2 else bitOf (d.wrp l).brReady

/-- A lane's blocks (R179, R196, R210, R217, R241). A register written while the read gate was on reads as it was last written, a tap as it
has adapted (R11, R170, R187). -/
def Device.laneView (d : Device) (l : Lane) (o a : Nat) (w : Word) : Word :=
  let c := d.ch l
  let tap := (decide (0x100 ≤ o) && decide (o < 0x160)) || (decide (0x10100 ≤ o) && decide (o < 0x10160))
  let w := if tap then w else (Sparse.find c.deferred a).getD w
  if a = CH_STATUS l then
    overlay w [(CH_STATUS_BUSY l, bitOf (d.capturing l || c.dec.isSome)),
      (CH_STATUS_RPL l, bitOf ((d.ch (d.stream l)).slots.any fun s => s.captured && decide (2 ≤ s.step))),
      (CH_STATUS_LOADING l, bitOf (c.load.isSome || c.loadHeld.isSome)), (CH_STATUS_DUPLEX l, bitOf d.duplex)]
  else if a = LDPC_CTRL l then overlay w [(LDPC_CTRL_RATE l, d.rd CB_CODE_RATE % 4)]
  else if l = .ln0 ∧ a = DX_STATUS then overlay w [(DX_STATUS_SLOTS, (d.ch .ln0).slots.length)]
  else if l = .ln1 ∧ a = VFY_STATUS then overlay w [(VFY_STATUS_ACTIVE, bitOf d.verifyOn)]
  else if a = WR_STATUS l then
    overlay w [(WR_STATUS_GATE l, bitOf (d.gateOpen l)), (WR_STATUS_INH l, bitOf (d.inhibited l)), (WR_STATUS_ASTATE l, d.assistState l)]
  else if a = WG_INH l then overlay w [(WG_INH_ACTIVE l, bitOf (d.inhibited l))]
  else if a = PA_CTRL l then overlay w [(PA_CTRL_PROFILE l, d.paProfile l)]
  else w

/-- A sequencer's registers (R308, R323, R330). -/
def Device.ecView (d : Device) (q : SeqId) (o : Nat) (w : Word) : Word :=
  let e := d.ec q
  if o = 4 then
    overlay w [(EC_STATUS_TOKEN q, bitOf ((d.lane q.lane).owner == some q.second)), (EC_STATUS_QUEUED q, e.queue.length),
      (EC_STATUS_CPLS q, min 15 e.cpls.length)]
  else if 0x90 ≤ o ∧ o < 0xA0 then BitVec.ofNat 32 ((e.cpls.head?.getD []).getD ((o - 0x90) / 4) 0)
  else if 0x4000 ≤ o then BitVec.ofNat 32 (d.patchWord q ((o - 0x4000) / 4))
  else w

/-- Pages a party's waiting request asks (R346, R353). -/
def Device.poolAsked (d : Device) (p : Party) : Nat := ((d.pool.waiting.find? (·.party == p)).map (·.n)).getD 0

/-- Memory section (R353). -/
def Device.memView (d : Device) (o : Nat) (w : Word) : Word :=
  if 0x40 ≤ o ∧ o < 0x50 then
    let i := (o - 0x40) / 4
    let p := Party.ofIdx i
    overlay w [(MS_POOL_USE_WAIT i, d.poolAsked p), (MS_POOL_USE_USED i, d.poolUsed p)]
  else if o = 0x50 then
    overlay w [(MS_POOL_FREE_SHARED, d.poolSharedFree), (MS_POOL_FREE_FREE, (d.pool.free.map (·.2)).foldl (· + ·) 0)]
  else w

/-- An engine's copy of RG_LOGP (R427, R431). -/
def Device.staged_ (d : Device) (who : Initiator) (i : Nat) : Nat :=
  ((d.logbook.staged.find? (·.1 == (who, i))).map (·.2)).getD 0

/-- Milliseconds left of a lane's calibration grant (R421, R431). -/
def Device.grantLeft (d : Device) (l : Lane) : Nat :=
  match d.calGrantOf l with
  | none => 0
  | some (_, _, start) => d.remaining (start + 1000 * d.rd (RG_CALGNT_MS l.idx) - d.chron.chr) 1000

/-- Regulator section (R392, R401, R431, R456, R463). -/
def Device.regView (d : Device) (who : Initiator) (o : Nat) (w : Word) : Word :=
  if o = 0x10C then overlay w [(RG_CALGNT_MS 0, d.grantLeft .ln0)]
  else if o = 0x110 then overlay w [(RG_CALGNT_MS 1, d.grantLeft .ln1)]
  else if o = 0x200 then overlay w [(RG_LOGSTAT_FIFO, d.logbook.fifo.length)]
  else if 0x240 ≤ o ∧ o ≤ 0x268 then BitVec.ofNat 32 (d.staged_ who ((o - 0x240) / 4))
  else if o = 0x420 then BitVec.ofNat 32 d.chron.chr
  else if o = 0x424 then
    BitVec.ofNat 32 (((d.chron.latchH.find? (·.1 == who)).map (·.2)).getD (d.chron.chr / 2 ^ 32))
  else if o = 0x50C then
    let gone := 1000000 * d.brec.prun + d.boot.probationUs
    overlay w [(RG_BOOTCONF_LEFT, if d.bit RG_BOOTSTAT_PROBATION then d.remaining (1800000000 - gone) 1000000 else 0)]
  else if o = 0x510 then
    overlay w [(RG_CROWN_WAKE, bitOf d.crown.wake), (RG_CROWN_SESSION, bitOf d.crown.session), (RG_CROWN_RATE, d.crown.rateIdx)]
  else w

/-- The bits that never read as stored: write-only ones read 0 (R11). -/
def Row.hidden (r : Row) : Nat := r.wo

/-- What a read of the register at `a` answers `who` (R11, R12, R27): 0 where no register stands. -/
def Device.readReg (d : Device) (who : Initiator) (a : Nat) : Word :=
  match rowAt a with
  | none => 0
  | some r =>
    if d.inert a then resetWord a
    else
      let w := d.word a
      let w := match laneAt a with
        | some (l, o) =>
          (match seqAt l o with
           | some (q, e) => d.ecView q e w
           | none => d.laneView l o a w)
        | none =>
          if a < 0xF0100000 then d.hostView who a w
          else if 0xF0300000 ≤ a ∧ a < 0xF0400000 then d.memView (a - 0xF0300000) w
          else if 0xF0500000 ≤ a ∧ a < 0xF0600000 then BitVec.ofNat 32 (d.cxView (a - 0xF0500000))
          else if 0xF0700000 ≤ a ∧ a < 0xF0800000 then d.regView who (a - 0xF0700000) w
          else w
      w &&& ~~~(BitVec.ofNat 32 r.hidden)

end Sys2Proof.Machine
end

