-- ==== Sys2Proof/Machine/Registers.lean ====
section
/-!
DEFINITION. The commands REGISTER_WRITE and RC_REGISTER_READ: a register access by any initiator (R11 to R13, R27, R28). A register whose
write or read has an effect of its own takes the effect of that effect's row.
-/
namespace Sys2Proof.Machine

/-! ### Storing a written word (R11, R12) -/

/-- A range of a field of the registers at an offset: offset, low bit, width, least, greatest. A write of a value outside is ignored and the
field keeps its value. -/
structure FieldRange where
  off : Nat
  lo : Nat
  n : Nat
  least : Nat
  most : Nat

/-- Ranges of a lane's fields (R169, R170, R180, R182, R258, R269). -/
def laneRanges : List FieldRange :=
  [⟨0x34, 0, 32, 0x60000000, 0xE6666666⟩, ⟨0x40, 16, 8, 4, 20⟩, ⟨0x50, 8, 6, 4, 32⟩, ⟨0x50, 0, 3, 0, 5⟩, ⟨0x68, 0, 6, 1, 40⟩,
   ⟨0x3C018, 16, 8, 1, 255⟩, ⟨0x3C018, 12, 4, 1, 15⟩, ⟨0x3C018, 0, 8, 1, 64⟩, ⟨0x3C020, 8, 5, 0, 20⟩, ⟨0x3C020, 0, 5, 0, 20⟩,
   ⟨0x3C024, 0, 9, 8, 256⟩]

/-- The ranges of the fields of the register at an address. -/
def Device.rangesAt (d : Device) (a : Nat) : List FieldRange :=
  match laneAt a with
  | some (_, o) => laneRanges.filter (·.off == o)
  | none =>
    if a = HS_PULL then [⟨0, 0, 12, 40, 2000⟩]
    else if a = MS_SCRUB then [⟨0, 8, 8, 1, 168⟩, ⟨0, 0, 8, 1, 24⟩]
    else if a = RG_RETIDLE then [⟨0, 0, 22, 0, 3600000⟩]
    else if a = RG_PSLOW then [⟨0, 0, 16, 5400, d.rd CB_SPIN_RPM⟩]
    else if a = SP_PWM then [⟨0, 0, 8, 20, 160⟩]
    else []

/-- The bits of a mask without those of the fields that `v` would take out of their range. -/
def keepOut (v : Word) (mask : Word) (rs : List FieldRange) : Word :=
  rs.foldl (fun m r =>
    let x := getField v r.lo r.n
    if r.least ≤ x ∧ x ≤ r.most then m else setField m r.lo r.n 0) mask

/-- The word a register holds after a write of `v` over `old`: stored bits take the value, W1C bits written 1 clear, the others stay. -/
def mergeWrite (old v stored w1c : Word) : Word := (old &&& ~~~stored &&& ~~~(v &&& w1c)) ||| (v &&& stored)

/-- The merged word of a write at `a` whose stored bits are `mask`. -/
def Device.merged (d : Device) (a : Nat) (old v : Word) (mask : Nat) : Word :=
  match rowAt a with
  | none => old
  | some r => mergeWrite old v (keepOut v (BitVec.ofNat 32 mask) (d.rangesAt a)) (BitVec.ofNat 32 r.w1c)

/-- The plain effect of a write: RW bits stored, W1C bits cleared, every other bit as it was. -/
def Device.plainWrite (d : Device) (a : Nat) (v : Word) : Device :=
  match rowAt a with
  | none => d
  | some r => d.setWord a (d.merged a (d.word a) v r.rw)

/-- A plain write to some of a register's RW bits. -/
def Device.partWrite (d : Device) (a : Nat) (v : Word) (mask : Nat) : Device := d.setWord a (d.merged a (d.word a) v mask)

/-! ### Registers with effects of their own, section by section -/

/-- A cache's registers, `o` from its first (R350, R352, R354). -/
def Device.cacheWrite (d : Device) (c : CacheId) (o : Nat) (v : Word) : Device :=
  if o = 0 then l2EnWriteEff c v d
  else if 0x24 ≤ o ∧ o % 8 = 4 ∧ (o - 0x24) / 8 < c.cores then
    if getField v 0 4 = 0 then d.partWrite (c.base + o) v 0xFFFE0
    else d.postOp c ((o - 0x24) / 8) (getField v 0 4) (getField v 5 11) (getField v 16 4)
  else d.plainWrite (c.base + o) v

/-- Host section. -/
def Device.hostWrite (d : Device) (o : Nat) (v : Word) : Device :=
  if 0x200 ≤ o ∧ o < 0x300 then d.cacheWrite .host (o - 0x200) v else d.plainWrite (0xF0000000 + o) v

/-- Memory section. -/
def Device.memWrite (d : Device) (o : Nat) (v : Word) : Device :=
  if 0x30 ≤ o ∧ o < 0x40 then poolResWriteEff (Party.ofIdx ((o - 0x30) / 4)) v d
  else if 0x400 ≤ o ∧ o < 0x500 then d.cacheWrite (.media .ln0) (o - 0x400) v
  else if 0x500 ≤ o ∧ o < 0x600 then d.cacheWrite (.media .ln1) (o - 0x500) v
  else d.plainWrite (0xF0300000 + o) v

/-- The registers whose writes wait for the sector boundary while the read gate is on (R166, R170, R187). -/
def deferOffset (l : Lane) (o : Nat) : Bool :=
  o == 0x38 || (decide (0x40 ≤ o) && decide (o ≤ 0x50)) || o == 0x60 || (decide (0x100 ≤ o) && decide (o < 0x160)) ||
    (decide (0x200 ≤ o) && decide (o < 0x300)) ||
    (l == .ln0 && (o == 0x10018 || (decide (0x10100 ≤ o) && decide (o < 0x10160))))

/-- A channel register of the list above: written now, or at the boundary; a pending change of comparator selection shows in CAL (R166). -/
def Device.chRegWrite (d : Device) (l : Lane) (a o : Nat) (v : Word) : Device :=
  match rowAt a with
  | none => d
  | some r =>
    if d.capturing l then
      let old := (Sparse.find (d.ch l).deferred a).getD (d.word a)
      let w := d.merged a old v r.rw
      let d := d.updCh l fun c => { c with deferred := c.deferred.filter (·.1 != a) ++ [(a, w)] }
      if 0x200 ≤ o ∧ o < 0x300 ∧ w ≠ d.word a then d.wr (ADC_STATUS_CAL l) 1 else d
    else d.setChReg l a (d.merged a (d.word a) v r.rw)

/-- BE_CTRL, BE_XK, the state registers and the banks (R247, R253, R256, R269); `o` from the section's base. -/
def Device.beWrite (d : Device) (e : BEng) (o : Nat) (v : Word) : Device :=
  let a := e.base + o
  let bank := d.rd (BE_STATUS_BANK e)
  if o = 0x30000 then
    let d := beRunEff e (getField v 0 1 == 1) d
    if getField v 31 1 = 1 then beSwapEff e d else d
  else if o = 0x30010 then
    if (toSigned 32 v.toNat).natAbs ≤ 0x5999999A then d.plainWrite a v else d
  else if 0x30100 ≤ o ∧ o < 0x30180 then (if d.bit (BE_CTRL_RUN e) then d else d.plainWrite a v)
  else if (0x31000 ≤ o ∧ o < 0x31800) ∨ (0x34000 ≤ o ∧ o < 0x38000) then (if bank = 0 then d else d.plainWrite a v)
  else if (0x31800 ≤ o ∧ o < 0x32000) ∨ (0x38000 ≤ o ∧ o < 0x3C000) then (if bank = 1 then d else d.plainWrite a v)
  else d.plainWrite a v

/-- SV_CTRL: EN where it changes, then CAL, then the command (R259, R260, R269). -/
def Device.svCtrlWrite (d : Device) (l : Lane) (v : Word) : Device :=
  let en := getField v 0 1 == 1
  let d := if en = d.bit (SV_CTRL_EN l) then d else svEnEff l en d
  let d := svCalEff l (getField v 1 1 == 1) d
  match getField v 28 3 with
  | 1 => svLoadEff l d
  | 2 => svSeekEff l d
  | 3 => svUnloadEff l d
  | 4 => d.emergencyRetract 4
  | _ => d

/-- The servo's and power-stage link's registers (R259, R266, R269). -/
def Device.svWrite (d : Device) (l : Lane) (a o : Nat) (v : Word) : Device :=
  if o = 0x3C000 then d.svCtrlWrite l v
  else if o = 0x3C008 then svTargetEff l (getField v 28 4) (getField v 0 24) d
  else if o = 0x3C090 then psEnEff l (getField v 0 1 == 1) d
  else if o = 0x3C098 ∧ getField v 31 1 = 1 then psCfgEff l (getField v 16 8) (getField v 0 16) d
  else d.plainWrite a v

/-- A write operation runs on the lane. -/
def Device.laneWrites (d : Device) (l : Lane) : Bool :=
  (laneSeqs l).any fun q => match (d.ec q).op with | none => false | some o => o.writes

/-- The channel's and link's registers (R186, R189, R191, R199, R212, R239). -/
def Device.channelWrite (d : Device) (l : Lane) (a o : Nat) (v : Word) : Device :=
  let act := getField v 31 1 == 1
  if deferOffset l o then d.chRegWrite l a o v
  else if o = 0 then
    let d := d.plainWrite a v
    if act then chStopEff l d else d
  else if o = 0x10 then
    if act then hzselLoadEff l (getField v 16 4) (getField v 0 6) d else (d.plainWrite a v).recheckGate l
  else if o = 0x70 then
    if d.laneWrites l then d
    else if act then stripeStartEff l (getField v 30 1 == 1) (getField v 0 9) d
    else d.plainWrite a v
  else if o = 0x10000 then (if act then retrainEff d else d)
  else if o = 0x10010 then forceWriteEff (getField v 8 2) (d.partWrite a v 6)
  else d.plainWrite a v

/-- The write path's and preamp bridge's registers (R225, R227, R232, R234, R239, R241). -/
def Device.wpathWrite (d : Device) (l : Lane) (a o : Nat) (v : Word) : Device :=
  let act := getField v 31 1 == 1
  if o = 0x20008 then
    if act then wselLoadEff l (getField v 16 4) (getField v 0 6) d else (d.plainWrite a v).recheckGate l
  else if o = 0x2001C then wgInhEff l v d
  else if o = 0x50000 then paEnEff l (getField v 0 1 == 1) d
  else if o = 0x50008 ∧ act = true then paCmdEff l (getField v 30 1 == 1) (getField v 16 7) (getField v 0 16) d
  else (d.plainWrite a v).recheckGate l

/-- EC_CTRL: EN, then RESTART, FLUSH and ABORT (R319, R322, R330). -/
def Device.ecCtrlWrite (d : Device) (q : SeqId) (v : Word) : Device :=
  let d := ecEnEff q (getField v 0 1 == 1) d
  let d := if getField v 30 1 = 1 then ecRestartEff q d else d
  let d := if getField v 29 1 = 1 then ecFlushEff q d else d
  if getField v 31 1 = 1 then ecAbortEff q d else d

/-- The patch RAM window and the traps take writes of the Oprok core alone, with EN 0 and no operation running (R326). The boot ROM runs on
that core. -/
def Device.patchOpen (d : Device) (who : Initiator) (q : SeqId) : Bool :=
  (who == .oprok || who == .bootRom) && !d.bit (EC_CTRL_EN q) && (d.ec q).op.isNone

/-- A sequencer's registers, `o` from its base: none where the write is a bus error (R326, R330). -/
def Device.ecWrite (d : Device) (who : Initiator) (q : SeqId) (a o : Nat) (v : Word) : Option Device :=
  if o = 0 then some (d.ecCtrlWrite q v)
  else if o = 0x80 then some (if getField v 31 1 = 1 then postGoEff q d else d)
  else if 0xC0 ≤ o ∧ o < 0xE0 then
    if d.patchOpen who q then some (d.setWord a (v &&& 0xBFFF7FFF)) else none
  else if 0x4000 ≤ o then
    if d.patchOpen who q then some (d.updEc q fun e => { e with patch := Sparse.ins e.patch ((o - 0x4000) / 4) v.toNat }) else none
  else some (d.plainWrite a v)

/-- A lane's registers. -/
def Device.laneWrite (d : Device) (who : Initiator) (l : Lane) (a o : Nat) (v : Word) : Option Device :=
  match seqAt l o with
  | some (q, e) => d.ecWrite who q a e v
  | none =>
    if o < 0x20000 then some (d.channelWrite l a o v)
    else if o < 0x30000 ∨ 0x50000 ≤ o then some (d.wpathWrite l a o v)
    else if o < 0x3C000 then some (d.beWrite (.lane l) o v)
    else some (d.svWrite l a o v)

/-- Spindle section (R282, R299); SP_PWM only in OFF, SP_SPEED whole or not at all. A pulse's reading is the analogue world's, free. -/
def Device.spindleWrite (d : Device) (o : Nat) (v : Word) : Device :=
  let a := 0xF0400000 + o
  if 0x30000 ≤ o then d.beWrite .spindle o v
  else if o = 0 then
    let en := getField v 0 1 == 1
    let d := (if en = d.bit SP_CTRL_EN then d else spEnEff en d).partWrite a v 2
    match getField v 29 3 with
    | 1 => spStartEff d
    | 2 => spStopEff d
    | 3 => spCoastEff d
    | 4 => spClearEff d
    | _ => d
  else if o = 8 then
    let t := getField v 16 16
    let acc := getField v 0 16
    if 5400 ≤ t ∧ t ≤ 10000 ∧ 10 ≤ acc ∧ acc ≤ 2000 then d.plainWrite a v else d
  else if o = 0x10 then (if d.spin.st = .off then d.plainWrite a v else d)
  else if o = 0x44 ∧ getField v 31 1 = 1 then
    let x := (d.plainWrite a v).takeFree 12
    chopTestEff x.1 x.2
  else d.plainWrite a v

/-- CX_KCMD with GO: LOAD and ERASE by the slot; what GENERATE binds, and whether MAP clears, stands in no register the spec names, so each
is free (R366, R374). -/
def Device.kcmdWrite (d : Device) (v : Word) : Device :=
  let n := getField v 0 10
  match getField v 16 3 with
  | 1 => Device.keyDone 1 n (d.keyLoad n)
  | 2 =>
    let (nsid, d) := d.takeFree 32
    let (epoch, d) := d.takeFree 32
    let (tenant, d) := d.takeFree 32
    Device.keyDone 2 n (d.keyGenerate n nsid epoch tenant)
  | 3 => Device.keyDone 3 n (d.keyErase n)
  | 4 =>
    let (clear, d) := d.takeFree 1
    Device.keyDone 4 n (d.keyMap (d.rd CX_KRSP_ARG) n (clear == 1))
  | _ => d.plainWrite CX_KCMD v

/-- Cipher section (R359, R366, R374). -/
def Device.cipherWrite (d : Device) (who : Initiator) (o : Nat) (v : Word) : Device :=
  let act := getField v 31 1 == 1
  if o = 0 then cxEnWriteEff who v d
  else if o = 0x70 then (if act then cipherPostEff .host [] d else d)
  else if o = 0x130 then (if act then cipherPostEff .security [] d else d)
  else if o = 0x10000 ∧ act = true then d.kcmdWrite v
  else d.plainWrite (0xF0500000 + o) v

/-- The source an engine posts with (R425). -/
def Initiator.logSource : Initiator → Nat
  | .host c => c % 4
  | .media l _ => l.src
  | .servo l _ => l.src
  | .seq q => q.lane.src
  | .regulator => 9
  | _ => 8

/-- An engine's entry posted from its copy of RG_LOGP, with the severity it gives (R427, R431); a rate-limited code is held to its limit
(R481). -/
def Device.postStaged (d : Device) (who : Initiator) : Device :=
  let w0 := d.staged_ who 0
  let code := bitsOf w0 16 16
  let params := (List.range 9).map fun i => d.staged_ who (i + 1)
  if rateLimitedCodes.contains code then d.logRate who.logSource code (params.headD 0) params
  else d.logRaw who.logSource code (bitsOf w0 0 8) 0 params

/-- Regulator section (R379, R413, R420, R421, R427, R431, R456, R463). -/
def Device.regulatorWrite (d : Device) (who : Initiator) (o : Nat) (v : Word) : Device :=
  let a := 0xF0700000 + o
  let act := getField v 31 1 == 1
  if o = 0x34 then thctrlForceEff v d
  else if (o = 0x104 ∨ o = 0x108) ∧ act = true then
    calreqGoEff (if o = 0x104 then .ln0 else .ln1) (getField v 16 4) (getField v 8 4) (getField v 0 6) d
  else if o = 0x10C ∨ o = 0x110 then
    if getField v 30 1 = 1 then calDoneEff (if o = 0x10C then .ln0 else .ln1) d else d
  else if 0x240 ≤ o ∧ o ≤ 0x268 then
    let i := (o - 0x240) / 4
    if i = 10 then (if act then d.postStaged who else d)
    else
      { d with logbook := { d.logbook with
          staged := d.logbook.staged.filter (fun p => p.1 != (who, i)) ++ [((who, i), v.toNat)] } }
  else if o = 0x400 then targetWriteEff v d
  else if o = 0x50C then
    if act then
      let x := d.takeFree 1
      bootConfirmEff (x.1 == 1) x.2
    else d
  else d.plainWrite a v

/-- Calibre registers, written by the boot ROM until the lock (R43, R49). -/
def Device.calibreWrite (d : Device) (who : Initiator) (o : Nat) (v : Word) : Device :=
  let a := 0xF0800000 + o
  if o = 4 then cbLockEff who v d
  else match rowAt a with
    | none => d
    | some r => d.setWord a (mergeWrite (d.word a) v (BitVec.ofNat 32 r.rwl) 0)

/-! ### Accesses (R27, R28) -/

/-- Whether the access is one the fabric takes: an aligned word of the register map (R27). -/
def regAccessOk (a size : Nat) : Bool := decide (size = 4) && decide (a % 4 = 0)

/-- The security section's registers (R15, R28). -/
def inSecurity (a : Nat) : Bool :=
  (decide (0xF0500000 ≤ a) && decide (a < 0xF0700000)) || (decide (0xF0800000 ≤ a) && decide (a < 0xF0900000))

/-- A taken register write: none where it is a bus error. -/
def Device.regWrite (d : Device) (who : Initiator) (a : Nat) (v : Word) : Option Device :=
  if inSecurity a && !d.secMayWrite who (a - 0xF0500000) then none
  else if (rowAt a).isNone || d.inert a then some d
  else match laneAt a with
    | some (l, o) => d.laneWrite who l a o v
    | none =>
      if a < 0xF0100000 then some (d.hostWrite (a - 0xF0000000) v)
      else if a < 0xF0400000 then some (d.memWrite (a - 0xF0300000) v)
      else if a < 0xF0500000 then some (d.spindleWrite (a - 0xF0400000) v)
      else if a < 0xF0600000 then some (d.cipherWrite who (a - 0xF0500000) v)
      else if a < 0xF0700000 then some d
      else if a < 0xF0800000 then some (d.regulatorWrite who (a - 0xF0700000) v)
      else some (d.calibreWrite who (a - 0xF0800000) v)

/-- REGISTER_WRITE: no engine runs to make it before the root PLL has locked, in a held state, or while the sections are power-gated. An
address outside the map, a narrower, wider or unaligned access of a register, and an access R28 refuses are bus errors that change nothing;
an unassigned offset ignores the value. The addresses of memory are other rows' (R27, R28). -/
def registerWriteEff (who : Initiator) (a size : Nat) (v : Word) (d : Device) : Device :=
  if !d.up then d
  else if !d.inMap a then d.emit (.reply none .busError)
  else if !inRegs a then d
  else if !regAccessOk a size then d.emit (.reply none .busError)
  else match d.regWrite who a v with
    | none => d.emit (.reply none .busError)
    | some d => d.emit (.reply none .done)

def execRegisterWrite (who : Initiator) (addr size : Nat) (value : Word) (s : State) : Host.Outcome State Fault Refusal :=
  s.upd (registerWriteEff who addr size value)

/-- What a read does to a register beside answering: RC fields clear (R11), RG_CHRL and HS_STORE_SEQL latch their high words, whose next
read by the same initiator takes them (R160, R392). -/
def Device.readEffect (d : Device) (who : Initiator) (a : Nat) : Device :=
  match rowAt a with
  | none => d
  | some r =>
    let d := if r.rc = 0 then d else d.setWord a (d.word a &&& ~~~(BitVec.ofNat 32 r.rc))
    if a = RG_CHRL then
      { d with chron := { d.chron with
          latchH := d.chron.latchH.filter (·.1 != who) ++ [(who, d.chron.chr / 2 ^ 32 % 2 ^ 32)] } }
    else if a = RG_CHRH then { d with chron := { d.chron with latchH := d.chron.latchH.filter (·.1 != who) } }
    else if a = HS_STORE_SEQH then d.updHost fun h => { h with seqLatch := h.seqLatch.filter (·.1 != who) }
    else if a = RG_CALGNT 0 ∨ a = RG_CALGNT 1 ∨ a = RG_BOOTCONF then { d with fresh := d.fresh + 1 }
    else d

/-- A taken register read. -/
def Device.regRead (d : Device) (who : Initiator) (a : Nat) : Device :=
  if inSecurity a && !d.secMayRead who (a - 0xF0500000) then d.emit (.reply none .busError)
  else if d.inert a then d.emit (.reply none (.data (d.readReg who a).toNat))
  else if who = .jtag ∧ 0xF0500000 ≤ a ∧ a < 0xF0600000 then jtagAccessEff a d
  else if a = HS_STORE_SEQL then storeSeqlEff who d
  else if a = CX_HCPL 1 then cxCplPopEff who false d
  else if a = CX_SCPL 1 then cxCplPopEff who true d
  else match laneAt a with
    | some (l, o) =>
      (match seqAt l o with
       | some (q, 0x9C) => ecCplPopEff q d
       | _ => (d.readEffect who a).emit (.reply none (.data (d.readReg who a).toNat)))
    | none => (d.readEffect who a).emit (.reply none (.data (d.readReg who a).toNat))

/-- RC_REGISTER_READ: a read of a register answers its value, then clears what is read-clear and does what a read of that register does
(R11, R27, R28). -/
def registerReadEff (who : Initiator) (a size : Nat) (d : Device) : Device :=
  if !d.up then d
  else if !d.inMap a then d.emit (.reply none .busError)
  else if !inRegs a then d
  else if !regAccessOk a size then d.emit (.reply none .busError)
  else d.regRead who a

def execRcRegisterRead (who : Initiator) (addr size : Nat) (s : State) : Host.Outcome State Fault Refusal :=
  s.upd (registerReadEff who addr size)

end Sys2Proof.Machine
end

