-- ==== Sys2Proof/Machine/Dispatch.lean ====
section
/-!
DEFINITION. The dispatch: one arm per command, each one direct call of its meaning.
-/
namespace Sys2Proof.Machine

def exec (i : Instr) (s : State) : Host.Outcome State Fault Refusal :=
  match i with
  | .pllLockLoss => Sys2Proof.Machine.execPllLockLoss s
  | .fabricRequest id who urgent point addr acc par => Sys2Proof.Machine.execFabricRequest id who urgent point addr acc par s
  | .arbitrationGrant point => Sys2Proof.Machine.execArbitrationGrant point s
  | .servicePortForcedGrant point => Sys2Proof.Machine.execServicePortForcedGrant point s
  | .fabricResponseTimeout id => Sys2Proof.Machine.execFabricResponseTimeout id s
  | .lateResponseDiscard id => Sys2Proof.Machine.execLateResponseDiscard id s
  | .registerWrite who addr size value => Sys2Proof.Machine.execRegisterWrite who addr size value s
  | .rcRegisterRead who addr size => Sys2Proof.Machine.execRcRegisterRead who addr size s
  | .powerOnReset straps => Sys2Proof.Machine.execPowerOnReset straps s
  | .resetNAssert straps => Sys2Proof.Machine.execResetNAssert straps s
  | .rootPllLock obs => Sys2Proof.Machine.execRootPllLock obs s
  | .oprokCalibreVerdict v => Sys2Proof.Machine.execOprokCalibreVerdict v s
  | .oprokVerdictTimeout => Sys2Proof.Machine.execOprokVerdictTimeout s
  | .cbCtrlLockWrite who value => Sys2Proof.Machine.execCbCtrlLockWrite who value s
  | .dramSectionsLoaded => Sys2Proof.Machine.execDramSectionsLoaded s
  | .sramFillComplete => Sys2Proof.Machine.execSramFillComplete s
  | .dramTrainingComplete res => Sys2Proof.Machine.execDramTrainingComplete res s
  | .dramRegionFilled us => Sys2Proof.Machine.execDramRegionFilled us s
  | .perstAssert port => Sys2Proof.Machine.execPerstAssert port s
  | .perstDeassert port => Sys2Proof.Machine.execPerstDeassert port s
  | .linkTrained port gen width => Sys2Proof.Machine.execLinkTrained port gen width s
  | .linkDown port => Sys2Proof.Machine.execLinkDown port s
  | .configRequest port => Sys2Proof.Machine.execConfigRequest port s
  | .hostReadCompletionTimeout rd => Sys2Proof.Machine.execHostReadCompletionTimeout rd s
  | .poisonedTlp rd => Sys2Proof.Machine.execPoisonedTlp rd s
  | .correctableError port => Sys2Proof.Machine.execCorrectableError port s
  | .l12Entry port => Sys2Proof.Machine.execL12Entry port s
  | .l12Exit port => Sys2Proof.Machine.execL12Exit port s
  | .ccEnSet ctrl crime asq acq => Sys2Proof.Machine.execCcEnSet ctrl crime asq acq s
  | .controllerReady ctrl => Sys2Proof.Machine.execControllerReady ctrl s
  | .ccEnClear ctrl => Sys2Proof.Machine.execCcEnClear ctrl s
  | .controllerResetDrained ctrl => Sys2Proof.Machine.execControllerResetDrained ctrl s
  | .rdyClearTimeout ctrl => Sys2Proof.Machine.execRdyClearTimeout ctrl s
  | .sqTailDoorbell ctrl sq tail => Sys2Proof.Machine.execSqTailDoorbell ctrl sq tail s
  | .commandFetch ctrl sq entry => Sys2Proof.Machine.execCommandFetch ctrl sq entry s
  | .fetchResume => Sys2Proof.Machine.execFetchResume s
  | .coalescingTimeout ctrl cq => Sys2Proof.Machine.execCoalescingTimeout ctrl cq s
  | .createIoSq id qid size cqid pc => Sys2Proof.Machine.execCreateIoSq id qid size cqid pc s
  | .createIoCq id qid size vector pc ien => Sys2Proof.Machine.execCreateIoCq id qid size vector pc ien s
  | .deleteIoSq id qid => Sys2Proof.Machine.execDeleteIoSq id qid s
  | .deleteSqComplete id => Sys2Proof.Machine.execDeleteSqComplete id s
  | .deleteIoCq id qid => Sys2Proof.Machine.execDeleteIoCq id qid s
  | .getLogPage id lid nsid lsp off len => Sys2Proof.Machine.execGetLogPage id lid nsid lsp off len s
  | .identify id cns nsid => Sys2Proof.Machine.execIdentify id cns nsid s
  | .abort id sq cid => Sys2Proof.Machine.execAbort id sq cid s
  | .setFeatures id fid nsid dw11 data table => Sys2Proof.Machine.execSetFeatures id fid nsid dw11 data table s
  | .getFeatures id fid nsid dw11 => Sys2Proof.Machine.execGetFeatures id fid nsid dw11 s
  | .asyncEventRequest id => Sys2Proof.Machine.execAsyncEventRequest id s
  | .namespaceCreate id zoned fmt pit piFirst blocks => Sys2Proof.Machine.execNamespaceCreate id zoned fmt pit piFirst blocks s
  | .namespaceDelete id nsid => Sys2Proof.Machine.execNamespaceDelete id nsid s
  | .namespaceAttach id nsid ctrls => Sys2Proof.Machine.execNamespaceAttach id nsid ctrls s
  | .namespaceDetach id nsid ctrls => Sys2Proof.Machine.execNamespaceDetach id nsid ctrls s
  | .formatNvm id nsid fmt ses pit piFirst => Sys2Proof.Machine.execFormatNvm id nsid fmt ses pit piFirst s
  | .sanitizeCryptoErase id => Sys2Proof.Machine.execSanitizeCryptoErase id s
  | .sanitizeBlockErase id => Sys2Proof.Machine.execSanitizeBlockErase id s
  | .sanitizeOverwrite id passes pattern invert ndas => Sys2Proof.Machine.execSanitizeOverwrite id passes pattern invert ndas s
  | .formatSanitizeStart => Sys2Proof.Machine.execFormatSanitizeStart s
  | .progressRecord done => Sys2Proof.Machine.execProgressRecord done s
  | .eraseOperationComplete ok => Sys2Proof.Machine.execEraseOperationComplete ok s
  | .read id ok => Sys2Proof.Machine.execRead id ok s
  | .verify id ok => Sys2Proof.Machine.execVerify id ok s
  | .write id place => Sys2Proof.Machine.execWrite id place s
  | .writeZeroes id place => Sys2Proof.Machine.execWriteZeroes id place s
  | .datasetManagement id => Sys2Proof.Machine.execDatasetManagement id s
  | .flush id => Sys2Proof.Machine.execFlush id s
  | .flushComplete id => Sys2Proof.Machine.execFlushComplete id s
  | .zoneAppend id place => Sys2Proof.Machine.execZoneAppend id place s
  | .zoneMgmtReceive id => Sys2Proof.Machine.execZoneMgmtReceive id s
  | .zoneReportReady id => Sys2Proof.Machine.execZoneReportReady id s
  | .zoneClose id => Sys2Proof.Machine.execZoneClose id s
  | .zoneFinish id => Sys2Proof.Machine.execZoneFinish id s
  | .zoneOpen id => Sys2Proof.Machine.execZoneOpen id s
  | .zoneReset id => Sys2Proof.Machine.execZoneReset id s
  | .zoneOffline id => Sys2Proof.Machine.execZoneOffline id s
  | .reservationRegister id => Sys2Proof.Machine.execReservationRegister id s
  | .reservationReport id => Sys2Proof.Machine.execReservationReport id s
  | .reservationAcquire id => Sys2Proof.Machine.execReservationAcquire id s
  | .reservationRelease id => Sys2Proof.Machine.execReservationRelease id s
  | .miReadDataStructure typ => Sys2Proof.Machine.execMiReadDataStructure typ s
  | .miSubsystemHealthPoll => Sys2Proof.Machine.execMiSubsystemHealthPoll s
  | .miControllerHealthPoll => Sys2Proof.Machine.execMiControllerHealthPoll s
  | .miConfigGet => Sys2Proof.Machine.execMiConfigGet s
  | .miConfigSet khz => Sys2Proof.Machine.execMiConfigSet khz s
  | .miTunnelIdentify ctrl cns nsid => Sys2Proof.Machine.execMiTunnelIdentify ctrl cns nsid s
  | .miTunnelGetLogPage ctrl lid nsid lsp off len => Sys2Proof.Machine.execMiTunnelGetLogPage ctrl lid nsid lsp off len s
  | .miTunnelGetFeatures ctrl fid nsid dw11 => Sys2Proof.Machine.execMiTunnelGetFeatures ctrl fid nsid dw11 s
  | .miBasicManagement => Sys2Proof.Machine.execMiBasicManagement s
  | .miUnsupportedRequest opcode => Sys2Proof.Machine.execMiUnsupportedRequest opcode s
  | .miForcePowerState target reserved limit => Sys2Proof.Machine.execMiForcePowerState target reserved limit s
  | .forceDrainExpire => Sys2Proof.Machine.execForceDrainExpire s
  | .apstIdleTimeout ctrl => Sys2Proof.Machine.execApstIdleTimeout ctrl s
  | .apstTickBoundaryStep => Sys2Proof.Machine.execApstTickBoundaryStep s
  | .tempThresholdEval => Sys2Proof.Machine.execTempThresholdEval s
  | .pullPoint id unit resv => Sys2Proof.Machine.execPullPoint id unit resv s
  | .pullComplete id unit data => Sys2Proof.Machine.execPullComplete id unit data s
  | .pullMissed id unit => Sys2Proof.Machine.execPullMissed id unit s
  | .forwardCopy id wid unit => Sys2Proof.Machine.execForwardCopy id wid unit s
  | .pageUnpin id page => Sys2Proof.Machine.execPageUnpin id page s
  | .forwardReread id => Sys2Proof.Machine.execForwardReread id s
  | .unitDurable id unit => Sys2Proof.Machine.execUnitDurable id unit s
  | .journalFlushTimer => Sys2Proof.Machine.execJournalFlushTimer s
  | .journalSectorCommitted => Sys2Proof.Machine.execJournalSectorCommitted s
  | .checkpointStart => Sys2Proof.Machine.execCheckpointStart s
  | .checkpointComplete => Sys2Proof.Machine.execCheckpointComplete s
  | .mapRebuild obs => Sys2Proof.Machine.execMapRebuild obs s
  | .rebuildComplete => Sys2Proof.Machine.execRebuildComplete s
  | .chunkPageLoad nsid page => Sys2Proof.Machine.execChunkPageLoad nsid page s
  | .bandVerify band obs => Sys2Proof.Machine.execBandVerify band obs s
  | .gcMove l place => Sys2Proof.Machine.execGcMove l place s
  | .moveDurable band => Sys2Proof.Machine.execMoveDurable band s
  | .hsStoreSeqlRead who => Sys2Proof.Machine.execHsStoreSeqlRead who s
  | .readGateOpen l k deskew => Sys2Proof.Machine.execReadGateOpen l k deskew s
  | .sectorCaptureComplete l o => Sys2Proof.Machine.execSectorCaptureComplete l o s
  | .ldpcAttemptComplete l o => Sys2Proof.Machine.execLdpcAttemptComplete l o s
  | .stripeSolveComplete l band group bad parity => Sys2Proof.Machine.execStripeSolveComplete l band group bad parity s
  | .stripeStart l mode data => Sys2Proof.Machine.execStripeStart l mode data s
  | .chStop l => Sys2Proof.Machine.execChStop l s
  | .hzselLoad l head zone => Sys2Proof.Machine.execHzselLoad l head zone s
  | .adaptationEntryFetched l => Sys2Proof.Machine.execAdaptationEntryFetched l s
  | .sectorBoundary l => Sys2Proof.Machine.execSectorBoundary l s
  | .offsetAsymStep l => Sys2Proof.Machine.execOffsetAsymStep l s
  | .afeTempCorrection l bias boost pole => Sys2Proof.Machine.execAfeTempCorrection l bias boost pole s
  | .counterFlush l fail => Sys2Proof.Machine.execCounterFlush l fail s
  | .eltikWordReceive l parity => Sys2Proof.Machine.execEltikWordReceive l parity s
  | .eltikHeartbeat l => Sys2Proof.Machine.execEltikHeartbeat l s
  | .eltikLinkDown parity => Sys2Proof.Machine.execEltikLinkDown parity s
  | .elkRetrain l => Sys2Proof.Machine.execElkRetrain l s
  | .eltikTrainComplete => Sys2Proof.Machine.execEltikTrainComplete s
  | .eltikRetrainTimeout => Sys2Proof.Machine.execEltikRetrainTimeout s
  | .dxForceWrite value => Sys2Proof.Machine.execDxForceWrite value s
  | .verifyVerdict q k conv iter sealOk spareFails => Sys2Proof.Machine.execVerifyVerdict q k conv iter sealOk spareFails s
  | .verdictOverdue q k => Sys2Proof.Machine.execVerdictOverdue q k s
  | .writeSlotStart l k ref sens accParity => Sys2Proof.Machine.execWriteSlotStart l k ref sens accParity s
  | .writeRequestUrgent l resv tag => Sys2Proof.Machine.execWriteRequestUrgent l resv tag s
  | .sectorWriteComplete l => Sys2Proof.Machine.execSectorWriteComplete l s
  | .shockInput second active => Sys2Proof.Machine.execShockInput second active s
  | .shockInhibitRelease => Sys2Proof.Machine.execShockInhibitRelease s
  | .pesInhibitRelease l => Sys2Proof.Machine.execPesInhibitRelease l s
  | .wgInhWrite l value => Sys2Proof.Machine.execWgInhWrite l value s
  | .preampWriteFrame l back => Sys2Proof.Machine.execPreampWriteFrame l back s
  | .preampReadFrame l data => Sys2Proof.Machine.execPreampReadFrame l data s
  | .preampFaultPoll l data => Sys2Proof.Machine.execPreampFaultPoll l data s
  | .preampLinkRetry l data => Sys2Proof.Machine.execPreampLinkRetry l data s
  | .paCtrlEnWrite l en => Sys2Proof.Machine.execPaCtrlEnWrite l en s
  | .paCmdGo l read addr data => Sys2Proof.Machine.execPaCmdGo l read addr data s
  | .wselLoad l head zone => Sys2Proof.Machine.execWselLoad l head zone s
  | .writeEntryFetched l => Sys2Proof.Machine.execWriteEntryFetched l s
  | .bridgeReady l => Sys2Proof.Machine.execBridgeReady l s
  | .neighbourCheck l band weak lost spareFull => Sys2Proof.Machine.execNeighbourCheck l band weak lost spareFull s
  | .writeCalibration l means => Sys2Proof.Machine.execWriteCalibration l means s
  | .servoWedge l w b interval => Sys2Proof.Machine.execServoWedge l w b interval s
  | .beSampleLateStart l => Sys2Proof.Machine.execBeSampleLateStart l s
  | .beNop e bad => Sys2Proof.Machine.execBeNop e bad s
  | .beLda e bad => Sys2Proof.Machine.execBeLda e bad s
  | .beMac e bad => Sys2Proof.Machine.execBeMac e bad s
  | .beMsu e bad => Sys2Proof.Machine.execBeMsu e bad s
  | .beRnd e bad => Sys2Proof.Machine.execBeRnd e bad s
  | .beAdd e bad => Sys2Proof.Machine.execBeAdd e bad s
  | .beSub e bad => Sys2Proof.Machine.execBeSub e bad s
  | .beMov e bad => Sys2Proof.Machine.execBeMov e bad s
  | .beMul e bad => Sys2Proof.Machine.execBeMul e bad s
  | .beLim e bad => Sys2Proof.Machine.execBeLim e bad s
  | .beSel e bad => Sys2Proof.Machine.execBeSel e bad s
  | .beIn e bad => Sys2Proof.Machine.execBeIn e bad s
  | .beOut e bad => Sys2Proof.Machine.execBeOut e bad s
  | .beXff e bad => Sys2Proof.Machine.execBeXff e bad s
  | .beInt e bad => Sys2Proof.Machine.execBeInt e bad s
  | .beBiq e bad => Sys2Proof.Machine.execBeBiq e bad s
  | .beEnd e bad => Sys2Proof.Machine.execBeEnd e bad s
  | .beSwap e => Sys2Proof.Machine.execBeSwap e s
  | .swapCheckDone e badParity => Sys2Proof.Machine.execSwapCheckDone e badParity s
  | .beRunWrite e run => Sys2Proof.Machine.execBeRunWrite e run s
  | .xoutReceive l => Sys2Proof.Machine.execXoutReceive l s
  | .xinStale l => Sys2Proof.Machine.execXinStale l s
  | .svCmdLoad l => Sys2Proof.Machine.execSvCmdLoad l s
  | .svCmdSeek l => Sys2Proof.Machine.execSvCmdSeek l s
  | .svCmdUnload l => Sys2Proof.Machine.execSvCmdUnload l s
  | .svCmdRetract l => Sys2Proof.Machine.execSvCmdRetract l s
  | .svEnWrite l en => Sys2Proof.Machine.execSvEnWrite l en s
  | .svCalWrite l cal => Sys2Proof.Machine.execSvCalWrite l cal s
  | .loadAcquired l => Sys2Proof.Machine.execLoadAcquired l s
  | .loadTimeout l => Sys2Proof.Machine.execLoadTimeout l s
  | .servoLost l => Sys2Proof.Machine.execServoLost l s
  | .seekEnd l => Sys2Proof.Machine.execSeekEnd l s
  | .settleComplete l => Sys2Proof.Machine.execSettleComplete l s
  | .settleTimeout l => Sys2Proof.Machine.execSettleTimeout l s
  | .recoverReacquired l => Sys2Proof.Machine.execRecoverReacquired l s
  | .recoverTimeout l => Sys2Proof.Machine.execRecoverTimeout l s
  | .unloadTimeout l => Sys2Proof.Machine.execUnloadTimeout l s
  | .unloadStopped l => Sys2Proof.Machine.execUnloadStopped l s
  | .psReturnFrame l word => Sys2Proof.Machine.execPsReturnFrame l word s
  | .psKeepalive l => Sys2Proof.Machine.execPsKeepalive l s
  | .psCfgGo l addr data => Sys2Proof.Machine.execPsCfgGo l addr data s
  | .psCtrlEnWrite l en => Sys2Proof.Machine.execPsCtrlEnWrite l en s
  | .pwmValley u v w mrpm => Sys2Proof.Machine.execPwmValley u v w mrpm s
  | .pwmPeak => Sys2Proof.Machine.execPwmPeak s
  | .busConversion volt curr => Sys2Proof.Machine.execBusConversion volt curr s
  | .overvoltageFault => Sys2Proof.Machine.execOvervoltageFault s
  | .regenStop => Sys2Proof.Machine.execRegenStop s
  | .regenResume => Sys2Proof.Machine.execRegenResume s
  | .chopperOn => Sys2Proof.Machine.execChopperOn s
  | .chopperOff => Sys2Proof.Machine.execChopperOff s
  | .chopperCurrentCheck => Sys2Proof.Machine.execChopperCurrentCheck s
  | .chopperVoltageCheck => Sys2Proof.Machine.execChopperVoltageCheck s
  | .powerFailureDetect => Sys2Proof.Machine.execPowerFailureDetect s
  | .holdupEnd => Sys2Proof.Machine.execHoldupEnd s
  | .phaseCurrentFault => Sys2Proof.Machine.execPhaseCurrentFault s
  | .busCurrentFault => Sys2Proof.Machine.execBusCurrentFault s
  | .analogueLimitFault ch => Sys2Proof.Machine.execAnalogueLimitFault ch s
  | .conversionTimeout ch => Sys2Proof.Machine.execConversionTimeout ch s
  | .spCmdStart => Sys2Proof.Machine.execSpCmdStart s
  | .spCmdStop => Sys2Proof.Machine.execSpCmdStop s
  | .spCmdCoast => Sys2Proof.Machine.execSpCmdCoast s
  | .spCmdClear => Sys2Proof.Machine.execSpCmdClear s
  | .spEnWrite en => Sys2Proof.Machine.execSpEnWrite en s
  | .spChopTest rise => Sys2Proof.Machine.execSpChopTest rise s
  | .chopperSelfTest rise => Sys2Proof.Machine.execChopperSelfTest rise s
  | .listenEnd o => Sys2Proof.Machine.execListenEnd o s
  | .startAlignmentEnd => Sys2Proof.Machine.execStartAlignmentEnd s
  | .startPolarityEnd pos neg => Sys2Proof.Machine.execStartPolarityEnd pos neg s
  | .startBackwardCheck => Sys2Proof.Machine.execStartBackwardCheck s
  | .startSpeedCheck => Sys2Proof.Machine.execStartSpeedCheck s
  | .startRetryResume => Sys2Proof.Machine.execStartRetryResume s
  | .spinupTimeout => Sys2Proof.Machine.execSpinupTimeout s
  | .catchEnd => Sys2Proof.Machine.execCatchEnd s
  | .atspeedSet => Sys2Proof.Machine.execAtspeedSet s
  | .syncLoss => Sys2Proof.Machine.execSyncLoss s
  | .keAbnormal => Sys2Proof.Machine.execKeAbnormal s
  | .rotorStopped => Sys2Proof.Machine.execRotorStopped s
  | .ecPostGo q => Sys2Proof.Machine.execEcPostGo q s
  | .ecEnWrite q en => Sys2Proof.Machine.execEcEnWrite q en s
  | .ecDispatch q bad => Sys2Proof.Machine.execEcDispatch q bad s
  | .frameEntryFetched q => Sys2Proof.Machine.execFrameEntryFetched q s
  | .ecAbort q => Sys2Proof.Machine.execEcAbort q s
  | .ecRestart q => Sys2Proof.Machine.execEcRestart q s
  | .ecFlush q => Sys2Proof.Machine.execEcFlush q s
  | .ecCplPop q => Sys2Proof.Machine.execEcCplPop q s
  | .ecNop q w err => Sys2Proof.Machine.execEcNop q w err s
  | .ecLdi q w err => Sys2Proof.Machine.execEcLdi q w err s
  | .ecAlu q w err => Sys2Proof.Machine.execEcAlu q w err s
  | .ecAddi q w err => Sys2Proof.Machine.execEcAddi q w err s
  | .ecRdp q w err => Sys2Proof.Machine.execEcRdp q w err s
  | .ecWrp q w err => Sys2Proof.Machine.execEcWrp q w err s
  | .ecWrpi q w err => Sys2Proof.Machine.execEcWrpi q w err s
  | .ecJmp q w err => Sys2Proof.Machine.execEcJmp q w err s
  | .ecBr q w err x => Sys2Proof.Machine.execEcBr q w err x s
  | .ecMwb q w err x => Sys2Proof.Machine.execEcMwb q w err x s
  | .ecCall q w err => Sys2Proof.Machine.execEcCall q w err s
  | .ecRet q w err => Sys2Proof.Machine.execEcRet q w err s
  | .ecWait q w err => Sys2Proof.Machine.execEcWait q w err s
  | .waitEnd q timeout x => Sys2Proof.Machine.execWaitEnd q timeout x s
  | .ecSafe q w err => Sys2Proof.Machine.execEcSafe q w err s
  | .ecEnd q w err => Sys2Proof.Machine.execEcEnd q w err s
  | .stopComplete q => Sys2Proof.Machine.execStopComplete q s
  | .safePointDeadline q => Sys2Proof.Machine.execSafePointDeadline q s
  | .revLimit q => Sys2Proof.Machine.execRevLimit q s
  | .memoryRead req src via addr upset tag => Sys2Proof.Machine.execMemoryRead req src via addr upset tag s
  | .memoryFullWrite req src via addr data parity => Sys2Proof.Machine.execMemoryFullWrite req src via addr data parity s
  | .memoryNarrowWrite req src via addr len data parity upset => Sys2Proof.Machine.execMemoryNarrowWrite req src via addr len data parity upset s
  | .correctedWriteback addr => Sys2Proof.Machine.execCorrectedWriteback addr s
  | .scrubStep dram upset => Sys2Proof.Machine.execScrubStep dram upset s
  | .poolReserveRequest id p n urgent => Sys2Proof.Machine.execPoolReserveRequest id p n urgent s
  | .poolReserveGrant => Sys2Proof.Machine.execPoolReserveGrant s
  | .poolWaitTimeout id => Sys2Proof.Machine.execPoolWaitTimeout id s
  | .poolResWrite p value => Sys2Proof.Machine.execPoolResWrite p value s
  | .readStandbyRefill l => Sys2Proof.Machine.execReadStandbyRefill l s
  | .l2Clean c core => Sys2Proof.Machine.execL2Clean c core s
  | .l2Inval c core => Sys2Proof.Machine.execL2Inval c core s
  | .l2CleanInval c core => Sys2Proof.Machine.execL2CleanInval c core s
  | .l2Zline c core => Sys2Proof.Machine.execL2Zline c core s
  | .l2CleanSetway c core set way => Sys2Proof.Machine.execL2CleanSetway c core set way s
  | .l2InvalSetway c core set way => Sys2Proof.Machine.execL2InvalSetway c core set way s
  | .l2CleanInvalSetway c core set way => Sys2Proof.Machine.execL2CleanInvalSetway c core set way s
  | .l2CleanInvalAll c core => Sys2Proof.Machine.execL2CleanInvalAll c core s
  | .l2InvalAll c core => Sys2Proof.Machine.execL2InvalAll c core s
  | .l2EnWrite c value => Sys2Proof.Machine.execL2EnWrite c value s
  | .l2FillComplete c addr way => Sys2Proof.Machine.execL2FillComplete c addr way s
  | .l2WayDisable c way => Sys2Proof.Machine.execL2WayDisable c way s
  | .l2WayDisableDone c way => Sys2Proof.Machine.execL2WayDisableDone c way s
  | .l2CeWindowEnd c => Sys2Proof.Machine.execL2CeWindowEnd c s
  | .cipherEntryPost source words => Sys2Proof.Machine.execCipherEntryPost source words s
  | .cipherUrgentPromote l tag => Sys2Proof.Machine.execCipherUrgentPromote l tag s
  | .cipherMessageStart => Sys2Proof.Machine.execCipherMessageStart s
  | .cipherResume => Sys2Proof.Machine.execCipherResume s
  | .cipherMessageComplete stream failAt => Sys2Proof.Machine.execCipherMessageComplete stream failAt s
  | .cxCplPop who security => Sys2Proof.Machine.execCxCplPop who security s
  | .keyLoad who slot => Sys2Proof.Machine.execKeyLoad who slot s
  | .keyGenerate who slot nsid epoch tenant => Sys2Proof.Machine.execKeyGenerate who slot nsid epoch tenant s
  | .keyErase who slot => Sys2Proof.Machine.execKeyErase who slot s
  | .keyMap who slot clear => Sys2Proof.Machine.execKeyMap who slot clear s
  | .keyGenerationDrained slot => Sys2Proof.Machine.execKeyGenerationDrained slot s
  | .keyEraseDrained slot => Sys2Proof.Machine.execKeyEraseDrained slot s
  | .keyDrainTimeout slot => Sys2Proof.Machine.execKeyDrainTimeout slot s
  | .keyMailboxRequest who req => Sys2Proof.Machine.execKeyMailboxRequest who req s
  | .cxCtrlEnWrite who value => Sys2Proof.Machine.execCxCtrlEnWrite who value s
  | .jtagSecurityAccess addr => Sys2Proof.Machine.execJtagSecurityAccess addr s
  | .pmodeTargetWrite value => Sys2Proof.Machine.execPmodeTargetWrite value s
  | .pmTransitionBegin => Sys2Proof.Machine.execPmTransitionBegin s
  | .pmRequestTimeout secAck => Sys2Proof.Machine.execPmRequestTimeout secAck s
  | .pmStageEnd => Sys2Proof.Machine.execPmStageEnd s
  | .forcedQuiesceTimeout stopped => Sys2Proof.Machine.execForcedQuiesceTimeout stopped s
  | .retainIdleExpire => Sys2Proof.Machine.execRetainIdleExpire s
  | .retainEntry => Sys2Proof.Machine.execRetainEntry s
  | .retainSealDone parities => Sys2Proof.Machine.execRetainSealDone parities s
  | .retainTickSwitch => Sys2Proof.Machine.execRetainTickSwitch s
  | .wakePcie port => Sys2Proof.Machine.execWakePcie port s
  | .wakeCrownBreak => Sys2Proof.Machine.execWakeCrownBreak s
  | .wakeCrownPattern => Sys2Proof.Machine.execWakeCrownPattern s
  | .wakeCrownTimeout => Sys2Proof.Machine.execWakeCrownTimeout s
  | .wakeSmbus addr => Sys2Proof.Machine.execWakeSmbus addr s
  | .wakeAonTimer => Sys2Proof.Machine.execWakeAonTimer s
  | .retainExit groups banks regSram digestOk obs => Sys2Proof.Machine.execRetainExit groups banks regSram digestOk obs s
  | .chronometerTick => Sys2Proof.Machine.execChronometerTick s
  | .retainChronometerTick => Sys2Proof.Machine.execRetainChronometerTick s
  | .chronometerNorSave => Sys2Proof.Machine.execChronometerNorSave s
  | .usageMinuteSnapshot => Sys2Proof.Machine.execUsageMinuteSnapshot s
  | .usageSnapshotNorSave => Sys2Proof.Machine.execUsageSnapshotNorSave s
  | .diodeConversion codes => Sys2Proof.Machine.execDiodeConversion codes s
  | .diodeFail diode => Sys2Proof.Machine.execDiodeFail diode s
  | .thermistorConversion t code => Sys2Proof.Machine.execThermistorConversion t code s
  | .thermistorOutOfRange t => Sys2Proof.Machine.execThermistorOutOfRange t s
  | .thermistorBackInRange t => Sys2Proof.Machine.execThermistorBackInRange t s
  | .supplyConversion ch code => Sys2Proof.Machine.execSupplyConversion ch code s
  | .supplyFailure ch => Sys2Proof.Machine.execSupplyFailure ch s
  | .supplyHigh ch => Sys2Proof.Machine.execSupplyHigh ch s
  | .supplyRecoveryReset straps => Sys2Proof.Machine.execSupplyRecoveryReset straps s
  | .shockStuck input => Sys2Proof.Machine.execShockStuck input s
  | .shockUnmask input => Sys2Proof.Machine.execShockUnmask input s
  | .warningSet => Sys2Proof.Machine.execWarningSet s
  | .warningClear => Sys2Proof.Machine.execWarningClear s
  | .throttleSet => Sys2Proof.Machine.execThrottleSet s
  | .throttleStepRise => Sys2Proof.Machine.execThrottleStepRise s
  | .throttleStepFall => Sys2Proof.Machine.execThrottleStepFall s
  | .throttleClear => Sys2Proof.Machine.execThrottleClear s
  | .thctrlForceWrite value => Sys2Proof.Machine.execThctrlForceWrite value s
  | .thermalShutdown => Sys2Proof.Machine.execThermalShutdown s
  | .thermalAutoRestart straps => Sys2Proof.Machine.execThermalAutoRestart straps s
  | .mediaDutyWindow => Sys2Proof.Machine.execMediaDutyWindow s
  | .dutyCapReached l => Sys2Proof.Machine.execDutyCapReached l s
  | .referenceLadderCheck regB motorB => Sys2Proof.Machine.execReferenceLadderCheck regB motorB s
  | .bandgapTrim error => Sys2Proof.Machine.execBandgapTrim error s
  | .calreqGo l kind head duration => Sys2Proof.Machine.execCalreqGo l kind head duration s
  | .calGrant => Sys2Proof.Machine.execCalGrant s
  | .calDoneWrite l => Sys2Proof.Machine.execCalDoneWrite l s
  | .calGrantExpire l => Sys2Proof.Machine.execCalGrantExpire l s
  | .calWaitOverdue l => Sys2Proof.Machine.execCalWaitOverdue l s
  | .logPost source code params => Sys2Proof.Machine.execLogPost source code params s
  | .logbookProgram fail1 fail2 => Sys2Proof.Machine.execLogbookProgram fail1 fail2 s
  | .logbookFlushTimer => Sys2Proof.Machine.execLogbookFlushTimer s
  | .logbookMirrorCopy => Sys2Proof.Machine.execLogbookMirrorCopy s
  | .smbusClockLowTimeout => Sys2Proof.Machine.execSmbusClockLowTimeout s
  | .aonClockMissing => Sys2Proof.Machine.execAonClockMissing s
  | .crownFrameReceive bytes stopOk => Sys2Proof.Machine.execCrownFrameReceive bytes stopOk s
  | .crownInterbyteTimeout => Sys2Proof.Machine.execCrownInterbyteTimeout s
  | .crownAckReceive seq straps => Sys2Proof.Machine.execCrownAckReceive seq straps s
  | .crownNakReceive seq => Sys2Proof.Machine.execCrownNakReceive seq s
  | .crownRetransmitTimeout => Sys2Proof.Machine.execCrownRetransmitTimeout s
  | .baudRevertTimeout => Sys2Proof.Machine.execBaudRevertTimeout s
  | .crownWakeTimeout => Sys2Proof.Machine.execCrownWakeTimeout s
  | .solindHello => Sys2Proof.Machine.execSolindHello s
  | .solindSetBaud rate => Sys2Proof.Machine.execSolindSetBaud rate s
  | .solindSetTime ms => Sys2Proof.Machine.execSolindSetTime ms s
  | .solindStatus => Sys2Proof.Machine.execSolindStatus s
  | .solindLogRead first count => Sys2Proof.Machine.execSolindLogRead first count s
  | .solindUpdBegin length ident => Sys2Proof.Machine.execSolindUpdBegin length ident s
  | .solindUpdChunk index data norFail => Sys2Proof.Machine.execSolindUpdChunk index data norFail s
  | .solindUpdVerify => Sys2Proof.Machine.execSolindUpdVerify s
  | .updVerifyDone obs => Sys2Proof.Machine.execUpdVerifyDone obs s
  | .solindUpdCommit => Sys2Proof.Machine.execSolindUpdCommit s
  | .updCopyDone norFail => Sys2Proof.Machine.execUpdCopyDone norFail s
  | .solindUpdSchedule epoch window => Sys2Proof.Machine.execSolindUpdSchedule epoch window s
  | .solindUpdCancel => Sys2Proof.Machine.execSolindUpdCancel s
  | .solindUpdStatus => Sys2Proof.Machine.execSolindUpdStatus s
  | .solindCalChunk offset length data => Sys2Proof.Machine.execSolindCalChunk offset length data s
  | .solindCalCommit copy verdict norFail => Sys2Proof.Machine.execSolindCalCommit copy verdict norFail s
  | .solindCalRead copy offset length => Sys2Proof.Machine.execSolindCalRead copy offset length s
  | .solindKeyRevoke message signer signature => Sys2Proof.Machine.execSolindKeyRevoke message signer signature s
  | .solindStoreRecover option => Sys2Proof.Machine.execSolindStoreRecover option s
  | .storeRecoverDone obs => Sys2Proof.Machine.execStoreRecoverDone obs s
  | .solindReset => Sys2Proof.Machine.execSolindReset s
  | .actSyncEdge => Sys2Proof.Machine.execActSyncEdge s
  | .activationDrainDone obs patch => Sys2Proof.Machine.execActivationDrainDone obs patch s
  | .activationDrainTimeout => Sys2Proof.Machine.execActivationDrainTimeout s
  | .activationSwitchDone => Sys2Proof.Machine.execActivationSwitchDone s
  | .activationWindowExpire => Sys2Proof.Machine.execActivationWindowExpire s
  | .probationSaveTimer => Sys2Proof.Machine.execProbationSaveTimer s
  | .probationTimeout straps => Sys2Proof.Machine.execProbationTimeout straps s
  | .bootconfConfirm fuseOk => Sys2Proof.Machine.execBootconfConfirm fuseOk s
  | .suppliesRemoved => Sys2Proof.Machine.execSuppliesRemoved s
  | .l2OperationComplete c => Sys2Proof.Machine.execL2OperationComplete c s
  | .svTargetWrite l head track => Sys2Proof.Machine.execSvTargetWrite l head track s

end Sys2Proof.Machine
end

