-- ==== Sys2Proof/Machine/Flags.lean ====
section
/-!
DEFINITION. The interrupt flags: every interrupt register with its enable register, and the lines they drive (R57, R94, R186, R217, R241, R269,
R302, R330, R353, R354, R374, R431).
-/
namespace Sys2Proof.Machine

/-- A block that has an interrupt register. -/
inductive IntBlock where
  | channel (l : Lane)
  | duplex
  | write (l : Lane)
  | balance (e : BEng)
  | servo (l : Lane)
  | spindle
  | sequencer (q : SeqId)
  | memory
  | hostL2
  | mediaL2 (l : Lane)
  | cipher
  | regulator
  deriving DecidableEq, Repr

/-- The block's interrupt register. -/
def IntBlock.int : IntBlock → Nat
  | .channel l => CH_INT l
  | .duplex => DX_INT
  | .write l => WR_INT l
  | .balance e => BE_INT e
  | .servo l => SV_INT l
  | .spindle => SP_INT
  | .sequencer q => EC_INT q
  | .memory => MS_INT
  | .hostL2 => HS_L2_INT
  | .mediaL2 l => MS_ML2_INT l
  | .cipher => CX_INT
  | .regulator => RG_INT

/-- The block's interrupt enable register. -/
def IntBlock.inten : IntBlock → Nat
  | .channel l => CH_INTEN l
  | .duplex => DX_INTEN
  | .write l => WR_INTEN l
  | .balance e => BE_INTEN e
  | .servo l => SV_INTEN l
  | .spindle => SP_INTEN
  | .sequencer q => EC_INTEN q
  | .memory => MS_INTEN
  | .hostL2 => HS_L2_INTEN
  | .mediaL2 l => MS_ML2_INTEN l
  | .cipher => CX_INTEN
  | .regulator => RG_INTEN

/-- The bits that are set and enabled. -/
def Device.pendingInts (d : Device) (b : IntBlock) : Word := d.word b.int &&& d.word b.inten

/-- The block interrupts: some bit is set in both registers. -/
def Device.interrupts (d : Device) (b : IntBlock) : Bool := d.pendingInts b != 0

end Sys2Proof.Machine
end

