-- ==== Sys2Proof/Safety.lean ====
section
/-!
DEFINITION. What counts as a safe run, in the terms the claims use: the canonical forms that make equal contents equal data, the write gate's
rule (R225, R234), and runs that do not stop.
-/
namespace Sys2Proof.Machine

/-- The register file in canonical form: addresses rising, and no register listed that holds its reset word. -/
def Device.regsOk (d : Device) : Bool := Sparse.ok resetWord d.regs

/-- Memory in canonical form: addresses and page numbers rising, and nothing listed that equals what an unlisted place reads as. -/
def Memory.wf (m : Mem) : Bool :=
  Sparse.ok (fun _ => (0 : BitVec 8)) m.bytes && Sparse.ok (fun _ => ({} : Page)) m.pages && Sparse.ok (fun _ => (0 : Nat)) m.bad

/-- Both canonical forms of a device. -/
def Device.canon (d : Device) : Prop := d.regsOk = true ∧ Memory.wf d.mem = true

/-- Both canonical forms. -/
def State.canonical (s : State) : Prop := s.dev.canon

/-- A lane's write gate stands open only while nothing inhibits it (R225, R234). -/
def Device.gateSafe (d : Device) (l : Lane) : Prop := d.gateOpen l = true → d.inhibited l = false

/-- A run of `k` steps ends in a state: no command in it faults or is refused. -/
def State.runs (s : State) (k : Nat) : Prop := ∃ t, Host.Core.run Sys2Proof.core k s = .next t

end Sys2Proof.Machine
end

