-- ==== Sys2Proof/Certificates/Slice0/Obligations.lean ====
section
/-!
DEFINITION. The statements for the provers. Every one is about the machine over all its states; a command's statement gives the next state it answers
(`Gives`), under conditions on the state and the operands alone, so that it says where the command completes, what it leaves, and what it leaves alone.
-/
open Sys2Proof Sys2Proof.Machine

namespace Sys2Proof.Machine

/-- The command, carried out at a state, answers the next state whose waiting commands are the same and whose device is `e`: what `e` does not change of
the device is unchanged (the frame: registers, memory, every other part). -/
def Gives (i : Instr) (s : State) (e : Device) : Prop := exec i s = .next { s with dev := e }

/-- The command answers a next state with the same waiting commands and a device that meets `P`. -/
def GivesThat (i : Instr) (s : State) (P : Device → Prop) : Prop := ∃ e, Gives i s e ∧ P e

/-- The registers outside `rs` and every byte of memory read as before. -/
def Untouched (rs : List Nat) (d e : Device) : Prop := (∀ a, a ∉ rs → e.word a = d.word a) ∧ ∀ a, e.memByte a = d.memByte a

end Sys2Proof.Machine

/-! ### The machine -/

/-- A command at the front of the queue is carried out on the state with the queue's rest, and its outcome is the step's. -/
def Obligations.StepCarriesOutFrontCommand : Prop :=
  ∀ (c : Instr) (s : State), step { s with pending := c :: s.pending } = exec c s

/-- On an empty queue the block idles: the next state is the state. The model's choice (notes/assumptions/2.md).
No command adds to the waiting commands, takes one of them or changes their order: only the step takes the front one.
`k` steps that do not stop take exactly the first `k` commands off the queue. -/
def Obligations.QueueOrderAndIdling : Prop :=
  (∀ s : State, s.pending = [] → step s = .next s) ∧
  (∀ (i : Instr) (s t : State), exec i s = .next t → t.pending = s.pending) ∧
  (∀ (k : Nat) (s t : State), Host.Core.run core k s = .next t → t.pending = s.pending.drop k)

/-- The registers and the memory of the state after reset are in canonical form. -/
def Obligations.ResetIsCanonical : Prop := State.reset.canonical

/-- Every step keeps the canonical form of the registers and of the memory, whatever the command and from whatever state that has it. -/
def Obligations.EveryStepKeepsCanonicalForm : Prop :=
  ∀ s t : State, s.canonical → step s = .next t → t.canonical

namespace Sys2Proof.Machine

/-- The commands whose effect the manual lets reach SRAM or DRAM: memory accesses, cache write-backs, the cipher's and the host's data, the side areas
of pages (R345), the adaptation and counter areas, the fills, and resets. -/
def mayWriteMemory : Instr → Bool
  | .memoryRead .. | .memoryFullWrite .. | .memoryNarrowWrite .. | .correctedWriteback .. | .scrubStep .. | .fabricRequest .. => true
  | .registerWrite .. | .keyGenerate .. | .keyMailboxRequest .. | .cipherMessageComplete .. => true
  | .l2FillComplete .. | .l2OperationComplete .. | .l2WayDisableDone .. => true
  | .sramFillComplete | .dramRegionFilled .. | .retainExit .. => true
  | .powerOnReset .. | .resetNAssert .. | .suppliesRemoved | .supplyRecoveryReset .. | .thermalAutoRestart .. | .probationTimeout .. => true
  | .crownAckReceive .. | .crownFrameReceive .. => true
  | .adaptationEntryFetched .. | .counterFlush .. | .writeCalibration .. | .writeSlotStart .. | .sectorWriteComplete .. => true
  | .pullPoint .. | .pullComplete .. | .forwardCopy .. | .forwardReread .. | .pageUnpin .. | .unitDurable .. | .moveDurable .. => true
  | .journalSectorCommitted | .formatSanitizeStart | .hostReadCompletionTimeout .. | .poisonedTlp .. => true
  | .perstAssert .. | .linkDown .. | .ccEnClear .. | .abort .. | .deleteIoSq .. | .forceDrainExpire => true
  | .read .. | .verify .. | .write .. | .writeZeroes .. | .zoneAppend .. | .flushComplete .. => true
  | .zoneReportReady .. | .zoneClose .. | .zoneFinish .. | .zoneOpen .. | .zoneReset .. | .zoneOffline .. => true
  | .reservationRegister .. | .reservationReport .. | .reservationAcquire .. | .reservationRelease .. => true
  | _ => false

end Sys2Proof.Machine

/-- Every other command leaves the contents of memory as they are: pages, side areas, bytes and check bits; and every byte reads as before while the
partition of SRAM is the same. -/
def Obligations.OnlyStoringCommandsChangeMemory : Prop :=
  ∀ (i : Instr) (s t : State), mayWriteMemory i = false → exec i s = .next t →
    t.dev.mem = s.dev.mem ∧ (t.dev.poolPages = s.dev.poolPages → ∀ a, t.dev.memByte a = s.dev.memByte a)

/-- The fuses change only by the key revocation of the crown port, by confirming a boot, and by the register write that confirms one. -/
def Obligations.OnlyRevocationAndConfirmationChangeFuses : Prop :=
  ∀ (i : Instr) (s t : State), exec i s = .next t →
    (∀ m k g, i ≠ .solindKeyRevoke m k g) → (∀ b, i ≠ .bootconfConfirm b) → (∀ w a n v, i ≠ .registerWrite w a n v) →
    t.dev.otp = s.dev.otp

/-! ### Fabric and register accesses -/

/-- R33: the service port. A point with a request of the four parties and no service request that has waited 16 cycles grants the parties' winner and moves its
pointer; with none of theirs it grants the service request; one that has waited 16 cycles is granted ahead of every other. Neither service grant moves a pointer. -/
def Obligations.ServicePortIsGrantedLastOrAfterSixteenCycles : Prop :=
  (∀ (s : State) (p : ContPoint) (r : FabReq), s.dev.winner p = some r → (∀ v, s.dev.fabric.firstService p = some v → v.waited < 16) →
    GivesThat (.arbitrationGrant p) s fun e =>
      e.fabric.granted = s.dev.fabric.granted ++ [r.id] ∧ e.pointer p = (s.dev.pointer p).next ∧
      (∀ q, q ≠ p → e.pointer q = s.dev.pointer q) ∧ Untouched [] s.dev e) ∧
  (∀ (s : State) (p : ContPoint) (v : FabReq), s.dev.winner p = none → s.dev.fabric.firstService p = some v → v.waited < 16 →
    GivesThat (.arbitrationGrant p) s fun e =>
      e.fabric.granted = s.dev.fabric.granted ++ [v.id] ∧ (∀ q, e.pointer q = s.dev.pointer q) ∧ Untouched [] s.dev e) ∧
  (∀ (s : State) (p : ContPoint) (v : FabReq), s.dev.fabric.firstService p = some v → 16 ≤ v.waited →
    GivesThat (.servicePortForcedGrant p) s fun e =>
      e.fabric.granted = s.dev.fabric.granted ++ [v.id] ∧ (∀ q, e.pointer q = s.dev.pointer q) ∧ Untouched [] s.dev e)

/-- Requests on the fabric: a request in the map waits at its point; one that gets no response in time is completed with a bus error by its port, and the late
response is discarded.
The party whose request a contended point grants: an urgent one before any other, and among equals the first from the pointer in the order LN0,
LN1, host, cipher. -/
def Obligations.FabricRequestsAndArbitration : Prop :=
  (∀ (s : State) (id : Nat) (who : Requester) (u : Bool) (p : ContPoint) (a : Nat) (acc : Access),
    ((∃ t, p = .target t) → s.dev.inMap a = true) →
    Gives (.fabricRequest id who u p a acc none) s
      { s.dev with fabric := { s.dev.fabric with
          waiting := s.dev.fabric.waiting ++ [{ id := id, who := who, urgent := u, point := p, addr := a, acc := acc, waited := 0 }] } }) ∧
  (∀ (s : State) (id : Nat), id ∈ s.dev.fabric.granted →
    GivesThat (.fabricResponseTimeout id) s fun e =>
      e.out = s.dev.out ++ [.reply (some id) .busError] ∧ id ∉ e.fabric.granted ∧ id ∈ e.fabric.timedOut ∧ Untouched [] s.dev e) ∧
  (∀ (s : State) (id : Nat),
    Gives (.lateResponseDiscard id) s
      { s.dev with fabric := { s.dev.fabric with timedOut := s.dev.fabric.timedOut.filter (· != id) } }) ∧
  (∀ (d : Device) (p : ContPoint) (r : FabReq), d.winner p = some r →
    r ∈ d.fabric.waiting ∧ r.point = p ∧
    (r.urgent = false → ∀ q : Party, d.fabric.first p q true = none) ∧
    (∃ k : Nat, k < 4 ∧ ∃ q, (rotation (d.pointer p))[k]? = some q ∧ r.who = .party q ∧ d.fabric.first p q r.urgent = some r ∧
      ∀ j < k, ∀ x, (rotation (d.pointer p))[j]? = some x → d.fabric.first p x r.urgent = none))

/-- R27: register accesses that are not aligned words, and accesses outside the map, end in a bus error with the device otherwise as it was; an unassigned offset of
a block reads 0, ignores what is written and completes, for an initiator that R28 lets reach the block. -/
def Obligations.RegisterAccessesAreAlignedWordsInTheMap : Prop :=
  (∀ (s : State) (who : Initiator) (a size : Nat) (v : Word), s.dev.up = true → inRegs a = true → size ≠ 4 ∨ a % 4 ≠ 0 →
    Gives (.registerWrite who a size v) s (s.dev.emit (.reply none .busError))) ∧
  (∀ (s : State) (who : Initiator) (a size : Nat), s.dev.up = true → inRegs a = true → size ≠ 4 ∨ a % 4 ≠ 0 →
    Gives (.rcRegisterRead who a size) s (s.dev.emit (.reply none .busError))) ∧
  (∀ (s : State) (who : Initiator) (a size : Nat) (v : Word), s.dev.up = true → s.dev.inMap a = false →
    Gives (.registerWrite who a size v) s (s.dev.emit (.reply none .busError))) ∧
  (∀ (s : State) (who : Initiator) (a size : Nat), s.dev.up = true → s.dev.inMap a = false →
    Gives (.rcRegisterRead who a size) s (s.dev.emit (.reply none .busError))) ∧
  (∀ (s : State) (id : Nat) (who : Requester) (u : Bool) (t : Target) (a : Nat) (acc : Access), s.dev.inMap a = false →
    Gives (.fabricRequest id who u (.target t) a acc none) s (s.dev.emit (.reply (some id) .busError))) ∧
  (∀ (s : State) (who : Initiator) (a : Nat) (v : Word), s.dev.up = true → inRegs a = true → a % 4 = 0 → rowAt a = none →
    (inSecurity a = true → s.dev.secMayWrite who (a - 0xF0500000) = true) →
    Gives (.registerWrite who a 4 v) s (s.dev.emit (.reply none .done))) ∧
  (∀ (s : State) (who : Initiator) (a : Nat), s.dev.up = true → inRegs a = true → a % 4 = 0 → rowAt a = none →
    (inSecurity a = true → who ≠ .jtag ∧ s.dev.secMayRead who (a - 0xF0500000) = true) →
    Gives (.rcRegisterRead who a 4) s (s.dev.emit (.reply none (.data 0))))

/-- The access codes at work, on one register of each: RW stores, W1C clears what is written 1, RO ignores, RC answers and then clears. -/
def Obligations.AccessCodesAct : Prop :=
  (∀ (s : State) (who : Initiator) (v : Word), s.dev.up = true →
    Gives (.registerWrite who RG_AONTMR 4 v) s ((s.dev.setWord RG_AONTMR (s.dev.word RG_AONTMR &&& ~~~0xFFFFFF ||| v &&& 0xFFFFFF)).emit (.reply none .done))) ∧
  (∀ (s : State) (who : Initiator) (v : Word), s.dev.up = true →
    Gives (.registerWrite who RG_INT 4 v) s ((s.dev.setWord RG_INT (s.dev.word RG_INT &&& ~~~(v &&& 0xFF))).emit (.reply none .done))) ∧
  (∀ (s : State) (who : Initiator) (v : Word), s.dev.up = true →
    GivesThat (.registerWrite who RG_RSTCAUSE 4 v) s fun e => (∀ a, e.word a = s.dev.word a) ∧ e.out = s.dev.out ++ [.reply none .done]) ∧
  (∀ (s : State) (who : Initiator), s.dev.up = true →
    GivesThat (.rcRegisterRead who RG_LOGSTAT 4) s fun e =>
      e.out = s.dev.out ++ [.reply none (.data (s.dev.readReg who RG_LOGSTAT).toNat)] ∧ e.rd RG_LOGSTAT_DROP = 0 ∧ Untouched [RG_LOGSTAT] s.dev e)

/-! ### Reset and boot -/

namespace Sys2Proof.Machine

/-- A device after a device reset: every register but the two that RG_RSTCAUSE's reset entry may change holds its reset word, memory is blank, the lanes, the
spindle's engines and the host's volatile part start again, and fuses, stored keys and medium are what they were. -/
def StartedAgain (d e : Device) (cause : Nat) (st : Straps) : Prop :=
  e.boot.phase = .awaitLock ∧ e.boot.straps = st ∧ (∀ a, a ≠ RG_RSTCAUSE → e.word a = resetWord a) ∧
  e.rd RG_RSTCAUSE_CAUSE = d.aon.heldCause.getD cause % 2 ^ RG_RSTCAUSE_CAUSE.n ∧ e.aon.boots = d.aon.boots + 1 ∧ e.aon.heldCause = none ∧
  e.aon.off = false ∧ e.mem = {} ∧ e.lane0 = {} ∧ e.lane1 = {} ∧ e.elk = {} ∧ e.host = {} ∧ e.cipher = {} ∧ e.pool = {} ∧ e.fabric = {} ∧
  e.power = {} ∧ e.otp = d.otp ∧ e.keys = d.keys ∧ e.medium = d.medium ∧ e.logbook.held = d.logbook.held ∧
  e.logbook.fifo.map (·.code) = [0x5008]

end Sys2Proof.Machine

/-- Power-on and RESET_N restart the device, with the cause a held state left, or their own; with SCAN_EN high they stop. -/
def Obligations.ResetsStartTheDeviceAgain : Prop :=
  (∀ (s : State) (st : Straps), st.scan = false → GivesThat (.powerOnReset st) s fun e => StartedAgain s.dev e 0 st ∧ e.chron.lost = true) ∧
  (∀ (s : State) (st : Straps), st.scan = false →
    GivesThat (.resetNAssert st) s fun e => StartedAgain s.dev e 1 st ∧ e.chron.lost = (s.dev.chron.lost || s.dev.aon.off)) ∧
  (∀ (s : State) (st : Straps), st.scan = true →
    exec (.powerOnReset st) s = .fault .scanTest ∧ exec (.resetNAssert st) s = .fault .scanTest)

/-- What the spec's register tables give for reset, at the state after reset: a sample over the sections, and nothing listed in memory. -/
def Obligations.ResetLeavesSpecifiedValues : Prop :=
  (∀ a, State.reset.dev.word a = resetWord a) ∧ State.reset.dev.mem.bytes = [] ∧ State.reset.dev.mem.pages = [] ∧ State.reset.dev.mem.bad = [] ∧
  State.reset.pending = [] ∧ State.reset.dev.out = [] ∧ State.reset.dev.boot.phase = .awaitLock ∧ State.reset.dev.up = false ∧
  State.reset.dev.spin.st = .off ∧ (∀ l, (State.reset.dev.lane l).sv.st = .off) ∧ State.reset.dev.boot.locked = false ∧
  State.reset.dev.power.retain = .out

/-- The root PLL's lock starts the examination of calibre copy A; each verdict, or its time-out as code 9, moves it on; with both copies bad the device is in
recovery with the calibre locked, CROWN_WAKE asserted and the three entries held. -/
def Obligations.BootExaminesBothCalibreCopies : Prop :=
  (∀ (s : State) (o : BootObs), s.dev.boot.phase = .awaitLock → s.dev.aon.off = false → o.readErrA = false → calHeader s.dev.nor.calA = 0 →
    Gives (.rootPllLock o) s { s.dev with boot := { s.dev.boot with obs := o, resultA := 1, resultB := 1, phase := .verdictA } }) ∧
  (∀ (s : State) (o : BootObs), s.dev.boot.phase = .awaitLock → s.dev.aon.off = false → o.readErrA = true → o.readErrB = false →
    calHeader s.dev.nor.calB = 0 →
    Gives (.rootPllLock o) s { s.dev with boot := { s.dev.boot with obs := o, resultA := 6, resultB := 1, phase := .verdictB } }) ∧
  (∀ (s : State) (v : Verdict), s.dev.boot.phase = .verdictA → s.dev.boot.obs.readErrB = false → calHeader s.dev.nor.calB = 0 →
    Gives (.oprokCalibreVerdict v) s { s.dev with boot := { s.dev.boot with phase := .verdictB, resultA :=
      (let c := calSignature s.dev.nor.calA s.dev.otp v
       if c ≠ 0 then c else calRecordsCode s.dev.nor.calA) } }) ∧
  (∀ s : State, s.dev.boot.phase = .verdictA → s.dev.boot.obs.readErrB = false → calHeader s.dev.nor.calB = 0 →
    Gives .oprokVerdictTimeout s { s.dev with boot := { s.dev.boot with phase := .verdictB, resultA := 9 } }) ∧
  (∀ s : State, s.dev.boot.phase = .verdictB → s.dev.boot.resultA ≠ 0 →
    GivesThat .oprokVerdictTimeout s fun e =>
      e.boot.phase = .recovery ∧ e.crown.wake = true ∧ e.rd RG_BOOTSTAT_RECOVERY = 1 ∧ e.rd CB_CTRL_LOCK = 1 ∧ e.rd CB_STATUS_LOCK = 1 ∧
      e.rd CB_STATUS_B_RESULT = 9 ∧
      e.logbook.held = s.dev.logbook.held ++ [(0x7801, [0, s.dev.boot.resultA]), (0x7801, [1, 9]), (0x7806, [s.dev.boot.resultA, 9])])

/-- The slot the boot takes: a pending slot that is good and has boots and Run time left runs on probation; without one the active slot, else the other made
active, else recovery with event 0x7003.
The calibre lock: only the boot ROM's write of LOCK 1 sets it; any other initiator's write, and any write after it, is a bus error. -/
def Obligations.BootTakesItsSlotAndLocks : Prop :=
  (∀ (d : Device) (r : BootRec), d.nor.bootRec = some r → r.stage ≠ 4 → r.pending = none →
    d.bootSlot = ((d.wr RG_UPDSTAT_STAGE r.stage).wr RG_UPDSTAT_CHUNKS d.nor.journal.length).bootActive) ∧
  (∀ (d : Device) (r : BootRec) (k : Nat), d.nor.bootRec = some r → r.stage ≠ 4 → r.pending = some k → r.pboots < 3 → r.prun < 1800 →
    d.slotCode d.boot.obs k = 0 →
    d.bootSlot = (((d.wr RG_UPDSTAT_STAGE r.stage).wr RG_UPDSTAT_CHUNKS d.nor.journal.length).writeRec
      { r with pboots := r.pboots + 1, stage := 7 }).releaseCores k true) ∧
  (∀ (d : Device) (r : BootRec) (k : Nat), d.nor.bootRec = some r → r.stage ≠ 4 → r.pending = some k → 3 ≤ r.pboots →
    d.bootSlot = ((((d.wr RG_UPDSTAT_STAGE r.stage).wr RG_UPDSTAT_CHUNKS d.nor.journal.length).writeRec
      { r with pending := none, stage := 9, flags := r.flags ||| (if k = 0 then 2 else 4) }).log 9 0x700E [0]).bootActive) ∧
  (∀ d : Device, d.slotCode d.boot.obs d.brec.active = 0 → d.bootActive = d.releaseCores d.brec.active false) ∧
  (∀ d : Device, d.slotCode d.boot.obs d.brec.active ≠ 0 → d.slotCode d.boot.obs (1 - d.brec.active) ≠ 0 →
    d.bootActive.boot.phase = .recovery ∧ d.bootActive.crown.wake = true ∧
    d.bootActive.logbook.held = d.logbook.held ++ [(0x7003, [d.slotCode d.boot.obs d.brec.active])]) ∧
  (∀ (d : Device) (k : Nat) (p : Bool), (d.releaseCores k p).boot.phase = .released) ∧
  (∀ (s : State) (who : Initiator) (v : Word), who ≠ .bootRom ∨ s.dev.boot.locked = true →
    Gives (.cbCtrlLockWrite who v) s (s.dev.emit (.reply none .busError))) ∧
  (∀ (s : State) (v : Word), s.dev.boot.locked = false → getField v 0 1 = 1 →
    GivesThat (.cbCtrlLockWrite .bootRom v) s fun e =>
      e.boot.locked = true ∧ e.rd CB_CTRL_LOCK = 1 ∧ e.rd CB_STATUS_LOCK = 1 ∧ e.out = s.dev.out ∧ Untouched [CB_CTRL, CB_STATUS] s.dev e) ∧
  (∀ (s : State) (v : Word), s.dev.boot.locked = false → getField v 0 1 ≠ 1 → Gives (.cbCtrlLockWrite .bootRom v) s s.dev)

/-- Losses of clock and supply: while the device runs, a root PLL loss holds it with cause 2 and asserts the retract pin; removed supplies leave it off,
its chronometer lost. DRAM sections loaded set RG_BOOTSTAT.LOADED once DRAM is ready. -/
def Obligations.ClockLossHoldsAndSupplyLossTurnsOff : Prop :=
  (∀ s : State, s.dev.up = true →
    GivesThat .pllLockLoss s fun e =>
      e.boot.phase = .held ∧ e.up = false ∧ e.aon.heldCause = some 2 ∧ e.power.run = none ∧ e.power.request = none ∧
      (s.dev.retracting = false → e.emret = .low ∧ e.emretCause = some 1) ∧ e.mem = s.dev.mem ∧ e.nor.bootRec = s.dev.nor.bootRec) ∧
  (∀ s : State, GivesThat .suppliesRemoved s fun e =>
    e.aon.off = true ∧ e.aon.boots = s.dev.aon.boots ∧ e.chron.lost = true ∧ e.boot.phase = .awaitLock ∧ e.mem = {} ∧ e.medium = s.dev.medium ∧
    e.otp = s.dev.otp ∧ e.logbook.fifo = []) ∧
  (∀ s : State, s.dev.released = true → s.dev.bit MS_STATUS_DRAMRDY = true → Gives .dramSectionsLoaded s (s.dev.wr RG_BOOTSTAT_LOADED 1)) ∧
  (∀ s : State, s.dev.released = false ∨ s.dev.bit MS_STATUS_DRAMRDY = false → Gives .dramSectionsLoaded s s.dev)

/-! ### Memory and the buffer pool -/

/-- An aligned word written is the word read back, its check bits fresh, and every byte outside it reads as before.
A full word written straight at memory is stored with fresh check bits and acknowledged, changing nothing but that word; one that arrives with a parity
error is stored poisoned; outside open memory it is a bus error.
A narrow write merges its bytes into the word: the bytes written read back, the word's other bytes and all other memory read as before. -/
def Obligations.MemoryWritesStoreAndReadBack : Prop :=
  (∀ (d : Device) (a v : Nat), a % 8 = 0 →
    (d.setMemWord a v).memWord a = v % 2 ^ 64 ∧ (d.setMemWord a v).badBits a = 0 ∧
    (∀ b, b < a ∨ a + 8 ≤ b → (d.setMemWord a v).memByte b = d.memByte b) ∧ ∀ b, (d.setMemWord a v).word b = d.word b) ∧
  (∀ (s : State) (req : Option Nat) (src : MemSrc) (a v : Nat), s.dev.memOpen a = true →
    Gives (.memoryFullWrite req src none a v false) s ((s.dev.setMemWord (alignWord a) (v % 2 ^ 64)).answer req .done)) ∧
  (∀ (s : State) (req : Option Nat) (src : MemSrc) (a v : Nat), s.dev.memOpen a = true →
    GivesThat (.memoryFullWrite req src none a v true) s fun e =>
      e.badBits (alignWord a) = 0xFF ∧ e.rd MS_INT_POISONWR = 1 ∧ e.rd MS_ERRINFO_VALID = 1 ∧
      (s.dev.bit MS_ERRINFO_VALID = false → e.rd MS_ERRINFO_KIND = 4) ∧
      ∀ b, b < alignWord a ∨ alignWord a + 8 ≤ b → e.memByte b = s.dev.memByte b) ∧
  (∀ (s : State) (req : Option Nat) (src : MemSrc) (a v : Nat) (p : Bool), s.dev.memOpen a = false →
    Gives (.memoryFullWrite req src none a v p) s (s.dev.answer req .busError)) ∧
  (∀ (s : State) (req : Option Nat) (src : MemSrc) (a len v : Nat), s.dev.memOpen a = true → s.dev.badBits (alignWord a) = 0 →
    0 < len → a % 8 + len ≤ 8 →
    GivesThat (.memoryNarrowWrite req src none a len v false ⟨0, 0, none⟩) s fun e =>
      (∀ k < len, e.memByte (a + k) = BitVec.ofNat 8 (byteOf v k)) ∧ (∀ b, b < a ∨ a + len ≤ b → e.memByte b = s.dev.memByte b) ∧
      e.badBits (alignWord a) = 0 ∧ ∀ b, e.word b = s.dev.word b)

/-- A read of a good word answers the word and changes nothing else; one flipped data bit of a good word is corrected in the answer, counted, and queued for
its write-back, and the write-back stores the corrected word.
The scrubber: off it does nothing; on, over a good word, only its address moves on, round to the base at the top. -/
def Obligations.MemoryReadsAndScrubbing : Prop :=
  (∀ (s : State) (req : Option Nat) (src : MemSrc) (a : Nat), s.dev.memOpen a = true → s.dev.badBits (alignWord a) = 0 →
    Gives (.memoryRead req src none a ⟨0, 0, none⟩ .good) s (s.dev.answer req (.data (s.dev.memWord (alignWord a))))) ∧
  (∀ (s : State) (src : MemSrc) (a i : Nat), s.dev.memOpen a = true → s.dev.badBits (alignWord a) = 0 → i < 64 →
    GivesThat (.memoryRead none src none a ⟨2 ^ i, 0, none⟩ .good) s fun e =>
      e.out = s.dev.out ++ [.reply none (.data (s.dev.memWord (alignWord a)))] ∧ e.mem.writeback = s.dev.mem.writeback ++ [alignWord a] ∧
      e.rd MS_INT_CE = 1) ∧
  (∀ (s : State) (a : Nat), alignWord a ∈ s.dev.mem.writeback → s.dev.badBits (alignWord a) = 0 →
    Gives (.correctedWriteback a) s (s.dev.setMemWord (alignWord a) (s.dev.memWord (alignWord a)))) ∧
  (∀ (s : State) (a i : Nat), alignWord a ∈ s.dev.mem.writeback → i < 64 → s.dev.badBits (alignWord a) = eccCols.getD i 0 →
    Gives (.correctedWriteback a) s (s.dev.setMemWord (alignWord a) (s.dev.memWord (alignWord a) ^^^ 2 ^ i))) ∧
  (∀ (s : State) (a : Nat), alignWord a ∉ s.dev.mem.writeback → Gives (.correctedWriteback a) s s.dev) ∧
  (∀ (s : State) (req : Option Nat) (src : MemSrc) (a : Nat) (u : Upset) (t : TagErr), s.dev.memOpen a = false →
    Gives (.memoryRead req src none a u t) s (s.dev.answer req .busError)) ∧
  (∀ (s : State) (dram : Bool) (u : Upset), s.dev.scrubOn = false → Gives (.scrubStep dram u) s s.dev) ∧
  (∀ s : State, s.dev.scrubOn = true → s.dev.memOpen s.dev.mem.scrubSram = true → s.dev.badBits s.dev.mem.scrubSram = 0 →
    Gives (.scrubStep false ⟨0, 0, none⟩) s { s.dev with mem := { s.dev.mem with scrubSram :=
      (if s.dev.mem.scrubSram + 8 < 0x12000000 then s.dev.mem.scrubSram + 8 else 0x10000000) } }) ∧
  (∀ s : State, s.dev.scrubOn = true → s.dev.memOpen s.dev.mem.scrubDram = true → s.dev.badBits s.dev.mem.scrubDram = 0 →
    Gives (.scrubStep true ⟨0, 0, none⟩) s { s.dev with mem := { s.dev.mem with scrubDram :=
      (if s.dev.mem.scrubDram + 8 < 0x800000000 + s.dev.dramVisible then s.dev.mem.scrubDram + 8 else 0x800000000) } })

/-- The fills: SRAM complete reads 0 throughout with good check bits and leaves DRAM; training writes the fitted size or fails with event 0x4008; each DRAM
region is released in turn, reading 0, and the last one sets DRAMRDY. -/
def Obligations.FillsLeaveMemoryZero : Prop :=
  (∀ s : State, s.dev.up = true → s.dev.bit MS_STATUS_SRAMRDY = false →
    GivesThat .sramFillComplete s fun e =>
      e.bit MS_STATUS_SRAMRDY = true ∧ (∀ a, inSram a = true → e.memByte a = 0 ∧ e.badBits a = 0) ∧
      (∀ a, 0x800000000 ≤ a → e.memByte a = s.dev.memByte a) ∧ ∀ a, a ≠ MS_STATUS → e.word a = s.dev.word a) ∧
  (∀ (s : State) (k : Nat), s.dev.up = true → s.dev.rd MS_STATUS_SIZE = 0 → s.dev.bit MS_STATUS_DRAMFAIL = false → 1 ≤ k → k ≤ 3 →
    Gives (.dramTrainingComplete (.passed k)) s (s.dev.wr MS_STATUS_SIZE k)) ∧
  (∀ (s : State) (c t : Nat), s.dev.up = true → s.dev.rd MS_STATUS_SIZE = 0 → s.dev.bit MS_STATUS_DRAMFAIL = false →
    Gives (.dramTrainingComplete (.failed c t)) s ((s.dev.wr MS_STATUS_DRAMFAIL 1).log 6 0x4008 [c, t])) ∧
  (∀ (s : State) (us : Nat), s.dev.dramVisible ≠ 0 → s.dev.rd MS_STATUS_REGIONS < 64 → s.dev.bit MS_STATUS_DRAMFAIL = false →
    GivesThat (.dramRegionFilled us) s fun e =>
      e.rd MS_STATUS_REGIONS = s.dev.rd MS_STATUS_REGIONS + 1 ∧
      (s.dev.rd MS_STATUS_REGIONS = 63 → e.bit MS_STATUS_DRAMRDY = true) ∧
      (∀ a, s.dev.inDram a = true → s.dev.dramRegion a = s.dev.rd MS_STATUS_REGIONS → e.memByte a = 0 ∧ e.badBits a = 0) ∧
      (∀ a, s.dev.inDram a = false ∨ s.dev.dramRegion a ≠ s.dev.rd MS_STATUS_REGIONS → e.memByte a = s.dev.memByte a) ∧
      ∀ a, a ∉ [MS_STATUS, RG_LOGSTAT] → e.word a = s.dev.word a)

/-- A page count outside 1 to 64 is refused with a bus error; a request that fits, with none of its party waiting, is granted at once; any other waits.
MS_POOL_RES takes a count that leaves every lane and the host its 64 pages and the sum within the pool, and ignores any other; a lane's standby is
brought back to 8 pages while its pages last. -/
def Obligations.BufferPoolGrantsAndShares : Prop :=
  (∀ (s : State) (id n : Nat) (p : Party) (u : Bool), n = 0 ∨ 64 < n →
    Gives (.poolReserveRequest id p n u) s (s.dev.emit (.reply (some id) .busError))) ∧
  (∀ (s : State) (id n : Nat) (p : Party) (u : Bool), 1 ≤ n → n ≤ 64 → s.dev.poolFits p n = true → (∀ w ∈ s.dev.pool.waiting, w.party ≠ p) →
    Gives (.poolReserveRequest id p n u) s { s.dev with pool := { s.dev.pool with
      resv := s.dev.pool.resv ++ [{ id := id, party := p, left := n }] } }) ∧
  (∀ (s : State) (id n : Nat) (p : Party) (u : Bool), 1 ≤ n → n ≤ 64 → s.dev.poolFits p n = false ∨ (∃ w ∈ s.dev.pool.waiting, w.party = p) →
    Gives (.poolReserveRequest id p n u) s { s.dev with pool := { s.dev.pool with
      waiting := s.dev.pool.waiting ++ [{ id := id, party := p, n := n, urgent := u, logged := false }] } }) ∧
  (∀ (s : State) (w : PoolWait), s.dev.pool.waiting = [w] → s.dev.poolFits w.party w.n = true →
    GivesThat .poolReserveGrant s fun e =>
      e.pool.waiting = [] ∧ e.pool.resv = s.dev.pool.resv ++ [{ id := w.id, party := w.party, left := w.n }] ∧
      e.pointer .poolAllocator = (s.dev.pointer .poolAllocator).next ∧ Untouched [] s.dev e) ∧
  (∀ s : State, (∀ w ∈ s.dev.pool.waiting, s.dev.poolFits w.party w.n = false) → Gives .poolReserveGrant s s.dev) ∧
  (∀ (s : State) (id : Nat) (w : PoolWait), s.dev.pool.waiting.find? (fun x => x.id == id) = some w → w.logged = false →
    GivesThat (.poolWaitTimeout id) s fun e =>
      e.rd MS_INT_POOLWAIT = 1 ∧ e.pool.waiting.length = s.dev.pool.waiting.length ∧ e.pool.resv = s.dev.pool.resv ∧
      Untouched [MS_INT, RG_LOGSTAT] s.dev e) ∧
  (∀ (s : State) (p : Party) (v : Word), p = .cipher ∨ 64 ≤ getField v 0 13 →
    ((allParties.filter (· != p)).map s.dev.poolRes).foldl (· + ·) 0 + getField v 0 13 ≤ s.dev.poolPages →
    Gives (.poolResWrite p v) s (s.dev.wr (MS_POOL_RES_RES p.idx) (getField v 0 13))) ∧
  (∀ (s : State) (p : Party) (v : Word), (p ≠ .cipher ∧ getField v 0 13 < 64) ∨
    s.dev.poolPages < ((allParties.filter (· != p)).map s.dev.poolRes).foldl (· + ·) 0 + getField v 0 13 →
    Gives (.poolResWrite p v) s s.dev) ∧
  (∀ (s : State) (l : Lane), 8 ≤ (s.dev.standby l).length → (∀ r ∈ s.dev.pool.resv, r.id ≠ standbyId l) →
    Gives (.readStandbyRefill l) s s.dev) ∧
  (∀ (s : State) (l : Lane) (i k : Nat) (t : List (Nat × Nat)), (s.dev.standby l).length = 7 → s.dev.poolFits l.party 1 = true →
    (∀ w ∈ s.dev.pool.waiting, w.party ≠ l.party ∧ w.id ≠ standbyId l) → (∀ r ∈ s.dev.pool.resv, r.id ≠ standbyId l) →
    s.dev.pool.free = (i, k) :: t → 0 < k →
    GivesThat (.readStandbyRefill l) s fun e =>
      e.standby l = s.dev.standby l ++ [i] ∧ e.pool.alloc = s.dev.pool.alloc ++ [(i, l.party)] ∧ e.pool.resv = s.dev.pool.resv ∧
      Untouched [] s.dev e)

/-! ### PCIe ports, controllers, queues -/

/-- PERST# resets the port's controller and the port's registers; its release and training bring the link up at the lower of both ends' generation and width;
a link lost by itself resets them too and retrains; configuration requests are retried until release; L1.2 and correctable errors show in HS_LINK_STS. -/
def Obligations.LinkPortsFollowPerstAndTraining : Prop :=
  (∀ (s : State) (p : Nat), s.dev.hasPort p = true → s.dev.up = true →
    Gives (.perstAssert p) s (((s.dev.controllerReset p).setWord (HS_LINK_STS p) (resetWord (HS_LINK_STS p))).log 0 0x1003 [p])) ∧
  (∀ (s : State) (p : Nat), s.dev.hasPort p = true → s.dev.up = true → Gives (.perstDeassert p) s (s.dev.wr (HS_LINK_STS_PERST p) 0)) ∧
  (∀ (s : State) (p g w : Nat), s.dev.hasPort p = true → s.dev.up = true → s.dev.boot.phase ≠ .recovery → s.dev.bit (HS_LINK_STS_PERST p) = false →
    s.dev.bit (HS_LINK_STS_UP p) = false → 1 ≤ g → 1 ≤ w → 1 ≤ s.dev.rd CB_HOST_GEN →
    GivesThat (.linkTrained p g w) s fun e =>
      e.bit (HS_LINK_STS_UP p) = true ∧ e.rd (HS_LINK_STS_SPEED p) = min g (min 5 (s.dev.rd CB_HOST_GEN)) ∧
      e.rd (HS_LINK_STS_WIDTH p) = min w (if s.dev.twoPorts then 1 else 2) ∧ Untouched [HS_LINK_STS p, RG_LOGSTAT] s.dev e) ∧
  (∀ (s : State) (p : Nat), s.dev.hasPort p = true → s.dev.bit (HS_LINK_STS_PERST p) = false → s.dev.bit (HS_LINK_STS_UP p) = true →
    Gives (.linkDown p) s
      ((((s.dev.controllerReset p).setWord (HS_LINK_STS p) (resetWord (HS_LINK_STS p))).wr (HS_LINK_STS_PERST p) 0).log 0 0x1002 [p])) ∧
  (∀ (s : State) (p : Nat), s.dev.hasPort p = true → s.dev.bit (HS_LINK_STS_UP p) = true →
    Gives (.configRequest p) s (s.dev.emit (.config p (!s.dev.released)))) ∧
  (∀ (s : State) (p : Nat), s.dev.bit (HS_LINK_STS_UP p) = true → Gives (.l12Entry p) s (s.dev.wr (HS_LINK_STS_L12 p) 1)) ∧
  (∀ (s : State) (p : Nat), Gives (.l12Exit p) s (s.dev.wr (HS_LINK_STS_L12 p) 0)) ∧
  (∀ (s : State) (p : Nat), s.dev.hasPort p = true →
    GivesThat (.correctableError p) s fun e =>
      e.rd (HS_LINK_STS_CORR_CNT p) = min (s.dev.rd (HS_LINK_STS_CORR_CNT p) + 1) 255 ∧ Untouched [HS_LINK_STS p, RG_LOGSTAT] s.dev e)

/-- Enabling takes a controller that is neither enabled, ready nor resetting, gives it its two admin queues; it becomes ready with CRIME, or at speed with the
map rebuilt; clearing CC.EN resets it, and CSTS.RDY follows the drain or the time-out; a failed queue fetch sets CFS, a late pull fails its write. -/
def Obligations.ControllersEnableReadyAndReset : Prop :=
  (∀ (s : State) (c asq acq : Nat) (crime : Bool), c ∈ s.dev.ctrls → s.dev.released = true → s.dev.bit (HS_LINK_STS_UP c) = true →
    (s.dev.ctrl c).en = false → (s.dev.ctrl c).rdy = false → (s.dev.ctrl c).resetting = false →
    GivesThat (.ccEnSet c crime asq acq) s fun e =>
      (e.ctrl c).en = true ∧ (e.ctrl c).crime = crime ∧ (e.ctrl c).rdy = false ∧
      { ctrl := c, qid := 0, size := asq, cq := 0 } ∈ e.host.sqs ∧ { ctrl := c, qid := 0, size := acq, vector := 0 } ∈ e.host.cqs ∧
      e.regs = s.dev.regs ∧ e.mem = s.dev.mem) ∧
  (∀ (s : State) (c : Nat), (s.dev.ctrl c).en = true → (s.dev.ctrl c).rdy = false →
    (s.dev.ctrl c).crime = true ∨ (s.dev.atSpeed = true ∧ s.dev.mediumReady = true) →
    GivesThat (.controllerReady c) s fun e => (e.ctrl c).rdy = true ∧ e.regs = s.dev.regs ∧ e.mem = s.dev.mem) ∧
  (∀ (s : State) (c : Nat), (s.dev.ctrl c).rdy = false → (s.dev.ctrl c).crime = false → s.dev.atSpeed = false ∨ s.dev.mediumReady = false →
    Gives (.controllerReady c) s s.dev) ∧
  (∀ (s : State) (c : Nat), (s.dev.ctrl c).en = true → Gives (.ccEnClear c) s ((s.dev.controllerReset c).log 0 0x1007 [c])) ∧
  (∀ (s : State) (c : Nat), (s.dev.ctrl c).resetting = true → (∀ x ∈ s.dev.host.cmds, x.id.ctrl = c → x.silent = false) →
    Gives (.controllerResetDrained c) s (s.dev.updCtrl c fun k => { k with rdy := false, resetting := false })) ∧
  (∀ (s : State) (c : Nat), (s.dev.ctrl c).resetting = true →
    Gives (.rdyClearTimeout c) s (s.dev.updCtrl c fun k => { k with rdy := false, resetting := false })) ∧
  (∀ (s : State) (c : Nat), (s.dev.ctrl c).en = true →
    Gives (.hostReadCompletionTimeout (.queueFetch c)) s
      ((s.dev.log 0 0x1006 [c]).updCtrl c fun k => { k with cfs := true, stopped := true })) ∧
  (∀ (s : State) (c : Nat), (s.dev.ctrl c).en = true →
    Gives (.poisonedTlp (.queueFetch c)) s ((s.dev.log 0 0x1005 [c]).updCtrl c fun k => { k with cfs := true, stopped := true })) ∧
  (∀ (s : State) (id : CmdId) (k : Nat) (c : Cmd) (u : WUnit), s.dev.cmd id = some c → c.units[k]? = some u → u.st = .pulling →
    Gives (.hostReadCompletionTimeout (.latePull id k)) s (((s.dev.log 0 0x1006 [id.ctrl]).failFrom c.no k .dataTransfer).settle) ∧
    Gives (.poisonedTlp (.latePull id k)) s (((s.dev.log 0 0x1005 [id.ctrl]).failFrom c.no k .dataTransfer).settle)) ∧
  (∀ (s : State) (c q : Nat) (x : CplQ), s.dev.host.cqs.find? (fun x => x.ctrl == c && x.qid == q) = some x → x.held ≠ 0 → x.irq = true →
    GivesThat (.coalescingTimeout c q) s fun e =>
      e.out = s.dev.out ++ [.msix c x.vector] ∧ (∀ z ∈ e.host.cqs, z.ctrl = c → z.qid = q → z.held = 0) ∧ Untouched [] s.dev e)

/-- A doorbell moves its queue's tail, and resumes a stopped controller unless CFS or a forced power state stands; the arbiter's queue gives its entry, whose
number the head leaves behind; fetching goes on below 1,024 commands with no command held.
An accepted I/O command gets its namespace's next order stamp; the stamp's successor, modulo 2^32, is the next command's. -/
def Obligations.FetchingAndStamps : Prop :=
  (∀ (s : State) (c q t : Nat) (x : SubQ), (s.dev.ctrl c).en = true → s.dev.host.sqs.find? (fun x => x.ctrl == c && x.qid == q) = some x → t < x.size →
    (s.dev.ctrl c).cfs = false → s.dev.forcing = false →
    GivesThat (.sqTailDoorbell c q t) s fun e =>
      (e.ctrl c).stopped = false ∧ (∀ y ∈ e.host.sqs, y.ctrl = c → y.qid = q → y.tail = t) ∧ e.host.cmds = s.dev.host.cmds ∧ Untouched [] s.dev e) ∧
  (∀ (s : State) (c q t : Nat), (s.dev.ctrl c).en = false → Gives (.sqTailDoorbell c q t) s s.dev) ∧
  (∀ (s : State) (x : SubQ) (left cid op : Nat), s.dev.arbNext = some (x, left) → x.qid = 0 →
    Gives (.commandFetch x.ctrl 0 { cid := cid, op := .admin op }) s ((s.dev.tookEntry x left).fetchAdmin ⟨x.ctrl, 0, cid⟩ op)) ∧
  (∀ (s : State) (x : SubQ) (left cid nsid : Nat) (op : IoOp), s.dev.arbNext = some (x, left) → x.qid ≠ 0 →
    Gives (.commandFetch x.ctrl x.qid { cid := cid, op := .io nsid op }) s (((s.dev.tookEntry x left).fetchIo ⟨x.ctrl, x.qid, cid⟩ nsid op).fetchWake)) ∧
  (∀ (s : State) (c q : Nat) (e : Sqe), s.dev.arbNext = none → Gives (.commandFetch c q e) s s.dev) ∧
  (∀ s : State, (∀ c ∈ s.dev.host.cmds, c.held = false) → s.dev.inFlight < 1024 →
    GivesThat .fetchResume s fun e =>
      e.rd HS_INFLIGHT_PAUSE_OT = 0 ∧ e.rd HS_INFLIGHT_PAUSE_LIM = 0 ∧ e.host = s.dev.host ∧ Untouched [HS_INFLIGHT] s.dev e) ∧
  (∀ (d : Device) (id : CmdId) (nsid slba n : Nat) (pi : PiCtl) (x : Ns), d.attachedNs id.ctrl nsid = some x → d.eraseRefuses nsid = none →
    nsid ∉ d.host.loss → x.deferred = false → 1 ≤ n → n ≤ 512 → slba + n ≤ x.blocks → x.res.rtype = 0 → d.mediumReady = true → d.otUsed < 2048 →
    ∃ c ∈ (d.fetchIo id nsid (.read slba n pi)).host.cmds, c.no = d.host.nextNo ∧ c.stamp = some (Sparse.cnt d.host.stamps nsid) ∧ c.id = id ∧
      Sparse.cnt (d.fetchIo id nsid (.read slba n pi)).host.stamps nsid = (Sparse.cnt d.host.stamps nsid + 1) % 2 ^ 32)

namespace Sys2Proof.Machine

/-- An admin command with this opcode stands under the identifier. -/
def Stands (s : State) (id : CmdId) (opcode : Nat) : Prop := (s.dev.adminCmd id opcode).isSome = true

end Sys2Proof.Machine

/-- Queues are made and deleted by standing admin commands: a bad number, size or partner is refused with its status; a submission queue goes once its
commands have ended; an Abort that finds no command it can stop completes with DW0 1.
Log pages, Identify and features answer through the standing command: the page or the fields go out and the command completes; unknown log pages and
features are Invalid Field; a feature set reads back; an event request waits, or takes the oldest waiting event. -/
def Obligations.QueuesAndAdminCommandsAnswer : Prop :=
  (∀ (s : State) (id : CmdId) (q n cq : Nat), Stands s id 0x01 → 1 ≤ q → q ≤ s.dev.queuePairs → (∀ x ∈ s.dev.host.sqs, ¬(x.ctrl = id.ctrl ∧ x.qid = q)) →
    2 ≤ n → n ≤ 4096 → cq ≠ 0 → (∃ x ∈ s.dev.host.cqs, x.ctrl = id.ctrl ∧ x.qid = cq) →
    Gives (.createIoSq id q n cq true) s
      ((s.dev.updHost fun h => { h with sqs := insertSq { ctrl := id.ctrl, qid := q, size := n, cq := cq } h.sqs }).adminDone id .success)) ∧
  (∀ (s : State) (id : CmdId) (q n cq : Nat) (pc : Bool), Stands s id 0x01 → q = 0 ∨ s.dev.queuePairs < q →
    Gives (.createIoSq id q n cq pc) s (s.dev.adminDone id .invalidQueueId)) ∧
  (∀ (s : State) (id : CmdId) (q n v : Nat) (ien : Bool), Stands s id 0x05 → 1 ≤ q → q ≤ s.dev.queuePairs →
    (∀ x ∈ s.dev.host.cqs, ¬(x.ctrl = id.ctrl ∧ x.qid = q)) → 2 ≤ n → n ≤ 4096 → v < s.dev.vectors →
    Gives (.createIoCq id q n v true ien) s
      ((s.dev.updHost fun h => { h with cqs := h.cqs ++ [{ ctrl := id.ctrl, qid := q, size := n, vector := v, irq := ien }] }).adminDone id .success)) ∧
  (∀ (s : State) (id : CmdId) (q n v : Nat) (ien : Bool), Stands s id 0x05 → 1 ≤ q → q ≤ s.dev.queuePairs →
    (∀ x ∈ s.dev.host.cqs, ¬(x.ctrl = id.ctrl ∧ x.qid = q)) → 2 ≤ n → n ≤ 4096 → s.dev.vectors ≤ v →
    Gives (.createIoCq id q n v true ien) s (s.dev.adminDone id .invalidVector)) ∧
  (∀ (s : State) (id : CmdId) (q : Nat), Stands s id 0x00 → q = 0 ∨ (∀ x ∈ s.dev.host.sqs, ¬(x.ctrl = id.ctrl ∧ x.qid = q)) →
    Gives (.deleteIoSq id q) s (s.dev.adminDone id .invalidQueueId)) ∧
  (∀ (s : State) (id : CmdId) (q : Nat), Stands s id 0x00 → q ≠ 0 → (∃ x ∈ s.dev.host.sqs, x.ctrl = id.ctrl ∧ x.qid = q) → s.dev.host.cmds = [] →
    GivesThat (.deleteIoSq id q) s fun e =>
      (∀ x ∈ e.host.sqs, x.ctrl = id.ctrl → x.qid = q → x.deleting = true) ∧ (∀ x ∈ s.dev.host.sqs, ¬(x.ctrl = id.ctrl ∧ x.qid = q) → x ∈ e.host.sqs) ∧
      e.out = s.dev.out ∧ e.regs = s.dev.regs) ∧
  (∀ (s : State) (id : CmdId) (a : AdminCmd) (q : Nat), s.dev.adminCmd id 0x00 = some a → a.wait = some q → s.dev.fromQueue id.ctrl q = [] →
    Gives (.deleteSqComplete id) s
      ((s.dev.updHost fun h => { h with sqs := h.sqs.filter fun x => !(x.ctrl == id.ctrl && x.qid == q) }).adminDone id .success)) ∧
  (∀ (s : State) (id : CmdId) (q : Nat), Stands s id 0x04 → q ≠ 0 → (∃ x ∈ s.dev.host.cqs, x.ctrl = id.ctrl ∧ x.qid = q) →
    (∀ x ∈ s.dev.host.sqs, ¬(x.ctrl = id.ctrl ∧ x.cq = q)) →
    Gives (.deleteIoCq id q) s
      ((s.dev.updHost fun h => { h with cqs := h.cqs.filter fun x => !(x.ctrl == id.ctrl && x.qid == q) }).adminDone id .success)) ∧
  (∀ (s : State) (id : CmdId) (q : Nat), Stands s id 0x04 → q ≠ 0 → (∃ x ∈ s.dev.host.cqs, x.ctrl = id.ctrl ∧ x.qid = q) →
    (∃ x ∈ s.dev.host.sqs, x.ctrl = id.ctrl ∧ x.cq = q) → Gives (.deleteIoCq id q) s (s.dev.adminDone id .queueDeletion)) ∧
  (∀ (s : State) (id : CmdId) (q cid : Nat), Stands s id 0x08 → s.dev.cmd ⟨id.ctrl, q, cid⟩ = none →
    Gives (.abort id q cid) s (s.dev.adminDone id .success 1)) ∧
  (∀ (s : State) (id : CmdId) (q cid : Nat) (c : Cmd), Stands s id 0x08 → s.dev.cmd ⟨id.ctrl, q, cid⟩ = some c → c.abortable = true →
    Gives (.abort id q cid) s (((s.dev.abortCmd c.no .abortRequested).settle).adminDone id .success 0)) ∧
  (∀ (s : State) (id : CmdId) (lid nsid lsp off len : Nat) (e : Device), Stands s id 0x02 →
    s.dev.getLog (some id) id.ctrl lid nsid lsp off len = some e → Gives (.getLogPage id lid nsid lsp off len) s (e.adminDone id .success)) ∧
  (∀ (s : State) (id : CmdId) (lid nsid lsp off len : Nat), Stands s id 0x02 → off % 4 ≠ 0 →
    Gives (.getLogPage id lid nsid lsp off len) s (s.dev.adminDone id .invalidField)) ∧
  (∀ (s : State) (id : CmdId) (nsid : Nat), Stands s id 0x06 →
    Gives (.identify id 0x01 nsid) s ((s.dev.emit (.fields (some id) (s.dev.identifyCtrl id.ctrl ++ ctrlProperties))).adminDone id .success)) ∧
  (∀ (s : State) (id : CmdId) (nsid : Nat) (x : Ns), Stands s id 0x06 → s.dev.attachedNs id.ctrl nsid = some x →
    Gives (.identify id 0x00 nsid) s ((s.dev.emit (.fields (some id) (s.dev.identifyNs x))).adminDone id .success)) ∧
  (∀ (s : State) (id : CmdId) (fid nsid a b : Nat) (t : List (Nat × (Nat × Nat))), Stands s id 0x09 → fid ∉ featureIds →
    Gives (.setFeatures id fid nsid a b t) s (s.dev.adminDone id .invalidField)) ∧
  (∀ (s : State) (id : CmdId) (nsid a b : Nat) (t : List (Nat × (Nat × Nat))), Stands s id 0x09 →
    Gives (.setFeatures id 0x81 nsid a b t) s ((s.dev.setFeat id.ctrl 0x81 nsid a).adminDone id .success)) ∧
  (∀ (s : State) (id : CmdId) (nsid a b : Nat) (t : List (Nat × (Nat × Nat))), Stands s id 0x09 →
    Gives (.setFeatures id 0x0C nsid a b t) s
      ((s.dev.updCtrl id.ctrl fun k => { k with apste := a.testBit 0, apst := some t }).adminDone id .success)) ∧
  (∀ (s : State) (id : CmdId) (nsid a b : Nat) (t : List (Nat × (Nat × Nat))), Stands s id 0x09 → 4 < a % 32 →
    Gives (.setFeatures id 0x02 nsid a b t) s (s.dev.adminDone id .invalidField)) ∧
  (∀ (s : State) (id : CmdId) (nsid a : Nat), Stands s id 0x0A →
    Gives (.getFeatures id 0x81 nsid a) s (s.dev.adminDone id .success (s.dev.feat id.ctrl 0x81 nsid))) ∧
  (∀ (d : Device) (c f x v : Nat), (d.setFeat c f x v).feat c f x = v) ∧
  (∀ (s : State) (id : CmdId), Stands s id 0x0C → (s.dev.ctrl id.ctrl).aens = [] →
    Gives (.asyncEventRequest id) s ((s.dev.dropAdmin id).updCtrl id.ctrl fun k => { k with aers := k.aers ++ [id] })) ∧
  (∀ (s : State) (id : CmdId) (a : Aen) (rest : List Aen), Stands s id 0x0C → (s.dev.ctrl id.ctrl).aens = a :: rest →
    Gives (.asyncEventRequest id) s
      ((s.dev.updCtrl id.ctrl fun k => { k with aens := rest }).adminDone id .success (a.typ + 256 * a.info + 65536 * a.page)))

/-- A completion goes to the queue its submission queue names, with the queue's phase; the phase turns when the tail comes round. -/
def Obligations.CompletionsGoToTheirQueueWithItsPhase : Prop :=
  ∀ (d : Device) (id : CmdId) (st : Status) (a b : Nat) (x : CplQ),
    d.host.cqs.find? (fun z => z.ctrl == id.ctrl && z.qid == d.cqOf id.ctrl id.sq) = some x →
    (d.post id st a b).out.take (d.out.length + 1) = d.out ++ [.completion id (d.cqOf id.ctrl id.sq) x.phase st a b] ∧
    ∃ y, (d.post id st a b).host.cqs.find? (fun z => z.ctrl == id.ctrl && z.qid == d.cqOf id.ctrl id.sq) = some y ∧
      y.tail = (x.tail + 1) % max x.size 1 ∧ y.phase = (if y.tail = 0 then !x.phase else x.phase) ∧ y.size = x.size ∧ y.vector = x.vector

/-- Namespaces: created with the lowest free number, a fresh epoch and whole allocation units, attached and detached by controller lists, and deleted once
nothing fetched uses them; a Format or Sanitize waits for the fetched commands, runs, records its progress and ends as its record says.
The three Sanitize actions wait as one Sanitize of every namespace with their action and passes; the start, once nothing fetched is left, makes the
record running and completes the Sanitize command; progress is recorded up to the total; the end shows complete or failed and frees the erase. -/
def Obligations.NamespacesErasesAndSanitize : Prop :=
  (∀ (s : State) (id : CmdId) (z : Bool) (f p : Nat) (pf : Bool) (n : Nat), Stands s id 0x0D → 2 < f ∨ 3 < p ∨ (f = 0 ∧ p ≠ 0) ∨ n = 0 →
    Gives (.namespaceCreate id z f p pf n) s (s.dev.adminDone id .invalidField)) ∧
  (∀ (s : State) (id : CmdId) (f p : Nat) (pf : Bool) (n : Nat), Stands s id 0x0D → f ≤ 2 → p ≤ 3 → (f = 0 → p = 0) → n ≠ 0 →
    s.dev.nsids.length + 1 ≤ s.dev.rd CB_NSLIM_COUNT → (n + 65535) / 65536 ≤ s.dev.freeUnits →
    GivesThat (.namespaceCreate id false f p pf n) s fun e =>
      ∃ x, e.ns s.dev.nextNsid = some x ∧ x.zoned = false ∧ x.fmt = f ∧ x.pit = p ∧ x.blocks = 65536 * ((n + 65535) / 65536) ∧ x.attached = 0 ∧
        x.epoch = (match Sparse.find s.dev.hnor.epochs s.dev.nextNsid with | some v => v + 1 | none => 0)) ∧
  (∀ (s : State) (id : CmdId) (n : Nat), Stands s id 0x0D → s.dev.ns n = none → Gives (.namespaceDelete id n) s (s.dev.adminDone id .invalidNs)) ∧
  (∀ (s : State) (id : CmdId) (n : Nat) (x : Ns), Stands s id 0x0D → s.dev.ns n = some x → s.dev.nsBusy n = true →
    Gives (.namespaceDelete id n) s s.dev) ∧
  (∀ (s : State) (id : CmdId) (n : Nat) (x : Ns), Stands s id 0x0D → s.dev.ns n = some x → s.dev.nsBusy n = false → s.dev.mapped n = none →
    GivesThat (.namespaceDelete id n) s fun e => e.hnor.nss = Sparse.del s.dev.hnor.nss n ∧ e.meters = Sparse.del s.dev.meters n) ∧
  (∀ (s : State) (id : CmdId) (n m : Nat) (cs : List Nat) (x : Ns), Stands s id 0x15 → s.dev.ns n = some x → s.dev.ctrlMask cs = some m →
    x.attached &&& m = 0 →
    Gives (.namespaceAttach id n cs) s (((s.dev.setNs n { x with attached := x.attached ||| m }).nsChanged n).adminDone id .success)) ∧
  (∀ (s : State) (id : CmdId) (n m : Nat) (cs : List Nat) (x : Ns), Stands s id 0x15 → s.dev.ns n = some x → s.dev.ctrlMask cs = some m →
    x.attached &&& m ≠ 0 → Gives (.namespaceAttach id n cs) s (s.dev.adminDone id .nsAttached)) ∧
  (∀ (s : State) (id : CmdId) (n m : Nat) (cs : List Nat) (x : Ns), Stands s id 0x15 → s.dev.ns n = some x → s.dev.ctrlMask cs = some m →
    x.attached &&& m = m → s.dev.nsBusy n = false →
    Gives (.namespaceDetach id n cs) s (((s.dev.setNs n { x with attached := x.attached - m }).nsChanged n).adminDone id .success)) ∧
  (∀ (s : State) (id : CmdId) (n m : Nat) (cs : List Nat) (x : Ns), Stands s id 0x15 → s.dev.ns n = some x → s.dev.ctrlMask cs = some m →
    x.attached &&& m ≠ m → Gives (.namespaceDetach id n cs) s (s.dev.adminDone id .nsNotAttached)) ∧
  (∀ (s : State) (id : CmdId) (n f e p : Nat) (pf : Bool), Stands s id 0x80 → f ≤ 2 → e ≤ 2 → p ≤ 3 → (f = 0 → p = 0) → (s.dev.ns n).isSome = true →
    s.dev.host.erase = .idle →
    GivesThat (.formatNvm id n f e p pf) s fun t =>
      t.host.erase = .waiting ∧ t.host.eraseFormat = true ∧ t.host.eraseId = some id ∧ t.hnor.format.action = e ∧ t.hnor.format.nsid = n ∧
      t.hnor.format.total = s.dev.nsBytes n ∧ t.hnor.sanitize = s.dev.hnor.sanitize ∧ t.hnor.nss = s.dev.hnor.nss ∧ Untouched [] s.dev t) ∧
  (∀ (s : State) (id : CmdId), Stands s id 0x84 → s.dev.host.erase = .idle →
    (GivesThat (.sanitizeCryptoErase id) s fun t =>
      t.host.erase = .waiting ∧ t.host.eraseFormat = false ∧ t.hnor.sanitize.action = 4 ∧ t.hnor.sanitize.nsid = 0xFFFFFFFF ∧ Untouched [] s.dev t) ∧
    (GivesThat (.sanitizeBlockErase id) s fun t =>
      t.host.erase = .waiting ∧ t.host.eraseFormat = false ∧ t.hnor.sanitize.action = 2 ∧ t.hnor.sanitize.nsid = 0xFFFFFFFF ∧ Untouched [] s.dev t) ∧
    (∀ (k p : Nat) (i n : Bool), k ≤ 15 →
      GivesThat (.sanitizeOverwrite id k p i n) s fun t =>
        t.host.erase = .waiting ∧ t.hnor.sanitize.action = 3 ∧ t.hnor.sanitize.passes = (if k = 0 then 16 else k) ∧ t.hnor.sanitize.ndas = n ∧
        t.hnor.sanitize.total = s.dev.nsBytes 0xFFFFFFFF * (if k = 0 then 16 else k) ∧ Untouched [] s.dev t)) ∧
  (∀ s : State, s.dev.host.erase = .waiting → s.dev.nsBusy s.dev.eraseRec.nsid = true → Gives .formatSanitizeStart s s.dev) ∧
  (∀ s : State, s.dev.host.erase = .waiting → s.dev.nsBusy s.dev.eraseRec.nsid = false → s.dev.hnor.nss = [] → s.dev.host.eraseFormat = true →
    GivesThat .formatSanitizeStart s fun t => t.host.erase = .running ∧ t.hnor.format = { s.dev.hnor.format with state := 1 }) ∧
  (∀ (s : State) (n : Nat), s.dev.host.erase = .running →
    Gives (.progressRecord n) s (s.dev.updErase fun r => { r with done := min n r.total, records := r.records + 1, chr := s.dev.chron.chr })) ∧
  (∀ (s : State) (n : Nat), s.dev.host.erase ≠ .running → Gives (.progressRecord n) s s.dev) ∧
  (∀ s : State, s.dev.host.erase = .running → s.dev.host.eraseFormat = false →
    GivesThat (.eraseOperationComplete false) s fun t =>
      t.host.erase = .idle ∧ t.hnor.sanitize.state = 3 ∧ t.hnor.sanitize.done = s.dev.hnor.sanitize.done ∧ t.hnor.nss = s.dev.hnor.nss)

/-! ### NVMe-MI and the power features -/

/-- While the regulator runs, each NVMe-MI read answers its structure, health, configuration, page, features or identity, and success; the SMBus frequency
is 100 or 400 kHz; a request that cannot be met is refused with its status and event 0x1009; while it does not run nothing answers.
A Force Power State request is checked in the order target, reserved field and limit, work in hand; accepted, it stops fetching and starts its drain; the
drain's end aborts what is left and asks for the transition. An idle controller steps by its table, at level 41 only on a 100 ms boundary a second after
the last transition. -/
def Obligations.ManagementAndPowerFeatures : Prop :=
  (∀ (s : State) (t : Nat), s.dev.regOn = true →
    GivesThat (.miReadDataStructure t) s fun e =>
      (∃ fs, e.out = s.dev.out ++ [.fields none fs, .mi 0] ∧ ("TYPE", t) ∈ fs ∧ ("CTRLS", s.dev.ctrls.length) ∈ fs) ∧ Untouched [] s.dev e) ∧
  (∀ s : State, s.dev.regOn = true → Gives .miSubsystemHealthPoll s ((s.dev.emit (.fields none s.dev.healthFields)).emit (.mi 0))) ∧
  (∀ s : State, s.dev.regOn = true →
    GivesThat .miControllerHealthPoll s fun e =>
      ∃ fs, e.out = s.dev.out ++ [.fields none fs, .mi 0] ∧ (∀ c ∈ s.dev.ctrls, ("CTLID", c + 1) ∈ fs) ∧ Untouched [] s.dev e) ∧
  (∀ s : State, s.dev.regOn = true → Gives .miConfigGet s ((s.dev.emit (.fields none [("KHZ", s.dev.host.smbusKhz)])).emit (.mi 0))) ∧
  (∀ (s : State) (k : Nat), s.dev.regOn = true → k = 100 ∨ k = 400 →
    Gives (.miConfigSet k) s ((s.dev.updHost fun h => { h with smbusKhz := k }).emit (.mi 0))) ∧
  (∀ (s : State) (k : Nat), s.dev.regOn = true → k ≠ 100 → k ≠ 400 → Gives (.miConfigSet k) s ((s.dev.emit (.mi 4)).log 9 0x1009 [4])) ∧
  (∀ (s : State) (c n v : Nat) (fs : List (String × Nat)), s.dev.regOn = true → s.dev.identify c n v = .ok fs →
    Gives (.miTunnelIdentify c n v) s ((s.dev.emit (.fields none fs)).emit (.mi 0))) ∧
  (∀ (s : State) (c lid nsid lsp off len : Nat) (e : Device), s.dev.regOn = true → s.dev.getLog none c lid nsid lsp off len = some e →
    Gives (.miTunnelGetLogPage c lid nsid lsp off len) s (e.emit (.mi 0))) ∧
  (∀ (s : State) (c f n a : Nat), s.dev.regOn = true → f ∈ featureIds →
    Gives (.miTunnelGetFeatures c f n a) s
      ((s.dev.emit (.fields none (("DW0", (s.dev.getFeature c f n a).1) :: (s.dev.getFeature c f n a).2))).emit (.mi 0))) ∧
  (∀ (s : State) (c f n a : Nat), s.dev.regOn = true → f ∉ featureIds → Gives (.miTunnelGetFeatures c f n a) s ((s.dev.emit (.mi 4)).log 9 0x1009 [4])) ∧
  (∀ s : State, s.dev.regOn = true → Gives .miBasicManagement s (s.dev.emit (.fields none s.dev.healthFields))) ∧
  (∀ (s : State) (op : Nat), s.dev.regOn = true → op ∉ [0xC0, 0x00, 0x01, 0x02, 0x03, 0x04] →
    Gives (.miUnsupportedRequest op) s ((s.dev.emit (.mi 3)).log 9 0x1009 [3])) ∧
  (∀ s : State, s.dev.regOn = false → Gives .miSubsystemHealthPoll s s.dev) ∧
  (∀ (s : State) (t r l : Nat), s.dev.regOn = true → t < 2 ∨ 5 < t → Gives (.miForcePowerState t r l) s ((s.dev.emit (.mi 1)).log 9 0x1009 [1])) ∧
  (∀ (s : State) (t r l : Nat), s.dev.regOn = true → 2 ≤ t → t ≤ 5 → r ≠ 0 ∨ 10000 < l →
    Gives (.miForcePowerState t r l) s ((s.dev.emit (.mi 3)).log 9 0x1009 [3])) ∧
  (∀ (s : State) (t l : Nat), s.dev.regOn = true → 2 ≤ t → t ≤ 5 → l ≤ 10000 → s.dev.longWork = true →
    Gives (.miForcePowerState t 0 l) s ((s.dev.emit (.mi 2)).log 9 0x1009 [2])) ∧
  (∀ (s : State) (t l : Nat), s.dev.regOn = true → 2 ≤ t → t ≤ 5 → l ≤ 10000 → s.dev.longWork = false → s.dev.power.forcedReq = false →
    s.dev.power.run = none → s.dev.power.drain = none →
    GivesThat (.miForcePowerState t 0 l) s fun e =>
      e.power.drain = some t ∧ e.power.drainAt = s.dev.chron.chr + 1000 * (if l = 0 then 2000 else l) ∧ (∀ c ∈ s.dev.ctrls, (e.ctrl c).stopped = true) ∧
      e.out = s.dev.out ∧ Untouched [] s.dev e) ∧
  (∀ (s : State) (t : Nat), s.dev.power.drain = some t → s.dev.host.cmds = [] →
    GivesThat .forceDrainExpire s fun e =>
      e.power.drain = none ∧ e.power.request = some (min t 4) ∧ e.power.forcedReq = true ∧ e.power.forcedRetain = (t == 5)) ∧
  (∀ (s : State) (t : Nat), s.dev.power.drain = some t → s.dev.chron.chr < s.dev.power.drainAt → s.dev.inFlight ≠ 0 → Gives .forceDrainExpire s s.dev) ∧
  (∀ (s : State) (c ms t : Nat), (s.dev.ctrl c).en = true → (s.dev.ctrl c).apste = true → s.dev.inFlight = 0 → s.dev.level41 = false →
    Sparse.find (s.dev.apstTable c) s.dev.host.ps = some (ms, t) → s.dev.host.ps < t → t ≤ 4 →
    GivesThat (.apstIdleTimeout c) s fun e =>
      e.host.ps = t ∧ (s.dev.rd RG_PSTATUS_STATE < t → e.power.request = some t) ∧ Untouched [] s.dev e) ∧
  (∀ (s : State) (c ms t : Nat), (s.dev.ctrl c).en = true → (s.dev.ctrl c).apste = true → s.dev.inFlight = 0 → s.dev.level41 = true →
    Sparse.find (s.dev.apstTable c) s.dev.host.ps = some (ms, t) → s.dev.host.ps < t → t ≤ 4 →
    Gives (.apstIdleTimeout c) s { s.dev with power := { s.dev.power with autoTarget := some t } }) ∧
  (∀ (s : State) (t : Nat), s.dev.power.autoTarget = some t → s.dev.inFlight = 0 → s.dev.chron.chr % 100000 = 0 →
    s.dev.power.lastEnd + 1000000 ≤ s.dev.chron.chr →
    GivesThat .apstTickBoundaryStep s fun e => e.host.ps = t ∧ e.power.autoTarget = none ∧ Untouched [] s.dev e) ∧
  (∀ (s : State) (t : Nat), s.dev.power.autoTarget = some t → s.dev.inFlight = 0 → s.dev.chron.chr % 100000 ≠ 0 → Gives .apstTickBoundaryStep s s.dev) ∧
  (∀ s : State, s.dev.regOn = true → (∀ c, (s.dev.ctrl c).en = false) →
    GivesThat .tempThresholdEval s fun e => e.out = s.dev.out ∧ e.host = s.dev.host ∧ Untouched [] s.dev e)

/-! ### I/O commands -/

/-- Reads and Verifies, with their chunk-table pages loaded, take every block from its best source; one whose medium does not give a block up ends with
Unrecovered Read; a block that passes its protection check goes to host memory as the read's block. -/
def Obligations.ReadsTakeEachBlockFromItsBestSource : Prop :=
  (∀ (s : State) (id : CmdId) (ok : Bool) (c : Cmd) (a n : Nat) (pi : PiCtl) (x : Ns), s.dev.cmd id = some c → c.op = .read a n pi → c.held = false →
    c.silent = false → s.dev.pagesLoaded c = true → s.dev.ns c.nsid = some x → ok = true ∨ c.readsMedium = false →
    Gives (.read id ok) s
      (((List.range c.blocks.length).foldl (fun d i => d.takeBlk c x i) (s.dev.updCmd c.no fun k => { k with started := true })).settle)) ∧
  (∀ (s : State) (id : CmdId) (ok : Bool) (c : Cmd) (a n : Nat) (pi : PiCtl) (x : Ns), s.dev.cmd id = some c → c.op = .verify a n pi → c.held = false →
    c.silent = false → s.dev.pagesLoaded c = true → s.dev.ns c.nsid = some x → ok = true ∨ c.readsMedium = false →
    Gives (.verify id ok) s
      (((List.range c.blocks.length).foldl (fun d i => d.takeBlk c x i) (s.dev.updCmd c.no fun k => { k with started := true })).settle)) ∧
  (∀ (s : State) (id : CmdId) (c : Cmd) (a n : Nat) (pi : PiCtl) (x : Ns), s.dev.cmd id = some c → c.op = .read a n pi → c.held = false →
    c.silent = false → s.dev.pagesLoaded c = true → s.dev.ns c.nsid = some x → c.readsMedium = true →
    Gives (.read id false) s
      (((s.dev.updCmd c.no fun k => { k with started := true }).updCmd c.no fun k => { k with fail := k.fail <|> some .unrecoveredRead }).settle)) ∧
  (∀ (d : Device) (c : Cmd) (x : Ns) (a n i : Nat) (pi : PiCtl) (r : RBlk) (rest : List Src), c.op = .read a n pi → c.blocks[i]? = some r → r.sent = false →
    r.chain = .zeros :: rest → piCheck x pi i (zeroBlk x) = none →
    (d.takeBlk c x i).out = d.out ++ [.toHost c.id i (piStrip x pi (zeroBlk x))]) ∧
  (∀ (d : Device) (c : Cmd) (x : Ns) (i b j : Nat) (r : RBlk) (rest : List Src), c.blocks[i]? = some r → r.sent = false →
    r.chain = .medium b j :: rest → d.stored b j = none →
    d.takeBlk c x i = d.updCmd c.no fun k => { k with fail := k.fail <|> some .unrecoveredRead })

/-- Writes and Zone Appends are scheduled into bands; in a conventional namespace a write waits while garbage collection must come first (event 0x1016). Zero
ranges go to the journal; a Flush writes the journal out and completes once everything stamped before it is durable. -/
def Obligations.WritesScheduleAndFlushesWait : Prop :=
  (∀ (s : State) (id : CmdId) (pl : Place) (c : Cmd) (a n : Nat) (pi : PiCtl), s.dev.cmd id = some c → c.op = .write a n pi → c.held = false → c.silent = false →
    c.fail = none → c.zone? s.dev = none → s.dev.writeHeld pl.lane = false → s.dev.fragWait c = false →
    Gives (.write id pl) s (((s.dev.updCmd c.no fun k => { k with started := true }).schedulePool c.no pl).settle)) ∧
  (∀ (s : State) (id : CmdId) (pl : Place) (c : Cmd) (a n : Nat) (pi : PiCtl), s.dev.cmd id = some c → c.op = .write a n pi → c.held = false → c.silent = false →
    c.fail = none → c.zone? s.dev = none → s.dev.writeHeld pl.lane = true →
    Gives (.write id pl) s (s.dev.logRate 0 0x1016 pl.lane.idx)) ∧
  (∀ (s : State) (id : CmdId) (pl : Place) (c : Cmd) (a n z : Nat) (pi : PiCtl), s.dev.cmd id = some c → c.op = .zoneAppend a n pi → c.held = false →
    c.silent = false → c.fail = none → c.zone? s.dev = some z → s.dev.host.cmds = [c] →
    Gives (.zoneAppend id pl) s (((s.dev.updCmd c.no fun k => { k with started := true }).scheduleZone c z pl).settle)) ∧
  (∀ (s : State) (id : CmdId) (pl : Place) (c : Cmd) (a n : Nat), s.dev.cmd id = some c → c.op = .writeZeroes a n → s.dev.zonedNs c.nsid = false →
    c.fresh = true → s.dev.mayWrite c.no c.nsid a n = true →
    Gives (.writeZeroes id pl) s
      ((((s.dev.takeSeq.2).queueRec (.zeroRange s.dev.host.seq c.nsid a n) (some c.no)).updCmd c.no fun k =>
        { k with started := true, waitJ := some s.dev.host.jnext }).flushJournal)) ∧
  (∀ (s : State) (id : CmdId) (c : Cmd) (rs : List (Nat × Nat)), s.dev.cmd id = some c → c.op = .deallocate rs → c.fresh = true →
    Gives (.datasetManagement id) s (s.dev.zeroRanges c rs)) ∧
  (∀ (s : State) (id : CmdId) (c : Cmd), s.dev.cmd id = some c → c.op = .flush → c.fresh = true →
    Gives (.flush id) s ((s.dev.updCmd c.no fun k => { k with started := true }).flushJournal)) ∧
  (∀ (s : State) (id : CmdId) (c : Cmd), s.dev.cmd id = some c → c.op = .flush → c.started = true → s.dev.flushDone c = true →
    Gives (.flushComplete id) s (s.dev.endCmd c .success)) ∧
  (∀ (s : State) (id : CmdId) (c : Cmd), s.dev.cmd id = some c → c.op = .flush → s.dev.flushDone c = false → Gives (.flushComplete id) s s.dev)

namespace Sys2Proof.Machine

/-- A Zone Management Send of an action that may be carried out now. -/
def SendReady (s : State) (id : CmdId) (c : Cmd) (act : ZoneAct) : Prop :=
  s.dev.cmd id = some c ∧ (∃ a all, c.op = .zoneSend act a all) ∧ c.held = false ∧ c.started = false ∧ c.ended = false ∧
  ∀ z ∈ c.zones, s.dev.zoneBusy c.no c.nsid z = false

/-- What a Finish, Reset or Offline that is ready does: each zone's record is queued, and the command waits for the last. -/
def sentZones (d : Device) (c : Cmd) (act : ZoneAct) : Device :=
  let e := c.zones.foldl (fun d z => d.sendRecord c act z) d
  (e.updCmd c.no fun k => { k with started := true, waitJ := some (e.host.jnext - 1) }).flushJournal

end Sys2Proof.Machine

/-- Zone management: Close and Open set their zones' states and complete; Finish, Reset and Offline put each zone's record in the journal and wait for it; a
report is sent once every zone is taken. Reservation commands complete with the status their stamp gave. -/
def Obligations.ZonesAndReservationsAreCarriedOut : Prop :=
  (∀ (s : State) (id : CmdId) (c : Cmd), SendReady s id c .close → Gives (.zoneClose id) s ((s.dev.sendPlain c .closed).settle)) ∧
  (∀ (s : State) (id : CmdId) (c : Cmd), SendReady s id c .openZone → Gives (.zoneOpen id) s ((s.dev.sendPlain c .explicitOpen).settle)) ∧
  (∀ (s : State) (id : CmdId) (c : Cmd), SendReady s id c .finish → c.zones ≠ [] → Gives (.zoneFinish id) s (sentZones s.dev c .finish)) ∧
  (∀ (s : State) (id : CmdId) (c : Cmd), SendReady s id c .reset → c.zones ≠ [] → Gives (.zoneReset id) s (sentZones s.dev c .reset)) ∧
  (∀ (s : State) (id : CmdId) (c : Cmd), SendReady s id c .offline → c.zones ≠ [] → Gives (.zoneOffline id) s (sentZones s.dev c .offline)) ∧
  (∀ (s : State) (id : CmdId) (c : Cmd), SendReady s id c .reset → c.zones = [] → Gives (.zoneReset id) s ((s.dev.endCmd c .success).settle)) ∧
  (∀ (s : State) (id : CmdId) (c : Cmd) (a : Nat) (x : Bool), s.dev.cmd id = some c → c.op = .zoneReceive a x → c.fresh = true →
    Gives (.zoneMgmtReceive id) s (s.dev.updCmd c.no fun k => { k with started := true })) ∧
  (∀ (s : State) (id : CmdId) (c : Cmd) (a : Nat) (b : Bool) (x : Ns), s.dev.cmd id = some c → c.op = .zoneReceive a b → s.dev.ns c.nsid = some x →
    c.started = true → c.zones = [] →
    ∃ zs, zs.length = x.blocks / 65536 - a / 65536 ∧ Gives (.zoneReportReady id) s ((s.dev.emit (.zones id zs)).endCmd c .success)) ∧
  (∀ (s : State) (id : CmdId) (c : Cmd) (r : ResArgs), s.dev.cmd id = some c → c.op = .resRegister r → c.held = false → c.silent = false →
    Gives (.reservationRegister id) s (s.dev.endCmd c (c.fail.getD .success))) ∧
  (∀ (s : State) (id : CmdId) (c : Cmd) (r : ResArgs), s.dev.cmd id = some c → c.op = .resAcquire r → c.held = false → c.silent = false →
    Gives (.reservationAcquire id) s (s.dev.endCmd c (c.fail.getD .success))) ∧
  (∀ (s : State) (id : CmdId) (c : Cmd) (r : ResArgs), s.dev.cmd id = some c → c.op = .resRelease r → c.held = false → c.silent = false →
    Gives (.reservationRelease id) s (s.dev.endCmd c (c.fail.getD .success))) ∧
  (∀ (s : State) (id : CmdId) (c : Cmd), s.dev.cmd id = some c → c.op = .resReport → c.held = false → c.silent = false →
    ∃ fs, ("GEN", c.resv.gen) ∈ fs ∧ ("RTYPE", c.resv.rtype) ∈ fs ∧
      Gives (.reservationReport id) s ((s.dev.emit (.fields (some id) fs)).endCmd c (c.fail.getD .success)))

/-- A write's data: at its pull point a scheduled unit takes its pages; data that has arrived and passes its protection check is stored in them, data that does
not ends the unit and all after it; a missed pull costs only time; the unit is durable once both trailer copies are on the medium.
Forwarding: a read's block whose best source is a pulled unit's page begins its copy and pins the page; the copy's end sends the block and unpins the page;
a block whose writer ended all-old is taken again from its next source. -/
def Obligations.WriteDataDurableAndForwarded : Prop :=
  (∀ (s : State) (id : CmdId) (k r : Nat) (c : Cmd) (u : WUnit) (a n : Nat) (pi : PiCtl), s.dev.cmd id = some c → c.op = .write a n pi →
    c.units[k]? = some u → u.st = .waiting → u.band ≠ none → (s.dev.allocPages r u.n).1.length = u.n →
    Gives (.pullPoint id k r) s
      ((s.dev.allocPages r u.n).2.updUnit c.no k fun v => { v with pages := (s.dev.allocPages r u.n).1, st := .pulling })) ∧
  (∀ (s : State) (id : CmdId) (k r : Nat) (c : Cmd) (u : WUnit), s.dev.cmd id = some c → c.units[k]? = some u →
    (s.dev.allocPages r u.n).1.length ≠ u.n → Gives (.pullPoint id k r) s s.dev) ∧
  (∀ (s : State) (id : CmdId) (k : Nat) (bs : List Blk) (c : Cmd) (u : WUnit) (x : Ns), s.dev.cmd id = some c → c.units[k]? = some u →
    s.dev.ns c.nsid = some x → u.st = .pulling → bs.length = u.n → x.pit = 0 →
    GivesThat (.pullComplete id k bs) s fun e =>
      (∀ c' ∈ e.host.cmds, c'.no = c.no → ∀ u', c'.units[k]? = some u' → u'.st = .pulled) ∧ e.out = s.dev.out ∧ e.regs = s.dev.regs ∧
      ∀ p, p ∉ u.pages → e.page p = s.dev.page p) ∧
  (∀ (s : State) (id : CmdId) (k : Nat) (bs : List Blk) (c : Cmd) (u : WUnit) (x : Ns) (st : Status), s.dev.cmd id = some c → c.units[k]? = some u →
    s.dev.ns c.nsid = some x → u.st = .pulling → bs.length = u.n →
    (bs.zipIdx.findSome? fun q => piCheck x c.op.pi (64 * k + q.2) q.1) = some st →
    Gives (.pullComplete id k bs) s ((s.dev.failFrom c.no k st).settle)) ∧
  (∀ (s : State) (id : CmdId) (k : Nat), Gives (.pullMissed id k) s s.dev) ∧
  (∀ (s : State) (id : CmdId) (k : Nat) (c : Cmd) (u : WUnit), s.dev.unitOf ⟨id, k, 0⟩ = some (c, u) → u.st = .writing →
    (∃ m ∈ s.dev.bandUnits (u.band.getD 0), m.seq = u.seq ∧ m.c0 = .good ∧ m.c1 = .good) → s.dev.verdictsDue id k = false →
    Gives (.unitDurable id k) s
      (((((s.dev.unitNew c.no k).closeIfFull c.nsid (u.lba / 65536) (u.band.getD 0)).fragCheck).settle).journalFull)) ∧
  (∀ (s : State) (id : CmdId) (k : Nat) (c : Cmd) (u : WUnit), s.dev.unitOf ⟨id, k, 0⟩ = some (c, u) →
    (∀ m ∈ s.dev.bandUnits (u.band.getD 0), ¬(m.seq = u.seq ∧ m.c0 = .good ∧ m.c1 = .good)) → Gives (.unitDurable id k) s s.dev) ∧
  (∀ (s : State) (id wid : CmdId) (k p : Nat) (r w : Cmd) (u : WUnit) (b : RBlk) (rest : List Src), s.dev.cmd id = some r → s.dev.cmd wid = some w →
    w.units[k]? = some u → u.st = .pulled → r.blocks = [b] → b.sent = false → b.copying = none → b.chain = .fwd w.no k :: rest →
    u.pages[r.op.slba + 0 - u.lba]? = some p →
    Gives (.forwardCopy id wid k) s
      ((s.dev.updCmd r.no fun c => { c with started := true, blocks := c.blocks.modify 0 fun x => { x with copying := some p } }).setPins p
        (Sparse.cnt s.dev.host.pins p + 1))) ∧
  (∀ (s : State) (id : CmdId) (p : Nat) (c : Cmd) (x : Ns) (b : RBlk), s.dev.cmd id = some c → s.dev.ns c.nsid = some x → c.blocks = [b] →
    b.copying = some p → s.dev.pageGood p = true →
    Gives (.pageUnpin id p) s
      (((((s.dev.updCmd c.no fun k => { k with blocks := k.blocks.modify 0 fun r => { r with copying := none } }).sendBlk c x 0
        (s.dev.pageBlk p)).unpin p)).settle)) ∧
  (∀ (s : State) (id : CmdId) (p : Nat) (c : Cmd) (x : Ns), s.dev.cmd id = some c → s.dev.ns c.nsid = some x → (∀ b ∈ c.blocks, b.copying ≠ some p) →
    Gives (.pageUnpin id p) s s.dev) ∧
  (∀ (s : State) (id : CmdId) (c c' : Cmd) (x : Ns) (b : RBlk) (rest : List Src), s.dev.cmd id = some c → s.dev.ns c.nsid = some x → c.blocks = [b] →
    b.copying = none → b.chain = .gone :: rest →
    (s.dev.updCmd c.no fun k => { k with blocks := k.blocks.modify 0 fun r => { r with chain := r.chain.tail, sent := false } }).cmdNo c.no = some c' →
    Gives (.forwardReread id) s
      (((s.dev.updCmd c.no fun k => { k with blocks := k.blocks.modify 0 fun r => { r with chain := r.chain.tail, sent := false } }).takeBlk c' x 0).settle))

/-! ### The store -/

/-- The journal: while bands take units its timer writes a sector of the pending records and the frontiers; the oldest written sector, once committed, stands on
the medium; a checkpoint snapshots the tables into the older area, and complete frees the journal before its start. -/
def Obligations.JournalAndCheckpointsKeepTheMap : Prop :=
  (∀ s : State, s.dev.openBands = [] → Gives .journalFlushTimer s s.dev) ∧
  (∀ s : State, s.dev.openBands ≠ [] →
    GivesThat .journalFlushTimer s fun e =>
      e.host.jpend = s.dev.host.jpend.drop (126 - s.dev.openBands.length) ∧ e.host.jflight.length = s.dev.host.jflight.length + 1 ∧
      e.host.tables = s.dev.host.tables ∧ e.medium = s.dev.medium ∧ Untouched [] s.dev e) ∧
  (∀ s : State, s.dev.host.jflight = [] → Gives .journalSectorCommitted s s.dev) ∧
  (∀ (s : State) (n : Nat) (rest : List (List JPend)) (b i : Nat), s.dev.host.jflight = [⟨n, .frontier b i, none⟩] :: rest → s.dev.host.cmds = [] →
    s.dev.host.tables.bands = [] →
    GivesThat .journalSectorCommitted s fun e =>
      e.medium.journal = s.dev.medium.journal ++ [⟨s.dev.host.jsector, [.frontier b i]⟩] ∧ e.host.jflight = rest ∧
      e.host.jsector = s.dev.host.jsector + 1 ∧ e.host.jdone = max s.dev.host.jdone n ∧ Untouched [] s.dev e) ∧
  (∀ s : State, s.dev.host.check = none → s.dev.rd HS_STORE_STS_REBUILD = 2 →
    12288 ≤ s.dev.medium.journal.length ∨ s.dev.host.checkAt + 3600000000 ≤ s.dev.chron.chr →
    GivesThat .checkpointStart s fun e =>
      e.host.check = some s.dev.medium.olderIsB ∧ e.host.checkAt = s.dev.chron.chr ∧
      (if s.dev.medium.olderIsB then e.medium.checkB else e.medium.checkA) =
        some { complete := false, start := s.dev.host.jsector, seq := s.dev.host.seq - 1, tables := s.dev.host.tables } ∧
      (if s.dev.medium.olderIsB then e.medium.checkA = s.dev.medium.checkA else e.medium.checkB = s.dev.medium.checkB) ∧ Untouched [] s.dev e) ∧
  (∀ s : State, s.dev.host.check ≠ none → Gives .checkpointStart s s.dev) ∧
  (∀ (s : State) (c : Checkpoint), s.dev.host.check = some false → s.dev.medium.checkA = some c → s.dev.medium.checkB = none →
    GivesThat .checkpointComplete s fun e =>
      e.host.check = none ∧ e.medium.checkA = some { c with complete := true } ∧ e.medium.everCheck = true ∧
      e.medium.journal = s.dev.medium.journal.filter (fun x => decide (c.start ≤ x.no)) ∧ Untouched [] s.dev e)

/-- The map is rebuilt once, at speed: a new drive starts empty, a drive that has lost both checkpoints fails (event 0x1011, every controller fatal); complete, the
rebuild is recorded and the store ready; chunk-table pages load one by one until all are there; HS_STORE_SEQL answers the next sequence.
Bands: a closed band first in line for its lane and read back clean is verified and recorded; garbage collection copies the next run of current blocks of
the source band into the lane's open pool band, or gives an emptied band up; a durable move takes only what still names its source. -/
def Obligations.RebuildAndBands : Prop :=
  (∀ (s : State) (o : RebuildObs), s.dev.atSpeed = false ∨ s.dev.rd HS_STORE_STS_REBUILD ≠ 0 → Gives (.mapRebuild o) s s.dev) ∧
  (∀ (s : State) (o : RebuildObs), s.dev.released = true → s.dev.atSpeed = true → s.dev.rd HS_STORE_STS_REBUILD = 0 → s.dev.power.retain = .out →
    s.dev.medium.checkA = none → s.dev.medium.checkB = none → s.dev.medium.everCheck = false → s.dev.medium.journal = [] →
    GivesThat (.mapRebuild o) s fun e =>
      e.rd HS_STORE_STS_REBUILD = 1 ∧ e.host.tables = {} ∧ e.host.seq = s.dev.medium.highest + 1 ∧ e.host.loaded = none ∧
      Untouched [HS_STORE_STS] s.dev e) ∧
  (∀ (s : State) (o : RebuildObs), s.dev.released = true → s.dev.atSpeed = true → s.dev.rd HS_STORE_STS_REBUILD = 0 → s.dev.power.retain = .out →
    o.noHeadA = true → o.noHeadB = true → s.dev.medium.everCheck = true →
    GivesThat (.mapRebuild o) s fun e =>
      e.rd HS_STORE_STS_REBUILD = 3 ∧ (∀ c ∈ s.dev.ctrls, (e.ctrl c).cfsRebuild = true) ∧ Untouched [HS_STORE_STS, RG_LOGSTAT] s.dev e) ∧
  (∀ s : State, s.dev.rd HS_STORE_STS_REBUILD = 1 →
    GivesThat .rebuildComplete s fun e =>
      e.rd HS_STORE_STS_REBUILD = 2 ∧ e.host.seq = s.dev.host.seq + 1 ∧ e.host.tables = s.dev.host.tables ∧ Untouched [HS_STORE_STS, RG_LOGSTAT] s.dev e) ∧
  (∀ s : State, s.dev.rd HS_STORE_STS_REBUILD ≠ 1 → Gives .rebuildComplete s s.dev) ∧
  (∀ (s : State) (n p : Nat) (ps : List Nat), s.dev.host.loaded = some ps → nsKey n p ∉ ps →
    Gives (.chunkPageLoad n p) s (s.dev.updHost fun h =>
      { h with loaded := (if s.dev.allPages.length ≤ ps.length + 1 then none else some (ps ++ [nsKey n p])) })) ∧
  (∀ (s : State) (who : Initiator),
    GivesThat (.hsStoreSeqlRead who) s fun e =>
      e.out = s.dev.out ++ [.reply none (.data (s.dev.host.seq % 2 ^ 32))] ∧ (who, s.dev.host.seq / 2 ^ 32 % 2 ^ 32) ∈ e.host.seqLatch ∧
      e.host.seq = s.dev.host.seq ∧ Untouched [] s.dev e) ∧
  (∀ (s : State) (b : Nat) (o : VerifyObs) (x : Band), s.dev.host.tables.band b = some x → x.st = .closed → s.dev.host.verify = [b] → o.weak = [] →
    o.failed = [] →
    Gives (.bandVerify b o) s
      ((Device.log (((s.dev.queueSeq fun q => .bandVerified q b).updTables fun t => t.updBand b fun y =>
        { y with st := .verified, first := y.first || o.parity }).updHost fun h => { h with verify := h.verify.filter (fun n => n != b) }) 0 0x1013
        [b, 0, 0]).journalFull)) ∧
  (∀ (s : State) (b : Nat) (o : VerifyObs) (x : Band), s.dev.host.tables.band b = some x → x.st ≠ .closed → Gives (.bandVerify b o) s s.dev) ∧
  (∀ (s : State) (l : Lane) (pl : Place), s.dev.gcSource l = none → Gives (.gcMove l pl) s s.dev) ∧
  (∀ (s : State) (l : Lane) (pl : Place) (b : Nat), s.dev.gcSource l = some b → firstRun (s.dev.currentBlocks b) = none →
    Gives (.gcMove l pl) s (s.dev.gcFree b)) ∧
  (∀ (s : State) (l : Lane) (pl : Place) (b i nsid lba n p : Nat), s.dev.gcSource l = some b →
    firstRun (s.dev.currentBlocks b) = some (i, (nsid, (lba, n))) → s.dev.host.moves = [] → s.dev.poolBand l = some p → s.dev.fits p n = true →
    s.dev.bandQuiet p = true →
    GivesThat (.gcMove l pl) s fun e =>
      ∃ m, Sparse.find e.host.moves p = some m ∧ m.src = some (b, i) ∧ m.kind = 3 ∧ m.nsid = nsid ∧ m.lba = lba ∧ m.n = n ∧ m.seq = s.dev.host.seq ∧
        e.host.seq = s.dev.host.seq + 1 ∧ Untouched [] s.dev e) ∧
  (∀ (s : State) (p : Nat) (m : MUnit), Sparse.find s.dev.host.moves p = some m →
    Gives (.moveDurable p) s ((((((((s.dev.updBandUnits p fun ms => ms.map fun x =>
      if x.seq = m.seq then { x with written := m.n + 2, c0 := .good, c1 := .good } else x).updHost fun h =>
      { h with moves := Sparse.del h.moves p }).updTables fun t => t.applyUnit false m.nsid m.lba m.n p m.index m.src).queueRec
      (.unit m.seq m.nsid m.lba m.n p m.index m.src)).queueRec (.moveSource m.seq (m.src.getD (0, 0)).1 (m.src.getD (0, 0)).2)).gcFree
      (m.src.getD (0, 0)).1).fragCheck).settle)) ∧
  (∀ (s : State) (p : Nat), Sparse.find s.dev.host.moves p = none → Gives (.moveDurable p) s s.dev)

/-! ### Read channel -/

/-- The sync candidates kept: at most three of those found, within the window and the threshold, in the rank order of distance, |position|, position.
The recovery order: none with replays off or after step 5; no alignment of steps 2 to 4 is tried twice on the main predictor set; with none left, or the
attempts used up, step 5 takes the earliest failed attempt with the fewest unsatisfied checks. -/
def Obligations.SyncRankingAndRecoveryOrder : Prop :=
  (∀ (w t : Nat) (cs : List (Nat × Int)),
    (rankCands w t cs).length ≤ 3 ∧ (∀ c ∈ rankCands w t cs, c ∈ cs ∧ c.1 ≤ t ∧ c.2.natAbs ≤ w) ∧
    (rankCands w t cs).Pairwise (fun a b => candLe a b = true) ∧
    ∀ c ∈ cs, c.1 ≤ t → c.2.natAbs ≤ w → c ∉ rankCands w t cs → ∀ a ∈ rankCands w t cs, candLe a c = true) ∧
  (∀ (s : RSlot) (n : Nat), s.nextAttempt true n = none) ∧ (∀ (s : RSlot) (o : Bool) (n : Nat), 5 ≤ s.step → s.nextAttempt o n = none) ∧
  (∀ (s : RSlot) (n st : Nat) (p : Int), s.nextAttempt false n = some (st, p) → st ≠ 5 →
    s.replays < n ∧ (st, p) ∈ s.plan ∧ ∀ a ∈ s.tried, a.p = p → a.alt = true) ∧
  (∀ (s : RSlot) (n : Nat) (p : Int), s.step < 5 → n ≤ s.replays → s.nextAttempt false n = some (5, p) →
    ∃ a ∈ s.tried, a.p = p ∧ a.conv = false ∧ ∀ b ∈ s.tried, b.conv = false → a.usc ≤ b.usc)

/-- Reading: a slot that arrives under its owner's read arm is refused with outcome 15 while the channel is off or its table rejected, held while no replay
place or standby page is free, and captured otherwise; a captured sector's candidates are ranked into its slot.
An attempt that converges on its own band and slot with a good seal ends its sector well; the stripe code clears and starts a group, and ends it solved or,
with more erasures than P or bad accumulators, failed; STOP ends what waits at step 6. -/
def Obligations.ReadGateAndDecoding : Prop :=
  (∀ (s : State) (l : Lane) (k : Nat) (x : Int), (s.dev.passOwner l).owner l = none → Gives (.readGateOpen l k x) s (s.dev.passOwner l)) ∧
  (∀ (s : State) (l : Lane) (k : Nat) (x : Int) (q : SeqId) (o : EcOp), (s.dev.passOwner l).owner l = some q →
    ((s.dev.passOwner l).ec q).op = some o → k ∈ o.rArms → (s.dev.passOwner l).capturing l = false → (s.dev.passOwner l).stream l = l →
    s.dev.bit (CH_CTRL_EN l) = false →
    Gives (.readGateOpen l k x) s
      (((s.dev.passOwner l).updOp q fun o => { o with rArms := o.rArms.filter (fun n => n != k) }).report q k 15)) ∧
  (∀ (s : State) (l : Lane) (k : Nat) (x : Int) (q : SeqId) (o : EcOp), (s.dev.passOwner l).owner l = some q →
    ((s.dev.passOwner l).ec q).op = some o → k ∈ o.rArms → (s.dev.passOwner l).capturing l = false → (s.dev.passOwner l).stream l = l →
    s.dev.bit (CH_CTRL_EN l) = true → s.dev.bit (CH_STATUS_BADTBL l) = false → s.dev.standby l = [] →
    Gives (.readGateOpen l k x) s
      (((s.dev.passOwner l).updOp q fun o => { o with rArms := o.rArms.filter (fun n => n != k) }).replayHold l q k)) ∧
  (∀ (s : State) (l : Lane) (k p : Nat) (ps : List Nat) (x : Int) (q : SeqId) (o : EcOp), (s.dev.passOwner l).owner l = some q →
    ((s.dev.passOwner l).ec q).op = some o → k ∈ o.rArms → s.dev.duplex = false → (s.dev.ch l).slots = [] →
    s.dev.bit (CH_CTRL_EN l) = true → s.dev.bit (CH_STATUS_BADTBL l) = false → s.dev.standby l = p :: ps →
    GivesThat (.readGateOpen l k x) s fun e =>
      (∃ r, (e.ch l).slots = [r] ∧ r.k = k ∧ r.seq = q ∧ r.captured = false ∧ r.band = o.band ∧ r.slot = (o.first + k) % 2 ^ 32 ∧ r.home = l) ∧
      e.rd (TR_STATUS_LOCK l) = 1 ∧ e.rd (CH_STATUS_HOLD l) = 0 ∧ Untouched [TR_STATUS l, CH_STATUS l] s.dev e) ∧
  (∀ (s : State) (l : Lane) (o : CaptureObs), (∀ r ∈ (s.dev.ch l).slots, r.captured = true) → Gives (.sectorCaptureComplete l o) s s.dev) ∧
  (∀ (s : State) (l : Lane) (o : CaptureObs) (r : RSlot), (s.dev.ch l).slots.find? (fun r => !r.captured) = some r → r.linkErr = false →
    s.dev.bit (CH_CTRL_SCAN l) = false ∨ o.noPreamble = false →
    GivesThat (.sectorCaptureComplete l o) s fun e =>
      ∃ x ∈ (e.ch l).slots, x.key = r.key ∧ x.captured = true ∧
        x.cands = (rankCands (getField (r.word (SYNC_CTRL l)) 8 6) (getField (r.word (SYNC_CTRL l)) 0 3) o.cands).map (fun c => c.2)) ∧
  (∀ (s : State) (l : Lane) (o : DecodeObs), (s.dev.ch l).dec = none → Gives (.ldpcAttemptComplete l o) s s.dev) ∧
  (∀ (s : State) (l : Lane) (o : DecodeObs) (key : Lane × Bool) (r : RSlot), s.dev.duplex = false → (s.dev.ch l).dec = some key →
    (s.dev.ch l).slots.find? (fun r => r.key == key) = some r → o.parity = false → o.conv = true → o.crc = true → o.band = r.band → o.slot = r.slot →
    Gives (.ldpcAttemptComplete l o) s
      (((((s.dev.updCh l fun c => { c with dec := none }).ldpcStatus l true true
        (min o.iter (getField (r.word (LDPC_CTRL l)) (if r.step = 1 then 8 else 16) 6)) o.usc).sectorGood l r
        (min o.iter (getField (r.word (LDPC_CTRL l)) (if r.step = 1 then 8 else 16) 6)))).startDecoders l)) ∧
  (∀ (s : State) (l : Lane) (m : Bool) (n : Nat), (∀ q ∈ laneSeqs l, (s.dev.ec q).op = none) → 1 ≤ n → n ≤ s.dev.rd CB_STRIPE_G →
    GivesThat (.stripeStart l m n) s fun e =>
      e.rd (STRIPE_STATUS_BUSY l) = 1 ∧ e.rd (STRIPE_STATUS_DONE l) = 0 ∧ e.rd (STRIPE_STATUS_FAIL l) = 0 ∧ e.rd (STRIPE_STATUS_ERASED l) = 0 ∧
      Untouched [STRIPE_CTRL l, STRIPE_STATUS l] s.dev e) ∧
  (∀ (s : State) (l : Lane) (b g : Nat) (bad : List Nat), s.dev.bit (STRIPE_STATUS_BUSY l) = true → (s.dev.ch l).pend = [] →
    s.dev.rd (STRIPE_STATUS_ERASED l) ≤ s.dev.stripeP →
    GivesThat (.stripeSolveComplete l b g bad false) s fun e =>
      e.rd (STRIPE_STATUS_BUSY l) = 0 ∧ e.rd (STRIPE_STATUS_DONE l) = 1 ∧ e.rd (CH_INT_STRIPE_DONE l) = 1 ∧
      Untouched [STRIPE_STATUS l, CH_INT l] s.dev e) ∧
  (∀ (s : State) (l : Lane) (b g : Nat) (bad : List Nat), s.dev.bit (STRIPE_STATUS_BUSY l) = true → (s.dev.ch l).pend = [] →
    s.dev.stripeP < s.dev.rd (STRIPE_STATUS_ERASED l) →
    GivesThat (.stripeSolveComplete l b g bad false) s fun e =>
      e.rd (STRIPE_STATUS_BUSY l) = 0 ∧ e.rd (STRIPE_STATUS_DONE l) = 1 ∧ e.rd (STRIPE_STATUS_FAIL l) = 1 ∧ e.rd (CH_INT_STRIPE_FAIL l) = 1 ∧
      Untouched [STRIPE_STATUS l, CH_INT l, RG_LOGSTAT] s.dev e) ∧
  (∀ (s : State) (l : Lane), (s.dev.ch l).slots = [] → (s.dev.ch l).pend = [] → Gives (.chStop l) s s.dev) ∧
  (∀ (s : State) (l : Lane) (p : PendSect), (s.dev.ch l).slots = [] → (s.dev.ch l).pend = [p] →
    GivesThat (.chStop l) s fun e =>
      (e.ch l).pend = [] ∧ e.rd (CH_INT_SECT_FAIL l) = 1 ∧ e.rd (RPL_STATUS_STEP l) = 7 ∧
      Untouched [CH_INT l, RPL_STATUS l, RG_LOGSTAT] s.dev e)

/-! ### Eltik link, duplex, same-pass verification -/

/-- FORCE is taken in duplex for values 0 to 2, at once outside a capture; a verdict within VWEAK and with its seal passes, any other is a counted miss held
against its slot; a verdict 17 µs overdue ends verification. -/
def Obligations.ForceAndVerdictsFollowDuplexRules : Prop :=
  (∀ (s : State) (v : Nat), s.dev.duplex = false ∨ v % 4 = 3 → Gives (.dxForceWrite v) s s.dev) ∧
  (∀ (s : State) (v : Nat), s.dev.duplex = true → v % 4 ≠ 3 → s.dev.capturing .ln0 = true →
    Gives (.dxForceWrite v) s ((s.dev.wr DX_CTRL_FORCE (v % 4)).wr DX_STATUS_FB 0)) ∧
  (∀ (s : State) (v : Nat), s.dev.duplex = true → v % 4 ≠ 3 → s.dev.capturing .ln0 = false →
    Gives (.dxForceWrite v) s (((s.dev.wr DX_CTRL_FORCE (v % 4)).wr DX_STATUS_FB 0).dxBoundary)) ∧
  (∀ (s : State) (q : SeqId) (k it : Nat) (f : Bool) (o : EcOp), q.lane = .ln0 → s.dev.verifyOn = true → (s.dev.ec q).op = some o →
    o.vpend = [(k, none)] → o.ending = none → it ≤ s.dev.elk.vweak → s.dev.elk.parSect = false → s.dev.elk.vweak < 64 →
    GivesThat (.verifyVerdict q k true it true f) s fun e =>
      e.rd VFY_STATUS_PASS = 1 ∧ e.rd VFY_STATUS_ITER = it ∧ e.rd VFY_STATUS_MISSES = s.dev.rd VFY_STATUS_MISSES ∧
      (e.ec q).op = some { o with vpend := [] } ∧ Untouched [VFY_STATUS] s.dev e) ∧
  (∀ (s : State) (q : SeqId) (k it : Nat) (f : Bool) (o : EcOp), q.lane = .ln0 → s.dev.verifyOn = true → (s.dev.ec q).op = some o →
    o.vpend = [(k, none)] → o.ending = none → s.dev.elk.parSect = false →
    GivesThat (.verifyVerdict q k false it true f) s fun e =>
      e.rd VFY_STATUS_PASS = 0 ∧ e.rd VFY_STATUS_MISSES = min (s.dev.rd VFY_STATUS_MISSES + 1) 65535 ∧ e.rd DX_INT_VFY_MISS = 1 ∧
      (e.ec q).op = some { o with vpend := [], vmiss := o.vmiss ++ [k] } ∧ Untouched [VFY_STATUS, DX_INT, RG_LOGSTAT] s.dev e) ∧
  (∀ (s : State) (q : SeqId) (k : Nat) (o : EcOp), (s.dev.ec q).op = some o → (∃ p ∈ o.vpend, p.1 = k) → s.dev.verifyOn = true →
    Gives (.verdictOverdue q k) s ((s.dev.updElk fun e => { e with overdue := true }).loseVerify 2))

/-! ### Write path and preamp bridge -/

/-- The write gate: it opens for the armed slot only when the conditions all hold and its page is good, and closes when the sector is complete; a bad page is a
page fault; an urgent request marks what it waits for.
Inhibits: an unmasked shock inhibits both used lanes at once and its source ends when both inputs are quiet; eight quiet samples in FOLLOW end the
position inhibit; WG_INH takes SWINH and clears the sticky bits written 1. -/
def Obligations.WriteGateAndInhibits : Prop :=
  (∀ (s : State) (l : Lane) (k n : Nat) (r : Option SectorRef) (p : Bool), (s.dev.passOwner l).owner l = none →
    Gives (.writeSlotStart l k r n p) s (s.dev.passOwner l)) ∧
  (∀ (s : State) (l : Lane) (k n : Nat) (p : Bool) (q : SeqId) (o : EcOp), (s.dev.passOwner l).owner l = some q →
    ((s.dev.passOwner l).ec q).op = some o → o.wArms.head? = some k → (s.dev.passOwner l).gateOpen l = false →
    (s.dev.passOwner l).slotPage o k = 0xFFFF → (s.dev.passOwner l).slotParity o k = false → (s.dev.passOwner l).gateAllowed l = true →
    (s.dev.passOwner l).hasSens l = false →
    Gives (.writeSlotStart l k none n p) s
      ((s.dev.passOwner l).updWr l fun w => { w with gate := some (q, k, none), rate := (s.dev.passOwner l).rd (TR_STEP_STEP l) })) ∧
  (∀ (s : State) (l : Lane) (k n : Nat) (r : Option SectorRef) (p : Bool) (q : SeqId) (o : EcOp), (s.dev.passOwner l).owner l = some q →
    ((s.dev.passOwner l).ec q).op = some o → o.wArms.head? = some k → (s.dev.passOwner l).gateOpen l = false →
    (s.dev.passOwner l).slotParity o k = false → (s.dev.passOwner l).slotPage o k ≠ 0xFFFF →
    (s.dev.passOwner l).pageGood ((s.dev.passOwner l).slotPage o k) = false →
    Gives (.writeSlotStart l k r n p) s ((s.dev.passOwner l).pageFault l q k ((s.dev.passOwner l).slotPage o k) r)) ∧
  (∀ (s : State) (l : Lane) (k n : Nat) (r : Option SectorRef) (q : SeqId) (o : EcOp), (s.dev.passOwner l).owner l = some q →
    ((s.dev.passOwner l).ec q).op = some o → o.wArms.head? = some k → (s.dev.passOwner l).gateOpen l = false →
    (s.dev.passOwner l).slotParity o k = true →
    Gives (.writeSlotStart l k r n true) s ((s.dev.passOwner l).wr (CH_INT_PARITY l) 1)) ∧
  (∀ (s : State) (l : Lane), (s.dev.wrp l).gate = none → Gives (.sectorWriteComplete l) s s.dev) ∧
  (∀ (s : State) (l : Lane) (q : SeqId) (k : Nat) (o : EcOp), (s.dev.wrp l).gate = some (q, k, none) → (s.dev.wrp l).stopAfter = false →
    (s.dev.ec q).op = some o → o.verify = false →
    GivesThat (.sectorWriteComplete l) s fun e =>
      (e.wrp l).gate = none ∧ (∃ o', (e.ec q).op = some o' ∧ o'.wArms = o.wArms.filter (fun n => n != k)) ∧ e.medium = s.dev.medium ∧
      Untouched [EC_PROG q] s.dev e) ∧
  (∀ (s : State) (l : Lane) (r t : Option Nat),
    GivesThat (.writeRequestUrgent l r t) s fun e =>
      (e.wrp l).urgent = true ∧ (∀ w ∈ e.pool.waiting, w.party = l.party → r = some w.id → w.urgent = true) ∧
      (∀ c : CipherEntry, c ∈ (if l = .ln0 then e.cipher.q0 else e.cipher.q1) → t = some c.tag → c.urgent = true) ∧ Untouched [] s.dev e) ∧
  (∀ (s : State) (b : Bool), (s.dev.rd RG_SHOCK_STUCK).testBit (if b then 1 else 0) = false → s.dev.shockInh = false →
    GivesThat (.shockInput b true) s fun e =>
      (if b then e.shock2 else e.shock1) = true ∧ e.shockInh = true ∧ e.rd (WG_INH_SHOCK .ln0) = 1 ∧ e.rd (WR_INT_SHOCK_INH .ln0) = 1 ∧
      (s.dev.twoLane = true → e.rd (WG_INH_SHOCK .ln1) = 1)) ∧
  (∀ (s : State) (b : Bool),
    GivesThat (.shockInput b false) s fun e =>
      (if b then e.shock2 else e.shock1) = false ∧ e.shockInh = s.dev.shockInh ∧ (e.rd RG_SHOCK_IN).testBit (if b then 1 else 0) = false ∧
      Untouched [RG_SHOCK] s.dev e) ∧
  (∀ s : State, s.dev.shock1 = false → s.dev.shock2 = false → Gives .shockInhibitRelease s { s.dev with shockInh := false }) ∧
  (∀ s : State, s.dev.shock1 = true ∨ s.dev.shock2 = true → Gives .shockInhibitRelease s s.dev) ∧
  (∀ (s : State) (l : Lane), (s.dev.sv l).st = .follow → 8 ≤ (s.dev.sv l).pesOk → Gives (.pesInhibitRelease l) s (s.dev.wr (SV_STATUS_INH l) 0)) ∧
  (∀ (s : State) (l : Lane), (s.dev.sv l).pesOk < 8 → Gives (.pesInhibitRelease l) s s.dev) ∧
  (∀ (s : State) (l : Lane) (v : Word), v &&& 0x80000000 = 0 →
    Gives (.wgInhWrite l v) s
      (s.dev.setWord (WG_INH l) ((s.dev.word (WG_INH l) &&& ~~~(v &&& 0x1E)) &&& 0x7FFFFFFF))) ∧
  (∀ (s : State) (l : Lane) (v : Word), v &&& 0x80000000 = 0x80000000 → s.dev.gateOpen l = false →
    GivesThat (.wgInhWrite l v) s fun e => e.rd (WG_INH_SWINH l) = 1 ∧ e.word (WG_INH l) &&& (v &&& 0x1E) = 0 ∧ e.gateOpen l = false)

/-- The link: a good word ends a run of bad ones, a bad one is counted; a side that is up sends heartbeats; a lost link trains again, at most three attempts, and
training brings both sides up.
The bridge: it is enabled or refused, sends its frames in order while the link is up, repeats a key register whose read-back differs, reads FAULT, and with
the link down brings it up after two good reads; a direct frame is queued or refused. -/
def Obligations.EltikLinkAndPreampBridge : Prop :=
  (∀ (s : State) (l : Lane) (p : Bool), s.dev.bit (ELK_STATUS_UP l) = false → Gives (.eltikWordReceive l p) s s.dev) ∧
  (∀ (s : State) (l : Lane), s.dev.bit (ELK_STATUS_UP l) = true →
    GivesThat (.eltikWordReceive l false) s fun e => (match l with | .ln0 => e.elk.bad0 | .ln1 => e.elk.bad1) = 0 ∧ Untouched [] s.dev e) ∧
  (∀ (s : State) (l : Lane), s.dev.bit (ELK_STATUS_UP l) = true →
    GivesThat (.eltikWordReceive l true) s fun e =>
      e.rd (ELK_STATUS_PAR_CNT l) = min (s.dev.rd (ELK_STATUS_PAR_CNT l) + 1) 255 ∧
      (match l with | .ln0 => e.elk.bad0 = s.dev.elk.bad0 + 1 | .ln1 => e.elk.bad1 = s.dev.elk.bad1 + 1) ∧
      Untouched [ELK_STATUS l, DX_INT] s.dev e) ∧
  (∀ (s : State) (l : Lane), s.dev.bit (ELK_STATUS_UP l) = true → Gives (.eltikHeartbeat l) s (s.dev.emit (.heartbeat l))) ∧
  (∀ (s : State) (l : Lane), s.dev.bit (ELK_STATUS_UP l) = false → Gives (.eltikHeartbeat l) s s.dev) ∧
  (∀ s : State, s.dev.bit (ELK_STATUS_UP .ln0) = true →
    Gives (.eltikLinkDown false) s
      (((s.dev.linkLost.incSat (ELK_STATUS_DOWN_CNT .ln0)).incSat (ELK_STATUS_DOWN_CNT .ln1)).log 4 0x2010 [0])) ∧
  (∀ s : State, s.dev.bit (ELK_STATUS_UP .ln0) = true → s.dev.elk.bad0 < 4 → s.dev.elk.bad1 < 4 → Gives (.eltikLinkDown true) s s.dev) ∧
  (∀ (s : State) (l : Lane), s.dev.bit (ELK_STATUS_UP .ln0) = false →
    Gives (.elkRetrain l) s (s.dev.updElk fun e => { e with training := true, tries := 3 })) ∧
  (∀ (s : State) (l : Lane), s.dev.bit (ELK_STATUS_UP .ln0) = true →
    Gives (.elkRetrain l) s (s.dev.linkLost.updElk fun e => { e with training := true, tries := 3 })) ∧
  (∀ s : State, s.dev.elk.training = true →
    GivesThat .eltikTrainComplete s fun e =>
      e.bit (ELK_STATUS_UP .ln0) = true ∧ e.bit (ELK_STATUS_UP .ln1) = true ∧ e.elk.training = false ∧
      Untouched [ELK_STATUS .ln0, ELK_STATUS .ln1, DX_STATUS, RG_LOGSTAT] s.dev e) ∧
  (∀ s : State, s.dev.elk.training = true →
    Gives .eltikRetrainTimeout s (s.dev.updElk fun e => { e with tries := e.tries - 1, training := decide (1 < e.tries) })) ∧
  (∀ (s : State) (l : Lane) (b : Nat), (s.dev.wrp l).frames = [] → Gives (.preampWriteFrame l b) s s.dev ∧ Gives (.preampReadFrame l b) s s.dev) ∧
  (∀ (s : State) (l : Lane) (b k : Nat) (f : PaFrame) (fs : List PaFrame), (s.dev.wrp l).frames = f :: fs → f.read = false → f.reg = some k →
    f.direct = false → f.again = false → keyReg k = true → b ≠ f.data → s.dev.bit (PA_CTRL_EN l) = true → s.dev.bit (PA_STATUS_LINK l) = true →
    GivesThat (.preampWriteFrame l b) s fun e =>
      e.out = s.dev.out ++ [.preamp l false f.addr f.data] ∧ (e.wrp l).frames = { f with again := true } :: fs ∧ Untouched [] s.dev e) ∧
  (∀ (s : State) (l : Lane) (b k : Nat) (f : PaFrame) (fs : List PaFrame), (s.dev.wrp l).frames = f :: fs → f.read = false → f.reg = some k →
    f.direct = false → keyReg k = false → s.dev.bit (PA_CTRL_EN l) = true → s.dev.bit (PA_STATUS_LINK l) = true →
    Gives (.preampWriteFrame l b) s
      ((((s.dev.updWr l fun w => { w with frames := fs }).emit (.preamp l false f.addr f.data)).updWr l fun w =>
        { w with logical := Sparse.ins w.logical k f.data }).paGood l)) ∧
  (∀ (s : State) (l : Lane) (v : Nat) (f : PaFrame) (fs : List PaFrame), (s.dev.wrp l).frames = f :: fs → f.read = true → f.direct = true →
    f.addr ≠ s.dev.paAddr l 7 → s.dev.bit (PA_CTRL_EN l) = true → s.dev.bit (PA_STATUS_LINK l) = true →
    GivesThat (.preampReadFrame l v) s fun e =>
      e.out = s.dev.out ++ [.preamp l true f.addr 0] ∧ (e.wrp l).frames = fs ∧ e.rd (PA_CMD_DATA l) = v % 65536 ∧ e.rd (PA_CMD_GO l) = 0 ∧
      Untouched [PA_CMD l] s.dev e) ∧
  (∀ (s : State) (l : Lane) (v : Nat), s.dev.bit (PA_CTRL_EN l) = true → s.dev.bit (PA_STATUS_LINK l) = true →
    Gives (.preampFaultPoll l v) s ((s.dev.emit (.preamp l true (s.dev.paAddr l 7) 0)).paFaultRead l v)) ∧
  (∀ (s : State) (l : Lane) (v : Nat), s.dev.bit (PA_CTRL_EN l) = true → s.dev.bit (PA_STATUS_LINK l) = false → bitsOf v 12 4 = 0b1010 →
    (s.dev.wrp l).goodReads = 0 →
    Gives (.preampLinkRetry l v) s ((s.dev.emit (.preamp l true (s.dev.paAddr l 7) 0)).updWr l fun w => { w with goodReads := 1 })) ∧
  (∀ (s : State) (l : Lane) (v : Nat), s.dev.bit (PA_CTRL_EN l) = true → s.dev.bit (PA_STATUS_LINK l) = false → bitsOf v 12 4 = 0b1010 →
    (s.dev.wrp l).goodReads = 1 →
    Gives (.preampLinkRetry l v) s (((((s.dev.emit (.preamp l true (s.dev.paAddr l 7) 0)).updWr l fun w =>
      { w with goodReads := 0, linkErrs := 0 }).wr (PA_STATUS_LINK l) 1).paFaultRead l v).paRewrite l)) ∧
  (∀ (s : State) (l : Lane), s.dev.paRefuses l = false → s.dev.held1 l = false →
    GivesThat (.paCtrlEnWrite l true) s fun e =>
      e.rd (PA_CTRL_EN l) = 1 ∧ e.rd (PA_STATUS_LINK l) = 1 ∧ e.rd (PA_STATUS_REFUSED l) = 0 ∧ Untouched [PA_CTRL l, PA_STATUS l] s.dev e) ∧
  (∀ (s : State) (l : Lane), s.dev.paRefuses l = true →
    Gives (.paCtrlEnWrite l true) s ((s.dev.wr (PA_STATUS_REFUSED l) 1).log l.src 0x2805 [s.dev.paProfile l])) ∧
  (∀ (s : State) (l : Lane) (rd_ : Bool) (a v : Nat), s.dev.bit (PA_CTRL_EN l) = true → s.dev.writeOp l = false →
    GivesThat (.paCmdGo l rd_ a v) s fun e =>
      (e.wrp l).frames = (s.dev.wrp l).frames ++ [{ read := rd_, addr := a % 128, data := v % 65536, reg := none, direct := true }] ∧
      e.rd (PA_CMD_GO l) = 1 ∧ e.rd (PA_CMD_REFUSED l) = 0 ∧ Untouched [PA_CMD l] s.dev e) ∧
  (∀ (s : State) (l : Lane) (rd_ : Bool) (a v : Nat), s.dev.bit (PA_CTRL_EN l) = false ∨ s.dev.writeOp l = true →
    GivesThat (.paCmdGo l rd_ a v) s fun e =>
      (e.wrp l).frames = (s.dev.wrp l).frames ∧ e.rd (PA_CMD_REFUSED l) = 1 ∧ Untouched [PA_CMD l] s.dev e)

/-- Adaptation: a load names the head and zone and waits for a capture to end; a good entry sets its registers after the counts have gone to memory, a bad one
is rejected; writes kept back take effect at the sector boundary; offset and asymmetry move one LSB toward their targets.
Write entries: a load waits for the gate; both entries good are applied, otherwise the load is bad with event 0x2807; the bridge is ready once heater and
MODE are written; the neighbour check and write calibration do what they find. -/
def Obligations.AdaptationAndWriteCalibration : Prop :=
  (∀ (s : State) (l : Lane) (h z : Nat), s.dev.loadIgnored l = true → Gives (.hzselLoad l h z) s s.dev) ∧
  (∀ (s : State) (l : Lane) (h z : Nat), s.dev.loadIgnored l = false → s.dev.capturing l = false → s.dev.gateOpen l = false →
    GivesThat (.hzselLoad l h z) s fun e =>
      (e.ch l).load = some (h % 16, z % 64) ∧ e.rd (HZSEL_HEAD l) = h % 16 ∧ e.rd (HZSEL_ZONE l) = z % 64 ∧ Untouched [HZSEL l] s.dev e) ∧
  (∀ (s : State) (l : Lane), (s.dev.ch l).load = none → Gives (.adaptationEntryFetched l) s s.dev) ∧
  (∀ (s : State) (h z : Nat), (s.dev.ch .ln1).load = some (h, z) → s.dev.entryReadable (s.dev.tableAddr (ADT_BASE_ADDR .ln1) h z 128) 128 = true →
    chEntryCheck (s.dev.memNum 128 (s.dev.tableAddr (ADT_BASE_ADDR .ln1) h z 128)) h z = 0 →
    Gives (.adaptationEntryFetched .ln1) s
      (((s.dev.updCh .ln1 fun c => { c with load := none }).flushCounts .ln1 false).applyChEntry .ln1
        (s.dev.memNum 128 (s.dev.tableAddr (ADT_BASE_ADDR .ln1) h z 128)) h z)) ∧
  (∀ (s : State) (h z : Nat), (s.dev.ch .ln1).load = some (h, z) → s.dev.entryReadable (s.dev.tableAddr (ADT_BASE_ADDR .ln1) h z 128) 128 = false →
    Gives (.adaptationEntryFetched .ln1) s ((s.dev.updCh .ln1 fun c => { c with load := none }).rejectLoad .ln1 h z 1)) ∧
  (∀ (s : State) (l : Lane), s.dev.capturing l = true → Gives (.sectorBoundary l) s s.dev) ∧
  (∀ s : State, s.dev.capturing .ln1 = false →
    GivesThat (.sectorBoundary .ln1) s fun e =>
      (e.ch .ln1).deferred = [] ∧ (e.ch .ln1).loadHeld = none ∧ e.rd (ADC_STATUS_CAL .ln1) = 0 ∧
      ((s.dev.ch .ln1).deferred = [] → Untouched [ADC_STATUS .ln1] s.dev e)) ∧
  (∀ (s : State) (l : Lane),
    GivesThat (.offsetAsymStep l) s fun e =>
      e.rdI (AFE_OFS_CUR l) = s.dev.rdI (AFE_OFS_CUR l) + (if s.dev.rdI (AFE_OFS_CUR l) < s.dev.rdI (AFE_OFS_TGT l) then 1
        else if s.dev.rdI (AFE_OFS_TGT l) < s.dev.rdI (AFE_OFS_CUR l) then -1 else 0) ∧
      e.rdI (AFE_ASYM_CUR l) = s.dev.rdI (AFE_ASYM_CUR l) + (if s.dev.rdI (AFE_ASYM_CUR l) < s.dev.rdI (AFE_ASYM_TGT l) then 1
        else if s.dev.rdI (AFE_ASYM_TGT l) < s.dev.rdI (AFE_ASYM_CUR l) then -1 else 0) ∧
      e.rdI (AFE_OFS_TGT l) = s.dev.rdI (AFE_OFS_TGT l) ∧ Untouched [AFE_OFS l, AFE_ASYM l] s.dev e) ∧
  (∀ (s : State) (l : Lane) (b o p : Int),
    GivesThat (.afeTempCorrection l b o p) s fun e =>
      ((e.ch l).biasAdj - (s.dev.ch l).biasAdj).natAbs ≤ 1 ∧ ((e.ch l).boostAdj - (s.dev.ch l).boostAdj).natAbs ≤ 1 ∧
      ((e.ch l).poleAdj - (s.dev.ch l).poleAdj).natAbs ≤ 1 ∧ (e.ch l).slots = (s.dev.ch l).slots ∧ Untouched [] s.dev e) ∧
  (∀ (s : State) (w n : Nat), (s.dev.ch .ln1).cnt = [(w, n)] →
    s.dev.memOpen (s.dev.tableAddr (CNT_BASE_ADDR .ln1) (s.dev.ch .ln1).hz.1 (s.dev.ch .ln1).hz.2 64) = true →
    GivesThat (.counterFlush .ln1 false) s fun e =>
      (e.ch .ln1).cnt = [] ∧
      (let a := s.dev.tableAddr (CNT_BASE_ADDR .ln1) (s.dev.ch .ln1).hz.1 (s.dev.ch .ln1).hz.2 64 + 4 * w
       e.memNum 4 a = min (s.dev.memNum 4 a + n) 0xFFFFFFFF ∧ ∀ b, b < a ∨ a + 4 ≤ b → e.memByte b = s.dev.memByte b) ∧
      ∀ a, e.word a = s.dev.word a) ∧
  (∀ (s : State) (l : Lane) (h z : Nat), s.dev.gateOpen l = false →
    Gives (.wselLoad l h z) s
      (((s.dev.wr (WSEL_HEAD l) (h % 16)).wr (WSEL_ZONE l) (z % 64)).updWr l fun w => { w with load := some (h % 16, z % 64) })) ∧
  (∀ (s : State) (l : Lane) (h z : Nat), s.dev.gateOpen l = true →
    Gives (.wselLoad l h z) s
      (((s.dev.wr (WSEL_HEAD l) (h % 16)).wr (WSEL_ZONE l) (z % 64)).updWr l fun w => { w with loadHeld := some (h % 16, z % 64) })) ∧
  (∀ (s : State) (l : Lane) (h z : Nat), (s.dev.wrp l).load = some (h, z) → s.dev.entryReadable (s.dev.wEntryAddr l h z) 64 = true →
    s.dev.entryReadable (s.dev.driftAddr l h) 16 = true → wEntryCheck (s.dev.memNum 64 (s.dev.wEntryAddr l h z)) h z = 0 →
    driftCheck (s.dev.memNum 16 (s.dev.driftAddr l h)) h = 0 →
    Gives (.writeEntryFetched l) s
      ((s.dev.updWr l fun w => { w with load := none }).applyWEntry l
        (wEntryOf (s.dev.memNum 64 (s.dev.wEntryAddr l h z)) (s.dev.memNum 16 (s.dev.driftAddr l h))))) ∧
  (∀ (s : State) (l : Lane) (h z : Nat), (s.dev.wrp l).load = some (h, z) → s.dev.entryReadable (s.dev.wEntryAddr l h z) 64 = false →
    GivesThat (.writeEntryFetched l) s fun e =>
      e.rd (WSEL_BAD l) = 1 ∧ e.rd (WSEL_LOADED l) = 0 ∧ e.rd (WR_INT_TBL_BAD l) = 1 ∧ (e.wrp l).entry = (s.dev.wrp l).entry ∧
      Untouched [WSEL l, WR_INT l, RG_LOGSTAT] s.dev e) ∧
  (∀ (s : State) (l : Lane), (s.dev.wrp l).stepsAsked = true → s.dev.paLogical l 0 % 4 = 3 → (s.dev.wrp l).frames = [] →
    Gives (.bridgeReady l) s (s.dev.updWr l fun w => { w with brReady := true })) ∧
  (∀ (s : State) (l : Lane), (s.dev.wrp l).stepsAsked = false → Gives (.bridgeReady l) s s.dev) ∧
  (∀ (s : State) (l : Lane) (b : Nat) (w x : List Nat) (f : Bool), (s.dev.wrp l).neighbour = false → Gives (.neighbourCheck l b w x f) s s.dev) ∧
  (∀ (s : State) (l : Lane) (b : Nat) (f : Bool) (x : Band), (s.dev.wrp l).neighbour = true → s.dev.host.tables.band b = some x →
    Gives (.neighbourCheck l b [] [] f) s
      ((s.dev.updWr l fun w => { w with neighbour := false, checked := (0, 0) }).log l.src 0x280E [0, 0])) ∧
  (∀ (s : State) (l : Lane) (m : List Nat), s.dev.calGrantOf l = none → Gives (.writeCalibration l m) s s.dev) ∧
  (∀ (s : State) (l : Lane) (h t : Nat) (m : List Nat), s.dev.calGrantOf l = some (3, h, t) → h < 16 → m.length = 5 →
    GivesThat (.writeCalibration l m) s fun e =>
      (∀ b, b < s.dev.driftAddr l h ∨ s.dev.driftAddr l h + 16 ≤ b → e.memByte b = s.dev.memByte b) ∧
      entryField (e.memNum 16 (s.dev.driftAddr l h)) 2 2 =
        ofSigned 16 (toSigned 16 (entryField (s.dev.memNum 16 (s.dev.driftAddr l h)) 2 2) + calPick m) ∧
      ∀ a, a ≠ RG_LOGSTAT → e.word a = s.dev.word a)

/-! ### Balance engine -/

namespace Sys2Proof.Machine

/-- The word the running sample of an engine carries out next. -/
def Device.nextWord (d : Device) (e : BEng) (r : BeRun) : Nat := d.beWord e (d.beBank e) r.slot r.pc

/-- A sample runs, and its next instruction has this opcode. -/
def Device.nextIs (d : Device) (e : BEng) (r : BeRun) (op : Nat) : Prop := (d.be e).run = some r ∧ beOp (d.nextWord e r) = op

/-- After an instruction: the sample goes on at the next word, its cycles counted, with accumulators `a`; a register of S or T that is not `i` is as before. -/
def wentOn (e : BEng) (r : BeRun) (a : List Int) (i cost : Nat) (d d' : Device) : Prop :=
  ∃ r', (d'.be e).run = some r' ∧ r'.slot = r.slot ∧ r'.pc = r.pc + 1 ∧ r'.cycle = r.cycle + cost ∧ r'.a = a ∧ r'.outs = r.outs ∧
    (∀ j < 48, j ≠ i → d'.beReg e r' j = d.beReg e r j) ∧ ∀ b, d'.memByte b = d.memByte b

/-- The register an instruction wrote holds this value; Z holds 0. -/
def holds (e : BEng) (i : Nat) (v : Int) (d' : Device) : Prop := ∃ r', (d'.be e).run = some r' ∧ d'.beReg e r' i = if i < 48 then v else 0

end Sys2Proof.Machine

/-- The balance instructions that write one register: the exact result, rounded to nearest with ties up, saturated to Q1.31, is what the destination reads after;
T has its 16 registers.
The balance instructions that copy a value in Q1.31: MOV, SEL, IN; LIM also writes what it took off to its W register and raises no flag. -/
def Obligations.BalanceResultsMovesAndLimits : Prop :=
  (∀ (s : State) (e : BEng) (r : BeRun), r.t.length = 16 → r.pc < 1024 →
    (let w := s.dev.nextWord e r
     let x := s.dev.beReg e r (bitsOf w 12 6)
     let y := s.dev.beReg e r (bitsOf w 6 6)
     let i := bitsOf w 18 6
     let C (n : Nat) : Int := s.dev.beCoef e (s.dev.beBank e) n
     (s.dev.nextIs e r 0x04 → GivesThat (.beRnd e false) s fun d' =>
       holds e i (satQ (roundTo 31 (r.a.getD (bitsOf w 24 2) 0 * 2 ^ bitsOf w 14 4))).1 d' ∧ wentOn e r r.a i 1 s.dev d') ∧
     (s.dev.nextIs e r 0x05 → GivesThat (.beAdd e false) s fun d' => holds e i (satQ (x + y)).1 d' ∧ wentOn e r r.a i 1 s.dev d') ∧
     (s.dev.nextIs e r 0x06 → GivesThat (.beSub e false) s fun d' => holds e i (satQ (x - y)).1 d' ∧ wentOn e r r.a i 1 s.dev d') ∧
     (s.dev.nextIs e r 0x08 → GivesThat (.beMul e false) s fun d' =>
       holds e i (satQ (roundTo 31 (x * C (bitsOf w 3 9)))).1 d' ∧ wentOn e r r.a i 1 s.dev d') ∧
     (s.dev.nextIs e r 0x0D → GivesThat (.beXff e false) s fun d' =>
       holds e i (satQ (roundTo 31 (x * 2 ^ 31 - (if e = .spindle then 0 else s.dev.rdI (BE_XK_XK e) * s.dev.rdI (BE_XIN_XIN e))))).1 d' ∧
       wentOn e r r.a i 2 s.dev d') ∧
     (s.dev.nextIs e r 0x0E → GivesThat (.beInt e false) s fun d' =>
       holds e i (satQ (roundTo 31 (s.dev.beReg e r i * 2 ^ 31 + C (bitsOf w 3 9) * x -
         C (bitsOf w 3 9 + 1) * s.dev.rdI (BE_W_W e (bitsOf w 0 3))))).1 d' ∧ wentOn e r r.a i 3 s.dev d'))) ∧
  (∀ (s : State) (e : BEng) (r : BeRun), r.t.length = 16 → (∀ v ∈ r.t, qMin ≤ v ∧ v ≤ qMax) → (∀ v ∈ (s.dev.be e).inp, qMin ≤ v ∧ v ≤ qMax) →
    (let w := s.dev.nextWord e r
     let x := s.dev.beReg e r (bitsOf w 12 6)
     let y := s.dev.beReg e r (bitsOf w 6 6)
     let i := bitsOf w 18 6
     (s.dev.nextIs e r 0x07 → GivesThat (.beMov e false) s fun d' => holds e i x d' ∧ wentOn e r r.a i 1 s.dev d') ∧
     (s.dev.nextIs e r 0x0A → GivesThat (.beSel e false) s fun d' =>
       holds e i (if s.dev.beReg e r (bitsOf w 0 6) < 0 then x else y) d' ∧ wentOn e r r.a i 1 s.dev d') ∧
     (s.dev.nextIs e r 0x0B → GivesThat (.beIn e false) s fun d' =>
       holds e i ((s.dev.be e).inp.getD (bitsOf w 0 5) 0) d' ∧ wentOn e r r.a i 1 s.dev d') ∧
     (s.dev.nextIs e r 0x09 → GivesThat (.beLim e false) s fun d' =>
       (let m : Int := min (y.natAbs : Int) qMax
        let v := if x < -m then -m else if m < x then m else x
        holds e i v d' ∧ d'.rdI (BE_W_W e (bitsOf w 3 3)) = x - v ∧ wentOn e r r.a i 1 s.dev d' ∧ d'.word (BE_STATUS e) = s.dev.word (BE_STATUS e)))))

/-- The balance instructions that accumulate: LDA, MAC and MSU hold x × C[c] exactly in 64 bits, saturated; NOP does nothing but go on. The first overflow of a
word raises its flag, its slot's and the interrupt.
A biquad section: the output and both state registers, from the input and the state before it, each product doubled; the destination takes the output. The
sample ends at END, which reports its cost and keeps PRED; an instruction of another opcode waits its turn; one whose word has bad parity stops the engine. -/
def Obligations.BalanceAccumulatorsSectionsAndEnd : Prop :=
  (∀ (s : State) (e : BEng) (r : BeRun), s.dev.nextIs e r 0x00 → GivesThat (.beNop e false) s fun d' => wentOn e r r.a 48 1 s.dev d' ∧ Untouched [] s.dev d') ∧
  (∀ (s : State) (e : BEng) (r : BeRun), r.pc < 1024 →
    (let w := s.dev.nextWord e r
     let p := s.dev.beReg e r (bitsOf w 18 6) * s.dev.beCoef e (s.dev.beBank e) (bitsOf w 9 9)
     let a := bitsOf w 24 2
     (s.dev.nextIs e r 0x01 → GivesThat (.beLda e false) s fun d' => wentOn e r (r.a.set a p) 48 1 s.dev d' ∧ Untouched [] s.dev d') ∧
     (s.dev.nextIs e r 0x02 → GivesThat (.beMac e false) s fun d' =>
       wentOn e r (r.a.set a (clampI accMin accMax (r.a.getD a 0 + p))) 48 1 s.dev d' ∧
       (accMin ≤ r.a.getD a 0 + p → r.a.getD a 0 + p ≤ accMax → Untouched [] s.dev d') ∧
       (accMax < r.a.getD a 0 + p → r.slot < 4 →
         d'.rd ⟨BE_OVF e (r.pc / 32), r.pc % 32, 1⟩ = 1 ∧ (d'.rd (BE_STATUS_OVFSLOT e)).testBit r.slot = true ∧
         (s.dev.rd ⟨BE_OVF e (r.pc / 32), r.pc % 32, 1⟩ = 0 → d'.rd (BE_INT_OVF e) = 1))) ∧
     (s.dev.nextIs e r 0x03 → GivesThat (.beMsu e false) s fun d' =>
       wentOn e r (r.a.set a (clampI accMin accMax (r.a.getD a 0 - p))) 48 1 s.dev d' ∧
       (accMin ≤ r.a.getD a 0 - p → r.a.getD a 0 - p ≤ accMax → Untouched [] s.dev d')))) ∧
  (∀ (s : State) (e : BEng) (r : BeRun), r.t.length = 16 → r.pc < 1024 → s.dev.nextIs e r 0x0F →
    (let w := s.dev.nextWord e r
     let k := bitsOf w 21 5
     let i := bitsOf w 15 6
     let x := s.dev.beReg e r (bitsOf w 9 6)
     let c (n : Nat) : Int := 2 * s.dev.beCoef e (s.dev.beBank e) (bitsOf w 0 9 + n)
     let y := (satQ (roundTo 31 (c 0 * x + s.dev.beReg e r k * 2 ^ 31))).1
     k < 31 → i ≠ k → i ≠ k + 1 →
     GivesThat (.beBiq e false) s fun d' =>
       holds e i y d' ∧ holds e k (satQ (roundTo 31 (c 1 * x - c 3 * y + s.dev.beReg e r (k + 1) * 2 ^ 31))).1 d' ∧
       holds e (k + 1) (satQ (roundTo 31 (c 2 * x - c 4 * y))).1 d' ∧
       ∃ r', (d'.be e).run = some r' ∧ r'.pc = r.pc + 1 ∧ r'.cycle = r.cycle + 5 ∧ r'.a = r.a)) ∧
  (∀ (s : State) (e : BEng) (r : BeRun) (p : Nat), s.dev.nextIs e r 0x0C → bitsOf (s.dev.nextWord e r) 0 5 = p → e ≠ .spindle → 1 < p → p < 3 ∨ 4 < p →
    GivesThat (.beOut e false) s fun d' =>
      (∃ r', (d'.be e).run = some r' ∧ r'.pc = r.pc + 1 ∧ Sparse.find r'.outs p = some (s.dev.beReg e r (bitsOf (s.dev.nextWord e r) 12 6))) ∧
      Untouched [] s.dev d' ∧ d'.out = s.dev.out) ∧
  (∀ (s : State) (l : Lane) (r : BeRun) (uv : Int), s.dev.nextIs (.lane l) r 0x0C → bitsOf (s.dev.nextWord (.lane l) r) 0 5 = 1 →
    Sparse.find r.first 1 = none → Sparse.find r.first 0 = some uv → s.dev.bit (PS_CTRL_EN l) = true → (s.dev.sv l).st ≠ .retract →
    s.dev.twoLane = false →
    GivesThat (.beOut (.lane l) false) s fun d' =>
      (let um := clampI (-0x7FFF0000) 0x7FFF0000 (s.dev.beReg (.lane l) r (bitsOf (s.dev.nextWord (.lane l) r) 12 6))
       let ulim := (s.dev.be (.lane l)).inp.getD 7 0
       d'.out = s.dev.out ++ [.psFrame l (psWord 5 (((s.dev.ps l).seq + 1) % 16) (toQ15 (clampI (-ulim) ulim uv)) (s.dev.maField l um))]) ∧
      Untouched [] s.dev d') ∧
  (∀ (s : State) (e : BEng) (r : BeRun), s.dev.nextIs e r 0x3F →
    GivesThat (.beEnd e false) s fun d' =>
      (d'.be e).run = none ∧ d'.rd (BE_STATUS_CYCLES e) = (r.cycle + 1) % 2048 ∧
      (d'.be e).pred = (Sparse.find r.outs 2).getD (s.dev.be e).pred ∧ Untouched [BE_STATUS e] s.dev d') ∧
  (∀ (s : State) (e : BEng) (b : Bool), (s.dev.be e).run = none →
    Gives (.beNop e b) s s.dev ∧ Gives (.beMac e b) s s.dev ∧ Gives (.beOut e b) s s.dev ∧ Gives (.beEnd e b) s s.dev) ∧
  (∀ (s : State) (r : BeRun) (op : Nat), s.dev.nextIs .spindle r op → op ≠ 0x0F → Gives (.beBiq .spindle false) s s.dev) ∧
  (∀ (s : State) (l : Lane) (r : BeRun), (s.dev.be (.lane l)).run = some r → (s.dev.sv l).st.loaded = false →
    GivesThat (.beMac (.lane l) true) s fun d' =>
      d'.rd (BE_CTRL_RUN (.lane l)) = 0 ∧ d'.rd (BE_INT_PARITY (.lane l)) = 1 ∧ (d'.be (.lane l)).run = none ∧ d'.out = s.dev.out ∧
      Untouched [BE_CTRL (.lane l), BE_INT (.lane l), RG_LOGSTAT] s.dev d')

/-- Banks: a swap checks the inactive bank, and a passed one is exchanged at once with RUN 0, or at the next sample; a failed check changes nothing but its code;
RUN is taken only after a bank has passed. A sample held for its turn starts when the engine is free. -/
def Obligations.BalanceBanksAreCheckedBeforeExchange : Prop :=
  (∀ (s : State) (e : BEng), (s.dev.be e).checking = true → Gives (.beSwap e) s s.dev) ∧
  (∀ (s : State) (e : BEng), (s.dev.be e).checking = false →
    GivesThat (.beSwap e) s fun d' =>
      d'.rd (BE_CTRL_SWAP e) = 1 ∧ (d'.be e).checking = true ∧ (d'.be e).due = false ∧ (d'.be e).run = (s.dev.be e).run ∧
      Untouched [BE_CTRL e] s.dev d') ∧
  (∀ (s : State) (e : BEng) (b : Bool), (s.dev.be e).checking = false → Gives (.swapCheckDone e b) s s.dev) ∧
  (∀ (s : State) (e : BEng) (b : Bool) (c : Nat), (s.dev.be e).checking = true → s.dev.bankCheck e (!s.dev.beBank e) b = c → c ≠ 0 →
    GivesThat (.swapCheckDone e b) s fun d' =>
      d'.rd (BE_STATUS_CHECK e) = c ∧ d'.beBank e = s.dev.beBank e ∧ d'.rd (BE_CTRL_SWAP e) = 0 ∧ d'.rd (BE_INT_SWAPERR e) = 1 ∧
      (d'.be e).checking = false ∧ (d'.be e).due = (s.dev.be e).due ∧ Untouched [BE_STATUS e, BE_CTRL e, BE_INT e, RG_LOGSTAT] s.dev d') ∧
  (∀ (s : State) (e : BEng) (b : Bool), (s.dev.be e).checking = true → s.dev.bankCheck e (!s.dev.beBank e) b = 0 → s.dev.bit (BE_CTRL_RUN e) = false →
    GivesThat (.swapCheckDone e b) s fun d' =>
      d'.beBank e = !s.dev.beBank e ∧ d'.rd (BE_STATUS_CHECK e) = 0 ∧ d'.rd (BE_STATUS_PASSED e) = 1 ∧ d'.rd (BE_CTRL_SWAP e) = 0 ∧
      d'.rd (BE_INT_SWAPDONE e) = 1 ∧ (d'.be e).due = false ∧ Untouched [BE_STATUS e, BE_CTRL e, BE_INT e] s.dev d') ∧
  (∀ (s : State) (e : BEng) (b : Bool), (s.dev.be e).checking = true → s.dev.bankCheck e (!s.dev.beBank e) b = 0 → s.dev.bit (BE_CTRL_RUN e) = true →
    GivesThat (.swapCheckDone e b) s fun d' =>
      d'.beBank e = s.dev.beBank e ∧ (d'.be e).due = true ∧ (d'.be e).slot3 = (s.dev.rd (BE_SLOTV_SLOTS e)).testBit 3 ∧
      Untouched [BE_STATUS e] s.dev d') ∧
  (∀ (s : State) (e : BEng), s.dev.bit (BE_STATUS_PASSED e) = false → Gives (.beRunWrite e true) s s.dev) ∧
  (∀ (s : State) (e : BEng), Gives (.beRunWrite e false) s (s.dev.wr (BE_CTRL_RUN e) 0)) ∧
  (∀ s : State, s.dev.bit (BE_STATUS_PASSED .spindle) = true → Gives (.beRunWrite .spindle true) s (s.dev.wr (BE_CTRL_RUN .spindle) 1)) ∧
  (∀ (s : State) (l : Lane), s.dev.bit (BE_STATUS_PASSED (.lane l)) = true → (s.dev.sv l).st ≠ .off →
    Gives (.beRunWrite (.lane l) true) s (s.dev.wr (BE_CTRL_RUN (.lane l)) 1)) ∧
  (∀ (s : State) (l : Lane), (s.dev.be (.lane l)).held = false ∨ (s.dev.be (.lane l)).run ≠ none → Gives (.beSampleLateStart l) s s.dev) ∧
  (∀ (s : State) (l : Lane), (s.dev.be (.lane l)).held = true → (s.dev.be (.lane l)).run = none → s.dev.bit (BE_CTRL_RUN (.lane l)) = true →
    (s.dev.be (.lane l)).due = false →
    GivesThat (.beSampleLateStart l) s fun d' =>
      d'.rd (BE_STATUS_LATE (.lane l)) = 1 ∧ (d'.be (.lane l)).held = false ∧ ∃ r, (d'.be (.lane l)).run = some r ∧ r.pc = 0 ∧ r.slot = s.dev.svSlot l)

/-! ### Servo -/

/-- The servo's commands: LOAD, SEEK, UNLOAD and the writes of EN and CAL are taken in the states the rules name and refused in the others, with REFUSED set and
nothing else changed; RETRACT is taken in every state. -/
def Obligations.ServoCommandsAreTakenOrRefused : Prop :=
  (∀ (s : State) (l : Lane), (s.dev.sv l).st ≠ .parked ∨ s.dev.atSpeed = false ∨ s.dev.bit (PS_STATUS_UP l) = false →
    Gives (.svCmdLoad l) s (s.dev.wr (SV_STATUS_REFUSED l) 1)) ∧
  (∀ (s : State) (l : Lane), (s.dev.sv l).st = .parked → s.dev.atSpeed = true → s.dev.bit (PS_STATUS_UP l) = true →
    GivesThat (.svCmdLoad l) s fun d' =>
      (d'.sv l).st = .load ∧ (d'.sv l).attempt = 1 ∧ d'.rd (SV_STATUS_STATE l) = SvState.code .load ∧ d'.rd (SV_INT_STATE l) = 1 ∧
      d'.hnor.headLoads = s.dev.hnor.headLoads + 1 ∧ Untouched [SV_STATUS l, SV_INT l] s.dev d') ∧
  (∀ (s : State) (l : Lane), (s.dev.sv l).st ∈ [SvState.off, .parked, .load, .unload, .retract, .fault] →
    Gives (.svCmdSeek l) s (s.dev.wr (SV_STATUS_REFUSED l) 1)) ∧
  (∀ (s : State) (l : Lane), (s.dev.sv l).st ∈ [SvState.seek, .settle] → s.dev.rd (SV_STATUS_HEAD l) = s.dev.rd (SV_TARGET_HEAD l) →
    GivesThat (.svCmdSeek l) s fun d' =>
      (d'.sv l).st = .seek ∧ (d'.sv l).pref = (s.dev.sv l).pmeas ∧ (d'.sv l).vel = (s.dev.sv l).velocity ∧
      (d'.sv l).tgt = (s.dev.rd (SV_TARGET_TRACK l) : Int) * 2 ^ 24 ∧ d'.rd (SV_STATUS_STATE l) = SvState.code .seek ∧
      Untouched [SV_STATUS l, SV_INT l] s.dev d') ∧
  (∀ (s : State) (l : Lane), (s.dev.sv l).st = .recover → s.dev.rd (SV_STATUS_HEAD l) = s.dev.rd (SV_TARGET_HEAD l) →
    Gives (.svCmdSeek l) s (s.dev.updSv l fun x => { x with tgt := s.dev.svTarget l })) ∧
  (∀ (s : State) (l : Lane), (s.dev.sv l).st ∈ [SvState.off, .parked, .load, .unload, .retract, .fault] →
    Gives (.svCmdUnload l) s (s.dev.wr (SV_STATUS_REFUSED l) 1)) ∧
  (∀ (s : State) (l : Lane), (s.dev.sv l).st ∈ [SvState.seek, .settle, .follow, .recover] → Gives (.svCmdUnload l) s (s.dev.enterUnload l false)) ∧
  (∀ (s : State) (l : Lane), s.dev.retracting = true → Gives (.svCmdRetract l) s s.dev) ∧
  (∀ (s : State) (l : Lane), s.dev.retracting = false →
    GivesThat (.svCmdRetract l) s fun d' =>
      (d'.sv .ln0).st = .retract ∧ (d'.sv .ln1).st = .retract ∧ d'.emret = .low ∧ d'.emretCause = some 4 ∧
      d'.rd (PS_STATUS_ECAUSE .ln0) = 4 ∧ d'.rd (PS_STATUS_ECAUSE .ln1) = 4 ∧ ∀ a, d'.memByte a = s.dev.memByte a) ∧
  (∀ (s : State) (l : Lane), (s.dev.sv l).st ∉ [SvState.off, .parked, .fault] → Gives (.svEnWrite l false) s (s.dev.wr (SV_STATUS_REFUSED l) 1)) ∧
  (∀ (s : State) (l : Lane), (s.dev.sv l).st ∈ [SvState.parked, .fault] →
    GivesThat (.svEnWrite l false) s fun d' => (d'.sv l).st = .off ∧ d'.rd (SV_CTRL_EN l) = 0 ∧
      Untouched [SV_CTRL l, SV_STATUS l, SV_INT l] s.dev d') ∧
  (∀ (s : State) (l : Lane), (s.dev.sv l).st = .off → s.dev.bit (BE_CTRL_RUN (.lane l)) = true → s.dev.bit (PS_CTRL_EN l) = true →
    GivesThat (.svEnWrite l true) s fun d' => (d'.sv l).st = .parked ∧ d'.rd (SV_CTRL_EN l) = 1 ∧
      Untouched [SV_CTRL l, SV_STATUS l, SV_INT l] s.dev d') ∧
  (∀ (s : State) (l : Lane), s.dev.bit (BE_STATUS_SLOT3 (.lane l)) = false → Gives (.svCalWrite l true) s (s.dev.wr (SV_STATUS_REFUSED l) 1)) ∧
  (∀ (s : State) (l : Lane), s.dev.bit (BE_STATUS_SLOT3 (.lane l)) = true → Gives (.svCalWrite l true) s (s.dev.wr (SV_CTRL_CAL l) 1)) ∧
  (∀ (s : State) (l : Lane) (h t : Nat), (s.dev.sv l).st ≠ .follow →
    Gives (.svTargetWrite l h t) s ((s.dev.wr (SV_TARGET_HEAD l) h).wr (SV_TARGET_TRACK l) t)) ∧
  (∀ (s : State) (l : Lane) (h t : Nat), (s.dev.sv l).st = .follow → t < 2 ^ (SV_TARGET_TRACK l).n → s.dev.rd (SV_TARGET_TRACK l) ≠ t →
    GivesThat (.svTargetWrite l h t) s fun d' =>
      (d'.sv l).st = .settle ∧ (d'.sv l).p0 = (s.dev.sv l).pmeas ∧ (d'.sv l).tgt = (t : Int) * 2 ^ 24 + (s.dev.sv l).offset * 2 ^ 16 ∧
      d'.rd (SV_TARGET_TRACK l) = t)

/-- The servo changes state on the conditions the rules name and on no others: acquiring, losing and reacquiring the track, the ends of a seek, of a settle and of
an unload, and their time limits.
Wedges, the power-stage link and the cross-lane link: a good wedge gives PES and the position, a failed one is counted and PRED stands in; valid return frames
bring the readings, an error is counted and three in a row are a link fault; idle lanes send zero frames; a value sent over the link arrives once or goes stale. -/
def Obligations.ServoStatesAndWedges : Prop :=
  (∀ (s : State) (l : Lane), (s.dev.sv l).st ≠ .load ∨ (s.dev.sv l).consistent < 8 → Gives (.loadAcquired l) s s.dev) ∧
  (∀ (s : State) (l : Lane), (s.dev.sv l).st = .load → 8 ≤ (s.dev.sv l).consistent →
    Gives (.loadAcquired l) s ((s.dev.takeHead l).enterSeek l)) ∧
  (∀ (s : State) (l : Lane), (s.dev.sv l).st = .load →
    GivesThat (.loadTimeout l) s fun d' =>
      (d'.sv l).st = .unload ∧ (d'.sv l).loadFailed = true ∧ Untouched [SV_STATUS l, SV_INT l, RG_LOGSTAT] s.dev d') ∧
  (∀ (s : State) (l : Lane), (s.dev.sv l).st ∈ [SvState.seek, .settle] → s.dev.rd (SV_DEMOD_MISSMAX l) ≤ s.dev.rd (SV_STATUS_MISS l) →
    GivesThat (.servoLost l) s fun d' =>
      (d'.sv l).st = .recover ∧ (d'.sv l).recovers = (s.dev.sv l).recovers + 1 ∧ d'.rd (SV_INT_LOST l) = 1 ∧
      Untouched [SV_STATUS l, SV_INT l, RG_LOGSTAT] s.dev d') ∧
  (∀ (s : State) (l : Lane), s.dev.rd (SV_STATUS_MISS l) < s.dev.rd (SV_DEMOD_MISSMAX l) → Gives (.servoLost l) s s.dev) ∧
  (∀ (s : State) (l : Lane), (s.dev.sv l).st = .seek → (s.dev.sv l).profEnd = true →
    GivesThat (.seekEnd l) s fun d' =>
      (d'.sv l).st = .settle ∧ (d'.sv l).p0 = (s.dev.sv l).pmeas ∧ (d'.sv l).k = 0 ∧ d'.rd (SV_INT_SEEKEND l) = 1 ∧
      Untouched [SV_STATUS l, SV_INT l] s.dev d') ∧
  (∀ (s : State) (l : Lane), (s.dev.sv l).profEnd = false → Gives (.seekEnd l) s s.dev) ∧
  (∀ (s : State) (l : Lane), (s.dev.sv l).st = .settle → s.dev.rd (SV_SOFT_NSOFT l) ≤ (s.dev.sv l).k → s.dev.rd (SV_SOFT_NSET l) ≤ (s.dev.sv l).within_ →
    GivesThat (.settleComplete l) s fun d' =>
      (d'.sv l).st = .follow ∧ (d'.sv l).recovers = 0 ∧ d'.rd (SV_STATUS_ONTRK l) = 1 ∧ d'.rd (SV_INT_ONTRACK l) = 1 ∧
      Untouched [SV_STATUS l, SV_INT l] s.dev d') ∧
  (∀ (s : State) (l : Lane), (s.dev.sv l).within_ < s.dev.rd (SV_SOFT_NSET l) → Gives (.settleComplete l) s s.dev) ∧
  (∀ (s : State) (l : Lane), (s.dev.sv l).st = .settle → 2000 ≤ (s.dev.sv l).since →
    Gives (.settleTimeout l) s ((s.dev.enterRecover l).log l.src 0x300F [ofSigned 32 (s.dev.sv l).wpe])) ∧
  (∀ (s : State) (l : Lane), (s.dev.sv l).since < 2000 → Gives (.settleTimeout l) s s.dev) ∧
  (∀ (s : State) (l : Lane), (s.dev.sv l).st = .recover → 8 ≤ (s.dev.sv l).consistent → (s.dev.sv l).recovers < 4 →
    GivesThat (.recoverReacquired l) s fun d' =>
      (d'.sv l).st = .settle ∧ d'.rd (SV_INT_RECOVERED l) = 1 ∧ (d'.sv l).recovers = (s.dev.sv l).recovers ∧
      Untouched [SV_STATUS l, SV_INT l, RG_LOGSTAT] s.dev d') ∧
  (∀ (s : State) (l : Lane), 4 ≤ (s.dev.sv l).recovers → Gives (.recoverReacquired l) s s.dev) ∧
  (∀ (s : State) (l : Lane), (s.dev.sv l).st = .recover → 4 ≤ (s.dev.sv l).recovers ∨ 2000 ≤ (s.dev.sv l).since →
    Gives (.recoverTimeout l) s ((s.dev.enterUnload l false).log l.src 0x3003)) ∧
  (∀ (s : State) (l : Lane), (s.dev.sv l).st = .unload →
    Gives (.unloadTimeout l) s ((s.dev.log l.src 0x300D).emergencyRetract l.retractCause)) ∧
  (∀ (s : State) (l : Lane), s.dev.rd (SV_STOP_STOP l) * 2 ^ 16 < (s.dev.bemf l).natAbs → Gives (.unloadStopped l) s s.dev) ∧
  (∀ (s : State) (l : Lane), (s.dev.sv l).st = .unload → (s.dev.bemf l).natAbs ≤ s.dev.rd (SV_STOP_STOP l) * 2 ^ 16 → (s.dev.sv l).loadFailed = false →
    GivesThat (.unloadStopped l) s fun d' => (d'.sv l).st = .parked ∧ Untouched [SV_STATUS l, SV_INT l] s.dev d') ∧
  (∀ (s : State) (l : Lane), (s.dev.sv l).st = .unload → (s.dev.bemf l).natAbs ≤ s.dev.rd (SV_STOP_STOP l) * 2 ^ 16 → (s.dev.sv l).loadFailed = true →
    (s.dev.sv l).attempt < 3 → GivesThat (.unloadStopped l) s fun d' => (d'.sv l).st = .load ∧ (d'.sv l).attempt = (s.dev.sv l).attempt + 1) ∧
  (∀ (s : State) (l : Lane), (s.dev.sv l).st = .unload → (s.dev.bemf l).natAbs ≤ s.dev.rd (SV_STOP_STOP l) * 2 ^ 16 → (s.dev.sv l).loadFailed = true →
    3 ≤ (s.dev.sv l).attempt → GivesThat (.unloadStopped l) s fun d' => (d'.sv l).st = .fault) ∧
  (∀ (s : State) (l : Lane) (w : WedgeRd) (b : Option WedgeRd) (n : Nat), s.dev.held1 l = true → Gives (.servoWedge l w b n) s s.dev) ∧
  (∀ (s : State) (l : Lane) (w : WedgeRd) (n : Nat), s.dev.held1 l = false → s.dev.wedgeGood l w = true → pesOf w (s.dev.rdI (SV_PGAIN_PGAIN l (s.dev.rd (SV_STATUS_HEAD l)))) ≠ none →
    s.dev.bit (BE_CTRL_RUN (.lane l)) = false → w.track < 2 ^ (SV_POS_TRACK l).n → (∀ q ∈ laneSeqs l, (s.dev.ec q).op = none) → (s.dev.sv l).st = .seek →
    GivesThat (.servoWedge l w none n) s fun d' =>
      some (d'.rdI (SV_PES_PES l)) = pesOf w (s.dev.rdI (SV_PGAIN_PGAIN l (s.dev.rd (SV_STATUS_HEAD l)))) ∧
      d'.rd (SV_POS_TRACK l) = w.track ∧ d'.rd (SV_STATUS_MISS l) = 0 ∧ (d'.sv l).bad = false ∧ (d'.sv l).idx = some w.idx ∧
      (d'.sv l).pmeas = 2 ^ 24 * (w.track : Int) + d'.rdI (SV_PES_PES l) / 2 ^ 7) ∧
  (∀ (s : State) (l : Lane) (w : WedgeRd) (n : Nat), s.dev.held1 l = false → s.dev.wedgeGood l w = false →
    s.dev.bit (BE_CTRL_RUN (.lane l)) = false → (∀ q ∈ laneSeqs l, (s.dev.ec q).op = none) → (s.dev.sv l).st = .seek →
    GivesThat (.servoWedge l w none n) s fun d' =>
      d'.rdI (SV_PES_PES l) = s.dev.rdI (SV_PES_PES l) ∧ d'.rd (SV_POS_TRACK l) = s.dev.rd (SV_POS_TRACK l) ∧
      d'.rd (SV_STATUS_MISS l) = min (s.dev.rd (SV_STATUS_MISS l) + 1) (2 ^ (SV_STATUS_MISS l).n - 1) ∧ (d'.sv l).bad = true) ∧
  (∀ (s : State) (l : Lane) (w : Nat), s.dev.bit (PS_CTRL_EN l) = false → Gives (.psReturnFrame l w) s s.dev) ∧
  (∀ (s : State) (l : Lane) (w : Nat), s.dev.bit (PS_CTRL_EN l) = true → (s.dev.sv l).st ≠ .retract → crc8 (w - bitsOf w 0 8) = bitsOf w 0 8 →
    bitsOf w 40 4 = (s.dev.ps l).seq → bitsOf w 44 4 = 0 → (s.dev.ps l).fault = false →
    GivesThat (.psReturnFrame l w) s fun d' =>
      (d'.ps l).ivcm = toSigned 16 (bitsOf w 24 16) * 2 ^ 16 ∧ (d'.ps l).vvcm = toSigned 16 (bitsOf w 8 16) * 2 ^ 16 ∧ (d'.ps l).errs = 0 ∧
      d'.rd (PS_STATUS_UP l) = 1 ∧ d'.rd (PS_STATUS_FLAGS l) = 0 ∧ Untouched [PS_STATUS l] s.dev d') ∧
  (∀ (s : State) (l : Lane) (w : Nat), s.dev.bit (PS_CTRL_EN l) = true → (s.dev.sv l).st ≠ .retract → crc8 (w - bitsOf w 0 8) ≠ bitsOf w 0 8 →
    (s.dev.ps l).errs < 2 →
    GivesThat (.psReturnFrame l w) s fun d' =>
      (d'.ps l).errs = (s.dev.ps l).errs + 1 ∧ (d'.ps l).fault = (s.dev.ps l).fault ∧ d'.rd (SV_INT_PSERR l) = 1 ∧
      (d'.sv l).st = (s.dev.sv l).st ∧ Untouched [PS_STATUS l, SV_INT l, RG_LOGSTAT] s.dev d') ∧
  (∀ (s : State) (l : Lane) (w : Nat), s.dev.bit (PS_CTRL_EN l) = true → (s.dev.sv l).st = .seek → crc8 (w - bitsOf w 0 8) ≠ bitsOf w 0 8 →
    (s.dev.ps l).errs = 2 → (s.dev.ps l).fault = false → s.dev.retracting = false →
    GivesThat (.psReturnFrame l w) s fun d' =>
      (d'.ps l).fault = true ∧ d'.rd (PS_STATUS_UP l) = 0 ∧ (d'.sv l).st = .retract ∧ d'.emretCause = some l.retractCause) ∧
  (∀ (s : State) (l : Lane), s.dev.bit (PS_CTRL_EN l) = true → (s.dev.sv l).st ∈ [SvState.off, .parked, .fault] → s.dev.twoLane = false →
    GivesThat (.psKeepalive l) s fun d' =>
      d'.out = s.dev.out ++ [.psFrame l (psWord 5 (((s.dev.ps l).seq + 1) % 16) 0 0)] ∧ (d'.ps l).vcm = 0 ∧ (d'.ps l).ma = 0 ∧ Untouched [] s.dev d') ∧
  (∀ (s : State) (l : Lane), s.dev.bit (PS_CTRL_EN l) = false → Gives (.psKeepalive l) s s.dev) ∧
  (∀ (s : State) (l : Lane) (a x : Nat), s.dev.bit (PS_CTRL_EN l) = true → (s.dev.sv l).st ∈ [SvState.off, .parked, .fault] →
    GivesThat (.psCfgGo l a x) s fun d' =>
      d'.out = s.dev.out ++ [.psFrame l (psWord 9 (((s.dev.ps l).seq + 1) % 16) (a % 256 * 256) x)] ∧ d'.rd (PS_CFG_REFUSED l) = 0 ∧
      Untouched [PS_CFG l] s.dev d') ∧
  (∀ (s : State) (l : Lane) (a x : Nat), (s.dev.sv l).st ∉ [SvState.off, .parked, .fault] →
    GivesThat (.psCfgGo l a x) s fun d' => d'.out = s.dev.out ∧ d'.rd (PS_CFG_REFUSED l) = 1 ∧ Untouched [PS_CFG l] s.dev d') ∧
  (∀ (s : State) (l : Lane), (s.dev.sv l).st ≠ .off →
    GivesThat (.psCtrlEnWrite l true) s fun d' =>
      d'.rd (PS_CTRL_EN l) = 1 ∧ (d'.ps l).seq = 15 ∧ (d'.ps l).errs = 0 ∧ (d'.ps l).maFault = false ∧
      d'.bit (PS_STATUS_UP l) = !(s.dev.ps l).fault ∧ Untouched [PS_CTRL l, PS_STATUS l] s.dev d') ∧
  (∀ (s : State) (l : Lane), (s.dev.be (.lane l.other)).xsent = none → Gives (.xoutReceive l) s s.dev) ∧
  (∀ (s : State) (l : Lane) (v : Int), (s.dev.be (.lane l.other)).xsent = some v → s.dev.twoLane = true → s.dev.bit (ELK_STATUS_UP l) = true →
    GivesThat (.xoutReceive l) s fun d' =>
      (d'.be (.lane l)).xnew = some v ∧ (d'.be (.lane l.other)).xsent = none ∧ d'.rd (BE_STATUS_XSTALE (.lane l)) = 0 ∧
      Untouched [BE_STATUS (.lane l)] s.dev d') ∧
  (∀ (s : State) (l : Lane), s.dev.twoLane = false ∨ s.dev.bit (BE_STATUS_XSTALE (.lane l)) = true → Gives (.xinStale l) s s.dev) ∧
  (∀ (s : State) (l : Lane), s.dev.twoLane = true → s.dev.bit (BE_STATUS_XSTALE (.lane l)) = false →
    GivesThat (.xinStale l) s fun d' =>
      (d'.be (.lane l)).xnew = none ∧ d'.rd (BE_STATUS_XSTALE (.lane l)) = 1 ∧ d'.rd (BE_INT_XSTALE (.lane l)) = 1 ∧ d'.rdI (BE_XIN_XIN (.lane l)) = 0 ∧
      Untouched [BE_STATUS (.lane l), BE_INT (.lane l), BE_XIN (.lane l), RG_LOGSTAT] s.dev d')

/-! ### Spindle -/

namespace Sys2Proof.Machine

/-- The registers a change of the spindle's state writes, with the log's status. -/
def spRegs : List Nat := [SP_STATUS, SP_INT, RG_LOGSTAT]

end Sys2Proof.Machine

/-- Starting: the listen's class picks CATCH, REVERSE or START; START goes through alignment, polarity, acceleration and its checks, and retries after a pause;
the spin-up limit, CATCH's end, ATSPEED and the rotor at rest act where their conditions hold.
The supply and the chopper: the watch acts on three consecutive conversions at its levels, the chopper's checks on what BRK_G did, and a channel pinned,
falling or out of its limits is a fault; gates and BRK_G go off as the rules say. -/
def Obligations.SpindleStartingAndSupplyWatch : Prop :=
  (∀ (s : State) (o : ListenObs), s.dev.spin.st ≠ .listen → Gives (.listenEnd o) s s.dev) ∧
  (∀ (s : State) (t : Nat), s.dev.spin.st = .listen →
    GivesThat (.listenEnd { mrpm := none, theta := t }) s fun d' =>
      d'.spin.st = .start ∧ d'.spin.step = .align ∧ d'.spin.omega = 0 ∧ d'.rd SP_STATUS_LCLASS = 0 ∧ Untouched [SP_STATUS, SP_INT, SP_LISTEN] s.dev d') ∧
  (∀ (s : State) (t : Nat) (v : Int), s.dev.spin.st = .listen → -60000 ≤ v → v ≤ 300000 →
    GivesThat (.listenEnd { mrpm := some v, theta := t }) s fun d' => d'.spin.st = .start ∧ d'.rd SP_STATUS_LCLASS = 0) ∧
  (∀ (s : State) (t : Nat) (v : Int), s.dev.spin.st = .listen → 300000 < v →
    GivesThat (.listenEnd { mrpm := some v, theta := t }) s fun d' =>
      d'.spin.st = .catch_ ∧ d'.rd SP_STATUS_LCLASS = 1 ∧ d'.spin.theta = t % 2 ^ 32) ∧
  (∀ (s : State) (t : Nat) (v : Int), s.dev.spin.st = .listen → v < -60000 →
    GivesThat (.listenEnd { mrpm := some v, theta := t }) s fun d' =>
      d'.spin.st = .reverse ∧ d'.rd SP_STATUS_LCLASS = 2 ∧ d'.spin.ramp = 0 ∧ d'.spin.theta = t % 2 ^ 32) ∧
  (∀ s : State, s.dev.spin.st ≠ .start → Gives .startAlignmentEnd s s.dev ∧ Gives .startBackwardCheck s s.dev ∧ Gives .startSpeedCheck s s.dev ∧
    Gives .startRetryResume s s.dev ∧ ∀ p n : Int, Gives (.startPolarityEnd p n) s s.dev) ∧
  (∀ s : State, s.dev.spin.st = .start → s.dev.spin.step = .align →
    GivesThat .startAlignmentEnd s fun d' => d'.spin.step = .polarity ∧ d'.spin.st = .start ∧ d'.spin.moved = 0 ∧ Untouched [] s.dev d') ∧
  (∀ (s : State) (p n : Int), s.dev.spin.st = .start → s.dev.spin.step = .polarity →
    GivesThat (.startPolarityEnd p n) s fun d' =>
      d'.spin.step = .accel ∧ d'.spin.theta = (if p < n ∧ max p n ≤ 16 * (n - p) then (s.dev.spin.theta + 2 ^ 31) % 2 ^ 32 else s.dev.spin.theta) ∧
      Untouched [] s.dev d') ∧
  (∀ s : State, s.dev.spin.st = .start → s.dev.spin.step = .accel → 2 ^ 32 < 12 * (- s.dev.spin.movedMin) → s.dev.rd SP_STATUS_ATTEMPT < 4 →
    GivesThat .startBackwardCheck s fun d' =>
      d'.spin.step = .pause ∧ d'.spin.duty = [] ∧ d'.rd SP_STATUS_ATTEMPT = s.dev.rd SP_STATUS_ATTEMPT + 1 ∧ Untouched [SP_STATUS, RG_LOGSTAT] s.dev d') ∧
  (∀ s : State, s.dev.spin.st = .start → s.dev.spin.step = .accel → s.dev.rpmAtLeast s.dev.spin.omega 60 = false → s.dev.rd SP_STATUS_ATTEMPT = 4 →
    GivesThat .startSpeedCheck s fun d' =>
      d'.spin.st = .fault ∧ d'.rd SP_INT_STARTFAIL = 1 ∧ d'.spin.duty = [] ∧ Untouched spRegs s.dev d') ∧
  (∀ s : State, s.dev.spin.st = .start → s.dev.spin.step = .pause →
    GivesThat .startRetryResume s fun d' => d'.spin.st = .start ∧ d'.spin.step = .align ∧ d'.spin.moved = 0 ∧ Untouched [SP_STATUS, SP_INT] s.dev d') ∧
  (∀ s : State, s.dev.spin.st = .start →
    GivesThat .spinupTimeout s fun d' => d'.spin.st = .coast ∧ d'.rd SP_STATUS_SUTO = 1 ∧ Untouched spRegs s.dev d') ∧
  (∀ s : State, s.dev.spin.st = .run → s.dev.spin.wasAt = false →
    GivesThat .spinupTimeout s fun d' => d'.spin.st = .brake ∧ d'.rd SP_STATUS_SUTO = 1 ∧ Untouched spRegs s.dev d') ∧
  (∀ s : State, s.dev.spin.st = .run → s.dev.spin.wasAt = true → Gives .spinupTimeout s s.dev) ∧
  (∀ s : State, s.dev.spin.st = .catch_ →
    GivesThat .catchEnd s fun d' => d'.spin.st = .run ∧ d'.rd SP_STATUS_STATE = 4 ∧ Untouched spRegs s.dev d') ∧
  (∀ s : State, s.dev.spin.st.active = true → s.dev.speedWithin 1 = true → s.dev.bit SP_STATUS_ATSPEED = false →
    GivesThat .atspeedSet s fun d' =>
      d'.rd SP_STATUS_ATSPEED = 1 ∧ d'.rd SP_INT_ATSPEED = 1 ∧ d'.spin.wasAt = true ∧ d'.spin.st = s.dev.spin.st ∧ Untouched spRegs s.dev d') ∧
  (∀ s : State, s.dev.speedWithin 1 = false → Gives .atspeedSet s s.dev) ∧
  (∀ s : State, s.dev.spin.st.active = true → Gives .rotorStopped s s.dev) ∧
  (∀ s : State, s.dev.spin.st = .coast → s.dev.spin.decelAt = none →
    GivesThat .rotorStopped s fun d' => d'.spin.st = .off ∧ d'.spin.stopped = true ∧ Untouched [SP_STATUS, SP_INT] s.dev d') ∧
  (∀ (s : State) (t : Nat), s.dev.spin.st = .coast → s.dev.spin.decelAt = some t → (s.dev.chron.chr - t) / 1000 < 2 ^ 32 →
    GivesThat .rotorStopped s fun d' =>
      d'.spin.st = .off ∧ d'.spin.decelAt = none ∧ d'.rd SP_DECEL_MS = (s.dev.chron.chr - t) / 1000 ∧ d'.rd SP_INT_DECEL_DONE = 1 ∧
      Untouched [SP_STATUS, SP_INT, SP_DECEL, RG_LOGSTAT] s.dev d') ∧
  (∀ (s : State) (v c : Nat), s.dev.up = false → Gives (.busConversion v c) s s.dev) ∧
  (∀ (s : State) (v c : Nat), s.dev.up = true → v < 4096 → c < 4096 → (∀ p, s.dev.spin.bus.head? = some p → p ≤ v + 213) →
    GivesThat (.busConversion v c) s fun d' =>
      d'.rd SP_BUS_VOLT = v ∧ d'.rd SP_BUS_CURR = c ∧ d'.rd (SP_ADC_CODE 3) = v ∧ d'.rd (SP_ADC_CODE 4) = c ∧ d'.spin.bus = v :: s.dev.spin.bus.take 2 ∧
      d'.spin.st = s.dev.spin.st ∧ Untouched [SP_BUS, SP_ADC 3, SP_ADC 4] s.dev d') ∧
  (∀ (s : State) (v c p : Nat), s.dev.up = true → v < 4096 → c < 4096 → s.dev.spin.bus.head? = some p → v + 213 < p → s.dev.spin.st.active = true →
    GivesThat (.busConversion v c) s fun d' => d'.spin.brkDead = true ∧ d'.rd SP_STATUS_CHOPON = 0 ∧ d'.spin.st = .coast) ∧
  (∀ s : State, s.dev.busAtLeast 3072 = false ∨ s.dev.spin.st = .fault → Gives .overvoltageFault s s.dev) ∧
  (∀ s : State, s.dev.busAtLeast 3072 = true → s.dev.spin.st ≠ .fault → s.dev.retracting = true →
    GivesThat .overvoltageFault s fun d' =>
      d'.spin.st = .fault ∧ d'.spin.duty = [] ∧ d'.rd SP_STATUS_CHOPON = 0 ∧ d'.rd SP_STATUS_OVFLT = 1 ∧ d'.rd SP_INT_OVFLT = 1 ∧ d'.spin.decelAt ≠ none ∧
      d'.out = s.dev.out ++ [.toRegulator true] ∧ Untouched spRegs s.dev d') ∧
  (∀ s : State, s.dev.busAtLeast 2944 = true → s.dev.bit SP_STATUS_REGSTOP = false →
    GivesThat .regenStop s fun d' => d'.rd SP_STATUS_REGSTOP = 1 ∧ d'.rd SP_INT_REGSTOP = 1 ∧ d'.spin = s.dev.spin ∧ Untouched spRegs s.dev d') ∧
  (∀ s : State, s.dev.busAtLeast 2944 = false → Gives .regenStop s s.dev) ∧
  (∀ s : State, s.dev.busAtMost 2880 = true → Gives .regenResume s (s.dev.wr SP_STATUS_REGSTOP 0)) ∧
  (∀ s : State, s.dev.busAtMost 2880 = false → Gives .regenResume s s.dev) ∧
  (∀ s : State, s.dev.brkAllowed = false ∨ s.dev.busAtLeast 2816 = false → Gives .chopperOn s s.dev) ∧
  (∀ s : State, s.dev.busAtLeast 2816 = true → s.dev.brkAllowed = true → s.dev.bit SP_STATUS_CHOPON = false →
    GivesThat .chopperOn s fun d' =>
      d'.rd SP_STATUS_CHOPON = 1 ∧ d'.spin.brkRef = some (s.dev.rd SP_BUS_CURR, s.dev.rd SP_BUS_VOLT, s.dev.rd SP_BUS_VOLT) ∧
      Untouched [SP_STATUS] s.dev d') ∧
  (∀ s : State, s.dev.busAtMost 2752 = true → s.dev.bit SP_STATUS_CHOPON = true →
    GivesThat .chopperOff s fun d' => d'.rd SP_STATUS_CHOPON = 0 ∧ d'.spin.brkRef = none ∧ Untouched [SP_STATUS] s.dev d') ∧
  (∀ s : State, s.dev.busAtMost 2752 = false → Gives .chopperOff s s.dev) ∧
  (∀ s : State, s.dev.spin.brkRef = none → Gives .chopperCurrentCheck s s.dev ∧ Gives .chopperVoltageCheck s s.dev) ∧
  (∀ (s : State) (i v m : Nat), s.dev.spin.brkRef = some (i, v, m) → i + s.dev.rd SP_CHOP_CHOPIMIN ≤ s.dev.rd SP_BUS_CURR →
    Gives .chopperCurrentCheck s s.dev) ∧
  (∀ (s : State) (i v m : Nat), s.dev.spin.brkRef = some (i, v, m) → s.dev.rd SP_BUS_CURR < i + s.dev.rd SP_CHOP_CHOPIMIN →
    GivesThat .chopperCurrentCheck s fun d' => d'.rd SP_STATUS_CHOPF = 1 ∧ d'.rd SP_STATUS_CHOPON = 0 ∧ d'.rd SP_INT_CHOPF = 1 ∧ Untouched spRegs s.dev d') ∧
  (∀ (s : State) (i v m : Nat), s.dev.spin.brkRef = some (i, v, m) → m + 43 ≤ v → Gives .chopperVoltageCheck s s.dev) ∧
  (∀ (s : State) (i v m : Nat), s.dev.spin.brkRef = some (i, v, m) → v < m + 43 →
    GivesThat .chopperVoltageCheck s fun d' => d'.rd SP_STATUS_CHOPF = 1 ∧ d'.rd SP_STATUS_CHOPON = 0 ∧ d'.rd SP_INT_CHOPF = 1 ∧ Untouched spRegs s.dev d') ∧
  (∀ (s : State) (r : Nat), s.dev.spin.st ≠ .off → Gives (.spChopTest r) s s.dev) ∧
  (∀ (s : State) (r : Nat), s.dev.spin.st = .off → s.dev.bit SP_STATUS_CHOPON = false → s.dev.spin.brkDead = false → s.dev.aon.spun = true →
    s.dev.rd SP_CHOP_CHOPIMIN ≤ r → Gives (.spChopTest r) s (s.dev.wr SP_STATUS_CHOPF 0)) ∧
  (∀ (s : State) (r : Nat), s.dev.spin.st = .listen → s.dev.spin.byCmd = true → s.dev.bit SP_STATUS_CHOPON = false → s.dev.spin.brkDead = false →
    s.dev.aon.spun = true → r < s.dev.rd SP_CHOP_CHOPIMIN →
    GivesThat (.chopperSelfTest r) s fun d' => d'.rd SP_STATUS_CHOPF = 1 ∧ d'.rd SP_INT_CHOPF = 1 ∧ d'.spin.st = .listen ∧ Untouched spRegs s.dev d') ∧
  (∀ (s : State) (r : Nat), s.dev.spin.byCmd = false → Gives (.chopperSelfTest r) s s.dev) ∧
  (∀ s : State, s.dev.busAtMost 2304 = false → Gives .powerFailureDetect s s.dev) ∧
  (∀ s : State, s.dev.busAtMost 2304 = true → s.dev.spin.st ∈ [SpState.run, .brake, .reverse] → s.dev.retracting = true →
    s.dev.rpmAtLeast s.dev.spin.omega.natAbs 600 = true →
    GivesThat .powerFailureDetect s fun d' =>
      d'.spin.st = .holdup ∧ d'.rd SP_INT_HOLDUP = 1 ∧ d'.spin.holdAt = s.dev.chron.chr ∧ d'.out = s.dev.out ++ [.toRegulator false] ∧
      Untouched spRegs s.dev d') ∧
  (∀ s : State, s.dev.busAtMost 2304 = true → s.dev.spin.st ∈ [SpState.start, .catch_] → s.dev.retracting = true →
    GivesThat .powerFailureDetect s fun d' => d'.spin.st = .coast ∧ d'.spin.duty = [] ∧ Untouched spRegs s.dev d') ∧
  (∀ s : State, s.dev.spin.st = .holdup → s.dev.busAtMost 1920 = true →
    GivesThat .holdupEnd s fun d' => d'.spin.st = .coast ∧ d'.spin.duty = [] ∧ Untouched spRegs s.dev d') ∧
  (∀ s : State, s.dev.spin.st = .holdup → s.dev.rpmAtLeast s.dev.spin.omega.natAbs 600 = true → s.dev.busAtMost 1920 = false → Gives .holdupEnd s s.dev) ∧
  (∀ s : State, s.dev.spin.pinned < 3 → Gives .phaseCurrentFault s s.dev) ∧
  (∀ s : State, 3 ≤ s.dev.spin.pinned → s.dev.spin.st.active = true →
    GivesThat .phaseCurrentFault s fun d' => d'.spin.st = .coast ∧ d'.spin.pinned = 0 ∧ Untouched spRegs s.dev d') ∧
  (∀ s : State, 3 ≤ s.dev.spin.busPinned →
    GivesThat .busCurrentFault s fun d' => d'.rd SP_STATUS_CHOPF = 1 ∧ d'.rd SP_STATUS_CHOPON = 0 ∧ d'.spin.busPinned = 0 ∧ Untouched spRegs s.dev d') ∧
  (∀ (s : State) (n : Nat), 48 ≤ Sparse.cnt s.dev.spin.outside n →
    GivesThat (.analogueLimitFault n) s fun d' =>
      d'.rd SP_INT_RANGE = 1 ∧ Sparse.cnt d'.spin.outside n = 0 ∧ d'.spin.st = s.dev.spin.st ∧ Untouched [SP_INT, RG_LOGSTAT] s.dev d') ∧
  (∀ (s : State) (n : Nat), s.dev.spin.st.active = true →
    GivesThat (.conversionTimeout n) s fun d' => d'.spin.st = .coast ∧ d'.spin.duty = [] ∧ Untouched spRegs s.dev d') ∧
  (∀ (s : State) (n : Nat), s.dev.spin.st.active = false → Gives (.conversionTimeout n) s (s.dev.log 7 0x3116 [n, 5]))

/-- Spindle commands: START, STOP, COAST and CLEAR are taken in the states the rules name, START with EN, the engine's RUN, SP_KE0 and RSN; elsewhere they are
refused with REFUSED alone; EN = 0 turns the gates off.
Running: at a peak the shadow duties take effect and the angle advances by OMEGA for a period and by DTHETA; a valley takes the phase codes and starts a sample
in driven states only; a failed plausibility check turns the gates off, and catches again where AUTOCATCH allows it. -/
def Obligations.SpindleCommandsAndPeriods : Prop :=
  (∀ s : State, s.dev.spin.st ∉ [SpState.off, .coast, .brake] ∨ s.dev.bit SP_CTRL_EN = false ∨ s.dev.bit (BE_CTRL_RUN .spindle) = false ∨
      s.dev.rd SP_KE0_KE0 = 0 ∨ s.dev.rd SP_MOTOR_RSN = 0 →
    Gives .spCmdStart s (s.dev.wr SP_STATUS_REFUSED 1)) ∧
  (∀ s : State, s.dev.spin.st ∈ [SpState.off, .coast] → s.dev.bit SP_CTRL_EN = true → s.dev.bit (BE_CTRL_RUN .spindle) = true →
    s.dev.rd SP_KE0_KE0 ≠ 0 → s.dev.rd SP_MOTOR_RSN ≠ 0 →
    GivesThat .spCmdStart s fun d' =>
      d'.spin.st = .listen ∧ d'.spin.byCmd = true ∧ d'.spin.startAt = s.dev.chron.chr ∧ d'.spin.decelAt = none ∧ d'.aon.spun = true ∧
      d'.hnor.spindleStarts = s.dev.hnor.spindleStarts + 1 ∧ d'.rd SP_STATUS_STATE = 1 ∧ d'.rd SP_STATUS_ATTEMPT = 1 ∧ d'.rd SP_STATUS_AUTO = 0 ∧
      d'.rd SP_STATUS_RECATCH = 0 ∧ Untouched [SP_STATUS, SP_INT] s.dev d') ∧
  (∀ s : State, s.dev.spin.st = .brake → s.dev.bit SP_CTRL_EN = true → s.dev.bit (BE_CTRL_RUN .spindle) = true → s.dev.rd SP_KE0_KE0 ≠ 0 →
    s.dev.rd SP_MOTOR_RSN ≠ 0 → s.dev.spin.omega < 0 →
    GivesThat .spCmdStart s fun d' => d'.spin.st = .reverse ∧ d'.spin.ramp = 0 ∧ Untouched [SP_STATUS, SP_INT] s.dev d') ∧
  (∀ s : State, s.dev.spin.st ∈ [SpState.run, .reverse] →
    GivesThat .spCmdStop s fun d' =>
      d'.spin.st = .brake ∧ d'.spin.decelAt = some s.dev.chron.chr ∧ d'.spin.omega = s.dev.spin.omega ∧ Untouched [SP_STATUS, SP_INT] s.dev d') ∧
  (∀ s : State, s.dev.spin.st = .start → Gives .spCmdStop s (s.dev.spEnter .coast) ∧ Gives .spCmdCoast s (s.dev.spEnter .coast)) ∧
  (∀ s : State, s.dev.spin.st ∉ [SpState.start, .run, .reverse] → Gives .spCmdStop s (s.dev.wr SP_STATUS_REFUSED 1)) ∧
  (∀ s : State, s.dev.spin.st ∉ [SpState.start, .run, .brake, .reverse] → Gives .spCmdCoast s (s.dev.wr SP_STATUS_REFUSED 1)) ∧
  (∀ s : State, s.dev.spin.st ∈ [SpState.run, .brake, .reverse] →
    GivesThat .spCmdCoast s fun d' =>
      d'.spin.st = .coast ∧ d'.spin.duty = [] ∧ d'.spin.shadow = none ∧
      d'.spin.decelAt = (if s.dev.spin.decelAt = none then some s.dev.chron.chr else s.dev.spin.decelAt) ∧ Untouched [SP_STATUS, SP_INT] s.dev d') ∧
  (∀ s : State, s.dev.spin.st ≠ .fault → Gives .spCmdClear s (s.dev.wr SP_STATUS_REFUSED 1)) ∧
  (∀ s : State, s.dev.spin.st = .fault → s.dev.spin.stopped = false → Gives .spCmdClear s s.dev) ∧
  (∀ s : State, s.dev.spin.st = .fault → s.dev.spin.stopped = true → s.dev.rd SP_BUS_VOLT < 2752 →
    GivesThat .spCmdClear s fun d' => d'.spin.st = .off ∧ d'.rd SP_STATUS_OVFLT = 0 ∧ Untouched [SP_STATUS, SP_INT] s.dev d') ∧
  (∀ s : State, Gives (.spEnWrite true) s (s.dev.wr SP_CTRL_EN 1)) ∧
  (∀ s : State, s.dev.spin.st ∈ [SpState.off, .fault, .coast] → Gives (.spEnWrite false) s (s.dev.wr SP_CTRL_EN 0)) ∧
  (∀ s : State, s.dev.spin.st ∈ [SpState.listen, .start, .catch_, .run, .brake, .reverse, .holdup] →
    GivesThat (.spEnWrite false) s fun d' =>
      d'.spin.st = .coast ∧ d'.spin.duty = [] ∧ d'.rd SP_CTRL_EN = 0 ∧ Untouched [SP_CTRL, SP_STATUS, SP_INT] s.dev d') ∧
  (∀ s : State, s.dev.up = false → Gives .pwmPeak s s.dev) ∧
  (∀ s : State, s.dev.driving = false → Gives .pwmPeak s s.dev) ∧
  (∀ (s : State) (ds : List Int) (k : Int), s.dev.up = true → s.dev.driving = true → s.dev.spin.shadow = some ds →
    s.dev.spin.omega * 8531968 = k * 10 ^ 8 →
    GivesThat .pwmPeak s fun d' =>
      d'.spin.duty = ds ∧ d'.spin.shadow = none ∧ d'.out = s.dev.out ++ [.duties ds] ∧
      (d'.spin.theta : Int) = ((s.dev.spin.theta : Int) + k + s.dev.spin.dtheta) % 2 ^ 32 ∧ Untouched [] s.dev d') ∧
  (∀ (s : State) (u v w : Nat) (m : Int), s.dev.up = false → Gives (.pwmValley u v w m) s s.dev) ∧
  (∀ (s : State) (u v w : Nat) (m : Int), s.dev.up = true → s.dev.spin.st = .off → u < 4096 → v < 4096 → w < 4096 →
    GivesThat (.pwmValley u v w m) s fun d' =>
      d'.rd (SP_ADC_CODE 0) = u ∧ d'.rd (SP_ADC_CODE 1) = v ∧ d'.rd (SP_ADC_CODE 2) = w ∧ d'.spin.mrpm = m ∧ d'.spin.be.run = s.dev.spin.be.run ∧
      d'.spin.st = .off ∧ d'.spin.duty = s.dev.spin.duty) ∧
  (∀ (s : State) (u v w : Nat) (m : Int), s.dev.up = true → s.dev.spin.st = .run → s.dev.spin.be.run = none → s.dev.spin.be.due = false →
    s.dev.bit (BE_CTRL_RUN .spindle) = true →
    GivesThat (.pwmValley u v w m) s fun d' =>
      (∃ r, d'.spin.be.run = some r ∧ r.pc = 0 ∧ r.slot = 0) ∧ d'.spin.first = false ∧ d'.spin.be.inp.length = 32) ∧
  (∀ s : State, s.dev.spin.syncFail = none → Gives .syncLoss s s.dev) ∧
  (∀ (s : State) (c : Nat), s.dev.spin.syncFail = some c → s.dev.spin.st = .run → s.dev.rd SP_STATUS_RECATCH < 2 → s.dev.bit SP_CTRL_AUTOCATCH = true →
    GivesThat .syncLoss s fun d' =>
      d'.spin.st = .coast ∧ d'.rd SP_INT_SYNC = 1 ∧ d'.rd SP_STATUS_AUTO = 1 ∧ d'.spin.syncFail = none ∧ Untouched spRegs s.dev d') ∧
  (∀ (s : State) (c : Nat), s.dev.spin.syncFail = some c → s.dev.spin.st = .run → s.dev.rd SP_STATUS_RECATCH = 2 →
    GivesThat .syncLoss s fun d' => d'.spin.st = .coast ∧ d'.rd SP_INT_SYNC = 1 ∧ d'.rd SP_STATUS_AUTO = 0 ∧ Untouched spRegs s.dev d') ∧
  (∀ s : State, s.dev.spin.badK < 48 → Gives .keAbnormal s s.dev) ∧
  (∀ s : State, 48 ≤ s.dev.spin.badK → s.dev.spin.st = .brake →
    GivesThat .keAbnormal s fun d' =>
      d'.spin.st = .coast ∧ d'.spin.badK = 0 ∧ d'.rd SP_INT_SYNC = 1 ∧ d'.rd SP_STATUS_AUTO = 0 ∧ Untouched spRegs s.dev d')

/-! ### Escapement -/

namespace Sys2Proof.Machine

/-- The sequencer runs operation `o` at a ROM address, no trap is enabled, and `w` there is a legal microword of this opcode. -/
def Device.ecAt (d : Device) (q : SeqId) (o : EcOp) (w : Word) (op : Nat) : Prop :=
  (d.ec q).op = some o ∧ o.fetching = true ∧ o.pc < 0x4000 ∧ legalWord w.toNat = true ∧ ecOpcode w.toNat = op ∧ o.words < 255 ∧
    ∀ k < 8, d.rd (EC_TRAP_EN q k) = 0

/-- The operation becomes `o` with one more microword since its safe point and the next address `t`; beside the sequencer's status nothing else changes. -/
def ecWent (q : SeqId) (o : EcOp) (t : Nat) (d d' : Device) : Prop :=
  (d'.ec q).op = some { o with pc := t, words := o.words + 1 } ∧ d'.rd (EC_STATUS_PC q) = t ∧
    Untouched [EC_STATUS q] d d'

/-- The result of an ALU function on two 32-bit values (R309). -/
def aluValue (fn a b : Nat) : Nat :=
  match fn with
  | 0 => (a + b) % 2 ^ 32
  | 1 => (a + 2 ^ 32 - b) % 2 ^ 32
  | 2 => a &&& b
  | 3 => a ||| b
  | 4 => a ^^^ b
  | 5 => a
  | 6 => 2 * a % 2 ^ 32
  | _ => a / 2

/-- A machine check: the operation is over, its completion has STATUS 0x02, the sequencer is halted, and the cause and the address are recorded. -/
def machineChecked (q : SeqId) (cause addr : Nat) (d d' : Device) : Prop :=
  (d'.ec q).op = none ∧ (∃ c, (d'.ec q).cpls = (d.ec q).cpls ++ [c] ∧ c.getD 0 0 / 2 ^ 24 = 2) ∧ d'.rd (EC_STATUS_HALT q) = 1 ∧
    d'.rd (EC_MCHK_CAUSE q) = cause ∧ d'.rd (EC_MCHK_ADDR q) = addr ∧ d'.rd (EC_INT_MCHK q) = 1 ∧ d'.rd (EC_STATUS_RUN q) = 0

end Sys2Proof.Machine

/-- Microwords that compute: NOP, LDI, ALU with its eight functions and flags, ADDI, and RDP of the descriptor's words, the slot and the counts.
Microwords that choose the next address: JMP, BR on a condition, MWB on a group of four, CALL and RET on a stack of four.
Microwords that act: WRP and WRPI on the ports, WAIT, SAFE and END at safe points; a wait ends on its condition or its time. With no operation running, or
one that does not fetch, a microword does nothing. -/
def Obligations.MicrowordsComputeChooseAndAct : Prop :=
  (∀ (s : State) (q : SeqId) (w : Word) (o : EcOp), (∀ v ∈ o.g, v < 2 ^ 32) → (∀ v ∈ o.desc, v < 2 ^ 32) →
    (let f := bitsOf w.toNat
     let a := o.g.getD (f 19 4) 0
     let b := o.g.getD (f 15 4) 0
     (s.dev.ecAt q o w 0x00 → GivesThat (.ecNop q w .good) s (ecWent q o (o.pc + 1) s.dev)) ∧
     (s.dev.ecAt q o w 0x01 → GivesThat (.ecLdi q w .good) s (ecWent q { o with g := o.g.set (f 23 4) (f 0 16) } (o.pc + 1) s.dev)) ∧
     (s.dev.ecAt q o w 0x02 → f 12 3 = 0 →
       GivesThat (.ecAlu q w .good) s (ecWent q { o with g := o.g.set (f 23 4) (aluValue 0 a b), z := aluValue 0 a b == 0, n := (aluValue 0 a b).testBit 31, c := decide (2 ^ 32 ≤ a + b) } (o.pc + 1) s.dev)) ∧
     (s.dev.ecAt q o w 0x02 →
       GivesThat (.ecAlu q w .good) s fun d' => ∃ c, ecWent q { o with g := o.g.set (f 23 4) (aluValue (f 12 3) a b), z := aluValue (f 12 3) a b == 0, n := (aluValue (f 12 3) a b).testBit 31, c := c } (o.pc + 1) s.dev d') ∧
     (s.dev.ecAt q o w 0x03 →
       (let v := (((a : Int) + toSigned 12 (f 0 12)) % 2 ^ 32).toNat
        GivesThat (.ecAddi q w .good) s fun d' =>
          ∃ c, ecWent q { o with g := o.g.set (f 23 4) v, z := v == 0, n := v.testBit 31, c := c } (o.pc + 1) s.dev d')) ∧
     (s.dev.ecAt q o w 0x04 → f 0 8 < 16 →
       GivesThat (.ecRdp q w .good) s (ecWent q { o with g := o.g.set (f 23 4) (o.desc.getD (f 0 8) 0) } (o.pc + 1) s.dev)) ∧
     (s.dev.ecAt q o w 0x04 → f 0 8 = 0x10 → o.k < 2 ^ 32 →
       GivesThat (.ecRdp q w .good) s (ecWent q { o with g := o.g.set (f 23 4) o.k } (o.pc + 1) s.dev)) ∧
     (s.dev.ecAt q o w 0x04 → f 0 8 = 0x11 →
       GivesThat (.ecRdp q w .good) s (ecWent q { o with g := o.g.set (f 23 4) (o.count - o.k) } (o.pc + 1) s.dev)))) ∧
  (∀ (s : State) (q : SeqId) (w : Word) (o : EcOp) (x : CondObs),
    (let f := bitsOf w.toNat
     let t := f 0 15
     (s.dev.ecAt q o w 0x07 → GivesThat (.ecJmp q w .good) s (ecWent q o t s.dev)) ∧
     (s.dev.ecAt q o w 0x08 → f 22 5 = 29 →
       GivesThat (.ecBr q w .good x) s (ecWent q o (if f 21 1 = 1 then t else o.pc + 1) s.dev)) ∧
     (s.dev.ecAt q o w 0x08 → f 22 5 = 24 →
       GivesThat (.ecBr q w .good x) s (ecWent q o (if o.z = decide (f 21 1 = 1) then t else o.pc + 1) s.dev)) ∧
     (s.dev.ecAt q o w 0x08 → f 22 5 = 0 →
       GivesThat (.ecBr q w .good x) s (ecWent q o (if x.sectStart = decide (f 21 1 = 1) then t else o.pc + 1) s.dev)) ∧
     (s.dev.ecAt q o w 0x08 → f 22 5 = 12 →
       GivesThat (.ecBr q w .good x) s (ecWent q o (if s.dev.inhibited q.lane = decide (f 21 1 = 1) then t else o.pc + 1) s.dev)) ∧
     (s.dev.ecAt q o w 0x09 → f 24 3 = 6 →
       (let g := (if o.z then 1 else 0) + (if o.n then 2 else 0) + (if o.c then 4 else 0) + (if s.dev.duplex then 8 else 0)
        GivesThat (.ecMwb q w .good x) s (ecWent q o (t ||| (g &&& f 20 4)) s.dev))) ∧
     (s.dev.ecAt q o w 0x0A → o.stack.length < 4 →
       GivesThat (.ecCall q w .good) s (ecWent q { o with stack := (o.pc + 1) :: o.stack } t s.dev)) ∧
     (s.dev.ecAt q o w 0x0A → o.stack.length = 4 → (s.dev.wrp q.lane).gate = none → o.retryFlag = false → (s.dev.wrp q.lane).stepsAsked = false →
       GivesThat (.ecCall q w .good) s (machineChecked q 4 o.pc s.dev)) ∧
     (∀ (a : Nat) (as : List Nat), s.dev.ecAt q o w 0x0B → o.stack = a :: as → a < 2 ^ 15 →
       GivesThat (.ecRet q w .good) s (ecWent q { o with stack := as } a s.dev)) ∧
     (s.dev.ecAt q o w 0x0B → o.stack = [] → (s.dev.wrp q.lane).gate = none → o.retryFlag = false → (s.dev.wrp q.lane).stepsAsked = false →
       GivesThat (.ecRet q w .good) s (machineChecked q 4 o.pc s.dev)))) ∧
  (∀ (s : State) (q : SeqId) (w : Word) (o : EcOp) (x : CondObs),
    (let f := bitsOf w.toNat
     (s.dev.ecAt q o w 0x05 → f 0 8 = 0x24 →
       GivesThat (.ecWrp q w .good) s (ecWent q { o with k := o.g.getD (f 23 4) 0 } (o.pc + 1) s.dev)) ∧
     (s.dev.ecAt q o w 0x06 → f 0 8 = 0x23 → o.k + 1 < o.count →
       GivesThat (.ecWrpi q w .good) s (ecWent q { o with k := o.k + 1 } (o.pc + 1) s.dev)) ∧
     (s.dev.ecAt q o w 0x06 → f 0 8 = 0x20 → f 8 16 = 0 → GivesThat (.ecWrpi q w .good) s (ecWent q { o with rArms := [] } (o.pc + 1) s.dev)) ∧
     (s.dev.ecAt q o w 0x06 → f 0 8 = 0x23 → o.count ≤ o.k + 1 → (s.dev.wrp q.lane).gate = none → o.retryFlag = false →
       (s.dev.wrp q.lane).stepsAsked = false → GivesThat (.ecWrpi q w .good) s (machineChecked q 6 o.pc s.dev)) ∧
     (s.dev.ecAt q o w 0x0C → s.dev.rd (EC_STOP_CAUSES q) = 0 →
       GivesThat (.ecWait q w .good) s fun d' =>
         (d'.ec q).op = some { o with wait := some ⟨f 22 5, f 21 1 == 1⟩, words := 0 } ∧ Untouched [] s.dev d') ∧
     (s.dev.ecAt q o w 0x0D → s.dev.rd (EC_STOP_CAUSES q) = 0 →
       GivesThat (.ecSafe q w .good) s fun d' =>
         (d'.ec q).op = some { o with pc := o.pc + 1, words := 0 } ∧ d'.rd (EC_PROG_PHASE q) = f 0 4 ∧ d'.rd (EC_STATUS_PC q) = o.pc + 1 ∧
         Untouched [EC_STATUS q, EC_PROG q] s.dev d') ∧
     (s.dev.ecAt q o w 0x0E → s.dev.rd (EC_STOP_CAUSES q) = 0 → o.verify = false → o.retryFlag = false → (s.dev.wrp q.lane).stepsAsked = false →
       GivesThat (.ecEnd q w .good) s fun d' =>
         (d'.ec q).op = none ∧ d'.rd (EC_INT_CPL q) = 1 ∧ d'.rd (EC_STATUS_RUN q) = 0 ∧
         (∃ c, (d'.ec q).cpls = (s.dev.ec q).cpls ++ [c] ∧ c.getD 0 0 = f 0 8 * 2 ^ 16 ∧ c.getD 1 0 = o.tag) ∧
         Untouched [EC_STATUS q, EC_INT q] s.dev d') ∧
     (∀ (t : EcWait) (m : Bool), (s.dev.ec q).op = some o → o.wait = some t → m = true ∨ s.dev.cond q o x t.c = t.s → o.pc < 0x4000 →
       (∀ k < 8, s.dev.rd (EC_TRAP_EN q k) = 0) →
       GivesThat (.waitEnd q m x) s fun d' =>
         (d'.ec q).op = some { o with wait := none, tmo := m, words := 0, pc := o.pc + 1 } ∧ Untouched [EC_STATUS q] s.dev d') ∧
     (∀ t : EcWait, (s.dev.ec q).op = some o → o.wait = some t → s.dev.cond q o x t.c ≠ t.s → Gives (.waitEnd q false x) s s.dev) ∧
     ((s.dev.ec q).op = none ∨ ((s.dev.ec q).op = some o ∧ o.fetching = false) → Gives (.ecNop q w .good) s s.dev ∧ Gives (.ecWrp q w .good) s s.dev ∧
       Gives (.ecEnd q w .good) s s.dev) ∧
     ((s.dev.ec q).op = some o → o.fetching = true → o.pc < 0x4000 → legalWord w.toNat = false → (s.dev.wrp q.lane).gate = none → o.retryFlag = false →
       (s.dev.wrp q.lane).stepsAsked = false → GivesThat (.ecNop q w .good) s (machineChecked q 2 o.pc s.dev))))

/-- Operations: GO queues a good descriptor and refuses a bad one with its reason; the oldest one starts when the sequencer is free, enabled and not halted; its
frame entry lets it fetch or ends it; it stops at safe points, on its limits, and completes; FLUSH ends the queued ones, and completions are popped in order. -/
def Obligations.OperationsRunFromPostToCompletion : Prop :=
  (∀ (s : State) (q : SeqId), s.dev.postReason q (s.dev.staged q) = 0 →
    GivesThat (.ecPostGo q) s fun d' =>
      (d'.ec q).queue = (s.dev.ec q).queue ++ [(s.dev.staged q).desc] ∧ (d'.ec q).op = (s.dev.ec q).op ∧ d'.rd (EC_POST_REFUSED q) = 0 ∧
      Untouched [EC_POST q] s.dev d') ∧
  (∀ (s : State) (q : SeqId) (r : Nat), s.dev.postReason q (s.dev.staged q) = r → r ≠ 0 →
    GivesThat (.ecPostGo q) s fun d' =>
      (d'.ec q).queue = (s.dev.ec q).queue ∧ d'.rd (EC_POST_REFUSED q) = 1 ∧ d'.rd (EC_POST_REASON q) = r ∧ d'.rd (EC_INT_REFUSED q) = 1 ∧
      Untouched [EC_POST q, EC_INT q, RG_LOGSTAT] s.dev d') ∧
  (∀ (s : State) (q : SeqId), s.dev.held1 q.lane = false → s.dev.rd (EC_STATUS_PATCHERR q) = 0 →
    ∀ b : Bool, Gives (.ecEnWrite q b) s (s.dev.wr (EC_CTRL_EN q) (if b then 1 else 0))) ∧
  (∀ (s : State) (q : SeqId), s.dev.held1 q.lane = true → Gives (.ecEnWrite q true) s s.dev) ∧
  (∀ (s : State) (q : SeqId) (b : Bool), (s.dev.ec q).queue = [] ∨ (s.dev.ec q).op ≠ none ∨ s.dev.bit (EC_CTRL_EN q) = false ∨
      s.dev.bit (EC_STATUS_HALT q) = true ∨ s.dev.dispatchBarred q.lane = true →
    Gives (.ecDispatch q b) s s.dev) ∧
  (∀ (s : State) (q : SeqId) (c : List Nat) (cs : List (List Nat)) (t : Nat), (s.dev.ec q).queue = c :: cs → (s.dev.ec q).op = none →
    s.dev.bit (EC_CTRL_EN q) = true → s.dev.bit (EC_STATUS_HALT q) = false → (s.dev.ec q).cpls.length < 8 → s.dev.dispatchBarred q.lane = false →
    EcOp.retryFlag { desc := c } = false → (s.dev.sv q.lane).offset = 0 → s.dev.dispatchWord q (EcOp.code { desc := c }) = some t → t < 2 ^ 15 →
    (∀ k < 8, s.dev.rd (EC_TRAP_EN q k) = 0) →
    GivesThat (.ecDispatch q false) s fun d' =>
      (d'.ec q).op = some { desc := c, pc := t } ∧ (d'.ec q).queue = cs ∧ d'.rd (EC_STATUS_RUN q) = 1 ∧ d'.rd (EC_STATUS_PC q) = t ∧
      d'.rd (EC_STOP_CAUSES q) = 0 ∧ Untouched [EC_STATUS q, EC_PROG q, EC_STOP q] s.dev d') ∧
  (∀ (s : State) (q : SeqId) (o : EcOp) (e : FrameEntry), (s.dev.ec q).op = some o → o.frame = none →
    s.dev.entryReadable (s.dev.frameAddr q o.head o.zone) 32 = true →
    frameEntryOf (s.dev.memNum 32 (s.dev.frameAddr q o.head o.zone)) o.head o.zone o.sector = some e → s.dev.rd (EC_STOP_CAUSES q) = 0 →
    GivesThat (.frameEntryFetched q) s fun d' => (d'.ec q).op = some { o with frame := some e, words := 0 } ∧ Untouched [] s.dev d') ∧
  (∀ (s : State) (q : SeqId) (o : EcOp), (s.dev.ec q).op = some o → o.frame = none → o.retryFlag = false → (s.dev.wrp q.lane).stepsAsked = false →
    s.dev.entryReadable (s.dev.frameAddr q o.head o.zone) 32 = false →
    GivesThat (.frameEntryFetched q) s fun d' =>
      (d'.ec q).op = none ∧ (∃ c, (d'.ec q).cpls = (s.dev.ec q).cpls ++ [c] ∧ c.getD 0 0 = 3 * 2 ^ 24) ∧
      Untouched [EC_STATUS q, EC_INT q] s.dev d') ∧
  (∀ (s : State) (q : SeqId), (s.dev.ec q).op = none →
    Gives (.ecAbort q) s s.dev ∧ Gives (.frameEntryFetched q) s s.dev ∧ Gives (.stopComplete q) s s.dev ∧ Gives (.safePointDeadline q) s s.dev ∧
    Gives (.revLimit q) s s.dev) ∧
  (∀ (s : State) (q : SeqId) (o : EcOp), (s.dev.ec q).op = some o → o.wait = none → o.ending = none →
    GivesThat (.ecAbort q) s fun d' =>
      d'.rd (EC_CTRL_ABORT q) = 1 ∧ d'.rd (EC_STOP_ABORT q) = 1 ∧ (d'.ec q).op = some o ∧ Untouched [EC_CTRL q, EC_STOP q] s.dev d') ∧
  (∀ (s : State) (q : SeqId), s.dev.bit (EC_STATUS_PATCHBAD q) = true → Gives (.ecRestart q) s s.dev) ∧
  (∀ (s : State) (q : SeqId), s.dev.bit (EC_STATUS_PATCHBAD q) = false →
    GivesThat (.ecRestart q) s fun d' => d'.rd (EC_STATUS_HALT q) = 0 ∧ d'.word (EC_MCHK q) = 0 ∧ Untouched [EC_STATUS q, EC_MCHK q] s.dev d') ∧
  (∀ (s : State) (q : SeqId), (s.dev.ec q).queue = [] → Gives (.ecFlush q) s s.dev) ∧
  (∀ (s : State) (q : SeqId) (c : List Nat), (s.dev.ec q).queue = [c] →
    GivesThat (.ecFlush q) s fun d' =>
      (d'.ec q).queue = [] ∧ (d'.ec q).op = (s.dev.ec q).op ∧
      (d'.ec q).cpls = (s.dev.ec q).cpls ++ [[4 * 2 ^ 24, c.getD 9 0, 0, 0xFFFF0000]] ∧ d'.rd (EC_INT_CPL q) = 1 ∧ Untouched [EC_INT q] s.dev d') ∧
  (∀ (s : State) (q : SeqId) (c : List Nat) (cs : List (List Nat)), (s.dev.ec q).cpls = c :: cs →
    GivesThat (.ecCplPop q) s fun d' =>
      (d'.ec q).cpls = cs ∧ d'.out = s.dev.out ++ [.reply none (.data (c.getD 3 0))] ∧ Untouched [] s.dev d') ∧
  (∀ (s : State) (q : SeqId) (o : EcOp) (m : Nat), (s.dev.ec q).op = some o → o.stopping = some m → (s.dev.wrp q.lane).gate = none →
    s.dev.seqSlots q = false → o.vpend = [] → o.retryFlag = false → (s.dev.wrp q.lane).stepsAsked = false →
    GivesThat (.stopComplete q) s fun d' =>
      (d'.ec q).op = none ∧ d'.rd (EC_INT_STOPPED q) = 1 ∧ d'.rd (EC_STOP_CAUSES q) = 0 ∧
      (∃ c, (d'.ec q).cpls = (s.dev.ec q).cpls ++ [c] ∧ c.getD 0 0 = 2 ^ 24 + m * 2 ^ 8) ∧
      Untouched [EC_STATUS q, EC_INT q, EC_STOP q] s.dev d') ∧
  (∀ (s : State) (q : SeqId) (o : EcOp), (s.dev.ec q).op = some o → o.stopping = none → Gives (.stopComplete q) s s.dev) ∧
  (∀ (s : State) (q : SeqId) (o : EcOp), (s.dev.ec q).op = some o → o.fetching = true → o.pc < 0x4000 → (s.dev.wrp q.lane).gate = none →
    o.retryFlag = false → (s.dev.wrp q.lane).stepsAsked = false → GivesThat (.safePointDeadline q) s (machineChecked q 5 o.pc s.dev)) ∧
  (∀ (s : State) (q : SeqId) (o : EcOp), (s.dev.ec q).op = some o → s.dev.rd (EC_PROG_REV q) < o.revLimit → Gives (.revLimit q) s s.dev) ∧
  (∀ (s : State) (q : SeqId) (o : EcOp), (s.dev.ec q).op = some o → o.revLimit ≤ s.dev.rd (EC_PROG_REV q) → s.dev.bit (EC_STOP_REVLIMIT q) = false →
    o.stopping = none → o.wait = none → o.ending = none →
    GivesThat (.revLimit q) s fun d' =>
      d'.rd (EC_STOP_REVLIMIT q) = 1 ∧ (d'.ec q).op = some o ∧ Untouched [EC_STOP q, RG_LOGSTAT] s.dev d')

/-! ### L2 caches -/

namespace Sys2Proof.Machine

/-- The core's maintenance operation is taken: pending in its cache, its BUSY 1 and its ERR 0. -/
def opTaken (c : CacheId) (core op a set way : Nat) (d e : Device) : Prop :=
  e.cache c = { d.cache c with ops := (d.cache c).ops ++ [{ core := core, op := op, addr := a, set := set, way := way }] } ∧
    e.rd (c.busy core) = 1 ∧ e.rd (c.err core) = 0 ∧ e.rd (c.mopOp core) = op ∧ Untouched [c.mopReg core] d e

end Sys2Proof.Machine

/-- A maintenance operation is taken from a core whose last one is done, by address inside memory, or by a set and way the cache has; else ERR alone is set.
What the caches do: operations are served in rotating core order and clear BUSY; CLEAN leaves the line in place and clean, INVAL drops it with memory as it
was; lookup turned on again over old lines is flagged stale; a filled line holds memory's words; a way with eight corrected errors, or a bad tag, goes off. -/
def Obligations.L2CachesOperateAndServe : Prop :=
  (∀ (s : State) (c : CacheId) (core : Nat), core < c.cores → s.dev.bit (c.busy core) = false →
    (let a := s.dev.rd (c.maddr core) * 64
     (inSram a = true ∨ s.dev.inDram a = true →
       GivesThat (.l2Clean c core) s (opTaken c core 1 a 0 0 s.dev) ∧ GivesThat (.l2Inval c core) s (opTaken c core 2 a 0 0 s.dev) ∧
       GivesThat (.l2CleanInval c core) s (opTaken c core 3 a 0 0 s.dev) ∧ GivesThat (.l2Zline c core) s (opTaken c core 4 a 0 0 s.dev)) ∧
     (inSram a = false → s.dev.inDram a = false →
       Gives (.l2Clean c core) s (s.dev.wr (c.err core) 1) ∧ Gives (.l2Zline c core) s (s.dev.wr (c.err core) 1)) ∧
     GivesThat (.l2CleanInvalAll c core) s (opTaken c core 8 a 0 0 s.dev) ∧ GivesThat (.l2InvalAll c core) s (opTaken c core 9 a 0 0 s.dev) ∧
     ∀ set way : Nat,
       (set < c.sets → way < c.ways →
         GivesThat (.l2CleanSetway c core set way) s (opTaken c core 5 a set way s.dev) ∧
         GivesThat (.l2InvalSetway c core set way) s (opTaken c core 6 a set way s.dev) ∧
         GivesThat (.l2CleanInvalSetway c core set way) s (opTaken c core 7 a set way s.dev)) ∧
       (c.sets ≤ set ∨ c.ways ≤ way → Gives (.l2InvalSetway c core set way) s (s.dev.wr (c.err core) 1)))) ∧
  (∀ (s : State) (c : CacheId) (core set way : Nat), core < c.cores → s.dev.bit (c.busy core) = true →
    Gives (.l2Clean c core) s (s.dev.wr (c.err core) 1) ∧ Gives (.l2Inval c core) s (s.dev.wr (c.err core) 1) ∧
    Gives (.l2CleanInval c core) s (s.dev.wr (c.err core) 1) ∧ Gives (.l2Zline c core) s (s.dev.wr (c.err core) 1) ∧
    Gives (.l2InvalAll c core) s (s.dev.wr (c.err core) 1) ∧ Gives (.l2InvalSetway c core set way) s (s.dev.wr (c.err core) 1) ∧
    Gives (.l2CleanInvalSetway c core set way) s (s.dev.wr (c.err core) 1) ∧
    Gives (.l2CleanInvalAll c core) s (s.dev.wr (c.err core) 1) ∧ Gives (.l2CleanSetway c core set way) s (s.dev.wr (c.err core) 1)) ∧
  (∀ (s : State) (c : CacheId) (core : Nat), c.cores ≤ core → Gives (.l2Clean c core) s s.dev) ∧
  (∀ (s : State) (c : CacheId), (s.dev.cache c).nextOp c = none → Gives (.l2OperationComplete c) s s.dev) ∧
  (∀ (s : State) (c : CacheId) (o : CacheOp), (s.dev.cache c).nextOp c = some o → (s.dev.cache c).opWaits o = true →
    Gives (.l2OperationComplete c) s s.dev) ∧
  (∀ (s : State) (c : CacheId) (o : CacheOp), (s.dev.cache c).nextOp c = some o → (s.dev.cache c).opWaits o = false → o.op = 9 →
    GivesThat (.l2OperationComplete c) s fun e =>
      (e.cache c).lines = [] ∧ (e.cache c).ops = (s.dev.cache c).ops.filter (fun x => x.core != o.core) ∧ (e.cache c).lastCore = o.core ∧
      e.rd c.validctx = 0 ∧ e.rd c.stale = 0 ∧ e.rd (c.busy o.core) = 0 ∧ ∀ a, e.memByte a = s.dev.memByte a) ∧
  (∀ (s : State) (c : CacheId) (o : CacheOp) (x : CacheLine), (s.dev.cache c).nextOp c = some o → (s.dev.cache c).opWaits o = false → o.op = 2 →
    (s.dev.cache c).lookup (lineOf o.addr) = some x →
    GivesThat (.l2OperationComplete c) s fun e =>
      (e.cache c).lookup (lineOf o.addr) = none ∧ e.rd (c.busy o.core) = 0 ∧ ∀ a, e.memByte a = s.dev.memByte a) ∧
  (∀ (s : State) (c : CacheId) (o : CacheOp) (x : CacheLine), (s.dev.cache c).nextOp c = some o → (s.dev.cache c).opWaits o = false → o.op = 1 →
    (s.dev.cache c).lookup (lineOf o.addr) = some x → x.dirty = true →
    GivesThat (.l2OperationComplete c) s fun e =>
      (e.cache c).lookup (lineOf o.addr) = some { x with dirty := false } ∧ (e.cache c).lastCore = o.core ∧
      (e.cache c).ops = (s.dev.cache c).ops.filter (fun y => y.core != o.core)) ∧
  (∀ (s : State) (c : CacheId) (v : Word), getField v 0 1 = 0 → (s.dev.cache c).lines = [] → Gives (.l2EnWrite c v) s (s.dev.wr c.en 0)) ∧
  (∀ (s : State) (c : CacheId) (v : Word), getField v 0 1 = 0 → (s.dev.cache c).lines ≠ [] →
    GivesThat (.l2EnWrite c v) s fun e =>
      e.rd c.en = 0 ∧ e.rd c.validctx = 1 ∧ e.cache c = s.dev.cache c ∧ Untouched [c.base, c.base + 4] s.dev e) ∧
  (∀ (s : State) (c : CacheId) (v : Word), getField v 0 1 = 1 → s.dev.bit c.en = false → s.dev.bit c.validctx = true →
    GivesThat (.l2EnWrite c v) s fun e =>
      e.rd c.en = 1 ∧ e.rd c.stale = 1 ∧ e.rd c.intStale = 1 ∧ e.cache c = s.dev.cache c ∧
      Untouched [c.base, c.base + 4, c.base + 12, RG_LOGSTAT] s.dev e) ∧
  (∀ (s : State) (c : CacheId) (v : Word), getField v 0 1 = 1 → s.dev.bit c.validctx = false → Gives (.l2EnWrite c v) s (s.dev.wr c.en 1)) ∧
  (∀ (s : State) (c : CacheId) (a w : Nat), (s.dev.cache c).fills = [] → Gives (.l2FillComplete c a w) s s.dev) ∧
  (∀ (s : State) (c : CacheId) (a w : Nat), (s.dev.cache c).fills = [{ addr := lineOf a, waiters := [] }] → w < c.ways → s.dev.wayOff c w = false →
    (s.dev.cache c).disabling = [] → (s.dev.cache c).lookup (lineOf a) = none → (s.dev.cache c).at (c.setOf (lineOf a)) w = none →
    GivesThat (.l2FillComplete c a w) s fun e =>
      (e.cache c).fills = [] ∧
      (e.cache c).lookup (lineOf a) = some
        { way := w, set := c.setOf (lineOf a), addr := lineOf a, dirty := false, tagBad := false, words := (List.range 8).map fun i => s.dev.memWord (lineOf a + 8 * i), bad := (List.range 8).map fun i => s.dev.badBits (lineOf a + 8 * i) } ∧
      Untouched [] s.dev e) ∧
  (∀ (s : State) (c : CacheId) (w : Nat), s.dev.wayOff c w = true → Gives (.l2WayDisable c w) s s.dev) ∧
  (∀ (s : State) (c : CacheId) (w : Nat), s.dev.wayOff c w = false → (s.dev.cache c).disabling = [] → (∀ x ∈ (s.dev.cache c).lines, x.tagBad = false) →
    8 ≤ Sparse.cnt (s.dev.cache c).wayErrs w →
    GivesThat (.l2WayDisable c w) s fun e => (e.cache c).disabling = [(w, false)] ∧ (e.cache c).lines = (s.dev.cache c).lines ∧ Untouched [] s.dev e) ∧
  (∀ (s : State) (c : CacheId) (w : Nat), (s.dev.cache c).disabling = [] → Gives (.l2WayDisableDone c w) s s.dev) ∧
  (∀ (s : State) (c : CacheId) (w : Nat), (s.dev.cache c).disabling = [(w, false)] → w < c.ways → (∀ x ∈ (s.dev.cache c).lines, x.way ≠ w) →
    GivesThat (.l2WayDisableDone c w) s fun e =>
      e.wayOff c w = true ∧ e.rd c.intWayoff = 1 ∧ (e.cache c).disabling = [] ∧ (e.cache c).lines = (s.dev.cache c).lines ∧
      Untouched [c.base + 4, c.base + 8, c.base + 12, RG_LOGSTAT] s.dev e) ∧
  (∀ (s : State) (c : CacheId),
    GivesThat (.l2CeWindowEnd c) s fun e => (e.cache c).wayErrs = [] ∧ (e.cache c).lines = (s.dev.cache c).lines ∧ Untouched [] s.dev e)

/-! ### Cipher engine and key slots -/

/-- Cipher entries: a full queue holds one back; an engine that is off, a malformed entry and a failed binding complete at once with their status; a good one is
queued with its slot and generation; an urgent entry goes first, a suspended message goes on after; a completed one leaves its generation. -/
def Obligations.CipherEntriesAreQueuedServedAndCompleted : Prop :=
  (∀ (s : State) (c : CipherSource) (ws : List Nat), 64 ≤ (s.dev.cipher.queue c.idx).length →
    Gives (.cipherEntryPost c ws) s (s.dev.postGo c true)) ∧
  (∀ (s : State) (l : Lane) (ws : List Nat), (s.dev.cipher.queue l.idx).length < 64 → s.dev.bit CX_CTRL_EN = false →
    GivesThat (.cipherEntryPost (.lane l) ws) s fun d' =>
      d'.cipher.lcpl = s.dev.cipher.lcpl ++ [(l.idx, { tag := (CipherEntry.ofNum (s.dev.stagedEntry (.lane l) ws)).tag, status := 5, units := 0 })] ∧
      d'.cipher.q0 = s.dev.cipher.q0 ∧ d'.cipher.q1 = s.dev.cipher.q1 ∧ d'.rd CX_INT_CPL = 1 ∧ Untouched [CX_INT] s.dev d') ∧
  (∀ (s : State) (ws : List Nat), s.dev.cipher.q2.length < 64 → s.dev.bit CX_CTRL_EN = true → s.dev.bit CX_STATUS_SELFPASS = true →
    s.dev.entryOk .host (CipherEntry.ofNum (s.dev.stagedEntry .host ws)) (s.dev.stagedEntry .host ws) = false →
    GivesThat (.cipherEntryPost .host ws) s fun d' =>
      d'.cipher.hcpl = s.dev.cipher.hcpl ++ [{ tag := (CipherEntry.ofNum (s.dev.stagedEntry .host ws)).tag, status := 6, units := 0 }] ∧
      d'.cipher.q2 = s.dev.cipher.q2 ∧ d'.rd CX_INT_CPL = 1 ∧ Untouched [CX_INT, CX_HPOST] s.dev d') ∧
  (∀ (s : State) (ws : List Nat) (n : Nat), s.dev.cipher.q2.length < 64 → s.dev.bit CX_CTRL_EN = true → s.dev.bit CX_STATUS_SELFPASS = true →
    s.dev.entryOk .host (CipherEntry.ofNum (s.dev.stagedEntry .host ws)) (s.dev.stagedEntry .host ws) = true →
    s.dev.bindCheck (CipherEntry.ofNum (s.dev.stagedEntry .host ws)) = .ok n →
    GivesThat (.cipherEntryPost .host ws) s fun d' =>
      d'.cipher.q2 = s.dev.cipher.q2 ++ [{ CipherEntry.ofNum (s.dev.stagedEntry .host ws) with slot := n, gen := (s.dev.slot n).gen }] ∧
      d'.slot n = { s.dev.slot n with inCur := (s.dev.slot n).inCur + 1 } ∧ d'.cipher.hcpl = s.dev.cipher.hcpl ∧ Untouched [CX_HPOST] s.dev d') ∧
  (∀ (s : State) (t : Nat),
    GivesThat (.cipherUrgentPromote .ln1 t) s fun d' =>
      (∀ c ∈ d'.cipher.q1, c ∈ s.dev.cipher.q1 ∨ (c.urgent = true ∧ c.tag = t)) ∧ d'.cipher.q1.length = s.dev.cipher.q1.length ∧
      d'.cipher.q0 = s.dev.cipher.q0 ∧ Untouched [] s.dev d') ∧
  (∀ (s : State) (m : CipherMsg), s.dev.cipher.service = some m → m.entry.urgent = true → Gives .cipherMessageStart s s.dev) ∧
  (∀ (s : State) (i : Nat) (c : CipherEntry), s.dev.cipher.service = none → s.dev.cipherPick true = some (i, c) →
    GivesThat .cipherMessageStart s fun d' =>
      d'.cipher.service = some { source := i, entry := c } ∧ d'.cipher.suspended = s.dev.cipher.suspended ∧ Untouched [] s.dev d') ∧
  (∀ (s : State) (i : Nat) (c : CipherEntry) (m : CipherMsg), s.dev.cipher.service = some m → m.entry.urgent = false → s.dev.cipher.suspended = none →
    s.dev.cipherPick true = some (i, c) →
    GivesThat .cipherMessageStart s fun d' =>
      d'.cipher.service = some { source := i, entry := c } ∧ d'.cipher.suspended = some m ∧ Untouched [] s.dev d') ∧
  (∀ (s : State) (m : CipherMsg), s.dev.cipher.service = none → s.dev.cipher.suspended = some m → s.dev.cipherPick true = none →
    GivesThat .cipherResume s fun d' => d'.cipher.service = some m ∧ d'.cipher.suspended = none ∧ Untouched [] s.dev d') ∧
  (∀ s : State, s.dev.cipher.suspended = none → Gives .cipherResume s s.dev) ∧
  (∀ (s : State) (ws : List Nat) (f : Option (Nat × Bool)), s.dev.cipher.service = none → Gives (.cipherMessageComplete ws f) s s.dev) ∧
  (∀ (s : State) (ws : List Nat) (m : CipherMsg), s.dev.cipher.service = some m → m.source = 2 → 0 < m.entry.len → m.entry.gen = (s.dev.slot m.entry.slot).gen →
    GivesThat (.cipherMessageComplete ws (some (0, false))) s fun d' =>
      d'.cipher.service = none ∧ d'.cipher.hcpl = s.dev.cipher.hcpl ++ [{ tag := m.entry.tag, status := 3, units := 0 }] ∧
      (d'.slot m.entry.slot).inCur = (s.dev.slot m.entry.slot).inCur - 1 ∧ d'.rd CX_INT_CPL = 1 ∧ Untouched [CX_INT, RG_LOGSTAT] s.dev d') ∧
  (∀ (s : State) (w : Initiator) (b : Bool), s.dev.secMayRead w (if b then 0x144 else 0x84) = false →
    Gives (.cxCplPop w b) s (s.dev.emit (.reply none .busError))) ∧
  (∀ (s : State) (w : Initiator) (c : CipherCpl) (cs : List CipherCpl), s.dev.secMayRead w 0x84 = true → s.dev.cipher.hcpl = c :: cs →
    GivesThat (.cxCplPop w false) s fun d' =>
      d'.cipher.hcpl = cs ∧ d'.out = s.dev.out ++ [.reply none (.data (c.status + c.units * 65536))] ∧ d'.cipher.scpl = s.dev.cipher.scpl ∧
      Untouched [] s.dev d')

/-- Key slots: only the Oprok core commands them; LOAD refuses a retiring or erasing slot and a blob that fails, ERASE waits for the drain, MAP names the slot of
the namespace, which is 1 to 64; a drained generation's old set is zero, an erased slot is empty and unmapped; the mailbox refuses another namespace's slot. -/
def Obligations.KeySlotsFollowTheirStates : Prop :=
  (∀ (s : State) (w : Initiator) (n a b c : Nat) (x : Bool), s.dev.secMayWrite w 0x10000 = false →
    Gives (.keyLoad w n) s (s.dev.emit (.reply none .busError)) ∧ Gives (.keyGenerate w n a b c) s (s.dev.emit (.reply none .busError)) ∧
    Gives (.keyErase w n) s (s.dev.emit (.reply none .busError)) ∧ Gives (.keyMap w n x) s (s.dev.emit (.reply none .busError))) ∧
  (∀ (s : State) (n : Nat), n < 1024 → (s.dev.slot n).st = .retiring →
    GivesThat (.keyLoad .oprok n) s fun d' =>
      d'.rd CX_KRSP_CODE = 2 ∧ d'.rd CX_KRSP_DONE = 1 ∧ d'.cipher.slots = s.dev.cipher.slots ∧ Untouched [CX_KCMD, CX_KRSP] s.dev d') ∧
  (∀ (s : State) (n : Nat), n < 1024 → (s.dev.slot n).st = .empty →
    GivesThat (.keyLoad .oprok n) s fun d' =>
      (openBlob (s.dev.memNum 128 s.dev.kaddr) = none →
        d'.rd CX_KRSP_CODE = 1 ∧ (d'.slot n).st = .empty ∧ Untouched [CX_KCMD, CX_KRSP, RG_LOGSTAT] s.dev d') ∧
      ∀ k : Nat, openBlob (s.dev.memNum 128 s.dev.kaddr) = some k →
        (if bitsOf (s.dev.memNum 128 s.dev.kaddr) 96 32 < s.dev.lowestEpoch (bitsOf (s.dev.memNum 128 s.dev.kaddr) 64 32) then
          d'.rd CX_KRSP_CODE = 4 ∧ (d'.slot n).st = .empty ∧ Untouched [CX_KCMD, CX_KRSP, RG_LOGSTAT] s.dev d'
        else
          d'.rd CX_KRSP_CODE = 0 ∧ (d'.slot n).st = .valid ∧ (d'.slot n).gen = ((s.dev.slot n).gen + 1) % 65536 ∧
          (d'.slot n).setFor (d'.slot n).gen = k ∧ (d'.slot n).nsid = bitsOf (s.dev.memNum 128 s.dev.kaddr) 64 32 ∧
          Untouched [CX_KCMD, CX_KRSP] s.dev d')) ∧
  (∀ (s : State) (n : Nat), n < 1024 → (s.dev.slot n).st = .valid → openBlob (s.dev.memNum 128 s.dev.kaddr) = none →
    GivesThat (.keyLoad .oprok n) s fun d' =>
      d'.rd CX_KRSP_CODE = 1 ∧ (d'.slot n).st = .valid ∧ (d'.slot n).gen = (s.dev.slot n).gen ∧
      (d'.slot n).setFor (d'.slot n).gen = (s.dev.slot n).setFor (s.dev.slot n).gen ∧ Untouched [CX_KCMD, CX_KRSP, RG_LOGSTAT] s.dev d') ∧
  (∀ (s : State) (n a b c : Nat), n < 1024 → (s.dev.slot n).st = .valid → s.dev.memOpen s.dev.kaddr = false →
    GivesThat (.keyGenerate .oprok n a b c) s fun d' =>
      d'.rd CX_KRSP_CODE = 0 ∧ (d'.slot n).st = .retiring ∧ (d'.slot n).gen = ((s.dev.slot n).gen + 1) % 65536 ∧ (d'.slot n).nsid = a ∧
      (d'.slot n).epoch = b ∧ (d'.slot n).tenant = c ∧ (d'.slot n).inPrev = (s.dev.slot n).inCur ∧ (d'.slot n).inCur = 0 ∧
      Untouched [CX_KCMD, CX_KRSP] s.dev d') ∧
  (∀ (s : State) (n : Nat), n < 1024 → (s.dev.slot n).st = .valid →
    GivesThat (.keyErase .oprok n) s fun d' =>
      d'.rd CX_KRSP_CODE = 0 ∧ d'.slot n = { s.dev.slot n with st := .erasing } ∧ Untouched [CX_KCMD, CX_KRSP] s.dev d') ∧
  (∀ (s : State) (n : Nat), n < 1024 → (s.dev.slot n).st = .retiring →
    GivesThat (.keyErase .oprok n) s fun d' =>
      d'.rd CX_KRSP_CODE = 2 ∧ d'.cipher.slots = s.dev.cipher.slots ∧ Untouched [CX_KCMD, CX_KRSP, RG_LOGSTAT] s.dev d') ∧
  (∀ (s : State) (n : Nat), n < 1024 → s.dev.rd CX_KRSP_ARG = 1 →
    GivesThat (.keyMap .oprok n false) s fun d' =>
      d'.mapped 1 = some n ∧ d'.rd CX_KRSP_CODE = 0 ∧ Untouched [CX_KCMD, CX_KRSP, CX_NSMAP 0] s.dev d') ∧
  (∀ (s : State) (n : Nat), n < 1024 → s.dev.rd CX_KRSP_ARG = 1 →
    GivesThat (.keyMap .oprok n true) s fun d' =>
      d'.mapped 1 = none ∧ d'.rd CX_KRSP_CODE = 0 ∧ Untouched [CX_KCMD, CX_KRSP, CX_NSMAP 0] s.dev d') ∧
  (∀ (s : State) (n : Nat), (s.dev.slot n).st ≠ .retiring ∨ (s.dev.slot n).inPrev ≠ 0 → Gives (.keyGenerationDrained n) s s.dev) ∧
  (∀ (s : State) (n : Nat), (s.dev.slot n).st = .retiring → (s.dev.slot n).inPrev = 0 →
    GivesThat (.keyGenerationDrained n) s fun d' =>
      (d'.slot n).st = .valid ∧ (d'.slot n).setFor ((s.dev.slot n).gen + 1) = 0 ∧ (d'.slot n).gen = (s.dev.slot n).gen ∧ Untouched [] s.dev d') ∧
  (∀ (s : State) (n : Nat), (s.dev.slot n).st = .erasing → (s.dev.slot n).inCur = 0 → (s.dev.slot n).inPrev = 0 → (∀ i < 64, s.dev.rd (CX_NSMAP_VALID i) = 0) →
    GivesThat (.keyEraseDrained n) s fun d' =>
      (d'.slot n).st = .empty ∧ (d'.slot n).setA = 0 ∧ (d'.slot n).setB = 0 ∧ Untouched [RG_LOGSTAT] s.dev d') ∧
  (∀ (s : State) (n : Nat), (s.dev.slot n).st = .erasing → 0 < (s.dev.slot n).inCur → Gives (.keyEraseDrained n) s s.dev) ∧
  (∀ (s : State) (n : Nat), (s.dev.slot n).st = .retiring → (s.dev.slot n).drainLogged = false →
    GivesThat (.keyDrainTimeout n) s fun d' => (d'.slot n).drainLogged = true ∧ d'.rd CX_INT_DRAIN = 1 ∧ Untouched [CX_INT, RG_LOGSTAT] s.dev d') ∧
  (∀ (s : State) (n : Nat), (s.dev.slot n).drainLogged = true → Gives (.keyDrainTimeout n) s s.dev) ∧
  (∀ (s : State) (w : Initiator) (r : KeyRequest), s.dev.secMayWrite w 0x200 = false →
    Gives (.keyMailboxRequest w r) s (s.dev.emit (.reply none .busError))) ∧
  (∀ (s : State) (a n : Nat), (s.dev.slot n).st ≠ .empty → (s.dev.slot n).nsid ≠ a →
    GivesThat (.keyMailboxRequest .oprok (.erase a n)) s fun d' =>
      d'.rd CX_KMBRSP_CODE = 3 ∧ d'.rd CX_KMBRSP_READY = 1 ∧ d'.rd CX_INT_KMB = 1 ∧ d'.cipher.slots = s.dev.cipher.slots ∧
      Untouched [CX_KMBRSP, CX_INT] s.dev d') ∧
  (∀ (s : State) (a n : Nat), (s.dev.slot n).st = .valid → (s.dev.slot n).nsid = a →
    GivesThat (.keyMailboxRequest .oprok (.erase a n)) s fun d' =>
      d'.rd CX_KMBRSP_CODE = 0 ∧ (d'.slot n).st = .erasing ∧ Untouched [CX_KMBRSP, CX_INT] s.dev d') ∧
  (∀ (s : State) (v : Word), getField v 0 1 = 0 → Gives (.cxCtrlEnWrite .oprok v) s (s.dev.wr CX_CTRL_EN 0)) ∧
  (∀ (s : State) (v : Word), getField v 0 1 = 1 → s.dev.bit CX_STATUS_SELFFAIL = true → Gives (.cxCtrlEnWrite .oprok v) s s.dev) ∧
  (∀ (s : State) (v : Word), getField v 0 1 = 1 → s.dev.bit CX_STATUS_SELFFAIL = false → s.dev.reloaded = true →
    Gives (.cxCtrlEnWrite .oprok v) s (s.dev.wr CX_CTRL_EN 1)) ∧
  (∀ (s : State) (a : Nat), s.dev.otp.jtagLock = true → a < 0xF0510000 → Gives (.jtagSecurityAccess a) s (s.dev.emit (.reply none .busError))) ∧
  (∀ s : State, s.dev.otp.jtagLock = false → s.dev.cipher.jtagSeen = false →
    GivesThat (.jtagSecurityAccess 0xF0500008) s fun d' =>
      d'.cipher.slots = [] ∧ d'.cipher.jtagSeen = true ∧ (∀ n, d'.mapped n = none) ∧ ∀ a, d'.memByte a = s.dev.memByte a)

/-! ### Power states, Retain, the chronometer, usage -/

/-- Power requests: a target of 6 or 7 is ignored, one during a transition is an error; a request begins when everything waits, ends in PMDONE with its state, or
is withdrawn with an error after 50 ms; a stage goes on to the next when its condition holds; a forced state takes over after its quiescence. -/
def Obligations.PowerRequestsRunTheirStages : Prop :=
  (∀ (s : State) (v : Word), 6 ≤ getField v 0 3 → Gives (.pmodeTargetWrite v) s s.dev) ∧
  (∀ (s : State) (v : Word), getField v 0 3 < 6 → s.dev.bit RG_PSTATUS_BUSY = true ∨ s.dev.power.forcedReq = true →
    Gives (.pmodeTargetWrite v) s (s.dev.wr RG_PSTATUS_ERR 3)) ∧
  (∀ (s : State) (v : Word), getField v 0 3 < 6 → s.dev.bit RG_PSTATUS_BUSY = false → s.dev.power.forcedReq = false →
    GivesThat (.pmodeTargetWrite v) s fun d' =>
      d'.power = { s.dev.power with request := some (getField v 0 3) } ∧ d'.rd RG_PMODE_TARGET = getField v 0 3 ∧ d'.rd RG_PSTATUS_ERR = 0 ∧
      Untouched [RG_PMODE, RG_PSTATUS] s.dev d') ∧
  (∀ s : State, s.dev.power.request = none → Gives .pmTransitionBegin s s.dev) ∧
  (∀ s : State, s.dev.released = false ∨ s.dev.power.forcedReq = true ∨ s.dev.power.run ≠ none → Gives .pmTransitionBegin s s.dev) ∧
  (∀ s : State, s.dev.released = true → s.dev.power.forcedReq = false → s.dev.power.run = none → s.dev.power.retain = .out → s.dev.power.request = some 1 →
    s.dev.rd RG_PSTATUS_STATE = 0 →
    GivesThat .pmTransitionBegin s fun d' =>
      d'.power.run = some { stage := 1, up := false, target := 1, forced := false } ∧ d'.power.request = none ∧ d'.rd RG_PSTATUS_BUSY = 1 ∧
      (∀ l : Lane, d'.rd (CH_CTRL_EN l) = 0 ∧ d'.rd (WR_CTRL_EN l) = 0)) ∧
  (∀ s : State, s.dev.released = true → s.dev.power.forcedReq = false → s.dev.power.run = none → s.dev.power.retain = .out → s.dev.power.request = some 0 →
    s.dev.rd RG_PSTATUS_STATE = 0 →
    GivesThat .pmTransitionBegin s fun d' =>
      d'.power.run = none ∧ d'.power.request = none ∧ d'.rd RG_PSTATUS_BUSY = 0 ∧ d'.rd RG_PSTATUS_STATE = 0 ∧ d'.out = s.dev.out ++ [.pmdone] ∧
      Untouched [RG_PSTATUS, RG_LOGSTAT] s.dev d') ∧
  (∀ (s : State) (b : Bool), s.dev.power.request = none ∨ s.dev.power.run ≠ none → Gives (.pmRequestTimeout b) s s.dev) ∧
  (∀ (s : State) (b : Bool), s.dev.power.request ≠ none → s.dev.power.forcedReq = false → s.dev.power.run = none →
    GivesThat (.pmRequestTimeout b) s fun d' =>
      d'.power.request = none ∧ d'.rd RG_PSTATUS_ERR = (if b then 1 else 2) ∧ d'.rd RG_PSTATUS_STATE = s.dev.rd RG_PSTATUS_STATE ∧
      d'.out = s.dev.out ++ [.pmdone] ∧ Untouched [RG_PSTATUS, RG_LOGSTAT] s.dev d') ∧
  (∀ s : State, s.dev.power.run = none → Gives .pmStageEnd s s.dev) ∧
  (∀ (s : State) (r : PmRun), s.dev.power.run = some r → s.dev.stageDone r = false → Gives .pmStageEnd s s.dev) ∧
  (∀ s : State, s.dev.power.run = some { stage := 1, up := false, target := 1, forced := false } → s.dev.power.forcedReq = false →
    GivesThat .pmStageEnd s fun d' =>
      d'.power.run = none ∧ d'.power.lastEnd = s.dev.chron.chr ∧ d'.rd RG_PSTATUS_STATE = 1 ∧ d'.rd RG_PSTATUS_BUSY = 0 ∧ d'.rd RG_PSTATUS_FORCED = 0 ∧
      d'.out = s.dev.out ++ [.pmdone] ∧ Untouched [RG_PSTATUS, RG_LOGSTAT] s.dev d') ∧
  (∀ s : State, s.dev.power.run = some { stage := 2, up := false, target := 3, forced := false } → s.dev.power.forcedReq = false →
    s.dev.lanePark .ln0 = true → s.dev.lanePark .ln1 = true →
    GivesThat .pmStageEnd s fun d' =>
      d'.power.run = some { stage := 3, up := false, target := 3, forced := false } ∧ d'.rd SP_SPEED_TARGET = s.dev.rd RG_PSLOW_SPEED ∧
      d'.rd RG_PSTATUS_BUSY = 1 ∧ Untouched [RG_PSTATUS, SP_SPEED] s.dev d') ∧
  (∀ (s : State) (n : Nat), s.dev.power.request = none ∨ s.dev.power.forcedReq = false → Gives (.forcedQuiesceTimeout n) s s.dev) ∧
  (∀ (s : State) (n t : Nat), s.dev.power.request = some t → s.dev.power.forcedReq = true → s.dev.power.run = none → s.dev.rd RG_PSTATUS_STATE = t →
    s.dev.host.miForce = false → t ≠ 4 → n < 2 ^ RG_PSTATUS_STOPPED.n →
    GivesThat (.forcedQuiesceTimeout n) s fun d' =>
      d'.power.forcedReq = false ∧ d'.power.request = none ∧ d'.power.run = none ∧ d'.rd RG_PSTATUS_STOPPED = n ∧ d'.rd RG_PSTATUS_FORCED = 1 ∧
      d'.rd RG_PSTATUS_STATE = t ∧ d'.rd RG_PSTATUS_BUSY = 0 ∧ Untouched [RG_PSTATUS, RG_LOGSTAT] s.dev d')

/-- Retain: entry only where its conditions hold, with the trim set and the chronometer saved; each bank is sealed and the domains gated, and the count goes over to
ticks at a tick's edge; an enabled source wakes it, and an exit with everything intact comes back to Halt with nothing lost. -/
def Obligations.RetainIsEnteredSealedAndLeft : Prop :=
  (∀ s : State, s.dev.retainReady = false → Gives .retainEntry s s.dev) ∧
  (∀ s : State, s.dev.retainReady = true →
    GivesThat .retainEntry s fun d' =>
      d'.power.retain = .entering ∧ d'.nor.chronRec = s.dev.chron.chr ∧ d'.chron = s.dev.chron ∧
      d'.rd RG_CHRTRIM_TRIM = chrTrim (s.dev.rd (RG_TEMP_CODE 6)) (s.dev.rd RG_XTAL_K) (s.dev.rdI RG_XTAL_T0) ∧ Untouched [RG_CHRTRIM] s.dev d') ∧
  (∀ s : State, s.dev.rd RG_RETIDLE_TIME = 0 ∨ s.dev.rd RG_PSTATUS_STATE ≠ 4 ∨ s.dev.power.retain ≠ .out → Gives .retainIdleExpire s s.dev) ∧
  (∀ s : State, s.dev.rd RG_RETIDLE_TIME ≠ 0 → s.dev.retainReady = true →
    GivesThat .retainIdleExpire s fun d' => d'.power.retain = .entering ∧ d'.nor.chronRec = s.dev.chron.chr ∧ Untouched [RG_CHRTRIM] s.dev d') ∧
  (∀ (s : State) (p : Nat), s.dev.power.retain ≠ .entering → Gives (.retainSealDone p) s s.dev) ∧
  (∀ (s : State) (p : Nat), s.dev.power.retain = .entering →
    GivesThat (.retainSealDone p) s fun d' =>
      d'.power.retain = .gated ∧ d'.power.groupParity = p % 512 ∧ d'.power.retainAt = s.dev.chron.chr ∧
      (∀ b < 16, d'.rd (RG_SEAL_SEAL b) = s.dev.bankSeal b % 2 ^ 32) ∧ ∀ a, d'.memByte a = s.dev.memByte a) ∧
  (∀ s : State, s.dev.power.retain ≠ .gated → Gives .retainTickSwitch s s.dev) ∧
  (∀ s : State, s.dev.power.retain = .gated →
    GivesThat .retainTickSwitch s fun d' =>
      d'.power.retain = (if s.dev.power.woken then .waking else .inside) ∧ d'.chron.chr = s.dev.chron.chr ∧ d'.chron.frac = 0 ∧ Untouched [] s.dev d') ∧
  (∀ (s : State) (p : Nat), s.dev.hasPort p = false ∨ (s.dev.rd RG_WAKEEN_EN).testBit p = false → Gives (.wakePcie p) s s.dev) ∧
  (∀ (s : State) (p : Nat), p < 2 → s.dev.hasPort p = true → (s.dev.rd RG_WAKEEN_EN).testBit p = true → s.dev.power.retain = .inside →
    GivesThat (.wakePcie p) s fun d' =>
      d'.power.retain = .waking ∧ (d'.rd RG_WAKECAUSE_CAUSE).testBit p = true ∧ Untouched [RG_WAKECAUSE] s.dev d') ∧
  (∀ (s : State) (a : Nat), a ≠ 0x1D → a ≠ 0x6A → Gives (.wakeSmbus a) s s.dev) ∧
  (∀ s : State, (s.dev.rd RG_WAKEEN_EN).testBit 3 = true → s.dev.power.retain = .inside →
    GivesThat (.wakeSmbus 0x1D) s fun d' => d'.power.retain = .waking ∧ (d'.rd RG_WAKECAUSE_CAUSE).testBit 3 = true ∧ Untouched [RG_WAKECAUSE] s.dev d') ∧
  (∀ s : State, s.dev.rd RG_AONTMR_SEC = 0 → Gives .wakeAonTimer s s.dev) ∧
  (∀ s : State, s.dev.rd RG_AONTMR_SEC ≠ 0 → (s.dev.rd RG_WAKEEN_EN).testBit 4 = true → s.dev.power.retain = .entering →
    GivesThat .wakeAonTimer s fun d' => d'.power.retain = .out ∧ Untouched [RG_LOGSTAT] s.dev d') ∧
  (∀ s : State, s.dev.power.retain ≠ .out → (s.dev.rd RG_WAKEEN_EN).testBit 2 = true →
    Gives .wakeCrownBreak s (s.dev.updPower fun p => { p with osc := .running })) ∧
  (∀ s : State, s.dev.power.retain = .out → Gives .wakeCrownBreak s s.dev) ∧
  (∀ s : State, s.dev.power.osc = .off → Gives .wakeCrownPattern s s.dev) ∧
  (∀ s : State, s.dev.power.osc = .running → s.dev.power.retain = .inside → (s.dev.rd RG_WAKEEN_EN).testBit 2 = true →
    GivesThat .wakeCrownPattern s fun d' =>
      d'.power.retain = .waking ∧ d'.power.osc = .off ∧ (d'.rd RG_WAKECAUSE_CAUSE).testBit 2 = true ∧ Untouched [RG_WAKECAUSE] s.dev d') ∧
  (∀ s : State, Gives .wakeCrownTimeout s (s.dev.updPower fun p => { p with osc := .off })) ∧
  (∀ (s : State) (g b : Nat) (x y : Bool) (o : BootObs), s.dev.power.retain ≠ .waking → Gives (.retainExit g b x y o) s s.dev) ∧
  (∀ (s : State) (o : BootObs), s.dev.power.retain = .waking → s.dev.power.groupParity < 512 →
    GivesThat (.retainExit s.dev.power.groupParity 0 false true o) s fun d' =>
      d'.power.retain = .out ∧ d'.rd RG_PSTATUS_STATE = 4 ∧ d'.hnor.losses = s.dev.hnor.losses ∧ d'.chron = s.dev.chron ∧ d'.cipher = s.dev.cipher ∧
      Untouched [RG_PSTATUS, RG_SEALSTAT, RG_LOGSTAT] s.dev d')

/-- The chronometer counts microseconds while the root clock counts, and ticks with the trim otherwise; the end of a minute counts that minute's greatest
composite in its two bins; it is saved as it stands; a minute's usage snapshot copies
every meter once, to the medium while the spindle turns. -/
def Obligations.ChronometerAndUsageCount : Prop :=
  (∀ s : State, s.dev.rootCounts = false → Gives .chronometerTick s s.dev) ∧
  (∀ s : State, s.dev.rootCounts = true →
    GivesThat .chronometerTick s fun d' =>
      d'.chron = { s.dev.chron with chr := (s.dev.chron.chr + 1) % 2 ^ 64 } ∧
      d'.duty.busy0 = s.dev.duty.busy0 + (if s.dev.laneBusy .ln0 then 1 else 0) ∧
      d'.duty.busy1 = s.dev.duty.busy1 + (if s.dev.laneBusy .ln1 then 1 else 0) ∧
      (s.dev.busyNs = [] → d'.meters = s.dev.meters) ∧ Untouched [] s.dev d') ∧
  (∀ s : State, s.dev.rootCounts = true → s.dev.host.ps = 1 → s.dev.rd RG_PSTATUS_STATE = 0 → s.dev.inFlight = 0 → s.dev.power.run = none →
    s.dev.power.request = none → s.dev.released = true → GivesThat .chronometerTick s fun d' => d'.power.request = some 1) ∧
  (∀ (s : State) (c : Nat), s.dev.rootCounts = true → s.dev.thermRec.minuteMax = some c → s.dev.chron.chr < 2 ^ 63 →
    (s.dev.chron.chr + 1) % 60000000 = 0 →
    GivesThat .chronometerTick s fun d' =>
      d'.thermRec.minuteMax = none ∧ Sparse.cnt d'.thermRec.bins52 (bin52 c) = Sparse.cnt s.dev.thermRec.bins52 (bin52 c) + 1 ∧
      Sparse.cnt d'.thermRec.bins41 (bin41 c) = Sparse.cnt s.dev.thermRec.bins41 (bin41 c) + 1) ∧
  (∀ s : State, s.dev.ticksCount = false → Gives .retainChronometerTick s s.dev) ∧
  (∀ s : State, s.dev.ticksCount = true → s.dev.rd RG_CHRTRIM_TRIM = 0 → s.dev.chron.frac < 2 ^ 32 → s.dev.chron.chr < 2 ^ 63 →
    GivesThat .retainChronometerTick s fun d' =>
      d'.chron.chr * 2 ^ 32 + d'.chron.frac = s.dev.chron.chr * 2 ^ 32 + s.dev.chron.frac + 30 * 2 ^ 32 + 0x84800000 ∧ d'.chron.frac < 2 ^ 32 ∧
      Untouched [] s.dev d') ∧
  (∀ s : State, s.dev.rootCounts = true → Gives .chronometerNorSave s { s.dev with nor := { s.dev.nor with chronRec := s.dev.chron.chr } }) ∧
  (∀ s : State, s.dev.rootCounts = false → Gives .chronometerNorSave s s.dev ∧ Gives .usageMinuteSnapshot s s.dev ∧ Gives .usageSnapshotNorSave s s.dev) ∧
  (∀ s : State, s.dev.chron.chr / 60000000 ≤ s.dev.usage.seq → Gives .usageMinuteSnapshot s s.dev) ∧
  (∀ s : State, s.dev.rootCounts = true → s.dev.usage.seq < s.dev.chron.chr / 60000000 → s.dev.power.forcedReq = false → s.dev.power.run = none →
    GivesThat .usageMinuteSnapshot s fun d' =>
      d'.usage.seq = s.dev.chron.chr / 60000000 ∧ d'.usage.meters = s.dev.meters ∧ d'.meters = s.dev.meters ∧
      (s.dev.spinTurning = true → d'.medium.usage = d'.usage ∧ d'.chron.unsaved = none) ∧
      (s.dev.spinTurning = false → d'.medium = s.dev.medium ∧ d'.chron.unsaved ≠ none) ∧ Untouched [] s.dev d') ∧
  (∀ s : State, s.dev.rootCounts = true →
    GivesThat .usageSnapshotNorSave s fun d' => d'.nor.usage = s.dev.usage ∧ d'.chron.unsaved = none ∧ d'.chron.chr = s.dev.chron.chr ∧ Untouched [] s.dev d')

/-! ### The regulator: sensors, thermal control, supplies, calibration; the logbook -/

/-- Sensors: diodes, thermistors and rails are read into their registers with their range flags; a diode fails after three readings out of range, a thermistor
after two, and comes back after two in range; a rail low twice fails the supply, one high twice is flagged; a shock input stuck is masked until it is quiet. -/
def Obligations.SensorsAreReadAndFail : Prop :=
  (∀ (s : State) (cs : List Nat), s.dev.regOn = false → Gives (.diodeConversion cs) s s.dev) ∧
  (∀ (s : State) (cs : List Nat), s.dev.regOn = true →
    GivesThat (.diodeConversion cs) s fun d' =>
      (∀ i < 8, d'.rd (RG_TEMP_CODE i) = cs.getD i 0 % 4096 ∧ d'.rd (RG_TEMP_VALID i) = 1 ∧ d'.rd (RG_TEMP_FAIL i) = s.dev.rd (RG_TEMP_FAIL i)) ∧
      (∀ i < 8, s.dev.rd (RG_TEMP_FAIL i) = 0 → cs.getD i 0 % 4096 ≤ d'.rd RG_THSTAT_TMAX) ∧ ∀ a, d'.memByte a = s.dev.memByte a) ∧
  (∀ (s : State) (i : Nat), Sparse.cnt s.dev.thermal.diodeOut i < 3 → Gives (.diodeFail i) s s.dev) ∧
  (∀ (s : State) (i j : Nat), i < 8 → j < 8 → j ≠ i → 3 ≤ Sparse.cnt s.dev.thermal.diodeOut i → s.dev.bit (RG_TEMP_FAIL i) = false →
    s.dev.bit (RG_TEMP_FAIL j) = false →
    GivesThat (.diodeFail i) s fun d' =>
      d'.rd (RG_TEMP_FAIL i) = 1 ∧ d'.rd RG_INT_RANGE = 1 ∧ d'.thermal = s.dev.thermal ∧ Untouched [RG_TEMP i, RG_INT, RG_LOGSTAT] s.dev d') ∧
  (∀ (s : State) (t c : Nat), 2 ≤ t → Gives (.thermistorConversion t c) s s.dev) ∧
  (∀ (s : State) (t c : Nat), s.dev.regOn = true → t < 2 → c < 4096 →
    GivesThat (.thermistorConversion t c) s fun d' =>
      d'.rd (RG_THERM_CODE t) = c ∧ d'.rd (RG_THERM_VALID t) = 1 ∧ (s.dev.outOfRange (8 + t) c = true → d'.rd (RG_THERM_DEGC t) = 0) ∧
      Untouched [RG_THERM t] s.dev d') ∧
  (∀ (s : State) (t : Nat), t < 2 → 2 ≤ Sparse.cnt s.dev.thermal.thermOut t → s.dev.bit (RG_THERM_FAIL t) = false →
    GivesThat (.thermistorOutOfRange t) s fun d' =>
      d'.rd (RG_THERM_FAIL t) = 1 ∧ d'.rd (RG_THERM_DEGC t) = 0 ∧ d'.rd RG_INT_RANGE = 1 ∧ Untouched [RG_THERM t, RG_INT, RG_LOGSTAT] s.dev d') ∧
  (∀ (s : State) (t : Nat), Sparse.cnt s.dev.thermal.thermOut t < 2 → Gives (.thermistorOutOfRange t) s s.dev) ∧
  (∀ (s : State) (t : Nat), t < 2 → 2 ≤ Sparse.cnt s.dev.thermal.thermIn t → s.dev.bit (RG_THERM_FAIL t) = true →
    GivesThat (.thermistorBackInRange t) s fun d' => d'.rd (RG_THERM_FAIL t) = 0 ∧ Untouched [RG_THERM t] s.dev d') ∧
  (∀ (s : State) (t : Nat), s.dev.bit (RG_THERM_FAIL t) = false → Gives (.thermistorBackInRange t) s s.dev) ∧
  (∀ (s : State) (ch c : Nat), ch < 16 ∨ 25 < ch → Gives (.supplyConversion ch c) s s.dev) ∧
  (∀ (s : State) (ch c : Nat), s.dev.regOn = true → 16 ≤ ch → ch ≤ 25 → c < 4096 →
    GivesThat (.supplyConversion ch c) s fun d' =>
      d'.rd (RG_SUP_CODE (ch - 16)) = c ∧ (d'.rd (RG_SUP_LOW (ch - 16)) = 1 ↔ c < (s.dev.limits ch).1) ∧
      (d'.rd (RG_SUP_HIGH (ch - 16)) = 1 ↔ (s.dev.limits ch).2 < c) ∧ Untouched [RG_SUP (ch - 16)] s.dev d') ∧
  (∀ (s : State) (ch : Nat), Sparse.cnt s.dev.thermal.supLow ch < 2 → Gives (.supplyFailure ch) s s.dev) ∧
  (∀ s : State, 2 ≤ Sparse.cnt s.dev.thermal.supLow 16 → s.dev.thermal.supplyFail = false →
    GivesThat (.supplyFailure 16) s fun d' =>
      d'.thermal.supplyFail = true ∧ d'.thermal.supplyKept = some (16, s.dev.rd (RG_SUP_CODE 0)) ∧ d'.boot.phase = .held ∧ d'.emretCause ≠ none ∧
      d'.power.request = none ∧ d'.power.run = none) ∧
  (∀ (s : State) (ch : Nat), Sparse.cnt s.dev.thermal.supHigh ch < 2 → Gives (.supplyHigh ch) s s.dev) ∧
  (∀ (s : State) (ch : Nat), 2 ≤ Sparse.cnt s.dev.thermal.supHigh ch → s.dev.critical.testBit 2 = false →
    GivesThat (.supplyHigh ch) s fun d' => d'.critical = s.dev.critical ||| 4 ∧ d'.rd RG_INT_SUPHIGH = 1) ∧
  (∀ (s : State) (i : Nat), i < 2 → (s.dev.rd RG_SHOCK_IN).testBit i = true → (s.dev.rd RG_SHOCK_STUCK).testBit i = false →
    GivesThat (.shockStuck i) s fun d' =>
      (d'.rd RG_SHOCK_STUCK).testBit i = true ∧ (if i = 0 then d'.shock1 = false else d'.shock2 = false) ∧ d'.rd RG_INT_SHOCKSTUCK = 1 ∧
      Untouched [RG_SHOCK, RG_INT, RG_LOGSTAT] s.dev d') ∧
  (∀ (s : State) (i : Nat), (s.dev.rd RG_SHOCK_IN).testBit i = false → Gives (.shockStuck i) s s.dev) ∧
  (∀ (s : State) (i : Nat), i < 2 → (s.dev.rd RG_SHOCK_STUCK).testBit i = true → (s.dev.rd RG_SHOCK_IN).testBit i = false →
    GivesThat (.shockUnmask i) s fun d' => (d'.rd RG_SHOCK_STUCK).testBit i = false ∧ Untouched [RG_SHOCK] s.dev d') ∧
  (∀ (s : State) (i : Nat), (s.dev.rd RG_SHOCK_STUCK).testBit i = false → Gives (.shockUnmask i) s s.dev) ∧
  (∀ s : State, Gives .smbusClockLowTimeout s (s.dev.log 9 0x6015)) ∧
  (∀ s : State, GivesThat .aonClockMissing s fun d' => d'.rd RG_STATUS_AONFAIL = 1 ∧ Untouched [RG_STATUS, RG_LOGSTAT] s.dev d')

/-- Thermal control: the warning after four readings, the throttle step's rise after four and fall after a thousand, its end; the step in force is the larger of the
computed and the forced one; a shutdown after two readings holds the device; a lane at its share of a window is barred from dispatch. -/
def Obligations.ThermalControlFollowsItsReadings : Prop :=
  (∀ s : State, s.dev.thermal.warnUp < 4 ∨ s.dev.bit RG_THSTAT_WARN = true → Gives .warningSet s s.dev) ∧
  (∀ s : State, 4 ≤ s.dev.thermal.warnUp → s.dev.bit RG_THSTAT_WARN = false →
    GivesThat .warningSet s fun d' => d'.rd RG_THSTAT_WARN = 1 ∧ d'.rd RG_INT_WARN = 1 ∧ d'.critical = s.dev.critical ||| 2) ∧
  (∀ s : State, s.dev.thermal.warnDown < 4 ∨ s.dev.bit RG_THSTAT_WARN = false → Gives .warningClear s s.dev) ∧
  (∀ s : State, 4 ≤ s.dev.thermal.warnDown → s.dev.bit RG_THSTAT_WARN = true →
    GivesThat .warningClear s fun d' =>
      d'.rd RG_THSTAT_WARN = 0 ∧ d'.critical = s.dev.critical &&& 0xFD ∧ Untouched [RG_THSTAT, RG_LOGSTAT] s.dev d') ∧
  (∀ s : State, s.dev.thermal.hot.length < 4 ∨ s.dev.bit RG_THSTAT_THR = true → Gives .throttleSet s s.dev) ∧
  (∀ (s : State) (a b c e : Nat), s.dev.thermal.hot = [a, b, c, e] → s.dev.bit RG_THSTAT_THR = false → s.dev.rd RG_THSTAT_STEP = s.dev.rd RG_THCTRL_FORCE →
    min (min (min a b) c) e ≤ 6 → s.dev.rd RG_THCTRL_FORCE ≤ 6 → s.dev.rd RG_THSTAT_STEP ≠ 0 →
    GivesThat .throttleSet s fun d' =>
      d'.rd RG_THSTAT_THR = 1 ∧ d'.thermal.step = min (min (min a b) c) e ∧
      d'.rd RG_THSTAT_STEP = max (min (min (min a b) c) e) (s.dev.rd RG_THCTRL_FORCE) ∧ d'.rd RG_INT_THROTTLE = 1 ∧
      Untouched [RG_THSTAT, RG_INT, RG_LOGSTAT] s.dev d') ∧
  (∀ s : State, s.dev.bit RG_THSTAT_THR = false → Gives .throttleStepRise s s.dev ∧ Gives .throttleStepFall s s.dev ∧ Gives .throttleClear s s.dev) ∧
  (∀ (s : State) (a b c e : Nat), s.dev.bit RG_THSTAT_THR = true → s.dev.thermal.recent = [a, b, c, e] → s.dev.thermal.step < min (min (min a b) c) e →
    min (min (min a b) c) e ≤ 6 → s.dev.rd RG_THSTAT_STEP = max s.dev.thermal.step (s.dev.rd RG_THCTRL_FORCE) → s.dev.rd RG_THCTRL_FORCE ≤ 6 →
    0 < s.dev.thermal.step →
    GivesThat .throttleStepRise s fun d' =>
      d'.thermal.step = min (min (min a b) c) e ∧ d'.thermal.below = 0 ∧
      d'.rd RG_THSTAT_STEP = max (min (min (min a b) c) e) (s.dev.rd RG_THCTRL_FORCE) ∧ Untouched [RG_THSTAT, RG_INT, RG_LOGSTAT] s.dev d') ∧
  (∀ s : State, s.dev.bit RG_THSTAT_THR = true → 1000 ≤ s.dev.thermal.below → s.dev.rd RG_THSTAT_STEP = max s.dev.thermal.step (s.dev.rd RG_THCTRL_FORCE) →
    0 < s.dev.thermal.step → s.dev.thermal.step ≤ 6 → s.dev.rd RG_THCTRL_FORCE ≤ 6 →
    GivesThat .throttleStepFall s fun d' =>
      d'.thermal.step = s.dev.thermal.step - 1 ∧ d'.thermal.below = 0 ∧ d'.rd RG_THSTAT_STEP = max (s.dev.thermal.step - 1) (s.dev.rd RG_THCTRL_FORCE) ∧
      Untouched [RG_THSTAT, RG_INT, RG_LOGSTAT] s.dev d') ∧
  (∀ s : State, s.dev.bit RG_THSTAT_THR = true → 4 ≤ s.dev.thermal.thrDown → 0 < s.dev.rd RG_THSTAT_STEP → s.dev.rd RG_THCTRL_FORCE ≤ 6 →
    GivesThat .throttleClear s fun d' =>
      d'.rd RG_THSTAT_THR = 0 ∧ d'.thermal.step = 0 ∧ d'.thermal.event = none ∧ d'.rd RG_THSTAT_STEP = s.dev.rd RG_THCTRL_FORCE ∧
      d'.thermRec.eventCount = s.dev.thermRec.eventCount + 1 ∧ d'.nor.therm = d'.thermRec ∧ Untouched [RG_THSTAT, RG_INT, RG_LOGSTAT] s.dev d') ∧
  (∀ (s : State) (v : Word), getField v 0 3 = 7 → Gives (.thctrlForceWrite v) s s.dev) ∧
  (∀ (s : State) (v : Word), getField v 0 3 ≠ 7 → 0 < s.dev.rd RG_THSTAT_STEP → s.dev.thermal.step ≤ 6 →
    GivesThat (.thctrlForceWrite v) s fun d' =>
      d'.rd RG_THCTRL_FORCE = getField v 0 3 ∧ d'.rd RG_THSTAT_STEP = max s.dev.thermal.step (getField v 0 3) ∧
      Untouched [RG_THCTRL, RG_THSTAT, RG_INT, RG_LOGSTAT] s.dev d') ∧
  (∀ s : State, s.dev.thermal.shutUp < 2 ∨ s.dev.thermal.shutdown = true → Gives .thermalShutdown s s.dev) ∧
  (∀ s : State, 2 ≤ s.dev.thermal.shutUp → s.dev.thermal.shutdown = false →
    GivesThat .thermalShutdown s fun d' =>
      d'.thermal.shutdown = true ∧ d'.thermRec.shutdowns = s.dev.thermRec.shutdowns + 1 ∧ d'.nor.therm = d'.thermRec ∧ d'.boot.phase = .held ∧
      d'.power.run = none ∧ d'.emretCause ≠ none) ∧
  (∀ (s : State) (t : Straps), s.dev.thermal.coolSince = none ∨ s.dev.thermal.shutdown = false → Gives (.thermalAutoRestart t) s s.dev) ∧
  (∀ (s : State) (t : Straps) (n : Nat), s.dev.thermal.coolSince = some n → s.dev.thermal.shutdown = true → s.dev.bit CB_THERM_RESTART = true →
    n + 60000000 ≤ s.dev.chron.chr →
    Gives (.thermalAutoRestart t) s
      { s.dev.deviceReset 4 t with logbook := { (s.dev.deviceReset 4 t).logbook with held := (s.dev.deviceReset 4 t).logbook.held ++ [(0x6807, [60])] } }) ∧
  (∀ (s : State) (t : Straps), s.dev.thermal.supplyFail = false → Gives (.supplyRecoveryReset t) s s.dev) ∧
  (∀ (s : State) (t : Straps), s.dev.thermal.supplyFail = true → (∀ i < 10, s.dev.bit (RG_SUP_LOW i) = false) →
    Gives (.supplyRecoveryReset t) s (s.dev.deviceReset 3 t)) ∧
  (∀ s : State, Gives .mediaDutyWindow s { s.dev with duty := {} }) ∧
  (∀ (s : State) (l : Lane), s.dev.rd RG_THSTAT_STEP < 2 → Gives (.dutyCapReached l) s s.dev) ∧
  (∀ s : State, s.dev.rd RG_THSTAT_STEP = 3 → 5000 ≤ s.dev.duty.busy0 →
    GivesThat (.dutyCapReached .ln0) s fun d' => d'.dispatchBarred .ln0 = true ∧ d'.duty.barred1 = s.dev.duty.barred1 ∧ Untouched [] s.dev d') ∧
  (∀ s : State, s.dev.rd RG_THSTAT_STEP = 5 → s.dev.duty.busy1 < 1000 → Gives (.dutyCapReached .ln1) s s.dev) ∧
  (∀ (s : State) (e : Int),
    GivesThat (.bandgapTrim e) s fun d' =>
      d'.thermal.bandgapTrim = s.dev.thermal.bandgapTrim + (if e < -1 then -1 else if 1 < e then 1 else e) ∧ Untouched [] s.dev d') ∧
  (∀ (s : State) (a b : Bool),
    GivesThat (.referenceLadderCheck a b) s fun d' => d'.bit RG_REFSEL_REG = a ∧ d'.bit RG_REFSEL_MOTOR = b ∧ Untouched [RG_REFSEL, RG_LOGSTAT] s.dev d')

/-- Calibration requests wait once checked, are granted one lane at a time under the mode's rules, and end by DONE or by their time; the logbook posts, rate-limits,
programs its pending entries with one retry, and mirrors a filled block while the spindle turns. -/
def Obligations.CalibrationIsScheduledAndTheLogbookWritten : Prop :=
  (∀ (s : State) (l : Lane) (k h t : Nat), s.dev.bit (RG_CALREQ_PEND l.idx) = true → Gives (.calreqGo l k h t) s s.dev) ∧
  (∀ (s : State) (l : Lane) (k h t : Nat), s.dev.bit (RG_CALREQ_PEND l.idx) = false → k < 16 → t < 64 →
    k = 0 ∨ 8 ≤ k ∨ t = 0 ∨ (s.dev.rd RG_CALMODE_MODE = 0 ∧ 30 < t) →
    GivesThat (.calreqGo l k h t) s fun d' =>
      d'.rd (RG_CALREQ_ERR l.idx) = 1 ∧ d'.rd (RG_CALREQ_PEND l.idx) = 0 ∧ d'.cal = s.dev.cal ∧ Untouched [RG_CALREQ l.idx] s.dev d') ∧
  (∀ (s : State) (l : Lane) (k h t : Nat), s.dev.bit (RG_CALREQ_PEND l.idx) = false → 0 < k → k < 8 → h < 16 → 0 < t → t ≤ 30 →
    GivesThat (.calreqGo l k h t) s fun d' =>
      d'.rd (RG_CALREQ_PEND l.idx) = 1 ∧ d'.rd (RG_CALREQ_ERR l.idx) = 0 ∧ d'.rd (RG_CALREQ_KIND l.idx) = k ∧
      d'.cal.waiting = s.dev.cal.waiting ++ [{ lane := l, kind := k, head := h, duration := t, since := s.dev.chron.chr, logged := false }] ∧
      Untouched [RG_CALREQ l.idx] s.dev d') ∧
  (∀ s : State, s.dev.cal.waiting.find? s.dev.calOk = none → Gives .calGrant s s.dev) ∧
  (∀ (s : State) (r : CalReq), s.dev.cal.waiting.find? s.dev.calOk = some r → r.duration < 64 →
    GivesThat .calGrant s fun d' =>
      d'.calGrantOf r.lane = some (r.kind, r.head, s.dev.chron.chr) ∧ d'.rd (RG_CALGNT_ACTIVE r.lane.idx) = 1 ∧ d'.rd (RG_CALGNT_MS r.lane.idx) = r.duration ∧
      d'.rd (RG_CALREQ_PEND r.lane.idx) = 0 ∧ d'.rd RG_INT_CALGNT = 1 ∧ (∀ x ∈ d'.cal.waiting, x.lane ≠ r.lane) ∧
      Untouched [RG_CALREQ r.lane.idx, RG_CALGNT r.lane.idx, RG_INT] s.dev d') ∧
  (∀ (s : State) (l : Lane), s.dev.calGrantOf l = none → Gives (.calDoneWrite l) s s.dev ∧ Gives (.calGrantExpire l) s s.dev) ∧
  (∀ (s : State) (l : Lane), s.dev.calGrantOf l ≠ none →
    GivesThat (.calDoneWrite l) s fun d' =>
      d'.calGrantOf l = none ∧ d'.calGrantOf l.other = s.dev.calGrantOf l.other ∧ d'.rd (RG_CALGNT_ACTIVE l.idx) = 0 ∧
      Untouched [RG_CALGNT l.idx] s.dev d') ∧
  (∀ (s : State) (l : Lane) (k h t : Nat), s.dev.calGrantOf l = some (k, h, t) → s.dev.chron.chr < t + 1000 * s.dev.rd (RG_CALGNT_MS l.idx) →
    Gives (.calGrantExpire l) s s.dev) ∧
  (∀ (s : State) (l : Lane) (k h t : Nat), s.dev.calGrantOf l = some (k, h, t) → t + 1000 * s.dev.rd (RG_CALGNT_MS l.idx) ≤ s.dev.chron.chr →
    (∀ q ∈ laneSeqs l, (s.dev.ec q).op = none) →
    GivesThat (.calGrantExpire l) s fun d' =>
      d'.calGrantOf l = none ∧ d'.rd (RG_CALGNT_ACTIVE l.idx) = 0 ∧ d'.rd RG_INT_CALEXP = 1) ∧
  (∀ (s : State) (l : Lane), (∀ r ∈ s.dev.cal.waiting, r.lane ≠ l ∨ r.logged = true) → Gives (.calWaitOverdue l) s s.dev) ∧
  (∀ (s : State) (l : Lane) (r : CalReq), s.dev.cal.waiting = [r] → r.lane = l → r.logged = false → r.kind = 3 →
    r.since + 2 * 250 * 3600000000 ≤ s.dev.chron.chr →
    GivesThat (.calWaitOverdue l) s fun d' => d'.cal.waiting = [{ r with logged := true }] ∧ Untouched [RG_LOGSTAT] s.dev d') ∧
  (∀ (s : State) (n c : Nat) (ps : List Nat), rateLimitedCodes.contains c = false → Gives (.logPost n c ps) s (s.dev.log n c ps)) ∧
  (∀ (s : State) (n c : Nat) (ps : List Nat), rateLimitedCodes.contains c = false → s.dev.boot.phase ≠ .recovery → s.dev.logbook.fifo.length < 256 →
    GivesThat (.logPost n c ps) s fun d' =>
      (∃ x : LogEntry, d'.logbook.fifo = s.dev.logbook.fifo ++ [x] ∧ x.source = n ∧ x.params = ps ∧ x.seq = s.dev.nor.logSeq ∧ x.chr = s.dev.chron.chr) ∧
      d'.nor.logSeq = s.dev.nor.logSeq + 1 ∧ Untouched [] s.dev d') ∧
  (∀ (s : State) (n c x : Nat) (ps : List Nat), rateLimitedCodes.contains c = true → Sparse.cnt s.dev.logbook.last (rateKey c x) ≠ 0 →
    s.dev.chron.chr + 1 < Sparse.cnt s.dev.logbook.last (rateKey c x) + 60000000 →
    GivesThat (.logPost n c (x :: ps)) s fun d' =>
      d'.logbook.fifo = s.dev.logbook.fifo ∧
      Sparse.cnt d'.logbook.suppressed (rateKey c x) = Sparse.cnt s.dev.logbook.suppressed (rateKey c x) + 1 ∧ Untouched [] s.dev d') ∧
  (∀ (s : State) (a b : Bool), s.dev.programDue = false ∨ s.dev.logbook.fifo = [] → Gives (.logbookProgram a b) s s.dev) ∧
  (∀ (s : State) (b : Bool) (x : LogEntry), s.dev.programDue = true → s.dev.logbook.fifo = [x] → s.dev.logbook.lost = 0 → s.dev.nor.logNext % 1024 ≠ 0 →
    GivesThat (.logbookProgram false b) s fun d' =>
      Sparse.find d'.nor.log s.dev.nor.logNext = some x ∧ d'.nor.logNext = (s.dev.nor.logNext + 1) % 65536 ∧ d'.logbook.fifo = [] ∧
      d'.logbook.due = false ∧ Untouched [] s.dev d') ∧
  (∀ s : State, s.dev.programDue = true → s.dev.logbook.fifo ≠ [] →
    GivesThat (.logbookProgram true true) s fun d' =>
      d'.nor.logNext = ((s.dev.nor.logNext + 1) % 65536 + 1) % 65536 ∧ d'.nor.log = s.dev.nor.log ∧ d'.logbook.due = false ∧
      Untouched [RG_LOGSTAT] s.dev d') ∧
  (∀ s : State, s.dev.logbook.fifo = [] → Gives .logbookFlushTimer s s.dev) ∧
  (∀ s : State, s.dev.logbook.fifo ≠ [] → Gives .logbookFlushTimer s { s.dev with logbook := { s.dev.logbook with due := true } }) ∧
  (∀ s : State, s.dev.logbook.toMirror = [] ∨ s.dev.spinTurning = false → Gives .logbookMirrorCopy s s.dev) ∧
  (∀ (s : State) (b : Nat) (bs : List Nat), s.dev.logbook.toMirror = b :: bs → s.dev.spinTurning = true → s.dev.mirror.length + s.dev.nor.log.length ≤ 1048576 →
    GivesThat .logbookMirrorCopy s fun d' =>
      d'.logbook.toMirror = bs ∧ d'.mirror = s.dev.mirror ++ (s.dev.nor.log.filter fun p => p.1 / 1024 == b).map (fun p => p.2) ∧
      d'.nor = s.dev.nor ∧ Untouched [] s.dev d')

/-! ### The crown port, firmware update, activation -/
namespace Sys2Proof.Machine

/-- The crown port is served and a frame the device sends goes out at once: none waits and fewer than four are unacknowledged (R447). -/
def Device.mayAnswer (d : Device) : Prop := d.crownOn = true ∧ d.crown.queued = [] ∧ d.crown.unacked.length < 4

/-- The response a device sends next: its sequence number, the command's code, the payload (R446). -/
def Device.answerFrame (d : Device) (code : Nat) (bytes : List Nat) : Frame := { kind := 2, seq := d.crown.txNext, code := code, payload := bytes }

/-- From `d` to `e` exactly one response has gone out, and it awaits its acknowledgement (R446, R447). -/
def Answered (code : Nat) (bytes : List Nat) (d e : Device) : Prop :=
  e.out = d.out ++ [.frame (d.answerFrame code bytes)] ∧ e.crown.queued = [] ∧
  e.crown.unacked = d.crown.unacked ++ [(d.answerFrame code bytes, 0)] ∧ e.crown.txNext = (d.crown.txNext + 1) % 256

/-- Nothing but the crown port's own state and the frames sent differs (the frame of a command that is only answered). -/
def OnlyAnswered (code : Nat) (bytes : List Nat) (d e : Device) : Prop :=
  Answered code bytes d e ∧ e.nor = d.nor ∧ e.boot = d.boot ∧ e.otp = d.otp ∧ Untouched [] d e

end Sys2Proof.Machine

/-- Solind frames: none is taken while the port is not served; a bad one draws a NAK that names the expected one, HELLO restarts the numbering, one in order and one
of the last four draw an ACK, an unknown command draws status 2; an acknowledged frame is done, a rate or a reset waits for its frame; a frame sent 8 times over ends
the session; the rate reverts and CROWN_WAKE is raised on their time-outs.
Solind commands that change no image: none is carried out while the port is not served; HELLO reports the device and restarts the numbering, SET_BAUD and RESET
take effect when their response is acknowledged, SET_TIME anchors the host's time, STATUS and LOG_READ report. -/
def Obligations.SolindFramesAndCommands : Prop :=
  (∀ (s : State) (bs : List Nat) (x : Bool) (n : Nat) (st : Straps), s.dev.crownOn = false →
    Gives (.crownFrameReceive bs x) s s.dev ∧ Gives (.crownAckReceive n st) s s.dev ∧ Gives (.crownNakReceive n) s s.dev ∧
    Gives .crownInterbyteTimeout s { s.dev with crown := { s.dev.crown with partFrame := false } }) ∧
  (∀ (s : State) (bs : List Nat), s.dev.crownOn = true → s.dev.crown.awaitHello = false →
    Gives (.crownFrameReceive bs false) s (s.dev.emit (.frame { kind := 4, seq := s.dev.crown.rxNext, code := 0, payload := [] })) ∧
    Gives .crownInterbyteTimeout s
      ({ s.dev with crown := { s.dev.crown with partFrame := false } }.emit (.frame { kind := 4, seq := s.dev.crown.rxNext, code := 0, payload := [] }))) ∧
  (∀ (s : State) (bs : List Nat) (f : Frame), s.dev.crownOn = true → parseFrame bs = some f → f.kind = 1 → f.code = 1 →
    GivesThat (.crownFrameReceive bs true) s fun d' =>
      d'.out = s.dev.out ++ [.frame { kind := 3, seq := f.seq, code := 0, payload := [] }] ∧ d'.crown.rxNext = (f.seq + 1) % 256 ∧ d'.crown.txNext = 0 ∧
      d'.crown.unacked = [] ∧ d'.crown.session = true ∧ d'.crown.awaitHello = false ∧ Untouched [] s.dev d') ∧
  (∀ (s : State) (bs : List Nat) (f : Frame), s.dev.crownOn = true → parseFrame bs = some f → f.kind = 1 → f.code ≠ 1 → s.dev.crown.awaitHello = false →
    f.seq = s.dev.crown.rxNext → solindCodes.contains f.code = true →
    GivesThat (.crownFrameReceive bs true) s fun d' =>
      d'.out = s.dev.out ++ [.frame { kind := 3, seq := f.seq, code := 0, payload := [] }] ∧ d'.crown.rxNext = (f.seq + 1) % 256 ∧
      d'.crown.txNext = s.dev.crown.txNext ∧ d'.crown.unacked = s.dev.crown.unacked ∧ d'.crown.unproven = false ∧ Untouched [] s.dev d') ∧
  (∀ (s : State) (bs : List Nat) (f : Frame), s.dev.mayAnswer → parseFrame bs = some f → f.kind = 1 → f.code ≠ 1 → s.dev.crown.awaitHello = false →
    f.seq = s.dev.crown.rxNext → solindCodes.contains f.code = false →
    GivesThat (.crownFrameReceive bs true) s fun d' =>
      d'.out = s.dev.out ++ [.frame { kind := 3, seq := f.seq, code := 0, payload := [] }, .frame (s.dev.answerFrame f.code [2])] ∧ Untouched [] s.dev d') ∧
  (∀ (s : State) (bs : List Nat) (f : Frame), s.dev.crownOn = true → parseFrame bs = some f → f.kind = 1 → f.code ≠ 1 → s.dev.crown.awaitHello = false →
    f.seq ≠ s.dev.crown.rxNext →
    GivesThat (.crownFrameReceive bs true) s fun d' =>
      d'.out = s.dev.out ++ [if (s.dev.crown.rxNext + 256 - f.seq) % 256 ≤ 4 then
        .frame { kind := 3, seq := (s.dev.crown.rxNext + 255) % 256, code := 0, payload := [] }
        else .frame { kind := 4, seq := s.dev.crown.rxNext, code := 0, payload := [] }] ∧
      d'.crown.rxNext = s.dev.crown.rxNext ∧ d'.crown.unacked = s.dev.crown.unacked ∧ Untouched [] s.dev d') ∧
  (∀ (s : State) (f : Frame) (n : Nat) (st : Straps), s.dev.crownOn = true → s.dev.crown.unacked = [(f, n)] → s.dev.crown.queued = [] →
    s.dev.crown.newRate = none → s.dev.crown.resetOn ≠ some f.seq →
    GivesThat (.crownAckReceive f.seq st) s fun d' => d'.crown.unacked = [] ∧ d'.out = s.dev.out ∧ d'.crown.rateIdx = s.dev.crown.rateIdx ∧ Untouched [] s.dev d') ∧
  (∀ (s : State) (f : Frame) (n i : Nat) (st : Straps), s.dev.crownOn = true → s.dev.crown.unacked = [(f, n)] → s.dev.crown.queued = [] →
    s.dev.crown.newRate = some (f.seq, i) → s.dev.crown.resetOn = none →
    GivesThat (.crownAckReceive f.seq st) s fun d' =>
      d'.crown.unacked = [] ∧ d'.crown.rateIdx = i ∧ d'.crown.unproven = true ∧ d'.crown.newRate = none ∧ Untouched [RG_LOGSTAT] s.dev d') ∧
  (∀ (s : State) (f : Frame) (n : Nat) (st : Straps), s.dev.crownOn = true → s.dev.crown.unacked = [(f, n)] → s.dev.crown.newRate = none →
    s.dev.crown.resetOn = some f.seq → s.dev.aon.heldCause = none →
    GivesThat (.crownAckReceive f.seq st) s fun d' =>
      d'.boot.phase = .awaitLock ∧ d'.boot.straps = st ∧ d'.rd RG_RSTCAUSE_CAUSE = 6 ∧ d'.crown.unacked = [] ∧ d'.aon.boots = s.dev.aon.boots + 1) ∧
  (∀ (s : State) (f : Frame) (n : Nat), s.dev.crownOn = true → s.dev.crown.unacked = [(f, n)] → n < 8 →
    GivesThat (.crownNakReceive f.seq) s fun d' =>
      d'.out = s.dev.out ++ [.frame f] ∧ d'.crown.unacked = [(f, n + 1)] ∧ d'.crown.session = s.dev.crown.session ∧ Untouched [] s.dev d') ∧
  (∀ (s : State) (f : Frame) (n : Nat), s.dev.crownOn = true → s.dev.crown.unacked = [(f, n)] → 8 ≤ n →
    GivesThat (.crownNakReceive f.seq) s fun d' =>
      d'.out = s.dev.out ∧ d'.crown.unacked = [] ∧ d'.crown.queued = [] ∧ d'.crown.session = false ∧ d'.crown.awaitHello = true ∧ Untouched [RG_LOGSTAT] s.dev d') ∧
  (∀ s : State, s.dev.crown.unacked = [] → Gives .crownRetransmitTimeout s s.dev) ∧
  (∀ (s : State) (f : Frame) (n : Nat), s.dev.crown.unacked = [(f, n)] →
    GivesThat .crownRetransmitTimeout s fun d' =>
      (n < 8 → d'.out = s.dev.out ++ [.frame f] ∧ d'.crown.unacked = [(f, n + 1)]) ∧
      (8 ≤ n → d'.out = s.dev.out ∧ d'.crown.unacked = [] ∧ d'.crown.awaitHello = true) ∧ Untouched [RG_LOGSTAT] s.dev d') ∧
  (∀ s : State, s.dev.crown.unproven = false → Gives .baudRevertTimeout s s.dev) ∧
  (∀ s : State, s.dev.crown.unproven = true →
    GivesThat .baudRevertTimeout s fun d' => d'.crown = { s.dev.crown with rateIdx := 0, unproven := false } ∧ d'.out = s.dev.out ∧ Untouched [RG_LOGSTAT] s.dev d') ∧
  (∀ s : State, s.dev.eventWaits = false ∨ s.dev.chron.chr < s.dev.crown.lastFrame + 10000000 → Gives .crownWakeTimeout s s.dev) ∧
  (∀ s : State, s.dev.eventWaits = true → s.dev.crown.lastFrame + 10000000 ≤ s.dev.chron.chr →
    Gives .crownWakeTimeout s { s.dev with crown := { s.dev.crown with wake := true } }) ∧
  (∀ (s : State) (a b c : Nat) (x : Bool) (v : Option Verdict) (m : List Nat), s.dev.crownOn = false →
    Gives .solindHello s s.dev ∧ Gives (.solindSetBaud a) s s.dev ∧ Gives (.solindSetTime a) s s.dev ∧ Gives .solindStatus s s.dev ∧
    Gives (.solindLogRead a b) s s.dev ∧ Gives .solindReset s s.dev ∧ Gives (.solindUpdBegin a b) s s.dev ∧ Gives (.solindUpdChunk a b x) s s.dev ∧
    Gives .solindUpdVerify s s.dev ∧ Gives .solindUpdCommit s s.dev ∧ Gives (.solindUpdSchedule a b) s s.dev ∧ Gives .solindUpdCancel s s.dev ∧
    Gives .solindUpdStatus s s.dev ∧ Gives (.solindCalChunk a b c) s s.dev ∧ Gives (.solindCalCommit a v x) s s.dev ∧
    Gives (.solindCalRead a b c) s s.dev ∧ Gives (.solindKeyRevoke m a x) s s.dev ∧ Gives (.solindStoreRecover a) s s.dev) ∧
  (∀ s : State, s.dev.crownOn = true →
    GivesThat .solindHello s fun d' =>
      d'.out = s.dev.out ++ [.frame { kind := 2, seq := 0, code := 1, payload :=
        [0, 0x00, 0x52, steppingCode] ++ bytesOf 2 (s.dev.rd (EC_ROMREV_REV ⟨.ln0, false⟩)) ++ bytesOf 8 s.dev.boot.revision ++
        [if s.dev.boot.phase = .recovery then 1 else 0] ++ bytesOf 4 (s.dev.word CB_STATUS).toNat ++ [s.dev.rd RG_UPDSTAT_STAGE] }] ∧
      d'.crown.txNext = 1 ∧ d'.crown.session = true ∧ d'.crown.awaitHello = false ∧ d'.boot = s.dev.boot ∧ Untouched [] s.dev d') ∧
  (∀ (s : State) (r : Nat), s.dev.mayAnswer → r ∉ crownRates → GivesThat (.solindSetBaud r) s (OnlyAnswered 2 [4] s.dev)) ∧
  (∀ (s : State) (i : Nat), s.dev.mayAnswer → i < 4 → s.dev.crown.txNext < 256 →
    GivesThat (.solindSetBaud (crownRates.getD i 0)) s fun d' =>
      OnlyAnswered 2 [0] s.dev d' ∧ d'.crown.newRate = some (s.dev.crown.txNext, i) ∧ d'.crown.rateIdx = s.dev.crown.rateIdx) ∧
  (∀ (s : State) (ms : Nat), s.dev.mayAnswer → s.dev.boot.phase = .recovery → GivesThat (.solindSetTime ms) s (OnlyAnswered 3 [3] s.dev)) ∧
  (∀ (s : State) (ms : Nat), s.dev.mayAnswer → s.dev.boot.phase = .released → ms < 2 ^ 64 →
    GivesThat (.solindSetTime ms) s fun d' =>
      Answered 3 [0] s.dev d' ∧ d'.chron = { s.dev.chron with anchor := some (ms, s.dev.chron.chr) } ∧ d'.hostMs = ms ∧ Untouched [RG_LOGSTAT] s.dev d') ∧
  (∀ s : State, s.dev.mayAnswer →
    GivesThat .solindStatus s (OnlyAnswered 0x10 ([0] ++ bytesOf 4 (s.dev.word RG_BOOTSTAT).toNat ++ bytesOf 4 (s.dev.word RG_RSTCAUSE).toNat ++
      bytesOf 4 (s.dev.word RG_UPDSTAT).toNat ++ bytesOf 4 (s.dev.word CB_STATUS).toNat) s.dev)) ∧
  (∀ (s : State) (a n : Nat), s.dev.mayAnswer → n = 0 ∨ 64 < n → GivesThat (.solindLogRead a n) s (OnlyAnswered 0x11 [4] s.dev)) ∧
  (∀ (s : State) (a n : Nat), s.dev.mayAnswer → 0 < n → n ≤ 64 →
    GivesThat (.solindLogRead a n) s (OnlyAnswered 0x11 (0 :: (((s.dev.nor.log.map (·.2)).filter fun e =>
      decide (a ≤ e.seq) && decide (e.seq < a + n)).flatMap LogEntry.bytes)) s.dev)) ∧
  (∀ s : State, s.dev.mayAnswer → s.dev.crown.txNext < 256 →
    GivesThat .solindReset s fun d' => OnlyAnswered 0xF0 [0] s.dev d' ∧ d'.crown.resetOn = some s.dev.crown.txNext)

/-- Firmware update: a download begins anew, goes on or is refused; each chunk is programmed in order with its journal entry; the staged image is verified, copied
into the inactive slot, scheduled and cancelled, each from its stage only, a long one at a time; the status is reported. -/
def Obligations.FirmwareUpdatesGoThroughTheirStages : Prop :=
  (∀ (s : State) (a b : Nat), s.dev.mayAnswer → s.dev.boot.long ≠ .none →
    GivesThat (.solindUpdBegin a b) s (OnlyAnswered 0x20 [8] s.dev) ∧ GivesThat .solindUpdVerify s (OnlyAnswered 0x22 [8] s.dev) ∧
    GivesThat .solindUpdCommit s (OnlyAnswered 0x23 [8] s.dev)) ∧
  (∀ (s : State) (len ident : Nat), s.dev.mayAnswer → s.dev.boot.long = .none → s.dev.brec.stage = 0 → 4096 ≤ len → len ≤ 8388608 → len % 16 = 0 →
    GivesThat (.solindUpdBegin len ident) s fun d' =>
      Answered 0x20 [0, 0, 0, 0, 0] s.dev d' ∧ d'.nor.journal = [] ∧ d'.nor.staging = [] ∧ d'.brec.stage = 1 ∧ d'.brec.stagedLen = len ∧
      d'.brec.stagedId = ident ∧ d'.nor.slotA = s.dev.nor.slotA ∧ d'.nor.slotB = s.dev.nor.slotB ∧ d'.rd RG_UPDSTAT_STAGE = 1 ∧ d'.rd RG_UPDSTAT_CHUNKS = 0 ∧
      Untouched [RG_UPDSTAT, RG_LOGSTAT] s.dev d') ∧
  (∀ (s : State) (len ident : Nat), s.dev.mayAnswer → s.dev.boot.long = .none → s.dev.brec.stage = 0 → len < 4096 ∨ 8388608 < len ∨ len % 16 ≠ 0 →
    GivesThat (.solindUpdBegin len ident) s (OnlyAnswered 0x20 [4] s.dev)) ∧
  (∀ (s : State) (len ident : Nat), s.dev.mayAnswer → s.dev.boot.long = .none → s.dev.resumable len ident = true →
    GivesThat (.solindUpdBegin len ident) s fun d' =>
      Answered 0x20 (0 :: bytesOf 4 s.dev.nor.journal.length) s.dev d' ∧ d'.brec = s.dev.brec ∧ d'.nor.staging = s.dev.nor.staging ∧
      d'.nor.journal = s.dev.nor.journal ∧ Untouched [RG_LOGSTAT] s.dev d') ∧
  (∀ (s : State) (k v : Nat) (x : Bool), s.dev.mayAnswer → s.dev.brec.stage ≠ 1 → GivesThat (.solindUpdChunk k v x) s (OnlyAnswered 0x21 [3] s.dev)) ∧
  (∀ (s : State) (k v : Nat) (x : Bool), s.dev.mayAnswer → s.dev.brec.stage = 1 → k ≠ s.dev.nor.journal.length →
    GivesThat (.solindUpdChunk k v x) s (OnlyAnswered 0x21 ([9, 0, 0, 0] ++ bytesOf 4 s.dev.nor.journal.length) s.dev)) ∧
  (∀ (s : State) (v : Nat), s.dev.mayAnswer → s.dev.brec.stage = 1 → GivesThat (.solindUpdChunk s.dev.nor.journal.length v true) s (OnlyAnswered 0x21 [7] s.dev)) ∧
  (∀ (s : State) (v : Nat), s.dev.mayAnswer → s.dev.brec.stage = 1 → v < 2 ^ 32768 →
    GivesThat (.solindUpdChunk s.dev.nor.journal.length v false) s fun d' =>
      Answered 0x21 [0] s.dev d' ∧ d'.nor.journal = s.dev.nor.journal ++ [(s.dev.nor.journal.length, crc32cNum 4096 v)] ∧
      d'.nor.staging = Sparse.ins s.dev.nor.staging s.dev.nor.journal.length v ∧
      d'.brec.stage = (if (s.dev.brec.stagedLen + 4095) / 4096 ≤ s.dev.nor.journal.length + 1 then 2 else 1) ∧ Untouched [RG_UPDSTAT] s.dev d') ∧
  (∀ s : State, s.dev.mayAnswer → s.dev.boot.long = .none → s.dev.brec.stage ≠ 2 → GivesThat .solindUpdVerify s (OnlyAnswered 0x22 [3] s.dev)) ∧
  (∀ s : State, s.dev.mayAnswer → s.dev.boot.long = .none → s.dev.brec.stage = 2 →
    GivesThat .solindUpdVerify s fun d' => Answered 0x22 [1] s.dev d' ∧ d'.boot = { s.dev.boot with long := .verify } ∧ d'.nor = s.dev.nor ∧ Untouched [] s.dev d') ∧
  (∀ (s : State) (o : ImageObs), s.dev.boot.long ≠ .verify → Gives (.updVerifyDone o) s s.dev) ∧
  (∀ (s : State) (o : ImageObs), s.dev.boot.long = .verify → s.dev.brec.stage = 2 →
    GivesThat (.updVerifyDone o) s fun d' =>
      d'.boot.long = .none ∧ d'.rd RG_UPDSTAT_VCODE = s.dev.imageCode s.dev.nor.staging o ∧
      d'.brec.stage = (if s.dev.imageCode s.dev.nor.staging o = 0 then 3 else 0) ∧ d'.nor.staging = s.dev.nor.staging ∧
      Untouched [RG_UPDSTAT, RG_LOGSTAT] s.dev d') ∧
  (∀ s : State, s.dev.mayAnswer → s.dev.boot.long = .none → s.dev.brec.stage ≠ 3 → GivesThat .solindUpdCommit s (OnlyAnswered 0x23 [3] s.dev)) ∧
  (∀ s : State, s.dev.mayAnswer → s.dev.boot.phase = .released → s.dev.boot.long = .none → s.dev.brec.stage = 3 → s.dev.brec.active < 2 →
    GivesThat .solindUpdCommit s fun d' =>
      Answered 0x23 [1] s.dev d' ∧ d'.boot.long = .copy ∧ d'.brec.stage = 4 ∧ d'.brec.active = s.dev.brec.active ∧
      d'.fwSlot (1 - s.dev.brec.active) = [] ∧ d'.fwSlot s.dev.brec.active = s.dev.fwSlot s.dev.brec.active ∧ Untouched [RG_UPDSTAT] s.dev d') ∧
  (∀ (s : State) (x : Bool), s.dev.boot.long ≠ .copy → Gives (.updCopyDone x) s s.dev) ∧
  (∀ (s : State) (x : Bool), s.dev.boot.phase = .released → s.dev.boot.long = .copy → s.dev.brec.active < 2 →
    GivesThat (.updCopyDone x) s fun d' =>
      d'.boot.long = .none ∧ d'.brec.stage = (if x then 3 else 5) ∧ d'.brec.active = s.dev.brec.active ∧
      (x = false → d'.brec.pending = some (1 - s.dev.brec.active) ∧ d'.fwSlot (1 - s.dev.brec.active) = s.dev.nor.staging ∧ d'.brec.pboots = 0) ∧
      d'.fwSlot s.dev.brec.active = s.dev.fwSlot s.dev.brec.active ∧ Untouched [RG_UPDSTAT, RG_LOGSTAT] s.dev d') ∧
  (∀ (s : State) (e w : Nat), s.dev.mayAnswer → s.dev.boot.phase = .recovery → GivesThat (.solindUpdSchedule e w) s (OnlyAnswered 0x24 [3] s.dev)) ∧
  (∀ (s : State) (e w : Nat), s.dev.mayAnswer → s.dev.boot.phase = .released → s.dev.brec.stage = 5 → w = 0 ∨ 600 < w →
    GivesThat (.solindUpdSchedule e w) s (OnlyAnswered 0x24 [4] s.dev)) ∧
  (∀ (s : State) (e w : Nat), s.dev.mayAnswer → s.dev.boot.phase = .released → s.dev.brec.stage = 5 → 0 < w → w ≤ 600 → e < 2 ^ 64 →
    GivesThat (.solindUpdSchedule e w) s fun d' =>
      Answered 0x24 [0] s.dev d' ∧ d'.brec = { s.dev.brec with stage := 6, epoch := e, window := w, seq := (s.dev.brec.seq + 1) % 2 ^ 32 } ∧
      Untouched [RG_UPDSTAT, RG_LOGSTAT] s.dev d') ∧
  (∀ s : State, s.dev.mayAnswer → s.dev.brec.stage = 5 ∨ s.dev.brec.stage = 6 → s.dev.boot.act = .none →
    GivesThat .solindUpdCancel s fun d' =>
      Answered 0x25 [0] s.dev d' ∧ d'.brec.stage = 3 ∧ d'.brec.pending = none ∧ d'.brec.active = s.dev.brec.active ∧ Untouched [RG_UPDSTAT, RG_LOGSTAT] s.dev d') ∧
  (∀ s : State, s.dev.mayAnswer → s.dev.brec.stage = 1 ∨ s.dev.brec.stage = 2 →
    GivesThat .solindUpdCancel s fun d' =>
      Answered 0x25 [0] s.dev d' ∧ d'.brec.stage = 0 ∧ d'.nor.journal = [] ∧ d'.boot.long ≠ .verify ∧ Untouched [RG_UPDSTAT] s.dev d') ∧
  (∀ s : State, s.dev.mayAnswer → s.dev.brec.stage = 0 ∨ s.dev.brec.stage = 3 ∨ s.dev.brec.stage = 7 →
    GivesThat .solindUpdCancel s (OnlyAnswered 0x25 [3] s.dev)) ∧
  (∀ s : State, s.dev.mayAnswer →
    GivesThat .solindUpdStatus s (OnlyAnswered 0x26 ([0, s.dev.brec.stage] ++ bytesOf 2 s.dev.nor.journal.length ++ [s.dev.rd RG_UPDSTAT_VCODE] ++
      bytesOf 4 (if s.dev.brec.stage = 6 then s.dev.brec.epoch + 1000 * s.dev.brec.window - s.dev.hostMs else 0)) s.dev))

/-- Calibre and keys over the crown port, store recovery: chunks go into the calibre buffer, a buffer that fails is refused with its code, one that passes becomes the
copy the commit names; a revocation is checked in its order and fused; recovery starts only while the rebuild has failed, and lets the controllers go on. -/
def Obligations.CalibreKeysAndStoreOverTheCrownPort : Prop :=
  (∀ (s : State) (o n v : Nat), s.dev.mayAnswer → o % 4096 ≠ 0 ∨ 65536 ≤ o ∨ n = 0 ∨ 4096 < n → GivesThat (.solindCalChunk o n v) s (OnlyAnswered 0x30 [4] s.dev)) ∧
  (∀ (s : State) (k n v : Nat), s.dev.mayAnswer → k < 16 → 0 < n → n ≤ 4096 →
    GivesThat (.solindCalChunk (4096 * k) n v) s fun d' =>
      Answered 0x30 [0] s.dev d' ∧ d'.nor = s.dev.nor ∧
      d'.boot.calBuf = Sparse.ins s.dev.boot.calBuf k (putBits ((Sparse.find s.dev.boot.calBuf k).getD (2 ^ 32768 - 1)) 0 (8 * n) v) ∧ Untouched [] s.dev d') ∧
  (∀ (s : State) (c : Nat) (v : Option Verdict) (x : Bool), s.dev.mayAnswer → s.dev.boot.long ≠ .none →
    GivesThat (.solindCalCommit c v x) s (OnlyAnswered 0x31 [8] s.dev)) ∧
  (∀ (s : State) (c : Nat) (v : Option Verdict) (x : Bool), s.dev.mayAnswer → s.dev.boot.long = .none → s.dev.calBufCode v ≠ 0 →
    GivesThat (.solindCalCommit c v x) s (OnlyAnswered 0x31 [5, s.dev.calBufCode v] s.dev)) ∧
  (∀ (s : State) (c : Nat) (v : Option Verdict) (rs : List (Nat × Nat × Nat)), s.dev.mayAnswer → s.dev.boot.long = .none → s.dev.calBufCode v = 0 →
    calRecords s.dev.boot.calBuf = .ok rs → s.dev.rd CB_STATUS_SOURCE = 0 → c < 2 →
    GivesThat (.solindCalCommit c v false) s fun d' =>
      Answered 0x31 [0] s.dev d' ∧ d'.nor.calA = (if c = 0 then s.dev.boot.calBuf else s.dev.nor.calA) ∧
      d'.nor.calB = (if c = 1 then s.dev.boot.calBuf else s.dev.nor.calB) ∧ Untouched [RG_LOGSTAT] s.dev d') ∧
  (∀ (s : State) (c : Nat) (v : Option Verdict) (x : Bool) (rs : List (Nat × Nat × Nat)) (t : Nat), s.dev.mayAnswer → s.dev.boot.long = .none →
    s.dev.calBufCode v = 0 → calRecords s.dev.boot.calBuf = .ok rs → s.dev.rd CB_STATUS_SOURCE ≠ 0 → s.dev.boot.straps.factory = false →
    s.dev.fixedDiff s.dev.boot.calBuf rs = some t →
    GivesThat (.solindCalCommit c v x) s fun d' =>
      Answered 0x31 ([6, 0] ++ bytesOf 2 t) s.dev d' ∧ d'.nor.calA = s.dev.nor.calA ∧ d'.nor.calB = s.dev.nor.calB ∧ Untouched [RG_LOGSTAT] s.dev d') ∧
  (∀ (s : State) (c o n : Nat), s.dev.mayAnswer → 1 < c ∨ 4096 < n ∨ 65536 < o + n → GivesThat (.solindCalRead c o n) s (OnlyAnswered 0x32 [4] s.dev)) ∧
  (∀ (s : State) (c o n : Nat), s.dev.mayAnswer → c < 2 → n ≤ 4096 → o + n ≤ 65536 →
    GivesThat (.solindCalRead c o n) s (OnlyAnswered 0x32 (0 :: chunkBytes (if c = 0 then s.dev.nor.calA else s.dev.nor.calB) o n) s.dev)) ∧
  (∀ (s : State) (m : List Nat) (k : Nat) (x : Bool), s.dev.mayAnswer → s.dev.boot.phase = .released →
    m.length ≠ 16 ∨ m.take 4 ≠ [0x47, 0x52, 0x45, 0x56] ∨ 3 < m.getD 4 0 → GivesThat (.solindKeyRevoke m k x) s (OnlyAnswered 0x40 [4] s.dev)) ∧
  (∀ (s : State) (t k : Nat) (x : Bool), s.dev.mayAnswer → s.dev.boot.phase = .released → t < 4 → k = t ∨ s.dev.otp.usable k = false →
    GivesThat (.solindKeyRevoke ([0x47, 0x52, 0x45, 0x56, t] ++ List.replicate 11 0) k x) s (OnlyAnswered 0x40 [5, 3] s.dev)) ∧
  (∀ (s : State) (t k : Nat), s.dev.mayAnswer → s.dev.boot.phase = .released → t < 4 → k ≠ t → s.dev.otp.usable k = true → s.dev.otp.bad = false →
    s.dev.revokeRefused t = false →
    GivesThat (.solindKeyRevoke ([0x47, 0x52, 0x45, 0x56, t] ++ List.replicate 11 0) k true) s fun d' =>
      Answered 0x40 [0] s.dev d' ∧ d'.otp = { s.dev.otp with revoked := s.dev.otp.revoked ||| 2 ^ t } ∧ d'.nor.calA = s.dev.nor.calA ∧ Untouched [RG_LOGSTAT] s.dev d') ∧
  (∀ (s : State) (t k : Nat), s.dev.mayAnswer → s.dev.boot.phase = .released → t < 4 → k ≠ t → s.dev.otp.usable k = true → s.dev.otp.bad = false →
    s.dev.revokeRefused t = true →
    GivesThat (.solindKeyRevoke ([0x47, 0x52, 0x45, 0x56, t] ++ List.replicate 11 0) k true) s (OnlyAnswered 0x40 ([6, 0] ++ bytesOf 2 t) s.dev)) ∧
  (∀ (s : State) (n : Nat), s.dev.mayAnswer → s.dev.boot.phase = .released → s.dev.boot.long = .none →
    (2 ≤ n → GivesThat (.solindStoreRecover n) s (OnlyAnswered 0x50 [4] s.dev)) ∧
    (n < 2 → s.dev.rd HS_STORE_STS_REBUILD ≠ 3 → GivesThat (.solindStoreRecover n) s (OnlyAnswered 0x50 [3] s.dev)) ∧
    (n < 2 → s.dev.rd HS_STORE_STS_REBUILD = 3 → GivesThat (.solindStoreRecover n) s fun d' =>
      Answered 0x50 [1] s.dev d' ∧ d'.boot = { s.dev.boot with long := .storeRecover n } ∧ d'.medium = s.dev.medium ∧ Untouched [RG_LOGSTAT] s.dev d')) ∧
  (∀ (s : State) (o : RebuildObs), s.dev.boot.long = .none ∨ s.dev.boot.long = .verify ∨ s.dev.boot.long = .copy → Gives (.storeRecoverDone o) s s.dev) ∧
  (∀ (s : State) (o : RebuildObs), s.dev.boot.long = .storeRecover 0 →
    GivesThat (.storeRecoverDone o) s fun d' =>
      d'.boot.long = .none ∧ d'.rd HS_STORE_STS_REBUILD = 2 ∧ d'.host.tables = s.dev.fullScan o ∧ d'.medium.bands = s.dev.medium.bands ∧
      d'.medium.journal = [] ∧ d'.hnor = s.dev.hnor ∧ Untouched [HS_STORE_STS, RG_LOGSTAT] s.dev d') ∧
  (∀ (s : State) (o : RebuildObs), s.dev.boot.long = .storeRecover 1 →
    GivesThat (.storeRecoverDone o) s fun d' =>
      d'.boot.long = .none ∧ d'.rd HS_STORE_STS_REBUILD = 2 ∧ d'.medium.bands = [] ∧ d'.host.tables = {} ∧ d'.nsids = [1] ∧ d'.keys.blobs = [])

/-- Activation and probation: an edge inside the window drains, one outside or during a drain is not taken; the drained activation checks the pending slot, switches
and runs it in probation, or reverts it; it is postponed after 2 s; the window's end takes it back; confirmation makes the slot active and fuses a higher version. -/
def Obligations.ActivationsDrainSwitchAndAreConfirmed : Prop :=
  (∀ s : State, s.dev.boot.phase ≠ .released ∨ s.dev.power.retain ≠ .out ∨ s.dev.brec.stage ≠ 6 ∨ s.dev.boot.act ≠ .none ∨
    s.dev.hostMs < s.dev.brec.epoch ∨ s.dev.brec.epoch + 1000 * s.dev.brec.window < s.dev.hostMs → Gives .actSyncEdge s s.dev) ∧
  (∀ s : State, s.dev.boot.phase = .released → s.dev.power.retain = .out → s.dev.brec.stage = 6 → s.dev.boot.act = .none →
    s.dev.brec.epoch ≤ s.dev.hostMs → s.dev.hostMs ≤ s.dev.brec.epoch + 1000 * s.dev.brec.window →
    GivesThat .actSyncEdge s fun d' =>
      d'.boot = { s.dev.boot with act := .draining, actAt := s.dev.chron.chr } ∧ (s.dev.host.ctrls.1.en = true → d'.host.ctrls.1.pp = true) ∧
      d'.nor = s.dev.nor) ∧
  (∀ (s : State) (o : ImageObs) (p : PatchObs), s.dev.boot.act ≠ .draining ∨ s.dev.inFlight ≠ 0 → Gives (.activationDrainDone o p) s s.dev) ∧
  (∀ (s : State) (o : ImageObs) (p : PatchObs) (n : Nat), s.dev.boot.act = .draining → s.dev.inFlight = 0 → s.dev.brec.pending = some n →
    s.dev.imageCode (s.dev.fwSlot n) o ≠ 0 →
    GivesThat (.activationDrainDone o p) s fun d' =>
      d'.boot.act = .none ∧ d'.brec.pending = none ∧ d'.brec.stage = 9 ∧ d'.host.ctrls.1.pp = false ∧ d'.boot.revision = s.dev.boot.revision ∧
      Untouched [RG_UPDSTAT, RG_LOGSTAT] s.dev d') ∧
  (∀ (s : State) (o : ImageObs) (n : Nat), s.dev.boot.act = .draining → s.dev.inFlight = 0 → s.dev.brec.pending = some n →
    s.dev.imageCode (s.dev.fwSlot n) o = 0 →
    GivesThat (.activationDrainDone o .noPatch) s fun d' =>
      d'.boot.act = .switching ∧ d'.brec.pending = some n ∧ d'.brec.pboots = 1 ∧ d'.brec.stage = s.dev.brec.stage) ∧
  (∀ s : State, s.dev.boot.act ≠ .draining ∨ s.dev.inFlight = 0 ∨ s.dev.chron.chr < s.dev.boot.actAt + 2000000 → Gives .activationDrainTimeout s s.dev) ∧
  (∀ s : State, s.dev.boot.act = .draining → s.dev.inFlight ≠ 0 → s.dev.boot.actAt + 2000000 ≤ s.dev.chron.chr →
    GivesThat .activationDrainTimeout s fun d' =>
      d'.boot = { s.dev.boot with act := .none } ∧ d'.host.ctrls.1.pp = false ∧ d'.nor.bootRec = s.dev.nor.bootRec ∧ Untouched [RG_LOGSTAT] s.dev d') ∧
  (∀ s : State, s.dev.boot.act ≠ .switching ∨ s.dev.brec.pending = none → Gives .activationSwitchDone s s.dev) ∧
  (∀ (s : State) (n : Nat), s.dev.boot.act = .switching → s.dev.brec.pending = some n → n < 2 →
    GivesThat .activationSwitchDone s fun d' =>
      d'.boot.act = .none ∧ d'.boot.revision = imgRevision (s.dev.fwSlot n) ∧ d'.brec.stage = 7 ∧ d'.brec.pboots = 1 ∧ d'.brec.prun = 0 ∧
      d'.rd RG_BOOTSTAT_PROBATION = 1 ∧ d'.rd RG_BOOTSTAT_SLOT = n ∧ d'.host.ctrls.1.pp = false ∧
      Untouched [RG_BOOTSTAT, RG_UPDSTAT, RG_LOGSTAT] s.dev d') ∧
  (∀ s : State, s.dev.brec.stage ≠ 6 ∨ s.dev.boot.act ≠ .none ∨ s.dev.hostMs ≤ s.dev.brec.epoch + 1000 * s.dev.brec.window →
    Gives .activationWindowExpire s s.dev) ∧
  (∀ s : State, s.dev.brec.stage = 6 → s.dev.boot.act = .none → s.dev.brec.epoch + 1000 * s.dev.brec.window < s.dev.hostMs →
    GivesThat .activationWindowExpire s fun d' =>
      d'.brec = { s.dev.brec with stage := 5, seq := (s.dev.brec.seq + 1) % 2 ^ 32 } ∧ d'.rd RG_UPDSTAT_STAGE = 5 ∧ Untouched [RG_UPDSTAT, RG_LOGSTAT] s.dev d') ∧
  (∀ s : State, s.dev.bit RG_BOOTSTAT_PROBATION = false → Gives .probationSaveTimer s s.dev) ∧
  (∀ (s : State) (st : Straps) (x : Bool), s.dev.bit RG_BOOTSTAT_PROBATION = false → Gives (.probationTimeout st) s s.dev ∧ Gives (.bootconfConfirm x) s s.dev) ∧
  (∀ s : State, s.dev.bit RG_BOOTSTAT_PROBATION = true →
    GivesThat .probationSaveTimer s fun d' =>
      d'.brec.prun = s.dev.brec.prun + s.dev.boot.probationUs / 1000000 ∧ d'.boot.probationUs = s.dev.boot.probationUs % 1000000 ∧
      d'.brec.stage = s.dev.brec.stage ∧ Untouched [RG_UPDSTAT] s.dev d') ∧
  (∀ (s : State) (st : Straps), s.dev.bit RG_BOOTSTAT_PROBATION = true → s.dev.brec.prun + s.dev.boot.probationUs / 1000000 < 1800 →
    Gives (.probationTimeout st) s s.dev) ∧
  (∀ (s : State) (st : Straps), s.dev.bit RG_BOOTSTAT_PROBATION = true → 1800 ≤ s.dev.brec.prun + s.dev.boot.probationUs / 1000000 → s.dev.aon.heldCause = none →
    GivesThat (.probationTimeout st) s fun d' =>
      d'.rd RG_RSTCAUSE_CAUSE = 5 ∧ d'.boot.phase = .awaitLock ∧ d'.boot.straps = st ∧ d'.brec.prun = s.dev.brec.prun + s.dev.boot.probationUs / 1000000) ∧
  (∀ (s : State) (x : Bool) (n : Nat), s.dev.bit RG_BOOTSTAT_PROBATION = true → s.dev.brec.pending = some n → imgSvn (s.dev.fwSlot n) < 2 ^ RG_BOOTSTAT_SVN.n →
    GivesThat (.bootconfConfirm x) s fun d' =>
      d'.brec.active = n ∧ d'.brec.pending = none ∧ d'.brec.stage = 8 ∧ d'.rd RG_BOOTSTAT_PROBATION = 0 ∧ d'.rd RG_BOOTSTAT_PBOOTS = 0 ∧
      (s.dev.otp.svn < imgSvn (s.dev.fwSlot n) → x = true → d'.otp.svn = imgSvn (s.dev.fwSlot n) ∧ d'.rd RG_BOOTSTAT_SVN = imgSvn (s.dev.fwSlot n)) ∧
      (imgSvn (s.dev.fwSlot n) ≤ s.dev.otp.svn ∨ x = false → d'.otp = s.dev.otp) ∧ Untouched [RG_BOOTSTAT, RG_UPDSTAT, RG_LOGSTAT] s.dev d')
end

