-- ==== Sys2Proof/Laws/Sparse.lean ====
section
/-!
SUPPORT. Sparse tables: what a read after a write gives, and that every operation keeps the canonical form.
-/
namespace Sys2Proof.Machine

variable {α : Type} (dflt : Nat → α)

/-- A key below every listed one is unlisted. -/
theorem Sparse.get_of_lt [DecidableEq α] {t : List (Nat × α)} {n k : Nat} (h : Sparse.okFrom dflt (some n) t = true) (hk : k ≤ n) :
    Sparse.get dflt t k = dflt k := by
  induction t generalizing n with
  | nil => rfl
  | cons p t ih =>
    obtain ⟨a, v⟩ := p
    simp only [Sparse.okFrom, Bool.and_eq_true, decide_eq_true_eq] at h
    obtain ⟨⟨h1, -⟩, h3⟩ := h
    have hne : k ≠ a := by omega
    simp only [Sparse.get, hne, if_false]
    exact ih h3 (by omega)

/-- A stronger lower bound is a canonical form under a weaker one. -/
theorem Sparse.okFrom_mono [DecidableEq α] {t : List (Nat × α)} {m n : Nat} (h : Sparse.okFrom dflt (some n) t = true) (hm : m ≤ n) :
    Sparse.okFrom dflt (some m) t = true := by
  cases t with
  | nil => rfl
  | cons p t =>
    obtain ⟨a, v⟩ := p
    simp only [Sparse.okFrom, Bool.and_eq_true, decide_eq_true_eq] at h ⊢
    exact ⟨⟨by omega, h.1.2⟩, h.2⟩

/-- Without a lower bound the form is the weakest. -/
theorem Sparse.okFrom_none [DecidableEq α] {t : List (Nat × α)} {lo : Option Nat} (h : Sparse.okFrom dflt lo t = true) :
    Sparse.okFrom dflt none t = true := by
  cases t with
  | nil => rfl
  | cons p t =>
    obtain ⟨a, v⟩ := p
    simp only [Sparse.okFrom, Bool.and_eq_true, decide_eq_true_eq] at h ⊢
    exact ⟨⟨trivial, h.1.2⟩, h.2⟩

@[simp] theorem Sparse.get_ins_same (t : List (Nat × α)) (k : Nat) (v : α) : Sparse.get dflt (Sparse.ins t k v) k = v := by
  induction t with
  | nil => simp [Sparse.ins, Sparse.get]
  | cons p t ih =>
    obtain ⟨a, w⟩ := p
    simp only [Sparse.ins]
    split_ifs with h1 h2
    · simp [Sparse.get]
    · simp [Sparse.get]
    · simp [Sparse.get, h2, ih]

theorem Sparse.get_ins_other (t : List (Nat × α)) {j k : Nat} (v : α) (hjk : j ≠ k) :
    Sparse.get dflt (Sparse.ins t k v) j = Sparse.get dflt t j := by
  induction t with
  | nil => simp [Sparse.ins, Sparse.get, hjk]
  | cons p t ih =>
    obtain ⟨a, w⟩ := p
    simp only [Sparse.ins]
    split_ifs with h1 h2
    · simp [Sparse.get, hjk]
    · subst h2; simp [Sparse.get, hjk]
    · simp [Sparse.get, ih]

@[simp] theorem Sparse.get_del_same (t : List (Nat × α)) (k : Nat) : Sparse.get dflt (Sparse.del t k) k = dflt k := by
  induction t with
  | nil => rfl
  | cons p t ih =>
    obtain ⟨a, w⟩ := p
    simp only [Sparse.del]
    split_ifs with h
    · exact ih
    · simp [Sparse.get, h, ih]

theorem Sparse.get_del_other (t : List (Nat × α)) {j k : Nat} (hjk : j ≠ k) :
    Sparse.get dflt (Sparse.del t k) j = Sparse.get dflt t j := by
  induction t with
  | nil => rfl
  | cons p t ih =>
    obtain ⟨a, w⟩ := p
    simp only [Sparse.del]
    split_ifs with h
    · subst h; simp [Sparse.get, hjk, ih]
    · simp [Sparse.get, ih]

/-- Read after write, at the same key. -/
@[simp] theorem Sparse.get_put_same [DecidableEq α] (t : List (Nat × α)) (k : Nat) (v : α) :
    Sparse.get dflt (Sparse.put dflt t k v) k = v := by
  unfold Sparse.put; split_ifs with h
  · simp [h]
  · simp

/-- Read after write, at another key. -/
theorem Sparse.get_put_other [DecidableEq α] (t : List (Nat × α)) {j k : Nat} (v : α) (hjk : j ≠ k) :
    Sparse.get dflt (Sparse.put dflt t k v) j = Sparse.get dflt t j := by
  unfold Sparse.put; split_ifs
  · exact Sparse.get_del_other dflt t hjk
  · exact Sparse.get_ins_other dflt t v hjk

/-- The lower bound as the form tests it. -/
theorem Sparse.above_lo {lo : Option Nat} {k : Nat} :
    (match lo with | none => true | some n => decide (n < k)) = true ↔ ∀ n, lo = some n → n < k := by
  cases lo <;> simp

theorem Sparse.okFrom_ins [DecidableEq α] {t : List (Nat × α)} {lo : Option Nat} {k : Nat} {v : α} (h : Sparse.okFrom dflt lo t = true)
    (hk : ∀ n, lo = some n → n < k) (hv : v ≠ dflt k) : Sparse.okFrom dflt lo (Sparse.ins t k v) = true := by
  have hd := Sparse.above_lo.mpr hk
  induction t generalizing lo with
  | nil =>
    simp only [Sparse.ins, Sparse.okFrom, Bool.and_eq_true, decide_eq_true_eq]
    exact ⟨⟨hd, hv⟩, trivial⟩
  | cons p t ih =>
    obtain ⟨a, w⟩ := p
    simp only [Sparse.okFrom, Bool.and_eq_true, decide_eq_true_eq] at h
    simp only [Sparse.ins]
    split_ifs with h1 h2
    · simp only [Sparse.okFrom, Bool.and_eq_true, decide_eq_true_eq]
      exact ⟨⟨hd, hv⟩, ⟨h1, h.1.2⟩, h.2⟩
    · subst h2
      simp only [Sparse.okFrom, Bool.and_eq_true, decide_eq_true_eq]
      exact ⟨⟨hd, hv⟩, h.2⟩
    · have h3 : a < k := by omega
      simp only [Sparse.okFrom, Bool.and_eq_true, decide_eq_true_eq]
      exact ⟨h.1, ih h.2 (fun n hn => by cases hn; exact h3) (by simpa using h3)⟩

theorem Sparse.okFrom_del [DecidableEq α] {t : List (Nat × α)} {lo : Option Nat} {k : Nat} (h : Sparse.okFrom dflt lo t = true) :
    Sparse.okFrom dflt lo (Sparse.del t k) = true := by
  induction t generalizing lo with
  | nil => rfl
  | cons p t ih =>
    obtain ⟨a, w⟩ := p
    simp only [Sparse.okFrom, Bool.and_eq_true] at h
    simp only [Sparse.del]
    split_ifs with h1
    · have := ih h.2
      cases lo with
      | none => exact Sparse.okFrom_none dflt this
      | some n => exact Sparse.okFrom_mono dflt this (by have := h.1.1; simp at this; omega)
    · simp only [Sparse.okFrom, Bool.and_eq_true]
      exact ⟨h.1, ih h.2⟩

/-- A write keeps the canonical form. -/
theorem Sparse.ok_put [DecidableEq α] {t : List (Nat × α)} (k : Nat) (v : α) (h : Sparse.ok dflt t = true) :
    Sparse.ok dflt (Sparse.put dflt t k v) = true := by
  unfold Sparse.put; split_ifs with hv
  · exact Sparse.okFrom_del dflt h
  · exact Sparse.okFrom_ins dflt h (fun _ hn => by cases hn) hv

/-- Leaving entries out keeps the canonical form. -/
theorem Sparse.okFrom_filter [DecidableEq α] {t : List (Nat × α)} {lo : Option Nat} (p : Nat × α → Bool) (h : Sparse.okFrom dflt lo t = true) :
    Sparse.okFrom dflt lo (t.filter p) = true := by
  induction t generalizing lo with
  | nil => rfl
  | cons q t ih =>
    obtain ⟨a, w⟩ := q
    simp only [Sparse.okFrom, Bool.and_eq_true] at h
    by_cases hp : p (a, w) = true
    · rw [List.filter_cons_of_pos hp]
      simp only [Sparse.okFrom, Bool.and_eq_true]
      exact ⟨h.1, ih h.2⟩
    · rw [List.filter_cons_of_neg hp]
      have := ih h.2
      cases lo with
      | none => exact Sparse.okFrom_none dflt this
      | some n => exact Sparse.okFrom_mono dflt this (by have := h.1.1; simp at this; omega)

theorem Sparse.ok_filter [DecidableEq α] {t : List (Nat × α)} (p : Nat × α → Bool) (h : Sparse.ok dflt t = true) :
    Sparse.ok dflt (t.filter p) = true := Sparse.okFrom_filter dflt p h

/-- Values changed under their keys, and then those that are the unlisted ones left out. -/
theorem Sparse.okFrom_map_filter [DecidableEq α] {t : List (Nat × α)} {lo : Option Nat} {f : Nat × α → Nat × α} {q : Nat × α → Bool}
    (hf : ∀ p, (f p).1 = p.1) (hq : ∀ p, q p = true → p.2 ≠ dflt p.1) (h : Sparse.okFrom dflt lo t = true) :
    Sparse.okFrom dflt lo ((t.map f).filter q) = true := by
  induction t generalizing lo with
  | nil => rfl
  | cons x t ih =>
    obtain ⟨a, w⟩ := x
    simp only [Sparse.okFrom, Bool.and_eq_true] at h
    have hk : (f (a, w)).1 = a := hf (a, w)
    have hi := ih h.2
    rw [List.map_cons]
    by_cases hp : q (f (a, w)) = true
    · rw [List.filter_cons_of_pos hp]
      have hv := hq _ hp
      revert hk hv
      generalize f (a, w) = y
      obtain ⟨b, v⟩ := y
      intro hk hv
      simp only at hk hv
      subst hk
      simp only [Sparse.okFrom, Bool.and_eq_true, decide_eq_true_eq]
      exact ⟨⟨h.1.1, hv⟩, hi⟩
    · rw [List.filter_cons_of_neg hp]
      cases lo with
      | none => exact Sparse.okFrom_none dflt hi
      | some n => exact Sparse.okFrom_mono dflt hi (by have := h.1.1; simp at this; omega)

@[simp] theorem Sparse.ok_nil [DecidableEq α] : Sparse.ok dflt ([] : List (Nat × α)) = true := rfl

/-- Two canonical tables that read alike are equal. -/
theorem Sparse.eq_of_get [DecidableEq α] {t u : List (Nat × α)} {lo : Option Nat} (ht : Sparse.okFrom dflt lo t = true)
    (hu : Sparse.okFrom dflt lo u = true) (h : ∀ k, Sparse.get dflt t k = Sparse.get dflt u k) : t = u := by
  induction t generalizing u lo with
  | nil =>
    cases u with
    | nil => rfl
    | cons q u =>
      obtain ⟨a, w⟩ := q
      have := h a
      simp_all [Sparse.get, Sparse.okFrom]
  | cons p t ih =>
    obtain ⟨a, v⟩ := p
    have ht' := ht
    simp only [Sparse.okFrom, Bool.and_eq_true, decide_eq_true_eq] at ht'
    cases u with
    | nil =>
      have := h a
      simp_all [Sparse.get]
    | cons q u =>
      obtain ⟨b, w⟩ := q
      have hu' := hu
      simp only [Sparse.okFrom, Bool.and_eq_true, decide_eq_true_eq] at hu'
      have hab : a = b := by
        rcases Nat.lt_trichotomy a b with hlt | heq | hgt
        · exfalso
          have h1 := h a
          have h2 : Sparse.get dflt u a = dflt a := Sparse.get_of_lt dflt hu'.2 (by omega)
          have hne : a ≠ b := by omega
          simp only [Sparse.get, if_true, hne, if_false, h2] at h1
          exact ht'.1.2 h1
        · exact heq
        · exfalso
          have h1 := h b
          have h2 : Sparse.get dflt t b = dflt b := Sparse.get_of_lt dflt ht'.2 (by omega)
          have hne : b ≠ a := by omega
          simp only [Sparse.get, if_true, hne, if_false, h2] at h1
          exact hu'.1.2 h1.symm
      subst hab
      have hvw : v = w := by have := h a; simpa [Sparse.get] using this
      subst hvw
      congr 1
      refine ih ht'.2 hu'.2 fun k => ?_
      by_cases hk : k = a
      · subst hk
        rw [Sparse.get_of_lt dflt ht'.2 (le_refl _), Sparse.get_of_lt dflt hu'.2 (le_refl _)]
      · have := h k
        simpa [Sparse.get, hk] using this

end Sys2Proof.Machine
end

