-- ==== Sys2Proof/Laws/Canon.lean ====
section
/-!
SUPPORT. What an operation can do to the registers, the memory and the fuses, said once for every property of these three parts. A property is stable
under register writes (`Stable`), under memory writes as well (`MemStable`), under fuse writes as well (`OtpStable`), or under all of them
(`FullStable`); each operation's lemma, in the Keep files, says which kinds of write the operation makes: a property stable under these survives it.
Two properties are used: the canonical form, and being equal to given contents of a part that the operation does not write.
-/
namespace Sys2Proof.Machine

/-- A property of the registers, memory and fuses alone, that every register write keeps. -/
structure Stable (P : Device → Prop) : Prop where
  congr : ∀ {d e : Device}, P d → e.regs = d.regs → e.mem = d.mem → e.otp = d.otp → P e
  setWord : ∀ {d : Device} (a : Nat) (w : BitVec 32), P d → P (d.setWord a w)
  resetRegs : ∀ {d : Device} (lo hi : Nat), P d → P (d.resetRegs lo hi)

/-- Kept by every write of memory that keeps memory's canonical form, and by a device reset. -/
structure MemStable (P : Device → Prop) : Prop extends Stable P where
  mem : ∀ {d e : Device}, P d → e.regs = d.regs → e.otp = d.otp → (Memory.wf d.mem = true → Memory.wf e.mem = true) → P e
  blank : ∀ {d e : Device}, P d → e.regs = [] → e.mem = {} → e.otp = d.otp → P e

/-- Kept by every write of the fuses. -/
structure OtpStable (P : Device → Prop) : Prop extends Stable P where
  otp : ∀ {d e : Device}, P d → e.regs = d.regs → e.mem = d.mem → P e

/-- Kept by every write of registers, memory and fuses. -/
structure FullStable (P : Device → Prop) : Prop extends MemStable P, OtpStable P

theorem FullStable.toOtp {P : Device → Prop} (S : FullStable P) : OtpStable P := ⟨S.toStable, S.otp⟩

/-- The three tables of a canonical memory. -/
theorem Memory.wf_iff {m : Mem} : Memory.wf m = true ↔
    Sparse.ok (fun _ => (0 : BitVec 8)) m.bytes = true ∧ Sparse.ok (fun _ => ({} : Page)) m.pages = true
      ∧ Sparse.ok (fun _ => (0 : Nat)) m.bad = true := by
  simp [Memory.wf, and_assoc]

/-- The canonical form is a property of registers and memory that every write keeps. -/
theorem Device.canon_stable : FullStable Device.canon where
  congr h hr hm _ := by
    unfold Device.canon Device.regsOk at *
    rw [hr, hm]; exact h
  setWord a w h := ⟨Sparse.ok_put resetWord a w h.1, h.2⟩
  resetRegs lo hi h := ⟨Sparse.ok_filter resetWord _ h.1, h.2⟩
  mem h hr _ hm := by
    unfold Device.canon Device.regsOk at *
    rw [hr]; exact ⟨h.1, hm h.2⟩
  blank _ hr hm _ := by
    unfold Device.canon Device.regsOk
    rw [hr, hm]; exact ⟨rfl, rfl⟩
  otp h hr hm := by
    unfold Device.canon Device.regsOk at *
    rw [hr, hm]; exact h

/-- Having given memory is kept by every write of registers and fuses. -/
theorem Device.mem_stable (m : Mem) : OtpStable fun d => d.mem = m where
  congr h _ hm _ := hm.trans h
  setWord _ _ h := h
  resetRegs _ _ h := h
  otp h _ hm := hm.trans h

/-- Having given fuses is kept by every write of registers and memory. -/
theorem Device.otp_stable (o : Otp) : MemStable fun d => d.otp = o where
  congr h _ _ ho := ho.trans h
  setWord _ _ h := h
  resetRegs _ _ h := h
  mem h _ ho _ := ho.trans h
  blank h _ _ ho := ho.trans h

theorem keeps_ite {P : Device → Prop} {c : Prop} {_ : Decidable c} {d e : Device} (hd : P d) (he : P e) : P (if c then d else e) := by
  split <;> assumption

theorem keeps_ite2 {P : Device → Prop} {α : Type} {c : Prop} {_ : Decidable c} {p q : α × Device} (hp : P p.2) (hq : P q.2) :
    P (if c then p else q).2 := by
  split <;> assumption

theorem keeps_ite3 {P : Device → Prop} {α β : Type} {c : Prop} {_ : Decidable c} {p q : α × β × Device} (hp : P p.2.2) (hq : P q.2.2) :
    P (if c then p else q).2.2 := by
  split <;> assumption

theorem keeps_snd {P : Device → Prop} {α : Type} {a : α} {d : Device} (h : P d) : P (a, d).2 := h

theorem keeps_cond {P : Device → Prop} {b : Bool} {d e : Device} (hd : P d) (he : P e) : P (bif b then d else e) := by
  cases b <;> assumption

theorem keeps_foldl {P : Device → Prop} {α : Type} {f : Device → α → Device} {l : List α} {d : Device} (hf : ∀ d x, P d → P (f d x))
    (h : P d) : P (l.foldl f d) := by
  induction l generalizing d with
  | nil => exact h
  | cons x l ih => exact ih (hf d x h)

/-- A meaning that changes the device as a keeping operation does keeps the property. -/
theorem State.upd_keeps {P : Device → Prop} {s t : State} {f : Device → Device} (h : P s.dev) (e : s.upd f = .next t)
    (hf : ∀ d, P d → P (f d)) : P t.dev := by
  unfold State.upd at e
  cases e
  exact hf _ h

/-- A memory's tables after a change of one of them. -/
theorem Memory.wf_of {m n : Mem} (hb : Sparse.ok (fun _ => (0 : BitVec 8)) m.bytes = true → Sparse.ok (fun _ => (0 : BitVec 8)) n.bytes = true)
    (hp : Sparse.ok (fun _ => ({} : Page)) m.pages = true → Sparse.ok (fun _ => ({} : Page)) n.pages = true)
    (hd : Sparse.ok (fun _ => (0 : Nat)) m.bad = true → Sparse.ok (fun _ => (0 : Nat)) n.bad = true) :
    Memory.wf m = true → Memory.wf n = true := by
  rw [Memory.wf_iff, Memory.wf_iff]
  exact fun h => ⟨hb h.1, hp h.2.1, hd h.2.2⟩

end Sys2Proof.Machine
end

