-- ==== Sys2Proof/Laws/Fields.lean ====
section
/-!
SUPPORT. Registers and their fields: what a read after a write gives, at the same place and elsewhere.
-/
namespace Sys2Proof.Machine

/-- Bit `i` of a word whose field at `lo`, `n` bits wide, was set to `v`. -/
theorem setField_getLsbD (w : BitVec 32) (lo n v i : Nat) :
    (setField w lo n v).getLsbD i = if lo ≤ i ∧ i < lo + n ∧ i < 32 then v.testBit (i - lo) else w.getLsbD i := by
  unfold setField
  simp only [BitVec.getLsbD_or, BitVec.getLsbD_and, BitVec.getLsbD_not, BitVec.getLsbD_shiftLeft, BitVec.getLsbD_ofNat, Nat.testBit_mod_two_pow,
    Nat.testBit_two_pow_sub_one]
  by_cases h32 : i < 32
  · by_cases hlo : lo ≤ i
    · by_cases hn : i < lo + n
      · have h1 : ¬ i < lo := by omega
        have h2 : i - lo < n := by omega
        have h3 : i - lo < 32 := by omega
        simp [h32, hlo, hn, h1, h2, h3]
      · have h1 : ¬ i < lo := by omega
        have h2 : ¬ i - lo < n := by omega
        simp [h32, hlo, hn, h1, h2]
    · have h1 : i < lo := by omega
      simp [h32, hlo, h1]
  · have hw : w.getLsbD i = false := BitVec.getLsbD_of_ge w i (by omega)
    simp [h32, hw]

/-- Bit `i` of a field. -/
theorem getField_testBit (w : BitVec 32) (lo n i : Nat) : (getField w lo n).testBit i = (decide (i < n) && w.getLsbD (lo + i)) := by
  unfold getField
  rw [Nat.testBit_mod_two_pow, Nat.testBit_shiftRight]
  rfl

/-- A field read after it was set. -/
theorem getField_setField_same {w : BitVec 32} {lo n v : Nat} (h : lo + n ≤ 32) : getField (setField w lo n v) lo n = v % 2 ^ n := by
  refine Nat.eq_of_testBit_eq fun i => ?_
  rw [getField_testBit, setField_getLsbD, Nat.testBit_mod_two_pow]
  by_cases hi : i < n
  · have h1 : lo ≤ lo + i ∧ lo + i < lo + n ∧ lo + i < 32 := by omega
    simp [hi, h1]
  · simp [hi]

/-- A field read after another one, with no bit in common, was set. -/
theorem getField_setField_other {w : BitVec 32} {lo n v lo' n' : Nat} (h : lo' + n' ≤ lo ∨ lo + n ≤ lo') :
    getField (setField w lo n v) lo' n' = getField w lo' n' := by
  refine Nat.eq_of_testBit_eq fun i => ?_
  rw [getField_testBit, getField_testBit, setField_getLsbD]
  by_cases hi : i < n'
  · have h1 : ¬ (lo ≤ lo' + i ∧ lo' + i < lo + n ∧ lo' + i < 32) := by omega
    simp [h1]
  · simp [hi]

theorem getField_lt (w : BitVec 32) (lo n : Nat) : getField w lo n < 2 ^ n := Nat.mod_lt _ (Nat.two_pow_pos n)

@[simp] theorem Device.word_setWord_same (d : Device) (a : Nat) (w : BitVec 32) : (d.setWord a w).word a = w :=
  Sparse.get_put_same resetWord d.regs a w

theorem Device.word_setWord_other (d : Device) {a b : Nat} (w : BitVec 32) (h : b ≠ a) : (d.setWord a w).word b = d.word b :=
  Sparse.get_put_other resetWord d.regs w h

theorem Device.word_setWord (d : Device) (a b : Nat) (w : BitVec 32) : (d.setWord a w).word b = if b = a then w else d.word b := by
  split
  · rename_i h; subst h; exact word_setWord_same d b w
  · rename_i h; exact word_setWord_other d w h

theorem Device.word_wr (d : Device) (f : RF) (v b : Nat) :
    (d.wr f v).word b = if b = f.reg then setField (d.word f.reg) f.lo f.n v else d.word b := word_setWord d f.reg b _

theorem Device.word_wr_other (d : Device) (f : RF) (v : Nat) {b : Nat} (h : b ≠ f.reg) : (d.wr f v).word b = d.word b :=
  word_setWord_other d _ h

theorem Device.rd_wr_same (d : Device) {f : RF} (v : Nat) (h : f.lo + f.n ≤ 32) : (d.wr f v).rd f = v % 2 ^ f.n := by
  unfold rd wr
  rw [word_setWord_same, getField_setField_same h]

theorem Device.rd_wr_reg (d : Device) {f g : RF} (v : Nat) (h : g.reg ≠ f.reg) : (d.wr f v).rd g = d.rd g := by
  unfold rd
  rw [word_wr_other d f v h]

theorem Device.rd_wr_bits (d : Device) {f g : RF} (v : Nat) (h : g.lo + g.n ≤ f.lo ∨ f.lo + f.n ≤ g.lo) : (d.wr f v).rd g = d.rd g := by
  by_cases hr : g.reg = f.reg
  · unfold rd wr
    rw [hr, word_setWord_same, getField_setField_other h]
  · exact rd_wr_reg d v hr

theorem Device.bit_wr_same (d : Device) {f : RF} (v : Nat) (h : f.lo + f.n ≤ 32) : (d.wr f v).bit f = (v % 2 ^ f.n == 1) := by
  unfold bit; rw [rd_wr_same d v h]

end Sys2Proof.Machine
end

