-- ==== Sys2Proof/Laws/KeepOps.lean ====
section
/-!
SUPPORT. Which of registers, memory and fuses each operation and each command of Machine/Ops.lean writes (Laws/Canon.lean).
-/
namespace Sys2Proof.Machine

theorem Device.wr_keeps {P : Device → Prop} (S : Stable P) {d f v} (hc : P d) : P (Device.wr d f v) := by
  delta Device.wr
  refine S.setWord _ _ ?_
  assumption

theorem Device.wrI_keeps {P : Device → Prop} (S : Stable P) {d f v} (hc : P d) : P (Device.wrI d f v) := by
  delta Device.wrI
  refine (Device.wr_keeps S) ?_
  assumption

theorem Device.wrB_keeps {P : Device → Prop} (S : Stable P) {d f b} (hc : P d) : P (Device.wrB d f b) := by
  delta Device.wrB
  refine (Device.wr_keeps S) ?_
  assumption

theorem Device.incSat_keeps {P : Device → Prop} (S : Stable P) {d f k} (hc : P d) : P (Device.incSat d f k) := by
  delta Device.incSat
  refine (Device.wr_keeps S) ?_
  assumption

theorem Device.updLane_keeps {P : Device → Prop} (S : Stable P) {d l f} (hc : P d) : P (Device.updLane d l f) := by
  delta Device.updLane
  split
  · refine S.congr (d := d) ?_ rfl rfl rfl
    assumption
  · refine S.congr (d := d) ?_ rfl rfl rfl
    assumption

theorem Device.emit_keeps {P : Device → Prop} (S : Stable P) {d o} (hc : P d) : P (Device.emit d o) := by
  delta Device.emit
  refine S.congr (d := d) ?_ rfl rfl rfl
  assumption

theorem Device.answer_keeps {P : Device → Prop} (S : Stable P) {d req r} (hc : P d) : P (Device.answer d req r) := by
  delta Device.answer
  split
  · refine (Device.emit_keeps S) ?_
    assumption
  · refine keeps_ite ?_ ?_
    · refine (Device.emit_keeps S) ?_
      refine S.congr (d := d) ?_ rfl rfl rfl
      assumption
    · refine keeps_ite ?_ ?_
      · refine S.congr (d := d) ?_ rfl rfl rfl
        assumption
      · assumption

theorem Device.takeFree_keeps {P : Device → Prop} (S : Stable P) {d n} (hc : P d) : P ((Device.takeFree d n).2) := by
  delta Device.takeFree
  refine keeps_snd ?_
  refine S.congr (d := d) ?_ rfl rfl rfl
  assumption

theorem Device.logRaw_keeps {P : Device → Prop} (S : Stable P) {d source code severity suppressed params} (hc : P d) : P (Device.logRaw d source code severity suppressed params) := by
  delta Device.logRaw
  refine keeps_ite ?_ ?_
  · assumption
  · refine keeps_ite ?_ ?_
    · refine (Device.incSat_keeps S) ?_
      refine S.congr (d := d) ?_ rfl rfl rfl
      assumption
    · refine S.congr (d := d) ?_ rfl rfl rfl
      assumption

theorem Device.log_keeps {P : Device → Prop} (S : Stable P) {d source code params} (hc : P d) : P (Device.log d source code params) := by
  delta Device.log
  refine (Device.logRaw_keeps S) ?_
  assumption

theorem Device.logRate_keeps {P : Device → Prop} (S : Stable P) {d source code scope params} (hc : P d) : P (Device.logRate d source code scope params) := by
  delta Device.logRate
  extract_lets -merge -useContext -underBinder +onlyGivenNames k0
  extract_lets -merge -useContext -underBinder +onlyGivenNames k1
  refine keeps_ite ?_ ?_
  · refine S.congr (d := d) ?_ rfl rfl rfl
    assumption
  · refine keeps_ite ?_ ?_
    · refine (Device.logRaw_keeps S) ?_
      assumption
    · extract_lets -merge -useContext -underBinder +onlyGivenNames x2
      have hx2 : P x2 := by
        unfold x2
        refine (Device.logRaw_keeps S) ?_
        assumption
      exact S.congr hx2 rfl rfl rfl

end Sys2Proof.Machine
end

