-- ==== Sys2Proof/Laws/KeepMemOps.lean ====
section
/-!
SUPPORT. Which of registers, memory and fuses each operation and each command of Machine/MemOps.lean writes (Laws/Canon.lean).
-/
namespace Sys2Proof.Machine

theorem Device.setPage_keeps {P : Device → Prop} (S : MemStable P) {d i p} (hc : P d) : P (Device.setPage d i p) :=
  S.mem hc rfl rfl (Memory.wf_of id (Sparse.ok_put _ i p) id)

theorem Device.setByte_keeps {P : Device → Prop} (S : MemStable P) {d a b} (hc : P d) : P (Device.setByte d a b) := by
  delta Device.setByte
  split
  · exact Device.setPage_keeps S hc
  · split
    · exact Device.setPage_keeps S hc
    · exact S.mem hc rfl rfl (Memory.wf_of (Sparse.ok_put _ a b) id id)

theorem Device.setNum_keeps {P : Device → Prop} (S : MemStable P) {n a v d} (hc : P d) : P (Device.setNum n a v d) := by
  induction n generalizing a v d with
  | zero => exact hc
  | succ n ih => exact ih (Device.setByte_keeps S hc)

theorem Device.setBad_keeps {P : Device → Prop} (S : MemStable P) {d a s} (hc : P d) : P (Device.setBad d a s) :=
  S.mem hc rfl rfl (Memory.wf_of id id (Sparse.ok_put _ a s))

theorem Device.setMemWord_keeps {P : Device → Prop} (S : MemStable P) {d a v} (hc : P d) : P (Device.setMemWord d a v) := by
  delta Device.setMemWord
  extract_lets -merge -useContext -underBinder +onlyGivenNames x0
  have hx0 : P x0 := by
    unfold x0
    refine (Device.setBad_keeps S) ?_
    refine (Device.setNum_keeps S) ?_
    assumption
  exact S.mem hx0 rfl rfl id

theorem Device.applyUpset_keeps {P : Device → Prop} (S : MemStable P) {d a u} (hc : P d) : P (Device.applyUpset d a u) := by
  delta Device.applyUpset
  refine keeps_ite ?_ ?_
  · assumption
  · extract_lets -merge -useContext -underBinder +onlyGivenNames k0
    extract_lets -merge -useContext -underBinder +onlyGivenNames k1
    extract_lets -merge -useContext -underBinder +onlyGivenNames k2
    refine (Device.setBad_keeps S) ?_
    refine (Device.setNum_keeps S) ?_
    assumption

theorem Device.latchErr_keeps {P : Device → Prop} (S : Stable P) {d kind synd src a} (hc : P d) : P (Device.latchErr d kind synd src a) := by
  delta Device.latchErr
  refine keeps_ite ?_ ?_
  · assumption
  · refine (Device.wr_keeps S) ?_
    refine (Device.wr_keeps S) ?_
    refine (Device.wr_keeps S) ?_
    refine (Device.wr_keeps S) ?_
    refine (Device.wr_keeps S) ?_
    refine (Device.wr_keeps S) ?_
    assumption

theorem Device.noteCorrected_keeps {P : Device → Prop} (S : Stable P) {d a} (hc : P d) : P (Device.noteCorrected d a) := by
  delta Device.noteCorrected
  refine keeps_ite ?_ ?_
  · refine (Device.logRate_keeps S) ?_
    refine (Device.wr_keeps S) ?_
    refine (Device.incSat_keeps S) ?_
    assumption
  · refine (Device.logRate_keeps S) ?_
    refine (Device.wr_keeps S) ?_
    refine (Device.incSat_keeps S) ?_
    assumption

theorem Device.noteUncorrected_keeps {P : Device → Prop} (S : Stable P) {d a synd src} (hc : P d) : P (Device.noteUncorrected d a synd src) := by
  delta Device.noteUncorrected
  refine keeps_ite ?_ ?_
  · refine (Device.log_keeps S) ?_
    refine (Device.latchErr_keeps S) ?_
    assumption
  · refine keeps_ite ?_ ?_
    · refine (Device.log_keeps S) ?_
      refine (Device.wr_keeps S) ?_
      refine (Device.latchErr_keeps S) ?_
      assumption
    · refine (Device.log_keeps S) ?_
      refine (Device.wr_keeps S) ?_
      refine (Device.latchErr_keeps S) ?_
      assumption

theorem Device.notePageCheck_keeps {P : Device → Prop} (S : Stable P) {d page src} (hc : P d) : P (Device.notePageCheck d page src) := by
  delta Device.notePageCheck
  split
  rename_i v' d' heq'
  have hd' : P d' := by
    show P (v', d').2
    rw [← heq']
    refine (Device.takeFree_keeps S) ?_
    assumption
  refine (Device.wr_keeps S) ?_
  refine (Device.latchErr_keeps S) ?_
  assumption

theorem Device.writePoisoned_keeps {P : Device → Prop} (S : MemStable P) {d a v src} (hc : P d) : P (Device.writePoisoned d a v src) := by
  delta Device.writePoisoned
  refine (Device.log_keeps S.toStable) ?_
  refine (Device.wr_keeps S.toStable) ?_
  refine (Device.latchErr_keeps S.toStable) ?_
  refine (Device.setBad_keeps S) ?_
  refine (Device.setMemWord_keeps S) ?_
  assumption

theorem Device.writePage_keeps {P : Device → Prop} (S : MemStable P) {d i p} (hc : P d) : P (Device.writePage d i p) :=
  S.mem (Device.setPage_keeps S hc) rfl rfl (Memory.wf_of id id (Sparse.ok_filter _ _))

theorem Device.allocPage_keeps {P : Device → Prop} (S : Stable P) {d id} (p) (e : Device.allocPage d id = some p) (hc : P d) : P p.2 := by
  unfold Device.allocPage at e
  split at e
  · split at e
    · cases e
    · cases e; exact S.congr hc rfl rfl rfl
  · cases e

theorem Device.allocPages_keeps {P : Device → Prop} (S : Stable P) {d id n} (hc : P d) : P (Device.allocPages d id n).2 := by
  induction n generalizing d with
  | zero => exact hc
  | succ n ih =>
    unfold Device.allocPages
    split
    · exact hc
    · rename_i heq
      exact ih (Device.allocPage_keeps S _ heq hc)

theorem Device.releasePage_keeps {P : Device → Prop} (S : Stable P) {d i} (hc : P d) : P (Device.releasePage d i) := by
  delta Device.releasePage
  refine keeps_ite ?_ ?_
  · refine S.congr (d := d) ?_ rfl rfl rfl
    assumption
  · assumption

theorem Device.releasePages_keeps {P : Device → Prop} (S : Stable P) {d is} (hc : P d) : P (Device.releasePages d is) := by
  delta Device.releasePages
  refine keeps_foldl ?_ ?_
  · intro d' x' hd'
    refine (Device.releasePage_keeps S) ?_
    assumption
  · assumption

theorem Device.dropResv_keeps {P : Device → Prop} (S : Stable P) {d id} (hc : P d) : P (Device.dropResv d id) := by
  delta Device.dropResv
  refine S.congr (d := d) ?_ rfl rfl rfl
  assumption

theorem Device.reserve_keeps {P : Device → Prop} (S : Stable P) {d id p n urgent} (hc : P d) : P (Device.reserve d id p n urgent) := by
  delta Device.reserve
  refine keeps_ite ?_ ?_
  · refine S.congr (d := d) ?_ rfl rfl rfl
    assumption
  · refine S.congr (d := d) ?_ rfl rfl rfl
    assumption

theorem Device.setStandby_keeps {P : Device → Prop} (S : Stable P) {d l ps} (hc : P d) : P (Device.setStandby d l ps) := by
  delta Device.setStandby
  split
  · refine S.congr (d := d) ?_ rfl rfl rfl
    assumption
  · refine S.congr (d := d) ?_ rfl rfl rfl
    assumption

end Sys2Proof.Machine
end

