-- ==== Sys2Proof/Laws/KeepCacheOps.lean ====
section
/-!
SUPPORT. Which of registers, memory and fuses each operation and each command of Machine/CacheOps.lean writes (Laws/Canon.lean).
-/
namespace Sys2Proof.Machine

theorem Device.updCache_keeps {P : Device → Prop} (S : Stable P) {d c f} (hc : P d) : P (Device.updCache d c f) := by
  delta Device.updCache
  split
  · refine S.congr (d := d) ?_ rfl rfl rfl
    assumption
  · refine S.congr (d := d) ?_ rfl rfl rfl
    assumption
  · refine S.congr (d := d) ?_ rfl rfl rfl
    assumption

theorem Device.putLine_keeps {P : Device → Prop} (S : MemStable P) {fix ws ss a d} (hc : P d) : P (Device.putLine fix ws ss a d) := by
  induction ws generalizing ss a d with
  | nil => exact hc
  | cons w ws ih =>
    cases ss with
    | nil => exact hc
    | cons s ss => exact ih (Device.setBad_keeps S (Device.setMemWord_keeps S hc))

theorem Device.writeBack_keeps {P : Device → Prop} (S : MemStable P) {d fix x} (hc : P d) : P (Device.writeBack d fix x) := by
  delta Device.writeBack
  refine keeps_ite ?_ ?_
  · refine (Device.putLine_keeps S) ?_
    assumption
  · assumption

theorem Device.wayErr_keeps {P : Device → Prop} (S : Stable P) {d c w} (hc : P d) : P (Device.wayErr d c w) := by
  delta Device.wayErr
  refine (Device.incSat_keeps S) ?_
  refine (Device.updCache_keeps S) ?_
  assumption

theorem Device.startFill_keeps {P : Device → Prop} (S : Stable P) {d c w} (hc : P d) : P (Device.startFill d c w) := by
  delta Device.startFill
  refine (Device.updCache_keeps S) ?_
  assumption

theorem Device.loadLine_keeps {P : Device → Prop} (S : Stable P) {d c x req a} (hc : P d) : P (Device.loadLine d c x req a) := by
  delta Device.loadLine
  extract_lets -merge -useContext -underBinder +onlyGivenNames k0
  extract_lets -merge -useContext -underBinder +onlyGivenNames k1
  extract_lets -merge -useContext -underBinder +onlyGivenNames k2
  split
  · refine (Device.answer_keeps S) ?_
    assumption
  · extract_lets -merge -useContext -underBinder +onlyGivenNames k3
    refine (Device.answer_keeps S) ?_
    refine (Device.wayErr_keeps S) ?_
    refine (Device.updCache_keeps S) ?_
    assumption
  · extract_lets -merge -useContext -underBinder +onlyGivenNames k4
    refine (Device.answer_keeps S) ?_
    refine (Device.wayErr_keeps S) ?_
    refine (Device.updCache_keeps S) ?_
    assumption
  · refine keeps_ite ?_ ?_
    · refine (Device.answer_keeps S) ?_
      refine (Device.log_keeps S) ?_
      refine (Device.wr_keeps S) ?_
      assumption
    · refine keeps_ite ?_ ?_
      · refine (Device.answer_keeps S) ?_
        refine (Device.noteUncorrected_keeps S) ?_
        assumption
      · refine (Device.startFill_keeps S) ?_
        refine (Device.wayErr_keeps S) ?_
        refine (Device.updCache_keeps S) ?_
        assumption

theorem Device.storeLine_keeps {P : Device → Prop} (S : Stable P) {d c x req a len v} (hc : P d) : P (Device.storeLine d c x req a len v) := by
  delta Device.storeLine
  extract_lets -merge -useContext -underBinder +onlyGivenNames k0
  extract_lets -merge -useContext -underBinder +onlyGivenNames k1
  extract_lets -merge -useContext -underBinder +onlyGivenNames k2
  extract_lets -merge -useContext -underBinder +onlyGivenNames g3
  have hg3 : ∀ g3a0 g3a1 , P (g3 g3a0 g3a1) := by
    intro g3a0 g3a1
    unfold g3
    show P _
    refine (Device.updCache_keeps S) ?_
    assumption
  refine keeps_ite ?_ ?_
  · refine (Device.answer_keeps S) ?_
    exact hg3 _ _
  · split
    · refine (Device.answer_keeps S) ?_
      exact hg3 _ _
    · refine (Device.answer_keeps S) ?_
      refine (Device.wayErr_keeps S) ?_
      exact hg3 _ _
    · refine (Device.answer_keeps S) ?_
      refine (Device.wayErr_keeps S) ?_
      exact hg3 _ _
    · refine (Device.answer_keeps S) ?_
      refine (Device.log_keeps S) ?_
      exact hg3 _ _

theorem Device.serveWaiters_keeps {P : Device → Prop} (S : Stable P) {c line ws d} (hc : P d) : P (Device.serveWaiters c line ws d) := by
  induction ws generalizing d with
  | nil => exact hc
  | cons w ws ih =>
    unfold Device.serveWaiters
    refine ih ?_
    split
    · exact Device.startFill_keeps S hc
    · split
      · exact Device.loadLine_keeps S hc
      · exact Device.storeLine_keeps S hc

theorem Device.cleanLine_keeps {P : Device → Prop} (S : MemStable P) {d c x} (hc : P d) : P (Device.cleanLine d c x) := by
  delta Device.cleanLine
  refine keeps_ite ?_ ?_
  · refine (Device.updCache_keeps S.toStable) ?_
    refine (Device.writeBack_keeps S) ?_
    assumption
  · assumption

theorem Device.cleanInvalLine_keeps {P : Device → Prop} (S : MemStable P) {d c x} (hc : P d) : P (Device.cleanInvalLine d c x) := by
  delta Device.cleanInvalLine
  refine (Device.updCache_keeps S.toStable) ?_
  refine (Device.writeBack_keeps S) ?_
  assumption

theorem Device.placeLine_keeps {P : Device → Prop} (S : MemStable P) {d c a way dirty ws ss} (hc : P d) : P (Device.placeLine d c a way dirty ws ss) := by
  delta Device.placeLine
  extract_lets -merge -useContext -underBinder +onlyGivenNames x0
  have hx0 : P x0 := by
    unfold x0
    split
    · refine keeps_ite ?_ ?_
      · assumption
      · refine (Device.writeBack_keeps S) ?_
        assumption
    · assumption
  refine (Device.updCache_keeps S.toStable) ?_
  exact hx0

theorem Device.zline_keeps {P : Device → Prop} (S : MemStable P) {d c a} (hc : P d) : P (Device.zline d c a) := by
  delta Device.zline
  refine keeps_ite ?_ ?_
  · split
    · refine (Device.updCache_keeps S.toStable) ?_
      assumption
    · split
      · refine (Device.placeLine_keeps S) ?_
        assumption
      · refine (Device.putLine_keeps S) ?_
        assumption
  · refine (Device.putLine_keeps S) ?_
    assumption

theorem Device.runOp_keeps {P : Device → Prop} (S : MemStable P) {d c o} (hc : P d) : P (Device.runOp d c o) := by
  delta Device.runOp
  extract_lets -merge -useContext -underBinder +onlyGivenNames k0
  split
  · split
    · refine (Device.cleanLine_keeps S) ?_
      assumption
    · assumption
  · split
    · refine (Device.updCache_keeps S.toStable) ?_
      assumption
    · assumption
  · split
    · refine (Device.cleanInvalLine_keeps S) ?_
      assumption
    · assumption
  · refine (Device.zline_keeps S) ?_
    assumption
  · split
    · refine (Device.cleanLine_keeps S) ?_
      assumption
    · assumption
  · split
    · refine (Device.updCache_keeps S.toStable) ?_
      assumption
    · assumption
  · split
    · refine (Device.cleanInvalLine_keeps S) ?_
      assumption
    · assumption
  · refine (Device.wr_keeps S.toStable) ?_
    refine (Device.wr_keeps S.toStable) ?_
    refine keeps_foldl ?_ ?_
    · intro d' x' hd'
      show P _
      refine (Device.cleanInvalLine_keeps S) ?_
      assumption
    · assumption
  · refine (Device.wr_keeps S.toStable) ?_
    refine (Device.wr_keeps S.toStable) ?_
    refine (Device.updCache_keeps S.toStable) ?_
    assumption
  · assumption

theorem Device.postOp_keeps {P : Device → Prop} (S : Stable P) {d c core op set way} (hc : P d) : P (Device.postOp d c core op set way) := by
  delta Device.postOp
  refine keeps_ite ?_ ?_
  · assumption
  · extract_lets -merge -useContext -underBinder +onlyGivenNames k0
    extract_lets -merge -useContext -underBinder +onlyGivenNames k1
    extract_lets -merge -useContext -underBinder +onlyGivenNames k2
    refine keeps_ite ?_ ?_
    · refine (Device.wr_keeps S) ?_
      assumption
    · extract_lets -merge -useContext -underBinder +onlyGivenNames x3
      have hx3 : P x3 := by
        unfold x3
        refine keeps_ite ?_ ?_
        · refine (Device.wr_keeps S) ?_
          refine (Device.wr_keeps S) ?_
          assumption
        · assumption
      refine (Device.updCache_keeps S) ?_
      refine (Device.wr_keeps S) ?_
      refine (Device.wr_keeps S) ?_
      refine (Device.wr_keeps S) ?_
      exact hx3

end Sys2Proof.Machine
end

