-- ==== Sys2Proof/Laws/KeepMemory.lean ====
section
/-!
SUPPORT. Which of registers, memory and fuses each operation and each command of Machine/Memory.lean writes (Laws/Canon.lean).
-/
namespace Sys2Proof.Machine

theorem Device.readMem_keeps {P : Device → Prop} (S : MemStable P) {d req src a u} (hc : P d) : P (Device.readMem d req src a u) := by
  delta Device.readMem
  refine keeps_ite ?_ ?_
  · refine (Device.answer_keeps S.toStable) ?_
    assumption
  · extract_lets -merge -useContext -underBinder +onlyGivenNames k0
    extract_lets -merge -useContext -underBinder +onlyGivenNames x1
    have hx1 : P x1 := by
      unfold x1
      refine (Device.applyUpset_keeps S) ?_
      assumption
    extract_lets -merge -useContext -underBinder +onlyGivenNames k2
    split
    · refine (Device.answer_keeps S.toStable) ?_
      exact hx1
    · refine (Device.answer_keeps S.toStable) ?_
      refine (Device.noteCorrected_keeps S.toStable) ?_
      exact S.mem hx1 rfl rfl id
    · refine (Device.answer_keeps S.toStable) ?_
      refine (Device.noteCorrected_keeps S.toStable) ?_
      exact S.mem hx1 rfl rfl id
    · refine (Device.answer_keeps S.toStable) ?_
      refine (Device.noteUncorrected_keeps S.toStable) ?_
      exact hx1

theorem memoryReadEff_keeps {P : Device → Prop} (S : MemStable P) {req src via a u tag d} (hc : P d) : P (memoryReadEff req src via a u tag d) := by
  delta memoryReadEff
  split
  · refine (Device.readMem_keeps S) ?_
    assumption
  · refine keeps_ite ?_ ?_
    · refine (Device.readMem_keeps S) ?_
      assumption
    · refine keeps_ite ?_ ?_
      · refine (Device.answer_keeps S.toStable) ?_
        assumption
      · split
        · refine (Device.startFill_keeps S.toStable) ?_
          assumption
        · split
          · refine (Device.startFill_keeps S.toStable) ?_
            refine (Device.updCache_keeps S.toStable) ?_
            assumption
          · refine (Device.loadLine_keeps S.toStable) ?_
            refine (Device.wayErr_keeps S.toStable) ?_
            assumption
          · refine (Device.loadLine_keeps S.toStable) ?_
            assumption

theorem Device.storeCached_keeps {P : Device → Prop} (S : Stable P) {d c req a len v} (hc : P d) : P (Device.storeCached d c req a len v) := by
  delta Device.storeCached
  refine keeps_ite ?_ ?_
  · refine (Device.answer_keeps S) ?_
    assumption
  · split
    · refine (Device.startFill_keeps S) ?_
      assumption
    · refine (Device.storeLine_keeps S) ?_
      assumption

theorem memoryFullWriteEff_keeps {P : Device → Prop} (S : MemStable P) {req src via a v parity d} (hc : P d) : P (memoryFullWriteEff req src via a v parity d) := by
  delta memoryFullWriteEff
  split
  · refine (Device.storeCached_keeps S.toStable) ?_
    assumption
  · refine keeps_ite ?_ ?_
    · refine (Device.answer_keeps S.toStable) ?_
      assumption
    · refine keeps_ite ?_ ?_
      · refine (Device.answer_keeps S.toStable) ?_
        refine (Device.writePoisoned_keeps S) ?_
        assumption
      · refine (Device.answer_keeps S.toStable) ?_
        refine (Device.setMemWord_keeps S) ?_
        assumption

theorem memoryNarrowWriteEff_keeps {P : Device → Prop} (S : MemStable P) {req src via a len v parity u d} (hc : P d) : P (memoryNarrowWriteEff req src via a len v parity u d) := by
  delta memoryNarrowWriteEff
  split
  · refine (Device.storeCached_keeps S.toStable) ?_
    assumption
  · refine keeps_ite ?_ ?_
    · refine (Device.answer_keeps S.toStable) ?_
      assumption
    · extract_lets -merge -useContext -underBinder +onlyGivenNames k0
      extract_lets -merge -useContext -underBinder +onlyGivenNames x1
      have hx1 : P x1 := by
        unfold x1
        refine (Device.applyUpset_keeps S) ?_
        assumption
      extract_lets -merge -useContext -underBinder +onlyGivenNames k2
      extract_lets -merge -useContext -underBinder +onlyGivenNames k3
      refine keeps_ite ?_ ?_
      · refine (Device.answer_keeps S.toStable) ?_
        refine (Device.writePoisoned_keeps S) ?_
        exact hx1
      · split
        · refine (Device.answer_keeps S.toStable) ?_
          refine (Device.setMemWord_keeps S) ?_
          exact hx1
        · refine (Device.answer_keeps S.toStable) ?_
          refine (Device.setMemWord_keeps S) ?_
          refine (Device.noteCorrected_keeps S.toStable) ?_
          exact hx1
        · refine (Device.answer_keeps S.toStable) ?_
          refine (Device.setMemWord_keeps S) ?_
          refine (Device.noteCorrected_keeps S.toStable) ?_
          exact hx1
        · refine (Device.answer_keeps S.toStable) ?_
          refine (Device.writePoisoned_keeps S) ?_
          exact hx1

theorem correctedWritebackEff_keeps {P : Device → Prop} (S : MemStable P) {a d} (hc : P d) : P (correctedWritebackEff a d) := by
  delta correctedWritebackEff
  extract_lets -merge -useContext -underBinder +onlyGivenNames k0
  refine keeps_ite ?_ ?_
  · refine (Device.setMemWord_keeps S) ?_
    assumption
  · assumption

theorem scrubStepEff_keeps {P : Device → Prop} (S : MemStable P) {dram u d} (hc : P d) : P (scrubStepEff dram u d) := by
  delta scrubStepEff
  refine keeps_ite ?_ ?_
  · assumption
  · extract_lets +onlyGivenNames k0 k1 k2 k3 s0 x4
    have hx4 : P x4 := by
      unfold x4
      refine keeps_ite ?_ ?_
      · exact S.mem hc rfl rfl id
      · exact S.mem hc rfl rfl id
    clear_value x4
    refine keeps_ite ?_ ?_
    · assumption
    · extract_lets +onlyGivenNames x5
      have hx5 : P x5 := Device.applyUpset_keeps S hx4
      clear_value x5
      extract_lets +onlyGivenNames k6
      clear_value k6
      split
      · assumption
      · assumption
      · exact Device.setBad_keeps S (Device.log_keeps S.toStable (Device.wr_keeps S.toStable (Device.latchErr_keeps S.toStable hx5)))
      · exact Device.setMemWord_keeps S (Device.noteCorrected_keeps S.toStable hx5)

theorem sramFillEff_keeps {P : Device → Prop} (S : MemStable P) {d} (hc : P d) : P (sramFillEff d) := by
  delta sramFillEff
  refine keeps_ite (Device.wr_keeps S.toStable ?_) hc
  exact S.mem hc rfl rfl (Memory.wf_of (Sparse.ok_filter _ _) (fun _ => rfl) (Sparse.ok_filter _ _))

theorem dramTrainingEff_keeps {P : Device → Prop} (S : Stable P) {res d} (hc : P d) : P (dramTrainingEff res d) := by
  delta dramTrainingEff
  refine keeps_ite ?_ ?_
  · assumption
  · split
    · refine keeps_ite ?_ ?_
      · assumption
      · refine (Device.wr_keeps S) ?_
        assumption
    · refine (Device.log_keeps S) ?_
      refine (Device.wr_keeps S) ?_
      assumption

theorem dramRegionEff_keeps {P : Device → Prop} (S : MemStable P) {us d} (hc : P d) : P (dramRegionEff us d) := by
  delta dramRegionEff
  extract_lets +onlyGivenNames k0
  clear_value k0
  refine keeps_ite hc ?_
  extract_lets +onlyGivenNames k1 k2
  clear_value k2
  extract_lets +onlyGivenNames s x3
  have hx3 : P x3 := S.mem hc rfl rfl (Memory.wf_of (Sparse.ok_filter _ _) id (Sparse.ok_filter _ _))
  clear_value x3
  extract_lets +onlyGivenNames x4
  have hx4 : P x4 := Device.wr_keeps S.toStable hx3
  clear_value x4
  exact keeps_ite (Device.log_keeps S.toStable (Device.wr_keeps S.toStable hx4)) hx4

theorem poolRequestEff_keeps {P : Device → Prop} (S : Stable P) {id p n urgent d} (hc : P d) : P (poolRequestEff id p n urgent d) := by
  delta poolRequestEff
  refine keeps_ite ?_ ?_
  · refine (Device.emit_keeps S) ?_
    assumption
  · refine (Device.reserve_keeps S) ?_
    assumption

theorem Device.setPointer_keeps {P : Device → Prop} (S : Stable P) {d c p} (hc : P d) : P (Device.setPointer d c p) := by
  delta Device.setPointer
  extract_lets -merge -useContext -underBinder +onlyGivenNames k0
  refine S.congr (d := d) ?_ rfl rfl rfl
  assumption

theorem poolGrantEff_keeps {P : Device → Prop} (S : Stable P) {d} (hc : P d) : P (poolGrantEff d) := by
  delta poolGrantEff
  extract_lets -merge -useContext -underBinder +onlyGivenNames k0
  extract_lets -merge -useContext -underBinder +onlyGivenNames k1
  split
  · assumption
  · split
    · assumption
    · extract_lets -merge -useContext -underBinder +onlyGivenNames x2i0 x2
      have hx2 : P x2 := by
        unfold x2
        refine S.congr (d := d) ?_ rfl rfl rfl
        assumption
      refine (Device.setPointer_keeps S) ?_
      exact hx2

theorem poolWaitTimeoutEff_keeps {P : Device → Prop} (S : Stable P) {id d} (hc : P d) : P (poolWaitTimeoutEff id d) := by
  delta poolWaitTimeoutEff
  split
  · assumption
  · refine keeps_ite ?_ ?_
    · assumption
    · extract_lets -merge -useContext -underBinder +onlyGivenNames x0i0 x0
      have hx0 : P x0 := by
        unfold x0
        refine S.congr (d := d) ?_ rfl rfl rfl
        assumption
      refine (Device.log_keeps S) ?_
      refine (Device.wr_keeps S) ?_
      exact hx0

theorem poolResWriteEff_keeps {P : Device → Prop} (S : Stable P) {p v d} (hc : P d) : P (poolResWriteEff p v d) := by
  delta poolResWriteEff
  extract_lets -merge -useContext -underBinder +onlyGivenNames k0
  extract_lets -merge -useContext -underBinder +onlyGivenNames k1
  refine keeps_ite ?_ ?_
  · assumption
  · refine (Device.wr_keeps S) ?_
    assumption

theorem standbyRefillEff_keeps {P : Device → Prop} (S : Stable P) {l d} (hc : P d) : P (standbyRefillEff l d) := by
  delta standbyRefillEff
  extract_lets -merge -useContext -underBinder +onlyGivenNames k0
  extract_lets -merge -useContext -underBinder +onlyGivenNames x1
  have hx1 : P x1 := by
    unfold x1
    refine keeps_ite ?_ ?_
    · refine (Device.reserve_keeps S) ?_
      assumption
    · assumption
  split
  · exact hx1
  · extract_lets -merge -useContext -underBinder +onlyGivenNames p2
    refine (Device.setStandby_keeps S) ?_
    refine (Device.allocPages_keeps S) ?_
    exact hx1

theorem execMemoryRead_keeps {P : Device → Prop} (S : MemStable P) {a0 a1 a2 a3 a4 a5 s t} (hc : P s.dev) (he : execMemoryRead a0 a1 a2 a3 a4 a5 s = .next t) : P t.dev := by
  delta execMemoryRead at he
  refine State.upd_keeps hc he ?_
  intro d hd
  show P _
  refine (memoryReadEff_keeps S) ?_
  assumption

theorem execMemoryFullWrite_keeps {P : Device → Prop} (S : MemStable P) {a0 a1 a2 a3 a4 a5 s t} (hc : P s.dev) (he : execMemoryFullWrite a0 a1 a2 a3 a4 a5 s = .next t) : P t.dev := by
  delta execMemoryFullWrite at he
  refine State.upd_keeps hc he ?_
  intro d hd
  show P _
  refine (memoryFullWriteEff_keeps S) ?_
  assumption

theorem execMemoryNarrowWrite_keeps {P : Device → Prop} (S : MemStable P) {a0 a1 a2 a3 a4 a5 a6 a7 s t} (hc : P s.dev) (he : execMemoryNarrowWrite a0 a1 a2 a3 a4 a5 a6 a7 s = .next t) : P t.dev := by
  delta execMemoryNarrowWrite at he
  refine State.upd_keeps hc he ?_
  intro d hd
  show P _
  refine (memoryNarrowWriteEff_keeps S) ?_
  assumption

theorem execCorrectedWriteback_keeps {P : Device → Prop} (S : MemStable P) {a0 s t} (hc : P s.dev) (he : execCorrectedWriteback a0 s = .next t) : P t.dev := by
  delta execCorrectedWriteback at he
  refine State.upd_keeps hc he ?_
  intro d hd
  show P _
  refine (correctedWritebackEff_keeps S) ?_
  assumption

theorem execScrubStep_keeps {P : Device → Prop} (S : MemStable P) {a0 a1 s t} (hc : P s.dev) (he : execScrubStep a0 a1 s = .next t) : P t.dev := by
  delta execScrubStep at he
  refine State.upd_keeps hc he ?_
  intro d hd
  show P _
  refine (scrubStepEff_keeps S) ?_
  assumption

theorem execSramFillComplete_keeps {P : Device → Prop} (S : MemStable P) {s t} (hc : P s.dev) (he : execSramFillComplete s = .next t) : P t.dev := by
  delta execSramFillComplete at he
  refine State.upd_keeps hc he ?_
  intro d hd
  show P _
  refine (sramFillEff_keeps S) ?_
  assumption

theorem execDramTrainingComplete_keeps {P : Device → Prop} (S : Stable P) {a0 s t} (hc : P s.dev) (he : execDramTrainingComplete a0 s = .next t) : P t.dev := by
  delta execDramTrainingComplete at he
  refine State.upd_keeps hc he ?_
  intro d hd
  show P _
  refine (dramTrainingEff_keeps S) ?_
  assumption

theorem execDramRegionFilled_keeps {P : Device → Prop} (S : MemStable P) {a0 s t} (hc : P s.dev) (he : execDramRegionFilled a0 s = .next t) : P t.dev := by
  delta execDramRegionFilled at he
  refine State.upd_keeps hc he ?_
  intro d hd
  show P _
  refine (dramRegionEff_keeps S) ?_
  assumption

theorem execPoolReserveRequest_keeps {P : Device → Prop} (S : Stable P) {a0 a1 a2 a3 s t} (hc : P s.dev) (he : execPoolReserveRequest a0 a1 a2 a3 s = .next t) : P t.dev := by
  delta execPoolReserveRequest at he
  refine State.upd_keeps hc he ?_
  intro d hd
  show P _
  refine (poolRequestEff_keeps S) ?_
  assumption

theorem execPoolReserveGrant_keeps {P : Device → Prop} (S : Stable P) {s t} (hc : P s.dev) (he : execPoolReserveGrant s = .next t) : P t.dev := by
  delta execPoolReserveGrant at he
  refine State.upd_keeps hc he ?_
  intro d hd
  show P _
  refine (poolGrantEff_keeps S) ?_
  assumption

theorem execPoolWaitTimeout_keeps {P : Device → Prop} (S : Stable P) {a0 s t} (hc : P s.dev) (he : execPoolWaitTimeout a0 s = .next t) : P t.dev := by
  delta execPoolWaitTimeout at he
  refine State.upd_keeps hc he ?_
  intro d hd
  show P _
  refine (poolWaitTimeoutEff_keeps S) ?_
  assumption

theorem execPoolResWrite_keeps {P : Device → Prop} (S : Stable P) {a0 a1 s t} (hc : P s.dev) (he : execPoolResWrite a0 a1 s = .next t) : P t.dev := by
  delta execPoolResWrite at he
  refine State.upd_keeps hc he ?_
  intro d hd
  show P _
  refine (poolResWriteEff_keeps S) ?_
  assumption

theorem execReadStandbyRefill_keeps {P : Device → Prop} (S : Stable P) {a0 s t} (hc : P s.dev) (he : execReadStandbyRefill a0 s = .next t) : P t.dev := by
  delta execReadStandbyRefill at he
  refine State.upd_keeps hc he ?_
  intro d hd
  show P _
  refine (standbyRefillEff_keeps S) ?_
  assumption

end Sys2Proof.Machine
end

