-- ==== Sys2Proof/Laws/KeepCipherOps.lean ====
section
/-!
SUPPORT. Which of registers, memory and fuses each operation and each command of Machine/CipherOps.lean writes (Laws/Canon.lean).
-/
namespace Sys2Proof.Machine

theorem Device.setSlot_keeps {P : Device → Prop} (S : Stable P) {d n k} (hc : P d) : P (Device.setSlot d n k) := by
  delta Device.setSlot
  refine S.congr (d := d) ?_ rfl rfl rfl
  assumption

theorem Device.zeroiseAll_keeps {P : Device → Prop} (S : Stable P) {d cause} (hc : P d) : P (Device.zeroiseAll d cause) := by
  delta Device.zeroiseAll
  refine (Device.log_keeps S) ?_
  refine S.resetRegs _ _ ?_
  refine S.congr (d := d) ?_ rfl rfl rfl
  assumption

theorem Device.cipherCpl_keeps {P : Device → Prop} (S : Stable P) {d source c nsid epoch} (hc : P d) : P (Device.cipherCpl d source c nsid epoch) := by
  delta Device.cipherCpl
  extract_lets -merge -useContext -underBinder +onlyGivenNames x0
  have hx0 : P x0 := by
    unfold x0
    split
    · refine S.congr (d := d) ?_ rfl rfl rfl
      assumption
    · refine S.congr (d := d) ?_ rfl rfl rfl
      assumption
    · refine S.congr (d := d) ?_ rfl rfl rfl
      assumption
  extract_lets -merge -useContext -underBinder +onlyGivenNames x1
  have hx1 : P x1 := by
    unfold x1
    refine (Device.wr_keeps S) ?_
    exact hx0
  refine keeps_ite ?_ ?_
  · refine (Device.logRate_keeps S) ?_
    refine (Device.wr_keeps S) ?_
    exact hx1
  · refine keeps_ite ?_ ?_
    · refine (Device.log_keeps S) ?_
      exact hx1
    · exact hx1

theorem Device.slotEnter_keeps {P : Device → Prop} (S : Stable P) {d n} (hc : P d) : P (Device.slotEnter d n) := by
  delta Device.slotEnter
  extract_lets -merge -useContext -underBinder +onlyGivenNames k0
  refine (Device.setSlot_keeps S) ?_
  assumption

theorem Device.slotLeave_keeps {P : Device → Prop} (S : Stable P) {d n gen} (hc : P d) : P (Device.slotLeave d n gen) := by
  delta Device.slotLeave
  extract_lets -merge -useContext -underBinder +onlyGivenNames k0
  refine keeps_ite ?_ ?_
  · refine (Device.setSlot_keeps S) ?_
    assumption
  · refine (Device.setSlot_keeps S) ?_
    assumption

theorem Device.keyLoad_keeps {P : Device → Prop} (S : Stable P) {d n} (hc : P d) : P ((Device.keyLoad d n).2) := by
  delta Device.keyLoad
  extract_lets -merge -useContext -underBinder +onlyGivenNames k0
  split
  · refine keeps_snd ?_
    assumption
  · refine keeps_snd ?_
    assumption
  · extract_lets -merge -useContext -underBinder +onlyGivenNames k1
    extract_lets -merge -useContext -underBinder +onlyGivenNames k2
    extract_lets -merge -useContext -underBinder +onlyGivenNames k3
    split
    · refine keeps_snd ?_
      refine (Device.log_keeps S) ?_
      refine (Device.setSlot_keeps S) ?_
      assumption
    · refine keeps_ite2 ?_ ?_
      · refine keeps_snd ?_
        refine (Device.log_keeps S) ?_
        refine (Device.log_keeps S) ?_
        refine (Device.setSlot_keeps S) ?_
        assumption
      · refine keeps_snd ?_
        refine (Device.setSlot_keeps S) ?_
        assumption

theorem Device.freshKeys_keeps {P : Device → Prop} (S : Stable P) {d} (hc : P d) : P ((Device.freshKeys d).2) := by
  delta Device.freshKeys
  extract_lets -merge -useContext -underBinder +onlyGivenNames p0
  extract_lets -merge -useContext -underBinder +onlyGivenNames p1
  extract_lets -merge -useContext -underBinder +onlyGivenNames k2
  refine keeps_snd ?_
  refine (Device.takeFree_keeps S) ?_
  refine (Device.takeFree_keeps S) ?_
  assumption

theorem Device.setWords_keeps {P : Device → Prop} (S : MemStable P) {n a v d} (hc : P d) : P (Device.setWords n a v d) := by
  induction n generalizing a v d with
  | zero => exact hc
  | succ n ih => exact ih (Device.setMemWord_keeps S hc)

theorem Device.keyGenerate_keeps {P : Device → Prop} (S : MemStable P) {d n nsid epoch tenant} (hc : P d) : P ((Device.keyGenerate d n nsid epoch tenant).2) := by
  delta Device.keyGenerate
  extract_lets -merge -useContext -underBinder +onlyGivenNames k0
  split
  · refine keeps_snd ?_
    assumption
  · refine keeps_snd ?_
    assumption
  · extract_lets -merge -useContext -underBinder +onlyGivenNames p1
    extract_lets -merge -useContext -underBinder +onlyGivenNames k2
    extract_lets -merge -useContext -underBinder +onlyGivenNames x3
    have hx3 : P x3 := by
      unfold x3
      refine (Device.setSlot_keeps S.toStable) ?_
      refine (Device.freshKeys_keeps S.toStable) ?_
      assumption
    refine keeps_snd ?_
    refine keeps_ite ?_ ?_
    · refine (Device.setWords_keeps S) ?_
      exact hx3
    · exact hx3

theorem Device.keyErase_keeps {P : Device → Prop} (S : Stable P) {d n} (hc : P d) : P ((Device.keyErase d n).2) := by
  delta Device.keyErase
  extract_lets -merge -useContext -underBinder +onlyGivenNames k0
  split
  · refine keeps_snd ?_
    refine (Device.setSlot_keeps S) ?_
    assumption
  · refine keeps_snd ?_
    assumption
  · refine keeps_snd ?_
    refine (Device.log_keeps S) ?_
    assumption
  · refine keeps_snd ?_
    assumption

theorem Device.keyMap_keeps {P : Device → Prop} (S : Stable P) {d nsid n clear} (hc : P d) : P ((Device.keyMap d nsid n clear).2) := by
  delta Device.keyMap
  refine keeps_ite2 ?_ ?_
  · refine keeps_snd ?_
    assumption
  · refine keeps_ite2 ?_ ?_
    · refine keeps_snd ?_
      refine (Device.wr_keeps S) ?_
      refine (Device.wr_keeps S) ?_
      assumption
    · refine keeps_snd ?_
      refine (Device.wr_keeps S) ?_
      refine (Device.wr_keeps S) ?_
      assumption

theorem Device.keyDone_keeps {P : Device → Prop} (S : Stable P) {op n r} (hc : P r.2) : P (Device.keyDone op n r) := by
  delta Device.keyDone
  refine (Device.wr_keeps S) ?_
  refine (Device.wr_keeps S) ?_
  refine (Device.wr_keeps S) ?_
  refine (Device.wr_keeps S) ?_
  assumption

end Sys2Proof.Machine
end

