-- ==== Sys2Proof/Laws/KeepHostOps.lean ====
section
/-!
SUPPORT. Which of registers, memory and fuses each operation and each command of Machine/HostOps.lean writes (Laws/Canon.lean).
-/
namespace Sys2Proof.Machine

theorem Device.updHost_keeps {P : Device → Prop} (S : Stable P) {d f} (hc : P d) : P (Device.updHost d f) := by
  delta Device.updHost
  refine S.congr (d := d) ?_ rfl rfl rfl
  assumption

theorem Device.updCtrl_keeps {P : Device → Prop} (S : Stable P) {d c f} (hc : P d) : P (Device.updCtrl d c f) := by
  delta Device.updCtrl
  refine (Device.updHost_keeps S) ?_
  assumption

theorem Device.setNs_keeps {P : Device → Prop} (S : Stable P) {d n x} (hc : P d) : P (Device.setNs d n x) := by
  delta Device.setNs
  refine S.congr (d := d) ?_ rfl rfl rfl
  assumption

theorem Device.updNs_keeps {P : Device → Prop} (S : Stable P) {d n f} (hc : P d) : P (Device.updNs d n f) := by
  delta Device.updNs
  split
  · assumption
  · refine (Device.setNs_keeps S) ?_
    assumption

theorem Device.setFeat_keeps {P : Device → Prop} (S : Stable P) {d c fid sel v} (hc : P d) : P (Device.setFeat d c fid sel v) := by
  delta Device.setFeat
  refine (Device.updCtrl_keeps S) ?_
  assumption

theorem Device.postCq_keeps {P : Device → Prop} (S : Stable P) {d c q out} (hc : P d) : P (Device.postCq d c q out) := by
  delta Device.postCq
  split
  · refine (Device.emit_keeps S) ?_
    assumption
  · extract_lets -merge -useContext -underBinder +onlyGivenNames x0
    have hx0 : P x0 := by
      unfold x0
      refine (Device.emit_keeps S) ?_
      assumption
    extract_lets -merge -useContext -underBinder +onlyGivenNames k1
    extract_lets -merge -useContext -underBinder +onlyGivenNames k2
    extract_lets -merge -useContext -underBinder +onlyGivenNames k3
    extract_lets -merge -useContext -underBinder +onlyGivenNames k4
    extract_lets -merge -useContext -underBinder +onlyGivenNames x5
    have hx5 : P x5 := by
      unfold x5
      refine (Device.updHost_keeps S) ?_
      exact hx0
    refine keeps_ite ?_ ?_
    · refine (Device.emit_keeps S) ?_
      exact hx5
    · exact hx5

theorem Device.post_keeps {P : Device → Prop} (S : Stable P) {d id st dw0 dw1} (hc : P d) : P (Device.post d id st dw0 dw1) := by
  delta Device.post
  extract_lets -merge -useContext -underBinder +onlyGivenNames k0
  refine (Device.postCq_keeps S) ?_
  assumption

theorem Device.dropAdmin_keeps {P : Device → Prop} (S : Stable P) {d id} (hc : P d) : P (Device.dropAdmin d id) := by
  delta Device.dropAdmin
  refine (Device.updCtrl_keeps S) ?_
  assumption

theorem Device.adminDone_keeps {P : Device → Prop} (S : Stable P) {d id st dw0} (hc : P d) : P (Device.adminDone d id st dw0) := by
  delta Device.adminDone
  refine (Device.post_keeps S) ?_
  refine (Device.dropAdmin_keeps S) ?_
  assumption

theorem Device.onAdmin_keeps {P : Device → Prop} (S : Stable P) {d id opcode f} (hc : P d) (hf : ∀ d, P d → P (f d)) :
    P (Device.onAdmin d id opcode f) := keeps_ite (hf _ hc) hc

theorem Device.aenOn_keeps {P : Device → Prop} (S : Stable P) {d c mask a} (hc : P d) : P (Device.aenOn d c mask a) := by
  delta Device.aenOn
  refine keeps_ite ?_ ?_
  · assumption
  · split
    · refine (Device.updCtrl_keeps S) ?_
      assumption
    · refine (Device.post_keeps S) ?_
      refine (Device.updCtrl_keeps S) ?_
      assumption

theorem Device.postAen_keeps {P : Device → Prop} (S : Stable P) {d mask a} (hc : P d) : P (Device.postAen d mask a) := by
  delta Device.postAen
  refine keeps_foldl ?_ ?_
  · intro d' x' hd'
    show P _
    refine (Device.aenOn_keeps S) ?_
    assumption
  · assumption

theorem Device.updCmd_keeps {P : Device → Prop} (S : Stable P) {d n f} (hc : P d) : P (Device.updCmd d n f) := by
  delta Device.updCmd
  refine (Device.updHost_keeps S) ?_
  assumption

theorem Device.updUnit_keeps {P : Device → Prop} (S : Stable P) {d n k f} (hc : P d) : P (Device.updUnit d n k f) := by
  delta Device.updUnit
  refine (Device.updCmd_keeps S) ?_
  assumption

end Sys2Proof.Machine
end

