-- ==== Sys2Proof/Laws/KeepStoreOps.lean ====
section
/-!
SUPPORT. Which of registers, memory and fuses each operation and each command of Machine/StoreOps.lean writes (Laws/Canon.lean).
-/
namespace Sys2Proof.Machine

theorem Device.updTables_keeps {P : Device → Prop} (S : Stable P) {d f} (hc : P d) : P (Device.updTables d f) := by
  delta Device.updTables
  refine (Device.updHost_keeps S) ?_
  assumption

theorem Device.updZone_keeps {P : Device → Prop} (S : Stable P) {d nsid z f} (hc : P d) : P (Device.updZone d nsid z f) := by
  delta Device.updZone
  refine (Device.updTables_keeps S) ?_
  assumption

theorem Device.takeSeq_keeps {P : Device → Prop} (S : Stable P) {d} (hc : P d) : P ((Device.takeSeq d).2) := by
  delta Device.takeSeq
  refine keeps_snd ?_
  refine (Device.updHost_keeps S) ?_
  assumption

theorem Device.queueRec_keeps {P : Device → Prop} (S : Stable P) {d r cmd} (hc : P d) : P (Device.queueRec d r cmd) := by
  delta Device.queueRec
  refine (Device.updHost_keeps S) ?_
  assumption

theorem Device.queueSeq_keeps {P : Device → Prop} (S : Stable P) {d f} (hc : P d) : P (Device.queueSeq d f) := by
  delta Device.queueSeq
  split
  rename_i v' d' heq'
  have hd' : P d' := by
    show P (v', d').2
    rw [← heq']
    refine (Device.takeSeq_keeps S) ?_
    assumption
  refine (Device.queueRec_keeps S) ?_
  assumption

theorem Device.writeSector_keeps {P : Device → Prop} (S : Stable P) {d} (hc : P d) : P (Device.writeSector d) := by
  delta Device.writeSector
  refine keeps_ite ?_ ?_
  · assumption
  · extract_lets -merge -useContext -underBinder +onlyGivenNames k0
    extract_lets -merge -useContext -underBinder +onlyGivenNames k1
    extract_lets -merge -useContext -underBinder +onlyGivenNames k2
    refine (Device.updHost_keeps S) ?_
    assumption

theorem Device.flushJournal_keeps {P : Device → Prop} (S : Stable P) {d} (hc : P d) : P (Device.flushJournal d) := by
  delta Device.flushJournal
  refine keeps_ite ?_ ?_
  · assumption
  · refine keeps_foldl ?_ ?_
    · intro d' x' hd'
      show P _
      refine keeps_ite ?_ ?_
      · assumption
      · refine (Device.writeSector_keeps S) ?_
        assumption
    · assumption

theorem Device.journalFull_keeps {P : Device → Prop} (S : Stable P) {d} (hc : P d) : P (Device.journalFull d) := by
  delta Device.journalFull
  refine keeps_ite ?_ ?_
  · refine (Device.writeSector_keeps S) ?_
    assumption
  · assumption

theorem Device.openBand_keeps {P : Device → Prop} (S : Stable P) {d pl nsid zslba} (hc : P d) : P (Device.openBand d pl nsid zslba) := by
  delta Device.openBand
  split
  rename_i v' d' heq'
  have hd' : P d' := by
    show P (v', d').2
    rw [← heq']
    refine (Device.takeSeq_keeps S) ?_
    assumption
  extract_lets -merge -useContext -underBinder +onlyGivenNames k0
  extract_lets -merge -useContext -underBinder +onlyGivenNames x1
  have hx1 : P x1 := by
    unfold x1
    refine (Device.updTables_keeps S) ?_
    refine (Device.queueRec_keeps S) ?_
    assumption
  exact S.congr hx1 rfl rfl rfl

theorem Device.closeBand_keeps {P : Device → Prop} (S : Stable P) {d b} (hc : P d) : P (Device.closeBand d b) := by
  delta Device.closeBand
  split
  · assumption
  · refine keeps_ite ?_ ?_
    · assumption
    · split
      rename_i v' d' heq'
      have hd' : P d' := by
        show P (v', d').2
        rw [← heq']
        refine (Device.takeSeq_keeps S) ?_
        assumption
      extract_lets -merge -useContext -underBinder +onlyGivenNames k0
      extract_lets -merge -useContext -underBinder +onlyGivenNames x1
      have hx1 : P x1 := by
        unfold x1
        refine (Device.updTables_keeps S) ?_
        refine (Device.queueRec_keeps S) ?_
        assumption
      refine (Device.updHost_keeps S) ?_
      exact hx1

theorem Device.giveUpBand_keeps {P : Device → Prop} (S : Stable P) {d b} (hc : P d) : P (Device.giveUpBand d b) := by
  delta Device.giveUpBand
  split
  · assumption
  · split
    rename_i v' d' heq'
    have hd' : P d' := by
      show P (v', d').2
      rw [← heq']
      refine (Device.takeSeq_keeps S) ?_
      assumption
    extract_lets -merge -useContext -underBinder +onlyGivenNames x0
    have hx0 : P x0 := by
      unfold x0
      refine (Device.queueRec_keeps S) ?_
      assumption
    refine (Device.updHost_keeps S) ?_
    refine (Device.updTables_keeps S) ?_
    exact hx0

theorem Device.reclaim_keeps {P : Device → Prop} (S : Stable P) {d b} (hc : P d) : P (Device.reclaim d b) := by
  delta Device.reclaim
  split
  · assumption
  · extract_lets -merge -useContext -underBinder +onlyGivenNames k0
    refine keeps_ite ?_ ?_
    · assumption
    · extract_lets -merge -useContext -underBinder +onlyGivenNames x1
      have hx1 : P x1 := by
        unfold x1
        refine (Device.updTables_keeps S) ?_
        assumption
      exact S.congr hx1 rfl rfl rfl

theorem Device.reclaimAll_keeps {P : Device → Prop} (S : Stable P) {d} (hc : P d) : P (Device.reclaimAll d) := by
  delta Device.reclaimAll
  refine keeps_foldl ?_ ?_
  · intro d' x' hd'
    refine (Device.reclaim_keeps S) ?_
    assumption
  · assumption

theorem Device.updBandUnits_keeps {P : Device → Prop} (S : Stable P) {d b f} (hc : P d) : P (Device.updBandUnits d b f) := by
  delta Device.updBandUnits
  refine S.congr (d := d) ?_ rfl rfl rfl
  assumption

end Sys2Proof.Machine
end

