-- ==== Sys2Proof/Laws/KeepIoOps.lean ====
section
/-!
SUPPORT. Which of registers, memory and fuses each operation and each command of Machine/IoOps.lean writes (Laws/Canon.lean).
-/
namespace Sys2Proof.Machine

theorem Device.updMeter_keeps {P : Device → Prop} (S : Stable P) {d n f} (hc : P d) : P (Device.updMeter d n f) := by
  delta Device.updMeter
  refine S.congr (d := d) ?_ rfl rfl rfl
  assumption

theorem Device.finish_keeps {P : Device → Prop} (S : Stable P) {d c st} (hc : P d) : P (Device.finish d c st) := by
  delta Device.finish
  split
  · extract_lets -merge -useContext -underBinder +onlyGivenNames x0
    have hx0 : P x0 := by
      unfold x0
      refine (Device.post_keeps S) ?_
      assumption
    extract_lets -merge -useContext -underBinder +onlyGivenNames x1
    have hx1 : P x1 := by
      unfold x1
      refine keeps_ite ?_ ?_
      · refine (Device.updMeter_keeps S) ?_
        exact hx0
      · exact hx0
    refine keeps_ite ?_ ?_
    · refine (Device.log_keeps S) ?_
      exact hx1
    · exact hx1

theorem Device.dropEntries_keeps {P : Device → Prop} (S : Stable P) {d no} (hc : P d) : P (Device.dropEntries d no) := by
  delta Device.dropEntries
  refine keeps_ite ?_ ?_
  · assumption
  · refine (Device.updHost_keeps S) ?_
    assumption

theorem Device.setPins_keeps {P : Device → Prop} (S : MemStable P) {d p n} (hc : P d) : P (Device.setPins d p n) := by
  delta Device.setPins
  refine (Device.writePage_keeps S) ?_
  refine (Device.updHost_keeps S.toStable) ?_
  assumption

theorem Device.unpin_keeps {P : Device → Prop} (S : MemStable P) {d p} (hc : P d) : P (Device.unpin d p) := by
  delta Device.unpin
  extract_lets -merge -useContext -underBinder +onlyGivenNames k0
  extract_lets -merge -useContext -underBinder +onlyGivenNames x1
  have hx1 : P x1 := by
    unfold x1
    refine (Device.setPins_keeps S) ?_
    assumption
  refine keeps_ite ?_ ?_
  · exact hx1
  · split
    · exact hx1
    · extract_lets -merge -useContext -underBinder +onlyGivenNames x2
      have hx2 : P x2 := by
        unfold x2
        refine (Device.releasePage_keeps S.toStable) ?_
        refine (Device.updHost_keeps S.toStable) ?_
        exact hx1
      refine keeps_ite ?_ ?_
      · exact hx2
      · refine (Device.dropEntries_keeps S.toStable) ?_
        exact hx2

theorem Device.endCmd_keeps {P : Device → Prop} (S : MemStable P) {d c st} (hc : P d) : P (Device.endCmd d c st) := by
  delta Device.endCmd
  extract_lets -merge -useContext -underBinder +onlyGivenNames x0
  have hx0 : P x0 := by
    unfold x0
    refine (Device.updHost_keeps S.toStable) ?_
    assumption
  extract_lets -merge -useContext -underBinder +onlyGivenNames x1
  have hx1 : P x1 := by
    unfold x1
    refine keeps_ite ?_ ?_
    · exact hx0
    · refine (Device.finish_keeps S.toStable) ?_
      exact hx0
  refine (Device.dropEntries_keeps S.toStable) ?_
  refine keeps_foldl ?_ ?_
  · intro d' x' hd'
    refine (Device.unpin_keeps S) ?_
    assumption
  · exact hx1

theorem Device.letGo_keeps {P : Device → Prop} (S : Stable P) {d no pages} (hc : P d) : P (Device.letGo d no pages) := by
  delta Device.letGo
  extract_lets -merge -useContext -underBinder +onlyGivenNames k0
  extract_lets -merge -useContext -underBinder +onlyGivenNames x1
  have hx1 : P x1 := by
    unfold x1
    refine (Device.releasePages_keeps S) ?_
    assumption
  refine (Device.updHost_keeps S) ?_
  exact hx1

theorem Device.mapReads_keeps {P : Device → Prop} (S : Stable P) {d f} (hc : P d) : P (Device.mapReads d f) := by
  delta Device.mapReads
  refine (Device.updHost_keeps S) ?_
  assumption

theorem Device.unitOld_keeps {P : Device → Prop} (S : Stable P) {d no k} (hc : P d) : P (Device.unitOld d no k) := by
  delta Device.unitOld
  split
  · assumption
  · split
    · assumption
    · refine keeps_ite ?_ ?_
      · assumption
      · extract_lets -merge -useContext -underBinder +onlyGivenNames x0
        have hx0 : P x0 := by
          unfold x0
          refine (Device.updUnit_keeps S) ?_
          assumption
        refine (Device.mapReads_keeps S) ?_
        refine (Device.letGo_keeps S) ?_
        exact hx0

theorem Device.unitsOldFrom_keeps {P : Device → Prop} (S : Stable P) {d no k} (hc : P d) : P (Device.unitsOldFrom d no k) := by
  delta Device.unitsOldFrom
  split
  · assumption
  · refine keeps_foldl ?_ ?_
    · intro d' x' hd'
      show P _
      refine (Device.unitOld_keeps S) ?_
      assumption
    · assumption

theorem Device.failFrom_keeps {P : Device → Prop} (S : Stable P) {d no k st} (hc : P d) : P (Device.failFrom d no k st) := by
  delta Device.failFrom
  refine (Device.unitsOldFrom_keeps S) ?_
  refine (Device.updCmd_keeps S) ?_
  assumption

theorem Device.notExecuted_keeps {P : Device → Prop} (S : Stable P) {d no st} (hc : P d) : P (Device.notExecuted d no st) := by
  delta Device.notExecuted
  refine (Device.unitsOldFrom_keeps S) ?_
  refine (Device.updCmd_keeps S) ?_
  assumption

theorem Device.zoneAfterFailure_keeps {P : Device → Prop} (S : Stable P) {d c z st} (hc : P d) : P (Device.zoneAfterFailure d c z st) := by
  delta Device.zoneAfterFailure
  extract_lets -merge -useContext -underBinder +onlyGivenNames k0
  refine keeps_ite ?_ ?_
  · extract_lets -merge -useContext -underBinder +onlyGivenNames x1
    have hx1 : P x1 := by
      unfold x1
      refine (Device.updZone_keeps S) ?_
      assumption
    refine keeps_foldl ?_ ?_
    · intro d' x' hd'
      show P _
      refine (Device.notExecuted_keeps S) ?_
      assumption
    · exact hx1
  · extract_lets -merge -useContext -underBinder +onlyGivenNames x2
    have hx2 : P x2 := by
      unfold x2
      refine (Device.updZone_keeps S) ?_
      assumption
    refine keeps_foldl ?_ ?_
    · intro d' x' hd'
      show P _
      refine (Device.notExecuted_keeps S) ?_
      assumption
    · exact hx2

theorem Device.settleOne_keeps {P : Device → Prop} (S : MemStable P) {d no} (hc : P d) : P (Device.settleOne d no) := by
  delta Device.settleOne
  split
  · assumption
  · split
    · assumption
    · extract_lets -merge -useContext -underBinder +onlyGivenNames x0
      have hx0 : P x0 := by
        unfold x0
        split
        · assumption
        · refine keeps_ite ?_ ?_
          · refine (Device.zoneAfterFailure_keeps S.toStable) ?_
            assumption
          · assumption
      refine (Device.endCmd_keeps S) ?_
      exact hx0

theorem Device.settle_keeps {P : Device → Prop} (S : MemStable P) {d} (hc : P d) : P (Device.settle d) := by
  delta Device.settle
  extract_lets -merge -useContext -underBinder +onlyGivenNames x0
  have hx0 : P x0 := by
    unfold x0
    refine keeps_foldl ?_ ?_
    · intro d' x' hd'
      refine (Device.settleOne_keeps S) ?_
      assumption
    · assumption
  refine (Device.reclaimAll_keeps S.toStable) ?_
  refine (Device.updHost_keeps S.toStable) ?_
  exact hx0

theorem Device.abortCmd_keeps {P : Device → Prop} (S : Stable P) {d no st} (hc : P d) : P (Device.abortCmd d no st) := by
  delta Device.abortCmd
  split
  · assumption
  · split
    · assumption
    · extract_lets -merge -useContext -underBinder +onlyGivenNames x0
      have hx0 : P x0 := by
        unfold x0
        refine (Device.updCmd_keeps S) ?_
        assumption
      refine keeps_foldl ?_ ?_
      · intro d' x' hd'
        show P _
        refine (Device.unitOld_keeps S) ?_
        assumption
      · exact hx0
    · extract_lets -merge -useContext -underBinder +onlyGivenNames x1
      have hx1 : P x1 := by
        unfold x1
        refine (Device.updCmd_keeps S) ?_
        assumption
      refine keeps_foldl ?_ ?_
      · intro d' x' hd'
        show P _
        refine (Device.unitOld_keeps S) ?_
        assumption
      · exact hx1
    · extract_lets -merge -useContext -underBinder +onlyGivenNames x2
      have hx2 : P x2 := by
        unfold x2
        refine (Device.updCmd_keeps S) ?_
        assumption
      refine keeps_foldl ?_ ?_
      · intro d' x' hd'
        show P _
        refine (Device.unitOld_keeps S) ?_
        assumption
      · exact hx2
    · extract_lets -merge -useContext -underBinder +onlyGivenNames x3
      have hx3 : P x3 := by
        unfold x3
        refine (Device.updCmd_keeps S) ?_
        assumption
      refine keeps_foldl ?_ ?_
      · intro d' x' hd'
        show P _
        refine (Device.unitOld_keeps S) ?_
        assumption
      · exact hx3
    · refine (Device.updCmd_keeps S) ?_
      assumption

theorem Device.unitNew_keeps {P : Device → Prop} (S : Stable P) {d no k} (hc : P d) : P (Device.unitNew d no k) := by
  delta Device.unitNew
  split
  · assumption
  · split
    · assumption
    · extract_lets -merge -useContext -underBinder +onlyGivenNames k0
      extract_lets -merge -useContext -underBinder +onlyGivenNames x1
      have hx1 : P x1 := by
        unfold x1
        refine (Device.updTables_keeps S) ?_
        assumption
      extract_lets -merge -useContext -underBinder +onlyGivenNames x2
      have hx2 : P x2 := by
        unfold x2
        refine (Device.queueRec_keeps S) ?_
        exact hx1
      extract_lets -merge -useContext -underBinder +onlyGivenNames x3
      have hx3 : P x3 := by
        unfold x3
        refine (Device.updUnit_keeps S) ?_
        exact hx2
      extract_lets -merge -useContext -underBinder +onlyGivenNames x4
      have hx4 : P x4 := by
        unfold x4
        refine (Device.mapReads_keeps S) ?_
        exact hx3
      refine (Device.letGo_keeps S) ?_
      exact hx4

end Sys2Proof.Machine
end

