-- ==== Sys2Proof/Laws/KeepLaneOps.lean ====
section
/-!
SUPPORT. Which of registers, memory and fuses each operation and each command of Machine/LaneOps.lean writes (Laws/Canon.lean).
-/
namespace Sys2Proof.Machine

theorem Device.wrAll_keeps {P : Device → Prop} (S : Stable P) {d fs} (hc : P d) : P (Device.wrAll d fs) := by
  delta Device.wrAll
  refine keeps_foldl ?_ ?_
  · intro d' x' hd'
    show P _
    refine (Device.wr_keeps S) ?_
    assumption
  · assumption

theorem Device.updCh_keeps {P : Device → Prop} (S : Stable P) {d l f} (hc : P d) : P (Device.updCh d l f) := by
  delta Device.updCh
  refine (Device.updLane_keeps S) ?_
  assumption

theorem Device.updWr_keeps {P : Device → Prop} (S : Stable P) {d l f} (hc : P d) : P (Device.updWr d l f) := by
  delta Device.updWr
  refine (Device.updLane_keeps S) ?_
  assumption

theorem Device.updSv_keeps {P : Device → Prop} (S : Stable P) {d l f} (hc : P d) : P (Device.updSv d l f) := by
  delta Device.updSv
  refine (Device.updLane_keeps S) ?_
  assumption

theorem Device.updPs_keeps {P : Device → Prop} (S : Stable P) {d l f} (hc : P d) : P (Device.updPs d l f) := by
  delta Device.updPs
  refine (Device.updLane_keeps S) ?_
  assumption

theorem Device.updElk_keeps {P : Device → Prop} (S : Stable P) {d f} (hc : P d) : P (Device.updElk d f) := by
  delta Device.updElk
  refine S.congr (d := d) ?_ rfl rfl rfl
  assumption

theorem Device.updSpin_keeps {P : Device → Prop} (S : Stable P) {d f} (hc : P d) : P (Device.updSpin d f) := by
  delta Device.updSpin
  refine S.congr (d := d) ?_ rfl rfl rfl
  assumption

theorem Device.updBe_keeps {P : Device → Prop} (S : Stable P) {d e f} (hc : P d) : P (Device.updBe d e f) := by
  delta Device.updBe
  split
  · refine (Device.updLane_keeps S) ?_
    assumption
  · refine (Device.updSpin_keeps S) ?_
    assumption

theorem Device.updEc_keeps {P : Device → Prop} (S : Stable P) {d q f} (hc : P d) : P (Device.updEc d q f) := by
  delta Device.updEc
  refine (Device.updLane_keeps S) ?_
  assumption

theorem Device.updOp_keeps {P : Device → Prop} (S : Stable P) {d q f} (hc : P d) : P (Device.updOp d q f) := by
  delta Device.updOp
  refine (Device.updEc_keeps S) ?_
  assumption

theorem Device.showDone_keeps {P : Device → Prop} (S : Stable P) {d q} (hc : P d) : P (Device.showDone d q) := by
  delta Device.showDone
  split
  · assumption
  · refine (Device.wr_keeps S) ?_
    assumption

theorem Device.slotResult_keeps {P : Device → Prop} (S : Stable P) {d q k code} (hc : P d) : P (Device.slotResult d q k code) := by
  delta Device.slotResult
  refine (Device.showDone_keeps S) ?_
  refine (Device.updOp_keeps S) ?_
  assumption

theorem Device.report_keeps {P : Device → Prop} (S : Stable P) {d q k code} (hc : P d) : P (Device.report d q k code) := by
  delta Device.report
  refine (Device.slotResult_keeps S) ?_
  refine (Device.updOp_keeps S) ?_
  assumption

theorem Device.completeOp_keeps {P : Device → Prop} (S : Stable P) {d q status code causes} (hc : P d) : P (Device.completeOp d q status code causes) := by
  delta Device.completeOp
  split
  · assumption
  · extract_lets -merge -useContext -underBinder +onlyGivenNames k0
    refine (Device.wr_keeps S) ?_
    refine (Device.wr_keeps S) ?_
    refine (Device.updEc_keeps S) ?_
    assumption

theorem Device.endDue_keeps {P : Device → Prop} (S : Stable P) {d q} (hc : P d) : P (Device.endDue d q) := by
  delta Device.endDue
  split
  · assumption
  · split
    · assumption
    · refine keeps_ite ?_ ?_
      · refine (Device.completeOp_keeps S) ?_
        assumption
      · assumption

theorem Device.takeStop_keeps {P : Device → Prop} (S : Stable P) {d q} (hc : P d) : P (Device.takeStop d q) := by
  delta Device.takeStop
  extract_lets -merge -useContext -underBinder +onlyGivenNames k0
  split
  · assumption
  · refine keeps_ite ?_ ?_
    · assumption
    · extract_lets -merge -useContext -underBinder +onlyGivenNames k1
      extract_lets -merge -useContext -underBinder +onlyGivenNames x2
      have hx2 : P x2 := by
        unfold x2
        refine (Device.wr_keeps S) ?_
        refine (Device.updOp_keeps S) ?_
        assumption
      refine keeps_ite ?_ ?_
      · refine (Device.log_keeps S) ?_
        exact hx2
      · exact hx2

theorem Device.stopCause_keeps {P : Device → Prop} (S : Stable P) {d q bit} (hc : P d) : P (Device.stopCause d q bit) := by
  delta Device.stopCause
  split
  · assumption
  · extract_lets -merge -useContext -underBinder +onlyGivenNames k0
    refine keeps_ite ?_ ?_
    · assumption
    · extract_lets -merge -useContext -underBinder +onlyGivenNames x1
      have hx1 : P x1 := by
        unfold x1
        refine (Device.wr_keeps S) ?_
        assumption
      refine keeps_ite ?_ ?_
      · refine (Device.takeStop_keeps S) ?_
        exact hx1
      · exact hx1

theorem Device.stopLane_keeps {P : Device → Prop} (S : Stable P) {d l bit} (hc : P d) : P (Device.stopLane d l bit) := by
  delta Device.stopLane
  refine keeps_foldl ?_ ?_
  · intro d' x' hd'
    show P _
    refine (Device.stopCause_keeps S) ?_
    assumption
  · assumption

theorem Device.seqAbort_keeps {P : Device → Prop} (S : Stable P) {d l} (hc : P d) : P (Device.seqAbort d l) := by
  delta Device.seqAbort
  refine keeps_foldl ?_ ?_
  · intro d' x' hd'
    show P _
    refine keeps_ite ?_ ?_
    · refine (Device.stopCause_keeps S) ?_
      refine (Device.wr_keeps S) ?_
      assumption
    · assumption
  · assumption

theorem Device.cutGate_keeps {P : Device → Prop} (S : Stable P) {d l} (hc : P d) : P (Device.cutGate d l) := by
  delta Device.cutGate
  split
  · assumption
  · refine (Device.updOp_keeps S) ?_
    refine (Device.updWr_keeps S) ?_
    assumption

theorem Device.recheckGate_keeps {P : Device → Prop} (S : Stable P) {d l} (hc : P d) : P (Device.recheckGate d l) := by
  delta Device.recheckGate
  extract_lets -merge -useContext -underBinder +onlyGivenNames k0
  extract_lets -merge -useContext -underBinder +onlyGivenNames k1
  refine keeps_ite ?_ ?_
  · assumption
  · refine (Device.cutGate_keeps S) ?_
    assumption

theorem Device.inhibit_keeps {P : Device → Prop} (S : Stable P) {d l} (hc : P d) : P (Device.inhibit d l) := by
  delta Device.inhibit
  refine (Device.stopLane_keeps S) ?_
  refine (Device.cutGate_keeps S) ?_
  assumption

theorem Device.pesInhibit_keeps {P : Device → Prop} (S : Stable P) {d l} (hc : P d) : P (Device.pesInhibit d l) := by
  delta Device.pesInhibit
  refine keeps_ite ?_ ?_
  · assumption
  · extract_lets -merge -useContext -underBinder +onlyGivenNames x0
    have hx0 : P x0 := by
      unfold x0
      refine keeps_ite ?_ ?_
      · refine (Device.updWr_keeps S) ?_
        assumption
      · assumption
    extract_lets -merge -useContext -underBinder +onlyGivenNames x1
    have hx1 : P x1 := by
      unfold x1
      refine (Device.wr_keeps S) ?_
      refine (Device.wr_keeps S) ?_
      refine (Device.wr_keeps S) ?_
      exact hx0
    refine (Device.log_keeps S) ?_
    refine (Device.inhibit_keeps S) ?_
    exact hx1

theorem Device.leftFollow_keeps {P : Device → Prop} (S : Stable P) {d l} (hc : P d) : P (Device.leftFollow d l) := by
  delta Device.leftFollow
  extract_lets -merge -useContext -underBinder +onlyGivenNames k0
  refine (Device.pesInhibit_keeps S) ?_
  refine keeps_foldl ?_ ?_
  · intro d' x' hd'
    show P _
    refine keeps_ite ?_ ?_
    · refine (Device.stopCause_keeps S) ?_
      assumption
    · assumption
  · assumption

theorem Device.svEnter_keeps {P : Device → Prop} (S : Stable P) {d l st} (hc : P d) : P (Device.svEnter d l st) := by
  delta Device.svEnter
  extract_lets -merge -useContext -underBinder +onlyGivenNames k0
  extract_lets -merge -useContext -underBinder +onlyGivenNames x1
  have hx1 : P x1 := by
    unfold x1
    refine (Device.updSv_keeps S) ?_
    assumption
  extract_lets -merge -useContext -underBinder +onlyGivenNames x2
  have hx2 : P x2 := by
    unfold x2
    refine (Device.wrB_keeps S) ?_
    refine (Device.wr_keeps S) ?_
    refine (Device.wr_keeps S) ?_
    exact hx1
  refine keeps_ite ?_ ?_
  · refine (Device.leftFollow_keeps S) ?_
    exact hx2
  · exact hx2

theorem Device.emergencyRetract_keeps {P : Device → Prop} (S : Stable P) {d cause} (hc : P d) : P (Device.emergencyRetract d cause) := by
  delta Device.emergencyRetract
  refine keeps_ite ?_ ?_
  · assumption
  · extract_lets -merge -useContext -underBinder +onlyGivenNames x0
    have hx0 : P x0 := by
      unfold x0
      refine S.congr (d := d) ?_ rfl rfl rfl
      assumption
    refine keeps_foldl ?_ ?_
    · intro d' x' hd'
      show P _
      extract_lets -merge -useContext -underBinder +onlyGivenNames x1
      have hx1 : P x1 := by
        unfold x1
        refine (Device.wr_keeps S) ?_
        refine (Device.wr_keeps S) ?_
        refine (Device.wr_keeps S) ?_
        assumption
      refine (Device.log_keeps S) ?_
      refine (Device.inhibit_keeps S) ?_
      refine (Device.svEnter_keeps S) ?_
      exact hx1
    · exact hx0

theorem Device.spEnter_keeps {P : Device → Prop} (S : Stable P) {d st} (hc : P d) : P (Device.spEnter d st) := by
  delta Device.spEnter
  extract_lets -merge -useContext -underBinder +onlyGivenNames x0
  have hx0 : P x0 := by
    unfold x0
    refine (Device.updSpin_keeps S) ?_
    assumption
  refine (Device.wr_keeps S) ?_
  refine (Device.wr_keeps S) ?_
  exact hx0

theorem Device.brkOff_keeps {P : Device → Prop} (S : Stable P) {d} (hc : P d) : P (Device.brkOff d) := by
  delta Device.brkOff
  refine (Device.updSpin_keeps S) ?_
  refine (Device.wr_keeps S) ?_
  assumption

theorem Device.spinOff_keeps {P : Device → Prop} (S : Stable P) {d} (hc : P d) : P (Device.spinOff d) := by
  delta Device.spinOff
  extract_lets -merge -useContext -underBinder +onlyGivenNames x0
  have hx0 : P x0 := by
    unfold x0
    refine (Device.brkOff_keeps S) ?_
    assumption
  refine keeps_ite ?_ ?_
  · refine (Device.spEnter_keeps S) ?_
    exact hx0
  · exact hx0

end Sys2Proof.Machine
end

