-- ==== Sys2Proof/Laws/KeepEffects.lean ====
section
/-!
SUPPORT. Which of registers, memory and fuses each operation and each command of Machine/Effects.lean writes (Laws/Canon.lean).
-/
namespace Sys2Proof.Machine

theorem Device.postSmartAen_keeps {P : Device → Prop} (S : Stable P) {d bit} (hc : P d) : P (Device.postSmartAen d bit) := by
  delta Device.postSmartAen
  refine (Device.postAen_keeps S) ?_
  assumption

theorem Device.deviceReset_keeps {P : Device → Prop} (S : MemStable P) {d cause st} (hc : P d) : P (Device.deviceReset d cause st) := by
  delta Device.deviceReset
  refine Device.log_keeps S.toStable (Device.wr_keeps S.toStable (Device.wr_keeps S.toStable ?_))
  exact S.blank hc rfl rfl rfl

theorem Device.patchRejected_keeps {P : Device → Prop} (S : Stable P) {d step} (hc : P d) : P (Device.patchRejected d step) := by
  delta Device.patchRejected
  refine (Device.log_keeps S) ?_
  refine keeps_foldl ?_ ?_
  · intro d' x' hd'
    show P _
    refine (Device.wr_keeps S) ?_
    assumption
  · assumption

theorem Device.patchSeq_keeps {P : Device → Prop} (S : Stable P) {d pvec traps words q} (hc : P d) : P (Device.patchSeq d pvec traps words q) := by
  delta Device.patchSeq
  extract_lets -merge -useContext -underBinder +onlyGivenNames x0
  have hx0 : P x0 := by
    unfold x0
    refine (Device.updEc_keeps S) ?_
    assumption
  extract_lets -merge -useContext -underBinder +onlyGivenNames x1
  have hx1 : P x1 := by
    unfold x1
    refine keeps_foldl ?_ ?_
    · intro d' x' hd'
      show P _
      refine S.setWord _ _ ?_
      assumption
    · exact hx0
  refine (Device.wrAll_keeps S) ?_
  refine (Device.wrB_keeps S) ?_
  exact hx1

theorem Device.noPatchSeq_keeps {P : Device → Prop} (S : Stable P) {d q} (hc : P d) : P (Device.noPatchSeq d q) := by
  delta Device.noPatchSeq
  extract_lets -merge -useContext -underBinder +onlyGivenNames x0
  have hx0 : P x0 := by
    unfold x0
    refine (Device.updEc_keeps S) ?_
    assumption
  extract_lets -merge -useContext -underBinder +onlyGivenNames x1
  have hx1 : P x1 := by
    unfold x1
    refine keeps_foldl ?_ ?_
    · intro d' x' hd'
      show P _
      refine S.setWord _ _ ?_
      assumption
    · exact hx0
  refine (Device.wrAll_keeps S) ?_
  exact hx1

theorem Device.loadPatch_keeps {P : Device → Prop} (S : Stable P) {d p} (hc : P d) : P (Device.loadPatch d p) := by
  delta Device.loadPatch
  split
  · refine keeps_foldl ?_ ?_
    · intro d' x' hd'
      show P _
      refine (Device.noPatchSeq_keeps S) ?_
      assumption
    · assumption
  · refine (Device.patchRejected_keeps S) ?_
    assumption
  · refine keeps_ite ?_ ?_
    · refine (Device.patchRejected_keeps S) ?_
      assumption
    · refine keeps_ite ?_ ?_
      · refine (Device.patchRejected_keeps S) ?_
        assumption
      · refine (Device.log_keeps S) ?_
        refine keeps_foldl ?_ ?_
        · intro d' x' hd'
          show P _
          refine (Device.patchSeq_keeps S) ?_
          assumption
        · assumption

theorem Device.resumeMeters_keeps {P : Device → Prop} (S : Stable P) {d} (hc : P d) : P (Device.resumeMeters d) := by
  delta Device.resumeMeters
  extract_lets -merge -useContext -underBinder +onlyGivenNames k0
  extract_lets -merge -useContext -underBinder +onlyGivenNames k1
  extract_lets -merge -useContext -underBinder +onlyGivenNames x2i0 x2
  have hx2 : P x2 := by
    unfold x2
    refine S.congr (d := d) ?_ rfl rfl rfl
    assumption
  generalize k1 = z3
  split
  · exact hx2
  · refine (Device.log_keeps S) ?_
    exact hx2

theorem Device.saveTherm_keeps {P : Device → Prop} (S : Stable P) {d} (hc : P d) : P (Device.saveTherm d) := by
  delta Device.saveTherm
  refine S.congr (d := d) ?_ rfl rfl rfl
  assumption

theorem Device.closeMinute_keeps {P : Device → Prop} (S : Stable P) {d before} (hc : P d) : P (Device.closeMinute d before) := by
  delta Device.closeMinute
  refine keeps_ite ?_ ?_
  · assumption
  · split
    · assumption
    · extract_lets -merge -useContext -underBinder +onlyGivenNames k0
      refine S.congr (d := d) ?_ rfl rfl rfl
      assumption

theorem Device.setPP_keeps {P : Device → Prop} (S : Stable P) {d b} (hc : P d) : P (Device.setPP d b) := by
  delta Device.setPP
  extract_lets -merge -useContext -underBinder +onlyGivenNames x0
  have hx0 : P x0 := by
    unfold x0
    refine keeps_foldl ?_ ?_
    · intro d' x' hd'
      show P _
      refine (Device.updCtrl_keeps S) ?_
      assumption
    · assumption
  refine keeps_ite ?_ ?_
  · refine (Device.postAen_keeps S) ?_
    exact hx0
  · exact hx0

end Sys2Proof.Machine
end

