-- ==== Sys2Proof/Laws/KeepCalibre.lean ====
section
/-!
SUPPORT. Which of registers, memory and fuses each operation and each command of Machine/Calibre.lean writes (Laws/Canon.lean).
-/
namespace Sys2Proof.Machine

theorem Device.loadAlim_keeps {P : Device → Prop} (S : Stable P) {t n o d} (hc : P d) : P (Device.loadAlim t n o d) := by
  induction n generalizing o d with
  | zero => exact hc
  | succ n ih => exact ih (S.congr (Device.wr_keeps S (Device.wr_keeps S hc)) rfl rfl rfl)

theorem Device.loadCalibre_keeps {P : Device → Prop} (S : Stable P) {d t rs source} (hc : P d) : P (Device.loadCalibre d t rs source) := by
  delta Device.loadCalibre
  extract_lets -merge -useContext -underBinder +onlyGivenNames g0
  have hg0 : ∀ g0a0 g0a1 g0a2 (hg0a0 : P g0a0), P (g0 g0a0 g0a1 g0a2) := by
    intro g0a0 g0a1 g0a2 hg0a0
    unfold g0
    show P _
    refine S.setWord _ _ ?_
    assumption
  extract_lets -merge -useContext -underBinder +onlyGivenNames x1
  have hx1 : P x1 := by
    unfold x1
    refine keeps_foldl ?_ ?_
    · intro d' x' hd'
      show P _
      refine hg0 _ _ _ ?_
      assumption
    · assumption
  extract_lets -merge -useContext -underBinder +onlyGivenNames x2
  have hx2 : P x2 := by
    unfold x2
    refine hg0 _ _ _ ?_
    exact hx1
  extract_lets -merge -useContext -underBinder +onlyGivenNames x3
  have hx3 : P x3 := by
    unfold x3
    refine hg0 _ _ _ ?_
    exact hx2
  extract_lets -merge -useContext -underBinder +onlyGivenNames x4
  have hx4 : P x4 := by
    unfold x4
    refine keeps_foldl ?_ ?_
    · intro d' x' hd'
      show P _
      refine hg0 _ _ _ ?_
      assumption
    · exact hx3
  extract_lets -merge -useContext -underBinder +onlyGivenNames x5
  have hx5 : P x5 := by
    unfold x5
    refine hg0 _ _ _ ?_
    exact hx4
  extract_lets -merge -useContext -underBinder +onlyGivenNames x6
  have hx6 : P x6 := by
    unfold x6
    split
    · refine (Device.loadAlim_keeps S) ?_
      exact hx5
    · exact hx5
  extract_lets -merge -useContext -underBinder +onlyGivenNames x7
  have hx7 : P x7 := by
    unfold x7
    refine (Device.wr_keeps S) ?_
    refine (Device.wr_keeps S) ?_
    exact hx6
  extract_lets -merge -useContext -underBinder +onlyGivenNames x8
  have hx8 : P x8 := by
    unfold x8
    refine (Device.wr_keeps S) ?_
    exact hx7
  exact S.congr hx8 rfl rfl rfl

theorem Device.lockCalibre_keeps {P : Device → Prop} (S : Stable P) {d} (hc : P d) : P (Device.lockCalibre d) := by
  delta Device.lockCalibre
  extract_lets -merge -useContext -underBinder +onlyGivenNames x0
  have hx0 : P x0 := by
    unfold x0
    refine (Device.wr_keeps S) ?_
    refine (Device.wr_keeps S) ?_
    assumption
  exact S.congr hx0 rfl rfl rfl

end Sys2Proof.Machine
end

