-- ==== Sys2Proof/Laws/KeepLogbook.lean ====
section
/-!
SUPPORT. Which of registers, memory and fuses each operation and each command of Machine/Logbook.lean writes (Laws/Canon.lean).
-/
namespace Sys2Proof.Machine

theorem logPostEff_keeps {P : Device → Prop} (S : Stable P) {source code params d} (hc : P d) : P (logPostEff source code params d) := by
  delta logPostEff
  refine keeps_ite ?_ ?_
  · refine (Device.logRate_keeps S) ?_
    assumption
  · refine (Device.log_keeps S) ?_
    assumption

theorem Device.programEntry_keeps {P : Device → Prop} (S : Stable P) {d e} (hc : P d) : P (Device.programEntry d e) := by
  delta Device.programEntry
  extract_lets -merge -useContext -underBinder +onlyGivenNames k0
  extract_lets -merge -useContext -underBinder +onlyGivenNames k1
  extract_lets -merge -useContext -underBinder +onlyGivenNames k2
  refine S.congr (d := d) ?_ rfl rfl rfl
  assumption

theorem Device.skipSlot_keeps {P : Device → Prop} (S : Stable P) {d} (hc : P d) : P (Device.skipSlot d) := by
  delta Device.skipSlot
  refine S.congr (d := d) ?_ rfl rfl rfl
  assumption

theorem Device.programAll_keeps {P : Device → Prop} (S : Stable P) {d} (hc : P d) : P (Device.programAll d) := by
  delta Device.programAll
  extract_lets -merge -useContext -underBinder +onlyGivenNames x0
  have hx0 : P x0 := by
    unfold x0
    refine keeps_foldl ?_ ?_
    · intro d' x' hd'
      refine (Device.programEntry_keeps S) ?_
      assumption
    · assumption
  extract_lets -merge -useContext -underBinder +onlyGivenNames x1i0 x1
  have hx1 : P x1 := by
    unfold x1
    exact S.congr hx0 rfl rfl rfl
  refine keeps_ite ?_ ?_
  · exact hx1
  · refine (Device.log_keeps S) ?_
    exact hx1

theorem logbookProgramEff_keeps {P : Device → Prop} (S : Stable P) {fail1 fail2 d} (hc : P d) : P (logbookProgramEff fail1 fail2 d) := by
  delta logbookProgramEff
  refine keeps_ite ?_ ?_
  · assumption
  · refine keeps_ite ?_ ?_
    · refine (Device.programAll_keeps S) ?_
      assumption
    · refine keeps_ite ?_ ?_
      · refine (Device.programAll_keeps S) ?_
        refine (Device.skipSlot_keeps S) ?_
        assumption
      · extract_lets -merge -useContext -underBinder +onlyGivenNames x0
        have hx0 : P x0 := by
          unfold x0
          refine (Device.skipSlot_keeps S) ?_
          assumption
        extract_lets -merge -useContext -underBinder +onlyGivenNames k1
        extract_lets -merge -useContext -underBinder +onlyGivenNames x2
        have hx2 : P x2 := by
          unfold x2
          refine (Device.skipSlot_keeps S) ?_
          exact hx0
        refine (Device.log_keeps S) ?_
        exact S.congr hx2 rfl rfl rfl

theorem logbookFlushEff_keeps {P : Device → Prop} (S : Stable P) {d} (hc : P d) : P (logbookFlushEff d) := by
  delta logbookFlushEff
  refine keeps_ite ?_ ?_
  · assumption
  · refine S.congr (d := d) ?_ rfl rfl rfl
    assumption

theorem logbookMirrorEff_keeps {P : Device → Prop} (S : Stable P) {d} (hc : P d) : P (logbookMirrorEff d) := by
  delta logbookMirrorEff
  split
  · assumption
  · refine keeps_ite ?_ ?_
    · assumption
    · extract_lets -merge -useContext -underBinder +onlyGivenNames k0
      extract_lets -merge -useContext -underBinder +onlyGivenNames k1
      refine S.congr (d := d) ?_ rfl rfl rfl
      assumption

theorem execLogPost_keeps {P : Device → Prop} (S : Stable P) {a0 a1 a2 s t} (hc : P s.dev) (he : execLogPost a0 a1 a2 s = .next t) : P t.dev := by
  delta execLogPost at he
  refine State.upd_keeps hc he ?_
  intro d hd
  show P _
  refine (logPostEff_keeps S) ?_
  assumption

theorem execLogbookProgram_keeps {P : Device → Prop} (S : Stable P) {a0 a1 s t} (hc : P s.dev) (he : execLogbookProgram a0 a1 s = .next t) : P t.dev := by
  delta execLogbookProgram at he
  refine State.upd_keeps hc he ?_
  intro d hd
  show P _
  refine (logbookProgramEff_keeps S) ?_
  assumption

theorem execLogbookFlushTimer_keeps {P : Device → Prop} (S : Stable P) {s t} (hc : P s.dev) (he : execLogbookFlushTimer s = .next t) : P t.dev := by
  delta execLogbookFlushTimer at he
  refine State.upd_keeps hc he ?_
  intro d hd
  show P _
  refine (logbookFlushEff_keeps S) ?_
  assumption

theorem execLogbookMirrorCopy_keeps {P : Device → Prop} (S : Stable P) {s t} (hc : P s.dev) (he : execLogbookMirrorCopy s = .next t) : P t.dev := by
  delta execLogbookMirrorCopy at he
  refine State.upd_keeps hc he ?_
  intro d hd
  show P _
  refine (logbookMirrorEff_keeps S) ?_
  assumption

end Sys2Proof.Machine
end

