-- ==== Sys2Proof/Laws/KeepRegulator.lean ====
section
/-!
SUPPORT. Which of registers, memory and fuses each operation and each command of Machine/Regulator.lean writes (Laws/Canon.lean).
-/
namespace Sys2Proof.Machine

theorem Device.calCut_keeps {P : Device → Prop} (S : Stable P) {d l} (hc : P d) : P (Device.calCut d l) := by
  delta Device.calCut
  extract_lets -merge -useContext -underBinder +onlyGivenNames k0
  generalize k0 = z1
  split
  · assumption
  · extract_lets -merge -useContext -underBinder +onlyGivenNames x2
    have hx2 : P x2 := by
      unfold x2
      refine (Device.wr_keeps S) ?_
      refine (Device.seqAbort_keeps S) ?_
      assumption
    split
    · exact S.congr hx2 rfl rfl rfl
    · exact S.congr hx2 rfl rfl rfl

theorem Device.applyStep_keeps {P : Device → Prop} (S : Stable P) {d} (hc : P d) : P (Device.applyStep d) := by
  delta Device.applyStep
  extract_lets -merge -useContext -underBinder +onlyGivenNames k0
  extract_lets -merge -useContext -underBinder +onlyGivenNames k1
  refine keeps_ite ?_ ?_
  · assumption
  · extract_lets -merge -useContext -underBinder +onlyGivenNames x2
    have hx2 : P x2 := by
      unfold x2
      refine (Device.log_keeps S) ?_
      refine (Device.wr_keeps S) ?_
      refine (Device.wr_keeps S) ?_
      assumption
    extract_lets -merge -useContext -underBinder +onlyGivenNames x3i0 x3
    have hx3 : P x3 := by
      unfold x3
      exact S.congr hx2 rfl rfl rfl
    refine keeps_ite ?_ ?_
    · refine (Device.calCut_keeps S) ?_
      refine (Device.calCut_keeps S) ?_
      exact hx3
    · exact hx3

theorem Device.holdDomains_keeps {P : Device → Prop} (S : Stable P) {d} (hc : P d) : P (Device.holdDomains d) := by
  delta Device.holdDomains
  extract_lets -merge -useContext -underBinder +onlyGivenNames x0
  have hx0 : P x0 := by
    unfold x0
    refine (Device.wr_keeps S) ?_
    refine (Device.spinOff_keeps S) ?_
    refine (Device.emergencyRetract_keeps S) ?_
    assumption
  exact S.congr hx0 rfl rfl rfl

theorem Device.shutdownNow_keeps {P : Device → Prop} (S : Stable P) {d code params} (hc : P d) : P (Device.shutdownNow d code params) := by
  delta Device.shutdownNow
  refine keeps_ite ?_ ?_
  · assumption
  · extract_lets -merge -useContext -underBinder +onlyGivenNames x0i0 x0i1 x0
    have hx0 : P x0 := by
      unfold x0
      refine S.congr (d := d) ?_ rfl rfl rfl
      assumption
    refine (Device.saveTherm_keeps S) ?_
    refine (Device.programAll_keeps S) ?_
    refine (Device.log_keeps S) ?_
    refine (Device.holdDomains_keeps S) ?_
    exact hx0

theorem Device.takeDiode_keeps {P : Device → Prop} (S : Stable P) {d i code} (hc : P d) : P (Device.takeDiode d i code) := by
  delta Device.takeDiode
  extract_lets -merge -useContext -underBinder +onlyGivenNames k0
  extract_lets -merge -useContext -underBinder +onlyGivenNames x1
  have hx1 : P x1 := by
    unfold x1
    refine (Device.wr_keeps S) ?_
    refine (Device.wr_keeps S) ?_
    assumption
  exact S.congr hx1 rfl rfl rfl

theorem diodeConversionEff_keeps {P : Device → Prop} (S : Stable P) {codes d} (hc : P d) : P (diodeConversionEff codes d) := by
  delta diodeConversionEff
  refine keeps_ite ?_ ?_
  · assumption
  · extract_lets -merge -useContext -underBinder +onlyGivenNames x0
    have hx0 : P x0 := by
      unfold x0
      refine keeps_foldl ?_ ?_
      · intro d' x' hd'
        show P _
        refine (Device.takeDiode_keeps S) ?_
        assumption
      · assumption
    split
    · exact hx0
    · extract_lets -merge -useContext -underBinder +onlyGivenNames x1
      have hx1 : P x1 := by
        unfold x1
        refine (Device.wr_keeps S) ?_
        refine (Device.wr_keeps S) ?_
        exact hx0
      extract_lets -merge -useContext -underBinder +onlyGivenNames k2
      exact S.congr hx1 rfl rfl rfl

theorem diodeFailEff_keeps {P : Device → Prop} (S : Stable P) {i d} (hc : P d) : P (diodeFailEff i d) := by
  delta diodeFailEff
  refine keeps_ite ?_ ?_
  · extract_lets -merge -useContext -underBinder +onlyGivenNames x0
    have hx0 : P x0 := by
      unfold x0
      refine (Device.log_keeps S) ?_
      refine (Device.wr_keeps S) ?_
      refine (Device.wr_keeps S) ?_
      assumption
    refine keeps_ite ?_ ?_
    · refine (Device.shutdownNow_keeps S) ?_
      refine (Device.log_keeps S) ?_
      exact hx0
    · exact hx0
  · assumption

theorem thermistorConversionEff_keeps {P : Device → Prop} (S : Stable P) {t code d} (hc : P d) : P (thermistorConversionEff t code d) := by
  delta thermistorConversionEff
  refine keeps_ite ?_ ?_
  · assumption
  · extract_lets -merge -useContext -underBinder +onlyGivenNames k0
    extract_lets -merge -useContext -underBinder +onlyGivenNames x1
    have hx1 : P x1 := by
      unfold x1
      refine (Device.wr_keeps S) ?_
      refine (Device.wr_keeps S) ?_
      assumption
    extract_lets -merge -useContext -underBinder +onlyGivenNames x2
    have hx2 : P x2 := by
      unfold x2
      refine (Device.wr_keeps S) ?_
      exact hx1
    exact S.congr hx2 rfl rfl rfl

theorem thermistorOutEff_keeps {P : Device → Prop} (S : Stable P) {t d} (hc : P d) : P (thermistorOutEff t d) := by
  delta thermistorOutEff
  refine keeps_ite ?_ ?_
  · refine (Device.log_keeps S) ?_
    refine (Device.wr_keeps S) ?_
    refine (Device.wr_keeps S) ?_
    refine (Device.wr_keeps S) ?_
    assumption
  · assumption

theorem thermistorBackEff_keeps {P : Device → Prop} (S : Stable P) {t d} (hc : P d) : P (thermistorBackEff t d) := by
  delta thermistorBackEff
  refine keeps_ite ?_ ?_
  · refine (Device.wr_keeps S) ?_
    refine (Device.wr_keeps S) ?_
    assumption
  · assumption

theorem supplyConversionEff_keeps {P : Device → Prop} (S : Stable P) {ch code d} (hc : P d) : P (supplyConversionEff ch code d) := by
  delta supplyConversionEff
  refine keeps_ite ?_ ?_
  · assumption
  · extract_lets -merge -useContext -underBinder +onlyGivenNames k0
    extract_lets -merge -useContext -underBinder +onlyGivenNames k1
    extract_lets -merge -useContext -underBinder +onlyGivenNames k2
    extract_lets -merge -useContext -underBinder +onlyGivenNames x3
    have hx3 : P x3 := by
      unfold x3
      refine (Device.wrB_keeps S) ?_
      refine (Device.wrB_keeps S) ?_
      refine (Device.wr_keeps S) ?_
      assumption
    exact S.congr hx3 rfl rfl rfl

theorem supplyFailureEff_keeps {P : Device → Prop} (S : Stable P) {ch d} (hc : P d) : P (supplyFailureEff ch d) := by
  delta supplyFailureEff
  refine keeps_ite ?_ ?_
  · extract_lets -merge -useContext -underBinder +onlyGivenNames k0
    extract_lets -merge -useContext -underBinder +onlyGivenNames x1i0 x1
    have hx1 : P x1 := by
      unfold x1
      refine S.congr (d := d) ?_ rfl rfl rfl
      assumption
    extract_lets -merge -useContext -underBinder +onlyGivenNames x2
    have hx2 : P x2 := by
      unfold x2
      refine (Device.holdDomains_keeps S) ?_
      exact hx1
    refine keeps_ite ?_ ?_
    · exact S.congr hx2 rfl rfl rfl
    · refine (Device.programAll_keeps S) ?_
      refine (Device.log_keeps S) ?_
      exact hx2
  · assumption

theorem supplyHighEff_keeps {P : Device → Prop} (S : Stable P) {ch d} (hc : P d) : P (supplyHighEff ch d) := by
  delta supplyHighEff
  refine keeps_ite ?_ ?_
  · refine (Device.postSmartAen_keeps S) ?_
    refine (Device.wr_keeps S) ?_
    refine (Device.log_keeps S) ?_
    refine S.congr (d := d) ?_ rfl rfl rfl
    assumption
  · assumption

theorem supplyRecoveryEff_keeps {P : Device → Prop} (S : MemStable P) {st d} (hc : P d) : P (supplyRecoveryEff st d) := by
  delta supplyRecoveryEff
  refine keeps_ite ?_ ?_
  · refine (Device.deviceReset_keeps S) ?_
    assumption
  · assumption

theorem shockStuckEff_keeps {P : Device → Prop} (S : Stable P) {i d} (hc : P d) : P (shockStuckEff i d) := by
  delta shockStuckEff
  refine keeps_ite ?_ ?_
  · extract_lets -merge -useContext -underBinder +onlyGivenNames x0
    have hx0 : P x0 := by
      unfold x0
      refine keeps_ite ?_ ?_
      · refine S.congr (d := d) ?_ rfl rfl rfl
        assumption
      · refine S.congr (d := d) ?_ rfl rfl rfl
        assumption
    refine (Device.log_keeps S) ?_
    refine (Device.wr_keeps S) ?_
    refine (Device.wr_keeps S) ?_
    exact hx0
  · assumption

theorem shockUnmaskEff_keeps {P : Device → Prop} (S : Stable P) {i d} (hc : P d) : P (shockUnmaskEff i d) := by
  delta shockUnmaskEff
  refine keeps_ite ?_ ?_
  · refine (Device.wr_keeps S) ?_
    assumption
  · assumption

theorem warningSetEff_keeps {P : Device → Prop} (S : Stable P) {d} (hc : P d) : P (warningSetEff d) := by
  delta warningSetEff
  refine keeps_ite ?_ ?_
  · refine (Device.postSmartAen_keeps S) ?_
    refine (Device.wr_keeps S) ?_
    refine (Device.wr_keeps S) ?_
    refine (Device.log_keeps S) ?_
    refine S.congr (d := d) ?_ rfl rfl rfl
    assumption
  · assumption

theorem warningClearEff_keeps {P : Device → Prop} (S : Stable P) {d} (hc : P d) : P (warningClearEff d) := by
  delta warningClearEff
  refine keeps_ite ?_ ?_
  · refine (Device.wr_keeps S) ?_
    refine (Device.log_keeps S) ?_
    refine S.congr (d := d) ?_ rfl rfl rfl
    assumption
  · assumption

theorem throttleSetEff_keeps {P : Device → Prop} (S : Stable P) {d} (hc : P d) : P (throttleSetEff d) := by
  delta throttleSetEff
  refine keeps_ite ?_ ?_
  · extract_lets -merge -useContext -underBinder +onlyGivenNames k0
    extract_lets -merge -useContext -underBinder +onlyGivenNames k1
    extract_lets -merge -useContext -underBinder +onlyGivenNames x2i0 x2
    have hx2 : P x2 := by
      unfold x2
      refine S.congr (d := d) ?_ rfl rfl rfl
      assumption
    refine (Device.applyStep_keeps S) ?_
    refine (Device.log_keeps S) ?_
    refine (Device.wr_keeps S) ?_
    refine (Device.wr_keeps S) ?_
    exact hx2
  · assumption

theorem throttleRiseEff_keeps {P : Device → Prop} (S : Stable P) {d} (hc : P d) : P (throttleRiseEff d) := by
  delta throttleRiseEff
  refine keeps_ite ?_ ?_
  · refine (Device.applyStep_keeps S) ?_
    refine S.congr (d := d) ?_ rfl rfl rfl
    assumption
  · assumption

theorem throttleFallEff_keeps {P : Device → Prop} (S : Stable P) {d} (hc : P d) : P (throttleFallEff d) := by
  delta throttleFallEff
  refine keeps_ite ?_ ?_
  · refine (Device.applyStep_keeps S) ?_
    refine S.congr (d := d) ?_ rfl rfl rfl
    assumption
  · assumption

theorem throttleClearEff_keeps {P : Device → Prop} (S : Stable P) {d} (hc : P d) : P (throttleClearEff d) := by
  delta throttleClearEff
  refine keeps_ite ?_ ?_
  · extract_lets -merge -useContext -underBinder +onlyGivenNames k0
    extract_lets -merge -useContext -underBinder +onlyGivenNames k1
    extract_lets -merge -useContext -underBinder +onlyGivenNames x2i0 x2i1 x2
    have hx2 : P x2 := by
      unfold x2
      refine S.congr (d := d) ?_ rfl rfl rfl
      assumption
    refine (Device.saveTherm_keeps S) ?_
    refine (Device.applyStep_keeps S) ?_
    refine (Device.log_keeps S) ?_
    refine (Device.wr_keeps S) ?_
    exact hx2
  · assumption

theorem thctrlForceEff_keeps {P : Device → Prop} (S : Stable P) {v d} (hc : P d) : P (thctrlForceEff v d) := by
  delta thctrlForceEff
  refine keeps_ite ?_ ?_
  · assumption
  · refine (Device.applyStep_keeps S) ?_
    refine (Device.wr_keeps S) ?_
    assumption

theorem thermalShutdownEff_keeps {P : Device → Prop} (S : Stable P) {d} (hc : P d) : P (thermalShutdownEff d) := by
  delta thermalShutdownEff
  refine keeps_ite ?_ ?_
  · refine (Device.shutdownNow_keeps S) ?_
    assumption
  · assumption

theorem thermalRestartEff_keeps {P : Device → Prop} (S : MemStable P) {st d} (hc : P d) : P (thermalRestartEff st d) := by
  delta thermalRestartEff
  split
  · refine keeps_ite ?_ ?_
    · extract_lets -merge -useContext -underBinder +onlyGivenNames x0
      have hx0 : P x0 := by
        unfold x0
        refine (Device.deviceReset_keeps S) ?_
        assumption
      exact S.congr hx0 rfl rfl rfl
    · assumption
  · assumption

theorem dutyCapEff_keeps {P : Device → Prop} (S : Stable P) {l d} (hc : P d) : P (dutyCapEff l d) := by
  delta dutyCapEff
  extract_lets -merge -useContext -underBinder +onlyGivenNames k0
  split
  · assumption
  · refine keeps_ite ?_ ?_
    · assumption
    · split
      · refine S.congr (d := d) ?_ rfl rfl rfl
        assumption
      · refine S.congr (d := d) ?_ rfl rfl rfl
        assumption

theorem Device.selectLadder_keeps {P : Device → Prop} (S : Stable P) {d adc f b} (hc : P d) : P (Device.selectLadder d adc f b) := by
  delta Device.selectLadder
  refine keeps_ite ?_ ?_
  · assumption
  · refine (Device.log_keeps S) ?_
    refine (Device.wrB_keeps S) ?_
    assumption

theorem Device.setGrant_keeps {P : Device → Prop} (S : Stable P) {d l g} (hc : P d) : P (Device.setGrant d l g) := by
  delta Device.setGrant
  split
  · refine S.congr (d := d) ?_ rfl rfl rfl
    assumption
  · refine S.congr (d := d) ?_ rfl rfl rfl
    assumption

theorem calreqGoEff_keeps {P : Device → Prop} (S : Stable P) {l kind head duration d} (hc : P d) : P (calreqGoEff l kind head duration d) := by
  delta calreqGoEff
  extract_lets -merge -useContext -underBinder +onlyGivenNames k0
  refine keeps_ite ?_ ?_
  · assumption
  · extract_lets -merge -useContext -underBinder +onlyGivenNames x1
    have hx1 : P x1 := by
      unfold x1
      refine (Device.wr_keeps S) ?_
      refine (Device.wr_keeps S) ?_
      refine (Device.wr_keeps S) ?_
      assumption
    extract_lets -merge -useContext -underBinder +onlyGivenNames k2
    extract_lets -merge -useContext -underBinder +onlyGivenNames k3
    refine keeps_ite ?_ ?_
    · refine (Device.wr_keeps S) ?_
      refine (Device.wr_keeps S) ?_
      exact hx1
    · extract_lets -merge -useContext -underBinder +onlyGivenNames x4
      have hx4 : P x4 := by
        unfold x4
        refine (Device.wr_keeps S) ?_
        refine (Device.wr_keeps S) ?_
        refine (Device.wr_keeps S) ?_
        exact hx1
      exact S.congr hx4 rfl rfl rfl

theorem calGrantEff_keeps {P : Device → Prop} (S : Stable P) {d} (hc : P d) : P (calGrantEff d) := by
  delta calGrantEff
  split
  · assumption
  · extract_lets -merge -useContext -underBinder +onlyGivenNames k0
    extract_lets -merge -useContext -underBinder +onlyGivenNames x1i0 x1
    have hx1 : P x1 := by
      unfold x1
      refine S.congr (d := d) ?_ rfl rfl rfl
      assumption
    extract_lets -merge -useContext -underBinder +onlyGivenNames x2
    have hx2 : P x2 := by
      unfold x2
      refine (Device.setGrant_keeps S) ?_
      exact hx1
    refine (Device.wr_keeps S) ?_
    refine (Device.wr_keeps S) ?_
    refine (Device.wr_keeps S) ?_
    refine (Device.wr_keeps S) ?_
    refine (Device.wr_keeps S) ?_
    exact hx2

theorem calDoneEff_keeps {P : Device → Prop} (S : Stable P) {l d} (hc : P d) : P (calDoneEff l d) := by
  delta calDoneEff
  refine keeps_ite ?_ ?_
  · refine (Device.wr_keeps S) ?_
    refine (Device.wr_keeps S) ?_
    refine (Device.setGrant_keeps S) ?_
    assumption
  · assumption

theorem calExpireEff_keeps {P : Device → Prop} (S : Stable P) {l d} (hc : P d) : P (calExpireEff l d) := by
  delta calExpireEff
  split
  · assumption
  · refine keeps_ite ?_ ?_
    · assumption
    · extract_lets -merge -useContext -underBinder +onlyGivenNames k0
      extract_lets -merge -useContext -underBinder +onlyGivenNames x1
      have hx1 : P x1 := by
        unfold x1
        refine (Device.wr_keeps S) ?_
        refine (Device.log_keeps S) ?_
        refine (Device.wr_keeps S) ?_
        refine (Device.calCut_keeps S) ?_
        assumption
      refine keeps_ite ?_ ?_
      · split
        · exact S.congr hx1 rfl rfl rfl
        · exact S.congr hx1 rfl rfl rfl
      · exact hx1

theorem calOverdueEff_keeps {P : Device → Prop} (S : Stable P) {l d} (hc : P d) : P (calOverdueEff l d) := by
  delta calOverdueEff
  split
  · assumption
  · split
    · assumption
    · refine keeps_ite ?_ ?_
      · assumption
      · refine (Device.log_keeps S) ?_
        refine S.congr (d := d) ?_ rfl rfl rfl
        assumption

theorem execDiodeConversion_keeps {P : Device → Prop} (S : Stable P) {a0 s t} (hc : P s.dev) (he : execDiodeConversion a0 s = .next t) : P t.dev := by
  delta execDiodeConversion at he
  refine State.upd_keeps hc he ?_
  intro d hd
  show P _
  refine (diodeConversionEff_keeps S) ?_
  assumption

theorem execDiodeFail_keeps {P : Device → Prop} (S : Stable P) {a0 s t} (hc : P s.dev) (he : execDiodeFail a0 s = .next t) : P t.dev := by
  delta execDiodeFail at he
  refine State.upd_keeps hc he ?_
  intro d hd
  show P _
  refine (diodeFailEff_keeps S) ?_
  assumption

theorem execThermistorConversion_keeps {P : Device → Prop} (S : Stable P) {a0 a1 s t} (hc : P s.dev) (he : execThermistorConversion a0 a1 s = .next t) : P t.dev := by
  delta execThermistorConversion at he
  refine State.upd_keeps hc he ?_
  intro d hd
  show P _
  refine (thermistorConversionEff_keeps S) ?_
  assumption

theorem execThermistorOutOfRange_keeps {P : Device → Prop} (S : Stable P) {a0 s t} (hc : P s.dev) (he : execThermistorOutOfRange a0 s = .next t) : P t.dev := by
  delta execThermistorOutOfRange at he
  refine State.upd_keeps hc he ?_
  intro d hd
  show P _
  refine (thermistorOutEff_keeps S) ?_
  assumption

theorem execThermistorBackInRange_keeps {P : Device → Prop} (S : Stable P) {a0 s t} (hc : P s.dev) (he : execThermistorBackInRange a0 s = .next t) : P t.dev := by
  delta execThermistorBackInRange at he
  refine State.upd_keeps hc he ?_
  intro d hd
  show P _
  refine (thermistorBackEff_keeps S) ?_
  assumption

theorem execSupplyConversion_keeps {P : Device → Prop} (S : Stable P) {a0 a1 s t} (hc : P s.dev) (he : execSupplyConversion a0 a1 s = .next t) : P t.dev := by
  delta execSupplyConversion at he
  refine State.upd_keeps hc he ?_
  intro d hd
  show P _
  refine (supplyConversionEff_keeps S) ?_
  assumption

theorem execSupplyFailure_keeps {P : Device → Prop} (S : Stable P) {a0 s t} (hc : P s.dev) (he : execSupplyFailure a0 s = .next t) : P t.dev := by
  delta execSupplyFailure at he
  refine State.upd_keeps hc he ?_
  intro d hd
  show P _
  refine (supplyFailureEff_keeps S) ?_
  assumption

theorem execSupplyHigh_keeps {P : Device → Prop} (S : Stable P) {a0 s t} (hc : P s.dev) (he : execSupplyHigh a0 s = .next t) : P t.dev := by
  delta execSupplyHigh at he
  refine State.upd_keeps hc he ?_
  intro d hd
  show P _
  refine (supplyHighEff_keeps S) ?_
  assumption

theorem execSupplyRecoveryReset_keeps {P : Device → Prop} (S : MemStable P) {a0 s t} (hc : P s.dev) (he : execSupplyRecoveryReset a0 s = .next t) : P t.dev := by
  delta execSupplyRecoveryReset at he
  refine State.upd_keeps hc he ?_
  intro d hd
  show P _
  refine (supplyRecoveryEff_keeps S) ?_
  assumption

theorem execShockStuck_keeps {P : Device → Prop} (S : Stable P) {a0 s t} (hc : P s.dev) (he : execShockStuck a0 s = .next t) : P t.dev := by
  delta execShockStuck at he
  refine State.upd_keeps hc he ?_
  intro d hd
  show P _
  refine (shockStuckEff_keeps S) ?_
  assumption

theorem execShockUnmask_keeps {P : Device → Prop} (S : Stable P) {a0 s t} (hc : P s.dev) (he : execShockUnmask a0 s = .next t) : P t.dev := by
  delta execShockUnmask at he
  refine State.upd_keeps hc he ?_
  intro d hd
  show P _
  refine (shockUnmaskEff_keeps S) ?_
  assumption

theorem execWarningSet_keeps {P : Device → Prop} (S : Stable P) {s t} (hc : P s.dev) (he : execWarningSet s = .next t) : P t.dev := by
  delta execWarningSet at he
  refine State.upd_keeps hc he ?_
  intro d hd
  show P _
  refine (warningSetEff_keeps S) ?_
  assumption

theorem execWarningClear_keeps {P : Device → Prop} (S : Stable P) {s t} (hc : P s.dev) (he : execWarningClear s = .next t) : P t.dev := by
  delta execWarningClear at he
  refine State.upd_keeps hc he ?_
  intro d hd
  show P _
  refine (warningClearEff_keeps S) ?_
  assumption

theorem execThrottleSet_keeps {P : Device → Prop} (S : Stable P) {s t} (hc : P s.dev) (he : execThrottleSet s = .next t) : P t.dev := by
  delta execThrottleSet at he
  refine State.upd_keeps hc he ?_
  intro d hd
  show P _
  refine (throttleSetEff_keeps S) ?_
  assumption

theorem execThrottleStepRise_keeps {P : Device → Prop} (S : Stable P) {s t} (hc : P s.dev) (he : execThrottleStepRise s = .next t) : P t.dev := by
  delta execThrottleStepRise at he
  refine State.upd_keeps hc he ?_
  intro d hd
  show P _
  refine (throttleRiseEff_keeps S) ?_
  assumption

theorem execThrottleStepFall_keeps {P : Device → Prop} (S : Stable P) {s t} (hc : P s.dev) (he : execThrottleStepFall s = .next t) : P t.dev := by
  delta execThrottleStepFall at he
  refine State.upd_keeps hc he ?_
  intro d hd
  show P _
  refine (throttleFallEff_keeps S) ?_
  assumption

theorem execThrottleClear_keeps {P : Device → Prop} (S : Stable P) {s t} (hc : P s.dev) (he : execThrottleClear s = .next t) : P t.dev := by
  delta execThrottleClear at he
  refine State.upd_keeps hc he ?_
  intro d hd
  show P _
  refine (throttleClearEff_keeps S) ?_
  assumption

theorem execThctrlForceWrite_keeps {P : Device → Prop} (S : Stable P) {a0 s t} (hc : P s.dev) (he : execThctrlForceWrite a0 s = .next t) : P t.dev := by
  delta execThctrlForceWrite at he
  refine State.upd_keeps hc he ?_
  intro d hd
  show P _
  refine (thctrlForceEff_keeps S) ?_
  assumption

theorem execThermalShutdown_keeps {P : Device → Prop} (S : Stable P) {s t} (hc : P s.dev) (he : execThermalShutdown s = .next t) : P t.dev := by
  delta execThermalShutdown at he
  refine State.upd_keeps hc he ?_
  intro d hd
  show P _
  refine (thermalShutdownEff_keeps S) ?_
  assumption

theorem execThermalAutoRestart_keeps {P : Device → Prop} (S : MemStable P) {a0 s t} (hc : P s.dev) (he : execThermalAutoRestart a0 s = .next t) : P t.dev := by
  delta execThermalAutoRestart at he
  refine State.upd_keeps hc he ?_
  intro d hd
  show P _
  refine (thermalRestartEff_keeps S) ?_
  assumption

theorem execMediaDutyWindow_keeps {P : Device → Prop} (S : Stable P) {s t} (hc : P s.dev) (he : execMediaDutyWindow s = .next t) : P t.dev := by
  delta execMediaDutyWindow at he
  refine State.upd_keeps hc he ?_
  intro d hd
  show P _
  refine S.congr (d := d) ?_ rfl rfl rfl
  assumption

theorem execDutyCapReached_keeps {P : Device → Prop} (S : Stable P) {a0 s t} (hc : P s.dev) (he : execDutyCapReached a0 s = .next t) : P t.dev := by
  delta execDutyCapReached at he
  refine State.upd_keeps hc he ?_
  intro d hd
  show P _
  refine (dutyCapEff_keeps S) ?_
  assumption

theorem execReferenceLadderCheck_keeps {P : Device → Prop} (S : Stable P) {a0 a1 s t} (hc : P s.dev) (he : execReferenceLadderCheck a0 a1 s = .next t) : P t.dev := by
  delta execReferenceLadderCheck at he
  refine State.upd_keeps hc he ?_
  intro d hd
  show P _
  refine (Device.selectLadder_keeps S) ?_
  refine (Device.selectLadder_keeps S) ?_
  assumption

theorem execBandgapTrim_keeps {P : Device → Prop} (S : Stable P) {a0 s t} (hc : P s.dev) (he : execBandgapTrim a0 s = .next t) : P t.dev := by
  delta execBandgapTrim at he
  refine State.upd_keeps hc he ?_
  intro d hd
  show P _
  refine S.congr (d := d) ?_ rfl rfl rfl
  assumption

theorem execCalreqGo_keeps {P : Device → Prop} (S : Stable P) {a0 a1 a2 a3 s t} (hc : P s.dev) (he : execCalreqGo a0 a1 a2 a3 s = .next t) : P t.dev := by
  delta execCalreqGo at he
  refine State.upd_keeps hc he ?_
  intro d hd
  show P _
  refine (calreqGoEff_keeps S) ?_
  assumption

theorem execCalGrant_keeps {P : Device → Prop} (S : Stable P) {s t} (hc : P s.dev) (he : execCalGrant s = .next t) : P t.dev := by
  delta execCalGrant at he
  refine State.upd_keeps hc he ?_
  intro d hd
  show P _
  refine (calGrantEff_keeps S) ?_
  assumption

theorem execCalDoneWrite_keeps {P : Device → Prop} (S : Stable P) {a0 s t} (hc : P s.dev) (he : execCalDoneWrite a0 s = .next t) : P t.dev := by
  delta execCalDoneWrite at he
  refine State.upd_keeps hc he ?_
  intro d hd
  show P _
  refine (calDoneEff_keeps S) ?_
  assumption

theorem execCalGrantExpire_keeps {P : Device → Prop} (S : Stable P) {a0 s t} (hc : P s.dev) (he : execCalGrantExpire a0 s = .next t) : P t.dev := by
  delta execCalGrantExpire at he
  refine State.upd_keeps hc he ?_
  intro d hd
  show P _
  refine (calExpireEff_keeps S) ?_
  assumption

theorem execCalWaitOverdue_keeps {P : Device → Prop} (S : Stable P) {a0 s t} (hc : P s.dev) (he : execCalWaitOverdue a0 s = .next t) : P t.dev := by
  delta execCalWaitOverdue at he
  refine State.upd_keeps hc he ?_
  intro d hd
  show P _
  refine (calOverdueEff_keeps S) ?_
  assumption

theorem execSmbusClockLowTimeout_keeps {P : Device → Prop} (S : Stable P) {s t} (hc : P s.dev) (he : execSmbusClockLowTimeout s = .next t) : P t.dev := by
  delta execSmbusClockLowTimeout at he
  refine State.upd_keeps hc he ?_
  intro d hd
  show P _
  refine (Device.log_keeps S) ?_
  assumption

theorem execAonClockMissing_keeps {P : Device → Prop} (S : Stable P) {s t} (hc : P s.dev) (he : execAonClockMissing s = .next t) : P t.dev := by
  delta execAonClockMissing at he
  refine State.upd_keeps hc he ?_
  intro d hd
  show P _
  refine (Device.log_keeps S) ?_
  refine (Device.wr_keeps S) ?_
  assumption

end Sys2Proof.Machine
end

