-- ==== Sys2Proof/Laws/KeepBoot.lean ====
section
/-!
SUPPORT. Which of registers, memory and fuses each operation and each command of Machine/Boot.lean writes (Laws/Canon.lean).
-/
namespace Sys2Proof.Machine

theorem Device.writeRec_keeps {P : Device → Prop} (S : Stable P) {d r} (hc : P d) : P (Device.writeRec d r) := by
  delta Device.writeRec
  extract_lets -merge -useContext -underBinder +onlyGivenNames x0i0 x0
  have hx0 : P x0 := by
    unfold x0
    refine S.congr (d := d) ?_ rfl rfl rfl
    assumption
  extract_lets -merge -useContext -underBinder +onlyGivenNames x1i0 x1
  have hx1 : P x1 := by
    unfold x1
    exact S.congr hx0 rfl rfl rfl
  refine (Device.wr_keeps S) ?_
  exact hx1

theorem Device.revertPending_keeps {P : Device → Prop} (S : Stable P) {d cause} (hc : P d) : P (Device.revertPending d cause) := by
  delta Device.revertPending
  extract_lets -merge -useContext -underBinder +onlyGivenNames k0
  split
  · assumption
  · refine (Device.log_keeps S) ?_
    refine (Device.writeRec_keeps S) ?_
    assumption

theorem Device.checkSettings_keeps {P : Device → Prop} (S : Stable P) {d schema} (hc : P d) : P (Device.checkSettings d schema) := by
  delta Device.checkSettings
  split
  · refine S.congr (d := d) ?_ rfl rfl rfl
    assumption
  · refine keeps_ite ?_ ?_
    · assumption
    · refine keeps_ite ?_ ?_
      · refine (Device.log_keeps S) ?_
        refine S.congr (d := d) ?_ rfl rfl rfl
        assumption
      · extract_lets -merge -useContext -underBinder +onlyGivenNames k0
        refine (Device.log_keeps S) ?_
        refine S.congr (d := d) ?_ rfl rfl rfl
        assumption

theorem Device.holdLog_keeps {P : Device → Prop} (S : Stable P) {d code params} (hc : P d) : P (Device.holdLog d code params) := by
  delta Device.holdLog
  refine S.congr (d := d) ?_ rfl rfl rfl
  assumption

theorem Device.enterRecovery_keeps {P : Device → Prop} (S : Stable P) {d code params} (hc : P d) : P (Device.enterRecovery d code params) := by
  delta Device.enterRecovery
  extract_lets -merge -useContext -underBinder +onlyGivenNames x0
  have hx0 : P x0 := by
    unfold x0
    refine (Device.wr_keeps S) ?_
    assumption
  refine (Device.holdLog_keeps S) ?_
  exact S.congr hx0 rfl rfl rfl

theorem Device.logHeld_keeps {P : Device → Prop} (S : Stable P) {d} (hc : P d) : P (Device.logHeld d) := by
  delta Device.logHeld
  extract_lets -merge -useContext -underBinder +onlyGivenNames x0
  have hx0 : P x0 := by
    unfold x0
    split
    · extract_lets -merge -useContext -underBinder +onlyGivenNames x1i0 x1
      have hx1 : P x1 := by
        unfold x1
        refine S.congr (d := d) ?_ rfl rfl rfl
        assumption
      extract_lets -merge -useContext -underBinder +onlyGivenNames x2
      have hx2 : P x2 := by
        unfold x2
        refine (Device.log_keeps S) ?_
        exact hx1
      exact S.congr hx2 rfl rfl rfl
    · assumption
  extract_lets -merge -useContext -underBinder +onlyGivenNames k3
  refine keeps_foldl ?_ ?_
  · intro d' x' hd'
    show P _
    refine (Device.log_keeps S) ?_
    assumption
  · exact S.congr hx0 rfl rfl rfl

theorem Device.restartChron_keeps {P : Device → Prop} (S : Stable P) {d} (hc : P d) : P (Device.restartChron d) := by
  delta Device.restartChron
  refine keeps_ite ?_ ?_
  · extract_lets -merge -useContext -underBinder +onlyGivenNames k0
    extract_lets -merge -useContext -underBinder +onlyGivenNames x1i0 x1i1 x1
    have hx1 : P x1 := by
      unfold x1
      refine S.congr (d := d) ?_ rfl rfl rfl
      assumption
    refine (Device.log_keeps S) ?_
    exact hx1
  · refine S.congr (d := d) ?_ rfl rfl rfl
    assumption

theorem Device.makeFirstNs_keeps {P : Device → Prop} (S : Stable P) {d} (hc : P d) : P (Device.makeFirstNs d) := by
  delta Device.makeFirstNs
  refine keeps_ite ?_ ?_
  · assumption
  · refine S.congr (d := d) ?_ rfl rfl rfl
    assumption

theorem Device.releaseCores_keeps {P : Device → Prop} (S : Stable P) {d slot probation} (hc : P d) : P (Device.releaseCores d slot probation) := by
  delta Device.releaseCores
  extract_lets -merge -useContext -underBinder +onlyGivenNames k0
  extract_lets -merge -useContext -underBinder +onlyGivenNames k1
  extract_lets -merge -useContext -underBinder +onlyGivenNames x2
  have hx2 : P x2 := by
    unfold x2
    refine keeps_ite ?_ ?_
    · refine (Device.checkSettings_keeps S) ?_
      assumption
    · assumption
  extract_lets -merge -useContext -underBinder +onlyGivenNames x3
  have hx3 : P x3 := by
    unfold x3
    split
    · refine (Device.wr_keeps S) ?_
      exact hx2
    · refine (Device.log_keeps S) ?_
      refine (Device.wr_keeps S) ?_
      exact hx2
  extract_lets -merge -useContext -underBinder +onlyGivenNames x4
  have hx4 : P x4 := by
    unfold x4
    refine (Device.loadPatch_keeps S) ?_
    exact hx3
  extract_lets -merge -useContext -underBinder +onlyGivenNames x5
  have hx5 : P x5 := by
    unfold x5
    refine (Device.makeFirstNs_keeps S) ?_
    refine (Device.resumeMeters_keeps S) ?_
    refine (Device.restartChron_keeps S) ?_
    exact hx4
  extract_lets -merge -useContext -underBinder +onlyGivenNames x6i0 x6
  have hx6 : P x6 := by
    unfold x6
    exact S.congr hx5 rfl rfl rfl
  extract_lets -merge -useContext -underBinder +onlyGivenNames x7
  have hx7 : P x7 := by
    unfold x7
    refine (Device.wr_keeps S) ?_
    refine (Device.wr_keeps S) ?_
    refine (Device.wr_keeps S) ?_
    refine (Device.wrB_keeps S) ?_
    refine (Device.wr_keeps S) ?_
    exact hx6
  extract_lets -merge -useContext -underBinder +onlyGivenNames x8
  have hx8 : P x8 := by
    unfold x8
    refine (Device.selectLadder_keeps S) ?_
    refine (Device.selectLadder_keeps S) ?_
    exact hx7
  extract_lets -merge -useContext -underBinder +onlyGivenNames x9
  have hx9 : P x9 := by
    unfold x9
    refine (Device.logHeld_keeps S) ?_
    exact hx8
  extract_lets -merge -useContext -underBinder +onlyGivenNames x10
  have hx10 : P x10 := by
    unfold x10
    refine keeps_ite ?_ ?_
    · refine (Device.log_keeps S) ?_
      exact hx9
    · exact hx9
  refine (Device.log_keeps S) ?_
  exact hx10

theorem Device.bootActive_keeps {P : Device → Prop} (S : Stable P) {d} (hc : P d) : P (Device.bootActive d) := by
  delta Device.bootActive
  extract_lets -merge -useContext -underBinder +onlyGivenNames k0
  extract_lets -merge -useContext -underBinder +onlyGivenNames k1
  extract_lets -merge -useContext -underBinder +onlyGivenNames k2
  refine keeps_ite ?_ ?_
  · refine (Device.releaseCores_keeps S) ?_
    assumption
  · refine keeps_ite ?_ ?_
    · refine (Device.releaseCores_keeps S) ?_
      refine (Device.log_keeps S) ?_
      refine (Device.writeRec_keeps S) ?_
      assumption
    · refine (Device.enterRecovery_keeps S) ?_
      assumption

theorem Device.bootSlot_keeps {P : Device → Prop} (S : Stable P) {d} (hc : P d) : P (Device.bootSlot d) := by
  delta Device.bootSlot
  extract_lets -merge -useContext -underBinder +onlyGivenNames x0
  have hx0 : P x0 := by
    unfold x0
    refine keeps_ite ?_ ?_
    · refine (Device.writeRec_keeps S) ?_
      assumption
    · assumption
  extract_lets -merge -useContext -underBinder +onlyGivenNames x1i0 x1
  have hx1 : P x1 := by
    unfold x1
    refine keeps_ite ?_ ?_
    · refine (Device.writeRec_keeps S) ?_
      exact hx0
    · exact hx0
  extract_lets -merge -useContext -underBinder +onlyGivenNames x2
  have hx2 : P x2 := by
    unfold x2
    refine (Device.wr_keeps S) ?_
    exact hx1
  extract_lets -merge -useContext -underBinder +onlyGivenNames x3
  have hx3 : P x3 := by
    unfold x3
    refine (Device.wr_keeps S) ?_
    exact hx2
  extract_lets -merge -useContext -underBinder +onlyGivenNames k4
  split
  · refine (Device.bootActive_keeps S) ?_
    exact hx3
  · refine keeps_ite ?_ ?_
    · refine (Device.bootActive_keeps S) ?_
      refine (Device.revertPending_keeps S) ?_
      exact hx3
    · refine keeps_ite ?_ ?_
      · refine (Device.bootActive_keeps S) ?_
        refine (Device.revertPending_keeps S) ?_
        exact hx3
      · refine keeps_ite ?_ ?_
        · refine (Device.bootActive_keeps S) ?_
          refine (Device.revertPending_keeps S) ?_
          exact hx3
        · refine (Device.releaseCores_keeps S) ?_
          refine (Device.writeRec_keeps S) ?_
          exact hx3

theorem Device.selectCalibre_keeps {P : Device → Prop} (S : Stable P) {d} (hc : P d) : P (Device.selectCalibre d) := by
  delta Device.selectCalibre
  extract_lets -merge -useContext -underBinder +onlyGivenNames x0
  have hx0 : P x0 := by
    unfold x0
    refine (Device.wr_keeps S) ?_
    refine (Device.wr_keeps S) ?_
    assumption
  extract_lets -merge -useContext -underBinder +onlyGivenNames x1
  have hx1 : P x1 := by
    unfold x1
    refine keeps_ite ?_ ?_
    · exact hx0
    · refine (Device.holdLog_keeps S) ?_
      exact hx0
  extract_lets -merge -useContext -underBinder +onlyGivenNames x2
  have hx2 : P x2 := by
    unfold x2
    refine keeps_ite ?_ ?_
    · exact hx1
    · refine (Device.holdLog_keeps S) ?_
      exact hx1
  extract_lets -merge -useContext -underBinder +onlyGivenNames k3
  generalize k3 = z4
  split
  · refine (Device.enterRecovery_keeps S) ?_
    refine (Device.wr_keeps S) ?_
    refine (Device.wr_keeps S) ?_
    exact hx2
  · extract_lets -merge -useContext -underBinder +onlyGivenNames k5
    split
    · refine (Device.enterRecovery_keeps S) ?_
      exact hx2
    · extract_lets -merge -useContext -underBinder +onlyGivenNames x6
      have hx6 : P x6 := by
        unfold x6
        refine (Device.log_keeps S) ?_
        refine (Device.lockCalibre_keeps S) ?_
        refine (Device.loadCalibre_keeps S) ?_
        exact hx2
      refine keeps_ite ?_ ?_
      · refine (Device.log_keeps S) ?_
        exact S.congr hx6 rfl rfl rfl
      · refine (Device.bootSlot_keeps S) ?_
        exact hx6

theorem Device.examineB_keeps {P : Device → Prop} (S : Stable P) {d} (hc : P d) : P (Device.examineB d) := by
  delta Device.examineB
  refine keeps_ite ?_ ?_
  · refine (Device.selectCalibre_keeps S) ?_
    refine S.congr (d := d) ?_ rfl rfl rfl
    assumption
  · extract_lets -merge -useContext -underBinder +onlyGivenNames k0
    refine keeps_ite ?_ ?_
    · refine (Device.selectCalibre_keeps S) ?_
      refine S.congr (d := d) ?_ rfl rfl rfl
      assumption
    · refine S.congr (d := d) ?_ rfl rfl rfl
      assumption

theorem Device.examineA_keeps {P : Device → Prop} (S : Stable P) {d} (hc : P d) : P (Device.examineA d) := by
  delta Device.examineA
  refine keeps_ite ?_ ?_
  · refine (Device.examineB_keeps S) ?_
    refine S.congr (d := d) ?_ rfl rfl rfl
    assumption
  · extract_lets -merge -useContext -underBinder +onlyGivenNames k0
    refine keeps_ite ?_ ?_
    · refine (Device.examineB_keeps S) ?_
      refine S.congr (d := d) ?_ rfl rfl rfl
      assumption
    · refine S.congr (d := d) ?_ rfl rfl rfl
      assumption

theorem Device.takeResult_keeps {P : Device → Prop} (S : Stable P) {d f} (hc : P d) : P (Device.takeResult d f) := by
  delta Device.takeResult
  split
  · refine (Device.examineB_keeps S) ?_
    refine S.congr (d := d) ?_ rfl rfl rfl
    assumption
  · refine (Device.selectCalibre_keeps S) ?_
    refine S.congr (d := d) ?_ rfl rfl rfl
    assumption
  · assumption

theorem rootPllLockEff_keeps {P : Device → Prop} (S : Stable P) {obs d} (hc : P d) : P (rootPllLockEff obs d) := by
  delta rootPllLockEff
  refine keeps_ite ?_ ?_
  · refine (Device.examineA_keeps S) ?_
    refine S.congr (d := d) ?_ rfl rfl rfl
    assumption
  · assumption

theorem calibreVerdictEff_keeps {P : Device → Prop} (S : Stable P) {v d} (hc : P d) : P (calibreVerdictEff v d) := by
  delta calibreVerdictEff
  refine (Device.takeResult_keeps S) ?_
  assumption

theorem cbLockEff_keeps {P : Device → Prop} (S : Stable P) {who v d} (hc : P d) : P (cbLockEff who v d) := by
  delta cbLockEff
  refine keeps_ite ?_ ?_
  · refine (Device.emit_keeps S) ?_
    assumption
  · refine keeps_ite ?_ ?_
    · refine (Device.lockCalibre_keeps S) ?_
      assumption
    · assumption

theorem dramSectionsEff_keeps {P : Device → Prop} (S : Stable P) {d} (hc : P d) : P (dramSectionsEff d) := by
  delta dramSectionsEff
  refine keeps_ite ?_ ?_
  · refine (Device.wr_keeps S) ?_
    assumption
  · assumption

theorem pllLockLossEff_keeps {P : Device → Prop} (S : Stable P) {d} (hc : P d) : P (pllLockLossEff d) := by
  delta pllLockLossEff
  refine keeps_ite ?_ ?_
  · extract_lets -merge -useContext -underBinder +onlyGivenNames x0
    have hx0 : P x0 := by
      unfold x0
      refine (Device.spinOff_keeps S) ?_
      refine (Device.emergencyRetract_keeps S) ?_
      assumption
    exact S.congr hx0 rfl rfl rfl
  · assumption

theorem suppliesRemovedEff_keeps {P : Device → Prop} (S : MemStable P) {d} (hc : P d) : P (suppliesRemovedEff d) := by
  delta suppliesRemovedEff
  extract_lets -merge -useContext -underBinder +onlyGivenNames x0
  have hx0 : P x0 := by
    unfold x0
    refine (Device.deviceReset_keeps S) ?_
    assumption
  exact S.congr hx0 rfl rfl rfl

theorem execPowerOnReset_keeps {P : Device → Prop} (S : MemStable P) {straps s t} (hc : P s.dev) (he : execPowerOnReset straps s = .next t) :
    P t.dev := by
  unfold execPowerOnReset at he
  split at he
  · cases he
  · refine State.upd_keeps hc he ?_
    intro d hd
    have h2 : ∀ (x : Device) (c : Chron) (b : Boot), P x → P { x with chron := c, boot := b } :=
      fun x _ _ hx => S.congr (d := x) hx rfl rfl rfl
    have h3 : ∀ a : Aon, P { d with aon := a } := fun _ => S.congr (d := d) hd rfl rfl rfl
    exact h2 _ _ _ (Device.deviceReset_keeps S (h3 _))

theorem execResetNAssert_keeps {P : Device → Prop} (S : MemStable P) {straps s t} (hc : P s.dev) (he : execResetNAssert straps s = .next t) :
    P t.dev := by
  unfold execResetNAssert at he
  split at he
  · cases he
  · refine State.upd_keeps hc he ?_
    intro d hd
    exact S.congr (Device.deviceReset_keeps S hd) rfl rfl rfl

theorem execRootPllLock_keeps {P : Device → Prop} (S : Stable P) {a0 s t} (hc : P s.dev) (he : execRootPllLock a0 s = .next t) : P t.dev := by
  delta execRootPllLock at he
  refine State.upd_keeps hc he ?_
  intro d hd
  show P _
  refine (rootPllLockEff_keeps S) ?_
  assumption

theorem execOprokCalibreVerdict_keeps {P : Device → Prop} (S : Stable P) {a0 s t} (hc : P s.dev) (he : execOprokCalibreVerdict a0 s = .next t) : P t.dev := by
  delta execOprokCalibreVerdict at he
  refine State.upd_keeps hc he ?_
  intro d hd
  show P _
  refine (calibreVerdictEff_keeps S) ?_
  assumption

theorem execOprokVerdictTimeout_keeps {P : Device → Prop} (S : Stable P) {s t} (hc : P s.dev) (he : execOprokVerdictTimeout s = .next t) : P t.dev := by
  delta execOprokVerdictTimeout at he
  refine State.upd_keeps hc he ?_
  intro d hd
  show P _
  refine (Device.takeResult_keeps S) ?_
  assumption

theorem execCbCtrlLockWrite_keeps {P : Device → Prop} (S : Stable P) {a0 a1 s t} (hc : P s.dev) (he : execCbCtrlLockWrite a0 a1 s = .next t) : P t.dev := by
  delta execCbCtrlLockWrite at he
  refine State.upd_keeps hc he ?_
  intro d hd
  show P _
  refine (cbLockEff_keeps S) ?_
  assumption

theorem execDramSectionsLoaded_keeps {P : Device → Prop} (S : Stable P) {s t} (hc : P s.dev) (he : execDramSectionsLoaded s = .next t) : P t.dev := by
  delta execDramSectionsLoaded at he
  refine State.upd_keeps hc he ?_
  intro d hd
  show P _
  refine (dramSectionsEff_keeps S) ?_
  assumption

theorem execPllLockLoss_keeps {P : Device → Prop} (S : Stable P) {s t} (hc : P s.dev) (he : execPllLockLoss s = .next t) : P t.dev := by
  delta execPllLockLoss at he
  refine State.upd_keeps hc he ?_
  intro d hd
  show P _
  refine (pllLockLossEff_keeps S) ?_
  assumption

theorem execSuppliesRemoved_keeps {P : Device → Prop} (S : MemStable P) {s t} (hc : P s.dev) (he : execSuppliesRemoved s = .next t) : P t.dev := by
  delta execSuppliesRemoved at he
  refine State.upd_keeps hc he ?_
  intro d hd
  show P _
  refine (suppliesRemovedEff_keeps S) ?_
  assumption

end Sys2Proof.Machine
end

