-- ==== Sys2Proof/Laws/KeepCrown.lean ====
section
/-!
SUPPORT. Which of registers, memory and fuses each operation and each command of Machine/Crown.lean writes (Laws/Canon.lean).
-/
namespace Sys2Proof.Machine

theorem Device.sendBare_keeps {P : Device → Prop} (S : Stable P) {d kind seq} (hc : P d) : P (Device.sendBare d kind seq) := by
  delta Device.sendBare
  refine (Device.emit_keeps S) ?_
  assumption

theorem Device.pumpCrown_keeps {P : Device → Prop} (S : Stable P) {n d} (hc : P d) : P (Device.pumpCrown n d) := by
  induction n generalizing d with
  | zero => exact hc
  | succ n ih =>
    unfold Device.pumpCrown
    split
    · exact hc
    · split
      · exact hc
      · exact ih (Device.emit_keeps S (S.congr hc rfl rfl rfl))

theorem Device.sendFrame_keeps {P : Device → Prop} (S : Stable P) {d kind code payload} (hc : P d) : P (Device.sendFrame d kind code payload) := by
  delta Device.sendFrame
  refine (Device.pumpCrown_keeps S) ?_
  refine S.congr (d := d) ?_ rfl rfl rfl
  assumption

theorem Device.respond_keeps {P : Device → Prop} (S : Stable P) {d code status payload} (hc : P d) : P (Device.respond d code status payload) := by
  delta Device.respond
  refine (Device.sendFrame_keeps S) ?_
  assumption

theorem Device.dropSession_keeps {P : Device → Prop} (S : Stable P) {d} (hc : P d) : P (Device.dropSession d) := by
  delta Device.dropSession
  refine (Device.logRate_keeps S) ?_
  refine S.congr (d := d) ?_ rfl rfl rfl
  assumption

theorem Device.validFrame_keeps {P : Device → Prop} (S : Stable P) {d} (hc : P d) : P (Device.validFrame d) := by
  delta Device.validFrame
  refine S.congr (d := d) ?_ rfl rfl rfl
  assumption

theorem Device.takeAck_keeps {P : Device → Prop} (S : MemStable P) {d seq st} (hc : P d) : P (Device.takeAck d seq st) := by
  delta Device.takeAck
  refine keeps_ite ?_ ?_
  · assumption
  · extract_lets -merge -useContext -underBinder +onlyGivenNames k0
    extract_lets -merge -useContext -underBinder +onlyGivenNames k1
    extract_lets -merge -useContext -underBinder +onlyGivenNames k2
    extract_lets -merge -useContext -underBinder +onlyGivenNames k3
    extract_lets -merge -useContext -underBinder +onlyGivenNames x4i0 x4
    have hx4 : P x4 := by
      unfold x4
      refine S.congr (d := d) ?_ rfl rfl rfl
      assumption
    extract_lets -merge -useContext -underBinder +onlyGivenNames x5
    have hx5 : P x5 := by
      unfold x5
      generalize k2 = z6
      split
      · exact hx4
      · refine (Device.log_keeps S.toStable) ?_
        exact S.congr hx4 rfl rfl rfl
    refine keeps_ite ?_ ?_
    · refine (Device.deviceReset_keeps S) ?_
      exact hx5
    · refine (Device.pumpCrown_keeps S.toStable) ?_
      exact hx5

theorem Device.retransmit_keeps {P : Device → Prop} (S : Stable P) {d seq} (hc : P d) : P (Device.retransmit d seq) := by
  delta Device.retransmit
  extract_lets -merge -useContext -underBinder +onlyGivenNames k0
  refine keeps_ite ?_ ?_
  · assumption
  · refine keeps_ite ?_ ?_
    · refine (Device.dropSession_keeps S) ?_
      assumption
    · extract_lets -merge -useContext -underBinder +onlyGivenNames k1
      extract_lets -merge -useContext -underBinder +onlyGivenNames x2i0 x2
      have hx2 : P x2 := by
        unfold x2
        refine S.congr (d := d) ?_ rfl rfl rfl
        assumption
      refine keeps_foldl ?_ ?_
      · intro d' x' hd'
        show P _
        refine (Device.emit_keeps S) ?_
        assumption
      · exact hx2

theorem crownFrameEff_keeps {P : Device → Prop} (S : MemStable P) {bytes stopOk d} (hc : P d) : P (crownFrameEff bytes stopOk d) := by
  delta crownFrameEff
  refine keeps_ite ?_ ?_
  · assumption
  · split
    · refine keeps_ite ?_ ?_
      · assumption
      · refine (Device.sendBare_keeps S.toStable) ?_
        assumption
    · extract_lets -merge -useContext -underBinder +onlyGivenNames x0
      have hx0 : P x0 := by
        unfold x0
        refine (Device.validFrame_keeps S.toStable) ?_
        assumption
      refine keeps_ite ?_ ?_
      · refine (Device.takeAck_keeps S) ?_
        exact hx0
      · refine keeps_ite ?_ ?_
        · refine (Device.retransmit_keeps S.toStable) ?_
          exact hx0
        · refine keeps_ite ?_ ?_
          · refine (Device.sendBare_keeps S.toStable) ?_
            exact S.congr hx0 rfl rfl rfl
          · refine keeps_ite ?_ ?_
            · exact hx0
            · refine keeps_ite ?_ ?_
              · extract_lets -merge -useContext -underBinder +onlyGivenNames x1i0 x1
                have hx1 : P x1 := by
                  unfold x1
                  refine (Device.sendBare_keeps S.toStable) ?_
                  exact S.congr hx0 rfl rfl rfl
                refine keeps_ite ?_ ?_
                · refine (Device.respond_keeps S.toStable) ?_
                  exact hx1
                · exact hx1
              · refine keeps_ite ?_ ?_
                · refine (Device.sendBare_keeps S.toStable) ?_
                  exact hx0
                · refine (Device.sendBare_keeps S.toStable) ?_
                  exact hx0

theorem crownInterbyteEff_keeps {P : Device → Prop} (S : Stable P) {d} (hc : P d) : P (crownInterbyteEff d) := by
  delta crownInterbyteEff
  refine keeps_ite ?_ ?_
  · refine S.congr (d := d) ?_ rfl rfl rfl
    assumption
  · refine (Device.sendBare_keeps S) ?_
    refine S.congr (d := d) ?_ rfl rfl rfl
    assumption

theorem crownRetransmitEff_keeps {P : Device → Prop} (S : Stable P) {d} (hc : P d) : P (crownRetransmitEff d) := by
  delta crownRetransmitEff
  split
  · assumption
  · refine (Device.retransmit_keeps S) ?_
    assumption

theorem baudRevertEff_keeps {P : Device → Prop} (S : Stable P) {d} (hc : P d) : P (baudRevertEff d) := by
  delta baudRevertEff
  refine keeps_ite ?_ ?_
  · refine (Device.log_keeps S) ?_
    refine S.congr (d := d) ?_ rfl rfl rfl
    assumption
  · assumption

theorem crownWakeEff_keeps {P : Device → Prop} (S : Stable P) {d} (hc : P d) : P (crownWakeEff d) := by
  delta crownWakeEff
  refine keeps_ite ?_ ?_
  · refine S.congr (d := d) ?_ rfl rfl rfl
    assumption
  · assumption

theorem Device.servedNR_keeps {P : Device → Prop} (S : Stable P) {d f} (hc0 : P d) (hc1 : P f) : P (Device.servedNR d f) := by
  delta Device.servedNR
  refine keeps_ite ?_ ?_
  · assumption
  · assumption

theorem Device.servedN_keeps {P : Device → Prop} (S : Stable P) {d code f} (hc0 : P d) (hc1 : P f) : P (Device.servedN d code f) := by
  delta Device.servedN
  refine keeps_ite ?_ ?_
  · assumption
  · refine keeps_ite ?_ ?_
    · assumption
    · refine (Device.respond_keeps S) ?_
      assumption

theorem solindHelloEff_keeps {P : Device → Prop} (S : Stable P) {d} (hc : P d) : P (solindHelloEff d) := by
  delta solindHelloEff
  refine (Device.servedNR_keeps S) ?_ ?_
  · assumption
  · refine (Device.respond_keeps S) ?_
    refine S.congr (d := d) ?_ rfl rfl rfl
    assumption

theorem solindSetBaudEff_keeps {P : Device → Prop} (S : Stable P) {rate d} (hc : P d) : P (solindSetBaudEff rate d) := by
  delta solindSetBaudEff
  refine (Device.servedNR_keeps S) ?_ ?_
  · assumption
  · split
    · refine (Device.respond_keeps S) ?_
      assumption
    · refine (Device.respond_keeps S) ?_
      refine S.congr (d := d) ?_ rfl rfl rfl
      assumption

theorem Device.setAnchor_keeps {P : Device → Prop} (S : Stable P) {d ms} (hc : P d) : P (Device.setAnchor d ms) := by
  delta Device.setAnchor
  refine (Device.log_keeps S) ?_
  refine S.congr (d := d) ?_ rfl rfl rfl
  assumption

theorem solindLogReadEff_keeps {P : Device → Prop} (S : Stable P) {first count d} (hc : P d) : P (solindLogReadEff first count d) := by
  delta solindLogReadEff
  refine (Device.servedNR_keeps S) ?_ ?_
  · assumption
  · refine keeps_ite ?_ ?_
    · refine (Device.respond_keeps S) ?_
      assumption
    · extract_lets -merge -useContext -underBinder +onlyGivenNames k0
      refine (Device.respond_keeps S) ?_
      assumption

theorem execCrownFrameReceive_keeps {P : Device → Prop} (S : MemStable P) {a0 a1 s t} (hc : P s.dev) (he : execCrownFrameReceive a0 a1 s = .next t) : P t.dev := by
  delta execCrownFrameReceive at he
  refine State.upd_keeps hc he ?_
  intro d hd
  show P _
  refine (crownFrameEff_keeps S) ?_
  assumption

theorem execCrownInterbyteTimeout_keeps {P : Device → Prop} (S : Stable P) {s t} (hc : P s.dev) (he : execCrownInterbyteTimeout s = .next t) : P t.dev := by
  delta execCrownInterbyteTimeout at he
  refine State.upd_keeps hc he ?_
  intro d hd
  show P _
  refine (crownInterbyteEff_keeps S) ?_
  assumption

theorem execCrownAckReceive_keeps {P : Device → Prop} (S : MemStable P) {a0 a1 s t} (hc : P s.dev) (he : execCrownAckReceive a0 a1 s = .next t) : P t.dev := by
  delta execCrownAckReceive at he
  refine State.upd_keeps hc he ?_
  intro d hd
  show P _
  refine keeps_ite ?_ ?_
  · refine (Device.takeAck_keeps S) ?_
    refine (Device.validFrame_keeps S.toStable) ?_
    assumption
  · assumption

theorem execCrownNakReceive_keeps {P : Device → Prop} (S : Stable P) {a0 s t} (hc : P s.dev) (he : execCrownNakReceive a0 s = .next t) : P t.dev := by
  delta execCrownNakReceive at he
  refine State.upd_keeps hc he ?_
  intro d hd
  show P _
  refine keeps_ite ?_ ?_
  · refine (Device.retransmit_keeps S) ?_
    refine (Device.validFrame_keeps S) ?_
    assumption
  · assumption

theorem execCrownRetransmitTimeout_keeps {P : Device → Prop} (S : Stable P) {s t} (hc : P s.dev) (he : execCrownRetransmitTimeout s = .next t) : P t.dev := by
  delta execCrownRetransmitTimeout at he
  refine State.upd_keeps hc he ?_
  intro d hd
  show P _
  refine (crownRetransmitEff_keeps S) ?_
  assumption

theorem execBaudRevertTimeout_keeps {P : Device → Prop} (S : Stable P) {s t} (hc : P s.dev) (he : execBaudRevertTimeout s = .next t) : P t.dev := by
  delta execBaudRevertTimeout at he
  refine State.upd_keeps hc he ?_
  intro d hd
  show P _
  refine (baudRevertEff_keeps S) ?_
  assumption

theorem execCrownWakeTimeout_keeps {P : Device → Prop} (S : Stable P) {s t} (hc : P s.dev) (he : execCrownWakeTimeout s = .next t) : P t.dev := by
  delta execCrownWakeTimeout at he
  refine State.upd_keeps hc he ?_
  intro d hd
  show P _
  refine (crownWakeEff_keeps S) ?_
  assumption

theorem execSolindHello_keeps {P : Device → Prop} (S : Stable P) {s t} (hc : P s.dev) (he : execSolindHello s = .next t) : P t.dev := by
  delta execSolindHello at he
  refine State.upd_keeps hc he ?_
  intro d hd
  show P _
  refine (solindHelloEff_keeps S) ?_
  assumption

theorem execSolindSetBaud_keeps {P : Device → Prop} (S : Stable P) {a0 s t} (hc : P s.dev) (he : execSolindSetBaud a0 s = .next t) : P t.dev := by
  delta execSolindSetBaud at he
  refine State.upd_keeps hc he ?_
  intro d hd
  show P _
  refine (solindSetBaudEff_keeps S) ?_
  assumption

theorem execSolindSetTime_keeps {P : Device → Prop} (S : Stable P) {a0 s t} (hc : P s.dev) (he : execSolindSetTime a0 s = .next t) : P t.dev := by
  delta execSolindSetTime at he
  refine State.upd_keeps hc he ?_
  intro d hd
  show P _
  refine (Device.servedN_keeps S) ?_ ?_
  · assumption
  · refine (Device.respond_keeps S) ?_
    refine (Device.setAnchor_keeps S) ?_
    assumption

theorem execSolindStatus_keeps {P : Device → Prop} (S : Stable P) {s t} (hc : P s.dev) (he : execSolindStatus s = .next t) : P t.dev := by
  delta execSolindStatus at he
  refine State.upd_keeps hc he ?_
  intro d hd
  show P _
  refine (Device.servedNR_keeps S) ?_ ?_
  · assumption
  · refine (Device.respond_keeps S) ?_
    assumption

theorem execSolindLogRead_keeps {P : Device → Prop} (S : Stable P) {a0 a1 s t} (hc : P s.dev) (he : execSolindLogRead a0 a1 s = .next t) : P t.dev := by
  delta execSolindLogRead at he
  refine State.upd_keeps hc he ?_
  intro d hd
  show P _
  refine (solindLogReadEff_keeps S) ?_
  assumption

theorem execSolindReset_keeps {P : Device → Prop} (S : Stable P) {s t} (hc : P s.dev) (he : execSolindReset s = .next t) : P t.dev := by
  delta execSolindReset at he
  refine State.upd_keeps hc he ?_
  intro d hd
  show P _
  refine (Device.servedNR_keeps S) ?_ ?_
  · assumption
  · refine (Device.respond_keeps S) ?_
    refine S.congr (d := d) ?_ rfl rfl rfl
    assumption

end Sys2Proof.Machine
end

