-- ==== Sys2Proof/Laws/KeepChannelOps.lean ====
section
/-!
SUPPORT. Which of registers, memory and fuses each operation and each command of Machine/ChannelOps.lean writes (Laws/Canon.lean).
-/
namespace Sys2Proof.Machine

theorem Device.updSlot_keeps {P : Device → Prop} (S : Stable P) {d l key f} (hc : P d) : P (Device.updSlot d l key f) := by
  delta Device.updSlot
  refine (Device.updCh_keeps S) ?_
  assumption

theorem Device.dropSlot_keeps {P : Device → Prop} (S : Stable P) {d l key} (hc : P d) : P (Device.dropSlot d l key) := by
  delta Device.dropSlot
  refine (Device.updCh_keeps S) ?_
  assumption

theorem Device.chCount_keeps {P : Device → Prop} (S : Stable P) {d l off n} (hc : P d) : P (Device.chCount d l off n) := by
  delta Device.chCount
  refine (Device.updCh_keeps S) ?_
  assumption

theorem Device.dxCount_keeps {P : Device → Prop} (S : Stable P) {d off} (hc : P d) : P (Device.dxCount d off) := by
  delta Device.dxCount
  refine (Device.updElk_keeps S) ?_
  assumption

theorem Device.startDecode_keeps {P : Device → Prop} (S : Stable P) {d l} (hc : P d) : P (Device.startDecode d l) := by
  delta Device.startDecode
  extract_lets -merge -useContext -underBinder +onlyGivenNames k0
  split
  · refine keeps_ite ?_ ?_
    · refine (Device.updCh_keeps S) ?_
      assumption
    · refine keeps_ite ?_ ?_
      · refine (Device.updCh_keeps S) ?_
        assumption
      · assumption
  · split
    · assumption
    · extract_lets -merge -useContext -underBinder +onlyGivenNames k1
      refine keeps_ite ?_ ?_
      · refine (Device.updCh_keeps S) ?_
        assumption
      · refine keeps_ite ?_ ?_
        · refine (Device.updCh_keeps S) ?_
          assumption
        · assumption

theorem Device.startDecoders_keeps {P : Device → Prop} (S : Stable P) {d l} (hc : P d) : P (Device.startDecoders d l) := by
  delta Device.startDecoders
  refine (Device.startDecode_keeps S) ?_
  refine (Device.startDecode_keeps S) ?_
  assumption

theorem Device.rplStatus_keeps {P : Device → Prop} (S : Stable P) {d l att code p} (hc : P d) : P (Device.rplStatus d l att code p) := by
  delta Device.rplStatus
  refine (Device.wrI_keeps S) ?_
  refine (Device.wr_keeps S) ?_
  refine (Device.wr_keeps S) ?_
  assumption

theorem Device.sectorFailed_keeps {P : Device → Prop} (S : Stable P) {d l s} (hc : P d) : P (Device.sectorFailed d l s) := by
  delta Device.sectorFailed
  extract_lets -merge -useContext -underBinder +onlyGivenNames x0
  have hx0 : P x0 := by
    unfold x0
    refine (Device.wr_keeps S) ?_
    refine (Device.chCount_keeps S) ?_
    refine (Device.rplStatus_keeps S) ?_
    assumption
  refine (Device.log_keeps S) ?_
  exact hx0

theorem Device.stopEvent_keeps {P : Device → Prop} (S : Stable P) {d l} (hc : P d) : P (Device.stopEvent d l) := by
  delta Device.stopEvent
  refine keeps_ite ?_ ?_
  · refine (Device.log_keeps S) ?_
    refine (Device.updCh_keeps S) ?_
    assumption
  · assumption

theorem Device.toStep6_keeps {P : Device → Prop} (S : Stable P) {d l s} (hc : P d) : P (Device.toStep6 d l s) := by
  delta Device.toStep6
  extract_lets -merge -useContext -underBinder +onlyGivenNames k0
  extract_lets -merge -useContext -underBinder +onlyGivenNames k1
  extract_lets -merge -useContext -underBinder +onlyGivenNames k2
  extract_lets -merge -useContext -underBinder +onlyGivenNames k3
  extract_lets -merge -useContext -underBinder +onlyGivenNames k4
  extract_lets -merge -useContext -underBinder +onlyGivenNames x5
  have hx5 : P x5 := by
    unfold x5
    refine (Device.updCh_keeps S) ?_
    refine (Device.dropSlot_keeps S) ?_
    assumption
  extract_lets -merge -useContext -underBinder +onlyGivenNames x6
  have hx6 : P x6 := by
    unfold x6
    refine keeps_ite ?_ ?_
    · refine (Device.chCount_keeps S) ?_
      exact hx5
    · exact hx5
  extract_lets -merge -useContext -underBinder +onlyGivenNames x7
  have hx7 : P x7 := by
    unfold x7
    refine keeps_ite ?_ ?_
    · refine (Device.incSat_keeps S) ?_
      exact hx6
    · exact hx6
  extract_lets -merge -useContext -underBinder +onlyGivenNames x8
  have hx8 : P x8 := by
    unfold x8
    refine keeps_ite ?_ ?_
    · refine (Device.stopEvent_keeps S) ?_
      refine (Device.sectorFailed_keeps S) ?_
      exact hx7
    · refine keeps_ite ?_ ?_
      · refine (Device.sectorFailed_keeps S) ?_
        exact hx7
      · refine (Device.updCh_keeps S) ?_
        exact hx7
  refine (Device.report_keeps S) ?_
  exact hx8

theorem Device.takeStandby_keeps {P : Device → Prop} (S : Stable P) {d l s} (hc : P d) : P (Device.takeStandby d l s) := by
  delta Device.takeStandby
  extract_lets -merge -useContext -underBinder +onlyGivenNames k0
  refine keeps_ite ?_ ?_
  · assumption
  · split
    · assumption
    · refine (Device.updCh_keeps S) ?_
      refine (Device.setStandby_keeps S) ?_
      assumption

theorem Device.takeDecoded_keeps {P : Device → Prop} (S : Stable P) {d band slot} (hc : P d) : P (Device.takeDecoded d band slot) := by
  delta Device.takeDecoded
  refine keeps_foldl ?_ ?_
  · intro d' x' hd'
    show P _
    extract_lets -merge -useContext -underBinder +onlyGivenNames k0
    refine (Device.releasePages_keeps S) ?_
    refine (Device.updCh_keeps S) ?_
    assumption
  · assumption

theorem Device.sectorGood_keeps {P : Device → Prop} (S : Stable P) {d l s iter} (hc : P d) : P (Device.sectorGood d l s iter) := by
  delta Device.sectorGood
  extract_lets -merge -useContext -underBinder +onlyGivenNames k0
  extract_lets -merge -useContext -underBinder +onlyGivenNames k1
  extract_lets -merge -useContext -underBinder +onlyGivenNames x2
  have hx2 : P x2 := by
    unfold x2
    refine (Device.rplStatus_keeps S) ?_
    assumption
  extract_lets -merge -useContext -underBinder +onlyGivenNames x3
  have hx3 : P x3 := by
    unfold x3
    refine keeps_ite ?_ ?_
    · refine (Device.updCh_keeps S) ?_
      refine (Device.chCount_keeps S) ?_
      exact hx2
    · refine (Device.chCount_keeps S) ?_
      exact hx2
  extract_lets -merge -useContext -underBinder +onlyGivenNames x4
  have hx4 : P x4 := by
    unfold x4
    refine keeps_ite ?_ ?_
    · refine (Device.chCount_keeps S) ?_
      exact hx3
    · exact hx3
  extract_lets -merge -useContext -underBinder +onlyGivenNames x5
  have hx5 : P x5 := by
    unfold x5
    refine keeps_ite ?_ ?_
    · refine (Device.chCount_keeps S) ?_
      exact hx4
    · exact hx4
  refine (Device.report_keeps S) ?_
  refine (Device.takeStandby_keeps S) ?_
  refine (Device.dropSlot_keeps S) ?_
  exact hx5

theorem Device.applyChEntry_keeps {P : Device → Prop} (S : Stable P) {d l v h z} (hc : P d) : P (Device.applyChEntry d l v h z) := by
  delta Device.applyChEntry
  extract_lets -merge -useContext -underBinder +onlyGivenNames k0
  extract_lets -merge -useContext -underBinder +onlyGivenNames x1
  have hx1 : P x1 := by
    unfold x1
    refine (Device.wrAll_keeps S) ?_
    assumption
  extract_lets -merge -useContext -underBinder +onlyGivenNames x2
  have hx2 : P x2 := by
    unfold x2
    refine (Device.wrAll_keeps S) ?_
    exact hx1
  extract_lets -merge -useContext -underBinder +onlyGivenNames x3
  have hx3 : P x3 := by
    unfold x3
    refine keeps_foldl ?_ ?_
    · intro d' x' hd'
      show P _
      refine (Device.wr_keeps S) ?_
      assumption
    · exact hx2
  extract_lets -merge -useContext -underBinder +onlyGivenNames k4
  refine (Device.updCh_keeps S) ?_
  exact hx3

theorem Device.rejectLoad_keeps {P : Device → Prop} (S : Stable P) {d l h z reason} (hc : P d) : P (Device.rejectLoad d l h z reason) := by
  delta Device.rejectLoad
  refine (Device.log_keeps S) ?_
  refine (Device.wrAll_keeps S) ?_
  assumption

theorem Device.addCounts_keeps {P : Device → Prop} (S : MemStable P) {d l addr cnt fail} (hc : P d) : P (Device.addCounts d l addr cnt fail) := by
  delta Device.addCounts
  refine keeps_ite ?_ ?_
  · assumption
  · refine keeps_ite ?_ ?_
    · refine (Device.log_keeps S.toStable) ?_
      refine (Device.wr_keeps S.toStable) ?_
      assumption
    · refine keeps_foldl ?_ ?_
      · intro d' x' hd'
        show P _
        refine (Device.setNum_keeps S) ?_
        assumption
      · assumption

theorem Device.flushCounts_keeps {P : Device → Prop} (S : MemStable P) {d l fail} (hc : P d) : P (Device.flushCounts d l fail) := by
  delta Device.flushCounts
  extract_lets -merge -useContext -underBinder +onlyGivenNames k0
  extract_lets -merge -useContext -underBinder +onlyGivenNames x1
  have hx1 : P x1 := by
    unfold x1
    refine (Device.updCh_keeps S.toStable) ?_
    refine (Device.addCounts_keeps S) ?_
    assumption
  refine keeps_ite ?_ ?_
  · refine (Device.updElk_keeps S.toStable) ?_
    refine (Device.addCounts_keeps S) ?_
    exact hx1
  · exact hx1

theorem Device.setChReg_keeps {P : Device → Prop} (S : Stable P) {d l a w} (hc : P d) : P (Device.setChReg d l a w) := by
  delta Device.setChReg
  extract_lets -merge -useContext -underBinder +onlyGivenNames k0
  extract_lets -merge -useContext -underBinder +onlyGivenNames x1
  have hx1 : P x1 := by
    unfold x1
    refine S.setWord _ _ ?_
    assumption
  refine keeps_ite ?_ ?_
  · refine (Device.log_keeps S) ?_
    exact hx1
  · exact hx1

end Sys2Proof.Machine
end

