-- ==== Sys2Proof/Laws/KeepFetch.lean ====
section
/-!
SUPPORT. Which of registers, memory and fuses each operation and each command of Machine/Fetch.lean writes (Laws/Canon.lean).
-/
namespace Sys2Proof.Machine

theorem Device.tookEntry_keeps {P : Device → Prop} (S : Stable P) {d q left} (hc : P d) : P (Device.tookEntry d q left) := by
  delta Device.tookEntry
  refine (Device.updHost_keeps S) ?_
  assumption

theorem Device.makeEntries_keeps {P : Device → Prop} (S : Stable P) {d c} (hc : P d) : P (Device.makeEntries d c) := by
  delta Device.makeEntries
  split
  · assumption
  · extract_lets -merge -useContext -underBinder +onlyGivenNames k0
    refine (Device.updHost_keeps S) ?_
    refine (Device.updCmd_keeps S) ?_
    assumption

theorem Device.checkLimit_keeps {P : Device → Prop} (S : Stable P) {d} (hc : P d) : P (Device.checkLimit d) := by
  delta Device.checkLimit
  refine keeps_ite ?_ ?_
  · refine (Device.wr_keeps S) ?_
    assumption
  · assumption

theorem Device.takeIn_keeps {P : Device → Prop} (S : Stable P) {d c x} (hc : P d) : P (Device.takeIn d c x) := by
  delta Device.takeIn
  extract_lets -merge -useContext -underBinder +onlyGivenNames x0
  have hx0 : P x0 := by
    unfold x0
    refine (Device.updHost_keeps S) ?_
    assumption
  extract_lets -merge -useContext -underBinder +onlyGivenNames x1
  have hx1 : P x1 := by
    unfold x1
    refine keeps_ite ?_ ?_
    · refine (Device.logRate_keeps S) ?_
      refine (Device.wr_keeps S) ?_
      exact hx0
    · refine (Device.makeEntries_keeps S) ?_
      exact hx0
  refine (Device.checkLimit_keeps S) ?_
  exact hx1

theorem Device.deliver_keeps {P : Device → Prop} (S : Stable P) {d nsid stamp} (hc : P d) : P (Device.deliver d nsid stamp) := by
  delta Device.deliver
  extract_lets -merge -useContext -underBinder +onlyGivenNames x0i0 x0
  have hx0 : P x0 := by
    unfold x0
    refine S.congr (d := d) ?_ rfl rfl rfl
    assumption
  refine (Device.log_keeps S) ?_
  refine (Device.updNs_keeps S) ?_
  exact hx0

theorem Device.enterCmd_keeps {P : Device → Prop} (S : Stable P) {d c x} (hc : P d) : P (Device.enterCmd d c x) := by
  delta Device.enterCmd
  extract_lets -merge -useContext -underBinder +onlyGivenNames k0
  split
  · refine (Device.finish_keeps S) ?_
    assumption
  · refine keeps_ite ?_ ?_
    · refine (Device.finish_keeps S) ?_
      refine (Device.updHost_keeps S) ?_
      assumption
    · refine keeps_ite ?_ ?_
      · refine (Device.finish_keeps S) ?_
        refine (Device.deliver_keeps S) ?_
        assumption
      · split
        · refine (Device.finish_keeps S) ?_
          assumption
        · refine keeps_ite ?_ ?_
          · refine (Device.finish_keeps S) ?_
            assumption
          · refine keeps_ite ?_ ?_
            · refine (Device.finish_keeps S) ?_
              assumption
            · split
              · refine keeps_ite ?_ ?_
                · refine (Device.takeIn_keeps S) ?_
                  assumption
                · split
                  · refine (Device.finish_keeps S) ?_
                    assumption
                  · refine (Device.takeIn_keeps S) ?_
                    refine (Device.updZone_keeps S) ?_
                    assumption
              · refine keeps_ite ?_ ?_
                · refine (Device.takeIn_keeps S) ?_
                  assumption
                · split
                  · refine (Device.finish_keeps S) ?_
                    assumption
                  · refine (Device.takeIn_keeps S) ?_
                    refine (Device.updZone_keeps S) ?_
                    assumption
              · split
                · refine (Device.finish_keeps S) ?_
                  assumption
                · refine (Device.takeIn_keeps S) ?_
                  refine (Device.updZone_keeps S) ?_
                  assumption
              · split
                · refine (Device.finish_keeps S) ?_
                  assumption
                · extract_lets -merge -useContext -underBinder +onlyGivenNames x1
                  have hx1 : P x1 := by
                    unfold x1
                    refine keeps_foldl ?_ ?_
                    · intro d' x' hd'
                      show P _
                      refine (Device.updZone_keeps S) ?_
                      assumption
                    · assumption
                  refine (Device.takeIn_keeps S) ?_
                  exact hx1
              · extract_lets -merge -useContext -underBinder +onlyGivenNames k2
                refine (Device.takeIn_keeps S) ?_
                assumption
              · refine keeps_ite ?_ ?_
                · split
                  · refine (Device.takeIn_keeps S) ?_
                    refine (Device.updNs_keeps S) ?_
                    assumption
                · refine (Device.takeIn_keeps S) ?_
                  assumption

theorem Device.fetchIo_keeps {P : Device → Prop} (S : Stable P) {d id nsid op} (hc : P d) : P (Device.fetchIo d id nsid op) := by
  delta Device.fetchIo
  extract_lets -merge -useContext -underBinder +onlyGivenNames k0
  refine keeps_ite ?_ ?_
  · refine (Device.checkLimit_keeps S) ?_
    refine (Device.updHost_keeps S) ?_
    assumption
  · split
    · refine (Device.finish_keeps S) ?_
      assumption
    · extract_lets -merge -useContext -underBinder +onlyGivenNames k1
      extract_lets -merge -useContext -underBinder +onlyGivenNames x2
      have hx2 : P x2 := by
        unfold x2
        refine (Device.updHost_keeps S) ?_
        assumption
      refine (Device.enterCmd_keeps S) ?_
      exact hx2

theorem Device.fetchAdmin_keeps {P : Device → Prop} (S : Stable P) {d id opcode} (hc : P d) : P (Device.fetchAdmin d id opcode) := by
  delta Device.fetchAdmin
  refine keeps_ite ?_ ?_
  · refine (Device.post_keeps S) ?_
    assumption
  · refine keeps_ite ?_ ?_
    · refine (Device.post_keeps S) ?_
      assumption
    · refine keeps_ite ?_ ?_
      · refine (Device.post_keeps S) ?_
        assumption
      · refine keeps_ite ?_ ?_
        · refine (Device.post_keeps S) ?_
          assumption
        · refine (Device.updCtrl_keeps S) ?_
          assumption

theorem doorbellEff_keeps {P : Device → Prop} (S : Stable P) {c q tail d} (hc : P d) : P (doorbellEff c q tail d) := by
  delta doorbellEff
  refine keeps_ite ?_ ?_
  · assumption
  · split
    · assumption
    · refine keeps_ite ?_ ?_
      · assumption
      · extract_lets -merge -useContext -underBinder +onlyGivenNames x0
        have hx0 : P x0 := by
          unfold x0
          refine (Device.updHost_keeps S) ?_
          assumption
        refine keeps_ite ?_ ?_
        · exact hx0
        · refine (Device.updCtrl_keeps S) ?_
          exact hx0

theorem fetchResumeEff_keeps {P : Device → Prop} (S : Stable P) {d} (hc : P d) : P (fetchResumeEff d) := by
  delta fetchResumeEff
  extract_lets -merge -useContext -underBinder +onlyGivenNames x0
  have hx0 : P x0 := by
    unfold x0
    split
    · refine (Device.wr_keeps S) ?_
      assumption
    · split
      · assumption
      · refine keeps_ite ?_ ?_
        · assumption
        · refine (Device.wr_keeps S) ?_
          refine (Device.makeEntries_keeps S) ?_
          assumption
  refine keeps_ite ?_ ?_
  · refine (Device.wr_keeps S) ?_
    exact hx0
  · exact hx0

theorem execSqTailDoorbell_keeps {P : Device → Prop} (S : Stable P) {a0 a1 a2 s t} (hc : P s.dev) (he : execSqTailDoorbell a0 a1 a2 s = .next t) : P t.dev := by
  delta execSqTailDoorbell at he
  refine State.upd_keeps hc he ?_
  intro d hd
  show P _
  refine (doorbellEff_keeps S) ?_
  assumption

theorem execFetchResume_keeps {P : Device → Prop} (S : Stable P) {s t} (hc : P s.dev) (he : execFetchResume s = .next t) : P t.dev := by
  delta execFetchResume at he
  refine State.upd_keeps hc he ?_
  intro d hd
  show P _
  refine (fetchResumeEff_keeps S) ?_
  assumption

end Sys2Proof.Machine
end

