-- ==== Sys2Proof/Laws/KeepIo.lean ====
section
/-!
SUPPORT. Which of registers, memory and fuses each operation and each command of Machine/Io.lean writes (Laws/Canon.lean).
-/
namespace Sys2Proof.Machine

theorem Device.sendBlk_keeps {P : Device → Prop} (S : Stable P) {d c x i b} (hc : P d) : P (Device.sendBlk d c x i b) := by
  delta Device.sendBlk
  split
  · refine (Device.updCmd_keeps S) ?_
    assumption
  · extract_lets -merge -useContext -underBinder +onlyGivenNames x0
    have hx0 : P x0 := by
      unfold x0
      refine (Device.updCmd_keeps S) ?_
      assumption
    split
    · refine (Device.emit_keeps S) ?_
      exact hx0
    · exact hx0

theorem Device.takeBlk_keeps {P : Device → Prop} (S : Stable P) {d c x i} (hc : P d) : P (Device.takeBlk d c x i) := by
  delta Device.takeBlk
  split
  · assumption
  · refine keeps_ite ?_ ?_
    · assumption
    · split
      · refine (Device.sendBlk_keeps S) ?_
        assumption
      · split
        · refine (Device.takeDecoded_keeps S) ?_
          refine (Device.sendBlk_keeps S) ?_
          assumption
        · refine (Device.updCmd_keeps S) ?_
          assumption
      · refine (Device.sendBlk_keeps S) ?_
        assumption
      · refine (Device.updCmd_keeps S) ?_
        assumption
      · assumption

theorem readEff_keeps {P : Device → Prop} (S : MemStable P) {isRead id ok d} (hc : P d) : P (readEff isRead id ok d) := by
  delta readEff
  split
  · assumption
  · extract_lets -merge -useContext -underBinder +onlyGivenNames k0
    refine keeps_ite ?_ ?_
    · assumption
    · split
      · assumption
      · extract_lets -merge -useContext -underBinder +onlyGivenNames x1
        have hx1 : P x1 := by
          unfold x1
          refine (Device.updCmd_keeps S.toStable) ?_
          assumption
        refine keeps_ite ?_ ?_
        · refine (Device.settle_keeps S) ?_
          refine (Device.updCmd_keeps S.toStable) ?_
          exact hx1
        · refine (Device.settle_keeps S) ?_
          refine keeps_foldl ?_ ?_
          · intro d' x' hd'
            show P _
            refine (Device.takeBlk_keeps S.toStable) ?_
            assumption
          · exact hx1

theorem Device.scheduleIn_keeps {P : Device → Prop} (S : Stable P) {d no b} (hc : P d) : P (Device.scheduleIn d no b) := by
  delta Device.scheduleIn
  split
  · exact hc
  · rename_i c _
    have key : ∀ (l : List Nat) (p : Device × Bool), P p.1 →
        P (l.foldl (fun (p : Device × Bool) k =>
          match c.units[k]? with
          | none => p
          | some u =>
            if u.band.isSome || u.ended || !p.2 then p
            else if p.1.fits b u.n then (p.1.updUnit no k fun u => { u with band := some b }, true)
            else (p.1, false)) p).1 := by
      intro l
      induction l with
      | nil => intro p hp; exact hp
      | cons x l ih =>
        intro p hp
        refine ih _ ?_
        dsimp only
        split
        · exact hp
        · split
          · exact hp
          · split
            · exact Device.updUnit_keeps S hp
            · exact hp
    exact key _ _ hc

theorem Device.closeWhenDone_keeps {P : Device → Prop} (S : Stable P) {d b} (hc : P d) : P (Device.closeWhenDone d b) := by
  delta Device.closeWhenDone
  extract_lets -merge -useContext -underBinder +onlyGivenNames x0
  have hx0 : P x0 := by
    unfold x0
    refine (Device.updTables_keeps S) ?_
    assumption
  refine keeps_ite ?_ ?_
  · exact hx0
  · refine (Device.closeBand_keeps S) ?_
    exact hx0

theorem Device.schedulePool_keeps {P : Device → Prop} (S : Stable P) {d no pl} (hc : P d) : P (Device.schedulePool d no pl) := by
  delta Device.schedulePool
  extract_lets -merge -useContext -underBinder +onlyGivenNames x0
  have hx0 : P x0 := by
    unfold x0
    split
    · assumption
    · extract_lets -merge -useContext -underBinder +onlyGivenNames x1
      have hx1 : P x1 := by
        unfold x1
        refine (Device.scheduleIn_keeps S) ?_
        assumption
      refine keeps_ite ?_ ?_
      · refine (Device.closeWhenDone_keeps S) ?_
        exact hx1
      · exact hx1
  refine keeps_ite ?_ ?_
  · exact hx0
  · refine (Device.scheduleIn_keeps S) ?_
    refine (Device.openBand_keeps S) ?_
    exact hx0

theorem Device.autoFinish_keeps {P : Device → Prop} (S : Stable P) {d c z k} (hc : P d) : P (Device.autoFinish d c z k) := by
  delta Device.autoFinish
  extract_lets -merge -useContext -underBinder +onlyGivenNames k0
  extract_lets -merge -useContext -underBinder +onlyGivenNames x1
  have hx1 : P x1 := by
    unfold x1
    refine (Device.updZone_keeps S) ?_
    assumption
  extract_lets -merge -useContext -underBinder +onlyGivenNames x2
  have hx2 : P x2 := by
    unfold x2
    refine (Device.log_keeps S) ?_
    exact hx1
  extract_lets -merge -useContext -underBinder +onlyGivenNames x3
  have hx3 : P x3 := by
    unfold x3
    refine (Device.failFrom_keeps S) ?_
    exact hx2
  extract_lets -merge -useContext -underBinder +onlyGivenNames x4
  have hx4 : P x4 := by
    unfold x4
    refine keeps_foldl ?_ ?_
    · intro d' x' hd'
      show P _
      refine (Device.notExecuted_keeps S) ?_
      assumption
    · exact hx3
  split
  · exact hx4
  · refine (Device.closeWhenDone_keeps S) ?_
    exact hx4

theorem Device.scheduleZone_keeps {P : Device → Prop} (S : Stable P) {d c z pl} (hc : P d) : P (Device.scheduleZone d c z pl) := by
  delta Device.scheduleZone
  extract_lets -merge -useContext -underBinder +onlyGivenNames x0
  have hx0 : P x0 := by
    unfold x0
    refine keeps_ite ?_ ?_
    · refine (Device.openBand_keeps S) ?_
      assumption
    · assumption
  split
  · exact hx0
  · extract_lets -merge -useContext -underBinder +onlyGivenNames k1
    extract_lets -merge -useContext -underBinder +onlyGivenNames x2
    have hx2 : P x2 := by
      unfold x2
      refine (Device.updZone_keeps S) ?_
      exact hx0
    extract_lets -merge -useContext -underBinder +onlyGivenNames k3
    extract_lets -merge -useContext -underBinder +onlyGivenNames x4
    have hx4 : P x4 := by
      unfold x4
      generalize k3 = z5
      split
      · refine (Device.autoFinish_keeps S) ?_
        exact hx2
      · exact hx2
    extract_lets -merge -useContext -underBinder +onlyGivenNames x6
    have hx6 : P x6 := by
      unfold x6
      refine (Device.scheduleIn_keeps S) ?_
      exact hx4
    split
    · exact hx6
    · refine (Device.autoFinish_keeps S) ?_
      exact hx6

theorem Device.scheduleWrite_keeps {P : Device → Prop} (S : MemStable P) {d c pl} (hc : P d) : P (Device.scheduleWrite d c pl) := by
  delta Device.scheduleWrite
  refine keeps_ite ?_ ?_
  · assumption
  · split
    · refine keeps_ite ?_ ?_
      · refine (Device.logRate_keeps S.toStable) ?_
        assumption
      · refine keeps_ite ?_ ?_
        · assumption
        · refine (Device.settle_keeps S) ?_
          refine (Device.schedulePool_keeps S.toStable) ?_
          refine (Device.updCmd_keeps S.toStable) ?_
          assumption
    · refine keeps_ite ?_ ?_
      · assumption
      · refine (Device.settle_keeps S) ?_
        refine (Device.scheduleZone_keeps S.toStable) ?_
        refine (Device.updCmd_keeps S.toStable) ?_
        assumption

theorem writeEff_keeps {P : Device → Prop} (S : MemStable P) {id pl d} (hc : P d) : P (writeEff id pl d) := by
  delta writeEff
  split
  · assumption
  · split
    · refine (Device.scheduleWrite_keeps S) ?_
      assumption
    · assumption

theorem zoneAppendEff_keeps {P : Device → Prop} (S : MemStable P) {id pl d} (hc : P d) : P (zoneAppendEff id pl d) := by
  delta zoneAppendEff
  split
  · assumption
  · split
    · refine (Device.scheduleWrite_keeps S) ?_
      assumption
    · assumption

theorem Device.zeroRanges_keeps {P : Device → Prop} (S : Stable P) {d c rs} (hc : P d) : P (Device.zeroRanges d c rs) := by
  delta Device.zeroRanges
  refine keeps_ite ?_ ?_
  · assumption
  · extract_lets -merge -useContext -underBinder +onlyGivenNames x0
    have hx0 : P x0 := by
      unfold x0
      refine keeps_foldl ?_ ?_
      · intro d' x' hd'
        show P _
        split
        rename_i v' d' heq'
        have hd' : P d' := by
          show P (v', d').2
          rw [← heq']
          refine (Device.takeSeq_keeps S) ?_
          assumption
        refine (Device.queueRec_keeps S) ?_
        assumption
      · assumption
    refine (Device.flushJournal_keeps S) ?_
    refine (Device.updCmd_keeps S) ?_
    exact hx0

theorem writeZeroesEff_keeps {P : Device → Prop} (S : MemStable P) {id pl d} (hc : P d) : P (writeZeroesEff id pl d) := by
  delta writeZeroesEff
  split
  · assumption
  · split
    · refine keeps_ite ?_ ?_
      · refine (Device.scheduleWrite_keeps S) ?_
        assumption
      · refine keeps_ite ?_ ?_
        · refine (Device.zeroRanges_keeps S.toStable) ?_
          assumption
        · assumption
    · assumption

theorem datasetEff_keeps {P : Device → Prop} (S : Stable P) {id d} (hc : P d) : P (datasetEff id d) := by
  delta datasetEff
  split
  · assumption
  · split
    · refine keeps_ite ?_ ?_
      · refine (Device.zeroRanges_keeps S) ?_
        assumption
      · assumption
    · assumption

theorem flushEff_keeps {P : Device → Prop} (S : Stable P) {id d} (hc : P d) : P (flushEff id d) := by
  delta flushEff
  split
  · assumption
  · split
    · refine keeps_ite ?_ ?_
      · refine (Device.flushJournal_keeps S) ?_
        refine (Device.updCmd_keeps S) ?_
        assumption
      · assumption
    · assumption

theorem flushCompleteEff_keeps {P : Device → Prop} (S : MemStable P) {id d} (hc : P d) : P (flushCompleteEff id d) := by
  delta flushCompleteEff
  split
  · assumption
  · split
    · refine keeps_ite ?_ ?_
      · refine (Device.endCmd_keeps S) ?_
        assumption
      · assumption
    · assumption

theorem zoneReceiveEff_keeps {P : Device → Prop} (S : Stable P) {id d} (hc : P d) : P (zoneReceiveEff id d) := by
  delta zoneReceiveEff
  split
  · assumption
  · split
    · refine keeps_ite ?_ ?_
      · refine (Device.updCmd_keeps S) ?_
        assumption
      · assumption
    · assumption

theorem zoneReportEff_keeps {P : Device → Prop} (S : MemStable P) {id d} (hc : P d) : P (zoneReportEff id d) := by
  delta zoneReportEff
  split
  · assumption
  · split
    · refine keeps_ite ?_ ?_
      · assumption
      · extract_lets -merge -useContext -underBinder +onlyGivenNames k0
        extract_lets -merge -useContext -underBinder +onlyGivenNames k1
        refine (Device.endCmd_keeps S) ?_
        refine (Device.emit_keeps S.toStable) ?_
        assumption
    · assumption

theorem Device.sendPlain_keeps {P : Device → Prop} (S : MemStable P) {d c st} (hc : P d) : P (Device.sendPlain d c st) := by
  delta Device.sendPlain
  refine (Device.endCmd_keeps S) ?_
  refine keeps_foldl ?_ ?_
  · intro d' x' hd'
    show P _
    refine (Device.updZone_keeps S.toStable) ?_
    assumption
  · assumption

theorem Device.sendRecord_keeps {P : Device → Prop} (S : Stable P) {d c act z} (hc : P d) : P (Device.sendRecord d c act z) := by
  delta Device.sendRecord
  extract_lets -merge -useContext -underBinder +onlyGivenNames k0
  extract_lets -merge -useContext -underBinder +onlyGivenNames x1
  have hx1 : P x1 := by
    unfold x1
    split
    · refine (Device.closeBand_keeps S) ?_
      assumption
    · assumption
  extract_lets -merge -useContext -underBinder +onlyGivenNames k2
  split
  rename_i v' d' heq'
  have hd' : P d' := by
    show P (v', d').2
    rw [← heq']
    refine (Device.takeSeq_keeps S) ?_
    exact hx1
  refine (Device.queueRec_keeps S) ?_
  assumption

theorem zoneSendEff_keeps {P : Device → Prop} (S : MemStable P) {act id d} (hc : P d) : P (zoneSendEff act id d) := by
  delta zoneSendEff
  split
  · assumption
  · split
    · refine keeps_ite ?_ ?_
      · assumption
      · refine keeps_ite ?_ ?_
        · assumption
        · split
          · refine (Device.settle_keeps S) ?_
            refine (Device.sendPlain_keeps S) ?_
            assumption
          · refine (Device.settle_keeps S) ?_
            refine (Device.sendPlain_keeps S) ?_
            assumption
          · refine keeps_ite ?_ ?_
            · refine (Device.settle_keeps S) ?_
              refine (Device.endCmd_keeps S) ?_
              assumption
            · extract_lets -merge -useContext -underBinder +onlyGivenNames x0
              have hx0 : P x0 := by
                unfold x0
                refine keeps_foldl ?_ ?_
                · intro d' x' hd'
                  show P _
                  refine (Device.sendRecord_keeps S.toStable) ?_
                  assumption
                · assumption
              refine (Device.flushJournal_keeps S.toStable) ?_
              refine (Device.updCmd_keeps S.toStable) ?_
              exact hx0
    · assumption

theorem reservationEff_keeps {P : Device → Prop} (S : MemStable P) {right id d} (hc : P d) : P (reservationEff right id d) := by
  delta reservationEff
  split
  · assumption
  · refine keeps_ite ?_ ?_
    · assumption
    · extract_lets -merge -useContext -underBinder +onlyGivenNames x0
      have hx0 : P x0 := by
        unfold x0
        split
        · refine (Device.emit_keeps S.toStable) ?_
          assumption
        · assumption
      refine (Device.endCmd_keeps S) ?_
      exact hx0

theorem execRead_keeps {P : Device → Prop} (S : MemStable P) {a0 a1 s t} (hc : P s.dev) (he : execRead a0 a1 s = .next t) : P t.dev := by
  delta execRead at he
  refine State.upd_keeps hc he ?_
  intro d hd
  show P _
  refine (readEff_keeps S) ?_
  assumption

theorem execVerify_keeps {P : Device → Prop} (S : MemStable P) {a0 a1 s t} (hc : P s.dev) (he : execVerify a0 a1 s = .next t) : P t.dev := by
  delta execVerify at he
  refine State.upd_keeps hc he ?_
  intro d hd
  show P _
  refine (readEff_keeps S) ?_
  assumption

theorem execWrite_keeps {P : Device → Prop} (S : MemStable P) {a0 a1 s t} (hc : P s.dev) (he : execWrite a0 a1 s = .next t) : P t.dev := by
  delta execWrite at he
  refine State.upd_keeps hc he ?_
  intro d hd
  show P _
  refine (writeEff_keeps S) ?_
  assumption

theorem execZoneAppend_keeps {P : Device → Prop} (S : MemStable P) {a0 a1 s t} (hc : P s.dev) (he : execZoneAppend a0 a1 s = .next t) : P t.dev := by
  delta execZoneAppend at he
  refine State.upd_keeps hc he ?_
  intro d hd
  show P _
  refine (zoneAppendEff_keeps S) ?_
  assumption

theorem execWriteZeroes_keeps {P : Device → Prop} (S : MemStable P) {a0 a1 s t} (hc : P s.dev) (he : execWriteZeroes a0 a1 s = .next t) : P t.dev := by
  delta execWriteZeroes at he
  refine State.upd_keeps hc he ?_
  intro d hd
  show P _
  refine (writeZeroesEff_keeps S) ?_
  assumption

theorem execDatasetManagement_keeps {P : Device → Prop} (S : Stable P) {a0 s t} (hc : P s.dev) (he : execDatasetManagement a0 s = .next t) : P t.dev := by
  delta execDatasetManagement at he
  refine State.upd_keeps hc he ?_
  intro d hd
  show P _
  refine (datasetEff_keeps S) ?_
  assumption

theorem execFlush_keeps {P : Device → Prop} (S : Stable P) {a0 s t} (hc : P s.dev) (he : execFlush a0 s = .next t) : P t.dev := by
  delta execFlush at he
  refine State.upd_keeps hc he ?_
  intro d hd
  show P _
  refine (flushEff_keeps S) ?_
  assumption

theorem execFlushComplete_keeps {P : Device → Prop} (S : MemStable P) {a0 s t} (hc : P s.dev) (he : execFlushComplete a0 s = .next t) : P t.dev := by
  delta execFlushComplete at he
  refine State.upd_keeps hc he ?_
  intro d hd
  show P _
  refine (flushCompleteEff_keeps S) ?_
  assumption

theorem execZoneMgmtReceive_keeps {P : Device → Prop} (S : Stable P) {a0 s t} (hc : P s.dev) (he : execZoneMgmtReceive a0 s = .next t) : P t.dev := by
  delta execZoneMgmtReceive at he
  refine State.upd_keeps hc he ?_
  intro d hd
  show P _
  refine (zoneReceiveEff_keeps S) ?_
  assumption

theorem execZoneReportReady_keeps {P : Device → Prop} (S : MemStable P) {a0 s t} (hc : P s.dev) (he : execZoneReportReady a0 s = .next t) : P t.dev := by
  delta execZoneReportReady at he
  refine State.upd_keeps hc he ?_
  intro d hd
  show P _
  refine (zoneReportEff_keeps S) ?_
  assumption

theorem execZoneClose_keeps {P : Device → Prop} (S : MemStable P) {a0 s t} (hc : P s.dev) (he : execZoneClose a0 s = .next t) : P t.dev := by
  delta execZoneClose at he
  refine State.upd_keeps hc he ?_
  intro d hd
  show P _
  refine (zoneSendEff_keeps S) ?_
  assumption

theorem execZoneFinish_keeps {P : Device → Prop} (S : MemStable P) {a0 s t} (hc : P s.dev) (he : execZoneFinish a0 s = .next t) : P t.dev := by
  delta execZoneFinish at he
  refine State.upd_keeps hc he ?_
  intro d hd
  show P _
  refine (zoneSendEff_keeps S) ?_
  assumption

theorem execZoneOpen_keeps {P : Device → Prop} (S : MemStable P) {a0 s t} (hc : P s.dev) (he : execZoneOpen a0 s = .next t) : P t.dev := by
  delta execZoneOpen at he
  refine State.upd_keeps hc he ?_
  intro d hd
  show P _
  refine (zoneSendEff_keeps S) ?_
  assumption

theorem execZoneReset_keeps {P : Device → Prop} (S : MemStable P) {a0 s t} (hc : P s.dev) (he : execZoneReset a0 s = .next t) : P t.dev := by
  delta execZoneReset at he
  refine State.upd_keeps hc he ?_
  intro d hd
  show P _
  refine (zoneSendEff_keeps S) ?_
  assumption

theorem execZoneOffline_keeps {P : Device → Prop} (S : MemStable P) {a0 s t} (hc : P s.dev) (he : execZoneOffline a0 s = .next t) : P t.dev := by
  delta execZoneOffline at he
  refine State.upd_keeps hc he ?_
  intro d hd
  show P _
  refine (zoneSendEff_keeps S) ?_
  assumption

theorem execReservationRegister_keeps {P : Device → Prop} (S : MemStable P) {a0 s t} (hc : P s.dev) (he : execReservationRegister a0 s = .next t) : P t.dev := by
  delta execReservationRegister at he
  refine State.upd_keeps hc he ?_
  intro d hd
  show P _
  refine (reservationEff_keeps S) ?_
  assumption

theorem execReservationReport_keeps {P : Device → Prop} (S : MemStable P) {a0 s t} (hc : P s.dev) (he : execReservationReport a0 s = .next t) : P t.dev := by
  delta execReservationReport at he
  refine State.upd_keeps hc he ?_
  intro d hd
  show P _
  refine (reservationEff_keeps S) ?_
  assumption

theorem execReservationAcquire_keeps {P : Device → Prop} (S : MemStable P) {a0 s t} (hc : P s.dev) (he : execReservationAcquire a0 s = .next t) : P t.dev := by
  delta execReservationAcquire at he
  refine State.upd_keeps hc he ?_
  intro d hd
  show P _
  refine (reservationEff_keeps S) ?_
  assumption

theorem execReservationRelease_keeps {P : Device → Prop} (S : MemStable P) {a0 s t} (hc : P s.dev) (he : execReservationRelease a0 s = .next t) : P t.dev := by
  delta execReservationRelease at he
  refine State.upd_keeps hc he ?_
  intro d hd
  show P _
  refine (reservationEff_keeps S) ?_
  assumption

end Sys2Proof.Machine
end

