-- ==== Sys2Proof/Laws/KeepDataPath.lean ====
section
/-!
SUPPORT. Which of registers, memory and fuses each operation and each command of Machine/DataPath.lean writes (Laws/Canon.lean).
-/
namespace Sys2Proof.Machine

theorem pullPointEff_keeps {P : Device → Prop} (S : MemStable P) {id k resv d} (hc : P d) : P (pullPointEff id k resv d) := by
  delta pullPointEff
  split
  · assumption
  · split
    · assumption
    · refine keeps_ite ?_ ?_
      · assumption
      · split
        rename_i v' d' heq'
        have hd' : P d' := by
          show P (v', d').2
          rw [← heq']
          refine (Device.allocPages_keeps S.toStable) ?_
          assumption
        refine keeps_ite ?_ ?_
        · assumption
        · extract_lets -merge -useContext -underBinder +onlyGivenNames k0
          extract_lets -merge -useContext -underBinder +onlyGivenNames x1
          have hx1 : P x1 := by
            unfold x1
            refine (Device.updUnit_keeps S.toStable) ?_
            assumption
          refine keeps_ite ?_ ?_
          · exact hx1
          · extract_lets -merge -useContext -underBinder +onlyGivenNames k2
            refine keeps_foldl ?_ ?_
            · intro d' x' hd'
              show P _
              refine (Device.writePage_keeps S) ?_
              assumption
            · exact hx1

theorem pullCompleteEff_keeps {P : Device → Prop} (S : MemStable P) {id k data d} (hc : P d) : P (pullCompleteEff id k data d) := by
  delta pullCompleteEff
  split
  · assumption
  · split
    · refine keeps_ite ?_ ?_
      · assumption
      · split
        · refine (Device.settle_keeps S) ?_
          refine (Device.failFrom_keeps S.toStable) ?_
          assumption
        · extract_lets -merge -useContext -underBinder +onlyGivenNames k0
          extract_lets -merge -useContext -underBinder +onlyGivenNames x1
          have hx1 : P x1 := by
            unfold x1
            refine keeps_foldl ?_ ?_
            · intro d' x' hd'
              show P _
              extract_lets -merge -useContext -underBinder +onlyGivenNames k2
              refine (Device.writePage_keeps S) ?_
              assumption
            · assumption
          refine (Device.updUnit_keeps S.toStable) ?_
          exact hx1
    · assumption

theorem Device.pullFailed_keeps {P : Device → Prop} (S : MemStable P) {d id k} (hc : P d) : P (Device.pullFailed d id k) := by
  delta Device.pullFailed
  split
  · assumption
  · split
    · assumption
    · refine keeps_ite ?_ ?_
      · refine (Device.settle_keeps S) ?_
        refine (Device.failFrom_keeps S.toStable) ?_
        assumption
      · assumption

theorem pullMissedEff_keeps {P : Device → Prop} (S : Stable P) {a0 a1 d} (hc : P d) : P (pullMissedEff a0 a1 d) := by
  delta pullMissedEff
  assumption

theorem forwardCopyEff_keeps {P : Device → Prop} (S : MemStable P) {id wid k d} (hc : P d) : P (forwardCopyEff id wid k d) := by
  delta forwardCopyEff
  split
  · split
    · assumption
    · refine keeps_ite ?_ ?_
      · assumption
      · refine keeps_foldl ?_ ?_
        · intro d' x' hd'
          show P _
          split
          · assumption
          · refine keeps_ite ?_ ?_
            · assumption
            · split
              · assumption
              · refine (Device.setPins_keeps S) ?_
                refine (Device.updCmd_keeps S.toStable) ?_
                assumption
        · assumption
  · assumption

theorem pageUnpinEff_keeps {P : Device → Prop} (S : MemStable P) {id page d} (hc : P d) : P (pageUnpinEff id page d) := by
  delta pageUnpinEff
  split
  · assumption
  · split
    · assumption
    · extract_lets -merge -useContext -underBinder +onlyGivenNames k0
      refine keeps_ite ?_ ?_
      · assumption
      · extract_lets -merge -useContext -underBinder +onlyGivenNames k1
        extract_lets -merge -useContext -underBinder +onlyGivenNames k2
        extract_lets -merge -useContext -underBinder +onlyGivenNames x3
        have hx3 : P x3 := by
          unfold x3
          refine keeps_foldl ?_ ?_
          · intro d' x' hd'
            show P _
            extract_lets -merge -useContext -underBinder +onlyGivenNames x4
            have hx4 : P x4 := by
              unfold x4
              refine (Device.updCmd_keeps S.toStable) ?_
              assumption
            extract_lets -merge -useContext -underBinder +onlyGivenNames x5
            have hx5 : P x5 := by
              unfold x5
              refine keeps_ite ?_ ?_
              · refine (Device.sendBlk_keeps S.toStable) ?_
                exact hx4
              · exact hx4
            refine (Device.unpin_keeps S) ?_
            exact hx5
          · assumption
        extract_lets -merge -useContext -underBinder +onlyGivenNames x6
        have hx6 : P x6 := by
          unfold x6
          refine keeps_ite ?_ ?_
          · exact hx3
          · refine (Device.updCmd_keeps S.toStable) ?_
            refine (Device.log_keeps S.toStable) ?_
            refine (Device.notePageCheck_keeps S.toStable) ?_
            exact hx3
        refine (Device.settle_keeps S) ?_
        exact hx6

theorem forwardRereadEff_keeps {P : Device → Prop} (S : MemStable P) {id d} (hc : P d) : P (forwardRereadEff id d) := by
  delta forwardRereadEff
  split
  · assumption
  · split
    · assumption
    · extract_lets -merge -useContext -underBinder +onlyGivenNames k0
      extract_lets -merge -useContext -underBinder +onlyGivenNames x1
      have hx1 : P x1 := by
        unfold x1
        refine keeps_foldl ?_ ?_
        · intro d' x' hd'
          show P _
          refine (Device.updCmd_keeps S.toStable) ?_
          assumption
        · assumption
      refine (Device.settle_keeps S) ?_
      refine keeps_foldl ?_ ?_
      · intro d' x' hd'
        show P _
        split
        · assumption
        · refine (Device.takeBlk_keeps S.toStable) ?_
          assumption
      · exact hx1

theorem Device.beginUnit_keeps {P : Device → Prop} (S : Stable P) {d r} (hc : P d) : P (Device.beginUnit d r) := by
  delta Device.beginUnit
  split
  · assumption
  · extract_lets -merge -useContext -underBinder +onlyGivenNames k0
    extract_lets -merge -useContext -underBinder +onlyGivenNames k1
    split
    rename_i v' d' heq'
    have hd' : P d' := by
      show P (v', d').2
      rw [← heq']
      refine (Device.takeSeq_keeps S) ?_
      assumption
    extract_lets -merge -useContext -underBinder +onlyGivenNames k2
    refine (Device.updBandUnits_keeps S) ?_
    refine (Device.updUnit_keeps S) ?_
    assumption

theorem Device.sectorWritten_keeps {P : Device → Prop} (S : Stable P) {d r} (hc : P d) : P (Device.sectorWritten d r) := by
  delta Device.sectorWritten
  split
  · assumption
  · refine keeps_ite ?_ ?_
    · assumption
    · extract_lets -merge -useContext -underBinder +onlyGivenNames k0
      refine (Device.updBandUnits_keeps S) ?_
      assumption

theorem Device.unitFault_keeps {P : Device → Prop} (S : MemStable P) {d r st} (hc : P d) : P (Device.unitFault d r st) := by
  delta Device.unitFault
  split
  · assumption
  · refine (Device.settle_keeps S) ?_
    refine (Device.failFrom_keeps S.toStable) ?_
    assumption

theorem Device.closeIfFull_keeps {P : Device → Prop} (S : Stable P) {d nsid z b} (hc : P d) : P (Device.closeIfFull d nsid z b) := by
  delta Device.closeIfFull
  split
  · assumption
  · refine keeps_ite ?_ ?_
    · assumption
    · refine keeps_ite ?_ ?_
      · refine (Device.closeWhenDone_keeps S) ?_
        assumption
      · refine keeps_ite ?_ ?_
        · refine (Device.closeBand_keeps S) ?_
          assumption
        · assumption

theorem Device.fragCheck_keeps {P : Device → Prop} (S : Stable P) {d} (hc : P d) : P (Device.fragCheck d) := by
  delta Device.fragCheck
  refine keeps_ite ?_ ?_
  · refine (Device.log_keeps S) ?_
    refine (Device.updHost_keeps S) ?_
    assumption
  · refine keeps_ite ?_ ?_
    · refine (Device.updHost_keeps S) ?_
      assumption
    · assumption

theorem unitDurableEff_keeps {P : Device → Prop} (S : MemStable P) {id k d} (hc : P d) : P (unitDurableEff id k d) := by
  delta unitDurableEff
  split
  · assumption
  · extract_lets -merge -useContext -underBinder +onlyGivenNames k0
    extract_lets -merge -useContext -underBinder +onlyGivenNames k1
    refine keeps_ite ?_ ?_
    · assumption
    · refine (Device.journalFull_keeps S.toStable) ?_
      refine (Device.settle_keeps S) ?_
      refine (Device.fragCheck_keeps S.toStable) ?_
      refine (Device.closeIfFull_keeps S.toStable) ?_
      refine (Device.unitNew_keeps S.toStable) ?_
      assumption

theorem execPullPoint_keeps {P : Device → Prop} (S : MemStable P) {a0 a1 a2 s t} (hc : P s.dev) (he : execPullPoint a0 a1 a2 s = .next t) : P t.dev := by
  delta execPullPoint at he
  refine State.upd_keeps hc he ?_
  intro d hd
  show P _
  refine (pullPointEff_keeps S) ?_
  assumption

theorem execPullComplete_keeps {P : Device → Prop} (S : MemStable P) {a0 a1 a2 s t} (hc : P s.dev) (he : execPullComplete a0 a1 a2 s = .next t) : P t.dev := by
  delta execPullComplete at he
  refine State.upd_keeps hc he ?_
  intro d hd
  show P _
  refine (pullCompleteEff_keeps S) ?_
  assumption

theorem execPullMissed_keeps {P : Device → Prop} (S : Stable P) {a0 a1 s t} (hc : P s.dev) (he : execPullMissed a0 a1 s = .next t) : P t.dev := by
  delta execPullMissed at he
  refine State.upd_keeps hc he ?_
  intro d hd
  show P _
  refine (pullMissedEff_keeps S) ?_
  assumption

theorem execForwardCopy_keeps {P : Device → Prop} (S : MemStable P) {a0 a1 a2 s t} (hc : P s.dev) (he : execForwardCopy a0 a1 a2 s = .next t) : P t.dev := by
  delta execForwardCopy at he
  refine State.upd_keeps hc he ?_
  intro d hd
  show P _
  refine (forwardCopyEff_keeps S) ?_
  assumption

theorem execPageUnpin_keeps {P : Device → Prop} (S : MemStable P) {a0 a1 s t} (hc : P s.dev) (he : execPageUnpin a0 a1 s = .next t) : P t.dev := by
  delta execPageUnpin at he
  refine State.upd_keeps hc he ?_
  intro d hd
  show P _
  refine (pageUnpinEff_keeps S) ?_
  assumption

theorem execForwardReread_keeps {P : Device → Prop} (S : MemStable P) {a0 s t} (hc : P s.dev) (he : execForwardReread a0 s = .next t) : P t.dev := by
  delta execForwardReread at he
  refine State.upd_keeps hc he ?_
  intro d hd
  show P _
  refine (forwardRereadEff_keeps S) ?_
  assumption

theorem execUnitDurable_keeps {P : Device → Prop} (S : MemStable P) {a0 a1 s t} (hc : P s.dev) (he : execUnitDurable a0 a1 s = .next t) : P t.dev := by
  delta execUnitDurable at he
  refine State.upd_keeps hc he ?_
  intro d hd
  show P _
  refine (unitDurableEff_keeps S) ?_
  assumption

end Sys2Proof.Machine
end

