-- ==== Sys2Proof/Laws/KeepStore.lean ====
section
/-!
SUPPORT. Which of registers, memory and fuses each operation and each command of Machine/Store.lean writes (Laws/Canon.lean).
-/
namespace Sys2Proof.Machine

theorem Device.recordDeferred_keeps {P : Device → Prop} (S : Stable P) {d nsid lba n l head} (hc : P d) : P (Device.recordDeferred d nsid lba n l head) := by
  delta Device.recordDeferred
  extract_lets -merge -useContext -underBinder +onlyGivenNames k0
  extract_lets -merge -useContext -underBinder +onlyGivenNames k1
  extract_lets -merge -useContext -underBinder +onlyGivenNames x2i0 x2
  have hx2 : P x2 := by
    unfold x2
    refine S.congr (d := d) ?_ rfl rfl rfl
    assumption
  extract_lets -merge -useContext -underBinder +onlyGivenNames x3
  have hx3 : P x3 := by
    unfold x3
    refine (Device.updNs_keeps S) ?_
    exact hx2
  extract_lets -merge -useContext -underBinder +onlyGivenNames k4
  refine keeps_ite ?_ ?_
  · exact hx3
  · refine (Device.postAen_keeps S) ?_
    refine (Device.updHost_keeps S) ?_
    exact hx3

theorem journalTimerEff_keeps {P : Device → Prop} (S : Stable P) {d} (hc : P d) : P (journalTimerEff d) := by
  delta journalTimerEff
  refine keeps_ite ?_ ?_
  · assumption
  · refine (Device.writeSector_keeps S) ?_
    assumption

theorem Device.commitRec_keeps {P : Device → Prop} (S : Stable P) {d r} (hc : P d) : P (Device.commitRec d r) := by
  delta Device.commitRec
  extract_lets -merge -useContext -underBinder +onlyGivenNames x0
  have hx0 : P x0 := by
    unfold x0
    refine (Device.updTables_keeps S) ?_
    assumption
  split
  · exact hx0
  · exact hx0
  · extract_lets -merge -useContext -underBinder +onlyGivenNames k1
    generalize k1 = z2
    split
    · refine (Device.giveUpBand_keeps S) ?_
      exact hx0
    · refine (Device.giveUpBand_keeps S) ?_
      exact hx0
    · exact hx0
  · split
    · exact hx0
    · refine (Device.recordDeferred_keeps S) ?_
      exact hx0
  · assumption

theorem journalCommittedEff_keeps {P : Device → Prop} (S : MemStable P) {d} (hc : P d) : P (journalCommittedEff d) := by
  delta journalCommittedEff
  split
  · assumption
  · extract_lets -merge -useContext -underBinder +onlyGivenNames x0i0 x0
    have hx0 : P x0 := by
      unfold x0
      refine S.congr (d := d) ?_ rfl rfl rfl
      assumption
    extract_lets -merge -useContext -underBinder +onlyGivenNames k1
    extract_lets -merge -useContext -underBinder +onlyGivenNames x2
    have hx2 : P x2 := by
      unfold x2
      refine (Device.updHost_keeps S.toStable) ?_
      exact hx0
    extract_lets -merge -useContext -underBinder +onlyGivenNames x3
    have hx3 : P x3 := by
      unfold x3
      refine keeps_foldl ?_ ?_
      · intro d' x' hd'
        refine (Device.commitRec_keeps S.toStable) ?_
        assumption
      · exact hx2
    extract_lets -merge -useContext -underBinder +onlyGivenNames k4
    extract_lets -merge -useContext -underBinder +onlyGivenNames x5
    have hx5 : P x5 := by
      unfold x5
      refine (Device.updHost_keeps S.toStable) ?_
      exact hx3
    refine (Device.settle_keeps S) ?_
    exact hx5

theorem checkpointStartEff_keeps {P : Device → Prop} (S : Stable P) {d} (hc : P d) : P (checkpointStartEff d) := by
  delta checkpointStartEff
  refine keeps_ite ?_ ?_
  · assumption
  · refine keeps_ite ?_ ?_
    · assumption
    · extract_lets -merge -useContext -underBinder +onlyGivenNames k0
      extract_lets -merge -useContext -underBinder +onlyGivenNames k1
      extract_lets -merge -useContext -underBinder +onlyGivenNames x2i0 x2i1 x2
      have hx2 : P x2 := by
        unfold x2
        refine S.congr (d := d) ?_ rfl rfl rfl
        assumption
      refine (Device.updHost_keeps S) ?_
      exact hx2

theorem checkpointCompleteEff_keeps {P : Device → Prop} (S : Stable P) {d} (hc : P d) : P (checkpointCompleteEff d) := by
  delta checkpointCompleteEff
  split
  · assumption
  · extract_lets -merge -useContext -underBinder +onlyGivenNames k0
    extract_lets -merge -useContext -underBinder +onlyGivenNames k1i0 k1i1 k1
    extract_lets -merge -useContext -underBinder +onlyGivenNames k2
    extract_lets -merge -useContext -underBinder +onlyGivenNames k3
    refine (Device.updHost_keeps S) ?_
    refine S.congr (d := d) ?_ rfl rfl rfl
    assumption

theorem Device.rebuildFail_keeps {P : Device → Prop} (S : Stable P) {d} (hc : P d) : P (Device.rebuildFail d) := by
  delta Device.rebuildFail
  extract_lets -merge -useContext -underBinder +onlyGivenNames x0
  have hx0 : P x0 := by
    unfold x0
    refine (Device.log_keeps S) ?_
    refine (Device.wr_keeps S) ?_
    assumption
  refine keeps_foldl ?_ ?_
  · intro d' x' hd'
    show P _
    refine (Device.updCtrl_keeps S) ?_
    assumption
  · exact hx0

theorem mapRebuildEff_keeps {P : Device → Prop} (S : Stable P) {o d} (hc : P d) : P (mapRebuildEff o d) := by
  delta mapRebuildEff
  refine keeps_ite ?_ ?_
  · assumption
  · extract_lets -merge -useContext -underBinder +onlyGivenNames k0
    extract_lets -merge -useContext -underBinder +onlyGivenNames k1
    extract_lets -merge -useContext -underBinder +onlyGivenNames k2
    extract_lets -merge -useContext -underBinder +onlyGivenNames x3
    have hx3 : P x3 := by
      unfold x3
      refine (Device.updHost_keeps S) ?_
      assumption
    split
    · refine (Device.rebuildFail_keeps S) ?_
      exact hx3
    · extract_lets -merge -useContext -underBinder +onlyGivenNames k4
      refine keeps_ite ?_ ?_
      · refine (Device.rebuildFail_keeps S) ?_
        exact hx3
      · extract_lets -merge -useContext -underBinder +onlyGivenNames k5
        extract_lets -merge -useContext -underBinder +onlyGivenNames k6
        split
        · extract_lets -merge -useContext -underBinder +onlyGivenNames x7
          have hx7 : P x7 := by
            unfold x7
            refine (Device.updHost_keeps S) ?_
            exact hx3
          extract_lets -merge -useContext -underBinder +onlyGivenNames x8
          have hx8 : P x8 := by
            unfold x8
            refine keeps_foldl ?_ ?_
            · intro d' x' hd'
              show P _
              extract_lets -merge -useContext -underBinder +onlyGivenNames k9
              refine (Device.updBandUnits_keeps S) ?_
              assumption
            · exact hx7
          refine keeps_foldl ?_ ?_
          · intro d' x' hd'
            show P _
            refine (Device.log_keeps S) ?_
            assumption
          · refine (Device.wr_keeps S) ?_
            exact hx8

theorem rebuildCompleteEff_keeps {P : Device → Prop} (S : Stable P) {d} (hc : P d) : P (rebuildCompleteEff d) := by
  delta rebuildCompleteEff
  refine keeps_ite ?_ ?_
  · assumption
  · extract_lets -merge -useContext -underBinder +onlyGivenNames x0
    have hx0 : P x0 := by
      unfold x0
      refine (Device.queueSeq_keeps S) ?_
      assumption
    refine (Device.log_keeps S) ?_
    refine (Device.wr_keeps S) ?_
    refine (Device.flushJournal_keeps S) ?_
    exact hx0

theorem chunkPageEff_keeps {P : Device → Prop} (S : Stable P) {nsid page d} (hc : P d) : P (chunkPageEff nsid page d) := by
  delta chunkPageEff
  split
  · assumption
  · refine keeps_ite ?_ ?_
    · assumption
    · extract_lets -merge -useContext -underBinder +onlyGivenNames k0
      refine (Device.updHost_keeps S) ?_
      assumption

theorem Device.relocate_keeps {P : Device → Prop} (S : Stable P) {d b x full i} (hc : P d) : P (Device.relocate d b x full i) := by
  delta Device.relocate
  refine keeps_ite ?_ ?_
  · refine keeps_ite ?_ ?_
    · refine (Device.updTables_keeps S) ?_
      assumption
    · assumption
  · extract_lets -merge -useContext -underBinder +onlyGivenNames x0
    have hx0 : P x0 := by
      unfold x0
      refine (Device.queueSeq_keeps S) ?_
      assumption
    exact S.congr hx0 rfl rfl rfl

theorem bandVerifyEff_keeps {P : Device → Prop} (S : Stable P) {b o d} (hc : P d) : P (bandVerifyEff b o d) := by
  delta bandVerifyEff
  split
  · assumption
  · extract_lets -merge -useContext -underBinder +onlyGivenNames k0
    refine keeps_ite ?_ ?_
    · assumption
    · extract_lets -merge -useContext -underBinder +onlyGivenNames k1
      extract_lets -merge -useContext -underBinder +onlyGivenNames k2
      extract_lets -merge -useContext -underBinder +onlyGivenNames k3
      extract_lets -merge -useContext -underBinder +onlyGivenNames k4
      extract_lets -merge -useContext -underBinder +onlyGivenNames k5
      extract_lets -merge -useContext -underBinder +onlyGivenNames k6
      extract_lets -merge -useContext -underBinder +onlyGivenNames x7i0 x7
      have hx7 : P x7 := by
        unfold x7
        refine S.congr (d := d) ?_ rfl rfl rfl
        assumption
      extract_lets -merge -useContext -underBinder +onlyGivenNames x8
      have hx8 : P x8 := by
        unfold x8
        refine keeps_ite ?_ ?_
        · refine (Device.log_keeps S) ?_
          exact hx7
        · exact hx7
      extract_lets -merge -useContext -underBinder +onlyGivenNames x9
      have hx9 : P x9 := by
        unfold x9
        refine keeps_foldl ?_ ?_
        · intro d' x' hd'
          show P _
          refine (Device.relocate_keeps S) ?_
          assumption
        · exact hx8
      extract_lets -merge -useContext -underBinder +onlyGivenNames x10
      have hx10 : P x10 := by
        unfold x10
        refine keeps_foldl ?_ ?_
        · intro d' x' hd'
          show P _
          refine (Device.queueSeq_keeps S) ?_
          assumption
        · exact hx9
      extract_lets -merge -useContext -underBinder +onlyGivenNames x11
      have hx11 : P x11 := by
        unfold x11
        refine (Device.queueSeq_keeps S) ?_
        exact hx10
      extract_lets -merge -useContext -underBinder +onlyGivenNames x12
      have hx12 : P x12 := by
        unfold x12
        refine (Device.updTables_keeps S) ?_
        exact hx11
      extract_lets -merge -useContext -underBinder +onlyGivenNames x13
      have hx13 : P x13 := by
        unfold x13
        refine (Device.updHost_keeps S) ?_
        exact hx12
      refine (Device.journalFull_keeps S) ?_
      refine (Device.log_keeps S) ?_
      exact hx13

theorem Device.gcFree_keeps {P : Device → Prop} (S : Stable P) {d b} (hc : P d) : P (Device.gcFree d b) := by
  delta Device.gcFree
  refine keeps_ite ?_ ?_
  · refine (Device.reclaimAll_keeps S) ?_
    refine (Device.flushJournal_keeps S) ?_
    refine (Device.giveUpBand_keeps S) ?_
    assumption
  · assumption

theorem gcMoveEff_keeps {P : Device → Prop} (S : Stable P) {l pl d} (hc : P d) : P (gcMoveEff l pl d) := by
  delta gcMoveEff
  split
  · assumption
  · split
    · refine (Device.gcFree_keeps S) ?_
      assumption
    · refine keeps_ite ?_ ?_
      · assumption
      · extract_lets -merge -useContext -underBinder +onlyGivenNames x0
        have hx0 : P x0 := by
          unfold x0
          split
          · refine keeps_ite ?_ ?_
            · refine (Device.openBand_keeps S) ?_
              assumption
            · assumption
          · refine keeps_ite ?_ ?_
            · assumption
            · extract_lets -merge -useContext -underBinder +onlyGivenNames x1
              have hx1 : P x1 := by
                unfold x1
                refine (Device.closeWhenDone_keeps S) ?_
                assumption
              refine keeps_ite ?_ ?_
              · refine (Device.openBand_keeps S) ?_
                exact hx1
              · exact hx1
        split
        · exact hx0
        · refine keeps_ite ?_ ?_
          · exact hx0
          · split
            rename_i v' d' heq'
            have hd' : P d' := by
              show P (v', d').2
              rw [← heq']
              refine (Device.takeSeq_keeps S) ?_
              exact hx0
            extract_lets -merge -useContext -underBinder +onlyGivenNames k2
            extract_lets -merge -useContext -underBinder +onlyGivenNames k3
            refine (Device.updHost_keeps S) ?_
            refine (Device.updBandUnits_keeps S) ?_
            assumption

theorem moveDurableEff_keeps {P : Device → Prop} (S : MemStable P) {p d} (hc : P d) : P (moveDurableEff p d) := by
  delta moveDurableEff
  split
  · assumption
  · extract_lets -merge -useContext -underBinder +onlyGivenNames x0
    have hx0 : P x0 := by
      unfold x0
      refine (Device.updBandUnits_keeps S.toStable) ?_
      assumption
    extract_lets -merge -useContext -underBinder +onlyGivenNames x1
    have hx1 : P x1 := by
      unfold x1
      refine (Device.updHost_keeps S.toStable) ?_
      exact hx0
    extract_lets -merge -useContext -underBinder +onlyGivenNames x2
    have hx2 : P x2 := by
      unfold x2
      refine (Device.updTables_keeps S.toStable) ?_
      exact hx1
    extract_lets -merge -useContext -underBinder +onlyGivenNames x3
    have hx3 : P x3 := by
      unfold x3
      refine (Device.queueRec_keeps S.toStable) ?_
      exact hx2
    split
    · extract_lets -merge -useContext -underBinder +onlyGivenNames x4
      have hx4 : P x4 := by
        unfold x4
        refine (Device.queueRec_keeps S.toStable) ?_
        exact hx3
      refine (Device.settle_keeps S) ?_
      refine (Device.fragCheck_keeps S.toStable) ?_
      refine (Device.gcFree_keeps S.toStable) ?_
      exact hx4

theorem storeSeqlEff_keeps {P : Device → Prop} (S : Stable P) {who d} (hc : P d) : P (storeSeqlEff who d) := by
  delta storeSeqlEff
  extract_lets -merge -useContext -underBinder +onlyGivenNames k0
  extract_lets -merge -useContext -underBinder +onlyGivenNames x1
  have hx1 : P x1 := by
    unfold x1
    refine (Device.updHost_keeps S) ?_
    assumption
  refine (Device.emit_keeps S) ?_
  exact hx1

theorem execJournalFlushTimer_keeps {P : Device → Prop} (S : Stable P) {s t} (hc : P s.dev) (he : execJournalFlushTimer s = .next t) : P t.dev := by
  delta execJournalFlushTimer at he
  refine State.upd_keeps hc he ?_
  intro d hd
  show P _
  refine (journalTimerEff_keeps S) ?_
  assumption

theorem execJournalSectorCommitted_keeps {P : Device → Prop} (S : MemStable P) {s t} (hc : P s.dev) (he : execJournalSectorCommitted s = .next t) : P t.dev := by
  delta execJournalSectorCommitted at he
  refine State.upd_keeps hc he ?_
  intro d hd
  show P _
  refine (journalCommittedEff_keeps S) ?_
  assumption

theorem execCheckpointStart_keeps {P : Device → Prop} (S : Stable P) {s t} (hc : P s.dev) (he : execCheckpointStart s = .next t) : P t.dev := by
  delta execCheckpointStart at he
  refine State.upd_keeps hc he ?_
  intro d hd
  show P _
  refine (checkpointStartEff_keeps S) ?_
  assumption

theorem execCheckpointComplete_keeps {P : Device → Prop} (S : Stable P) {s t} (hc : P s.dev) (he : execCheckpointComplete s = .next t) : P t.dev := by
  delta execCheckpointComplete at he
  refine State.upd_keeps hc he ?_
  intro d hd
  show P _
  refine (checkpointCompleteEff_keeps S) ?_
  assumption

theorem execMapRebuild_keeps {P : Device → Prop} (S : Stable P) {a0 s t} (hc : P s.dev) (he : execMapRebuild a0 s = .next t) : P t.dev := by
  delta execMapRebuild at he
  refine State.upd_keeps hc he ?_
  intro d hd
  show P _
  refine (mapRebuildEff_keeps S) ?_
  assumption

theorem execRebuildComplete_keeps {P : Device → Prop} (S : Stable P) {s t} (hc : P s.dev) (he : execRebuildComplete s = .next t) : P t.dev := by
  delta execRebuildComplete at he
  refine State.upd_keeps hc he ?_
  intro d hd
  show P _
  refine (rebuildCompleteEff_keeps S) ?_
  assumption

theorem execChunkPageLoad_keeps {P : Device → Prop} (S : Stable P) {a0 a1 s t} (hc : P s.dev) (he : execChunkPageLoad a0 a1 s = .next t) : P t.dev := by
  delta execChunkPageLoad at he
  refine State.upd_keeps hc he ?_
  intro d hd
  show P _
  refine (chunkPageEff_keeps S) ?_
  assumption

theorem execBandVerify_keeps {P : Device → Prop} (S : Stable P) {a0 a1 s t} (hc : P s.dev) (he : execBandVerify a0 a1 s = .next t) : P t.dev := by
  delta execBandVerify at he
  refine State.upd_keeps hc he ?_
  intro d hd
  show P _
  refine (bandVerifyEff_keeps S) ?_
  assumption

theorem execGcMove_keeps {P : Device → Prop} (S : Stable P) {a0 a1 s t} (hc : P s.dev) (he : execGcMove a0 a1 s = .next t) : P t.dev := by
  delta execGcMove at he
  refine State.upd_keeps hc he ?_
  intro d hd
  show P _
  refine (gcMoveEff_keeps S) ?_
  assumption

theorem execMoveDurable_keeps {P : Device → Prop} (S : MemStable P) {a0 s t} (hc : P s.dev) (he : execMoveDurable a0 s = .next t) : P t.dev := by
  delta execMoveDurable at he
  refine State.upd_keeps hc he ?_
  intro d hd
  show P _
  refine (moveDurableEff_keeps S) ?_
  assumption

theorem execHsStoreSeqlRead_keeps {P : Device → Prop} (S : Stable P) {a0 s t} (hc : P s.dev) (he : execHsStoreSeqlRead a0 s = .next t) : P t.dev := by
  delta execHsStoreSeqlRead at he
  refine State.upd_keeps hc he ?_
  intro d hd
  show P _
  refine (storeSeqlEff_keeps S) ?_
  assumption

end Sys2Proof.Machine
end

