-- ==== Sys2Proof/Laws/KeepLink.lean ====
section
/-!
SUPPORT. Which of registers, memory and fuses each operation and each command of Machine/Link.lean writes (Laws/Canon.lean).
-/
namespace Sys2Proof.Machine

theorem Device.controllerReset_keeps {P : Device → Prop} (S : MemStable P) {d c} (hc : P d) : P (Device.controllerReset d c) := by
  delta Device.controllerReset
  extract_lets -merge -useContext -underBinder +onlyGivenNames k0
  extract_lets -merge -useContext -underBinder +onlyGivenNames x1
  have hx1 : P x1 := by
    unfold x1
    refine (Device.updHost_keeps S.toStable) ?_
    assumption
  extract_lets -merge -useContext -underBinder +onlyGivenNames x2
  have hx2 : P x2 := by
    unfold x2
    refine keeps_foldl ?_ ?_
    · intro d' x' hd'
      show P _
      refine (Device.abortCmd_keeps S.toStable) ?_
      assumption
    · exact hx1
  extract_lets -merge -useContext -underBinder +onlyGivenNames x3
  have hx3 : P x3 := by
    unfold x3
    refine (Device.updCtrl_keeps S.toStable) ?_
    exact hx2
  refine (Device.settle_keeps S) ?_
  exact hx3

theorem perstAssertEff_keeps {P : Device → Prop} (S : MemStable P) {p d} (hc : P d) : P (perstAssertEff p d) := by
  delta perstAssertEff
  refine keeps_ite ?_ ?_
  · assumption
  · refine (Device.log_keeps S.toStable) ?_
    refine S.setWord _ _ ?_
    refine (Device.controllerReset_keeps S) ?_
    assumption

theorem perstDeassertEff_keeps {P : Device → Prop} (S : Stable P) {p d} (hc : P d) : P (perstDeassertEff p d) := by
  delta perstDeassertEff
  refine keeps_ite ?_ ?_
  · refine (Device.wr_keeps S) ?_
    assumption
  · assumption

theorem linkTrainedEff_keeps {P : Device → Prop} (S : Stable P) {p gen width d} (hc : P d) : P (linkTrainedEff p gen width d) := by
  delta linkTrainedEff
  refine keeps_ite ?_ ?_
  · assumption
  · extract_lets -merge -useContext -underBinder +onlyGivenNames k0
    extract_lets -merge -useContext -underBinder +onlyGivenNames k1
    refine keeps_ite ?_ ?_
    · assumption
    · refine (Device.log_keeps S) ?_
      refine (Device.wr_keeps S) ?_
      refine (Device.wr_keeps S) ?_
      refine (Device.wr_keeps S) ?_
      assumption

theorem linkDownEff_keeps {P : Device → Prop} (S : MemStable P) {p d} (hc : P d) : P (linkDownEff p d) := by
  delta linkDownEff
  refine keeps_ite ?_ ?_
  · assumption
  · refine (Device.log_keeps S.toStable) ?_
    refine (Device.wr_keeps S.toStable) ?_
    refine S.setWord _ _ ?_
    refine (Device.controllerReset_keeps S) ?_
    assumption

theorem Device.hostReadFailed_keeps {P : Device → Prop} (S : MemStable P) {d rd code} (hc : P d) : P (Device.hostReadFailed d rd code) := by
  delta Device.hostReadFailed
  split
  · split
    · assumption
    · refine keeps_ite ?_ ?_
      · refine (Device.pullFailed_keeps S) ?_
        refine (Device.log_keeps S.toStable) ?_
        assumption
      · assumption
  · refine keeps_ite ?_ ?_
    · refine (Device.updCtrl_keeps S.toStable) ?_
      refine (Device.log_keeps S.toStable) ?_
      assumption
    · assumption

theorem correctableEff_keeps {P : Device → Prop} (S : Stable P) {p d} (hc : P d) : P (correctableEff p d) := by
  delta correctableEff
  refine keeps_ite ?_ ?_
  · assumption
  · extract_lets -merge -useContext -underBinder +onlyGivenNames x0
    have hx0 : P x0 := by
      unfold x0
      refine (Device.incSat_keeps S) ?_
      assumption
    extract_lets -merge -useContext -underBinder +onlyGivenNames k1
    extract_lets -merge -useContext -underBinder +onlyGivenNames k2
    extract_lets -merge -useContext -underBinder +onlyGivenNames k3
    extract_lets -merge -useContext -underBinder +onlyGivenNames k4
    extract_lets -merge -useContext -underBinder +onlyGivenNames x5
    have hx5 : P x5 := by
      unfold x5
      refine (Device.updHost_keeps S) ?_
      exact hx0
    refine keeps_ite ?_ ?_
    · refine (Device.logRate_keeps S) ?_
      exact hx5
    · exact hx5

theorem ccEnSetEff_keeps {P : Device → Prop} (S : Stable P) {c crime asq acq d} (hc : P d) : P (ccEnSetEff c crime asq acq d) := by
  delta ccEnSetEff
  extract_lets -merge -useContext -underBinder +onlyGivenNames k0
  refine keeps_ite ?_ ?_
  · assumption
  · refine (Device.updHost_keeps S) ?_
    refine (Device.updCtrl_keeps S) ?_
    assumption

theorem Device.resumeErase_keeps {P : Device → Prop} (S : Stable P) {d} (hc : P d) : P (Device.resumeErase d) := by
  delta Device.resumeErase
  refine keeps_ite ?_ ?_
  · assumption
  · extract_lets -merge -useContext -underBinder +onlyGivenNames k0
    refine keeps_ite ?_ ?_
    · refine (Device.updHost_keeps S) ?_
      refine S.congr (d := d) ?_ rfl rfl rfl
      assumption
    · refine keeps_ite ?_ ?_
      · refine (Device.updHost_keeps S) ?_
        refine S.congr (d := d) ?_ rfl rfl rfl
        assumption
      · assumption

theorem controllerReadyEff_keeps {P : Device → Prop} (S : Stable P) {c d} (hc : P d) : P (controllerReadyEff c d) := by
  delta controllerReadyEff
  extract_lets -merge -useContext -underBinder +onlyGivenNames k0
  refine keeps_ite ?_ ?_
  · refine (Device.resumeErase_keeps S) ?_
    refine (Device.updCtrl_keeps S) ?_
    assumption
  · assumption

theorem ccEnClearEff_keeps {P : Device → Prop} (S : MemStable P) {c d} (hc : P d) : P (ccEnClearEff c d) := by
  delta ccEnClearEff
  refine keeps_ite ?_ ?_
  · refine (Device.log_keeps S.toStable) ?_
    refine (Device.controllerReset_keeps S) ?_
    assumption
  · assumption

theorem resetDrainedEff_keeps {P : Device → Prop} (S : Stable P) {c d} (hc : P d) : P (resetDrainedEff c d) := by
  delta resetDrainedEff
  refine keeps_ite ?_ ?_
  · refine (Device.updCtrl_keeps S) ?_
    assumption
  · assumption

theorem rdyTimeoutEff_keeps {P : Device → Prop} (S : Stable P) {c d} (hc : P d) : P (rdyTimeoutEff c d) := by
  delta rdyTimeoutEff
  refine keeps_ite ?_ ?_
  · refine (Device.updCtrl_keeps S) ?_
    assumption
  · assumption

theorem coalescingEff_keeps {P : Device → Prop} (S : Stable P) {c q d} (hc : P d) : P (coalescingEff c q d) := by
  delta coalescingEff
  split
  · assumption
  · refine keeps_ite ?_ ?_
    · assumption
    · extract_lets -merge -useContext -underBinder +onlyGivenNames x0
      have hx0 : P x0 := by
        unfold x0
        refine (Device.updHost_keeps S) ?_
        assumption
      refine keeps_ite ?_ ?_
      · refine (Device.emit_keeps S) ?_
        exact hx0
      · exact hx0

theorem execPerstAssert_keeps {P : Device → Prop} (S : MemStable P) {a0 s t} (hc : P s.dev) (he : execPerstAssert a0 s = .next t) : P t.dev := by
  delta execPerstAssert at he
  refine State.upd_keeps hc he ?_
  intro d hd
  show P _
  refine (perstAssertEff_keeps S) ?_
  assumption

theorem execPerstDeassert_keeps {P : Device → Prop} (S : Stable P) {a0 s t} (hc : P s.dev) (he : execPerstDeassert a0 s = .next t) : P t.dev := by
  delta execPerstDeassert at he
  refine State.upd_keeps hc he ?_
  intro d hd
  show P _
  refine (perstDeassertEff_keeps S) ?_
  assumption

theorem execLinkTrained_keeps {P : Device → Prop} (S : Stable P) {a0 a1 a2 s t} (hc : P s.dev) (he : execLinkTrained a0 a1 a2 s = .next t) : P t.dev := by
  delta execLinkTrained at he
  refine State.upd_keeps hc he ?_
  intro d hd
  show P _
  refine (linkTrainedEff_keeps S) ?_
  assumption

theorem execLinkDown_keeps {P : Device → Prop} (S : MemStable P) {a0 s t} (hc : P s.dev) (he : execLinkDown a0 s = .next t) : P t.dev := by
  delta execLinkDown at he
  refine State.upd_keeps hc he ?_
  intro d hd
  show P _
  refine (linkDownEff_keeps S) ?_
  assumption

theorem execConfigRequest_keeps {P : Device → Prop} (S : Stable P) {a0 s t} (hc : P s.dev) (he : execConfigRequest a0 s = .next t) : P t.dev := by
  delta execConfigRequest at he
  refine State.upd_keeps hc he ?_
  intro d hd
  show P _
  refine keeps_ite ?_ ?_
  · refine (Device.emit_keeps S) ?_
    assumption
  · assumption

theorem execHostReadCompletionTimeout_keeps {P : Device → Prop} (S : MemStable P) {a0 s t} (hc : P s.dev) (he : execHostReadCompletionTimeout a0 s = .next t) : P t.dev := by
  delta execHostReadCompletionTimeout at he
  refine State.upd_keeps hc he ?_
  intro d hd
  show P _
  refine (Device.hostReadFailed_keeps S) ?_
  assumption

theorem execPoisonedTlp_keeps {P : Device → Prop} (S : MemStable P) {a0 s t} (hc : P s.dev) (he : execPoisonedTlp a0 s = .next t) : P t.dev := by
  delta execPoisonedTlp at he
  refine State.upd_keeps hc he ?_
  intro d hd
  show P _
  refine (Device.hostReadFailed_keeps S) ?_
  assumption

theorem execCorrectableError_keeps {P : Device → Prop} (S : Stable P) {a0 s t} (hc : P s.dev) (he : execCorrectableError a0 s = .next t) : P t.dev := by
  delta execCorrectableError at he
  refine State.upd_keeps hc he ?_
  intro d hd
  show P _
  refine (correctableEff_keeps S) ?_
  assumption

theorem execL12Entry_keeps {P : Device → Prop} (S : Stable P) {a0 s t} (hc : P s.dev) (he : execL12Entry a0 s = .next t) : P t.dev := by
  delta execL12Entry at he
  refine State.upd_keeps hc he ?_
  intro d hd
  show P _
  refine keeps_ite ?_ ?_
  · refine (Device.wr_keeps S) ?_
    assumption
  · assumption

theorem execL12Exit_keeps {P : Device → Prop} (S : Stable P) {a0 s t} (hc : P s.dev) (he : execL12Exit a0 s = .next t) : P t.dev := by
  delta execL12Exit at he
  refine State.upd_keeps hc he ?_
  intro d hd
  show P _
  refine (Device.wr_keeps S) ?_
  assumption

theorem execCcEnSet_keeps {P : Device → Prop} (S : Stable P) {a0 a1 a2 a3 s t} (hc : P s.dev) (he : execCcEnSet a0 a1 a2 a3 s = .next t) : P t.dev := by
  delta execCcEnSet at he
  refine State.upd_keeps hc he ?_
  intro d hd
  show P _
  refine (ccEnSetEff_keeps S) ?_
  assumption

theorem execControllerReady_keeps {P : Device → Prop} (S : Stable P) {a0 s t} (hc : P s.dev) (he : execControllerReady a0 s = .next t) : P t.dev := by
  delta execControllerReady at he
  refine State.upd_keeps hc he ?_
  intro d hd
  show P _
  refine (controllerReadyEff_keeps S) ?_
  assumption

theorem execCcEnClear_keeps {P : Device → Prop} (S : MemStable P) {a0 s t} (hc : P s.dev) (he : execCcEnClear a0 s = .next t) : P t.dev := by
  delta execCcEnClear at he
  refine State.upd_keeps hc he ?_
  intro d hd
  show P _
  refine (ccEnClearEff_keeps S) ?_
  assumption

theorem execControllerResetDrained_keeps {P : Device → Prop} (S : Stable P) {a0 s t} (hc : P s.dev) (he : execControllerResetDrained a0 s = .next t) : P t.dev := by
  delta execControllerResetDrained at he
  refine State.upd_keeps hc he ?_
  intro d hd
  show P _
  refine (resetDrainedEff_keeps S) ?_
  assumption

theorem execRdyClearTimeout_keeps {P : Device → Prop} (S : Stable P) {a0 s t} (hc : P s.dev) (he : execRdyClearTimeout a0 s = .next t) : P t.dev := by
  delta execRdyClearTimeout at he
  refine State.upd_keeps hc he ?_
  intro d hd
  show P _
  refine (rdyTimeoutEff_keeps S) ?_
  assumption

theorem execCoalescingTimeout_keeps {P : Device → Prop} (S : Stable P) {a0 a1 s t} (hc : P s.dev) (he : execCoalescingTimeout a0 a1 s = .next t) : P t.dev := by
  delta execCoalescingTimeout at he
  refine State.upd_keeps hc he ?_
  intro d hd
  show P _
  refine (coalescingEff_keeps S) ?_
  assumption

end Sys2Proof.Machine
end

