-- ==== Sys2Proof/Laws/KeepLogPages.lean ====
section
/-!
SUPPORT. Which of registers, memory and fuses each operation and each command of Machine/LogPages.lean writes (Laws/Canon.lean).
-/
namespace Sys2Proof.Machine

theorem Device.getLog_keeps {P : Device → Prop} (S : Stable P) {d id c lid nsid lsp off len} (e) (he : Device.getLog d id c lid nsid lsp off len = some e) (hc : P d) :
    P e := by
  unfold Device.getLog at he
  split at he
  · cases he
  · split at he
    · cases he
    · dsimp only at he
      have h1 : ∀ x : Option (List (String × Nat)), P (match x with | none => d | some f => d.emit (.fields id f)) := by
        intro x
        cases x
        · exact hc
        · exact Device.emit_keeps S hc
      have h2 : ∀ (y : Option (List Nat)) (d1 : Device), P d1 →
          P (match y with | none => d1 | some b => d1.emit (.bytes id (padTo len (b.drop off)))) := by
        intro y d1 hd
        cases y
        · exact hd
        · exact Device.emit_keeps S hd
      cases he
      have h3 := h2 (d.pageBytes lid) _ (h1 (d.pageFields c lid))
      refine keeps_ite (S.congr (keeps_ite (Device.updCtrl_keeps S h3) h3) rfl rfl rfl)
        (keeps_ite (Device.updCtrl_keeps S h3) h3)

end Sys2Proof.Machine
end

