-- ==== Sys2Proof/Laws/KeepAdmin.lean ====
section
/-!
SUPPORT. Which of registers, memory and fuses each operation and each command of Machine/Admin.lean writes (Laws/Canon.lean).
-/
namespace Sys2Proof.Machine

theorem createSqEff_keeps {P : Device → Prop} (S : Stable P) {id qid size cqid pc d} (hc : P d) : P (createSqEff id qid size cqid pc d) := by
  delta createSqEff
  refine (Device.onAdmin_keeps S) ?_ ?_
  · assumption
  · intro b0 hb0
    show P _
    split
    · refine (Device.adminDone_keeps S) ?_
      assumption
    · refine keeps_ite ?_ ?_
      · refine (Device.adminDone_keeps S) ?_
        assumption
      · refine (Device.adminDone_keeps S) ?_
        refine (Device.updHost_keeps S) ?_
        assumption

theorem createCqEff_keeps {P : Device → Prop} (S : Stable P) {id qid size vector pc ien d} (hc : P d) : P (createCqEff id qid size vector pc ien d) := by
  delta createCqEff
  refine (Device.onAdmin_keeps S) ?_ ?_
  · assumption
  · intro b0 hb0
    show P _
    split
    · refine (Device.adminDone_keeps S) ?_
      assumption
    · refine keeps_ite ?_ ?_
      · refine (Device.adminDone_keeps S) ?_
        assumption
      · refine (Device.adminDone_keeps S) ?_
        refine (Device.updHost_keeps S) ?_
        assumption

theorem deleteSqEff_keeps {P : Device → Prop} (S : MemStable P) {id qid d} (hc : P d) : P (deleteSqEff id qid d) := by
  delta deleteSqEff
  refine (Device.onAdmin_keeps S.toStable) ?_ ?_
  · assumption
  · intro b0 hb0
    show P _
    refine keeps_ite ?_ ?_
    · refine (Device.adminDone_keeps S.toStable) ?_
      assumption
    · extract_lets -merge -useContext -underBinder +onlyGivenNames x0
      have hx0 : P x0 := by
        unfold x0
        refine (Device.updHost_keeps S.toStable) ?_
        assumption
      extract_lets -merge -useContext -underBinder +onlyGivenNames x1
      have hx1 : P x1 := by
        unfold x1
        refine (Device.updCtrl_keeps S.toStable) ?_
        exact hx0
      refine (Device.settle_keeps S) ?_
      refine keeps_foldl ?_ ?_
      · intro d' x' hd'
        show P _
        refine (Device.abortCmd_keeps S.toStable) ?_
        assumption
      · exact hx1

theorem deleteSqDoneEff_keeps {P : Device → Prop} (S : Stable P) {id d} (hc : P d) : P (deleteSqDoneEff id d) := by
  delta deleteSqDoneEff
  split
  · assumption
  · refine keeps_ite ?_ ?_
    · assumption
    · refine (Device.adminDone_keeps S) ?_
      refine (Device.updHost_keeps S) ?_
      assumption

theorem deleteCqEff_keeps {P : Device → Prop} (S : Stable P) {id qid d} (hc : P d) : P (deleteCqEff id qid d) := by
  delta deleteCqEff
  refine (Device.onAdmin_keeps S) ?_ ?_
  · assumption
  · intro b0 hb0
    show P _
    refine keeps_ite ?_ ?_
    · refine (Device.adminDone_keeps S) ?_
      assumption
    · refine keeps_ite ?_ ?_
      · refine (Device.adminDone_keeps S) ?_
        assumption
      · refine (Device.adminDone_keeps S) ?_
        refine (Device.updHost_keeps S) ?_
        assumption

theorem getLogEff_keeps {P : Device → Prop} (S : Stable P) {id lid nsid lsp off len d} (hc : P d) : P (getLogEff id lid nsid lsp off len d) := by
  delta getLogEff
  refine (Device.onAdmin_keeps S) ?_ ?_
  · assumption
  · intro b0 hb0
    show P _
    split
    · refine (Device.adminDone_keeps S) ?_
      assumption
    · rename_i d' heq'
      have hd' : P d' := by
        refine (Device.getLog_keeps S) d' heq' ?_
        assumption
      refine (Device.adminDone_keeps S) ?_
      assumption

theorem identifyEff_keeps {P : Device → Prop} (S : Stable P) {id cns nsid d} (hc : P d) : P (identifyEff id cns nsid d) := by
  delta identifyEff
  refine (Device.onAdmin_keeps S) ?_ ?_
  · assumption
  · intro b0 hb0
    show P _
    split
    · refine (Device.adminDone_keeps S) ?_
      assumption
    · refine (Device.adminDone_keeps S) ?_
      refine (Device.emit_keeps S) ?_
      assumption

theorem abortEff_keeps {P : Device → Prop} (S : MemStable P) {id sq cid d} (hc : P d) : P (abortEff id sq cid d) := by
  delta abortEff
  refine (Device.onAdmin_keeps S.toStable) ?_ ?_
  · assumption
  · intro b0 hb0
    show P _
    split
    · refine (Device.adminDone_keeps S.toStable) ?_
      assumption
    · refine (Device.adminDone_keeps S.toStable) ?_
      refine (Device.settle_keeps S) ?_
      refine (Device.abortCmd_keeps S.toStable) ?_
      assumption

theorem setFeaturesEff_keeps {P : Device → Prop} (S : Stable P) {id fid nsid dw11 data table d} (hc : P d) : P (setFeaturesEff id fid nsid dw11 data table d) := by
  delta setFeaturesEff
  refine (Device.onAdmin_keeps S) ?_ ?_
  · assumption
  · intro b0 hb0
    show P _
    extract_lets -merge -useContext -underBinder +onlyGivenNames k0
    extract_lets -merge -useContext -underBinder +onlyGivenNames g1
    have hg1 : ∀ g1a0 g1a1 , P (g1 g1a0 g1a1) := by
      intro g1a0 g1a1
      unfold g1
      show P _
      refine (Device.adminDone_keeps S) ?_
      refine (Device.setFeat_keeps S) ?_
      assumption
    refine keeps_ite ?_ ?_
    · refine (Device.adminDone_keeps S) ?_
      assumption
    · split
      · extract_lets -merge -useContext -underBinder +onlyGivenNames k2
        refine keeps_ite ?_ ?_
        · refine (Device.adminDone_keeps S) ?_
          assumption
        · refine (Device.adminDone_keeps S) ?_
          refine (Device.updHost_keeps S) ?_
          assumption
      · extract_lets -merge -useContext -underBinder +onlyGivenNames k3
        extract_lets -merge -useContext -underBinder +onlyGivenNames k4
        refine keeps_ite ?_ ?_
        · refine (Device.adminDone_keeps S) ?_
          assumption
        · exact hg1 _ _
      · refine keeps_ite ?_ ?_
        · refine (Device.adminDone_keeps S) ?_
          assumption
        · exact hg1 _ _
      · refine keeps_ite ?_ ?_
        · refine (Device.adminDone_keeps S) ?_
          assumption
        · refine (Device.adminDone_keeps S) ?_
          assumption
      · refine keeps_ite ?_ ?_
        · refine (Device.adminDone_keeps S) ?_
          assumption
        · exact hg1 _ _
      · refine (Device.adminDone_keeps S) ?_
        refine (Device.updCtrl_keeps S) ?_
        assumption
      · refine (Device.adminDone_keeps S) ?_
        refine (Device.setAnchor_keeps S) ?_
        assumption
      · exact hg1 _ _
      · refine (Device.adminDone_keeps S) ?_
        refine (Device.updNs_keeps S) ?_
        refine (Device.setFeat_keeps S) ?_
        assumption
      · exact hg1 _ _

theorem getFeaturesEff_keeps {P : Device → Prop} (S : Stable P) {id fid nsid dw11 d} (hc : P d) : P (getFeaturesEff id fid nsid dw11 d) := by
  delta getFeaturesEff
  refine (Device.onAdmin_keeps S) ?_ ?_
  · assumption
  · intro b0 hb0
    show P _
    refine keeps_ite ?_ ?_
    · refine (Device.adminDone_keeps S) ?_
      assumption
    · split
      · refine (Device.adminDone_keeps S) ?_
        refine keeps_ite ?_ ?_
        · assumption
        · refine (Device.emit_keeps S) ?_
          assumption

theorem aerEff_keeps {P : Device → Prop} (S : Stable P) {id d} (hc : P d) : P (aerEff id d) := by
  delta aerEff
  refine (Device.onAdmin_keeps S) ?_ ?_
  · assumption
  · intro b0 hb0
    show P _
    split
    · refine (Device.updCtrl_keeps S) ?_
      refine (Device.dropAdmin_keeps S) ?_
      assumption
    · refine (Device.adminDone_keeps S) ?_
      refine (Device.updCtrl_keeps S) ?_
      assumption

theorem Device.nsChanged_keeps {P : Device → Prop} (S : Stable P) {d n} (hc : P d) : P (Device.nsChanged d n) := by
  delta Device.nsChanged
  refine (Device.postAen_keeps S) ?_
  refine keeps_foldl ?_ ?_
  · intro d' x' hd'
    show P _
    refine (Device.updCtrl_keeps S) ?_
    assumption
  · assumption

theorem Device.recordEpoch_keeps {P : Device → Prop} (S : Stable P) {d n e} (hc : P d) : P (Device.recordEpoch d n e) := by
  delta Device.recordEpoch
  refine S.congr (d := d) ?_ rfl rfl rfl
  assumption

theorem nsCreateEff_keeps {P : Device → Prop} (S : Stable P) {id zoned fmt pit piFirst blocks d} (hc : P d) : P (nsCreateEff id zoned fmt pit piFirst blocks d) := by
  delta nsCreateEff
  refine (Device.onAdmin_keeps S) ?_ ?_
  · assumption
  · intro b0 hb0
    show P _
    extract_lets -merge -useContext -underBinder +onlyGivenNames k0
    extract_lets -merge -useContext -underBinder +onlyGivenNames k1
    refine keeps_ite ?_ ?_
    · refine (Device.adminDone_keeps S) ?_
      assumption
    · refine keeps_ite ?_ ?_
      · refine (Device.adminDone_keeps S) ?_
        assumption
      · refine keeps_ite ?_ ?_
        · refine (Device.adminDone_keeps S) ?_
          assumption
        · extract_lets -merge -useContext -underBinder +onlyGivenNames k2
          extract_lets -merge -useContext -underBinder +onlyGivenNames k3
          extract_lets -merge -useContext -underBinder +onlyGivenNames x4
          have hx4 : P x4 := by
            unfold x4
            refine (Device.setNs_keeps S) ?_
            assumption
          extract_lets -merge -useContext -underBinder +onlyGivenNames x5
          have hx5 : P x5 := by
            unfold x5
            refine (Device.recordEpoch_keeps S) ?_
            exact hx4
          extract_lets -merge -useContext -underBinder +onlyGivenNames x6
          have hx6 : P x6 := by
            unfold x6
            refine (Device.flushJournal_keeps S) ?_
            refine (Device.queueSeq_keeps S) ?_
            exact hx5
          extract_lets -merge -useContext -underBinder +onlyGivenNames x7
          have hx7 : P x7 := by
            unfold x7
            refine (Device.updHost_keeps S) ?_
            exact hx6
          refine (Device.adminDone_keeps S) ?_
          refine (Device.nsChanged_keeps S) ?_
          exact hx7

theorem Device.dropZoneBands_keeps {P : Device → Prop} (S : Stable P) {d n} (hc : P d) : P (Device.dropZoneBands d n) := by
  delta Device.dropZoneBands
  refine keeps_foldl ?_ ?_
  · intro d' x' hd'
    refine (Device.giveUpBand_keeps S) ?_
    assumption
  · assumption

theorem nsDeleteEff_keeps {P : Device → Prop} (S : Stable P) {id n d} (hc : P d) : P (nsDeleteEff id n d) := by
  delta nsDeleteEff
  refine (Device.onAdmin_keeps S) ?_ ?_
  · assumption
  · intro b0 hb0
    show P _
    split
    · refine (Device.adminDone_keeps S) ?_
      assumption
    · refine keeps_ite ?_ ?_
      · assumption
      · split
        rename_i v' d' heq'
        have hd' : P d' := by
          show P (v', d').2
          rw [← heq']
          split
          · refine keeps_snd ?_
            assumption
          · refine (Device.keyErase_keeps S) ?_
            assumption
        refine keeps_ite ?_ ?_
        · assumption
        · extract_lets -merge -useContext -underBinder +onlyGivenNames x0
          have hx0 : P x0 := by
            unfold x0
            refine (Device.queueSeq_keeps S) ?_
            assumption
          extract_lets -merge -useContext -underBinder +onlyGivenNames x1
          have hx1 : P x1 := by
            unfold x1
            refine (Device.updTables_keeps S) ?_
            refine (Device.flushJournal_keeps S) ?_
            refine (Device.dropZoneBands_keeps S) ?_
            exact hx0
          extract_lets -merge -useContext -underBinder +onlyGivenNames x2
          have hx2 : P x2 := by
            unfold x2
            refine (Device.recordEpoch_keeps S) ?_
            exact hx1
          extract_lets -merge -useContext -underBinder +onlyGivenNames x3i0 x3i1 x3
          have hx3 : P x3 := by
            unfold x3
            exact S.congr hx2 rfl rfl rfl
          refine (Device.reclaimAll_keeps S) ?_
          refine (Device.adminDone_keeps S) ?_
          refine (Device.nsChanged_keeps S) ?_
          exact hx3

theorem nsAttachEff_keeps {P : Device → Prop} (S : Stable P) {id n cs d} (hc : P d) : P (nsAttachEff id n cs d) := by
  delta nsAttachEff
  refine (Device.onAdmin_keeps S) ?_ ?_
  · assumption
  · intro b0 hb0
    show P _
    split
    · refine (Device.adminDone_keeps S) ?_
      assumption
    · refine (Device.adminDone_keeps S) ?_
      assumption
    · refine keeps_ite ?_ ?_
      · refine (Device.adminDone_keeps S) ?_
        assumption
      · refine (Device.adminDone_keeps S) ?_
        refine (Device.nsChanged_keeps S) ?_
        refine (Device.setNs_keeps S) ?_
        assumption

theorem nsDetachEff_keeps {P : Device → Prop} (S : Stable P) {id n cs d} (hc : P d) : P (nsDetachEff id n cs d) := by
  delta nsDetachEff
  refine (Device.onAdmin_keeps S) ?_ ?_
  · assumption
  · intro b0 hb0
    show P _
    split
    · refine (Device.adminDone_keeps S) ?_
      assumption
    · refine (Device.adminDone_keeps S) ?_
      assumption
    · refine keeps_ite ?_ ?_
      · refine (Device.adminDone_keeps S) ?_
        assumption
      · refine keeps_ite ?_ ?_
        · assumption
        · refine (Device.adminDone_keeps S) ?_
          refine (Device.nsChanged_keeps S) ?_
          refine (Device.setNs_keeps S) ?_
          assumption

theorem Device.beginErase_keeps {P : Device → Prop} (S : Stable P) {d id format r} (hc : P d) : P (Device.beginErase d id format r) := by
  delta Device.beginErase
  refine keeps_ite ?_ ?_
  · refine (Device.adminDone_keeps S) ?_
    assumption
  · extract_lets -merge -useContext -underBinder +onlyGivenNames x0
    have hx0 : P x0 := by
      unfold x0
      refine (Device.updHost_keeps S) ?_
      assumption
    refine keeps_ite ?_ ?_
    · exact S.congr hx0 rfl rfl rfl
    · exact S.congr hx0 rfl rfl rfl

theorem formatEff_keeps {P : Device → Prop} (S : Stable P) {id n fmt ses pit piFirst d} (hc : P d) : P (formatEff id n fmt ses pit piFirst d) := by
  delta formatEff
  refine (Device.onAdmin_keeps S) ?_ ?_
  · assumption
  · intro b0 hb0
    show P _
    refine keeps_ite ?_ ?_
    · refine (Device.adminDone_keeps S) ?_
      assumption
    · refine keeps_ite ?_ ?_
      · refine (Device.adminDone_keeps S) ?_
        assumption
      · refine (Device.beginErase_keeps S) ?_
        assumption

theorem sanitizeEff_keeps {P : Device → Prop} (S : Stable P) {id r d} (hc : P d) : P (sanitizeEff id r d) := by
  delta sanitizeEff
  refine (Device.onAdmin_keeps S) ?_ ?_
  · assumption
  · intro b0 hb0
    show P _
    refine (Device.beginErase_keeps S) ?_
    assumption

theorem Device.updErase_keeps {P : Device → Prop} (S : Stable P) {d f} (hc : P d) : P (Device.updErase d f) := by
  delta Device.updErase
  refine keeps_ite ?_ ?_
  · refine S.congr (d := d) ?_ rfl rfl rfl
    assumption
  · refine S.congr (d := d) ?_ rfl rfl rfl
    assumption

theorem Device.advanceKey_keeps {P : Device → Prop} (S : MemStable P) {d n} (hc : P d) : P ((Device.advanceKey d n).2) := by
  delta Device.advanceKey
  split
  · refine keeps_snd ?_
    assumption
  · extract_lets -merge -useContext -underBinder +onlyGivenNames k0
    split
    rename_i v' d' heq'
    have hd' : P d' := by
      show P (v', d').2
      rw [← heq']
      split
      · refine keeps_snd ?_
        assumption
      · refine (Device.keyGenerate_keeps S) ?_
        assumption
    refine keeps_ite2 ?_ ?_
    · refine keeps_snd ?_
      assumption
    · refine keeps_snd ?_
      refine (Device.queueSeq_keeps S.toStable) ?_
      refine (Device.recordEpoch_keeps S.toStable) ?_
      refine (Device.setNs_keeps S.toStable) ?_
      assumption

theorem eraseStartEff_keeps {P : Device → Prop} (S : MemStable P) {d} (hc : P d) : P (eraseStartEff d) := by
  delta eraseStartEff
  refine keeps_ite ?_ ?_
  · assumption
  · extract_lets -merge -useContext -underBinder +onlyGivenNames k0
    extract_lets -merge -useContext -underBinder +onlyGivenNames k1
    refine keeps_ite ?_ ?_
    · extract_lets -merge -useContext -underBinder +onlyGivenNames k2
      extract_lets -merge -useContext -underBinder +onlyGivenNames x3
      have hx3 : P x3 := by
        unfold x3
        refine (Device.updHost_keeps S.toStable) ?_
        assumption
      generalize k2 = z4
      split
      · refine (Device.adminDone_keeps S.toStable) ?_
        exact hx3
      · exact hx3
    · extract_lets -merge -useContext -underBinder +onlyGivenNames k5
      extract_lets -merge -useContext -underBinder +onlyGivenNames x6
      have hx6 : P x6 := by
        unfold x6
        refine keeps_foldl ?_ ?_
        · intro d' x' hd'
          show P _
          extract_lets -merge -useContext -underBinder +onlyGivenNames x7
          have hx7 : P x7 := by
            unfold x7
            refine (Device.updNs_keeps S.toStable) ?_
            assumption
          refine keeps_ite ?_ ?_
          · refine (Device.advanceKey_keeps S) ?_
            exact hx7
          · refine (Device.queueSeq_keeps S.toStable) ?_
            exact hx7
        · assumption
      extract_lets -merge -useContext -underBinder +onlyGivenNames x8
      have hx8 : P x8 := by
        unfold x8
        refine (Device.flushJournal_keeps S.toStable) ?_
        exact hx6
      extract_lets -merge -useContext -underBinder +onlyGivenNames x9
      have hx9 : P x9 := by
        unfold x9
        refine (Device.updHost_keeps S.toStable) ?_
        refine (Device.updErase_keeps S.toStable) ?_
        exact hx8
      refine keeps_ite ?_ ?_
      · exact hx9
      · split
        · refine (Device.adminDone_keeps S.toStable) ?_
          exact hx9
        · exact hx9

theorem progressEff_keeps {P : Device → Prop} (S : Stable P) {done d} (hc : P d) : P (progressEff done d) := by
  delta progressEff
  refine keeps_ite ?_ ?_
  · assumption
  · refine (Device.updErase_keeps S) ?_
    assumption

theorem Device.eraseNs_keeps {P : Device → Prop} (S : Stable P) {d n} (hc : P d) : P (Device.eraseNs d n) := by
  delta Device.eraseNs
  extract_lets -merge -useContext -underBinder +onlyGivenNames k0
  extract_lets -merge -useContext -underBinder +onlyGivenNames x1
  have hx1 : P x1 := by
    unfold x1
    refine (Device.updTables_keeps S) ?_
    refine (Device.dropZoneBands_keeps S) ?_
    assumption
  extract_lets -merge -useContext -underBinder +onlyGivenNames x2
  have hx2 : P x2 := by
    unfold x2
    refine keeps_ite ?_ ?_
    · refine (Device.updNs_keeps S) ?_
      exact hx1
    · exact hx1
  refine keeps_ite ?_ ?_
  · refine (Device.updTables_keeps S) ?_
    exact hx2
  · exact hx2

theorem eraseDoneEff_keeps {P : Device → Prop} (S : Stable P) {ok d} (hc : P d) : P (eraseDoneEff ok d) := by
  delta eraseDoneEff
  extract_lets -merge -useContext -underBinder +onlyGivenNames k0
  refine keeps_ite ?_ ?_
  · assumption
  · extract_lets -merge -useContext -underBinder +onlyGivenNames x1
    have hx1 : P x1 := by
      unfold x1
      refine keeps_ite ?_ ?_
      · refine keeps_foldl ?_ ?_
        · intro d' x' hd'
          refine (Device.eraseNs_keeps S) ?_
          assumption
        · assumption
      · assumption
    extract_lets -merge -useContext -underBinder +onlyGivenNames x2
    have hx2 : P x2 := by
      unfold x2
      refine (Device.updErase_keeps S) ?_
      exact hx1
    extract_lets -merge -useContext -underBinder +onlyGivenNames k3
    extract_lets -merge -useContext -underBinder +onlyGivenNames k4
    extract_lets -merge -useContext -underBinder +onlyGivenNames x5
    have hx5 : P x5 := by
      unfold x5
      refine (Device.updHost_keeps S) ?_
      exact hx2
    extract_lets -merge -useContext -underBinder +onlyGivenNames x6
    have hx6 : P x6 := by
      unfold x6
      generalize k3 = z7
      generalize k4 = z8
      split
      · refine (Device.onAdmin_keeps S) ?_ ?_
        · exact hx5
        · intro b0 hb0
          show P _
          refine (Device.adminDone_keeps S) ?_
          assumption
      · exact hx5
    refine (Device.reclaimAll_keeps S) ?_
    refine (Device.flushJournal_keeps S) ?_
    exact hx6

theorem execCreateIoSq_keeps {P : Device → Prop} (S : Stable P) {a0 a1 a2 a3 a4 s t} (hc : P s.dev) (he : execCreateIoSq a0 a1 a2 a3 a4 s = .next t) : P t.dev := by
  delta execCreateIoSq at he
  refine State.upd_keeps hc he ?_
  intro d hd
  show P _
  refine (createSqEff_keeps S) ?_
  assumption

theorem execCreateIoCq_keeps {P : Device → Prop} (S : Stable P) {a0 a1 a2 a3 a4 a5 s t} (hc : P s.dev) (he : execCreateIoCq a0 a1 a2 a3 a4 a5 s = .next t) : P t.dev := by
  delta execCreateIoCq at he
  refine State.upd_keeps hc he ?_
  intro d hd
  show P _
  refine (createCqEff_keeps S) ?_
  assumption

theorem execDeleteIoSq_keeps {P : Device → Prop} (S : MemStable P) {a0 a1 s t} (hc : P s.dev) (he : execDeleteIoSq a0 a1 s = .next t) : P t.dev := by
  delta execDeleteIoSq at he
  refine State.upd_keeps hc he ?_
  intro d hd
  show P _
  refine (deleteSqEff_keeps S) ?_
  assumption

theorem execDeleteSqComplete_keeps {P : Device → Prop} (S : Stable P) {a0 s t} (hc : P s.dev) (he : execDeleteSqComplete a0 s = .next t) : P t.dev := by
  delta execDeleteSqComplete at he
  refine State.upd_keeps hc he ?_
  intro d hd
  show P _
  refine (deleteSqDoneEff_keeps S) ?_
  assumption

theorem execDeleteIoCq_keeps {P : Device → Prop} (S : Stable P) {a0 a1 s t} (hc : P s.dev) (he : execDeleteIoCq a0 a1 s = .next t) : P t.dev := by
  delta execDeleteIoCq at he
  refine State.upd_keeps hc he ?_
  intro d hd
  show P _
  refine (deleteCqEff_keeps S) ?_
  assumption

theorem execGetLogPage_keeps {P : Device → Prop} (S : Stable P) {a0 a1 a2 a3 a4 a5 s t} (hc : P s.dev) (he : execGetLogPage a0 a1 a2 a3 a4 a5 s = .next t) : P t.dev := by
  delta execGetLogPage at he
  refine State.upd_keeps hc he ?_
  intro d hd
  show P _
  refine (getLogEff_keeps S) ?_
  assumption

theorem execIdentify_keeps {P : Device → Prop} (S : Stable P) {a0 a1 a2 s t} (hc : P s.dev) (he : execIdentify a0 a1 a2 s = .next t) : P t.dev := by
  delta execIdentify at he
  refine State.upd_keeps hc he ?_
  intro d hd
  show P _
  refine (identifyEff_keeps S) ?_
  assumption

theorem execAbort_keeps {P : Device → Prop} (S : MemStable P) {a0 a1 a2 s t} (hc : P s.dev) (he : execAbort a0 a1 a2 s = .next t) : P t.dev := by
  delta execAbort at he
  refine State.upd_keeps hc he ?_
  intro d hd
  show P _
  refine (abortEff_keeps S) ?_
  assumption

theorem execSetFeatures_keeps {P : Device → Prop} (S : Stable P) {a0 a1 a2 a3 a4 a5 s t} (hc : P s.dev) (he : execSetFeatures a0 a1 a2 a3 a4 a5 s = .next t) : P t.dev := by
  delta execSetFeatures at he
  refine State.upd_keeps hc he ?_
  intro d hd
  show P _
  refine (setFeaturesEff_keeps S) ?_
  assumption

theorem execGetFeatures_keeps {P : Device → Prop} (S : Stable P) {a0 a1 a2 a3 s t} (hc : P s.dev) (he : execGetFeatures a0 a1 a2 a3 s = .next t) : P t.dev := by
  delta execGetFeatures at he
  refine State.upd_keeps hc he ?_
  intro d hd
  show P _
  refine (getFeaturesEff_keeps S) ?_
  assumption

theorem execAsyncEventRequest_keeps {P : Device → Prop} (S : Stable P) {a0 s t} (hc : P s.dev) (he : execAsyncEventRequest a0 s = .next t) : P t.dev := by
  delta execAsyncEventRequest at he
  refine State.upd_keeps hc he ?_
  intro d hd
  show P _
  refine (aerEff_keeps S) ?_
  assumption

theorem execNamespaceCreate_keeps {P : Device → Prop} (S : Stable P) {a0 a1 a2 a3 a4 a5 s t} (hc : P s.dev) (he : execNamespaceCreate a0 a1 a2 a3 a4 a5 s = .next t) : P t.dev := by
  delta execNamespaceCreate at he
  refine State.upd_keeps hc he ?_
  intro d hd
  show P _
  refine (nsCreateEff_keeps S) ?_
  assumption

theorem execNamespaceDelete_keeps {P : Device → Prop} (S : Stable P) {a0 a1 s t} (hc : P s.dev) (he : execNamespaceDelete a0 a1 s = .next t) : P t.dev := by
  delta execNamespaceDelete at he
  refine State.upd_keeps hc he ?_
  intro d hd
  show P _
  refine (nsDeleteEff_keeps S) ?_
  assumption

theorem execNamespaceAttach_keeps {P : Device → Prop} (S : Stable P) {a0 a1 a2 s t} (hc : P s.dev) (he : execNamespaceAttach a0 a1 a2 s = .next t) : P t.dev := by
  delta execNamespaceAttach at he
  refine State.upd_keeps hc he ?_
  intro d hd
  show P _
  refine (nsAttachEff_keeps S) ?_
  assumption

theorem execNamespaceDetach_keeps {P : Device → Prop} (S : Stable P) {a0 a1 a2 s t} (hc : P s.dev) (he : execNamespaceDetach a0 a1 a2 s = .next t) : P t.dev := by
  delta execNamespaceDetach at he
  refine State.upd_keeps hc he ?_
  intro d hd
  show P _
  refine (nsDetachEff_keeps S) ?_
  assumption

theorem execFormatNvm_keeps {P : Device → Prop} (S : Stable P) {a0 a1 a2 a3 a4 a5 s t} (hc : P s.dev) (he : execFormatNvm a0 a1 a2 a3 a4 a5 s = .next t) : P t.dev := by
  delta execFormatNvm at he
  refine State.upd_keeps hc he ?_
  intro d hd
  show P _
  refine (formatEff_keeps S) ?_
  assumption

theorem execSanitizeCryptoErase_keeps {P : Device → Prop} (S : Stable P) {a0 s t} (hc : P s.dev) (he : execSanitizeCryptoErase a0 s = .next t) : P t.dev := by
  delta execSanitizeCryptoErase at he
  refine State.upd_keeps hc he ?_
  intro d hd
  show P _
  refine (sanitizeEff_keeps S) ?_
  assumption

theorem execSanitizeBlockErase_keeps {P : Device → Prop} (S : Stable P) {a0 s t} (hc : P s.dev) (he : execSanitizeBlockErase a0 s = .next t) : P t.dev := by
  delta execSanitizeBlockErase at he
  refine State.upd_keeps hc he ?_
  intro d hd
  show P _
  refine (sanitizeEff_keeps S) ?_
  assumption

theorem execSanitizeOverwrite_keeps {P : Device → Prop} (S : Stable P) {a0 a1 a2 a3 a4 s t} (hc : P s.dev) (he : execSanitizeOverwrite a0 a1 a2 a3 a4 s = .next t) : P t.dev := by
  delta execSanitizeOverwrite at he
  refine State.upd_keeps hc he ?_
  intro d hd
  show P _
  refine keeps_ite ?_ ?_
  · refine (Device.onAdmin_keeps S) ?_ ?_
    · assumption
    · intro b0 hb0
      show P _
      refine (Device.adminDone_keeps S) ?_
      assumption
  · refine (sanitizeEff_keeps S) ?_
    assumption

theorem execFormatSanitizeStart_keeps {P : Device → Prop} (S : MemStable P) {s t} (hc : P s.dev) (he : execFormatSanitizeStart s = .next t) : P t.dev := by
  delta execFormatSanitizeStart at he
  refine State.upd_keeps hc he ?_
  intro d hd
  show P _
  refine (eraseStartEff_keeps S) ?_
  assumption

theorem execProgressRecord_keeps {P : Device → Prop} (S : Stable P) {a0 s t} (hc : P s.dev) (he : execProgressRecord a0 s = .next t) : P t.dev := by
  delta execProgressRecord at he
  refine State.upd_keeps hc he ?_
  intro d hd
  show P _
  refine (progressEff_keeps S) ?_
  assumption

theorem execEraseOperationComplete_keeps {P : Device → Prop} (S : Stable P) {a0 s t} (hc : P s.dev) (he : execEraseOperationComplete a0 s = .next t) : P t.dev := by
  delta execEraseOperationComplete at he
  refine State.upd_keeps hc he ?_
  intro d hd
  show P _
  refine (eraseDoneEff_keeps S) ?_
  assumption

end Sys2Proof.Machine
end

