-- ==== Sys2Proof/Laws/KeepBalanceOps.lean ====
section
/-!
SUPPORT. Which of registers, memory and fuses each operation and each command of Machine/BalanceOps.lean writes (Laws/Canon.lean).
-/
namespace Sys2Proof.Machine

theorem Device.beSet_keeps {P : Device → Prop} (S : Stable P) {d e i v} (hc : P d) : P (Device.beSet d e i v) := by
  delta Device.beSet
  refine keeps_ite ?_ ?_
  · refine (Device.wrI_keeps S) ?_
    assumption
  · refine keeps_ite ?_ ?_
    · refine (Device.updBe_keeps S) ?_
      assumption
    · assumption

theorem Device.bankExchange_keeps {P : Device → Prop} (S : Stable P) {d e} (hc : P d) : P (Device.bankExchange d e) := by
  delta Device.bankExchange
  extract_lets -merge -useContext -underBinder +onlyGivenNames k0
  extract_lets -merge -useContext -underBinder +onlyGivenNames x1
  have hx1 : P x1 := by
    unfold x1
    refine (Device.wrB_keeps S) ?_
    refine (Device.wrB_keeps S) ?_
    assumption
  refine (Device.updBe_keeps S) ?_
  refine (Device.wrAll_keeps S) ?_
  exact hx1

theorem Device.exchangeDue_keeps {P : Device → Prop} (S : Stable P) {d e} (hc : P d) : P (Device.exchangeDue d e) := by
  delta Device.exchangeDue
  refine keeps_ite ?_ ?_
  · refine (Device.bankExchange_keeps S) ?_
    assumption
  · assumption

theorem Device.beStart_keeps {P : Device → Prop} (S : Stable P) {d e slot inp} (hc : P d) : P (Device.beStart d e slot inp) := by
  delta Device.beStart
  refine (Device.updBe_keeps S) ?_
  assumption

theorem Device.psSend_keeps {P : Device → Prop} (S : Stable P) {d l type hi lo} (hc : P d) : P (Device.psSend d l type hi lo) := by
  delta Device.psSend
  extract_lets -merge -useContext -underBinder +onlyGivenNames k0
  refine (Device.emit_keeps S) ?_
  refine (Device.updPs_keeps S) ?_
  assumption

theorem Device.sendXout_keeps {P : Device → Prop} (S : Stable P) {d l v} (hc : P d) : P (Device.sendXout d l v) := by
  delta Device.sendXout
  refine keeps_ite ?_ ?_
  · assumption
  · refine (Device.emit_keeps S) ?_
    refine (Device.updBe_keeps S) ?_
    assumption

theorem Device.commandFrame_keeps {P : Device → Prop} (S : Stable P) {d l uv um} (hc : P d) : P (Device.commandFrame d l uv um) := by
  delta Device.commandFrame
  refine keeps_ite ?_ ?_
  · assumption
  · extract_lets -merge -useContext -underBinder +onlyGivenNames k0
    extract_lets -merge -useContext -underBinder +onlyGivenNames k1
    extract_lets -merge -useContext -underBinder +onlyGivenNames k2
    extract_lets -merge -useContext -underBinder +onlyGivenNames k3
    extract_lets -merge -useContext -underBinder +onlyGivenNames k4
    refine (Device.sendXout_keeps S) ?_
    refine (Device.updPs_keeps S) ?_
    refine (Device.psSend_keeps S) ?_
    assumption

theorem Device.beFlag_keeps {P : Device → Prop} (S : Stable P) {d e r sat} (hc : P d) : P (Device.beFlag d e r sat) := by
  delta Device.beFlag
  refine keeps_ite ?_ ?_
  · assumption
  · extract_lets -merge -useContext -underBinder +onlyGivenNames k0
    extract_lets -merge -useContext -underBinder +onlyGivenNames k1
    extract_lets -merge -useContext -underBinder +onlyGivenNames x2
    have hx2 : P x2 := by
      unfold x2
      refine (Device.wr_keeps S) ?_
      refine (Device.wr_keeps S) ?_
      assumption
    refine keeps_ite ?_ ?_
    · refine (Device.logRate_keeps S) ?_
      refine (Device.wr_keeps S) ?_
      exact hx2
    · exact hx2

theorem Device.bePut_keeps {P : Device → Prop} (S : Stable P) {d e r i n x} (hc : P d) : P (Device.bePut d e r i n x) := by
  delta Device.bePut
  extract_lets -merge -useContext -underBinder +onlyGivenNames k0
  refine (Device.beSet_keeps S) ?_
  refine (Device.beFlag_keeps S) ?_
  assumption

theorem Device.beAcc_keeps {P : Device → Prop} (S : Stable P) {d e r a x} (hc : P d) : P (Device.beAcc d e r a x) := by
  delta Device.beAcc
  extract_lets -merge -useContext -underBinder +onlyGivenNames k0
  refine (Device.updBe_keeps S) ?_
  refine (Device.beFlag_keeps S) ?_
  assumption

theorem Device.beParity_keeps {P : Device → Prop} (S : Stable P) {d e addr} (hc : P d) : P (Device.beParity d e addr) := by
  delta Device.beParity
  extract_lets -merge -useContext -underBinder +onlyGivenNames x0
  have hx0 : P x0 := by
    unfold x0
    refine (Device.updBe_keeps S) ?_
    refine (Device.wr_keeps S) ?_
    refine (Device.wr_keeps S) ?_
    assumption
  split
  · extract_lets -merge -useContext -underBinder +onlyGivenNames x1
    have hx1 : P x1 := by
      unfold x1
      refine (Device.log_keeps S) ?_
      exact hx0
    refine keeps_ite ?_ ?_
    · refine (Device.emergencyRetract_keeps S) ?_
      exact hx1
    · exact hx1
  · refine (Device.log_keeps S) ?_
    refine keeps_ite ?_ ?_
    · refine (Device.spEnter_keeps S) ?_
      exact hx0
    · exact hx0

theorem Device.beNext_keeps {P : Device → Prop} (S : Stable P) {d e w} (hc : P d) : P (Device.beNext d e w) := by
  delta Device.beNext
  refine (Device.updBe_keeps S) ?_
  assumption

theorem Device.beStep_keeps {P : Device → Prop} (S : Stable P) {d e bad op f} (hc : P d) (hf : ∀ w r d, P d → P (f w r d)) :
    P (Device.beStep d e bad op f) := by
  delta Device.beStep
  split
  · exact hc
  · refine keeps_ite (Device.beParity_keeps S hc) (keeps_ite hc (Device.beNext_keeps S (hf _ _ _ hc)))

end Sys2Proof.Machine
end

