-- ==== Sys2Proof/Laws/KeepDuplexOps.lean ====
section
/-!
SUPPORT. Which of registers, memory and fuses each operation and each command of Machine/DuplexOps.lean writes (Laws/Canon.lean).
-/
namespace Sys2Proof.Machine

theorem Device.setMode_keeps {P : Device → Prop} (S : Stable P) {d mode srv} (hc : P d) : P (Device.setMode d mode srv) := by
  delta Device.setMode
  refine keeps_ite ?_ ?_
  · assumption
  · refine (Device.wr_keeps S) ?_
    refine (Device.wr_keeps S) ?_
    assumption

theorem Device.fallbackTo_keeps {P : Device → Prop} (S : Stable P) {d good} (hc : P d) : P (Device.fallbackTo d good) := by
  delta Device.fallbackTo
  extract_lets -merge -useContext -underBinder +onlyGivenNames k0
  refine keeps_ite ?_ ?_
  · assumption
  · refine (Device.log_keeps S) ?_
    refine (Device.wr_keeps S) ?_
    refine (Device.wr_keeps S) ?_
    refine (Device.setMode_keeps S) ?_
    assumption

theorem Device.dxBoundary_keeps {P : Device → Prop} (S : Stable P) {d} (hc : P d) : P (Device.dxBoundary d) := by
  delta Device.dxBoundary
  refine keeps_ite ?_ ?_
  · assumption
  · refine keeps_ite ?_ ?_
    · refine (Device.setMode_keeps S) ?_
      assumption
    · extract_lets -merge -useContext -underBinder +onlyGivenNames k0
      extract_lets -merge -useContext -underBinder +onlyGivenNames k1
      extract_lets -merge -useContext -underBinder +onlyGivenNames x2
      have hx2 : P x2 := by
        unfold x2
        refine keeps_ite ?_ ?_
        · assumption
        · refine (Device.wr_keeps S) ?_
          assumption
      refine keeps_ite ?_ ?_
      · refine keeps_ite ?_ ?_
        · exact hx2
        · refine (Device.log_keeps S) ?_
          refine (Device.wr_keeps S) ?_
          refine (Device.wr_keeps S) ?_
          exact hx2
      · refine keeps_ite ?_ ?_
        · refine (Device.fallbackTo_keeps S) ?_
          exact hx2
        · refine keeps_ite ?_ ?_
          · refine (Device.fallbackTo_keeps S) ?_
            exact hx2
          · refine keeps_ite ?_ ?_
            · exact hx2
            · refine (Device.setMode_keeps S) ?_
              exact hx2

theorem Device.applyDxEntry_keeps {P : Device → Prop} (S : Stable P) {d v} (hc : P d) : P (Device.applyDxEntry d v) := by
  delta Device.applyDxEntry
  extract_lets -merge -useContext -underBinder +onlyGivenNames k0
  extract_lets -merge -useContext -underBinder +onlyGivenNames x1
  have hx1 : P x1 := by
    unfold x1
    refine (Device.wrAll_keeps S) ?_
    assumption
  extract_lets -merge -useContext -underBinder +onlyGivenNames x2
  have hx2 : P x2 := by
    unfold x2
    refine keeps_foldl ?_ ?_
    · intro d' x' hd'
      show P _
      refine (Device.wr_keeps S) ?_
      assumption
    · exact hx1
  extract_lets -merge -useContext -underBinder +onlyGivenNames x3
  have hx3 : P x3 := by
    unfold x3
    refine (Device.updElk_keeps S) ?_
    exact hx2
  refine keeps_ite ?_ ?_
  · exact hx3
  · extract_lets -merge -useContext -underBinder +onlyGivenNames x4
    have hx4 : P x4 := by
      unfold x4
      refine keeps_foldl ?_ ?_
      · intro d' x' hd'
        show P _
        refine (Device.wr_keeps S) ?_
        assumption
      · exact hx3
    extract_lets -merge -useContext -underBinder +onlyGivenNames x5
    have hx5 : P x5 := by
      unfold x5
      refine (Device.wrAll_keeps S) ?_
      exact hx4
    refine (Device.dxBoundary_keeps S) ?_
    refine (Device.updElk_keeps S) ?_
    exact hx5

theorem Device.deskewTrack_keeps {P : Device → Prop} (S : Stable P) {d step} (hc : P d) : P (Device.deskewTrack d step) := by
  delta Device.deskewTrack
  refine keeps_ite ?_ ?_
  · assumption
  · extract_lets -merge -useContext -underBinder +onlyGivenNames k0
    extract_lets -merge -useContext -underBinder +onlyGivenNames k1
    extract_lets -merge -useContext -underBinder +onlyGivenNames k2
    extract_lets -merge -useContext -underBinder +onlyGivenNames x3
    have hx3 : P x3 := by
      unfold x3
      refine (Device.wr_keeps S) ?_
      assumption
    refine keeps_ite ?_ ?_
    · refine (Device.logRate_keeps S) ?_
      refine (Device.dxCount_keeps S) ?_
      refine (Device.wr_keeps S) ?_
      exact hx3
    · exact hx3

theorem Device.loseVerify_keeps {P : Device → Prop} (S : Stable P) {d cause} (hc : P d) : P (Device.loseVerify d cause) := by
  delta Device.loseVerify
  refine keeps_ite ?_ ?_
  · assumption
  · extract_lets -merge -useContext -underBinder +onlyGivenNames x0
    have hx0 : P x0 := by
      unfold x0
      refine keeps_foldl ?_ ?_
      · intro d' x' hd'
        show P _
        refine (Device.endDue_keeps S) ?_
        refine (Device.updOp_keeps S) ?_
        assumption
      · assumption
    refine keeps_ite ?_ ?_
    · exact hx0
    · refine (Device.log_keeps S) ?_
      refine (Device.wr_keeps S) ?_
      refine (Device.updElk_keeps S) ?_
      exact hx0

theorem Device.relocateAll_keeps {P : Device → Prop} (S : Stable P) {d b is} (hc : P d) : P (Device.relocateAll d b is) := by
  delta Device.relocateAll
  split
  · assumption
  · refine keeps_foldl ?_ ?_
    · intro d' x' hd'
      show P _
      extract_lets -merge -useContext -underBinder +onlyGivenNames x0i0 x0
      have hx0 : P x0 := by
        unfold x0
        refine S.congr (d := d') ?_ rfl rfl rfl
        assumption
      extract_lets -merge -useContext -underBinder +onlyGivenNames x1i0 x1
      have hx1 : P x1 := by
        unfold x1
        exact S.congr hx0 rfl rfl rfl
      refine (Device.updTables_keeps S) ?_
      refine (Device.queueSeq_keeps S) ?_
      exact hx1
    · assumption

theorem Device.rewriteUnit_keeps {P : Device → Prop} (S : Stable P) {d id k spareFails} (hc : P d) : P (Device.rewriteUnit d id k spareFails) := by
  delta Device.rewriteUnit
  extract_lets -merge -useContext -underBinder +onlyGivenNames k0
  split
  · assumption
  · split
    · assumption
    · refine keeps_ite ?_ ?_
      · assumption
      · extract_lets -merge -useContext -underBinder +onlyGivenNames k1
        extract_lets -merge -useContext -underBinder +onlyGivenNames k2
        extract_lets -merge -useContext -underBinder +onlyGivenNames x3
        have hx3 : P x3 := by
          unfold x3
          refine (Device.log_keeps S) ?_
          refine (Device.updWr_keeps S) ?_
          assumption
        refine keeps_ite ?_ ?_
        · extract_lets -merge -useContext -underBinder +onlyGivenNames x4
          have hx4 : P x4 := by
            unfold x4
            refine (Device.updWr_keeps S) ?_
            exact hx3
          refine (Device.updHost_keeps S) ?_
          refine (Device.updTables_keeps S) ?_
          exact hx4
        · extract_lets -merge -useContext -underBinder +onlyGivenNames x5
          have hx5 : P x5 := by
            unfold x5
            refine (Device.updWr_keeps S) ?_
            exact hx3
          refine keeps_ite ?_ ?_
          · refine (Device.updHost_keeps S) ?_
            exact hx5
          · refine (Device.relocateAll_keeps S) ?_
            exact hx5

theorem Device.dropLn1Slots_keeps {P : Device → Prop} (S : Stable P) {d} (hc : P d) : P (Device.dropLn1Slots d) := by
  delta Device.dropLn1Slots
  refine keeps_ite ?_ ?_
  · assumption
  · extract_lets -merge -useContext -underBinder +onlyGivenNames k0
    extract_lets -merge -useContext -underBinder +onlyGivenNames k1
    extract_lets -merge -useContext -underBinder +onlyGivenNames x2
    have hx2 : P x2 := by
      unfold x2
      refine (Device.updCh_keeps S) ?_
      assumption
    extract_lets -merge -useContext -underBinder +onlyGivenNames x3
    have hx3 : P x3 := by
      unfold x3
      refine keeps_ite ?_ ?_
      · refine (Device.updCh_keeps S) ?_
        exact hx2
      · exact hx2
    refine keeps_foldl ?_ ?_
    · intro d' x' hd'
      show P _
      refine (Device.toStep6_keeps S) ?_
      assumption
    · exact hx3

theorem Device.endCapture_keeps {P : Device → Prop} (S : Stable P) {d l} (hc : P d) : P (Device.endCapture d l) := by
  delta Device.endCapture
  split
  · assumption
  · refine (Device.report_keeps S) ?_
    refine (Device.dropSlot_keeps S) ?_
    assumption

theorem Device.linkLost_keeps {P : Device → Prop} (S : Stable P) {d} (hc : P d) : P (Device.linkLost d) := by
  delta Device.linkLost
  extract_lets -merge -useContext -underBinder +onlyGivenNames x0
  have hx0 : P x0 := by
    unfold x0
    refine (Device.wr_keeps S) ?_
    refine (Device.wr_keeps S) ?_
    assumption
  extract_lets -merge -useContext -underBinder +onlyGivenNames x1
  have hx1 : P x1 := by
    unfold x1
    refine (Device.updElk_keeps S) ?_
    exact hx0
  extract_lets -merge -useContext -underBinder +onlyGivenNames x2
  have hx2 : P x2 := by
    unfold x2
    refine keeps_ite ?_ ?_
    · refine (Device.wr_keeps S) ?_
      refine (Device.wr_keeps S) ?_
      exact hx1
    · exact hx1
  extract_lets -merge -useContext -underBinder +onlyGivenNames x3i0 x3
  have hx3 : P x3 := by
    unfold x3
    refine keeps_ite ?_ ?_
    · refine (Device.wr_keeps S) ?_
      refine (Device.setMode_keeps S) ?_
      refine (Device.updElk_keeps S) ?_
      unfold x3i0
      refine (Device.dropLn1Slots_keeps S) ?_
      refine (Device.endCapture_keeps S) ?_
      exact hx2
    · exact hx2
  refine (Device.startDecoders_keeps S) ?_
  refine (Device.loseVerify_keeps S) ?_
  exact hx3

end Sys2Proof.Machine
end

