-- ==== Sys2Proof/Laws/KeepWriteOps.lean ====
section
/-!
SUPPORT. Which of registers, memory and fuses each operation and each command of Machine/WriteOps.lean writes (Laws/Canon.lean).
-/
namespace Sys2Proof.Machine

theorem Device.paWrite_keeps {P : Device → Prop} (S : Stable P) {d l k data} (hc : P d) : P (Device.paWrite d l k data) := by
  delta Device.paWrite
  refine keeps_ite ?_ ?_
  · assumption
  · refine (Device.updWr_keeps S) ?_
    assumption

theorem Device.selectHead_keeps {P : Device → Prop} (S : Stable P) {d l h} (hc : P d) : P (Device.selectHead d l h) := by
  delta Device.selectHead
  refine (Device.paWrite_keeps S) ?_
  assumption

theorem Device.paRewrite_keeps {P : Device → Prop} (S : Stable P) {d l} (hc : P d) : P (Device.paRewrite d l) := by
  delta Device.paRewrite
  extract_lets -merge -useContext -underBinder +onlyGivenNames k0
  extract_lets -merge -useContext -underBinder +onlyGivenNames x1
  have hx1 : P x1 := by
    unfold x1
    refine (Device.selectHead_keeps S) ?_
    refine (Device.paWrite_keeps S) ?_
    assumption
  extract_lets -merge -useContext -underBinder +onlyGivenNames x2
  have hx2 : P x2 := by
    unfold x2
    refine (Device.paWrite_keeps S) ?_
    refine (Device.paWrite_keeps S) ?_
    exact hx1
  refine (Device.paWrite_keeps S) ?_
  refine (Device.paWrite_keeps S) ?_
  refine (Device.paWrite_keeps S) ?_
  exact hx2

theorem Device.paSource_keeps {P : Device → Prop} (S : Stable P) {d l} (hc : P d) : P (Device.paSource d l) := by
  delta Device.paSource
  refine (Device.inhibit_keeps S) ?_
  refine (Device.wr_keeps S) ?_
  assumption

theorem Device.paGood_keeps {P : Device → Prop} (S : Stable P) {d l} (hc : P d) : P (Device.paGood d l) := by
  delta Device.paGood
  refine (Device.updWr_keeps S) ?_
  assumption

theorem Device.paLinkError_keeps {P : Device → Prop} (S : Stable P) {d l} (hc : P d) : P (Device.paLinkError d l) := by
  delta Device.paLinkError
  extract_lets -merge -useContext -underBinder +onlyGivenNames k0
  extract_lets -merge -useContext -underBinder +onlyGivenNames x1
  have hx1 : P x1 := by
    unfold x1
    refine (Device.updWr_keeps S) ?_
    refine (Device.incSat_keeps S) ?_
    assumption
  refine keeps_ite ?_ ?_
  · refine (Device.log_keeps S) ?_
    refine (Device.paSource_keeps S) ?_
    refine (Device.wr_keeps S) ?_
    refine (Device.wr_keeps S) ?_
    refine (Device.updWr_keeps S) ?_
    exact hx1
  · exact hx1

theorem Device.assistStop_keeps {P : Device → Prop} (S : Stable P) {d l} (hc : P d) : P (Device.assistStop d l) := by
  delta Device.assistStop
  refine keeps_ite ?_ ?_
  · refine (Device.updWr_keeps S) ?_
    assumption
  · refine keeps_ite ?_ ?_
    · refine (Device.stopLane_keeps S) ?_
      refine (Device.updWr_keeps S) ?_
      assumption
    · assumption

theorem Device.retriesOver_keeps {P : Device → Prop} (S : MemStable P) {d l ref} (hc : P d) : P (Device.retriesOver d l ref) := by
  delta Device.retriesOver
  extract_lets -merge -useContext -underBinder +onlyGivenNames k0
  extract_lets -merge -useContext -underBinder +onlyGivenNames k1
  extract_lets -merge -useContext -underBinder +onlyGivenNames x2
  have hx2 : P x2 := by
    unfold x2
    refine (Device.log_keeps S.toStable) ?_
    refine (Device.wr_keeps S.toStable) ?_
    assumption
  split
  · exact hx2
  · split
    · exact hx2
    · extract_lets -merge -useContext -underBinder +onlyGivenNames k3
      extract_lets -merge -useContext -underBinder +onlyGivenNames k4
      refine keeps_ite ?_ ?_
      · refine (Device.unitFault_keeps S) ?_
        exact hx2
      · extract_lets -merge -useContext -underBinder +onlyGivenNames k5
        extract_lets -merge -useContext -underBinder +onlyGivenNames x6
        have hx6 : P x6 := by
          unfold x6
          refine (Device.updTables_keeps S.toStable) ?_
          exact hx2
        refine (Device.closeWhenDone_keeps S.toStable) ?_
        refine (Device.updUnit_keeps S.toStable) ?_
        exact hx6

theorem Device.stoppedWrite_keeps {P : Device → Prop} (S : MemStable P) {d l ref} (hc : P d) : P (Device.stoppedWrite d l ref) := by
  delta Device.stoppedWrite
  extract_lets -merge -useContext -underBinder +onlyGivenNames k0
  extract_lets -merge -useContext -underBinder +onlyGivenNames x1
  have hx1 : P x1 := by
    unfold x1
    refine (Device.stopLane_keeps S.toStable) ?_
    refine (Device.updWr_keeps S.toStable) ?_
    assumption
  refine keeps_ite ?_ ?_
  · refine (Device.retriesOver_keeps S) ?_
    refine (Device.updWr_keeps S.toStable) ?_
    exact hx1
  · refine (Device.paRewrite_keeps S.toStable) ?_
    exact hx1

theorem Device.paFaults_keeps {P : Device → Prop} (S : Stable P) {d l old bits} (hc : P d) : P (Device.paFaults d l old bits) := by
  delta Device.paFaults
  extract_lets -merge -useContext -underBinder +onlyGivenNames k0
  extract_lets -merge -useContext -underBinder +onlyGivenNames x1
  have hx1 : P x1 := by
    unfold x1
    refine (Device.updWr_keeps S) ?_
    assumption
  extract_lets -merge -useContext -underBinder +onlyGivenNames x2
  have hx2 : P x2 := by
    unfold x2
    refine keeps_ite ?_ ?_
    · refine (Device.log_keeps S) ?_
      refine (Device.wr_keeps S) ?_
      refine (Device.wr_keeps S) ?_
      refine (Device.paSource_keeps S) ?_
      exact hx1
    · exact hx1
  extract_lets -merge -useContext -underBinder +onlyGivenNames x3
  have hx3 : P x3 := by
    unfold x3
    refine keeps_ite ?_ ?_
    · refine (Device.log_keeps S) ?_
      refine (Device.paSource_keeps S) ?_
      exact hx2
    · exact hx2
  extract_lets -merge -useContext -underBinder +onlyGivenNames x4
  have hx4 : P x4 := by
    unfold x4
    refine keeps_ite ?_ ?_
    · refine (Device.log_keeps S) ?_
      refine (Device.assistStop_keeps S) ?_
      refine (Device.wr_keeps S) ?_
      exact hx3
    · exact hx3
  extract_lets -merge -useContext -underBinder +onlyGivenNames x5
  have hx5 : P x5 := by
    unfold x5
    refine keeps_ite ?_ ?_
    · refine (Device.log_keeps S) ?_
      refine (Device.assistStop_keeps S) ?_
      exact hx4
    · exact hx4
  refine keeps_ite ?_ ?_
  · refine (Device.loseVerify_keeps S) ?_
    exact hx5
  · refine keeps_ite ?_ ?_
    · refine (Device.updElk_keeps S) ?_
      exact hx5
    · exact hx5

theorem Device.paFaultRead_keeps {P : Device → Prop} (S : Stable P) {d l data} (hc : P d) : P (Device.paFaultRead d l data) := by
  delta Device.paFaultRead
  refine keeps_ite ?_ ?_
  · refine (Device.paLinkError_keeps S) ?_
    assumption
  · extract_lets -merge -useContext -underBinder +onlyGivenNames k0
    refine (Device.paFaults_keeps S) ?_
    refine (Device.wr_keeps S) ?_
    refine (Device.paGood_keeps S) ?_
    assumption

theorem Device.sensRead_keeps {P : Device → Prop} (S : Stable P) {d l v} (hc : P d) : P (Device.sensRead d l v) := by
  delta Device.sensRead
  extract_lets -merge -useContext -underBinder +onlyGivenNames k0
  extract_lets -merge -useContext -underBinder +onlyGivenNames x1
  have hx1 : P x1 := by
    unfold x1
    refine (Device.updWr_keeps S) ?_
    assumption
  refine keeps_ite ?_ ?_
  · exact hx1
  · refine (Device.log_keeps S) ?_
    refine (Device.assistStop_keeps S) ?_
    refine (Device.wr_keeps S) ?_
    exact hx1

end Sys2Proof.Machine
end

