-- ==== Sys2Proof/Laws/KeepServoOps.lean ====
section
/-!
SUPPORT. Which of registers, memory and fuses each operation and each command of Machine/ServoOps.lean writes (Laws/Canon.lean).
-/
namespace Sys2Proof.Machine

theorem Device.pesValue_keeps {P : Device → Prop} (S : Stable P) {d l w} (hc : P d) : P ((Device.pesValue d l w).2) := by
  delta Device.pesValue
  split
  · refine keeps_snd ?_
    assumption
  · split
    rename_i v' d' heq'
    have hd' : P d' := by
      show P (v', d').2
      rw [← heq']
      refine (Device.takeFree_keeps S) ?_
      assumption
    refine keeps_snd ?_
    assumption

theorem Device.enterSeek_keeps {P : Device → Prop} (S : Stable P) {d l} (hc : P d) : P (Device.enterSeek d l) := by
  delta Device.enterSeek
  refine (Device.updSv_keeps S) ?_
  refine (Device.svEnter_keeps S) ?_
  assumption

theorem Device.enterSettle_keeps {P : Device → Prop} (S : Stable P) {d l} (hc : P d) : P (Device.enterSettle d l) := by
  delta Device.enterSettle
  refine (Device.updSv_keeps S) ?_
  refine (Device.svEnter_keeps S) ?_
  assumption

theorem Device.enterRecover_keeps {P : Device → Prop} (S : Stable P) {d l} (hc : P d) : P (Device.enterRecover d l) := by
  delta Device.enterRecover
  refine (Device.updSv_keeps S) ?_
  refine (Device.svEnter_keeps S) ?_
  assumption

theorem Device.enterUnload_keeps {P : Device → Prop} (S : Stable P) {d l failed} (hc : P d) : P (Device.enterUnload d l failed) := by
  delta Device.enterUnload
  refine (Device.updSv_keeps S) ?_
  refine (Device.svEnter_keeps S) ?_
  assumption

theorem Device.profileStep_keeps {P : Device → Prop} (S : Stable P) {d l} (hc : P d) : P (Device.profileStep d l) := by
  delta Device.profileStep
  extract_lets -merge -useContext -underBinder +onlyGivenNames k0
  refine keeps_ite ?_ ?_
  · assumption
  · extract_lets -merge -useContext -underBinder +onlyGivenNames k1
    generalize k1 = z2
    split
    · refine (Device.updSv_keeps S) ?_
      assumption
    · extract_lets -merge -useContext -underBinder +onlyGivenNames k3
      extract_lets -merge -useContext -underBinder +onlyGivenNames k4
      extract_lets -merge -useContext -underBinder +onlyGivenNames k5
      refine (Device.updSv_keeps S) ?_
      assumption

theorem Device.rampStep_keeps {P : Device → Prop} (S : Stable P) {d l} (hc : P d) : P (Device.rampStep d l) := by
  delta Device.rampStep
  extract_lets -merge -useContext -underBinder +onlyGivenNames k0
  refine (Device.updSv_keeps S) ?_
  assumption

theorem Device.latchXin_keeps {P : Device → Prop} (S : Stable P) {d l} (hc : P d) : P (Device.latchXin d l) := by
  delta Device.latchXin
  extract_lets -merge -useContext -underBinder +onlyGivenNames k0
  refine (Device.wrI_keeps S) ?_
  assumption

theorem Device.sampleStart_keeps {P : Device → Prop} (S : Stable P) {d l pesb} (hc : P d) : P (Device.sampleStart d l pesb) := by
  delta Device.sampleStart
  extract_lets -merge -useContext -underBinder +onlyGivenNames x0
  have hx0 : P x0 := by
    unfold x0
    refine (Device.exchangeDue_keeps S) ?_
    assumption
  extract_lets -merge -useContext -underBinder +onlyGivenNames x1
  have hx1 : P x1 := by
    unfold x1
    split
    · refine (Device.profileStep_keeps S) ?_
      exact hx0
    · refine (Device.rampStep_keeps S) ?_
      exact hx0
    · exact hx0
  extract_lets -merge -useContext -underBinder +onlyGivenNames x2
  have hx2 : P x2 := by
    unfold x2
    refine (Device.wr_keeps S) ?_
    refine (Device.latchXin_keeps S) ?_
    exact hx1
  extract_lets -merge -useContext -underBinder +onlyGivenNames k3
  refine (Device.beStart_keeps S) ?_
  exact hx2

theorem Device.pesCheck_keeps {P : Device → Prop} (S : Stable P) {d l} (hc : P d) : P (Device.pesCheck d l) := by
  delta Device.pesCheck
  extract_lets -merge -useContext -underBinder +onlyGivenNames k0
  refine keeps_ite ?_ ?_
  · refine (Device.pesInhibit_keeps S) ?_
    refine (Device.updSv_keeps S) ?_
    assumption
  · refine keeps_ite ?_ ?_
    · refine (Device.pesInhibit_keeps S) ?_
      refine (Device.updSv_keeps S) ?_
      assumption
    · refine (Device.updSv_keeps S) ?_
      assumption

theorem Device.countWedge_keeps {P : Device → Prop} (S : Stable P) {d l} (hc : P d) : P (Device.countWedge d l) := by
  delta Device.countWedge
  refine keeps_foldl ?_ ?_
  · intro d' x' hd'
    show P _
    split
    · assumption
    · refine (Device.wr_keeps S) ?_
      refine (Device.updOp_keeps S) ?_
      assumption
  · assumption

theorem Device.setOffset_keeps {P : Device → Prop} (S : Stable P) {d l off} (hc : P d) : P (Device.setOffset d l off) := by
  delta Device.setOffset
  refine keeps_ite ?_ ?_
  · assumption
  · extract_lets -merge -useContext -underBinder +onlyGivenNames x0
    have hx0 : P x0 := by
      unfold x0
      refine (Device.updSv_keeps S) ?_
      assumption
    refine keeps_ite ?_ ?_
    · refine (Device.enterSettle_keeps S) ?_
      exact hx0
    · exact hx0

theorem Device.svWake_keeps {P : Device → Prop} (S : Stable P) {d l} (hc : P d) : P (Device.svWake d l) := by
  delta Device.svWake
  refine keeps_ite ?_ ?_
  · refine (Device.svEnter_keeps S) ?_
    assumption
  · assumption

theorem Device.svRefuse_keeps {P : Device → Prop} (S : Stable P) {d l} (hc : P d) : P (Device.svRefuse d l) := by
  delta Device.svRefuse
  refine (Device.wr_keeps S) ?_
  assumption

theorem Device.psUp_keeps {P : Device → Prop} (S : Stable P) {d l} (hc : P d) : P (Device.psUp d l) := by
  delta Device.psUp
  refine (Device.wrB_keeps S) ?_
  assumption

end Sys2Proof.Machine
end

