-- ==== Sys2Proof/Laws/KeepSpindleOps.lean ====
section
/-!
SUPPORT. Which of registers, memory and fuses each operation and each command of Machine/SpindleOps.lean writes (Laws/Canon.lean).
-/
namespace Sys2Proof.Machine

theorem Device.divFree_keeps {P : Device → Prop} (S : Stable P) {d n m} (hc : P d) : P ((Device.divFree d n m).2) := by
  delta Device.divFree
  refine keeps_ite2 ?_ ?_
  · split
    rename_i v' d' heq'
    have hd' : P d' := by
      show P (v', d').2
      rw [← heq']
      refine (Device.takeFree_keeps S) ?_
      assumption
    refine keeps_snd ?_
    assumption
  · refine keeps_ite2 ?_ ?_
    · refine keeps_snd ?_
      assumption
    · split
      rename_i v' d' heq'
      have hd' : P d' := by
        show P (v', d').2
        rw [← heq']
        refine (Device.takeFree_keeps S) ?_
        assumption
      refine keeps_snd ?_
      assumption

theorem Device.measRpm_keeps {P : Device → Prop} (S : Stable P) {d} (hc : P d) : P ((Device.measRpm d).2) := by
  delta Device.measRpm
  refine (Device.divFree_keeps S) ?_
  assumption

theorem Device.electrical_keeps {P : Device → Prop} (S : Stable P) {d x unit} (hc : P d) : P ((Device.electrical d x unit).2) := by
  delta Device.electrical
  split
  rename_i v' d' heq'
  have hd' : P d' := by
    show P (v', d').2
    rw [← heq']
    refine (Device.divFree_keeps S) ?_
    assumption
  refine keeps_snd ?_
  assumption

theorem Device.chopFault_keeps {P : Device → Prop} (S : Stable P) {d} (hc : P d) : P (Device.chopFault d) := by
  delta Device.chopFault
  refine (Device.wr_keeps S) ?_
  refine (Device.wr_keeps S) ?_
  refine (Device.brkOff_keeps S) ?_
  assumption

theorem Device.decelStart_keeps {P : Device → Prop} (S : Stable P) {d} (hc : P d) : P (Device.decelStart d) := by
  delta Device.decelStart
  refine (Device.updSpin_keeps S) ?_
  assumption

theorem Device.decelKeep_keeps {P : Device → Prop} (S : Stable P) {d} (hc : P d) : P (Device.decelKeep d) := by
  delta Device.decelKeep
  refine keeps_ite ?_ ?_
  · assumption
  · refine (Device.decelStart_keeps S) ?_
    assumption

theorem Device.decelRecord_keeps {P : Device → Prop} (S : Stable P) {d} (hc : P d) : P (Device.decelRecord d) := by
  delta Device.decelRecord
  split
  · assumption
  · extract_lets -merge -useContext -underBinder +onlyGivenNames k0
    extract_lets -merge -useContext -underBinder +onlyGivenNames x1
    have hx1 : P x1 := by
      unfold x1
      refine (Device.wrAll_keeps S) ?_
      refine (Device.updSpin_keeps S) ?_
      assumption
    refine (Device.log_keeps S) ?_
    exact hx1

theorem Device.spCoast_keeps {P : Device → Prop} (S : Stable P) {d} (hc : P d) : P (Device.spCoast d) := by
  delta Device.spCoast
  refine keeps_ite ?_ ?_
  · assumption
  · refine (Device.spEnter_keeps S) ?_
    assumption

theorem Device.spInputFault_keeps {P : Device → Prop} (S : Stable P) {d ch check} (hc : P d) : P (Device.spInputFault d ch check) := by
  delta Device.spInputFault
  refine (Device.log_keeps S) ?_
  refine keeps_ite ?_ ?_
  · refine (Device.spEnter_keeps S) ?_
    assumption
  · assumption

theorem Device.listenStart_keeps {P : Device → Prop} (S : Stable P) {d byCmd} (hc : P d) : P (Device.listenStart d byCmd) := by
  delta Device.listenStart
  refine (Device.updSpin_keeps S) ?_
  refine (Device.spEnter_keeps S) ?_
  assumption

theorem Device.startAttempt_keeps {P : Device → Prop} (S : Stable P) {d} (hc : P d) : P (Device.startAttempt d) := by
  delta Device.startAttempt
  refine (Device.updSpin_keeps S) ?_
  refine (Device.spEnter_keeps S) ?_
  assumption

theorem Device.runFrom_keeps {P : Device → Prop} (S : Stable P) {d ramp} (hc : P d) : P (Device.runFrom d ramp) := by
  delta Device.runFrom
  refine (Device.updSpin_keeps S) ?_
  refine (Device.spEnter_keeps S) ?_
  assumption

theorem Device.rampHere_keeps {P : Device → Prop} (S : Stable P) {d} (hc : P d) : P ((Device.rampHere d).2) := by
  delta Device.rampHere
  refine (Device.divFree_keeps S) ?_
  assumption

theorem Device.runFromSpeed_keeps {P : Device → Prop} (S : Stable P) {d} (hc : P d) : P (Device.runFromSpeed d) := by
  delta Device.runFromSpeed
  split
  rename_i v' d' heq'
  have hd' : P d' := by
    show P (v', d').2
    rw [← heq']
    refine (Device.rampHere_keeps S) ?_
    assumption
  refine (Device.runFrom_keeps S) ?_
  assumption

theorem Device.enterReverse_keeps {P : Device → Prop} (S : Stable P) {d} (hc : P d) : P (Device.enterReverse d) := by
  delta Device.enterReverse
  refine (Device.updSpin_keeps S) ?_
  refine (Device.spEnter_keeps S) ?_
  assumption

theorem Device.attemptFails_keeps {P : Device → Prop} (S : Stable P) {d code} (hc : P d) : P (Device.attemptFails d code) := by
  delta Device.attemptFails
  extract_lets -merge -useContext -underBinder +onlyGivenNames k0
  extract_lets -merge -useContext -underBinder +onlyGivenNames x1
  have hx1 : P x1 := by
    unfold x1
    refine (Device.log_keeps S) ?_
    assumption
  refine keeps_ite ?_ ?_
  · refine (Device.updSpin_keeps S) ?_
    refine (Device.wr_keeps S) ?_
    exact hx1
  · refine (Device.spEnter_keeps S) ?_
    refine (Device.log_keeps S) ?_
    refine (Device.wr_keeps S) ?_
    exact hx1

theorem Device.brkOn_keeps {P : Device → Prop} (S : Stable P) {d} (hc : P d) : P (Device.brkOn d) := by
  delta Device.brkOn
  refine (Device.updSpin_keeps S) ?_
  refine (Device.wr_keeps S) ?_
  assumption

theorem Device.selfTest_keeps {P : Device → Prop} (S : Stable P) {d rise} (hc : P d) : P (Device.selfTest d rise) := by
  delta Device.selfTest
  refine keeps_ite ?_ ?_
  · assumption
  · refine keeps_ite ?_ ?_
    · refine (Device.wr_keeps S) ?_
      assumption
    · refine (Device.log_keeps S) ?_
      refine (Device.chopFault_keeps S) ?_
      assumption

theorem Device.dutyOf_keeps {P : Device → Prop} (S : Stable P) {d v ends vbus} (hc : P d) : P ((Device.dutyOf d v ends vbus).2) := by
  delta Device.dutyOf
  split
  rename_i v' d' heq'
  have hd' : P d' := by
    show P (v', d').2
    rw [← heq']
    refine (Device.divFree_keeps S) ?_
    assumption
  refine keeps_snd ?_
  assumption

theorem Device.currentLoops_keeps {P : Device → Prop} (S : Stable P) {d inp} (hc : P d) : P (Device.currentLoops d inp) := by
  delta Device.currentLoops
  split
  · extract_lets -merge -useContext -underBinder +onlyGivenNames x0
    have hx0 : P x0 := by
      unfold x0
      refine (Device.wrB_keeps S) ?_
      assumption
    extract_lets -merge -useContext -underBinder +onlyGivenNames k1
    extract_lets -merge -useContext -underBinder +onlyGivenNames k2
    extract_lets -merge -useContext -underBinder +onlyGivenNames k3
    extract_lets -merge -useContext -underBinder +onlyGivenNames k4
    split
    rename_i v' d' heq'
    have hd' : P d' := by
      show P (v', d').2
      rw [← heq']
      refine (Device.divFree_keeps S) ?_
      exact hx0
    split
    rename_i v' d' heq'
    have hd' : P d' := by
      show P (v', d').2
      rw [← heq']
      refine (Device.divFree_keeps S) ?_
      assumption
    extract_lets -merge -useContext -underBinder +onlyGivenNames k5
    extract_lets -merge -useContext -underBinder +onlyGivenNames k6
    split
    rename_i v' d' heq'
    have hd' : P d' := by
      show P (v', d').2
      rw [← heq']
      refine (Device.divFree_keeps S) ?_
      assumption
    split
    rename_i v' d' heq'
    have hd' : P d' := by
      show P (v', d').2
      rw [← heq']
      refine (Device.divFree_keeps S) ?_
      assumption
    extract_lets -merge -useContext -underBinder +onlyGivenNames k7
    extract_lets -merge -useContext -underBinder +onlyGivenNames k8
    extract_lets -merge -useContext -underBinder +onlyGivenNames k9
    extract_lets -merge -useContext -underBinder +onlyGivenNames k10
    extract_lets -merge -useContext -underBinder +onlyGivenNames k11
    split
    · split
      rename_i v' d' heq'
      have hd' : P d' := by
        show P (v', d').2
        rw [← heq']
        refine (Device.divFree_keeps S) ?_
        assumption
      split
      rename_i v' d' heq'
      have hd' : P d' := by
        show P (v', d').2
        rw [← heq']
        refine (Device.divFree_keeps S) ?_
        assumption
      split
      rename_i v' d' heq'
      have hd' : P d' := by
        show P (v', d').2
        rw [← heq']
        refine (Device.divFree_keeps S) ?_
        assumption
      split
      · extract_lets -merge -useContext -underBinder +onlyGivenNames k12
        split
        rename_i v' d' heq'
        have hd' : P d' := by
          show P (v', d').2
          rw [← heq']
          refine (Device.dutyOf_keeps S) ?_
          assumption
        split
        rename_i v' d' heq'
        have hd' : P d' := by
          show P (v', d').2
          rw [← heq']
          refine (Device.dutyOf_keeps S) ?_
          assumption
        split
        rename_i v' d' heq'
        have hd' : P d' := by
          show P (v', d').2
          rw [← heq']
          refine (Device.dutyOf_keeps S) ?_
          assumption
        refine (Device.updSpin_keeps S) ?_
        refine (Device.wrB_keeps S) ?_
        assumption

theorem Device.plausible_keeps {P : Device → Prop} (S : Stable P) {d} (hc : P d) : P (Device.plausible d) := by
  delta Device.plausible
  extract_lets -merge -useContext -underBinder +onlyGivenNames k0
  extract_lets -merge -useContext -underBinder +onlyGivenNames k1
  extract_lets -merge -useContext -underBinder +onlyGivenNames k2
  extract_lets -merge -useContext -underBinder +onlyGivenNames k3
  extract_lets -merge -useContext -underBinder +onlyGivenNames k4
  extract_lets -merge -useContext -underBinder +onlyGivenNames k5
  extract_lets -merge -useContext -underBinder +onlyGivenNames k6
  refine (Device.updSpin_keeps S) ?_
  assumption

theorem Device.spinOut_keeps {P : Device → Prop} (S : Stable P) {d outs inp} (hc : P d) : P (Device.spinOut d outs inp) := by
  delta Device.spinOut
  extract_lets -merge -useContext -underBinder +onlyGivenNames k0
  extract_lets -merge -useContext -underBinder +onlyGivenNames x1
  have hx1 : P x1 := by
    unfold x1
    refine (Device.updSpin_keeps S) ?_
    assumption
  refine keeps_ite ?_ ?_
  · refine (Device.currentLoops_keeps S) ?_
    refine (Device.plausible_keeps S) ?_
    exact hx1
  · exact hx1

end Sys2Proof.Machine
end

