-- ==== Sys2Proof/Laws/KeepBalance.lean ====
section
/-!
SUPPORT. Which of registers, memory and fuses each operation and each command of Machine/Balance.lean writes (Laws/Canon.lean).
-/
namespace Sys2Proof.Machine

theorem beNopEff_keeps {P : Device → Prop} (S : Stable P) {e bad d} (hc : P d) : P (beNopEff e bad d) := by
  delta beNopEff
  refine (Device.beStep_keeps S) ?_ ?_
  · assumption
  · intro b0 b1 b2 hb2
    show P _
    assumption

theorem beLdaEff_keeps {P : Device → Prop} (S : Stable P) {e bad d} (hc : P d) : P (beLdaEff e bad d) := by
  delta beLdaEff
  refine (Device.beStep_keeps S) ?_ ?_
  · assumption
  · intro b0 b1 b2 hb2
    show P _
    extract_lets -merge -useContext -underBinder +onlyGivenNames k0
    refine (Device.beAcc_keeps S) ?_
    assumption

theorem beMacEff_keeps {P : Device → Prop} (S : Stable P) {e bad d} (hc : P d) : P (beMacEff e bad d) := by
  delta beMacEff
  refine (Device.beStep_keeps S) ?_ ?_
  · assumption
  · intro b0 b1 b2 hb2
    show P _
    extract_lets -merge -useContext -underBinder +onlyGivenNames k0
    refine (Device.beAcc_keeps S) ?_
    assumption

theorem beMsuEff_keeps {P : Device → Prop} (S : Stable P) {e bad d} (hc : P d) : P (beMsuEff e bad d) := by
  delta beMsuEff
  refine (Device.beStep_keeps S) ?_ ?_
  · assumption
  · intro b0 b1 b2 hb2
    show P _
    extract_lets -merge -useContext -underBinder +onlyGivenNames k0
    refine (Device.beAcc_keeps S) ?_
    assumption

theorem beRndEff_keeps {P : Device → Prop} (S : Stable P) {e bad d} (hc : P d) : P (beRndEff e bad d) := by
  delta beRndEff
  refine (Device.beStep_keeps S) ?_ ?_
  · assumption
  · intro b0 b1 b2 hb2
    show P _
    refine (Device.bePut_keeps S) ?_
    assumption

theorem beAddEff_keeps {P : Device → Prop} (S : Stable P) {e bad d} (hc : P d) : P (beAddEff e bad d) := by
  delta beAddEff
  refine (Device.beStep_keeps S) ?_ ?_
  · assumption
  · intro b0 b1 b2 hb2
    show P _
    refine (Device.bePut_keeps S) ?_
    assumption

theorem beSubEff_keeps {P : Device → Prop} (S : Stable P) {e bad d} (hc : P d) : P (beSubEff e bad d) := by
  delta beSubEff
  refine (Device.beStep_keeps S) ?_ ?_
  · assumption
  · intro b0 b1 b2 hb2
    show P _
    refine (Device.bePut_keeps S) ?_
    assumption

theorem beMovEff_keeps {P : Device → Prop} (S : Stable P) {e bad d} (hc : P d) : P (beMovEff e bad d) := by
  delta beMovEff
  refine (Device.beStep_keeps S) ?_ ?_
  · assumption
  · intro b0 b1 b2 hb2
    show P _
    refine (Device.beSet_keeps S) ?_
    assumption

theorem beMulEff_keeps {P : Device → Prop} (S : Stable P) {e bad d} (hc : P d) : P (beMulEff e bad d) := by
  delta beMulEff
  refine (Device.beStep_keeps S) ?_ ?_
  · assumption
  · intro b0 b1 b2 hb2
    show P _
    refine (Device.bePut_keeps S) ?_
    assumption

theorem beLimEff_keeps {P : Device → Prop} (S : Stable P) {e bad d} (hc : P d) : P (beLimEff e bad d) := by
  delta beLimEff
  refine (Device.beStep_keeps S) ?_ ?_
  · assumption
  · intro b0 b1 b2 hb2
    show P _
    extract_lets -merge -useContext -underBinder +onlyGivenNames k0
    extract_lets -merge -useContext -underBinder +onlyGivenNames k1
    extract_lets -merge -useContext -underBinder +onlyGivenNames k2
    refine (Device.wrI_keeps S) ?_
    refine (Device.beSet_keeps S) ?_
    assumption

theorem beSelEff_keeps {P : Device → Prop} (S : Stable P) {e bad d} (hc : P d) : P (beSelEff e bad d) := by
  delta beSelEff
  refine (Device.beStep_keeps S) ?_ ?_
  · assumption
  · intro b0 b1 b2 hb2
    show P _
    refine (Device.beSet_keeps S) ?_
    assumption

theorem beInEff_keeps {P : Device → Prop} (S : Stable P) {e bad d} (hc : P d) : P (beInEff e bad d) := by
  delta beInEff
  refine (Device.beStep_keeps S) ?_ ?_
  · assumption
  · intro b0 b1 b2 hb2
    show P _
    refine (Device.beSet_keeps S) ?_
    assumption

theorem Device.laneOut_keeps {P : Device → Prop} (S : Stable P) {d l r p x} (hc : P d) : P (Device.laneOut d l r p x) := by
  delta Device.laneOut
  refine keeps_ite ?_ ?_
  · refine (Device.wrI_keeps S) ?_
    assumption
  · refine keeps_ite ?_ ?_
    · refine (Device.wrI_keeps S) ?_
      assumption
    · refine keeps_ite ?_ ?_
      · assumption
      · split
        · refine (Device.commandFrame_keeps S) ?_
          assumption
        · assumption

theorem beOutEff_keeps {P : Device → Prop} (S : Stable P) {e bad d} (hc : P d) : P (beOutEff e bad d) := by
  delta beOutEff
  refine (Device.beStep_keeps S) ?_ ?_
  · assumption
  · intro b0 b1 b2 hb2
    show P _
    extract_lets -merge -useContext -underBinder +onlyGivenNames k0
    extract_lets -merge -useContext -underBinder +onlyGivenNames k1
    extract_lets -merge -useContext -underBinder +onlyGivenNames x2
    have hx2 : P x2 := by
      unfold x2
      refine (Device.updBe_keeps S) ?_
      assumption
    split
    · refine (Device.laneOut_keeps S) ?_
      exact hx2
    · extract_lets -merge -useContext -underBinder +onlyGivenNames k3
      refine keeps_ite ?_ ?_
      · refine (Device.spinOut_keeps S) ?_
        exact hx2
      · exact hx2

theorem beXffEff_keeps {P : Device → Prop} (S : Stable P) {e bad d} (hc : P d) : P (beXffEff e bad d) := by
  delta beXffEff
  refine (Device.beStep_keeps S) ?_ ?_
  · assumption
  · intro b0 b1 b2 hb2
    show P _
    extract_lets -merge -useContext -underBinder +onlyGivenNames k0
    refine (Device.bePut_keeps S) ?_
    assumption

theorem beIntEff_keeps {P : Device → Prop} (S : Stable P) {e bad d} (hc : P d) : P (beIntEff e bad d) := by
  delta beIntEff
  refine (Device.beStep_keeps S) ?_ ?_
  · assumption
  · intro b0 b1 b2 hb2
    show P _
    extract_lets -merge -useContext -underBinder +onlyGivenNames k0
    extract_lets -merge -useContext -underBinder +onlyGivenNames k1
    extract_lets -merge -useContext -underBinder +onlyGivenNames k2
    refine (Device.bePut_keeps S) ?_
    assumption

theorem beBiqEff_keeps {P : Device → Prop} (S : Stable P) {e bad d} (hc : P d) : P (beBiqEff e bad d) := by
  delta beBiqEff
  refine (Device.beStep_keeps S) ?_ ?_
  · assumption
  · intro b0 b1 b2 hb2
    show P _
    extract_lets -merge -useContext -underBinder +onlyGivenNames k0
    extract_lets -merge -useContext -underBinder +onlyGivenNames k1
    extract_lets -merge -useContext -underBinder +onlyGivenNames k2
    extract_lets -merge -useContext -underBinder +onlyGivenNames k3
    extract_lets -merge -useContext -underBinder +onlyGivenNames k4
    extract_lets -merge -useContext -underBinder +onlyGivenNames k5
    extract_lets -merge -useContext -underBinder +onlyGivenNames k6
    extract_lets -merge -useContext -underBinder +onlyGivenNames x7
    have hx7 : P x7 := by
      unfold x7
      refine (Device.beFlag_keeps S) ?_
      assumption
    extract_lets -merge -useContext -underBinder +onlyGivenNames x8
    have hx8 : P x8 := by
      unfold x8
      refine (Device.bePut_keeps S) ?_
      exact hx7
    extract_lets -merge -useContext -underBinder +onlyGivenNames x9
    have hx9 : P x9 := by
      unfold x9
      refine (Device.bePut_keeps S) ?_
      exact hx8
    refine (Device.beSet_keeps S) ?_
    exact hx9

theorem beEndEff_keeps {P : Device → Prop} (S : Stable P) {e bad d} (hc : P d) : P (beEndEff e bad d) := by
  delta beEndEff
  refine (Device.beStep_keeps S) ?_ ?_
  · assumption
  · intro b0 b1 b2 hb2
    show P _
    refine (Device.updBe_keeps S) ?_
    refine (Device.wr_keeps S) ?_
    assumption

theorem beSwapEff_keeps {P : Device → Prop} (S : Stable P) {e d} (hc : P d) : P (beSwapEff e d) := by
  delta beSwapEff
  refine keeps_ite ?_ ?_
  · assumption
  · refine (Device.updBe_keeps S) ?_
    refine (Device.wr_keeps S) ?_
    assumption

theorem swapDoneEff_keeps {P : Device → Prop} (S : Stable P) {e badParity d} (hc : P d) : P (swapDoneEff e badParity d) := by
  delta swapDoneEff
  refine keeps_ite ?_ ?_
  · assumption
  · extract_lets -merge -useContext -underBinder +onlyGivenNames k0
    extract_lets -merge -useContext -underBinder +onlyGivenNames x1
    have hx1 : P x1 := by
      unfold x1
      refine (Device.wr_keeps S) ?_
      refine (Device.updBe_keeps S) ?_
      assumption
    refine keeps_ite ?_ ?_
    · refine (Device.log_keeps S) ?_
      refine (Device.wrAll_keeps S) ?_
      exact hx1
    · extract_lets -merge -useContext -underBinder +onlyGivenNames k2
      extract_lets -merge -useContext -underBinder +onlyGivenNames x3
      have hx3 : P x3 := by
        unfold x3
        refine (Device.updBe_keeps S) ?_
        exact hx1
      refine keeps_ite ?_ ?_
      · exact hx3
      · refine (Device.bankExchange_keeps S) ?_
        exact hx3

theorem beRunEff_keeps {P : Device → Prop} (S : Stable P) {e run d} (hc : P d) : P (beRunEff e run d) := by
  delta beRunEff
  refine keeps_ite ?_ ?_
  · refine (Device.wr_keeps S) ?_
    assumption
  · refine keeps_ite ?_ ?_
    · assumption
    · extract_lets -merge -useContext -underBinder +onlyGivenNames x0
      have hx0 : P x0 := by
        unfold x0
        refine (Device.wr_keeps S) ?_
        assumption
      split
      · refine (Device.svWake_keeps S) ?_
        exact hx0
      · exact hx0

theorem execBeNop_keeps {P : Device → Prop} (S : Stable P) {a0 a1 s t} (hc : P s.dev) (he : execBeNop a0 a1 s = .next t) : P t.dev := by
  delta execBeNop at he
  refine State.upd_keeps hc he ?_
  intro d hd
  show P _
  refine (beNopEff_keeps S) ?_
  assumption

theorem execBeLda_keeps {P : Device → Prop} (S : Stable P) {a0 a1 s t} (hc : P s.dev) (he : execBeLda a0 a1 s = .next t) : P t.dev := by
  delta execBeLda at he
  refine State.upd_keeps hc he ?_
  intro d hd
  show P _
  refine (beLdaEff_keeps S) ?_
  assumption

theorem execBeMac_keeps {P : Device → Prop} (S : Stable P) {a0 a1 s t} (hc : P s.dev) (he : execBeMac a0 a1 s = .next t) : P t.dev := by
  delta execBeMac at he
  refine State.upd_keeps hc he ?_
  intro d hd
  show P _
  refine (beMacEff_keeps S) ?_
  assumption

theorem execBeMsu_keeps {P : Device → Prop} (S : Stable P) {a0 a1 s t} (hc : P s.dev) (he : execBeMsu a0 a1 s = .next t) : P t.dev := by
  delta execBeMsu at he
  refine State.upd_keeps hc he ?_
  intro d hd
  show P _
  refine (beMsuEff_keeps S) ?_
  assumption

theorem execBeRnd_keeps {P : Device → Prop} (S : Stable P) {a0 a1 s t} (hc : P s.dev) (he : execBeRnd a0 a1 s = .next t) : P t.dev := by
  delta execBeRnd at he
  refine State.upd_keeps hc he ?_
  intro d hd
  show P _
  refine (beRndEff_keeps S) ?_
  assumption

theorem execBeAdd_keeps {P : Device → Prop} (S : Stable P) {a0 a1 s t} (hc : P s.dev) (he : execBeAdd a0 a1 s = .next t) : P t.dev := by
  delta execBeAdd at he
  refine State.upd_keeps hc he ?_
  intro d hd
  show P _
  refine (beAddEff_keeps S) ?_
  assumption

theorem execBeSub_keeps {P : Device → Prop} (S : Stable P) {a0 a1 s t} (hc : P s.dev) (he : execBeSub a0 a1 s = .next t) : P t.dev := by
  delta execBeSub at he
  refine State.upd_keeps hc he ?_
  intro d hd
  show P _
  refine (beSubEff_keeps S) ?_
  assumption

theorem execBeMov_keeps {P : Device → Prop} (S : Stable P) {a0 a1 s t} (hc : P s.dev) (he : execBeMov a0 a1 s = .next t) : P t.dev := by
  delta execBeMov at he
  refine State.upd_keeps hc he ?_
  intro d hd
  show P _
  refine (beMovEff_keeps S) ?_
  assumption

theorem execBeMul_keeps {P : Device → Prop} (S : Stable P) {a0 a1 s t} (hc : P s.dev) (he : execBeMul a0 a1 s = .next t) : P t.dev := by
  delta execBeMul at he
  refine State.upd_keeps hc he ?_
  intro d hd
  show P _
  refine (beMulEff_keeps S) ?_
  assumption

theorem execBeLim_keeps {P : Device → Prop} (S : Stable P) {a0 a1 s t} (hc : P s.dev) (he : execBeLim a0 a1 s = .next t) : P t.dev := by
  delta execBeLim at he
  refine State.upd_keeps hc he ?_
  intro d hd
  show P _
  refine (beLimEff_keeps S) ?_
  assumption

theorem execBeSel_keeps {P : Device → Prop} (S : Stable P) {a0 a1 s t} (hc : P s.dev) (he : execBeSel a0 a1 s = .next t) : P t.dev := by
  delta execBeSel at he
  refine State.upd_keeps hc he ?_
  intro d hd
  show P _
  refine (beSelEff_keeps S) ?_
  assumption

theorem execBeIn_keeps {P : Device → Prop} (S : Stable P) {a0 a1 s t} (hc : P s.dev) (he : execBeIn a0 a1 s = .next t) : P t.dev := by
  delta execBeIn at he
  refine State.upd_keeps hc he ?_
  intro d hd
  show P _
  refine (beInEff_keeps S) ?_
  assumption

theorem execBeOut_keeps {P : Device → Prop} (S : Stable P) {a0 a1 s t} (hc : P s.dev) (he : execBeOut a0 a1 s = .next t) : P t.dev := by
  delta execBeOut at he
  refine State.upd_keeps hc he ?_
  intro d hd
  show P _
  refine (beOutEff_keeps S) ?_
  assumption

theorem execBeXff_keeps {P : Device → Prop} (S : Stable P) {a0 a1 s t} (hc : P s.dev) (he : execBeXff a0 a1 s = .next t) : P t.dev := by
  delta execBeXff at he
  refine State.upd_keeps hc he ?_
  intro d hd
  show P _
  refine (beXffEff_keeps S) ?_
  assumption

theorem execBeInt_keeps {P : Device → Prop} (S : Stable P) {a0 a1 s t} (hc : P s.dev) (he : execBeInt a0 a1 s = .next t) : P t.dev := by
  delta execBeInt at he
  refine State.upd_keeps hc he ?_
  intro d hd
  show P _
  refine (beIntEff_keeps S) ?_
  assumption

theorem execBeBiq_keeps {P : Device → Prop} (S : Stable P) {a0 a1 s t} (hc : P s.dev) (he : execBeBiq a0 a1 s = .next t) : P t.dev := by
  delta execBeBiq at he
  refine State.upd_keeps hc he ?_
  intro d hd
  show P _
  refine (beBiqEff_keeps S) ?_
  assumption

theorem execBeEnd_keeps {P : Device → Prop} (S : Stable P) {a0 a1 s t} (hc : P s.dev) (he : execBeEnd a0 a1 s = .next t) : P t.dev := by
  delta execBeEnd at he
  refine State.upd_keeps hc he ?_
  intro d hd
  show P _
  refine (beEndEff_keeps S) ?_
  assumption

theorem execBeSwap_keeps {P : Device → Prop} (S : Stable P) {a0 s t} (hc : P s.dev) (he : execBeSwap a0 s = .next t) : P t.dev := by
  delta execBeSwap at he
  refine State.upd_keeps hc he ?_
  intro d hd
  show P _
  refine (beSwapEff_keeps S) ?_
  assumption

theorem execSwapCheckDone_keeps {P : Device → Prop} (S : Stable P) {a0 a1 s t} (hc : P s.dev) (he : execSwapCheckDone a0 a1 s = .next t) : P t.dev := by
  delta execSwapCheckDone at he
  refine State.upd_keeps hc he ?_
  intro d hd
  show P _
  refine (swapDoneEff_keeps S) ?_
  assumption

theorem execBeRunWrite_keeps {P : Device → Prop} (S : Stable P) {a0 a1 s t} (hc : P s.dev) (he : execBeRunWrite a0 a1 s = .next t) : P t.dev := by
  delta execBeRunWrite at he
  refine State.upd_keeps hc he ?_
  intro d hd
  show P _
  refine (beRunEff_keeps S) ?_
  assumption

end Sys2Proof.Machine
end

