-- ==== Sys2Proof/Laws/KeepCaches.lean ====
section
/-!
SUPPORT. Which of registers, memory and fuses each operation and each command of Machine/Caches.lean writes (Laws/Canon.lean).
-/
namespace Sys2Proof.Machine

theorem l2OpCompleteEff_keeps {P : Device → Prop} (S : MemStable P) {c d} (hc : P d) : P (l2OpCompleteEff c d) := by
  delta l2OpCompleteEff
  split
  · assumption
  · refine keeps_ite ?_ ?_
    · assumption
    · refine (Device.updCache_keeps S.toStable) ?_
      refine (Device.wr_keeps S.toStable) ?_
      refine (Device.runOp_keeps S) ?_
      assumption

theorem l2EnWriteEff_keeps {P : Device → Prop} (S : Stable P) {c v d} (hc : P d) : P (l2EnWriteEff c v d) := by
  delta l2EnWriteEff
  refine keeps_ite ?_ ?_
  · extract_lets -merge -useContext -underBinder +onlyGivenNames x0
    have hx0 : P x0 := by
      unfold x0
      refine keeps_ite ?_ ?_
      · assumption
      · refine (Device.wr_keeps S) ?_
        assumption
    refine (Device.wr_keeps S) ?_
    exact hx0
  · extract_lets -merge -useContext -underBinder +onlyGivenNames x1
    have hx1 : P x1 := by
      unfold x1
      refine keeps_ite ?_ ?_
      · refine (Device.log_keeps S) ?_
        refine (Device.wr_keeps S) ?_
        refine (Device.wr_keeps S) ?_
        assumption
      · assumption
    refine (Device.wr_keeps S) ?_
    exact hx1

theorem l2FillEff_keeps {P : Device → Prop} (S : MemStable P) {c a way d} (hc : P d) : P (l2FillEff c a way d) := by
  delta l2FillEff
  extract_lets -merge -useContext -underBinder +onlyGivenNames k0
  extract_lets -merge -useContext -underBinder +onlyGivenNames k1
  split
  · assumption
  · refine keeps_ite ?_ ?_
    · assumption
    · extract_lets -merge -useContext -underBinder +onlyGivenNames k2
      extract_lets -merge -useContext -underBinder +onlyGivenNames k3
      extract_lets -merge -useContext -underBinder +onlyGivenNames x4
      have hx4 : P x4 := by
        unfold x4
        refine (Device.updCache_keeps S.toStable) ?_
        assumption
      extract_lets -merge -useContext -underBinder +onlyGivenNames x5
      have hx5 : P x5 := by
        unfold x5
        refine (Device.placeLine_keeps S) ?_
        exact hx4
      refine (Device.serveWaiters_keeps S.toStable) ?_
      exact hx5

theorem l2WayDisableEff_keeps {P : Device → Prop} (S : Stable P) {c way d} (hc : P d) : P (l2WayDisableEff c way d) := by
  delta l2WayDisableEff
  extract_lets -merge -useContext -underBinder +onlyGivenNames k0
  extract_lets -merge -useContext -underBinder +onlyGivenNames k1
  refine keeps_ite ?_ ?_
  · assumption
  · refine keeps_ite ?_ ?_
    · refine (Device.updCache_keeps S) ?_
      assumption
    · assumption

theorem Device.retireLine_keeps {P : Device → Prop} (S : MemStable P) {c d x} (hc : P d) : P (Device.retireLine c d x) := by
  delta Device.retireLine
  refine keeps_ite ?_ ?_
  · refine keeps_ite ?_ ?_
    · refine (Device.log_keeps S.toStable) ?_
      refine (Device.wr_keeps S.toStable) ?_
      assumption
    · refine (Device.wr_keeps S.toStable) ?_
      assumption
  · refine (Device.writeBack_keeps S) ?_
    assumption

theorem l2WayDisableDoneEff_keeps {P : Device → Prop} (S : MemStable P) {c way d} (hc : P d) : P (l2WayDisableDoneEff c way d) := by
  delta l2WayDisableDoneEff
  split
  · assumption
  · extract_lets -merge -useContext -underBinder +onlyGivenNames x0
    have hx0 : P x0 := by
      unfold x0
      refine keeps_foldl ?_ ?_
      · intro d' x' hd'
        refine (Device.retireLine_keeps S) ?_
        assumption
      · assumption
    extract_lets -merge -useContext -underBinder +onlyGivenNames x1
    have hx1 : P x1 := by
      unfold x1
      refine (Device.updCache_keeps S.toStable) ?_
      exact hx0
    extract_lets -merge -useContext -underBinder +onlyGivenNames k2
    extract_lets -merge -useContext -underBinder +onlyGivenNames x3
    have hx3 : P x3 := by
      unfold x3
      refine (Device.log_keeps S.toStable) ?_
      refine (Device.wr_keeps S.toStable) ?_
      refine (Device.wr_keeps S.toStable) ?_
      exact hx1
    refine keeps_ite ?_ ?_
    · refine (Device.log_keeps S.toStable) ?_
      refine (Device.wr_keeps S.toStable) ?_
      exact hx3
    · exact hx3

theorem execL2Clean_keeps {P : Device → Prop} (S : Stable P) {a0 a1 s t} (hc : P s.dev) (he : execL2Clean a0 a1 s = .next t) : P t.dev := by
  delta execL2Clean at he
  refine State.upd_keeps hc he ?_
  intro d hd
  show P _
  refine (Device.postOp_keeps S) ?_
  assumption

theorem execL2Inval_keeps {P : Device → Prop} (S : Stable P) {a0 a1 s t} (hc : P s.dev) (he : execL2Inval a0 a1 s = .next t) : P t.dev := by
  delta execL2Inval at he
  refine State.upd_keeps hc he ?_
  intro d hd
  show P _
  refine (Device.postOp_keeps S) ?_
  assumption

theorem execL2CleanInval_keeps {P : Device → Prop} (S : Stable P) {a0 a1 s t} (hc : P s.dev) (he : execL2CleanInval a0 a1 s = .next t) : P t.dev := by
  delta execL2CleanInval at he
  refine State.upd_keeps hc he ?_
  intro d hd
  show P _
  refine (Device.postOp_keeps S) ?_
  assumption

theorem execL2Zline_keeps {P : Device → Prop} (S : Stable P) {a0 a1 s t} (hc : P s.dev) (he : execL2Zline a0 a1 s = .next t) : P t.dev := by
  delta execL2Zline at he
  refine State.upd_keeps hc he ?_
  intro d hd
  show P _
  refine (Device.postOp_keeps S) ?_
  assumption

theorem execL2CleanSetway_keeps {P : Device → Prop} (S : Stable P) {a0 a1 a2 a3 s t} (hc : P s.dev) (he : execL2CleanSetway a0 a1 a2 a3 s = .next t) : P t.dev := by
  delta execL2CleanSetway at he
  refine State.upd_keeps hc he ?_
  intro d hd
  show P _
  refine (Device.postOp_keeps S) ?_
  assumption

theorem execL2InvalSetway_keeps {P : Device → Prop} (S : Stable P) {a0 a1 a2 a3 s t} (hc : P s.dev) (he : execL2InvalSetway a0 a1 a2 a3 s = .next t) : P t.dev := by
  delta execL2InvalSetway at he
  refine State.upd_keeps hc he ?_
  intro d hd
  show P _
  refine (Device.postOp_keeps S) ?_
  assumption

theorem execL2CleanInvalSetway_keeps {P : Device → Prop} (S : Stable P) {a0 a1 a2 a3 s t} (hc : P s.dev) (he : execL2CleanInvalSetway a0 a1 a2 a3 s = .next t) : P t.dev := by
  delta execL2CleanInvalSetway at he
  refine State.upd_keeps hc he ?_
  intro d hd
  show P _
  refine (Device.postOp_keeps S) ?_
  assumption

theorem execL2CleanInvalAll_keeps {P : Device → Prop} (S : Stable P) {a0 a1 s t} (hc : P s.dev) (he : execL2CleanInvalAll a0 a1 s = .next t) : P t.dev := by
  delta execL2CleanInvalAll at he
  refine State.upd_keeps hc he ?_
  intro d hd
  show P _
  refine (Device.postOp_keeps S) ?_
  assumption

theorem execL2InvalAll_keeps {P : Device → Prop} (S : Stable P) {a0 a1 s t} (hc : P s.dev) (he : execL2InvalAll a0 a1 s = .next t) : P t.dev := by
  delta execL2InvalAll at he
  refine State.upd_keeps hc he ?_
  intro d hd
  show P _
  refine (Device.postOp_keeps S) ?_
  assumption

theorem execL2OperationComplete_keeps {P : Device → Prop} (S : MemStable P) {a0 s t} (hc : P s.dev) (he : execL2OperationComplete a0 s = .next t) : P t.dev := by
  delta execL2OperationComplete at he
  refine State.upd_keeps hc he ?_
  intro d hd
  show P _
  refine (l2OpCompleteEff_keeps S) ?_
  assumption

theorem execL2EnWrite_keeps {P : Device → Prop} (S : Stable P) {a0 a1 s t} (hc : P s.dev) (he : execL2EnWrite a0 a1 s = .next t) : P t.dev := by
  delta execL2EnWrite at he
  refine State.upd_keeps hc he ?_
  intro d hd
  show P _
  refine (l2EnWriteEff_keeps S) ?_
  assumption

theorem execL2FillComplete_keeps {P : Device → Prop} (S : MemStable P) {a0 a1 a2 s t} (hc : P s.dev) (he : execL2FillComplete a0 a1 a2 s = .next t) : P t.dev := by
  delta execL2FillComplete at he
  refine State.upd_keeps hc he ?_
  intro d hd
  show P _
  refine (l2FillEff_keeps S) ?_
  assumption

theorem execL2WayDisable_keeps {P : Device → Prop} (S : Stable P) {a0 a1 s t} (hc : P s.dev) (he : execL2WayDisable a0 a1 s = .next t) : P t.dev := by
  delta execL2WayDisable at he
  refine State.upd_keeps hc he ?_
  intro d hd
  show P _
  refine (l2WayDisableEff_keeps S) ?_
  assumption

theorem execL2WayDisableDone_keeps {P : Device → Prop} (S : MemStable P) {a0 a1 s t} (hc : P s.dev) (he : execL2WayDisableDone a0 a1 s = .next t) : P t.dev := by
  delta execL2WayDisableDone at he
  refine State.upd_keeps hc he ?_
  intro d hd
  show P _
  refine (l2WayDisableDoneEff_keeps S) ?_
  assumption

theorem execL2CeWindowEnd_keeps {P : Device → Prop} (S : Stable P) {a0 s t} (hc : P s.dev) (he : execL2CeWindowEnd a0 s = .next t) : P t.dev := by
  delta execL2CeWindowEnd at he
  refine State.upd_keeps hc he ?_
  intro d hd
  show P _
  refine (Device.updCache_keeps S) ?_
  assumption

end Sys2Proof.Machine
end

