-- ==== Sys2Proof/Laws/KeepChannel.lean ====
section
/-!
SUPPORT. Which of registers, memory and fuses each operation and each command of Machine/Channel.lean writes (Laws/Canon.lean).
-/
namespace Sys2Proof.Machine

theorem Device.passOwner_keeps {P : Device → Prop} (S : Stable P) {d l} (hc : P d) : P (Device.passOwner d l) := by
  delta Device.passOwner
  extract_lets -merge -useContext -underBinder +onlyGivenNames k0
  extract_lets -merge -useContext -underBinder +onlyGivenNames k1
  extract_lets -merge -useContext -underBinder +onlyGivenNames k2
  extract_lets -merge -useContext -underBinder +onlyGivenNames k3
  extract_lets -merge -useContext -underBinder +onlyGivenNames g4
  have hg4 : ∀ g4a0 , P (g4 g4a0) := by
    intro g4a0
    unfold g4
    show P _
    refine (Device.updLane_keeps S) ?_
    assumption
  split
  · extract_lets -merge -useContext -underBinder +onlyGivenNames k5
    extract_lets -merge -useContext -underBinder +onlyGivenNames k6
    refine keeps_ite ?_ ?_
    · assumption
    · refine keeps_ite ?_ ?_
      · exact hg4 _
      · exact hg4 _
  · refine keeps_ite ?_ ?_
    · exact hg4 _
    · refine keeps_ite ?_ ?_
      · exact hg4 _
      · assumption

theorem Device.replayHold_keeps {P : Device → Prop} (S : Stable P) {d l q k} (hc : P d) : P (Device.replayHold d l q k) := by
  delta Device.replayHold
  extract_lets -merge -useContext -underBinder +onlyGivenNames x0
  have hx0 : P x0 := by
    unfold x0
    refine (Device.incSat_keeps S) ?_
    refine (Device.wr_keeps S) ?_
    refine (Device.wr_keeps S) ?_
    assumption
  extract_lets -merge -useContext -underBinder +onlyGivenNames x1
  have hx1 : P x1 := by
    unfold x1
    refine (Device.logRate_keeps S) ?_
    refine (Device.chCount_keeps S) ?_
    exact hx0
  refine (Device.report_keeps S) ?_
  refine (Device.updOp_keeps S) ?_
  exact hx1

theorem readGateEff_keeps {P : Device → Prop} (S : Stable P) {l k deskew d} (hc : P d) : P (readGateEff l k deskew d) := by
  delta readGateEff
  extract_lets -merge -useContext -underBinder +onlyGivenNames x0
  have hx0 : P x0 := by
    unfold x0
    refine (Device.passOwner_keeps S) ?_
    assumption
  split
  · exact hx0
  · split
    · exact hx0
    · refine keeps_ite ?_ ?_
      · exact hx0
      · extract_lets -merge -useContext -underBinder +onlyGivenNames x1
        have hx1 : P x1 := by
          unfold x1
          refine (Device.updOp_keeps S) ?_
          exact hx0
        refine keeps_ite ?_ ?_
        · refine (Device.report_keeps S) ?_
          exact hx1
        · extract_lets -merge -useContext -underBinder +onlyGivenNames k2
          extract_lets -merge -useContext -underBinder +onlyGivenNames k3
          split
          · extract_lets -merge -useContext -underBinder +onlyGivenNames k4
            extract_lets -merge -useContext -underBinder +onlyGivenNames k5
            extract_lets -merge -useContext -underBinder +onlyGivenNames x6
            have hx6 : P x6 := by
              unfold x6
              refine (Device.updCh_keeps S) ?_
              exact hx1
            refine (Device.deskewTrack_keeps S) ?_
            refine (Device.wr_keeps S) ?_
            refine (Device.wr_keeps S) ?_
            refine (Device.updOp_keeps S) ?_
            exact hx6
          · refine (Device.replayHold_keeps S) ?_
            exact hx1

theorem Device.showCands_keeps {P : Device → Prop} (S : Stable P) {d l cs} (hc : P d) : P (Device.showCands d l cs) := by
  delta Device.showCands
  refine keeps_foldl ?_ ?_
  · intro d' x' hd'
    show P _
    split
    · refine S.setWord _ _ ?_
      assumption
    · refine (Device.wrI_keeps S) ?_
      refine (Device.wr_keeps S) ?_
      refine (Device.wr_keeps S) ?_
      assumption
  · assumption

theorem Device.adapt_keeps {P : Device → Prop} (S : Stable P) {d l o} (hc : P d) : P (Device.adapt d l o) := by
  delta Device.adapt
  extract_lets -merge -useContext -underBinder +onlyGivenNames x0
  have hx0 : P x0 := by
    unfold x0
    refine keeps_ite ?_ ?_
    · assumption
    · refine (Device.wr_keeps S) ?_
      assumption
  extract_lets -merge -useContext -underBinder +onlyGivenNames x1
  have hx1 : P x1 := by
    unfold x1
    refine (Device.wr_keeps S) ?_
    exact hx0
  refine keeps_ite ?_ ?_
  · exact hx1
  · extract_lets -merge -useContext -underBinder +onlyGivenNames k2
    extract_lets -merge -useContext -underBinder +onlyGivenNames x3
    have hx3 : P x3 := by
      unfold x3
      refine keeps_ite ?_ ?_
      · exact hx1
      · refine keeps_foldl ?_ ?_
        · intro d' x' hd'
          show P _
          refine (Device.wr_keeps S) ?_
          assumption
        · exact hx1
    refine keeps_ite ?_ ?_
    · exact hx3
    · refine keeps_foldl ?_ ?_
      · intro d' x' hd'
        show P _
        refine (Device.wr_keeps S) ?_
        assumption
      · exact hx3

theorem Device.captureFlags_keeps {P : Device → Prop} (S : Stable P) {d l s o} (hc : P d) : P (Device.captureFlags d l s o) := by
  delta Device.captureFlags
  extract_lets -merge -useContext -underBinder +onlyGivenNames x0
  have hx0 : P x0 := by
    unfold x0
    refine keeps_ite ?_ ?_
    · refine (Device.chCount_keeps S) ?_
      refine (Device.wr_keeps S) ?_
      assumption
    · assumption
  extract_lets -merge -useContext -underBinder +onlyGivenNames x1
  have hx1 : P x1 := by
    unfold x1
    refine keeps_ite ?_ ?_
    · refine (Device.logRate_keeps S) ?_
      refine (Device.chCount_keeps S) ?_
      refine (Device.incSat_keeps S) ?_
      refine (Device.wr_keeps S) ?_
      exact hx0
    · exact hx0
  refine keeps_ite ?_ ?_
  · refine (Device.logRate_keeps S) ?_
    refine (Device.chCount_keeps S) ?_
    refine (Device.wr_keeps S) ?_
    refine (Device.wr_keeps S) ?_
    exact hx1
  · exact hx1

theorem Device.linkParitySector_keeps {P : Device → Prop} (S : Stable P) {d l s} (hc : P d) : P (Device.linkParitySector d l s) := by
  delta Device.linkParitySector
  refine (Device.toStep6_keeps S) ?_
  refine (Device.logRate_keeps S) ?_
  refine (Device.dxCount_keeps S) ?_
  assumption

theorem captureEff_keeps {P : Device → Prop} (S : Stable P) {l o d} (hc : P d) : P (captureEff l o d) := by
  delta captureEff
  split
  · assumption
  · extract_lets -merge -useContext -underBinder +onlyGivenNames x0
    have hx0 : P x0 := by
      unfold x0
      refine (Device.captureFlags_keeps S) ?_
      refine (Device.adapt_keeps S) ?_
      assumption
    refine keeps_ite ?_ ?_
    · refine (Device.report_keeps S) ?_
      refine (Device.dropSlot_keeps S) ?_
      refine (Device.rplStatus_keeps S) ?_
      exact hx0
    · extract_lets -merge -useContext -underBinder +onlyGivenNames x1
      have hx1 : P x1 := by
        unfold x1
        refine keeps_ite ?_ ?_
        · refine (Device.dxCount_keeps S) ?_
          exact hx0
        · exact hx0
      extract_lets -merge -useContext -underBinder +onlyGivenNames k2
      extract_lets -merge -useContext -underBinder +onlyGivenNames k3
      extract_lets -merge -useContext -underBinder +onlyGivenNames x4
      have hx4 : P x4 := by
        unfold x4
        refine (Device.showCands_keeps S) ?_
        exact hx1
      extract_lets -merge -useContext -underBinder +onlyGivenNames x5
      have hx5 : P x5 := by
        unfold x5
        refine keeps_ite ?_ ?_
        · refine (Device.chCount_keeps S) ?_
          refine (Device.wr_keeps S) ?_
          exact hx4
        · exact hx4
      extract_lets -merge -useContext -underBinder +onlyGivenNames k6
      extract_lets -merge -useContext -underBinder +onlyGivenNames k7
      extract_lets -merge -useContext -underBinder +onlyGivenNames x8
      have hx8 : P x8 := by
        unfold x8
        refine (Device.updSlot_keeps S) ?_
        exact hx5
      refine keeps_ite ?_ ?_
      · refine (Device.linkParitySector_keeps S) ?_
        exact hx8
      · refine (Device.startDecoders_keeps S) ?_
        exact hx8

theorem Device.ldpcStatus_keeps {P : Device → Prop} (S : Stable P) {d l conv sOk iter usc} (hc : P d) : P (Device.ldpcStatus d l conv sOk iter usc) := by
  delta Device.ldpcStatus
  refine (Device.wr_keeps S) ?_
  refine (Device.wr_keeps S) ?_
  refine (Device.wrB_keeps S) ?_
  refine (Device.wrB_keeps S) ?_
  assumption

theorem Device.sealMismatch_keeps {P : Device → Prop} (S : Stable P) {d l s o} (hc : P d) : P (Device.sealMismatch d l s o) := by
  delta Device.sealMismatch
  refine (Device.log_keeps S) ?_
  refine (Device.chCount_keeps S) ?_
  refine (Device.wr_keeps S) ?_
  assumption

theorem Device.attemptFailed_keeps {P : Device → Prop} (S : Stable P) {d l s o} (hc : P d) : P (Device.attemptFailed d l s o) := by
  delta Device.attemptFailed
  extract_lets -merge -useContext -underBinder +onlyGivenNames k0
  refine keeps_ite ?_ ?_
  · refine (Device.toStep6_keeps S) ?_
    assumption
  · split
    · refine (Device.toStep6_keeps S) ?_
      assumption
    · refine (Device.updSlot_keeps S) ?_
      assumption

theorem attemptEff_keeps {P : Device → Prop} (S : Stable P) {dl o d} (hc : P d) : P (attemptEff dl o d) := by
  delta attemptEff
  extract_lets -merge -useContext -underBinder +onlyGivenNames k0
  split
  · assumption
  · extract_lets -merge -useContext -underBinder +onlyGivenNames x1
    have hx1 : P x1 := by
      unfold x1
      refine (Device.updCh_keeps S) ?_
      assumption
    split
    · refine (Device.startDecoders_keeps S) ?_
      exact hx1
    · extract_lets -merge -useContext -underBinder +onlyGivenNames x2i0 x2i1 x2i2 x2i3 x2
      have hx2 : P x2 := by
        unfold x2
        refine keeps_ite ?_ ?_
        · refine (Device.toStep6_keeps S) ?_
          refine (Device.log_keeps S) ?_
          refine (Device.wr_keeps S) ?_
          exact hx1
        · refine keeps_ite ?_ ?_
          · refine (Device.sectorGood_keeps S) ?_
            unfold x2i3
            refine (Device.ldpcStatus_keeps S) ?_
            exact hx1
          · refine (Device.attemptFailed_keeps S) ?_
            refine keeps_ite ?_ ?_
            · refine (Device.sealMismatch_keeps S) ?_
              unfold x2i3
              refine (Device.ldpcStatus_keeps S) ?_
              exact hx1
            · unfold x2i3
              refine (Device.ldpcStatus_keeps S) ?_
              exact hx1
      refine (Device.startDecoders_keeps S) ?_
      exact hx2

theorem stripeStartEff_keeps {P : Device → Prop} (S : Stable P) {l mode data d} (hc : P d) : P (stripeStartEff l mode data d) := by
  delta stripeStartEff
  extract_lets -merge -useContext -underBinder +onlyGivenNames k0
  refine keeps_ite ?_ ?_
  · assumption
  · refine (Device.wrAll_keeps S) ?_
    assumption

theorem Device.failPend_keeps {P : Device → Prop} (S : Stable P) {d l} (hc : P d) : P (Device.failPend d l) := by
  delta Device.failPend
  extract_lets -merge -useContext -underBinder +onlyGivenNames k0
  extract_lets -merge -useContext -underBinder +onlyGivenNames x1
  have hx1 : P x1 := by
    unfold x1
    refine (Device.updCh_keeps S) ?_
    assumption
  refine keeps_foldl ?_ ?_
  · intro d' x' hd'
    show P _
    refine (Device.sectorFailed_keeps S) ?_
    assumption
  · exact hx1

theorem stripeSolveEff_keeps {P : Device → Prop} (S : Stable P) {l band group bad parity d} (hc : P d) : P (stripeSolveEff l band group bad parity d) := by
  delta stripeSolveEff
  refine keeps_ite ?_ ?_
  · assumption
  · extract_lets -merge -useContext -underBinder +onlyGivenNames k0
    extract_lets -merge -useContext -underBinder +onlyGivenNames k1
    extract_lets -merge -useContext -underBinder +onlyGivenNames x2
    have hx2 : P x2 := by
      unfold x2
      refine (Device.wr_keeps S) ?_
      refine (Device.wr_keeps S) ?_
      assumption
    extract_lets -merge -useContext -underBinder +onlyGivenNames g3
    have hg3 : ∀ g3a0 (hg3a0 : P g3a0), P (g3 g3a0) := by
      intro g3a0 hg3a0
      unfold g3
      show P _
      refine (Device.failPend_keeps S) ?_
      refine (Device.updCh_keeps S) ?_
      assumption
    refine keeps_ite ?_ ?_
    · refine hg3 _ ?_
      refine (Device.wr_keeps S) ?_
      refine (Device.wr_keeps S) ?_
      exact hx2
    · refine keeps_ite ?_ ?_
      · refine hg3 _ ?_
        refine (Device.log_keeps S) ?_
        refine (Device.wr_keeps S) ?_
        refine (Device.wr_keeps S) ?_
        exact hx2
      · extract_lets -merge -useContext -underBinder +onlyGivenNames k4
        extract_lets -merge -useContext -underBinder +onlyGivenNames x5
        have hx5 : P x5 := by
          unfold x5
          refine (Device.wr_keeps S) ?_
          exact hx2
        extract_lets -merge -useContext -underBinder +onlyGivenNames x6
        have hx6 : P x6 := by
          unfold x6
          refine keeps_ite ?_ ?_
          · exact hx5
          · refine (Device.wr_keeps S) ?_
            exact hx5
        extract_lets -merge -useContext -underBinder +onlyGivenNames x7
        have hx7 : P x7 := by
          unfold x7
          refine (Device.updCh_keeps S) ?_
          exact hx6
        refine hg3 _ ?_
        refine keeps_foldl ?_ ?_
        · intro d' x' hd'
          show P _
          refine (Device.chCount_keeps S) ?_
          refine (Device.rplStatus_keeps S) ?_
          assumption
        · exact hx7

theorem chStopEff_keeps {P : Device → Prop} (S : Stable P) {l d} (hc : P d) : P (chStopEff l d) := by
  delta chStopEff
  extract_lets -merge -useContext -underBinder +onlyGivenNames k0
  refine keeps_ite ?_ ?_
  · assumption
  · extract_lets -merge -useContext -underBinder +onlyGivenNames x1
    have hx1 : P x1 := by
      unfold x1
      refine (Device.updCh_keeps S) ?_
      assumption
    extract_lets -merge -useContext -underBinder +onlyGivenNames k2
    extract_lets -merge -useContext -underBinder +onlyGivenNames x3
    have hx3 : P x3 := by
      unfold x3
      refine keeps_foldl ?_ ?_
      · intro d' x' hd'
        show P _
        refine (Device.toStep6_keeps S) ?_
        assumption
      · exact hx1
    extract_lets -merge -useContext -underBinder +onlyGivenNames k4
    extract_lets -merge -useContext -underBinder +onlyGivenNames x5
    have hx5 : P x5 := by
      unfold x5
      refine (Device.updCh_keeps S) ?_
      exact hx3
    refine keeps_foldl ?_ ?_
    · intro d' x' hd'
      show P _
      refine (Device.stopEvent_keeps S) ?_
      refine (Device.sectorFailed_keeps S) ?_
      assumption
    · exact hx5

theorem hzselLoadEff_keeps {P : Device → Prop} (S : Stable P) {l head zone d} (hc : P d) : P (hzselLoadEff l head zone d) := by
  delta hzselLoadEff
  refine keeps_ite ?_ ?_
  · assumption
  · extract_lets -merge -useContext -underBinder +onlyGivenNames k0
    extract_lets -merge -useContext -underBinder +onlyGivenNames k1
    extract_lets -merge -useContext -underBinder +onlyGivenNames x2
    have hx2 : P x2 := by
      unfold x2
      refine (Device.recheckGate_keeps S) ?_
      refine (Device.wr_keeps S) ?_
      refine (Device.wr_keeps S) ?_
      assumption
    refine keeps_ite ?_ ?_
    · refine (Device.updCh_keeps S) ?_
      exact hx2
    · refine (Device.updCh_keeps S) ?_
      exact hx2

theorem entryFetchedEff_keeps {P : Device → Prop} (S : MemStable P) {l d} (hc : P d) : P (entryFetchedEff l d) := by
  delta entryFetchedEff
  split
  · assumption
  · extract_lets -merge -useContext -underBinder +onlyGivenNames x0
    have hx0 : P x0 := by
      unfold x0
      refine (Device.updCh_keeps S.toStable) ?_
      assumption
    extract_lets -merge -useContext -underBinder +onlyGivenNames k1
    extract_lets -merge -useContext -underBinder +onlyGivenNames k2
    extract_lets -merge -useContext -underBinder +onlyGivenNames k3
    refine keeps_ite ?_ ?_
    · extract_lets -merge -useContext -underBinder +onlyGivenNames k4
      extract_lets -merge -useContext -underBinder +onlyGivenNames k5
      extract_lets -merge -useContext -underBinder +onlyGivenNames k6
      refine keeps_ite ?_ ?_
      · refine (Device.applyDxEntry_keeps S.toStable) ?_
        refine (Device.applyChEntry_keeps S.toStable) ?_
        refine (Device.flushCounts_keeps S) ?_
        exact hx0
      · refine (Device.log_keeps S.toStable) ?_
        refine (Device.rejectLoad_keeps S.toStable) ?_
        exact hx0
    · refine keeps_ite ?_ ?_
      · refine (Device.applyChEntry_keeps S.toStable) ?_
        refine (Device.flushCounts_keeps S) ?_
        exact hx0
      · refine (Device.rejectLoad_keeps S.toStable) ?_
        exact hx0

theorem boundaryEff_keeps {P : Device → Prop} (S : Stable P) {l d} (hc : P d) : P (boundaryEff l d) := by
  delta boundaryEff
  refine keeps_ite ?_ ?_
  · assumption
  · extract_lets -merge -useContext -underBinder +onlyGivenNames k0
    extract_lets -merge -useContext -underBinder +onlyGivenNames x1
    have hx1 : P x1 := by
      unfold x1
      refine (Device.updCh_keeps S) ?_
      assumption
    extract_lets -merge -useContext -underBinder +onlyGivenNames x2
    have hx2 : P x2 := by
      unfold x2
      refine (Device.wr_keeps S) ?_
      refine keeps_foldl ?_ ?_
      · intro d' x' hd'
        show P _
        refine (Device.setChReg_keeps S) ?_
        assumption
      · exact hx1
    refine keeps_ite ?_ ?_
    · refine (Device.dxBoundary_keeps S) ?_
      exact hx2
    · exact hx2

theorem Device.stepToward_keeps {P : Device → Prop} (S : Stable P) {d cur tgt} (hc : P d) : P (Device.stepToward d cur tgt) := by
  delta Device.stepToward
  extract_lets -merge -useContext -underBinder +onlyGivenNames k0
  extract_lets -merge -useContext -underBinder +onlyGivenNames k1
  refine keeps_ite ?_ ?_
  · refine (Device.wrI_keeps S) ?_
    assumption
  · refine keeps_ite ?_ ?_
    · refine (Device.wrI_keeps S) ?_
      assumption
    · assumption

theorem offsetAsymEff_keeps {P : Device → Prop} (S : Stable P) {l d} (hc : P d) : P (offsetAsymEff l d) := by
  delta offsetAsymEff
  refine (Device.stepToward_keeps S) ?_
  refine (Device.stepToward_keeps S) ?_
  assumption

theorem afeTempEff_keeps {P : Device → Prop} (S : Stable P) {l bias boost pole d} (hc : P d) : P (afeTempEff l bias boost pole d) := by
  delta afeTempEff
  refine (Device.updCh_keeps S) ?_
  assumption

theorem execReadGateOpen_keeps {P : Device → Prop} (S : Stable P) {a0 a1 a2 s t} (hc : P s.dev) (he : execReadGateOpen a0 a1 a2 s = .next t) : P t.dev := by
  delta execReadGateOpen at he
  refine State.upd_keeps hc he ?_
  intro d hd
  show P _
  refine (readGateEff_keeps S) ?_
  assumption

theorem execSectorCaptureComplete_keeps {P : Device → Prop} (S : Stable P) {a0 a1 s t} (hc : P s.dev) (he : execSectorCaptureComplete a0 a1 s = .next t) : P t.dev := by
  delta execSectorCaptureComplete at he
  refine State.upd_keeps hc he ?_
  intro d hd
  show P _
  refine (captureEff_keeps S) ?_
  assumption

theorem execLdpcAttemptComplete_keeps {P : Device → Prop} (S : Stable P) {a0 a1 s t} (hc : P s.dev) (he : execLdpcAttemptComplete a0 a1 s = .next t) : P t.dev := by
  delta execLdpcAttemptComplete at he
  refine State.upd_keeps hc he ?_
  intro d hd
  show P _
  refine (attemptEff_keeps S) ?_
  assumption

theorem execStripeStart_keeps {P : Device → Prop} (S : Stable P) {a0 a1 a2 s t} (hc : P s.dev) (he : execStripeStart a0 a1 a2 s = .next t) : P t.dev := by
  delta execStripeStart at he
  refine State.upd_keeps hc he ?_
  intro d hd
  show P _
  refine (stripeStartEff_keeps S) ?_
  assumption

theorem execStripeSolveComplete_keeps {P : Device → Prop} (S : Stable P) {a0 a1 a2 a3 a4 s t} (hc : P s.dev) (he : execStripeSolveComplete a0 a1 a2 a3 a4 s = .next t) : P t.dev := by
  delta execStripeSolveComplete at he
  refine State.upd_keeps hc he ?_
  intro d hd
  show P _
  refine (stripeSolveEff_keeps S) ?_
  assumption

theorem execChStop_keeps {P : Device → Prop} (S : Stable P) {a0 s t} (hc : P s.dev) (he : execChStop a0 s = .next t) : P t.dev := by
  delta execChStop at he
  refine State.upd_keeps hc he ?_
  intro d hd
  show P _
  refine (chStopEff_keeps S) ?_
  assumption

theorem execHzselLoad_keeps {P : Device → Prop} (S : Stable P) {a0 a1 a2 s t} (hc : P s.dev) (he : execHzselLoad a0 a1 a2 s = .next t) : P t.dev := by
  delta execHzselLoad at he
  refine State.upd_keeps hc he ?_
  intro d hd
  show P _
  refine (hzselLoadEff_keeps S) ?_
  assumption

theorem execAdaptationEntryFetched_keeps {P : Device → Prop} (S : MemStable P) {a0 s t} (hc : P s.dev) (he : execAdaptationEntryFetched a0 s = .next t) : P t.dev := by
  delta execAdaptationEntryFetched at he
  refine State.upd_keeps hc he ?_
  intro d hd
  show P _
  refine (entryFetchedEff_keeps S) ?_
  assumption

theorem execSectorBoundary_keeps {P : Device → Prop} (S : Stable P) {a0 s t} (hc : P s.dev) (he : execSectorBoundary a0 s = .next t) : P t.dev := by
  delta execSectorBoundary at he
  refine State.upd_keeps hc he ?_
  intro d hd
  show P _
  refine (boundaryEff_keeps S) ?_
  assumption

theorem execOffsetAsymStep_keeps {P : Device → Prop} (S : Stable P) {a0 s t} (hc : P s.dev) (he : execOffsetAsymStep a0 s = .next t) : P t.dev := by
  delta execOffsetAsymStep at he
  refine State.upd_keeps hc he ?_
  intro d hd
  show P _
  refine (offsetAsymEff_keeps S) ?_
  assumption

theorem execAfeTempCorrection_keeps {P : Device → Prop} (S : Stable P) {a0 a1 a2 a3 s t} (hc : P s.dev) (he : execAfeTempCorrection a0 a1 a2 a3 s = .next t) : P t.dev := by
  delta execAfeTempCorrection at he
  refine State.upd_keeps hc he ?_
  intro d hd
  show P _
  refine (afeTempEff_keeps S) ?_
  assumption

theorem execCounterFlush_keeps {P : Device → Prop} (S : MemStable P) {a0 a1 s t} (hc : P s.dev) (he : execCounterFlush a0 a1 s = .next t) : P t.dev := by
  delta execCounterFlush at he
  refine State.upd_keeps hc he ?_
  intro d hd
  show P _
  refine (Device.flushCounts_keeps S) ?_
  assumption

end Sys2Proof.Machine
end

