-- ==== Sys2Proof/Laws/KeepCipherEngine.lean ====
section
/-!
SUPPORT. Which of registers, memory and fuses each operation and each command of Machine/CipherEngine.lean writes (Laws/Canon.lean).
-/
namespace Sys2Proof.Machine

theorem Device.postGo_keeps {P : Device → Prop} (S : Stable P) {d source b} (hc : P d) : P (Device.postGo d source b) := by
  delta Device.postGo
  split
  · assumption
  · refine (Device.wrB_keeps S) ?_
    assumption
  · refine (Device.wrB_keeps S) ?_
    assumption

theorem cipherPostEff_keeps {P : Device → Prop} (S : Stable P) {source words d} (hc : P d) : P (cipherPostEff source words d) := by
  delta cipherPostEff
  extract_lets -merge -useContext -underBinder +onlyGivenNames k0
  extract_lets -merge -useContext -underBinder +onlyGivenNames k1
  extract_lets -merge -useContext -underBinder +onlyGivenNames k2
  refine keeps_ite ?_ ?_
  · refine (Device.postGo_keeps S) ?_
    assumption
  · extract_lets -merge -useContext -underBinder +onlyGivenNames x3
    have hx3 : P x3 := by
      unfold x3
      refine (Device.postGo_keeps S) ?_
      assumption
    extract_lets -merge -useContext -underBinder +onlyGivenNames g4
    have hg4 : ∀ g4a0 , P (g4 g4a0) := by
      intro g4a0
      unfold g4
      show P _
      refine (Device.cipherCpl_keeps S) ?_
      exact hx3
    refine keeps_ite ?_ ?_
    · exact hg4 _
    · refine keeps_ite ?_ ?_
      · exact hg4 _
      · split
        · exact hg4 _
        · extract_lets -merge -useContext -underBinder +onlyGivenNames k5
          refine (Device.slotEnter_keeps S) ?_
          exact S.congr hx3 rfl rfl rfl

theorem cipherPromoteEff_keeps {P : Device → Prop} (S : Stable P) {l tag d} (hc : P d) : P (cipherPromoteEff l tag d) := by
  delta cipherPromoteEff
  refine S.congr (d := d) ?_ rfl rfl rfl
  assumption

theorem Device.cipherEnter_keeps {P : Device → Prop} (S : Stable P) {d i e} (hc : P d) : P (Device.cipherEnter d i e) := by
  delta Device.cipherEnter
  extract_lets -merge -useContext -underBinder +onlyGivenNames x0i0 x0
  have hx0 : P x0 := by
    unfold x0
    refine S.congr (d := d) ?_ rfl rfl rfl
    assumption
  refine (Device.setPointer_keeps S) ?_
  exact hx0

theorem cipherStartEff_keeps {P : Device → Prop} (S : Stable P) {d} (hc : P d) : P (cipherStartEff d) := by
  delta cipherStartEff
  split
  · split
    · refine (Device.cipherEnter_keeps S) ?_
      assumption
    · refine keeps_ite ?_ ?_
      · assumption
      · split
        · refine (Device.cipherEnter_keeps S) ?_
          assumption
        · assumption
  · refine keeps_ite ?_ ?_
    · assumption
    · split
      · refine (Device.cipherEnter_keeps S) ?_
        refine S.congr (d := d) ?_ rfl rfl rfl
        assumption
      · assumption

theorem cipherResumeEff_keeps {P : Device → Prop} (S : Stable P) {d} (hc : P d) : P (cipherResumeEff d) := by
  delta cipherResumeEff
  split
  · refine keeps_ite ?_ ?_
    · assumption
    · refine S.congr (d := d) ?_ rfl rfl rfl
      assumption
  · assumption

theorem Device.cipherUnits_keeps {P : Device → Prop} (S : MemStable P) {e ks stream failAt n j out d} (hc : P d) :
    P (Device.cipherUnits e ks stream failAt n j out d).2.2.2 := by
  induction n generalizing j out d with
  | zero => exact hc
  | succ n ih =>
    unfold Device.cipherUnits
    simp only
    split
    · exact hc
    · split
      · exact hc
      · split
        · exact ih hc
        · exact ih (Device.setWords_keeps S hc)

theorem cipherCompleteEff_keeps {P : Device → Prop} (S : MemStable P) {stream failAt d} (hc : P d) : P (cipherCompleteEff stream failAt d) := by
  delta cipherCompleteEff
  split
  · assumption
  · extract_lets -merge -useContext -underBinder +onlyGivenNames k0
    extract_lets -merge -useContext -underBinder +onlyGivenNames k1
    extract_lets -merge -useContext -underBinder +onlyGivenNames p2
    extract_lets -merge -useContext -underBinder +onlyGivenNames x3
    have hx3 : P x3 := by
      unfold x3
      refine (Device.cipherUnits_keeps S) ?_
      assumption
    extract_lets -merge -useContext -underBinder +onlyGivenNames x4
    have hx4 : P x4 := by
      unfold x4
      refine keeps_ite ?_ ?_
      · exact hx3
      · refine (Device.emit_keeps S.toStable) ?_
        exact hx3
    extract_lets -merge -useContext -underBinder +onlyGivenNames x5i0 x5
    have hx5 : P x5 := by
      unfold x5
      exact S.congr hx4 rfl rfl rfl
    refine (Device.cipherCpl_keeps S.toStable) ?_
    refine (Device.slotLeave_keeps S.toStable) ?_
    exact hx5

theorem cxCplPopEff_keeps {P : Device → Prop} (S : Stable P) {who security d} (hc : P d) : P (cxCplPopEff who security d) := by
  delta cxCplPopEff
  extract_lets -merge -useContext -underBinder +onlyGivenNames k0
  refine keeps_ite ?_ ?_
  · refine (Device.emit_keeps S) ?_
    assumption
  · extract_lets -merge -useContext -underBinder +onlyGivenNames x1
    have hx1 : P x1 := by
      unfold x1
      refine (Device.emit_keeps S) ?_
      assumption
    refine keeps_ite ?_ ?_
    · exact S.congr hx1 rfl rfl rfl
    · exact S.congr hx1 rfl rfl rfl

theorem Device.kcmd_keeps {P : Device → Prop} (S : Stable P) {d who op n r} (hc0 : P d) (hc1 : P r.2) : P (Device.kcmd d who op n r) := by
  delta Device.kcmd
  refine keeps_ite ?_ ?_
  · refine (Device.keyDone_keeps S) ?_
    assumption
  · refine (Device.emit_keeps S) ?_
    assumption

theorem keyDrainedEff_keeps {P : Device → Prop} (S : Stable P) {n d} (hc : P d) : P (keyDrainedEff n d) := by
  delta keyDrainedEff
  extract_lets -merge -useContext -underBinder +onlyGivenNames k0
  refine keeps_ite ?_ ?_
  · refine (Device.setSlot_keeps S) ?_
    assumption
  · assumption

theorem Device.unmapSlot_keeps {P : Device → Prop} (S : Stable P) {d n} (hc : P d) : P (Device.unmapSlot d n) := by
  delta Device.unmapSlot
  refine keeps_foldl ?_ ?_
  · intro d' x' hd'
    show P _
    refine keeps_ite ?_ ?_
    · refine (Device.wr_keeps S) ?_
      refine (Device.wr_keeps S) ?_
      assumption
    · assumption
  · assumption

theorem keyErasedEff_keeps {P : Device → Prop} (S : Stable P) {n d} (hc : P d) : P (keyErasedEff n d) := by
  delta keyErasedEff
  extract_lets -merge -useContext -underBinder +onlyGivenNames k0
  refine keeps_ite ?_ ?_
  · refine (Device.log_keeps S) ?_
    refine (Device.setSlot_keeps S) ?_
    refine (Device.unmapSlot_keeps S) ?_
    assumption
  · assumption

theorem keyDrainTimeoutEff_keeps {P : Device → Prop} (S : Stable P) {n d} (hc : P d) : P (keyDrainTimeoutEff n d) := by
  delta keyDrainTimeoutEff
  extract_lets -merge -useContext -underBinder +onlyGivenNames k0
  refine keeps_ite ?_ ?_
  · refine (Device.log_keeps S) ?_
    refine (Device.wr_keeps S) ?_
    refine (Device.setSlot_keeps S) ?_
    assumption
  · assumption

theorem Device.mailbox_keeps {P : Device → Prop} (S : MemStable P) {d r} (hc : P d) : P ((Device.mailbox d r).2) := by
  delta Device.mailbox
  extract_lets -merge -useContext -underBinder +onlyGivenNames k0
  split
  · refine keeps_ite2 ?_ ?_
    · refine keeps_snd ?_
      assumption
    · refine (Device.keyLoad_keeps S.toStable) ?_
      refine (Device.wr_keeps S.toStable) ?_
      refine (Device.wr_keeps S.toStable) ?_
      assumption
  · refine keeps_ite2 ?_ ?_
    · refine keeps_snd ?_
      assumption
    · refine (Device.keyGenerate_keeps S) ?_
      assumption
  · refine keeps_ite2 ?_ ?_
    · refine keeps_snd ?_
      assumption
    · refine (Device.keyErase_keeps S.toStable) ?_
      assumption
  · refine keeps_ite2 ?_ ?_
    · refine keeps_snd ?_
      assumption
    · refine (Device.keyMap_keeps S.toStable) ?_
      assumption
  · refine keeps_ite2 ?_ ?_
    · refine keeps_snd ?_
      assumption
    · refine (Device.keyMap_keeps S.toStable) ?_
      assumption

theorem keyMailboxEff_keeps {P : Device → Prop} (S : MemStable P) {who r d} (hc : P d) : P (keyMailboxEff who r d) := by
  delta keyMailboxEff
  refine keeps_ite ?_ ?_
  · refine (Device.emit_keeps S.toStable) ?_
    assumption
  · extract_lets -merge -useContext -underBinder +onlyGivenNames p0
    refine (Device.wr_keeps S.toStable) ?_
    refine (Device.wr_keeps S.toStable) ?_
    refine (Device.wr_keeps S.toStable) ?_
    refine (Device.mailbox_keeps S) ?_
    assumption

theorem cxEnWriteEff_keeps {P : Device → Prop} (S : Stable P) {who v d} (hc : P d) : P (cxEnWriteEff who v d) := by
  delta cxEnWriteEff
  refine keeps_ite ?_ ?_
  · refine (Device.emit_keeps S) ?_
    assumption
  · refine keeps_ite ?_ ?_
    · assumption
    · refine (Device.wr_keeps S) ?_
      assumption

theorem jtagAccessEff_keeps {P : Device → Prop} (S : Stable P) {a d} (hc : P d) : P (jtagAccessEff a d) := by
  delta jtagAccessEff
  extract_lets -merge -useContext -underBinder +onlyGivenNames k0
  refine keeps_ite ?_ ?_
  · refine (Device.emit_keeps S) ?_
    assumption
  · extract_lets -merge -useContext -underBinder +onlyGivenNames x1i0 x1
    have hx1 : P x1 := by
      unfold x1
      refine keeps_ite ?_ ?_
      · assumption
      · refine (Device.zeroiseAll_keeps S) ?_
        refine S.congr (d := d) ?_ rfl rfl rfl
        assumption
    refine (Device.emit_keeps S) ?_
    exact hx1

theorem execCipherEntryPost_keeps {P : Device → Prop} (S : Stable P) {a0 a1 s t} (hc : P s.dev) (he : execCipherEntryPost a0 a1 s = .next t) : P t.dev := by
  delta execCipherEntryPost at he
  refine State.upd_keeps hc he ?_
  intro d hd
  show P _
  refine (cipherPostEff_keeps S) ?_
  assumption

theorem execCipherUrgentPromote_keeps {P : Device → Prop} (S : Stable P) {a0 a1 s t} (hc : P s.dev) (he : execCipherUrgentPromote a0 a1 s = .next t) : P t.dev := by
  delta execCipherUrgentPromote at he
  refine State.upd_keeps hc he ?_
  intro d hd
  show P _
  refine (cipherPromoteEff_keeps S) ?_
  assumption

theorem execCipherMessageStart_keeps {P : Device → Prop} (S : Stable P) {s t} (hc : P s.dev) (he : execCipherMessageStart s = .next t) : P t.dev := by
  delta execCipherMessageStart at he
  refine State.upd_keeps hc he ?_
  intro d hd
  show P _
  refine (cipherStartEff_keeps S) ?_
  assumption

theorem execCipherResume_keeps {P : Device → Prop} (S : Stable P) {s t} (hc : P s.dev) (he : execCipherResume s = .next t) : P t.dev := by
  delta execCipherResume at he
  refine State.upd_keeps hc he ?_
  intro d hd
  show P _
  refine (cipherResumeEff_keeps S) ?_
  assumption

theorem execCipherMessageComplete_keeps {P : Device → Prop} (S : MemStable P) {a0 a1 s t} (hc : P s.dev) (he : execCipherMessageComplete a0 a1 s = .next t) : P t.dev := by
  delta execCipherMessageComplete at he
  refine State.upd_keeps hc he ?_
  intro d hd
  show P _
  refine (cipherCompleteEff_keeps S) ?_
  assumption

theorem execCxCplPop_keeps {P : Device → Prop} (S : Stable P) {a0 a1 s t} (hc : P s.dev) (he : execCxCplPop a0 a1 s = .next t) : P t.dev := by
  delta execCxCplPop at he
  refine State.upd_keeps hc he ?_
  intro d hd
  show P _
  refine (cxCplPopEff_keeps S) ?_
  assumption

theorem execKeyLoad_keeps {P : Device → Prop} (S : Stable P) {a0 a1 s t} (hc : P s.dev) (he : execKeyLoad a0 a1 s = .next t) : P t.dev := by
  delta execKeyLoad at he
  refine State.upd_keeps hc he ?_
  intro d hd
  show P _
  refine (Device.kcmd_keeps S) ?_ ?_
  · assumption
  · refine (Device.keyLoad_keeps S) ?_
    assumption

theorem execKeyGenerate_keeps {P : Device → Prop} (S : MemStable P) {a0 a1 a2 a3 a4 s t} (hc : P s.dev) (he : execKeyGenerate a0 a1 a2 a3 a4 s = .next t) : P t.dev := by
  delta execKeyGenerate at he
  refine State.upd_keeps hc he ?_
  intro d hd
  show P _
  refine (Device.kcmd_keeps S.toStable) ?_ ?_
  · assumption
  · refine (Device.keyGenerate_keeps S) ?_
    assumption

theorem execKeyErase_keeps {P : Device → Prop} (S : Stable P) {a0 a1 s t} (hc : P s.dev) (he : execKeyErase a0 a1 s = .next t) : P t.dev := by
  delta execKeyErase at he
  refine State.upd_keeps hc he ?_
  intro d hd
  show P _
  refine (Device.kcmd_keeps S) ?_ ?_
  · assumption
  · refine (Device.keyErase_keeps S) ?_
    assumption

theorem execKeyMap_keeps {P : Device → Prop} (S : Stable P) {a0 a1 a2 s t} (hc : P s.dev) (he : execKeyMap a0 a1 a2 s = .next t) : P t.dev := by
  delta execKeyMap at he
  refine State.upd_keeps hc he ?_
  intro d hd
  show P _
  refine (Device.kcmd_keeps S) ?_ ?_
  · assumption
  · refine (Device.keyMap_keeps S) ?_
    assumption

theorem execKeyGenerationDrained_keeps {P : Device → Prop} (S : Stable P) {a0 s t} (hc : P s.dev) (he : execKeyGenerationDrained a0 s = .next t) : P t.dev := by
  delta execKeyGenerationDrained at he
  refine State.upd_keeps hc he ?_
  intro d hd
  show P _
  refine (keyDrainedEff_keeps S) ?_
  assumption

theorem execKeyEraseDrained_keeps {P : Device → Prop} (S : Stable P) {a0 s t} (hc : P s.dev) (he : execKeyEraseDrained a0 s = .next t) : P t.dev := by
  delta execKeyEraseDrained at he
  refine State.upd_keeps hc he ?_
  intro d hd
  show P _
  refine (keyErasedEff_keeps S) ?_
  assumption

theorem execKeyDrainTimeout_keeps {P : Device → Prop} (S : Stable P) {a0 s t} (hc : P s.dev) (he : execKeyDrainTimeout a0 s = .next t) : P t.dev := by
  delta execKeyDrainTimeout at he
  refine State.upd_keeps hc he ?_
  intro d hd
  show P _
  refine (keyDrainTimeoutEff_keeps S) ?_
  assumption

theorem execKeyMailboxRequest_keeps {P : Device → Prop} (S : MemStable P) {a0 a1 s t} (hc : P s.dev) (he : execKeyMailboxRequest a0 a1 s = .next t) : P t.dev := by
  delta execKeyMailboxRequest at he
  refine State.upd_keeps hc he ?_
  intro d hd
  show P _
  refine (keyMailboxEff_keeps S) ?_
  assumption

theorem execCxCtrlEnWrite_keeps {P : Device → Prop} (S : Stable P) {a0 a1 s t} (hc : P s.dev) (he : execCxCtrlEnWrite a0 a1 s = .next t) : P t.dev := by
  delta execCxCtrlEnWrite at he
  refine State.upd_keeps hc he ?_
  intro d hd
  show P _
  refine (cxEnWriteEff_keeps S) ?_
  assumption

theorem execJtagSecurityAccess_keeps {P : Device → Prop} (S : Stable P) {a0 s t} (hc : P s.dev) (he : execJtagSecurityAccess a0 s = .next t) : P t.dev := by
  delta execJtagSecurityAccess at he
  refine State.upd_keeps hc he ?_
  intro d hd
  show P _
  refine (jtagAccessEff_keeps S) ?_
  assumption

end Sys2Proof.Machine
end

