-- ==== Sys2Proof/Laws/KeepDuplex.lean ====
section
/-!
SUPPORT. Which of registers, memory and fuses each operation and each command of Machine/Duplex.lean writes (Laws/Canon.lean).
-/
namespace Sys2Proof.Machine

theorem wordReceiveEff_keeps {P : Device → Prop} (S : Stable P) {l parity d} (hc : P d) : P (wordReceiveEff l parity d) := by
  delta wordReceiveEff
  refine keeps_ite ?_ ?_
  · assumption
  · extract_lets -merge -useContext -underBinder +onlyGivenNames k0
    extract_lets -merge -useContext -underBinder +onlyGivenNames x1
    have hx1 : P x1 := by
      unfold x1
      refine (Device.updElk_keeps S) ?_
      assumption
    refine keeps_ite ?_ ?_
    · exact hx1
    · extract_lets -merge -useContext -underBinder +onlyGivenNames x2
      have hx2 : P x2 := by
        unfold x2
        refine (Device.incSat_keeps S) ?_
        exact hx1
      extract_lets -merge -useContext -underBinder +onlyGivenNames x3
      have hx3 : P x3 := by
        unfold x3
        refine keeps_ite ?_ ?_
        · refine (Device.wr_keeps S) ?_
          exact hx2
        · exact hx2
      refine keeps_ite ?_ ?_
      · refine keeps_ite ?_ ?_
        · exact hx3
        · refine (Device.updCh_keeps S) ?_
          exact hx3
      · refine keeps_ite ?_ ?_
        · refine (Device.updElk_keeps S) ?_
          exact hx3
        · exact hx3

theorem heartbeatEff_keeps {P : Device → Prop} (S : Stable P) {l d} (hc : P d) : P (heartbeatEff l d) := by
  delta heartbeatEff
  refine keeps_ite ?_ ?_
  · refine (Device.emit_keeps S) ?_
    assumption
  · assumption

theorem eltikDownEff_keeps {P : Device → Prop} (S : Stable P) {parity d} (hc : P d) : P (eltikDownEff parity d) := by
  delta eltikDownEff
  refine keeps_ite ?_ ?_
  · assumption
  · refine (Device.log_keeps S) ?_
    refine (Device.incSat_keeps S) ?_
    refine (Device.incSat_keeps S) ?_
    refine (Device.linkLost_keeps S) ?_
    assumption

theorem retrainEff_keeps {P : Device → Prop} (S : Stable P) {d} (hc : P d) : P (retrainEff d) := by
  delta retrainEff
  extract_lets -merge -useContext -underBinder +onlyGivenNames x0
  have hx0 : P x0 := by
    unfold x0
    refine keeps_ite ?_ ?_
    · refine (Device.linkLost_keeps S) ?_
      assumption
    · assumption
  refine (Device.updElk_keeps S) ?_
  exact hx0

theorem trainCompleteEff_keeps {P : Device → Prop} (S : Stable P) {d} (hc : P d) : P (trainCompleteEff d) := by
  delta trainCompleteEff
  refine keeps_ite ?_ ?_
  · assumption
  · extract_lets -merge -useContext -underBinder +onlyGivenNames k0
    extract_lets -merge -useContext -underBinder +onlyGivenNames x1
    have hx1 : P x1 := by
      unfold x1
      refine (Device.wr_keeps S) ?_
      refine (Device.wr_keeps S) ?_
      assumption
    extract_lets -merge -useContext -underBinder +onlyGivenNames x2
    have hx2 : P x2 := by
      unfold x2
      refine (Device.updElk_keeps S) ?_
      exact hx1
    extract_lets -merge -useContext -underBinder +onlyGivenNames x3
    have hx3 : P x3 := by
      unfold x3
      refine keeps_ite ?_ ?_
      · refine (Device.wr_keeps S) ?_
        exact hx2
      · exact hx2
    refine keeps_ite ?_ ?_
    · refine (Device.log_keeps S) ?_
      exact hx3
    · exact hx3

theorem retrainTimeoutEff_keeps {P : Device → Prop} (S : Stable P) {d} (hc : P d) : P (retrainTimeoutEff d) := by
  delta retrainTimeoutEff
  refine keeps_ite ?_ ?_
  · assumption
  · refine (Device.updElk_keeps S) ?_
    assumption

theorem forceWriteEff_keeps {P : Device → Prop} (S : Stable P) {v d} (hc : P d) : P (forceWriteEff v d) := by
  delta forceWriteEff
  refine keeps_ite ?_ ?_
  · assumption
  · extract_lets -merge -useContext -underBinder +onlyGivenNames x0
    have hx0 : P x0 := by
      unfold x0
      refine (Device.wr_keeps S) ?_
      refine (Device.wr_keeps S) ?_
      assumption
    refine keeps_ite ?_ ?_
    · exact hx0
    · refine (Device.dxBoundary_keeps S) ?_
      exact hx0

theorem Device.takeVerdict_keeps {P : Device → Prop} (S : Stable P) {d q k} (hc : P d) : P (Device.takeVerdict d q k) := by
  delta Device.takeVerdict
  refine (Device.updOp_keeps S) ?_
  assumption

theorem verdictEff_keeps {P : Device → Prop} (S : Stable P) {q k conv iter sealOk spareFails d} (hc : P d) : P (verdictEff q k conv iter sealOk spareFails d) := by
  delta verdictEff
  split
  · assumption
  · split
    · assumption
    · refine keeps_ite ?_ ?_
      · assumption
      · extract_lets -merge -useContext -underBinder +onlyGivenNames k0
        extract_lets -merge -useContext -underBinder +onlyGivenNames x1
        have hx1 : P x1 := by
          unfold x1
          refine (Device.wrAll_keeps S) ?_
          refine (Device.takeVerdict_keeps S) ?_
          assumption
        extract_lets -merge -useContext -underBinder +onlyGivenNames x2
        have hx2 : P x2 := by
          unfold x2
          refine keeps_ite ?_ ?_
          · refine (Device.dxCount_keeps S) ?_
            refine (Device.updElk_keeps S) ?_
            exact hx1
          · exact hx1
        extract_lets -merge -useContext -underBinder +onlyGivenNames x3i0 x3i1 x3
        have hx3 : P x3 := by
          unfold x3
          refine keeps_ite ?_ ?_
          · refine (Device.dxCount_keeps S) ?_
            exact hx2
          · split
            · unfold x3i1
              refine (Device.updOp_keeps S) ?_
              unfold x3i0
              refine (Device.log_keeps S) ?_
              refine (Device.incSat_keeps S) ?_
              refine (Device.dxCount_keeps S) ?_
              refine (Device.wr_keeps S) ?_
              exact hx2
            · refine (Device.updWr_keeps S) ?_
              unfold x3i1
              refine (Device.updOp_keeps S) ?_
              unfold x3i0
              refine (Device.log_keeps S) ?_
              refine (Device.incSat_keeps S) ?_
              refine (Device.dxCount_keeps S) ?_
              refine (Device.wr_keeps S) ?_
              exact hx2
        extract_lets -merge -useContext -underBinder +onlyGivenNames x4
        have hx4 : P x4 := by
          unfold x4
          split
          · exact hx3
          · split
            · exact hx3
            · refine keeps_ite ?_ ?_
              · refine (Device.rewriteUnit_keeps S) ?_
                exact hx3
              · exact hx3
        refine (Device.endDue_keeps S) ?_
        exact hx4

theorem overdueEff_keeps {P : Device → Prop} (S : Stable P) {q k d} (hc : P d) : P (overdueEff q k d) := by
  delta overdueEff
  split
  · assumption
  · refine keeps_ite ?_ ?_
    · assumption
    · refine (Device.loseVerify_keeps S) ?_
      refine (Device.updElk_keeps S) ?_
      assumption

theorem execEltikWordReceive_keeps {P : Device → Prop} (S : Stable P) {a0 a1 s t} (hc : P s.dev) (he : execEltikWordReceive a0 a1 s = .next t) : P t.dev := by
  delta execEltikWordReceive at he
  refine State.upd_keeps hc he ?_
  intro d hd
  show P _
  refine (wordReceiveEff_keeps S) ?_
  assumption

theorem execEltikHeartbeat_keeps {P : Device → Prop} (S : Stable P) {a0 s t} (hc : P s.dev) (he : execEltikHeartbeat a0 s = .next t) : P t.dev := by
  delta execEltikHeartbeat at he
  refine State.upd_keeps hc he ?_
  intro d hd
  show P _
  refine (heartbeatEff_keeps S) ?_
  assumption

theorem execEltikLinkDown_keeps {P : Device → Prop} (S : Stable P) {a0 s t} (hc : P s.dev) (he : execEltikLinkDown a0 s = .next t) : P t.dev := by
  delta execEltikLinkDown at he
  refine State.upd_keeps hc he ?_
  intro d hd
  show P _
  refine (eltikDownEff_keeps S) ?_
  assumption

theorem execElkRetrain_keeps {P : Device → Prop} (S : Stable P) {a0 s t} (hc : P s.dev) (he : execElkRetrain a0 s = .next t) : P t.dev := by
  delta execElkRetrain at he
  refine State.upd_keeps hc he ?_
  intro d hd
  show P _
  refine (retrainEff_keeps S) ?_
  assumption

theorem execEltikTrainComplete_keeps {P : Device → Prop} (S : Stable P) {s t} (hc : P s.dev) (he : execEltikTrainComplete s = .next t) : P t.dev := by
  delta execEltikTrainComplete at he
  refine State.upd_keeps hc he ?_
  intro d hd
  show P _
  refine (trainCompleteEff_keeps S) ?_
  assumption

theorem execEltikRetrainTimeout_keeps {P : Device → Prop} (S : Stable P) {s t} (hc : P s.dev) (he : execEltikRetrainTimeout s = .next t) : P t.dev := by
  delta execEltikRetrainTimeout at he
  refine State.upd_keeps hc he ?_
  intro d hd
  show P _
  refine (retrainTimeoutEff_keeps S) ?_
  assumption

theorem execDxForceWrite_keeps {P : Device → Prop} (S : Stable P) {a0 s t} (hc : P s.dev) (he : execDxForceWrite a0 s = .next t) : P t.dev := by
  delta execDxForceWrite at he
  refine State.upd_keeps hc he ?_
  intro d hd
  show P _
  refine (forceWriteEff_keeps S) ?_
  assumption

theorem execVerifyVerdict_keeps {P : Device → Prop} (S : Stable P) {a0 a1 a2 a3 a4 a5 s t} (hc : P s.dev) (he : execVerifyVerdict a0 a1 a2 a3 a4 a5 s = .next t) : P t.dev := by
  delta execVerifyVerdict at he
  refine State.upd_keeps hc he ?_
  intro d hd
  show P _
  refine (verdictEff_keeps S) ?_
  assumption

theorem execVerdictOverdue_keeps {P : Device → Prop} (S : Stable P) {a0 a1 s t} (hc : P s.dev) (he : execVerdictOverdue a0 a1 s = .next t) : P t.dev := by
  delta execVerdictOverdue at he
  refine State.upd_keeps hc he ?_
  intro d hd
  show P _
  refine (overdueEff_keeps S) ?_
  assumption

end Sys2Proof.Machine
end

