-- ==== Sys2Proof/Laws/KeepWritePath.lean ====
section
/-!
SUPPORT. Which of registers, memory and fuses each operation and each command of Machine/WritePath.lean writes (Laws/Canon.lean).
-/
namespace Sys2Proof.Machine

theorem Device.pageFault_keeps {P : Device → Prop} (S : MemStable P) {d l q k page ref} (hc : P d) : P (Device.pageFault d l q k page ref) := by
  delta Device.pageFault
  extract_lets -merge -useContext -underBinder +onlyGivenNames x0
  have hx0 : P x0 := by
    unfold x0
    refine (Device.updOp_keeps S.toStable) ?_
    assumption
  extract_lets -merge -useContext -underBinder +onlyGivenNames x1
  have hx1 : P x1 := by
    unfold x1
    refine (Device.notePageCheck_keeps S.toStable) ?_
    exact hx0
  extract_lets -merge -useContext -underBinder +onlyGivenNames x2
  have hx2 : P x2 := by
    unfold x2
    refine (Device.log_keeps S.toStable) ?_
    refine (Device.wr_keeps S.toStable) ?_
    refine (Device.stopCause_keeps S.toStable) ?_
    exact hx1
  split
  · exact hx2
  · refine (Device.unitFault_keeps S) ?_
    exact hx2

theorem writeSlotEff_keeps {P : Device → Prop} (S : MemStable P) {l k ref sens accParity d} (hc : P d) : P (writeSlotEff l k ref sens accParity d) := by
  delta writeSlotEff
  extract_lets -merge -useContext -underBinder +onlyGivenNames x0
  have hx0 : P x0 := by
    unfold x0
    refine (Device.passOwner_keeps S.toStable) ?_
    assumption
  split
  · exact hx0
  · split
    · exact hx0
    · refine keeps_ite ?_ ?_
      · exact hx0
      · extract_lets -merge -useContext -underBinder +onlyGivenNames k1
        extract_lets -merge -useContext -underBinder +onlyGivenNames k2
        refine keeps_ite ?_ ?_
        · refine (Device.wr_keeps S.toStable) ?_
          exact hx0
        · refine keeps_ite ?_ ?_
          · refine (Device.pageFault_keeps S) ?_
            exact hx0
          · extract_lets -merge -useContext -underBinder +onlyGivenNames k3
            refine keeps_ite ?_ ?_
            · exact hx0
            · extract_lets -merge -useContext -underBinder +onlyGivenNames x4
              have hx4 : P x4 := by
                unfold x4
                split
                · refine keeps_ite ?_ ?_
                  · refine (Device.beginUnit_keeps S.toStable) ?_
                    exact hx0
                  · exact hx0
                · exact hx0
              extract_lets -merge -useContext -underBinder +onlyGivenNames x5
              have hx5 : P x5 := by
                unfold x5
                refine (Device.updWr_keeps S.toStable) ?_
                exact hx4
              refine keeps_ite ?_ ?_
              · refine (Device.sensRead_keeps S.toStable) ?_
                exact hx5
              · exact hx5

theorem writeUrgentEff_keeps {P : Device → Prop} (S : Stable P) {l resv tag d} (hc : P d) : P (writeUrgentEff l resv tag d) := by
  delta writeUrgentEff
  extract_lets -merge -useContext -underBinder +onlyGivenNames k0i0 k0
  extract_lets -merge -useContext -underBinder +onlyGivenNames k1
  extract_lets -merge -useContext -underBinder +onlyGivenNames k2
  refine (Device.updWr_keeps S) ?_
  refine S.congr (d := d) ?_ rfl rfl rfl
  assumption

theorem sectorWriteEff_keeps {P : Device → Prop} (S : MemStable P) {l d} (hc : P d) : P (sectorWriteEff l d) := by
  delta sectorWriteEff
  split
  · assumption
  · extract_lets -merge -useContext -underBinder +onlyGivenNames x0
    have hx0 : P x0 := by
      unfold x0
      refine (Device.updWr_keeps S.toStable) ?_
      assumption
    extract_lets -merge -useContext -underBinder +onlyGivenNames x1
    have hx1 : P x1 := by
      unfold x1
      refine (Device.updOp_keeps S.toStable) ?_
      exact hx0
    extract_lets -merge -useContext -underBinder +onlyGivenNames x2
    have hx2 : P x2 := by
      unfold x2
      refine (Device.slotResult_keeps S.toStable) ?_
      exact hx1
    extract_lets -merge -useContext -underBinder +onlyGivenNames x3
    have hx3 : P x3 := by
      unfold x3
      split
      · exact hx2
      · refine (Device.sectorWritten_keeps S.toStable) ?_
        exact hx2
    extract_lets -merge -useContext -underBinder +onlyGivenNames k4
    extract_lets -merge -useContext -underBinder +onlyGivenNames x5
    have hx5 : P x5 := by
      unfold x5
      refine keeps_ite ?_ ?_
      · refine (Device.updOp_keeps S.toStable) ?_
        exact hx3
      · exact hx3
    extract_lets -merge -useContext -underBinder +onlyGivenNames k6
    refine keeps_ite ?_ ?_
    · refine (Device.stoppedWrite_keeps S) ?_
      exact hx5
    · refine keeps_ite ?_ ?_
      · refine (Device.updWr_keeps S.toStable) ?_
        exact hx5
      · exact hx5

theorem Device.shockInhibit_keeps {P : Device → Prop} (S : Stable P) {d input} (hc : P d) : P (Device.shockInhibit d input) := by
  delta Device.shockInhibit
  refine keeps_ite ?_ ?_
  · assumption
  · refine keeps_foldl ?_ ?_
    · intro d' x' hd'
      show P _
      extract_lets -merge -useContext -underBinder +onlyGivenNames x0
      have hx0 : P x0 := by
        unfold x0
        refine keeps_ite ?_ ?_
        · refine (Device.updWr_keeps S) ?_
          assumption
        · assumption
      refine (Device.log_keeps S) ?_
      refine (Device.inhibit_keeps S) ?_
      refine (Device.wr_keeps S) ?_
      refine (Device.wr_keeps S) ?_
      exact hx0
    · refine S.congr (d := d) ?_ rfl rfl rfl
      assumption

theorem shockEff_keeps {P : Device → Prop} (S : Stable P) {second active d} (hc : P d) : P (shockEff second active d) := by
  delta shockEff
  extract_lets -merge -useContext -underBinder +onlyGivenNames k0
  extract_lets -merge -useContext -underBinder +onlyGivenNames k1
  extract_lets -merge -useContext -underBinder +onlyGivenNames x2
  have hx2 : P x2 := by
    unfold x2
    refine (Device.wr_keeps S) ?_
    assumption
  extract_lets -merge -useContext -underBinder +onlyGivenNames k3
  extract_lets -merge -useContext -underBinder +onlyGivenNames x4
  have hx4 : P x4 := by
    unfold x4
    refine keeps_ite ?_ ?_
    · exact S.congr hx2 rfl rfl rfl
    · exact S.congr hx2 rfl rfl rfl
  refine keeps_ite ?_ ?_
  · refine (Device.shockInhibit_keeps S) ?_
    exact hx4
  · exact hx4

theorem shockReleaseEff_keeps {P : Device → Prop} (S : Stable P) {d} (hc : P d) : P (shockReleaseEff d) := by
  delta shockReleaseEff
  refine keeps_ite ?_ ?_
  · assumption
  · refine S.congr (d := d) ?_ rfl rfl rfl
    assumption

theorem pesReleaseEff_keeps {P : Device → Prop} (S : Stable P) {l d} (hc : P d) : P (pesReleaseEff l d) := by
  delta pesReleaseEff
  refine keeps_ite ?_ ?_
  · refine (Device.wr_keeps S) ?_
    assumption
  · assumption

theorem wgInhEff_keeps {P : Device → Prop} (S : Stable P) {l v d} (hc : P d) : P (wgInhEff l v d) := by
  delta wgInhEff
  extract_lets -merge -useContext -underBinder +onlyGivenNames k0
  extract_lets -merge -useContext -underBinder +onlyGivenNames x1
  have hx1 : P x1 := by
    unfold x1
    refine S.setWord _ _ ?_
    assumption
  refine keeps_ite ?_ ?_
  · refine (Device.inhibit_keeps S) ?_
    exact hx1
  · exact hx1

theorem paWriteFrameEff_keeps {P : Device → Prop} (S : Stable P) {l back d} (hc : P d) : P (paWriteFrameEff l back d) := by
  delta paWriteFrameEff
  split
  · assumption
  · refine keeps_ite ?_ ?_
    · assumption
    · extract_lets -merge -useContext -underBinder +onlyGivenNames x0
      have hx0 : P x0 := by
        unfold x0
        refine (Device.emit_keeps S) ?_
        refine (Device.updWr_keeps S) ?_
        assumption
      extract_lets -merge -useContext -underBinder +onlyGivenNames x1
      have hx1 : P x1 := by
        unfold x1
        refine keeps_ite ?_ ?_
        · refine (Device.wr_keeps S) ?_
          exact hx0
        · exact hx0
      split
      · exact hx1
      · extract_lets -merge -useContext -underBinder +onlyGivenNames x2
        have hx2 : P x2 := by
          unfold x2
          refine (Device.updWr_keeps S) ?_
          exact hx1
        refine keeps_ite ?_ ?_
        · refine (Device.paGood_keeps S) ?_
          exact hx2
        · refine keeps_ite ?_ ?_
          · refine (Device.paLinkError_keeps S) ?_
            exact hx2
          · refine (Device.updWr_keeps S) ?_
            exact hx2

theorem paReadFrameEff_keeps {P : Device → Prop} (S : Stable P) {l data d} (hc : P d) : P (paReadFrameEff l data d) := by
  delta paReadFrameEff
  split
  · assumption
  · refine keeps_ite ?_ ?_
    · assumption
    · extract_lets -merge -useContext -underBinder +onlyGivenNames x0
      have hx0 : P x0 := by
        unfold x0
        refine (Device.emit_keeps S) ?_
        refine (Device.updWr_keeps S) ?_
        assumption
      extract_lets -merge -useContext -underBinder +onlyGivenNames x1
      have hx1 : P x1 := by
        unfold x1
        refine keeps_ite ?_ ?_
        · refine (Device.wr_keeps S) ?_
          refine (Device.wr_keeps S) ?_
          exact hx0
        · exact hx0
      refine keeps_ite ?_ ?_
      · refine (Device.paFaultRead_keeps S) ?_
        exact hx1
      · exact hx1

theorem paFaultPollEff_keeps {P : Device → Prop} (S : Stable P) {l data d} (hc : P d) : P (paFaultPollEff l data d) := by
  delta paFaultPollEff
  refine keeps_ite ?_ ?_
  · assumption
  · refine (Device.paFaultRead_keeps S) ?_
    refine (Device.emit_keeps S) ?_
    assumption

theorem paLinkRetryEff_keeps {P : Device → Prop} (S : Stable P) {l data d} (hc : P d) : P (paLinkRetryEff l data d) := by
  delta paLinkRetryEff
  refine keeps_ite ?_ ?_
  · assumption
  · extract_lets -merge -useContext -underBinder +onlyGivenNames x0
    have hx0 : P x0 := by
      unfold x0
      refine (Device.emit_keeps S) ?_
      assumption
    refine keeps_ite ?_ ?_
    · refine (Device.updWr_keeps S) ?_
      refine (Device.incSat_keeps S) ?_
      exact hx0
    · extract_lets -merge -useContext -underBinder +onlyGivenNames k1
      refine keeps_ite ?_ ?_
      · refine (Device.updWr_keeps S) ?_
        exact hx0
      · extract_lets -merge -useContext -underBinder +onlyGivenNames x2
        have hx2 : P x2 := by
          unfold x2
          refine (Device.wr_keeps S) ?_
          refine (Device.updWr_keeps S) ?_
          exact hx0
        refine (Device.paRewrite_keeps S) ?_
        refine (Device.paFaultRead_keeps S) ?_
        exact hx2

theorem paEnEff_keeps {P : Device → Prop} (S : Stable P) {l en d} (hc : P d) : P (paEnEff l en d) := by
  delta paEnEff
  refine keeps_ite ?_ ?_
  · extract_lets -merge -useContext -underBinder +onlyGivenNames x0
    have hx0 : P x0 := by
      unfold x0
      refine (Device.updWr_keeps S) ?_
      refine (Device.wrAll_keeps S) ?_
      assumption
    refine (Device.recheckGate_keeps S) ?_
    exact hx0
  · refine keeps_ite ?_ ?_
    · refine (Device.log_keeps S) ?_
      refine (Device.wr_keeps S) ?_
      assumption
    · refine (Device.updWr_keeps S) ?_
      refine (Device.wrAll_keeps S) ?_
      assumption

theorem paCmdEff_keeps {P : Device → Prop} (S : Stable P) {l read addr data d} (hc : P d) : P (paCmdEff l read addr data d) := by
  delta paCmdEff
  extract_lets -merge -useContext -underBinder +onlyGivenNames x0
  have hx0 : P x0 := by
    unfold x0
    refine (Device.wrAll_keeps S) ?_
    assumption
  refine keeps_ite ?_ ?_
  · refine (Device.wr_keeps S) ?_
    exact hx0
  · refine (Device.updWr_keeps S) ?_
    refine (Device.wrAll_keeps S) ?_
    exact hx0

theorem wselLoadEff_keeps {P : Device → Prop} (S : Stable P) {l head zone d} (hc : P d) : P (wselLoadEff l head zone d) := by
  delta wselLoadEff
  extract_lets -merge -useContext -underBinder +onlyGivenNames k0
  extract_lets -merge -useContext -underBinder +onlyGivenNames k1
  extract_lets -merge -useContext -underBinder +onlyGivenNames x2
  have hx2 : P x2 := by
    unfold x2
    refine (Device.wr_keeps S) ?_
    refine (Device.wr_keeps S) ?_
    assumption
  refine keeps_ite ?_ ?_
  · refine (Device.updWr_keeps S) ?_
    exact hx2
  · refine (Device.updWr_keeps S) ?_
    exact hx2

theorem Device.applyWEntry_keeps {P : Device → Prop} (S : Stable P) {d l e} (hc : P d) : P (Device.applyWEntry d l e) := by
  delta Device.applyWEntry
  extract_lets -merge -useContext -underBinder +onlyGivenNames k0
  extract_lets -merge -useContext -underBinder +onlyGivenNames x1
  have hx1 : P x1 := by
    unfold x1
    refine (Device.wrAll_keeps S) ?_
    assumption
  extract_lets -merge -useContext -underBinder +onlyGivenNames x2
  have hx2 : P x2 := by
    unfold x2
    refine (Device.updWr_keeps S) ?_
    exact hx1
  extract_lets -merge -useContext -underBinder +onlyGivenNames x3
  have hx3 : P x3 := by
    unfold x3
    refine keeps_ite ?_ ?_
    · refine (Device.log_keeps S) ?_
      refine (Device.wr_keeps S) ?_
      exact hx2
    · exact hx2
  refine (Device.paWrite_keeps S) ?_
  refine (Device.paWrite_keeps S) ?_
  refine (Device.paWrite_keeps S) ?_
  refine (Device.paWrite_keeps S) ?_
  refine (Device.paWrite_keeps S) ?_
  exact hx3

theorem wEntryEff_keeps {P : Device → Prop} (S : Stable P) {l d} (hc : P d) : P (wEntryEff l d) := by
  delta wEntryEff
  split
  · assumption
  · extract_lets -merge -useContext -underBinder +onlyGivenNames x0
    have hx0 : P x0 := by
      unfold x0
      refine (Device.updWr_keeps S) ?_
      assumption
    extract_lets -merge -useContext -underBinder +onlyGivenNames k1
    extract_lets -merge -useContext -underBinder +onlyGivenNames k2
    extract_lets -merge -useContext -underBinder +onlyGivenNames k3
    extract_lets -merge -useContext -underBinder +onlyGivenNames k4
    extract_lets -merge -useContext -underBinder +onlyGivenNames k5
    extract_lets -merge -useContext -underBinder +onlyGivenNames k6
    refine keeps_ite ?_ ?_
    · refine (Device.applyWEntry_keeps S) ?_
      exact hx0
    · refine (Device.log_keeps S) ?_
      refine (Device.wrAll_keeps S) ?_
      exact hx0

theorem Device.bridgeStart_keeps {P : Device → Prop} (S : Stable P) {d l} (hc : P d) : P (Device.bridgeStart d l) := by
  delta Device.bridgeStart
  extract_lets -merge -useContext -underBinder +onlyGivenNames x0
  have hx0 : P x0 := by
    unfold x0
    refine (Device.updWr_keeps S) ?_
    assumption
  refine (Device.paWrite_keeps S) ?_
  refine (Device.paWrite_keeps S) ?_
  exact hx0

theorem Device.bridgeEnd_keeps {P : Device → Prop} (S : Stable P) {d l} (hc : P d) : P (Device.bridgeEnd d l) := by
  delta Device.bridgeEnd
  extract_lets -merge -useContext -underBinder +onlyGivenNames x0
  have hx0 : P x0 := by
    unfold x0
    refine (Device.updWr_keeps S) ?_
    assumption
  refine (Device.paWrite_keeps S) ?_
  refine (Device.paWrite_keeps S) ?_
  exact hx0

theorem bridgeReadyEff_keeps {P : Device → Prop} (S : Stable P) {l d} (hc : P d) : P (bridgeReadyEff l d) := by
  delta bridgeReadyEff
  refine keeps_ite ?_ ?_
  · refine (Device.updWr_keeps S) ?_
    assumption
  · assumption

theorem neighbourEff_keeps {P : Device → Prop} (S : Stable P) {l band weak lost spareFull d} (hc : P d) : P (neighbourEff l band weak lost spareFull d) := by
  delta neighbourEff
  refine keeps_ite ?_ ?_
  · assumption
  · split
    · refine (Device.updWr_keeps S) ?_
      assumption
    · extract_lets -merge -useContext -underBinder +onlyGivenNames k0
      extract_lets -merge -useContext -underBinder +onlyGivenNames k1
      extract_lets -merge -useContext -underBinder +onlyGivenNames x2
      have hx2 : P x2 := by
        unfold x2
        refine keeps_foldl ?_ ?_
        · intro d' x' hd'
          show P _
          refine (Device.relocate_keeps S) ?_
          assumption
        · assumption
      extract_lets -merge -useContext -underBinder +onlyGivenNames x3
      have hx3 : P x3 := by
        unfold x3
        refine keeps_foldl ?_ ?_
        · intro d' x' hd'
          show P _
          refine (Device.queueSeq_keeps S) ?_
          assumption
        · exact hx2
      extract_lets -merge -useContext -underBinder +onlyGivenNames k4
      refine (Device.log_keeps S) ?_
      refine (Device.updWr_keeps S) ?_
      exact hx3

theorem writeCalEff_keeps {P : Device → Prop} (S : MemStable P) {l means d} (hc : P d) : P (writeCalEff l means d) := by
  delta writeCalEff
  split
  · assumption
  · refine keeps_ite ?_ ?_
    · assumption
    · extract_lets -merge -useContext -underBinder +onlyGivenNames k0
      extract_lets -merge -useContext -underBinder +onlyGivenNames k1
      extract_lets -merge -useContext -underBinder +onlyGivenNames k2
      extract_lets -merge -useContext -underBinder +onlyGivenNames k3
      extract_lets -merge -useContext -underBinder +onlyGivenNames k4
      extract_lets -merge -useContext -underBinder +onlyGivenNames k5
      extract_lets -merge -useContext -underBinder +onlyGivenNames k6
      refine keeps_ite ?_ ?_
      · extract_lets -merge -useContext -underBinder +onlyGivenNames k7
        extract_lets -merge -useContext -underBinder +onlyGivenNames k8
        refine (Device.log_keeps S.toStable) ?_
        refine (Device.setNum_keeps S) ?_
        assumption
      · refine keeps_ite ?_ ?_
        · refine (Device.log_keeps S.toStable) ?_
          refine keeps_foldl ?_ ?_
          · intro d' x' hd'
            show P _
            extract_lets -merge -useContext -underBinder +onlyGivenNames k9
            extract_lets -merge -useContext -underBinder +onlyGivenNames k10
            refine keeps_ite ?_ ?_
            · assumption
            · extract_lets -merge -useContext -underBinder +onlyGivenNames k11
              extract_lets -merge -useContext -underBinder +onlyGivenNames k12
              refine (Device.setNum_keeps S) ?_
              assumption
          · assumption
        · assumption

theorem execWriteSlotStart_keeps {P : Device → Prop} (S : MemStable P) {a0 a1 a2 a3 a4 s t} (hc : P s.dev) (he : execWriteSlotStart a0 a1 a2 a3 a4 s = .next t) : P t.dev := by
  delta execWriteSlotStart at he
  refine State.upd_keeps hc he ?_
  intro d hd
  show P _
  refine (writeSlotEff_keeps S) ?_
  assumption

theorem execWriteRequestUrgent_keeps {P : Device → Prop} (S : Stable P) {a0 a1 a2 s t} (hc : P s.dev) (he : execWriteRequestUrgent a0 a1 a2 s = .next t) : P t.dev := by
  delta execWriteRequestUrgent at he
  refine State.upd_keeps hc he ?_
  intro d hd
  show P _
  refine (writeUrgentEff_keeps S) ?_
  assumption

theorem execSectorWriteComplete_keeps {P : Device → Prop} (S : MemStable P) {a0 s t} (hc : P s.dev) (he : execSectorWriteComplete a0 s = .next t) : P t.dev := by
  delta execSectorWriteComplete at he
  refine State.upd_keeps hc he ?_
  intro d hd
  show P _
  refine (sectorWriteEff_keeps S) ?_
  assumption

theorem execShockInput_keeps {P : Device → Prop} (S : Stable P) {a0 a1 s t} (hc : P s.dev) (he : execShockInput a0 a1 s = .next t) : P t.dev := by
  delta execShockInput at he
  refine State.upd_keeps hc he ?_
  intro d hd
  show P _
  refine (shockEff_keeps S) ?_
  assumption

theorem execShockInhibitRelease_keeps {P : Device → Prop} (S : Stable P) {s t} (hc : P s.dev) (he : execShockInhibitRelease s = .next t) : P t.dev := by
  delta execShockInhibitRelease at he
  refine State.upd_keeps hc he ?_
  intro d hd
  show P _
  refine (shockReleaseEff_keeps S) ?_
  assumption

theorem execPesInhibitRelease_keeps {P : Device → Prop} (S : Stable P) {a0 s t} (hc : P s.dev) (he : execPesInhibitRelease a0 s = .next t) : P t.dev := by
  delta execPesInhibitRelease at he
  refine State.upd_keeps hc he ?_
  intro d hd
  show P _
  refine (pesReleaseEff_keeps S) ?_
  assumption

theorem execWgInhWrite_keeps {P : Device → Prop} (S : Stable P) {a0 a1 s t} (hc : P s.dev) (he : execWgInhWrite a0 a1 s = .next t) : P t.dev := by
  delta execWgInhWrite at he
  refine State.upd_keeps hc he ?_
  intro d hd
  show P _
  refine (wgInhEff_keeps S) ?_
  assumption

theorem execPreampWriteFrame_keeps {P : Device → Prop} (S : Stable P) {a0 a1 s t} (hc : P s.dev) (he : execPreampWriteFrame a0 a1 s = .next t) : P t.dev := by
  delta execPreampWriteFrame at he
  refine State.upd_keeps hc he ?_
  intro d hd
  show P _
  refine (paWriteFrameEff_keeps S) ?_
  assumption

theorem execPreampReadFrame_keeps {P : Device → Prop} (S : Stable P) {a0 a1 s t} (hc : P s.dev) (he : execPreampReadFrame a0 a1 s = .next t) : P t.dev := by
  delta execPreampReadFrame at he
  refine State.upd_keeps hc he ?_
  intro d hd
  show P _
  refine (paReadFrameEff_keeps S) ?_
  assumption

theorem execPreampFaultPoll_keeps {P : Device → Prop} (S : Stable P) {a0 a1 s t} (hc : P s.dev) (he : execPreampFaultPoll a0 a1 s = .next t) : P t.dev := by
  delta execPreampFaultPoll at he
  refine State.upd_keeps hc he ?_
  intro d hd
  show P _
  refine (paFaultPollEff_keeps S) ?_
  assumption

theorem execPreampLinkRetry_keeps {P : Device → Prop} (S : Stable P) {a0 a1 s t} (hc : P s.dev) (he : execPreampLinkRetry a0 a1 s = .next t) : P t.dev := by
  delta execPreampLinkRetry at he
  refine State.upd_keeps hc he ?_
  intro d hd
  show P _
  refine (paLinkRetryEff_keeps S) ?_
  assumption

theorem execPaCtrlEnWrite_keeps {P : Device → Prop} (S : Stable P) {a0 a1 s t} (hc : P s.dev) (he : execPaCtrlEnWrite a0 a1 s = .next t) : P t.dev := by
  delta execPaCtrlEnWrite at he
  refine State.upd_keeps hc he ?_
  intro d hd
  show P _
  refine (paEnEff_keeps S) ?_
  assumption

theorem execPaCmdGo_keeps {P : Device → Prop} (S : Stable P) {a0 a1 a2 a3 s t} (hc : P s.dev) (he : execPaCmdGo a0 a1 a2 a3 s = .next t) : P t.dev := by
  delta execPaCmdGo at he
  refine State.upd_keeps hc he ?_
  intro d hd
  show P _
  refine (paCmdEff_keeps S) ?_
  assumption

theorem execWselLoad_keeps {P : Device → Prop} (S : Stable P) {a0 a1 a2 s t} (hc : P s.dev) (he : execWselLoad a0 a1 a2 s = .next t) : P t.dev := by
  delta execWselLoad at he
  refine State.upd_keeps hc he ?_
  intro d hd
  show P _
  refine (wselLoadEff_keeps S) ?_
  assumption

theorem execWriteEntryFetched_keeps {P : Device → Prop} (S : Stable P) {a0 s t} (hc : P s.dev) (he : execWriteEntryFetched a0 s = .next t) : P t.dev := by
  delta execWriteEntryFetched at he
  refine State.upd_keeps hc he ?_
  intro d hd
  show P _
  refine (wEntryEff_keeps S) ?_
  assumption

theorem execBridgeReady_keeps {P : Device → Prop} (S : Stable P) {a0 s t} (hc : P s.dev) (he : execBridgeReady a0 s = .next t) : P t.dev := by
  delta execBridgeReady at he
  refine State.upd_keeps hc he ?_
  intro d hd
  show P _
  refine (bridgeReadyEff_keeps S) ?_
  assumption

theorem execNeighbourCheck_keeps {P : Device → Prop} (S : Stable P) {a0 a1 a2 a3 a4 s t} (hc : P s.dev) (he : execNeighbourCheck a0 a1 a2 a3 a4 s = .next t) : P t.dev := by
  delta execNeighbourCheck at he
  refine State.upd_keeps hc he ?_
  intro d hd
  show P _
  refine (neighbourEff_keeps S) ?_
  assumption

theorem execWriteCalibration_keeps {P : Device → Prop} (S : MemStable P) {a0 a1 s t} (hc : P s.dev) (he : execWriteCalibration a0 a1 s = .next t) : P t.dev := by
  delta execWriteCalibration at he
  refine State.upd_keeps hc he ?_
  intro d hd
  show P _
  refine (writeCalEff_keeps S) ?_
  assumption

end Sys2Proof.Machine
end

