-- ==== Sys2Proof/Laws/KeepEscOps.lean ====
section
/-!
SUPPORT. Which of registers, memory and fuses each operation and each command of Machine/EscOps.lean writes (Laws/Canon.lean).
-/
namespace Sys2Proof.Machine

theorem Device.afterOp_keeps {P : Device → Prop} (S : Stable P) {d q o} (hc : P d) : P (Device.afterOp d q o) := by
  delta Device.afterOp
  extract_lets -merge -useContext -underBinder +onlyGivenNames k0
  extract_lets -merge -useContext -underBinder +onlyGivenNames x1
  have hx1 : P x1 := by
    unfold x1
    refine keeps_ite ?_ ?_
    · refine (Device.bridgeEnd_keeps S) ?_
      assumption
    · assumption
  refine keeps_ite ?_ ?_
  · exact hx1
  · extract_lets -merge -useContext -underBinder +onlyGivenNames x2
    have hx2 : P x2 := by
      unfold x2
      refine keeps_ite ?_ ?_
      · exact hx1
      · refine (Device.paWrite_keeps S) ?_
        exact hx1
    refine (Device.setOffset_keeps S) ?_
    exact hx2

theorem Device.machineCheck_keeps {P : Device → Prop} (S : Stable P) {d q cause addr trap} (hc : P d) : P (Device.machineCheck d q cause addr trap) := by
  delta Device.machineCheck
  split
  · assumption
  · extract_lets -merge -useContext -underBinder +onlyGivenNames x0
    have hx0 : P x0 := by
      unfold x0
      split
      · refine keeps_ite ?_ ?_
        · refine (Device.cutGate_keeps S) ?_
          assumption
        · assumption
      · assumption
    extract_lets -merge -useContext -underBinder +onlyGivenNames x1
    have hx1 : P x1 := by
      unfold x1
      refine (Device.updCh_keeps S) ?_
      exact hx0
    extract_lets -merge -useContext -underBinder +onlyGivenNames x2
    have hx2 : P x2 := by
      unfold x2
      refine (Device.completeOp_keeps S) ?_
      exact hx1
    extract_lets -merge -useContext -underBinder +onlyGivenNames x3
    have hx3 : P x3 := by
      unfold x3
      refine (Device.wrAll_keeps S) ?_
      exact hx2
    extract_lets -merge -useContext -underBinder +onlyGivenNames k4
    extract_lets -merge -useContext -underBinder +onlyGivenNames x5
    have hx5 : P x5 := by
      unfold x5
      refine keeps_ite ?_ ?_
      · refine (Device.wr_keeps S) ?_
        exact hx3
      · exact hx3
    refine (Device.afterOp_keeps S) ?_
    refine (Device.log_keeps S) ?_
    exact hx5

theorem Device.ecGo_keeps {P : Device → Prop} (S : Stable P) {d q t} (hc : P d) : P (Device.ecGo d q t) := by
  delta Device.ecGo
  extract_lets -merge -useContext -underBinder +onlyGivenNames k0
  refine (Device.wr_keeps S) ?_
  refine (Device.updOp_keeps S) ?_
  assumption

theorem Device.safePoint_keeps {P : Device → Prop} (S : Stable P) {d q} (hc : P d) : P (Device.safePoint d q) := by
  delta Device.safePoint
  refine (Device.takeStop_keeps S) ?_
  refine (Device.updOp_keeps S) ?_
  assumption

theorem Device.ecStep_keeps {P : Device → Prop} (S : Stable P) {d q w err op safe f} (hc : P d) (hf : ∀ w o d, P d → P (f w o d)) :
    P (Device.ecStep d q w err op safe f) := by
  delta Device.ecStep
  split
  · exact hc
  · refine keeps_ite hc ?_
    extract_lets +onlyGivenNames k0
    refine keeps_ite (Device.machineCheck_keeps S hc) (keeps_ite (Device.machineCheck_keeps S hc)
      (keeps_ite (Device.machineCheck_keeps S hc) (keeps_ite (Device.machineCheck_keeps S hc)
      (keeps_ite hc (keeps_ite (hf _ _ _ hc) ?_)))))
    extract_lets +onlyGivenNames x
    have hx : P x := hf _ _ _ (Device.updOp_keeps S hc)
    exact keeps_ite (Device.machineCheck_keeps S hx) hx

theorem Device.ecSet_keeps {P : Device → Prop} (S : Stable P) {d q i v} (hc : P d) : P (Device.ecSet d q i v) := by
  delta Device.ecSet
  refine (Device.updOp_keeps S) ?_
  assumption

theorem Device.ecResult_keeps {P : Device → Prop} (S : Stable P) {d q i v c} (hc : P d) : P (Device.ecResult d q i v c) := by
  delta Device.ecResult
  extract_lets -merge -useContext -underBinder +onlyGivenNames k0
  refine (Device.updOp_keeps S) ?_
  refine (Device.ecSet_keeps S) ?_
  assumption

theorem Device.freeFlag_keeps {P : Device → Prop} (S : Stable P) {d} (hc : P d) : P ((Device.freeFlag d).2) := by
  delta Device.freeFlag
  split
  rename_i v' d' heq'
  have hd' : P d' := by
    show P (v', d').2
    rw [← heq']
    refine (Device.takeFree_keeps S) ?_
    assumption
  refine keeps_snd ?_
  assumption

theorem Device.readPort_keeps {P : Device → Prop} (S : Stable P) {d q o p} (e) (he : Device.readPort d q o p = some e) (hc : P d) : P e.2 := by
  unfold Device.readPort at he
  split at he
  · cases he; exact hc
  · split at he
    · cases he; exact hc
    · cases he; exact hc
    · cases he; exact hc
    · split at he
      · cases he; exact Device.takeFree_keeps S hc
      · cases he; exact Device.updOp_keeps S hc
    · cases he; exact hc
    · cases he; exact hc
    · cases he

theorem Device.portRg_keeps {P : Device → Prop} (S : Stable P) {d q v} (hc : P d) : P (Device.portRg d q v) := by
  delta Device.portRg
  split
  · refine (Device.updOp_keeps S) ?_
    assumption
  · refine (Device.passOwner_keeps S) ?_
    refine (Device.updOp_keeps S) ?_
    assumption
  · assumption

theorem Device.writePort_keeps {P : Device → Prop} (S : Stable P) {d q o p v} (e) (he : Device.writePort d q o p v = some e) (hc : P d) : P e := by
  unfold Device.writePort at he
  split at he
  · cases he; exact Device.portRg_keeps S hc
  · split at he
    · cases he; exact hc
    · split at he
      · cases he
      · cases he; exact Device.passOwner_keeps S (Device.updOp_keeps S hc)
  · cases he
    exact keeps_ite (Device.bridgeStart_keeps S hc) (keeps_ite (Device.bridgeEnd_keeps S hc) hc)
  · split at he
    · cases he
    · cases he; exact Device.updOp_keeps S hc
  · cases he; exact Device.updOp_keeps S hc
  · cases he

end Sys2Proof.Machine
end

