-- ==== Sys2Proof/Laws/KeepEscapement.lean ====
section
/-!
SUPPORT. Which of registers, memory and fuses each operation and each command of Machine/Escapement.lean writes (Laws/Canon.lean).
-/
namespace Sys2Proof.Machine

theorem postGoEff_keeps {P : Device → Prop} (S : Stable P) {q d} (hc : P d) : P (postGoEff q d) := by
  delta postGoEff
  extract_lets -merge -useContext -underBinder +onlyGivenNames k0
  extract_lets -merge -useContext -underBinder +onlyGivenNames k1
  refine keeps_ite ?_ ?_
  · refine (Device.updEc_keeps S) ?_
    refine (Device.wrAll_keeps S) ?_
    assumption
  · refine (Device.logRate_keeps S) ?_
    refine (Device.wrAll_keeps S) ?_
    assumption

theorem ecEnEff_keeps {P : Device → Prop} (S : Stable P) {q en d} (hc : P d) : P (ecEnEff q en d) := by
  delta ecEnEff
  refine keeps_ite ?_ ?_
  · refine keeps_ite ?_ ?_
    · assumption
    · refine (Device.wr_keeps S) ?_
      assumption
  · refine (Device.wrB_keeps S) ?_
    assumption

theorem ecAbortEff_keeps {P : Device → Prop} (S : Stable P) {q d} (hc : P d) : P (ecAbortEff q d) := by
  delta ecAbortEff
  refine keeps_ite ?_ ?_
  · assumption
  · refine (Device.stopCause_keeps S) ?_
    refine (Device.wr_keeps S) ?_
    assumption

theorem ecRestartEff_keeps {P : Device → Prop} (S : Stable P) {q d} (hc : P d) : P (ecRestartEff q d) := by
  delta ecRestartEff
  refine keeps_ite ?_ ?_
  · assumption
  · refine S.setWord _ _ ?_
    refine (Device.wr_keeps S) ?_
    assumption

theorem ecFlushEff_keeps {P : Device → Prop} (S : Stable P) {q d} (hc : P d) : P (ecFlushEff q d) := by
  delta ecFlushEff
  extract_lets -merge -useContext -underBinder +onlyGivenNames k0
  refine keeps_ite ?_ ?_
  · assumption
  · extract_lets -merge -useContext -underBinder +onlyGivenNames k1
    refine (Device.wr_keeps S) ?_
    refine (Device.updEc_keeps S) ?_
    assumption

theorem ecCplPopEff_keeps {P : Device → Prop} (S : Stable P) {q d} (hc : P d) : P (ecCplPopEff q d) := by
  delta ecCplPopEff
  split
  · refine (Device.answer_keeps S) ?_
    assumption
  · refine (Device.answer_keeps S) ?_
    refine (Device.updEc_keeps S) ?_
    assumption

theorem Device.applyRetry_keeps {P : Device → Prop} (S : Stable P) {d l o} (hc : P d) : P (Device.applyRetry d l o) := by
  delta Device.applyRetry
  refine keeps_ite ?_ ?_
  · refine (Device.setOffset_keeps S) ?_
    assumption
  · extract_lets -merge -useContext -underBinder +onlyGivenNames k0
    extract_lets -merge -useContext -underBinder +onlyGivenNames x1
    have hx1 : P x1 := by
      unfold x1
      refine keeps_ite ?_ ?_
      · assumption
      · refine (Device.paWrite_keeps S) ?_
        assumption
    refine (Device.setOffset_keeps S) ?_
    exact hx1

theorem dispatchEff_keeps {P : Device → Prop} (S : Stable P) {q bad d} (hc : P d) : P (dispatchEff q bad d) := by
  delta dispatchEff
  split
  · assumption
  · refine keeps_ite ?_ ?_
    · assumption
    · extract_lets -merge -useContext -underBinder +onlyGivenNames k0
      extract_lets -merge -useContext -underBinder +onlyGivenNames x1
      have hx1 : P x1 := by
        unfold x1
        refine S.setWord _ _ ?_
        refine (Device.updEc_keeps S) ?_
        assumption
      extract_lets -merge -useContext -underBinder +onlyGivenNames x2
      have hx2 : P x2 := by
        unfold x2
        refine (Device.applyRetry_keeps S) ?_
        refine (Device.wrAll_keeps S) ?_
        exact hx1
      refine keeps_ite ?_ ?_
      · refine (Device.machineCheck_keeps S) ?_
        exact hx2
      · split
        · refine (Device.machineCheck_keeps S) ?_
          exact hx2
        · refine (Device.ecGo_keeps S) ?_
          exact hx2

theorem frameEff_keeps {P : Device → Prop} (S : Stable P) {q d} (hc : P d) : P (frameEff q d) := by
  delta frameEff
  split
  · assumption
  · refine keeps_ite ?_ ?_
    · assumption
    · extract_lets -merge -useContext -underBinder +onlyGivenNames k0
      extract_lets -merge -useContext -underBinder +onlyGivenNames k1
      generalize k1 = z2
      split
      · refine (Device.safePoint_keeps S) ?_
        refine (Device.updOp_keeps S) ?_
        assumption
      · refine (Device.afterOp_keeps S) ?_
        refine (Device.completeOp_keeps S) ?_
        assumption

theorem ecNopEff_keeps {P : Device → Prop} (S : Stable P) {q w err d} (hc : P d) : P (ecNopEff q w err d) := by
  delta ecNopEff
  refine (Device.ecStep_keeps S) ?_ ?_
  · assumption
  · intro b0 b1 b2 hb2
    show P _
    refine (Device.ecGo_keeps S) ?_
    assumption

theorem ecLdiEff_keeps {P : Device → Prop} (S : Stable P) {q w err d} (hc : P d) : P (ecLdiEff q w err d) := by
  delta ecLdiEff
  refine (Device.ecStep_keeps S) ?_ ?_
  · assumption
  · intro b0 b1 b2 hb2
    show P _
    refine (Device.ecGo_keeps S) ?_
    refine (Device.ecSet_keeps S) ?_
    assumption

theorem ecAluEff_keeps {P : Device → Prop} (S : Stable P) {q w err d} (hc : P d) : P (ecAluEff q w err d) := by
  delta ecAluEff
  refine (Device.ecStep_keeps S) ?_ ?_
  · assumption
  · intro b0 b1 b2 hb2
    show P _
    extract_lets -merge -useContext -underBinder +onlyGivenNames k0
    split
    rename_i v' d' heq'
    have hd' : P d' := by
      show P (v', d').2
      rw [← heq']
      split
      · refine keeps_snd ?_
        assumption
      · refine (Device.freeFlag_keeps S) ?_
        assumption
    refine (Device.ecGo_keeps S) ?_
    refine (Device.ecResult_keeps S) ?_
    assumption

theorem ecAddiEff_keeps {P : Device → Prop} (S : Stable P) {q w err d} (hc : P d) : P (ecAddiEff q w err d) := by
  delta ecAddiEff
  refine (Device.ecStep_keeps S) ?_ ?_
  · assumption
  · intro b0 b1 b2 hb2
    show P _
    extract_lets -merge -useContext -underBinder +onlyGivenNames k0
    refine (Device.ecGo_keeps S) ?_
    refine (Device.ecResult_keeps S) ?_
    assumption

theorem ecRdpEff_keeps {P : Device → Prop} (S : Stable P) {q w err d} (hc : P d) : P (ecRdpEff q w err d) := by
  delta ecRdpEff
  refine (Device.ecStep_keeps S) ?_ ?_
  · assumption
  · intro b0 b1 b2 hb2
    show P _
    split
    · refine (Device.machineCheck_keeps S) ?_
      assumption
    · rename_i v' d' heq'
      have hd' : P d' := by
        refine (Device.readPort_keeps S) (v', d') heq' ?_
        assumption
      refine (Device.ecGo_keeps S) ?_
      refine (Device.ecSet_keeps S) ?_
      assumption

theorem Device.ecWritePort_keeps {P : Device → Prop} (S : Stable P) {d q o p v} (hc : P d) : P (Device.ecWritePort d q o p v) := by
  delta Device.ecWritePort
  split
  · refine (Device.machineCheck_keeps S) ?_
    assumption
  · rename_i d' heq'
    have hd' : P d' := by
      refine (Device.writePort_keeps S) d' heq' ?_
      assumption
    refine (Device.ecGo_keeps S) ?_
    assumption

theorem ecWrpEff_keeps {P : Device → Prop} (S : Stable P) {q w err d} (hc : P d) : P (ecWrpEff q w err d) := by
  delta ecWrpEff
  refine (Device.ecStep_keeps S) ?_ ?_
  · assumption
  · intro b0 b1 b2 hb2
    show P _
    refine (Device.ecWritePort_keeps S) ?_
    assumption

theorem ecWrpiEff_keeps {P : Device → Prop} (S : Stable P) {q w err d} (hc : P d) : P (ecWrpiEff q w err d) := by
  delta ecWrpiEff
  refine (Device.ecStep_keeps S) ?_ ?_
  · assumption
  · intro b0 b1 b2 hb2
    show P _
    refine (Device.ecWritePort_keeps S) ?_
    assumption

theorem ecJmpEff_keeps {P : Device → Prop} (S : Stable P) {q w err d} (hc : P d) : P (ecJmpEff q w err d) := by
  delta ecJmpEff
  refine (Device.ecStep_keeps S) ?_ ?_
  · assumption
  · intro b0 b1 b2 hb2
    show P _
    refine (Device.ecGo_keeps S) ?_
    assumption

theorem ecBrEff_keeps {P : Device → Prop} (S : Stable P) {q w err x d} (hc : P d) : P (ecBrEff q w err x d) := by
  delta ecBrEff
  refine (Device.ecStep_keeps S) ?_ ?_
  · assumption
  · intro b0 b1 b2 hb2
    show P _
    refine (Device.ecGo_keeps S) ?_
    assumption

theorem ecMwbEff_keeps {P : Device → Prop} (S : Stable P) {q w err x d} (hc : P d) : P (ecMwbEff q w err x d) := by
  delta ecMwbEff
  refine (Device.ecStep_keeps S) ?_ ?_
  · assumption
  · intro b0 b1 b2 hb2
    show P _
    refine (Device.ecGo_keeps S) ?_
    assumption

theorem ecCallEff_keeps {P : Device → Prop} (S : Stable P) {q w err d} (hc : P d) : P (ecCallEff q w err d) := by
  delta ecCallEff
  refine (Device.ecStep_keeps S) ?_ ?_
  · assumption
  · intro b0 b1 b2 hb2
    show P _
    refine keeps_ite ?_ ?_
    · refine (Device.machineCheck_keeps S) ?_
      assumption
    · refine (Device.ecGo_keeps S) ?_
      refine (Device.updOp_keeps S) ?_
      assumption

theorem ecRetEff_keeps {P : Device → Prop} (S : Stable P) {q w err d} (hc : P d) : P (ecRetEff q w err d) := by
  delta ecRetEff
  refine (Device.ecStep_keeps S) ?_ ?_
  · assumption
  · intro b0 b1 b2 hb2
    show P _
    split
    · refine (Device.machineCheck_keeps S) ?_
      assumption
    · refine (Device.ecGo_keeps S) ?_
      refine (Device.updOp_keeps S) ?_
      assumption

theorem ecWaitEff_keeps {P : Device → Prop} (S : Stable P) {q w err d} (hc : P d) : P (ecWaitEff q w err d) := by
  delta ecWaitEff
  refine (Device.ecStep_keeps S) ?_ ?_
  · assumption
  · intro b0 b1 b2 hb2
    show P _
    refine (Device.safePoint_keeps S) ?_
    refine (Device.updOp_keeps S) ?_
    assumption

theorem waitEndEff_keeps {P : Device → Prop} (S : Stable P) {q timeout x d} (hc : P d) : P (waitEndEff q timeout x d) := by
  delta waitEndEff
  split
  · assumption
  · split
    · assumption
    · refine keeps_ite ?_ ?_
      · assumption
      · refine (Device.ecGo_keeps S) ?_
        refine (Device.updOp_keeps S) ?_
        assumption

theorem ecSafeEff_keeps {P : Device → Prop} (S : Stable P) {q w err d} (hc : P d) : P (ecSafeEff q w err d) := by
  delta ecSafeEff
  refine (Device.ecStep_keeps S) ?_ ?_
  · assumption
  · intro b0 b1 b2 hb2
    show P _
    refine (Device.safePoint_keeps S) ?_
    refine (Device.ecGo_keeps S) ?_
    refine (Device.wr_keeps S) ?_
    assumption

theorem ecEndEff_keeps {P : Device → Prop} (S : Stable P) {q w err d} (hc : P d) : P (ecEndEff q w err d) := by
  delta ecEndEff
  refine (Device.ecStep_keeps S) ?_ ?_
  · assumption
  · intro b0 b1 b2 hb2
    show P _
    extract_lets -merge -useContext -underBinder +onlyGivenNames x0
    have hx0 : P x0 := by
      unfold x0
      refine (Device.safePoint_keeps S) ?_
      assumption
    split
    · exact hx0
    · refine keeps_ite ?_ ?_
      · exact hx0
      · refine keeps_ite ?_ ?_
        · refine (Device.afterOp_keeps S) ?_
          refine (Device.updOp_keeps S) ?_
          exact hx0
        · refine (Device.afterOp_keeps S) ?_
          refine (Device.completeOp_keeps S) ?_
          exact hx0

theorem stopCompleteEff_keeps {P : Device → Prop} (S : Stable P) {q d} (hc : P d) : P (stopCompleteEff q d) := by
  delta stopCompleteEff
  split
  · assumption
  · split
    · assumption
    · extract_lets -merge -useContext -underBinder +onlyGivenNames k0
      refine keeps_ite ?_ ?_
      · assumption
      · refine (Device.afterOp_keeps S) ?_
        refine (Device.wrAll_keeps S) ?_
        refine (Device.completeOp_keeps S) ?_
        assumption

theorem deadlineEff_keeps {P : Device → Prop} (S : Stable P) {q d} (hc : P d) : P (deadlineEff q d) := by
  delta deadlineEff
  split
  · assumption
  · refine keeps_ite ?_ ?_
    · refine (Device.machineCheck_keeps S) ?_
      assumption
    · assumption

theorem revLimitEff_keeps {P : Device → Prop} (S : Stable P) {q d} (hc : P d) : P (revLimitEff q d) := by
  delta revLimitEff
  split
  · assumption
  · refine keeps_ite ?_ ?_
    · assumption
    · refine (Device.stopCause_keeps S) ?_
      refine (Device.log_keeps S) ?_
      assumption

theorem execEcPostGo_keeps {P : Device → Prop} (S : Stable P) {a0 s t} (hc : P s.dev) (he : execEcPostGo a0 s = .next t) : P t.dev := by
  delta execEcPostGo at he
  refine State.upd_keeps hc he ?_
  intro d hd
  show P _
  refine (postGoEff_keeps S) ?_
  assumption

theorem execEcEnWrite_keeps {P : Device → Prop} (S : Stable P) {a0 a1 s t} (hc : P s.dev) (he : execEcEnWrite a0 a1 s = .next t) : P t.dev := by
  delta execEcEnWrite at he
  refine State.upd_keeps hc he ?_
  intro d hd
  show P _
  refine (ecEnEff_keeps S) ?_
  assumption

theorem execEcAbort_keeps {P : Device → Prop} (S : Stable P) {a0 s t} (hc : P s.dev) (he : execEcAbort a0 s = .next t) : P t.dev := by
  delta execEcAbort at he
  refine State.upd_keeps hc he ?_
  intro d hd
  show P _
  refine (ecAbortEff_keeps S) ?_
  assumption

theorem execEcRestart_keeps {P : Device → Prop} (S : Stable P) {a0 s t} (hc : P s.dev) (he : execEcRestart a0 s = .next t) : P t.dev := by
  delta execEcRestart at he
  refine State.upd_keeps hc he ?_
  intro d hd
  show P _
  refine (ecRestartEff_keeps S) ?_
  assumption

theorem execEcFlush_keeps {P : Device → Prop} (S : Stable P) {a0 s t} (hc : P s.dev) (he : execEcFlush a0 s = .next t) : P t.dev := by
  delta execEcFlush at he
  refine State.upd_keeps hc he ?_
  intro d hd
  show P _
  refine (ecFlushEff_keeps S) ?_
  assumption

theorem execEcCplPop_keeps {P : Device → Prop} (S : Stable P) {a0 s t} (hc : P s.dev) (he : execEcCplPop a0 s = .next t) : P t.dev := by
  delta execEcCplPop at he
  refine State.upd_keeps hc he ?_
  intro d hd
  show P _
  refine (ecCplPopEff_keeps S) ?_
  assumption

theorem execEcDispatch_keeps {P : Device → Prop} (S : Stable P) {a0 a1 s t} (hc : P s.dev) (he : execEcDispatch a0 a1 s = .next t) : P t.dev := by
  delta execEcDispatch at he
  refine State.upd_keeps hc he ?_
  intro d hd
  show P _
  refine (dispatchEff_keeps S) ?_
  assumption

theorem execFrameEntryFetched_keeps {P : Device → Prop} (S : Stable P) {a0 s t} (hc : P s.dev) (he : execFrameEntryFetched a0 s = .next t) : P t.dev := by
  delta execFrameEntryFetched at he
  refine State.upd_keeps hc he ?_
  intro d hd
  show P _
  refine (frameEff_keeps S) ?_
  assumption

theorem execEcNop_keeps {P : Device → Prop} (S : Stable P) {a0 a1 a2 s t} (hc : P s.dev) (he : execEcNop a0 a1 a2 s = .next t) : P t.dev := by
  delta execEcNop at he
  refine State.upd_keeps hc he ?_
  intro d hd
  show P _
  refine (ecNopEff_keeps S) ?_
  assumption

theorem execEcLdi_keeps {P : Device → Prop} (S : Stable P) {a0 a1 a2 s t} (hc : P s.dev) (he : execEcLdi a0 a1 a2 s = .next t) : P t.dev := by
  delta execEcLdi at he
  refine State.upd_keeps hc he ?_
  intro d hd
  show P _
  refine (ecLdiEff_keeps S) ?_
  assumption

theorem execEcAlu_keeps {P : Device → Prop} (S : Stable P) {a0 a1 a2 s t} (hc : P s.dev) (he : execEcAlu a0 a1 a2 s = .next t) : P t.dev := by
  delta execEcAlu at he
  refine State.upd_keeps hc he ?_
  intro d hd
  show P _
  refine (ecAluEff_keeps S) ?_
  assumption

theorem execEcAddi_keeps {P : Device → Prop} (S : Stable P) {a0 a1 a2 s t} (hc : P s.dev) (he : execEcAddi a0 a1 a2 s = .next t) : P t.dev := by
  delta execEcAddi at he
  refine State.upd_keeps hc he ?_
  intro d hd
  show P _
  refine (ecAddiEff_keeps S) ?_
  assumption

theorem execEcRdp_keeps {P : Device → Prop} (S : Stable P) {a0 a1 a2 s t} (hc : P s.dev) (he : execEcRdp a0 a1 a2 s = .next t) : P t.dev := by
  delta execEcRdp at he
  refine State.upd_keeps hc he ?_
  intro d hd
  show P _
  refine (ecRdpEff_keeps S) ?_
  assumption

theorem execEcWrp_keeps {P : Device → Prop} (S : Stable P) {a0 a1 a2 s t} (hc : P s.dev) (he : execEcWrp a0 a1 a2 s = .next t) : P t.dev := by
  delta execEcWrp at he
  refine State.upd_keeps hc he ?_
  intro d hd
  show P _
  refine (ecWrpEff_keeps S) ?_
  assumption

theorem execEcWrpi_keeps {P : Device → Prop} (S : Stable P) {a0 a1 a2 s t} (hc : P s.dev) (he : execEcWrpi a0 a1 a2 s = .next t) : P t.dev := by
  delta execEcWrpi at he
  refine State.upd_keeps hc he ?_
  intro d hd
  show P _
  refine (ecWrpiEff_keeps S) ?_
  assumption

theorem execEcJmp_keeps {P : Device → Prop} (S : Stable P) {a0 a1 a2 s t} (hc : P s.dev) (he : execEcJmp a0 a1 a2 s = .next t) : P t.dev := by
  delta execEcJmp at he
  refine State.upd_keeps hc he ?_
  intro d hd
  show P _
  refine (ecJmpEff_keeps S) ?_
  assumption

theorem execEcBr_keeps {P : Device → Prop} (S : Stable P) {a0 a1 a2 a3 s t} (hc : P s.dev) (he : execEcBr a0 a1 a2 a3 s = .next t) : P t.dev := by
  delta execEcBr at he
  refine State.upd_keeps hc he ?_
  intro d hd
  show P _
  refine (ecBrEff_keeps S) ?_
  assumption

theorem execEcMwb_keeps {P : Device → Prop} (S : Stable P) {a0 a1 a2 a3 s t} (hc : P s.dev) (he : execEcMwb a0 a1 a2 a3 s = .next t) : P t.dev := by
  delta execEcMwb at he
  refine State.upd_keeps hc he ?_
  intro d hd
  show P _
  refine (ecMwbEff_keeps S) ?_
  assumption

theorem execEcCall_keeps {P : Device → Prop} (S : Stable P) {a0 a1 a2 s t} (hc : P s.dev) (he : execEcCall a0 a1 a2 s = .next t) : P t.dev := by
  delta execEcCall at he
  refine State.upd_keeps hc he ?_
  intro d hd
  show P _
  refine (ecCallEff_keeps S) ?_
  assumption

theorem execEcRet_keeps {P : Device → Prop} (S : Stable P) {a0 a1 a2 s t} (hc : P s.dev) (he : execEcRet a0 a1 a2 s = .next t) : P t.dev := by
  delta execEcRet at he
  refine State.upd_keeps hc he ?_
  intro d hd
  show P _
  refine (ecRetEff_keeps S) ?_
  assumption

theorem execEcWait_keeps {P : Device → Prop} (S : Stable P) {a0 a1 a2 s t} (hc : P s.dev) (he : execEcWait a0 a1 a2 s = .next t) : P t.dev := by
  delta execEcWait at he
  refine State.upd_keeps hc he ?_
  intro d hd
  show P _
  refine (ecWaitEff_keeps S) ?_
  assumption

theorem execWaitEnd_keeps {P : Device → Prop} (S : Stable P) {a0 a1 a2 s t} (hc : P s.dev) (he : execWaitEnd a0 a1 a2 s = .next t) : P t.dev := by
  delta execWaitEnd at he
  refine State.upd_keeps hc he ?_
  intro d hd
  show P _
  refine (waitEndEff_keeps S) ?_
  assumption

theorem execEcSafe_keeps {P : Device → Prop} (S : Stable P) {a0 a1 a2 s t} (hc : P s.dev) (he : execEcSafe a0 a1 a2 s = .next t) : P t.dev := by
  delta execEcSafe at he
  refine State.upd_keeps hc he ?_
  intro d hd
  show P _
  refine (ecSafeEff_keeps S) ?_
  assumption

theorem execEcEnd_keeps {P : Device → Prop} (S : Stable P) {a0 a1 a2 s t} (hc : P s.dev) (he : execEcEnd a0 a1 a2 s = .next t) : P t.dev := by
  delta execEcEnd at he
  refine State.upd_keeps hc he ?_
  intro d hd
  show P _
  refine (ecEndEff_keeps S) ?_
  assumption

theorem execStopComplete_keeps {P : Device → Prop} (S : Stable P) {a0 s t} (hc : P s.dev) (he : execStopComplete a0 s = .next t) : P t.dev := by
  delta execStopComplete at he
  refine State.upd_keeps hc he ?_
  intro d hd
  show P _
  refine (stopCompleteEff_keeps S) ?_
  assumption

theorem execSafePointDeadline_keeps {P : Device → Prop} (S : Stable P) {a0 s t} (hc : P s.dev) (he : execSafePointDeadline a0 s = .next t) : P t.dev := by
  delta execSafePointDeadline at he
  refine State.upd_keeps hc he ?_
  intro d hd
  show P _
  refine (deadlineEff_keeps S) ?_
  assumption

theorem execRevLimit_keeps {P : Device → Prop} (S : Stable P) {a0 s t} (hc : P s.dev) (he : execRevLimit a0 s = .next t) : P t.dev := by
  delta execRevLimit at he
  refine State.upd_keeps hc he ?_
  intro d hd
  show P _
  refine (revLimitEff_keeps S) ?_
  assumption

end Sys2Proof.Machine
end

