-- ==== Sys2Proof/Laws/KeepFabric.lean ====
section
/-!
SUPPORT. Which of registers, memory and fuses each operation and each command of Machine/Fabric.lean writes (Laws/Canon.lean).
-/
namespace Sys2Proof.Machine

theorem fabricRequestEff_keeps {P : Device → Prop} (S : MemStable P) {id who urgent point a acc par d} (hc : P d) : P (fabricRequestEff id who urgent point a acc par d) := by
  delta fabricRequestEff
  extract_lets -merge -useContext -underBinder +onlyGivenNames x0i0 x0
  have hx0 : P x0 := by
    unfold x0
    refine S.congr (d := d) ?_ rfl rfl rfl
    assumption
  split
  · refine keeps_ite ?_ ?_
    · refine (Device.emit_keeps S.toStable) ?_
      assumption
    · split
      · exact hx0
      · refine (Device.emit_keeps S.toStable) ?_
        assumption
      · refine (Device.emit_keeps S.toStable) ?_
        assumption
      · split
        · refine keeps_ite ?_ ?_
          · refine (Device.emit_keeps S.toStable) ?_
            refine (Device.writePoisoned_keeps S) ?_
            assumption
          · refine (Device.emit_keeps S.toStable) ?_
            assumption
        · refine (Device.emit_keeps S.toStable) ?_
          assumption
  · split
    · exact hx0
    · refine (Device.emit_keeps S.toStable) ?_
      assumption

theorem Device.grantReq_keeps {P : Device → Prop} (S : Stable P) {d r} (hc : P d) : P (Device.grantReq d r) := by
  delta Device.grantReq
  refine S.congr (d := d) ?_ rfl rfl rfl
  assumption

theorem arbitrationGrantEff_keeps {P : Device → Prop} (S : Stable P) {point d} (hc : P d) : P (arbitrationGrantEff point d) := by
  delta arbitrationGrantEff
  split
  · refine keeps_ite ?_ ?_
    · assumption
    · split
      · refine (Device.setPointer_keeps S) ?_
        refine (Device.grantReq_keeps S) ?_
        assumption
      · refine (Device.grantReq_keeps S) ?_
        assumption
  · split
    · refine (Device.setPointer_keeps S) ?_
      refine (Device.grantReq_keeps S) ?_
      assumption
    · assumption

theorem servicePortForcedEff_keeps {P : Device → Prop} (S : Stable P) {point d} (hc : P d) : P (servicePortForcedEff point d) := by
  delta servicePortForcedEff
  split
  · refine keeps_ite ?_ ?_
    · refine (Device.grantReq_keeps S) ?_
      assumption
    · assumption
  · assumption

theorem fabricTimeoutEff_keeps {P : Device → Prop} (S : Stable P) {id d} (hc : P d) : P (fabricTimeoutEff id d) := by
  delta fabricTimeoutEff
  refine keeps_ite ?_ ?_
  · refine (Device.emit_keeps S) ?_
    refine S.congr (d := d) ?_ rfl rfl rfl
    assumption
  · assumption

theorem lateDiscardEff_keeps {P : Device → Prop} (S : Stable P) {id d} (hc : P d) : P (lateDiscardEff id d) := by
  delta lateDiscardEff
  refine S.congr (d := d) ?_ rfl rfl rfl
  assumption

theorem execFabricRequest_keeps {P : Device → Prop} (S : MemStable P) {a0 a1 a2 a3 a4 a5 a6 s t} (hc : P s.dev) (he : execFabricRequest a0 a1 a2 a3 a4 a5 a6 s = .next t) : P t.dev := by
  delta execFabricRequest at he
  refine State.upd_keeps hc he ?_
  intro d hd
  show P _
  refine (fabricRequestEff_keeps S) ?_
  assumption

theorem execArbitrationGrant_keeps {P : Device → Prop} (S : Stable P) {a0 s t} (hc : P s.dev) (he : execArbitrationGrant a0 s = .next t) : P t.dev := by
  delta execArbitrationGrant at he
  refine State.upd_keeps hc he ?_
  intro d hd
  show P _
  refine (arbitrationGrantEff_keeps S) ?_
  assumption

theorem execServicePortForcedGrant_keeps {P : Device → Prop} (S : Stable P) {a0 s t} (hc : P s.dev) (he : execServicePortForcedGrant a0 s = .next t) : P t.dev := by
  delta execServicePortForcedGrant at he
  refine State.upd_keeps hc he ?_
  intro d hd
  show P _
  refine (servicePortForcedEff_keeps S) ?_
  assumption

theorem execFabricResponseTimeout_keeps {P : Device → Prop} (S : Stable P) {a0 s t} (hc : P s.dev) (he : execFabricResponseTimeout a0 s = .next t) : P t.dev := by
  delta execFabricResponseTimeout at he
  refine State.upd_keeps hc he ?_
  intro d hd
  show P _
  refine (fabricTimeoutEff_keeps S) ?_
  assumption

theorem execLateResponseDiscard_keeps {P : Device → Prop} (S : Stable P) {a0 s t} (hc : P s.dev) (he : execLateResponseDiscard a0 s = .next t) : P t.dev := by
  delta execLateResponseDiscard at he
  refine State.upd_keeps hc he ?_
  intro d hd
  show P _
  refine (lateDiscardEff_keeps S) ?_
  assumption

end Sys2Proof.Machine
end

