-- ==== Sys2Proof/Laws/KeepManagement.lean ====
section
/-!
SUPPORT. Which of registers, memory and fuses each operation and each command of Machine/Management.lean writes (Laws/Canon.lean).
-/
namespace Sys2Proof.Machine

theorem Device.onMi_keeps {P : Device → Prop} (S : Stable P) {d f} (hc : P d) (hf : ∀ d, P d → P (f d)) : P (Device.onMi d f) := keeps_ite (hf _ hc) hc

theorem Device.miRefuse_keeps {P : Device → Prop} (S : Stable P) {d code} (hc : P d) : P (Device.miRefuse d code) := by
  delta Device.miRefuse
  refine (Device.log_keeps S) ?_
  refine (Device.emit_keeps S) ?_
  assumption

theorem miConfigSetEff_keeps {P : Device → Prop} (S : Stable P) {khz d} (hc : P d) : P (miConfigSetEff khz d) := by
  delta miConfigSetEff
  refine (Device.onMi_keeps S) ?_ ?_
  · assumption
  · intro b0 hb0
    show P _
    refine keeps_ite ?_ ?_
    · refine (Device.emit_keeps S) ?_
      refine (Device.updHost_keeps S) ?_
      assumption
    · refine (Device.miRefuse_keeps S) ?_
      assumption

theorem miIdentifyEff_keeps {P : Device → Prop} (S : Stable P) {c cns nsid d} (hc : P d) : P (miIdentifyEff c cns nsid d) := by
  delta miIdentifyEff
  refine (Device.onMi_keeps S) ?_ ?_
  · assumption
  · intro b0 hb0
    show P _
    split
    · refine (Device.miRefuse_keeps S) ?_
      assumption
    · refine (Device.emit_keeps S) ?_
      refine (Device.emit_keeps S) ?_
      assumption

theorem miLogEff_keeps {P : Device → Prop} (S : Stable P) {c lid nsid lsp off len d} (hc : P d) : P (miLogEff c lid nsid lsp off len d) := by
  delta miLogEff
  refine (Device.onMi_keeps S) ?_ ?_
  · assumption
  · intro b0 hb0
    show P _
    split
    · refine (Device.miRefuse_keeps S) ?_
      assumption
    · rename_i d' heq'
      have hd' : P d' := by
        refine (Device.getLog_keeps S) d' heq' ?_
        assumption
      refine (Device.emit_keeps S) ?_
      assumption

theorem miFeaturesEff_keeps {P : Device → Prop} (S : Stable P) {c fid nsid dw11 d} (hc : P d) : P (miFeaturesEff c fid nsid dw11 d) := by
  delta miFeaturesEff
  refine (Device.onMi_keeps S) ?_ ?_
  · assumption
  · intro b0 hb0
    show P _
    refine keeps_ite ?_ ?_
    · refine (Device.miRefuse_keeps S) ?_
      assumption
    · split
      · refine (Device.emit_keeps S) ?_
        refine (Device.emit_keeps S) ?_
        assumption

theorem miForceEff_keeps {P : Device → Prop} (S : Stable P) {target reserved limit d} (hc : P d) : P (miForceEff target reserved limit d) := by
  delta miForceEff
  refine (Device.onMi_keeps S) ?_ ?_
  · assumption
  · intro b0 hb0
    show P _
    refine keeps_ite ?_ ?_
    · refine (Device.miRefuse_keeps S) ?_
      assumption
    · refine keeps_ite ?_ ?_
      · refine (Device.miRefuse_keeps S) ?_
        assumption
      · refine keeps_ite ?_ ?_
        · refine (Device.miRefuse_keeps S) ?_
          assumption
        · extract_lets -merge -useContext -underBinder +onlyGivenNames x0
          have hx0 : P x0 := by
            unfold x0
            refine keeps_ite ?_ ?_
            · refine (Device.emit_keeps S) ?_
              assumption
            · assumption
          extract_lets -merge -useContext -underBinder +onlyGivenNames x1
          have hx1 : P x1 := by
            unfold x1
            refine keeps_foldl ?_ ?_
            · intro d' x' hd'
              show P _
              refine (Device.updCtrl_keeps S) ?_
              assumption
            · exact hx0
          refine (Device.updHost_keeps S) ?_
          exact S.congr hx1 rfl rfl rfl

theorem forceDrainEff_keeps {P : Device → Prop} (S : MemStable P) {d} (hc : P d) : P (forceDrainEff d) := by
  delta forceDrainEff
  split
  · assumption
  · refine keeps_ite ?_ ?_
    · assumption
    · extract_lets -merge -useContext -underBinder +onlyGivenNames x0
      have hx0 : P x0 := by
        unfold x0
        refine (Device.settle_keeps S) ?_
        refine keeps_foldl ?_ ?_
        · intro d' x' hd'
          show P _
          refine (Device.abortCmd_keeps S.toStable) ?_
          assumption
        · assumption
      refine (Device.log_keeps S.toStable) ?_
      exact S.congr hx0 rfl rfl rfl

theorem Device.autoStep_keeps {P : Device → Prop} (S : Stable P) {d t} (hc : P d) : P (Device.autoStep d t) := by
  delta Device.autoStep
  extract_lets -merge -useContext -underBinder +onlyGivenNames k0
  refine (Device.updHost_keeps S) ?_
  refine S.congr (d := d) ?_ rfl rfl rfl
  assumption

theorem apstIdleEff_keeps {P : Device → Prop} (S : Stable P) {c d} (hc : P d) : P (apstIdleEff c d) := by
  delta apstIdleEff
  extract_lets -merge -useContext -underBinder +onlyGivenNames k0
  refine keeps_ite ?_ ?_
  · assumption
  · split
    · assumption
    · refine keeps_ite ?_ ?_
      · assumption
      · refine keeps_ite ?_ ?_
        · refine S.congr (d := d) ?_ rfl rfl rfl
          assumption
        · refine (Device.autoStep_keeps S) ?_
          assumption

theorem apstTickEff_keeps {P : Device → Prop} (S : Stable P) {d} (hc : P d) : P (apstTickEff d) := by
  delta apstTickEff
  split
  · assumption
  · refine keeps_ite ?_ ?_
    · refine S.congr (d := d) ?_ rfl rfl rfl
      assumption
    · refine keeps_ite ?_ ?_
      · assumption
      · refine (Device.autoStep_keeps S) ?_
        assumption

theorem Device.threshold_keeps {P : Device → Prop} (S : Stable P) {d c i} (hc : P d) : P (Device.threshold d c i) := by
  delta Device.threshold
  split
  · assumption
  · extract_lets -merge -useContext -underBinder +onlyGivenNames k0
    extract_lets -merge -useContext -underBinder +onlyGivenNames k1
    refine keeps_ite ?_ ?_
    · assumption
    · extract_lets -merge -useContext -underBinder +onlyGivenNames x2i0 x2
      have hx2 : P x2 := by
        unfold x2
        refine S.congr (d := d) ?_ rfl rfl rfl
        assumption
      refine keeps_ite ?_ ?_
      · exact hx2
      · refine (Device.aenOn_keeps S) ?_
        exact hx2

theorem tempThresholdEff_keeps {P : Device → Prop} (S : Stable P) {d} (hc : P d) : P (tempThresholdEff d) := by
  delta tempThresholdEff
  refine (Device.onMi_keeps S) ?_ ?_
  · assumption
  · intro b0 hb0
    show P _
    refine keeps_foldl ?_ ?_
    · intro d' x' hd'
      show P _
      refine keeps_foldl ?_ ?_
      · intro d' x' hd'
        show P _
        refine (Device.threshold_keeps S) ?_
        assumption
      · assumption
    · assumption

theorem execMiReadDataStructure_keeps {P : Device → Prop} (S : Stable P) {a0 s t} (hc : P s.dev) (he : execMiReadDataStructure a0 s = .next t) : P t.dev := by
  delta execMiReadDataStructure at he
  refine State.upd_keeps hc he ?_
  intro d hd
  show P _
  refine (Device.onMi_keeps S) ?_ ?_
  · assumption
  · intro b0 hb0
    show P _
    refine (Device.emit_keeps S) ?_
    refine (Device.emit_keeps S) ?_
    assumption

theorem execMiSubsystemHealthPoll_keeps {P : Device → Prop} (S : Stable P) {s t} (hc : P s.dev) (he : execMiSubsystemHealthPoll s = .next t) : P t.dev := by
  delta execMiSubsystemHealthPoll at he
  refine State.upd_keeps hc he ?_
  intro d hd
  show P _
  refine (Device.onMi_keeps S) ?_ ?_
  · assumption
  · intro b0 hb0
    show P _
    refine (Device.emit_keeps S) ?_
    refine (Device.emit_keeps S) ?_
    assumption

theorem execMiControllerHealthPoll_keeps {P : Device → Prop} (S : Stable P) {s t} (hc : P s.dev) (he : execMiControllerHealthPoll s = .next t) : P t.dev := by
  delta execMiControllerHealthPoll at he
  refine State.upd_keeps hc he ?_
  intro d hd
  show P _
  refine (Device.onMi_keeps S) ?_ ?_
  · assumption
  · intro b0 hb0
    show P _
    refine (Device.emit_keeps S) ?_
    refine (Device.emit_keeps S) ?_
    assumption

theorem execMiConfigGet_keeps {P : Device → Prop} (S : Stable P) {s t} (hc : P s.dev) (he : execMiConfigGet s = .next t) : P t.dev := by
  delta execMiConfigGet at he
  refine State.upd_keeps hc he ?_
  intro d hd
  show P _
  refine (Device.onMi_keeps S) ?_ ?_
  · assumption
  · intro b0 hb0
    show P _
    refine (Device.emit_keeps S) ?_
    refine (Device.emit_keeps S) ?_
    assumption

theorem execMiConfigSet_keeps {P : Device → Prop} (S : Stable P) {a0 s t} (hc : P s.dev) (he : execMiConfigSet a0 s = .next t) : P t.dev := by
  delta execMiConfigSet at he
  refine State.upd_keeps hc he ?_
  intro d hd
  show P _
  refine (miConfigSetEff_keeps S) ?_
  assumption

theorem execMiTunnelIdentify_keeps {P : Device → Prop} (S : Stable P) {a0 a1 a2 s t} (hc : P s.dev) (he : execMiTunnelIdentify a0 a1 a2 s = .next t) : P t.dev := by
  delta execMiTunnelIdentify at he
  refine State.upd_keeps hc he ?_
  intro d hd
  show P _
  refine (miIdentifyEff_keeps S) ?_
  assumption

theorem execMiTunnelGetLogPage_keeps {P : Device → Prop} (S : Stable P) {a0 a1 a2 a3 a4 a5 s t} (hc : P s.dev) (he : execMiTunnelGetLogPage a0 a1 a2 a3 a4 a5 s = .next t) : P t.dev := by
  delta execMiTunnelGetLogPage at he
  refine State.upd_keeps hc he ?_
  intro d hd
  show P _
  refine (miLogEff_keeps S) ?_
  assumption

theorem execMiTunnelGetFeatures_keeps {P : Device → Prop} (S : Stable P) {a0 a1 a2 a3 s t} (hc : P s.dev) (he : execMiTunnelGetFeatures a0 a1 a2 a3 s = .next t) : P t.dev := by
  delta execMiTunnelGetFeatures at he
  refine State.upd_keeps hc he ?_
  intro d hd
  show P _
  refine (miFeaturesEff_keeps S) ?_
  assumption

theorem execMiBasicManagement_keeps {P : Device → Prop} (S : Stable P) {s t} (hc : P s.dev) (he : execMiBasicManagement s = .next t) : P t.dev := by
  delta execMiBasicManagement at he
  refine State.upd_keeps hc he ?_
  intro d hd
  show P _
  refine (Device.onMi_keeps S) ?_ ?_
  · assumption
  · intro b0 hb0
    show P _
    refine (Device.emit_keeps S) ?_
    assumption

theorem execMiUnsupportedRequest_keeps {P : Device → Prop} (S : Stable P) {a0 s t} (hc : P s.dev) (he : execMiUnsupportedRequest a0 s = .next t) : P t.dev := by
  delta execMiUnsupportedRequest at he
  refine State.upd_keeps hc he ?_
  intro d hd
  show P _
  refine keeps_ite ?_ ?_
  · assumption
  · refine (Device.onMi_keeps S) ?_ ?_
    · assumption
    · intro b0 hb0
      show P _
      refine (Device.miRefuse_keeps S) ?_
      assumption

theorem execMiForcePowerState_keeps {P : Device → Prop} (S : Stable P) {a0 a1 a2 s t} (hc : P s.dev) (he : execMiForcePowerState a0 a1 a2 s = .next t) : P t.dev := by
  delta execMiForcePowerState at he
  refine State.upd_keeps hc he ?_
  intro d hd
  show P _
  refine (miForceEff_keeps S) ?_
  assumption

theorem execForceDrainExpire_keeps {P : Device → Prop} (S : MemStable P) {s t} (hc : P s.dev) (he : execForceDrainExpire s = .next t) : P t.dev := by
  delta execForceDrainExpire at he
  refine State.upd_keeps hc he ?_
  intro d hd
  show P _
  refine (forceDrainEff_keeps S) ?_
  assumption

theorem execApstIdleTimeout_keeps {P : Device → Prop} (S : Stable P) {a0 s t} (hc : P s.dev) (he : execApstIdleTimeout a0 s = .next t) : P t.dev := by
  delta execApstIdleTimeout at he
  refine State.upd_keeps hc he ?_
  intro d hd
  show P _
  refine (apstIdleEff_keeps S) ?_
  assumption

theorem execApstTickBoundaryStep_keeps {P : Device → Prop} (S : Stable P) {s t} (hc : P s.dev) (he : execApstTickBoundaryStep s = .next t) : P t.dev := by
  delta execApstTickBoundaryStep at he
  refine State.upd_keeps hc he ?_
  intro d hd
  show P _
  refine (apstTickEff_keeps S) ?_
  assumption

theorem execTempThresholdEval_keeps {P : Device → Prop} (S : Stable P) {s t} (hc : P s.dev) (he : execTempThresholdEval s = .next t) : P t.dev := by
  delta execTempThresholdEval at he
  refine State.upd_keeps hc he ?_
  intro d hd
  show P _
  refine (tempThresholdEff_keeps S) ?_
  assumption

end Sys2Proof.Machine
end

