-- ==== Sys2Proof/Laws/KeepServo.lean ====
section
/-!
SUPPORT. Which of registers, memory and fuses each operation and each command of Machine/Servo.lean writes (Laws/Canon.lean).
-/
namespace Sys2Proof.Machine

theorem Device.takeWedge_keeps {P : Device → Prop} (S : Stable P) {d l w shift bad} (hc : P d) : P (Device.takeWedge d l w shift bad) := by
  delta Device.takeWedge
  extract_lets -merge -useContext -underBinder +onlyGivenNames k0 k1
  split
  rename_i v' d' heq'
  have hd' : P d' := by
    show P (v', d').2
    rw [← heq']
    exact keeps_ite2 hc (Device.pesValue_keeps S hc)
  refine Device.updSv_keeps S ?_
  exact keeps_ite (Device.incSat_keeps S hd') (Device.wrAll_keeps S (Device.wrI_keeps S hd'))

theorem Device.countSettle_keeps {P : Device → Prop} (S : Stable P) {d l} (hc : P d) : P (Device.countSettle d l) := by
  delta Device.countSettle
  extract_lets -merge -useContext -underBinder +onlyGivenNames k0
  refine keeps_ite ?_ ?_
  · assumption
  · extract_lets -merge -useContext -underBinder +onlyGivenNames k1
    refine (Device.updSv_keeps S) ?_
    assumption

theorem Device.substituted_keeps {P : Device → Prop} (S : Stable P) {d l sub} (hc : P d) : P (Device.substituted d l sub) := by
  delta Device.substituted
  refine keeps_ite ?_ ?_
  · assumption
  · refine (Device.logRate_keeps S) ?_
    refine (Device.dxCount_keeps S) ?_
    refine (Device.wr_keeps S) ?_
    assumption

theorem Device.startOrHold_keeps {P : Device → Prop} (S : Stable P) {d l pesb} (hc : P d) : P (Device.startOrHold d l pesb) := by
  delta Device.startOrHold
  refine keeps_ite ?_ ?_
  · assumption
  · refine keeps_ite ?_ ?_
    · refine (Device.updBe_keeps S) ?_
      assumption
    · refine (Device.sampleStart_keeps S) ?_
      assumption

theorem wedgeEff_keeps {P : Device → Prop} (S : Stable P) {l w b interval d} (hc : P d) : P (wedgeEff l w b interval d) := by
  delta wedgeEff
  refine keeps_ite ?_ ?_
  · assumption
  · extract_lets -merge -useContext -underBinder +onlyGivenNames x0
    have hx0 : P x0 := by
      unfold x0
      refine (Device.wr_keeps S) ?_
      assumption
    extract_lets -merge -useContext -underBinder +onlyGivenNames k1
    split
    · extract_lets -merge -useContext -underBinder +onlyGivenNames x2
      have hx2 : P x2 := by
        unfold x2
        refine (Device.countWedge_keeps S) ?_
        refine (Device.countSettle_keeps S) ?_
        refine (Device.substituted_keeps S) ?_
        refine (Device.takeWedge_keeps S) ?_
        exact hx0
      refine (Device.startOrHold_keeps S) ?_
      refine (Device.pesCheck_keeps S) ?_
      exact hx2

theorem lateEff_keeps {P : Device → Prop} (S : Stable P) {l d} (hc : P d) : P (lateEff l d) := by
  delta lateEff
  extract_lets -merge -useContext -underBinder +onlyGivenNames k0
  refine keeps_ite ?_ ?_
  · assumption
  · refine (Device.sampleStart_keeps S) ?_
    refine (Device.wr_keeps S) ?_
    assumption

theorem svLoadEff_keeps {P : Device → Prop} (S : Stable P) {l d} (hc : P d) : P (svLoadEff l d) := by
  delta svLoadEff
  refine keeps_ite ?_ ?_
  · extract_lets -merge -useContext -underBinder +onlyGivenNames x0i0 x0
    have hx0 : P x0 := by
      unfold x0
      refine S.congr (d := d) ?_ rfl rfl rfl
      assumption
    refine (Device.updSv_keeps S) ?_
    refine (Device.svEnter_keeps S) ?_
    exact hx0
  · refine (Device.svRefuse_keeps S) ?_
    assumption

theorem Device.takeHead_keeps {P : Device → Prop} (S : Stable P) {d l} (hc : P d) : P (Device.takeHead d l) := by
  delta Device.takeHead
  extract_lets -merge -useContext -underBinder +onlyGivenNames k0
  refine keeps_ite ?_ ?_
  · assumption
  · refine (Device.selectHead_keeps S) ?_
    refine (Device.wr_keeps S) ?_
    assumption

theorem svSeekEff_keeps {P : Device → Prop} (S : Stable P) {l d} (hc : P d) : P (svSeekEff l d) := by
  delta svSeekEff
  split
  · refine (Device.enterSeek_keeps S) ?_
    refine (Device.takeHead_keeps S) ?_
    assumption
  · refine (Device.enterSeek_keeps S) ?_
    refine (Device.takeHead_keeps S) ?_
    assumption
  · refine (Device.enterSeek_keeps S) ?_
    refine (Device.takeHead_keeps S) ?_
    assumption
  · refine (Device.updSv_keeps S) ?_
    refine (Device.takeHead_keeps S) ?_
    assumption
  · refine (Device.svRefuse_keeps S) ?_
    assumption

theorem svUnloadEff_keeps {P : Device → Prop} (S : Stable P) {l d} (hc : P d) : P (svUnloadEff l d) := by
  delta svUnloadEff
  extract_lets -merge -useContext -underBinder +onlyGivenNames k0
  refine keeps_ite ?_ ?_
  · refine (Device.enterUnload_keeps S) ?_
    assumption
  · refine (Device.svRefuse_keeps S) ?_
    assumption

theorem svEnEff_keeps {P : Device → Prop} (S : Stable P) {l en d} (hc : P d) : P (svEnEff l en d) := by
  delta svEnEff
  refine keeps_ite ?_ ?_
  · refine (Device.svWake_keeps S) ?_
    refine (Device.wr_keeps S) ?_
    assumption
  · split
    · refine (Device.wr_keeps S) ?_
      assumption
    · refine (Device.svEnter_keeps S) ?_
      refine (Device.wr_keeps S) ?_
      assumption
    · refine (Device.svEnter_keeps S) ?_
      refine (Device.wr_keeps S) ?_
      assumption
    · refine (Device.svRefuse_keeps S) ?_
      assumption

theorem svCalEff_keeps {P : Device → Prop} (S : Stable P) {l cal d} (hc : P d) : P (svCalEff l cal d) := by
  delta svCalEff
  refine keeps_ite ?_ ?_
  · refine (Device.svRefuse_keeps S) ?_
    assumption
  · refine (Device.wrB_keeps S) ?_
    assumption

theorem svTargetEff_keeps {P : Device → Prop} (S : Stable P) {l head track d} (hc : P d) : P (svTargetEff l head track d) := by
  delta svTargetEff
  extract_lets -merge -useContext -underBinder +onlyGivenNames k0
  extract_lets -merge -useContext -underBinder +onlyGivenNames x1
  have hx1 : P x1 := by
    unfold x1
    refine (Device.wr_keeps S) ?_
    refine (Device.wr_keeps S) ?_
    assumption
  refine keeps_ite ?_ ?_
  · refine (Device.enterSettle_keeps S) ?_
    exact hx1
  · exact hx1

theorem loadAcquiredEff_keeps {P : Device → Prop} (S : Stable P) {l d} (hc : P d) : P (loadAcquiredEff l d) := by
  delta loadAcquiredEff
  refine keeps_ite ?_ ?_
  · refine (Device.enterSeek_keeps S) ?_
    refine (Device.takeHead_keeps S) ?_
    assumption
  · assumption

theorem loadTimeoutEff_keeps {P : Device → Prop} (S : Stable P) {l d} (hc : P d) : P (loadTimeoutEff l d) := by
  delta loadTimeoutEff
  refine keeps_ite ?_ ?_
  · refine (Device.log_keeps S) ?_
    refine (Device.enterUnload_keeps S) ?_
    assumption
  · assumption

theorem servoLostEff_keeps {P : Device → Prop} (S : Stable P) {l d} (hc : P d) : P (servoLostEff l d) := by
  delta servoLostEff
  extract_lets -merge -useContext -underBinder +onlyGivenNames k0
  refine keeps_ite ?_ ?_
  · refine (Device.log_keeps S) ?_
    refine (Device.wr_keeps S) ?_
    refine (Device.enterRecover_keeps S) ?_
    assumption
  · assumption

theorem seekEndEff_keeps {P : Device → Prop} (S : Stable P) {l d} (hc : P d) : P (seekEndEff l d) := by
  delta seekEndEff
  refine keeps_ite ?_ ?_
  · refine (Device.wr_keeps S) ?_
    refine (Device.enterSettle_keeps S) ?_
    assumption
  · assumption

theorem settleEff_keeps {P : Device → Prop} (S : Stable P) {l d} (hc : P d) : P (settleEff l d) := by
  delta settleEff
  extract_lets -merge -useContext -underBinder +onlyGivenNames k0
  refine keeps_ite ?_ ?_
  · refine (Device.wr_keeps S) ?_
    refine (Device.svEnter_keeps S) ?_
    assumption
  · assumption

theorem settleTimeoutEff_keeps {P : Device → Prop} (S : Stable P) {l d} (hc : P d) : P (settleTimeoutEff l d) := by
  delta settleTimeoutEff
  refine keeps_ite ?_ ?_
  · refine (Device.log_keeps S) ?_
    refine (Device.enterRecover_keeps S) ?_
    assumption
  · assumption

theorem recoverEff_keeps {P : Device → Prop} (S : Stable P) {l d} (hc : P d) : P (recoverEff l d) := by
  delta recoverEff
  refine keeps_ite ?_ ?_
  · refine (Device.log_keeps S) ?_
    refine (Device.wr_keeps S) ?_
    refine (Device.enterSettle_keeps S) ?_
    assumption
  · assumption

theorem recoverTimeoutEff_keeps {P : Device → Prop} (S : Stable P) {l d} (hc : P d) : P (recoverTimeoutEff l d) := by
  delta recoverTimeoutEff
  refine keeps_ite ?_ ?_
  · refine (Device.log_keeps S) ?_
    refine (Device.enterUnload_keeps S) ?_
    assumption
  · assumption

theorem unloadTimeoutEff_keeps {P : Device → Prop} (S : Stable P) {l d} (hc : P d) : P (unloadTimeoutEff l d) := by
  delta unloadTimeoutEff
  refine keeps_ite ?_ ?_
  · refine (Device.emergencyRetract_keeps S) ?_
    refine (Device.log_keeps S) ?_
    assumption
  · assumption

theorem unloadStoppedEff_keeps {P : Device → Prop} (S : Stable P) {l d} (hc : P d) : P (unloadStoppedEff l d) := by
  delta unloadStoppedEff
  extract_lets -merge -useContext -underBinder +onlyGivenNames k0
  refine keeps_ite ?_ ?_
  · assumption
  · refine keeps_ite ?_ ?_
    · refine (Device.svEnter_keeps S) ?_
      assumption
    · refine keeps_ite ?_ ?_
      · refine (Device.updSv_keeps S) ?_
        refine (Device.svEnter_keeps S) ?_
        assumption
      · refine (Device.log_keeps S) ?_
        refine (Device.svEnter_keeps S) ?_
        assumption

theorem Device.psError_keeps {P : Device → Prop} (S : Stable P) {d l} (hc : P d) : P (Device.psError d l) := by
  delta Device.psError
  extract_lets -merge -useContext -underBinder +onlyGivenNames k0
  extract_lets -merge -useContext -underBinder +onlyGivenNames x1
  have hx1 : P x1 := by
    unfold x1
    refine (Device.updPs_keeps S) ?_
    refine (Device.logRate_keeps S) ?_
    refine (Device.wr_keeps S) ?_
    refine (Device.incSat_keeps S) ?_
    assumption
  refine keeps_ite ?_ ?_
  · exact hx1
  · extract_lets -merge -useContext -underBinder +onlyGivenNames x2
    have hx2 : P x2 := by
      unfold x2
      refine (Device.log_keeps S) ?_
      refine (Device.psUp_keeps S) ?_
      refine (Device.updPs_keeps S) ?_
      exact hx1
    refine keeps_ite ?_ ?_
    · refine (Device.emergencyRetract_keeps S) ?_
      exact hx2
    · exact hx2

theorem Device.psFlags_keeps {P : Device → Prop} (S : Stable P) {d l flags} (hc : P d) : P (Device.psFlags d l flags) := by
  delta Device.psFlags
  extract_lets -merge -useContext -underBinder +onlyGivenNames x0
  have hx0 : P x0 := by
    unfold x0
    refine (Device.wr_keeps S) ?_
    assumption
  extract_lets -merge -useContext -underBinder +onlyGivenNames x1
  have hx1 : P x1 := by
    unfold x1
    refine keeps_ite ?_ ?_
    · exact hx0
    · refine (Device.wr_keeps S) ?_
      exact hx0
  extract_lets -merge -useContext -underBinder +onlyGivenNames x2
  have hx2 : P x2 := by
    unfold x2
    refine keeps_ite ?_ ?_
    · refine (Device.updPs_keeps S) ?_
      exact hx1
    · exact hx1
  refine keeps_ite ?_ ?_
  · refine (Device.emergencyRetract_keeps S) ?_
    exact hx2
  · refine keeps_ite ?_ ?_
    · refine (Device.log_keeps S) ?_
      refine (Device.enterUnload_keeps S) ?_
      exact hx2
    · exact hx2

theorem psReturnEff_keeps {P : Device → Prop} (S : Stable P) {l word d} (hc : P d) : P (psReturnEff l word d) := by
  delta psReturnEff
  refine keeps_ite ?_ ?_
  · assumption
  · refine keeps_ite ?_ ?_
    · refine (Device.psError_keeps S) ?_
      assumption
    · extract_lets -merge -useContext -underBinder +onlyGivenNames x0
      have hx0 : P x0 := by
        unfold x0
        refine (Device.updPs_keeps S) ?_
        assumption
      refine (Device.psFlags_keeps S) ?_
      refine (Device.psUp_keeps S) ?_
      exact hx0

theorem psKeepEff_keeps {P : Device → Prop} (S : Stable P) {l d} (hc : P d) : P (psKeepEff l d) := by
  delta psKeepEff
  extract_lets -merge -useContext -underBinder +onlyGivenNames k0
  refine keeps_ite ?_ ?_
  · assumption
  · refine (Device.sendXout_keeps S) ?_
    refine (Device.updPs_keeps S) ?_
    refine (Device.psSend_keeps S) ?_
    assumption

theorem psCfgEff_keeps {P : Device → Prop} (S : Stable P) {l addr data d} (hc : P d) : P (psCfgEff l addr data d) := by
  delta psCfgEff
  extract_lets -merge -useContext -underBinder +onlyGivenNames k0
  extract_lets -merge -useContext -underBinder +onlyGivenNames x1
  have hx1 : P x1 := by
    unfold x1
    refine (Device.wr_keeps S) ?_
    refine (Device.wr_keeps S) ?_
    assumption
  refine keeps_ite ?_ ?_
  · refine (Device.wr_keeps S) ?_
    exact hx1
  · refine (Device.psSend_keeps S) ?_
    refine (Device.wr_keeps S) ?_
    exact hx1

theorem psEnEff_keeps {P : Device → Prop} (S : Stable P) {l en d} (hc : P d) : P (psEnEff l en d) := by
  delta psEnEff
  extract_lets -merge -useContext -underBinder +onlyGivenNames x0
  have hx0 : P x0 := by
    unfold x0
    refine (Device.wrB_keeps S) ?_
    assumption
  extract_lets -merge -useContext -underBinder +onlyGivenNames x1
  have hx1 : P x1 := by
    unfold x1
    refine keeps_ite ?_ ?_
    · refine (Device.updPs_keeps S) ?_
      exact hx0
    · exact hx0
  refine (Device.svWake_keeps S) ?_
  refine (Device.psUp_keeps S) ?_
  exact hx1

theorem xoutEff_keeps {P : Device → Prop} (S : Stable P) {l d} (hc : P d) : P (xoutEff l d) := by
  delta xoutEff
  split
  · assumption
  · extract_lets -merge -useContext -underBinder +onlyGivenNames x0
    have hx0 : P x0 := by
      unfold x0
      refine (Device.updBe_keeps S) ?_
      assumption
    refine keeps_ite ?_ ?_
    · exact hx0
    · refine (Device.wr_keeps S) ?_
      refine (Device.updBe_keeps S) ?_
      exact hx0

theorem xinStaleEff_keeps {P : Device → Prop} (S : Stable P) {l d} (hc : P d) : P (xinStaleEff l d) := by
  delta xinStaleEff
  refine keeps_ite ?_ ?_
  · assumption
  · extract_lets -merge -useContext -underBinder +onlyGivenNames x0
    have hx0 : P x0 := by
      unfold x0
      refine (Device.updBe_keeps S) ?_
      assumption
    refine (Device.logRate_keeps S) ?_
    refine (Device.wrAll_keeps S) ?_
    exact hx0

theorem execServoWedge_keeps {P : Device → Prop} (S : Stable P) {a0 a1 a2 a3 s t} (hc : P s.dev) (he : execServoWedge a0 a1 a2 a3 s = .next t) : P t.dev := by
  delta execServoWedge at he
  refine State.upd_keeps hc he ?_
  intro d hd
  show P _
  refine (wedgeEff_keeps S) ?_
  assumption

theorem execBeSampleLateStart_keeps {P : Device → Prop} (S : Stable P) {a0 s t} (hc : P s.dev) (he : execBeSampleLateStart a0 s = .next t) : P t.dev := by
  delta execBeSampleLateStart at he
  refine State.upd_keeps hc he ?_
  intro d hd
  show P _
  refine (lateEff_keeps S) ?_
  assumption

theorem execSvCmdLoad_keeps {P : Device → Prop} (S : Stable P) {a0 s t} (hc : P s.dev) (he : execSvCmdLoad a0 s = .next t) : P t.dev := by
  delta execSvCmdLoad at he
  refine State.upd_keeps hc he ?_
  intro d hd
  show P _
  refine (svLoadEff_keeps S) ?_
  assumption

theorem execSvCmdSeek_keeps {P : Device → Prop} (S : Stable P) {a0 s t} (hc : P s.dev) (he : execSvCmdSeek a0 s = .next t) : P t.dev := by
  delta execSvCmdSeek at he
  refine State.upd_keeps hc he ?_
  intro d hd
  show P _
  refine (svSeekEff_keeps S) ?_
  assumption

theorem execSvCmdUnload_keeps {P : Device → Prop} (S : Stable P) {a0 s t} (hc : P s.dev) (he : execSvCmdUnload a0 s = .next t) : P t.dev := by
  delta execSvCmdUnload at he
  refine State.upd_keeps hc he ?_
  intro d hd
  show P _
  refine (svUnloadEff_keeps S) ?_
  assumption

theorem execSvCmdRetract_keeps {P : Device → Prop} (S : Stable P) {a0 s t} (hc : P s.dev) (he : execSvCmdRetract a0 s = .next t) : P t.dev := by
  delta execSvCmdRetract at he
  refine State.upd_keeps hc he ?_
  intro d hd
  show P _
  refine (Device.emergencyRetract_keeps S) ?_
  assumption

theorem execSvEnWrite_keeps {P : Device → Prop} (S : Stable P) {a0 a1 s t} (hc : P s.dev) (he : execSvEnWrite a0 a1 s = .next t) : P t.dev := by
  delta execSvEnWrite at he
  refine State.upd_keeps hc he ?_
  intro d hd
  show P _
  refine (svEnEff_keeps S) ?_
  assumption

theorem execSvCalWrite_keeps {P : Device → Prop} (S : Stable P) {a0 a1 s t} (hc : P s.dev) (he : execSvCalWrite a0 a1 s = .next t) : P t.dev := by
  delta execSvCalWrite at he
  refine State.upd_keeps hc he ?_
  intro d hd
  show P _
  refine (svCalEff_keeps S) ?_
  assumption

theorem execSvTargetWrite_keeps {P : Device → Prop} (S : Stable P) {a0 a1 a2 s t} (hc : P s.dev) (he : execSvTargetWrite a0 a1 a2 s = .next t) : P t.dev := by
  delta execSvTargetWrite at he
  refine State.upd_keeps hc he ?_
  intro d hd
  show P _
  refine (svTargetEff_keeps S) ?_
  assumption

theorem execLoadAcquired_keeps {P : Device → Prop} (S : Stable P) {a0 s t} (hc : P s.dev) (he : execLoadAcquired a0 s = .next t) : P t.dev := by
  delta execLoadAcquired at he
  refine State.upd_keeps hc he ?_
  intro d hd
  show P _
  refine (loadAcquiredEff_keeps S) ?_
  assumption

theorem execLoadTimeout_keeps {P : Device → Prop} (S : Stable P) {a0 s t} (hc : P s.dev) (he : execLoadTimeout a0 s = .next t) : P t.dev := by
  delta execLoadTimeout at he
  refine State.upd_keeps hc he ?_
  intro d hd
  show P _
  refine (loadTimeoutEff_keeps S) ?_
  assumption

theorem execServoLost_keeps {P : Device → Prop} (S : Stable P) {a0 s t} (hc : P s.dev) (he : execServoLost a0 s = .next t) : P t.dev := by
  delta execServoLost at he
  refine State.upd_keeps hc he ?_
  intro d hd
  show P _
  refine (servoLostEff_keeps S) ?_
  assumption

theorem execSeekEnd_keeps {P : Device → Prop} (S : Stable P) {a0 s t} (hc : P s.dev) (he : execSeekEnd a0 s = .next t) : P t.dev := by
  delta execSeekEnd at he
  refine State.upd_keeps hc he ?_
  intro d hd
  show P _
  refine (seekEndEff_keeps S) ?_
  assumption

theorem execSettleComplete_keeps {P : Device → Prop} (S : Stable P) {a0 s t} (hc : P s.dev) (he : execSettleComplete a0 s = .next t) : P t.dev := by
  delta execSettleComplete at he
  refine State.upd_keeps hc he ?_
  intro d hd
  show P _
  refine (settleEff_keeps S) ?_
  assumption

theorem execSettleTimeout_keeps {P : Device → Prop} (S : Stable P) {a0 s t} (hc : P s.dev) (he : execSettleTimeout a0 s = .next t) : P t.dev := by
  delta execSettleTimeout at he
  refine State.upd_keeps hc he ?_
  intro d hd
  show P _
  refine (settleTimeoutEff_keeps S) ?_
  assumption

theorem execRecoverReacquired_keeps {P : Device → Prop} (S : Stable P) {a0 s t} (hc : P s.dev) (he : execRecoverReacquired a0 s = .next t) : P t.dev := by
  delta execRecoverReacquired at he
  refine State.upd_keeps hc he ?_
  intro d hd
  show P _
  refine (recoverEff_keeps S) ?_
  assumption

theorem execRecoverTimeout_keeps {P : Device → Prop} (S : Stable P) {a0 s t} (hc : P s.dev) (he : execRecoverTimeout a0 s = .next t) : P t.dev := by
  delta execRecoverTimeout at he
  refine State.upd_keeps hc he ?_
  intro d hd
  show P _
  refine (recoverTimeoutEff_keeps S) ?_
  assumption

theorem execUnloadTimeout_keeps {P : Device → Prop} (S : Stable P) {a0 s t} (hc : P s.dev) (he : execUnloadTimeout a0 s = .next t) : P t.dev := by
  delta execUnloadTimeout at he
  refine State.upd_keeps hc he ?_
  intro d hd
  show P _
  refine (unloadTimeoutEff_keeps S) ?_
  assumption

theorem execUnloadStopped_keeps {P : Device → Prop} (S : Stable P) {a0 s t} (hc : P s.dev) (he : execUnloadStopped a0 s = .next t) : P t.dev := by
  delta execUnloadStopped at he
  refine State.upd_keeps hc he ?_
  intro d hd
  show P _
  refine (unloadStoppedEff_keeps S) ?_
  assumption

theorem execPsReturnFrame_keeps {P : Device → Prop} (S : Stable P) {a0 a1 s t} (hc : P s.dev) (he : execPsReturnFrame a0 a1 s = .next t) : P t.dev := by
  delta execPsReturnFrame at he
  refine State.upd_keeps hc he ?_
  intro d hd
  show P _
  refine (psReturnEff_keeps S) ?_
  assumption

theorem execPsKeepalive_keeps {P : Device → Prop} (S : Stable P) {a0 s t} (hc : P s.dev) (he : execPsKeepalive a0 s = .next t) : P t.dev := by
  delta execPsKeepalive at he
  refine State.upd_keeps hc he ?_
  intro d hd
  show P _
  refine (psKeepEff_keeps S) ?_
  assumption

theorem execPsCfgGo_keeps {P : Device → Prop} (S : Stable P) {a0 a1 a2 s t} (hc : P s.dev) (he : execPsCfgGo a0 a1 a2 s = .next t) : P t.dev := by
  delta execPsCfgGo at he
  refine State.upd_keeps hc he ?_
  intro d hd
  show P _
  refine (psCfgEff_keeps S) ?_
  assumption

theorem execPsCtrlEnWrite_keeps {P : Device → Prop} (S : Stable P) {a0 a1 s t} (hc : P s.dev) (he : execPsCtrlEnWrite a0 a1 s = .next t) : P t.dev := by
  delta execPsCtrlEnWrite at he
  refine State.upd_keeps hc he ?_
  intro d hd
  show P _
  refine (psEnEff_keeps S) ?_
  assumption

theorem execXoutReceive_keeps {P : Device → Prop} (S : Stable P) {a0 s t} (hc : P s.dev) (he : execXoutReceive a0 s = .next t) : P t.dev := by
  delta execXoutReceive at he
  refine State.upd_keeps hc he ?_
  intro d hd
  show P _
  refine (xoutEff_keeps S) ?_
  assumption

theorem execXinStale_keeps {P : Device → Prop} (S : Stable P) {a0 s t} (hc : P s.dev) (he : execXinStale a0 s = .next t) : P t.dev := by
  delta execXinStale at he
  refine State.upd_keeps hc he ?_
  intro d hd
  show P _
  refine (xinStaleEff_keeps S) ?_
  assumption

end Sys2Proof.Machine
end

