-- ==== Sys2Proof/Laws/KeepSpindle.lean ====
section
/-!
SUPPORT. Which of registers, memory and fuses each operation and each command of Machine/Spindle.lean writes (Laws/Canon.lean).
-/
namespace Sys2Proof.Machine

theorem Device.spLimit_keeps {P : Device → Prop} (S : Stable P) {d ch code} (hc : P d) : P (Device.spLimit d ch code) := by
  delta Device.spLimit
  extract_lets -merge -useContext -underBinder +onlyGivenNames k0
  extract_lets -merge -useContext -underBinder +onlyGivenNames k1
  refine (Device.updSpin_keeps S) ?_
  assumption

theorem Device.valleySample_keeps {P : Device → Prop} (S : Stable P) {d u v w mrpm} (hc : P d) : P (Device.valleySample d u v w mrpm) := by
  delta Device.valleySample
  extract_lets -merge -useContext -underBinder +onlyGivenNames x0
  have hx0 : P x0 := by
    unfold x0
    refine (Device.wrAll_keeps S) ?_
    assumption
  extract_lets -merge -useContext -underBinder +onlyGivenNames x1
  have hx1 : P x1 := by
    unfold x1
    refine (Device.spLimit_keeps S) ?_
    refine (Device.spLimit_keeps S) ?_
    refine (Device.spLimit_keeps S) ?_
    exact hx0
  extract_lets -merge -useContext -underBinder +onlyGivenNames k2
  refine (Device.updSpin_keeps S) ?_
  exact hx1

theorem Device.speedRows_keeps {P : Device → Prop} (S : Stable P) {d} (hc : P d) : P (Device.speedRows d) := by
  delta Device.speedRows
  extract_lets -merge -useContext -underBinder +onlyGivenNames k0
  split
  · refine keeps_ite ?_ ?_
    · refine (Device.listenStart_keeps S) ?_
      refine (Device.incSat_keeps S) ?_
      refine (Device.wr_keeps S) ?_
      assumption
    · assumption
  · refine keeps_ite ?_ ?_
    · refine (Device.runFrom_keeps S) ?_
      assumption
    · assumption
  · refine keeps_ite ?_ ?_
    · refine (Device.startAttempt_keeps S) ?_
      assumption
    · assumption
  · refine keeps_ite ?_ ?_
    · refine (Device.decelRecord_keeps S) ?_
      refine (Device.spEnter_keeps S) ?_
      assumption
    · assumption
  · assumption

theorem Device.atSpeedClear_keeps {P : Device → Prop} (S : Stable P) {d} (hc : P d) : P (Device.atSpeedClear d) := by
  delta Device.atSpeedClear
  refine keeps_ite ?_ ?_
  · refine (Device.wr_keeps S) ?_
    assumption
  · assumption

theorem Device.rampPeriod_keeps {P : Device → Prop} (S : Stable P) {d} (hc : P d) : P (Device.rampPeriod d) := by
  delta Device.rampPeriod
  extract_lets -merge -useContext -underBinder +onlyGivenNames k0
  extract_lets -merge -useContext -underBinder +onlyGivenNames k1
  split
  · refine (Device.updSpin_keeps S) ?_
    assumption
  · refine (Device.updSpin_keeps S) ?_
    assumption
  · assumption

theorem Device.spinPorts_keeps {P : Device → Prop} (S : Stable P) {d} (hc : P d) : P (Device.spinPorts d).2 := by
  delta Device.spinPorts
  dsimp only
  have h1 : P (d.electrical d.spin.ramp (10 ^ 9)).2 := Device.electrical_keeps S hc
  split
  · exact Device.takeFree_keeps S (n := 32) h1
  · exact h1

theorem Device.spinSample_keeps {P : Device → Prop} (S : Stable P) {d} (hc : P d) : P (Device.spinSample d) := by
  delta Device.spinSample
  extract_lets -merge -useContext -underBinder +onlyGivenNames x0
  have hx0 : P x0 := by
    unfold x0
    refine (Device.rampPeriod_keeps S) ?_
    refine (Device.exchangeDue_keeps S) ?_
    assumption
  refine keeps_ite ?_ ?_
  · exact hx0
  · split
    rename_i v' d' heq'
    have hd' : P d' := by
      show P (v', d').2
      rw [← heq']
      refine (Device.spinPorts_keeps S) ?_
      exact hx0
    extract_lets -merge -useContext -underBinder +onlyGivenNames k1
    refine (Device.updSpin_keeps S) ?_
    refine (Device.beStart_keeps S) ?_
    assumption

theorem Device.showSpeed_keeps {P : Device → Prop} (S : Stable P) {d} (hc : P d) : P (Device.showSpeed d) := by
  delta Device.showSpeed
  split
  rename_i v' d' heq'
  have hd' : P d' := by
    show P (v', d').2
    rw [← heq']
    refine (Device.measRpm_keeps S) ?_
    assumption
  refine (Device.wrI_keeps S) ?_
  assumption

theorem valleyEff_keeps {P : Device → Prop} (S : Stable P) {u v w mrpm d} (hc : P d) : P (valleyEff u v w mrpm d) := by
  delta valleyEff
  refine keeps_ite ?_ ?_
  · assumption
  · extract_lets -merge -useContext -underBinder +onlyGivenNames x0
    have hx0 : P x0 := by
      unfold x0
      refine (Device.showSpeed_keeps S) ?_
      refine (Device.atSpeedClear_keeps S) ?_
      refine (Device.speedRows_keeps S) ?_
      refine (Device.valleySample_keeps S) ?_
      assumption
    refine keeps_ite ?_ ?_
    · refine (Device.spinSample_keeps S) ?_
      exact hx0
    · exact hx0

theorem peakEff_keeps {P : Device → Prop} (S : Stable P) {d} (hc : P d) : P (peakEff d) := by
  delta peakEff
  refine keeps_ite ?_ ?_
  · assumption
  · extract_lets -merge -useContext -underBinder +onlyGivenNames x0
    have hx0 : P x0 := by
      unfold x0
      split
      · assumption
      · refine (Device.emit_keeps S) ?_
        refine (Device.updSpin_keeps S) ?_
        assumption
    split
    rename_i v' d' heq'
    have hd' : P d' := by
      show P (v', d').2
      rw [← heq']
      refine (Device.divFree_keeps S) ?_
      exact hx0
    extract_lets -merge -useContext -underBinder +onlyGivenNames k1
    refine (Device.updSpin_keeps S) ?_
    assumption

theorem busEff_keeps {P : Device → Prop} (S : Stable P) {volt curr d} (hc : P d) : P (busEff volt curr d) := by
  delta busEff
  refine keeps_ite ?_ ?_
  · assumption
  · extract_lets -merge -useContext -underBinder +onlyGivenNames k0
    extract_lets -merge -useContext -underBinder +onlyGivenNames x1
    have hx1 : P x1 := by
      unfold x1
      refine (Device.wrAll_keeps S) ?_
      assumption
    extract_lets -merge -useContext -underBinder +onlyGivenNames k2
    extract_lets -merge -useContext -underBinder +onlyGivenNames x3
    have hx3 : P x3 := by
      unfold x3
      refine (Device.spLimit_keeps S) ?_
      refine (Device.spLimit_keeps S) ?_
      exact hx1
    extract_lets -merge -useContext -underBinder +onlyGivenNames x4
    have hx4 : P x4 := by
      unfold x4
      refine (Device.updSpin_keeps S) ?_
      exact hx3
    generalize k0 = z5
    split
    · exact hx4
    · refine keeps_ite ?_ ?_
      · refine (Device.spInputFault_keeps S) ?_
        refine (Device.updSpin_keeps S) ?_
        refine (Device.brkOff_keeps S) ?_
        exact hx4
      · exact hx4

theorem overvoltageEff_keeps {P : Device → Prop} (S : Stable P) {d} (hc : P d) : P (overvoltageEff d) := by
  delta overvoltageEff
  refine keeps_ite ?_ ?_
  · assumption
  · extract_lets -merge -useContext -underBinder +onlyGivenNames x0
    have hx0 : P x0 := by
      unfold x0
      refine (Device.wrAll_keeps S) ?_
      refine (Device.decelKeep_keeps S) ?_
      refine (Device.spEnter_keeps S) ?_
      refine (Device.brkOff_keeps S) ?_
      assumption
    refine (Device.emit_keeps S) ?_
    refine (Device.emergencyRetract_keeps S) ?_
    refine (Device.log_keeps S) ?_
    exact hx0

theorem regenStopEff_keeps {P : Device → Prop} (S : Stable P) {d} (hc : P d) : P (regenStopEff d) := by
  delta regenStopEff
  refine keeps_ite ?_ ?_
  · assumption
  · refine (Device.log_keeps S) ?_
    refine (Device.wrAll_keeps S) ?_
    assumption

theorem regenResumeEff_keeps {P : Device → Prop} (S : Stable P) {d} (hc : P d) : P (regenResumeEff d) := by
  delta regenResumeEff
  refine keeps_ite ?_ ?_
  · refine (Device.wr_keeps S) ?_
    assumption
  · assumption

theorem chopperOnEff_keeps {P : Device → Prop} (S : Stable P) {d} (hc : P d) : P (chopperOnEff d) := by
  delta chopperOnEff
  refine keeps_ite ?_ ?_
  · refine (Device.brkOn_keeps S) ?_
    assumption
  · assumption

theorem chopperOffEff_keeps {P : Device → Prop} (S : Stable P) {d} (hc : P d) : P (chopperOffEff d) := by
  delta chopperOffEff
  refine keeps_ite ?_ ?_
  · refine (Device.brkOff_keeps S) ?_
    assumption
  · assumption

theorem chopCurrentEff_keeps {P : Device → Prop} (S : Stable P) {d} (hc : P d) : P (chopCurrentEff d) := by
  delta chopCurrentEff
  split
  · assumption
  · refine keeps_ite ?_ ?_
    · refine (Device.log_keeps S) ?_
      refine (Device.chopFault_keeps S) ?_
      assumption
    · assumption

theorem chopVoltageEff_keeps {P : Device → Prop} (S : Stable P) {d} (hc : P d) : P (chopVoltageEff d) := by
  delta chopVoltageEff
  split
  · assumption
  · refine keeps_ite ?_ ?_
    · refine (Device.log_keeps S) ?_
      refine (Device.chopFault_keeps S) ?_
      assumption
    · assumption

theorem powerFailEff_keeps {P : Device → Prop} (S : Stable P) {d} (hc : P d) : P (powerFailEff d) := by
  delta powerFailEff
  extract_lets -merge -useContext -underBinder +onlyGivenNames k0
  refine keeps_ite ?_ ?_
  · assumption
  · extract_lets -merge -useContext -underBinder +onlyGivenNames k1
    extract_lets -merge -useContext -underBinder +onlyGivenNames x2
    have hx2 : P x2 := by
      unfold x2
      refine keeps_ite ?_ ?_
      · refine (Device.wr_keeps S) ?_
        refine (Device.updSpin_keeps S) ?_
        refine (Device.spEnter_keeps S) ?_
        assumption
      · refine (Device.spEnter_keeps S) ?_
        assumption
    refine (Device.emergencyRetract_keeps S) ?_
    refine (Device.emit_keeps S) ?_
    refine (Device.log_keeps S) ?_
    exact hx2

theorem holdupEndEff_keeps {P : Device → Prop} (S : Stable P) {d} (hc : P d) : P (holdupEndEff d) := by
  delta holdupEndEff
  refine keeps_ite ?_ ?_
  · assumption
  · split
    rename_i v' d' heq'
    have hd' : P d' := by
      show P (v', d').2
      rw [← heq']
      refine (Device.measRpm_keeps S) ?_
      assumption
    refine (Device.log_keeps S) ?_
    refine (Device.spEnter_keeps S) ?_
    assumption

theorem phaseFaultEff_keeps {P : Device → Prop} (S : Stable P) {d} (hc : P d) : P (phaseFaultEff d) := by
  delta phaseFaultEff
  refine keeps_ite ?_ ?_
  · assumption
  · extract_lets -merge -useContext -underBinder +onlyGivenNames k0
    refine (Device.spInputFault_keeps S) ?_
    refine (Device.updSpin_keeps S) ?_
    assumption

theorem busCurrentEff_keeps {P : Device → Prop} (S : Stable P) {d} (hc : P d) : P (busCurrentEff d) := by
  delta busCurrentEff
  refine keeps_ite ?_ ?_
  · assumption
  · refine (Device.log_keeps S) ?_
    refine (Device.chopFault_keeps S) ?_
    refine (Device.updSpin_keeps S) ?_
    assumption

theorem analogueEff_keeps {P : Device → Prop} (S : Stable P) {ch d} (hc : P d) : P (analogueEff ch d) := by
  delta analogueEff
  refine keeps_ite ?_ ?_
  · assumption
  · refine (Device.log_keeps S) ?_
    refine (Device.wr_keeps S) ?_
    refine (Device.updSpin_keeps S) ?_
    assumption

theorem Device.spRefuse_keeps {P : Device → Prop} (S : Stable P) {d} (hc : P d) : P (Device.spRefuse d) := by
  delta Device.spRefuse
  refine (Device.wr_keeps S) ?_
  assumption

theorem spStartEff_keeps {P : Device → Prop} (S : Stable P) {d} (hc : P d) : P (spStartEff d) := by
  delta spStartEff
  extract_lets -merge -useContext -underBinder +onlyGivenNames k0
  extract_lets -merge -useContext -underBinder +onlyGivenNames k1
  refine keeps_ite ?_ ?_
  · refine (Device.spRefuse_keeps S) ?_
    assumption
  · extract_lets -merge -useContext -underBinder +onlyGivenNames x2
    have hx2 : P x2 := by
      unfold x2
      refine (Device.updSpin_keeps S) ?_
      refine (Device.wr_keeps S) ?_
      assumption
    extract_lets -merge -useContext -underBinder +onlyGivenNames x3i0 x3
    have hx3 : P x3 := by
      unfold x3
      exact S.congr hx2 rfl rfl rfl
    refine keeps_ite ?_ ?_
    · refine keeps_ite ?_ ?_
      · refine (Device.enterReverse_keeps S) ?_
        exact hx3
      · refine (Device.runFromSpeed_keeps S) ?_
        exact hx3
    · extract_lets -merge -useContext -underBinder +onlyGivenNames x4i0 x4
      have hx4 : P x4 := by
        unfold x4
        exact S.congr hx3 rfl rfl rfl
      refine (Device.listenStart_keeps S) ?_
      refine (Device.wrAll_keeps S) ?_
      exact hx4

theorem spStopEff_keeps {P : Device → Prop} (S : Stable P) {d} (hc : P d) : P (spStopEff d) := by
  delta spStopEff
  split
  · refine (Device.spEnter_keeps S) ?_
    assumption
  · refine (Device.decelStart_keeps S) ?_
    refine (Device.spEnter_keeps S) ?_
    assumption
  · refine (Device.decelStart_keeps S) ?_
    refine (Device.spEnter_keeps S) ?_
    assumption
  · refine (Device.spRefuse_keeps S) ?_
    assumption

theorem spCoastEff_keeps {P : Device → Prop} (S : Stable P) {d} (hc : P d) : P (spCoastEff d) := by
  delta spCoastEff
  split
  · refine (Device.spEnter_keeps S) ?_
    assumption
  · refine (Device.decelKeep_keeps S) ?_
    refine (Device.spEnter_keeps S) ?_
    assumption
  · refine (Device.decelKeep_keeps S) ?_
    refine (Device.spEnter_keeps S) ?_
    assumption
  · refine (Device.decelKeep_keeps S) ?_
    refine (Device.spEnter_keeps S) ?_
    assumption
  · refine (Device.spRefuse_keeps S) ?_
    assumption

theorem spClearEff_keeps {P : Device → Prop} (S : Stable P) {d} (hc : P d) : P (spClearEff d) := by
  delta spClearEff
  refine keeps_ite ?_ ?_
  · refine (Device.spRefuse_keeps S) ?_
    assumption
  · refine keeps_ite ?_ ?_
    · refine (Device.spEnter_keeps S) ?_
      refine (Device.wr_keeps S) ?_
      assumption
    · assumption

theorem spEnEff_keeps {P : Device → Prop} (S : Stable P) {en d} (hc : P d) : P (spEnEff en d) := by
  delta spEnEff
  extract_lets -merge -useContext -underBinder +onlyGivenNames x0
  have hx0 : P x0 := by
    unfold x0
    refine (Device.wrB_keeps S) ?_
    assumption
  refine keeps_ite ?_ ?_
  · exact hx0
  · refine (Device.spCoast_keeps S) ?_
    exact hx0

theorem chopTestEff_keeps {P : Device → Prop} (S : Stable P) {rise d} (hc : P d) : P (chopTestEff rise d) := by
  delta chopTestEff
  refine keeps_ite ?_ ?_
  · refine (Device.selfTest_keeps S) ?_
    assumption
  · assumption

theorem selfTestEff_keeps {P : Device → Prop} (S : Stable P) {rise d} (hc : P d) : P (selfTestEff rise d) := by
  delta selfTestEff
  refine keeps_ite ?_ ?_
  · refine (Device.selfTest_keeps S) ?_
    assumption
  · assumption

theorem Device.fromListen_keeps {P : Device → Prop} (S : Stable P) {d o} (hc : P d) : P (Device.fromListen d o) := by
  delta Device.fromListen
  split
  rename_i v' d' heq'
  have hd' : P d' := by
    show P (v', d').2
    rw [← heq']
    refine (Device.electrical_keeps S) ?_
    assumption
  refine (Device.updSpin_keeps S) ?_
  assumption

theorem listenEndEff_keeps {P : Device → Prop} (S : Stable P) {o d} (hc : P d) : P (listenEndEff o d) := by
  delta listenEndEff
  refine keeps_ite ?_ ?_
  · assumption
  · split
    rename_i v' d' heq'
    have hd' : P d' := by
      show P (v', d').2
      rw [← heq']
      split
      · refine (Device.divFree_keeps S) ?_
        assumption
      · split
        rename_i v' d' heq'
        have hd' : P d' := by
          show P (v', d').2
          rw [← heq']
          refine (Device.takeFree_keeps S) ?_
          assumption
        refine keeps_snd ?_
        assumption
    extract_lets -merge -useContext -underBinder +onlyGivenNames x0
    have hx0 : P x0 := by
      unfold x0
      refine (Device.wr_keeps S) ?_
      refine (Device.wrI_keeps S) ?_
      assumption
    split
    · refine (Device.fromListen_keeps S) ?_
      refine (Device.spEnter_keeps S) ?_
      exact hx0
    · refine (Device.log_keeps S) ?_
      refine (Device.fromListen_keeps S) ?_
      refine (Device.enterReverse_keeps S) ?_
      exact hx0
    · refine (Device.startAttempt_keeps S) ?_
      exact hx0

theorem Device.stepTo_keeps {P : Device → Prop} (S : Stable P) {d p} (hc : P d) : P (Device.stepTo d p) := by
  delta Device.stepTo
  refine (Device.updSpin_keeps S) ?_
  assumption

theorem alignEndEff_keeps {P : Device → Prop} (S : Stable P) {d} (hc : P d) : P (alignEndEff d) := by
  delta alignEndEff
  refine keeps_ite ?_ ?_
  · refine (Device.updSpin_keeps S) ?_
    refine (Device.stepTo_keeps S) ?_
    assumption
  · assumption

theorem polarityEndEff_keeps {P : Device → Prop} (S : Stable P) {pos neg d} (hc : P d) : P (polarityEndEff pos neg d) := by
  delta polarityEndEff
  refine keeps_ite ?_ ?_
  · assumption
  · extract_lets -merge -useContext -underBinder +onlyGivenNames x0
    have hx0 : P x0 := by
      unfold x0
      refine (Device.stepTo_keeps S) ?_
      assumption
    refine keeps_ite ?_ ?_
    · refine (Device.updSpin_keeps S) ?_
      exact hx0
    · exact hx0

theorem backwardEff_keeps {P : Device → Prop} (S : Stable P) {d} (hc : P d) : P (backwardEff d) := by
  delta backwardEff
  refine keeps_ite ?_ ?_
  · refine (Device.attemptFails_keeps S) ?_
    assumption
  · assumption

theorem speedCheckEff_keeps {P : Device → Prop} (S : Stable P) {d} (hc : P d) : P (speedCheckEff d) := by
  delta speedCheckEff
  refine keeps_ite ?_ ?_
  · refine (Device.attemptFails_keeps S) ?_
    assumption
  · assumption

theorem retryResumeEff_keeps {P : Device → Prop} (S : Stable P) {d} (hc : P d) : P (retryResumeEff d) := by
  delta retryResumeEff
  refine keeps_ite ?_ ?_
  · refine (Device.startAttempt_keeps S) ?_
    assumption
  · assumption

theorem spinupEff_keeps {P : Device → Prop} (S : Stable P) {d} (hc : P d) : P (spinupEff d) := by
  delta spinupEff
  extract_lets -merge -useContext -underBinder +onlyGivenNames g0
  have hg0 : ∀ g0a0 g0a1 (hg0a0 : P g0a0), P (g0 g0a0 g0a1) := by
    intro g0a0 g0a1 hg0a0
    unfold g0
    show P _
    refine (Device.log_keeps S) ?_
    refine (Device.wr_keeps S) ?_
    refine (Device.spEnter_keeps S) ?_
    assumption
  split
  · refine hg0 _ _ ?_
    assumption
  · refine keeps_ite ?_ ?_
    · assumption
    · refine hg0 _ _ ?_
      assumption
  · assumption

theorem catchEndEff_keeps {P : Device → Prop} (S : Stable P) {d} (hc : P d) : P (catchEndEff d) := by
  delta catchEndEff
  refine keeps_ite ?_ ?_
  · assumption
  · split
    rename_i v' d' heq'
    have hd' : P d' := by
      show P (v', d').2
      rw [← heq']
      refine (Device.measRpm_keeps S) ?_
      assumption
    refine (Device.log_keeps S) ?_
    refine (Device.runFromSpeed_keeps S) ?_
    assumption

theorem atSpeedSetEff_keeps {P : Device → Prop} (S : Stable P) {d} (hc : P d) : P (atSpeedSetEff d) := by
  delta atSpeedSetEff
  refine keeps_ite ?_ ?_
  · assumption
  · extract_lets -merge -useContext -underBinder +onlyGivenNames k0
    extract_lets -merge -useContext -underBinder +onlyGivenNames x1
    have hx1 : P x1 := by
      unfold x1
      refine (Device.updSpin_keeps S) ?_
      refine (Device.wrAll_keeps S) ?_
      assumption
    refine keeps_ite ?_ ?_
    · refine (Device.log_keeps S) ?_
      exact hx1
    · exact hx1

theorem Device.lossAction_keeps {P : Device → Prop} (S : Stable P) {d} (hc : P d) : P (Device.lossAction d) := by
  delta Device.lossAction
  refine keeps_ite ?_ ?_
  · assumption
  · extract_lets -merge -useContext -underBinder +onlyGivenNames k0
    extract_lets -merge -useContext -underBinder +onlyGivenNames k1
    extract_lets -merge -useContext -underBinder +onlyGivenNames x2
    have hx2 : P x2 := by
      unfold x2
      refine (Device.wrB_keeps S) ?_
      refine (Device.wr_keeps S) ?_
      refine (Device.spEnter_keeps S) ?_
      assumption
    refine keeps_ite ?_ ?_
    · refine (Device.log_keeps S) ?_
      exact hx2
    · exact hx2

theorem syncLossEff_keeps {P : Device → Prop} (S : Stable P) {d} (hc : P d) : P (syncLossEff d) := by
  delta syncLossEff
  split
  · assumption
  · split
    rename_i v' d' heq'
    have hd' : P d' := by
      show P (v', d').2
      rw [← heq']
      refine (Device.measRpm_keeps S) ?_
      assumption
    refine (Device.lossAction_keeps S) ?_
    refine (Device.updSpin_keeps S) ?_
    refine (Device.log_keeps S) ?_
    assumption

theorem keEff_keeps {P : Device → Prop} (S : Stable P) {d} (hc : P d) : P (keEff d) := by
  delta keEff
  refine keeps_ite ?_ ?_
  · assumption
  · extract_lets -merge -useContext -underBinder +onlyGivenNames k0
    extract_lets -merge -useContext -underBinder +onlyGivenNames k1
    refine (Device.lossAction_keeps S) ?_
    refine (Device.updSpin_keeps S) ?_
    refine (Device.log_keeps S) ?_
    assumption

theorem stoppedEff_keeps {P : Device → Prop} (S : Stable P) {d} (hc : P d) : P (stoppedEff d) := by
  delta stoppedEff
  refine keeps_ite ?_ ?_
  · assumption
  · extract_lets -merge -useContext -underBinder +onlyGivenNames x0
    have hx0 : P x0 := by
      unfold x0
      refine (Device.decelRecord_keeps S) ?_
      refine (Device.updSpin_keeps S) ?_
      assumption
    refine keeps_ite ?_ ?_
    · refine (Device.spEnter_keeps S) ?_
      exact hx0
    · exact hx0

theorem execPwmValley_keeps {P : Device → Prop} (S : Stable P) {a0 a1 a2 a3 s t} (hc : P s.dev) (he : execPwmValley a0 a1 a2 a3 s = .next t) : P t.dev := by
  delta execPwmValley at he
  refine State.upd_keeps hc he ?_
  intro d hd
  show P _
  refine (valleyEff_keeps S) ?_
  assumption

theorem execPwmPeak_keeps {P : Device → Prop} (S : Stable P) {s t} (hc : P s.dev) (he : execPwmPeak s = .next t) : P t.dev := by
  delta execPwmPeak at he
  refine State.upd_keeps hc he ?_
  intro d hd
  show P _
  refine (peakEff_keeps S) ?_
  assumption

theorem execBusConversion_keeps {P : Device → Prop} (S : Stable P) {a0 a1 s t} (hc : P s.dev) (he : execBusConversion a0 a1 s = .next t) : P t.dev := by
  delta execBusConversion at he
  refine State.upd_keeps hc he ?_
  intro d hd
  show P _
  refine (busEff_keeps S) ?_
  assumption

theorem execOvervoltageFault_keeps {P : Device → Prop} (S : Stable P) {s t} (hc : P s.dev) (he : execOvervoltageFault s = .next t) : P t.dev := by
  delta execOvervoltageFault at he
  refine State.upd_keeps hc he ?_
  intro d hd
  show P _
  refine (overvoltageEff_keeps S) ?_
  assumption

theorem execRegenStop_keeps {P : Device → Prop} (S : Stable P) {s t} (hc : P s.dev) (he : execRegenStop s = .next t) : P t.dev := by
  delta execRegenStop at he
  refine State.upd_keeps hc he ?_
  intro d hd
  show P _
  refine (regenStopEff_keeps S) ?_
  assumption

theorem execRegenResume_keeps {P : Device → Prop} (S : Stable P) {s t} (hc : P s.dev) (he : execRegenResume s = .next t) : P t.dev := by
  delta execRegenResume at he
  refine State.upd_keeps hc he ?_
  intro d hd
  show P _
  refine (regenResumeEff_keeps S) ?_
  assumption

theorem execChopperOn_keeps {P : Device → Prop} (S : Stable P) {s t} (hc : P s.dev) (he : execChopperOn s = .next t) : P t.dev := by
  delta execChopperOn at he
  refine State.upd_keeps hc he ?_
  intro d hd
  show P _
  refine (chopperOnEff_keeps S) ?_
  assumption

theorem execChopperOff_keeps {P : Device → Prop} (S : Stable P) {s t} (hc : P s.dev) (he : execChopperOff s = .next t) : P t.dev := by
  delta execChopperOff at he
  refine State.upd_keeps hc he ?_
  intro d hd
  show P _
  refine (chopperOffEff_keeps S) ?_
  assumption

theorem execChopperCurrentCheck_keeps {P : Device → Prop} (S : Stable P) {s t} (hc : P s.dev) (he : execChopperCurrentCheck s = .next t) : P t.dev := by
  delta execChopperCurrentCheck at he
  refine State.upd_keeps hc he ?_
  intro d hd
  show P _
  refine (chopCurrentEff_keeps S) ?_
  assumption

theorem execChopperVoltageCheck_keeps {P : Device → Prop} (S : Stable P) {s t} (hc : P s.dev) (he : execChopperVoltageCheck s = .next t) : P t.dev := by
  delta execChopperVoltageCheck at he
  refine State.upd_keeps hc he ?_
  intro d hd
  show P _
  refine (chopVoltageEff_keeps S) ?_
  assumption

theorem execPowerFailureDetect_keeps {P : Device → Prop} (S : Stable P) {s t} (hc : P s.dev) (he : execPowerFailureDetect s = .next t) : P t.dev := by
  delta execPowerFailureDetect at he
  refine State.upd_keeps hc he ?_
  intro d hd
  show P _
  refine (powerFailEff_keeps S) ?_
  assumption

theorem execHoldupEnd_keeps {P : Device → Prop} (S : Stable P) {s t} (hc : P s.dev) (he : execHoldupEnd s = .next t) : P t.dev := by
  delta execHoldupEnd at he
  refine State.upd_keeps hc he ?_
  intro d hd
  show P _
  refine (holdupEndEff_keeps S) ?_
  assumption

theorem execPhaseCurrentFault_keeps {P : Device → Prop} (S : Stable P) {s t} (hc : P s.dev) (he : execPhaseCurrentFault s = .next t) : P t.dev := by
  delta execPhaseCurrentFault at he
  refine State.upd_keeps hc he ?_
  intro d hd
  show P _
  refine (phaseFaultEff_keeps S) ?_
  assumption

theorem execBusCurrentFault_keeps {P : Device → Prop} (S : Stable P) {s t} (hc : P s.dev) (he : execBusCurrentFault s = .next t) : P t.dev := by
  delta execBusCurrentFault at he
  refine State.upd_keeps hc he ?_
  intro d hd
  show P _
  refine (busCurrentEff_keeps S) ?_
  assumption

theorem execAnalogueLimitFault_keeps {P : Device → Prop} (S : Stable P) {a0 s t} (hc : P s.dev) (he : execAnalogueLimitFault a0 s = .next t) : P t.dev := by
  delta execAnalogueLimitFault at he
  refine State.upd_keeps hc he ?_
  intro d hd
  show P _
  refine (analogueEff_keeps S) ?_
  assumption

theorem execConversionTimeout_keeps {P : Device → Prop} (S : Stable P) {a0 s t} (hc : P s.dev) (he : execConversionTimeout a0 s = .next t) : P t.dev := by
  delta execConversionTimeout at he
  refine State.upd_keeps hc he ?_
  intro d hd
  show P _
  refine (Device.spInputFault_keeps S) ?_
  assumption

theorem execSpCmdStart_keeps {P : Device → Prop} (S : Stable P) {s t} (hc : P s.dev) (he : execSpCmdStart s = .next t) : P t.dev := by
  delta execSpCmdStart at he
  refine State.upd_keeps hc he ?_
  intro d hd
  show P _
  refine (spStartEff_keeps S) ?_
  assumption

theorem execSpCmdStop_keeps {P : Device → Prop} (S : Stable P) {s t} (hc : P s.dev) (he : execSpCmdStop s = .next t) : P t.dev := by
  delta execSpCmdStop at he
  refine State.upd_keeps hc he ?_
  intro d hd
  show P _
  refine (spStopEff_keeps S) ?_
  assumption

theorem execSpCmdCoast_keeps {P : Device → Prop} (S : Stable P) {s t} (hc : P s.dev) (he : execSpCmdCoast s = .next t) : P t.dev := by
  delta execSpCmdCoast at he
  refine State.upd_keeps hc he ?_
  intro d hd
  show P _
  refine (spCoastEff_keeps S) ?_
  assumption

theorem execSpCmdClear_keeps {P : Device → Prop} (S : Stable P) {s t} (hc : P s.dev) (he : execSpCmdClear s = .next t) : P t.dev := by
  delta execSpCmdClear at he
  refine State.upd_keeps hc he ?_
  intro d hd
  show P _
  refine (spClearEff_keeps S) ?_
  assumption

theorem execSpEnWrite_keeps {P : Device → Prop} (S : Stable P) {a0 s t} (hc : P s.dev) (he : execSpEnWrite a0 s = .next t) : P t.dev := by
  delta execSpEnWrite at he
  refine State.upd_keeps hc he ?_
  intro d hd
  show P _
  refine (spEnEff_keeps S) ?_
  assumption

theorem execSpChopTest_keeps {P : Device → Prop} (S : Stable P) {a0 s t} (hc : P s.dev) (he : execSpChopTest a0 s = .next t) : P t.dev := by
  delta execSpChopTest at he
  refine State.upd_keeps hc he ?_
  intro d hd
  show P _
  refine (chopTestEff_keeps S) ?_
  assumption

theorem execChopperSelfTest_keeps {P : Device → Prop} (S : Stable P) {a0 s t} (hc : P s.dev) (he : execChopperSelfTest a0 s = .next t) : P t.dev := by
  delta execChopperSelfTest at he
  refine State.upd_keeps hc he ?_
  intro d hd
  show P _
  refine (selfTestEff_keeps S) ?_
  assumption

theorem execListenEnd_keeps {P : Device → Prop} (S : Stable P) {a0 s t} (hc : P s.dev) (he : execListenEnd a0 s = .next t) : P t.dev := by
  delta execListenEnd at he
  refine State.upd_keeps hc he ?_
  intro d hd
  show P _
  refine (listenEndEff_keeps S) ?_
  assumption

theorem execStartAlignmentEnd_keeps {P : Device → Prop} (S : Stable P) {s t} (hc : P s.dev) (he : execStartAlignmentEnd s = .next t) : P t.dev := by
  delta execStartAlignmentEnd at he
  refine State.upd_keeps hc he ?_
  intro d hd
  show P _
  refine (alignEndEff_keeps S) ?_
  assumption

theorem execStartPolarityEnd_keeps {P : Device → Prop} (S : Stable P) {a0 a1 s t} (hc : P s.dev) (he : execStartPolarityEnd a0 a1 s = .next t) : P t.dev := by
  delta execStartPolarityEnd at he
  refine State.upd_keeps hc he ?_
  intro d hd
  show P _
  refine (polarityEndEff_keeps S) ?_
  assumption

theorem execStartBackwardCheck_keeps {P : Device → Prop} (S : Stable P) {s t} (hc : P s.dev) (he : execStartBackwardCheck s = .next t) : P t.dev := by
  delta execStartBackwardCheck at he
  refine State.upd_keeps hc he ?_
  intro d hd
  show P _
  refine (backwardEff_keeps S) ?_
  assumption

theorem execStartSpeedCheck_keeps {P : Device → Prop} (S : Stable P) {s t} (hc : P s.dev) (he : execStartSpeedCheck s = .next t) : P t.dev := by
  delta execStartSpeedCheck at he
  refine State.upd_keeps hc he ?_
  intro d hd
  show P _
  refine (speedCheckEff_keeps S) ?_
  assumption

theorem execStartRetryResume_keeps {P : Device → Prop} (S : Stable P) {s t} (hc : P s.dev) (he : execStartRetryResume s = .next t) : P t.dev := by
  delta execStartRetryResume at he
  refine State.upd_keeps hc he ?_
  intro d hd
  show P _
  refine (retryResumeEff_keeps S) ?_
  assumption

theorem execSpinupTimeout_keeps {P : Device → Prop} (S : Stable P) {s t} (hc : P s.dev) (he : execSpinupTimeout s = .next t) : P t.dev := by
  delta execSpinupTimeout at he
  refine State.upd_keeps hc he ?_
  intro d hd
  show P _
  refine (spinupEff_keeps S) ?_
  assumption

theorem execCatchEnd_keeps {P : Device → Prop} (S : Stable P) {s t} (hc : P s.dev) (he : execCatchEnd s = .next t) : P t.dev := by
  delta execCatchEnd at he
  refine State.upd_keeps hc he ?_
  intro d hd
  show P _
  refine (catchEndEff_keeps S) ?_
  assumption

theorem execAtspeedSet_keeps {P : Device → Prop} (S : Stable P) {s t} (hc : P s.dev) (he : execAtspeedSet s = .next t) : P t.dev := by
  delta execAtspeedSet at he
  refine State.upd_keeps hc he ?_
  intro d hd
  show P _
  refine (atSpeedSetEff_keeps S) ?_
  assumption

theorem execSyncLoss_keeps {P : Device → Prop} (S : Stable P) {s t} (hc : P s.dev) (he : execSyncLoss s = .next t) : P t.dev := by
  delta execSyncLoss at he
  refine State.upd_keeps hc he ?_
  intro d hd
  show P _
  refine (syncLossEff_keeps S) ?_
  assumption

theorem execKeAbnormal_keeps {P : Device → Prop} (S : Stable P) {s t} (hc : P s.dev) (he : execKeAbnormal s = .next t) : P t.dev := by
  delta execKeAbnormal at he
  refine State.upd_keeps hc he ?_
  intro d hd
  show P _
  refine (keEff_keeps S) ?_
  assumption

theorem execRotorStopped_keeps {P : Device → Prop} (S : Stable P) {s t} (hc : P s.dev) (he : execRotorStopped s = .next t) : P t.dev := by
  delta execRotorStopped at he
  refine State.upd_keeps hc he ?_
  intro d hd
  show P _
  refine (stoppedEff_keeps S) ?_
  assumption

end Sys2Proof.Machine
end

