-- ==== Sys2Proof/Laws/KeepPowerOps.lean ====
section
/-!
SUPPORT. Which of registers, memory and fuses each operation and each command of Machine/PowerOps.lean writes (Laws/Canon.lean).
-/
namespace Sys2Proof.Machine

theorem Device.updPower_keeps {P : Device → Prop} (S : Stable P) {d f} (hc : P d) : P (Device.updPower d f) := by
  delta Device.updPower
  refine S.congr (d := d) ?_ rfl rfl rfl
  assumption

theorem Device.idleDown_keeps {P : Device → Prop} (S : Stable P) {d} (hc : P d) : P (Device.idleDown d) := by
  delta Device.idleDown
  extract_lets -merge -useContext -underBinder +onlyGivenNames k0
  extract_lets -merge -useContext -underBinder +onlyGivenNames x1
  have hx1 : P x1 := by
    unfold x1
    refine keeps_foldl ?_ ?_
    · intro d' x' hd'
      show P _
      refine (Device.cutGate_keeps S) ?_
      refine (Device.wr_keeps S) ?_
      refine (Device.wr_keeps S) ?_
      assumption
    · assumption
  refine (Device.updPower_keeps S) ?_
  exact hx1

theorem Device.idleUp_keeps {P : Device → Prop} (S : Stable P) {d} (hc : P d) : P (Device.idleUp d) := by
  delta Device.idleUp
  extract_lets -merge -useContext -underBinder +onlyGivenNames k0
  extract_lets -merge -useContext -underBinder +onlyGivenNames x1
  have hx1 : P x1 := by
    unfold x1
    refine keeps_foldl ?_ ?_
    · intro d' x' hd'
      show P _
      refine keeps_ite ?_ ?_
      · assumption
      · refine (Device.wrB_keeps S) ?_
        refine (Device.wrB_keeps S) ?_
        assumption
    · assumption
  refine (Device.updPower_keeps S) ?_
  exact hx1

theorem Device.parkDown_keeps {P : Device → Prop} (S : Stable P) {d} (hc : P d) : P (Device.parkDown d) := by
  delta Device.parkDown
  refine keeps_foldl ?_ ?_
  · intro d' x' hd'
    show P _
    refine keeps_ite ?_ ?_
    · refine (svUnloadEff_keeps S) ?_
      refine (Device.updPower_keeps S) ?_
      assumption
    · assumption
  · assumption

theorem Device.parkUp_keeps {P : Device → Prop} (S : Stable P) {d} (hc : P d) : P (Device.parkUp d) := by
  delta Device.parkUp
  refine keeps_foldl ?_ ?_
  · intro d' x' hd'
    show P _
    split
    · assumption
    · refine (svLoadEff_keeps S) ?_
      refine (Device.wr_keeps S) ?_
      assumption
  · assumption

theorem Device.haltDown_keeps {P : Device → Prop} (S : Stable P) {d} (hc : P d) : P (Device.haltDown d) := by
  delta Device.haltDown
  extract_lets -merge -useContext -underBinder +onlyGivenNames k0
  extract_lets -merge -useContext -underBinder +onlyGivenNames k1
  extract_lets -merge -useContext -underBinder +onlyGivenNames x2
  have hx2 : P x2 := by
    unfold x2
    refine keeps_ite ?_ ?_
    · refine (spStopEff_keeps S) ?_
      assumption
    · assumption
  extract_lets -merge -useContext -underBinder +onlyGivenNames x3
  have hx3 : P x3 := by
    unfold x3
    refine keeps_foldl ?_ ?_
    · intro d' x' hd'
      show P _
      refine (psEnEff_keeps S) ?_
      refine (svEnEff_keeps S) ?_
      assumption
    · exact hx2
  refine (Device.updPower_keeps S) ?_
  exact hx3

theorem Device.haltUp_keeps {P : Device → Prop} (S : Stable P) {d target} (hc : P d) : P (Device.haltUp d target) := by
  delta Device.haltUp
  extract_lets -merge -useContext -underBinder +onlyGivenNames k0
  extract_lets -merge -useContext -underBinder +onlyGivenNames x1
  have hx1 : P x1 := by
    unfold x1
    refine keeps_foldl ?_ ?_
    · intro d' x' hd'
      show P _
      extract_lets -merge -useContext -underBinder +onlyGivenNames x2
      have hx2 : P x2 := by
        unfold x2
        refine keeps_ite ?_ ?_
        · refine (psEnEff_keeps S) ?_
          assumption
        · assumption
      refine keeps_ite ?_ ?_
      · refine (svEnEff_keeps S) ?_
        exact hx2
      · exact hx2
    · assumption
  extract_lets -merge -useContext -underBinder +onlyGivenNames x3
  have hx3 : P x3 := by
    unfold x3
    refine keeps_ite ?_ ?_
    · refine (Device.wr_keeps S) ?_
      exact hx1
    · exact hx1
  refine (spStartEff_keeps S) ?_
  refine (Device.updPower_keeps S) ?_
  exact hx3

theorem Device.startStage_keeps {P : Device → Prop} (S : Stable P) {d r} (hc : P d) : P (Device.startStage d r) := by
  delta Device.startStage
  extract_lets -merge -useContext -underBinder +onlyGivenNames x0
  have hx0 : P x0 := by
    unfold x0
    refine (Device.wr_keeps S) ?_
    refine (Device.updPower_keeps S) ?_
    assumption
  refine keeps_ite ?_ ?_
  · extract_lets -merge -useContext -underBinder +onlyGivenNames x1
    have hx1 : P x1 := by
      unfold x1
      refine (Device.updPower_keeps S) ?_
      refine (Device.wr_keeps S) ?_
      exact hx0
    split
    · refine (Device.idleUp_keeps S) ?_
      exact hx1
    · refine (Device.parkUp_keeps S) ?_
      exact hx1
    · refine (Device.wr_keeps S) ?_
      exact hx1
    · refine (Device.haltUp_keeps S) ?_
      exact hx1
  · split
    · refine (Device.idleDown_keeps S) ?_
      exact hx0
    · refine (Device.parkDown_keeps S) ?_
      exact hx0
    · refine (Device.wr_keeps S) ?_
      exact hx0
    · refine (Device.haltDown_keeps S) ?_
      exact hx0

theorem Device.saveUsage_keeps {P : Device → Prop} (S : Stable P) {d} (hc : P d) : P (Device.saveUsage d) := by
  delta Device.saveUsage
  refine S.congr (d := d) ?_ rfl rfl rfl
  assumption

theorem Device.finishRun_keeps {P : Device → Prop} (S : Stable P) {d target forced} (hc : P d) : P (Device.finishRun d target forced) := by
  delta Device.finishRun
  extract_lets -merge -useContext -underBinder +onlyGivenNames k0
  extract_lets -merge -useContext -underBinder +onlyGivenNames x1
  have hx1 : P x1 := by
    unfold x1
    refine (Device.updPower_keeps S) ?_
    assumption
  extract_lets -merge -useContext -underBinder +onlyGivenNames x2
  have hx2 : P x2 := by
    unfold x2
    refine (Device.emit_keeps S) ?_
    exact hx1
  extract_lets -merge -useContext -underBinder +onlyGivenNames x3
  have hx3 : P x3 := by
    unfold x3
    refine (Device.wrAll_keeps S) ?_
    exact hx2
  extract_lets -merge -useContext -underBinder +onlyGivenNames x4
  have hx4 : P x4 := by
    unfold x4
    refine (Device.log_keeps S) ?_
    exact hx3
  extract_lets -merge -useContext -underBinder +onlyGivenNames x5
  have hx5 : P x5 := by
    unfold x5
    refine keeps_ite ?_ ?_
    · refine (Device.emit_keeps S) ?_
      refine (Device.updHost_keeps S) ?_
      exact hx4
    · exact hx4
  refine keeps_ite ?_ ?_
  · refine (Device.saveUsage_keeps S) ?_
    exact hx5
  · exact hx5

theorem Device.goOn_keeps {P : Device → Prop} (S : Stable P) {d pos target forced} (hc : P d) : P (Device.goOn d pos target forced) := by
  delta Device.goOn
  split
  · refine (Device.finishRun_keeps S) ?_
    assumption
  · refine (Device.startStage_keeps S) ?_
    assumption

theorem Device.fetchWake_keeps {P : Device → Prop} (S : Stable P) {d} (hc : P d) : P (Device.fetchWake d) := by
  delta Device.fetchWake
  extract_lets -merge -useContext -underBinder +onlyGivenNames k0
  extract_lets -merge -useContext -underBinder +onlyGivenNames x1
  have hx1 : P x1 := by
    unfold x1
    refine (Device.updHost_keeps S) ?_
    assumption
  extract_lets -merge -useContext -underBinder +onlyGivenNames x2
  have hx2 : P x2 := by
    unfold x2
    refine (Device.updPower_keeps S) ?_
    exact hx1
  split
  · refine keeps_ite ?_ ?_
    · exact hx2
    · refine (Device.updPower_keeps S) ?_
      exact hx2
  · refine keeps_ite ?_ ?_
    · exact hx2
    · refine (Device.goOn_keeps S) ?_
      exact hx2

end Sys2Proof.Machine
end

