-- ==== Sys2Proof/Laws/KeepPower.lean ====
section
/-!
SUPPORT. Which of registers, memory and fuses each operation and each command of Machine/Power.lean writes (Laws/Canon.lean).
-/
namespace Sys2Proof.Machine

theorem commandFetchEff_keeps {P : Device → Prop} (S : Stable P) {c q e d} (hc : P d) : P (commandFetchEff c q e d) := by
  delta commandFetchEff
  split
  · assumption
  · refine keeps_ite ?_ ?_
    · assumption
    · split
      · refine keeps_ite ?_ ?_
        · assumption
        · refine (Device.fetchAdmin_keeps S) ?_
          refine (Device.tookEntry_keeps S) ?_
          assumption
      · refine keeps_ite ?_ ?_
        · assumption
        · refine (Device.fetchWake_keeps S) ?_
          refine (Device.fetchIo_keeps S) ?_
          refine (Device.tookEntry_keeps S) ?_
          assumption

theorem targetWriteEff_keeps {P : Device → Prop} (S : Stable P) {v d} (hc : P d) : P (targetWriteEff v d) := by
  delta targetWriteEff
  extract_lets -merge -useContext -underBinder +onlyGivenNames k0
  refine keeps_ite ?_ ?_
  · assumption
  · refine keeps_ite ?_ ?_
    · refine (Device.wr_keeps S) ?_
      assumption
    · refine (Device.updPower_keeps S) ?_
      refine (Device.wrAll_keeps S) ?_
      assumption

theorem transitionBeginEff_keeps {P : Device → Prop} (S : Stable P) {d} (hc : P d) : P (transitionBeginEff d) := by
  delta transitionBeginEff
  split
  · assumption
  · refine keeps_ite ?_ ?_
    · assumption
    · refine (Device.goOn_keeps S) ?_
      refine (Device.updPower_keeps S) ?_
      assumption

theorem requestTimeoutEff_keeps {P : Device → Prop} (S : Stable P) {secAck d} (hc : P d) : P (requestTimeoutEff secAck d) := by
  delta requestTimeoutEff
  refine keeps_ite ?_ ?_
  · assumption
  · extract_lets -merge -useContext -underBinder +onlyGivenNames k0
    refine (Device.emit_keeps S) ?_
    refine (Device.log_keeps S) ?_
    refine (Device.wr_keeps S) ?_
    refine (Device.updPower_keeps S) ?_
    assumption

theorem stageEndEff_keeps {P : Device → Prop} (S : Stable P) {d} (hc : P d) : P (stageEndEff d) := by
  delta stageEndEff
  split
  · assumption
  · refine keeps_ite ?_ ?_
    · assumption
    · extract_lets -merge -useContext -underBinder +onlyGivenNames x0
      have hx0 : P x0 := by
        unfold x0
        refine keeps_ite ?_ ?_
        · refine (Device.updPower_keeps S) ?_
          assumption
        · assumption
      refine (Device.goOn_keeps S) ?_
      exact hx0

theorem quiesceEff_keeps {P : Device → Prop} (S : Stable P) {stopped d} (hc : P d) : P (quiesceEff stopped d) := by
  delta quiesceEff
  split
  · assumption
  · refine keeps_ite ?_ ?_
    · assumption
    · extract_lets -merge -useContext -underBinder +onlyGivenNames x0
      have hx0 : P x0 := by
        unfold x0
        refine (Device.updPower_keeps S) ?_
        assumption
      extract_lets -merge -useContext -underBinder +onlyGivenNames x1
      have hx1 : P x1 := by
        unfold x1
        refine (Device.log_keeps S) ?_
        refine (Device.wrAll_keeps S) ?_
        exact hx0
      split
      · refine (Device.goOn_keeps S) ?_
        exact hx1
      · refine keeps_ite ?_ ?_
        · refine (Device.goOn_keeps S) ?_
          exact hx1
        · refine (Device.updPower_keeps S) ?_
          exact hx1

theorem Device.saveChron_keeps {P : Device → Prop} (S : Stable P) {d} (hc : P d) : P (Device.saveChron d) := by
  delta Device.saveChron
  refine S.congr (d := d) ?_ rfl rfl rfl
  assumption

theorem retainEntryEff_keeps {P : Device → Prop} (S : Stable P) {d} (hc : P d) : P (retainEntryEff d) := by
  delta retainEntryEff
  refine keeps_ite ?_ ?_
  · assumption
  · extract_lets -merge -useContext -underBinder +onlyGivenNames x0
    have hx0 : P x0 := by
      unfold x0
      refine (Device.updPower_keeps S) ?_
      assumption
    refine (Device.saveChron_keeps S) ?_
    refine (Device.wr_keeps S) ?_
    exact hx0

theorem retainIdleEff_keeps {P : Device → Prop} (S : Stable P) {d} (hc : P d) : P (retainIdleEff d) := by
  delta retainIdleEff
  refine keeps_ite ?_ ?_
  · assumption
  · refine (retainEntryEff_keeps S) ?_
    refine (Device.updPower_keeps S) ?_
    assumption

theorem sealDoneEff_keeps {P : Device → Prop} (S : Stable P) {parities d} (hc : P d) : P (sealDoneEff parities d) := by
  delta sealDoneEff
  refine keeps_ite ?_ ?_
  · assumption
  · extract_lets -merge -useContext -underBinder +onlyGivenNames x0
    have hx0 : P x0 := by
      unfold x0
      refine keeps_foldl ?_ ?_
      · intro d' x' hd'
        show P _
        refine (Device.wr_keeps S) ?_
        assumption
      · assumption
    split
    rename_i v' d' heq'
    have hd' : P d' := by
      show P (v', d').2
      rw [← heq']
      refine (Device.takeFree_keeps S) ?_
      exact hx0
    extract_lets -merge -useContext -underBinder +onlyGivenNames x1
    have hx1 : P x1 := by
      unfold x1
      refine (Device.wr_keeps S) ?_
      assumption
    extract_lets -merge -useContext -underBinder +onlyGivenNames x2
    have hx2 : P x2 := by
      unfold x2
      refine (Device.log_keeps S) ?_
      exact hx1
    refine (Device.updPower_keeps S) ?_
    exact hx2

theorem tickSwitchEff_keeps {P : Device → Prop} (S : Stable P) {d} (hc : P d) : P (tickSwitchEff d) := by
  delta tickSwitchEff
  refine keeps_ite ?_ ?_
  · assumption
  · extract_lets -merge -useContext -underBinder +onlyGivenNames x0i0 x0
    have hx0 : P x0 := by
      unfold x0
      refine S.congr (d := d) ?_ rfl rfl rfl
      assumption
    refine (Device.updPower_keeps S) ?_
    exact hx0

theorem Device.wakeBy_keeps {P : Device → Prop} (S : Stable P) {d bit} (hc : P d) : P (Device.wakeBy d bit) := by
  delta Device.wakeBy
  refine keeps_ite ?_ ?_
  · assumption
  · extract_lets -merge -useContext -underBinder +onlyGivenNames g0
    have hg0 : ∀ g0a0 (hg0a0 : P g0a0), P (g0 g0a0) := by
      intro g0a0 hg0a0
      unfold g0
      show P _
      refine (Device.wr_keeps S) ?_
      assumption
    split
    · assumption
    · refine (Device.log_keeps S) ?_
      refine (Device.updPower_keeps S) ?_
      assumption
    · refine (Device.updPower_keeps S) ?_
      refine hg0 _ ?_
      assumption
    · refine (Device.updPower_keeps S) ?_
      refine hg0 _ ?_
      assumption
    · refine hg0 _ ?_
      assumption

theorem crownBreakEff_keeps {P : Device → Prop} (S : Stable P) {d} (hc : P d) : P (crownBreakEff d) := by
  delta crownBreakEff
  refine keeps_ite ?_ ?_
  · assumption
  · refine (Device.updPower_keeps S) ?_
    assumption

theorem crownPatternEff_keeps {P : Device → Prop} (S : Stable P) {d} (hc : P d) : P (crownPatternEff d) := by
  delta crownPatternEff
  refine keeps_ite ?_ ?_
  · assumption
  · refine (Device.wakeBy_keeps S) ?_
    refine (Device.updPower_keeps S) ?_
    assumption

theorem Device.zeroBank_keeps {P : Device → Prop} (S : MemStable P) {d b} (hc : P d) : P (Device.zeroBank d b) := by
  refine S.mem hc rfl rfl (Memory.wf_of (Sparse.ok_filter _ _) ?_ (Sparse.ok_filter _ _))
  intro hm
  refine Sparse.okFrom_map_filter _ ?_ ?_ (Sparse.ok_filter _ _ hm)
  · intro p
    dsimp only
    split <;> rfl
  · intro p hp
    simpa using hp

theorem Device.freePool_keeps {P : Device → Prop} (S : Stable P) {d} (hc : P d) : P (Device.freePool d) := by
  delta Device.freePool
  extract_lets -merge -useContext -underBinder +onlyGivenNames x0
  have hx0 : P x0 := by
    unfold x0
    refine S.congr (d := d) ?_ rfl rfl rfl
    assumption
  extract_lets -merge -useContext -underBinder +onlyGivenNames x1
  have hx1 : P x1 := by
    unfold x1
    refine keeps_foldl ?_ ?_
    · intro d' x' hd'
      show P _
      refine (Device.updCh_keeps S) ?_
      assumption
    · exact hx0
  refine (Device.updHost_keeps S) ?_
  exact hx1

theorem Device.hostLoss_keeps {P : Device → Prop} (S : Stable P) {d} (hc : P d) : P (Device.hostLoss d) := by
  delta Device.hostLoss
  extract_lets -merge -useContext -underBinder +onlyGivenNames x0
  have hx0 : P x0 := by
    unfold x0
    refine keeps_foldl ?_ ?_
    · intro d' x' hd'
      show P _
      refine (Device.updCtrl_keeps S) ?_
      assumption
    · assumption
  refine (Device.updHost_keeps S) ?_
  exact hx0

theorem Device.hostGroup_keeps {P : Device → Prop} (S : Stable P) {d} (hc : P d) : P (Device.hostGroup d) := by
  delta Device.hostGroup
  extract_lets -merge -useContext -underBinder +onlyGivenNames x0
  have hx0 : P x0 := by
    unfold x0
    refine S.resetRegs _ _ ?_
    assumption
  extract_lets -merge -useContext -underBinder +onlyGivenNames x1
  have hx1 : P x1 := by
    unfold x1
    refine (Device.updHost_keeps S) ?_
    exact hx0
  refine (Device.hostLoss_keeps S) ?_
  exact hx1

theorem Device.laneGroup_keeps {P : Device → Prop} (S : Stable P) {d l} (hc : P d) : P (Device.laneGroup d l) := by
  delta Device.laneGroup
  extract_lets -merge -useContext -underBinder +onlyGivenNames x0
  have hx0 : P x0 := by
    unfold x0
    refine S.resetRegs _ _ ?_
    refine (Device.updLane_keeps S) ?_
    assumption
  exact S.congr hx0 rfl rfl rfl

theorem Device.memGroup_keeps {P : Device → Prop} (S : Stable P) {d} (hc : P d) : P (Device.memGroup d) := by
  delta Device.memGroup
  extract_lets -merge -useContext -underBinder +onlyGivenNames k0
  extract_lets -merge -useContext -underBinder +onlyGivenNames x1
  have hx1 : P x1 := by
    unfold x1
    refine S.setWord _ _ ?_
    refine S.resetRegs _ _ ?_
    assumption
  refine (Device.freePool_keeps S) ?_
  exact S.congr hx1 rfl rfl rfl

theorem Device.spinGroup_keeps {P : Device → Prop} (S : Stable P) {d} (hc : P d) : P (Device.spinGroup d) := by
  delta Device.spinGroup
  extract_lets -merge -useContext -underBinder +onlyGivenNames x0
  have hx0 : P x0 := by
    unfold x0
    refine S.resetRegs _ _ ?_
    assumption
  exact S.congr hx0 rfl rfl rfl

theorem Device.cipherGroup_keeps {P : Device → Prop} (S : Stable P) {d} (hc : P d) : P (Device.cipherGroup d) := by
  delta Device.cipherGroup
  extract_lets -merge -useContext -underBinder +onlyGivenNames k0
  extract_lets -merge -useContext -underBinder +onlyGivenNames k1
  extract_lets -merge -useContext -underBinder +onlyGivenNames x2i0 x2
  have hx2 : P x2 := by
    unfold x2
    refine S.congr (d := x2i0) ?_ rfl rfl rfl
    unfold x2i0
    refine S.resetRegs _ _ ?_
    assumption
  refine (Device.zeroiseAll_keeps S) ?_
  refine (Device.wrB_keeps S) ?_
  refine (Device.wrB_keeps S) ?_
  exact hx2

theorem Device.calGroup_keeps {P : Device → Prop} (S : Stable P) {d obs} (hc : P d) : P (Device.calGroup d obs) := by
  delta Device.calGroup
  extract_lets -merge -useContext -underBinder +onlyGivenNames x0
  have hx0 : P x0 := by
    unfold x0
    refine S.resetRegs _ _ ?_
    assumption
  refine (Device.examineA_keeps S) ?_
  exact S.congr hx0 rfl rfl rfl

theorem Device.regGroup_keeps {P : Device → Prop} (S : Stable P) {d} (hc : P d) : P (Device.regGroup d) := by
  have h1 : ∀ (l : List (Nat × BitVec 32)) (x : Device), P x → P (l.foldl (fun d p => d.setWord p.1 p.2) x) := by
    intro l x hx
    exact keeps_foldl (fun _ _ h => S.setWord _ _ h) hx
  have h2 : ∀ (x : Device) (t : Thermal), P x → P { x with thermal := t, cal := {}, duty := {} } :=
    fun x _ hx => S.congr (d := x) hx rfl rfl rfl
  delta Device.regGroup
  exact h2 _ _ (h1 _ _ (S.resetRegs _ _ hc))

theorem Device.regRestart_keeps {P : Device → Prop} (S : Stable P) {d} (hc : P d) : P (Device.regRestart d) := by
  delta Device.regRestart
  refine (Device.restartChron_keeps S) ?_
  refine S.congr (d := d) ?_ rfl rfl rfl
  assumption

theorem retainExitEff_keeps {P : Device → Prop} (S : MemStable P) {groups banks regSram digestOk obs d} (hc : P d) : P (retainExitEff groups banks regSram digestOk obs d) := by
  delta retainExitEff
  refine keeps_ite ?_ ?_
  · assumption
  · extract_lets -merge -useContext -underBinder +onlyGivenNames k0
    extract_lets -merge -useContext -underBinder +onlyGivenNames k1
    extract_lets -merge -useContext -underBinder +onlyGivenNames k2
    extract_lets -merge -useContext -underBinder +onlyGivenNames x3
    have hx3 : P x3 := by
      unfold x3
      refine keeps_foldl ?_ ?_
      · intro d' x' hd'
        show P _
        refine keeps_ite ?_ ?_
        · refine (Device.zeroBank_keeps S) ?_
          assumption
        · assumption
      · assumption
    extract_lets -merge -useContext -underBinder +onlyGivenNames k4
    extract_lets -merge -useContext -underBinder +onlyGivenNames x5
    have hx5 : P x5 := by
      unfold x5
      refine keeps_ite ?_ ?_
      · refine (Device.freePool_keeps S.toStable) ?_
        exact hx3
      · exact hx3
    extract_lets -merge -useContext -underBinder +onlyGivenNames x6
    have hx6 : P x6 := by
      unfold x6
      refine keeps_ite ?_ ?_
      · refine (Device.hostLoss_keeps S.toStable) ?_
        exact hx5
      · exact hx5
    extract_lets -merge -useContext -underBinder +onlyGivenNames x7
    have hx7 : P x7 := by
      unfold x7
      refine keeps_ite ?_ ?_
      · refine (Device.hostGroup_keeps S.toStable) ?_
        exact hx6
      · exact hx6
    extract_lets -merge -useContext -underBinder +onlyGivenNames x8
    have hx8 : P x8 := by
      unfold x8
      refine keeps_ite ?_ ?_
      · refine (Device.laneGroup_keeps S.toStable) ?_
        exact hx7
      · exact hx7
    extract_lets -merge -useContext -underBinder +onlyGivenNames x9
    have hx9 : P x9 := by
      unfold x9
      refine keeps_ite ?_ ?_
      · refine (Device.laneGroup_keeps S.toStable) ?_
        exact hx8
      · exact hx8
    extract_lets -merge -useContext -underBinder +onlyGivenNames x10
    have hx10 : P x10 := by
      unfold x10
      refine keeps_ite ?_ ?_
      · refine (Device.memGroup_keeps S.toStable) ?_
        exact hx9
      · exact hx9
    extract_lets -merge -useContext -underBinder +onlyGivenNames x11
    have hx11 : P x11 := by
      unfold x11
      refine keeps_ite ?_ ?_
      · refine (Device.spinGroup_keeps S.toStable) ?_
        exact hx10
      · exact hx10
    extract_lets -merge -useContext -underBinder +onlyGivenNames x12
    have hx12 : P x12 := by
      unfold x12
      refine keeps_ite ?_ ?_
      · refine (Device.cipherGroup_keeps S.toStable) ?_
        exact hx11
      · exact hx11
    extract_lets -merge -useContext -underBinder +onlyGivenNames x13
    have hx13 : P x13 := by
      unfold x13
      refine keeps_ite ?_ ?_
      · refine (Device.regGroup_keeps S.toStable) ?_
        exact hx12
      · exact hx12
    extract_lets -merge -useContext -underBinder +onlyGivenNames k14
    extract_lets -merge -useContext -underBinder +onlyGivenNames x15
    have hx15 : P x15 := by
      unfold x15
      refine keeps_ite ?_ ?_
      · refine (Device.regRestart_keeps S.toStable) ?_
        exact hx13
      · exact hx13
    extract_lets -merge -useContext -underBinder +onlyGivenNames x16
    have hx16 : P x16 := by
      unfold x16
      refine (Device.updPower_keeps S.toStable) ?_
      exact hx15
    extract_lets -merge -useContext -underBinder +onlyGivenNames x17
    have hx17 : P x17 := by
      unfold x17
      refine (Device.wrAll_keeps S.toStable) ?_
      exact hx16
    extract_lets -merge -useContext -underBinder +onlyGivenNames x18i0 x18
    have hx18 : P x18 := by
      unfold x18
      exact S.congr hx17 rfl rfl rfl
    extract_lets -merge -useContext -underBinder +onlyGivenNames x19i0 x19i1 x19
    have hx19 : P x19 := by
      unfold x19
      refine keeps_ite ?_ ?_
      · exact hx18
      · refine (Device.postAen_keeps S.toStable) ?_
        refine (Device.log_keeps S.toStable) ?_
        unfold x19i1
        exact S.congr hx18 rfl rfl rfl
    extract_lets -merge -useContext -underBinder +onlyGivenNames x20
    have hx20 : P x20 := by
      unfold x20
      refine keeps_ite ?_ ?_
      · exact hx19
      · refine (Device.log_keeps S.toStable) ?_
        refine (Device.loadPatch_keeps S.toStable) ?_
        exact hx19
    extract_lets -merge -useContext -underBinder +onlyGivenNames x21
    have hx21 : P x21 := by
      unfold x21
      refine (Device.log_keeps S.toStable) ?_
      exact hx20
    refine keeps_ite ?_ ?_
    · refine (Device.calGroup_keeps S.toStable) ?_
      exact hx21
    · exact hx21

theorem Device.countBusy_keeps {P : Device → Prop} (S : Stable P) {d} (hc : P d) : P (Device.countBusy d) := by
  delta Device.countBusy
  refine S.congr (d := d) ?_ rfl rfl rfl
  assumption

theorem Device.countDuty_keeps {P : Device → Prop} (S : Stable P) {d} (hc : P d) : P (Device.countDuty d) := by
  delta Device.countDuty
  refine S.congr (d := d) ?_ rfl rfl rfl
  assumption

theorem Device.countProbation_keeps {P : Device → Prop} (S : Stable P) {d} (hc : P d) : P (Device.countProbation d) := by
  delta Device.countProbation
  refine keeps_ite ?_ ?_
  · refine S.congr (d := d) ?_ rfl rfl rfl
    assumption
  · assumption

theorem Device.idleInPs1_keeps {P : Device → Prop} (S : Stable P) {d} (hc : P d) : P (Device.idleInPs1 d) := by
  delta Device.idleInPs1
  refine keeps_ite ?_ ?_
  · refine (Device.updPower_keeps S) ?_
    assumption
  · assumption

theorem chronTickEff_keeps {P : Device → Prop} (S : Stable P) {d} (hc : P d) : P (chronTickEff d) := by
  delta chronTickEff
  refine keeps_ite ?_ ?_
  · assumption
  · extract_lets -merge -useContext -underBinder +onlyGivenNames k0
    extract_lets -merge -useContext -underBinder +onlyGivenNames x1i0 x1
    have hx1 : P x1 := by
      unfold x1
      refine S.congr (d := d) ?_ rfl rfl rfl
      assumption
    extract_lets -merge -useContext -underBinder +onlyGivenNames x2
    have hx2 : P x2 := by
      unfold x2
      refine (Device.closeMinute_keeps S) ?_
      exact hx1
    extract_lets -merge -useContext -underBinder +onlyGivenNames x3
    have hx3 : P x3 := by
      unfold x3
      refine keeps_ite ?_ ?_
      · exact hx2
      · refine (Device.saveTherm_keeps S) ?_
        exact hx2
    refine (Device.idleInPs1_keeps S) ?_
    refine (Device.countProbation_keeps S) ?_
    refine (Device.countDuty_keeps S) ?_
    refine (Device.countBusy_keeps S) ?_
    exact hx3

theorem retainTickEff_keeps {P : Device → Prop} (S : Stable P) {d} (hc : P d) : P (retainTickEff d) := by
  delta retainTickEff
  refine keeps_ite ?_ ?_
  · assumption
  · extract_lets -merge -useContext -underBinder +onlyGivenNames k0
    extract_lets -merge -useContext -underBinder +onlyGivenNames k1
    refine (Device.closeMinute_keeps S) ?_
    refine S.congr (d := d) ?_ rfl rfl rfl
    assumption

theorem minuteEff_keeps {P : Device → Prop} (S : Stable P) {d} (hc : P d) : P (minuteEff d) := by
  delta minuteEff
  extract_lets -merge -useContext -underBinder +onlyGivenNames k0
  refine keeps_ite ?_ ?_
  · assumption
  · extract_lets -merge -useContext -underBinder +onlyGivenNames k1
    extract_lets -merge -useContext -underBinder +onlyGivenNames x2
    have hx2 : P x2 := by
      unfold x2
      refine S.congr (d := d) ?_ rfl rfl rfl
      assumption
    refine keeps_ite ?_ ?_
    · exact S.congr hx2 rfl rfl rfl
    · extract_lets -merge -useContext -underBinder +onlyGivenNames k3
      exact S.congr hx2 rfl rfl rfl

theorem execCommandFetch_keeps {P : Device → Prop} (S : Stable P) {a0 a1 a2 s t} (hc : P s.dev) (he : execCommandFetch a0 a1 a2 s = .next t) : P t.dev := by
  delta execCommandFetch at he
  refine State.upd_keeps hc he ?_
  intro d hd
  show P _
  refine (commandFetchEff_keeps S) ?_
  assumption

theorem execPmodeTargetWrite_keeps {P : Device → Prop} (S : Stable P) {a0 s t} (hc : P s.dev) (he : execPmodeTargetWrite a0 s = .next t) : P t.dev := by
  delta execPmodeTargetWrite at he
  refine State.upd_keeps hc he ?_
  intro d hd
  show P _
  refine (targetWriteEff_keeps S) ?_
  assumption

theorem execPmTransitionBegin_keeps {P : Device → Prop} (S : Stable P) {s t} (hc : P s.dev) (he : execPmTransitionBegin s = .next t) : P t.dev := by
  delta execPmTransitionBegin at he
  refine State.upd_keeps hc he ?_
  intro d hd
  show P _
  refine (transitionBeginEff_keeps S) ?_
  assumption

theorem execPmRequestTimeout_keeps {P : Device → Prop} (S : Stable P) {a0 s t} (hc : P s.dev) (he : execPmRequestTimeout a0 s = .next t) : P t.dev := by
  delta execPmRequestTimeout at he
  refine State.upd_keeps hc he ?_
  intro d hd
  show P _
  refine (requestTimeoutEff_keeps S) ?_
  assumption

theorem execPmStageEnd_keeps {P : Device → Prop} (S : Stable P) {s t} (hc : P s.dev) (he : execPmStageEnd s = .next t) : P t.dev := by
  delta execPmStageEnd at he
  refine State.upd_keeps hc he ?_
  intro d hd
  show P _
  refine (stageEndEff_keeps S) ?_
  assumption

theorem execForcedQuiesceTimeout_keeps {P : Device → Prop} (S : Stable P) {a0 s t} (hc : P s.dev) (he : execForcedQuiesceTimeout a0 s = .next t) : P t.dev := by
  delta execForcedQuiesceTimeout at he
  refine State.upd_keeps hc he ?_
  intro d hd
  show P _
  refine (quiesceEff_keeps S) ?_
  assumption

theorem execRetainEntry_keeps {P : Device → Prop} (S : Stable P) {s t} (hc : P s.dev) (he : execRetainEntry s = .next t) : P t.dev := by
  delta execRetainEntry at he
  refine State.upd_keeps hc he ?_
  intro d hd
  show P _
  refine (retainEntryEff_keeps S) ?_
  assumption

theorem execRetainIdleExpire_keeps {P : Device → Prop} (S : Stable P) {s t} (hc : P s.dev) (he : execRetainIdleExpire s = .next t) : P t.dev := by
  delta execRetainIdleExpire at he
  refine State.upd_keeps hc he ?_
  intro d hd
  show P _
  refine (retainIdleEff_keeps S) ?_
  assumption

theorem execRetainSealDone_keeps {P : Device → Prop} (S : Stable P) {a0 s t} (hc : P s.dev) (he : execRetainSealDone a0 s = .next t) : P t.dev := by
  delta execRetainSealDone at he
  refine State.upd_keeps hc he ?_
  intro d hd
  show P _
  refine (sealDoneEff_keeps S) ?_
  assumption

theorem execRetainTickSwitch_keeps {P : Device → Prop} (S : Stable P) {s t} (hc : P s.dev) (he : execRetainTickSwitch s = .next t) : P t.dev := by
  delta execRetainTickSwitch at he
  refine State.upd_keeps hc he ?_
  intro d hd
  show P _
  refine (tickSwitchEff_keeps S) ?_
  assumption

theorem execWakePcie_keeps {P : Device → Prop} (S : Stable P) {a0 s t} (hc : P s.dev) (he : execWakePcie a0 s = .next t) : P t.dev := by
  delta execWakePcie at he
  refine State.upd_keeps hc he ?_
  intro d hd
  show P _
  refine keeps_ite ?_ ?_
  · refine (Device.wakeBy_keeps S) ?_
    assumption
  · assumption

theorem execWakeCrownBreak_keeps {P : Device → Prop} (S : Stable P) {s t} (hc : P s.dev) (he : execWakeCrownBreak s = .next t) : P t.dev := by
  delta execWakeCrownBreak at he
  refine State.upd_keeps hc he ?_
  intro d hd
  show P _
  refine (crownBreakEff_keeps S) ?_
  assumption

theorem execWakeCrownPattern_keeps {P : Device → Prop} (S : Stable P) {s t} (hc : P s.dev) (he : execWakeCrownPattern s = .next t) : P t.dev := by
  delta execWakeCrownPattern at he
  refine State.upd_keeps hc he ?_
  intro d hd
  show P _
  refine (crownPatternEff_keeps S) ?_
  assumption

theorem execWakeCrownTimeout_keeps {P : Device → Prop} (S : Stable P) {s t} (hc : P s.dev) (he : execWakeCrownTimeout s = .next t) : P t.dev := by
  delta execWakeCrownTimeout at he
  refine State.upd_keeps hc he ?_
  intro d hd
  show P _
  refine (Device.updPower_keeps S) ?_
  assumption

theorem execWakeSmbus_keeps {P : Device → Prop} (S : Stable P) {a0 s t} (hc : P s.dev) (he : execWakeSmbus a0 s = .next t) : P t.dev := by
  delta execWakeSmbus at he
  refine State.upd_keeps hc he ?_
  intro d hd
  show P _
  refine keeps_ite ?_ ?_
  · refine (Device.wakeBy_keeps S) ?_
    assumption
  · assumption

theorem execWakeAonTimer_keeps {P : Device → Prop} (S : Stable P) {s t} (hc : P s.dev) (he : execWakeAonTimer s = .next t) : P t.dev := by
  delta execWakeAonTimer at he
  refine State.upd_keeps hc he ?_
  intro d hd
  show P _
  refine keeps_ite ?_ ?_
  · assumption
  · refine (Device.wakeBy_keeps S) ?_
    assumption

theorem execRetainExit_keeps {P : Device → Prop} (S : MemStable P) {a0 a1 a2 a3 a4 s t} (hc : P s.dev) (he : execRetainExit a0 a1 a2 a3 a4 s = .next t) : P t.dev := by
  delta execRetainExit at he
  refine State.upd_keeps hc he ?_
  intro d hd
  show P _
  refine (retainExitEff_keeps S) ?_
  assumption

theorem execChronometerTick_keeps {P : Device → Prop} (S : Stable P) {s t} (hc : P s.dev) (he : execChronometerTick s = .next t) : P t.dev := by
  delta execChronometerTick at he
  refine State.upd_keeps hc he ?_
  intro d hd
  show P _
  refine (chronTickEff_keeps S) ?_
  assumption

theorem execRetainChronometerTick_keeps {P : Device → Prop} (S : Stable P) {s t} (hc : P s.dev) (he : execRetainChronometerTick s = .next t) : P t.dev := by
  delta execRetainChronometerTick at he
  refine State.upd_keeps hc he ?_
  intro d hd
  show P _
  refine (retainTickEff_keeps S) ?_
  assumption

theorem execChronometerNorSave_keeps {P : Device → Prop} (S : Stable P) {s t} (hc : P s.dev) (he : execChronometerNorSave s = .next t) : P t.dev := by
  delta execChronometerNorSave at he
  refine State.upd_keeps hc he ?_
  intro d hd
  show P _
  refine keeps_ite ?_ ?_
  · refine (Device.saveChron_keeps S) ?_
    assumption
  · assumption

theorem execUsageMinuteSnapshot_keeps {P : Device → Prop} (S : Stable P) {s t} (hc : P s.dev) (he : execUsageMinuteSnapshot s = .next t) : P t.dev := by
  delta execUsageMinuteSnapshot at he
  refine State.upd_keeps hc he ?_
  intro d hd
  show P _
  refine (minuteEff_keeps S) ?_
  assumption

theorem execUsageSnapshotNorSave_keeps {P : Device → Prop} (S : Stable P) {s t} (hc : P s.dev) (he : execUsageSnapshotNorSave s = .next t) : P t.dev := by
  delta execUsageSnapshotNorSave at he
  refine State.upd_keeps hc he ?_
  intro d hd
  show P _
  refine keeps_ite ?_ ?_
  · refine (Device.saveUsage_keeps S) ?_
    assumption
  · assumption

end Sys2Proof.Machine
end

