-- ==== Sys2Proof/Laws/KeepUpdate.lean ====
section
/-!
SUPPORT. Which of registers, memory and fuses each operation and each command of Machine/Update.lean writes (Laws/Canon.lean).
-/
namespace Sys2Proof.Machine

theorem Device.setLong_keeps {P : Device → Prop} (S : Stable P) {d o} (hc : P d) : P (Device.setLong d o) := by
  delta Device.setLong
  refine S.congr (d := d) ?_ rfl rfl rfl
  assumption

theorem updBeginEff_keeps {P : Device → Prop} (S : Stable P) {len ident d} (hc : P d) : P (updBeginEff len ident d) := by
  delta updBeginEff
  refine (Device.servedNR_keeps S) ?_ ?_
  · assumption
  · refine keeps_ite ?_ ?_
    · refine (Device.respond_keeps S) ?_
      assumption
    · refine keeps_ite ?_ ?_
      · refine (Device.respond_keeps S) ?_
        refine (Device.log_keeps S) ?_
        assumption
      · refine keeps_ite ?_ ?_
        · refine (Device.respond_keeps S) ?_
          assumption
        · refine keeps_ite ?_ ?_
          · refine (Device.respond_keeps S) ?_
            assumption
          · extract_lets -merge -useContext -underBinder +onlyGivenNames x0i0 x0
            have hx0 : P x0 := by
              unfold x0
              refine S.congr (d := d) ?_ rfl rfl rfl
              assumption
            extract_lets -merge -useContext -underBinder +onlyGivenNames x1i0 x1
            have hx1 : P x1 := by
              unfold x1
              refine (Device.writeRec_keeps S) ?_
              exact hx0
            refine (Device.respond_keeps S) ?_
            refine (Device.log_keeps S) ?_
            refine (Device.wr_keeps S) ?_
            exact hx1

theorem updChunkEff_keeps {P : Device → Prop} (S : Stable P) {index data norFail d} (hc : P d) : P (updChunkEff index data norFail d) := by
  delta updChunkEff
  refine (Device.servedNR_keeps S) ?_ ?_
  · assumption
  · refine keeps_ite ?_ ?_
    · refine (Device.respond_keeps S) ?_
      assumption
    · refine keeps_ite ?_ ?_
      · refine (Device.respond_keeps S) ?_
        assumption
      · refine keeps_ite ?_ ?_
        · refine (Device.respond_keeps S) ?_
          assumption
        · extract_lets -merge -useContext -underBinder +onlyGivenNames k0
          extract_lets -merge -useContext -underBinder +onlyGivenNames x1i0 x1
          have hx1 : P x1 := by
            unfold x1
            refine S.congr (d := d) ?_ rfl rfl rfl
            assumption
          extract_lets -merge -useContext -underBinder +onlyGivenNames x2
          have hx2 : P x2 := by
            unfold x2
            refine (Device.wr_keeps S) ?_
            exact hx1
          extract_lets -merge -useContext -underBinder +onlyGivenNames x3i0 x3
          have hx3 : P x3 := by
            unfold x3
            refine keeps_ite ?_ ?_
            · refine (Device.writeRec_keeps S) ?_
              exact hx2
            · exact hx2
          refine (Device.respond_keeps S) ?_
          exact hx3

theorem updVerifyEff_keeps {P : Device → Prop} (S : Stable P) {d} (hc : P d) : P (updVerifyEff d) := by
  delta updVerifyEff
  refine (Device.servedNR_keeps S) ?_ ?_
  · assumption
  · refine keeps_ite ?_ ?_
    · refine (Device.respond_keeps S) ?_
      assumption
    · refine keeps_ite ?_ ?_
      · refine (Device.respond_keeps S) ?_
        assumption
      · refine (Device.respond_keeps S) ?_
        refine (Device.setLong_keeps S) ?_
        assumption

theorem updVerifyDoneEff_keeps {P : Device → Prop} (S : Stable P) {obs d} (hc : P d) : P (updVerifyDoneEff obs d) := by
  delta updVerifyDoneEff
  refine keeps_ite ?_ ?_
  · assumption
  · extract_lets -merge -useContext -underBinder +onlyGivenNames x0
    have hx0 : P x0 := by
      unfold x0
      refine (Device.setLong_keeps S) ?_
      assumption
    refine keeps_ite ?_ ?_
    · exact hx0
    · extract_lets -merge -useContext -underBinder +onlyGivenNames k1
      extract_lets -merge -useContext -underBinder +onlyGivenNames x2
      have hx2 : P x2 := by
        unfold x2
        refine (Device.wr_keeps S) ?_
        exact hx0
      refine keeps_ite ?_ ?_
      · refine (Device.log_keeps S) ?_
        refine (Device.writeRec_keeps S) ?_
        exact hx2
      · refine (Device.log_keeps S) ?_
        refine (Device.writeRec_keeps S) ?_
        exact hx2

theorem Device.setSlotImage_keeps {P : Device → Prop} (S : Stable P) {d s t} (hc : P d) : P (Device.setSlotImage d s t) := by
  delta Device.setSlotImage
  refine keeps_ite ?_ ?_
  · refine S.congr (d := d) ?_ rfl rfl rfl
    assumption
  · refine S.congr (d := d) ?_ rfl rfl rfl
    assumption

theorem updCommitEff_keeps {P : Device → Prop} (S : Stable P) {d} (hc : P d) : P (updCommitEff d) := by
  delta updCommitEff
  refine (Device.servedNR_keeps S) ?_ ?_
  · assumption
  · refine keeps_ite ?_ ?_
    · refine (Device.respond_keeps S) ?_
      assumption
    · refine keeps_ite ?_ ?_
      · refine (Device.respond_keeps S) ?_
        assumption
      · refine (Device.respond_keeps S) ?_
        refine (Device.setLong_keeps S) ?_
        refine (Device.setSlotImage_keeps S) ?_
        refine (Device.writeRec_keeps S) ?_
        assumption

theorem updCopyDoneEff_keeps {P : Device → Prop} (S : Stable P) {norFail d} (hc : P d) : P (updCopyDoneEff norFail d) := by
  delta updCopyDoneEff
  refine keeps_ite ?_ ?_
  · assumption
  · extract_lets -merge -useContext -underBinder +onlyGivenNames x0
    have hx0 : P x0 := by
      unfold x0
      refine (Device.setLong_keeps S) ?_
      assumption
    refine keeps_ite ?_ ?_
    · refine (Device.log_keeps S) ?_
      refine (Device.writeRec_keeps S) ?_
      exact hx0
    · extract_lets -merge -useContext -underBinder +onlyGivenNames k1
      extract_lets -merge -useContext -underBinder +onlyGivenNames x2
      have hx2 : P x2 := by
        unfold x2
        refine (Device.setSlotImage_keeps S) ?_
        exact hx0
      refine (Device.log_keeps S) ?_
      refine (Device.writeRec_keeps S) ?_
      exact hx2

theorem updScheduleEff_keeps {P : Device → Prop} (S : Stable P) {epoch window d} (hc : P d) : P (updScheduleEff epoch window d) := by
  delta updScheduleEff
  refine (Device.servedN_keeps S) ?_ ?_
  · assumption
  · refine keeps_ite ?_ ?_
    · refine (Device.respond_keeps S) ?_
      assumption
    · refine keeps_ite ?_ ?_
      · refine (Device.respond_keeps S) ?_
        assumption
      · refine (Device.respond_keeps S) ?_
        refine (Device.log_keeps S) ?_
        refine (Device.writeRec_keeps S) ?_
        assumption

theorem updCancelEff_keeps {P : Device → Prop} (S : Stable P) {d} (hc : P d) : P (updCancelEff d) := by
  delta updCancelEff
  refine (Device.servedNR_keeps S) ?_ ?_
  · assumption
  · extract_lets -merge -useContext -underBinder +onlyGivenNames k0
    refine keeps_ite ?_ ?_
    · refine keeps_ite ?_ ?_
      · refine (Device.respond_keeps S) ?_
        assumption
      · refine (Device.respond_keeps S) ?_
        refine (Device.log_keeps S) ?_
        refine (Device.writeRec_keeps S) ?_
        assumption
    · refine keeps_ite ?_ ?_
      · extract_lets -merge -useContext -underBinder +onlyGivenNames x1i0 x1
        have hx1 : P x1 := by
          unfold x1
          refine S.congr (d := d) ?_ rfl rfl rfl
          assumption
        extract_lets -merge -useContext -underBinder +onlyGivenNames x2
        have hx2 : P x2 := by
          unfold x2
          refine (Device.wr_keeps S) ?_
          refine (Device.setLong_keeps S) ?_
          exact hx1
        refine (Device.respond_keeps S) ?_
        refine (Device.writeRec_keeps S) ?_
        exact hx2
      · refine (Device.respond_keeps S) ?_
        assumption

theorem updStatusEff_keeps {P : Device → Prop} (S : Stable P) {d} (hc : P d) : P (updStatusEff d) := by
  delta updStatusEff
  refine (Device.servedNR_keeps S) ?_ ?_
  · assumption
  · refine (Device.respond_keeps S) ?_
    assumption

theorem calChunkEff_keeps {P : Device → Prop} (S : Stable P) {offset length data d} (hc : P d) : P (calChunkEff offset length data d) := by
  delta calChunkEff
  refine (Device.servedNR_keeps S) ?_ ?_
  · assumption
  · refine keeps_ite ?_ ?_
    · refine (Device.respond_keeps S) ?_
      assumption
    · extract_lets -merge -useContext -underBinder +onlyGivenNames k0
      extract_lets -merge -useContext -underBinder +onlyGivenNames k1
      refine (Device.respond_keeps S) ?_
      refine S.congr (d := d) ?_ rfl rfl rfl
      assumption

theorem calCommitEff_keeps {P : Device → Prop} (S : Stable P) {copy verdict norFail d} (hc : P d) : P (calCommitEff copy verdict norFail d) := by
  delta calCommitEff
  refine (Device.servedNR_keeps S) ?_ ?_
  · assumption
  · extract_lets -merge -useContext -underBinder +onlyGivenNames k0
    extract_lets -merge -useContext -underBinder +onlyGivenNames k1
    extract_lets -merge -useContext -underBinder +onlyGivenNames k2
    refine keeps_ite ?_ ?_
    · refine (Device.respond_keeps S) ?_
      assumption
    · refine keeps_ite ?_ ?_
      · refine (Device.respond_keeps S) ?_
        assumption
      · split
        · refine (Device.respond_keeps S) ?_
          assumption
        · split
          · refine (Device.respond_keeps S) ?_
            refine (Device.log_keeps S) ?_
            assumption
          · refine keeps_ite ?_ ?_
            · refine (Device.respond_keeps S) ?_
              assumption
            · refine keeps_ite ?_ ?_
              · refine (Device.respond_keeps S) ?_
                assumption
              · extract_lets -merge -useContext -underBinder +onlyGivenNames k3
                extract_lets -merge -useContext -underBinder +onlyGivenNames x4i0 x4i1 x4
                have hx4 : P x4 := by
                  unfold x4
                  refine keeps_ite ?_ ?_
                  · refine S.congr (d := d) ?_ rfl rfl rfl
                    assumption
                  · refine S.congr (d := d) ?_ rfl rfl rfl
                    assumption
                refine (Device.respond_keeps S) ?_
                refine (Device.log_keeps S) ?_
                exact hx4

theorem calReadEff_keeps {P : Device → Prop} (S : Stable P) {copy offset length d} (hc : P d) : P (calReadEff copy offset length d) := by
  delta calReadEff
  refine (Device.servedNR_keeps S) ?_ ?_
  · assumption
  · refine keeps_ite ?_ ?_
    · refine (Device.respond_keeps S) ?_
      assumption
    · refine (Device.respond_keeps S) ?_
      assumption

theorem keyRevokeEff_keeps {P : Device → Prop} (S : OtpStable P) {message signer signature d} (hc : P d) : P (keyRevokeEff message signer signature d) := by
  delta keyRevokeEff
  refine (Device.servedN_keeps S.toStable) ?_ ?_
  · assumption
  · extract_lets -merge -useContext -underBinder +onlyGivenNames k0
    refine keeps_ite ?_ ?_
    · refine (Device.respond_keeps S.toStable) ?_
      assumption
    · refine keeps_ite ?_ ?_
      · refine (Device.respond_keeps S.toStable) ?_
        assumption
      · refine keeps_ite ?_ ?_
        · refine (Device.respond_keeps S.toStable) ?_
          assumption
        · refine keeps_ite ?_ ?_
          · refine (Device.respond_keeps S.toStable) ?_
            assumption
          · refine (Device.respond_keeps S.toStable) ?_
            refine (Device.log_keeps S.toStable) ?_
            refine S.otp (d := d) ?_ rfl rfl
            assumption

theorem actSyncEff_keeps {P : Device → Prop} (S : Stable P) {d} (hc : P d) : P (actSyncEff d) := by
  delta actSyncEff
  refine keeps_ite ?_ ?_
  · refine (Device.setPP_keeps S) ?_
    refine S.congr (d := d) ?_ rfl rfl rfl
    assumption
  · assumption

theorem actDrainDoneEff_keeps {P : Device → Prop} (S : Stable P) {obs patch d} (hc : P d) : P (actDrainDoneEff obs patch d) := by
  delta actDrainDoneEff
  refine keeps_ite ?_ ?_
  · assumption
  · split
    · refine (Device.setPP_keeps S) ?_
      refine S.congr (d := d) ?_ rfl rfl rfl
      assumption
    · refine keeps_ite ?_ ?_
      · refine (Device.revertPending_keeps S) ?_
        refine (Device.setPP_keeps S) ?_
        refine S.congr (d := d) ?_ rfl rfl rfl
        assumption
      · refine (Device.writeRec_keeps S) ?_
        refine (Device.loadPatch_keeps S) ?_
        refine S.congr (d := d) ?_ rfl rfl rfl
        assumption

theorem actDrainTimeoutEff_keeps {P : Device → Prop} (S : Stable P) {d} (hc : P d) : P (actDrainTimeoutEff d) := by
  delta actDrainTimeoutEff
  refine keeps_ite ?_ ?_
  · refine (Device.log_keeps S) ?_
    refine (Device.setPP_keeps S) ?_
    refine S.congr (d := d) ?_ rfl rfl rfl
    assumption
  · assumption

theorem actSwitchDoneEff_keeps {P : Device → Prop} (S : Stable P) {d} (hc : P d) : P (actSwitchDoneEff d) := by
  delta actSwitchDoneEff
  split
  · extract_lets -merge -useContext -underBinder +onlyGivenNames k0
    extract_lets -merge -useContext -underBinder +onlyGivenNames k1
    extract_lets -merge -useContext -underBinder +onlyGivenNames x2i0 x2
    have hx2 : P x2 := by
      unfold x2
      refine S.congr (d := d) ?_ rfl rfl rfl
      assumption
    extract_lets -merge -useContext -underBinder +onlyGivenNames x3i0 x3
    have hx3 : P x3 := by
      unfold x3
      refine (Device.checkSettings_keeps S) ?_
      refine (Device.writeRec_keeps S) ?_
      exact hx2
    extract_lets -merge -useContext -underBinder +onlyGivenNames x4
    have hx4 : P x4 := by
      unfold x4
      refine (Device.wr_keeps S) ?_
      refine (Device.wr_keeps S) ?_
      refine (Device.wr_keeps S) ?_
      refine (Device.wr_keeps S) ?_
      exact hx3
    refine (Device.log_keeps S) ?_
    refine (Device.setPP_keeps S) ?_
    exact hx4
  · assumption

theorem actWindowExpireEff_keeps {P : Device → Prop} (S : Stable P) {d} (hc : P d) : P (actWindowExpireEff d) := by
  delta actWindowExpireEff
  refine keeps_ite ?_ ?_
  · refine (Device.log_keeps S) ?_
    refine (Device.writeRec_keeps S) ?_
    assumption
  · assumption

theorem Device.saveProbation_keeps {P : Device → Prop} (S : Stable P) {d} (hc : P d) : P (Device.saveProbation d) := by
  delta Device.saveProbation
  extract_lets -merge -useContext -underBinder +onlyGivenNames k0
  refine (Device.writeRec_keeps S) ?_
  refine S.congr (d := d) ?_ rfl rfl rfl
  assumption

theorem probationTimeoutEff_keeps {P : Device → Prop} (S : MemStable P) {st d} (hc : P d) : P (probationTimeoutEff st d) := by
  delta probationTimeoutEff
  refine keeps_ite ?_ ?_
  · refine (Device.deviceReset_keeps S) ?_
    refine (Device.saveProbation_keeps S.toStable) ?_
    assumption
  · assumption

theorem bootConfirmEff_keeps {P : Device → Prop} (S : OtpStable P) {fuseOk d} (hc : P d) : P (bootConfirmEff fuseOk d) := by
  delta bootConfirmEff
  split
  · extract_lets -merge -useContext -underBinder +onlyGivenNames k0
    extract_lets -merge -useContext -underBinder +onlyGivenNames x1i0 x1
    have hx1 : P x1 := by
      unfold x1
      refine (Device.writeRec_keeps S.toStable) ?_
      assumption
    extract_lets -merge -useContext -underBinder +onlyGivenNames x2
    have hx2 : P x2 := by
      unfold x2
      refine (Device.wr_keeps S.toStable) ?_
      refine (Device.wr_keeps S.toStable) ?_
      exact hx1
    refine keeps_ite ?_ ?_
    · refine keeps_ite ?_ ?_
      · extract_lets -merge -useContext -underBinder +onlyGivenNames x3i0 x3
        have hx3 : P x3 := by
          unfold x3
          exact S.otp hx2 rfl rfl
        refine (Device.log_keeps S.toStable) ?_
        refine (Device.wr_keeps S.toStable) ?_
        exact hx3
      · refine (Device.log_keeps S.toStable) ?_
        exact hx2
    · exact hx2
  · assumption

theorem execSolindUpdBegin_keeps {P : Device → Prop} (S : Stable P) {a0 a1 s t} (hc : P s.dev) (he : execSolindUpdBegin a0 a1 s = .next t) : P t.dev := by
  delta execSolindUpdBegin at he
  refine State.upd_keeps hc he ?_
  intro d hd
  show P _
  refine (updBeginEff_keeps S) ?_
  assumption

theorem execSolindUpdChunk_keeps {P : Device → Prop} (S : Stable P) {a0 a1 a2 s t} (hc : P s.dev) (he : execSolindUpdChunk a0 a1 a2 s = .next t) : P t.dev := by
  delta execSolindUpdChunk at he
  refine State.upd_keeps hc he ?_
  intro d hd
  show P _
  refine (updChunkEff_keeps S) ?_
  assumption

theorem execSolindUpdVerify_keeps {P : Device → Prop} (S : Stable P) {s t} (hc : P s.dev) (he : execSolindUpdVerify s = .next t) : P t.dev := by
  delta execSolindUpdVerify at he
  refine State.upd_keeps hc he ?_
  intro d hd
  show P _
  refine (updVerifyEff_keeps S) ?_
  assumption

theorem execUpdVerifyDone_keeps {P : Device → Prop} (S : Stable P) {a0 s t} (hc : P s.dev) (he : execUpdVerifyDone a0 s = .next t) : P t.dev := by
  delta execUpdVerifyDone at he
  refine State.upd_keeps hc he ?_
  intro d hd
  show P _
  refine (updVerifyDoneEff_keeps S) ?_
  assumption

theorem execSolindUpdCommit_keeps {P : Device → Prop} (S : Stable P) {s t} (hc : P s.dev) (he : execSolindUpdCommit s = .next t) : P t.dev := by
  delta execSolindUpdCommit at he
  refine State.upd_keeps hc he ?_
  intro d hd
  show P _
  refine (updCommitEff_keeps S) ?_
  assumption

theorem execUpdCopyDone_keeps {P : Device → Prop} (S : Stable P) {a0 s t} (hc : P s.dev) (he : execUpdCopyDone a0 s = .next t) : P t.dev := by
  delta execUpdCopyDone at he
  refine State.upd_keeps hc he ?_
  intro d hd
  show P _
  refine (updCopyDoneEff_keeps S) ?_
  assumption

theorem execSolindUpdSchedule_keeps {P : Device → Prop} (S : Stable P) {a0 a1 s t} (hc : P s.dev) (he : execSolindUpdSchedule a0 a1 s = .next t) : P t.dev := by
  delta execSolindUpdSchedule at he
  refine State.upd_keeps hc he ?_
  intro d hd
  show P _
  refine (updScheduleEff_keeps S) ?_
  assumption

theorem execSolindUpdCancel_keeps {P : Device → Prop} (S : Stable P) {s t} (hc : P s.dev) (he : execSolindUpdCancel s = .next t) : P t.dev := by
  delta execSolindUpdCancel at he
  refine State.upd_keeps hc he ?_
  intro d hd
  show P _
  refine (updCancelEff_keeps S) ?_
  assumption

theorem execSolindUpdStatus_keeps {P : Device → Prop} (S : Stable P) {s t} (hc : P s.dev) (he : execSolindUpdStatus s = .next t) : P t.dev := by
  delta execSolindUpdStatus at he
  refine State.upd_keeps hc he ?_
  intro d hd
  show P _
  refine (updStatusEff_keeps S) ?_
  assumption

theorem execSolindCalChunk_keeps {P : Device → Prop} (S : Stable P) {a0 a1 a2 s t} (hc : P s.dev) (he : execSolindCalChunk a0 a1 a2 s = .next t) : P t.dev := by
  delta execSolindCalChunk at he
  refine State.upd_keeps hc he ?_
  intro d hd
  show P _
  refine (calChunkEff_keeps S) ?_
  assumption

theorem execSolindCalCommit_keeps {P : Device → Prop} (S : Stable P) {a0 a1 a2 s t} (hc : P s.dev) (he : execSolindCalCommit a0 a1 a2 s = .next t) : P t.dev := by
  delta execSolindCalCommit at he
  refine State.upd_keeps hc he ?_
  intro d hd
  show P _
  refine (calCommitEff_keeps S) ?_
  assumption

theorem execSolindCalRead_keeps {P : Device → Prop} (S : Stable P) {a0 a1 a2 s t} (hc : P s.dev) (he : execSolindCalRead a0 a1 a2 s = .next t) : P t.dev := by
  delta execSolindCalRead at he
  refine State.upd_keeps hc he ?_
  intro d hd
  show P _
  refine (calReadEff_keeps S) ?_
  assumption

theorem execSolindKeyRevoke_keeps {P : Device → Prop} (S : OtpStable P) {a0 a1 a2 s t} (hc : P s.dev) (he : execSolindKeyRevoke a0 a1 a2 s = .next t) : P t.dev := by
  delta execSolindKeyRevoke at he
  refine State.upd_keeps hc he ?_
  intro d hd
  show P _
  refine (keyRevokeEff_keeps S) ?_
  assumption

theorem execActSyncEdge_keeps {P : Device → Prop} (S : Stable P) {s t} (hc : P s.dev) (he : execActSyncEdge s = .next t) : P t.dev := by
  delta execActSyncEdge at he
  refine State.upd_keeps hc he ?_
  intro d hd
  show P _
  refine (actSyncEff_keeps S) ?_
  assumption

theorem execActivationDrainDone_keeps {P : Device → Prop} (S : Stable P) {a0 a1 s t} (hc : P s.dev) (he : execActivationDrainDone a0 a1 s = .next t) : P t.dev := by
  delta execActivationDrainDone at he
  refine State.upd_keeps hc he ?_
  intro d hd
  show P _
  refine (actDrainDoneEff_keeps S) ?_
  assumption

theorem execActivationDrainTimeout_keeps {P : Device → Prop} (S : Stable P) {s t} (hc : P s.dev) (he : execActivationDrainTimeout s = .next t) : P t.dev := by
  delta execActivationDrainTimeout at he
  refine State.upd_keeps hc he ?_
  intro d hd
  show P _
  refine (actDrainTimeoutEff_keeps S) ?_
  assumption

theorem execActivationSwitchDone_keeps {P : Device → Prop} (S : Stable P) {s t} (hc : P s.dev) (he : execActivationSwitchDone s = .next t) : P t.dev := by
  delta execActivationSwitchDone at he
  refine State.upd_keeps hc he ?_
  intro d hd
  show P _
  refine (actSwitchDoneEff_keeps S) ?_
  assumption

theorem execActivationWindowExpire_keeps {P : Device → Prop} (S : Stable P) {s t} (hc : P s.dev) (he : execActivationWindowExpire s = .next t) : P t.dev := by
  delta execActivationWindowExpire at he
  refine State.upd_keeps hc he ?_
  intro d hd
  show P _
  refine (actWindowExpireEff_keeps S) ?_
  assumption

theorem execProbationSaveTimer_keeps {P : Device → Prop} (S : Stable P) {s t} (hc : P s.dev) (he : execProbationSaveTimer s = .next t) : P t.dev := by
  delta execProbationSaveTimer at he
  refine State.upd_keeps hc he ?_
  intro d hd
  show P _
  refine keeps_ite ?_ ?_
  · refine (Device.saveProbation_keeps S) ?_
    assumption
  · assumption

theorem execProbationTimeout_keeps {P : Device → Prop} (S : MemStable P) {a0 s t} (hc : P s.dev) (he : execProbationTimeout a0 s = .next t) : P t.dev := by
  delta execProbationTimeout at he
  refine State.upd_keeps hc he ?_
  intro d hd
  show P _
  refine (probationTimeoutEff_keeps S) ?_
  assumption

theorem execBootconfConfirm_keeps {P : Device → Prop} (S : OtpStable P) {a0 s t} (hc : P s.dev) (he : execBootconfConfirm a0 s = .next t) : P t.dev := by
  delta execBootconfConfirm at he
  refine State.upd_keeps hc he ?_
  intro d hd
  show P _
  refine (bootConfirmEff_keeps S) ?_
  assumption

end Sys2Proof.Machine
end

