-- ==== Sys2Proof/Laws/KeepRecover.lean ====
section
/-!
SUPPORT. Which of registers, memory and fuses each operation and each command of Machine/Recover.lean writes (Laws/Canon.lean).
-/
namespace Sys2Proof.Machine

theorem storeRecoverEff_keeps {P : Device → Prop} (S : Stable P) {option d} (hc : P d) : P (storeRecoverEff option d) := by
  delta storeRecoverEff
  refine (Device.servedN_keeps S) ?_ ?_
  · assumption
  · refine keeps_ite ?_ ?_
    · refine (Device.respond_keeps S) ?_
      assumption
    · refine keeps_ite ?_ ?_
      · refine (Device.respond_keeps S) ?_
        assumption
      · refine keeps_ite ?_ ?_
        · refine (Device.respond_keeps S) ?_
          assumption
        · refine (Device.respond_keeps S) ?_
          refine (Device.log_keeps S) ?_
          refine (Device.setLong_keeps S) ?_
          assumption

theorem Device.standOn_keeps {P : Device → Prop} (S : Stable P) {d t} (hc : P d) : P (Device.standOn d t) := by
  delta Device.standOn
  extract_lets -merge -useContext -underBinder +onlyGivenNames k0
  extract_lets -merge -useContext -underBinder +onlyGivenNames k1
  extract_lets -merge -useContext -underBinder +onlyGivenNames k2
  extract_lets -merge -useContext -underBinder +onlyGivenNames k3
  refine (Device.updHost_keeps S) ?_
  refine S.congr (d := d) ?_ rfl rfl rfl
  assumption

theorem Device.startOver_keeps {P : Device → Prop} (S : Stable P) {d} (hc : P d) : P (Device.startOver d) := by
  delta Device.startOver
  extract_lets -merge -useContext -underBinder +onlyGivenNames x0
  have hx0 : P x0 := by
    unfold x0
    refine keeps_foldl ?_ ?_
    · intro d' x' hd'
      show P _
      extract_lets -merge -useContext -underBinder +onlyGivenNames x1
      have hx1 : P x1 := by
        unfold x1
        split
        · assumption
        · refine (Device.keyErase_keeps S) ?_
          assumption
      extract_lets -merge -useContext -underBinder +onlyGivenNames k2
      refine (Device.recordEpoch_keeps S) ?_
      exact hx1
    · assumption
  extract_lets -merge -useContext -underBinder +onlyGivenNames k3
  extract_lets -merge -useContext -underBinder +onlyGivenNames x4
  have hx4 : P x4 := by
    unfold x4
    refine (Device.standOn_keeps S) ?_
    exact hx0
  extract_lets -merge -useContext -underBinder +onlyGivenNames x5i0 x5i1 x5i2 x5
  have hx5 : P x5 := by
    unfold x5
    exact S.congr hx4 rfl rfl rfl
  refine (Device.updHost_keeps S) ?_
  refine (Device.recordEpoch_keeps S) ?_
  exact hx5

theorem storeRecoverDoneEff_keeps {P : Device → Prop} (S : Stable P) {o d} (hc : P d) : P (storeRecoverDoneEff o d) := by
  delta storeRecoverDoneEff
  split
  · extract_lets -merge -useContext -underBinder +onlyGivenNames x0
    have hx0 : P x0 := by
      unfold x0
      refine (Device.setLong_keeps S) ?_
      assumption
    extract_lets -merge -useContext -underBinder +onlyGivenNames x1
    have hx1 : P x1 := by
      unfold x1
      refine keeps_ite ?_ ?_
      · refine (Device.standOn_keeps S) ?_
        exact hx0
      · refine (Device.startOver_keeps S) ?_
        exact hx0
    extract_lets -merge -useContext -underBinder +onlyGivenNames x2
    have hx2 : P x2 := by
      unfold x2
      refine keeps_foldl ?_ ?_
      · intro d' x' hd'
        show P _
        refine (Device.updCtrl_keeps S) ?_
        assumption
      · exact hx1
    refine (Device.log_keeps S) ?_
    refine (Device.wr_keeps S) ?_
    exact hx2
  · assumption

theorem execSolindStoreRecover_keeps {P : Device → Prop} (S : Stable P) {a0 s t} (hc : P s.dev) (he : execSolindStoreRecover a0 s = .next t) : P t.dev := by
  delta execSolindStoreRecover at he
  refine State.upd_keeps hc he ?_
  intro d hd
  show P _
  refine (storeRecoverEff_keeps S) ?_
  assumption

theorem execStoreRecoverDone_keeps {P : Device → Prop} (S : Stable P) {a0 s t} (hc : P s.dev) (he : execStoreRecoverDone a0 s = .next t) : P t.dev := by
  delta execStoreRecoverDone at he
  refine State.upd_keeps hc he ?_
  intro d hd
  show P _
  refine (storeRecoverDoneEff_keeps S) ?_
  assumption

end Sys2Proof.Machine
end

