-- ==== Sys2Proof/Laws/KeepRegisters.lean ====
section
/-!
SUPPORT. Which of registers, memory and fuses each operation and each command of Machine/Registers.lean writes (Laws/Canon.lean).
-/
namespace Sys2Proof.Machine

theorem Device.plainWrite_keeps {P : Device → Prop} (S : Stable P) {d a v} (hc : P d) : P (Device.plainWrite d a v) := by
  delta Device.plainWrite
  split
  · assumption
  · refine S.setWord _ _ ?_
    assumption

theorem Device.partWrite_keeps {P : Device → Prop} (S : Stable P) {d a v mask} (hc : P d) : P (Device.partWrite d a v mask) := by
  delta Device.partWrite
  refine S.setWord _ _ ?_
  assumption

theorem Device.cacheWrite_keeps {P : Device → Prop} (S : Stable P) {d c o v} (hc : P d) : P (Device.cacheWrite d c o v) := by
  delta Device.cacheWrite
  refine keeps_ite ?_ ?_
  · refine (l2EnWriteEff_keeps S) ?_
    assumption
  · refine keeps_ite ?_ ?_
    · refine keeps_ite ?_ ?_
      · refine (Device.partWrite_keeps S) ?_
        assumption
      · refine (Device.postOp_keeps S) ?_
        assumption
    · refine (Device.plainWrite_keeps S) ?_
      assumption

theorem Device.hostWrite_keeps {P : Device → Prop} (S : Stable P) {d o v} (hc : P d) : P (Device.hostWrite d o v) := by
  delta Device.hostWrite
  refine keeps_ite ?_ ?_
  · refine (Device.cacheWrite_keeps S) ?_
    assumption
  · refine (Device.plainWrite_keeps S) ?_
    assumption

theorem Device.memWrite_keeps {P : Device → Prop} (S : Stable P) {d o v} (hc : P d) : P (Device.memWrite d o v) := by
  delta Device.memWrite
  refine keeps_ite ?_ ?_
  · refine (poolResWriteEff_keeps S) ?_
    assumption
  · refine keeps_ite ?_ ?_
    · refine (Device.cacheWrite_keeps S) ?_
      assumption
    · refine keeps_ite ?_ ?_
      · refine (Device.cacheWrite_keeps S) ?_
        assumption
      · refine (Device.plainWrite_keeps S) ?_
        assumption

theorem Device.chRegWrite_keeps {P : Device → Prop} (S : Stable P) {d l a o v} (hc : P d) : P (Device.chRegWrite d l a o v) := by
  delta Device.chRegWrite
  split
  · assumption
  · refine keeps_ite ?_ ?_
    · extract_lets -merge -useContext -underBinder +onlyGivenNames k0
      extract_lets -merge -useContext -underBinder +onlyGivenNames k1
      extract_lets -merge -useContext -underBinder +onlyGivenNames x2
      have hx2 : P x2 := by
        unfold x2
        refine (Device.updCh_keeps S) ?_
        assumption
      refine keeps_ite ?_ ?_
      · refine (Device.wr_keeps S) ?_
        exact hx2
      · exact hx2
    · refine (Device.setChReg_keeps S) ?_
      assumption

theorem Device.beWrite_keeps {P : Device → Prop} (S : Stable P) {d e o v} (hc : P d) : P (Device.beWrite d e o v) := by
  delta Device.beWrite
  extract_lets -merge -useContext -underBinder +onlyGivenNames k0
  extract_lets -merge -useContext -underBinder +onlyGivenNames k1
  refine keeps_ite ?_ ?_
  · extract_lets -merge -useContext -underBinder +onlyGivenNames x2
    have hx2 : P x2 := by
      unfold x2
      refine (beRunEff_keeps S) ?_
      assumption
    refine keeps_ite ?_ ?_
    · refine (beSwapEff_keeps S) ?_
      exact hx2
    · exact hx2
  · refine keeps_ite ?_ ?_
    · refine keeps_ite ?_ ?_
      · refine (Device.plainWrite_keeps S) ?_
        assumption
      · assumption
    · refine keeps_ite ?_ ?_
      · refine keeps_ite ?_ ?_
        · assumption
        · refine (Device.plainWrite_keeps S) ?_
          assumption
      · refine keeps_ite ?_ ?_
        · refine keeps_ite ?_ ?_
          · assumption
          · refine (Device.plainWrite_keeps S) ?_
            assumption
        · refine keeps_ite ?_ ?_
          · refine keeps_ite ?_ ?_
            · assumption
            · refine (Device.plainWrite_keeps S) ?_
              assumption
          · refine (Device.plainWrite_keeps S) ?_
            assumption

theorem Device.svCtrlWrite_keeps {P : Device → Prop} (S : Stable P) {d l v} (hc : P d) : P (Device.svCtrlWrite d l v) := by
  delta Device.svCtrlWrite
  extract_lets -merge -useContext -underBinder +onlyGivenNames k0
  extract_lets -merge -useContext -underBinder +onlyGivenNames x1
  have hx1 : P x1 := by
    unfold x1
    refine keeps_ite ?_ ?_
    · assumption
    · refine (svEnEff_keeps S) ?_
      assumption
  extract_lets -merge -useContext -underBinder +onlyGivenNames x2
  have hx2 : P x2 := by
    unfold x2
    refine (svCalEff_keeps S) ?_
    exact hx1
  split
  · refine (svLoadEff_keeps S) ?_
    exact hx2
  · refine (svSeekEff_keeps S) ?_
    exact hx2
  · refine (svUnloadEff_keeps S) ?_
    exact hx2
  · refine (Device.emergencyRetract_keeps S) ?_
    exact hx2
  · exact hx2

theorem Device.svWrite_keeps {P : Device → Prop} (S : Stable P) {d l a o v} (hc : P d) : P (Device.svWrite d l a o v) := by
  delta Device.svWrite
  refine keeps_ite ?_ ?_
  · refine (Device.svCtrlWrite_keeps S) ?_
    assumption
  · refine keeps_ite ?_ ?_
    · refine (svTargetEff_keeps S) ?_
      assumption
    · refine keeps_ite ?_ ?_
      · refine (psEnEff_keeps S) ?_
        assumption
      · refine keeps_ite ?_ ?_
        · refine (psCfgEff_keeps S) ?_
          assumption
        · refine (Device.plainWrite_keeps S) ?_
          assumption

theorem Device.channelWrite_keeps {P : Device → Prop} (S : Stable P) {d l a o v} (hc : P d) : P (Device.channelWrite d l a o v) := by
  delta Device.channelWrite
  extract_lets -merge -useContext -underBinder +onlyGivenNames k0
  refine keeps_ite ?_ ?_
  · refine (Device.chRegWrite_keeps S) ?_
    assumption
  · refine keeps_ite ?_ ?_
    · extract_lets -merge -useContext -underBinder +onlyGivenNames x1
      have hx1 : P x1 := by
        unfold x1
        refine (Device.plainWrite_keeps S) ?_
        assumption
      refine keeps_ite ?_ ?_
      · refine (chStopEff_keeps S) ?_
        exact hx1
      · exact hx1
    · refine keeps_ite ?_ ?_
      · refine keeps_ite ?_ ?_
        · refine (hzselLoadEff_keeps S) ?_
          assumption
        · refine (Device.recheckGate_keeps S) ?_
          refine (Device.plainWrite_keeps S) ?_
          assumption
      · refine keeps_ite ?_ ?_
        · refine keeps_ite ?_ ?_
          · assumption
          · refine keeps_ite ?_ ?_
            · refine (stripeStartEff_keeps S) ?_
              assumption
            · refine (Device.plainWrite_keeps S) ?_
              assumption
        · refine keeps_ite ?_ ?_
          · refine keeps_ite ?_ ?_
            · refine (retrainEff_keeps S) ?_
              assumption
            · assumption
          · refine keeps_ite ?_ ?_
            · refine (forceWriteEff_keeps S) ?_
              refine (Device.partWrite_keeps S) ?_
              assumption
            · refine (Device.plainWrite_keeps S) ?_
              assumption

theorem Device.wpathWrite_keeps {P : Device → Prop} (S : Stable P) {d l a o v} (hc : P d) : P (Device.wpathWrite d l a o v) := by
  delta Device.wpathWrite
  extract_lets -merge -useContext -underBinder +onlyGivenNames k0
  refine keeps_ite ?_ ?_
  · refine keeps_ite ?_ ?_
    · refine (wselLoadEff_keeps S) ?_
      assumption
    · refine (Device.recheckGate_keeps S) ?_
      refine (Device.plainWrite_keeps S) ?_
      assumption
  · refine keeps_ite ?_ ?_
    · refine (wgInhEff_keeps S) ?_
      assumption
    · refine keeps_ite ?_ ?_
      · refine (paEnEff_keeps S) ?_
        assumption
      · refine keeps_ite ?_ ?_
        · refine (paCmdEff_keeps S) ?_
          assumption
        · refine (Device.recheckGate_keeps S) ?_
          refine (Device.plainWrite_keeps S) ?_
          assumption

theorem Device.ecCtrlWrite_keeps {P : Device → Prop} (S : Stable P) {d q v} (hc : P d) : P (Device.ecCtrlWrite d q v) := by
  delta Device.ecCtrlWrite
  extract_lets -merge -useContext -underBinder +onlyGivenNames x0
  have hx0 : P x0 := by
    unfold x0
    refine (ecEnEff_keeps S) ?_
    assumption
  extract_lets -merge -useContext -underBinder +onlyGivenNames x1
  have hx1 : P x1 := by
    unfold x1
    refine keeps_ite ?_ ?_
    · refine (ecRestartEff_keeps S) ?_
      exact hx0
    · exact hx0
  extract_lets -merge -useContext -underBinder +onlyGivenNames x2
  have hx2 : P x2 := by
    unfold x2
    refine keeps_ite ?_ ?_
    · refine (ecFlushEff_keeps S) ?_
      exact hx1
    · exact hx1
  refine keeps_ite ?_ ?_
  · refine (ecAbortEff_keeps S) ?_
    exact hx2
  · exact hx2

theorem Device.ecWrite_keeps {P : Device → Prop} (S : Stable P) {d who q a o v} (e) (he : Device.ecWrite d who q a o v = some e) (hc : P d) : P e := by
  unfold Device.ecWrite at he
  split at he
  · cases he; exact Device.ecCtrlWrite_keeps S hc
  · split at he
    · cases he; exact keeps_ite (postGoEff_keeps S hc) hc
    · split at he
      · split at he
        · cases he; exact S.setWord _ _ hc
        · cases he
      · split at he
        · split at he
          · cases he; exact Device.updEc_keeps S hc
          · cases he
        · cases he; exact Device.plainWrite_keeps S hc

theorem Device.laneWrite_keeps {P : Device → Prop} (S : Stable P) {d who l a o v} (e) (he : Device.laneWrite d who l a o v = some e) (hc : P d) : P e := by
  unfold Device.laneWrite at he
  split at he
  · exact Device.ecWrite_keeps S e he hc
  · split at he
    · cases he; exact Device.channelWrite_keeps S hc
    · split at he
      · cases he; exact Device.wpathWrite_keeps S hc
      · split at he
        · cases he; exact Device.beWrite_keeps S hc
        · cases he; exact Device.svWrite_keeps S hc

theorem Device.spindleWrite_keeps {P : Device → Prop} (S : Stable P) {d o v} (hc : P d) : P (Device.spindleWrite d o v) := by
  delta Device.spindleWrite
  extract_lets -merge -useContext -underBinder +onlyGivenNames k0
  refine keeps_ite ?_ ?_
  · refine (Device.beWrite_keeps S) ?_
    assumption
  · refine keeps_ite ?_ ?_
    · extract_lets -merge -useContext -underBinder +onlyGivenNames k1
      extract_lets -merge -useContext -underBinder +onlyGivenNames x2
      have hx2 : P x2 := by
        unfold x2
        refine (Device.partWrite_keeps S) ?_
        refine keeps_ite ?_ ?_
        · assumption
        · refine (spEnEff_keeps S) ?_
          assumption
      split
      · refine (spStartEff_keeps S) ?_
        exact hx2
      · refine (spStopEff_keeps S) ?_
        exact hx2
      · refine (spCoastEff_keeps S) ?_
        exact hx2
      · refine (spClearEff_keeps S) ?_
        exact hx2
      · exact hx2
    · refine keeps_ite ?_ ?_
      · extract_lets -merge -useContext -underBinder +onlyGivenNames k3
        extract_lets -merge -useContext -underBinder +onlyGivenNames k4
        refine keeps_ite ?_ ?_
        · refine (Device.plainWrite_keeps S) ?_
          assumption
        · assumption
      · refine keeps_ite ?_ ?_
        · refine keeps_ite ?_ ?_
          · refine (Device.plainWrite_keeps S) ?_
            assumption
          · assumption
        · refine keeps_ite ?_ ?_
          · extract_lets -merge -useContext -underBinder +onlyGivenNames p5
            refine (chopTestEff_keeps S) ?_
            refine (Device.takeFree_keeps S) ?_
            refine (Device.plainWrite_keeps S) ?_
            assumption
          · refine (Device.plainWrite_keeps S) ?_
            assumption

theorem Device.kcmdWrite_keeps {P : Device → Prop} (S : MemStable P) {d v} (hc : P d) : P (Device.kcmdWrite d v) := by
  delta Device.kcmdWrite
  extract_lets -merge -useContext -underBinder +onlyGivenNames k0
  split
  · refine (Device.keyDone_keeps S.toStable) ?_
    refine (Device.keyLoad_keeps S.toStable) ?_
    assumption
  · split
    rename_i v' d' heq'
    have hd' : P d' := by
      show P (v', d').2
      rw [← heq']
      refine (Device.takeFree_keeps S.toStable) ?_
      assumption
    split
    rename_i v' d' heq'
    have hd' : P d' := by
      show P (v', d').2
      rw [← heq']
      refine (Device.takeFree_keeps S.toStable) ?_
      assumption
    split
    rename_i v' d' heq'
    have hd' : P d' := by
      show P (v', d').2
      rw [← heq']
      refine (Device.takeFree_keeps S.toStable) ?_
      assumption
    refine (Device.keyDone_keeps S.toStable) ?_
    refine (Device.keyGenerate_keeps S) ?_
    assumption
  · refine (Device.keyDone_keeps S.toStable) ?_
    refine (Device.keyErase_keeps S.toStable) ?_
    assumption
  · split
    rename_i v' d' heq'
    have hd' : P d' := by
      show P (v', d').2
      rw [← heq']
      refine (Device.takeFree_keeps S.toStable) ?_
      assumption
    refine (Device.keyDone_keeps S.toStable) ?_
    refine (Device.keyMap_keeps S.toStable) ?_
    assumption
  · refine (Device.plainWrite_keeps S.toStable) ?_
    assumption

theorem Device.cipherWrite_keeps {P : Device → Prop} (S : MemStable P) {d who o v} (hc : P d) : P (Device.cipherWrite d who o v) := by
  delta Device.cipherWrite
  extract_lets -merge -useContext -underBinder +onlyGivenNames k0
  refine keeps_ite ?_ ?_
  · refine (cxEnWriteEff_keeps S.toStable) ?_
    assumption
  · refine keeps_ite ?_ ?_
    · refine keeps_ite ?_ ?_
      · refine (cipherPostEff_keeps S.toStable) ?_
        assumption
      · assumption
    · refine keeps_ite ?_ ?_
      · refine keeps_ite ?_ ?_
        · refine (cipherPostEff_keeps S.toStable) ?_
          assumption
        · assumption
      · refine keeps_ite ?_ ?_
        · refine (Device.kcmdWrite_keeps S) ?_
          assumption
        · refine (Device.plainWrite_keeps S.toStable) ?_
          assumption

theorem Device.postStaged_keeps {P : Device → Prop} (S : Stable P) {d who} (hc : P d) : P (Device.postStaged d who) := by
  delta Device.postStaged
  extract_lets -merge -useContext -underBinder +onlyGivenNames k0
  extract_lets -merge -useContext -underBinder +onlyGivenNames k1
  extract_lets -merge -useContext -underBinder +onlyGivenNames k2
  refine keeps_ite ?_ ?_
  · refine (Device.logRate_keeps S) ?_
    assumption
  · refine (Device.logRaw_keeps S) ?_
    assumption

theorem Device.regulatorWrite_keeps {P : Device → Prop} (S : OtpStable P) {d who o v} (hc : P d) : P (Device.regulatorWrite d who o v) := by
  delta Device.regulatorWrite
  extract_lets -merge -useContext -underBinder +onlyGivenNames k0
  extract_lets -merge -useContext -underBinder +onlyGivenNames k1
  refine keeps_ite ?_ ?_
  · refine (thctrlForceEff_keeps S.toStable) ?_
    assumption
  · refine keeps_ite ?_ ?_
    · refine (calreqGoEff_keeps S.toStable) ?_
      assumption
    · refine keeps_ite ?_ ?_
      · refine keeps_ite ?_ ?_
        · refine (calDoneEff_keeps S.toStable) ?_
          assumption
        · assumption
      · refine keeps_ite ?_ ?_
        · extract_lets -merge -useContext -underBinder +onlyGivenNames k2
          refine keeps_ite ?_ ?_
          · refine keeps_ite ?_ ?_
            · refine (Device.postStaged_keeps S.toStable) ?_
              assumption
            · assumption
          · refine S.congr (d := d) ?_ rfl rfl rfl
            assumption
        · refine keeps_ite ?_ ?_
          · refine (targetWriteEff_keeps S.toStable) ?_
            assumption
          · refine keeps_ite ?_ ?_
            · refine keeps_ite ?_ ?_
              · extract_lets -merge -useContext -underBinder +onlyGivenNames p3
                refine (bootConfirmEff_keeps S) ?_
                refine (Device.takeFree_keeps S.toStable) ?_
                assumption
              · assumption
            · refine (Device.plainWrite_keeps S.toStable) ?_
              assumption

theorem Device.calibreWrite_keeps {P : Device → Prop} (S : Stable P) {d who o v} (hc : P d) : P (Device.calibreWrite d who o v) := by
  delta Device.calibreWrite
  extract_lets -merge -useContext -underBinder +onlyGivenNames k0
  refine keeps_ite ?_ ?_
  · refine (cbLockEff_keeps S) ?_
    assumption
  · split
    · assumption
    · refine S.setWord _ _ ?_
      assumption

theorem Device.regWrite_keeps {P : Device → Prop} (S : FullStable P) {d who a v} (e) (he : Device.regWrite d who a v = some e) (hc : P d) : P e := by
  unfold Device.regWrite at he
  split at he
  · cases he
  · split at he
    · rw [← Option.some.inj he]; exact hc
    · split at he
      · exact Device.laneWrite_keeps S.toStable e he hc
      · split at he
        · rw [← Option.some.inj he]; exact Device.hostWrite_keeps S.toStable hc
        · split at he
          · rw [← Option.some.inj he]; exact Device.memWrite_keeps S.toStable hc
          · split at he
            · rw [← Option.some.inj he]; exact Device.spindleWrite_keeps S.toStable hc
            · split at he
              · rw [← Option.some.inj he]; exact Device.cipherWrite_keeps S.toMemStable hc
              · split at he
                · rw [← Option.some.inj he]; exact hc
                · split at he
                  · rw [← Option.some.inj he]; exact Device.regulatorWrite_keeps S.toOtp hc
                  · rw [← Option.some.inj he]; exact Device.calibreWrite_keeps S.toStable hc

theorem registerWriteEff_keeps {P : Device → Prop} (S : FullStable P) {who a size v d} (hc : P d) : P (registerWriteEff who a size v d) := by
  delta registerWriteEff
  refine keeps_ite ?_ ?_
  · assumption
  · refine keeps_ite ?_ ?_
    · refine (Device.emit_keeps S.toStable) ?_
      assumption
    · refine keeps_ite ?_ ?_
      · assumption
      · refine keeps_ite ?_ ?_
        · refine (Device.emit_keeps S.toStable) ?_
          assumption
        · split
          · refine (Device.emit_keeps S.toStable) ?_
            assumption
          · rename_i d' heq'
            have hd' : P d' := by
              refine (Device.regWrite_keeps S) d' heq' ?_
              assumption
            refine (Device.emit_keeps S.toStable) ?_
            assumption

theorem Device.readEffect_keeps {P : Device → Prop} (S : Stable P) {d who a} (hc : P d) : P (Device.readEffect d who a) := by
  delta Device.readEffect
  split
  · assumption
  · extract_lets -merge -useContext -underBinder +onlyGivenNames x0
    have hx0 : P x0 := by
      unfold x0
      refine keeps_ite ?_ ?_
      · assumption
      · refine S.setWord _ _ ?_
        assumption
    refine keeps_ite ?_ ?_
    · exact S.congr hx0 rfl rfl rfl
    · refine keeps_ite ?_ ?_
      · exact S.congr hx0 rfl rfl rfl
      · refine keeps_ite ?_ ?_
        · refine (Device.updHost_keeps S) ?_
          exact hx0
        · refine keeps_ite ?_ ?_
          · exact S.congr hx0 rfl rfl rfl
          · exact hx0

theorem Device.regRead_keeps {P : Device → Prop} (S : Stable P) {d who a} (hc : P d) : P (Device.regRead d who a) := by
  delta Device.regRead
  refine keeps_ite ?_ ?_
  · refine (Device.emit_keeps S) ?_
    assumption
  · refine keeps_ite ?_ ?_
    · refine (Device.emit_keeps S) ?_
      assumption
    · refine keeps_ite ?_ ?_
      · refine (jtagAccessEff_keeps S) ?_
        assumption
      · refine keeps_ite ?_ ?_
        · refine (storeSeqlEff_keeps S) ?_
          assumption
        · refine keeps_ite ?_ ?_
          · refine (cxCplPopEff_keeps S) ?_
            assumption
          · refine keeps_ite ?_ ?_
            · refine (cxCplPopEff_keeps S) ?_
              assumption
            · split
              · split
                · refine (ecCplPopEff_keeps S) ?_
                  assumption
                · refine (Device.emit_keeps S) ?_
                  refine (Device.readEffect_keeps S) ?_
                  assumption
              · refine (Device.emit_keeps S) ?_
                refine (Device.readEffect_keeps S) ?_
                assumption

theorem registerReadEff_keeps {P : Device → Prop} (S : Stable P) {who a size d} (hc : P d) : P (registerReadEff who a size d) := by
  delta registerReadEff
  refine keeps_ite ?_ ?_
  · assumption
  · refine keeps_ite ?_ ?_
    · refine (Device.emit_keeps S) ?_
      assumption
    · refine keeps_ite ?_ ?_
      · assumption
      · refine keeps_ite ?_ ?_
        · refine (Device.emit_keeps S) ?_
          assumption
        · refine (Device.regRead_keeps S) ?_
          assumption

theorem execRegisterWrite_keeps {P : Device → Prop} (S : FullStable P) {a0 a1 a2 a3 s t} (hc : P s.dev) (he : execRegisterWrite a0 a1 a2 a3 s = .next t) : P t.dev := by
  delta execRegisterWrite at he
  refine State.upd_keeps hc he ?_
  intro d hd
  show P _
  refine (registerWriteEff_keeps S) ?_
  assumption

theorem execRcRegisterRead_keeps {P : Device → Prop} (S : Stable P) {a0 a1 a2 s t} (hc : P s.dev) (he : execRcRegisterRead a0 a1 a2 s = .next t) : P t.dev := by
  delta execRcRegisterRead at he
  refine State.upd_keeps hc he ?_
  intro d hd
  show P _
  refine (registerReadEff_keeps S) ?_
  assumption

end Sys2Proof.Machine
end

