-- ==== Sys2Proof/Laws/State.lean ====
section
/-!
SUPPORT. One lemma for each field of the device under each update: the update's own field, and every other as before. No later proof unfolds a record
update.
-/
namespace Sys2Proof.Machine

@[simp] theorem State.upd_eq (s : State) (f : Device → Device) : s.upd f = .next { s with dev := f s.dev } := rfl

/-! ### setWord -/

@[simp] theorem Device.setWord_mem (d : Device) (a : Nat) (w : BitVec 32) : (d.setWord a w).mem = d.mem := rfl

@[simp] theorem Device.setWord_fabric (d : Device) (a : Nat) (w : BitVec 32) : (d.setWord a w).fabric = d.fabric := rfl

@[simp] theorem Device.setWord_pool (d : Device) (a : Nat) (w : BitVec 32) : (d.setWord a w).pool = d.pool := rfl

@[simp] theorem Device.setWord_hostL2 (d : Device) (a : Nat) (w : BitVec 32) : (d.setWord a w).hostL2 = d.hostL2 := rfl

@[simp] theorem Device.setWord_mediaL2a (d : Device) (a : Nat) (w : BitVec 32) : (d.setWord a w).mediaL2a = d.mediaL2a := rfl

@[simp] theorem Device.setWord_mediaL2b (d : Device) (a : Nat) (w : BitVec 32) : (d.setWord a w).mediaL2b = d.mediaL2b := rfl

@[simp] theorem Device.setWord_cipher (d : Device) (a : Nat) (w : BitVec 32) : (d.setWord a w).cipher = d.cipher := rfl

@[simp] theorem Device.setWord_keys (d : Device) (a : Nat) (w : BitVec 32) : (d.setWord a w).keys = d.keys := rfl

@[simp] theorem Device.setWord_power (d : Device) (a : Nat) (w : BitVec 32) : (d.setWord a w).power = d.power := rfl

@[simp] theorem Device.setWord_chron (d : Device) (a : Nat) (w : BitVec 32) : (d.setWord a w).chron = d.chron := rfl

@[simp] theorem Device.setWord_meters (d : Device) (a : Nat) (w : BitVec 32) : (d.setWord a w).meters = d.meters := rfl

@[simp] theorem Device.setWord_usage (d : Device) (a : Nat) (w : BitVec 32) : (d.setWord a w).usage = d.usage := rfl

@[simp] theorem Device.setWord_thermal (d : Device) (a : Nat) (w : BitVec 32) : (d.setWord a w).thermal = d.thermal := rfl

@[simp] theorem Device.setWord_thermRec (d : Device) (a : Nat) (w : BitVec 32) : (d.setWord a w).thermRec = d.thermRec := rfl

@[simp] theorem Device.setWord_cal (d : Device) (a : Nat) (w : BitVec 32) : (d.setWord a w).cal = d.cal := rfl

@[simp] theorem Device.setWord_duty (d : Device) (a : Nat) (w : BitVec 32) : (d.setWord a w).duty = d.duty := rfl

@[simp] theorem Device.setWord_logbook (d : Device) (a : Nat) (w : BitVec 32) : (d.setWord a w).logbook = d.logbook := rfl

@[simp] theorem Device.setWord_mirror (d : Device) (a : Nat) (w : BitVec 32) : (d.setWord a w).mirror = d.mirror := rfl

@[simp] theorem Device.setWord_boot (d : Device) (a : Nat) (w : BitVec 32) : (d.setWord a w).boot = d.boot := rfl

@[simp] theorem Device.setWord_crown (d : Device) (a : Nat) (w : BitVec 32) : (d.setWord a w).crown = d.crown := rfl

@[simp] theorem Device.setWord_nor (d : Device) (a : Nat) (w : BitVec 32) : (d.setWord a w).nor = d.nor := rfl

@[simp] theorem Device.setWord_otp (d : Device) (a : Nat) (w : BitVec 32) : (d.setWord a w).otp = d.otp := rfl

@[simp] theorem Device.setWord_aon (d : Device) (a : Nat) (w : BitVec 32) : (d.setWord a w).aon = d.aon := rfl

@[simp] theorem Device.setWord_emret (d : Device) (a : Nat) (w : BitVec 32) : (d.setWord a w).emret = d.emret := rfl

@[simp] theorem Device.setWord_emretCause (d : Device) (a : Nat) (w : BitVec 32) : (d.setWord a w).emretCause = d.emretCause := rfl

@[simp] theorem Device.setWord_critical (d : Device) (a : Nat) (w : BitVec 32) : (d.setWord a w).critical = d.critical := rfl

@[simp] theorem Device.setWord_hnor (d : Device) (a : Nat) (w : BitVec 32) : (d.setWord a w).hnor = d.hnor := rfl

@[simp] theorem Device.setWord_host (d : Device) (a : Nat) (w : BitVec 32) : (d.setWord a w).host = d.host := rfl

@[simp] theorem Device.setWord_medium (d : Device) (a : Nat) (w : BitVec 32) : (d.setWord a w).medium = d.medium := rfl

@[simp] theorem Device.setWord_elk (d : Device) (a : Nat) (w : BitVec 32) : (d.setWord a w).elk = d.elk := rfl

@[simp] theorem Device.setWord_shock1 (d : Device) (a : Nat) (w : BitVec 32) : (d.setWord a w).shock1 = d.shock1 := rfl

@[simp] theorem Device.setWord_shock2 (d : Device) (a : Nat) (w : BitVec 32) : (d.setWord a w).shock2 = d.shock2 := rfl

@[simp] theorem Device.setWord_shockInh (d : Device) (a : Nat) (w : BitVec 32) : (d.setWord a w).shockInh = d.shockInh := rfl

@[simp] theorem Device.setWord_lane0 (d : Device) (a : Nat) (w : BitVec 32) : (d.setWord a w).lane0 = d.lane0 := rfl

@[simp] theorem Device.setWord_lane1 (d : Device) (a : Nat) (w : BitVec 32) : (d.setWord a w).lane1 = d.lane1 := rfl

@[simp] theorem Device.setWord_spin (d : Device) (a : Nat) (w : BitVec 32) : (d.setWord a w).spin = d.spin := rfl

@[simp] theorem Device.setWord_out (d : Device) (a : Nat) (w : BitVec 32) : (d.setWord a w).out = d.out := rfl

@[simp] theorem Device.setWord_fresh (d : Device) (a : Nat) (w : BitVec 32) : (d.setWord a w).fresh = d.fresh := rfl

/-! ### wr -/

@[simp] theorem Device.wr_mem (d : Device) (r : RF) (v : Nat) : (d.wr r v).mem = d.mem := rfl

@[simp] theorem Device.wr_fabric (d : Device) (r : RF) (v : Nat) : (d.wr r v).fabric = d.fabric := rfl

@[simp] theorem Device.wr_pool (d : Device) (r : RF) (v : Nat) : (d.wr r v).pool = d.pool := rfl

@[simp] theorem Device.wr_hostL2 (d : Device) (r : RF) (v : Nat) : (d.wr r v).hostL2 = d.hostL2 := rfl

@[simp] theorem Device.wr_mediaL2a (d : Device) (r : RF) (v : Nat) : (d.wr r v).mediaL2a = d.mediaL2a := rfl

@[simp] theorem Device.wr_mediaL2b (d : Device) (r : RF) (v : Nat) : (d.wr r v).mediaL2b = d.mediaL2b := rfl

@[simp] theorem Device.wr_cipher (d : Device) (r : RF) (v : Nat) : (d.wr r v).cipher = d.cipher := rfl

@[simp] theorem Device.wr_keys (d : Device) (r : RF) (v : Nat) : (d.wr r v).keys = d.keys := rfl

@[simp] theorem Device.wr_power (d : Device) (r : RF) (v : Nat) : (d.wr r v).power = d.power := rfl

@[simp] theorem Device.wr_chron (d : Device) (r : RF) (v : Nat) : (d.wr r v).chron = d.chron := rfl

@[simp] theorem Device.wr_meters (d : Device) (r : RF) (v : Nat) : (d.wr r v).meters = d.meters := rfl

@[simp] theorem Device.wr_usage (d : Device) (r : RF) (v : Nat) : (d.wr r v).usage = d.usage := rfl

@[simp] theorem Device.wr_thermal (d : Device) (r : RF) (v : Nat) : (d.wr r v).thermal = d.thermal := rfl

@[simp] theorem Device.wr_thermRec (d : Device) (r : RF) (v : Nat) : (d.wr r v).thermRec = d.thermRec := rfl

@[simp] theorem Device.wr_cal (d : Device) (r : RF) (v : Nat) : (d.wr r v).cal = d.cal := rfl

@[simp] theorem Device.wr_duty (d : Device) (r : RF) (v : Nat) : (d.wr r v).duty = d.duty := rfl

@[simp] theorem Device.wr_logbook (d : Device) (r : RF) (v : Nat) : (d.wr r v).logbook = d.logbook := rfl

@[simp] theorem Device.wr_mirror (d : Device) (r : RF) (v : Nat) : (d.wr r v).mirror = d.mirror := rfl

@[simp] theorem Device.wr_boot (d : Device) (r : RF) (v : Nat) : (d.wr r v).boot = d.boot := rfl

@[simp] theorem Device.wr_crown (d : Device) (r : RF) (v : Nat) : (d.wr r v).crown = d.crown := rfl

@[simp] theorem Device.wr_nor (d : Device) (r : RF) (v : Nat) : (d.wr r v).nor = d.nor := rfl

@[simp] theorem Device.wr_otp (d : Device) (r : RF) (v : Nat) : (d.wr r v).otp = d.otp := rfl

@[simp] theorem Device.wr_aon (d : Device) (r : RF) (v : Nat) : (d.wr r v).aon = d.aon := rfl

@[simp] theorem Device.wr_emret (d : Device) (r : RF) (v : Nat) : (d.wr r v).emret = d.emret := rfl

@[simp] theorem Device.wr_emretCause (d : Device) (r : RF) (v : Nat) : (d.wr r v).emretCause = d.emretCause := rfl

@[simp] theorem Device.wr_critical (d : Device) (r : RF) (v : Nat) : (d.wr r v).critical = d.critical := rfl

@[simp] theorem Device.wr_hnor (d : Device) (r : RF) (v : Nat) : (d.wr r v).hnor = d.hnor := rfl

@[simp] theorem Device.wr_host (d : Device) (r : RF) (v : Nat) : (d.wr r v).host = d.host := rfl

@[simp] theorem Device.wr_medium (d : Device) (r : RF) (v : Nat) : (d.wr r v).medium = d.medium := rfl

@[simp] theorem Device.wr_elk (d : Device) (r : RF) (v : Nat) : (d.wr r v).elk = d.elk := rfl

@[simp] theorem Device.wr_shock1 (d : Device) (r : RF) (v : Nat) : (d.wr r v).shock1 = d.shock1 := rfl

@[simp] theorem Device.wr_shock2 (d : Device) (r : RF) (v : Nat) : (d.wr r v).shock2 = d.shock2 := rfl

@[simp] theorem Device.wr_shockInh (d : Device) (r : RF) (v : Nat) : (d.wr r v).shockInh = d.shockInh := rfl

@[simp] theorem Device.wr_lane0 (d : Device) (r : RF) (v : Nat) : (d.wr r v).lane0 = d.lane0 := rfl

@[simp] theorem Device.wr_lane1 (d : Device) (r : RF) (v : Nat) : (d.wr r v).lane1 = d.lane1 := rfl

@[simp] theorem Device.wr_spin (d : Device) (r : RF) (v : Nat) : (d.wr r v).spin = d.spin := rfl

@[simp] theorem Device.wr_out (d : Device) (r : RF) (v : Nat) : (d.wr r v).out = d.out := rfl

@[simp] theorem Device.wr_fresh (d : Device) (r : RF) (v : Nat) : (d.wr r v).fresh = d.fresh := rfl

/-! ### wrI -/

@[simp] theorem Device.wrI_mem (d : Device) (r : RF) (v : Int) : (d.wrI r v).mem = d.mem := rfl

@[simp] theorem Device.wrI_fabric (d : Device) (r : RF) (v : Int) : (d.wrI r v).fabric = d.fabric := rfl

@[simp] theorem Device.wrI_pool (d : Device) (r : RF) (v : Int) : (d.wrI r v).pool = d.pool := rfl

@[simp] theorem Device.wrI_hostL2 (d : Device) (r : RF) (v : Int) : (d.wrI r v).hostL2 = d.hostL2 := rfl

@[simp] theorem Device.wrI_mediaL2a (d : Device) (r : RF) (v : Int) : (d.wrI r v).mediaL2a = d.mediaL2a := rfl

@[simp] theorem Device.wrI_mediaL2b (d : Device) (r : RF) (v : Int) : (d.wrI r v).mediaL2b = d.mediaL2b := rfl

@[simp] theorem Device.wrI_cipher (d : Device) (r : RF) (v : Int) : (d.wrI r v).cipher = d.cipher := rfl

@[simp] theorem Device.wrI_keys (d : Device) (r : RF) (v : Int) : (d.wrI r v).keys = d.keys := rfl

@[simp] theorem Device.wrI_power (d : Device) (r : RF) (v : Int) : (d.wrI r v).power = d.power := rfl

@[simp] theorem Device.wrI_chron (d : Device) (r : RF) (v : Int) : (d.wrI r v).chron = d.chron := rfl

@[simp] theorem Device.wrI_meters (d : Device) (r : RF) (v : Int) : (d.wrI r v).meters = d.meters := rfl

@[simp] theorem Device.wrI_usage (d : Device) (r : RF) (v : Int) : (d.wrI r v).usage = d.usage := rfl

@[simp] theorem Device.wrI_thermal (d : Device) (r : RF) (v : Int) : (d.wrI r v).thermal = d.thermal := rfl

@[simp] theorem Device.wrI_thermRec (d : Device) (r : RF) (v : Int) : (d.wrI r v).thermRec = d.thermRec := rfl

@[simp] theorem Device.wrI_cal (d : Device) (r : RF) (v : Int) : (d.wrI r v).cal = d.cal := rfl

@[simp] theorem Device.wrI_duty (d : Device) (r : RF) (v : Int) : (d.wrI r v).duty = d.duty := rfl

@[simp] theorem Device.wrI_logbook (d : Device) (r : RF) (v : Int) : (d.wrI r v).logbook = d.logbook := rfl

@[simp] theorem Device.wrI_mirror (d : Device) (r : RF) (v : Int) : (d.wrI r v).mirror = d.mirror := rfl

@[simp] theorem Device.wrI_boot (d : Device) (r : RF) (v : Int) : (d.wrI r v).boot = d.boot := rfl

@[simp] theorem Device.wrI_crown (d : Device) (r : RF) (v : Int) : (d.wrI r v).crown = d.crown := rfl

@[simp] theorem Device.wrI_nor (d : Device) (r : RF) (v : Int) : (d.wrI r v).nor = d.nor := rfl

@[simp] theorem Device.wrI_otp (d : Device) (r : RF) (v : Int) : (d.wrI r v).otp = d.otp := rfl

@[simp] theorem Device.wrI_aon (d : Device) (r : RF) (v : Int) : (d.wrI r v).aon = d.aon := rfl

@[simp] theorem Device.wrI_emret (d : Device) (r : RF) (v : Int) : (d.wrI r v).emret = d.emret := rfl

@[simp] theorem Device.wrI_emretCause (d : Device) (r : RF) (v : Int) : (d.wrI r v).emretCause = d.emretCause := rfl

@[simp] theorem Device.wrI_critical (d : Device) (r : RF) (v : Int) : (d.wrI r v).critical = d.critical := rfl

@[simp] theorem Device.wrI_hnor (d : Device) (r : RF) (v : Int) : (d.wrI r v).hnor = d.hnor := rfl

@[simp] theorem Device.wrI_host (d : Device) (r : RF) (v : Int) : (d.wrI r v).host = d.host := rfl

@[simp] theorem Device.wrI_medium (d : Device) (r : RF) (v : Int) : (d.wrI r v).medium = d.medium := rfl

@[simp] theorem Device.wrI_elk (d : Device) (r : RF) (v : Int) : (d.wrI r v).elk = d.elk := rfl

@[simp] theorem Device.wrI_shock1 (d : Device) (r : RF) (v : Int) : (d.wrI r v).shock1 = d.shock1 := rfl

@[simp] theorem Device.wrI_shock2 (d : Device) (r : RF) (v : Int) : (d.wrI r v).shock2 = d.shock2 := rfl

@[simp] theorem Device.wrI_shockInh (d : Device) (r : RF) (v : Int) : (d.wrI r v).shockInh = d.shockInh := rfl

@[simp] theorem Device.wrI_lane0 (d : Device) (r : RF) (v : Int) : (d.wrI r v).lane0 = d.lane0 := rfl

@[simp] theorem Device.wrI_lane1 (d : Device) (r : RF) (v : Int) : (d.wrI r v).lane1 = d.lane1 := rfl

@[simp] theorem Device.wrI_spin (d : Device) (r : RF) (v : Int) : (d.wrI r v).spin = d.spin := rfl

@[simp] theorem Device.wrI_out (d : Device) (r : RF) (v : Int) : (d.wrI r v).out = d.out := rfl

@[simp] theorem Device.wrI_fresh (d : Device) (r : RF) (v : Int) : (d.wrI r v).fresh = d.fresh := rfl

/-! ### wrB -/

@[simp] theorem Device.wrB_mem (d : Device) (r : RF) (v : Bool) : (d.wrB r v).mem = d.mem := rfl

@[simp] theorem Device.wrB_fabric (d : Device) (r : RF) (v : Bool) : (d.wrB r v).fabric = d.fabric := rfl

@[simp] theorem Device.wrB_pool (d : Device) (r : RF) (v : Bool) : (d.wrB r v).pool = d.pool := rfl

@[simp] theorem Device.wrB_hostL2 (d : Device) (r : RF) (v : Bool) : (d.wrB r v).hostL2 = d.hostL2 := rfl

@[simp] theorem Device.wrB_mediaL2a (d : Device) (r : RF) (v : Bool) : (d.wrB r v).mediaL2a = d.mediaL2a := rfl

@[simp] theorem Device.wrB_mediaL2b (d : Device) (r : RF) (v : Bool) : (d.wrB r v).mediaL2b = d.mediaL2b := rfl

@[simp] theorem Device.wrB_cipher (d : Device) (r : RF) (v : Bool) : (d.wrB r v).cipher = d.cipher := rfl

@[simp] theorem Device.wrB_keys (d : Device) (r : RF) (v : Bool) : (d.wrB r v).keys = d.keys := rfl

@[simp] theorem Device.wrB_power (d : Device) (r : RF) (v : Bool) : (d.wrB r v).power = d.power := rfl

@[simp] theorem Device.wrB_chron (d : Device) (r : RF) (v : Bool) : (d.wrB r v).chron = d.chron := rfl

@[simp] theorem Device.wrB_meters (d : Device) (r : RF) (v : Bool) : (d.wrB r v).meters = d.meters := rfl

@[simp] theorem Device.wrB_usage (d : Device) (r : RF) (v : Bool) : (d.wrB r v).usage = d.usage := rfl

@[simp] theorem Device.wrB_thermal (d : Device) (r : RF) (v : Bool) : (d.wrB r v).thermal = d.thermal := rfl

@[simp] theorem Device.wrB_thermRec (d : Device) (r : RF) (v : Bool) : (d.wrB r v).thermRec = d.thermRec := rfl

@[simp] theorem Device.wrB_cal (d : Device) (r : RF) (v : Bool) : (d.wrB r v).cal = d.cal := rfl

@[simp] theorem Device.wrB_duty (d : Device) (r : RF) (v : Bool) : (d.wrB r v).duty = d.duty := rfl

@[simp] theorem Device.wrB_logbook (d : Device) (r : RF) (v : Bool) : (d.wrB r v).logbook = d.logbook := rfl

@[simp] theorem Device.wrB_mirror (d : Device) (r : RF) (v : Bool) : (d.wrB r v).mirror = d.mirror := rfl

@[simp] theorem Device.wrB_boot (d : Device) (r : RF) (v : Bool) : (d.wrB r v).boot = d.boot := rfl

@[simp] theorem Device.wrB_crown (d : Device) (r : RF) (v : Bool) : (d.wrB r v).crown = d.crown := rfl

@[simp] theorem Device.wrB_nor (d : Device) (r : RF) (v : Bool) : (d.wrB r v).nor = d.nor := rfl

@[simp] theorem Device.wrB_otp (d : Device) (r : RF) (v : Bool) : (d.wrB r v).otp = d.otp := rfl

@[simp] theorem Device.wrB_aon (d : Device) (r : RF) (v : Bool) : (d.wrB r v).aon = d.aon := rfl

@[simp] theorem Device.wrB_emret (d : Device) (r : RF) (v : Bool) : (d.wrB r v).emret = d.emret := rfl

@[simp] theorem Device.wrB_emretCause (d : Device) (r : RF) (v : Bool) : (d.wrB r v).emretCause = d.emretCause := rfl

@[simp] theorem Device.wrB_critical (d : Device) (r : RF) (v : Bool) : (d.wrB r v).critical = d.critical := rfl

@[simp] theorem Device.wrB_hnor (d : Device) (r : RF) (v : Bool) : (d.wrB r v).hnor = d.hnor := rfl

@[simp] theorem Device.wrB_host (d : Device) (r : RF) (v : Bool) : (d.wrB r v).host = d.host := rfl

@[simp] theorem Device.wrB_medium (d : Device) (r : RF) (v : Bool) : (d.wrB r v).medium = d.medium := rfl

@[simp] theorem Device.wrB_elk (d : Device) (r : RF) (v : Bool) : (d.wrB r v).elk = d.elk := rfl

@[simp] theorem Device.wrB_shock1 (d : Device) (r : RF) (v : Bool) : (d.wrB r v).shock1 = d.shock1 := rfl

@[simp] theorem Device.wrB_shock2 (d : Device) (r : RF) (v : Bool) : (d.wrB r v).shock2 = d.shock2 := rfl

@[simp] theorem Device.wrB_shockInh (d : Device) (r : RF) (v : Bool) : (d.wrB r v).shockInh = d.shockInh := rfl

@[simp] theorem Device.wrB_lane0 (d : Device) (r : RF) (v : Bool) : (d.wrB r v).lane0 = d.lane0 := rfl

@[simp] theorem Device.wrB_lane1 (d : Device) (r : RF) (v : Bool) : (d.wrB r v).lane1 = d.lane1 := rfl

@[simp] theorem Device.wrB_spin (d : Device) (r : RF) (v : Bool) : (d.wrB r v).spin = d.spin := rfl

@[simp] theorem Device.wrB_out (d : Device) (r : RF) (v : Bool) : (d.wrB r v).out = d.out := rfl

@[simp] theorem Device.wrB_fresh (d : Device) (r : RF) (v : Bool) : (d.wrB r v).fresh = d.fresh := rfl

/-! ### incSat -/

@[simp] theorem Device.incSat_mem (d : Device) (r : RF) (v : Nat) : (d.incSat r v).mem = d.mem := rfl

@[simp] theorem Device.incSat_fabric (d : Device) (r : RF) (v : Nat) : (d.incSat r v).fabric = d.fabric := rfl

@[simp] theorem Device.incSat_pool (d : Device) (r : RF) (v : Nat) : (d.incSat r v).pool = d.pool := rfl

@[simp] theorem Device.incSat_hostL2 (d : Device) (r : RF) (v : Nat) : (d.incSat r v).hostL2 = d.hostL2 := rfl

@[simp] theorem Device.incSat_mediaL2a (d : Device) (r : RF) (v : Nat) : (d.incSat r v).mediaL2a = d.mediaL2a := rfl

@[simp] theorem Device.incSat_mediaL2b (d : Device) (r : RF) (v : Nat) : (d.incSat r v).mediaL2b = d.mediaL2b := rfl

@[simp] theorem Device.incSat_cipher (d : Device) (r : RF) (v : Nat) : (d.incSat r v).cipher = d.cipher := rfl

@[simp] theorem Device.incSat_keys (d : Device) (r : RF) (v : Nat) : (d.incSat r v).keys = d.keys := rfl

@[simp] theorem Device.incSat_power (d : Device) (r : RF) (v : Nat) : (d.incSat r v).power = d.power := rfl

@[simp] theorem Device.incSat_chron (d : Device) (r : RF) (v : Nat) : (d.incSat r v).chron = d.chron := rfl

@[simp] theorem Device.incSat_meters (d : Device) (r : RF) (v : Nat) : (d.incSat r v).meters = d.meters := rfl

@[simp] theorem Device.incSat_usage (d : Device) (r : RF) (v : Nat) : (d.incSat r v).usage = d.usage := rfl

@[simp] theorem Device.incSat_thermal (d : Device) (r : RF) (v : Nat) : (d.incSat r v).thermal = d.thermal := rfl

@[simp] theorem Device.incSat_thermRec (d : Device) (r : RF) (v : Nat) : (d.incSat r v).thermRec = d.thermRec := rfl

@[simp] theorem Device.incSat_cal (d : Device) (r : RF) (v : Nat) : (d.incSat r v).cal = d.cal := rfl

@[simp] theorem Device.incSat_duty (d : Device) (r : RF) (v : Nat) : (d.incSat r v).duty = d.duty := rfl

@[simp] theorem Device.incSat_logbook (d : Device) (r : RF) (v : Nat) : (d.incSat r v).logbook = d.logbook := rfl

@[simp] theorem Device.incSat_mirror (d : Device) (r : RF) (v : Nat) : (d.incSat r v).mirror = d.mirror := rfl

@[simp] theorem Device.incSat_boot (d : Device) (r : RF) (v : Nat) : (d.incSat r v).boot = d.boot := rfl

@[simp] theorem Device.incSat_crown (d : Device) (r : RF) (v : Nat) : (d.incSat r v).crown = d.crown := rfl

@[simp] theorem Device.incSat_nor (d : Device) (r : RF) (v : Nat) : (d.incSat r v).nor = d.nor := rfl

@[simp] theorem Device.incSat_otp (d : Device) (r : RF) (v : Nat) : (d.incSat r v).otp = d.otp := rfl

@[simp] theorem Device.incSat_aon (d : Device) (r : RF) (v : Nat) : (d.incSat r v).aon = d.aon := rfl

@[simp] theorem Device.incSat_emret (d : Device) (r : RF) (v : Nat) : (d.incSat r v).emret = d.emret := rfl

@[simp] theorem Device.incSat_emretCause (d : Device) (r : RF) (v : Nat) : (d.incSat r v).emretCause = d.emretCause := rfl

@[simp] theorem Device.incSat_critical (d : Device) (r : RF) (v : Nat) : (d.incSat r v).critical = d.critical := rfl

@[simp] theorem Device.incSat_hnor (d : Device) (r : RF) (v : Nat) : (d.incSat r v).hnor = d.hnor := rfl

@[simp] theorem Device.incSat_host (d : Device) (r : RF) (v : Nat) : (d.incSat r v).host = d.host := rfl

@[simp] theorem Device.incSat_medium (d : Device) (r : RF) (v : Nat) : (d.incSat r v).medium = d.medium := rfl

@[simp] theorem Device.incSat_elk (d : Device) (r : RF) (v : Nat) : (d.incSat r v).elk = d.elk := rfl

@[simp] theorem Device.incSat_shock1 (d : Device) (r : RF) (v : Nat) : (d.incSat r v).shock1 = d.shock1 := rfl

@[simp] theorem Device.incSat_shock2 (d : Device) (r : RF) (v : Nat) : (d.incSat r v).shock2 = d.shock2 := rfl

@[simp] theorem Device.incSat_shockInh (d : Device) (r : RF) (v : Nat) : (d.incSat r v).shockInh = d.shockInh := rfl

@[simp] theorem Device.incSat_lane0 (d : Device) (r : RF) (v : Nat) : (d.incSat r v).lane0 = d.lane0 := rfl

@[simp] theorem Device.incSat_lane1 (d : Device) (r : RF) (v : Nat) : (d.incSat r v).lane1 = d.lane1 := rfl

@[simp] theorem Device.incSat_spin (d : Device) (r : RF) (v : Nat) : (d.incSat r v).spin = d.spin := rfl

@[simp] theorem Device.incSat_out (d : Device) (r : RF) (v : Nat) : (d.incSat r v).out = d.out := rfl

@[simp] theorem Device.incSat_fresh (d : Device) (r : RF) (v : Nat) : (d.incSat r v).fresh = d.fresh := rfl

/-! ### resetRegs -/

@[simp] theorem Device.resetRegs_mem (d : Device) (lo hi : Nat) : (d.resetRegs lo hi).mem = d.mem := rfl

@[simp] theorem Device.resetRegs_fabric (d : Device) (lo hi : Nat) : (d.resetRegs lo hi).fabric = d.fabric := rfl

@[simp] theorem Device.resetRegs_pool (d : Device) (lo hi : Nat) : (d.resetRegs lo hi).pool = d.pool := rfl

@[simp] theorem Device.resetRegs_hostL2 (d : Device) (lo hi : Nat) : (d.resetRegs lo hi).hostL2 = d.hostL2 := rfl

@[simp] theorem Device.resetRegs_mediaL2a (d : Device) (lo hi : Nat) : (d.resetRegs lo hi).mediaL2a = d.mediaL2a := rfl

@[simp] theorem Device.resetRegs_mediaL2b (d : Device) (lo hi : Nat) : (d.resetRegs lo hi).mediaL2b = d.mediaL2b := rfl

@[simp] theorem Device.resetRegs_cipher (d : Device) (lo hi : Nat) : (d.resetRegs lo hi).cipher = d.cipher := rfl

@[simp] theorem Device.resetRegs_keys (d : Device) (lo hi : Nat) : (d.resetRegs lo hi).keys = d.keys := rfl

@[simp] theorem Device.resetRegs_power (d : Device) (lo hi : Nat) : (d.resetRegs lo hi).power = d.power := rfl

@[simp] theorem Device.resetRegs_chron (d : Device) (lo hi : Nat) : (d.resetRegs lo hi).chron = d.chron := rfl

@[simp] theorem Device.resetRegs_meters (d : Device) (lo hi : Nat) : (d.resetRegs lo hi).meters = d.meters := rfl

@[simp] theorem Device.resetRegs_usage (d : Device) (lo hi : Nat) : (d.resetRegs lo hi).usage = d.usage := rfl

@[simp] theorem Device.resetRegs_thermal (d : Device) (lo hi : Nat) : (d.resetRegs lo hi).thermal = d.thermal := rfl

@[simp] theorem Device.resetRegs_thermRec (d : Device) (lo hi : Nat) : (d.resetRegs lo hi).thermRec = d.thermRec := rfl

@[simp] theorem Device.resetRegs_cal (d : Device) (lo hi : Nat) : (d.resetRegs lo hi).cal = d.cal := rfl

@[simp] theorem Device.resetRegs_duty (d : Device) (lo hi : Nat) : (d.resetRegs lo hi).duty = d.duty := rfl

@[simp] theorem Device.resetRegs_logbook (d : Device) (lo hi : Nat) : (d.resetRegs lo hi).logbook = d.logbook := rfl

@[simp] theorem Device.resetRegs_mirror (d : Device) (lo hi : Nat) : (d.resetRegs lo hi).mirror = d.mirror := rfl

@[simp] theorem Device.resetRegs_boot (d : Device) (lo hi : Nat) : (d.resetRegs lo hi).boot = d.boot := rfl

@[simp] theorem Device.resetRegs_crown (d : Device) (lo hi : Nat) : (d.resetRegs lo hi).crown = d.crown := rfl

@[simp] theorem Device.resetRegs_nor (d : Device) (lo hi : Nat) : (d.resetRegs lo hi).nor = d.nor := rfl

@[simp] theorem Device.resetRegs_otp (d : Device) (lo hi : Nat) : (d.resetRegs lo hi).otp = d.otp := rfl

@[simp] theorem Device.resetRegs_aon (d : Device) (lo hi : Nat) : (d.resetRegs lo hi).aon = d.aon := rfl

@[simp] theorem Device.resetRegs_emret (d : Device) (lo hi : Nat) : (d.resetRegs lo hi).emret = d.emret := rfl

@[simp] theorem Device.resetRegs_emretCause (d : Device) (lo hi : Nat) : (d.resetRegs lo hi).emretCause = d.emretCause := rfl

@[simp] theorem Device.resetRegs_critical (d : Device) (lo hi : Nat) : (d.resetRegs lo hi).critical = d.critical := rfl

@[simp] theorem Device.resetRegs_hnor (d : Device) (lo hi : Nat) : (d.resetRegs lo hi).hnor = d.hnor := rfl

@[simp] theorem Device.resetRegs_host (d : Device) (lo hi : Nat) : (d.resetRegs lo hi).host = d.host := rfl

@[simp] theorem Device.resetRegs_medium (d : Device) (lo hi : Nat) : (d.resetRegs lo hi).medium = d.medium := rfl

@[simp] theorem Device.resetRegs_elk (d : Device) (lo hi : Nat) : (d.resetRegs lo hi).elk = d.elk := rfl

@[simp] theorem Device.resetRegs_shock1 (d : Device) (lo hi : Nat) : (d.resetRegs lo hi).shock1 = d.shock1 := rfl

@[simp] theorem Device.resetRegs_shock2 (d : Device) (lo hi : Nat) : (d.resetRegs lo hi).shock2 = d.shock2 := rfl

@[simp] theorem Device.resetRegs_shockInh (d : Device) (lo hi : Nat) : (d.resetRegs lo hi).shockInh = d.shockInh := rfl

@[simp] theorem Device.resetRegs_lane0 (d : Device) (lo hi : Nat) : (d.resetRegs lo hi).lane0 = d.lane0 := rfl

@[simp] theorem Device.resetRegs_lane1 (d : Device) (lo hi : Nat) : (d.resetRegs lo hi).lane1 = d.lane1 := rfl

@[simp] theorem Device.resetRegs_spin (d : Device) (lo hi : Nat) : (d.resetRegs lo hi).spin = d.spin := rfl

@[simp] theorem Device.resetRegs_out (d : Device) (lo hi : Nat) : (d.resetRegs lo hi).out = d.out := rfl

@[simp] theorem Device.resetRegs_fresh (d : Device) (lo hi : Nat) : (d.resetRegs lo hi).fresh = d.fresh := rfl

/-! ### emit -/

@[simp] theorem Device.emit_regs (d : Device) (o : Output) : (d.emit o).regs = d.regs := rfl

@[simp] theorem Device.emit_mem (d : Device) (o : Output) : (d.emit o).mem = d.mem := rfl

@[simp] theorem Device.emit_fabric (d : Device) (o : Output) : (d.emit o).fabric = d.fabric := rfl

@[simp] theorem Device.emit_pool (d : Device) (o : Output) : (d.emit o).pool = d.pool := rfl

@[simp] theorem Device.emit_hostL2 (d : Device) (o : Output) : (d.emit o).hostL2 = d.hostL2 := rfl

@[simp] theorem Device.emit_mediaL2a (d : Device) (o : Output) : (d.emit o).mediaL2a = d.mediaL2a := rfl

@[simp] theorem Device.emit_mediaL2b (d : Device) (o : Output) : (d.emit o).mediaL2b = d.mediaL2b := rfl

@[simp] theorem Device.emit_cipher (d : Device) (o : Output) : (d.emit o).cipher = d.cipher := rfl

@[simp] theorem Device.emit_keys (d : Device) (o : Output) : (d.emit o).keys = d.keys := rfl

@[simp] theorem Device.emit_power (d : Device) (o : Output) : (d.emit o).power = d.power := rfl

@[simp] theorem Device.emit_chron (d : Device) (o : Output) : (d.emit o).chron = d.chron := rfl

@[simp] theorem Device.emit_meters (d : Device) (o : Output) : (d.emit o).meters = d.meters := rfl

@[simp] theorem Device.emit_usage (d : Device) (o : Output) : (d.emit o).usage = d.usage := rfl

@[simp] theorem Device.emit_thermal (d : Device) (o : Output) : (d.emit o).thermal = d.thermal := rfl

@[simp] theorem Device.emit_thermRec (d : Device) (o : Output) : (d.emit o).thermRec = d.thermRec := rfl

@[simp] theorem Device.emit_cal (d : Device) (o : Output) : (d.emit o).cal = d.cal := rfl

@[simp] theorem Device.emit_duty (d : Device) (o : Output) : (d.emit o).duty = d.duty := rfl

@[simp] theorem Device.emit_logbook (d : Device) (o : Output) : (d.emit o).logbook = d.logbook := rfl

@[simp] theorem Device.emit_mirror (d : Device) (o : Output) : (d.emit o).mirror = d.mirror := rfl

@[simp] theorem Device.emit_boot (d : Device) (o : Output) : (d.emit o).boot = d.boot := rfl

@[simp] theorem Device.emit_crown (d : Device) (o : Output) : (d.emit o).crown = d.crown := rfl

@[simp] theorem Device.emit_nor (d : Device) (o : Output) : (d.emit o).nor = d.nor := rfl

@[simp] theorem Device.emit_otp (d : Device) (o : Output) : (d.emit o).otp = d.otp := rfl

@[simp] theorem Device.emit_aon (d : Device) (o : Output) : (d.emit o).aon = d.aon := rfl

@[simp] theorem Device.emit_emret (d : Device) (o : Output) : (d.emit o).emret = d.emret := rfl

@[simp] theorem Device.emit_emretCause (d : Device) (o : Output) : (d.emit o).emretCause = d.emretCause := rfl

@[simp] theorem Device.emit_critical (d : Device) (o : Output) : (d.emit o).critical = d.critical := rfl

@[simp] theorem Device.emit_hnor (d : Device) (o : Output) : (d.emit o).hnor = d.hnor := rfl

@[simp] theorem Device.emit_host (d : Device) (o : Output) : (d.emit o).host = d.host := rfl

@[simp] theorem Device.emit_medium (d : Device) (o : Output) : (d.emit o).medium = d.medium := rfl

@[simp] theorem Device.emit_elk (d : Device) (o : Output) : (d.emit o).elk = d.elk := rfl

@[simp] theorem Device.emit_shock1 (d : Device) (o : Output) : (d.emit o).shock1 = d.shock1 := rfl

@[simp] theorem Device.emit_shock2 (d : Device) (o : Output) : (d.emit o).shock2 = d.shock2 := rfl

@[simp] theorem Device.emit_shockInh (d : Device) (o : Output) : (d.emit o).shockInh = d.shockInh := rfl

@[simp] theorem Device.emit_lane0 (d : Device) (o : Output) : (d.emit o).lane0 = d.lane0 := rfl

@[simp] theorem Device.emit_lane1 (d : Device) (o : Output) : (d.emit o).lane1 = d.lane1 := rfl

@[simp] theorem Device.emit_spin (d : Device) (o : Output) : (d.emit o).spin = d.spin := rfl

@[simp] theorem Device.emit_fresh (d : Device) (o : Output) : (d.emit o).fresh = d.fresh := rfl

@[simp] theorem Device.emit_out (d : Device) (o : Output) : (d.emit o).out = d.out ++ [o] := rfl

/-! ### takeFree -/

@[simp] theorem Device.takeFree_regs (d : Device) (n : Nat) : ((d.takeFree n).2).regs = d.regs := rfl

@[simp] theorem Device.takeFree_mem (d : Device) (n : Nat) : ((d.takeFree n).2).mem = d.mem := rfl

@[simp] theorem Device.takeFree_fabric (d : Device) (n : Nat) : ((d.takeFree n).2).fabric = d.fabric := rfl

@[simp] theorem Device.takeFree_pool (d : Device) (n : Nat) : ((d.takeFree n).2).pool = d.pool := rfl

@[simp] theorem Device.takeFree_hostL2 (d : Device) (n : Nat) : ((d.takeFree n).2).hostL2 = d.hostL2 := rfl

@[simp] theorem Device.takeFree_mediaL2a (d : Device) (n : Nat) : ((d.takeFree n).2).mediaL2a = d.mediaL2a := rfl

@[simp] theorem Device.takeFree_mediaL2b (d : Device) (n : Nat) : ((d.takeFree n).2).mediaL2b = d.mediaL2b := rfl

@[simp] theorem Device.takeFree_cipher (d : Device) (n : Nat) : ((d.takeFree n).2).cipher = d.cipher := rfl

@[simp] theorem Device.takeFree_keys (d : Device) (n : Nat) : ((d.takeFree n).2).keys = d.keys := rfl

@[simp] theorem Device.takeFree_power (d : Device) (n : Nat) : ((d.takeFree n).2).power = d.power := rfl

@[simp] theorem Device.takeFree_chron (d : Device) (n : Nat) : ((d.takeFree n).2).chron = d.chron := rfl

@[simp] theorem Device.takeFree_meters (d : Device) (n : Nat) : ((d.takeFree n).2).meters = d.meters := rfl

@[simp] theorem Device.takeFree_usage (d : Device) (n : Nat) : ((d.takeFree n).2).usage = d.usage := rfl

@[simp] theorem Device.takeFree_thermal (d : Device) (n : Nat) : ((d.takeFree n).2).thermal = d.thermal := rfl

@[simp] theorem Device.takeFree_thermRec (d : Device) (n : Nat) : ((d.takeFree n).2).thermRec = d.thermRec := rfl

@[simp] theorem Device.takeFree_cal (d : Device) (n : Nat) : ((d.takeFree n).2).cal = d.cal := rfl

@[simp] theorem Device.takeFree_duty (d : Device) (n : Nat) : ((d.takeFree n).2).duty = d.duty := rfl

@[simp] theorem Device.takeFree_logbook (d : Device) (n : Nat) : ((d.takeFree n).2).logbook = d.logbook := rfl

@[simp] theorem Device.takeFree_mirror (d : Device) (n : Nat) : ((d.takeFree n).2).mirror = d.mirror := rfl

@[simp] theorem Device.takeFree_boot (d : Device) (n : Nat) : ((d.takeFree n).2).boot = d.boot := rfl

@[simp] theorem Device.takeFree_crown (d : Device) (n : Nat) : ((d.takeFree n).2).crown = d.crown := rfl

@[simp] theorem Device.takeFree_nor (d : Device) (n : Nat) : ((d.takeFree n).2).nor = d.nor := rfl

@[simp] theorem Device.takeFree_otp (d : Device) (n : Nat) : ((d.takeFree n).2).otp = d.otp := rfl

@[simp] theorem Device.takeFree_aon (d : Device) (n : Nat) : ((d.takeFree n).2).aon = d.aon := rfl

@[simp] theorem Device.takeFree_emret (d : Device) (n : Nat) : ((d.takeFree n).2).emret = d.emret := rfl

@[simp] theorem Device.takeFree_emretCause (d : Device) (n : Nat) : ((d.takeFree n).2).emretCause = d.emretCause := rfl

@[simp] theorem Device.takeFree_critical (d : Device) (n : Nat) : ((d.takeFree n).2).critical = d.critical := rfl

@[simp] theorem Device.takeFree_hnor (d : Device) (n : Nat) : ((d.takeFree n).2).hnor = d.hnor := rfl

@[simp] theorem Device.takeFree_host (d : Device) (n : Nat) : ((d.takeFree n).2).host = d.host := rfl

@[simp] theorem Device.takeFree_medium (d : Device) (n : Nat) : ((d.takeFree n).2).medium = d.medium := rfl

@[simp] theorem Device.takeFree_elk (d : Device) (n : Nat) : ((d.takeFree n).2).elk = d.elk := rfl

@[simp] theorem Device.takeFree_shock1 (d : Device) (n : Nat) : ((d.takeFree n).2).shock1 = d.shock1 := rfl

@[simp] theorem Device.takeFree_shock2 (d : Device) (n : Nat) : ((d.takeFree n).2).shock2 = d.shock2 := rfl

@[simp] theorem Device.takeFree_shockInh (d : Device) (n : Nat) : ((d.takeFree n).2).shockInh = d.shockInh := rfl

@[simp] theorem Device.takeFree_lane0 (d : Device) (n : Nat) : ((d.takeFree n).2).lane0 = d.lane0 := rfl

@[simp] theorem Device.takeFree_lane1 (d : Device) (n : Nat) : ((d.takeFree n).2).lane1 = d.lane1 := rfl

@[simp] theorem Device.takeFree_spin (d : Device) (n : Nat) : ((d.takeFree n).2).spin = d.spin := rfl

@[simp] theorem Device.takeFree_out (d : Device) (n : Nat) : ((d.takeFree n).2).out = d.out := rfl

@[simp] theorem Device.takeFree_fresh (d : Device) (n : Nat) : (d.takeFree n).2.fresh = d.fresh + 1 := rfl

/-! ### updHost -/

@[simp] theorem Device.updHost_regs (d : Device) (f : HostSt → HostSt) : (d.updHost f).regs = d.regs := rfl

@[simp] theorem Device.updHost_mem (d : Device) (f : HostSt → HostSt) : (d.updHost f).mem = d.mem := rfl

@[simp] theorem Device.updHost_fabric (d : Device) (f : HostSt → HostSt) : (d.updHost f).fabric = d.fabric := rfl

@[simp] theorem Device.updHost_pool (d : Device) (f : HostSt → HostSt) : (d.updHost f).pool = d.pool := rfl

@[simp] theorem Device.updHost_hostL2 (d : Device) (f : HostSt → HostSt) : (d.updHost f).hostL2 = d.hostL2 := rfl

@[simp] theorem Device.updHost_mediaL2a (d : Device) (f : HostSt → HostSt) : (d.updHost f).mediaL2a = d.mediaL2a := rfl

@[simp] theorem Device.updHost_mediaL2b (d : Device) (f : HostSt → HostSt) : (d.updHost f).mediaL2b = d.mediaL2b := rfl

@[simp] theorem Device.updHost_cipher (d : Device) (f : HostSt → HostSt) : (d.updHost f).cipher = d.cipher := rfl

@[simp] theorem Device.updHost_keys (d : Device) (f : HostSt → HostSt) : (d.updHost f).keys = d.keys := rfl

@[simp] theorem Device.updHost_power (d : Device) (f : HostSt → HostSt) : (d.updHost f).power = d.power := rfl

@[simp] theorem Device.updHost_chron (d : Device) (f : HostSt → HostSt) : (d.updHost f).chron = d.chron := rfl

@[simp] theorem Device.updHost_meters (d : Device) (f : HostSt → HostSt) : (d.updHost f).meters = d.meters := rfl

@[simp] theorem Device.updHost_usage (d : Device) (f : HostSt → HostSt) : (d.updHost f).usage = d.usage := rfl

@[simp] theorem Device.updHost_thermal (d : Device) (f : HostSt → HostSt) : (d.updHost f).thermal = d.thermal := rfl

@[simp] theorem Device.updHost_thermRec (d : Device) (f : HostSt → HostSt) : (d.updHost f).thermRec = d.thermRec := rfl

@[simp] theorem Device.updHost_cal (d : Device) (f : HostSt → HostSt) : (d.updHost f).cal = d.cal := rfl

@[simp] theorem Device.updHost_duty (d : Device) (f : HostSt → HostSt) : (d.updHost f).duty = d.duty := rfl

@[simp] theorem Device.updHost_logbook (d : Device) (f : HostSt → HostSt) : (d.updHost f).logbook = d.logbook := rfl

@[simp] theorem Device.updHost_mirror (d : Device) (f : HostSt → HostSt) : (d.updHost f).mirror = d.mirror := rfl

@[simp] theorem Device.updHost_boot (d : Device) (f : HostSt → HostSt) : (d.updHost f).boot = d.boot := rfl

@[simp] theorem Device.updHost_crown (d : Device) (f : HostSt → HostSt) : (d.updHost f).crown = d.crown := rfl

@[simp] theorem Device.updHost_nor (d : Device) (f : HostSt → HostSt) : (d.updHost f).nor = d.nor := rfl

@[simp] theorem Device.updHost_otp (d : Device) (f : HostSt → HostSt) : (d.updHost f).otp = d.otp := rfl

@[simp] theorem Device.updHost_aon (d : Device) (f : HostSt → HostSt) : (d.updHost f).aon = d.aon := rfl

@[simp] theorem Device.updHost_emret (d : Device) (f : HostSt → HostSt) : (d.updHost f).emret = d.emret := rfl

@[simp] theorem Device.updHost_emretCause (d : Device) (f : HostSt → HostSt) : (d.updHost f).emretCause = d.emretCause := rfl

@[simp] theorem Device.updHost_critical (d : Device) (f : HostSt → HostSt) : (d.updHost f).critical = d.critical := rfl

@[simp] theorem Device.updHost_hnor (d : Device) (f : HostSt → HostSt) : (d.updHost f).hnor = d.hnor := rfl

@[simp] theorem Device.updHost_medium (d : Device) (f : HostSt → HostSt) : (d.updHost f).medium = d.medium := rfl

@[simp] theorem Device.updHost_elk (d : Device) (f : HostSt → HostSt) : (d.updHost f).elk = d.elk := rfl

@[simp] theorem Device.updHost_shock1 (d : Device) (f : HostSt → HostSt) : (d.updHost f).shock1 = d.shock1 := rfl

@[simp] theorem Device.updHost_shock2 (d : Device) (f : HostSt → HostSt) : (d.updHost f).shock2 = d.shock2 := rfl

@[simp] theorem Device.updHost_shockInh (d : Device) (f : HostSt → HostSt) : (d.updHost f).shockInh = d.shockInh := rfl

@[simp] theorem Device.updHost_lane0 (d : Device) (f : HostSt → HostSt) : (d.updHost f).lane0 = d.lane0 := rfl

@[simp] theorem Device.updHost_lane1 (d : Device) (f : HostSt → HostSt) : (d.updHost f).lane1 = d.lane1 := rfl

@[simp] theorem Device.updHost_spin (d : Device) (f : HostSt → HostSt) : (d.updHost f).spin = d.spin := rfl

@[simp] theorem Device.updHost_out (d : Device) (f : HostSt → HostSt) : (d.updHost f).out = d.out := rfl

@[simp] theorem Device.updHost_fresh (d : Device) (f : HostSt → HostSt) : (d.updHost f).fresh = d.fresh := rfl

@[simp] theorem Device.updHost_host (d : Device) (f : HostSt → HostSt) : (d.updHost f).host = f d.host := rfl

/-! ### updPower -/

@[simp] theorem Device.updPower_regs (d : Device) (f : Power → Power) : (d.updPower f).regs = d.regs := rfl

@[simp] theorem Device.updPower_mem (d : Device) (f : Power → Power) : (d.updPower f).mem = d.mem := rfl

@[simp] theorem Device.updPower_fabric (d : Device) (f : Power → Power) : (d.updPower f).fabric = d.fabric := rfl

@[simp] theorem Device.updPower_pool (d : Device) (f : Power → Power) : (d.updPower f).pool = d.pool := rfl

@[simp] theorem Device.updPower_hostL2 (d : Device) (f : Power → Power) : (d.updPower f).hostL2 = d.hostL2 := rfl

@[simp] theorem Device.updPower_mediaL2a (d : Device) (f : Power → Power) : (d.updPower f).mediaL2a = d.mediaL2a := rfl

@[simp] theorem Device.updPower_mediaL2b (d : Device) (f : Power → Power) : (d.updPower f).mediaL2b = d.mediaL2b := rfl

@[simp] theorem Device.updPower_cipher (d : Device) (f : Power → Power) : (d.updPower f).cipher = d.cipher := rfl

@[simp] theorem Device.updPower_keys (d : Device) (f : Power → Power) : (d.updPower f).keys = d.keys := rfl

@[simp] theorem Device.updPower_chron (d : Device) (f : Power → Power) : (d.updPower f).chron = d.chron := rfl

@[simp] theorem Device.updPower_meters (d : Device) (f : Power → Power) : (d.updPower f).meters = d.meters := rfl

@[simp] theorem Device.updPower_usage (d : Device) (f : Power → Power) : (d.updPower f).usage = d.usage := rfl

@[simp] theorem Device.updPower_thermal (d : Device) (f : Power → Power) : (d.updPower f).thermal = d.thermal := rfl

@[simp] theorem Device.updPower_thermRec (d : Device) (f : Power → Power) : (d.updPower f).thermRec = d.thermRec := rfl

@[simp] theorem Device.updPower_cal (d : Device) (f : Power → Power) : (d.updPower f).cal = d.cal := rfl

@[simp] theorem Device.updPower_duty (d : Device) (f : Power → Power) : (d.updPower f).duty = d.duty := rfl

@[simp] theorem Device.updPower_logbook (d : Device) (f : Power → Power) : (d.updPower f).logbook = d.logbook := rfl

@[simp] theorem Device.updPower_mirror (d : Device) (f : Power → Power) : (d.updPower f).mirror = d.mirror := rfl

@[simp] theorem Device.updPower_boot (d : Device) (f : Power → Power) : (d.updPower f).boot = d.boot := rfl

@[simp] theorem Device.updPower_crown (d : Device) (f : Power → Power) : (d.updPower f).crown = d.crown := rfl

@[simp] theorem Device.updPower_nor (d : Device) (f : Power → Power) : (d.updPower f).nor = d.nor := rfl

@[simp] theorem Device.updPower_otp (d : Device) (f : Power → Power) : (d.updPower f).otp = d.otp := rfl

@[simp] theorem Device.updPower_aon (d : Device) (f : Power → Power) : (d.updPower f).aon = d.aon := rfl

@[simp] theorem Device.updPower_emret (d : Device) (f : Power → Power) : (d.updPower f).emret = d.emret := rfl

@[simp] theorem Device.updPower_emretCause (d : Device) (f : Power → Power) : (d.updPower f).emretCause = d.emretCause := rfl

@[simp] theorem Device.updPower_critical (d : Device) (f : Power → Power) : (d.updPower f).critical = d.critical := rfl

@[simp] theorem Device.updPower_hnor (d : Device) (f : Power → Power) : (d.updPower f).hnor = d.hnor := rfl

@[simp] theorem Device.updPower_host (d : Device) (f : Power → Power) : (d.updPower f).host = d.host := rfl

@[simp] theorem Device.updPower_medium (d : Device) (f : Power → Power) : (d.updPower f).medium = d.medium := rfl

@[simp] theorem Device.updPower_elk (d : Device) (f : Power → Power) : (d.updPower f).elk = d.elk := rfl

@[simp] theorem Device.updPower_shock1 (d : Device) (f : Power → Power) : (d.updPower f).shock1 = d.shock1 := rfl

@[simp] theorem Device.updPower_shock2 (d : Device) (f : Power → Power) : (d.updPower f).shock2 = d.shock2 := rfl

@[simp] theorem Device.updPower_shockInh (d : Device) (f : Power → Power) : (d.updPower f).shockInh = d.shockInh := rfl

@[simp] theorem Device.updPower_lane0 (d : Device) (f : Power → Power) : (d.updPower f).lane0 = d.lane0 := rfl

@[simp] theorem Device.updPower_lane1 (d : Device) (f : Power → Power) : (d.updPower f).lane1 = d.lane1 := rfl

@[simp] theorem Device.updPower_spin (d : Device) (f : Power → Power) : (d.updPower f).spin = d.spin := rfl

@[simp] theorem Device.updPower_out (d : Device) (f : Power → Power) : (d.updPower f).out = d.out := rfl

@[simp] theorem Device.updPower_fresh (d : Device) (f : Power → Power) : (d.updPower f).fresh = d.fresh := rfl

@[simp] theorem Device.updPower_power (d : Device) (f : Power → Power) : (d.updPower f).power = f d.power := rfl

/-! ### updSpin -/

@[simp] theorem Device.updSpin_regs (d : Device) (f : SpinSt → SpinSt) : (d.updSpin f).regs = d.regs := rfl

@[simp] theorem Device.updSpin_mem (d : Device) (f : SpinSt → SpinSt) : (d.updSpin f).mem = d.mem := rfl

@[simp] theorem Device.updSpin_fabric (d : Device) (f : SpinSt → SpinSt) : (d.updSpin f).fabric = d.fabric := rfl

@[simp] theorem Device.updSpin_pool (d : Device) (f : SpinSt → SpinSt) : (d.updSpin f).pool = d.pool := rfl

@[simp] theorem Device.updSpin_hostL2 (d : Device) (f : SpinSt → SpinSt) : (d.updSpin f).hostL2 = d.hostL2 := rfl

@[simp] theorem Device.updSpin_mediaL2a (d : Device) (f : SpinSt → SpinSt) : (d.updSpin f).mediaL2a = d.mediaL2a := rfl

@[simp] theorem Device.updSpin_mediaL2b (d : Device) (f : SpinSt → SpinSt) : (d.updSpin f).mediaL2b = d.mediaL2b := rfl

@[simp] theorem Device.updSpin_cipher (d : Device) (f : SpinSt → SpinSt) : (d.updSpin f).cipher = d.cipher := rfl

@[simp] theorem Device.updSpin_keys (d : Device) (f : SpinSt → SpinSt) : (d.updSpin f).keys = d.keys := rfl

@[simp] theorem Device.updSpin_power (d : Device) (f : SpinSt → SpinSt) : (d.updSpin f).power = d.power := rfl

@[simp] theorem Device.updSpin_chron (d : Device) (f : SpinSt → SpinSt) : (d.updSpin f).chron = d.chron := rfl

@[simp] theorem Device.updSpin_meters (d : Device) (f : SpinSt → SpinSt) : (d.updSpin f).meters = d.meters := rfl

@[simp] theorem Device.updSpin_usage (d : Device) (f : SpinSt → SpinSt) : (d.updSpin f).usage = d.usage := rfl

@[simp] theorem Device.updSpin_thermal (d : Device) (f : SpinSt → SpinSt) : (d.updSpin f).thermal = d.thermal := rfl

@[simp] theorem Device.updSpin_thermRec (d : Device) (f : SpinSt → SpinSt) : (d.updSpin f).thermRec = d.thermRec := rfl

@[simp] theorem Device.updSpin_cal (d : Device) (f : SpinSt → SpinSt) : (d.updSpin f).cal = d.cal := rfl

@[simp] theorem Device.updSpin_duty (d : Device) (f : SpinSt → SpinSt) : (d.updSpin f).duty = d.duty := rfl

@[simp] theorem Device.updSpin_logbook (d : Device) (f : SpinSt → SpinSt) : (d.updSpin f).logbook = d.logbook := rfl

@[simp] theorem Device.updSpin_mirror (d : Device) (f : SpinSt → SpinSt) : (d.updSpin f).mirror = d.mirror := rfl

@[simp] theorem Device.updSpin_boot (d : Device) (f : SpinSt → SpinSt) : (d.updSpin f).boot = d.boot := rfl

@[simp] theorem Device.updSpin_crown (d : Device) (f : SpinSt → SpinSt) : (d.updSpin f).crown = d.crown := rfl

@[simp] theorem Device.updSpin_nor (d : Device) (f : SpinSt → SpinSt) : (d.updSpin f).nor = d.nor := rfl

@[simp] theorem Device.updSpin_otp (d : Device) (f : SpinSt → SpinSt) : (d.updSpin f).otp = d.otp := rfl

@[simp] theorem Device.updSpin_aon (d : Device) (f : SpinSt → SpinSt) : (d.updSpin f).aon = d.aon := rfl

@[simp] theorem Device.updSpin_emret (d : Device) (f : SpinSt → SpinSt) : (d.updSpin f).emret = d.emret := rfl

@[simp] theorem Device.updSpin_emretCause (d : Device) (f : SpinSt → SpinSt) : (d.updSpin f).emretCause = d.emretCause := rfl

@[simp] theorem Device.updSpin_critical (d : Device) (f : SpinSt → SpinSt) : (d.updSpin f).critical = d.critical := rfl

@[simp] theorem Device.updSpin_hnor (d : Device) (f : SpinSt → SpinSt) : (d.updSpin f).hnor = d.hnor := rfl

@[simp] theorem Device.updSpin_host (d : Device) (f : SpinSt → SpinSt) : (d.updSpin f).host = d.host := rfl

@[simp] theorem Device.updSpin_medium (d : Device) (f : SpinSt → SpinSt) : (d.updSpin f).medium = d.medium := rfl

@[simp] theorem Device.updSpin_elk (d : Device) (f : SpinSt → SpinSt) : (d.updSpin f).elk = d.elk := rfl

@[simp] theorem Device.updSpin_shock1 (d : Device) (f : SpinSt → SpinSt) : (d.updSpin f).shock1 = d.shock1 := rfl

@[simp] theorem Device.updSpin_shock2 (d : Device) (f : SpinSt → SpinSt) : (d.updSpin f).shock2 = d.shock2 := rfl

@[simp] theorem Device.updSpin_shockInh (d : Device) (f : SpinSt → SpinSt) : (d.updSpin f).shockInh = d.shockInh := rfl

@[simp] theorem Device.updSpin_lane0 (d : Device) (f : SpinSt → SpinSt) : (d.updSpin f).lane0 = d.lane0 := rfl

@[simp] theorem Device.updSpin_lane1 (d : Device) (f : SpinSt → SpinSt) : (d.updSpin f).lane1 = d.lane1 := rfl

@[simp] theorem Device.updSpin_out (d : Device) (f : SpinSt → SpinSt) : (d.updSpin f).out = d.out := rfl

@[simp] theorem Device.updSpin_fresh (d : Device) (f : SpinSt → SpinSt) : (d.updSpin f).fresh = d.fresh := rfl

@[simp] theorem Device.updSpin_spin (d : Device) (f : SpinSt → SpinSt) : (d.updSpin f).spin = f d.spin := rfl

/-! ### updElk -/

@[simp] theorem Device.updElk_regs (d : Device) (f : ElkSt → ElkSt) : (d.updElk f).regs = d.regs := rfl

@[simp] theorem Device.updElk_mem (d : Device) (f : ElkSt → ElkSt) : (d.updElk f).mem = d.mem := rfl

@[simp] theorem Device.updElk_fabric (d : Device) (f : ElkSt → ElkSt) : (d.updElk f).fabric = d.fabric := rfl

@[simp] theorem Device.updElk_pool (d : Device) (f : ElkSt → ElkSt) : (d.updElk f).pool = d.pool := rfl

@[simp] theorem Device.updElk_hostL2 (d : Device) (f : ElkSt → ElkSt) : (d.updElk f).hostL2 = d.hostL2 := rfl

@[simp] theorem Device.updElk_mediaL2a (d : Device) (f : ElkSt → ElkSt) : (d.updElk f).mediaL2a = d.mediaL2a := rfl

@[simp] theorem Device.updElk_mediaL2b (d : Device) (f : ElkSt → ElkSt) : (d.updElk f).mediaL2b = d.mediaL2b := rfl

@[simp] theorem Device.updElk_cipher (d : Device) (f : ElkSt → ElkSt) : (d.updElk f).cipher = d.cipher := rfl

@[simp] theorem Device.updElk_keys (d : Device) (f : ElkSt → ElkSt) : (d.updElk f).keys = d.keys := rfl

@[simp] theorem Device.updElk_power (d : Device) (f : ElkSt → ElkSt) : (d.updElk f).power = d.power := rfl

@[simp] theorem Device.updElk_chron (d : Device) (f : ElkSt → ElkSt) : (d.updElk f).chron = d.chron := rfl

@[simp] theorem Device.updElk_meters (d : Device) (f : ElkSt → ElkSt) : (d.updElk f).meters = d.meters := rfl

@[simp] theorem Device.updElk_usage (d : Device) (f : ElkSt → ElkSt) : (d.updElk f).usage = d.usage := rfl

@[simp] theorem Device.updElk_thermal (d : Device) (f : ElkSt → ElkSt) : (d.updElk f).thermal = d.thermal := rfl

@[simp] theorem Device.updElk_thermRec (d : Device) (f : ElkSt → ElkSt) : (d.updElk f).thermRec = d.thermRec := rfl

@[simp] theorem Device.updElk_cal (d : Device) (f : ElkSt → ElkSt) : (d.updElk f).cal = d.cal := rfl

@[simp] theorem Device.updElk_duty (d : Device) (f : ElkSt → ElkSt) : (d.updElk f).duty = d.duty := rfl

@[simp] theorem Device.updElk_logbook (d : Device) (f : ElkSt → ElkSt) : (d.updElk f).logbook = d.logbook := rfl

@[simp] theorem Device.updElk_mirror (d : Device) (f : ElkSt → ElkSt) : (d.updElk f).mirror = d.mirror := rfl

@[simp] theorem Device.updElk_boot (d : Device) (f : ElkSt → ElkSt) : (d.updElk f).boot = d.boot := rfl

@[simp] theorem Device.updElk_crown (d : Device) (f : ElkSt → ElkSt) : (d.updElk f).crown = d.crown := rfl

@[simp] theorem Device.updElk_nor (d : Device) (f : ElkSt → ElkSt) : (d.updElk f).nor = d.nor := rfl

@[simp] theorem Device.updElk_otp (d : Device) (f : ElkSt → ElkSt) : (d.updElk f).otp = d.otp := rfl

@[simp] theorem Device.updElk_aon (d : Device) (f : ElkSt → ElkSt) : (d.updElk f).aon = d.aon := rfl

@[simp] theorem Device.updElk_emret (d : Device) (f : ElkSt → ElkSt) : (d.updElk f).emret = d.emret := rfl

@[simp] theorem Device.updElk_emretCause (d : Device) (f : ElkSt → ElkSt) : (d.updElk f).emretCause = d.emretCause := rfl

@[simp] theorem Device.updElk_critical (d : Device) (f : ElkSt → ElkSt) : (d.updElk f).critical = d.critical := rfl

@[simp] theorem Device.updElk_hnor (d : Device) (f : ElkSt → ElkSt) : (d.updElk f).hnor = d.hnor := rfl

@[simp] theorem Device.updElk_host (d : Device) (f : ElkSt → ElkSt) : (d.updElk f).host = d.host := rfl

@[simp] theorem Device.updElk_medium (d : Device) (f : ElkSt → ElkSt) : (d.updElk f).medium = d.medium := rfl

@[simp] theorem Device.updElk_shock1 (d : Device) (f : ElkSt → ElkSt) : (d.updElk f).shock1 = d.shock1 := rfl

@[simp] theorem Device.updElk_shock2 (d : Device) (f : ElkSt → ElkSt) : (d.updElk f).shock2 = d.shock2 := rfl

@[simp] theorem Device.updElk_shockInh (d : Device) (f : ElkSt → ElkSt) : (d.updElk f).shockInh = d.shockInh := rfl

@[simp] theorem Device.updElk_lane0 (d : Device) (f : ElkSt → ElkSt) : (d.updElk f).lane0 = d.lane0 := rfl

@[simp] theorem Device.updElk_lane1 (d : Device) (f : ElkSt → ElkSt) : (d.updElk f).lane1 = d.lane1 := rfl

@[simp] theorem Device.updElk_spin (d : Device) (f : ElkSt → ElkSt) : (d.updElk f).spin = d.spin := rfl

@[simp] theorem Device.updElk_out (d : Device) (f : ElkSt → ElkSt) : (d.updElk f).out = d.out := rfl

@[simp] theorem Device.updElk_fresh (d : Device) (f : ElkSt → ElkSt) : (d.updElk f).fresh = d.fresh := rfl

@[simp] theorem Device.updElk_elk (d : Device) (f : ElkSt → ElkSt) : (d.updElk f).elk = f d.elk := rfl

/-! ### updLane -/

@[simp] theorem Device.updLane_regs (d : Device) (l : Lane) (f : LaneSt → LaneSt) : (d.updLane l f).regs = d.regs := by cases l <;> rfl

@[simp] theorem Device.updLane_mem (d : Device) (l : Lane) (f : LaneSt → LaneSt) : (d.updLane l f).mem = d.mem := by cases l <;> rfl

@[simp] theorem Device.updLane_fabric (d : Device) (l : Lane) (f : LaneSt → LaneSt) : (d.updLane l f).fabric = d.fabric := by cases l <;> rfl

@[simp] theorem Device.updLane_pool (d : Device) (l : Lane) (f : LaneSt → LaneSt) : (d.updLane l f).pool = d.pool := by cases l <;> rfl

@[simp] theorem Device.updLane_hostL2 (d : Device) (l : Lane) (f : LaneSt → LaneSt) : (d.updLane l f).hostL2 = d.hostL2 := by cases l <;> rfl

@[simp] theorem Device.updLane_mediaL2a (d : Device) (l : Lane) (f : LaneSt → LaneSt) : (d.updLane l f).mediaL2a = d.mediaL2a := by cases l <;> rfl

@[simp] theorem Device.updLane_mediaL2b (d : Device) (l : Lane) (f : LaneSt → LaneSt) : (d.updLane l f).mediaL2b = d.mediaL2b := by cases l <;> rfl

@[simp] theorem Device.updLane_cipher (d : Device) (l : Lane) (f : LaneSt → LaneSt) : (d.updLane l f).cipher = d.cipher := by cases l <;> rfl

@[simp] theorem Device.updLane_keys (d : Device) (l : Lane) (f : LaneSt → LaneSt) : (d.updLane l f).keys = d.keys := by cases l <;> rfl

@[simp] theorem Device.updLane_power (d : Device) (l : Lane) (f : LaneSt → LaneSt) : (d.updLane l f).power = d.power := by cases l <;> rfl

@[simp] theorem Device.updLane_chron (d : Device) (l : Lane) (f : LaneSt → LaneSt) : (d.updLane l f).chron = d.chron := by cases l <;> rfl

@[simp] theorem Device.updLane_meters (d : Device) (l : Lane) (f : LaneSt → LaneSt) : (d.updLane l f).meters = d.meters := by cases l <;> rfl

@[simp] theorem Device.updLane_usage (d : Device) (l : Lane) (f : LaneSt → LaneSt) : (d.updLane l f).usage = d.usage := by cases l <;> rfl

@[simp] theorem Device.updLane_thermal (d : Device) (l : Lane) (f : LaneSt → LaneSt) : (d.updLane l f).thermal = d.thermal := by cases l <;> rfl

@[simp] theorem Device.updLane_thermRec (d : Device) (l : Lane) (f : LaneSt → LaneSt) : (d.updLane l f).thermRec = d.thermRec := by cases l <;> rfl

@[simp] theorem Device.updLane_cal (d : Device) (l : Lane) (f : LaneSt → LaneSt) : (d.updLane l f).cal = d.cal := by cases l <;> rfl

@[simp] theorem Device.updLane_duty (d : Device) (l : Lane) (f : LaneSt → LaneSt) : (d.updLane l f).duty = d.duty := by cases l <;> rfl

@[simp] theorem Device.updLane_logbook (d : Device) (l : Lane) (f : LaneSt → LaneSt) : (d.updLane l f).logbook = d.logbook := by cases l <;> rfl

@[simp] theorem Device.updLane_mirror (d : Device) (l : Lane) (f : LaneSt → LaneSt) : (d.updLane l f).mirror = d.mirror := by cases l <;> rfl

@[simp] theorem Device.updLane_boot (d : Device) (l : Lane) (f : LaneSt → LaneSt) : (d.updLane l f).boot = d.boot := by cases l <;> rfl

@[simp] theorem Device.updLane_crown (d : Device) (l : Lane) (f : LaneSt → LaneSt) : (d.updLane l f).crown = d.crown := by cases l <;> rfl

@[simp] theorem Device.updLane_nor (d : Device) (l : Lane) (f : LaneSt → LaneSt) : (d.updLane l f).nor = d.nor := by cases l <;> rfl

@[simp] theorem Device.updLane_otp (d : Device) (l : Lane) (f : LaneSt → LaneSt) : (d.updLane l f).otp = d.otp := by cases l <;> rfl

@[simp] theorem Device.updLane_aon (d : Device) (l : Lane) (f : LaneSt → LaneSt) : (d.updLane l f).aon = d.aon := by cases l <;> rfl

@[simp] theorem Device.updLane_emret (d : Device) (l : Lane) (f : LaneSt → LaneSt) : (d.updLane l f).emret = d.emret := by cases l <;> rfl

@[simp] theorem Device.updLane_emretCause (d : Device) (l : Lane) (f : LaneSt → LaneSt) : (d.updLane l f).emretCause = d.emretCause := by cases l <;> rfl

@[simp] theorem Device.updLane_critical (d : Device) (l : Lane) (f : LaneSt → LaneSt) : (d.updLane l f).critical = d.critical := by cases l <;> rfl

@[simp] theorem Device.updLane_hnor (d : Device) (l : Lane) (f : LaneSt → LaneSt) : (d.updLane l f).hnor = d.hnor := by cases l <;> rfl

@[simp] theorem Device.updLane_host (d : Device) (l : Lane) (f : LaneSt → LaneSt) : (d.updLane l f).host = d.host := by cases l <;> rfl

@[simp] theorem Device.updLane_medium (d : Device) (l : Lane) (f : LaneSt → LaneSt) : (d.updLane l f).medium = d.medium := by cases l <;> rfl

@[simp] theorem Device.updLane_elk (d : Device) (l : Lane) (f : LaneSt → LaneSt) : (d.updLane l f).elk = d.elk := by cases l <;> rfl

@[simp] theorem Device.updLane_shock1 (d : Device) (l : Lane) (f : LaneSt → LaneSt) : (d.updLane l f).shock1 = d.shock1 := by cases l <;> rfl

@[simp] theorem Device.updLane_shock2 (d : Device) (l : Lane) (f : LaneSt → LaneSt) : (d.updLane l f).shock2 = d.shock2 := by cases l <;> rfl

@[simp] theorem Device.updLane_shockInh (d : Device) (l : Lane) (f : LaneSt → LaneSt) : (d.updLane l f).shockInh = d.shockInh := by cases l <;> rfl

@[simp] theorem Device.updLane_spin (d : Device) (l : Lane) (f : LaneSt → LaneSt) : (d.updLane l f).spin = d.spin := by cases l <;> rfl

@[simp] theorem Device.updLane_out (d : Device) (l : Lane) (f : LaneSt → LaneSt) : (d.updLane l f).out = d.out := by cases l <;> rfl

@[simp] theorem Device.updLane_fresh (d : Device) (l : Lane) (f : LaneSt → LaneSt) : (d.updLane l f).fresh = d.fresh := by cases l <;> rfl

@[simp] theorem Device.updLane_same (d : Device) (l : Lane) (f : LaneSt → LaneSt) : (d.updLane l f).lane l = f (d.lane l) := by cases l <;> rfl

theorem Device.updLane_other (d : Device) {l m : Lane} (f : LaneSt → LaneSt) (h : m ≠ l) : (d.updLane l f).lane m = d.lane m := by
  cases l <;> cases m <;> first | rfl | exact absurd rfl h

/-! ### updCh -/

@[simp] theorem Device.updCh_regs (d : Device) (l : Lane) (f : ChSt → ChSt) : (d.updCh l f).regs = d.regs := by cases l <;> rfl

@[simp] theorem Device.updCh_mem (d : Device) (l : Lane) (f : ChSt → ChSt) : (d.updCh l f).mem = d.mem := by cases l <;> rfl

@[simp] theorem Device.updCh_fabric (d : Device) (l : Lane) (f : ChSt → ChSt) : (d.updCh l f).fabric = d.fabric := by cases l <;> rfl

@[simp] theorem Device.updCh_pool (d : Device) (l : Lane) (f : ChSt → ChSt) : (d.updCh l f).pool = d.pool := by cases l <;> rfl

@[simp] theorem Device.updCh_hostL2 (d : Device) (l : Lane) (f : ChSt → ChSt) : (d.updCh l f).hostL2 = d.hostL2 := by cases l <;> rfl

@[simp] theorem Device.updCh_mediaL2a (d : Device) (l : Lane) (f : ChSt → ChSt) : (d.updCh l f).mediaL2a = d.mediaL2a := by cases l <;> rfl

@[simp] theorem Device.updCh_mediaL2b (d : Device) (l : Lane) (f : ChSt → ChSt) : (d.updCh l f).mediaL2b = d.mediaL2b := by cases l <;> rfl

@[simp] theorem Device.updCh_cipher (d : Device) (l : Lane) (f : ChSt → ChSt) : (d.updCh l f).cipher = d.cipher := by cases l <;> rfl

@[simp] theorem Device.updCh_keys (d : Device) (l : Lane) (f : ChSt → ChSt) : (d.updCh l f).keys = d.keys := by cases l <;> rfl

@[simp] theorem Device.updCh_power (d : Device) (l : Lane) (f : ChSt → ChSt) : (d.updCh l f).power = d.power := by cases l <;> rfl

@[simp] theorem Device.updCh_chron (d : Device) (l : Lane) (f : ChSt → ChSt) : (d.updCh l f).chron = d.chron := by cases l <;> rfl

@[simp] theorem Device.updCh_meters (d : Device) (l : Lane) (f : ChSt → ChSt) : (d.updCh l f).meters = d.meters := by cases l <;> rfl

@[simp] theorem Device.updCh_usage (d : Device) (l : Lane) (f : ChSt → ChSt) : (d.updCh l f).usage = d.usage := by cases l <;> rfl

@[simp] theorem Device.updCh_thermal (d : Device) (l : Lane) (f : ChSt → ChSt) : (d.updCh l f).thermal = d.thermal := by cases l <;> rfl

@[simp] theorem Device.updCh_thermRec (d : Device) (l : Lane) (f : ChSt → ChSt) : (d.updCh l f).thermRec = d.thermRec := by cases l <;> rfl

@[simp] theorem Device.updCh_cal (d : Device) (l : Lane) (f : ChSt → ChSt) : (d.updCh l f).cal = d.cal := by cases l <;> rfl

@[simp] theorem Device.updCh_duty (d : Device) (l : Lane) (f : ChSt → ChSt) : (d.updCh l f).duty = d.duty := by cases l <;> rfl

@[simp] theorem Device.updCh_logbook (d : Device) (l : Lane) (f : ChSt → ChSt) : (d.updCh l f).logbook = d.logbook := by cases l <;> rfl

@[simp] theorem Device.updCh_mirror (d : Device) (l : Lane) (f : ChSt → ChSt) : (d.updCh l f).mirror = d.mirror := by cases l <;> rfl

@[simp] theorem Device.updCh_boot (d : Device) (l : Lane) (f : ChSt → ChSt) : (d.updCh l f).boot = d.boot := by cases l <;> rfl

@[simp] theorem Device.updCh_crown (d : Device) (l : Lane) (f : ChSt → ChSt) : (d.updCh l f).crown = d.crown := by cases l <;> rfl

@[simp] theorem Device.updCh_nor (d : Device) (l : Lane) (f : ChSt → ChSt) : (d.updCh l f).nor = d.nor := by cases l <;> rfl

@[simp] theorem Device.updCh_otp (d : Device) (l : Lane) (f : ChSt → ChSt) : (d.updCh l f).otp = d.otp := by cases l <;> rfl

@[simp] theorem Device.updCh_aon (d : Device) (l : Lane) (f : ChSt → ChSt) : (d.updCh l f).aon = d.aon := by cases l <;> rfl

@[simp] theorem Device.updCh_emret (d : Device) (l : Lane) (f : ChSt → ChSt) : (d.updCh l f).emret = d.emret := by cases l <;> rfl

@[simp] theorem Device.updCh_emretCause (d : Device) (l : Lane) (f : ChSt → ChSt) : (d.updCh l f).emretCause = d.emretCause := by cases l <;> rfl

@[simp] theorem Device.updCh_critical (d : Device) (l : Lane) (f : ChSt → ChSt) : (d.updCh l f).critical = d.critical := by cases l <;> rfl

@[simp] theorem Device.updCh_hnor (d : Device) (l : Lane) (f : ChSt → ChSt) : (d.updCh l f).hnor = d.hnor := by cases l <;> rfl

@[simp] theorem Device.updCh_host (d : Device) (l : Lane) (f : ChSt → ChSt) : (d.updCh l f).host = d.host := by cases l <;> rfl

@[simp] theorem Device.updCh_medium (d : Device) (l : Lane) (f : ChSt → ChSt) : (d.updCh l f).medium = d.medium := by cases l <;> rfl

@[simp] theorem Device.updCh_elk (d : Device) (l : Lane) (f : ChSt → ChSt) : (d.updCh l f).elk = d.elk := by cases l <;> rfl

@[simp] theorem Device.updCh_shock1 (d : Device) (l : Lane) (f : ChSt → ChSt) : (d.updCh l f).shock1 = d.shock1 := by cases l <;> rfl

@[simp] theorem Device.updCh_shock2 (d : Device) (l : Lane) (f : ChSt → ChSt) : (d.updCh l f).shock2 = d.shock2 := by cases l <;> rfl

@[simp] theorem Device.updCh_shockInh (d : Device) (l : Lane) (f : ChSt → ChSt) : (d.updCh l f).shockInh = d.shockInh := by cases l <;> rfl

@[simp] theorem Device.updCh_spin (d : Device) (l : Lane) (f : ChSt → ChSt) : (d.updCh l f).spin = d.spin := by cases l <;> rfl

@[simp] theorem Device.updCh_out (d : Device) (l : Lane) (f : ChSt → ChSt) : (d.updCh l f).out = d.out := by cases l <;> rfl

@[simp] theorem Device.updCh_fresh (d : Device) (l : Lane) (f : ChSt → ChSt) : (d.updCh l f).fresh = d.fresh := by cases l <;> rfl

@[simp] theorem Device.updCh_same (d : Device) (l : Lane) (f : ChSt → ChSt) : (d.updCh l f).ch l = f (d.ch l) := by cases l <;> rfl

/-! ### updWr -/

@[simp] theorem Device.updWr_regs (d : Device) (l : Lane) (f : WrSt → WrSt) : (d.updWr l f).regs = d.regs := by cases l <;> rfl

@[simp] theorem Device.updWr_mem (d : Device) (l : Lane) (f : WrSt → WrSt) : (d.updWr l f).mem = d.mem := by cases l <;> rfl

@[simp] theorem Device.updWr_fabric (d : Device) (l : Lane) (f : WrSt → WrSt) : (d.updWr l f).fabric = d.fabric := by cases l <;> rfl

@[simp] theorem Device.updWr_pool (d : Device) (l : Lane) (f : WrSt → WrSt) : (d.updWr l f).pool = d.pool := by cases l <;> rfl

@[simp] theorem Device.updWr_hostL2 (d : Device) (l : Lane) (f : WrSt → WrSt) : (d.updWr l f).hostL2 = d.hostL2 := by cases l <;> rfl

@[simp] theorem Device.updWr_mediaL2a (d : Device) (l : Lane) (f : WrSt → WrSt) : (d.updWr l f).mediaL2a = d.mediaL2a := by cases l <;> rfl

@[simp] theorem Device.updWr_mediaL2b (d : Device) (l : Lane) (f : WrSt → WrSt) : (d.updWr l f).mediaL2b = d.mediaL2b := by cases l <;> rfl

@[simp] theorem Device.updWr_cipher (d : Device) (l : Lane) (f : WrSt → WrSt) : (d.updWr l f).cipher = d.cipher := by cases l <;> rfl

@[simp] theorem Device.updWr_keys (d : Device) (l : Lane) (f : WrSt → WrSt) : (d.updWr l f).keys = d.keys := by cases l <;> rfl

@[simp] theorem Device.updWr_power (d : Device) (l : Lane) (f : WrSt → WrSt) : (d.updWr l f).power = d.power := by cases l <;> rfl

@[simp] theorem Device.updWr_chron (d : Device) (l : Lane) (f : WrSt → WrSt) : (d.updWr l f).chron = d.chron := by cases l <;> rfl

@[simp] theorem Device.updWr_meters (d : Device) (l : Lane) (f : WrSt → WrSt) : (d.updWr l f).meters = d.meters := by cases l <;> rfl

@[simp] theorem Device.updWr_usage (d : Device) (l : Lane) (f : WrSt → WrSt) : (d.updWr l f).usage = d.usage := by cases l <;> rfl

@[simp] theorem Device.updWr_thermal (d : Device) (l : Lane) (f : WrSt → WrSt) : (d.updWr l f).thermal = d.thermal := by cases l <;> rfl

@[simp] theorem Device.updWr_thermRec (d : Device) (l : Lane) (f : WrSt → WrSt) : (d.updWr l f).thermRec = d.thermRec := by cases l <;> rfl

@[simp] theorem Device.updWr_cal (d : Device) (l : Lane) (f : WrSt → WrSt) : (d.updWr l f).cal = d.cal := by cases l <;> rfl

@[simp] theorem Device.updWr_duty (d : Device) (l : Lane) (f : WrSt → WrSt) : (d.updWr l f).duty = d.duty := by cases l <;> rfl

@[simp] theorem Device.updWr_logbook (d : Device) (l : Lane) (f : WrSt → WrSt) : (d.updWr l f).logbook = d.logbook := by cases l <;> rfl

@[simp] theorem Device.updWr_mirror (d : Device) (l : Lane) (f : WrSt → WrSt) : (d.updWr l f).mirror = d.mirror := by cases l <;> rfl

@[simp] theorem Device.updWr_boot (d : Device) (l : Lane) (f : WrSt → WrSt) : (d.updWr l f).boot = d.boot := by cases l <;> rfl

@[simp] theorem Device.updWr_crown (d : Device) (l : Lane) (f : WrSt → WrSt) : (d.updWr l f).crown = d.crown := by cases l <;> rfl

@[simp] theorem Device.updWr_nor (d : Device) (l : Lane) (f : WrSt → WrSt) : (d.updWr l f).nor = d.nor := by cases l <;> rfl

@[simp] theorem Device.updWr_otp (d : Device) (l : Lane) (f : WrSt → WrSt) : (d.updWr l f).otp = d.otp := by cases l <;> rfl

@[simp] theorem Device.updWr_aon (d : Device) (l : Lane) (f : WrSt → WrSt) : (d.updWr l f).aon = d.aon := by cases l <;> rfl

@[simp] theorem Device.updWr_emret (d : Device) (l : Lane) (f : WrSt → WrSt) : (d.updWr l f).emret = d.emret := by cases l <;> rfl

@[simp] theorem Device.updWr_emretCause (d : Device) (l : Lane) (f : WrSt → WrSt) : (d.updWr l f).emretCause = d.emretCause := by cases l <;> rfl

@[simp] theorem Device.updWr_critical (d : Device) (l : Lane) (f : WrSt → WrSt) : (d.updWr l f).critical = d.critical := by cases l <;> rfl

@[simp] theorem Device.updWr_hnor (d : Device) (l : Lane) (f : WrSt → WrSt) : (d.updWr l f).hnor = d.hnor := by cases l <;> rfl

@[simp] theorem Device.updWr_host (d : Device) (l : Lane) (f : WrSt → WrSt) : (d.updWr l f).host = d.host := by cases l <;> rfl

@[simp] theorem Device.updWr_medium (d : Device) (l : Lane) (f : WrSt → WrSt) : (d.updWr l f).medium = d.medium := by cases l <;> rfl

@[simp] theorem Device.updWr_elk (d : Device) (l : Lane) (f : WrSt → WrSt) : (d.updWr l f).elk = d.elk := by cases l <;> rfl

@[simp] theorem Device.updWr_shock1 (d : Device) (l : Lane) (f : WrSt → WrSt) : (d.updWr l f).shock1 = d.shock1 := by cases l <;> rfl

@[simp] theorem Device.updWr_shock2 (d : Device) (l : Lane) (f : WrSt → WrSt) : (d.updWr l f).shock2 = d.shock2 := by cases l <;> rfl

@[simp] theorem Device.updWr_shockInh (d : Device) (l : Lane) (f : WrSt → WrSt) : (d.updWr l f).shockInh = d.shockInh := by cases l <;> rfl

@[simp] theorem Device.updWr_spin (d : Device) (l : Lane) (f : WrSt → WrSt) : (d.updWr l f).spin = d.spin := by cases l <;> rfl

@[simp] theorem Device.updWr_out (d : Device) (l : Lane) (f : WrSt → WrSt) : (d.updWr l f).out = d.out := by cases l <;> rfl

@[simp] theorem Device.updWr_fresh (d : Device) (l : Lane) (f : WrSt → WrSt) : (d.updWr l f).fresh = d.fresh := by cases l <;> rfl

@[simp] theorem Device.updWr_same (d : Device) (l : Lane) (f : WrSt → WrSt) : (d.updWr l f).wrp l = f (d.wrp l) := by cases l <;> rfl

/-! ### updSv -/

@[simp] theorem Device.updSv_regs (d : Device) (l : Lane) (f : SvSt → SvSt) : (d.updSv l f).regs = d.regs := by cases l <;> rfl

@[simp] theorem Device.updSv_mem (d : Device) (l : Lane) (f : SvSt → SvSt) : (d.updSv l f).mem = d.mem := by cases l <;> rfl

@[simp] theorem Device.updSv_fabric (d : Device) (l : Lane) (f : SvSt → SvSt) : (d.updSv l f).fabric = d.fabric := by cases l <;> rfl

@[simp] theorem Device.updSv_pool (d : Device) (l : Lane) (f : SvSt → SvSt) : (d.updSv l f).pool = d.pool := by cases l <;> rfl

@[simp] theorem Device.updSv_hostL2 (d : Device) (l : Lane) (f : SvSt → SvSt) : (d.updSv l f).hostL2 = d.hostL2 := by cases l <;> rfl

@[simp] theorem Device.updSv_mediaL2a (d : Device) (l : Lane) (f : SvSt → SvSt) : (d.updSv l f).mediaL2a = d.mediaL2a := by cases l <;> rfl

@[simp] theorem Device.updSv_mediaL2b (d : Device) (l : Lane) (f : SvSt → SvSt) : (d.updSv l f).mediaL2b = d.mediaL2b := by cases l <;> rfl

@[simp] theorem Device.updSv_cipher (d : Device) (l : Lane) (f : SvSt → SvSt) : (d.updSv l f).cipher = d.cipher := by cases l <;> rfl

@[simp] theorem Device.updSv_keys (d : Device) (l : Lane) (f : SvSt → SvSt) : (d.updSv l f).keys = d.keys := by cases l <;> rfl

@[simp] theorem Device.updSv_power (d : Device) (l : Lane) (f : SvSt → SvSt) : (d.updSv l f).power = d.power := by cases l <;> rfl

@[simp] theorem Device.updSv_chron (d : Device) (l : Lane) (f : SvSt → SvSt) : (d.updSv l f).chron = d.chron := by cases l <;> rfl

@[simp] theorem Device.updSv_meters (d : Device) (l : Lane) (f : SvSt → SvSt) : (d.updSv l f).meters = d.meters := by cases l <;> rfl

@[simp] theorem Device.updSv_usage (d : Device) (l : Lane) (f : SvSt → SvSt) : (d.updSv l f).usage = d.usage := by cases l <;> rfl

@[simp] theorem Device.updSv_thermal (d : Device) (l : Lane) (f : SvSt → SvSt) : (d.updSv l f).thermal = d.thermal := by cases l <;> rfl

@[simp] theorem Device.updSv_thermRec (d : Device) (l : Lane) (f : SvSt → SvSt) : (d.updSv l f).thermRec = d.thermRec := by cases l <;> rfl

@[simp] theorem Device.updSv_cal (d : Device) (l : Lane) (f : SvSt → SvSt) : (d.updSv l f).cal = d.cal := by cases l <;> rfl

@[simp] theorem Device.updSv_duty (d : Device) (l : Lane) (f : SvSt → SvSt) : (d.updSv l f).duty = d.duty := by cases l <;> rfl

@[simp] theorem Device.updSv_logbook (d : Device) (l : Lane) (f : SvSt → SvSt) : (d.updSv l f).logbook = d.logbook := by cases l <;> rfl

@[simp] theorem Device.updSv_mirror (d : Device) (l : Lane) (f : SvSt → SvSt) : (d.updSv l f).mirror = d.mirror := by cases l <;> rfl

@[simp] theorem Device.updSv_boot (d : Device) (l : Lane) (f : SvSt → SvSt) : (d.updSv l f).boot = d.boot := by cases l <;> rfl

@[simp] theorem Device.updSv_crown (d : Device) (l : Lane) (f : SvSt → SvSt) : (d.updSv l f).crown = d.crown := by cases l <;> rfl

@[simp] theorem Device.updSv_nor (d : Device) (l : Lane) (f : SvSt → SvSt) : (d.updSv l f).nor = d.nor := by cases l <;> rfl

@[simp] theorem Device.updSv_otp (d : Device) (l : Lane) (f : SvSt → SvSt) : (d.updSv l f).otp = d.otp := by cases l <;> rfl

@[simp] theorem Device.updSv_aon (d : Device) (l : Lane) (f : SvSt → SvSt) : (d.updSv l f).aon = d.aon := by cases l <;> rfl

@[simp] theorem Device.updSv_emret (d : Device) (l : Lane) (f : SvSt → SvSt) : (d.updSv l f).emret = d.emret := by cases l <;> rfl

@[simp] theorem Device.updSv_emretCause (d : Device) (l : Lane) (f : SvSt → SvSt) : (d.updSv l f).emretCause = d.emretCause := by cases l <;> rfl

@[simp] theorem Device.updSv_critical (d : Device) (l : Lane) (f : SvSt → SvSt) : (d.updSv l f).critical = d.critical := by cases l <;> rfl

@[simp] theorem Device.updSv_hnor (d : Device) (l : Lane) (f : SvSt → SvSt) : (d.updSv l f).hnor = d.hnor := by cases l <;> rfl

@[simp] theorem Device.updSv_host (d : Device) (l : Lane) (f : SvSt → SvSt) : (d.updSv l f).host = d.host := by cases l <;> rfl

@[simp] theorem Device.updSv_medium (d : Device) (l : Lane) (f : SvSt → SvSt) : (d.updSv l f).medium = d.medium := by cases l <;> rfl

@[simp] theorem Device.updSv_elk (d : Device) (l : Lane) (f : SvSt → SvSt) : (d.updSv l f).elk = d.elk := by cases l <;> rfl

@[simp] theorem Device.updSv_shock1 (d : Device) (l : Lane) (f : SvSt → SvSt) : (d.updSv l f).shock1 = d.shock1 := by cases l <;> rfl

@[simp] theorem Device.updSv_shock2 (d : Device) (l : Lane) (f : SvSt → SvSt) : (d.updSv l f).shock2 = d.shock2 := by cases l <;> rfl

@[simp] theorem Device.updSv_shockInh (d : Device) (l : Lane) (f : SvSt → SvSt) : (d.updSv l f).shockInh = d.shockInh := by cases l <;> rfl

@[simp] theorem Device.updSv_spin (d : Device) (l : Lane) (f : SvSt → SvSt) : (d.updSv l f).spin = d.spin := by cases l <;> rfl

@[simp] theorem Device.updSv_out (d : Device) (l : Lane) (f : SvSt → SvSt) : (d.updSv l f).out = d.out := by cases l <;> rfl

@[simp] theorem Device.updSv_fresh (d : Device) (l : Lane) (f : SvSt → SvSt) : (d.updSv l f).fresh = d.fresh := by cases l <;> rfl

@[simp] theorem Device.updSv_same (d : Device) (l : Lane) (f : SvSt → SvSt) : (d.updSv l f).sv l = f (d.sv l) := by cases l <;> rfl

/-! ### updPs -/

@[simp] theorem Device.updPs_regs (d : Device) (l : Lane) (f : PsSt → PsSt) : (d.updPs l f).regs = d.regs := by cases l <;> rfl

@[simp] theorem Device.updPs_mem (d : Device) (l : Lane) (f : PsSt → PsSt) : (d.updPs l f).mem = d.mem := by cases l <;> rfl

@[simp] theorem Device.updPs_fabric (d : Device) (l : Lane) (f : PsSt → PsSt) : (d.updPs l f).fabric = d.fabric := by cases l <;> rfl

@[simp] theorem Device.updPs_pool (d : Device) (l : Lane) (f : PsSt → PsSt) : (d.updPs l f).pool = d.pool := by cases l <;> rfl

@[simp] theorem Device.updPs_hostL2 (d : Device) (l : Lane) (f : PsSt → PsSt) : (d.updPs l f).hostL2 = d.hostL2 := by cases l <;> rfl

@[simp] theorem Device.updPs_mediaL2a (d : Device) (l : Lane) (f : PsSt → PsSt) : (d.updPs l f).mediaL2a = d.mediaL2a := by cases l <;> rfl

@[simp] theorem Device.updPs_mediaL2b (d : Device) (l : Lane) (f : PsSt → PsSt) : (d.updPs l f).mediaL2b = d.mediaL2b := by cases l <;> rfl

@[simp] theorem Device.updPs_cipher (d : Device) (l : Lane) (f : PsSt → PsSt) : (d.updPs l f).cipher = d.cipher := by cases l <;> rfl

@[simp] theorem Device.updPs_keys (d : Device) (l : Lane) (f : PsSt → PsSt) : (d.updPs l f).keys = d.keys := by cases l <;> rfl

@[simp] theorem Device.updPs_power (d : Device) (l : Lane) (f : PsSt → PsSt) : (d.updPs l f).power = d.power := by cases l <;> rfl

@[simp] theorem Device.updPs_chron (d : Device) (l : Lane) (f : PsSt → PsSt) : (d.updPs l f).chron = d.chron := by cases l <;> rfl

@[simp] theorem Device.updPs_meters (d : Device) (l : Lane) (f : PsSt → PsSt) : (d.updPs l f).meters = d.meters := by cases l <;> rfl

@[simp] theorem Device.updPs_usage (d : Device) (l : Lane) (f : PsSt → PsSt) : (d.updPs l f).usage = d.usage := by cases l <;> rfl

@[simp] theorem Device.updPs_thermal (d : Device) (l : Lane) (f : PsSt → PsSt) : (d.updPs l f).thermal = d.thermal := by cases l <;> rfl

@[simp] theorem Device.updPs_thermRec (d : Device) (l : Lane) (f : PsSt → PsSt) : (d.updPs l f).thermRec = d.thermRec := by cases l <;> rfl

@[simp] theorem Device.updPs_cal (d : Device) (l : Lane) (f : PsSt → PsSt) : (d.updPs l f).cal = d.cal := by cases l <;> rfl

@[simp] theorem Device.updPs_duty (d : Device) (l : Lane) (f : PsSt → PsSt) : (d.updPs l f).duty = d.duty := by cases l <;> rfl

@[simp] theorem Device.updPs_logbook (d : Device) (l : Lane) (f : PsSt → PsSt) : (d.updPs l f).logbook = d.logbook := by cases l <;> rfl

@[simp] theorem Device.updPs_mirror (d : Device) (l : Lane) (f : PsSt → PsSt) : (d.updPs l f).mirror = d.mirror := by cases l <;> rfl

@[simp] theorem Device.updPs_boot (d : Device) (l : Lane) (f : PsSt → PsSt) : (d.updPs l f).boot = d.boot := by cases l <;> rfl

@[simp] theorem Device.updPs_crown (d : Device) (l : Lane) (f : PsSt → PsSt) : (d.updPs l f).crown = d.crown := by cases l <;> rfl

@[simp] theorem Device.updPs_nor (d : Device) (l : Lane) (f : PsSt → PsSt) : (d.updPs l f).nor = d.nor := by cases l <;> rfl

@[simp] theorem Device.updPs_otp (d : Device) (l : Lane) (f : PsSt → PsSt) : (d.updPs l f).otp = d.otp := by cases l <;> rfl

@[simp] theorem Device.updPs_aon (d : Device) (l : Lane) (f : PsSt → PsSt) : (d.updPs l f).aon = d.aon := by cases l <;> rfl

@[simp] theorem Device.updPs_emret (d : Device) (l : Lane) (f : PsSt → PsSt) : (d.updPs l f).emret = d.emret := by cases l <;> rfl

@[simp] theorem Device.updPs_emretCause (d : Device) (l : Lane) (f : PsSt → PsSt) : (d.updPs l f).emretCause = d.emretCause := by cases l <;> rfl

@[simp] theorem Device.updPs_critical (d : Device) (l : Lane) (f : PsSt → PsSt) : (d.updPs l f).critical = d.critical := by cases l <;> rfl

@[simp] theorem Device.updPs_hnor (d : Device) (l : Lane) (f : PsSt → PsSt) : (d.updPs l f).hnor = d.hnor := by cases l <;> rfl

@[simp] theorem Device.updPs_host (d : Device) (l : Lane) (f : PsSt → PsSt) : (d.updPs l f).host = d.host := by cases l <;> rfl

@[simp] theorem Device.updPs_medium (d : Device) (l : Lane) (f : PsSt → PsSt) : (d.updPs l f).medium = d.medium := by cases l <;> rfl

@[simp] theorem Device.updPs_elk (d : Device) (l : Lane) (f : PsSt → PsSt) : (d.updPs l f).elk = d.elk := by cases l <;> rfl

@[simp] theorem Device.updPs_shock1 (d : Device) (l : Lane) (f : PsSt → PsSt) : (d.updPs l f).shock1 = d.shock1 := by cases l <;> rfl

@[simp] theorem Device.updPs_shock2 (d : Device) (l : Lane) (f : PsSt → PsSt) : (d.updPs l f).shock2 = d.shock2 := by cases l <;> rfl

@[simp] theorem Device.updPs_shockInh (d : Device) (l : Lane) (f : PsSt → PsSt) : (d.updPs l f).shockInh = d.shockInh := by cases l <;> rfl

@[simp] theorem Device.updPs_spin (d : Device) (l : Lane) (f : PsSt → PsSt) : (d.updPs l f).spin = d.spin := by cases l <;> rfl

@[simp] theorem Device.updPs_out (d : Device) (l : Lane) (f : PsSt → PsSt) : (d.updPs l f).out = d.out := by cases l <;> rfl

@[simp] theorem Device.updPs_fresh (d : Device) (l : Lane) (f : PsSt → PsSt) : (d.updPs l f).fresh = d.fresh := by cases l <;> rfl

@[simp] theorem Device.updPs_same (d : Device) (l : Lane) (f : PsSt → PsSt) : (d.updPs l f).ps l = f (d.ps l) := by cases l <;> rfl

/-! ### updEc -/

@[simp] theorem Device.updEc_regs (d : Device) (q : SeqId) (f : EcSt → EcSt) : (d.updEc q f).regs = d.regs := by obtain ⟨l, b⟩ := q; cases l <;> rfl

@[simp] theorem Device.updEc_mem (d : Device) (q : SeqId) (f : EcSt → EcSt) : (d.updEc q f).mem = d.mem := by obtain ⟨l, b⟩ := q; cases l <;> rfl

@[simp] theorem Device.updEc_fabric (d : Device) (q : SeqId) (f : EcSt → EcSt) : (d.updEc q f).fabric = d.fabric := by obtain ⟨l, b⟩ := q; cases l <;> rfl

@[simp] theorem Device.updEc_pool (d : Device) (q : SeqId) (f : EcSt → EcSt) : (d.updEc q f).pool = d.pool := by obtain ⟨l, b⟩ := q; cases l <;> rfl

@[simp] theorem Device.updEc_hostL2 (d : Device) (q : SeqId) (f : EcSt → EcSt) : (d.updEc q f).hostL2 = d.hostL2 := by obtain ⟨l, b⟩ := q; cases l <;> rfl

@[simp] theorem Device.updEc_mediaL2a (d : Device) (q : SeqId) (f : EcSt → EcSt) : (d.updEc q f).mediaL2a = d.mediaL2a := by obtain ⟨l, b⟩ := q; cases l <;> rfl

@[simp] theorem Device.updEc_mediaL2b (d : Device) (q : SeqId) (f : EcSt → EcSt) : (d.updEc q f).mediaL2b = d.mediaL2b := by obtain ⟨l, b⟩ := q; cases l <;> rfl

@[simp] theorem Device.updEc_cipher (d : Device) (q : SeqId) (f : EcSt → EcSt) : (d.updEc q f).cipher = d.cipher := by obtain ⟨l, b⟩ := q; cases l <;> rfl

@[simp] theorem Device.updEc_keys (d : Device) (q : SeqId) (f : EcSt → EcSt) : (d.updEc q f).keys = d.keys := by obtain ⟨l, b⟩ := q; cases l <;> rfl

@[simp] theorem Device.updEc_power (d : Device) (q : SeqId) (f : EcSt → EcSt) : (d.updEc q f).power = d.power := by obtain ⟨l, b⟩ := q; cases l <;> rfl

@[simp] theorem Device.updEc_chron (d : Device) (q : SeqId) (f : EcSt → EcSt) : (d.updEc q f).chron = d.chron := by obtain ⟨l, b⟩ := q; cases l <;> rfl

@[simp] theorem Device.updEc_meters (d : Device) (q : SeqId) (f : EcSt → EcSt) : (d.updEc q f).meters = d.meters := by obtain ⟨l, b⟩ := q; cases l <;> rfl

@[simp] theorem Device.updEc_usage (d : Device) (q : SeqId) (f : EcSt → EcSt) : (d.updEc q f).usage = d.usage := by obtain ⟨l, b⟩ := q; cases l <;> rfl

@[simp] theorem Device.updEc_thermal (d : Device) (q : SeqId) (f : EcSt → EcSt) : (d.updEc q f).thermal = d.thermal := by obtain ⟨l, b⟩ := q; cases l <;> rfl

@[simp] theorem Device.updEc_thermRec (d : Device) (q : SeqId) (f : EcSt → EcSt) : (d.updEc q f).thermRec = d.thermRec := by obtain ⟨l, b⟩ := q; cases l <;> rfl

@[simp] theorem Device.updEc_cal (d : Device) (q : SeqId) (f : EcSt → EcSt) : (d.updEc q f).cal = d.cal := by obtain ⟨l, b⟩ := q; cases l <;> rfl

@[simp] theorem Device.updEc_duty (d : Device) (q : SeqId) (f : EcSt → EcSt) : (d.updEc q f).duty = d.duty := by obtain ⟨l, b⟩ := q; cases l <;> rfl

@[simp] theorem Device.updEc_logbook (d : Device) (q : SeqId) (f : EcSt → EcSt) : (d.updEc q f).logbook = d.logbook := by obtain ⟨l, b⟩ := q; cases l <;> rfl

@[simp] theorem Device.updEc_mirror (d : Device) (q : SeqId) (f : EcSt → EcSt) : (d.updEc q f).mirror = d.mirror := by obtain ⟨l, b⟩ := q; cases l <;> rfl

@[simp] theorem Device.updEc_boot (d : Device) (q : SeqId) (f : EcSt → EcSt) : (d.updEc q f).boot = d.boot := by obtain ⟨l, b⟩ := q; cases l <;> rfl

@[simp] theorem Device.updEc_crown (d : Device) (q : SeqId) (f : EcSt → EcSt) : (d.updEc q f).crown = d.crown := by obtain ⟨l, b⟩ := q; cases l <;> rfl

@[simp] theorem Device.updEc_nor (d : Device) (q : SeqId) (f : EcSt → EcSt) : (d.updEc q f).nor = d.nor := by obtain ⟨l, b⟩ := q; cases l <;> rfl

@[simp] theorem Device.updEc_otp (d : Device) (q : SeqId) (f : EcSt → EcSt) : (d.updEc q f).otp = d.otp := by obtain ⟨l, b⟩ := q; cases l <;> rfl

@[simp] theorem Device.updEc_aon (d : Device) (q : SeqId) (f : EcSt → EcSt) : (d.updEc q f).aon = d.aon := by obtain ⟨l, b⟩ := q; cases l <;> rfl

@[simp] theorem Device.updEc_emret (d : Device) (q : SeqId) (f : EcSt → EcSt) : (d.updEc q f).emret = d.emret := by obtain ⟨l, b⟩ := q; cases l <;> rfl

@[simp] theorem Device.updEc_emretCause (d : Device) (q : SeqId) (f : EcSt → EcSt) : (d.updEc q f).emretCause = d.emretCause := by obtain ⟨l, b⟩ := q; cases l <;> rfl

@[simp] theorem Device.updEc_critical (d : Device) (q : SeqId) (f : EcSt → EcSt) : (d.updEc q f).critical = d.critical := by obtain ⟨l, b⟩ := q; cases l <;> rfl

@[simp] theorem Device.updEc_hnor (d : Device) (q : SeqId) (f : EcSt → EcSt) : (d.updEc q f).hnor = d.hnor := by obtain ⟨l, b⟩ := q; cases l <;> rfl

@[simp] theorem Device.updEc_host (d : Device) (q : SeqId) (f : EcSt → EcSt) : (d.updEc q f).host = d.host := by obtain ⟨l, b⟩ := q; cases l <;> rfl

@[simp] theorem Device.updEc_medium (d : Device) (q : SeqId) (f : EcSt → EcSt) : (d.updEc q f).medium = d.medium := by obtain ⟨l, b⟩ := q; cases l <;> rfl

@[simp] theorem Device.updEc_elk (d : Device) (q : SeqId) (f : EcSt → EcSt) : (d.updEc q f).elk = d.elk := by obtain ⟨l, b⟩ := q; cases l <;> rfl

@[simp] theorem Device.updEc_shock1 (d : Device) (q : SeqId) (f : EcSt → EcSt) : (d.updEc q f).shock1 = d.shock1 := by obtain ⟨l, b⟩ := q; cases l <;> rfl

@[simp] theorem Device.updEc_shock2 (d : Device) (q : SeqId) (f : EcSt → EcSt) : (d.updEc q f).shock2 = d.shock2 := by obtain ⟨l, b⟩ := q; cases l <;> rfl

@[simp] theorem Device.updEc_shockInh (d : Device) (q : SeqId) (f : EcSt → EcSt) : (d.updEc q f).shockInh = d.shockInh := by obtain ⟨l, b⟩ := q; cases l <;> rfl

@[simp] theorem Device.updEc_spin (d : Device) (q : SeqId) (f : EcSt → EcSt) : (d.updEc q f).spin = d.spin := by obtain ⟨l, b⟩ := q; cases l <;> rfl

@[simp] theorem Device.updEc_out (d : Device) (q : SeqId) (f : EcSt → EcSt) : (d.updEc q f).out = d.out := by obtain ⟨l, b⟩ := q; cases l <;> rfl

@[simp] theorem Device.updEc_fresh (d : Device) (q : SeqId) (f : EcSt → EcSt) : (d.updEc q f).fresh = d.fresh := by obtain ⟨l, b⟩ := q; cases l <;> rfl

@[simp] theorem Device.updEc_same (d : Device) (q : SeqId) (f : EcSt → EcSt) : (d.updEc q f).ec q = f (d.ec q) := by
  obtain ⟨l, b⟩ := q; cases l <;> cases b <;> rfl

/-! ### updOp -/

@[simp] theorem Device.updOp_regs (d : Device) (q : SeqId) (f : EcOp → EcOp) : (d.updOp q f).regs = d.regs := by obtain ⟨l, b⟩ := q; cases l <;> rfl

@[simp] theorem Device.updOp_mem (d : Device) (q : SeqId) (f : EcOp → EcOp) : (d.updOp q f).mem = d.mem := by obtain ⟨l, b⟩ := q; cases l <;> rfl

@[simp] theorem Device.updOp_fabric (d : Device) (q : SeqId) (f : EcOp → EcOp) : (d.updOp q f).fabric = d.fabric := by obtain ⟨l, b⟩ := q; cases l <;> rfl

@[simp] theorem Device.updOp_pool (d : Device) (q : SeqId) (f : EcOp → EcOp) : (d.updOp q f).pool = d.pool := by obtain ⟨l, b⟩ := q; cases l <;> rfl

@[simp] theorem Device.updOp_hostL2 (d : Device) (q : SeqId) (f : EcOp → EcOp) : (d.updOp q f).hostL2 = d.hostL2 := by obtain ⟨l, b⟩ := q; cases l <;> rfl

@[simp] theorem Device.updOp_mediaL2a (d : Device) (q : SeqId) (f : EcOp → EcOp) : (d.updOp q f).mediaL2a = d.mediaL2a := by obtain ⟨l, b⟩ := q; cases l <;> rfl

@[simp] theorem Device.updOp_mediaL2b (d : Device) (q : SeqId) (f : EcOp → EcOp) : (d.updOp q f).mediaL2b = d.mediaL2b := by obtain ⟨l, b⟩ := q; cases l <;> rfl

@[simp] theorem Device.updOp_cipher (d : Device) (q : SeqId) (f : EcOp → EcOp) : (d.updOp q f).cipher = d.cipher := by obtain ⟨l, b⟩ := q; cases l <;> rfl

@[simp] theorem Device.updOp_keys (d : Device) (q : SeqId) (f : EcOp → EcOp) : (d.updOp q f).keys = d.keys := by obtain ⟨l, b⟩ := q; cases l <;> rfl

@[simp] theorem Device.updOp_power (d : Device) (q : SeqId) (f : EcOp → EcOp) : (d.updOp q f).power = d.power := by obtain ⟨l, b⟩ := q; cases l <;> rfl

@[simp] theorem Device.updOp_chron (d : Device) (q : SeqId) (f : EcOp → EcOp) : (d.updOp q f).chron = d.chron := by obtain ⟨l, b⟩ := q; cases l <;> rfl

@[simp] theorem Device.updOp_meters (d : Device) (q : SeqId) (f : EcOp → EcOp) : (d.updOp q f).meters = d.meters := by obtain ⟨l, b⟩ := q; cases l <;> rfl

@[simp] theorem Device.updOp_usage (d : Device) (q : SeqId) (f : EcOp → EcOp) : (d.updOp q f).usage = d.usage := by obtain ⟨l, b⟩ := q; cases l <;> rfl

@[simp] theorem Device.updOp_thermal (d : Device) (q : SeqId) (f : EcOp → EcOp) : (d.updOp q f).thermal = d.thermal := by obtain ⟨l, b⟩ := q; cases l <;> rfl

@[simp] theorem Device.updOp_thermRec (d : Device) (q : SeqId) (f : EcOp → EcOp) : (d.updOp q f).thermRec = d.thermRec := by obtain ⟨l, b⟩ := q; cases l <;> rfl

@[simp] theorem Device.updOp_cal (d : Device) (q : SeqId) (f : EcOp → EcOp) : (d.updOp q f).cal = d.cal := by obtain ⟨l, b⟩ := q; cases l <;> rfl

@[simp] theorem Device.updOp_duty (d : Device) (q : SeqId) (f : EcOp → EcOp) : (d.updOp q f).duty = d.duty := by obtain ⟨l, b⟩ := q; cases l <;> rfl

@[simp] theorem Device.updOp_logbook (d : Device) (q : SeqId) (f : EcOp → EcOp) : (d.updOp q f).logbook = d.logbook := by obtain ⟨l, b⟩ := q; cases l <;> rfl

@[simp] theorem Device.updOp_mirror (d : Device) (q : SeqId) (f : EcOp → EcOp) : (d.updOp q f).mirror = d.mirror := by obtain ⟨l, b⟩ := q; cases l <;> rfl

@[simp] theorem Device.updOp_boot (d : Device) (q : SeqId) (f : EcOp → EcOp) : (d.updOp q f).boot = d.boot := by obtain ⟨l, b⟩ := q; cases l <;> rfl

@[simp] theorem Device.updOp_crown (d : Device) (q : SeqId) (f : EcOp → EcOp) : (d.updOp q f).crown = d.crown := by obtain ⟨l, b⟩ := q; cases l <;> rfl

@[simp] theorem Device.updOp_nor (d : Device) (q : SeqId) (f : EcOp → EcOp) : (d.updOp q f).nor = d.nor := by obtain ⟨l, b⟩ := q; cases l <;> rfl

@[simp] theorem Device.updOp_otp (d : Device) (q : SeqId) (f : EcOp → EcOp) : (d.updOp q f).otp = d.otp := by obtain ⟨l, b⟩ := q; cases l <;> rfl

@[simp] theorem Device.updOp_aon (d : Device) (q : SeqId) (f : EcOp → EcOp) : (d.updOp q f).aon = d.aon := by obtain ⟨l, b⟩ := q; cases l <;> rfl

@[simp] theorem Device.updOp_emret (d : Device) (q : SeqId) (f : EcOp → EcOp) : (d.updOp q f).emret = d.emret := by obtain ⟨l, b⟩ := q; cases l <;> rfl

@[simp] theorem Device.updOp_emretCause (d : Device) (q : SeqId) (f : EcOp → EcOp) : (d.updOp q f).emretCause = d.emretCause := by obtain ⟨l, b⟩ := q; cases l <;> rfl

@[simp] theorem Device.updOp_critical (d : Device) (q : SeqId) (f : EcOp → EcOp) : (d.updOp q f).critical = d.critical := by obtain ⟨l, b⟩ := q; cases l <;> rfl

@[simp] theorem Device.updOp_hnor (d : Device) (q : SeqId) (f : EcOp → EcOp) : (d.updOp q f).hnor = d.hnor := by obtain ⟨l, b⟩ := q; cases l <;> rfl

@[simp] theorem Device.updOp_host (d : Device) (q : SeqId) (f : EcOp → EcOp) : (d.updOp q f).host = d.host := by obtain ⟨l, b⟩ := q; cases l <;> rfl

@[simp] theorem Device.updOp_medium (d : Device) (q : SeqId) (f : EcOp → EcOp) : (d.updOp q f).medium = d.medium := by obtain ⟨l, b⟩ := q; cases l <;> rfl

@[simp] theorem Device.updOp_elk (d : Device) (q : SeqId) (f : EcOp → EcOp) : (d.updOp q f).elk = d.elk := by obtain ⟨l, b⟩ := q; cases l <;> rfl

@[simp] theorem Device.updOp_shock1 (d : Device) (q : SeqId) (f : EcOp → EcOp) : (d.updOp q f).shock1 = d.shock1 := by obtain ⟨l, b⟩ := q; cases l <;> rfl

@[simp] theorem Device.updOp_shock2 (d : Device) (q : SeqId) (f : EcOp → EcOp) : (d.updOp q f).shock2 = d.shock2 := by obtain ⟨l, b⟩ := q; cases l <;> rfl

@[simp] theorem Device.updOp_shockInh (d : Device) (q : SeqId) (f : EcOp → EcOp) : (d.updOp q f).shockInh = d.shockInh := by obtain ⟨l, b⟩ := q; cases l <;> rfl

@[simp] theorem Device.updOp_spin (d : Device) (q : SeqId) (f : EcOp → EcOp) : (d.updOp q f).spin = d.spin := by obtain ⟨l, b⟩ := q; cases l <;> rfl

@[simp] theorem Device.updOp_out (d : Device) (q : SeqId) (f : EcOp → EcOp) : (d.updOp q f).out = d.out := by obtain ⟨l, b⟩ := q; cases l <;> rfl

@[simp] theorem Device.updOp_fresh (d : Device) (q : SeqId) (f : EcOp → EcOp) : (d.updOp q f).fresh = d.fresh := by obtain ⟨l, b⟩ := q; cases l <;> rfl

@[simp] theorem Device.updOp_same (d : Device) (q : SeqId) (f : EcOp → EcOp) : ((d.updOp q f).ec q).op = (d.ec q).op.map f := by
  obtain ⟨l, b⟩ := q; cases l <;> cases b <;> rfl

/-! ### updBe -/

@[simp] theorem Device.updBe_regs (d : Device) (e : BEng) (f : BeSt → BeSt) : (d.updBe e f).regs = d.regs := by
  rcases e with l | _
  · cases l <;> rfl
  · rfl

@[simp] theorem Device.updBe_mem (d : Device) (e : BEng) (f : BeSt → BeSt) : (d.updBe e f).mem = d.mem := by
  rcases e with l | _
  · cases l <;> rfl
  · rfl

@[simp] theorem Device.updBe_fabric (d : Device) (e : BEng) (f : BeSt → BeSt) : (d.updBe e f).fabric = d.fabric := by
  rcases e with l | _
  · cases l <;> rfl
  · rfl

@[simp] theorem Device.updBe_pool (d : Device) (e : BEng) (f : BeSt → BeSt) : (d.updBe e f).pool = d.pool := by
  rcases e with l | _
  · cases l <;> rfl
  · rfl

@[simp] theorem Device.updBe_hostL2 (d : Device) (e : BEng) (f : BeSt → BeSt) : (d.updBe e f).hostL2 = d.hostL2 := by
  rcases e with l | _
  · cases l <;> rfl
  · rfl

@[simp] theorem Device.updBe_mediaL2a (d : Device) (e : BEng) (f : BeSt → BeSt) : (d.updBe e f).mediaL2a = d.mediaL2a := by
  rcases e with l | _
  · cases l <;> rfl
  · rfl

@[simp] theorem Device.updBe_mediaL2b (d : Device) (e : BEng) (f : BeSt → BeSt) : (d.updBe e f).mediaL2b = d.mediaL2b := by
  rcases e with l | _
  · cases l <;> rfl
  · rfl

@[simp] theorem Device.updBe_cipher (d : Device) (e : BEng) (f : BeSt → BeSt) : (d.updBe e f).cipher = d.cipher := by
  rcases e with l | _
  · cases l <;> rfl
  · rfl

@[simp] theorem Device.updBe_keys (d : Device) (e : BEng) (f : BeSt → BeSt) : (d.updBe e f).keys = d.keys := by
  rcases e with l | _
  · cases l <;> rfl
  · rfl

@[simp] theorem Device.updBe_power (d : Device) (e : BEng) (f : BeSt → BeSt) : (d.updBe e f).power = d.power := by
  rcases e with l | _
  · cases l <;> rfl
  · rfl

@[simp] theorem Device.updBe_chron (d : Device) (e : BEng) (f : BeSt → BeSt) : (d.updBe e f).chron = d.chron := by
  rcases e with l | _
  · cases l <;> rfl
  · rfl

@[simp] theorem Device.updBe_meters (d : Device) (e : BEng) (f : BeSt → BeSt) : (d.updBe e f).meters = d.meters := by
  rcases e with l | _
  · cases l <;> rfl
  · rfl

@[simp] theorem Device.updBe_usage (d : Device) (e : BEng) (f : BeSt → BeSt) : (d.updBe e f).usage = d.usage := by
  rcases e with l | _
  · cases l <;> rfl
  · rfl

@[simp] theorem Device.updBe_thermal (d : Device) (e : BEng) (f : BeSt → BeSt) : (d.updBe e f).thermal = d.thermal := by
  rcases e with l | _
  · cases l <;> rfl
  · rfl

@[simp] theorem Device.updBe_thermRec (d : Device) (e : BEng) (f : BeSt → BeSt) : (d.updBe e f).thermRec = d.thermRec := by
  rcases e with l | _
  · cases l <;> rfl
  · rfl

@[simp] theorem Device.updBe_cal (d : Device) (e : BEng) (f : BeSt → BeSt) : (d.updBe e f).cal = d.cal := by
  rcases e with l | _
  · cases l <;> rfl
  · rfl

@[simp] theorem Device.updBe_duty (d : Device) (e : BEng) (f : BeSt → BeSt) : (d.updBe e f).duty = d.duty := by
  rcases e with l | _
  · cases l <;> rfl
  · rfl

@[simp] theorem Device.updBe_logbook (d : Device) (e : BEng) (f : BeSt → BeSt) : (d.updBe e f).logbook = d.logbook := by
  rcases e with l | _
  · cases l <;> rfl
  · rfl

@[simp] theorem Device.updBe_mirror (d : Device) (e : BEng) (f : BeSt → BeSt) : (d.updBe e f).mirror = d.mirror := by
  rcases e with l | _
  · cases l <;> rfl
  · rfl

@[simp] theorem Device.updBe_boot (d : Device) (e : BEng) (f : BeSt → BeSt) : (d.updBe e f).boot = d.boot := by
  rcases e with l | _
  · cases l <;> rfl
  · rfl

@[simp] theorem Device.updBe_crown (d : Device) (e : BEng) (f : BeSt → BeSt) : (d.updBe e f).crown = d.crown := by
  rcases e with l | _
  · cases l <;> rfl
  · rfl

@[simp] theorem Device.updBe_nor (d : Device) (e : BEng) (f : BeSt → BeSt) : (d.updBe e f).nor = d.nor := by
  rcases e with l | _
  · cases l <;> rfl
  · rfl

@[simp] theorem Device.updBe_otp (d : Device) (e : BEng) (f : BeSt → BeSt) : (d.updBe e f).otp = d.otp := by
  rcases e with l | _
  · cases l <;> rfl
  · rfl

@[simp] theorem Device.updBe_aon (d : Device) (e : BEng) (f : BeSt → BeSt) : (d.updBe e f).aon = d.aon := by
  rcases e with l | _
  · cases l <;> rfl
  · rfl

@[simp] theorem Device.updBe_emret (d : Device) (e : BEng) (f : BeSt → BeSt) : (d.updBe e f).emret = d.emret := by
  rcases e with l | _
  · cases l <;> rfl
  · rfl

@[simp] theorem Device.updBe_emretCause (d : Device) (e : BEng) (f : BeSt → BeSt) : (d.updBe e f).emretCause = d.emretCause := by
  rcases e with l | _
  · cases l <;> rfl
  · rfl

@[simp] theorem Device.updBe_critical (d : Device) (e : BEng) (f : BeSt → BeSt) : (d.updBe e f).critical = d.critical := by
  rcases e with l | _
  · cases l <;> rfl
  · rfl

@[simp] theorem Device.updBe_hnor (d : Device) (e : BEng) (f : BeSt → BeSt) : (d.updBe e f).hnor = d.hnor := by
  rcases e with l | _
  · cases l <;> rfl
  · rfl

@[simp] theorem Device.updBe_host (d : Device) (e : BEng) (f : BeSt → BeSt) : (d.updBe e f).host = d.host := by
  rcases e with l | _
  · cases l <;> rfl
  · rfl

@[simp] theorem Device.updBe_medium (d : Device) (e : BEng) (f : BeSt → BeSt) : (d.updBe e f).medium = d.medium := by
  rcases e with l | _
  · cases l <;> rfl
  · rfl

@[simp] theorem Device.updBe_elk (d : Device) (e : BEng) (f : BeSt → BeSt) : (d.updBe e f).elk = d.elk := by
  rcases e with l | _
  · cases l <;> rfl
  · rfl

@[simp] theorem Device.updBe_shock1 (d : Device) (e : BEng) (f : BeSt → BeSt) : (d.updBe e f).shock1 = d.shock1 := by
  rcases e with l | _
  · cases l <;> rfl
  · rfl

@[simp] theorem Device.updBe_shock2 (d : Device) (e : BEng) (f : BeSt → BeSt) : (d.updBe e f).shock2 = d.shock2 := by
  rcases e with l | _
  · cases l <;> rfl
  · rfl

@[simp] theorem Device.updBe_shockInh (d : Device) (e : BEng) (f : BeSt → BeSt) : (d.updBe e f).shockInh = d.shockInh := by
  rcases e with l | _
  · cases l <;> rfl
  · rfl

@[simp] theorem Device.updBe_out (d : Device) (e : BEng) (f : BeSt → BeSt) : (d.updBe e f).out = d.out := by
  rcases e with l | _
  · cases l <;> rfl
  · rfl

@[simp] theorem Device.updBe_fresh (d : Device) (e : BEng) (f : BeSt → BeSt) : (d.updBe e f).fresh = d.fresh := by
  rcases e with l | _
  · cases l <;> rfl
  · rfl

@[simp] theorem Device.updBe_same (d : Device) (e : BEng) (f : BeSt → BeSt) : (d.updBe e f).be e = f (d.be e) := by
  rcases e with l | _
  · cases l <;> rfl
  · rfl

/-! ### logRaw -/

@[simp] theorem Device.logRaw_mem (d : Device) (src code sev sup : Nat) (ps : List Nat) : (d.logRaw src code sev sup ps).mem = d.mem := by
  unfold Device.logRaw
  split
  · rfl
  · split <;> rfl

@[simp] theorem Device.logRaw_fabric (d : Device) (src code sev sup : Nat) (ps : List Nat) : (d.logRaw src code sev sup ps).fabric = d.fabric := by
  unfold Device.logRaw
  split
  · rfl
  · split <;> rfl

@[simp] theorem Device.logRaw_pool (d : Device) (src code sev sup : Nat) (ps : List Nat) : (d.logRaw src code sev sup ps).pool = d.pool := by
  unfold Device.logRaw
  split
  · rfl
  · split <;> rfl

@[simp] theorem Device.logRaw_hostL2 (d : Device) (src code sev sup : Nat) (ps : List Nat) : (d.logRaw src code sev sup ps).hostL2 = d.hostL2 := by
  unfold Device.logRaw
  split
  · rfl
  · split <;> rfl

@[simp] theorem Device.logRaw_mediaL2a (d : Device) (src code sev sup : Nat) (ps : List Nat) : (d.logRaw src code sev sup ps).mediaL2a = d.mediaL2a := by
  unfold Device.logRaw
  split
  · rfl
  · split <;> rfl

@[simp] theorem Device.logRaw_mediaL2b (d : Device) (src code sev sup : Nat) (ps : List Nat) : (d.logRaw src code sev sup ps).mediaL2b = d.mediaL2b := by
  unfold Device.logRaw
  split
  · rfl
  · split <;> rfl

@[simp] theorem Device.logRaw_cipher (d : Device) (src code sev sup : Nat) (ps : List Nat) : (d.logRaw src code sev sup ps).cipher = d.cipher := by
  unfold Device.logRaw
  split
  · rfl
  · split <;> rfl

@[simp] theorem Device.logRaw_keys (d : Device) (src code sev sup : Nat) (ps : List Nat) : (d.logRaw src code sev sup ps).keys = d.keys := by
  unfold Device.logRaw
  split
  · rfl
  · split <;> rfl

@[simp] theorem Device.logRaw_power (d : Device) (src code sev sup : Nat) (ps : List Nat) : (d.logRaw src code sev sup ps).power = d.power := by
  unfold Device.logRaw
  split
  · rfl
  · split <;> rfl

@[simp] theorem Device.logRaw_chron (d : Device) (src code sev sup : Nat) (ps : List Nat) : (d.logRaw src code sev sup ps).chron = d.chron := by
  unfold Device.logRaw
  split
  · rfl
  · split <;> rfl

@[simp] theorem Device.logRaw_meters (d : Device) (src code sev sup : Nat) (ps : List Nat) : (d.logRaw src code sev sup ps).meters = d.meters := by
  unfold Device.logRaw
  split
  · rfl
  · split <;> rfl

@[simp] theorem Device.logRaw_usage (d : Device) (src code sev sup : Nat) (ps : List Nat) : (d.logRaw src code sev sup ps).usage = d.usage := by
  unfold Device.logRaw
  split
  · rfl
  · split <;> rfl

@[simp] theorem Device.logRaw_thermal (d : Device) (src code sev sup : Nat) (ps : List Nat) : (d.logRaw src code sev sup ps).thermal = d.thermal := by
  unfold Device.logRaw
  split
  · rfl
  · split <;> rfl

@[simp] theorem Device.logRaw_thermRec (d : Device) (src code sev sup : Nat) (ps : List Nat) : (d.logRaw src code sev sup ps).thermRec = d.thermRec := by
  unfold Device.logRaw
  split
  · rfl
  · split <;> rfl

@[simp] theorem Device.logRaw_cal (d : Device) (src code sev sup : Nat) (ps : List Nat) : (d.logRaw src code sev sup ps).cal = d.cal := by
  unfold Device.logRaw
  split
  · rfl
  · split <;> rfl

@[simp] theorem Device.logRaw_duty (d : Device) (src code sev sup : Nat) (ps : List Nat) : (d.logRaw src code sev sup ps).duty = d.duty := by
  unfold Device.logRaw
  split
  · rfl
  · split <;> rfl

@[simp] theorem Device.logRaw_mirror (d : Device) (src code sev sup : Nat) (ps : List Nat) : (d.logRaw src code sev sup ps).mirror = d.mirror := by
  unfold Device.logRaw
  split
  · rfl
  · split <;> rfl

@[simp] theorem Device.logRaw_boot (d : Device) (src code sev sup : Nat) (ps : List Nat) : (d.logRaw src code sev sup ps).boot = d.boot := by
  unfold Device.logRaw
  split
  · rfl
  · split <;> rfl

@[simp] theorem Device.logRaw_crown (d : Device) (src code sev sup : Nat) (ps : List Nat) : (d.logRaw src code sev sup ps).crown = d.crown := by
  unfold Device.logRaw
  split
  · rfl
  · split <;> rfl

@[simp] theorem Device.logRaw_otp (d : Device) (src code sev sup : Nat) (ps : List Nat) : (d.logRaw src code sev sup ps).otp = d.otp := by
  unfold Device.logRaw
  split
  · rfl
  · split <;> rfl

@[simp] theorem Device.logRaw_aon (d : Device) (src code sev sup : Nat) (ps : List Nat) : (d.logRaw src code sev sup ps).aon = d.aon := by
  unfold Device.logRaw
  split
  · rfl
  · split <;> rfl

@[simp] theorem Device.logRaw_emret (d : Device) (src code sev sup : Nat) (ps : List Nat) : (d.logRaw src code sev sup ps).emret = d.emret := by
  unfold Device.logRaw
  split
  · rfl
  · split <;> rfl

@[simp] theorem Device.logRaw_emretCause (d : Device) (src code sev sup : Nat) (ps : List Nat) : (d.logRaw src code sev sup ps).emretCause = d.emretCause := by
  unfold Device.logRaw
  split
  · rfl
  · split <;> rfl

@[simp] theorem Device.logRaw_critical (d : Device) (src code sev sup : Nat) (ps : List Nat) : (d.logRaw src code sev sup ps).critical = d.critical := by
  unfold Device.logRaw
  split
  · rfl
  · split <;> rfl

@[simp] theorem Device.logRaw_hnor (d : Device) (src code sev sup : Nat) (ps : List Nat) : (d.logRaw src code sev sup ps).hnor = d.hnor := by
  unfold Device.logRaw
  split
  · rfl
  · split <;> rfl

@[simp] theorem Device.logRaw_host (d : Device) (src code sev sup : Nat) (ps : List Nat) : (d.logRaw src code sev sup ps).host = d.host := by
  unfold Device.logRaw
  split
  · rfl
  · split <;> rfl

@[simp] theorem Device.logRaw_medium (d : Device) (src code sev sup : Nat) (ps : List Nat) : (d.logRaw src code sev sup ps).medium = d.medium := by
  unfold Device.logRaw
  split
  · rfl
  · split <;> rfl

@[simp] theorem Device.logRaw_elk (d : Device) (src code sev sup : Nat) (ps : List Nat) : (d.logRaw src code sev sup ps).elk = d.elk := by
  unfold Device.logRaw
  split
  · rfl
  · split <;> rfl

@[simp] theorem Device.logRaw_shock1 (d : Device) (src code sev sup : Nat) (ps : List Nat) : (d.logRaw src code sev sup ps).shock1 = d.shock1 := by
  unfold Device.logRaw
  split
  · rfl
  · split <;> rfl

@[simp] theorem Device.logRaw_shock2 (d : Device) (src code sev sup : Nat) (ps : List Nat) : (d.logRaw src code sev sup ps).shock2 = d.shock2 := by
  unfold Device.logRaw
  split
  · rfl
  · split <;> rfl

@[simp] theorem Device.logRaw_shockInh (d : Device) (src code sev sup : Nat) (ps : List Nat) : (d.logRaw src code sev sup ps).shockInh = d.shockInh := by
  unfold Device.logRaw
  split
  · rfl
  · split <;> rfl

@[simp] theorem Device.logRaw_lane0 (d : Device) (src code sev sup : Nat) (ps : List Nat) : (d.logRaw src code sev sup ps).lane0 = d.lane0 := by
  unfold Device.logRaw
  split
  · rfl
  · split <;> rfl

@[simp] theorem Device.logRaw_lane1 (d : Device) (src code sev sup : Nat) (ps : List Nat) : (d.logRaw src code sev sup ps).lane1 = d.lane1 := by
  unfold Device.logRaw
  split
  · rfl
  · split <;> rfl

@[simp] theorem Device.logRaw_spin (d : Device) (src code sev sup : Nat) (ps : List Nat) : (d.logRaw src code sev sup ps).spin = d.spin := by
  unfold Device.logRaw
  split
  · rfl
  · split <;> rfl

@[simp] theorem Device.logRaw_out (d : Device) (src code sev sup : Nat) (ps : List Nat) : (d.logRaw src code sev sup ps).out = d.out := by
  unfold Device.logRaw
  split
  · rfl
  · split <;> rfl

@[simp] theorem Device.logRaw_fresh (d : Device) (src code sev sup : Nat) (ps : List Nat) : (d.logRaw src code sev sup ps).fresh = d.fresh := by
  unfold Device.logRaw
  split
  · rfl
  · split <;> rfl

/-- Posting an entry changes at most one register: RG_LOGSTAT, where the count of dropped entries stands. -/
theorem Device.logRaw_word (d : Device) (src code sev sup : Nat) (ps : List Nat) {a : Nat} (h : a ≠ RG_LOGSTAT) :
    (d.logRaw src code sev sup ps).word a = d.word a := by
  unfold Device.logRaw
  split
  · rfl
  · split
    · exact Device.word_wr_other _ RG_LOGSTAT_DROP _ h
    · rfl

/-- An entry posted while the FIFO has a free place, out of recovery mode. -/
theorem Device.logRaw_fifo (d : Device) (src code sev sup : Nat) (ps : List Nat) (hr : d.boot.phase ≠ .recovery) (hf : d.logFull = false) :
    (d.logRaw src code sev sup ps).logbook.fifo = d.logbook.fifo ++ [d.logEntry src code sev sup ps] := by
  unfold Device.logRaw
  rw [if_neg hr, if_neg (by simp [hf])]

/-! ### log -/

@[simp] theorem Device.log_mem (d : Device) (src code : Nat) (ps : List Nat) : (d.log src code ps).mem = d.mem := Device.logRaw_mem d _ _ _ _ _

@[simp] theorem Device.log_fabric (d : Device) (src code : Nat) (ps : List Nat) : (d.log src code ps).fabric = d.fabric := Device.logRaw_fabric d _ _ _ _ _

@[simp] theorem Device.log_pool (d : Device) (src code : Nat) (ps : List Nat) : (d.log src code ps).pool = d.pool := Device.logRaw_pool d _ _ _ _ _

@[simp] theorem Device.log_hostL2 (d : Device) (src code : Nat) (ps : List Nat) : (d.log src code ps).hostL2 = d.hostL2 := Device.logRaw_hostL2 d _ _ _ _ _

@[simp] theorem Device.log_mediaL2a (d : Device) (src code : Nat) (ps : List Nat) : (d.log src code ps).mediaL2a = d.mediaL2a := Device.logRaw_mediaL2a d _ _ _ _ _

@[simp] theorem Device.log_mediaL2b (d : Device) (src code : Nat) (ps : List Nat) : (d.log src code ps).mediaL2b = d.mediaL2b := Device.logRaw_mediaL2b d _ _ _ _ _

@[simp] theorem Device.log_cipher (d : Device) (src code : Nat) (ps : List Nat) : (d.log src code ps).cipher = d.cipher := Device.logRaw_cipher d _ _ _ _ _

@[simp] theorem Device.log_keys (d : Device) (src code : Nat) (ps : List Nat) : (d.log src code ps).keys = d.keys := Device.logRaw_keys d _ _ _ _ _

@[simp] theorem Device.log_power (d : Device) (src code : Nat) (ps : List Nat) : (d.log src code ps).power = d.power := Device.logRaw_power d _ _ _ _ _

@[simp] theorem Device.log_chron (d : Device) (src code : Nat) (ps : List Nat) : (d.log src code ps).chron = d.chron := Device.logRaw_chron d _ _ _ _ _

@[simp] theorem Device.log_meters (d : Device) (src code : Nat) (ps : List Nat) : (d.log src code ps).meters = d.meters := Device.logRaw_meters d _ _ _ _ _

@[simp] theorem Device.log_usage (d : Device) (src code : Nat) (ps : List Nat) : (d.log src code ps).usage = d.usage := Device.logRaw_usage d _ _ _ _ _

@[simp] theorem Device.log_thermal (d : Device) (src code : Nat) (ps : List Nat) : (d.log src code ps).thermal = d.thermal := Device.logRaw_thermal d _ _ _ _ _

@[simp] theorem Device.log_thermRec (d : Device) (src code : Nat) (ps : List Nat) : (d.log src code ps).thermRec = d.thermRec := Device.logRaw_thermRec d _ _ _ _ _

@[simp] theorem Device.log_cal (d : Device) (src code : Nat) (ps : List Nat) : (d.log src code ps).cal = d.cal := Device.logRaw_cal d _ _ _ _ _

@[simp] theorem Device.log_duty (d : Device) (src code : Nat) (ps : List Nat) : (d.log src code ps).duty = d.duty := Device.logRaw_duty d _ _ _ _ _

@[simp] theorem Device.log_mirror (d : Device) (src code : Nat) (ps : List Nat) : (d.log src code ps).mirror = d.mirror := Device.logRaw_mirror d _ _ _ _ _

@[simp] theorem Device.log_boot (d : Device) (src code : Nat) (ps : List Nat) : (d.log src code ps).boot = d.boot := Device.logRaw_boot d _ _ _ _ _

@[simp] theorem Device.log_crown (d : Device) (src code : Nat) (ps : List Nat) : (d.log src code ps).crown = d.crown := Device.logRaw_crown d _ _ _ _ _

@[simp] theorem Device.log_otp (d : Device) (src code : Nat) (ps : List Nat) : (d.log src code ps).otp = d.otp := Device.logRaw_otp d _ _ _ _ _

@[simp] theorem Device.log_aon (d : Device) (src code : Nat) (ps : List Nat) : (d.log src code ps).aon = d.aon := Device.logRaw_aon d _ _ _ _ _

@[simp] theorem Device.log_emret (d : Device) (src code : Nat) (ps : List Nat) : (d.log src code ps).emret = d.emret := Device.logRaw_emret d _ _ _ _ _

@[simp] theorem Device.log_emretCause (d : Device) (src code : Nat) (ps : List Nat) : (d.log src code ps).emretCause = d.emretCause := Device.logRaw_emretCause d _ _ _ _ _

@[simp] theorem Device.log_critical (d : Device) (src code : Nat) (ps : List Nat) : (d.log src code ps).critical = d.critical := Device.logRaw_critical d _ _ _ _ _

@[simp] theorem Device.log_hnor (d : Device) (src code : Nat) (ps : List Nat) : (d.log src code ps).hnor = d.hnor := Device.logRaw_hnor d _ _ _ _ _

@[simp] theorem Device.log_host (d : Device) (src code : Nat) (ps : List Nat) : (d.log src code ps).host = d.host := Device.logRaw_host d _ _ _ _ _

@[simp] theorem Device.log_medium (d : Device) (src code : Nat) (ps : List Nat) : (d.log src code ps).medium = d.medium := Device.logRaw_medium d _ _ _ _ _

@[simp] theorem Device.log_elk (d : Device) (src code : Nat) (ps : List Nat) : (d.log src code ps).elk = d.elk := Device.logRaw_elk d _ _ _ _ _

@[simp] theorem Device.log_shock1 (d : Device) (src code : Nat) (ps : List Nat) : (d.log src code ps).shock1 = d.shock1 := Device.logRaw_shock1 d _ _ _ _ _

@[simp] theorem Device.log_shock2 (d : Device) (src code : Nat) (ps : List Nat) : (d.log src code ps).shock2 = d.shock2 := Device.logRaw_shock2 d _ _ _ _ _

@[simp] theorem Device.log_shockInh (d : Device) (src code : Nat) (ps : List Nat) : (d.log src code ps).shockInh = d.shockInh := Device.logRaw_shockInh d _ _ _ _ _

@[simp] theorem Device.log_lane0 (d : Device) (src code : Nat) (ps : List Nat) : (d.log src code ps).lane0 = d.lane0 := Device.logRaw_lane0 d _ _ _ _ _

@[simp] theorem Device.log_lane1 (d : Device) (src code : Nat) (ps : List Nat) : (d.log src code ps).lane1 = d.lane1 := Device.logRaw_lane1 d _ _ _ _ _

@[simp] theorem Device.log_spin (d : Device) (src code : Nat) (ps : List Nat) : (d.log src code ps).spin = d.spin := Device.logRaw_spin d _ _ _ _ _

@[simp] theorem Device.log_out (d : Device) (src code : Nat) (ps : List Nat) : (d.log src code ps).out = d.out := Device.logRaw_out d _ _ _ _ _

@[simp] theorem Device.log_fresh (d : Device) (src code : Nat) (ps : List Nat) : (d.log src code ps).fresh = d.fresh := Device.logRaw_fresh d _ _ _ _ _

theorem Device.log_word (d : Device) (src code : Nat) (ps : List Nat) {a : Nat} (h : a ≠ RG_LOGSTAT) : (d.log src code ps).word a = d.word a :=
  Device.logRaw_word d src code _ 0 ps h

end Sys2Proof.Machine
end

