-- ==== Sys2Proof/Machine/Framing.lean ====
section
/-!
DEFINITION. What a sector is on the medium and in fitted DRAM: the seal and information block, the randomiser, the code's parity checks, the
frame, its split at a servo wedge, its place in the data areas, precompensation, and the place of visible bytes in fitted DRAM (R172 to R176,
R222, R223, R315, R343). The commands take what the analogue world makes of a sector as an observation; these definitions say what is written.
-/
namespace Sys2Proof.Machine

/-! ### Seal and information block (R174) -/

/-- The 16-byte seal of a sector's 4,096 stored bytes (R174). -/
def sealOf (data band slot head kind : Nat) : Nat :=
  crc32cNum 4096 data + (band % 2 ^ 32) * 2 ^ 32 + (slot % 2 ^ 32) * 2 ^ 64 + (head % 256) * 2 ^ 96 + (kind % 256) * 2 ^ 104

/-- The 4,112 bytes of the information block (R174). -/
def infoBlock (data band slot head kind : Nat) : Nat := data % 2 ^ 32768 + sealOf data band slot head kind * 2 ^ 32768

/-- The seal of an information block matches its stored bytes, band and slot (R177). -/
def sealMatches (info band slot : Nat) : Bool :=
  bitsOf info 32768 32 == crc32cNum 4096 (bitsOf info 0 32768) && bitsOf info 32800 32 == band % 2 ^ 32
    && bitsOf info 32832 32 == slot % 2 ^ 32

/-! ### Randomiser (R175) -/

/-- One step of the generator x^23 + x^18 + 1: the next register and the bit put out. DEDUCED: the bit shifted out is the output and the feedback
enters at bit 0; the rule names only the polynomial and the seed. -/
def lfsrStep (r : Nat) : Nat × Bool :=
  let out := r.testBit 22
  let fb := xor out (r.testBit 17)
  ((2 * r) % 2 ^ 23 + (if fb then 1 else 0), out)

/-- The generator's next `n` bits, the first in bit 0. -/
def lfsrBits : Nat → Nat → Nat
  | 0, _ => 0
  | n + 1, r => (if (lfsrStep r).2 then 1 else 0) + 2 * lfsrBits n (lfsrStep r).1

/-- The seed of a slot: never 0 (R175). -/
def randomSeed (slot : Nat) : Nat := 2 * (slot % 2 ^ 22) + 1

/-- The information block randomised, or a randomised one restored (R175). -/
def randomise (slot info : Nat) : Nat := info ^^^ lfsrBits 32896 (randomSeed slot)

/-! ### The code (R176) -/

/-- Block rows of a code-rate index. -/
def ldpcRows (rate : Nat) : Nat := if rate = 0 then 11 else if rate = 1 then 8 else 6

/-- The circulant of information block column `j` in block row `i`: its shift, or none where the block is zero (R176). -/
def infoShift (m i j : Nat) : Option Nat :=
  if (5 * j + i) % m < 4 then some ((37 * (i + 1) * (j + 1) + 11 * i * i) % 512) else none

/-- Bit `r` of block row `i` of the information part of H times the information bits (R176). -/
def infoCheck (m info i r : Nat) : Bool :=
  (List.range 65).foldl (fun acc j =>
    match infoShift m i j with
    | none => acc
    | some s => xor acc (info.testBit (512 * j + (r + s) % 512))) false

/-- Parity by back-substitution, block row by block row: the 512 bits of the parity block of row `i` (R176). -/
def parityBlock (m info : Nat) : Nat → Nat
  | 0 => (List.range 512).foldl (fun v r => v + (if infoCheck m info 0 r then 2 ^ r else 0)) 0
  | i + 1 => (List.range 512).foldl (fun v r => v + (if infoCheck m info (i + 1) r then 2 ^ r else 0)) 0 ^^^ parityBlock m info i

/-- Bit `r` of block row `i` of H times a codeword: 0 throughout in a codeword (R176). -/
def checkBit (m info : Nat) (parity : Nat → Nat) (i r : Nat) : Bool :=
  xor (infoCheck m info i r) (xor ((parity i).testBit r) (if i = 0 then false else (parity (i - 1)).testBit r))

/-- Codeword bits written: 512 N − 384 (R172, R176). -/
def codewordLen (rate : Nat) : Nat := 512 * (65 + ldpcRows rate) - 384

/-! ### The frame (R172, R173, R223) -/

/-- Bits of a sector's frame that no wedge splits: preamble, sync mark, codeword, pad (R172). -/
def frameLen (pre rate : Nat) : Nat := pre + 20 + codewordLen rate + 16

/-- The sync mark, most significant bit first, and the resync field's length: 64 preamble bits and the mark (R172, R173). -/
def syncMark : Nat := 0x3A5E1
def resyncLen : Nat := 64 + 20

/-- Bit `i` of the preamble: 0b1100 repeated (R172). -/
def preambleBit (i : Nat) : Bool := decide (i % 4 < 2)

/-! ### Where sectors lie (R315) -/

/-- Where a sector that would start at a bit of a data area starts: fewer than MINFRAG bits left take it to the next area. -/
def FrameEntry.startAt (f : FrameEntry) (p : Nat × Nat) : Nat × Nat := if f.area - p.2 < f.minfrag then (p.1 + 1, 0) else p

/-- Whether the sector that starts there is split: it does not fit in the rest of its area. -/
def FrameEntry.splitAt (f : FrameEntry) (p : Nat × Nat) : Bool := decide (f.area < p.2 + f.slen)

/-- The bit after the sector: a split one ends its area with the 16-bit pad and goes on after the resync field. -/
def FrameEntry.endOf (f : FrameEntry) (p : Nat × Nat) : Nat × Nat :=
  if f.splitAt p then (p.1 + 1, resyncLen + (f.slen + 16 - (f.area - p.2))) else (p.1, p.2 + f.slen)

/-- Data area and first bit of a track's sector `k`; skipped positions keep their place. -/
def FrameEntry.sectorAt (f : FrameEntry) : Nat → Nat × Nat
  | 0 => f.startAt (0, f.ofs0)
  | k + 1 => f.startAt (f.endOf (f.sectorAt k))

/-! ### Precompensation (R222) -/

/-- The delay of a transition, in 1/64 bit, by the distance in bits to the transition before it. -/
def WEntry.precomp (e : WEntry) (gap : Nat) : Nat :=
  if gap = 1 then e.pc1 else if gap = 2 then e.pc2 else if gap = 3 then e.pc3 else 0

/-! ### Inline ECC (R343) -/

/-- The fitted address of visible byte `v` of DRAM, and of the check byte of the word it lies in. -/
def fittedAddr (v : Nat) : Nat := 512 * (v / 448) + v % 448
def fittedCheck (v : Nat) : Nat := 512 * (v / 448) + 448 + v % 448 / 8

end Sys2Proof.Machine
end

