-- ==== Sys2Proof/WellFormed.lean ====
section
/-!
DEFINITION. Which commands are well formed: every numeric operand lies in the width or range the spec gives it. An operand the spec gives no
width, an observation and a truth value are always well formed. A meaning does not consult this check: it takes any operand.
-/
namespace Sys2Proof
open Sys2Proof.Machine

/-- The operands of a command lie in their ranges. -/
def Instr.wf (i : Instr) : Bool :=
  match i with
  | .pllLockLoss => true
  | .fabricRequest _ _ _ _ addr _ _ => decide (addr < 2 ^ 40)
  | .arbitrationGrant _ => true
  | .servicePortForcedGrant _ => true
  | .fabricResponseTimeout _ => true
  | .lateResponseDiscard _ => true
  | .registerWrite _ addr size _ => decide (addr < 2 ^ 40) && decide (size < 65537)
  | .rcRegisterRead _ addr size => decide (addr < 2 ^ 40) && decide (size < 65537)
  | .powerOnReset _ => true
  | .resetNAssert _ => true
  | .rootPllLock _ => true
  | .oprokCalibreVerdict _ => true
  | .oprokVerdictTimeout => true
  | .cbCtrlLockWrite _ _ => true
  | .dramSectionsLoaded => true
  | .sramFillComplete => true
  | .dramTrainingComplete _ => true
  | .dramRegionFilled _ => true
  | .perstAssert port => decide (port < 2)
  | .perstDeassert port => decide (port < 2)
  | .linkTrained port gen width => decide (port < 2) && decide (gen < 6) && decide (width < 3)
  | .linkDown port => decide (port < 2)
  | .configRequest port => decide (port < 2)
  | .hostReadCompletionTimeout _ => true
  | .poisonedTlp _ => true
  | .correctableError port => decide (port < 2)
  | .l12Entry port => decide (port < 2)
  | .l12Exit port => decide (port < 2)
  | .ccEnSet ctrl _ _ _ => decide (ctrl < 2)
  | .controllerReady ctrl => decide (ctrl < 2)
  | .ccEnClear ctrl => decide (ctrl < 2)
  | .controllerResetDrained ctrl => decide (ctrl < 2)
  | .rdyClearTimeout ctrl => decide (ctrl < 2)
  | .sqTailDoorbell ctrl sq tail => decide (ctrl < 2) && decide (sq < 65536) && decide (tail < 65536)
  | .commandFetch ctrl sq _ => decide (ctrl < 2) && decide (sq < 65536)
  | .fetchResume => true
  | .coalescingTimeout ctrl cq => decide (ctrl < 2) && decide (cq < 65536)
  | .createIoSq _ qid size cqid _ => decide (qid < 65536) && decide (size < 65537) && decide (cqid < 65536)
  | .createIoCq _ qid size vector _ _ => decide (qid < 65536) && decide (size < 65537) && decide (vector < 65)
  | .deleteIoSq _ qid => decide (qid < 65536)
  | .deleteSqComplete _ => true
  | .deleteIoCq _ qid => decide (qid < 65536)
  | .getLogPage _ lid nsid lsp _ _ => decide (lid < 256) && decide (nsid < 2 ^ 32) && decide (lsp < 16)
  | .identify _ cns nsid => decide (cns < 256) && decide (nsid < 2 ^ 32)
  | .abort _ sq cid => decide (sq < 65536) && decide (cid < 65536)
  | .setFeatures _ fid nsid dw11 _ _ => decide (fid < 256) && decide (nsid < 2 ^ 32) && decide (dw11 < 2 ^ 32)
  | .getFeatures _ fid nsid dw11 => decide (fid < 256) && decide (nsid < 2 ^ 32) && decide (dw11 < 2 ^ 32)
  | .asyncEventRequest _ => true
  | .namespaceCreate _ _ fmt pit _ _ => decide (fmt < 3) && decide (pit < 4)
  | .namespaceDelete _ nsid => decide (nsid < 2 ^ 32)
  | .namespaceAttach _ nsid _ => decide (nsid < 2 ^ 32)
  | .namespaceDetach _ nsid _ => decide (nsid < 2 ^ 32)
  | .formatNvm _ nsid fmt ses pit _ => decide (nsid < 2 ^ 32) && decide (fmt < 3) && decide (ses < 8) && decide (pit < 4)
  | .sanitizeCryptoErase _ => true
  | .sanitizeBlockErase _ => true
  | .sanitizeOverwrite _ passes pattern _ _ => decide (passes < 16) && decide (pattern < 2 ^ 32)
  | .formatSanitizeStart => true
  | .progressRecord _ => true
  | .eraseOperationComplete _ => true
  | .read _ _ => true
  | .verify _ _ => true
  | .write _ _ => true
  | .writeZeroes _ _ => true
  | .datasetManagement _ => true
  | .flush _ => true
  | .flushComplete _ => true
  | .zoneAppend _ _ => true
  | .zoneMgmtReceive _ => true
  | .zoneReportReady _ => true
  | .zoneClose _ => true
  | .zoneFinish _ => true
  | .zoneOpen _ => true
  | .zoneReset _ => true
  | .zoneOffline _ => true
  | .reservationRegister _ => true
  | .reservationReport _ => true
  | .reservationAcquire _ => true
  | .reservationRelease _ => true
  | .miReadDataStructure typ => decide (typ < 256)
  | .miSubsystemHealthPoll => true
  | .miControllerHealthPoll => true
  | .miConfigGet => true
  | .miConfigSet _ => true
  | .miTunnelIdentify ctrl cns nsid => decide (ctrl < 2) && decide (cns < 256) && decide (nsid < 2 ^ 32)
  | .miTunnelGetLogPage ctrl lid nsid lsp _ _ => decide (ctrl < 2) && decide (lid < 256) && decide (nsid < 2 ^ 32) && decide (lsp < 16)
  | .miTunnelGetFeatures ctrl fid nsid dw11 => decide (ctrl < 2) && decide (fid < 256) && decide (nsid < 2 ^ 32) && decide (dw11 < 2 ^ 32)
  | .miBasicManagement => true
  | .miUnsupportedRequest opcode => decide (opcode < 256)
  | .miForcePowerState target _ _ => decide (target < 256)
  | .forceDrainExpire => true
  | .apstIdleTimeout ctrl => decide (ctrl < 2)
  | .apstTickBoundaryStep => true
  | .tempThresholdEval => true
  | .pullPoint _ _ _ => true
  | .pullComplete _ _ _ => true
  | .pullMissed _ _ => true
  | .forwardCopy _ _ _ => true
  | .pageUnpin _ _ => true
  | .forwardReread _ => true
  | .unitDurable _ _ => true
  | .journalFlushTimer => true
  | .journalSectorCommitted => true
  | .checkpointStart => true
  | .checkpointComplete => true
  | .mapRebuild _ => true
  | .rebuildComplete => true
  | .chunkPageLoad nsid _ => decide (nsid < 2 ^ 32)
  | .bandVerify band _ => decide (band < 2 ^ 32)
  | .gcMove _ _ => true
  | .moveDurable band => decide (band < 2 ^ 32)
  | .hsStoreSeqlRead _ => true
  | .readGateOpen _ k _ => decide (k < 65536)
  | .sectorCaptureComplete _ _ => true
  | .ldpcAttemptComplete _ _ => true
  | .stripeSolveComplete _ band group _ _ => decide (band < 2 ^ 32) && decide (group < 2 ^ 32)
  | .stripeStart _ _ data => decide (data < 512)
  | .chStop _ => true
  | .hzselLoad _ head zone => decide (head < 16) && decide (zone < 64)
  | .adaptationEntryFetched _ => true
  | .sectorBoundary _ => true
  | .offsetAsymStep _ => true
  | .afeTempCorrection _ _ _ _ => true
  | .counterFlush _ _ => true
  | .eltikWordReceive _ _ => true
  | .eltikHeartbeat _ => true
  | .eltikLinkDown _ => true
  | .elkRetrain _ => true
  | .eltikTrainComplete => true
  | .eltikRetrainTimeout => true
  | .dxForceWrite value => decide (value < 4)
  | .verifyVerdict _ k _ iter _ _ => decide (k < 65536) && decide (iter < 64)
  | .verdictOverdue _ k => decide (k < 65536)
  | .writeSlotStart _ k _ sens _ => decide (k < 65536) && decide (sens < 4096)
  | .writeRequestUrgent _ _ _ => true
  | .sectorWriteComplete _ => true
  | .shockInput _ _ => true
  | .shockInhibitRelease => true
  | .pesInhibitRelease _ => true
  | .wgInhWrite _ _ => true
  | .preampWriteFrame _ back => decide (back < 65536)
  | .preampReadFrame _ data => decide (data < 65536)
  | .preampFaultPoll _ data => decide (data < 65536)
  | .preampLinkRetry _ data => decide (data < 65536)
  | .paCtrlEnWrite _ _ => true
  | .paCmdGo _ _ addr data => decide (addr < 128) && decide (data < 65536)
  | .wselLoad _ head zone => decide (head < 16) && decide (zone < 64)
  | .writeEntryFetched _ => true
  | .bridgeReady _ => true
  | .neighbourCheck _ band _ _ _ => decide (band < 2 ^ 32)
  | .writeCalibration _ _ => true
  | .servoWedge _ _ _ interval => decide (interval < 2 ^ 20)
  | .beSampleLateStart _ => true
  | .beNop _ _ => true
  | .beLda _ _ => true
  | .beMac _ _ => true
  | .beMsu _ _ => true
  | .beRnd _ _ => true
  | .beAdd _ _ => true
  | .beSub _ _ => true
  | .beMov _ _ => true
  | .beMul _ _ => true
  | .beLim _ _ => true
  | .beSel _ _ => true
  | .beIn _ _ => true
  | .beOut _ _ => true
  | .beXff _ _ => true
  | .beInt _ _ => true
  | .beBiq _ _ => true
  | .beEnd _ _ => true
  | .beSwap _ => true
  | .swapCheckDone _ _ => true
  | .beRunWrite _ _ => true
  | .xoutReceive _ => true
  | .xinStale _ => true
  | .svCmdLoad _ => true
  | .svCmdSeek _ => true
  | .svCmdUnload _ => true
  | .svCmdRetract _ => true
  | .svEnWrite _ _ => true
  | .svCalWrite _ _ => true
  | .loadAcquired _ => true
  | .loadTimeout _ => true
  | .servoLost _ => true
  | .seekEnd _ => true
  | .settleComplete _ => true
  | .settleTimeout _ => true
  | .recoverReacquired _ => true
  | .recoverTimeout _ => true
  | .unloadTimeout _ => true
  | .unloadStopped _ => true
  | .psReturnFrame _ word => decide (word < 2 ^ 48)
  | .psKeepalive _ => true
  | .psCfgGo _ addr data => decide (addr < 256) && decide (data < 65536)
  | .psCtrlEnWrite _ _ => true
  | .pwmValley u v w _ => decide (u < 4096) && decide (v < 4096) && decide (w < 4096)
  | .pwmPeak => true
  | .busConversion volt curr => decide (volt < 4096) && decide (curr < 4096)
  | .overvoltageFault => true
  | .regenStop => true
  | .regenResume => true
  | .chopperOn => true
  | .chopperOff => true
  | .chopperCurrentCheck => true
  | .chopperVoltageCheck => true
  | .powerFailureDetect => true
  | .holdupEnd => true
  | .phaseCurrentFault => true
  | .busCurrentFault => true
  | .analogueLimitFault ch => decide (ch < 36)
  | .conversionTimeout ch => decide (ch < 36)
  | .spCmdStart => true
  | .spCmdStop => true
  | .spCmdCoast => true
  | .spCmdClear => true
  | .spEnWrite _ => true
  | .spChopTest rise => decide (rise < 4096)
  | .chopperSelfTest rise => decide (rise < 4096)
  | .listenEnd _ => true
  | .startAlignmentEnd => true
  | .startPolarityEnd _ _ => true
  | .startBackwardCheck => true
  | .startSpeedCheck => true
  | .startRetryResume => true
  | .spinupTimeout => true
  | .catchEnd => true
  | .atspeedSet => true
  | .syncLoss => true
  | .keAbnormal => true
  | .rotorStopped => true
  | .ecPostGo _ => true
  | .ecEnWrite _ _ => true
  | .ecDispatch _ _ => true
  | .frameEntryFetched _ => true
  | .ecAbort _ => true
  | .ecRestart _ => true
  | .ecFlush _ => true
  | .ecCplPop _ => true
  | .ecNop _ _ _ => true
  | .ecLdi _ _ _ => true
  | .ecAlu _ _ _ => true
  | .ecAddi _ _ _ => true
  | .ecRdp _ _ _ => true
  | .ecWrp _ _ _ => true
  | .ecWrpi _ _ _ => true
  | .ecJmp _ _ _ => true
  | .ecBr _ _ _ _ => true
  | .ecMwb _ _ _ _ => true
  | .ecCall _ _ _ => true
  | .ecRet _ _ _ => true
  | .ecWait _ _ _ => true
  | .waitEnd _ _ _ => true
  | .ecSafe _ _ _ => true
  | .ecEnd _ _ _ => true
  | .stopComplete _ => true
  | .safePointDeadline _ => true
  | .revLimit _ => true
  | .memoryRead _ _ _ addr _ _ => decide (addr < 2 ^ 40)
  | .memoryFullWrite _ _ _ addr _ _ => decide (addr < 2 ^ 40)
  | .memoryNarrowWrite _ _ _ addr len _ _ _ => decide (addr < 2 ^ 40) && decide (len < 9)
  | .correctedWriteback addr => decide (addr < 2 ^ 40)
  | .scrubStep _ _ => true
  | .poolReserveRequest _ _ _ _ => true
  | .poolReserveGrant => true
  | .poolWaitTimeout _ => true
  | .poolResWrite _ _ => true
  | .readStandbyRefill _ => true
  | .l2Clean c core => decide (core < c.cores)
  | .l2Inval c core => decide (core < c.cores)
  | .l2CleanInval c core => decide (core < c.cores)
  | .l2Zline c core => decide (core < c.cores)
  | .l2CleanSetway c core set way => decide (core < c.cores) && decide (set < c.sets) && decide (way < c.ways)
  | .l2InvalSetway c core set way => decide (core < c.cores) && decide (set < c.sets) && decide (way < c.ways)
  | .l2CleanInvalSetway c core set way => decide (core < c.cores) && decide (set < c.sets) && decide (way < c.ways)
  | .l2CleanInvalAll c core => decide (core < c.cores)
  | .l2InvalAll c core => decide (core < c.cores)
  | .l2EnWrite _ _ => true
  | .l2FillComplete c addr way => decide (addr < 2 ^ 40) && decide (way < c.ways)
  | .l2WayDisable c way => decide (way < c.ways)
  | .l2WayDisableDone c way => decide (way < c.ways)
  | .l2CeWindowEnd _ => true
  | .cipherEntryPost _ _ => true
  | .cipherUrgentPromote _ _ => true
  | .cipherMessageStart => true
  | .cipherResume => true
  | .cipherMessageComplete _ _ => true
  | .cxCplPop _ _ => true
  | .keyLoad _ slot => decide (slot < 1024)
  | .keyGenerate _ slot nsid epoch tenant => decide (slot < 1024) && decide (nsid < 2 ^ 32) && decide (epoch < 2 ^ 32) && decide (tenant < 2 ^ 32)
  | .keyErase _ slot => decide (slot < 1024)
  | .keyMap _ slot _ => decide (slot < 1024)
  | .keyGenerationDrained slot => decide (slot < 1024)
  | .keyEraseDrained slot => decide (slot < 1024)
  | .keyDrainTimeout slot => decide (slot < 1024)
  | .keyMailboxRequest _ _ => true
  | .cxCtrlEnWrite _ _ => true
  | .jtagSecurityAccess addr => decide (addr < 2 ^ 40)
  | .pmodeTargetWrite _ => true
  | .pmTransitionBegin => true
  | .pmRequestTimeout _ => true
  | .pmStageEnd => true
  | .forcedQuiesceTimeout _ => true
  | .retainIdleExpire => true
  | .retainEntry => true
  | .retainSealDone _ => true
  | .retainTickSwitch => true
  | .wakePcie port => decide (port < 2)
  | .wakeCrownBreak => true
  | .wakeCrownPattern => true
  | .wakeCrownTimeout => true
  | .wakeSmbus addr => decide (addr < 2 ^ 40)
  | .wakeAonTimer => true
  | .retainExit _ _ _ _ _ => true
  | .chronometerTick => true
  | .retainChronometerTick => true
  | .chronometerNorSave => true
  | .usageMinuteSnapshot => true
  | .usageSnapshotNorSave => true
  | .diodeConversion _ => true
  | .diodeFail diode => decide (diode < 8)
  | .thermistorConversion t code => decide (t < 2) && decide (code < 4096)
  | .thermistorOutOfRange t => decide (t < 2)
  | .thermistorBackInRange t => decide (t < 2)
  | .supplyConversion ch code => decide (ch < 36) && decide (code < 4096)
  | .supplyFailure ch => decide (ch < 36)
  | .supplyHigh ch => decide (ch < 36)
  | .supplyRecoveryReset _ => true
  | .shockStuck input => decide (input < 2)
  | .shockUnmask input => decide (input < 2)
  | .warningSet => true
  | .warningClear => true
  | .throttleSet => true
  | .throttleStepRise => true
  | .throttleStepFall => true
  | .throttleClear => true
  | .thctrlForceWrite _ => true
  | .thermalShutdown => true
  | .thermalAutoRestart _ => true
  | .mediaDutyWindow => true
  | .dutyCapReached _ => true
  | .referenceLadderCheck _ _ => true
  | .bandgapTrim _ => true
  | .calreqGo _ kind head duration => decide (kind < 16) && decide (head < 16) && decide (duration < 64)
  | .calGrant => true
  | .calDoneWrite _ => true
  | .calGrantExpire _ => true
  | .calWaitOverdue _ => true
  | .logPost source code _ => decide (source < 10) && decide (code < 65536)
  | .logbookProgram _ _ => true
  | .logbookFlushTimer => true
  | .logbookMirrorCopy => true
  | .smbusClockLowTimeout => true
  | .aonClockMissing => true
  | .crownFrameReceive _ _ => true
  | .crownInterbyteTimeout => true
  | .crownAckReceive seq _ => decide (seq < 256)
  | .crownNakReceive seq => decide (seq < 256)
  | .crownRetransmitTimeout => true
  | .baudRevertTimeout => true
  | .crownWakeTimeout => true
  | .solindHello => true
  | .solindSetBaud rate => decide (rate < 8)
  | .solindSetTime _ => true
  | .solindStatus => true
  | .solindLogRead _ _ => true
  | .solindUpdBegin _ _ => true
  | .solindUpdChunk _ _ _ => true
  | .solindUpdVerify => true
  | .updVerifyDone _ => true
  | .solindUpdCommit => true
  | .updCopyDone _ => true
  | .solindUpdSchedule _ _ => true
  | .solindUpdCancel => true
  | .solindUpdStatus => true
  | .solindCalChunk _ _ _ => true
  | .solindCalCommit copy _ _ => decide (copy < 2)
  | .solindCalRead copy _ _ => decide (copy < 2)
  | .solindKeyRevoke _ _ _ => true
  | .solindStoreRecover _ => true
  | .storeRecoverDone _ => true
  | .solindReset => true
  | .actSyncEdge => true
  | .activationDrainDone _ _ => true
  | .activationDrainTimeout => true
  | .activationSwitchDone => true
  | .activationWindowExpire => true
  | .probationSaveTimer => true
  | .probationTimeout _ => true
  | .bootconfConfirm _ => true
  | .suppliesRemoved => true
  | .l2OperationComplete _ => true
  | .svTargetWrite _ head track => decide (head < 16) && decide (track < 2 ^ 24)

end Sys2Proof
end

