-- ==== Sys2Proof/Tests/Slice0.lean ====
section
/-!
SUPPORT. Tests: the manual's worked examples, the checks of WellFormed at their bounds, and for every clause of a statement that has hypotheses a
concrete state and operands that meet all of them together.
-/
set_option maxRecDepth 20000
set_option Elab.async false

namespace Sys2Proof.Tests
open Sys2Proof.Machine

/-! ### The manual's examples -/

/-- R128's example: a band of 70,000 slots with groups of 256 and 4 parity slots. -/
theorem test_dmax_of_reference_band : dmaxOf 256 4 70000 = 68916 ∧ zcapOf 68916 = 65536 := by decide +kernel

/-- R334's example: the word 1 at word address 3, and read at word address 7. -/
theorem test_check_bits : eccE 3 = 3 ∧ eccCheck 3 1 = 4 ∧ eccCheck 7 1 = 7 ∧ eccCheck 3 0 = 3 := by decide +kernel

/-- R232's example: head 6, zone 0. -/
theorem test_operate_level :
    ({ astOp := 612, drift := 9, rate := 40, pohc := 14300 } : WEntry).oplv 18300 800 = 631 := by decide +kernel

/-- R419's example: 45 °C, K = 34, T0 = 25. -/
theorem test_chronometer_trim : chrTrim (16 * (45 + 64)) 34 25 = 1782579 := by decide +kernel

/-- R172 and R328's example: a sector's frame with a preamble of 128 bits at rate 0.89. -/
theorem test_frame_length : frameLen 128 1 = 37156 ∧ codewordLen 1 = 36992 := by decide +kernel

/-- R328's excerpt: its words are legal. -/
theorem test_rom_excerpt_is_legal :
    ([0x30000122, 0x63B800C8, 0x45A00412, 0x68000001, 0x4A200408, 0x627800C8, 0x30000121, 0x44E0040F, 0x30000123, 0x623800C8, 0x38000404,
      0x62B800C8, 0x70000000, 0x70000001] : List Nat).all legalWord = true := by decide +kernel

/-- R328's excerpt: the opcodes of WRPI, WAIT, BR, SAFE, MWB, JMP and END. -/
theorem test_rom_excerpt_opcodes :
    ([0x30000122, 0x63B800C8, 0x45A00412, 0x68000001, 0x4A200408, 0x38000404, 0x70000000] : List Nat).map ecOpcode
      = [0x06, 0x0C, 0x08, 0x0D, 0x09, 0x07, 0x0E] := by decide +kernel

/-- Requests of parties waiting at an SRAM port, urgent or not, and the port's pointer (R32). -/
def portDevice (pointer : Party) (rs : List (Party × Bool)) : Device :=
  { fabric := { waiting := rs.zipIdx.map fun x => ⟨x.2, .party x.1.1, x.1.2, .target (.sram 0), 0, .read, 0⟩
                pointers := [(.target (.sram 0), pointer)] } }

/-- R32's example, cycles 0 to 4: who is granted. -/
theorem test_arbitration_example :
    ([portDevice .ln0 [(.ln1, false), (.host, false)], portDevice .ln1 [(.ln1, false), (.host, false), (.cipher, false)],
      portDevice .host [(.host, false), (.cipher, false), (.ln0, true)], portDevice .cipher [(.host, false), (.cipher, false)],
      portDevice .ln0 [(.host, false)]]).map (fun d => (d.winner (.target (.sram 0))).map (·.who))
      = [some (.party .ln1), some (.party .ln1), some (.party .ln0), some (.party .cipher), some (.party .host)] := by decide +kernel

/-- R392's example, one tick in Retain with RG_CHRTRIM 0: 30 µs and a fraction of 0x8480_0000. -/
theorem test_retain_tick :
    (match exec .retainChronometerTick ⟨{ chron := { chr := 10000000000 }, power := { retain := .inside }, boot := { phase := .released } }, []⟩ with
      | .next s => (s.dev.chron.chr, s.dev.chron.frac) | _ => (0, 0)) = (10000000030, 0x84800000) := by decide +kernel

/-! ### WellFormed -/

/-- Commands with one operand just outside its range are refused. -/
theorem test_ill_formed_0 : ([.fabricRequest 0 (.party .host) false .poolAllocator (2 ^ 40) .read none,
    .registerWrite (.host 0) (2 ^ 40) 0 0,
    .registerWrite (.host 0) 0 65537 0,
    .rcRegisterRead (.host 0) (2 ^ 40) 0,
    .rcRegisterRead (.host 0) 0 65537,
    .perstAssert 2,
    .perstDeassert 2,
    .linkTrained 2 0 0,
    .linkTrained 0 6 0,
    .linkTrained 0 0 3,
    .linkDown 2,
    .configRequest 2,
    .correctableError 2,
    .l12Entry 2,
    .l12Exit 2,
    .ccEnSet 2 false 0 0,
    .controllerReady 2,
    .ccEnClear 2,
    .controllerResetDrained 2,
    .rdyClearTimeout 2,
    .sqTailDoorbell 2 0 0,
    .sqTailDoorbell 0 65536 0,
    .sqTailDoorbell 0 0 65536,
    .commandFetch 2 0 ⟨0, .admin 6⟩] : List Instr).all (fun i => !i.wf) = true := by decide +kernel

/-- Commands with one operand just outside its range are refused. -/
theorem test_ill_formed_1 : ([.commandFetch 0 65536 ⟨0, .admin 6⟩,
    .coalescingTimeout 2 0,
    .coalescingTimeout 0 65536,
    .createIoSq ⟨0, 1, 5⟩ 65536 0 0 false,
    .createIoSq ⟨0, 1, 5⟩ 0 65537 0 false,
    .createIoSq ⟨0, 1, 5⟩ 0 0 65536 false,
    .createIoCq ⟨0, 1, 5⟩ 65536 0 0 false false,
    .createIoCq ⟨0, 1, 5⟩ 0 65537 0 false false,
    .createIoCq ⟨0, 1, 5⟩ 0 0 65 false false,
    .deleteIoSq ⟨0, 1, 5⟩ 65536,
    .deleteIoCq ⟨0, 1, 5⟩ 65536,
    .getLogPage ⟨0, 1, 5⟩ 256 0 0 0 0,
    .getLogPage ⟨0, 1, 5⟩ 0 (2 ^ 32) 0 0 0,
    .getLogPage ⟨0, 1, 5⟩ 0 0 16 0 0,
    .identify ⟨0, 1, 5⟩ 256 0,
    .identify ⟨0, 1, 5⟩ 0 (2 ^ 32),
    .abort ⟨0, 1, 5⟩ 65536 0,
    .abort ⟨0, 1, 5⟩ 0 65536,
    .setFeatures ⟨0, 1, 5⟩ 256 0 0 0 [],
    .setFeatures ⟨0, 1, 5⟩ 0 (2 ^ 32) 0 0 [],
    .setFeatures ⟨0, 1, 5⟩ 0 0 (2 ^ 32) 0 [],
    .getFeatures ⟨0, 1, 5⟩ 256 0 0,
    .getFeatures ⟨0, 1, 5⟩ 0 (2 ^ 32) 0,
    .getFeatures ⟨0, 1, 5⟩ 0 0 (2 ^ 32)] : List Instr).all (fun i => !i.wf) = true := by decide +kernel

/-- Commands with one operand just outside its range are refused. -/
theorem test_ill_formed_2 : ([.namespaceCreate ⟨0, 1, 5⟩ false 3 0 false 0,
    .namespaceCreate ⟨0, 1, 5⟩ false 0 4 false 0,
    .namespaceDelete ⟨0, 1, 5⟩ (2 ^ 32),
    .namespaceAttach ⟨0, 1, 5⟩ (2 ^ 32) [],
    .namespaceDetach ⟨0, 1, 5⟩ (2 ^ 32) [],
    .formatNvm ⟨0, 1, 5⟩ (2 ^ 32) 0 0 0 false,
    .formatNvm ⟨0, 1, 5⟩ 0 3 0 0 false,
    .formatNvm ⟨0, 1, 5⟩ 0 0 8 0 false,
    .formatNvm ⟨0, 1, 5⟩ 0 0 0 4 false,
    .sanitizeOverwrite ⟨0, 1, 5⟩ 16 0 false false,
    .sanitizeOverwrite ⟨0, 1, 5⟩ 0 (2 ^ 32) false false,
    .miReadDataStructure 256,
    .miTunnelIdentify 2 0 0,
    .miTunnelIdentify 0 256 0,
    .miTunnelIdentify 0 0 (2 ^ 32),
    .miTunnelGetLogPage 2 0 0 0 0 0,
    .miTunnelGetLogPage 0 256 0 0 0 0,
    .miTunnelGetLogPage 0 0 (2 ^ 32) 0 0 0,
    .miTunnelGetLogPage 0 0 0 16 0 0,
    .miTunnelGetFeatures 2 0 0 0,
    .miTunnelGetFeatures 0 256 0 0,
    .miTunnelGetFeatures 0 0 (2 ^ 32) 0,
    .miTunnelGetFeatures 0 0 0 (2 ^ 32),
    .miUnsupportedRequest 256] : List Instr).all (fun i => !i.wf) = true := by decide +kernel

/-- Commands with one operand just outside its range are refused. -/
theorem test_ill_formed_3 : ([.miForcePowerState 256 0 0,
    .apstIdleTimeout 2,
    .chunkPageLoad (2 ^ 32) 0,
    .bandVerify (2 ^ 32) {},
    .moveDurable (2 ^ 32),
    .readGateOpen .ln0 65536 0,
    .stripeSolveComplete .ln0 (2 ^ 32) 0 [] false,
    .stripeSolveComplete .ln0 0 (2 ^ 32) [] false,
    .stripeStart .ln0 false 512,
    .hzselLoad .ln0 16 0,
    .hzselLoad .ln0 0 64,
    .dxForceWrite 4,
    .verifyVerdict ⟨.ln0, false⟩ 65536 false 0 false false,
    .verifyVerdict ⟨.ln0, false⟩ 0 false 64 false false,
    .verdictOverdue ⟨.ln0, false⟩ 65536,
    .writeSlotStart .ln0 65536 none 0 false,
    .writeSlotStart .ln0 0 none 4096 false,
    .preampWriteFrame .ln0 65536,
    .preampReadFrame .ln0 65536,
    .preampFaultPoll .ln0 65536,
    .preampLinkRetry .ln0 65536,
    .paCmdGo .ln0 false 128 0,
    .paCmdGo .ln0 false 0 65536,
    .wselLoad .ln0 16 0] : List Instr).all (fun i => !i.wf) = true := by decide +kernel

/-- Commands with one operand just outside its range are refused. -/
theorem test_ill_formed_4 : ([.wselLoad .ln0 0 64,
    .neighbourCheck .ln0 (2 ^ 32) [] [] false,
    .servoWedge .ln0 {} none (2 ^ 20),
    .psReturnFrame .ln0 (2 ^ 48),
    .psCfgGo .ln0 256 0,
    .psCfgGo .ln0 0 65536,
    .pwmValley 4096 0 0 0,
    .pwmValley 0 4096 0 0,
    .pwmValley 0 0 4096 0,
    .busConversion 4096 0,
    .busConversion 0 4096,
    .analogueLimitFault 36,
    .conversionTimeout 36,
    .spChopTest 4096,
    .chopperSelfTest 4096,
    .memoryRead none .host none (2 ^ 40) {} .good,
    .memoryFullWrite none .host none (2 ^ 40) 0 false,
    .memoryNarrowWrite none .host none (2 ^ 40) 0 0 false {},
    .memoryNarrowWrite none .host none 0 9 0 false {},
    .correctedWriteback (2 ^ 40),
    .l2Clean .host CacheId.host.cores,
    .l2Inval .host CacheId.host.cores,
    .l2CleanInval .host CacheId.host.cores,
    .l2Zline .host CacheId.host.cores] : List Instr).all (fun i => !i.wf) = true := by decide +kernel

/-- Commands with one operand just outside its range are refused. -/
theorem test_ill_formed_5 : ([.l2CleanSetway .host CacheId.host.cores 0 0,
    .l2CleanSetway .host 0 CacheId.host.sets 0,
    .l2CleanSetway .host 0 0 CacheId.host.ways,
    .l2InvalSetway .host CacheId.host.cores 0 0,
    .l2InvalSetway .host 0 CacheId.host.sets 0,
    .l2InvalSetway .host 0 0 CacheId.host.ways,
    .l2CleanInvalSetway .host CacheId.host.cores 0 0,
    .l2CleanInvalSetway .host 0 CacheId.host.sets 0,
    .l2CleanInvalSetway .host 0 0 CacheId.host.ways,
    .l2CleanInvalAll .host CacheId.host.cores,
    .l2InvalAll .host CacheId.host.cores,
    .l2FillComplete .host (2 ^ 40) 0,
    .l2FillComplete .host 0 CacheId.host.ways,
    .l2WayDisable .host CacheId.host.ways,
    .l2WayDisableDone .host CacheId.host.ways,
    .keyLoad (.host 0) 1024,
    .keyGenerate (.host 0) 1024 0 0 0,
    .keyGenerate (.host 0) 0 (2 ^ 32) 0 0,
    .keyGenerate (.host 0) 0 0 (2 ^ 32) 0,
    .keyGenerate (.host 0) 0 0 0 (2 ^ 32),
    .keyErase (.host 0) 1024,
    .keyMap (.host 0) 1024 false,
    .keyGenerationDrained 1024,
    .keyEraseDrained 1024] : List Instr).all (fun i => !i.wf) = true := by decide +kernel

/-- Commands with one operand just outside its range are refused. -/
theorem test_ill_formed_6 : ([.keyDrainTimeout 1024,
    .jtagSecurityAccess (2 ^ 40),
    .wakePcie 2,
    .wakeSmbus (2 ^ 40),
    .diodeFail 8,
    .thermistorConversion 2 0,
    .thermistorConversion 0 4096,
    .thermistorOutOfRange 2,
    .thermistorBackInRange 2,
    .supplyConversion 36 0,
    .supplyConversion 0 4096,
    .supplyFailure 36,
    .supplyHigh 36,
    .shockStuck 2,
    .shockUnmask 2,
    .calreqGo .ln0 16 0 0,
    .calreqGo .ln0 0 16 0,
    .calreqGo .ln0 0 0 64,
    .logPost 10 0 [],
    .logPost 0 65536 [],
    .crownAckReceive 256 {},
    .crownNakReceive 256,
    .solindSetBaud 8,
    .solindCalCommit 2 none false] : List Instr).all (fun i => !i.wf) = true := by decide +kernel

/-- Commands with one operand just outside its range are refused. -/
theorem test_ill_formed_7 : ([.solindCalRead 2 0 0,
    .svTargetWrite .ln0 16 0,
    .svTargetWrite .ln0 0 (2 ^ 24)] : List Instr).all (fun i => !i.wf) = true := by decide +kernel

/-- The same commands with every operand in range pass. -/
theorem test_well_formed_0 : ([.fabricRequest 0 (.party .host) false .poolAllocator 0 .read none,
    .registerWrite (.host 0) 0 0 0,
    .rcRegisterRead (.host 0) 0 0,
    .perstAssert 0,
    .perstDeassert 0,
    .linkTrained 0 0 0,
    .linkDown 0,
    .configRequest 0,
    .correctableError 0,
    .l12Entry 0,
    .l12Exit 0,
    .ccEnSet 0 false 0 0,
    .controllerReady 0,
    .ccEnClear 0,
    .controllerResetDrained 0,
    .rdyClearTimeout 0,
    .sqTailDoorbell 0 0 0,
    .commandFetch 0 0 ⟨0, .admin 6⟩,
    .coalescingTimeout 0 0,
    .createIoSq ⟨0, 1, 5⟩ 0 0 0 false,
    .createIoCq ⟨0, 1, 5⟩ 0 0 0 false false,
    .deleteIoSq ⟨0, 1, 5⟩ 0,
    .deleteIoCq ⟨0, 1, 5⟩ 0,
    .getLogPage ⟨0, 1, 5⟩ 0 0 0 0 0,
    .identify ⟨0, 1, 5⟩ 0 0,
    .abort ⟨0, 1, 5⟩ 0 0,
    .setFeatures ⟨0, 1, 5⟩ 0 0 0 0 [],
    .getFeatures ⟨0, 1, 5⟩ 0 0 0,
    .namespaceCreate ⟨0, 1, 5⟩ false 0 0 false 0,
    .namespaceDelete ⟨0, 1, 5⟩ 0,
    .namespaceAttach ⟨0, 1, 5⟩ 0 [],
    .namespaceDetach ⟨0, 1, 5⟩ 0 [],
    .formatNvm ⟨0, 1, 5⟩ 0 0 0 0 false,
    .sanitizeOverwrite ⟨0, 1, 5⟩ 0 0 false false,
    .miReadDataStructure 0,
    .miTunnelIdentify 0 0 0,
    .miTunnelGetLogPage 0 0 0 0 0 0,
    .miTunnelGetFeatures 0 0 0 0,
    .miUnsupportedRequest 0,
    .miForcePowerState 0 0 0] : List Instr).all Instr.wf = true := by decide +kernel

/-- The same commands with every operand in range pass. -/
theorem test_well_formed_1 : ([.apstIdleTimeout 0,
    .chunkPageLoad 0 0,
    .bandVerify 0 {},
    .moveDurable 0,
    .readGateOpen .ln0 0 0,
    .stripeSolveComplete .ln0 0 0 [] false,
    .stripeStart .ln0 false 0,
    .hzselLoad .ln0 0 0,
    .dxForceWrite 0,
    .verifyVerdict ⟨.ln0, false⟩ 0 false 0 false false,
    .verdictOverdue ⟨.ln0, false⟩ 0,
    .writeSlotStart .ln0 0 none 0 false,
    .preampWriteFrame .ln0 0,
    .preampReadFrame .ln0 0,
    .preampFaultPoll .ln0 0,
    .preampLinkRetry .ln0 0,
    .paCmdGo .ln0 false 0 0,
    .wselLoad .ln0 0 0,
    .neighbourCheck .ln0 0 [] [] false,
    .servoWedge .ln0 {} none 0,
    .psReturnFrame .ln0 0,
    .psCfgGo .ln0 0 0,
    .pwmValley 0 0 0 0,
    .busConversion 0 0,
    .analogueLimitFault 0,
    .conversionTimeout 0,
    .spChopTest 0,
    .chopperSelfTest 0,
    .memoryRead none .host none 0 {} .good,
    .memoryFullWrite none .host none 0 0 false,
    .memoryNarrowWrite none .host none 0 0 0 false {},
    .correctedWriteback 0,
    .l2Clean .host 0,
    .l2Inval .host 0,
    .l2CleanInval .host 0,
    .l2Zline .host 0,
    .l2CleanSetway .host 0 0 0,
    .l2InvalSetway .host 0 0 0,
    .l2CleanInvalSetway .host 0 0 0,
    .l2CleanInvalAll .host 0] : List Instr).all Instr.wf = true := by decide +kernel

/-- The same commands with every operand in range pass. -/
theorem test_well_formed_2 : ([.l2InvalAll .host 0,
    .l2FillComplete .host 0 0,
    .l2WayDisable .host 0,
    .l2WayDisableDone .host 0,
    .keyLoad (.host 0) 0,
    .keyGenerate (.host 0) 0 0 0 0,
    .keyErase (.host 0) 0,
    .keyMap (.host 0) 0 false,
    .keyGenerationDrained 0,
    .keyEraseDrained 0,
    .keyDrainTimeout 0,
    .jtagSecurityAccess 0,
    .wakePcie 0,
    .wakeSmbus 0,
    .diodeFail 0,
    .thermistorConversion 0 0,
    .thermistorOutOfRange 0,
    .thermistorBackInRange 0,
    .supplyConversion 0 0,
    .supplyFailure 0,
    .supplyHigh 0,
    .shockStuck 0,
    .shockUnmask 0,
    .calreqGo .ln0 0 0 0,
    .logPost 0 0 [],
    .crownAckReceive 0 {},
    .crownNakReceive 0,
    .solindSetBaud 0,
    .solindCalCommit 0 none false,
    .solindCalRead 0 0 0,
    .svTargetWrite .ln0 0 0] : List Instr).all Instr.wf = true := by decide +kernel

/-! ### Witnesses -/

def cmd0 : Cmd := { no := 1, id := ⟨0, 1, 5⟩, nsid := 1, op := .flush, stamp := none }
def op0 : EcOp := { desc := [0, 0, 0, 0, 0, 0, 0, 0] }
def ns0 : Ns := { blocks := 1000 }
def run0 : BeRun := { slot := 0 }
def frame0 : Frame := ⟨1, 0, 0x20, []⟩
def unit0 : WUnit := { lba := 0, n := 1 }
def rblk0 : RBlk := { chain := [] }
def rslot0 : RSlot := { home := .ln0, place := false, seq := ⟨.ln0, false⟩, k := 0, band := 0, slot := 0, head := 0, zone := 0, retry := none }
def cop0 : CacheOp := ⟨0, 1, 0, 0, 0⟩
def entry0 : CipherEntry := ⟨0, false, false, false, false, 16, 1, 0, 0, 0, 0, 0, 0, 0⟩
def msg0 : CipherMsg := ⟨2, entry0⟩
def brec0 : BootRec := ⟨1, 0, none, 0, 0, 0, 0, 0, 0, 0, 0⟩
def sq0 : SubQ := { ctrl := 0, qid := 1, size := 16, cq := 1 }
def cq0 : CplQ := { ctrl := 0, qid := 1, size := 16, vector := 0 }
def band0 : Band := { lane := .ln0, head := 0, st := .opened, nsid := 1, zslba := 0, slots := 1000, dmax := 900, next := 0, units := 0 }
def paf0 : PaFrame := { read := false, addr := 0, data := 0, reg := none }
def pw0 : PoolWait := ⟨0, .host, 1, false, false⟩
def line0 : CacheLine := ⟨0, 0, 0, false, false, [], []⟩
def calreq0 : CalReq := ⟨.ln0, 1, 0, 0, 0, false⟩
def munit0 : MUnit := { seq := 1, kind := 0, nsid := 1, epoch := 0, lba := 0, n := 1, k := 0, units := 1, stamp := 0, index := 0, chr := 0, data := [{}] }
def psect0 : PendSect := ⟨0, 0, 0, 0, 0, 0, 0, 0, false⟩
def fe0 : FrameEntry := ⟨0, 0, 0, 0, 0, 0, 0⟩
def ccpl0 : CipherCpl := ⟨0, 0, 1⟩
def log0 : LogEntry := ⟨0, 0x1001, 0, 0, 0, 0, 0, 0, 0, [], none⟩
def calHdr0 : List (Nat × Nat) := [(0, 0xc21195d200000004000052000000000000000100002000014c414347)]
def fwImg0 : List (Nat × Nat) := [(0, 0x10000000007000000000000000000000100000000050000000000000000000001000000000400000000000000000000000000000000000000000000000000000000000000000000000000005200000000000000000000000300000010000100000149574647 + 0x10047495347 * 2 ^ 31872)]
def calImg0 : List (Nat × Nat) := [(0, 0x100474953470000ffff0000000402581c200008000f0000002800000000000000680000001e00000000000000670000001400000000000000660000000a0000000000000065000000000000000000000064003c000e00826e640004000d000000000004000c001000000004000b000000000004000a00000008000400090000000a0004000814100504000400070000010000040006000000010004000500000a010004000400010303000400030000000104040002000800020000002900040001000000007ebc6fbd000000bc00005200000000010000014c002000014c414347)]
def chEnt0 : Nat := 0x289dd70500000000000000000000000000000000000000000000000000000000000000000000000000000000000000000000000000000000000000000000000000000000000000000000000000000000000000000000000000000000000000000001000101010000000000000000000001000001000400406000000000000001
def wEnt0 : Nat := 0x63b562b30000000000000000000000000000000000000000000000000000000000000000000000000000000a0000000000000000000000000000000000000001
def drEnt0 : Nat := 0x2b60b55d000000000000000000000000
def frEnt0 : Nat := 0xdd308eed000000000001010000000000000080e800000001000084d000000001
def opF : EcOp := { op0 with frame := some fe0 }
def ckpt0 : Checkpoint := { complete := true, start := 0, seq := 0, tables := {} }
def freq0 : FabReq := ⟨0, .party .host, false, .poolAllocator, 0, .read, 0⟩
def acmd0 : AdminCmd := { id := ⟨0, 0, 5⟩, opcode := 0 }
def aen0 : Aen := ⟨0, 0, 0⟩

/-- A device made by steps from the one after reset. -/
def mk (fs : List (Device → Device)) : Device := fs.foldl (fun d f => f d) {}

theorem witness_EmptyQueueIdles : ∃ (s : State),
    s.pending = [] :=
  ⟨(⟨({} : Device), []⟩ : State), by decide +kernel⟩

theorem witness_CommandsLeaveTheQueue : ∃ (i : Instr) (s t : State), exec i s = .next t :=
  ⟨.hsStoreSeqlRead (.host 0), ⟨{}, []⟩, _, rfl⟩

theorem witness_RunTakesCommandsInOrder : ∃ (k : Nat) (s t : State), Host.Core.run core k s = .next t :=
  ⟨2, ⟨{}, [.pllLockLoss, .coalescingTimeout 0 1]⟩, _, rfl⟩

theorem witness_EveryStepKeepsCanonicalForm : ∃ s t : State, s.canonical ∧ step s = .next t :=
  ⟨⟨{}, [.pllLockLoss]⟩, _, ⟨by decide +kernel, by decide +kernel⟩, rfl⟩

theorem witness_OnlyStoringCommandsChangeMemory : ∃ (i : Instr) (s t : State), mayWriteMemory i = false ∧ exec i s = .next t :=
  ⟨.pllLockLoss, ⟨{}, []⟩, _, rfl, rfl⟩

theorem witness_OnlyRevocationAndConfirmationChangeFuses : ∃ (i : Instr) (s t : State), exec i s = .next t ∧ (∀ m k g, i ≠ .solindKeyRevoke m k g) ∧ (∀ b, i ≠ .bootconfConfirm b) ∧ ∀ w a n v, i ≠ .registerWrite w a n v :=
  ⟨.pllLockLoss, ⟨{}, []⟩, _, rfl, nofun, nofun, nofun⟩

theorem witness_FabricRequestsAreArbitrated :
    (∃ (p : ContPoint) (a : Nat) (s : State), (∃ t, p = .target t) ∧ s.dev.inMap a = true) ∧
    (∃ (id : Nat) (s : State),
    id ∈ s.dev.fabric.granted) :=
  ⟨⟨.target (.sram 3), 0x10300000, ⟨{}, []⟩, ⟨_, rfl⟩, by decide +kernel⟩,
   ⟨(0 : Nat), (⟨(mk [fun d => { d with fabric := { d.fabric with granted := [(0 : Nat)] } }]), []⟩ : State), by decide +kernel⟩⟩

theorem witness_ServicePortIsGrantedLastOrAfterSixteenCycles :
    (∃ (p : ContPoint) (r : FabReq) (s : State),
    s.dev.winner p = some r ∧ ((∀ v, s.dev.fabric.firstService p = some v → v.waited < 16))) ∧
    (∃ (p : ContPoint) (v : FabReq) (s : State),
    s.dev.winner p = none ∧ s.dev.fabric.firstService p = some v ∧ v.waited < 16) ∧
    (∃ (p : ContPoint) (v : FabReq) (s : State),
    s.dev.fabric.firstService p = some v ∧ 16 ≤ v.waited) :=
  ⟨⟨(.poolAllocator : ContPoint), (freq0 : FabReq), (⟨(mk [fun d => { d with fabric := { d.fabric with waiting := [(freq0 : FabReq)] } }]), []⟩ : State), by decide +kernel⟩,
   ⟨(.poolAllocator : ContPoint), ({ freq0 with who := .service .scrubber, waited := 15 } : FabReq), (⟨(mk [fun d => { d with fabric := { d.fabric with waiting := [({ freq0 with who := .service .scrubber, waited := 15 } : FabReq)] } }]), []⟩ : State), by decide +kernel⟩,
   ⟨(.poolAllocator : ContPoint), ({ freq0 with who := .service .scrubber, waited := 16 } : FabReq), (⟨(mk [fun d => { d with fabric := { d.fabric with waiting := [({ freq0 with who := .service .scrubber, waited := 16 } : FabReq)] } }]), []⟩ : State), by decide +kernel⟩⟩

theorem witness_ArbitrationPicksByUrgencyThenRotation : ∃ (p : ContPoint) (r : FabReq) (d : Device),
    d.winner p = some r :=
  ⟨(.poolAllocator : ContPoint), (freq0 : FabReq), (mk [fun d => { d with fabric := { d.fabric with waiting := [(freq0 : FabReq)] } }]), by decide +kernel⟩

theorem witness_RegisterAccessesAreAlignedWordsInTheMap :
    (∃ (a : Nat) (size : Nat) (s : State),
    s.dev.up = true ∧ inRegs a = true ∧ (size ≠ 4 ∨ a % 4 ≠ 0)) ∧
    (∃ (a : Nat) (size : Nat) (s : State),
    s.dev.up = true ∧ inRegs a = true ∧ (size ≠ 4 ∨ a % 4 ≠ 0)) ∧
    (∃ (a : Nat) (s : State),
    s.dev.up = true ∧ s.dev.inMap a = false) ∧
    (∃ (a : Nat) (s : State),
    s.dev.up = true ∧ s.dev.inMap a = false) ∧
    (∃ (a : Nat) (s : State),
    s.dev.inMap a = false) ∧
    (∃ (who : Initiator) (a : Nat) (s : State),
    s.dev.up = true ∧ inRegs a = true ∧ a % 4 = 0 ∧ rowAt a = none ∧ ((inSecurity a = true → s.dev.secMayWrite who (a - 0xF0500000) = true))) ∧
    (∃ (who : Initiator) (a : Nat) (s : State),
    s.dev.up = true ∧ inRegs a = true ∧ a % 4 = 0 ∧ rowAt a = none ∧ ((inSecurity a = true → s.dev.secMayWrite who (a - 0xF0500000) = true))) ∧
    (∃ (who : Initiator) (a : Nat) (s : State),
    s.dev.up = true ∧ inRegs a = true ∧ a % 4 = 0 ∧ rowAt a = none ∧ ((inSecurity a = true → who ≠ .jtag ∧ s.dev.secMayRead who (a - 0xF0500000) = true))) ∧
    (∃ (who : Initiator) (a : Nat) (s : State),
    s.dev.up = true ∧ inRegs a = true ∧ a % 4 = 0 ∧ rowAt a = none ∧ ((inSecurity a = true → who ≠ .jtag ∧ s.dev.secMayRead who (a - 0xF0500000) = true))) :=
  ⟨⟨(0xF0000001 : Nat), (0 : Nat), (⟨(mk [fun d => { d with boot := { d.boot with phase := .released } }]), []⟩ : State), by decide +kernel⟩,
   ⟨(0xF07FFFFE : Nat), (0 : Nat), (⟨(mk [fun d => { d with boot := { d.boot with phase := .released } }]), []⟩ : State), by decide +kernel⟩,
   ⟨(0x12000000 : Nat), (⟨(mk [fun d => { d with boot := { d.boot with phase := .released } }]), []⟩ : State), by decide +kernel⟩,
   ⟨(0xEFFFFFFC : Nat), (⟨(mk [fun d => { d with boot := { d.boot with phase := .released } }]), []⟩ : State), by decide +kernel⟩,
   ⟨(0xEFFFFFFC : Nat), (⟨({} : Device), []⟩ : State), by decide +kernel⟩,
   ⟨(.host 0 : Initiator), (0xF0000004 : Nat), (⟨(mk [fun d => { d with boot := { d.boot with phase := .released } }]), []⟩ : State), by decide +kernel⟩,
   ⟨(.host 0 : Initiator), (0xF050FFFC : Nat), (⟨(mk [fun d => { d with boot := { d.boot with phase := .released } }]), []⟩ : State), by decide +kernel⟩,
   ⟨(.host 0 : Initiator), (0xF0000004 : Nat), (⟨(mk [fun d => { d with boot := { d.boot with phase := .released } }]), []⟩ : State), by decide +kernel⟩,
   ⟨(.host 0 : Initiator), (0xF050FFFC : Nat), (⟨(mk [fun d => { d with boot := { d.boot with phase := .released } }]), []⟩ : State), by decide +kernel⟩⟩

theorem witness_AccessCodesAct :
    (∃ (s : State),
    s.dev.up = true) ∧
    (∃ (s : State),
    s.dev.up = true) ∧
    (∃ (s : State),
    s.dev.up = true) ∧
    (∃ (s : State),
    s.dev.up = true) :=
  ⟨⟨(⟨(mk [fun d => { d with boot := { d.boot with phase := .released } }]), []⟩ : State), by decide +kernel⟩,
   ⟨(⟨(mk [fun d => { d with boot := { d.boot with phase := .released } }]), []⟩ : State), by decide +kernel⟩,
   ⟨(⟨(mk [fun d => { d with boot := { d.boot with phase := .released } }]), []⟩ : State), by decide +kernel⟩,
   ⟨(⟨(mk [fun d => { d with boot := { d.boot with phase := .released } }]), []⟩ : State), by decide +kernel⟩⟩

theorem witness_ResetsStartTheDeviceAgain :
    (∃ (st : Straps),
    st.scan = false) ∧
    (∃ (st : Straps),
    st.scan = false) ∧
    (∃ (st : Straps),
    st.scan = true) :=
  ⟨⟨({} : Straps), by decide +kernel⟩,
   ⟨({} : Straps), by decide +kernel⟩,
   ⟨({ scan := true } : Straps), by decide +kernel⟩⟩

theorem witness_BootExaminesBothCalibreCopies :
    (∃ (o : BootObs) (s : State),
    s.dev.boot.phase = .awaitLock ∧ s.dev.aon.off = false ∧ o.readErrA = false ∧ calHeader s.dev.nor.calA = 0) ∧
    (∃ (o : BootObs) (s : State),
    s.dev.boot.phase = .awaitLock ∧ s.dev.aon.off = false ∧ o.readErrA = true ∧ o.readErrB = false ∧ calHeader s.dev.nor.calB = 0) ∧
    (∃ (s : State),
    s.dev.boot.phase = .verdictA ∧ s.dev.boot.obs.readErrB = false ∧ calHeader s.dev.nor.calB = 0) ∧
    (∃ (s : State),
    s.dev.boot.phase = .verdictA ∧ s.dev.boot.obs.readErrB = false ∧ calHeader s.dev.nor.calB = 0) ∧
    (∃ (s : State),
    s.dev.boot.phase = .verdictB ∧ s.dev.boot.resultA ≠ 0) :=
  ⟨⟨({} : BootObs), (⟨(mk [fun d => { d with boot := { d.boot with phase := .awaitLock } }, fun d => { d with aon := { d.aon with off := false } }, fun d => { d with nor := { d.nor with calA := calHdr0 } }]), []⟩ : State), by decide +kernel⟩,
   ⟨({ readErrA := true } : BootObs), (⟨(mk [fun d => { d with boot := { d.boot with phase := .awaitLock } }, fun d => { d with aon := { d.aon with off := false } }, fun d => { d with nor := { d.nor with calB := calHdr0 } }]), []⟩ : State), by decide +kernel⟩,
   ⟨(⟨(mk [fun d => { d with boot := { d.boot with phase := .verdictA } }, fun d => { d with nor := { d.nor with calB := calHdr0 } }]), []⟩ : State), by decide +kernel⟩,
   ⟨(⟨(mk [fun d => { d with boot := { d.boot with phase := .verdictA } }, fun d => { d with nor := { d.nor with calB := calHdr0 } }]), []⟩ : State), by decide +kernel⟩,
   ⟨(⟨(mk [fun d => { d with boot := { d.boot with phase := .verdictB } }]), []⟩ : State), by decide +kernel⟩⟩

theorem witness_BootTakesTheSlotOfItsRecord :
    (∃ (r : BootRec) (d : Device),
    d.nor.bootRec = some r ∧ r.stage ≠ 4 ∧ r.pending = none) ∧
    (∃ (r : BootRec) (k : Nat) (d : Device),
    d.nor.bootRec = some r ∧ r.stage ≠ 4 ∧ r.pending = some k ∧ r.pboots < 3 ∧ r.prun < 1800 ∧ d.slotCode d.boot.obs k = 0) ∧
    (∃ (r : BootRec) (k : Nat) (d : Device),
    d.nor.bootRec = some r ∧ r.stage ≠ 4 ∧ r.pending = some k ∧ 3 ≤ r.pboots) ∧
    (∃ (d : Device),
    d.slotCode d.boot.obs d.brec.active = 0) ∧
    (∃ (d : Device),
    d.slotCode d.boot.obs d.brec.active ≠ 0 ∧ d.slotCode d.boot.obs (1 - d.brec.active) ≠ 0) :=
  ⟨⟨({ brec0 with pending := none } : BootRec), (mk [fun d => { d with nor := { d.nor with bootRec := some ({ brec0 with pending := none } : BootRec) } }]), by decide +kernel⟩,
   ⟨({ brec0 with pending := some (0 : Nat) } : BootRec), (0 : Nat), (mk [fun d => { d with nor := { d.nor with bootRec := some ({ brec0 with pending := some (0 : Nat) } : BootRec) } }, fun d => { d with otp := { d.otp with keyMatch := 1 }, nor := { d.nor with slotA := fwImg0 }, boot := { d.boot with obs := { slotA := { signature := true, gcm := true } } } }]), by decide +kernel⟩,
   ⟨({ brec0 with pending := some (0 : Nat), pboots := 3 } : BootRec), (0 : Nat), (mk [fun d => { d with nor := { d.nor with bootRec := some ({ brec0 with pending := some (0 : Nat), pboots := 3 } : BootRec) } }]), by decide +kernel⟩,
   ⟨(mk [fun d => { d with otp := { d.otp with keyMatch := 1 }, nor := { d.nor with slotA := fwImg0 }, boot := { d.boot with obs := { slotA := { signature := true, gcm := true } } } }]), by decide +kernel⟩,
   ⟨({} : Device), by decide +kernel⟩⟩

theorem witness_CalibreLockIsTheBootRoms :
    (∃ (who : Initiator) (s : State),
    (who ≠ .bootRom ∨ s.dev.boot.locked = true)) ∧
    (∃ (v : Word) (s : State),
    s.dev.boot.locked = false ∧ getField v 0 1 = 1) ∧
    (∃ (v : Word) (s : State),
    s.dev.boot.locked = false ∧ getField v 0 1 ≠ 1) :=
  ⟨⟨(.host 0 : Initiator), (⟨({} : Device), []⟩ : State), by decide +kernel⟩,
   ⟨(1 : Word), (⟨(mk [fun d => { d with boot := { d.boot with locked := false } }]), []⟩ : State), by decide +kernel⟩,
   ⟨(0 : Word), (⟨(mk [fun d => { d with boot := { d.boot with locked := false } }]), []⟩ : State), by decide +kernel⟩⟩

theorem witness_ClockLossHoldsAndSupplyLossTurnsOff :
    (∃ (s : State),
    s.dev.up = true) ∧
    (∃ (s : State),
    s.dev.released = true ∧ s.dev.bit MS_STATUS_DRAMRDY = true) ∧
    (∃ (s : State),
    (s.dev.released = false ∨ s.dev.bit MS_STATUS_DRAMRDY = false)) :=
  ⟨⟨(⟨(mk [fun d => { d with boot := { d.boot with phase := .released } }]), []⟩ : State), by decide +kernel⟩,
   ⟨(⟨(mk [fun d => { d with boot := { d.boot with phase := .released } }, fun d => d.wrB MS_STATUS_DRAMRDY true]), []⟩ : State), by decide +kernel⟩,
   ⟨(⟨({} : Device), []⟩ : State), by decide +kernel⟩⟩

theorem witness_MemoryWordReadsBack : ∃ (a : Nat),
    a % 8 = 0 :=
  ⟨(0 : Nat), by decide +kernel⟩

theorem witness_FullWritesStoreTheWord :
    (∃ (a : Nat) (s : State),
    s.dev.memOpen a = true) ∧
    (∃ (a : Nat) (s : State),
    s.dev.memOpen a = true) ∧
    (∃ (a : Nat) (s : State),
    s.dev.memOpen a = false) :=
  ⟨⟨(0x10000008 : Nat), (⟨(mk [fun d => d.wrB MS_STATUS_SRAMRDY true]), []⟩ : State), by decide +kernel⟩,
   ⟨(0x10000008 : Nat), (⟨(mk [fun d => d.wrB MS_STATUS_SRAMRDY true]), []⟩ : State), by decide +kernel⟩,
   ⟨(0 : Nat), (⟨({} : Device), []⟩ : State), by decide +kernel⟩⟩

theorem witness_NarrowWritesMergeTheirBytes : ∃ (a : Nat) (len : Nat) (s : State),
    s.dev.memOpen a = true ∧ s.dev.badBits (alignWord a) = 0 ∧ 0 < len ∧ a % 8 + len ≤ 8 :=
  ⟨(0x11FFFFFF : Nat), (1 : Nat), (⟨(mk [fun d => d.wrB MS_STATUS_SRAMRDY true]), []⟩ : State), by decide +kernel⟩

theorem witness_ReadsCorrectOneFlippedBit :
    (∃ (a : Nat) (s : State),
    s.dev.memOpen a = true ∧ s.dev.badBits (alignWord a) = 0) ∧
    (∃ (a : Nat) (i : Nat) (s : State),
    s.dev.memOpen a = true ∧ s.dev.badBits (alignWord a) = 0 ∧ i < 64) ∧
    (∃ (a : Nat) (s : State),
    alignWord a ∈ s.dev.mem.writeback ∧ s.dev.badBits (alignWord a) = 0) ∧
    (∃ (a : Nat) (i : Nat) (s : State),
    alignWord a ∈ s.dev.mem.writeback ∧ i < 64 ∧ s.dev.badBits (alignWord a) = eccCols.getD i 0) ∧
    (∃ (a : Nat) (s : State),
    alignWord a ∉ s.dev.mem.writeback) ∧
    (∃ (a : Nat) (s : State),
    s.dev.memOpen a = false) :=
  ⟨⟨(0x10000008 : Nat), (⟨(mk [fun d => d.wrB MS_STATUS_SRAMRDY true]), []⟩ : State), by decide +kernel⟩,
   ⟨(0x10000008 : Nat), (63 : Nat), (⟨(mk [fun d => d.wrB MS_STATUS_SRAMRDY true]), []⟩ : State), by decide +kernel⟩,
   ⟨(0x1000000F : Nat), (⟨(mk [fun d => { d with mem := { d.mem with writeback := [0x10000008] } }]), []⟩ : State), by decide +kernel⟩,
   ⟨(0x1000000F : Nat), (63 : Nat), (⟨(mk [fun d => { d with mem := { d.mem with writeback := [0x10000008], bad := [(0x10000008, eccCols.getD 63 0)] } }]), []⟩ : State), by decide +kernel⟩,
   ⟨(0 : Nat), (⟨({} : Device), []⟩ : State), by decide +kernel⟩,
   ⟨(0 : Nat), (⟨({} : Device), []⟩ : State), by decide +kernel⟩⟩

theorem witness_ScrubberWalksMemory :
    (∃ (s : State),
    s.dev.scrubOn = false) ∧
    (∃ (s : State),
    s.dev.scrubOn = true ∧ s.dev.memOpen s.dev.mem.scrubSram = true ∧ s.dev.badBits s.dev.mem.scrubSram = 0) ∧
    (∃ (s : State),
    s.dev.scrubOn = true ∧ s.dev.memOpen s.dev.mem.scrubDram = true ∧ s.dev.badBits s.dev.mem.scrubDram = 0) :=
  ⟨⟨(⟨(mk [fun d => d.wr RG_THSTAT_STEP 1]), []⟩ : State), by decide +kernel⟩,
   ⟨(⟨(mk [fun d => d.wrB MS_STATUS_SRAMRDY true]), []⟩ : State), by decide +kernel⟩,
   ⟨(⟨(mk [fun d => (d.wr MS_STATUS_SIZE 1).wr MS_STATUS_REGIONS 64]), []⟩ : State), by decide +kernel⟩⟩

theorem witness_FillsLeaveMemoryZero :
    (∃ (s : State),
    s.dev.up = true ∧ s.dev.bit MS_STATUS_SRAMRDY = false) ∧
    (∃ (k : Nat) (s : State),
    s.dev.up = true ∧ s.dev.rd MS_STATUS_SIZE = 0 ∧ s.dev.bit MS_STATUS_DRAMFAIL = false ∧ 1 ≤ k ∧ k ≤ 3) ∧
    (∃ (s : State),
    s.dev.up = true ∧ s.dev.rd MS_STATUS_SIZE = 0 ∧ s.dev.bit MS_STATUS_DRAMFAIL = false) ∧
    (∃ (s : State),
    s.dev.dramVisible ≠ 0 ∧ s.dev.rd MS_STATUS_REGIONS < 64 ∧ s.dev.bit MS_STATUS_DRAMFAIL = false) :=
  ⟨⟨(⟨(mk [fun d => { d with boot := { d.boot with phase := .released } }, fun d => d.wrB MS_STATUS_SRAMRDY false]), []⟩ : State), by decide +kernel⟩,
   ⟨(3 : Nat), (⟨(mk [fun d => { d with boot := { d.boot with phase := .released } }, fun d => d.wr MS_STATUS_SIZE 0, fun d => d.wrB MS_STATUS_DRAMFAIL false]), []⟩ : State), by decide +kernel⟩,
   ⟨(⟨(mk [fun d => { d with boot := { d.boot with phase := .released } }, fun d => d.wr MS_STATUS_SIZE 0, fun d => d.wrB MS_STATUS_DRAMFAIL false]), []⟩ : State), by decide +kernel⟩,
   ⟨(⟨(mk [fun d => d.wrB MS_STATUS_DRAMFAIL false, fun d => (d.wr MS_STATUS_SIZE 1).wr MS_STATUS_REGIONS 63]), []⟩ : State), by decide +kernel⟩⟩

theorem witness_PoolRequestsAreGrantedOrWait :
    (∃ (n : Nat),
    (n = 0 ∨ 64 < n)) ∧
    (∃ (n : Nat) (p : Party) (s : State),
    1 ≤ n ∧ n ≤ 64 ∧ s.dev.poolFits p n = true ∧ ((∀ w ∈ s.dev.pool.waiting, w.party ≠ p))) ∧
    (∃ (n : Nat) (p : Party) (s : State),
    1 ≤ n ∧ n ≤ 64 ∧ (s.dev.poolFits p n = false ∨ (∃ w ∈ s.dev.pool.waiting, w.party = p))) ∧
    (∃ (w : PoolWait) (s : State),
    s.dev.pool.waiting = [w] ∧ s.dev.poolFits w.party w.n = true) ∧
    (∃ (s : State),
    ((∀ w ∈ s.dev.pool.waiting, s.dev.poolFits w.party w.n = false))) ∧
    (∃ (id : Nat) (w : PoolWait) (s : State),
    s.dev.pool.waiting.find? (fun x => x.id == id) = some w ∧ w.logged = false) :=
  ⟨⟨(0 : Nat), by decide +kernel⟩,
   ⟨(64 : Nat), (.host : Party), (⟨(mk [fun d => d.wr CB_SRAMPART_BANKS 16]), []⟩ : State), by decide +kernel⟩,
   ⟨(64 : Nat), (.host : Party), (⟨({} : Device), []⟩ : State), by decide +kernel⟩,
   ⟨(pw0 : PoolWait), (⟨(mk [fun d => { d with pool := { d.pool with waiting := [(pw0 : PoolWait)] } }, fun d => d.wr CB_SRAMPART_BANKS 16]), []⟩ : State), by decide +kernel⟩,
   ⟨(⟨({} : Device), []⟩ : State), by decide +kernel⟩,
   ⟨(0 : Nat), ({ pw0 with logged := false } : PoolWait), (⟨(mk [fun d => { d with pool := { d.pool with waiting := [({ pw0 with logged := false } : PoolWait)] } }]), []⟩ : State), by decide +kernel⟩⟩

theorem witness_PoolSharesAreBoundedAndStandbysRefill :
    (∃ (p : Party) (v : Word) (s : State),
    (p = .cipher ∨ 64 ≤ getField v 0 13) ∧ ((allParties.filter (· != p)).map s.dev.poolRes).foldl (· + ·) 0 + getField v 0 13 ≤ s.dev.poolPages) ∧
    (∃ (p : Party) (v : Word) (s : State),
    ((p ≠ .cipher ∧ getField v 0 13 < 64) ∨ s.dev.poolPages < ((allParties.filter (· != p)).map s.dev.poolRes).foldl (· + ·) 0 + getField v 0 13)) ∧
    (∃ (l : Lane) (s : State),
    8 ≤ (s.dev.standby l).length ∧ ((∀ r ∈ s.dev.pool.resv, r.id ≠ standbyId l))) ∧
    (∃ (l : Lane) (i : Nat) (k : Nat) (t : List (Nat × Nat)) (s : State),
    (s.dev.standby l).length = 7 ∧ s.dev.poolFits l.party 1 = true ∧ ((∀ w ∈ s.dev.pool.waiting, w.party ≠ l.party ∧ w.id ≠ standbyId l)) ∧ ((∀ r ∈ s.dev.pool.resv, r.id ≠ standbyId l)) ∧ s.dev.pool.free = (i, k) :: t ∧ 0 < k) :=
  ⟨⟨(.host : Party), (64 : Word), (⟨(mk [fun d => d.wr CB_SRAMPART_BANKS 16]), []⟩ : State), by decide +kernel⟩,
   ⟨(.host : Party), (0 : Word), (⟨({} : Device), []⟩ : State), by decide +kernel⟩,
   ⟨(.ln0 : Lane), (⟨(mk [fun d => { d with pool := { d.pool with standby0 := [0, 1, 2, 3, 4, 5, 6, 7] } }]), []⟩ : State), by decide +kernel⟩,
   ⟨(.ln0 : Lane), (9 : Nat), (1 : Nat), ([] : List (Nat × Nat)), (⟨(mk [fun d => { d with pool := { d.pool with free := ((9 : Nat), (1 : Nat)) :: ([] : List (Nat × Nat)) } }, fun d => { d.wr CB_SRAMPART_BANKS 16 with pool := { d.pool with standby0 := [0, 1, 2, 3, 4, 5, 6], free := [((9 : Nat), (1 : Nat))] } }]), []⟩ : State), by decide +kernel⟩⟩

theorem witness_LinkPortsFollowPerstAndTraining :
    (∃ (p : Nat) (s : State),
    s.dev.hasPort p = true ∧ s.dev.up = true) ∧
    (∃ (p : Nat) (s : State),
    s.dev.hasPort p = true ∧ s.dev.up = true) ∧
    (∃ (p : Nat) (g : Nat) (w : Nat) (s : State),
    s.dev.hasPort p = true ∧ s.dev.up = true ∧ s.dev.boot.phase ≠ .recovery ∧ s.dev.bit (HS_LINK_STS_PERST p) = false ∧ s.dev.bit (HS_LINK_STS_UP p) = false ∧ 1 ≤ g ∧ 1 ≤ w ∧ 1 ≤ s.dev.rd CB_HOST_GEN) ∧
    (∃ (p : Nat) (s : State),
    s.dev.hasPort p = true ∧ s.dev.bit (HS_LINK_STS_PERST p) = false ∧ s.dev.bit (HS_LINK_STS_UP p) = true) ∧
    (∃ (p : Nat) (s : State),
    s.dev.hasPort p = true ∧ s.dev.bit (HS_LINK_STS_UP p) = true) ∧
    (∃ (p : Nat) (s : State),
    s.dev.bit (HS_LINK_STS_UP p) = true) ∧
    (∃ (p : Nat) (s : State),
    s.dev.hasPort p = true) :=
  ⟨⟨(0 : Nat), (⟨(mk [fun d => { d with boot := { d.boot with phase := .released } }]), []⟩ : State), by decide +kernel⟩,
   ⟨(0 : Nat), (⟨(mk [fun d => { d with boot := { d.boot with phase := .released } }]), []⟩ : State), by decide +kernel⟩,
   ⟨(0 : Nat), (1 : Nat), (1 : Nat), (⟨(mk [fun d => { d with boot := { d.boot with phase := .released } }, fun d => d.wrB (HS_LINK_STS_PERST (0 : Nat)) false, fun d => d.wrB (HS_LINK_STS_UP (0 : Nat)) false, fun d => d.wr CB_HOST_GEN (1)]), []⟩ : State), by decide +kernel⟩,
   ⟨(0 : Nat), (⟨(mk [fun d => d.wrB (HS_LINK_STS_PERST (0 : Nat)) false, fun d => d.wrB (HS_LINK_STS_UP (0 : Nat)) true]), []⟩ : State), by decide +kernel⟩,
   ⟨(0 : Nat), (⟨(mk [fun d => d.wrB (HS_LINK_STS_UP (0 : Nat)) true]), []⟩ : State), by decide +kernel⟩,
   ⟨(0 : Nat), (⟨(mk [fun d => d.wrB (HS_LINK_STS_UP (0 : Nat)) true]), []⟩ : State), by decide +kernel⟩,
   ⟨(0 : Nat), (⟨({} : Device), []⟩ : State), by decide +kernel⟩⟩

theorem witness_ControllersEnableReadyAndReset :
    (∃ (c : Nat) (s : State),
    c ∈ s.dev.ctrls ∧ s.dev.released = true ∧ s.dev.bit (HS_LINK_STS_UP c) = true ∧ (s.dev.ctrl c).en = false ∧ (s.dev.ctrl c).rdy = false ∧ (s.dev.ctrl c).resetting = false) ∧
    (∃ (c : Nat) (s : State),
    (s.dev.ctrl c).en = true ∧ (s.dev.ctrl c).rdy = false ∧ ((s.dev.ctrl c).crime = true ∨ (s.dev.atSpeed = true ∧ s.dev.mediumReady = true))) ∧
    (∃ (c : Nat) (s : State),
    (s.dev.ctrl c).rdy = false ∧ (s.dev.ctrl c).crime = false ∧ (s.dev.atSpeed = false ∨ s.dev.mediumReady = false)) ∧
    (∃ (c : Nat) (s : State),
    (s.dev.ctrl c).en = true) ∧
    (∃ (c : Nat) (s : State),
    (s.dev.ctrl c).resetting = true ∧ ((∀ x ∈ s.dev.host.cmds, x.id.ctrl = c → x.silent = false))) ∧
    (∃ (c : Nat) (s : State),
    (s.dev.ctrl c).resetting = true) ∧
    (∃ (c : Nat) (s : State),
    (s.dev.ctrl c).en = true) ∧
    (∃ (c : Nat) (s : State),
    (s.dev.ctrl c).en = true) ∧
    (∃ (id : CmdId) (k : Nat) (c : Cmd) (u : WUnit) (s : State),
    s.dev.cmd id = some c ∧ c.units[k]? = some u ∧ u.st = .pulling) ∧
    (∃ (c : Nat) (q : Nat) (x : CplQ) (s : State),
    s.dev.host.cqs.find? (fun x => x.ctrl == c && x.qid == q) = some x ∧ x.held ≠ 0 ∧ x.irq = true) :=
  ⟨⟨(0 : Nat), (⟨(mk [fun d => { d with boot := { d.boot with phase := .released } }, fun d => d.wrB (HS_LINK_STS_UP (0 : Nat)) true, fun d => d.updCtrl (0 : Nat) fun z_ => { z_ with en := false }, fun d => d.updCtrl (0 : Nat) fun z_ => { z_ with rdy := false }, fun d => d.updCtrl (0 : Nat) fun z_ => { z_ with resetting := false }]), []⟩ : State), by decide +kernel⟩,
   ⟨(0 : Nat), (⟨(mk [fun d => d.updCtrl (0 : Nat) fun z_ => { z_ with en := true }, fun d => d.updCtrl (0 : Nat) fun z_ => { z_ with rdy := false }, fun d => d.updCtrl (0 : Nat) fun z_ => { z_ with crime := true }]), []⟩ : State), by decide +kernel⟩,
   ⟨(0 : Nat), (⟨(mk [fun d => d.updCtrl (0 : Nat) fun z_ => { z_ with rdy := false }, fun d => d.updCtrl (0 : Nat) fun z_ => { z_ with crime := false }]), []⟩ : State), by decide +kernel⟩,
   ⟨(0 : Nat), (⟨(mk [fun d => d.updCtrl (0 : Nat) fun z_ => { z_ with en := true }]), []⟩ : State), by decide +kernel⟩,
   ⟨(0 : Nat), (⟨(mk [fun d => d.updCtrl (0 : Nat) fun z_ => { z_ with resetting := true }]), []⟩ : State), by decide +kernel⟩,
   ⟨(0 : Nat), (⟨(mk [fun d => d.updCtrl (0 : Nat) fun z_ => { z_ with resetting := true }]), []⟩ : State), by decide +kernel⟩,
   ⟨(0 : Nat), (⟨(mk [fun d => d.updCtrl (0 : Nat) fun z_ => { z_ with en := true }]), []⟩ : State), by decide +kernel⟩,
   ⟨(0 : Nat), (⟨(mk [fun d => d.updCtrl (0 : Nat) fun z_ => { z_ with en := true }]), []⟩ : State), by decide +kernel⟩,
   ⟨(⟨0, 1, 5⟩ : CmdId), (0 : Nat), ({ cmd0 with units := [({ unit0 with st := .pulling } : WUnit)] } : Cmd), ({ unit0 with st := .pulling } : WUnit), (⟨(mk [fun d => d.updHost fun h => { h with cmds := h.cmds ++ [({ cmd0 with units := [({ unit0 with st := .pulling } : WUnit)] } : Cmd)] }]), []⟩ : State), by decide +kernel⟩,
   ⟨(0 : Nat), (1 : Nat), ({ cq0 with held := 3 } : CplQ), (⟨(mk [fun d => d.updHost fun h => { h with cqs := [({ cq0 with held := 3 } : CplQ)] }]), []⟩ : State), by decide +kernel⟩⟩

theorem witness_FetchingFollowsDoorbellsAndTheArbiter :
    (∃ (c : Nat) (q : Nat) (t : Nat) (x : SubQ) (s : State),
    (s.dev.ctrl c).en = true ∧ s.dev.host.sqs.find? (fun x => x.ctrl == c && x.qid == q) = some x ∧ t < x.size ∧ (s.dev.ctrl c).cfs = false ∧ s.dev.forcing = false) ∧
    (∃ (c : Nat) (s : State),
    (s.dev.ctrl c).en = false) ∧
    (∃ (x : SubQ) (left : Nat) (s : State),
    s.dev.arbNext = some (x, left) ∧ x.qid = 0) ∧
    (∃ (x : SubQ) (left : Nat) (s : State),
    s.dev.arbNext = some (x, left) ∧ x.qid ≠ 0) ∧
    (∃ (s : State),
    s.dev.arbNext = none) ∧
    (∃ (s : State),
    ((∀ c ∈ s.dev.host.cmds, c.held = false)) ∧ s.dev.inFlight < 1024) :=
  ⟨⟨(0 : Nat), (1 : Nat), (15 : Nat), ({ sq0 with size := 16 } : SubQ), (⟨(mk [fun d => d.updCtrl (0 : Nat) fun z_ => { z_ with en := true }, fun d => d.updCtrl (0 : Nat) fun z_ => { z_ with cfs := false }, fun d => d.updHost fun h => { h with sqs := [({ sq0 with size := 16 } : SubQ)] }]), []⟩ : State), by decide +kernel⟩,
   ⟨(0 : Nat), (⟨(mk [fun d => d.updCtrl (0 : Nat) fun z_ => { z_ with en := false }]), []⟩ : State), by decide +kernel⟩,
   ⟨({ ctrl := 0, qid := 0, size := 16, cq := 0, tail := 1 } : SubQ), (1 : Nat), (⟨(mk [fun d => { d with boot := { d.boot with phase := .released } }, fun d => (d.updCtrl 0 fun k => { k with en := true, rdy := true }).updHost fun h => { h with sqs := [({ ctrl := 0, qid := 0, size := 16, cq := 0, tail := 1 } : SubQ)] }]), []⟩ : State), by decide +kernel⟩,
   ⟨({ ctrl := 0, qid := 1, size := 16, cq := 1, tail := 1 } : SubQ), (1 : Nat), (⟨(mk [fun d => { d with boot := { d.boot with phase := .released } }, fun d => (d.updCtrl 0 fun k => { k with en := true, rdy := true }).updHost fun h => { h with sqs := [({ ctrl := 0, qid := 1, size := 16, cq := 1, tail := 1 } : SubQ)] }]), []⟩ : State), by decide +kernel⟩,
   ⟨(⟨({} : Device), []⟩ : State), by decide +kernel⟩,
   ⟨(⟨({} : Device), []⟩ : State), by decide +kernel⟩⟩

theorem witness_StampsFollowTheOrderOfFetch : ∃ (id : CmdId) (nsid : Nat) (slba : Nat) (n : Nat) (x : Ns) (d : Device),
    d.attachedNs id.ctrl nsid = some x ∧ d.eraseRefuses nsid = none ∧ nsid ∉ d.host.loss ∧ x.deferred = false ∧ 1 ≤ n ∧ n ≤ 512 ∧ slba + n ≤ x.blocks ∧ x.res.rtype = 0 ∧ d.mediumReady = true ∧ d.otUsed < 2048 :=
  ⟨(⟨0, 1, 5⟩ : CmdId), (1 : Nat), (0 : Nat), (512 : Nat), ({ ns0 with blocks := 512, attached := 1 } : Ns), (mk [fun d => d.wr HS_STORE_STS_REBUILD 2, fun d => d.setNs 1 ({ ns0 with blocks := 512, attached := 1 } : Ns)]), by decide +kernel⟩

theorem witness_QueuesAreMadeAndDeleted :
    (∃ (id : CmdId) (q : Nat) (n : Nat) (cq : Nat) (s : State),
    Stands s id 0x01 ∧ 1 ≤ q ∧ q ≤ s.dev.queuePairs ∧ ((∀ x ∈ s.dev.host.sqs, ¬(x.ctrl = id.ctrl ∧ x.qid = q))) ∧ 2 ≤ n ∧ n ≤ 4096 ∧ cq ≠ 0 ∧ ((∃ x ∈ s.dev.host.cqs, x.ctrl = id.ctrl ∧ x.qid = cq))) ∧
    (∃ (id : CmdId) (q : Nat) (s : State),
    Stands s id 0x01 ∧ (q = 0 ∨ s.dev.queuePairs < q)) ∧
    (∃ (id : CmdId) (q : Nat) (n : Nat) (v : Nat) (s : State),
    Stands s id 0x05 ∧ 1 ≤ q ∧ q ≤ s.dev.queuePairs ∧ ((∀ x ∈ s.dev.host.cqs, ¬(x.ctrl = id.ctrl ∧ x.qid = q))) ∧ 2 ≤ n ∧ n ≤ 4096 ∧ v < s.dev.vectors) ∧
    (∃ (id : CmdId) (q : Nat) (n : Nat) (v : Nat) (s : State),
    Stands s id 0x05 ∧ 1 ≤ q ∧ q ≤ s.dev.queuePairs ∧ ((∀ x ∈ s.dev.host.cqs, ¬(x.ctrl = id.ctrl ∧ x.qid = q))) ∧ 2 ≤ n ∧ n ≤ 4096 ∧ s.dev.vectors ≤ v) ∧
    (∃ (id : CmdId) (q : Nat) (s : State),
    Stands s id 0x00 ∧ (q = 0 ∨ (∀ x ∈ s.dev.host.sqs, ¬(x.ctrl = id.ctrl ∧ x.qid = q)))) ∧
    (∃ (id : CmdId) (q : Nat) (s : State),
    Stands s id 0x00 ∧ q ≠ 0 ∧ ((∃ x ∈ s.dev.host.sqs, x.ctrl = id.ctrl ∧ x.qid = q)) ∧ s.dev.host.cmds = []) ∧
    (∃ (id : CmdId) (a : AdminCmd) (q : Nat) (s : State),
    s.dev.adminCmd id 0x00 = some a ∧ a.wait = some q ∧ s.dev.fromQueue id.ctrl q = []) ∧
    (∃ (id : CmdId) (q : Nat) (s : State),
    Stands s id 0x04 ∧ q ≠ 0 ∧ ((∃ x ∈ s.dev.host.cqs, x.ctrl = id.ctrl ∧ x.qid = q)) ∧ ((∀ x ∈ s.dev.host.sqs, ¬(x.ctrl = id.ctrl ∧ x.cq = q)))) ∧
    (∃ (id : CmdId) (q : Nat) (s : State),
    Stands s id 0x04 ∧ q ≠ 0 ∧ ((∃ x ∈ s.dev.host.cqs, x.ctrl = id.ctrl ∧ x.qid = q)) ∧ ((∃ x ∈ s.dev.host.sqs, x.ctrl = id.ctrl ∧ x.cq = q))) ∧
    (∃ (id : CmdId) (q : Nat) (cid : Nat) (s : State),
    Stands s id 0x08 ∧ s.dev.cmd ⟨id.ctrl, q, cid⟩ = none) ∧
    (∃ (id : CmdId) (q : Nat) (cid : Nat) (c : Cmd) (s : State),
    Stands s id 0x08 ∧ s.dev.cmd ⟨id.ctrl, q, cid⟩ = some c ∧ c.abortable = true) :=
  ⟨⟨(⟨0, 0, 5⟩ : CmdId), (64 : Nat), (4096 : Nat), (1 : Nat), (⟨(mk [fun d => d.updCtrl (⟨0, 0, 5⟩ : CmdId).ctrl fun k => { k with admin := k.admin ++ [{ id := (⟨0, 0, 5⟩ : CmdId), opcode := 0x01 }] }, fun d => d.updHost fun h => { h with cqs := [cq0] }]), []⟩ : State), by unfold Stands; decide +kernel⟩,
   ⟨(⟨0, 0, 5⟩ : CmdId), (65 : Nat), (⟨(mk [fun d => d.updCtrl (⟨0, 0, 5⟩ : CmdId).ctrl fun k => { k with admin := k.admin ++ [{ id := (⟨0, 0, 5⟩ : CmdId), opcode := 0x01 }] }]), []⟩ : State), by unfold Stands; decide +kernel⟩,
   ⟨(⟨0, 0, 5⟩ : CmdId), (1 : Nat), (2 : Nat), (64 : Nat), (⟨(mk [fun d => d.updCtrl (⟨0, 0, 5⟩ : CmdId).ctrl fun k => { k with admin := k.admin ++ [{ id := (⟨0, 0, 5⟩ : CmdId), opcode := 0x05 }] }]), []⟩ : State), by unfold Stands; decide +kernel⟩,
   ⟨(⟨0, 0, 5⟩ : CmdId), (1 : Nat), (2 : Nat), (65 : Nat), (⟨(mk [fun d => d.updCtrl (⟨0, 0, 5⟩ : CmdId).ctrl fun k => { k with admin := k.admin ++ [{ id := (⟨0, 0, 5⟩ : CmdId), opcode := 0x05 }] }]), []⟩ : State), by unfold Stands; decide +kernel⟩,
   ⟨(⟨0, 0, 5⟩ : CmdId), (0 : Nat), (⟨(mk [fun d => d.updCtrl (⟨0, 0, 5⟩ : CmdId).ctrl fun k => { k with admin := k.admin ++ [{ id := (⟨0, 0, 5⟩ : CmdId), opcode := 0x00 }] }]), []⟩ : State), by unfold Stands; decide +kernel⟩,
   ⟨(⟨0, 0, 5⟩ : CmdId), (1 : Nat), (⟨(mk [fun d => d.updCtrl (⟨0, 0, 5⟩ : CmdId).ctrl fun k => { k with admin := k.admin ++ [{ id := (⟨0, 0, 5⟩ : CmdId), opcode := 0x00 }] }, fun d => { d with host := { d.host with cmds := [] } }, fun d => d.updHost fun h => { h with sqs := [sq0] }]), []⟩ : State), by unfold Stands; decide +kernel⟩,
   ⟨(⟨0, 0, 5⟩ : CmdId), ({ id := ⟨0, 0, 5⟩, opcode := 0, wait := some 1 } : AdminCmd), (1 : Nat), (⟨(mk [fun d => d.updCtrl 0 fun k => { k with admin := [({ id := ⟨0, 0, 5⟩, opcode := 0, wait := some 1 } : AdminCmd)] }]), []⟩ : State), by decide +kernel⟩,
   ⟨(⟨0, 0, 5⟩ : CmdId), (1 : Nat), (⟨(mk [fun d => d.updCtrl (⟨0, 0, 5⟩ : CmdId).ctrl fun k => { k with admin := k.admin ++ [{ id := (⟨0, 0, 5⟩ : CmdId), opcode := 0x04 }] }, fun d => d.updHost fun h => { h with cqs := [cq0] }]), []⟩ : State), by unfold Stands; decide +kernel⟩,
   ⟨(⟨0, 0, 5⟩ : CmdId), (1 : Nat), (⟨(mk [fun d => d.updCtrl (⟨0, 0, 5⟩ : CmdId).ctrl fun k => { k with admin := k.admin ++ [{ id := (⟨0, 0, 5⟩ : CmdId), opcode := 0x04 }] }, fun d => d.updHost fun h => { h with cqs := [cq0], sqs := [sq0] }]), []⟩ : State), by unfold Stands; decide +kernel⟩,
   ⟨(⟨0, 0, 5⟩ : CmdId), (0 : Nat), (0 : Nat), (⟨(mk [fun d => d.updCtrl (⟨0, 0, 5⟩ : CmdId).ctrl fun k => { k with admin := k.admin ++ [{ id := (⟨0, 0, 5⟩ : CmdId), opcode := 0x08 }] }]), []⟩ : State), by unfold Stands; decide +kernel⟩,
   ⟨(⟨0, 0, 5⟩ : CmdId), (1 : Nat), (5 : Nat), ({ cmd0 with op := .read 0 1 {} } : Cmd), (⟨(mk [fun d => d.updCtrl (⟨0, 0, 5⟩ : CmdId).ctrl fun k => { k with admin := k.admin ++ [{ id := (⟨0, 0, 5⟩ : CmdId), opcode := 0x08 }] }, fun d => d.updHost fun h => { h with cmds := h.cmds ++ [({ cmd0 with op := .read 0 1 {} } : Cmd)] }, fun d => d.updHost fun h => { h with cmds := [({ cmd0 with op := .read 0 1 {} } : Cmd)] }]), []⟩ : State), by unfold Stands; decide +kernel⟩⟩

theorem witness_AdminQueriesAndFeaturesAnswer :
    (∃ (id : CmdId) (lid : Nat) (nsid : Nat) (lsp : Nat) (off : Nat) (len : Nat) (s : State) (e : Device), Stands s id 0x02 ∧ s.dev.getLog (some id) id.ctrl lid nsid lsp off len = some e) ∧
    (∃ (id : CmdId) (off : Nat) (s : State),
    Stands s id 0x02 ∧ off % 4 ≠ 0) ∧
    (∃ (id : CmdId) (s : State),
    Stands s id 0x06) ∧
    (∃ (id : CmdId) (nsid : Nat) (x : Ns) (s : State),
    Stands s id 0x06 ∧ s.dev.attachedNs id.ctrl nsid = some x) ∧
    (∃ (id : CmdId) (fid : Nat) (s : State),
    Stands s id 0x09 ∧ fid ∉ featureIds) ∧
    (∃ (id : CmdId) (s : State),
    Stands s id 0x09) ∧
    (∃ (id : CmdId) (s : State),
    Stands s id 0x09) ∧
    (∃ (id : CmdId) (a : Nat) (s : State),
    Stands s id 0x09 ∧ 4 < a % 32) ∧
    (∃ (id : CmdId) (s : State),
    Stands s id 0x0A) ∧
    (∃ (id : CmdId) (s : State),
    Stands s id 0x0C ∧ (s.dev.ctrl id.ctrl).aens = []) ∧
    (∃ (id : CmdId) (a : Aen) (rest : List Aen) (s : State),
    Stands s id 0x0C ∧ (s.dev.ctrl id.ctrl).aens = a :: rest) :=
  ⟨(Option.isSome_iff_exists.mp (by decide +kernel : ((⟨(mk [fun d => d.updCtrl (⟨0, 0, 5⟩ : CmdId).ctrl fun k => { k with admin := k.admin ++ [{ id := (⟨0, 0, 5⟩ : CmdId), opcode := 0x02 }] }]), []⟩ : State).dev.getLog (some (⟨0, 0, 5⟩ : CmdId)) (⟨0, 0, 5⟩ : CmdId).ctrl (1 : Nat) (0xFFFFFFFF : Nat) (0 : Nat) (0 : Nat) (64 : Nat)).isSome = true)).elim fun e he =>
    ⟨(⟨0, 0, 5⟩ : CmdId), (1 : Nat), (0xFFFFFFFF : Nat), (0 : Nat), (0 : Nat), (64 : Nat), (⟨(mk [fun d => d.updCtrl (⟨0, 0, 5⟩ : CmdId).ctrl fun k => { k with admin := k.admin ++ [{ id := (⟨0, 0, 5⟩ : CmdId), opcode := 0x02 }] }]), []⟩ : State), e, by unfold Stands; decide +kernel, he⟩,
   ⟨(⟨0, 0, 5⟩ : CmdId), (3 : Nat), (⟨(mk [fun d => d.updCtrl (⟨0, 0, 5⟩ : CmdId).ctrl fun k => { k with admin := k.admin ++ [{ id := (⟨0, 0, 5⟩ : CmdId), opcode := 0x02 }] }]), []⟩ : State), by unfold Stands; decide +kernel⟩,
   ⟨(⟨0, 0, 5⟩ : CmdId), (⟨(mk [fun d => d.updCtrl (⟨0, 0, 5⟩ : CmdId).ctrl fun k => { k with admin := k.admin ++ [{ id := (⟨0, 0, 5⟩ : CmdId), opcode := 0x06 }] }]), []⟩ : State), by unfold Stands; decide +kernel⟩,
   ⟨(⟨0, 0, 5⟩ : CmdId), (1 : Nat), ({ ns0 with attached := 1 } : Ns), (⟨(mk [fun d => d.updCtrl (⟨0, 0, 5⟩ : CmdId).ctrl fun k => { k with admin := k.admin ++ [{ id := (⟨0, 0, 5⟩ : CmdId), opcode := 0x06 }] }, fun d => d.setNs 1 ({ ns0 with attached := 1 } : Ns)]), []⟩ : State), by unfold Stands; decide +kernel⟩,
   ⟨(⟨0, 0, 5⟩ : CmdId), (0xC2 : Nat), (⟨(mk [fun d => d.updCtrl (⟨0, 0, 5⟩ : CmdId).ctrl fun k => { k with admin := k.admin ++ [{ id := (⟨0, 0, 5⟩ : CmdId), opcode := 0x09 }] }]), []⟩ : State), by unfold Stands; decide +kernel⟩,
   ⟨(⟨0, 0, 5⟩ : CmdId), (⟨(mk [fun d => d.updCtrl (⟨0, 0, 5⟩ : CmdId).ctrl fun k => { k with admin := k.admin ++ [{ id := (⟨0, 0, 5⟩ : CmdId), opcode := 0x09 }] }]), []⟩ : State), by unfold Stands; decide +kernel⟩,
   ⟨(⟨0, 0, 5⟩ : CmdId), (⟨(mk [fun d => d.updCtrl (⟨0, 0, 5⟩ : CmdId).ctrl fun k => { k with admin := k.admin ++ [{ id := (⟨0, 0, 5⟩ : CmdId), opcode := 0x09 }] }]), []⟩ : State), by unfold Stands; decide +kernel⟩,
   ⟨(⟨0, 0, 5⟩ : CmdId), (5 : Nat), (⟨(mk [fun d => d.updCtrl (⟨0, 0, 5⟩ : CmdId).ctrl fun k => { k with admin := k.admin ++ [{ id := (⟨0, 0, 5⟩ : CmdId), opcode := 0x09 }] }]), []⟩ : State), by unfold Stands; decide +kernel⟩,
   ⟨(⟨0, 0, 5⟩ : CmdId), (⟨(mk [fun d => d.updCtrl (⟨0, 0, 5⟩ : CmdId).ctrl fun k => { k with admin := k.admin ++ [{ id := (⟨0, 0, 5⟩ : CmdId), opcode := 0x0A }] }]), []⟩ : State), by unfold Stands; decide +kernel⟩,
   ⟨(⟨0, 0, 5⟩ : CmdId), (⟨(mk [fun d => d.updCtrl (⟨0, 0, 5⟩ : CmdId).ctrl fun k => { k with admin := k.admin ++ [{ id := (⟨0, 0, 5⟩ : CmdId), opcode := 0x0C }] }, fun d => d.updCtrl (⟨0, 0, 5⟩ : CmdId).ctrl fun z_ => { z_ with aens := [] }]), []⟩ : State), by unfold Stands; decide +kernel⟩,
   ⟨(⟨0, 0, 5⟩ : CmdId), (aen0 : Aen), ([] : List Aen), (⟨(mk [fun d => d.updCtrl (⟨0, 0, 5⟩ : CmdId).ctrl fun k => { k with admin := k.admin ++ [{ id := (⟨0, 0, 5⟩ : CmdId), opcode := 0x0C }] }, fun d => d.updCtrl (⟨0, 0, 5⟩ : CmdId).ctrl fun z_ => { z_ with aens := (aen0 : Aen) :: ([] : List Aen) }]), []⟩ : State), by unfold Stands; decide +kernel⟩⟩

theorem witness_CompletionsGoToTheirQueueWithItsPhase : ∃ (id : CmdId) (x : CplQ) (d : Device),
    d.host.cqs.find? (fun z => z.ctrl == id.ctrl && z.qid == d.cqOf id.ctrl id.sq) = some x :=
  ⟨(⟨0, 1, 5⟩ : CmdId), ({ cq0 with tail := 15 } : CplQ), (mk [fun d => d.updHost fun h => { h with cqs := [({ cq0 with tail := 15 } : CplQ)], sqs := [sq0] }]), by decide +kernel⟩

theorem witness_NamespacesAndErasesFollowTheirRules :
    (∃ (id : CmdId) (f : Nat) (p : Nat) (n : Nat) (s : State),
    Stands s id 0x0D ∧ (2 < f ∨ 3 < p ∨ (f = 0 ∧ p ≠ 0) ∨ n = 0)) ∧
    (∃ (id : CmdId) (f : Nat) (p : Nat) (n : Nat) (s : State),
    Stands s id 0x0D ∧ f ≤ 2 ∧ p ≤ 3 ∧ ((f = 0 → p = 0)) ∧ n ≠ 0 ∧ s.dev.nsids.length + 1 ≤ s.dev.rd CB_NSLIM_COUNT ∧ (n + 65535) / 65536 ≤ s.dev.freeUnits) ∧
    (∃ (id : CmdId) (n : Nat) (s : State),
    Stands s id 0x0D ∧ s.dev.ns n = none) ∧
    (∃ (id : CmdId) (n : Nat) (x : Ns) (s : State),
    Stands s id 0x0D ∧ s.dev.ns n = some x ∧ s.dev.nsBusy n = true) ∧
    (∃ (id : CmdId) (n : Nat) (x : Ns) (s : State),
    Stands s id 0x0D ∧ s.dev.ns n = some x ∧ s.dev.nsBusy n = false ∧ s.dev.mapped n = none) ∧
    (∃ (id : CmdId) (n : Nat) (m : Nat) (cs : List Nat) (x : Ns) (s : State),
    Stands s id 0x15 ∧ s.dev.ns n = some x ∧ s.dev.ctrlMask cs = some m ∧ x.attached &&& m = 0) ∧
    (∃ (id : CmdId) (n : Nat) (m : Nat) (cs : List Nat) (x : Ns) (s : State),
    Stands s id 0x15 ∧ s.dev.ns n = some x ∧ s.dev.ctrlMask cs = some m ∧ x.attached &&& m ≠ 0) ∧
    (∃ (id : CmdId) (n : Nat) (m : Nat) (cs : List Nat) (x : Ns) (s : State),
    Stands s id 0x15 ∧ s.dev.ns n = some x ∧ s.dev.ctrlMask cs = some m ∧ x.attached &&& m = m ∧ s.dev.nsBusy n = false) ∧
    (∃ (id : CmdId) (n : Nat) (m : Nat) (cs : List Nat) (x : Ns) (s : State),
    Stands s id 0x15 ∧ s.dev.ns n = some x ∧ s.dev.ctrlMask cs = some m ∧ x.attached &&& m ≠ m) ∧
    (∃ (id : CmdId) (n : Nat) (f : Nat) (e : Nat) (p : Nat) (s : State),
    Stands s id 0x80 ∧ f ≤ 2 ∧ e ≤ 2 ∧ p ≤ 3 ∧ ((f = 0 → p = 0)) ∧ (s.dev.ns n).isSome = true ∧ s.dev.host.erase = .idle) :=
  ⟨⟨(⟨0, 0, 5⟩ : CmdId), (2 + 1 : Nat), (0 : Nat), (0 : Nat), (⟨(mk [fun d => d.updCtrl (⟨0, 0, 5⟩ : CmdId).ctrl fun k => { k with admin := k.admin ++ [{ id := (⟨0, 0, 5⟩ : CmdId), opcode := 0x0D }] }]), []⟩ : State), by unfold Stands; decide +kernel⟩,
   ⟨(⟨0, 0, 5⟩ : CmdId), (2 : Nat), (3 : Nat), (65536 : Nat), (⟨(mk [fun d => d.updCtrl (⟨0, 0, 5⟩ : CmdId).ctrl fun k => { k with admin := k.admin ++ [{ id := (⟨0, 0, 5⟩ : CmdId), opcode := 0x0D }] }, fun d => d.wr CB_NSLIM_COUNT (d.nsids.length + 1), fun d => { d.wr CB_NSLIM_COUNT 64 with medium := { d.medium with capacity := 1 } }]), []⟩ : State), by unfold Stands; decide +kernel⟩,
   ⟨(⟨0, 0, 5⟩ : CmdId), (0 : Nat), (⟨(mk [fun d => d.updCtrl (⟨0, 0, 5⟩ : CmdId).ctrl fun k => { k with admin := k.admin ++ [{ id := (⟨0, 0, 5⟩ : CmdId), opcode := 0x0D }] }]), []⟩ : State), by unfold Stands; decide +kernel⟩,
   ⟨(⟨0, 0, 5⟩ : CmdId), (3 : Nat), (ns0 : Ns), (⟨(mk [fun d => d.updCtrl (⟨0, 0, 5⟩ : CmdId).ctrl fun k => { k with admin := k.admin ++ [{ id := (⟨0, 0, 5⟩ : CmdId), opcode := 0x0D }] }, fun d => d.setNs (3 : Nat) (ns0 : Ns), fun d => d.updHost fun h => { h with cmds := [{ cmd0 with nsid := 3 }] }]), []⟩ : State), by unfold Stands; decide +kernel⟩,
   ⟨(⟨0, 0, 5⟩ : CmdId), (0 : Nat), (ns0 : Ns), (⟨(mk [fun d => d.updCtrl (⟨0, 0, 5⟩ : CmdId).ctrl fun k => { k with admin := k.admin ++ [{ id := (⟨0, 0, 5⟩ : CmdId), opcode := 0x0D }] }, fun d => d.setNs (0 : Nat) (ns0 : Ns)]), []⟩ : State), by unfold Stands; decide +kernel⟩,
   ⟨(⟨0, 0, 5⟩ : CmdId), (1 : Nat), (1 : Nat), ([1] : List Nat), ({ ns0 with attached := 2 } : Ns), (⟨(mk [fun d => d.updCtrl (⟨0, 0, 5⟩ : CmdId).ctrl fun k => { k with admin := k.admin ++ [{ id := (⟨0, 0, 5⟩ : CmdId), opcode := 0x15 }] }, fun d => d.setNs (1 : Nat) ({ ns0 with attached := 2 } : Ns)]), []⟩ : State), by unfold Stands; decide +kernel⟩,
   ⟨(⟨0, 0, 5⟩ : CmdId), (1 : Nat), (1 : Nat), ([1] : List Nat), ({ ns0 with attached := 1 } : Ns), (⟨(mk [fun d => d.updCtrl (⟨0, 0, 5⟩ : CmdId).ctrl fun k => { k with admin := k.admin ++ [{ id := (⟨0, 0, 5⟩ : CmdId), opcode := 0x15 }] }, fun d => d.setNs (1 : Nat) ({ ns0 with attached := 1 } : Ns)]), []⟩ : State), by unfold Stands; decide +kernel⟩,
   ⟨(⟨0, 0, 5⟩ : CmdId), (1 : Nat), (1 : Nat), ([1] : List Nat), ({ ns0 with attached := 1 } : Ns), (⟨(mk [fun d => d.updCtrl (⟨0, 0, 5⟩ : CmdId).ctrl fun k => { k with admin := k.admin ++ [{ id := (⟨0, 0, 5⟩ : CmdId), opcode := 0x15 }] }, fun d => d.setNs (1 : Nat) ({ ns0 with attached := 1 } : Ns)]), []⟩ : State), by unfold Stands; decide +kernel⟩,
   ⟨(⟨0, 0, 5⟩ : CmdId), (1 : Nat), (1 : Nat), ([1] : List Nat), ({ ns0 with attached := 2 } : Ns), (⟨(mk [fun d => d.updCtrl (⟨0, 0, 5⟩ : CmdId).ctrl fun k => { k with admin := k.admin ++ [{ id := (⟨0, 0, 5⟩ : CmdId), opcode := 0x15 }] }, fun d => d.setNs (1 : Nat) ({ ns0 with attached := 2 } : Ns)]), []⟩ : State), by unfold Stands; decide +kernel⟩,
   ⟨(⟨0, 0, 5⟩ : CmdId), (1 : Nat), (2 : Nat), (2 : Nat), (3 : Nat), (⟨(mk [fun d => d.updCtrl (⟨0, 0, 5⟩ : CmdId).ctrl fun k => { k with admin := k.admin ++ [{ id := (⟨0, 0, 5⟩ : CmdId), opcode := 0x80 }] }, fun d => { d with host := { d.host with erase := .idle } }, fun d => d.setNs 1 ns0]), []⟩ : State), by unfold Stands; decide +kernel⟩⟩

theorem witness_SanitizeRunsToItsEnd :
    (∃ (id : CmdId) (s : State),
    Stands s id 0x84 ∧ s.dev.host.erase = .idle) ∧
    (∃ (s : State),
    s.dev.host.erase = .waiting ∧ s.dev.nsBusy s.dev.eraseRec.nsid = true) ∧
    (∃ (s : State),
    s.dev.host.erase = .waiting ∧ s.dev.nsBusy s.dev.eraseRec.nsid = false ∧ s.dev.hnor.nss = [] ∧ s.dev.host.eraseFormat = true) ∧
    (∃ (s : State),
    s.dev.host.erase = .running) ∧
    (∃ (s : State),
    s.dev.host.erase ≠ .running) ∧
    (∃ (s : State),
    s.dev.host.erase = .running ∧ s.dev.host.eraseFormat = false) :=
  ⟨⟨(⟨0, 0, 5⟩ : CmdId), (⟨(mk [fun d => d.updCtrl (⟨0, 0, 5⟩ : CmdId).ctrl fun k => { k with admin := k.admin ++ [{ id := (⟨0, 0, 5⟩ : CmdId), opcode := 0x84 }] }, fun d => { d with host := { d.host with erase := .idle } }]), []⟩ : State), by unfold Stands; decide +kernel⟩,
   ⟨(⟨(mk [fun d => { d with host := { d.host with erase := .waiting } }, fun d => { d.updHost (fun h => { h with cmds := [cmd0] }) with hnor := { d.hnor with sanitize := { d.hnor.sanitize with nsid := 0xFFFFFFFF }, format := { d.hnor.format with nsid := 0xFFFFFFFF } } }]), []⟩ : State), by decide +kernel⟩,
   ⟨(⟨(mk [fun d => { d with host := { d.host with erase := .waiting } }, fun d => { d with hnor := { d.hnor with nss := [] } }, fun d => { d with host := { d.host with eraseFormat := true } }]), []⟩ : State), by decide +kernel⟩,
   ⟨(⟨(mk [fun d => { d with host := { d.host with erase := .running } }]), []⟩ : State), by decide +kernel⟩,
   ⟨(⟨({} : Device), []⟩ : State), by decide +kernel⟩,
   ⟨(⟨(mk [fun d => { d with host := { d.host with erase := .running } }, fun d => { d with host := { d.host with eraseFormat := false } }]), []⟩ : State), by decide +kernel⟩⟩

theorem witness_ManagementRequestsAnswer :
    (∃ (s : State),
    s.dev.regOn = true) ∧
    (∃ (s : State),
    s.dev.regOn = true) ∧
    (∃ (s : State),
    s.dev.regOn = true) ∧
    (∃ (s : State),
    s.dev.regOn = true) ∧
    (∃ (k : Nat) (s : State),
    s.dev.regOn = true ∧ (k = 100 ∨ k = 400)) ∧
    (∃ (k : Nat) (s : State),
    s.dev.regOn = true ∧ k ≠ 100 ∧ k ≠ 400) ∧
    (∃ (c : Nat) (n : Nat) (v : Nat) (fs : List (String × Nat)) (s : State),
    s.dev.regOn = true ∧ s.dev.identify c n v = .ok fs) ∧
    (∃ (c : Nat) (lid : Nat) (nsid : Nat) (lsp : Nat) (off : Nat) (len : Nat) (s : State) (e : Device), s.dev.regOn = true ∧ s.dev.getLog none c lid nsid lsp off len = some e) ∧
    (∃ (f : Nat) (s : State),
    s.dev.regOn = true ∧ f ∈ featureIds) ∧
    (∃ (f : Nat) (s : State),
    s.dev.regOn = true ∧ f ∉ featureIds) ∧
    (∃ (s : State),
    s.dev.regOn = true) ∧
    (∃ (op : Nat) (s : State),
    s.dev.regOn = true ∧ op ∉ [0xC0, 0x00, 0x01, 0x02, 0x03, 0x04]) ∧
    (∃ (s : State),
    s.dev.regOn = false) :=
  ⟨⟨(⟨(mk [fun d => { d with boot := { d.boot with phase := .released } }]), []⟩ : State), by decide +kernel⟩,
   ⟨(⟨(mk [fun d => { d with boot := { d.boot with phase := .released } }]), []⟩ : State), by decide +kernel⟩,
   ⟨(⟨(mk [fun d => { d with boot := { d.boot with phase := .released } }]), []⟩ : State), by decide +kernel⟩,
   ⟨(⟨(mk [fun d => { d with boot := { d.boot with phase := .released } }]), []⟩ : State), by decide +kernel⟩,
   ⟨(100 : Nat), (⟨(mk [fun d => { d with boot := { d.boot with phase := .released } }]), []⟩ : State), by decide +kernel⟩,
   ⟨(0 : Nat), (⟨(mk [fun d => { d with boot := { d.boot with phase := .released } }]), []⟩ : State), by decide +kernel⟩,
   ⟨(0 : Nat), (0x10 : Nat), (0 : Nat), ([] : List (String × Nat)), (⟨(mk [fun d => { d with boot := { d.boot with phase := .released } }]), []⟩ : State), by decide +kernel⟩,
   (Option.isSome_iff_exists.mp (by decide +kernel : ((⟨(mk [fun d => { d with boot := { d.boot with phase := .released } }]), []⟩ : State).dev.getLog none (0 : Nat) (1 : Nat) (0xFFFFFFFF : Nat) (0 : Nat) (0 : Nat) (64 : Nat)).isSome = true)).elim fun e he =>
    ⟨(0 : Nat), (1 : Nat), (0xFFFFFFFF : Nat), (0 : Nat), (0 : Nat), (64 : Nat), (⟨(mk [fun d => { d with boot := { d.boot with phase := .released } }]), []⟩ : State), e, by decide +kernel, he⟩,
   ⟨(1 : Nat), (⟨(mk [fun d => { d with boot := { d.boot with phase := .released } }]), []⟩ : State), by decide +kernel⟩,
   ⟨(0 : Nat), (⟨(mk [fun d => { d with boot := { d.boot with phase := .released } }]), []⟩ : State), by decide +kernel⟩,
   ⟨(⟨(mk [fun d => { d with boot := { d.boot with phase := .released } }]), []⟩ : State), by decide +kernel⟩,
   ⟨(5 : Nat), (⟨(mk [fun d => { d with boot := { d.boot with phase := .released } }]), []⟩ : State), by decide +kernel⟩,
   ⟨(⟨({} : Device), []⟩ : State), by decide +kernel⟩⟩

theorem witness_ForcedAndAutonomousPowerSteps :
    (∃ (t : Nat) (s : State),
    s.dev.regOn = true ∧ (t < 2 ∨ 5 < t)) ∧
    (∃ (t : Nat) (r : Nat) (l : Nat) (s : State),
    s.dev.regOn = true ∧ 2 ≤ t ∧ t ≤ 5 ∧ (r ≠ 0 ∨ 10000 < l)) ∧
    (∃ (t : Nat) (l : Nat) (s : State),
    s.dev.regOn = true ∧ 2 ≤ t ∧ t ≤ 5 ∧ l ≤ 10000 ∧ s.dev.longWork = true) ∧
    (∃ (t : Nat) (l : Nat) (s : State),
    s.dev.regOn = true ∧ 2 ≤ t ∧ t ≤ 5 ∧ l ≤ 10000 ∧ s.dev.longWork = false ∧ s.dev.power.forcedReq = false ∧ s.dev.power.run = none ∧ s.dev.power.drain = none) ∧
    (∃ (t : Nat) (s : State),
    s.dev.power.drain = some t ∧ s.dev.host.cmds = []) ∧
    (∃ (t : Nat) (s : State),
    s.dev.power.drain = some t ∧ s.dev.chron.chr < s.dev.power.drainAt ∧ s.dev.inFlight ≠ 0) ∧
    (∃ (c : Nat) (ms : Nat) (t : Nat) (s : State),
    (s.dev.ctrl c).en = true ∧ (s.dev.ctrl c).apste = true ∧ s.dev.inFlight = 0 ∧ s.dev.level41 = false ∧ Sparse.find (s.dev.apstTable c) s.dev.host.ps = some (ms, t) ∧ s.dev.host.ps < t ∧ t ≤ 4) ∧
    (∃ (c : Nat) (ms : Nat) (t : Nat) (s : State),
    (s.dev.ctrl c).en = true ∧ (s.dev.ctrl c).apste = true ∧ s.dev.inFlight = 0 ∧ s.dev.level41 = true ∧ Sparse.find (s.dev.apstTable c) s.dev.host.ps = some (ms, t) ∧ s.dev.host.ps < t ∧ t ≤ 4) ∧
    (∃ (t : Nat) (s : State),
    s.dev.power.autoTarget = some t ∧ s.dev.inFlight = 0 ∧ s.dev.chron.chr % 100000 = 0 ∧ s.dev.power.lastEnd + 1000000 ≤ s.dev.chron.chr) ∧
    (∃ (t : Nat) (s : State),
    s.dev.power.autoTarget = some t ∧ s.dev.inFlight = 0 ∧ s.dev.chron.chr % 100000 ≠ 0) ∧
    (∃ (s : State),
    s.dev.regOn = true ∧ ((∀ c, (s.dev.ctrl c).en = false))) :=
  ⟨⟨(0 : Nat), (⟨(mk [fun d => { d with boot := { d.boot with phase := .released } }]), []⟩ : State), by decide +kernel⟩,
   ⟨(5 : Nat), (1 : Nat), (0 : Nat), (⟨(mk [fun d => { d with boot := { d.boot with phase := .released } }]), []⟩ : State), by decide +kernel⟩,
   ⟨(5 : Nat), (10000 : Nat), (⟨(mk [fun d => { d with boot := { d.boot with phase := .released } }, fun d => d.updHost fun h => { h with erase := .running }]), []⟩ : State), by decide +kernel⟩,
   ⟨(5 : Nat), (10000 : Nat), (⟨(mk [fun d => { d with boot := { d.boot with phase := .released } }, fun d => { d with power := { d.power with forcedReq := false } }, fun d => { d with power := { d.power with run := none } }, fun d => { d with power := { d.power with drain := none } }]), []⟩ : State), by decide +kernel⟩,
   ⟨(0 : Nat), (⟨(mk [fun d => { d with power := { d.power with drain := some (0 : Nat) } }, fun d => { d with host := { d.host with cmds := [] } }]), []⟩ : State), by decide +kernel⟩,
   ⟨(0 : Nat), (⟨(mk [fun d => { d with power := { d.power with drain := some (0 : Nat) } }, fun d => { d.updHost (fun h => { h with cmds := [cmd0] }) with power := { d.power with drainAt := 1 } }]), []⟩ : State), by decide +kernel⟩,
   ⟨(0 : Nat), (300000 : Nat), (2 : Nat), (⟨(mk [fun d => d.updCtrl (0 : Nat) fun z_ => { z_ with en := true }, fun d => d.updCtrl (0 : Nat) fun z_ => { z_ with apste := true }, fun d => d.updHost fun h => { h with ps := 1 }]), []⟩ : State), by decide +kernel⟩,
   ⟨(0 : Nat), (100 : Nat), (1 : Nat), (⟨(mk [fun d => d.updCtrl (0 : Nat) fun z_ => { z_ with en := true }, fun d => d.updCtrl (0 : Nat) fun z_ => { z_ with apste := true }, fun d => d.wr CB_STATUS_LEVEL 41]), []⟩ : State), by decide +kernel⟩,
   ⟨(0 : Nat), (⟨(mk [fun d => { d with power := { d.power with autoTarget := some (0 : Nat) } }, fun d => { d with chron := { d.chron with chr := d.power.lastEnd + 1000000 } }]), []⟩ : State), by decide +kernel⟩,
   ⟨(1 : Nat), (⟨(mk [fun d => { d with power := { d.power with autoTarget := some (1 : Nat) } }, fun d => { d with chron := { d.chron with chr := 99999 } }]), []⟩ : State), by decide +kernel⟩,
   ⟨(⟨(mk [fun d => { d with boot := { d.boot with phase := .released } }]), []⟩ : State), by decide +kernel, fun c => by unfold Device.ctrl; split <;> rfl⟩⟩

theorem witness_ReadsTakeEachBlockFromItsBestSource :
    (∃ (id : CmdId) (ok : Bool) (c : Cmd) (a : Nat) (n : Nat) (pi : PiCtl) (x : Ns) (s : State),
    s.dev.cmd id = some c ∧ c.op = .read a n pi ∧ c.held = false ∧ c.silent = false ∧ s.dev.pagesLoaded c = true ∧ s.dev.ns c.nsid = some x ∧ (ok = true ∨ c.readsMedium = false)) ∧
    (∃ (id : CmdId) (ok : Bool) (c : Cmd) (a : Nat) (n : Nat) (pi : PiCtl) (x : Ns) (s : State),
    s.dev.cmd id = some c ∧ c.op = .verify a n pi ∧ c.held = false ∧ c.silent = false ∧ s.dev.pagesLoaded c = true ∧ s.dev.ns c.nsid = some x ∧ (ok = true ∨ c.readsMedium = false)) ∧
    (∃ (id : CmdId) (c : Cmd) (a : Nat) (n : Nat) (pi : PiCtl) (x : Ns) (s : State),
    s.dev.cmd id = some c ∧ c.op = .read a n pi ∧ c.held = false ∧ c.silent = false ∧ s.dev.pagesLoaded c = true ∧ s.dev.ns c.nsid = some x ∧ c.readsMedium = true) ∧
    (∃ (c : Cmd) (x : Ns) (a : Nat) (n : Nat) (i : Nat) (pi : PiCtl) (r : RBlk) (rest : List Src),
    c.op = .read a n pi ∧ c.blocks[i]? = some r ∧ r.sent = false ∧ r.chain = .zeros :: rest ∧ piCheck x pi i (zeroBlk x) = none) ∧
    (∃ (c : Cmd) (i : Nat) (b : Nat) (j : Nat) (r : RBlk) (rest : List Src) (d : Device),
    c.blocks[i]? = some r ∧ r.sent = false ∧ r.chain = .medium b j :: rest ∧ d.stored b j = none) :=
  ⟨⟨(⟨0, 1, 5⟩ : CmdId), (true : Bool), ({ cmd0 with op := .read (0 : Nat) (0 : Nat) ({} : PiCtl), held := false, silent := false } : Cmd), (0 : Nat), (0 : Nat), ({} : PiCtl), (ns0 : Ns), (⟨(mk [fun d => d.updHost fun h => { h with cmds := h.cmds ++ [({ cmd0 with op := .read (0 : Nat) (0 : Nat) ({} : PiCtl), held := false, silent := false } : Cmd)] }, fun d => d.setNs ({ cmd0 with op := .read (0 : Nat) (0 : Nat) ({} : PiCtl), held := false, silent := false } : Cmd).nsid (ns0 : Ns)]), []⟩ : State), by decide +kernel⟩,
   ⟨(⟨0, 1, 5⟩ : CmdId), (true : Bool), ({ cmd0 with op := .verify (0 : Nat) (0 : Nat) ({} : PiCtl), held := false, silent := false } : Cmd), (0 : Nat), (0 : Nat), ({} : PiCtl), (ns0 : Ns), (⟨(mk [fun d => d.updHost fun h => { h with cmds := h.cmds ++ [({ cmd0 with op := .verify (0 : Nat) (0 : Nat) ({} : PiCtl), held := false, silent := false } : Cmd)] }, fun d => d.setNs ({ cmd0 with op := .verify (0 : Nat) (0 : Nat) ({} : PiCtl), held := false, silent := false } : Cmd).nsid (ns0 : Ns)]), []⟩ : State), by decide +kernel⟩,
   ⟨(⟨0, 1, 5⟩ : CmdId), ({ cmd0 with op := .read 0 1 {}, blocks := [{ chain := [.medium 0 0] }] } : Cmd), (0 : Nat), (1 : Nat), ({} : PiCtl), (ns0 : Ns), (⟨(mk [fun d => d.updHost fun h => { h with cmds := h.cmds ++ [({ cmd0 with op := .read 0 1 {}, blocks := [{ chain := [.medium 0 0] }] } : Cmd)] }, fun d => d.setNs ({ cmd0 with op := .read 0 1 {}, blocks := [{ chain := [.medium 0 0] }] } : Cmd).nsid (ns0 : Ns)]), []⟩ : State), by decide +kernel⟩,
   ⟨({ cmd0 with op := .read (0 : Nat) (0 : Nat) ({} : PiCtl), blocks := [({ rblk0 with sent := false, chain := .zeros :: ([] : List Src) } : RBlk)] } : Cmd), (ns0 : Ns), (0 : Nat), (0 : Nat), (0 : Nat), ({} : PiCtl), ({ rblk0 with sent := false, chain := .zeros :: ([] : List Src) } : RBlk), ([] : List Src), by decide +kernel⟩,
   ⟨({ cmd0 with blocks := [({ rblk0 with sent := false, chain := .medium (0 : Nat) (0 : Nat) :: ([] : List Src) } : RBlk)] } : Cmd), (0 : Nat), (0 : Nat), (0 : Nat), ({ rblk0 with sent := false, chain := .medium (0 : Nat) (0 : Nat) :: ([] : List Src) } : RBlk), ([] : List Src), ({} : Device), by decide +kernel⟩⟩

theorem witness_WritesScheduleAndFlushesWait :
    (∃ (id : CmdId) (pl : Place) (c : Cmd) (a : Nat) (n : Nat) (pi : PiCtl) (s : State),
    s.dev.cmd id = some c ∧ c.op = .write a n pi ∧ c.held = false ∧ c.silent = false ∧ c.fail = none ∧ c.zone? s.dev = none ∧ s.dev.writeHeld pl.lane = false ∧ s.dev.fragWait c = false) ∧
    (∃ (id : CmdId) (pl : Place) (c : Cmd) (a : Nat) (n : Nat) (pi : PiCtl) (s : State),
    s.dev.cmd id = some c ∧ c.op = .write a n pi ∧ c.held = false ∧ c.silent = false ∧ c.fail = none ∧ c.zone? s.dev = none ∧ s.dev.writeHeld pl.lane = true) ∧
    (∃ (id : CmdId) (c : Cmd) (a : Nat) (n : Nat) (z : Nat) (pi : PiCtl) (s : State),
    s.dev.cmd id = some c ∧ c.op = .zoneAppend a n pi ∧ c.held = false ∧ c.silent = false ∧ c.fail = none ∧ c.zone? s.dev = some z ∧ s.dev.host.cmds = [c]) ∧
    (∃ (id : CmdId) (c : Cmd) (a : Nat) (n : Nat) (s : State),
    s.dev.cmd id = some c ∧ c.op = .writeZeroes a n ∧ s.dev.zonedNs c.nsid = false ∧ c.fresh = true ∧ s.dev.mayWrite c.no c.nsid a n = true) ∧
    (∃ (id : CmdId) (c : Cmd) (rs : List (Nat × Nat)) (s : State),
    s.dev.cmd id = some c ∧ c.op = .deallocate rs ∧ c.fresh = true) ∧
    (∃ (id : CmdId) (c : Cmd) (s : State),
    s.dev.cmd id = some c ∧ c.op = .flush ∧ c.fresh = true) ∧
    (∃ (id : CmdId) (c : Cmd) (s : State),
    s.dev.cmd id = some c ∧ c.op = .flush ∧ c.started = true ∧ s.dev.flushDone c = true) ∧
    (∃ (id : CmdId) (c : Cmd) (s : State),
    s.dev.cmd id = some c ∧ c.op = .flush ∧ s.dev.flushDone c = false) :=
  ⟨⟨(⟨0, 1, 5⟩ : CmdId), (⟨.ln0, 7, 0, 1000⟩ : Place), ({ cmd0 with op := .write (0 : Nat) (0 : Nat) ({} : PiCtl), held := false, silent := false, fail := none } : Cmd), (0 : Nat), (0 : Nat), ({} : PiCtl), (⟨(mk [fun d => d.updHost fun h => { h with cmds := h.cmds ++ [({ cmd0 with op := .write (0 : Nat) (0 : Nat) ({} : PiCtl), held := false, silent := false, fail := none } : Cmd)] }, fun d => { d with medium := { d.medium with bands0 := 2, bands1 := 2 } }]), []⟩ : State), by decide +kernel⟩,
   ⟨(⟨0, 1, 5⟩ : CmdId), (⟨.ln0, 7, 0, 1000⟩ : Place), ({ cmd0 with op := .write (0 : Nat) (0 : Nat) ({} : PiCtl), held := false, silent := false, fail := none } : Cmd), (0 : Nat), (0 : Nat), ({} : PiCtl), (⟨(mk [fun d => d.updHost fun h => { h with cmds := h.cmds ++ [({ cmd0 with op := .write (0 : Nat) (0 : Nat) ({} : PiCtl), held := false, silent := false, fail := none } : Cmd)] }, fun d => { d with medium := { d.medium with bands0 := 0, bands1 := 0 } }]), []⟩ : State), by decide +kernel⟩,
   ⟨(⟨0, 1, 5⟩ : CmdId), ({ cmd0 with op := .zoneAppend 65536 1 {}, lba := 65536 } : Cmd), (65536 : Nat), (1 : Nat), (1 : Nat), ({} : PiCtl), (⟨(mk [fun d => d.updHost fun h => { h with cmds := h.cmds ++ [({ cmd0 with op := .zoneAppend 65536 1 {}, lba := 65536 } : Cmd)] }, fun d => { d with host := { d.host with cmds := [({ cmd0 with op := .zoneAppend 65536 1 {}, lba := 65536 } : Cmd)] } }, fun d => { d with medium := { d.medium with bands0 := 2, bands1 := 2 } }, fun d => d.setNs 1 { ns0 with zoned := true, blocks := 131072 }]), []⟩ : State), by decide +kernel⟩,
   ⟨(⟨0, 1, 5⟩ : CmdId), ({ cmd0 with op := .writeZeroes (0 : Nat) (0 : Nat) } : Cmd), (0 : Nat), (0 : Nat), (⟨(mk [fun d => d.updHost fun h => { h with cmds := h.cmds ++ [({ cmd0 with op := .writeZeroes (0 : Nat) (0 : Nat) } : Cmd)] }]), []⟩ : State), by decide +kernel⟩,
   ⟨(⟨0, 1, 5⟩ : CmdId), ({ cmd0 with op := .deallocate ([] : List (Nat × Nat)) } : Cmd), ([] : List (Nat × Nat)), (⟨(mk [fun d => d.updHost fun h => { h with cmds := h.cmds ++ [({ cmd0 with op := .deallocate ([] : List (Nat × Nat)) } : Cmd)] }]), []⟩ : State), by decide +kernel⟩,
   ⟨(⟨0, 1, 5⟩ : CmdId), ({ cmd0 with op := .flush } : Cmd), (⟨(mk [fun d => d.updHost fun h => { h with cmds := h.cmds ++ [({ cmd0 with op := .flush } : Cmd)] }]), []⟩ : State), by decide +kernel⟩,
   ⟨(⟨0, 1, 5⟩ : CmdId), ({ cmd0 with op := .flush, started := true } : Cmd), (⟨(mk [fun d => d.updHost fun h => { h with cmds := h.cmds ++ [({ cmd0 with op := .flush, started := true } : Cmd)] }]), []⟩ : State), by decide +kernel⟩,
   ⟨(⟨0, 1, 5⟩ : CmdId), ({ cmd0 with no := 2 } : Cmd), (⟨(mk [fun d => d.updHost fun h => { h with cmds := h.cmds ++ [({ cmd0 with no := 2 } : Cmd)] }, fun d => d.updHost fun h => { h with cmds := [({ cmd0 with no := 2 } : Cmd), { cmd0 with id := ⟨0, 1, 6⟩, op := .write 0 1 {} }] }]), []⟩ : State), by decide +kernel⟩⟩

theorem witness_ZonesAndReservationsAreCarriedOut :
    (∃ (id : CmdId) (c : Cmd) (s : State),
    SendReady s id c .close) ∧
    (∃ (id : CmdId) (c : Cmd) (s : State),
    SendReady s id c .openZone) ∧
    (∃ (id : CmdId) (c : Cmd) (s : State),
    SendReady s id c .finish ∧ c.zones ≠ []) ∧
    (∃ (id : CmdId) (c : Cmd) (s : State),
    SendReady s id c .reset ∧ c.zones ≠ []) ∧
    (∃ (id : CmdId) (c : Cmd) (s : State),
    SendReady s id c .offline ∧ c.zones ≠ []) ∧
    (∃ (id : CmdId) (c : Cmd) (s : State),
    SendReady s id c .reset ∧ c.zones = []) ∧
    (∃ (id : CmdId) (c : Cmd) (a : Nat) (x : Bool) (s : State),
    s.dev.cmd id = some c ∧ c.op = .zoneReceive a x ∧ c.fresh = true) ∧
    (∃ (id : CmdId) (c : Cmd) (a : Nat) (b : Bool) (x : Ns) (s : State),
    s.dev.cmd id = some c ∧ c.op = .zoneReceive a b ∧ s.dev.ns c.nsid = some x ∧ c.started = true ∧ c.zones = []) ∧
    (∃ (id : CmdId) (c : Cmd) (r : ResArgs) (s : State),
    s.dev.cmd id = some c ∧ c.op = .resRegister r ∧ c.held = false ∧ c.silent = false) ∧
    (∃ (id : CmdId) (c : Cmd) (r : ResArgs) (s : State),
    s.dev.cmd id = some c ∧ c.op = .resAcquire r ∧ c.held = false ∧ c.silent = false) ∧
    (∃ (id : CmdId) (c : Cmd) (r : ResArgs) (s : State),
    s.dev.cmd id = some c ∧ c.op = .resRelease r ∧ c.held = false ∧ c.silent = false) ∧
    (∃ (id : CmdId) (c : Cmd) (s : State),
    s.dev.cmd id = some c ∧ c.op = .resReport ∧ c.held = false ∧ c.silent = false) :=
  ⟨⟨(⟨0, 1, 5⟩ : CmdId), ({ cmd0 with op := .zoneSend .close 0 false, zones := [0] } : Cmd), (⟨(mk [fun d => d.updHost fun h => { h with cmds := [({ cmd0 with op := .zoneSend .close 0 false, zones := [0] } : Cmd)] }]), []⟩ : State), ⟨by decide +kernel, ⟨_, _, rfl⟩, by decide +kernel⟩⟩,
   ⟨(⟨0, 1, 5⟩ : CmdId), ({ cmd0 with op := .zoneSend .openZone 0 false, zones := [0] } : Cmd), (⟨(mk [fun d => d.updHost fun h => { h with cmds := [({ cmd0 with op := .zoneSend .openZone 0 false, zones := [0] } : Cmd)] }]), []⟩ : State), ⟨by decide +kernel, ⟨_, _, rfl⟩, by decide +kernel⟩⟩,
   ⟨(⟨0, 1, 5⟩ : CmdId), ({ cmd0 with op := .zoneSend .finish 0 false, zones := [0] } : Cmd), (⟨(mk [fun d => d.updHost fun h => { h with cmds := [({ cmd0 with op := .zoneSend .finish 0 false, zones := [0] } : Cmd)] }]), []⟩ : State), ⟨by decide +kernel, ⟨_, _, rfl⟩, by decide +kernel⟩, by decide +kernel⟩,
   ⟨(⟨0, 1, 5⟩ : CmdId), ({ cmd0 with op := .zoneSend .reset 0 true, zones := [0, 1] } : Cmd), (⟨(mk [fun d => d.updHost fun h => { h with cmds := [({ cmd0 with op := .zoneSend .reset 0 true, zones := [0, 1] } : Cmd)] }]), []⟩ : State), ⟨by decide +kernel, ⟨_, _, rfl⟩, by decide +kernel⟩, by decide +kernel⟩,
   ⟨(⟨0, 1, 5⟩ : CmdId), ({ cmd0 with op := .zoneSend .offline 0 false, zones := [0] } : Cmd), (⟨(mk [fun d => d.updHost fun h => { h with cmds := [({ cmd0 with op := .zoneSend .offline 0 false, zones := [0] } : Cmd)] }]), []⟩ : State), ⟨by decide +kernel, ⟨_, _, rfl⟩, by decide +kernel⟩, by decide +kernel⟩,
   ⟨(⟨0, 1, 5⟩ : CmdId), ({ cmd0 with op := .zoneSend .reset 0 true } : Cmd), (⟨(mk [fun d => d.updHost fun h => { h with cmds := [({ cmd0 with op := .zoneSend .reset 0 true } : Cmd)] }]), []⟩ : State), ⟨by decide +kernel, ⟨_, _, rfl⟩, by decide +kernel⟩, by decide +kernel⟩,
   ⟨(⟨0, 1, 5⟩ : CmdId), ({ cmd0 with op := .zoneReceive (0 : Nat) (false : Bool) } : Cmd), (0 : Nat), (false : Bool), (⟨(mk [fun d => d.updHost fun h => { h with cmds := h.cmds ++ [({ cmd0 with op := .zoneReceive (0 : Nat) (false : Bool) } : Cmd)] }]), []⟩ : State), by decide +kernel⟩,
   ⟨(⟨0, 1, 5⟩ : CmdId), ({ cmd0 with op := .zoneReceive (0 : Nat) (false : Bool), started := true, zones := [] } : Cmd), (0 : Nat), (false : Bool), (ns0 : Ns), (⟨(mk [fun d => d.updHost fun h => { h with cmds := h.cmds ++ [({ cmd0 with op := .zoneReceive (0 : Nat) (false : Bool), started := true, zones := [] } : Cmd)] }, fun d => d.setNs ({ cmd0 with op := .zoneReceive (0 : Nat) (false : Bool), started := true, zones := [] } : Cmd).nsid (ns0 : Ns)]), []⟩ : State), by decide +kernel⟩,
   ⟨(⟨0, 1, 5⟩ : CmdId), ({ cmd0 with op := .resRegister ({ action := 0 } : ResArgs), held := false, silent := false } : Cmd), ({ action := 0 } : ResArgs), (⟨(mk [fun d => d.updHost fun h => { h with cmds := h.cmds ++ [({ cmd0 with op := .resRegister ({ action := 0 } : ResArgs), held := false, silent := false } : Cmd)] }]), []⟩ : State), by decide +kernel⟩,
   ⟨(⟨0, 1, 5⟩ : CmdId), ({ cmd0 with op := .resAcquire ({ action := 0 } : ResArgs), held := false, silent := false } : Cmd), ({ action := 0 } : ResArgs), (⟨(mk [fun d => d.updHost fun h => { h with cmds := h.cmds ++ [({ cmd0 with op := .resAcquire ({ action := 0 } : ResArgs), held := false, silent := false } : Cmd)] }]), []⟩ : State), by decide +kernel⟩,
   ⟨(⟨0, 1, 5⟩ : CmdId), ({ cmd0 with op := .resRelease ({ action := 0 } : ResArgs), held := false, silent := false } : Cmd), ({ action := 0 } : ResArgs), (⟨(mk [fun d => d.updHost fun h => { h with cmds := h.cmds ++ [({ cmd0 with op := .resRelease ({ action := 0 } : ResArgs), held := false, silent := false } : Cmd)] }]), []⟩ : State), by decide +kernel⟩,
   ⟨(⟨0, 1, 5⟩ : CmdId), ({ cmd0 with op := .resReport, held := false, silent := false } : Cmd), (⟨(mk [fun d => d.updHost fun h => { h with cmds := h.cmds ++ [({ cmd0 with op := .resReport, held := false, silent := false } : Cmd)] }]), []⟩ : State), by decide +kernel⟩⟩

theorem witness_WriteDataIsPulledAndBecomesDurable :
    (∃ (id : CmdId) (k : Nat) (r : Nat) (c : Cmd) (u : WUnit) (a : Nat) (n : Nat) (pi : PiCtl) (s : State),
    s.dev.cmd id = some c ∧ c.op = .write a n pi ∧ c.units[k]? = some u ∧ u.st = .waiting ∧ u.band ≠ none ∧ (s.dev.allocPages r u.n).1.length = u.n) ∧
    (∃ (id : CmdId) (k : Nat) (r : Nat) (c : Cmd) (u : WUnit) (s : State),
    s.dev.cmd id = some c ∧ c.units[k]? = some u ∧ (s.dev.allocPages r u.n).1.length ≠ u.n) ∧
    (∃ (id : CmdId) (k : Nat) (bs : List Blk) (c : Cmd) (u : WUnit) (x : Ns) (s : State),
    s.dev.cmd id = some c ∧ c.units[k]? = some u ∧ s.dev.ns c.nsid = some x ∧ u.st = .pulling ∧ bs.length = u.n ∧ x.pit = 0) ∧
    (∃ (id : CmdId) (k : Nat) (bs : List Blk) (c : Cmd) (u : WUnit) (x : Ns) (st : Status) (s : State),
    s.dev.cmd id = some c ∧ c.units[k]? = some u ∧ s.dev.ns c.nsid = some x ∧ u.st = .pulling ∧ bs.length = u.n ∧ (bs.zipIdx.findSome? fun q => piCheck x c.op.pi (64 * k + q.2) q.1) = some st) ∧
    (∃ (id : CmdId) (k : Nat) (c : Cmd) (u : WUnit) (s : State),
    s.dev.unitOf ⟨id, k, 0⟩ = some (c, u) ∧ u.st = .writing ∧ ((∃ m ∈ s.dev.bandUnits (u.band.getD 0), m.seq = u.seq ∧ m.c0 = .good ∧ m.c1 = .good)) ∧ s.dev.verdictsDue id k = false) ∧
    (∃ (id : CmdId) (k : Nat) (c : Cmd) (u : WUnit) (s : State),
    s.dev.unitOf ⟨id, k, 0⟩ = some (c, u) ∧ ((∀ m ∈ s.dev.bandUnits (u.band.getD 0), ¬(m.seq = u.seq ∧ m.c0 = .good ∧ m.c1 = .good)))) :=
  ⟨⟨(⟨0, 1, 5⟩ : CmdId), (0 : Nat), (0 : Nat), ({ cmd0 with op := .write (0 : Nat) (1 : Nat) ({} : PiCtl), units := [({ unit0 with band := some 7, n := 1 } : WUnit)] } : Cmd), ({ unit0 with band := some 7, n := 1 } : WUnit), (0 : Nat), (1 : Nat), ({} : PiCtl), (⟨(mk [fun d => d.updHost fun h => { h with cmds := h.cmds ++ [({ cmd0 with op := .write (0 : Nat) (1 : Nat) ({} : PiCtl), units := [({ unit0 with band := some 7, n := 1 } : WUnit)] } : Cmd)] }, fun d => { d.wr CB_SRAMPART_BANKS 16 with pool := { d.pool with free := [(0, 4)], resv := [{ id := (0 : Nat), party := .host, left := 1 }] } }]), []⟩ : State), by decide +kernel⟩,
   ⟨(⟨0, 1, 5⟩ : CmdId), (0 : Nat), (0 : Nat), ({ cmd0 with units := [(unit0 : WUnit)] } : Cmd), (unit0 : WUnit), (⟨(mk [fun d => d.updHost fun h => { h with cmds := h.cmds ++ [({ cmd0 with units := [(unit0 : WUnit)] } : Cmd)] }]), []⟩ : State), by decide +kernel⟩,
   ⟨(⟨0, 1, 5⟩ : CmdId), (0 : Nat), ([{ data := 5 }] : List Blk), ({ cmd0 with units := [({ unit0 with st := .pulling } : WUnit)] } : Cmd), ({ unit0 with st := .pulling } : WUnit), ({ ns0 with pit := 0 } : Ns), (⟨(mk [fun d => d.updHost fun h => { h with cmds := h.cmds ++ [({ cmd0 with units := [({ unit0 with st := .pulling } : WUnit)] } : Cmd)] }, fun d => d.setNs ({ cmd0 with units := [({ unit0 with st := .pulling } : WUnit)] } : Cmd).nsid ({ ns0 with pit := 0 } : Ns)]), []⟩ : State), by decide +kernel⟩,
   ⟨(⟨0, 1, 5⟩ : CmdId), (0 : Nat), ([{ data := 5, md := 0x0102030405060708 }] : List Blk), ({ cmd0 with op := .write 0 1 { guard := true }, units := [({ unit0 with st := .pulling } : WUnit)] } : Cmd), ({ unit0 with st := .pulling } : WUnit), ({ ns0 with pit := 1, fmt := 1 } : Ns), (.guardCheck : Status), (⟨(mk [fun d => d.updHost fun h => { h with cmds := h.cmds ++ [({ cmd0 with op := .write 0 1 { guard := true }, units := [({ unit0 with st := .pulling } : WUnit)] } : Cmd)] }, fun d => d.setNs ({ cmd0 with op := .write 0 1 { guard := true }, units := [({ unit0 with st := .pulling } : WUnit)] } : Cmd).nsid ({ ns0 with pit := 1, fmt := 1 } : Ns)]), []⟩ : State), by decide +kernel⟩,
   ⟨(⟨0, 1, 5⟩ : CmdId), (0 : Nat), ({ cmd0 with op := .write 0 1 {}, units := [{ unit0 with st := .writing, band := some 7, seq := 9 }] } : Cmd), ({ unit0 with st := .writing, band := some 7, seq := 9 } : WUnit), (⟨(mk [fun d => { d.updHost (fun h => { h with cmds := [({ cmd0 with op := .write 0 1 {}, units := [{ unit0 with st := .writing, band := some 7, seq := 9 }] } : Cmd)] }) with medium := { d.medium with bands := [(7, [{ munit0 with seq := 9, c0 := .good, c1 := .good }])] } }]), []⟩ : State), by decide +kernel⟩,
   ⟨(⟨0, 1, 5⟩ : CmdId), (0 : Nat), ({ cmd0 with op := .write 0 1 {}, units := [{ unit0 with st := .writing, band := some 7, seq := 9 }] } : Cmd), ({ unit0 with st := .writing, band := some 7, seq := 9 } : WUnit), (⟨(mk [fun d => { d.updHost (fun h => { h with cmds := [({ cmd0 with op := .write 0 1 {}, units := [{ unit0 with st := .writing, band := some 7, seq := 9 }] } : Cmd)] }) with medium := { d.medium with bands := [(7, [{ munit0 with seq := 9, c0 := .good, c1 := .part }])] } }]), []⟩ : State), by decide +kernel⟩⟩

theorem witness_ForwardedBlocksPinTheirPages :
    (∃ (id : CmdId) (wid : CmdId) (k : Nat) (p : Nat) (r : Cmd) (w : Cmd) (u : WUnit) (b : RBlk) (rest : List Src) (s : State),
    s.dev.cmd id = some r ∧ s.dev.cmd wid = some w ∧ w.units[k]? = some u ∧ u.st = .pulled ∧ r.blocks = [b] ∧ b.sent = false ∧ b.copying = none ∧ b.chain = .fwd w.no k :: rest ∧ u.pages[r.op.slba + 0 - u.lba]? = some p) ∧
    (∃ (id : CmdId) (p : Nat) (c : Cmd) (x : Ns) (b : RBlk) (s : State),
    s.dev.cmd id = some c ∧ s.dev.ns c.nsid = some x ∧ c.blocks = [b] ∧ b.copying = some p ∧ s.dev.pageGood p = true) ∧
    (∃ (id : CmdId) (p : Nat) (c : Cmd) (x : Ns) (s : State),
    s.dev.cmd id = some c ∧ s.dev.ns c.nsid = some x ∧ ((∀ b ∈ c.blocks, b.copying ≠ some p))) ∧
    (∃ (id : CmdId) (c : Cmd) (c' : Cmd) (x : Ns) (b : RBlk) (rest : List Src) (s : State),
    s.dev.cmd id = some c ∧ s.dev.ns c.nsid = some x ∧ c.blocks = [b] ∧ b.copying = none ∧ b.chain = .gone :: rest ∧ (s.dev.updCmd c.no fun k => { k with blocks := k.blocks.modify 0 fun r => { r with chain := r.chain.tail, sent := false } }).cmdNo c.no = some c') :=
  ⟨⟨(⟨0, 1, 5⟩ : CmdId), (⟨0, 1, 6⟩ : CmdId), (0 : Nat), (3 : Nat), ({ cmd0 with no := 2, op := .read 0 1 {}, blocks := [{ chain := [.fwd 1 0, .zeros] }] } : Cmd), ({ cmd0 with no := 1, id := ⟨0, 1, 6⟩, op := .write 0 1 {}, units := [{ unit0 with st := .pulled, pages := [3] }] } : Cmd), ({ unit0 with st := .pulled, pages := [3] } : WUnit), ({ chain := [.fwd 1 0, .zeros] } : RBlk), ([.zeros] : List Src), (⟨(mk [fun d => d.updHost fun h => { h with cmds := h.cmds ++ [({ cmd0 with no := 2, op := .read 0 1 {}, blocks := [{ chain := [.fwd 1 0, .zeros] }] } : Cmd)] }, fun d => d.updHost fun h => { h with cmds := h.cmds ++ [({ cmd0 with no := 1, id := ⟨0, 1, 6⟩, op := .write 0 1 {}, units := [{ unit0 with st := .pulled, pages := [3] }] } : Cmd)] }]), []⟩ : State), by decide +kernel⟩,
   ⟨(⟨0, 1, 5⟩ : CmdId), (3 : Nat), ({ cmd0 with blocks := [({ rblk0 with copying := some (3 : Nat) } : RBlk)] } : Cmd), (ns0 : Ns), ({ rblk0 with copying := some (3 : Nat) } : RBlk), (⟨(mk [fun d => d.updHost fun h => { h with cmds := h.cmds ++ [({ cmd0 with blocks := [({ rblk0 with copying := some (3 : Nat) } : RBlk)] } : Cmd)] }, fun d => d.setNs ({ cmd0 with blocks := [({ rblk0 with copying := some (3 : Nat) } : RBlk)] } : Cmd).nsid (ns0 : Ns), fun d => d.setPage 3 ⟨0, 0x98f94189 + 0x79119058 * 2 ^ 480⟩]), []⟩ : State), by decide +kernel⟩,
   ⟨(⟨0, 1, 5⟩ : CmdId), (0 : Nat), (cmd0 : Cmd), (ns0 : Ns), (⟨(mk [fun d => d.updHost fun h => { h with cmds := h.cmds ++ [(cmd0 : Cmd)] }, fun d => d.setNs (cmd0 : Cmd).nsid (ns0 : Ns)]), []⟩ : State), by decide +kernel⟩,
   ⟨(⟨0, 1, 5⟩ : CmdId), ({ cmd0 with op := .read 0 1 {}, blocks := [{ chain := [.gone, .zeros] }] } : Cmd), ({ cmd0 with op := .read 0 1 {}, blocks := [{ chain := [.zeros] }] } : Cmd), (ns0 : Ns), ({ chain := [.gone, .zeros] } : RBlk), ([.zeros] : List Src), (⟨(mk [fun d => d.updHost fun h => { h with cmds := h.cmds ++ [({ cmd0 with op := .read 0 1 {}, blocks := [{ chain := [.gone, .zeros] }] } : Cmd)] }, fun d => d.setNs ({ cmd0 with op := .read 0 1 {}, blocks := [{ chain := [.gone, .zeros] }] } : Cmd).nsid (ns0 : Ns)]), []⟩ : State), by decide +kernel⟩⟩

theorem witness_JournalAndCheckpointsKeepTheMap :
    (∃ (s : State),
    s.dev.openBands = []) ∧
    (∃ (s : State),
    s.dev.openBands ≠ []) ∧
    (∃ (s : State),
    s.dev.host.jflight = []) ∧
    (∃ (n : Nat) (rest : List (List JPend)) (b : Nat) (i : Nat) (s : State),
    s.dev.host.jflight = [⟨n, .frontier b i, none⟩] :: rest ∧ s.dev.host.cmds = [] ∧ s.dev.host.tables.bands = []) ∧
    (∃ (s : State),
    s.dev.host.check = none ∧ s.dev.rd HS_STORE_STS_REBUILD = 2 ∧ (12288 ≤ s.dev.medium.journal.length ∨ s.dev.host.checkAt + 3600000000 ≤ s.dev.chron.chr)) ∧
    (∃ (s : State),
    s.dev.host.check ≠ none) ∧
    (∃ (c : Checkpoint) (s : State),
    s.dev.host.check = some false ∧ s.dev.medium.checkA = some c ∧ s.dev.medium.checkB = none) :=
  ⟨⟨(⟨({} : Device), []⟩ : State), by decide +kernel⟩,
   ⟨(⟨(mk [fun d => d.updTables fun t => { t with bands := [(7, band0)] }]), []⟩ : State), by decide +kernel⟩,
   ⟨(⟨(mk [fun d => { d with host := { d.host with jflight := [] } }]), []⟩ : State), by decide +kernel⟩,
   ⟨(0 : Nat), ([] : List (List JPend)), (0 : Nat), (0 : Nat), (⟨(mk [fun d => { d with host := { d.host with jflight := [⟨(0 : Nat), .frontier (0 : Nat) (0 : Nat), none⟩] :: ([] : List (List JPend)) } }, fun d => { d with host := { d.host with cmds := [] } }, fun d => { d with host := { d.host with tables := { d.host.tables with bands := [] } } }]), []⟩ : State), by decide +kernel⟩,
   ⟨(⟨(mk [fun d => { d with host := { d.host with check := none } }, fun d => d.wr HS_STORE_STS_REBUILD (2), fun d => { d with chron := { d.chron with chr := 3600000000 } }]), []⟩ : State), by decide +kernel⟩,
   ⟨(⟨(mk [fun d => d.updHost fun h => { h with check := some true }]), []⟩ : State), by decide +kernel⟩,
   ⟨(ckpt0 : Checkpoint), (⟨(mk [fun d => { d with host := { d.host with check := some false } }, fun d => { d with medium := { d.medium with checkA := some (ckpt0 : Checkpoint) } }, fun d => { d with medium := { d.medium with checkB := none } }]), []⟩ : State), by decide +kernel⟩⟩

theorem witness_RebuildReadiesTheStore :
    (∃ (s : State),
    (s.dev.atSpeed = false ∨ s.dev.rd HS_STORE_STS_REBUILD ≠ 0)) ∧
    (∃ (s : State),
    s.dev.released = true ∧ s.dev.atSpeed = true ∧ s.dev.rd HS_STORE_STS_REBUILD = 0 ∧ s.dev.power.retain = .out ∧ s.dev.medium.checkA = none ∧ s.dev.medium.checkB = none ∧ s.dev.medium.everCheck = false ∧ s.dev.medium.journal = []) ∧
    (∃ (o : RebuildObs) (s : State),
    s.dev.released = true ∧ s.dev.atSpeed = true ∧ s.dev.rd HS_STORE_STS_REBUILD = 0 ∧ s.dev.power.retain = .out ∧ o.noHeadA = true ∧ o.noHeadB = true ∧ s.dev.medium.everCheck = true) ∧
    (∃ (s : State),
    s.dev.rd HS_STORE_STS_REBUILD = 1) ∧
    (∃ (s : State),
    s.dev.rd HS_STORE_STS_REBUILD ≠ 1) ∧
    (∃ (n : Nat) (p : Nat) (ps : List Nat) (s : State),
    s.dev.host.loaded = some ps ∧ nsKey n p ∉ ps) :=
  ⟨⟨(⟨({} : Device), []⟩ : State), by decide +kernel⟩,
   ⟨(⟨(mk [fun d => { d with boot := { d.boot with phase := .released } }, fun d => d.wr HS_STORE_STS_REBUILD 0, fun d => { d with power := { d.power with retain := .out } }, fun d => { d with medium := { d.medium with checkA := none } }, fun d => { d with medium := { d.medium with checkB := none } }, fun d => { d with medium := { d.medium with everCheck := false } }, fun d => { d with medium := { d.medium with journal := [] } }, fun d => d.wr SP_STATUS_ATSPEED 1]), []⟩ : State), by decide +kernel⟩,
   ⟨({ noHeadA := true, noHeadB := true } : RebuildObs), (⟨(mk [fun d => { d with boot := { d.boot with phase := .released } }, fun d => d.wr HS_STORE_STS_REBUILD 0, fun d => { d with power := { d.power with retain := .out } }, fun d => { d with medium := { d.medium with everCheck := true } }, fun d => d.wr SP_STATUS_ATSPEED 1]), []⟩ : State), by decide +kernel⟩,
   ⟨(⟨(mk [fun d => d.wr HS_STORE_STS_REBUILD (1)]), []⟩ : State), by decide +kernel⟩,
   ⟨(⟨({} : Device), []⟩ : State), by decide +kernel⟩,
   ⟨(0 : Nat), (0 : Nat), ([] : List Nat), (⟨(mk [fun d => { d with host := { d.host with loaded := some ([] : List Nat) } }]), []⟩ : State), by decide +kernel⟩⟩

theorem witness_BandsAreVerifiedAndCollected :
    (∃ (b : Nat) (o : VerifyObs) (x : Band) (s : State),
    s.dev.host.tables.band b = some x ∧ x.st = .closed ∧ s.dev.host.verify = [b] ∧ o.weak = [] ∧ o.failed = []) ∧
    (∃ (b : Nat) (x : Band) (s : State),
    s.dev.host.tables.band b = some x ∧ x.st ≠ .closed) ∧
    (∃ (l : Lane) (s : State),
    s.dev.gcSource l = none) ∧
    (∃ (l : Lane) (b : Nat) (s : State),
    s.dev.gcSource l = some b ∧ firstRun (s.dev.currentBlocks b) = none) ∧
    (∃ (l : Lane) (b : Nat) (i : Nat) (nsid : Nat) (lba : Nat) (n : Nat) (p : Nat) (s : State),
    s.dev.gcSource l = some b ∧ firstRun (s.dev.currentBlocks b) = some (i, (nsid, (lba, n))) ∧ s.dev.host.moves = [] ∧ s.dev.poolBand l = some p ∧ s.dev.fits p n = true ∧ s.dev.bandQuiet p = true) ∧
    (∃ (p : Nat) (m : MUnit) (s : State),
    Sparse.find s.dev.host.moves p = some m) ∧
    (∃ (p : Nat) (s : State),
    Sparse.find s.dev.host.moves p = none) :=
  ⟨⟨(7 : Nat), ({} : VerifyObs), ({ band0 with st := .closed } : Band), (⟨(mk [fun d => { d with host := { d.host with verify := [(7 : Nat)] } }, fun d => d.updTables fun t => { t with bands := [(7, ({ band0 with st := .closed } : Band))] }]), []⟩ : State), by decide +kernel⟩,
   ⟨(7 : Nat), (band0 : Band), (⟨(mk [fun d => d.updTables fun t => { t with bands := [(7, (band0 : Band))] }]), []⟩ : State), by decide +kernel⟩,
   ⟨(.ln0 : Lane), (⟨({} : Device), []⟩ : State), by decide +kernel⟩,
   ⟨(.ln0 : Lane), (7 : Nat), (⟨(mk [fun d => d.updTables fun t => { t with bands := [(7, { band0 with st := .verified, nsid := 0 })] }]), []⟩ : State), by decide +kernel⟩,
   ⟨(.ln0 : Lane), (7 : Nat), (0 : Nat), (1 : Nat), (0 : Nat), (1 : Nat), (8 : Nat), (⟨(mk [fun d => { d with host := { d.host with moves := [] } }, fun d => d.updTables fun t => { t with bands := [(7, { band0 with st := .verified, nsid := 0 }), (8, { band0 with nsid := 0 })], chunks := [(4294967296, .whole 7 0)] }, fun d => { d with medium := { d.medium with bands := [(7, [munit0])] } }]), []⟩ : State), by decide +kernel⟩,
   ⟨(0 : Nat), (munit0 : MUnit), (⟨(mk [fun d => d.updHost fun h => { h with moves := [((0 : Nat), (munit0 : MUnit))] }]), []⟩ : State), by decide +kernel⟩,
   ⟨(0 : Nat), (⟨({} : Device), []⟩ : State), by decide +kernel⟩⟩

theorem witness_RecoveryOrderRepeatsNoAlignment :
    (∃ (s : RSlot) (n : Nat) (st : Nat) (p : Int),
    s.nextAttempt false n = some (st, p) ∧ st ≠ 5) ∧
    (∃ (s : RSlot) (n : Nat) (p : Int),
    s.step < 5 ∧ n ≤ s.replays ∧ s.nextAttempt false n = some (5, p)) :=
  ⟨⟨({ rslot0 with cands := [5, -6], mark := true } : RSlot), (1 : Nat), (2 : Nat), (-6 : Int), by decide +kernel⟩,
   ⟨({ rslot0 with cands := [], replays := 8, tried := [⟨3, false, 9, false⟩, ⟨2, false, 9, false⟩] } : RSlot), (8 : Nat), (3 : Int), by decide +kernel⟩⟩

theorem witness_ReadGateRefusesHoldsOrCaptures :
    (∃ (l : Lane) (s : State),
    (s.dev.passOwner l).owner l = none) ∧
    (∃ (l : Lane) (k : Nat) (q : SeqId) (o : EcOp) (s : State),
    (s.dev.passOwner l).owner l = some q ∧ ((s.dev.passOwner l).ec q).op = some o ∧ k ∈ o.rArms ∧ (s.dev.passOwner l).capturing l = false ∧ (s.dev.passOwner l).stream l = l ∧ s.dev.bit (CH_CTRL_EN l) = false) ∧
    (∃ (l : Lane) (k : Nat) (q : SeqId) (o : EcOp) (s : State),
    (s.dev.passOwner l).owner l = some q ∧ ((s.dev.passOwner l).ec q).op = some o ∧ k ∈ o.rArms ∧ (s.dev.passOwner l).capturing l = false ∧ (s.dev.passOwner l).stream l = l ∧ s.dev.bit (CH_CTRL_EN l) = true ∧ s.dev.bit (CH_STATUS_BADTBL l) = false ∧ s.dev.standby l = []) ∧
    (∃ (l : Lane) (k : Nat) (p : Nat) (ps : List Nat) (q : SeqId) (o : EcOp) (s : State),
    (s.dev.passOwner l).owner l = some q ∧ ((s.dev.passOwner l).ec q).op = some o ∧ k ∈ o.rArms ∧ s.dev.duplex = false ∧ (s.dev.ch l).slots = [] ∧ s.dev.bit (CH_CTRL_EN l) = true ∧ s.dev.bit (CH_STATUS_BADTBL l) = false ∧ s.dev.standby l = p :: ps) ∧
    (∃ (l : Lane) (s : State),
    ((∀ r ∈ (s.dev.ch l).slots, r.captured = true))) ∧
    (∃ (l : Lane) (o : CaptureObs) (r : RSlot) (s : State),
    (s.dev.ch l).slots.find? (fun r => !r.captured) = some r ∧ r.linkErr = false ∧ (s.dev.bit (CH_CTRL_SCAN l) = false ∨ o.noPreamble = false)) :=
  ⟨⟨(.ln0 : Lane), (⟨({} : Device), []⟩ : State), by decide +kernel⟩,
   ⟨(.ln0 : Lane), (3 : Nat), (⟨.ln0, false⟩ : SeqId), ({ op0 with rArms := [3] } : EcOp), (⟨(mk [fun d => d.wrB (CH_CTRL_EN (.ln0 : Lane)) false, fun d => (d.updLane .ln0 fun y => { y with owner := some false }).updEc ⟨.ln0, false⟩ fun y => { y with op := some ({ op0 with rArms := [3] } : EcOp) }]), []⟩ : State), by decide +kernel⟩,
   ⟨(.ln0 : Lane), (3 : Nat), (⟨.ln0, false⟩ : SeqId), ({ op0 with rArms := [3] } : EcOp), (⟨(mk [fun d => d.wrB (CH_CTRL_EN (.ln0 : Lane)) true, fun d => d.wrB (CH_STATUS_BADTBL (.ln0 : Lane)) false, fun d => (d.updLane .ln0 fun y => { y with owner := some false }).updEc ⟨.ln0, false⟩ fun y => { y with op := some ({ op0 with rArms := [3] } : EcOp) }]), []⟩ : State), by decide +kernel⟩,
   ⟨(.ln0 : Lane), (3 : Nat), (9 : Nat), ([] : List Nat), (⟨.ln0, false⟩ : SeqId), ({ op0 with rArms := [3] } : EcOp), (⟨(mk [fun d => (d.updLane .ln0 fun y => { y with owner := some false }).updEc ⟨.ln0, false⟩ fun y => { y with op := some ({ op0 with rArms := [3] } : EcOp) }, fun d => { d.wrB (CH_CTRL_EN .ln0) true with pool := { d.pool with standby0 := [9] } }]), []⟩ : State), by decide +kernel⟩,
   ⟨(.ln0 : Lane), (⟨({} : Device), []⟩ : State), by decide +kernel⟩,
   ⟨(.ln0 : Lane), ({} : CaptureObs), ({ rslot0 with linkErr := false } : RSlot), (⟨(mk [fun d => d.wrB (CH_CTRL_SCAN (.ln0 : Lane)) false, fun d => d.updCh (.ln0 : Lane) fun y => { y with slots := [({ rslot0 with linkErr := false } : RSlot)] }]), []⟩ : State), by decide +kernel⟩⟩

theorem witness_DecodingEndsInAnOutcome :
    (∃ (l : Lane) (s : State),
    (s.dev.ch l).dec = none) ∧
    (∃ (l : Lane) (o : DecodeObs) (key : Lane × Bool) (r : RSlot) (s : State),
    s.dev.duplex = false ∧ (s.dev.ch l).dec = some key ∧ (s.dev.ch l).slots.find? (fun r => r.key == key) = some r ∧ o.parity = false ∧ o.conv = true ∧ o.crc = true ∧ o.band = r.band ∧ o.slot = r.slot) ∧
    (∃ (l : Lane) (n : Nat) (s : State),
    ((∀ q ∈ laneSeqs l, (s.dev.ec q).op = none)) ∧ 1 ≤ n ∧ n ≤ s.dev.rd CB_STRIPE_G) ∧
    (∃ (l : Lane) (s : State),
    s.dev.bit (STRIPE_STATUS_BUSY l) = true ∧ (s.dev.ch l).pend = [] ∧ s.dev.rd (STRIPE_STATUS_ERASED l) ≤ s.dev.stripeP) ∧
    (∃ (l : Lane) (s : State),
    s.dev.bit (STRIPE_STATUS_BUSY l) = true ∧ (s.dev.ch l).pend = [] ∧ s.dev.stripeP < s.dev.rd (STRIPE_STATUS_ERASED l)) ∧
    (∃ (l : Lane) (s : State),
    (s.dev.ch l).slots = [] ∧ (s.dev.ch l).pend = []) ∧
    (∃ (l : Lane) (p : PendSect) (s : State),
    (s.dev.ch l).slots = [] ∧ (s.dev.ch l).pend = [p]) :=
  ⟨⟨(.ln0 : Lane), (⟨(mk [fun d => d.updCh (.ln0 : Lane) fun z_ => { z_ with dec := none }]), []⟩ : State), by decide +kernel⟩,
   ⟨(.ln0 : Lane), ({ conv := true, crc := true } : DecodeObs), ((.ln0, false) : Lane × Bool), (rslot0 : RSlot), (⟨(mk [fun d => d.updCh (.ln0 : Lane) fun z_ => { z_ with dec := some ((.ln0, false) : Lane × Bool) }, fun d => d.updCh (.ln0 : Lane) fun y => { y with slots := [(rslot0 : RSlot)] }]), []⟩ : State), by decide +kernel⟩,
   ⟨(.ln0 : Lane), (1 : Nat), (⟨(mk [fun d => d.wr CB_STRIPE_G ((1 : Nat))]), []⟩ : State), by decide +kernel⟩,
   ⟨(.ln0 : Lane), (⟨(mk [fun d => d.wrB (STRIPE_STATUS_BUSY (.ln0 : Lane)) true, fun d => d.updCh (.ln0 : Lane) fun z_ => { z_ with pend := [] }, fun d => d.wr (STRIPE_STATUS_ERASED (.ln0 : Lane)) (d.stripeP)]), []⟩ : State), by decide +kernel⟩,
   ⟨(.ln0 : Lane), (⟨(mk [fun d => d.wrB (STRIPE_STATUS_BUSY (.ln0 : Lane)) true, fun d => d.updCh (.ln0 : Lane) fun z_ => { z_ with pend := [] }, fun d => d.wr (STRIPE_STATUS_ERASED (.ln0 : Lane)) (d.stripeP + 1)]), []⟩ : State), by decide +kernel⟩,
   ⟨(.ln0 : Lane), (⟨(mk [fun d => d.updCh (.ln0 : Lane) fun z_ => { z_ with slots := [] }, fun d => d.updCh (.ln0 : Lane) fun z_ => { z_ with pend := [] }]), []⟩ : State), by decide +kernel⟩,
   ⟨(.ln0 : Lane), (psect0 : PendSect), (⟨(mk [fun d => d.updCh (.ln0 : Lane) fun z_ => { z_ with slots := [] }, fun d => d.updCh (.ln0 : Lane) fun z_ => { z_ with pend := [(psect0 : PendSect)] }]), []⟩ : State), by decide +kernel⟩⟩

theorem witness_AdaptationTablesLoadAtBoundaries :
    (∃ (l : Lane) (s : State),
    s.dev.loadIgnored l = true) ∧
    (∃ (l : Lane) (s : State),
    s.dev.loadIgnored l = false ∧ s.dev.capturing l = false ∧ s.dev.gateOpen l = false) ∧
    (∃ (l : Lane) (s : State),
    (s.dev.ch l).load = none) ∧
    (∃ (h : Nat) (z : Nat) (s : State),
    (s.dev.ch .ln1).load = some (h, z) ∧ s.dev.entryReadable (s.dev.tableAddr (ADT_BASE_ADDR .ln1) h z 128) 128 = true ∧ chEntryCheck (s.dev.memNum 128 (s.dev.tableAddr (ADT_BASE_ADDR .ln1) h z 128)) h z = 0) ∧
    (∃ (h : Nat) (z : Nat) (s : State),
    (s.dev.ch .ln1).load = some (h, z) ∧ s.dev.entryReadable (s.dev.tableAddr (ADT_BASE_ADDR .ln1) h z 128) 128 = false) ∧
    (∃ (l : Lane) (s : State),
    s.dev.capturing l = true) ∧
    (∃ (s : State),
    s.dev.capturing .ln1 = false) ∧
    (∃ (w : Nat) (n : Nat) (s : State),
    (s.dev.ch .ln1).cnt = [(w, n)] ∧ s.dev.memOpen (s.dev.tableAddr (CNT_BASE_ADDR .ln1) (s.dev.ch .ln1).hz.1 (s.dev.ch .ln1).hz.2 64) = true) :=
  ⟨⟨(.ln1 : Lane), (⟨(mk [fun d => (d.wr CB_WGUARD_MODE 1).wr CB_STRUCT_LANES 1]), []⟩ : State), by decide +kernel⟩,
   ⟨(.ln0 : Lane), (⟨({} : Device), []⟩ : State), by decide +kernel⟩,
   ⟨(.ln0 : Lane), (⟨(mk [fun d => d.updCh (.ln0 : Lane) fun z_ => { z_ with load := none }]), []⟩ : State), by decide +kernel⟩,
   ⟨(0 : Nat), (0 : Nat), (⟨(mk [fun d => d.updCh .ln1 fun z_ => { z_ with load := some ((0 : Nat), (0 : Nat)) }, fun d => (d.wrB MS_STATUS_SRAMRDY true).wr (ADT_BASE_ADDR .ln1) 0x100000, fun d => d.setNum 128 0x10000000 chEnt0]), []⟩ : State), by decide +kernel⟩,
   ⟨(0 : Nat), (0 : Nat), (⟨(mk [fun d => d.updCh .ln1 fun z_ => { z_ with load := some ((0 : Nat), (0 : Nat)) }]), []⟩ : State), by decide +kernel⟩,
   ⟨(.ln0 : Lane), (⟨(mk [fun d => d.updCh .ln0 fun y => { y with slots := [rslot0] }]), []⟩ : State), by decide +kernel⟩,
   ⟨(⟨({} : Device), []⟩ : State), by decide +kernel⟩,
   ⟨(0 : Nat), (0 : Nat), (⟨(mk [fun d => d.updCh .ln1 fun z_ => { z_ with cnt := [((0 : Nat), (0 : Nat))] }, fun d => (d.wrB MS_STATUS_SRAMRDY true).wr (CNT_BASE_ADDR .ln1) 0x100000]), []⟩ : State), by decide +kernel⟩⟩

theorem witness_EltikLinkCountsLosesAndRetrains :
    (∃ (l : Lane) (s : State),
    s.dev.bit (ELK_STATUS_UP l) = false) ∧
    (∃ (l : Lane) (s : State),
    s.dev.bit (ELK_STATUS_UP l) = true) ∧
    (∃ (l : Lane) (s : State),
    s.dev.bit (ELK_STATUS_UP l) = true) ∧
    (∃ (l : Lane) (s : State),
    s.dev.bit (ELK_STATUS_UP l) = true) ∧
    (∃ (l : Lane) (s : State),
    s.dev.bit (ELK_STATUS_UP l) = false) ∧
    (∃ (s : State),
    s.dev.bit (ELK_STATUS_UP .ln0) = true) ∧
    (∃ (s : State),
    s.dev.bit (ELK_STATUS_UP .ln0) = true ∧ s.dev.elk.bad0 < 4 ∧ s.dev.elk.bad1 < 4) ∧
    (∃ (s : State),
    s.dev.bit (ELK_STATUS_UP .ln0) = false) ∧
    (∃ (s : State),
    s.dev.bit (ELK_STATUS_UP .ln0) = true) ∧
    (∃ (s : State),
    s.dev.elk.training = true) ∧
    (∃ (s : State),
    s.dev.elk.training = true) :=
  ⟨⟨(.ln0 : Lane), (⟨(mk [fun d => d.wrB (ELK_STATUS_UP (.ln0 : Lane)) false]), []⟩ : State), by decide +kernel⟩,
   ⟨(.ln0 : Lane), (⟨(mk [fun d => d.wrB (ELK_STATUS_UP (.ln0 : Lane)) true]), []⟩ : State), by decide +kernel⟩,
   ⟨(.ln0 : Lane), (⟨(mk [fun d => d.wrB (ELK_STATUS_UP (.ln0 : Lane)) true]), []⟩ : State), by decide +kernel⟩,
   ⟨(.ln0 : Lane), (⟨(mk [fun d => d.wrB (ELK_STATUS_UP (.ln0 : Lane)) true]), []⟩ : State), by decide +kernel⟩,
   ⟨(.ln0 : Lane), (⟨(mk [fun d => d.wrB (ELK_STATUS_UP (.ln0 : Lane)) false]), []⟩ : State), by decide +kernel⟩,
   ⟨(⟨(mk [fun d => d.wrB (ELK_STATUS_UP .ln0) true]), []⟩ : State), by decide +kernel⟩,
   ⟨(⟨(mk [fun d => d.wrB (ELK_STATUS_UP .ln0) true]), []⟩ : State), by decide +kernel⟩,
   ⟨(⟨(mk [fun d => d.wrB (ELK_STATUS_UP .ln0) false]), []⟩ : State), by decide +kernel⟩,
   ⟨(⟨(mk [fun d => d.wrB (ELK_STATUS_UP .ln0) true]), []⟩ : State), by decide +kernel⟩,
   ⟨(⟨(mk [fun d => { d with elk := { d.elk with training := true } }]), []⟩ : State), by decide +kernel⟩,
   ⟨(⟨(mk [fun d => { d with elk := { d.elk with training := true } }]), []⟩ : State), by decide +kernel⟩⟩

theorem witness_ForceAndVerdictsFollowDuplexRules :
    (∃ (v : Nat) (s : State),
    (s.dev.duplex = false ∨ v % 4 = 3)) ∧
    (∃ (v : Nat) (s : State),
    s.dev.duplex = true ∧ v % 4 ≠ 3 ∧ s.dev.capturing .ln0 = true) ∧
    (∃ (v : Nat) (s : State),
    s.dev.duplex = true ∧ v % 4 ≠ 3 ∧ s.dev.capturing .ln0 = false) ∧
    (∃ (q : SeqId) (k : Nat) (it : Nat) (o : EcOp) (s : State),
    q.lane = .ln0 ∧ s.dev.verifyOn = true ∧ (s.dev.ec q).op = some o ∧ o.vpend = [(k, none)] ∧ o.ending = none ∧ it ≤ s.dev.elk.vweak ∧ s.dev.elk.parSect = false ∧ s.dev.elk.vweak < 64) ∧
    (∃ (q : SeqId) (k : Nat) (o : EcOp) (s : State),
    q.lane = .ln0 ∧ s.dev.verifyOn = true ∧ (s.dev.ec q).op = some o ∧ o.vpend = [(k, none)] ∧ o.ending = none ∧ s.dev.elk.parSect = false) ∧
    (∃ (q : SeqId) (k : Nat) (o : EcOp) (s : State),
    (s.dev.ec q).op = some o ∧ ((∃ p ∈ o.vpend, p.1 = k)) ∧ s.dev.verifyOn = true) :=
  ⟨⟨(0 : Nat), (⟨({} : Device), []⟩ : State), by decide +kernel⟩,
   ⟨(2 : Nat), (⟨(mk [fun d => d.wrB CB_STRUCT_DUPLEX true, fun d => d.updCh .ln0 fun y => { y with slots := [rslot0] }]), []⟩ : State), by decide +kernel⟩,
   ⟨(2 : Nat), (⟨(mk [fun d => d.wrB CB_STRUCT_DUPLEX true]), []⟩ : State), by decide +kernel⟩,
   ⟨(⟨.ln0, false⟩ : SeqId), (0 : Nat), (0 : Nat), ({ op0 with vpend := [((0 : Nat), none)], ending := none } : EcOp), (⟨(mk [fun d => d.updEc (⟨.ln0, false⟩ : SeqId) fun z_ => { z_ with op := some ({ op0 with vpend := [((0 : Nat), none)], ending := none } : EcOp) }, fun d => { d with elk := { d.elk with vweak := (0 : Nat) } }, fun d => { d with elk := { d.elk with parSect := false } }, fun d => ((d.wr CB_WGUARD_MODE 1).wr CB_STRUCT_LANES 1).wr (ELK_STATUS_UP .ln0) 1]), []⟩ : State), by decide +kernel⟩,
   ⟨(⟨.ln0, false⟩ : SeqId), (0 : Nat), ({ op0 with vpend := [((0 : Nat), none)], ending := none } : EcOp), (⟨(mk [fun d => d.updEc (⟨.ln0, false⟩ : SeqId) fun z_ => { z_ with op := some ({ op0 with vpend := [((0 : Nat), none)], ending := none } : EcOp) }, fun d => { d with elk := { d.elk with parSect := false } }, fun d => ((d.wr CB_WGUARD_MODE 1).wr CB_STRUCT_LANES 1).wr (ELK_STATUS_UP .ln0) 1]), []⟩ : State), by decide +kernel⟩,
   ⟨(⟨.ln0, false⟩ : SeqId), (3 : Nat), ({ op0 with vpend := [(3, none)] } : EcOp), (⟨(mk [fun d => d.updEc (⟨.ln0, false⟩ : SeqId) fun z_ => { z_ with op := some ({ op0 with vpend := [(3, none)] } : EcOp) }, fun d => ((d.wr CB_WGUARD_MODE 1).wr CB_STRUCT_LANES 1).wr (ELK_STATUS_UP .ln0) 1]), []⟩ : State), by decide +kernel⟩⟩

theorem witness_WriteGateOpensOnlyWhenAllowed :
    (∃ (l : Lane) (s : State),
    (s.dev.passOwner l).owner l = none) ∧
    (∃ (l : Lane) (k : Nat) (q : SeqId) (o : EcOp) (s : State),
    (s.dev.passOwner l).owner l = some q ∧ ((s.dev.passOwner l).ec q).op = some o ∧ o.wArms.head? = some k ∧ (s.dev.passOwner l).gateOpen l = false ∧ (s.dev.passOwner l).slotPage o k = 0xFFFF ∧ (s.dev.passOwner l).slotParity o k = false ∧ (s.dev.passOwner l).gateAllowed l = true ∧ (s.dev.passOwner l).hasSens l = false) ∧
    (∃ (l : Lane) (k : Nat) (q : SeqId) (o : EcOp) (s : State),
    (s.dev.passOwner l).owner l = some q ∧ ((s.dev.passOwner l).ec q).op = some o ∧ o.wArms.head? = some k ∧ (s.dev.passOwner l).gateOpen l = false ∧ (s.dev.passOwner l).slotParity o k = false ∧ (s.dev.passOwner l).slotPage o k ≠ 0xFFFF ∧ (s.dev.passOwner l).pageGood ((s.dev.passOwner l).slotPage o k) = false) ∧
    (∃ (l : Lane) (k : Nat) (q : SeqId) (o : EcOp) (s : State),
    (s.dev.passOwner l).owner l = some q ∧ ((s.dev.passOwner l).ec q).op = some o ∧ o.wArms.head? = some k ∧ (s.dev.passOwner l).gateOpen l = false ∧ (s.dev.passOwner l).slotParity o k = true) ∧
    (∃ (l : Lane) (s : State),
    (s.dev.wrp l).gate = none) ∧
    (∃ (l : Lane) (q : SeqId) (k : Nat) (o : EcOp) (s : State),
    (s.dev.wrp l).gate = some (q, k, none) ∧ (s.dev.wrp l).stopAfter = false ∧ (s.dev.ec q).op = some o ∧ o.verify = false) :=
  ⟨⟨(.ln0 : Lane), (⟨({} : Device), []⟩ : State), by decide +kernel⟩,
   ⟨(.ln0 : Lane), (3 : Nat), (⟨.ln0, false⟩ : SeqId), ({ op0 with desc := [0, 0, 0, 0, 0, 0, 0, 0, 0, 0, 0x10100000, 0], wArms := [3] } : EcOp), (⟨(mk [fun d => (d.updLane .ln0 fun y => { y with owner := some false }).updEc ⟨.ln0, false⟩ fun y => { y with op := some ({ op0 with desc := [0, 0, 0, 0, 0, 0, 0, 0, 0, 0, 0x10100000, 0], wArms := [3] } : EcOp) }, fun d => d.setNum 2 0x10100006 0xFFFF, fun d => (((d.wr (WR_CTRL_EN (.ln0 : Lane)) 1).wr (PA_CTRL_EN (.ln0 : Lane)) 1).wr (PA_STATUS_LINK (.ln0 : Lane)) 1).wr (WSEL_LOADED (.ln0 : Lane)) 1, fun d => d.updSv (.ln0 : Lane) fun y => { y with st := .follow }]), []⟩ : State), by decide +kernel⟩,
   ⟨(.ln0 : Lane), (3 : Nat), (⟨.ln0, false⟩ : SeqId), ({ op0 with desc := [0, 0, 0, 0, 0, 0, 0, 0, 0, 0, 0x10100000, 0], wArms := [3] } : EcOp), (⟨(mk [fun d => (d.updLane .ln0 fun y => { y with owner := some false }).updEc ⟨.ln0, false⟩ fun y => { y with op := some ({ op0 with desc := [0, 0, 0, 0, 0, 0, 0, 0, 0, 0, 0x10100000, 0], wArms := [3] } : EcOp) }]), []⟩ : State), by decide +kernel⟩,
   ⟨(.ln0 : Lane), (3 : Nat), (⟨.ln0, false⟩ : SeqId), ({ op0 with desc := [512, 0, 0, 0, 0, 0, 0, 0, 0, 0, 0x10100000, 0], wArms := [3] } : EcOp), (⟨(mk [fun d => (d.updLane .ln0 fun y => { y with owner := some false }).updEc ⟨.ln0, false⟩ fun y => { y with op := some ({ op0 with desc := [512, 0, 0, 0, 0, 0, 0, 0, 0, 0, 0x10100000, 0], wArms := [3] } : EcOp) }, fun d => d.setNum 2 0x10100006 0xFFFF]), []⟩ : State), by decide +kernel⟩,
   ⟨(.ln0 : Lane), (⟨(mk [fun d => d.updWr (.ln0 : Lane) fun z_ => { z_ with gate := none }]), []⟩ : State), by decide +kernel⟩,
   ⟨(.ln0 : Lane), (⟨.ln0, false⟩ : SeqId), (0 : Nat), (op0 : EcOp), (⟨(mk [fun d => d.updWr (.ln0 : Lane) fun z_ => { z_ with gate := some ((⟨.ln0, false⟩ : SeqId), (0 : Nat), none) }, fun d => d.updWr (.ln0 : Lane) fun z_ => { z_ with stopAfter := false }, fun d => d.updEc (⟨.ln0, false⟩ : SeqId) fun z_ => { z_ with op := some (op0 : EcOp) }]), []⟩ : State), by decide +kernel⟩⟩

theorem witness_InhibitsStandUntilTheirSourcesEnd :
    (∃ (b : Bool) (s : State),
    (s.dev.rd RG_SHOCK_STUCK).testBit (if b then 1 else 0) = false ∧ s.dev.shockInh = false) ∧
    (∃ (s : State),
    s.dev.shock1 = false ∧ s.dev.shock2 = false) ∧
    (∃ (s : State),
    (s.dev.shock1 = true ∨ s.dev.shock2 = true)) ∧
    (∃ (l : Lane) (s : State),
    (s.dev.sv l).st = .follow ∧ 8 ≤ (s.dev.sv l).pesOk) ∧
    (∃ (l : Lane) (s : State),
    (s.dev.sv l).pesOk < 8) ∧
    (∃ (v : Word),
    v &&& 0x80000000 = 0) ∧
    (∃ (l : Lane) (v : Word) (s : State),
    v &&& 0x80000000 = 0x80000000 ∧ s.dev.gateOpen l = false) :=
  ⟨⟨(false : Bool), (⟨(mk [fun d => d.wr RG_SHOCK_STUCK (0)]), []⟩ : State), by decide +kernel⟩,
   ⟨(⟨({} : Device), []⟩ : State), by decide +kernel⟩,
   ⟨(⟨(mk [fun d => { d with shock2 := true }]), []⟩ : State), by decide +kernel⟩,
   ⟨(.ln0 : Lane), (⟨(mk [fun d => d.updSv (.ln0 : Lane) fun z_ => { z_ with st := .follow }, fun d => d.updSv (.ln0 : Lane) fun z_ => { z_ with pesOk := 8 }]), []⟩ : State), by decide +kernel⟩,
   ⟨(.ln0 : Lane), (⟨({} : Device), []⟩ : State), by decide +kernel⟩,
   ⟨(0 : Word), by decide +kernel⟩,
   ⟨(.ln0 : Lane), (0x80000000 : Word), (⟨({} : Device), []⟩ : State), by decide +kernel⟩⟩

theorem witness_BridgeSendsItsFramesInOrder :
    (∃ (l : Lane) (s : State),
    (s.dev.wrp l).frames = []) ∧
    (∃ (l : Lane) (b : Nat) (k : Nat) (f : PaFrame) (fs : List PaFrame) (s : State),
    (s.dev.wrp l).frames = f :: fs ∧ f.read = false ∧ f.reg = some k ∧ f.direct = false ∧ f.again = false ∧ keyReg k = true ∧ b ≠ f.data ∧ s.dev.bit (PA_CTRL_EN l) = true ∧ s.dev.bit (PA_STATUS_LINK l) = true) ∧
    (∃ (l : Lane) (k : Nat) (f : PaFrame) (fs : List PaFrame) (s : State),
    (s.dev.wrp l).frames = f :: fs ∧ f.read = false ∧ f.reg = some k ∧ f.direct = false ∧ keyReg k = false ∧ s.dev.bit (PA_CTRL_EN l) = true ∧ s.dev.bit (PA_STATUS_LINK l) = true) ∧
    (∃ (l : Lane) (f : PaFrame) (fs : List PaFrame) (s : State),
    (s.dev.wrp l).frames = f :: fs ∧ f.read = true ∧ f.direct = true ∧ f.addr ≠ s.dev.paAddr l 7 ∧ s.dev.bit (PA_CTRL_EN l) = true ∧ s.dev.bit (PA_STATUS_LINK l) = true) ∧
    (∃ (l : Lane) (s : State),
    s.dev.bit (PA_CTRL_EN l) = true ∧ s.dev.bit (PA_STATUS_LINK l) = true) ∧
    (∃ (l : Lane) (v : Nat) (s : State),
    s.dev.bit (PA_CTRL_EN l) = true ∧ s.dev.bit (PA_STATUS_LINK l) = false ∧ bitsOf v 12 4 = 0b1010 ∧ (s.dev.wrp l).goodReads = 0) ∧
    (∃ (l : Lane) (v : Nat) (s : State),
    s.dev.bit (PA_CTRL_EN l) = true ∧ s.dev.bit (PA_STATUS_LINK l) = false ∧ bitsOf v 12 4 = 0b1010 ∧ (s.dev.wrp l).goodReads = 1) ∧
    (∃ (l : Lane) (s : State),
    s.dev.paRefuses l = false ∧ s.dev.held1 l = false) ∧
    (∃ (l : Lane) (s : State),
    s.dev.paRefuses l = true) ∧
    (∃ (l : Lane) (s : State),
    s.dev.bit (PA_CTRL_EN l) = true ∧ s.dev.writeOp l = false) ∧
    (∃ (l : Lane) (s : State),
    (s.dev.bit (PA_CTRL_EN l) = false ∨ s.dev.writeOp l = true)) :=
  ⟨⟨(.ln0 : Lane), (⟨(mk [fun d => d.updWr (.ln0 : Lane) fun z_ => { z_ with frames := [] }]), []⟩ : State), by decide +kernel⟩,
   ⟨(.ln0 : Lane), (1 : Nat), (6 : Nat), ({ paf0 with reg := some 6 } : PaFrame), ([] : List PaFrame), (⟨(mk [fun d => d.updWr (.ln0 : Lane) fun z_ => { z_ with frames := ({ paf0 with reg := some 6 } : PaFrame) :: ([] : List PaFrame) }, fun d => d.wrB (PA_CTRL_EN (.ln0 : Lane)) true, fun d => d.wrB (PA_STATUS_LINK (.ln0 : Lane)) true]), []⟩ : State), by decide +kernel⟩,
   ⟨(.ln0 : Lane), (0 : Nat), ({ paf0 with read := false, reg := some (0 : Nat), direct := false } : PaFrame), ([] : List PaFrame), (⟨(mk [fun d => d.updWr (.ln0 : Lane) fun z_ => { z_ with frames := ({ paf0 with read := false, reg := some (0 : Nat), direct := false } : PaFrame) :: ([] : List PaFrame) }, fun d => d.wrB (PA_CTRL_EN (.ln0 : Lane)) true, fun d => d.wrB (PA_STATUS_LINK (.ln0 : Lane)) true]), []⟩ : State), by decide +kernel⟩,
   ⟨(.ln0 : Lane), ({ paf0 with read := true, direct := true } : PaFrame), ([] : List PaFrame), (⟨(mk [fun d => d.updWr (.ln0 : Lane) fun z_ => { z_ with frames := ({ paf0 with read := true, direct := true } : PaFrame) :: ([] : List PaFrame) }, fun d => d.wrB (PA_CTRL_EN (.ln0 : Lane)) true, fun d => d.wrB (PA_STATUS_LINK (.ln0 : Lane)) true]), []⟩ : State), by decide +kernel⟩,
   ⟨(.ln0 : Lane), (⟨(mk [fun d => d.wrB (PA_CTRL_EN (.ln0 : Lane)) true, fun d => d.wrB (PA_STATUS_LINK (.ln0 : Lane)) true]), []⟩ : State), by decide +kernel⟩,
   ⟨(.ln0 : Lane), (0xA000 : Nat), (⟨(mk [fun d => d.wrB (PA_CTRL_EN (.ln0 : Lane)) true, fun d => d.wrB (PA_STATUS_LINK (.ln0 : Lane)) false, fun d => d.updWr (.ln0 : Lane) fun z_ => { z_ with goodReads := 0 }]), []⟩ : State), by decide +kernel⟩,
   ⟨(.ln0 : Lane), (0xAFFF : Nat), (⟨(mk [fun d => d.wrB (PA_CTRL_EN (.ln0 : Lane)) true, fun d => d.wrB (PA_STATUS_LINK (.ln0 : Lane)) false, fun d => d.updWr (.ln0 : Lane) fun z_ => { z_ with goodReads := 1 }]), []⟩ : State), by decide +kernel⟩,
   ⟨(.ln0 : Lane), (⟨(mk [fun d => (d.wr CB_PREAMP_P0 1).wr CB_ASSIST_KIND 1]), []⟩ : State), by decide +kernel⟩,
   ⟨(.ln0 : Lane), (⟨({} : Device), []⟩ : State), by decide +kernel⟩,
   ⟨(.ln0 : Lane), (⟨(mk [fun d => d.wrB (PA_CTRL_EN (.ln0 : Lane)) true]), []⟩ : State), by decide +kernel⟩,
   ⟨(.ln0 : Lane), (⟨(mk [fun d => d.wrB (PA_CTRL_EN (.ln0 : Lane)) false]), []⟩ : State), by decide +kernel⟩⟩

theorem witness_WriteEntriesAndCalibrationApply :
    (∃ (l : Lane) (s : State),
    s.dev.gateOpen l = false) ∧
    (∃ (l : Lane) (s : State),
    s.dev.gateOpen l = true) ∧
    (∃ (l : Lane) (h : Nat) (z : Nat) (s : State),
    (s.dev.wrp l).load = some (h, z) ∧ s.dev.entryReadable (s.dev.wEntryAddr l h z) 64 = true ∧ s.dev.entryReadable (s.dev.driftAddr l h) 16 = true ∧ wEntryCheck (s.dev.memNum 64 (s.dev.wEntryAddr l h z)) h z = 0 ∧ driftCheck (s.dev.memNum 16 (s.dev.driftAddr l h)) h = 0) ∧
    (∃ (l : Lane) (h : Nat) (z : Nat) (s : State),
    (s.dev.wrp l).load = some (h, z) ∧ s.dev.entryReadable (s.dev.wEntryAddr l h z) 64 = false) ∧
    (∃ (l : Lane) (s : State),
    (s.dev.wrp l).stepsAsked = true ∧ s.dev.paLogical l 0 % 4 = 3 ∧ (s.dev.wrp l).frames = []) ∧
    (∃ (l : Lane) (s : State),
    (s.dev.wrp l).stepsAsked = false) ∧
    (∃ (l : Lane) (s : State),
    (s.dev.wrp l).neighbour = false) ∧
    (∃ (l : Lane) (b : Nat) (x : Band) (s : State),
    (s.dev.wrp l).neighbour = true ∧ s.dev.host.tables.band b = some x) ∧
    (∃ (l : Lane) (s : State),
    s.dev.calGrantOf l = none) ∧
    (∃ (l : Lane) (h : Nat) (t : Nat) (m : List Nat) (s : State),
    s.dev.calGrantOf l = some (3, h, t) ∧ h < 16 ∧ m.length = 5) :=
  ⟨⟨(.ln0 : Lane), (⟨({} : Device), []⟩ : State), by decide +kernel⟩,
   ⟨(.ln0 : Lane), (⟨(mk [fun d => d.updWr (.ln0 : Lane) fun y => { y with gate := some (⟨.ln0, false⟩, 0, none) }]), []⟩ : State), by decide +kernel⟩,
   ⟨(.ln0 : Lane), (0 : Nat), (0 : Nat), (⟨(mk [fun d => d.updWr (.ln0 : Lane) fun z_ => { z_ with load := some ((0 : Nat), (0 : Nat)) }, fun d => (d.wrB MS_STATUS_SRAMRDY true).wr (WADT_BASE_ADDR (.ln0 : Lane)) 0x100000, fun d => d.wr (WDRIFT_BASE_ADDR (.ln0 : Lane)) 0x100001, fun d => (d.setNum 64 0x10000000 wEnt0).setNum 16 0x10000100 drEnt0]), []⟩ : State), by decide +kernel⟩,
   ⟨(.ln0 : Lane), (0 : Nat), (0 : Nat), (⟨(mk [fun d => d.updWr (.ln0 : Lane) fun z_ => { z_ with load := some ((0 : Nat), (0 : Nat)) }]), []⟩ : State), by decide +kernel⟩,
   ⟨(.ln0 : Lane), (⟨(mk [fun d => d.updWr (.ln0 : Lane) fun z_ => { z_ with stepsAsked := true }, fun d => d.updWr (.ln0 : Lane) fun z_ => { z_ with frames := [] }, fun d => d.updWr (.ln0 : Lane) fun y => { y with logical := [(0, 3)] }]), []⟩ : State), by decide +kernel⟩,
   ⟨(.ln0 : Lane), (⟨(mk [fun d => d.updWr (.ln0 : Lane) fun z_ => { z_ with stepsAsked := false }]), []⟩ : State), by decide +kernel⟩,
   ⟨(.ln0 : Lane), (⟨(mk [fun d => d.updWr (.ln0 : Lane) fun z_ => { z_ with neighbour := false }]), []⟩ : State), by decide +kernel⟩,
   ⟨(.ln0 : Lane), (7 : Nat), (band0 : Band), (⟨(mk [fun d => d.updWr (.ln0 : Lane) fun z_ => { z_ with neighbour := true }, fun d => d.updTables fun t => { t with bands := [(7, (band0 : Band))] }]), []⟩ : State), by decide +kernel⟩,
   ⟨(.ln0 : Lane), (⟨({} : Device), []⟩ : State), by decide +kernel⟩,
   ⟨(.ln0 : Lane), (15 : Nat), (0 : Nat), ([0, 0, 0, 0, 0] : List Nat), (⟨(mk [fun d => { d with cal := { d.cal with grant0 := some (3, (15 : Nat), (0 : Nat)) } }]), []⟩ : State), by decide +kernel⟩⟩

theorem witness_BalanceResultsAreRoundedAndSaturated :
    (∃ (e : BEng) (r : BeRun) (s : State),
    r.t.length = 16 ∧ r.pc < 1024 ∧ s.dev.nextIs e r 0x04) ∧
    (∃ (e : BEng) (r : BeRun) (s : State),
    r.t.length = 16 ∧ r.pc < 1024 ∧ s.dev.nextIs e r 0x05) ∧
    (∃ (e : BEng) (r : BeRun) (s : State),
    r.t.length = 16 ∧ r.pc < 1024 ∧ s.dev.nextIs e r 0x06) ∧
    (∃ (e : BEng) (r : BeRun) (s : State),
    r.t.length = 16 ∧ r.pc < 1024 ∧ s.dev.nextIs e r 0x08) ∧
    (∃ (e : BEng) (r : BeRun) (s : State),
    r.t.length = 16 ∧ r.pc < 1024 ∧ s.dev.nextIs e r 0x0D) ∧
    (∃ (e : BEng) (r : BeRun) (s : State),
    r.t.length = 16 ∧ r.pc < 1024 ∧ s.dev.nextIs e r 0x0E) :=
  ⟨⟨(.lane .ln0 : BEng), ({ run0 with a := [123456789012345, 0, 0, 0] } : BeRun), (⟨(mk [fun d => (d.updBe (.lane .ln0 : BEng) fun y => { y with run := some ({ run0 with a := [123456789012345, 0, 0, 0] } : BeRun) }).wr (BE_PROGA_P (.lane .ln0 : BEng) 0) (0x04 * 2 ^ 26 + 2 ^ 18 + 15 * 2 ^ 14)]), []⟩ : State), by unfold Device.nextIs; decide +kernel⟩,
   ⟨(.lane .ln0 : BEng), (run0 : BeRun), (⟨(mk [fun d => ((d.updBe (.lane .ln0 : BEng) fun y => { y with run := some (run0 : BeRun) }).wr (BE_PROGA_P (.lane .ln0 : BEng) 0) (0x05 * 2 ^ 26 + 2 * 2 ^ 18 + 0 * 2 ^ 12 + 1 * 2 ^ 6)).wr (BE_S_S (.lane .ln0 : BEng) 0) 0x7FFFFFFF, fun d => d.wr (BE_S_S (.lane .ln0 : BEng) 1) 1]), []⟩ : State), by unfold Device.nextIs; decide +kernel⟩,
   ⟨(.lane .ln1 : BEng), (run0 : BeRun), (⟨(mk [fun d => ((d.updBe (.lane .ln1 : BEng) fun y => { y with run := some (run0 : BeRun) }).wr (BE_PROGA_P (.lane .ln1 : BEng) 0) (0x06 * 2 ^ 26 + 2 * 2 ^ 18 + 0 * 2 ^ 12 + 1 * 2 ^ 6)).wr (BE_S_S (.lane .ln1 : BEng) 0) 0x80000000, fun d => d.wr (BE_S_S (.lane .ln1 : BEng) 1) 1]), []⟩ : State), by unfold Device.nextIs; decide +kernel⟩,
   ⟨(.spindle : BEng), (run0 : BeRun), (⟨(mk [fun d => ((d.updBe (.spindle : BEng) fun y => { y with run := some (run0 : BeRun) }).wr (BE_PROGA_P (.spindle : BEng) 0) (0x08 * 2 ^ 26 + 33 * 2 ^ 18 + 0 * 2 ^ 12 + 3 * 2 ^ 3)).wr (BE_S_S (.spindle : BEng) 0) 0x80000000, fun d => d.wr (BE_COEFA_C (.spindle : BEng) 3) 0x80000000]), []⟩ : State), by unfold Device.nextIs; decide +kernel⟩,
   ⟨(.lane .ln0 : BEng), (run0 : BeRun), (⟨(mk [fun d => ((d.updBe (.lane .ln0 : BEng) fun y => { y with run := some (run0 : BeRun) }).wr (BE_PROGA_P (.lane .ln0 : BEng) 0) (0x0D * 2 ^ 26 + 33 * 2 ^ 18 + 0 * 2 ^ 12)).wr (BE_S_S (.lane .ln0 : BEng) 0) 0x40000000, fun d => (d.wr (BE_XK_XK (.lane .ln0 : BEng)) 5000).wr (BE_XIN_XIN (.lane .ln0 : BEng)) 0xFFFF0000]), []⟩ : State), by unfold Device.nextIs; decide +kernel⟩,
   ⟨(.lane .ln0 : BEng), (run0 : BeRun), (⟨(mk [fun d => ((d.updBe (.lane .ln0 : BEng) fun y => { y with run := some (run0 : BeRun) }).wr (BE_PROGA_P (.lane .ln0 : BEng) 0) (0x0E * 2 ^ 26 + 1 * 2 ^ 18 + 0 * 2 ^ 12 + 5 * 2 ^ 3 + 7)).wr (BE_S_S (.lane .ln0 : BEng) 0) 0x40000000, fun d => ((d.wr (BE_COEFA_C (.lane .ln0 : BEng) 5) 77777).wr (BE_COEFA_C (.lane .ln0 : BEng) 6) 99999).wr (BE_W_W (.lane .ln0 : BEng) 7) 0x81000000]), []⟩ : State), by unfold Device.nextIs; decide +kernel⟩⟩

theorem witness_BalanceMovesAndLimits :
    (∃ (e : BEng) (r : BeRun) (s : State),
    r.t.length = 16 ∧ ((∀ v ∈ r.t, qMin ≤ v ∧ v ≤ qMax)) ∧ ((∀ v ∈ (s.dev.be e).inp, qMin ≤ v ∧ v ≤ qMax)) ∧ s.dev.nextIs e r 0x07) ∧
    (∃ (e : BEng) (r : BeRun) (s : State),
    r.t.length = 16 ∧ ((∀ v ∈ r.t, qMin ≤ v ∧ v ≤ qMax)) ∧ ((∀ v ∈ (s.dev.be e).inp, qMin ≤ v ∧ v ≤ qMax)) ∧ s.dev.nextIs e r 0x0A) ∧
    (∃ (e : BEng) (r : BeRun) (s : State),
    r.t.length = 16 ∧ ((∀ v ∈ r.t, qMin ≤ v ∧ v ≤ qMax)) ∧ ((∀ v ∈ (s.dev.be e).inp, qMin ≤ v ∧ v ≤ qMax)) ∧ s.dev.nextIs e r 0x0B) ∧
    (∃ (e : BEng) (r : BeRun) (s : State),
    r.t.length = 16 ∧ ((∀ v ∈ r.t, qMin ≤ v ∧ v ≤ qMax)) ∧ ((∀ v ∈ (s.dev.be e).inp, qMin ≤ v ∧ v ≤ qMax)) ∧ s.dev.nextIs e r 0x09) :=
  ⟨⟨(.lane .ln0 : BEng), (run0 : BeRun), (⟨(mk [fun d => ((d.updBe (.lane .ln0 : BEng) fun y => { y with run := some (run0 : BeRun) }).wr (BE_PROGA_P (.lane .ln0 : BEng) 0) (0x07 * 2 ^ 26 + 47 * 2 ^ 18 + 0 * 2 ^ 12)).wr (BE_S_S (.lane .ln0 : BEng) 0) 0x80000000]), []⟩ : State), by unfold Device.nextIs; decide +kernel⟩,
   ⟨(.lane .ln0 : BEng), (run0 : BeRun), (⟨(mk [fun d => ((d.updBe (.lane .ln0 : BEng) fun y => { y with run := some (run0 : BeRun) }).wr (BE_PROGA_P (.lane .ln0 : BEng) 0) (0x0A * 2 ^ 26 + 47 * 2 ^ 18 + 1 * 2 ^ 12 + 2 * 2 ^ 6 + 3)).wr (BE_S_S (.lane .ln0 : BEng) 3) 0x80000000, fun d => d.wr (BE_S_S (.lane .ln0 : BEng) 1) 11]), []⟩ : State), by unfold Device.nextIs; decide +kernel⟩,
   ⟨(.lane .ln0 : BEng), (run0 : BeRun), (⟨(mk [fun d => (d.updBe (.lane .ln0 : BEng) fun y => { y with run := some (run0 : BeRun), inp := [1, 2, 3] }).wr (BE_PROGA_P (.lane .ln0 : BEng) 0) (0x0B * 2 ^ 26 + 47 * 2 ^ 18 + 2)]), []⟩ : State), by unfold Device.nextIs; decide +kernel⟩,
   ⟨(.lane .ln0 : BEng), (run0 : BeRun), (⟨(mk [fun d => ((d.updBe (.lane .ln0 : BEng) fun y => { y with run := some (run0 : BeRun) }).wr (BE_PROGA_P (.lane .ln0 : BEng) 0) (0x09 * 2 ^ 26 + 47 * 2 ^ 18 + 0 * 2 ^ 12 + 1 * 2 ^ 6 + 4 * 2 ^ 3)).wr (BE_S_S (.lane .ln0 : BEng) 0) 0x80000000, fun d => d.wr (BE_S_S (.lane .ln0 : BEng) 1) 0x80000000]), []⟩ : State), by unfold Device.nextIs; decide +kernel⟩⟩

theorem witness_BalanceAccumulatorsSaturate :
    (∃ (e : BEng) (r : BeRun) (s : State),
    s.dev.nextIs e r 0x00) ∧
    (∃ (e : BEng) (r : BeRun) (s : State),
    r.pc < 1024 ∧ s.dev.nextIs e r 0x01) ∧
    (∃ (e : BEng) (r : BeRun) (s : State),
    r.pc < 1024 ∧ s.dev.nextIs e r 0x02) ∧
    (∃ (e : BEng) (r : BeRun) (s : State),
    r.pc < 1024 ∧ s.dev.nextIs e r 0x03) :=
  ⟨⟨(.lane .ln0 : BEng), (run0 : BeRun), (⟨(mk [fun d => (d.updBe (.lane .ln0 : BEng) fun y => { y with run := some (run0 : BeRun) })]), []⟩ : State), by unfold Device.nextIs; decide +kernel⟩,
   ⟨(.lane .ln0 : BEng), (run0 : BeRun), (⟨(mk [fun d => ((d.updBe (.lane .ln0 : BEng) fun y => { y with run := some (run0 : BeRun) }).wr (BE_PROGA_P (.lane .ln0 : BEng) 0) (0x01 * 2 ^ 26 + 3 * 2 ^ 24 + 5 * 2 ^ 9)).wr (BE_S_S (.lane .ln0 : BEng) 0) 0x80000000, fun d => d.wr (BE_COEFA_C (.lane .ln0 : BEng) 5) 0x80000000]), []⟩ : State), by unfold Device.nextIs; decide +kernel⟩,
   ⟨(.lane .ln0 : BEng), ({ run0 with a := [2 ^ 63 - 1, 0, 0, 0] } : BeRun), (⟨(mk [fun d => ((d.updBe (.lane .ln0 : BEng) fun y => { y with run := some ({ run0 with a := [2 ^ 63 - 1, 0, 0, 0] } : BeRun) }).wr (BE_PROGA_P (.lane .ln0 : BEng) 0) (0x02 * 2 ^ 26 + 5 * 2 ^ 9)).wr (BE_S_S (.lane .ln0 : BEng) 0) 0x80000000, fun d => d.wr (BE_COEFA_C (.lane .ln0 : BEng) 5) 0x80000000]), []⟩ : State), by unfold Device.nextIs; decide +kernel⟩,
   ⟨(.lane .ln0 : BEng), ({ run0 with a := [5, 0, 0, 0] } : BeRun), (⟨(mk [fun d => ((d.updBe (.lane .ln0 : BEng) fun y => { y with run := some ({ run0 with a := [5, 0, 0, 0] } : BeRun) }).wr (BE_PROGA_P (.lane .ln0 : BEng) 0) (0x03 * 2 ^ 26 + 5 * 2 ^ 9)).wr (BE_S_S (.lane .ln0 : BEng) 0) 0x80000000, fun d => d.wr (BE_COEFA_C (.lane .ln0 : BEng) 5) 0x7FFFFFFF]), []⟩ : State), by unfold Device.nextIs; decide +kernel⟩⟩

theorem witness_BalanceSectionsOutputsAndEnd :
    (∃ (e : BEng) (r : BeRun) (s : State),
    r.t.length = 16 ∧ r.pc < 1024 ∧ s.dev.nextIs e r 0x0F) ∧
    (∃ (e : BEng) (r : BeRun) (p : Nat) (s : State),
    s.dev.nextIs e r 0x0C ∧ bitsOf (s.dev.nextWord e r) 0 5 = p ∧ e ≠ .spindle ∧ 1 < p ∧ (p < 3 ∨ 4 < p)) ∧
    (∃ (l : Lane) (r : BeRun) (uv : Int) (s : State),
    s.dev.nextIs (.lane l) r 0x0C ∧ bitsOf (s.dev.nextWord (.lane l) r) 0 5 = 1 ∧ Sparse.find r.first 1 = none ∧ Sparse.find r.first 0 = some uv ∧ s.dev.bit (PS_CTRL_EN l) = true ∧ (s.dev.sv l).st ≠ .retract ∧ s.dev.twoLane = false) ∧
    (∃ (e : BEng) (r : BeRun) (s : State),
    s.dev.nextIs e r 0x3F) ∧
    (∃ (e : BEng) (s : State),
    (s.dev.be e).run = none) ∧
    (∃ (r : BeRun) (op : Nat) (s : State),
    s.dev.nextIs .spindle r op ∧ op ≠ 0x0F) ∧
    (∃ (l : Lane) (r : BeRun) (s : State),
    (s.dev.be (.lane l)).run = some r ∧ (s.dev.sv l).st.loaded = false) :=
  ⟨⟨(.lane .ln0 : BEng), (run0 : BeRun), (⟨(mk [fun d => ((d.updBe (.lane .ln0 : BEng) fun y => { y with run := some (run0 : BeRun) }).wr (BE_PROGA_P (.lane .ln0 : BEng) 0) (0x0F * 2 ^ 26 + 4 * 2 ^ 21 + 8 * 2 ^ 15 + 2 * 2 ^ 9 + 16)).wr (BE_S_S (.lane .ln0 : BEng) 2) 0x12345678, fun d => ((d.wr (BE_COEFA_C (.lane .ln0 : BEng) 16) 0x40000000).wr (BE_COEFA_C (.lane .ln0 : BEng) 17) 0xC0001234).wr (BE_S_S (.lane .ln0 : BEng) 4) 0x7FFFFFFF]), []⟩ : State), by unfold Device.nextIs; decide +kernel⟩,
   ⟨(.lane .ln0 : BEng), (run0 : BeRun), (2 : Nat), (⟨(mk [fun d => (d.updBe (.lane .ln0 : BEng) fun y => { y with run := some (run0 : BeRun) }).wr (BE_PROGA_P (.lane .ln0 : BEng) 0) (0x0C * 2 ^ 26 + 2)]), []⟩ : State), by unfold Device.nextIs; decide +kernel⟩,
   ⟨(.ln0 : Lane), ({ run0 with first := [(0, 5)] } : BeRun), (5 : Int), (⟨(mk [fun d => d.wrB (PS_CTRL_EN (.ln0 : Lane)) true, fun d => (d.updBe (.lane .ln0) fun y => { y with run := some ({ run0 with first := [(0, 5)] } : BeRun), inp := [0, 0, 0, 0, 0, 0, 0, 0x40000000] }).wr (BE_PROGA_P (.lane .ln0) 0) (0x0C * 2 ^ 26 + 1)]), []⟩ : State), by unfold Device.nextIs; decide +kernel⟩,
   ⟨(.spindle : BEng), (run0 : BeRun), (⟨(mk [fun d => (d.updBe (.spindle : BEng) fun y => { y with run := some (run0 : BeRun) }).wr (BE_PROGA_P (.spindle : BEng) 0) (0x3F * 2 ^ 26)]), []⟩ : State), by unfold Device.nextIs; decide +kernel⟩,
   ⟨(.spindle : BEng), (⟨(mk [fun d => d.updBe (.spindle : BEng) fun z_ => { z_ with run := none }]), []⟩ : State), by decide +kernel⟩,
   ⟨(run0 : BeRun), (1 : Nat), (⟨(mk [fun d => (d.updBe .spindle fun y => { y with run := some (run0 : BeRun) }).wr (BE_PROGA_P .spindle 0) (1 * 2 ^ 26)]), []⟩ : State), by unfold Device.nextIs; decide +kernel⟩,
   ⟨(.ln0 : Lane), (run0 : BeRun), (⟨(mk [fun d => d.updBe ((.lane (.ln0 : Lane))) fun z_ => { z_ with run := some (run0 : BeRun) }]), []⟩ : State), by decide +kernel⟩⟩

theorem witness_BalanceBanksAreCheckedBeforeExchange :
    (∃ (e : BEng) (s : State),
    (s.dev.be e).checking = true) ∧
    (∃ (e : BEng) (s : State),
    (s.dev.be e).checking = false) ∧
    (∃ (e : BEng) (s : State),
    (s.dev.be e).checking = false) ∧
    (∃ (e : BEng) (b : Bool) (c : Nat) (s : State),
    (s.dev.be e).checking = true ∧ s.dev.bankCheck e (!s.dev.beBank e) b = c ∧ c ≠ 0) ∧
    (∃ (e : BEng) (b : Bool) (s : State),
    (s.dev.be e).checking = true ∧ s.dev.bankCheck e (!s.dev.beBank e) b = 0 ∧ s.dev.bit (BE_CTRL_RUN e) = false) ∧
    (∃ (e : BEng) (b : Bool) (s : State),
    (s.dev.be e).checking = true ∧ s.dev.bankCheck e (!s.dev.beBank e) b = 0 ∧ s.dev.bit (BE_CTRL_RUN e) = true) ∧
    (∃ (e : BEng) (s : State),
    s.dev.bit (BE_STATUS_PASSED e) = false) ∧
    (∃ (s : State),
    s.dev.bit (BE_STATUS_PASSED .spindle) = true) ∧
    (∃ (l : Lane) (s : State),
    s.dev.bit (BE_STATUS_PASSED (.lane l)) = true ∧ (s.dev.sv l).st ≠ .off) ∧
    (∃ (l : Lane) (s : State),
    ((s.dev.be (.lane l)).held = false ∨ (s.dev.be (.lane l)).run ≠ none)) ∧
    (∃ (l : Lane) (s : State),
    (s.dev.be (.lane l)).held = true ∧ (s.dev.be (.lane l)).run = none ∧ s.dev.bit (BE_CTRL_RUN (.lane l)) = true ∧ (s.dev.be (.lane l)).due = false) :=
  ⟨⟨(.spindle : BEng), (⟨(mk [fun d => d.updBe (.spindle : BEng) fun z_ => { z_ with checking := true }]), []⟩ : State), by decide +kernel⟩,
   ⟨(.spindle : BEng), (⟨(mk [fun d => d.updBe (.spindle : BEng) fun z_ => { z_ with checking := false }]), []⟩ : State), by decide +kernel⟩,
   ⟨(.spindle : BEng), (⟨(mk [fun d => d.updBe (.spindle : BEng) fun z_ => { z_ with checking := false }]), []⟩ : State), by decide +kernel⟩,
   ⟨(.spindle : BEng), (false : Bool), (8 : Nat), (⟨(mk [fun d => d.updBe (.spindle : BEng) fun z_ => { z_ with checking := true }]), []⟩ : State), by decide +kernel⟩,
   ⟨(.lane .ln0 : BEng), (false : Bool), (⟨(mk [fun d => d.updBe (.lane .ln0 : BEng) fun z_ => { z_ with checking := true }, fun d => d.wrB (BE_CTRL_RUN (.lane .ln0 : BEng)) false, fun d => (d.wr (BE_SLOTV_SLOTS (.lane .ln0 : BEng)) 7).wr (BE_STATUS_BANK (.lane .ln0 : BEng)) 1, fun d => (((d.wr (BE_PROGA_P (.lane .ln0 : BEng) 0) 0x30000000).wr (BE_PROGA_P (.lane .ln0 : BEng) 1) 0x30000001).wr (BE_PROGA_P (.lane .ln0 : BEng) 2) 0xFC000000), fun d => (((d.wr (BE_PROGA_P (.lane .ln0 : BEng) 1024) 0x30000000).wr (BE_PROGA_P (.lane .ln0 : BEng) 1025) 0x30000001).wr (BE_PROGA_P (.lane .ln0 : BEng) 1026) 0xFC000000), fun d => (((d.wr (BE_PROGA_P (.lane .ln0 : BEng) 2048) 0x30000000).wr (BE_PROGA_P (.lane .ln0 : BEng) 2049) 0x30000001).wr (BE_PROGA_P (.lane .ln0 : BEng) 2050) 0xFC000000)]), []⟩ : State), by decide +kernel⟩,
   ⟨(.lane .ln0 : BEng), (false : Bool), (⟨(mk [fun d => d.updBe (.lane .ln0 : BEng) fun z_ => { z_ with checking := true }, fun d => d.wrB (BE_CTRL_RUN (.lane .ln0 : BEng)) true, fun d => (d.wr (BE_SLOTV_SLOTS (.lane .ln0 : BEng)) 7).wr (BE_STATUS_BANK (.lane .ln0 : BEng)) 1, fun d => (((d.wr (BE_PROGA_P (.lane .ln0 : BEng) 0) 0x30000000).wr (BE_PROGA_P (.lane .ln0 : BEng) 1) 0x30000001).wr (BE_PROGA_P (.lane .ln0 : BEng) 2) 0xFC000000), fun d => (((d.wr (BE_PROGA_P (.lane .ln0 : BEng) 1024) 0x30000000).wr (BE_PROGA_P (.lane .ln0 : BEng) 1025) 0x30000001).wr (BE_PROGA_P (.lane .ln0 : BEng) 1026) 0xFC000000), fun d => (((d.wr (BE_PROGA_P (.lane .ln0 : BEng) 2048) 0x30000000).wr (BE_PROGA_P (.lane .ln0 : BEng) 2049) 0x30000001).wr (BE_PROGA_P (.lane .ln0 : BEng) 2050) 0xFC000000)]), []⟩ : State), by decide +kernel⟩,
   ⟨(.spindle : BEng), (⟨(mk [fun d => d.wrB (BE_STATUS_PASSED (.spindle : BEng)) false]), []⟩ : State), by decide +kernel⟩,
   ⟨(⟨(mk [fun d => d.wrB (BE_STATUS_PASSED .spindle) true]), []⟩ : State), by decide +kernel⟩,
   ⟨(.ln0 : Lane), (⟨(mk [fun d => d.wrB (BE_STATUS_PASSED (.lane (.ln0 : Lane))) true, fun d => d.updSv (.ln0 : Lane) fun y => { y with st := .parked }]), []⟩ : State), by decide +kernel⟩,
   ⟨(.ln0 : Lane), (⟨(mk [fun d => d.updBe ((.lane (.ln0 : Lane))) fun z_ => { z_ with held := false }]), []⟩ : State), by decide +kernel⟩,
   ⟨(.ln0 : Lane), (⟨(mk [fun d => d.updBe ((.lane (.ln0 : Lane))) fun z_ => { z_ with held := true }, fun d => d.updBe ((.lane (.ln0 : Lane))) fun z_ => { z_ with run := none }, fun d => d.wrB (BE_CTRL_RUN (.lane (.ln0 : Lane))) true, fun d => d.updBe ((.lane (.ln0 : Lane))) fun z_ => { z_ with due := false }]), []⟩ : State), by decide +kernel⟩⟩

theorem witness_ServoCommandsAreTakenOrRefused :
    (∃ (l : Lane) (s : State),
    ((s.dev.sv l).st ≠ .parked ∨ s.dev.atSpeed = false ∨ s.dev.bit (PS_STATUS_UP l) = false)) ∧
    (∃ (l : Lane) (s : State),
    (s.dev.sv l).st = .parked ∧ s.dev.atSpeed = true ∧ s.dev.bit (PS_STATUS_UP l) = true) ∧
    (∃ (l : Lane) (s : State),
    (s.dev.sv l).st ∈ [SvState.off, .parked, .load, .unload, .retract, .fault]) ∧
    (∃ (l : Lane) (s : State),
    (s.dev.sv l).st ∈ [SvState.seek, .settle] ∧ s.dev.rd (SV_STATUS_HEAD l) = s.dev.rd (SV_TARGET_HEAD l)) ∧
    (∃ (l : Lane) (s : State),
    (s.dev.sv l).st = .recover ∧ s.dev.rd (SV_STATUS_HEAD l) = s.dev.rd (SV_TARGET_HEAD l)) ∧
    (∃ (l : Lane) (s : State),
    (s.dev.sv l).st ∈ [SvState.off, .parked, .load, .unload, .retract, .fault]) ∧
    (∃ (l : Lane) (s : State),
    (s.dev.sv l).st ∈ [SvState.seek, .settle, .follow, .recover]) ∧
    (∃ (s : State),
    s.dev.retracting = true) ∧
    (∃ (s : State),
    s.dev.retracting = false) ∧
    (∃ (l : Lane) (s : State),
    (s.dev.sv l).st ∉ [SvState.off, .parked, .fault]) ∧
    (∃ (l : Lane) (s : State),
    (s.dev.sv l).st ∈ [SvState.parked, .fault]) ∧
    (∃ (l : Lane) (s : State),
    (s.dev.sv l).st = .off ∧ s.dev.bit (BE_CTRL_RUN (.lane l)) = true ∧ s.dev.bit (PS_CTRL_EN l) = true) ∧
    (∃ (l : Lane) (s : State),
    s.dev.bit (BE_STATUS_SLOT3 (.lane l)) = false) ∧
    (∃ (l : Lane) (s : State),
    s.dev.bit (BE_STATUS_SLOT3 (.lane l)) = true) ∧
    (∃ (l : Lane) (s : State),
    (s.dev.sv l).st ≠ .follow) ∧
    (∃ (l : Lane) (t : Nat) (s : State),
    (s.dev.sv l).st = .follow ∧ t < 2 ^ (SV_TARGET_TRACK l).n ∧ s.dev.rd (SV_TARGET_TRACK l) ≠ t) :=
  ⟨⟨(.ln0 : Lane), (⟨({} : Device), []⟩ : State), by decide +kernel⟩,
   ⟨(.ln0 : Lane), (⟨(mk [fun d => d.updSv (.ln0 : Lane) fun z_ => { z_ with st := .parked }, fun d => d.wrB (PS_STATUS_UP (.ln0 : Lane)) true, fun d => d.wrB SP_STATUS_ATSPEED true]), []⟩ : State), by decide +kernel⟩,
   ⟨(.ln0 : Lane), (⟨(mk [fun d => d.updSv (.ln0 : Lane) fun z_ => { z_ with st := .off }]), []⟩ : State), by decide +kernel⟩,
   ⟨(.ln0 : Lane), (⟨(mk [fun d => d.updSv (.ln0 : Lane) fun z_ => { z_ with st := .seek }, fun d => d.wr (SV_STATUS_HEAD (.ln0 : Lane)) (d.rd (SV_TARGET_HEAD (.ln0 : Lane)))]), []⟩ : State), by decide +kernel⟩,
   ⟨(.ln0 : Lane), (⟨(mk [fun d => d.updSv (.ln0 : Lane) fun z_ => { z_ with st := .recover }, fun d => d.wr (SV_STATUS_HEAD (.ln0 : Lane)) (d.rd (SV_TARGET_HEAD (.ln0 : Lane)))]), []⟩ : State), by decide +kernel⟩,
   ⟨(.ln0 : Lane), (⟨(mk [fun d => d.updSv (.ln0 : Lane) fun z_ => { z_ with st := .off }]), []⟩ : State), by decide +kernel⟩,
   ⟨(.ln0 : Lane), (⟨(mk [fun d => d.updSv (.ln0 : Lane) fun z_ => { z_ with st := .seek }]), []⟩ : State), by decide +kernel⟩,
   ⟨(⟨(mk [fun d => { d with emretCause := some 1 }]), []⟩ : State), by decide +kernel⟩,
   ⟨(⟨({} : Device), []⟩ : State), by decide +kernel⟩,
   ⟨(.ln0 : Lane), (⟨(mk [fun d => d.updSv (.ln0 : Lane) fun y => { y with st := .seek }]), []⟩ : State), by decide +kernel⟩,
   ⟨(.ln0 : Lane), (⟨(mk [fun d => d.updSv (.ln0 : Lane) fun z_ => { z_ with st := .parked }]), []⟩ : State), by decide +kernel⟩,
   ⟨(.ln0 : Lane), (⟨(mk [fun d => d.updSv (.ln0 : Lane) fun z_ => { z_ with st := .off }, fun d => d.wrB (BE_CTRL_RUN (.lane (.ln0 : Lane))) true, fun d => d.wrB (PS_CTRL_EN (.ln0 : Lane)) true]), []⟩ : State), by decide +kernel⟩,
   ⟨(.ln0 : Lane), (⟨(mk [fun d => d.wrB (BE_STATUS_SLOT3 (.lane (.ln0 : Lane))) false]), []⟩ : State), by decide +kernel⟩,
   ⟨(.ln0 : Lane), (⟨(mk [fun d => d.wrB (BE_STATUS_SLOT3 (.lane (.ln0 : Lane))) true]), []⟩ : State), by decide +kernel⟩,
   ⟨(.ln0 : Lane), (⟨({} : Device), []⟩ : State), by decide +kernel⟩,
   ⟨(.ln0 : Lane), (1 : Nat), (⟨(mk [fun d => d.updSv (.ln0 : Lane) fun z_ => { z_ with st := .follow }]), []⟩ : State), by decide +kernel⟩⟩

theorem witness_ServoStatesChangeOnTheirConditions :
    (∃ (l : Lane) (s : State),
    ((s.dev.sv l).st ≠ .load ∨ (s.dev.sv l).consistent < 8)) ∧
    (∃ (l : Lane) (s : State),
    (s.dev.sv l).st = .load ∧ 8 ≤ (s.dev.sv l).consistent) ∧
    (∃ (l : Lane) (s : State),
    (s.dev.sv l).st = .load) ∧
    (∃ (l : Lane) (s : State),
    (s.dev.sv l).st ∈ [SvState.seek, .settle] ∧ s.dev.rd (SV_DEMOD_MISSMAX l) ≤ s.dev.rd (SV_STATUS_MISS l)) ∧
    (∃ (l : Lane) (s : State),
    s.dev.rd (SV_STATUS_MISS l) < s.dev.rd (SV_DEMOD_MISSMAX l)) ∧
    (∃ (l : Lane) (s : State),
    (s.dev.sv l).st = .seek ∧ (s.dev.sv l).profEnd = true) ∧
    (∃ (l : Lane) (s : State),
    (s.dev.sv l).profEnd = false) ∧
    (∃ (l : Lane) (s : State),
    (s.dev.sv l).st = .settle ∧ s.dev.rd (SV_SOFT_NSOFT l) ≤ (s.dev.sv l).k ∧ s.dev.rd (SV_SOFT_NSET l) ≤ (s.dev.sv l).within_) ∧
    (∃ (l : Lane) (s : State),
    (s.dev.sv l).within_ < s.dev.rd (SV_SOFT_NSET l)) ∧
    (∃ (l : Lane) (s : State),
    (s.dev.sv l).st = .settle ∧ 2000 ≤ (s.dev.sv l).since) ∧
    (∃ (l : Lane) (s : State),
    (s.dev.sv l).since < 2000) ∧
    (∃ (l : Lane) (s : State),
    (s.dev.sv l).st = .recover ∧ 8 ≤ (s.dev.sv l).consistent ∧ (s.dev.sv l).recovers < 4) ∧
    (∃ (l : Lane) (s : State),
    4 ≤ (s.dev.sv l).recovers) ∧
    (∃ (l : Lane) (s : State),
    (s.dev.sv l).st = .recover ∧ (4 ≤ (s.dev.sv l).recovers ∨ 2000 ≤ (s.dev.sv l).since)) ∧
    (∃ (l : Lane) (s : State),
    (s.dev.sv l).st = .unload) ∧
    (∃ (l : Lane) (s : State),
    s.dev.rd (SV_STOP_STOP l) * 2 ^ 16 < (s.dev.bemf l).natAbs) ∧
    (∃ (l : Lane) (s : State),
    (s.dev.sv l).st = .unload ∧ (s.dev.bemf l).natAbs ≤ s.dev.rd (SV_STOP_STOP l) * 2 ^ 16 ∧ (s.dev.sv l).loadFailed = false) ∧
    (∃ (l : Lane) (s : State),
    (s.dev.sv l).st = .unload ∧ (s.dev.bemf l).natAbs ≤ s.dev.rd (SV_STOP_STOP l) * 2 ^ 16 ∧ (s.dev.sv l).loadFailed = true ∧ (s.dev.sv l).attempt < 3) ∧
    (∃ (l : Lane) (s : State),
    (s.dev.sv l).st = .unload ∧ (s.dev.bemf l).natAbs ≤ s.dev.rd (SV_STOP_STOP l) * 2 ^ 16 ∧ (s.dev.sv l).loadFailed = true ∧ 3 ≤ (s.dev.sv l).attempt) :=
  ⟨⟨(.ln0 : Lane), (⟨({} : Device), []⟩ : State), by decide +kernel⟩,
   ⟨(.ln0 : Lane), (⟨(mk [fun d => d.updSv (.ln0 : Lane) fun z_ => { z_ with st := .load }, fun d => d.updSv (.ln0 : Lane) fun z_ => { z_ with consistent := 8 }]), []⟩ : State), by decide +kernel⟩,
   ⟨(.ln0 : Lane), (⟨(mk [fun d => d.updSv (.ln0 : Lane) fun z_ => { z_ with st := .load }]), []⟩ : State), by decide +kernel⟩,
   ⟨(.ln0 : Lane), (⟨(mk [fun d => d.updSv (.ln0 : Lane) fun z_ => { z_ with st := .seek }, fun d => d.wr (SV_DEMOD_MISSMAX (.ln0 : Lane)) (d.rd (SV_STATUS_MISS (.ln0 : Lane)))]), []⟩ : State), by decide +kernel⟩,
   ⟨(.ln0 : Lane), (⟨({} : Device), []⟩ : State), by decide +kernel⟩,
   ⟨(.ln0 : Lane), (⟨(mk [fun d => d.updSv (.ln0 : Lane) fun z_ => { z_ with st := .seek }, fun d => d.updSv (.ln0 : Lane) fun z_ => { z_ with profEnd := true }]), []⟩ : State), by decide +kernel⟩,
   ⟨(.ln0 : Lane), (⟨(mk [fun d => d.updSv (.ln0 : Lane) fun z_ => { z_ with profEnd := false }]), []⟩ : State), by decide +kernel⟩,
   ⟨(.ln0 : Lane), (⟨(mk [fun d => d.updSv (.ln0 : Lane) fun z_ => { z_ with st := .settle }, fun d => d.wr (SV_SOFT_NSOFT (.ln0 : Lane)) ((d.sv (.ln0 : Lane)).k), fun d => d.wr (SV_SOFT_NSET (.ln0 : Lane)) ((d.sv (.ln0 : Lane)).within_)]), []⟩ : State), by decide +kernel⟩,
   ⟨(.ln0 : Lane), (⟨(mk [fun d => d.wr (SV_SOFT_NSET (.ln0 : Lane)) ((d.sv (.ln0 : Lane)).within_ + 1)]), []⟩ : State), by decide +kernel⟩,
   ⟨(.ln0 : Lane), (⟨(mk [fun d => d.updSv (.ln0 : Lane) fun z_ => { z_ with st := .settle }, fun d => d.updSv (.ln0 : Lane) fun z_ => { z_ with since := 2000 }]), []⟩ : State), by decide +kernel⟩,
   ⟨(.ln0 : Lane), (⟨({} : Device), []⟩ : State), by decide +kernel⟩,
   ⟨(.ln0 : Lane), (⟨(mk [fun d => d.updSv (.ln0 : Lane) fun z_ => { z_ with st := .recover }, fun d => d.updSv (.ln0 : Lane) fun z_ => { z_ with consistent := 8 }]), []⟩ : State), by decide +kernel⟩,
   ⟨(.ln0 : Lane), (⟨(mk [fun d => d.updSv (.ln0 : Lane) fun z_ => { z_ with recovers := 4 }]), []⟩ : State), by decide +kernel⟩,
   ⟨(.ln0 : Lane), (⟨(mk [fun d => d.updSv (.ln0 : Lane) fun z_ => { z_ with st := .recover }, fun d => d.updSv (.ln0 : Lane) fun z_ => { z_ with recovers := 4 }]), []⟩ : State), by decide +kernel⟩,
   ⟨(.ln0 : Lane), (⟨(mk [fun d => d.updSv (.ln0 : Lane) fun z_ => { z_ with st := .unload }]), []⟩ : State), by decide +kernel⟩,
   ⟨(.ln0 : Lane), (⟨(mk [fun d => d.updPs (.ln0 : Lane) fun y => { y with vvcm := 0x7FFFFFFF }]), []⟩ : State), by decide +kernel⟩,
   ⟨(.ln0 : Lane), (⟨(mk [fun d => d.updSv (.ln0 : Lane) fun z_ => { z_ with st := .unload }, fun d => d.updSv (.ln0 : Lane) fun z_ => { z_ with loadFailed := false }]), []⟩ : State), by decide +kernel⟩,
   ⟨(.ln0 : Lane), (⟨(mk [fun d => d.updSv (.ln0 : Lane) fun z_ => { z_ with st := .unload }, fun d => d.updSv (.ln0 : Lane) fun z_ => { z_ with loadFailed := true }]), []⟩ : State), by decide +kernel⟩,
   ⟨(.ln0 : Lane), (⟨(mk [fun d => d.updSv (.ln0 : Lane) fun z_ => { z_ with st := .unload }, fun d => d.updSv (.ln0 : Lane) fun z_ => { z_ with loadFailed := true }, fun d => d.updSv (.ln0 : Lane) fun z_ => { z_ with attempt := 3 }]), []⟩ : State), by decide +kernel⟩⟩

theorem witness_ServoWedgesAndLinksReport :
    (∃ (l : Lane) (s : State),
    s.dev.held1 l = true) ∧
    (∃ (l : Lane) (w : WedgeRd) (s : State),
    s.dev.held1 l = false ∧ s.dev.wedgeGood l w = true ∧ pesOf w (s.dev.rdI (SV_PGAIN_PGAIN l (s.dev.rd (SV_STATUS_HEAD l)))) ≠ none ∧ s.dev.bit (BE_CTRL_RUN (.lane l)) = false ∧ w.track < 2 ^ (SV_POS_TRACK l).n ∧ ((∀ q ∈ laneSeqs l, (s.dev.ec q).op = none)) ∧ (s.dev.sv l).st = .seek) ∧
    (∃ (l : Lane) (w : WedgeRd) (s : State),
    s.dev.held1 l = false ∧ s.dev.wedgeGood l w = false ∧ s.dev.bit (BE_CTRL_RUN (.lane l)) = false ∧ ((∀ q ∈ laneSeqs l, (s.dev.ec q).op = none)) ∧ (s.dev.sv l).st = .seek) ∧
    (∃ (l : Lane) (s : State),
    s.dev.bit (PS_CTRL_EN l) = false) ∧
    (∃ (l : Lane) (w : Nat) (s : State),
    s.dev.bit (PS_CTRL_EN l) = true ∧ (s.dev.sv l).st ≠ .retract ∧ crc8 (w - bitsOf w 0 8) = bitsOf w 0 8 ∧ bitsOf w 40 4 = (s.dev.ps l).seq ∧ bitsOf w 44 4 = 0 ∧ (s.dev.ps l).fault = false) ∧
    (∃ (l : Lane) (w : Nat) (s : State),
    s.dev.bit (PS_CTRL_EN l) = true ∧ (s.dev.sv l).st ≠ .retract ∧ crc8 (w - bitsOf w 0 8) ≠ bitsOf w 0 8 ∧ (s.dev.ps l).errs < 2) ∧
    (∃ (l : Lane) (w : Nat) (s : State),
    s.dev.bit (PS_CTRL_EN l) = true ∧ (s.dev.sv l).st = .seek ∧ crc8 (w - bitsOf w 0 8) ≠ bitsOf w 0 8 ∧ (s.dev.ps l).errs = 2 ∧ (s.dev.ps l).fault = false ∧ s.dev.retracting = false) ∧
    (∃ (l : Lane) (s : State),
    s.dev.bit (PS_CTRL_EN l) = true ∧ (s.dev.sv l).st ∈ [SvState.off, .parked, .fault] ∧ s.dev.twoLane = false) ∧
    (∃ (l : Lane) (s : State),
    s.dev.bit (PS_CTRL_EN l) = false) ∧
    (∃ (l : Lane) (s : State),
    s.dev.bit (PS_CTRL_EN l) = true ∧ (s.dev.sv l).st ∈ [SvState.off, .parked, .fault]) ∧
    (∃ (l : Lane) (s : State),
    (s.dev.sv l).st ∉ [SvState.off, .parked, .fault]) ∧
    (∃ (l : Lane) (s : State),
    (s.dev.sv l).st ≠ .off) ∧
    (∃ (l : Lane) (s : State),
    (s.dev.be (.lane l.other)).xsent = none) ∧
    (∃ (l : Lane) (v : Int) (s : State),
    (s.dev.be (.lane l.other)).xsent = some v ∧ s.dev.twoLane = true ∧ s.dev.bit (ELK_STATUS_UP l) = true) ∧
    (∃ (l : Lane) (s : State),
    (s.dev.twoLane = false ∨ s.dev.bit (BE_STATUS_XSTALE (.lane l)) = true)) ∧
    (∃ (l : Lane) (s : State),
    s.dev.twoLane = true ∧ s.dev.bit (BE_STATUS_XSTALE (.lane l)) = false) :=
  ⟨⟨(.ln1 : Lane), (⟨(mk [fun d => d.wr CB_STRUCT_LANES 1]), []⟩ : State), by decide +kernel⟩,
   ⟨(.ln0 : Lane), ({ a := 40000, b := 20000, c := 30000, d := 30000 } : WedgeRd), (⟨(mk [fun d => d.wrB (BE_CTRL_RUN (.lane (.ln0 : Lane))) false, fun d => d.updSv (.ln0 : Lane) fun z_ => { z_ with st := .seek }, fun d => d.wr CB_STRUCT_LANES 2]), []⟩ : State), by decide +kernel⟩,
   ⟨(.ln0 : Lane), ({} : WedgeRd), (⟨(mk [fun d => d.wrB (BE_CTRL_RUN (.lane (.ln0 : Lane))) false, fun d => d.updSv (.ln0 : Lane) fun z_ => { z_ with st := .seek }]), []⟩ : State), by decide +kernel⟩,
   ⟨(.ln0 : Lane), (⟨(mk [fun d => d.wrB (PS_CTRL_EN (.ln0 : Lane)) false]), []⟩ : State), by decide +kernel⟩,
   ⟨(.ln0 : Lane), (57 : Nat), (⟨(mk [fun d => d.wrB (PS_CTRL_EN (.ln0 : Lane)) true, fun d => d.updPs (.ln0 : Lane) fun z_ => { z_ with fault := false }]), []⟩ : State), by decide +kernel⟩,
   ⟨(.ln0 : Lane), (0 : Nat), (⟨(mk [fun d => d.wrB (PS_CTRL_EN (.ln0 : Lane)) true]), []⟩ : State), by decide +kernel⟩,
   ⟨(.ln0 : Lane), (0 : Nat), (⟨(mk [fun d => d.wrB (PS_CTRL_EN (.ln0 : Lane)) true, fun d => d.updSv (.ln0 : Lane) fun z_ => { z_ with st := .seek }, fun d => d.updPs (.ln0 : Lane) fun z_ => { z_ with errs := 2 }, fun d => d.updPs (.ln0 : Lane) fun z_ => { z_ with fault := false }]), []⟩ : State), by decide +kernel⟩,
   ⟨(.ln0 : Lane), (⟨(mk [fun d => d.wrB (PS_CTRL_EN (.ln0 : Lane)) true, fun d => d.updSv (.ln0 : Lane) fun z_ => { z_ with st := .off }]), []⟩ : State), by decide +kernel⟩,
   ⟨(.ln0 : Lane), (⟨(mk [fun d => d.wrB (PS_CTRL_EN (.ln0 : Lane)) false]), []⟩ : State), by decide +kernel⟩,
   ⟨(.ln0 : Lane), (⟨(mk [fun d => d.wrB (PS_CTRL_EN (.ln0 : Lane)) true, fun d => d.updSv (.ln0 : Lane) fun z_ => { z_ with st := .off }]), []⟩ : State), by decide +kernel⟩,
   ⟨(.ln0 : Lane), (⟨(mk [fun d => d.updSv (.ln0 : Lane) fun y => { y with st := .seek }]), []⟩ : State), by decide +kernel⟩,
   ⟨(.ln0 : Lane), (⟨(mk [fun d => d.updSv (.ln0 : Lane) fun y => { y with st := .parked }]), []⟩ : State), by decide +kernel⟩,
   ⟨(.ln0 : Lane), (⟨(mk [fun d => d.updBe ((.lane (.ln0 : Lane).other)) fun z_ => { z_ with xsent := none }]), []⟩ : State), by decide +kernel⟩,
   ⟨(.ln0 : Lane), (7 : Int), (⟨(mk [fun d => d.updBe ((.lane (.ln0 : Lane).other)) fun z_ => { z_ with xsent := some (7 : Int) }, fun d => d.wrB (ELK_STATUS_UP (.ln0 : Lane)) true, fun d => d.wr CB_STRUCT_LANES 2]), []⟩ : State), by decide +kernel⟩,
   ⟨(.ln0 : Lane), (⟨({} : Device), []⟩ : State), by decide +kernel⟩,
   ⟨(.ln0 : Lane), (⟨(mk [fun d => d.wrB (BE_STATUS_XSTALE (.lane (.ln0 : Lane))) false, fun d => d.wr CB_STRUCT_LANES 2]), []⟩ : State), by decide +kernel⟩⟩

theorem witness_SpindleCommandsAreTakenOrRefused :
    (∃ (s : State),
    (s.dev.spin.st ∉ [SpState.off, .coast, .brake] ∨ s.dev.bit SP_CTRL_EN = false ∨ s.dev.bit (BE_CTRL_RUN .spindle) = false ∨ s.dev.rd SP_KE0_KE0 = 0 ∨ s.dev.rd SP_MOTOR_RSN = 0)) ∧
    (∃ (s : State),
    s.dev.spin.st ∈ [SpState.off, .coast] ∧ s.dev.bit SP_CTRL_EN = true ∧ s.dev.bit (BE_CTRL_RUN .spindle) = true ∧ s.dev.rd SP_KE0_KE0 ≠ 0 ∧ s.dev.rd SP_MOTOR_RSN ≠ 0) ∧
    (∃ (s : State),
    s.dev.spin.st = .brake ∧ s.dev.bit SP_CTRL_EN = true ∧ s.dev.bit (BE_CTRL_RUN .spindle) = true ∧ s.dev.rd SP_KE0_KE0 ≠ 0 ∧ s.dev.rd SP_MOTOR_RSN ≠ 0 ∧ s.dev.spin.omega < 0) ∧
    (∃ (s : State),
    s.dev.spin.st ∈ [SpState.run, .reverse]) ∧
    (∃ (s : State),
    s.dev.spin.st = .start) ∧
    (∃ (s : State),
    s.dev.spin.st ∉ [SpState.start, .run, .reverse]) ∧
    (∃ (s : State),
    s.dev.spin.st ∉ [SpState.start, .run, .brake, .reverse]) ∧
    (∃ (s : State),
    s.dev.spin.st ∈ [SpState.run, .brake, .reverse]) ∧
    (∃ (s : State),
    s.dev.spin.st ≠ .fault) ∧
    (∃ (s : State),
    s.dev.spin.st = .fault ∧ s.dev.spin.stopped = false) ∧
    (∃ (s : State),
    s.dev.spin.st = .fault ∧ s.dev.spin.stopped = true ∧ s.dev.rd SP_BUS_VOLT < 2752) ∧
    (∃ (s : State),
    s.dev.spin.st ∈ [SpState.off, .fault, .coast]) ∧
    (∃ (s : State),
    s.dev.spin.st ∈ [SpState.listen, .start, .catch_, .run, .brake, .reverse, .holdup]) :=
  ⟨⟨(⟨({} : Device), []⟩ : State), by decide +kernel⟩,
   ⟨(⟨(mk [fun d => { d with spin := { d.spin with st := .off } }, fun d => d.wrB SP_CTRL_EN true, fun d => d.wrB (BE_CTRL_RUN .spindle) true, fun d => d.wr SP_KE0_KE0 1, fun d => d.wr SP_MOTOR_RSN 1]), []⟩ : State), by decide +kernel⟩,
   ⟨(⟨(mk [fun d => { d with spin := { d.spin with st := .brake } }, fun d => d.wrB SP_CTRL_EN true, fun d => d.wrB (BE_CTRL_RUN .spindle) true, fun d => d.wr SP_KE0_KE0 1, fun d => d.wr SP_MOTOR_RSN 1, fun d => d.updSpin fun y => { y with omega := -1 }]), []⟩ : State), by decide +kernel⟩,
   ⟨(⟨(mk [fun d => { d with spin := { d.spin with st := .run } }]), []⟩ : State), by decide +kernel⟩,
   ⟨(⟨(mk [fun d => { d with spin := { d.spin with st := .start } }]), []⟩ : State), by decide +kernel⟩,
   ⟨(⟨({} : Device), []⟩ : State), by decide +kernel⟩,
   ⟨(⟨({} : Device), []⟩ : State), by decide +kernel⟩,
   ⟨(⟨(mk [fun d => { d with spin := { d.spin with st := .run } }]), []⟩ : State), by decide +kernel⟩,
   ⟨(⟨({} : Device), []⟩ : State), by decide +kernel⟩,
   ⟨(⟨(mk [fun d => { d with spin := { d.spin with st := .fault } }, fun d => { d with spin := { d.spin with stopped := false } }]), []⟩ : State), by decide +kernel⟩,
   ⟨(⟨(mk [fun d => { d with spin := { d.spin with st := .fault } }, fun d => { d with spin := { d.spin with stopped := true } }]), []⟩ : State), by decide +kernel⟩,
   ⟨(⟨(mk [fun d => { d with spin := { d.spin with st := .off } }]), []⟩ : State), by decide +kernel⟩,
   ⟨(⟨(mk [fun d => { d with spin := { d.spin with st := .listen } }]), []⟩ : State), by decide +kernel⟩⟩

theorem witness_SpindleStartingFollowsItsSteps :
    (∃ (s : State),
    s.dev.spin.st ≠ .listen) ∧
    (∃ (s : State),
    s.dev.spin.st = .listen) ∧
    (∃ (v : Int) (s : State),
    s.dev.spin.st = .listen ∧ -60000 ≤ v ∧ v ≤ 300000) ∧
    (∃ (v : Int) (s : State),
    s.dev.spin.st = .listen ∧ 300000 < v) ∧
    (∃ (v : Int) (s : State),
    s.dev.spin.st = .listen ∧ v < -60000) ∧
    (∃ (s : State),
    s.dev.spin.st ≠ .start) ∧
    (∃ (s : State),
    s.dev.spin.st = .start ∧ s.dev.spin.step = .align) ∧
    (∃ (s : State),
    s.dev.spin.st = .start ∧ s.dev.spin.step = .polarity) ∧
    (∃ (s : State),
    s.dev.spin.st = .start ∧ s.dev.spin.step = .accel ∧ 2 ^ 32 < 12 * (- s.dev.spin.movedMin) ∧ s.dev.rd SP_STATUS_ATTEMPT < 4) ∧
    (∃ (s : State),
    s.dev.spin.st = .start ∧ s.dev.spin.step = .accel ∧ s.dev.rpmAtLeast s.dev.spin.omega 60 = false ∧ s.dev.rd SP_STATUS_ATTEMPT = 4) ∧
    (∃ (s : State),
    s.dev.spin.st = .start ∧ s.dev.spin.step = .pause) ∧
    (∃ (s : State),
    s.dev.spin.st = .start) ∧
    (∃ (s : State),
    s.dev.spin.st = .run ∧ s.dev.spin.wasAt = false) ∧
    (∃ (s : State),
    s.dev.spin.st = .run ∧ s.dev.spin.wasAt = true) ∧
    (∃ (s : State),
    s.dev.spin.st = .catch_) ∧
    (∃ (s : State),
    s.dev.spin.st.active = true ∧ s.dev.speedWithin 1 = true ∧ s.dev.bit SP_STATUS_ATSPEED = false) ∧
    (∃ (s : State),
    s.dev.speedWithin 1 = false) ∧
    (∃ (s : State),
    s.dev.spin.st.active = true) ∧
    (∃ (s : State),
    s.dev.spin.st = .coast ∧ s.dev.spin.decelAt = none) ∧
    (∃ (t : Nat) (s : State),
    s.dev.spin.st = .coast ∧ s.dev.spin.decelAt = some t ∧ (s.dev.chron.chr - t) / 1000 < 2 ^ 32) :=
  ⟨⟨(⟨({} : Device), []⟩ : State), by decide +kernel⟩,
   ⟨(⟨(mk [fun d => { d with spin := { d.spin with st := .listen } }]), []⟩ : State), by decide +kernel⟩,
   ⟨(300000 : Int), (⟨(mk [fun d => { d with spin := { d.spin with st := .listen } }]), []⟩ : State), by decide +kernel⟩,
   ⟨(300000 + 1 : Int), (⟨(mk [fun d => { d with spin := { d.spin with st := .listen } }]), []⟩ : State), by decide +kernel⟩,
   ⟨(-60001 : Int), (⟨(mk [fun d => { d with spin := { d.spin with st := .listen } }]), []⟩ : State), by decide +kernel⟩,
   ⟨(⟨({} : Device), []⟩ : State), by decide +kernel⟩,
   ⟨(⟨(mk [fun d => { d with spin := { d.spin with st := .start } }, fun d => { d with spin := { d.spin with step := .align } }]), []⟩ : State), by decide +kernel⟩,
   ⟨(⟨(mk [fun d => { d with spin := { d.spin with st := .start } }, fun d => { d with spin := { d.spin with step := .polarity } }]), []⟩ : State), by decide +kernel⟩,
   ⟨(⟨(mk [fun d => { d with spin := { d.spin with st := .start } }, fun d => { d with spin := { d.spin with step := .accel } }, fun d => d.updSpin fun y => { y with movedMin := -357913942 }]), []⟩ : State), by decide +kernel⟩,
   ⟨(⟨(mk [fun d => { d with spin := { d.spin with st := .start } }, fun d => { d with spin := { d.spin with step := .accel } }, fun d => d.wr SP_STATUS_ATTEMPT (4)]), []⟩ : State), by decide +kernel⟩,
   ⟨(⟨(mk [fun d => { d with spin := { d.spin with st := .start } }, fun d => { d with spin := { d.spin with step := .pause } }]), []⟩ : State), by decide +kernel⟩,
   ⟨(⟨(mk [fun d => { d with spin := { d.spin with st := .start } }]), []⟩ : State), by decide +kernel⟩,
   ⟨(⟨(mk [fun d => { d with spin := { d.spin with st := .run } }, fun d => { d with spin := { d.spin with wasAt := false } }]), []⟩ : State), by decide +kernel⟩,
   ⟨(⟨(mk [fun d => { d with spin := { d.spin with st := .run } }, fun d => { d with spin := { d.spin with wasAt := true } }]), []⟩ : State), by decide +kernel⟩,
   ⟨(⟨(mk [fun d => { d with spin := { d.spin with st := .catch_ } }]), []⟩ : State), by decide +kernel⟩,
   ⟨(⟨(mk [fun d => d.wrB SP_STATUS_ATSPEED false, fun d => d.updSpin fun y => { y with st := .run }]), []⟩ : State), by decide +kernel⟩,
   ⟨(⟨(mk [fun d => d.wr SP_SPEED_TARGET 7200]), []⟩ : State), by decide +kernel⟩,
   ⟨(⟨(mk [fun d => d.updSpin fun y => { y with st := .holdup }]), []⟩ : State), by decide +kernel⟩,
   ⟨(⟨(mk [fun d => { d with spin := { d.spin with st := .coast } }, fun d => { d with spin := { d.spin with decelAt := none } }]), []⟩ : State), by decide +kernel⟩,
   ⟨(0 : Nat), (⟨(mk [fun d => { d with spin := { d.spin with st := .coast } }, fun d => { d with spin := { d.spin with decelAt := some (0 : Nat) } }]), []⟩ : State), by decide +kernel⟩⟩

theorem witness_SpindleSupplyWatchActsOnThreeConversions :
    (∃ (s : State),
    s.dev.up = false) ∧
    (∃ (v : Nat) (c : Nat) (s : State),
    s.dev.up = true ∧ v < 4096 ∧ c < 4096 ∧ ((∀ p, s.dev.spin.bus.head? = some p → p ≤ v + 213))) ∧
    (∃ (v : Nat) (c : Nat) (p : Nat) (s : State),
    s.dev.up = true ∧ v < 4096 ∧ c < 4096 ∧ s.dev.spin.bus.head? = some p ∧ v + 213 < p ∧ s.dev.spin.st.active = true) ∧
    (∃ (s : State),
    (s.dev.busAtLeast 3072 = false ∨ s.dev.spin.st = .fault)) ∧
    (∃ (s : State),
    s.dev.busAtLeast 3072 = true ∧ s.dev.spin.st ≠ .fault ∧ s.dev.retracting = true) ∧
    (∃ (s : State),
    s.dev.busAtLeast 2944 = true ∧ s.dev.bit SP_STATUS_REGSTOP = false) ∧
    (∃ (s : State),
    s.dev.busAtLeast 2944 = false) ∧
    (∃ (s : State),
    s.dev.busAtMost 2880 = true) ∧
    (∃ (s : State),
    s.dev.busAtMost 2880 = false) ∧
    (∃ (s : State),
    (s.dev.brkAllowed = false ∨ s.dev.busAtLeast 2816 = false)) ∧
    (∃ (s : State),
    s.dev.busAtLeast 2816 = true ∧ s.dev.brkAllowed = true ∧ s.dev.bit SP_STATUS_CHOPON = false) ∧
    (∃ (s : State),
    s.dev.busAtMost 2752 = true ∧ s.dev.bit SP_STATUS_CHOPON = true) ∧
    (∃ (s : State),
    s.dev.busAtMost 2752 = false) ∧
    (∃ (s : State),
    s.dev.spin.brkRef = none) ∧
    (∃ (i : Nat) (v : Nat) (m : Nat) (s : State),
    s.dev.spin.brkRef = some (i, v, m) ∧ i + s.dev.rd SP_CHOP_CHOPIMIN ≤ s.dev.rd SP_BUS_CURR) ∧
    (∃ (i : Nat) (v : Nat) (m : Nat) (s : State),
    s.dev.spin.brkRef = some (i, v, m) ∧ s.dev.rd SP_BUS_CURR < i + s.dev.rd SP_CHOP_CHOPIMIN) ∧
    (∃ (i : Nat) (v : Nat) (m : Nat) (s : State),
    s.dev.spin.brkRef = some (i, v, m) ∧ m + 43 ≤ v) ∧
    (∃ (i : Nat) (v : Nat) (m : Nat) (s : State),
    s.dev.spin.brkRef = some (i, v, m) ∧ v < m + 43) ∧
    (∃ (s : State),
    s.dev.spin.st ≠ .off) ∧
    (∃ (r : Nat) (s : State),
    s.dev.spin.st = .off ∧ s.dev.bit SP_STATUS_CHOPON = false ∧ s.dev.spin.brkDead = false ∧ s.dev.aon.spun = true ∧ s.dev.rd SP_CHOP_CHOPIMIN ≤ r) ∧
    (∃ (r : Nat) (s : State),
    s.dev.spin.st = .listen ∧ s.dev.spin.byCmd = true ∧ s.dev.bit SP_STATUS_CHOPON = false ∧ s.dev.spin.brkDead = false ∧ s.dev.aon.spun = true ∧ r < s.dev.rd SP_CHOP_CHOPIMIN) ∧
    (∃ (s : State),
    s.dev.spin.byCmd = false) ∧
    (∃ (s : State),
    s.dev.busAtMost 2304 = false) ∧
    (∃ (s : State),
    s.dev.busAtMost 2304 = true ∧ s.dev.spin.st ∈ [SpState.run, .brake, .reverse] ∧ s.dev.retracting = true ∧ s.dev.rpmAtLeast s.dev.spin.omega.natAbs 600 = true) ∧
    (∃ (s : State),
    s.dev.busAtMost 2304 = true ∧ s.dev.spin.st ∈ [SpState.start, .catch_] ∧ s.dev.retracting = true) ∧
    (∃ (s : State),
    s.dev.spin.st = .holdup ∧ s.dev.busAtMost 1920 = true) ∧
    (∃ (s : State),
    s.dev.spin.st = .holdup ∧ s.dev.rpmAtLeast s.dev.spin.omega.natAbs 600 = true ∧ s.dev.busAtMost 1920 = false) ∧
    (∃ (s : State),
    s.dev.spin.pinned < 3) ∧
    (∃ (s : State),
    3 ≤ s.dev.spin.pinned ∧ s.dev.spin.st.active = true) ∧
    (∃ (s : State),
    3 ≤ s.dev.spin.busPinned) ∧
    (∃ (n : Nat) (s : State),
    48 ≤ Sparse.cnt s.dev.spin.outside n) ∧
    (∃ (s : State),
    s.dev.spin.st.active = true) ∧
    (∃ (s : State),
    s.dev.spin.st.active = false) :=
  ⟨⟨(⟨({} : Device), []⟩ : State), by decide +kernel⟩,
   ⟨(0 : Nat), (0 : Nat), (⟨(mk [fun d => { d with boot := { d.boot with phase := .released } }]), []⟩ : State), by decide +kernel⟩,
   ⟨(100 : Nat), (4095 : Nat), (314 : Nat), (⟨(mk [fun d => { d with boot := { d.boot with phase := .released } }, fun d => d.updSpin fun y => { y with st := .run, bus := [314] }]), []⟩ : State), by decide +kernel⟩,
   ⟨(⟨({} : Device), []⟩ : State), by decide +kernel⟩,
   ⟨(⟨(mk [fun d => { d.updSpin (fun y => { y with bus := [3072, 3072, 3072] }) with emretCause := some 1 }]), []⟩ : State), by decide +kernel⟩,
   ⟨(⟨(mk [fun d => d.wrB SP_STATUS_REGSTOP false, fun d => d.updSpin fun y => { y with bus := [2944, 3000, 2944] }]), []⟩ : State), by decide +kernel⟩,
   ⟨(⟨({} : Device), []⟩ : State), by decide +kernel⟩,
   ⟨(⟨(mk [fun d => d.updSpin fun y => { y with bus := [2880, 2880, 2880] }]), []⟩ : State), by decide +kernel⟩,
   ⟨(⟨({} : Device), []⟩ : State), by decide +kernel⟩,
   ⟨(⟨({} : Device), []⟩ : State), by decide +kernel⟩,
   ⟨(⟨(mk [fun d => d.wrB SP_STATUS_CHOPON false, fun d => { d.updSpin (fun y => { y with bus := [2816, 2816, 2816] }) with aon := { d.aon with spun := true } }]), []⟩ : State), by decide +kernel⟩,
   ⟨(⟨(mk [fun d => d.wrB SP_STATUS_CHOPON true, fun d => d.updSpin fun y => { y with bus := [2752, 2752, 2752] }]), []⟩ : State), by decide +kernel⟩,
   ⟨(⟨({} : Device), []⟩ : State), by decide +kernel⟩,
   ⟨(⟨(mk [fun d => { d with spin := { d.spin with brkRef := none } }]), []⟩ : State), by decide +kernel⟩,
   ⟨(0 : Nat), (0 : Nat), (0 : Nat), (⟨(mk [fun d => { d with spin := { d.spin with brkRef := some ((0 : Nat), (0 : Nat), (0 : Nat)) } }, fun d => d.wr SP_BUS_CURR ((0 : Nat) + d.rd SP_CHOP_CHOPIMIN)]), []⟩ : State), by decide +kernel⟩,
   ⟨(0 : Nat), (0 : Nat), (0 : Nat), (⟨(mk [fun d => { d with spin := { d.spin with brkRef := some ((0 : Nat), (0 : Nat), (0 : Nat)) } }]), []⟩ : State), by decide +kernel⟩,
   ⟨(0 : Nat), (48 : Nat), (5 : Nat), (⟨(mk [fun d => { d with spin := { d.spin with brkRef := some ((0 : Nat), (48 : Nat), (5 : Nat)) } }]), []⟩ : State), by decide +kernel⟩,
   ⟨(0 : Nat), (0 : Nat), (0 : Nat), (⟨(mk [fun d => { d with spin := { d.spin with brkRef := some ((0 : Nat), (0 : Nat), (0 : Nat)) } }]), []⟩ : State), by decide +kernel⟩,
   ⟨(⟨(mk [fun d => d.updSpin fun y => { y with st := .run }]), []⟩ : State), by decide +kernel⟩,
   ⟨(0 : Nat), (⟨(mk [fun d => { d with spin := { d.spin with st := .off } }, fun d => d.wrB SP_STATUS_CHOPON false, fun d => { d with spin := { d.spin with brkDead := false } }, fun d => { d with aon := { d.aon with spun := true } }, fun d => d.wr SP_CHOP_CHOPIMIN ((0 : Nat))]), []⟩ : State), by decide +kernel⟩,
   ⟨(0 : Nat), (⟨(mk [fun d => { d with spin := { d.spin with st := .listen } }, fun d => { d with spin := { d.spin with byCmd := true } }, fun d => d.wrB SP_STATUS_CHOPON false, fun d => { d with spin := { d.spin with brkDead := false } }, fun d => { d with aon := { d.aon with spun := true } }, fun d => d.wr SP_CHOP_CHOPIMIN ((0 : Nat) + 1)]), []⟩ : State), by decide +kernel⟩,
   ⟨(⟨(mk [fun d => { d with spin := { d.spin with byCmd := false } }]), []⟩ : State), by decide +kernel⟩,
   ⟨(⟨({} : Device), []⟩ : State), by decide +kernel⟩,
   ⟨(⟨(mk [fun d => { d with spin := { d.spin with st := .run } }, fun d => { d.updSpin (fun y => { y with bus := [2304, 2304, 2304], omega := 2 ^ 40 }) with emretCause := some 1 }]), []⟩ : State), by decide +kernel⟩,
   ⟨(⟨(mk [fun d => { d with spin := { d.spin with st := .start } }, fun d => { d.updSpin (fun y => { y with bus := [2304, 2304, 2304] }) with emretCause := some 1 }]), []⟩ : State), by decide +kernel⟩,
   ⟨(⟨(mk [fun d => { d with spin := { d.spin with st := .holdup } }, fun d => d.updSpin fun y => { y with bus := [1920, 1920, 1920] }]), []⟩ : State), by decide +kernel⟩,
   ⟨(⟨(mk [fun d => { d with spin := { d.spin with st := .holdup } }, fun d => d.updSpin fun y => { y with omega := 2 ^ 40 }]), []⟩ : State), by decide +kernel⟩,
   ⟨(⟨({} : Device), []⟩ : State), by decide +kernel⟩,
   ⟨(⟨(mk [fun d => { d with spin := { d.spin with pinned := 3 } }, fun d => d.updSpin fun y => { y with st := .run }]), []⟩ : State), by decide +kernel⟩,
   ⟨(⟨(mk [fun d => { d with spin := { d.spin with busPinned := 3 } }]), []⟩ : State), by decide +kernel⟩,
   ⟨(2 : Nat), (⟨(mk [fun d => d.updSpin fun y => { y with outside := [(2, 48)] }]), []⟩ : State), by decide +kernel⟩,
   ⟨(⟨(mk [fun d => d.updSpin fun y => { y with st := .run }]), []⟩ : State), by decide +kernel⟩,
   ⟨(⟨({} : Device), []⟩ : State), by decide +kernel⟩⟩

theorem witness_SpindlePeriodsAndPlausibility :
    (∃ (s : State),
    s.dev.up = false) ∧
    (∃ (s : State),
    s.dev.driving = false) ∧
    (∃ (ds : List Int) (k : Int) (s : State),
    s.dev.up = true ∧ s.dev.driving = true ∧ s.dev.spin.shadow = some ds ∧ s.dev.spin.omega * 8531968 = k * 10 ^ 8) ∧
    (∃ (s : State),
    s.dev.up = false) ∧
    (∃ (u : Nat) (v : Nat) (w : Nat) (s : State),
    s.dev.up = true ∧ s.dev.spin.st = .off ∧ u < 4096 ∧ v < 4096 ∧ w < 4096) ∧
    (∃ (s : State),
    s.dev.up = true ∧ s.dev.spin.st = .run ∧ s.dev.spin.be.run = none ∧ s.dev.spin.be.due = false ∧ s.dev.bit (BE_CTRL_RUN .spindle) = true) ∧
    (∃ (s : State),
    s.dev.spin.syncFail = none) ∧
    (∃ (c : Nat) (s : State),
    s.dev.spin.syncFail = some c ∧ s.dev.spin.st = .run ∧ s.dev.rd SP_STATUS_RECATCH < 2 ∧ s.dev.bit SP_CTRL_AUTOCATCH = true) ∧
    (∃ (c : Nat) (s : State),
    s.dev.spin.syncFail = some c ∧ s.dev.spin.st = .run ∧ s.dev.rd SP_STATUS_RECATCH = 2) ∧
    (∃ (s : State),
    s.dev.spin.badK < 48) ∧
    (∃ (s : State),
    48 ≤ s.dev.spin.badK ∧ s.dev.spin.st = .brake) :=
  ⟨⟨(⟨({} : Device), []⟩ : State), by decide +kernel⟩,
   ⟨(⟨({} : Device), []⟩ : State), by decide +kernel⟩,
   ⟨([] : List Int), (0 : Int), (⟨(mk [fun d => { d with boot := { d.boot with phase := .released } }, fun d => { d with spin := { d.spin with shadow := some ([] : List Int) } }, fun d => d.updSpin fun y => { y with st := .run }]), []⟩ : State), by decide +kernel⟩,
   ⟨(⟨({} : Device), []⟩ : State), by decide +kernel⟩,
   ⟨(0 : Nat), (0 : Nat), (0 : Nat), (⟨(mk [fun d => { d with boot := { d.boot with phase := .released } }, fun d => { d with spin := { d.spin with st := .off } }]), []⟩ : State), by decide +kernel⟩,
   ⟨(⟨(mk [fun d => { d with boot := { d.boot with phase := .released } }, fun d => { d with spin := { d.spin with st := .run } }, fun d => { d with spin := { d.spin with be := { d.spin.be with run := none } } }, fun d => { d with spin := { d.spin with be := { d.spin.be with due := false } } }, fun d => d.wrB (BE_CTRL_RUN .spindle) true]), []⟩ : State), by decide +kernel⟩,
   ⟨(⟨(mk [fun d => { d with spin := { d.spin with syncFail := none } }]), []⟩ : State), by decide +kernel⟩,
   ⟨(0 : Nat), (⟨(mk [fun d => { d with spin := { d.spin with syncFail := some (0 : Nat) } }, fun d => { d with spin := { d.spin with st := .run } }, fun d => d.wrB SP_CTRL_AUTOCATCH true]), []⟩ : State), by decide +kernel⟩,
   ⟨(0 : Nat), (⟨(mk [fun d => { d with spin := { d.spin with syncFail := some (0 : Nat) } }, fun d => { d with spin := { d.spin with st := .run } }, fun d => d.wr SP_STATUS_RECATCH (2)]), []⟩ : State), by decide +kernel⟩,
   ⟨(⟨({} : Device), []⟩ : State), by decide +kernel⟩,
   ⟨(⟨(mk [fun d => { d with spin := { d.spin with badK := 48 } }, fun d => { d with spin := { d.spin with st := .brake } }]), []⟩ : State), by decide +kernel⟩⟩

theorem witness_MicrowordsComputeTheirResults :
    (∃ (q : SeqId) (w : Word) (o : EcOp) (s : State),
    ((∀ v ∈ o.g, v < 2 ^ 32)) ∧ ((∀ v ∈ o.desc, v < 2 ^ 32)) ∧ s.dev.ecAt q o w 0x00) ∧
    (∃ (q : SeqId) (w : Word) (o : EcOp) (s : State),
    ((∀ v ∈ o.g, v < 2 ^ 32)) ∧ ((∀ v ∈ o.desc, v < 2 ^ 32)) ∧ s.dev.ecAt q o w 0x01) ∧
    (∃ (q : SeqId) (w : Word) (o : EcOp) (s : State),
    ((∀ v ∈ o.g, v < 2 ^ 32)) ∧ ((∀ v ∈ o.desc, v < 2 ^ 32)) ∧ s.dev.ecAt q o w 0x02 ∧ bitsOf w.toNat 12 3 = 0) ∧
    (∃ (q : SeqId) (w : Word) (o : EcOp) (s : State),
    ((∀ v ∈ o.g, v < 2 ^ 32)) ∧ ((∀ v ∈ o.desc, v < 2 ^ 32)) ∧ s.dev.ecAt q o w 0x02) ∧
    (∃ (q : SeqId) (w : Word) (o : EcOp) (s : State),
    ((∀ v ∈ o.g, v < 2 ^ 32)) ∧ ((∀ v ∈ o.desc, v < 2 ^ 32)) ∧ s.dev.ecAt q o w 0x02) ∧
    (∃ (q : SeqId) (w : Word) (o : EcOp) (s : State),
    ((∀ v ∈ o.g, v < 2 ^ 32)) ∧ ((∀ v ∈ o.desc, v < 2 ^ 32)) ∧ s.dev.ecAt q o w 0x02) ∧
    (∃ (q : SeqId) (w : Word) (o : EcOp) (s : State),
    ((∀ v ∈ o.g, v < 2 ^ 32)) ∧ ((∀ v ∈ o.desc, v < 2 ^ 32)) ∧ s.dev.ecAt q o w 0x02) ∧
    (∃ (q : SeqId) (w : Word) (o : EcOp) (s : State),
    ((∀ v ∈ o.g, v < 2 ^ 32)) ∧ ((∀ v ∈ o.desc, v < 2 ^ 32)) ∧ s.dev.ecAt q o w 0x02) ∧
    (∃ (q : SeqId) (w : Word) (o : EcOp) (s : State),
    ((∀ v ∈ o.g, v < 2 ^ 32)) ∧ ((∀ v ∈ o.desc, v < 2 ^ 32)) ∧ s.dev.ecAt q o w 0x02) ∧
    (∃ (q : SeqId) (w : Word) (o : EcOp) (s : State),
    ((∀ v ∈ o.g, v < 2 ^ 32)) ∧ ((∀ v ∈ o.desc, v < 2 ^ 32)) ∧ s.dev.ecAt q o w 0x02) ∧
    (∃ (q : SeqId) (w : Word) (o : EcOp) (s : State),
    ((∀ v ∈ o.g, v < 2 ^ 32)) ∧ ((∀ v ∈ o.desc, v < 2 ^ 32)) ∧ s.dev.ecAt q o w 0x03) ∧
    (∃ (q : SeqId) (w : Word) (o : EcOp) (s : State),
    ((∀ v ∈ o.g, v < 2 ^ 32)) ∧ ((∀ v ∈ o.desc, v < 2 ^ 32)) ∧ s.dev.ecAt q o w 0x04 ∧ bitsOf w.toNat 0 8 < 16) ∧
    (∃ (q : SeqId) (w : Word) (o : EcOp) (s : State),
    ((∀ v ∈ o.g, v < 2 ^ 32)) ∧ ((∀ v ∈ o.desc, v < 2 ^ 32)) ∧ s.dev.ecAt q o w 0x04 ∧ bitsOf w.toNat 0 8 = 0x10 ∧ o.k < 2 ^ 32) ∧
    (∃ (q : SeqId) (w : Word) (o : EcOp) (s : State),
    ((∀ v ∈ o.g, v < 2 ^ 32)) ∧ ((∀ v ∈ o.desc, v < 2 ^ 32)) ∧ s.dev.ecAt q o w 0x04 ∧ bitsOf w.toNat 0 8 = 0x11) :=
  ⟨⟨(⟨.ln0, false⟩ : SeqId), (0 : Word), (opF : EcOp), (⟨(mk [fun d => d.updEc (⟨.ln0, false⟩ : SeqId) fun y => { y with op := some (opF : EcOp) }]), []⟩ : State), by unfold Device.ecAt; decide +kernel⟩,
   ⟨(⟨.ln0, false⟩ : SeqId), (260112383 : Word), (opF : EcOp), (⟨(mk [fun d => d.updEc (⟨.ln0, false⟩ : SeqId) fun y => { y with op := some (opF : EcOp) }]), []⟩ : State), by unfold Device.ecAt; decide +kernel⟩,
   ⟨(⟨.ln0, false⟩ : SeqId), (293634048 : Word), ({ opF with g := [0xFFFFFFFF, 1, 0x80000000, 4, 5, 6, 7, 8, 9, 10, 11, 12, 13, 14, 15, 16] } : EcOp), (⟨(mk [fun d => d.updEc (⟨.ln0, false⟩ : SeqId) fun y => { y with op := some ({ opF with g := [0xFFFFFFFF, 1, 0x80000000, 4, 5, 6, 7, 8, 9, 10, 11, 12, 13, 14, 15, 16] } : EcOp) }]), []⟩ : State), by unfold Device.ecAt; decide +kernel⟩,
   ⟨(⟨.ln0, false⟩ : SeqId), (294653952 : Word), ({ opF with g := [0xFFFFFFFF, 1, 0x80000000, 4, 5, 6, 7, 8, 9, 10, 11, 12, 13, 14, 15, 16] } : EcOp), (⟨(mk [fun d => d.updEc (⟨.ln0, false⟩ : SeqId) fun y => { y with op := some ({ opF with g := [0xFFFFFFFF, 1, 0x80000000, 4, 5, 6, 7, 8, 9, 10, 11, 12, 13, 14, 15, 16] } : EcOp) }]), []⟩ : State), by unfold Device.ecAt; decide +kernel⟩,
   ⟨(⟨.ln0, false⟩ : SeqId), (294658048 : Word), ({ opF with g := [0xFFFFFFFF, 1, 0x80000000, 4, 5, 6, 7, 8, 9, 10, 11, 12, 13, 14, 15, 16] } : EcOp), (⟨(mk [fun d => d.updEc (⟨.ln0, false⟩ : SeqId) fun y => { y with op := some ({ opF with g := [0xFFFFFFFF, 1, 0x80000000, 4, 5, 6, 7, 8, 9, 10, 11, 12, 13, 14, 15, 16] } : EcOp) }]), []⟩ : State), by unfold Device.ecAt; decide +kernel⟩,
   ⟨(⟨.ln0, false⟩ : SeqId), (294662144 : Word), ({ opF with g := [0xFFFFFFFF, 1, 0x80000000, 4, 5, 6, 7, 8, 9, 10, 11, 12, 13, 14, 15, 16] } : EcOp), (⟨(mk [fun d => d.updEc (⟨.ln0, false⟩ : SeqId) fun y => { y with op := some ({ opF with g := [0xFFFFFFFF, 1, 0x80000000, 4, 5, 6, 7, 8, 9, 10, 11, 12, 13, 14, 15, 16] } : EcOp) }]), []⟩ : State), by unfold Device.ecAt; decide +kernel⟩,
   ⟨(⟨.ln0, false⟩ : SeqId), (294666240 : Word), ({ opF with g := [0xFFFFFFFF, 1, 0x80000000, 4, 5, 6, 7, 8, 9, 10, 11, 12, 13, 14, 15, 16] } : EcOp), (⟨(mk [fun d => d.updEc (⟨.ln0, false⟩ : SeqId) fun y => { y with op := some ({ opF with g := [0xFFFFFFFF, 1, 0x80000000, 4, 5, 6, 7, 8, 9, 10, 11, 12, 13, 14, 15, 16] } : EcOp) }]), []⟩ : State), by unfold Device.ecAt; decide +kernel⟩,
   ⟨(⟨.ln0, false⟩ : SeqId), (294670336 : Word), ({ opF with g := [0xFFFFFFFF, 1, 0x80000000, 4, 5, 6, 7, 8, 9, 10, 11, 12, 13, 14, 15, 16] } : EcOp), (⟨(mk [fun d => d.updEc (⟨.ln0, false⟩ : SeqId) fun y => { y with op := some ({ opF with g := [0xFFFFFFFF, 1, 0x80000000, 4, 5, 6, 7, 8, 9, 10, 11, 12, 13, 14, 15, 16] } : EcOp) }]), []⟩ : State), by unfold Device.ecAt; decide +kernel⟩,
   ⟨(⟨.ln0, false⟩ : SeqId), (294674432 : Word), ({ opF with g := [0xFFFFFFFF, 1, 0x80000000, 4, 5, 6, 7, 8, 9, 10, 11, 12, 13, 14, 15, 16] } : EcOp), (⟨(mk [fun d => d.updEc (⟨.ln0, false⟩ : SeqId) fun y => { y with op := some ({ opF with g := [0xFFFFFFFF, 1, 0x80000000, 4, 5, 6, 7, 8, 9, 10, 11, 12, 13, 14, 15, 16] } : EcOp) }]), []⟩ : State), by unfold Device.ecAt; decide +kernel⟩,
   ⟨(⟨.ln0, false⟩ : SeqId), (294678528 : Word), ({ opF with g := [0xFFFFFFFF, 1, 0x80000000, 4, 5, 6, 7, 8, 9, 10, 11, 12, 13, 14, 15, 16] } : EcOp), (⟨(mk [fun d => d.updEc (⟨.ln0, false⟩ : SeqId) fun y => { y with op := some ({ opF with g := [0xFFFFFFFF, 1, 0x80000000, 4, 5, 6, 7, 8, 9, 10, 11, 12, 13, 14, 15, 16] } : EcOp) }]), []⟩ : State), by unfold Device.ecAt; decide +kernel⟩,
   ⟨(⟨.ln0, false⟩ : SeqId), (529010686 : Word), ({ opF with g := [0xFFFFFFFF, 1, 0x80000000, 4, 5, 6, 7, 8, 9, 10, 11, 12, 13, 14, 15, 16] } : EcOp), (⟨(mk [fun d => d.updEc (⟨.ln0, false⟩ : SeqId) fun y => { y with op := some ({ opF with g := [0xFFFFFFFF, 1, 0x80000000, 4, 5, 6, 7, 8, 9, 10, 11, 12, 13, 14, 15, 16] } : EcOp) }]), []⟩ : State), by unfold Device.ecAt; decide +kernel⟩,
   ⟨(⟨.ln0, false⟩ : SeqId), (562036751 : Word), ({ opF with desc := [1, 2, 3, 4, 5, 6, 7, 8, 9, 10, 11, 12, 13, 14, 15, 0xFFFFFFFF] } : EcOp), (⟨(mk [fun d => d.updEc (⟨.ln0, false⟩ : SeqId) fun y => { y with op := some ({ opF with desc := [1, 2, 3, 4, 5, 6, 7, 8, 9, 10, 11, 12, 13, 14, 15, 0xFFFFFFFF] } : EcOp) }]), []⟩ : State), by unfold Device.ecAt; decide +kernel⟩,
   ⟨(⟨.ln0, false⟩ : SeqId), (562036752 : Word), ({ opF with k := 2 ^ 32 - 1 } : EcOp), (⟨(mk [fun d => d.updEc (⟨.ln0, false⟩ : SeqId) fun y => { y with op := some ({ opF with k := 2 ^ 32 - 1 } : EcOp) }]), []⟩ : State), by unfold Device.ecAt; decide +kernel⟩,
   ⟨(⟨.ln0, false⟩ : SeqId), (562036753 : Word), ({ opF with k := 2, desc := [0, 0xFFFF0000] } : EcOp), (⟨(mk [fun d => d.updEc (⟨.ln0, false⟩ : SeqId) fun y => { y with op := some ({ opF with k := 2, desc := [0, 0xFFFF0000] } : EcOp) }]), []⟩ : State), by unfold Device.ecAt; decide +kernel⟩⟩

theorem witness_MicrowordsChooseTheNextAddress :
    (∃ (q : SeqId) (w : Word) (o : EcOp) (s : State),
    s.dev.ecAt q o w 0x07) ∧
    (∃ (q : SeqId) (w : Word) (o : EcOp) (s : State),
    s.dev.ecAt q o w 0x08 ∧ bitsOf w.toNat 22 5 = 29) ∧
    (∃ (q : SeqId) (w : Word) (o : EcOp) (s : State),
    s.dev.ecAt q o w 0x08 ∧ bitsOf w.toNat 22 5 = 24) ∧
    (∃ (q : SeqId) (w : Word) (o : EcOp) (s : State),
    s.dev.ecAt q o w 0x08 ∧ bitsOf w.toNat 22 5 = 0) ∧
    (∃ (q : SeqId) (w : Word) (o : EcOp) (s : State),
    s.dev.ecAt q o w 0x08 ∧ bitsOf w.toNat 22 5 = 12) ∧
    (∃ (q : SeqId) (w : Word) (o : EcOp) (s : State),
    s.dev.ecAt q o w 0x09 ∧ bitsOf w.toNat 24 3 = 6) ∧
    (∃ (q : SeqId) (w : Word) (o : EcOp) (s : State),
    s.dev.ecAt q o w 0x0A ∧ o.stack.length < 4) ∧
    (∃ (q : SeqId) (w : Word) (o : EcOp) (s : State),
    s.dev.ecAt q o w 0x0A ∧ o.stack.length = 4 ∧ (s.dev.wrp q.lane).gate = none ∧ o.retryFlag = false ∧ (s.dev.wrp q.lane).stepsAsked = false) ∧
    (∃ (q : SeqId) (w : Word) (o : EcOp) (s : State),
    s.dev.ecAt q o w 0x0B ∧ o.stack = [0x7FFF]) ∧
    (∃ (q : SeqId) (w : Word) (o : EcOp) (s : State),
    s.dev.ecAt q o w 0x0B ∧ o.stack = [] ∧ (s.dev.wrp q.lane).gate = none ∧ o.retryFlag = false ∧ (s.dev.wrp q.lane).stepsAsked = false) :=
  ⟨⟨(⟨.ln0, false⟩ : SeqId), (939556863 : Word), (opF : EcOp), (⟨(mk [fun d => d.updEc (⟨.ln0, false⟩ : SeqId) fun y => { y with op := some (opF : EcOp) }]), []⟩ : State), by unfold Device.ecAt; decide +kernel⟩,
   ⟨(⟨.ln0, false⟩ : SeqId), (1197473877 : Word), (opF : EcOp), (⟨(mk [fun d => d.updEc (⟨.ln0, false⟩ : SeqId) fun y => { y with op := some (opF : EcOp) }]), []⟩ : State), by unfold Device.ecAt; decide +kernel⟩,
   ⟨(⟨.ln0, false⟩ : SeqId), (1176502357 : Word), ({ opF with z := true } : EcOp), (⟨(mk [fun d => d.updEc (⟨.ln0, false⟩ : SeqId) fun y => { y with op := some ({ opF with z := true } : EcOp) }]), []⟩ : State), by unfold Device.ecAt; decide +kernel⟩,
   ⟨(⟨.ln0, false⟩ : SeqId), (1073741909 : Word), (opF : EcOp), (⟨(mk [fun d => d.updEc (⟨.ln0, false⟩ : SeqId) fun y => { y with op := some (opF : EcOp) }]), []⟩ : State), by unfold Device.ecAt; decide +kernel⟩,
   ⟨(⟨.ln0, false⟩ : SeqId), (1126170709 : Word), (opF : EcOp), (⟨(mk [fun d => d.updEc (⟨.ln0, false⟩ : SeqId) fun y => { y with op := some (opF : EcOp) }]), []⟩ : State), by unfold Device.ecAt; decide +kernel⟩,
   ⟨(⟨.ln0, false⟩ : SeqId), (1324351744 : Word), ({ opF with z := true, c := true } : EcOp), (⟨(mk [fun d => d.updEc (⟨.ln0, false⟩ : SeqId) fun y => { y with op := some ({ opF with z := true, c := true } : EcOp) }]), []⟩ : State), by unfold Device.ecAt; decide +kernel⟩,
   ⟨(⟨.ln0, false⟩ : SeqId), (1342177571 : Word), ({ opF with stack := [1, 2, 3] } : EcOp), (⟨(mk [fun d => d.updEc (⟨.ln0, false⟩ : SeqId) fun y => { y with op := some ({ opF with stack := [1, 2, 3] } : EcOp) }]), []⟩ : State), by unfold Device.ecAt; decide +kernel⟩,
   ⟨(⟨.ln0, false⟩ : SeqId), (1342177571 : Word), ({ opF with stack := [1, 2, 3, 4] } : EcOp), (⟨(mk [fun d => d.updWr (⟨.ln0, false⟩ : SeqId).lane fun z_ => { z_ with gate := none }, fun d => d.updWr (⟨.ln0, false⟩ : SeqId).lane fun z_ => { z_ with stepsAsked := false }, fun d => d.updEc (⟨.ln0, false⟩ : SeqId) fun y => { y with op := some ({ opF with stack := [1, 2, 3, 4] } : EcOp) }]), []⟩ : State), by unfold Device.ecAt; decide +kernel⟩,
   ⟨(⟨.ln0, false⟩ : SeqId), (1476395008 : Word), ({ opF with stack := [0x7FFF] } : EcOp), (⟨(mk [fun d => d.updEc (⟨.ln0, false⟩ : SeqId) fun y => { y with op := some ({ opF with stack := [0x7FFF] } : EcOp) }]), []⟩ : State), by unfold Device.ecAt; decide +kernel⟩,
   ⟨(⟨.ln0, false⟩ : SeqId), (1476395008 : Word), (opF : EcOp), (⟨(mk [fun d => d.updWr (⟨.ln0, false⟩ : SeqId).lane fun z_ => { z_ with gate := none }, fun d => d.updWr (⟨.ln0, false⟩ : SeqId).lane fun z_ => { z_ with stepsAsked := false }, fun d => d.updEc (⟨.ln0, false⟩ : SeqId) fun y => { y with op := some (opF : EcOp) }]), []⟩ : State), by unfold Device.ecAt; decide +kernel⟩⟩

theorem witness_MicrowordsActOnPortsAndSafePoints :
    (∃ (q : SeqId) (w : Word) (o : EcOp) (s : State),
    s.dev.ecAt q o w 0x05 ∧ bitsOf w.toNat 0 8 = 0x24) ∧
    (∃ (q : SeqId) (w : Word) (o : EcOp) (s : State),
    s.dev.ecAt q o w 0x06 ∧ bitsOf w.toNat 0 8 = 0x23 ∧ o.k + 1 < o.count) ∧
    (∃ (q : SeqId) (w : Word) (o : EcOp) (s : State),
    s.dev.ecAt q o w 0x06 ∧ bitsOf w.toNat 0 8 = 0x20 ∧ bitsOf w.toNat 8 16 = 0) ∧
    (∃ (q : SeqId) (w : Word) (o : EcOp) (s : State),
    s.dev.ecAt q o w 0x06 ∧ bitsOf w.toNat 0 8 = 0x23 ∧ o.count ≤ o.k + 1 ∧ (s.dev.wrp q.lane).gate = none ∧ o.retryFlag = false ∧ (s.dev.wrp q.lane).stepsAsked = false) ∧
    (∃ (q : SeqId) (w : Word) (o : EcOp) (s : State),
    s.dev.ecAt q o w 0x0C ∧ s.dev.rd (EC_STOP_CAUSES q) = 0) ∧
    (∃ (q : SeqId) (w : Word) (o : EcOp) (s : State),
    s.dev.ecAt q o w 0x0D ∧ s.dev.rd (EC_STOP_CAUSES q) = 0) ∧
    (∃ (q : SeqId) (w : Word) (o : EcOp) (s : State),
    s.dev.ecAt q o w 0x0E ∧ s.dev.rd (EC_STOP_CAUSES q) = 0 ∧ o.verify = false ∧ o.retryFlag = false ∧ (s.dev.wrp q.lane).stepsAsked = false) ∧
    (∃ (q : SeqId) (o : EcOp) (x : CondObs) (s : State),
    (s.dev.ec q).op = some o ∧ o.wait = some ⟨29, true⟩ ∧ s.dev.cond q o x 29 = true ∧ o.pc < 0x4000 ∧ (∀ k < 8, s.dev.rd (EC_TRAP_EN q k) = 0)) ∧
    (∃ (q : SeqId) (o : EcOp) (x : CondObs) (s : State),
    (s.dev.ec q).op = some o ∧ o.wait = some ⟨29, false⟩ ∧ s.dev.cond q o x 29 ≠ false) ∧
    (∃ (q : SeqId) (o : EcOp) (s : State),
    (s.dev.ec q).op = some o ∧ o.fetching = false) ∧
    (∃ (q : SeqId) (w : Word) (o : EcOp) (s : State),
    (s.dev.ec q).op = some o ∧ o.fetching = true ∧ o.pc < 0x4000 ∧ legalWord w.toNat = false ∧ (s.dev.wrp q.lane).gate = none ∧ o.retryFlag = false ∧ (s.dev.wrp q.lane).stepsAsked = false) :=
  ⟨⟨(⟨.ln0, false⟩ : SeqId), (679477284 : Word), ({ opF with g := [0, 0xFFF] } : EcOp), (⟨(mk [fun d => d.updEc (⟨.ln0, false⟩ : SeqId) fun y => { y with op := some ({ opF with g := [0, 0xFFF] } : EcOp) }]), []⟩ : State), by unfold Device.ecAt; decide +kernel⟩,
   ⟨(⟨.ln0, false⟩ : SeqId), (805306403 : Word), ({ opF with desc := [0, 0x20000] } : EcOp), (⟨(mk [fun d => d.updEc (⟨.ln0, false⟩ : SeqId) fun y => { y with op := some ({ opF with desc := [0, 0x20000] } : EcOp) }]), []⟩ : State), by unfold Device.ecAt; decide +kernel⟩,
   ⟨(⟨.ln0, false⟩ : SeqId), (805306400 : Word), ({ opF with rArms := [1] } : EcOp), (⟨(mk [fun d => d.updEc (⟨.ln0, false⟩ : SeqId) fun y => { y with op := some ({ opF with rArms := [1] } : EcOp) }]), []⟩ : State), by unfold Device.ecAt; decide +kernel⟩,
   ⟨(⟨.ln0, false⟩ : SeqId), (805306403 : Word), ({ opF with desc := [0, 0x10000] } : EcOp), (⟨(mk [fun d => d.updWr (⟨.ln0, false⟩ : SeqId).lane fun z_ => { z_ with gate := none }, fun d => d.updWr (⟨.ln0, false⟩ : SeqId).lane fun z_ => { z_ with stepsAsked := false }, fun d => d.updEc (⟨.ln0, false⟩ : SeqId) fun y => { y with op := some ({ opF with desc := [0, 0x10000] } : EcOp) }]), []⟩ : State), by unfold Device.ecAt; decide +kernel⟩,
   ⟨(⟨.ln0, false⟩ : SeqId), (1633685503 : Word), (opF : EcOp), (⟨(mk [fun d => d.wr (EC_STOP_CAUSES (⟨.ln0, false⟩ : SeqId)) 0, fun d => d.updEc (⟨.ln0, false⟩ : SeqId) fun y => { y with op := some (opF : EcOp) }]), []⟩ : State), by unfold Device.ecAt; decide +kernel⟩,
   ⟨(⟨.ln0, false⟩ : SeqId), (1744830479 : Word), (opF : EcOp), (⟨(mk [fun d => d.wr (EC_STOP_CAUSES (⟨.ln0, false⟩ : SeqId)) 0, fun d => d.updEc (⟨.ln0, false⟩ : SeqId) fun y => { y with op := some (opF : EcOp) }]), []⟩ : State), by unfold Device.ecAt; decide +kernel⟩,
   ⟨(⟨.ln0, false⟩ : SeqId), (1879048447 : Word), (opF : EcOp), (⟨(mk [fun d => d.wr (EC_STOP_CAUSES (⟨.ln0, false⟩ : SeqId)) 0, fun d => d.updWr (⟨.ln0, false⟩ : SeqId).lane fun z_ => { z_ with stepsAsked := false }, fun d => d.updEc (⟨.ln0, false⟩ : SeqId) fun y => { y with op := some (opF : EcOp) }]), []⟩ : State), by unfold Device.ecAt; decide +kernel⟩,
   ⟨(⟨.ln0, false⟩ : SeqId), ({ op0 with wait := some ⟨29, true⟩ } : EcOp), ({} : CondObs), (⟨(mk [fun d => d.updEc (⟨.ln0, false⟩ : SeqId) fun z_ => { z_ with op := some ({ op0 with wait := some ⟨29, true⟩ } : EcOp) }, fun d => d.updEc (⟨.ln0, false⟩ : SeqId) fun y => { y with op := some ({ op0 with wait := some ⟨29, true⟩ } : EcOp) }]), []⟩ : State), by decide +kernel⟩,
   ⟨(⟨.ln0, false⟩ : SeqId), ({ op0 with wait := some ⟨29, false⟩ } : EcOp), ({} : CondObs), (⟨(mk [fun d => d.updEc (⟨.ln0, false⟩ : SeqId) fun z_ => { z_ with op := some ({ op0 with wait := some ⟨29, false⟩ } : EcOp) }, fun d => d.updEc (⟨.ln0, false⟩ : SeqId) fun y => { y with op := some ({ op0 with wait := some ⟨29, false⟩ } : EcOp) }]), []⟩ : State), by decide +kernel⟩,
   ⟨(⟨.ln0, false⟩ : SeqId), (op0 : EcOp), (⟨(mk [fun d => d.updEc (⟨.ln0, false⟩ : SeqId) fun z_ => { z_ with op := some (op0 : EcOp) }, fun d => d.updEc (⟨.ln0, false⟩ : SeqId) fun y => { y with op := some (op0 : EcOp) }]), []⟩ : State), by decide +kernel⟩,
   ⟨(⟨.ln0, false⟩ : SeqId), (0xFFFFFFFF : Word), (opF : EcOp), (⟨(mk [fun d => d.updEc (⟨.ln0, false⟩ : SeqId) fun z_ => { z_ with op := some (opF : EcOp) }, fun d => d.updWr (⟨.ln0, false⟩ : SeqId).lane fun z_ => { z_ with gate := none }, fun d => d.updWr (⟨.ln0, false⟩ : SeqId).lane fun z_ => { z_ with stepsAsked := false }, fun d => d.updEc (⟨.ln0, false⟩ : SeqId) fun y => { y with op := some (opF : EcOp) }]), []⟩ : State), by decide +kernel⟩⟩

theorem witness_OperationsRunFromPostToCompletion :
    (∃ (q : SeqId) (s : State),
    s.dev.postReason q (s.dev.staged q) = 0) ∧
    (∃ (q : SeqId) (r : Nat) (s : State),
    s.dev.postReason q (s.dev.staged q) = r ∧ r ≠ 0) ∧
    (∃ (q : SeqId) (s : State),
    s.dev.held1 q.lane = false ∧ s.dev.rd (EC_STATUS_PATCHERR q) = 0) ∧
    (∃ (q : SeqId) (s : State),
    s.dev.held1 q.lane = true) ∧
    (∃ (q : SeqId) (s : State),
    ((s.dev.ec q).queue = [] ∨ (s.dev.ec q).op ≠ none ∨ s.dev.bit (EC_CTRL_EN q) = false ∨ s.dev.bit (EC_STATUS_HALT q) = true ∨ s.dev.dispatchBarred q.lane = true)) ∧
    (∃ (q : SeqId) (c : List Nat) (cs : List (List Nat)) (t : Nat) (s : State),
    (s.dev.ec q).queue = c :: cs ∧ (s.dev.ec q).op = none ∧ s.dev.bit (EC_CTRL_EN q) = true ∧ s.dev.bit (EC_STATUS_HALT q) = false ∧ (s.dev.ec q).cpls.length < 8 ∧ s.dev.dispatchBarred q.lane = false ∧ EcOp.retryFlag { desc := c } = false ∧ (s.dev.sv q.lane).offset = 0 ∧ s.dev.dispatchWord q (EcOp.code { desc := c }) = some t ∧ t < 2 ^ 15 ∧ ((∀ k < 8, s.dev.rd (EC_TRAP_EN q k) = 0))) ∧
    (∃ (q : SeqId) (o : EcOp) (e : FrameEntry) (s : State),
    (s.dev.ec q).op = some o ∧ o.frame = none ∧ s.dev.entryReadable (s.dev.frameAddr q o.head o.zone) 32 = true ∧ frameEntryOf (s.dev.memNum 32 (s.dev.frameAddr q o.head o.zone)) o.head o.zone o.sector = some e ∧ s.dev.rd (EC_STOP_CAUSES q) = 0) ∧
    (∃ (q : SeqId) (o : EcOp) (s : State),
    (s.dev.ec q).op = some o ∧ o.frame = none ∧ o.retryFlag = false ∧ (s.dev.wrp q.lane).stepsAsked = false ∧ s.dev.entryReadable (s.dev.frameAddr q o.head o.zone) 32 = false) ∧
    (∃ (q : SeqId) (s : State),
    (s.dev.ec q).op = none) ∧
    (∃ (q : SeqId) (o : EcOp) (s : State),
    (s.dev.ec q).op = some o ∧ o.wait = none ∧ o.ending = none) ∧
    (∃ (q : SeqId) (s : State),
    s.dev.bit (EC_STATUS_PATCHBAD q) = true) ∧
    (∃ (q : SeqId) (s : State),
    s.dev.bit (EC_STATUS_PATCHBAD q) = false) ∧
    (∃ (q : SeqId) (s : State),
    (s.dev.ec q).queue = []) ∧
    (∃ (q : SeqId) (c : List Nat) (s : State),
    (s.dev.ec q).queue = [c]) ∧
    (∃ (q : SeqId) (c : List Nat) (cs : List (List Nat)) (s : State),
    (s.dev.ec q).cpls = c :: cs) ∧
    (∃ (q : SeqId) (o : EcOp) (m : Nat) (s : State),
    (s.dev.ec q).op = some o ∧ o.stopping = some m ∧ (s.dev.wrp q.lane).gate = none ∧ s.dev.seqSlots q = false ∧ o.vpend = [] ∧ o.retryFlag = false ∧ (s.dev.wrp q.lane).stepsAsked = false) ∧
    (∃ (q : SeqId) (o : EcOp) (s : State),
    (s.dev.ec q).op = some o ∧ o.stopping = none) ∧
    (∃ (q : SeqId) (o : EcOp) (s : State),
    (s.dev.ec q).op = some o ∧ o.fetching = true ∧ o.pc < 0x4000 ∧ (s.dev.wrp q.lane).gate = none ∧ o.retryFlag = false ∧ (s.dev.wrp q.lane).stepsAsked = false) ∧
    (∃ (q : SeqId) (o : EcOp) (s : State),
    (s.dev.ec q).op = some o ∧ s.dev.rd (EC_PROG_REV q) < o.revLimit) ∧
    (∃ (q : SeqId) (o : EcOp) (s : State),
    (s.dev.ec q).op = some o ∧ o.revLimit ≤ s.dev.rd (EC_PROG_REV q) ∧ s.dev.bit (EC_STOP_REVLIMIT q) = false ∧ o.stopping = none ∧ o.wait = none ∧ o.ending = none) :=
  ⟨⟨(⟨.ln0, false⟩ : SeqId), (⟨(mk [fun d => ((d.wrB MS_STATUS_SRAMRDY true).wr (EC_FRAME_BASE_ADDR (⟨.ln0, false⟩ : SeqId)) 0x100000).setNum 32 0x10000000 frEnt0, fun d => ((((d.wr (EC_DESC_D (⟨.ln0, false⟩ : SeqId) 0) 1).wr (EC_DESC_D (⟨.ln0, false⟩ : SeqId) 1) 0x00010100).wr (EC_DESC_D (⟨.ln0, false⟩ : SeqId) 5) 0x00010000).wr CB_STRUCT_HEADS0 1).wr (EC_CTRL_EN (⟨.ln0, false⟩ : SeqId)) 1, fun d => (d.wr (EC_STATUS_PVEC (⟨.ln0, false⟩ : SeqId)) 0)]), []⟩ : State), by decide +kernel⟩,
   ⟨(⟨.ln0, false⟩ : SeqId), (2 : Nat), (⟨({} : Device), []⟩ : State), by decide +kernel⟩,
   ⟨(⟨.ln0, false⟩ : SeqId), (⟨(mk [fun d => d.wr (EC_STATUS_PATCHERR (⟨.ln0, false⟩ : SeqId)) 0]), []⟩ : State), by decide +kernel⟩,
   ⟨(⟨.ln1, false⟩ : SeqId), (⟨(mk [fun d => d.wr CB_STRUCT_LANES 1]), []⟩ : State), by decide +kernel⟩,
   ⟨(⟨.ln0, false⟩ : SeqId), (⟨(mk [fun d => d.updEc (⟨.ln0, false⟩ : SeqId) fun z_ => { z_ with queue := [] }]), []⟩ : State), by decide +kernel⟩,
   ⟨(⟨.ln0, false⟩ : SeqId), ([2] : List Nat), ([[3]] : List (List Nat)), (0x400 : Nat), (⟨(mk [fun d => d.updEc (⟨.ln0, false⟩ : SeqId) fun z_ => { z_ with queue := ([2] : List Nat) :: ([[3]] : List (List Nat)) }, fun d => d.updEc (⟨.ln0, false⟩ : SeqId) fun z_ => { z_ with op := none }, fun d => d.wrB (EC_CTRL_EN (⟨.ln0, false⟩ : SeqId)) true, fun d => d.wrB (EC_STATUS_HALT (⟨.ln0, false⟩ : SeqId)) false, fun d => d.updSv (⟨.ln0, false⟩ : SeqId).lane fun z_ => { z_ with offset := 0 }]), []⟩ : State), by decide +kernel⟩,
   ⟨(⟨.ln0, false⟩ : SeqId), (op0 : EcOp), (⟨34000, 1, 0, 33000, 0, 256, 1⟩ : FrameEntry), (⟨(mk [fun d => d.updEc (⟨.ln0, false⟩ : SeqId) fun z_ => { z_ with op := some (op0 : EcOp) }, fun d => d.wr (EC_STOP_CAUSES (⟨.ln0, false⟩ : SeqId)) 0, fun d => ((d.wrB MS_STATUS_SRAMRDY true).wr (EC_FRAME_BASE_ADDR (⟨.ln0, false⟩ : SeqId)) 0x100000).setNum 32 0x10000000 frEnt0]), []⟩ : State), by decide +kernel⟩,
   ⟨(⟨.ln0, false⟩ : SeqId), ({ op0 with frame := none } : EcOp), (⟨(mk [fun d => d.updEc (⟨.ln0, false⟩ : SeqId) fun z_ => { z_ with op := some ({ op0 with frame := none } : EcOp) }, fun d => d.updWr (⟨.ln0, false⟩ : SeqId).lane fun z_ => { z_ with stepsAsked := false }]), []⟩ : State), by decide +kernel⟩,
   ⟨(⟨.ln0, false⟩ : SeqId), (⟨(mk [fun d => d.updEc (⟨.ln0, false⟩ : SeqId) fun z_ => { z_ with op := none }]), []⟩ : State), by decide +kernel⟩,
   ⟨(⟨.ln0, false⟩ : SeqId), ({ op0 with wait := none, ending := none } : EcOp), (⟨(mk [fun d => d.updEc (⟨.ln0, false⟩ : SeqId) fun z_ => { z_ with op := some ({ op0 with wait := none, ending := none } : EcOp) }]), []⟩ : State), by decide +kernel⟩,
   ⟨(⟨.ln0, false⟩ : SeqId), (⟨(mk [fun d => d.wrB (EC_STATUS_PATCHBAD (⟨.ln0, false⟩ : SeqId)) true]), []⟩ : State), by decide +kernel⟩,
   ⟨(⟨.ln0, false⟩ : SeqId), (⟨(mk [fun d => d.wrB (EC_STATUS_PATCHBAD (⟨.ln0, false⟩ : SeqId)) false]), []⟩ : State), by decide +kernel⟩,
   ⟨(⟨.ln0, false⟩ : SeqId), (⟨(mk [fun d => d.updEc (⟨.ln0, false⟩ : SeqId) fun z_ => { z_ with queue := [] }]), []⟩ : State), by decide +kernel⟩,
   ⟨(⟨.ln0, false⟩ : SeqId), ([] : List Nat), (⟨(mk [fun d => d.updEc (⟨.ln0, false⟩ : SeqId) fun z_ => { z_ with queue := [([] : List Nat)] }]), []⟩ : State), by decide +kernel⟩,
   ⟨(⟨.ln0, false⟩ : SeqId), ([] : List Nat), ([] : List (List Nat)), (⟨(mk [fun d => d.updEc (⟨.ln0, false⟩ : SeqId) fun z_ => { z_ with cpls := ([] : List Nat) :: ([] : List (List Nat)) }]), []⟩ : State), by decide +kernel⟩,
   ⟨(⟨.ln0, false⟩ : SeqId), ({ op0 with stopping := some (0 : Nat), vpend := [] } : EcOp), (0 : Nat), (⟨(mk [fun d => d.updEc (⟨.ln0, false⟩ : SeqId) fun z_ => { z_ with op := some ({ op0 with stopping := some (0 : Nat), vpend := [] } : EcOp) }, fun d => d.updWr (⟨.ln0, false⟩ : SeqId).lane fun z_ => { z_ with gate := none }, fun d => d.updWr (⟨.ln0, false⟩ : SeqId).lane fun z_ => { z_ with stepsAsked := false }]), []⟩ : State), by decide +kernel⟩,
   ⟨(⟨.ln0, false⟩ : SeqId), ({ op0 with stopping := none } : EcOp), (⟨(mk [fun d => d.updEc (⟨.ln0, false⟩ : SeqId) fun z_ => { z_ with op := some ({ op0 with stopping := none } : EcOp) }]), []⟩ : State), by decide +kernel⟩,
   ⟨(⟨.ln0, false⟩ : SeqId), (opF : EcOp), (⟨(mk [fun d => d.updEc (⟨.ln0, false⟩ : SeqId) fun z_ => { z_ with op := some (opF : EcOp) }, fun d => d.updWr (⟨.ln0, false⟩ : SeqId).lane fun z_ => { z_ with gate := none }, fun d => d.updWr (⟨.ln0, false⟩ : SeqId).lane fun z_ => { z_ with stepsAsked := false }]), []⟩ : State), by decide +kernel⟩,
   ⟨(⟨.ln0, false⟩ : SeqId), ({ op0 with desc := [0, 0, 0, 0, 0, 0x10000] } : EcOp), (⟨(mk [fun d => d.updEc (⟨.ln0, false⟩ : SeqId) fun z_ => { z_ with op := some ({ op0 with desc := [0, 0, 0, 0, 0, 0x10000] } : EcOp) }]), []⟩ : State), by decide +kernel⟩,
   ⟨(⟨.ln0, false⟩ : SeqId), ({ op0 with stopping := none, wait := none, ending := none } : EcOp), (⟨(mk [fun d => d.updEc (⟨.ln0, false⟩ : SeqId) fun z_ => { z_ with op := some ({ op0 with stopping := none, wait := none, ending := none } : EcOp) }, fun d => d.wr (EC_PROG_REV (⟨.ln0, false⟩ : SeqId)) (({ op0 with stopping := none, wait := none, ending := none } : EcOp).revLimit), fun d => d.wrB (EC_STOP_REVLIMIT (⟨.ln0, false⟩ : SeqId)) false]), []⟩ : State), by decide +kernel⟩⟩

theorem witness_CacheOperationsAreTakenOrRefused :
    (∃ (c : CacheId) (core : Nat) (s : State),
    core < c.cores ∧ s.dev.bit (c.busy core) = false) ∧
    (∃ (c : CacheId) (core : Nat) (s : State),
    core < c.cores ∧ s.dev.bit (c.busy core) = false) ∧
    (∃ (c : CacheId) (core : Nat) (s : State),
    core < c.cores ∧ s.dev.bit (c.busy core) = true) ∧
    (∃ (c : CacheId) (core : Nat),
    c.cores ≤ core) :=
  ⟨⟨(.host : CacheId), (3 : Nat), (⟨(mk [fun d => d.wrB ((.host : CacheId).busy (3 : Nat)) false, fun d => d.wrB MS_STATUS_SRAMRDY true, fun d => d.wr ((.host : CacheId).maddr (3 : Nat)) 0x400000]), []⟩ : State), by decide +kernel⟩,
   ⟨(.media .ln0 : CacheId), (1 : Nat), (⟨(mk [fun d => d.wrB ((.media .ln0 : CacheId).busy (1 : Nat)) false, fun d => d.wr ((.media .ln0 : CacheId).maddr (1 : Nat)) 0x48000]), []⟩ : State), by decide +kernel⟩,
   ⟨(.media .ln1 : CacheId), (1 : Nat), (⟨(mk [fun d => d.wrB ((.media .ln1 : CacheId).busy (1 : Nat)) true]), []⟩ : State), by decide +kernel⟩,
   ⟨(.media .ln1 : CacheId), (2 : Nat), by decide +kernel⟩⟩

theorem witness_CachesServeFillAndDisable :
    (∃ (c : CacheId) (s : State),
    (s.dev.cache c).nextOp c = none) ∧
    (∃ (c : CacheId) (o : CacheOp) (s : State),
    (s.dev.cache c).nextOp c = some o ∧ (s.dev.cache c).opWaits o = true) ∧
    (∃ (c : CacheId) (o : CacheOp) (s : State),
    (s.dev.cache c).nextOp c = some o ∧ (s.dev.cache c).opWaits o = false ∧ o.op = 9) ∧
    (∃ (c : CacheId) (o : CacheOp) (x : CacheLine) (s : State),
    (s.dev.cache c).nextOp c = some o ∧ (s.dev.cache c).opWaits o = false ∧ o.op = 2 ∧ (s.dev.cache c).lookup (lineOf o.addr) = some x) ∧
    (∃ (c : CacheId) (o : CacheOp) (x : CacheLine) (s : State),
    (s.dev.cache c).nextOp c = some o ∧ (s.dev.cache c).opWaits o = false ∧ o.op = 1 ∧ (s.dev.cache c).lookup (lineOf o.addr) = some x ∧ x.dirty = true) ∧
    (∃ (c : CacheId) (v : Word) (s : State),
    getField v 0 1 = 0 ∧ (s.dev.cache c).lines = []) ∧
    (∃ (c : CacheId) (v : Word) (s : State),
    getField v 0 1 = 0 ∧ (s.dev.cache c).lines ≠ []) ∧
    (∃ (c : CacheId) (v : Word) (s : State),
    getField v 0 1 = 1 ∧ s.dev.bit c.en = false ∧ s.dev.bit c.validctx = true) ∧
    (∃ (c : CacheId) (v : Word) (s : State),
    getField v 0 1 = 1 ∧ s.dev.bit c.validctx = false) ∧
    (∃ (c : CacheId) (s : State),
    (s.dev.cache c).fills = []) ∧
    (∃ (c : CacheId) (a : Nat) (w : Nat) (s : State),
    (s.dev.cache c).fills = [{ addr := lineOf a, waiters := [] }] ∧ w < c.ways ∧ s.dev.wayOff c w = false ∧ (s.dev.cache c).disabling = [] ∧ (s.dev.cache c).lookup (lineOf a) = none ∧ (s.dev.cache c).at (c.setOf (lineOf a)) w = none) ∧
    (∃ (c : CacheId) (w : Nat) (s : State),
    s.dev.wayOff c w = true) ∧
    (∃ (c : CacheId) (w : Nat) (s : State),
    s.dev.wayOff c w = false ∧ (s.dev.cache c).disabling = [] ∧ ((∀ x ∈ (s.dev.cache c).lines, x.tagBad = false)) ∧ 8 ≤ Sparse.cnt (s.dev.cache c).wayErrs w) ∧
    (∃ (c : CacheId) (s : State),
    (s.dev.cache c).disabling = []) ∧
    (∃ (c : CacheId) (w : Nat) (s : State),
    (s.dev.cache c).disabling = [(w, false)] ∧ w < c.ways ∧ ((∀ x ∈ (s.dev.cache c).lines, x.way ≠ w))) :=
  ⟨⟨(.host : CacheId), (⟨({} : Device), []⟩ : State), by decide +kernel⟩,
   ⟨(.host : CacheId), ({ cop0 with op := 2, addr := 0x10000000 } : CacheOp), (⟨(mk [fun d => d.updCache (.host : CacheId) fun y => { y with ops := [({ cop0 with op := 2, addr := 0x10000000 } : CacheOp)], fills := [{ addr := 0x10000000, waiters := [] }] }]), []⟩ : State), by decide +kernel⟩,
   ⟨(.media .ln0 : CacheId), ({ cop0 with op := 9, core := 1 } : CacheOp), (⟨(mk [fun d => d.updCache (.media .ln0 : CacheId) fun y => { y with ops := [({ cop0 with op := 9, core := 1 } : CacheOp)] }]), []⟩ : State), by decide +kernel⟩,
   ⟨(.host : CacheId), ({ cop0 with op := 2, addr := 0x10000000 } : CacheOp), ({ line0 with addr := 0x10000000 } : CacheLine), (⟨(mk [fun d => d.updCache (.host : CacheId) fun y => { y with ops := [({ cop0 with op := 2, addr := 0x10000000 } : CacheOp)], lines := [({ line0 with addr := 0x10000000 } : CacheLine)] }]), []⟩ : State), by decide +kernel⟩,
   ⟨(.host : CacheId), ({ cop0 with op := 1, addr := 0x10000000 } : CacheOp), ({ line0 with addr := 0x10000000, dirty := true, words := [1, 2, 3, 4, 5, 6, 7, 8], bad := [0, 0, 0, 0, 0, 0, 0, 0] } : CacheLine), (⟨(mk [fun d => d.updCache (.host : CacheId) fun y => { y with ops := [({ cop0 with op := 1, addr := 0x10000000 } : CacheOp)], lines := [({ line0 with addr := 0x10000000, dirty := true, words := [1, 2, 3, 4, 5, 6, 7, 8], bad := [0, 0, 0, 0, 0, 0, 0, 0] } : CacheLine)] }]), []⟩ : State), by decide +kernel⟩,
   ⟨(.host : CacheId), (0 : Word), (⟨(mk [fun d => d.updCache (.host : CacheId) fun z_ => { z_ with lines := [] }]), []⟩ : State), by decide +kernel⟩,
   ⟨(.host : CacheId), (0 : Word), (⟨(mk [fun d => d.updCache (.host : CacheId) fun y => { y with lines := [line0] }]), []⟩ : State), by decide +kernel⟩,
   ⟨(.host : CacheId), (1 : Word), (⟨(mk [fun d => d.wrB (.host : CacheId).validctx true]), []⟩ : State), by decide +kernel⟩,
   ⟨(.host : CacheId), (1 : Word), (⟨({} : Device), []⟩ : State), by decide +kernel⟩,
   ⟨(.host : CacheId), (⟨(mk [fun d => d.updCache (.host : CacheId) fun z_ => { z_ with fills := [] }]), []⟩ : State), by decide +kernel⟩,
   ⟨(.host : CacheId), (0 : Nat), (0 : Nat), (⟨(mk [fun d => d.updCache (.host : CacheId) fun z_ => { z_ with fills := [{ addr := lineOf (0 : Nat), waiters := [] }] }, fun d => d.updCache (.host : CacheId) fun z_ => { z_ with disabling := [] }]), []⟩ : State), by decide +kernel⟩,
   ⟨(.host : CacheId), (3 : Nat), (⟨(mk [fun d => d.wr (.host : CacheId).waydis 8]), []⟩ : State), by decide +kernel⟩,
   ⟨(.host : CacheId), (3 : Nat), (⟨(mk [fun d => d.updCache (.host : CacheId) fun z_ => { z_ with disabling := [] }, fun d => d.updCache (.host : CacheId) fun y => { y with wayErrs := [(3, 8)] }]), []⟩ : State), by decide +kernel⟩,
   ⟨(.host : CacheId), (⟨(mk [fun d => d.updCache (.host : CacheId) fun z_ => { z_ with disabling := [] }]), []⟩ : State), by decide +kernel⟩,
   ⟨(.host : CacheId), (0 : Nat), (⟨(mk [fun d => d.updCache (.host : CacheId) fun z_ => { z_ with disabling := [((0 : Nat), false)] }]), []⟩ : State), by decide +kernel⟩⟩

theorem witness_CipherEntriesAreQueuedServedAndCompleted :
    (∃ (c : CipherSource) (s : State),
    64 ≤ (s.dev.cipher.queue c.idx).length) ∧
    (∃ (l : Lane) (s : State),
    (s.dev.cipher.queue l.idx).length < 64 ∧ s.dev.bit CX_CTRL_EN = false) ∧
    (∃ (ws : List Nat) (s : State),
    s.dev.cipher.q2.length < 64 ∧ s.dev.bit CX_CTRL_EN = true ∧ s.dev.bit CX_STATUS_SELFPASS = true ∧ s.dev.entryOk .host (CipherEntry.ofNum (s.dev.stagedEntry .host ws)) (s.dev.stagedEntry .host ws) = false) ∧
    (∃ (ws : List Nat) (n : Nat) (s : State),
    s.dev.cipher.q2.length < 64 ∧ s.dev.bit CX_CTRL_EN = true ∧ s.dev.bit CX_STATUS_SELFPASS = true ∧ s.dev.entryOk .host (CipherEntry.ofNum (s.dev.stagedEntry .host ws)) (s.dev.stagedEntry .host ws) = true ∧ s.dev.bindCheck (CipherEntry.ofNum (s.dev.stagedEntry .host ws)) = .ok n) ∧
    (∃ (m : CipherMsg) (s : State),
    s.dev.cipher.service = some m ∧ m.entry.urgent = true) ∧
    (∃ (i : Nat) (c : CipherEntry) (s : State),
    s.dev.cipher.service = none ∧ s.dev.cipherPick true = some (i, c)) ∧
    (∃ (i : Nat) (c : CipherEntry) (m : CipherMsg) (s : State),
    s.dev.cipher.service = some m ∧ m.entry.urgent = false ∧ s.dev.cipher.suspended = none ∧ s.dev.cipherPick true = some (i, c)) ∧
    (∃ (m : CipherMsg) (s : State),
    s.dev.cipher.service = none ∧ s.dev.cipher.suspended = some m ∧ s.dev.cipherPick true = none) ∧
    (∃ (s : State),
    s.dev.cipher.suspended = none) ∧
    (∃ (s : State),
    s.dev.cipher.service = none) ∧
    (∃ (m : CipherMsg) (s : State),
    s.dev.cipher.service = some m ∧ m.source = 2 ∧ 0 < m.entry.len ∧ m.entry.gen = (s.dev.slot m.entry.slot).gen) ∧
    (∃ (w : Initiator) (b : Bool) (s : State),
    s.dev.secMayRead w (if b then 0x144 else 0x84) = false) ∧
    (∃ (w : Initiator) (c : CipherCpl) (cs : List CipherCpl) (s : State),
    s.dev.secMayRead w 0x84 = true ∧ s.dev.cipher.hcpl = c :: cs) :=
  ⟨⟨(.security : CipherSource), (⟨(mk [fun d => { d with cipher := { d.cipher with q3 := List.replicate 64 entry0 } }]), []⟩ : State), by decide +kernel⟩,
   ⟨(.ln0 : Lane), (⟨(mk [fun d => d.wrB CX_CTRL_EN false]), []⟩ : State), by decide +kernel⟩,
   ⟨([] : List Nat), (⟨(mk [fun d => d.wrB CX_CTRL_EN true, fun d => d.wrB CX_STATUS_SELFPASS true]), []⟩ : State), by decide +kernel⟩,
   ⟨([] : List Nat), (5 : Nat), (⟨(mk [fun d => d.wrB CX_CTRL_EN true, fun d => d.wrB CX_STATUS_SELFPASS true, fun d => ((((d.wr (CX_HREQ_W 0) (16 * 2 ^ 16 + 1)).wr (CX_HREQ_W 1) 1).wr (CX_HREQ_W 4) 0x10000000).wr (CX_HREQ_W 6) 0x10000100).wr (CX_NSMAP_SLOT 0) 5, fun d => (d.wr (CX_NSMAP_VALID 0) 1).setSlot 5 { d.slot 5 with st := .valid, nsid := 1 }]), []⟩ : State), by decide +kernel⟩,
   ⟨({ msg0 with entry := { entry0 with urgent := true } } : CipherMsg), (⟨(mk [fun d => { d with cipher := { d.cipher with service := some ({ msg0 with entry := { entry0 with urgent := true } } : CipherMsg) } }]), []⟩ : State), by decide +kernel⟩,
   ⟨(3 : Nat), ({ entry0 with urgent := true } : CipherEntry), (⟨(mk [fun d => { d with cipher := { d.cipher with service := none } }, fun d => { d with cipher := { d.cipher with q3 := [({ entry0 with urgent := true } : CipherEntry)] } }]), []⟩ : State), by decide +kernel⟩,
   ⟨(3 : Nat), ({ entry0 with urgent := true } : CipherEntry), (msg0 : CipherMsg), (⟨(mk [fun d => { d with cipher := { d.cipher with service := some (msg0 : CipherMsg) } }, fun d => { d with cipher := { d.cipher with suspended := none } }, fun d => { d with cipher := { d.cipher with q3 := [({ entry0 with urgent := true } : CipherEntry)] } }]), []⟩ : State), by decide +kernel⟩,
   ⟨(msg0 : CipherMsg), (⟨(mk [fun d => { d with cipher := { d.cipher with service := none } }, fun d => { d with cipher := { d.cipher with suspended := some (msg0 : CipherMsg) } }]), []⟩ : State), by decide +kernel⟩,
   ⟨(⟨(mk [fun d => { d with cipher := { d.cipher with suspended := none } }]), []⟩ : State), by decide +kernel⟩,
   ⟨(⟨(mk [fun d => { d with cipher := { d.cipher with service := none } }]), []⟩ : State), by decide +kernel⟩,
   ⟨({ msg0 with source := 2 } : CipherMsg), (⟨(mk [fun d => { d with cipher := { d.cipher with service := some ({ msg0 with source := 2 } : CipherMsg) } }]), []⟩ : State), by decide +kernel⟩,
   ⟨(.jtag : Initiator), (false : Bool), (⟨(mk [fun d => { d with otp := { d.otp with jtagLock := true } }]), []⟩ : State), by decide +kernel⟩,
   ⟨(.host 0 : Initiator), (ccpl0 : CipherCpl), ([] : List CipherCpl), (⟨(mk [fun d => { d with cipher := { d.cipher with hcpl := (ccpl0 : CipherCpl) :: ([] : List CipherCpl) } }]), []⟩ : State), by decide +kernel⟩⟩

theorem witness_KeySlotsFollowTheirStates :
    (∃ (w : Initiator) (s : State),
    s.dev.secMayWrite w 0x10000 = false) ∧
    (∃ (n : Nat) (s : State),
    n < 1024 ∧ (s.dev.slot n).st = .retiring) ∧
    (∃ (n : Nat) (s : State),
    n < 1024 ∧ (s.dev.slot n).st = .empty) ∧
    (∃ (n : Nat) (s : State),
    n < 1024 ∧ (s.dev.slot n).st = .valid ∧ openBlob (s.dev.memNum 128 s.dev.kaddr) = none) ∧
    (∃ (n : Nat) (s : State),
    n < 1024 ∧ (s.dev.slot n).st = .valid ∧ s.dev.memOpen s.dev.kaddr = false) ∧
    (∃ (n : Nat) (s : State),
    n < 1024 ∧ (s.dev.slot n).st = .valid) ∧
    (∃ (n : Nat) (s : State),
    n < 1024 ∧ (s.dev.slot n).st = .retiring) ∧
    (∃ (n : Nat) (s : State),
    n < 1024 ∧ s.dev.rd CX_KRSP_ARG = 1) ∧
    (∃ (n : Nat) (s : State),
    n < 1024 ∧ s.dev.rd CX_KRSP_ARG = 1) ∧
    (∃ (n : Nat) (s : State),
    ((s.dev.slot n).st ≠ .retiring ∨ (s.dev.slot n).inPrev ≠ 0)) ∧
    (∃ (n : Nat) (s : State),
    (s.dev.slot n).st = .retiring ∧ (s.dev.slot n).inPrev = 0) ∧
    (∃ (n : Nat) (s : State),
    (s.dev.slot n).st = .erasing ∧ (s.dev.slot n).inCur = 0 ∧ (s.dev.slot n).inPrev = 0 ∧ ((∀ i < 64, s.dev.rd (CX_NSMAP_VALID i) = 0))) ∧
    (∃ (n : Nat) (s : State),
    (s.dev.slot n).st = .erasing ∧ 0 < (s.dev.slot n).inCur) ∧
    (∃ (n : Nat) (s : State),
    (s.dev.slot n).st = .retiring ∧ (s.dev.slot n).drainLogged = false) ∧
    (∃ (n : Nat) (s : State),
    (s.dev.slot n).drainLogged = true) ∧
    (∃ (w : Initiator) (s : State),
    s.dev.secMayWrite w 0x200 = false) ∧
    (∃ (a : Nat) (n : Nat) (s : State),
    (s.dev.slot n).st ≠ .empty ∧ (s.dev.slot n).nsid ≠ a) ∧
    (∃ (a : Nat) (n : Nat) (s : State),
    (s.dev.slot n).st = .valid ∧ (s.dev.slot n).nsid = a) ∧
    (∃ (v : Word),
    getField v 0 1 = 0) ∧
    (∃ (v : Word) (s : State),
    getField v 0 1 = 1 ∧ s.dev.bit CX_STATUS_SELFFAIL = true) ∧
    (∃ (v : Word) (s : State),
    getField v 0 1 = 1 ∧ s.dev.bit CX_STATUS_SELFFAIL = false ∧ s.dev.reloaded = true) ∧
    (∃ (a : Nat) (s : State),
    s.dev.otp.jtagLock = true ∧ a < 0xF0510000) ∧
    (∃ (s : State),
    s.dev.otp.jtagLock = false ∧ s.dev.cipher.jtagSeen = false) :=
  ⟨⟨(.host 0 : Initiator), (⟨({} : Device), []⟩ : State), by decide +kernel⟩,
   ⟨(1023 : Nat), (⟨(mk [fun d => d.setSlot (1023 : Nat) { (d.slot (1023 : Nat)) with st := .retiring }]), []⟩ : State), by decide +kernel⟩,
   ⟨(1023 : Nat), (⟨(mk [fun d => d.setSlot (1023 : Nat) { (d.slot (1023 : Nat)) with st := .empty }]), []⟩ : State), by decide +kernel⟩,
   ⟨(0 : Nat), (⟨(mk [fun d => d.setSlot (0 : Nat) { (d.slot (0 : Nat)) with st := .valid }]), []⟩ : State), by decide +kernel⟩,
   ⟨(0 : Nat), (⟨(mk [fun d => d.setSlot (0 : Nat) { (d.slot (0 : Nat)) with st := .valid }]), []⟩ : State), by decide +kernel⟩,
   ⟨(0 : Nat), (⟨(mk [fun d => d.setSlot (0 : Nat) { (d.slot (0 : Nat)) with st := .valid }]), []⟩ : State), by decide +kernel⟩,
   ⟨(0 : Nat), (⟨(mk [fun d => d.setSlot (0 : Nat) { (d.slot (0 : Nat)) with st := .retiring }]), []⟩ : State), by decide +kernel⟩,
   ⟨(0 : Nat), (⟨(mk [fun d => d.wr CX_KRSP_ARG (1)]), []⟩ : State), by decide +kernel⟩,
   ⟨(0 : Nat), (⟨(mk [fun d => d.wr CX_KRSP_ARG (1)]), []⟩ : State), by decide +kernel⟩,
   ⟨(0 : Nat), (⟨({} : Device), []⟩ : State), by decide +kernel⟩,
   ⟨(0 : Nat), (⟨(mk [fun d => d.setSlot (0 : Nat) { (d.slot (0 : Nat)) with st := .retiring }, fun d => d.setSlot (0 : Nat) { (d.slot (0 : Nat)) with inPrev := 0 }]), []⟩ : State), by decide +kernel⟩,
   ⟨(0 : Nat), (⟨(mk [fun d => d.setSlot (0 : Nat) { (d.slot (0 : Nat)) with st := .erasing }, fun d => d.setSlot (0 : Nat) { (d.slot (0 : Nat)) with inCur := 0 }, fun d => d.setSlot (0 : Nat) { (d.slot (0 : Nat)) with inPrev := 0 }]), []⟩ : State), by decide +kernel⟩,
   ⟨(1023 : Nat), (⟨(mk [fun d => d.setSlot (1023 : Nat) { (d.slot (1023 : Nat)) with st := .erasing }, fun d => d.setSlot (1023 : Nat) { d.slot (1023 : Nat) with inCur := 1 }]), []⟩ : State), by decide +kernel⟩,
   ⟨(0 : Nat), (⟨(mk [fun d => d.setSlot (0 : Nat) { (d.slot (0 : Nat)) with st := .retiring }, fun d => d.setSlot (0 : Nat) { (d.slot (0 : Nat)) with drainLogged := false }]), []⟩ : State), by decide +kernel⟩,
   ⟨(0 : Nat), (⟨(mk [fun d => d.setSlot (0 : Nat) { (d.slot (0 : Nat)) with drainLogged := true }]), []⟩ : State), by decide +kernel⟩,
   ⟨(.jtag : Initiator), (⟨({} : Device), []⟩ : State), by decide +kernel⟩,
   ⟨(1 : Nat), (3 : Nat), (⟨(mk [fun d => d.setSlot (3 : Nat) { d.slot (3 : Nat) with st := .valid, nsid := 2 }]), []⟩ : State), by decide +kernel⟩,
   ⟨(0 : Nat), (0 : Nat), (⟨(mk [fun d => d.setSlot (0 : Nat) { (d.slot (0 : Nat)) with st := .valid }, fun d => d.setSlot (0 : Nat) { (d.slot (0 : Nat)) with nsid := (0 : Nat) }]), []⟩ : State), by decide +kernel⟩,
   ⟨(0 : Word), by decide +kernel⟩,
   ⟨(1 : Word), (⟨(mk [fun d => d.wrB CX_STATUS_SELFFAIL true]), []⟩ : State), by decide +kernel⟩,
   ⟨(1 : Word), (⟨(mk [fun d => d.wrB CX_STATUS_SELFFAIL false]), []⟩ : State), by decide +kernel⟩,
   ⟨(0 : Nat), (⟨(mk [fun d => { d with otp := { d.otp with jtagLock := true } }]), []⟩ : State), by decide +kernel⟩,
   ⟨(⟨(mk [fun d => { d with otp := { d.otp with jtagLock := false } }, fun d => { d with cipher := { d.cipher with jtagSeen := false } }]), []⟩ : State), by decide +kernel⟩⟩

theorem witness_PowerRequestsRunTheirStages :
    (∃ (v : Word),
    6 ≤ getField v 0 3) ∧
    (∃ (v : Word),
    6 ≤ getField v 0 3) ∧
    (∃ (v : Word) (s : State),
    getField v 0 3 < 6 ∧ (s.dev.bit RG_PSTATUS_BUSY = true ∨ s.dev.power.forcedReq = true)) ∧
    (∃ (v : Word) (s : State),
    getField v 0 3 < 6 ∧ s.dev.bit RG_PSTATUS_BUSY = false ∧ s.dev.power.forcedReq = false) ∧
    (∃ (s : State),
    s.dev.power.request = none) ∧
    (∃ (s : State),
    (s.dev.released = false ∨ s.dev.power.forcedReq = true ∨ s.dev.power.run ≠ none)) ∧
    (∃ (s : State),
    s.dev.released = true ∧ s.dev.power.forcedReq = false ∧ s.dev.power.run = none ∧ s.dev.power.retain = .out ∧ s.dev.power.request = some 1 ∧ s.dev.rd RG_PSTATUS_STATE = 0) ∧
    (∃ (s : State),
    s.dev.released = true ∧ s.dev.power.forcedReq = false ∧ s.dev.power.run = none ∧ s.dev.power.retain = .out ∧ s.dev.power.request = some 0 ∧ s.dev.rd RG_PSTATUS_STATE = 0) ∧
    (∃ (s : State),
    (s.dev.power.request = none ∨ s.dev.power.run ≠ none)) ∧
    (∃ (s : State),
    s.dev.power.request ≠ none ∧ s.dev.power.forcedReq = false ∧ s.dev.power.run = none) ∧
    (∃ (s : State),
    s.dev.power.run = none) ∧
    (∃ (r : PmRun) (s : State),
    s.dev.power.run = some r ∧ s.dev.stageDone r = false) ∧
    (∃ (s : State),
    s.dev.power.run = some { stage := 1, up := false, target := 1, forced := false } ∧ s.dev.power.forcedReq = false) ∧
    (∃ (s : State),
    s.dev.power.run = some { stage := 2, up := false, target := 3, forced := false } ∧ s.dev.power.forcedReq = false ∧ s.dev.lanePark .ln0 = true ∧ s.dev.lanePark .ln1 = true) ∧
    (∃ (s : State),
    (s.dev.power.request = none ∨ s.dev.power.forcedReq = false)) ∧
    (∃ (n : Nat) (t : Nat) (s : State),
    s.dev.power.request = some t ∧ s.dev.power.forcedReq = true ∧ s.dev.power.run = none ∧ s.dev.rd RG_PSTATUS_STATE = t ∧ s.dev.host.miForce = false ∧ t ≠ 4 ∧ n < 2 ^ RG_PSTATUS_STOPPED.n) :=
  ⟨⟨(6 : Word), by decide +kernel⟩,
   ⟨(7 : Word), by decide +kernel⟩,
   ⟨(0 : Word), (⟨(mk [fun d => d.wrB RG_PSTATUS_BUSY true]), []⟩ : State), by decide +kernel⟩,
   ⟨(0 : Word), (⟨(mk [fun d => d.wrB RG_PSTATUS_BUSY false, fun d => { d with power := { d.power with forcedReq := false } }]), []⟩ : State), by decide +kernel⟩,
   ⟨(⟨(mk [fun d => { d with power := { d.power with request := none } }]), []⟩ : State), by decide +kernel⟩,
   ⟨(⟨({} : Device), []⟩ : State), by decide +kernel⟩,
   ⟨(⟨(mk [fun d => { d with boot := { d.boot with phase := .released } }, fun d => { d with power := { d.power with forcedReq := false } }, fun d => { d with power := { d.power with run := none } }, fun d => { d with power := { d.power with retain := .out } }, fun d => { d with power := { d.power with request := some 1 } }, fun d => d.wr RG_PSTATUS_STATE 0]), []⟩ : State), by decide +kernel⟩,
   ⟨(⟨(mk [fun d => { d with boot := { d.boot with phase := .released } }, fun d => { d with power := { d.power with forcedReq := false } }, fun d => { d with power := { d.power with run := none } }, fun d => { d with power := { d.power with retain := .out } }, fun d => { d with power := { d.power with request := some 0 } }, fun d => d.wr RG_PSTATUS_STATE 0]), []⟩ : State), by decide +kernel⟩,
   ⟨(⟨(mk [fun d => { d with power := { d.power with request := none } }]), []⟩ : State), by decide +kernel⟩,
   ⟨(⟨(mk [fun d => { d with power := { d.power with forcedReq := false } }, fun d => { d with power := { d.power with run := none } }, fun d => { d with power := { d.power with request := some 5 } }]), []⟩ : State), by decide +kernel⟩,
   ⟨(⟨(mk [fun d => { d with power := { d.power with run := none } }]), []⟩ : State), by decide +kernel⟩,
   ⟨(⟨2, false, 3, false⟩ : PmRun), (⟨(mk [fun d => { d with power := { d.power with run := some (⟨2, false, 3, false⟩ : PmRun) } }, fun d => d.updSv .ln0 fun y => { y with st := .seek }]), []⟩ : State), by decide +kernel⟩,
   ⟨(⟨(mk [fun d => { d with power := { d.power with run := some { stage := 1, up := false, target := 1, forced := false } } }, fun d => { d with power := { d.power with forcedReq := false } }]), []⟩ : State), by decide +kernel⟩,
   ⟨(⟨(mk [fun d => { d with power := { d.power with run := some { stage := 2, up := false, target := 3, forced := false } } }, fun d => { d with power := { d.power with forcedReq := false } }]), []⟩ : State), by decide +kernel⟩,
   ⟨(⟨(mk [fun d => { d with power := { d.power with request := none } }]), []⟩ : State), by decide +kernel⟩,
   ⟨(0 : Nat), (0 : Nat), (⟨(mk [fun d => { d with power := { d.power with request := some (0 : Nat) } }, fun d => { d with power := { d.power with forcedReq := true } }, fun d => { d with power := { d.power with run := none } }, fun d => d.wr RG_PSTATUS_STATE ((0 : Nat)), fun d => { d with host := { d.host with miForce := false } }]), []⟩ : State), by decide +kernel⟩⟩

theorem witness_RetainIsEnteredSealedAndLeft :
    (∃ (s : State),
    s.dev.retainReady = false) ∧
    (∃ (s : State),
    s.dev.retainReady = true) ∧
    (∃ (s : State),
    (s.dev.rd RG_RETIDLE_TIME = 0 ∨ s.dev.rd RG_PSTATUS_STATE ≠ 4 ∨ s.dev.power.retain ≠ .out)) ∧
    (∃ (s : State),
    s.dev.rd RG_RETIDLE_TIME ≠ 0 ∧ s.dev.retainReady = true) ∧
    (∃ (s : State),
    s.dev.power.retain ≠ .entering) ∧
    (∃ (s : State),
    s.dev.power.retain = .entering) ∧
    (∃ (s : State),
    s.dev.power.retain ≠ .gated) ∧
    (∃ (s : State),
    s.dev.power.retain = .gated) ∧
    (∃ (p : Nat) (s : State),
    (s.dev.hasPort p = false ∨ (s.dev.rd RG_WAKEEN_EN).testBit p = false)) ∧
    (∃ (p : Nat) (s : State),
    p < 2 ∧ s.dev.hasPort p = true ∧ (s.dev.rd RG_WAKEEN_EN).testBit p = true ∧ s.dev.power.retain = .inside) ∧
    (∃ (a : Nat),
    a ≠ 0x1D ∧ a ≠ 0x6A) ∧
    (∃ (s : State),
    (s.dev.rd RG_WAKEEN_EN).testBit 3 = true ∧ s.dev.power.retain = .inside) ∧
    (∃ (s : State),
    s.dev.rd RG_AONTMR_SEC = 0) ∧
    (∃ (s : State),
    s.dev.rd RG_AONTMR_SEC ≠ 0 ∧ (s.dev.rd RG_WAKEEN_EN).testBit 4 = true ∧ s.dev.power.retain = .entering) ∧
    (∃ (s : State),
    s.dev.power.retain ≠ .out ∧ (s.dev.rd RG_WAKEEN_EN).testBit 2 = true) ∧
    (∃ (s : State),
    s.dev.power.retain = .out) ∧
    (∃ (s : State),
    s.dev.power.osc = .off) ∧
    (∃ (s : State),
    s.dev.power.osc = .running ∧ s.dev.power.retain = .inside ∧ (s.dev.rd RG_WAKEEN_EN).testBit 2 = true) ∧
    (∃ (s : State),
    s.dev.power.retain ≠ .waking) ∧
    (∃ (s : State),
    s.dev.power.retain = .waking ∧ s.dev.power.groupParity < 512) :=
  ⟨⟨(⟨({} : Device), []⟩ : State), by decide +kernel⟩,
   ⟨(⟨(mk [fun d => (d.wr RG_PSTATUS_STATE 4).wr RG_PMODE_TARGET 5, fun d => { d with boot := { d.boot with phase := .released } }]), []⟩ : State), by decide +kernel⟩,
   ⟨(⟨(mk [fun d => d.wr RG_RETIDLE_TIME 0]), []⟩ : State), by decide +kernel⟩,
   ⟨(⟨(mk [fun d => d.wr RG_RETIDLE_TIME 1, fun d => (d.wr RG_PSTATUS_STATE 4).wr RG_PMODE_TARGET 5, fun d => { d with boot := { d.boot with phase := .released } }]), []⟩ : State), by decide +kernel⟩,
   ⟨(⟨({} : Device), []⟩ : State), by decide +kernel⟩,
   ⟨(⟨(mk [fun d => { d with power := { d.power with retain := .entering } }]), []⟩ : State), by decide +kernel⟩,
   ⟨(⟨({} : Device), []⟩ : State), by decide +kernel⟩,
   ⟨(⟨(mk [fun d => { d with power := { d.power with retain := .gated } }]), []⟩ : State), by decide +kernel⟩,
   ⟨(2 : Nat), (⟨({} : Device), []⟩ : State), by decide +kernel⟩,
   ⟨(0 : Nat), (⟨(mk [fun d => d.wr RG_WAKEEN_EN (2 ^ (0 : Nat)), fun d => { d with power := { d.power with retain := .inside } }]), []⟩ : State), by decide +kernel⟩,
   ⟨(0 : Nat), by decide +kernel⟩,
   ⟨(⟨(mk [fun d => d.wr RG_WAKEEN_EN (2 ^ 3), fun d => { d with power := { d.power with retain := .inside } }]), []⟩ : State), by decide +kernel⟩,
   ⟨(⟨(mk [fun d => d.wr RG_AONTMR_SEC 0]), []⟩ : State), by decide +kernel⟩,
   ⟨(⟨(mk [fun d => d.wr RG_AONTMR_SEC 1, fun d => d.wr RG_WAKEEN_EN (2 ^ 4), fun d => { d with power := { d.power with retain := .entering } }]), []⟩ : State), by decide +kernel⟩,
   ⟨(⟨(mk [fun d => d.wr RG_WAKEEN_EN (2 ^ 2), fun d => { d with power := { d.power with retain := .inside } }]), []⟩ : State), by decide +kernel⟩,
   ⟨(⟨(mk [fun d => { d with power := { d.power with retain := .out } }]), []⟩ : State), by decide +kernel⟩,
   ⟨(⟨(mk [fun d => { d with power := { d.power with osc := .off } }]), []⟩ : State), by decide +kernel⟩,
   ⟨(⟨(mk [fun d => { d with power := { d.power with osc := .running } }, fun d => { d with power := { d.power with retain := .inside } }, fun d => d.wr RG_WAKEEN_EN (2 ^ 2)]), []⟩ : State), by decide +kernel⟩,
   ⟨(⟨({} : Device), []⟩ : State), by decide +kernel⟩,
   ⟨(⟨(mk [fun d => { d with power := { d.power with retain := .waking } }]), []⟩ : State), by decide +kernel⟩⟩

theorem witness_ChronometerAndUsageCount :
    (∃ (s : State),
    s.dev.rootCounts = false) ∧
    (∃ (s : State),
    s.dev.rootCounts = true) ∧
    (∃ (s : State),
    s.dev.rootCounts = true ∧ s.dev.host.ps = 1 ∧ s.dev.rd RG_PSTATUS_STATE = 0 ∧ s.dev.inFlight = 0 ∧ s.dev.power.run = none ∧ s.dev.power.request = none ∧ s.dev.released = true) ∧
    (∃ (c : Nat) (s : State),
    s.dev.rootCounts = true ∧ s.dev.thermRec.minuteMax = some c ∧ s.dev.chron.chr < 2 ^ 63 ∧ (s.dev.chron.chr + 1) % 60000000 = 0) ∧
    (∃ (s : State),
    s.dev.ticksCount = false) ∧
    (∃ (s : State),
    s.dev.ticksCount = true ∧ s.dev.rd RG_CHRTRIM_TRIM = 0 ∧ s.dev.chron.frac < 2 ^ 32 ∧ s.dev.chron.chr < 2 ^ 63) ∧
    (∃ (s : State),
    s.dev.rootCounts = true) ∧
    (∃ (s : State),
    s.dev.rootCounts = false) ∧
    (∃ (s : State),
    s.dev.chron.chr / 60000000 ≤ s.dev.usage.seq) ∧
    (∃ (s : State),
    s.dev.rootCounts = true ∧ s.dev.usage.seq < s.dev.chron.chr / 60000000 ∧ s.dev.power.forcedReq = false ∧ s.dev.power.run = none) ∧
    (∃ (s : State),
    s.dev.rootCounts = true) :=
  ⟨⟨(⟨({} : Device), []⟩ : State), by decide +kernel⟩,
   ⟨(⟨(mk [fun d => { d with boot := { d.boot with phase := .released } }]), []⟩ : State), by decide +kernel⟩,
   ⟨(⟨(mk [fun d => { d with boot := { d.boot with phase := .released } }, fun d => { d with host := { d.host with ps := 1 } }, fun d => d.wr RG_PSTATUS_STATE 0, fun d => { d with power := { d.power with run := none } }, fun d => { d with power := { d.power with request := none } }, fun d => { d with boot := { d.boot with phase := .released } }]), []⟩ : State), by decide +kernel⟩,
   ⟨(3583 : Nat), (⟨(mk [fun d => { d with boot := { d.boot with phase := .released } }, fun d => { d with thermRec := { d.thermRec with minuteMax := some (3583 : Nat) } }, fun d => { d with chron := { d.chron with chr := 59999999 } }]), []⟩ : State), by decide +kernel⟩,
   ⟨(⟨(mk [fun d => { d with aon := { d.aon with off := true } }]), []⟩ : State), by decide +kernel⟩,
   ⟨(⟨(mk [fun d => { d with boot := { d.boot with phase := .released }, power := { d.power with retain := .inside } }, fun d => d.wr RG_CHRTRIM_TRIM 0]), []⟩ : State), by decide +kernel⟩,
   ⟨(⟨(mk [fun d => { d with boot := { d.boot with phase := .released } }]), []⟩ : State), by decide +kernel⟩,
   ⟨(⟨({} : Device), []⟩ : State), by decide +kernel⟩,
   ⟨(⟨(mk [fun d => { d with usage := { d.usage with seq := d.chron.chr / 60000000 } }]), []⟩ : State), by decide +kernel⟩,
   ⟨(⟨(mk [fun d => { d with boot := { d.boot with phase := .released } }, fun d => { d with power := { d.power with forcedReq := false } }, fun d => { d with power := { d.power with run := none } }, fun d => { d with chron := { d.chron with chr := 60000000 } }]), []⟩ : State), by decide +kernel⟩,
   ⟨(⟨(mk [fun d => { d with boot := { d.boot with phase := .released } }]), []⟩ : State), by decide +kernel⟩⟩

theorem witness_SensorsAreReadAndFail :
    (∃ (s : State),
    s.dev.regOn = false) ∧
    (∃ (s : State),
    s.dev.regOn = true) ∧
    (∃ (i : Nat) (s : State),
    Sparse.cnt s.dev.thermal.diodeOut i < 3) ∧
    (∃ (i : Nat) (j : Nat) (s : State),
    i < 8 ∧ j < 8 ∧ j ≠ i ∧ 3 ≤ Sparse.cnt s.dev.thermal.diodeOut i ∧ s.dev.bit (RG_TEMP_FAIL i) = false ∧ s.dev.bit (RG_TEMP_FAIL j) = false) ∧
    (∃ (t : Nat),
    2 ≤ t) ∧
    (∃ (t : Nat) (c : Nat) (s : State),
    s.dev.regOn = true ∧ t < 2 ∧ c < 4096) ∧
    (∃ (t : Nat) (s : State),
    t < 2 ∧ 2 ≤ Sparse.cnt s.dev.thermal.thermOut t ∧ s.dev.bit (RG_THERM_FAIL t) = false) ∧
    (∃ (t : Nat) (s : State),
    Sparse.cnt s.dev.thermal.thermOut t < 2) ∧
    (∃ (t : Nat) (s : State),
    t < 2 ∧ 2 ≤ Sparse.cnt s.dev.thermal.thermIn t ∧ s.dev.bit (RG_THERM_FAIL t) = true) ∧
    (∃ (t : Nat) (s : State),
    s.dev.bit (RG_THERM_FAIL t) = false) ∧
    (∃ (ch : Nat),
    (ch < 16 ∨ 25 < ch)) ∧
    (∃ (ch : Nat) (c : Nat) (s : State),
    s.dev.regOn = true ∧ 16 ≤ ch ∧ ch ≤ 25 ∧ c < 4096) ∧
    (∃ (ch : Nat) (s : State),
    Sparse.cnt s.dev.thermal.supLow ch < 2) ∧
    (∃ (s : State),
    2 ≤ Sparse.cnt s.dev.thermal.supLow 16 ∧ s.dev.thermal.supplyFail = false) ∧
    (∃ (ch : Nat) (s : State),
    Sparse.cnt s.dev.thermal.supHigh ch < 2) ∧
    (∃ (ch : Nat) (s : State),
    2 ≤ Sparse.cnt s.dev.thermal.supHigh ch ∧ s.dev.critical.testBit 2 = false) ∧
    (∃ (i : Nat) (s : State),
    i < 2 ∧ (s.dev.rd RG_SHOCK_IN).testBit i = true ∧ (s.dev.rd RG_SHOCK_STUCK).testBit i = false) ∧
    (∃ (i : Nat) (s : State),
    (s.dev.rd RG_SHOCK_IN).testBit i = false) ∧
    (∃ (i : Nat) (s : State),
    i < 2 ∧ (s.dev.rd RG_SHOCK_STUCK).testBit i = true ∧ (s.dev.rd RG_SHOCK_IN).testBit i = false) ∧
    (∃ (i : Nat) (s : State),
    (s.dev.rd RG_SHOCK_STUCK).testBit i = false) :=
  ⟨⟨(⟨({} : Device), []⟩ : State), by decide +kernel⟩,
   ⟨(⟨(mk [fun d => { d with boot := { d.boot with phase := .released } }]), []⟩ : State), by decide +kernel⟩,
   ⟨(0 : Nat), (⟨({} : Device), []⟩ : State), by decide +kernel⟩,
   ⟨(0 : Nat), (1 : Nat), (⟨(mk [fun d => d.wrB (RG_TEMP_FAIL (0 : Nat)) false, fun d => d.wrB (RG_TEMP_FAIL (1 : Nat)) false, fun d => { d with thermal := { d.thermal with diodeOut := [(0, 3)] } }]), []⟩ : State), by decide +kernel⟩,
   ⟨(2 : Nat), by decide +kernel⟩,
   ⟨(0 : Nat), (0 : Nat), (⟨(mk [fun d => { d with boot := { d.boot with phase := .released } }]), []⟩ : State), by decide +kernel⟩,
   ⟨(0 : Nat), (⟨(mk [fun d => d.wrB (RG_THERM_FAIL (0 : Nat)) false, fun d => { d with thermal := { d.thermal with thermOut := [((0 : Nat), 2)] } }]), []⟩ : State), by decide +kernel⟩,
   ⟨(0 : Nat), (⟨({} : Device), []⟩ : State), by decide +kernel⟩,
   ⟨(0 : Nat), (⟨(mk [fun d => d.wrB (RG_THERM_FAIL (0 : Nat)) true, fun d => { d with thermal := { d.thermal with thermIn := [((0 : Nat), 2)] } }]), []⟩ : State), by decide +kernel⟩,
   ⟨(0 : Nat), (⟨(mk [fun d => d.wrB (RG_THERM_FAIL (0 : Nat)) false]), []⟩ : State), by decide +kernel⟩,
   ⟨(0 : Nat), by decide +kernel⟩,
   ⟨(25 : Nat), (0 : Nat), (⟨(mk [fun d => { d with boot := { d.boot with phase := .released } }]), []⟩ : State), by decide +kernel⟩,
   ⟨(0 : Nat), (⟨({} : Device), []⟩ : State), by decide +kernel⟩,
   ⟨(⟨(mk [fun d => { d with thermal := { d.thermal with supplyFail := false } }, fun d => { d with thermal := { d.thermal with supLow := [(16, 2)] } }]), []⟩ : State), by decide +kernel⟩,
   ⟨(0 : Nat), (⟨({} : Device), []⟩ : State), by decide +kernel⟩,
   ⟨(17 : Nat), (⟨(mk [fun d => { d with thermal := { d.thermal with supHigh := [(17, 2)] } }]), []⟩ : State), by decide +kernel⟩,
   ⟨(0 : Nat), (⟨(mk [fun d => d.wr RG_SHOCK_IN (2 ^ (0 : Nat)), fun d => d.wr RG_SHOCK_STUCK (0)]), []⟩ : State), by decide +kernel⟩,
   ⟨(0 : Nat), (⟨(mk [fun d => d.wr RG_SHOCK_IN (0)]), []⟩ : State), by decide +kernel⟩,
   ⟨(0 : Nat), (⟨(mk [fun d => d.wr RG_SHOCK_STUCK (2 ^ (0 : Nat)), fun d => d.wr RG_SHOCK_IN (0)]), []⟩ : State), by decide +kernel⟩,
   ⟨(0 : Nat), (⟨(mk [fun d => d.wr RG_SHOCK_STUCK (0)]), []⟩ : State), by decide +kernel⟩⟩

theorem witness_ThermalControlFollowsItsReadings :
    (∃ (s : State),
    (s.dev.thermal.warnUp < 4 ∨ s.dev.bit RG_THSTAT_WARN = true)) ∧
    (∃ (s : State),
    4 ≤ s.dev.thermal.warnUp ∧ s.dev.bit RG_THSTAT_WARN = false) ∧
    (∃ (s : State),
    (s.dev.thermal.warnDown < 4 ∨ s.dev.bit RG_THSTAT_WARN = false)) ∧
    (∃ (s : State),
    4 ≤ s.dev.thermal.warnDown ∧ s.dev.bit RG_THSTAT_WARN = true) ∧
    (∃ (s : State),
    (s.dev.thermal.hot.length < 4 ∨ s.dev.bit RG_THSTAT_THR = true)) ∧
    (∃ (a : Nat) (b : Nat) (c : Nat) (e : Nat) (s : State),
    s.dev.thermal.hot = [a, b, c, e] ∧ s.dev.bit RG_THSTAT_THR = false ∧ s.dev.rd RG_THSTAT_STEP = s.dev.rd RG_THCTRL_FORCE ∧ min (min (min a b) c) e ≤ 6 ∧ s.dev.rd RG_THCTRL_FORCE ≤ 6 ∧ s.dev.rd RG_THSTAT_STEP ≠ 0) ∧
    (∃ (s : State),
    s.dev.bit RG_THSTAT_THR = false) ∧
    (∃ (a : Nat) (b : Nat) (c : Nat) (e : Nat) (s : State),
    s.dev.bit RG_THSTAT_THR = true ∧ s.dev.thermal.recent = [a, b, c, e] ∧ s.dev.thermal.step < min (min (min a b) c) e ∧ min (min (min a b) c) e ≤ 6 ∧ s.dev.rd RG_THSTAT_STEP = max s.dev.thermal.step (s.dev.rd RG_THCTRL_FORCE) ∧ s.dev.rd RG_THCTRL_FORCE ≤ 6 ∧ 0 < s.dev.thermal.step) ∧
    (∃ (s : State),
    s.dev.bit RG_THSTAT_THR = true ∧ 1000 ≤ s.dev.thermal.below ∧ s.dev.rd RG_THSTAT_STEP = max s.dev.thermal.step (s.dev.rd RG_THCTRL_FORCE) ∧ 0 < s.dev.thermal.step ∧ s.dev.thermal.step ≤ 6 ∧ s.dev.rd RG_THCTRL_FORCE ≤ 6) ∧
    (∃ (s : State),
    s.dev.bit RG_THSTAT_THR = true ∧ 4 ≤ s.dev.thermal.thrDown ∧ 0 < s.dev.rd RG_THSTAT_STEP ∧ s.dev.rd RG_THCTRL_FORCE ≤ 6) ∧
    (∃ (v : Word),
    getField v 0 3 = 7) ∧
    (∃ (v : Word) (s : State),
    getField v 0 3 ≠ 7 ∧ 0 < s.dev.rd RG_THSTAT_STEP ∧ s.dev.thermal.step ≤ 6) ∧
    (∃ (s : State),
    (s.dev.thermal.shutUp < 2 ∨ s.dev.thermal.shutdown = true)) ∧
    (∃ (s : State),
    2 ≤ s.dev.thermal.shutUp ∧ s.dev.thermal.shutdown = false) ∧
    (∃ (s : State),
    (s.dev.thermal.coolSince = none ∨ s.dev.thermal.shutdown = false)) ∧
    (∃ (n : Nat) (s : State),
    s.dev.thermal.coolSince = some n ∧ s.dev.thermal.shutdown = true ∧ s.dev.bit CB_THERM_RESTART = true ∧ n + 60000000 ≤ s.dev.chron.chr) ∧
    (∃ (s : State),
    s.dev.thermal.supplyFail = false) ∧
    (∃ (s : State),
    s.dev.thermal.supplyFail = true ∧ ((∀ i < 10, s.dev.bit (RG_SUP_LOW i) = false))) ∧
    (∃ (s : State),
    s.dev.rd RG_THSTAT_STEP < 2) ∧
    (∃ (s : State),
    s.dev.rd RG_THSTAT_STEP = 3 ∧ 5000 ≤ s.dev.duty.busy0) ∧
    (∃ (s : State),
    s.dev.rd RG_THSTAT_STEP = 5 ∧ s.dev.duty.busy1 < 1000) :=
  ⟨⟨(⟨({} : Device), []⟩ : State), by decide +kernel⟩,
   ⟨(⟨(mk [fun d => { d with thermal := { d.thermal with warnUp := 4 } }, fun d => d.wrB RG_THSTAT_WARN false]), []⟩ : State), by decide +kernel⟩,
   ⟨(⟨({} : Device), []⟩ : State), by decide +kernel⟩,
   ⟨(⟨(mk [fun d => { d with thermal := { d.thermal with warnDown := 4 } }, fun d => d.wrB RG_THSTAT_WARN true]), []⟩ : State), by decide +kernel⟩,
   ⟨(⟨({} : Device), []⟩ : State), by decide +kernel⟩,
   ⟨(5 : Nat), (3 : Nat), (4 : Nat), (6 : Nat), (⟨(mk [fun d => { d with thermal := { d.thermal with hot := [(5 : Nat), (3 : Nat), (4 : Nat), (6 : Nat)] } }, fun d => d.wrB RG_THSTAT_THR false, fun d => d.wr RG_THSTAT_STEP (d.rd RG_THCTRL_FORCE), fun d => d.wr RG_THCTRL_FORCE (6), fun d => (d.wr RG_THSTAT_STEP 2).wr RG_THCTRL_FORCE 2]), []⟩ : State), by decide +kernel⟩,
   ⟨(⟨(mk [fun d => d.wrB RG_THSTAT_THR false]), []⟩ : State), by decide +kernel⟩,
   ⟨(5 : Nat), (3 : Nat), (4 : Nat), (6 : Nat), (⟨(mk [fun d => d.wrB RG_THSTAT_THR true, fun d => { d with thermal := { d.thermal with recent := [(5 : Nat), (3 : Nat), (4 : Nat), (6 : Nat)] } }, fun d => (d.wr RG_THSTAT_STEP 2).wr RG_THCTRL_FORCE 2, fun d => { d with thermal := { d.thermal with step := 1 } }]), []⟩ : State), by decide +kernel⟩,
   ⟨(⟨(mk [fun d => d.wrB RG_THSTAT_THR true, fun d => { d with thermal := { d.thermal with below := 1000 } }, fun d => { d with thermal := { d.thermal with step := 0 + 1 } }, fun d => { d with thermal := { d.thermal with step := 6 } }, fun d => d.wr RG_THCTRL_FORCE (6), fun d => (d.wr RG_THSTAT_STEP 2).wr RG_THCTRL_FORCE 2, fun d => { d with thermal := { d.thermal with step := 2 } }]), []⟩ : State), by decide +kernel⟩,
   ⟨(⟨(mk [fun d => d.wrB RG_THSTAT_THR true, fun d => { d with thermal := { d.thermal with thrDown := 4 } }, fun d => d.wr RG_THSTAT_STEP (0 + 1), fun d => d.wr RG_THCTRL_FORCE (6)]), []⟩ : State), by decide +kernel⟩,
   ⟨(7 : Word), by decide +kernel⟩,
   ⟨(0 : Word), (⟨(mk [fun d => d.wr RG_THSTAT_STEP (0 + 1), fun d => { d with thermal := { d.thermal with step := 6 } }]), []⟩ : State), by decide +kernel⟩,
   ⟨(⟨({} : Device), []⟩ : State), by decide +kernel⟩,
   ⟨(⟨(mk [fun d => { d with thermal := { d.thermal with shutUp := 2 } }, fun d => { d with thermal := { d.thermal with shutdown := false } }]), []⟩ : State), by decide +kernel⟩,
   ⟨(⟨(mk [fun d => { d with thermal := { d.thermal with coolSince := none } }]), []⟩ : State), by decide +kernel⟩,
   ⟨(0 : Nat), (⟨(mk [fun d => { d with thermal := { d.thermal with coolSince := some (0 : Nat) } }, fun d => { d with thermal := { d.thermal with shutdown := true } }, fun d => d.wrB CB_THERM_RESTART true, fun d => { d with chron := { d.chron with chr := (0 : Nat) + 60000000 } }]), []⟩ : State), by decide +kernel⟩,
   ⟨(⟨(mk [fun d => { d with thermal := { d.thermal with supplyFail := false } }]), []⟩ : State), by decide +kernel⟩,
   ⟨(⟨(mk [fun d => { d with thermal := { d.thermal with supplyFail := true } }]), []⟩ : State), by decide +kernel⟩,
   ⟨(⟨({} : Device), []⟩ : State), by decide +kernel⟩,
   ⟨(⟨(mk [fun d => d.wr RG_THSTAT_STEP (3), fun d => { d with duty := { d.duty with busy0 := 5000 } }]), []⟩ : State), by decide +kernel⟩,
   ⟨(⟨(mk [fun d => d.wr RG_THSTAT_STEP (5)]), []⟩ : State), by decide +kernel⟩⟩

theorem witness_CalibrationIsScheduledAndTheLogbookWritten :
    (∃ (l : Lane) (s : State),
    s.dev.bit (RG_CALREQ_PEND l.idx) = true) ∧
    (∃ (l : Lane) (k : Nat) (t : Nat) (s : State),
    s.dev.bit (RG_CALREQ_PEND l.idx) = false ∧ k < 16 ∧ t < 64 ∧ (k = 0 ∨ 8 ≤ k ∨ t = 0 ∨ (s.dev.rd RG_CALMODE_MODE = 0 ∧ 30 < t))) ∧
    (∃ (l : Lane) (k : Nat) (h : Nat) (t : Nat) (s : State),
    s.dev.bit (RG_CALREQ_PEND l.idx) = false ∧ 0 < k ∧ k < 8 ∧ h < 16 ∧ 0 < t ∧ t ≤ 30) ∧
    (∃ (s : State),
    s.dev.cal.waiting.find? s.dev.calOk = none) ∧
    (∃ (r : CalReq) (s : State),
    s.dev.cal.waiting.find? s.dev.calOk = some r ∧ r.duration < 64) ∧
    (∃ (l : Lane) (s : State),
    s.dev.calGrantOf l = none) ∧
    (∃ (l : Lane) (s : State),
    s.dev.calGrantOf l ≠ none) ∧
    (∃ (l : Lane) (k : Nat) (h : Nat) (t : Nat) (s : State),
    s.dev.calGrantOf l = some (k, h, t) ∧ s.dev.chron.chr < t + 1000 * s.dev.rd (RG_CALGNT_MS l.idx)) ∧
    (∃ (l : Lane) (k : Nat) (h : Nat) (t : Nat) (s : State),
    s.dev.calGrantOf l = some (k, h, t) ∧ t + 1000 * s.dev.rd (RG_CALGNT_MS l.idx) ≤ s.dev.chron.chr ∧ ((∀ q ∈ laneSeqs l, (s.dev.ec q).op = none))) ∧
    (∃ (l : Lane) (s : State),
    ((∀ r ∈ s.dev.cal.waiting, r.lane ≠ l ∨ r.logged = true))) ∧
    (∃ (l : Lane) (r : CalReq) (s : State),
    s.dev.cal.waiting = [r] ∧ r.lane = l ∧ r.logged = false ∧ r.kind = 3 ∧ r.since + 2 * 250 * 3600000000 ≤ s.dev.chron.chr) ∧
    (∃ (c : Nat),
    rateLimitedCodes.contains c = false) ∧
    (∃ (c : Nat) (s : State),
    rateLimitedCodes.contains c = false ∧ s.dev.boot.phase ≠ .recovery ∧ s.dev.logbook.fifo.length < 256) ∧
    (∃ (c : Nat) (x : Nat) (s : State),
    rateLimitedCodes.contains c = true ∧ Sparse.cnt s.dev.logbook.last (rateKey c x) ≠ 0 ∧ s.dev.chron.chr + 1 < Sparse.cnt s.dev.logbook.last (rateKey c x) + 60000000) ∧
    (∃ (s : State),
    (s.dev.programDue = false ∨ s.dev.logbook.fifo = [])) ∧
    (∃ (x : LogEntry) (s : State),
    s.dev.programDue = true ∧ s.dev.logbook.fifo = [x] ∧ s.dev.logbook.lost = 0 ∧ s.dev.nor.logNext % 1024 ≠ 0) ∧
    (∃ (s : State),
    s.dev.programDue = true ∧ s.dev.logbook.fifo ≠ []) ∧
    (∃ (s : State),
    s.dev.logbook.fifo = []) ∧
    (∃ (s : State),
    s.dev.logbook.fifo ≠ []) ∧
    (∃ (s : State),
    (s.dev.logbook.toMirror = [] ∨ s.dev.spinTurning = false)) ∧
    (∃ (b : Nat) (bs : List Nat) (s : State),
    s.dev.logbook.toMirror = b :: bs ∧ s.dev.spinTurning = true ∧ s.dev.mirror.length + s.dev.nor.log.length ≤ 1048576) :=
  ⟨⟨(.ln0 : Lane), (⟨(mk [fun d => d.wrB (RG_CALREQ_PEND (.ln0 : Lane).idx) true]), []⟩ : State), by decide +kernel⟩,
   ⟨(.ln0 : Lane), (0 : Nat), (0 : Nat), (⟨(mk [fun d => d.wrB (RG_CALREQ_PEND (.ln0 : Lane).idx) false]), []⟩ : State), by decide +kernel⟩,
   ⟨(.ln0 : Lane), (0 + 1 : Nat), (0 : Nat), (30 : Nat), (⟨(mk [fun d => d.wrB (RG_CALREQ_PEND (.ln0 : Lane).idx) false]), []⟩ : State), by decide +kernel⟩,
   ⟨(⟨({} : Device), []⟩ : State), by decide +kernel⟩,
   ⟨({ calreq0 with duration := 63 } : CalReq), (⟨(mk [fun d => { d with cal := { d.cal with waiting := [({ calreq0 with duration := 63 } : CalReq)] } }]), []⟩ : State), by decide +kernel⟩,
   ⟨(.ln0 : Lane), (⟨({} : Device), []⟩ : State), by decide +kernel⟩,
   ⟨(.ln0 : Lane), (⟨(mk [fun d => { d with cal := { d.cal with grant0 := some (1, 0, 0) } }]), []⟩ : State), by decide +kernel⟩,
   ⟨(.ln0 : Lane), (1 : Nat), (0 : Nat), (0 : Nat), (⟨(mk [fun d => ({ d with cal := { d.cal with grant0 := some (1, 0, 0) } }).wr (RG_CALGNT_MS (.ln0 : Lane).idx) 5]), []⟩ : State), by decide +kernel⟩,
   ⟨(.ln0 : Lane), (1 : Nat), (0 : Nat), (0 : Nat), (⟨(mk [fun d => { d with chron := { d.chron with chr := (0 : Nat) + 1000 * d.rd (RG_CALGNT_MS (.ln0 : Lane).idx) } }, fun d => ({ d with cal := { d.cal with grant0 := some (1, 0, 0) } }).wr (RG_CALGNT_MS (.ln0 : Lane).idx) 5, fun d => { d with chron := { d.chron with chr := 5000 } }]), []⟩ : State), by decide +kernel⟩,
   ⟨(.ln0 : Lane), (⟨({} : Device), []⟩ : State), by decide +kernel⟩,
   ⟨(.ln0 : Lane), ({ calreq0 with lane := (.ln0 : Lane), logged := false, kind := 3 } : CalReq), (⟨(mk [fun d => { d with cal := { d.cal with waiting := [({ calreq0 with lane := (.ln0 : Lane), logged := false, kind := 3 } : CalReq)] } }, fun d => { d with chron := { d.chron with chr := ({ calreq0 with lane := (.ln0 : Lane), logged := false, kind := 3 } : CalReq).since + 2 * 250 * 3600000000 } }]), []⟩ : State), by decide +kernel⟩,
   ⟨(0 : Nat), by decide +kernel⟩,
   ⟨(0 : Nat), (⟨({} : Device), []⟩ : State), by decide +kernel⟩,
   ⟨(0x1004 : Nat), (3 : Nat), (⟨(mk [fun d => { d with logbook := { d.logbook with last := [(rateKey 0x1004 3, 1)] } }]), []⟩ : State), by decide +kernel⟩,
   ⟨(⟨({} : Device), []⟩ : State), by decide +kernel⟩,
   ⟨(log0 : LogEntry), (⟨(mk [fun d => { d with logbook := { d.logbook with fifo := [(log0 : LogEntry)] } }, fun d => { d with logbook := { d.logbook with lost := 0 } }, fun d => { d with logbook := { d.logbook with fifo := [(log0 : LogEntry)], due := true }, nor := { d.nor with logNext := 5 } }]), []⟩ : State), by decide +kernel⟩,
   ⟨(⟨(mk [fun d => { d with logbook := { d.logbook with fifo := [log0], due := true } }]), []⟩ : State), by decide +kernel⟩,
   ⟨(⟨(mk [fun d => { d with logbook := { d.logbook with fifo := [] } }]), []⟩ : State), by decide +kernel⟩,
   ⟨(⟨(mk [fun d => { d with logbook := { d.logbook with fifo := [log0] } }]), []⟩ : State), by decide +kernel⟩,
   ⟨(⟨(mk [fun d => { d with logbook := { d.logbook with toMirror := [] } }]), []⟩ : State), by decide +kernel⟩,
   ⟨(0 : Nat), ([] : List Nat), (⟨(mk [fun d => { d with logbook := { d.logbook with toMirror := (0 : Nat) :: ([] : List Nat) } }, fun d => { d with spin := { d.spin with stopped := false } }]), []⟩ : State), by decide +kernel⟩⟩

theorem witness_SolindFramesAreAcknowledged :
    (∃ (s : State),
    s.dev.crownOn = false) ∧
    (∃ (s : State),
    s.dev.crownOn = true ∧ s.dev.crown.awaitHello = false) ∧
    (∃ (bs : List Nat) (f : Frame) (s : State),
    s.dev.crownOn = true ∧ parseFrame bs = some f ∧ f.kind = 1 ∧ f.code = 1) ∧
    (∃ (bs : List Nat) (f : Frame) (s : State),
    s.dev.crownOn = true ∧ parseFrame bs = some f ∧ f.kind = 1 ∧ f.code ≠ 1 ∧ s.dev.crown.awaitHello = false ∧ f.seq = s.dev.crown.rxNext ∧ solindCodes.contains f.code = true) ∧
    (∃ (bs : List Nat) (f : Frame) (s : State),
    s.dev.mayAnswer ∧ parseFrame bs = some f ∧ f.kind = 1 ∧ f.code ≠ 1 ∧ s.dev.crown.awaitHello = false ∧ f.seq = s.dev.crown.rxNext ∧ solindCodes.contains f.code = false) ∧
    (∃ (bs : List Nat) (f : Frame) (s : State),
    s.dev.crownOn = true ∧ parseFrame bs = some f ∧ f.kind = 1 ∧ f.code ≠ 1 ∧ s.dev.crown.awaitHello = false ∧ f.seq ≠ s.dev.crown.rxNext) ∧
    (∃ (bs : List Nat) (f : Frame) (s : State),
    s.dev.crownOn = true ∧ parseFrame bs = some f ∧ f.kind = 1 ∧ f.code ≠ 1 ∧ s.dev.crown.awaitHello = false ∧ f.seq ≠ s.dev.crown.rxNext) ∧
    (∃ (f : Frame) (n : Nat) (s : State),
    s.dev.crownOn = true ∧ s.dev.crown.unacked = [(f, n)] ∧ s.dev.crown.queued = [] ∧ s.dev.crown.newRate = none ∧ s.dev.crown.resetOn ≠ some f.seq) ∧
    (∃ (f : Frame) (n : Nat) (i : Nat) (s : State),
    s.dev.crownOn = true ∧ s.dev.crown.unacked = [(f, n)] ∧ s.dev.crown.queued = [] ∧ s.dev.crown.newRate = some (f.seq, i) ∧ s.dev.crown.resetOn = none) ∧
    (∃ (f : Frame) (n : Nat) (s : State),
    s.dev.crownOn = true ∧ s.dev.crown.unacked = [(f, n)] ∧ s.dev.crown.newRate = none ∧ s.dev.crown.resetOn = some f.seq ∧ s.dev.aon.heldCause = none) ∧
    (∃ (f : Frame) (n : Nat) (s : State),
    s.dev.crownOn = true ∧ s.dev.crown.unacked = [(f, n)] ∧ n < 8) ∧
    (∃ (f : Frame) (n : Nat) (s : State),
    s.dev.crownOn = true ∧ s.dev.crown.unacked = [(f, n)] ∧ 8 ≤ n) ∧
    (∃ (s : State),
    s.dev.crown.unacked = []) ∧
    (∃ (f : Frame) (n : Nat) (s : State),
    s.dev.crown.unacked = [(f, n)]) ∧
    (∃ (s : State),
    s.dev.crown.unproven = false) ∧
    (∃ (s : State),
    s.dev.crown.unproven = true) ∧
    (∃ (s : State),
    (s.dev.eventWaits = false ∨ s.dev.chron.chr < s.dev.crown.lastFrame + 10000000)) ∧
    (∃ (s : State),
    s.dev.eventWaits = true ∧ s.dev.crown.lastFrame + 10000000 ≤ s.dev.chron.chr) :=
  ⟨⟨(⟨({} : Device), []⟩ : State), by decide +kernel⟩,
   ⟨(⟨(mk [fun d => { d with boot := { d.boot with phase := .released } }, fun d => { d with crown := { d.crown with awaitHello := false } }]), []⟩ : State), by decide +kernel⟩,
   ⟨([1, 0, 1, 0, 0, 0, 43, 189, 95, 101] : List Nat), (⟨1, 0, 1, []⟩ : Frame), (⟨(mk [fun d => { d with boot := { d.boot with phase := .released } }]), []⟩ : State), by decide +kernel⟩,
   ⟨([1, 0, 16, 0, 0, 0, 174, 166, 126, 81] : List Nat), (⟨1, 0, 16, []⟩ : Frame), (⟨(mk [fun d => { d with boot := { d.boot with phase := .released } }, fun d => { d with crown := { d.crown with awaitHello := false } }]), []⟩ : State), by decide +kernel⟩,
   ⟨([1, 0, 119, 0, 0, 0, 8, 85, 253, 52] : List Nat), (⟨1, 0, 119, []⟩ : Frame), (⟨(mk [fun d => { d with boot := { d.boot with phase := .released } }, fun d => { d with crown := { d.crown with awaitHello := false } }]), []⟩ : State), by unfold Device.mayAnswer; decide +kernel⟩,
   ⟨([1, 9, 16, 0, 0, 0, 147, 194, 8, 172] : List Nat), (⟨1, 9, 16, []⟩ : Frame), (⟨(mk [fun d => { d with boot := { d.boot with phase := .released } }, fun d => { d with crown := { d.crown with awaitHello := false } }]), []⟩ : State), by decide +kernel⟩,
   ⟨([1, 254, 16, 0, 0, 0, 161, 167, 7, 201] : List Nat), (⟨1, 254, 16, []⟩ : Frame), (⟨(mk [fun d => { d with boot := { d.boot with phase := .released } }, fun d => { d with crown := { d.crown with awaitHello := false } }]), []⟩ : State), by decide +kernel⟩,
   ⟨(frame0 : Frame), (0 : Nat), (⟨(mk [fun d => { d with boot := { d.boot with phase := .released } }, fun d => { d with crown := { d.crown with unacked := [((frame0 : Frame), (0 : Nat))] } }, fun d => { d with crown := { d.crown with queued := [] } }, fun d => { d with crown := { d.crown with newRate := none } }]), []⟩ : State), by decide +kernel⟩,
   ⟨(frame0 : Frame), (0 : Nat), (0 : Nat), (⟨(mk [fun d => { d with boot := { d.boot with phase := .released } }, fun d => { d with crown := { d.crown with unacked := [((frame0 : Frame), (0 : Nat))] } }, fun d => { d with crown := { d.crown with queued := [] } }, fun d => { d with crown := { d.crown with newRate := some ((frame0 : Frame).seq, (0 : Nat)) } }, fun d => { d with crown := { d.crown with resetOn := none } }]), []⟩ : State), by decide +kernel⟩,
   ⟨(frame0 : Frame), (0 : Nat), (⟨(mk [fun d => { d with boot := { d.boot with phase := .released } }, fun d => { d with crown := { d.crown with unacked := [((frame0 : Frame), (0 : Nat))] } }, fun d => { d with crown := { d.crown with newRate := none } }, fun d => { d with crown := { d.crown with resetOn := some (frame0 : Frame).seq } }, fun d => { d with aon := { d.aon with heldCause := none } }]), []⟩ : State), by decide +kernel⟩,
   ⟨(frame0 : Frame), (0 : Nat), (⟨(mk [fun d => { d with boot := { d.boot with phase := .released } }, fun d => { d with crown := { d.crown with unacked := [((frame0 : Frame), (0 : Nat))] } }]), []⟩ : State), by decide +kernel⟩,
   ⟨(frame0 : Frame), (8 : Nat), (⟨(mk [fun d => { d with boot := { d.boot with phase := .released } }, fun d => { d with crown := { d.crown with unacked := [((frame0 : Frame), (8 : Nat))] } }]), []⟩ : State), by decide +kernel⟩,
   ⟨(⟨(mk [fun d => { d with crown := { d.crown with unacked := [] } }]), []⟩ : State), by decide +kernel⟩,
   ⟨(frame0 : Frame), (0 : Nat), (⟨(mk [fun d => { d with crown := { d.crown with unacked := [((frame0 : Frame), (0 : Nat))] } }]), []⟩ : State), by decide +kernel⟩,
   ⟨(⟨(mk [fun d => { d with crown := { d.crown with unproven := false } }]), []⟩ : State), by decide +kernel⟩,
   ⟨(⟨(mk [fun d => { d with crown := { d.crown with unproven := true } }]), []⟩ : State), by decide +kernel⟩,
   ⟨(⟨({} : Device), []⟩ : State), by decide +kernel⟩,
   ⟨(⟨(mk [fun d => { d with chron := { d.chron with chr := d.crown.lastFrame + 10000000 } }, fun d => { d with crown := { d.crown with unacked := [(⟨5, 0, 1, []⟩, 0)] } }]), []⟩ : State), by decide +kernel⟩⟩

theorem witness_SolindCommandsAnswer :
    (∃ (s : State),
    s.dev.crownOn = false) ∧
    (∃ (s : State),
    s.dev.crownOn = true) ∧
    (∃ (r : Nat) (s : State),
    s.dev.mayAnswer ∧ r ∉ crownRates) ∧
    (∃ (i : Nat) (s : State),
    s.dev.mayAnswer ∧ i < 4 ∧ s.dev.crown.txNext < 256) ∧
    (∃ (s : State),
    s.dev.mayAnswer ∧ s.dev.boot.phase = .recovery) ∧
    (∃ (ms : Nat) (s : State),
    s.dev.mayAnswer ∧ s.dev.boot.phase = .released ∧ ms < 2 ^ 64) ∧
    (∃ (s : State),
    s.dev.mayAnswer) ∧
    (∃ (n : Nat) (s : State),
    s.dev.mayAnswer ∧ (n = 0 ∨ 64 < n)) ∧
    (∃ (n : Nat) (s : State),
    s.dev.mayAnswer ∧ 0 < n ∧ n ≤ 64) ∧
    (∃ (s : State),
    s.dev.mayAnswer ∧ s.dev.crown.txNext < 256) :=
  ⟨⟨(⟨({} : Device), []⟩ : State), by decide +kernel⟩,
   ⟨(⟨(mk [fun d => { d with boot := { d.boot with phase := .released } }]), []⟩ : State), by decide +kernel⟩,
   ⟨(0 : Nat), (⟨(mk [fun d => { d with boot := { d.boot with phase := .released } }]), []⟩ : State), by unfold Device.mayAnswer; decide +kernel⟩,
   ⟨(0 : Nat), (⟨(mk [fun d => { d with boot := { d.boot with phase := .released } }]), []⟩ : State), by unfold Device.mayAnswer; decide +kernel⟩,
   ⟨(⟨(mk [fun d => { d with boot := { d.boot with phase := .released } }, fun d => { d with boot := { d.boot with phase := .recovery } }]), []⟩ : State), by unfold Device.mayAnswer; decide +kernel⟩,
   ⟨(0 : Nat), (⟨(mk [fun d => { d with boot := { d.boot with phase := .released } }, fun d => { d with boot := { d.boot with phase := .released } }]), []⟩ : State), by unfold Device.mayAnswer; decide +kernel⟩,
   ⟨(⟨(mk [fun d => { d with boot := { d.boot with phase := .released } }]), []⟩ : State), by unfold Device.mayAnswer; decide +kernel⟩,
   ⟨(0 : Nat), (⟨(mk [fun d => { d with boot := { d.boot with phase := .released } }]), []⟩ : State), by unfold Device.mayAnswer; decide +kernel⟩,
   ⟨(64 : Nat), (⟨(mk [fun d => { d with boot := { d.boot with phase := .released } }]), []⟩ : State), by unfold Device.mayAnswer; decide +kernel⟩,
   ⟨(⟨(mk [fun d => { d with boot := { d.boot with phase := .released } }]), []⟩ : State), by unfold Device.mayAnswer; decide +kernel⟩⟩

theorem witness_FirmwareUpdatesGoThroughTheirStages :
    (∃ (s : State),
    s.dev.mayAnswer ∧ s.dev.boot.long ≠ .none) ∧
    (∃ (len : Nat) (s : State),
    s.dev.mayAnswer ∧ s.dev.boot.long = .none ∧ s.dev.brec.stage = 0 ∧ 4096 ≤ len ∧ len ≤ 8388608 ∧ len % 16 = 0) ∧
    (∃ (len : Nat) (s : State),
    s.dev.mayAnswer ∧ s.dev.boot.long = .none ∧ s.dev.brec.stage = 0 ∧ (len < 4096 ∨ 8388608 < len ∨ len % 16 ≠ 0)) ∧
    (∃ (len : Nat) (ident : Nat) (s : State),
    s.dev.mayAnswer ∧ s.dev.boot.long = .none ∧ s.dev.resumable len ident = true) ∧
    (∃ (s : State),
    s.dev.mayAnswer ∧ s.dev.brec.stage ≠ 1) ∧
    (∃ (k : Nat) (s : State),
    s.dev.mayAnswer ∧ s.dev.brec.stage = 1 ∧ k ≠ s.dev.nor.journal.length) ∧
    (∃ (s : State),
    s.dev.mayAnswer ∧ s.dev.brec.stage = 1) ∧
    (∃ (v : Nat) (s : State),
    s.dev.mayAnswer ∧ s.dev.brec.stage = 1 ∧ v < 2 ^ 32768) ∧
    (∃ (v : Nat) (s : State),
    s.dev.mayAnswer ∧ s.dev.brec.stage = 1 ∧ v < 2 ^ 32768) ∧
    (∃ (s : State),
    s.dev.mayAnswer ∧ s.dev.boot.long = .none ∧ s.dev.brec.stage ≠ 2) ∧
    (∃ (s : State),
    s.dev.mayAnswer ∧ s.dev.boot.long = .none ∧ s.dev.brec.stage = 2) ∧
    (∃ (s : State),
    s.dev.boot.long ≠ .verify) ∧
    (∃ (s : State),
    s.dev.boot.long = .verify ∧ s.dev.brec.stage = 2) ∧
    (∃ (s : State),
    s.dev.mayAnswer ∧ s.dev.boot.long = .none ∧ s.dev.brec.stage ≠ 3) ∧
    (∃ (s : State),
    s.dev.mayAnswer ∧ s.dev.boot.phase = .released ∧ s.dev.boot.long = .none ∧ s.dev.brec.stage = 3 ∧ s.dev.brec.active < 2) ∧
    (∃ (s : State),
    s.dev.boot.long ≠ .copy) ∧
    (∃ (s : State),
    s.dev.boot.phase = .released ∧ s.dev.boot.long = .copy ∧ s.dev.brec.active < 2) ∧
    (∃ (s : State),
    s.dev.mayAnswer ∧ s.dev.boot.phase = .recovery) ∧
    (∃ (w : Nat) (s : State),
    s.dev.mayAnswer ∧ s.dev.boot.phase = .released ∧ s.dev.brec.stage = 5 ∧ (w = 0 ∨ 600 < w)) ∧
    (∃ (e : Nat) (w : Nat) (s : State),
    s.dev.mayAnswer ∧ s.dev.boot.phase = .released ∧ s.dev.brec.stage = 5 ∧ 0 < w ∧ w ≤ 600 ∧ e < 2 ^ 64) ∧
    (∃ (s : State),
    s.dev.mayAnswer ∧ (s.dev.brec.stage = 5 ∨ s.dev.brec.stage = 6) ∧ s.dev.boot.act = .none) ∧
    (∃ (s : State),
    s.dev.mayAnswer ∧ (s.dev.brec.stage = 1 ∨ s.dev.brec.stage = 2)) ∧
    (∃ (s : State),
    s.dev.mayAnswer ∧ (s.dev.brec.stage = 0 ∨ s.dev.brec.stage = 3 ∨ s.dev.brec.stage = 7)) ∧
    (∃ (s : State),
    s.dev.mayAnswer) :=
  ⟨⟨(⟨(mk [fun d => { d with boot := { d.boot with phase := .released } }, fun d => { d with boot := { d.boot with long := .verify } }]), []⟩ : State), by unfold Device.mayAnswer; decide +kernel⟩,
   ⟨(8388608 : Nat), (⟨(mk [fun d => { d with boot := { d.boot with phase := .released } }, fun d => { d with boot := { d.boot with long := .none } }]), []⟩ : State), by unfold Device.mayAnswer; decide +kernel⟩,
   ⟨(0 : Nat), (⟨(mk [fun d => { d with boot := { d.boot with phase := .released } }, fun d => { d with boot := { d.boot with long := .none } }]), []⟩ : State), by unfold Device.mayAnswer; decide +kernel⟩,
   ⟨(8192 : Nat), (7 : Nat), (⟨(mk [fun d => { d with boot := { d.boot with phase := .released } }, fun d => { d with boot := { d.boot with long := .none } }, fun d => d.writeRec { brec0 with stage := 1, stagedLen := 8192, stagedId := 7 }, fun d => { d with nor := { d.nor with journal := [(0, crc32cNum 4096 5)], staging := [(0, 5)] } }]), []⟩ : State), by unfold Device.mayAnswer; decide +kernel⟩,
   ⟨(⟨(mk [fun d => { d with boot := { d.boot with phase := .released } }]), []⟩ : State), by unfold Device.mayAnswer; decide +kernel⟩,
   ⟨(1 : Nat), (⟨(mk [fun d => { d with boot := { d.boot with phase := .released } }, fun d => d.writeRec { brec0 with stage := 1, stagedLen := 8192, stagedId := 7 }]), []⟩ : State), by unfold Device.mayAnswer; decide +kernel⟩,
   ⟨(⟨(mk [fun d => { d with boot := { d.boot with phase := .released } }, fun d => d.writeRec { brec0 with stage := 1, stagedLen := 8192, stagedId := 7 }]), []⟩ : State), by unfold Device.mayAnswer; decide +kernel⟩,
   ⟨(0 : Nat), (⟨(mk [fun d => { d with boot := { d.boot with phase := .released } }, fun d => d.writeRec { brec0 with stage := 1, stagedLen := 8192, stagedId := 7 }]), []⟩ : State), by unfold Device.mayAnswer; decide +kernel⟩,
   ⟨(0 : Nat), (⟨(mk [fun d => { d with boot := { d.boot with phase := .released } }, fun d => d.writeRec { brec0 with stage := 1, stagedLen := 4096, stagedId := 7 }]), []⟩ : State), by unfold Device.mayAnswer; decide +kernel⟩,
   ⟨(⟨(mk [fun d => { d with boot := { d.boot with phase := .released } }, fun d => { d with boot := { d.boot with long := .none } }]), []⟩ : State), by unfold Device.mayAnswer; decide +kernel⟩,
   ⟨(⟨(mk [fun d => { d with boot := { d.boot with phase := .released } }, fun d => { d with boot := { d.boot with long := .none } }, fun d => d.writeRec { brec0 with stage := 2 }]), []⟩ : State), by unfold Device.mayAnswer; decide +kernel⟩,
   ⟨(⟨({} : Device), []⟩ : State), by decide +kernel⟩,
   ⟨(⟨(mk [fun d => { d with boot := { d.boot with long := .verify } }, fun d => d.writeRec { brec0 with stage := 2 }]), []⟩ : State), by decide +kernel⟩,
   ⟨(⟨(mk [fun d => { d with boot := { d.boot with phase := .released } }, fun d => { d with boot := { d.boot with long := .none } }]), []⟩ : State), by unfold Device.mayAnswer; decide +kernel⟩,
   ⟨(⟨(mk [fun d => { d with boot := { d.boot with phase := .released } }, fun d => { d with boot := { d.boot with phase := .released } }, fun d => { d with boot := { d.boot with long := .none } }, fun d => d.writeRec { brec0 with stage := 3 }]), []⟩ : State), by unfold Device.mayAnswer; decide +kernel⟩,
   ⟨(⟨({} : Device), []⟩ : State), by decide +kernel⟩,
   ⟨(⟨(mk [fun d => { d with boot := { d.boot with phase := .released } }, fun d => { d with boot := { d.boot with long := .copy } }]), []⟩ : State), by decide +kernel⟩,
   ⟨(⟨(mk [fun d => { d with boot := { d.boot with phase := .released } }, fun d => { d with boot := { d.boot with phase := .recovery } }]), []⟩ : State), by unfold Device.mayAnswer; decide +kernel⟩,
   ⟨(0 : Nat), (⟨(mk [fun d => { d with boot := { d.boot with phase := .released } }, fun d => { d with boot := { d.boot with phase := .released } }, fun d => d.writeRec { brec0 with stage := 5 }]), []⟩ : State), by unfold Device.mayAnswer; decide +kernel⟩,
   ⟨(0 : Nat), (600 : Nat), (⟨(mk [fun d => { d with boot := { d.boot with phase := .released } }, fun d => { d with boot := { d.boot with phase := .released } }, fun d => d.writeRec { brec0 with stage := 5 }]), []⟩ : State), by unfold Device.mayAnswer; decide +kernel⟩,
   ⟨(⟨(mk [fun d => { d with boot := { d.boot with phase := .released } }, fun d => { d with boot := { d.boot with act := .none } }, fun d => d.writeRec { brec0 with stage := 6 }]), []⟩ : State), by unfold Device.mayAnswer; decide +kernel⟩,
   ⟨(⟨(mk [fun d => { d with boot := { d.boot with phase := .released } }, fun d => d.writeRec { brec0 with stage := 2 }]), []⟩ : State), by unfold Device.mayAnswer; decide +kernel⟩,
   ⟨(⟨(mk [fun d => { d with boot := { d.boot with phase := .released } }]), []⟩ : State), by unfold Device.mayAnswer; decide +kernel⟩,
   ⟨(⟨(mk [fun d => { d with boot := { d.boot with phase := .released } }]), []⟩ : State), by unfold Device.mayAnswer; decide +kernel⟩⟩

theorem witness_CalibreKeysAndStoreOverTheCrownPort :
    (∃ (o : Nat) (n : Nat) (s : State),
    s.dev.mayAnswer ∧ (o % 4096 ≠ 0 ∨ 65536 ≤ o ∨ n = 0 ∨ 4096 < n)) ∧
    (∃ (k : Nat) (n : Nat) (s : State),
    s.dev.mayAnswer ∧ k < 16 ∧ 0 < n ∧ n ≤ 4096) ∧
    (∃ (s : State),
    s.dev.mayAnswer ∧ s.dev.boot.long ≠ .none) ∧
    (∃ (v : Option Verdict) (s : State),
    s.dev.mayAnswer ∧ s.dev.boot.long = .none ∧ s.dev.calBufCode v ≠ 0) ∧
    (∃ (c : Nat) (v : Option Verdict) (rs : List (Nat × Nat × Nat)) (s : State),
    s.dev.mayAnswer ∧ s.dev.boot.long = .none ∧ s.dev.calBufCode v = 0 ∧ calRecords s.dev.boot.calBuf = .ok rs ∧ s.dev.rd CB_STATUS_SOURCE = 0 ∧ c < 2) ∧
    (∃ (v : Option Verdict) (rs : List (Nat × Nat × Nat)) (t : Nat) (s : State),
    s.dev.mayAnswer ∧ s.dev.boot.long = .none ∧ s.dev.calBufCode v = 0 ∧ calRecords s.dev.boot.calBuf = .ok rs ∧ s.dev.rd CB_STATUS_SOURCE ≠ 0 ∧ s.dev.boot.straps.factory = false ∧ s.dev.fixedDiff s.dev.boot.calBuf rs = some t) ∧
    (∃ (c : Nat) (o : Nat) (n : Nat) (s : State),
    s.dev.mayAnswer ∧ (1 < c ∨ 4096 < n ∨ 65536 < o + n)) ∧
    (∃ (c : Nat) (o : Nat) (n : Nat) (s : State),
    s.dev.mayAnswer ∧ c < 2 ∧ n ≤ 4096 ∧ o + n ≤ 65536) ∧
    (∃ (m : List Nat) (s : State),
    s.dev.mayAnswer ∧ s.dev.boot.phase = .released ∧ (m.length ≠ 16 ∨ m.take 4 ≠ [0x47, 0x52, 0x45, 0x56] ∨ 3 < m.getD 4 0)) ∧
    (∃ (t : Nat) (k : Nat) (s : State),
    s.dev.mayAnswer ∧ s.dev.boot.phase = .released ∧ t < 4 ∧ (k = t ∨ s.dev.otp.usable k = false)) ∧
    (∃ (t : Nat) (k : Nat) (s : State),
    s.dev.mayAnswer ∧ s.dev.boot.phase = .released ∧ t < 4 ∧ k ≠ t ∧ s.dev.otp.usable k = true ∧ s.dev.otp.bad = false ∧ s.dev.revokeRefused t = false) ∧
    (∃ (t : Nat) (k : Nat) (s : State),
    s.dev.mayAnswer ∧ s.dev.boot.phase = .released ∧ t < 4 ∧ k ≠ t ∧ s.dev.otp.usable k = true ∧ s.dev.otp.bad = false ∧ s.dev.revokeRefused t = true) ∧
    (∃ (s : State),
    s.dev.mayAnswer ∧ s.dev.boot.phase = .released ∧ s.dev.boot.long = .none) ∧
    (∃ (s : State),
    (s.dev.boot.long = .none ∨ s.dev.boot.long = .verify ∨ s.dev.boot.long = .copy)) ∧
    (∃ (s : State),
    s.dev.boot.long = .storeRecover 0) ∧
    (∃ (s : State),
    s.dev.boot.long = .storeRecover 1) :=
  ⟨⟨(0 : Nat), (0 : Nat), (⟨(mk [fun d => { d with boot := { d.boot with phase := .released } }]), []⟩ : State), by unfold Device.mayAnswer; decide +kernel⟩,
   ⟨(0 : Nat), (4096 : Nat), (⟨(mk [fun d => { d with boot := { d.boot with phase := .released } }]), []⟩ : State), by unfold Device.mayAnswer; decide +kernel⟩,
   ⟨(⟨(mk [fun d => { d with boot := { d.boot with phase := .released } }, fun d => { d with boot := { d.boot with long := .verify } }]), []⟩ : State), by unfold Device.mayAnswer; decide +kernel⟩,
   ⟨(none : Option Verdict), (⟨(mk [fun d => { d with boot := { d.boot with phase := .released } }, fun d => { d with boot := { d.boot with long := .none } }]), []⟩ : State), by unfold Device.mayAnswer; decide +kernel⟩,
   ⟨(0 : Nat), (some .valid : Option Verdict), ([(1, 36, 4), (2, 44, 8), (3, 56, 4), (4, 64, 4), (5, 72, 4), (6, 80, 4), (7, 88, 4), (8, 96, 4), (9, 104, 4), (10, 112, 4), (11, 120, 4), (12, 128, 4), (13, 136, 4), (14, 144, 60), (15, 208, 8)] : List (Nat × Nat × Nat)), (⟨(mk [fun d => { d with boot := { d.boot with phase := .released } }, fun d => { d with boot := { d.boot with long := .none } }, fun d => d.wr CB_STATUS_SOURCE 0, fun d => { d with otp := { d.otp with keyMatch := 1 }, boot := { d.boot with calBuf := calImg0 } }]), []⟩ : State), by unfold Device.mayAnswer; decide +kernel⟩,
   ⟨(some .valid : Option Verdict), ([(1, 36, 4), (2, 44, 8), (3, 56, 4), (4, 64, 4), (5, 72, 4), (6, 80, 4), (7, 88, 4), (8, 96, 4), (9, 104, 4), (10, 112, 4), (11, 120, 4), (12, 128, 4), (13, 136, 4), (14, 144, 60), (15, 208, 8)] : List (Nat × Nat × Nat)), (1 : Nat), (⟨(mk [fun d => { d with boot := { d.boot with phase := .released } }, fun d => { d with boot := { d.boot with long := .none } }, fun d => d.wr CB_STATUS_SOURCE 1, fun d => { d with otp := { d.otp with keyMatch := 1 }, boot := { d.boot with calBuf := calImg0 } }]), []⟩ : State), by unfold Device.mayAnswer; decide +kernel⟩,
   ⟨(1 + 1 : Nat), (0 : Nat), (0 : Nat), (⟨(mk [fun d => { d with boot := { d.boot with phase := .released } }]), []⟩ : State), by unfold Device.mayAnswer; decide +kernel⟩,
   ⟨(0 : Nat), (0 : Nat), (4096 : Nat), (⟨(mk [fun d => { d with boot := { d.boot with phase := .released } }]), []⟩ : State), by unfold Device.mayAnswer; decide +kernel⟩,
   ⟨([] : List Nat), (⟨(mk [fun d => { d with boot := { d.boot with phase := .released } }, fun d => { d with boot := { d.boot with phase := .released } }]), []⟩ : State), by unfold Device.mayAnswer; decide +kernel⟩,
   ⟨(0 : Nat), ((0 : Nat) : Nat), (⟨(mk [fun d => { d with boot := { d.boot with phase := .released } }, fun d => { d with boot := { d.boot with phase := .released } }]), []⟩ : State), by unfold Device.mayAnswer; decide +kernel⟩,
   ⟨(0 : Nat), (1 : Nat), (⟨(mk [fun d => { d with boot := { d.boot with phase := .released } }, fun d => { d with boot := { d.boot with phase := .released } }, fun d => { d with otp := { d.otp with bad := false } }, fun d => { d with otp := { d.otp with keyMatch := 15 } }]), []⟩ : State), by unfold Device.mayAnswer; decide +kernel⟩,
   ⟨(0 : Nat), (1 : Nat), (⟨(mk [fun d => { d with boot := { d.boot with phase := .released } }, fun d => { d with boot := { d.boot with phase := .released } }, fun d => { d with otp := { d.otp with bad := false } }, fun d => { d with otp := { d.otp with keyMatch := 15 }, nor := { d.nor with slotA := fwImg0 } }]), []⟩ : State), by unfold Device.mayAnswer; decide +kernel⟩,
   ⟨(⟨(mk [fun d => { d with boot := { d.boot with phase := .released } }, fun d => { d with boot := { d.boot with phase := .released } }, fun d => { d with boot := { d.boot with long := .none } }]), []⟩ : State), by unfold Device.mayAnswer; decide +kernel⟩,
   ⟨(⟨(mk [fun d => { d with boot := { d.boot with long := .none } }]), []⟩ : State), by decide +kernel⟩,
   ⟨(⟨(mk [fun d => { d with boot := { d.boot with long := .storeRecover 0 } }]), []⟩ : State), by decide +kernel⟩,
   ⟨(⟨(mk [fun d => { d with boot := { d.boot with long := .storeRecover 1 } }]), []⟩ : State), by decide +kernel⟩⟩

theorem witness_ActivationsDrainSwitchAndAreConfirmed :
    (∃ (s : State),
    (s.dev.boot.phase ≠ .released ∨ s.dev.power.retain ≠ .out ∨ s.dev.brec.stage ≠ 6 ∨ s.dev.boot.act ≠ .none ∨ s.dev.hostMs < s.dev.brec.epoch ∨ s.dev.brec.epoch + 1000 * s.dev.brec.window < s.dev.hostMs)) ∧
    (∃ (s : State),
    s.dev.boot.phase = .released ∧ s.dev.power.retain = .out ∧ s.dev.brec.stage = 6 ∧ s.dev.boot.act = .none ∧ s.dev.brec.epoch ≤ s.dev.hostMs ∧ s.dev.hostMs ≤ s.dev.brec.epoch + 1000 * s.dev.brec.window) ∧
    (∃ (s : State),
    (s.dev.boot.act ≠ .draining ∨ s.dev.inFlight ≠ 0)) ∧
    (∃ (o : ImageObs) (n : Nat) (s : State),
    s.dev.boot.act = .draining ∧ s.dev.inFlight = 0 ∧ s.dev.brec.pending = some n ∧ s.dev.imageCode (s.dev.fwSlot n) o ≠ 0) ∧
    (∃ (o : ImageObs) (n : Nat) (s : State),
    s.dev.boot.act = .draining ∧ s.dev.inFlight = 0 ∧ s.dev.brec.pending = some n ∧ s.dev.imageCode (s.dev.fwSlot n) o = 0) ∧
    (∃ (s : State),
    (s.dev.boot.act ≠ .draining ∨ s.dev.inFlight = 0 ∨ s.dev.chron.chr < s.dev.boot.actAt + 2000000)) ∧
    (∃ (s : State),
    s.dev.boot.act = .draining ∧ s.dev.inFlight ≠ 0 ∧ s.dev.boot.actAt + 2000000 ≤ s.dev.chron.chr) ∧
    (∃ (s : State),
    (s.dev.boot.act ≠ .switching ∨ s.dev.brec.pending = none)) ∧
    (∃ (n : Nat) (s : State),
    s.dev.boot.act = .switching ∧ s.dev.brec.pending = some n ∧ n < 2) ∧
    (∃ (s : State),
    (s.dev.brec.stage ≠ 6 ∨ s.dev.boot.act ≠ .none ∨ s.dev.hostMs ≤ s.dev.brec.epoch + 1000 * s.dev.brec.window)) ∧
    (∃ (s : State),
    s.dev.brec.stage = 6 ∧ s.dev.boot.act = .none ∧ s.dev.brec.epoch + 1000 * s.dev.brec.window < s.dev.hostMs) ∧
    (∃ (s : State),
    s.dev.bit RG_BOOTSTAT_PROBATION = false) ∧
    (∃ (s : State),
    s.dev.bit RG_BOOTSTAT_PROBATION = false) ∧
    (∃ (s : State),
    s.dev.bit RG_BOOTSTAT_PROBATION = true) ∧
    (∃ (s : State),
    s.dev.bit RG_BOOTSTAT_PROBATION = true ∧ s.dev.brec.prun + s.dev.boot.probationUs / 1000000 < 1800) ∧
    (∃ (s : State),
    s.dev.bit RG_BOOTSTAT_PROBATION = true ∧ 1800 ≤ s.dev.brec.prun + s.dev.boot.probationUs / 1000000 ∧ s.dev.aon.heldCause = none) ∧
    (∃ (n : Nat) (s : State),
    s.dev.bit RG_BOOTSTAT_PROBATION = true ∧ s.dev.brec.pending = some n ∧ imgSvn (s.dev.fwSlot n) < 2 ^ RG_BOOTSTAT_SVN.n) :=
  ⟨⟨(⟨({} : Device), []⟩ : State), by decide +kernel⟩,
   ⟨(⟨(mk [fun d => { d with boot := { d.boot with phase := .released } }, fun d => { d with power := { d.power with retain := .out } }, fun d => { d with boot := { d.boot with act := .none } }, fun d => d.writeRec { brec0 with stage := 6, epoch := 0, window := 1 }]), []⟩ : State), by decide +kernel⟩,
   ⟨(⟨({} : Device), []⟩ : State), by decide +kernel⟩,
   ⟨({} : ImageObs), (1 : Nat), (⟨(mk [fun d => { d with boot := { d.boot with act := .draining } }, fun d => d.writeRec { brec0 with stage := 6, pending := some 1 }]), []⟩ : State), by decide +kernel⟩,
   ⟨({ signature := true, gcm := true } : ImageObs), (1 : Nat), (⟨(mk [fun d => { d with boot := { d.boot with act := .draining } }, fun d => d.writeRec { brec0 with stage := 6, pending := some 1 }, fun d => { d with otp := { d.otp with keyMatch := 1 }, nor := { d.nor with slotB := fwImg0 } }]), []⟩ : State), by decide +kernel⟩,
   ⟨(⟨({} : Device), []⟩ : State), by decide +kernel⟩,
   ⟨(⟨(mk [fun d => { d with boot := { d.boot with act := .draining } }, fun d => { d with chron := { d.chron with chr := d.boot.actAt + 2000000 } }, fun d => d.updHost fun h => { h with cmds := [cmd0] }]), []⟩ : State), by decide +kernel⟩,
   ⟨(⟨({} : Device), []⟩ : State), by decide +kernel⟩,
   ⟨(1 : Nat), (⟨(mk [fun d => { d with boot := { d.boot with act := .switching } }, fun d => d.writeRec { brec0 with stage := 6, pending := some 1 }]), []⟩ : State), by decide +kernel⟩,
   ⟨(⟨({} : Device), []⟩ : State), by decide +kernel⟩,
   ⟨(⟨(mk [fun d => { d with boot := { d.boot with act := .none } }, fun d => d.writeRec { brec0 with stage := 6, epoch := 0, window := 1 }, fun d => { d with chron := { d.chron with chr := 1001000 } }]), []⟩ : State), by decide +kernel⟩,
   ⟨(⟨(mk [fun d => d.wrB RG_BOOTSTAT_PROBATION false]), []⟩ : State), by decide +kernel⟩,
   ⟨(⟨(mk [fun d => d.wrB RG_BOOTSTAT_PROBATION false]), []⟩ : State), by decide +kernel⟩,
   ⟨(⟨(mk [fun d => d.wrB RG_BOOTSTAT_PROBATION true]), []⟩ : State), by decide +kernel⟩,
   ⟨(⟨(mk [fun d => d.wrB RG_BOOTSTAT_PROBATION true]), []⟩ : State), by decide +kernel⟩,
   ⟨(⟨(mk [fun d => d.wrB RG_BOOTSTAT_PROBATION true, fun d => { d with aon := { d.aon with heldCause := none } }, fun d => d.writeRec { brec0 with prun := 1800 }]), []⟩ : State), by decide +kernel⟩,
   ⟨(1 : Nat), (⟨(mk [fun d => d.wrB RG_BOOTSTAT_PROBATION true, fun d => d.writeRec { brec0 with pending := some 1 }, fun d => { d with nor := { d.nor with slotB := fwImg0 } }]), []⟩ : State), by decide +kernel⟩⟩

end Sys2Proof.Tests
end

section
/-!
The register access rules of R27: what REGISTER_WRITE and RC_REGISTER_READ do outside the map, at a register reached by no aligned word, and at an
unassigned offset of a block.
-/
namespace Sys2Proof.Machine

variable {who : Initiator} {a size : Nat} {v : Word} {s : State} {d e : Device}

/-! ### The map and the access check -/

theorem Device.inMap_of_inRegs (d : Device) {a : Nat} (h : inRegs a = true) : d.inMap a = true := by
  simp [Device.inMap, h]

theorem regAccessOk_eq_false_iff : regAccessOk a size = false ↔ size ≠ 4 ∨ a % 4 ≠ 0 := by
  rw [regAccessOk, Bool.and_eq_false_iff, decide_eq_false_iff_not, decide_eq_false_iff_not]

theorem regAccessOk_word {a : Nat} (h : a % 4 = 0) : regAccessOk a 4 = true := by
  simp [regAccessOk, h]

/-! ### REGISTER_WRITE -/

theorem gives_registerWrite (h : registerWriteEff who a size v s.dev = e) : Gives (.registerWrite who a size v) s e := by
  subst h; rfl

theorem registerWriteEff_outside_map (hup : d.up = true) (hmap : d.inMap a = false) :
    registerWriteEff who a size v d = d.emit (.reply none .busError) := by
  simp [registerWriteEff, hup, hmap]

theorem registerWriteEff_not_word (hup : d.up = true) (hreg : inRegs a = true) (hok : regAccessOk a size = false) :
    registerWriteEff who a size v d = d.emit (.reply none .busError) := by
  simp [registerWriteEff, hup, hreg, hok, d.inMap_of_inRegs hreg]

theorem registerWriteEff_taken (hup : d.up = true) (hreg : inRegs a = true) (ha : a % 4 = 0) (hw : d.regWrite who a v = some e) :
    registerWriteEff who a 4 v d = e.emit (.reply none .done) := by
  simp [registerWriteEff, hup, hreg, regAccessOk_word ha, d.inMap_of_inRegs hreg, hw]

theorem Device.regWrite_unassigned (hrow : rowAt a = none)
    (hsec : inSecurity a = true → d.secMayWrite who (a - 0xF0500000) = true) : d.regWrite who a v = some d := by
  have hpass : (inSecurity a && !d.secMayWrite who (a - 0xF0500000)) = false := by simpa using hsec
  simp [Device.regWrite, hpass, hrow]

/-! ### RC_REGISTER_READ -/

theorem gives_rcRegisterRead (h : registerReadEff who a size s.dev = e) : Gives (.rcRegisterRead who a size) s e := by
  subst h; rfl

theorem registerReadEff_outside_map (hup : d.up = true) (hmap : d.inMap a = false) :
    registerReadEff who a size d = d.emit (.reply none .busError) := by
  simp [registerReadEff, hup, hmap]

theorem registerReadEff_not_word (hup : d.up = true) (hreg : inRegs a = true) (hok : regAccessOk a size = false) :
    registerReadEff who a size d = d.emit (.reply none .busError) := by
  simp [registerReadEff, hup, hreg, hok, d.inMap_of_inRegs hreg]

theorem registerReadEff_word (hup : d.up = true) (hreg : inRegs a = true) (ha : a % 4 = 0) : registerReadEff who a 4 d = d.regRead who a := by
  simp [registerReadEff, hup, hreg, regAccessOk_word ha, d.inMap_of_inRegs hreg]

theorem Device.readReg_unassigned (hrow : rowAt a = none) : d.readReg who a = 0 := by
  simp [Device.readReg, hrow]

theorem Device.readEffect_unassigned (hrow : rowAt a = none) : d.readEffect who a = d := by
  simp [Device.readEffect, hrow]

/-- An address where no register stands is not that of a register: of one whose read is a command of its own, say. -/
theorem ne_of_rowAt_eq_none {a b : Nat} (hrow : rowAt a = none) (hb : (rowAt b).isSome = true) : a ≠ b := by
  rintro rfl
  simp [hrow] at hb

theorem inSecurity_of_cipher_range {a : Nat} (h : 0xF0500000 ≤ a ∧ a < 0xF0600000) : inSecurity a = true := by
  simp only [inSecurity, Bool.or_eq_true, Bool.and_eq_true, decide_eq_true_eq]
  omega

theorem eq_base_add_of_laneAt {a o : Nat} {l : Lane} (h : laneAt a = some (l, o)) : a = l.base + o := by
  unfold laneAt at h
  split_ifs at h <;> cases h <;> simp only [Lane.base, Lane.idx] <;> omega

theorem base_add_eq_of_seqAt {l : Lane} {o e : Nat} {q : SeqId} (h : seqAt l o = some (q, e)) : l.base + o = q.base + e := by
  unfold seqAt at h
  split_ifs at h <;> cases h <;> simp only [SeqId.base, if_true, Bool.false_eq_true, if_false] <;> omega

theorem rowAt_ecCpl_isSome (q : SeqId) : (rowAt (EC_CPL q 3)).isSome = true := by
  obtain ⟨l, second⟩ := q
  cases l <;> cases second <;> decide

/-- No unassigned address is EC_CPL's last word, whose read pops a completion. -/
theorem seqAt_ne_of_rowAt_eq_none {a o : Nat} {l : Lane} (hrow : rowAt a = none) (hl : laneAt a = some (l, o)) (q : SeqId) :
    seqAt l o ≠ some (q, 0x9C) := fun hq =>
  ne_of_rowAt_eq_none hrow (rowAt_ecCpl_isSome q) ((eq_base_add_of_laneAt hl).trans (base_add_eq_of_seqAt hq))

theorem Device.regRead_unassigned (hrow : rowAt a = none)
    (hsec : inSecurity a = true → who ≠ .jtag ∧ d.secMayRead who (a - 0xF0500000) = true) :
    d.regRead who a = d.emit (.reply none (.data 0)) := by
  have hpass : (inSecurity a && !d.secMayRead who (a - 0xF0500000)) = false := by
    simpa using fun h => (hsec h).2
  have hjtag : ¬(who = .jtag ∧ 0xF0500000 ≤ a ∧ a < 0xF0600000) := fun ⟨hwho, hrange⟩ =>
    (hsec (inSecurity_of_cipher_range hrange)).1 hwho
  have hseql : a ≠ HS_STORE_SEQL := ne_of_rowAt_eq_none hrow (by decide)
  have hhcpl : a ≠ CX_HCPL 1 := ne_of_rowAt_eq_none hrow (by decide)
  have hscpl : a ≠ CX_SCPL 1 := ne_of_rowAt_eq_none hrow (by decide)
  simp only [Device.regRead, hpass, hjtag, hseql, hhcpl, hscpl, readReg_unassigned hrow, readEffect_unassigned hrow,
    Bool.false_eq_true, if_false]
  split
  · rfl
  · split
    next l o hl =>
      split
      next q hq => exact absurd hq (seqAt_ne_of_rowAt_eq_none hrow hl q)
      next => rfl
    next => rfl

/-! ### FABRIC_REQUEST -/

theorem fabricRequestEff_target_outside_map {id : Nat} {who : Requester} {u : Bool} {t : Target} {a : Nat} {acc : Access}
    {par : Option ParityField} {d : Device} (hmap : d.inMap a = false) :
    fabricRequestEff id who u (.target t) a acc par d = d.emit (.reply (some id) .busError) := by
  simp [fabricRequestEff, hmap]

theorem gives_fabricRequest {id : Nat} {who : Requester} {u : Bool} {p : ContPoint} {a : Nat} {acc : Access}
    {par : Option ParityField} {s : State} {e : Device} (h : fabricRequestEff id who u p a acc par s.dev = e) :
    Gives (.fabricRequest id who u p a acc par) s e := by
  subst h; rfl

end Sys2Proof.Machine

open Sys2Proof Sys2Proof.Machine

/-- Settles O9: each clause is the rule of its command in its case of R27. -/
theorem registerAccessesAreAlignedWordsInTheMap : Obligations.RegisterAccessesAreAlignedWordsInTheMap := by
  unfold Obligations.RegisterAccessesAreAlignedWordsInTheMap
  refine ⟨?_, ?_, ?_, ?_, ?_, ?_, ?_⟩
  · intro s who a size v hup hreg hbad
    exact gives_registerWrite (registerWriteEff_not_word hup hreg (regAccessOk_eq_false_iff.2 hbad))
  · intro s who a size hup hreg hbad
    exact gives_rcRegisterRead (registerReadEff_not_word hup hreg (regAccessOk_eq_false_iff.2 hbad))
  · intro s who a size v hup hmap
    exact gives_registerWrite (registerWriteEff_outside_map hup hmap)
  · intro s who a size hup hmap
    exact gives_rcRegisterRead (registerReadEff_outside_map hup hmap)
  · intro s id who u t a acc hmap
    exact gives_fabricRequest (fabricRequestEff_target_outside_map hmap)
  · intro s who a v hup hreg ha hrow hsec
    exact gives_registerWrite (registerWriteEff_taken hup hreg ha (Device.regWrite_unassigned hrow hsec))
  · intro s who a hup hreg ha hrow hsec
    exact gives_rcRegisterRead ((registerReadEff_word hup hreg ha).trans (Device.regRead_unassigned hrow hsec))

end

section
/-!
What a step can do, said once over all commands: it keeps every property that the command's kinds of writes keep, and it leaves the queue's rest.
-/
namespace Sys2Proof.Machine

/-- The commands whose effect the manual lets reach the fuses: key revocation, the confirmation of a boot, and the register write that confirms one. -/
def mayWriteFuses : Instr → Bool
  | .solindKeyRevoke .. | .bootconfConfirm .. | .registerWrite .. => true
  | _ => false

/-- A command keeps a property that register writes keep, that memory writes keep if the command may write memory, and that fuse writes keep if it may
write the fuses. -/
theorem exec_keeps {P : Device → Prop} {i : Instr} {s t : State} (S : Stable P) (hm : mayWriteMemory i = true → MemStable P)
    (ho : mayWriteFuses i = true → OtpStable P) (hc : P s.dev) (he : exec i s = .next t) : P t.dev := by
  cases i with
  | pllLockLoss => exact execPllLockLoss_keeps S hc he
  | fabricRequest => exact execFabricRequest_keeps (hm rfl) hc he
  | arbitrationGrant => exact execArbitrationGrant_keeps S hc he
  | servicePortForcedGrant => exact execServicePortForcedGrant_keeps S hc he
  | fabricResponseTimeout => exact execFabricResponseTimeout_keeps S hc he
  | lateResponseDiscard => exact execLateResponseDiscard_keeps S hc he
  | registerWrite => exact execRegisterWrite_keeps ⟨hm rfl, (ho rfl).otp⟩ hc he
  | rcRegisterRead => exact execRcRegisterRead_keeps S hc he
  | powerOnReset => exact execPowerOnReset_keeps (hm rfl) hc he
  | resetNAssert => exact execResetNAssert_keeps (hm rfl) hc he
  | rootPllLock => exact execRootPllLock_keeps S hc he
  | oprokCalibreVerdict => exact execOprokCalibreVerdict_keeps S hc he
  | oprokVerdictTimeout => exact execOprokVerdictTimeout_keeps S hc he
  | cbCtrlLockWrite => exact execCbCtrlLockWrite_keeps S hc he
  | dramSectionsLoaded => exact execDramSectionsLoaded_keeps S hc he
  | sramFillComplete => exact execSramFillComplete_keeps (hm rfl) hc he
  | dramTrainingComplete => exact execDramTrainingComplete_keeps S hc he
  | dramRegionFilled => exact execDramRegionFilled_keeps (hm rfl) hc he
  | perstAssert => exact execPerstAssert_keeps (hm rfl) hc he
  | perstDeassert => exact execPerstDeassert_keeps S hc he
  | linkTrained => exact execLinkTrained_keeps S hc he
  | linkDown => exact execLinkDown_keeps (hm rfl) hc he
  | configRequest => exact execConfigRequest_keeps S hc he
  | hostReadCompletionTimeout => exact execHostReadCompletionTimeout_keeps (hm rfl) hc he
  | poisonedTlp => exact execPoisonedTlp_keeps (hm rfl) hc he
  | correctableError => exact execCorrectableError_keeps S hc he
  | l12Entry => exact execL12Entry_keeps S hc he
  | l12Exit => exact execL12Exit_keeps S hc he
  | ccEnSet => exact execCcEnSet_keeps S hc he
  | controllerReady => exact execControllerReady_keeps S hc he
  | ccEnClear => exact execCcEnClear_keeps (hm rfl) hc he
  | controllerResetDrained => exact execControllerResetDrained_keeps S hc he
  | rdyClearTimeout => exact execRdyClearTimeout_keeps S hc he
  | sqTailDoorbell => exact execSqTailDoorbell_keeps S hc he
  | commandFetch => exact execCommandFetch_keeps S hc he
  | fetchResume => exact execFetchResume_keeps S hc he
  | coalescingTimeout => exact execCoalescingTimeout_keeps S hc he
  | createIoSq => exact execCreateIoSq_keeps S hc he
  | createIoCq => exact execCreateIoCq_keeps S hc he
  | deleteIoSq => exact execDeleteIoSq_keeps (hm rfl) hc he
  | deleteSqComplete => exact execDeleteSqComplete_keeps S hc he
  | deleteIoCq => exact execDeleteIoCq_keeps S hc he
  | getLogPage => exact execGetLogPage_keeps S hc he
  | identify => exact execIdentify_keeps S hc he
  | abort => exact execAbort_keeps (hm rfl) hc he
  | setFeatures => exact execSetFeatures_keeps S hc he
  | getFeatures => exact execGetFeatures_keeps S hc he
  | asyncEventRequest => exact execAsyncEventRequest_keeps S hc he
  | namespaceCreate => exact execNamespaceCreate_keeps S hc he
  | namespaceDelete => exact execNamespaceDelete_keeps S hc he
  | namespaceAttach => exact execNamespaceAttach_keeps S hc he
  | namespaceDetach => exact execNamespaceDetach_keeps S hc he
  | formatNvm => exact execFormatNvm_keeps S hc he
  | sanitizeCryptoErase => exact execSanitizeCryptoErase_keeps S hc he
  | sanitizeBlockErase => exact execSanitizeBlockErase_keeps S hc he
  | sanitizeOverwrite => exact execSanitizeOverwrite_keeps S hc he
  | formatSanitizeStart => exact execFormatSanitizeStart_keeps (hm rfl) hc he
  | progressRecord => exact execProgressRecord_keeps S hc he
  | eraseOperationComplete => exact execEraseOperationComplete_keeps S hc he
  | read => exact execRead_keeps (hm rfl) hc he
  | verify => exact execVerify_keeps (hm rfl) hc he
  | write => exact execWrite_keeps (hm rfl) hc he
  | writeZeroes => exact execWriteZeroes_keeps (hm rfl) hc he
  | datasetManagement => exact execDatasetManagement_keeps S hc he
  | flush => exact execFlush_keeps S hc he
  | flushComplete => exact execFlushComplete_keeps (hm rfl) hc he
  | zoneAppend => exact execZoneAppend_keeps (hm rfl) hc he
  | zoneMgmtReceive => exact execZoneMgmtReceive_keeps S hc he
  | zoneReportReady => exact execZoneReportReady_keeps (hm rfl) hc he
  | zoneClose => exact execZoneClose_keeps (hm rfl) hc he
  | zoneFinish => exact execZoneFinish_keeps (hm rfl) hc he
  | zoneOpen => exact execZoneOpen_keeps (hm rfl) hc he
  | zoneReset => exact execZoneReset_keeps (hm rfl) hc he
  | zoneOffline => exact execZoneOffline_keeps (hm rfl) hc he
  | reservationRegister => exact execReservationRegister_keeps (hm rfl) hc he
  | reservationReport => exact execReservationReport_keeps (hm rfl) hc he
  | reservationAcquire => exact execReservationAcquire_keeps (hm rfl) hc he
  | reservationRelease => exact execReservationRelease_keeps (hm rfl) hc he
  | miReadDataStructure => exact execMiReadDataStructure_keeps S hc he
  | miSubsystemHealthPoll => exact execMiSubsystemHealthPoll_keeps S hc he
  | miControllerHealthPoll => exact execMiControllerHealthPoll_keeps S hc he
  | miConfigGet => exact execMiConfigGet_keeps S hc he
  | miConfigSet => exact execMiConfigSet_keeps S hc he
  | miTunnelIdentify => exact execMiTunnelIdentify_keeps S hc he
  | miTunnelGetLogPage => exact execMiTunnelGetLogPage_keeps S hc he
  | miTunnelGetFeatures => exact execMiTunnelGetFeatures_keeps S hc he
  | miBasicManagement => exact execMiBasicManagement_keeps S hc he
  | miUnsupportedRequest => exact execMiUnsupportedRequest_keeps S hc he
  | miForcePowerState => exact execMiForcePowerState_keeps S hc he
  | forceDrainExpire => exact execForceDrainExpire_keeps (hm rfl) hc he
  | apstIdleTimeout => exact execApstIdleTimeout_keeps S hc he
  | apstTickBoundaryStep => exact execApstTickBoundaryStep_keeps S hc he
  | tempThresholdEval => exact execTempThresholdEval_keeps S hc he
  | pullPoint => exact execPullPoint_keeps (hm rfl) hc he
  | pullComplete => exact execPullComplete_keeps (hm rfl) hc he
  | pullMissed => exact execPullMissed_keeps S hc he
  | forwardCopy => exact execForwardCopy_keeps (hm rfl) hc he
  | pageUnpin => exact execPageUnpin_keeps (hm rfl) hc he
  | forwardReread => exact execForwardReread_keeps (hm rfl) hc he
  | unitDurable => exact execUnitDurable_keeps (hm rfl) hc he
  | journalFlushTimer => exact execJournalFlushTimer_keeps S hc he
  | journalSectorCommitted => exact execJournalSectorCommitted_keeps (hm rfl) hc he
  | checkpointStart => exact execCheckpointStart_keeps S hc he
  | checkpointComplete => exact execCheckpointComplete_keeps S hc he
  | mapRebuild => exact execMapRebuild_keeps S hc he
  | rebuildComplete => exact execRebuildComplete_keeps S hc he
  | chunkPageLoad => exact execChunkPageLoad_keeps S hc he
  | bandVerify => exact execBandVerify_keeps S hc he
  | gcMove => exact execGcMove_keeps S hc he
  | moveDurable => exact execMoveDurable_keeps (hm rfl) hc he
  | hsStoreSeqlRead => exact execHsStoreSeqlRead_keeps S hc he
  | readGateOpen => exact execReadGateOpen_keeps S hc he
  | sectorCaptureComplete => exact execSectorCaptureComplete_keeps S hc he
  | ldpcAttemptComplete => exact execLdpcAttemptComplete_keeps S hc he
  | stripeSolveComplete => exact execStripeSolveComplete_keeps S hc he
  | stripeStart => exact execStripeStart_keeps S hc he
  | chStop => exact execChStop_keeps S hc he
  | hzselLoad => exact execHzselLoad_keeps S hc he
  | adaptationEntryFetched => exact execAdaptationEntryFetched_keeps (hm rfl) hc he
  | sectorBoundary => exact execSectorBoundary_keeps S hc he
  | offsetAsymStep => exact execOffsetAsymStep_keeps S hc he
  | afeTempCorrection => exact execAfeTempCorrection_keeps S hc he
  | counterFlush => exact execCounterFlush_keeps (hm rfl) hc he
  | eltikWordReceive => exact execEltikWordReceive_keeps S hc he
  | eltikHeartbeat => exact execEltikHeartbeat_keeps S hc he
  | eltikLinkDown => exact execEltikLinkDown_keeps S hc he
  | elkRetrain l => exact execElkRetrain_keeps (a0 := l) S hc he
  | eltikTrainComplete => exact execEltikTrainComplete_keeps S hc he
  | eltikRetrainTimeout => exact execEltikRetrainTimeout_keeps S hc he
  | dxForceWrite => exact execDxForceWrite_keeps S hc he
  | verifyVerdict => exact execVerifyVerdict_keeps S hc he
  | verdictOverdue => exact execVerdictOverdue_keeps S hc he
  | writeSlotStart => exact execWriteSlotStart_keeps (hm rfl) hc he
  | writeRequestUrgent => exact execWriteRequestUrgent_keeps S hc he
  | sectorWriteComplete => exact execSectorWriteComplete_keeps (hm rfl) hc he
  | shockInput => exact execShockInput_keeps S hc he
  | shockInhibitRelease => exact execShockInhibitRelease_keeps S hc he
  | pesInhibitRelease => exact execPesInhibitRelease_keeps S hc he
  | wgInhWrite => exact execWgInhWrite_keeps S hc he
  | preampWriteFrame => exact execPreampWriteFrame_keeps S hc he
  | preampReadFrame => exact execPreampReadFrame_keeps S hc he
  | preampFaultPoll => exact execPreampFaultPoll_keeps S hc he
  | preampLinkRetry => exact execPreampLinkRetry_keeps S hc he
  | paCtrlEnWrite => exact execPaCtrlEnWrite_keeps S hc he
  | paCmdGo => exact execPaCmdGo_keeps S hc he
  | wselLoad => exact execWselLoad_keeps S hc he
  | writeEntryFetched => exact execWriteEntryFetched_keeps S hc he
  | bridgeReady => exact execBridgeReady_keeps S hc he
  | neighbourCheck => exact execNeighbourCheck_keeps S hc he
  | writeCalibration => exact execWriteCalibration_keeps (hm rfl) hc he
  | servoWedge => exact execServoWedge_keeps S hc he
  | beSampleLateStart => exact execBeSampleLateStart_keeps S hc he
  | beNop => exact execBeNop_keeps S hc he
  | beLda => exact execBeLda_keeps S hc he
  | beMac => exact execBeMac_keeps S hc he
  | beMsu => exact execBeMsu_keeps S hc he
  | beRnd => exact execBeRnd_keeps S hc he
  | beAdd => exact execBeAdd_keeps S hc he
  | beSub => exact execBeSub_keeps S hc he
  | beMov => exact execBeMov_keeps S hc he
  | beMul => exact execBeMul_keeps S hc he
  | beLim => exact execBeLim_keeps S hc he
  | beSel => exact execBeSel_keeps S hc he
  | beIn => exact execBeIn_keeps S hc he
  | beOut => exact execBeOut_keeps S hc he
  | beXff => exact execBeXff_keeps S hc he
  | beInt => exact execBeInt_keeps S hc he
  | beBiq => exact execBeBiq_keeps S hc he
  | beEnd => exact execBeEnd_keeps S hc he
  | beSwap => exact execBeSwap_keeps S hc he
  | swapCheckDone => exact execSwapCheckDone_keeps S hc he
  | beRunWrite => exact execBeRunWrite_keeps S hc he
  | xoutReceive => exact execXoutReceive_keeps S hc he
  | xinStale => exact execXinStale_keeps S hc he
  | svCmdLoad => exact execSvCmdLoad_keeps S hc he
  | svCmdSeek => exact execSvCmdSeek_keeps S hc he
  | svCmdUnload => exact execSvCmdUnload_keeps S hc he
  | svCmdRetract l => exact execSvCmdRetract_keeps (a0 := l) S hc he
  | svEnWrite => exact execSvEnWrite_keeps S hc he
  | svCalWrite => exact execSvCalWrite_keeps S hc he
  | loadAcquired => exact execLoadAcquired_keeps S hc he
  | loadTimeout => exact execLoadTimeout_keeps S hc he
  | servoLost => exact execServoLost_keeps S hc he
  | seekEnd => exact execSeekEnd_keeps S hc he
  | settleComplete => exact execSettleComplete_keeps S hc he
  | settleTimeout => exact execSettleTimeout_keeps S hc he
  | recoverReacquired => exact execRecoverReacquired_keeps S hc he
  | recoverTimeout => exact execRecoverTimeout_keeps S hc he
  | unloadTimeout => exact execUnloadTimeout_keeps S hc he
  | unloadStopped => exact execUnloadStopped_keeps S hc he
  | psReturnFrame => exact execPsReturnFrame_keeps S hc he
  | psKeepalive => exact execPsKeepalive_keeps S hc he
  | psCfgGo => exact execPsCfgGo_keeps S hc he
  | psCtrlEnWrite => exact execPsCtrlEnWrite_keeps S hc he
  | pwmValley => exact execPwmValley_keeps S hc he
  | pwmPeak => exact execPwmPeak_keeps S hc he
  | busConversion => exact execBusConversion_keeps S hc he
  | overvoltageFault => exact execOvervoltageFault_keeps S hc he
  | regenStop => exact execRegenStop_keeps S hc he
  | regenResume => exact execRegenResume_keeps S hc he
  | chopperOn => exact execChopperOn_keeps S hc he
  | chopperOff => exact execChopperOff_keeps S hc he
  | chopperCurrentCheck => exact execChopperCurrentCheck_keeps S hc he
  | chopperVoltageCheck => exact execChopperVoltageCheck_keeps S hc he
  | powerFailureDetect => exact execPowerFailureDetect_keeps S hc he
  | holdupEnd => exact execHoldupEnd_keeps S hc he
  | phaseCurrentFault => exact execPhaseCurrentFault_keeps S hc he
  | busCurrentFault => exact execBusCurrentFault_keeps S hc he
  | analogueLimitFault => exact execAnalogueLimitFault_keeps S hc he
  | conversionTimeout => exact execConversionTimeout_keeps S hc he
  | spCmdStart => exact execSpCmdStart_keeps S hc he
  | spCmdStop => exact execSpCmdStop_keeps S hc he
  | spCmdCoast => exact execSpCmdCoast_keeps S hc he
  | spCmdClear => exact execSpCmdClear_keeps S hc he
  | spEnWrite => exact execSpEnWrite_keeps S hc he
  | spChopTest => exact execSpChopTest_keeps S hc he
  | chopperSelfTest => exact execChopperSelfTest_keeps S hc he
  | listenEnd => exact execListenEnd_keeps S hc he
  | startAlignmentEnd => exact execStartAlignmentEnd_keeps S hc he
  | startPolarityEnd => exact execStartPolarityEnd_keeps S hc he
  | startBackwardCheck => exact execStartBackwardCheck_keeps S hc he
  | startSpeedCheck => exact execStartSpeedCheck_keeps S hc he
  | startRetryResume => exact execStartRetryResume_keeps S hc he
  | spinupTimeout => exact execSpinupTimeout_keeps S hc he
  | catchEnd => exact execCatchEnd_keeps S hc he
  | atspeedSet => exact execAtspeedSet_keeps S hc he
  | syncLoss => exact execSyncLoss_keeps S hc he
  | keAbnormal => exact execKeAbnormal_keeps S hc he
  | rotorStopped => exact execRotorStopped_keeps S hc he
  | ecPostGo => exact execEcPostGo_keeps S hc he
  | ecEnWrite => exact execEcEnWrite_keeps S hc he
  | ecDispatch => exact execEcDispatch_keeps S hc he
  | frameEntryFetched => exact execFrameEntryFetched_keeps S hc he
  | ecAbort => exact execEcAbort_keeps S hc he
  | ecRestart => exact execEcRestart_keeps S hc he
  | ecFlush => exact execEcFlush_keeps S hc he
  | ecCplPop => exact execEcCplPop_keeps S hc he
  | ecNop => exact execEcNop_keeps S hc he
  | ecLdi => exact execEcLdi_keeps S hc he
  | ecAlu => exact execEcAlu_keeps S hc he
  | ecAddi => exact execEcAddi_keeps S hc he
  | ecRdp => exact execEcRdp_keeps S hc he
  | ecWrp => exact execEcWrp_keeps S hc he
  | ecWrpi => exact execEcWrpi_keeps S hc he
  | ecJmp => exact execEcJmp_keeps S hc he
  | ecBr => exact execEcBr_keeps S hc he
  | ecMwb => exact execEcMwb_keeps S hc he
  | ecCall => exact execEcCall_keeps S hc he
  | ecRet => exact execEcRet_keeps S hc he
  | ecWait => exact execEcWait_keeps S hc he
  | waitEnd => exact execWaitEnd_keeps S hc he
  | ecSafe => exact execEcSafe_keeps S hc he
  | ecEnd => exact execEcEnd_keeps S hc he
  | stopComplete => exact execStopComplete_keeps S hc he
  | safePointDeadline => exact execSafePointDeadline_keeps S hc he
  | revLimit => exact execRevLimit_keeps S hc he
  | memoryRead => exact execMemoryRead_keeps (hm rfl) hc he
  | memoryFullWrite => exact execMemoryFullWrite_keeps (hm rfl) hc he
  | memoryNarrowWrite => exact execMemoryNarrowWrite_keeps (hm rfl) hc he
  | correctedWriteback => exact execCorrectedWriteback_keeps (hm rfl) hc he
  | scrubStep => exact execScrubStep_keeps (hm rfl) hc he
  | poolReserveRequest => exact execPoolReserveRequest_keeps S hc he
  | poolReserveGrant => exact execPoolReserveGrant_keeps S hc he
  | poolWaitTimeout => exact execPoolWaitTimeout_keeps S hc he
  | poolResWrite => exact execPoolResWrite_keeps S hc he
  | readStandbyRefill => exact execReadStandbyRefill_keeps S hc he
  | l2Clean => exact execL2Clean_keeps S hc he
  | l2Inval => exact execL2Inval_keeps S hc he
  | l2CleanInval => exact execL2CleanInval_keeps S hc he
  | l2Zline => exact execL2Zline_keeps S hc he
  | l2CleanSetway => exact execL2CleanSetway_keeps S hc he
  | l2InvalSetway => exact execL2InvalSetway_keeps S hc he
  | l2CleanInvalSetway => exact execL2CleanInvalSetway_keeps S hc he
  | l2CleanInvalAll => exact execL2CleanInvalAll_keeps S hc he
  | l2InvalAll => exact execL2InvalAll_keeps S hc he
  | l2EnWrite => exact execL2EnWrite_keeps S hc he
  | l2FillComplete => exact execL2FillComplete_keeps (hm rfl) hc he
  | l2WayDisable => exact execL2WayDisable_keeps S hc he
  | l2WayDisableDone => exact execL2WayDisableDone_keeps (hm rfl) hc he
  | l2CeWindowEnd => exact execL2CeWindowEnd_keeps S hc he
  | cipherEntryPost => exact execCipherEntryPost_keeps S hc he
  | cipherUrgentPromote => exact execCipherUrgentPromote_keeps S hc he
  | cipherMessageStart => exact execCipherMessageStart_keeps S hc he
  | cipherResume => exact execCipherResume_keeps S hc he
  | cipherMessageComplete => exact execCipherMessageComplete_keeps (hm rfl) hc he
  | cxCplPop => exact execCxCplPop_keeps S hc he
  | keyLoad => exact execKeyLoad_keeps S hc he
  | keyGenerate => exact execKeyGenerate_keeps (hm rfl) hc he
  | keyErase => exact execKeyErase_keeps S hc he
  | keyMap => exact execKeyMap_keeps S hc he
  | keyGenerationDrained => exact execKeyGenerationDrained_keeps S hc he
  | keyEraseDrained => exact execKeyEraseDrained_keeps S hc he
  | keyDrainTimeout => exact execKeyDrainTimeout_keeps S hc he
  | keyMailboxRequest => exact execKeyMailboxRequest_keeps (hm rfl) hc he
  | cxCtrlEnWrite => exact execCxCtrlEnWrite_keeps S hc he
  | jtagSecurityAccess => exact execJtagSecurityAccess_keeps S hc he
  | pmodeTargetWrite => exact execPmodeTargetWrite_keeps S hc he
  | pmTransitionBegin => exact execPmTransitionBegin_keeps S hc he
  | pmRequestTimeout => exact execPmRequestTimeout_keeps S hc he
  | pmStageEnd => exact execPmStageEnd_keeps S hc he
  | forcedQuiesceTimeout => exact execForcedQuiesceTimeout_keeps S hc he
  | retainIdleExpire => exact execRetainIdleExpire_keeps S hc he
  | retainEntry => exact execRetainEntry_keeps S hc he
  | retainSealDone => exact execRetainSealDone_keeps S hc he
  | retainTickSwitch => exact execRetainTickSwitch_keeps S hc he
  | wakePcie => exact execWakePcie_keeps S hc he
  | wakeCrownBreak => exact execWakeCrownBreak_keeps S hc he
  | wakeCrownPattern => exact execWakeCrownPattern_keeps S hc he
  | wakeCrownTimeout => exact execWakeCrownTimeout_keeps S hc he
  | wakeSmbus => exact execWakeSmbus_keeps S hc he
  | wakeAonTimer => exact execWakeAonTimer_keeps S hc he
  | retainExit => exact execRetainExit_keeps (hm rfl) hc he
  | chronometerTick => exact execChronometerTick_keeps S hc he
  | retainChronometerTick => exact execRetainChronometerTick_keeps S hc he
  | chronometerNorSave => exact execChronometerNorSave_keeps S hc he
  | usageMinuteSnapshot => exact execUsageMinuteSnapshot_keeps S hc he
  | usageSnapshotNorSave => exact execUsageSnapshotNorSave_keeps S hc he
  | diodeConversion => exact execDiodeConversion_keeps S hc he
  | diodeFail => exact execDiodeFail_keeps S hc he
  | thermistorConversion => exact execThermistorConversion_keeps S hc he
  | thermistorOutOfRange => exact execThermistorOutOfRange_keeps S hc he
  | thermistorBackInRange => exact execThermistorBackInRange_keeps S hc he
  | supplyConversion => exact execSupplyConversion_keeps S hc he
  | supplyFailure => exact execSupplyFailure_keeps S hc he
  | supplyHigh => exact execSupplyHigh_keeps S hc he
  | supplyRecoveryReset => exact execSupplyRecoveryReset_keeps (hm rfl) hc he
  | shockStuck => exact execShockStuck_keeps S hc he
  | shockUnmask => exact execShockUnmask_keeps S hc he
  | warningSet => exact execWarningSet_keeps S hc he
  | warningClear => exact execWarningClear_keeps S hc he
  | throttleSet => exact execThrottleSet_keeps S hc he
  | throttleStepRise => exact execThrottleStepRise_keeps S hc he
  | throttleStepFall => exact execThrottleStepFall_keeps S hc he
  | throttleClear => exact execThrottleClear_keeps S hc he
  | thctrlForceWrite => exact execThctrlForceWrite_keeps S hc he
  | thermalShutdown => exact execThermalShutdown_keeps S hc he
  | thermalAutoRestart => exact execThermalAutoRestart_keeps (hm rfl) hc he
  | mediaDutyWindow => exact execMediaDutyWindow_keeps S hc he
  | dutyCapReached => exact execDutyCapReached_keeps S hc he
  | referenceLadderCheck => exact execReferenceLadderCheck_keeps S hc he
  | bandgapTrim => exact execBandgapTrim_keeps S hc he
  | calreqGo => exact execCalreqGo_keeps S hc he
  | calGrant => exact execCalGrant_keeps S hc he
  | calDoneWrite => exact execCalDoneWrite_keeps S hc he
  | calGrantExpire => exact execCalGrantExpire_keeps S hc he
  | calWaitOverdue => exact execCalWaitOverdue_keeps S hc he
  | logPost => exact execLogPost_keeps S hc he
  | logbookProgram => exact execLogbookProgram_keeps S hc he
  | logbookFlushTimer => exact execLogbookFlushTimer_keeps S hc he
  | logbookMirrorCopy => exact execLogbookMirrorCopy_keeps S hc he
  | smbusClockLowTimeout => exact execSmbusClockLowTimeout_keeps S hc he
  | aonClockMissing => exact execAonClockMissing_keeps S hc he
  | crownFrameReceive => exact execCrownFrameReceive_keeps (hm rfl) hc he
  | crownInterbyteTimeout => exact execCrownInterbyteTimeout_keeps S hc he
  | crownAckReceive => exact execCrownAckReceive_keeps (hm rfl) hc he
  | crownNakReceive => exact execCrownNakReceive_keeps S hc he
  | crownRetransmitTimeout => exact execCrownRetransmitTimeout_keeps S hc he
  | baudRevertTimeout => exact execBaudRevertTimeout_keeps S hc he
  | crownWakeTimeout => exact execCrownWakeTimeout_keeps S hc he
  | solindHello => exact execSolindHello_keeps S hc he
  | solindSetBaud => exact execSolindSetBaud_keeps S hc he
  | solindSetTime => exact execSolindSetTime_keeps S hc he
  | solindStatus => exact execSolindStatus_keeps S hc he
  | solindLogRead => exact execSolindLogRead_keeps S hc he
  | solindUpdBegin => exact execSolindUpdBegin_keeps S hc he
  | solindUpdChunk => exact execSolindUpdChunk_keeps S hc he
  | solindUpdVerify => exact execSolindUpdVerify_keeps S hc he
  | updVerifyDone => exact execUpdVerifyDone_keeps S hc he
  | solindUpdCommit => exact execSolindUpdCommit_keeps S hc he
  | updCopyDone => exact execUpdCopyDone_keeps S hc he
  | solindUpdSchedule => exact execSolindUpdSchedule_keeps S hc he
  | solindUpdCancel => exact execSolindUpdCancel_keeps S hc he
  | solindUpdStatus => exact execSolindUpdStatus_keeps S hc he
  | solindCalChunk => exact execSolindCalChunk_keeps S hc he
  | solindCalCommit => exact execSolindCalCommit_keeps S hc he
  | solindCalRead => exact execSolindCalRead_keeps S hc he
  | solindKeyRevoke => exact execSolindKeyRevoke_keeps (ho rfl) hc he
  | solindStoreRecover => exact execSolindStoreRecover_keeps S hc he
  | storeRecoverDone => exact execStoreRecoverDone_keeps S hc he
  | solindReset => exact execSolindReset_keeps S hc he
  | actSyncEdge => exact execActSyncEdge_keeps S hc he
  | activationDrainDone => exact execActivationDrainDone_keeps S hc he
  | activationDrainTimeout => exact execActivationDrainTimeout_keeps S hc he
  | activationSwitchDone => exact execActivationSwitchDone_keeps S hc he
  | activationWindowExpire => exact execActivationWindowExpire_keeps S hc he
  | probationSaveTimer => exact execProbationSaveTimer_keeps S hc he
  | probationTimeout => exact execProbationTimeout_keeps (hm rfl) hc he
  | bootconfConfirm => exact execBootconfConfirm_keeps (ho rfl) hc he
  | suppliesRemoved => exact execSuppliesRemoved_keeps (hm rfl) hc he
  | l2OperationComplete => exact execL2OperationComplete_keeps (hm rfl) hc he
  | svTargetWrite => exact execSvTargetWrite_keeps S hc he

theorem step_keeps {P : Device → Prop} {s t : State} (S : FullStable P) (hc : P s.dev) (he : step s = .next t) : P t.dev := by
  unfold step at he
  split at he
  case h_1 => cases he; exact hc
  case h_2 c rest _ => exact exec_keeps (s := { s with pending := rest }) S.toStable (fun _ => S.toMemStable) (fun _ => S.toOtp) hc he

/-- A byte of memory is read from the memory's contents and the partition of SRAM alone. -/
theorem Device.memByte_congr {d e : Device} (hm : e.mem = d.mem) (hp : e.poolPages = d.poolPages) (a : Nat) : e.memByte a = d.memByte a := by
  simp only [Device.memByte, Device.pageAt, Device.sideAt, Device.page, hm, hp]

theorem mayWriteFuses_eq_false {i : Instr} (hk : ∀ m k g, i ≠ .solindKeyRevoke m k g) (hb : ∀ b, i ≠ .bootconfConfirm b)
    (hw : ∀ w a n v, i ≠ .registerWrite w a n v) : mayWriteFuses i = false := by
  unfold mayWriteFuses
  split
  · exact absurd rfl (hk _ _ _)
  · exact absurd rfl (hb _)
  · exact absurd rfl (hw _ _ _ _)
  · rfl

/-- A reset command stops under SCAN_EN and restarts the device otherwise. -/
theorem exec_reset_cases {c : Bool} {s t : State} {f : Device → Device} (he : (if c then .fault .scanTest else s.upd f) = Host.Outcome.next t) :
    t.pending = s.pending := by
  cases c <;> cases he
  rfl

theorem next_dev_pending {s t : State} {d : Device} (he : Host.Outcome.next (φ := Fault) (ρ := Refusal) { s with dev := d } = .next t) :
    t.pending = s.pending := by
  cases he
  rfl

/-- No command but the step itself touches the queue: every meaning is `State.upd` of an effect on the device, or the stop of the scan test. -/
theorem exec_pending {i : Instr} {s t : State} (he : exec i s = .next t) : t.pending = s.pending := by
  cases i
  case powerOnReset st => exact exec_reset_cases he
  case resetNAssert st => exact exec_reset_cases he
  all_goals exact next_dev_pending he

theorem step_pending {s t : State} (he : step s = .next t) : t.pending = s.pending.drop 1 := by
  unfold step at he
  split at he
  case h_1 hp => cases he; simp [hp]
  case h_2 c rest hp => rw [exec_pending he, hp]; rfl

theorem run_succ_next {M : Host.Core} {k : Nat} {s t : M.State} (he : M.run (k + 1) s = .next t) :
    ∃ u, M.step s = .next u ∧ M.run k u = .next t := by
  rw [Host.Core.run] at he
  split at he
  next u hu => exact ⟨u, hu, he⟩
  next => cases he
  next => cases he

theorem run_pending {k : Nat} {s t : State} (he : Host.Core.run core k s = .next t) : t.pending = s.pending.drop k := by
  induction k generalizing s with
  | zero => cases he; rfl
  | succ k ih =>
    obtain ⟨u, hu, hrun⟩ := run_succ_next he
    rw [ih hrun, step_pending hu, List.drop_drop, Nat.add_comm]

end Sys2Proof.Machine

open Sys2Proof Sys2Proof.Machine

/-- Settles O1: the step takes the front command off the queue. -/
theorem stepCarriesOutFrontCommand : Obligations.StepCarriesOutFrontCommand := fun _ _ => rfl

/-- Settles O2: an empty queue idles, and only the step touches the queue. -/
theorem queueOrderAndIdling : Obligations.QueueOrderAndIdling :=
  ⟨fun s hs => by simp [step, hs], fun _ _ _ => exec_pending, fun _ _ _ => run_pending⟩

/-- Settles O3: both tables are empty after reset. -/
theorem resetIsCanonical : Obligations.ResetIsCanonical := ⟨rfl, rfl⟩

/-- Settles O4: the canonical form is stable under every kind of write. -/
theorem everyStepKeepsCanonicalForm : Obligations.EveryStepKeepsCanonicalForm := fun _ _ => step_keeps Device.canon_stable

/-- Settles O5: having the memory of before is stable under the writes of a command that is not named as storing. -/
theorem onlyStoringCommandsChangeMemory : Obligations.OnlyStoringCommandsChangeMemory := by
  intro i s t hi he
  have hmem : t.dev.mem = s.dev.mem :=
    exec_keeps (Device.mem_stable s.dev.mem).toStable (by simp [hi]) (fun _ => Device.mem_stable s.dev.mem) rfl he
  exact ⟨hmem, fun hp => Device.memByte_congr hmem hp⟩

/-- Settles O6: having the fuses of before is stable under the writes of every command but those three. -/
theorem onlyRevocationAndConfirmationChangeFuses : Obligations.OnlyRevocationAndConfirmationChangeFuses := by
  intro i s t he hk hb hw
  have hf := mayWriteFuses_eq_false hk hb hw
  exact exec_keeps (Device.otp_stable s.dev.otp).toStable (fun _ => Device.otp_stable s.dev.otp) (by simp [hf]) rfl he

end

section
/-!
How a command's answer is shown: by the effect its meaning applies to the device; and how a frame is shown: by the registers' words and the memory.
-/
namespace Sys2Proof.Machine

variable {i : Instr} {s : State} {d e : Device} {rs : List Nat}

/-! ### Answers -/

/-- What the command answers, where its meaning is an effect `f` on the device. The side goal names the effect and holds by unfolding the dispatch. -/
theorem gives_eff (f : Device → Device) (hx : exec i s = s.upd f) (he : f s.dev = e) : Gives i s e := by
  subst he
  exact hx

theorem givesThat_eff {P : Device → Prop} (f : Device → Device) (hx : exec i s = s.upd f) (hp : P (f s.dev)) : GivesThat i s P :=
  ⟨_, hx, hp⟩

/-! ### Frames -/

/-- The word of a register is read from the register file alone. -/
theorem Device.word_congr (h : e.regs = d.regs) (a : Nat) : e.word a = d.word a := by
  simp only [Device.word, h]

theorem Device.rd_congr (h : e.regs = d.regs) (f : RF) : e.rd f = d.rd f := by
  simp only [Device.rd, Device.word_congr h]

theorem Device.bit_congr (h : e.regs = d.regs) (f : RF) : e.bit f = d.bit f := by
  simp only [Device.bit, Device.rd_congr h]

theorem Device.rd_of_word {f : RF} (h : e.word f.reg = d.word f.reg) : e.rd f = d.rd f := by
  simp only [Device.rd, h]

/-- A frame holds where the other registers' words and memory are the same, and the partition of SRAM is not among the registers named. -/
theorem untouched_of (hw : ∀ a, a ∉ rs → e.word a = d.word a) (hm : e.mem = d.mem) (hp : CB_SRAMPART ∉ rs) : Untouched rs d e :=
  ⟨hw, Device.memByte_congr hm (by simp only [Device.poolPages, Device.rd_of_word (f := CB_SRAMPART_BANKS) (hw _ hp)])⟩

theorem untouched_of_regs (hr : e.regs = d.regs) (hm : e.mem = d.mem) : Untouched rs d e :=
  ⟨fun a _ => Device.word_congr hr a, Device.memByte_congr hm (by simp only [Device.poolPages, Device.rd_congr hr])⟩

end Sys2Proof.Machine
end

section
/-!
The fabric: requests that wait, and the party whose request a contended point grants (R30 to R33).
-/
namespace Sys2Proof.Machine

variable {d : Device} {p : ContPoint}

theorem fabricRequestEff_waits {id : Nat} {who : Requester} {u : Bool} {a : Nat} {acc : Access} (h : (∃ t, p = .target t) → d.inMap a = true) :
    fabricRequestEff id who u p a acc none d = { d with fabric := { d.fabric with
      waiting := d.fabric.waiting ++ [{ id := id, who := who, urgent := u, point := p, addr := a, acc := acc, waited := 0 }] } } := by
  cases p with
  | target t => simp [fabricRequestEff, h ⟨t, rfl⟩]
  | poolAllocator => rfl
  | cipherQueues => rfl

theorem fabricTimeoutEff_of_granted {id : Nat} (h : id ∈ d.fabric.granted) :
    fabricTimeoutEff id d = Device.emit { d with fabric := { d.fabric with
      waiting := d.fabric.waiting.filter (·.id != id)
      granted := d.fabric.granted.filter (· != id)
      timedOut := d.fabric.timedOut ++ [id] } } (.reply (some id) .busError) := by
  simp [fabricTimeoutEff, h]

/-- A party's oldest request waits at the point, is the party's, and is urgent where only urgent ones are searched. -/
theorem Fabric.first_spec {f : Fabric} {q : Party} {u : Bool} {r : FabReq} (h : f.first p q u = some r) :
    r ∈ f.waiting ∧ r.point = p ∧ r.who = .party q ∧ (u = true → r.urgent = true) := by
  have hmem := List.mem_of_find?_eq_some h
  have hprop := List.find?_some h
  simp only [Bool.and_eq_true, decide_eq_true_eq, Bool.or_eq_true, Bool.not_eq_true'] at hprop
  obtain ⟨⟨hpoint, hwho⟩, hurg⟩ := hprop
  exact ⟨hmem, hpoint, hwho, fun hu => by simpa [hu] using hurg⟩

/-- The four parties, each once, from the pointer on. -/
theorem mem_rotation (p q : Party) : q ∈ rotation p := by
  cases p <;> cases q <;> decide

/-- Where no party has an urgent request, any request is a not urgent one. -/
theorem Fabric.urgent_eq_false {f : Fabric} {q : Party} {r : FabReq} (hnone : f.first p q true = none) (h : f.first p q false = some r) :
    r.urgent = false := by
  obtain ⟨hmem, hpoint, hwho, -⟩ := Fabric.first_spec h
  have hno := List.find?_eq_none.1 hnone r hmem
  simpa [hpoint, hwho] using hno

/-- The first party of the rotation that has a request: its place, and that none before it has one. -/
theorem rotation_findSome {c : Party} {r : FabReq} {f : Party → Option FabReq} (h : (rotation c).findSome? f = some r) :
    ∃ k : Nat, k < 4 ∧ ∃ q, (rotation c)[k]? = some q ∧ f q = some r ∧ ∀ j < k, ∀ x, (rotation c)[j]? = some x → f x = none := by
  obtain ⟨l₁, q, l₂, hl, hq, hbefore⟩ := List.findSome?_eq_some_iff.1 h
  have hlen : (rotation c).length = 4 := rfl
  refine ⟨l₁.length, ?_, q, by simp [hl], hq, ?_⟩
  · rw [hl] at hlen
    simp at hlen
    omega
  · intro j hj x hx
    rw [hl, List.getElem?_append_left hj] at hx
    exact hbefore x (List.mem_of_getElem? hx)

theorem Device.winner_spec {r : FabReq} (h : d.winner p = some r) :
    r ∈ d.fabric.waiting ∧ r.point = p ∧ (r.urgent = false → ∀ q : Party, d.fabric.first p q true = none) ∧
    ∃ k : Nat, k < 4 ∧ ∃ q, (rotation (d.pointer p))[k]? = some q ∧ r.who = .party q ∧ d.fabric.first p q r.urgent = some r ∧
      ∀ j < k, ∀ x, (rotation (d.pointer p))[j]? = some x → d.fabric.first p x r.urgent = none := by
  simp only [Device.winner] at h
  split at h
  next r' hurgent =>
    cases h
    obtain ⟨k, hk, q, hq, hr, hbefore⟩ := rotation_findSome hurgent
    obtain ⟨hmem, hpoint, hwho, hu⟩ := Fabric.first_spec hr
    have hu := hu rfl
    exact ⟨hmem, hpoint, by simp [hu], k, hk, q, hq, hwho, by rwa [hu], by rwa [hu]⟩
  next hnone =>
    have hnone : ∀ q, d.fabric.first p q true = none := fun q => List.findSome?_eq_none_iff.1 hnone q (mem_rotation _ q)
    obtain ⟨k, hk, q, hq, hr, hbefore⟩ := rotation_findSome h
    obtain ⟨hmem, hpoint, hwho, -⟩ := Fabric.first_spec hr
    have hu := Fabric.urgent_eq_false (hnone q) hr
    exact ⟨hmem, hpoint, fun _ => hnone, k, hk, q, hq, hwho, by rwa [hu], by rwa [hu]⟩

end Sys2Proof.Machine

open Sys2Proof Sys2Proof.Machine

/-- Settles O8: the requests by their effects' cases, the arbitration by the rotation's search. -/
theorem fabricRequestsAndArbitration : Obligations.FabricRequestsAndArbitration := by
  refine ⟨?_, ?_, ?_, ?_⟩
  · intro s id who u p a acc h
    exact gives_eff (fabricRequestEff id who u p a acc none) rfl (fabricRequestEff_waits h)
  · intro s id h
    refine givesThat_eff (fabricTimeoutEff id) rfl ?_
    rw [fabricTimeoutEff_of_granted h]
    exact ⟨rfl, by simp, by simp, untouched_of_regs rfl rfl⟩
  · intro s id
    exact gives_eff (lateDiscardEff id) rfl rfl
  · intro d p r h
    exact Device.winner_spec h

end

section
/-!
The access codes of R11, on registers of the regulator: what a write and a read of one of its plain registers do.
-/
namespace Sys2Proof.Machine

variable {d : Device} {who : Initiator} {o : Nat} {v : Word} {r : Row}

/-- A word offset of the regulator whose write is no command: the register just takes what its row's access codes take. -/
def plainRegulatorOffset (o : Nat) : Bool :=
  decide (o < 0x1000) && !([0x34, 0x104, 0x108, 0x10C, 0x110, 0x400, 0x50C].contains o) && !(decide (0x240 ≤ o) && decide (o ≤ 0x268))

theorem Device.regulatorWrite_plain (ho : plainRegulatorOffset o = true) : d.regulatorWrite who o v = d.plainWrite (0xF0700000 + o) v := by
  simp [plainRegulatorOffset] at ho
  have hlog : ¬(0x240 ≤ o ∧ o ≤ 0x268) := by omega
  simp [Device.regulatorWrite, ho, hlog]

theorem laneAt_regulator (o : Nat) : laneAt (0xF0700000 + o) = none := by
  unfold laneAt
  rw [if_neg (by omega), if_neg (by omega), if_neg (by omega)]

theorem inSecurity_regulator (ho : o < 0x1000) : inSecurity (0xF0700000 + o) = false := by
  simp only [inSecurity, Bool.or_eq_false_iff, Bool.and_eq_false_iff, decide_eq_false_iff_not]
  omega

theorem inert_regulator (d : Device) (o : Nat) : d.inert (0xF0700000 + o) = false := by
  simp only [Device.inert, laneAt_regulator]

theorem Device.regWrite_regulator (ho : plainRegulatorOffset o = true) (hrow : rowAt (0xF0700000 + o) = some r) :
    d.regWrite who (0xF0700000 + o) v = some (d.plainWrite (0xF0700000 + o) v) := by
  have hlt : o < 0x1000 := by
    simp [plainRegulatorOffset] at ho
    exact ho.1.1
  simp only [Device.regWrite, inSecurity_regulator hlt, hrow, inert_regulator, laneAt_regulator, Bool.false_and, Bool.false_eq_true, if_false,
    Option.isNone_some, Bool.or_self]
  rw [if_neg (by omega), if_neg (by omega), if_neg (by omega), if_neg (by omega), if_neg (by omega), if_pos (by omega), Nat.add_sub_cancel_left,
    Device.regulatorWrite_plain ho]

theorem Device.plainWrite_row {a : Nat} (hrow : rowAt a = some r) (hranges : d.rangesAt a = []) :
    d.plainWrite a v = d.setWord a (mergeWrite (d.word a) v (BitVec.ofNat 32 r.rw) (BitVec.ofNat 32 r.w1c)) := by
  simp [Device.plainWrite, Device.merged, hrow, hranges, keepOut]

/-- A register of the regulator written, by its row's codes. -/
theorem gives_regulator_write {s : State} {w : Word} (hup : s.dev.up = true) (ho : plainRegulatorOffset o = true) (ha : o % 4 = 0)
    (hrow : rowAt (0xF0700000 + o) = some r) (hranges : s.dev.rangesAt (0xF0700000 + o) = [])
    (hw : mergeWrite (s.dev.word (0xF0700000 + o)) v (BitVec.ofNat 32 r.rw) (BitVec.ofNat 32 r.w1c) = w) :
    Gives (.registerWrite who (0xF0700000 + o) 4 v) s ((s.dev.setWord (0xF0700000 + o) w).emit (.reply none .done)) := by
  have hlt : o < 0x1000 := by
    simp [plainRegulatorOffset] at ho
    exact ho.1.1
  have hreg : inRegs (0xF0700000 + o) = true := by
    simp only [inRegs, Bool.and_eq_true, decide_eq_true_eq]
    omega
  refine gives_registerWrite (registerWriteEff_taken hup hreg (by omega) ?_)
  rw [Device.regWrite_regulator ho hrow, Device.plainWrite_row hrow hranges, hw]

theorem word_and_ones (w : Word) : w &&& 0xFFFFFFFF#32 = w := BitVec.and_allOnes

theorem mergeWrite_rw (old v m : Word) : mergeWrite old v m 0 = old &&& ~~~m ||| v &&& m := by
  simp [mergeWrite, word_and_ones]

theorem mergeWrite_w1c (old v m : Word) : mergeWrite old v 0 m = old &&& ~~~(v &&& m) := by
  simp [mergeWrite, word_and_ones]

theorem mergeWrite_none (old v : Word) : mergeWrite old v 0 0 = old := by
  simp [mergeWrite, word_and_ones]

theorem Device.rangesAt_aontmr (d : Device) : d.rangesAt RG_AONTMR = [] := rfl
theorem Device.rangesAt_int (d : Device) : d.rangesAt RG_INT = [] := rfl
theorem Device.rangesAt_rstcause (d : Device) : d.rangesAt RG_RSTCAUSE = [] := rfl

/-- Writing back what a register holds changes no register. -/
theorem Device.word_setWord_word (d : Device) (a b : Nat) : (d.setWord a (d.word a)).word b = d.word b := by
  rw [Device.word_setWord]
  split
  · rename_i h; rw [h]
  · rfl

/-! ### A read of RG_LOGSTAT -/

theorem Device.readEffect_logstat (d : Device) (who : Initiator) :
    d.readEffect who RG_LOGSTAT = d.setWord RG_LOGSTAT (d.word RG_LOGSTAT &&& ~~~0xFFFF0000) := rfl

theorem Device.regRead_logstat (d : Device) (who : Initiator) : d.regRead who RG_LOGSTAT =
    (d.readEffect who RG_LOGSTAT).emit (.reply none (.data (d.readReg who RG_LOGSTAT).toNat)) := by
  have hjtag : ¬(who = .jtag ∧ 0xF0500000 ≤ RG_LOGSTAT ∧ RG_LOGSTAT < 0xF0600000) := fun h => absurd h.2.2 (by decide)
  rw [Device.regRead, if_neg hjtag]
  rfl

theorem getField_drop_cleared (w : Word) : getField (w &&& ~~~0xFFFF0000) 16 16 = 0 := by
  refine Nat.eq_of_testBit_eq fun i => ?_
  rw [getField_testBit, Nat.zero_testBit, BitVec.getLsbD_and, BitVec.getLsbD_not]
  by_cases hi : i < 16
  · have hmask : (0xFFFF0000 : BitVec 32).getLsbD (16 + i) = true := by
      interval_cases i <;> rfl
    rw [hmask]
    simp
  · simp [hi]

end Sys2Proof.Machine

open Sys2Proof Sys2Proof.Machine

/-- Settles O10: each register's row gives its code, and the write or read keeps to it. -/
theorem accessCodesAct : Obligations.AccessCodesAct := by
  refine ⟨?_, ?_, ?_, ?_⟩
  · intro s who v hup
    exact gives_regulator_write (o := 0x418) hup rfl rfl rfl (Device.rangesAt_aontmr _) (mergeWrite_rw _ _ _)
  · intro s who v hup
    exact gives_regulator_write (o := 0x300) hup rfl rfl rfl (Device.rangesAt_int _) (mergeWrite_w1c _ _ _)
  · intro s who v hup
    exact ⟨_, gives_regulator_write (o := 0x504) hup rfl rfl rfl (Device.rangesAt_rstcause _) (mergeWrite_none _ _),
      Device.word_setWord_word s.dev RG_RSTCAUSE, rfl⟩
  · intro s who hup
    refine ⟨_, gives_rcRegisterRead ((registerReadEff_word hup rfl rfl).trans (Device.regRead_logstat _ _)), rfl, ?_, ?_⟩
    · rw [Device.readEffect_logstat]
      exact (congrArg (getField · 16 16) (Device.word_setWord_same _ _ _)).trans (getField_drop_cleared _)
    · rw [Device.readEffect_logstat]
      refine untouched_of (fun a ha => Device.word_setWord_other _ _ (by simpa using ha)) rfl (by decide)

end

section
/-!
Resets: the device as a device reset leaves it (R43, R377, R444).
-/
namespace Sys2Proof.Machine

variable {d : Device} {st : Straps} {cause : Nat}

/-- The FIFO is empty after a device reset and the device is not in recovery, so the reset's own entry is stored and no register is written for it. -/
theorem Device.deviceReset_regs (d : Device) (cause : Nat) (st : Straps) : (d.deviceReset cause st).regs =
    ((({} : Device).wr RG_RSTCAUSE_CAUSE (d.aon.heldCause.getD cause)).wr RG_RSTCAUSE_BOOTS (d.aon.boots + 1)).regs := rfl

theorem Device.deviceReset_word (d : Device) (cause : Nat) (st : Straps) {a : Nat} (ha : a ≠ RG_RSTCAUSE) :
    (d.deviceReset cause st).word a = resetWord a := by
  rw [Device.word_congr (d.deviceReset_regs cause st), Device.word_wr_other _ _ _ ha, Device.word_wr_other _ _ _ ha]
  rfl

theorem Device.deviceReset_cause (d : Device) (cause : Nat) (st : Straps) :
    (d.deviceReset cause st).rd RG_RSTCAUSE_CAUSE = d.aon.heldCause.getD cause % 2 ^ RG_RSTCAUSE_CAUSE.n := by
  rw [Device.rd_congr (d.deviceReset_regs cause st), Device.rd_wr_bits _ _ (by decide), Device.rd_wr_same _ _ (by decide)]

/-- An entry of a code that the GS4100 does not know keeps its native code. -/
theorem Device.logEntry_code (d : Device) (src sev sup : Nat) (ps : List Nat) {code : Nat} (h : gs4100Code code = none) :
    (d.logEntry src code sev sup ps).code = code := by
  simp [Device.logEntry, h]

theorem Device.deviceReset_fifo (d : Device) (cause : Nat) (st : Straps) :
    ∃ b : Device, (d.deviceReset cause st).logbook.fifo = [b.logEntry 8 0x5008 2 0 [0]] := ⟨_, rfl⟩

theorem Device.deviceReset_started (d : Device) (cause : Nat) (st : Straps) : StartedAgain d (d.deviceReset cause st) cause st :=
  ⟨rfl, rfl, fun _ => d.deviceReset_word cause st, d.deviceReset_cause cause st, rfl, rfl, rfl, rfl, rfl, rfl, rfl, rfl, rfl, rfl, rfl, rfl, rfl, rfl,
    rfl, rfl, by
    obtain ⟨b, hb⟩ := d.deviceReset_fifo cause st
    rw [hb]
    exact congrArg (fun c => [c]) (b.logEntry_code 8 2 0 [0] rfl)⟩

end Sys2Proof.Machine

open Sys2Proof Sys2Proof.Machine

/-- Settles O11: both commands are a device reset and differ in the chronometer. -/
theorem resetsStartTheDeviceAgain : Obligations.ResetsStartTheDeviceAgain := by
  refine ⟨?_, ?_, ?_⟩
  · intro s st hscan
    refine ⟨_, (if_neg (by simp [hscan]) : execPowerOnReset st s = _), ?_, rfl⟩
    exact Device.deviceReset_started { s.dev with aon := { s.dev.aon with off := false } } 0 st
  · intro s st hscan
    refine ⟨_, (if_neg (by simp [hscan]) : execResetNAssert st s = _), ?_, rfl⟩
    exact s.dev.deviceReset_started 1 st
  · intro s st hscan
    exact ⟨if_pos hscan, if_pos hscan⟩

end

section
/-!
The boot: the examination of the two calibre copies, the choice of the firmware slot, and the calibre lock (R41 to R43, R441 to R443).
-/
namespace Sys2Proof.Machine

variable {d : Device}

/-! ### Calibre copies -/

theorem Device.examineB_waits (hr : d.boot.obs.readErrB = false) (hh : calHeader d.nor.calB = 0) :
    d.examineB = { d with boot := { d.boot with phase := .verdictB } } := by
  simp [Device.examineB, hr, hh]

theorem Device.examineA_waits (hr : d.boot.obs.readErrA = false) (hh : calHeader d.nor.calA = 0) :
    d.examineA = { d with boot := { d.boot with phase := .verdictA } } := by
  simp [Device.examineA, hr, hh]

theorem Device.examineA_unreadable (hr : d.boot.obs.readErrA = true) :
    d.examineA = Device.examineB { d with boot := { d.boot with resultA := 6 } } := by
  simp [Device.examineA, hr]

theorem rootPllLockEff_starts {o : BootObs} (hp : d.boot.phase = .awaitLock) (hoff : d.aon.off = false) :
    rootPllLockEff o d = Device.examineA { d with boot := { d.boot with obs := o, resultA := 1, resultB := 1 } } := by
  simp [rootPllLockEff, hp, hoff]

theorem Device.takeResult_verdictA (f : List (Nat × Nat) → Nat) (hp : d.boot.phase = .verdictA) (hr : d.boot.obs.readErrB = false)
    (hh : calHeader d.nor.calB = 0) :
    d.takeResult f = { d with boot := { d.boot with phase := .verdictB, resultA := f d.nor.calA } } := by
  simp only [Device.takeResult, hp]
  exact Device.examineB_waits hr hh

/-- The two copies' results stand in CB_STATUS, and an entry of each bad copy is held. -/
def Device.noteResults (d : Device) (a b : Nat) : Device :=
  ((((d.wr CB_STATUS_A_RESULT a).wr CB_STATUS_B_RESULT b).holdLog 0x7801 [0, a])).holdLog 0x7801 [1, b]

theorem Device.selectCalibre_both_bad (ha : d.boot.resultA ≠ 0) (hb : d.boot.resultB ≠ 0) :
    d.selectCalibre = (((d.noteResults d.boot.resultA d.boot.resultB).wr CB_STATUS_LOCK 1).wr CB_CTRL_LOCK 1).enterRecovery 0x7806
      [d.boot.resultA, d.boot.resultB] := by
  simp [Device.selectCalibre, Device.noteResults, Device.holdLog, ha, hb]

/-- The registers recovery mode leaves: the lock, the results, and RG_BOOTSTAT.RECOVERY. -/
theorem Device.noteResults_recovery_regs (d : Device) (a b code : Nat) (ps : List Nat) :
    ((((d.noteResults a b).wr CB_STATUS_LOCK 1).wr CB_CTRL_LOCK 1).enterRecovery code ps).regs =
      (((((d.wr CB_STATUS_A_RESULT a).wr CB_STATUS_B_RESULT b).wr CB_STATUS_LOCK 1).wr CB_CTRL_LOCK 1).wr RG_BOOTSTAT_RECOVERY 1).regs := rfl

end Sys2Proof.Machine

open Sys2Proof Sys2Proof.Machine

/-- Settles O13: the examination goes on copy by copy, and two bad copies leave nothing to select. -/
theorem bootExaminesBothCalibreCopies : Obligations.BootExaminesBothCalibreCopies := by
  refine ⟨?_, ?_, ?_, ?_, ?_⟩
  · intro s o hp hoff hr hh
    exact gives_eff (rootPllLockEff o) rfl ((rootPllLockEff_starts hp hoff).trans (Device.examineA_waits hr hh))
  · intro s o hp hoff hra hrb hh
    refine gives_eff (rootPllLockEff o) rfl ?_
    rw [rootPllLockEff_starts hp hoff, Device.examineA_unreadable hra]
    exact Device.examineB_waits hrb hh
  · intro s v hp hr hh
    exact gives_eff (calibreVerdictEff v) rfl (Device.takeResult_verdictA _ hp hr hh)
  · intro s hp hr hh
    exact gives_eff (fun d => d.takeResult fun _ => 9) rfl (Device.takeResult_verdictA _ hp hr hh)
  · intro s hp ha
    refine givesThat_eff (fun d => d.takeResult fun _ => 9) rfl ?_
    simp only [Device.takeResult, hp]
    rw [Device.selectCalibre_both_bad (by exact ha) (by simp)]
    refine ⟨rfl, rfl, ?_, ?_, ?_, ?_, by simp [Device.enterRecovery, Device.noteResults, Device.holdLog]⟩ <;>
      rw [Device.rd_congr (Device.noteResults_recovery_regs _ _ _ _ _)] <;>
      simp (disch := decide) only [Device.rd_wr_same, Device.rd_wr_bits, Device.rd_wr_reg] <;> rfl

end

section
/-!
The choice of the firmware slot and the calibre lock (R43, R441 to R443).
-/
namespace Sys2Proof.Machine

variable {d : Device} {r : BootRec} {k : Nat}

/-! ### The slot the boot takes -/

theorem Device.brec_of_bootRec (h : d.nor.bootRec = some r) : d.brec = r := by
  simp [Device.brec, h]

/-- What the boot shows of its record before the choice: its stage and the staged chunks. -/
def Device.showRec (d : Device) (r : BootRec) : Device := (d.wr RG_UPDSTAT_STAGE r.stage).wr RG_UPDSTAT_CHUNKS d.nor.journal.length

theorem Device.showRec_brec (d : Device) (r q : BootRec) : (d.showRec r).brec = q ↔ d.brec = q := Iff.rfl

/-- A slot's code depends on what NOR and the fuses hold and on the size of DRAM. -/
theorem Device.slotCode_showRec (d : Device) (r : BootRec) (o : BootObs) (k : Nat) : (d.showRec r).slotCode o k = d.slotCode o k := by
  have hdram : (d.showRec r).dramVisible = d.dramVisible := by
    simp (disch := decide) only [Device.dramVisible, Device.showRec, Device.rd_wr_reg]
  simp only [Device.slotCode, Device.imageCode, Device.sectionsOk, Device.loadOk, Device.loadDram, hdram]
  rfl

/-- With a record that was not cut off in a copy, the choice of R443 is made on the record as it stands. -/
theorem Device.bootSlot_none (hb : d.nor.bootRec = some r) (hs : r.stage ≠ 4) (hp : r.pending = none) : d.bootSlot = (d.showRec r).bootActive := by
  have hrec := Device.brec_of_bootRec hb
  have hshown := (d.showRec_brec r r).2 hrec
  simp only [Device.showRec] at hshown ⊢
  simp only [Device.bootSlot, hb, Option.isNone_some, Bool.false_eq_true, if_false, hrec, hs, Device.wr_nor, hshown, hp]

theorem Device.bootSlot_some (hb : d.nor.bootRec = some r) (hs : r.stage ≠ 4) (hp : r.pending = some k) : d.bootSlot =
    if 3 ≤ r.pboots then ((d.showRec r).revertPending 0).bootActive
    else if 1800 ≤ r.prun then ((d.showRec r).revertPending 1).bootActive
    else if d.slotCode d.boot.obs k ≠ 0 then ((d.showRec r).revertPending 2).bootActive
    else ((d.showRec r).writeRec { r with pboots := r.pboots + 1, stage := 7 }).releaseCores k true := by
  have hrec := Device.brec_of_bootRec hb
  have hshown := (d.showRec_brec r r).2 hrec
  rw [← d.slotCode_showRec r]
  simp only [Device.showRec] at hshown ⊢
  simp only [Device.bootSlot, hb, Option.isNone_some, Bool.false_eq_true, if_false, hrec, hs, Device.wr_nor, Device.wr_boot, hshown, hp]

theorem Device.revertPending_some {cause : Nat} (hr : d.brec = r) (hp : r.pending = some k) : d.revertPending cause =
    (d.writeRec { r with pending := none, stage := 9, flags := r.flags ||| (if k = 0 then 2 else 4) }).log 9 0x700E [cause] := by
  simp [Device.revertPending, hr, hp]

theorem Device.bootActive_active (h : d.slotCode d.boot.obs d.brec.active = 0) : d.bootActive = d.releaseCores d.brec.active false := by
  simp [Device.bootActive, h]

theorem Device.bootActive_none (ha : d.slotCode d.boot.obs d.brec.active ≠ 0) (hb : d.slotCode d.boot.obs (1 - d.brec.active) ≠ 0) :
    d.bootActive = d.enterRecovery 0x7003 [d.slotCode d.boot.obs d.brec.active] := by
  simp [Device.bootActive, ha, hb]

/-! ### The release of the cores -/

@[simp] theorem Device.selectLadder_boot (d : Device) (adc : Nat) (f : RF) (b : Bool) : (d.selectLadder adc f b).boot = d.boot := by
  unfold Device.selectLadder
  split <;> simp [Device.wrB]

/-- Posting entries one after another leaves a part of the device that posting leaves. -/
theorem Device.foldl_log_boot {α : Type} (l : List α) (code : α → Nat) (ps : α → List Nat) (d : Device) :
    (l.foldl (fun d x => d.log 9 (code x) (ps x)) d).boot = d.boot := by
  induction l generalizing d with
  | nil => rfl
  | cons x l ih => rw [List.foldl_cons, ih, Device.log_boot]

@[simp] theorem Device.logHeld_boot (d : Device) : d.logHeld.boot = d.boot := by
  unfold Device.logHeld
  split <;> simp [Device.foldl_log_boot]

theorem Device.releaseCores_phase (d : Device) (k : Nat) (p : Bool) : (d.releaseCores k p).boot.phase = .released := by
  cases p <;> simp [Device.releaseCores, Device.wrB]

/-! ### The calibre lock -/

theorem cbLockEff_refused {who : Initiator} {v : Word} (h : who ≠ .bootRom ∨ d.boot.locked = true) :
    cbLockEff who v d = d.emit (.reply none .busError) := by
  rw [cbLockEff, if_pos h]

theorem cbLockEff_bootRom {v : Word} (h : d.boot.locked = false) :
    cbLockEff .bootRom v d = if getField v 0 1 = 1 then d.lockCalibre else d := by
  simp [cbLockEff, h]

theorem Device.lockCalibre_untouched (d : Device) : Untouched [CB_CTRL, CB_STATUS] d d.lockCalibre := by
  refine untouched_of (fun a ha => ?_) rfl (by decide)
  simp only [List.mem_cons, List.not_mem_nil, or_false, not_or] at ha
  exact (Device.word_wr_other _ CB_STATUS_LOCK 1 ha.2).trans (Device.word_wr_other _ CB_CTRL_LOCK 1 ha.1)

end Sys2Proof.Machine

open Sys2Proof Sys2Proof.Machine

/-- Settles O14: the choice is R443's on the record in force, and the lock is the boot ROM's alone. -/
theorem bootTakesItsSlotAndLocks : Obligations.BootTakesItsSlotAndLocks := by
  refine ⟨?_, ?_, ?_, ?_, ?_, ?_, ?_, ?_, ?_⟩
  · intro d r hb hs hp
    exact Device.bootSlot_none hb hs hp
  · intro d r k hb hs hp hboots hrun hcode
    rw [Device.bootSlot_some hb hs hp, if_neg (by omega), if_neg (by omega), if_neg (not_not.2 hcode)]
    rfl
  · intro d r k hb hs hp hboots
    rw [Device.bootSlot_some hb hs hp, if_pos hboots, Device.revertPending_some ((d.showRec_brec r r).2 (Device.brec_of_bootRec hb)) hp]
    rfl
  · intro d h
    exact Device.bootActive_active h
  · intro d ha hb
    rw [Device.bootActive_none ha hb]
    exact ⟨rfl, rfl, rfl⟩
  · exact Device.releaseCores_phase
  · intro s who v h
    exact gives_eff (cbLockEff who v) rfl (cbLockEff_refused h)
  · intro s v hl hv
    refine givesThat_eff (cbLockEff .bootRom v) rfl ?_
    rw [cbLockEff_bootRom hl, if_pos hv]
    have hctrl : s.dev.lockCalibre.rd CB_CTRL_LOCK = 1 := by
      show ((s.dev.wr CB_CTRL_LOCK 1).wr CB_STATUS_LOCK 1).rd CB_CTRL_LOCK = 1
      rw [Device.rd_wr_reg _ _ (by decide), Device.rd_wr_same _ _ (by decide)]
      rfl
    have hstatus : s.dev.lockCalibre.rd CB_STATUS_LOCK = 1 := Device.rd_wr_same (s.dev.wr CB_CTRL_LOCK 1) 1 (by decide)
    exact ⟨rfl, hctrl, hstatus, rfl, s.dev.lockCalibre_untouched⟩
  · intro s v hl hv
    exact gives_eff (cbLockEff .bootRom v) rfl ((cbLockEff_bootRom hl).trans (if_neg hv))

end

section
/-!
What the lanes' events leave of the device: the part beside the registers, the lanes and the logbook. Then the losses of clock and supply (R23, R377, R444).
-/
namespace Sys2Proof.Machine

variable {d e : Device} {l : Lane} {q : SeqId}

/-! ### The part of the device beside the lanes -/

/-- The device without its registers, its lanes and its logbook. Two devices that agree here agree in every other field. -/
def Device.beside (d : Device) : Device :=
  { d with regs := [], lane0 := {}, lane1 := {}, logbook := {}, nor := { d.nor with logSeq := 0 } }

@[simp] theorem Device.setWord_beside (d : Device) (a : Nat) (w : BitVec 32) : (d.setWord a w).beside = d.beside := (rfl)
@[simp] theorem Device.wr_beside (d : Device) (f : RF) (v : Nat) : (d.wr f v).beside = d.beside := (rfl)
@[simp] theorem Device.wrB_beside (d : Device) (f : RF) (b : Bool) : (d.wrB f b).beside = d.beside := (rfl)

@[simp] theorem Device.updLane_beside (d : Device) (l : Lane) (f : LaneSt → LaneSt) : (d.updLane l f).beside = d.beside := by
  cases l <;> rfl

@[simp] theorem Device.updSv_beside (d : Device) (l : Lane) (f : SvSt → SvSt) : (d.updSv l f).beside = d.beside := d.updLane_beside l _
@[simp] theorem Device.updWr_beside (d : Device) (l : Lane) (f : WrSt → WrSt) : (d.updWr l f).beside = d.beside := d.updLane_beside l _
@[simp] theorem Device.updOp_beside (d : Device) (q : SeqId) (f : EcOp → EcOp) : (d.updOp q f).beside = d.beside := d.updLane_beside q.lane _

@[simp] theorem Device.logRaw_beside (d : Device) (src code sev sup : Nat) (ps : List Nat) : (d.logRaw src code sev sup ps).beside = d.beside := by
  unfold Device.logRaw
  split_ifs <;> rfl

@[simp] theorem Device.log_beside (d : Device) (src code : Nat) (ps : List Nat) : (d.log src code ps).beside = d.beside := d.logRaw_beside _ _ _ _ _

theorem Device.foldl_beside {α : Type} {f : Device → α → Device} (hf : ∀ d x, (f d x).beside = d.beside) (xs : List α) (d : Device) :
    (xs.foldl f d).beside = d.beside := by
  induction xs generalizing d with
  | nil => rfl
  | cons x xs ih => rw [List.foldl_cons, ih, hf]

@[simp] theorem Device.takeStop_beside (d : Device) (q : SeqId) : (d.takeStop q).beside = d.beside := by
  unfold Device.takeStop
  split
  · rfl
  · dsimp only
    split
    · rfl
    · split <;> simp

@[simp] theorem Device.stopCause_beside (d : Device) (q : SeqId) (bit : Nat) : (d.stopCause q bit).beside = d.beside := by
  unfold Device.stopCause
  split
  · rfl
  · dsimp only
    generalize (if bit = 1 ∨ bit = 3 then _ else _ : Bool) = applies
    cases applies
    · rfl
    · simp only [Bool.not_true, Bool.false_eq_true, if_false]
      split <;> simp

@[simp] theorem Device.stopLane_beside (d : Device) (l : Lane) (bit : Nat) : (d.stopLane l bit).beside = d.beside :=
  Device.foldl_beside (fun d q => d.stopCause_beside q bit) _ d

@[simp] theorem Device.cutGate_beside (d : Device) (l : Lane) : (d.cutGate l).beside = d.beside := by
  unfold Device.cutGate
  split <;> simp

@[simp] theorem Device.inhibit_beside (d : Device) (l : Lane) : (d.inhibit l).beside = d.beside := by
  simp [Device.inhibit]

@[simp] theorem Device.pesInhibit_beside (d : Device) (l : Lane) : (d.pesInhibit l).beside = d.beside := by
  unfold Device.pesInhibit
  split
  · rfl
  · dsimp only
    split <;> simp

@[simp] theorem Device.leftFollow_beside (d : Device) (l : Lane) : (d.leftFollow l).beside = d.beside := by
  rw [Device.leftFollow, Device.pesInhibit_beside]
  refine Device.foldl_beside (fun e q => ?_) _ d
  split_ifs <;> simp

@[simp] theorem Device.svEnter_beside (d : Device) (l : Lane) (st : SvState) : (d.svEnter l st).beside = d.beside := by
  unfold Device.svEnter
  dsimp only
  split <;> simp

section
variable (h : e.beside = d.beside)
include h

theorem Device.emret_of_beside : e.emret = d.emret := by
  have hfield := congrArg Device.emret h
  exact hfield

theorem Device.emretCause_of_beside : e.emretCause = d.emretCause := by
  have hfield := congrArg Device.emretCause h
  exact hfield

theorem Device.bootRec_of_beside : e.nor.bootRec = d.nor.bootRec := by
  have hfield := congrArg (fun x : Device => x.nor.bootRec) h
  exact hfield

end

/-- An emergency retract of a device that is not retracting: beside the lanes, the pin and its cause. -/
theorem Device.emergencyRetract_beside (d : Device) (cause : Nat) (h : d.retracting = false) :
    (d.emergencyRetract cause).beside = ({ d with emretCause := some cause, emret := .low } : Device).beside := by
  simp only [Device.emergencyRetract, h, Bool.false_eq_true, if_false]
  exact Device.foldl_beside (fun d l => by simp) _ _

theorem Device.emergencyRetract_again (d : Device) (cause : Nat) (h : d.retracting = true) : d.emergencyRetract cause = d := by
  rw [Device.emergencyRetract, if_pos h]

/-- The spindle's switching off changes the spindle and registers alone. -/
theorem Device.spinOff_beside (d : Device) : d.spinOff.beside = ({ d with spin := d.spinOff.spin } : Device).beside := by
  unfold Device.spinOff
  dsimp only
  split <;> rfl

theorem Device.emergencyRetract_bootRec (d : Device) (cause : Nat) : (d.emergencyRetract cause).nor.bootRec = d.nor.bootRec := by
  cases h : d.retracting
  · exact (Device.bootRec_of_beside (d.emergencyRetract_beside cause h) :)
  · rw [d.emergencyRetract_again cause h]

/-! ### Loss of the root clock, and of the supplies -/

/-- The device held in reset by the loss of its root clock. -/
def Device.holdUnclocked (d : Device) : Device :=
  { d with
    boot := { d.boot with phase := .held }
    power := { d.power with request := none, run := none }
    aon := { d.aon with heldCause := some 2 } }

theorem pllLockLossEff_up (h : d.up = true) : pllLockLossEff d = ((d.emergencyRetract 1).spinOff).holdUnclocked := by
  rw [pllLockLossEff, if_pos h]
  rfl

theorem Device.holdUnclocked_spec (d : Device) : d.holdUnclocked.boot.phase = .held ∧ d.holdUnclocked.up = false ∧
    d.holdUnclocked.aon.heldCause = some 2 ∧ d.holdUnclocked.power.run = none ∧ d.holdUnclocked.power.request = none :=
  ⟨rfl, rfl, rfl, rfl, rfl⟩

theorem Device.holdUnclocked_frame (d : Device) : d.holdUnclocked.emret = d.emret ∧ d.holdUnclocked.emretCause = d.emretCause ∧
    d.holdUnclocked.mem = d.mem ∧ d.holdUnclocked.nor = d.nor := ⟨rfl, rfl, rfl, rfl⟩

theorem Device.retract_spinOff_emret (d : Device) (cause : Nat) (h : d.retracting = false) :
    (d.emergencyRetract cause).spinOff.emret = .low ∧ (d.emergencyRetract cause).spinOff.emretCause = some cause :=
  ⟨(Device.emret_of_beside (Device.spinOff_beside _)).trans (Device.emret_of_beside (d.emergencyRetract_beside cause h)),
    (Device.emretCause_of_beside (Device.spinOff_beside _)).trans (Device.emretCause_of_beside (d.emergencyRetract_beside cause h))⟩

theorem Device.retract_spinOff_bootRec (d : Device) (cause : Nat) : (d.emergencyRetract cause).spinOff.nor.bootRec = d.nor.bootRec :=
  (Device.bootRec_of_beside (Device.spinOff_beside _)).trans (d.emergencyRetract_bootRec cause)

theorem Device.retract_spinOff_mem (d : Device) (cause : Nat) : (d.emergencyRetract cause).spinOff.mem = d.mem :=
  have hstable := (Device.mem_stable d.mem).toStable
  Device.spinOff_keeps hstable (Device.emergencyRetract_keeps hstable rfl)

theorem dramSectionsEff_loaded (hr : d.released = true) (hb : d.bit MS_STATUS_DRAMRDY = true) : dramSectionsEff d = d.wr RG_BOOTSTAT_LOADED 1 := by
  simp [dramSectionsEff, hr, hb]

theorem dramSectionsEff_not_due (h : d.released = false ∨ d.bit MS_STATUS_DRAMRDY = false) : dramSectionsEff d = d := by
  have hcond : (d.released && d.bit MS_STATUS_DRAMRDY) = false := by rwa [Bool.and_eq_false_iff]
  simp [dramSectionsEff, hcond]

end Sys2Proof.Machine

open Sys2Proof Sys2Proof.Machine

/-- Settles O15: the loss of the clock by what an emergency retract leaves, the loss of supplies as a device reset. -/
theorem clockLossHoldsAndSupplyLossTurnsOff : Obligations.ClockLossHoldsAndSupplyLossTurnsOff := by
  refine ⟨?_, ?_, ?_, ?_⟩
  · intro s hup
    refine givesThat_eff pllLockLossEff rfl ?_
    rw [pllLockLossEff_up hup]
    obtain ⟨hphase, hdown, hcause, hrun, hreq⟩ := Device.holdUnclocked_spec (s.dev.emergencyRetract 1).spinOff
    obtain ⟨hemret, hemretCause, hmem, hnor⟩ := Device.holdUnclocked_frame (s.dev.emergencyRetract 1).spinOff
    rw [hemret, hemretCause, hmem, hnor]
    exact ⟨hphase, hdown, hcause, hrun, hreq, s.dev.retract_spinOff_emret 1, s.dev.retract_spinOff_mem 1, s.dev.retract_spinOff_bootRec 1⟩
  · intro s
    exact givesThat_eff suppliesRemovedEff rfl ⟨rfl, rfl, rfl, rfl, rfl, rfl, rfl, rfl⟩
  · intro s hr hb
    exact gives_eff dramSectionsEff rfl (dramSectionsEff_loaded hr hb)
  · intro s h
    exact gives_eff dramSectionsEff rfl (dramSectionsEff_not_due h)

end

section
/-!
Bytes of memory: what a byte, a number or a word stored reads back, and what it leaves (R8, R24, R332 to R337).
-/
namespace Sys2Proof.Machine

variable {d : Device}

/-! ### Bits and bytes of a number -/

theorem bitsOf_testBit (v lo n i : Nat) : (bitsOf v lo n).testBit i = (decide (i < n) && v.testBit (lo + i)) := by
  rw [bitsOf, Nat.testBit_mod_two_pow, Nat.testBit_shiftRight]

/-- A number cut at a field: what lies below it, the field, and what lies above. -/
theorem putBits_eq (v lo n x : Nat) : putBits v lo n x = 2 ^ lo * (2 ^ n * (v / 2 ^ lo / 2 ^ n) + x % 2 ^ n) + v % 2 ^ lo := by
  have hlow := Nat.div_add_mod v (2 ^ lo)
  have hmid := Nat.div_add_mod (v / 2 ^ lo) (2 ^ n)
  have hbits : bitsOf v lo n = v / 2 ^ lo % 2 ^ n := by rw [bitsOf, Nat.shiftRight_eq_div_pow]
  have hv : v = 2 ^ lo * (2 ^ n * (v / 2 ^ lo / 2 ^ n)) + bitsOf v lo n * 2 ^ lo + v % 2 ^ lo := by
    rw [hbits, Nat.mul_comm (v / 2 ^ lo % 2 ^ n), ← Nat.mul_add, hmid, hlow]
  rw [putBits, Nat.mul_add, Nat.mul_comm (x % 2 ^ n)]
  omega

theorem putBits_testBit (v lo n x i : Nat) :
    (putBits v lo n x).testBit i = if lo ≤ i ∧ i < lo + n then x.testBit (i - lo) else v.testBit i := by
  rw [putBits_eq, Nat.testBit_two_pow_mul_add _ (Nat.mod_lt _ (Nat.two_pow_pos lo))]
  by_cases hlo : i < lo
  · simp [hlo, Nat.testBit_mod_two_pow, Nat.not_le.2 hlo]
  · rw [if_neg hlo, Nat.testBit_two_pow_mul_add _ (Nat.mod_lt _ (Nat.two_pow_pos n))]
    by_cases hn : i - lo < n
    · rw [if_pos hn, if_pos (by omega), Nat.testBit_mod_two_pow]
      simp [hn]
    · rw [if_neg hn, if_neg (by omega), ← Nat.shiftRight_eq_div_pow, ← Nat.shiftRight_eq_div_pow, Nat.testBit_shiftRight, Nat.testBit_shiftRight]
      congr 1
      omega

theorem byteOf_testBit (v k i : Nat) : (byteOf v k).testBit i = (decide (i < 8) && v.testBit (8 * k + i)) := by
  rw [byteOf, show 256 = 2 ^ 8 from rfl, Nat.testBit_mod_two_pow, Nat.testBit_shiftRight]

theorem byteOf_putBits_same (v k x : Nat) : byteOf (putBits v (8 * k) 8 x) k = x % 256 := by
  refine Nat.eq_of_testBit_eq fun i => ?_
  rw [byteOf_testBit, putBits_testBit, show 256 = 2 ^ 8 from rfl, Nat.testBit_mod_two_pow]
  by_cases hi : i < 8
  · rw [if_pos (by omega)]
    simp
  · simp [hi]

theorem byteOf_putBits_other (v x : Nat) {j k : Nat} (h : j ≠ k) : byteOf (putBits v (8 * k) 8 x) j = byteOf v j := by
  refine Nat.eq_of_testBit_eq fun i => ?_
  rw [byteOf_testBit, byteOf_testBit, putBits_testBit]
  by_cases hi : i < 8
  · rw [if_neg (by omega)]
  · simp [hi]

/-! ### Pages -/

theorem Device.page_setPage_same (d : Device) (i : Nat) (p : Page) : (d.setPage i p).page i = p :=
  Sparse.get_put_same _ _ _ _

theorem Device.page_setPage_other (d : Device) {i j : Nat} (p : Page) (h : j ≠ i) : (d.setPage i p).page j = d.page j :=
  Sparse.get_put_other _ _ _ h

theorem Device.page_setPage (d : Device) (i j : Nat) (p : Page) : (d.setPage i p).page j = if j = i then p else d.page j := by
  split
  next h => rw [h, d.page_setPage_same]
  next h => exact d.page_setPage_other p h

/-- Two addresses of one page differ in their place in it. -/
theorem Device.pageAt_offset {a b i : Nat} (ha : d.pageAt a = some i) (hb : d.pageAt b = some i) (h : b ≠ a) : b % 0x1000 ≠ a % 0x1000 := by
  simp only [Device.pageAt, Option.ite_none_right_eq_some, Option.some.injEq] at ha hb
  obtain ⟨⟨hlo, -⟩, hi⟩ := ha
  obtain ⟨⟨hlo', -⟩, hi'⟩ := hb
  intro hm
  omega

theorem Device.sideAt_offset {a b i : Nat} (ha : d.sideAt a = some i) (hb : d.sideAt b = some i) (h : b ≠ a) : b % 64 ≠ a % 64 := by
  simp only [Device.sideAt, Option.ite_none_right_eq_some, Option.some.injEq] at ha hb
  obtain ⟨⟨hlo, -⟩, hi⟩ := ha
  obtain ⟨⟨hlo', -⟩, hi'⟩ := hb
  intro hm
  omega

/-! ### One byte -/

@[simp] theorem Device.setByte_regs (d : Device) (a : Nat) (b : BitVec 8) : (d.setByte a b).regs = d.regs := by
  unfold Device.setByte
  split
  · rfl
  · split <;> rfl

theorem Device.poolPages_congr {e : Device} (h : e.regs = d.regs) : e.poolPages = d.poolPages := by
  simp only [Device.poolPages, Device.rd_congr h]

theorem Device.pageAt_congr {e : Device} (h : e.regs = d.regs) (a : Nat) : e.pageAt a = d.pageAt a := by
  simp only [Device.pageAt, Device.poolPages_congr h]

theorem Device.sideAt_congr {e : Device} (h : e.regs = d.regs) (a : Nat) : e.sideAt a = d.sideAt a := by
  simp only [Device.sideAt, Device.poolPages_congr h]

/-- A byte as the three parts of memory hold it. -/
theorem Device.memByte_page {a i : Nat} (h : d.pageAt a = some i) : d.memByte a = BitVec.ofNat 8 (byteOf (d.page i).data (a % 0x1000)) := by
  simp only [Device.memByte, h]

theorem Device.memByte_side {a i : Nat} (hp : d.pageAt a = none) (h : d.sideAt a = some i) :
    d.memByte a = BitVec.ofNat 8 (byteOf (d.page i).side (a % 64)) := by
  simp only [Device.memByte, hp, h]

theorem Device.memByte_bytes {a : Nat} (hp : d.pageAt a = none) (hs : d.sideAt a = none) :
    d.memByte a = Sparse.get (fun _ => 0) d.mem.bytes a := by
  simp only [Device.memByte, hp, hs]

theorem Device.setByte_page {a i : Nat} (b : BitVec 8) (h : d.pageAt a = some i) :
    d.setByte a b = d.setPage i { d.page i with data := putBits (d.page i).data (8 * (a % 0x1000)) 8 b.toNat } := by
  simp only [Device.setByte, h]

theorem Device.setByte_side {a i : Nat} (b : BitVec 8) (hp : d.pageAt a = none) (h : d.sideAt a = some i) :
    d.setByte a b = d.setPage i { d.page i with side := putBits (d.page i).side (8 * (a % 64)) 8 b.toNat } := by
  simp only [Device.setByte, hp, h]

theorem Device.setByte_bytes {a : Nat} (b : BitVec 8) (hp : d.pageAt a = none) (hs : d.sideAt a = none) :
    d.setByte a b = { d with mem := { d.mem with bytes := Sparse.put (fun _ => 0) d.mem.bytes a b } } := by
  simp only [Device.setByte, hp, hs]

theorem ofNat_toNat_mod_256 (b : BitVec 8) : BitVec.ofNat 8 (b.toNat % 256) = b := by
  refine BitVec.eq_of_toNat_eq ?_
  rw [BitVec.toNat_ofNat, Nat.mod_mod, Nat.mod_eq_of_lt b.isLt]

theorem Device.memByte_setByte_same (d : Device) (a : Nat) (b : BitVec 8) : (d.setByte a b).memByte a = b := by
  have hregs := d.setByte_regs a b
  cases hp : d.pageAt a with
  | some i =>
    rw [Device.memByte_page ((Device.pageAt_congr hregs a).trans hp), Device.setByte_page b hp, Device.page_setPage_same, byteOf_putBits_same,
      ofNat_toNat_mod_256]
  | none =>
    cases hs : d.sideAt a with
    | some i =>
      rw [Device.memByte_side ((Device.pageAt_congr hregs a).trans hp) ((Device.sideAt_congr hregs a).trans hs), Device.setByte_side b hp hs,
        Device.page_setPage_same, byteOf_putBits_same, ofNat_toNat_mod_256]
    | none =>
      rw [Device.memByte_bytes ((Device.pageAt_congr hregs a).trans hp) ((Device.sideAt_congr hregs a).trans hs), Device.setByte_bytes b hp hs]
      exact Sparse.get_put_same _ _ _ _

/-- Storing a byte leaves the data of every page but at the byte's own place. -/
theorem Device.setByte_page_data {a c i : Nat} (b : BitVec 8) (hc : d.pageAt c = some i) (h : c ≠ a) :
    byteOf ((d.setByte a b).page i).data (c % 0x1000) = byteOf (d.page i).data (c % 0x1000) := by
  cases hp : d.pageAt a with
  | some j =>
    rw [Device.setByte_page b hp, Device.page_setPage]
    split
    next hij => subst hij; exact byteOf_putBits_other _ _ (Device.pageAt_offset hp hc h)
    next => rfl
  | none =>
    cases hs : d.sideAt a with
    | some j =>
      rw [Device.setByte_side b hp hs, Device.page_setPage]
      split
      next hij => subst hij; rfl
      next => rfl
    | none => rw [Device.setByte_bytes b hp hs]; rfl

/-- Storing a byte leaves every page's side area but at the byte's own place. -/
theorem Device.setByte_page_side {a c i : Nat} (b : BitVec 8) (hc : d.sideAt c = some i) (h : c ≠ a) :
    byteOf ((d.setByte a b).page i).side (c % 64) = byteOf (d.page i).side (c % 64) := by
  cases hp : d.pageAt a with
  | some j =>
    rw [Device.setByte_page b hp, Device.page_setPage]
    split
    next hij => subst hij; rfl
    next => rfl
  | none =>
    cases hs : d.sideAt a with
    | some j =>
      rw [Device.setByte_side b hp hs, Device.page_setPage]
      split
      next hij => subst hij; exact byteOf_putBits_other _ _ (Device.sideAt_offset hs hc h)
      next => rfl
    | none => rw [Device.setByte_bytes b hp hs]; rfl

theorem Device.setByte_bytes_other {a c : Nat} (b : BitVec 8) (h : c ≠ a) :
    Sparse.get (fun _ => 0) (d.setByte a b).mem.bytes c = Sparse.get (fun _ => 0) d.mem.bytes c := by
  unfold Device.setByte
  split
  · rfl
  · split
    · rfl
    · exact Sparse.get_put_other _ _ _ h

theorem Device.memByte_setByte_other (d : Device) {a c : Nat} (b : BitVec 8) (h : c ≠ a) : (d.setByte a b).memByte c = d.memByte c := by
  have hregs := d.setByte_regs a b
  cases hp : d.pageAt c with
  | some i =>
    rw [Device.memByte_page ((Device.pageAt_congr hregs c).trans hp), Device.memByte_page hp, Device.setByte_page_data b hp h]
  | none =>
    cases hs : d.sideAt c with
    | some i =>
      rw [Device.memByte_side ((Device.pageAt_congr hregs c).trans hp) ((Device.sideAt_congr hregs c).trans hs), Device.memByte_side hp hs,
        Device.setByte_page_side b hs h]
    | none =>
      rw [Device.memByte_bytes ((Device.pageAt_congr hregs c).trans hp) ((Device.sideAt_congr hregs c).trans hs), Device.memByte_bytes hp hs,
        Device.setByte_bytes_other b h]

/-! ### Numbers and words -/

@[simp] theorem Device.setNum_regs (n a v : Nat) (d : Device) : (Device.setNum n a v d).regs = d.regs := by
  induction n generalizing a v d with
  | zero => rfl
  | succ n ih => rw [Device.setNum, ih, Device.setByte_regs]

/-- A number stored reads back byte by byte, and every other byte reads as before. -/
theorem Device.memByte_setNum (n a v : Nat) (d : Device) (c : Nat) : (Device.setNum n a v d).memByte c =
    if a ≤ c ∧ c < a + n then BitVec.ofNat 8 (v / 256 ^ (c - a)) else d.memByte c := by
  induction n generalizing a v d with
  | zero => rw [if_neg (by omega)]; rfl
  | succ n ih =>
    rw [Device.setNum, ih]
    by_cases hc : c = a
    · subst hc
      rw [if_neg (by omega), if_pos (by omega), Device.memByte_setByte_same, Nat.sub_self, Nat.pow_zero, Nat.div_one]
    · rw [Device.memByte_setByte_other _ _ hc]
      by_cases hin : a + 1 ≤ c ∧ c < a + 1 + n
      · rw [if_pos hin, if_pos (by omega), Nat.div_div_eq_div_mul, ← Nat.pow_succ', show (c - (a + 1)).succ = c - a by omega]
      · rw [if_neg hin, if_neg (by omega)]

theorem Device.memNum_of_bytes {n a v : Nat} (h : ∀ k < n, d.memByte (a + k) = BitVec.ofNat 8 (v / 256 ^ k)) : d.memNum n a = v % 256 ^ n := by
  induction n generalizing a v with
  | zero => simp [Device.memNum, Nat.mod_one]
  | succ n ih =>
    have hfirst : (d.memByte a).toNat = v % 256 := by
      have := h 0 (by omega)
      rw [Nat.add_zero, Nat.pow_zero, Nat.div_one] at this
      rw [this, BitVec.toNat_ofNat]
    have hrest := ih (a := a + 1) (v := v / 256) fun k hk => by
      rw [Nat.add_assoc, Nat.add_comm 1 k, h (k + 1) (by omega), Nat.div_div_eq_div_mul, ← Nat.pow_succ']
    rw [Device.memNum, hfirst, hrest, Nat.pow_succ', Nat.mod_mul]

/-- Two memories that read alike over a range hold the same number there. -/
theorem Device.memNum_congr {e : Device} {n a : Nat} (h : ∀ k < n, e.memByte (a + k) = d.memByte (a + k)) : e.memNum n a = d.memNum n a := by
  induction n generalizing a with
  | zero => rfl
  | succ n ih =>
    have hrest := ih (a := a + 1) fun k hk => by
      rw [Nat.add_assoc, Nat.add_comm 1 k]
      exact h (k + 1) (by omega)
    rw [Device.memNum, Device.memNum, hrest, ← Nat.add_zero a, h 0 (by omega)]

/-- The byte of a number that memory holds. -/
theorem Device.memNum_byte (d : Device) {n k : Nat} (a : Nat) (hk : k < n) : BitVec.ofNat 8 (d.memNum n a / 256 ^ k) = d.memByte (a + k) := by
  induction n generalizing a k with
  | zero => omega
  | succ n ih =>
    have hlt := (d.memByte a).isLt
    rw [Device.memNum]
    cases k with
    | zero =>
      refine BitVec.eq_of_toNat_eq ?_
      simp only [Nat.pow_zero, Nat.div_one, BitVec.toNat_ofNat, Nat.add_zero]
      omega
    | succ k =>
      have hdiv : ((d.memByte a).toNat + 256 * d.memNum n (a + 1)) / 256 = d.memNum n (a + 1) := by omega
      rw [Nat.pow_succ', ← Nat.div_div_eq_div_mul, hdiv, ih (a + 1) (by omega), Nat.add_assoc, Nat.add_comm 1 k]

@[simp] theorem Device.setMemWord_regs (d : Device) (a v : Nat) : (d.setMemWord a v).regs = d.regs := Device.setNum_regs 8 a v d

/-- The bytes of memory stand in its pages and bytes; check bits and pending write-backs are beside them. -/
theorem Device.memByte_congr_bytes {e : Device} (hr : e.regs = d.regs) (hb : e.mem.bytes = d.mem.bytes) (hp : e.mem.pages = d.mem.pages) (a : Nat) :
    e.memByte a = d.memByte a := by
  simp only [Device.memByte, Device.pageAt_congr hr, Device.sideAt_congr hr, Device.page, hb, hp]

theorem Device.memByte_setMemWord (d : Device) (a v c : Nat) : (d.setMemWord a v).memByte c =
    if a ≤ c ∧ c < a + 8 then BitVec.ofNat 8 (v / 256 ^ (c - a)) else d.memByte c := by
  rw [← Device.memByte_setNum]
  exact Device.memByte_congr_bytes rfl rfl rfl c

theorem Device.memWord_setMemWord (d : Device) (a v : Nat) : (d.setMemWord a v).memWord a = v % 2 ^ 64 := by
  refine Device.memNum_of_bytes fun k hk => ?_
  rw [Device.memByte_setMemWord, if_pos (by omega), Nat.add_sub_cancel_left]

@[simp] theorem Device.badBits_setBad_same (d : Device) (a n : Nat) : (d.setBad a n).badBits a = n := Sparse.get_put_same _ _ _ _

theorem Device.badBits_setMemWord (d : Device) (a v : Nat) : (d.setMemWord a v).badBits a = 0 :=
  Device.badBits_setBad_same (Device.setNum 8 a v d) a 0

end Sys2Proof.Machine
end

section
/-!
Writes of memory: a full word, a word with a parity error, and a narrow write (R30, R337).
-/
namespace Sys2Proof.Machine

variable {d : Device}

/-! ### Events of memory leave its contents -/

@[simp] theorem Device.answer_regs (d : Device) (req : Option Nat) (r : Reply) : (d.answer req r).regs = d.regs := by
  unfold Device.answer
  split
  · rfl
  · split_ifs <;> rfl

@[simp] theorem Device.answer_mem (d : Device) (req : Option Nat) (r : Reply) : (d.answer req r).mem = d.mem := by
  unfold Device.answer
  split
  · rfl
  · split_ifs <;> rfl

theorem Device.memByte_answer (d : Device) (req : Option Nat) (r : Reply) (a : Nat) : (d.answer req r).memByte a = d.memByte a :=
  Device.memByte_congr_bytes (d.answer_regs req r) (by rw [d.answer_mem]) (by rw [d.answer_mem]) a

theorem Device.badBits_of_mem {e : Device} (h : e.mem = d.mem) (a : Nat) : e.badBits a = d.badBits a := by
  simp only [Device.badBits, h]

/-! ### The words of a full and of a poisoned write -/

theorem memoryFullWriteEff_closed {req : Option Nat} {src : MemSrc} {a v : Nat} {p : Bool} (h : d.memOpen a = false) :
    memoryFullWriteEff req src none a v p d = d.answer req .busError := by
  simp [memoryFullWriteEff, h]

theorem memoryFullWriteEff_good {req : Option Nat} {src : MemSrc} {a v : Nat} (h : d.memOpen a = true) :
    memoryFullWriteEff req src none a v false d = (d.setMemWord (alignWord a) (v % 2 ^ 64)).answer req .done := by
  simp [memoryFullWriteEff, h]

theorem memoryFullWriteEff_parity {req : Option Nat} {src : MemSrc} {a v : Nat} (h : d.memOpen a = true) :
    memoryFullWriteEff req src none a v true d = (d.writePoisoned (alignWord a) (v % 2 ^ 64) src).answer req .writeToPoisoned := by
  simp [memoryFullWriteEff, h]

theorem Device.latchErr_mem (d : Device) (kind synd : Nat) (src : MemSrc) (a : Nat) : (d.latchErr kind synd src a).mem = d.mem := by
  unfold Device.latchErr
  split <;> rfl

theorem Device.latchErr_other (d : Device) (kind synd : Nat) (src : MemSrc) (a : Nat) {r : Nat} (h : r ∉ [MS_ERRINFO, MS_ERRADDRL, MS_ERRADDRH]) :
    (d.latchErr kind synd src a).word r = d.word r := by
  simp only [List.mem_cons, List.not_mem_nil, or_false, not_or] at h
  obtain ⟨hinfo, hlow, hhigh⟩ := h
  unfold Device.latchErr
  split
  · rfl
  · rw [Device.word_wr_other _ _ _ hhigh, Device.word_wr_other _ _ _ hlow, Device.word_wr_other _ _ _ hinfo, Device.word_wr_other _ _ _ hinfo,
      Device.word_wr_other _ _ _ hinfo, Device.word_wr_other _ _ _ hinfo]

theorem Device.latchErr_valid (d : Device) (kind synd : Nat) (src : MemSrc) (a : Nat) : (d.latchErr kind synd src a).rd MS_ERRINFO_VALID = 1 := by
  unfold Device.latchErr
  split
  next h => simpa [Device.bit] using h
  next =>
    simp (disch := decide) only [Device.rd_wr_reg, Device.rd_wr_bits, Device.rd_wr_same]
    rfl

theorem Device.latchErr_kind (d : Device) {kind : Nat} (synd : Nat) (src : MemSrc) (a : Nat) (hv : d.bit MS_ERRINFO_VALID = false) (hk : kind < 8) :
    (d.latchErr kind synd src a).rd MS_ERRINFO_KIND = kind := by
  rw [Device.latchErr, if_neg (by simp [hv])]
  simp (disch := decide) only [Device.rd_wr_reg, Device.rd_wr_bits, Device.rd_wr_same]
  exact Nat.mod_eq_of_lt hk

/-- A poisoned write: the word's memory, and the registers of the first error. -/
theorem Device.writePoisoned_mem (d : Device) (a v : Nat) (src : MemSrc) : (d.writePoisoned a v src).mem = ((d.setMemWord a v).setBad a 0xFF).mem := by
  rw [Device.writePoisoned, Device.log_mem, Device.wr_mem, Device.latchErr_mem]

theorem Device.writePoisoned_word (d : Device) (a v : Nat) (src : MemSrc) {r : Nat} (h : r ≠ RG_LOGSTAT) :
    (d.writePoisoned a v src).word r = ((d.latchErr 4 0xFF src a).wr MS_INT_POISONWR 1).word r := by
  rw [Device.writePoisoned, Device.log_word _ _ _ _ h]
  refine Device.word_congr ?_ r
  have hregs : ((d.setMemWord a v).setBad a 0xFF).regs = d.regs := d.setMemWord_regs a v
  simp only [Device.latchErr, Device.bit_congr hregs]
  split
  · simp only [Device.wr, Device.setWord, Device.word, hregs]
  · simp only [Device.wr, Device.setWord, Device.word, hregs]

theorem Device.writePoisoned_rd (d : Device) (a v : Nat) (src : MemSrc) {f : RF} (h : f.reg ≠ RG_LOGSTAT) :
    (d.writePoisoned a v src).rd f = ((d.latchErr 4 0xFF src a).wr MS_INT_POISONWR 1).rd f :=
  Device.rd_of_word (d.writePoisoned_word a v src h)

theorem Device.memByte_writePoisoned (d : Device) (a v : Nat) (src : MemSrc) {c : Nat} (h : c < a ∨ a + 8 ≤ c) :
    (d.writePoisoned a v src).memByte c = d.memByte c := by
  have hpart : (d.writePoisoned a v src).word CB_SRAMPART = d.word CB_SRAMPART := by
    rw [Device.writePoisoned_word _ _ _ _ (by decide), Device.word_wr_other _ _ _ (by decide), Device.latchErr_other _ _ _ _ _ (by decide)]
  have hregs := d.setMemWord_regs a v
  have hpages : (d.writePoisoned a v src).poolPages = ((d.setMemWord a v).setBad a 0xFF).poolPages := by
    have hbase : ((d.setMemWord a v).setBad a 0xFF).poolPages = d.poolPages := Device.poolPages_congr hregs
    rw [hbase]
    simp only [Device.poolPages, Device.rd_of_word (f := CB_SRAMPART_BANKS) hpart]
  have hbytes : ((d.setMemWord a v).setBad a 0xFF).memByte c = (d.setMemWord a v).memByte c := Device.memByte_congr_bytes rfl rfl rfl c
  rw [Device.memByte_congr (d.writePoisoned_mem a v src) hpages, hbytes, Device.memByte_setMemWord, if_neg (by omega)]

/-! ### A narrow write -/

theorem decodeSyndrome_zero : decodeSyndrome 0 = .good := rfl

theorem memoryNarrowWriteEff_good {req : Option Nat} {src : MemSrc} {a len v : Nat} (h : d.memOpen a = true) (hb : d.badBits (alignWord a) = 0) :
    memoryNarrowWriteEff req src none a len v false ⟨0, 0, none⟩ d =
      (d.setMemWord (alignWord a) (mergeBytes (d.memWord (alignWord a)) (a - alignWord a) len v)).answer req .done := by
  simp [memoryNarrowWriteEff, h, Device.applyUpset, Device.senseWord, hb, decodeSyndrome_zero]

theorem byteOf_eq_div (v k : Nat) : byteOf v k = v / 256 ^ k % 256 := by
  rw [byteOf, Nat.shiftRight_eq_div_pow, Nat.pow_mul]

theorem ofNat_div_eq_byteOf (v k : Nat) : BitVec.ofNat 8 (v / 256 ^ k) = BitVec.ofNat 8 (byteOf v k) := by
  refine BitVec.eq_of_toNat_eq ?_
  simp [byteOf_eq_div]

theorem byteOf_mergeBytes (w o len v k : Nat) : byteOf (mergeBytes w o len v) k = if o ≤ k ∧ k < o + len then byteOf v (k - o) else byteOf w k := by
  refine Nat.eq_of_testBit_eq fun i => ?_
  by_cases hi : i < 8
  · split
    next h =>
      rw [byteOf_testBit, byteOf_testBit, mergeBytes, putBits_testBit, if_pos (by omega), show 8 * k + i - 8 * o = 8 * (k - o) + i by omega]
    next h => rw [byteOf_testBit, byteOf_testBit, mergeBytes, putBits_testBit, if_neg (by omega)]
  · split <;> simp [byteOf_testBit, hi]

theorem alignWord_le (a : Nat) : alignWord a ≤ a ∧ a < alignWord a + 8 ∧ a - alignWord a = a % 8 := by
  unfold alignWord
  omega

/-- The bytes of memory after bytes of one word were merged in. -/
theorem Device.memByte_merged (d : Device) {a len : Nat} (v c : Nat) (hlen : a % 8 + len ≤ 8) :
    (d.setMemWord (alignWord a) (mergeBytes (d.memWord (alignWord a)) (a - alignWord a) len v)).memByte c =
      if a ≤ c ∧ c < a + len then BitVec.ofNat 8 (byteOf v (c - a)) else d.memByte c := by
  obtain ⟨hle, hlt, hoff⟩ := alignWord_le a
  rw [Device.memByte_setMemWord]
  by_cases hin : alignWord a ≤ c ∧ c < alignWord a + 8
  · rw [if_pos hin, ofNat_div_eq_byteOf, byteOf_mergeBytes]
    by_cases hm : a ≤ c ∧ c < a + len
    · rw [if_pos (by omega), if_pos hm, show c - alignWord a - (a - alignWord a) = c - a by omega]
    · rw [if_neg (by omega), if_neg hm, ← ofNat_div_eq_byteOf, Device.memWord, d.memNum_byte _ (by omega), show alignWord a + (c - alignWord a) = c by omega]
  · rw [if_neg hin, if_neg (by omega)]

end Sys2Proof.Machine

open Sys2Proof Sys2Proof.Machine

/-- Settles O16: each clause from the bytes that a word written leaves. -/
theorem memoryWritesStoreAndReadBack : Obligations.MemoryWritesStoreAndReadBack := by
  refine ⟨?_, ?_, ?_, ?_, ?_⟩
  · intro d a v _
    refine ⟨d.memWord_setMemWord a v, d.badBits_setMemWord a v, fun b hb => ?_, Device.word_congr (d.setMemWord_regs a v)⟩
    rw [Device.memByte_setMemWord, if_neg (by omega)]
  · intro s req src a v h
    exact gives_eff (memoryFullWriteEff req src none a v false) rfl (memoryFullWriteEff_good h)
  · intro s req src a v h
    refine givesThat_eff (memoryFullWriteEff req src none a v true) rfl ?_
    rw [memoryFullWriteEff_parity h]
    have hrd (f : RF) : ((s.dev.writePoisoned (alignWord a) (v % 2 ^ 64) src).answer req .writeToPoisoned).rd f =
        (s.dev.writePoisoned (alignWord a) (v % 2 ^ 64) src).rd f := Device.rd_congr (Device.answer_regs _ _ _) f
    refine ⟨?_, ?_, ?_, fun hv => ?_, fun b hb => ?_⟩
    · rw [Device.badBits_of_mem (Device.answer_mem _ _ _), Device.badBits_of_mem (Device.writePoisoned_mem _ _ _ _), Device.badBits_setBad_same]
    · rw [hrd, Device.writePoisoned_rd _ _ _ _ (by decide), Device.rd_wr_same _ _ (by decide)]
      rfl
    · rw [hrd, Device.writePoisoned_rd _ _ _ _ (by decide), Device.rd_wr_reg _ _ (by decide), Device.latchErr_valid]
    · rw [hrd, Device.writePoisoned_rd _ _ _ _ (by decide), Device.rd_wr_reg _ _ (by decide), Device.latchErr_kind _ _ _ _ hv (by decide)]
    · rw [Device.memByte_answer, Device.memByte_writePoisoned _ _ _ _ hb]
  · intro s req src a v p h
    exact gives_eff (memoryFullWriteEff req src none a v p) rfl (memoryFullWriteEff_closed h)
  · intro s req src a len v h hb _ hlen
    refine givesThat_eff (memoryNarrowWriteEff req src none a len v false ⟨0, 0, none⟩) rfl ?_
    rw [memoryNarrowWriteEff_good h hb]
    refine ⟨fun k hk => ?_, fun b hb => ?_, ?_, fun b => ?_⟩
    · rw [Device.memByte_answer, Device.memByte_merged _ _ _ hlen, if_pos (by omega), Nat.add_sub_cancel_left]
    · rw [Device.memByte_answer, Device.memByte_merged _ _ _ hlen, if_neg (by omega)]
    · rw [Device.badBits_of_mem (Device.answer_mem _ _ _), Device.badBits_setMemWord]
    · rw [Device.word_congr (Device.answer_regs _ _ _), Device.word_congr (Device.setMemWord_regs _ _ _)]

end

section
/-!
The fills of SRAM and DRAM (R339, R340).
-/
namespace Sys2Proof.Machine

variable {d : Device}

/-- A table read after entries were left out by their keys. -/
theorem Sparse.get_filter_key {α : Type} (dflt : Nat → α) (keep : Nat → Bool) (t : List (Nat × α)) (k : Nat) :
    Sparse.get dflt (t.filter fun p => keep p.1) k = if keep k then Sparse.get dflt t k else dflt k := by
  induction t with
  | nil => simp [Sparse.get]
  | cons p t ih =>
    obtain ⟨a, v⟩ := p
    by_cases ha : keep a = true
    · rw [List.filter_cons_of_pos (by exact ha), Sparse.get, Sparse.get, ih]
      by_cases hk : k = a
      · simp [hk, ha]
      · simp [hk]
    · rw [List.filter_cons_of_neg (by exact ha), ih, Sparse.get]
      by_cases hk : k = a
      · simp [hk, ha]
      · simp [hk]

/-! ### Where pages and DRAM lie -/

theorem Device.poolPages_le (d : Device) : d.poolPages ≤ 130560 := by
  have hlt := getField_lt (d.word CB_SRAMPART) 0 8
  simp only [Device.poolPages, Device.rd, CB_SRAMPART_BANKS]
  omega

theorem Device.pageAt_dram {a : Nat} (h : 0x800000000 ≤ a) : d.pageAt a = none := by
  have hle := d.poolPages_le
  rw [Device.pageAt, if_neg (by omega)]

theorem Device.sideAt_dram {a : Nat} (h : 0x800000000 ≤ a) : d.sideAt a = none := by
  have hle := d.poolPages_le
  rw [Device.sideAt, if_neg (by omega)]

theorem Device.memByte_dram {a : Nat} (h : 0x800000000 ≤ a) : d.memByte a = Sparse.get (fun _ => 0) d.mem.bytes a :=
  Device.memByte_bytes (Device.pageAt_dram h) (Device.sideAt_dram h)

/-- Memory whose pages are blank and that lists no byte at an address reads 0 there. -/
theorem Device.memByte_blank {a : Nat} (hp : d.mem.pages = []) (hb : Sparse.get (fun _ => 0) d.mem.bytes a = 0) : d.memByte a = 0 := by
  have hpage (i : Nat) : d.page i = {} := by rw [Device.page, hp]; rfl
  have hzero (k : Nat) : BitVec.ofNat 8 (byteOf 0 k) = 0 := by simp [byteOf]
  unfold Device.memByte
  split
  · rw [hpage]; exact hzero _
  · split
    · rw [hpage]; exact hzero _
    · exact hb

/-! ### SRAM -/

/-- Memory after the fill of SRAM. -/
def Mem.sramCleared (m : Mem) : Mem :=
  { m with bytes := m.bytes.filter (fun c => !inSram c.1), pages := [], bad := m.bad.filter fun c => !inSram c.1 }

theorem sramFillEff_due (hup : d.up = true) (hr : d.bit MS_STATUS_SRAMRDY = false) :
    sramFillEff d = ({ d with mem := d.mem.sramCleared } : Device).wr MS_STATUS_SRAMRDY 1 := by
  simp only [sramFillEff, hup, hr, Bool.not_false, Bool.and_self, if_true]
  rfl

theorem inSram_dram {a : Nat} (h : 0x800000000 ≤ a) : inSram a = false := by
  simp only [inSram, Bool.and_eq_false_iff, decide_eq_false_iff_not]
  omega

theorem Mem.sramCleared_byte (m : Mem) (a : Nat) : Sparse.get (fun _ => (0 : BitVec 8)) m.sramCleared.bytes a =
    if inSram a then 0 else Sparse.get (fun _ => 0) m.bytes a := by
  refine (Sparse.get_filter_key (fun _ => 0) (fun k => !inSram k) m.bytes a).trans ?_
  cases inSram a <;> rfl

theorem Mem.sramCleared_bad (m : Mem) {a : Nat} (h : inSram a = true) : Sparse.cnt m.sramCleared.bad a = 0 := by
  refine (Sparse.get_filter_key (fun _ => 0) (fun k => !inSram k) m.bad a).trans ?_
  simp [h]

/-! ### DRAM -/

theorem dramTrainingEff_passed {k : Nat} (hup : d.up = true) (hs : d.rd MS_STATUS_SIZE = 0) (hf : d.bit MS_STATUS_DRAMFAIL = false) (h1 : 1 ≤ k)
    (h3 : k ≤ 3) : dramTrainingEff (.passed k) d = d.wr MS_STATUS_SIZE k := by
  have hk : ¬(k = 0 ∨ 3 < k) := by omega
  simp [dramTrainingEff, hup, hs, hf, hk]

theorem dramTrainingEff_failed {c t : Nat} (hup : d.up = true) (hs : d.rd MS_STATUS_SIZE = 0) (hf : d.bit MS_STATUS_DRAMFAIL = false) :
    dramTrainingEff (.failed c t) d = (d.wr MS_STATUS_DRAMFAIL 1).log 6 0x4008 [c, t] := by
  simp [dramTrainingEff, hup, hs, hf]

/-- Whether an address lies in the next region to fill. -/
def Device.inNextRegion (d : Device) (a : Nat) : Bool :=
  decide (0x800000000 + d.rd MS_STATUS_REGIONS * (d.dramVisible / 64) ≤ a) &&
    decide (a < 0x800000000 + d.rd MS_STATUS_REGIONS * (d.dramVisible / 64) + d.dramVisible / 64)

/-- Memory after the fill of the next region. -/
def Device.regionCleared (d : Device) : Mem :=
  { d.mem with bytes := d.mem.bytes.filter (fun c => !d.inNextRegion c.1), bad := d.mem.bad.filter fun c => !d.inNextRegion c.1 }

theorem Device.dramVisible_cases (d : Device) (h : d.dramVisible ≠ 0) :
    d.dramVisible = 0x70000000 ∨ d.dramVisible = 0xE0000000 ∨ d.dramVisible = 0x1C0000000 := by
  revert h
  unfold Device.dramVisible
  split <;> simp

/-- The next region is the part of visible DRAM that dramRegion numbers so. -/
theorem Device.inNextRegion_iff {a : Nat} (hv : d.dramVisible ≠ 0) (hk : d.rd MS_STATUS_REGIONS < 64) :
    d.inNextRegion a = true ↔ d.inDram a = true ∧ d.dramRegion a = d.rd MS_STATUS_REGIONS := by
  simp only [Device.inNextRegion, Device.inDram, Device.dramRegion, Bool.and_eq_true, decide_eq_true_eq]
  rcases d.dramVisible_cases hv with h | h | h <;> rw [h] <;> omega

/-- The registers after a region's fill. -/
def Device.regionShown (d : Device) (us : Nat) : Device :=
  if d.rd MS_STATUS_REGIONS = 63 then
    ((d.wr MS_STATUS_REGIONS (d.rd MS_STATUS_REGIONS + 1)).wr MS_STATUS_DRAMRDY 1).log 6 0x4009
      [us, (d.wr MS_STATUS_REGIONS (d.rd MS_STATUS_REGIONS + 1)).rd MS_STATUS_SIZE]
  else d.wr MS_STATUS_REGIONS (d.rd MS_STATUS_REGIONS + 1)

theorem dramRegionEff_due {us : Nat} (hv : d.dramVisible ≠ 0) (hk : d.rd MS_STATUS_REGIONS < 64) (hf : d.bit MS_STATUS_DRAMFAIL = false) :
    dramRegionEff us d = ({ d with mem := d.regionCleared } : Device).regionShown us := by
  have hdue : ¬(d.dramVisible = 0 ∨ 64 ≤ d.rd MS_STATUS_REGIONS ∨ d.bit MS_STATUS_DRAMFAIL = true) := by
    simp only [hv, hf, false_or]
    simp only [Bool.false_eq_true, or_false]
    omega
  rw [dramRegionEff, if_neg hdue]
  rfl

theorem Device.regionShown_mem (d : Device) (us : Nat) : (d.regionShown us).mem = d.mem := by
  unfold Device.regionShown
  split
  · rw [Device.log_mem, Device.wr_mem, Device.wr_mem]
  · rfl

theorem Device.regionShown_word (d : Device) (us : Nat) {a : Nat} (h : a ∉ [MS_STATUS, RG_LOGSTAT]) : (d.regionShown us).word a = d.word a := by
  simp only [List.mem_cons, List.not_mem_nil, or_false, not_or] at h
  unfold Device.regionShown
  split
  · rw [Device.log_word _ _ _ _ h.2, Device.word_wr_other _ _ _ h.1, Device.word_wr_other _ _ _ h.1]
  · rw [Device.word_wr_other _ _ _ h.1]

theorem Device.regionShown_regions (d : Device) (us : Nat) (hk : d.rd MS_STATUS_REGIONS < 64) :
    (d.regionShown us).rd MS_STATUS_REGIONS = d.rd MS_STATUS_REGIONS + 1 := by
  unfold Device.regionShown
  split
  · rw [Device.rd_of_word (Device.log_word _ _ _ _ (by decide)), Device.rd_wr_bits _ _ (by decide), Device.rd_wr_same _ _ (by decide)]
    exact Nat.mod_eq_of_lt (show _ < 128 by omega)
  · rw [Device.rd_wr_same _ _ (by decide)]
    exact Nat.mod_eq_of_lt (show _ < 128 by omega)

theorem Device.regionShown_ready (d : Device) (us : Nat) (hk : d.rd MS_STATUS_REGIONS = 63) : (d.regionShown us).bit MS_STATUS_DRAMRDY = true := by
  rw [Device.regionShown, if_pos hk, Device.bit, Device.rd_of_word (Device.log_word _ _ _ _ (by decide)), Device.rd_wr_same _ _ (by decide)]
  rfl

/-- Memory while a region is cleared, at an address. -/
theorem Device.memByte_regionCleared (hv : d.dramVisible ≠ 0) (hk : d.rd MS_STATUS_REGIONS < 64) (a : Nat) :
    ({ d with mem := d.regionCleared } : Device).memByte a = if d.inNextRegion a then 0 else d.memByte a := by
  have hget := Sparse.get_filter_key (fun _ => (0 : BitVec 8)) (fun k => !d.inNextRegion k) d.mem.bytes a
  cases hin : d.inNextRegion a with
  | true =>
    obtain ⟨hdram, -⟩ := (Device.inNextRegion_iff hv hk).1 hin
    have hlo : 0x800000000 ≤ a := by
      simp only [Device.inDram, Bool.and_eq_true, decide_eq_true_eq] at hdram
      exact hdram.1
    rw [hin] at hget
    rw [Device.memByte_dram hlo]
    exact hget
  | false =>
    rw [hin] at hget
    unfold Device.memByte
    exact congrArg (fun x => match d.pageAt a with
      | some i => BitVec.ofNat 8 (byteOf (d.page i).data (a % 0x1000))
      | none => match d.sideAt a with
        | some i => BitVec.ofNat 8 (byteOf (d.page i).side (a % 64))
        | none => x) hget

theorem Device.badBits_regionCleared {a : Nat} (h : d.inNextRegion a = true) : ({ d with mem := d.regionCleared } : Device).badBits a = 0 := by
  refine (Sparse.get_filter_key (fun _ => 0) (fun k => !d.inNextRegion k) d.mem.bad a).trans ?_
  simp [h]

end Sys2Proof.Machine

open Sys2Proof Sys2Proof.Machine

/-- Settles O18: the fills by what leaving out a table's entries reads as. -/
theorem fillsLeaveMemoryZero : Obligations.FillsLeaveMemoryZero := by
  refine ⟨?_, ?_, ?_, ?_⟩
  · intro s hup hr
    refine givesThat_eff sramFillEff rfl ?_
    rw [sramFillEff_due hup hr]
    refine ⟨Device.bit_wr_same _ _ (by decide), fun a ha => ⟨Device.memByte_blank rfl ?_, Mem.sramCleared_bad _ ha⟩, fun a ha => ?_,
      fun a ha => Device.word_wr_other _ _ _ ha⟩
    · exact (Mem.sramCleared_byte _ a).trans (if_pos ha)
    · rw [Device.memByte_dram ha, Device.memByte_dram ha]
      exact (Mem.sramCleared_byte _ a).trans (if_neg (by simp [inSram_dram ha]))
  · intro s k hup hs hf h1 h3
    exact gives_eff (dramTrainingEff (.passed k)) rfl (dramTrainingEff_passed hup hs hf h1 h3)
  · intro s c t hup hs hf
    exact gives_eff (dramTrainingEff (.failed c t)) rfl (dramTrainingEff_failed hup hs hf)
  · intro s us hv hk hf
    refine givesThat_eff (dramRegionEff us) rfl ?_
    rw [dramRegionEff_due hv hk hf]
    have hmem (a : Nat) : (({ s.dev with mem := s.dev.regionCleared } : Device).regionShown us).memByte a =
        if s.dev.inNextRegion a then 0 else s.dev.memByte a := by
      have hpart := Device.regionShown_word ({ s.dev with mem := s.dev.regionCleared } : Device) us (a := CB_SRAMPART) (by decide)
      rw [← Device.memByte_regionCleared hv hk]
      exact Device.memByte_congr (Device.regionShown_mem _ us) (by simp only [Device.poolPages, Device.rd_of_word (f := CB_SRAMPART_BANKS) hpart]) a
    refine ⟨Device.regionShown_regions _ us hk, fun h63 => Device.regionShown_ready _ us h63, fun a hd hr => ⟨?_, ?_⟩, fun a ha => ?_,
      fun a ha => Device.regionShown_word _ us ha⟩
    · rw [hmem, if_pos ((Device.inNextRegion_iff hv hk).2 ⟨hd, hr⟩)]
    · rw [Device.badBits_of_mem (Device.regionShown_mem _ us)]
      exact Device.badBits_regionCleared ((Device.inNextRegion_iff hv hk).2 ⟨hd, hr⟩)
    · rw [hmem, if_neg]
      rintro hin
      obtain ⟨hd, hr⟩ := (Device.inNextRegion_iff hv hk).1 hin
      rcases ha with ha | ha
      · simp [hd] at ha
      · exact ha hr

end

section
/-!
The buffer pool: reservations, their grants, the shares, and the lanes' read standby (R32, R346, R347).
-/
namespace Sys2Proof.Machine

variable {d : Device}

/-! ### Requests -/

theorem Device.partyWaits_eq_false {p : Party} : d.partyWaits p = false ↔ ∀ w ∈ d.pool.waiting, w.party ≠ p := by
  simp [Device.partyWaits]

theorem Device.partyWaits_eq_true {p : Party} : d.partyWaits p = true ↔ ∃ w ∈ d.pool.waiting, w.party = p := by
  simp [Device.partyWaits]

theorem Device.reserve_granted {id n : Nat} {p : Party} {u : Bool} (hf : d.poolFits p n = true) (hw : ∀ w ∈ d.pool.waiting, w.party ≠ p) :
    d.reserve id p n u = { d with pool := { d.pool with resv := d.pool.resv ++ [{ id := id, party := p, left := n }] } } := by
  rw [Device.reserve, if_pos (by simp [hf, Device.partyWaits_eq_false.2 hw])]

theorem Device.reserve_waits {id n : Nat} {p : Party} {u : Bool} (h : d.poolFits p n = false ∨ ∃ w ∈ d.pool.waiting, w.party = p) :
    d.reserve id p n u = { d with pool := { d.pool with
      waiting := d.pool.waiting ++ [{ id := id, party := p, n := n, urgent := u, logged := false }] } } := by
  rw [← Device.partyWaits_eq_true] at h
  rw [Device.reserve, if_neg]
  rcases h with h | h <;> simp [h]

theorem poolRequestEff_refused {id n : Nat} {p : Party} {u : Bool} (h : n = 0 ∨ 64 < n) :
    poolRequestEff id p n u d = d.emit (.reply (some id) .busError) := by
  rw [poolRequestEff, if_pos h]

theorem poolRequestEff_reserves {id n : Nat} {p : Party} {u : Bool} (h1 : 1 ≤ n) (h64 : n ≤ 64) :
    poolRequestEff id p n u d = d.reserve id p n u := by
  rw [poolRequestEff, if_neg (by omega)]

/-! ### Grants -/

theorem Device.pointer_setPointer (d : Device) (c : ContPoint) (p : Party) : (d.setPointer c p).pointer c = p := by
  have hrest : (d.fabric.pointers.filter (·.1 != c)).find? (·.1 == c) = none := by
    simp
  unfold Device.pointer Device.setPointer
  dsimp only
  by_cases hp : p = .ln0
  · rw [if_pos hp, hrest, hp]
  · rw [if_neg hp, List.find?_append, hrest]
    simp

/-- Whether the first waiting request of a party can be granted, or is urgent as well. -/
def Device.poolReadyFor (d : Device) (p : Party) (urgentOnly : Bool) : Bool :=
  match d.firstWait p with
  | some w => d.poolFits p w.n && (w.urgent || !urgentOnly)
  | none => false

/-- The party whose request the allocator grants: an urgent one that fits, else any that fits, from the pointer on. -/
def Device.poolPick (d : Device) : Option Party :=
  ((rotation (d.pointer .poolAllocator)).find? (d.poolReadyFor · true)).orElse fun _ =>
    (rotation (d.pointer .poolAllocator)).find? (d.poolReadyFor · false)

/-- A waiting request granted whole, the pointer moved on. -/
def Device.grantWait (d : Device) (p : Party) (w : PoolWait) : Device :=
  Device.setPointer { d with pool := { d.pool with
    waiting := d.pool.waiting.filter (·.id != w.id)
    resv := d.pool.resv ++ [{ id := w.id, party := p, left := w.n }] } } .poolAllocator (d.pointer .poolAllocator).next

theorem poolGrantEff_eq (d : Device) : poolGrantEff d =
    match d.poolPick with
    | none => d
    | some p => match d.firstWait p with
      | none => d
      | some w => d.grantWait p w := by
  unfold poolGrantEff Device.poolPick Device.poolReadyFor
  rfl

theorem Device.poolPick_none (h : ∀ p u, d.poolReadyFor p u = false) : d.poolPick = none := by
  simp [Device.poolPick, h]

/-- With one party ready alone, it is picked. -/
theorem Device.poolPick_one {q : Party} (hready : d.poolReadyFor q false = true) (hother : ∀ p ≠ q, ∀ u, d.poolReadyFor p u = false) :
    d.poolPick = some q := by
  have honly (u : Bool) (x : Party) (hx : (rotation (d.pointer .poolAllocator)).find? (d.poolReadyFor · u) = some x) : x = q := by
    by_contra hne
    have := List.find?_some hx
    simp [hother x hne u] at this
  have hsome : (rotation (d.pointer .poolAllocator)).find? (d.poolReadyFor · false) ≠ none := fun hnone =>
    List.find?_eq_none.1 hnone q (mem_rotation _ q) hready
  unfold Device.poolPick
  cases htrue : (rotation (d.pointer .poolAllocator)).find? (d.poolReadyFor · true) with
  | some x => rw [honly true x htrue]; rfl
  | none =>
    obtain ⟨x, hx⟩ := Option.ne_none_iff_exists'.1 hsome
    rw [hx, honly false x hx]
    rfl

theorem Device.firstWait_single {w : PoolWait} (h : d.pool.waiting = [w]) (p : Party) :
    d.firstWait p = if w.party = p then some w else none := by
  rw [Device.firstWait, h, List.find?_singleton]
  simp

theorem poolGrantEff_single {w : PoolWait} (h : d.pool.waiting = [w]) (hf : d.poolFits w.party w.n = true) :
    poolGrantEff d = d.grantWait w.party w := by
  have hfirst : d.firstWait w.party = some w := by rw [Device.firstWait_single h, if_pos rfl]
  have hpick : d.poolPick = some w.party := by
    refine Device.poolPick_one ?_ fun p hp u => ?_
    · simp [Device.poolReadyFor, hfirst, hf]
    · simp [Device.poolReadyFor, Device.firstWait_single h, Ne.symm hp]
  rw [poolGrantEff_eq, hpick]
  dsimp only
  rw [hfirst]

theorem Device.poolReadyFor_unfit (h : ∀ w ∈ d.pool.waiting, d.poolFits w.party w.n = false) (p : Party) (u : Bool) : d.poolReadyFor p u = false := by
  unfold Device.poolReadyFor
  split
  next w hw =>
    have hparty : w.party = p := by simpa using List.find?_some hw
    rw [← hparty, h w (List.mem_of_find?_eq_some hw)]
    rfl
  next => rfl

theorem poolGrantEff_unfit (h : ∀ w ∈ d.pool.waiting, d.poolFits w.party w.n = false) : poolGrantEff d = d := by
  rw [poolGrantEff_eq, Device.poolPick_none (Device.poolReadyFor_unfit h)]

/-! ### The 100 ms notice and the shares -/

theorem poolWaitTimeoutEff_notes {id : Nat} {w : PoolWait} (hw : d.pool.waiting.find? (fun x => x.id == id) = some w) (hl : w.logged = false) :
    poolWaitTimeoutEff id d = (({ d with pool := { d.pool with
      waiting := d.pool.waiting.map fun x => if x.id = id then { x with logged := true } else x } } : Device).wr MS_INT_POOLWAIT 1).log 6 0x400A
      [w.party.idx, w.n] := by
  simp [poolWaitTimeoutEff, hw, hl]

theorem poolResWriteEff_taken {p : Party} {v : Word} (h64 : p = .cipher ∨ 64 ≤ getField v 0 13)
    (hsum : ((allParties.filter (· != p)).map d.poolRes).foldl (· + ·) 0 + getField v 0 13 ≤ d.poolPages) :
    poolResWriteEff p v d = d.wr (MS_POOL_RES_RES p.idx) (getField v 0 13) := by
  rw [poolResWriteEff, if_neg]
  rintro (⟨hp, hlow⟩ | hover)
  · rcases h64 with h | h
    · exact hp h
    · omega
  · omega

theorem poolResWriteEff_ignored {p : Party} {v : Word} (h : (p ≠ .cipher ∧ getField v 0 13 < 64) ∨
    d.poolPages < ((allParties.filter (· != p)).map d.poolRes).foldl (· + ·) 0 + getField v 0 13) : poolResWriteEff p v d = d := by
  rw [poolResWriteEff, if_pos h]

/-! ### The read standby -/

theorem Device.resv_find_none {id : Nat} (h : ∀ r ∈ d.pool.resv, r.id ≠ id) : d.pool.resv.find? (·.id == id) = none := by
  simpa using h

/-- The lane's standby asks for what it lacks, unless it has asked. -/
def Device.standbyAsked (d : Device) (l : Lane) : Device :=
  if (d.standby l).length < 8 ∧ !d.pool.resv.any (·.id == standbyId l) ∧ !d.pool.waiting.any (·.id == standbyId l) then
    d.reserve (standbyId l) l.party (8 - (d.standby l).length) (decide ((d.standby l).length < 3))
  else d

/-- The lane's standby takes the pages of its reservation. -/
def Device.standbyTaken (d : Device) (l : Lane) : Device :=
  match d.pool.resv.find? (·.id == standbyId l) with
  | none => d
  | some r => (d.allocPages (standbyId l) r.left).2.setStandby l (d.standby l ++ (d.allocPages (standbyId l) r.left).1)

theorem standbyRefillEff_eq (d : Device) (l : Lane) : standbyRefillEff l d = (d.standbyAsked l).standbyTaken l := rfl

theorem Device.standbyTaken_none {l : Lane} (hr : ∀ r ∈ d.pool.resv, r.id ≠ standbyId l) : d.standbyTaken l = d := by
  rw [Device.standbyTaken, Device.resv_find_none hr]

theorem standbyRefillEff_full {l : Lane} (h8 : 8 ≤ (d.standby l).length) (hr : ∀ r ∈ d.pool.resv, r.id ≠ standbyId l) : standbyRefillEff l d = d := by
  have hasked : d.standbyAsked l = d := by rw [Device.standbyAsked, if_neg (by omega)]
  rw [standbyRefillEff_eq, hasked, Device.standbyTaken_none hr]

/-- The reservation of one page for a lane's standby. -/
def onePage (l : Lane) : PoolResv := { id := standbyId l, party := l.party, left := 1 }

theorem Device.standbyAsked_one {l : Lane} (h7 : (d.standby l).length = 7) (hr : ∀ r ∈ d.pool.resv, r.id ≠ standbyId l)
    (hw : ∀ w ∈ d.pool.waiting, w.party ≠ l.party ∧ w.id ≠ standbyId l) (hf : d.poolFits l.party 1 = true) :
    d.standbyAsked l = { d with pool := { d.pool with resv := d.pool.resv ++ [onePage l] } } := by
  have hnew : d.pool.resv.any (·.id == standbyId l) = false := by simpa using hr
  have hidle : d.pool.waiting.any (·.id == standbyId l) = false := by simpa using fun w hm => (hw w hm).2
  rw [Device.standbyAsked, if_pos (by simp [h7, hnew, hidle]), h7, Device.reserve_granted hf fun w hm => (hw w hm).1]
  rfl

/-- A reservation taken whole is gone. -/
theorem takeResv_last {rs : List PoolResv} {r : PoolResv} (hr : ∀ x ∈ rs, x.id ≠ r.id) (h1 : r.left ≤ 1) : takeResv r.id (rs ++ [r]) = rs := by
  induction rs with
  | nil => simp [takeResv, h1]
  | cons x rs ih => rw [List.cons_append, takeResv, if_neg (hr x (by simp)), ih fun y hy => hr y (by simp [hy])]

/-- One page taken from the one-page reservation of a standby, from the head of the free list. -/
theorem Device.allocPages_one {l : Lane} {rs : List PoolResv} {i k : Nat} {t : List (Nat × Nat)} (hresv : d.pool.resv = rs ++ [onePage l])
    (hr : ∀ r ∈ rs, r.id ≠ standbyId l) (hfree : d.pool.free = (i, k) :: t) (hk : 0 < k) :
    d.allocPages (standbyId l) 1 = ([i], { d with pool := { d.pool with
      free := if k = 1 then t else (i + 1, k - 1) :: t, resv := rs, alloc := d.pool.alloc ++ [(i, l.party)] } }) := by
  have hfind : (rs ++ [onePage l]).find? (·.id == standbyId l) = some (onePage l) := by
    rw [List.find?_append, List.find?_eq_none.2 (by simpa using hr)]
    simp [onePage]
  have htake : takeResv (standbyId l) (rs ++ [onePage l]) = rs := takeResv_last (r := onePage l) hr (le_refl 1)
  have hone : d.allocPage (standbyId l) = some (i, { d with pool := { d.pool with
      free := if k = 1 then t else (i + 1, k - 1) :: t, resv := rs, alloc := d.pool.alloc ++ [(i, l.party)] } }) := by
    rw [Device.allocPage, hresv, hfind, hfree, poolHead, if_neg (by omega), htake]
    rfl
  rw [Device.allocPages, hone]
  rfl

/-- The device whose standby took one page. -/
theorem standbyRefillEff_one {l : Lane} {i k : Nat} {t : List (Nat × Nat)} (h7 : (d.standby l).length = 7) (hf : d.poolFits l.party 1 = true)
    (hw : ∀ w ∈ d.pool.waiting, w.party ≠ l.party ∧ w.id ≠ standbyId l) (hr : ∀ r ∈ d.pool.resv, r.id ≠ standbyId l)
    (hfree : d.pool.free = (i, k) :: t) (hk : 0 < k) :
    standbyRefillEff l d = ({ d with pool := { d.pool with
      free := if k = 1 then t else (i + 1, k - 1) :: t, alloc := d.pool.alloc ++ [(i, l.party)] } } : Device).setStandby l (d.standby l ++ [i]) := by
  have hfind : (d.pool.resv ++ [onePage l]).find? (·.id == standbyId l) = some (onePage l) := by
    rw [List.find?_append, Device.resv_find_none hr]
    simp [onePage]
  have halloc := Device.allocPages_one (d := { d with pool := { d.pool with resv := d.pool.resv ++ [onePage l] } }) rfl hr hfree hk
  rw [standbyRefillEff_eq, Device.standbyAsked_one h7 hr hw hf, Device.standbyTaken, hfind]
  dsimp only [onePage] at halloc ⊢
  rw [halloc]
  cases l <;> rfl

theorem Device.setStandby_same (d : Device) (l : Lane) (ps : List Nat) : (d.setStandby l ps).standby l = ps := by
  cases l <;> rfl

theorem Device.setStandby_frame (d : Device) (l : Lane) (ps : List Nat) : (d.setStandby l ps).pool.alloc = d.pool.alloc ∧
    (d.setStandby l ps).pool.resv = d.pool.resv ∧ (d.setStandby l ps).regs = d.regs ∧ (d.setStandby l ps).mem = d.mem := by
  cases l <;> exact ⟨rfl, rfl, rfl, rfl⟩

end Sys2Proof.Machine

open Sys2Proof Sys2Proof.Machine

/-- Settles O19: requests, grants, shares and the standby, each by its rule. -/
theorem bufferPoolGrantsAndShares : Obligations.BufferPoolGrantsAndShares := by
  refine ⟨?_, ?_, ?_, ?_, ?_, ?_, ?_, ?_, ?_, ?_⟩
  · intro s id n p u h
    exact gives_eff (poolRequestEff id p n u) rfl (poolRequestEff_refused h)
  · intro s id n p u h1 h64 hf hw
    exact gives_eff (poolRequestEff id p n u) rfl ((poolRequestEff_reserves h1 h64).trans (Device.reserve_granted hf hw))
  · intro s id n p u h1 h64 h
    exact gives_eff (poolRequestEff id p n u) rfl ((poolRequestEff_reserves h1 h64).trans (Device.reserve_waits h))
  · intro s w hw hf
    refine givesThat_eff poolGrantEff rfl ?_
    rw [poolGrantEff_single hw hf]
    exact ⟨by simp [Device.grantWait, Device.setPointer, hw], rfl, Device.pointer_setPointer _ _ _, untouched_of_regs rfl rfl⟩
  · intro s h
    exact gives_eff poolGrantEff rfl (poolGrantEff_unfit h)
  · intro s id w hw hl
    refine givesThat_eff (poolWaitTimeoutEff id) rfl ?_
    rw [poolWaitTimeoutEff_notes hw hl]
    refine ⟨?_, by simp, by simp, untouched_of (fun a ha => ?_) (by simp) (by decide)⟩
    · rw [Device.rd_of_word (Device.log_word _ _ _ _ (by decide)), Device.rd_wr_same _ _ (by decide)]
      rfl
    · simp only [List.mem_cons, List.not_mem_nil, or_false, not_or] at ha
      rw [Device.log_word _ _ _ _ ha.2, Device.word_wr_other _ _ _ ha.1]
      rfl
  · intro s p v h64 hsum
    exact gives_eff (poolResWriteEff p v) rfl (poolResWriteEff_taken h64 hsum)
  · intro s p v h
    exact gives_eff (poolResWriteEff p v) rfl (poolResWriteEff_ignored h)
  · intro s l h8 hr
    exact gives_eff (standbyRefillEff l) rfl (standbyRefillEff_full h8 hr)
  · intro s l i k t h7 hf hw hr hfree hk
    refine givesThat_eff (standbyRefillEff l) rfl ?_
    rw [standbyRefillEff_one h7 hf hw hr hfree hk]
    obtain ⟨halloc, hresv, hregs, hmem⟩ := Device.setStandby_frame { s.dev with pool := { s.dev.pool with
      free := if k = 1 then t else (i + 1, k - 1) :: t, alloc := s.dev.pool.alloc ++ [(i, l.party)] } } l (s.dev.standby l ++ [i])
    exact ⟨Device.setStandby_same _ _ _, halloc, hresv, untouched_of_regs hregs hmem⟩

end

section
/-!
The PCIe ports (R52 to R55).
-/
namespace Sys2Proof.Machine

variable {d : Device} {p : Nat}

/-! ### A rate-limited entry of the logbook -/

/-- A rate-limited entry changes at most the logbook, its sequence number, and RG_LOGSTAT, where dropped entries are counted. -/
theorem Device.logRate_cases (d : Device) (src code scope : Nat) (ps : List Nat) :
    ∃ n l, d.logRate src code scope ps = { d.logRaw src code (severityOf code) n ps with logbook := l } ∨
      d.logRate src code scope ps = { d with logbook := l } := by
  simp only [Device.logRate]
  split_ifs
  · exact ⟨0, _, Or.inr rfl⟩
  · exact ⟨0, (d.logRaw src code (severityOf code) 0 ps).logbook, Or.inl rfl⟩
  · exact ⟨_, _, Or.inl rfl⟩

theorem Device.logRate_word (d : Device) (src code scope : Nat) (ps : List Nat) {a : Nat} (h : a ≠ RG_LOGSTAT) :
    (d.logRate src code scope ps).word a = d.word a := by
  obtain ⟨n, l, he | he⟩ := d.logRate_cases src code scope ps
  · rw [he]; exact d.logRaw_word src code _ n ps h
  · rw [he]; rfl

@[simp] theorem Device.logRate_mem (d : Device) (src code scope : Nat) (ps : List Nat) : (d.logRate src code scope ps).mem = d.mem := by
  obtain ⟨n, l, he | he⟩ := d.logRate_cases src code scope ps
  · rw [he]; exact d.logRaw_mem src code _ n ps
  · rw [he]

@[simp] theorem Device.logRate_beside (d : Device) (src code scope : Nat) (ps : List Nat) : (d.logRate src code scope ps).beside = d.beside := by
  obtain ⟨n, l, he | he⟩ := d.logRate_cases src code scope ps
  · rw [he]; exact d.logRaw_beside src code _ n ps
  · rw [he]; rfl

/-! ### Ports -/

theorem Device.hasPort_cases (h : d.hasPort p = true) : p = 0 ∨ p = 1 := by
  simp only [Device.hasPort, decide_eq_true_eq] at h
  split at h <;> omega

theorem perstAssertEff_running (hp : d.hasPort p = true) (hup : d.up = true) :
    perstAssertEff p d = ((d.controllerReset p).setWord (HS_LINK_STS p) (resetWord (HS_LINK_STS p))).log 0 0x1003 [p] := by
  simp [perstAssertEff, hp, hup]

theorem perstDeassertEff_running (hp : d.hasPort p = true) (hup : d.up = true) : perstDeassertEff p d = d.wr (HS_LINK_STS_PERST p) 0 := by
  simp [perstDeassertEff, hp, hup]

theorem linkDownEff_up (hp : d.hasPort p = true) (hr : d.bit (HS_LINK_STS_PERST p) = false) (hu : d.bit (HS_LINK_STS_UP p) = true) :
    linkDownEff p d =
      (((d.controllerReset p).setWord (HS_LINK_STS p) (resetWord (HS_LINK_STS p))).wr (HS_LINK_STS_PERST p) 0).log 0 0x1002 [p] := by
  simp [linkDownEff, hp, hr, hu]

/-- The link up at a generation and width. -/
def Device.linkUp (d : Device) (p g w : Nat) : Device :=
  (((d.wr (HS_LINK_STS_UP p) 1).wr (HS_LINK_STS_WIDTH p) w).wr (HS_LINK_STS_SPEED p) g).log 0 0x1001 [p, w, g]

theorem linkTrainedEff_trains {g w : Nat} (hp : d.hasPort p = true) (hup : d.up = true) (hrec : d.boot.phase ≠ .recovery)
    (hr : d.bit (HS_LINK_STS_PERST p) = false) (hu : d.bit (HS_LINK_STS_UP p) = false) (hg : 1 ≤ g) (hw : 1 ≤ w) (hgen : 1 ≤ d.rd CB_HOST_GEN) :
    linkTrainedEff p g w d = d.linkUp p (min g (min 5 (d.rd CB_HOST_GEN))) (min w (if d.twoPorts then 1 else 2)) := by
  have hwidth : 1 ≤ (if d.twoPorts = true then 1 else 2) := by split <;> omega
  have hsome : ¬(min g (min 5 (d.rd CB_HOST_GEN)) = 0 ∨ min w (if d.twoPorts = true then 1 else 2) = 0) := by omega
  have hphase : (d.boot.phase == .recovery) = false := by simpa using hrec
  simp only [linkTrainedEff, hp, hup, hphase, hr, hu, Bool.not_true, Bool.or_self, Bool.false_eq_true, if_false, hsome]
  rfl

theorem Device.linkUp_word (d : Device) (p g w : Nat) {a : Nat} (h : a ∉ [HS_LINK_STS p, RG_LOGSTAT]) : (d.linkUp p g w).word a = d.word a := by
  simp only [List.mem_cons, List.not_mem_nil, or_false, not_or] at h
  rw [Device.linkUp, Device.log_word _ _ _ _ h.2, Device.word_wr_other _ _ _ h.1, Device.word_wr_other _ _ _ h.1, Device.word_wr_other _ _ _ h.1]

theorem Device.linkUp_fields (d : Device) {g w : Nat} (hp : p = 0 ∨ p = 1) (hg : g < 16) (hw : w < 16) :
    (d.linkUp p g w).bit (HS_LINK_STS_UP p) = true ∧ (d.linkUp p g w).rd (HS_LINK_STS_SPEED p) = g ∧
      (d.linkUp p g w).rd (HS_LINK_STS_WIDTH p) = w := by
  have hlog (f : RF) (hf : f.reg ≠ RG_LOGSTAT) : (d.linkUp p g w).rd f =
      (((d.wr (HS_LINK_STS_UP p) 1).wr (HS_LINK_STS_WIDTH p) w).wr (HS_LINK_STS_SPEED p) g).rd f :=
    Device.rd_of_word (Device.log_word _ _ _ _ hf)
  rcases hp with rfl | rfl <;>
    rw [Device.bit, hlog _ (by decide), hlog _ (by decide), hlog _ (by decide)] <;>
    simp (disch := decide) only [Device.rd_wr_bits, Device.rd_wr_same] <;>
    exact ⟨rfl, Nat.mod_eq_of_lt hg, Nat.mod_eq_of_lt hw⟩

theorem sramPart_not_link (hp : p = 0 ∨ p = 1) : CB_SRAMPART ∉ [HS_LINK_STS p, RG_LOGSTAT] := by
  rcases hp with rfl | rfl <;> decide

/-! ### Correctable errors -/

theorem correctableEff_cases (hp : d.hasPort p = true) : ∃ h : HostSt,
    correctableEff p d = { d.incSat (HS_LINK_STS_CORR_CNT p) with host := h } ∨
    correctableEff p d = ({ d.incSat (HS_LINK_STS_CORR_CNT p) with host := h } : Device).logRate 0 0x1004 p [p] := by
  rw [correctableEff, if_neg (by simp [hp])]
  extract_lets d₁ t fresh n start d₂
  by_cases h255 : 255 ≤ n
  · exact ⟨_, Or.inr (if_pos h255)⟩
  · exact ⟨_, Or.inl (if_neg h255)⟩

theorem correctableEff_word (hp : d.hasPort p = true) {a : Nat} (h : a ≠ RG_LOGSTAT) :
    (correctableEff p d).word a = (d.incSat (HS_LINK_STS_CORR_CNT p)).word a := by
  obtain ⟨h', he | he⟩ := correctableEff_cases hp
  · rw [he]; rfl
  · rw [he, Device.logRate_word _ _ _ _ _ h]; rfl

theorem correctableEff_mem (hp : d.hasPort p = true) : (correctableEff p d).mem = d.mem := by
  obtain ⟨h', he | he⟩ := correctableEff_cases hp
  · rw [he]; rfl
  · rw [he, Device.logRate_mem]; rfl

end Sys2Proof.Machine

open Sys2Proof Sys2Proof.Machine

/-- Settles O20: the port's registers follow each event by its rule. -/
theorem linkPortsFollowPerstAndTraining : Obligations.LinkPortsFollowPerstAndTraining := by
  refine ⟨?_, ?_, ?_, ?_, ?_, ?_, ?_, ?_⟩
  · intro s p hp hup
    exact gives_eff (perstAssertEff p) rfl (perstAssertEff_running hp hup)
  · intro s p hp hup
    exact gives_eff (perstDeassertEff p) rfl (perstDeassertEff_running hp hup)
  · intro s p g w hp hup hrec hr hu hg hw hgen
    refine givesThat_eff (linkTrainedEff p g w) rfl ?_
    rw [linkTrainedEff_trains hp hup hrec hr hu hg hw hgen]
    have hport := Device.hasPort_cases hp
    obtain ⟨hbit, hspeed, hwidth⟩ := s.dev.linkUp_fields (g := min g (min 5 (s.dev.rd CB_HOST_GEN)))
      (w := min w (if s.dev.twoPorts then 1 else 2)) hport (by omega) (by split <;> omega)
    exact ⟨hbit, hspeed, hwidth, untouched_of (fun a ha => Device.linkUp_word _ _ _ _ ha) (Device.log_mem _ _ _ _) (sramPart_not_link hport)⟩
  · intro s p hp hr hu
    exact gives_eff (linkDownEff p) rfl (linkDownEff_up hp hr hu)
  · intro s p hp hu
    exact gives_eff (fun d => if d.hasPort p && d.bit (HS_LINK_STS_UP p) then d.emit (.config p (!d.released)) else d) rfl (by simp [hp, hu])
  · intro s p hu
    exact gives_eff (fun d => if d.bit (HS_LINK_STS_UP p) then d.wr (HS_LINK_STS_L12 p) 1 else d) rfl (if_pos hu)
  · intro s p
    exact gives_eff (fun d => d.wr (HS_LINK_STS_L12 p) 0) rfl rfl
  · intro s p hp
    have hport := Device.hasPort_cases hp
    refine givesThat_eff (correctableEff p) rfl ⟨?_, untouched_of (fun a ha => ?_) (correctableEff_mem hp) (sramPart_not_link hport)⟩
    · have hreg : (HS_LINK_STS_CORR_CNT p).reg ≠ RG_LOGSTAT := by rcases hport with rfl | rfl <;> decide
      have hfits : (HS_LINK_STS_CORR_CNT p).lo + (HS_LINK_STS_CORR_CNT p).n ≤ 32 := by rcases hport with rfl | rfl <;> decide
      rw [Device.rd_of_word (correctableEff_word hp hreg), Device.incSat, Device.rd_wr_same _ _ hfits]
      exact Nat.mod_eq_of_lt (lt_of_le_of_lt (Nat.min_le_right _ _) (show 2 ^ 8 - 1 < 2 ^ 8 by decide))
    · simp only [List.mem_cons, List.not_mem_nil, or_false, not_or] at ha
      rw [correctableEff_word hp ha.2, Device.incSat, Device.word_wr_other _ _ _ ha.1]

end

section
/-!
Controllers: enabling, readiness, reset, failed reads of host memory, and coalesced messages (R55, R59, R61, R116, R480).
-/
namespace Sys2Proof.Machine

variable {d : Device} {c : Nat}

/-! ### A controller's state -/

theorem Device.ctrls_cases (h : c ∈ d.ctrls) : c = 0 ∨ c = 1 := by
  simp only [Device.ctrls] at h
  split at h <;> simp at h <;> omega

@[simp] theorem Device.ctrl_updCtrl_same (d : Device) (c : Nat) (f : Ctrl → Ctrl) : (d.updCtrl c f).ctrl c = f (d.ctrl c) := by
  by_cases h : c = 0 <;> simp [Device.ctrl, Device.updCtrl, Device.updHost, h]

@[simp] theorem Device.updCtrl_regs (d : Device) (c : Nat) (f : Ctrl → Ctrl) : (d.updCtrl c f).regs = d.regs := rfl
@[simp] theorem Device.updCtrl_mem (d : Device) (c : Nat) (f : Ctrl → Ctrl) : (d.updCtrl c f).mem = d.mem := rfl

/-! ### Enabling and readiness -/

/-- The controller enabled, with its admin queues in their places. -/
def Device.enabled (d : Device) (c : Nat) (crime : Bool) (asq acq : Nat) : Device :=
  (d.updCtrl c fun k => { k with en := true, crime := crime }).updHost fun h =>
    { h with
      sqs := (h.sqs.filter fun q => decide (q.ctrl < c)) ++ [{ ctrl := c, qid := 0, size := asq, cq := 0 }] ++
        (h.sqs.filter fun q => decide (c < q.ctrl))
      cqs := h.cqs ++ [{ ctrl := c, qid := 0, size := acq, vector := 0 }] }

theorem ccEnSetEff_enables {crime : Bool} {asq acq : Nat} (hc : c ∈ d.ctrls) (hr : d.released = true) (hu : d.bit (HS_LINK_STS_UP c) = true)
    (hen : (d.ctrl c).en = false) (hrdy : (d.ctrl c).rdy = false) (hres : (d.ctrl c).resetting = false) :
    ccEnSetEff c crime asq acq d = d.enabled c crime asq acq := by
  simp [ccEnSetEff, hc, hr, hu, hen, hrdy, hres, Device.enabled]

theorem Device.resumeErase_ctrl (d : Device) (c : Nat) : d.resumeErase.ctrl c = d.ctrl c := by
  simp only [Device.resumeErase]
  split_ifs <;> rfl

theorem Device.resumeErase_regs (d : Device) : d.resumeErase.regs = d.regs := by
  simp only [Device.resumeErase]
  split_ifs <;> rfl

theorem Device.resumeErase_mem (d : Device) : d.resumeErase.mem = d.mem := by
  simp only [Device.resumeErase]
  split_ifs <;> rfl

theorem controllerReadyEff_ready (hen : (d.ctrl c).en = true) (hrdy : (d.ctrl c).rdy = false)
    (h : (d.ctrl c).crime = true ∨ (d.atSpeed = true ∧ d.mediumReady = true)) :
    controllerReadyEff c d = (d.updCtrl c fun k => { k with rdy := true }).resumeErase := by
  have hcond : ((d.ctrl c).crime || (d.atSpeed && d.mediumReady)) = true := by simpa using h
  simp [controllerReadyEff, hen, hrdy, hcond]

theorem controllerReadyEff_not_yet (hcrime : (d.ctrl c).crime = false) (h : d.atSpeed = false ∨ d.mediumReady = false) :
    controllerReadyEff c d = d := by
  have hcond : (d.atSpeed && d.mediumReady) = false := by rwa [Bool.and_eq_false_iff]
  simp [controllerReadyEff, hcrime, hcond]

/-! ### Reset -/

theorem ccEnClearEff_enabled (h : (d.ctrl c).en = true) : ccEnClearEff c d = (d.controllerReset c).log 0 0x1007 [c] := by
  rw [ccEnClearEff, if_pos h]

theorem resetDrainedEff_drained (hr : (d.ctrl c).resetting = true) (hcmds : ∀ x ∈ d.host.cmds, x.id.ctrl = c → x.silent = false) :
    resetDrainedEff c d = d.updCtrl c fun k => { k with rdy := false, resetting := false } := by
  have hnone : (d.host.cmds.any fun x => x.id.ctrl == c && x.silent) = false := by simpa using hcmds
  rw [resetDrainedEff, if_pos (by simp [hr, hnone])]

theorem rdyTimeoutEff_resetting (h : (d.ctrl c).resetting = true) :
    rdyTimeoutEff c d = d.updCtrl c fun k => { k with rdy := false, resetting := false } := by
  rw [rdyTimeoutEff, if_pos h]

/-! ### Failed reads of host memory -/

theorem Device.hostReadFailed_queueFetch {code : Nat} (h : (d.ctrl c).en = true) :
    d.hostReadFailed (.queueFetch c) code = (d.log 0 code [c]).updCtrl c fun k => { k with cfs := true, stopped := true } := by
  simp [Device.hostReadFailed, h]

/-- The entry logged leaves the commands as they are. -/
theorem Device.cmd_log (d : Device) (src code : Nat) (ps : List Nat) (id : CmdId) : (d.log src code ps).cmd id = d.cmd id := by
  simp only [Device.cmd, Device.log_host]

theorem Device.hostReadFailed_latePull {id : CmdId} {k code : Nat} {w : Cmd} {u : WUnit} (hw : d.cmd id = some w) (hu : w.units[k]? = some u)
    (hst : u.st = .pulling) : d.hostReadFailed (.latePull id k) code = ((d.log 0 code [id.ctrl]).failFrom w.no k .dataTransfer).settle := by
  simp [Device.hostReadFailed, Device.unitOf, Device.pullFailed, Device.cmd_log, hw, hu, hst]

/-! ### Coalesced messages -/

theorem coalescingEff_sends {q : Nat} {x : CplQ} (hx : d.host.cqs.find? (fun x => x.ctrl == c && x.qid == q) = some x) (hh : x.held ≠ 0)
    (hirq : x.irq = true) : coalescingEff c q d = (d.updHost fun h =>
      { h with cqs := h.cqs.map fun z => if z.ctrl == c && z.qid == q then { z with held := 0 } else z }).emit (.msix c x.vector) := by
  simp [coalescingEff, hx, hh, hirq]

theorem held_of_cleared {q : Nat} {zs : List CplQ} {z : CplQ}
    (hz : z ∈ zs.map fun z => if z.ctrl == c && z.qid == q then { z with held := 0 } else z) (hc : z.ctrl = c) (hq : z.qid = q) : z.held = 0 := by
  obtain ⟨y, -, rfl⟩ := List.mem_map.1 hz
  by_cases h : (y.ctrl == c && y.qid == q) = true
  · rw [if_pos h]
  · rw [if_neg h] at hc hq
    simp [hc, hq] at h

end Sys2Proof.Machine

open Sys2Proof Sys2Proof.Machine

/-- Settles O21: each event's effect in its case. -/
theorem controllersEnableReadyAndReset : Obligations.ControllersEnableReadyAndReset := by
  refine ⟨?_, ?_, ?_, ?_, ?_, ?_, ?_, ?_, ?_, ?_⟩
  · intro s c asq acq crime hc hr hu hen hrdy hres
    refine givesThat_eff (ccEnSetEff c crime asq acq) rfl ?_
    rw [ccEnSetEff_enables hc hr hu hen hrdy hres]
    have hctrl : (s.dev.enabled c crime asq acq).ctrl c = { s.dev.ctrl c with en := true, crime := crime } :=
      Device.ctrl_updCtrl_same s.dev c fun k => { k with en := true, crime := crime }
    rw [hctrl]
    exact ⟨rfl, rfl, hrdy, by simp [Device.enabled, Device.updHost], by simp [Device.enabled, Device.updHost], rfl, rfl⟩
  · intro s c hen hrdy h
    refine givesThat_eff (controllerReadyEff c) rfl ?_
    rw [controllerReadyEff_ready hen hrdy h, Device.resumeErase_ctrl, Device.resumeErase_regs, Device.resumeErase_mem, Device.ctrl_updCtrl_same]
    exact ⟨rfl, rfl, rfl⟩
  · intro s c _ hcrime h
    exact gives_eff (controllerReadyEff c) rfl (controllerReadyEff_not_yet hcrime h)
  · intro s c h
    exact gives_eff (ccEnClearEff c) rfl (ccEnClearEff_enabled h)
  · intro s c hr hcmds
    exact gives_eff (resetDrainedEff c) rfl (resetDrainedEff_drained hr hcmds)
  · intro s c h
    exact gives_eff (rdyTimeoutEff c) rfl (rdyTimeoutEff_resetting h)
  · intro s c h
    exact gives_eff (fun d => d.hostReadFailed (.queueFetch c) 0x1006) rfl (Device.hostReadFailed_queueFetch h)
  · intro s c h
    exact gives_eff (fun d => d.hostReadFailed (.queueFetch c) 0x1005) rfl (Device.hostReadFailed_queueFetch h)
  · intro s id k w u hw hu hst
    exact ⟨gives_eff (fun d => d.hostReadFailed (.latePull id k) 0x1006) rfl (Device.hostReadFailed_latePull hw hu hst),
      gives_eff (fun d => d.hostReadFailed (.latePull id k) 0x1005) rfl (Device.hostReadFailed_latePull hw hu hst)⟩
  · intro s c q x hx hh hirq
    refine givesThat_eff (coalescingEff c q) rfl ?_
    rw [coalescingEff_sends hx hh hirq]
    exact ⟨rfl, fun z hz => held_of_cleared hz, untouched_of_regs rfl rfl⟩

end

section
/-!
Fetching: the doorbell, the arbiter's entry, the order stamps (R83, R90 to R99).
-/
namespace Sys2Proof.Machine

variable {d : Device} {c q t : Nat}

/-! ### The doorbell -/

/-- A queue's tail moved. -/
def Device.movedTail (d : Device) (c q t : Nat) : Device :=
  d.updHost fun h => { h with sqs := h.sqs.map fun y => if y.ctrl == c && y.qid == q then { y with tail := t } else y }

theorem doorbellEff_disabled (h : (d.ctrl c).en = false) : doorbellEff c q t d = d := by
  simp [doorbellEff, h]

theorem doorbellEff_resumes {x : SubQ} (hen : (d.ctrl c).en = true) (hx : d.host.sqs.find? (fun x => x.ctrl == c && x.qid == q) = some x)
    (ht : t < x.size) (hcfs : (d.ctrl c).cfs = false) (hf : d.forcing = false) :
    doorbellEff c q t d = (d.movedTail c q t).updCtrl c fun k => { k with stopped := false } := by
  have hgo : (((d.movedTail c q t).ctrl c).cfs || (d.movedTail c q t).forcing) = false := by
    rw [Bool.or_eq_false_iff]
    exact ⟨hcfs, hf⟩
  simp only [doorbellEff, hen, Bool.not_true, Bool.false_eq_true, if_false, hx]
  rw [if_neg (by omega)]
  exact if_neg (by rw [Bool.not_eq_true]; exact hgo)

theorem tail_of_moved {ys : List SubQ} {y : SubQ} (hy : y ∈ ys.map fun y => if y.ctrl == c && y.qid == q then { y with tail := t } else y)
    (hc : y.ctrl = c) (hq : y.qid = q) : y.tail = t := by
  obtain ⟨z, -, rfl⟩ := List.mem_map.1 hy
  by_cases h : (z.ctrl == c && z.qid == q) = true
  · rw [if_pos h]
  · rw [if_neg h] at hc hq
    simp [hc, hq] at h

/-! ### The arbiter's entry -/

theorem commandFetchEff_idle {e : Sqe} (h : d.arbNext = none) : commandFetchEff c q e d = d := by
  simp [commandFetchEff, h]

theorem commandFetchEff_admin {x : SubQ} {left cid op : Nat} (h : d.arbNext = some (x, left)) (hq : x.qid = 0) :
    commandFetchEff x.ctrl 0 { cid := cid, op := .admin op } d = (d.tookEntry x left).fetchAdmin ⟨x.ctrl, 0, cid⟩ op := by
  simp [commandFetchEff, h, hq]

theorem commandFetchEff_io {x : SubQ} {left cid nsid : Nat} {op : IoOp} (h : d.arbNext = some (x, left)) (hq : x.qid ≠ 0) :
    commandFetchEff x.ctrl x.qid { cid := cid, op := .io nsid op } d = ((d.tookEntry x left).fetchIo ⟨x.ctrl, x.qid, cid⟩ nsid op).fetchWake := by
  simp [commandFetchEff, h, hq]

theorem fetchResumeEff_resumes (hh : ∀ c ∈ d.host.cmds, c.held = false) (hlim : d.inFlight < 1024) :
    fetchResumeEff d = (d.wr HS_INFLIGHT_PAUSE_OT 0).wr HS_INFLIGHT_PAUSE_LIM 0 := by
  have hnone : d.host.cmds.find? (·.held) = none := by simpa using hh
  simp only [fetchResumeEff, hnone]
  exact if_pos hlim

/-! ### Stamps -/

theorem Device.ns_of_attached {n : Nat} {x : Ns} (h : d.attachedNs c n = some x) : d.ns n = some x := by
  simp only [Device.attachedNs, Option.filter_eq_some_iff] at h
  exact h.1

theorem Device.checkLimit_host (d : Device) : d.checkLimit.host = d.host := by
  unfold Device.checkLimit
  split <;> rfl

theorem Device.takeZones_entry (d : Device) (k : Cmd) :
    (d.takeZones k).no = k.no ∧ (d.takeZones k).stamp = k.stamp ∧ (d.takeZones k).id = k.id := by
  unfold Device.takeZones
  split <;> exact ⟨rfl, rfl, rfl⟩

/-- Making a command's table entries keeps every command's number, stamp and identifier, and the stamps to come. -/
theorem Device.makeEntries_entry {w k : Cmd} (hk : k ∈ d.host.cmds) :
    (∃ k' ∈ (d.makeEntries w).host.cmds, k'.no = k.no ∧ k'.stamp = k.stamp ∧ k'.id = k.id) ∧ (d.makeEntries w).host.stamps = d.host.stamps := by
  unfold Device.makeEntries
  split
  · exact ⟨⟨k, hk, rfl, rfl, rfl⟩, rfl⟩
  · refine ⟨⟨_, List.mem_map.2 ⟨k, hk, rfl⟩, ?_⟩, rfl⟩
    split
    · exact Device.takeZones_entry _ _
    · exact ⟨rfl, rfl, rfl⟩

/-- The device with a command held at the end of its table. -/
def Device.entered (d : Device) (w : Cmd) : Device :=
  d.updHost fun h => { h with cmds := h.cmds ++ [{ w with held := true }], nextNo := h.nextNo + 1 }

/-- A read that fits the table is taken in with its number, stamp and identifier, and leaves the stamps. -/
theorem Device.takeIn_read {w : Cmd} {x : Ns} {a n : Nat} {pi : PiCtl} (hop : w.op = .read a n pi) (hot : d.otUsed < 2048) :
    (∃ k ∈ (d.takeIn w x).host.cmds, k.no = w.no ∧ k.stamp = w.stamp ∧ k.id = w.id) ∧ (d.takeIn w x).host.stamps = d.host.stamps := by
  have hlen : (w.entries x).length = 1 := by simp [Cmd.entries, hop]
  have hused : (d.entered w).otUsed = d.otUsed := rfl
  have hfits : ¬2048 < (d.entered w).otUsed + (w.entries x).length := by omega
  have htake : d.takeIn w x = ((d.entered w).makeEntries w).checkLimit := congrArg Device.checkLimit (if_neg hfits)
  rw [htake, Device.checkLimit_host]
  exact Device.makeEntries_entry (d := d.entered w) (k := { w with held := true }) (List.mem_append_right _ (List.mem_singleton.2 rfl))

theorem badFields_read {x : Ns} {a n : Nat} {pi : PiCtl} (h1 : 1 ≤ n) (h512 : n ≤ 512) (hx : a + n ≤ x.blocks) : badFields x (.read a n pi) = none := by
  simp only [badFields]
  rw [if_neg (by omega), if_neg (by omega)]

theorem Resv.conflicts_free {r : Resv} (h : r.rtype = 0) (c : Nat) (op : IoOp) : r.conflicts c op = false := by
  simp [Resv.conflicts, h]

/-- A read that nothing refuses is taken in. -/
theorem Device.enterCmd_read {w : Cmd} {x : Ns} {a n : Nat} {pi : PiCtl} (hop : w.op = .read a n pi) (he : d.eraseRefuses w.nsid = none)
    (hl : w.nsid ∉ d.host.loss) (hd : x.deferred = false) (h1 : 1 ≤ n) (h512 : n ≤ 512) (hx : a + n ≤ x.blocks) (hr : x.res.rtype = 0)
    (hm : d.mediumReady = true) : d.enterCmd w x = d.takeIn w x := by
  have hloss : d.host.loss.contains w.nsid = false := by simpa using hl
  simp only [Device.enterCmd, he, hloss, hd, hop, badFields_read h1 h512 hx, Resv.conflicts_free hr, hm, Bool.not_true, Bool.and_false,
    Bool.false_eq_true, if_false, IoOp.isReservation]

/-- The namespace's next stamp given out. -/
def Device.stamped (d : Device) (nsid : Nat) : Device :=
  d.updHost fun h => { h with stamps := Sparse.setCnt h.stamps nsid ((Sparse.cnt d.host.stamps nsid + 1) % 2 ^ 32) }

/-- The record of a fetched read. -/
def Device.fetchedRead (d : Device) (id : CmdId) (nsid a n : Nat) (pi : PiCtl) : Cmd :=
  { no := d.host.nextNo, id := id, nsid := nsid, op := .read a n pi, stamp := some (Sparse.cnt d.host.stamps nsid) }

theorem Device.fetchIo_read {id : CmdId} {nsid a n : Nat} {pi : PiCtl} {x : Ns} (hx : d.attachedNs id.ctrl nsid = some x) :
    d.fetchIo id nsid (.read a n pi) = (d.stamped nsid).enterCmd (d.fetchedRead id nsid a n pi) x := by
  simp [Device.fetchIo, hx, Device.stamped, Device.fetchedRead]

/-- A read that nothing refuses stands in the table with the namespace's next stamp, and the stamp after it is the next. -/
theorem Device.fetchIo_read_taken {id : CmdId} {nsid a n : Nat} {pi : PiCtl} {x : Ns} (hx : d.attachedNs id.ctrl nsid = some x)
    (he : d.eraseRefuses nsid = none) (hl : nsid ∉ d.host.loss) (hd : x.deferred = false) (h1 : 1 ≤ n) (h512 : n ≤ 512) (hr : a + n ≤ x.blocks)
    (hres : x.res.rtype = 0) (hm : d.mediumReady = true) (hot : d.otUsed < 2048) :
    (∃ k ∈ (d.fetchIo id nsid (.read a n pi)).host.cmds, k.no = d.host.nextNo ∧ k.stamp = some (Sparse.cnt d.host.stamps nsid) ∧ k.id = id) ∧
      (d.fetchIo id nsid (.read a n pi)).host.stamps = (d.stamped nsid).host.stamps := by
  rw [Device.fetchIo_read hx, Device.enterCmd_read (d := d.stamped nsid) (w := d.fetchedRead id nsid a n pi) rfl he hl hd h1 h512 hr hres hm]
  exact Device.takeIn_read (d := d.stamped nsid) (w := d.fetchedRead id nsid a n pi) rfl hot

end Sys2Proof.Machine

open Sys2Proof Sys2Proof.Machine

/-- Settles O22: the doorbell and the arbiter by their cases, the stamp by following a read through its checks. -/
theorem fetchingAndStamps : Obligations.FetchingAndStamps := by
  refine ⟨?_, ?_, ?_, ?_, ?_, ?_, ?_⟩
  · intro s c q t x hen hx ht hcfs hf
    refine givesThat_eff (doorbellEff c q t) rfl ?_
    rw [doorbellEff_resumes hen hx ht hcfs hf]
    exact ⟨by rw [Device.ctrl_updCtrl_same], fun y hy => tail_of_moved hy, rfl, untouched_of_regs rfl rfl⟩
  · intro s c q t h
    exact gives_eff (doorbellEff c q t) rfl (doorbellEff_disabled h)
  · intro s x left cid op h hq
    exact gives_eff (commandFetchEff x.ctrl 0 { cid := cid, op := .admin op }) rfl (commandFetchEff_admin h hq)
  · intro s x left cid nsid op h hq
    exact gives_eff (commandFetchEff x.ctrl x.qid { cid := cid, op := .io nsid op }) rfl (commandFetchEff_io h hq)
  · intro s c q e h
    exact gives_eff (commandFetchEff c q e) rfl (commandFetchEff_idle h)
  · intro s hh hlim
    refine givesThat_eff fetchResumeEff rfl ?_
    rw [fetchResumeEff_resumes hh hlim]
    refine ⟨?_, ?_, rfl, untouched_of (fun a ha => ?_) rfl (by decide)⟩
    · simp (disch := decide) only [Device.rd_wr_bits, Device.rd_wr_same]
      rfl
    · simp (disch := decide) only [Device.rd_wr_same]
      rfl
    · have hne : a ≠ HS_INFLIGHT := by simpa using ha
      rw [Device.word_wr_other _ _ _ hne, Device.word_wr_other _ _ _ hne]
  · intro d id nsid a n pi x hx he hl hdef h1 h512 hrange hr hm hot
    obtain ⟨⟨k, hk, hno, hstamp, hid⟩, hstamps⟩ := Device.fetchIo_read_taken (pi := pi) hx he hl hdef h1 h512 hrange hr hm hot
    exact ⟨k, hk, hno, hstamp, hid, by rw [hstamps]; exact Sparse.get_put_same _ _ _ _⟩

end

section
/-!
Queues and admin commands: what a standing admin command does (R58, R60, R61, R71, R73, R75, R117, R118).
-/
namespace Sys2Proof.Machine

variable {s : State} {d : Device} {id : CmdId}

theorem Device.onAdmin_stands {op : Nat} {f : Device → Device} (h : Stands s id op) : s.dev.onAdmin id op f = f s.dev := if_pos h

/-! ### Creating queues -/

theorem Device.badQueue_good {q n : Nat} (h1 : 1 ≤ q) (hq : q ≤ d.queuePairs) (hn : 2 ≤ n) (hm : n ≤ 4096) : d.badQueue q n true false = none := by
  rw [Device.badQueue, if_neg (by simp; omega), if_neg (by omega), if_neg (by simp)]

theorem Device.badQueue_number {q n : Nat} {pc taken : Bool} (h : q = 0 ∨ d.queuePairs < q) :
    d.badQueue q n pc taken = some .invalidQueueId :=
  if_pos (by tauto)

theorem any_sq_false {c q : Nat} {xs : List SubQ} (h : ∀ x ∈ xs, ¬(x.ctrl = c ∧ x.qid = q)) : (xs.any fun x => x.ctrl == c && x.qid == q) = false := by
  simpa using h

theorem any_sq_true {c q : Nat} {xs : List SubQ} (h : ∃ x ∈ xs, x.ctrl = c ∧ x.qid = q) : (xs.any fun x => x.ctrl == c && x.qid == q) = true := by
  simpa using h

theorem any_cq_false {c q : Nat} {xs : List CplQ} (h : ∀ x ∈ xs, ¬(x.ctrl = c ∧ x.qid = q)) : (xs.any fun x => x.ctrl == c && x.qid == q) = false := by
  simpa using h

theorem any_cq_true {c q : Nat} {xs : List CplQ} (h : ∃ x ∈ xs, x.ctrl = c ∧ x.qid = q) : (xs.any fun x => x.ctrl == c && x.qid == q) = true := by
  simpa using h

theorem createSqEff_makes {q n cq : Nat} (hs : Stands s id 0x01) (h1 : 1 ≤ q) (hq : q ≤ s.dev.queuePairs)
    (hfree : ∀ x ∈ s.dev.host.sqs, ¬(x.ctrl = id.ctrl ∧ x.qid = q)) (hn : 2 ≤ n) (hm : n ≤ 4096) (hcq : cq ≠ 0)
    (hx : ∃ x ∈ s.dev.host.cqs, x.ctrl = id.ctrl ∧ x.qid = cq) :
    createSqEff id q n cq true s.dev =
      (s.dev.updHost fun h => { h with sqs := insertSq { ctrl := id.ctrl, qid := q, size := n, cq := cq } h.sqs }).adminDone id .success := by
  rw [createSqEff, Device.onAdmin_stands hs, any_sq_false hfree, Device.badQueue_good h1 hq hn hm, any_cq_true hx]
  exact if_neg (by simp [hcq])

theorem createSqEff_number {q n cq : Nat} {pc : Bool} (hs : Stands s id 0x01) (h : q = 0 ∨ s.dev.queuePairs < q) :
    createSqEff id q n cq pc s.dev = s.dev.adminDone id .invalidQueueId := by
  rw [createSqEff, Device.onAdmin_stands hs, Device.badQueue_number h]

theorem createCqEff_checked {q n v : Nat} {ien : Bool} (hs : Stands s id 0x05) (h1 : 1 ≤ q) (hq : q ≤ s.dev.queuePairs)
    (hfree : ∀ x ∈ s.dev.host.cqs, ¬(x.ctrl = id.ctrl ∧ x.qid = q)) (hn : 2 ≤ n) (hm : n ≤ 4096) :
    createCqEff id q n v true ien s.dev =
      if s.dev.vectors ≤ v then s.dev.adminDone id .invalidVector
      else (s.dev.updHost fun h => { h with cqs := h.cqs ++ [{ ctrl := id.ctrl, qid := q, size := n, vector := v, irq := ien }] }).adminDone id .success := by
  rw [createCqEff, Device.onAdmin_stands hs, any_cq_false hfree, Device.badQueue_good h1 hq hn hm]

/-! ### Deleting queues -/

theorem deleteSqEff_none {q : Nat} (hs : Stands s id 0x00) (h : q = 0 ∨ (∀ x ∈ s.dev.host.sqs, ¬(x.ctrl = id.ctrl ∧ x.qid = q))) :
    deleteSqEff id q s.dev = s.dev.adminDone id .invalidQueueId := by
  rw [deleteSqEff, Device.onAdmin_stands hs]
  exact if_pos (h.imp_right any_sq_false)

/-- The queue marked as being deleted, its command waiting. -/
def Device.deletingSq (d : Device) (id : CmdId) (q : Nat) : Device :=
  (d.updHost fun h =>
    { h with sqs := h.sqs.map fun x => if x.ctrl == id.ctrl && x.qid == q then { x with deleting := true } else x }).updCtrl id.ctrl fun k =>
      { k with admin := k.admin.map fun a => if a.id == id then { a with wait := some q } else a }

theorem Device.reclaim_frame (d : Device) (b : Nat) :
    (d.reclaim b).host.sqs = d.host.sqs ∧ (d.reclaim b).out = d.out ∧ (d.reclaim b).regs = d.regs := by
  unfold Device.reclaim
  split
  · exact ⟨rfl, rfl, rfl⟩
  · dsimp only
    split_ifs <;> exact ⟨rfl, rfl, rfl⟩

theorem Device.reclaimAll_frame (d : Device) :
    d.reclaimAll.host.sqs = d.host.sqs ∧ d.reclaimAll.out = d.out ∧ d.reclaimAll.regs = d.regs := by
  unfold Device.reclaimAll
  generalize d.host.tables.bands.map (·.1) = bs
  induction bs generalizing d with
  | nil => exact ⟨rfl, rfl, rfl⟩
  | cons b bs ih =>
    obtain ⟨hsqs, hout, hregs⟩ := ih (d.reclaim b)
    obtain ⟨bsqs, bout, bregs⟩ := d.reclaim_frame b
    exact ⟨hsqs.trans bsqs, hout.trans bout, hregs.trans bregs⟩

/-- With no command in flight, nothing is settled but the bands. -/
theorem Device.settle_empty (h : d.host.cmds = []) :
    d.settle.host.sqs = d.host.sqs ∧ d.settle.out = d.out ∧ d.settle.regs = d.regs := by
  simp only [Device.settle, h, List.map_nil, List.foldl_nil]
  exact Device.reclaimAll_frame _

theorem deleteSqEff_marks {q : Nat} (hs : Stands s id 0x00) (hq : q ≠ 0) (hx : ∃ x ∈ s.dev.host.sqs, x.ctrl = id.ctrl ∧ x.qid = q)
    (hc : s.dev.host.cmds = []) : deleteSqEff id q s.dev = (s.dev.deletingSq id q).settle := by
  have hnone : (s.dev.deletingSq id q).fromQueue id.ctrl q = [] := by
    have hcmds : (s.dev.deletingSq id q).host.cmds = [] := hc
    simp only [Device.fromQueue, hcmds, List.filter_nil, List.map_nil]
  have heff : deleteSqEff id q s.dev =
      (((s.dev.deletingSq id q).fromQueue id.ctrl q).foldl (fun d n => d.abortCmd n .abortedSq) (s.dev.deletingSq id q)).settle := by
    rw [deleteSqEff, Device.onAdmin_stands hs]
    exact if_neg (by rw [any_sq_true hx]; simp [hq])
  rw [heff, hnone, List.foldl_nil]

theorem deleteSqDoneEff_done {a : AdminCmd} {q : Nat} (ha : d.adminCmd id 0x00 = some a) (hw : a.wait = some q) (hn : d.fromQueue id.ctrl q = []) :
    deleteSqDoneEff id d =
      (d.updHost fun h => { h with sqs := h.sqs.filter fun x => !(x.ctrl == id.ctrl && x.qid == q) }).adminDone id .success := by
  simp [deleteSqDoneEff, ha, hw, hn]

theorem deleteCqEff_deletes {q : Nat} (hs : Stands s id 0x04) (hq : q ≠ 0) (hx : ∃ x ∈ s.dev.host.cqs, x.ctrl = id.ctrl ∧ x.qid = q)
    (hfree : ∀ x ∈ s.dev.host.sqs, ¬(x.ctrl = id.ctrl ∧ x.cq = q)) :
    deleteCqEff id q s.dev =
      (s.dev.updHost fun h => { h with cqs := h.cqs.filter fun x => !(x.ctrl == id.ctrl && x.qid == q) }).adminDone id .success := by
  rw [deleteCqEff, Device.onAdmin_stands hs, any_cq_true hx, if_neg (by simp [hq]), if_neg (by simpa using hfree)]

theorem deleteCqEff_named {q : Nat} (hs : Stands s id 0x04) (hq : q ≠ 0) (hx : ∃ x ∈ s.dev.host.cqs, x.ctrl = id.ctrl ∧ x.qid = q)
    (hused : ∃ x ∈ s.dev.host.sqs, x.ctrl = id.ctrl ∧ x.cq = q) : deleteCqEff id q s.dev = s.dev.adminDone id .queueDeletion := by
  rw [deleteCqEff, Device.onAdmin_stands hs, any_cq_true hx, if_neg (by simp [hq]), if_pos (by simpa using hused)]

/-! ### Abort, log pages, Identify -/

theorem abortEff_none {q cid : Nat} (hs : Stands s id 0x08) (h : s.dev.cmd ⟨id.ctrl, q, cid⟩ = none) :
    abortEff id q cid s.dev = s.dev.adminDone id .success 1 := by
  rw [abortEff, Device.onAdmin_stands hs, h]
  rfl

theorem abortEff_aborts {q cid : Nat} {c : Cmd} (hs : Stands s id 0x08) (h : s.dev.cmd ⟨id.ctrl, q, cid⟩ = some c) (ha : c.abortable = true) :
    abortEff id q cid s.dev = ((s.dev.abortCmd c.no .abortRequested).settle).adminDone id .success 0 := by
  rw [abortEff, Device.onAdmin_stands hs, h, Option.filter_some_pos ha]

theorem getLogEff_gives {lid nsid lsp off len : Nat} {e : Device} (hs : Stands s id 0x02)
    (h : s.dev.getLog (some id) id.ctrl lid nsid lsp off len = some e) : getLogEff id lid nsid lsp off len s.dev = e.adminDone id .success := by
  rw [getLogEff, Device.onAdmin_stands hs, h]

theorem getLogEff_unaligned {lid nsid lsp off len : Nat} (hs : Stands s id 0x02) (h : off % 4 ≠ 0) :
    getLogEff id lid nsid lsp off len s.dev = s.dev.adminDone id .invalidField := by
  have hnone : s.dev.getLog (some id) id.ctrl lid nsid lsp off len = none := if_pos (.inr h)
  rw [getLogEff, Device.onAdmin_stands hs, hnone]

theorem identifyEff_gives {cns nsid : Nat} {fs : List (String × Nat)} (hs : Stands s id 0x06) (h : s.dev.identify id.ctrl cns nsid = .ok fs) :
    identifyEff id cns nsid s.dev = (s.dev.emit (.fields (some id) fs)).adminDone id .success := by
  rw [identifyEff, Device.onAdmin_stands hs, h]

theorem Device.identify_ns {c nsid : Nat} {x : Ns} (h : d.attachedNs c nsid = some x) : d.identify c 0x00 nsid = .ok (d.identifyNs x) := by
  simp only [Device.identify, h]

/-! ### Features and event requests -/

theorem setFeaturesEff_unknown {fid nsid a b : Nat} {t : List (Nat × (Nat × Nat))} (hs : Stands s id 0x09) (h : fid ∉ featureIds) :
    setFeaturesEff id fid nsid a b t s.dev = s.dev.adminDone id .invalidField := by
  rw [setFeaturesEff, Device.onAdmin_stands hs]
  exact if_pos (by simpa using h)

theorem setFeaturesEff_power_bad {nsid a b : Nat} {t : List (Nat × (Nat × Nat))} (hs : Stands s id 0x09) (h : 4 < a % 32) :
    setFeaturesEff id 0x02 nsid a b t s.dev = s.dev.adminDone id .invalidField := by
  rw [setFeaturesEff, Device.onAdmin_stands hs]
  exact if_pos h

theorem Device.feat_setFeat (d : Device) (c f x v : Nat) : (d.setFeat c f x v).feat c f x = v := by
  simp only [Device.feat, Device.setFeat, Device.ctrl_updCtrl_same]
  exact Sparse.get_put_same _ _ _ _

theorem aerEff_waits (hs : Stands s id 0x0C) (h : (s.dev.ctrl id.ctrl).aens = []) :
    aerEff id s.dev = (s.dev.dropAdmin id).updCtrl id.ctrl fun k => { k with aers := k.aers ++ [id] } := by
  rw [aerEff, Device.onAdmin_stands hs, h]

theorem aerEff_takes {a : Aen} {rest : List Aen} (hs : Stands s id 0x0C) (h : (s.dev.ctrl id.ctrl).aens = a :: rest) :
    aerEff id s.dev = (s.dev.updCtrl id.ctrl fun k => { k with aens := rest }).adminDone id .success (a.typ + 256 * a.info + 65536 * a.page) := by
  rw [aerEff, Device.onAdmin_stands hs, h]

end Sys2Proof.Machine

open Sys2Proof Sys2Proof.Machine

/-- Settles O23: each admin command stands, so its own cases decide. -/
theorem queuesAndAdminCommandsAnswer : Obligations.QueuesAndAdminCommandsAnswer := by
  refine ⟨?_, ?_, ?_, ?_, ?_, ?_, ?_, ?_, ?_, ?_, ?_, ?_, ?_, ?_, ?_, ?_, ?_, ?_, ?_, ?_, ?_, ?_, ?_⟩
  · intro s id q n cq hs h1 hq hfree hn hm hcq hx
    exact gives_eff (createSqEff id q n cq true) rfl (createSqEff_makes hs h1 hq hfree hn hm hcq hx)
  · intro s id q n cq pc hs h
    exact gives_eff (createSqEff id q n cq pc) rfl (createSqEff_number hs h)
  · intro s id q n v ien hs h1 hq hfree hn hm hv
    exact gives_eff (createCqEff id q n v true ien) rfl ((createCqEff_checked hs h1 hq hfree hn hm).trans (if_neg (by omega)))
  · intro s id q n v ien hs h1 hq hfree hn hm hv
    exact gives_eff (createCqEff id q n v true ien) rfl ((createCqEff_checked hs h1 hq hfree hn hm).trans (if_pos hv))
  · intro s id q hs h
    exact gives_eff (deleteSqEff id q) rfl (deleteSqEff_none hs h)
  · intro s id q hs hq hx hc
    refine givesThat_eff (deleteSqEff id q) rfl ?_
    rw [deleteSqEff_marks hs hq hx hc]
    obtain ⟨hsqs, hout, hregs⟩ := Device.settle_empty (d := s.dev.deletingSq id q) hc
    rw [hsqs]
    refine ⟨fun x hx hctrl hqid => ?_, fun x hx hne => List.mem_map.2 ⟨x, hx, if_neg (by simpa using hne)⟩, hout, hregs⟩
    obtain ⟨z, -, rfl⟩ := List.mem_map.1 hx
    by_cases hz : (z.ctrl == id.ctrl && z.qid == q) = true
    · rw [if_pos hz]
    · rw [if_neg hz] at hctrl hqid
      simp [hctrl, hqid] at hz
  · intro s id a q ha hw hn
    exact gives_eff (deleteSqDoneEff id) rfl (deleteSqDoneEff_done ha hw hn)
  · intro s id q hs hq hx hfree
    exact gives_eff (deleteCqEff id q) rfl (deleteCqEff_deletes hs hq hx hfree)
  · intro s id q hs hq hx hused
    exact gives_eff (deleteCqEff id q) rfl (deleteCqEff_named hs hq hx hused)
  · intro s id q cid hs h
    exact gives_eff (abortEff id q cid) rfl (abortEff_none hs h)
  · intro s id q cid c hs h ha
    exact gives_eff (abortEff id q cid) rfl (abortEff_aborts hs h ha)
  · intro s id lid nsid lsp off len e hs h
    exact gives_eff (getLogEff id lid nsid lsp off len) rfl (getLogEff_gives hs h)
  · intro s id lid nsid lsp off len hs h
    exact gives_eff (getLogEff id lid nsid lsp off len) rfl (getLogEff_unaligned hs h)
  · intro s id nsid hs
    exact gives_eff (identifyEff id 0x01 nsid) rfl (identifyEff_gives hs rfl)
  · intro s id nsid x hs hx
    exact gives_eff (identifyEff id 0x00 nsid) rfl (identifyEff_gives hs (Device.identify_ns hx))
  · intro s id fid nsid a b t hs h
    exact gives_eff (setFeaturesEff id fid nsid a b t) rfl (setFeaturesEff_unknown hs h)
  · intro s id nsid a b t hs
    exact gives_eff (setFeaturesEff id 0x81 nsid a b t) rfl (Device.onAdmin_stands hs)
  · intro s id nsid a b t hs
    exact gives_eff (setFeaturesEff id 0x0C nsid a b t) rfl (Device.onAdmin_stands hs)
  · intro s id nsid a b t hs h
    exact gives_eff (setFeaturesEff id 0x02 nsid a b t) rfl (setFeaturesEff_power_bad hs h)
  · intro s id nsid a hs
    exact gives_eff (getFeaturesEff id 0x81 nsid a) rfl (Device.onAdmin_stands hs)
  · exact Device.feat_setFeat
  · intro s id hs h
    exact gives_eff (aerEff id) rfl (aerEff_waits hs h)
  · intro s id a rest hs h
    exact gives_eff (aerEff id) rfl (aerEff_takes hs h)

end

section
/-!
Completions: the queue they go to, and its phase (R57, R59).
-/
namespace Sys2Proof.Machine

/-- Replacing every element that a test finds by one that it finds, the test finds the replacement. -/
theorem find?_map_replace {α : Type} {p : α → Bool} {xs : List α} {x y : α} (hx : xs.find? p = some x) (hy : p y = true) :
    (xs.map fun z => if p z then y else z).find? p = some y := by
  have hp : (p ∘ fun z => if p z = true then y else z) = p := by
    funext z
    by_cases hz : p z = true
    · simp [Function.comp, hz, hy]
    · simp only [Function.comp, if_neg hz]
  rw [List.find?_map, hp, hx]
  simp only [Option.map_some, if_pos (List.find?_some hx)]

/-- Posting to a queue shows the completion with the queue's phase first; the tail goes on by one and the phase turns where it comes round. -/
theorem Device.postCq_found {d : Device} {c q : Nat} {o : Bool → Output} {x : CplQ}
    (hx : d.host.cqs.find? (fun z => z.ctrl == c && z.qid == q) = some x) :
    (d.postCq c q o).out.take (d.out.length + 1) = d.out ++ [o x.phase] ∧
    ∃ y, (d.postCq c q o).host.cqs.find? (fun z => z.ctrl == c && z.qid == q) = some y ∧
      y.tail = (x.tail + 1) % max x.size 1 ∧ y.phase = (if y.tail = 0 then !x.phase else x.phase) ∧ y.size = x.size ∧ y.vector = x.vector := by
  have htest : (x.ctrl == c && x.qid == q) = true := List.find?_some (p := fun z : CplQ => z.ctrl == c && z.qid == q) hx
  simp only [Device.postCq, hx]
  refine ⟨?_, ?_⟩
  · split <;> simp [Device.emit, Device.updHost, List.take_append]
  · split <;> exact ⟨_, find?_map_replace (p := fun z : CplQ => z.ctrl == c && z.qid == q) hx htest, rfl, rfl, rfl, rfl⟩

end Sys2Proof.Machine

open Sys2Proof Sys2Proof.Machine

/-- Settles O24: posting to the queue that the submission queue names. -/
theorem completionsGoToTheirQueueWithItsPhase : Obligations.CompletionsGoToTheirQueueWithItsPhase := by
  intro d id st a b x hx
  exact Device.postCq_found hx

end

section
/-!
NVMe-MI, Force Power State and the autonomous power-state steps (R70, R71, R82, R83, R412).
-/
namespace Sys2Proof.Machine

variable {d : Device}

theorem Device.onMi_on {f : Device → Device} (h : d.regOn = true) : d.onMi f = f d := if_pos h

theorem gives_onMi {i : Instr} {s : State} (f : Device → Device) (hx : exec i s = s.upd fun d => d.onMi f) (h : s.dev.regOn = true) :
    Gives i s (f s.dev) :=
  gives_eff (fun d => d.onMi f) hx (Device.onMi_on h)

theorem givesThat_onMi {i : Instr} {s : State} {P : Device → Prop} (f : Device → Device) (hx : exec i s = s.upd fun d => d.onMi f)
    (h : s.dev.regOn = true) (hp : P (f s.dev)) : GivesThat i s P :=
  givesThat_eff (fun d => d.onMi f) hx (by rwa [Device.onMi_on h])

theorem Device.onMi_off {f : Device → Device} (h : d.regOn = false) : d.onMi f = d := if_neg (by simp [h])

/-! ### NVMe-MI -/

theorem miConfigSetEff_sets {k : Nat} (h : d.regOn = true) (hk : k = 100 ∨ k = 400) :
    miConfigSetEff k d = (d.updHost fun h => { h with smbusKhz := k }).emit (.mi 0) := by
  rw [miConfigSetEff, Device.onMi_on h, if_pos hk]

theorem miConfigSetEff_refuses {k : Nat} (h : d.regOn = true) (hk : k ≠ 100) (hk' : k ≠ 400) :
    miConfigSetEff k d = (d.emit (.mi 4)).log 9 0x1009 [4] := by
  rw [miConfigSetEff, Device.onMi_on h, if_neg (by tauto)]
  rfl

theorem miIdentifyEff_gives {c n v : Nat} {fs : List (String × Nat)} (h : d.regOn = true) (hi : d.identify c n v = .ok fs) :
    miIdentifyEff c n v d = (d.emit (.fields none fs)).emit (.mi 0) := by
  rw [miIdentifyEff, Device.onMi_on h, hi]

theorem miLogEff_gives {c lid nsid lsp off len : Nat} {e : Device} (h : d.regOn = true) (hl : d.getLog none c lid nsid lsp off len = some e) :
    miLogEff c lid nsid lsp off len d = e.emit (.mi 0) := by
  rw [miLogEff, Device.onMi_on h, hl]

theorem miFeaturesEff_gives {c f n a : Nat} (h : d.regOn = true) (hf : f ∈ featureIds) :
    miFeaturesEff c f n a d = (d.emit (.fields none (("DW0", (d.getFeature c f n a).1) :: (d.getFeature c f n a).2))).emit (.mi 0) := by
  rw [miFeaturesEff, Device.onMi_on h]
  exact if_neg (by simpa using hf)

theorem miFeaturesEff_refuses {c f n a : Nat} (h : d.regOn = true) (hf : f ∉ featureIds) :
    miFeaturesEff c f n a d = (d.emit (.mi 4)).log 9 0x1009 [4] := by
  rw [miFeaturesEff, Device.onMi_on h]
  exact if_pos (by simpa using hf)

/-! ### Force Power State -/

theorem miForceEff_target {t r l : Nat} (h : d.regOn = true) (ht : t < 2 ∨ 5 < t) : miForceEff t r l d = (d.emit (.mi 1)).log 9 0x1009 [1] := by
  rw [miForceEff, Device.onMi_on h, if_pos ht]
  rfl

theorem miForceEff_field {t r l : Nat} (h : d.regOn = true) (ht : 2 ≤ t) (ht' : t ≤ 5) (hr : r ≠ 0 ∨ 10000 < l) :
    miForceEff t r l d = (d.emit (.mi 3)).log 9 0x1009 [3] := by
  rw [miForceEff, Device.onMi_on h, if_neg (by omega), if_pos hr]
  rfl

theorem miForceEff_busy {t l : Nat} (h : d.regOn = true) (ht : 2 ≤ t) (ht' : t ≤ 5) (hl : l ≤ 10000) (hw : d.longWork = true) :
    miForceEff t 0 l d = (d.emit (.mi 2)).log 9 0x1009 [2] := by
  rw [miForceEff, Device.onMi_on h, if_neg (by omega), if_neg (by omega), if_pos (.inl hw)]
  rfl

/-- A change made on every controller. -/
def Device.onCtrls (d : Device) (f : Ctrl → Ctrl) : Device := d.ctrls.foldl (fun d c => d.updCtrl c f) d

theorem Device.onCtrls_eq (d : Device) (f : Ctrl → Ctrl) : d.onCtrls f = if d.twoPorts then (d.updCtrl 0 f).updCtrl 1 f else d.updCtrl 0 f := by
  unfold Device.onCtrls Device.ctrls
  split <;> rfl

theorem Device.ctrl_onCtrls (d : Device) (f : Ctrl → Ctrl) {c : Nat} (hc : c ∈ d.ctrls) : (d.onCtrls f).ctrl c = f (d.ctrl c) := by
  rw [Device.onCtrls_eq]
  unfold Device.ctrls at hc
  split at hc
  next h =>
    rw [if_pos h]
    rcases List.mem_pair.1 hc with rfl | rfl <;> rfl
  next h =>
    rw [if_neg h, List.mem_singleton.1 hc]
    rfl

theorem Device.onCtrls_frame (d : Device) (f : Ctrl → Ctrl) :
    (d.onCtrls f).out = d.out ∧ (d.onCtrls f).regs = d.regs ∧ (d.onCtrls f).mem = d.mem ∧ (d.onCtrls f).chron = d.chron := by
  rw [Device.onCtrls_eq]
  split <;> exact ⟨rfl, rfl, rfl, rfl⟩

/-- Fetching stopped on every controller. -/
def Device.stopFetching (d : Device) : Device := d.onCtrls fun k => { k with stopped := true }

/-- The drain of a forced power state begun. -/
def Device.drainFor (d : Device) (t l : Nat) : Device :=
  Device.updHost { d with power := { d.power with drain := some t, drainAt := d.chron.chr + 1000 * (if l = 0 then 2000 else l) } } fun h =>
    { h with miForce := true }

theorem miForceEff_drains {t l : Nat} (h : d.regOn = true) (ht : 2 ≤ t) (ht' : t ≤ 5) (hl : l ≤ 10000) (hw : d.longWork = false)
    (hf : d.power.forcedReq = false) (hrun : d.power.run = none) (hd : d.power.drain = none) :
    miForceEff t 0 l d = d.stopFetching.drainFor t l := by
  rw [miForceEff, Device.onMi_on h, if_neg (by omega), if_neg (by omega), if_neg (by simp [hw, hf, hrun]), hd]
  rfl

theorem forceDrainEff_waits {t : Nat} (h : d.power.drain = some t) (hat : d.chron.chr < d.power.drainAt) (hn : d.inFlight ≠ 0) :
    forceDrainEff d = d := by
  simp only [forceDrainEff, h]
  exact if_pos ⟨hat, hn⟩

theorem forceDrainEff_empty {t : Nat} (h : d.power.drain = some t) (hc : d.host.cmds = []) :
    (forceDrainEff d).power.drain = none ∧ (forceDrainEff d).power.request = some (min t 4) ∧ (forceDrainEff d).power.forcedReq = true ∧
      (forceDrainEff d).power.forcedRetain = (t == 5) := by
  have hn : d.inFlight = 0 := by simp [Device.inFlight, hc]
  simp only [forceDrainEff, h]
  rw [if_neg (by simp [hn]), Device.log_power]
  exact ⟨rfl, rfl, rfl, rfl⟩

/-! ### Autonomous steps -/

theorem apstIdleEff_runs {c ms t : Nat} (hen : (d.ctrl c).en = true) (hap : (d.ctrl c).apste = true) (hn : d.inFlight = 0)
    (hf : Sparse.find (d.apstTable c) d.host.ps = some (ms, t)) (ht : d.host.ps < t) (ht' : t ≤ 4) :
    apstIdleEff c d = if d.level41 then { d with power := { d.power with autoTarget := some t } } else d.autoStep t := by
  simp only [apstIdleEff, hen, hap, hn, hf]
  exact if_neg (not_or.2 ⟨Nat.not_le.2 ht, Nat.not_lt.2 ht'⟩)

theorem apstTickEff_steps {t : Nat} (h : d.power.autoTarget = some t) (hn : d.inFlight = 0) (hc : d.chron.chr % 100000 = 0)
    (hl : d.power.lastEnd + 1000000 ≤ d.chron.chr) : apstTickEff d = d.autoStep t := by
  simp only [apstTickEff, h]
  rw [if_neg (by simp [hn]), if_neg (by omega)]

theorem apstTickEff_waits {t : Nat} (h : d.power.autoTarget = some t) (hn : d.inFlight = 0) (hc : d.chron.chr % 100000 ≠ 0) :
    apstTickEff d = d := by
  simp only [apstTickEff, h]
  rw [if_neg (by simp [hn]), if_pos (.inl hc)]

/-! ### The Temperature Threshold feature -/

/-- Nothing is shown, and the host's state, the registers and memory are as they were. -/
def Device.Quiet (d e : Device) : Prop := e.out = d.out ∧ e.host = d.host ∧ e.regs = d.regs ∧ e.mem = d.mem

theorem Device.Quiet.rfl {d : Device} : d.Quiet d := ⟨Eq.refl _, Eq.refl _, Eq.refl _, Eq.refl _⟩

theorem Device.Quiet.trans {d e f : Device} (h : d.Quiet e) (h' : e.Quiet f) : d.Quiet f := by
  obtain ⟨ho, hh, hr, hm⟩ := h
  obtain ⟨ho', hh', hr', hm'⟩ := h'
  exact ⟨ho'.trans ho, hh'.trans hh, hr'.trans hr, hm'.trans hm⟩

/-- On a controller that is not enabled, a threshold is at most noted. -/
theorem Device.threshold_quiet {c : Nat} (d : Device) (i : Nat) (h : (d.ctrl c).en = false) : d.Quiet (d.threshold c i) := by
  have haen : ∀ e : Device, e.host = d.host → e.aenOn c 2 ⟨1, 1, 2⟩ = e := by
    intro e he
    have hen : (e.ctrl c).en = false := by simpa only [Device.ctrl, he] using h
    exact if_pos (by simp [hen])
  unfold Device.threshold
  split
  · exact .rfl
  · dsimp only
    generalize (if d.tempThreshold c i 0 ≤ _ then 1 else if _ ≤ d.tempThreshold c i 1 then 2 else 0) = side
    split_ifs
    · exact .rfl
    · exact ⟨rfl, rfl, rfl, rfl⟩
    · rw [haen _ (by rfl)]
      exact ⟨rfl, rfl, rfl, rfl⟩

/-- With no controller enabled, the thresholds show nothing. -/
theorem tempThresholdEff_quiet (hon : d.regOn = true) (h : ∀ c, (d.ctrl c).en = false) : d.Quiet (tempThresholdEff d) := by
  rw [tempThresholdEff, Device.onMi_on hon]
  refine List.foldlRecOn _ _ .rfl fun e he c _ => ?_
  refine List.foldlRecOn _ _ he fun f hf i _ => ?_
  refine hf.trans (f.threshold_quiet i ?_)
  simpa only [Device.ctrl, hf.2.1] using h c

end Sys2Proof.Machine

open Sys2Proof Sys2Proof.Machine

/-- Settles O26: each request by its checks in their order; the drain and the thresholds by what they leave alone. -/
theorem managementAndPowerFeatures : Obligations.ManagementAndPowerFeatures := by
  refine ⟨?_, ?_, ?_, ?_, ?_, ?_, ?_, ?_, ?_, ?_, ?_, ?_, ?_, ?_, ?_, ?_, ?_, ?_, ?_, ?_, ?_, ?_, ?_, ?_⟩
  · intro s t h
    refine givesThat_onMi _ rfl h ?_
    exact ⟨⟨_, List.append_assoc _ _ _, by simp, by simp⟩, untouched_of_regs rfl rfl⟩
  · intro s h
    exact gives_onMi (fun d => (d.emit (.fields none d.healthFields)).emit (.mi 0)) rfl h
  · intro s h
    refine givesThat_onMi _ rfl h ?_
    exact ⟨_, List.append_assoc _ _ _, fun c hc => List.mem_flatMap.2 ⟨c, hc, List.mem_cons_self⟩, untouched_of_regs rfl rfl⟩
  · intro s h
    exact gives_onMi (fun d => (d.emit (.fields none [("KHZ", d.host.smbusKhz)])).emit (.mi 0)) rfl h
  · intro s k h hk
    exact gives_eff (miConfigSetEff k) rfl (miConfigSetEff_sets h hk)
  · intro s k h hk hk'
    exact gives_eff (miConfigSetEff k) rfl (miConfigSetEff_refuses h hk hk')
  · intro s c n v fs h hi
    exact gives_eff (miIdentifyEff c n v) rfl (miIdentifyEff_gives h hi)
  · intro s c lid nsid lsp off len e h hl
    exact gives_eff (miLogEff c lid nsid lsp off len) rfl (miLogEff_gives h hl)
  · intro s c f n a h hf
    exact gives_eff (miFeaturesEff c f n a) rfl (miFeaturesEff_gives h hf)
  · intro s c f n a h hf
    exact gives_eff (miFeaturesEff c f n a) rfl (miFeaturesEff_refuses h hf)
  · intro s h
    exact gives_onMi (fun d => d.emit (.fields none d.healthFields)) rfl h
  · intro s op h hop
    exact gives_eff (fun d => if [0xC0, 0x00, 0x01, 0x02, 0x03, 0x04].contains op then d else d.onMi fun d => d.miRefuse 3) rfl
      ((if_neg (by simpa using hop)).trans (Device.onMi_on h))
  · intro s h
    exact gives_eff (fun d => d.onMi fun d => (d.emit (.fields none d.healthFields)).emit (.mi 0)) rfl (Device.onMi_off h)
  · intro s t r l h ht
    exact gives_eff (miForceEff t r l) rfl (miForceEff_target h ht)
  · intro s t r l h ht ht' hr
    exact gives_eff (miForceEff t r l) rfl (miForceEff_field h ht ht' hr)
  · intro s t l h ht ht' hl hw
    exact gives_eff (miForceEff t 0 l) rfl (miForceEff_busy h ht ht' hl hw)
  · intro s t l h ht ht' hl hw hf hrun hd
    refine givesThat_eff (miForceEff t 0 l) rfl ?_
    rw [miForceEff_drains h ht ht' hl hw hf hrun hd]
    obtain ⟨hout, hregs, hmem, hchron⟩ := s.dev.onCtrls_frame fun k => { k with stopped := true }
    refine ⟨rfl, ?_, fun c hc => congrArg Ctrl.stopped (s.dev.ctrl_onCtrls _ hc), hout, untouched_of_regs hregs hmem⟩
    rw [← hchron]
    rfl
  · intro s t h hc
    exact givesThat_eff forceDrainEff rfl (forceDrainEff_empty h hc)
  · intro s t h hat hn
    exact gives_eff forceDrainEff rfl (forceDrainEff_waits h hat hn)
  · intro s c ms t hen hap hn h41 hf ht ht'
    refine givesThat_eff (apstIdleEff c) rfl ?_
    rw [apstIdleEff_runs hen hap hn hf ht ht', if_neg (by simp [h41])]
    exact ⟨rfl, fun hlow => if_pos hlow, untouched_of_regs rfl rfl⟩
  · intro s c ms t hen hap hn h41 hf ht ht'
    exact gives_eff (apstIdleEff c) rfl ((apstIdleEff_runs hen hap hn hf ht ht').trans (if_pos h41))
  · intro s t h hn hc hl
    refine givesThat_eff apstTickEff rfl ?_
    rw [apstTickEff_steps h hn hc hl]
    exact ⟨rfl, rfl, untouched_of_regs rfl rfl⟩
  · intro s t h hn hc
    exact gives_eff apstTickEff rfl (apstTickEff_waits h hn hc)
  · intro s hon h
    refine givesThat_eff tempThresholdEff rfl ?_
    obtain ⟨ho, hh, hr, hm⟩ := tempThresholdEff_quiet hon h
    exact ⟨ho, hh, untouched_of_regs hr hm⟩

end

section
/-!
Reads and Verifies (R87, R99, R103, R110).
-/
namespace Sys2Proof.Machine

variable {d : Device} {id : CmdId} {c : Cmd} {x : Ns}

/-- The command marked as begun. -/
def Device.begun (d : Device) (c : Cmd) : Device := d.updCmd c.no fun k => { k with started := true }

/-- Every block of the command taken from its best source. -/
def Device.takeBlocks (d : Device) (c : Cmd) (x : Ns) : Device := (List.range c.blocks.length).foldl (fun d i => d.takeBlk c x i) d

/-- The command failed for a block that the medium did not give up. -/
def Device.unrecovered (d : Device) (c : Cmd) : Device := d.updCmd c.no fun k => { k with fail := k.fail <|> some .unrecoveredRead }

theorem readEff_read {ok : Bool} {a n : Nat} {pi : PiCtl} (hc : d.cmd id = some c) (hop : c.op = .read a n pi) (hh : c.held = false)
    (hs : c.silent = false) (hp : d.pagesLoaded c = true) (hx : d.ns c.nsid = some x) :
    readEff true id ok d = if (!ok && c.readsMedium) = true then ((d.begun c).unrecovered c).settle else ((d.begun c).takeBlocks c x).settle := by
  simp only [readEff, hc, hop, hh, hs, hp, hx]
  rfl

theorem readEff_verify {ok : Bool} {a n : Nat} {pi : PiCtl} (hc : d.cmd id = some c) (hop : c.op = .verify a n pi) (hh : c.held = false)
    (hs : c.silent = false) (hp : d.pagesLoaded c = true) (hx : d.ns c.nsid = some x) :
    readEff false id ok d = if (!ok && c.readsMedium) = true then ((d.begun c).unrecovered c).settle else ((d.begun c).takeBlocks c x).settle := by
  simp only [readEff, hc, hop, hh, hs, hp, hx]
  rfl

theorem unread_false {ok : Bool} (h : ok = true ∨ c.readsMedium = false) : ¬(!ok && c.readsMedium) = true := by
  rcases h with rfl | h <;> simp_all

/-- A block of a Read that passes its protection check is sent to the host after all that was shown. -/
theorem Device.sendBlk_read {a n i : Nat} {pi : PiCtl} {b : Blk} (hop : c.op = .read a n pi) (hpi : piCheck x pi i b = none) :
    (d.sendBlk c x i b).out = d.out ++ [.toHost c.id i (piStrip x pi b)] := by
  have hpi' : piCheck x (IoOp.read a n pi).pi i b = none := hpi
  simp only [Device.sendBlk, hop, hpi']
  rfl

theorem Device.takeBlk_zeros {i : Nat} {r : RBlk} {rest : List Src} (hr : c.blocks[i]? = some r) (hs : r.sent = false) (hch : r.chain = .zeros :: rest) :
    d.takeBlk c x i = d.sendBlk c x i (zeroBlk x) := by
  simp only [Device.takeBlk, hr, hs, hch, Bool.false_eq_true, if_false]

theorem Device.takeBlk_gone {i b j : Nat} {r : RBlk} {rest : List Src} (hr : c.blocks[i]? = some r) (hs : r.sent = false)
    (hch : r.chain = .medium b j :: rest) (hst : d.stored b j = none) : d.takeBlk c x i = d.unrecovered c := by
  simp only [Device.takeBlk, hr, hs, hch, hst, Bool.false_eq_true, if_false]
  rfl

end Sys2Proof.Machine

open Sys2Proof Sys2Proof.Machine

/-- Settles O27: a standing read whose pages are loaded takes its blocks, or fails for the medium; then a block by its source. -/
theorem readsTakeEachBlockFromItsBestSource : Obligations.ReadsTakeEachBlockFromItsBestSource := by
  refine ⟨?_, ?_, ?_, ?_, ?_⟩
  · intro s id ok c a n pi x hc hop hh hs hp hx hok
    exact gives_eff (readEff true id ok) rfl ((readEff_read hc hop hh hs hp hx).trans (if_neg (unread_false hok)))
  · intro s id ok c a n pi x hc hop hh hs hp hx hok
    exact gives_eff (readEff false id ok) rfl ((readEff_verify hc hop hh hs hp hx).trans (if_neg (unread_false hok)))
  · intro s id c a n pi x hc hop hh hs hp hx hm
    exact gives_eff (readEff true id false) rfl ((readEff_read hc hop hh hs hp hx).trans (if_pos hm))
  · intro d c x a n i pi r rest hop hr hs hch hpi
    rw [Device.takeBlk_zeros hr hs hch, Device.sendBlk_read hop hpi]
  · intro d c x i b j r rest hr hs hch hst
    exact Device.takeBlk_gone hr hs hch hst

end

section
/-!
Writes, zero ranges and flushes; zone management and reservations (R87, R96, R105, R106, R115, R148, R159).
-/
namespace Sys2Proof.Machine

variable {d : Device} {s : State} {id : CmdId} {c : Cmd} {x : Ns} {pl : Place}

theorem Cmd.fresh_iff : c.fresh = true ↔ c.held = false ∧ c.silent = false ∧ c.started = false ∧ c.ended = false ∧ c.fail = none := by
  simp [Cmd.fresh, and_assoc]

/-! ### Writes -/

/-- A command that may be scheduled: not held, not silent, not failed. -/
def Cmd.ready (c : Cmd) : Prop := c.held = false ∧ c.silent = false ∧ c.fail = none

theorem Cmd.ready.test (h : c.ready) : ¬(c.held || c.silent || c.fail.isSome) = true := by
  obtain ⟨hh, hs, hf⟩ := h
  simp [hh, hs, hf]

theorem writeEff_write {a n : Nat} {pi : PiCtl} (hc : d.cmd id = some c) (hop : c.op = .write a n pi) : writeEff id pl d = d.scheduleWrite c pl := by
  simp only [writeEff, hc, hop]

theorem zoneAppendEff_append {a n : Nat} {pi : PiCtl} (hc : d.cmd id = some c) (hop : c.op = .zoneAppend a n pi) :
    zoneAppendEff id pl d = d.scheduleWrite c pl := by
  simp only [zoneAppendEff, hc, hop]

theorem Device.scheduleWrite_pool (h : c.ready) (hz : c.zone? d = none) (hheld : d.writeHeld pl.lane = false) (hfrag : d.fragWait c = false) :
    d.scheduleWrite c pl = ((d.begun c).schedulePool c.no pl).settle := by
  rw [Device.scheduleWrite, if_neg h.test]
  simp only [hz, hheld, hfrag]
  rfl

theorem Device.scheduleWrite_held (h : c.ready) (hz : c.zone? d = none) (hheld : d.writeHeld pl.lane = true) :
    d.scheduleWrite c pl = d.logRate 0 0x1016 pl.lane.idx := by
  rw [Device.scheduleWrite, if_neg h.test]
  simp only [hz, hheld, if_true]

/-- The one command in flight is put into its zone. -/
theorem Device.scheduleWrite_zone {z : Nat} (h : c.ready) (hz : c.zone? d = some z) (honly : d.host.cmds = [c]) :
    d.scheduleWrite c pl = ((d.begun c).scheduleZone c z pl).settle := by
  have hlater : ∀ f : Nat → Bool, ((d.laterWrites 0 c.nsid z).any fun n => decide (n < c.no) && f n) = false := by
    intro f
    rw [List.any_eq_false]
    intro n hn
    have hno : n = c.no := by
      simp only [Device.laterWrites, honly, List.mem_map, List.mem_filter, List.mem_singleton] at hn
      obtain ⟨y, ⟨rfl, -⟩, rfl⟩ := hn
      rfl
    simp [hno]
  rw [Device.scheduleWrite, if_neg h.test]
  simp only [hz, hlater, honly]
  rw [if_neg (by simp)]
  rfl

/-! ### Map operations and flushes -/

theorem Device.zeroRanges_one {a n : Nat} (h : d.mayWrite c.no c.nsid a n = true) :
    d.zeroRanges c [(a, n)] =
      (((d.takeSeq.2).queueRec (.zeroRange d.host.seq c.nsid a n) (some c.no)).updCmd c.no fun k =>
        { k with started := true, waitJ := some d.host.jnext }).flushJournal := by
  simp only [Device.zeroRanges]
  rw [if_neg (by simp [h])]
  rfl

theorem writeZeroesEff_conventional {a n : Nat} (hc : d.cmd id = some c) (hop : c.op = .writeZeroes a n) (hz : d.zonedNs c.nsid = false)
    (hf : c.fresh = true) : writeZeroesEff id pl d = d.zeroRanges c [(a, n)] := by
  simp only [writeZeroesEff, hc, hop, hz, hf, Bool.false_eq_true, if_false, if_true]

theorem datasetEff_deallocates {rs : List (Nat × Nat)} (hc : d.cmd id = some c) (hop : c.op = .deallocate rs) (hf : c.fresh = true) :
    datasetEff id d = d.zeroRanges c rs := by
  simp only [datasetEff, hc, hop, hf, if_true]

theorem flushEff_begins (hc : d.cmd id = some c) (hop : c.op = .flush) (hf : c.fresh = true) : flushEff id d = (d.begun c).flushJournal := by
  simp only [flushEff, hc, hop, hf, if_true]
  rfl

theorem flushCompleteEff_flush (hc : d.cmd id = some c) (hop : c.op = .flush) :
    flushCompleteEff id d = if (c.started && d.flushDone c) = true then d.endCmd c .success else d := by
  simp only [flushCompleteEff, hc, hop]

/-! ### Zone management -/

/-- A Zone Management Send that may be carried out now, by its action alone. -/
theorem zoneSendEff_ready {act : ZoneAct} (h : SendReady s id c act) :
    zoneSendEff act id s.dev =
      match act with
      | .close => (s.dev.sendPlain c .closed).settle
      | .openZone => (s.dev.sendPlain c .explicitOpen).settle
      | act => if c.zones.isEmpty then (s.dev.endCmd c .success).settle else sentZones s.dev c act := by
  obtain ⟨hc, ⟨a, all, hop⟩, hh, hs, he, hbusy⟩ := h
  have hfree : ¬(c.zones.any fun z => s.dev.zoneBusy c.no c.nsid z) = true := by simpa using hbusy
  simp only [zoneSendEff, hc, hop, hh, hs, he]
  rw [if_neg (by simp), if_neg hfree]
  cases act <;> rfl

theorem zoneReceiveEff_begins {a : Nat} {b : Bool} (hc : d.cmd id = some c) (hop : c.op = .zoneReceive a b) (hf : c.fresh = true) :
    zoneReceiveEff id d = d.begun c := by
  simp only [zoneReceiveEff, hc, hop, hf, if_true]
  rfl

/-- The report's entries from a zone on. -/
def reportZones (c : Cmd) (x : Ns) (first : Nat) : List (Nat × (ZState × (Nat × (Nat × Bool)))) :=
  (List.range (x.blocks / 65536 - first)).map fun i =>
    let z : Zone := Sparse.get (fun _ => {}) c.snap (first + i)
    (65536 * (first + i), (z.st, (z.wp, (z.cap, z.finished))))

theorem zoneReportEff_sends {a : Nat} {b : Bool} (hc : d.cmd id = some c) (hop : c.op = .zoneReceive a b) (hx : d.ns c.nsid = some x)
    (hs : c.started = true) (hz : c.zones = []) :
    zoneReportEff id d = (d.emit (.zones id (reportZones c x (a / 65536)))).endCmd c .success := by
  simp only [zoneReportEff, hc, hop, hx, hs, hz]
  rfl

/-! ### Reservations -/

/-- What a Reservation Report shows. -/
def Resv.report (r : Resv) : List (String × Nat) :=
  [("GEN", r.gen), ("RTYPE", r.rtype), ("REGCTL", r.regs.length), ("PTPLS", if r.ptpl then 1 else 0)]
    ++ r.regs.flatMap fun (p : Nat × Nat) => [("CNTLID", p.1 + 1), ("RCSTS", if r.holds p.1 then 1 else 0), ("RKEY", p.2)]

theorem reservationEff_register {r : ResArgs} (hc : d.cmd id = some c) (hop : c.op = .resRegister r) (hh : c.held = false) (hs : c.silent = false) :
    reservationEff (fun o => match o with | .resRegister _ => true | _ => false) id d = d.endCmd c (c.fail.getD .success) := by
  simp only [reservationEff, hc, hop, hh, hs]
  rfl

theorem reservationEff_acquire {r : ResArgs} (hc : d.cmd id = some c) (hop : c.op = .resAcquire r) (hh : c.held = false) (hs : c.silent = false) :
    reservationEff (fun o => match o with | .resAcquire _ => true | _ => false) id d = d.endCmd c (c.fail.getD .success) := by
  simp only [reservationEff, hc, hop, hh, hs]
  rfl

theorem reservationEff_release {r : ResArgs} (hc : d.cmd id = some c) (hop : c.op = .resRelease r) (hh : c.held = false) (hs : c.silent = false) :
    reservationEff (fun o => match o with | .resRelease _ => true | _ => false) id d = d.endCmd c (c.fail.getD .success) := by
  simp only [reservationEff, hc, hop, hh, hs]
  rfl

theorem reservationEff_report (hc : d.cmd id = some c) (hop : c.op = .resReport) (hh : c.held = false) (hs : c.silent = false) :
    reservationEff (fun o => match o with | .resReport => true | _ => false) id d =
      (d.emit (.fields (some id) c.resv.report)).endCmd c (c.fail.getD .success) := by
  simp only [reservationEff, hc, hop, hh, hs]
  rfl

end Sys2Proof.Machine

open Sys2Proof Sys2Proof.Machine

/-- Settles O28: a write is scheduled or held by where it goes; a zero range is queued; a flush waits by its test. -/
theorem writesScheduleAndFlushesWait : Obligations.WritesScheduleAndFlushesWait := by
  refine ⟨?_, ?_, ?_, ?_, ?_, ?_, ?_, ?_⟩
  · intro s id pl c a n pi hc hop hh hs hf hz hheld hfrag
    exact gives_eff (writeEff id pl) rfl ((writeEff_write hc hop).trans (Device.scheduleWrite_pool ⟨hh, hs, hf⟩ hz hheld hfrag))
  · intro s id pl c a n pi hc hop hh hs hf hz hheld
    exact gives_eff (writeEff id pl) rfl ((writeEff_write hc hop).trans (Device.scheduleWrite_held ⟨hh, hs, hf⟩ hz hheld))
  · intro s id pl c a n z pi hc hop hh hs hf hz honly
    exact gives_eff (zoneAppendEff id pl) rfl ((zoneAppendEff_append hc hop).trans (Device.scheduleWrite_zone ⟨hh, hs, hf⟩ hz honly))
  · intro s id pl c a n hc hop hz hf hmay
    exact gives_eff (writeZeroesEff id pl) rfl ((writeZeroesEff_conventional hc hop hz hf).trans (Device.zeroRanges_one hmay))
  · intro s id c rs hc hop hf
    exact gives_eff (datasetEff id) rfl (datasetEff_deallocates hc hop hf)
  · intro s id c hc hop hf
    exact gives_eff (flushEff id) rfl (flushEff_begins hc hop hf)
  · intro s id c hc hop hs hd
    exact gives_eff (flushCompleteEff id) rfl ((flushCompleteEff_flush hc hop).trans (if_pos (by simp [hs, hd])))
  · intro s id c hc hop hd
    exact gives_eff (flushCompleteEff id) rfl ((flushCompleteEff_flush hc hop).trans (if_neg (by simp [hd])))

/-- Settles O29: a ready Zone Management Send by its action; a report and a reservation command by their operation. -/
theorem zonesAndReservationsAreCarriedOut : Obligations.ZonesAndReservationsAreCarriedOut := by
  refine ⟨?_, ?_, ?_, ?_, ?_, ?_, ?_, ?_, ?_, ?_, ?_, ?_⟩
  · intro s id c h
    exact gives_eff (zoneSendEff .close id) rfl (zoneSendEff_ready h)
  · intro s id c h
    exact gives_eff (zoneSendEff .openZone id) rfl (zoneSendEff_ready h)
  · intro s id c h hz
    exact gives_eff (zoneSendEff .finish id) rfl ((zoneSendEff_ready h).trans (if_neg (by simpa using hz)))
  · intro s id c h hz
    exact gives_eff (zoneSendEff .reset id) rfl ((zoneSendEff_ready h).trans (if_neg (by simpa using hz)))
  · intro s id c h hz
    exact gives_eff (zoneSendEff .offline id) rfl ((zoneSendEff_ready h).trans (if_neg (by simpa using hz)))
  · intro s id c h hz
    exact gives_eff (zoneSendEff .reset id) rfl ((zoneSendEff_ready h).trans (if_pos (by simp [hz])))
  · intro s id c a b hc hop hf
    exact gives_eff (zoneReceiveEff id) rfl (zoneReceiveEff_begins hc hop hf)
  · intro s id c a b x hc hop hx hs hz
    exact ⟨reportZones c x (a / 65536), by simp [reportZones], gives_eff (zoneReportEff id) rfl (zoneReportEff_sends hc hop hx hs hz)⟩
  · intro s id c r hc hop hh hs
    exact gives_eff (reservationEff (fun o => match o with | .resRegister _ => true | _ => false) id) rfl (reservationEff_register hc hop hh hs)
  · intro s id c r hc hop hh hs
    exact gives_eff (reservationEff (fun o => match o with | .resAcquire _ => true | _ => false) id) rfl (reservationEff_acquire hc hop hh hs)
  · intro s id c r hc hop hh hs
    exact gives_eff (reservationEff (fun o => match o with | .resRelease _ => true | _ => false) id) rfl (reservationEff_release hc hop hh hs)
  · intro s id c hc hop hh hs
    exact ⟨c.resv.report, by simp [Resv.report], by simp [Resv.report],
      gives_eff (reservationEff (fun o => match o with | .resReport => true | _ => false) id) rfl (reservationEff_report hc hop hh hs)⟩

end

section
/-!
A write's data: pull, durability; forwarding to reads (R99, R100, R102 to R105).
-/
namespace Sys2Proof.Machine

variable {d : Device} {id wid : CmdId} {c r w : Cmd} {u : WUnit} {x : Ns} {k : Nat}

/-! ### Pull -/

theorem pullPointEff_pulls {rv a n : Nat} {pi : PiCtl} (hc : d.cmd id = some c) (hop : c.op = .write a n pi) (hu : c.units[k]? = some u)
    (hst : u.st = .waiting) (hb : u.band ≠ none) (hlen : (d.allocPages rv u.n).1.length = u.n) :
    pullPointEff id k rv d = (d.allocPages rv u.n).2.updUnit c.no k fun v => { v with pages := (d.allocPages rv u.n).1, st := .pulling } := by
  have hband : u.band.isNone = false := Option.isNone_eq_false_iff.2 (Option.isSome_iff_ne_none.2 hb)
  simp only [pullPointEff, hc, hu, hst, hband, hop]
  rw [if_neg (by simp), if_neg (by simpa using hlen)]
  rfl

theorem pullPointEff_starved {rv : Nat} (hc : d.cmd id = some c) (hu : c.units[k]? = some u) (hlen : (d.allocPages rv u.n).1.length ≠ u.n) :
    pullPointEff id k rv d = d := by
  simp only [pullPointEff, hc, hu]
  rw [if_pos hlen, ite_self]

theorem Device.writePage_frame (d : Device) (i : Nat) (p : Page) :
    (d.writePage i p).host = d.host ∧ (d.writePage i p).out = d.out ∧ (d.writePage i p).regs = d.regs := ⟨rfl, rfl, rfl⟩

theorem Device.page_writePage_other (d : Device) {i j : Nat} (p : Page) (h : j ≠ i) : (d.writePage i p).page j = d.page j :=
  d.page_setPage_other p h

/-- A unit's blocks stored in its pages, one after the other. -/
def Device.storeBlocks (d : Device) (c : Cmd) (u : WUnit) (x : Ns) (k party : Nat) (qs : List ((Nat × Blk) × Nat)) : Device :=
  qs.foldl (fun d q =>
    let b := piMake x c.op.pi (64 * k + q.2) q.1.2
    d.writePage q.1.1 (Page.make b.data 1 party c.nsid (c.stamp.getD 0) (u.lba + q.2) b.md)) d

theorem Device.storeBlocks_frame (d : Device) (party : Nat) (qs : List ((Nat × Blk) × Nat)) :
    (d.storeBlocks c u x k party qs).host = d.host ∧ (d.storeBlocks c u x k party qs).out = d.out ∧
      (d.storeBlocks c u x k party qs).regs = d.regs ∧
      ∀ p, (∀ q ∈ qs, q.1.1 ≠ p) → (d.storeBlocks c u x k party qs).page p = d.page p := by
  induction qs generalizing d with
  | nil => exact ⟨rfl, rfl, rfl, fun _ _ => rfl⟩
  | cons q qs ih =>
    obtain ⟨hhost, hout, hregs, hpage⟩ := ih (d.writePage q.1.1 (Page.make (piMake x c.op.pi (64 * k + q.2) q.1.2).data 1 party c.nsid
      (c.stamp.getD 0) (u.lba + q.2) (piMake x c.op.pi (64 * k + q.2) q.1.2).md))
    refine ⟨hhost, hout, hregs, fun p hp => ?_⟩
    obtain ⟨hq, hqs⟩ := List.forall_mem_cons.1 hp
    exact (hpage p hqs).trans (d.page_writePage_other _ hq.symm)

theorem piCheck_none {pi : PiCtl} {i : Nat} {b : Blk} (h : x.pit = 0) : piCheck x pi i b = none := if_pos (.inl h)

/-- The party in whose name a unit's pages are stored. -/
def Device.unitParty (d : Device) (u : WUnit) : Nat := match d.unitLane u with | some l => l.idx | none => 0

theorem pullCompleteEff_stores {bs : List Blk} (hc : d.cmd id = some c) (hu : c.units[k]? = some u) (hx : d.ns c.nsid = some x)
    (hst : u.st = .pulling) (hlen : bs.length = u.n) (hpit : x.pit = 0) :
    pullCompleteEff id k bs d = (d.storeBlocks c u x k (d.unitParty u) (u.pages.zip bs).zipIdx).updUnit c.no k fun v => { v with st := .pulled } := by
  have hok : (bs.zipIdx.findSome? fun q => piCheck x c.op.pi (64 * k + q.2) q.1) = none :=
    List.findSome?_eq_none_iff.2 fun q _ => piCheck_none hpit
  simp only [pullCompleteEff, hc, hu, hx, hst, hlen, hok]
  exact if_neg (by simp)

theorem pullCompleteEff_fails {bs : List Blk} {st : Status} (hc : d.cmd id = some c) (hu : c.units[k]? = some u) (hx : d.ns c.nsid = some x)
    (hst : u.st = .pulling) (hlen : bs.length = u.n) (hbad : (bs.zipIdx.findSome? fun q => piCheck x c.op.pi (64 * k + q.2) q.1) = some st) :
    pullCompleteEff id k bs d = (d.failFrom c.no k st).settle := by
  simp only [pullCompleteEff, hc, hu, hx, hst, hlen, hbad]
  exact if_neg (by simp)

/-- In a command whose unit is changed by `f`, the unit is one that `f` made. -/
theorem Device.unit_updUnit {f : WUnit → WUnit} {P : WUnit → Prop} (d : Device) (n : Nat) (hf : ∀ v, P (f v)) :
    ∀ c' ∈ (d.updUnit n k f).host.cmds, c'.no = n → ∀ u', c'.units[k]? = some u' → P u' := by
  intro c' hc' hno u' hu'
  obtain ⟨z, -, rfl⟩ := List.mem_map.1 hc'
  by_cases hz : (z.no == n) = true
  · rw [if_pos hz] at hu'
    simp only [List.getElem?_modify, Option.map_eq_map, Option.map_eq_some_iff, if_true] at hu'
    obtain ⟨v, -, rfl⟩ := hu'
    exact hf v
  · rw [if_neg hz] at hno
    simp [hno] at hz

/-! ### Durability -/

theorem unitDurableEff_durable (hu : d.unitOf ⟨id, k, 0⟩ = some (c, u)) (hst : u.st = .writing)
    (hboth : ∃ m ∈ d.bandUnits (u.band.getD 0), m.seq = u.seq ∧ m.c0 = .good ∧ m.c1 = .good) (hv : d.verdictsDue id k = false) :
    unitDurableEff id k d = ((((d.unitNew c.no k).closeIfFull c.nsid (u.lba / 65536) (u.band.getD 0)).fragCheck).settle).journalFull := by
  have hany : ((d.bandUnits (u.band.getD 0)).any fun m => m.seq == u.seq && m.c0 == .good && m.c1 == .good) = true := by
    simpa [and_assoc] using hboth
  simp only [unitDurableEff, hu, hany, hst, hv]
  exact if_neg (by simp)

theorem unitDurableEff_waits (hu : d.unitOf ⟨id, k, 0⟩ = some (c, u))
    (hboth : ∀ m ∈ d.bandUnits (u.band.getD 0), ¬(m.seq = u.seq ∧ m.c0 = .good ∧ m.c1 = .good)) : unitDurableEff id k d = d := by
  have hany : ((d.bandUnits (u.band.getD 0)).any fun m => m.seq == u.seq && m.c0 == .good && m.c1 == .good) = false := by
    simpa using hboth
  simp only [unitDurableEff, hu, hany]
  exact if_pos (by simp)

/-! ### Forwarding -/

theorem forwardCopyEff_one {p : Nat} {b : RBlk} {rest : List Src} (hr : d.cmd id = some r) (hw : d.cmd wid = some w) (hu : w.units[k]? = some u)
    (hst : u.st = .pulled) (hb : r.blocks = [b]) (hs : b.sent = false) (hcopy : b.copying = none) (hch : b.chain = .fwd w.no k :: rest)
    (hp : u.pages[r.op.slba + 0 - u.lba]? = some p) :
    forwardCopyEff id wid k d =
      (d.updCmd r.no fun c => { c with started := true, blocks := c.blocks.modify 0 fun x => { x with copying := some p } }).setPins p
        (Sparse.cnt d.host.pins p + 1) := by
  simp only [forwardCopyEff, hr, hw, hu, hst, hb, List.length_singleton, List.range_one, List.foldl_cons, List.foldl_nil, List.getElem?_cons_zero, hs,
    hcopy, hch, hp]
  rw [if_neg (by simp), if_neg (by simp)]

/-- The blocks of a command that copy from a page. -/
def Cmd.copies (c : Cmd) (p : Nat) : List Nat := (c.blocks.zipIdx.filter fun q => q.1.copying == some p).map (·.2)

theorem Cmd.copies_one {b : RBlk} {p : Nat} (hb : c.blocks = [b]) (hcopy : b.copying = some p) : c.copies p = [0] := by
  simp [Cmd.copies, hb, hcopy]

theorem Cmd.copies_none {p : Nat} (h : ∀ b ∈ c.blocks, b.copying ≠ some p) : c.copies p = [] := by
  simp only [Cmd.copies, List.map_eq_nil_iff, List.filter_eq_nil_iff]
  intro q hq
  simpa using h q.1 (List.fst_mem_of_mem_zipIdx hq)

theorem pageUnpinEff_good {p : Nat} (hc : d.cmd id = some c) (hx : d.ns c.nsid = some x) (hcopy : c.copies p = [0]) (hg : d.pageGood p = true) :
    pageUnpinEff id p d =
      (((d.updCmd c.no fun k => { k with blocks := k.blocks.modify 0 fun r => { r with copying := none } }).sendBlk c x 0 (d.pageBlk p)).unpin
        p).settle := by
  have hcopy' : (c.blocks.zipIdx.filter fun q => q.1.copying == some p).map (·.2) = [0] := hcopy
  simp only [pageUnpinEff, hc, hx, hcopy', hg]
  rfl

theorem pageUnpinEff_none {p : Nat} (hc : d.cmd id = some c) (hx : d.ns c.nsid = some x) (hcopy : c.copies p = []) : pageUnpinEff id p d = d := by
  have hcopy' : (c.blocks.zipIdx.filter fun q => q.1.copying == some p).map (·.2) = [] := hcopy
  simp only [pageUnpinEff, hc, hx, hcopy']
  rfl

/-- The first block's source given up for the next. -/
def Device.nextSource (d : Device) (c : Cmd) : Device :=
  d.updCmd c.no fun k => { k with blocks := k.blocks.modify 0 fun r => { r with chain := r.chain.tail, sent := false } }

theorem forwardRereadEff_one {c' : Cmd} {b : RBlk} {rest : List Src} (hc : d.cmd id = some c) (hx : d.ns c.nsid = some x) (hb : c.blocks = [b])
    (hcopy : b.copying = none) (hch : b.chain = .gone :: rest) (hnext : (d.nextSource c).cmdNo c.no = some c') :
    forwardRereadEff id d = ((d.nextSource c).takeBlk c' x 0).settle := by
  have hgone : (c.blocks.zipIdx.filter fun q => q.1.chain.head? == some .gone && q.1.copying.isNone).map (·.2) = [0] := by
    simp [hb, hcopy, hch]
  simp only [Device.nextSource] at hnext ⊢
  simp only [forwardRereadEff, hc, hx, hgone, List.foldl_cons, List.foldl_nil, hnext]

end Sys2Proof.Machine

open Sys2Proof Sys2Proof.Machine

/-- Settles O30: a unit's pull, its stored blocks by what each leaves alone, its durability; a forwarded block by the one block of its read. -/
theorem writeDataDurableAndForwarded : Obligations.WriteDataDurableAndForwarded := by
  refine ⟨?_, ?_, ?_, ?_, ?_, ?_, ?_, ?_, ?_, ?_, ?_⟩
  · intro s id k r c u a n pi hc hop hu hst hb hlen
    exact gives_eff (pullPointEff id k r) rfl (pullPointEff_pulls hc hop hu hst hb hlen)
  · intro s id k r c u hc hu hlen
    exact gives_eff (pullPointEff id k r) rfl (pullPointEff_starved hc hu hlen)
  · intro s id k bs c u x hc hu hx hst hlen hpit
    refine givesThat_eff (pullCompleteEff id k bs) rfl ?_
    rw [pullCompleteEff_stores hc hu hx hst hlen hpit]
    obtain ⟨-, hout, hregs, hpage⟩ := s.dev.storeBlocks_frame (c := c) (u := u) (x := x) (k := k) (s.dev.unitParty u) (u.pages.zip bs).zipIdx
    refine ⟨Device.unit_updUnit (P := fun v => v.st = .pulled) _ c.no fun _ => rfl, hout, hregs, fun p hp => hpage p fun q hq heq => hp ?_⟩
    exact heq ▸ (List.of_mem_zip (List.fst_mem_of_mem_zipIdx hq)).1
  · intro s id k bs c u x st hc hu hx hst hlen hbad
    exact gives_eff (pullCompleteEff id k bs) rfl (pullCompleteEff_fails hc hu hx hst hlen hbad)
  · intro s id k
    exact gives_eff (pullMissedEff id k) rfl rfl
  · intro s id k c u hu hst hboth hv
    exact gives_eff (unitDurableEff id k) rfl (unitDurableEff_durable hu hst hboth hv)
  · intro s id k c u hu hboth
    exact gives_eff (unitDurableEff id k) rfl (unitDurableEff_waits hu hboth)
  · intro s id wid k p r w u b rest hr hw hu hst hb hs hcopy hch hp
    exact gives_eff (forwardCopyEff id wid k) rfl (forwardCopyEff_one hr hw hu hst hb hs hcopy hch hp)
  · intro s id p c x b hc hx hb hcopy hg
    exact gives_eff (pageUnpinEff id p) rfl (pageUnpinEff_good hc hx (Cmd.copies_one hb hcopy) hg)
  · intro s id p c x hc hx hcopy
    exact gives_eff (pageUnpinEff id p) rfl (pageUnpinEff_none hc hx (Cmd.copies_none hcopy))
  · intro s id c c' x b rest hc hx hb hcopy hch hnext
    exact gives_eff (forwardRereadEff id) rfl (forwardRereadEff_one hc hx hb hcopy hch hnext)

end

section
/-!
The store: rebuild, chunk-table pages, verification of bands, garbage collection (R138, R142 to R146, R150, R157, R158, R160).
-/
namespace Sys2Proof.Machine

variable {d : Device}

/-! ### The journal -/

theorem Device.writeSector_frame (d : Device) :
    d.writeSector.host.seq = d.host.seq ∧ d.writeSector.host.tables = d.host.tables ∧ d.writeSector.regs = d.regs ∧ d.writeSector.mem = d.mem := by
  unfold Device.writeSector
  split <;> exact ⟨rfl, rfl, rfl, rfl⟩

theorem Device.flushJournal_frame (d : Device) :
    d.flushJournal.host.seq = d.host.seq ∧ d.flushJournal.host.tables = d.host.tables ∧ d.flushJournal.regs = d.regs ∧
      d.flushJournal.mem = d.mem := by
  unfold Device.flushJournal
  split
  · exact ⟨rfl, rfl, rfl, rfl⟩
  · refine List.foldlRecOn (motive := fun e : Device => e.host.seq = d.host.seq ∧ e.host.tables = d.host.tables ∧ e.regs = d.regs ∧ e.mem = d.mem)
      _ _ ⟨rfl, rfl, rfl, rfl⟩ fun e he n _ => ?_
    split
    · exact he
    · obtain ⟨hseq, htab, hregs, hmem⟩ := he
      obtain ⟨wseq, wtab, wregs, wmem⟩ := e.writeSector_frame
      exact ⟨wseq.trans hseq, wtab.trans htab, wregs.trans hregs, wmem.trans hmem⟩

/-! ### Rebuild -/

theorem mapRebuildEff_not_now {o : RebuildObs} (h : d.atSpeed = false ∨ d.rd HS_STORE_STS_REBUILD ≠ 0) : mapRebuildEff o d = d := by
  refine if_pos ?_
  rcases h with h | h <;> simp [h]

/-- A rebuild is due: the controllers are released, the spindle is at speed, none has run, and the device is not in Retain. -/
def Device.RebuildDue (d : Device) : Prop :=
  d.released = true ∧ d.atSpeed = true ∧ d.rd HS_STORE_STS_REBUILD = 0 ∧ d.power.retain = .out

theorem Device.RebuildDue.test (h : d.RebuildDue) : ¬(!d.released || !d.atSpeed || d.rd HS_STORE_STS_REBUILD != 0 || d.power.retain != .out) = true := by
  obtain ⟨hr, ha, hs, hp⟩ := h
  simp [hr, ha, hs, hp]

/-- The rebuild's beginning noted. -/
def Device.rebuildBegun (d : Device) : Device := d.updHost fun h => { h with rebuildAt := d.chron.chr }

/-- The empty map of a new drive. -/
def Device.newDrive (d : Device) : Device :=
  d.updHost fun h => { h with
    tables := {}, seq := d.medium.highest + 1, jsector := 0, scanned := 0, applied := 0, loaded := none, checkAt := d.chron.chr, verify := [] }

theorem mapRebuildEff_new {o : RebuildObs} (h : d.RebuildDue) (ha : d.medium.checkA = none) (hb : d.medium.checkB = none)
    (he : d.medium.everCheck = false) (hj : d.medium.journal = []) :
    mapRebuildEff o d = d.rebuildBegun.newDrive.wr HS_STORE_STS_REBUILD 1 := by
  have hwhole : journalWhole d.medium o.lost 0 = true := by simp [journalWhole, hj]
  rw [mapRebuildEff, if_neg h.test]
  simp only [ha, hb, he, ite_self, newerOf, Option.filter_none]
  rw [if_neg (by simp [hwhole])]
  simp only [hj]
  rfl

theorem mapRebuildEff_lost {o : RebuildObs} (h : d.RebuildDue) (ha : o.noHeadA = true) (hb : o.noHeadB = true) (he : d.medium.everCheck = true) :
    mapRebuildEff o d = d.rebuildBegun.rebuildFail := by
  rw [mapRebuildEff, if_neg h.test]
  simp only [ha, hb, he, if_true, newerOf, Option.filter_none]
  rfl

/-- The rebuild shown as failed, its event logged. -/
def Device.rebuildFailed (d : Device) : Device := (d.wr HS_STORE_STS_REBUILD 3).log 0 0x1011

theorem Device.rebuildFail_eq (d : Device) : d.rebuildFail = d.rebuildFailed.onCtrls fun k => { k with cfsRebuild := true } := rfl

theorem Device.rebuildFailed_word (d : Device) {a : Nat} (h : a ∉ [HS_STORE_STS, RG_LOGSTAT]) : d.rebuildFailed.word a = d.word a := by
  simp only [List.mem_cons, List.not_mem_nil, or_false, not_or] at h
  rw [Device.rebuildFailed, Device.log_word _ _ _ _ h.2, Device.word_wr_other _ _ _ h.1]

theorem Device.ctrls_congr {e : Device} (h : e.rd CB_HOST_MODE = d.rd CB_HOST_MODE) : e.ctrls = d.ctrls := by
  unfold Device.ctrls Device.twoPorts
  rw [h]

theorem Device.rebuildFailed_ctrls (d : Device) : d.rebuildFailed.ctrls = d.ctrls :=
  Device.ctrls_congr (Device.rd_of_word (d.rebuildFailed_word (by decide)))

theorem Device.rebuildFailed_rebuild (d : Device) : d.rebuildFailed.rd HS_STORE_STS_REBUILD = 3 := by
  rw [Device.rebuildFailed, Device.rd_of_word (Device.log_word _ _ _ _ (by decide))]
  simp (disch := decide) only [Device.rd_wr_same]
  rfl

/-- The rebuild-complete record written out. -/
def Device.rebuildRecorded (d : Device) : Device := (d.queueSeq fun s => .rebuildDone s d.host.scanned d.host.applied).flushJournal

theorem rebuildCompleteEff_done (h : d.rd HS_STORE_STS_REBUILD = 1) :
    ∃ ps, rebuildCompleteEff d = (d.rebuildRecorded.wr HS_STORE_STS_REBUILD 2).log 0 0x1010 ps :=
  ⟨_, if_neg (not_not.2 h)⟩

theorem Device.rebuildRecorded_frame (d : Device) :
    d.rebuildRecorded.host.seq = d.host.seq + 1 ∧ d.rebuildRecorded.host.tables = d.host.tables ∧ d.rebuildRecorded.regs = d.regs ∧
      d.rebuildRecorded.mem = d.mem :=
  Device.flushJournal_frame _

/-! ### Chunk-table pages and the next sequence -/

theorem chunkPageEff_loads {n p : Nat} {ps : List Nat} (h : d.host.loaded = some ps) (hn : nsKey n p ∉ ps) :
    chunkPageEff n p d =
      d.updHost fun h => { h with loaded := (if d.allPages.length ≤ ps.length + 1 then none else some (ps ++ [nsKey n p])) } := by
  simp only [chunkPageEff, h]
  rw [if_neg (by simpa using hn), List.length_append, List.length_singleton]

/-! ### Verification of a band -/

theorem bandVerifyEff_open {b : Nat} {o : VerifyObs} {x : Band} (hx : d.host.tables.band b = some x) (hst : x.st ≠ .closed) :
    bandVerifyEff b o d = d := by
  simp only [bandVerifyEff, hx]
  exact if_pos (.inl hst)

/-- A closed band, first in line, in which nothing is weak and nothing failed. -/
theorem bandVerifyEff_clean {b : Nat} {o : VerifyObs} {x : Band} (hx : d.host.tables.band b = some x) (hst : x.st = .closed)
    (hv : d.host.verify = [b]) (hw : o.weak = []) (hf : o.failed = []) :
    bandVerifyEff b o d =
      (Device.log (((d.queueSeq fun q => .bandVerified q b).updTables fun t => t.updBand b fun y =>
        { y with st := .verified, first := y.first || o.parity }).updHost fun h => { h with verify := h.verify.filter (fun n => n != b) }) 0 0x1013
        [b, 0, 0]).journalFull := by
  simp only [bandVerifyEff, hx, hst, hw, hf]
  rw [if_neg (by rw [hv, List.find?_cons, hx]; simp)]
  simp only [List.filter_nil, List.append_nil, List.isEmpty_nil, Bool.not_true, Bool.and_false, Bool.false_eq_true, if_false, List.foldl_nil,
    List.filterMap_nil, lostRuns, List.length_nil, ite_self]
  rfl

/-! ### Garbage collection -/

theorem gcMoveEff_none {l : Lane} {pl : Place} (h : d.gcSource l = none) : gcMoveEff l pl d = d := by
  simp only [gcMoveEff, h]

theorem gcMoveEff_emptied {l : Lane} {pl : Place} {b : Nat} (h : d.gcSource l = some b) (hr : firstRun (d.currentBlocks b) = none) :
    gcMoveEff l pl d = d.gcFree b := by
  simp only [gcMoveEff, h, hr]

/-- The unit in which a run of a source band's blocks is copied into a pool band. -/
def Device.moveUnit (d : Device) (b i nsid lba n p : Nat) : MUnit :=
  { seq := d.host.seq, kind := 3, nsid := nsid, epoch := ((d.ns nsid).getD {}).epoch, lba := lba, n := n, k := 0, units := 1, stamp := 0
    index := (match d.host.tables.band p with | none => 0 | some x => x.next), chr := d.chron.chr, src := some (b, i)
    data := (List.range n).filterMap fun j => d.stored b (i + j) }

/-- The copy of a run begun: the unit written into the pool band and kept among the moves. -/
def Device.movedRun (d : Device) (p : Nat) (m : MUnit) : Device :=
  ((d.takeSeq.2).updBandUnits p fun ms => ms.filter (fun x => decide (x.index < m.index)) ++ [m]).updHost fun h =>
    { h with moves := Sparse.ins h.moves p m }

theorem Device.movedRun_frame (d : Device) (p : Nat) (m : MUnit) :
    (d.movedRun p m).host.seq = d.host.seq + 1 ∧ (d.movedRun p m).regs = d.regs ∧ (d.movedRun p m).mem = d.mem := by
  unfold Device.movedRun
  exact ⟨rfl, rfl, rfl⟩

theorem gcMoveEff_moves {l : Lane} {pl : Place} {b i nsid lba n p : Nat} (h : d.gcSource l = some b)
    (hr : firstRun (d.currentBlocks b) = some (i, (nsid, (lba, n)))) (hm : d.host.moves = []) (hp : d.poolBand l = some p)
    (hfit : d.fits p n = true) (hq : d.bandQuiet p = true) : gcMoveEff l pl d = d.movedRun p (d.moveUnit b i nsid lba n p) := by
  simp only [gcMoveEff, h, hr, hm, hp, hfit, List.any_nil, Bool.false_eq_true, if_false, if_true]
  rw [if_neg (by simp [hq])]
  rfl

theorem Sparse.find_ins_same {α : Type} (t : List (Nat × α)) (k : Nat) (v : α) : Sparse.find (Sparse.ins t k v) k = some v := by
  induction t with
  | nil => simp [Sparse.ins, Sparse.find]
  | cons q t ih =>
    obtain ⟨k', v'⟩ := q
    simp only [Sparse.ins]
    split_ifs with hlt heq
    · simp [Sparse.find]
    · simp [Sparse.find]
    · simpa [Sparse.find, List.find?_cons, Ne.symm heq] using ih

theorem moveDurableEff_none {p : Nat} (h : Sparse.find d.host.moves p = none) : moveDurableEff p d = d := by
  simp only [moveDurableEff, h]

theorem moveDurableEff_moved {p : Nat} {m : MUnit} (h : Sparse.find d.host.moves p = some m) :
    moveDurableEff p d = (((((((d.updBandUnits p fun ms => ms.map fun x =>
      if x.seq = m.seq then { x with written := m.n + 2, c0 := .good, c1 := .good } else x).updHost fun h =>
      { h with moves := Sparse.del h.moves p }).updTables fun t => t.applyUnit false m.nsid m.lba m.n p m.index m.src).queueRec
      (.unit m.seq m.nsid m.lba m.n p m.index m.src)).queueRec (.moveSource m.seq (m.src.getD (0, 0)).1 (m.src.getD (0, 0)).2)).gcFree
      (m.src.getD (0, 0)).1).fragCheck).settle := by
  simp only [moveDurableEff, h]

end Sys2Proof.Machine

open Sys2Proof Sys2Proof.Machine

/-- Settles O32: the rebuild by what it finds on the medium; verification and garbage collection by the band's and the lane's state. -/
theorem rebuildAndBands : Obligations.RebuildAndBands := by
  refine ⟨?_, ?_, ?_, ?_, ?_, ?_, ?_, ?_, ?_, ?_, ?_, ?_, ?_, ?_⟩
  · intro s o h
    exact gives_eff (mapRebuildEff o) rfl (mapRebuildEff_not_now h)
  · intro s o hr ha hs hp hca hcb he hj
    refine givesThat_eff (mapRebuildEff o) rfl ?_
    rw [mapRebuildEff_new ⟨hr, ha, hs, hp⟩ hca hcb he hj]
    refine ⟨?_, rfl, rfl, rfl, untouched_of (fun a hna => Device.word_wr_other _ _ _ (List.ne_of_not_mem_cons hna)) rfl (by decide)⟩
    simp (disch := decide) only [Device.rd_wr_same]
    rfl
  · intro s o hr ha hs hp hna hnb he
    refine givesThat_eff (mapRebuildEff o) rfl ?_
    rw [mapRebuildEff_lost ⟨hr, ha, hs, hp⟩ hna hnb he, Device.rebuildFail_eq]
    obtain ⟨-, hregs, hmem, -⟩ := s.dev.rebuildBegun.rebuildFailed.onCtrls_frame fun k => { k with cfsRebuild := true }
    refine ⟨?_, fun c hc => ?_, untouched_of (fun a hna => ?_) (hmem.trans (Device.log_mem _ _ _ _)) (by decide)⟩
    · rw [Device.rd_congr hregs, Device.rebuildFailed_rebuild]
    · have hc' : c ∈ s.dev.rebuildBegun.rebuildFailed.ctrls := by rwa [Device.rebuildFailed_ctrls]
      rw [Device.ctrl_onCtrls _ _ hc']
    · rw [Device.word_congr hregs, Device.rebuildFailed_word _ hna]
      rfl
  · intro s h
    refine givesThat_eff rebuildCompleteEff rfl ?_
    obtain ⟨ps, hdone⟩ := rebuildCompleteEff_done h
    obtain ⟨hseq, htab, hregs, hmem⟩ := s.dev.rebuildRecorded_frame
    rw [hdone, Device.log_host]
    refine ⟨?_, hseq, htab, untouched_of (fun a hna => ?_) ((Device.log_mem _ _ _ _).trans hmem) (by decide)⟩
    · rw [Device.rd_of_word (Device.log_word _ _ _ _ (by decide))]
      simp (disch := decide) only [Device.rd_wr_same]
      rfl
    · simp only [List.mem_cons, List.not_mem_nil, or_false, not_or] at hna
      rw [Device.log_word _ _ _ _ hna.2, Device.word_wr_other _ _ _ hna.1, Device.word_congr hregs]
  · intro s h
    exact gives_eff rebuildCompleteEff rfl (if_pos h)
  · intro s n p ps h hn
    exact gives_eff (chunkPageEff n p) rfl (chunkPageEff_loads h hn)
  · intro s who
    exact givesThat_eff (storeSeqlEff who) rfl
      ⟨rfl, List.mem_append_right _ (List.mem_singleton.2 rfl), rfl, untouched_of_regs rfl rfl⟩
  · intro s b o x hx hst hv hw hf
    exact gives_eff (bandVerifyEff b o) rfl (bandVerifyEff_clean hx hst hv hw hf)
  · intro s b o x hx hst
    exact gives_eff (bandVerifyEff b o) rfl (bandVerifyEff_open hx hst)
  · intro s l pl h
    exact gives_eff (gcMoveEff l pl) rfl (gcMoveEff_none h)
  · intro s l pl b h hr
    exact gives_eff (gcMoveEff l pl) rfl (gcMoveEff_emptied h hr)
  · intro s l pl b i nsid lba n p h hr hm hp hfit hq
    refine givesThat_eff (gcMoveEff l pl) rfl ?_
    rw [gcMoveEff_moves h hr hm hp hfit hq]
    obtain ⟨hseq, hregs, hmem⟩ := s.dev.movedRun_frame p (s.dev.moveUnit b i nsid lba n p)
    exact ⟨_, Sparse.find_ins_same _ _ _, rfl, rfl, rfl, rfl, rfl, rfl, hseq, untouched_of_regs hregs hmem⟩
  · intro s p m h
    exact gives_eff (moveDurableEff p) rfl (moveDurableEff_moved h)
  · intro s p h
    exact gives_eff (moveDurableEff p) rfl (moveDurableEff_none h)

end

section
/-!
The ranking of sync candidates, and the recovery order (R180 to R184).
-/
namespace Sys2Proof.Machine

/-! ### Ranking -/

theorem candLe_iff {a b : Nat × Int} : candLe a b = true ↔
    a.1 < b.1 ∨ a.1 = b.1 ∧ (a.2.natAbs < b.2.natAbs ∨ a.2.natAbs = b.2.natAbs ∧ a.2 ≤ b.2) := by
  simp [candLe]

theorem candLe_total : Std.Total fun a b => candLe a b = true :=
  ⟨fun a b => by simp only [candLe_iff]; omega⟩

theorem candLe_trans : IsTrans (Nat × Int) fun a b => candLe a b = true :=
  ⟨fun a b c => by simp only [candLe_iff]; omega⟩

theorem insertCand_eq (c : Nat × Int) (xs : List (Nat × Int)) : insertCand c xs = xs.orderedInsert (fun a b => candLe a b = true) c := by
  induction xs with
  | nil => rfl
  | cons x xs ih => rw [insertCand, List.orderedInsert_cons, ih]

/-- The candidates within the window and the threshold, in rank order. -/
def sortedCands (win thresh : Nat) (cs : List (Nat × Int)) : List (Nat × Int) :=
  (cs.filter fun c => decide (c.1 ≤ thresh) && decide (c.2.natAbs ≤ win)).insertionSort fun a b => candLe a b = true

theorem rankCands_eq (win thresh : Nat) (cs : List (Nat × Int)) : rankCands win thresh cs = (sortedCands win thresh cs).take 3 := by
  have hins : insertCand = fun c xs => xs.orderedInsert (fun a b => candLe a b = true) c := by
    funext c xs
    exact insertCand_eq c xs
  rw [rankCands, hins]
  rfl

theorem mem_sortedCands {win thresh : Nat} {cs : List (Nat × Int)} {c : Nat × Int} :
    c ∈ sortedCands win thresh cs ↔ c ∈ cs ∧ c.1 ≤ thresh ∧ c.2.natAbs ≤ win := by
  simp [sortedCands]

theorem pairwise_sortedCands (win thresh : Nat) (cs : List (Nat × Int)) : (sortedCands win thresh cs).Pairwise fun a b => candLe a b = true :=
  have := candLe_total
  have := candLe_trans
  List.pairwise_insertionSort _ _

/-! ### The recovery order -/

variable {s : RSlot} {n : Nat}

/-- The next alignment of steps 2 to 4, while attempts are left. -/
def RSlot.freshAttempt (s : RSlot) (n : Nat) : Option (Nat × Int) :=
  if s.replays < n then s.plan.find? fun x => !(s.tried.any fun a => a.p == x.2 && !a.alt) else none

theorem RSlot.nextAttempt_off : s.nextAttempt true n = none := if_pos (.inl rfl)

theorem RSlot.nextAttempt_late {o : Bool} (h : 5 ≤ s.step) : s.nextAttempt o n = none := if_pos (.inr h)

theorem RSlot.nextAttempt_eq (h : s.step < 5) :
    s.nextAttempt false n = (s.freshAttempt n).or ((bestFailed s.tried).map fun a => (5, a.p)) := by
  rw [RSlot.nextAttempt, if_neg (by simp; omega), RSlot.freshAttempt]
  dsimp only
  cases (if s.replays < n then s.plan.find? fun x => !(s.tried.any fun a => a.p == x.2 && !a.alt) else none) <;> rfl

theorem RSlot.step_lt_of_nextAttempt {x : Nat × Int} (h : s.nextAttempt false n = some x) : s.step < 5 := by
  by_contra hs
  rw [RSlot.nextAttempt_late (by omega)] at h
  exact absurd h (by simp)

theorem RSlot.freshAttempt_some {x : Nat × Int} (h : s.freshAttempt n = some x) :
    s.replays < n ∧ x ∈ s.plan ∧ ∀ a ∈ s.tried, a.p = x.2 → a.alt = true := by
  simp only [RSlot.freshAttempt, Option.ite_none_right_eq_some] at h
  obtain ⟨hn, hfind⟩ := h
  exact ⟨hn, List.mem_of_find?_eq_some hfind, by simpa using List.find?_some hfind⟩

theorem conv_of_bestFailed_none {as : List Attempt} (h : bestFailed as = none) : ∀ b ∈ as, b.conv = true := by
  induction as with
  | nil => simp
  | cons x xs ih =>
    cases hx : bestFailed xs with
    | none =>
      simp only [bestFailed, hx, ite_eq_left_iff, reduceCtorEq, imp_false, not_not] at h
      exact List.forall_mem_cons.2 ⟨h, ih hx⟩
    | some b =>
      simp only [bestFailed, hx] at h
      split at h <;> simp at h

/-- Step 5 takes an attempt made that did not converge, and none such has fewer unsatisfied checks. -/
theorem bestFailed_spec {as : List Attempt} {a : Attempt} (h : bestFailed as = some a) :
    a ∈ as ∧ a.conv = false ∧ ∀ b ∈ as, b.conv = false → a.usc ≤ b.usc := by
  induction as generalizing a with
  | nil => simp [bestFailed] at h
  | cons x xs ih =>
    cases hx : bestFailed xs with
    | none =>
      simp only [bestFailed, hx, Option.ite_none_left_eq_some, Bool.not_eq_true, Option.some.injEq] at h
      obtain ⟨hconv, rfl⟩ := h
      refine ⟨List.mem_cons_self, hconv, List.forall_mem_cons.2 ⟨fun _ => le_rfl, fun b hb hbc => ?_⟩⟩
      simp [conv_of_bestFailed_none hx b hb] at hbc
    | some y =>
      obtain ⟨hmem, hyc, hmin⟩ := ih hx
      simp only [bestFailed, hx] at h
      split at h
      next hbetter =>
        obtain rfl : x = a := Option.some.inj h
        simp only [Bool.and_eq_true, Bool.not_eq_true', decide_eq_true_eq] at hbetter
        exact ⟨List.mem_cons_self, hbetter.1, List.forall_mem_cons.2 ⟨fun _ => le_rfl, fun b hb hbc => hbetter.2.trans (hmin b hb hbc)⟩⟩
      next hworse =>
        obtain rfl : y = a := Option.some.inj h
        refine ⟨List.mem_cons_of_mem _ hmem, hyc, List.forall_mem_cons.2 ⟨fun hxc => ?_, hmin⟩⟩
        simp only [hxc, Bool.not_false, Bool.true_and, decide_eq_true_eq] at hworse
        omega

end Sys2Proof.Machine

open Sys2Proof Sys2Proof.Machine

/-- Settles O33: the candidates kept are the first of a sorted list; an attempt is one of the plan's not yet made, or the best of those made. -/
theorem syncRankingAndRecoveryOrder : Obligations.SyncRankingAndRecoveryOrder := by
  refine ⟨fun w t cs => ?_, fun s n => s.nextAttempt_off, fun s o n h => s.nextAttempt_late h, fun s n st p h hst => ?_, fun s n p hs hn h => ?_⟩
  · rw [rankCands_eq]
    have hsort := pairwise_sortedCands w t cs
    refine ⟨List.length_take_le _ _, fun c hc => mem_sortedCands.1 (List.mem_of_mem_take hc), hsort.sublist (List.take_sublist _ _), ?_⟩
    intro c hc hthresh hwin hout a ha
    have hc' : c ∈ (sortedCands w t cs).take 3 ++ (sortedCands w t cs).drop 3 := by
      rw [List.take_append_drop]
      exact mem_sortedCands.2 ⟨hc, hthresh, hwin⟩
    rw [← List.take_append_drop 3 (sortedCands w t cs), List.pairwise_append] at hsort
    exact hsort.2.2 a ha c ((List.mem_append.1 hc').resolve_left hout)
  · rw [RSlot.nextAttempt_eq (RSlot.step_lt_of_nextAttempt h), Option.or_eq_some_iff] at h
    rcases h with h | ⟨-, h⟩
    · exact RSlot.freshAttempt_some h
    · obtain ⟨a, -, heq⟩ := Option.map_eq_some_iff.1 h
      exact absurd (congrArg Prod.fst heq).symm hst
  · have hfresh : s.freshAttempt n = none := if_neg (by omega)
    rw [RSlot.nextAttempt_eq hs, hfresh, Option.none_or] at h
    obtain ⟨a, hbest, heq⟩ := Option.map_eq_some_iff.1 h
    obtain ⟨hmem, hconv, hmin⟩ := bestFailed_spec hbest
    exact ⟨a, hmem, congrArg Prod.snd heq, hconv, hmin⟩

end

section
/-!
What the registers and the lanes show through the state's operations: an operation that leaves the register file leaves every word and field; one that
is of the registers leaves the lanes.
-/
namespace Sys2Proof.Machine

/-! ### Registers through operations on other state -/

@[simp] theorem Device.word_emit (d : Device) (o : Output) (a : Nat) : (d.emit o).word a = d.word a :=
  Device.word_congr (d.emit_regs o) a
@[simp] theorem Device.rd_emit (d : Device) (o : Output) (g : RF) : (d.emit o).rd g = d.rd g := Device.rd_congr (d.emit_regs o) g
@[simp] theorem Device.bit_emit (d : Device) (o : Output) (g : RF) : (d.emit o).bit g = d.bit g := Device.bit_congr (d.emit_regs o) g
@[simp] theorem Device.word_updHost (d : Device) (f : HostSt → HostSt) (a : Nat) : (d.updHost f).word a = d.word a :=
  Device.word_congr (d.updHost_regs f) a
@[simp] theorem Device.rd_updHost (d : Device) (f : HostSt → HostSt) (g : RF) : (d.updHost f).rd g = d.rd g := Device.rd_congr (d.updHost_regs f) g
@[simp] theorem Device.bit_updHost (d : Device) (f : HostSt → HostSt) (g : RF) : (d.updHost f).bit g = d.bit g := Device.bit_congr (d.updHost_regs f) g
@[simp] theorem Device.word_updPower (d : Device) (f : Power → Power) (a : Nat) : (d.updPower f).word a = d.word a :=
  Device.word_congr (d.updPower_regs f) a
@[simp] theorem Device.rd_updPower (d : Device) (f : Power → Power) (g : RF) : (d.updPower f).rd g = d.rd g := Device.rd_congr (d.updPower_regs f) g
@[simp] theorem Device.bit_updPower (d : Device) (f : Power → Power) (g : RF) : (d.updPower f).bit g = d.bit g := Device.bit_congr (d.updPower_regs f) g
@[simp] theorem Device.word_updSpin (d : Device) (f : SpinSt → SpinSt) (a : Nat) : (d.updSpin f).word a = d.word a :=
  Device.word_congr (d.updSpin_regs f) a
@[simp] theorem Device.rd_updSpin (d : Device) (f : SpinSt → SpinSt) (g : RF) : (d.updSpin f).rd g = d.rd g := Device.rd_congr (d.updSpin_regs f) g
@[simp] theorem Device.bit_updSpin (d : Device) (f : SpinSt → SpinSt) (g : RF) : (d.updSpin f).bit g = d.bit g := Device.bit_congr (d.updSpin_regs f) g
@[simp] theorem Device.word_updElk (d : Device) (f : ElkSt → ElkSt) (a : Nat) : (d.updElk f).word a = d.word a :=
  Device.word_congr (d.updElk_regs f) a
@[simp] theorem Device.rd_updElk (d : Device) (f : ElkSt → ElkSt) (g : RF) : (d.updElk f).rd g = d.rd g := Device.rd_congr (d.updElk_regs f) g
@[simp] theorem Device.bit_updElk (d : Device) (f : ElkSt → ElkSt) (g : RF) : (d.updElk f).bit g = d.bit g := Device.bit_congr (d.updElk_regs f) g
@[simp] theorem Device.word_updLane (d : Device) (l : Lane) (f : LaneSt → LaneSt) (a : Nat) : (d.updLane l f).word a = d.word a :=
  Device.word_congr (d.updLane_regs l f) a
@[simp] theorem Device.rd_updLane (d : Device) (l : Lane) (f : LaneSt → LaneSt) (g : RF) : (d.updLane l f).rd g = d.rd g := Device.rd_congr (d.updLane_regs l f) g
@[simp] theorem Device.bit_updLane (d : Device) (l : Lane) (f : LaneSt → LaneSt) (g : RF) : (d.updLane l f).bit g = d.bit g := Device.bit_congr (d.updLane_regs l f) g
@[simp] theorem Device.word_updCh (d : Device) (l : Lane) (f : ChSt → ChSt) (a : Nat) : (d.updCh l f).word a = d.word a :=
  Device.word_congr (d.updCh_regs l f) a
@[simp] theorem Device.rd_updCh (d : Device) (l : Lane) (f : ChSt → ChSt) (g : RF) : (d.updCh l f).rd g = d.rd g := Device.rd_congr (d.updCh_regs l f) g
@[simp] theorem Device.bit_updCh (d : Device) (l : Lane) (f : ChSt → ChSt) (g : RF) : (d.updCh l f).bit g = d.bit g := Device.bit_congr (d.updCh_regs l f) g
@[simp] theorem Device.word_updWr (d : Device) (l : Lane) (f : WrSt → WrSt) (a : Nat) : (d.updWr l f).word a = d.word a :=
  Device.word_congr (d.updWr_regs l f) a
@[simp] theorem Device.rd_updWr (d : Device) (l : Lane) (f : WrSt → WrSt) (g : RF) : (d.updWr l f).rd g = d.rd g := Device.rd_congr (d.updWr_regs l f) g
@[simp] theorem Device.bit_updWr (d : Device) (l : Lane) (f : WrSt → WrSt) (g : RF) : (d.updWr l f).bit g = d.bit g := Device.bit_congr (d.updWr_regs l f) g
@[simp] theorem Device.word_updSv (d : Device) (l : Lane) (f : SvSt → SvSt) (a : Nat) : (d.updSv l f).word a = d.word a :=
  Device.word_congr (d.updSv_regs l f) a
@[simp] theorem Device.rd_updSv (d : Device) (l : Lane) (f : SvSt → SvSt) (g : RF) : (d.updSv l f).rd g = d.rd g := Device.rd_congr (d.updSv_regs l f) g
@[simp] theorem Device.bit_updSv (d : Device) (l : Lane) (f : SvSt → SvSt) (g : RF) : (d.updSv l f).bit g = d.bit g := Device.bit_congr (d.updSv_regs l f) g
@[simp] theorem Device.word_updPs (d : Device) (l : Lane) (f : PsSt → PsSt) (a : Nat) : (d.updPs l f).word a = d.word a :=
  Device.word_congr (d.updPs_regs l f) a
@[simp] theorem Device.rd_updPs (d : Device) (l : Lane) (f : PsSt → PsSt) (g : RF) : (d.updPs l f).rd g = d.rd g := Device.rd_congr (d.updPs_regs l f) g
@[simp] theorem Device.bit_updPs (d : Device) (l : Lane) (f : PsSt → PsSt) (g : RF) : (d.updPs l f).bit g = d.bit g := Device.bit_congr (d.updPs_regs l f) g
@[simp] theorem Device.word_updEc (d : Device) (q : SeqId) (f : EcSt → EcSt) (a : Nat) : (d.updEc q f).word a = d.word a :=
  Device.word_congr (d.updEc_regs q f) a
@[simp] theorem Device.rd_updEc (d : Device) (q : SeqId) (f : EcSt → EcSt) (g : RF) : (d.updEc q f).rd g = d.rd g := Device.rd_congr (d.updEc_regs q f) g
@[simp] theorem Device.bit_updEc (d : Device) (q : SeqId) (f : EcSt → EcSt) (g : RF) : (d.updEc q f).bit g = d.bit g := Device.bit_congr (d.updEc_regs q f) g
@[simp] theorem Device.word_updOp (d : Device) (q : SeqId) (f : EcOp → EcOp) (a : Nat) : (d.updOp q f).word a = d.word a :=
  Device.word_congr (d.updOp_regs q f) a
@[simp] theorem Device.rd_updOp (d : Device) (q : SeqId) (f : EcOp → EcOp) (g : RF) : (d.updOp q f).rd g = d.rd g := Device.rd_congr (d.updOp_regs q f) g
@[simp] theorem Device.bit_updOp (d : Device) (q : SeqId) (f : EcOp → EcOp) (g : RF) : (d.updOp q f).bit g = d.bit g := Device.bit_congr (d.updOp_regs q f) g
@[simp] theorem Device.word_updBe (d : Device) (e : BEng) (f : BeSt → BeSt) (a : Nat) : (d.updBe e f).word a = d.word a :=
  Device.word_congr (d.updBe_regs e f) a
@[simp] theorem Device.rd_updBe (d : Device) (e : BEng) (f : BeSt → BeSt) (g : RF) : (d.updBe e f).rd g = d.rd g := Device.rd_congr (d.updBe_regs e f) g
@[simp] theorem Device.bit_updBe (d : Device) (e : BEng) (f : BeSt → BeSt) (g : RF) : (d.updBe e f).bit g = d.bit g := Device.bit_congr (d.updBe_regs e f) g

/-! ### Registers through the logbook -/

theorem Device.rd_log (d : Device) (src code : Nat) (ps : List Nat) {g : RF} (h : g.reg ≠ RG_LOGSTAT) : (d.log src code ps).rd g = d.rd g :=
  Device.rd_of_word (d.log_word src code ps h)

theorem Device.bit_log (d : Device) (src code : Nat) (ps : List Nat) {g : RF} (h : g.reg ≠ RG_LOGSTAT) : (d.log src code ps).bit g = d.bit g := by
  simp only [Device.bit, d.rd_log src code ps h]

theorem Device.rd_logRate (d : Device) (src code scope : Nat) (ps : List Nat) {g : RF} (h : g.reg ≠ RG_LOGSTAT) :
    (d.logRate src code scope ps).rd g = d.rd g :=
  Device.rd_of_word (d.logRate_word src code scope ps h)

theorem Device.bit_wr_reg (d : Device) {f g : RF} (v : Nat) (h : g.reg ≠ f.reg) : (d.wr f v).bit g = d.bit g := by
  simp only [Device.bit, d.rd_wr_reg v h]

theorem Device.bit_wr_bits (d : Device) {f g : RF} (v : Nat) (h : g.lo + g.n ≤ f.lo ∨ f.lo + f.n ≤ g.lo) : (d.wr f v).bit g = d.bit g := by
  simp only [Device.bit, d.rd_wr_bits v h]

theorem Device.rd_incSat_same (d : Device) {f : RF} (k : Nat) (h : f.lo + f.n ≤ 32) : (d.incSat f k).rd f = min (d.rd f + k) (2 ^ f.n - 1) := by
  have hpos := Nat.two_pow_pos f.n
  rw [Device.incSat, Device.rd_wr_same _ _ h]
  exact Nat.mod_eq_of_lt (by omega)

/-! ### Writes of registers alone -/

/-- Only registers differ. -/
def Device.RegsOnly (d e : Device) : Prop := ∃ r, e = { d with regs := r }

theorem Device.RegsOnly.refl (d : Device) : d.RegsOnly d := ⟨d.regs, rfl⟩

theorem Device.RegsOnly.wr {d e : Device} (h : d.RegsOnly e) (f : RF) (v : Nat) : d.RegsOnly (e.wr f v) := by
  obtain ⟨r, rfl⟩ := h
  exact ⟨_, rfl⟩

theorem Device.RegsOnly.wrAll {d e : Device} (h : d.RegsOnly e) (fs : List (RF × Nat)) : d.RegsOnly (e.wrAll fs) :=
  List.foldlRecOn (motive := d.RegsOnly) fs _ h fun _ he p _ => he.wr p.1 p.2

theorem Device.RegsOnly.mem_eq {d e : Device} (h : d.RegsOnly e) : e.mem = d.mem := by
  obtain ⟨r, rfl⟩ := h
  rfl

theorem Device.RegsOnly.lane_eq {d e : Device} (h : d.RegsOnly e) (m : Lane) : e.lane m = d.lane m := by
  obtain ⟨r, rfl⟩ := h
  cases m <;> rfl

theorem Device.wrAll_regsOnly (d : Device) (fs : List (RF × Nat)) : d.RegsOnly (d.wrAll fs) := (Device.RegsOnly.refl d).wrAll fs

@[simp] theorem Device.wrAll_mem (d : Device) (fs : List (RF × Nat)) : (d.wrAll fs).mem = d.mem := (d.wrAll_regsOnly fs).mem_eq

@[simp] theorem Device.lane_wrAll (d : Device) (fs : List (RF × Nat)) (m : Lane) : (d.wrAll fs).lane m = d.lane m := (d.wrAll_regsOnly fs).lane_eq m

theorem Device.word_wrAll (d : Device) (fs : List (RF × Nat)) {a : Nat} (h : ∀ p ∈ fs, a ≠ p.1.reg) : (d.wrAll fs).word a = d.word a :=
  List.foldlRecOn (motive := fun e : Device => e.word a = d.word a) fs _ rfl fun e he p hp => (Device.word_wr_other e p.1 p.2 (h p hp)).trans he

theorem Device.rd_wrAll (d : Device) (fs : List (RF × Nat)) {g : RF} (h : ∀ p ∈ fs, g.reg ≠ p.1.reg) : (d.wrAll fs).rd g = d.rd g :=
  Device.rd_of_word (d.word_wrAll fs h)

/-! ### Lanes through operations on other state -/

@[simp] theorem Device.lane_setWord (d : Device) (a : Nat) (w : BitVec 32) (m : Lane) : (d.setWord a w).lane m = d.lane m := by cases m <;> rfl
@[simp] theorem Device.lane_wr (d : Device) (f : RF) (v : Nat) (m : Lane) : (d.wr f v).lane m = d.lane m := by cases m <;> rfl
@[simp] theorem Device.lane_wrI (d : Device) (f : RF) (v : Int) (m : Lane) : (d.wrI f v).lane m = d.lane m := by cases m <;> rfl
@[simp] theorem Device.lane_wrB (d : Device) (f : RF) (b : Bool) (m : Lane) : (d.wrB f b).lane m = d.lane m := by cases m <;> rfl
@[simp] theorem Device.lane_incSat (d : Device) (f : RF) (k : Nat) (m : Lane) : (d.incSat f k).lane m = d.lane m := by cases m <;> rfl
@[simp] theorem Device.lane_emit (d : Device) (o : Output) (m : Lane) : (d.emit o).lane m = d.lane m := by cases m <;> rfl
@[simp] theorem Device.lane_updHost (d : Device) (f : HostSt → HostSt) (m : Lane) : (d.updHost f).lane m = d.lane m := by cases m <;> rfl
@[simp] theorem Device.lane_updPower (d : Device) (f : Power → Power) (m : Lane) : (d.updPower f).lane m = d.lane m := by cases m <;> rfl
@[simp] theorem Device.lane_updSpin (d : Device) (f : SpinSt → SpinSt) (m : Lane) : (d.updSpin f).lane m = d.lane m := by cases m <;> rfl
@[simp] theorem Device.lane_updElk (d : Device) (f : ElkSt → ElkSt) (m : Lane) : (d.updElk f).lane m = d.lane m := by cases m <;> rfl

@[simp] theorem Device.lane_log (d : Device) (src code : Nat) (ps : List Nat) (m : Lane) : (d.log src code ps).lane m = d.lane m := by
  cases m
  · exact d.log_lane0 src code ps
  · exact d.log_lane1 src code ps

@[simp] theorem Device.lane_logRate (d : Device) (src code scope : Nat) (ps : List Nat) (m : Lane) :
    (d.logRate src code scope ps).lane m = d.lane m := by
  obtain ⟨n, l, he | he⟩ := d.logRate_cases src code scope ps
  · rw [he]
    cases m
    · exact d.logRaw_lane0 src code _ n ps
    · exact d.logRaw_lane1 src code _ n ps
  · rw [he]
    cases m <;> rfl

end Sys2Proof.Machine
end

section
/-!
Reading: the read gate, capture, decode attempts, the stripe code, STOP (R180, R183 to R189, R307).
-/
namespace Sys2Proof.Machine

variable {d : Device} {l : Lane} {k : Nat} {x : Int} {q : SeqId} {o : EcOp}

/-! ### The read gate -/

/-- Passing the gates on changes at most whose they are. -/
theorem Device.passOwner_eq (d : Device) (l : Lane) : ∃ b, d.passOwner l = d.updLane l fun x => { x with owner := b } := by
  have hself : d = d.updLane l fun x => { x with owner := (d.lane l).owner } := by cases l <;> rfl
  unfold Device.passOwner
  extract_lets busy arms q0 q1 set
  split
  · extract_lets own oth
    split_ifs
    exacts [⟨_, hself⟩, ⟨_, rfl⟩, ⟨_, rfl⟩]
  · split_ifs
    exacts [⟨_, rfl⟩, ⟨_, rfl⟩, ⟨_, hself⟩]

theorem Device.ch_passOwner (d : Device) (l m : Lane) : (d.passOwner l).ch m = d.ch m := by
  obtain ⟨b, h⟩ := d.passOwner_eq l
  rw [h]
  cases l <;> cases m <;> rfl

theorem Device.passOwner_frame (d : Device) (l : Lane) :
    (d.passOwner l).regs = d.regs ∧ (d.passOwner l).mem = d.mem ∧ (d.passOwner l).pool = d.pool := by
  obtain ⟨b, h⟩ := d.passOwner_eq l
  rw [h]
  exact ⟨d.updLane_regs _ _, d.updLane_mem _ _, d.updLane_pool _ _⟩

theorem Device.standby_congr {e : Device} (h : e.pool = d.pool) (l : Lane) : e.standby l = d.standby l := by
  cases l <;> simp only [Device.standby, h]

theorem Device.ch_updOp (d : Device) (q : SeqId) (f : EcOp → EcOp) (l : Lane) : (d.updOp q f).ch l = d.ch l := by
  obtain ⟨m, b⟩ := q
  cases m <;> cases b <;> cases l <;> rfl

/-- The slot's arm is spent. -/
def Device.disarmed (d : Device) (q : SeqId) (k : Nat) : Device := d.updOp q fun o => { o with rArms := o.rArms.filter (fun n => n != k) }

/-- The armed slot arrives: the sequencer owns the lane's gates, and no sector is being captured. -/
def Device.Arrives (d : Device) (l : Lane) (k : Nat) (q : SeqId) (o : EcOp) : Prop :=
  d.owner l = some q ∧ (d.ec q).op = some o ∧ k ∈ o.rArms ∧ d.capturing l = false ∧ d.stream l = l

theorem readGateEff_unowned (h : (d.passOwner l).owner l = none) : readGateEff l k x d = d.passOwner l := by
  simp only [readGateEff, h]

theorem readGateEff_refused (h : (d.passOwner l).Arrives l k q o) (hoff : (d.passOwner l).bit (CH_CTRL_EN l) = false) :
    readGateEff l k x d = ((d.passOwner l).disarmed q k).report q k 15 := by
  obtain ⟨hown, hop, hk, hcap, hst⟩ := h
  simp only [readGateEff, hown, hop]
  rw [if_neg (by simp [hk, hcap, hst])]
  exact if_pos (by simp [hoff])

theorem readGateEff_held (h : (d.passOwner l).Arrives l k q o) (hen : (d.passOwner l).bit (CH_CTRL_EN l) = true)
    (htbl : (d.passOwner l).bit (CH_STATUS_BADTBL l) = false) (hs : ((d.passOwner l).disarmed q k).standby l = []) :
    readGateEff l k x d = ((d.passOwner l).disarmed q k).replayHold l q k := by
  obtain ⟨hown, hop, hk, hcap, hst⟩ := h
  simp only [Device.disarmed] at hs
  simp only [readGateEff, hown, hop, hs]
  rw [if_neg (by simp [hk, hcap, hst]), if_neg (by simp [hen, htbl])]
  split
  · contradiction
  · rfl

/-- The slot of the replay buffer that a sector read outside duplex opens. -/
def Device.openedSlot (d : Device) (l : Lane) (q : SeqId) (o : EcOp) (k : Nat) : RSlot :=
  { home := l, place := false, seq := q, k := k, band := o.band, slot := (o.first + k) % 2 ^ 32, head := o.head, zone := o.zone
    retry := (if o.retryFlag then some o.r else none), snap := d.snapshot l (if o.retryFlag then some o.r else none), turn := l }

/-- The capture begun: the slot taken, the hold over, the timing loop locked. -/
def Device.gateOpened (d : Device) (l : Lane) (q : SeqId) (r : RSlot) : Device :=
  (((d.updCh l fun c => { c with slots := c.slots ++ [r], alternate := l == .ln0 }).updOp q fun o => { o with hold := false }).wr (CH_STATUS_HOLD l)
    0).wr (TR_STATUS_LOCK l) 1

theorem Device.duplex_gateOpened (d : Device) (l : Lane) (q : SeqId) (r : RSlot) : (d.gateOpened l q r).duplex = d.duplex := by
  unfold Device.gateOpened Device.duplex
  cases l <;> simp (disch := decide) only [Device.bit_wr_reg, Device.bit_updOp, Device.bit_updCh]

theorem Device.gateOpened_shows (d : Device) (l : Lane) (q : SeqId) (r : RSlot) :
    ((d.gateOpened l q r).ch l).slots = (d.ch l).slots ++ [r] ∧ (d.gateOpened l q r).rd (TR_STATUS_LOCK l) = 1 ∧
      (d.gateOpened l q r).rd (CH_STATUS_HOLD l) = 0 := by
  refine ⟨?_, ?_⟩
  · rw [Device.gateOpened, Device.ch, Device.lane_wr, Device.lane_wr, ← Device.ch, Device.ch_updOp, Device.updCh_same]
  · unfold Device.gateOpened
    cases l <;> simp (disch := decide) only [Device.rd_wr_reg, Device.rd_wr_same] <;> exact ⟨rfl, rfl⟩

theorem Device.gateOpened_word (d : Device) (l : Lane) (q : SeqId) (r : RSlot) {a : Nat} (h : a ∉ [TR_STATUS l, CH_STATUS l]) :
    (d.gateOpened l q r).word a = d.word a := by
  simp only [List.mem_cons, List.not_mem_nil, or_false, not_or] at h
  rw [Device.gateOpened, Device.word_wr_other _ _ _ h.1, Device.word_wr_other _ _ _ h.2, Device.word_updOp, Device.word_updCh]

theorem Device.gateOpened_mem (d : Device) (l : Lane) (q : SeqId) (r : RSlot) : (d.gateOpened l q r).mem = d.mem := by
  simp only [Device.gateOpened, Device.wr_mem, Device.updOp_mem, Device.updCh_mem]

theorem Device.deskewTrack_simplex (h : d.duplex = false) (n : Int) : d.deskewTrack n = d := if_pos (by simp [h])

theorem readGateEff_opens {p : Nat} {ps : List Nat} (h : (d.passOwner l).Arrives l k q o) (hdup : ((d.passOwner l).disarmed q k).duplex = false)
    (hslots : (((d.passOwner l).disarmed q k).ch l).slots = []) (hen : (d.passOwner l).bit (CH_CTRL_EN l) = true)
    (htbl : (d.passOwner l).bit (CH_STATUS_BADTBL l) = false) (hs : ((d.passOwner l).disarmed q k).standby l = p :: ps) :
    readGateEff l k x d =
      ((d.passOwner l).disarmed q k).gateOpened l q (((d.passOwner l).disarmed q k).openedSlot l q o k) := by
  obtain ⟨hown, hop, hk, hcap, hst⟩ := h
  have hplace : ((d.passOwner l).disarmed q k).freePlace l l = some (l, false) := by
    simp [Device.freePlace, hdup, hslots]
  rw [← Device.deskewTrack_simplex ((Device.duplex_gateOpened _ _ _ _).trans hdup) x]
  simp only [Device.disarmed] at hs hdup hplace
  simp only [readGateEff, hown, hop, hdup, hs]
  rw [if_neg (by simp [hk, hcap, hst]), if_neg (by simp [hen, htbl])]
  simp only [Bool.false_and, Bool.false_eq_true, if_false, hplace]
  rfl

/-! ### Capture -/

theorem captureEff_none {o : CaptureObs} (h : ∀ r ∈ (d.ch l).slots, r.captured = true) : captureEff l o d = d := by
  have hnone : (d.ch l).slots.find? (fun r => !r.captured) = none := by simpa using h
  simp only [captureEff, hnone]

/-- The same slots, in the same order. -/
def Device.SameSlots (l : Lane) (d e : Device) : Prop := (e.ch l).slots = (d.ch l).slots

theorem Device.SameSlots.of_lane {e : Device} (h : e.lane l = d.lane l) : Device.SameSlots l d e := by
  simp only [Device.SameSlots, Device.ch, h]

theorem Device.slots_wr (d : Device) (f : RF) (v : Nat) (l : Lane) : ((d.wr f v).ch l).slots = (d.ch l).slots := by
  simp only [Device.ch, Device.lane_wr]

theorem Device.slots_wrB (d : Device) (f : RF) (b : Bool) (l : Lane) : ((d.wrB f b).ch l).slots = (d.ch l).slots := d.slots_wr f _ l

theorem Device.slots_incSat (d : Device) (f : RF) (n : Nat) (l : Lane) : ((d.incSat f n).ch l).slots = (d.ch l).slots := d.slots_wr f _ l

theorem Device.slots_logRate (d : Device) (src code scope : Nat) (ps : List Nat) (l : Lane) :
    ((d.logRate src code scope ps).ch l).slots = (d.ch l).slots := by
  simp only [Device.ch, Device.lane_logRate]

theorem Device.slots_chCount (d : Device) (m : Lane) (off n : Nat) (l : Lane) : ((d.chCount m off n).ch l).slots = (d.ch l).slots := by
  cases m <;> cases l <;> rfl

theorem Device.slots_dxCount (d : Device) (off : Nat) (l : Lane) : ((d.dxCount off).ch l).slots = (d.ch l).slots := by
  cases l <;> rfl

theorem Device.slots_foldl_wr {α : Type} (d : Device) (xs : List α) (f : α → RF) (v : α → Nat) (l : Lane) :
    ((xs.foldl (fun d x => d.wr (f x) (v x)) d).ch l).slots = (d.ch l).slots :=
  List.foldlRecOn (motive := fun e : Device => (e.ch l).slots = (d.ch l).slots) xs _ rfl fun e he _ _ => (e.slots_wr _ _ l).trans he

theorem Device.slots_adapt (d : Device) (m : Lane) (o : CaptureObs) (l : Lane) : ((d.adapt m o).ch l).slots = (d.ch l).slots := by
  simp only [Device.adapt]
  split_ifs <;> simp only [Device.slots_foldl_wr, Device.slots_wr]

theorem Device.slots_captureFlags (d : Device) (m : Lane) (r : RSlot) (o : CaptureObs) (l : Lane) :
    ((d.captureFlags m r o).ch l).slots = (d.ch l).slots := by
  simp only [Device.captureFlags]
  split_ifs <;> simp only [Device.slots_logRate, Device.slots_chCount, Device.slots_incSat, Device.slots_wr]

theorem Device.slots_showCands (d : Device) (m : Lane) (cs : List (Nat × Int)) (l : Lane) : ((d.showCands m cs).ch l).slots = (d.ch l).slots := by
  refine List.foldlRecOn (motive := fun e : Device => (e.ch l).slots = (d.ch l).slots) _ _ rfl fun e he i _ => ?_
  split
  · simpa only [Device.ch, Device.lane_setWord] using he
  · simpa only [Device.ch, Device.lane_wrI, Device.lane_wr] using he

/-- A decoder taken changes no slot. -/
theorem Device.slots_startDecode (d : Device) (m l : Lane) : ((d.startDecode m).ch l).slots = (d.ch l).slots := by
  have hdec : ∀ (n : Lane) (key : Lane × Bool), ((d.updCh n fun c => { c with dec := some key }).ch l).slots = (d.ch l).slots := by
    intro n key
    cases n <;> cases l <;> rfl
  unfold Device.startDecode
  extract_lets due
  split
  · split_ifs <;> simp only [hdec]
  · split
    · rfl
    · split_ifs <;> simp only [hdec]

theorem Device.slots_startDecoders (d : Device) (m l : Lane) : ((d.startDecoders m).ch l).slots = (d.ch l).slots :=
  ((d.startDecode m).slots_startDecode m l).trans (d.slots_startDecode m l)

/-- The slot of a sector captured: its candidates ranked, the first the alignment of the first attempt. -/
def RSlot.rankedSlot (r : RSlot) (l : Lane) (o : CaptureObs) : RSlot :=
  let sync := r.word (SYNC_CTRL l)
  let ps := (rankCands (getField sync 8 6) (getField sync 0 3) o.cands).map (·.2)
  { r with captured := true, cands := ps, mark := !ps.isEmpty, align := ps.head?.getD 0 }

theorem mem_zipIdx_take_lt {α : Type} {xs : List α} {n : Nat} {p : α × Nat} (h : p ∈ (xs.take n).zipIdx) : p.2 < n := by
  have hlt := List.snd_lt_of_mem_zipIdx h
  have hlen := List.length_take_le n xs
  omega

theorem Device.word_foldl_wr {α : Type} (d : Device) (xs : List α) (f : α → RF) (v : α → Nat) {a : Nat} (h : ∀ x ∈ xs, a ≠ (f x).reg) :
    (xs.foldl (fun d x => d.wr (f x) (v x)) d).word a = d.word a :=
  List.foldlRecOn (motive := fun e : Device => e.word a = d.word a) xs _ rfl fun e he x hx => (e.word_wr_other _ _ (h x hx)).trans he

theorem control_ne_tap (l : Lane) (i : Nat) : CH_CTRL l ≠ EQ_TAP l i := by
  unfold CH_CTRL EQ_TAP
  omega

theorem control_ne_tapB (l : Lane) {i : Nat} (h : i < 24) : CH_CTRL l ≠ DX_TAPB i := by
  cases l <;> simp only [CH_CTRL, DX_TAPB, Lane.base] <;> omega

/-- Adapting during a sector leaves the channel's control register. -/
theorem Device.word_adapt_control (d : Device) (l : Lane) (o : CaptureObs) : (d.adapt l o).word (CH_CTRL l) = d.word (CH_CTRL l) := by
  have htap : ∀ e : Device, ((o.taps.take 24).zipIdx.foldl (fun d p => d.wr (EQ_TAP_TAP l p.2) p.1) e).word (CH_CTRL l) = e.word (CH_CTRL l) := by
    intro e
    refine e.word_foldl_wr _ _ _ fun p hp => ?_
    exact control_ne_tap l p.2
  have htapB : ∀ e : Device, ((o.tapsB.take 24).zipIdx.foldl (fun d p => d.wr (DX_TAPB_TAP p.2) p.1) e).word (CH_CTRL l) = e.word (CH_CTRL l) := by
    intro e
    refine e.word_foldl_wr _ _ _ fun p hp => ?_
    exact control_ne_tapB l (mem_zipIdx_take_lt hp)
  have hgain : ∀ (e : Device) (v : Nat), (e.wr (AFE_GAIN_GAIN l) v).word (CH_CTRL l) = e.word (CH_CTRL l) := by
    intro e v
    cases l <;> exact e.word_wr_other _ _ (by decide)
  have hferr : ∀ (e : Device) (v : Nat), (e.wr (TR_STATUS_FERR l) v).word (CH_CTRL l) = e.word (CH_CTRL l) := by
    intro e v
    cases l <;> exact e.word_wr_other _ _ (by decide)
  simp only [Device.adapt]
  split_ifs <;> simp only [htap, htapB, hgain, hferr]

theorem Device.word_captureFlags_control (d : Device) (l : Lane) (r : RSlot) (o : CaptureObs) :
    (d.captureFlags l r o).word (CH_CTRL l) = d.word (CH_CTRL l) := by
  have hch : ∀ (e : Device) (off : Nat), (e.chCount l off).word (CH_CTRL l) = e.word (CH_CTRL l) := fun e off => e.word_updCh _ _ _
  simp only [Device.captureFlags, Device.incSat]
  cases l <;> split_ifs <;> simp (disch := decide) only [Device.logRate_word, hch, Device.word_wr_other]

theorem captureEff_ranks {o : CaptureObs} {r : RSlot} (hr : (d.ch l).slots.find? (fun r => !r.captured) = some r) (hlink : r.linkErr = false)
    (hblank : d.bit (CH_CTRL_SCAN l) = false ∨ o.noPreamble = false) :
    ∃ e : Device, captureEff l o d = (e.updSlot l r.key fun _ => r.rankedSlot l o).startDecoders l ∧ (e.ch l).slots = (d.ch l).slots := by
  have hscan : ((d.adapt l o).captureFlags l r o).bit (CH_CTRL_SCAN l) = d.bit (CH_CTRL_SCAN l) := by
    have hrd : ((d.adapt l o).captureFlags l r o).rd (CH_CTRL_SCAN l) = d.rd (CH_CTRL_SCAN l) :=
      Device.rd_of_word ((Device.word_captureFlags_control _ _ _ _).trans (d.word_adapt_control l o))
    simp only [Device.bit, hrd]
  have hgo : ¬(((d.adapt l o).captureFlags l r o).bit (CH_CTRL_SCAN l) && o.noPreamble) = true := by
    rw [hscan]
    rcases hblank with h | h <;> simp [h]
  simp only [captureEff, hr]
  rw [if_neg hgo]
  refine ⟨_, if_neg (by simp [hlink]), ?_⟩
  split_ifs <;>
    simp only [Device.slots_chCount, Device.slots_wr, Device.slots_showCands, Device.slots_dxCount, Device.slots_captureFlags, Device.slots_adapt]

theorem Device.rankedSlot_mem {e : Device} {o : CaptureObs} {r : RSlot} (h : r ∈ (e.ch l).slots) :
    r.rankedSlot l o ∈ (((e.updSlot l r.key fun _ => r.rankedSlot l o).startDecoders l).ch l).slots := by
  rw [Device.slots_startDecoders, Device.updSlot, Device.updCh_same]
  exact List.mem_map.2 ⟨r, h, if_pos (beq_self_eq_true _)⟩

/-! ### Decode attempts -/

theorem attemptEff_none {o : DecodeObs} (h : (d.ch l).dec = none) : attemptEff l o d = d := by
  simp only [attemptEff, h]

/-- The iterations an attempt reports: no more than its step's limit. -/
def RSlot.iterations (r : RSlot) (l : Lane) (o : DecodeObs) : Nat := min o.iter (getField (r.word (LDPC_CTRL l)) (if r.step = 1 then 8 else 16) 6)

theorem attemptEff_good {o : DecodeObs} {key : Lane × Bool} {r : RSlot} (hdup : d.duplex = false) (hdec : (d.ch l).dec = some key)
    (hr : (d.ch l).slots.find? (fun r => r.key == key) = some r) (hpar : o.parity = false) (hconv : o.conv = true) (hcrc : o.crc = true)
    (hband : o.band = r.band) (hslot : o.slot = r.slot) :
    attemptEff l o d =
      (((d.updCh l fun c => { c with dec := none }).ldpcStatus l true true (r.iterations l o) o.usc).sectorGood l r (r.iterations l o)).startDecoders
        l := by
  have hstream : d.stream l = l := if_neg (by simp [hdup])
  simp only [attemptEff, hstream, hdec, Device.updCh_same, hr, hpar, hconv, hcrc, hband, hslot]
  simp only [Bool.false_and, Bool.false_eq_true, if_false, beq_self_eq_true, Bool.and_self, if_true]
  rfl

/-! ### The stripe code -/

/-- A group of the stripe code begun. -/
def Device.stripeBegun (d : Device) (l : Lane) (m : Bool) (n : Nat) : Device :=
  d.wrAll [(STRIPE_CTRL_MODE l, if m then 1 else 0), (STRIPE_CTRL_DATA l, n), (STRIPE_STATUS_BUSY l, 1), (STRIPE_STATUS_DONE l, 0),
    (STRIPE_STATUS_FAIL l, 0), (STRIPE_STATUS_ERASED l, 0)]

theorem stripeStartEff_begins {m : Bool} {n : Nat} (hidle : ∀ q ∈ laneSeqs l, (d.ec q).op = none) (hn : 1 ≤ n) (hg : n ≤ d.rd CB_STRIPE_G) :
    stripeStartEff l m n d = d.stripeBegun l m n := by
  have hnot : ((laneSeqs l).any fun q => match (d.ec q).op with | none => false | some o => o.writes) = false := by
    rw [List.any_eq_false]
    intro q hq
    simp [hidle q hq]
  rw [stripeStartEff]
  refine if_neg ?_
  rintro (h | h | h)
  · exact absurd (hnot.symm.trans h) (by simp)
  · omega
  · omega

theorem Device.stripeBegun_fields (d : Device) (l : Lane) (m : Bool) (n : Nat) :
    (d.stripeBegun l m n).rd (STRIPE_STATUS_BUSY l) = 1 ∧ (d.stripeBegun l m n).rd (STRIPE_STATUS_DONE l) = 0 ∧
      (d.stripeBegun l m n).rd (STRIPE_STATUS_FAIL l) = 0 ∧ (d.stripeBegun l m n).rd (STRIPE_STATUS_ERASED l) = 0 := by
  simp only [Device.stripeBegun, Device.wrAll, List.foldl_cons, List.foldl_nil]
  cases l <;> simp (disch := decide) only [Device.rd_wr_bits, Device.rd_wr_same] <;> exact ⟨rfl, rfl, rfl, rfl⟩

theorem Device.stripeBegun_untouched (d : Device) (l : Lane) (m : Bool) (n : Nat) :
    Untouched [STRIPE_CTRL l, STRIPE_STATUS l] d (d.stripeBegun l m n) := by
  refine untouched_of (fun a ha => ?_) rfl (by cases l <;> decide)
  simp only [List.mem_cons, List.not_mem_nil, or_false, not_or] at ha
  obtain ⟨hc, hs⟩ := ha
  simp only [Device.stripeBegun, Device.wrAll, List.foldl_cons, List.foldl_nil]
  rw [Device.word_wr_other _ _ _ hs, Device.word_wr_other _ _ _ hs, Device.word_wr_other _ _ _ hs, Device.word_wr_other _ _ _ hs,
    Device.word_wr_other _ _ _ hc, Device.word_wr_other _ _ _ hc]

/-- With no sector waiting, none fails. -/
theorem Device.failPend_empty (h : (d.ch l).pend = []) : (d.failPend l).regs = d.regs ∧ (d.failPend l).mem = d.mem := by
  simp only [Device.failPend, h, List.filter_nil, List.foldl_nil]
  exact ⟨d.updCh_regs _ _, d.updCh_mem _ _⟩

/-- A group ended: no longer busy, done. -/
def Device.stripeEnded (d : Device) (l : Lane) : Device := (d.wr (STRIPE_STATUS_BUSY l) 0).wr (STRIPE_STATUS_DONE l) 1

/-- What a group that could be solved shows. -/
def Device.stripeSolved (d : Device) (l : Lane) (bad : List Nat) : Device :=
  if bad.isEmpty then (d.stripeEnded l).wr (CH_INT_STRIPE_DONE l) 1 else ((d.stripeEnded l).wr (CH_INT_STRIPE_DONE l) 1).wr (CH_INT_SEAL l) 1

/-- What a group with more erasures than the code corrects shows. -/
def Device.stripeLost (d : Device) (l : Lane) (ps : List Nat) : Device :=
  (((d.stripeEnded l).wr (STRIPE_STATUS_FAIL l) 1).wr (CH_INT_STRIPE_FAIL l) 1).log l.src 0x2009 ps

theorem Device.pend_stripeEnded (d : Device) (l : Lane) : ((d.stripeEnded l).ch l).pend = (d.ch l).pend := by
  simp only [Device.stripeEnded, Device.ch, Device.lane_wr]

theorem Device.stripeP_stripeEnded (d : Device) (l : Lane) : (d.stripeEnded l).stripeP = d.stripeP := by
  cases l <;> simp (disch := decide) only [Device.stripeEnded, Device.stripeP, Device.rd_wr_reg]

/-- The group's sectors go on to rotational retries. -/
def Device.leaveStripe (d : Device) (l : Lane) (mine : PendSect → Bool) : Device :=
  (d.updCh l fun c => { c with pend := c.pend.map fun p => if mine p then { p with stripe := false } else p }).failPend l

theorem Device.leaveStripe_empty (mine : PendSect → Bool) (h : (d.ch l).pend = []) :
    (d.leaveStripe l mine).regs = d.regs ∧ (d.leaveStripe l mine).mem = d.mem := by
  have hnil : ((d.updCh l fun c => { c with pend := c.pend.map fun p => if mine p then { p with stripe := false } else p }).ch l).pend = [] := by
    rw [Device.updCh_same]
    simp only [h, List.map_nil]
  obtain ⟨hregs, hmem⟩ := Device.failPend_empty hnil
  exact ⟨hregs.trans (d.updCh_regs _ _), hmem.trans (d.updCh_mem _ _)⟩

/-- A waiting sector belongs to the group that is solved. -/
def Device.inGroup (d : Device) (b g : Nat) (p : PendSect) : Bool := p.stripe && p.band == b && d.groupOf p.slot == g

theorem Device.pend_stripeSolved (d : Device) (l : Lane) (bad : List Nat) : ((d.stripeSolved l bad).ch l).pend = (d.ch l).pend := by
  unfold Device.stripeSolved
  split <;> simp only [Device.ch, Device.lane_wr] <;> exact d.pend_stripeEnded l

theorem stripeSolveEff_solved {b g : Nat} {bad : List Nat} (hbusy : d.bit (STRIPE_STATUS_BUSY l) = true) (hpend : (d.ch l).pend = [])
    (herased : d.rd (STRIPE_STATUS_ERASED l) ≤ d.stripeP) :
    (stripeSolveEff l b g bad false d).regs = (d.stripeSolved l bad).regs ∧ (stripeSolveEff l b g bad false d).mem = (d.stripeSolved l bad).mem := by
  have hended : (((d.wr (STRIPE_STATUS_BUSY l) 0).wr (STRIPE_STATUS_DONE l) 1).ch l).pend = [] := (d.pend_stripeEnded l).trans hpend
  have hfew : ¬(d.stripeEnded l).stripeP < d.rd (STRIPE_STATUS_ERASED l) := by
    rw [d.stripeP_stripeEnded l]
    omega
  have heff : stripeSolveEff l b g bad false d =
      ((d.stripeSolved l bad).updCh l fun c => { c with pend := c.pend.filter fun p => !(d.inGroup b g p && !bad.contains p.slot) }).leaveStripe l
        (d.inGroup b g) := by
    simp only [stripeSolveEff, hbusy, Bool.not_true, Bool.false_eq_true, if_false, hended, List.filter_nil, List.foldl_nil]
    exact if_neg hfew
  have hnil : (((d.stripeSolved l bad).updCh l fun c =>
      { c with pend := c.pend.filter fun p => !(d.inGroup b g p && !bad.contains p.slot) }).ch l).pend = [] := by
    rw [Device.updCh_same]
    simp only [d.pend_stripeSolved l bad, hpend, List.filter_nil]
  obtain ⟨hregs, hmem⟩ := Device.leaveStripe_empty (d.inGroup b g) hnil
  rw [heff]
  exact ⟨hregs.trans (Device.updCh_regs _ _ _), hmem.trans (Device.updCh_mem _ _ _)⟩

theorem stripeSolveEff_lost {b g : Nat} {bad : List Nat} (hbusy : d.bit (STRIPE_STATUS_BUSY l) = true) (hpend : (d.ch l).pend = [])
    (herased : d.stripeP < d.rd (STRIPE_STATUS_ERASED l)) :
    ∃ ps, (stripeSolveEff l b g bad false d).regs = (d.stripeLost l ps).regs ∧ (stripeSolveEff l b g bad false d).mem = (d.stripeLost l ps).mem := by
  have hmany : (d.stripeEnded l).stripeP < d.rd (STRIPE_STATUS_ERASED l) := by rwa [d.stripeP_stripeEnded l]
  have heff : stripeSolveEff l b g bad false d = (d.stripeLost l [b, g, d.rd (STRIPE_STATUS_ERASED l)]).leaveStripe l (d.inGroup b g) := by
    simp only [stripeSolveEff, hbusy, Bool.not_true, Bool.false_eq_true, if_false]
    exact if_pos hmany
  refine ⟨[b, g, d.rd (STRIPE_STATUS_ERASED l)], ?_⟩
  rw [heff]
  refine Device.leaveStripe_empty _ ?_
  simp only [Device.stripeLost, Device.ch, Device.lane_log, Device.lane_wr]
  exact (d.pend_stripeEnded l).trans hpend

theorem Device.stripeSolved_fields (d : Device) (l : Lane) (bad : List Nat) :
    (d.stripeSolved l bad).rd (STRIPE_STATUS_BUSY l) = 0 ∧ (d.stripeSolved l bad).rd (STRIPE_STATUS_DONE l) = 1 ∧
      (d.stripeSolved l bad).rd (CH_INT_STRIPE_DONE l) = 1 := by
  unfold Device.stripeSolved Device.stripeEnded
  cases l <;> split <;> simp (disch := decide) only [Device.rd_wr_reg, Device.rd_wr_bits, Device.rd_wr_same] <;> exact ⟨rfl, rfl, rfl⟩

theorem Device.stripeSolved_word (d : Device) (l : Lane) (bad : List Nat) {a : Nat} (h : a ∉ [STRIPE_STATUS l, CH_INT l]) :
    (d.stripeSolved l bad).word a = d.word a := by
  simp only [List.mem_cons, List.not_mem_nil, or_false, not_or] at h
  obtain ⟨hs, hi⟩ := h
  have hended : (d.stripeEnded l).word a = d.word a := by
    rw [Device.stripeEnded, Device.word_wr_other _ _ _ hs, Device.word_wr_other _ _ _ hs]
  unfold Device.stripeSolved
  split
  · rw [Device.word_wr_other _ _ _ hi, hended]
  · rw [Device.word_wr_other _ _ _ hi, Device.word_wr_other _ _ _ hi, hended]

theorem Device.stripeLost_fields (d : Device) (l : Lane) (ps : List Nat) :
    (d.stripeLost l ps).rd (STRIPE_STATUS_BUSY l) = 0 ∧ (d.stripeLost l ps).rd (STRIPE_STATUS_DONE l) = 1 ∧
      (d.stripeLost l ps).rd (STRIPE_STATUS_FAIL l) = 1 ∧ (d.stripeLost l ps).rd (CH_INT_STRIPE_FAIL l) = 1 := by
  unfold Device.stripeLost Device.stripeEnded
  cases l <;> simp (disch := decide) only [Device.rd_log, Device.rd_wr_reg, Device.rd_wr_bits, Device.rd_wr_same] <;>
    exact ⟨rfl, rfl, rfl, rfl⟩

theorem Device.stripeLost_word (d : Device) (l : Lane) (ps : List Nat) {a : Nat} (h : a ∉ [STRIPE_STATUS l, CH_INT l, RG_LOGSTAT]) :
    (d.stripeLost l ps).word a = d.word a := by
  simp only [List.mem_cons, List.not_mem_nil, or_false, not_or] at h
  obtain ⟨hs, hi, hlog⟩ := h
  rw [Device.stripeLost, Device.log_word _ _ _ _ hlog, Device.word_wr_other _ _ _ hi, Device.word_wr_other _ _ _ hs, Device.stripeEnded,
    Device.word_wr_other _ _ _ hs, Device.word_wr_other _ _ _ hs]

/-! ### STOP -/

theorem chStopEff_none (hs : (d.ch l).slots = []) (hp : (d.ch l).pend = []) : chStopEff l d = d := by
  simp [chStopEff, hs, hp]

/-- STOP begun: its event is due, and no sector waits any more. -/
def Device.stopBegun (d : Device) (l : Lane) : Device :=
  (d.updCh l fun c => { c with stopLog := true, slots := c.slots.map fun s => { s with stopped := true } }).updCh l fun c => { c with pend := [] }

theorem chStopEff_one {p : PendSect} (hs : (d.ch l).slots = []) (hp : (d.ch l).pend = [p]) :
    chStopEff l d = ((d.stopBegun l).sectorFailed l p).stopEvent l := by
  simp only [chStopEff, hs, hp, Device.updCh_same, List.map_nil, List.filter_nil, List.foldl_nil, List.foldl_cons]
  exact if_neg (by simp)

theorem Device.stopBegun_pend (d : Device) (l : Lane) : ((d.stopBegun l).ch l).pend = [] := by
  rw [Device.stopBegun, Device.updCh_same]

theorem Device.rplStatus_lane (d : Device) (l : Lane) (att code : Nat) (p : Int) (m : Lane) : (d.rplStatus l att code p).lane m = d.lane m := by
  simp only [Device.rplStatus, Device.lane_wrI, Device.lane_wr]

/-- A sector that failed changes only the counts of its channel. -/
theorem Device.sectorFailed_ch (d : Device) (l : Lane) (p : PendSect) : ∃ n, (d.sectorFailed l p).ch l = { d.ch l with cnt := n } := by
  have hrpl : (d.rplStatus l p.attempts 7 p.align).ch l = d.ch l := by simp only [Device.ch, Device.rplStatus_lane]
  have hfail : (d.sectorFailed l p).ch l = ((d.rplStatus l p.attempts 7 p.align).chCount l 0x20).ch l := by
    simp only [Device.sectorFailed, Device.ch, Device.lane_log, Device.lane_wr]
  exact ⟨Sparse.setCnt (d.ch l).cnt 8 (Sparse.cnt (d.ch l).cnt 8 + 1), by rw [hfail, Device.chCount, Device.updCh_same, hrpl]⟩

theorem Device.stopEvent_due (h : (d.ch l).stopLog = true) : d.stopEvent l = (d.updCh l fun c => { c with stopLog := false }).log l.src 0x200B :=
  if_pos h

theorem Device.sectorFailed_fields (d : Device) (l : Lane) (p : PendSect) :
    (d.sectorFailed l p).rd (CH_INT_SECT_FAIL l) = 1 ∧ (d.sectorFailed l p).rd (RPL_STATUS_STEP l) = 7 := by
  simp only [Device.sectorFailed, Device.rplStatus, Device.chCount, Device.wrI]
  cases l <;> simp (disch := decide) only [Device.rd_log, Device.rd_updCh, Device.rd_wr_reg, Device.rd_wr_bits, Device.rd_wr_same] <;>
    exact ⟨rfl, rfl⟩

theorem Device.sectorFailed_word (d : Device) (l : Lane) (p : PendSect) {a : Nat} (h : a ∉ [CH_INT l, RPL_STATUS l, RG_LOGSTAT]) :
    (d.sectorFailed l p).word a = d.word a := by
  simp only [List.mem_cons, List.not_mem_nil, or_false, not_or] at h
  obtain ⟨hi, hr, hlog⟩ := h
  rw [Device.sectorFailed, Device.log_word _ _ _ _ hlog, Device.word_wr_other _ _ _ hi, Device.chCount, Device.word_updCh, Device.rplStatus,
    Device.wrI, Device.word_wr_other _ _ _ hr, Device.word_wr_other _ _ _ hr, Device.word_wr_other _ _ _ hr]

theorem Device.sectorFailed_mem (d : Device) (l : Lane) (p : PendSect) : (d.sectorFailed l p).mem = d.mem := by
  simp only [Device.sectorFailed, Device.log_mem, Device.wr_mem, Device.chCount, Device.updCh_mem, Device.rplStatus, Device.wrI_mem]

/-- What STOP shows of the one sector that waited. -/
def Device.stopShown (d : Device) (l : Lane) (p : PendSect) : Device :=
  (((d.stopBegun l).sectorFailed l p).updCh l fun c => { c with stopLog := false }).log l.src 0x200B

theorem chStopEff_shows {p : PendSect} (hs : (d.ch l).slots = []) (hp : (d.ch l).pend = [p]) : chStopEff l d = d.stopShown l p := by
  rw [chStopEff_one hs hp, Device.stopEvent_due]
  · rfl
  · obtain ⟨n, hch⟩ := (d.stopBegun l).sectorFailed_ch l p
    rw [hch]
    simp only [Device.stopBegun, Device.updCh_same]

end Sys2Proof.Machine

open Sys2Proof Sys2Proof.Machine

/-- Settles O34: the read gate by who owns it and what is free; a decode, the stripe code and STOP by the state they end. -/
theorem readGateAndDecoding : Obligations.ReadGateAndDecoding := by
  refine ⟨?_, ?_, ?_, ?_, ?_, ?_, ?_, ?_, ?_, ?_, ?_, ?_, ?_⟩
  · intro s l k x h
    exact gives_eff (readGateEff l k x) rfl (readGateEff_unowned h)
  · intro s l k x q o hown hop hk hcap hst hen
    obtain ⟨hregs, -, -⟩ := s.dev.passOwner_frame l
    exact gives_eff (readGateEff l k x) rfl (readGateEff_refused ⟨hown, hop, hk, hcap, hst⟩ ((Device.bit_congr hregs _).trans hen))
  · intro s l k x q o hown hop hk hcap hst hen htbl hs
    obtain ⟨hregs, -, hpool⟩ := s.dev.passOwner_frame l
    exact gives_eff (readGateEff l k x) rfl (readGateEff_held ⟨hown, hop, hk, hcap, hst⟩ ((Device.bit_congr hregs _).trans hen)
      ((Device.bit_congr hregs _).trans htbl) ((Device.standby_congr ((Device.updOp_pool _ _ _).trans hpool) l).trans hs))
  · intro s l k p ps x q o hown hop hk hdup hslots hen htbl hs
    obtain ⟨hregs, hmem, hpool⟩ := s.dev.passOwner_frame l
    have hregs' : ((s.dev.passOwner l).disarmed q k).regs = s.dev.regs := (Device.updOp_regs _ _ _).trans hregs
    have hdup' : (s.dev.passOwner l).duplex = false := (Device.bit_congr hregs _).trans hdup
    have hst : (s.dev.passOwner l).stream l = l := if_neg (by simp [hdup'])
    have hcap : (s.dev.passOwner l).capturing l = false := by
      rw [Device.capturing, hst, Device.ch_passOwner, hslots, List.any_nil]
    have hslots' : (((s.dev.passOwner l).disarmed q k).ch l).slots = [] := by
      rw [Device.disarmed, Device.ch_updOp, Device.ch_passOwner, hslots]
    refine givesThat_eff (readGateEff l k x) rfl ?_
    rw [readGateEff_opens ⟨hown, hop, hk, hcap, hst⟩ ((Device.bit_congr hregs' _).trans hdup) hslots' ((Device.bit_congr hregs _).trans hen)
      ((Device.bit_congr hregs _).trans htbl) ((Device.standby_congr ((Device.updOp_pool _ _ _).trans hpool) l).trans hs)]
    obtain ⟨hopened, hlock, hhold⟩ := ((s.dev.passOwner l).disarmed q k).gateOpened_shows l q
      (((s.dev.passOwner l).disarmed q k).openedSlot l q o k)
    rw [hslots', List.nil_append] at hopened
    refine ⟨⟨_, hopened, rfl, rfl, rfl, rfl, rfl, rfl⟩, hlock, hhold, untouched_of (fun a ha => ?_) ?_ (by cases l <;> decide)⟩
    · rw [Device.gateOpened_word _ _ _ _ ha, Device.word_congr hregs']
    · rw [Device.gateOpened_mem]
      exact (Device.updOp_mem _ _ _).trans hmem
  · intro s l o h
    exact gives_eff (captureEff l o) rfl (captureEff_none h)
  · intro s l o r hr hlink hblank
    refine givesThat_eff (captureEff l o) rfl ?_
    obtain ⟨e, heff, hslots⟩ := captureEff_ranks hr hlink hblank
    rw [heff]
    exact ⟨r.rankedSlot l o, Device.rankedSlot_mem (hslots ▸ List.mem_of_find?_eq_some hr), rfl, rfl, rfl⟩
  · intro s l o h
    exact gives_eff (attemptEff l o) rfl (attemptEff_none h)
  · intro s l o key r hdup hdec hr hpar hconv hcrc hband hslot
    exact gives_eff (attemptEff l o) rfl (attemptEff_good hdup hdec hr hpar hconv hcrc hband hslot)
  · intro s l m n hidle hn hg
    refine givesThat_eff (stripeStartEff l m n) rfl ?_
    rw [stripeStartEff_begins hidle hn hg]
    obtain ⟨hb, hd, hf, he⟩ := s.dev.stripeBegun_fields l m n
    exact ⟨hb, hd, hf, he, s.dev.stripeBegun_untouched l m n⟩
  · intro s l b g bad hbusy hpend herased
    refine givesThat_eff (stripeSolveEff l b g bad false) rfl ?_
    obtain ⟨hregs, hmem⟩ := stripeSolveEff_solved (b := b) (g := g) (bad := bad) hbusy hpend herased
    obtain ⟨hb, hd, hi⟩ := s.dev.stripeSolved_fields l bad
    have hmem' : (s.dev.stripeSolved l bad).mem = s.dev.mem := by
      unfold Device.stripeSolved
      split <;> rfl
    refine ⟨(Device.rd_congr hregs _).trans hb, (Device.rd_congr hregs _).trans hd, (Device.rd_congr hregs _).trans hi,
      untouched_of (fun a ha => (Device.word_congr hregs a).trans (s.dev.stripeSolved_word l bad ha)) (hmem.trans hmem') ?_⟩
    cases l <;> decide
  · intro s l b g bad hbusy hpend herased
    refine givesThat_eff (stripeSolveEff l b g bad false) rfl ?_
    obtain ⟨ps, hregs, hmem⟩ := stripeSolveEff_lost (b := b) (g := g) (bad := bad) hbusy hpend herased
    obtain ⟨hb, hd, hf, hi⟩ := s.dev.stripeLost_fields l ps
    refine ⟨(Device.rd_congr hregs _).trans hb, (Device.rd_congr hregs _).trans hd, (Device.rd_congr hregs _).trans hf,
      (Device.rd_congr hregs _).trans hi,
      untouched_of (fun a ha => (Device.word_congr hregs a).trans (s.dev.stripeLost_word l ps ha)) (hmem.trans (Device.log_mem _ _ _ _)) ?_⟩
    cases l <;> decide
  · intro s l hs hp
    exact gives_eff (chStopEff l) rfl (chStopEff_none hs hp)
  · intro s l p hs hp
    refine givesThat_eff (chStopEff l) rfl ?_
    rw [chStopEff_shows hs hp]
    obtain ⟨n, hch⟩ := (s.dev.stopBegun l).sectorFailed_ch l p
    obtain ⟨hint, hstep⟩ := (s.dev.stopBegun l).sectorFailed_fields l p
    refine ⟨?_, ?_, ?_, untouched_of (fun a ha => ?_) ?_ (by cases l <;> decide)⟩
    · simp only [Device.stopShown, Device.ch, Device.lane_log]
      rw [← Device.ch, Device.updCh_same, hch]
      exact s.dev.stopBegun_pend l
    · rw [Device.stopShown, Device.rd_log _ _ _ _ (by cases l <;> decide), Device.rd_updCh, hint]
    · rw [Device.stopShown, Device.rd_log _ _ _ _ (by cases l <;> decide), Device.rd_updCh, hstep]
    · have hlog : a ≠ RG_LOGSTAT := fun h => ha (by simp [h])
      rw [Device.stopShown, Device.log_word _ _ _ _ hlog, Device.word_updCh, Device.sectorFailed_word _ _ _ ha, Device.stopBegun,
        Device.word_updCh, Device.word_updCh]
    · rw [Device.stopShown, Device.log_mem, Device.updCh_mem, Device.sectorFailed_mem, Device.stopBegun, Device.updCh_mem, Device.updCh_mem]

end

section
/-!
FORCE and the verdicts of same-pass verification (R210 to R213).
-/
namespace Sys2Proof.Machine

variable {d : Device} {q : SeqId} {k it : Nat} {f : Bool} {o : EcOp}

/-! ### FORCE -/

theorem forceWriteEff_inert {v : Nat} (h : d.duplex = false ∨ v % 4 = 3) : forceWriteEff v d = d := by
  refine if_pos ?_
  rcases h with h | h <;> simp [h]

/-- The read mode forced. -/
def Device.forced (d : Device) (v : Nat) : Device := (d.wr DX_CTRL_FORCE (v % 4)).wr DX_STATUS_FB 0

theorem Device.capturing_ln0 (d : Device) : d.capturing .ln0 = (d.ch .ln0).slots.any fun s => !s.captured := by
  rw [Device.capturing, Device.stream, ite_self]

theorem Device.capturing_forced (d : Device) (v : Nat) : (d.forced v).capturing .ln0 = d.capturing .ln0 := by
  simp only [Device.capturing_ln0, Device.forced, Device.ch, Device.lane_wr]

theorem forceWriteEff_forces {v : Nat} (hd : d.duplex = true) (hv : v % 4 ≠ 3) :
    forceWriteEff v d = if d.capturing .ln0 = true then d.forced v else (d.forced v).dxBoundary := by
  rw [← d.capturing_forced v]
  exact if_neg (by simp [hd, hv])

/-! ### Verdicts -/

theorem Device.ec_wr (d : Device) (g : RF) (v : Nat) (q : SeqId) : (d.wr g v).ec q = d.ec q := by simp only [Device.ec, Device.lane_wr]

theorem Device.ec_dxCount (d : Device) (off : Nat) (q : SeqId) : (d.dxCount off).ec q = d.ec q := by
  simp only [Device.ec, Device.dxCount, Device.lane_updElk]

theorem Device.ec_log (d : Device) (src code : Nat) (ps : List Nat) (q : SeqId) : (d.log src code ps).ec q = d.ec q := by
  simp only [Device.ec, Device.lane_log]

/-- A verdict shown: whether it passed, and its iterations up to VWEAK. -/
def Device.verdictShown (d : Device) (q : SeqId) (k : Nat) (pass : Bool) (it : Nat) : Device :=
  (d.takeVerdict q k).wrAll [(VFY_STATUS_PASS, if pass then 1 else 0), (VFY_STATUS_ITER, min it d.elk.vweak)]

theorem Device.verdictShown_elk (d : Device) (q : SeqId) (k : Nat) (pass : Bool) (it : Nat) : (d.verdictShown q k pass it).elk = d.elk := by
  simp only [Device.verdictShown, Device.wrAll, List.foldl_cons, List.foldl_nil, Device.wr_elk, Device.takeVerdict, Device.updOp_elk]

theorem Device.verdictShown_op {pass : Bool} (ho : (d.ec q).op = some o) (hv : o.vpend = [(k, none)]) :
    ((d.verdictShown q k pass it).ec q).op = some { o with vpend := [] } := by
  simp only [Device.verdictShown, Device.wrAll, List.foldl_cons, List.foldl_nil, Device.ec_wr, Device.takeVerdict, Device.updOp_same, ho,
    Option.map_some, hv, List.filter_cons, List.filter_nil, bne_self_eq_false, Bool.false_eq_true, if_false]

theorem Device.endDue_running {e : Device} {o' : EcOp} (ho : (e.ec q).op = some o') (he : o'.ending = none) : e.endDue q = e := by
  simp only [Device.endDue, ho, he]

/-- A verdict passed and counted. -/
def Device.verdictPassed (d : Device) (q : SeqId) (k it : Nat) : Device := (d.verdictShown q k true it).dxCount 0x10

/-- A verdict missed: counted, logged, and held against its slot. -/
def Device.verdictMissed (d : Device) (q : SeqId) (k it : Nat) (ps : List Nat) : Device :=
  (((((d.verdictShown q k false it).wr DX_INT_VFY_MISS 1).dxCount 0x14).incSat VFY_STATUS_MISSES).log 4 0x2015 ps).updOp q fun o =>
    { o with vmiss := o.vmiss ++ [k] }

theorem Device.verdictPassed_op (ho : (d.ec q).op = some o) (hv : o.vpend = [(k, none)]) :
    ((d.verdictPassed q k it).ec q).op = some { o with vpend := [] } := by
  rw [Device.verdictPassed, Device.ec_dxCount, Device.verdictShown_op ho hv]

theorem Device.verdictMissed_op {ps : List Nat} (ho : (d.ec q).op = some o) (hv : o.vpend = [(k, none)]) :
    ((d.verdictMissed q k it ps).ec q).op = some { o with vpend := [], vmiss := o.vmiss ++ [k] } := by
  rw [Device.verdictMissed, Device.updOp_same, Device.ec_log, Device.incSat, Device.ec_wr, Device.ec_dxCount, Device.ec_wr,
    Device.verdictShown_op ho hv]
  rfl

theorem find_pending (hv : o.vpend = [(k, none)]) : o.vpend.find? (fun p => p.1 == k) = some (k, none) := by simp [hv]

theorem verdictEff_pass (hq : q.lane = .ln0) (hon : d.verifyOn = true) (ho : (d.ec q).op = some o) (hv : o.vpend = [(k, none)])
    (he : o.ending = none) (hit : it ≤ d.elk.vweak) (hpar : d.elk.parSect = false) : verdictEff q k true it true f d = d.verdictPassed q k it := by
  have hpar' : (d.verdictShown q k true it).elk.parSect = false := by rw [Device.verdictShown_elk, hpar]
  have hend : (d.verdictPassed q k it).endDue q = d.verdictPassed q k it := Device.endDue_running (Device.verdictPassed_op ho hv) he
  simp only [Device.verdictShown, if_true] at hpar'
  simp only [verdictEff, ho, find_pending hv, hit, decide_true, Bool.and_self, if_true, hpar']
  rw [if_neg (by simp [hon, hq])]
  exact hend

theorem verdictEff_miss (hq : q.lane = .ln0) (hon : d.verifyOn = true) (ho : (d.ec q).op = some o) (hv : o.vpend = [(k, none)])
    (he : o.ending = none) (hpar : d.elk.parSect = false) : ∃ ps, verdictEff q k false it true f d = d.verdictMissed q k it ps := by
  have hpar' : (d.verdictShown q k false it).elk.parSect = false := by rw [Device.verdictShown_elk, hpar]
  have hend : (d.verdictMissed q k it [o.head, o.band, (o.first + k) % 2 ^ 32]).endDue q = _ :=
    Device.endDue_running (Device.verdictMissed_op ho hv) he
  refine ⟨[o.head, o.band, (o.first + k) % 2 ^ 32], ?_⟩
  simp only [Device.verdictShown, Bool.false_eq_true, if_false] at hpar'
  simp only [verdictEff, ho, find_pending hv, Bool.false_and, Bool.false_eq_true, if_false, hpar']
  rw [if_neg (by simp [hon, hq])]
  exact hend

theorem Device.verdictShown_word (d : Device) (q : SeqId) (k : Nat) (pass : Bool) (it : Nat) {a : Nat} (h : a ≠ VFY_STATUS) :
    (d.verdictShown q k pass it).word a = d.word a := by
  simp only [Device.verdictShown, Device.wrAll, List.foldl_cons, List.foldl_nil]
  rw [Device.word_wr_other _ _ _ h, Device.word_wr_other _ _ _ h, Device.takeVerdict, Device.word_updOp]

theorem Device.verdictShown_fields (d : Device) (q : SeqId) (k : Nat) (pass : Bool) (it : Nat) :
    (d.verdictShown q k pass it).rd VFY_STATUS_PASS = (if pass then 1 else 0) ∧
      (d.verdictShown q k pass it).rd VFY_STATUS_ITER = min it d.elk.vweak % 64 ∧
      (d.verdictShown q k pass it).rd VFY_STATUS_MISSES = d.rd VFY_STATUS_MISSES := by
  simp only [Device.verdictShown, Device.wrAll, List.foldl_cons, List.foldl_nil, Device.takeVerdict]
  refine ⟨?_, ?_, ?_⟩
  · rw [Device.rd_wr_bits _ _ (by decide), Device.rd_wr_same _ _ (by decide)]
    cases pass <;> rfl
  · rw [Device.rd_wr_same _ _ (by decide)]
    rfl
  · rw [Device.rd_wr_bits _ _ (by decide), Device.rd_wr_bits _ _ (by decide), Device.rd_updOp]

theorem Device.verdictShown_mem (d : Device) (q : SeqId) (k : Nat) (pass : Bool) (it : Nat) : (d.verdictShown q k pass it).mem = d.mem := by
  simp only [Device.verdictShown, Device.wrAll, List.foldl_cons, List.foldl_nil, Device.wr_mem, Device.takeVerdict, Device.updOp_mem]

theorem Device.rd_dxCount (d : Device) (off : Nat) (g : RF) : (d.dxCount off).rd g = d.rd g := d.rd_updElk _ _

theorem Device.verdictPassed_regs (d : Device) (q : SeqId) (k it : Nat) :
    (d.verdictPassed q k it).regs = (d.verdictShown q k true it).regs := Device.updElk_regs _ _

theorem Device.verdictMissed_fields (d : Device) (q : SeqId) (k it : Nat) (ps : List Nat) :
    (d.verdictMissed q k it ps).rd VFY_STATUS_PASS = 0 ∧
      (d.verdictMissed q k it ps).rd VFY_STATUS_MISSES = min (d.rd VFY_STATUS_MISSES + 1) 65535 ∧
      (d.verdictMissed q k it ps).rd DX_INT_VFY_MISS = 1 := by
  obtain ⟨hpass, -, hmiss⟩ := d.verdictShown_fields q k false it
  have hmax : 2 ^ VFY_STATUS_MISSES.n - 1 = 65535 := by decide
  have hbits : ∀ e : Device, (e.incSat VFY_STATUS_MISSES).rd VFY_STATUS_PASS = e.rd VFY_STATUS_PASS := fun e => e.rd_wr_bits _ (by decide)
  have hreg : ∀ e : Device, (e.incSat VFY_STATUS_MISSES).rd DX_INT_VFY_MISS = e.rd DX_INT_VFY_MISS := fun e => e.rd_wr_reg _ (by decide)
  simp (disch := decide) only [Device.verdictMissed, Device.rd_updOp, Device.rd_log, Device.rd_incSat_same, hbits, hreg, Device.rd_dxCount,
    Device.rd_wr_reg, Device.rd_wr_same, hpass, hmiss, hmax]
  exact ⟨rfl, trivial, rfl⟩

theorem Device.verdictMissed_word (d : Device) (q : SeqId) (k it : Nat) (ps : List Nat) {a : Nat} (h : a ∉ [VFY_STATUS, DX_INT, RG_LOGSTAT]) :
    (d.verdictMissed q k it ps).word a = d.word a := by
  simp only [List.mem_cons, List.not_mem_nil, or_false, not_or] at h
  obtain ⟨hv, hi, hl⟩ := h
  rw [Device.verdictMissed, Device.word_updOp, Device.log_word _ _ _ _ hl, Device.incSat, Device.word_wr_other _ _ _ hv, Device.dxCount,
    Device.word_updElk, Device.word_wr_other _ _ _ hi, Device.verdictShown_word _ _ _ _ _ hv]

theorem Device.verdictMissed_mem (d : Device) (q : SeqId) (k it : Nat) (ps : List Nat) : (d.verdictMissed q k it ps).mem = d.mem := by
  rw [Device.verdictMissed, Device.updOp_mem, Device.log_mem, Device.incSat_mem, Device.dxCount, Device.updElk_mem, Device.wr_mem,
    Device.verdictShown_mem]

theorem overdueEff_overdue (ho : (d.ec q).op = some o) (hv : ∃ p ∈ o.vpend, p.1 = k) (hon : d.verifyOn = true) :
    overdueEff q k d = (d.updElk fun e => { e with overdue := true }).loseVerify 2 := by
  have hany : (o.vpend.any fun p => p.1 == k) = true := by simpa using hv
  simp only [overdueEff, ho]
  exact if_neg (by simp [hany, hon])

end Sys2Proof.Machine

open Sys2Proof Sys2Proof.Machine

/-- Settles O35: FORCE by the structure and the capture; a verdict by whether it passes. -/
theorem forceAndVerdictsFollowDuplexRules : Obligations.ForceAndVerdictsFollowDuplexRules := by
  refine ⟨?_, ?_, ?_, ?_, ?_, ?_⟩
  · intro s v h
    exact gives_eff (forceWriteEff v) rfl (forceWriteEff_inert h)
  · intro s v hd hv hc
    exact gives_eff (forceWriteEff v) rfl ((forceWriteEff_forces hd hv).trans (if_pos hc))
  · intro s v hd hv hc
    exact gives_eff (forceWriteEff v) rfl ((forceWriteEff_forces hd hv).trans (if_neg (by simp [hc])))
  · intro s q k it f o hq hon ho hv he hit hpar hweak
    refine givesThat_eff (verdictEff q k true it true f) rfl ?_
    rw [verdictEff_pass hq hon ho hv he hit hpar]
    obtain ⟨hpass, hiter, hmiss⟩ := s.dev.verdictShown_fields q k true it
    have hregs := s.dev.verdictPassed_regs q k it
    refine ⟨(Device.rd_congr hregs _).trans hpass, ?_, (Device.rd_congr hregs _).trans hmiss, Device.verdictPassed_op ho hv,
      untouched_of (fun a ha => ?_) ((Device.updElk_mem _ _).trans (s.dev.verdictShown_mem q k true it)) (by decide)⟩
    · rw [Device.rd_congr hregs, hiter]
      omega
    · rw [Device.word_congr hregs, Device.verdictShown_word _ _ _ _ _ (List.ne_of_not_mem_cons ha)]
  · intro s q k it f o hq hon ho hv he hpar
    refine givesThat_eff (verdictEff q k false it true f) rfl ?_
    obtain ⟨ps, hmissed⟩ := verdictEff_miss (it := it) (f := f) hq hon ho hv he hpar
    rw [hmissed]
    obtain ⟨hpass, hmiss, hint⟩ := s.dev.verdictMissed_fields q k it ps
    exact ⟨hpass, hmiss, hint, Device.verdictMissed_op ho hv,
      untouched_of (fun a ha => s.dev.verdictMissed_word q k it ps ha) (s.dev.verdictMissed_mem q k it ps) (by decide)⟩
  · intro s q k o ho hv hon
    exact gives_eff (overdueEff q k) rfl (overdueEff_overdue ho hv hon)

end

section
/-!
The Eltik link and the preamp bridge (R199, R214, R226 to R230, R241).
-/
namespace Sys2Proof.Machine

variable {d : Device} {l : Lane}

/-! ### Words on the link -/

theorem wordReceiveEff_down {p : Bool} (h : d.bit (ELK_STATUS_UP l) = false) : wordReceiveEff l p d = d := if_pos (by simp [h])

/-- The run of bad words on a lane's side. -/
def ElkSt.badRun (e : ElkSt) : Lane → Nat
  | .ln0 => e.bad0
  | .ln1 => e.bad1

/-- The run of bad words on a lane's side set. -/
def Device.setBadRun (d : Device) (l : Lane) (n : ElkSt → Nat) : Device :=
  d.updElk fun e => match l with | .ln0 => { e with bad0 := n e } | .ln1 => { e with bad1 := n e }

theorem Device.setBadRun_bad (d : Device) (l : Lane) (n : ElkSt → Nat) : (d.setBadRun l n).elk.badRun l = n d.elk := by
  cases l <;> rfl

theorem wordReceiveEff_good (h : d.bit (ELK_STATUS_UP l) = true) : wordReceiveEff l false d = d.setBadRun l fun _ => 0 := by
  rw [wordReceiveEff, if_neg (by simp [h])]
  rfl

/-- A bad word shown as an interrupt in duplex. -/
def Device.parityShown (d : Device) : Device := if d.dxOn then d.wr DX_INT_LINK_PAR 1 else d

theorem Device.parityShown_frame (d : Device) : d.parityShown.mem = d.mem ∧ d.parityShown.elk = d.elk := by
  unfold Device.parityShown
  split
  · exact ⟨Device.wr_mem _ _ _, Device.wr_elk _ _ _⟩
  · exact ⟨rfl, rfl⟩

theorem Device.parityShown_word (d : Device) {a : Nat} (h : a ≠ DX_INT) : d.parityShown.word a = d.word a := by
  unfold Device.parityShown
  split
  · exact Device.word_wr_other _ _ _ h
  · rfl

/-- A bad word counted: in the run, in the register, and in duplex as an interrupt. -/
def Device.wordCounted (d : Device) (l : Lane) : Device :=
  ((d.setBadRun l fun e => e.badRun l + 1).incSat (ELK_STATUS_PAR_CNT l)).parityShown

/-- What a bad word spoils: the sector being captured, or the one being verified. -/
def Device.wordSpoils (d : Device) (l : Lane) : Device :=
  if (d.duplex && l == .ln0) = true then
    if d.rd DX_STATUS_MODE = 1 then d
    else d.updCh .ln0 fun c => { c with slots := c.slots.map fun s => if s.captured then s else { s with linkErr := true } }
  else if (d.verifyOn && d.gateOpen .ln0) = true then d.updElk fun e => { e with parSect := true } else d

theorem wordReceiveEff_bad (h : d.bit (ELK_STATUS_UP l) = true) : wordReceiveEff l true d = (d.wordCounted l).wordSpoils l := by
  have hset : d.setBadRun l (fun e => e.badRun l + 1) =
      d.updElk fun e => match l with | .ln0 => { e with bad0 := e.bad0 + 1 } | .ln1 => { e with bad1 := e.bad1 + 1 } := by cases l <;> rfl
  rw [Device.wordSpoils, Device.wordCounted, hset, wordReceiveEff, if_neg (by simp [h])]
  simp only [Bool.not_true, Bool.false_eq_true, if_false, if_true]
  cases l <;> rfl

theorem Device.wordSpoils_frame (d : Device) (l : Lane) :
    (d.wordSpoils l).regs = d.regs ∧ (d.wordSpoils l).mem = d.mem ∧ (d.wordSpoils l).elk.badRun l = d.elk.badRun l := by
  unfold Device.wordSpoils
  split_ifs
  · exact ⟨rfl, rfl, rfl⟩
  · exact ⟨rfl, rfl, rfl⟩
  · cases l <;> exact ⟨rfl, rfl, rfl⟩
  · exact ⟨rfl, rfl, rfl⟩

theorem Device.wordCounted_run (d : Device) (l : Lane) : (d.wordCounted l).elk.badRun l = d.elk.badRun l + 1 := by
  rw [← d.setBadRun_bad l fun e => e.badRun l + 1]
  rw [Device.wordCounted, (Device.parityShown_frame _).2, Device.incSat_elk]

theorem Device.wordCounted_mem (d : Device) (l : Lane) : (d.wordCounted l).mem = d.mem := by
  rw [Device.wordCounted, (Device.parityShown_frame _).1, Device.incSat_mem, Device.setBadRun, Device.updElk_mem]

theorem Device.wordCounted_count (d : Device) (l : Lane) :
    (d.wordCounted l).rd (ELK_STATUS_PAR_CNT l) = min (d.rd (ELK_STATUS_PAR_CNT l) + 1) 255 := by
  have hfits : (ELK_STATUS_PAR_CNT l).lo + (ELK_STATUS_PAR_CNT l).n ≤ 32 := by cases l <;> decide
  have hmax : 2 ^ (ELK_STATUS_PAR_CNT l).n - 1 = 255 := by cases l <;> decide
  have hreg : (ELK_STATUS_PAR_CNT l).reg ≠ DX_INT := by cases l <;> decide
  rw [Device.wordCounted, Device.rd_of_word (Device.parityShown_word _ hreg), Device.rd_incSat_same _ _ hfits, hmax, Device.setBadRun, Device.rd_updElk]

theorem Device.wordCounted_word (d : Device) (l : Lane) {a : Nat} (h : a ∉ [ELK_STATUS l, DX_INT]) : (d.wordCounted l).word a = d.word a := by
  simp only [List.mem_cons, List.not_mem_nil, or_false, not_or] at h
  rw [Device.wordCounted, Device.parityShown_word _ h.2, Device.incSat, Device.word_wr_other _ _ _ h.1, Device.setBadRun, Device.word_updElk]

/-! ### The link down, and training -/

theorem heartbeatEff_up (h : d.bit (ELK_STATUS_UP l) = true) : heartbeatEff l d = d.emit (.heartbeat l) := if_pos h

theorem heartbeatEff_down (h : d.bit (ELK_STATUS_UP l) = false) : heartbeatEff l d = d := if_neg (by simp [h])

theorem eltikDownEff_silent (h : d.bit (ELK_STATUS_UP .ln0) = true) :
    eltikDownEff false d = ((d.linkLost.incSat (ELK_STATUS_DOWN_CNT .ln0)).incSat (ELK_STATUS_DOWN_CNT .ln1)).log 4 0x2010 [0] :=
  if_neg (by simp [h])

theorem eltikDownEff_few (h0 : d.elk.bad0 < 4) (h1 : d.elk.bad1 < 4) : eltikDownEff true d = d := if_pos (by simp [h0, h1])

theorem retrainEff_eq : retrainEff d = (if d.bit (ELK_STATUS_UP .ln0) then d.linkLost else d).updElk fun e => { e with training := true, tries := 3 } :=
  rfl

/-- Both sides of the link up. -/
def Device.linkUpBoth (d : Device) : Device :=
  ((d.wr (ELK_STATUS_UP .ln0) 1).wr (ELK_STATUS_UP .ln1) 1).updElk fun e => { e with training := false, bad0 := 0, bad1 := 0, lostLogged := false }

/-- The training's end shown in duplex, and logged where the link had been down. -/
def Device.trained (d : Device) (was : Bool) : Device :=
  let e := if d.dxOn then d.wr DX_STATUS_LINK 1 else d
  if was then e.log 4 0x2011 else e

theorem trainCompleteEff_trains (h : d.elk.training = true) : trainCompleteEff d = d.linkUpBoth.trained d.elk.wasDown := if_neg (by simp [h])

theorem Device.linkUpBoth_up (d : Device) : d.linkUpBoth.rd (ELK_STATUS_UP .ln0) = 1 ∧ d.linkUpBoth.rd (ELK_STATUS_UP .ln1) = 1 := by
  simp (disch := decide) only [Device.linkUpBoth, Device.rd_updElk, Device.rd_wr_reg, Device.rd_wr_same]
  exact ⟨rfl, rfl⟩

theorem Device.linkUpBoth_mem (d : Device) : d.linkUpBoth.mem = d.mem := by
  rw [Device.linkUpBoth, Device.updElk_mem, Device.wr_mem, Device.wr_mem]

theorem Device.trained_word (d : Device) (was : Bool) {a : Nat} (hdx : a ≠ DX_STATUS) (hlog : a ≠ RG_LOGSTAT) : (d.trained was).word a = d.word a := by
  unfold Device.trained
  dsimp only
  split_ifs
  · rw [Device.log_word _ _ _ _ hlog, Device.word_wr_other _ _ _ hdx]
  · rw [Device.log_word _ _ _ _ hlog]
  · rw [Device.word_wr_other _ _ _ hdx]
  · rfl

theorem Device.trained_frame (d : Device) (was : Bool) : (d.trained was).mem = d.mem ∧ (d.trained was).elk = d.elk := by
  unfold Device.trained
  dsimp only
  split_ifs
  · exact ⟨Device.log_mem _ _ _ _, Device.log_elk _ _ _ _⟩
  · exact ⟨Device.log_mem _ _ _ _, Device.log_elk _ _ _ _⟩
  · exact ⟨rfl, rfl⟩
  · exact ⟨rfl, rfl⟩

theorem retrainTimeoutEff_training (h : d.elk.training = true) :
    retrainTimeoutEff d = d.updElk fun e => { e with tries := e.tries - 1, training := decide (1 < e.tries) } := if_neg (by simp [h])

/-! ### The bridge's frames -/

/-- The bridge is enabled and its link up. -/
def Device.bridgeUp (d : Device) (l : Lane) : Prop := d.bit (PA_CTRL_EN l) = true ∧ d.bit (PA_STATUS_LINK l) = true

theorem paWriteFrameEff_none {b : Nat} (h : (d.wrp l).frames = []) : paWriteFrameEff l b d = d := by
  simp only [paWriteFrameEff, h]

theorem paReadFrameEff_none {b : Nat} (h : (d.wrp l).frames = []) : paReadFrameEff l b d = d := by
  simp only [paReadFrameEff, h]

/-- A write frame of a logical register sent, and the register noted. -/
def Device.frameSent (d : Device) (l : Lane) (f : PaFrame) (fs : List PaFrame) (k : Nat) : Device :=
  ((d.updWr l fun w => { w with frames := fs }).emit (.preamp l false f.addr f.data)).updWr l fun w =>
    { w with logical := Sparse.ins w.logical k f.data }

variable {b k : Nat} {f : PaFrame} {fs : List PaFrame}

theorem paWriteFrameEff_logical (hf : (d.wrp l).frames = f :: fs) (hr : f.read = false) (hk : f.reg = some k) (hd : f.direct = false)
    (hup : d.bridgeUp l) :
    paWriteFrameEff l b d =
      if (!keyReg k || b == f.data) = true then (d.frameSent l f fs k).paGood l
      else if f.again = true then (d.frameSent l f fs k).paLinkError l
      else (d.frameSent l f fs k).updWr l fun w => { w with frames := { f with again := true } :: w.frames } := by
  obtain ⟨hen, hlink⟩ := hup
  simp only [paWriteFrameEff, hf, hr, hk, hd, hen, hlink]
  rfl

theorem Device.wrp_emit (d : Device) (o : Output) (m : Lane) : (d.emit o).wrp m = d.wrp m := by simp only [Device.wrp, Device.lane_emit]

theorem Device.wrp_wr (d : Device) (g : RF) (v : Nat) (m : Lane) : (d.wr g v).wrp m = d.wrp m := by simp only [Device.wrp, Device.lane_wr]

theorem Device.frameSent_frame (d : Device) (l : Lane) :
    (d.frameSent l f fs k).out = d.out ++ [.preamp l false f.addr f.data] ∧ ((d.frameSent l f fs k).wrp l).frames = fs ∧
      (d.frameSent l f fs k).regs = d.regs ∧ (d.frameSent l f fs k).mem = d.mem := by
  refine ⟨?_, ?_, ?_, ?_⟩
  · rw [Device.frameSent, Device.updWr_out, Device.emit, Device.updWr_out]
  · rw [Device.frameSent, Device.updWr_same, Device.wrp_emit, Device.updWr_same]
  · rw [Device.frameSent, Device.updWr_regs, Device.emit_regs, Device.updWr_regs]
  · rw [Device.frameSent, Device.updWr_mem, Device.emit_mem, Device.updWr_mem]

/-- A direct read frame sent, its data shown. -/
def Device.readSent (d : Device) (l : Lane) (f : PaFrame) (fs : List PaFrame) (v : Nat) : Device :=
  (((d.updWr l fun w => { w with frames := fs }).emit (.preamp l true f.addr 0)).wr (PA_CMD_GO l) 0).wr (PA_CMD_DATA l) v

theorem Device.readSent_word (d : Device) (l : Lane) (v : Nat) {a : Nat} (h : a ≠ PA_CMD l) : (d.readSent l f fs v).word a = d.word a := by
  rw [Device.readSent, Device.word_wr_other _ _ _ h, Device.word_wr_other _ _ _ h, Device.word_emit, Device.word_updWr]

theorem Device.paAddr_congr {e : Device} (h : ∀ a, a ≠ PA_CMD l → e.word a = d.word a) : e.paAddr l 7 = d.paAddr l 7 := by
  unfold Device.paAddr Device.paProfile
  cases l <;> simp only [Device.rd_of_word (f := CB_PREAMP_P0) (h _ (by decide)), Device.rd_of_word (f := CB_PREAMP_P1) (h _ (by decide)),
    Device.rd_of_word (f := PA_MAP_ADDR .ln0 7) (h _ (by decide)), Device.rd_of_word (f := PA_MAP_ADDR .ln1 7) (h _ (by decide))]

theorem paReadFrameEff_direct {v : Nat} (hf : (d.wrp l).frames = f :: fs) (hr : f.read = true) (hd : f.direct = true) (ha : f.addr ≠ d.paAddr l 7)
    (hup : d.bridgeUp l) : paReadFrameEff l v d = d.readSent l f fs v := by
  obtain ⟨hen, hlink⟩ := hup
  have ha' : f.addr ≠ (d.readSent l f fs v).paAddr l 7 := by
    rwa [Device.paAddr_congr fun a h => d.readSent_word l v h]
  simp only [paReadFrameEff, hf, hr, hd, hen, hlink, Bool.not_true, Bool.or_self, Bool.false_eq_true, if_false, if_true]
  exact if_neg ha'

theorem Device.readSent_fields (d : Device) (l : Lane) (v : Nat) :
    (d.readSent l f fs v).rd (PA_CMD_DATA l) = v % 65536 ∧ (d.readSent l f fs v).rd (PA_CMD_GO l) = 0 := by
  unfold Device.readSent
  cases l <;> simp (disch := decide) only [Device.rd_wr_bits, Device.rd_wr_same] <;> exact ⟨rfl, rfl⟩

theorem paFaultPollEff_up {v : Nat} (hup : d.bridgeUp l) : paFaultPollEff l v d = (d.emit (.preamp l true (d.paAddr l 7) 0)).paFaultRead l v := by
  obtain ⟨hen, hlink⟩ := hup
  exact if_neg (by simp [hen, hlink])

/-- FAULT asked for on a link that is down. -/
def Device.retried (d : Device) (l : Lane) : Device := d.emit (.preamp l true (d.paAddr l 7) 0)

theorem paLinkRetryEff_good {v : Nat} (hen : d.bit (PA_CTRL_EN l) = true) (hlink : d.bit (PA_STATUS_LINK l) = false) (hv : bitsOf v 12 4 = 0b1010) :
    paLinkRetryEff l v d =
      if (d.wrp l).goodReads + 1 < 2 then (d.retried l).updWr l fun w => { w with goodReads := (d.wrp l).goodReads + 1 }
      else ((((d.retried l).updWr l fun w => { w with goodReads := 0, linkErrs := 0 }).wr (PA_STATUS_LINK l) 1).paFaultRead l v).paRewrite l := by
  rw [paLinkRetryEff, if_neg (by simp [hen, hlink])]
  dsimp only
  rw [if_neg (by simp [hv]), Device.wrp_emit]
  rfl

/-! ### Enabling the bridge, and direct frames -/

/-- The bridge enabled. -/
def Device.bridgeEnabled (d : Device) (l : Lane) : Device :=
  (d.wrAll [(PA_CTRL_EN l, 1), (PA_STATUS_LINK l, 1), (PA_STATUS_REFUSED l, 0)]).updWr l fun w => { w with linkErrs := 0, goodReads := 0 }

theorem paEnEff_enables (hr : d.paRefuses l = false) (hh : d.held1 l = false) : paEnEff l true d = d.bridgeEnabled l := by
  rw [paEnEff, if_neg (by simp), if_neg (by simp [hr, hh])]
  rfl

theorem paEnEff_refuses (hr : d.paRefuses l = true) : paEnEff l true d = (d.wr (PA_STATUS_REFUSED l) 1).log l.src 0x2805 [d.paProfile l] := by
  rw [paEnEff, if_neg (by simp), if_pos (by simp [hr])]

theorem Device.bridgeEnabled_fields (d : Device) (l : Lane) :
    (d.bridgeEnabled l).rd (PA_CTRL_EN l) = 1 ∧ (d.bridgeEnabled l).rd (PA_STATUS_LINK l) = 1 ∧ (d.bridgeEnabled l).rd (PA_STATUS_REFUSED l) = 0 := by
  simp only [Device.bridgeEnabled, Device.rd_updWr, Device.wrAll, List.foldl_cons, List.foldl_nil]
  cases l <;> simp (disch := decide) only [Device.rd_wr_reg, Device.rd_wr_bits, Device.rd_wr_same] <;> exact ⟨rfl, rfl, rfl⟩

theorem Device.bridgeEnabled_word (d : Device) (l : Lane) {a : Nat} (h : a ∉ [PA_CTRL l, PA_STATUS l]) : (d.bridgeEnabled l).word a = d.word a := by
  simp only [List.mem_cons, List.not_mem_nil, or_false, not_or] at h
  simp only [Device.bridgeEnabled, Device.word_updWr, Device.wrAll, List.foldl_cons, List.foldl_nil]
  rw [Device.word_wr_other _ _ _ h.2, Device.word_wr_other _ _ _ h.2, Device.word_wr_other _ _ _ h.1]

theorem Device.bridgeEnabled_mem (d : Device) (l : Lane) : (d.bridgeEnabled l).mem = d.mem := by
  rw [Device.bridgeEnabled, Device.updWr_mem, Device.wrAll_mem]

/-- A direct frame asked for. -/
def Device.cmdAsked (d : Device) (l : Lane) (rd_ : Bool) (a v : Nat) : Device :=
  d.wrAll [(PA_CMD_RD l, if rd_ then 1 else 0), (PA_CMD_ADDR l, a), (PA_CMD_DATA l, v)]

/-- A direct frame queued. -/
def Device.cmdQueued (d : Device) (l : Lane) (f : PaFrame) : Device :=
  (d.wrAll [(PA_CMD_REFUSED l, 0), (PA_CMD_GO l, 1)]).updWr l fun w => { w with frames := w.frames ++ [f] }

theorem Device.cmdAsked_word (d : Device) (l : Lane) (rd_ : Bool) (a v : Nat) {x : Nat} (h : x ≠ PA_CMD l) :
    (d.cmdAsked l rd_ a v).word x = d.word x := by
  simp only [Device.cmdAsked, Device.wrAll, List.foldl_cons, List.foldl_nil]
  rw [Device.word_wr_other _ _ _ h, Device.word_wr_other _ _ _ h, Device.word_wr_other _ _ _ h]

theorem Device.cmdAsked_lane (d : Device) (l : Lane) (rd_ : Bool) (a v : Nat) (m : Lane) : (d.cmdAsked l rd_ a v).lane m = d.lane m :=
  Device.lane_wrAll _ _ _

theorem Device.cmdAsked_mem (d : Device) (l : Lane) (rd_ : Bool) (a v : Nat) : (d.cmdAsked l rd_ a v).mem = d.mem := Device.wrAll_mem _ _

theorem Device.cmdAsked_test (d : Device) (l : Lane) (rd_ : Bool) (a v : Nat) :
    (!(d.cmdAsked l rd_ a v).bit (PA_CTRL_EN l) || (d.cmdAsked l rd_ a v).writeOp l) = (!d.bit (PA_CTRL_EN l) || d.writeOp l) := by
  have hen : (d.cmdAsked l rd_ a v).rd (PA_CTRL_EN l) = d.rd (PA_CTRL_EN l) :=
    Device.rd_of_word (d.cmdAsked_word l rd_ a v (by cases l <;> decide))
  simp only [Device.bit, hen, Device.writeOp, Device.ec, Device.cmdAsked_lane]

theorem paCmdEff_eq (d : Device) (l : Lane) (rd_ : Bool) (a v : Nat) :
    paCmdEff l rd_ a v d =
      if (!d.bit (PA_CTRL_EN l) || d.writeOp l) = true then (d.cmdAsked l rd_ a v).wr (PA_CMD_REFUSED l) 1
      else (d.cmdAsked l rd_ a v).cmdQueued l { read := rd_, addr := a % 128, data := v % 65536, reg := none, direct := true } := by
  rw [← d.cmdAsked_test l rd_ a v]
  rfl

theorem Device.cmdQueued_fields (d : Device) (l : Lane) (f : PaFrame) :
    (d.cmdQueued l f).rd (PA_CMD_GO l) = 1 ∧ (d.cmdQueued l f).rd (PA_CMD_REFUSED l) = 0 := by
  simp only [Device.cmdQueued, Device.rd_updWr, Device.wrAll, List.foldl_cons, List.foldl_nil]
  cases l <;> simp (disch := decide) only [Device.rd_wr_bits, Device.rd_wr_same] <;> exact ⟨rfl, rfl⟩

theorem Device.cmdQueued_word (d : Device) (l : Lane) (f : PaFrame) {x : Nat} (h : x ≠ PA_CMD l) : (d.cmdQueued l f).word x = d.word x := by
  simp only [Device.cmdQueued, Device.word_updWr, Device.wrAll, List.foldl_cons, List.foldl_nil]
  rw [Device.word_wr_other _ _ _ h, Device.word_wr_other _ _ _ h]

theorem Device.cmdQueued_mem (d : Device) (l : Lane) (f : PaFrame) : (d.cmdQueued l f).mem = d.mem := by
  rw [Device.cmdQueued, Device.updWr_mem, Device.wrAll_mem]

theorem Device.cmdQueued_frames (d : Device) (l : Lane) (f : PaFrame) : ((d.cmdQueued l f).wrp l).frames = (d.wrp l).frames ++ [f] := by
  rw [Device.cmdQueued, Device.updWr_same]
  simp only [Device.wrp, Device.lane_wrAll]

end Sys2Proof.Machine

open Sys2Proof Sys2Proof.Machine

/-- Settles O37: words and training by the link's state; the bridge by its oldest frame and its link. -/
theorem eltikLinkAndPreampBridge : Obligations.EltikLinkAndPreampBridge := by
  refine ⟨?_, ?_, ?_, ?_, ?_, ?_, ?_, ?_, ?_, ?_, ?_, ?_, ?_, ?_, ?_, ?_, ?_, ?_, ?_, ?_, ?_, ?_⟩
  · intro s l p h
    exact gives_eff (wordReceiveEff l p) rfl (wordReceiveEff_down h)
  · intro s l h
    refine givesThat_eff (wordReceiveEff l false) rfl ?_
    rw [wordReceiveEff_good h]
    exact ⟨by cases l <;> rfl, untouched_of_regs rfl rfl⟩
  · intro s l h
    refine givesThat_eff (wordReceiveEff l true) rfl ?_
    rw [wordReceiveEff_bad h]
    obtain ⟨hregs, hmem, hrun⟩ := (s.dev.wordCounted l).wordSpoils_frame l
    have hrun' := hrun.trans (s.dev.wordCounted_run l)
    refine ⟨(Device.rd_congr hregs _).trans (s.dev.wordCounted_count l), by cases l <;> exact hrun',
      untouched_of (fun a ha => (Device.word_congr hregs a).trans (s.dev.wordCounted_word l ha)) (hmem.trans (s.dev.wordCounted_mem l)) ?_⟩
    cases l <;> decide
  · intro s l h
    exact gives_eff (heartbeatEff l) rfl (heartbeatEff_up h)
  · intro s l h
    exact gives_eff (heartbeatEff l) rfl (heartbeatEff_down h)
  · intro s h
    exact gives_eff (eltikDownEff false) rfl (eltikDownEff_silent h)
  · intro s _ h0 h1
    exact gives_eff (eltikDownEff true) rfl (eltikDownEff_few h0 h1)
  · intro s l h
    exact gives_eff retrainEff rfl (by rw [retrainEff_eq, if_neg (by simp [h])])
  · intro s l h
    exact gives_eff retrainEff rfl (by rw [retrainEff_eq, if_pos h])
  · intro s h
    refine givesThat_eff trainCompleteEff rfl ?_
    rw [trainCompleteEff_trains h]
    obtain ⟨hmem, helk⟩ := s.dev.linkUpBoth.trained_frame s.dev.elk.wasDown
    obtain ⟨h0, h1⟩ := s.dev.linkUpBoth_up
    refine ⟨?_, ?_, by rw [helk, Device.linkUpBoth, Device.updElk_elk], untouched_of (fun a ha => ?_) (hmem.trans s.dev.linkUpBoth_mem) (by decide)⟩
    · exact beq_iff_eq.2 ((Device.rd_of_word (Device.trained_word _ _ (by decide) (by decide))).trans h0)
    · exact beq_iff_eq.2 ((Device.rd_of_word (Device.trained_word _ _ (by decide) (by decide))).trans h1)
    · simp only [List.mem_cons, List.not_mem_nil, or_false, not_or] at ha
      obtain ⟨h0, h1, hdx, hlog⟩ := ha
      rw [Device.trained_word _ _ hdx hlog, Device.linkUpBoth, Device.word_updElk, Device.word_wr_other _ _ _ h1, Device.word_wr_other _ _ _ h0]
  · intro s h
    exact gives_eff retrainTimeoutEff rfl (retrainTimeoutEff_training h)
  · intro s l b h
    exact ⟨gives_eff (paWriteFrameEff l b) rfl (paWriteFrameEff_none h), gives_eff (paReadFrameEff l b) rfl (paReadFrameEff_none h)⟩
  · intro s l b k f fs hf hr hk hd hag hkey hb hen hlink
    refine givesThat_eff (paWriteFrameEff l b) rfl ?_
    rw [paWriteFrameEff_logical hf hr hk hd ⟨hen, hlink⟩, if_neg (by simp [hkey, hb]), if_neg (by simp [hag])]
    obtain ⟨hout, hfr, hregs, hmem⟩ := s.dev.frameSent_frame (f := f) (fs := fs) (k := k) l
    refine ⟨?_, ?_, untouched_of_regs ?_ ?_⟩
    · rw [Device.updWr_out, hout]
    · rw [Device.updWr_same, hfr]
    · rw [Device.updWr_regs, hregs]
    · rw [Device.updWr_mem, hmem]
  · intro s l b k f fs hf hr hk hd hkey hen hlink
    exact gives_eff (paWriteFrameEff l b) rfl ((paWriteFrameEff_logical hf hr hk hd ⟨hen, hlink⟩).trans (if_pos (by simp [hkey])))
  · intro s l v f fs hf hr hd ha hen hlink
    refine givesThat_eff (paReadFrameEff l v) rfl ?_
    rw [paReadFrameEff_direct hf hr hd ha ⟨hen, hlink⟩]
    obtain ⟨hdata, hgo⟩ := s.dev.readSent_fields (f := f) (fs := fs) l v
    refine ⟨?_, ?_, hdata, hgo, untouched_of (fun a h => s.dev.readSent_word l v (List.ne_of_not_mem_cons h)) ?_ (by cases l <;> decide)⟩
    · rw [Device.readSent, Device.wr_out, Device.wr_out, Device.emit, Device.updWr_out]
    · rw [Device.readSent, Device.wrp_wr, Device.wrp_wr, Device.wrp_emit, Device.updWr_same]
    · rw [Device.readSent, Device.wr_mem, Device.wr_mem, Device.emit_mem, Device.updWr_mem]
  · intro s l v hen hlink
    exact gives_eff (paFaultPollEff l v) rfl (paFaultPollEff_up ⟨hen, hlink⟩)
  · intro s l v hen hlink hv hn
    exact gives_eff (paLinkRetryEff l v) rfl (by rw [paLinkRetryEff_good hen hlink hv, if_pos (by rw [hn]; decide), hn, Device.retried])
  · intro s l v hen hlink hv hn
    exact gives_eff (paLinkRetryEff l v) rfl ((paLinkRetryEff_good hen hlink hv).trans (if_neg (by rw [hn]; decide)))
  · intro s l hr hh
    refine givesThat_eff (paEnEff l true) rfl ?_
    rw [paEnEff_enables hr hh]
    obtain ⟨he, hl, hrf⟩ := s.dev.bridgeEnabled_fields l
    exact ⟨he, hl, hrf, untouched_of (fun a ha => s.dev.bridgeEnabled_word l ha) (s.dev.bridgeEnabled_mem l) (by cases l <;> decide)⟩
  · intro s l hr
    exact gives_eff (paEnEff l true) rfl (paEnEff_refuses hr)
  · intro s l rd_ a v hen hw
    refine givesThat_eff (paCmdEff l rd_ a v) rfl ?_
    rw [paCmdEff_eq, if_neg (by simp [hen, hw])]
    obtain ⟨hgo, hrf⟩ := (s.dev.cmdAsked l rd_ a v).cmdQueued_fields l { read := rd_, addr := a % 128, data := v % 65536, reg := none, direct := true }
    refine ⟨?_, hgo, hrf, untouched_of (fun x hx => ?_) (by rw [Device.cmdQueued_mem, Device.cmdAsked_mem]) (by cases l <;> decide)⟩
    · rw [Device.cmdQueued_frames]
      simp only [Device.wrp, Device.cmdAsked_lane]
    · have hne := List.ne_of_not_mem_cons hx
      rw [Device.cmdQueued_word _ _ _ hne, Device.cmdAsked_word _ _ _ _ _ hne]
  · intro s l rd_ a v h
    refine givesThat_eff (paCmdEff l rd_ a v) rfl ?_
    rw [paCmdEff_eq, if_pos (by rcases h with h | h <;> simp [h])]
    refine ⟨?_, ?_, untouched_of (fun x hx => ?_) (by rw [Device.wr_mem, Device.cmdAsked_mem]) (by cases l <;> decide)⟩
    · rw [Device.wrp_wr]
      simp only [Device.wrp, Device.cmdAsked_lane]
    · rw [Device.rd_wr_same _ _ (by cases l <;> decide)]
      rfl
    · have hne := List.ne_of_not_mem_cons hx
      rw [Device.word_wr_other _ _ _ hne, Device.cmdAsked_word _ _ _ _ _ hne]

end

section
/-!
Adaptation and write calibration: loads and their entries, the sector boundary, the counts, the drift entry (R190 to R194, R215 to R220, R231, R232).
-/
namespace Sys2Proof.Machine

variable {d : Device} {l : Lane} {h z : Nat}

/-! ### Tables in memory -/

theorem Device.memNum_frame {e : Device} (hr : e.regs = d.regs) (hm : e.mem = d.mem) (n a : Nat) : e.memNum n a = d.memNum n a :=
  Device.memNum_congr fun _ _ => Device.memByte_congr hm (Device.poolPages_congr hr) _

theorem Device.tableAddr_congr {e : Device} (hr : e.regs = d.regs) (b : RF) (h z n : Nat) : e.tableAddr b h z n = d.tableAddr b h z n := by
  simp only [Device.tableAddr, Device.rd_congr hr]

theorem Device.memOpen_congr {e : Device} (hr : e.regs = d.regs) (a : Nat) : e.memOpen a = d.memOpen a := by
  have hvisible : e.dramVisible = d.dramVisible := by
    unfold Device.dramVisible
    rw [Device.rd_congr hr]
  unfold Device.memOpen Device.dramOpen Device.inDram Device.dramRegion
  rw [hvisible, Device.bit_congr hr, Device.bit_congr hr, Device.rd_congr hr]

theorem Device.entryReadable_congr {e : Device} (hr : e.regs = d.regs) (hm : e.mem = d.mem) (a n : Nat) :
    e.entryReadable a n = d.entryReadable a n := by
  simp only [Device.entryReadable, Device.memOpen_congr hr, Device.anyDead, hm]

/-! ### Loading an adaptation entry -/

theorem hzselLoadEff_ignored (hi : d.loadIgnored l = true) : hzselLoadEff l h z d = d := if_pos hi

theorem Device.recheckGate_closed (hg : d.gateOpen l = false) : d.recheckGate l = d := by
  have hnone : (d.wrp l).gate = none := by simpa [Device.gateOpen] using hg
  rw [Device.recheckGate]
  split
  · rfl
  · simp only [Device.cutGate, hnone]

/-- The head and zone asked of a lane's channel. -/
def Device.headZoneAsked (d : Device) (l : Lane) (h z : Nat) : Device := (d.wr (HZSEL_HEAD l) (h % 16)).wr (HZSEL_ZONE l) (z % 64)

theorem Device.headZoneAsked_lane (d : Device) (l : Lane) (h z : Nat) (m : Lane) : (d.headZoneAsked l h z).lane m = d.lane m := by
  rw [Device.headZoneAsked, Device.lane_wr, Device.lane_wr]

theorem Device.headZoneAsked_word (d : Device) (l : Lane) (h z : Nat) {a : Nat} (ha : a ≠ HZSEL l) : (d.headZoneAsked l h z).word a = d.word a := by
  rw [Device.headZoneAsked, Device.word_wr_other _ _ _ ha, Device.word_wr_other _ _ _ ha]

theorem Device.headZoneAsked_shows (d : Device) (l : Lane) (h z : Nat) :
    (d.headZoneAsked l h z).rd (HZSEL_HEAD l) = h % 16 ∧ (d.headZoneAsked l h z).rd (HZSEL_ZONE l) = z % 64 := by
  unfold Device.headZoneAsked
  cases l <;> simp (disch := decide) only [Device.rd_wr_bits, Device.rd_wr_same] <;> exact ⟨Nat.mod_mod _ _, Nat.mod_mod _ _⟩

theorem Device.capturing_headZoneAsked (d : Device) (l : Lane) (h z : Nat) : (d.headZoneAsked l h z).capturing l = d.capturing l := by
  have hdup : (d.headZoneAsked l h z).duplex = d.duplex := by
    rw [Device.duplex, Device.bit, Device.rd_of_word (d.headZoneAsked_word l h z (by cases l <;> decide))]
    rfl
  simp only [Device.capturing, Device.stream, hdup, Device.ch, Device.headZoneAsked_lane]

theorem hzselLoadEff_takes (hi : d.loadIgnored l = false) (hc : d.capturing l = false) (hg : d.gateOpen l = false) :
    hzselLoadEff l h z d = (d.headZoneAsked l h z).updCh l fun c => { c with load := some (h % 16, z % 64) } := by
  have hg' : (d.headZoneAsked l h z).gateOpen l = false := by
    rw [← hg]
    simp only [Device.gateOpen, Device.wrp, Device.headZoneAsked_lane]
  have hc' := (d.capturing_headZoneAsked l h z).trans hc
  rw [hzselLoadEff, if_neg (by simp [hi])]
  dsimp only
  rw [← Device.headZoneAsked, Device.recheckGate_closed hg', if_neg (by simp [hc'])]

theorem entryFetchedEff_none (hl : (d.ch l).load = none) : entryFetchedEff l d = d := by
  simp only [entryFetchedEff, hl]

/-- What the check of a lane's adaptation entry says. -/
def Device.entryVerdict (d : Device) (l : Lane) (h z : Nat) : Nat :=
  if d.entryReadable (d.tableAddr (ADT_BASE_ADDR l) h z 128) 128 then chEntryCheck (d.memNum 128 (d.tableAddr (ADT_BASE_ADDR l) h z 128)) h z else 1

theorem entryFetchedEff_ln1 (hl : (d.ch .ln1).load = some (h, z)) :
    entryFetchedEff .ln1 d =
      let d' := d.updCh .ln1 fun c => { c with load := none }
      if d.entryVerdict .ln1 h z = 0 then
        (d'.flushCounts .ln1 false).applyChEntry .ln1 (d.memNum 128 (d.tableAddr (ADT_BASE_ADDR .ln1) h z 128)) h z
      else d'.rejectLoad .ln1 h z (d.entryVerdict .ln1 h z) := by
  have hr := d.updCh_regs .ln1 fun c => { c with load := none }
  have hm := d.updCh_mem .ln1 fun c => { c with load := none }
  simp only [entryFetchedEff, hl, Device.tableAddr_congr hr, Device.entryReadable_congr hr hm, Device.memNum_frame hr hm]
  exact if_neg (by simp)

/-! ### The sector boundary -/

theorem boundaryEff_capturing (hc : d.capturing l = true) : boundaryEff l d = d := if_pos hc

/-- What was kept back for the boundary, taken off. -/
def Device.boundaryTaken (d : Device) (l : Lane) : Device :=
  d.updCh l fun c => { c with deferred := [], load := (d.ch l).load <|> (d.ch l).loadHeld, loadHeld := none }

/-- The writes kept back. -/
def Device.deferredSet (d : Device) (l : Lane) (ps : List (Nat × Word)) : Device := ps.foldl (fun d p => d.setChReg l p.1 p.2) d

theorem boundaryEff_ln1 (hc : d.capturing .ln1 = false) :
    boundaryEff .ln1 d = ((d.boundaryTaken .ln1).deferredSet .ln1 (d.ch .ln1).deferred).wr (ADC_STATUS_CAL .ln1) 0 := by
  rw [boundaryEff, if_neg (by simp [hc])]
  exact if_neg (by simp)

theorem Device.setChReg_lane (d : Device) (l : Lane) (a : Nat) (w : Word) (m : Lane) : (d.setChReg l a w).lane m = d.lane m := by
  unfold Device.setChReg
  dsimp only
  split
  · rw [Device.lane_log, Device.lane_setWord]
  · exact Device.lane_setWord _ _ _ _

theorem Device.deferredSet_lane (d : Device) (l : Lane) (ps : List (Nat × Word)) (m : Lane) : (d.deferredSet l ps).lane m = d.lane m :=
  List.foldlRecOn (motive := fun e : Device => e.lane m = d.lane m) ps _ rfl fun e he _ _ => (e.setChReg_lane l _ _ m).trans he

/-! ### Steps of the converter's corrections -/

theorem toSigned_lt (v : Nat) (hv : v < 1024) : -512 ≤ toSigned 10 v ∧ toSigned 10 v ≤ 511 := by
  unfold toSigned
  split <;> omega

theorem toSigned_ofSigned {v : Int} (hlo : -512 ≤ v) (hhi : v ≤ 511) : toSigned 10 (ofSigned 10 v % 2 ^ 10) = v := by
  unfold toSigned ofSigned
  split <;> omega

/-- One step from a value toward another. -/
def towards (c t : Int) : Int := if c < t then 1 else if t < c then -1 else 0

theorem Device.stepToward_eq (d : Device) (cur tgt : RF) :
    d.stepToward cur tgt = if d.rdI cur = d.rdI tgt then d else d.wrI cur (d.rdI cur + towards (d.rdI cur) (d.rdI tgt)) := by
  unfold Device.stepToward towards
  dsimp only
  split_ifs with h1 h2 h3 h4
  · omega
  · rfl
  · omega
  · rfl
  · rfl
  · omega

theorem Device.rd_stepToward_other (d : Device) (cur tgt : RF) {g : RF} (hg : g.lo + g.n ≤ cur.lo ∨ cur.lo + cur.n ≤ g.lo) :
    (d.stepToward cur tgt).rd g = d.rd g := by
  rw [Device.stepToward_eq]
  split
  · rfl
  · exact Device.rd_wr_bits _ _ hg

theorem Device.word_stepToward (d : Device) (cur tgt : RF) {a : Nat} (ha : a ≠ cur.reg) : (d.stepToward cur tgt).word a = d.word a := by
  rw [Device.stepToward_eq]
  split
  · rfl
  · exact Device.word_wr_other _ _ _ ha

theorem Device.stepToward_mem (d : Device) (cur tgt : RF) : (d.stepToward cur tgt).mem = d.mem := by
  rw [Device.stepToward_eq]
  split
  · rfl
  · exact Device.wrI_mem _ _ _

theorem Device.rd_lt (d : Device) (f : RF) : d.rd f < 2 ^ f.n := Nat.mod_lt _ (Nat.two_pow_pos _)

/-- A signed value of ten bits steps by one toward another: it stays in its range, so it reads back as it is. -/
theorem Device.rdI_stepToward (d : Device) {cur tgt : RF} (hc : cur.n = 10) (ht : tgt.n = 10) (hlo : cur.lo + cur.n ≤ 32) :
    (d.stepToward cur tgt).rdI cur = d.rdI cur + towards (d.rdI cur) (d.rdI tgt) := by
  have hcv := toSigned_lt (d.rd cur) ((d.rd_lt cur).trans_eq (by rw [hc]; rfl))
  have htv := toSigned_lt (d.rd tgt) ((d.rd_lt tgt).trans_eq (by rw [ht]; rfl))
  have hcr : d.rdI cur = toSigned 10 (d.rd cur) := by rw [Device.rdI, hc]
  have htr : d.rdI tgt = toSigned 10 (d.rd tgt) := by rw [Device.rdI, ht]
  rw [Device.stepToward_eq]
  split
  next heq => rw [heq, towards, if_neg (by omega), if_neg (by omega), Int.add_zero]
  next hne =>
    rw [Device.wrI, Device.rdI, Device.rd_wr_same _ _ hlo, hc]
    refine toSigned_ofSigned ?_ ?_
    · unfold towards; split_ifs <;> omega
    · unfold towards; split_ifs <;> omega

theorem clampI_one (v : Int) : (clampI (-1) 1 v).natAbs ≤ 1 := by
  unfold clampI
  split_ifs <;> omega

/-! ### The counts -/

/-- One count added to memory. -/
def Device.countAdded (d : Device) (a n : Nat) : Device := Device.setNum 4 a (min (d.memNum 4 a + n) 0xFFFFFFFF) d

theorem Device.flushCounts_one {w n : Nat} (hc : (d.ch .ln1).cnt = [(w, n)])
    (ho : d.memOpen (d.tableAddr (CNT_BASE_ADDR .ln1) (d.ch .ln1).hz.1 (d.ch .ln1).hz.2 64) = true) :
    d.flushCounts .ln1 false =
      (d.countAdded (d.tableAddr (CNT_BASE_ADDR .ln1) (d.ch .ln1).hz.1 (d.ch .ln1).hz.2 64 + 4 * w) n).updCh .ln1 fun c => { c with cnt := [] } := by
  have hadd : d.addCounts .ln1 (d.tableAddr (CNT_BASE_ADDR .ln1) (d.ch .ln1).hz.1 (d.ch .ln1).hz.2 64) (d.ch .ln1).cnt false =
      d.countAdded (d.tableAddr (CNT_BASE_ADDR .ln1) (d.ch .ln1).hz.1 (d.ch .ln1).hz.2 64 + 4 * w) n := by
    rw [Device.addCounts, hc, if_neg (by simp), if_neg (by simp [ho])]
    rfl
  rw [Device.flushCounts]
  rw [hadd]
  exact if_neg (by simp)

theorem Device.memNum_setNum (n a v : Nat) (d : Device) : (Device.setNum n a v d).memNum n a = v % 256 ^ n :=
  Device.memNum_of_bytes fun k hk => by rw [Device.memByte_setNum, if_pos (by omega), Nat.add_sub_cancel_left]

/-! ### Write entries -/

theorem wEntryEff_none (hl : (d.wrp l).load = none) : wEntryEff l d = d := by
  simp only [wEntryEff, hl]

theorem wEntryEff_good (hl : (d.wrp l).load = some (h, z)) (hr : d.entryReadable (d.wEntryAddr l h z) 64 = true)
    (hq : d.entryReadable (d.driftAddr l h) 16 = true) (hv : wEntryCheck (d.memNum 64 (d.wEntryAddr l h z)) h z = 0)
    (hx : driftCheck (d.memNum 16 (d.driftAddr l h)) h = 0) :
    wEntryEff l d = (d.updWr l fun w => { w with load := none }).applyWEntry l
      (wEntryOf (d.memNum 64 (d.wEntryAddr l h z)) (d.memNum 16 (d.driftAddr l h))) := by
  have hregs := d.updWr_regs l fun w => { w with load := none }
  have hmem := d.updWr_mem l fun w => { w with load := none }
  have ha : (d.updWr l fun w => { w with load := none }).wEntryAddr l h z = d.wEntryAddr l h z := Device.tableAddr_congr hregs _ _ _ _
  have hb : (d.updWr l fun w => { w with load := none }).driftAddr l h = d.driftAddr l h := by simp only [Device.driftAddr, Device.rd_congr hregs]
  simp only [wEntryEff, hl, ha, hb, Device.entryReadable_congr hregs hmem, Device.memNum_frame hregs hmem, hr, hq, hv, hx, if_true, and_self]

/-- A write entry's load given up. -/
def Device.loadBad (d : Device) (l : Lane) (ps : List Nat) : Device :=
  ((d.updWr l fun w => { w with load := none }).wrAll [(WSEL_LOADED l, 0), (WSEL_BAD l, 1), (WR_INT_TBL_BAD l, 1)]).log l.src 0x2807 ps

theorem wEntryEff_bad (hl : (d.wrp l).load = some (h, z)) (hr : d.entryReadable (d.wEntryAddr l h z) 64 = false) :
    ∃ ps, wEntryEff l d = d.loadBad l ps := by
  have hregs := d.updWr_regs l fun w => { w with load := none }
  have hmem := d.updWr_mem l fun w => { w with load := none }
  have ha : (d.updWr l fun w => { w with load := none }).wEntryAddr l h z = d.wEntryAddr l h z := Device.tableAddr_congr hregs _ _ _ _
  simp only [wEntryEff, hl, ha, Device.entryReadable_congr hregs hmem, hr, Bool.false_eq_true, if_false]
  exact ⟨_, if_neg (by simp)⟩

theorem Device.loadBad_shows (d : Device) (l : Lane) (ps : List Nat) :
    (d.loadBad l ps).rd (WSEL_BAD l) = 1 ∧ (d.loadBad l ps).rd (WSEL_LOADED l) = 0 ∧ (d.loadBad l ps).rd (WR_INT_TBL_BAD l) = 1 := by
  simp only [Device.loadBad, Device.wrAll, List.foldl_cons, List.foldl_nil]
  cases l <;> simp (disch := decide) only [Device.rd_log, Device.rd_wr_reg, Device.rd_wr_bits, Device.rd_wr_same] <;> exact ⟨rfl, rfl, rfl⟩

theorem Device.loadBad_word (d : Device) (l : Lane) (ps : List Nat) {a : Nat} (ha : a ∉ [WSEL l, WR_INT l, RG_LOGSTAT]) :
    (d.loadBad l ps).word a = d.word a := by
  simp only [List.mem_cons, List.not_mem_nil, or_false, not_or] at ha
  obtain ⟨hsel, hint, hlog⟩ := ha
  rw [Device.loadBad, Device.log_word _ _ _ _ hlog, Device.word_wrAll _ _ (by simp [hsel, hint, WSEL_LOADED, WSEL_BAD, WR_INT_TBL_BAD]),
    Device.word_updWr]

theorem Device.loadBad_mem (d : Device) (l : Lane) (ps : List Nat) : (d.loadBad l ps).mem = d.mem := by
  rw [Device.loadBad, Device.log_mem, Device.wrAll_mem, Device.updWr_mem]

theorem Device.loadBad_entry (d : Device) (l : Lane) (ps : List Nat) : ((d.loadBad l ps).wrp l).entry = (d.wrp l).entry := by
  rw [Device.loadBad, Device.wrp, Device.lane_log, Device.lane_wrAll, ← Device.wrp, Device.updWr_same]

theorem wselLoadEff_closed (hg : d.gateOpen l = false) :
    wselLoadEff l h z d =
      ((d.wr (WSEL_HEAD l) (h % 16)).wr (WSEL_ZONE l) (z % 64)).updWr l fun w => { w with load := some (h % 16, z % 64) } := by
  have hg' : ((d.wr (WSEL_HEAD l) (h % 16)).wr (WSEL_ZONE l) (z % 64)).gateOpen l = false := by
    rw [Device.gateOpen, Device.wrp_wr, Device.wrp_wr]
    exact hg
  exact if_neg (by simp [hg'])

theorem wselLoadEff_open (hg : d.gateOpen l = true) :
    wselLoadEff l h z d =
      ((d.wr (WSEL_HEAD l) (h % 16)).wr (WSEL_ZONE l) (z % 64)).updWr l fun w => { w with loadHeld := some (h % 16, z % 64) } := by
  have hg' : ((d.wr (WSEL_HEAD l) (h % 16)).wr (WSEL_ZONE l) (z % 64)).gateOpen l = true := by
    rw [Device.gateOpen, Device.wrp_wr, Device.wrp_wr]
    exact hg
  exact if_pos hg'

/-! ### The neighbour check -/

variable {b : Nat} {weak lost : List Nat} {full : Bool}

theorem neighbourEff_unasked (hn : (d.wrp l).neighbour = false) : neighbourEff l b weak lost full d = d := if_pos (by simp [hn])

theorem neighbourEff_clean {x : Band} (hn : (d.wrp l).neighbour = true) (hb : d.host.tables.band b = some x) :
    neighbourEff l b [] [] full d = (d.updWr l fun w => { w with neighbour := false, checked := (0, 0) }).log l.src 0x280E [0, 0] := by
  rw [neighbourEff, if_neg (by simp [hn])]
  simp only [hb, List.filter_nil, List.filterMap_nil, List.foldl_nil, lostRuns, List.length_nil, ite_self]

/-! ### Write calibration -/

theorem writeCalEff_none {m : List Nat} (hg : d.calGrantOf l = none) : writeCalEff l m d = d := by
  simp only [writeCalEff, hg]

/-- The drift a calibration finds. -/
def Device.newDrift (d : Device) (l : Lane) (h : Nat) (m : List Nat) : Int :=
  toSigned 16 (entryField (d.memNum 16 (d.driftAddr l h)) 2 2) + calPick m

theorem writeCalEff_drift {t : Nat} {m : List Nat} (hg : d.calGrantOf l = some (3, h, t)) (hm : m.length = 5) :
    ∃ rate poh ps, writeCalEff l m d =
      (Device.setNum 16 (d.driftAddr l h) (driftBytes h (d.newDrift l h m) rate poh) d).log l.src 0x280C ps := by
  simp only [writeCalEff, hg]
  rw [if_neg (by simp [hm]), if_pos trivial]
  exact ⟨_, _, _, rfl⟩

theorem ofSigned_lt (n : Nat) (v : Int) : ofSigned n v < 2 ^ n := by
  have hpos : (0 : Int) < 2 ^ n := by positivity
  have hnn := Int.emod_nonneg v hpos.ne'
  have hlt := Int.emod_lt_of_pos v hpos
  have hcast : ((2 ^ n : Nat) : Int) = 2 ^ n := by push_cast; rfl
  unfold ofSigned
  omega

theorem entryField_driftBytes (hh : h < 16) (drift rate : Int) (poh : Nat) :
    entryField (driftBytes h drift rate poh % 256 ^ 16) 2 2 = ofSigned 16 drift := by
  have hd := ofSigned_lt 16 drift
  have hr := ofSigned_lt 16 rate
  rw [entryField, bitsOf, Nat.shiftRight_eq_div_pow, driftBytes]
  generalize crc32cNum 0xC _ = crc
  omega

theorem Device.memByte_log (d : Device) (src code : Nat) (ps : List Nat) (c : Nat) : (d.log src code ps).memByte c = d.memByte c :=
  (untouched_of (rs := [RG_LOGSTAT]) (fun _ h => d.log_word src code ps (List.ne_of_not_mem_cons h)) (d.log_mem src code ps) (by decide)).2 c

end Sys2Proof.Machine

open Sys2Proof Sys2Proof.Machine

/-- Settles O38: a load by its lane's capture and gate, an entry by its check, one step of a correction within its ten bits, a calibration by its bytes. -/
theorem adaptationAndWriteCalibration : Obligations.AdaptationAndWriteCalibration := by
  refine ⟨?_, ?_, ?_, ?_, ?_, ?_, ?_, ?_, ?_, ?_, ?_, ?_, ?_, ?_, ?_, ?_, ?_, ?_, ?_, ?_⟩
  · intro s l h z hi
    exact gives_eff (hzselLoadEff l h z) rfl (hzselLoadEff_ignored hi)
  · intro s l h z hi hc hg
    refine givesThat_eff (hzselLoadEff l h z) rfl ?_
    rw [hzselLoadEff_takes hi hc hg]
    obtain ⟨hh, hz⟩ := s.dev.headZoneAsked_shows l h z
    refine ⟨by rw [Device.updCh_same], (Device.rd_updCh _ _ _ _).trans hh, (Device.rd_updCh _ _ _ _).trans hz, untouched_of (fun a ha => ?_) ?_ ?_⟩
    · rw [Device.word_updCh, Device.headZoneAsked_word _ _ _ _ (List.ne_of_not_mem_cons ha)]
    · rw [Device.updCh_mem, Device.headZoneAsked, Device.wr_mem, Device.wr_mem]
    · cases l <;> decide
  · intro s l hl
    exact gives_eff (entryFetchedEff l) rfl (entryFetchedEff_none hl)
  · intro s h z hl hr hv
    have hok : s.dev.entryVerdict .ln1 h z = 0 := (if_pos hr).trans hv
    exact gives_eff (entryFetchedEff .ln1) rfl ((entryFetchedEff_ln1 hl).trans (if_pos hok))
  · intro s h z hl hr
    have hbad : s.dev.entryVerdict .ln1 h z = 1 := if_neg (by simp [hr])
    refine gives_eff (entryFetchedEff .ln1) rfl ((entryFetchedEff_ln1 hl).trans ?_)
    dsimp only
    rw [hbad, if_neg (by decide)]
  · intro s l hc
    exact gives_eff (boundaryEff l) rfl (boundaryEff_capturing hc)
  · intro s hc
    refine givesThat_eff (boundaryEff .ln1) rfl ?_
    rw [boundaryEff_ln1 hc]
    have hch : (((s.dev.boundaryTaken .ln1).deferredSet .ln1 (s.dev.ch .ln1).deferred).wr (ADC_STATUS_CAL .ln1) 0).ch .ln1 =
        (s.dev.boundaryTaken .ln1).ch .ln1 := by
      rw [Device.ch, Device.lane_wr, Device.deferredSet_lane, ← Device.ch]
    rw [hch, Device.boundaryTaken, Device.updCh_same]
    refine ⟨rfl, rfl, Device.rd_wr_same _ _ (by decide), fun hnil => ?_⟩
    rw [hnil]
    refine untouched_of (fun a ha => ?_) (Device.wr_mem _ _ _) (by decide)
    rw [Device.word_wr_other _ _ _ (List.ne_of_not_mem_cons ha), Device.deferredSet, List.foldl_nil, Device.word_updCh]
  · intro s l
    refine givesThat_eff (offsetAsymEff l) rfl ?_
    unfold offsetAsymEff
    have hof : (AFE_ASYM_CUR l).reg ≠ (AFE_OFS_CUR l).reg := by cases l <;> decide
    have hft : ∀ (d : Device) (g : RF), g.reg ≠ (AFE_ASYM_CUR l).reg → (d.stepToward (AFE_ASYM_CUR l) (AFE_ASYM_TGT l)).rdI g = d.rdI g :=
      fun d g hg => by rw [Device.rdI, Device.rd_of_word (d.word_stepToward _ _ hg)]; rfl
    have hof' : ∀ (d : Device) (g : RF), g.reg ≠ (AFE_OFS_CUR l).reg → (d.stepToward (AFE_OFS_CUR l) (AFE_OFS_TGT l)).rdI g = d.rdI g :=
      fun d g hg => by rw [Device.rdI, Device.rd_of_word (d.word_stepToward _ _ hg)]; rfl
    refine ⟨?_, ?_, ?_, untouched_of (fun a ha => ?_) ?_ ?_⟩
    · rw [hft _ _ (by cases l <;> decide), Device.rdI_stepToward _ rfl rfl (by cases l <;> decide)]
      rfl
    · rw [Device.rdI_stepToward _ rfl rfl (by cases l <;> decide), hof' _ _ (by cases l <;> decide), hof' _ _ (by cases l <;> decide)]
      rfl
    · rw [hft _ _ (by cases l <;> decide), Device.rdI, Device.rd_stepToward_other _ _ _ (by cases l <;> decide)]
      rfl
    · simp only [List.mem_cons, List.not_mem_nil, or_false, not_or] at ha
      rw [Device.word_stepToward _ _ _ ha.2, Device.word_stepToward _ _ _ ha.1]
    · rw [Device.stepToward_mem, Device.stepToward_mem]
    · cases l <;> decide
  · intro s l b o p
    refine givesThat_eff (afeTempEff l b o p) rfl ?_
    rw [afeTempEff, Device.updCh_same]
    refine ⟨?_, ?_, ?_, rfl, untouched_of_regs (Device.updCh_regs _ _ _) (Device.updCh_mem _ _ _)⟩
    · rw [add_sub_cancel_left]
      exact clampI_one b
    · rw [add_sub_cancel_left]
      exact clampI_one o
    · rw [add_sub_cancel_left]
      exact clampI_one p
  · intro s w n hc ho
    refine givesThat_eff (fun d => d.flushCounts .ln1 false) rfl ?_
    dsimp only
    rw [Device.flushCounts_one hc ho]
    have hbyte : ∀ (e : Device) c, (e.updCh .ln1 fun c => { c with cnt := [] }).memByte c = e.memByte c := fun e c =>
      Device.memByte_congr (e.updCh_mem _ _) (Device.poolPages_congr (e.updCh_regs _ _)) c
    refine ⟨by rw [Device.updCh_same], ⟨?_, fun b hb => ?_⟩, fun a => ?_⟩
    · rw [Device.memNum_congr fun k _ => hbyte _ _, Device.countAdded, Device.memNum_setNum]
      exact Nat.mod_eq_of_lt (Nat.lt_of_le_of_lt (Nat.min_le_right _ _) (by decide))
    · rw [hbyte, Device.countAdded, Device.memByte_setNum, if_neg (by omega)]
    · rw [Device.word_updCh, Device.countAdded, Device.word_congr (Device.setNum_regs _ _ _ _)]
  · intro s l h z hg
    exact gives_eff (wselLoadEff l h z) rfl (wselLoadEff_closed hg)
  · intro s l h z hg
    exact gives_eff (wselLoadEff l h z) rfl (wselLoadEff_open hg)
  · intro s l h z hl hr hq hv hx
    exact gives_eff (wEntryEff l) rfl (wEntryEff_good hl hr hq hv hx)
  · intro s l h z hl hr
    refine givesThat_eff (wEntryEff l) rfl ?_
    obtain ⟨ps, hps⟩ := wEntryEff_bad hl hr
    rw [hps]
    obtain ⟨hb, hl', hi⟩ := s.dev.loadBad_shows l ps
    exact ⟨hb, hl', hi, s.dev.loadBad_entry l ps, untouched_of (fun a ha => s.dev.loadBad_word l ps ha) (s.dev.loadBad_mem l ps) (by cases l <;> decide)⟩
  · intro s l hs hp hf
    exact gives_eff (bridgeReadyEff l) rfl (if_pos (by simp [hs, hp, hf]))
  · intro s l hs
    exact gives_eff (bridgeReadyEff l) rfl (if_neg (by simp [hs]))
  · intro s l b w x f hn
    exact gives_eff (neighbourEff l b w x f) rfl (neighbourEff_unasked hn)
  · intro s l b f x hn hb
    exact gives_eff (neighbourEff l b [] [] f) rfl (neighbourEff_clean hn hb)
  · intro s l m hg
    exact gives_eff (writeCalEff l m) rfl (writeCalEff_none hg)
  · intro s l h t m hg hh hm
    refine givesThat_eff (writeCalEff l m) rfl ?_
    obtain ⟨rate, poh, ps, heq⟩ := writeCalEff_drift hg hm
    rw [heq]
    refine ⟨fun b hb => ?_, ?_, fun a ha => ?_⟩
    · rw [Device.memByte_log, Device.memByte_setNum, if_neg (by omega)]
    · rw [Device.memNum_congr fun k _ => Device.memByte_log _ _ _ _ _, Device.memNum_setNum, entryField_driftBytes hh]
      rfl
    · rw [Device.log_word _ _ _ _ ha, Device.word_congr (Device.setNum_regs _ _ _ _)]

end

section
/-!
The balance engine's instructions: what a step of the sample does, its destination, its overflow flag (R247 to R250, R253).
-/
namespace Sys2Proof.Machine

variable {d : Device} {e : BEng} {r : BeRun}

/-! ### An engine through the state's operations -/

theorem Device.be_wr (d : Device) (f : RF) (v : Nat) (e : BEng) : (d.wr f v).be e = d.be e := by
  cases e with
  | lane l => rw [Device.be, Device.lane_wr, ← Device.be]
  | spindle => rw [Device.be, Device.wr_spin, ← Device.be]

theorem Device.logRate_spin (d : Device) (src code scope : Nat) (ps : List Nat) : (d.logRate src code scope ps).spin = d.spin := by
  obtain ⟨n, l, he | he⟩ := d.logRate_cases src code scope ps
  · rw [he]
    exact Device.logRaw_spin _ _ _ _ _ _
  · rw [he]

theorem Device.be_logRate (d : Device) (src code scope : Nat) (ps : List Nat) (e : BEng) : (d.logRate src code scope ps).be e = d.be e := by
  cases e with
  | lane l => rw [Device.be, Device.lane_logRate, ← Device.be]
  | spindle => rw [Device.be, Device.logRate_spin, ← Device.be]

theorem Device.memByte_of_word {a : Device} (hm : a.mem = d.mem) (hp : a.word CB_SRAMPART = d.word CB_SRAMPART) (b : Nat) :
    a.memByte b = d.memByte b :=
  Device.memByte_congr hm (by simp only [Device.poolPages, Device.rd_of_word (f := CB_SRAMPART_BANKS) hp]) b

/-! ### Addresses of an engine's registers -/

theorem BEng.base_cases (e : BEng) : e.base = 0xF0100000 ∨ e.base = 0xF0200000 ∨ e.base = 0xF0400000 := by
  cases e with
  | lane l => cases l <;> decide
  | spindle => decide

/-- The registers a flag of a word shows in. -/
def beFlagRegs (e : BEng) (pc : Nat) : List Nat := [BE_OVF e (pc / 32), BE_STATUS e, BE_INT e, RG_LOGSTAT]

theorem be_s_notMem_flagRegs {pc j : Nat} (hj : j < 32) (h : pc < 1024) : BE_S e j ∉ beFlagRegs e pc := by
  have hb := e.base_cases
  simp only [beFlagRegs, List.mem_cons, List.not_mem_nil, or_false, not_or, BE_S, BE_OVF, BE_STATUS, BE_INT, RG_LOGSTAT]
  omega

theorem sramPart_notMem_flagRegs {pc : Nat} (h : pc < 1024) : CB_SRAMPART ∉ beFlagRegs e pc := by
  have hb := e.base_cases
  simp only [beFlagRegs, List.mem_cons, List.not_mem_nil, or_false, not_or, CB_SRAMPART, BE_OVF, BE_STATUS, BE_INT, RG_LOGSTAT]
  omega

theorem sramPart_ne_s {j : Nat} (h : j < 32) : CB_SRAMPART ≠ BE_S e j := by
  have hb := e.base_cases
  simp only [BE_S, CB_SRAMPART]
  omega

theorem be_s_ne {i j : Nat} (h : j ≠ i) : BE_S e j ≠ BE_S e i := by
  simp only [BE_S]
  omega

/-! ### The overflow flag -/

theorem Device.beFlag_quiet (d : Device) (e : BEng) (r : BeRun) : d.beFlag e r false = d := rfl

/-- The flag's two registers. -/
def Device.flagSet (d : Device) (e : BEng) (r : BeRun) : Device :=
  (d.wr ⟨BE_OVF e (r.pc / 32), r.pc % 32, 1⟩ 1).wr ⟨BE_STATUS e, 24 + r.slot, 1⟩ 1

theorem Device.beFlag_cases (d : Device) (e : BEng) (r : BeRun) (sat : Bool) :
    d.beFlag e r sat = d ∨ d.beFlag e r sat = d.flagSet e r ∨
      d.beFlag e r sat = ((d.flagSet e r).wr (BE_INT_OVF e) 1).logRate e.src 0x300E e.idx [r.slot, r.pc] := by
  unfold Device.beFlag
  extract_lets f new d'
  split_ifs
  · exact .inl rfl
  · exact .inr (.inr rfl)
  · exact .inr (.inl rfl)

theorem Device.beFlag_be (d : Device) (e : BEng) (r : BeRun) (sat : Bool) : (d.beFlag e r sat).be e = d.be e := by
  obtain h | h | h := d.beFlag_cases e r sat
  · rw [h]
  · rw [h, Device.flagSet, Device.be_wr, Device.be_wr]
  · rw [h, Device.be_logRate, Device.be_wr, Device.flagSet, Device.be_wr, Device.be_wr]

theorem Device.beFlag_mem (d : Device) (e : BEng) (r : BeRun) (sat : Bool) : (d.beFlag e r sat).mem = d.mem := by
  obtain h | h | h := d.beFlag_cases e r sat
  · rw [h]
  · rw [h, Device.flagSet, Device.wr_mem, Device.wr_mem]
  · rw [h, Device.logRate_mem, Device.wr_mem, Device.flagSet, Device.wr_mem, Device.wr_mem]

theorem Device.beFlag_word (d : Device) (e : BEng) (r : BeRun) (sat : Bool) {a : Nat} (ha : a ∉ beFlagRegs e r.pc) :
    (d.beFlag e r sat).word a = d.word a := by
  simp only [beFlagRegs, List.mem_cons, List.not_mem_nil, or_false, not_or] at ha
  obtain ⟨hovf, hst, hint, hlog⟩ := ha
  have hset : (d.flagSet e r).word a = d.word a := by
    rw [Device.flagSet, Device.word_wr_other _ _ _ hst, Device.word_wr_other _ _ _ hovf]
  obtain h | h | h := d.beFlag_cases e r sat
  · rw [h]
  · rw [h, hset]
  · rw [h, Device.logRate_word _ _ _ _ _ hlog, Device.word_wr_other _ _ _ hint, hset]

theorem Device.memByte_beFlag (d : Device) (e : BEng) (r : BeRun) (sat : Bool) (h : r.pc < 1024) (b : Nat) :
    (d.beFlag e r sat).memByte b = d.memByte b :=
  Device.memByte_of_word (d.beFlag_mem e r sat) (d.beFlag_word e r sat (sramPart_notMem_flagRegs h)) b

/-! ### Operands and destinations -/

theorem Device.beReg_congr {a : Device} (h : ∀ j < 32, a.word (BE_S e j) = d.word (BE_S e j)) (r : BeRun) (i : Nat) :
    a.beReg e r i = d.beReg e r i := by
  unfold Device.beReg
  split_ifs with h1
  · rw [Device.rdI, Device.rd_of_word (f := BE_S_S e i) (h i h1)]
    rfl
  · rfl
  · rfl

theorem Device.beReg_of_t (d : Device) {r r' : BeRun} (h : r'.t = r.t) (i : Nat) : d.beReg e r' i = d.beReg e r i := by
  simp only [Device.beReg, h]

/-- The sample's run after its destination `i` took `v`. -/
def BeRun.stored (r : BeRun) (i : Nat) (v : Int) : BeRun := if 32 ≤ i ∧ i < 48 then { r with t := r.t.set (i - 32) v } else r

/-- Storing changes nothing of a run but its registers T. -/
theorem BeRun.stored_fields (r : BeRun) (i : Nat) (v : Int) :
    (r.stored i v).slot = r.slot ∧ (r.stored i v).pc = r.pc ∧ (r.stored i v).cycle = r.cycle ∧ (r.stored i v).a = r.a ∧ (r.stored i v).outs = r.outs := by
  unfold BeRun.stored
  split <;> exact ⟨rfl, rfl, rfl, rfl, rfl⟩

theorem Device.beSet_mem (d : Device) (e : BEng) (i : Nat) (v : Int) : (d.beSet e i v).mem = d.mem := by
  unfold Device.beSet
  split_ifs
  · exact Device.wrI_mem _ _ _
  · exact Device.updBe_mem _ _ _
  · rfl

theorem Device.beSet_word (d : Device) (e : BEng) {i a : Nat} (v : Int) (h : i < 32 → a ≠ BE_S e i) : (d.beSet e i v).word a = d.word a := by
  unfold Device.beSet
  split_ifs with h1
  · exact Device.word_wr_other _ _ _ (h h1)
  · exact Device.word_updBe _ _ _ _
  · rfl

theorem Device.memByte_beSet (d : Device) (e : BEng) (i : Nat) (v : Int) (b : Nat) : (d.beSet e i v).memByte b = d.memByte b :=
  Device.memByte_of_word (d.beSet_mem e i v) (d.beSet_word e v sramPart_ne_s) b

theorem Device.beSet_run (h : (d.be e).run = some r) (i : Nat) (v : Int) : ((d.beSet e i v).be e).run = some (r.stored i v) := by
  unfold Device.beSet BeRun.stored
  split_ifs with h1 h2 h3 h4
  · omega
  · rw [Device.wrI, Device.be_wr, h]
  · rw [Device.updBe_same, h]
    rfl
  · omega
  · omega
  · exact h

theorem toSigned_ofSigned_q {v : Int} (hlo : qMin ≤ v) (hhi : v ≤ qMax) : toSigned 32 (ofSigned 32 v % 2 ^ 32) = v := by
  unfold qMin at hlo
  unfold qMax at hhi
  unfold toSigned ofSigned
  split <;> omega

theorem Device.rdI_wrI_q (d : Device) {f : RF} {v : Int} (hn : f.n = 32) (hl : f.lo = 0) (hlo : qMin ≤ v) (hhi : v ≤ qMax) : (d.wrI f v).rdI f = v := by
  rw [Device.rdI, Device.wrI, Device.rd_wr_same _ _ (by omega), hn]
  exact toSigned_ofSigned_q hlo hhi

theorem Device.beReg_beSet_same {i : Nat} {v : Int} (hlen : r.t.length = 16) (hlo : qMin ≤ v) (hhi : v ≤ qMax) :
    (d.beSet e i v).beReg e (r.stored i v) i = if i < 48 then v else 0 := by
  by_cases h1 : i < 32
  · rw [Device.beReg, if_pos h1, Device.beSet, if_pos h1, if_pos (by omega)]
    exact Device.rdI_wrI_q d (f := BE_S_S e i) rfl rfl hlo hhi
  · rw [Device.beReg, if_neg h1]
    by_cases h2 : i < 48
    · rw [if_pos h2, if_pos h2, BeRun.stored, if_pos ⟨Nat.le_of_not_lt h1, h2⟩, List.getD_eq_getElem?_getD, List.getElem?_set_self (by omega)]
      rfl
    · rw [if_neg h2, if_neg h2]

theorem Device.beReg_beSet_other {i j : Nat} (v : Int) (h : j ≠ i) : (d.beSet e i v).beReg e (r.stored i v) j = d.beReg e r j := by
  have hs : ∀ k, k ≠ i → (d.beSet e i v).word (BE_S e k) = d.word (BE_S e k) := fun k hk => d.beSet_word e v fun _ => be_s_ne hk
  by_cases hj : j < 32
  · rw [Device.beReg, if_pos hj, Device.beReg, if_pos hj, Device.rdI, Device.rd_of_word (f := BE_S_S e j) (hs j h)]
    rfl
  · rw [Device.beReg, if_neg hj, Device.beReg, if_neg hj]
    unfold BeRun.stored
    split_ifs with h1 h2
    · rw [List.getD_eq_getElem?_getD, List.getElem?_set_ne (by omega), ← List.getD_eq_getElem?_getD]
    · rfl
    · rfl

/-! ### Results -/

theorem clampI_range {lo hi : Int} (x : Int) (h : lo ≤ hi) : lo ≤ clampI lo hi x ∧ clampI lo hi x ≤ hi := by
  unfold clampI
  split_ifs <;> omega

theorem satQ_range (x : Int) : qMin ≤ (satQ x).1 ∧ (satQ x).1 ≤ qMax := clampI_range x (by decide)

/-- The engine goes on to the next word: nothing but the run's place and cost changes. -/
theorem wentOn_next {r1 : BeRun} {a : List Int} {i cost w : Nat} {d1 : Device} (hrun : (d1.be e).run = some r1) (hslot : r1.slot = r.slot)
    (hpc : r1.pc = r.pc) (hcycle : r1.cycle = r.cycle) (ha : r1.a = a) (houts : r1.outs = r.outs) (hcost : beCost w = cost)
    (hreg : ∀ j < 48, j ≠ i → d1.beReg e r1 j = d.beReg e r j) (hmem : ∀ b, d1.memByte b = d.memByte b) :
    wentOn e r a i cost d (d1.beNext e w) := by
  have hbyte : ∀ b, (d1.beNext e w).memByte b = d.memByte b := fun b =>
    (Device.memByte_of_word (Device.updBe_mem _ _ _) (Device.word_updBe _ _ _ _) b).trans (hmem b)
  refine ⟨{ r1 with pc := r1.pc + 1, cycle := r1.cycle + beCost w }, ?_, hslot, by rw [hpc], by rw [hcycle, hcost], ha, houts, fun j hj hji => ?_, hbyte⟩
  · rw [Device.beNext, Device.updBe_same, hrun]
    rfl
  · rw [Device.beNext, Device.beReg_congr fun k _ => Device.word_updBe _ _ _ _]
    exact (Device.beReg_of_t d1 rfl j).trans (hreg j hj hji)

theorem holds_next {r1 : BeRun} {i w : Nat} {v : Int} {d1 : Device} (hrun : (d1.be e).run = some r1)
    (hreg : d1.beReg e r1 i = if i < 48 then v else 0) : holds e i v (d1.beNext e w) := by
  refine ⟨{ r1 with pc := r1.pc + 1, cycle := r1.cycle + beCost w }, ?_, ?_⟩
  · rw [Device.beNext, Device.updBe_same, hrun]
    rfl
  · rw [Device.beNext, Device.beReg_congr fun k _ => Device.word_updBe _ _ _ _]
    exact (Device.beReg_of_t d1 rfl i).trans hreg

theorem beStep_runs {op : Nat} (f : Nat → BeRun → Device → Device) (h : d.nextIs e r op) :
    d.beStep e false op f = (f (d.nextWord e r) r d).beNext e (d.nextWord e r) := by
  obtain ⟨hrun, hop⟩ := h
  simp only [Device.beStep, hrun]
  exact if_neg (not_not.2 hop)

/-- An instruction that stores a value of Q1.31 ends with it in its destination. -/
theorem Device.beSet_ends {i w cost : Nat} {v : Int} (hrun : (d.be e).run = some r) (hlen : r.t.length = 16) (hlo : qMin ≤ v) (hhi : v ≤ qMax)
    (hcost : beCost w = cost) : holds e i v ((d.beSet e i v).beNext e w) ∧ wentOn e r r.a i cost d ((d.beSet e i v).beNext e w) := by
  obtain ⟨hslot, hpc, hcycle, ha, houts⟩ := r.stored_fields i v
  have hrun' := Device.beSet_run hrun i v
  exact ⟨holds_next hrun' (Device.beReg_beSet_same hlen hlo hhi),
    wentOn_next hrun' hslot hpc hcycle ha houts hcost (fun j _ h => Device.beReg_beSet_other v h) fun b => d.memByte_beSet e i v b⟩

/-- An instruction that rounds and saturates its result ends with it in its destination. -/
theorem Device.bePut_ends {i n w cost : Nat} {x : Int} (hrun : (d.be e).run = some r) (hlen : r.t.length = 16) (hpc : r.pc < 1024)
    (hcost : beCost w = cost) :
    holds e i (satQ (roundTo n x)).1 ((d.bePut e r i n x).beNext e w) ∧ wentOn e r r.a i cost d ((d.bePut e r i n x).beNext e w) := by
  obtain ⟨hlo, hhi⟩ := satQ_range (roundTo n x)
  have hflag : ((d.beFlag e r (satQ (roundTo n x)).2).be e).run = some r := (congrArg BeSt.run (d.beFlag_be e r _)).trans hrun
  obtain ⟨hholds, r', hr', hslot, hpc', hcycle, ha, houts, hreg, hmem⟩ :=
    Device.beSet_ends (i := i) hflag hlen hlo hhi hcost
  refine ⟨hholds, r', hr', hslot, hpc', hcycle, ha, houts, fun j hj hji => (hreg j hj hji).trans ?_, fun b => (hmem b).trans ?_⟩
  · exact Device.beReg_congr (fun k hk => d.beFlag_word e r _ (be_s_notMem_flagRegs hk hpc)) r j
  · exact d.memByte_beFlag e r _ hpc b

/-- A word costs what its opcode alone does. -/
theorem beCost_of_op {w op cost : Nat} (h : beOp w = op) (hop : beOp (op * 2 ^ 26) = op) (hc : beCost (op * 2 ^ 26) = cost) : beCost w = cost := by
  rw [← hc]
  unfold beCost
  rw [h, hop]

/-! ### Values of Q1.31 -/

theorem getD_range {l : List Int} (h : ∀ v ∈ l, qMin ≤ v ∧ v ≤ qMax) (n : Nat) : qMin ≤ l.getD n 0 ∧ l.getD n 0 ≤ qMax := by
  rw [List.getD_eq_getElem?_getD]
  cases hl : l[n]? with
  | none => decide
  | some v => exact h v (List.mem_of_getElem? hl)

theorem Device.beReg_range (d : Device) (e : BEng) (r : BeRun) (h : ∀ v ∈ r.t, qMin ≤ v ∧ v ≤ qMax) (i : Nat) :
    qMin ≤ d.beReg e r i ∧ d.beReg e r i ≤ qMax := by
  have hzero : qMin ≤ 0 ∧ (0 : Int) ≤ qMax := by decide
  unfold Device.beReg
  split_ifs with h1 h2
  · have hlt := d.rd_lt (BE_S_S e i)
    have hn : (BE_S_S e i).n = 32 := rfl
    unfold Device.rdI toSigned qMin qMax
    rw [hn] at hlt ⊢
    split <;> omega
  · exact getD_range h _
  · exact hzero

/-! ### LIM -/

/-- The limit a LIM instruction takes from its operand. -/
theorem satQ_natAbs (y : Int) : (satQ (y.natAbs : Int)).1 = min (y.natAbs : Int) qMax := by
  have hq : qMin ≤ 0 := by decide
  unfold satQ clampI
  dsimp only
  split_ifs <;> omega

/-- What a value gives off when it is clamped lies between it and 0. -/
theorem clampI_rest {x m : Int} (hm : 0 ≤ m) (hlo : qMin ≤ x) (hhi : x ≤ qMax) :
    (qMin ≤ clampI (-m) m x ∧ clampI (-m) m x ≤ qMax) ∧ qMin ≤ x - clampI (-m) m x ∧ x - clampI (-m) m x ≤ qMax := by
  have hq : qMin ≤ 0 ∧ 0 ≤ qMax := by decide
  unfold clampI
  split_ifs <;> omega

theorem be_w_ne_s {j k : Nat} (hj : j < 32) (hk : k < 8) : BE_S e j ≠ BE_W e k := by
  simp only [BE_S, BE_W]
  omega

theorem sramPart_ne_w {k : Nat} (hk : k < 8) : CB_SRAMPART ≠ BE_W e k := by
  have hb := e.base_cases
  simp only [CB_SRAMPART, BE_W]
  omega

/-- LIM's destination and its W register, after which the engine goes on. -/
theorem Device.lim_ends {i k w : Nat} {v u : Int} (hrun : (d.be e).run = some r) (hlen : r.t.length = 16) (hlo : qMin ≤ v) (hhi : v ≤ qMax)
    (hulo : qMin ≤ u) (huhi : u ≤ qMax) (hk : k < 8) (hcost : beCost w = 1) :
    let d' := (((d.beSet e i v).wrI (BE_W_W e k) u).beNext e w)
    holds e i v d' ∧ d'.rdI (BE_W_W e k) = u ∧ wentOn e r r.a i 1 d d' ∧ d'.word (BE_STATUS e) = d.word (BE_STATUS e) := by
  obtain ⟨hslot, hpc, hcycle, ha, houts⟩ := r.stored_fields i v
  have hrun' : (((d.beSet e i v).wrI (BE_W_W e k) u).be e).run = some (r.stored i v) := by
    rw [Device.wrI, Device.be_wr]
    exact Device.beSet_run hrun i v
  have hword : ∀ a, a ≠ BE_W e k → ((d.beSet e i v).wrI (BE_W_W e k) u).word a = (d.beSet e i v).word a := fun a h =>
    Device.word_wr_other _ _ _ h
  have hreg : ∀ j, ((d.beSet e i v).wrI (BE_W_W e k) u).beReg e (r.stored i v) j = (d.beSet e i v).beReg e (r.stored i v) j := fun j =>
    Device.beReg_congr (fun m hm => hword _ (be_w_ne_s hm hk)) _ j
  refine ⟨holds_next hrun' ((hreg i).trans (Device.beReg_beSet_same hlen hlo hhi)), ?_,
    wentOn_next hrun' hslot hpc hcycle ha houts hcost (fun j _ h => (hreg j).trans (Device.beReg_beSet_other v h)) (fun b => ?_), ?_⟩
  · rw [Device.rdI, Device.beNext, Device.rd_updBe, ← Device.rdI]
    exact Device.rdI_wrI_q _ rfl rfl hulo huhi
  · exact (Device.memByte_of_word (Device.wrI_mem _ _ _) (hword _ (sramPart_ne_w hk)) b).trans (d.memByte_beSet e i v b)
  · rw [Device.beNext, Device.word_updBe, hword _ (by simp only [BE_STATUS, BE_W]; omega),
      Device.beSet_word _ _ _ fun _ => by simp only [BE_STATUS, BE_S]; omega]

end Sys2Proof.Machine

open Sys2Proof Sys2Proof.Machine

/-- Settles O39: each instruction is a store of its result in the destination, after which the engine goes on. -/
theorem balanceResultsMovesAndLimits : Obligations.BalanceResultsMovesAndLimits := by
  refine ⟨fun s e r hlen hpc => ?_, fun s e r hlen ht hin => ?_⟩
  · refine ⟨fun h => ?_, fun h => ?_, fun h => ?_, fun h => ?_, fun h => ?_, fun h => ?_⟩
    · refine givesThat_eff (beRndEff e false) rfl ?_
      rw [beRndEff, beStep_runs _ h]
      exact Device.bePut_ends h.1 hlen hpc (beCost_of_op h.2 rfl rfl)
    · refine givesThat_eff (beAddEff e false) rfl ?_
      rw [beAddEff, beStep_runs _ h]
      exact Device.bePut_ends (n := 0) h.1 hlen hpc (beCost_of_op h.2 rfl rfl)
    · refine givesThat_eff (beSubEff e false) rfl ?_
      rw [beSubEff, beStep_runs _ h]
      exact Device.bePut_ends (n := 0) h.1 hlen hpc (beCost_of_op h.2 rfl rfl)
    · refine givesThat_eff (beMulEff e false) rfl ?_
      rw [beMulEff, beStep_runs _ h]
      exact Device.bePut_ends h.1 hlen hpc (beCost_of_op h.2 rfl rfl)
    · refine givesThat_eff (beXffEff e false) rfl ?_
      rw [beXffEff, beStep_runs _ h]
      exact Device.bePut_ends h.1 hlen hpc (beCost_of_op h.2 rfl rfl)
    · refine givesThat_eff (beIntEff e false) rfl ?_
      rw [beIntEff, beStep_runs _ h]
      exact Device.bePut_ends h.1 hlen hpc (beCost_of_op h.2 rfl rfl)
  · have hreg := s.dev.beReg_range e r ht
    refine ⟨fun h => ?_, fun h => ?_, fun h => ?_, fun h => ?_⟩
    · refine givesThat_eff (beMovEff e false) rfl ?_
      rw [beMovEff, beStep_runs _ h]
      exact Device.beSet_ends h.1 hlen (hreg _).1 (hreg _).2 (beCost_of_op h.2 rfl rfl)
    · refine givesThat_eff (beSelEff e false) rfl ?_
      rw [beSelEff, beStep_runs _ h, ← apply_ite (s.dev.beReg e r)]
      exact Device.beSet_ends h.1 hlen (hreg _).1 (hreg _).2 (beCost_of_op h.2 rfl rfl)
    · have hport : qMin ≤ (s.dev.be e).inp.getD (bitsOf (s.dev.nextWord e r) 0 5) 0 ∧ (s.dev.be e).inp.getD (bitsOf (s.dev.nextWord e r) 0 5) 0 ≤ qMax :=
        getD_range hin _
      refine givesThat_eff (beInEff e false) rfl ?_
      rw [beInEff, beStep_runs _ h]
      exact Device.beSet_ends h.1 hlen hport.1 hport.2 (beCost_of_op h.2 rfl rfl)
    · refine givesThat_eff (beLimEff e false) rfl ?_
      rw [beLimEff, beStep_runs _ h]
      dsimp only
      rw [satQ_natAbs]
      obtain ⟨⟨hlo, hhi⟩, hulo, huhi⟩ := clampI_rest (m := min ((s.dev.beReg e r (bitsOf (s.dev.nextWord e r) 6 6)).natAbs : Int) qMax)
        (le_min (by omega) (by decide)) (hreg (bitsOf (s.dev.nextWord e r) 12 6)).1 (hreg (bitsOf (s.dev.nextWord e r) 12 6)).2
      exact Device.lim_ends h.1 hlen hlo hhi hulo huhi (Nat.mod_lt _ (by decide)) (beCost_of_op h.2 rfl rfl)

namespace Sys2Proof.Machine

/-! ### A term beyond the accumulator

A register T is an integer that nothing in a state holds to Q1.31, and LDA takes its product unrounded: with T0 = 2^64 and C[0] = 1 the product is 2^64,
which the accumulator saturates. -/

/-- The spindle's engine about to load 2^64. -/
def beTermTooLarge : Device :=
  (((({} : Device).wr (BE_STATUS_BANK .spindle) 0).wr (BE_PROGA_P .spindle 0) (2 ^ 26 + 32 * 2 ^ 18)).wr (BE_COEFA_C .spindle 0) 1).updBe .spindle fun b =>
    { b with run := some { slot := 0, t := [2 ^ 64] } }

theorem beTermTooLarge_run : (beTermTooLarge.be .spindle).run = some { slot := 0, t := [2 ^ 64] } := by
  rw [beTermTooLarge, Device.updBe_same]

theorem beTermTooLarge_reads : beTermTooLarge.beBank .spindle = false ∧ beTermTooLarge.rd (BE_PROGA_P .spindle 0) = 2 ^ 26 + 32 * 2 ^ 18 ∧
    beTermTooLarge.rd (BE_COEFA_C .spindle 0) = 1 := by
  simp (disch := decide) only [beTermTooLarge, Device.beBank, Device.bit, Device.rd_updBe, Device.rd_wr_reg, Device.rd_wr_same]
  decide

theorem beTermTooLarge_word : beTermTooLarge.nextWord .spindle { slot := 0, t := [2 ^ 64] } = 2 ^ 26 + 32 * 2 ^ 18 := by
  obtain ⟨hbank, hprog, -⟩ := beTermTooLarge_reads
  rw [Device.nextWord, Device.beWord, hbank]
  exact hprog

theorem beTermTooLarge_next : beTermTooLarge.nextIs .spindle { slot := 0, t := [2 ^ 64] } 0x01 :=
  ⟨beTermTooLarge_run, by rw [beTermTooLarge_word]; decide⟩

theorem beTermTooLarge_term : beTermTooLarge.accTerm .spindle { slot := 0, t := [2 ^ 64] } (2 ^ 26 + 32 * 2 ^ 18) = (0, 2 ^ 64) := by
  obtain ⟨hbank, -, hcoef⟩ := beTermTooLarge_reads
  have hreg : beTermTooLarge.beReg .spindle { slot := 0, t := [2 ^ 64] } (bitsOf (2 ^ 26 + 32 * 2 ^ 18) 18 6) = 2 ^ 64 := rfl
  have hterm : beTermTooLarge.beCoef .spindle false (bitsOf (2 ^ 26 + 32 * 2 ^ 18) 9 9) = 1 := by
    rw [show bitsOf (2 ^ 26 + 32 * 2 ^ 18) 9 9 = 0 by decide, Device.beCoef]
    exact congrArg (toSigned 32) hcoef
  rw [Device.accTerm, hbank, hreg, hterm]
  decide

/-- After the instruction the accumulator holds the greatest value it can. -/
theorem beTermTooLarge_loaded : ∃ r, ((beLdaEff .spindle false beTermTooLarge).be .spindle).run = some r ∧ r.a.getD 0 0 = accMax := by
  rw [beLdaEff, beStep_runs _ beTermTooLarge_next, beTermTooLarge_word]
  dsimp only
  rw [beTermTooLarge_term, Device.beNext, Device.updBe_same, Device.beAcc, Device.updBe_same, Device.beFlag_be, beTermTooLarge_run]
  exact ⟨_, rfl, rfl⟩

end Sys2Proof.Machine

open Sys2Proof.Machine

/-- Refutes O40: no clause holds a register T to Q1.31, and an LDA of T0 = 2^64 by C[0] = 1 leaves 2^63 - 1 in its accumulator, not the product. -/
theorem not_balanceAccumulatorsSectionsAndEnd : ¬ Obligations.BalanceAccumulatorsSectionsAndEnd := by
  rintro ⟨-, hterms, -⟩
  obtain ⟨hlda, -, -⟩ := hterms { State.reset with dev := beTermTooLarge } .spindle { slot := 0, t := [2 ^ 64] } (by decide)
  obtain ⟨d', hgives, ⟨r', hrun, -, -, -, ha, -⟩, -⟩ := hlda beTermTooLarge_next
  obtain ⟨r, hrun', hr⟩ := beTermTooLarge_loaded
  have hdev : d' = beLdaEff .spindle false beTermTooLarge := by
    injection hgives with h
    exact (congrArg State.dev h).symm
  rw [hdev, hrun'] at hrun
  have hterm := beTermTooLarge_term
  simp only [Device.accTerm, Prod.mk.injEq] at hterm
  obtain ⟨hacc, hprod⟩ := hterm
  have hnext : beTermTooLarge.nextWord .spindle { slot := 0, t := [2 ^ 64] } = 2 ^ 26 + 32 * 2 ^ 18 := beTermTooLarge_word
  rw [hnext, hacc, hprod] at ha
  rw [Option.some.inj hrun, ha] at hr
  exact absurd hr (by decide)

end

section
/-!
The balance engine's banks: the check, the exchange, RUN, and the sample held for its turn (R246, R253).
-/
namespace Sys2Proof.Machine

variable {d : Device} {e : BEng} {bad : Bool}

/-! ### The swap and its check -/

theorem beSwapEff_checking (h : (d.be e).checking = true) : beSwapEff e d = d := if_pos h

theorem beSwapEff_starts (h : (d.be e).checking = false) :
    beSwapEff e d = (d.wr (BE_CTRL_SWAP e) 1).updBe e fun b => { b with checking := true, due := false } := if_neg (by simp [h])

theorem swapDoneEff_idle (h : (d.be e).checking = false) : swapDoneEff e bad d = d := if_pos (by simp [h])

theorem Device.bankCheck_le (d : Device) (e : BEng) (bank b : Bool) : d.bankCheck e bank b ≤ 8 := by
  unfold Device.bankCheck
  dsimp only
  split_ifs <;> decide

/-- The check's verdict shown. -/
def Device.checkShown (d : Device) (e : BEng) (c : Nat) : Device := (d.updBe e fun b => { b with checking := false }).wr (BE_STATUS_CHECK e) c

/-- A failed check: the swap is refused. -/
def Device.swapRefused (d : Device) (e : BEng) (c : Nat) : Device :=
  ((d.checkShown e c).wrAll [(BE_CTRL_SWAP e, 0), (BE_INT_SWAPERR e, 1)]).log e.src 0x3007 [c]

/-- A passed check: the exchange is due. -/
def Device.swapDue (d : Device) (e : BEng) : Device :=
  (d.checkShown e 0).updBe e fun b => { b with due := true, slot3 := (d.rd (BE_SLOTV_SLOTS e)).testBit 3 }

theorem swapDoneEff_fails (h : (d.be e).checking = true) (hc : d.bankCheck e (!d.beBank e) bad ≠ 0) :
    swapDoneEff e bad d = d.swapRefused e (d.bankCheck e (!d.beBank e) bad) := by
  rw [swapDoneEff, if_neg (by simp [h])]
  exact if_pos hc

theorem Device.checkShown_word (d : Device) (e : BEng) (c : Nat) {a : Nat} (h : a ≠ BE_STATUS e) : (d.checkShown e c).word a = d.word a := by
  rw [Device.checkShown, Device.word_wr_other _ _ _ h, Device.word_updBe]

theorem Device.checkShown_be (d : Device) (e : BEng) (c : Nat) : (d.checkShown e c).be e = { d.be e with checking := false } := by
  rw [Device.checkShown, Device.be_wr, Device.updBe_same]

theorem slotv_ne_status : (BE_SLOTV_SLOTS e).reg ≠ BE_STATUS e := by
  simp only [BE_SLOTV_SLOTS, BE_SLOTV, BE_STATUS]
  omega

theorem ctrl_ne_status : BE_CTRL e ≠ BE_STATUS e := by
  simp only [BE_CTRL, BE_STATUS]
  omega

theorem swapDoneEff_passes (h : (d.be e).checking = true) (hc : d.bankCheck e (!d.beBank e) bad = 0) :
    swapDoneEff e bad d = if d.bit (BE_CTRL_RUN e) then d.swapDue e else (d.swapDue e).bankExchange e := by
  have hslots : (d.checkShown e 0).rd (BE_SLOTV_SLOTS e) = d.rd (BE_SLOTV_SLOTS e) := Device.rd_of_word (d.checkShown_word e 0 slotv_ne_status)
  have hrun : (d.swapDue e).bit (BE_CTRL_RUN e) = d.bit (BE_CTRL_RUN e) := by
    rw [Device.swapDue, Device.bit_updBe, Device.bit, Device.rd_of_word (f := BE_CTRL_RUN e) (d.checkShown_word e 0 ctrl_ne_status)]
    rfl
  rw [swapDoneEff, if_neg (by simp [h])]
  dsimp only
  rw [hc, if_neg (by simp), ← Device.checkShown, hslots, ← Device.swapDue, hrun]

theorem Device.be_log (d : Device) (src code : Nat) (ps : List Nat) (e : BEng) : (d.log src code ps).be e = d.be e := by
  cases e with
  | lane l => rw [Device.be, Device.lane_log, ← Device.be]
  | spindle => rw [Device.be, Device.log_spin, ← Device.be]

theorem Device.be_wrAll (d : Device) (fs : List (RF × Nat)) (e : BEng) : (d.wrAll fs).be e = d.be e := by
  cases e with
  | lane l => rw [Device.be, Device.lane_wrAll, ← Device.be]
  | spindle =>
    obtain ⟨r, hr⟩ := d.wrAll_regsOnly fs
    rw [hr]
    rfl

/-- The engine's registers stand apart from each other and from the rest. -/
theorem BEng.apart (e : BEng) : BE_STATUS e ≠ BE_CTRL e ∧ BE_STATUS e ≠ BE_INT e ∧ BE_CTRL e ≠ BE_INT e ∧ BE_STATUS e ≠ RG_LOGSTAT ∧
    BE_CTRL e ≠ RG_LOGSTAT ∧ BE_INT e ≠ RG_LOGSTAT ∧ CB_SRAMPART ≠ BE_STATUS e ∧ CB_SRAMPART ≠ BE_CTRL e ∧ CB_SRAMPART ≠ BE_INT e := by
  have hb := e.base_cases
  simp only [BE_STATUS, BE_CTRL, BE_INT, RG_LOGSTAT, CB_SRAMPART]
  omega

theorem Device.swapRefused_shows (d : Device) (e : BEng) {c : Nat} (hc : c ≤ 8) :
    (d.swapRefused e c).rd (BE_STATUS_CHECK e) = c ∧ (d.swapRefused e c).rd (BE_STATUS_BANK e) = d.rd (BE_STATUS_BANK e) ∧
      (d.swapRefused e c).rd (BE_CTRL_SWAP e) = 0 ∧ (d.swapRefused e c).rd (BE_INT_SWAPERR e) = 1 := by
  obtain ⟨hsc, hsi, hci, hsl, hcl, hil, -, -, -⟩ := e.apart
  simp only [Device.swapRefused, Device.checkShown, Device.wrAll, List.foldl_cons, List.foldl_nil]
  refine ⟨?_, ?_, ?_, ?_⟩
  · rw [Device.rd_log _ _ _ _ hsl, Device.rd_wr_reg _ _ hsi, Device.rd_wr_reg _ _ hsc, Device.rd_wr_same _ _ (Nat.le_of_ble_eq_true rfl)]
    exact Nat.mod_eq_of_lt (Nat.lt_of_le_of_lt hc (Nat.le_of_ble_eq_true rfl))
  · rw [Device.rd_log _ _ _ _ hsl, Device.rd_wr_reg _ _ hsi, Device.rd_wr_reg _ _ hsc, Device.rd_wr_bits _ _ (.inr (Nat.le_of_ble_eq_true rfl)), Device.rd_updBe]
  · rw [Device.rd_log _ _ _ _ hcl, Device.rd_wr_reg _ _ hci, Device.rd_wr_same _ _ (Nat.le_of_ble_eq_true rfl)]
    rfl
  · rw [Device.rd_log _ _ _ _ hil, Device.rd_wr_same _ _ (Nat.le_of_ble_eq_true rfl)]
    rfl

theorem Device.swapRefused_word (d : Device) (e : BEng) (c : Nat) {a : Nat} (ha : a ∉ [BE_STATUS e, BE_CTRL e, BE_INT e, RG_LOGSTAT]) :
    (d.swapRefused e c).word a = d.word a := by
  simp only [List.mem_cons, List.not_mem_nil, or_false, not_or] at ha
  obtain ⟨hs, hc, hi, hl⟩ := ha
  rw [Device.swapRefused, Device.log_word _ _ _ _ hl, Device.word_wrAll _ _ (by simp [hc, hi, BE_CTRL_SWAP, BE_INT_SWAPERR]),
    Device.checkShown_word _ _ _ hs]

theorem Device.swapRefused_frame (d : Device) (e : BEng) (c : Nat) :
    (d.swapRefused e c).mem = d.mem ∧ (d.swapRefused e c).be e = { d.be e with checking := false } := by
  refine ⟨?_, ?_⟩
  · rw [Device.swapRefused, Device.log_mem, Device.wrAll_mem, Device.checkShown, Device.wr_mem, Device.updBe_mem]
  · rw [Device.swapRefused, Device.be_log, Device.be_wrAll, Device.checkShown_be]

/-! ### The exchange -/

theorem Device.swapDue_shows (d : Device) (e : BEng) : (d.swapDue e).rd (BE_STATUS_CHECK e) = 0 ∧
    (d.swapDue e).rd (BE_STATUS_BANK e) = d.rd (BE_STATUS_BANK e) := by
  refine ⟨?_, ?_⟩
  · rw [Device.swapDue, Device.rd_updBe, Device.checkShown, Device.rd_wr_same _ _ (Nat.le_of_ble_eq_true rfl)]
    rfl
  · rw [Device.swapDue, Device.rd_updBe, Device.checkShown, Device.rd_wr_bits _ _ (.inr (Nat.le_of_ble_eq_true rfl)), Device.rd_updBe]

theorem Device.swapDue_word (d : Device) (e : BEng) {a : Nat} (h : a ≠ BE_STATUS e) : (d.swapDue e).word a = d.word a := by
  rw [Device.swapDue, Device.word_updBe, Device.checkShown_word _ _ _ h]

theorem Device.swapDue_mem (d : Device) (e : BEng) : (d.swapDue e).mem = d.mem := by
  rw [Device.swapDue, Device.updBe_mem, Device.checkShown, Device.wr_mem, Device.updBe_mem]

theorem Device.bankExchange_shows (d : Device) (e : BEng) :
    (d.bankExchange e).rd (BE_STATUS_BANK e) = (if d.beBank e then 0 else 1) ∧ (d.bankExchange e).rd (BE_STATUS_CHECK e) = d.rd (BE_STATUS_CHECK e) ∧
      (d.bankExchange e).rd (BE_STATUS_PASSED e) = 1 ∧ (d.bankExchange e).rd (BE_CTRL_SWAP e) = 0 ∧ (d.bankExchange e).rd (BE_INT_SWAPDONE e) = 1 := by
  obtain ⟨hsc, hsi, hci, -⟩ := e.apart
  simp only [Device.bankExchange, Device.wrB, Device.rd_updBe, Device.wrAll, List.foldl_cons, List.foldl_nil]
  refine ⟨?_, ?_, ?_, ?_, ?_⟩
  · rw [Device.rd_wr_reg _ _ hsc, Device.rd_wr_reg _ _ hsi, Device.rd_wr_bits _ _ (.inr (Nat.le_of_ble_eq_true rfl)), Device.rd_wr_bits _ _ (.inr (Nat.le_of_ble_eq_true rfl)),
      Device.rd_wr_same _ _ (Nat.le_of_ble_eq_true rfl)]
    cases d.beBank e <;> rfl
  · rw [Device.rd_wr_reg _ _ hsc, Device.rd_wr_reg _ _ hsi, Device.rd_wr_bits _ _ (.inr (Nat.le_of_ble_eq_true rfl)), Device.rd_wr_bits _ _ (.inl (Nat.le_of_ble_eq_true rfl)),
      Device.rd_wr_bits _ _ (.inl (Nat.le_of_ble_eq_true rfl))]
  · rw [Device.rd_wr_reg _ _ hsc, Device.rd_wr_reg _ _ hsi, Device.rd_wr_same _ _ (Nat.le_of_ble_eq_true rfl)]
    rfl
  · rw [Device.rd_wr_same _ _ (Nat.le_of_ble_eq_true rfl)]
    rfl
  · rw [Device.rd_wr_reg _ _ hci.symm, Device.rd_wr_same _ _ (Nat.le_of_ble_eq_true rfl)]
    rfl

theorem Device.bankExchange_word (d : Device) (e : BEng) {a : Nat} (ha : a ∉ [BE_STATUS e, BE_CTRL e, BE_INT e]) : (d.bankExchange e).word a = d.word a := by
  simp only [List.mem_cons, List.not_mem_nil, or_false, not_or] at ha
  obtain ⟨hs, hc, hi⟩ := ha
  rw [Device.bankExchange, Device.word_updBe,
    Device.word_wrAll _ _ (by simp [hs, hc, hi, BE_STATUS_PASSED, BE_INT_SWAPDONE, BE_CTRL_SWAP]), Device.wrB, Device.word_wr_other _ _ _ hs,
    Device.wrB, Device.word_wr_other _ _ _ hs]

theorem Device.bankExchange_frame (d : Device) (e : BEng) : (d.bankExchange e).mem = d.mem ∧ ((d.bankExchange e).be e).due = false := by
  refine ⟨?_, ?_⟩
  · rw [Device.bankExchange, Device.updBe_mem, Device.wrAll_mem, Device.wrB_mem, Device.wrB_mem]
  · rw [Device.bankExchange, Device.updBe_same]

/-! ### RUN -/

theorem Device.svWake_on (l : Lane) (h : (d.sv l).st ≠ .off) : d.svWake l = d := if_neg (by simp [h])

theorem Device.sv_wr (d : Device) (f : RF) (v : Nat) (l : Lane) : (d.wr f v).sv l = d.sv l := by
  rw [Device.sv, Device.lane_wr, ← Device.sv]

theorem beRunEff_passed (h : d.bit (BE_STATUS_PASSED e) = true) :
    beRunEff e true d = match e with | .lane l => (d.wr (BE_CTRL_RUN e) 1).svWake l | .spindle => d.wr (BE_CTRL_RUN e) 1 := by
  rw [beRunEff, if_neg (by simp), if_neg (by simp [h])]
  cases e <;> rfl

/-! ### The sample held for its turn -/

variable {l : Lane}

/-- The reference advanced by a sample. -/
def Device.refAdvance (d : Device) (l : Lane) : Device := match (d.sv l).st with | .seek => d.profileStep l | .settle => d.rampStep l | _ => d

/-- The sample's inputs latched. -/
def Device.inputsLatched (d : Device) (l : Lane) : Device := (d.latchXin l).wr (SV_ULIM_ULIM l) (d.ulim l / 2 ^ 16).toNat

/-- The PES a sample works from: PRED's where the wedge failed. -/
def Device.samplePes (d : Device) (l : Lane) : Int := if (d.sv l).bad then (d.be (.lane l)).pred else d.rdI (SV_PES_PES l)

theorem Device.sampleStart_eq (d : Device) (l : Lane) (pesb : Int) (h : (d.be (.lane l)).due = false) :
    d.sampleStart l pesb = ((d.refAdvance l).inputsLatched l).beStart (.lane l) (((d.refAdvance l).inputsLatched l).svSlot l)
      (((d.refAdvance l).inputsLatched l).lanePorts l (((d.refAdvance l).inputsLatched l).samplePes l) pesb) := by
  have hdue : d.exchangeDue (.lane l) = d := if_neg (by simp [h])
  unfold Device.sampleStart
  rw [hdue]
  rfl

theorem Device.profileStep_sv (d : Device) (l : Lane) : (d.profileStep l).regs = d.regs ∧ ((d.profileStep l).sv l).st = (d.sv l).st := by
  unfold Device.profileStep
  extract_lets s cur
  split_ifs
  · exact ⟨rfl, rfl⟩
  · rcases cur with - | ⟨i, left⟩
    · exact ⟨Device.updSv_regs _ _ _, by rw [Device.updSv_same]⟩
    · exact ⟨Device.updSv_regs _ _ _, by rw [Device.updSv_same]⟩

theorem Device.rampStep_sv (d : Device) (l : Lane) : (d.rampStep l).regs = d.regs ∧ ((d.rampStep l).sv l).st = (d.sv l).st :=
  ⟨Device.updSv_regs _ _ _, by rw [Device.rampStep, Device.updSv_same]⟩

theorem Device.refAdvance_sv (d : Device) (l : Lane) : (d.refAdvance l).regs = d.regs ∧ ((d.refAdvance l).sv l).st = (d.sv l).st := by
  unfold Device.refAdvance
  split
  · exact d.profileStep_sv l
  · exact d.rampStep_sv l
  · exact ⟨rfl, rfl⟩

theorem Device.svSlot_congr {a : Device} (hst : (a.sv l).st = (d.sv l).st) (hcal : a.bit (SV_CTRL_CAL l) = d.bit (SV_CTRL_CAL l))
    (hslot : a.bit (BE_STATUS_SLOT3 (.lane l)) = d.bit (BE_STATUS_SLOT3 (.lane l))) : a.svSlot l = d.svSlot l := by
  unfold Device.svSlot
  rw [hst, hcal, hslot]

theorem Device.inputsLatched_sv (d : Device) (l : Lane) : (d.inputsLatched l).sv l = d.sv l := by
  rw [Device.inputsLatched, Device.sv_wr, Device.latchXin, Device.wrI, Device.sv_wr]

theorem Device.inputsLatched_word (d : Device) (l : Lane) {a : Nat} (h1 : a ≠ SV_ULIM l) (h2 : a ≠ BE_XIN (.lane l)) :
    (d.inputsLatched l).word a = d.word a := by
  rw [Device.inputsLatched, Device.word_wr_other _ _ _ h1, Device.latchXin]
  exact Device.word_wr_other _ _ _ h2

theorem lateEff_waits (h : (d.be (.lane l)).held = false ∨ (d.be (.lane l)).run ≠ none) : lateEff l d = d := by
  refine if_pos ?_
  obtain h | h := h
  · simp [h]
  · simp [Option.isSome_iff_ne_none.2 h]

theorem lateEff_starts (hh : (d.be (.lane l)).held = true) (hn : (d.be (.lane l)).run = none) (hr : d.bit (BE_CTRL_RUN (.lane l)) = true) :
    lateEff l d = (d.wr (BE_STATUS_LATE (.lane l)) 1).sampleStart l 0 := if_neg (by simp [hh, hn, hr])

end Sys2Proof.Machine

open Sys2Proof Sys2Proof.Machine

/-- Settles O41: a swap by its check's verdict and RUN, and the late sample by what starting one writes. -/
theorem balanceBanksAreCheckedBeforeExchange : Obligations.BalanceBanksAreCheckedBeforeExchange := by
  refine ⟨?_, ?_, ?_, ?_, ?_, ?_, ?_, ?_, ?_, ?_, ?_, ?_⟩
  · intro s e h
    exact gives_eff (beSwapEff e) rfl (beSwapEff_checking h)
  · intro s e h
    obtain ⟨-, -, -, -, -, -, -, hpart, -⟩ := e.apart
    refine givesThat_eff (beSwapEff e) rfl ?_
    rw [beSwapEff_starts h, Device.updBe_same, Device.be_wr]
    refine ⟨?_, rfl, rfl, rfl, untouched_of (fun a ha => ?_) ?_ (by simpa using hpart)⟩
    · rw [Device.rd_updBe, Device.rd_wr_same _ _ (Nat.le_of_ble_eq_true rfl)]
      rfl
    · rw [Device.word_updBe, Device.word_wr_other _ _ _ (List.ne_of_not_mem_cons ha)]
    · rw [Device.updBe_mem, Device.wr_mem]
  · intro s e b h
    exact gives_eff (swapDoneEff e b) rfl (swapDoneEff_idle h)
  · intro s e b c h hc hne
    subst hc
    obtain ⟨-, -, -, -, -, -, hps, hpc, hpi⟩ := e.apart
    refine givesThat_eff (swapDoneEff e b) rfl ?_
    rw [swapDoneEff_fails h hne]
    obtain ⟨hcheck, hbank, hswap, herr⟩ := s.dev.swapRefused_shows e (s.dev.bankCheck_le e (!s.dev.beBank e) b)
    obtain ⟨hmem, hbe⟩ := s.dev.swapRefused_frame e (s.dev.bankCheck e (!s.dev.beBank e) b)
    refine ⟨hcheck, congrArg (fun v => v == 1) hbank, hswap, herr, by rw [hbe], by rw [hbe],
      untouched_of (fun a ha => s.dev.swapRefused_word e _ ha) hmem ?_⟩
    simp only [List.mem_cons, List.not_mem_nil, or_false, not_or]
    exact ⟨hps, hpc, hpi, by decide⟩
  · intro s e b h hc hr
    obtain ⟨-, -, -, -, -, -, hps, hpc, hpi⟩ := e.apart
    refine givesThat_eff (swapDoneEff e b) rfl ?_
    rw [swapDoneEff_passes h hc, if_neg (by simp [hr])]
    obtain ⟨hbank, hcheck, hpassed, hswap, hdone⟩ := (s.dev.swapDue e).bankExchange_shows e
    obtain ⟨hcheck', hbank'⟩ := s.dev.swapDue_shows e
    obtain ⟨hmem, hdue⟩ := (s.dev.swapDue e).bankExchange_frame e
    have hsame : (s.dev.swapDue e).beBank e = s.dev.beBank e := by simp only [Device.beBank, Device.bit, hbank']
    refine ⟨?_, hcheck.trans hcheck', hpassed, hswap, hdone, hdue, untouched_of (fun a ha => ?_) (hmem.trans (s.dev.swapDue_mem e)) ?_⟩
    · rw [Device.beBank, Device.bit, hbank, hsame]
      cases s.dev.beBank e <;> rfl
    · rw [Device.bankExchange_word _ _ ha, Device.swapDue_word _ _ (List.ne_of_not_mem_cons ha)]
    · simp only [List.mem_cons, List.not_mem_nil, or_false, not_or]
      exact ⟨hps, hpc, hpi⟩
  · intro s e b h hc hr
    obtain ⟨-, -, -, -, -, -, hps, -, -⟩ := e.apart
    refine givesThat_eff (swapDoneEff e b) rfl ?_
    rw [swapDoneEff_passes h hc, if_pos hr]
    obtain ⟨-, hbank'⟩ := s.dev.swapDue_shows e
    refine ⟨by simp only [Device.beBank, Device.bit, hbank'], ?_, ?_,
      untouched_of (fun a ha => s.dev.swapDue_word e (List.ne_of_not_mem_cons ha)) (s.dev.swapDue_mem e) (by simpa using hps)⟩
    · rw [Device.swapDue, Device.updBe_same]
    · rw [Device.swapDue, Device.updBe_same]
  · intro s e h
    exact gives_eff (beRunEff e true) rfl (by rw [beRunEff, if_neg (by simp), if_pos (by simp [h])])
  · intro s e
    exact gives_eff (beRunEff e false) rfl (if_pos rfl)
  · intro s h
    exact gives_eff (beRunEff .spindle true) rfl (beRunEff_passed h)
  · intro s l h hst
    exact gives_eff (beRunEff (.lane l) true) rfl ((beRunEff_passed h).trans (Device.svWake_on l (by rwa [Device.sv_wr])))
  · intro s l h
    exact gives_eff (lateEff l) rfl (lateEff_waits h)
  · intro s l hh hn hr hd
    refine givesThat_eff (lateEff l) rfl ?_
    rw [lateEff_starts hh hn hr]
    rw [Device.sampleStart_eq _ l 0 (by rwa [Device.be_wr])]
    obtain ⟨hregs, hst⟩ := (s.dev.wr (BE_STATUS_LATE (.lane l)) 1).refAdvance_sv l
    have hword : ∀ a, a ≠ SV_ULIM l → a ≠ BE_XIN (.lane l) →
        (((s.dev.wr (BE_STATUS_LATE (.lane l)) 1).refAdvance l).inputsLatched l).word a = (s.dev.wr (BE_STATUS_LATE (.lane l)) 1).word a :=
      fun a h1 h2 => (Device.inputsLatched_word _ l h1 h2).trans (Device.word_congr hregs a)
    have hslot : (((s.dev.wr (BE_STATUS_LATE (.lane l)) 1).refAdvance l).inputsLatched l).svSlot l = s.dev.svSlot l := by
      refine Device.svSlot_congr ?_ ?_ ?_
      · rw [Device.inputsLatched_sv, hst, Device.sv_wr]
      · rw [Device.bit, Device.rd_of_word (f := SV_CTRL_CAL l) (hword _ (by cases l <;> decide) (by cases l <;> decide)),
          Device.rd_wr_reg _ _ (by cases l <;> decide)]
        rfl
      · rw [Device.bit, Device.rd_of_word (f := BE_STATUS_SLOT3 (.lane l)) (hword _ (by cases l <;> decide) (by cases l <;> decide)),
          Device.rd_wr_bits _ _ (.inl (Nat.le_of_ble_eq_true rfl))]
        rfl
    rw [Device.beStart, Device.updBe_same, Device.rd_updBe, hslot]
    refine ⟨?_, rfl, _, rfl, rfl, rfl⟩
    rw [Device.rd_of_word (f := BE_STATUS_LATE (.lane l)) (hword _ (by cases l <;> decide) (by cases l <;> decide)),
      Device.rd_wr_same _ _ (by cases l <;> decide)]
    rfl

end

section
/-!
The servo's changes of state, what leaving FOLLOW and an emergency retract stop, and the servo's commands (R259, R260, R262, R264).
-/
namespace Sys2Proof.Machine

variable {d e : Device} {l : Lane}

/-! ### What stopping a lane's work leaves -/

/-- The registers, beside the servo's status, that stopping a lane's operations and its write gate shows in. -/
def stopRegs : List Nat :=
  [SV_INT .ln0, SV_INT .ln1, WG_INH .ln0, WG_INH .ln1, WR_INT .ln0, WR_INT .ln1, RG_LOGSTAT,
   EC_STOP ⟨.ln0, false⟩, EC_STOP ⟨.ln0, true⟩, EC_STOP ⟨.ln1, false⟩, EC_STOP ⟨.ln1, true⟩,
   EC_CTRL ⟨.ln0, false⟩, EC_CTRL ⟨.ln0, true⟩, EC_CTRL ⟨.ln1, false⟩, EC_CTRL ⟨.ln1, true⟩]

/-- With the servo's status, whose INH the PES source sets. -/
def haltRegs : List Nat := SV_STATUS .ln0 :: SV_STATUS .ln1 :: stopRegs

/-- Work stopped: both servos and power stages, memory, and every other register and the count of missed wedges are as before. -/
structure Device.Halted (d e : Device) : Prop where
  sv : ∀ m, e.sv m = d.sv m
  ps : ∀ m, e.ps m = d.ps m
  mem : e.mem = d.mem
  word : ∀ a, a ∉ haltRegs → e.word a = d.word a
  miss : ∀ m, e.rd (SV_STATUS_MISS m) = d.rd (SV_STATUS_MISS m)

theorem Device.Halted.refl (d : Device) : d.Halted d := ⟨fun _ => rfl, fun _ => rfl, rfl, fun _ _ => rfl, fun _ => rfl⟩

theorem Device.Halted.trans {f : Device} (h : d.Halted e) (h' : e.Halted f) : d.Halted f :=
  ⟨fun m => (h'.sv m).trans (h.sv m), fun m => (h'.ps m).trans (h.ps m), h'.mem.trans h.mem, fun a ha => (h'.word a ha).trans (h.word a ha),
    fun m => (h'.miss m).trans (h.miss m)⟩

theorem svStatus_notMem_stopRegs (m : Lane) : SV_STATUS m ∉ stopRegs := by cases m <;> decide

/-- Both servos and power stages are read from the lanes alone. -/
theorem Device.Halted.of_lanes (hl : ∀ m, e.lane m = d.lane m) (hm : e.mem = d.mem) (hw : ∀ a, a ∉ stopRegs → e.word a = d.word a) : d.Halted e :=
  ⟨fun m => by rw [Device.sv, hl, ← Device.sv], fun m => by rw [Device.ps, hl, ← Device.ps], hm,
    fun a ha => hw a fun h => ha (List.mem_cons_of_mem _ (List.mem_cons_of_mem _ h)),
    fun m => Device.rd_of_word (hw _ (svStatus_notMem_stopRegs m))⟩

theorem Device.halted_wr (d : Device) {f : RF} (v : Nat) (h : f.reg ∈ stopRegs) : d.Halted (d.wr f v) :=
  .of_lanes (d.lane_wr f v) (d.wr_mem f v) fun _ ha => d.word_wr_other f v (ne_of_mem_of_not_mem h ha).symm

/-- The PES source's bit stands apart from the count of missed wedges. -/
theorem Device.halted_wr_inh (d : Device) (l : Lane) (v : Nat) : d.Halted (d.wr (SV_STATUS_INH l) v) := by
  refine ⟨fun m => ?_, fun m => ?_, d.wr_mem _ v, fun a ha => d.word_wr_other _ v ?_, fun m => ?_⟩
  · rw [Device.sv, Device.lane_wr, ← Device.sv]
  · rw [Device.ps, Device.lane_wr, ← Device.ps]
  · exact (ne_of_mem_of_not_mem (by cases l <;> decide : (SV_STATUS_INH l).reg ∈ haltRegs) ha).symm
  · cases l <;> cases m
    · exact d.rd_wr_bits v (by decide)
    · exact d.rd_wr_reg v (by decide)
    · exact d.rd_wr_reg v (by decide)
    · exact d.rd_wr_bits v (by decide)

theorem Device.halted_log (d : Device) (src code : Nat) (ps : List Nat) : d.Halted (d.log src code ps) :=
  .of_lanes (d.lane_log src code ps) (d.log_mem src code ps) fun _ ha =>
    d.log_word src code ps (ne_of_mem_of_not_mem (by decide : RG_LOGSTAT ∈ stopRegs) ha).symm

theorem Device.halted_updOp (d : Device) (q : SeqId) (f : EcOp → EcOp) : d.Halted (d.updOp q f) := by
  obtain ⟨k, b⟩ := q
  refine ⟨fun m => ?_, fun m => ?_, Device.updOp_mem _ _ _, fun a _ => Device.word_updOp _ _ _ _, fun m => Device.rd_updOp _ _ _ _⟩
  · cases k <;> cases b <;> cases m <;> rfl
  · cases k <;> cases b <;> cases m <;> rfl

theorem Device.halted_updWr (d : Device) (l : Lane) (f : WrSt → WrSt) : d.Halted (d.updWr l f) := by
  refine ⟨fun m => ?_, fun m => ?_, Device.updWr_mem _ _ _, fun a _ => Device.word_updWr _ _ _ _, fun m => Device.rd_updWr _ _ _ _⟩
  · cases l <;> cases m <;> rfl
  · cases l <;> cases m <;> rfl

theorem ecRegs_mem_stopRegs (q : SeqId) : EC_STOP q ∈ stopRegs ∧ EC_CTRL q ∈ stopRegs := by
  obtain ⟨k, b⟩ := q
  cases k <;> cases b <;> decide

theorem laneRegs_mem_stopRegs (l : Lane) : SV_INT l ∈ stopRegs ∧ WG_INH l ∈ stopRegs ∧ WR_INT l ∈ stopRegs := by
  cases l <;> decide

theorem laneRegs_mem_haltRegs (l : Lane) : SV_STATUS l ∈ haltRegs ∧ SV_INT l ∈ haltRegs ∧ WG_INH l ∈ haltRegs := by
  cases l <;> decide

theorem Device.halted_takeStop (d : Device) (q : SeqId) : d.Halted (d.takeStop q) := by
  unfold Device.takeStop
  extract_lets causes
  split
  · exact .refl d
  · split
    · exact .refl d
    · have hstop : ∀ f, d.Halted ((d.updOp q f).wr (EC_CTRL_ABORT q) 0) := fun f =>
        (d.halted_updOp q f).trans (Device.halted_wr _ _ (ecRegs_mem_stopRegs q).2)
      split
      · exact (hstop _).trans (Device.halted_log _ _ _ _)
      · exact hstop _

theorem Device.halted_stopCause (d : Device) (q : SeqId) (bit : Nat) : d.Halted (d.stopCause q bit) := by
  unfold Device.stopCause
  split
  · exact .refl d
  · have hset : d.Halted (d.wr ⟨EC_STOP q, bit, 1⟩ 1) := d.halted_wr _ (ecRegs_mem_stopRegs q).1
    extract_lets applies d'
    split
    · exact .refl d
    · split
      · exact hset.trans (Device.halted_takeStop _ q)
      · exact hset

theorem Device.halted_foldl {α : Type} {f : Device → α → Device} (hf : ∀ e x, Device.Halted e (f e x)) (xs : List α) (d : Device) :
    d.Halted (xs.foldl f d) :=
  List.foldlRecOn (motive := d.Halted) xs _ (.refl d) fun e he x _ => he.trans (hf e x)

theorem Device.halted_cutGate (d : Device) (l : Lane) : d.Halted (d.cutGate l) := by
  unfold Device.cutGate
  split
  · exact .refl d
  · exact (d.halted_updWr l _).trans (Device.halted_updOp _ _ _)

theorem Device.halted_inhibit (d : Device) (l : Lane) : d.Halted (d.inhibit l) :=
  (d.halted_cutGate l).trans (Device.halted_foldl (fun e q => e.halted_stopCause q 1) _ _)

theorem Device.halted_pesInhibit (d : Device) (l : Lane) : d.Halted (d.pesInhibit l) := by
  obtain ⟨-, hwg, hwr⟩ := laneRegs_mem_stopRegs l
  have hrest : ∀ e : Device, e.Halted ((((e.wr (SV_STATUS_INH l) 1).wr (WG_INH_PES l) 1).wr (WR_INT_PES_INH l) 1).inhibit l) := fun e =>
    (((e.halted_wr_inh l 1).trans (Device.halted_wr _ 1 hwg)).trans (Device.halted_wr _ 1 hwr)).trans (Device.halted_inhibit _ l)
  unfold Device.pesInhibit
  split
  · exact .refl d
  · dsimp only
    split
    · exact ((d.halted_updWr l _).trans (hrest _)).trans (Device.halted_log _ _ _ _)
    · exact (hrest d).trans (Device.halted_log _ _ _ _)

theorem Device.halted_leftFollow (d : Device) (l : Lane) : d.Halted (d.leftFollow l) := by
  refine (Device.halted_foldl (fun e q => ?_) _ d).trans (Device.halted_pesInhibit _ l)
  split
  · exact e.halted_stopCause q 4
  · exact .refl e

/-! ### A change of state -/

/-- A servo's state after its change. -/
def SvSt.entered (s : SvSt) (st : SvState) : SvSt :=
  { s with st := st, since := 0, within_ := 0, consistent := 0, recovers := if st = .follow then 0 else s.recovers }

/-- The change of state and what it shows, without what leaving FOLLOW stops. -/
def Device.svShown (d : Device) (l : Lane) (st : SvState) : Device :=
  (((d.updSv l fun s => s.entered st).wr (SV_STATUS_STATE l) st.code).wr (SV_INT_STATE l) 1).wrB (SV_STATUS_ONTRK l) (st == .follow)

theorem Device.svEnter_eq (d : Device) (l : Lane) (st : SvState) :
    d.svEnter l st = if (d.sv l).st = .follow ∧ st ≠ .follow then (d.svShown l st).leftFollow l else d.svShown l st := rfl

theorem Device.svEnter_calm (st : SvState) (h : (d.sv l).st ≠ .follow) : d.svEnter l st = d.svShown l st := by
  rw [Device.svEnter_eq, if_neg (by simp [h])]

theorem Device.svEnter_halted (d : Device) (l : Lane) (st : SvState) : (d.svShown l st).Halted (d.svEnter l st) := by
  rw [Device.svEnter_eq]
  split
  · exact Device.halted_leftFollow _ l
  · exact .refl _

theorem Device.svShown_sv (d : Device) (l : Lane) (st : SvState) : (d.svShown l st).sv l = (d.sv l).entered st := by
  rw [Device.svShown, Device.wrB, Device.sv_wr, Device.sv_wr, Device.sv_wr, Device.updSv_same]

theorem Device.sv_updSv_other {m : Lane} (h : m ≠ l) (f : SvSt → SvSt) : (d.updSv l f).sv m = d.sv m := by
  cases l <;> cases m
  · exact absurd rfl h
  · rfl
  · rfl
  · exact absurd rfl h

theorem Device.svShown_shows (d : Device) (l : Lane) (st : SvState) :
    (d.svShown l st).rd (SV_STATUS_STATE l) = st.code ∧ (d.svShown l st).rd (SV_INT_STATE l) = 1 ∧
      (d.svShown l st).rd (SV_STATUS_ONTRK l) = (if st = .follow then 1 else 0) := by
  unfold Device.svShown Device.wrB
  refine ⟨?_, ?_, ?_⟩
  · cases l <;> simp (disch := decide) only [Device.rd_wr_reg, Device.rd_wr_bits, Device.rd_wr_same] <;> cases st <;> rfl
  · cases l <;> simp (disch := decide) only [Device.rd_wr_reg, Device.rd_wr_same] <;> rfl
  · rw [Device.rd_wr_same _ _ (by cases l <;> decide)]
    cases st <;> rfl

theorem Device.svShown_word (d : Device) (l : Lane) (st : SvState) {a : Nat} (h1 : a ≠ SV_STATUS l) (h2 : a ≠ SV_INT l) :
    (d.svShown l st).word a = d.word a := by
  rw [Device.svShown, Device.wrB, Device.word_wr_other _ _ _ h1, Device.word_wr_other _ _ _ h2, Device.word_wr_other _ _ _ h1, Device.word_updSv]

theorem Device.svShown_mem (d : Device) (l : Lane) (st : SvState) : (d.svShown l st).mem = d.mem := by
  rw [Device.svShown, Device.wrB_mem, Device.wr_mem, Device.wr_mem, Device.updSv_mem]

theorem Device.svEnter_sv (d : Device) (l : Lane) (st : SvState) : (d.svEnter l st).sv l = (d.sv l).entered st :=
  ((d.svEnter_halted l st).sv l).trans (d.svShown_sv l st)

theorem Device.svEnter_sv_other (d : Device) {m : Lane} (st : SvState) (h : m ≠ l) : (d.svEnter l st).sv m = d.sv m := by
  rw [(d.svEnter_halted l st).sv m, Device.svShown, Device.wrB, Device.sv_wr, Device.sv_wr, Device.sv_wr, Device.sv_updSv_other h]

theorem Device.ps_wr (d : Device) (f : RF) (v : Nat) (m : Lane) : (d.wr f v).ps m = d.ps m := by
  rw [Device.ps, Device.lane_wr, ← Device.ps]

theorem Device.ps_updSv (d : Device) (l : Lane) (f : SvSt → SvSt) (m : Lane) : (d.updSv l f).ps m = d.ps m := by
  cases l <;> cases m <;> rfl

theorem Device.svEnter_ps (d : Device) (l : Lane) (st : SvState) (m : Lane) : (d.svEnter l st).ps m = d.ps m := by
  rw [(d.svEnter_halted l st).ps m, Device.svShown, Device.wrB, Device.ps_wr, Device.ps_wr, Device.ps_wr, Device.ps_updSv]

theorem Device.svEnter_mem (d : Device) (l : Lane) (st : SvState) : (d.svEnter l st).mem = d.mem :=
  (d.svEnter_halted l st).mem.trans (d.svShown_mem l st)

theorem Device.svEnter_word (d : Device) (l : Lane) (st : SvState) {a : Nat} (ha : a ∉ haltRegs) : (d.svEnter l st).word a = d.word a := by
  obtain ⟨hst, hint, -⟩ := laneRegs_mem_haltRegs l
  rw [(d.svEnter_halted l st).word a ha, d.svShown_word l st (ne_of_mem_of_not_mem hst ha).symm (ne_of_mem_of_not_mem hint ha).symm]

/-- A change of state from any other than FOLLOW is all that happens to registers and memory. -/
theorem Device.svShown_untouched (d : Device) (l : Lane) (st : SvState) : Untouched [SV_STATUS l, SV_INT l] d (d.svShown l st) := by
  refine untouched_of (fun a ha => ?_) (d.svShown_mem l st) (by cases l <;> decide)
  simp only [List.mem_cons, List.not_mem_nil, or_false, not_or] at ha
  exact d.svShown_word l st ha.1 ha.2

theorem Untouched.of_regs {f : Device} {rs : List Nat} (h : Untouched rs d e) (hr : f.regs = e.regs) (hm : f.mem = e.mem) : Untouched rs d f :=
  ⟨fun a ha => (Device.word_congr hr a).trans (h.1 a ha), fun b => (Device.memByte_congr hm (Device.poolPages_congr hr) b).trans (h.2 b)⟩

/-! ### The emergency retract -/

/-- What an emergency retract does to one lane. -/
def Device.laneRetract (d : Device) (l : Lane) (cause : Nat) : Device :=
  ((((((d.wr (PS_STATUS_ECAUSE l) cause).wr (SV_INT_EMRET l) 1).wr (WG_INH_RETRACT l) 1).svEnter l .retract).inhibit l).log l.src 0x300C [cause])

theorem Device.emergencyRetract_eq (cause : Nat) (h : d.retracting = false) :
    d.emergencyRetract cause =
      (({ d with emretCause := some cause, emret := .low } : Device).laneRetract .ln0 cause).laneRetract .ln1 cause := if_neg (by simp [h])

/-- After the change of state a lane's retract stops work and logs. -/
theorem Device.laneRetract_halted (d : Device) (l : Lane) (cause : Nat) :
    ((((d.wr (PS_STATUS_ECAUSE l) cause).wr (SV_INT_EMRET l) 1).wr (WG_INH_RETRACT l) 1).svEnter l .retract).Halted (d.laneRetract l cause) :=
  (Device.halted_inhibit _ l).trans (Device.halted_log _ _ _ _)

theorem Device.laneRetract_sv (d : Device) (l : Lane) (cause : Nat) : ((d.laneRetract l cause).sv l).st = .retract := by
  rw [(d.laneRetract_halted l cause).sv l, Device.svEnter_sv]
  rfl

theorem Device.laneRetract_sv_other (d : Device) {m : Lane} (cause : Nat) (h : m ≠ l) : (d.laneRetract l cause).sv m = d.sv m := by
  rw [(d.laneRetract_halted l cause).sv m, Device.svEnter_sv_other _ _ h, Device.sv_wr, Device.sv_wr, Device.sv_wr]

theorem Device.laneRetract_ps (d : Device) (l : Lane) (cause : Nat) (m : Lane) : (d.laneRetract l cause).ps m = d.ps m := by
  rw [(d.laneRetract_halted l cause).ps m, Device.svEnter_ps, Device.ps_wr, Device.ps_wr, Device.ps_wr]

theorem Device.laneRetract_mem (d : Device) (l : Lane) (cause : Nat) : (d.laneRetract l cause).mem = d.mem := by
  rw [(d.laneRetract_halted l cause).mem, Device.svEnter_mem, Device.wr_mem, Device.wr_mem, Device.wr_mem]

/-- Outside the registers a stop shows in, a retract writes a lane's cause. -/
theorem Device.laneRetract_word (d : Device) (l : Lane) (cause : Nat) {a : Nat} (ha : a ∉ haltRegs) :
    (d.laneRetract l cause).word a = (d.wr (PS_STATUS_ECAUSE l) cause).word a := by
  obtain ⟨-, hint, hwg⟩ := laneRegs_mem_haltRegs l
  rw [(d.laneRetract_halted l cause).word a ha, Device.svEnter_word _ _ _ ha, Device.word_wr_other _ _ _ (ne_of_mem_of_not_mem hwg ha).symm,
    Device.word_wr_other _ _ _ (ne_of_mem_of_not_mem hint ha).symm]

theorem psStatus_notMem_haltRegs (l : Lane) : PS_STATUS l ∉ haltRegs := by cases l <;> decide

theorem Device.laneRetract_rd_ecause (d : Device) (l : Lane) {cause : Nat} (hc : cause < 16) : (d.laneRetract l cause).rd (PS_STATUS_ECAUSE l) = cause := by
  rw [Device.rd_of_word (f := PS_STATUS_ECAUSE l) (d.laneRetract_word l cause (psStatus_notMem_haltRegs l)), Device.rd_wr_same _ _ (by cases l <;> decide)]
  exact Nat.mod_eq_of_lt hc

theorem Device.laneRetract_word_psStatus (d : Device) {m : Lane} (cause : Nat) (h : m ≠ l) :
    (d.laneRetract l cause).word (PS_STATUS m) = d.word (PS_STATUS m) := by
  rw [Device.laneRetract_word _ _ _ (psStatus_notMem_haltRegs m), Device.word_wr_other]
  cases l <;> cases m
  · exact absurd rfl h
  · decide
  · decide
  · exact absurd rfl h

/-- The device that asserts EMRET_N. -/
def Device.emretLow (d : Device) (cause : Nat) : Device := { d with emretCause := some cause, emret := .low }

/-- EMRET_N asserted: both servos retract, each stage shows the cause, memory stays. -/
theorem Device.emergencyRetract_shows {cause : Nat} (h : d.retracting = false) (hc : cause < 16) (m : Lane) :
    ((d.emergencyRetract cause).sv m).st = .retract ∧ (d.emergencyRetract cause).rd (PS_STATUS_ECAUSE m) = cause ∧
      (d.emergencyRetract cause).ps m = d.ps m ∧ ∀ b, (d.emergencyRetract cause).memByte b = d.memByte b := by
  rw [Device.emergencyRetract_eq cause h, ← Device.emretLow]
  have hbyte : ∀ b, (((d.emretLow cause).laneRetract .ln0 cause).laneRetract .ln1 cause).memByte b = d.memByte b := by
    have hpart : ∀ (e : Device) (k : Lane), (e.laneRetract k cause).word CB_SRAMPART = e.word CB_SRAMPART := fun e k => by
      rw [Device.laneRetract_word _ _ _ (by decide), Device.word_wr_other _ _ _ (by cases k <;> decide)]
    refine Device.memByte_of_word ?_ ?_
    · rw [Device.laneRetract_mem, Device.laneRetract_mem, Device.emretLow]
    · rw [hpart, hpart, Device.emretLow]
      rfl
  refine ⟨?_, ?_, ?_, hbyte⟩
  · cases m
    · rw [Device.laneRetract_sv_other _ _ (by decide), Device.laneRetract_sv]
    · rw [Device.laneRetract_sv]
  · cases m
    · rw [Device.rd_of_word (f := PS_STATUS_ECAUSE .ln0) (Device.laneRetract_word_psStatus _ _ (by decide)), Device.laneRetract_rd_ecause _ _ hc]
    · rw [Device.laneRetract_rd_ecause _ _ hc]
  · rw [Device.laneRetract_ps, Device.laneRetract_ps]
    cases m <;> rfl

theorem Device.emergencyRetract_pin {cause : Nat} (h : d.retracting = false) :
    (d.emergencyRetract cause).emret = .low ∧ (d.emergencyRetract cause).emretCause = some cause := by
  have hbeside := d.emergencyRetract_beside cause h
  exact ⟨Device.emret_of_beside hbeside, Device.emretCause_of_beside hbeside⟩

/-! ### Commands -/

/-- A command refused. -/
theorem Device.svRefuse_eq (d : Device) (l : Lane) : d.svRefuse l = d.wr (SV_STATUS_REFUSED l) 1 := rfl

theorem svLoadEff_refuses (h : (d.sv l).st ≠ .parked ∨ d.atSpeed = false ∨ d.bit (PS_STATUS_UP l) = false) :
    svLoadEff l d = d.wr (SV_STATUS_REFUSED l) 1 := by
  refine if_neg ?_
  rintro ⟨hst, hspeed, hup⟩
  simp [hst, hspeed, hup] at h

/-- One head load more. -/
def Device.loadCounted (d : Device) : Device := { d with hnor := { d.hnor with headLoads := d.hnor.headLoads + 1 } }

theorem svLoadEff_loads (hst : (d.sv l).st = .parked) (hspeed : d.atSpeed = true) (hup : d.bit (PS_STATUS_UP l) = true) :
    svLoadEff l d = (d.loadCounted.svEnter l .load).updSv l fun s => { s with attempt := 1, loadFailed := false, idx := none } :=
  if_pos ⟨hst, hspeed, hup⟩

theorem svSeekEff_refuses (h : (d.sv l).st ∈ [SvState.off, .parked, .load, .unload, .retract, .fault]) : svSeekEff l d = d.wr (SV_STATUS_REFUSED l) 1 := by
  unfold svSeekEff
  cases hst : (d.sv l).st <;> simp [hst] at h <;> rfl

theorem Device.takeHead_same (h : d.rd (SV_STATUS_HEAD l) = d.rd (SV_TARGET_HEAD l)) : d.takeHead l = d := if_pos h

theorem svSeekEff_seeks (hst : (d.sv l).st ∈ [SvState.seek, .settle]) (hh : d.rd (SV_STATUS_HEAD l) = d.rd (SV_TARGET_HEAD l)) :
    svSeekEff l d = d.enterSeek l := by
  simp only [List.mem_cons, List.not_mem_nil, or_false] at hst
  obtain hst | hst := hst
  · simp only [svSeekEff, hst, Device.takeHead_same hh]
  · simp only [svSeekEff, hst, Device.takeHead_same hh]

theorem svSeekEff_recover (hst : (d.sv l).st = .recover) (hh : d.rd (SV_STATUS_HEAD l) = d.rd (SV_TARGET_HEAD l)) :
    svSeekEff l d = d.updSv l fun x => { x with tgt := d.svTarget l } := by
  simp only [svSeekEff, hst, Device.takeHead_same hh]

theorem svUnloadEff_refuses (h : (d.sv l).st ∈ [SvState.off, .parked, .load, .unload, .retract, .fault]) :
    svUnloadEff l d = d.wr (SV_STATUS_REFUSED l) 1 := by
  refine if_neg ?_
  simp only [List.mem_cons, List.not_mem_nil, or_false] at h
  rcases h with h | h | h | h | h | h <;> simp [h]

theorem svUnloadEff_unloads (h : (d.sv l).st ∈ [SvState.seek, .settle, .follow, .recover]) : svUnloadEff l d = d.enterUnload l false := by
  refine if_pos ?_
  simpa using h

theorem svEnEff_refuses (h : (d.sv l).st ∉ [SvState.off, .parked, .fault]) : svEnEff l false d = d.wr (SV_STATUS_REFUSED l) 1 := by
  simp only [List.mem_cons, List.not_mem_nil, or_false, not_or] at h
  obtain ⟨hoff, hparked, hfault⟩ := h
  rw [svEnEff, if_neg (by simp)]
  split
  · exact absurd ‹_› hoff
  · exact absurd ‹_› hparked
  · exact absurd ‹_› hfault
  · rfl

theorem svEnEff_off (h : (d.sv l).st ∈ [SvState.parked, .fault]) : svEnEff l false d = (d.wr (SV_CTRL_EN l) 0).svEnter l .off := by
  rw [svEnEff, if_neg (by simp)]
  simp only [List.mem_cons, List.not_mem_nil, or_false] at h
  obtain h | h := h
  · rw [h]
  · rw [h]

theorem svCalEff_refuses (h : d.bit (BE_STATUS_SLOT3 (.lane l)) = false) : svCalEff l true d = d.wr (SV_STATUS_REFUSED l) 1 := if_pos (by simp [h])

theorem svCalEff_takes (h : d.bit (BE_STATUS_SLOT3 (.lane l)) = true) : svCalEff l true d = d.wr (SV_CTRL_CAL l) 1 := if_neg (by simp [h])

/-- The servo's target written. -/
def Device.targetSet (d : Device) (l : Lane) (h t : Nat) : Device := (d.wr (SV_TARGET_HEAD l) h).wr (SV_TARGET_TRACK l) t

theorem Device.targetSet_sv (d : Device) (l : Lane) (h t : Nat) : (d.targetSet l h t).sv l = d.sv l := by
  rw [Device.targetSet, Device.sv_wr, Device.sv_wr]

theorem svTargetEff_elsewhere {h t : Nat} (hst : (d.sv l).st ≠ .follow) : svTargetEff l h t d = d.targetSet l h t := by
  refine if_neg fun hc => hst ?_
  rw [← hc.1, ← Device.targetSet, Device.targetSet_sv]

theorem Device.targetSet_track (d : Device) (l : Lane) (h : Nat) {t : Nat} (ht : t < 2 ^ (SV_TARGET_TRACK l).n) :
    (d.targetSet l h t).rd (SV_TARGET_TRACK l) = t := by
  rw [Device.targetSet, Device.rd_wr_same _ _ (by cases l <;> decide)]
  exact Nat.mod_eq_of_lt ht

theorem svTargetEff_follow {h t : Nat} (hst : (d.sv l).st = .follow) (ht : t < 2 ^ (SV_TARGET_TRACK l).n) (hne : d.rd (SV_TARGET_TRACK l) ≠ t) :
    svTargetEff l h t d = (d.targetSet l h t).enterSettle l := by
  refine if_pos ⟨?_, ?_⟩
  · rw [← Device.targetSet, Device.targetSet_sv, hst]
  · rw [← Device.targetSet, Device.targetSet_track _ _ _ ht]
    exact hne.symm

end Sys2Proof.Machine

open Sys2Proof Sys2Proof.Machine

/-- Settles O42: the table of acceptance state by state, over what a change of state and an emergency retract write. -/
theorem servoCommandsAreTakenOrRefused : Obligations.ServoCommandsAreTakenOrRefused := by
  refine ⟨?_, ?_, ?_, ?_, ?_, ?_, ?_, ?_, ?_, ?_, ?_, ?_, ?_, ?_, ?_, ?_⟩
  · intro s l h
    exact gives_eff (svLoadEff l) rfl (svLoadEff_refuses h)
  · intro s l hst hspeed hup
    refine givesThat_eff (svLoadEff l) rfl ?_
    have hst' : (s.dev.loadCounted.sv l).st ≠ .follow := by
      have hsv : s.dev.loadCounted.sv l = s.dev.sv l := by cases l <;> rfl
      rw [hsv, hst]
      decide
    rw [svLoadEff_loads hst hspeed hup, Device.svEnter_calm _ hst']
    obtain ⟨hcode, hint, -⟩ := s.dev.loadCounted.svShown_shows l .load
    rw [Device.updSv_same, Device.svShown_sv]
    refine ⟨rfl, rfl, (Device.rd_updSv _ _ _ _).trans hcode, (Device.rd_updSv _ _ _ _).trans hint, ?_, ?_⟩
    · rw [Device.updSv_hnor, Device.svShown, Device.wrB_hnor, Device.wr_hnor, Device.wr_hnor, Device.updSv_hnor, Device.loadCounted]
    · exact (s.dev.loadCounted.svShown_untouched l .load).of_regs (Device.updSv_regs _ _ _) (Device.updSv_mem _ _ _)
  · intro s l h
    exact gives_eff (svSeekEff l) rfl (svSeekEff_refuses h)
  · intro s l hst hh
    refine givesThat_eff (svSeekEff l) rfl ?_
    have hst' : (s.dev.sv l).st ≠ .follow := by
      rintro h
      simp [h] at hst
    rw [svSeekEff_seeks hst hh, Device.enterSeek, Device.svEnter_calm _ hst', Device.updSv_same, Device.svShown_sv]
    refine ⟨rfl, rfl, rfl, rfl, (Device.rd_updSv _ _ _ _).trans (s.dev.svShown_shows l .seek).1, ?_⟩
    exact (s.dev.svShown_untouched l .seek).of_regs (Device.updSv_regs _ _ _) (Device.updSv_mem _ _ _)
  · intro s l hst hh
    exact gives_eff (svSeekEff l) rfl (svSeekEff_recover hst hh)
  · intro s l h
    exact gives_eff (svUnloadEff l) rfl (svUnloadEff_refuses h)
  · intro s l h
    exact gives_eff (svUnloadEff l) rfl (svUnloadEff_unloads h)
  · intro s l h
    exact gives_eff (fun d => d.emergencyRetract 4) rfl (s.dev.emergencyRetract_again 4 h)
  · intro s l h
    refine givesThat_eff (fun d => d.emergencyRetract 4) rfl ?_
    obtain ⟨hsv0, hec0, -, hmem⟩ := Device.emergencyRetract_shows h (by decide : 4 < 16) .ln0
    obtain ⟨hsv1, hec1, -, -⟩ := Device.emergencyRetract_shows h (by decide : 4 < 16) .ln1
    obtain ⟨hpin, hcause⟩ := Device.emergencyRetract_pin (cause := 4) h
    exact ⟨hsv0, hsv1, hpin, hcause, hec0, hec1, hmem⟩
  · intro s l h
    exact gives_eff (svEnEff l false) rfl (svEnEff_refuses h)
  · intro s l h
    refine givesThat_eff (svEnEff l false) rfl ?_
    have hst' : ((s.dev.wr (SV_CTRL_EN l) 0).sv l).st ≠ .follow := by
      rw [Device.sv_wr]
      intro hf
      simp [hf] at h
    rw [svEnEff_off h, Device.svEnter_calm _ hst']
    refine ⟨by rw [Device.svShown_sv]; rfl, ?_, untouched_of (fun a ha => ?_) ?_ (by cases l <;> decide)⟩
    · rw [Device.rd_of_word (f := SV_CTRL_EN l) (Device.svShown_word _ _ _ (by cases l <;> decide) (by cases l <;> decide)),
        Device.rd_wr_same _ _ (by cases l <;> decide)]
      rfl
    · simp only [List.mem_cons, List.not_mem_nil, or_false, not_or] at ha
      obtain ⟨hctrl, hstat, hint⟩ := ha
      rw [Device.svShown_word _ _ _ hstat hint, Device.word_wr_other _ _ _ hctrl]
    · rw [Device.svShown_mem, Device.wr_mem]
  · intro s l hst hrun hps
    refine givesThat_eff (svEnEff l true) rfl ?_
    have hen : (s.dev.wr (SV_CTRL_EN l) 1).rd (SV_CTRL_EN l) = 1 := (Device.rd_wr_same _ _ (by cases l <;> decide)).trans rfl
    have hst' : ((s.dev.wr (SV_CTRL_EN l) 1).sv l).st = .off := by rw [Device.sv_wr, hst]
    have hwake : (s.dev.wr (SV_CTRL_EN l) 1).svWake l = (s.dev.wr (SV_CTRL_EN l) 1).svEnter l .parked :=
      if_pos ⟨hst', beq_iff_eq.2 hen, (Device.bit_wr_reg _ _ (by cases l <;> decide)).trans hrun, (Device.bit_wr_reg _ _ (by cases l <;> decide)).trans hps⟩
    rw [svEnEff, if_pos rfl, hwake, Device.svEnter_calm _ (by rw [hst']; decide)]
    refine ⟨by rw [Device.svShown_sv]; rfl, ?_, untouched_of (fun a ha => ?_) ?_ (by cases l <;> decide)⟩
    · rw [Device.rd_of_word (f := SV_CTRL_EN l) (Device.svShown_word _ _ _ (by cases l <;> decide) (by cases l <;> decide)), hen]
    · simp only [List.mem_cons, List.not_mem_nil, or_false, not_or] at ha
      obtain ⟨hctrl, hstat, hint⟩ := ha
      rw [Device.svShown_word _ _ _ hstat hint, Device.word_wr_other _ _ _ hctrl]
    · rw [Device.svShown_mem, Device.wr_mem]
  · intro s l h
    exact gives_eff (svCalEff l true) rfl (svCalEff_refuses h)
  · intro s l h
    exact gives_eff (svCalEff l true) rfl (svCalEff_takes h)
  · intro s l h t hst
    exact gives_eff (svTargetEff l h t) rfl (svTargetEff_elsewhere hst)
  · intro s l h t hst ht hne
    refine givesThat_eff (svTargetEff l h t) rfl ?_
    have htrack := s.dev.targetSet_track l h ht
    rw [svTargetEff_follow hst ht hne, Device.enterSettle, Device.updSv_same, Device.svEnter_sv, Device.targetSet_sv]
    refine ⟨rfl, rfl, ?_, ?_⟩
    · simp only [Device.svTarget, htrack]
      rfl
    · rw [Device.rd_updSv, Device.rd_of_word (f := SV_TARGET_TRACK l) (Device.svEnter_word _ _ _ (by cases l <;> decide)), htrack]

end

section
/-!
The servo's states and their limits, its wedges, the power-stage link and the cross-lane link (R244, R245, R255, R258, R259, R265, R266).
-/
namespace Sys2Proof.Machine

variable {d e : Device} {l : Lane}

/-! ### Changes of state -/

theorem Device.sv_log (d : Device) (src code : Nat) (ps : List Nat) (m : Lane) : (d.log src code ps).sv m = d.sv m := by
  rw [Device.sv, Device.lane_log, ← Device.sv]

/-- After a calm change of state and more of the servo's own state: what shows. -/
def Device.svEntered (d : Device) (l : Lane) (st : SvState) (f : SvSt → SvSt) : Device := (d.svShown l st).updSv l f

theorem Device.svEntered_sv (d : Device) (l : Lane) (st : SvState) (f : SvSt → SvSt) : (d.svEntered l st f).sv l = f ((d.sv l).entered st) := by
  rw [Device.svEntered, Device.updSv_same, Device.svShown_sv]

theorem Device.svEntered_word (d : Device) (l : Lane) (st : SvState) (f : SvSt → SvSt) {a : Nat} (h1 : a ≠ SV_STATUS l) (h2 : a ≠ SV_INT l) :
    (d.svEntered l st f).word a = d.word a := by
  rw [Device.svEntered, Device.word_updSv, Device.svShown_word _ _ _ h1 h2]

theorem Device.svEntered_mem (d : Device) (l : Lane) (st : SvState) (f : SvSt → SvSt) : (d.svEntered l st f).mem = d.mem := by
  rw [Device.svEntered, Device.updSv_mem, Device.svShown_mem]

theorem Device.enterUnload_calm (failed : Bool) (h : (d.sv l).st ≠ .follow) :
    d.enterUnload l failed = d.svEntered l .unload fun s => { s with loadFailed := failed } := by
  rw [Device.enterUnload, Device.svEnter_calm _ h, Device.svEntered]

theorem Device.enterRecover_calm (h : (d.sv l).st ≠ .follow) :
    d.enterRecover l = d.svEntered l .recover fun s => { s with recovers := s.recovers + 1 } := by
  rw [Device.enterRecover, Device.svEnter_calm _ h, Device.svEntered]

theorem Device.enterSettle_calm (h : (d.sv l).st ≠ .follow) :
    d.enterSettle l = d.svEntered l .settle fun s => { s with p0 := s.pmeas, tgt := d.svTarget l + s.offset * 2 ^ 16, k := 0 } := by
  rw [Device.enterSettle, Device.svEnter_calm _ h, Device.svEntered]

theorem Device.svEntered_log_untouched (d : Device) (l : Lane) (st : SvState) (f : SvSt → SvSt) (src code : Nat) (ps : List Nat) :
    Untouched [SV_STATUS l, SV_INT l, RG_LOGSTAT] d ((d.svEntered l st f).log src code ps) := by
  refine untouched_of (fun a ha => ?_) (by rw [Device.log_mem, Device.svEntered_mem]) (by cases l <;> decide)
  simp only [List.mem_cons, List.not_mem_nil, or_false, not_or] at ha
  obtain ⟨h1, h2, h3⟩ := ha
  rw [Device.log_word _ _ _ _ h3, Device.svEntered_word _ _ _ _ h1 h2]

/-- A change of state that also raises an interrupt of the servo's. -/
theorem Device.svEntered_wr_untouched (d : Device) (l : Lane) (st : SvState) (f : SvSt → SvSt) {g : RF} (v : Nat) (hg : g.reg = SV_INT l) :
    Untouched [SV_STATUS l, SV_INT l] d ((d.svEntered l st f).wr g v) := by
  refine untouched_of (fun a ha => ?_) (by rw [Device.wr_mem, Device.svEntered_mem]) (by cases l <;> decide)
  simp only [List.mem_cons, List.not_mem_nil, or_false, not_or] at ha
  rw [Device.word_wr_other _ _ _ (by rw [hg]; exact ha.2), Device.svEntered_word _ _ _ _ ha.1 ha.2]

theorem Device.svEntered_wr_log_untouched (d : Device) (l : Lane) (st : SvState) (f : SvSt → SvSt) {g : RF} (v src code : Nat) (ps : List Nat)
    (hg : g.reg = SV_INT l) : Untouched [SV_STATUS l, SV_INT l, RG_LOGSTAT] d (((d.svEntered l st f).wr g v).log src code ps) := by
  refine untouched_of (fun a ha => ?_) (by rw [Device.log_mem, Device.wr_mem, Device.svEntered_mem]) (by cases l <;> decide)
  simp only [List.mem_cons, List.not_mem_nil, or_false, not_or] at ha
  obtain ⟨h1, h2, h3⟩ := ha
  rw [Device.log_word _ _ _ _ h3, Device.word_wr_other _ _ _ (by rw [hg]; exact h2), Device.svEntered_word _ _ _ _ h1 h2]

theorem loadTimeoutEff_load (h : (d.sv l).st = .load) :
    loadTimeoutEff l d = (d.svEntered l .unload fun s => { s with loadFailed := true }).log l.src 0x3004 [(d.sv l).attempt] := by
  rw [loadTimeoutEff, if_pos h, Device.enterUnload_calm _ (by rw [h]; decide)]

theorem servoLostEff_lost (h : (d.sv l).st ∈ [SvState.seek, .settle]) (hm : d.rd (SV_DEMOD_MISSMAX l) ≤ d.rd (SV_STATUS_MISS l)) :
    servoLostEff l d = ((d.svEntered l .recover fun s => { s with recovers := s.recovers + 1 }).wr (SV_INT_LOST l) 1).log l.src 0x3001
      [d.rd (SV_STATUS_HEAD l), d.rd (SV_POS_TRACK l), d.rd (SV_STATUS_MISS l)] := by
  simp only [List.mem_cons, List.not_mem_nil, or_false] at h
  have hne : (d.sv l).st ≠ .follow := by
    rcases h with h | h <;> simp [h]
  rw [← Device.enterRecover_calm hne]
  exact if_pos ⟨h.elim .inl fun h => .inr (.inl h), hm⟩

theorem servoLostEff_kept (h : d.rd (SV_STATUS_MISS l) < d.rd (SV_DEMOD_MISSMAX l)) : servoLostEff l d = d :=
  if_neg fun hc => absurd hc.2 (Nat.not_le.2 h)

theorem seekEndEff_ends (h : (d.sv l).st = .seek) (hp : (d.sv l).profEnd = true) :
    seekEndEff l d = (d.svEntered l .settle fun s => { s with p0 := s.pmeas, tgt := d.svTarget l + s.offset * 2 ^ 16, k := 0 }).wr (SV_INT_SEEKEND l) 1 := by
  rw [seekEndEff, if_pos ⟨h, hp⟩, Device.enterSettle_calm (by rw [h]; decide)]

theorem settleEff_completes (h : (d.sv l).st = .settle) (hn : d.rd (SV_SOFT_NSOFT l) ≤ (d.sv l).k) (hs : d.rd (SV_SOFT_NSET l) ≤ (d.sv l).within_) :
    settleEff l d = (d.svEntered l .follow id).wr (SV_INT_ONTRACK l) 1 := by
  have hid : d.svShown l .follow = d.svEntered l .follow id := by cases l <;> rfl
  rw [← hid, ← Device.svEnter_calm _ (by rw [h]; decide)]
  exact if_pos ⟨h, hn, hs⟩

theorem recoverEff_reacquires (h : (d.sv l).st = .recover) (hc : 8 ≤ (d.sv l).consistent) (hr : (d.sv l).recovers < 4) :
    recoverEff l d = ((d.svEntered l .settle fun s => { s with p0 := s.pmeas, tgt := d.svTarget l + s.offset * 2 ^ 16, k := 0 }).wr
      (SV_INT_RECOVERED l) 1).log l.src 0x3002 [(d.sv l).since] := by
  rw [recoverEff, if_pos ⟨h, hc, hr⟩, Device.enterSettle_calm (by rw [h]; decide)]

theorem unloadStoppedEff_turning (h : d.rd (SV_STOP_STOP l) * 2 ^ 16 < (d.bemf l).natAbs) : unloadStoppedEff l d = d := if_pos (.inr h)

theorem unloadStoppedEff_stopped (hst : (d.sv l).st = .unload) (h : (d.bemf l).natAbs ≤ d.rd (SV_STOP_STOP l) * 2 ^ 16) :
    unloadStoppedEff l d =
      if !(d.sv l).loadFailed then d.svShown l .parked
      else if (d.sv l).attempt < 3 then d.svEntered l .load fun s => { s with attempt := s.attempt + 1, idx := none }
      else (d.svShown l .fault).log l.src 0x3005 := by
  have hne : (d.sv l).st ≠ .follow := by rw [hst]; decide
  rw [unloadStoppedEff, if_neg (not_or.2 ⟨not_not.2 hst, Nat.not_lt.2 h⟩), Device.svEnter_calm _ hne, Device.svEnter_calm _ hne, Device.svEnter_calm _ hne, Device.svEntered]

/-! ### Wedges -/

variable {w : WedgeRd} {n : Nat}

theorem Device.wedgeGood_wr_period (d : Device) (l : Lane) (w : WedgeRd) (n : Nat) :
    (d.wr (SV_PERIOD_PERIOD l) n).wedgeGood l w = d.wedgeGood l w := by
  unfold Device.wedgeGood Device.wedgeSound Device.searching Device.nextIdx Device.predTrack Device.wedges
  rw [Device.sv_wr, Device.rd_wr_reg _ _ (by cases l <;> decide), Device.rd_wr_reg _ _ (by cases l <;> decide),
    Device.rd_wr_reg _ _ (by cases l <;> decide)]

theorem Device.pickWedge_alone (d : Device) (l : Lane) (w : WedgeRd) : d.pickWedge l w none = (w, 0, !d.wedgeGood l w, false) := by
  simp only [Device.pickWedge, ite_self]

theorem Device.countSettle_elsewhere (h : (d.sv l).st ≠ .settle) : d.countSettle l = d := by
  rw [Device.countSettle, if_pos h]

theorem Device.countWedge_idle (h : ∀ q ∈ laneSeqs l, (d.ec q).op = none) : d.countWedge l = d := by
  unfold Device.countWedge
  refine List.foldlRecOn (motive := fun e => e = d) _ _ rfl fun e he q hq => ?_
  rw [he, h q hq]

theorem Device.pesCheck_elsewhere (h : (d.sv l).st ≠ .follow) : d.pesCheck l = (d.updSv l fun s => { s with pesOk := 0 }).pesInhibit l := by
  rw [Device.pesCheck, if_pos h]

theorem Device.startOrHold_off {pesb : Int} (h : d.bit (BE_CTRL_RUN (.lane l)) = false) : d.startOrHold l pesb = d := by
  rw [Device.startOrHold, if_pos (by simp [h])]

theorem Device.substituted_none (d : Device) (l : Lane) : d.substituted l false = d := if_pos rfl

/-- A wedge of the one reader: it is taken, counted, held to the write-fault threshold, and the sample starts. -/
theorem wedgeEff_one (hh : d.held1 l = false) :
    wedgeEff l w none n d =
      (((((d.wr (SV_PERIOD_PERIOD l) n).takeWedge l w 0 (!d.wedgeGood l w)).countSettle l).countWedge l).pesCheck l).startOrHold l
        ((d.wr (SV_PERIOD_PERIOD l) n).pesB l none) := by
  rw [wedgeEff, if_neg (by simp [hh])]
  extract_lets e pesb
  have hgood : e.wedgeGood l w = d.wedgeGood l w := d.wedgeGood_wr_period l w n
  rw [Device.pickWedge_alone, hgood]
  dsimp only
  rw [Device.substituted_none]

/-- The sample after its wedge, where none is searched and no operation runs: the PES source stands, and the engine's RUN is off. -/
theorem wedgeEff_alone (hh : d.held1 l = false) {t : Device}
    (ht : (d.wr (SV_PERIOD_PERIOD l) n).takeWedge l w 0 (!d.wedgeGood l w) = t) (hst : (t.sv l).st = .seek)
    (hrun : d.bit (BE_CTRL_RUN (.lane l)) = false) (hword : t.word (BE_CTRL (.lane l)) = d.word (BE_CTRL (.lane l)))
    (hops : ∀ q ∈ laneSeqs l, (t.ec q).op = none) :
    wedgeEff l w none n d = (t.updSv l fun s => { s with pesOk := 0 }).pesInhibit l := by
  have hoff : ((t.updSv l fun s => { s with pesOk := 0 }).pesInhibit l).bit (BE_CTRL_RUN (.lane l)) = false := by
    have hkeep := (Device.halted_pesInhibit (t.updSv l fun s => { s with pesOk := 0 }) l).word (BE_CTRL (.lane l)) (by cases l <;> decide)
    rw [← hrun, Device.bit, Device.rd_of_word (f := BE_CTRL_RUN (.lane l)) (hkeep.trans ((Device.word_updSv _ _ _ _).trans hword)), ← Device.bit]
  rw [wedgeEff_one hh, ht, Device.countSettle_elsewhere (by rw [hst]; decide), Device.countWedge_idle hops,
    Device.pesCheck_elsewhere (by rw [hst]; decide), Device.startOrHold_off hoff]

/-- What a good wedge writes: its PES and its place. -/
def Device.wedgeRead (d : Device) (l : Lane) (w : WedgeRd) (pes : Int) : Device :=
  (d.wrI (SV_PES_PES l) pes).wrAll [(SV_POS_TRACK l, w.track), (SV_STATUS_MISS l, 0)]

theorem Device.takeWedge_good {p : Int} (hp : pesOf w (d.rdI (SV_PGAIN_PGAIN l (d.rd (SV_STATUS_HEAD l)))) = some p) :
    ∃ f : SvSt → SvSt, d.takeWedge l w 0 false = (d.wedgeRead l w p).updSv l f ∧
      ∀ s, (f s).st = s.st ∧ (f s).bad = false ∧ (f s).idx = some w.idx ∧ (f s).pmeas = 2 ^ 24 * (w.track : Int) + p / 2 ^ 7 := by
  simp only [Device.takeWedge, Device.pesValue, hp, Bool.false_and, Bool.false_eq_true, if_false, Int.add_zero]
  exact ⟨_, rfl, fun s => ⟨rfl, rfl, rfl, rfl⟩⟩

theorem Device.takeWedge_bad (d : Device) (l : Lane) (w : WedgeRd) :
    ∃ f : SvSt → SvSt, d.takeWedge l w 0 true = (d.incSat (SV_STATUS_MISS l)).updSv l f ∧ ∀ s, (f s).st = s.st ∧ (f s).bad = true := by
  simp only [Device.takeWedge, if_true]
  exact ⟨_, rfl, fun s => ⟨rfl, rfl⟩⟩

theorem Device.wedgeRead_shows (d : Device) (l : Lane) {w : WedgeRd} {p : Int} (hp : qMin ≤ p ∧ p ≤ qMax) (ht : w.track < 2 ^ (SV_POS_TRACK l).n) :
    (d.wedgeRead l w p).rdI (SV_PES_PES l) = p ∧ (d.wedgeRead l w p).rd (SV_POS_TRACK l) = w.track ∧ (d.wedgeRead l w p).rd (SV_STATUS_MISS l) = 0 := by
  simp only [Device.wedgeRead, Device.wrAll, List.foldl_cons, List.foldl_nil]
  refine ⟨?_, ?_, ?_⟩
  · rw [Device.rdI, Device.rd_wr_reg _ _ (by cases l <;> decide), Device.rd_wr_reg _ _ (by cases l <;> decide)]
    exact Device.rdI_wrI_q d (f := SV_PES_PES l) rfl rfl hp.1 hp.2
  · rw [Device.rd_wr_reg _ _ (by cases l <;> decide), Device.rd_wr_same _ _ (by cases l <;> decide)]
    exact Nat.mod_eq_of_lt ht
  · rw [Device.rd_wr_same _ _ (by cases l <;> decide)]
    rfl

theorem Device.wedgeRead_lane (d : Device) (l : Lane) (w : WedgeRd) (p : Int) (m : Lane) : (d.wedgeRead l w p).lane m = d.lane m := by
  rw [Device.wedgeRead, Device.lane_wrAll, Device.lane_wrI]

theorem Device.wedgeRead_word (d : Device) (l : Lane) (w : WedgeRd) (p : Int) {a : Nat} (ha : a ∉ [SV_PES l, SV_POS l, SV_STATUS l]) :
    (d.wedgeRead l w p).word a = d.word a := by
  simp only [List.mem_cons, List.not_mem_nil, or_false, not_or] at ha
  obtain ⟨h1, h2, h3⟩ := ha
  rw [Device.wedgeRead, Device.word_wrAll _ _ (by simp [h2, h3, SV_POS_TRACK, SV_STATUS_MISS])]
  exact Device.word_wr_other _ _ _ h1

theorem pesOf_range {g p : Int} (h : pesOf w g = some p) : qMin ≤ p ∧ p ≤ qMax := by
  unfold pesOf at h
  simp only at h
  split_ifs at h
  all_goals exact Option.some.inj h ▸ satQ_range _

theorem Device.ec_of_lane (h : ∀ m, e.lane m = d.lane m) (q : SeqId) : e.ec q = d.ec q := by
  obtain ⟨k, b⟩ := q
  cases b <;> simp only [Device.ec, h]

theorem Device.ec_updSv (d : Device) (l : Lane) (f : SvSt → SvSt) (q : SeqId) : (d.updSv l f).ec q = d.ec q := by
  obtain ⟨k, b⟩ := q
  cases k <;> cases b <;> cases l <;> rfl

/-! ### The power-stage link -/

/-- A link error counted. -/
def Device.psCounted (d : Device) (l : Lane) : Device :=
  (((d.incSat (PS_STATUS_ERRCNT l)).wr (SV_INT_PSERR l) 1).logRate l.src 0x3009 0).updPs l fun p => { p with errs := (d.ps l).errs + 1 }

/-- A link fault shown. -/
def Device.psFaulted (d : Device) (l : Lane) : Device := ((d.updPs l fun p => { p with fault := true, rearmed := false }).psUp l).log l.src 0x300A

theorem Device.psCounted_ps (d : Device) (l : Lane) : (d.psCounted l).ps l = { d.ps l with errs := (d.ps l).errs + 1 } := by
  rw [Device.psCounted, Device.updPs_same, Device.ps, Device.lane_logRate, Device.lane_wr, Device.lane_incSat, ← Device.ps]

theorem Device.sv_updPs (d : Device) (l : Lane) (f : PsSt → PsSt) (m : Lane) : (d.updPs l f).sv m = d.sv m := by
  cases l <;> cases m <;> rfl

theorem Device.psCounted_sv (d : Device) (l m : Lane) : (d.psCounted l).sv m = d.sv m := by
  rw [Device.psCounted, Device.sv_updPs, Device.sv, Device.lane_logRate, Device.lane_wr, Device.lane_incSat, ← Device.sv]

theorem Device.psCounted_word (d : Device) (l : Lane) {a : Nat} (ha : a ∉ [PS_STATUS l, SV_INT l, RG_LOGSTAT]) : (d.psCounted l).word a = d.word a := by
  simp only [List.mem_cons, List.not_mem_nil, or_false, not_or] at ha
  obtain ⟨h1, h2, h3⟩ := ha
  rw [Device.psCounted, Device.word_updPs, Device.logRate_word _ _ _ _ _ h3, Device.word_wr_other _ _ _ h2, Device.incSat, Device.word_wr_other _ _ _ h1]

theorem Device.psCounted_mem (d : Device) (l : Lane) : (d.psCounted l).mem = d.mem := by
  rw [Device.psCounted, Device.updPs_mem, Device.logRate_mem, Device.wr_mem, Device.incSat_mem]

theorem Device.psError_few (h : (d.ps l).errs < 2) : d.psError l = d.psCounted l := if_pos (.inl (by omega))

theorem Device.psError_third (h : (d.ps l).errs = 2) (hf : (d.ps l).fault = false) :
    d.psError l = if (((d.psCounted l).psFaulted l).sv l).st.loaded then ((d.psCounted l).psFaulted l).emergencyRetract l.retractCause
      else (d.psCounted l).psFaulted l := by
  have hfault : ((d.psCounted l).ps l).fault = false := by rw [Device.psCounted_ps, hf]
  refine if_neg ?_
  rintro (hn | hn)
  · omega
  · rw [← Device.psCounted, hfault] at hn
    exact absurd hn (by decide)

theorem psReturnEff_bad {x : Nat} (hen : d.bit (PS_CTRL_EN l) = true) (hst : (d.sv l).st ≠ .retract) (hc : crc8 (x - bitsOf x 0 8) ≠ bitsOf x 0 8) :
    psReturnEff l x d = d.psError l := by
  rw [psReturnEff, if_neg (by simp [hen, hst]), if_pos (.inl hc)]

theorem Device.psUp_ps (d : Device) (l m : Lane) : (d.psUp l).ps m = d.ps m := by rw [Device.psUp, Device.wrB, Device.ps_wr]

theorem Device.psUp_rd (d : Device) (l : Lane) : (d.psUp l).rd (PS_STATUS_UP l) = if (d.bit (PS_CTRL_EN l) && !(d.ps l).fault) then 1 else 0 := by
  rw [Device.psUp, Device.wrB, Device.rd_wr_same _ _ (by cases l <;> decide)]
  split <;> rfl

theorem Device.psFaulted_shows (d : Device) (l : Lane) :
    ((d.psFaulted l).ps l).fault = true ∧ (d.psFaulted l).rd (PS_STATUS_UP l) = 0 ∧ (d.psFaulted l).sv l = d.sv l := by
  have hps : ((d.psFaulted l).ps l) = { d.ps l with fault := true, rearmed := false } := by
    rw [Device.psFaulted, Device.ps, Device.lane_log, ← Device.ps, Device.psUp_ps, Device.updPs_same]
  refine ⟨by rw [hps], ?_, ?_⟩
  · rw [Device.psFaulted, Device.rd_log _ _ _ _ (by cases l <;> decide), Device.psUp_rd, Device.updPs_same, if_neg (by simp)]
  · rw [Device.psFaulted, Device.sv_log, Device.psUp, Device.wrB, Device.sv_wr, Device.sv_updPs]

theorem Device.logRate_emretCause (d : Device) (src code scope : Nat) (ps : List Nat) : (d.logRate src code scope ps).emretCause = d.emretCause := by
  obtain ⟨k, x, he | he⟩ := d.logRate_cases src code scope ps
  · rw [he]
    exact Device.logRaw_emretCause _ _ _ _ _ _
  · rw [he]

theorem Device.psFaulted_retracting (d : Device) (l : Lane) : ((d.psCounted l).psFaulted l).retracting = d.retracting := by
  rw [Device.retracting, Device.psFaulted, Device.log_emretCause, Device.psUp, Device.wrB_emretCause, Device.updPs_emretCause, Device.psCounted,
    Device.updPs_emretCause, Device.logRate_emretCause, Device.wr_emretCause, Device.incSat_emretCause, ← Device.retracting]

/-- A lane's retract leaves the fields of the link's status but the cause. -/
theorem Device.laneRetract_rd_psStatus (d : Device) (l m : Lane) (cause : Nat) {g : RF} (hr : g.reg = PS_STATUS m) (hlo : 4 ≤ g.lo) :
    (d.laneRetract l cause).rd g = d.rd g := by
  rw [Device.rd_of_word (f := g) (d.laneRetract_word l cause (by rw [hr]; exact psStatus_notMem_haltRegs m))]
  by_cases hml : m = l
  · subst hml
    exact Device.rd_wr_bits _ _ (.inr hlo)
  · refine Device.rd_wr_reg _ _ ?_
    rw [hr]
    cases l <;> cases m
    · exact absurd rfl hml
    · decide
    · decide
    · exact absurd rfl hml

theorem Device.emergencyRetract_rd_psStatus {cause : Nat} (h : d.retracting = false) (m : Lane) {g : RF} (hr : g.reg = PS_STATUS m) (hlo : 4 ≤ g.lo) :
    (d.emergencyRetract cause).rd g = d.rd g := by
  rw [Device.emergencyRetract_eq cause h, Device.laneRetract_rd_psStatus _ _ m _ hr hlo, Device.laneRetract_rd_psStatus _ _ m _ hr hlo]
  rfl

/-- A good return frame's readings taken. -/
def Device.psTaken (d : Device) (l : Lane) (x : Nat) : Device :=
  d.updPs l fun p => { p with errs := 0, ivcm := toSigned 16 (bitsOf x 24 16) * 2 ^ 16, vvcm := toSigned 16 (bitsOf x 8 16) * 2 ^ 16
                              fault := p.fault && !p.rearmed, rearmed := false }

theorem psReturnEff_good {x : Nat} (hen : d.bit (PS_CTRL_EN l) = true) (hst : (d.sv l).st ≠ .retract) (hc : crc8 (x - bitsOf x 0 8) = bitsOf x 0 8)
    (hs : bitsOf x 40 4 = (d.ps l).seq) (hz : bitsOf x 44 4 = 0) : psReturnEff l x d = ((d.psTaken l x).psUp l).wr (PS_STATUS_FLAGS l) 0 := by
  rw [psReturnEff, if_neg (by simp [hen, hst]), if_neg (by simp [hc, hs]), hz]
  simp only [Device.psFlags, Nat.zero_testBit, if_true, Bool.false_eq_true, if_false, Bool.false_and, Bool.or_self]
  rfl

/-- The lane's link carries zero frames. -/
def Device.psIdle (d : Device) (l : Lane) : Prop := d.bit (PS_CTRL_EN l) = true ∧ (d.sv l).st ∈ [SvState.off, .parked, .fault]

theorem psIdle_test (h : (d.sv l).st ∈ [SvState.off, .parked, .fault]) :
    ((d.sv l).st == .off || (d.sv l).st == .parked || (d.sv l).st == .fault) = true := by
  simp only [List.mem_cons, List.not_mem_nil, or_false] at h
  rcases h with h | h | h <;> simp [h]

theorem psBusy_test (h : (d.sv l).st ∉ [SvState.off, .parked, .fault]) :
    ((d.sv l).st == .off || (d.sv l).st == .parked || (d.sv l).st == .fault) = false := by
  simp only [List.mem_cons, List.not_mem_nil, or_false, not_or] at h
  simp [h]

theorem psKeepEff_idle (h : d.psIdle l) (ht : d.twoLane = false) :
    psKeepEff l d = (d.psSend l 5 0 0).updPs l fun p => { p with vcm := 0, ma := 0 } := by
  obtain ⟨hen, hst⟩ := h
  have htwo : ((d.psSend l 5 0 0).updPs l fun p => { p with vcm := 0, ma := 0 }).twoLane = false := by
    rw [← ht, Device.twoLane, Device.rd_updPs, Device.psSend, Device.rd_emit, Device.rd_updPs]
    rfl
  rw [psKeepEff, if_neg (by simp [hen, psIdle_test hst])]
  exact if_pos (by simp [htwo])

theorem Device.psSend_out (d : Device) (l : Lane) (type hi lo : Nat) :
    (d.psSend l type hi lo).out = d.out ++ [.psFrame l (psWord type (((d.ps l).seq + 1) % 16) hi lo)] := by
  rw [Device.psSend, Device.emit, Device.updPs_out]

theorem Device.psSend_regs (d : Device) (l : Lane) (type hi lo : Nat) : (d.psSend l type hi lo).regs = d.regs := by
  rw [Device.psSend, Device.emit_regs, Device.updPs_regs]

theorem Device.psSend_mem (d : Device) (l : Lane) (type hi lo : Nat) : (d.psSend l type hi lo).mem = d.mem := by
  rw [Device.psSend, Device.emit_mem, Device.updPs_mem]

/-- A configuration frame asked for. -/
def Device.psCfgAsked (d : Device) (l : Lane) (a x r : Nat) : Device := ((d.wr (PS_CFG_ADDR l) a).wr (PS_CFG_DATA l) x).wr (PS_CFG_REFUSED l) r

theorem Device.psCfgAsked_word (d : Device) (l : Lane) (a x r : Nat) {k : Nat} (h : k ≠ PS_CFG l) : (d.psCfgAsked l a x r).word k = d.word k := by
  rw [Device.psCfgAsked, Device.word_wr_other _ _ _ h, Device.word_wr_other _ _ _ h, Device.word_wr_other _ _ _ h]

theorem Device.psCfgAsked_frame (d : Device) (l : Lane) (a x r : Nat) :
    (d.psCfgAsked l a x r).out = d.out ∧ (d.psCfgAsked l a x r).mem = d.mem ∧ (d.psCfgAsked l a x r).ps l = d.ps l := by
  refine ⟨?_, ?_, ?_⟩
  · rw [Device.psCfgAsked, Device.wr_out, Device.wr_out, Device.wr_out]
  · rw [Device.psCfgAsked, Device.wr_mem, Device.wr_mem, Device.wr_mem]
  · rw [Device.psCfgAsked, Device.ps_wr, Device.ps_wr, Device.ps_wr]

theorem Device.psCfgAsked_rd (d : Device) (l : Lane) (a x : Nat) {r : Nat} (h : r < 2) : (d.psCfgAsked l a x r).rd (PS_CFG_REFUSED l) = r := by
  rw [Device.psCfgAsked, Device.rd_wr_same _ _ (by cases l <;> decide)]
  exact Nat.mod_eq_of_lt h

theorem psCfgEff_sends {a x : Nat} (h : d.psIdle l) : psCfgEff l a x d = (d.psCfgAsked l a x 0).psSend l 9 (a % 256 * 256) x := by
  obtain ⟨hen, hst⟩ := h
  have hen' : ((d.wr (PS_CFG_ADDR l) a).wr (PS_CFG_DATA l) x).bit (PS_CTRL_EN l) = true := by
    rw [Device.bit_wr_reg _ _ (by cases l <;> decide), Device.bit_wr_reg _ _ (by cases l <;> decide), hen]
  rw [psCfgEff]
  exact if_neg (by simp [hen', psIdle_test hst])

theorem psCfgEff_refuses {a x : Nat} (h : (d.sv l).st ∉ [SvState.off, .parked, .fault]) : psCfgEff l a x d = d.psCfgAsked l a x 1 := by
  rw [psCfgEff]
  exact if_pos (by simp [psBusy_test h])

/-- The link enabled anew. -/
def Device.psEnabled (d : Device) (l : Lane) : Device :=
  ((d.wrB (PS_CTRL_EN l) true).updPs l fun p => { p with seq := 15, errs := 0, maFault := false, rearmed := true }).psUp l

theorem Device.sv_psEnabled (d : Device) (l : Lane) : (d.psEnabled l).sv l = d.sv l := by
  rw [Device.psEnabled, Device.psUp, Device.wrB, Device.sv_wr, Device.sv_updPs, Device.wrB, Device.sv_wr]

theorem psEnEff_on (h : (d.sv l).st ≠ .off) : psEnEff l true d = d.psEnabled l :=
  Device.svWake_on (d := d.psEnabled l) l (by rwa [Device.sv_psEnabled])

/-! ### The cross-lane link -/

theorem xoutEff_none (h : (d.be (.lane l.other)).xsent = none) : xoutEff l d = d := by
  simp only [xoutEff, h]

/-- A value taken off the cross-lane link. -/
def Device.xoutTaken (d : Device) (l : Lane) : Device := d.updBe (.lane l.other) fun b => { b with xsent := none }

theorem xoutEff_arrives {v : Int} (h : (d.be (.lane l.other)).xsent = some v) (ht : d.twoLane = true) (hu : d.bit (ELK_STATUS_UP l) = true) :
    xoutEff l d = ((d.xoutTaken l).updBe (.lane l) fun b => { b with xnew := some v }).wr (BE_STATUS_XSTALE (.lane l)) 0 := by
  have ht' : (d.xoutTaken l).twoLane = true := by
    rw [← ht, Device.twoLane, Device.xoutTaken, Device.rd_updBe]
    rfl
  have hu' : (d.xoutTaken l).bit (ELK_STATUS_UP l) = true := by rw [Device.xoutTaken, Device.bit_updBe, hu]
  simp only [xoutEff, h]
  rw [← Device.xoutTaken]
  exact if_neg (by simp [ht', hu'])

theorem Device.be_updBe_other (d : Device) (l : Lane) (f : BeSt → BeSt) : (d.updBe (.lane l) f).be (.lane l.other) = d.be (.lane l.other) := by
  cases l <;> rfl

/-- The value of the other lane gone stale. -/
def Device.xinDropped (d : Device) (l : Lane) : Device :=
  ((d.updBe (.lane l) fun b => { b with xnew := none }).wrAll
    [(BE_STATUS_XSTALE (.lane l), 1), (BE_INT_XSTALE (.lane l), 1), (BE_XIN_XIN (.lane l), 0)]).logRate l.src 0x3006 0

theorem xinStaleEff_fresh (h : d.twoLane = false ∨ d.bit (BE_STATUS_XSTALE (.lane l)) = true) : xinStaleEff l d = d := by
  refine if_pos ?_
  obtain h | h := h
  · simp [h]
  · simp [h]

theorem xinStaleEff_drops (ht : d.twoLane = true) (h : d.bit (BE_STATUS_XSTALE (.lane l)) = false) : xinStaleEff l d = d.xinDropped l :=
  if_neg (by simp [ht, h])

theorem Device.xinDropped_shows (d : Device) (l : Lane) :
    ((d.xinDropped l).be (.lane l)).xnew = none ∧ (d.xinDropped l).rd (BE_STATUS_XSTALE (.lane l)) = 1 ∧
      (d.xinDropped l).rd (BE_INT_XSTALE (.lane l)) = 1 ∧ (d.xinDropped l).rdI (BE_XIN_XIN (.lane l)) = 0 := by
  refine ⟨?_, ?_, ?_, ?_⟩
  · rw [Device.xinDropped, Device.be_logRate, Device.be_wrAll, Device.updBe_same]
  all_goals
    simp only [Device.xinDropped, Device.rdI, Device.wrAll, List.foldl_cons, List.foldl_nil]
    cases l <;> simp (disch := decide) only [Device.rd_logRate, Device.rd_wr_reg, Device.rd_wr_same] <;> rfl

theorem Device.xinDropped_word (d : Device) (l : Lane) {a : Nat} (ha : a ∉ [BE_STATUS (.lane l), BE_INT (.lane l), BE_XIN (.lane l), RG_LOGSTAT]) :
    (d.xinDropped l).word a = d.word a := by
  simp only [List.mem_cons, List.not_mem_nil, or_false, not_or] at ha
  obtain ⟨h1, h2, h3, h4⟩ := ha
  rw [Device.xinDropped, Device.logRate_word _ _ _ _ _ h4,
    Device.word_wrAll _ _ (by simp [h1, h2, h3, BE_STATUS_XSTALE, BE_INT_XSTALE, BE_XIN_XIN]), Device.word_updBe]

theorem Device.xinDropped_mem (d : Device) (l : Lane) : (d.xinDropped l).mem = d.mem := by
  rw [Device.xinDropped, Device.logRate_mem, Device.wrAll_mem, Device.updBe_mem]

end Sys2Proof.Machine

open Sys2Proof Sys2Proof.Machine

/-- Settles O43: each change by its condition, a wedge by what it writes before the PES source stands, the links by their frames. -/
theorem servoStatesAndWedges : Obligations.ServoStatesAndWedges := by
  refine ⟨?_, ?_, ?_, ?_, ?_, ?_, ?_, ?_, ?_, ?_, ?_, ?_, ?_, ?_, ?_, ?_, ?_, ?_, ?_, ?_, ?_, ?_, ?_, ?_, ?_, ?_, ?_, ?_, ?_, ?_, ?_, ?_, ?_, ?_, ?_⟩
  · intro s l h
    refine gives_eff (loadAcquiredEff l) rfl (if_neg fun hc => ?_)
    obtain h | h := h
    · exact h hc.1
    · omega
  · intro s l hst hc
    exact gives_eff (loadAcquiredEff l) rfl (if_pos ⟨hst, hc⟩)
  · intro s l h
    refine givesThat_eff (loadTimeoutEff l) rfl ?_
    rw [loadTimeoutEff_load h, Device.sv_log, Device.svEntered_sv]
    exact ⟨rfl, rfl, s.dev.svEntered_log_untouched l _ _ _ _ _⟩
  · intro s l h hm
    refine givesThat_eff (servoLostEff l) rfl ?_
    rw [servoLostEff_lost h hm, Device.sv_log, Device.sv_wr, Device.svEntered_sv]
    refine ⟨rfl, rfl, ?_, s.dev.svEntered_wr_log_untouched l _ _ _ _ _ _ rfl⟩
    rw [Device.rd_log _ _ _ _ (by cases l <;> decide), Device.rd_wr_same _ _ (by cases l <;> decide)]
    rfl
  · intro s l h
    exact gives_eff (servoLostEff l) rfl (servoLostEff_kept h)
  · intro s l h hp
    refine givesThat_eff (seekEndEff l) rfl ?_
    rw [seekEndEff_ends h hp, Device.sv_wr, Device.svEntered_sv]
    refine ⟨rfl, rfl, rfl, ?_, s.dev.svEntered_wr_untouched l _ _ _ rfl⟩
    rw [Device.rd_wr_same _ _ (by cases l <;> decide)]
    rfl
  · intro s l h
    exact gives_eff (seekEndEff l) rfl (if_neg (by simp [h]))
  · intro s l h hn hs
    refine givesThat_eff (settleEff l) rfl ?_
    rw [settleEff_completes h hn hs, Device.sv_wr, Device.svEntered_sv]
    refine ⟨rfl, rfl, ?_, ?_, s.dev.svEntered_wr_untouched l _ _ _ rfl⟩
    · rw [Device.rd_wr_reg _ _ (by cases l <;> decide), Device.svEntered, Device.rd_updSv, (s.dev.svShown_shows l .follow).2.2]
      rfl
    · rw [Device.rd_wr_same _ _ (by cases l <;> decide)]
      rfl
  · intro s l h
    exact gives_eff (settleEff l) rfl (if_neg fun hc => absurd hc.2.2 (Nat.not_le.2 h))
  · intro s l h hs
    exact gives_eff (settleTimeoutEff l) rfl (if_pos ⟨h, hs⟩)
  · intro s l h
    exact gives_eff (settleTimeoutEff l) rfl (if_neg fun hc => absurd hc.2 (Nat.not_le.2 h))
  · intro s l h hc hr
    refine givesThat_eff (recoverEff l) rfl ?_
    rw [recoverEff_reacquires h hc hr, Device.sv_log, Device.sv_wr, Device.svEntered_sv]
    refine ⟨rfl, ?_, rfl, s.dev.svEntered_wr_log_untouched l _ _ _ _ _ _ rfl⟩
    rw [Device.rd_log _ _ _ _ (by cases l <;> decide), Device.rd_wr_same _ _ (by cases l <;> decide)]
    rfl
  · intro s l h
    exact gives_eff (recoverEff l) rfl (if_neg fun hc => absurd hc.2.2 (Nat.not_lt.2 h))
  · intro s l h hc
    exact gives_eff (recoverTimeoutEff l) rfl (if_pos ⟨h, hc⟩)
  · intro s l h
    exact gives_eff (unloadTimeoutEff l) rfl (if_pos h)
  · intro s l h
    exact gives_eff (unloadStoppedEff l) rfl (unloadStoppedEff_turning h)
  · intro s l hst hb hf
    refine givesThat_eff (unloadStoppedEff l) rfl ?_
    rw [unloadStoppedEff_stopped hst hb, if_pos (by simp [hf]), Device.svShown_sv]
    exact ⟨rfl, s.dev.svShown_untouched l .parked⟩
  · intro s l hst hb hf ha
    refine givesThat_eff (unloadStoppedEff l) rfl ?_
    rw [unloadStoppedEff_stopped hst hb, if_neg (by simp [hf]), if_pos ha, Device.svEntered_sv]
    exact ⟨rfl, rfl⟩
  · intro s l hst hb hf ha
    refine givesThat_eff (unloadStoppedEff l) rfl ?_
    rw [unloadStoppedEff_stopped hst hb, if_neg (by simp [hf]), if_neg (Nat.not_lt.2 ha), Device.sv_log, Device.svShown_sv]
    rfl
  · intro s l w b n h
    exact gives_eff (wedgeEff l w b n) rfl (if_pos h)
  · intro s l w n hh hg hp hrun ht hops hst
    obtain ⟨p, hp⟩ := Option.ne_none_iff_exists'.1 hp
    have hp' : pesOf w ((s.dev.wr (SV_PERIOD_PERIOD l) n).rdI
        (SV_PGAIN_PGAIN l ((s.dev.wr (SV_PERIOD_PERIOD l) n).rd (SV_STATUS_HEAD l)))) = some p := by
      rw [← hp, Device.rd_wr_reg _ _ (by cases l <;> decide), Device.rdI, Device.rd_wr_reg _ _ (by cases l <;> simp only [SV_PGAIN_PGAIN, SV_PGAIN, SV_PERIOD_PERIOD, SV_PERIOD] <;> omega)]
      rfl
    obtain ⟨f, hf, hfs⟩ := Device.takeWedge_good hp'
    have hlane : ∀ m, ((s.dev.wr (SV_PERIOD_PERIOD l) n).wedgeRead l w p).lane m = s.dev.lane m := fun m => by
      rw [Device.wedgeRead_lane, Device.lane_wr]
    have hsv : ((s.dev.wr (SV_PERIOD_PERIOD l) n).wedgeRead l w p).sv l = s.dev.sv l := by rw [Device.sv, hlane, ← Device.sv]
    obtain ⟨hfst, hbad, hidx, hpm⟩ := hfs (s.dev.sv l)
    obtain ⟨hpes, hpos, hmiss⟩ := (s.dev.wr (SV_PERIOD_PERIOD l) n).wedgeRead_shows l (pesOf_range hp) ht
    refine givesThat_eff (wedgeEff l w none n) rfl ?_
    rw [wedgeEff_alone (t := ((s.dev.wr (SV_PERIOD_PERIOD l) n).wedgeRead l w p).updSv l f) hh (by rw [hg]; exact hf) (by rw [Device.updSv_same, hsv, hfst, hst]) hrun
      (by rw [Device.word_updSv, Device.wedgeRead_word _ _ _ _ (by cases l <;> decide), Device.word_wr_other _ _ _ (by cases l <;> decide)])
      fun q hq => by rw [Device.ec_updSv, Device.ec_of_lane hlane, hops q hq]]
    have hhalt := Device.halted_pesInhibit ((((s.dev.wr (SV_PERIOD_PERIOD l) n).wedgeRead l w p).updSv l f).updSv l fun x => { x with pesOk := 0 }) l
    have hrdpes : ((((((s.dev.wr (SV_PERIOD_PERIOD l) n).wedgeRead l w p).updSv l f).updSv l fun x => { x with pesOk := 0 }).pesInhibit l)).rdI
        (SV_PES_PES l) = p := by
      rw [Device.rdI, Device.rd_of_word (f := SV_PES_PES l) (hhalt.word _ (by cases l <;> decide)), Device.rd_updSv, Device.rd_updSv, ← Device.rdI, hpes]
    refine ⟨by rw [hrdpes, hp], ?_, ?_, ?_, ?_, ?_⟩
    · rw [Device.rd_of_word (f := SV_POS_TRACK l) (hhalt.word _ (by cases l <;> decide)), Device.rd_updSv, Device.rd_updSv, hpos]
    · rw [hhalt.miss l, Device.rd_updSv, Device.rd_updSv, hmiss]
    · rw [hhalt.sv l, Device.updSv_same, Device.updSv_same, hsv, hbad]
    · rw [hhalt.sv l, Device.updSv_same, Device.updSv_same, hsv, hidx]
    · rw [hrdpes, hhalt.sv l, Device.updSv_same, Device.updSv_same, hsv, hpm]
  · intro s l w n hh hg hrun hops hst
    obtain ⟨f, hf, hfs⟩ := (s.dev.wr (SV_PERIOD_PERIOD l) n).takeWedge_bad l w
    have hlane : ∀ m, ((s.dev.wr (SV_PERIOD_PERIOD l) n).incSat (SV_STATUS_MISS l)).lane m = s.dev.lane m := fun m => by
      rw [Device.lane_incSat, Device.lane_wr]
    have hsv : ((s.dev.wr (SV_PERIOD_PERIOD l) n).incSat (SV_STATUS_MISS l)).sv l = s.dev.sv l := by rw [Device.sv, hlane, ← Device.sv]
    obtain ⟨hfst, hbad⟩ := hfs (s.dev.sv l)
    have hword : ∀ a, a ≠ SV_PERIOD l → a ≠ SV_STATUS l → ((s.dev.wr (SV_PERIOD_PERIOD l) n).incSat (SV_STATUS_MISS l)).word a = s.dev.word a :=
      fun a h1 h2 => by rw [Device.incSat, Device.word_wr_other _ _ _ h2, Device.word_wr_other _ _ _ h1]
    refine givesThat_eff (wedgeEff l w none n) rfl ?_
    rw [wedgeEff_alone (t := ((s.dev.wr (SV_PERIOD_PERIOD l) n).incSat (SV_STATUS_MISS l)).updSv l f) hh (by rw [hg]; exact hf) (by rw [Device.updSv_same, hsv, hfst, hst]) hrun
      (by rw [Device.word_updSv, hword _ (by cases l <;> decide) (by cases l <;> decide)])
      fun q hq => by rw [Device.ec_updSv, Device.ec_of_lane hlane, hops q hq]]
    have hhalt := Device.halted_pesInhibit ((((s.dev.wr (SV_PERIOD_PERIOD l) n).incSat (SV_STATUS_MISS l)).updSv l f).updSv l fun x => { x with pesOk := 0 }) l
    refine ⟨?_, ?_, ?_, ?_⟩
    · rw [Device.rdI, Device.rd_of_word (f := SV_PES_PES l) (hhalt.word _ (by cases l <;> decide)), Device.rd_updSv, Device.rd_updSv,
        Device.rd_of_word (f := SV_PES_PES l) (hword _ (by cases l <;> decide) (by cases l <;> decide))]
      rfl
    · rw [Device.rd_of_word (f := SV_POS_TRACK l) (hhalt.word _ (by cases l <;> decide)), Device.rd_updSv, Device.rd_updSv,
        Device.rd_of_word (f := SV_POS_TRACK l) (hword _ (by cases l <;> decide) (by cases l <;> decide))]
    · rw [hhalt.miss l, Device.rd_updSv, Device.rd_updSv, Device.rd_incSat_same _ _ (by cases l <;> decide),
        Device.rd_wr_reg _ _ (by cases l <;> decide)]
    · rw [hhalt.sv l, Device.updSv_same, Device.updSv_same, hsv, hbad]
  · intro s l w h
    exact gives_eff (psReturnEff l w) rfl (if_pos (by simp [h]))
  · intro s l w hen hst hc hs hz hf
    refine givesThat_eff (psReturnEff l w) rfl ?_
    rw [psReturnEff_good hen hst hc hs hz, Device.ps_wr, Device.psUp_ps, Device.psTaken, Device.updPs_same]
    refine ⟨rfl, rfl, rfl, ?_, ?_, untouched_of (fun a ha => ?_) ?_ (by cases l <;> decide)⟩
    · rw [Device.rd_wr_bits _ _ (by cases l <;> decide), Device.psUp_rd, Device.bit_updPs, hen, Device.updPs_same, hf]
      rfl
    · rw [Device.rd_wr_same _ _ (by cases l <;> decide)]
      rfl
    · have hne := List.ne_of_not_mem_cons ha
      rw [Device.word_wr_other _ _ _ hne, Device.psUp, Device.wrB, Device.word_wr_other _ _ _ hne, Device.word_updPs]
    · rw [Device.wr_mem, Device.psUp, Device.wrB_mem, Device.updPs_mem]
  · intro s l w hen hst hc hn
    refine givesThat_eff (psReturnEff l w) rfl ?_
    rw [psReturnEff_bad hen hst hc, Device.psError_few hn, Device.psCounted_ps, Device.psCounted_sv]
    refine ⟨rfl, rfl, ?_, rfl, untouched_of (fun a ha => s.dev.psCounted_word l ha) (s.dev.psCounted_mem l) (by cases l <;> decide)⟩
    rw [Device.psCounted, Device.rd_updPs, Device.rd_logRate _ _ _ _ _ (by cases l <;> decide), Device.rd_wr_same _ _ (by cases l <;> decide)]
    rfl
  · intro s l w hen hst hc hn hf hr
    refine givesThat_eff (psReturnEff l w) rfl ?_
    obtain ⟨hfault, hup, hsv⟩ := (s.dev.psCounted l).psFaulted_shows l
    have hload : (((s.dev.psCounted l).psFaulted l).sv l).st.loaded = true := by rw [hsv, Device.psCounted_sv, hst]; rfl
    have hr' := (s.dev.psFaulted_retracting l).trans hr
    have hcause : l.retractCause < 16 := by cases l <;> decide
    obtain ⟨hsv', -, hps, -⟩ := Device.emergencyRetract_shows hr' hcause l
    rw [psReturnEff_bad hen (by rw [hst]; decide) hc, Device.psError_third hn hf, if_pos hload]
    exact ⟨by rw [hps, hfault], (Device.emergencyRetract_rd_psStatus hr' l rfl (by cases l <;> decide)).trans hup, hsv', (Device.emergencyRetract_pin hr').2⟩
  · intro s l hen hst ht
    refine givesThat_eff (psKeepEff l) rfl ?_
    rw [psKeepEff_idle ⟨hen, hst⟩ ht, Device.updPs_same]
    refine ⟨?_, rfl, rfl, untouched_of_regs ?_ ?_⟩
    · rw [Device.updPs_out, Device.psSend_out]
    · rw [Device.updPs_regs, Device.psSend_regs]
    · rw [Device.updPs_mem, Device.psSend_mem]
  · intro s l h
    exact gives_eff (psKeepEff l) rfl (if_pos (by simp [h]))
  · intro s l a x hen hst
    obtain ⟨hout, hmem, hps⟩ := s.dev.psCfgAsked_frame l a x 0
    refine givesThat_eff (psCfgEff l a x) rfl ?_
    rw [psCfgEff_sends ⟨hen, hst⟩, Device.psSend_out, hout, hps]
    refine ⟨rfl, ?_, untouched_of (fun k hk => ?_) ((Device.psSend_mem _ _ _ _ _).trans hmem) (by cases l <;> decide)⟩
    · rw [Device.rd_congr (Device.psSend_regs _ _ _ _ _), Device.psCfgAsked_rd _ _ _ _ (by decide)]
    · rw [Device.word_congr (Device.psSend_regs _ _ _ _ _), Device.psCfgAsked_word _ _ _ _ _ (List.ne_of_not_mem_cons hk)]
  · intro s l a x hst
    obtain ⟨hout, hmem, -⟩ := s.dev.psCfgAsked_frame l a x 1
    refine givesThat_eff (psCfgEff l a x) rfl ?_
    rw [psCfgEff_refuses hst]
    exact ⟨hout, s.dev.psCfgAsked_rd l a x (by decide),
      untouched_of (fun k hk => s.dev.psCfgAsked_word l a x 1 (List.ne_of_not_mem_cons hk)) hmem (by cases l <;> decide)⟩
  · intro s l hst
    refine givesThat_eff (psEnEff l true) rfl ?_
    have hps : (s.dev.psEnabled l).ps l = { s.dev.ps l with seq := 15, errs := 0, maFault := false, rearmed := true } := by
      rw [Device.psEnabled, Device.psUp_ps, Device.updPs_same, Device.wrB, Device.ps_wr]
    have hen : (s.dev.wrB (PS_CTRL_EN l) true).rd (PS_CTRL_EN l) = 1 := (Device.rd_wr_same _ _ (by cases l <;> decide)).trans rfl
    rw [psEnEff_on hst, hps]
    refine ⟨?_, rfl, rfl, rfl, ?_, untouched_of (fun a ha => ?_) ?_ (by cases l <;> decide)⟩
    · rw [Device.psEnabled, Device.psUp, Device.wrB, Device.rd_wr_reg _ _ (by cases l <;> decide), Device.rd_updPs, hen]
    · rw [Device.bit, Device.psEnabled, Device.psUp_rd, Device.bit_updPs, Device.bit, hen, Device.updPs_same, Device.wrB, Device.ps_wr]
      cases (s.dev.ps l).fault <;> rfl
    · simp only [List.mem_cons, List.not_mem_nil, or_false, not_or] at ha
      rw [Device.psEnabled, Device.psUp, Device.wrB, Device.word_wr_other _ _ _ ha.2, Device.word_updPs, Device.wrB, Device.word_wr_other _ _ _ ha.1]
    · rw [Device.psEnabled, Device.psUp, Device.wrB_mem, Device.updPs_mem, Device.wrB_mem]
  · intro s l h
    exact gives_eff (xoutEff l) rfl (xoutEff_none h)
  · intro s l v h ht hu
    refine givesThat_eff (xoutEff l) rfl ?_
    rw [xoutEff_arrives h ht hu, Device.be_wr, Device.be_wr, Device.updBe_same, Device.be_updBe_other, Device.xoutTaken, Device.updBe_same]
    refine ⟨rfl, rfl, ?_, untouched_of (fun a ha => ?_) ?_ (by cases l <;> decide)⟩
    · rw [Device.rd_wr_same _ _ (by cases l <;> decide)]
      rfl
    · rw [Device.word_wr_other _ _ _ (List.ne_of_not_mem_cons ha), Device.word_updBe, Device.word_updBe]
    · rw [Device.wr_mem, Device.updBe_mem, Device.updBe_mem]
  · intro s l h
    exact gives_eff (xinStaleEff l) rfl (xinStaleEff_fresh h)
  · intro s l ht h
    refine givesThat_eff (xinStaleEff l) rfl ?_
    rw [xinStaleEff_drops ht h]
    obtain ⟨hx, hst, hint, hxin⟩ := s.dev.xinDropped_shows l
    exact ⟨hx, hst, hint, hxin, untouched_of (fun a ha => s.dev.xinDropped_word l ha) (s.dev.xinDropped_mem l) (by cases l <;> decide)⟩

end

section
/-!
Frames step by step: an effect that writes registers of a list, and no memory, leaves everything else.
-/
namespace Sys2Proof.Machine

variable {rs : List Nat} {d e : Device}

/-- Between two devices, registers of a list alone have changed, and no memory. -/
structure Device.Frame (rs : List Nat) (d e : Device) : Prop where
  word : ∀ a, a ∉ rs → e.word a = d.word a
  mem : e.mem = d.mem

namespace Device.Frame

theorem refl (rs : List Nat) (d : Device) : Frame rs d d := ⟨fun _ _ => rfl, rfl⟩

theorem trans {f : Device} (h : Frame rs d e) (h' : Frame rs e f) : Frame rs d f :=
  ⟨fun a ha => (h'.word a ha).trans (h.word a ha), h'.mem.trans h.mem⟩

theorem mono {rs' : List Nat} (h : Frame rs d e) (hs : ∀ a ∈ rs, a ∈ rs') : Frame rs' d e := ⟨fun a ha => h.word a fun hr => ha (hs a hr), h.mem⟩

theorem untouched (h : Frame rs d e) (hp : CB_SRAMPART ∉ rs) : Untouched rs d e := untouched_of h.word h.mem hp

theorem rd (h : Frame rs d e) (f : RF) (hf : f.reg ∉ rs) : e.rd f = d.rd f := Device.rd_of_word (h.word _ hf)

/-- The registers and memory are the same: what changed is elsewhere. -/
theorem same {f : Device} (h : Frame rs d e) (hr : f.regs = e.regs) (hm : f.mem = e.mem) : Frame rs d f :=
  ⟨fun a ha => (Device.word_congr hr a).trans (h.word a ha), hm.trans h.mem⟩

theorem wr (h : Frame rs d e) (f : RF) (v : Nat) (hf : f.reg ∈ rs) : Frame rs d (e.wr f v) :=
  ⟨fun a ha => (e.word_wr_other f v (ne_of_mem_of_not_mem hf ha).symm).trans (h.word a ha), (e.wr_mem f v).trans h.mem⟩

theorem wrI (h : Frame rs d e) (f : RF) (v : Int) (hf : f.reg ∈ rs) : Frame rs d (e.wrI f v) := h.wr f _ hf

theorem wrB (h : Frame rs d e) (f : RF) (b : Bool) (hf : f.reg ∈ rs) : Frame rs d (e.wrB f b) := h.wr f _ hf

theorem incSat (h : Frame rs d e) (f : RF) (k : Nat) (hf : f.reg ∈ rs) : Frame rs d (e.incSat f k) := h.wr f _ hf

theorem wrAll (h : Frame rs d e) (fs : List (RF × Nat)) (hf : ∀ p ∈ fs, p.1.reg ∈ rs) : Frame rs d (e.wrAll fs) :=
  List.foldlRecOn (motive := Frame rs d) fs _ h fun _ he p hp => he.wr p.1 p.2 (hf p hp)

theorem log (h : Frame rs d e) (src code : Nat) (ps : List Nat) (hl : RG_LOGSTAT ∈ rs) : Frame rs d (e.log src code ps) :=
  ⟨fun a ha => (e.log_word src code ps (ne_of_mem_of_not_mem hl ha).symm).trans (h.word a ha), (e.log_mem src code ps).trans h.mem⟩

theorem logRate (h : Frame rs d e) (src code scope : Nat) (ps : List Nat) (hl : RG_LOGSTAT ∈ rs) : Frame rs d (e.logRate src code scope ps) :=
  ⟨fun a ha => (e.logRate_word src code scope ps (ne_of_mem_of_not_mem hl ha).symm).trans (h.word a ha),
    (e.logRate_mem src code scope ps).trans h.mem⟩

theorem emit (h : Frame rs d e) (o : Output) : Frame rs d (e.emit o) := h.same (e.emit_regs o) (e.emit_mem o)

theorem updSpin (h : Frame rs d e) (f : SpinSt → SpinSt) : Frame rs d (e.updSpin f) := h.same (e.updSpin_regs f) (e.updSpin_mem f)

theorem updHost (h : Frame rs d e) (f : HostSt → HostSt) : Frame rs d (e.updHost f) := h.same (e.updHost_regs f) (e.updHost_mem f)

theorem updPower (h : Frame rs d e) (f : Power → Power) : Frame rs d (e.updPower f) := h.same (e.updPower_regs f) (e.updPower_mem f)

theorem updEc (h : Frame rs d e) (q : SeqId) (f : EcSt → EcSt) : Frame rs d (e.updEc q f) := h.same (e.updEc_regs q f) (e.updEc_mem q f)

theorem updOp (h : Frame rs d e) (q : SeqId) (f : EcOp → EcOp) : Frame rs d (e.updOp q f) := h.same (e.updOp_regs q f) (e.updOp_mem q f)

theorem updWr (h : Frame rs d e) (l : Lane) (f : WrSt → WrSt) : Frame rs d (e.updWr l f) := h.same (e.updWr_regs l f) (e.updWr_mem l f)

theorem updSv (h : Frame rs d e) (l : Lane) (f : SvSt → SvSt) : Frame rs d (e.updSv l f) := h.same (e.updSv_regs l f) (e.updSv_mem l f)

theorem updBe (h : Frame rs d e) (b : BEng) (f : BeSt → BeSt) : Frame rs d (e.updBe b f) := h.same (e.updBe_regs b f) (e.updBe_mem b f)

/-- One of two ends. -/
theorem ite {c : Prop} [Decidable c] {f : Device} (h : Frame rs d e) (h' : Frame rs d f) : Frame rs d (if c then e else f) := by
  split
  · exact h
  · exact h'

end Device.Frame

end Sys2Proof.Machine
end

section
/-!
The spindle's operations: a state's entry, the chopper, the deceleration, the numbers whose rounding is free (R271 to R297).
-/
namespace Sys2Proof.Machine

variable {d e : Device}

/-! ### Free roundings -/

/-- Only the supply of free values has moved on. -/
def Device.FreshOnly (d e : Device) : Prop := ∃ k, e = { d with fresh := k }

theorem Device.FreshOnly.refl (d : Device) : d.FreshOnly d := ⟨d.fresh, rfl⟩

theorem Device.takeFree_freshOnly (d : Device) (n : Nat) : d.FreshOnly (d.takeFree n).2 := ⟨_, rfl⟩

theorem Device.divFree_freshOnly (d : Device) (n m : Int) : d.FreshOnly (d.divFree n m).2 := by
  unfold Device.divFree
  split_ifs
  · exact d.takeFree_freshOnly 32
  · exact .refl d
  · exact d.takeFree_freshOnly 1

theorem Device.measRpm_freshOnly (d : Device) : d.FreshOnly d.measRpm.2 := d.divFree_freshOnly _ _

theorem Device.electrical_freshOnly (d : Device) (x : Int) (u : Nat) : d.FreshOnly (d.electrical x u).2 := d.divFree_freshOnly _ _

namespace Device.FreshOnly

theorem regs (h : d.FreshOnly e) : e.regs = d.regs := by
  obtain ⟨k, rfl⟩ := h
  rfl

theorem mem (h : d.FreshOnly e) : e.mem = d.mem := by
  obtain ⟨k, rfl⟩ := h
  rfl

theorem spin (h : d.FreshOnly e) : e.spin = d.spin := by
  obtain ⟨k, rfl⟩ := h
  rfl

theorem rd (h : d.FreshOnly e) (f : RF) : e.rd f = d.rd f := Device.rd_congr h.regs f

theorem frame (h : d.FreshOnly e) (rs : List Nat) : Device.Frame rs d e := (Device.Frame.refl rs d).same h.regs h.mem

end Device.FreshOnly

/-! ### A state's entry -/

/-- The spindle after its change of state. -/
def SpinSt.entered (s : SpinSt) (st : SpState) : SpinSt :=
  { s with
    st := st
    first := true
    lomega := 0
    duty := if st.active then s.duty else []
    shadow := if st.active then s.shadow else none
    prevOmega := if st.active then s.prevOmega else none
    stopped := if st.active then false else s.stopped }

theorem Device.spEnter_eq (d : Device) (st : SpState) :
    d.spEnter st = ((d.updSpin fun s => s.entered st).wr SP_STATUS_STATE st.code).wr SP_INT_STATE 1 := rfl

@[simp] theorem Device.spEnter_spin (d : Device) (st : SpState) : (d.spEnter st).spin = d.spin.entered st := by
  rw [Device.spEnter_eq, Device.wr_spin, Device.wr_spin, Device.updSpin_spin]

theorem Device.spEnter_chron (d : Device) (st : SpState) : (d.spEnter st).chron = d.chron := by
  rw [Device.spEnter_eq, Device.wr_chron, Device.wr_chron, Device.updSpin_chron]

theorem Device.spEnter_out (d : Device) (st : SpState) : (d.spEnter st).out = d.out := by
  rw [Device.spEnter_eq, Device.wr_out, Device.wr_out, Device.updSpin_out]

theorem Device.spEnter_emretCause (d : Device) (st : SpState) : (d.spEnter st).emretCause = d.emretCause := by
  rw [Device.spEnter_eq, Device.wr_emretCause, Device.wr_emretCause, Device.updSpin_emretCause]

theorem Device.rd_spEnter_state (d : Device) (st : SpState) : (d.spEnter st).rd SP_STATUS_STATE = st.code := by
  rw [Device.spEnter_eq, Device.rd_wr_reg _ _ (by decide), Device.rd_wr_same _ _ (by decide)]
  cases st <;> rfl

/-- The other fields of the spindle's status and interrupt, and every other register, are as before a change of state. -/
theorem Device.rd_spEnter_status (d : Device) (st : SpState) {g : RF} (hr : g.reg = SP_STATUS) (hb : g.lo + g.n ≤ 28) : (d.spEnter st).rd g = d.rd g := by
  rw [Device.spEnter_eq, Device.rd_wr_reg _ _ (by rw [hr]; decide), Device.rd_wr_bits _ _ (.inl hb), Device.rd_updSpin]

theorem Device.rd_spEnter_int (d : Device) (st : SpState) {g : RF} (hr : g.reg = SP_INT) (hb : 1 ≤ g.lo) : (d.spEnter st).rd g = d.rd g := by
  rw [Device.spEnter_eq, Device.rd_wr_bits _ _ (.inr (by exact hb)), Device.rd_wr_reg _ _ (by rw [hr]; decide), Device.rd_updSpin]

theorem Device.rd_spEnter_other (d : Device) (st : SpState) {g : RF} (h1 : g.reg ≠ SP_STATUS) (h2 : g.reg ≠ SP_INT) : (d.spEnter st).rd g = d.rd g := by
  rw [Device.spEnter_eq, Device.rd_wr_reg _ _ h2, Device.rd_wr_reg _ _ h1, Device.rd_updSpin]

theorem Device.Frame.spEnter {rs : List Nat} (h : Device.Frame rs d e) (st : SpState) (h1 : SP_STATUS ∈ rs) (h2 : SP_INT ∈ rs) :
    Device.Frame rs d (e.spEnter st) :=
  ((h.updSpin _).wr _ _ h1).wr _ _ h2

/-! ### BRK_G, attempts, the deceleration -/

theorem Device.brkOff_eq (d : Device) : d.brkOff = (d.wr SP_STATUS_CHOPON 0).updSpin fun s => { s with brkRef := none } := rfl

theorem Device.brkOff_spin (d : Device) : d.brkOff.spin = { d.spin with brkRef := none } := by rw [Device.brkOff_eq, Device.updSpin_spin, Device.wr_spin]

theorem Device.rd_brkOff (d : Device) : d.brkOff.rd SP_STATUS_CHOPON = 0 := by
  rw [Device.brkOff_eq, Device.rd_updSpin, Device.rd_wr_same _ _ (by decide)]
  rfl

theorem Device.Frame.brkOff {rs : List Nat} (h : Device.Frame rs d e) (h1 : SP_STATUS ∈ rs) : Device.Frame rs d e.brkOff := (h.wr _ _ h1).updSpin _

theorem Device.Frame.chopFault {rs : List Nat} (h : Device.Frame rs d e) (h1 : SP_STATUS ∈ rs) (h2 : SP_INT ∈ rs) : Device.Frame rs d e.chopFault :=
  ((h.brkOff h1).wr _ _ h1).wr _ _ h2

/-- A faulty chopper is off and shows it. -/
theorem Device.chopFault_shows (d : Device) : d.chopFault.rd SP_STATUS_CHOPF = 1 ∧ d.chopFault.rd SP_STATUS_CHOPON = 0 ∧ d.chopFault.rd SP_INT_CHOPF = 1 := by
  simp (disch := decide) only [Device.chopFault, Device.rd_wr_reg, Device.rd_wr_bits, Device.rd_wr_same, Device.rd_brkOff]
  exact ⟨rfl, trivial, rfl⟩

theorem Device.chopFault_spin (d : Device) : d.chopFault.spin = { d.spin with brkRef := none } := by
  rw [Device.chopFault, Device.wr_spin, Device.wr_spin, Device.brkOff_spin]

/-- A faulty chopper and its event. -/
theorem Device.chopFault_log (d : Device) (code : Nat) (ps : List Nat) :
    (d.chopFault.log 7 code ps).rd SP_STATUS_CHOPF = 1 ∧ (d.chopFault.log 7 code ps).rd SP_STATUS_CHOPON = 0 ∧
      (d.chopFault.log 7 code ps).rd SP_INT_CHOPF = 1 ∧ Device.Frame spRegs d (d.chopFault.log 7 code ps) := by
  obtain ⟨hf, hon, hint⟩ := d.chopFault_shows
  refine ⟨?_, ?_, ?_, ((Device.Frame.refl _ d).chopFault (by decide) (by decide)).log _ _ _ (by decide)⟩
  · rw [Device.rd_log _ _ _ _ (by decide), hf]
  · rw [Device.rd_log _ _ _ _ (by decide), hon]
  · rw [Device.rd_log _ _ _ _ (by decide), hint]

theorem Device.decelStart_spin (d : Device) : d.decelStart.spin = { d.spin with decelAt := some d.chron.chr } := by
  rw [Device.decelStart, Device.updSpin_spin]

theorem Device.decelKeep_spin (d : Device) :
    d.decelKeep.spin = { d.spin with decelAt := if d.spin.decelAt = none then some d.chron.chr else d.spin.decelAt } := by
  by_cases h : d.spin.decelAt = none
  · rw [if_pos h, Device.decelKeep, if_neg (by simp [h]), Device.decelStart_spin]
  · rw [if_neg h, Device.decelKeep, if_pos (Option.isSome_iff_ne_none.2 h)]

theorem Device.decelKeep_regs (d : Device) : d.decelKeep.regs = d.regs := by
  unfold Device.decelKeep
  split
  · rfl
  · exact Device.updSpin_regs _ _

theorem Device.decelKeep_mem (d : Device) : d.decelKeep.mem = d.mem := by
  unfold Device.decelKeep
  split
  · rfl
  · exact Device.updSpin_mem _ _

theorem Device.decelKeep_out (d : Device) : d.decelKeep.out = d.out := by
  unfold Device.decelKeep
  split
  · rfl
  · exact Device.updSpin_out _ _

theorem Device.decelKeep_emretCause (d : Device) : d.decelKeep.emretCause = d.emretCause := by
  unfold Device.decelKeep
  split
  · rfl
  · exact Device.updSpin_emretCause _ _

theorem Device.Frame.decelKeep {rs : List Nat} (h : Device.Frame rs d e) : Device.Frame rs d e.decelKeep := h.same e.decelKeep_regs e.decelKeep_mem

theorem Device.decelRecord_none (h : d.spin.decelAt = none) : d.decelRecord = d := by
  simp only [Device.decelRecord, h]

/-- The time of a deceleration stored. -/
def Device.decelStored (d : Device) (ms : Nat) : Device :=
  (d.updSpin fun s => { s with decelAt := none }).wrAll [(SP_DECEL_MS, ms), (SP_INT_DECEL_DONE, 1)]

theorem Device.decelRecord_some {t : Nat} (h : d.spin.decelAt = some t) (hlt : (d.chron.chr - t) / 1000 < 2 ^ 32) :
    ∃ ps, d.decelRecord = (d.decelStored ((d.chron.chr - t) / 1000)).log 7 0x3111 ps := by
  have hmin : min ((d.chron.chr - t) / 1000) (2 ^ 32 - 1) = (d.chron.chr - t) / 1000 := Nat.min_eq_left (by omega)
  simp only [Device.decelRecord, h, hmin]
  exact ⟨_, rfl⟩

theorem Device.decelStored_shows (d : Device) {ms : Nat} (h : ms < 2 ^ 32) :
    (d.decelStored ms).rd SP_DECEL_MS = ms ∧ (d.decelStored ms).rd SP_INT_DECEL_DONE = 1 := by
  simp only [Device.decelStored, Device.wrAll, List.foldl_cons, List.foldl_nil]
  refine ⟨?_, ?_⟩
  · rw [Device.rd_wr_reg _ _ (by decide), Device.rd_wr_same _ _ (by decide)]
    exact Nat.mod_eq_of_lt h
  · rw [Device.rd_wr_same _ _ (by decide)]
    rfl

theorem Device.decelStored_spin (d : Device) (ms : Nat) : (d.decelStored ms).spin = { d.spin with decelAt := none } := by
  obtain ⟨r, hr⟩ := Device.wrAll_regsOnly (d.updSpin fun s => { s with decelAt := none }) [(SP_DECEL_MS, ms), (SP_INT_DECEL_DONE, 1)]
  rw [Device.decelStored, hr]
  rfl

theorem Device.Frame.decelStored {rs : List Nat} (h : Device.Frame rs d e) (ms : Nat) (h1 : SP_DECEL ∈ rs) (h2 : SP_INT ∈ rs) :
    Device.Frame rs d (e.decelStored ms) :=
  (h.updSpin _).wrAll _ (by simp [h1, h2, SP_DECEL_MS, SP_INT_DECEL_DONE])

theorem Device.startAttempt_spin (d : Device) : d.startAttempt.spin =
    { d.spin.entered .start with step := .align, stepN := 0, first := true, omega := 0, dtheta := 0, moved := 0, movedMin := 0 } := by
  rw [Device.startAttempt, Device.updSpin_spin, Device.spEnter_spin]

theorem Device.Frame.startAttempt {rs : List Nat} (h : Device.Frame rs d e) (h1 : SP_STATUS ∈ rs) (h2 : SP_INT ∈ rs) :
    Device.Frame rs d e.startAttempt :=
  (h.spEnter _ h1 h2).updSpin _

theorem Device.runFromSpeed_eq (d : Device) : d.runFromSpeed = d.rampHere.2.runFrom d.rampHere.1 := rfl

theorem Device.rampHere_freshOnly (d : Device) : d.FreshOnly d.rampHere.2 := d.divFree_freshOnly _ _

theorem Device.Frame.runFromSpeed {rs : List Nat} (h : Device.Frame rs d e) (h1 : SP_STATUS ∈ rs) (h2 : SP_INT ∈ rs) :
    Device.Frame rs d e.runFromSpeed := by
  rw [Device.runFromSpeed_eq, Device.runFrom]
  exact ((h.trans (e.rampHere_freshOnly.frame rs)).spEnter _ h1 h2).updSpin _

theorem Device.runFromSpeed_spin (d : Device) : d.runFromSpeed.spin.st = .run := by
  rw [Device.runFromSpeed_eq, Device.runFrom, Device.updSpin_spin, Device.spEnter_spin]
  rfl

theorem Device.rd_runFromSpeed (d : Device) : d.runFromSpeed.rd SP_STATUS_STATE = 4 := by
  rw [Device.runFromSpeed_eq, Device.runFrom, Device.rd_updSpin, Device.rd_spEnter_state]
  rfl

/-- A failure of the inputs while gates are active. -/
theorem Device.spInputFault_active (ch check : Nat) (h : d.spin.st.active = true) : d.spInputFault ch check = (d.spEnter .coast).log 7 0x3116 [ch, check] := by
  rw [Device.spInputFault, if_pos h]

theorem Device.spInputFault_idle (ch check : Nat) (h : d.spin.st.active = false) : d.spInputFault ch check = d.log 7 0x3116 [ch, check] := by
  rw [Device.spInputFault, if_neg (by simp [h])]

/-- COAST entered and logged: gates off. -/
theorem Device.coasted (d : Device) (src code : Nat) (ps : List Nat) :
    ((d.spEnter .coast).log src code ps).spin.st = .coast ∧ ((d.spEnter .coast).log src code ps).spin.duty = [] ∧
      Device.Frame spRegs d ((d.spEnter .coast).log src code ps) := by
  rw [Device.log_spin, Device.spEnter_spin]
  exact ⟨rfl, rfl, ((Device.Frame.refl _ d).spEnter _ (by decide) (by decide)).log _ _ _ (by decide)⟩

end Sys2Proof.Machine
end

section
/-!
Starting the spindle, its supply watch and the chopper's checks (R281 to R295).
-/
namespace Sys2Proof.Machine

variable {d e : Device}

/-! ### Shared facts -/

theorem Device.wrAll_pair (d : Device) (f g : RF) (v w : Nat) : d.wrAll [(f, v), (g, w)] = (d.wr f v).wr g w := rfl

theorem Device.FreshOnly.wrI (h : d.FreshOnly e) (rs : List Nat) (f : RF) (v : Int) (hf : f.reg ∈ rs) : Device.Frame rs d (e.wrI f v) :=
  (h.frame rs).wrI f v hf

theorem Device.rd_enter_log (d : Device) (st : SpState) (src code : Nat) (ps : List Nat) :
    ((d.spEnter st).log src code ps).rd SP_STATUS_STATE = st.code := by
  rw [Device.rd_log _ _ _ _ (by decide), Device.rd_spEnter_state]

theorem Device.retracting_congr (h : e.emretCause = d.emretCause) : e.retracting = d.retracting := by rw [Device.retracting, Device.retracting, h]

theorem Sparse.cnt_setCnt_same (t : List (Nat × Nat)) (k n : Nat) : Sparse.cnt (Sparse.setCnt t k n) k = n := by
  rw [Sparse.cnt, Sparse.setCnt, Sparse.get_put_same]

/-! ### The listen -/

/-- The listen's speed and class stored. -/
def Device.listened (d : Device) (v : Int) (c : Nat) : Device := (d.wrI SP_LISTEN_LSPEED v).wr SP_STATUS_LCLASS c

theorem Device.rd_listened (d : Device) (v : Int) {c : Nat} (hc : c < 4) : (d.listened v c).rd SP_STATUS_LCLASS = c := by
  rw [Device.listened, Device.rd_wr_same _ _ (by decide)]
  exact Nat.mod_eq_of_lt hc

theorem Device.Frame.listened {rs : List Nat} (h : Device.Frame rs d e) (v : Int) (c : Nat) (h1 : SP_LISTEN ∈ rs) (h2 : SP_STATUS ∈ rs) :
    Device.Frame rs d (e.listened v c) :=
  (h.wrI _ _ h1).wr _ _ h2

/-- Where the class leads. -/
def Device.listenGoes (d : Device) (o : ListenObs) (v : Int) : Device :=
  match o.cls with
  | 1 => (d.spEnter .catch_).fromListen o
  | 2 => (d.enterReverse.fromListen o).log 7 0x3113 [ofSigned 16 v]
  | _ => d.startAttempt

theorem listenEndEff_other (o : ListenObs) (h : d.spin.st ≠ .listen) : listenEndEff o d = d := if_pos h

theorem listenEndEff_listening (o : ListenObs) (h : d.spin.st = .listen) :
    ∃ v e, d.FreshOnly e ∧ listenEndEff o d = (e.listened v o.cls).listenGoes o v := by
  unfold listenEndEff
  rw [if_neg (not_not_intro h)]
  cases o.mrpm with
  | none => exact ⟨_, _, d.takeFree_freshOnly 16, rfl⟩
  | some m => exact ⟨_, _, d.divFree_freshOnly m 1000, rfl⟩

theorem ListenObs.cls_still {o : ListenObs} (h : o.mrpm = none) : o.cls = 0 := by rw [ListenObs.cls, h]

theorem ListenObs.cls_some {o : ListenObs} {v : Int} (h : o.mrpm = some v) : o.cls = if 300000 < v then 1 else if v < -60000 then 2 else 0 := by
  rw [ListenObs.cls, h]

theorem Device.listenGoes_still {o : ListenObs} (h : o.cls = 0) (v : Int) : d.listenGoes o v = d.startAttempt := by
  rw [Device.listenGoes, h]
  rfl

theorem Device.listenGoes_forward {o : ListenObs} (h : o.cls = 1) (v : Int) : d.listenGoes o v = (d.spEnter .catch_).fromListen o := by
  rw [Device.listenGoes, h]
  rfl

theorem Device.listenGoes_backward {o : ListenObs} (h : o.cls = 2) (v : Int) :
    d.listenGoes o v = (d.enterReverse.fromListen o).log 7 0x3113 [ofSigned 16 v] := by
  rw [Device.listenGoes, h]
  rfl

/-- The angle and the speeds from the listen; the registers, the state and the ramp are as before. -/
theorem Device.fromListen_spec (d : Device) (o : ListenObs) :
    (d.fromListen o).regs = d.regs ∧ (d.fromListen o).spin.st = d.spin.st ∧ (d.fromListen o).spin.ramp = d.spin.ramp ∧
      (d.fromListen o).spin.theta = o.theta % 2 ^ 32 := by
  have hfree : d.FreshOnly (d.electrical (o.mrpm.getD 0) 1000).2 := d.electrical_freshOnly _ _
  have heq : d.fromListen o = (d.electrical (o.mrpm.getD 0) 1000).2.updSpin fun s =>
      { s with theta := o.theta % 2 ^ 32, lomega := (d.electrical (o.mrpm.getD 0) 1000).1, omega := (d.electrical (o.mrpm.getD 0) 1000).1, dtheta := 0 } := rfl
  rw [heq, Device.updSpin_spin, Device.updSpin_regs, hfree.regs, hfree.spin]
  exact ⟨rfl, rfl, rfl, rfl⟩

/-- A rotor counted still: START's first step, whatever was measured. -/
theorem Device.listened_still {o : ListenObs} (hs : d.spin.st = .listen) (hc : o.cls = 0) :
    (listenEndEff o d).spin.st = .start ∧ (listenEndEff o d).spin.step = .align ∧ (listenEndEff o d).spin.omega = 0 ∧
      (listenEndEff o d).rd SP_STATUS_LCLASS = 0 ∧ Device.Frame [SP_STATUS, SP_INT, SP_LISTEN] d (listenEndEff o d) := by
  obtain ⟨v, e, hfree, heq⟩ := listenEndEff_listening o hs
  rw [heq, Device.listenGoes_still hc, hc, Device.startAttempt_spin]
  refine ⟨rfl, rfl, rfl, ?_, ((hfree.frame _).listened _ _ (by decide) (by decide)).startAttempt (by decide) (by decide)⟩
  rw [Device.startAttempt, Device.rd_updSpin, Device.rd_spEnter_status _ _ rfl (by decide), Device.rd_listened _ _ (by decide)]

theorem Device.listened_forward {o : ListenObs} (hs : d.spin.st = .listen) (hc : o.cls = 1) :
    (listenEndEff o d).spin.st = .catch_ ∧ (listenEndEff o d).rd SP_STATUS_LCLASS = 1 ∧ (listenEndEff o d).spin.theta = o.theta % 2 ^ 32 := by
  obtain ⟨v, e, -, heq⟩ := listenEndEff_listening o hs
  rw [heq, Device.listenGoes_forward hc, hc]
  obtain ⟨hregs, hst, -, htheta⟩ := ((e.listened v 1).spEnter .catch_).fromListen_spec o
  refine ⟨?_, ?_, htheta⟩
  · rw [hst, Device.spEnter_spin]
    rfl
  · rw [Device.rd_congr hregs, Device.rd_spEnter_status _ _ rfl (by decide), Device.rd_listened _ _ (by decide)]

theorem Device.listened_backward {o : ListenObs} (hs : d.spin.st = .listen) (hc : o.cls = 2) :
    (listenEndEff o d).spin.st = .reverse ∧ (listenEndEff o d).rd SP_STATUS_LCLASS = 2 ∧ (listenEndEff o d).spin.ramp = 0 ∧
      (listenEndEff o d).spin.theta = o.theta % 2 ^ 32 := by
  obtain ⟨v, e, -, heq⟩ := listenEndEff_listening o hs
  rw [heq, Device.listenGoes_backward hc, hc, Device.log_spin]
  obtain ⟨hregs, hst, hramp, htheta⟩ := (e.listened v 2).enterReverse.fromListen_spec o
  refine ⟨?_, ?_, ?_, htheta⟩
  · rw [hst, Device.enterReverse, Device.updSpin_spin, Device.spEnter_spin]
    rfl
  · rw [Device.rd_log _ _ _ _ (by decide), Device.rd_congr hregs, Device.enterReverse, Device.rd_updSpin,
      Device.rd_spEnter_status _ _ rfl (by decide), Device.rd_listened _ _ (by decide)]
  · rw [hramp, Device.enterReverse, Device.updSpin_spin]

/-! ### START's steps -/

theorem Device.atStep_other {p : StartStep} (h : d.spin.st ≠ .start) : d.atStep p = false := by
  rw [Device.atStep, beq_eq_false_iff_ne.2 h, Bool.false_and]

theorem Device.atStep_here {p : StartStep} (h : d.spin.st = .start) (hp : d.spin.step = p) : d.atStep p = true := by
  rw [Device.atStep, h, hp]
  cases p <;> rfl

/-- A failed attempt with another to come: a pause with the gates off. -/
theorem Device.attemptFails_again (code : Nat) (h : d.rd SP_STATUS_ATTEMPT < 4) :
    (d.attemptFails code).spin.step = .pause ∧ (d.attemptFails code).spin.duty = [] ∧
      (d.attemptFails code).rd SP_STATUS_ATTEMPT = d.rd SP_STATUS_ATTEMPT + 1 ∧ Device.Frame [SP_STATUS, RG_LOGSTAT] d (d.attemptFails code) := by
  rw [Device.attemptFails, if_pos h, Device.updSpin_spin, Device.rd_updSpin, Device.rd_wr_same _ _ (by decide)]
  exact ⟨rfl, rfl, Nat.mod_eq_of_lt (show d.rd SP_STATUS_ATTEMPT + 1 < 2 ^ 3 by omega),
    ((((Device.Frame.refl _ d).log _ _ _ (by decide)).wr _ _ (by decide)).updSpin _)⟩

/-- The last attempt failed. -/
theorem Device.attemptFails_last (code : Nat) (h : d.rd SP_STATUS_ATTEMPT = 4) :
    (d.attemptFails code).spin.st = .fault ∧ (d.attemptFails code).rd SP_INT_STARTFAIL = 1 ∧ (d.attemptFails code).spin.duty = [] ∧
      Device.Frame spRegs d (d.attemptFails code) := by
  rw [Device.attemptFails, if_neg (by rw [h]; decide), Device.spEnter_spin]
  refine ⟨rfl, ?_, rfl, ((((Device.Frame.refl _ d).log _ _ _ (by decide)).wr _ _ (by decide)).log _ _ _ (by decide)).spEnter _ (by decide) (by decide)⟩
  rw [Device.rd_spEnter_int _ _ rfl (by decide), Device.rd_log _ _ _ _ (by decide), Device.rd_wr_same _ _ (by decide)]
  rfl

theorem alignEndEff_ends (hs : d.spin.st = .start) (hp : d.spin.step = .align) :
    alignEndEff d = (d.stepTo .polarity).updSpin fun s => { s with moved := 0, movedMin := 0 } := if_pos (Device.atStep_here hs hp)

theorem polarityEndEff_ends (p n : Int) (hs : d.spin.st = .start) (hp : d.spin.step = .polarity) :
    (polarityEndEff p n d).spin.step = .accel ∧
      (polarityEndEff p n d).spin.theta = (if p < n ∧ max p n ≤ 16 * (n - p) then (d.spin.theta + 2 ^ 31) % 2 ^ 32 else d.spin.theta) ∧
      Device.Frame [] d (polarityEndEff p n d) := by
  rw [polarityEndEff, if_neg (by simp [Device.atStep_here hs hp])]
  by_cases hc : p < n ∧ max p n ≤ 16 * (n - p)
  · simp only [if_pos hc]
    exact ⟨rfl, rfl, ((Device.Frame.refl _ d).updSpin _).updSpin _⟩
  · simp only [if_neg hc]
    exact ⟨rfl, rfl, (Device.Frame.refl _ d).updSpin _⟩

theorem backwardEff_fails (hs : d.spin.st = .start) (hp : d.spin.step = .accel) (hm : 2 ^ 32 < 12 * (-d.spin.movedMin)) :
    backwardEff d = d.attemptFails 0x3117 := if_pos (by rw [Device.atStep_here hs hp, decide_eq_true hm]; rfl)

theorem speedCheckEff_fails (hs : d.spin.st = .start) (hp : d.spin.step = .accel) (hr : d.rpmAtLeast d.spin.omega 60 = false) :
    speedCheckEff d = d.attemptFails 0x3102 := if_pos (by rw [Device.atStep_here hs hp, hr]; rfl)

theorem retryResumeEff_resumes (hs : d.spin.st = .start) (hp : d.spin.step = .pause) : retryResumeEff d = d.startAttempt :=
  if_pos (Device.atStep_here hs hp)

/-- Outside START no step of it ends. -/
theorem startSteps_other (h : d.spin.st ≠ .start) :
    alignEndEff d = d ∧ backwardEff d = d ∧ speedCheckEff d = d ∧ retryResumeEff d = d ∧ ∀ p n : Int, polarityEndEff p n d = d := by
  refine ⟨if_neg (by simp [Device.atStep_other h]), if_neg (by simp [Device.atStep_other h]), if_neg (by simp [Device.atStep_other h]),
    if_neg (by simp [Device.atStep_other h]), fun p n => if_pos (by simp [Device.atStep_other h])⟩

/-! ### Limits of time and speed -/

/-- The spin-up has taken too long. -/
def Device.spinupOut (d : Device) (st : SpState) : Device := ((d.spEnter st).wr SP_STATUS_SUTO 1).log 7 0x3109

theorem Device.spinupOut_spec (d : Device) (st : SpState) :
    (d.spinupOut st).spin.st = st ∧ (d.spinupOut st).rd SP_STATUS_SUTO = 1 ∧ Device.Frame spRegs d (d.spinupOut st) := by
  refine ⟨?_, ?_, (((Device.Frame.refl _ d).spEnter _ (by decide) (by decide)).wr _ _ (by decide)).log _ _ _ (by decide)⟩
  · rw [Device.spinupOut, Device.log_spin, Device.wr_spin, Device.spEnter_spin]
    rfl
  · rw [Device.spinupOut, Device.rd_log _ _ _ _ (by decide), Device.rd_wr_same _ _ (by decide)]
    rfl

theorem spinupEff_start (h : d.spin.st = .start) : spinupEff d = d.spinupOut .coast := by
  rw [spinupEff, h]
  rfl

theorem spinupEff_run_late (h : d.spin.st = .run) (hw : d.spin.wasAt = false) : spinupEff d = d.spinupOut .brake := by
  rw [spinupEff, h]
  exact if_neg (by simp [hw])

theorem spinupEff_run_at (h : d.spin.st = .run) (hw : d.spin.wasAt = true) : spinupEff d = d := by
  rw [spinupEff, h]
  exact if_pos hw

theorem catchEndEff_ends (h : d.spin.st = .catch_) :
    (catchEndEff d).spin.st = .run ∧ (catchEndEff d).rd SP_STATUS_STATE = 4 ∧ Device.Frame spRegs d (catchEndEff d) := by
  have heq : catchEndEff d = d.measRpm.2.runFromSpeed.log 7 0x3112 [ofSigned 16 d.measRpm.1] := if_neg (not_not_intro h)
  rw [heq, Device.log_spin, Device.runFromSpeed_spin, Device.rd_log _ _ _ _ (by decide), Device.rd_runFromSpeed]
  exact ⟨rfl, rfl, ((d.measRpm_freshOnly.frame _).runFromSpeed (by decide) (by decide)).log _ _ _ (by decide)⟩

/-- The speed reached, before the first time is logged. -/
def Device.atSpeedShown (d : Device) : Device :=
  ((d.wr SP_STATUS_ATSPEED 1).wr SP_INT_ATSPEED 1).updSpin fun s => { s with wasAt := true }

theorem Device.atSpeedShown_spec (d : Device) : d.atSpeedShown.rd SP_STATUS_ATSPEED = 1 ∧ d.atSpeedShown.rd SP_INT_ATSPEED = 1 ∧
    d.atSpeedShown.spin = { d.spin with wasAt := true } ∧ Device.Frame spRegs d d.atSpeedShown := by
  refine ⟨?_, ?_, ?_, (((Device.Frame.refl _ d).wr _ _ (by decide)).wr _ _ (by decide)).updSpin _⟩
  · rw [Device.atSpeedShown, Device.rd_updSpin, Device.rd_wr_reg _ _ (by decide), Device.rd_wr_same _ _ (by decide)]
    rfl
  · rw [Device.atSpeedShown, Device.rd_updSpin, Device.rd_wr_same _ _ (by decide)]
    rfl
  · rw [Device.atSpeedShown, Device.updSpin_spin, Device.wr_spin, Device.wr_spin]

theorem atSpeedSetEff_sets (ha : d.spin.st.active = true) (hw : d.speedWithin 1 = true) (hb : d.bit SP_STATUS_ATSPEED = false) :
    atSpeedSetEff d = d.atSpeedShown ∨ ∃ ps, atSpeedSetEff d = d.atSpeedShown.log 7 0x3101 ps := by
  rw [atSpeedSetEff, if_neg (by simp [ha, hw, hb])]
  by_cases hf : (!d.spin.wasAt) = true
  · exact Or.inr ⟨_, if_pos hf⟩
  · exact Or.inl (if_neg hf)

theorem atSpeedSetEff_away (hw : d.speedWithin 1 = false) : atSpeedSetEff d = d := if_pos (by simp [hw])

theorem stoppedEff_active (h : d.spin.st.active = true) : stoppedEff d = d := if_pos h

theorem stoppedEff_coast_record (h : d.spin.st = .coast) :
    (d.updSpin fun s => { s with stopped := true }).decelRecord.spin.st = .coast →
      stoppedEff d = (d.updSpin fun s => { s with stopped := true }).decelRecord.spEnter .off := by
  intro hst
  rw [stoppedEff, if_neg (by rw [h]; decide)]
  exact if_pos hst

theorem stoppedEff_coast (h : d.spin.st = .coast) (hn : d.spin.decelAt = none) :
    stoppedEff d = (d.updSpin fun s => { s with stopped := true }).spEnter .off := by
  have hrec : (d.updSpin fun s => { s with stopped := true }).decelRecord = d.updSpin fun s => { s with stopped := true } :=
    Device.decelRecord_none (by rw [Device.updSpin_spin]; exact hn)
  rw [stoppedEff_coast_record h (by rw [hrec, Device.updSpin_spin]; exact h), hrec]

theorem stoppedEff_coast_timed {t : Nat} (h : d.spin.st = .coast) (ht : d.spin.decelAt = some t) (hlt : (d.chron.chr - t) / 1000 < 2 ^ 32) :
    (stoppedEff d).spin.st = .off ∧ (stoppedEff d).spin.decelAt = none ∧ (stoppedEff d).rd SP_DECEL_MS = (d.chron.chr - t) / 1000 ∧
      (stoppedEff d).rd SP_INT_DECEL_DONE = 1 ∧ Device.Frame [SP_STATUS, SP_INT, SP_DECEL, RG_LOGSTAT] d (stoppedEff d) := by
  obtain ⟨ps, hrec⟩ := Device.decelRecord_some (d := d.updSpin fun s => { s with stopped := true }) (t := t)
    (by rw [Device.updSpin_spin]; exact ht) (by rw [Device.updSpin_chron]; exact hlt)
  rw [Device.updSpin_chron] at hrec
  have hspin : (d.updSpin fun s => { s with stopped := true }).decelRecord.spin = { d.spin with stopped := true, decelAt := none } := by
    rw [hrec, Device.log_spin, Device.decelStored_spin, Device.updSpin_spin]
  obtain ⟨hms, hdone⟩ := (d.updSpin fun s => { s with stopped := true }).decelStored_shows hlt
  rw [stoppedEff_coast_record h (by rw [hspin]; exact h), Device.spEnter_spin, hspin]
  refine ⟨rfl, rfl, ?_, ?_, ?_⟩
  · rw [Device.rd_spEnter_other _ _ (by decide) (by decide), hrec, Device.rd_log _ _ _ _ (by decide), hms]
  · rw [Device.rd_spEnter_int _ _ rfl (by decide), hrec, Device.rd_log _ _ _ _ (by decide), hdone]
  · rw [hrec]
    exact ((((Device.Frame.refl _ d).updSpin _).decelStored _ (by decide) (by decide)).log _ _ _ (by decide)).spEnter _ (by decide) (by decide)

/-! ### The supply watch -/

theorem Device.spLimit_regs (d : Device) (ch code : Nat) : (d.spLimit ch code).regs = d.regs := Device.updSpin_regs _ _

theorem Device.spLimit_mem (d : Device) (ch code : Nat) : (d.spLimit ch code).mem = d.mem := Device.updSpin_mem _ _

theorem Device.spLimit_spin (d : Device) (ch code : Nat) : ∃ o, (d.spLimit ch code).spin = { d.spin with outside := o } := ⟨_, Device.updSpin_spin _ _⟩

theorem Device.Frame.spLimit {rs : List Nat} (h : Device.Frame rs d e) (ch code : Nat) : Device.Frame rs d (e.spLimit ch code) :=
  h.same (e.spLimit_regs ch code) (e.spLimit_mem ch code)

/-- The bus codes stored. -/
def Device.busCodes (d : Device) (v c : Nat) : Device := d.wrAll [(SP_BUS_VOLT, v), (SP_BUS_CURR, c), (SP_ADC_CODE 3, v), (SP_ADC_CODE 4, c)]

theorem Device.busCodes_shows (d : Device) {v c : Nat} (hv : v < 4096) (hc : c < 4096) :
    (d.busCodes v c).rd SP_BUS_VOLT = v ∧ (d.busCodes v c).rd SP_BUS_CURR = c ∧ (d.busCodes v c).rd (SP_ADC_CODE 3) = v ∧
      (d.busCodes v c).rd (SP_ADC_CODE 4) = c := by
  have hv' : v % 2 ^ 12 = v := Nat.mod_eq_of_lt hv
  have hc' : c % 2 ^ 12 = c := Nat.mod_eq_of_lt hc
  simp (disch := decide) only [Device.busCodes, Device.wrAll, List.foldl_cons, List.foldl_nil, Device.rd_wr_reg, Device.rd_wr_bits, Device.rd_wr_same]
  exact ⟨hv', hc', hv', hc'⟩

theorem Device.busCodes_spin (d : Device) (v c : Nat) : (d.busCodes v c).spin = d.spin := by
  obtain ⟨r, hr⟩ := d.wrAll_regsOnly [(SP_BUS_VOLT, v), (SP_BUS_CURR, c), (SP_ADC_CODE 3, v), (SP_ADC_CODE 4, c)]
  rw [Device.busCodes, hr]

/-- The bus codes held to the calibre's limits. -/
def Device.busLimited (d : Device) (v c : Nat) : Device :=
  ((d.busCodes v c).spLimit 3 ((d.busCodes v c).rd SP_BUS_VOLT)).spLimit 4 ((d.busCodes v c).rd SP_BUS_CURR)

/-- The bus codes in the supply watch. -/
def Device.busWatched (d : Device) (v c : Nat) : Device :=
  (d.busLimited v c).updSpin fun s =>
    { s with
      bus := (d.busCodes v c).rd SP_BUS_VOLT :: s.bus.take 2
      busPinned := if pinnedCode ((d.busLimited v c).rd SP_BUS_CURR) then s.busPinned + 1 else 0
      brkRef := s.brkRef.map fun r => (r.1, r.2.1, min r.2.2 ((d.busCodes v c).rd SP_BUS_VOLT)) }

theorem Device.busWatched_regs (d : Device) (v c : Nat) : (d.busWatched v c).regs = (d.busCodes v c).regs := by
  rw [Device.busWatched, Device.updSpin_regs, Device.busLimited, Device.spLimit_regs, Device.spLimit_regs]

theorem Device.busWatched_spin (d : Device) (v c : Nat) :
    (d.busWatched v c).spin.bus = (d.busCodes v c).rd SP_BUS_VOLT :: d.spin.bus.take 2 ∧ (d.busWatched v c).spin.st = d.spin.st := by
  obtain ⟨o, ho⟩ := (d.busCodes v c).spLimit_spin 3 ((d.busCodes v c).rd SP_BUS_VOLT)
  obtain ⟨o', ho'⟩ := ((d.busCodes v c).spLimit 3 ((d.busCodes v c).rd SP_BUS_VOLT)).spLimit_spin 4 ((d.busCodes v c).rd SP_BUS_CURR)
  rw [Device.busWatched, Device.updSpin_spin, Device.busLimited, ho', ho, Device.busCodes_spin]
  exact ⟨rfl, rfl⟩

theorem Device.busWatched_frame (d : Device) (v c : Nat) : Device.Frame [SP_BUS, SP_ADC 3, SP_ADC 4] d (d.busWatched v c) :=
  ((((Device.Frame.refl _ d).wrAll _ (by simp [SP_BUS_VOLT, SP_BUS_CURR, SP_ADC_CODE])).spLimit _ _).spLimit _ _).updSpin _

theorem busEff_down (v c : Nat) (h : d.up = false) : busEff v c d = d := if_pos (by rw [h]; rfl)

/-- The bus has fallen by more than 213 codes. -/
def Device.busFallen (d : Device) : Device := (d.brkOff.updSpin fun s => { s with brkDead := true }).spInputFault 3 2

theorem busEff_up (v c : Nat) (h : d.up = true) :
    busEff v c d = match d.spin.bus.head? with
      | none => d.busWatched v c
      | some p => if (d.busCodes v c).rd SP_BUS_VOLT + 213 < p then (d.busWatched v c).busFallen else d.busWatched v c :=
  if_neg (by rw [h]; decide)

theorem busEff_steady {v c : Nat} (h : d.up = true) (hv : v < 4096) (hc : c < 4096) (hp : ∀ p, d.spin.bus.head? = some p → p ≤ v + 213) :
    busEff v c d = d.busWatched v c := by
  rw [busEff_up v c h]
  cases hh : d.spin.bus.head? with
  | none => rfl
  | some p =>
    obtain ⟨hrd, -⟩ := d.busCodes_shows hv hc
    exact if_neg (by rw [hrd]; have := hp p hh; omega)

theorem busEff_falls {v c p : Nat} (h : d.up = true) (hv : v < 4096) (hc : c < 4096) (hh : d.spin.bus.head? = some p) (hp : v + 213 < p) :
    busEff v c d = (d.busWatched v c).busFallen := by
  obtain ⟨hrd, -⟩ := d.busCodes_shows hv hc
  rw [busEff_up v c h, hh]
  exact if_pos (by rw [hrd]; exact hp)

theorem Device.busFallen_spec (ha : d.spin.st.active = true) :
    d.busFallen.spin.brkDead = true ∧ d.busFallen.rd SP_STATUS_CHOPON = 0 ∧ d.busFallen.spin.st = .coast := by
  rw [Device.busFallen, Device.spInputFault_active _ _ (by rw [Device.updSpin_spin, Device.brkOff_spin]; exact ha), Device.log_spin, Device.spEnter_spin,
    Device.updSpin_spin, Device.rd_log _ _ _ _ (by decide), Device.rd_spEnter_status _ _ rfl (by decide), Device.rd_updSpin, Device.rd_brkOff]
  exact ⟨rfl, rfl, rfl⟩

/-- The device once an overvoltage is latched, before the retract and the regulator. -/
def Device.overvolted (d : Device) : Device :=
  ((((d.brkOff).spEnter .fault).decelKeep.wr SP_STATUS_OVFLT 1).wr SP_INT_OVFLT 1)

theorem Device.overvolted_spin (d : Device) : d.overvolted.spin.st = .fault ∧ d.overvolted.spin.duty = [] ∧ d.overvolted.spin.decelAt ≠ none := by
  rw [Device.overvolted, Device.wr_spin, Device.wr_spin, Device.decelKeep_spin, Device.spEnter_spin]
  refine ⟨rfl, rfl, ?_⟩
  dsimp only
  split
  · exact Option.some_ne_none _
  · assumption

theorem Device.overvolted_shows (d : Device) :
    d.overvolted.rd SP_STATUS_CHOPON = 0 ∧ d.overvolted.rd SP_STATUS_OVFLT = 1 ∧ d.overvolted.rd SP_INT_OVFLT = 1 := by
  refine ⟨?_, ?_, ?_⟩
  · rw [Device.overvolted, Device.rd_wr_reg _ _ (by decide), Device.rd_wr_bits _ _ (by decide), Device.rd_congr (Device.decelKeep_regs _),
      Device.rd_spEnter_status _ _ rfl (by decide), Device.rd_brkOff]
  · rw [Device.overvolted, Device.rd_wr_reg _ _ (by decide), Device.rd_wr_same _ _ (by decide)]
    rfl
  · rw [Device.overvolted, Device.rd_wr_same _ _ (by decide)]
    rfl

theorem Device.overvolted_frame (d : Device) : Device.Frame spRegs d d.overvolted :=
  (((((Device.Frame.refl _ d).brkOff (by decide)).spEnter _ (by decide) (by decide)).decelKeep).wr _ _ (by decide)).wr _ _ (by decide)

theorem Device.overvolted_out (d : Device) : d.overvolted.out = d.out := by
  rw [Device.overvolted, Device.wr_out, Device.wr_out, Device.decelKeep_out, Device.spEnter_out, Device.brkOff_eq, Device.updSpin_out, Device.wr_out]

theorem Device.overvolted_emretCause (d : Device) : d.overvolted.emretCause = d.emretCause := by
  rw [Device.overvolted, Device.wr_emretCause, Device.wr_emretCause, Device.decelKeep_emretCause, Device.spEnter_emretCause, Device.brkOff_eq,
    Device.updSpin_emretCause, Device.wr_emretCause]

theorem overvoltageEff_idle (h : d.busAtLeast 3072 = false ∨ d.spin.st = .fault) : overvoltageEff d = d := by
  refine if_pos ?_
  rcases h with h | h <;> simp [h]

theorem overvoltageEff_retracting (hb : d.busAtLeast 3072 = true) (hf : d.spin.st ≠ .fault) (hr : d.retracting = true) :
    overvoltageEff d = (d.overvolted.log 7 0x3110 [d.overvolted.rd SP_BUS_VOLT]).emit (.toRegulator true) := by
  have hagain : (d.overvolted.log 7 0x3110 [d.overvolted.rd SP_BUS_VOLT]).retracting = true := by
    rw [Device.retracting_congr ((Device.log_emretCause _ _ _ _).trans d.overvolted_emretCause), hr]
  rw [overvoltageEff, if_neg (by simp [hb, hf])]
  exact congrArg (fun x => Device.emit x _) (Device.emergencyRetract_again _ 2 hagain)

theorem regenStopEff_stops (hb : d.busAtLeast 2944 = true) (hr : d.bit SP_STATUS_REGSTOP = false) :
    regenStopEff d = ((d.wr SP_STATUS_REGSTOP 1).wr SP_INT_REGSTOP 1).log 7 0x3108 := if_neg (by simp [hb, hr])

theorem chopperOnEff_idle (h : d.brkAllowed = false ∨ d.busAtLeast 2816 = false) : chopperOnEff d = d := by
  refine if_neg ?_
  rcases h with h | h <;> simp [h]

theorem chopperOnEff_on (hb : d.busAtLeast 2816 = true) (ha : d.brkAllowed = true) (hc : d.bit SP_STATUS_CHOPON = false) : chopperOnEff d = d.brkOn :=
  if_pos (by simp [hb, ha, hc])

/-- BRK_G on, its check's references taken. -/
theorem Device.brkOn_spec (d : Device) : d.brkOn.rd SP_STATUS_CHOPON = 1 ∧
    d.brkOn.spin.brkRef = some (d.rd SP_BUS_CURR, d.rd SP_BUS_VOLT, d.rd SP_BUS_VOLT) ∧ Device.Frame [SP_STATUS] d d.brkOn := by
  refine ⟨?_, ?_, ((Device.Frame.refl _ d).wr _ _ (by decide)).updSpin _⟩
  · rw [Device.brkOn, Device.rd_updSpin, Device.rd_wr_same _ _ (by decide)]
    rfl
  · rw [Device.brkOn, Device.updSpin_spin]

theorem chopperOffEff_off (hb : d.busAtMost 2752 = true) (hc : d.bit SP_STATUS_CHOPON = true) : chopperOffEff d = d.brkOff := if_pos (by simp [hb, hc])

theorem chopperOffEff_idle (hb : d.busAtMost 2752 = false) : chopperOffEff d = d := if_neg (by simp [hb])

theorem chopChecks_none (h : d.spin.brkRef = none) : chopCurrentEff d = d ∧ chopVoltageEff d = d := by
  rw [chopCurrentEff, chopVoltageEff, h]
  exact ⟨rfl, rfl⟩

theorem chopCurrentEff_some {i v m : Nat} (h : d.spin.brkRef = some (i, v, m)) :
    chopCurrentEff d = if d.rd SP_BUS_CURR < i + d.rd SP_CHOP_CHOPIMIN then d.chopFault.log 7 0x3104 [1] else d := by
  rw [chopCurrentEff, h]

theorem chopVoltageEff_some {i v m : Nat} (h : d.spin.brkRef = some (i, v, m)) :
    chopVoltageEff d = if v < m + 43 then d.chopFault.log 7 0x3104 [2] else d := by
  rw [chopVoltageEff, h]

theorem Device.selfTest_pulse (r : Nat) (hc : d.bit SP_STATUS_CHOPON = false) (hd : d.spin.brkDead = false) (hs : d.aon.spun = true) :
    d.selfTest r = if d.rd SP_CHOP_CHOPIMIN ≤ r then d.wr SP_STATUS_CHOPF 0 else d.chopFault.log 7 0x3106 :=
  if_neg (by simp [hc, hd, hs])

/-! ### The supply's failure -/

theorem powerFailEff_high (h : d.busAtMost 2304 = false) : powerFailEff d = d := if_pos (by simp [h])

/-- HOLDUP begun, before the log and the regulator. -/
def Device.holdupBegun (d : Device) : Device := ((d.spEnter .holdup).updSpin fun s => { s with holdAt := d.chron.chr }).wr SP_INT_HOLDUP 1

theorem Device.holdupBegun_spec (d : Device) : d.holdupBegun.spin.st = .holdup ∧ d.holdupBegun.rd SP_INT_HOLDUP = 1 ∧
    d.holdupBegun.spin.holdAt = d.chron.chr ∧ d.holdupBegun.out = d.out ∧ d.holdupBegun.emretCause = d.emretCause ∧
    Device.Frame spRegs d d.holdupBegun := by
  refine ⟨?_, ?_, ?_, ?_, ?_, (((Device.Frame.refl _ d).spEnter _ (by decide) (by decide)).updSpin _).wr _ _ (by decide)⟩
  · rw [Device.holdupBegun, Device.wr_spin, Device.updSpin_spin, Device.spEnter_spin]
    rfl
  · rw [Device.holdupBegun, Device.rd_wr_same _ _ (by decide)]
    rfl
  · rw [Device.holdupBegun, Device.wr_spin, Device.updSpin_spin]
  · rw [Device.holdupBegun, Device.wr_out, Device.updSpin_out, Device.spEnter_out]
  · rw [Device.holdupBegun, Device.wr_emretCause, Device.updSpin_emretCause, Device.spEnter_emretCause]

/-- A power failure told to the regulator while the heads already retract. -/
theorem Device.toldFailing (hr : d.emretCause.isSome = true) (he : e.emretCause = d.emretCause) (code : Nat) (ps : List Nat) (o : Output) (cause : Nat) :
    ((e.log 7 code ps).emit o).emergencyRetract cause = (e.log 7 code ps).emit o := by
  refine Device.emergencyRetract_again _ _ ?_
  rw [Device.retracting, Device.emit_emretCause, Device.log_emretCause, he, hr]

/-- The state turns by the rotor's energy. -/
def Device.canHold (d : Device) : Bool :=
  (d.spin.st == .run || d.spin.st == .brake || d.spin.st == .reverse) && d.rpmAtLeast d.spin.omega.natAbs 600

theorem powerFailEff_turning (h : (!d.busAtMost 2304 || !d.spin.st.active || d.spin.st == .holdup) = false) :
    powerFailEff d = (((if d.canHold then d.holdupBegun else d.spEnter .coast).log 7 0x3114 [if d.canHold then 1 else 0]).emit
      (.toRegulator false)).emergencyRetract 3 :=
  if_neg (by rw [h]; decide)

theorem powerFailEff_holds (hb : d.busAtMost 2304 = true) (hs : d.spin.st ∈ [SpState.run, .brake, .reverse]) (hr : d.retracting = true)
    (hw : d.rpmAtLeast d.spin.omega.natAbs 600 = true) :
    powerFailEff d = (d.holdupBegun.log 7 0x3114 [1]).emit (.toRegulator false) := by
  obtain ⟨-, -, -, -, hcause, -⟩ := d.holdupBegun_spec
  obtain ⟨hturn, hhold⟩ : (!d.busAtMost 2304 || !d.spin.st.active || d.spin.st == .holdup) = false ∧ d.canHold = true := by
    simp only [List.mem_cons, List.not_mem_nil, or_false] at hs
    rw [hb, Device.canHold, hw]
    rcases hs with hs | hs | hs <;> rw [hs] <;> exact ⟨rfl, rfl⟩
  rw [powerFailEff_turning hturn, hhold]
  exact Device.toldFailing hr hcause 0x3114 [1] (.toRegulator false) 3

theorem powerFailEff_coasts (hb : d.busAtMost 2304 = true) (hs : d.spin.st ∈ [SpState.start, .catch_]) (hr : d.retracting = true) :
    powerFailEff d = ((d.spEnter .coast).log 7 0x3114 [0]).emit (.toRegulator false) := by
  obtain ⟨hturn, hhold⟩ : (!d.busAtMost 2304 || !d.spin.st.active || d.spin.st == .holdup) = false ∧ d.canHold = false := by
    simp only [List.mem_cons, List.not_mem_nil, or_false] at hs
    rw [hb, Device.canHold]
    rcases hs with hs | hs <;> rw [hs] <;> exact ⟨rfl, rfl⟩
  rw [powerFailEff_turning hturn, hhold]
  exact Device.toldFailing hr (d.spEnter_emretCause .coast) 0x3114 [0] (.toRegulator false) 3

theorem holdupEndEff_stays (hw : d.rpmAtLeast d.spin.omega.natAbs 600 = true) (hb : d.busAtMost 1920 = false) : holdupEndEff d = d :=
  if_pos (Or.inr ⟨hw, hb⟩)

theorem holdupEndEff_ends (hs : d.spin.st = .holdup) (hb : d.busAtMost 1920 = true) :
    ∃ ps, holdupEndEff d = (d.measRpm.2.spEnter .coast).log 7 0x3115 ps := by
  unfold holdupEndEff
  rw [if_neg (by simp [hs, hb])]
  exact ⟨_, rfl⟩

/-! ### Input faults -/

theorem phaseFaultEff_few (h : d.spin.pinned < 3) : phaseFaultEff d = d := if_pos h

theorem phaseFaultEff_pinned (h : 3 ≤ d.spin.pinned) (ha : d.spin.st.active = true) :
    ∃ ps, phaseFaultEff d = ((d.updSpin fun s => { s with pinned := 0 }).spEnter .coast).log 7 0x3116 ps := by
  unfold phaseFaultEff
  rw [if_neg (by omega)]
  exact ⟨_, Device.spInputFault_active _ _ (by rw [Device.updSpin_spin]; exact ha)⟩

theorem busCurrentEff_pinned (h : 3 ≤ d.spin.busPinned) :
    busCurrentEff d = ((d.updSpin fun s => { s with busPinned := 0 }).chopFault).log 7 0x3116 [4, 1] := if_neg (by omega)

theorem analogueEff_outside (n : Nat) (h : 48 ≤ Sparse.cnt d.spin.outside n) :
    analogueEff n d = ((d.updSpin fun s => { s with outside := Sparse.setCnt s.outside n 0 }).wr SP_INT_RANGE 1).log 7 0x3116 [n, 4] :=
  if_neg (by omega)

end Sys2Proof.Machine

open Sys2Proof Sys2Proof.Machine

/-- Settles O44: each effect in the case its guard decides, over what a change of state, a chopper fault and a conversion write. -/
theorem spindleStartingAndSupplyWatch : Obligations.SpindleStartingAndSupplyWatch := by
  refine ⟨?_, ?_, ?_, ?_, ?_, ?_, ?_, ?_, ?_, ?_, ?_, ?_, ?_, ?_, ?_, ?_, ?_, ?_, ?_, ?_, ?_, ?_, ?_, ?_, ?_, ?_, ?_, ?_, ?_, ?_, ?_, ?_, ?_, ?_, ?_, ?_,
    ?_, ?_, ?_, ?_, ?_, ?_, ?_, ?_, ?_, ?_, ?_, ?_, ?_, ?_, ?_, ?_, ?_⟩
  · intro s o h
    exact gives_eff (listenEndEff o) rfl (listenEndEff_other o h)
  · intro s t h
    obtain ⟨hst, hstep, homega, hclass, hframe⟩ := Device.listened_still (o := { mrpm := none, theta := t }) h (ListenObs.cls_still rfl)
    exact givesThat_eff (listenEndEff _) rfl ⟨hst, hstep, homega, hclass, hframe.untouched (by decide)⟩
  · intro s t v h hlo hhi
    have hcls : ListenObs.cls { mrpm := some v, theta := t } = 0 := by
      rw [ListenObs.cls_some rfl, if_neg (by omega), if_neg (by omega)]
    obtain ⟨hst, -, -, hclass, -⟩ := Device.listened_still h hcls
    exact givesThat_eff (listenEndEff _) rfl ⟨hst, hclass⟩
  · intro s t v h hv
    exact givesThat_eff (listenEndEff _) rfl (Device.listened_forward h ((ListenObs.cls_some rfl).trans (if_pos hv)))
  · intro s t v h hv
    have hcls : ListenObs.cls { mrpm := some v, theta := t } = 2 := by
      rw [ListenObs.cls_some rfl, if_neg (by omega), if_pos hv]
    exact givesThat_eff (listenEndEff _) rfl (Device.listened_backward h hcls)
  · intro s h
    obtain ⟨halign, hback, hspeed, hretry, hpol⟩ := startSteps_other h
    exact ⟨gives_eff alignEndEff rfl halign, gives_eff backwardEff rfl hback, gives_eff speedCheckEff rfl hspeed, gives_eff retryResumeEff rfl hretry,
      fun p n => gives_eff (polarityEndEff p n) rfl (hpol p n)⟩
  · intro s hs hp
    refine givesThat_eff alignEndEff rfl ?_
    rw [alignEndEff_ends hs hp, Device.updSpin_spin, Device.stepTo, Device.updSpin_spin]
    exact ⟨rfl, hs, rfl, (((Device.Frame.refl [] s.dev).updSpin _).updSpin _).untouched (by decide)⟩
  · intro s p n hs hp
    obtain ⟨hstep, htheta, hframe⟩ := polarityEndEff_ends p n hs hp
    exact givesThat_eff (polarityEndEff p n) rfl ⟨hstep, htheta, hframe.untouched (by decide)⟩
  · intro s hs hp hm ha
    refine givesThat_eff backwardEff rfl ?_
    obtain ⟨hstep, hduty, hatt, hframe⟩ := s.dev.attemptFails_again 0x3117 ha
    rw [backwardEff_fails hs hp hm]
    exact ⟨hstep, hduty, hatt, hframe.untouched (by decide)⟩
  · intro s hs hp hr ha
    refine givesThat_eff speedCheckEff rfl ?_
    obtain ⟨hst, hint, hduty, hframe⟩ := s.dev.attemptFails_last 0x3102 ha
    rw [speedCheckEff_fails hs hp hr]
    exact ⟨hst, hint, hduty, hframe.untouched (by decide)⟩
  · intro s hs hp
    refine givesThat_eff retryResumeEff rfl ?_
    rw [retryResumeEff_resumes hs hp, Device.startAttempt_spin]
    exact ⟨rfl, rfl, rfl, ((Device.Frame.refl _ s.dev).startAttempt (by decide) (by decide)).untouched (by decide)⟩
  · intro s h
    obtain ⟨hst, hsuto, hframe⟩ := s.dev.spinupOut_spec .coast
    refine givesThat_eff spinupEff rfl ?_
    rw [spinupEff_start h]
    exact ⟨hst, hsuto, hframe.untouched (by decide)⟩
  · intro s h hw
    obtain ⟨hst, hsuto, hframe⟩ := s.dev.spinupOut_spec .brake
    refine givesThat_eff spinupEff rfl ?_
    rw [spinupEff_run_late h hw]
    exact ⟨hst, hsuto, hframe.untouched (by decide)⟩
  · intro s h hw
    exact gives_eff spinupEff rfl (spinupEff_run_at h hw)
  · intro s h
    obtain ⟨hst, hcode, hframe⟩ := catchEndEff_ends h
    exact givesThat_eff catchEndEff rfl ⟨hst, hcode, hframe.untouched (by decide)⟩
  · intro s ha hw hb
    obtain ⟨hat, hint, hspin, hframe⟩ := s.dev.atSpeedShown_spec
    refine givesThat_eff atSpeedSetEff rfl ?_
    obtain heq | ⟨ps, heq⟩ := atSpeedSetEff_sets ha hw hb
    · rw [heq, hspin]
      exact ⟨hat, hint, rfl, rfl, hframe.untouched (by decide)⟩
    · rw [heq, Device.rd_log _ _ _ _ (by decide), Device.rd_log _ _ _ _ (by decide), Device.log_spin, hspin]
      exact ⟨hat, hint, rfl, rfl, (hframe.log _ _ _ (by decide)).untouched (by decide)⟩
  · intro s hw
    exact gives_eff atSpeedSetEff rfl (atSpeedSetEff_away hw)
  · intro s ha
    exact gives_eff stoppedEff rfl (stoppedEff_active ha)
  · intro s hs hn
    refine givesThat_eff stoppedEff rfl ?_
    rw [stoppedEff_coast hs hn, Device.spEnter_spin, Device.updSpin_spin]
    exact ⟨rfl, rfl, (((Device.Frame.refl _ s.dev).updSpin _).spEnter _ (by decide) (by decide)).untouched (by decide)⟩
  · intro s t hs ht hlt
    obtain ⟨hst, hdecel, hms, hdone, hframe⟩ := stoppedEff_coast_timed hs ht hlt
    exact givesThat_eff stoppedEff rfl ⟨hst, hdecel, hms, hdone, hframe.untouched (by decide)⟩
  · intro s v c h
    exact gives_eff (busEff v c) rfl (busEff_down v c h)
  · intro s v c h hv hc hp
    refine givesThat_eff (busEff v c) rfl ?_
    obtain ⟨hvolt, hcurr, hadc3, hadc4⟩ := s.dev.busCodes_shows hv hc
    obtain ⟨hbus, hst⟩ := s.dev.busWatched_spin v c
    have hrd : ∀ f, (s.dev.busWatched v c).rd f = (s.dev.busCodes v c).rd f := Device.rd_congr (s.dev.busWatched_regs v c)
    rw [busEff_steady h hv hc hp, hrd, hrd, hrd, hrd, hbus, hvolt]
    exact ⟨rfl, hcurr, hadc3, hadc4, rfl, hst, (s.dev.busWatched_frame v c).untouched (by decide)⟩
  · intro s v c p h hv hc hh hp ha
    refine givesThat_eff (busEff v c) rfl ?_
    obtain ⟨-, hst⟩ := s.dev.busWatched_spin v c
    rw [busEff_falls h hv hc hh hp]
    exact Device.busFallen_spec (by rw [hst]; exact ha)
  · intro s h
    exact gives_eff overvoltageEff rfl (overvoltageEff_idle h)
  · intro s hb hf hr
    refine givesThat_eff overvoltageEff rfl ?_
    obtain ⟨hst, hduty, hdecel⟩ := s.dev.overvolted_spin
    obtain ⟨hchop, hov, hint⟩ := s.dev.overvolted_shows
    rw [overvoltageEff_retracting hb hf hr, Device.emit_spin, Device.log_spin, Device.emit_out, Device.log_out, Device.overvolted_out]
    refine ⟨hst, hduty, ?_, ?_, ?_, hdecel, rfl, ((s.dev.overvolted_frame.log _ _ _ (by decide)).emit _).untouched (by decide)⟩
    · rw [Device.rd_emit, Device.rd_log _ _ _ _ (by decide), hchop]
    · rw [Device.rd_emit, Device.rd_log _ _ _ _ (by decide), hov]
    · rw [Device.rd_emit, Device.rd_log _ _ _ _ (by decide), hint]
  · intro s hb hr
    refine givesThat_eff regenStopEff rfl ?_
    rw [regenStopEff_stops hb hr, Device.rd_log _ _ _ _ (by decide), Device.rd_log _ _ _ _ (by decide), Device.rd_wr_reg _ _ (by decide),
      Device.rd_wr_same _ _ (by decide), Device.rd_wr_same _ _ (by decide), Device.log_spin, Device.wr_spin, Device.wr_spin]
    exact ⟨rfl, rfl, rfl, ((((Device.Frame.refl _ s.dev).wr _ _ (by decide)).wr _ _ (by decide)).log _ _ _ (by decide)).untouched (by decide)⟩
  · intro s hb
    exact gives_eff regenStopEff rfl (if_pos (by simp [hb]))
  · intro s hb
    exact gives_eff regenResumeEff rfl (if_pos hb)
  · intro s hb
    exact gives_eff regenResumeEff rfl (if_neg (by simp [hb]))
  · intro s h
    exact gives_eff chopperOnEff rfl (chopperOnEff_idle h)
  · intro s hb ha hc
    obtain ⟨hon, href, hframe⟩ := s.dev.brkOn_spec
    refine givesThat_eff chopperOnEff rfl ?_
    rw [chopperOnEff_on hb ha hc]
    exact ⟨hon, href, hframe.untouched (by decide)⟩
  · intro s hb hc
    refine givesThat_eff chopperOffEff rfl ?_
    rw [chopperOffEff_off hb hc, Device.rd_brkOff, Device.brkOff_spin]
    exact ⟨rfl, rfl, ((Device.Frame.refl _ s.dev).brkOff (by decide)).untouched (by decide)⟩
  · intro s hb
    exact gives_eff chopperOffEff rfl (chopperOffEff_idle hb)
  · intro s h
    exact ⟨gives_eff chopCurrentEff rfl (chopChecks_none h).1, gives_eff chopVoltageEff rfl (chopChecks_none h).2⟩
  · intro s i v m h hi
    exact gives_eff chopCurrentEff rfl ((chopCurrentEff_some h).trans (if_neg (by omega)))
  · intro s i v m h hi
    obtain ⟨hf, hon, hint, hframe⟩ := s.dev.chopFault_log 0x3104 [1]
    refine givesThat_eff chopCurrentEff rfl ?_
    rw [chopCurrentEff_some h, if_pos hi]
    exact ⟨hf, hon, hint, hframe.untouched (by decide)⟩
  · intro s i v m h hm
    exact gives_eff chopVoltageEff rfl ((chopVoltageEff_some h).trans (if_neg (by omega)))
  · intro s i v m h hm
    obtain ⟨hf, hon, hint, hframe⟩ := s.dev.chopFault_log 0x3104 [2]
    refine givesThat_eff chopVoltageEff rfl ?_
    rw [chopVoltageEff_some h, if_pos hm]
    exact ⟨hf, hon, hint, hframe.untouched (by decide)⟩
  · intro s r h
    exact gives_eff (chopTestEff r) rfl (if_neg h)
  · intro s r h hc hd hs hr
    exact gives_eff (chopTestEff r) rfl ((if_pos h).trans ((Device.selfTest_pulse r hc hd hs).trans (if_pos hr)))
  · intro s r h hcmd hc hd hs hr
    obtain ⟨hf, -, hint, hframe⟩ := s.dev.chopFault_log 0x3106 []
    have heq : selfTestEff r s.dev = s.dev.chopFault.log 7 0x3106 :=
      (if_pos ⟨h, hcmd⟩).trans ((Device.selfTest_pulse r hc hd hs).trans (if_neg (by omega)))
    refine givesThat_eff (selfTestEff r) rfl ?_
    rw [heq, Device.log_spin, Device.chopFault_spin]
    exact ⟨hf, hint, h, hframe.untouched (by decide)⟩
  · intro s r h
    exact gives_eff (selfTestEff r) rfl (if_neg (by simp [h]))
  · intro s h
    exact gives_eff powerFailEff rfl (powerFailEff_high h)
  · intro s hb hs hr hw
    obtain ⟨hst, hint, hat, hout, -, hframe⟩ := s.dev.holdupBegun_spec
    refine givesThat_eff powerFailEff rfl ?_
    rw [powerFailEff_holds hb hs hr hw, Device.emit_spin, Device.log_spin, Device.rd_emit, Device.rd_log _ _ _ _ (by decide), Device.emit_out,
      Device.log_out, hout]
    exact ⟨hst, hint, hat, rfl, ((hframe.log _ _ _ (by decide)).emit _).untouched (by decide)⟩
  · intro s hb hs hr
    obtain ⟨hst, hduty, hframe⟩ := s.dev.coasted 7 0x3114 [0]
    refine givesThat_eff powerFailEff rfl ?_
    rw [powerFailEff_coasts hb hs hr, Device.emit_spin]
    exact ⟨hst, hduty, (hframe.emit _).untouched (by decide)⟩
  · intro s hs hb
    obtain ⟨ps, heq⟩ := holdupEndEff_ends hs hb
    obtain ⟨hst, hduty, hframe⟩ := s.dev.measRpm.2.coasted 7 0x3115 ps
    refine givesThat_eff holdupEndEff rfl ?_
    rw [heq]
    exact ⟨hst, hduty, ((s.dev.measRpm_freshOnly.frame _).trans hframe).untouched (by decide)⟩
  · intro s _ hw hb
    exact gives_eff holdupEndEff rfl (holdupEndEff_stays hw hb)
  · intro s h
    exact gives_eff phaseFaultEff rfl (phaseFaultEff_few h)
  · intro s h ha
    obtain ⟨ps, heq⟩ := phaseFaultEff_pinned h ha
    refine givesThat_eff phaseFaultEff rfl ?_
    rw [heq, Device.log_spin, Device.spEnter_spin, Device.updSpin_spin]
    exact ⟨rfl, rfl,
      ((((Device.Frame.refl _ s.dev).updSpin _).spEnter _ (by decide) (by decide)).log _ _ _ (by decide)).untouched (by decide)⟩
  · intro s h
    obtain ⟨hf, hon, -, hframe⟩ := (s.dev.updSpin fun s => { s with busPinned := 0 }).chopFault_log 0x3116 [4, 1]
    refine givesThat_eff busCurrentEff rfl ?_
    rw [busCurrentEff_pinned h, Device.log_spin, Device.chopFault_spin, Device.updSpin_spin]
    exact ⟨hf, hon, rfl, (((Device.Frame.refl _ s.dev).updSpin _).trans hframe).untouched (by decide)⟩
  · intro s n h
    refine givesThat_eff (analogueEff n) rfl ?_
    rw [analogueEff_outside n h, Device.rd_log _ _ _ _ (by decide), Device.rd_wr_same _ _ (by decide), Device.log_spin, Device.wr_spin,
      Device.updSpin_spin]
    refine ⟨rfl, Sparse.cnt_setCnt_same s.dev.spin.outside n 0, rfl,
      ((((Device.Frame.refl _ s.dev).updSpin _).wr _ _ (by decide)).log _ _ _ (by decide)).untouched (by decide)⟩
  · intro s n ha
    obtain ⟨hst, hduty, hframe⟩ := s.dev.coasted 7 0x3116 [n, 5]
    refine givesThat_eff (fun d => d.spInputFault n 5) rfl ?_
    rw [Device.spInputFault_active _ _ ha]
    exact ⟨hst, hduty, hframe.untouched (by decide)⟩
  · intro s n ha
    exact gives_eff (fun d => d.spInputFault n 5) rfl (Device.spInputFault_idle _ _ ha)

end

section
/-!
The spindle's commands, its PWM period and what a failed plausibility check does (R274 to R300).
-/
namespace Sys2Proof.Machine

variable {d e : Device}

/-! ### Commands -/

/-- A start command finds EN, the engine's RUN, SP_KE0 and RSN set. -/
def Device.startable (d : Device) : Bool :=
  d.bit SP_CTRL_EN && d.bit (BE_CTRL_RUN .spindle) && d.rd SP_KE0_KE0 != 0 && d.rd SP_MOTOR_RSN != 0

theorem spStartEff_refuses (h : d.spin.st ∉ [SpState.off, .coast, .brake] ∨ d.bit SP_CTRL_EN = false ∨ d.bit (BE_CTRL_RUN .spindle) = false ∨
    d.rd SP_KE0_KE0 = 0 ∨ d.rd SP_MOTOR_RSN = 0) : spStartEff d = d.wr SP_STATUS_REFUSED 1 := by
  refine if_pos ?_
  rcases h with h | h | h | h | h
  · simp only [List.mem_cons, List.not_mem_nil, or_false, not_or] at h
    obtain ⟨hoff, hcoast, hbrake⟩ := h
    simp [hoff, hcoast, hbrake]
  · simp [h]
  · simp [h]
  · simp [h]
  · simp [h]

/-- A start command taken: the times and counts of the start. -/
def Device.startTaken (d : Device) : Device :=
  let e := (d.wr SP_STATUS_RECATCH 0).updSpin fun s => { s with startAt := d.chron.chr, wasAt := false, decelAt := none }
  { e with aon := { e.aon with spun := true } }

theorem Device.startTaken_spin (d : Device) : d.startTaken.spin = { d.spin with startAt := d.chron.chr, wasAt := false, decelAt := none } := rfl

theorem Device.startTaken_regs (d : Device) : d.startTaken.regs = (d.wr SP_STATUS_RECATCH 0).regs := rfl

theorem Device.startTaken_mem (d : Device) : d.startTaken.mem = d.mem := rfl

theorem Device.startTaken_frame (d : Device) : Device.Frame [SP_STATUS, SP_INT] d d.startTaken :=
  ((Device.Frame.refl _ d).wr SP_STATUS_RECATCH 0 (by decide)).same d.startTaken_regs d.startTaken_mem

/-- The first attempt of a start counted. -/
def Device.startCounted (d : Device) : Device :=
  ({ d with hnor := { d.hnor with spindleStarts := d.hnor.spindleStarts + 1 } } : Device).wrAll [(SP_STATUS_ATTEMPT, 1), (SP_STATUS_AUTO, 0)]

theorem spStartEff_takes (hs : d.spin.st = .off ∨ d.spin.st = .coast ∨ d.spin.st = .brake) (h : d.startable = true) :
    spStartEff d = if d.spin.st = .brake then (if d.spin.omega < 0 then d.startTaken.enterReverse else d.startTaken.runFromSpeed)
      else d.startTaken.startCounted.listenStart true := by
  have hok : ((d.spin.st == .off || d.spin.st == .coast || d.spin.st == .brake) && d.bit SP_CTRL_EN && d.bit (BE_CTRL_RUN .spindle) &&
      d.rd SP_KE0_KE0 != 0 && d.rd SP_MOTOR_RSN != 0) = true := by
    simp only [Device.startable, Bool.and_eq_true] at h
    obtain ⟨⟨⟨hen, hrun⟩, hke⟩, hrsn⟩ := h
    rw [hen, hrun, hke, hrsn]
    rcases hs with hs | hs | hs <;> rw [hs] <;> rfl
  exact if_neg (by rw [hok]; decide)

theorem Device.Frame.startCounted {rs : List Nat} (h : Device.Frame rs d e) (h1 : SP_STATUS ∈ rs) : Device.Frame rs d e.startCounted :=
  (h.same (f := { e with hnor := { e.hnor with spindleStarts := e.hnor.spindleStarts + 1 } }) rfl rfl).wrAll _
    (by simp [h1, SP_STATUS_ATTEMPT, SP_STATUS_AUTO])

theorem Device.Frame.listenStart {rs : List Nat} (h : Device.Frame rs d e) (c : Bool) (h1 : SP_STATUS ∈ rs) (h2 : SP_INT ∈ rs) :
    Device.Frame rs d (e.listenStart c) :=
  (h.spEnter _ h1 h2).updSpin _

/-- What a counted start shows once the listen has begun. -/
theorem Device.listenBegun_spec (d : Device) :
    ((d.startTaken.startCounted.listenStart true).rd SP_STATUS_STATE = 1 ∧ (d.startTaken.startCounted.listenStart true).rd SP_STATUS_ATTEMPT = 1 ∧
      (d.startTaken.startCounted.listenStart true).rd SP_STATUS_AUTO = 0 ∧ (d.startTaken.startCounted.listenStart true).rd SP_STATUS_RECATCH = 0) ∧
    Device.Frame [SP_STATUS, SP_INT] d (d.startTaken.startCounted.listenStart true) := by
  refine ⟨⟨?_, ?_, ?_, ?_⟩, ?_⟩
  · rw [Device.listenStart, Device.rd_updSpin, Device.rd_spEnter_state]
    rfl
  · rw [Device.listenStart, Device.rd_updSpin, Device.rd_spEnter_status _ _ rfl (by decide), Device.startCounted, Device.wrAll_pair,
      Device.rd_wr_bits _ _ (by decide), Device.rd_wr_same _ _ (by decide)]
    rfl
  · rw [Device.listenStart, Device.rd_updSpin, Device.rd_spEnter_status _ _ rfl (by decide), Device.startCounted, Device.wrAll_pair,
      Device.rd_wr_same _ _ (by decide)]
    rfl
  · rw [Device.listenStart, Device.rd_updSpin, Device.rd_spEnter_status _ _ rfl (by decide), Device.startCounted, Device.wrAll_pair,
      Device.rd_wr_bits _ _ (by decide), Device.rd_wr_bits _ _ (by decide)]
    exact (Device.rd_congr d.startTaken_regs _).trans (Device.rd_wr_same _ _ (by decide))
  · exact (d.startTaken_frame.startCounted (by decide)).listenStart true (by decide) (by decide)

theorem Device.enterReverse_spin (d : Device) : d.enterReverse.spin = { d.spin.entered .reverse with ramp := 0 } := by
  rw [Device.enterReverse, Device.updSpin_spin, Device.spEnter_spin]

theorem spStopEff_driven (h : d.spin.st ∈ [SpState.run, .reverse]) : spStopEff d = (d.spEnter .brake).decelStart := by
  simp only [List.mem_cons, List.not_mem_nil, or_false] at h
  rcases h with h | h <;> rw [spStopEff, h]

theorem spStopEff_start (h : d.spin.st = .start) : spStopEff d = d.spEnter .coast := by rw [spStopEff, h]

theorem spCoastEff_start (h : d.spin.st = .start) : spCoastEff d = d.spEnter .coast := by rw [spCoastEff, h]

theorem spStopEff_refuses (h : d.spin.st ∉ [SpState.start, .run, .reverse]) : spStopEff d = d.wr SP_STATUS_REFUSED 1 := by
  unfold spStopEff
  split
  · simp [*] at h
  · simp [*] at h
  · simp [*] at h
  · rfl

theorem spCoastEff_refuses (h : d.spin.st ∉ [SpState.start, .run, .brake, .reverse]) : spCoastEff d = d.wr SP_STATUS_REFUSED 1 := by
  unfold spCoastEff
  split
  · simp [*] at h
  · simp [*] at h
  · simp [*] at h
  · simp [*] at h
  · rfl

theorem spCoastEff_driven (h : d.spin.st ∈ [SpState.run, .brake, .reverse]) : spCoastEff d = (d.spEnter .coast).decelKeep := by
  simp only [List.mem_cons, List.not_mem_nil, or_false] at h
  rcases h with h | h | h <;> rw [spCoastEff, h]

theorem spClearEff_refuses (h : d.spin.st ≠ .fault) : spClearEff d = d.wr SP_STATUS_REFUSED 1 := if_pos h

theorem spClearEff_turning (h : d.spin.st = .fault) (hs : d.spin.stopped = false) : spClearEff d = d :=
  (if_neg (not_not_intro h)).trans (if_neg (by simp [hs]))

theorem spClearEff_clears (h : d.spin.st = .fault) (hs : d.spin.stopped = true) (hv : d.rd SP_BUS_VOLT < 2752) :
    spClearEff d = (d.wr SP_STATUS_OVFLT 0).spEnter .off :=
  (if_neg (not_not_intro h)).trans (if_pos ⟨hv, hs⟩)

theorem spEnEff_idle (h : d.spin.st ∈ [SpState.off, .fault, .coast]) : spEnEff false d = d.wr SP_CTRL_EN 0 := by
  have hspin : (d.wrB SP_CTRL_EN false).spin.st = d.spin.st := by rw [Device.wrB_spin]
  rw [spEnEff, hspin]
  simp only [List.mem_cons, List.not_mem_nil, or_false] at h
  rcases h with h | h | h <;> rw [h]
  · rfl
  · rfl
  · exact if_pos (hspin.trans h)

theorem spEnEff_driven (h : d.spin.st ∈ [SpState.listen, .start, .catch_, .run, .brake, .reverse, .holdup]) :
    spEnEff false d = (d.wr SP_CTRL_EN 0).spEnter .coast := by
  have hspin : (d.wrB SP_CTRL_EN false).spin.st = d.spin.st := by rw [Device.wrB_spin]
  have hno : d.spin.st ≠ .off ∧ d.spin.st ≠ .fault ∧ d.spin.st ≠ .coast := by
    refine ⟨?_, ?_, ?_⟩ <;> intro hc <;> rw [hc] at h <;> simp at h
  obtain ⟨hoff, hfault, hcoast⟩ := hno
  rw [spEnEff, hspin, if_neg (by simp [hoff, hfault])]
  exact if_neg (by rw [hspin]; exact hcoast)

/-! ### The peak -/

theorem Device.divFree_exact (d : Device) {n m k : Int} (hm : m ≠ 0) (h : n = k * m) : d.divFree n m = (k, d) := by
  rw [Device.divFree, if_neg hm, if_pos (by rw [h, Int.mul_emod_left]), h, Int.mul_ediv_cancel _ hm]

/-- The shadow duties in force. -/
def Device.dutiesTaken (d : Device) (ds : List Int) : Device :=
  (d.updSpin fun s => { s with duty := ds, shadow := none, vd := s.vdNext, vq := s.vqNext }).emit (.duties ds)

/-- The electrical angle on by a part of a turn. -/
def Device.turned (d : Device) (a : Int) : Device :=
  d.updSpin fun s => { s with theta := ((s.theta : Int) + a) % 2 ^ 32 |>.toNat, moved := s.moved + a, movedMin := min s.movedMin (s.moved + a) }

theorem peakEff_idle (h : d.up = false ∨ d.driving = false) : peakEff d = d := by
  refine if_pos ?_
  rcases h with h | h <;> simp [h]

theorem peakEff_drives {ds : List Int} {k : Int} (hup : d.up = true) (hdr : d.driving = true) (hsh : d.spin.shadow = some ds)
    (hk : d.spin.omega * 8531968 = k * 10 ^ 8) : peakEff d = (d.dutiesTaken ds).turned (k + d.spin.dtheta) := by
  have hspin : (d.dutiesTaken ds).spin = { d.spin with duty := ds, shadow := none, vd := d.spin.vdNext, vq := d.spin.vqNext } := by
    rw [Device.dutiesTaken, Device.emit_spin, Device.updSpin_spin]
  have hdiv : (d.dutiesTaken ds).divFree ((d.dutiesTaken ds).spin.omega * 8531968) (10 ^ 8) = (k, d.dutiesTaken ds) :=
    Device.divFree_exact _ (by decide) (by rw [hspin]; exact hk)
  unfold peakEff
  rw [if_neg (by simp [hup, hdr]), hsh]
  dsimp only
  rw [← Device.dutiesTaken, hdiv, ← Device.turned]
  dsimp only
  rw [hspin]

theorem Device.turned_theta (d : Device) (a : Int) : ((d.turned a).spin.theta : Int) = ((d.spin.theta : Int) + a) % 2 ^ 32 := by
  rw [Device.turned, Device.updSpin_spin]
  exact Int.toNat_of_nonneg (Int.emod_nonneg _ (by decide))

/-! ### The valley -/

theorem valleyEff_down (u v w : Nat) (m : Int) (h : d.up = false) : valleyEff u v w m d = d := if_pos (by simp [h])

/-- The phase codes stored. -/
def Device.phaseCodes (d : Device) (u v w : Nat) : Device := d.wrAll [(SP_ADC_CODE 0, u), (SP_ADC_CODE 1, v), (SP_ADC_CODE 2, w)]

theorem Device.phaseCodes_shows (d : Device) {u v w : Nat} (hu : u < 4096) (hv : v < 4096) (hw : w < 4096) :
    (d.phaseCodes u v w).rd (SP_ADC_CODE 0) = u ∧ (d.phaseCodes u v w).rd (SP_ADC_CODE 1) = v ∧ (d.phaseCodes u v w).rd (SP_ADC_CODE 2) = w := by
  have hu' : u % 2 ^ 12 = u := Nat.mod_eq_of_lt hu
  have hv' : v % 2 ^ 12 = v := Nat.mod_eq_of_lt hv
  have hw' : w % 2 ^ 12 = w := Nat.mod_eq_of_lt hw
  simp (disch := decide) only [Device.phaseCodes, Device.wrAll, List.foldl_cons, List.foldl_nil, Device.rd_wr_reg, Device.rd_wr_same]
  exact ⟨hu', hv', hw'⟩

theorem Device.phaseCodes_spin (d : Device) (u v w : Nat) : (d.phaseCodes u v w).spin = d.spin := by
  obtain ⟨r, hr⟩ := d.wrAll_regsOnly [(SP_ADC_CODE 0, u), (SP_ADC_CODE 1, v), (SP_ADC_CODE 2, w)]
  rw [Device.phaseCodes, hr]

theorem Device.rd_phaseCodes_other (d : Device) (u v w : Nat) {f : RF} (h : f.reg ∉ [SP_ADC 0, SP_ADC 1, SP_ADC 2]) :
    (d.phaseCodes u v w).rd f = d.rd f :=
  ((Device.Frame.refl [SP_ADC 0, SP_ADC 1, SP_ADC 2] d).wrAll _ (by simp [SP_ADC_CODE])).rd f h

/-- The spindle as a valley's conversions leave it: its engine, state and duties as before, the measured speed new. -/
structure SpinSt.Sampled (s t : SpinSt) (m : Int) : Prop where
  be : t.be = s.be
  st : t.st = s.st
  duty : t.duty = s.duty
  mrpm : t.mrpm = m

theorem Device.valleySample_regs (d : Device) (u v w : Nat) (m : Int) : (d.valleySample u v w m).regs = (d.phaseCodes u v w).regs := by
  rw [Device.valleySample, Device.updSpin_regs, Device.spLimit_regs, Device.spLimit_regs, Device.spLimit_regs, ← Device.phaseCodes]

theorem Device.valleySample_spin (d : Device) (u v w : Nat) (m : Int) : d.spin.Sampled (d.valleySample u v w m).spin m := by
  obtain ⟨o, ho⟩ := (d.phaseCodes u v w).spLimit_spin 0 u
  obtain ⟨o', ho'⟩ := ((d.phaseCodes u v w).spLimit 0 u).spLimit_spin 1 v
  obtain ⟨o'', ho''⟩ := (((d.phaseCodes u v w).spLimit 0 u).spLimit 1 v).spLimit_spin 2 w
  rw [Device.valleySample, Device.updSpin_spin, ← Device.phaseCodes, ho'', ho', ho, Device.phaseCodes_spin]
  exact ⟨rfl, rfl, rfl, rfl⟩

theorem Device.speedRows_none (h : d.spin.st = .off ∨ d.spin.st = .run) : d.speedRows = d := by
  rcases h with h | h <;> rw [Device.speedRows, h]

/-- The speed's flag and its measured value stored: registers alone, beside the supply of free values. -/
theorem Device.speedShown_spin (d : Device) : (d.atSpeedClear.showSpeed).spin = d.spin := by
  have hclear : d.atSpeedClear.spin = d.spin := by
    unfold Device.atSpeedClear
    split
    · rw [Device.wr_spin]
    · rfl
  rw [Device.showSpeed, Device.wrI_spin, d.atSpeedClear.measRpm_freshOnly.spin, hclear]

theorem Device.speedShown_frame (d : Device) : Device.Frame [SP_STATUS, SP_MEAS] d (d.atSpeedClear.showSpeed) := by
  have hclear : Device.Frame [SP_STATUS, SP_MEAS] d d.atSpeedClear := by
    unfold Device.atSpeedClear
    exact ((Device.Frame.refl _ d).wr _ _ (by decide)).ite (.refl _ d)
  exact (hclear.trans (d.atSpeedClear.measRpm_freshOnly.frame _)).wrI _ _ (by decide)

/-- A valley's conversions and speed, in a state whose rows on speed do nothing. -/
def Device.valleyTaken (d : Device) (u v w : Nat) (m : Int) : Device := ((d.valleySample u v w m).atSpeedClear).showSpeed

theorem Device.valleyTaken_spin (d : Device) (u v w : Nat) (m : Int) : d.spin.Sampled (d.valleyTaken u v w m).spin m := by
  rw [Device.valleyTaken, Device.speedShown_spin]
  exact d.valleySample_spin u v w m

theorem Device.rd_valleyTaken (d : Device) (u v w : Nat) (m : Int) {f : RF} (hf : f.reg ∉ [SP_STATUS, SP_MEAS]) :
    (d.valleyTaken u v w m).rd f = (d.phaseCodes u v w).rd f := by
  rw [Device.valleyTaken, (d.valleySample u v w m).speedShown_frame.rd f hf, Device.rd_congr (d.valleySample_regs u v w m)]

theorem valleyEff_taken {u v w : Nat} {m : Int} (hup : d.up = true) (h : d.spin.st = .off ∨ d.spin.st = .run) :
    valleyEff u v w m d = if (d.valleyTaken u v w m).driving then (d.valleyTaken u v w m).spinSample else d.valleyTaken u v w m := by
  have hrows : (d.valleySample u v w m).speedRows = d.valleySample u v w m :=
    Device.speedRows_none (by rw [(d.valleySample_spin u v w m).st]; exact h)
  unfold valleyEff
  rw [if_neg (by simp [hup])]
  dsimp only
  rw [hrows, ← Device.valleyTaken]

theorem Device.driving_off (h : d.spin.st = .off) : d.driving = false := by
  rw [Device.driving, h]
  rfl

theorem Device.driving_run (h : d.spin.st = .run) : d.driving = true := by
  rw [Device.driving, h]
  rfl

/-! ### The sample -/

/-- The ramp a period nearer to its end, by at most `a`. -/
def rampToward (a t r : Int) : Int := if r < t then min t (r + a) else max t (r - a)

theorem Device.rampPeriod_run (h : d.spin.st = .run) : ∃ r : Int → Int, d.rampPeriod = d.updSpin fun s => { s with ramp := r s.ramp } := by
  refine ⟨rampToward (d.rd SP_SPEED_ACCEL * 20830) ((d.rd SP_SPEED_TARGET : Int) * 10 ^ 9), ?_⟩
  rw [Device.rampPeriod, h]
  rfl

/-- The spindle's input ports are 32, whatever they hold. -/
theorem Device.spinPorts_length (d : Device) : d.spinPorts.1.length = 32 := rfl

theorem Device.spinPorts_freshOnly_run (h : d.spin.st = .run) : d.FreshOnly d.spinPorts.2 := by
  have heq : d.spinPorts.2 = (d.electrical d.spin.ramp (10 ^ 9)).2 := by
    have hn : ¬ d.spin.st = .start := by
      rw [h]
      decide
    simp only [Device.spinPorts, if_neg hn]
  rw [heq]
  exact d.electrical_freshOnly _ _

/-- The sample begins with the program's ports; its step counts one more valley. -/
def Device.spinStarted (d : Device) (slot : Nat) (ports : List Int) : Device :=
  (d.beStart .spindle slot ports).updSpin fun s => { s with first := false, lomega := 0, stepN := s.stepN + 1 }

theorem Device.spinStarted_spin (d : Device) (slot : Nat) (ports : List Int) :
    (∃ r, (d.spinStarted slot ports).spin.be.run = some r ∧ r.pc = 0 ∧ r.slot = slot) ∧ (d.spinStarted slot ports).spin.first = false ∧
      (d.spinStarted slot ports).spin.be.inp = ports := by
  rw [Device.spinStarted, Device.updSpin_spin]
  exact ⟨⟨_, rfl, rfl, rfl⟩, rfl, rfl⟩

theorem Device.spinSample_run (hst : d.spin.st = .run) (hrun : d.spin.be.run = none) (hdue : d.spin.be.due = false)
    (hen : d.bit (BE_CTRL_RUN .spindle) = true) : ∃ e ports, d.spinSample = Device.spinStarted e 0 ports ∧ ports.length = 32 := by
  obtain ⟨r, hramp⟩ := Device.rampPeriod_run hst
  have hex : d.exchangeDue .spindle = d := if_neg (by rw [Device.be, hdue]; decide)
  have hspin : d.rampPeriod.spin = { d.spin with ramp := r d.spin.ramp } := by rw [hramp, Device.updSpin_spin]
  have hen' : d.rampPeriod.bit (BE_CTRL_RUN .spindle) = true := by rw [hramp, Device.bit_updSpin, hen]
  have hst' : d.rampPeriod.spinPorts.2.spin.st = .run := by
    rw [(Device.spinPorts_freshOnly_run (d := d.rampPeriod) (by rw [hspin]; exact hst)).spin, hspin]
    exact hst
  refine ⟨d.rampPeriod.spinPorts.2, d.rampPeriod.spinPorts.1, ?_, d.rampPeriod.spinPorts_length⟩
  unfold Device.spinSample
  rw [hex]
  refine (if_neg (by rw [hen', hspin, hrun]; decide)).trans ?_
  have hslot : (if d.rampPeriod.spinPorts.2.spin.st = .start then 1 else 0) = 0 := if_neg (by rw [hst']; decide)
  exact congrArg (fun n => Device.spinStarted d.rampPeriod.spinPorts.2 n d.rampPeriod.spinPorts.1) hslot

/-! ### Plausibility -/

/-- A failed check in a state the checks act in, before the event of a spent recatch. -/
def Device.lost (d : Device) (auto : Bool) : Device := ((d.spEnter .coast).wr SP_INT_SYNC 1).wrB SP_STATUS_AUTO auto

theorem Device.lost_spec (d : Device) (auto : Bool) :
    (d.lost auto).spin = d.spin.entered .coast ∧ (d.lost auto).rd SP_INT_SYNC = 1 ∧ (d.lost auto).rd SP_STATUS_AUTO = (if auto then 1 else 0) ∧
      Device.Frame spRegs d (d.lost auto) := by
  refine ⟨?_, ?_, ?_, (((Device.Frame.refl _ d).spEnter _ (by decide) (by decide)).wr _ _ (by decide)).wrB _ _ (by decide)⟩
  · rw [Device.lost, Device.wrB_spin, Device.wr_spin, Device.spEnter_spin]
  · rw [Device.lost, Device.wrB, Device.rd_wr_reg _ _ (by decide), Device.rd_wr_same _ _ (by decide)]
    rfl
  · rw [Device.lost, Device.wrB, Device.rd_wr_same _ _ (by decide)]
    cases auto <;> rfl

theorem Device.lossAction_checked (h : d.spin.st.checked = true) : ∃ auto, auto = (d.spin.st == .run && d.bit SP_CTRL_AUTOCATCH &&
    decide (d.rd SP_STATUS_RECATCH < 2)) ∧ (d.lossAction = d.lost auto ∨ ∃ ps, d.lossAction = (d.lost auto).log 7 0x3118 ps) := by
  refine ⟨_, rfl, ?_⟩
  rw [Device.lossAction, if_neg (by simp [h])]
  by_cases hr : 2 ≤ d.rd SP_STATUS_RECATCH
  · exact Or.inr ⟨_, if_pos hr⟩
  · exact Or.inl (if_neg hr)

/-- What a failed check leaves. -/
theorem Device.lossAction_spec (h : d.spin.st.checked = true) {auto : Bool}
    (ha : (d.spin.st == .run && d.bit SP_CTRL_AUTOCATCH && decide (d.rd SP_STATUS_RECATCH < 2)) = auto) :
    d.lossAction.spin = d.spin.entered .coast ∧ d.lossAction.rd SP_INT_SYNC = 1 ∧ d.lossAction.rd SP_STATUS_AUTO = (if auto then 1 else 0) ∧
      Device.Frame spRegs d d.lossAction := by
  obtain ⟨_, rfl, hcases⟩ := Device.lossAction_checked h
  rw [ha] at hcases
  obtain ⟨hspin, hint, hauto, hframe⟩ := d.lost_spec auto
  obtain heq | ⟨ps, heq⟩ := hcases
  · rw [heq]
    exact ⟨hspin, hint, hauto, hframe⟩
  · rw [heq, Device.log_spin, Device.rd_log _ _ _ _ (by decide), Device.rd_log _ _ _ _ (by decide)]
    exact ⟨hspin, hint, hauto, hframe.log _ _ _ (by decide)⟩

theorem syncLossEff_none (h : d.spin.syncFail = none) : syncLossEff d = d := by rw [syncLossEff, h]

/-- A lost synchronism logged, its counts cleared. -/
def Device.syncLogged (d : Device) (c : Nat) : Device :=
  (d.measRpm.2.log 7 0x3105 [c, ofSigned 16 d.measRpm.1]).updSpin fun s => { s with syncFail := none, badB := 0, badC := 0 }

theorem syncLossEff_some {c : Nat} (h : d.spin.syncFail = some c) : syncLossEff d = (d.syncLogged c).lossAction := by
  rw [syncLossEff, h]
  rfl

theorem Device.syncLogged_spin (d : Device) (c : Nat) : (d.syncLogged c).spin = { d.spin with syncFail := none, badB := 0, badC := 0 } := by
  rw [Device.syncLogged, Device.updSpin_spin, Device.log_spin, d.measRpm_freshOnly.spin]

theorem Device.syncLogged_frame (d : Device) (c : Nat) : Device.Frame spRegs d (d.syncLogged c) :=
  ((d.measRpm_freshOnly.frame _).log _ _ _ (by decide)).updSpin _

theorem Device.rd_syncLogged (d : Device) (c : Nat) {f : RF} (hf : f.reg ≠ RG_LOGSTAT) : (d.syncLogged c).rd f = d.rd f := by
  rw [Device.syncLogged, Device.rd_updSpin, Device.rd_log _ _ _ _ hf, d.measRpm_freshOnly.rd]

/-- The loss of synchronism in RUN, with what the recatches spent decide. -/
theorem syncLossEff_run {c : Nat} (h : d.spin.syncFail = some c) (hst : d.spin.st = .run) {auto : Bool}
    (ha : (d.bit SP_CTRL_AUTOCATCH && decide (d.rd SP_STATUS_RECATCH < 2)) = auto) :
    (syncLossEff d).spin.st = .coast ∧ (syncLossEff d).rd SP_INT_SYNC = 1 ∧ (syncLossEff d).rd SP_STATUS_AUTO = (if auto then 1 else 0) ∧
      (syncLossEff d).spin.syncFail = none ∧ Device.Frame spRegs d (syncLossEff d) := by
  have hbit : (d.syncLogged c).bit SP_CTRL_AUTOCATCH = d.bit SP_CTRL_AUTOCATCH := by
    rw [Device.bit, Device.bit, Device.rd_syncLogged _ _ (by decide)]
  obtain ⟨hspin, hint, hauto, hframe⟩ := Device.lossAction_spec (d := d.syncLogged c) (auto := auto)
    (by rw [Device.syncLogged_spin, hst]; rfl)
    (by rw [Device.syncLogged_spin, hst, hbit, Device.rd_syncLogged _ _ (by decide)]; exact ha)
  rw [syncLossEff_some h, hspin, Device.syncLogged_spin]
  exact ⟨rfl, hint, hauto, rfl, (d.syncLogged_frame c).trans hframe⟩

theorem keEff_few (h : d.spin.badK < 48) : keEff d = d := if_pos h

theorem keEff_abnormal (h : 48 ≤ d.spin.badK) :
    ∃ ps, keEff d = ((d.log 7 0x3107 ps).updSpin fun s => { s with badK := 0 }).lossAction := by
  unfold keEff
  rw [if_neg (by omega)]
  exact ⟨_, rfl⟩

end Sys2Proof.Machine

open Sys2Proof Sys2Proof.Machine

/-- Settles O45: the commands state by state, the angle's exact step at a peak, a valley's conversions and sample, and the loss of synchronism. -/
theorem spindleCommandsAndPeriods : Obligations.SpindleCommandsAndPeriods := by
  refine ⟨?_, ?_, ?_, ?_, ?_, ?_, ?_, ?_, ?_, ?_, ?_, ?_, ?_, ?_, ?_, ?_, ?_, ?_, ?_, ?_, ?_, ?_, ?_, ?_, ?_⟩
  · intro s h
    exact gives_eff spStartEff rfl (spStartEff_refuses h)
  · intro s hst hen hrun hke hrsn
    refine givesThat_eff spStartEff rfl ?_
    simp only [List.mem_cons, List.not_mem_nil, or_false] at hst
    have hnb : s.dev.spin.st ≠ .brake := by
      rcases hst with h | h <;> rw [h] <;> decide
    have hok : s.dev.startable = true := by simp [Device.startable, hen, hrun, hke, hrsn]
    obtain ⟨⟨hcode, hatt, hauto, hrec⟩, hframe⟩ := s.dev.listenBegun_spec
    rw [spStartEff_takes (hst.imp_right Or.inl) hok, if_neg hnb]
    refine ⟨rfl, rfl, rfl, rfl, rfl, rfl, hcode, hatt, hauto, hrec, hframe.untouched (by decide)⟩
  · intro s hst hen hrun hke hrsn hneg
    refine givesThat_eff spStartEff rfl ?_
    have hok : s.dev.startable = true := by simp [Device.startable, hen, hrun, hke, hrsn]
    rw [spStartEff_takes (.inr (.inr hst)) hok, if_pos hst, if_pos hneg, Device.enterReverse_spin]
    exact ⟨rfl, rfl, ((s.dev.startTaken_frame.spEnter _ (by decide) (by decide)).updSpin _).untouched (by decide)⟩
  · intro s hst
    refine givesThat_eff spStopEff rfl ?_
    rw [spStopEff_driven hst, Device.decelStart_spin, Device.spEnter_spin, Device.spEnter_chron]
    exact ⟨rfl, rfl, rfl, (((Device.Frame.refl _ s.dev).spEnter _ (by decide) (by decide)).updSpin _).untouched (by decide)⟩
  · intro s hst
    exact ⟨gives_eff spStopEff rfl (spStopEff_start hst), gives_eff spCoastEff rfl (spCoastEff_start hst)⟩
  · intro s hst
    exact gives_eff spStopEff rfl (spStopEff_refuses hst)
  · intro s hst
    exact gives_eff spCoastEff rfl (spCoastEff_refuses hst)
  · intro s hst
    refine givesThat_eff spCoastEff rfl ?_
    rw [spCoastEff_driven hst, Device.decelKeep_spin, Device.spEnter_spin, Device.spEnter_chron]
    exact ⟨rfl, rfl, rfl, rfl, (((Device.Frame.refl _ s.dev).spEnter _ (by decide) (by decide)).decelKeep).untouched (by decide)⟩
  · intro s hst
    exact gives_eff spClearEff rfl (spClearEff_refuses hst)
  · intro s hst hs
    exact gives_eff spClearEff rfl (spClearEff_turning hst hs)
  · intro s hst hs hv
    refine givesThat_eff spClearEff rfl ?_
    rw [spClearEff_clears hst hs hv, Device.spEnter_spin, Device.rd_spEnter_status _ _ rfl (by decide), Device.rd_wr_same _ _ (by decide)]
    exact ⟨rfl, rfl, (((Device.Frame.refl _ s.dev).wr _ _ (by decide)).spEnter _ (by decide) (by decide)).untouched (by decide)⟩
  · intro s
    exact gives_eff (spEnEff true) rfl rfl
  · intro s hst
    exact gives_eff (spEnEff false) rfl (spEnEff_idle hst)
  · intro s hst
    refine givesThat_eff (spEnEff false) rfl ?_
    rw [spEnEff_driven hst, Device.spEnter_spin, Device.rd_spEnter_other _ _ (by decide) (by decide), Device.rd_wr_same _ _ (by decide)]
    exact ⟨rfl, rfl, rfl, (((Device.Frame.refl _ s.dev).wr _ _ (by decide)).spEnter _ (by decide) (by decide)).untouched (by decide)⟩
  · intro s h
    exact gives_eff peakEff rfl (peakEff_idle (.inl h))
  · intro s h
    exact gives_eff peakEff rfl (peakEff_idle (.inr h))
  · intro s ds k hup hdr hsh hk
    refine givesThat_eff peakEff rfl ?_
    rw [peakEff_drives hup hdr hsh hk, Device.turned_theta, Device.turned, Device.updSpin_spin, Device.updSpin_out, Device.dutiesTaken,
      Device.emit_spin, Device.updSpin_spin, Device.emit_out, Device.updSpin_out]
    refine ⟨rfl, rfl, rfl, by rw [add_assoc], ((((Device.Frame.refl [] s.dev).updSpin _).emit _).updSpin _).untouched (by decide)⟩
  · intro s u v w m h
    exact gives_eff (valleyEff u v w m) rfl (valleyEff_down u v w m h)
  · intro s u v w m hup hst hu hv hw
    refine givesThat_eff (valleyEff u v w m) rfl ?_
    have hspin := s.dev.valleyTaken_spin u v w m
    obtain ⟨h0, h1, h2⟩ := s.dev.phaseCodes_shows hu hv hw
    rw [valleyEff_taken hup (.inl hst), if_neg (by rw [Device.driving_off (hspin.st.trans hst)]; decide)]
    exact ⟨(s.dev.rd_valleyTaken _ _ _ _ (by decide)).trans h0, (s.dev.rd_valleyTaken _ _ _ _ (by decide)).trans h1,
      (s.dev.rd_valleyTaken _ _ _ _ (by decide)).trans h2, hspin.mrpm, congrArg BeSt.run hspin.be, hspin.st.trans hst, hspin.duty⟩
  · intro s u v w m hup hst hrun hdue hen
    refine givesThat_eff (valleyEff u v w m) rfl ?_
    have hspin := s.dev.valleyTaken_spin u v w m
    have hen' : (s.dev.valleyTaken u v w m).bit (BE_CTRL_RUN .spindle) = true := by
      rw [Device.bit, s.dev.rd_valleyTaken _ _ _ _ (by decide), s.dev.rd_phaseCodes_other _ _ _ (by decide)]
      exact hen
    obtain ⟨e, ports, heq, hlen⟩ := Device.spinSample_run (hspin.st.trans hst) (by rw [hspin.be, hrun]) (by rw [hspin.be, hdue]) hen'
    obtain ⟨hrun', hfirst, hinp⟩ := e.spinStarted_spin 0 ports
    rw [valleyEff_taken hup (.inr hst), if_pos (Device.driving_run (hspin.st.trans hst)), heq]
    exact ⟨hrun', hfirst, by rw [hinp, hlen]⟩
  · intro s h
    exact gives_eff syncLossEff rfl (syncLossEff_none h)
  · intro s c h hst hr hac
    obtain ⟨hcoast, hint, hauto, hfail, hframe⟩ := syncLossEff_run h hst (auto := true) (by rw [hac, decide_eq_true hr]; rfl)
    exact givesThat_eff syncLossEff rfl ⟨hcoast, hint, hauto, hfail, hframe.untouched (by decide)⟩
  · intro s c h hst hr
    obtain ⟨hcoast, hint, hauto, -, hframe⟩ := syncLossEff_run h hst (auto := false) (by rw [hr]; exact Bool.and_false _)
    exact givesThat_eff syncLossEff rfl ⟨hcoast, hint, hauto, hframe.untouched (by decide)⟩
  · intro s h
    exact gives_eff keEff rfl (keEff_few h)
  · intro s h hst
    obtain ⟨ps, heq⟩ := keEff_abnormal h
    have hspin : ((s.dev.log 7 0x3107 ps).updSpin fun s => { s with badK := 0 }).spin = { s.dev.spin with badK := 0 } := by
      rw [Device.updSpin_spin, Device.log_spin]
    obtain ⟨hspin', hint, hauto, hframe⟩ := Device.lossAction_spec (d := (s.dev.log 7 0x3107 ps).updSpin fun s => { s with badK := 0 }) (auto := false)
      (by rw [hspin, hst]; rfl) (by rw [hspin, hst]; rfl)
    refine givesThat_eff keEff rfl ?_
    rw [heq, hspin', hspin]
    exact ⟨rfl, rfl, hint, hauto, ((((Device.Frame.refl _ s.dev).log _ _ _ (by decide)).updSpin _).trans hframe).untouched (by decide)⟩

end

section
/-!
The escapement's operations: an operation's step, its end, a machine check (R308 to R323).
-/
namespace Sys2Proof.Machine

variable {d e : Device} {q : SeqId} {o p : EcOp}

/-! ### A sequencer's registers -/

/-- Two registers of one sequencer at two offsets. -/
theorem ecReg_ne (q : SeqId) {a b : Nat} (h : a ≠ b) : q.base + a ≠ q.base + b := fun hc => h (Nat.add_left_cancel hc)

/-- A register outside the sequencers' windows is none of theirs. -/
theorem ecReg_apart (q : SeqId) {a b : Nat} (ha : a < 0x8000) (hb : b < 0xF0040000 ∨ 0xF0400000 ≤ b) : q.base + a ≠ b := by
  have hq : 0xF0040000 ≤ q.base ∧ q.base + 0x8000 ≤ 0xF0400000 := by
    obtain ⟨l, s⟩ := q
    cases l <;> cases s <;> decide
  omega

/-! ### What a sequencer's state shares -/

theorem Device.updOp_cpls (d : Device) (q : SeqId) (f : EcOp → EcOp) : ((d.updOp q f).ec q).cpls = (d.ec q).cpls := by
  rw [Device.updOp, Device.updEc_same]

theorem Device.wrp_updEc (d : Device) (q : SeqId) (f : EcSt → EcSt) (l : Lane) : (d.updEc q f).wrp l = d.wrp l := by
  obtain ⟨k, b⟩ := q
  cases k <;> cases b <;> cases l <;> rfl

theorem Device.sv_updEc (d : Device) (q : SeqId) (f : EcSt → EcSt) (l : Lane) : (d.updEc q f).sv l = d.sv l := by
  obtain ⟨k, b⟩ := q
  cases k <;> cases b <;> cases l <;> rfl

theorem Device.inhibited_updOp (d : Device) (q : SeqId) (f : EcOp → EcOp) (l : Lane) : (d.updOp q f).inhibited l = d.inhibited l := by
  have hbit : ∀ g, (d.updOp q f).bit g = d.bit g := d.bit_updOp q f
  have hshock : (d.updOp q f).shockInh = d.shockInh := d.updOp_shockInh q f
  have hret : (d.updOp q f).retracting = d.retracting := congrArg Option.isSome (d.updOp_emretCause q f)
  rw [Device.inhibited, Device.inhibited, hbit, hbit, hshock, hret, Device.paInhibit, Device.paInhibit, hbit, hbit, Device.updOp, Device.wrp_updEc,
    Device.sv_updEc]

/-! ### Only the operation changes -/

/-- Beside the operation, now `p`, nothing a register or memory shows has changed, and the queue, the completions and the gate are as before. -/
structure Device.OpNow (q : SeqId) (d e : Device) (p : EcOp) : Prop where
  op : (e.ec q).op = some p
  cpls : (e.ec q).cpls = (d.ec q).cpls
  wrp : e.wrp q.lane = d.wrp q.lane
  regs : e.regs = d.regs
  mem : e.mem = d.mem

namespace Device.OpNow

theorem refl (h : (d.ec q).op = some o) : OpNow q d d o := ⟨h, rfl, rfl, rfl, rfl⟩

theorem updOp (h : OpNow q d e p) (f : EcOp → EcOp) : OpNow q d (e.updOp q f) (f p) :=
  ⟨by rw [Device.updOp_same, h.op, Option.map_some], (e.updOp_cpls q f).trans h.cpls, (Device.wrp_updEc e q _ _).trans h.wrp,
    (e.updOp_regs q f).trans h.regs, (e.updOp_mem q f).trans h.mem⟩

theorem rd (h : OpNow q d e p) (f : RF) : e.rd f = d.rd f := Device.rd_congr h.regs f

/-- A free value may have been drawn. -/
theorem fresh (h : OpNow q d e p) (k : Nat) : OpNow q d { e with fresh := k } p := ⟨h.op, h.cpls, h.wrp, h.regs, h.mem⟩

theorem trans {f : Device} (h : OpNow q d e o) (h' : OpNow q e f p) : OpNow q d f p :=
  ⟨h'.op, h'.cpls.trans h.cpls, h'.wrp.trans h.wrp, h'.regs.trans h.regs, h'.mem.trans h.mem⟩

theorem untouched (h : OpNow q d e p) (rs : List Nat) : Untouched rs d e := untouched_of_regs h.regs h.mem

end Device.OpNow

/-! ### The next address -/

theorem Device.trapTo_none (h : ∀ k < 8, d.rd (EC_TRAP_EN q k) = 0) (t : Nat) : d.trapTo q t = t := by
  have hnone : ((List.range 8).find? fun k => d.bit (EC_TRAP_EN q k) && d.rd (EC_TRAP_ROM q k) == t) = none := by
    rw [List.find?_eq_none]
    intro k hk
    simp [Device.bit, h k (List.mem_range.1 hk)]
  rw [Device.trapTo, hnone]

/-- With no trap enabled the sequencer goes where it is sent. -/
theorem Device.ecGo_to (h : ∀ k < 8, d.rd (EC_TRAP_EN q k) = 0) {t : Nat} (ht : t < 2 ^ 15) :
    d.ecGo q t = (d.updOp q fun o => { o with pc := t }).wr (EC_STATUS_PC q) t := by
  rw [Device.ecGo, Nat.mod_eq_of_lt ht, Device.trapTo_none h]

/-- The sequencer has gone on to `t`, its operation otherwise `p`. -/
theorem Device.OpNow.gone (h : Device.OpNow q d e p) (htr : ∀ k < 8, d.rd (EC_TRAP_EN q k) = 0) {t : Nat} (ht : t < 2 ^ 15) :
    ((e.ecGo q t).ec q).op = some { p with pc := t } ∧ (e.ecGo q t).rd (EC_STATUS_PC q) = t ∧ Device.Frame [EC_STATUS q] d (e.ecGo q t) := by
  have htr' : ∀ k < 8, e.rd (EC_TRAP_EN q k) = 0 := fun k hk => by rw [h.rd, htr k hk]
  have h' := h.updOp fun o => { o with pc := t }
  rw [Device.ecGo_to htr' ht]
  refine ⟨?_, ?_, ((Device.Frame.refl _ d).same h'.regs h'.mem).wr _ _ (List.mem_singleton_self _)⟩
  · rw [Device.ec_wr, h'.op]
  · rw [Device.rd_wr_same _ _ (show 0 + 15 ≤ 32 by decide)]
    exact Nat.mod_eq_of_lt ht

theorem sramPart_notMem_status (q : SeqId) : CB_SRAMPART ∉ [EC_STATUS q] :=
  fun h => ecReg_apart q (a := 4) (by decide) (.inr (by decide)) (List.mem_singleton.1 h).symm

/-- A microword that changed the operation to `o'` and goes on to `t`. -/
theorem ecWent_of (h : Device.OpNow q d e { o with words := o.words + 1 }) (htr : ∀ k < 8, d.rd (EC_TRAP_EN q k) = 0) {t : Nat} (ht : t < 2 ^ 15) :
    ecWent q o t d (e.ecGo q t) := by
  obtain ⟨hop, hpc, hframe⟩ := h.gone htr ht
  exact ⟨hop, hpc, hframe.untouched (sramPart_notMem_status q)⟩

/-! ### A microword -/

namespace Device

variable {w : Word} {n : Nat}

theorem ecAt_traps (h : d.ecAt q o w n) : ∀ k < 8, d.rd (EC_TRAP_EN q k) = 0 := by
  obtain ⟨-, -, -, -, -, -, ht⟩ := h
  exact ht

theorem ecAt_pc (h : d.ecAt q o w n) : o.pc + 1 < 2 ^ 15 := by
  obtain ⟨-, -, hpc, -⟩ := h
  omega

/-- The operation with the microword counted. -/
theorem ecAt_counted (h : d.ecAt q o w n) : OpNow q d (d.updOp q fun o => { o with words := o.words + 1 }) { o with words := o.words + 1 } := by
  obtain ⟨hop, -⟩ := h
  exact (OpNow.refl hop).updOp fun o => { o with words := o.words + 1 }

/-- A legal word of its form, no safe point, is carried out once counted. -/
theorem ecStep_does (h : d.ecAt q o w n) (f : Nat → EcOp → Device → Device) :
    d.ecStep q w .good n false f = f w.toNat o (d.updOp q fun o => { o with words := o.words + 1 }) := by
  obtain ⟨hop, hfetch, hpc, hlegal, hopc, hwords, -⟩ := h
  have hw : (if 0x4000 ≤ o.pc ∧ o.pc < 0x5000 then d.patchWord q (o.pc - 0x4000) else w.toNat) = w.toNat := if_neg (by omega)
  unfold ecStep
  rw [hop]
  dsimp only
  rw [hw, if_neg (by simp [hfetch]), if_neg (by decide), if_neg (by omega), if_neg (by decide),
    if_neg (by simp [hlegal]), if_neg (not_not_intro hopc), if_neg (by decide), if_neg (by omega)]

/-- A legal word of its form that is a safe point. -/
theorem ecStep_safe (h : d.ecAt q o w n) (f : Nat → EcOp → Device → Device) : d.ecStep q w .good n true f = f w.toNat o d := by
  obtain ⟨hop, hfetch, hpc, hlegal, hopc, hwords, -⟩ := h
  have hw : (if 0x4000 ≤ o.pc ∧ o.pc < 0x5000 then d.patchWord q (o.pc - 0x4000) else w.toNat) = w.toNat := if_neg (by omega)
  unfold ecStep
  rw [hop]
  dsimp only
  rw [hw, if_neg (by simp [hfetch]), if_neg (by decide), if_neg (by omega), if_neg (by decide),
    if_neg (by simp [hlegal]), if_neg (not_not_intro hopc), if_pos rfl]

theorem ecStep_illegal (hop : (d.ec q).op = some o) (hfetch : o.fetching = true) (hpc : o.pc < 0x4000) (hlegal : legalWord w.toNat = false) (s : Bool)
    (f : Nat → EcOp → Device → Device) : d.ecStep q w .good n s f = d.machineCheck q 2 o.pc := by
  have hw : (if 0x4000 ≤ o.pc ∧ o.pc < 0x5000 then d.patchWord q (o.pc - 0x4000) else w.toNat) = w.toNat := if_neg (by omega)
  unfold ecStep
  rw [hop]
  dsimp only
  rw [hw, if_neg (by simp [hfetch]), if_neg (by decide), if_neg (by omega), if_neg (by decide),
    if_pos (by simp [hlegal])]

theorem ecStep_idle (h : (d.ec q).op = none ∨ ((d.ec q).op = some o ∧ o.fetching = false)) (err : FetchErr) (s : Bool)
    (f : Nat → EcOp → Device → Device) : d.ecStep q w err n s f = d := by
  unfold ecStep
  obtain h | ⟨h, hf⟩ := h
  · rw [h]
  · rw [h]
    exact if_pos (by simp [hf])

/-! ### A safe point, an end, a machine check -/

theorem takeStop_none (h : d.rd (EC_STOP_CAUSES q) = 0) : d.takeStop q = d := by
  unfold takeStop
  cases (d.ec q).op with
  | none => rfl
  | some o => exact if_pos (.inl h)

theorem safePoint_quiet (h : d.rd (EC_STOP_CAUSES q) = 0) : d.safePoint q = d.updOp q fun o => { o with words := 0 } := by
  rw [safePoint, takeStop_none (by rw [rd_updOp, h])]

theorem afterOp_plain (hr : o.retryFlag = false) (hs : (d.wrp q.lane).stepsAsked = false) : d.afterOp q o = d := by
  have hb : (o.writes && (d.wrp q.lane).stepsAsked) = false := by rw [hs, Bool.and_false]
  rw [afterOp, hb, hr]
  rfl

/-- The completion an operation leaves. -/
def endedCpl (d : Device) (q : SeqId) (o : EcOp) (status code causes : Nat) : List Nat :=
  [status * 2 ^ 24 + code % 256 * 2 ^ 16 + causes * 2 ^ 8, o.tag, (d.word (EC_PROG q)).toNat, o.failed]

/-- The operation gone, its completion in place. -/
def opEnded (d : Device) (q : SeqId) (o : EcOp) (status code causes : Nat) : Device :=
  ((d.updEc q fun x => { x with op := none, cpls := x.cpls ++ [d.endedCpl q o status code causes] }).wr (EC_INT_CPL q) 1).wr (EC_STATUS_RUN q) 0

theorem completeOp_running (h : (d.ec q).op = some o) (status code causes : Nat) :
    d.completeOp q status code causes = d.opEnded q o status code causes := by
  rw [completeOp, h]
  rfl

theorem opEnded_ec (d : Device) (q : SeqId) (o : EcOp) (status code causes : Nat) :
    ((d.opEnded q o status code causes).ec q).op = none ∧
      ((d.opEnded q o status code causes).ec q).cpls = (d.ec q).cpls ++ [d.endedCpl q o status code causes] := by
  rw [opEnded, ec_wr, ec_wr, updEc_same]
  exact ⟨rfl, rfl⟩

theorem opEnded_wrp (d : Device) (q : SeqId) (o : EcOp) (status code causes : Nat) (l : Lane) :
    (d.opEnded q o status code causes).wrp l = d.wrp l := by
  rw [opEnded, wrp_wr, wrp_wr, wrp_updEc]

theorem opEnded_shows (d : Device) (q : SeqId) (o : EcOp) (status code causes : Nat) :
    (d.opEnded q o status code causes).rd (EC_INT_CPL q) = 1 ∧ (d.opEnded q o status code causes).rd (EC_STATUS_RUN q) = 0 := by
  refine ⟨?_, ?_⟩
  · rw [opEnded, rd_wr_reg _ _ (ecReg_ne q (by decide)), rd_wr_same _ _ (show 0 + 1 ≤ 32 by decide)]
    rfl
  · rw [opEnded, rd_wr_same _ _ (show 31 + 1 ≤ 32 by decide)]
    rfl

theorem Frame.opEnded {rs : List Nat} (h : Frame rs d e) (q : SeqId) (o : EcOp) (status code causes : Nat) (hs : EC_STATUS q ∈ rs)
    (hi : EC_INT q ∈ rs) : Frame rs d (e.opEnded q o status code causes) :=
  ((h.updEc _ _).wr _ _ hi).wr _ _ hs

theorem opEnded_frame (d : Device) (q : SeqId) (o : EcOp) (status code causes : Nat) :
    Untouched [EC_STATUS q, EC_INT q] d (d.opEnded q o status code causes) := by
  refine ((Frame.refl _ d).opEnded q o status code causes (by simp) (by simp)).untouched ?_
  simp only [List.mem_cons, List.not_mem_nil, or_false, not_or]
  exact ⟨fun h => ecReg_apart q (by decide) (.inr (by decide)) h.symm, fun h => ecReg_apart q (by decide) (.inr (by decide)) h.symm⟩

/-- The sequencer's slots not yet captured dropped. -/
def slotsDropped (d : Device) (q : SeqId) : Device := d.updCh q.lane fun c => { c with slots := c.slots.filter fun s => !(s.seq == q && !s.captured) }

theorem slotsDropped_ec (d : Device) (q : SeqId) : (d.slotsDropped q).ec q = d.ec q := by
  obtain ⟨k, b⟩ := q
  cases k <;> cases b <;> rfl

theorem slotsDropped_wrp (d : Device) (q : SeqId) (l : Lane) : (d.slotsDropped q).wrp l = d.wrp l := by
  obtain ⟨k, b⟩ := q
  cases k <;> cases l <;> rfl

/-- A machine check's registers. -/
def mchkShown (d : Device) (q : SeqId) (cause addr : Nat) : Device :=
  d.wrAll [(EC_STOP_CAUSES q, 0), (EC_CTRL_ABORT q, 0), (EC_MCHK_CAUSE q, cause), (EC_MCHK_ADDR q, addr), (EC_STATUS_HALT q, 1), (EC_INT_MCHK q, 1)]

theorem mchkShown_eq (d : Device) (q : SeqId) (cause addr : Nat) :
    d.mchkShown q cause addr = (((((d.wr (EC_STOP_CAUSES q) 0).wr (EC_CTRL_ABORT q) 0).wr (EC_MCHK_CAUSE q) cause).wr (EC_MCHK_ADDR q) addr).wr
      (EC_STATUS_HALT q) 1).wr (EC_INT_MCHK q) 1 := rfl

theorem mchkShown_shows (d : Device) (q : SeqId) {cause addr : Nat} (hc : cause < 16) (ha : addr < 2 ^ 15) :
    (d.mchkShown q cause addr).rd (EC_STATUS_HALT q) = 1 ∧ (d.mchkShown q cause addr).rd (EC_MCHK_CAUSE q) = cause ∧
      (d.mchkShown q cause addr).rd (EC_MCHK_ADDR q) = addr ∧ (d.mchkShown q cause addr).rd (EC_INT_MCHK q) = 1 ∧
      (d.mchkShown q cause addr).rd (EC_STATUS_RUN q) = d.rd (EC_STATUS_RUN q) := by
  rw [mchkShown_eq]
  refine ⟨?_, ?_, ?_, ?_, ?_⟩
  · rw [rd_wr_reg _ _ (ecReg_ne q (by decide)), rd_wr_same _ _ (show 30 + 1 ≤ 32 by decide)]
    rfl
  · rw [rd_wr_reg _ _ (ecReg_ne q (by decide)), rd_wr_reg _ _ (ecReg_ne q (by decide)), rd_wr_bits _ _ (.inr (show 0 + 15 ≤ 28 by decide)),
      rd_wr_same _ _ (show 28 + 4 ≤ 32 by decide)]
    exact Nat.mod_eq_of_lt hc
  · rw [rd_wr_reg _ _ (ecReg_ne q (by decide)), rd_wr_reg _ _ (ecReg_ne q (by decide)), rd_wr_same _ _ (show 0 + 15 ≤ 32 by decide)]
    exact Nat.mod_eq_of_lt ha
  · rw [rd_wr_same _ _ (show 3 + 1 ≤ 32 by decide)]
    rfl
  · rw [rd_wr_reg _ _ (ecReg_ne q (by decide)), rd_wr_bits _ _ (.inr (show 30 + 1 ≤ 31 by decide)), rd_wr_reg _ _ (ecReg_ne q (by decide)),
      rd_wr_reg _ _ (ecReg_ne q (by decide)), rd_wr_reg _ _ (ecReg_ne q (by decide)), rd_wr_reg _ _ (ecReg_ne q (by decide))]

theorem mchkShown_ec (d : Device) (q : SeqId) (cause addr : Nat) : (d.mchkShown q cause addr).ec q = d.ec q := by
  simp only [mchkShown_eq, ec_wr]

theorem mchkShown_wrp (d : Device) (q : SeqId) (cause addr : Nat) (l : Lane) : (d.mchkShown q cause addr).wrp l = d.wrp l := by
  simp only [mchkShown_eq, wrp_wr]

/-- The device a machine check leaves, before its event. -/
def checked (d : Device) (q : SeqId) (o : EcOp) (cause addr : Nat) : Device :=
  ((d.slotsDropped q).opEnded q o 2 0 ((d.slotsDropped q).rd (EC_STOP_CAUSES q))).mchkShown q cause addr

theorem machineCheck_eq (hop : (d.ec q).op = some o) (hg : (d.wrp q.lane).gate = none) (hr : o.retryFlag = false)
    (hs : (d.wrp q.lane).stepsAsked = false) {cause addr : Nat} (h1 : (cause == 1) = false) (h7 : (cause == 7) = false) :
    ∃ ps, d.machineCheck q cause addr = (d.checked q o cause addr).log q.lane.src 0x2020 ps := by
  have hdone : (d.slotsDropped q).completeOp q 2 0 ((d.slotsDropped q).rd (EC_STOP_CAUSES q)) =
      (d.slotsDropped q).opEnded q o 2 0 ((d.slotsDropped q).rd (EC_STOP_CAUSES q)) :=
    completeOp_running (by rw [slotsDropped_ec, hop]) 2 0 _
  have hs' : ∀ ps, (((d.checked q o cause addr).log q.lane.src 0x2020 ps).wrp q.lane).stepsAsked = false := fun ps => by
    rw [wrp, lane_log, ← wrp, checked, mchkShown_wrp, opEnded_wrp, slotsDropped_wrp, hs]
  unfold machineCheck
  rw [hop]
  dsimp only
  rw [hg]
  dsimp only
  rw [← slotsDropped, hdone, h1, h7, Bool.false_and, Bool.false_and, Bool.or_false, if_neg (by decide), ← mchkShown, ← checked]
  exact ⟨_, afterOp_plain hr (hs' _)⟩

theorem rd_causes_lt (d : Device) (q : SeqId) : d.rd (EC_STOP_CAUSES q) < 64 := Nat.mod_lt _ (show 0 < 2 ^ 6 by decide)

/-- A machine check with the gate closed and nothing of the operation to undo. -/
theorem machineCheck_checks (hop : (d.ec q).op = some o) (hg : (d.wrp q.lane).gate = none) (hr : o.retryFlag = false)
    (hs : (d.wrp q.lane).stepsAsked = false) {cause addr : Nat} (h1 : (cause == 1) = false) (h7 : (cause == 7) = false) (hc : cause < 16)
    (ha : addr < 2 ^ 15) : machineChecked q cause addr d (d.machineCheck q cause addr) := by
  obtain ⟨ps, heq⟩ := machineCheck_eq (addr := addr) hop hg hr hs h1 h7
  obtain ⟨hend, hcpl⟩ := (d.slotsDropped q).opEnded_ec q o 2 0 ((d.slotsDropped q).rd (EC_STOP_CAUSES q))
  obtain ⟨-, hrun⟩ := (d.slotsDropped q).opEnded_shows q o 2 0 ((d.slotsDropped q).rd (EC_STOP_CAUSES q))
  obtain ⟨hhalt, hcause, haddr, hint, hrun'⟩ :=
    ((d.slotsDropped q).opEnded q o 2 0 ((d.slotsDropped q).rd (EC_STOP_CAUSES q))).mchkShown_shows q hc ha
  have hec : ((d.checked q o cause addr).log q.lane.src 0x2020 ps).ec q =
      ((d.slotsDropped q).opEnded q o 2 0 ((d.slotsDropped q).rd (EC_STOP_CAUSES q))).ec q := by
    rw [ec_log, checked, mchkShown_ec]
  have hlog : ∀ f : RF, (∃ a, a < 0x8000 ∧ f.reg = q.base + a) →
      ((d.checked q o cause addr).log q.lane.src 0x2020 ps).rd f = (d.checked q o cause addr).rd f := fun f ⟨a, ha, hf⟩ =>
    rd_log _ _ _ _ (by rw [hf]; exact ecReg_apart q ha (.inr (by decide)))
  rw [heq, machineChecked, hec, hend, hcpl, slotsDropped_ec]
  refine ⟨rfl, ⟨_, rfl, ?_⟩, ?_, ?_, ?_, ?_, ?_⟩
  · have hlt := (d.slotsDropped q).rd_causes_lt q
    show (2 * 2 ^ 24 + 0 % 256 * 2 ^ 16 + (d.slotsDropped q).rd (EC_STOP_CAUSES q) * 2 ^ 8) / 2 ^ 24 = 2
    omega
  · rw [hlog _ ⟨4, by decide, rfl⟩, checked, hhalt]
  · rw [hlog _ ⟨0x10, by decide, rfl⟩, checked, hcause]
  · rw [hlog _ ⟨0x10, by decide, rfl⟩, checked, haddr]
  · rw [hlog _ ⟨0x20, by decide, rfl⟩, checked, hint]
  · rw [hlog _ ⟨4, by decide, rfl⟩, checked, hrun', hrun]

/-- A machine check reached over a device whose operation alone has changed. -/
theorem OpNow.machineChecks (h : OpNow q d e p) (hg : (d.wrp q.lane).gate = none) (hr : p.retryFlag = false)
    (hs : (d.wrp q.lane).stepsAsked = false) {cause addr : Nat} (h1 : (cause == 1) = false) (h7 : (cause == 7) = false) (hc : cause < 16)
    (ha : addr < 2 ^ 15) : machineChecked q cause addr d (e.machineCheck q cause addr) := by
  obtain ⟨hend, hcpl, hrest⟩ := machineCheck_checks h.op (by rw [h.wrp, hg]) hr (by rw [h.wrp, hs]) h1 h7 hc ha
  rw [h.cpls] at hcpl
  exact ⟨hend, hcpl, hrest⟩

end Device

end Sys2Proof.Machine
end

section
/-!
The microwords: what each computes, where each goes, what each acts on (R309 to R313).
-/
namespace Sys2Proof.Machine

variable {d e : Device} {q : SeqId} {o p : EcOp} {w : Word} {n : Nat}

/-! ### Values -/

theorem EcOp.reg_lt (hg : ∀ v ∈ o.g, v < 2 ^ 32) (i : Nat) : o.reg i < 2 ^ 32 := by
  rw [EcOp.reg, List.getD_eq_getElem?_getD]
  cases h : o.g[i]? with
  | none => decide
  | some v => exact hg v (List.mem_of_getElem? h)

theorem EcOp.w_lt (hd : ∀ v ∈ o.desc, v < 2 ^ 32) (i : Nat) : o.w i < 2 ^ 32 := by
  rw [EcOp.w, List.getD_eq_getElem?_getD]
  cases h : o.desc[i]? with
  | none => decide
  | some v => exact hd v (List.mem_of_getElem? h)

/-- The model's result of an ALU function, reduced to a word. -/
theorem aluResult_value {fn a b : Nat} (hf : fn < 8) (ha : a < 2 ^ 32) (hb : b < 2 ^ 32) : (aluResult fn a b).1 % 2 ^ 32 = aluValue fn a b := by
  unfold aluValue
  split
  case h_1 => rfl
  case h_2 =>
    rw [Nat.add_sub_assoc (Nat.le_of_lt hb)]
    rfl
  case h_3 => exact Nat.mod_eq_of_lt (Nat.lt_of_le_of_lt Nat.and_le_left ha)
  case h_4 => exact Nat.mod_eq_of_lt (Nat.or_lt_two_pow ha hb)
  case h_5 => exact Nat.mod_eq_of_lt (Nat.xor_lt_two_pow ha hb)
  case h_6 => exact Nat.mod_eq_of_lt ha
  case h_7 => rfl
  case h_8 h0 h1 h2 h3 h4 h5 h6 =>
    have hne : fn ≠ 0 ∧ fn ≠ 1 ∧ fn ≠ 2 ∧ fn ≠ 3 ∧ fn ≠ 4 ∧ fn ≠ 5 ∧ fn ≠ 6 := ⟨h0, h1, h2, h3, h4, h5, h6⟩
    obtain rfl : fn = 7 := by omega
    exact Nat.mod_eq_of_lt (Nat.lt_of_le_of_lt (Nat.div_le_self a 2) ha)

theorem bitsOf_lt (x lo k : Nat) : bitsOf x lo k < 2 ^ k := Nat.mod_lt _ (Nat.two_pow_pos k)

/-- A sum with a signed immediate, in 32 bits. -/
theorem addImm_value (a : Nat) (v : Int) : (a + ofSigned 32 v) % 2 ^ 32 = (((a : Int) + v) % 2 ^ 32).toNat := by
  have hv : ((ofSigned 32 v : Nat) : Int) = v % 2 ^ 32 := Int.toNat_of_nonneg (Int.emod_nonneg _ (by decide))
  rw [← Int.toNat_natCast ((a + ofSigned 32 v) % 2 ^ 32), Int.natCast_mod, Int.natCast_add, hv]
  exact congrArg Int.toNat (Int.add_emod_emod ..)

/-! ### Registers and flags -/

/-- The operation with a result in a register and its flags. -/
def EcOp.result (o : EcOp) (i x : Nat) (c : Bool) : EcOp := { o with g := o.g.set i x, z := x == 0, n := x.testBit 31, c := c }

namespace Device.OpNow

theorem ecSet (h : OpNow q d e p) (i v : Nat) : OpNow q d (e.ecSet q i v) { p with g := p.g.set i (v % 2 ^ 32) } :=
  h.updOp fun o => { o with g := o.g.set i (v % 2 ^ 32) }

theorem ecResult (h : OpNow q d e p) (i v : Nat) (c : Bool) {x : Nat} (hx : v % 2 ^ 32 = x) :
    OpNow q d (e.ecResult q i v c) (p.result i x c) := by
  subst hx
  have h' := (h.ecSet i (v % 2 ^ 32)).updOp fun o => { o with z := v % 2 ^ 32 == 0, n := (v % 2 ^ 32).testBit 31, c := c }
  rw [Nat.mod_mod] at h'
  exact h'

theorem freeFlag (h : OpNow q d e p) : OpNow q d e.freeFlag.2 p := h.fresh (e.fresh + 1)

end Device.OpNow

/-- A value that a word holds already, read into a register. -/
theorem ecWent_set (h : Device.OpNow q d e { o with words := o.words + 1 }) (htr : ∀ k < 8, d.rd (EC_TRAP_EN q k) = 0) (i : Nat) {v t : Nat}
    (hv : v < 2 ^ 32) (ht : t < 2 ^ 15) : ecWent q { o with g := o.g.set i v } t d ((e.ecSet q i v).ecGo q t) := by
  have h' := h.ecSet i v
  rw [Nat.mod_eq_of_lt hv] at h'
  exact ecWent_of (o := { o with g := o.g.set i v }) h' htr ht

/-- A result with its flags. -/
theorem ecWent_result (h : Device.OpNow q d e { o with words := o.words + 1 }) (htr : ∀ k < 8, d.rd (EC_TRAP_EN q k) = 0) (i : Nat) {v x t : Nat}
    (c : Bool) (hx : v % 2 ^ 32 = x) (ht : t < 2 ^ 15) :
    ecWent q (o.result i x c) t d ((e.ecResult q i v c).ecGo q t) :=
  ecWent_of (o := o.result i x c) (h.ecResult i v c hx) htr ht

/-! ### Words that compute -/

theorem ecNopEff_goes (h : d.ecAt q o w 0x00) : ecWent q o (o.pc + 1) d (ecNopEff q w .good d) := by
  rw [ecNopEff, Device.ecStep_does h]
  exact ecWent_of (Device.ecAt_counted h) (Device.ecAt_traps h) (Device.ecAt_pc h)

theorem ecLdiEff_goes (h : d.ecAt q o w 0x01) :
    ecWent q { o with g := o.g.set (bitsOf w.toNat 23 4) (bitsOf w.toNat 0 16) } (o.pc + 1) d (ecLdiEff q w .good d) := by
  rw [ecLdiEff, Device.ecStep_does h]
  have hlt := bitsOf_lt w.toNat 0 16
  exact ecWent_set (Device.ecAt_counted h) (Device.ecAt_traps h) _ (by omega) (Device.ecAt_pc h)

/-- The addition, whose carry the spec gives. -/
theorem ecAluEff_adds (h : d.ecAt q o w 0x02) (hf : bitsOf w.toNat 12 3 = 0) {a b : Nat} (ha : o.reg (bitsOf w.toNat 19 4) = a)
    (hb : o.reg (bitsOf w.toNat 15 4) = b) :
    ecWent q (o.result (bitsOf w.toNat 23 4) (aluValue 0 a b) (decide (2 ^ 32 ≤ a + b))) (o.pc + 1) d (ecAluEff q w .good d) := by
  rw [ecAluEff, Device.ecStep_does h, hf, ha, hb]
  exact ecWent_result (Device.ecAt_counted h) (Device.ecAt_traps h) _ _ rfl (Device.ecAt_pc h)

theorem ecAluEff_goes (h : d.ecAt q o w 0x02) (hg : ∀ v ∈ o.g, v < 2 ^ 32) {x : Nat}
    (hx : aluValue (bitsOf w.toNat 12 3) (o.reg (bitsOf w.toNat 19 4)) (o.reg (bitsOf w.toNat 15 4)) = x) :
    ∃ c, ecWent q (o.result (bitsOf w.toNat 23 4) x c) (o.pc + 1) d (ecAluEff q w .good d) := by
  have hval := (aluResult_value (bitsOf_lt w.toNat 12 3) (o.reg_lt hg (bitsOf w.toNat 19 4)) (o.reg_lt hg (bitsOf w.toNat 15 4))).trans hx
  rw [ecAluEff, Device.ecStep_does h]
  dsimp only
  cases (aluResult (bitsOf w.toNat 12 3) (o.reg (bitsOf w.toNat 19 4)) (o.reg (bitsOf w.toNat 15 4))).2 with
  | some c => exact ⟨c, ecWent_result (Device.ecAt_counted h) (Device.ecAt_traps h) _ c hval (Device.ecAt_pc h)⟩
  | none => exact ⟨_, ecWent_result (Device.ecAt_counted h).freeFlag (Device.ecAt_traps h) _ _ hval (Device.ecAt_pc h)⟩

theorem ecAddiEff_goes (h : d.ecAt q o w 0x03) {x : Nat}
    (hx : (((o.reg (bitsOf w.toNat 19 4) : Int) + toSigned 12 (bitsOf w.toNat 0 12)) % 2 ^ 32).toNat = x) :
    ∃ c, ecWent q (o.result (bitsOf w.toNat 23 4) x c) (o.pc + 1) d (ecAddiEff q w .good d) := by
  rw [ecAddiEff, Device.ecStep_does h]
  exact ⟨_, ecWent_result (Device.ecAt_counted h) (Device.ecAt_traps h) _ _ ((addImm_value _ _).trans hx) (Device.ecAt_pc h)⟩

/-- A read port whose value leaves the device alone. -/
theorem ecRdpEff_goes (h : d.ecAt q o w 0x04) {v : Nat} (hv : v < 2 ^ 32) (hport : ∀ e : Device, e.readPort q o (bitsOf w.toNat 0 8) = some (v, e)) :
    ecWent q { o with g := o.g.set (bitsOf w.toNat 23 4) v } (o.pc + 1) d (ecRdpEff q w .good d) := by
  rw [ecRdpEff, Device.ecStep_does h]
  rw [hport]
  exact ecWent_set (Device.ecAt_counted h) (Device.ecAt_traps h) _ hv (Device.ecAt_pc h)

theorem Device.readPort_desc (d : Device) (q : SeqId) (o : EcOp) {i : Nat} (hi : i < 16) : d.readPort q o i = some (o.desc.getD i 0, d) := if_pos hi

theorem EcOp.count_lt (o : EcOp) : o.count < 2 ^ 16 := bitsOf_lt _ _ _

/-! ### Words that choose the next address -/

theorem ecJmpEff_goes (h : d.ecAt q o w 0x07) : ecWent q o (bitsOf w.toNat 0 15) d (ecJmpEff q w .good d) := by
  rw [ecJmpEff, Device.ecStep_does h]
  exact ecWent_of (Device.ecAt_counted h) (Device.ecAt_traps h) (bitsOf_lt _ _ _)

/-- A branch on a condition whose value the count of words does not touch. -/
theorem ecBrEff_goes (h : d.ecAt q o w 0x08) {x : CondObs} {b : Bool}
    (hb : (d.updOp q fun o => { o with words := o.words + 1 }).cond q o x (bitsOf w.toNat 22 5) = b) :
    ecWent q o (if b = decide (bitsOf w.toNat 21 1 = 1) then bitsOf w.toNat 0 15 else o.pc + 1) d (ecBrEff q w .good x d) := by
  have hs : (bitsOf w.toNat 21 1 == 1) = decide (bitsOf w.toNat 21 1 = 1) := rfl
  have hlt : (if b = decide (bitsOf w.toNat 21 1 = 1) then bitsOf w.toNat 0 15 else o.pc + 1) < 2 ^ 15 := by
    split
    · exact bitsOf_lt _ _ _
    · exact Device.ecAt_pc h
  rw [ecBrEff, Device.ecStep_does h]
  rw [hb, hs, beq_eq_decide]
  simp only [decide_eq_true_eq]
  exact ecWent_of (Device.ecAt_counted h) (Device.ecAt_traps h) hlt

theorem ecMwbEff_goes (h : d.ecAt q o w 0x09) {x : CondObs} {g : Nat}
    (hg : (d.updOp q fun o => { o with words := o.words + 1 }).condGroup q o x (bitsOf w.toNat 24 3) = g) :
    ecWent q o (bitsOf w.toNat 0 15 ||| (g &&& bitsOf w.toNat 20 4)) d (ecMwbEff q w .good x d) := by
  have hm : g &&& bitsOf w.toNat 20 4 < 2 ^ 15 := Nat.lt_of_le_of_lt Nat.and_le_right (Nat.lt_trans (bitsOf_lt w.toNat 20 4) (by decide))
  rw [ecMwbEff, Device.ecStep_does h]
  rw [hg]
  exact ecWent_of (Device.ecAt_counted h) (Device.ecAt_traps h) (Nat.or_lt_two_pow (bitsOf_lt _ _ _) hm)

theorem Device.condGroup_six (d : Device) (q : SeqId) (o : EcOp) (x : CondObs) :
    d.condGroup q o x 6 = (if o.z then 1 else 0) + (if o.n then 2 else 0) + (if o.c then 4 else 0) + (if d.duplex then 8 else 0) := by
  show ((((0 + if o.z then 1 else 0) + if o.n then 2 else 0) + if o.c then 4 else 0) + if d.duplex then 8 else 0) = _
  rw [Nat.zero_add]

theorem Device.duplex_updOp (d : Device) (q : SeqId) (f : EcOp → EcOp) : (d.updOp q f).duplex = d.duplex := Device.bit_updOp _ _ _ _

theorem ecCallEff_goes (h : d.ecAt q o w 0x0A) (hl : o.stack.length < 4) :
    ecWent q { o with stack := (o.pc + 1) :: o.stack } (bitsOf w.toNat 0 15) d (ecCallEff q w .good d) := by
  rw [ecCallEff, Device.ecStep_does h]
  have hnow := (Device.ecAt_counted h).updOp fun p => { p with stack := (p.pc + 1) % 2 ^ 15 :: p.stack }
  dsimp only at hnow
  rw [Nat.mod_eq_of_lt (Device.ecAt_pc h)] at hnow
  rw [if_neg (by omega)]
  exact ecWent_of (o := { o with stack := (o.pc + 1) :: o.stack }) hnow (Device.ecAt_traps h) (bitsOf_lt _ _ _)

theorem ecRetEff_goes (h : d.ecAt q o w 0x0B) {a : Nat} {as : List Nat} (hs : o.stack = a :: as) (ha : a < 2 ^ 15) :
    ecWent q { o with stack := as } a d (ecRetEff q w .good d) := by
  rw [ecRetEff, Device.ecStep_does h]
  rw [hs]
  exact ecWent_of (o := { o with stack := as }) ((Device.ecAt_counted h).updOp fun p => { p with stack := as }) (Device.ecAt_traps h) ha

/-- A machine check from a microword already counted. -/
theorem Device.ecAt_checks (h : d.ecAt q o w n) (hg : (d.wrp q.lane).gate = none) (hr : o.retryFlag = false) (hs : (d.wrp q.lane).stepsAsked = false)
    {cause : Nat} (h1 : (cause == 1) = false) (h7 : (cause == 7) = false) (hc : cause < 16) :
    machineChecked q cause o.pc d ((d.updOp q fun o => { o with words := o.words + 1 }).machineCheck q cause o.pc) := by
  have hpc := Device.ecAt_pc h
  exact (Device.ecAt_counted h).machineChecks hg hr hs h1 h7 hc (by omega)

theorem ecCallEff_overflows (h : d.ecAt q o w 0x0A) (hl : o.stack.length = 4) (hg : (d.wrp q.lane).gate = none) (hr : o.retryFlag = false)
    (hs : (d.wrp q.lane).stepsAsked = false) : machineChecked q 4 o.pc d (ecCallEff q w .good d) := by
  rw [ecCallEff, Device.ecStep_does h]
  rw [if_pos (by omega)]
  exact Device.ecAt_checks h hg hr hs rfl rfl (by decide)

theorem ecRetEff_underflows (h : d.ecAt q o w 0x0B) (hl : o.stack = []) (hg : (d.wrp q.lane).gate = none) (hr : o.retryFlag = false)
    (hs : (d.wrp q.lane).stepsAsked = false) : machineChecked q 4 o.pc d (ecRetEff q w .good d) := by
  rw [ecRetEff, Device.ecStep_does h]
  rw [hl]
  exact Device.ecAt_checks h hg hr hs rfl rfl (by decide)

/-! ### Words that act -/

/-- A write port that changes the operation alone. -/
theorem Device.ecWritePort_goes (h : Device.OpNow q d e { o with words := o.words + 1 }) (htr : ∀ k < 8, d.rd (EC_TRAP_EN q k) = 0)
    (hpc : o.pc + 1 < 2 ^ 15) {i v : Nat} {f : EcOp → EcOp} (hport : e.writePort q o i v = some (e.updOp q f))
    (hf : f { o with words := o.words + 1 } = { f o with words := (f o).words + 1 }) :
    ecWent q (f o) (o.pc + 1) d (e.ecWritePort q o i v) := by
  rw [Device.ecWritePort, hport]
  exact ecWent_of (o := f o) (hf ▸ h.updOp f) htr hpc

theorem ecWrpEff_setsK (h : d.ecAt q o w 0x05) (hp : bitsOf w.toNat 0 8 = 0x24) :
    ecWent q { o with k := o.reg (bitsOf w.toNat 23 4) } (o.pc + 1) d (ecWrpEff q w .good d) := by
  rw [ecWrpEff, Device.ecStep_does h]
  rw [hp]
  exact Device.ecWritePort_goes (f := fun p => { p with k := o.reg (bitsOf w.toNat 23 4) }) (Device.ecAt_counted h) (Device.ecAt_traps h)
    (Device.ecAt_pc h) rfl rfl

theorem ecWrpiEff_next (h : d.ecAt q o w 0x06) (hp : bitsOf w.toNat 0 8 = 0x23) (hk : o.k + 1 < o.count) :
    ecWent q { o with k := o.k + 1 } (o.pc + 1) d (ecWrpiEff q w .good d) := by
  rw [ecWrpiEff, Device.ecStep_does h]
  rw [hp]
  exact Device.ecWritePort_goes (f := fun p => { p with k := p.k + 1 }) (Device.ecAt_counted h) (Device.ecAt_traps h) (Device.ecAt_pc h)
    (if_neg (by omega)) rfl

theorem ecWrpiEff_withdraws (h : d.ecAt q o w 0x06) (hp : bitsOf w.toNat 0 8 = 0x20) (hv : bitsOf w.toNat 8 16 = 0) :
    ecWent q { o with rArms := [] } (o.pc + 1) d (ecWrpiEff q w .good d) := by
  rw [ecWrpiEff, Device.ecStep_does h]
  rw [hp, hv]
  exact Device.ecWritePort_goes (f := fun p => { p with rArms := [] }) (Device.ecAt_counted h) (Device.ecAt_traps h) (Device.ecAt_pc h) rfl rfl

theorem ecWrpiEff_nextFails (h : d.ecAt q o w 0x06) (hp : bitsOf w.toNat 0 8 = 0x23) (hk : o.count ≤ o.k + 1) (hg : (d.wrp q.lane).gate = none)
    (hr : o.retryFlag = false) (hs : (d.wrp q.lane).stepsAsked = false) : machineChecked q 6 o.pc d (ecWrpiEff q w .good d) := by
  have hport : ∀ (e : Device) (v : Nat), e.writePort q o 0x23 v = none := fun e v => if_pos hk
  rw [ecWrpiEff, Device.ecStep_does h]
  rw [hp, Device.ecWritePort, hport]
  exact Device.ecAt_checks h hg hr hs rfl rfl (by decide)

theorem ecWaitEff_waits (h : d.ecAt q o w 0x0C) (hc : d.rd (EC_STOP_CAUSES q) = 0) :
    Device.OpNow q d (ecWaitEff q w .good d) { o with wait := some ⟨bitsOf w.toNat 22 5, bitsOf w.toNat 21 1 == 1⟩, words := 0 } := by
  obtain ⟨hop, -⟩ := id h
  rw [ecWaitEff, Device.ecStep_safe h, Device.safePoint_quiet (by rw [Device.rd_updOp, hc])]
  exact ((Device.OpNow.refl hop).updOp fun p => { p with wait := some ⟨bitsOf w.toNat 22 5, bitsOf w.toNat 21 1 == 1⟩ }).updOp
    fun p => { p with words := 0 }

theorem ecTrap_ne (q : SeqId) (k : Nat) {b : Nat} (hb : b < 0xC0) : (EC_TRAP_EN q k).reg ≠ q.base + b := by
  show q.base + 0xC0 + 4 * k ≠ q.base + b
  omega

/-- SAFE: the phase stored, the next address, and the safe point. -/
theorem ecSafeEff_goes (h : d.ecAt q o w 0x0D) (hc : d.rd (EC_STOP_CAUSES q) = 0) :
    ecSafeEff q w .good d = ((d.wr (EC_PROG_PHASE q) (bitsOf w.toNat 0 4)).ecGo q (o.pc + 1)).updOp q fun p => { p with words := 0 } := by
  have htr : ∀ k < 8, (d.wr (EC_PROG_PHASE q) (bitsOf w.toNat 0 4)).rd (EC_TRAP_EN q k) = 0 := fun k hk => by
    rw [Device.rd_wr_reg _ _ (ecTrap_ne q k (by decide)), Device.ecAt_traps h k hk]
  rw [ecSafeEff, Device.ecStep_safe h]
  refine Device.safePoint_quiet ?_
  rw [Device.ecGo_to htr (Device.ecAt_pc h), Device.rd_wr_reg _ _ (ecReg_ne q (by decide)), Device.rd_updOp,
    Device.rd_wr_reg _ _ (ecReg_ne q (by decide)), hc]

/-- END at a quiet safe point, with no verdict to wait for: the operation ends with the word's code. -/
theorem ecEndEff_ends (h : d.ecAt q o w 0x0E) (hc : d.rd (EC_STOP_CAUSES q) = 0) (hv : o.verify = false) (hr : o.retryFlag = false)
    (hs : (d.wrp q.lane).stepsAsked = false) :
    ecEndEff q w .good d = (d.updOp q fun p => { p with words := 0 }).opEnded q { o with words := 0 } 0 (bitsOf w.toNat 0 8) 0 := by
  obtain ⟨hop, hfetch, -⟩ := id h
  have hnow : Device.OpNow q d (d.updOp q fun p => { p with words := 0 }) { o with words := 0 } := (Device.OpNow.refl hop).updOp fun p => { p with words := 0 }
  have hstop : o.stopping.isSome = false := by
    simp only [EcOp.fetching, Bool.and_eq_true, Option.isNone_iff_eq_none] at hfetch
    rw [hfetch.1.1.2]
    rfl
  have hv' : ({ o with words := 0 } : EcOp).verify = false := hv
  have hs' : (((d.updOp q fun p => { p with words := 0 }).opEnded q { o with words := 0 } 0 (bitsOf w.toNat 0 8) 0).wrp q.lane).stepsAsked = false := by
    rw [Device.opEnded_wrp, hnow.wrp, hs]
  rw [ecEndEff, Device.ecStep_safe h]
  dsimp only
  rw [Device.safePoint_quiet hc, hnow.op]
  dsimp only
  rw [hv', if_neg (by rw [hstop]; decide), Bool.false_and, Bool.false_and, if_neg (by decide), Device.completeOp_running hnow.op,
    Device.afterOp_plain hr hs']

/-! ### Waits -/

theorem waitEndEff_ends {t : EcWait} {m : Bool} {x : CondObs} (hop : (d.ec q).op = some o) (hw : o.wait = some t) (hm : m = true ∨ d.cond q o x t.c = t.s) :
    waitEndEff q m x d = (d.updOp q fun o => { o with wait := none, tmo := m, words := 0 }).ecGo q (o.pc + 1) := by
  unfold waitEndEff
  rw [hop]
  dsimp only
  rw [hw]
  refine if_neg ?_
  rcases hm with hm | hm <;> simp [hm]

theorem waitEndEff_waits {t : EcWait} {x : CondObs} (hop : (d.ec q).op = some o) (hw : o.wait = some t) (hm : d.cond q o x t.c ≠ t.s) :
    waitEndEff q false x d = d := by
  unfold waitEndEff
  rw [hop]
  dsimp only
  rw [hw]
  exact if_pos (by simp [hm])

end Sys2Proof.Machine

open Sys2Proof Sys2Proof.Machine

/-- Settles O46: every word over one account of a counted step, its next address, a machine check and an operation's end. -/
theorem microwordsComputeChooseAndAct : Obligations.MicrowordsComputeChooseAndAct := by
  refine ⟨?_, ?_, ?_⟩
  · intro s q w o hg hd
    refine ⟨fun h => ?_, fun h => ?_, fun h hf => ?_, fun h => ?_, fun h => ?_, fun h hp => ?_, fun h hp hk => ?_, fun h hp => ?_⟩
    · exact givesThat_eff (ecNopEff q w .good) rfl (ecNopEff_goes h)
    · exact givesThat_eff (ecLdiEff q w .good) rfl (ecLdiEff_goes h)
    · exact givesThat_eff (ecAluEff q w .good) rfl (ecAluEff_adds h hf rfl rfl)
    · exact givesThat_eff (ecAluEff q w .good) rfl (ecAluEff_goes h hg rfl)
    · exact givesThat_eff (ecAddiEff q w .good) rfl (ecAddiEff_goes h rfl)
    · exact givesThat_eff (ecRdpEff q w .good) rfl (ecRdpEff_goes h (o.w_lt hd _) fun e => e.readPort_desc q o hp)
    · exact givesThat_eff (ecRdpEff q w .good) rfl (ecRdpEff_goes h hk fun e => by rw [hp]; rfl)
    · have hlt := o.count_lt
      exact givesThat_eff (ecRdpEff q w .good) rfl (ecRdpEff_goes h (v := o.count - o.k) (by omega) fun e => by rw [hp]; rfl)
  · intro s q w o x
    refine ⟨fun h => ?_, fun h hc => ?_, fun h hc => ?_, fun h hc => ?_, fun h hc => ?_, fun h hg => ?_, fun h hl => ?_, fun h hl hg hr hs => ?_,
      fun a as h hs ha => ?_, fun h hl hg hr hs => ?_⟩
    · exact givesThat_eff (ecJmpEff q w .good) rfl (ecJmpEff_goes h)
    · have hgo := ecBrEff_goes h (x := x) (b := true) (by rw [hc]; rfl)
      refine givesThat_eff (ecBrEff q w .good x) rfl ?_
      simpa only [eq_comm (a := true), decide_eq_true_eq] using hgo
    · exact givesThat_eff (ecBrEff q w .good x) rfl (ecBrEff_goes h (by rw [hc]; rfl))
    · exact givesThat_eff (ecBrEff q w .good x) rfl (ecBrEff_goes h (by rw [hc]; rfl))
    · exact givesThat_eff (ecBrEff q w .good x) rfl (ecBrEff_goes h (by rw [hc]; exact s.dev.inhibited_updOp q _ q.lane))
    · refine givesThat_eff (ecMwbEff q w .good x) rfl (ecMwbEff_goes h ?_)
      rw [hg, Device.condGroup_six, Device.duplex_updOp]
    · exact givesThat_eff (ecCallEff q w .good) rfl (ecCallEff_goes h hl)
    · exact givesThat_eff (ecCallEff q w .good) rfl (ecCallEff_overflows h hl hg hr hs)
    · exact givesThat_eff (ecRetEff q w .good) rfl (ecRetEff_goes h hs ha)
    · exact givesThat_eff (ecRetEff q w .good) rfl (ecRetEff_underflows h hl hg hr hs)
  · intro s q w o x
    refine ⟨fun h hp => ?_, fun h hp hk => ?_, fun h hp hv => ?_, fun h hp hk hg hr hs => ?_, fun h hc => ?_, fun h hc => ?_, fun h hc hv hr hs => ?_,
      fun t m hop hw hm hpc htr => ?_, fun t hop hw hm => ?_, fun h => ?_, fun hop hf hpc hl hg hr hs => ?_⟩
    · exact givesThat_eff (ecWrpEff q w .good) rfl (ecWrpEff_setsK h hp)
    · exact givesThat_eff (ecWrpiEff q w .good) rfl (ecWrpiEff_next h hp hk)
    · exact givesThat_eff (ecWrpiEff q w .good) rfl (ecWrpiEff_withdraws h hp hv)
    · exact givesThat_eff (ecWrpiEff q w .good) rfl (ecWrpiEff_nextFails h hp hk hg hr hs)
    · have hnow := ecWaitEff_waits h hc
      exact givesThat_eff (ecWaitEff q w .good) rfl ⟨hnow.op, hnow.untouched []⟩
    · refine givesThat_eff (ecSafeEff q w .good) rfl ?_
      obtain ⟨hop, -⟩ := id h
      have htr : ∀ k < 8, (s.dev.wr (EC_PROG_PHASE q) (bitsOf w.toNat 0 4)).rd (EC_TRAP_EN q k) = 0 := fun k hk => by
        rw [Device.rd_wr_reg _ _ (ecTrap_ne q k (by decide)), Device.ecAt_traps h k hk]
      have hnow : Device.OpNow q (s.dev.wr (EC_PROG_PHASE q) (bitsOf w.toNat 0 4)) (s.dev.wr (EC_PROG_PHASE q) (bitsOf w.toNat 0 4)) o :=
        .refl (by rw [Device.ec_wr, hop])
      obtain ⟨hop', hpc', hframe⟩ := hnow.gone htr (Device.ecAt_pc h)
      have hphase := hframe.rd (EC_PROG_PHASE q) (by
        rw [List.mem_singleton]
        exact ecReg_ne q (by decide))
      have hphase' : (s.dev.wr (EC_PROG_PHASE q) (bitsOf w.toNat 0 4)).rd (EC_PROG_PHASE q) = bitsOf w.toNat 0 4 := by
        rw [Device.rd_wr_same _ _ (show 28 + 4 ≤ 32 by decide)]
        exact Nat.mod_eq_of_lt (bitsOf_lt w.toNat 0 4)
      have hall : Device.Frame [EC_STATUS q, EC_PROG q] s.dev
          (((s.dev.wr (EC_PROG_PHASE q) (bitsOf w.toNat 0 4)).ecGo q (o.pc + 1)).updOp q fun p => { p with words := 0 }) :=
        ((((Device.Frame.refl _ s.dev).wr (EC_PROG_PHASE q) _ (by simp [EC_PROG_PHASE])).trans (hframe.mono (by simp)))).updOp _ _
      rw [ecSafeEff_goes h hc, Device.updOp_same, hop', Device.rd_updOp, Device.rd_updOp, hphase, hphase', hpc']
      refine ⟨rfl, rfl, rfl, hall.untouched ?_⟩
      simp only [List.mem_cons, List.not_mem_nil, or_false, not_or]
      exact ⟨fun h => ecReg_apart q (by decide) (.inr (by decide)) h.symm, fun h => ecReg_apart q (by decide) (.inr (by decide)) h.symm⟩
    · refine givesThat_eff (ecEndEff q w .good) rfl ?_
      rw [ecEndEff_ends h hc hv hr hs]
      obtain ⟨hnone, hcpls⟩ := (s.dev.updOp q fun p => { p with words := 0 }).opEnded_ec q { o with words := 0 } 0 (bitsOf w.toNat 0 8) 0
      obtain ⟨hint, hrun⟩ := (s.dev.updOp q fun p => { p with words := 0 }).opEnded_shows q { o with words := 0 } 0 (bitsOf w.toNat 0 8) 0
      have hframe := ((Device.Frame.refl [EC_STATUS q, EC_INT q] s.dev).updOp q fun p => { p with words := 0 }).opEnded q { o with words := 0 } 0
        (bitsOf w.toNat 0 8) 0 (by simp) (by simp)
      refine ⟨hnone, hint, hrun, ⟨_, hcpls.trans (by rw [Device.updOp_cpls]), ?_, rfl⟩, hframe.untouched ?_⟩
      · show 0 * 2 ^ 24 + bitsOf w.toNat 0 8 % 256 * 2 ^ 16 + 0 * 2 ^ 8 = _
        have hlt := bitsOf_lt w.toNat 0 8
        omega
      · simp only [List.mem_cons, List.not_mem_nil, or_false, not_or]
        exact ⟨fun h => ecReg_apart q (by decide) (.inr (by decide)) h.symm, fun h => ecReg_apart q (by decide) (.inr (by decide)) h.symm⟩
    · refine givesThat_eff (waitEndEff q m x) rfl ?_
      rw [waitEndEff_ends hop hw hm]
      obtain ⟨hop', -, hframe⟩ := ((Device.OpNow.refl hop).updOp fun o => { o with wait := none, tmo := m, words := 0 }).gone htr
        (t := o.pc + 1) (by omega)
      exact ⟨hop', hframe.untouched (sramPart_notMem_status q)⟩
    · exact gives_eff (waitEndEff q false x) rfl (waitEndEff_waits hop hw hm)
    · exact ⟨gives_eff (ecNopEff q w .good) rfl (Device.ecStep_idle h _ _ _), gives_eff (ecWrpEff q w .good) rfl (Device.ecStep_idle h _ _ _),
        gives_eff (ecEndEff q w .good) rfl (Device.ecStep_idle h _ _ _)⟩
    · refine givesThat_eff (ecNopEff q w .good) rfl ?_
      rw [ecNopEff, Device.ecStep_illegal hop hf hpc hl]
      exact Device.machineCheck_checks hop hg hr hs rfl rfl (by decide) (by omega)

end

section
/-!
Operations from post to completion (R304 to R331).
-/
namespace Sys2Proof.Machine

variable {d e : Device} {q : SeqId} {o : EcOp}

/-! ### Posting and control -/

/-- The queue with one more descriptor, the refusal's fields clear. -/
def Device.posted (d : Device) (q : SeqId) (desc : List Nat) : Device :=
  ((d.wr (EC_POST_REFUSED q) 0).wr (EC_POST_REASON q) 0).updEc q fun x => { x with queue := x.queue ++ [desc] }

theorem postGoEff_queues (h : d.postReason q (d.staged q) = 0) : postGoEff q d = d.posted q (d.staged q).desc := if_pos h

/-- A refusal shown with its reason. -/
def Device.postRefused (d : Device) (q : SeqId) (r : Nat) : Device :=
  ((d.wr (EC_POST_REFUSED q) 1).wr (EC_POST_REASON q) r).wr (EC_INT_REFUSED q) 1

theorem postGoEff_refuses (h : d.postReason q (d.staged q) ≠ 0) : postGoEff q d =
    (d.postRefused q (d.postReason q (d.staged q))).logRate q.lane.src 0x2023 q.idx [d.postReason q (d.staged q)] := if_neg h

theorem Device.postReason_lt (d : Device) (q : SeqId) (o : EcOp) : d.postReason q o < 16 := by
  unfold Device.postReason
  dsimp only
  split_ifs <;> decide

theorem Device.postRefused_shows (d : Device) (q : SeqId) {r : Nat} (hr : r < 16) :
    (d.postRefused q r).rd (EC_POST_REFUSED q) = 1 ∧ (d.postRefused q r).rd (EC_POST_REASON q) = r ∧ (d.postRefused q r).rd (EC_INT_REFUSED q) = 1 := by
  refine ⟨?_, ?_, ?_⟩
  · rw [Device.postRefused, Device.rd_wr_reg _ _ (ecReg_ne q (by decide)), Device.rd_wr_bits _ _ (.inr (show 24 + 4 ≤ 30 by decide)),
      Device.rd_wr_same _ _ (show 30 + 1 ≤ 32 by decide)]
    rfl
  · rw [Device.postRefused, Device.rd_wr_reg _ _ (ecReg_ne q (by decide)), Device.rd_wr_same _ _ (show 24 + 4 ≤ 32 by decide)]
    exact Nat.mod_eq_of_lt hr
  · rw [Device.postRefused, Device.rd_wr_same _ _ (show 2 + 1 ≤ 32 by decide)]
    rfl

theorem Device.ec_logRate (d : Device) (src code scope : Nat) (ps : List Nat) (q : SeqId) : (d.logRate src code scope ps).ec q = d.ec q := by
  simp only [Device.ec, Device.lane_logRate]

/-- A register of a sequencer is not the log's status. -/
theorem ecReg_log (q : SeqId) {a : Nat} (ha : a < 0x8000) : q.base + a ≠ RG_LOGSTAT := ecReg_apart q ha (.inr (by decide))

/-- The partition of SRAM is no register of a sequencer. -/
theorem ecReg_sram (q : SeqId) {a : Nat} (ha : a < 0x8000) : CB_SRAMPART ≠ q.base + a := fun h => ecReg_apart q ha (.inr (by decide)) h.symm

theorem ecEnEff_free (hh : d.held1 q.lane = false) (hp : d.rd (EC_STATUS_PATCHERR q) = 0) (b : Bool) :
    ecEnEff q b d = d.wr (EC_CTRL_EN q) (if b then 1 else 0) := if_neg (by simp [hh, hp])

theorem ecEnEff_held (hh : d.held1 q.lane = true) : ecEnEff q true d = d := if_pos (by simp [hh])

theorem ecFlushEff_one {c : List Nat} (h : (d.ec q).queue = [c]) :
    ecFlushEff q d = (d.updEc q fun x => { x with queue := [], cpls := x.cpls ++ [[4 * 2 ^ 24, c.getD 9 0, 0, 0xFFFF0000]] }).wr (EC_INT_CPL q) 1 := by
  unfold ecFlushEff
  rw [h]
  rfl

theorem ecFlushEff_empty (h : (d.ec q).queue = []) : ecFlushEff q d = d := by
  unfold ecFlushEff
  rw [h]
  rfl

theorem ecCplPopEff_pops {c : List Nat} {cs : List (List Nat)} (h : (d.ec q).cpls = c :: cs) :
    ecCplPopEff q d = (d.updEc q fun x => { x with cpls := cs }).emit (.reply none (.data (c.getD 3 0))) := by
  unfold ecCplPopEff
  rw [h]
  rfl

theorem Device.ec_emit (d : Device) (o : Output) (q : SeqId) : (d.emit o).ec q = d.ec q := by simp only [Device.ec, Device.lane_emit]

/-! ### Dispatch -/

theorem dispatchEff_waits (b : Bool) (h : (d.ec q).queue = [] ∨ (d.ec q).op ≠ none ∨ d.bit (EC_CTRL_EN q) = false ∨ d.bit (EC_STATUS_HALT q) = true ∨
    d.dispatchBarred q.lane = true) : dispatchEff q b d = d := by
  unfold dispatchEff
  cases hq : (d.ec q).queue with
  | nil => rfl
  | cons c cs =>
    refine if_pos ?_
    rcases h with h | h | h | h | h
    · simp [hq] at h
    · simp [Option.isSome_iff_ne_none.2 h]
    · simp [h]
    · simp [h]
    · simp [h]

/-- The oldest operation running, its program counts clear, no stop asked. -/
def Device.dispatched (d : Device) (q : SeqId) (c : List Nat) (cs : List (List Nat)) : Device :=
  (((d.updEc q fun x => { x with queue := cs, op := some { desc := c } }).setWord (EC_PROG q) 0).wr (EC_STATUS_RUN q) 1).wr (EC_STOP_CAUSES q) 0

theorem Device.ec_setWord (d : Device) (a : Nat) (w : Word) (q : SeqId) : (d.setWord a w).ec q = d.ec q := by simp only [Device.ec, Device.lane_setWord]

theorem Device.dispatched_ec (d : Device) (q : SeqId) (c : List Nat) (cs : List (List Nat)) :
    (d.dispatched q c cs).ec q = { d.ec q with queue := cs, op := some { desc := c } } := by
  rw [Device.dispatched, Device.ec_wr, Device.ec_wr, Device.ec_setWord, Device.updEc_same]

theorem Device.dispatched_sv (d : Device) (q : SeqId) (c : List Nat) (cs : List (List Nat)) (l : Lane) : (d.dispatched q c cs).sv l = d.sv l := by
  rw [Device.dispatched, Device.sv, Device.lane_wr, Device.lane_wr, Device.lane_setWord, ← Device.sv, Device.sv_updEc]

theorem Device.rd_dispatched (d : Device) (q : SeqId) (c : List Nat) (cs : List (List Nat)) {f : RF} (hs : f.reg ≠ EC_STATUS q) (hp : f.reg ≠ EC_PROG q)
    (hc : f.reg ≠ EC_STOP q) : (d.dispatched q c cs).rd f = d.rd f := by
  rw [Device.dispatched, Device.rd_wr_reg _ _ hc, Device.rd_wr_reg _ _ hs,
    Device.rd_of_word (Device.word_setWord_other _ _ hp), Device.rd_updEc]

theorem Device.rd_dispatched_pvec (d : Device) (q : SeqId) (c : List Nat) (cs : List (List Nat)) :
    (d.dispatched q c cs).rd (EC_STATUS_PVEC q) = d.rd (EC_STATUS_PVEC q) := by
  rw [Device.dispatched, Device.rd_wr_reg _ _ (ecReg_ne q (by decide)), Device.rd_wr_bits _ _ (.inl (show 27 + 1 ≤ 31 by decide)),
    Device.rd_of_word (Device.word_setWord_other _ _ (ecReg_ne q (by decide))), Device.rd_updEc]

theorem Device.dispatched_shows (d : Device) (q : SeqId) (c : List Nat) (cs : List (List Nat)) :
    (d.dispatched q c cs).rd (EC_STATUS_RUN q) = 1 ∧ (d.dispatched q c cs).rd (EC_STOP_CAUSES q) = 0 := by
  refine ⟨?_, ?_⟩
  · rw [Device.dispatched, Device.rd_wr_reg _ _ (ecReg_ne q (by decide)), Device.rd_wr_same _ _ (show 31 + 1 ≤ 32 by decide)]
    rfl
  · rw [Device.dispatched, Device.rd_wr_same _ _ (show 0 + 6 ≤ 32 by decide)]
    rfl

theorem Device.Frame.setWord {rs : List Nat} (h : Device.Frame rs d e) (a : Nat) (w : Word) (ha : a ∈ rs) : Device.Frame rs d (e.setWord a w) :=
  ⟨fun b hb => (Device.word_setWord_other _ _ (ne_of_mem_of_not_mem ha hb).symm).trans (h.word b hb), h.mem⟩

theorem Device.dispatched_frame (d : Device) (q : SeqId) (c : List Nat) (cs : List (List Nat)) :
    Device.Frame [EC_STATUS q, EC_PROG q, EC_STOP q] d (d.dispatched q c cs) :=
  ((((Device.Frame.refl _ d).updEc _ _).setWord _ _ (by simp)).wr _ _ (by simp [EC_STATUS_RUN])).wr _ _ (by simp [EC_STOP_CAUSES])

theorem Device.dispatchWord_dispatched (d : Device) (q : SeqId) (c : List Nat) (cs : List (List Nat)) (n : Nat) :
    (d.dispatched q c cs).dispatchWord q n = d.dispatchWord q n := by
  have hpatch : (d.dispatched q c cs).patchWord q n = d.patchWord q n := by rw [Device.patchWord, Device.patchWord, Device.dispatched_ec]
  have hpvec : (d.dispatched q c cs).bit (EC_STATUS_PVEC q) = d.bit (EC_STATUS_PVEC q) := by
    rw [Device.bit, Device.bit, Device.rd_dispatched_pvec]
  rw [Device.dispatchWord, Device.dispatchWord, hpatch, hpvec]

theorem Device.applyRetry_plain {l : Lane} (hr : o.retryFlag = false) (hs : (d.sv l).offset = 0) : d.applyRetry l o = d := by
  rw [Device.applyRetry, if_pos (by simp [hr]), Device.setOffset, if_pos hs]

theorem dispatchEff_starts {c : List Nat} {cs : List (List Nat)} {t : Nat} (hq : (d.ec q).queue = c :: cs) (ho : (d.ec q).op = none)
    (hen : d.bit (EC_CTRL_EN q) = true) (hh : d.bit (EC_STATUS_HALT q) = false) (hl : (d.ec q).cpls.length < 8)
    (hb : d.dispatchBarred q.lane = false) (hr : EcOp.retryFlag { desc := c } = false) (hs : (d.sv q.lane).offset = 0)
    (ht : d.dispatchWord q (EcOp.code { desc := c }) = some t) : dispatchEff q false d = (d.dispatched q c cs).ecGo q t := by
  have hretry : (d.dispatched q c cs).applyRetry q.lane { desc := c } = d.dispatched q c cs :=
    Device.applyRetry_plain hr (by rw [Device.dispatched_sv, hs])
  unfold dispatchEff
  rw [hq]
  dsimp only
  rw [if_neg (by simp [ho, hen, hh, hb, hl]), Device.wrAll_pair, ← Device.dispatched, hretry, if_neg (by decide), Device.dispatchWord_dispatched, ht]

/-! ### Frame entries -/

theorem frameEff_good {x : FrameEntry} (ho : (d.ec q).op = some o) (hf : o.frame = none) (hr : d.entryReadable (d.frameAddr q o.head o.zone) 32 = true)
    (he : frameEntryOf (d.memNum 32 (d.frameAddr q o.head o.zone)) o.head o.zone o.sector = some x) (hc : d.rd (EC_STOP_CAUSES q) = 0) :
    frameEff q d = (d.updOp q fun o => { o with frame := some x }).updOp q fun o => { o with words := 0 } := by
  unfold frameEff
  rw [ho]
  dsimp only
  rw [if_neg (by simp [hf]), if_pos hr, he]
  exact Device.safePoint_quiet (by rw [Device.rd_updOp, hc])

theorem frameEff_bad (ho : (d.ec q).op = some o) (hf : o.frame = none) (hrt : o.retryFlag = false) (hs : (d.wrp q.lane).stepsAsked = false)
    (hr : d.entryReadable (d.frameAddr q o.head o.zone) 32 = false) : frameEff q d = d.opEnded q o 3 0 0 := by
  unfold frameEff
  rw [ho]
  dsimp only
  rw [if_neg (by simp [hf]), if_neg (by simp [hr])]
  dsimp only
  rw [Device.completeOp_running ho, Device.afterOp_plain hrt (by rw [Device.opEnded_wrp, hs])]

/-! ### Stops -/

/-- With no operation running there is nothing to stop. -/
theorem ecStops_idle (h : (d.ec q).op = none) :
    ecAbortEff q d = d ∧ frameEff q d = d ∧ stopCompleteEff q d = d ∧ deadlineEff q d = d ∧ revLimitEff q d = d := by
  rw [ecAbortEff, frameEff, stopCompleteEff, deadlineEff, revLimitEff, h]
  exact ⟨rfl, rfl, rfl, rfl, rfl⟩

/-- A cause that always applies, with no wait to break. -/
theorem Device.stopCause_marks {bit : Nat} (ho : (d.ec q).op = some o) (hw : o.wait = none) (he : o.ending = none) (hb : bit = 0 ∨ bit = 5) :
    d.stopCause q bit = d.wr ⟨EC_STOP q, bit, 1⟩ 1 := by
  unfold Device.stopCause
  rw [ho]
  dsimp only
  rw [hw, he]
  rcases hb with rfl | rfl <;> rfl

theorem ecAbortEff_aborts (ho : (d.ec q).op = some o) (hw : o.wait = none) (he : o.ending = none) :
    ecAbortEff q d = (d.wr (EC_CTRL_ABORT q) 1).wr (EC_STOP_ABORT q) 1 := by
  rw [ecAbortEff, if_neg (by simp [ho]), Device.stopCause_marks (o := o) (by rw [Device.ec_wr, ho]) hw he (.inl rfl)]
  rfl

theorem revLimitEff_within (ho : (d.ec q).op = some o) (hr : d.rd (EC_PROG_REV q) < o.revLimit) : revLimitEff q d = d := by
  rw [revLimitEff, ho]
  exact if_pos (.inl hr)

theorem revLimitEff_stops (ho : (d.ec q).op = some o) (hr : o.revLimit ≤ d.rd (EC_PROG_REV q)) (hb : d.bit (EC_STOP_REVLIMIT q) = false)
    (hs : o.stopping = none) (hw : o.wait = none) (he : o.ending = none) :
    revLimitEff q d = (d.log q.lane.src 0x2024 [o.tag]).wr (EC_STOP_REVLIMIT q) 1 := by
  have hneg : ¬(d.rd (EC_PROG_REV q) < o.revLimit ∨ d.bit (EC_STOP_REVLIMIT q) = true ∨ o.stopping.isSome = true) := by
    simp [hb, hs, hr]
  rw [revLimitEff, ho]
  dsimp only
  rw [if_neg hneg, Device.stopCause_marks (o := o) (by rw [Device.ec_log, ho]) hw he (.inr rfl)]
  rfl

/-- A stopped operation ended, the stop shown. -/
def Device.stopEnded (d : Device) (q : SeqId) (o : EcOp) (m : Nat) : Device := ((d.opEnded q o 1 0 m).wr (EC_INT_STOPPED q) 1).wr (EC_STOP_CAUSES q) 0

theorem stopCompleteEff_ends {m : Nat} (ho : (d.ec q).op = some o) (hs : o.stopping = some m) (hg : (d.wrp q.lane).gate = none)
    (hsl : d.seqSlots q = false) (hv : o.vpend = []) (hr : o.retryFlag = false) (hst : (d.wrp q.lane).stepsAsked = false) :
    stopCompleteEff q d = d.stopEnded q o m := by
  have hsteps : ((d.stopEnded q o m).wrp q.lane).stepsAsked = false := by
    rw [Device.stopEnded, Device.wrp_wr, Device.wrp_wr, Device.opEnded_wrp, hst]
  unfold stopCompleteEff
  rw [ho]
  dsimp only
  rw [hs]
  dsimp only
  rw [hg]
  dsimp only
  rw [if_neg (by simp [hsl, hv]), Device.completeOp_running ho, Device.wrAll_pair, ← Device.stopEnded, Device.afterOp_plain hr hsteps]

theorem stopCompleteEff_running (ho : (d.ec q).op = some o) (hs : o.stopping = none) : stopCompleteEff q d = d := by
  unfold stopCompleteEff
  rw [ho]
  dsimp only
  rw [hs]

theorem deadlineEff_checks (ho : (d.ec q).op = some o) (hf : o.fetching = true) : deadlineEff q d = d.machineCheck q 5 o.pc := by
  rw [deadlineEff, ho]
  exact if_pos hf

end Sys2Proof.Machine

open Sys2Proof Sys2Proof.Machine

/-- Settles O47: an operation posted, dispatched, let fetch, stopped and completed, each effect in the case its guards decide. -/
theorem operationsRunFromPostToCompletion : Obligations.OperationsRunFromPostToCompletion := by
  refine ⟨?_, ?_, ?_, ?_, ?_, ?_, ?_, ?_, ?_, ?_, ?_, ?_, ?_, ?_, ?_, ?_, ?_, ?_, ?_, ?_⟩
  · intro s q h
    refine givesThat_eff (postGoEff q) rfl ?_
    rw [postGoEff_queues h, Device.posted, Device.updEc_same, Device.ec_wr, Device.ec_wr, Device.rd_updEc,
      Device.rd_wr_bits _ _ (.inr (show 24 + 4 ≤ 30 by decide)), Device.rd_wr_same _ _ (show 30 + 1 ≤ 32 by decide)]
    refine ⟨rfl, rfl, rfl, ((((Device.Frame.refl [EC_POST q] s.dev).wr _ _ (by simp [EC_POST_REFUSED])).wr _ _ (by simp [EC_POST_REASON])).updEc
      _ _).untouched ?_⟩
    exact fun h => ecReg_sram q (by decide) (List.mem_singleton.1 h)
  · rintro s q _ rfl h
    refine givesThat_eff (postGoEff q) rfl ?_
    obtain ⟨href, hreason, hint⟩ := s.dev.postRefused_shows q (s.dev.postReason_lt q (s.dev.staged q))
    rw [postGoEff_refuses h, Device.ec_logRate, Device.rd_logRate _ _ _ _ _ (ecReg_log q (by decide)), Device.rd_logRate _ _ _ _ _ (ecReg_log q (by decide)),
      Device.rd_logRate _ _ _ _ _ (ecReg_log q (by decide)), href, hreason, hint]
    refine ⟨?_, rfl, rfl, rfl, (((((Device.Frame.refl _ s.dev).wr _ _ (by simp [EC_POST_REFUSED])).wr _ _ (by simp [EC_POST_REASON])).wr _ _
      (by simp [EC_INT_REFUSED])).logRate _ _ _ _ (by simp)).untouched ?_⟩
    · rw [Device.postRefused, Device.ec_wr, Device.ec_wr, Device.ec_wr]
    · simp only [List.mem_cons, List.not_mem_nil, or_false, not_or]
      exact ⟨ecReg_sram q (by decide), ecReg_sram q (by decide), by decide⟩
  · intro s q hh hp b
    exact gives_eff (ecEnEff q b) rfl (ecEnEff_free hh hp b)
  · intro s q hh
    exact gives_eff (ecEnEff q true) rfl (ecEnEff_held hh)
  · intro s q b h
    exact gives_eff (dispatchEff q b) rfl (dispatchEff_waits b h)
  · intro s q c cs t hq ho hen hh hl hb hr hs ht htlt htr
    refine givesThat_eff (dispatchEff q false) rfl ?_
    have htr' : ∀ k < 8, (s.dev.dispatched q c cs).rd (EC_TRAP_EN q k) = 0 := fun k hk => by
      rw [Device.rd_dispatched _ _ _ _ (ecTrap_ne q k (by decide)) (ecTrap_ne q k (by decide)) (ecTrap_ne q k (by decide)), htr k hk]
    obtain ⟨hrun, hcauses⟩ := s.dev.dispatched_shows q c cs
    have hframe := ((s.dev.dispatched_frame q c cs).updOp q fun o => { o with pc := t }).wr (EC_STATUS_PC q) t (by simp [EC_STATUS_PC])
    rw [dispatchEff_starts hq ho hen hh hl hb hr hs ht, Device.ecGo_to htr' htlt, Device.ec_wr, Device.updOp_same, Device.dispatched_ec,
      Device.rd_wr_bits _ _ (.inr (show 0 + 15 ≤ 31 by decide)), Device.rd_updOp, hrun, Device.rd_wr_same _ _ (show 0 + 15 ≤ 32 by decide),
      Device.rd_wr_reg _ _ (ecReg_ne q (by decide)), Device.rd_updOp, hcauses]
    refine ⟨rfl, ?_, rfl, Nat.mod_eq_of_lt htlt, rfl, hframe.untouched ?_⟩
    · rw [Device.updOp, Device.updEc_same, Device.dispatched_ec]
    · simp only [List.mem_cons, List.not_mem_nil, or_false, not_or]
      exact ⟨ecReg_sram q (by decide), ecReg_sram q (by decide), ecReg_sram q (by decide)⟩
  · intro s q o x ho hf hr he hc
    have hnow := ((Device.OpNow.refl ho).updOp fun o => { o with frame := some x }).updOp fun o => { o with words := 0 }
    refine givesThat_eff (frameEff q) rfl ?_
    rw [frameEff_good ho hf hr he hc]
    exact ⟨hnow.op, hnow.untouched []⟩
  · intro s q o ho hf hrt hs hr
    refine givesThat_eff (frameEff q) rfl ?_
    obtain ⟨hnone, hcpls⟩ := s.dev.opEnded_ec q o 3 0 0
    rw [frameEff_bad ho hf hrt hs hr]
    refine ⟨hnone, ⟨_, hcpls, ?_⟩, s.dev.opEnded_frame q o 3 0 0⟩
    show 3 * 2 ^ 24 + 0 % 256 * 2 ^ 16 + 0 * 2 ^ 8 = 3 * 2 ^ 24
    omega
  · intro s q h
    obtain ⟨habort, hframe, hstop, hdead, hrev⟩ := ecStops_idle h
    exact ⟨gives_eff (ecAbortEff q) rfl habort, gives_eff (frameEff q) rfl hframe, gives_eff (stopCompleteEff q) rfl hstop,
      gives_eff (deadlineEff q) rfl hdead, gives_eff (revLimitEff q) rfl hrev⟩
  · intro s q o ho hw he
    refine givesThat_eff (ecAbortEff q) rfl ?_
    rw [ecAbortEff_aborts ho hw he, Device.rd_wr_reg _ _ (ecReg_ne q (by decide)), Device.rd_wr_same _ _ (show 31 + 1 ≤ 32 by decide),
      Device.rd_wr_same _ _ (show 0 + 1 ≤ 32 by decide), Device.ec_wr, Device.ec_wr]
    refine ⟨rfl, rfl, ho, (((Device.Frame.refl _ s.dev).wr _ _ (by simp [EC_CTRL_ABORT])).wr _ _ (by simp [EC_STOP_ABORT])).untouched ?_⟩
    simp only [List.mem_cons, List.not_mem_nil, or_false, not_or]
    exact ⟨ecReg_sram q (by decide), ecReg_sram q (by decide)⟩
  · intro s q h
    exact gives_eff (ecRestartEff q) rfl (if_pos h)
  · intro s q h
    refine givesThat_eff (ecRestartEff q) rfl ?_
    have heq : ecRestartEff q s.dev = (s.dev.wr (EC_STATUS_HALT q) 0).setWord (EC_MCHK q) 0 := if_neg (by simp [h])
    rw [heq, Device.rd_of_word (Device.word_setWord_other _ _ (ecReg_ne q (by decide))), Device.rd_wr_same _ _ (show 30 + 1 ≤ 32 by decide),
      Device.word_setWord_same]
    refine ⟨rfl, rfl, (((Device.Frame.refl _ s.dev).wr _ _ (by simp [EC_STATUS_HALT])).setWord _ _ (by simp)).untouched ?_⟩
    simp only [List.mem_cons, List.not_mem_nil, or_false, not_or]
    exact ⟨ecReg_sram q (by decide), ecReg_sram q (by decide)⟩
  · intro s q h
    exact gives_eff (ecFlushEff q) rfl (ecFlushEff_empty h)
  · intro s q c h
    refine givesThat_eff (ecFlushEff q) rfl ?_
    rw [ecFlushEff_one h, Device.ec_wr, Device.updEc_same, Device.rd_wr_same _ _ (show 0 + 1 ≤ 32 by decide)]
    refine ⟨rfl, rfl, rfl, rfl, (((Device.Frame.refl _ s.dev).updEc _ _).wr _ _ (by simp [EC_INT_CPL])).untouched ?_⟩
    exact fun h => ecReg_sram q (by decide) (List.mem_singleton.1 h)
  · intro s q c cs h
    refine givesThat_eff (ecCplPopEff q) rfl ?_
    rw [ecCplPopEff_pops h, Device.ec_emit, Device.updEc_same, Device.emit_out, Device.updEc_out]
    exact ⟨rfl, rfl, (((Device.Frame.refl [] s.dev).updEc _ _).emit _).untouched (by decide)⟩
  · intro s q o m ho hs hg hsl hv hr hst
    refine givesThat_eff (stopCompleteEff q) rfl ?_
    obtain ⟨hnone, hcpls⟩ := s.dev.opEnded_ec q o 1 0 m
    have hframe := (((Device.Frame.refl [EC_STATUS q, EC_INT q, EC_STOP q] s.dev).opEnded q o 1 0 m (by simp) (by simp)).wr (EC_INT_STOPPED q) 1
      (by simp [EC_INT_STOPPED])).wr (EC_STOP_CAUSES q) 0 (by simp [EC_STOP_CAUSES])
    rw [stopCompleteEff_ends ho hs hg hsl hv hr hst, Device.stopEnded, Device.ec_wr, Device.ec_wr, Device.rd_wr_reg _ _ (ecReg_ne q (by decide)),
      Device.rd_wr_same _ _ (show 1 + 1 ≤ 32 by decide), Device.rd_wr_same _ _ (show 0 + 6 ≤ 32 by decide)]
    refine ⟨hnone, rfl, rfl, ⟨_, hcpls, ?_⟩, hframe.untouched ?_⟩
    · show 1 * 2 ^ 24 + 0 % 256 * 2 ^ 16 + m * 2 ^ 8 = _
      omega
    · simp only [List.mem_cons, List.not_mem_nil, or_false, not_or]
      exact ⟨ecReg_sram q (by decide), ecReg_sram q (by decide), ecReg_sram q (by decide)⟩
  · intro s q o ho hs
    exact gives_eff (stopCompleteEff q) rfl (stopCompleteEff_running ho hs)
  · intro s q o ho hf hpc hg hr hs
    refine givesThat_eff (deadlineEff q) rfl ?_
    rw [deadlineEff_checks ho hf]
    exact Device.machineCheck_checks ho hg hr hs rfl rfl (by decide) (by omega)
  · intro s q o ho hr
    exact gives_eff (revLimitEff q) rfl (revLimitEff_within ho hr)
  · intro s q o ho hr hb hs hw he
    refine givesThat_eff (revLimitEff q) rfl ?_
    rw [revLimitEff_stops ho hr hb hs hw he, Device.rd_wr_same _ _ (show 5 + 1 ≤ 32 by decide), Device.ec_wr, Device.ec_log]
    refine ⟨rfl, ho, (((Device.Frame.refl _ s.dev).log _ _ _ (by simp)).wr _ _ (by simp [EC_STOP_REVLIMIT])).untouched ?_⟩
    simp only [List.mem_cons, List.not_mem_nil, or_false, not_or]
    exact ⟨ecReg_sram q (by decide), by decide⟩

end

section
/-!
The L2 caches: maintenance operations, enabling, fills, ways that go off (R348 to R352).
-/
namespace Sys2Proof.Machine

variable {d e : Device} {c : CacheId}

/-! ### A cache beside the registers and memory -/

@[simp] theorem Device.updCache_regs (d : Device) (c : CacheId) (f : Cache → Cache) : (d.updCache c f).regs = d.regs := by
  cases c with
  | host => rfl
  | media l => cases l <;> rfl

@[simp] theorem Device.updCache_mem (d : Device) (c : CacheId) (f : Cache → Cache) : (d.updCache c f).mem = d.mem := by
  cases c with
  | host => rfl
  | media l => cases l <;> rfl

theorem Device.updCache_same (d : Device) (c : CacheId) (f : Cache → Cache) : (d.updCache c f).cache c = f (d.cache c) := by
  cases c with
  | host => rfl
  | media l => cases l <;> rfl

theorem Device.cache_wr (d : Device) (g : RF) (v : Nat) (c : CacheId) : (d.wr g v).cache c = d.cache c := by
  cases c with
  | host => rfl
  | media l => cases l <;> rfl

theorem Device.cache_log (d : Device) (src code : Nat) (ps : List Nat) (c : CacheId) : (d.log src code ps).cache c = d.cache c := by
  cases c with
  | host => exact d.log_hostL2 src code ps
  | media l =>
    cases l with
    | ln0 => exact d.log_mediaL2a src code ps
    | ln1 => exact d.log_mediaL2b src code ps

/-- Memory alone has changed. -/
def Device.MemOnly (d e : Device) : Prop := ∃ m, e = { d with mem := m }

theorem Device.MemOnly.refl (d : Device) : d.MemOnly d := ⟨d.mem, rfl⟩

theorem Device.MemOnly.trans {f : Device} (h : d.MemOnly e) (h' : e.MemOnly f) : d.MemOnly f := by
  obtain ⟨m, rfl⟩ := h
  obtain ⟨n, rfl⟩ := h'
  exact ⟨n, rfl⟩

theorem Device.MemOnly.cache (h : d.MemOnly e) (c : CacheId) : e.cache c = d.cache c := by
  obtain ⟨m, rfl⟩ := h
  cases c with
  | host => rfl
  | media l => cases l <;> rfl

theorem Device.setByte_memOnly (d : Device) (a : Nat) (b : BitVec 8) : d.MemOnly (d.setByte a b) := by
  unfold Device.setByte
  split
  · exact ⟨_, rfl⟩
  · split
    · exact ⟨_, rfl⟩
    · exact ⟨_, rfl⟩

theorem Device.setNum_memOnly (n a v : Nat) (d : Device) : d.MemOnly (Device.setNum n a v d) := by
  induction n generalizing a v d with
  | zero => exact .refl d
  | succ n ih => exact (d.setByte_memOnly a _).trans (ih _ _ _)

theorem Device.MemOnly.withMem (h : d.MemOnly e) (m : Mem) : d.MemOnly { e with mem := m } := by
  obtain ⟨n, rfl⟩ := h
  exact ⟨m, rfl⟩

theorem Device.MemOnly.setBad (h : d.MemOnly e) (a s : Nat) : d.MemOnly (e.setBad a s) := h.withMem _

theorem Device.putWord_memOnly (d : Device) (a w b : Nat) : d.MemOnly ((d.setMemWord a w).setBad a b) :=
  ((((Device.setNum_memOnly 8 a w d).setBad a 0).withMem _).setBad a b)

theorem Device.putLine_memOnly (fix : Bool) (ws ss : List Nat) (a : Nat) (d : Device) : d.MemOnly (Device.putLine fix ws ss a d) := by
  induction ws generalizing ss a d with
  | nil => exact .refl d
  | cons w ws ih =>
    cases ss with
    | nil => exact .refl d
    | cons s ss => exact (d.putWord_memOnly a _ _).trans (ih ss (a + 8) _)

theorem Device.writeBack_memOnly (d : Device) (fix : Bool) (x : CacheLine) : d.MemOnly (d.writeBack fix x) := by
  unfold Device.writeBack
  split
  · exact Device.putLine_memOnly fix _ _ _ d
  · exact .refl d

theorem Device.rd_updCache (d : Device) (c : CacheId) (f : Cache → Cache) (g : RF) : (d.updCache c f).rd g = d.rd g := Device.rd_congr (d.updCache_regs c f) g

theorem Device.Frame.updCache {rs : List Nat} (h : Device.Frame rs d e) (c : CacheId) (f : Cache → Cache) : Device.Frame rs d (e.updCache c f) :=
  h.same (e.updCache_regs c f) (e.updCache_mem c f)

/-! ### A cache's registers -/

theorem cacheReg_ne (c : CacheId) {a b : Nat} (h : a ≠ b) : c.base + a ≠ c.base + b := fun hc => h (Nat.add_left_cancel hc)

theorem cacheReg_sram (c : CacheId) {a : Nat} (ha : a < 0x100) : CB_SRAMPART ≠ c.base + a := by
  have hb : c.base + 0x100 ≤ 0xF0400000 := by
    cases c with
    | host => decide
    | media l => cases l <;> decide
  have hs : CB_SRAMPART = 0xF0800028 := rfl
  omega

theorem CacheId.cores_le (c : CacheId) : c.cores ≤ 4 := by
  cases c with
  | host => decide
  | media l => cases l <;> decide

theorem mopReg_sram {core : Nat} (h : core < c.cores) : CB_SRAMPART ∉ [c.mopReg core] := by
  have hle := c.cores_le
  intro hm
  rw [List.mem_singleton, CacheId.mopReg, Nat.add_assoc] at hm
  exact cacheReg_sram c (by omega) hm

/-- A core's command register is none of the cache's own. -/
theorem mopReg_ne (c : CacheId) (core : Nat) {a : Nat} (ha : a < 0x24) : c.base + a ≠ c.mopReg core := by
  rw [CacheId.mopReg, Nat.add_assoc]
  exact cacheReg_ne c (by omega)

/-! ### Operations taken -/

theorem Device.postOp_outside {core : Nat} (h : c.cores ≤ core) (op set way : Nat) : d.postOp c core op set way = d := if_pos h

theorem Device.postOp_busy {core op set way : Nat} (hc : core < c.cores) (hb : d.bit (c.busy core) = true) :
    d.postOp c core op set way = d.wr (c.err core) 1 :=
  (if_neg (by omega)).trans (if_pos (by simp [hb]))

/-- An operation by address refused for its address. -/
theorem Device.postOp_badAddr {core op set way : Nat} (hc : core < c.cores) (ho : op ≤ 4) (hs : inSram (d.rd (c.maddr core) * 64) = false)
    (hd : d.inDram (d.rd (c.maddr core) * 64) = false) : d.postOp c core op set way = d.wr (c.err core) 1 :=
  (if_neg (by omega)).trans (if_pos (by simp [ho, hs, hd]))

theorem Device.postOp_badPlace {core op set way : Nat} (hc : core < c.cores) (h5 : 5 ≤ op) (h7 : op ≤ 7) (hp : c.sets ≤ set ∨ c.ways ≤ way) :
    d.postOp c core op set way = d.wr (c.err core) 1 :=
  (if_neg (by omega)).trans (if_pos (by rcases hp with hp | hp <;> simp [h5, h7, hp]))

/-- The command register of an operation taken. -/
def Device.opShown (d : Device) (c : CacheId) (core op : Nat) : Device := ((d.wr (c.mopOp core) op).wr (c.err core) 0).wr (c.busy core) 1

/-- The operation pending behind the others. -/
def Device.opPending (d : Device) (c : CacheId) (o : CacheOp) : Device := (d.opShown c o.core o.op).updCache c fun k => { k with ops := k.ops ++ [o] }

theorem Device.opShown_shows (d : Device) (c : CacheId) (core : Nat) {op : Nat} (ho : op < 16) :
    (d.opShown c core op).rd (c.busy core) = 1 ∧ (d.opShown c core op).rd (c.err core) = 0 ∧ (d.opShown c core op).rd (c.mopOp core) = op := by
  refine ⟨?_, ?_, ?_⟩
  · rw [Device.opShown, Device.rd_wr_same _ _ (show 31 + 1 ≤ 32 by decide)]
    rfl
  · rw [Device.opShown, Device.rd_wr_bits _ _ (.inl (show 30 + 1 ≤ 31 by decide)), Device.rd_wr_same _ _ (show 30 + 1 ≤ 32 by decide)]
    rfl
  · rw [Device.opShown, Device.rd_wr_bits _ _ (.inl (show 0 + 4 ≤ 31 by decide)), Device.rd_wr_bits _ _ (.inl (show 0 + 4 ≤ 30 by decide)),
      Device.rd_wr_same _ _ (show 0 + 4 ≤ 32 by decide)]
    exact Nat.mod_eq_of_lt ho

/-- An operation pending, from a device whose command register alone differs. -/
theorem opTaken_of {core op a set way : Nat} (hc : core < c.cores) (ho : op < 16) (hf : Device.Frame [c.mopReg core] d e) (hk : e.cache c = d.cache c) :
    opTaken c core op a set way d (e.opPending c { core := core, op := op, addr := a, set := set, way := way }) := by
  obtain ⟨hbusy, herr, hop⟩ := e.opShown_shows c core ho
  have hframe := (((hf.wr (c.mopOp core) op (by simp [CacheId.mopOp])).wr (c.err core) 0 (by simp [CacheId.err])).wr (c.busy core) 1
    (by simp [CacheId.busy])).updCache c fun k => { k with ops := k.ops ++ [{ core := core, op := op, addr := a, set := set, way := way }] }
  rw [opTaken, Device.opPending, Device.updCache_same, Device.opShown, Device.cache_wr, Device.cache_wr, Device.cache_wr, hk, ← Device.opShown,
    Device.rd_updCache, Device.rd_updCache, Device.rd_updCache]
  exact ⟨rfl, hbusy, herr, hop, hframe.untouched (mopReg_sram hc)⟩

/-- An operation by address, or on the whole cache, taken. -/
theorem Device.postOp_taken {core op : Nat} (hc : core < c.cores) (hb : d.bit (c.busy core) = false) (ho : 1 ≤ op ∧ op ≤ 4 ∨ op = 8 ∨ op = 9)
    (ha : op ≤ 4 → inSram (d.rd (c.maddr core) * 64) = true ∨ d.inDram (d.rd (c.maddr core) * 64) = true) :
    opTaken c core op (d.rd (c.maddr core) * 64) 0 0 d (d.postOp c core op 0 0) := by
  have hgood : (d.bit (c.busy core) || (decide (op ≤ 4) && !(inSram (d.rd (c.maddr core) * 64) || d.inDram (d.rd (c.maddr core) * 64))) ||
      (decide (5 ≤ op) && decide (op ≤ 7) && (decide (c.sets ≤ 0) || decide (c.ways ≤ 0))) || op == 0 || decide (10 ≤ op)) = false := by
    rcases ho with ⟨h1, h4⟩ | rfl | rfl
    · have haddr : (inSram (d.rd (c.maddr core) * 64) || d.inDram (d.rd (c.maddr core) * 64)) = true := by simpa using ha h4
      have h5 : ¬5 ≤ op := by omega
      have h0 : op ≠ 0 := by omega
      have h10 : ¬10 ≤ op := by omega
      simp [hb, haddr, h5, h0, h10]
    · simp [hb]
    · simp [hb]
  have heq : d.postOp c core op 0 0 = d.opPending c { core := core, op := op, addr := d.rd (c.maddr core) * 64, set := 0, way := 0 } := by
    unfold Device.postOp
    rw [if_neg (by omega)]
    dsimp only
    rw [hgood, if_neg (by decide), if_neg (by omega)]
    rfl
  rw [heq]
  exact opTaken_of hc (by omega) (.refl _ d) rfl

/-- An operation by set and way taken. -/
theorem Device.postOp_placed {core op set way : Nat} (hc : core < c.cores) (hb : d.bit (c.busy core) = false) (h5 : 5 ≤ op) (h7 : op ≤ 7)
    (hs : set < c.sets) (hw : way < c.ways) : opTaken c core op (d.rd (c.maddr core) * 64) set way d (d.postOp c core op set way) := by
  have hgood : (d.bit (c.busy core) || (decide (op ≤ 4) && !(inSram (d.rd (c.maddr core) * 64) || d.inDram (d.rd (c.maddr core) * 64))) ||
      (decide (5 ≤ op) && decide (op ≤ 7) && (decide (c.sets ≤ set) || decide (c.ways ≤ way))) || op == 0 || decide (10 ≤ op)) = false := by
    have h4 : ¬op ≤ 4 := by omega
    have h0 : op ≠ 0 := by omega
    have h10 : ¬10 ≤ op := by omega
    simp [hb, h4, h0, h10, hs, hw]
  have heq : d.postOp c core op set way = ((d.wr (c.mopWay core) way).wr (c.mopSet core) set).opPending c
      { core := core, op := op, addr := d.rd (c.maddr core) * 64, set := set, way := way } := by
    unfold Device.postOp
    rw [if_neg (by omega)]
    dsimp only
    rw [hgood, if_neg (by decide), if_pos ⟨h5, h7⟩]
    rfl
  rw [heq]
  exact opTaken_of hc (by omega) (((Device.Frame.refl _ d).wr _ _ (by simp [CacheId.mopWay])).wr _ _ (by simp [CacheId.mopSet]))
    (by rw [Device.cache_wr, Device.cache_wr])

/-! ### Operations served -/

theorem Cache.nextOp_core {k : Cache} {o : CacheOp} (h : k.nextOp c = some o) : o.core < c.cores := by
  obtain ⟨core, hcore, hfind⟩ := List.exists_of_findSome?_eq_some h
  obtain ⟨i, -, rfl⟩ := List.mem_map.1 hcore
  have heq := List.find?_some hfind
  have hpos : 0 < c.cores := by
    cases c with
    | host => decide
    | media l => cases l <;> decide
  rw [beq_iff_eq] at heq
  rw [heq]
  exact Nat.mod_lt _ hpos

theorem l2OpCompleteEff_none (h : (d.cache c).nextOp c = none) : l2OpCompleteEff c d = d := by rw [l2OpCompleteEff, h]

theorem l2OpCompleteEff_waits {o : CacheOp} (h : (d.cache c).nextOp c = some o) (hw : (d.cache c).opWaits o = true) : l2OpCompleteEff c d = d := by
  rw [l2OpCompleteEff, h]
  exact if_pos hw

/-- The operation over, in its cache and its command register. -/
def Device.opDone (d : Device) (c : CacheId) (o : CacheOp) : Device :=
  (d.wr (c.busy o.core) 0).updCache c fun k => { k with ops := k.ops.filter (·.core != o.core), lastCore := o.core }

theorem l2OpCompleteEff_done {o : CacheOp} (h : (d.cache c).nextOp c = some o) (hw : (d.cache c).opWaits o = false) :
    l2OpCompleteEff c d = (d.runOp c o).opDone c o := by
  rw [l2OpCompleteEff, h]
  exact if_neg (by rw [hw]; decide)

theorem Device.opDone_cache (d : Device) (c : CacheId) (o : CacheOp) :
    (d.opDone c o).cache c = { d.cache c with ops := (d.cache c).ops.filter (·.core != o.core), lastCore := o.core } := by
  rw [Device.opDone, Device.updCache_same, Device.cache_wr]

theorem Device.rd_opDone_busy (d : Device) (c : CacheId) (o : CacheOp) : (d.opDone c o).rd (c.busy o.core) = 0 := by
  rw [Device.opDone, Device.rd_updCache, Device.rd_wr_same _ _ (show 31 + 1 ≤ 32 by decide)]
  rfl

theorem Device.rd_opDone_other (d : Device) (c : CacheId) (o : CacheOp) {f : RF} (h : f.reg ≠ c.mopReg o.core) : (d.opDone c o).rd f = d.rd f := by
  rw [Device.opDone, Device.rd_updCache, Device.rd_wr_reg _ _ h]

theorem Device.Frame.opDone {rs : List Nat} (h : Device.Frame rs d e) (c : CacheId) (o : CacheOp) (hm : c.mopReg o.core ∈ rs) :
    Device.Frame rs d (e.opDone c o) :=
  (h.wr _ _ hm).updCache _ _

/-- The line found at an address has it. -/
theorem Cache.lookup_addr {k : Cache} {a : Nat} {x : CacheLine} (h : k.lookup a = some x) : x.addr = a := by
  have heq := List.find?_some h
  rwa [beq_iff_eq] at heq

theorem Cache.lookup_drop (k : Cache) (a : Nat) : (k.drop a).lookup a = none := by
  rw [Cache.lookup, Cache.drop, List.find?_eq_none]
  intro x hx
  rw [List.mem_filter] at hx
  simpa using hx.2

theorem Cache.lookup_put (k : Cache) (x : CacheLine) : (k.put x).lookup x.addr = some x := by
  have hnone : (k.lines.filter fun y => y.addr != x.addr && !(y.set == x.set && y.way == x.way)).find? (·.addr == x.addr) = none := by
    rw [List.find?_eq_none]
    intro y hy
    have hne := (List.mem_filter.1 hy).2
    simp only [Bool.and_eq_true, bne_iff_ne] at hne
    simpa using hne.1
  rw [Cache.lookup, Cache.put, List.find?_append, hnone]
  simp

theorem Device.runOp_all (d : Device) (c : CacheId) {o : CacheOp} (h : o.op = 9) :
    d.runOp c o = ((d.updCache c fun k => { k with lines := [] }).wr c.validctx 0).wr c.stale 0 := by
  rw [Device.runOp, h]
  rfl

theorem Cache.opLine_addr (k : Cache) {o : CacheOp} (h : o.op ≤ 4) : k.opLine o = k.lookup (lineOf o.addr) := if_pos h

theorem Device.runOp_drop {o : CacheOp} {x : CacheLine} (h : o.op = 2) (hl : (d.cache c).lookup (lineOf o.addr) = some x) :
    d.runOp c o = d.updCache c (·.drop (lineOf o.addr)) := by
  unfold Device.runOp
  dsimp only
  rw [Cache.opLine_addr _ (by omega), hl, h, ← Cache.lookup_addr hl]
  rfl

theorem Device.runOp_clean {o : CacheOp} {x : CacheLine} (h : o.op = 1) (hl : (d.cache c).lookup (lineOf o.addr) = some x) (hx : x.dirty = true) :
    d.runOp c o = (d.writeBack true x).updCache c (·.put { x with dirty := false }) := by
  unfold Device.runOp
  dsimp only
  rw [Cache.opLine_addr _ (by omega), hl, h]
  exact if_pos hx

/-! ### Enabling -/

theorem l2EnWriteEff_off {v : Word} (hv : getField v 0 1 = 0) :
    l2EnWriteEff c v d = (if (d.cache c).lines.isEmpty then d else d.wr c.validctx 1).wr c.en 0 := if_pos hv

theorem l2EnWriteEff_on {v : Word} (hv : getField v 0 1 = 1) :
    l2EnWriteEff c v d = (if (!d.bit c.en && d.bit c.validctx) = true then ((d.wr c.stale 1).wr c.intStale 1).log 6 0x4801 [c.num] else d).wr c.en 1 :=
  if_neg (by rw [hv]; decide)

/-! ### Fills -/

theorem l2FillEff_none {a w : Nat} (h : (d.cache c).fills = []) : l2FillEff c a w d = d := by
  unfold l2FillEff
  dsimp only
  rw [h]
  rfl

/-- The line that a fill brings in from memory. -/
def Device.filledLine (d : Device) (c : CacheId) (a w : Nat) : CacheLine :=
  { way := w, set := c.setOf a, addr := a, dirty := false, tagBad := false, words := (List.range 8).map fun i => d.memWord (a + 8 * i), bad := (List.range 8).map fun i => d.badBits (a + 8 * i) }

theorem l2FillEff_fills {a w : Nat} (hf : (d.cache c).fills = [{ addr := lineOf a, waiters := [] }]) (hw : w < c.ways) (ho : d.wayOff c w = false)
    (hd : (d.cache c).disabling = []) (hl : (d.cache c).lookup (lineOf a) = none) (hat : (d.cache c).at (c.setOf (lineOf a)) w = none) :
    l2FillEff c a w d = (d.updCache c fun k => { k with fills := k.fills.filter (·.addr != lineOf a) }).updCache c
      (·.put (d.filledLine c (lineOf a) w)) := by
  have hfind : (d.cache c).fills.find? (·.addr == lineOf a) = some { addr := lineOf a, waiters := [] } := by
    rw [hf, List.find?_cons_of_pos (by simp)]
  have hat' : ((d.updCache c fun k => { k with fills := k.fills.filter (·.addr != lineOf a) }).cache c).at (c.setOf (lineOf a)) w = none := by
    rw [Device.updCache_same]
    exact hat
  unfold l2FillEff
  dsimp only
  rw [hfind]
  dsimp only
  rw [if_neg (by simp [ho, hd, hl, hw]), Device.serveWaiters, Device.placeLine]
  rw [hat']
  rfl

/-! ### Ways that go off -/

theorem l2WayDisableEff_off {w : Nat} (h : d.wayOff c w = true) : l2WayDisableEff c w d = d := if_pos (.inl h)

theorem l2WayDisableEff_errs {w : Nat} (h : d.wayOff c w = false) (hd : (d.cache c).disabling = []) (ht : ∀ x ∈ (d.cache c).lines, x.tagBad = false)
    (he : 8 ≤ Sparse.cnt (d.cache c).wayErrs w) :
    l2WayDisableEff c w d = d.updCache c fun k => { k with disabling := k.disabling ++ [(w, false)] } := by
  have htag : ((d.cache c).lines.any fun x => x.way == w && x.tagBad) = false := by
    rw [List.any_eq_false]
    intro x hx
    simp [ht x hx]
  unfold l2WayDisableEff
  dsimp only
  rw [htag, if_neg (by simp [h, hd]), if_pos (.inr he)]

theorem l2WayDisableDoneEff_none {w : Nat} (h : (d.cache c).disabling = []) : l2WayDisableDoneEff c w d = d := by
  rw [l2WayDisableDoneEff, h]
  rfl

/-- The way off in its registers. -/
def Device.wayShownOff (d : Device) (c : CacheId) (w : Nat) : Device :=
  ((d.wr c.waydis (d.rd c.waydis ||| 2 ^ w)).wr c.intWayoff 1).log 6 0x4802 [c.num, w]

/-- The cache without the way's lines and its disable. -/
def Device.wayEmptied (d : Device) (c : CacheId) (w : Nat) : Device :=
  d.updCache c fun k => { k with lines := k.lines.filter (·.way != w), disabling := k.disabling.filter (·.1 != w) }

theorem l2WayDisableDoneEff_off {w : Nat} (hd : (d.cache c).disabling = [(w, false)]) (hl : ∀ x ∈ (d.cache c).lines, x.way ≠ w) :
    l2WayDisableDoneEff c w d = if d.rd c.waydis ||| 2 ^ w = 2 ^ c.ways - 1 then (((d.wayEmptied c w).wayShownOff c w).wr c.pass 1).log 6 0x4806 [c.num]
      else (d.wayEmptied c w).wayShownOff c w := by
  have hfind : (d.cache c).disabling.find? (·.1 == w) = some (w, false) := by rw [hd, List.find?_cons_of_pos (by simp)]
  have hnone : (d.cache c).lines.filter (·.way == w) = [] := by
    rw [List.filter_eq_nil_iff]
    intro x hx
    simp [hl x hx]
  have hmask : (d.wayEmptied c w).rd c.waydis = d.rd c.waydis := Device.rd_updCache _ _ _ _
  unfold l2WayDisableDoneEff
  rw [hfind]
  dsimp only
  rw [hnone, List.foldl_nil, ← Device.wayEmptied, hmask, if_neg Bool.false_ne_true, Device.wayShownOff, hmask]

theorem CacheId.ways_le (c : CacheId) : c.ways ≤ 32 := by
  cases c with
  | host => decide
  | media l => cases l <;> decide

theorem cacheReg_log (c : CacheId) {a : Nat} (ha : a < 0x100) : c.base + a ≠ RG_LOGSTAT := by
  have hb : c.base + 0x100 ≤ 0xF0400000 := by
    cases c with
    | host => decide
    | media l => cases l <;> decide
  have hs : RG_LOGSTAT > 0xF0400000 := by decide
  omega

theorem Device.wayShownOff_shows (d : Device) {w : Nat} (hw : w < c.ways) :
    (d.wayShownOff c w).rd c.waydis = d.rd c.waydis ||| 2 ^ w ∧ (d.wayShownOff c w).rd c.intWayoff = 1 := by
  have hmask : d.rd c.waydis ||| 2 ^ w < 2 ^ c.ways := Nat.or_lt_two_pow (d.rd_lt c.waydis) (Nat.pow_lt_pow_right (by decide) hw)
  refine ⟨?_, ?_⟩
  · rw [Device.wayShownOff, Device.rd_log _ _ _ _ (cacheReg_log c (by decide)), Device.rd_wr_reg _ _ (cacheReg_ne c (by decide)),
      Device.rd_wr_same _ _ (show 0 + c.ways ≤ 32 by rw [Nat.zero_add]; exact c.ways_le)]
    exact Nat.mod_eq_of_lt hmask
  · rw [Device.wayShownOff, Device.rd_log _ _ _ _ (cacheReg_log c (by decide)), Device.rd_wr_same _ _ (show 2 + 1 ≤ 32 by decide)]
    rfl

theorem Device.wayEmptied_cache {w : Nat} (hd : (d.cache c).disabling = [(w, false)]) (hl : ∀ x ∈ (d.cache c).lines, x.way ≠ w) :
    ((d.wayEmptied c w).cache c).disabling = [] ∧ ((d.wayEmptied c w).cache c).lines = (d.cache c).lines := by
  rw [Device.wayEmptied, Device.updCache_same]
  refine ⟨?_, List.filter_eq_self.2 fun x hx => by simp [hl x hx]⟩
  show (d.cache c).disabling.filter (·.1 != w) = []
  rw [hd]
  simp

/-- The registers of a cache that an off way writes. -/
theorem wayRegs_sram (c : CacheId) : CB_SRAMPART ∉ [c.base + 4, c.base + 8, c.base + 12, RG_LOGSTAT] := by
  simp only [List.mem_cons, List.not_mem_nil, or_false, not_or]
  exact ⟨cacheReg_sram c (by decide), cacheReg_sram c (by decide), cacheReg_sram c (by decide), by decide⟩

theorem l2WayDisableDone_spec {w : Nat} (hd : (d.cache c).disabling = [(w, false)]) (hw : w < c.ways) (hl : ∀ x ∈ (d.cache c).lines, x.way ≠ w) :
    (l2WayDisableDoneEff c w d).wayOff c w = true ∧ (l2WayDisableDoneEff c w d).rd c.intWayoff = 1 ∧
      ((l2WayDisableDoneEff c w d).cache c).disabling = [] ∧ ((l2WayDisableDoneEff c w d).cache c).lines = (d.cache c).lines ∧
      Untouched [c.base + 4, c.base + 8, c.base + 12, RG_LOGSTAT] d (l2WayDisableDoneEff c w d) := by
  obtain ⟨hmask, hint⟩ := (d.wayEmptied c w).wayShownOff_shows hw
  obtain ⟨hdis, hlines⟩ := Device.wayEmptied_cache hd hl
  have hcache : ((d.wayEmptied c w).wayShownOff c w).cache c = (d.wayEmptied c w).cache c := by
    rw [Device.wayShownOff, Device.cache_log, Device.cache_wr, Device.cache_wr]
  have hframe : Device.Frame [c.base + 4, c.base + 8, c.base + 12, RG_LOGSTAT] d ((d.wayEmptied c w).wayShownOff c w) :=
    ((((Device.Frame.refl _ d).updCache c _).wr c.waydis _ (by simp [CacheId.waydis])).wr c.intWayoff 1 (by simp [CacheId.intWayoff])).log _ _ _ (by simp)
  have hoff : ∀ e : Device, e.rd c.waydis = (d.wayEmptied c w).rd c.waydis ||| 2 ^ w → e.wayOff c w = true := fun e he => by
    rw [Device.wayOff, he, Nat.testBit_or, Nat.testBit_two_pow_self, Bool.or_true]
  rw [l2WayDisableDoneEff_off hd hl]
  split
  · refine ⟨hoff _ ?_, ?_, ?_, ?_, ((hframe.wr c.pass 1 (by simp [CacheId.pass])).log _ _ _ (by simp)).untouched (wayRegs_sram c)⟩
    · rw [Device.rd_log _ _ _ _ (cacheReg_log c (by decide)), Device.rd_wr_reg _ _ (cacheReg_ne c (by decide)), hmask]
    · rw [Device.rd_log _ _ _ _ (cacheReg_log c (by decide)), Device.rd_wr_reg _ _ (cacheReg_ne c (by decide)), hint]
    · rw [Device.cache_log, Device.cache_wr, hcache, hdis]
    · rw [Device.cache_log, Device.cache_wr, hcache, hlines]
  · exact ⟨hoff _ hmask, hint, by rw [hcache, hdis], by rw [hcache, hlines], hframe.untouched (wayRegs_sram c)⟩

end Sys2Proof.Machine

open Sys2Proof Sys2Proof.Machine

/-- Settles O48: an operation taken is one entry of its cache and one register; each served one acts on its line alone. -/
theorem l2CachesOperateAndServe : Obligations.L2CachesOperateAndServe := by
  refine ⟨?_, ?_, ?_, ?_, ?_, ?_, ?_, ?_, ?_, ?_, ?_, ?_, ?_, ?_, ?_, ?_, ?_, ?_, ?_⟩
  · intro s c core hc hb
    refine ⟨fun ha => ?_, fun hs hd => ?_, ?_, ?_, fun set way => ⟨fun hset hway => ?_, fun hp => ?_⟩⟩
    · exact ⟨givesThat_eff (fun d => d.postOp c core 1 0 0) rfl (Device.postOp_taken hc hb (.inl (by decide)) fun _ => ha),
        givesThat_eff (fun d => d.postOp c core 2 0 0) rfl (Device.postOp_taken hc hb (.inl (by decide)) fun _ => ha),
        givesThat_eff (fun d => d.postOp c core 3 0 0) rfl (Device.postOp_taken hc hb (.inl (by decide)) fun _ => ha),
        givesThat_eff (fun d => d.postOp c core 4 0 0) rfl (Device.postOp_taken hc hb (.inl (by decide)) fun _ => ha)⟩
    · exact ⟨gives_eff (fun d => d.postOp c core 1 0 0) rfl (Device.postOp_badAddr hc (by decide) hs hd),
        gives_eff (fun d => d.postOp c core 4 0 0) rfl (Device.postOp_badAddr hc (by decide) hs hd)⟩
    · exact givesThat_eff (fun d => d.postOp c core 8 0 0) rfl (Device.postOp_taken hc hb (.inr (.inl rfl)) fun h => absurd h (by decide))
    · exact givesThat_eff (fun d => d.postOp c core 9 0 0) rfl (Device.postOp_taken hc hb (.inr (.inr rfl)) fun h => absurd h (by decide))
    · exact ⟨givesThat_eff (fun d => d.postOp c core 5 set way) rfl (Device.postOp_placed hc hb (by decide) (by decide) hset hway),
        givesThat_eff (fun d => d.postOp c core 6 set way) rfl (Device.postOp_placed hc hb (by decide) (by decide) hset hway),
        givesThat_eff (fun d => d.postOp c core 7 set way) rfl (Device.postOp_placed hc hb (by decide) (by decide) hset hway)⟩
    · exact gives_eff (fun d => d.postOp c core 6 set way) rfl (Device.postOp_badPlace hc (by decide) (by decide) hp)
  · intro s c core set way hc hb
    exact ⟨gives_eff (fun d => d.postOp c core 1 0 0) rfl (Device.postOp_busy hc hb), gives_eff (fun d => d.postOp c core 2 0 0) rfl (Device.postOp_busy hc hb),
      gives_eff (fun d => d.postOp c core 3 0 0) rfl (Device.postOp_busy hc hb), gives_eff (fun d => d.postOp c core 4 0 0) rfl (Device.postOp_busy hc hb),
      gives_eff (fun d => d.postOp c core 9 0 0) rfl (Device.postOp_busy hc hb), gives_eff (fun d => d.postOp c core 6 set way) rfl (Device.postOp_busy hc hb),
      gives_eff (fun d => d.postOp c core 7 set way) rfl (Device.postOp_busy hc hb), gives_eff (fun d => d.postOp c core 8 0 0) rfl (Device.postOp_busy hc hb),
      gives_eff (fun d => d.postOp c core 5 set way) rfl (Device.postOp_busy hc hb)⟩
  · intro s c core hc
    exact gives_eff (fun d => d.postOp c core 1 0 0) rfl (Device.postOp_outside hc 1 0 0)
  · intro s c h
    exact gives_eff (l2OpCompleteEff c) rfl (l2OpCompleteEff_none h)
  · intro s c o h hw
    exact gives_eff (l2OpCompleteEff c) rfl (l2OpCompleteEff_waits h hw)
  · intro s c o h hw ho
    refine givesThat_eff (l2OpCompleteEff c) rfl ?_
    have hframe := ((((Device.Frame.refl [c.base + 4, c.mopReg o.core] s.dev).updCache c fun k => { k with lines := [] }).wr c.validctx 0
      (by simp [CacheId.validctx])).wr c.stale 0 (by simp [CacheId.stale])).opDone c o (by simp)
    have huntouched := hframe.untouched (by
      rw [List.mem_cons]
      exact not_or.2 ⟨cacheReg_sram c (by decide), mopReg_sram (Cache.nextOp_core h)⟩)
    rw [l2OpCompleteEff_done h hw, Device.runOp_all _ _ ho, Device.opDone_cache, Device.cache_wr, Device.cache_wr, Device.updCache_same,
      Device.rd_opDone_busy, Device.rd_opDone_other _ _ _ (mopReg_ne c _ (by decide)), Device.rd_opDone_other _ _ _ (mopReg_ne c _ (by decide)),
      Device.rd_wr_bits _ _ (.inl (show 30 + 1 ≤ 31 by decide)), Device.rd_wr_same _ _ (show 30 + 1 ≤ 32 by decide),
      Device.rd_wr_same _ _ (show 31 + 1 ≤ 32 by decide)]
    exact ⟨rfl, rfl, rfl, rfl, rfl, rfl, huntouched.2⟩
  · intro s c o x h hw ho hl
    refine givesThat_eff (l2OpCompleteEff c) rfl ?_
    have hframe := ((Device.Frame.refl [c.mopReg o.core] s.dev).updCache c (·.drop (lineOf o.addr))).opDone c o (by simp)
    rw [l2OpCompleteEff_done h hw, Device.runOp_drop ho hl, Device.opDone_cache, Device.updCache_same, Device.rd_opDone_busy]
    exact ⟨Cache.lookup_drop _ _, rfl, (hframe.untouched (mopReg_sram (Cache.nextOp_core h))).2⟩
  · intro s c o x h hw ho hl hx
    refine givesThat_eff (l2OpCompleteEff c) rfl ?_
    rw [l2OpCompleteEff_done h hw, Device.runOp_clean ho hl hx, Device.opDone_cache, Device.updCache_same, (s.dev.writeBack_memOnly true x).cache]
    refine ⟨?_, rfl, rfl⟩
    rw [← Cache.lookup_addr hl]
    exact Cache.lookup_put (s.dev.cache c) { x with dirty := false }
  · intro s c v hv hl
    refine gives_eff (l2EnWriteEff c v) rfl ?_
    rw [l2EnWriteEff_off hv, if_pos (by rw [hl]; rfl)]
  · intro s c v hv hl
    refine givesThat_eff (l2EnWriteEff c v) rfl ?_
    rw [l2EnWriteEff_off hv, if_neg (by simpa using hl), Device.rd_wr_same _ _ (show 0 + 1 ≤ 32 by decide),
      Device.rd_wr_reg _ _ (cacheReg_ne c (a := 4) (b := 0) (by decide)), Device.rd_wr_same _ _ (show 30 + 1 ≤ 32 by decide), Device.cache_wr, Device.cache_wr]
    refine ⟨rfl, rfl, rfl, (((Device.Frame.refl [c.base, c.base + 4] s.dev).wr c.validctx 1 (by simp [CacheId.validctx])).wr c.en 0
      (by simp [CacheId.en])).untouched ?_⟩
    simp only [List.mem_cons, List.not_mem_nil, or_false, not_or]
    exact ⟨cacheReg_sram c (a := 0) (by decide), cacheReg_sram c (by decide)⟩
  · intro s c v hv hen hval
    refine givesThat_eff (l2EnWriteEff c v) rfl ?_
    have hframe := ((((Device.Frame.refl [c.base, c.base + 4, c.base + 12, RG_LOGSTAT] s.dev).wr c.stale 1 (by simp [CacheId.stale])).wr c.intStale 1
      (by simp [CacheId.intStale])).log 6 0x4801 [c.num] (by simp)).wr c.en 1 (by simp [CacheId.en])
    rw [l2EnWriteEff_on hv, if_pos (by rw [hen, hval]; rfl), Device.rd_wr_same _ _ (show 0 + 1 ≤ 32 by decide),
      Device.rd_wr_reg _ _ (cacheReg_ne c (a := 4) (b := 0) (by decide)), Device.rd_log _ _ _ _ (cacheReg_log c (by decide)),
      Device.rd_wr_reg _ _ (cacheReg_ne c (by decide)), Device.rd_wr_same _ _ (show 31 + 1 ≤ 32 by decide),
      Device.rd_wr_reg _ _ (cacheReg_ne c (a := 12) (b := 0) (by decide)), Device.rd_log _ _ _ _ (cacheReg_log c (by decide)),
      Device.rd_wr_same _ _ (show 3 + 1 ≤ 32 by decide), Device.cache_wr, Device.cache_log, Device.cache_wr, Device.cache_wr]
    refine ⟨rfl, rfl, rfl, rfl, hframe.untouched ?_⟩
    simp only [List.mem_cons, List.not_mem_nil, or_false, not_or]
    exact ⟨cacheReg_sram c (a := 0) (by decide), cacheReg_sram c (by decide), cacheReg_sram c (by decide), by decide⟩
  · intro s c v hv hval
    refine gives_eff (l2EnWriteEff c v) rfl ?_
    rw [l2EnWriteEff_on hv, if_neg (by simp [hval])]
  · intro s c a w h
    exact gives_eff (l2FillEff c a w) rfl (l2FillEff_none h)
  · intro s c a w hf hw ho hd hl hat
    refine givesThat_eff (l2FillEff c a w) rfl ?_
    rw [l2FillEff_fills hf hw ho hd hl hat, Device.updCache_same, Device.updCache_same]
    refine ⟨?_, Cache.lookup_put _ (s.dev.filledLine c (lineOf a) w), (((Device.Frame.refl [] s.dev).updCache c _).updCache c _).untouched (by decide)⟩
    show (s.dev.cache c).fills.filter (·.addr != lineOf a) = []
    rw [hf]
    simp
  · intro s c w h
    exact gives_eff (l2WayDisableEff c w) rfl (l2WayDisableEff_off h)
  · intro s c w h hd ht he
    refine givesThat_eff (l2WayDisableEff c w) rfl ?_
    rw [l2WayDisableEff_errs h hd ht he, Device.updCache_same]
    refine ⟨?_, rfl, ((Device.Frame.refl [] s.dev).updCache c _).untouched (by decide)⟩
    rw [hd, List.nil_append]
  · intro s c w h
    exact gives_eff (l2WayDisableDoneEff c w) rfl (l2WayDisableDoneEff_none h)
  · intro s c w hd hw hl
    refine givesThat_eff (l2WayDisableDoneEff c w) rfl ?_
    exact l2WayDisableDone_spec hd hw hl
  · intro s c
    refine givesThat_eff (fun d => d.updCache c fun k => { k with wayErrs := [] }) rfl ?_
    rw [Device.updCache_same]
    exact ⟨rfl, rfl, ((Device.Frame.refl [] s.dev).updCache c _).untouched (by decide)⟩

end

section
/-!
The cipher engine: entries posted, promoted, served and completed (R358 to R365, R374).
-/
namespace Sys2Proof.Machine

variable {d e : Device}

/-! ### Queues and completions -/

/-- The device with a completion recorded for its source. -/
def Device.cplAdded (d : Device) (source : Nat) (c : CipherCpl) : Device :=
  match source with
  | 2 => { d with cipher := { d.cipher with hcpl := d.cipher.hcpl ++ [c] } }
  | 3 => { d with cipher := { d.cipher with scpl := d.cipher.scpl ++ [c] } }
  | _ => { d with cipher := { d.cipher with lcpl := d.cipher.lcpl ++ [(source, c)] } }

theorem Device.cplAdded_regs (d : Device) (source : Nat) (c : CipherCpl) : (d.cplAdded source c).regs = d.regs := by
  unfold Device.cplAdded
  split <;> rfl

theorem Device.cplAdded_mem (d : Device) (source : Nat) (c : CipherCpl) : (d.cplAdded source c).mem = d.mem := by
  unfold Device.cplAdded
  split <;> rfl

/-- A completion whose status is no failed binding and no failed unit: CPL alone is raised. -/
theorem Device.cipherCpl_plain {source nsid epoch : Nat} {c : CipherCpl} (h : c.status = 0 ∨ 5 ≤ c.status) :
    d.cipherCpl source c nsid epoch = (d.cplAdded source c).wr CX_INT_CPL 1 :=
  (if_neg (by omega)).trans (if_neg (by omega))

/-- A completion of a unit that failed is logged. -/
theorem Device.cipherCpl_unit {source nsid epoch : Nat} {c : CipherCpl} (h : c.status = 3 ∨ c.status = 4) :
    d.cipherCpl source c nsid epoch = ((d.cplAdded source c).wr CX_INT_CPL 1).log 8 0x5006 [source, c.tag] :=
  (if_neg (by omega)).trans (if_pos h)

theorem Device.Frame.cplAdded {rs : List Nat} (h : Device.Frame rs d e) (source : Nat) (c : CipherCpl) : Device.Frame rs d (e.cplAdded source c) :=
  h.same (e.cplAdded_regs source c) (e.cplAdded_mem source c)

theorem Device.rd_cplAdded_int (d : Device) (source : Nat) (c : CipherCpl) : ((d.cplAdded source c).wr CX_INT_CPL 1).rd CX_INT_CPL = 1 := by
  rw [Device.rd_wr_same _ _ (by decide)]
  rfl

/-! ### Posting -/

/-- An entry completed at once with its status. -/
def Device.entryFails (d : Device) (c : CipherSource) (x : CipherEntry) (st : Nat) : Device :=
  d.cipherCpl c.idx { tag := x.tag, status := st, units := 0 } x.nsid x.epoch

/-- An entry with its slot and generation behind the queue `q`. -/
def Device.entryQueued (d : Device) (c : CipherSource) (x : CipherEntry) (q : List CipherEntry) (n : Nat) : Device :=
  Device.slotEnter { d with cipher := d.cipher.setQueue c.idx (q ++ [{ x with slot := n, gen := (d.slot n).gen }]) } n

/-- An entry checked: the engine, the form, the binding. -/
def Device.entryJudged (d : Device) (c : CipherSource) (v : Nat) (x : CipherEntry) (q : List CipherEntry) : Device :=
  if !d.bit CX_CTRL_EN || !d.bit CX_STATUS_SELFPASS then d.entryFails c x 5
  else if !d.entryOk c x v then d.entryFails c x 6
  else match d.bindCheck x with
    | .error st => d.entryFails c x st
    | .ok n => d.entryQueued c x q n

theorem cipherPostEff_full {c : CipherSource} {ws : List Nat} (h : 64 ≤ (d.cipher.queue c.idx).length) : cipherPostEff c ws d = d.postGo c true :=
  if_pos h

theorem cipherPostEff_room {c : CipherSource} {ws : List Nat} (h : (d.cipher.queue c.idx).length < 64) :
    cipherPostEff c ws d = (d.postGo c false).entryJudged c (d.stagedEntry c ws) (CipherEntry.ofNum (d.stagedEntry c ws)) (d.cipher.queue c.idx) :=
  if_neg (Nat.not_le.2 h)

variable {c : CipherSource} {v : Nat} {x : CipherEntry} {q : List CipherEntry}

theorem Device.entryJudged_off (h : d.bit CX_CTRL_EN = false) :
    d.entryJudged c v x q = (d.cplAdded c.idx { tag := x.tag, status := 5, units := 0 }).wr CX_INT_CPL 1 :=
  (if_pos (by simp [h])).trans (Device.cipherCpl_plain (.inr (Nat.le_refl 5)))

theorem Device.entryJudged_malformed (he : d.bit CX_CTRL_EN = true) (hs : d.bit CX_STATUS_SELFPASS = true) (h : d.entryOk c x v = false) :
    d.entryJudged c v x q = (d.cplAdded c.idx { tag := x.tag, status := 6, units := 0 }).wr CX_INT_CPL 1 :=
  (if_neg (by simp [he, hs])).trans ((if_pos (by simp [h])).trans (Device.cipherCpl_plain (.inr (show 5 ≤ 6 by decide))))

theorem Device.entryJudged_good {n : Nat} (he : d.bit CX_CTRL_EN = true) (hs : d.bit CX_STATUS_SELFPASS = true) (h : d.entryOk c x v = true)
    (hb : d.bindCheck x = .ok n) : d.entryJudged c v x q = d.entryQueued c x q n := by
  refine (if_neg (by simp [he, hs])).trans ((if_neg (by simp [h])).trans ?_)
  rw [hb]

theorem Device.slot_setSlot (d : Device) (n : Nat) (k : KeySlot) : (d.setSlot n k).slot n = k := Sparse.get_put_same _ _ _ _

theorem Device.slotEnter_eq (d : Device) (n : Nat) : d.slotEnter n = d.setSlot n { d.slot n with inCur := (d.slot n).inCur + 1 } := rfl

/-- The host's GO clear. -/
def Device.hostGone (d : Device) : Device := d.wr CX_HPOST_GO 0

theorem Device.rd_hostGone (d : Device) {f : RF} (h : f.reg ≠ CX_HPOST) : d.hostGone.rd f = d.rd f := Device.rd_wr_reg _ _ h

theorem Device.bit_hostGone (d : Device) {f : RF} (h : f.reg ≠ CX_HPOST) : d.hostGone.bit f = d.bit f := Device.bit_wr_reg _ _ h

theorem Device.hostGone_cipher (d : Device) : d.hostGone.cipher = d.cipher := Device.wr_cipher _ _ _

/-- The check of an entry's form reads the extent of DRAM alone. -/
theorem Device.entryOk_hostGone (d : Device) (c : CipherSource) (x : CipherEntry) (v : Nat) : d.hostGone.entryOk c x v = d.entryOk c x v := by
  have hvis : d.hostGone.dramVisible = d.dramVisible := by simp only [Device.dramVisible, d.rd_hostGone (f := MS_STATUS_SIZE) (by decide)]
  have hdram : ∀ a, d.hostGone.inDram a = d.inDram a := fun a => by rw [Device.inDram, Device.inDram, hvis]
  unfold Device.entryOk
  dsimp only
  rw [hdram, hdram]

theorem Device.mapped_hostGone (d : Device) (n : Nat) : d.hostGone.mapped n = d.mapped n := by
  have hne : ∀ i, CX_NSMAP i ≠ CX_HPOST := fun i h => by
    have hn : (0xF0500000 + 0x10100 + 4 * i : Nat) = 0xF0500000 + 0x70 := h
    omega
  rw [Device.mapped, Device.mapped, d.bit_hostGone (hne _), d.rd_hostGone (hne _)]

theorem Device.bindCheck_hostGone (d : Device) (x : CipherEntry) : d.hostGone.bindCheck x = d.bindCheck x := by
  have hslot : ∀ n, d.hostGone.slot n = d.slot n := fun n => by rw [Device.slot, Device.slot, Device.hostGone_cipher]
  simp only [Device.bindCheck, Device.mapped_hostGone, hslot]

/-! ### Promotion and service -/

theorem promote_length (t : Nat) (q : List CipherEntry) : (promote t q).length = q.length := by
  induction q with
  | nil => rfl
  | cons x xs ih =>
    rw [promote]
    split
    · rfl
    · rw [List.length_cons, List.length_cons, ih]

/-- Every entry after a promotion was there before, or is the one promoted. -/
theorem mem_promote {t : Nat} {q : List CipherEntry} {x : CipherEntry} (h : x ∈ promote t q) : x ∈ q ∨ (x.urgent = true ∧ x.tag = t) := by
  induction q with
  | nil => exact absurd h (List.not_mem_nil)
  | cons y ys ih =>
    rw [promote] at h
    split at h
    case isTrue hy =>
      rcases List.mem_cons.1 h with rfl | h
      · exact .inr ⟨rfl, hy.1⟩
      · exact .inl (List.mem_cons_of_mem _ h)
    case isFalse hy =>
      rcases List.mem_cons.1 h with rfl | h
      · exact .inl List.mem_cons_self
      · exact (ih h).imp_left (List.mem_cons_of_mem _)

theorem Cipher.setQueue_suspended (c : Cipher) (i : Nat) (q : List CipherEntry) : (c.setQueue i q).suspended = c.suspended := by
  unfold Cipher.setQueue
  split <;> rfl

theorem Device.cipherEnter_spec (d : Device) (i : Nat) (x : CipherEntry) :
    (d.cipherEnter i x).cipher.service = some { source := i, entry := x } ∧ (d.cipherEnter i x).cipher.suspended = d.cipher.suspended ∧
      Device.Frame [] d (d.cipherEnter i x) :=
  ⟨rfl, d.cipher.setQueue_suspended i _, (Device.Frame.refl [] d).same rfl rfl⟩

theorem cipherStartEff_busy {m : CipherMsg} (h : d.cipher.service = some m) (hu : m.entry.urgent = true) : cipherStartEff d = d := by
  rw [cipherStartEff, h]
  exact if_pos (by simp [hu])

theorem cipherStartEff_idle {i : Nat} (h : d.cipher.service = none) (hp : d.cipherPick true = some (i, x)) : cipherStartEff d = d.cipherEnter i x := by
  rw [cipherStartEff, h]
  dsimp only
  rw [hp]

/-- A normal message put aside. -/
def Device.setAside (d : Device) (m : CipherMsg) : Device := { d with cipher := { d.cipher with suspended := some m } }

theorem Device.setAside_frame (d : Device) (m : CipherMsg) : Device.Frame [] d (d.setAside m) := (Device.Frame.refl [] d).same rfl rfl

theorem cipherStartEff_suspends {i : Nat} {m : CipherMsg} (h : d.cipher.service = some m) (hu : m.entry.urgent = false) (hs : d.cipher.suspended = none)
    (hp : d.cipherPick true = some (i, x)) :
    cipherStartEff d = (d.setAside m).cipherEnter i x := by
  rw [cipherStartEff, h]
  dsimp only
  rw [if_neg (by simp [hu, hs]), hp]
  rfl

theorem cipherResumeEff_resumes {m : CipherMsg} (h : d.cipher.service = none) (hs : d.cipher.suspended = some m) (hp : d.cipherPick true = none) :
    cipherResumeEff d = { d with cipher := { d.cipher with service := some m, suspended := none } } := by
  rw [cipherResumeEff, h, hs]
  dsimp only
  rw [hp]
  rfl

theorem cipherResumeEff_none (h : d.cipher.suspended = none) : cipherResumeEff d = d := by
  rw [cipherResumeEff, h]
  cases d.cipher.service <;> rfl

/-! ### Completion -/

theorem Device.slot_congr (h : e.cipher.slots = d.cipher.slots) (n : Nat) : e.slot n = d.slot n := by rw [Device.slot, Device.slot, h]

theorem cipherCompleteEff_none {ws : List Nat} {f : Option (Nat × Bool)} (h : d.cipher.service = none) : cipherCompleteEff ws f d = d := by
  rw [cipherCompleteEff, h]

/-- The first unit fails at its source: nothing is done. -/
theorem Device.cipherUnits_failsFirst (d : Device) (x : CipherEntry) (k : Nat) (ws : List Nat) (h : 0 < x.len) :
    Device.cipherUnits x k ws (some (0, false)) x.len 0 [] d = (3, 0, [], d) := by
  obtain ⟨n, hn⟩ := Nat.exists_eq_succ_of_ne_zero (Nat.pos_iff_ne_zero.1 h)
  rw [hn, Device.cipherUnits]
  exact if_pos (.inl rfl)

/-- The message in service gone. -/
def Device.served (d : Device) : Device := { d with cipher := { d.cipher with service := none } }

theorem Device.served_frame (d : Device) : Device.Frame [CX_INT, RG_LOGSTAT] d d.served := (Device.Frame.refl _ d).same rfl rfl

/-- A message of the host left with its first unit failed. -/
def Device.cplLeft (d : Device) (m : CipherMsg) : Device :=
  ((d.served.setSlot m.entry.slot { d.slot m.entry.slot with inCur := (d.slot m.entry.slot).inCur - 1 }).cplAdded 2
    { tag := m.entry.tag, status := 3, units := 0 }).wr CX_INT_CPL 1

theorem Device.Frame.setSlot {rs : List Nat} (h : Device.Frame rs d e) (n : Nat) (k : KeySlot) : Device.Frame rs d (e.setSlot n k) := h.same rfl rfl

theorem Device.cplLeft_frame (d : Device) (m : CipherMsg) : Device.Frame [CX_INT, RG_LOGSTAT] d (d.cplLeft m) :=
  (((d.served_frame.setSlot _ _).cplAdded _ _).wr CX_INT_CPL 1 (by decide))

theorem cipherCompleteEff_fails {ws : List Nat} {m : CipherMsg} (h : d.cipher.service = some m) (hs : m.source = 2) (hl : 0 < m.entry.len)
    (hg : m.entry.gen = (d.slot m.entry.slot).gen) : cipherCompleteEff ws (some (0, false)) d = (d.cplLeft m).log 8 0x5006 [2, m.entry.tag] := by
  have hleave : d.served.slotLeave m.entry.slot m.entry.gen =
      d.served.setSlot m.entry.slot { d.slot m.entry.slot with inCur := (d.slot m.entry.slot).inCur - 1 } := if_pos hg
  rw [cipherCompleteEff, h]
  dsimp only
  rw [Device.cipherUnits_failsFirst _ _ _ _ hl, hs]
  dsimp only
  rw [if_pos List.isEmpty_nil, ← Device.served, hleave, Device.cipherCpl_unit (.inl rfl), ← Device.cplLeft]

/-- A read of the host's completion pops it. -/
theorem cxCplPopEff_pops {w : Initiator} {c : CipherCpl} {cs : List CipherCpl} (hr : d.secMayRead w 0x84 = true) (hc : d.cipher.hcpl = c :: cs) :
    cxCplPopEff w false d = { d.emit (.reply none (.data (c.status + c.units * 65536))) with cipher := { d.cipher with hcpl := cs } } := by
  have hview : d.cxView 0x84 = c.status + c.units * 65536 := by
    have h4 : ¬(0x84 = 4) := by decide
    simp only [Device.cxView, h4, if_false, hc]
    rfl
  have hcpl : d.cipher.hcpl.drop 1 = cs := by rw [hc, List.drop_succ_cons, List.drop_zero]
  unfold cxCplPopEff
  dsimp only
  rw [if_neg Bool.false_ne_true, if_neg (by simp [hr]), if_neg Bool.false_ne_true, hview, Device.emit_cipher, hcpl]

theorem cxCplPopEff_refuses {w : Initiator} {b : Bool} (h : d.secMayRead w (if b then 0x144 else 0x84) = false) :
    cxCplPopEff w b d = d.emit (.reply none .busError) := if_pos (by rw [h]; rfl)

end Sys2Proof.Machine

open Sys2Proof Sys2Proof.Machine

/-- Settles O49: an entry judged once its post's GO is shown, then served, suspended and completed. -/
theorem cipherEntriesAreQueuedServedAndCompleted : Obligations.CipherEntriesAreQueuedServedAndCompleted := by
  refine ⟨?_, ?_, ?_, ?_, ?_, ?_, ?_, ?_, ?_, ?_, ?_, ?_, ?_, ?_⟩
  · intro s c ws h
    exact gives_eff (cipherPostEff c ws) rfl (cipherPostEff_full h)
  · intro s l ws h hen
    refine givesThat_eff (cipherPostEff (.lane l) ws) rfl ?_
    have hroom : (s.dev.cipher.queue (CipherSource.lane l).idx).length < 64 := h
    have hgo : s.dev.postGo (.lane l) false = s.dev := rfl
    rw [cipherPostEff_room hroom, hgo, Device.entryJudged_off hen, Device.rd_cplAdded_int, Device.wr_cipher]
    refine ⟨?_, ?_, ?_, rfl, (((Device.Frame.refl _ s.dev).cplAdded _ _).wr _ _ (by decide)).untouched (by decide)⟩
    · cases l <;> rfl
    · cases l <;> rfl
    · cases l <;> rfl
  · intro s ws h hen hself hok
    refine givesThat_eff (cipherPostEff .host ws) rfl ?_
    have hgo : s.dev.postGo .host false = s.dev.hostGone := rfl
    have hroom : (s.dev.cipher.queue CipherSource.host.idx).length < 64 := h
    rw [cipherPostEff_room hroom, hgo, Device.entryJudged_malformed ((s.dev.bit_hostGone (by decide)).trans hen) ((s.dev.bit_hostGone (by decide)).trans hself)
      ((s.dev.entryOk_hostGone _ _ _).trans hok), Device.rd_cplAdded_int, Device.wr_cipher]
    exact ⟨rfl, rfl, rfl, ((((Device.Frame.refl _ s.dev).wr CX_HPOST_GO 0 (by decide)).cplAdded _ _).wr _ _ (by decide)).untouched (by decide)⟩
  · intro s ws n h hen hself hok hb
    refine givesThat_eff (cipherPostEff .host ws) rfl ?_
    have hgo : s.dev.postGo .host false = s.dev.hostGone := rfl
    have hroom : (s.dev.cipher.queue CipherSource.host.idx).length < 64 := h
    rw [cipherPostEff_room hroom, hgo, Device.entryJudged_good ((s.dev.bit_hostGone (by decide)).trans hen) ((s.dev.bit_hostGone (by decide)).trans hself)
      ((s.dev.entryOk_hostGone _ _ _).trans hok) ((s.dev.bindCheck_hostGone _).trans hb), Device.entryQueued, Device.slotEnter_eq, Device.slot_setSlot]
    exact ⟨rfl, rfl, rfl, ((Device.Frame.refl _ s.dev).wr CX_HPOST_GO 0 (by decide)).untouched (by decide)⟩
  · intro s t
    refine givesThat_eff (cipherPromoteEff .ln1 t) rfl ?_
    exact ⟨fun x hx => mem_promote hx, promote_length t _, rfl, ((Device.Frame.refl [] s.dev).same rfl rfl).untouched (by decide)⟩
  · intro s m h hu
    exact gives_eff cipherStartEff rfl (cipherStartEff_busy h hu)
  · intro s i x h hp
    refine givesThat_eff cipherStartEff rfl ?_
    obtain ⟨hserv, hsusp, hframe⟩ := s.dev.cipherEnter_spec i x
    rw [cipherStartEff_idle h hp]
    exact ⟨hserv, hsusp, hframe.untouched (by decide)⟩
  · intro s i x m h hu hs hp
    refine givesThat_eff cipherStartEff rfl ?_
    obtain ⟨hserv, hsusp, hframe⟩ := (s.dev.setAside m).cipherEnter_spec i x
    rw [cipherStartEff_suspends h hu hs hp]
    exact ⟨hserv, hsusp, ((s.dev.setAside_frame m).trans hframe).untouched (by decide)⟩
  · intro s m h hs hp
    refine givesThat_eff cipherResumeEff rfl ?_
    rw [cipherResumeEff_resumes h hs hp]
    exact ⟨rfl, rfl, ((Device.Frame.refl [] s.dev).same rfl rfl).untouched (by decide)⟩
  · intro s h
    exact gives_eff cipherResumeEff rfl (cipherResumeEff_none h)
  · intro s ws f h
    exact gives_eff (cipherCompleteEff ws f) rfl (cipherCompleteEff_none h)
  · intro s ws m h hs hl hg
    refine givesThat_eff (cipherCompleteEff ws (some (0, false))) rfl ?_
    have hcipher := (Device.log_cipher (s.dev.cplLeft m) 8 0x5006 [2, m.entry.tag])
    rw [cipherCompleteEff_fails h hs hl hg, Device.rd_log _ _ _ _ (by decide), Device.cplLeft, Device.rd_cplAdded_int, ← Device.cplLeft, hcipher,
      Device.slot_congr (congrArg Cipher.slots hcipher), Device.cplLeft, Device.wr_cipher]
    refine ⟨rfl, rfl, congrArg KeySlot.inCur (s.dev.served.slot_setSlot m.entry.slot _), rfl, ?_⟩
    exact ((s.dev.cplLeft_frame m).log _ _ _ (by decide)).untouched (by decide)
  · intro s w b h
    exact gives_eff (cxCplPopEff w b) rfl (cxCplPopEff_refuses h)
  · intro s w c cs hr hc
    refine givesThat_eff (cxCplPopEff w false) rfl ?_
    rw [cxCplPopEff_pops hr hc]
    exact ⟨rfl, Device.emit_out _ _, rfl, (((Device.Frame.refl [] s.dev).emit (.reply none (.data (c.status + c.units * 65536)))).same rfl rfl).untouched (by decide)⟩

end

section
/-!
Power requests (R379 to R383, R401): what each check of a request turns on, a stage's start, and the end of a transition.
-/
namespace Sys2Proof.Machine

variable {d : Device}

/-! ### The stages -/

@[simp] theorem Device.cutGate_power (d : Device) (l : Lane) : (d.cutGate l).power = d.power := by
  unfold Device.cutGate
  split
  · rfl
  · rw [Device.updOp_power, Device.updWr_power]

@[simp] theorem Device.rd_cutGate (d : Device) (l : Lane) (f : RF) : (d.cutGate l).rd f = d.rd f := by
  unfold Device.cutGate
  split
  · rfl
  · rw [Device.rd_updOp, Device.rd_updWr]

/-- A lane's channel and write path off. -/
def Device.laneOff (d : Device) (l : Lane) : Device := ((d.wr (CH_CTRL_EN l) 0).wr (WR_CTRL_EN l) 0).cutGate l

theorem Device.laneOff_power (d : Device) (l : Lane) : (d.laneOff l).power = d.power := by
  rw [Device.laneOff, Device.cutGate_power, Device.wr_power, Device.wr_power]

theorem Device.rd_laneOff_ch (d : Device) (l : Lane) : (d.laneOff l).rd (CH_CTRL_EN l) = 0 := by
  rw [Device.laneOff, Device.rd_cutGate, Device.rd_wr_reg _ _ (by cases l <;> decide), Device.rd_wr_same _ _ (by cases l <;> decide)]
  exact Nat.zero_mod _

theorem Device.rd_laneOff_wr (d : Device) (l : Lane) : (d.laneOff l).rd (WR_CTRL_EN l) = 0 := by
  rw [Device.laneOff, Device.rd_cutGate, Device.rd_wr_same _ _ (by cases l <;> decide)]
  exact Nat.zero_mod _

theorem Device.rd_laneOff_other (d : Device) {l : Lane} {f : RF} (hc : f.reg ≠ CH_CTRL l) (hw : f.reg ≠ WR_CTRL l) : (d.laneOff l).rd f = d.rd f := by
  rw [Device.laneOff, Device.rd_cutGate, Device.rd_wr_reg _ _ hw, Device.rd_wr_reg _ _ hc]

theorem Device.idleDown_shows (d : Device) :
    d.idleDown.power.run = d.power.run ∧ d.idleDown.power.request = d.power.request ∧ d.idleDown.rd RG_PSTATUS_BUSY = d.rd RG_PSTATUS_BUSY ∧
      ∀ l : Lane, d.idleDown.rd (CH_CTRL_EN l) = 0 ∧ d.idleDown.rd (WR_CTRL_EN l) = 0 := by
  have hdown : ∃ g, d.idleDown = ((d.laneOff .ln0).laneOff .ln1).updPower fun p => { p with savedEn := g } := ⟨_, rfl⟩
  obtain ⟨g, hdown⟩ := hdown
  rw [hdown, Device.updPower_power]
  simp only [Device.rd_updPower, Device.laneOff_power]
  refine ⟨trivial, trivial, ?_, fun l => ?_⟩
  · rw [Device.rd_laneOff_other _ (by decide) (by decide), Device.rd_laneOff_other _ (by decide) (by decide)]
  · cases l
    · exact ⟨(Device.rd_laneOff_other _ (by decide) (by decide)).trans (Device.rd_laneOff_ch _ _),
        (Device.rd_laneOff_other _ (by decide) (by decide)).trans (Device.rd_laneOff_wr _ _)⟩
    · exact ⟨Device.rd_laneOff_ch _ _, Device.rd_laneOff_wr _ _⟩

/-- A transition's stage recorded, with BUSY. -/
def Device.stageRuns (d : Device) (r : PmRun) : Device := (d.updPower fun p => { p with run := some r }).wr RG_PSTATUS_BUSY 1

theorem Device.stageRuns_frame (d : Device) (r : PmRun) : Device.Frame [RG_PSTATUS] d (d.stageRuns r) :=
  ((Device.Frame.refl _ d).updPower _).wr RG_PSTATUS_BUSY 1 (by decide)

theorem Device.rd_stageRuns_busy (d : Device) (r : PmRun) : (d.stageRuns r).rd RG_PSTATUS_BUSY = 1 := Device.rd_wr_same _ _ (by decide)

theorem Device.stageRuns_power (d : Device) (r : PmRun) : (d.stageRuns r).power = { d.power with run := some r } := rfl

theorem Device.startStage_idleDown (d : Device) (t : Nat) (f : Bool) :
    d.startStage { stage := 1, up := false, target := t, forced := f } = (d.stageRuns { stage := 1, up := false, target := t, forced := f }).idleDown := rfl

theorem Device.startStage_slow (d : Device) (t : Nat) (f : Bool) :
    d.startStage { stage := 3, up := false, target := t, forced := f } =
      (d.stageRuns { stage := 3, up := false, target := t, forced := f }).wr SP_SPEED_TARGET
        ((d.stageRuns { stage := 3, up := false, target := t, forced := f }).rd RG_PSLOW_SPEED) := rfl

/-! ### The end of a transition -/

/-- The transition over at its target, beside the answer to a Force Power State and the snapshot of Halt. -/
def Device.runOver (d : Device) (t : Nat) (f : Bool) : Device :=
  ((((((d.updPower fun p => { p with run := none, lastEnd := d.chron.chr, idleExpired := false }).emit .pmdone).wr RG_PSTATUS_BUSY 0).wr
    RG_PSTATUS_STATE t).wr RG_PSTATUS_FORCED (if f then 1 else 0))).log 9 0x6001 [d.rd RG_PSTATUS_STATE, t, if f then 1 else 0]

theorem Device.finishRun_plain {t : Nat} {f : Bool} (ht : t ≠ 4) (hf : (f && d.host.miForce) = false) : d.finishRun t f = d.runOver t f := by
  have hhost : (d.runOver t f).host.miForce = d.host.miForce := by
    rw [Device.runOver, Device.log_host, Device.wr_host, Device.wr_host, Device.wr_host, Device.emit_host, Device.updPower_host]
  refine (if_neg (fun h => ht h.1)).trans (if_neg ?_)
  rw [Bool.not_eq_true]
  exact (congrArg (f && ·) hhost).trans hf

theorem Device.runOver_frame (d : Device) (t : Nat) (f : Bool) : Device.Frame [RG_PSTATUS, RG_LOGSTAT] d (d.runOver t f) :=
  ((((((Device.Frame.refl _ d).updPower _).emit .pmdone).wr RG_PSTATUS_BUSY 0 (by decide)).wr RG_PSTATUS_STATE t (by decide)).wr RG_PSTATUS_FORCED _
    (by decide)).log _ _ _ (by decide)

theorem Device.runOver_power (d : Device) (t : Nat) (f : Bool) :
    (d.runOver t f).power = { d.power with run := none, lastEnd := d.chron.chr, idleExpired := false } := by
  rw [Device.runOver, Device.log_power]
  rfl

theorem Device.runOver_out (d : Device) (t : Nat) (f : Bool) : (d.runOver t f).out = d.out ++ [.pmdone] := by
  rw [Device.runOver, Device.log_out]
  rfl

theorem Device.runOver_shows (d : Device) {t : Nat} (f : Bool) (ht : t < 8) :
    (d.runOver t f).rd RG_PSTATUS_BUSY = 0 ∧ (d.runOver t f).rd RG_PSTATUS_STATE = t ∧ (d.runOver t f).rd RG_PSTATUS_FORCED = (if f then 1 else 0) ∧
      (d.runOver t f).rd RG_PSTATUS_STOPPED = d.rd RG_PSTATUS_STOPPED := by
  simp only [Device.runOver, Device.rd_log _ _ _ _ (show RG_PSTATUS_BUSY.reg ≠ RG_LOGSTAT by decide),
    Device.rd_log _ _ _ _ (show RG_PSTATUS_STATE.reg ≠ RG_LOGSTAT by decide), Device.rd_log _ _ _ _ (show RG_PSTATUS_FORCED.reg ≠ RG_LOGSTAT by decide),
    Device.rd_log _ _ _ _ (show RG_PSTATUS_STOPPED.reg ≠ RG_LOGSTAT by decide)]
  refine ⟨?_, ?_, ?_, ?_⟩
  · rw [Device.rd_wr_bits _ _ (by decide), Device.rd_wr_bits _ _ (by decide), Device.rd_wr_same _ _ (by decide)]
    exact Nat.zero_mod _
  · rw [Device.rd_wr_bits _ _ (by decide), Device.rd_wr_same _ _ (by decide)]
    exact Nat.mod_eq_of_lt ht
  · rw [Device.rd_wr_same _ _ (by decide)]
    cases f <;> rfl
  · rw [Device.rd_wr_bits _ _ (by decide), Device.rd_wr_bits _ _ (by decide), Device.rd_wr_bits _ _ (by decide), Device.rd_emit, Device.rd_updPower]

theorem nextStage_self (t : Nat) : nextStage t t = none := (if_neg (Nat.lt_irrefl t)).trans (if_neg (Nat.lt_irrefl t))

theorem Device.goOn_there {t : Nat} {f : Bool} (ht : t ≠ 4) (hf : (f && d.host.miForce) = false) : d.goOn t t f = d.runOver t f := by
  rw [Device.goOn, nextStage_self]
  exact Device.finishRun_plain ht hf

/-! ### Requests -/

/-- A request taken up or withdrawn. -/
def Device.unasked (d : Device) : Device := d.updPower fun p => { p with request := none }

theorem targetWriteEff_high {v : Word} (h : 6 ≤ getField v 0 3) : targetWriteEff v d = d := if_pos h

theorem targetWriteEff_busy {v : Word} (h : getField v 0 3 < 6) (hb : d.bit RG_PSTATUS_BUSY = true ∨ d.power.forcedReq = true) :
    targetWriteEff v d = d.wr RG_PSTATUS_ERR 3 :=
  (if_neg (Nat.not_le.2 h)).trans (if_pos (Bool.or_eq_true_iff.2 hb))

theorem targetWriteEff_taken {v : Word} (h : getField v 0 3 < 6) (hb : d.bit RG_PSTATUS_BUSY = false) (hf : d.power.forcedReq = false) :
    targetWriteEff v d = ((d.wr RG_PMODE_TARGET (getField v 0 3)).wr RG_PSTATUS_ERR 0).updPower fun p => { p with request := some (getField v 0 3) } :=
  (if_neg (Nat.not_le.2 h)).trans (if_neg (by simp [hb, hf]))

theorem transitionBeginEff_unasked (h : d.power.request = none) : transitionBeginEff d = d := by rw [transitionBeginEff, h]

theorem transitionBeginEff_waits (h : d.released = false ∨ d.power.forcedReq = true ∨ d.power.run ≠ none) : transitionBeginEff d = d := by
  unfold transitionBeginEff
  split
  · rfl
  · refine if_pos ?_
    rcases h with h | h | h
    · simp [h]
    · simp [h]
    · simp [Option.isSome_iff_ne_none.2 h]

theorem transitionBeginEff_begins {t : Nat} (hr : d.released = true) (hf : d.power.forcedReq = false) (hn : d.power.run = none)
    (ho : d.power.retain = .out) (hq : d.power.request = some t) :
    transitionBeginEff d = d.unasked.goOn (d.rd RG_PSTATUS_STATE) (min t 4) false := by
  rw [transitionBeginEff, hq]
  exact if_neg (by simp [hr, hf, hn, ho])

/-- A request withdrawn with its error and its event. -/
def Device.withdrawn (d : Device) (e : Nat) : Device := ((d.unasked.wr RG_PSTATUS_ERR e).log 9 0x6002 [e]).emit .pmdone

theorem requestTimeoutEff_none {b : Bool} (h : d.power.request = none ∨ d.power.run ≠ none) : requestTimeoutEff b d = d := by
  refine if_pos ?_
  rcases h with h | h
  · simp [h]
  · simp [Option.isSome_iff_ne_none.2 h]

theorem requestTimeoutEff_withdraws {b : Bool} (hq : d.power.request ≠ none) (hf : d.power.forcedReq = false) (hn : d.power.run = none) :
    requestTimeoutEff b d = d.withdrawn (if b then 1 else 2) :=
  if_neg (by simp [hf, hn, hq])

theorem Device.withdrawn_frame (d : Device) (e : Nat) : Device.Frame [RG_PSTATUS, RG_LOGSTAT] d (d.withdrawn e) :=
  ((((Device.Frame.refl _ d).updPower _).wr RG_PSTATUS_ERR e (by decide)).log _ _ _ (by decide)).emit _

theorem Device.withdrawn_shows (d : Device) {e : Nat} (he : e < 8) :
    (d.withdrawn e).power.request = none ∧ (d.withdrawn e).rd RG_PSTATUS_ERR = e ∧ (d.withdrawn e).rd RG_PSTATUS_STATE = d.rd RG_PSTATUS_STATE ∧
      (d.withdrawn e).out = d.out ++ [.pmdone] := by
  rw [Device.withdrawn, Device.rd_emit, Device.rd_emit, Device.emit_power, Device.emit_out, Device.log_power, Device.log_out,
    Device.rd_log _ _ _ _ (by decide), Device.rd_log _ _ _ _ (by decide), Device.rd_wr_same _ _ (by decide), Device.rd_wr_bits _ _ (by decide)]
  exact ⟨rfl, Nat.mod_eq_of_lt he, rfl, rfl⟩

/-! ### The end of a stage, and a forced state's quiescence -/

theorem stageEndEff_idle (h : d.power.run = none) : stageEndEff d = d := by rw [stageEndEff, h]

theorem stageEndEff_waits {r : PmRun} (h : d.power.run = some r) (hd : d.stageDone r = false) : stageEndEff d = d := by
  rw [stageEndEff, h]
  exact if_pos (by simp [hd])

theorem stageEndEff_down {k t : Nat} {f : Bool} (h : d.power.run = some { stage := k, up := false, target := t, forced := f })
    (hf : d.power.forcedReq = false) (hd : d.stageDone { stage := k, up := false, target := t, forced := f } = true) :
    stageEndEff d = d.goOn k t f := by
  rw [stageEndEff, h]
  dsimp only
  rw [if_neg (by simp [hf, hd]), if_neg (by simp)]
  rfl

/-- The quiescence over: the request taken up, the stopped cores shown. -/
def Device.quiesced (d : Device) (n : Nat) : Device :=
  ((d.updPower fun p => { p with request := none, forcedReq := false }).wrAll [(RG_PSTATUS_STOPPED, n), (RG_PSTATUS_FORCED, 1), (RG_PSTATUS_BUSY, 1)]).log 9
    0x6003 [n % 4096]

theorem Device.quiesced_eq (d : Device) (n : Nat) : d.quiesced n =
    ((((d.updPower fun p => { p with request := none, forcedReq := false }).wr RG_PSTATUS_STOPPED n).wr RG_PSTATUS_FORCED 1).wr RG_PSTATUS_BUSY 1).log 9
      0x6003 [n % 4096] := rfl

theorem Device.quiesced_frame (d : Device) (n : Nat) : Device.Frame [RG_PSTATUS, RG_LOGSTAT] d (d.quiesced n) :=
  (((Device.Frame.refl _ d).updPower _).wrAll _ (by simp [RG_PSTATUS_STOPPED, RG_PSTATUS_FORCED, RG_PSTATUS_BUSY])).log _ _ _ (by decide)

theorem Device.quiesced_power (d : Device) (n : Nat) : (d.quiesced n).power = { d.power with request := none, forcedReq := false } := by
  rw [Device.quiesced_eq, Device.log_power]
  rfl

theorem Device.quiesced_host (d : Device) (n : Nat) : (d.quiesced n).host = d.host := by
  rw [Device.quiesced_eq, Device.log_host]
  rfl

theorem Device.rd_quiesced_state (d : Device) (n : Nat) : (d.quiesced n).rd RG_PSTATUS_STATE = d.rd RG_PSTATUS_STATE := by
  rw [Device.quiesced_eq, Device.rd_log _ _ _ _ (by decide), Device.rd_wr_bits _ _ (by decide), Device.rd_wr_bits _ _ (by decide),
    Device.rd_wr_bits _ _ (by decide), Device.rd_updPower]

theorem Device.rd_quiesced_stopped (d : Device) {n : Nat} (hn : n < 2 ^ RG_PSTATUS_STOPPED.n) : (d.quiesced n).rd RG_PSTATUS_STOPPED = n := by
  rw [Device.quiesced_eq, Device.rd_log _ _ _ _ (by decide), Device.rd_wr_bits _ _ (by decide), Device.rd_wr_bits _ _ (by decide),
    Device.rd_wr_same _ _ (by decide)]
  exact Nat.mod_eq_of_lt hn

theorem quiesceEff_none {n : Nat} (h : d.power.request = none ∨ d.power.forcedReq = false) : quiesceEff n d = d := by
  unfold quiesceEff
  split
  case h_1 hq => rfl
  case h_2 t hq => exact if_pos (by simp [h.resolve_left (by simp [hq])])

theorem quiesceEff_begins {n t : Nat} (hq : d.power.request = some t) (hf : d.power.forcedReq = true) (hn : d.power.run = none) :
    quiesceEff n d = (d.quiesced n).goOn (d.rd RG_PSTATUS_STATE) t true := by
  have hrun : (d.quiesced n).power.run = none := by rw [Device.quiesced_power, hn]
  rw [← d.rd_quiesced_state n, quiesceEff, hq]
  dsimp only
  rw [if_neg (by simp [hf]), ← Device.quiesced, hrun]

end Sys2Proof.Machine

open Sys2Proof Sys2Proof.Machine

/-- Settles O51: a request recorded, begun or withdrawn; the first stages' starts and ends; a forced state where it already is. -/
theorem powerRequestsRunTheirStages : Obligations.PowerRequestsRunTheirStages := by
  refine ⟨?_, ?_, ?_, ?_, ?_, ?_, ?_, ?_, ?_, ?_, ?_, ?_, ?_, ?_, ?_⟩
  · intro s v h
    exact gives_eff (targetWriteEff v) rfl (targetWriteEff_high h)
  · intro s v h hb
    exact gives_eff (targetWriteEff v) rfl (targetWriteEff_busy h hb)
  · intro s v h hb hf
    refine givesThat_eff (targetWriteEff v) rfl ?_
    rw [targetWriteEff_taken h hb hf, Device.rd_updPower, Device.rd_updPower, Device.rd_wr_reg _ _ (by decide), Device.rd_wr_same _ _ (by decide),
      Device.rd_wr_same _ _ (by decide)]
    refine ⟨rfl, Nat.mod_eq_of_lt (h.trans (by decide)), Nat.zero_mod _, ?_⟩
    exact ((((Device.Frame.refl _ s.dev).wr RG_PMODE_TARGET _ (by decide)).wr RG_PSTATUS_ERR 0 (by decide)).updPower _).untouched (by decide)
  · intro s h
    exact gives_eff transitionBeginEff rfl (transitionBeginEff_unasked h)
  · intro s h
    exact gives_eff transitionBeginEff rfl (transitionBeginEff_waits h)
  · intro s hr hf hn ho hq hst
    refine givesThat_eff transitionBeginEff rfl ?_
    have hgo : s.dev.unasked.goOn 0 (min 1 4) false = (s.dev.unasked.stageRuns { stage := 1, up := false, target := 1, forced := false }).idleDown := rfl
    obtain ⟨hrun, hreq, hbusy, hoff⟩ := (s.dev.unasked.stageRuns { stage := 1, up := false, target := 1, forced := false }).idleDown_shows
    rw [transitionBeginEff_begins hr hf hn ho hq, hst, hgo]
    exact ⟨hrun, hreq, hbusy.trans (Device.rd_stageRuns_busy _ _), hoff⟩
  · intro s hr hf hn ho hq hst
    refine givesThat_eff transitionBeginEff rfl ?_
    obtain ⟨hbusy, hstate, -, -⟩ := s.dev.unasked.runOver_shows false (show 0 < 8 by decide)
    have hgo : s.dev.unasked.goOn 0 (min 0 4) false = s.dev.unasked.runOver 0 false := Device.goOn_there (by decide) rfl
    rw [transitionBeginEff_begins hr hf hn ho hq, hst, hgo, hbusy, hstate, Device.runOver_power, Device.runOver_out]
    refine ⟨rfl, rfl, rfl, rfl, rfl, ?_⟩
    exact (((Device.Frame.refl _ s.dev).updPower _).trans (s.dev.unasked.runOver_frame 0 false)).untouched (by decide)
  · intro s b h
    exact gives_eff (requestTimeoutEff b) rfl (requestTimeoutEff_none h)
  · intro s b hq hf hn
    refine givesThat_eff (requestTimeoutEff b) rfl ?_
    have he : (if b then 1 else 2) < 8 := by cases b <;> decide
    obtain ⟨hreq, herr, hst, hout⟩ := s.dev.withdrawn_shows he
    rw [requestTimeoutEff_withdraws hq hf hn]
    exact ⟨hreq, herr, hst, hout, (s.dev.withdrawn_frame _).untouched (by decide)⟩
  · intro s h
    exact gives_eff stageEndEff rfl (stageEndEff_idle h)
  · intro s r h hd
    exact gives_eff stageEndEff rfl (stageEndEff_waits h hd)
  · intro s h hf
    refine givesThat_eff stageEndEff rfl ?_
    obtain ⟨hbusy, hstate, hforced, -⟩ := s.dev.runOver_shows false (show 1 < 8 by decide)
    rw [stageEndEff_down h hf rfl, Device.goOn_there (by decide) rfl, hbusy, hstate, hforced, Device.runOver_power, Device.runOver_out]
    exact ⟨rfl, rfl, rfl, rfl, rfl, rfl, (s.dev.runOver_frame 1 false).untouched (by decide)⟩
  · intro s h hf h0 h1
    refine givesThat_eff stageEndEff rfl ?_
    have hdone : s.dev.stageDone { stage := 2, up := false, target := 3, forced := false } = true := Bool.and_eq_true_iff.2 ⟨h0, h1⟩
    have hgo : s.dev.goOn 2 3 false = s.dev.startStage { stage := 3, up := false, target := 3, forced := false } := rfl
    have hframe := s.dev.stageRuns_frame { stage := 3, up := false, target := 3, forced := false }
    rw [stageEndEff_down h hf hdone, hgo, Device.startStage_slow, Device.wr_power, Device.stageRuns_power, Device.rd_wr_same _ _ (by decide),
      Device.rd_wr_reg _ _ (by decide), Device.rd_stageRuns_busy, hframe.rd RG_PSLOW_SPEED (by decide)]
    refine ⟨rfl, Nat.mod_eq_of_lt (Device.rd_lt _ RG_PSLOW_SPEED), rfl, ?_⟩
    exact ((hframe.mono (by decide)).wr SP_SPEED_TARGET _ (by decide)).untouched (by decide)
  · intro s n h
    exact gives_eff (quiesceEff n) rfl (quiesceEff_none h)
  · intro s n t hq hf hn hst hmi ht hlt
    refine givesThat_eff (quiesceEff n) rfl ?_
    have ht8 : t < 8 := hst ▸ s.dev.rd_lt RG_PSTATUS_STATE
    have hmi' : (true && (s.dev.quiesced n).host.miForce) = false := by rw [Device.quiesced_host, hmi]; rfl
    obtain ⟨hbusy, hstate, hforced, hstop⟩ := (s.dev.quiesced n).runOver_shows true ht8
    rw [quiesceEff_begins hq hf hn, hst, Device.goOn_there ht hmi', hbusy, hstate, hforced, hstop, Device.runOver_power, Device.quiesced_power,
      Device.rd_quiesced_stopped _ hlt]
    exact ⟨rfl, rfl, rfl, rfl, rfl, rfl, rfl, ((s.dev.quiesced_frame n).trans ((s.dev.quiesced n).runOver_frame t true)).untouched (by decide)⟩

end

section
/-!
Retain (R384 to R391): entry, the seals, the wake sources, and an exit with everything intact.
-/
namespace Sys2Proof.Machine

variable {d e : Device}

/-! ### Entry -/

/-- Retain entry under way: the trim set, the chronometer saved. -/
def Device.retainEntered (d : Device) : Device :=
  ((d.updPower fun p => { p with retain := .entering, woken := false, osc := .off }).wr RG_CHRTRIM_TRIM
    (chrTrim (d.rd (RG_TEMP_CODE 6)) (d.rd RG_XTAL_K) (d.rdI RG_XTAL_T0))).saveChron

theorem retainEntryEff_unready (h : d.retainReady = false) : retainEntryEff d = d := if_pos (by simp [h])

theorem retainEntryEff_ready (h : d.retainReady = true) : retainEntryEff d = d.retainEntered := if_neg (by simp [h])

theorem chrTrim_lt (code k : Nat) (t0 : Int) : chrTrim code k t0 < 2 ^ RG_CHRTRIM_TRIM.n :=
  lt_of_le_of_lt (Nat.min_le_right _ _) (by decide)

theorem Device.retainEntered_frame (d : Device) : Device.Frame [RG_CHRTRIM] d d.retainEntered :=
  (((Device.Frame.refl _ d).updPower _).wr RG_CHRTRIM_TRIM _ (by decide)).same rfl rfl

theorem Device.retainEntered_shows (d : Device) :
    d.retainEntered.power.retain = .entering ∧ d.retainEntered.nor.chronRec = d.chron.chr ∧ d.retainEntered.chron = d.chron ∧
      d.retainEntered.rd RG_CHRTRIM_TRIM = chrTrim (d.rd (RG_TEMP_CODE 6)) (d.rd RG_XTAL_K) (d.rdI RG_XTAL_T0) := by
  refine ⟨rfl, rfl, rfl, ?_⟩
  have hsaved : ∀ e : Device, e.saveChron.rd RG_CHRTRIM_TRIM = e.rd RG_CHRTRIM_TRIM := fun e => Device.rd_congr rfl _
  rw [Device.retainEntered, hsaved, Device.rd_wr_same _ _ (by decide)]
  exact Nat.mod_eq_of_lt (chrTrim_lt _ _ _)

/-- The idle time of Halt over. -/
def Device.idledOut (d : Device) : Device := d.updPower fun p => { p with idleExpired := true }

theorem Device.retainReady_idledOut (h : d.retainReady = true) : d.idledOut.retainReady = true := by
  simp only [Device.retainReady, Bool.and_eq_true] at h ⊢
  obtain ⟨hpre, -⟩ := h
  exact ⟨hpre, Bool.or_true _⟩

theorem Device.halt_of_retainReady (h : d.retainReady = true) : d.rd RG_PSTATUS_STATE = 4 ∧ d.power.run.isSome = false ∧ d.power.retain = .out := by
  simp only [Device.retainReady, Bool.and_eq_true, decide_eq_true_eq, beq_iff_eq] at h
  obtain ⟨⟨⟨⟨⟨⟨⟨⟨⟨⟨-, hout⟩, hst⟩, hrun⟩, -⟩, -⟩, -⟩, -⟩, -⟩, -⟩, -⟩ := h
  exact ⟨hst, by simpa using hrun, hout⟩

theorem retainIdleEff_unmet (h : d.rd RG_RETIDLE_TIME = 0 ∨ d.rd RG_PSTATUS_STATE ≠ 4 ∨ d.power.retain ≠ .out) : retainIdleEff d = d :=
  if_pos (h.imp_right (Or.imp_right .inr))

theorem retainIdleEff_enters (ht : d.rd RG_RETIDLE_TIME ≠ 0) (h : d.retainReady = true) : retainIdleEff d = d.idledOut.retainEntered := by
  obtain ⟨hst, hrun, hout⟩ := d.halt_of_retainReady h
  exact (if_neg (by simp [ht, hst, hrun, hout])).trans (retainEntryEff_ready (Device.retainReady_idledOut h))

/-! ### The seals -/

theorem Device.memWord_congr (hm : e.mem = d.mem) (hp : e.poolPages = d.poolPages) (a : Nat) : e.memWord a = d.memWord a := by
  have hnum : ∀ n a, e.memNum n a = d.memNum n a := by
    intro n
    induction n with
    | zero => exact fun _ => rfl
    | succ n ih =>
      intro a
      rw [Device.memNum, Device.memNum, Device.memByte_congr hm hp, ih]
  exact hnum 8 a

theorem Device.sealRun_congr (hm : e.mem = d.mem) (hp : e.poolPages = d.poolPages) (n : Nat) : ∀ a c, e.sealRun n a c = d.sealRun n a c := by
  have hcheck : ∀ a, e.storedCheck a = d.storedCheck a := fun a => by
    rw [Device.storedCheck, Device.storedCheck, Device.memWord_congr hm hp, Device.badBits, Device.badBits, hm]
  induction n with
  | zero => exact fun _ _ => rfl
  | succ n ih =>
    intro a c
    rw [Device.sealRun, Device.sealRun, Device.memWord_congr hm hp, hcheck, ih]

theorem Device.bankSeal_congr (hm : e.mem = d.mem) (hp : e.poolPages = d.poolPages) (b : Nat) : e.bankSeal b = d.bankSeal b := by
  rw [Device.bankSeal, Device.bankSeal, Device.sealRun_congr hm hp]

/-- The registers of the seals of the banks. -/
def sealRegs : List Nat := (List.range 16).map RG_SEAL

theorem mem_sealRegs {b : Nat} (h : b < 16) : RG_SEAL b ∈ sealRegs := List.mem_map.2 ⟨b, List.mem_range.2 h, rfl⟩

/-- The seals of the first banks stored. -/
def Device.sealBanks (d : Device) (n : Nat) : Device := (List.range n).foldl (fun d b => d.wr (RG_SEAL_SEAL b) (d.bankSeal b)) d

theorem Device.sealBanks_succ (d : Device) (n : Nat) : d.sealBanks (n + 1) = (d.sealBanks n).wr (RG_SEAL_SEAL n) ((d.sealBanks n).bankSeal n) := by
  rw [Device.sealBanks, List.range_succ, List.foldl_append, List.foldl_cons, List.foldl_nil, ← Device.sealBanks]

theorem Device.sealBanks_frame (d : Device) {n : Nat} (h : n ≤ 16) : Device.Frame sealRegs d (d.sealBanks n) := by
  induction n with
  | zero => exact .refl _ d
  | succ n ih =>
    rw [Device.sealBanks_succ]
    exact (ih (Nat.le_of_succ_le h)).wr _ _ (mem_sealRegs h)

theorem Device.bankSeal_sealBanks (d : Device) {n : Nat} (h : n ≤ 16) (b : Nat) : (d.sealBanks n).bankSeal b = d.bankSeal b := by
  have hf := d.sealBanks_frame h
  exact Device.bankSeal_congr hf.mem (by simp only [Device.poolPages, hf.rd CB_SRAMPART_BANKS (by decide)]) b

theorem Device.rd_sealBanks (d : Device) {n b : Nat} (h : n ≤ 16) (hb : b < n) : (d.sealBanks n).rd (RG_SEAL_SEAL b) = d.bankSeal b % 2 ^ 32 := by
  induction n with
  | zero => exact absurd hb (Nat.not_lt_zero b)
  | succ n ih =>
    rw [Device.sealBanks_succ]
    rcases Nat.lt_succ_iff_lt_or_eq.1 hb with hlt | rfl
    · rw [Device.rd_wr_reg _ _ (fun he : RG_SEAL b = RG_SEAL n => by simp only [RG_SEAL] at he; omega)]
      exact ih (Nat.le_of_succ_le h) hlt
    · rw [Device.rd_wr_same _ _ (show 0 + 32 ≤ 32 from Nat.le_refl _), d.bankSeal_sealBanks (Nat.le_of_succ_le h)]
      rfl

theorem Device.sealBanks_power (d : Device) (n : Nat) : (d.sealBanks n).power = d.power :=
  List.foldlRecOn (motive := fun e : Device => e.power = d.power) _ _ rfl fun _ he _ _ => he

theorem Device.sealBanks_chron (d : Device) (n : Nat) : (d.sealBanks n).chron = d.chron :=
  List.foldlRecOn (motive := fun e : Device => e.chron = d.chron) _ _ rfl fun _ he _ _ => he

/-- The seals stored, the event's record made. -/
def Device.sealsStored (d : Device) : Device :=
  let d := d.sealBanks 16
  let (reg, d) := d.takeFree 32
  let d := d.wr RG_SEALREG_SEAL reg
  d.log 9 0x6005 ((List.range 16).map fun b => d.rd (RG_SEAL_SEAL b))

theorem Device.sealsStored_eq (d : Device) : ∃ v ps, d.sealsStored = (((d.sealBanks 16).takeFree 32).2.wr RG_SEALREG_SEAL v).log 9 0x6005 ps := ⟨_, _, rfl⟩

theorem Device.sealsStored_frame (d : Device) : Device.Frame ([RG_SEALREG, RG_LOGSTAT] ++ sealRegs) d d.sealsStored := by
  obtain ⟨v, ps, h⟩ := d.sealsStored_eq
  have hbanks := (d.sealBanks_frame (Nat.le_refl 16)).mono (rs' := [RG_SEALREG, RG_LOGSTAT] ++ sealRegs) fun a ha => List.mem_append_right _ ha
  rw [h]
  exact ((hbanks.same (Device.takeFree_regs _ 32) (Device.takeFree_mem _ 32)).wr RG_SEALREG_SEAL v (by simp [RG_SEALREG_SEAL])).log _ _ _ (by simp)

theorem Device.rd_sealsStored (d : Device) {b : Nat} (hb : b < 16) : d.sealsStored.rd (RG_SEAL_SEAL b) = d.bankSeal b % 2 ^ 32 := by
  obtain ⟨v, ps, h⟩ := d.sealsStored_eq
  have hlog : RG_SEAL b ≠ RG_LOGSTAT := by simp only [RG_SEAL, RG_LOGSTAT]; omega
  have hreg : RG_SEAL b ≠ RG_SEALREG := by simp only [RG_SEAL, RG_SEALREG]; omega
  rw [h, Device.rd_log _ _ _ _ hlog, Device.rd_wr_reg _ _ hreg, Device.rd_congr (Device.takeFree_regs _ 32)]
  exact d.rd_sealBanks (Nat.le_refl 16) hb

theorem Device.sealsStored_chron (d : Device) : d.sealsStored.chron = d.chron := by
  obtain ⟨v, ps, h⟩ := d.sealsStored_eq
  rw [h, Device.log_chron, Device.wr_chron, Device.takeFree_chron, Device.sealBanks_chron]

theorem sealDoneEff_unmet {p : Nat} (h : d.power.retain ≠ .entering) : sealDoneEff p d = d := if_pos h

theorem sealDoneEff_gates {p : Nat} (h : d.power.retain = .entering) :
    sealDoneEff p d = d.sealsStored.updPower fun q =>
      { q with retain := .gated, groupParity := p % 512, retainAt := d.sealsStored.chron.chr, forcedRetain := false } :=
  if_neg (by simp [h])

/-! ### The switch to ticks -/

theorem tickSwitchEff_unmet (h : d.power.retain ≠ .gated) : tickSwitchEff d = d := if_pos h

theorem tickSwitchEff_switches (h : d.power.retain = .gated) :
    tickSwitchEff d = Device.updPower { d with chron := { d.chron with frac := 0 } } fun p => { p with retain := if p.woken then .waking else .inside } :=
  if_neg (by simp [h])

/-! ### Wake sources -/

/-- A source recorded in WAKECAUSE. -/
def Device.wakeRecorded (d : Device) (b : Nat) : Device := d.wr RG_WAKECAUSE_CAUSE (d.rd RG_WAKECAUSE_CAUSE ||| 2 ^ b)

/-- A recorded source that ends Retain. -/
def Device.wakes (d : Device) (b : Nat) : Device := (d.wakeRecorded b).updPower fun p => { p with retain := .waking }

theorem Device.wakeBy_disabled {b : Nat} (h : (d.rd RG_WAKEEN_EN).testBit b = false) : d.wakeBy b = d := if_pos (by simp [h])

theorem Device.wakeBy_inside {b : Nat} (he : (d.rd RG_WAKEEN_EN).testBit b = true) (h : d.power.retain = .inside) : d.wakeBy b = d.wakes b := by
  refine (if_neg (by simp [he])).trans ?_
  dsimp only
  rw [h]
  rfl

theorem Device.wakeBy_entering {b : Nat} (he : (d.rd RG_WAKEEN_EN).testBit b = true) (h : d.power.retain = .entering) :
    d.wakeBy b = (d.updPower fun p => { p with retain := .out, idleExpired := false }).log 9 0x6007 := by
  refine (if_neg (by simp [he])).trans ?_
  dsimp only
  rw [h]

theorem Device.wakes_frame (d : Device) (b : Nat) : Device.Frame [RG_WAKECAUSE] d (d.wakes b) :=
  ((Device.Frame.refl _ d).wr RG_WAKECAUSE_CAUSE _ (by decide)).updPower _

theorem Device.testBit_wakes (d : Device) {b : Nat} (h : b < 5) : ((d.wakes b).rd RG_WAKECAUSE_CAUSE).testBit b = true := by
  have hin : decide (b < RG_WAKECAUSE_CAUSE.n) = true := decide_eq_true h
  rw [Device.wakes, Device.rd_updPower, Device.wakeRecorded, Device.rd_wr_same _ _ (by decide), Nat.testBit_mod_two_pow, hin, Nat.testBit_or,
    Nat.testBit_two_pow_self, Bool.or_true]
  rfl

theorem Device.wakes_retain (d : Device) (b : Nat) : (d.wakes b).power.retain = .waking := rfl

/-- The oscillator stopped. -/
def Device.oscOff (d : Device) : Device := d.updPower fun p => { p with osc := .off }

theorem crownBreakEff_unmet (h : d.power.retain = .out) : crownBreakEff d = d := if_pos (.inl h)

theorem crownBreakEff_starts (h : d.power.retain ≠ .out) (he : (d.rd RG_WAKEEN_EN).testBit 2 = true) :
    crownBreakEff d = d.updPower fun p => { p with osc := .running } :=
  if_neg (by simp [h, he])

theorem crownPatternEff_off (h : d.power.osc = .off) : crownPatternEff d = d := if_pos h

theorem crownPatternEff_wakes (h : d.power.osc = .running) (hr : d.power.retain = .inside) (he : (d.rd RG_WAKEEN_EN).testBit 2 = true) :
    crownPatternEff d = d.oscOff.wakes 2 :=
  (if_neg (by simp [h])).trans (Device.wakeBy_inside he hr)

/-! ### An exit with everything intact -/

/-- The crown port at its first rate. -/
def Device.crownSlow (d : Device) : Device := { d with crown := { d.crown with rateIdx := 0, newRate := none, unproven := false } }

theorem Device.rd_crownSlow (d : Device) (f : RF) : d.crownSlow.rd f = d.rd f := Device.rd_congr rfl f

theorem Device.Frame.crownSlow {rs : List Nat} (h : Device.Frame rs d e) : Device.Frame rs d e.crownSlow := h.same rfl rfl

/-- Retain left. -/
def Device.retainOut (d : Device) : Device := d.updPower fun p => { p with retain := .out, woken := false, osc := .off, idleExpired := false }

/-- STATE of Halt, and SEALSTAT with what differed. -/
def Device.haltShown (d : Device) (b g r : Nat) : Device :=
  d.wrAll [(RG_PSTATUS_STATE, 4), (RG_SEALSTAT_BANKS, b), (RG_SEALSTAT_GROUPS, g), (RG_SEALSTAT_REG, r)]

variable (b g r : Nat)

theorem Device.haltShown_eq (d : Device) :
    d.haltShown b g r = (((d.wr RG_PSTATUS_STATE 4).wr RG_SEALSTAT_BANKS b).wr RG_SEALSTAT_GROUPS g).wr RG_SEALSTAT_REG r := rfl

theorem Device.haltShown_frame (d : Device) : Device.Frame [RG_PSTATUS, RG_SEALSTAT, RG_LOGSTAT] d (d.haltShown b g r) := by
  rw [Device.haltShown_eq]
  exact ((((Device.Frame.refl _ d).wr _ _ (by decide)).wr _ _ (by decide)).wr _ _ (by decide)).wr _ _ (by decide)

theorem Device.rd_haltShown_state (d : Device) : (d.haltShown b g r).rd RG_PSTATUS_STATE = 4 := by
  rw [Device.haltShown_eq, Device.rd_wr_reg (f := RG_SEALSTAT_REG) _ _ (by decide), Device.rd_wr_reg (f := RG_SEALSTAT_GROUPS) _ _ (by decide),
    Device.rd_wr_reg (f := RG_SEALSTAT_BANKS) _ _ (by decide), Device.rd_wr_same _ _ (by decide)]
  rfl

/-- Halt again: the wake's state ended, STATE and SEALSTAT written. -/
def Device.haltAgain (d : Device) : Device :=
  (d.retainOut.haltShown (d.retainOut.rd RG_SEALSTAT_BANKS ||| 0) (d.retainOut.rd RG_SEALSTAT_GROUPS ||| 0) (d.retainOut.rd RG_SEALSTAT_REG)).crownSlow

theorem Device.haltAgain_frame (d : Device) : Device.Frame [RG_PSTATUS, RG_SEALSTAT, RG_LOGSTAT] d d.haltAgain :=
  (((Device.Frame.refl _ d).updPower _).trans (d.retainOut.haltShown_frame _ _ _)).crownSlow

theorem Device.rd_haltAgain_state (d : Device) : d.haltAgain.rd RG_PSTATUS_STATE = 4 :=
  (Device.rd_crownSlow _ _).trans (Device.rd_haltShown_state _ _ _ _)

theorem retainExitEff_unmet {g b : Nat} {x y : Bool} {o : BootObs} (h : d.power.retain ≠ .waking) : retainExitEff g b x y o d = d := if_pos h

theorem retainExitEff_intact {o : BootObs} (h : d.power.retain = .waking) :
    ∃ ps, retainExitEff d.power.groupParity 0 false true o d = d.haltAgain.log 9 0x6006 ps := by
  refine ⟨[d.haltAgain.rd RG_WAKECAUSE_CAUSE, d.chron.chr - d.power.retainAt], ?_⟩
  have hany : ((List.range 16).any fun _ => false) = false := List.any_eq_false.2 fun _ _ => Bool.false_ne_true
  unfold retainExitEff
  rw [if_neg (by simp [h])]
  simp only [Nat.xor_self, Nat.zero_mod, Nat.zero_testBit, Bool.false_eq_true, if_false, List.foldl_fixed, Bool.and_false, hany,
    Bool.or_self, and_self, if_true, Device.haltAgain]
  rfl

end Sys2Proof.Machine

open Sys2Proof Sys2Proof.Machine

/-- Settles O52: entry on its conditions, the seals bank by bank, a source's record, and an exit in which no parity differs. -/
theorem retainIsEnteredSealedAndLeft : Obligations.RetainIsEnteredSealedAndLeft := by
  refine ⟨?_, ?_, ?_, ?_, ?_, ?_, ?_, ?_, ?_, ?_, ?_, ?_, ?_, ?_, ?_, ?_, ?_, ?_, ?_, ?_, ?_⟩
  · intro s h
    exact gives_eff retainEntryEff rfl (retainEntryEff_unready h)
  · intro s h
    refine givesThat_eff retainEntryEff rfl ?_
    obtain ⟨hret, hrec, hchron, htrim⟩ := s.dev.retainEntered_shows
    rw [retainEntryEff_ready h]
    exact ⟨hret, hrec, hchron, htrim, s.dev.retainEntered_frame.untouched (by decide)⟩
  · intro s h
    exact gives_eff retainIdleEff rfl (retainIdleEff_unmet h)
  · intro s ht h
    refine givesThat_eff retainIdleEff rfl ?_
    obtain ⟨hret, hrec, -, -⟩ := s.dev.idledOut.retainEntered_shows
    rw [retainIdleEff_enters ht h]
    exact ⟨hret, hrec, (((Device.Frame.refl _ s.dev).updPower _).trans s.dev.idledOut.retainEntered_frame).untouched (by decide)⟩
  · intro s p h
    exact gives_eff (sealDoneEff p) rfl (sealDoneEff_unmet h)
  · intro s p h
    refine givesThat_eff (sealDoneEff p) rfl ?_
    rw [sealDoneEff_gates h, Device.sealsStored_chron, Device.updPower_power]
    refine ⟨rfl, rfl, rfl, fun b hb => ?_, ?_⟩
    · rw [Device.rd_updPower]
      exact s.dev.rd_sealsStored hb
    · exact ((s.dev.sealsStored_frame.updPower _).untouched (by decide)).2
  · intro s h
    exact gives_eff tickSwitchEff rfl (tickSwitchEff_unmet h)
  · intro s h
    refine givesThat_eff tickSwitchEff rfl ?_
    rw [tickSwitchEff_switches h]
    exact ⟨rfl, rfl, rfl, ((Device.Frame.refl [] s.dev).same rfl rfl).untouched (by decide)⟩
  · intro s p h
    refine gives_eff (fun d => if d.hasPort p then d.wakeBy p else d) rfl ?_
    rcases h with h | h
    · exact if_neg (by simp [h])
    · split
      · exact Device.wakeBy_disabled h
      · rfl
  · intro s p hp hport he hin
    refine givesThat_eff (fun d => if d.hasPort p then d.wakeBy p else d) rfl ?_
    rw [if_pos hport, Device.wakeBy_inside he hin]
    exact ⟨s.dev.wakes_retain p, s.dev.testBit_wakes (hp.trans (by decide)), (s.dev.wakes_frame p).untouched (by decide)⟩
  · intro s a h h'
    exact gives_eff (fun d => if a = 0x1D ∨ a = 0x6A then d.wakeBy 3 else d) rfl (if_neg (not_or.2 ⟨h, h'⟩))
  · intro s he hin
    refine givesThat_eff (fun d => if 0x1D = 0x1D ∨ 0x1D = 0x6A then d.wakeBy 3 else d) rfl ?_
    rw [if_pos (.inl rfl), Device.wakeBy_inside he hin]
    exact ⟨s.dev.wakes_retain 3, s.dev.testBit_wakes (by decide), (s.dev.wakes_frame 3).untouched (by decide)⟩
  · intro s h
    exact gives_eff (fun d => if d.rd RG_AONTMR_SEC = 0 then d else d.wakeBy 4) rfl (if_pos h)
  · intro s h he hen
    refine givesThat_eff (fun d => if d.rd RG_AONTMR_SEC = 0 then d else d.wakeBy 4) rfl ?_
    rw [if_neg h, Device.wakeBy_entering he hen, Device.log_power]
    exact ⟨rfl, (((Device.Frame.refl [RG_LOGSTAT] s.dev).updPower _).log _ _ _ (by decide)).untouched (by decide)⟩
  · intro s h he
    exact gives_eff crownBreakEff rfl (crownBreakEff_starts h he)
  · intro s h
    exact gives_eff crownBreakEff rfl (crownBreakEff_unmet h)
  · intro s h
    exact gives_eff crownPatternEff rfl (crownPatternEff_off h)
  · intro s h hin he
    refine givesThat_eff crownPatternEff rfl ?_
    rw [crownPatternEff_wakes h hin he]
    exact ⟨rfl, rfl, s.dev.oscOff.testBit_wakes (by decide),
      (((Device.Frame.refl _ s.dev).updPower _).trans (s.dev.oscOff.wakes_frame 2)).untouched (by decide)⟩
  · intro s
    exact gives_eff Device.oscOff rfl rfl
  · intro s g b x y o h
    exact gives_eff (retainExitEff g b x y o) rfl (retainExitEff_unmet h)
  · intro s o h hp
    refine givesThat_eff (retainExitEff s.dev.power.groupParity 0 false true o) rfl ?_
    obtain ⟨ps, hexit⟩ := retainExitEff_intact (o := o) h
    rw [hexit, Device.log_power, Device.log_hnor, Device.log_chron, Device.log_cipher, Device.rd_log _ _ _ _ (by decide), Device.rd_haltAgain_state]
    exact ⟨rfl, rfl, rfl, rfl, rfl, (s.dev.haltAgain_frame.log _ _ _ (by decide)).untouched (by decide)⟩

end

section
/-!
The chronometer and what is counted with it (R392 to R395, R399, R414, R417), and the usage snapshots (R400).
-/
namespace Sys2Proof.Machine

variable {d e : Device}

/-! ### A tick of the root clock -/

/-- The count advanced by one microsecond. -/
def Device.ticked (d : Device) : Device := { d with chron := { d.chron with chr := (d.chron.chr + 1) % 2 ^ 64 } }

/-- The thermal record saved at the end of a tenth minute. -/
def Device.thermSaved (d : Device) (before : Nat) : Device := if d.chron.chr / 600000000 = before / 600000000 then d else d.saveTherm

/-- What a tick counts, before the request of PS1. -/
def Device.tickCounted (d : Device) : Device := (((d.ticked.closeMinute d.chron.chr).thermSaved d.chron.chr).countBusy.countDuty).countProbation

theorem chronTickEff_stopped (h : d.rootCounts = false) : chronTickEff d = d := if_pos (by simp [h])

theorem chronTickEff_counts (h : d.rootCounts = true) : chronTickEff d = d.tickCounted.idleInPs1 := if_neg (by simp [h])

theorem Device.closeMinute_therm (d : Device) (n : Nat) : ∃ r, d.closeMinute n = { d with thermRec := r } := by
  unfold Device.closeMinute
  split
  · exact ⟨d.thermRec, rfl⟩
  · split
    · exact ⟨d.thermRec, rfl⟩
    · exact ⟨_, rfl⟩

theorem Device.thermSaved_nor (d : Device) (n : Nat) : ∃ x, d.thermSaved n = { d with nor := x } := by
  unfold Device.thermSaved
  split
  · exact ⟨d.nor, rfl⟩
  · exact ⟨_, rfl⟩

theorem Device.countProbation_boot (d : Device) : ∃ u, d.countProbation = { d with boot := { d.boot with probationUs := u } } := by
  unfold Device.countProbation
  split
  · exact ⟨_, rfl⟩
  · exact ⟨d.boot.probationUs, rfl⟩

/-- A tick's counts: the chronometer, the busy times and the duty, and records that no clause reads. -/
theorem Device.tickCounted_eq (d : Device) : ∃ x u, d.tickCounted =
    { d with
      chron := { d.chron with chr := (d.chron.chr + 1) % 2 ^ 64 }
      thermRec := (d.ticked.closeMinute d.chron.chr).thermRec, nor := x, meters := d.countBusy.meters, duty := d.countDuty.duty
      boot := { d.boot with probationUs := u } } := by
  obtain ⟨r, hr⟩ := d.ticked.closeMinute_therm d.chron.chr
  obtain ⟨x, hx⟩ := Device.thermSaved_nor { d.ticked with thermRec := r } d.chron.chr
  obtain ⟨u, hu⟩ := Device.countProbation_boot ({ { d.ticked with thermRec := r } with nor := x } : Device).countBusy.countDuty
  refine ⟨x, u, ?_⟩
  rw [Device.tickCounted, hr, hx, hu]
  rfl

theorem Device.idleInPs1_power (d : Device) : ∃ p, d.idleInPs1 = { d with power := p } := by
  unfold Device.idleInPs1
  split
  · exact ⟨_, rfl⟩
  · exact ⟨d.power, rfl⟩

theorem chronTickEff_eq (h : d.rootCounts = true) : ∃ x u p, chronTickEff d =
    { d with
      chron := { d.chron with chr := (d.chron.chr + 1) % 2 ^ 64 }
      thermRec := (d.ticked.closeMinute d.chron.chr).thermRec, nor := x, meters := d.countBusy.meters, duty := d.countDuty.duty
      boot := { d.boot with probationUs := u }, power := p } := by
  obtain ⟨x, u, hc⟩ := d.tickCounted_eq
  obtain ⟨p, hp⟩ := d.tickCounted.idleInPs1_power
  refine ⟨x, u, p, ?_⟩
  rw [chronTickEff_counts h, hp, hc]

theorem Device.countBusy_idle (h : d.busyNs = []) : d.countBusy.meters = d.meters := by
  simp only [Device.countBusy, h, List.foldl_nil]

theorem Device.idleInPs1_asks (hps : d.host.ps = 1) (hst : d.rd RG_PSTATUS_STATE = 0) (hfl : d.inFlight = 0) (hrun : d.power.run = none)
    (hreq : d.power.request = none) (hrel : d.released = true) : d.idleInPs1.power.request = some 1 := by
  rw [Device.idleInPs1, if_pos ⟨hps, hst, hfl, by rw [hrun]; rfl, by rw [hreq]; rfl, hrel⟩]
  rfl

/-! ### The end of a minute -/

theorem minute_ends {n : Nat} (h : (n + 1) % 60000000 = 0) : (n + 1) / 60000000 ≠ n / 60000000 := by omega

/-- A minute with composite `c` counted in its two bins. -/
def ThermRec.minuteCounted (r : ThermRec) (c : Nat) : ThermRec :=
  { r with
    bins52 := Sparse.setCnt r.bins52 (bin52 c) (Sparse.cnt r.bins52 (bin52 c) + 1)
    bins41 := Sparse.setCnt r.bins41 (bin41 c) (Sparse.cnt r.bins41 (bin41 c) + 1), minuteMax := none }

theorem ThermRec.minuteCounted_shows (r : ThermRec) (c : Nat) :
    (r.minuteCounted c).minuteMax = none ∧ Sparse.cnt (r.minuteCounted c).bins52 (bin52 c) = Sparse.cnt r.bins52 (bin52 c) + 1 ∧
      Sparse.cnt (r.minuteCounted c).bins41 (bin41 c) = Sparse.cnt r.bins41 (bin41 c) + 1 :=
  ⟨rfl, Sparse.cnt_setCnt_same r.bins52 (bin52 c) (Sparse.cnt r.bins52 (bin52 c) + 1),
    Sparse.cnt_setCnt_same r.bins41 (bin41 c) (Sparse.cnt r.bins41 (bin41 c) + 1)⟩

theorem Device.closeMinute_counts {c n : Nat} (hm : d.thermRec.minuteMax = some c) (h : d.chron.chr / 60000000 ≠ n / 60000000) :
    (d.closeMinute n).thermRec = d.thermRec.minuteCounted c := by
  rw [Device.closeMinute, if_neg h, hm]
  rfl

theorem Device.ticked_chr (h : d.chron.chr < 2 ^ 63) : d.ticked.chron.chr = d.chron.chr + 1 :=
  Nat.mod_eq_of_lt ((Nat.succ_le_of_lt h).trans_lt (by decide))

/-! ### A tick of the 32.768 kHz clock -/

/-- The sum of the fraction, the tick's length and the trim. -/
def Device.tickSum (d : Device) : Int := ((d.chron.frac : Int) + 0x84800000 + d.rdI RG_CHRTRIM_TRIM) % 2 ^ 64

/-- The count advanced by one tick. -/
def Device.slowTicked (d : Device) : Device :=
  { d with chron := { d.chron with
      chr := (d.chron.chr + 30 + (d.tickSum / 2 ^ 32).toNat) % 2 ^ 64
      frac := (d.tickSum % 2 ^ 32).toNat } }

theorem retainTickEff_stopped (h : d.ticksCount = false) : retainTickEff d = d := if_pos (by simp [h])

theorem retainTickEff_counts (h : d.ticksCount = true) : retainTickEff d = d.slowTicked.closeMinute d.chron.chr := if_neg (by simp [h])

/-- A sum below 2⁶⁴ split into its whole and its fractional part, the whole part added to a count. -/
theorem split_adds {f k c : Nat} {z : Int} (hz : z = ((f + k : Nat) : Int) % 2 ^ 64) (hf : f < 2 ^ 32) (hk : k < 2 ^ 32) (hc : c < 2 ^ 63) :
    (c + 30 + (z / 2 ^ 32).toNat) % 2 ^ 64 * 2 ^ 32 + (z % 2 ^ 32).toNat = c * 2 ^ 32 + f + 30 * 2 ^ 32 + k ∧ (z % 2 ^ 32).toNat < 2 ^ 32 := by
  omega

/-- A tick adds its length, whole part and fraction. -/
theorem Device.slowTicked_adds (ht : d.rd RG_CHRTRIM_TRIM = 0) (hf : d.chron.frac < 2 ^ 32) (hc : d.chron.chr < 2 ^ 63) :
    d.slowTicked.chron.chr * 2 ^ 32 + d.slowTicked.chron.frac = d.chron.chr * 2 ^ 32 + d.chron.frac + 30 * 2 ^ 32 + 0x84800000 ∧
      d.slowTicked.chron.frac < 2 ^ 32 := by
  have htrim : d.rdI RG_CHRTRIM_TRIM = 0 := by rw [Device.rdI, ht]; rfl
  refine split_adds (k := 0x84800000) ?_ hf (by decide) hc
  rw [Device.tickSum, htrim, Int.add_zero, Int.natCast_add]
  rfl

/-! ### Usage snapshots -/

/-- The snapshot of a minute taken. -/
def Device.snapped (d : Device) : Device := { d with usage := { seq := d.chron.chr / 60000000, meters := d.meters } }

/-- The snapshot on the medium. -/
def Device.snapOut (d : Device) : Device := { d with medium := { d.medium with usage := d.usage }, chron := { d.chron with unsaved := none } }

/-- The snapshot counted as not yet durable. -/
def Device.snapKept (d : Device) (p : Nat × Nat) : Device := { d with chron := { d.chron with unsaved := some p } }

theorem minuteEff_unmet (h : d.rootCounts = false ∨ d.chron.chr / 60000000 ≤ d.usage.seq) : minuteEff d = d := by
  refine if_pos ?_
  rcases h with h | h <;> simp [h]

theorem minuteEff_snaps (hr : d.rootCounts = true) (hs : d.usage.seq < d.chron.chr / 60000000) (hf : d.power.forcedReq = false)
    (hn : d.power.run = none) : ∃ p, minuteEff d = if d.spinTurning then d.snapped.snapOut else d.snapped.snapKept p :=
  ⟨_, if_neg (by simp [hr, hf, hn, hs])⟩

end Sys2Proof.Machine

open Sys2Proof Sys2Proof.Machine

/-- Settles O53: what one tick counts beside the registers, a minute's bins, and where a snapshot goes. -/
theorem chronometerAndUsageCount : Obligations.ChronometerAndUsageCount := by
  refine ⟨?_, ?_, ?_, ?_, ?_, ?_, ?_, ?_, ?_, ?_, ?_⟩
  · intro s h
    exact gives_eff chronTickEff rfl (chronTickEff_stopped h)
  · intro s h
    refine givesThat_eff chronTickEff rfl ?_
    obtain ⟨x, u, p, htick⟩ := chronTickEff_eq h
    rw [htick]
    exact ⟨rfl, rfl, rfl, Device.countBusy_idle, ((Device.Frame.refl [] s.dev).same rfl rfl).untouched (by decide)⟩
  · intro s h hps hst hfl hrun hreq hrel
    refine givesThat_eff chronTickEff rfl ?_
    obtain ⟨x, u, hc⟩ := s.dev.tickCounted_eq
    rw [chronTickEff_counts h]
    exact Device.idleInPs1_asks (by rw [hc]; exact hps) (by rw [hc]; exact hst) (by rw [hc]; exact hfl) (by rw [hc]; exact hrun) (by rw [hc]; exact hreq)
      (by rw [hc]; exact hrel)
  · intro s c h hm hlt hend
    refine givesThat_eff chronTickEff rfl ?_
    obtain ⟨x, u, p, htick⟩ := chronTickEff_eq h
    have hchr : s.dev.ticked.chron.chr / 60000000 ≠ s.dev.chron.chr / 60000000 := by
      rw [Device.ticked_chr hlt]
      exact minute_ends hend
    rw [htick]
    dsimp only
    rw [Device.closeMinute_counts (d := s.dev.ticked) hm hchr]
    exact s.dev.thermRec.minuteCounted_shows c
  · intro s h
    exact gives_eff retainTickEff rfl (retainTickEff_stopped h)
  · intro s h ht hf hc
    refine givesThat_eff retainTickEff rfl ?_
    obtain ⟨r, hclose⟩ := s.dev.slowTicked.closeMinute_therm s.dev.chron.chr
    obtain ⟨hsum, hfrac⟩ := Device.slowTicked_adds ht hf hc
    rw [retainTickEff_counts h, hclose]
    exact ⟨hsum, hfrac, ((Device.Frame.refl [] s.dev).same rfl rfl).untouched (by decide)⟩
  · intro s h
    exact gives_eff (fun d => if d.rootCounts then d.saveChron else d) rfl (if_pos h)
  · intro s h
    exact ⟨gives_eff (fun d => if d.rootCounts then d.saveChron else d) rfl (if_neg (by simp [h])), gives_eff minuteEff rfl (minuteEff_unmet (.inl h)),
      gives_eff (fun d => if d.rootCounts then d.saveUsage else d) rfl (if_neg (by simp [h]))⟩
  · intro s h
    exact gives_eff minuteEff rfl (minuteEff_unmet (.inr h))
  · intro s hr hs hf hn
    refine givesThat_eff minuteEff rfl ?_
    obtain ⟨p, hsnap⟩ := minuteEff_snaps hr hs hf hn
    rw [hsnap]
    split
    case isTrue ht =>
      exact ⟨rfl, rfl, rfl, fun _ => ⟨rfl, rfl⟩, fun h => absurd (ht.symm.trans h) (by decide), ((Device.Frame.refl [] s.dev).same rfl rfl).untouched (by decide)⟩
    case isFalse ht =>
      exact ⟨rfl, rfl, rfl, fun h => absurd h ht, fun _ => ⟨rfl, Option.some_ne_none p⟩, ((Device.Frame.refl [] s.dev).same rfl rfl).untouched (by decide)⟩
  · intro s h
    refine givesThat_eff (fun d => if d.rootCounts then d.saveUsage else d) rfl ?_
    rw [if_pos h]
    exact ⟨rfl, rfl, rfl, ((Device.Frame.refl [] s.dev).same rfl rfl).untouched (by decide)⟩

end

section
/-!
The regulator's sensors (R404 to R410): diodes, thermistors, rails and shock inputs, and the device held by a failed supply.
-/
namespace Sys2Proof.Machine

variable {d e : Device}

/-- The thermal state replaced. -/
def Device.withThermal (d : Device) (t : Thermal) : Device := { d with thermal := t }

@[simp] theorem Device.rd_withThermal (d : Device) (t : Thermal) (f : RF) : (d.withThermal t).rd f = d.rd f := Device.rd_congr rfl f

theorem Device.Frame.withThermal {rs : List Nat} (h : Device.Frame rs d e) (t : Thermal) : Device.Frame rs d (e.withThermal t) := h.same rfl rfl

/-! ### Diodes -/

/-- The count of a diode's readings out of range after one more. -/
def Device.diodeCount (d : Device) (i code : Nat) : Thermal :=
  { d.thermal with diodeOut := Sparse.setCnt d.thermal.diodeOut i (if d.outOfRange i code then Sparse.cnt d.thermal.diodeOut i + 1 else 0) }

theorem Device.takeDiode_eq (d : Device) (i code : Nat) :
    d.takeDiode i code = ((d.wr (RG_TEMP_CODE i) code).wr (RG_TEMP_VALID i) 1).withThermal (d.diodeCount i code) := rfl

theorem Device.takeDiode_frame (d : Device) (i code : Nat) : Device.Frame [RG_TEMP i] d (d.takeDiode i code) :=
  (((Device.Frame.refl _ d).wr (RG_TEMP_CODE i) code (List.mem_singleton.2 rfl)).wr (RG_TEMP_VALID i) 1 (List.mem_singleton.2 rfl)).withThermal _

theorem Device.takeDiode_shows (d : Device) (i : Nat) {code : Nat} (h : code < 4096) :
    (d.takeDiode i code).rd (RG_TEMP_CODE i) = code ∧ (d.takeDiode i code).rd (RG_TEMP_VALID i) = 1 ∧
      (d.takeDiode i code).rd (RG_TEMP_FAIL i) = d.rd (RG_TEMP_FAIL i) := by
  rw [Device.takeDiode_eq, Device.rd_withThermal, Device.rd_withThermal, Device.rd_withThermal]
  refine ⟨?_, ?_, ?_⟩
  · rw [Device.rd_wr_bits _ _ (.inl (show 0 + 12 ≤ 31 by decide)), Device.rd_wr_same _ _ (show 0 + 12 ≤ 32 by decide)]
    exact Nat.mod_eq_of_lt h
  · exact Device.rd_wr_same _ _ (show 31 + 1 ≤ 32 by decide)
  · rw [Device.rd_wr_bits _ _ (.inl (show 30 + 1 ≤ 31 by decide)), Device.rd_wr_bits _ _ (.inr (show 0 + 12 ≤ 30 by decide))]

/-- The first diodes read. -/
def Device.sweep (d : Device) (cs : List Nat) (n : Nat) : Device := (List.range n).foldl (fun d i => d.takeDiode i (cs.getD i 0 % 4096)) d

variable (cs : List Nat)

theorem Device.sweep_succ (d : Device) (n : Nat) : d.sweep cs (n + 1) = (d.sweep cs n).takeDiode n (cs.getD n 0 % 4096) := by
  rw [Device.sweep, List.range_succ, List.foldl_append, List.foldl_cons, List.foldl_nil, ← Device.sweep]

/-- The registers of the diodes. -/
def tempRegs : List Nat := (List.range 8).map RG_TEMP

theorem Device.sweep_frame (d : Device) {n : Nat} (h : n ≤ 8) : Device.Frame tempRegs d (d.sweep cs n) := by
  induction n with
  | zero => exact .refl _ d
  | succ n ih =>
    rw [Device.sweep_succ]
    refine (ih (Nat.le_of_succ_le h)).trans (((d.sweep cs n).takeDiode_frame n _).mono fun a ha => ?_)
    rw [List.mem_singleton.1 ha]
    exact List.mem_map.2 ⟨n, List.mem_range.2 h, rfl⟩

theorem RG_TEMP_ne {i j : Nat} (h : i ≠ j) : RG_TEMP i ∉ [RG_TEMP j] := fun hm => by
  have hr := List.mem_singleton.1 hm
  simp only [RG_TEMP] at hr
  omega

theorem Device.sweep_shows (d : Device) {n i : Nat} (hi : i < n) :
    (d.sweep cs n).rd (RG_TEMP_CODE i) = cs.getD i 0 % 4096 ∧ (d.sweep cs n).rd (RG_TEMP_VALID i) = 1 := by
  induction n with
  | zero => exact absurd hi (Nat.not_lt_zero i)
  | succ n ih =>
    rw [Device.sweep_succ]
    rcases Nat.lt_succ_iff_lt_or_eq.1 hi with hlt | rfl
    · have hf := (d.sweep cs n).takeDiode_frame n (cs.getD n 0 % 4096)
      rw [hf.rd (RG_TEMP_CODE i) (RG_TEMP_ne (Nat.ne_of_lt hlt)), hf.rd (RG_TEMP_VALID i) (RG_TEMP_ne (Nat.ne_of_lt hlt))]
      exact ih hlt
    · obtain ⟨hcode, hvalid, -⟩ := (d.sweep cs i).takeDiode_shows i (Nat.mod_lt (cs.getD i 0) (by decide : 4096 > 0))
      exact ⟨hcode, hvalid⟩

theorem Device.rd_sweep_fail (d : Device) (n i : Nat) : (d.sweep cs n).rd (RG_TEMP_FAIL i) = d.rd (RG_TEMP_FAIL i) := by
  induction n with
  | zero => rfl
  | succ n ih =>
    rw [Device.sweep_succ, ← ih]
    by_cases hi : i = n
    · rw [hi]
      exact ((d.sweep cs n).takeDiode_shows n (Nat.mod_lt _ (by decide : 4096 > 0))).2.2
    · exact ((d.sweep cs n).takeDiode_frame n _).rd (RG_TEMP_FAIL i) (RG_TEMP_ne hi)

/-- The hotter of the best so far and one diode, if it has not failed. -/
def Device.hotter (d : Device) (best : Option (Nat × Nat)) (i : Nat) : Option (Nat × Nat) :=
  if d.bit (RG_TEMP_FAIL i) then best
  else match best with
    | none => some (i, d.rd (RG_TEMP_CODE i))
    | some b => if b.2 < d.rd (RG_TEMP_CODE i) then some (i, d.rd (RG_TEMP_CODE i)) else best

theorem Device.hottest_eq (d : Device) : d.hottest = (List.range 8).foldl d.hotter none := rfl

/-- A best reading that a code does not exceed. -/
def Covers (best : Option (Nat × Nat)) (c : Nat) : Prop := ∃ b, best = some b ∧ c ≤ b.2

theorem Device.hotter_covers {best : Option (Nat × Nat)} {c : Nat} (h : Covers best c) (i : Nat) : Covers (d.hotter best i) c := by
  obtain ⟨b, rfl, hc⟩ := h
  unfold Device.hotter
  split
  · exact ⟨b, rfl, hc⟩
  · dsimp only
    split
    case isTrue hlt => exact ⟨_, rfl, hc.trans hlt.le⟩
    case isFalse => exact ⟨b, rfl, hc⟩

theorem Device.hotter_covers_own {best : Option (Nat × Nat)} {i : Nat} (h : d.bit (RG_TEMP_FAIL i) = false) :
    Covers (d.hotter best i) (d.rd (RG_TEMP_CODE i)) := by
  unfold Device.hotter
  rw [if_neg (by simp [h])]
  split
  · exact ⟨_, rfl, Nat.le_refl _⟩
  · split
    case isTrue => exact ⟨_, rfl, Nat.le_refl _⟩
    case isFalse b hb => exact ⟨b, rfl, Nat.le_of_not_lt hb⟩

theorem Device.foldl_hotter_covers {best : Option (Nat × Nat)} {c : Nat} (h : Covers best c) (xs : List Nat) : Covers (xs.foldl d.hotter best) c :=
  List.foldlRecOn (motive := fun b => Covers b c) xs _ h fun _ hb i _ => Device.hotter_covers hb i

theorem Device.hottest_covers {i : Nat} (hi : i < 8) (h : d.bit (RG_TEMP_FAIL i) = false) : Covers d.hottest (d.rd (RG_TEMP_CODE i)) := by
  obtain ⟨xs, ys, hxs⟩ := List.append_of_mem (List.mem_range.2 hi)
  rw [Device.hottest_eq, hxs, List.foldl_append, List.foldl_cons]
  exact Device.foldl_hotter_covers (Device.hotter_covers_own h) ys

theorem Device.hottest_lt {b : Nat × Nat} (h : d.hottest = some b) : b.2 < 4096 := by
  have hall : ∀ b, d.hottest = some b → b.2 < 4096 := by
    rw [Device.hottest_eq]
    refine List.foldlRecOn (motive := fun best : Option (Nat × Nat) => ∀ b, best = some b → b.2 < 4096) _ _ (fun b hb => nomatch hb) fun best hbest i _ b hb => ?_
    have hcode : d.rd (RG_TEMP_CODE i) < 4096 := d.rd_lt (RG_TEMP_CODE i)
    unfold Device.hotter at hb
    split at hb
    · exact hbest b hb
    · split at hb
      · rw [← Option.some.inj hb]
        exact hcode
      · split at hb
        · rw [← Option.some.inj hb]
          exact hcode
        · exact hbest b hb
  exact hall b h

/-- The composite and its source shown. -/
def Device.composite (d : Device) (i c : Nat) : Device := (d.wr RG_THSTAT_TMAX c).wr RG_THSTAT_SRC i

theorem Device.composite_frame (d : Device) (i c : Nat) : Device.Frame [RG_THSTAT] d (d.composite i c) :=
  ((Device.Frame.refl _ d).wr RG_THSTAT_TMAX c (by decide)).wr RG_THSTAT_SRC i (by decide)

theorem Device.rd_composite_tmax (d : Device) (i : Nat) {c : Nat} (h : c < 4096) : (d.composite i c).rd RG_THSTAT_TMAX = c := by
  rw [Device.composite, Device.rd_wr_bits _ _ (by decide), Device.rd_wr_same _ _ (by decide)]
  exact Nat.mod_eq_of_lt h

theorem diodeConversionEff_off (h : d.regOn = false) : diodeConversionEff cs d = d := if_pos (by simp [h])

/-- The composite taken from the readings. -/
def Device.measured (d : Device) : Device :=
  match d.hottest with
  | none => d
  | some (i, c) =>
    { d.composite i c with
      thermal := (d.composite i c).countReading c
      thermRec := { (d.composite i c).thermRec with
        highest := some (max c ((d.composite i c).thermRec.highest.getD c)), lowest := some (min c ((d.composite i c).thermRec.lowest.getD c))
        minuteMax := some (max c ((d.composite i c).thermRec.minuteMax.getD c)) } }

theorem Device.measured_none (h : d.hottest = none) : d.measured = d := by
  rw [Device.measured, h]

theorem Device.measured_some {i c : Nat} (h : d.hottest = some (i, c)) :
    d.measured.regs = (d.composite i c).regs ∧ d.measured.mem = (d.composite i c).mem := by
  rw [Device.measured, h]
  exact ⟨rfl, rfl⟩

theorem diodeConversionEff_on (h : d.regOn = true) : diodeConversionEff cs d = (d.sweep cs 8).measured := by
  unfold diodeConversionEff
  rw [if_neg (by simp [h]), ← Device.sweep]
  generalize d.sweep cs 8 = e
  dsimp only
  unfold Device.measured
  cases e.hottest with
  | none => rfl
  | some b => rfl

/-- A diode marked failed, the range interrupt raised. -/
def Device.diodeFailed (d : Device) (i : Nat) : Device := (d.wr (RG_TEMP_FAIL i) 1).wr RG_INT_RANGE 1

theorem diodeFailEff_early {i : Nat} (h : Sparse.cnt d.thermal.diodeOut i < 3) : diodeFailEff i d = d := if_neg fun hc => absurd hc.2.1 (Nat.not_le.2 h)

theorem RG_TEMP_ne_int {i : Nat} (h : i < 8) : RG_TEMP i ≠ RG_INT ∧ RG_TEMP i ≠ RG_LOGSTAT ∧ CB_SRAMPART ∉ [RG_TEMP i, RG_INT, RG_LOGSTAT] := by
  refine ⟨?_, ?_, ?_⟩
  · simp only [RG_TEMP, RG_INT]
    omega
  · simp only [RG_TEMP, RG_LOGSTAT]
    omega
  · simp only [List.mem_cons, List.not_mem_nil, or_false, not_or, CB_SRAMPART, RG_TEMP, RG_INT, RG_LOGSTAT]
    omega

theorem diodeFailEff_fails {i j : Nat} (hi : i < 8) (hj : j < 8) (hne : j ≠ i) (ho : 3 ≤ Sparse.cnt d.thermal.diodeOut i)
    (hf : d.bit (RG_TEMP_FAIL i) = false) (hg : d.bit (RG_TEMP_FAIL j) = false) :
    ∃ ps, diodeFailEff i d = (d.diodeFailed i).log 9 0x6808 ps := by
  refine ⟨[i, d.rd (RG_TEMP_CODE i)], ?_⟩
  rw [diodeFailEff, if_pos ⟨hi, ho, hf⟩]
  dsimp only
  rw [← Device.diodeFailed]
  refine if_neg ?_
  have hreg : (RG_TEMP_FAIL j).reg ≠ (RG_TEMP_FAIL i).reg := fun hr => RG_TEMP_ne hne (List.mem_singleton.2 hr)
  obtain ⟨hint, hlog, -⟩ := RG_TEMP_ne_int hj
  rw [List.all_eq_true]
  intro hall
  refine absurd (hall j (List.mem_range.2 hj)) ?_
  rw [Device.bit_log _ _ _ _ hlog, Device.diodeFailed, Device.bit_wr_reg _ _ hint, Device.bit_wr_reg _ _ hreg, hg]
  exact Bool.false_ne_true

theorem Device.diodeFailed_frame (d : Device) (i : Nat) : Device.Frame [RG_TEMP i, RG_INT, RG_LOGSTAT] d (d.diodeFailed i) :=
  ((Device.Frame.refl _ d).wr _ _ (by simp [RG_TEMP_FAIL])).wr _ _ (by simp [RG_INT_RANGE])

theorem Device.diodeFailed_shows (d : Device) {i : Nat} (h : i < 8) :
    (d.diodeFailed i).rd (RG_TEMP_FAIL i) = 1 ∧ (d.diodeFailed i).rd RG_INT_RANGE = 1 :=
  ⟨(Device.rd_wr_reg _ _ (RG_TEMP_ne_int h).1).trans (Device.rd_wr_same _ _ (show 30 + 1 ≤ 32 by decide)), Device.rd_wr_same _ _ (by decide)⟩

/-! ### Thermistors -/

section
variable {t : Nat}

/-- A thermistor's mean read, with its degrees. -/
def Device.thermTaken (d : Device) (t code deg : Nat) : Device :=
  ((d.wr (RG_THERM_CODE t) code).wr (RG_THERM_VALID t) 1).wr (RG_THERM_DEGC t) deg

theorem Device.thermTaken_frame (d : Device) (t code deg : Nat) : Device.Frame [RG_THERM t] d (d.thermTaken t code deg) :=
  (((Device.Frame.refl _ d).wr (RG_THERM_CODE t) code (List.mem_singleton.2 rfl)).wr (RG_THERM_VALID t) 1 (List.mem_singleton.2 rfl)).wr (RG_THERM_DEGC t) deg (List.mem_singleton.2 rfl)

theorem Device.thermTaken_shows (d : Device) (t deg : Nat) {code : Nat} (h : code < 4096) :
    (d.thermTaken t code deg).rd (RG_THERM_CODE t) = code ∧ (d.thermTaken t code deg).rd (RG_THERM_VALID t) = 1 ∧
      (d.thermTaken t code deg).rd (RG_THERM_DEGC t) = deg % 256 := by
  rw [Device.thermTaken]
  refine ⟨?_, ?_, Device.rd_wr_same _ _ (show 16 + 8 ≤ 32 by decide)⟩
  · rw [Device.rd_wr_bits _ _ (.inl (show 0 + 12 ≤ 16 by decide)), Device.rd_wr_bits _ _ (.inl (show 0 + 12 ≤ 31 by decide)),
      Device.rd_wr_same _ _ (show 0 + 12 ≤ 32 by decide)]
    exact Nat.mod_eq_of_lt h
  · rw [Device.rd_wr_bits _ _ (.inr (show 16 + 8 ≤ 31 by decide))]
    exact Device.rd_wr_same _ _ (show 31 + 1 ≤ 32 by decide)

theorem thermistorConversionEff_unfit {c : Nat} (h : 2 ≤ t) : thermistorConversionEff t c d = d := if_pos (by simp [h])

theorem thermistorConversionEff_reads {c : Nat} (hon : d.regOn = true) (h : t < 2) :
    ∃ deg x, (d.outOfRange (8 + t) c = true → deg = 0) ∧ thermistorConversionEff t c d = (d.thermTaken t c deg).withThermal x :=
  ⟨_, _, fun hout => if_pos (by simp [hout]), if_neg (by simp [hon, h])⟩

theorem SRAMPART_not_therm (h : t < 2) : CB_SRAMPART ∉ [RG_THERM t, RG_INT, RG_LOGSTAT] := by
  simp only [List.mem_cons, List.not_mem_nil, or_false, not_or, CB_SRAMPART, RG_THERM, RG_INT, RG_LOGSTAT]
  omega

theorem RG_THERM_ne_int (h : t < 2) : RG_THERM t ≠ RG_INT ∧ RG_THERM t ≠ RG_LOGSTAT := by
  simp only [RG_THERM, RG_INT, RG_LOGSTAT]
  omega

theorem SRAMPART_not_only_therm (h : t < 2) : CB_SRAMPART ∉ [RG_THERM t] := fun hm =>
  SRAMPART_not_therm h (List.mem_cons.2 (.inl (List.mem_singleton.1 hm)))

/-- A thermistor marked failed and reported as 0. -/
def Device.thermFailed (d : Device) (t : Nat) : Device := ((d.wr (RG_THERM_FAIL t) 1).wr (RG_THERM_DEGC t) 0).wr RG_INT_RANGE 1

theorem Device.thermFailed_frame (d : Device) (t : Nat) : Device.Frame [RG_THERM t, RG_INT, RG_LOGSTAT] d (d.thermFailed t) :=
  (((Device.Frame.refl _ d).wr _ _ (by simp [RG_THERM_FAIL])).wr _ _ (by simp [RG_THERM_DEGC])).wr _ _ (by simp [RG_INT_RANGE])

theorem Device.thermFailed_shows (d : Device) (h : t < 2) :
    (d.thermFailed t).rd (RG_THERM_FAIL t) = 1 ∧ (d.thermFailed t).rd (RG_THERM_DEGC t) = 0 ∧ (d.thermFailed t).rd RG_INT_RANGE = 1 := by
  obtain ⟨hint, -⟩ := RG_THERM_ne_int h
  refine ⟨?_, ?_, Device.rd_wr_same _ _ (by decide)⟩
  · rw [Device.thermFailed, Device.rd_wr_reg _ _ hint, Device.rd_wr_bits _ _ (.inr (show 16 + 8 ≤ 30 by decide))]
    exact Device.rd_wr_same _ _ (show 30 + 1 ≤ 32 by decide)
  · rw [Device.thermFailed, Device.rd_wr_reg _ _ hint]
    exact (Device.rd_wr_same _ _ (show 16 + 8 ≤ 32 by decide)).trans (Nat.zero_mod _)

theorem thermistorOutEff_early (h : Sparse.cnt d.thermal.thermOut t < 2) : thermistorOutEff t d = d := if_neg fun hc => absurd hc.2.1 (Nat.not_le.2 h)

theorem thermistorOutEff_fails (h : t < 2) (ho : 2 ≤ Sparse.cnt d.thermal.thermOut t) (hf : d.bit (RG_THERM_FAIL t) = false) :
    ∃ ps, thermistorOutEff t d = (d.thermFailed t).log 9 0x6809 ps := ⟨_, if_pos ⟨h, ho, hf⟩⟩

/-- A thermistor's FAIL cleared, its degrees shown again. -/
def Device.thermBack (d : Device) (t deg : Nat) : Device := (d.wr (RG_THERM_FAIL t) 0).wr (RG_THERM_DEGC t) deg

theorem Device.thermBack_frame (d : Device) (t deg : Nat) : Device.Frame [RG_THERM t] d (d.thermBack t deg) :=
  ((Device.Frame.refl _ d).wr (RG_THERM_FAIL t) 0 (List.mem_singleton.2 rfl)).wr (RG_THERM_DEGC t) deg (List.mem_singleton.2 rfl)

theorem Device.rd_thermBack_fail (d : Device) (t deg : Nat) : (d.thermBack t deg).rd (RG_THERM_FAIL t) = 0 := by
  rw [Device.thermBack, Device.rd_wr_bits _ _ (.inr (show 16 + 8 ≤ 30 by decide))]
  exact (Device.rd_wr_same _ _ (show 30 + 1 ≤ 32 by decide)).trans (Nat.zero_mod _)

theorem thermistorBackEff_back (h : t < 2) (hin : 2 ≤ Sparse.cnt d.thermal.thermIn t) (hf : d.bit (RG_THERM_FAIL t) = true) :
    ∃ deg, thermistorBackEff t d = d.thermBack t deg := ⟨_, if_pos ⟨h, hin, hf⟩⟩

theorem thermistorBackEff_good (h : d.bit (RG_THERM_FAIL t) = false) : thermistorBackEff t d = d :=
  if_neg fun hc => absurd (hc.2.2.symm.trans h) (by decide)

end

/-! ### Supplies -/

section
variable {ch c : Nat}

/-- A rail's code and its two range flags. -/
def Device.supTaken (d : Device) (i c : Nat) (low high : Bool) : Device := ((d.wr (RG_SUP_CODE i) c).wrB (RG_SUP_LOW i) low).wrB (RG_SUP_HIGH i) high

theorem Device.supTaken_frame (d : Device) (i c : Nat) (low high : Bool) : Device.Frame [RG_SUP i] d (d.supTaken i c low high) :=
  (((Device.Frame.refl _ d).wr (RG_SUP_CODE i) c (List.mem_singleton.2 rfl)).wrB (RG_SUP_LOW i) low (List.mem_singleton.2 rfl)).wrB (RG_SUP_HIGH i) high (List.mem_singleton.2 rfl)

theorem Device.rd_wrB_one (d : Device) {f : RF} (b : Bool) (h : f.lo + f.n ≤ 32) (h1 : f.n = 1) : (d.wrB f b).rd f = 1 ↔ b = true := by
  rw [Device.wrB, Device.rd_wr_same _ _ h, h1]
  cases b <;> decide

theorem Device.supTaken_shows (d : Device) (i : Nat) (low high : Bool) (h : c < 4096) :
    (d.supTaken i c low high).rd (RG_SUP_CODE i) = c ∧ ((d.supTaken i c low high).rd (RG_SUP_LOW i) = 1 ↔ low = true) ∧
      ((d.supTaken i c low high).rd (RG_SUP_HIGH i) = 1 ↔ high = true) := by
  refine ⟨?_, ?_, Device.rd_wrB_one _ _ (show 30 + 1 ≤ 32 by decide) rfl⟩
  · rw [Device.supTaken, Device.wrB, Device.wrB, Device.rd_wr_bits _ _ (.inl (show 0 + 12 ≤ 30 by decide)),
      Device.rd_wr_bits _ _ (.inl (show 0 + 12 ≤ 31 by decide)), Device.rd_wr_same _ _ (show 0 + 12 ≤ 32 by decide)]
    exact Nat.mod_eq_of_lt h
  · have hhigh : ∀ e : Device, (e.wrB (RG_SUP_HIGH i) high).rd (RG_SUP_LOW i) = e.rd (RG_SUP_LOW i) := fun e =>
      Device.rd_wr_bits _ _ (.inr (show 30 + 1 ≤ 31 by decide))
    rw [Device.supTaken, hhigh]
    exact Device.rd_wrB_one _ _ (show 31 + 1 ≤ 32 by decide) rfl

theorem supplyConversionEff_other (h : ch < 16 ∨ 25 < ch) : supplyConversionEff ch c d = d := by
  refine if_pos ?_
  rcases h with h | h <;> simp [h]

theorem supplyConversionEff_reads (hon : d.regOn = true) (hlo : 16 ≤ ch) (hhi : ch ≤ 25) :
    ∃ x, supplyConversionEff ch c d =
      (d.supTaken (ch - 16) c (decide (c < (d.limits ch).1)) (decide ((d.limits ch).2 < c))).withThermal x :=
  ⟨_, if_neg (by simp [hon]; omega)⟩

theorem supplyFailureEff_early (h : Sparse.cnt d.thermal.supLow ch < 2) : supplyFailureEff ch d = d := if_neg fun hc => absurd hc.1 (Nat.not_le.2 h)

theorem supplyHighEff_early (h : Sparse.cnt d.thermal.supHigh ch < 2) : supplyHighEff ch d = d := if_neg fun hc => absurd hc.1 (Nat.not_le.2 h)

end

/-! ### The device held -/

/-- A retract with the spindle off: beside the lanes, the spindle and the pin change. -/
theorem Device.retract_spinOff_beside (d : Device) (cause : Nat) :
    ∃ sp x y, (d.emergencyRetract cause).spinOff.beside = ({ d with emretCause := some x, emret := y, spin := sp } : Device).beside := by
  refine ⟨(d.emergencyRetract cause).spinOff.spin, ?_⟩
  have hspin := (d.emergencyRetract cause).spinOff_beside
  cases h : d.retracting
  · refine ⟨cause, .low, hspin.trans ?_⟩
    exact congrArg (fun e : Device => { e with spin := (d.emergencyRetract cause).spinOff.spin }) (d.emergencyRetract_beside cause h)
  · obtain ⟨x, hx⟩ := Option.isSome_iff_exists.1 (h : d.emretCause.isSome = true)
    refine ⟨x, d.emret, hspin.trans ?_⟩
    rw [← hx, d.emergencyRetract_again cause h]

/-- What a held device keeps and what it loses. -/
structure Device.HeldFrom (d e : Device) : Prop where
  phase : e.boot.phase = .held
  request : e.power.request = none
  run : e.power.run = none
  pin : e.emretCause ≠ none
  thermal : e.thermal = d.thermal
  thermRec : e.thermRec = d.thermRec

/-- The domains held: BUSY cleared, no request, no transition. -/
def Device.domainsHeld (d : Device) : Device :=
  { d.wr RG_PSTATUS_BUSY 0 with boot := { d.boot with phase := .held }, power := { d.power with request := none, run := none } }

theorem Device.holdDomains_eq (d : Device) : d.holdDomains = (d.emergencyRetract 3).spinOff.domainsHeld := rfl

theorem Device.domainsHeld_shows (d : Device) : d.domainsHeld.boot.phase = .held ∧ d.domainsHeld.power.request = none ∧ d.domainsHeld.power.run = none ∧
    d.domainsHeld.emretCause = d.emretCause ∧ d.domainsHeld.thermal = d.thermal ∧ d.domainsHeld.thermRec = d.thermRec :=
  ⟨rfl, rfl, rfl, rfl, rfl, rfl⟩

theorem Device.holdDomains_heldFrom (d : Device) : d.HeldFrom d.holdDomains := by
  obtain ⟨sp, x, y, hb⟩ := d.retract_spinOff_beside 3
  have hthermal := congrArg Device.thermal hb
  have hrec := congrArg Device.thermRec hb
  have hpin := congrArg Device.emretCause hb
  rw [Device.holdDomains_eq]
  obtain ⟨hphase, hreq, hrun, hcause, hth, hthr⟩ := (d.emergencyRetract 3).spinOff.domainsHeld_shows
  exact ⟨hphase, hreq, hrun, fun h => Option.some_ne_none x (hpin.symm.trans (hcause.symm.trans h)), hth.trans hthermal, hthr.trans hrec⟩

/-- A supply failure recorded. -/
def Device.supplyLost (d : Device) : Device := d.withThermal { d.thermal with supplyFail := true }

theorem supplyFailureEff_kept (h : 2 ≤ Sparse.cnt d.thermal.supLow 16) (hf : d.thermal.supplyFail = false) :
    supplyFailureEff 16 d =
      d.supplyLost.holdDomains.withThermal { d.supplyLost.holdDomains.thermal with supplyKept := some (16, d.rd (RG_SUP_CODE 0)) } :=
  if_pos ⟨h, hf⟩

/-! ### Rails high: the critical warning and its event -/

/-- Only the host's state, and what is sent, differ. -/
def Device.HostOnly (d e : Device) : Prop := ∃ h o, e = { d with host := h, out := o }

theorem Device.HostOnly.refl (d : Device) : d.HostOnly d := ⟨d.host, d.out, rfl⟩

theorem Device.HostOnly.trans {f : Device} (h : d.HostOnly e) (h' : e.HostOnly f) : d.HostOnly f := by
  obtain ⟨x, o, rfl⟩ := h
  obtain ⟨y, p, rfl⟩ := h'
  exact ⟨y, p, rfl⟩

theorem Device.HostOnly.rd (h : d.HostOnly e) (f : RF) : e.rd f = d.rd f := by
  obtain ⟨x, o, rfl⟩ := h
  exact Device.rd_congr rfl f

theorem Device.HostOnly.critical (h : d.HostOnly e) : e.critical = d.critical := by
  obtain ⟨x, o, rfl⟩ := h
  rfl

theorem Device.postCq_hostOnly (d : Device) (c q : Nat) (out : Bool → Output) : d.HostOnly (d.postCq c q out) := by
  unfold Device.postCq
  split
  · exact ⟨_, _, rfl⟩
  · extract_lets
    split
    · exact ⟨_, _, rfl⟩
    · exact ⟨_, _, rfl⟩

theorem Device.post_hostOnly (d : Device) (id : CmdId) (st : Status) (x y : Nat) : d.HostOnly (d.post id st x y) :=
  d.postCq_hostOnly id.ctrl (d.cqOf id.ctrl id.sq) fun p => .completion id (d.cqOf id.ctrl id.sq) p st x y

theorem Device.aenOn_hostOnly (d : Device) (c mask : Nat) (a : Aen) : d.HostOnly (d.aenOn c mask a) := by
  unfold Device.aenOn
  split
  · exact .refl d
  · split
    · exact ⟨_, _, rfl⟩
    · exact Device.HostOnly.trans ⟨_, _, rfl⟩ (Device.post_hostOnly _ _ _ _ _)

theorem Device.postAen_hostOnly (d : Device) (mask : Nat) (a : Aen) : d.HostOnly (d.postAen mask a) :=
  List.foldlRecOn (motive := d.HostOnly) _ _ (.refl d) fun e he c _ => he.trans (e.aenOn_hostOnly c mask a)

/-- A bit of the critical warning set. -/
def Device.critSet (d : Device) (n : Nat) : Device := { d with critical := d.critical ||| n }

theorem supplyHighEff_flags {ch : Nat} (h : 2 ≤ Sparse.cnt d.thermal.supHigh ch) (hc : d.critical.testBit 2 = false) :
    ∃ ps, supplyHighEff ch d = (((d.critSet 4).log 9 0x600C ps).wr RG_INT_SUPHIGH 1).postSmartAen 2 := ⟨_, if_pos ⟨h, hc⟩⟩

theorem supplyHighEff_shows {ch : Nat} (h : 2 ≤ Sparse.cnt d.thermal.supHigh ch) (hc : d.critical.testBit 2 = false) :
    (supplyHighEff ch d).critical = d.critical ||| 4 ∧ (supplyHighEff ch d).rd RG_INT_SUPHIGH = 1 := by
  obtain ⟨ps, hflag⟩ := supplyHighEff_flags h hc
  have hhost := Device.postAen_hostOnly (((d.critSet 4).log 9 0x600C ps).wr RG_INT_SUPHIGH 1) (2 ^ 2) ⟨1, if 2 = 1 then 1 else 0, 2⟩
  rw [hflag, Device.postSmartAen, hhost.critical, hhost.rd, Device.wr_critical, Device.log_critical, Device.rd_wr_same _ _ (by decide)]
  exact ⟨rfl, rfl⟩

/-! ### Shock inputs -/

section
variable {i : Nat}

/-- A shock input off. -/
def Device.shockOff (d : Device) (i : Nat) : Device := if i = 0 then { d with shock1 := false } else { d with shock2 := false }

theorem Device.shockOff_frame (d : Device) (i : Nat) : Device.Frame [RG_SHOCK, RG_INT, RG_LOGSTAT] d (d.shockOff i) :=
  Device.Frame.ite ((Device.Frame.refl _ d).same rfl rfl) ((Device.Frame.refl _ d).same rfl rfl)

theorem Device.shockOff_shows (d : Device) (i : Nat) : if i = 0 then (d.shockOff i).shock1 = false else (d.shockOff i).shock2 = false := by
  unfold Device.shockOff
  split
  · rfl
  · rfl

/-- A shock input masked as stuck. -/
def Device.shockMasked (d : Device) (i : Nat) : Device :=
  ((d.shockOff i).wr RG_SHOCK_STUCK ((d.shockOff i).rd RG_SHOCK_STUCK ||| 2 ^ i)).wr RG_INT_SHOCKSTUCK 1

theorem Device.shockMasked_frame (d : Device) (i : Nat) : Device.Frame [RG_SHOCK, RG_INT, RG_LOGSTAT] d (d.shockMasked i) :=
  ((d.shockOff_frame i).wr RG_SHOCK_STUCK _ (by decide)).wr RG_INT_SHOCKSTUCK 1 (by decide)

theorem Device.shockMasked_shows (d : Device) (h : i < 2) :
    ((d.shockMasked i).rd RG_SHOCK_STUCK).testBit i = true ∧ (d.shockMasked i).rd RG_INT_SHOCKSTUCK = 1 := by
  refine ⟨?_, Device.rd_wr_same _ _ (by decide)⟩
  rw [Device.shockMasked, Device.rd_wr_reg _ _ (by decide), Device.rd_wr_same _ _ (by decide), Nat.testBit_mod_two_pow, Nat.testBit_or, Nat.testBit_two_pow_self,
    Bool.or_true, Bool.and_true]
  exact decide_eq_true h

theorem shockStuckEff_inactive (h : (d.rd RG_SHOCK_IN).testBit i = false) : shockStuckEff i d = d :=
  if_neg fun hc => absurd (hc.2.1.symm.trans h) (by decide)

theorem shockStuckEff_masks (h : i < 2) (hin : (d.rd RG_SHOCK_IN).testBit i = true) (hs : (d.rd RG_SHOCK_STUCK).testBit i = false) :
    shockStuckEff i d = (d.shockMasked i).log 9 0x600E [i] := if_pos ⟨h, hin, hs⟩

theorem shockUnmaskEff_free (h : (d.rd RG_SHOCK_STUCK).testBit i = false) : shockUnmaskEff i d = d :=
  if_neg fun hc => absurd (hc.2.1.symm.trans h) (by decide)

theorem shockUnmaskEff_unmasks (h : i < 2) (hs : (d.rd RG_SHOCK_STUCK).testBit i = true) (hin : (d.rd RG_SHOCK_IN).testBit i = false) :
    shockUnmaskEff i d = d.wr RG_SHOCK_STUCK (d.rd RG_SHOCK_STUCK ^^^ 2 ^ i) := if_pos ⟨h, hs, hin⟩

theorem Device.testBit_unmasked (hs : (d.rd RG_SHOCK_STUCK).testBit i = true) :
    ((d.wr RG_SHOCK_STUCK (d.rd RG_SHOCK_STUCK ^^^ 2 ^ i)).rd RG_SHOCK_STUCK).testBit i = false := by
  rw [Device.rd_wr_same _ _ (by decide), Nat.testBit_mod_two_pow, Nat.testBit_xor, Nat.testBit_two_pow_self, hs]
  exact Bool.and_false _

end

end Sys2Proof.Machine

open Sys2Proof Sys2Proof.Machine

/-- Settles O54: each reading in its register, each failure on its count. -/
theorem sensorsAreReadAndFail : Obligations.SensorsAreReadAndFail := by
  refine ⟨?_, ?_, ?_, ?_, ?_, ?_, ?_, ?_, ?_, ?_, ?_, ?_, ?_, ?_, ?_, ?_, ?_, ?_, ?_, ?_, ?_, ?_⟩
  · intro s cs h
    exact gives_eff (diodeConversionEff cs) rfl (diodeConversionEff_off cs h)
  · intro s cs h
    refine givesThat_eff (diodeConversionEff cs) rfl ?_
    have hsweep := s.dev.sweep_frame cs (Nat.le_refl 8)
    have hshow : ∀ i < 8, _ := fun i hi => s.dev.sweep_shows cs (n := 8) (i := i) hi
    have hfail : ∀ i, (s.dev.sweep cs 8).rd (RG_TEMP_FAIL i) = s.dev.rd (RG_TEMP_FAIL i) := s.dev.rd_sweep_fail cs 8
    have hgood : ∀ i, s.dev.rd (RG_TEMP_FAIL i) = 0 → (s.dev.sweep cs 8).bit (RG_TEMP_FAIL i) = false := fun i hi => by
      rw [Device.bit, hfail, hi]
      rfl
    rw [diodeConversionEff_on cs h]
    rcases hbest : (s.dev.sweep cs 8).hottest with _ | ⟨i, c⟩
    · rw [Device.measured_none hbest]
      refine ⟨fun i hi => ⟨(hshow i hi).1, (hshow i hi).2, hfail i⟩, fun i hi h0 => ?_, (hsweep.untouched (by decide)).2⟩
      obtain ⟨b, hb, -⟩ := Device.hottest_covers hi (hgood i h0)
      exact absurd (hbest.symm.trans hb) (Option.some_ne_none b).symm
    · obtain ⟨hregs, hmem⟩ := Device.measured_some hbest
      have hframe := ((s.dev.sweep cs 8).composite_frame i c).same hregs hmem
      have hkeep : ∀ f : RF, f.reg ≠ RG_THSTAT → (s.dev.sweep cs 8).measured.rd f = (s.dev.sweep cs 8).rd f := fun f hf =>
        hframe.rd f fun hm => hf (List.mem_singleton.1 hm)
      have htemp : ∀ i < 8, RG_TEMP i ≠ RG_THSTAT := fun i hi => by
        simp only [RG_TEMP, RG_THSTAT]
        omega
      refine ⟨fun j hj => ?_, fun j hj h0 => ?_, ?_⟩
      · rw [hkeep (RG_TEMP_CODE j) (htemp j hj), hkeep (RG_TEMP_VALID j) (htemp j hj), hkeep (RG_TEMP_FAIL j) (htemp j hj)]
        exact ⟨(hshow j hj).1, (hshow j hj).2, hfail j⟩
      · obtain ⟨b, hb, hle⟩ := Device.hottest_covers hj (hgood j h0)
        obtain rfl := Option.some.inj (hbest.symm.trans hb)
        rw [Device.rd_congr hregs, Device.rd_composite_tmax _ _ (Device.hottest_lt hbest), ← (hshow j hj).1]
        exact hle
      · intro a
        exact ((hframe.untouched (by decide)).2 a).trans ((hsweep.untouched (by decide)).2 a)
  · intro s i h
    exact gives_eff (diodeFailEff i) rfl (diodeFailEff_early h)
  · intro s i j hi hj hne ho hf hg
    refine givesThat_eff (diodeFailEff i) rfl ?_
    obtain ⟨ps, hfails⟩ := diodeFailEff_fails hi hj hne ho hf hg
    obtain ⟨hfail, hint⟩ := s.dev.diodeFailed_shows hi
    obtain ⟨-, hlog, hpart⟩ := RG_TEMP_ne_int hi
    rw [hfails, Device.rd_log _ _ _ _ hlog, Device.rd_log _ _ _ _ (by decide), Device.log_thermal]
    exact ⟨hfail, hint, rfl, ((s.dev.diodeFailed_frame i).log _ _ _ (by simp)).untouched hpart⟩
  · intro s t c h
    exact gives_eff (thermistorConversionEff t c) rfl (thermistorConversionEff_unfit h)
  · intro s t c hon ht hc
    refine givesThat_eff (thermistorConversionEff t c) rfl ?_
    obtain ⟨deg, x, hdeg, hread⟩ := thermistorConversionEff_reads (c := c) hon ht
    obtain ⟨hcode, hvalid, hdegc⟩ := s.dev.thermTaken_shows t deg hc
    rw [hread, Device.rd_withThermal, Device.rd_withThermal, Device.rd_withThermal, hcode, hvalid, hdegc]
    exact ⟨rfl, rfl, fun hout => by rw [hdeg hout], ((s.dev.thermTaken_frame t c deg).withThermal x).untouched (SRAMPART_not_only_therm ht)⟩
  · intro s t ht ho hf
    refine givesThat_eff (thermistorOutEff t) rfl ?_
    obtain ⟨ps, hfails⟩ := thermistorOutEff_fails ht ho hf
    obtain ⟨hfail, hdeg, hint⟩ := s.dev.thermFailed_shows ht
    obtain ⟨-, hlog⟩ := RG_THERM_ne_int ht
    rw [hfails, Device.rd_log _ _ _ _ hlog, Device.rd_log _ _ _ _ hlog, Device.rd_log _ _ _ _ (by decide)]
    exact ⟨hfail, hdeg, hint, ((s.dev.thermFailed_frame t).log _ _ _ (by simp)).untouched (SRAMPART_not_therm ht)⟩
  · intro s t h
    exact gives_eff (thermistorOutEff t) rfl (thermistorOutEff_early h)
  · intro s t ht hin hf
    refine givesThat_eff (thermistorBackEff t) rfl ?_
    obtain ⟨deg, hback⟩ := thermistorBackEff_back ht hin hf
    rw [hback]
    exact ⟨s.dev.rd_thermBack_fail t deg, (s.dev.thermBack_frame t deg).untouched (SRAMPART_not_only_therm ht)⟩
  · intro s t h
    exact gives_eff (thermistorBackEff t) rfl (thermistorBackEff_good h)
  · intro s ch c h
    exact gives_eff (supplyConversionEff ch c) rfl (supplyConversionEff_other h)
  · intro s ch c hon hlo hhi hc
    refine givesThat_eff (supplyConversionEff ch c) rfl ?_
    obtain ⟨x, hread⟩ := supplyConversionEff_reads (c := c) hon hlo hhi
    obtain ⟨hcode, hlow, hhigh⟩ := s.dev.supTaken_shows (ch - 16) (decide (c < (s.dev.limits ch).1)) (decide ((s.dev.limits ch).2 < c)) hc
    have hpart : CB_SRAMPART ∉ [RG_SUP (ch - 16)] := fun hm => by
      have hr := List.mem_singleton.1 hm
      simp only [CB_SRAMPART, RG_SUP] at hr
      omega
    rw [hread, Device.rd_withThermal, Device.rd_withThermal, Device.rd_withThermal]
    exact ⟨hcode, hlow.trans decide_eq_true_iff, hhigh.trans decide_eq_true_iff, ((s.dev.supTaken_frame _ c _ _).withThermal x).untouched hpart⟩
  · intro s ch h
    exact gives_eff (supplyFailureEff ch) rfl (supplyFailureEff_early h)
  · intro s h hf
    refine givesThat_eff (supplyFailureEff 16) rfl ?_
    have hheld := s.dev.supplyLost.holdDomains_heldFrom
    rw [supplyFailureEff_kept h hf]
    exact ⟨congrArg Thermal.supplyFail hheld.thermal, rfl, hheld.phase, hheld.pin, hheld.request, hheld.run⟩
  · intro s ch h
    exact gives_eff (supplyHighEff ch) rfl (supplyHighEff_early h)
  · intro s ch h hc
    exact givesThat_eff (supplyHighEff ch) rfl (supplyHighEff_shows h hc)
  · intro s i hi hin hs
    refine givesThat_eff (shockStuckEff i) rfl ?_
    obtain ⟨hstuck, hint⟩ := s.dev.shockMasked_shows hi
    rw [shockStuckEff_masks hi hin hs, Device.rd_log _ _ _ _ (by decide), Device.rd_log _ _ _ _ (by decide), Device.log_shock1, Device.log_shock2]
    exact ⟨hstuck, s.dev.shockOff_shows i, hint, ((s.dev.shockMasked_frame i).log _ _ _ (by decide)).untouched (by decide)⟩
  · intro s i h
    exact gives_eff (shockStuckEff i) rfl (shockStuckEff_inactive h)
  · intro s i hi hs hin
    refine givesThat_eff (shockUnmaskEff i) rfl ?_
    rw [shockUnmaskEff_unmasks hi hs hin]
    exact ⟨Device.testBit_unmasked hs, ((Device.Frame.refl _ s.dev).wr RG_SHOCK_STUCK _ (by decide)).untouched (by decide)⟩
  · intro s i h
    exact gives_eff (shockUnmaskEff i) rfl (shockUnmaskEff_free h)
  · intro s
    exact gives_eff (fun d => d.log 9 0x6015) rfl rfl
  · intro s
    refine givesThat_eff (fun d => (d.wr RG_STATUS_AONFAIL 1).log 9 0x600F) rfl ?_
    rw [Device.rd_log _ _ _ _ (by decide), Device.rd_wr_same _ _ (by decide)]
    exact ⟨rfl, (((Device.Frame.refl _ s.dev).wr RG_STATUS_AONFAIL 1 (by decide)).log _ _ _ (by decide)).untouched (by decide)⟩

end

section
/-!
Thermal control (R411 to R417): the record that the end of throttling saves leaves out the present minute.
-/
namespace Sys2Proof.Machine

/-- A device whose throttling is about to end, in a minute whose highest composite is 0. -/
def throttledMinute : Device :=
  { ((({} : Device).wr RG_THSTAT_THR 1).wr RG_THSTAT_STEP 1) with thermal := { thrDown := 4 }, thermRec := { minuteMax := some 0 } }

/-- The record in NOR holds no minute (R417): the present one has not ended. -/
theorem throttleClearEff_saved {d : Device} (h : d.bit RG_THSTAT_THR = true) (hd : 4 ≤ d.thermal.thrDown) :
    (throttleClearEff d).nor.therm.minuteMax = none := by
  rw [throttleClearEff, if_pos ⟨h, hd⟩]
  rfl

/-- The present minute goes on. -/
theorem throttledMinute_goes_on : (throttleClearEff throttledMinute).thermRec.minuteMax = some 0 := by decide

theorem throttledMinute_throttles : throttledMinute.bit RG_THSTAT_THR = true ∧ 0 < throttledMinute.rd RG_THSTAT_STEP ∧
    throttledMinute.rd RG_THCTRL_FORCE ≤ 6 := by decide

end Sys2Proof.Machine

open Sys2Proof Sys2Proof.Machine

/-- Refutes O55: at the end of throttling the saved record is the thermal record without the present minute, whose highest composite is 0 here. -/
theorem not_thermalControlFollowsItsReadings : ¬ Obligations.ThermalControlFollowsItsReadings := by
  rintro ⟨-, -, -, -, -, -, -, -, -, hclear, -⟩
  obtain ⟨hthr, hstep, hforce⟩ := throttledMinute_throttles
  obtain ⟨d', hgives, -, -, -, -, -, hsaved, -⟩ := hclear { State.reset with dev := throttledMinute } hthr (Nat.le_refl 4) hstep hforce
  have hdev : d' = throttleClearEff throttledMinute := by
    injection hgives with h
    exact (congrArg State.dev h).symm
  have hminute := congrArg ThermRec.minuteMax hsaved
  rw [hdev, throttleClearEff_saved hthr (Nat.le_refl 4), throttledMinute_goes_on] at hminute
  exact Option.some_ne_none 0 hminute.symm

end

section
/-!
The calibration scheduler (R420 to R422) and the logbook's way to NOR and to the mirror (R425 to R429).
-/
namespace Sys2Proof.Machine

variable {d e : Device} {l : Lane}

/-! ### Requests -/

theorem SRAMPART_not_cal (l : Lane) : CB_SRAMPART ∉ [RG_CALREQ l.idx, RG_CALGNT l.idx, RG_INT] := by cases l <;> decide

theorem SRAMPART_not_calreq (l : Lane) : CB_SRAMPART ∉ [RG_CALREQ l.idx] := by cases l <;> decide

theorem SRAMPART_not_calgnt (l : Lane) : CB_SRAMPART ∉ [RG_CALGNT l.idx] := by cases l <;> decide

/-- A request's kind, head and duration written. -/
def Device.calAsked (d : Device) (l : Lane) (k h t : Nat) : Device :=
  ((d.wr (RG_CALREQ_KIND l.idx) k).wr (RG_CALREQ_HEAD l.idx) h).wr (RG_CALREQ_DURATION l.idx) t

/-- A request refused. -/
def Device.calRefused (d : Device) (l : Lane) : Device := (d.wr (RG_CALREQ_GO l.idx) 0).wr (RG_CALREQ_ERR l.idx) 1

/-- A request shown as pending. -/
def Device.calPending (d : Device) (l : Lane) : Device :=
  ((d.wr (RG_CALREQ_GO l.idx) 1).wr (RG_CALREQ_ERR l.idx) 0).wr (RG_CALREQ_PEND l.idx) 1

/-- The scheduler's state replaced. -/
def Device.withCal (d : Device) (c : CalSched) : Device := { d with cal := c }

@[simp] theorem Device.rd_withCal (d : Device) (c : CalSched) (f : RF) : (d.withCal c).rd f = d.rd f := Device.rd_congr rfl f

theorem Device.Frame.withCal {rs : List Nat} (h : Device.Frame rs d e) (c : CalSched) : Device.Frame rs d (e.withCal c) := h.same rfl rfl

variable {k h t : Nat}

theorem Device.calAsked_frame (d : Device) (l : Lane) (k h t : Nat) : Device.Frame [RG_CALREQ l.idx] d (d.calAsked l k h t) :=
  (((Device.Frame.refl _ d).wr (RG_CALREQ_KIND l.idx) k (List.mem_singleton.2 rfl)).wr (RG_CALREQ_HEAD l.idx) h (List.mem_singleton.2 rfl)).wr
    (RG_CALREQ_DURATION l.idx) t (List.mem_singleton.2 rfl)

theorem Device.calRefused_frame (d : Device) (l : Lane) : Device.Frame [RG_CALREQ l.idx] d (d.calRefused l) :=
  ((Device.Frame.refl _ d).wr (RG_CALREQ_GO l.idx) 0 (List.mem_singleton.2 rfl)).wr (RG_CALREQ_ERR l.idx) 1 (List.mem_singleton.2 rfl)

theorem Device.calPending_frame (d : Device) (l : Lane) : Device.Frame [RG_CALREQ l.idx] d (d.calPending l) :=
  (((Device.Frame.refl _ d).wr (RG_CALREQ_GO l.idx) 1 (List.mem_singleton.2 rfl)).wr (RG_CALREQ_ERR l.idx) 0 (List.mem_singleton.2 rfl)).wr
    (RG_CALREQ_PEND l.idx) 1 (List.mem_singleton.2 rfl)

theorem Device.rd_calAsked_mode (d : Device) (l : Lane) (k h t : Nat) : (d.calAsked l k h t).rd RG_CALMODE_MODE = d.rd RG_CALMODE_MODE :=
  (d.calAsked_frame l k h t).rd RG_CALMODE_MODE (by cases l <;> decide)

theorem Device.rd_calAsked_pend (d : Device) (l : Lane) (k h t : Nat) :
    (d.calAsked l k h t).rd (RG_CALREQ_PEND l.idx) = d.rd (RG_CALREQ_PEND l.idx) := by
  rw [Device.calAsked, Device.rd_wr_bits _ _ (by cases l <;> decide), Device.rd_wr_bits _ _ (by cases l <;> decide), Device.rd_wr_bits _ _ (by cases l <;> decide)]

theorem Device.rd_calAsked_kind (d : Device) (l : Lane) (h t : Nat) (hk : k < 16) : (d.calAsked l k h t).rd (RG_CALREQ_KIND l.idx) = k := by
  rw [Device.calAsked, Device.rd_wr_bits _ _ (by cases l <;> decide), Device.rd_wr_bits _ _ (by cases l <;> decide), Device.rd_wr_same _ _ (by cases l <;> decide)]
  exact Nat.mod_eq_of_lt hk

theorem Device.calRefused_shows (d : Device) (l : Lane) :
    (d.calRefused l).rd (RG_CALREQ_ERR l.idx) = 1 ∧ (d.calRefused l).rd (RG_CALREQ_PEND l.idx) = d.rd (RG_CALREQ_PEND l.idx) := by
  refine ⟨Device.rd_wr_same _ _ (by cases l <;> decide), ?_⟩
  rw [Device.calRefused, Device.rd_wr_bits _ _ (by cases l <;> decide), Device.rd_wr_bits _ _ (by cases l <;> decide)]

theorem Device.calPending_shows (d : Device) (l : Lane) :
    (d.calPending l).rd (RG_CALREQ_PEND l.idx) = 1 ∧ (d.calPending l).rd (RG_CALREQ_ERR l.idx) = 0 ∧
      (d.calPending l).rd (RG_CALREQ_KIND l.idx) = d.rd (RG_CALREQ_KIND l.idx) := by
  refine ⟨Device.rd_wr_same _ _ (by cases l <;> decide), ?_, ?_⟩
  · rw [Device.calPending, Device.rd_wr_bits _ _ (by cases l <;> decide), Device.rd_wr_same _ _ (by cases l <;> decide)]
    exact Nat.zero_mod _
  · rw [Device.calPending, Device.rd_wr_bits _ _ (by cases l <;> decide), Device.rd_wr_bits _ _ (by cases l <;> decide),
      Device.rd_wr_bits _ _ (by cases l <;> decide)]

/-- A one-bit field that is not 1 is 0. -/
theorem Device.rd_of_bit_false {f : RF} (hf : f.n = 1) (hb : d.bit f = false) : d.rd f = 0 := by
  have hlt := d.rd_lt f
  have hne : d.rd f ≠ 1 := fun h1 => by simp [Device.bit, h1] at hb
  rw [hf] at hlt
  omega

theorem calreqGoEff_pending (hp : d.bit (RG_CALREQ_PEND l.idx) = true) : calreqGoEff l k h t d = d := if_pos hp

theorem calreqGoEff_asks (hp : d.bit (RG_CALREQ_PEND l.idx) = false) :
    calreqGoEff l k h t d =
      if k % 16 = 0 ∨ 8 ≤ k % 16 ∨ t % 64 = 0 ∨ ((d.calAsked l k h t).rd RG_CALMODE_MODE = 0 ∧ 30 < t % 64) then (d.calAsked l k h t).calRefused l
      else ((d.calAsked l k h t).calPending l).withCal { d.cal with
        waiting := d.cal.waiting ++ [{ lane := l, kind := k % 16, head := h % 16, duration := t % 64, since := d.chron.chr, logged := false }] } :=
  if_neg (by simp [hp])

theorem calreqGoEff_refuses (hp : d.bit (RG_CALREQ_PEND l.idx) = false) (hk : k < 16) (ht : t < 64)
    (hbad : k = 0 ∨ 8 ≤ k ∨ t = 0 ∨ (d.rd RG_CALMODE_MODE = 0 ∧ 30 < t)) : calreqGoEff l k h t d = (d.calAsked l k h t).calRefused l := by
  rw [calreqGoEff_asks hp, Device.rd_calAsked_mode, Nat.mod_eq_of_lt hk, Nat.mod_eq_of_lt ht]
  exact if_pos hbad

theorem calreqGoEff_waits (hp : d.bit (RG_CALREQ_PEND l.idx) = false) (hk0 : 0 < k) (hk : k < 8) (hh : h < 16) (ht0 : 0 < t) (ht : t ≤ 30) :
    calreqGoEff l k h t d = ((d.calAsked l k h t).calPending l).withCal { d.cal with
      waiting := d.cal.waiting ++ [{ lane := l, kind := k, head := h, duration := t, since := d.chron.chr, logged := false }] } := by
  rw [calreqGoEff_asks hp, Nat.mod_eq_of_lt (show k < 16 by omega), Nat.mod_eq_of_lt (show t < 64 by omega), Nat.mod_eq_of_lt hh]
  exact if_neg (by omega)

/-! ### Grants -/

theorem calGrantEff_none (hn : d.cal.waiting.find? d.calOk = none) : calGrantEff d = d := by rw [calGrantEff, hn]

/-- A lane's request granted: what is written. -/
def Device.grantShown (d : Device) (l : Lane) (ms : Nat) : Device :=
  ((((d.wr (RG_CALREQ_GO l.idx) 0).wr (RG_CALREQ_PEND l.idx) 0).wr (RG_CALGNT_ACTIVE l.idx) 1).wr (RG_CALGNT_MS l.idx) ms).wr RG_INT_CALGNT 1

/-- A request out of the queue, its time kept. -/
def Device.calTaken (d : Device) (r : CalReq) : Device :=
  d.withCal { d.cal with
    waiting := d.cal.waiting.filter (·.lane != r.lane)
    lastGrant := Sparse.setCnt d.cal.lastGrant (16 * r.lane.idx + r.head) (d.chron.chr + 1) }

theorem calGrantEff_grants {r : CalReq} (hr : d.cal.waiting.find? d.calOk = some r) :
    calGrantEff d = ((d.calTaken r).setGrant r.lane (some (r.kind, r.head, d.chron.chr))).grantShown r.lane r.duration := by
  rw [calGrantEff, hr]
  rfl

theorem Device.grantShown_frame (d : Device) (l : Lane) (ms : Nat) : Device.Frame [RG_CALREQ l.idx, RG_CALGNT l.idx, RG_INT] d (d.grantShown l ms) :=
  (((((Device.Frame.refl _ d).wr (RG_CALREQ_GO l.idx) 0 (by simp [RG_CALREQ_GO])).wr (RG_CALREQ_PEND l.idx) 0 (by simp [RG_CALREQ_PEND])).wr
    (RG_CALGNT_ACTIVE l.idx) 1 (by simp [RG_CALGNT_ACTIVE])).wr (RG_CALGNT_MS l.idx) ms (by simp [RG_CALGNT_MS])).wr RG_INT_CALGNT 1 (by simp [RG_INT_CALGNT])

theorem Device.grantShown_shows (d : Device) (l : Lane) {ms : Nat} (hms : ms < 64) :
    (d.grantShown l ms).rd (RG_CALGNT_ACTIVE l.idx) = 1 ∧ (d.grantShown l ms).rd (RG_CALGNT_MS l.idx) = ms ∧
      (d.grantShown l ms).rd (RG_CALREQ_PEND l.idx) = 0 ∧ (d.grantShown l ms).rd RG_INT_CALGNT = 1 := by
  refine ⟨?_, ?_, ?_, Device.rd_wr_same _ _ (by decide)⟩
  · rw [Device.grantShown, Device.rd_wr_reg _ _ (by cases l <;> decide), Device.rd_wr_bits _ _ (by cases l <;> decide),
      Device.rd_wr_same _ _ (by cases l <;> decide)]
    rfl
  · rw [Device.grantShown, Device.rd_wr_reg _ _ (by cases l <;> decide), Device.rd_wr_same _ _ (by cases l <;> decide)]
    exact Nat.mod_eq_of_lt hms
  · rw [Device.grantShown, Device.rd_wr_reg _ _ (by cases l <;> decide), Device.rd_wr_reg (f := RG_CALGNT_MS l.idx) _ _ (by cases l <;> decide),
      Device.rd_wr_reg (f := RG_CALGNT_ACTIVE l.idx) _ _ (by cases l <;> decide), Device.rd_wr_same _ _ (by cases l <;> decide)]
    exact Nat.zero_mod _

theorem Device.setGrant_frame (d : Device) (l : Lane) (g : Option (Nat × Nat × Nat)) (rs : List Nat) : Device.Frame rs d (d.setGrant l g) := by
  cases l
  · exact (Device.Frame.refl rs d).same rfl rfl
  · exact (Device.Frame.refl rs d).same rfl rfl

theorem Device.calGrantOf_setGrant (d : Device) (l : Lane) (g : Option (Nat × Nat × Nat)) : (d.setGrant l g).calGrantOf l = g := by
  cases l <;> rfl

theorem Device.calGrantOf_setGrant_other (d : Device) (l : Lane) (g : Option (Nat × Nat × Nat)) :
    (d.setGrant l g).calGrantOf l.other = d.calGrantOf l.other := by
  cases l <;> rfl

theorem Device.setGrant_waiting (d : Device) (l : Lane) (g : Option (Nat × Nat × Nat)) : (d.setGrant l g).cal.waiting = d.cal.waiting := by
  cases l <;> rfl

theorem Device.calGrantOf_congr (hc : e.cal = d.cal) (m : Lane) : e.calGrantOf m = d.calGrantOf m := by
  cases m
  · exact congrArg CalSched.grant0 hc
  · exact congrArg CalSched.grant1 hc

/-- A grant's registers at rest. -/
def Device.grantOver (d : Device) (l : Lane) : Device := (d.wr (RG_CALGNT_ACTIVE l.idx) 0).wr (RG_CALGNT_MS l.idx) 0

theorem calDoneEff_none (hn : d.calGrantOf l = none) : calDoneEff l d = d := if_neg (by simp [hn])

theorem calDoneEff_ends (hn : d.calGrantOf l ≠ none) : calDoneEff l d = (d.setGrant l none).grantOver l := if_pos (Option.isSome_iff_ne_none.2 hn)

theorem Device.grantOver_frame (d : Device) (l : Lane) : Device.Frame [RG_CALGNT l.idx] d (d.grantOver l) :=
  ((Device.Frame.refl _ d).wr (RG_CALGNT_ACTIVE l.idx) 0 (List.mem_singleton.2 rfl)).wr (RG_CALGNT_MS l.idx) 0 (List.mem_singleton.2 rfl)

theorem Device.rd_grantOver_active (d : Device) (l : Lane) : (d.grantOver l).rd (RG_CALGNT_ACTIVE l.idx) = 0 := by
  rw [Device.grantOver, Device.rd_wr_bits _ _ (by cases l <;> decide), Device.rd_wr_same _ _ (by cases l <;> decide)]
  exact Nat.zero_mod _

theorem calExpireEff_none (hn : d.calGrantOf l = none) : calExpireEff l d = d := by rw [calExpireEff, hn]

theorem calExpireEff_early {a b c : Nat} (hg : d.calGrantOf l = some (a, b, c)) (ht : d.chron.chr < c + 1000 * d.rd (RG_CALGNT_MS l.idx)) :
    calExpireEff l d = d := by
  rw [calExpireEff, hg]
  exact if_pos ht

/-- With no operation running on the lane, nothing is aborted. -/
theorem Device.seqAbort_idle (hi : ∀ q ∈ laneSeqs l, (d.ec q).op = none) : d.seqAbort l = d := by
  have hstep : ∀ e : Device, ∀ q, (e.ec q).op = none → (if (e.ec q).op.isSome then (e.wr (EC_CTRL_ABORT q) 1).stopCause q 0 else e) = e :=
    fun e q hq => if_neg (by simp [hq])
  obtain ⟨hA, hB⟩ : (d.ec ⟨l, false⟩).op = none ∧ (d.ec ⟨l, true⟩).op = none := ⟨hi _ (by simp [laneSeqs]), hi _ (by simp [laneSeqs])⟩
  rw [Device.seqAbort, laneSeqs, List.foldl_cons, List.foldl_cons, List.foldl_nil, hstep d _ hA, hstep d _ hB]

/-- The grant ended and its interrupt raised, before the bar of service mode. -/
def Device.grantExpired (d : Device) (l : Lane) (ps : List Nat) : Device :=
  ((((d.wr (RG_CALGNT_ACTIVE l.idx) 0).setGrant l none).wr RG_INT_CALEXP 1).log 9 0x6010 ps).wr (RG_CALGNT_MS l.idx) 0

theorem Device.grantExpired_shows (d : Device) (l : Lane) (ps : List Nat) :
    (d.grantExpired l ps).calGrantOf l = none ∧ (d.grantExpired l ps).rd (RG_CALGNT_ACTIVE l.idx) = 0 ∧ (d.grantExpired l ps).rd RG_INT_CALEXP = 1 := by
  refine ⟨?_, ?_, ?_⟩
  · have hcal : (d.grantExpired l ps).cal = ((d.wr (RG_CALGNT_ACTIVE l.idx) 0).setGrant l none).cal := by
      rw [Device.grantExpired, Device.wr_cal, Device.log_cal, Device.wr_cal]
    rw [Device.calGrantOf_congr hcal, Device.calGrantOf_setGrant]
  · rw [Device.grantExpired, Device.rd_wr_bits _ _ (by cases l <;> decide), Device.rd_log _ _ _ _ (by cases l <;> decide),
      Device.rd_wr_reg _ _ (by cases l <;> decide), (Device.setGrant_frame _ l none []).rd _ List.not_mem_nil, Device.rd_wr_same _ _ (by cases l <;> decide)]
    exact Nat.zero_mod _
  · rw [Device.grantExpired, Device.rd_wr_reg _ _ (by cases l <;> decide), Device.rd_log _ _ _ _ (by decide), Device.rd_wr_same _ _ (by decide)]
    rfl

theorem Device.calCut_idle (hg : d.calGrantOf l ≠ none) (hi : ∀ q ∈ laneSeqs l, (d.ec q).op = none) :
    d.calCut l = (d.wr (RG_CALGNT_ACTIVE l.idx) 0).setGrant l none := by
  obtain ⟨g, hg⟩ := Option.ne_none_iff_exists'.1 hg
  cases l
  · rw [Device.calGrantOf] at hg
    rw [Device.calCut]
    dsimp only
    rw [hg, Device.seqAbort_idle hi]
    rfl
  · rw [Device.calGrantOf] at hg
    rw [Device.calCut]
    dsimp only
    rw [hg, Device.seqAbort_idle hi]
    rfl

/-- An expired grant ends; the bar that service mode sets is the scheduler's alone. -/
theorem calExpireEff_ends {a b c : Nat} (hg : d.calGrantOf l = some (a, b, c)) (ht : c + 1000 * d.rd (RG_CALGNT_MS l.idx) ≤ d.chron.chr)
    (hi : ∀ q ∈ laneSeqs l, (d.ec q).op = none) :
    (calExpireEff l d).calGrantOf l = none ∧ (calExpireEff l d).rd (RG_CALGNT_ACTIVE l.idx) = 0 ∧ (calExpireEff l d).rd RG_INT_CALEXP = 1 := by
  have hcut := Device.calCut_idle (by simp [hg]) hi
  obtain ⟨hgrant, hactive, hint⟩ := d.grantExpired_shows l [l.idx, a, b]
  rw [calExpireEff, hg]
  dsimp only
  rw [if_neg (Nat.not_lt.2 ht), hcut, ← Device.grantExpired]
  generalize d.grantExpired l [l.idx, a, b] = e at hgrant hactive hint ⊢
  split
  · cases l
    · exact ⟨hgrant, hactive, hint⟩
    · exact ⟨hgrant, hactive, hint⟩
  · exact ⟨hgrant, hactive, hint⟩

theorem calOverdueEff_none (hn : ∀ r ∈ d.cal.waiting, r.lane ≠ l ∨ r.logged = true) : calOverdueEff l d = d := by
  have hfind : (d.cal.waiting.find? fun r => decide (r.lane = l) && !r.logged) = none := List.find?_eq_none.2 fun r hr => by
    rcases hn r hr with hl | hl <;> simp [hl]
  rw [calOverdueEff, hfind]

theorem calOverdueEff_logs {r : CalReq} (hw : d.cal.waiting = [r]) (hl : r.lane = l) (hg : r.logged = false) (hk : r.kind = 3)
    (ht : r.since + 2 * 250 * 3600000000 ≤ d.chron.chr) :
    ∃ ps, calOverdueEff l d = (d.withCal { d.cal with waiting := [{ r with logged := true }] }).log 9 0x6011 ps := by
  have hfind : ([r].find? fun r => decide (r.lane = l) && !r.logged) = some r := List.find?_cons_of_pos (by simp [hl, hg])
  have hmap : ([r].map fun x => if x = r then { x with logged := true } else x) = [{ r with logged := true }] := by
    rw [List.map_cons, List.map_nil, if_pos rfl]
  have htwice : calTwice r.kind = some (2 * 250 * 3600000000) := by rw [hk]; rfl
  refine ⟨[l.idx, r.kind, r.head], ?_⟩
  rw [calOverdueEff, hw, hfind]
  dsimp only
  rw [htwice]
  dsimp only
  rw [if_neg (Nat.not_lt.2 ht), hmap]
  rfl

/-! ### The logbook -/

section
variable {n c : Nat} {ps : List Nat}

theorem logPostEff_plain (hc : rateLimitedCodes.contains c = false) : logPostEff n c ps d = d.log n c ps :=
  if_neg (by rw [hc]; exact Bool.false_ne_true)

/-- An entry behind the others. -/
theorem Device.log_enters (hp : d.boot.phase ≠ .recovery) (hf : d.logbook.fifo.length < 256) :
    d.log n c ps = { d with
      nor := { d.nor with logSeq := d.nor.logSeq + 1 }
      logbook := { d.logbook with fifo := d.logbook.fifo ++ [d.logEntry n c (severityOf c) 0 ps], lost := 0, gap := false } } :=
  (if_neg hp).trans (if_neg (by simp [Device.logFull, hf]))

theorem logPostEff_limited {x : Nat} (hc : rateLimitedCodes.contains c = true) (hl : Sparse.cnt d.logbook.last (rateKey c x) ≠ 0)
    (ht : d.chron.chr + 1 < Sparse.cnt d.logbook.last (rateKey c x) + 60000000) :
    logPostEff n c (x :: ps) d = { d with logbook := { d.logbook with
      suppressed := Sparse.setCnt d.logbook.suppressed (rateKey c x) (Sparse.cnt d.logbook.suppressed (rateKey c x) + 1) } } :=
  (if_pos hc).trans (if_pos ⟨hl, ht⟩)

theorem logbookProgramEff_idle {a b : Bool} (h : d.programDue = false ∨ d.logbook.fifo = []) : logbookProgramEff a b d = d := by
  refine if_pos ?_
  rcases h with h | h <;> simp [h]

/-- The queue empty, no program due. -/
def Device.fifoDone (d : Device) : Device := { d with logbook := { d.logbook with fifo := [], due := false } }

theorem logbookProgramEff_programs {b : Bool} {x : LogEntry} (hd : d.programDue = true) (hf : d.logbook.fifo = [x]) (hl : d.logbook.lost = 0) :
    logbookProgramEff false b d = (d.programEntry x).fifoDone := by
  have hlost : (d.programEntry x).fifoDone.logbook.lost = 0 := hl
  have hall : d.programAll = (d.programEntry x).fifoDone := by
    rw [Device.programAll, hf]
    exact if_pos hlost
  rw [logbookProgramEff, if_neg (by simp [hd, hf]), if_pos (by simp), hall]

theorem Device.programEntry_nor {x : LogEntry} (hk : d.nor.logNext % 1024 ≠ 0) :
    (d.programEntry x).nor = { d.nor with log := Sparse.ins d.nor.log d.nor.logNext x, logNext := (d.nor.logNext + 1) % 65536 } := by
  rw [Device.programEntry]
  dsimp only
  rw [if_neg hk]

theorem Device.programEntry_frame (d : Device) (x : LogEntry) : Device.Frame [] d (d.programEntry x).fifoDone := (Device.Frame.refl [] d).same rfl rfl

/-- Two slots passed over, the trigger gone. -/
def Device.twiceSkipped (d : Device) : Device := { d.skipSlot.skipSlot with logbook := { d.skipSlot.skipSlot.logbook with due := false } }

theorem logbookProgramEff_fails (hd : d.programDue = true) (hf : d.logbook.fifo ≠ []) :
    ∃ ps, logbookProgramEff true true d = d.twiceSkipped.log 9 0x6012 ps := ⟨_, if_neg (by simp [hd, hf])⟩

/-- An entry changes the ring's sequence number alone. -/
theorem Device.log_ring (d : Device) (n c : Nat) (ps : List Nat) :
    (d.log n c ps).nor.logNext = d.nor.logNext ∧ (d.log n c ps).nor.log = d.nor.log ∧ (d.log n c ps).logbook.due = d.logbook.due := by
  unfold Device.log Device.logRaw
  split
  · exact ⟨rfl, rfl, rfl⟩
  · split
    · exact ⟨rfl, rfl, rfl⟩
    · exact ⟨rfl, rfl, rfl⟩

theorem logbookMirrorEff_idle (h : d.logbook.toMirror = [] ∨ d.spinTurning = false) : logbookMirrorEff d = d := by
  unfold logbookMirrorEff
  split
  · rfl
  case h_2 b bs hm => exact if_pos (by simp [h.resolve_left (by simp [hm])])

/-- A block of the ring. -/
def Device.ringBlock (d : Device) (b : Nat) : List LogEntry := (d.nor.log.filter fun p => p.1 / 1024 == b).map fun p => p.2

theorem logbookMirrorEff_copies {b : Nat} {bs : List Nat} (hm : d.logbook.toMirror = b :: bs) (ht : d.spinTurning = true)
    (hl : d.mirror.length + d.nor.log.length ≤ 1048576) :
    logbookMirrorEff d = { d with mirror := d.mirror ++ d.ringBlock b, logbook := { d.logbook with toMirror := bs } } := by
  have hlen : (d.mirror ++ d.ringBlock b).length - 1048576 = 0 := by
    have hfilter := List.length_filter_le (fun p : Nat × LogEntry => p.1 / 1024 == b) d.nor.log
    rw [List.length_append, Device.ringBlock, List.length_map]
    omega
  have hdrop : (d.mirror ++ d.ringBlock b).drop ((d.mirror ++ d.ringBlock b).length - 1048576) = d.mirror ++ d.ringBlock b := by
    rw [hlen, List.drop_zero]
  rw [logbookMirrorEff, hm]
  dsimp only
  rw [if_neg (by simp [ht]), ← Device.ringBlock, hdrop]

end

end Sys2Proof.Machine

open Sys2Proof Sys2Proof.Machine

/-- Settles O56: a request by its checks, a grant by its registers, the logbook by its queue, its ring and its mirror. -/
theorem calibrationIsScheduledAndTheLogbookWritten : Obligations.CalibrationIsScheduledAndTheLogbookWritten := by
  refine ⟨?_, ?_, ?_, ?_, ?_, ?_, ?_, ?_, ?_, ?_, ?_, ?_, ?_, ?_, ?_, ?_, ?_, ?_, ?_, ?_, ?_⟩
  · intro s l k h t hp
    exact gives_eff (calreqGoEff l k h t) rfl (calreqGoEff_pending hp)
  · intro s l k h t hp hk ht hbad
    refine givesThat_eff (calreqGoEff l k h t) rfl ?_
    obtain ⟨herr, hpend⟩ := (s.dev.calAsked l k h t).calRefused_shows l
    rw [calreqGoEff_refuses hp hk ht hbad, herr, hpend, Device.rd_calAsked_pend, Device.rd_of_bit_false rfl hp]
    exact ⟨rfl, rfl, rfl, ((s.dev.calAsked_frame l k h t).trans ((s.dev.calAsked l k h t).calRefused_frame l)).untouched (SRAMPART_not_calreq l)⟩
  · intro s l k h t hp hk0 hk hh ht0 ht
    refine givesThat_eff (calreqGoEff l k h t) rfl ?_
    obtain ⟨hpend, herr, hkind⟩ := (s.dev.calAsked l k h t).calPending_shows l
    rw [calreqGoEff_waits hp hk0 hk hh ht0 ht, Device.rd_withCal, Device.rd_withCal, Device.rd_withCal, hpend, herr, hkind,
      Device.rd_calAsked_kind _ _ _ _ (hk.trans (by decide))]
    refine ⟨rfl, rfl, rfl, rfl, ?_⟩
    exact (((s.dev.calAsked_frame l k h t).trans ((s.dev.calAsked l k h t).calPending_frame l)).withCal _).untouched (SRAMPART_not_calreq l)
  · intro s hn
    exact gives_eff calGrantEff rfl (calGrantEff_none hn)
  · intro s r hr hms
    refine givesThat_eff calGrantEff rfl ?_
    have hcal : ∀ e : Device, (e.grantShown r.lane r.duration).cal = e.cal := fun e => rfl
    obtain ⟨hactive, hdur, hpend, hint⟩ :=
      ((s.dev.calTaken r).setGrant r.lane (some (r.kind, r.head, s.dev.chron.chr))).grantShown_shows r.lane hms
    rw [calGrantEff_grants hr, Device.calGrantOf_congr (hcal _), Device.calGrantOf_setGrant, hactive, hdur, hpend, hint, hcal, Device.setGrant_waiting]
    refine ⟨rfl, rfl, rfl, rfl, rfl, fun x hx => by simpa using (List.mem_filter.1 hx).2, ?_⟩
    exact ((((Device.Frame.refl _ s.dev).withCal _).trans (Device.setGrant_frame _ _ _ _)).trans (Device.grantShown_frame _ _ _)).untouched
      (SRAMPART_not_cal r.lane)
  · intro s l hn
    exact ⟨gives_eff (calDoneEff l) rfl (calDoneEff_none hn), gives_eff (calExpireEff l) rfl (calExpireEff_none hn)⟩
  · intro s l hn
    refine givesThat_eff (calDoneEff l) rfl ?_
    have hcal : ∀ e : Device, (e.grantOver l).cal = e.cal := fun e => rfl
    rw [calDoneEff_ends hn, Device.calGrantOf_congr (hcal _), Device.calGrantOf_setGrant, Device.calGrantOf_congr (hcal _), Device.calGrantOf_setGrant_other,
      Device.rd_grantOver_active]
    exact ⟨rfl, rfl, rfl, ((s.dev.setGrant_frame l none _).trans ((s.dev.setGrant l none).grantOver_frame l)).untouched (SRAMPART_not_calgnt l)⟩
  · intro s l k h t hg ht
    exact gives_eff (calExpireEff l) rfl (calExpireEff_early hg ht)
  · intro s l k h t hg ht hi
    exact givesThat_eff (calExpireEff l) rfl (calExpireEff_ends hg ht hi)
  · intro s l hn
    exact gives_eff (calOverdueEff l) rfl (calOverdueEff_none hn)
  · intro s l r hw hl hg hk ht
    refine givesThat_eff (calOverdueEff l) rfl ?_
    obtain ⟨ps, hlog⟩ := calOverdueEff_logs hw hl hg hk ht
    rw [hlog, Device.log_cal]
    exact ⟨rfl, (((Device.Frame.refl [RG_LOGSTAT] s.dev).withCal _).log _ _ _ (by decide)).untouched (by decide)⟩
  · intro s n c ps hc
    exact gives_eff (logPostEff n c ps) rfl (logPostEff_plain hc)
  · intro s n c ps hc hp hf
    refine givesThat_eff (logPostEff n c ps) rfl ?_
    rw [logPostEff_plain hc, Device.log_enters hp hf]
    exact ⟨⟨s.dev.logEntry n c (severityOf c) 0 ps, rfl, rfl, rfl, rfl, rfl⟩, rfl, ((Device.Frame.refl [] s.dev).same rfl rfl).untouched (by decide)⟩
  · intro s n c x ps hc hl ht
    refine givesThat_eff (logPostEff n c (x :: ps)) rfl ?_
    rw [logPostEff_limited hc hl ht]
    exact ⟨rfl, Sparse.cnt_setCnt_same s.dev.logbook.suppressed (rateKey c x) (Sparse.cnt s.dev.logbook.suppressed (rateKey c x) + 1), ((Device.Frame.refl [] s.dev).same rfl rfl).untouched (by decide)⟩
  · intro s a b h
    exact gives_eff (logbookProgramEff a b) rfl (logbookProgramEff_idle h)
  · intro s b x hd hf hl hk
    refine givesThat_eff (logbookProgramEff false b) rfl ?_
    have hnor : (s.dev.programEntry x).fifoDone.nor = (s.dev.programEntry x).nor := rfl
    rw [logbookProgramEff_programs hd hf hl, hnor, Device.programEntry_nor hk]
    exact ⟨Sparse.find_ins_same _ _ _, rfl, rfl, rfl, (s.dev.programEntry_frame x).untouched (by decide)⟩
  · intro s hd hf
    refine givesThat_eff (logbookProgramEff true true) rfl ?_
    obtain ⟨ps, hlog⟩ := logbookProgramEff_fails hd hf
    obtain ⟨hnext, hring, hdue⟩ := s.dev.twiceSkipped.log_ring 9 0x6012 ps
    rw [hlog, hnext, hring, hdue]
    exact ⟨rfl, rfl, rfl, (((Device.Frame.refl [RG_LOGSTAT] s.dev).same (f := s.dev.twiceSkipped) rfl rfl).log _ _ _ (by decide)).untouched (by decide)⟩
  · intro s h
    exact gives_eff logbookFlushEff rfl (if_pos (by simp [h]))
  · intro s h
    exact gives_eff logbookFlushEff rfl (if_neg (by simp [h]))
  · intro s h
    exact gives_eff logbookMirrorEff rfl (logbookMirrorEff_idle h)
  · intro s b bs hm ht hl
    refine givesThat_eff logbookMirrorEff rfl ?_
    rw [logbookMirrorEff_copies hm ht hl]
    exact ⟨rfl, rfl, rfl, ((Device.Frame.refl [] s.dev).same rfl rfl).untouched (by decide)⟩

end

section
/-!
The crown port (R445 to R449): what a response sends, what an acknowledgement and a repetition do, and what a frame in its place draws.
-/
namespace Sys2Proof.Machine

variable {d e : Device}

/-! ### Frames out -/

/-- The device with frames sent: those in line, those unacknowledged, the next number, and what has gone out. -/
def Device.sent (d : Device) (q : List Machine.Frame) (u : List (Machine.Frame × Nat)) (t : Nat) (o : List Output) : Device :=
  { d with crown := { d.crown with queued := q, unacked := u, txNext := t }, out := o }

theorem Device.Frame.sent {rs : List Nat} (h : Device.Frame rs d e) (q : List Machine.Frame) (u : List (Machine.Frame × Nat)) (t : Nat)
    (o : List Output) : Device.Frame rs d (e.sent q u t o) := h.same rfl rfl

theorem Device.sent_sent (d : Device) (q q' : List Machine.Frame) (u u' : List (Machine.Frame × Nat)) (t t' : Nat) (o o' : List Output) :
    (d.sent q u t o).sent q' u' t' o' = d.sent q' u' t' o' := rfl

theorem Device.pumpCrown_idle (n : Nat) (h : d.crown.queued = []) : Device.pumpCrown n d = d := by
  cases n with
  | zero => rfl
  | succ n => rw [Device.pumpCrown, h]

theorem Device.pumpCrown_sends (n : Nat) {f : Machine.Frame} {q : List Machine.Frame} (h : d.crown.queued = f :: q) (hl : d.crown.unacked.length < 4) :
    Device.pumpCrown (n + 1) d = Device.pumpCrown n (d.sent q (d.crown.unacked ++ [({ f with seq := d.crown.txNext }, 0)]) ((d.crown.txNext + 1) % 256)
      (d.out ++ [.frame { f with seq := d.crown.txNext }])) := by
  rw [Device.pumpCrown, h]
  exact if_neg (Nat.not_le.2 hl)

theorem Device.pumpCrown_sent (n : Nat) (d : Device) : ∃ q u t o, Device.pumpCrown n d = d.sent q u t o := by
  induction n generalizing d with
  | zero => exact ⟨d.crown.queued, d.crown.unacked, d.crown.txNext, d.out, rfl⟩
  | succ n ih =>
    rw [Device.pumpCrown]
    split
    · exact ⟨d.crown.queued, d.crown.unacked, d.crown.txNext, d.out, rfl⟩
    · split
      · exact ⟨d.crown.queued, d.crown.unacked, d.crown.txNext, d.out, rfl⟩
      case isFalse f rest _ _ =>
        obtain ⟨q, u, t, o, hgo⟩ := ih (d.sent rest (d.crown.unacked ++ [({ f with seq := d.crown.txNext }, 0)]) ((d.crown.txNext + 1) % 256)
          (d.out ++ [.frame { f with seq := d.crown.txNext }]))
        exact ⟨q, u, t, o, hgo⟩

variable (code st : Nat) (ps : List Nat)

/-- A response changes nothing beside what is sent. -/
theorem Device.respond_sent (d : Device) : ∃ q u t o, d.respond code st ps = d.sent q u t o := by
  obtain ⟨q, u, t, o, h⟩ := Device.pumpCrown_sent 4 { d with crown := { d.crown with
    queued := d.crown.queued ++ [{ kind := 2, seq := 0, code := code, payload := st :: ps }] } }
  exact ⟨q, u, t, o, h⟩

/-- With none in line and a place free, a response goes out at once. -/
theorem Device.respond_eq (hq : d.crown.queued = []) (hl : d.crown.unacked.length < 4) :
    d.respond code st ps = d.sent [] (d.crown.unacked ++ [(d.answerFrame code (st :: ps), 0)]) ((d.crown.txNext + 1) % 256)
      (d.out ++ [.frame (d.answerFrame code (st :: ps))]) := by
  have hline : ({ d with crown := { d.crown with queued := d.crown.queued ++ [{ kind := 2, seq := 0, code := code, payload := st :: ps }] } } : Device).crown.queued
      = [{ kind := 2, seq := 0, code := code, payload := st :: ps }] := by rw [hq]; rfl
  rw [Device.respond, Device.sendFrame, Device.pumpCrown_sends 3 hline hl]
  exact Device.pumpCrown_idle 3 rfl

/-- Two devices that would send the same next frame. -/
structure Device.SameSend (d e : Device) : Prop where
  tx : e.crown.txNext = d.crown.txNext
  unacked : e.crown.unacked = d.crown.unacked
  queued : e.crown.queued = d.crown.queued
  out : e.out = d.out

theorem Device.SameSend.refl (d : Device) : d.SameSend d := ⟨rfl, rfl, rfl, rfl⟩

theorem Device.SameSend.of_eq (hc : e.crown = d.crown) (ho : e.out = d.out) : d.SameSend e := ⟨by rw [hc], by rw [hc], by rw [hc], ho⟩

theorem answered_respond (hm : d.mayAnswer) (h : d.SameSend e) : Answered code (st :: ps) d (e.respond code st ps) := by
  obtain ⟨-, hq, hl⟩ := hm
  rw [Device.respond_eq code st ps (h.queued.trans hq) (by rw [h.unacked]; exact hl)]
  have hframe : e.answerFrame code (st :: ps) = d.answerFrame code (st :: ps) := by rw [Device.answerFrame, Device.answerFrame, h.tx]
  rw [hframe, h.unacked, h.tx, h.out]
  exact ⟨rfl, rfl, rfl, rfl⟩

/-- Nothing but the crown port's own state, and what is sent, differs. -/
structure Device.CrownOnly (d e : Device) : Prop where
  nor : e.nor = d.nor
  boot : e.boot = d.boot
  otp : e.otp = d.otp
  frame : Device.Frame [] d e

theorem Device.CrownOnly.respond (h : d.CrownOnly e) : d.CrownOnly (e.respond code st ps) := by
  obtain ⟨q, u, t, o, hs⟩ := e.respond_sent code st ps
  rw [hs]
  exact ⟨h.nor, h.boot, h.otp, h.frame.sent q u t o⟩

theorem Device.CrownOnly.refl (d : Device) : d.CrownOnly d := ⟨rfl, rfl, rfl, .refl _ d⟩

/-- The crown port's state replaced. -/
def Device.withCrown (d : Device) (c : Crown) : Device := { d with crown := c }

theorem Device.Frame.withCrown {rs : List Nat} (h : Device.Frame rs d e) (c : Crown) : Device.Frame rs d (e.withCrown c) := h.same rfl rfl

theorem Device.CrownOnly.withCrown (h : d.CrownOnly e) (c : Crown) : d.CrownOnly (e.withCrown c) := ⟨h.nor, h.boot, h.otp, h.frame.withCrown c⟩

theorem onlyAnswered_respond (hm : d.mayAnswer) (h : d.SameSend e) (hc : d.CrownOnly e) : OnlyAnswered code (st :: ps) d (e.respond code st ps) :=
  have hr := hc.respond code st ps
  ⟨answered_respond code st ps hm h, hr.nor, hr.boot, hr.otp, hr.frame.untouched (by decide)⟩

theorem onlyAnswered_self (hm : d.mayAnswer) : OnlyAnswered code (st :: ps) d (d.respond code st ps) :=
  onlyAnswered_respond code st ps hm (.refl d) (.refl d)

theorem Device.respond_crown (d : Device) : (d.respond code st ps).crown.newRate = d.crown.newRate ∧
    (d.respond code st ps).crown.rateIdx = d.crown.rateIdx ∧ (d.respond code st ps).crown.resetOn = d.crown.resetOn := by
  obtain ⟨q, u, t, o, hs⟩ := d.respond_sent code st ps
  rw [hs]
  exact ⟨rfl, rfl, rfl⟩

theorem Device.respond_chron (d : Device) : (d.respond code st ps).chron = d.chron := by
  obtain ⟨q, u, t, o, hs⟩ := d.respond_sent code st ps
  rw [hs]
  rfl

theorem Device.Frame.respond {rs : List Nat} (h : Device.Frame rs d e) : Device.Frame rs d (e.respond code st ps) := by
  obtain ⟨q, u, t, o, hs⟩ := e.respond_sent code st ps
  rw [hs]
  exact h.sent q u t o

theorem Device.servedNR_on (h : d.mayAnswer) (f : Device) : d.servedNR f = f := if_pos h.1

theorem Device.servedNR_off (h : d.crownOn = false) (f : Device) : d.servedNR f = d := if_neg (by simp [h])

theorem Device.servedN_off (h : d.crownOn = false) (f : Device) : d.servedN code f = d := if_pos (by simp [h])

theorem Device.servedN_released (h : d.mayAnswer) (hr : d.boot.phase = .released) (f : Device) : d.servedN code f = f :=
  (if_neg (by simp [h.1])).trans (if_pos (by simp [Device.released, hr]))

theorem Device.servedN_recovery (h : d.mayAnswer) (hr : d.boot.phase = .recovery) (f : Device) : d.servedN code f = d.respond code 3 :=
  (if_neg (by simp [h.1])).trans (if_neg (by simp [Device.released, hr]))

/-! ### Acknowledgement and repetition -/

section
variable {f : Machine.Frame} {n : Nat} {sp : Straps}

/-- Every frame acknowledged. -/
def Device.allAcked (d : Device) : Device := d.withCrown { d.crown with unacked := [] }

/-- What the acknowledgement of the only frame brings about. -/
theorem Device.takeAck_only (hu : d.crown.unacked = [(f, n)]) :
    d.takeAck f.seq sp =
      let rate := d.crown.newRate.filter fun r => f.seq == r.1
      let e := match rate with
        | none => d.allAcked
        | some (_, i) => (d.allAcked.withCrown { d.allAcked.crown with rateIdx := i, newRate := none, unproven := true }).log 9 0x7012 [crownRates.getD i 0]
      if d.crown.resetOn.any (fun s => f.seq == s) then e.deviceReset 6 sp else Device.pumpCrown 4 e := by
  have hany : d.crown.unacked.any (·.1.seq == f.seq) = true := by simp [hu]
  have hkept : (d.crown.unacked.dropWhile (·.1.seq != f.seq)).drop 1 = [] := by simp [hu]
  have hgone : ∀ s, (d.crown.unacked.any (·.1.seq == s) && !([] : List (Machine.Frame × Nat)).any (·.1.seq == s)) = (f.seq == s) := fun s => by simp [hu]
  rw [Device.takeAck, if_neg (by simp [hany]), hkept]
  dsimp only
  simp only [hgone]
  rfl

theorem Device.takeAck_plain (hu : d.crown.unacked = [(f, n)]) (hq : d.crown.queued = []) (hr : d.crown.newRate = none)
    (hs : d.crown.resetOn ≠ some f.seq) : d.takeAck f.seq sp = d.allAcked := by
  have hreset : d.crown.resetOn.any (fun s => f.seq == s) = false := by
    cases hx : d.crown.resetOn with
    | none => rfl
    | some x => exact beq_false_of_ne fun hfx => hs (hfx ▸ hx)
  rw [Device.takeAck_only hu, hr, hreset]
  exact Device.pumpCrown_idle 4 hq

/-- A new rate in force, not yet proven. -/
def Device.rateTaken (d : Device) (i : Nat) : Device := d.withCrown { d.crown with rateIdx := i, newRate := none, unproven := true }

theorem Device.takeAck_rate {i : Nat} (hu : d.crown.unacked = [(f, n)]) (hq : d.crown.queued = []) (hr : d.crown.newRate = some (f.seq, i))
    (hs : d.crown.resetOn = none) : d.takeAck f.seq sp = (d.allAcked.rateTaken i).log 9 0x7012 [crownRates.getD i 0] := by
  have hrate : d.crown.newRate.filter (fun r => f.seq == r.1) = some (f.seq, i) := by simp [hr]
  rw [Device.takeAck_only hu, hrate, hs]
  refine Device.pumpCrown_idle 4 ?_
  rw [Device.log_crown]
  exact hq

theorem Device.takeAck_reset (hu : d.crown.unacked = [(f, n)]) (hr : d.crown.newRate = none) (hs : d.crown.resetOn = some f.seq) :
    d.takeAck f.seq sp = d.allAcked.deviceReset 6 sp := by
  have hreset : d.crown.resetOn.any (fun s => f.seq == s) = true := by simp [hs]
  rw [Device.takeAck_only hu, hr, hreset]
  rfl

/-- A frame counted as repeated once more. -/
def Device.repeated (d : Device) (f : Machine.Frame) (n : Nat) : Device := d.withCrown { d.crown with unacked := [(f, n + 1)] }

theorem Device.retransmit_again (hu : d.crown.unacked = [(f, n)]) (hn : n < 8) : d.retransmit f.seq = (d.repeated f n).emit (.frame f) := by
  have hdrop : d.crown.unacked.dropWhile (·.1.seq != f.seq) = [(f, n)] := by simp [hu]
  have htake : d.crown.unacked.takeWhile (·.1.seq != f.seq) = [] := by simp [hu]
  rw [Device.retransmit, hdrop, htake]
  exact (if_neg (by simp)).trans (if_neg (by simp [hn]))

theorem Device.retransmit_drops (hu : d.crown.unacked = [(f, n)]) (hn : 8 ≤ n) : d.retransmit f.seq = d.dropSession := by
  have hdrop : d.crown.unacked.dropWhile (·.1.seq != f.seq) = [(f, n)] := by simp [hu]
  rw [Device.retransmit, hdrop]
  exact (if_neg (by simp)).trans (if_pos (by simp [hn]))

theorem Device.dropSession_shows (d : Device) : d.dropSession.out = d.out ∧ d.dropSession.crown.unacked = [] ∧ d.dropSession.crown.queued = [] ∧
    d.dropSession.crown.session = false ∧ d.dropSession.crown.awaitHello = true := by
  have hb := Device.logRate_beside (d.withCrown { d.crown with
    unacked := [], queued := [], session := false, awaitHello := true, newRate := none, resetOn := none }) 9 0x7013 0 []
  have hcrown := congrArg Device.crown hb
  have hout := congrArg Device.out hb
  exact ⟨hout, congrArg Crown.unacked hcrown, congrArg Crown.queued hcrown, congrArg Crown.session hcrown, congrArg Crown.awaitHello hcrown⟩

theorem Device.dropSession_frame (d : Device) : Device.Frame [RG_LOGSTAT] d d.dropSession :=
  ((Device.Frame.refl _ d).withCrown { d.crown with
    unacked := [], queued := [], session := false, awaitHello := true, newRate := none, resetOn := none }).logRate 9 0x7013 0 [] (by decide)

theorem Device.validFrame_frame (d : Device) (rs : List Nat) : Device.Frame rs d d.validFrame := (Device.Frame.refl rs d).same rfl rfl

theorem crownRetransmitEff_none (h : d.crown.unacked = []) : crownRetransmitEff d = d := by rw [crownRetransmitEff, h]

theorem crownRetransmitEff_first (hu : d.crown.unacked = [(f, n)]) : crownRetransmitEff d = d.retransmit f.seq := by rw [crownRetransmitEff, hu]

theorem baudRevertEff_proven (h : d.crown.unproven = false) : baudRevertEff d = d := if_neg (by simp [h])

theorem baudRevertEff_reverts (h : d.crown.unproven = true) :
    baudRevertEff d = (d.withCrown { d.crown with rateIdx := 0, unproven := false }).log 9 0x7012 [115200] := if_pos h

theorem crownWakeEff_quiet (h : d.eventWaits = false ∨ d.chron.chr < d.crown.lastFrame + 10000000) : crownWakeEff d = d := by
  refine if_neg ?_
  rcases h with h | h <;> simp [h]

theorem crownWakeEff_wakes (h : d.eventWaits = true) (hc : d.crown.lastFrame + 10000000 ≤ d.chron.chr) :
    crownWakeEff d = { d with crown := { d.crown with wake := true } } := if_pos (by simp [h, hc])

end

/-! ### Frames in -/

section
variable {bs : List Nat} {f : Machine.Frame}

theorem crownFrameEff_off {x : Bool} (h : d.crownOn = false) : crownFrameEff bs x d = d := if_pos (by simp [h])

theorem crownFrameEff_bad (h : d.crownOn = true) (ha : d.crown.awaitHello = false) : crownFrameEff bs false d = d.sendBare 4 d.crown.rxNext :=
  (if_neg (by simp [h])).trans (if_neg (by simp [ha]))

/-- HELLO taken: the numbering restarts. -/
def Device.helloTaken (d : Device) (seq : Nat) : Device :=
  d.withCrown { d.crown with rxNext := (seq + 1) % 256, txNext := 0, unacked := [], queued := [], session := true, awaitHello := false }

/-- A frame in order taken. -/
def Device.inOrder (d : Device) (seq : Nat) : Device := d.withCrown { d.crown with rxNext := (seq + 1) % 256 }

theorem crownFrameEff_hello (h : d.crownOn = true) (hp : parseFrame bs = some f) (hk : f.kind = 1) (hc : f.code = 1) :
    crownFrameEff bs true d = (d.validFrame.helloTaken f.seq).sendBare 3 f.seq := by
  rw [crownFrameEff, if_neg (by simp [h]), if_pos rfl, hp]
  exact (if_neg (by simp [hk])).trans ((if_neg (by simp [hk])).trans (if_pos ⟨hk, hc⟩))

theorem crownFrameEff_command (h : d.crownOn = true) (hp : parseFrame bs = some f) (hk : f.kind = 1) (hc : f.code ≠ 1) (ha : d.crown.awaitHello = false) :
    crownFrameEff bs true d =
      if f.seq = d.crown.rxNext then
        if f.kind = 1 ∧ !solindCodes.contains f.code then ((d.validFrame.inOrder f.seq).sendBare 3 f.seq).respond f.code 2
        else (d.validFrame.inOrder f.seq).sendBare 3 f.seq
      else if (d.crown.rxNext + 256 - f.seq) % 256 ≤ 4 then d.validFrame.sendBare 3 ((d.crown.rxNext + 255) % 256)
      else d.validFrame.sendBare 4 d.crown.rxNext := by
  have hawait : d.validFrame.crown.awaitHello = false := ha
  rw [crownFrameEff, if_neg (by simp [h]), if_pos rfl, hp]
  exact (if_neg (by simp [hk])).trans ((if_neg (by simp [hk])).trans ((if_neg (fun hx => hc hx.2)).trans (if_neg (by simp [hawait]))))

theorem crownFrameEff_known (h : d.crownOn = true) (hp : parseFrame bs = some f) (hk : f.kind = 1) (hc : f.code ≠ 1) (ha : d.crown.awaitHello = false)
    (hs : f.seq = d.crown.rxNext) (hin : solindCodes.contains f.code = true) :
    crownFrameEff bs true d = (d.validFrame.inOrder f.seq).sendBare 3 f.seq := by
  rw [crownFrameEff_command h hp hk hc ha, if_pos hs]
  exact if_neg (by rw [hin]; simp)

theorem crownFrameEff_unknown (h : d.crownOn = true) (hp : parseFrame bs = some f) (hk : f.kind = 1) (hc : f.code ≠ 1) (ha : d.crown.awaitHello = false)
    (hs : f.seq = d.crown.rxNext) (hin : solindCodes.contains f.code = false) :
    crownFrameEff bs true d = ((d.validFrame.inOrder f.seq).sendBare 3 f.seq).respond f.code 2 := by
  rw [crownFrameEff_command h hp hk hc ha, if_pos hs]
  exact if_pos ⟨hk, by rw [hin]; rfl⟩

theorem Device.sendBare_frame (d : Device) (k s : Nat) : Device.Frame [] d (d.sendBare k s) := (Device.Frame.refl [] d).same rfl rfl

end

/-! ### Commands -/

/-- HELLO's restart of the numbering. -/
def Device.renumbered (d : Device) : Device :=
  d.withCrown { d.crown with txNext := 0, unacked := [], queued := [], session := true, awaitHello := false }

theorem crownRates_find {i : Nat} (h : i < 4) : crownRates.findIdx? (· == crownRates.getD i 0) = some i := by
  interval_cases i <;> decide

theorem crownRates_not_find {r : Nat} (h : r ∉ crownRates) : crownRates.findIdx? (· == r) = none := by
  rw [List.findIdx?_eq_none_iff]
  intro x hx
  exact beq_false_of_ne (ne_of_mem_of_not_mem hx h)

theorem Device.nextSeq_idle (hq : d.crown.queued = []) (ht : d.crown.txNext < 256) : d.nextSeq = d.crown.txNext := by
  rw [Device.nextSeq, hq, List.length_nil, Nat.add_zero, Nat.mod_eq_of_lt ht]

theorem Device.setAnchor_crown (d : Device) (ms : Nat) : (d.setAnchor ms).crown = d.crown := by
  rw [Device.setAnchor, Device.log_crown]

theorem Device.setAnchor_out (d : Device) (ms : Nat) : (d.setAnchor ms).out = d.out := by
  rw [Device.setAnchor, Device.log_out]

theorem Device.setAnchor_chron (d : Device) (ms : Nat) : (d.setAnchor ms).chron = { d.chron with anchor := some (ms, d.chron.chr) } := by
  rw [Device.setAnchor, Device.log_chron]

theorem Device.setAnchor_frame (d : Device) (ms : Nat) : Device.Frame [RG_LOGSTAT] d (d.setAnchor ms) :=
  ((Device.Frame.refl _ d).same (f := { d with chron := { d.chron with anchor := some (ms, d.chron.chr) } }) rfl rfl).log _ _ _ (by decide)

theorem Device.hostMs_anchored {ms : Nat} (h : d.chron.anchor = some (ms, d.chron.chr)) : d.hostMs = ms := by
  rw [Device.hostMs, h]
  simp

theorem Device.mode_of_crownOn (h : d.crownOn = true) : (if d.released then 0 else 1) = if d.boot.phase = .recovery then 1 else 0 := by
  unfold Device.crownOn at h
  unfold Device.released
  split at h
  case h_1 hp => rw [hp]; rfl
  case h_2 hp => rw [hp]; rfl
  case h_3 => exact absurd h Bool.false_ne_true

end Sys2Proof.Machine

open Sys2Proof Sys2Proof.Machine

/-- Settles O57: frames by their place in the numbering, the only unacknowledged frame acknowledged or repeated, and commands by their response. -/
theorem solindFramesAndCommands : Obligations.SolindFramesAndCommands := by
  refine ⟨?_, ?_, ?_, ?_, ?_, ?_, ?_, ?_, ?_, ?_, ?_, ?_, ?_, ?_, ?_, ?_, ?_, ?_, ?_, ?_, ?_, ?_, ?_, ?_, ?_, ?_, ?_⟩
  · intro s bs x n st h
    exact ⟨gives_eff (crownFrameEff bs x) rfl (crownFrameEff_off h),
      gives_eff (fun d => if d.crownOn then d.validFrame.takeAck n st else d) rfl (if_neg (by simp [h])),
      gives_eff (fun d => if d.crownOn then d.validFrame.retransmit n else d) rfl (if_neg (by simp [h])),
      gives_eff crownInterbyteEff rfl (if_pos (by simp [h]))⟩
  · intro s bs h ha
    exact ⟨gives_eff (crownFrameEff bs false) rfl (crownFrameEff_bad h ha), gives_eff crownInterbyteEff rfl (if_neg (by simp [h, ha]))⟩
  · intro s bs f h hp hk hc
    refine givesThat_eff (crownFrameEff bs true) rfl ?_
    rw [crownFrameEff_hello h hp hk hc]
    exact ⟨rfl, rfl, rfl, rfl, rfl, rfl, (((s.dev.validFrame_frame []).withCrown _).trans (Device.sendBare_frame _ _ _)).untouched (by decide)⟩
  · intro s bs f h hp hk hc ha hs hin
    refine givesThat_eff (crownFrameEff bs true) rfl ?_
    rw [crownFrameEff_known h hp hk hc ha hs hin]
    exact ⟨rfl, rfl, rfl, rfl, rfl, (((s.dev.validFrame_frame []).withCrown _).trans (Device.sendBare_frame _ _ _)).untouched (by decide)⟩
  · intro s bs f hm hp hk hc ha hs hin
    refine givesThat_eff (crownFrameEff bs true) rfl ?_
    have hbare : Device.Frame [] s.dev ((s.dev.validFrame.inOrder f.seq).sendBare 3 f.seq) :=
      ((s.dev.validFrame_frame []).withCrown _).trans (Device.sendBare_frame _ _ _)
    rw [crownFrameEff_unknown hm.1 hp hk hc ha hs hin]
    refine ⟨?_, (hbare.respond f.code 2 []).untouched (by decide)⟩
    rw [Device.respond_eq (d := (s.dev.validFrame.inOrder f.seq).sendBare 3 f.seq) f.code 2 [] hm.2.1 hm.2.2]
    exact List.append_assoc s.dev.out _ _
  · intro s bs f h hp hk hc ha hs
    refine givesThat_eff (crownFrameEff bs true) rfl ?_
    rw [crownFrameEff_command h hp hk hc ha, if_neg hs]
    split
    · exact ⟨rfl, rfl, rfl, ((s.dev.validFrame_frame []).trans (Device.sendBare_frame _ _ _)).untouched (by decide)⟩
    · exact ⟨rfl, rfl, rfl, ((s.dev.validFrame_frame []).trans (Device.sendBare_frame _ _ _)).untouched (by decide)⟩
  · intro s f n st h hu hq hr hs
    refine givesThat_eff (fun d => if d.crownOn then d.validFrame.takeAck f.seq st else d) rfl ?_
    rw [if_pos h, Device.takeAck_plain (d := s.dev.validFrame) hu hq hr hs]
    exact ⟨rfl, rfl, rfl, ((s.dev.validFrame_frame []).withCrown _).untouched (by decide)⟩
  · intro s f n i st h hu hq hr hs
    refine givesThat_eff (fun d => if d.crownOn then d.validFrame.takeAck f.seq st else d) rfl ?_
    rw [if_pos h, Device.takeAck_rate (d := s.dev.validFrame) hu hq hr hs, Device.log_crown]
    exact ⟨rfl, rfl, rfl, rfl, ((((s.dev.validFrame_frame [RG_LOGSTAT]).withCrown _).withCrown _).log _ _ _ (by decide)).untouched (by decide)⟩
  · intro s f n st h hu hr hs hheld
    refine givesThat_eff (fun d => if d.crownOn then d.validFrame.takeAck f.seq st else d) rfl ?_
    have hcause : s.dev.validFrame.allAcked.aon.heldCause = none := hheld
    rw [if_pos h, Device.takeAck_reset (d := s.dev.validFrame) hu hr hs, Device.deviceReset_cause, hcause]
    exact ⟨rfl, rfl, rfl, rfl, rfl⟩
  · intro s f n h hu hn
    refine givesThat_eff (fun d => if d.crownOn then d.validFrame.retransmit f.seq else d) rfl ?_
    rw [if_pos h, Device.retransmit_again (d := s.dev.validFrame) hu hn]
    exact ⟨rfl, rfl, rfl, (((s.dev.validFrame_frame []).withCrown _).emit _).untouched (by decide)⟩
  · intro s f n h hu hn
    refine givesThat_eff (fun d => if d.crownOn then d.validFrame.retransmit f.seq else d) rfl ?_
    obtain ⟨hout, hunacked, hqueued, hsession, hawait⟩ := s.dev.validFrame.dropSession_shows
    rw [if_pos h, Device.retransmit_drops (d := s.dev.validFrame) hu hn]
    exact ⟨hout, hunacked, hqueued, hsession, hawait, ((s.dev.validFrame_frame _).trans s.dev.validFrame.dropSession_frame).untouched (by decide)⟩
  · intro s h
    exact gives_eff crownRetransmitEff rfl (crownRetransmitEff_none h)
  · intro s f n hu
    refine givesThat_eff crownRetransmitEff rfl ?_
    rw [crownRetransmitEff_first hu]
    rcases Nat.lt_or_ge n 8 with hn | hn
    · rw [Device.retransmit_again hu hn]
      exact ⟨fun _ => ⟨rfl, rfl⟩, fun h => absurd h (Nat.not_le.2 hn), (((Device.Frame.refl [RG_LOGSTAT] s.dev).withCrown _).emit _).untouched (by decide)⟩
    · obtain ⟨hout, hunacked, -, -, hawait⟩ := s.dev.dropSession_shows
      rw [Device.retransmit_drops hu hn]
      exact ⟨fun h => absurd h (Nat.not_lt.2 hn), fun _ => ⟨hout, hunacked, hawait⟩, s.dev.dropSession_frame.untouched (by decide)⟩
  · intro s h
    exact gives_eff baudRevertEff rfl (baudRevertEff_proven h)
  · intro s h
    refine givesThat_eff baudRevertEff rfl ?_
    rw [baudRevertEff_reverts h, Device.log_crown, Device.log_out]
    exact ⟨rfl, rfl, (((Device.Frame.refl [RG_LOGSTAT] s.dev).withCrown _).log _ _ _ (by decide)).untouched (by decide)⟩
  · intro s h
    exact gives_eff crownWakeEff rfl (crownWakeEff_quiet h)
  · intro s h hc
    exact gives_eff crownWakeEff rfl (crownWakeEff_wakes h hc)
  · intro s a b c x v m h
    exact ⟨gives_eff solindHelloEff rfl (Device.servedNR_off h _), gives_eff (solindSetBaudEff a) rfl (Device.servedNR_off h _),
      gives_eff (fun d => d.servedN 0x0003 ((d.setAnchor (a % 2 ^ 64)).respond 0x0003 0)) rfl (Device.servedN_off _ h _),
      gives_eff (fun d => d.servedNR (d.respond 0x0010 0 d.bootWords)) rfl (Device.servedNR_off h _),
      gives_eff (solindLogReadEff a b) rfl (Device.servedNR_off h _),
      gives_eff (fun d => d.servedNR (Device.respond { d with crown := { d.crown with resetOn := some d.nextSeq } } 0x00F0 0)) rfl (Device.servedNR_off h _),
      gives_eff (updBeginEff a b) rfl (Device.servedNR_off h _), gives_eff (updChunkEff a b x) rfl (Device.servedNR_off h _),
      gives_eff updVerifyEff rfl (Device.servedNR_off h _), gives_eff updCommitEff rfl (Device.servedNR_off h _),
      gives_eff (updScheduleEff a b) rfl (Device.servedN_off _ h _), gives_eff updCancelEff rfl (Device.servedNR_off h _),
      gives_eff updStatusEff rfl (Device.servedNR_off h _), gives_eff (calChunkEff a b c) rfl (Device.servedNR_off h _),
      gives_eff (calCommitEff a v x) rfl (Device.servedNR_off h _), gives_eff (calReadEff a b c) rfl (Device.servedNR_off h _),
      gives_eff (keyRevokeEff m a x) rfl (Device.servedN_off _ h _), gives_eff (storeRecoverEff a) rfl (Device.servedN_off _ h _)⟩
  · intro s h
    refine givesThat_eff solindHelloEff rfl ?_
    have hmode := Device.mode_of_crownOn h
    have hserved : ∀ f, s.dev.servedNR f = f := fun f => if_pos h
    rw [solindHelloEff, hserved, ← Device.withCrown, ← Device.renumbered, hmode, Device.respond_eq (d := s.dev.renumbered) _ _ _ rfl (show 0 < 4 by decide)]
    exact ⟨rfl, rfl, rfl, rfl, rfl, ((((Device.Frame.refl [] s.dev).withCrown _).sent _ _ _ _)).untouched (by decide)⟩
  · intro s r hm hr
    refine givesThat_eff (solindSetBaudEff r) rfl ?_
    rw [solindSetBaudEff, s.dev.servedNR_on hm, crownRates_not_find hr]
    exact onlyAnswered_self 2 4 [] hm
  · intro s i hm hi ht
    refine givesThat_eff (solindSetBaudEff (crownRates.getD i 0)) rfl ?_
    rw [solindSetBaudEff, s.dev.servedNR_on hm, crownRates_find hi]
    dsimp only
    rw [← Device.withCrown, Device.nextSeq_idle hm.2.1 ht]
    obtain ⟨hrate, hidx, -⟩ := (s.dev.withCrown { s.dev.crown with newRate := some (s.dev.crown.txNext, i) }).respond_crown 2 0 []
    exact ⟨onlyAnswered_respond 2 0 [] hm ⟨rfl, rfl, rfl, rfl⟩ ((Device.CrownOnly.refl s.dev).withCrown _), hrate, hidx⟩
  · intro s ms hm hr
    refine givesThat_eff (fun d => d.servedN 0x0003 ((d.setAnchor (ms % 2 ^ 64)).respond 0x0003 0)) rfl ?_
    rw [Device.servedN_recovery _ hm hr]
    exact onlyAnswered_self 3 3 [] hm
  · intro s ms hm hr hms
    refine givesThat_eff (fun d => d.servedN 0x0003 ((d.setAnchor (ms % 2 ^ 64)).respond 0x0003 0)) rfl ?_
    have hchron : ((s.dev.setAnchor ms).respond 3 0 []).chron = { s.dev.chron with anchor := some (ms, s.dev.chron.chr) } :=
      (Device.respond_chron 3 0 [] _).trans (s.dev.setAnchor_chron ms)
    rw [Device.servedN_released _ hm hr, Nat.mod_eq_of_lt hms]
    exact ⟨answered_respond 3 0 [] hm (.of_eq (s.dev.setAnchor_crown ms) (s.dev.setAnchor_out ms)), hchron, Device.hostMs_anchored (by rw [hchron]),
      ((s.dev.setAnchor_frame ms).respond 3 0 []).untouched (by decide)⟩
  · intro s hm
    refine givesThat_eff (fun d => d.servedNR (d.respond 0x0010 0 d.bootWords)) rfl ?_
    have hwords : 0 :: s.dev.bootWords = [0] ++ bytesOf 4 (s.dev.word RG_BOOTSTAT).toNat ++ bytesOf 4 (s.dev.word RG_RSTCAUSE).toNat ++
        bytesOf 4 (s.dev.word RG_UPDSTAT).toNat ++ bytesOf 4 (s.dev.word CB_STATUS).toNat := by simp [Device.bootWords]
    rw [s.dev.servedNR_on hm, ← hwords]
    exact onlyAnswered_self 0x10 0 _ hm
  · intro s a n hm hn
    refine givesThat_eff (solindLogReadEff a n) rfl ?_
    rw [solindLogReadEff, s.dev.servedNR_on hm, if_pos hn]
    exact onlyAnswered_self 0x11 4 [] hm
  · intro s a n hm hn0 hn
    refine givesThat_eff (solindLogReadEff a n) rfl ?_
    rw [solindLogReadEff, s.dev.servedNR_on hm, if_neg (by omega)]
    exact onlyAnswered_self 0x11 0 _ hm
  · intro s hm ht
    refine givesThat_eff (fun d => d.servedNR (Device.respond { d with crown := { d.crown with resetOn := some d.nextSeq } } 0x00F0 0)) rfl ?_
    rw [s.dev.servedNR_on hm, ← Device.withCrown, Device.nextSeq_idle hm.2.1 ht]
    obtain ⟨-, -, hreset⟩ := (s.dev.withCrown { s.dev.crown with resetOn := some s.dev.crown.txNext }).respond_crown 0xF0 0 []
    exact ⟨onlyAnswered_respond 0xF0 0 [] hm ⟨rfl, rfl, rfl, rfl⟩ ((Device.CrownOnly.refl s.dev).withCrown _), hreset⟩

end

section
/-!
Firmware update over the crown port (R449 to R453): the boot record written, and each command by its stage.
-/
namespace Sys2Proof.Machine

variable {d e : Device}

/-! ### The boot record -/

theorem Device.writeRec_brec (d : Device) (r : BootRec) : (d.writeRec r).brec = { r with seq := (d.brec.seq + 1) % 2 ^ 32 } := rfl

theorem Device.rd_writeRec_stage (d : Device) {r : BootRec} (h : r.stage < 16) : (d.writeRec r).rd RG_UPDSTAT_STAGE = r.stage :=
  (Device.rd_wr_same _ _ (by decide)).trans (Nat.mod_eq_of_lt h)

theorem Device.Frame.writeRec {rs : List Nat} (h : Device.Frame rs d e) (r : BootRec) (hr : RG_UPDSTAT ∈ rs) : Device.Frame rs d (e.writeRec r) :=
  (h.same (f := { e with
    nor := { e.nor with bootRec := some { r with seq := (e.brec.seq + 1) % 2 ^ 32 }, bootRecOld := e.nor.bootRec }
    boot := { e.boot with resumed := false } }) rfl rfl).wr RG_UPDSTAT_STAGE r.stage hr

theorem Device.rd_writeRec (d : Device) (r : BootRec) {f : RF} (h : f.lo + f.n ≤ 28) : (d.writeRec r).rd f = d.rd f := by
  have hwr : (d.writeRec r).rd f = _ := Device.rd_wr_bits _ _ (.inl h)
  exact hwr.trans (Device.rd_congr rfl f)

/-- An entry of the logbook takes a sequence number of NOR, and nothing else of it. -/
theorem Device.log_norSeq (d : Device) (n c : Nat) (ps : List Nat) : ∃ k, (d.log n c ps).nor = { d.nor with logSeq := k } := by
  unfold Device.log Device.logRaw
  split
  · exact ⟨d.nor.logSeq, rfl⟩
  · split
    · exact ⟨d.nor.logSeq, rfl⟩
    · exact ⟨_, rfl⟩

/-- What NOR holds beside the logbook's ring: the boot record, the images, the download. -/
structure Device.SameNor (d e : Device) : Prop where
  brec : e.brec = d.brec
  journal : e.nor.journal = d.nor.journal
  staging : e.nor.staging = d.nor.staging
  slots : ∀ n, e.fwSlot n = d.fwSlot n
  calA : e.nor.calA = d.nor.calA
  calB : e.nor.calB = d.nor.calB

theorem Device.log_sameNor (d : Device) (n c : Nat) (ps : List Nat) : d.SameNor (d.log n c ps) := by
  obtain ⟨k, hk⟩ := d.log_norSeq n c ps
  refine ⟨?_, ?_, ?_, fun m => ?_, ?_, ?_⟩
  · rw [Device.brec, hk]
    rfl
  · rw [hk]
  · rw [hk]
  · rw [Device.fwSlot, hk]
    rfl
  · rw [hk]
  · rw [hk]

/-- A response leaves everything in NOR and in the boot's state. -/
theorem Device.respond_boot (d : Device) (code st : Nat) (ps : List Nat) : (d.respond code st ps).nor = d.nor ∧ (d.respond code st ps).boot = d.boot ∧
    (∀ f, (d.respond code st ps).rd f = d.rd f) ∧ (d.respond code st ps).brec = d.brec ∧ ∀ n, (d.respond code st ps).fwSlot n = d.fwSlot n := by
  obtain ⟨q, u, t, o, hs⟩ := d.respond_sent code st ps
  rw [hs]
  exact ⟨rfl, rfl, fun f => Device.rd_congr rfl f, rfl, fun _ => rfl⟩

theorem Device.longRuns_iff : d.longRuns = true ↔ d.boot.long ≠ .none := bne_iff_ne

theorem Device.longRuns_none (h : d.boot.long = .none) : d.longRuns = false := by rw [Device.longRuns, h]; rfl

/-! ### Download -/

section
variable {len ident : Nat}

theorem updBeginEff_busy (hm : d.mayAnswer) (hl : d.boot.long ≠ .none) : updBeginEff len ident d = d.respond 0x20 8 := by
  rw [updBeginEff, d.servedNR_on hm, if_pos (Device.longRuns_iff.2 hl)]

theorem updBeginEff_resumes (hm : d.mayAnswer) (hl : d.boot.long = .none) (hr : d.resumable len ident = true) :
    updBeginEff len ident d = (d.log 9 0x7004 [len, d.nextChunk]).respond 0x20 0 (bytesOf 4 d.nextChunk) := by
  rw [updBeginEff, d.servedNR_on hm, if_neg (by simp [Device.longRuns_none hl]), if_pos hr]

/-- A new download: no chunk, no journal. -/
def Device.unstaged (d : Device) : Device := { d with nor := { d.nor with journal := [], staging := [] } }

/-- A new download begun: its record and its count. -/
def Device.downloadBegun (d : Device) (len ident : Nat) : Device :=
  (d.unstaged.writeRec { d.brec with stage := 1, stagedLen := len, stagedId := ident, flags := d.brec.flags &&& 0xFFFE }).wr RG_UPDSTAT_CHUNKS 0

theorem Device.resumable_stage (h : d.brec.stage = 0) : d.resumable len ident = false := by simp [Device.resumable, h]

theorem updBeginEff_fresh (hm : d.mayAnswer) (hl : d.boot.long = .none) (hs : d.brec.stage = 0) :
    updBeginEff len ident d = if len < 4096 ∨ 8388608 < len ∨ len % 16 ≠ 0 then d.respond 0x20 4
      else ((d.downloadBegun len ident).log 9 0x7004 [len, 0]).respond 0x20 0 (bytesOf 4 0) := by
  rw [updBeginEff, d.servedNR_on hm, if_neg (by simp [Device.longRuns_none hl]), if_neg (by simp [Device.resumable_stage hs]), if_neg (by simp [hs])]
  rfl

theorem Device.downloadBegun_frame (d : Device) (len ident : Nat) : Device.Frame [RG_UPDSTAT, RG_LOGSTAT] d (d.downloadBegun len ident) :=
  (((Device.Frame.refl _ d).same (f := d.unstaged) rfl rfl).writeRec _ (by decide)).wr RG_UPDSTAT_CHUNKS 0 (by decide)

theorem Device.downloadBegun_shows (d : Device) (len ident : Nat) :
    (d.downloadBegun len ident).rd RG_UPDSTAT_STAGE = 1 ∧ (d.downloadBegun len ident).rd RG_UPDSTAT_CHUNKS = 0 := by
  refine ⟨?_, (Device.rd_wr_same _ _ (by decide)).trans (Nat.zero_mod _)⟩
  rw [Device.downloadBegun, Device.rd_wr_bits _ _ (by decide)]
  exact Device.rd_writeRec_stage _ (show 1 < 16 by decide)

end

section
variable {k v : Nat} {x : Bool}

theorem updChunkEff_early (hm : d.mayAnswer) (hs : d.brec.stage ≠ 1) : updChunkEff k v x d = d.respond 0x21 3 := by
  rw [updChunkEff, d.servedNR_on hm, if_pos hs]

theorem updChunkEff_astray (hm : d.mayAnswer) (hs : d.brec.stage = 1) (hk : k ≠ d.nor.journal.length) :
    updChunkEff k v x d = d.respond 0x21 9 ([0, 0, 0] ++ bytesOf 4 d.nor.journal.length) := by
  have hnext : k ≠ d.nextChunk := hk
  rw [updChunkEff, d.servedNR_on hm, if_neg (by simp [hs]), if_pos hnext]
  rfl

/-- The next chunk and its journal entry programmed, counted. -/
def Device.chunkIn (d : Device) (v : Nat) : Device :=
  ({ d with nor := { d.nor with
      staging := Sparse.ins d.nor.staging d.nor.journal.length v
      journal := d.nor.journal ++ [(d.nor.journal.length, crc32cNum 4096 v)] } } : Device).wr RG_UPDSTAT_CHUNKS (d.nor.journal.length + 1)

/-- The last chunk makes the download whole. -/
def Device.chunkCounted (d : Device) : Device := if chunkCount d.brec.stagedLen ≤ d.nextChunk then d.writeRec { d.brec with stage := 2 } else d

theorem updChunkEff_fails (hm : d.mayAnswer) (hs : d.brec.stage = 1) : updChunkEff d.nor.journal.length v true d = d.respond 0x21 7 := by
  rw [updChunkEff, d.servedNR_on hm, if_neg (by simp [hs]), if_neg (by simp [Device.nextChunk]), if_pos rfl]

theorem updChunkEff_takes (hm : d.mayAnswer) (hs : d.brec.stage = 1) (hv : v < 2 ^ 32768) :
    updChunkEff d.nor.journal.length v false d = (d.chunkIn v).chunkCounted.respond 0x21 0 := by
  have hlen : (d.nor.journal ++ [(d.nor.journal.length, crc32cNum 4096 v)]).length = d.nor.journal.length + 1 := by simp
  -- The kernel compares the two powers: the model's and this statement's are written with different instances.
  have hmod : ∀ m, m = 2 ^ 32768 → v % m = v := fun m hm => Nat.mod_eq_of_lt (hm ▸ hv)
  rw [updChunkEff, d.servedNR_on hm, if_neg (by simp [hs]), if_neg (by simp [Device.nextChunk]), if_neg Bool.false_ne_true, hmod]
  · dsimp only
    rw [hlen]
    rfl
  · decide +kernel

theorem Device.chunkIn_frame (d : Device) (v : Nat) : Device.Frame [RG_UPDSTAT] d (d.chunkIn v) :=
  ((Device.Frame.refl _ d).same (f := { d with nor := { d.nor with
    staging := Sparse.ins d.nor.staging d.nor.journal.length v
    journal := d.nor.journal ++ [(d.nor.journal.length, crc32cNum 4096 v)] } }) rfl rfl).wr RG_UPDSTAT_CHUNKS _ (by decide)

theorem Device.chunkCounted_shows (hs : d.brec.stage = 1) : d.chunkCounted.nor.journal = d.nor.journal ∧ d.chunkCounted.nor.staging = d.nor.staging ∧
    d.chunkCounted.brec.stage = (if chunkCount d.brec.stagedLen ≤ d.nextChunk then 2 else 1) ∧ d.SameSend d.chunkCounted ∧
    Device.Frame [RG_UPDSTAT] d d.chunkCounted := by
  unfold Device.chunkCounted
  split
  · exact ⟨rfl, rfl, rfl, ⟨rfl, rfl, rfl, rfl⟩, (Device.Frame.refl _ d).writeRec _ (by decide)⟩
  · exact ⟨rfl, rfl, hs, .refl d, .refl _ d⟩

end

/-! ### Verification and copy -/

theorem updVerifyEff_busy (hm : d.mayAnswer) (hl : d.boot.long ≠ .none) : updVerifyEff d = d.respond 0x22 8 := by
  rw [updVerifyEff, d.servedNR_on hm, if_pos (Device.longRuns_iff.2 hl)]

theorem updVerifyEff_early (hm : d.mayAnswer) (hl : d.boot.long = .none) (hs : d.brec.stage ≠ 2) : updVerifyEff d = d.respond 0x22 3 := by
  rw [updVerifyEff, d.servedNR_on hm, if_neg (by simp [Device.longRuns_none hl]), if_pos hs]

theorem updVerifyEff_starts (hm : d.mayAnswer) (hl : d.boot.long = .none) (hs : d.brec.stage = 2) :
    updVerifyEff d = (d.setLong .verify).respond 0x22 1 := by
  rw [updVerifyEff, d.servedNR_on hm, if_neg (by simp [Device.longRuns_none hl]), if_neg (by simp [hs])]

section
variable {o : ImageObs}

theorem updVerifyDoneEff_idle (h : d.boot.long ≠ .verify) : updVerifyDoneEff o d = d := if_pos h

/-- A verification's code shown. -/
def Device.verified (d : Device) (c : Nat) : Device := (d.setLong .none).wr RG_UPDSTAT_VCODE c

theorem updVerifyDoneEff_judges (h : d.boot.long = .verify) (hs : d.brec.stage = 2) :
    ∃ ps, updVerifyDoneEff o d =
      if d.imageCode d.nor.staging o = 0 then
        ((d.verified (d.imageCode d.nor.staging o)).writeRec { d.brec with stage := 3, flags := d.brec.flags ||| 1 }).log 9 0x7005 ps
      else ((d.verified (d.imageCode d.nor.staging o)).writeRec { d.brec with stage := 0 }).log 9 0x7006 [d.imageCode d.nor.staging o] := by
  have hstage : (d.setLong .none).brec.stage = 2 := hs
  have hcode : (d.setLong .none).imageCode d.nor.staging o = d.imageCode d.nor.staging o := rfl
  have hstaged : (d.setLong .none).nor.staging = d.nor.staging := rfl
  refine ⟨[imgRevision d.nor.staging, imgSvn d.nor.staging], ?_⟩
  rw [updVerifyDoneEff, if_neg (by simp [h])]
  dsimp only
  rw [if_neg (by simp [hstage]), hstaged, hcode]
  rfl

theorem Device.imageCode_lt (d : Device) (t : List (Nat × Nat)) (o : ImageObs) : d.imageCode t o < 16 := by
  unfold Device.imageCode
  dsimp only
  split_ifs <;> decide

theorem Device.verified_frame (d : Device) (c : Nat) : Device.Frame [RG_UPDSTAT, RG_LOGSTAT] d (d.verified c) :=
  ((Device.Frame.refl _ d).same (f := d.setLong .none) rfl rfl).wr RG_UPDSTAT_VCODE c (by decide)

theorem Device.rd_verified (d : Device) {c : Nat} (h : c < 16) : (d.verified c).rd RG_UPDSTAT_VCODE = c :=
  (Device.rd_wr_same _ _ (by decide)).trans (Nat.mod_eq_of_lt h)

end

theorem updCommitEff_busy (hm : d.mayAnswer) (hl : d.boot.long ≠ .none) : updCommitEff d = d.respond 0x23 8 := by
  rw [updCommitEff, d.servedNR_on hm, if_pos (Device.longRuns_iff.2 hl)]

theorem updCommitEff_early (hm : d.mayAnswer) (hl : d.boot.long = .none) (hs : d.brec.stage ≠ 3) : updCommitEff d = d.respond 0x23 3 := by
  rw [updCommitEff, d.servedNR_on hm, if_neg (by simp [Device.longRuns_none hl]), if_pos hs]

theorem Device.commitSlot_released (h : d.boot.phase = .released) : d.commitSlot = 1 - d.brec.active := if_neg (by simp [h])

/-- The copy into a slot under way: the slot erased. -/
def Device.copyStarted (d : Device) (n : Nat) : Device := ((d.writeRec { d.brec with stage := 4 }).setSlotImage n []).setLong .copy

theorem updCommitEff_starts (hm : d.mayAnswer) (hp : d.boot.phase = .released) (hl : d.boot.long = .none) (hs : d.brec.stage = 3) :
    updCommitEff d = (d.copyStarted (1 - d.brec.active)).respond 0x23 1 := by
  rw [updCommitEff, d.servedNR_on hm, if_neg (by simp [Device.longRuns_none hl]), if_neg (by simp [hs]), Device.commitSlot_released hp]
  rfl

theorem Device.fwSlot_setSlotImage_same (d : Device) {n : Nat} (t : List (Nat × Nat)) : (d.setSlotImage n t).fwSlot n = t := by
  unfold Device.setSlotImage Device.fwSlot
  split <;> rfl

theorem Device.fwSlot_setSlotImage_other (d : Device) {n : Nat} (t : List (Nat × Nat)) (h : n < 2) :
    (d.setSlotImage (1 - n) t).fwSlot n = d.fwSlot n := by
  interval_cases n <;> rfl

theorem Device.setSlotImage_shows (d : Device) (n : Nat) (t : List (Nat × Nat)) : (d.setSlotImage n t).brec = d.brec ∧
    d.SameSend (d.setSlotImage n t) ∧ (d.setSlotImage n t).boot = d.boot ∧ Device.Frame [] d (d.setSlotImage n t) := by
  unfold Device.setSlotImage
  split
  · exact ⟨rfl, ⟨rfl, rfl, rfl, rfl⟩, rfl, (Device.Frame.refl [] d).same rfl rfl⟩
  · exact ⟨rfl, ⟨rfl, rfl, rfl, rfl⟩, rfl, (Device.Frame.refl [] d).same rfl rfl⟩

section
variable {x : Bool}

theorem updCopyDoneEff_idle (h : d.boot.long ≠ .copy) : updCopyDoneEff x d = d := if_pos h

theorem updCopyDoneEff_fails (h : d.boot.long = .copy) :
    updCopyDoneEff true d = ((d.setLong .none).writeRec { d.brec with stage := 3 }).log 9 0x7008 := if_neg (by simp [h])

/-- The record of a slot that has become pending. -/
def BootRec.nowPending (r : BootRec) (n : Nat) : BootRec :=
  { r with stage := 5, pending := some n, pboots := 0, prun := 0, flags := r.flags &&& (if n = 0 then 0xFFFD else 0xFFFB) }

theorem updCopyDoneEff_copies (h : d.boot.long = .copy) (hp : d.boot.phase = .released) :
    updCopyDoneEff false d =
      (((d.setLong .none).setSlotImage (1 - d.brec.active) d.nor.staging).writeRec (d.brec.nowPending (1 - d.brec.active))).log 9 0x7007 := by
  have hslot : (d.setLong .none).commitSlot = 1 - d.brec.active := Device.commitSlot_released (d := d.setLong .none) hp
  obtain ⟨hrec, -, -, -⟩ := (d.setLong .none).setSlotImage_shows (1 - d.brec.active) d.nor.staging
  have hrec' : ((d.setLong .none).setSlotImage (1 - d.brec.active) d.nor.staging).brec = d.brec := hrec
  have hstaged : (d.setLong .none).nor.staging = d.nor.staging := rfl
  rw [updCopyDoneEff, if_neg (by simp [h])]
  dsimp only
  rw [if_neg Bool.false_ne_true, hslot, hstaged, hrec']
  rfl

end

/-! ### Scheduling, cancelling, status -/

section
variable {e w : Nat}

theorem updScheduleEff_wide (hm : d.mayAnswer) (hp : d.boot.phase = .released) (hs : d.brec.stage = 5) (hw : w = 0 ∨ 600 < w) :
    updScheduleEff e w d = d.respond 0x24 4 := by
  rw [updScheduleEff, Device.servedN_released _ hm hp, if_neg (by simp [hs]), if_pos hw]

theorem updScheduleEff_schedules (hm : d.mayAnswer) (hp : d.boot.phase = .released) (hs : d.brec.stage = 5) (hw0 : 0 < w) (hw : w ≤ 600) (he : e < 2 ^ 64) :
    updScheduleEff e w d =
      ((d.writeRec { d.brec with stage := 6, epoch := e, window := w }).log 9 0x7009 [e, w]).respond 0x24 0 := by
  rw [updScheduleEff, Device.servedN_released _ hm hp, if_neg (by simp [hs]), if_neg (by omega), Nat.mod_eq_of_lt he]

end

theorem updCancelEff_pending (hm : d.mayAnswer) (hs : d.brec.stage = 5 ∨ d.brec.stage = 6) (ha : d.boot.act = .none) :
    updCancelEff d = ((d.writeRec { d.brec with stage := 3, pending := none }).log 9 0x7015 [d.brec.stage]).respond 0x25 0 := by
  rw [updCancelEff, d.servedNR_on hm, if_pos hs, if_neg (by simp [ha])]

/-- The journal gone, and with it a verification under way. -/
def Device.unjournalled (d : Device) : Device :=
  { d with
    nor := { d.nor with journal := [] }
    boot := { d.boot with long := if d.boot.long = .verify then .none else d.boot.long } }

/-- A download given up. -/
def Device.undownloaded (d : Device) : Device :=
  ((d.unjournalled).wr RG_UPDSTAT_CHUNKS 0).writeRec { d.brec with stage := 0 }

theorem updCancelEff_download (hm : d.mayAnswer) (hs : d.brec.stage = 1 ∨ d.brec.stage = 2) : updCancelEff d = d.undownloaded.respond 0x25 0 := by
  rw [updCancelEff, d.servedNR_on hm, if_neg (by omega), if_pos hs]
  rfl

theorem updCancelEff_nothing (hm : d.mayAnswer) (hs : d.brec.stage = 0 ∨ d.brec.stage = 3 ∨ d.brec.stage = 7) : updCancelEff d = d.respond 0x25 3 := by
  rw [updCancelEff, d.servedNR_on hm, if_neg (by omega), if_neg (by omega)]

theorem Device.undownloaded_long (d : Device) : d.undownloaded.boot.long ≠ .verify := by
  have hlong : d.undownloaded.boot.long = if d.boot.long = .verify then .none else d.boot.long := rfl
  rw [hlong]
  split
  · exact LongOp.noConfusion
  case isFalse h => exact h

theorem Device.undownloaded_frame (d : Device) : Device.Frame [RG_UPDSTAT] d d.undownloaded :=
  (((Device.Frame.refl _ d).same (f := d.unjournalled) rfl rfl).wr RG_UPDSTAT_CHUNKS 0 (by decide)).writeRec _ (by decide)

end Sys2Proof.Machine

open Sys2Proof Sys2Proof.Machine

/-- Settles O58: each command by the stage it needs; the record, the image and the registers each leaves. -/
theorem firmwareUpdatesGoThroughTheirStages : Obligations.FirmwareUpdatesGoThroughTheirStages := by
  refine ⟨?_, ?_, ?_, ?_, ?_, ?_, ?_, ?_, ?_, ?_, ?_, ?_, ?_, ?_, ?_, ?_, ?_, ?_, ?_, ?_, ?_, ?_, ?_⟩
  · intro s a b hm hl
    exact ⟨givesThat_eff (updBeginEff a b) rfl (updBeginEff_busy hm hl ▸ onlyAnswered_self 0x20 8 [] hm),
      givesThat_eff updVerifyEff rfl (updVerifyEff_busy hm hl ▸ onlyAnswered_self 0x22 8 [] hm),
      givesThat_eff updCommitEff rfl (updCommitEff_busy hm hl ▸ onlyAnswered_self 0x23 8 [] hm)⟩
  · intro s len ident hm hl hs hlo hhi h16
    refine givesThat_eff (updBeginEff len ident) rfl ?_
    have hsame := (s.dev.downloadBegun len ident).log_sameNor 9 0x7004 [len, 0]
    obtain ⟨hnor, -, hrd, hrec, hslots⟩ := ((s.dev.downloadBegun len ident).log 9 0x7004 [len, 0]).respond_boot 0x20 0 (bytesOf 4 0)
    obtain ⟨hstage, hchunks⟩ := s.dev.downloadBegun_shows len ident
    have hA := hsame.slots 0
    have hB := hsame.slots 1
    rw [updBeginEff_fresh hm hl hs, if_neg (by omega), hrec, hnor, hrd, hrd, hsame.brec, hsame.journal, hsame.staging, Device.rd_log _ _ _ _ (by decide),
      Device.rd_log _ _ _ _ (by decide), hstage, hchunks]
    refine ⟨answered_respond 0x20 0 (bytesOf 4 0) hm (.of_eq (Device.log_crown _ _ _ _) (Device.log_out _ _ _ _)), rfl, rfl, rfl, rfl, rfl, hA, hB, rfl, rfl, ?_⟩
    exact (((s.dev.downloadBegun_frame len ident).log _ _ _ (by decide)).respond _ _ _).untouched (by decide)
  · intro s len ident hm hl hs hbad
    refine givesThat_eff (updBeginEff len ident) rfl ?_
    rw [updBeginEff_fresh hm hl hs, if_pos hbad]
    exact onlyAnswered_self 0x20 4 [] hm
  · intro s len ident hm hl hr
    refine givesThat_eff (updBeginEff len ident) rfl ?_
    have hsame := s.dev.log_sameNor 9 0x7004 [len, s.dev.nextChunk]
    obtain ⟨hnor, -, -, hrec, -⟩ := (s.dev.log 9 0x7004 [len, s.dev.nextChunk]).respond_boot 0x20 0 (bytesOf 4 s.dev.nextChunk)
    rw [updBeginEff_resumes hm hl hr, hrec, hnor]
    refine ⟨answered_respond 0x20 0 _ hm (.of_eq (Device.log_crown _ _ _ _) (Device.log_out _ _ _ _)), hsame.brec, hsame.staging, hsame.journal, ?_⟩
    exact (((Device.Frame.refl [RG_LOGSTAT] s.dev).log _ _ _ (by decide)).respond _ _ _).untouched (by decide)
  · intro s k v x hm hs
    exact givesThat_eff (updChunkEff k v x) rfl (updChunkEff_early hm hs ▸ onlyAnswered_self 0x21 3 [] hm)
  · intro s k v x hm hs hk
    exact givesThat_eff (updChunkEff k v x) rfl (updChunkEff_astray hm hs hk ▸ onlyAnswered_self 0x21 9 _ hm)
  · intro s v hm hs
    exact givesThat_eff (updChunkEff s.dev.nor.journal.length v true) rfl (updChunkEff_fails hm hs ▸ onlyAnswered_self 0x21 7 [] hm)
  · intro s v hm hs hv
    refine givesThat_eff (updChunkEff s.dev.nor.journal.length v false) rfl ?_
    have hstage : (s.dev.chunkIn v).brec.stage = 1 := hs
    have hnext : (s.dev.chunkIn v).nextChunk = s.dev.nor.journal.length + 1 := List.length_append
    obtain ⟨hjournal, hstaging, hrec, hsend, hframe⟩ := Device.chunkCounted_shows hstage
    obtain ⟨hnor, -, -, hrec', -⟩ := (s.dev.chunkIn v).chunkCounted.respond_boot 0x21 0 []
    rw [updChunkEff_takes hm hs hv, hnor, hrec', hjournal, hstaging, hrec, hnext]
    refine ⟨answered_respond 0x21 0 [] hm ⟨hsend.tx, hsend.unacked, hsend.queued, hsend.out⟩, rfl, rfl, rfl, ?_⟩
    exact (((s.dev.chunkIn_frame v).trans hframe).respond _ _ _).untouched (by decide)
  · intro s hm hl hs
    exact givesThat_eff updVerifyEff rfl (updVerifyEff_early hm hl hs ▸ onlyAnswered_self 0x22 3 [] hm)
  · intro s hm hl hs
    refine givesThat_eff updVerifyEff rfl ?_
    obtain ⟨hnor, hboot, -, -, -⟩ := (s.dev.setLong .verify).respond_boot 0x22 1 []
    rw [updVerifyEff_starts hm hl hs, hnor, hboot]
    refine ⟨answered_respond 0x22 1 [] hm ⟨rfl, rfl, rfl, rfl⟩, rfl, rfl, ?_⟩
    exact (((Device.Frame.refl [] s.dev).same (f := s.dev.setLong .verify) rfl rfl).respond _ _ _).untouched (by decide)
  · intro s o h
    exact gives_eff (updVerifyDoneEff o) rfl (updVerifyDoneEff_idle h)
  · intro s o h hs
    refine givesThat_eff (updVerifyDoneEff o) rfl ?_
    obtain ⟨ps, hjudge⟩ := updVerifyDoneEff_judges (o := o) h hs
    have hcode := s.dev.rd_verified (s.dev.imageCode_lt s.dev.nor.staging o)
    have hframe := s.dev.verified_frame (s.dev.imageCode s.dev.nor.staging o)
    rw [hjudge]
    split
    · have hsame := ((s.dev.verified (s.dev.imageCode s.dev.nor.staging o)).writeRec { s.dev.brec with stage := 3, flags := s.dev.brec.flags ||| 1 }).log_sameNor
        9 0x7005 ps
      rw [hsame.brec, hsame.staging, Device.log_boot, Device.rd_log _ _ _ _ (by decide), Device.rd_writeRec _ _ (by decide)]
      exact ⟨rfl, hcode, rfl, rfl, ((hframe.writeRec _ (by decide)).log _ _ _ (by decide)).untouched (by decide)⟩
    · have hsame := ((s.dev.verified (s.dev.imageCode s.dev.nor.staging o)).writeRec { s.dev.brec with stage := 0 }).log_sameNor 9 0x7006
        [s.dev.imageCode s.dev.nor.staging o]
      rw [hsame.brec, hsame.staging, Device.log_boot, Device.rd_log _ _ _ _ (by decide), Device.rd_writeRec _ _ (by decide)]
      exact ⟨rfl, hcode, rfl, rfl, ((hframe.writeRec _ (by decide)).log _ _ _ (by decide)).untouched (by decide)⟩
  · intro s hm hl hs
    exact givesThat_eff updCommitEff rfl (updCommitEff_early hm hl hs ▸ onlyAnswered_self 0x23 3 [] hm)
  · intro s hm hp hl hs ha
    refine givesThat_eff updCommitEff rfl ?_
    obtain ⟨hrec, hsend, hboot, hframe⟩ := (s.dev.writeRec { s.dev.brec with stage := 4 }).setSlotImage_shows (1 - s.dev.brec.active) []
    obtain ⟨hnor', hboot', -, hrec', hslots⟩ := (s.dev.copyStarted (1 - s.dev.brec.active)).respond_boot 0x23 1 []
    have hrec'' : (s.dev.copyStarted (1 - s.dev.brec.active)).brec = (s.dev.writeRec { s.dev.brec with stage := 4 }).brec := hrec
    rw [updCommitEff_starts hm hp hl hs, hboot', hrec', hrec'', hslots, hslots]
    refine ⟨answered_respond 0x23 1 [] hm ⟨hsend.tx, hsend.unacked, hsend.queued, hsend.out⟩, rfl, rfl, rfl, ?_, ?_, ?_⟩
    · exact Device.fwSlot_setSlotImage_same _ []
    · exact Device.fwSlot_setSlotImage_other _ [] ha
    · exact (((((Device.Frame.refl [RG_UPDSTAT] s.dev).writeRec _ (by decide)).trans (hframe.mono (by simp))).same
        (f := s.dev.copyStarted (1 - s.dev.brec.active)) rfl rfl).respond _ _ _).untouched (by decide)
  · intro s x h
    exact gives_eff (updCopyDoneEff x) rfl (updCopyDoneEff_idle h)
  · intro s x hp hl ha
    refine givesThat_eff (updCopyDoneEff x) rfl ?_
    cases x
    · obtain ⟨-, -, hboot, hframe⟩ := (s.dev.setLong .none).setSlotImage_shows (1 - s.dev.brec.active) s.dev.nor.staging
      have hsame := (((s.dev.setLong .none).setSlotImage (1 - s.dev.brec.active) s.dev.nor.staging).writeRec
        (s.dev.brec.nowPending (1 - s.dev.brec.active))).log_sameNor 9 0x7007 []
      rw [updCopyDoneEff_copies hl hp, hsame.brec, Device.log_boot, hsame.slots, hsame.slots]
      refine ⟨congrArg Boot.long hboot, rfl, rfl, fun _ => ⟨rfl, Device.fwSlot_setSlotImage_same _ _, rfl⟩, Device.fwSlot_setSlotImage_other _ _ ha, ?_⟩
      exact (((((Device.Frame.refl _ s.dev).same (f := s.dev.setLong .none) rfl rfl).trans (hframe.mono (by simp))).writeRec _ (by decide)).log _ _ _
        (by decide)).untouched (by decide)
    · have hsame := ((s.dev.setLong .none).writeRec { s.dev.brec with stage := 3 }).log_sameNor 9 0x7008 []
      rw [updCopyDoneEff_fails hl, hsame.brec, Device.log_boot, hsame.slots, hsame.slots]
      refine ⟨rfl, rfl, rfl, fun h => absurd h (by decide), rfl, ?_⟩
      exact ((((Device.Frame.refl _ s.dev).same (f := s.dev.setLong .none) rfl rfl).writeRec _ (by decide)).log _ _ _ (by decide)).untouched (by decide)
  · intro s e w hm hp
    refine givesThat_eff (updScheduleEff e w) rfl ?_
    rw [updScheduleEff, Device.servedN_recovery _ hm hp]
    exact onlyAnswered_self 0x24 3 [] hm
  · intro s e w hm hp hs hw
    exact givesThat_eff (updScheduleEff e w) rfl (updScheduleEff_wide hm hp hs hw ▸ onlyAnswered_self 0x24 4 [] hm)
  · intro s e w hm hp hs hw0 hw he
    refine givesThat_eff (updScheduleEff e w) rfl ?_
    have hsame := (s.dev.writeRec { s.dev.brec with stage := 6, epoch := e, window := w }).log_sameNor 9 0x7009 [e, w]
    obtain ⟨-, -, -, hrec, -⟩ := ((s.dev.writeRec { s.dev.brec with stage := 6, epoch := e, window := w }).log 9 0x7009 [e, w]).respond_boot 0x24 0 []
    rw [updScheduleEff_schedules hm hp hs hw0 hw he, hrec, hsame.brec]
    refine ⟨answered_respond 0x24 0 [] hm (.of_eq (Device.log_crown _ _ _ _) (Device.log_out _ _ _ _)), rfl, ?_⟩
    exact ((((Device.Frame.refl _ s.dev).writeRec _ (by decide)).log _ _ _ (by decide)).respond _ _ _).untouched (by decide)
  · intro s hm hs ha
    refine givesThat_eff updCancelEff rfl ?_
    have hsame := (s.dev.writeRec { s.dev.brec with stage := 3, pending := none }).log_sameNor 9 0x7015 [s.dev.brec.stage]
    obtain ⟨-, -, -, hrec, -⟩ := ((s.dev.writeRec { s.dev.brec with stage := 3, pending := none }).log 9 0x7015 [s.dev.brec.stage]).respond_boot 0x25 0 []
    rw [updCancelEff_pending hm hs ha, hrec, hsame.brec]
    refine ⟨answered_respond 0x25 0 [] hm (.of_eq (Device.log_crown _ _ _ _) (Device.log_out _ _ _ _)), rfl, rfl, rfl, ?_⟩
    exact ((((Device.Frame.refl _ s.dev).writeRec _ (by decide)).log _ _ _ (by decide)).respond _ _ _).untouched (by decide)
  · intro s hm hs
    refine givesThat_eff updCancelEff rfl ?_
    obtain ⟨hnor, hboot, -, hrec, -⟩ := s.dev.undownloaded.respond_boot 0x25 0 []
    rw [updCancelEff_download hm hs, hrec, hnor, hboot]
    exact ⟨answered_respond 0x25 0 [] hm ⟨rfl, rfl, rfl, rfl⟩, rfl, rfl, s.dev.undownloaded_long, (s.dev.undownloaded_frame.respond _ _ _).untouched (by decide)⟩
  · intro s hm hs
    exact givesThat_eff updCancelEff rfl (updCancelEff_nothing hm hs ▸ onlyAnswered_self 0x25 3 [] hm)
  · intro s hm
    refine givesThat_eff updStatusEff rfl ?_
    have hwords : 0 :: ([s.dev.brec.stage] ++ bytesOf 2 s.dev.nor.journal.length ++ [s.dev.rd RG_UPDSTAT_VCODE] ++
        bytesOf 4 (if s.dev.brec.stage = 6 then s.dev.brec.windowEnd - s.dev.hostMs else 0)) =
      [0, s.dev.brec.stage] ++ bytesOf 2 s.dev.nor.journal.length ++ [s.dev.rd RG_UPDSTAT_VCODE] ++
        bytesOf 4 (if s.dev.brec.stage = 6 then s.dev.brec.epoch + 1000 * s.dev.brec.window - s.dev.hostMs else 0) := rfl
    rw [updStatusEff, s.dev.servedNR_on hm, ← hwords]
    exact onlyAnswered_self 0x26 0 _ hm

end

section
/-!
Calibre and keys over the crown port, and store recovery (R45, R46, R437, R454, R457).
-/
namespace Sys2Proof.Machine

variable {d e : Device}

/-! ### Calibre -/

section
variable {o n v c : Nat} {vd : Option Verdict} {x : Bool} {rs : List (Nat × Nat × Nat)}

theorem calChunkEff_bad (hm : d.mayAnswer) (h : o % 4096 ≠ 0 ∨ 65536 ≤ o ∨ n = 0 ∨ 4096 < n) : calChunkEff o n v d = d.respond 0x30 4 := by
  rw [calChunkEff, d.servedNR_on hm, if_pos h]

/-- A chunk put into the calibre buffer. -/
def Device.calBuffered (d : Device) (k w : Nat) : Device := { d with boot := { d.boot with calBuf := Sparse.ins d.boot.calBuf k w } }

theorem Device.calBuffered_calBuf (d : Device) (k w : Nat) : (d.calBuffered k w).boot.calBuf = Sparse.ins d.boot.calBuf k w := rfl

theorem calChunkEff_takes {k : Nat} (hm : d.mayAnswer) (hk : k < 16) (hn0 : 0 < n) (hn : n ≤ 4096) :
    calChunkEff (4096 * k) n v d =
      (d.calBuffered k (putBits ((Sparse.find d.boot.calBuf k).getD erasedChunk) 0 (8 * n) v)).respond 0x30 0 := by
  rw [calChunkEff, d.servedNR_on hm, if_neg (by omega)]
  dsimp only
  rw [Nat.mul_div_cancel_left k (by decide : 0 < 4096)]
  rfl

theorem calCommitEff_busy (hm : d.mayAnswer) (hl : d.boot.long ≠ .none) : calCommitEff c vd x d = d.respond 0x31 8 := by
  rw [calCommitEff, d.servedNR_on hm]
  exact if_pos (Device.longRuns_iff.2 hl)

theorem calCommitEff_fails (hm : d.mayAnswer) (hl : d.boot.long = .none) (hc : d.calBufCode vd ≠ 0) :
    calCommitEff c vd x d = d.respond 0x31 5 [d.calBufCode vd] := by
  rw [calCommitEff, d.servedNR_on hm]
  exact (if_neg (by simp [Device.longRuns_none hl])).trans (if_pos hc)

/-- A calibre copy programmed from the buffer. -/
def Device.calCopied (d : Device) (toB : Bool) : Device :=
  if toB then { d with nor := { d.nor with calB := d.boot.calBuf } } else { d with nor := { d.nor with calA := d.boot.calBuf } }

theorem calCommitEff_programs (hm : d.mayAnswer) (hl : d.boot.long = .none) (hc : d.calBufCode vd = 0) (hrs : calRecords d.boot.calBuf = .ok rs)
    (hs : d.rd CB_STATUS_SOURCE = 0) (hcopy : c < 2) :
    ∃ ps, calCommitEff c vd false d = ((d.calCopied (c == 1)).log 9 0x7803 ps).respond 0x31 0 := by
  refine ⟨[if c == 1 then 1 else 0, calSeq d.boot.calBuf], ?_⟩
  rw [calCommitEff, d.servedNR_on hm]
  dsimp only
  rw [if_neg (by simp [Device.longRuns_none hl]), if_neg (by simp [hc]), hrs]
  dsimp only
  rw [if_pos (.inl hs)]
  dsimp only
  rw [if_neg (by omega), if_neg Bool.false_ne_true, if_pos hs]
  rfl

theorem calCommitEff_fixed {t : Nat} (hm : d.mayAnswer) (hl : d.boot.long = .none) (hc : d.calBufCode vd = 0) (hrs : calRecords d.boot.calBuf = .ok rs)
    (hs : d.rd CB_STATUS_SOURCE ≠ 0) (hf : d.boot.straps.factory = false) (hd : d.fixedDiff d.boot.calBuf rs = some t) :
    calCommitEff c vd x d = (d.log 9 0x7804 [t]).respond 0x31 6 ([0] ++ bytesOf 2 t) := by
  rw [calCommitEff, d.servedNR_on hm]
  dsimp only
  rw [if_neg (by simp [Device.longRuns_none hl]), if_neg (by simp [hc]), hrs]
  dsimp only
  rw [if_neg (by simp [hs, hf]), hd]

theorem Device.calCopied_shows (d : Device) (b : Bool) : (d.calCopied b).nor.calA = (if b then d.nor.calA else d.boot.calBuf) ∧
    (d.calCopied b).nor.calB = (if b then d.boot.calBuf else d.nor.calB) ∧ d.SameSend (d.calCopied b) ∧ Device.Frame [] d (d.calCopied b) := by
  cases b
  · exact ⟨rfl, rfl, ⟨rfl, rfl, rfl, rfl⟩, (Device.Frame.refl [] d).same rfl rfl⟩
  · exact ⟨rfl, rfl, ⟨rfl, rfl, rfl, rfl⟩, (Device.Frame.refl [] d).same rfl rfl⟩

theorem calReadEff_bad (hm : d.mayAnswer) (h : 1 < c ∨ 4096 < n ∨ 65536 < o + n) : calReadEff c o n d = d.respond 0x32 4 := by
  rw [calReadEff, d.servedNR_on hm, if_pos h]

theorem calReadEff_reads (hm : d.mayAnswer) (hc : c < 2) (hn : n ≤ 4096) (ho : o + n ≤ 65536) :
    calReadEff c o n d = d.respond 0x32 0 (chunkBytes (if c = 0 then d.nor.calA else d.nor.calB) o n) := by
  rw [calReadEff, d.servedNR_on hm, if_neg (by omega)]

end

/-- An entry leaves what would be sent next as it is. -/
theorem Device.log_sameSend (d : Device) (n c : Nat) (ps : List Nat) : d.SameSend (d.log n c ps) := .of_eq (Device.log_crown _ _ _ _) (Device.log_out _ _ _ _)

theorem Device.SameSend.trans {f : Device} (h : d.SameSend e) (h' : e.SameSend f) : d.SameSend f :=
  ⟨h'.tx.trans h.tx, h'.unacked.trans h.unacked, h'.queued.trans h.queued, h'.out.trans h.out⟩

/-! ### Revocation -/

section
variable {m : List Nat} {k t : Nat} {x : Bool}

theorem keyRevokeEff_malformed (hm : d.mayAnswer) (hp : d.boot.phase = .released) (h : m.length ≠ 16 ∨ m.take 4 ≠ [0x47, 0x52, 0x45, 0x56] ∨ 3 < m.getD 4 0) :
    keyRevokeEff m k x d = d.respond 0x40 4 := by
  rw [keyRevokeEff, Device.servedN_released _ hm hp]
  exact if_pos (h.imp_right (Or.imp_right .inr))

/-- The message that names a target. -/
def revokeMessage (t : Nat) : List Nat := [0x47, 0x52, 0x45, 0x56, t] ++ List.replicate 11 0

/-- A well-formed message is judged by its signer, its signature and its target. -/
theorem keyRevokeEff_formed (hm : d.mayAnswer) (hp : d.boot.phase = .released) (ht : t < 4) :
    keyRevokeEff (revokeMessage t) k x d =
      if k = t ∨ d.otp.usable k = false then d.respond 0x40 5 [3]
      else if !x || d.otp.bad then d.respond 0x40 5 [4]
      else if d.revokeRefused t then d.respond 0x40 6 ([0] ++ bytesOf 2 t)
      else (Device.log { d with otp := { d.otp with revoked := d.otp.revoked ||| 2 ^ t } } 8 0x7010 [t]).respond 0x40 0 := by
  have hform : ¬((revokeMessage t).length ≠ 16 ∨ (revokeMessage t).take 4 ≠ [0x47, 0x52, 0x45, 0x56] ∨ ((revokeMessage t).drop 5).any (· != 0) = true ∨
      3 < (revokeMessage t).getD 4 0) := by
    simp only [not_or, not_not, Bool.not_eq_true]
    exact ⟨rfl, rfl, rfl, Nat.not_lt.2 (Nat.le_of_lt_succ ht)⟩
  rw [keyRevokeEff, Device.servedN_released _ hm hp]
  exact if_neg hform

/-- A key revoked. -/
def Device.keyRevoked (d : Device) (t : Nat) : Device := { d with otp := { d.otp with revoked := d.otp.revoked ||| 2 ^ t } }

theorem keyRevokeEff_unsigned (hm : d.mayAnswer) (hp : d.boot.phase = .released) (ht : t < 4) (hk : k = t ∨ d.otp.usable k = false) :
    keyRevokeEff (revokeMessage t) k x d = d.respond 0x40 5 [3] := by
  rw [keyRevokeEff_formed hm hp ht, if_pos hk]

theorem keyRevokeEff_signed (hm : d.mayAnswer) (hp : d.boot.phase = .released) (ht : t < 4) (hk : k ≠ t) (hu : d.otp.usable k = true)
    (hb : d.otp.bad = false) :
    keyRevokeEff (revokeMessage t) k true d =
      if d.revokeRefused t then d.respond 0x40 6 ([0] ++ bytesOf 2 t) else ((d.keyRevoked t).log 8 0x7010 [t]).respond 0x40 0 := by
  rw [keyRevokeEff_formed hm hp ht, if_neg (by simp [hk, hu]), if_neg (by simp [hb])]
  rfl

end

/-! ### Store recovery -/

section
variable {n : Nat} {o : RebuildObs}

theorem storeRecoverEff_asked (hm : d.mayAnswer) (hp : d.boot.phase = .released) (hl : d.boot.long = .none) :
    storeRecoverEff n d =
      if 2 ≤ n then d.respond 0x50 4
      else if d.rd HS_STORE_STS_REBUILD ≠ 3 then d.respond 0x50 3
      else ((d.setLong (.storeRecover n)).log 9 0x7014 [n]).respond 0x50 1 := by
  rw [storeRecoverEff, Device.servedN_released _ hm hp]
  exact if_neg (by simp [Device.longRuns_none hl])

theorem storeRecoverDoneEff_idle (h : d.boot.long = .none ∨ d.boot.long = .verify ∨ d.boot.long = .copy) : storeRecoverDoneEff o d = d := by
  unfold storeRecoverDoneEff
  split
  case h_1 k hk => rcases h with h | h | h <;> exact LongOp.noConfusion (h.symm.trans hk)
  case h_2 => rfl

/-- A change made on every controller changes the controllers alone. -/
theorem Device.onCtrls_ctrls (d : Device) (f : Ctrl → Ctrl) : ∃ c, d.onCtrls f = { d with host := { d.host with ctrls := c } } := by
  rw [Device.onCtrls_eq]
  split
  · exact ⟨_, rfl⟩
  · exact ⟨_, rfl⟩

/-- Every controller's failure of the rebuild cleared. -/
def Device.rebuildCleared (d : Device) : Device := d.onCtrls fun k => { k with cfsRebuild := false }

theorem Device.rebuildCleared_eq (d : Device) : ∃ c, d.rebuildCleared = { d with host := { d.host with ctrls := c } } := d.onCtrls_ctrls _

/-- The recovery ended: the rebuild shown as done. -/
def Device.recovered (d : Device) (n : Nat) : Device := (d.rebuildCleared.wr HS_STORE_STS_REBUILD 2).log 9 0x7014 [n]

theorem storeRecoverDoneEff_scans (h : d.boot.long = .storeRecover 0) :
    storeRecoverDoneEff o d = ((d.setLong .none).standOn ((d.setLong .none).fullScan o)).recovered 0 := by
  rw [storeRecoverDoneEff, h]
  rfl

theorem storeRecoverDoneEff_restarts (h : d.boot.long = .storeRecover 1) : storeRecoverDoneEff o d = (d.setLong .none).startOver.recovered 1 := by
  rw [storeRecoverDoneEff, h]
  rfl

/-- The end of a recovery shows in the rebuild's register and the controllers. -/
theorem Device.recovered_shows (d : Device) (n : Nat) : (d.recovered n).boot = d.boot ∧ (d.recovered n).rd HS_STORE_STS_REBUILD = 2 ∧
    (d.recovered n).host.tables = d.host.tables ∧ (d.recovered n).medium = d.medium ∧ (d.recovered n).hnor = d.hnor ∧ (d.recovered n).keys = d.keys := by
  obtain ⟨c, hc⟩ := d.rebuildCleared_eq
  rw [Device.recovered, hc, Device.log_boot, Device.log_host, Device.log_medium, Device.log_hnor, Device.log_keys, Device.rd_log _ _ _ _ (by decide),
    Device.rd_wr_same _ _ (by decide)]
  exact ⟨rfl, rfl, rfl, rfl, rfl, rfl⟩

theorem Device.recovered_frame (d : Device) (n : Nat) : Device.Frame [HS_STORE_STS, RG_LOGSTAT] d (d.recovered n) := by
  obtain ⟨c, hc⟩ := d.rebuildCleared_eq
  rw [Device.recovered, hc]
  exact (((Device.Frame.refl [HS_STORE_STS, RG_LOGSTAT] d).same (f := { d with host := { d.host with ctrls := c } }) rfl rfl).wr HS_STORE_STS_REBUILD 2
    (by decide)).log _ _ _ (by decide)

theorem Device.standOn_shows (d : Device) (t : Tables) : (d.standOn t).boot = d.boot ∧ (d.standOn t).host.tables = t ∧
    (d.standOn t).medium.bands = d.medium.bands ∧ (d.standOn t).medium.journal = [] ∧ (d.standOn t).hnor = d.hnor ∧ Device.Frame [] d (d.standOn t) :=
  ⟨rfl, rfl, rfl, rfl, rfl, (Device.Frame.refl [] d).same rfl rfl⟩

theorem Device.fullScan_setLong (d : Device) (l : LongOp) (o : RebuildObs) : (d.setLong l).fullScan o = d.fullScan o := rfl

theorem Device.keyErase_boot (d : Device) (n : Nat) : (d.keyErase n).2.boot = d.boot := by
  unfold Device.keyErase
  dsimp only
  split
  · rfl
  · rfl
  · exact Device.log_boot _ _ _ _
  · rfl

theorem Device.recordEpoch_boot (d : Device) (n x : Nat) : (d.recordEpoch n x).boot = d.boot := rfl

theorem Device.startOver_shows (d : Device) : d.startOver.boot = d.boot ∧ d.startOver.host.tables = {} ∧ d.startOver.medium.bands = [] ∧
    d.startOver.nsids = [1] ∧ d.startOver.keys.blobs = [] := by
  rw [Device.startOver]
  generalize hg : List.foldl _ d d.nsids = g
  have hboot : g.boot = d.boot := by
    rw [← hg]
    refine List.foldlRecOn (motive := fun e : Device => e.boot = d.boot) _ _ rfl fun e he n _ => ?_
    dsimp only
    rw [Device.recordEpoch_boot]
    split
    · exact he
    · exact (e.keyErase_boot _).trans he
  exact ⟨hboot, rfl, rfl, rfl, rfl⟩

end

end Sys2Proof.Machine

open Sys2Proof Sys2Proof.Machine

/-- Settles O59: each command by its checks in their order; a copy, a fuse or a recovery where all of them pass. -/
theorem calibreKeysAndStoreOverTheCrownPort : Obligations.CalibreKeysAndStoreOverTheCrownPort := by
  refine ⟨?_, ?_, ?_, ?_, ?_, ?_, ?_, ?_, ?_, ?_, ?_, ?_, ?_, ?_, ?_, ?_⟩
  · intro s o n v hm h
    exact givesThat_eff (calChunkEff o n v) rfl (calChunkEff_bad hm h ▸ onlyAnswered_self 0x30 4 [] hm)
  · intro s k n v hm hk hn0 hn
    refine givesThat_eff (calChunkEff (4096 * k) n v) rfl ?_
    obtain ⟨hnor, hboot, -, -, -⟩ :=
      (s.dev.calBuffered k (putBits ((Sparse.find s.dev.boot.calBuf k).getD erasedChunk) 0 (8 * n) v)).respond_boot 0x30 0 []
    rw [calChunkEff_takes hm hk hn0 hn, hnor, hboot, Device.calBuffered_calBuf]
    refine ⟨answered_respond 0x30 0 [] hm ⟨rfl, rfl, rfl, rfl⟩, rfl, ?_, ?_⟩
    · -- The kernel compares the erased chunk with the statement's number, too large for the elaborator.
      exact congrArg (fun w => Sparse.ins s.dev.boot.calBuf k (putBits ((Sparse.find s.dev.boot.calBuf k).getD w) 0 (8 * n) v)) (by decide +kernel)
    · exact (((Device.Frame.refl [] s.dev).same (f := s.dev.calBuffered k _) rfl rfl).respond _ _ _).untouched (by decide)
  · intro s c v x hm hl
    exact givesThat_eff (calCommitEff c v x) rfl (calCommitEff_busy hm hl ▸ onlyAnswered_self 0x31 8 [] hm)
  · intro s c v x hm hl hc
    exact givesThat_eff (calCommitEff c v x) rfl (calCommitEff_fails hm hl hc ▸ onlyAnswered_self 0x31 5 _ hm)
  · intro s c v rs hm hl hc hrs hsrc hcopy
    refine givesThat_eff (calCommitEff c v false) rfl ?_
    obtain ⟨ps, hprog⟩ := calCommitEff_programs hm hl hc hrs hsrc hcopy
    obtain ⟨hA, hB, hsend, hframe⟩ := s.dev.calCopied_shows (c == 1)
    have hsame := (s.dev.calCopied (c == 1)).log_sameNor 9 0x7803 ps
    obtain ⟨hnor, -, -, -, -⟩ := ((s.dev.calCopied (c == 1)).log 9 0x7803 ps).respond_boot 0x31 0 []
    rw [hprog, hnor, hsame.calA, hsame.calB, hA, hB]
    refine ⟨answered_respond 0x31 0 [] hm (hsend.trans (Device.log_sameSend _ _ _ _)), ?_, ?_, ?_⟩
    · interval_cases c <;> rfl
    · interval_cases c <;> rfl
    · exact ((((hframe.mono (by simp)).log 9 0x7803 ps (List.mem_singleton.2 rfl))).respond _ _ _).untouched (by decide)
  · intro s c v x rs t hm hl hc hrs hsrc hf hd
    refine givesThat_eff (calCommitEff c v x) rfl ?_
    have hsame := s.dev.log_sameNor 9 0x7804 [t]
    obtain ⟨hnor, -, -, -, -⟩ := (s.dev.log 9 0x7804 [t]).respond_boot 0x31 6 ([0] ++ bytesOf 2 t)
    rw [calCommitEff_fixed hm hl hc hrs hsrc hf hd, hnor, hsame.calA, hsame.calB]
    refine ⟨answered_respond 0x31 6 _ hm (Device.log_sameSend _ _ _ _), rfl, rfl, ?_⟩
    exact (((Device.Frame.refl [RG_LOGSTAT] s.dev).log _ _ _ (by decide)).respond _ _ _).untouched (by decide)
  · intro s c o n hm h
    exact givesThat_eff (calReadEff c o n) rfl (calReadEff_bad hm h ▸ onlyAnswered_self 0x32 4 [] hm)
  · intro s c o n hm hc hn ho
    exact givesThat_eff (calReadEff c o n) rfl (calReadEff_reads hm hc hn ho ▸ onlyAnswered_self 0x32 0 _ hm)
  · intro s m k x hm hp h
    exact givesThat_eff (keyRevokeEff m k x) rfl (keyRevokeEff_malformed hm hp h ▸ onlyAnswered_self 0x40 4 [] hm)
  · intro s t k x hm hp ht hk
    exact givesThat_eff (keyRevokeEff (revokeMessage t) k x) rfl (keyRevokeEff_unsigned hm hp ht hk ▸ onlyAnswered_self 0x40 5 [3] hm)
  · intro s t k hm hp ht hk hu hb href
    refine givesThat_eff (keyRevokeEff (revokeMessage t) k true) rfl ?_
    have hsame := (s.dev.keyRevoked t).log_sameNor 8 0x7010 [t]
    have hotp := Device.log_otp (s.dev.keyRevoked t) 8 0x7010 [t]
    obtain ⟨q, u, n, o, hsent⟩ := ((s.dev.keyRevoked t).log 8 0x7010 [t]).respond_sent 0x40 0 []
    obtain ⟨hnor, -, -, -, -⟩ := ((s.dev.keyRevoked t).log 8 0x7010 [t]).respond_boot 0x40 0 []
    rw [keyRevokeEff_signed hm hp ht hk hu hb, if_neg (by simp [href])]
    refine ⟨answered_respond 0x40 0 [] hm (Device.SameSend.trans (e := s.dev.keyRevoked t) ⟨rfl, rfl, rfl, rfl⟩ (Device.log_sameSend _ _ _ _)), ?_, ?_, ?_⟩
    · rw [hsent]
      exact hotp
    · rw [hnor]
      exact hsame.calA
    · exact ((((Device.Frame.refl [RG_LOGSTAT] s.dev).same (f := s.dev.keyRevoked t) rfl rfl).log _ _ _ (by decide)).respond _ _ _).untouched (by decide)
  · intro s t k hm hp ht hk hu hb href
    refine givesThat_eff (keyRevokeEff (revokeMessage t) k true) rfl ?_
    rw [keyRevokeEff_signed hm hp ht hk hu hb, if_pos href]
    exact onlyAnswered_self 0x40 6 ([0] ++ bytesOf 2 t) hm
  · intro s n hm hp hl
    have hasked := storeRecoverEff_asked (n := n) hm hp hl
    refine ⟨fun hn => givesThat_eff (storeRecoverEff n) rfl ?_, fun hn hst => givesThat_eff (storeRecoverEff n) rfl ?_,
      fun hn hst => givesThat_eff (storeRecoverEff n) rfl ?_⟩
    · rw [hasked, if_pos hn]
      exact onlyAnswered_self 0x50 4 [] hm
    · rw [hasked, if_neg (Nat.not_le.2 hn), if_pos hst]
      exact onlyAnswered_self 0x50 3 [] hm
    · obtain ⟨q, u, k, o, hsent⟩ := ((s.dev.setLong (.storeRecover n)).log 9 0x7014 [n]).respond_sent 0x50 1 []
      rw [hasked, if_neg (Nat.not_le.2 hn), if_neg (not_not.2 hst)]
      refine ⟨answered_respond 0x50 1 [] hm (Device.SameSend.trans (e := s.dev.setLong (.storeRecover n)) ⟨rfl, rfl, rfl, rfl⟩ (Device.log_sameSend _ _ _ _)),
        ?_, ?_, ?_⟩
      · rw [hsent]
        exact Device.log_boot _ _ _ _
      · rw [hsent]
        exact Device.log_medium _ _ _ _
      · exact ((((Device.Frame.refl [RG_LOGSTAT] s.dev).same (f := s.dev.setLong (.storeRecover n)) rfl rfl).log _ _ _ (by decide)).respond _ _ _).untouched
          (by decide)
  · intro s o h
    exact gives_eff (storeRecoverDoneEff o) rfl (storeRecoverDoneEff_idle h)
  · intro s o h
    refine givesThat_eff (storeRecoverDoneEff o) rfl ?_
    obtain ⟨hboot, hrebuild, htables, hmedium, hhnor, -⟩ := ((s.dev.setLong .none).standOn (s.dev.fullScan o)).recovered_shows 0
    obtain ⟨hboot', htables', hbands, hjournal, hhnor', hframe⟩ := (s.dev.setLong .none).standOn_shows (s.dev.fullScan o)
    rw [storeRecoverDoneEff_scans h, s.dev.fullScan_setLong, hboot, hrebuild, htables, hmedium, hhnor, hboot', htables', hbands, hjournal, hhnor']
    refine ⟨rfl, rfl, rfl, rfl, rfl, rfl, ?_⟩
    exact ((((Device.Frame.refl [] s.dev).same (f := s.dev.setLong .none) rfl rfl).trans hframe).mono (by simp)).trans (Device.recovered_frame _ 0)
      |>.untouched (by decide)
  · intro s o h
    refine givesThat_eff (storeRecoverDoneEff o) rfl ?_
    obtain ⟨hboot, hrebuild, htables, hmedium, hhnor, hkeys⟩ := (s.dev.setLong .none).startOver.recovered_shows 1
    obtain ⟨hboot', htables', hbands, hnsids, hblobs⟩ := (s.dev.setLong .none).startOver_shows
    rw [storeRecoverDoneEff_restarts h, hboot, hrebuild, htables, hmedium, hkeys, Device.nsids, hhnor, hboot']
    exact ⟨rfl, rfl, hbands, htables', hnsids, hblobs⟩

end

section
/-!
Activation and probation (R119, R437, R450, R455, R456): the drain, the switch, the window, the confirmation.
-/
namespace Sys2Proof.Machine

variable {d e : Device}

/-! ### CSTS.PP -/

/-- CSTS.PP of every controller. -/
def Device.ppSet (d : Device) (b : Bool) : Device := d.onCtrls fun k => { k with pp := b && k.en }

theorem Device.ppSet_first (d : Device) (b : Bool) : (d.ppSet b).host.ctrls.1.pp = (b && d.host.ctrls.1.en) := by
  have h0 : 0 ∈ d.ctrls := by
    unfold Device.ctrls
    split <;> simp
  exact congrArg Ctrl.pp (d.ctrl_onCtrls (fun k => { k with pp := b && k.en }) h0)

theorem Device.setPP_off (d : Device) : d.setPP false = d.ppSet false := by
  rw [Device.setPP]
  rw [if_neg Bool.false_ne_true]
  rfl

theorem Device.setPP_on (d : Device) : d.setPP true = (d.ppSet true).postAen 512 ⟨2, 1, 0⟩ := by
  rw [Device.setPP]
  rw [if_pos rfl]
  rfl

theorem Device.postCq_ctrls (d : Device) (c q : Nat) (out : Bool → Output) : (d.postCq c q out).host.ctrls = d.host.ctrls := by
  unfold Device.postCq
  split
  · rfl
  · extract_lets
    split
    · rfl
    · rfl

theorem Device.updCtrl_first_pp (d : Device) (c : Nat) {f : Ctrl → Ctrl} (hf : ∀ k, (f k).pp = k.pp) :
    (d.updCtrl c f).host.ctrls.1.pp = d.host.ctrls.1.pp := by
  have hctrls : (d.updCtrl c f).host.ctrls = if c = 0 then (f d.host.ctrls.1, d.host.ctrls.2) else (d.host.ctrls.1, f d.host.ctrls.2) := rfl
  rw [hctrls]
  split
  · exact hf _
  · rfl

theorem Device.aenOn_first_pp (d : Device) (c mask : Nat) (a : Aen) : (d.aenOn c mask a).host.ctrls.1.pp = d.host.ctrls.1.pp := by
  have hpost : ∀ (e : Device) id st x y, (e.post id st x y).host.ctrls = e.host.ctrls := fun e _ _ _ _ => e.postCq_ctrls _ _ _
  unfold Device.aenOn
  split
  · rfl
  · split
    · exact d.updCtrl_first_pp c fun _ => rfl
    · rw [hpost]
      exact d.updCtrl_first_pp c fun _ => rfl

theorem Device.postAen_first_pp (d : Device) (mask : Nat) (a : Aen) : (d.postAen mask a).host.ctrls.1.pp = d.host.ctrls.1.pp :=
  List.foldlRecOn (motive := fun e : Device => e.host.ctrls.1.pp = d.host.ctrls.1.pp) _ _ rfl fun e he c _ => (e.aenOn_first_pp c mask a).trans he

/-- Beside the host's own state, PP changes nothing. -/
theorem Device.ppSet_hostOnly (d : Device) (b : Bool) : d.HostOnly (d.ppSet b) := by
  obtain ⟨c, hc⟩ := d.onCtrls_ctrls fun k => { k with pp := b && k.en }
  exact ⟨_, _, hc⟩

theorem Device.HostOnly.boot (h : d.HostOnly e) : e.boot = d.boot := by
  obtain ⟨x, o, rfl⟩ := h
  rfl

theorem Device.HostOnly.nor (h : d.HostOnly e) : e.nor = d.nor := by
  obtain ⟨x, o, rfl⟩ := h
  rfl

theorem Device.HostOnly.brec (h : d.HostOnly e) : e.brec = d.brec := by rw [Device.brec, Device.brec, h.nor]

theorem Device.HostOnly.frame (h : d.HostOnly e) (rs : List Nat) : Device.Frame rs d e := by
  obtain ⟨x, o, rfl⟩ := h
  exact (Device.Frame.refl rs d).same rfl rfl

/-- PP cleared. -/
theorem Device.setPP_off_shows (d : Device) : (d.setPP false).host.ctrls.1.pp = false ∧ d.HostOnly (d.setPP false) := by
  rw [Device.setPP_off]
  exact ⟨d.ppSet_first false, d.ppSet_hostOnly false⟩

/-- PP set on the enabled controllers. -/
theorem Device.setPP_on_shows (d : Device) : (d.host.ctrls.1.en = true → (d.setPP true).host.ctrls.1.pp = true) ∧ d.HostOnly (d.setPP true) := by
  rw [Device.setPP_on]
  exact ⟨fun hen => ((Device.postAen_first_pp _ _ _).trans (d.ppSet_first true)).trans hen, (d.ppSet_hostOnly true).trans (Device.postAen_hostOnly _ _ _)⟩

/-! ### The drain -/

theorem actSyncEff_unmet (h : d.boot.phase ≠ .released ∨ d.power.retain ≠ .out ∨ d.brec.stage ≠ 6 ∨ d.boot.act ≠ .none ∨
    d.hostMs < d.brec.epoch ∨ d.brec.epoch + 1000 * d.brec.window < d.hostMs) : actSyncEff d = d := by
  refine if_neg ?_
  rcases h with h | h | h | h | h | h
  · simp [Device.released, h]
  · simp [h]
  · simp [h]
  · simp [h]
  · simp [Device.inWindow, h]
  · simp [Device.inWindow, BootRec.windowEnd, Nat.not_le.2 h]

/-- The drain of an activation begun. -/
def Device.draining (d : Device) : Device := { d with boot := { d.boot with act := .draining, actAt := d.chron.chr } }

theorem actSyncEff_drains (hp : d.boot.phase = .released) (hr : d.power.retain = .out) (hs : d.brec.stage = 6) (ha : d.boot.act = .none)
    (hlo : d.brec.epoch ≤ d.hostMs) (hhi : d.hostMs ≤ d.brec.epoch + 1000 * d.brec.window) : actSyncEff d = d.draining.setPP true :=
  if_pos (by simp [Device.released, Device.inWindow, BootRec.windowEnd, hp, hr, hs, ha, hlo, hhi])

/-- The activation taken back. -/
def Device.notActivating (d : Device) : Device := { d with boot := { d.boot with act := .none } }

theorem Device.noInFlight_false (h : d.inFlight ≠ 0) : d.noInFlight = false := by simp [Device.noInFlight, h]

theorem Device.noInFlight_true (h : d.inFlight = 0) : d.noInFlight = true := by simp [Device.noInFlight, h]

section
variable {o : ImageObs} {p : PatchObs} {n : Nat}

theorem actDrainDoneEff_unmet (h : d.boot.act ≠ .draining ∨ d.inFlight ≠ 0) : actDrainDoneEff o p d = d := if_pos (h.imp_right Device.noInFlight_false)

theorem actDrainDoneEff_reverts (ha : d.boot.act = .draining) (hi : d.inFlight = 0) (hn : d.brec.pending = some n) (hc : d.imageCode (d.fwSlot n) o ≠ 0) :
    actDrainDoneEff o p d = (d.notActivating.setPP false).revertPending 2 := by
  rw [actDrainDoneEff, if_neg (by simp [ha, Device.noInFlight_true hi]), hn]
  exact if_pos hc

/-- The switch begun. -/
def Device.switching (d : Device) : Device := { d with boot := { d.boot with act := .switching } }

theorem actDrainDoneEff_switches (ha : d.boot.act = .draining) (hi : d.inFlight = 0) (hn : d.brec.pending = some n) (hc : d.imageCode (d.fwSlot n) o = 0) :
    actDrainDoneEff o p d = (d.switching.loadPatch p).writeRec { d.brec with pboots := 1 } := by
  rw [actDrainDoneEff, if_neg (by simp [ha, Device.noInFlight_true hi]), hn]
  exact if_neg (not_not.2 hc)

end

theorem Device.noPatchSeq_boot (d : Device) (q : SeqId) : (d.noPatchSeq q).boot = d.boot := by
  have hall : ∀ (e : Device) fs, (e.wrAll fs).boot = e.boot := fun e fs => by
    obtain ⟨r, hr⟩ := e.wrAll_regsOnly fs
    rw [hr]
  unfold Device.noPatchSeq
  dsimp only
  rw [hall]
  exact List.foldlRecOn (motive := fun e : Device => e.boot = d.boot) _ _ (Device.updEc_boot _ _ _) fun _ he _ _ => he

theorem Device.loadPatch_none_boot (d : Device) : (d.loadPatch .noPatch).boot = d.boot :=
  List.foldlRecOn (motive := fun e : Device => e.boot = d.boot) _ _ rfl fun e he q _ => (e.noPatchSeq_boot q).trans he

theorem Device.writeRec_boot (d : Device) (r : BootRec) : (d.writeRec r).boot = { d.boot with resumed := false } := rfl

theorem actDrainTimeoutEff_unmet (h : d.boot.act ≠ .draining ∨ d.inFlight = 0 ∨ d.chron.chr < d.boot.actAt + 2000000) : actDrainTimeoutEff d = d := by
  refine if_neg ?_
  rcases h with h | h | h
  · simp [h]
  · simp [Device.noInFlight_true h]
  · simp only [not_and]
    omega

theorem actDrainTimeoutEff_postpones (ha : d.boot.act = .draining) (hi : d.inFlight ≠ 0) (ht : d.boot.actAt + 2000000 ≤ d.chron.chr) :
    actDrainTimeoutEff d = (d.notActivating.setPP false).log 0 0x100C := if_pos ⟨ha, ht, Device.noInFlight_false hi⟩

/-! ### The switch -/

theorem actSwitchDoneEff_unmet (h : d.boot.act ≠ .switching ∨ d.brec.pending = none) : actSwitchDoneEff d = d := by
  unfold actSwitchDoneEff
  split
  case h_1 n ha hn => exact (h.elim (fun h => absurd ha h) fun h => absurd (h.symm.trans hn) (Option.some_ne_none n).symm)
  case h_2 => rfl

/-- The new code running. -/
def Device.newCode (d : Device) (t : List (Nat × Nat)) : Device := { d with boot := { d.boot with act := .none, revision := imgRevision t, probationUs := 0 } }

/-- The record of a probation at its start, and the settings for the new code. -/
def Device.probationBegun (d : Device) (t : List (Nat × Nat)) : Device :=
  ((d.newCode t).writeRec { d.brec with stage := 7, pboots := 1, prun := 0 }).checkSettings (imgSchema t)

/-- The probation shown in BOOTSTAT. -/
def Device.probationShown (d : Device) (n : Nat) : Device :=
  (((d.wr RG_BOOTSTAT_PROBATION 1).wr RG_BOOTSTAT_SLOT n).wr RG_BOOTSTAT_PBOOTS 1).wr RG_BOOTSTAT_SCHEMA ((d.nor.curSettings.map (·.schema)).getD 0)

theorem actSwitchDoneEff_switched {n : Nat} (ha : d.boot.act = .switching) (hn : d.brec.pending = some n) :
    ∃ ps, actSwitchDoneEff d = (((d.probationBegun (d.fwSlot n)).probationShown n).setPP false).log 9 0x700A ps := by
  unfold actSwitchDoneEff
  split
  case h_1 m _ hm =>
    obtain rfl := Option.some.inj (hn.symm.trans hm)
    exact ⟨_, rfl⟩
  case h_2 h => exact (h n ha hn).elim

/-- The settings saved and current. -/
def Device.withSettings (d : Device) (x y : Option Settings) : Device := { d with nor := { d.nor with savedSettings := x, curSettings := y } }

theorem Device.checkSettings_shows (d : Device) (k : Nat) : (d.checkSettings k).boot = d.boot ∧ (d.checkSettings k).brec = d.brec ∧
    Device.Frame [RG_LOGSTAT] d (d.checkSettings k) := by
  have hset : ∀ x y, Device.Frame [RG_LOGSTAT] d (d.withSettings x y) := fun x y =>
    (Device.Frame.refl [RG_LOGSTAT] d).same (f := d.withSettings x y) rfl rfl
  have hlog : ∀ x y ps, ((d.withSettings x y).log 9 0x700F ps).boot = d.boot ∧ ((d.withSettings x y).log 9 0x700F ps).brec = d.brec ∧
      Device.Frame [RG_LOGSTAT] d ((d.withSettings x y).log 9 0x700F ps) := fun x y ps =>
    ⟨Device.log_boot _ _ _ _, (Device.log_sameNor _ _ _ _).brec, (hset x y).log 9 0x700F ps (by decide)⟩
  unfold Device.checkSettings
  split
  · exact ⟨rfl, rfl, (Device.Frame.refl [RG_LOGSTAT] d).same rfl rfl⟩
  · split
    · exact ⟨rfl, rfl, .refl _ d⟩
    · split
      · exact hlog _ _ _
      · exact hlog d.nor.savedSettings _ _

theorem Device.probationShown_frame (d : Device) (n : Nat) : Device.Frame [RG_BOOTSTAT, RG_UPDSTAT, RG_LOGSTAT] d (d.probationShown n) :=
  ((((Device.Frame.refl _ d).wr RG_BOOTSTAT_PROBATION 1 (by decide)).wr RG_BOOTSTAT_SLOT n (by decide)).wr RG_BOOTSTAT_PBOOTS 1 (by decide)).wr
    RG_BOOTSTAT_SCHEMA _ (by decide)

theorem Device.probationShown_shows (d : Device) {n : Nat} (h : n < 2) :
    (d.probationShown n).rd RG_BOOTSTAT_PROBATION = 1 ∧ (d.probationShown n).rd RG_BOOTSTAT_SLOT = n := by
  rw [Device.probationShown]
  refine ⟨?_, ?_⟩
  · rw [Device.rd_wr_bits (f := RG_BOOTSTAT_SCHEMA) _ _ (by decide), Device.rd_wr_bits (f := RG_BOOTSTAT_PBOOTS) _ _ (by decide),
      Device.rd_wr_bits (f := RG_BOOTSTAT_SLOT) _ _ (by decide), Device.rd_wr_same _ _ (by decide)]
    rfl
  · rw [Device.rd_wr_bits (f := RG_BOOTSTAT_SCHEMA) _ _ (by decide), Device.rd_wr_bits (f := RG_BOOTSTAT_PBOOTS) _ _ (by decide),
      Device.rd_wr_same _ _ (by decide)]
    exact Nat.mod_eq_of_lt h

theorem Device.probationBegun_shows (d : Device) (t : List (Nat × Nat)) : (d.probationBegun t).boot.act = .none ∧
    (d.probationBegun t).boot.revision = imgRevision t ∧ (d.probationBegun t).brec.stage = 7 ∧ (d.probationBegun t).brec.pboots = 1 ∧
    (d.probationBegun t).brec.prun = 0 ∧ Device.Frame [RG_BOOTSTAT, RG_UPDSTAT, RG_LOGSTAT] d (d.probationBegun t) := by
  obtain ⟨hboot, hrec, hframe⟩ := ((d.newCode t).writeRec { d.brec with stage := 7, pboots := 1, prun := 0 }).checkSettings_shows (imgSchema t)
  rw [Device.probationBegun, hboot, hrec]
  refine ⟨rfl, rfl, rfl, rfl, rfl, ?_⟩
  exact (((Device.Frame.refl [RG_BOOTSTAT, RG_UPDSTAT, RG_LOGSTAT] d).same (f := d.newCode t) rfl rfl).writeRec _ (by decide)).trans (hframe.mono (by simp))

/-! ### The window -/

theorem actWindowExpireEff_unmet (h : d.brec.stage ≠ 6 ∨ d.boot.act ≠ .none ∨ d.hostMs ≤ d.brec.epoch + 1000 * d.brec.window) :
    actWindowExpireEff d = d := by
  refine if_neg ?_
  rcases h with h | h | h
  · simp [h]
  · simp [h]
  · simp only [BootRec.windowEnd, not_and]
    omega

theorem actWindowExpireEff_ends (hs : d.brec.stage = 6) (ha : d.boot.act = .none) (hw : d.brec.epoch + 1000 * d.brec.window < d.hostMs) :
    actWindowExpireEff d = (d.writeRec { d.brec with stage := 5 }).log 9 0x700B := if_pos ⟨hs, ha, hw⟩

/-! ### Probation -/

theorem Device.saveProbation_frame (d : Device) : Device.Frame [RG_UPDSTAT] d d.saveProbation :=
  ((Device.Frame.refl [RG_UPDSTAT] d).same (f := { d with boot := { d.boot with probationUs := d.boot.probationUs % 1000000 } }) rfl rfl).writeRec _ (by decide)

theorem Device.saveProbation_shows (d : Device) : d.saveProbation.brec.prun = d.brec.prun + d.boot.probationUs / 1000000 ∧
    d.saveProbation.boot.probationUs = d.boot.probationUs % 1000000 ∧ d.saveProbation.brec.stage = d.brec.stage ∧ d.saveProbation.aon = d.aon :=
  ⟨rfl, rfl, rfl, rfl⟩

theorem probationTimeoutEff_unmet {st : Straps} (h : d.bit RG_BOOTSTAT_PROBATION = false ∨ d.brec.prun + d.boot.probationUs / 1000000 < 1800) :
    probationTimeoutEff st d = d := by
  refine if_neg ?_
  rcases h with h | h
  · simp [h]
  · simp only [Bool.and_eq_true, decide_eq_true_eq, not_and]
    omega

theorem probationTimeoutEff_resets {st : Straps} (hb : d.bit RG_BOOTSTAT_PROBATION = true) (h : 1800 ≤ d.brec.prun + d.boot.probationUs / 1000000) :
    probationTimeoutEff st d = d.saveProbation.deviceReset 5 st := if_pos (by simp [hb, h])

theorem Device.deviceReset_brec (d : Device) (cause : Nat) (st : Straps) : (d.deviceReset cause st).brec = d.brec :=
  (Device.log_sameNor _ 8 0x5008 [0]).brec

section
variable {x : Bool} {n : Nat}

theorem bootConfirmEff_ignored (h : d.bit RG_BOOTSTAT_PROBATION = false) : bootConfirmEff x d = d := by
  rw [bootConfirmEff, h]

/-- The pending slot made active, the probation over. -/
def Device.confirmed (d : Device) (n : Nat) : Device :=
  ((d.writeRec { d.brec with active := n, pending := none, stage := 8, pboots := 0, prun := 0 }).wr RG_BOOTSTAT_PROBATION 0).wr RG_BOOTSTAT_PBOOTS 0

/-- A security version fused. -/
def Device.svnFused (d : Device) (v : Nat) : Device := ({ d with otp := { d.otp with svn := v } } : Device).wr RG_BOOTSTAT_SVN v

theorem bootConfirmEff_confirms (h : d.bit RG_BOOTSTAT_PROBATION = true) (hn : d.brec.pending = some n) :
    bootConfirmEff x d =
      if d.otp.svn < imgSvn (d.fwSlot n) then
        if x then ((d.confirmed n).svnFused (imgSvn (d.fwSlot n))).log 8 0x700D else (d.confirmed n).log 8 0x7011
      else d.confirmed n := by
  rw [bootConfirmEff, h, hn]
  rfl

theorem Device.confirmed_frame (d : Device) (n : Nat) : Device.Frame [RG_BOOTSTAT, RG_UPDSTAT, RG_LOGSTAT] d (d.confirmed n) :=
  (((Device.Frame.refl _ d).writeRec _ (by decide)).wr RG_BOOTSTAT_PROBATION 0 (by decide)).wr RG_BOOTSTAT_PBOOTS 0 (by decide)

/-- What a confirmation shows, whatever is fused. -/
structure Device.Confirmed (e : Device) (n : Nat) : Prop where
  active : e.brec.active = n
  pending : e.brec.pending = none
  stage : e.brec.stage = 8
  probation : e.rd RG_BOOTSTAT_PROBATION = 0
  pboots : e.rd RG_BOOTSTAT_PBOOTS = 0

theorem Device.confirmed_confirmed (d : Device) (n : Nat) : (d.confirmed n).Confirmed n := by
  refine ⟨rfl, rfl, rfl, ?_, (Device.rd_wr_same _ _ (by decide)).trans (Nat.zero_mod _)⟩
  rw [Device.confirmed, Device.rd_wr_bits (f := RG_BOOTSTAT_PBOOTS) _ _ (by decide), Device.rd_wr_same _ _ (by decide)]
  exact Nat.zero_mod _

theorem Device.Confirmed.svnFused (h : e.Confirmed n) (v : Nat) : (e.svnFused v).Confirmed n := by
  have hrd : ∀ f : RF, (f.lo + f.n ≤ 16 ∨ 23 ≤ f.lo) → (e.svnFused v).rd f = e.rd f := fun f hf =>
    (Device.rd_wr_bits _ v (f := RG_BOOTSTAT_SVN) hf).trans (Device.rd_congr rfl f)
  exact ⟨h.active, h.pending, h.stage, (hrd _ (.inr (by decide))).trans h.probation, (hrd _ (.inr (by decide))).trans h.pboots⟩

theorem Device.Confirmed.log (h : e.Confirmed n) (a b : Nat) (ps : List Nat) : (e.log a b ps).Confirmed n := by
  have hrec := (e.log_sameNor a b ps).brec
  exact ⟨by rw [hrec]; exact h.active, by rw [hrec]; exact h.pending, by rw [hrec]; exact h.stage, (Device.rd_log _ _ _ _ (by decide)).trans h.probation,
    (Device.rd_log _ _ _ _ (by decide)).trans h.pboots⟩

theorem Device.svnFused_frame (d : Device) (v : Nat) : Device.Frame [RG_BOOTSTAT, RG_UPDSTAT, RG_LOGSTAT] d (d.svnFused v) :=
  ((Device.Frame.refl _ d).same (f := { d with otp := { d.otp with svn := v } }) rfl rfl).wr RG_BOOTSTAT_SVN v (by decide)

theorem Device.rd_svnFused (d : Device) {v : Nat} (h : v < 2 ^ RG_BOOTSTAT_SVN.n) : (d.svnFused v).rd RG_BOOTSTAT_SVN = v :=
  (Device.rd_wr_same _ _ (by decide)).trans (Nat.mod_eq_of_lt h)

end

end Sys2Proof.Machine

open Sys2Proof Sys2Proof.Machine

/-- Settles O60: an edge by its conditions, a drain by its pending slot, a probation by its record and its end. -/
theorem activationsDrainSwitchAndAreConfirmed : Obligations.ActivationsDrainSwitchAndAreConfirmed := by
  refine ⟨?_, ?_, ?_, ?_, ?_, ?_, ?_, ?_, ?_, ?_, ?_, ?_, ?_, ?_, ?_, ?_, ?_⟩
  · intro s h
    exact gives_eff actSyncEff rfl (actSyncEff_unmet h)
  · intro s hp hr hs ha hlo hhi
    refine givesThat_eff actSyncEff rfl ?_
    obtain ⟨hpp, hhost⟩ := s.dev.draining.setPP_on_shows
    rw [actSyncEff_drains hp hr hs ha hlo hhi, hhost.boot, hhost.nor]
    exact ⟨rfl, hpp, rfl⟩
  · intro s o p h
    exact gives_eff (actDrainDoneEff o p) rfl (actDrainDoneEff_unmet h)
  · intro s o p n ha hi hn hc
    refine givesThat_eff (actDrainDoneEff o p) rfl ?_
    obtain ⟨hpp, hhost⟩ := s.dev.notActivating.setPP_off_shows
    have hrec : (s.dev.notActivating.setPP false).brec = s.dev.brec := hhost.brec
    have hframe := ((Device.Frame.refl [RG_UPDSTAT, RG_LOGSTAT] s.dev).same (f := s.dev.notActivating) rfl rfl).trans (hhost.frame _)
    rw [actDrainDoneEff_reverts ha hi hn hc, Device.revertPending_some hrec hn, (Device.log_sameNor _ _ _ _).brec, Device.log_boot, Device.log_host,
      Device.writeRec_boot, hhost.boot]
    exact ⟨rfl, rfl, rfl, hpp, rfl,
      ((hframe.writeRec _ (by decide)).log _ _ _ (by decide)).untouched (by decide)⟩
  · intro s o n ha hi hn hc
    refine givesThat_eff (actDrainDoneEff o .noPatch) rfl ?_
    rw [actDrainDoneEff_switches ha hi hn hc, Device.writeRec_brec]
    exact ⟨congrArg Boot.act s.dev.switching.loadPatch_none_boot, hn, rfl, rfl⟩
  · intro s h
    exact gives_eff actDrainTimeoutEff rfl (actDrainTimeoutEff_unmet h)
  · intro s ha hi ht
    refine givesThat_eff actDrainTimeoutEff rfl ?_
    obtain ⟨hpp, hhost⟩ := s.dev.notActivating.setPP_off_shows
    obtain ⟨k, hnor⟩ := (s.dev.notActivating.setPP false).log_norSeq 0 0x100C []
    have hframe := ((Device.Frame.refl [RG_LOGSTAT] s.dev).same (f := s.dev.notActivating) rfl rfl).trans (hhost.frame _)
    rw [actDrainTimeoutEff_postpones ha hi ht, Device.log_boot, Device.log_host, hnor, hhost.boot, hhost.nor]
    exact ⟨rfl, hpp, rfl, (hframe.log _ _ _ (by decide)).untouched (by decide)⟩
  · intro s h
    exact gives_eff actSwitchDoneEff rfl (actSwitchDoneEff_unmet h)
  · intro s n ha hn hlt
    refine givesThat_eff actSwitchDoneEff rfl ?_
    obtain ⟨ps, hgo⟩ := actSwitchDoneEff_switched ha hn
    obtain ⟨hact, hrev, hstage, hpboots, hprun, hframe⟩ := s.dev.probationBegun_shows (s.dev.fwSlot n)
    obtain ⟨hprob, hslot⟩ := (s.dev.probationBegun (s.dev.fwSlot n)).probationShown_shows hlt
    obtain ⟨hpp, hhost⟩ := ((s.dev.probationBegun (s.dev.fwSlot n)).probationShown n).setPP_off_shows
    rw [hgo, Device.log_boot, Device.log_host, (Device.log_sameNor _ _ _ _).brec, Device.rd_log _ _ _ _ (by decide), Device.rd_log _ _ _ _ (by decide),
      hhost.boot, hhost.brec, hhost.rd, hhost.rd]
    refine ⟨hact, hrev, hstage, hpboots, hprun, hprob, hslot, hpp, ?_⟩
    exact (((hframe.trans (Device.probationShown_frame _ n)).trans (hhost.frame _)).log _ _ _ (by decide)).untouched (by decide)
  · intro s h
    exact gives_eff actWindowExpireEff rfl (actWindowExpireEff_unmet h)
  · intro s hs ha hw
    refine givesThat_eff actWindowExpireEff rfl ?_
    rw [actWindowExpireEff_ends hs ha hw, (Device.log_sameNor _ _ _ _).brec, Device.rd_log _ _ _ _ (by decide),
      Device.rd_writeRec_stage _ (show 5 < 16 by decide)]
    exact ⟨rfl, rfl, (((Device.Frame.refl _ s.dev).writeRec _ (by decide)).log _ _ _ (by decide)).untouched (by decide)⟩
  · intro s h
    exact gives_eff (fun d => if d.bit RG_BOOTSTAT_PROBATION then d.saveProbation else d) rfl (if_neg (by simp [h]))
  · intro s st x h
    exact ⟨gives_eff (probationTimeoutEff st) rfl (probationTimeoutEff_unmet (.inl h)), gives_eff (bootConfirmEff x) rfl (bootConfirmEff_ignored h)⟩
  · intro s h
    refine givesThat_eff (fun d => if d.bit RG_BOOTSTAT_PROBATION then d.saveProbation else d) rfl ?_
    obtain ⟨hprun, hus, hstage, -⟩ := s.dev.saveProbation_shows
    rw [if_pos h]
    exact ⟨hprun, hus, hstage, s.dev.saveProbation_frame.untouched (by decide)⟩
  · intro s st hb h
    exact gives_eff (probationTimeoutEff st) rfl (probationTimeoutEff_unmet (.inr h))
  · intro s st hb h hheld
    refine givesThat_eff (probationTimeoutEff st) rfl ?_
    obtain ⟨hprun, -, -, haon⟩ := s.dev.saveProbation_shows
    rw [probationTimeoutEff_resets hb h, Device.deviceReset_cause, Device.deviceReset_brec, haon, hheld]
    exact ⟨rfl, rfl, rfl, hprun⟩
  · intro s x n hb hn hsvn
    refine givesThat_eff (bootConfirmEff x) rfl ?_
    have hconf := s.dev.confirmed_confirmed n
    have hframe := s.dev.confirmed_frame n
    have hotp : (s.dev.confirmed n).otp = s.dev.otp := rfl
    rw [bootConfirmEff_confirms hb hn]
    split
    case isTrue hlt =>
      split
      case isTrue hx =>
        obtain ⟨hact, hpend, hstage, hprob, hpboots⟩ := (hconf.svnFused (imgSvn (s.dev.fwSlot n))).log 8 0x700D []
        refine ⟨hact, hpend, hstage, hprob, hpboots, fun _ _ => ⟨?_, ?_⟩, fun h => ?_, ?_⟩
        · rw [Device.log_otp]
          rfl
        · rw [Device.rd_log _ _ _ _ (by decide), Device.rd_svnFused _ hsvn]
        · exact (h.elim (fun h => absurd hlt (Nat.not_lt.2 h)) fun h => absurd (hx.symm.trans h) (by decide))
        · exact ((hframe.trans (Device.svnFused_frame _ _)).log _ _ _ (by decide)).untouched (by decide)
      case isFalse hx =>
        obtain ⟨hact, hpend, hstage, hprob, hpboots⟩ := hconf.log 8 0x7011 []
        refine ⟨hact, hpend, hstage, hprob, hpboots, fun _ h => absurd h hx, fun _ => (Device.log_otp _ _ _ _).trans hotp, ?_⟩
        exact (hframe.log _ _ _ (by decide)).untouched (by decide)
    case isFalse hlt =>
      exact ⟨hconf.active, hconf.pending, hconf.stage, hconf.probation, hconf.pboots, fun h => absurd h hlt, fun _ => hotp, hframe.untouched (by decide)⟩

end
